-- ==== Sys2Proof/Word.lean ====
section
/-!
DEFINITION. The words of the HX48: bytes, 32-bit register words (R8), 48-bit MAC addresses and the
64-bit Phase Base position (R82), with the plainest conversions between them.
-/
namespace Sys2Proof

/-- One byte. -/
abbrev Byte := BitVec 8

/-- One 32-bit register word (R8). -/
abbrev Word := BitVec 32

/-- A Phase Base position CYCLE:PHASE (R82). -/
abbrev Pos := BitVec 64

/-- A register word from a number. -/
abbrev w32 (n : Nat) : Word := BitVec.ofNat 32 n

/-- A byte from a number. -/
abbrev b8 (n : Nat) : Byte := BitVec.ofNat 8 n

end Sys2Proof
end

