-- ==== Sys2Proof/Machine/Bits.lean ====
section
/-!
DEFINITION. Bit fields, byte orders and the cyclic redundancy checks that the spec names: little-endian
structures in host memory and network order on the wire (spec/00_scope.md, Notation and R585), the CRC-32 of
IEEE 802.3 (Silt TABLE entries, Table 2-15) and the CRC-32C of the Shell Link and of NVM records.
-/
namespace Sys2Proof.Machine

/-- Bits `lo` to `lo + n - 1` of a number. -/
def bits (v lo n : Nat) : Nat := (v >>> lo) % 2 ^ n

/-- Bit `i` of a number. -/
def bit (v i : Nat) : Bool := v.testBit i

/-- 1 for true, 0 for false. -/
def b2n (b : Bool) : Nat := if b then 1 else 0

/-- Field `[lo + n - 1 : lo]` of a register word. -/
def fld (w : Word) (lo n : Nat) : Nat := bits w.toNat lo n

/-- A number with the field `[lo + n - 1 : lo]` replaced. -/
def putBits (v lo n x : Nat) : Nat := v - bits v lo n * 2 ^ lo + (x % 2 ^ n) * 2 ^ lo

/-- A register word with the field `[lo + n - 1 : lo]` replaced. -/
def putFld (w : Word) (lo n x : Nat) : Word := w32 (putBits w.toNat lo n x)

/-- A register word with bit `i` set. -/
def setBit (w : Word) (i : Nat) : Word := w ||| w32 (2 ^ i)

/-- A register word with bit `i` cleared. -/
def clrBit (w : Word) (i : Nat) : Word := w &&& ~~~ w32 (2 ^ i)

/-- The two's complement value of the low `n` bits. -/
def signed (n v : Nat) : Int := if bit v (n - 1) then (bits v 0 n : Int) - 2 ^ n else bits v 0 n

/-- The low `n` bits of the two's complement of an integer. -/
def unsigned (n : Nat) (i : Int) : Nat := (i % (2 ^ n : Nat)).toNat

/-- `n` bytes of a number, lowest first (host-visible structures, R585). -/
def leBytes : Nat → Nat → List Byte
  | 0, _ => []
  | n + 1, v => b8 v :: leBytes n (v / 256)

/-- `n` bytes of a number, highest first (wire order). -/
def beBytes (n v : Nat) : List Byte := (leBytes n v).reverse

/-- The number whose bytes, lowest first, are given. -/
def leNat : List Byte → Nat
  | [] => 0
  | b :: bs => b.toNat + 256 * leNat bs

/-- The number whose bytes, highest first, are given. -/
def beNat (bs : List Byte) : Nat := leNat bs.reverse

/-- `n` bytes at offset `o`; a byte past the end reads as 0. -/
def slice (bs : List Byte) (o n : Nat) : List Byte :=
  let t := (bs.drop o).take n
  t ++ List.replicate (n - t.length) 0

/-- The big-endian number of `n` bytes at offset `o`. -/
def beAt (bs : List Byte) (o n : Nat) : Nat := beNat (slice bs o n)

/-- The little-endian number of `n` bytes at offset `o`. -/
def leAt (bs : List Byte) (o n : Nat) : Nat := leNat (slice bs o n)

/-- The byte at offset `o`, 0 past the end. -/
def byteAt (bs : List Byte) (o : Nat) : Nat := ((bs[o]?).getD 0).toNat

/-- A byte list with bytes replaced at offset `o` (the list keeps its length). -/
def putBytes (bs : List Byte) (o : Nat) (new : List Byte) : List Byte :=
  (bs.take o ++ new ++ bs.drop (o + new.length)).take bs.length

/-- One reflected CRC step over `k` bits with the given reflected polynomial. -/
def crcBits (poly : Nat) : Nat → Nat → Nat
  | 0, c => c
  | k + 1, c => crcBits poly k (if c % 2 = 1 then (c / 2) ^^^ poly else c / 2)

/-- Reflected 32-bit CRC of a byte list, initial value and final inversion all ones. -/
def crcReflected (poly : Nat) (bs : List Byte) : Nat :=
  (bs.foldl (fun c b => crcBits poly 8 (c ^^^ b.toNat)) 0xFFFFFFFF) ^^^ 0xFFFFFFFF

/-- CRC-32 with the IEEE 802.3 polynomial. -/
def crc32 (bs : List Byte) : Nat := crcReflected 0xEDB88320 bs

/-- CRC-32C (Castagnoli polynomial). -/
def crc32c (bs : List Byte) : Nat := crcReflected 0x82F63B78 bs

/-- Bitwise complement within `n` bits. -/
def complement (n v : Nat) : Nat := 2 ^ n - 1 - bits v 0 n

/-- Ceiling of a quotient; 0 when the divisor is 0. -/
def ceilDiv (a b : Nat) : Nat := if b = 0 then 0 else (a + b - 1) / b

/-- Positions of the set bits below `n`, ascending. -/
def setBitsOf (n v : Nat) : List Nat := (List.range n).filter (fun i => bit v i)

/-- The number whose set bits are the listed positions. -/
def maskOf (l : List Nat) : Nat := l.foldl (fun m i => m ||| 2 ^ i) 0

/-- A frame body without FCS as it stands on a line: zeros up to 60 bytes, and the FCS (R63, R394). -/
def paddedFrame (bs : List Byte) : List Byte :=
  let p := bs ++ List.replicate (60 - bs.length) 0
  p ++ leBytes 4 (crc32 p)

/-! ### Values of past cycles -/

/-- Spans of equal steps, newest first, that are kept. -/
def trailLen : Nat := 65536

/-- A count is `v` in cycle `now` and advances by `k` to the next cycle: the span in progress goes on, or a new one
begins. The count is taken modulo `m`; `m` = 0 stands for none. -/
def trailNote (m : Nat) (l : List (Nat × Nat × Nat)) (now v k : Nat) : List (Nat × Nat × Nat) :=
  match l with
  | [] => [(now, v, k)]
  | (c, x, j) :: rest =>
    if j = k ∧ v = (x + (now - c) * j) % m then l else (now, v, k) :: ((c, x, j) :: rest).take (trailLen - 1)

/-- The value of a count in cycle `c`; none before the cycles that are kept. -/
def trailAt (m : Nat) (l : List (Nat × Nat × Nat)) (c : Nat) : Option Nat :=
  (l.find? (fun x => decide (x.1 ≤ c))).map (fun x => (x.2.1 + (c - x.1) * x.2.2) % m)

end Sys2Proof.Machine
end

