-- ==== Sys2Proof/RegDef.lean ====
section
/-!
DEFINITION. What one row of a register table says: the offset in its page, the type of Table 0-7, the reset
(Bedrock) value of R11, the bits that a write can change (R6), the range that R584 checks at the write, and whether
the register is a half of a 64-bit pair under R9.
-/
namespace Sys2Proof

/-- The register types of Table 0-7. -/
inductive RegType where
  | ro | rw | rws | w1c | wo
deriving DecidableEq, Repr

/-- Whether a register is one half of a pair that R9 governs. -/
inductive Half where
  | none | lo | hi
deriving DecidableEq, Repr

/-- One row of a register table; it stands for `n` registers, `stride` bytes apart. -/
structure RegDef where
  /-- offset of the first register in its page -/
  off : Nat
  ty : RegType
  /-- Bedrock value (R11) -/
  reset : Nat := 0
  /-- the bits that a write can change; all others are reserved or read only (R6) -/
  mask : Nat := 0xFFFFFFFF
  n : Nat := 1
  stride : Nat := 4
  half : Half := .none
  /-- a register that its field map marks secure-only (R40) -/
  sec : Bool := false
  /-- the ranges and encodings that the register states on its own (R584) -/
  ok : Nat → Bool := fun _ => true

/-- A pair of 32-bit halves that R9 governs, `_LO` at `off` and `_HI` at `off + 4`. -/
def pair64 (off : Nat) (ty : RegType) (rlo rhi mlo mhi : Nat) (n stride : Nat) : List RegDef :=
  [{ off := off, ty := ty, reset := rlo, mask := mlo, n := n, stride := stride, half := .lo },
   { off := off + 4, ty := ty, reset := rhi, mask := mhi, n := n, stride := stride, half := .hi }]

/-- `k` 64-bit counters (R10) from `off` on, 8 bytes apart. -/
def counters64 (off k : Nat) : List RegDef := pair64 off .ro 0 0 0 0 k 8

/-- The pages of Table 19-1. -/
inductive Page where
  | sys | pwr | wake | lc | upd | silt | sem | flt | lsp | mem | twn | pb | ptp | gpio
  | hif (hostB : Bool) (k : Nat)
  | tue | prs | pl (n : Nat) | fw | sfp | fab | buf
  | mac (n : Nat) | egs (n : Nat) | sl | sds (n : Nat) | tphy (n : Nat)
  | can (n : Nat) | lin (n : Nat) | gwe (k : Nat) | ce (k : Nat) | key (k : Nat) | msc (n : Nat)
deriving DecidableEq, Repr

end Sys2Proof
end

