-- ==== Sys2Proof/Machine/RegMapA.lean ====
section
/-!
DEFINITION. The register tables of the host, Phase Base, Ethernet port, network time and mode chapters: Tables
2-5, 2-6, 2-8, 2-13 and 2-17 (spec/02_host_and_registers.md), 3-5 to 3-8 (spec/03_phase_base.md), 4-5 to 4-10
(spec/04_ethernet_ports.md), 12-3 and 12-4 (spec/12_network_time.md), 17-9 to 17-11 (spec/17_modes_wake_boot.md),
and the common page registers of Table 19-2.
-/
namespace Sys2Proof.Machine
open Sys2Proof

/-- Table 19-2, the common registers of page number `p`. `ctrl` is the mask of the page's CTRL fields, and `irq` that of
its IRQ_RAW bits (R6, R564). -/
def regsCommon (p ctrl irq : Nat) : List RegDef :=
  [{ off := 0x000, ty := .ro, reset := 0x48000000 + p, mask := 0 },
   { off := 0x004, ty := .ro, reset := 0x000001A1, mask := 0 },
   { off := 0x008, ty := .rw, mask := ctrl },
   { off := 0x00C, ty := .ro, mask := 0 },
   { off := 0x010, ty := .ro, mask := 0 },
   { off := 0x014, ty := .rw, mask := irq },
   { off := 0x018, ty := .ro, mask := 0 },
   { off := 0x01C, ty := .w1c, mask := irq },
   { off := 0x020, ty := .rw, mask := 0xF, ok := fun v => bits v 0 4 ≤ 2 },
   { off := 0x024, ty := .ro, mask := 0 },
   { off := 0x028, ty := .wo, mask := 0x8000 },
   { off := 0x02C, ty := .ro, mask := 0 }]

/-- Table 2-6. -/
def regsSys : List RegDef :=
  [{ off := 0x040, ty := .wo, mask := 0xFFFF0003, ok := fun v => bits v 0 2 ≠ 3 },
   { off := 0x044, ty := .ro, n := 4, mask := 0 },
   { off := 0x054, ty := .ro, mask := 0 }]
  ++ pair64 0x058 .ro 0 0 0 0 1 8 ++ pair64 0x060 .ro 0 0 0 0 1 8

/-- Table 2-5. -/
def regsSem : List RegDef :=
  [{ off := 0x040, ty := .rw, n := 64, mask := 0 },
   { off := 0x140, ty := .ro, n := 64, mask := 0 },
   { off := 0x240, ty := .ro, n := 2, mask := 0 }]

/-- Table 2-17. -/
def regsSilt : List RegDef :=
  [{ off := 0x040, ty := .rw, mask := 3 },
   { off := 0x044, ty := .ro, mask := 0 },
   { off := 0x048, ty := .ro, reset := 1, mask := 0 },
   { off := 0x04C, ty := .ro, mask := 0 },
   { off := 0x050, ty := .rw, n := 2, reset := 0xFFFFFFFF },
   { off := 0x058, ty := .ro, reset := 0xFFFFFFFF, mask := 0 },
   { off := 0x05C, ty := .ro, mask := 0 }]
  ++ counters64 0x060 3

/-- Tables 2-8 and 2-9: `n` rings from `off` on. -/
def regsRing (off n : Nat) (sec : Bool) : List RegDef :=
  [{ off := off, ty := .rw, mask := 0xFFFFFFC0, n := n, stride := 0x20, half := .lo, sec := sec },
   { off := off + 0x04, ty := .rw, n := n, stride := 0x20, half := .hi, sec := sec },
   { off := off + 0x08, ty := .rw, reset := 0x8000010C, mask := 0x00FF3F1F, n := n, stride := 0x20, sec := sec,
     ok := fun v => 6 ≤ bits v 1 4 ∧ bits v 1 4 ≤ 12 ∧ 1 ≤ bits v 8 6 },
   { off := off + 0x0C, ty := .rw, mask := 0xFFFFFFC0, n := n, stride := 0x20, half := .lo, sec := sec },
   { off := off + 0x10, ty := .rw, n := n, stride := 0x20, half := .hi, sec := sec },
   { off := off + 0x14, ty := .rw, mask := 0xFFF, n := n, stride := 0x20, sec := sec },
   { off := off + 0x18, ty := .ro, mask := 0, n := n, stride := 0x20, sec := sec },
   { off := off + 0x1C, ty := .rw, mask := 0xFFFF, n := n, stride := 0x20, sec := sec }]

/-- Table 2-13 (page 0), Table 2-8 (pages 1 and 2) and the command mailbox (page 3). -/
def regsHif : Nat → List RegDef
  | 0 =>
    [{ off := 0x040, ty := .ro, mask := 0 },
     { off := 0x048, ty := .rw, reset := 0x03020100, mask := 0x1F1F1F1F },
     { off := 0x04C, ty := .rw, reset := 0x07060504, mask := 0x1F1F1F1F },
     { off := 0x100, ty := .rw, n := 80, mask := 0xBFBFBFBF }]
    ++ counters64 0x240 3
  | 1 => regsRing 0x040 32 false
  | 2 => regsRing 0x040 32 false
  | _ =>
    [{ off := 0x040, ty := .wo, mask := 1 },
     { off := 0x044, ty := .ro, mask := 0 },
     { off := 0x100, ty := .rw, n := 64 },
     { off := 0x200, ty := .ro, n := 64, mask := 0 }]

/-- Tables 17-9 and 17-10. -/
def regsPwr : List RegDef :=
  [{ off := 0x040, ty := .ro, reset := 0x00000201, mask := 0 },
   { off := 0x044, ty := .rws, reset := 0x000303E8, mask := 0x3FFFF },
   { off := 0x048, ty := .ro, n := 3, mask := 0 }]
  ++ counters64 0x100 5

/-- Table 17-11. -/
def regsWake : List RegDef :=
  [{ off := 0x040, ty := .rws },
   { off := 0x044, ty := .rws, mask := 0xFFFF },
   { off := 0x048, ty := .rws, mask := 0xFF },
   { off := 0x04C, ty := .rws, mask := 0xFFFFFF },
   { off := 0x050, ty := .rws, mask := 0xFFFF },
   { off := 0x054, ty := .w1c, mask := 0x3FFFF },
   { off := 0x058, ty := .w1c, mask := 0xFFFF },
   { off := 0x05C, ty := .ro, n := 2, mask := 0 }]
  ++ counters64 0x100 3

/-- Tables 3-5 and 3-6. -/
def regsPb : List RegDef :=
  [{ off := 0x040, ty := .rws, mask := 0xF },
   { off := 0x044, ty := .rws, reset := 0x0007A120, mask := 0x3FFFFFFF,
     ok := fun v => 1000 ≤ v ∧ v ≤ 1000000000 },
   { off := 0x048, ty := .rws, mask := 0x3FFFFFFF },
   { off := 0x04C, ty := .rws, reset := 0x00042000, mask := 0x00FFFF0F,
     ok := fun v => 1 ≤ bits v 8 8 ∧ 1 ≤ bits v 16 8 },
   { off := 0x050, ty := .rws, reset := 0x00040000 },
   { off := 0x054, ty := .rws, reset := 0x01F40001, mask := 0x07FF00FF,
     ok := fun v => 1 ≤ bits v 0 8 ∧ 100 ≤ bits v 16 11 ∧ bits v 16 11 ≤ 2000 },
   { off := 0x058, ty := .rws, reset := 0x07D00019, mask := 0xFFFF00FF,
     ok := fun v => 1 ≤ bits v 0 8 ∧ bits v 0 8 ≤ 100 ∧ 10 ≤ bits v 16 16 },
   { off := 0x068, ty := .ro, n := 2, mask := 0 },
   { off := 0x080, ty := .ro, mask := 0 }]
  ++ pair64 0x060 .rws 0 0 0xFFFFFFFF 0xFFFFFF 1 8
  ++ pair64 0x070 .ro 0 0 0 0 2 8 ++ counters64 0x100 3

/-- Tables 3-7 and 3-8. -/
def regsGpio : List RegDef :=
  [{ off := 0x100, ty := .rw, reset := 0x00000100, mask := 0x00FFFF3F, n := 16, stride := 0x10,
     ok := fun v => bits v 0 2 ≠ 3 ∧ 1 ≤ bits v 8 16 },
   { off := 0x104, ty := .rw, reset := 1, n := 16, stride := 0x10, ok := fun v => 1 ≤ v ∧ v ≤ 2 ^ 31 },
   { off := 0x200, ty := .rw, mask := 0xFF07, n := 8, stride := 0x20 },
   { off := 0x204, ty := .ro, n := 8, stride := 0x20, mask := 0 },
   { off := 0x208, ty := .ro, n := 8, stride := 0x20, mask := 0 },
   { off := 0x20C, ty := .ro, n := 8, stride := 0x20, mask := 0 },
   { off := 0x210, ty := .ro, n := 8, stride := 0x20, mask := 0 },
   { off := 0x214, ty := .ro, n := 8, stride := 0x20, mask := 0 },
   { off := 0x300, ty := .rws, reset := 0x00400000, mask := 0xFFFFFF0F, n := 2, stride := 0x20,
     ok := fun v => 4 ≤ bits v 16 16 },
   { off := 0x304, ty := .ro, n := 2, stride := 0x20, mask := 0 },
   { off := 0x308, ty := .ro, n := 2, stride := 0x20, mask := 0 },
   { off := 0x30C, ty := .ro, n := 2, stride := 0x20, mask := 0 },
   { off := 0x310, ty := .ro, n := 2, stride := 0x20, mask := 0 },
   { off := 0x340, ty := .rws, mask := 0xFF01, n := 2, stride := 0x10 },
   { off := 0x344, ty := .ro, n := 2, stride := 0x10, mask := 0 },
   { off := 0x348, ty := .ro, n := 2, stride := 0x10, mask := 0 }]
  ++ pair64 0x108 .rw 0 0 0xFFFFFFFF 0xFFFFFFFF 16 0x10

/-- Table 4-1: the modes and FEC settings that each port class has. -/
def portModeOk (port mode fec : Nat) : Bool :=
  if port < 8 then
    (mode == 1 && decide (fec ≤ 2)) || (mode == 2 && decide (fec ≤ 1)) || ((mode == 3 || mode == 4) && fec == 0)
  else if port < 32 then decide (2 ≤ mode ∧ mode ≤ 6) && fec == 0
  else (mode == 7 || mode == 8) && fec == 0

/-- Line rate in Mb/s of a MODE encoding (Table 1-4). -/
def modeMbps (mode : Nat) : Nat :=
  match mode with
  | 1 => 25000 | 2 => 10000 | 3 => 5000 | 4 => 2500 | 5 => 1000 | 6 => 1000 | 7 => 1000 | 8 => 100 | _ => 0

/-- R117, R121: what `MAC_MODE` of a port takes. -/
def macModeOk (port v : Nat) : Bool :=
  let mode := bits v 0 4
  let alt := bits v 8 4
  (if mode = 0 then bits v 4 2 == 0 else portModeOk port mode (bits v 4 2)) && bits v 12 2 != 3
  && (if alt = 0 then true
      else portModeOk port alt (bits v 12 2) && decide (modeMbps alt < modeMbps mode) && decide (1 ≤ bits v 16 8))

/-- Tables 4-5 and 4-6, page of port `n`. -/
def regsMac (n : Nat) : List RegDef :=
  [{ off := 0x040, ty := .rws, mask := 0x00FF3F3F, ok := macModeOk n },
   { off := 0x044, ty := .rws, reset := 0x000005F2, mask := 0x3FFF, ok := fun v => 64 ≤ v ∧ v ≤ 9216 },
   { off := 0x048, ty := .rws, reset := 0x000A0004, mask := 0xFFFF03FF, ok := fun v => bits v 0 10 ≤ 1000 },
   { off := 0x04C, ty := .ro, mask := 0 },
   { off := 0x050, ty := .rws, reset := 0x00000A00, mask := 0x00FFFF0F,
     ok := fun v => 1 ≤ bits v 8 8 ∧ bits v 8 8 ≤ 128 ∧ (n < 32 ∨ bits v 0 1 = 0) },
   { off := 0x054, ty := .ro, mask := 0 },
   { off := 0x058, ty := .rws, mask := 0xFFFFFF, n := 3 }]
  ++ pair64 0x068 .rw 0 0 0xFFFFFFFF 0xFFFF 1 8
  ++ counters64 0x100 19
  ++ (if n < 4 then
    [{ off := 0x400, ty := .rw, reset := 0x28, mask := 0x1FF, ok := fun v => 8 ≤ bits v 0 8 },
     { off := 0x404, ty := .wo, mask := 0x1F1F03 },
     { off := 0x408, ty := .rw, mask := 0xFFFF, n := 2 },
     { off := 0x410, ty := .ro, n := 2, mask := 0 }] else [])

/-- Tables 4-8 and 4-9; `base` is the offset of the lane registers less 0x040 (R567). -/
def regsLane (base : Nat) : List RegDef :=
  [{ off := base + 0x040, ty := .rws, reset := 1, mask := 0x37, ok := fun v => bits v 4 2 ≠ 3 },
   { off := base + 0x044, ty := .rws, reset := 0xC082, mask := 0xFFFF },
   { off := base + 0x048, ty := .ro, mask := 0 },
   { off := base + 0x04C, ty := .rw, mask := 0xF, ok := fun v => bits v 0 2 ≠ 3 ∧ bits v 2 2 ≠ 3 },
   { off := base + 0x050, ty := .ro, mask := 0 }]
  ++ counters64 (base + 0x100) 4

/-- Table 4-10. -/
def regsTphy : List RegDef :=
  [{ off := 0x040, ty := .rws, mask := 7 },
   { off := 0x044, ty := .wo, mask := 3 },
   { off := 0x048, ty := .ro, mask := 0 },
   { off := 0x04C, ty := .rw, mask := 1 },
   { off := 0x050, ty := .ro, reset := 3, mask := 0 }]
  ++ counters64 0x100 4

/-- Tables 12-3 and 12-4. -/
def regsPtp : List RegDef :=
  [{ off := 0x040, ty := .rws, reset := 0x700, mask := 0x701 },
   { off := 0x100, ty := .rws, reset := 0x003F0000, mask := 0x003FFF07,
     ok := fun v => (bits v 16 6 < 48 ∧ bit v 1 = false) ∨ bits v 16 6 = 63 },
   { off := 0x180, ty := .rws, reset := 0x003F0100, mask := 0x003FFF07,
     ok := fun v => (bits v 16 6 < 48 ∧ bit v 1 = false) ∨ bits v 16 6 = 63 },
   { off := 0x104, ty := .rws, n := 2, stride := 0x80 },
   { off := 0x108, ty := .rws, mask := 0xFFFF, n := 2, stride := 0x80 },
   { off := 0x10C, ty := .rws, reset := 0x0064C804, n := 2, stride := 0x80,
     ok := fun v => 1 ≤ bits v 0 8 ∧ 1 ≤ bits v 8 8 ∧ 1 ≤ bits v 16 16 },
   { off := 0x110, ty := .rws, reset := 0x000F4240, mask := 0x3FFFFFFF, n := 2, stride := 0x80,
     ok := fun v => 1 ≤ v ∧ v ≤ 1000000000 },
   { off := 0x114, ty := .rws, reset := 0x0FD3003C, mask := 0x0FFFFFFF, n := 2, stride := 0x80,
     ok := fun v => 2 ≤ bits v 16 4 ∧ (bits v 20 8 ≤ 3 ∨ 0xF9 ≤ bits v 20 8) },
   { off := 0x118, ty := .ro, n := 2, stride := 0x80, mask := 0 },
   { off := 0x11C, ty := .ro, n := 2, stride := 0x80, mask := 0 },
   { off := 0x120, ty := .ro, n := 2, stride := 0x80, mask := 0 },
   { off := 0x124, ty := .ro, n := 2, stride := 0x80, mask := 0 },
   { off := 0x130, ty := .ro, n := 2, stride := 0x80, mask := 0 },
   { off := 0x134, ty := .rws, n := 2, stride := 0x80 },
   { off := 0x138, ty := .rw, mask := 0x3FFFFFFF, n := 2, stride := 0x80 },
   { off := 0x144, ty := .wo, mask := 1, n := 2, stride := 0x80 },
   { off := 0x148, ty := .ro, n := 2, stride := 0x80, mask := 0 },
   { off := 0x400, ty := .rws, reset := 0x03200001, mask := 0xFFFF00F1, n := 48, stride := 0x10,
     ok := fun v => bits v 4 4 ≤ 3 ∨ 13 ≤ bits v 4 4 },
   { off := 0x404, ty := .ro, n := 48, stride := 0x10, mask := 0 },
   { off := 0x408, ty := .ro, n := 48, stride := 0x10, mask := 0 },
   { off := 0x40C, ty := .ro, n := 48, stride := 0x10, mask := 0 }]
  ++ pair64 0x044 .rws 0 0 0xFFFFFFFF 0xFFFFFFFF 1 8
  ++ pair64 0x128 .ro 0 0 0 0 2 0x80 ++ pair64 0x13C .rw 0 0 0xFFFFFFFF 0xFFFF 2 0x80
  ++ counters64 0x800 13

end Sys2Proof.Machine
end

