-- ==== Sys2Proof/Machine/RegMapB.lean ====
section
/-!
DEFINITION. The register tables of the frame path: Tables 5-8 and 5-9 (spec/05_parse_engines.md), 6-13, 6-14 and
6-16 (spec/06_tables_and_learning.md), 7-10, 7-11 and 7-13 (spec/07_firewall_and_stream_policing.md), 8-4 and 8-6
(spec/08_fabric_and_buffers.md), 9-3 and 9-4 (spec/09_egress_scheduling.md). The TUE ring registers of Table 6-5,
which lie in BAR2, follow at the end.
-/
namespace Sys2Proof.Machine
open Sys2Proof

/-- Tables 5-8 and 5-9. -/
def regsPrs : List RegDef :=
  [{ off := 0x040, ty := .rws, reset := 0xD2, mask := 0xFFFF00F7, ok := fun v => bits v 0 3 ≤ 4 },
   { off := 0x044, ty := .rws, reset := 0x3458, mask := 0xFFFF },
   { off := 0x048, ty := .ro, mask := 0 },
   { off := 0x04C, ty := .rw, mask := 0x53F, ok := fun v => bits v 0 6 ≤ 51 },
   { off := 0x050, ty := .ro, n := 2, mask := 0 },
   { off := 0x080, ty := .rws, mask := 0x807FFFFF, n := 8, stride := 8,
     ok := fun v => bit v 31 = false ∨ (2 ≤ bits v 16 7 ∧ bits v 16 7 ≤ 64 ∧ bits v 16 7 % 2 = 0) },
   { off := 0x084, ty := .rws, reset := 0x7F, mask := 0x7F, n := 8, stride := 8,
     ok := fun v => v = 0x7F ∨ v % 2 = 0 },
   { off := 0x0C0, ty := .rws, mask := 0x873FFFFF, n := 8,
     ok := fun v => bits v 16 2 ≠ 3 ∧ bits v 24 3 ≤ 4 },
   { off := 0x100, ty := .rws, reset := 0xF3, mask := 0xFF, n := 52 },
   { off := 0x300, ty := .ro, n := 8, mask := 0 },
   { off := 0x320, ty := .ro, n := 32, mask := 0 }]
  ++ counters64 0x200 11

/-- Tables 6-13 and 6-14. -/
def regsTue : List RegDef :=
  [{ off := 0x040, ty := .rws, reset := 0x0010000A, mask := 0xFFFF01FF,
     ok := fun v => 1 ≤ bits v 0 8 ∧ 1 ≤ bits v 16 16 },
   { off := 0x044, ty := .rws, reset := 0x12C, mask := 0xFFFF },
   { off := 0x048, ty := .rws, mask := 0x1FFF1FFF },
   { off := 0x04C, ty := .ro, n := 3, mask := 0 },
   { off := 0x058, ty := .w1c },
   { off := 0x05C, ty := .w1c, mask := 0xFFFFF },
   { off := 0x060, ty := .w1c },
   { off := 0x064, ty := .w1c, mask := 0xFFFFF },
   { off := 0x068, ty := .rw, reset := 0x300, mask := 0x7FF }]
  ++ counters64 0x100 13

/-- Table 6-16. -/
def regsPl : List RegDef :=
  [{ off := 0x040, ty := .ro, n := 2, mask := 0 }] ++ counters64 0x100 10

/-- R217: the zone matrix row `r` of Bedrock, `_LO` or `_HI`. -/
def zmatReset (r : Nat) (hi : Bool) : Nat :=
  if r = 1 ∧ hi = false then 0xCCCECC1C
  else if r = 4 ∧ hi = false then 0xCCC1CCEC
  else
    let base := 0xCCCCCCCC
    if (hi = false ∧ r < 8) ∨ (hi = true ∧ 8 ≤ r) then putBits base (4 * (r % 8)) 4 1 else base

/-- Table 7-2: a row half holds no cell with ACT = 0x3. -/
def zmatOk (v : Nat) : Bool := (List.range 8).all (fun c => bits v (4 * c) 2 != 3)

/-- Tables 7-10 and 7-11. -/
def regsFw : List RegDef :=
  [{ off := 0x040, ty := .rws, reset := 6, mask := 7 },
   { off := 0x044, ty := .rws, mask := 0x3FFF },
   { off := 0x048, ty := .rws, reset := 0x11111111, n := 6 },
   { off := 0x060, ty := .rws, reset := 0x00004322, mask := 0xFFFF },
   { off := 0x068, ty := .rws, reset := 0x33333333, n := 4 },
   { off := 0x100, ty := .rws, reset := 0x0BB80032, ok := fun v => 1 ≤ bits v 0 16 ∧ 1 ≤ bits v 16 16 },
   { off := 0x104, ty := .rws, reset := 0x0014012C, ok := fun v => 1 ≤ bits v 0 16 ∧ 1 ≤ bits v 16 16 },
   { off := 0x108, ty := .rws, reset := 0x0064012C, ok := fun v => 1 ≤ bits v 0 16 ∧ 1 ≤ bits v 16 16 },
   { off := 0x10C, ty := .rws, reset := 0x00000BB8, mask := 0xFFFF, ok := fun v => 1 ≤ bits v 0 16 },
   { off := 0x110, ty := .ro, mask := 0 },
   { off := 0x114, ty := .rw, reset := 0xE000, mask := 0x1FFFF }]
  ++ (List.range 16).flatMap (fun r =>
    [{ off := 0x080 + 8 * r, ty := .rws, reset := zmatReset r false, ok := zmatOk },
     { off := 0x084 + 8 * r, ty := .rws, reset := zmatReset r true, ok := zmatOk }])
  ++ counters64 0x200 16 ++ pair64 0x410 .ro 0 0 0 0 63 16 ++ pair64 0x418 .ro 0 0 0 0 63 16

/-- Table 7-13. -/
def regsSfp : List RegDef :=
  [{ off := 0x040, ty := .ro, n := 2, mask := 0 },
   { off := 0x048, ty := .rw, mask := 0x33FFF, ok := fun v => bits v 16 2 ≠ 3 },
   { off := 0x04C, ty := .ro, mask := 0 }]
  ++ counters64 0x100 7 ++ pair64 0x420 .ro 0 0 0 0 63 32 ++ pair64 0x428 .ro 0 0 0 0 63 32
  ++ pair64 0x430 .ro 0 0 0 0 63 32 ++ pair64 0x438 .ro 0 0 0 0 63 32

/-- Table 8-4. -/
def regsFab : List RegDef :=
  [{ off := 0x040, ty := .rws, reset := 2, mask := 7 },
   { off := 0x044, ty := .rws, reset := 0xC0, mask := 0xFF },
   { off := 0x048, ty := .ro, n := 2, mask := 0 },
   { off := 0x080, ty := .rws, reset := 0xFFFFFFFF, n := 13 }]
  ++ pair64 0x050 .ro 0 0 0 0 1 8 ++ counters64 0x100 10

/-- Table 8-6. -/
def regsBuf : List RegDef :=
  [{ off := 0x040, ty := .rws, reset := 4, mask := 7 },
   { off := 0x044, ty := .ro, mask := 0 },
   { off := 0x048, ty := .ro, reset := 0x97780, mask := 0 },
   { off := 0x04C, ty := .ro, mask := 0 },
   { off := 0x050, ty := .rw, reset := 0x8000, mask := 0xFFFFF },
   { off := 0x058, ty := .ro, n := 2, mask := 0 },
   { off := 0x100, ty := .rws, reset := 0x30, mask := 0xFFFF, n := 416 },
   { off := 0x800, ty := .rws, reset := 0x120, mask := 0xFFFF, n := 52 }]
  ++ pair64 0x900 .ro 0 0 0 0 52 8 ++ counters64 0xC00 6

/-- `EGS_LVL_SEL`: a queue or the port bucket, and a kind that it has. -/
def lvlSelOk (v : Nat) : Bool := decide (bits v 0 4 ≤ 8) && decide (bits v 4 2 ≤ 2)

/-- Tables 9-3 and 9-4. -/
def regsEgs : List RegDef :=
  [{ off := 0x040, ty := .rws, reset := 0x14, mask := 0xFFFF00FF },
   { off := 0x044, ty := .rws, mask := 0xFFFF },
   { off := 0x048, ty := .rws, reset := 0x3E8, mask := 0xFFFFF, ok := fun v => v ≤ 100000 },
   { off := 0x04C, ty := .rws, mask := 0x7FFFFFF, ok := fun v => v ≤ 100000000 },
   { off := 0x050, ty := .rws, reset := 0x2800, mask := 0xFFFFFF, ok := fun v => 64 ≤ v },
   { off := 0x054, ty := .rws, mask := 0x1FFFFF, ok := fun v => bits v 0 10 + bits v 10 11 ≤ 1024 },
   { off := 0x058, ty := .rws },
   { off := 0x05C, ty := .rw, mask := 0x800003FF },
   { off := 0x060, ty := .rw, ok := fun v => bits v 8 2 ≠ 3 },
   { off := 0x064, ty := .ro, mask := 0 },
   { off := 0x068, ty := .rws, reset := 0x64, mask := 0xFF, ok := fun v => 1 ≤ v ∧ v ≤ 100 },
   { off := 0x06C, ty := .rws, mask := 0x3FFFFFFF },
   { off := 0x070, ty := .ro, mask := 0 },
   { off := 0x074, ty := .rw, mask := 0x3F, ok := lvlSelOk },
   { off := 0x078, ty := .ro, mask := 0 },
   { off := 0x100, ty := .rws, reset := 0x05F200A1, mask := 0xFFFF00FF, n := 8, stride := 0x20,
     ok := fun v => bits v 1 2 ≠ 3 ∧ 64 ≤ bits v 16 16 },
   { off := 0x104, ty := .rws, mask := 0x7FFFFFF, n := 8, stride := 0x20 },
   { off := 0x108, ty := .rws, reset := 0x2800, mask := 0xFFFFFF, n := 8, stride := 0x20, ok := fun v => 64 ≤ v },
   { off := 0x10C, ty := .rws, mask := 0x7FFFFFF, n := 8, stride := 0x20 },
   { off := 0x110, ty := .rws, mask := 0x3FFF, n := 8, stride := 0x20 },
   { off := 0x114, ty := .rws, mask := 0x3FFFFF, n := 8, stride := 0x20,
     ok := fun v => bits v 8 14 = 0 ∨ (64 ≤ bits v 8 14 ∧ bits v 8 14 ≤ 9254) },
   { off := 0x118, ty := .rws, mask := 0xFFFF, n := 8, stride := 0x20 },
   { off := 0x11C, ty := .ro, n := 8, stride := 0x20, mask := 0 }]
  ++ counters64 0x200 32 ++ counters64 0x300 6

/-- Table 6-5: the TUE ring registers of one host, in BAR2. -/
def regsTueRing : List RegDef :=
  pair64 0x00 .rw 0 0 0xFFFFFFC0 0xFFFFFFFF 1 8
  ++ [{ off := 0x08, ty := .rw, reset := 0x8000000C, mask := 0x3F1F,
        ok := fun v => 6 ≤ bits v 1 4 ∧ bits v 1 4 ≤ 12 ∧ 1 ≤ bits v 8 6 }]
  ++ pair64 0x0C .rw 0 0 0xFFFFFFC0 0xFFFFFFFF 1 8
  ++ [{ off := 0x14, ty := .rw, mask := 0xFFF },
      { off := 0x18, ty := .ro, n := 2, mask := 0 }]

end Sys2Proof.Machine
end

