-- ==== Sys2Proof/Machine/RegMapC.lean ====
section
/-!
DEFINITION. The register tables of the CAN and LIN controllers: Tables 10-14, 10-15 and 10-17
(spec/10_can_and_lin_controllers.md).
-/
namespace Sys2Proof.Machine
open Sys2Proof

/-- Tables 10-14 and 10-15, page of channel `n`. -/
def regsCan (n : Nat) : List RegDef :=
  [{ off := 0x040, ty := .rws, reset := 0x10, mask := 0xFF, ok := fun v => bits v 0 3 ≤ 4 ∧ bits v 5 2 ≠ 3 },
   { off := 0x044, ty := .rws, reset := 0x13134E13, mask := 0x7F7FFFFF },
   { off := 0x048, ty := .rws, reset := 0x13134E04, mask := 0x7F7FFFFF },
   { off := 0x04C, ty := .rws, reset := 0x13134E00, mask := 0x7F7FFFFF },
   { off := 0x050, ty := .rws, reset := 0x8050, mask := 0x83FF },
   { off := 0x054, ty := .rws, mask := 0x0FFFFFF1 },
   { off := 0x058, ty := .ro, n := 2, mask := 0 },
   { off := 0x060, ty := .wo, mask := 1 },
   { off := 0x064, ty := .wo, mask := 0x1FFFF },
   { off := 0x068, ty := .wo, mask := 1 },
   { off := 0x06C, ty := .ro, n := 2, mask := 0 },
   { off := 0x074, ty := .rws, reset := 0x00303000, mask := 0x003F3F03,
     ok := fun v => 1 ≤ bits v 8 6 ∧ 1 ≤ bits v 16 6 },
   { off := 0x078, ty := .ro, n := 11, mask := 0 },
   { off := 0x0A4, ty := .wo, n := 4 },
   { off := 0x0B4, ty := .rws, mask := 0x3F03, ok := fun v => bits v 8 6 ≤ 32 },
   { off := 0x0B8, ty := .rws, mask := 0xFFFF },
   { off := 0x0BC, ty := .rws, reset := 0x3E8, mask := 0xFFFFF, ok := fun v => v ≤ 100000 },
   { off := 0x0C0, ty := .rw, mask := 0x8000007F },
   { off := 0x0C4, ty := .rw },
   { off := 0x200, ty := .rws, n := 64, stride := 0x10 },
   { off := 0x204, ty := .rws, n := 64, stride := 0x10 },
   { off := 0x208, ty := .rws, mask := 0x3FFF, n := 64, stride := 0x10, ok := fun v => bits v 1 2 ≠ 3 },
   { off := 0x800, ty := .wo, n := 512 }]
  ++ counters64 0x100 20
  ++ (if n = 0 then
    [{ off := 0x0C8, ty := .ro, reset := 0x840, mask := 0 },
     { off := 0x0CC, ty := .rws, reset := 0xC0, mask := 0xFFF },
     { off := 0x0D0, ty := .rw, mask := 0x3FF },
     { off := 0x0D4, ty := .wo, mask := 0xC3FF, ok := fun v => bits v 0 10 < 512 },
     { off := 0x0D8, ty := .ro, n := 4, mask := 0 },
     { off := 0x0E8, ty := .rws, reset := 0x00040000 },
     { off := 0x0EC, ty := .rws, reset := 0xF0000000 }] else [])

/-- Table 10-12: bytes 0-3 of the frame table entry of frame ID `f`. The reset value 0 can be written again: LEN = 0 is
taken with DIR = 0 alone. Marks: DESIGN CHOICE (log entry 66). -/
def linFtOk (f v : Nat) : Bool :=
  bits v 0 2 != 3 && (decide (f < 0x3E) || bits v 0 2 == 0)
  && (bits v 0 2 == 0 || decide (1 ≤ bits v 4 4)) && decide (bits v 4 4 ≤ 8)
  && (decide (f < 0x3C) || bit v 2 == false)

/-- Table 10-17. -/
def regsLin : List RegDef :=
  [{ off := 0x040, ty := .rws, reset := 0x4B000000, mask := 0xFFFF07FF,
     ok := fun v => bits v 0 2 ≠ 3 ∧ bits v 4 7 ≤ 64 ∧ 1000 ≤ bits v 16 16 ∧ bits v 16 16 ≤ 20000 },
   { off := 0x044, ty := .rws, reset := 0x0004000D, mask := 0x000F001F,
     ok := fun v => 13 ≤ bits v 0 5 ∧ bits v 0 5 ≤ 26 },
   { off := 0x048, ty := .ro, mask := 0 },
   { off := 0x04C, ty := .wo, mask := 1 },
   { off := 0x050, ty := .rw, mask := 0x8000007F },
   { off := 0x054, ty := .rw, ok := fun v => bits v 6 2 ≠ 3 ∧ bits v 0 6 < 0x3E }]
  ++ counters64 0x100 9
  ++ (List.range 64).flatMap (fun f =>
    [{ off := 0x400 + 0x10 * f, ty := .rw, mask := 0x1F7, ok := linFtOk f },
     { off := 0x404 + 0x10 * f, ty := .rw },
     { off := 0x408 + 0x10 * f, ty := .rw },
     { off := 0x40C + 0x10 * f, ty := .rw }])

end Sys2Proof.Machine
end

