-- ==== Sys2Proof/Machine/RegMapD.lean ====
section
/-!
DEFINITION. The register tables of the gateway (Table 11-10, spec/11_gateway_engine.md), of the cipher engine and
MACsec (Tables 13-7 to 13-10), of keys and lifecycle (Tables 14-12 and 14-13), of the twin pair (Tables 15-9, 15-10
and 15-13), of fault handling (Tables 16-11 to 16-15) and of image update (Table 18-12).
-/
namespace Sys2Proof.Machine
open Sys2Proof

/-- Table 1-2: the port group of a logical port. -/
def portGroup (port : Nat) : Nat :=
  if port < 8 then port
  else if port < 32 then (port - 8) / 3
  else if port < 48 then 8 + (port - 32) / 2
  else 8 + (port - 48)

/-- Table 11-10. -/
def regsGwe : Nat → List RegDef
  | 0 =>
    [{ off := 0x040, ty := .rws, reset := 1, mask := 3 },
     { off := 0x044, ty := .ro, mask := 0, n := 2 },
     { off := 0x04C, ty := .rw, reset := 0x300, mask := 0x7FF }]
    ++ pair64 0x050 .rw 0 0 0xFFFFFFFF 0xFFFF 1 8
  | 1 =>
    [{ off := 0x040, ty := .rw, mask := 0x1F00FFFF,
       ok := fun v => 0x10 ≤ bits v 24 5 ∧ bits v 24 5 ≤ 0x16 },
     { off := 0x044, ty := .wo, mask := 3, ok := fun v => bits v 0 2 ≠ 0 },
     { off := 0x048, ty := .ro, mask := 0 },
     { off := 0x060, ty := .rw, n := 8 }]
  | 2 =>
    [{ off := 0x040, ty := .rw, mask := 0xFFF },
     { off := 0x044, ty := .ro, mask := 0, n := 4 },
     { off := 0x080, ty := .ro, mask := 0, n := 16 }]
  | _ => counters64 0x100 20

/-- Tables 13-7 and 13-8. -/
def regsCe : Nat → List RegDef
  | 0 =>
    [{ off := 0x040, ty := .rws, reset := 0x64, mask := 0xFFFF, ok := fun v => 10 ≤ v ∧ v ≤ 10000 },
     { off := 0x044, ty := .ro, mask := 0 },
     { off := 0x048, ty := .ro, reset := 0x32103210, mask := 0 },
     { off := 0x04C, ty := .ro, mask := 0 },
     { off := 0x050, ty := .rws, mask := 0x7FFFFFFF },
     { off := 0x054, ty := .rws, mask := 0x03FF03FF, ok := fun v => bits v 16 10 ≤ 512 },
     { off := 0x058, ty := .ro, mask := 0 }]
  | 1 => regsRing 0x040 1 false ++ regsRing 0x060 1 true
  | 2 => regsRing 0x040 1 false ++ regsRing 0x060 1 true
  | _ => counters64 0x100 10

/-- Tables 13-9 and 13-10, page of port `n`. -/
def regsMsc (n : Nat) : List RegDef :=
  [{ off := 0x040, ty := .rws, reset := 0x1C8, mask := 0x3FF, ok := fun v => bits v 4 2 ≠ 3 },
   { off := 0x044, ty := .rws },
   { off := 0x048, ty := .rws },
   { off := 0x054, ty := .rw, mask := 1 },
   { off := 0x060, ty := .ro, mask := 0, reset := 256 * (portGroup n % 8 / 2) },
   { off := 0x064, ty := .rws, reset := 0x1000, mask := 0x03FFFF01 },
   { off := 0x068, ty := .rws, n := 4 },
   { off := 0x080, ty := .rw, mask := 0x3FFF, n := 2, stride := 0x20 },
   { off := 0x094, ty := .rw, n := 2, stride := 0x20 },
   { off := 0x098, ty := .rw, n := 2, stride := 0x20 },
   { off := 0x09C, ty := .rw, n := 2, stride := 0x20 },
   { off := 0x0C0, ty := .rw, n := 2 },
   { off := 0x108, ty := .rw, mask := 1, n := 4, stride := 0x60 }]
  ++ pair64 0x04C .rw 0 0 0xFFFFFFFF 0xFFFFFFFF 1 8
  ++ pair64 0x058 .rws 0xC0000000 0 0xFFFFFFFF 0xFFFFFFFF 1 8
  ++ pair64 0x084 .ro 0 0 0 0 2 0x20
  ++ pair64 0x08C .ro 0xFFFFFFFF 0xFFFFFFFF 0 0 2 0x20
  ++ pair64 0x100 .rw 0 0 0xFFFFFFFF 0xFFFFFFFF 4 0x60
  ++ (List.range 4).flatMap (fun c =>
    [{ off := 0x120 + 0x60 * c, ty := .rw, mask := 0x3FFF, n := 2, stride := 0x20 },
     { off := 0x12C + 0x60 * c, ty := .rw, n := 2, stride := 0x20 },
     { off := 0x130 + 0x60 * c, ty := .rw, n := 2, stride := 0x20 },
     { off := 0x134 + 0x60 * c, ty := .rw, n := 2, stride := 0x20 },
     { off := 0x138 + 0x60 * c, ty := .rw, n := 2, stride := 0x20 }]
    ++ pair64 (0x124 + 0x60 * c) .rw 0 0 0xFFFFFFFF 0xFFFFFFFF 2 0x20)
  ++ counters64 0x300 16

/-- Table 14-12. -/
def regsKey : Nat → List RegDef
  | 0 =>
    [{ off := 0x040, ty := .ro, mask := 0 },
     { off := 0x044, ty := .rw, mask := 0x3FF },
     { off := 0x048, ty := .ro, mask := 0, n := 3 },
     { off := 0x05C, ty := .ro, mask := 0, n := 2 },
     { off := 0x064, ty := .rw, reset := 0x4B0, mask := 0x3FFF },
     { off := 0x068, ty := .ro, mask := 0 }]
    ++ pair64 0x054 .ro 0 0 0 0 1 8
  | 1 => [{ off := 0x040, ty := .ro, mask := 0, n := 32 }] ++ counters64 0x100 6
  | 2 => [{ off := 0x040, ty := .ro, mask := 0, n := 20 }]
  | _ => [{ off := 0x040, ty := .ro, mask := 0 }, { off := 0x800, ty := .ro, mask := 0, n := 512 }]

/-- Table 14-13. -/
def regsLc : List RegDef :=
  [{ off := 0x040, ty := .ro, mask := 0 },
   { off := 0x044, ty := .rw, reset := 0x64, mask := 0xFFFF, ok := fun v => 10 ≤ v ∧ v ≤ 1000 },
   { off := 0x048, ty := .ro, mask := 0, n := 2 },
   { off := 0x050, ty := .rw, mask := 0x1FC, ok := fun v => bits v 2 7 ≤ 83 },
   { off := 0x054, ty := .ro, mask := 0 }]

/-- Tables 15-9 and 15-10. -/
def regsTwn : List RegDef :=
  [{ off := 0x040, ty := .rws, reset := 0x03E80A23, mask := 0xFFFFFF3F,
     ok := fun v => 2 ≤ bits v 0 4 ∧ bits v 0 4 ≤ 8 ∧ 1 ≤ bits v 8 8 ∧ 100 ≤ bits v 16 16 },
   { off := 0x044, ty := .ro, mask := 0, n := 3 },
   { off := 0x050, ty := .wo, mask := 1 },
   { off := 0x05C, ty := .ro, mask := 0 },
   { off := 0x068, ty := .rws, reset := 0x00648000, mask := 0xFFFF83FF },
   { off := 0x06C, ty := .rws, reset := 0xFF },
   { off := 0x070, ty := .rws, mask := 0xFFFF },
   { off := 0x080, ty := .rws, n := 4 },
   { off := 0x090, ty := .rw, mask := 0x3FF },
   { off := 0x0A0, ty := .ro, mask := 0, n := 8 }]
  ++ pair64 0x054 .ro 0 0 0 0 1 8 ++ pair64 0x060 .ro 0 0 0 0 1 8
  ++ pair64 0x074 .rws 1 0x300 0xFFFFFFFF 0xFFFF 1 8
  ++ counters64 0x100 16

/-- Table 15-13 and the lane registers of R567. -/
def regsSl : List RegDef :=
  [{ off := 0x040, ty := .rws, reset := 0x000A0043, mask := 0xFFFFFFF3,
     ok := fun v => bits v 0 2 ≠ 0 ∧ bits v 4 12 ≤ 1000 },
   { off := 0x044, ty := .ro, mask := 0 }]
  ++ counters64 0x100 7 ++ regsLane 0x3C0 ++ regsLane 0x5C0

/-- Tables 16-11 and 16-12. -/
def regsLsp : List RegDef :=
  [{ off := 0x040, ty := .rws, reset := 0x404, mask := 0xF07, ok := fun v => 1 ≤ bits v 8 4 ∧ bits v 8 4 ≤ 8 },
   { off := 0x044, ty := .ro, reset := 3, mask := 0 },
   { off := 0x048, ty := .ro, mask := 0 },
   { off := 0x04C, ty := .rw, mask := 0x800000F7,
     ok := fun v => bit v 31 = false ∨ (bits v 1 2 ≠ 0 ∧ (bits v 1 2 = 2 → 1 ≤ bits v 4 4)) },
   { off := 0x050, ty := .ro, mask := 0, n := 2 }]
  ++ counters64 0x100 10

/-- Table 16-13. -/
def regsMem : List RegDef :=
  [{ off := 0x040, ty := .rws, reset := 0xFFF, mask := 0xFFF },
   { off := 0x044, ty := .ro, mask := 0, n := 3 },
   { off := 0x050, ty := .rw, mask := 0x8001FFFF, ok := fun v => bit v 31 = false ∨ bits v 0 4 < 0xA },
   { off := 0x054, ty := .rw },
   { off := 0x060, ty := .ro, mask := 0, n := 32 }]
  ++ (List.range 12).flatMap (fun r => counters64 (0x100 + 0x20 * r) 4)

/-- Tables 16-14 and 16-15. -/
def regsFlt : List RegDef :=
  [{ off := 0x040, ty := .rw, reset := 0x3E8, mask := 0xFFFF, ok := fun v => 10 ≤ v },
   { off := 0x04C, ty := .ro, mask := 0, n := 2 },
   { off := 0x054, ty := .rw, mask := 0xFF },
   { off := 0x058, ty := .rw, ok := fun v => bits v 0 16 ≤ bits v 16 16 },
   { off := 0x05C, ty := .rw, mask := 0x800007FF },
   { off := 0x060, ty := .rw, mask := 0xFFFFF },
   { off := 0x064, ty := .rw, mask := 0x3FF },
   { off := 0x068, ty := .ro, mask := 0 },
   { off := 0x07C, ty := .ro, mask := 0, n := 2 },
   { off := 0x084, ty := .rw },
   { off := 0x0C0, ty := .ro, mask := 0, n := 16 },
   { off := 0x100, ty := .wo, mask := 0x83FFFFFF }]
  ++ [{ off := 0x044, ty := .rw, reset := 0xFFFFFFFF, n := 2 }]
  ++ pair64 0x06C .ro 0 0 0 0 1 8 ++ pair64 0x074 .ro 0 0 0 0 1 8
  ++ counters64 0x200 7

/-- Tables 18-12 and 18-14. -/
def regsUpd : List RegDef :=
  [{ off := 0x040, ty := .rws, reset := 0x00010078, mask := 0x3FFFF,
     ok := fun v => 10 ≤ bits v 0 16 ∧ bits v 0 16 ≤ 3600 },
   { off := 0x044, ty := .ro, mask := 0, n := 6 },
   { off := 0x05C, ty := .ro, reset := 2, mask := 0 },
   { off := 0x060, ty := .wo, mask := 0xFF,
     ok := fun v => bit v 0 = false ∨ (bits v 2 2 ≠ 0 ∧ bits v 4 4 ≤ 5) },
   { off := 0x064, ty := .ro, mask := 0 },
   { off := 0x0C0, ty := .rws, mask := 0xFFFF007F, n := 4, stride := 0x20, ok := fun v => bits v 1 6 ≤ 47 },
   { off := 0x0CC, ty := .rws, n := 4, stride := 0x20 },
   { off := 0x0D0, ty := .rws, n := 4, stride := 0x20 },
   { off := 0x0D4, ty := .rws, n := 4, stride := 0x20 },
   { off := 0x0D8, ty := .rws, n := 4, stride := 0x20 },
   { off := 0x0DC, ty := .rws, mask := 0x3FF, n := 4, stride := 0x20 }]
  ++ pair64 0x0C4 .rws 0 0 0xFFFFFFFF 0xFFFF 4 0x20
  ++ regsRing 0x080 1 false ++ counters64 0x200 9

end Sys2Proof.Machine
end

