-- ==== Sys2Proof/Machine/RegMap.lean ====
section
/-!
DEFINITION. The page map of Table 19-1 (spec/19_register_index.md) and the register that a BAR0 offset names.
Registers are keyed by BAR0 offset; the TUE rings, which lie in BAR2, are keyed from 0x0100_0000 (HA) and 0x0100_1000
(HB) on, and the staged words of `CAN_AUTH_SET` from 0x0110_0000 on, and the MSI-X tables of BAR4 from 0x0120_0000 (HA) and
0x0120_4000 (HB) on.
-/
namespace Sys2Proof.Machine
open Sys2Proof

/-- Table 19-1: the page of a page number (R562). Page numbers 0x1000 and 0x1001 stand for the TUE rings in BAR2. -/
def pageOf (p : Nat) : Option Page :=
  if p = 0x000 then some .sys else if p = 0x001 then some .pwr else if p = 0x002 then some .wake
  else if p = 0x003 then some .lc else if p = 0x004 then some .upd else if p = 0x005 then some .silt
  else if p = 0x006 then some .sem else if p = 0x007 then some .flt else if p = 0x008 then some .lsp
  else if p = 0x009 then some .mem else if p = 0x00A then some .twn else if p = 0x00B then some .pb
  else if p = 0x00C then some .ptp else if p = 0x00D then some .gpio
  else if 0x010 ≤ p ∧ p < 0x014 then some (.hif false (p - 0x010))
  else if 0x014 ≤ p ∧ p < 0x018 then some (.hif true (p - 0x014))
  else if p = 0x020 then some .tue else if p = 0x021 then some .prs
  else if p = 0x022 then some (.pl 0) else if p = 0x023 then some (.pl 1)
  else if p = 0x024 then some .fw else if p = 0x025 then some .sfp
  else if p = 0x026 then some .fab else if p = 0x027 then some .buf
  else if 0x030 ≤ p ∧ p < 0x060 then some (.mac (p - 0x030))
  else if 0x060 ≤ p ∧ p < 0x094 then some (.egs (p - 0x060))
  else if p = 0x09F then some .sl
  else if 0x0A0 ≤ p ∧ p < 0x0C0 then some (.sds (p - 0x0A0))
  else if 0x0C0 ≤ p ∧ p < 0x0D0 then some (.tphy (p - 0x0C0))
  else if 0x0D0 ≤ p ∧ p < 0x0E8 then some (.can (p - 0x0D0))
  else if 0x0E8 ≤ p ∧ p < 0x0F0 then some (.lin (p - 0x0E8))
  else if 0x0F0 ≤ p ∧ p < 0x0F4 then some (.gwe (p - 0x0F0))
  else if 0x100 ≤ p ∧ p < 0x104 then some (.ce (p - 0x100))
  else if 0x104 ≤ p ∧ p < 0x108 then some (.key (p - 0x104))
  else if 0x110 ≤ p ∧ p < 0x140 then some (.msc (p - 0x110))
  else none

/-- CTRL fields of a page: only HIFA and HIFB page 0 have one (Table 2-13). -/
def ctrlMask : Page → Nat
  | .hif _ 0 => 1
  | _ => 0

/-- IRQ_RAW bits that a page's chapter gives it beside [31] ERR; a page k > 0 of a block has none of its own (R564). -/
def irqEvents : Page → Nat
  | .sys => 0x3 | .pwr => 0x3 | .wake => 0x1 | .lc => 0x1 | .upd => 0x1F | .silt => 0x7 | .sem => 0
  | .flt => 0xF | .lsp => 0x1F | .mem => 0xF | .twn => 0x1FFF | .pb => 0x3F | .ptp => 0x1F | .gpio => 0x03FFFFFF
  | .hif _ _ => 0
  | .tue => 0x1F | .prs => 0x3 | .pl _ => 0x3 | .fw => 0x7 | .sfp => 0x7 | .fab => 0x3 | .buf => 0x7
  | .mac n => if n < 4 then 0x1F else 0xF
  | .egs _ => 0xF | .sl => 0x1F | .sds _ => 0x3 | .tphy _ => 0xF | .can _ => 0x1FF | .lin _ => 0xF
  | .gwe k => if k = 0 then 0xF else 0
  | .ce k => if k = 0 then 0xF else 0
  | .key k => if k = 0 then 0xF else 0
  | .msc _ => 0xF

/-- The IRQ_RAW bits of a page. -/
def irqMask (pg : Page) : Nat := 0x80000000 + irqEvents pg

/-- The block-specific registers of a page. -/
def blockRegs : Page → List RegDef
  | .sys => regsSys | .pwr => regsPwr | .wake => regsWake | .lc => regsLc | .upd => regsUpd
  | .silt => regsSilt | .sem => regsSem | .flt => regsFlt | .lsp => regsLsp | .mem => regsMem
  | .twn => regsTwn | .pb => regsPb | .ptp => regsPtp | .gpio => regsGpio
  | .hif _ k => regsHif k
  | .tue => regsTue | .prs => regsPrs | .pl _ => regsPl | .fw => regsFw | .sfp => regsSfp
  | .fab => regsFab | .buf => regsBuf | .mac n => regsMac n | .egs _ => regsEgs | .sl => regsSl
  | .sds _ => regsLane 0 | .tphy _ => regsTphy | .can n => regsCan n | .lin _ => regsLin
  | .gwe k => regsGwe k | .ce k => regsCe k | .key k => regsKey k | .msc n => regsMsc n

/-- Whether a row stands for the register at an offset of its page. -/
def regHas (d : RegDef) (off : Nat) : Bool :=
  decide (d.off ≤ off) && decide ((off - d.off) % d.stride = 0) && decide ((off - d.off) / d.stride < d.n)

/-- The row that describes the register at BAR0 offset `a`, or at a TUE ring key. -/
def regDef (a : Nat) : Option RegDef :=
  if a / 0x1000 = 0x1000 ∨ a / 0x1000 = 0x1001 then regsTueRing.find? (fun d => regHas d (a % 0x1000))
  else
    match pageOf (a / 0x1000) with
    | none => none
    | some pg =>
      if a % 0x1000 < 0x040 then (regsCommon (a / 0x1000) (ctrlMask pg) (irqMask pg)).find? (fun d => regHas d (a % 0x1000))
      else (blockRegs pg).find? (fun d => regHas d (a % 0x1000))

/-- Bedrock (R11): the reset value of the register at a BAR0 offset; 0 where no register is (R7).
Marks: DESIGN CHOICE (log entry 6), DESIGN CHOICE (log entry 64). -/
def regReset (a : Nat) : Word :=
  match regDef a with
  | some d => w32 d.reset
  | none => 0

/-- BAR0 offset of a register: page number and offset in the page. -/
def regAddr (p off : Nat) : Nat := p * 0x1000 + off

end Sys2Proof.Machine
end

