-- ==== Sys2Proof/Parts/Bus.lean ====
section
/-!
DEFINITION. State of the CAN and LIN controllers (spec/10).
-/
namespace Sys2Proof

/-- A CAN message: the fields of its header (Table 10-3) and its payload. -/
structure CanMsg where
  /-- bytes 0-3: BASE_ID, EXT_ID, IDE, RMT, AUTH -/
  idw : Nat := 0
  /-- 0 classical, 1 FD, 2 XL -/
  fmt : Nat := 0
  brs : Bool := false
  esi : Bool := false
  sdt : Nat := 0
  vcid : Nat := 0
  af : Nat := 0
  authIdx : Nat := 0
  sec : Bool := false
  wclass : Nat := 0
  tag : Nat := 0
  /-- LEN of a remote frame, which has no payload -/
  rlen : Nat := 0
  data : List Byte := []
deriving DecidableEq, Repr

/-- Channel modes (Table 10-1). -/
inductive CanMode where
  | config | normal | restricted | listenOnly | sleep
deriving DecidableEq, Repr

/-- A message in the pending list. -/
structure CanPend where
  key : Nat
  seq : Nat
  msg : CanMsg
  /-- gateway handle of a message that GWE wrote -/
  handle : Option Nat := none
  /-- authentication trailer -/
  trailer : List Byte := []
deriving DecidableEq, Repr

/-- A transmit buffer's contents. -/
structure CanBuf where
  p : CanPend
  /-- cycle in which the buffer is ready (R318) -/
  readyAt : Nat
  ready : Bool := false
  locked : Bool := false
  /-- SOF is driven at this cycle -/
  sof : Option Nat := none
  /-- a cancel was seen after arbitration (R321) -/
  late : Bool := false
  /-- position at which the window closes that admitted the frame on the bus (R325) -/
  closePos : Option Nat := none
deriving DecidableEq, Repr

/-- A receive queue entry (Table 10-4) with its message. -/
structure CanRx where
  msg : CanMsg
  filter : Nat
  ovr : Bool
  ptpNs : Nat
  ptpSec : Nat
  phase : Nat
deriving DecidableEq, Repr

/-- A transmit event of a host message. -/
structure CanEvt where
  tag : Nat
  status : Nat
  late : Bool
deriving DecidableEq, Repr

/-- A cancel request not yet sampled (R321). -/
structure CanCancel where
  all : Bool
  tag : Nat
  /-- of GWE's messages, not of host messages (R352) -/
  gwe : Bool := false
deriving DecidableEq, Repr

/-- A received message whose filters and authentication are still to end (Table 10-8): its queue entry, the queue that
its filter names, the authentication entry, the cycle in which it is written, and its time for GWE. -/
structure CanIn where
  e : CanRx
  dest : Nat
  auth : Option Nat
  at_ : Nat
  sec : Nat
  ns : Nat
deriving DecidableEq, Repr

/-- The CMAC of a submission (R330): not begun, refused with a status, or begun, with the trailer. -/
inductive CanMac where
  | none_
  | refused (st : Nat)
  | begun (trailer : List Byte)
deriving DecidableEq, Repr

/-- A submission whose pending write is still to be made (R316, R320, R350). -/
structure CanSub where
  msg : CanMsg
  handle : Option Nat := none
  /-- earliest cycle of the pending write, or of the beginning of the CMAC -/
  at_ : Nat
  mac : CanMac := .none_
  /-- counted as waiting for its FV reservation (R332) -/
  waited : Bool := false
deriving DecidableEq, Repr

/-- One CAN channel. -/
structure CanChan where
  mode : CanMode := .config
  /-- mode before SLEEP -/
  before : CanMode := .config
  /-- bus integration toward this mode -/
  integrating : Option CanMode := none
  /-- a committed mode change that waits for bus idle or frame end -/
  next : Option CanMode := none
  /-- 0 error-active, 1 error-passive, 2 bus-off -/
  errst : Nat := 0
  tec : Nat := 0
  rec_ : Nat := 0
  recovering : Bool := false
  /-- held in RESTRICTED while the unit is in STANDBY (R312) -/
  sby : Bool := false
  /-- submissions whose pending write is to come, in the order made -/
  inbox : List CanSub := []
  pend : List CanPend := []
  buf0 : Option CanBuf := none
  buf1 : Option CanBuf := none
  buf2 : Option CanBuf := none
  seq : Nat := 0
  txev : List CanEvt := []
  rxq0 : List CanRx := []
  rxq1 : List CanRx := []
  /-- staged header words and payload words of a host submission -/
  txh : List (Nat × Word) := []
  txd : List (Nat × Word) := []
  /-- messages received and not yet written -/
  rxIn : List CanIn := []
  cancels : List CanCancel := []
  /-- a withdrawn frame whose stuff error follows (R322) -/
  withdrawn : Bool := false
  /-- bus window words, bank x 64 + word -/
  bw : List (Nat × Word) := []
  bwBank : Nat := 0
  bwLen : Nat := 0
  bwInstall : Option (Nat × Nat) := none
  /-- sequence numbers counted once in NOFIT -/
  nofit : List Nat := []
deriving DecidableEq, Repr

/-- One bus authentication entry (Table 10-11). -/
structure AuthEntry where
  key : Nat := 0
  rx : Bool := false
  valid : Bool := false
  gen : Nat := 0
  last : Nat := 0
  rsv : Nat := 0
deriving DecidableEq, Repr

/-- LIN modes. -/
inductive LinMode where
  | config | normal | sleep
deriving DecidableEq, Repr

/-- One LIN channel. Its frame table is in the register file (LIN_FTf). -/
structure LinChan where
  mode : LinMode := .config
  /-- entry in effect -/
  entry : Nat := 0
  /-- header of this frame sent or received, and its response awaited: the frame, from this cycle on, and the bit time -/
  await : Option (Nat × Nat × Nat) := none
  busyUntil : Nat := 0
  /-- schedule entries, bank x 64 + index -/
  sch : List (Nat × Word) := []
  bank : Nat := 0
  len : Nat := 0
  install : Option (Nat × Nat) := none
  /-- entry of the present PB cycle that is taken next -/
  next : Nat := 0
  /-- entries whose START lies before the last boundary and that have not been taken: the entry, and the position of
  the START after it (R84, R85) -/
  passed : List (Nat × Option Nat) := []
  lastAt : Nat := 0
  /-- a response of the channel's own is on the bus: the cycle in which it ends, and whether it is go-to-sleep -/
  sending : Option (Nat × Bool) := none
deriving DecidableEq, Repr

/-- All buses. -/
structure Buses where
  can : List (Nat × CanChan) := []
  auth : List (Nat × AuthEntry) := []
  lin : List (Nat × LinChan) := []
deriving DecidableEq, Repr

end Sys2Proof
end

