-- ==== Sys2Proof/Parts/Common.lean ====
section
/-!
DEFINITION. The names that commands and state share: masters, hosts, rings and descriptors (spec/02), operating
modes (spec/01 Table 1-9), link loss conditions (spec/04), time messages (spec/12).
-/
namespace Sys2Proof

/-- The masters of spec/02 (IDs 0x1 to 0x4). -/
inductive Master where
  | ha | hb | mp0 | mp1
deriving DecidableEq, Repr

/-- The host ports. -/
inductive HostPort where
  | a | b
deriving DecidableEq, Repr

/-- Who makes a register access: the master, and whether it carries WORLD = secure (R40). -/
structure Who where
  m : Master
  sec : Bool := false
deriving DecidableEq, Repr

/-- The rings that follow Table 2-8: a host's TX and RX rings, its lookaside rings N and S (spec/13), its TUE ring
(spec/06) and the UPD ring (spec/18). -/
inductive RingId where
  | tx (h : HostPort) (k : Nat)
  | rx (h : HostPort) (k : Nat)
  | la (h : HostPort) (s : Bool)
  | tue (h : HostPort)
  | upd
deriving DecidableEq, Repr

/-- TX descriptor (Table 2-10). -/
structure TxDesc where
  addr : Nat
  len : Nat
  tc : Nat
  fence : Bool
  chain : Bool
  launch : Bool
  int : Bool
  tag : Nat
  launchPos : Pos
deriving DecidableEq, Repr

/-- RX buffer descriptor (spec/02, after R66). -/
structure RxDesc where
  addr : Nat
  len : Nat
  tag : Nat
deriving DecidableEq, Repr

/-- The eight operating modes of Table 1-9, with the two depths of SLEEP. -/
inductive Mode where
  | boot | configure | active | standby | degraded | service | quarantine | sleepRetain | sleepDeep
deriving DecidableEq, Repr

/-- The loss conditions of a link (spec/04, after R122). -/
inductive LossKind where
  | signal | blockLock | amLock | hiBer | localFault | remoteFault | phyFail
deriving DecidableEq, Repr

/-- A start-of-mPacket delimiter, by its kind (IEEE 802.3 Clause 99, R136, R137). -/
inductive Smd where
  | express | start (frameNo : Nat) | cont (frameNo fragNo : Nat) | verify | respond | unknown
deriving DecidableEq, Repr

/-- A link of Table 4-2: an external port, or a Shell Link lane (R457). -/
inductive LinkId where
  | port (n : Nat)
  | sl (lane : Nat)
deriving DecidableEq, Repr

/-- TUE descriptor (Table 6-6). KEY fields are those of FDB SEARCH, DELETE and FLUSH. -/
structure TueDesc where
  op : Nat
  fence : Bool := false
  pending : Bool := false
  int : Bool := false
  table : Nat := 0
  tag : Nat := 0
  index : Nat := 0
  addr : Nat := 0
  len : Nat := 0
  vid : Nat := 0
  vidAny : Bool := false
  /-- bytes 26-31 as a number, byte 26 highest -/
  mac : Nat := 0
deriving DecidableEq, Repr

/-- The two heartbeat paths (R455). -/
inductive HbPath where
  | sideband | shellLink
deriving DecidableEq, Repr

/-- Which event ISO 11898-1 counts (R313): a transmitter's error, a receiver's error, a receiver's error whose first
bit after its error flag is dominant, and each further run of eight dominant bits. -/
inductive CanErrKind where
  | tx | rx | rxPrimary | dominantRun (transmitter : Bool)
deriving DecidableEq, Repr

/-- An SA of a SecY: transmit SA, or SA of a receive SC. -/
inductive SaId where
  | tx (s : Nat)
  | rx (c s : Nat)
deriving DecidableEq, Repr

/-- The Husk glitch detectors of R446 and R572. -/
inductive GlitchKind where
  | voltage | clock
deriving DecidableEq, Repr

/-- The conditions of R514. -/
inductive SwapCond where
  | noPipe | noSpare | poolLow
deriving DecidableEq, Repr

/-- How the blocks of a frame compare between an inline pipe and its shadow (R405): they agree, they agree once
recomputed, or they differ again. -/
inductive PipeCmp where
  | agree | retry | differ
deriving DecidableEq, Repr

/-- What a Sync, or its Follow_Up, carries for the servo (R372). Times are in units of 2^-16 ns. -/
structure SyncInfo where
  origin : Nat
  corr : Int
  /-- cumulativeScaledRateOffset, units of 2^-41 -/
  rate : Int
  gmtbi : Nat
  /-- lastGmPhaseChange and scaledLastGmFreqChange of the information TLV, 16 bytes -/
  tlv : Nat
deriving DecidableEq, Repr

end Sys2Proof
end

