-- ==== Sys2Proof/Parts/Cipher.lean ====
section
/-!
DEFINITION. State of the cipher engine, its inline pipes and lookaside queue, of the MACsec SecYs and of MKA
(spec/13). The SA registers, counters and the pipe map are in the register file.
-/
namespace Sys2Proof

/-- A lookaside descriptor (Table 13-4). -/
structure LaDesc where
  op : Nat
  fence : Bool := false
  int : Bool := false
  tlen : Nat := 0
  tag : Nat := 0
  key : Nat := 0
  aadLen : Nat := 0
  src : Nat := 0
  srcLen : Nat := 0
  dstLen : Nat := 0
  dst : Nat := 0
deriving DecidableEq, Repr

/-- Who made a lookaside request (R409). -/
inductive LaSource where
  /-- ring N (false) or S (true) of a host -/
  | host (h : HostPort) (s : Bool)
  | mp0 | mp1 | gwe
deriving DecidableEq, Repr

/-- A lookaside request, queued or admitted to an engine (R409). -/
structure LaReq where
  source : LaSource
  d : LaDesc
  input : List Byte
  /-- counter value C taken at admission (R411) -/
  ctr : Nat := 0
  /-- key bytes as at admission (R412) -/
  key : List Byte := []
  /-- engine: 0, 1 AES; 2, 3 hash; 4 ECC; 5 DRBG; 6 the reserved lane; 7 none -/
  engine : Nat := 7
  /-- cycle in which the last output byte leaves the engine -/
  doneAt : Nat := 0
  /-- for INV_FENCE: numbers of the earlier requests that it waits for, and how many they were -/
  waits : List Nat := []
  drained : Nat := 0
  num : Nat := 0
  /-- the read of SRC met an address fault -/
  fault : Bool := false
  /-- outcome of the entropy health test, where one is run (R410) -/
  healthy : Bool := true
  /-- a word of its slot has failed parity twice since admission (R412) -/
  parity : Bool := false
deriving DecidableEq, Repr

/-- Known-answer rotation of one direction (R406). -/
structure KatRun where
  /-- pipe now under test -/
  testing : Option Nat := none
  /-- spare pipe -/
  spare : Option Nat := some 4
  /-- next pipe to hand over -/
  next : Nat := 0
  startAt : Nat := 0
deriving DecidableEq, Repr

/-- A peer of an MKA participant (R414). -/
structure MkaPeer where
  mi : Nat
  mn : Nat
  sci : Nat
  prio : Nat
  /-- it has listed this participant; otherwise it is a potential peer -/
  live : Bool
  /-- end of its life time -/
  lifeEnd : Nat
  /-- it has reported the newest key installed -/
  hasKey : Bool := false
deriving DecidableEq, Repr

/-- A SAK of an MKA participant: its pool slot, AN and key number, the key server's member identifier, and the transmit
SA and the SA number that take it. -/
structure MkaSak where
  slot : Nat
  an : Nat
  kn : Nat
  ksMi : Nat
  sa : Nat
deriving DecidableEq, Repr

/-- The MKA participant of one SecY (R414 to R416). -/
structure Mka where
  /-- member identifier; none before the participant has started -/
  mi : Option Nat := none
  mn : Nat := 0
  peers : List MkaPeer := []
  sak : Option MkaSak := none
  /-- the SAK before it, and the cycle in which it retires -/
  old : Option (MkaSak × Option Nat) := none
  /-- the newest SAK as the key server distributes it -/
  key : List Byte := []
  kn : Nat := 0
  /-- a new SAK is to be made or asked for -/
  want : Bool := false
  helloAt : Nat := 0
deriving DecidableEq, Repr

/-- What an SA register block does not hold (R387, R398, R400). -/
structure SaRun where
  warned : Bool := false
  exhausted : Bool := false
  revokedOnce : Bool := false
  /-- an unconfirmed raise of RSV: number of the sync point that carries it -/
  raise : Option Nat := none
deriving DecidableEq, Repr

/-- The cipher engine. -/
structure Cipher where
  /-- requests taken and not admitted, in queue order (R409) -/
  queue : List LaReq := []
  /-- requests admitted -/
  adm : List LaReq := []
  /-- last source taken: 0 HA, 1 HB, 2 internal -/
  turn : Nat := 2
  num : Nat := 0
  /-- cycle in which each engine ends its last admitted request -/
  engineEnd : List (Nat × Nat) := []
  katIn : KatRun := {}
  katEg : KatRun := {}
  drbgCount : Nat := 0
  /-- key port x 16 + SA: 0, 1 transmit; 2 + 2c + s receive -/
  sa : List (Nat × SaRun) := []
  mka : List (Nat × Mka) := []
deriving DecidableEq, Repr

end Sys2Proof
end

