-- ==== Sys2Proof/Parts/FaultState.lean ====
section
/-!
DEFINITION. State of the lockstep pairs, of the memory monitors and of the fault coalescer (spec/16).
-/
namespace Sys2Proof

/-- Causes of a pair failure (R492). -/
inductive PairCause where
  | persist | overrun | dataParity | injected
deriving DecidableEq, Repr

/-- A staged write of a task (R487): a BAR0 offset and a value. -/
structure Staged where
  off : Nat
  val : Word
deriving DecidableEq, Repr

/-- One lockstep pair. -/
structure Pair where
  ok : Bool := true
  asyncMm : Nat := 0
  plainMm : Nat := 0
  agreed : Bool := false
  /-- an injection that is armed: 1 ONCE, 2 ASYNC, 3 PERSIST, and the runs left -/
  inj : Option (Nat × Nat) := none
  /-- input log of the present task (R488): BAR0 offsets read and values; and those that a replay has still to take -/
  log : List (Nat × Word) := []
  left : List (Nat × Word) := []
  /-- the task has exceeded its input log (R489) -/
  overran : Bool := false
deriving DecidableEq, Repr

/-- A parity mark on the word at an address of a region (R515). -/
structure InjMark where
  region : Nat
  index : Nat
  addr : Nat
  double : Bool
deriving DecidableEq, Repr

/-- A fault report (R502). -/
structure Report where
  cls : Nat
  reporter : Nat
  at_ : Nat
  detail : List Byte := []
  inj : Bool := false
  /-- position and time of the event, for the record -/
  pos : Pos := 0
  ptpSec : Nat := 0
  ptpNs : Nat := 0
deriving DecidableEq, Repr

/-- Coalescer entry states. -/
inductive EntrySt where
  | open_ | closed
deriving DecidableEq, Repr

/-- One coalescer entry. -/
structure CoalEntry where
  suspect : Nat
  cls : Nat
  st : EntrySt
  first : Nat
  last : Nat
  count : Nat
  reporter : Nat
  detail : List Byte
  inj : Bool
  pos : Pos
  ptpSec : Nat
  ptpNs : Nat
  /-- its record has been written -/
  written : Bool := false
deriving DecidableEq, Repr

/-- Fault machinery. -/
structure Faults where
  /-- reports whose event is less than 8 cycles old, and the FIFO -/
  events : List Report := []
  fifo : List Report := []
  fifoMax : Nat := 0
  lostMark : Bool := false
  ent : List (Nat × Option CoalEntry) := []
  /-- closed entries whose record is not written, in closing order -/
  closing : List (CoalEntry × Nat) := []
  attr : List (Nat × (Word × Word × Word)) := []
  chain : BitVec 256 := 0
  /-- records by slot, SEQ mod 512, 64 bytes each -/
  records : List (Nat × List Byte) := []
  pair0 : Pair := {}
  pair1 : Pair := {}
  marks : List InjMark := []
  /-- packet buffer halves to be retired when next free: bank side -/
  retiring : List (Nat × Nat) := []
  testBusy : Bool := false
deriving DecidableEq, Repr

end Sys2Proof
end

