-- ==== Sys2Proof/Parts/Keys.lean ====
section
/-!
DEFINITION. What the parse of a frame produces (spec/05): the result vector of Table 5-5 and the key sets of
Table 5-6.
-/
namespace Sys2Proof

/-- K_IP and K_IPI (Table 5-6). Addresses are 128-bit numbers, IPv4 as ::FFFF:a.b.c.d (R171). -/
structure KIp where
  /-- 0 none, 1 IPv4, 2 IPv6 -/
  l3t : Nat := 0
  src : Nat := 0
  dst : Nat := 0
  proto : Nat := 0
  dscp : Nat := 0
  ecn : Nat := 0
  sport : Nat := 0
  dport : Nat := 0
  tcpf : Nat := 0
  l4v : Bool := false
  frag : Bool := false
  fragFirst : Bool := false
  ipopt : Bool := false
deriving DecidableEq, Repr

/-- The four key sets. A tag is its TCI and its TPID index. -/
structure Keys where
  port : Nat := 0
  da : Nat := 0
  sa : Nat := 0
  tag0 : Option (Nat × Nat) := none
  tag1 : Option (Nat × Nat) := none
  etype : Nat := 0
  ntags : Nat := 0
  ip : KIp := {}
  ipi : KIp := {}
  rtag : Option Nat := none
  /-- IEEE 1722 subtype and stream_id -/
  avtp : Option (Nat × Nat) := none
  /-- DoIP payload type, source and target address -/
  doip : Option (Nat × Nat × Nat) := none
  uet : Option Nat := none
  udp : Option Nat := none
deriving DecidableEq, Repr

/-- The result vector (Table 5-5), its offsets and codes in lists. -/
structure ResultVec where
  /-- O0 to O15, 0xFF = absent -/
  offs : List Nat := List.replicate 16 0xFF
  /-- header codes, first header first -/
  hlist : List Nat := []
  trunc : Bool := false
  mal : Bool := false
  deep : Bool := false
  macsecRx : Bool := false
  opaqueTag : Bool := false
  tunnel : Bool := false
  innerFrag : Bool := false
  malCode : Nat := 0
  epoch : Nat := 0
deriving DecidableEq, Repr

/-- A parse as the microcode leaves it. -/
structure Parse where
  keys : Keys := {}
  rv : ResultVec := {}
  /-- last byte read by each header step -/
  reads : List Nat := []
  /-- first failure of a check made at end (R169): the parse as that failure leaves it -/
  late : Option (Keys × ResultVec) := none
deriving DecidableEq, Repr

end Sys2Proof
end

