-- ==== Sys2Proof/Parts/Gateway.lean ====
section
/-!
DEFINITION. State of the gateway engine (spec/11).
-/
namespace Sys2Proof

/-- What a message in the gateway came as. -/
inductive GweKind where
  /-- a CAN message of a CAN channel or of an ACF CAN message -/
  | can
  /-- a LIN response or an ACF LIN message: its frame ID -/
  | lin (fid : Nat)
  /-- the deferred value of a handle (R346) -/
  | reinject (handle : Nat)
deriving DecidableEq, Repr

/-- A message in the gateway input queue (R340). -/
structure GweMsg where
  kind : GweKind
  /-- 0-23 CAN channel, 24-31 LIN channel, 32-63 decapsulated stream source -/
  src : Nat
  msg : CanMsg
  at_ : Nat
  epoch : Nat
  ptpSec : Nat
  ptpNs : Nat
deriving DecidableEq, Repr

/-- The last-value cache of one handle (R345). -/
structure Lvc where
  valid : Bool := false
  msg : CanMsg := {}
  lin : Bool := false
  src : Nat := 0
  ptpSec : Nat := 0
  ptpNs : Nat := 0
  count : Nat := 0
deriving DecidableEq, Repr

/-- Per-handle interval state (R346). -/
structure HandleRun where
  last : Option Nat := none
  /-- a deferred value is due at this cycle -/
  due : Option Nat := none
deriving DecidableEq, Repr

/-- An open batch of one OSTREAM entry (R354). -/
structure Batch where
  /-- H, or the latest cycle that it can be -/
  holdEnd : Nat
  /-- position that ends a HOLD in phase units, while it has not been reached -/
  holdPos : Option Nat := none
  /-- decision cycle of the last message that entered the queue by H + 160 -/
  decided : Nat := 0
  /-- PTP ns of the first message's SOF -/
  firstNs : Nat
  msgs : Nat
  acf : List Byte
  /-- sources of its messages, as R217 asks for them -/
  srcs : List Nat := []
deriving DecidableEq, Repr

/-- A closed batch on its way to port 50 (R355). -/
structure BatchFrame where
  stream : Nat
  bytes : List Byte
  /-- cycle of the frame's entry into port 50 -/
  enterAt : Nat
  tc : Nat
  srcs : List Nat := []
deriving DecidableEq, Repr

/-- A frame that EGS has delivered to port 50. -/
structure GweFrame where
  bytes : List Byte
  /-- F: cycle of its first byte -/
  start : Nat
  /-- cycle of its ingress timestamp, and its epoch -/
  tsCycle : Nat
  epoch : Nat
  keys : Keys := {}
deriving DecidableEq, Repr

/-- A LIN leg whose DATA write is to come (R351). -/
structure LinLeg where
  chan : Nat
  fid : Nat
  /-- the message's payload -/
  data : List Byte
  at_ : Nat
deriving DecidableEq, Repr

/-- The gateway engine. Its overlay records are in the same form as those of spec/06. -/
structure Gateway where
  inq : List GweMsg := []
  /-- frames delivered to port 50 that wait for room in the input queue -/
  frames : List GweFrame := []
  /-- messages on their way to the queue: `at_` is the cycle in which each enters it -/
  reqs : List GweMsg := []
  linLegs : List LinLeg := []
  lastAdmit : Option Nat := none
  /-- messages in the route stage: admission cycle and message, until their decision -/
  routed : List (Nat × GweMsg) := []
  lvc : List (Nat × Lvc) := []
  run : List (Nat × HandleRun) := []
  batch : List (Nat × Option Batch) := []
  out : List BatchFrame := []
  seq : List (Nat × Nat) := []
  ready : Bool := false
  /-- handles whose state changed since the last sync point -/
  dirty : List Nat := []
deriving DecidableEq, Repr

end Sys2Proof
end

