-- ==== Sys2Proof/Parts/Tables.lean ====
section
/-!
DEFINITION. State of the forwarding and classification tables, the overlay, learning (spec/06) and of the firewall
and stream policing (spec/07). Table entries are the bytes of their layouts.
-/
namespace Sys2Proof

/-- Overlay record states (Table 6-9); the free state is the record's absence. -/
inductive OvlState where
  | pending | armed (part : Nat) | live (t : Nat) | swapped (t : Nat)
deriving DecidableEq, Repr

/-- One overlay record: a table location and an entry value (R190 to R194). -/
structure Overlay where
  table : Nat
  index : Nat
  val : List Byte
  st : OvlState
  /-- commit point cycle, for the copy-out of R193 -/
  liveAt : Nat := 0
deriving DecidableEq, Repr

/-- A learn event (R198). -/
structure LearnEvt where
  vid : Nat
  sa : Nat
  port : Nat
  t : Nat
  frame : Nat
  /-- cycle in which the frame's last byte is in -/
  endAt : Nat := 0
  /-- the frame has passed FW and SFP, and its FCS is good (R199) -/
  passed : Bool := false
deriving DecidableEq, Repr

/-- Tables and learning. -/
structure Tables where
  /-- entries that are not all zero, key = table ID x 2^20 + index -/
  ent : List (Nat × List Byte) := []
  ovl : List Overlay := []
  /-- learn filters of PL0 and PL1 -/
  filt0 : List LearnEvt := []
  filt1 : List LearnEvt := []
  /-- merged queue, oldest first -/
  queue : List LearnEvt := []
  lqMax : Nat := 0
  /-- moves of each port in the present second, and ports that have raised FLAP in it -/
  moves : List (Nat × Nat) := []
  flapped : Nat := 0
  interval : Nat := 0
  /-- hit arrays: 2 x index + pipeline -/
  hit : List (Nat × Bool) := []
  ready : Bool := false
  /-- cycle of the last ageing sweep -/
  sweptAt : Nat := 0
  /-- ports whose FDB entries are to be purged, bit p -/
  purge : Nat := 0
  /-- SEQ_REC functions: cycle of the last frame passed, in full; below 0 for a frame that the twin passed before this
  unit's count began -/
  seqLast : List (Nat × Int) := []
  /-- cycle from which the keeper takes the next learn event (R200) -/
  learnFree : Nat := 0
deriving DecidableEq, Repr

/-- State of a meter: level in 2^-24 byte, cycle of the last charge (R230). -/
structure Meter where
  level : Nat := 0
  at_ : Nat := 0
  blocked : Bool := false
deriving DecidableEq, Repr

/-- SFP state. -/
structure Policing where
  meter : List (Nat × Meter) := []
  /-- blocked filters and gates -/
  filtBlk : List (Nat × Bool) := []
  gateBlk : List (Nat × Bool) := []
  /-- flow entries changed since the last sync point (R234) -/
  flowDirty : List Nat := []
  sweptAt : Nat := 0
deriving DecidableEq, Repr

/-- PRS: the processor pool and the result capture (spec/05). -/
structure ParsePool where
  /-- cycle until which a processor is busy -/
  busy : List (Nat × Nat) := []
  /-- cycle of a processor's last result vector parity error -/
  rvErr : List (Nat × Option Nat) := []
  busyMax : Nat := 0
  ready : Bool := false
  /-- a captured vector is held -/
  capDone : Bool := false
deriving DecidableEq, Repr

end Sys2Proof
end

