-- ==== Sys2Proof/Parts/KeyStore.lean ====
section
/-!
DEFINITION. Key slots, device keys and the lifecycle (spec/14). KUM counters, blobs, HUSK_TRIPPED and the OTP stand
in the non-volatile part of the state.
-/
namespace Sys2Proof

/-- One key slot: Table 14-3 and its key. -/
structure KeySlot where
  attr : Word := 0
  link : Word := 0
  gen : Nat := 0
  key : List Byte := []
  /-- next nonce counter value C (R411) -/
  ctr : Nat := 0
  ctrExh : Bool := false
deriving DecidableEq, Repr

/-- Key storage. -/
structure KeyStore where
  slots : List (Nat × KeySlot) := []
  seed : List Byte := []
  /-- grace of R443: cycle of the reset -/
  graceEnd : Option Nat := none
  husk : Bool := false
  dikX : List Byte := []
  dikY : List Byte := []
deriving DecidableEq, Repr

end Sys2Proof
end

