-- ==== Sys2Proof/Parts/UpdateState.lean ====
section
/-!
DEFINITION. State of image update (spec/18), and the non-volatile state: the NVM of MP1, the OTP and the xSPI flash.
-/
namespace Sys2Proof

/-- Code slot states (Table 18-8). -/
inductive SlotSt where
  | empty | loading | ready | pending | trial | confirmed | backup | retired | bad
deriving DecidableEq, Repr

/-- Topsoil slot states. -/
inductive TsSt where
  | empty | candidate | valid | rejected
deriving DecidableEq, Repr

/-- A code slot in the boot record. -/
structure CodeSlot where
  st : SlotSt := .empty
  version : Nat := 0
  build : Nat := 0
deriving DecidableEq, Repr

/-- Targets of a session. -/
inductive UpdTarget where
  | code | config | relay
deriving DecidableEq, Repr

/-- UPD descriptor (Table 18-6). -/
structure UpdDesc where
  op : Nat
  fence : Bool := false
  int : Bool := false
  tag : Nat := 0
  offset : Nat := 0
  src : Nat := 0
  len : Nat := 0
deriving DecidableEq, Repr

/-- An open update session (R541). -/
structure Session where
  owner : Master
  target : UpdTarget
  dest : Nat
  /-- code or Topsoil slot written -/
  slot : Nat := 0
  /-- a first block has passed R540: IMG_LEN -/
  imgLen : Option Nat := none
  /-- sectors erased by this session -/
  erased : List Nat := []
  /-- descriptors in flight: descriptor and bytes -/
  flight : List (UpdDesc × List Byte) := []
  /-- the session of the standby that serves the active's DEST = 1 -/
  relayed : Bool := false
deriving DecidableEq, Repr

/-- A relay to a downstream device in progress (R557). -/
structure Relay where
  ds : Nat
  image : Nat
  session : Nat
  /-- lowest frame not acknowledged -/
  base : Nat := 0
  next : Nat := 0
  /-- outstanding frames: number, transmissions, cycle of the last -/
  out : List (Nat × Nat × Nat) := []
  finSent : Bool := false
  desc : UpdDesc
deriving DecidableEq, Repr

/-- The update unit. -/
structure Update where
  session : Option Session := none
  relay : Option Relay := none
  /-- slot booted: 0 A, 1 B -/
  booted : Option Nat := none
  /-- HEALTH has been 1 without a break since it was first reached -/
  healthy : Bool := false
  broke : Bool := false
  /-- host whose memory holds the UPD ring -/
  host : HostPort := .a
  /-- pieces of a block that RELAY records have brought so far (R556) -/
  pieces : List Byte := []
  /-- a WRITE that the flash device still works on: descriptor, bytes and first address -/
  tail : Option (UpdDesc × List Byte × Nat) := none
deriving DecidableEq, Repr

/-- What survives a reset: NVM, OTP and flash. Marks: DESIGN CHOICE (log entry 6), PRESUMED (log entry 10). -/
structure Nvm where
  bootCount : Nat := 0
  kumCtr : List (Nat × Nat) := []
  /-- key blobs by slot -/
  blobs : List (Nat × Option KeySlot) := []
  /-- nonce counter reservations by slot (R411) -/
  nonceRsv : List (Nat × Nat) := []
  /-- FV reservations of CAN authentication entries (R332) -/
  fvRsv : List (Nat × Nat) := []
  term : Nat := 0
  huskTripped : Bool := false
  huskSrc : Nat := 0
  /-- the DIK certificate has been erased (Table 14-9) -/
  certErased : Bool := false
  /-- OTP bytes that are not zero -/
  otp : List (Nat × Byte) := []
  /-- boot record -/
  slotA : CodeSlot := { st := .confirmed }
  slotB : CodeSlot := {}
  /-- slot on trial and its boot count -/
  trial : Option (Nat × Nat) := none
  pendingSlot : Option Nat := none
  lastDecision : Nat := 0
  tsA : TsSt := .empty
  tsB : TsSt := .empty
  tsUse : Nat := 2
  /-- self-test results that a destructive test left -/
  testRes : Nat := 0
  testBoot : Nat := 0
  /-- 64 KiB sectors of the flash that the part has erased -/
  wiped : List Nat := []
  /-- pages of 256 bytes programmed since, by number -/
  flash : List (Nat × List Byte) := []
  /-- Silt entries written before a supply loss are not kept; the cause of the last reset is -/
  cause : Nat := 0
deriving DecidableEq, Repr

end Sys2Proof
end

