-- ==== Sys2Proof/Parts/Twin.lean ====
section
/-!
DEFINITION. State of the twin pair and of the Shell Link (spec/15).
-/
namespace Sys2Proof

/-- Roles (Table 15-4). -/
inductive Role where
  | none | arb | active | standby
deriving DecidableEq, Repr

/-- SYNC of `TWN_STAT`. -/
inductive SyncSt where
  | none | joining | synced | lost
deriving DecidableEq, Repr

/-- The content of an HB record (Table 15-3). -/
structure HbInfo where
  twinB : Bool
  role : Nat
  sync : Nat
  prefB : Bool
  term : Nat
  uid : Nat
deriving DecidableEq, Repr

/-- What the standby holds of a sync point (Table 15-6). -/
structure SyncCore where
  n : Nat
  epoch : Nat
  term : Nat
  digest : Nat
  /-- semaphore owners: number and owner -/
  sems : List (Nat × Nat) := []
  /-- OWNER of pages: page number and owner -/
  owners : List (Nat × Nat) := []
  frozen : Nat := 0
  /-- NEXT_PN and RSV of shared-SecY transmit SAs: port x 2 + SA, NEXT_PN, RSV -/
  pns : List (Nat × Nat × Nat) := []
  /-- RSV of CAN authentication entries -/
  fvs : List (Nat × Nat) := []
  /-- MKA participants, by port; as sent, their times are cycles from the point -/
  mkas : List (Nat × Mka) := []
  /-- token buckets: port x 16 + bucket, level -/
  buckets : List (Nat × Int) := []
  /-- CBS credits: port x 8 + queue -/
  credits : List (Nat × Int) := []
  /-- HOLD, bit p -/
  hold : Nat := 0
  /-- meters: index, level -/
  meters : List (Nat × Nat) := []
  mBlocked : List Nat := []
  fBlocked : List Nat := []
  gBlocked : List Nat := []
  /-- SEQ_GEN and SEQ_REC functions: table, index, entry with its hardware state -/
  seqs : List (Nat × Nat × List Byte) := []
  /-- SEQ_REC functions: cycles since the last frame passed, by index -/
  seqAges : List (Nat × Int) := []
  /-- domain: number, state code, time 2^-48 ns, ADJ, offset, gmTimeBaseIndicator -/
  time : List (Nat × Nat × Nat × Int × Int × Nat) := []
  /-- item 5 received since the point before: LVC entries, last and deferral of handles (cycles before the point, and
  cycles after it), stream SEQs -/
  lvcs : List (Nat × Lvc) := []
  runs : List (Nat × HandleRun) := []
  oseqs : List (Nat × Nat) := []
  /-- item 6: flow entries and the lifetime that each has left, in milliseconds -/
  flows : List (Nat × List Byte × Nat) := []
  /-- item 7: entries of the active's Silt Log, oldest first -/
  tail : List (List Byte) := []
deriving DecidableEq, Repr

/-- A commit held by a COMMIT record at the standby (R469). -/
structure TwinCommit where
  tag : Nat
  writer : Master
  point : Nat
deriving DecidableEq, Repr

/-- What a Shell Link record carries (Table 15-3). The layouts of most payloads are not in the spec. -/
inductive SlBody where
  | hb (x : HbInfo)
  | lack (seq : Nat)
  | sync (core : SyncCore)
  | syncAck (n digest : Nat) (differs : Bool)
  | commit (c : TwinCommit) (vals : List (Nat × Word)) (recs : List (Nat × Nat × List Byte))
  | commitAck (tag point : Nat)
  | joinReq
  | join (regs : List (Nat × Word)) (gcl : List (Nat × Word)) (ents : List (Nat × List Byte)) (recs : List Overlay)
  | joinEnd (epoch digest cycle : Nat)
  /-- kind: 0 SWAP, 1 SWAP_ACK, 2 YIELD, 3 DIGEST_CHECK -/
  | role (kind point term : Nat)
  | mka (port : Nat) (bytes : List Byte)
  /-- a SAK for the standby's SAs (R416): port, AN, key number, key server and key -/
  | sak (port an kn ksMi : Nat) (key : List Byte)
  /-- a piece of a descriptor of a session with DEST = 1 (R556) -/
  | relay (target : UpdTarget) (d : UpdDesc) (bytes : List Byte)
  /-- its answer: TAG, STATUS, DONE and DETAIL -/
  | relayAns (tag status done detail : Nat)
deriving DecidableEq, Repr

/-- A Shell Link record (Table 15-2) without its CRC and reserved bytes. -/
structure SlRec where
  ty : Nat
  end_ : Bool := false
  coreEnd : Bool := false
  lseq : Nat := 0
  sync : Nat := 0
  body : SlBody
deriving DecidableEq, Repr

/-- How the unit came to the active role last. -/
inductive ActiveBy where
  | arbitration | takeover | swap | wake
deriving DecidableEq, Repr

/-- A planned swap (R481, R482). -/
structure Swap where
  /-- sync number of P -/
  point : Nat
  /-- a host that asked through ROLE_SWAP, whose response waits -/
  host : Option HostPort := none
  acked : Bool := false
  /-- SERVICE follows (Table 16-9): tests requested -/
  thenTest : Option Nat := none
  digest : Bool := false
deriving DecidableEq, Repr

/-- The twin pair. -/
structure Twin where
  role : Role := .none
  sync : SyncSt := .none
  /-- strap sampled at release of reset -/
  twinB : Bool := false
  strapConflict : Bool := false
  isolated : Bool := false
  stale : Bool := false
  alive : Bool := false
  lastKick : Option Nat := none
  gate : Bool := false
  claim : Bool := false
  /-- line level as last read under the 3 us rule: true = low -/
  lineLow : Bool := false
  /-- the level has been read since reset -/
  lineRead : Bool := false
  actOut : Bool := false
  nextHb : Nat := 0
  sbAt : Option Nat := none
  slAt : Option Nat := none
  sbSilent : Bool := false
  slSilent : Bool := false
  lost : Bool := false
  /-- a takeover under a low line waits for the active's next window -/
  waitWindow : Bool := false
  peer : Option HbInfo := none
  termCopied : Nat := 0
  /-- TERM before the last takeover -/
  termBefore : Nat := 0
  foreignRun : Nat := 0
  activeAt : Nat := 0
  activeBy : ActiveBy := .arbitration
  arbAt : Nat := 0
  /-- this unit's sync point whose check window has not been sampled -/
  window : Option Nat := none
  swap : Option Swap := none
  /-- number of the sync point last acknowledged (active) or applied (standby) -/
  lastAcked : Nat := 0
  lastAckAt : Nat := 0
  /-- standby: JOIN_REQ has been sent; active: it has been received and its snapshot is to be sent -/
  joinReq : Bool := false
  /-- standby: the snapshot has been applied, and the core of the next sync point completes the join -/
  joined : Bool := false
  store : Option SyncCore := none
  /-- standby: gate control entries, table entries and overlay records of the JOIN records so far, and the number of the
  sync point that its JOIN_END names -/
  joinEnts : Option (List (Nat × Word) × List (Nat × List Byte) × List Overlay) := none
  joinAt : Option Nat := none
  digest : Nat := 0
  recomputing : Bool := false
  /-- own full digest equalled the running one, and the partner's has been reported to (R474) -/
  digestOk : Bool := false
  peerOk : Bool := false
  mismatchAt : Option Nat := none
  rejoinedAt : Option Nat := none
  annSeq : Nat := 0
  /-- announcements left of the three after a role entry -/
  annLeft : Nat := 0
  annNext : Nat := 0
  annReason : Nat := 0
  /-- takeover task of MP0: cycle D -/
  taskAt : Option Nat := none
  /-- first Silt entry that the next sync point sends -/
  tailSeq : Nat := 0
  /-- delta entries that the last sync point did not send, to be counted at the next (R470) -/
  carry : Nat := 0
  /-- the active's Silt entries, newest first -/
  mirror : List (List Byte) := []
deriving DecidableEq, Repr

/-- The Shell Link (R457 to R460). -/
structure ShellLink where
  /-- lanes UP, bit 0 = SL0 -/
  up : Nat := 0
  txSeq : Nat := 0
  /-- the lane that takes the next record (R457) -/
  turn : Nat := 0
  rxSeq : Nat := 0
  unacked : List (SlRec × Nat) := []
  /-- sequenced records that wait for room in the buffer of R459, oldest first -/
  waiting : List SlRec := []
  /-- a sequenced record received since the last LACK, at this cycle -/
  lackDue : Option Nat := none
deriving DecidableEq, Repr

end Sys2Proof
end

