-- ==== Sys2Proof/Syntax.lean ====
section
/-!
DEFINITION. The commands of the HX48: one constructor per row of spec/opcode_table.json, in the table's order. What
comes from outside the part with a command (a value written, a frame's bytes, a level on a line) is the
constructor's operand.
-/
namespace Sys2Proof

/-- The commands. -/
inductive Instr where
  /-- R5. A master writes a register that has no row of its own, and the write acts according to the register's
  type. -/
  | registerWrite (w : Who) (addr width : Nat) (val : Word)
  /-- R9. A read of the _LO half of a 64-bit pair latches the _HI half for that master. -/
  | pairLoRead (w : Who) (addr : Nat)
  /-- R9. A write to the _HI half of a pair is held for that master. -/
  | pairHiWrite (w : Who) (addr : Nat) (val : Word)
  /-- R9. A write to the _LO half of a pair applies both halves in one cycle. -/
  | pairLoWrite (w : Who) (addr : Nat) (val : Word)
  /-- R47. A master claims a page by writing its ID to OWNER, or the owner releases the page. -/
  | ownerWrite (w : Who) (page : Nat) (val : Word)
  /-- R50. A read of SEM_TASn test-and-sets the semaphore and returns GOT and the owner. -/
  | semTasRead (w : Who) (n : Nat)
  /-- R51. The owner's write of 0x0 to SEM_TASn frees the semaphore. -/
  | semRelease (w : Who) (n : Nat)
  /-- R55. A write of GO snapshots the pending shadows into an armed commit or joins one that is armed. -/
  | commitGo (w : Who) (tag : Nat)
  /-- R59. A write of DISCARD clears every pending shadow and overlay record that no armed commit holds. -/
  | commitDiscard (w : Who)
  /-- R55. MP0 ends the admission and consistency checks of an armed commit. -/
  | commitCheckEnd
  /-- R55. At the commit point, every register of the commit takes effect and SYS_EPOCH advances by one. -/
  | commitApply
  /-- R45. A write of CLR to ERRCAP clears the captured refusal, COUNT and ERRADDR. -/
  | errcapClear (w : Who) (page : Nat)
  /-- R565. A write of IRQ_CLR clears IRQ_RAW bits, unless an event sets a bit in the same cycle. -/
  | irqClrWrite (w : Who) (page : Nat) (val : Word)
  /-- R587. An IRQ_EN write that enables a bit already set in IRQ_RAW sends an MSI-X message. -/
  | irqEnWrite (w : Who) (page : Nat) (val : Word)
  /-- R587. Unmasking a vector that has its pending bit set sends the pending MSI-X message. -/
  | msixUnmask (h : HostPort) (vec : Nat)
  /-- R49. A host's link goes down, or the host issues a hot reset or FLR, and its pages, semaphores and rings are
  released. -/
  | hostLinkDown (h : HostPort)
  /-- R62. A write of EN = 1 enables a DMA ring, and its BASE, CQ and LOG2N lock. -/
  | ringEnable (w : Who) (r : RingId) (val : Word)
  /-- R70. A write of EN from 1 to 0 stops a ring from taking descriptors and flushes what it has taken. -/
  | ringDisable (w : Who) (r : RingId) (val : Word)
  /-- R70. A disabled ring's frames in flight complete, HEAD is set to TAIL, and DRAINED is set. -/
  | ringDrained (r : RingId)
  /-- R62. Host software posts descriptors by writing TAIL, which is checked against the ring size. -/
  | ringTailWrite (w : Who) (r : RingId) (val : Word)
  /-- R64. A TX frame read from host memory enters PRS as a frame of port 48 or 49. -/
  | txFrameEnter (h : HostPort) (k : Nat) (descs : List TxDesc) (bytes : List Byte) (fault : Bool)
  /-- R65. A waiting LAUNCH frame enters PRS in the cycle in which the Phase Base position reaches its launch
  position. -/
  | txLaunch (h : HostPort) (k tc : Nat)
  /-- R66. A TX completion is written once the frame's last byte has been read and its policy decision made. -/
  | txCompletion (h : HostPort) (k n : Nat)
  /-- R67. An RX frame is written to host buffers, followed by its receive header and completion. -/
  | rxFrameDma (h : HostPort) (bufs : List RxDesc) (fault : Bool)
  /-- R72. A ring raises its vector when its completion count reaches COAL_CNT or an INT completion is written. -/
  | ringInterrupt (r : RingId)
  /-- R72. A ring's coalescing timer expires with no further completion written, and the ring raises its vector. -/
  | coalTimerExpire (r : RingId)
  /-- R73. The mailbox opcode INFO reports the firmware and bundle versions. -/
  | info (h : HostPort)
  /-- R523. MODE_REQ with target SLEEP_RETAIN starts entry to SLEEP-RETAIN when accepted. -/
  | modeReqSleepRetain (h : HostPort)
  /-- R523. MODE_REQ with target SLEEP_DEEP starts entry to SLEEP-DEEP when accepted. -/
  | modeReqSleepDeep (h : HostPort)
  /-- R522. MODE_REQ with target SERVICE moves the unit to SERVICE, after a swap when VIA_TWIN is set. -/
  | modeReqService (h : HostPort)
  /-- R522. MODE_REQ with target RESET resets the unit, in every mode. -/
  | modeReqReset (h : HostPort)
  /-- R534. MODE_REQ with target RUN clears RUN_WAIT on a unit configured from Bedrock. -/
  | modeReqRun (h : HostPort)
  /-- R512. The mailbox opcode TEST_REQ runs the requested tests, or starts a destructive test sequence. -/
  | testReq (h : HostPort)
  /-- R77. The mailbox opcode SILT_CHECKPOINT makes MP1 write a signed checkpoint record. -/
  | siltCheckpoint (h : HostPort)
  /-- R77. MP1 writes a signed checkpoint record after an entry with SEQ mod 256 = 255. -/
  | siltCheckpointRecord
  /-- R78. A host writes SILT_ACK_A or SILT_ACK_B and frees the entries that it has saved. -/
  | siltAckWrite (w : Who) (h : HostPort) (val : Word)
  /-- R108. PHASE wraps, CYCLE advances, and every phase schedule restarts at entry 0. -/
  | cycleBoundary
  /-- R105. SYNC_PERIOD + 25 µs passes with no qualifying boundary, and a forced sync point is inserted. -/
  | forcedSyncPoint
  /-- R87. Every 1 µs under NETTIME, the domain time delivers a reference event to the tracker. -/
  | nettimeRefEvent
  /-- R111. A filtered tick edge is accepted and delivers a reference event at C:0. -/
  | tickAccepted (j : Nat)
  /-- R111. A tick pulse shorter than 4 cycles is ignored and counted. -/
  | tickRunt (j : Nat)
  /-- R593. No tick arrives within the loss margin, and the tracker enters HOLDOVER. -/
  | tickLoss
  /-- R89. An accepted forward quadrature count advances the encoder count and delivers a reference event. -/
  | encCount (m : Nat)
  /-- R89. An accepted Z edge sets the count to 0 and ends the cycle under INDEX. -/
  | encIndex (m : Nat)
  /-- R93. A backward count freezes the position and sets REVERSE. -/
  | encBackward (m : Nat)
  /-- R91. A sample in which A and B both change is counted and ignored. -/
  | encIllegal (m : Nat)
  /-- R97. No count arrives for STILL_US under ANGLE, and the tracker enters STANDSTILL with RATE 0. -/
  | pbStandstill
  /-- R102. The new reference's first cycle start ends the join, and JOIN_DONE is raised. -/
  | joinDone
  /-- R112. An accepted CAP edge writes a capture entry with PTP time and position into the FIFO. -/
  | capEdge (n : Nat) (rising : Bool)
  /-- R112. A read of GPIO_CAPn_NS pops the oldest capture entry and latches its other fields. -/
  | capNsRead (w : Who) (n : Nat)
  /-- R112. A read of GPIO_CAPn_STAT returns the FIFO fill and clears OVF. -/
  | capStatRead (w : Who) (n : Nat)
  /-- R114. A write of ARM arms a pulse output in once or periodic mode. -/
  | ppoArm (w : Who) (n : Nat) (val : Word)
  /-- R115. The position or PTP time reaches AT, and the pulse output goes active for WIDTH cycles. -/
  | ppoFire (n : Nat)
  /-- R127. A frame crosses a port's MII boundary and is checked for length, FCS and EtherType. -/
  | frameReceive (port : Nat) (bytes : List Byte) (abort : Bool) (sub : Nat) (cmp : PipeCmp)
  /-- R123. A link loss condition arises on an UP port and starts the DN_HOLD timer. -/
  | lossCondition (l : LinkId) (k : LossKind)
  /-- R124. A loss condition holds for DN_HOLD, and the port leaves UP with the link-down actions. -/
  | linkDown (l : LinkId)
  /-- R261. The last half carried for a flushed port is discarded, and FLUSH_DONE is raised. -/
  | flushDone (port : Nat)
  /-- R206. The keeper removes every unlocked FDB entry of a port that has left UP. -/
  | fdbPortPurge (port : Nat)
  /-- R122. A training port with no loss condition for UP_HOLD enters UP. -/
  | linkUp (l : LinkId)
  /-- R121. ALT_MS ends without UP, and a training port switches between MODE and ALT. -/
  | altModeSwitch (port : Nat)
  /-- R133. A verify mPacket is answered, and preemption becomes active. -/
  | mmVerifyResponse (port : Nat)
  /-- R133. VERIFY_MS passes without an answer, and the port resends a verify mPacket or verification fails. -/
  | mmVerifyTimeout (port : Nat)
  /-- R136. The MAC merge sublayer receives a fragment and hands the frame on once its last fragment has arrived. -/
  | mmFragmentReceive (port : Nat) (smd : Smd) (bytes : List Byte) (last crcOk abort : Bool) (cmp : PipeCmp)
  /-- R142. A write of SLEEP_REQ to TPHY_CMD starts the TC10 sleep handshake. -/
  | tc10SleepReq (w : Who) (n : Nat)
  /-- R142. A write of WAKE_REQ to TPHY_CMD sends a WUP from SLEEP. -/
  | tc10WakeReq (w : Who) (n : Nat)
  /-- R142. A received sleep request is accepted or rejected according to ACCEPT_SLEEP. -/
  | tc10SleepRequestRx (n : Nat)
  /-- R142. The sleep handshake completes, and the port enters SLEEP with the link-down actions. -/
  | tc10HandshakeDone (n : Nat)
  /-- R142. The partner rejects the sleep handshake, or it times out, and the port returns to NORMAL. -/
  | tc10SleepFail (n : Nat)
  /-- R142. A valid WUP on the line wakes a sleeping T1 port. -/
  | tc10Wup (n : Nat)
  /-- R142. A WUR received on an UP port raises TC10_WUR and a wake event. -/
  | tc10Wur (n : Nat)
  /-- R144. MDIO_CMD OP 0x0 starts a Clause 22 write frame. -/
  | mdioC22Write (w : Who) (m phy reg : Nat)
  /-- R144. MDIO_CMD OP 0x1 starts a Clause 22 read frame. -/
  | mdioC22Read (w : Who) (m phy reg : Nat)
  /-- R144. MDIO_CMD OP 0x2 starts a Clause 45 address frame and write frame. -/
  | mdioC45Write (w : Who) (m phy reg : Nat)
  /-- R144. MDIO_CMD OP 0x3 starts a Clause 45 address frame and read frame. -/
  | mdioC45Read (w : Who) (m phy reg : Nat)
  /-- R144. The last MDIO frame ends, and DONE and MDIO_DONE are set. -/
  | mdioDone (m : Nat) (reply : Option Nat)
  /-- R146. A write to SDS_PRBS starts or stops the PRBS generator and checker. -/
  | sdsPrbsWrite (w : Who) (lane : Nat) (val : Word)
  /-- R5. A write of START to TPHY_DIAG starts a cable test. -/
  | cableTestStart (w : Who) (n : Nat)
  /-- R5. A cable test ends, and its result is written to TPHY_DIAG_RES. -/
  | diagDone (n fault dist : Nat)
  /-- R148. Byte 63 enters PRS, the frame is dispatched to a parse processor and stamped with its epoch. -/
  | parseDispatch (f : Nat) (rvErr : Bool)
  /-- R152. A frame that found no free processor takes the first processor that becomes free. -/
  | dispatchWait (f : Nat)
  /-- R155. A parked parse resumes on a free processor after its needed byte enters PRS. -/
  | parseResume (f : Nat)
  /-- R156. The keys of a DEEP frame go to its pipeline 48 cycles after its last byte enters PRS. -/
  | deepParseEnd (f : Nat)
  /-- R169. PRS makes the MALFORMED checks marked at end, in the cycle after the frame's last byte. -/
  | endCheck (f : Nat)
  /-- R591. A write of ARM to PRS_CAPT_CTRL arms a result capture for the named port. -/
  | prsCaptArm (w : Who) (val : Word)
  /-- R177. A pipeline takes a frame's keys and produces its forwarding result in exactly 72 cycles. -/
  | lookupStage (f : Nat)
  /-- R189. A TUE READ descriptor returns a table entry as a frame of the current epoch sees it. -/
  | tueRead (h : HostPort) (d : TueDesc)
  /-- R187. A TUE WRITE descriptor stages a new value for an entry by index. -/
  | tueWrite (h : HostPort) (d : TueDesc) (data : List Byte) (fault : Bool)
  /-- R182. A TUE INSERT descriptor stages an FDB or STREAM_ID key, replacing it or placing it by cuckoo search. -/
  | tueInsert (h : HostPort) (d : TueDesc) (data : List Byte) (fault : Bool)
  /-- R187. A TUE DELETE descriptor invalidates an entry by key, or a flow by index. -/
  | tueDelete (h : HostPort) (d : TueDesc) (data : List Byte) (fault : Bool)
  /-- R189. A TUE SEARCH descriptor returns the index and entry of a key. -/
  | tueSearch (h : HostPort) (d : TueDesc) (data : List Byte) (fault : Bool)
  /-- R187. A TUE FLUSH descriptor removes the matching FDB entries at once. -/
  | tueFlush (h : HostPort) (d : TueDesc)
  /-- R193. The keeper swaps a LIVE overlay record with its main location. -/
  | overlayCopyOut (table index : Nat)
  /-- R194. A SWAPPED record is freed once no frame of an older epoch awaits lookup. -/
  | overlayRetire (table index : Nat)
  /-- R199. The learn filter releases an event to the merged queue after the frame passes policy and its FCS. -/
  | learnRelease (pl : Nat)
  /-- R201. The keeper applies a queued learn event to both FDB copies under Table 6-10. -/
  | learnApply
  /-- R202. A one-second move-counting interval ends, and the per-port move counts restart. -/
  | flapIntervalEnd
  /-- R202. A host writes 1 to a TUE_FROZEN bit and unfreezes learning on that port. -/
  | tueFrozenClear (w : Who) (hi : Bool) (val : Word)
  /-- R205. Every AGE_TIME/4 the keeper ages every unlocked FDB location and removes stale entries. -/
  | ageingSweep
  /-- R215. FW and SFP decide a frame's copies in exactly 28 cycles. -/
  | policyStage (f : Nat)
  /-- R225. The sweeper frees flow entries whose lifetime has ended. -/
  | flowSweep
  /-- R241. A half becomes ready in the first slot 9 cycles after both its data and the forwarding set are present.
  -/
  | halfReady (f : Nat)
  /-- R244. A lone unscheduled half has waited LONE_WAIT slots for a partner and travels alone. -/
  | loneWaitExpire (g : Nat)
  /-- R246. A queued copy is opened when it arrives, or when its queue has room under W halves. -/
  | copyOpen (port q : Nat)
  /-- R248. An output group reads one readable half per side from the bank it visits. -/
  | halfRead (g : Nat)
  /-- R249. The resequencer releases an on-time half to EGS at the start of its due slot. -/
  | halfRelease (port q : Nat)
  /-- R255. A cut-through copy whose next half has not been released is ended with an inverted FCS. -/
  | txUnderrun (port : Nat)
  /-- R272. EGS decides in cycle D which eligible copy starts at F = D + 40 and charges its shapers. -/
  | egressDecision (port : Nat) (cmp : PipeCmp)
  /-- R273. A port's line becomes free when the line time of the started copy ends. -/
  | lineFree (port : Nat)
  /-- R277. Every 256 cycles each token bucket adds RATE × 256 / 8,000,000 bytes, capped at BURST. -/
  | bucketRefill
  /-- R287. A gate control entry begins, its GATES take effect, and HOLD is set or released. -/
  | gclEntryBegin (port : Nat)
  /-- R286. The position reaches EGS_GCL_OFS, and the list restarts at entry BASE. -/
  | gclListBoundary (port : Nat)
  /-- R295. A suspended frame resumes once its gate is open, HOLD is off and the line is free. -/
  | preemptResume (port : Nat)
  /-- R284. A write of EGS_GCL_DATA writes the entry at INDEX and may increment INDEX. -/
  | gclDataWrite (w : Who) (port : Nat) (val : Word)
  /-- R299. MP0 re-examines a port's reservations after a loss of capacity and sheds or restores queues. -/
  | shedReexamine (port : Nat)
  /-- R310. Eleven recessive bits complete bus integration, and the requested CAN mode takes effect. -/
  | canBusIntegrationDone (n : Nat)
  /-- R310. A committed mode change takes effect at the next bus idle or frame end. -/
  | canModeAtIdle (n : Nat)
  /-- R327. A CAN frame becomes valid and is filtered, queued and handed to GWE; `sof` is its age in cycles since its SOF
  edge. -/
  | canFrameReceived (n : Nat) (msg : CanMsg) (sof : Nat)
  /-- R313. A CAN error updates TEC or REC under ISO 11898-1. -/
  | canError (n : Nat) (k : CanErrKind)
  /-- R313. A write of BO_RECOVER starts bus-off recovery. -/
  | canBoRecover (w : Who) (n : Nat)
  /-- R313. 128 occurrences of 11 recessive bits end recovery, and the channel is error-active. -/
  | busoffRecovered (n : Nat)
  /-- R316. A message is written into the pending list or a transmit buffer. -/
  | canPendingWrite (n : Nat)
  /-- R318. A filled buffer becomes ready 200 cycles later, and SOF follows if the bus is idle: `idle` is then the
  distance to the next nominal bit boundary. -/
  | canBufferReady (n b : Nat) (idle : Option Nat)
  /-- R318. At a selection point the controller locks the most urgent ready buffer that its window allows. -/
  | canSelection (n : Nat)
  /-- R318. A locked buffer loses arbitration or meets an error and is unlocked. -/
  | canArbLost (n : Nat) (err : Bool)
  /-- R317. A frame ends with TX_OK, and its buffer is released and refilled. -/
  | canTxOk (n : Nat)
  /-- R320. A host write of CAN_TXS_GO submits the staged message. -/
  | canTxsGo (w : Who) (n : Nat)
  /-- R321. A write of CAN_CANCEL requests the cancellation of the host messages with a tag. -/
  | canCancelTag (w : Who) (n tag : Nat)
  /-- R321. A write of CAN_CANCEL with ALL = 1 requests the cancellation of every host message. -/
  | canCancelAll (w : Who) (n : Nat)
  /-- R321. At the next sample point a cancel request removes, withdraws or lets complete each message. -/
  | canCancelSample (n : Nat)
  /-- R322. A message withdrawn after SOF leaves a recessive bus, and a stuff error follows. -/
  | canCancelAbort (n : Nat)
  /-- R320. A read of CAN_TXEV pops the oldest transmit event. -/
  | canTxevRead (w : Who) (n : Nat)
  /-- R328. A read of a pop register latches the oldest receive entry and frees its blocks. -/
  | canRxqPop (w : Who) (n q : Nat)
  /-- R325. A frame still on the bus when its window closes completes and is reported. -/
  | canWindowOverrun (n : Nat)
  /-- R53. A write of CAN_AUTH_SET stages bytes 0–1 of the indexed authentication entry. -/
  | canAuthSet (w : Who) (val : Word)
  /-- R332. MP1 raises a transmit entry's FV reservation in NVM by 2^16. -/
  | authRsvRaise (i : Nat)
  /-- R335. At an entry's START phase a commander sends the entry's header. -/
  | linScheduleEntry (n : Nat)
  /-- R337. A header is received, and the channel publishes, subscribes or ignores by DIR; `meas` is the bit time that its
  sync byte gives. -/
  | linHeaderRx (n pid meas : Nat)
  /-- R337. A response is received, checked and handed to GWE when GW = 1. -/
  | linResponseRx (n : Nat) (data : List Byte) (chk : Nat)
  /-- R337. A response is missing or incomplete after its time, and NO_RESP is counted. -/
  | linNoResponse (n : Nat)
  /-- R338. The bus is idle for IDLE_S seconds, and the channel enters SLEEP. -/
  | linIdleSleep (n : Nat)
  /-- R338. A write of LIN_CMD.WAKE sends a 1 ms dominant wake pulse. -/
  | linWakeTx (w : Who) (n : Nat)
  /-- R338. A dominant level of 150 µs in SLEEP is a wake event. -/
  | linWakeDetect (n : Nat)
  /-- R340. A bus message, decapsulated message or re-injection enters the GWE input queue. -/
  | gweEnqueue
  /-- R341. The route stage admits the oldest queued message, at most once per 250 cycles. -/
  | routeAdmit
  /-- R346. At last + MIN_IV a handle with a deferred value re-injects its LVC. -/
  | gweReinject (handle : Nat)
  /-- R354. A batch's hold H ends, and the batch closes. -/
  | batchHoldExpire (s : Nat)
  /-- R355. A closed batch's frame enters port 50, 975 cycles after the close. -/
  | batchFrameEnter
  /-- R356. GWE accepts an IEEE 1722 frame from port 50 and walks its ACF messages. -/
  | gweDecapsulate
  /-- R360. GWE_TBL_CMD READ returns the selected GWE table entry. -/
  | gweTblRead (w : Who)
  /-- R360. GWE_TBL_CMD STAGE stages the data registers into the GWE overlay. -/
  | gweTblStage (w : Who)
  /-- R360. GWE_TBL_CMD READ_PENDING returns the staged value of an entry. -/
  | gweTblReadPending (w : Who)
  /-- R372. A Sync is accepted on the slave port, and MP1 computes the offset and runs the servo. -/
  | ptpSyncRx (d port : Nat) (seq : Nat) (twoStep : Bool) (info : SyncInfo) (t : Nat)
  /-- R372. A Follow_Up completes a two-step Sync for the servo. -/
  | ptpFollowUpRx (d port : Nat) (seq : Nat) (info : SyncInfo)
  /-- R372. A two-step Sync without its Follow_Up within 2^LOG_SYNC s is not accepted. -/
  | fuMissing (d : Nat)
  /-- R371. No Sync arrives within the receipt timeout, and the domain enters HOLDOVER. -/
  | ptpSyncTimeout (d : Nat)
  /-- R371. HOLD_S seconds in HOLDOVER pass, and the domain becomes FREE. -/
  | ptpHoldExpire (d : Nat)
  /-- R370. A write of PTP_Dd_SET_GO steps a grandmaster domain to the SET time. -/
  | ptpSetGo (w : Who) (d : Nat)
  /-- R373. Every 2^LOG_PDELAY s MP1 sends a Pdelay_Req on each enabled port. -/
  | pdelayReqTx (port : Nat)
  /-- R373. A received Pdelay_Req is answered with Pdelay_Resp and Pdelay_Resp_Follow_Up. -/
  | pdelayReqRx (port seq id t2 : Nat)
  /-- R373. A completed exchange updates the neighborRateRatio and mean link delay. -/
  | pdelayRespRx (port seq t2 t3 t4 : Nat)
  /-- R375. A received Sync reaching MGMT is regenerated for each master port 156 cycles later. -/
  | syncRelay (d : Nat) (seq : Nat) (twoStep : Bool) (info : SyncInfo) (t : Nat)
  /-- R379. MP1 sends a relayed two-step Sync's Follow_Up within 100 µs of its egress. -/
  | followUpTx (d port : Nat)
  /-- R380. As grandmaster, MP1 originates Sync on every master port each interval. -/
  | syncOriginate (d : Nat)
  /-- R387. A write of VALID = 1 to an SA's CTRL installs the SA after the slot checks. -/
  | saInstall (w : Who) (port : Nat) (sa : SaId) (val : Word)
  /-- R387. A write of VALID = 0 removes the SA at the next frame boundary. -/
  | saRemove (w : Who) (port : Nat) (sa : SaId) (val : Word)
  /-- R395. A write of MSC_TXSC.ENC_SA selects the transmit SA for later frames. -/
  | encSaWrite (w : Who) (port : Nat) (val : Word)
  /-- R406. Every KAT_MS the spare pipe takes the next pipe's slot, and the freed pipe runs known-answer tests. -/
  | katRotation (eg : Bool)
  /-- R406. A freed pipe ends its known-answer tests and becomes the spare or is retired. -/
  | katComplete (eg pass : Bool)
  /-- R411. A lookaside AES-CTR encryption is admitted with the slot's next counter value. -/
  | aesCtrEnc (src : LaSource) (d : LaDesc) (input : List Byte) (fault : Bool)
  /-- R410. A lookaside AES-CTR decryption is admitted after the checks of R410. -/
  | aesCtrDec (src : LaSource) (d : LaDesc) (input : List Byte) (fault : Bool)
  /-- R411. A lookaside AES-GCM encryption is admitted with a device-generated IV. -/
  | aesGcmEnc (src : LaSource) (d : LaDesc) (input : List Byte) (fault : Bool)
  /-- R410. A lookaside AES-GCM decryption is admitted and releases no output on a tag failure. -/
  | aesGcmDec (src : LaSource) (d : LaDesc) (input : List Byte) (fault : Bool)
  /-- R410. A lookaside CMAC generation is admitted. -/
  | aesCmacGen (src : LaSource) (d : LaDesc) (input : List Byte) (fault : Bool)
  /-- R410. A lookaside CMAC verification is admitted. -/
  | aesCmacVer (src : LaSource) (d : LaDesc) (input : List Byte) (fault : Bool)
  /-- R411. A lookaside CMAC over data and a counter-derived freshness value is admitted. -/
  | aesCmacFv (src : LaSource) (d : LaDesc) (input : List Byte) (fault : Bool)
  /-- R410. A lookaside AES key wrap is admitted. -/
  | aesKwWrap (src : LaSource) (d : LaDesc) (input : List Byte) (fault : Bool)
  /-- R410. A lookaside AES key unwrap is admitted. -/
  | aesKwUnwrap (src : LaSource) (d : LaDesc) (input : List Byte) (fault : Bool)
  /-- R410. A lookaside SHA-256 hash is admitted. -/
  | sha256 (src : LaSource) (d : LaDesc) (input : List Byte) (fault : Bool)
  /-- R410. A lookaside SHA-384 hash is admitted. -/
  | sha384 (src : LaSource) (d : LaDesc) (input : List Byte) (fault : Bool)
  /-- R410. A lookaside HMAC-SHA-256 is admitted. -/
  | hmacSha256 (src : LaSource) (d : LaDesc) (input : List Byte) (fault : Bool)
  /-- R410. A lookaside HMAC-SHA-384 is admitted. -/
  | hmacSha384 (src : LaSource) (d : LaDesc) (input : List Byte) (fault : Bool)
  /-- R410. A lookaside ECDSA signature is admitted. -/
  | ecdsaSign (src : LaSource) (d : LaDesc) (input : List Byte) (fault : Bool)
  /-- R410. A lookaside ECDSA verification is admitted. -/
  | ecdsaVerify (src : LaSource) (d : LaDesc) (input : List Byte) (fault : Bool)
  /-- R410. A lookaside ECDH agreement is admitted. -/
  | ecdh (src : LaSource) (d : LaDesc) (input : List Byte) (fault : Bool)
  /-- R410. A lookaside DRBG generation is admitted. -/
  | drbgGen (src : LaSource) (d : LaDesc) (healthy : Bool)
  /-- R410. A lookaside DRBG reseed with entropy health tests is admitted. -/
  | drbgReseed (src : LaSource) (d : LaDesc) (healthy : Bool)
  /-- R413. An INV_FENCE completes once every earlier request under its slot has completed. -/
  | invFence (src : LaSource) (d : LaDesc)
  /-- R409. An engine finishes a lookaside request, and its completion is written. -/
  | lookasideComplete (num : Nat)
  /-- R414. MP1 processes a received MKPDU for a SecY's MKA participant. -/
  | mkpduRx (port : Nat) (bytes : List Byte)
  /-- R414. The MKA hello time expires, and MP1 sends an MKPDU. -/
  | mkaHello (port : Nat)
  /-- R414. A live peer's MKA life time expires. -/
  | mkaPeerTimeout (port mi : Nat)
  /-- R439. A KUM of OP INSTALL is checked and installs a wrapped key into a slot. -/
  | kumInstall (h : HostPort)
  /-- R439. A KUM of OP DERIVE derives a key from the parent slot into the target slot. -/
  | kumDerive (h : HostPort)
  /-- R439. A KUM of OP INVALIDATE makes a slot invalid and erases its blob. -/
  | kumInvalidate (h : HostPort)
  /-- R443. A KUM of OP LC_ADVANCE programs the new lifecycle state and enters QUARANTINE. -/
  | kumLcAdvance (h : HostPort)
  /-- R435. A KUM of OP FIRST installs an authority key through ECDH with the DIK in MANUFACTURE. -/
  | kumFirst (h : HostPort)
  /-- R443. GRACE_MS after a lifecycle change, the unit resets. -/
  | lcGraceReset
  /-- R547. UPD_DECIDE ACTIVATE makes the READY code slot PENDING. -/
  | updActivate (h : HostPort)
  /-- R547. UPD_DECIDE ACTIVATE_RESET makes the READY slot PENDING and resets the unit. -/
  | updActivateReset (h : HostPort)
  /-- R547. UPD_DECIDE CANCEL returns a PENDING slot to READY. -/
  | updCancel (h : HostPort)
  /-- R549. UPD_DECIDE VETO reverts a unit in TRIAL to its confirmed bundle. -/
  | updVeto (h : HostPort)
  /-- R547. UPD_DECIDE OEM_KEY_SET programs OEM_CFG_HASH in MANUFACTURE. -/
  | oemKeySet (h : HostPort)
  /-- R481. The mailbox opcode ROLE_SWAP on the active schedules a planned swap at its second sync point. -/
  | roleSwap (h : HostPort)
  /-- R482. At the swap point the old active closes its gate and the new active opens its own. -/
  | swapPoint
  /-- R481. No SWAP_ACK arrives by P − 20 µs, and the swap aborts. -/
  | swapAbort
  /-- R514. An enabled LSP condition makes MP0 start a planned swap within 1 ms. -/
  | swapCondition (c : SwapCond)
  /-- R453. MP0 writes TWN_KICK and keeps ALIVE up. -/
  | twnKick (w : Who)
  /-- R453. MP0 fails to kick within 100 µs, and the unit enters QUARANTINE. -/
  | kickTimeout
  /-- R454. Every 10 µs the unit pulses TWIN_HB_OUT and sends an HB record on each UP lane. -/
  | heartbeatTx
  /-- R455. A heartbeat edge or HB record arrives from the partner. -/
  | heartbeatRx (p : HbPath) (info : HbInfo)
  /-- R455. A heartbeat path is silent for HB_MISS periods. -/
  | heartbeatSilent (p : HbPath)
  /-- R477. MP0's takeover task does the CAN, GWE and MKA fixups, the announcement and the EGS re-examination. -/
  | takeoverTask
  /-- R456. At its check window after a sync point, the active releases TWIN_CLAIM and samples it. -/
  | claimWindow (low : Bool)
  /-- R456. TWIN_CLAIM held low for 3 µs is read low, and an arbitrating unit becomes standby. -/
  | claimLowRead
  /-- R461. In CONFIGURE with Topsoil applied and R100 met, the unit enters ARB and watches the claim line. -/
  | arbitrationStart
  /-- R461. OBSERVE ends with the line high, and the preferred unit takes the active role. -/
  | observeEnd
  /-- R461. OBSERVE + GRACE_US ends with the line high, and the non-preferred unit takes the active role. -/
  | graceEnd
  /-- R458. A Shell Link record arrives and is checked by CRC and TYPE. -/
  | slRecordRx (lane : Nat) (bytes : List Byte)
  /-- R459. A receiver sends LACK at least every 2 µs while records are unacknowledged. -/
  | slLack
  /-- R459. An unacknowledged record is resent 10 µs after its last transmission. -/
  | slRetransmit
  /-- R467. The active receives JOIN_REQ and prepares a snapshot at its next sync point. -/
  | joinReqRx
  /-- R467. The standby receives JOIN_END, loads CYCLE and applies the snapshot and passed commits. -/
  | joinEndRx (epoch digest cycle : Nat) (regs : List (Nat × Word))
  /-- R471. The standby applies the core items of a sync point in one cycle and sends SYNC_ACK. -/
  | syncApply (core : SyncCore)
  /-- R474. A full digest recomputation ends and decides re-join, swap or DIGEST_PERSIST. -/
  | digestRecomputeDone (full : Nat)
  /-- R472. The active receives SYNC_ACK and keeps the twin synchronised. -/
  | syncAckRx (n digest : Nat) (match_ : Bool)
  /-- R469. The standby stages a received commit record with ORIGIN TWIN and answers COMMIT_ACK. -/
  | commitRecordRx (writer : Master) (tag point : Nat) (vals : List (Nat × Word)) (recs : List (Nat × Nat × List Byte))
  /-- R469. The active receives COMMIT_ACK for a commit record. -/
  | commitAckRx (tag point : Nat)
  /-- R483. The unit sends a role announcement after a role entry and every PERIOD_MS. -/
  | roleAnnounce
  /-- R490. The comparator flags a mismatch, and the task run is discarded and replayed. -/
  | lockstepMismatch (pair : Bool) (task : Nat) (async : Bool)
  /-- R487. A task compared clean commits, and its buffered writes are released. -/
  | taskCommit (pair : Bool) (writes : List Staged)
  /-- R489. A task exceeds its time or buffer limits and is aborted, failing its pair. -/
  | taskOverrun (pair : Bool) (task : Nat)
  /-- R493. A scrubber reads the words of its region and repairs or reports errors. -/
  | scrubPass (region : Nat)
  /-- R498. A frame or half overruns a stage's exact time by 64 cycles, and the unit enters QUARANTINE. -/
  | dpStall (unit : Nat)
  /-- R499. An UP port with a free line and an eligible queue starts nothing for STALL_US. -/
  | portStall (port : Nat)
  /-- R500. CCLK or MCLK stops or leaves ±10 % for two AON samples. -/
  | clockFail (mclk : Bool)
  /-- R500. A supply leaves its operating range for 2 µs. -/
  | supplyFail (supply : Nat)
  /-- R504. A fault report enters the coalescer FIFO 8 cycles after its event. -/
  | faultReport
  /-- R507. The coalescer takes a report, finds its suspect and opens or extends an entry. -/
  | coalesce
  /-- R508. An OPEN coalescer entry closes when CCLK passes FIRST + WINDOW + 2 µs. -/
  | windowClose (i : Nat)
  /-- R508. The coalescer writes a closed entry's chained record and raises RECORD. -/
  | faultRecordWrite
  /-- R515. An ARM write to MEM_INJ corrupts the parity of a chosen word. -/
  | memInjArm (w : Who) (val : Word)
  /-- R516. LSP_INJ KIND ONCE inverts one checker output in the next task. -/
  | lspInjOnce (w : Who) (val : Word)
  /-- R516. LSP_INJ KIND ASYNC makes the cores' asynchronous samples differ for RUNS runs. -/
  | lspInjAsync (w : Who) (val : Word)
  /-- R516. LSP_INJ KIND PERSIST makes every run mismatch, failing the pair. -/
  | lspInjPersist (w : Who) (val : Word)
  /-- R517. A GO write to FLT_INJ submits one injected fault report. -/
  | fltInjGo (w : Who) (val : Word)
  /-- R523. 20 µs after the response, BUF and GWE stop admitting, and buses and T1 ports go to sleep. -/
  | sleepEntryStop
  /-- R523. DRAIN_US ends, queued copies are flushed, and ports leave UP. -/
  | sleepDrainEnd
  /-- R523. MP1 finishes the sleep checkpoint and NVM writes, and ALIVE falls into SLEEP. -/
  | sleepCheckpointDone
  /-- R523. CCLK and MCLK stop, and the sleep supplies switch off. -/
  | suppliesOff
  /-- R525. An enabled WAKEk holds its active level for FILT and is accepted as a wake event. -/
  | wakePinAssert (k : Nat)
  /-- R525. WAKE_TIMER ms pass since the supplies went off, and a wake event is accepted. -/
  | wakeTimerExpire
  /-- R530. Supplies rise from below reset, and a POWER_ON start with MBIST and LBIST begins. -/
  | powerOn
  /-- R530. RESET_N held low for 10 µs starts a RESET_PIN start. -/
  | resetPin
  /-- R446. TAMPER_N low for two AON samples asserts the Husk line. -/
  | tamperAssert
  /-- R572. A voltage or clock glitch beyond the detector limits asserts the Husk line. -/
  | glitchDetect (k : GlitchKind)
  /-- R446. A die temperature beyond −70 °C or +175 °C asserts the Husk line. -/
  | temperatureLimit
  /-- R541. A write of OPEN to UPD_SESSION opens an update session for a target and destination. -/
  | updSessionOpen (w : Who) (val : Word)
  /-- R541. The owner's write of CLOSE ends the update session. -/
  | updSessionClose (w : Who) (val : Word)
  /-- R544. A UPD WRITE descriptor erases, programs and reads back a block of the target area. -/
  | updWrite (d : UpdDesc) (bytes : List Byte) (fault : Bool)
  /-- R545. A UPD FINISH descriptor checks every component and makes the slot READY or CANDIDATE. -/
  | updFinish (d : UpdDesc)
  /-- R541. A UPD ABORT descriptor ends the session and completes waiting descriptors with ABORTED. -/
  | updAbort (d : UpdDesc)
  /-- R556. The standby runs a relayed update descriptor on its own flash and returns the status. -/
  | relayRecordRx (target : UpdTarget) (d : UpdDesc) (bytes : List Byte)
  /-- R558. A RELAY ACK or RESULT frame from a downstream device is checked and acted on. -/
  | relayFrameRx (port : Nat) (bytes : List Byte)
  /-- R557. An unacknowledged DATA frame is resent after 2 ms, or the relay times out. -/
  | relayRetransmit (n : Nat)
  /-- R548. At the end of the trial window the unit confirms the trial bundle or reverts. -/
  | trialWindowEnd
  /-- R571. A supply not in range 100 ms after its enable drops both enables and retries after 10 ms. -/
  | supplyRetry
  /-- R123. A link loss condition clears, the DN_HOLD timer of an UP port stops, and a training port may start
  counting UP_HOLD. -/
  | lossConditionClear (l : LinkId) (k : LossKind)
  /-- R476. TWIN_CLAIM held high for 3 µs is read high, and a standby that has declared its twin LOST takes over. -/
  | claimHighRead
  /-- R244. In each slot a group's input link picks the waiting halves by the order of R244 and writes them into the
  bank it visits. -/
  | inputLinkWrite (g : Nat)
  /-- R544. The flash device finishes erasing and programming a block, the block is read back, and the UPD
  descriptor completes with OK or FLASH_FAIL. -/
  | flashWriteDone (ok : Bool)
  /-- R38. A host port's PCIe link finishes training after a link-down, hot reset or PERST#, and HIFx_LINK shows it
  UP. -/
  | hostLinkUp (h : HostPort) (speed width : Nat)
  /-- R73. A mailbox doorbell written while BUSY = 1 is ignored and sets BUSYHIT. -/
  | busyhit (h : HostPort)
deriving DecidableEq, Repr

end Sys2Proof
end

