-- ==== Sys2Proof/Machine/Operands.lean ====
section
/-!
DEFINITION. The operand forms of the commands: which numbers name a port, a ring, a channel, a page or another part of
the HX48 (spec/01_architecture.md, the register tables and Table 19-1).
-/
namespace Sys2Proof.Machine
open Sys2Proof

/-- Rings that exist. -/
def ringOk : RingId → Bool
  | .tx _ k => decide (k < 32)
  | .rx _ k => decide (k < 32)
  | .la _ _ => true
  | .tue _ => true
  | .upd => true

/-- BAR0 is 16 MB (Table 2-1); the TUE rings, the MSI-X tables of the two host ports and their BAR2 follow it under
keys of the model. Marks: DESIGN CHOICE (log entry 73). -/
def addrOk (a : Nat) : Bool :=
  decide (a < 0x1002000) || decide (0x1200000 ≤ a ∧ a < 0x1208000) || decide (0x4000000 ≤ a ∧ a < 0xC000000)

/-- The page number is in Table 19-1. -/
def pageOk (p : Nat) : Bool := (pageOf p).isSome && decide (p < 0x1000)

/-- The offset is the `_LO` half of an R9 pair. -/
def loOk (a : Nat) : Bool :=
  match regDef a with
  | some d => d.half == .lo
  | none => false

/-- The offset is that of `PTP_Dd_TIME_NS`, whose read latches the rest of the time (Table 12-3). -/
def timeNsAt (a : Nat) : Bool := a == 0xC124 || a == 0xC1A4

/-- The offset is one whose read latches others: a `_LO` half, or `PTP_Dd_TIME_NS`. -/
def loReadOk (a : Nat) : Bool := loOk a || timeNsAt a

/-- The offset is the `_HI` half of an R9 pair. -/
def hiOk (a : Nat) : Bool :=
  match regDef a with
  | some d => d.half == .hi
  | none => false

/-- External ports 0 to 47. -/
def macOk (n : Nat) : Bool := decide (n < 48)

/-- Logical ports 0 to 51 (R15). -/
def portOk (n : Nat) : Bool := decide (n < 52)

/-- Egress queues 0 to 7. -/
def queueOk (q : Nat) : Bool := decide (q < 8)

/-- Traffic classes 0 to 7. -/
def tcOk (t : Nat) : Bool := decide (t < 8)

/-- T1 ports 32 to 47, as 0 to 15. -/
def t1Ok (n : Nat) : Bool := decide (n < 16)

/-- SerDes lanes of the external ports. -/
def laneOk (n : Nat) : Bool := decide (n < 32)

/-- Links of Table 4-2: external ports and Shell Link lanes. -/
def linkOk : LinkId → Bool
  | .port n => macOk n
  | .sl l => decide (l < 2)

/-- MDIO masters 0 to 3. -/
def mdioOk (m phy reg : Nat) : Bool := decide (m < 4) && decide (phy < 32) && decide (reg < 32)

/-- CAN channels. -/
def canOk (n : Nat) : Bool := decide (n < 24)

/-- LIN channels. -/
def linOk (n : Nat) : Bool := decide (n < 8)

/-- Pairs of tick, encoder and domain numbers. -/
def twoOk (n : Nat) : Bool := decide (n < 2)

/-- Capture inputs. -/
def capOk (n : Nat) : Bool := decide (n < 8)

/-- Pulse outputs. -/
def ppoOk (n : Nat) : Bool := decide (n < 16)

/-- Semaphores. -/
def semOk (n : Nat) : Bool := decide (n < 64)

/-- Port groups, each with an input and an output link (Table 1-2). -/
def groupOk (g : Nat) : Bool := decide (g < 16)

/-- SAs of a SecY: two transmit SAs, two of each of four receive SCs. -/
def saOk : SaId → Bool
  | .tx s => decide (s < 2)
  | .rx c s => decide (c < 4) && decide (s < 2)

/-- Operations of Table 13-5. -/
def laOps : List Nat :=
  [0x01, 0x02, 0x03, 0x04, 0x05, 0x06, 0x07, 0x08, 0x09, 0x10, 0x11, 0x12, 0x13, 0x20, 0x21, 0x22, 0x30, 0x31, 0x3E]

/-- A descriptor belongs to the command of its OP; one whose OP is not defined to any.
Marks: DESIGN CHOICE (log entry 5). -/
def laOpOk (op : Nat) (d : LaDesc) : Bool := d.op == op || !laOps.contains d.op

/-- Supplies of Table 20-2, in its order. Marks: DESIGN CHOICE (log entry 63). -/
def supplyOk (n : Nat) : Bool := decide (n < 13)

/-- A UPD descriptor of an operation, or one whose OP is none of Table 18-6: that one completes with BAD_OP whichever
command brings it. Marks: DESIGN CHOICE (log entry 5). -/
def updOpOk (op : Nat) (d : UpdDesc) : Bool := d.op == op || !(d.op == 1 || d.op == 2 || d.op == 3)

/-- A descriptor's fields lie in their ranges. -/
def txDescOk (d : TxDesc) : Bool :=
  decide (d.addr < 2 ^ 64) && decide (d.len < 2 ^ 14) && decide (d.tc < 8) && decide (d.tag < 2 ^ 16)

/-- The descriptors of one frame: CHAIN on all but the last. -/
def chainOk : List TxDesc → Bool
  | [] => false
  | [d] => !d.chain
  | d :: rest => d.chain && chainOk rest

/-- Bytes that a frame's descriptors name. -/
def descLen (l : List TxDesc) : Nat := l.foldl (fun n d => n + d.len) 0

/-- A buffer descriptor as its 32 bytes can hold it. Marks: DESIGN CHOICE (log entry 5). -/
def rxDescFits (d : RxDesc) : Bool := decide (d.addr < 2 ^ 64) && decide (d.len < 2 ^ 16) && decide (d.tag < 2 ^ 16)

/-- A buffer descriptor keeps the rules of its fields (spec/02, after R66). Marks: DESIGN CHOICE (log entry 65). -/
def rxDescOk (d : RxDesc) : Bool :=
  d.addr % 64 == 0 && d.len % 64 == 0 && decide (256 ≤ d.len ∧ d.len ≤ 16384)

/-- A TX frame's descriptors, and as many bytes as they name unless a fetch was refused. -/
def txFrameOk (descs : List TxDesc) (bytes : List Byte) (fault : Bool) : Bool :=
  chainOk descs && descs.all txDescOk && (fault || bytes.length == descLen descs)

/-- PCIe speeds and widths of `HIFx_LINK`. -/
def hostLinkOk (speed width : Nat) : Bool :=
  decide (1 ≤ speed ∧ speed ≤ 4) && (width == 1 || width == 2 || width == 4)

end Sys2Proof.Machine
end

