-- ==== Sys2Proof/WellFormed.lean ====
section
/-!
DEFINITION. Which commands name parts that the HX48 has. A command that is not well formed does not exist: `exec`
refuses it by name.
-/
namespace Sys2Proof
open Sys2Proof.Machine

/-- Every port, ring, channel, pin, page and slot number of the command is in range.
Marks: DESIGN CHOICE (log entry 5). -/
def Instr.wf : Instr → Bool
  | .registerWrite _ addr width _ => addrOk addr && decide (1 ≤ width) && decide (width ≤ 8)
  | .pairLoRead _ a => loReadOk a
  | .pairHiWrite _ a _ => hiOk a
  | .pairLoWrite _ a _ => loOk a
  | .ownerWrite _ p _ => pageOk p
  | .semTasRead _ n => semOk n
  | .semRelease _ n => semOk n
  | .commitGo _ tag => decide (tag < 2 ^ 16)
  | .errcapClear _ p => pageOk p
  | .irqClrWrite _ p _ => pageOk p
  | .irqEnWrite _ p _ => pageOk p
  | .msixUnmask _ v => decide (v < 64)
  | .ringEnable _ r v => ringOk r && bit v.toNat 0
  | .ringDisable _ r v => ringOk r && !bit v.toNat 0
  | .ringDrained r => ringOk r
  | .ringTailWrite _ r _ => ringOk r
  | .txFrameEnter _ k ds bs flt => decide (k < 32) && txFrameOk ds bs flt
  | .txLaunch _ k tc => decide (k < 32) && tcOk tc
  | .txCompletion _ k n => decide (k < 32) && decide (n < 8)
  | .rxFrameDma _ bufs _ => bufs.all rxDescFits
  | .ringInterrupt r => ringOk r
  | .coalTimerExpire r => ringOk r
  | .tickAccepted j => twoOk j
  | .tickRunt j => twoOk j
  | .encCount m => twoOk m
  | .encIndex m => twoOk m
  | .encBackward m => twoOk m
  | .encIllegal m => twoOk m
  | .capEdge n _ => capOk n
  | .capNsRead _ n => capOk n
  | .capStatRead _ n => capOk n
  | .ppoArm _ n v => ppoOk n && bit v.toNat 4
  | .ppoFire n => ppoOk n
  | .frameReceive p _ _ sub _ => macOk p && decide (sub < 4)
  | .lossCondition l _ => linkOk l
  | .linkDown l => linkOk l
  | .flushDone p => portOk p
  | .fdbPortPurge p => portOk p
  | .linkUp l => linkOk l
  | .altModeSwitch p => macOk p
  | .mmVerifyResponse p => macOk p
  | .mmVerifyTimeout p => macOk p
  | .mmFragmentReceive p _ _ _ _ _ _ => macOk p
  | .tc10SleepReq _ n => t1Ok n
  | .tc10WakeReq _ n => t1Ok n
  | .tc10SleepRequestRx n => t1Ok n
  | .tc10HandshakeDone n => t1Ok n
  | .tc10SleepFail n => t1Ok n
  | .tc10Wup n => t1Ok n
  | .tc10Wur n => t1Ok n
  | .mdioC22Write _ m phy reg => mdioOk m phy reg
  | .mdioC22Read _ m phy reg => mdioOk m phy reg
  | .mdioC45Write _ m phy reg => mdioOk m phy reg
  | .mdioC45Read _ m phy reg => mdioOk m phy reg
  | .mdioDone m reply => decide (m < 4) && decide (reply.getD 0 < 2 ^ 16)
  | .sdsPrbsWrite _ lane _ => laneOk lane
  | .cableTestStart _ n => t1Ok n
  | .diagDone n fault _ => t1Ok n && decide (fault < 4)
  | .learnRelease pl => twoOk pl
  | .tueFrozenClear _ _ _ => true
  | .loneWaitExpire g => groupOk g
  | .copyOpen p q => portOk p && queueOk q
  | .halfRead g => groupOk g
  | .halfRelease p q => portOk p && queueOk q
  | .txUnderrun p => portOk p
  | .egressDecision p _ => portOk p
  | .lineFree p => portOk p
  | .gclEntryBegin p => portOk p
  | .gclListBoundary p => portOk p
  | .preemptResume p => portOk p
  | .gclDataWrite _ p _ => portOk p
  | .shedReexamine p => portOk p
  | .canBusIntegrationDone n => canOk n
  | .canModeAtIdle n => canOk n
  | .canFrameReceived n _ _ => canOk n
  | .canError n _ => canOk n
  | .canBoRecover _ n => canOk n
  | .busoffRecovered n => canOk n
  | .canPendingWrite n => canOk n
  | .canBufferReady n b _ => canOk n && decide (b < 3)
  | .canSelection n => canOk n
  | .canArbLost n _ => canOk n
  | .canTxOk n => canOk n
  | .canTxsGo _ n => canOk n
  | .canCancelTag _ n tag => canOk n && decide (tag < 2 ^ 16)
  | .canCancelAll _ n => canOk n
  | .canCancelSample n => canOk n
  | .canCancelAbort n => canOk n
  | .canTxevRead _ n => canOk n
  | .canRxqPop _ n q => canOk n && twoOk q
  | .canWindowOverrun n => canOk n
  | .authRsvRaise i => decide (i < 1024)
  | .linScheduleEntry n => linOk n
  | .linHeaderRx n pid _ => linOk n && decide (pid < 256)
  | .linResponseRx n data chk => linOk n && decide (data.length ≤ 8) && decide (chk < 256)
  | .linNoResponse n => linOk n
  | .linIdleSleep n => linOk n
  | .linWakeTx _ n => linOk n
  | .linWakeDetect n => linOk n
  | .gweReinject h => decide (h < 4096)
  | .batchHoldExpire s => decide (s < 64)
  | .ptpSyncRx d p _ _ _ _ => twoOk d && macOk p
  | .ptpFollowUpRx d p _ _ => twoOk d && macOk p
  | .fuMissing d => twoOk d
  | .ptpSyncTimeout d => twoOk d
  | .ptpHoldExpire d => twoOk d
  | .ptpSetGo _ d => twoOk d
  | .pdelayReqTx p => macOk p
  | .pdelayReqRx p _ _ _ => macOk p
  | .pdelayRespRx p _ _ _ _ => macOk p
  | .syncRelay d _ _ _ _ => twoOk d
  | .followUpTx d p => twoOk d && macOk p
  | .syncOriginate d => twoOk d
  | .saInstall _ p sa v => macOk p && saOk sa && bit v.toNat 0
  | .saRemove _ p sa v => macOk p && saOk sa && !bit v.toNat 0
  | .encSaWrite _ p _ => macOk p
  | .mkpduRx p _ => macOk p
  | .mkaHello p => macOk p
  | .mkaPeerTimeout p _ => macOk p
  | .slRecordRx lane _ => twoOk lane
  | .scrubPass r => decide (r < 12)
  | .memInjArm _ v => bit v.toNat 31
  | .lspInjOnce _ v => bit v.toNat 31 && fld v 1 2 == 1
  | .lspInjAsync _ v => bit v.toNat 31 && fld v 1 2 == 2
  | .lspInjPersist _ v => bit v.toNat 31 && fld v 1 2 == 3
  | .fltInjGo _ v => bit v.toNat 31
  | .portStall p => portOk p
  | .supplyFail n => supplyOk n
  | .windowClose i => decide (i ≤ 1024)
  | .wakePinAssert k => decide (k < 8)
  | .lossConditionClear l _ => linkOk l
  | .inputLinkWrite g => groupOk g
  | .relayFrameRx p _ => macOk p
  -- the operands of the commands below name nothing that could be absent
  | .commitDiscard _ | .commitCheckEnd | .commitApply | .hostLinkDown _ | .info _ => true
  | .modeReqSleepRetain _ | .modeReqSleepDeep _ | .modeReqService _ | .modeReqReset _ | .modeReqRun _ => true
  | .testReq _ | .siltCheckpoint _ | .siltCheckpointRecord | .siltAckWrite _ _ _ | .cycleBoundary => true
  | .forcedSyncPoint | .nettimeRefEvent | .tickLoss | .pbStandstill | .joinDone => true
  | .parseDispatch _ _ | .dispatchWait _ | .parseResume _ | .deepParseEnd _ | .endCheck _ => true
  | .prsCaptArm _ _ | .lookupStage _ | .tueRead _ _ | .tueWrite _ _ _ _ | .tueInsert _ _ _ _ => true
  | .tueDelete _ _ _ _ | .tueSearch _ _ _ _ | .tueFlush _ _ | .overlayCopyOut _ _ | .overlayRetire _ _ => true
  | .learnApply | .flapIntervalEnd | .ageingSweep | .policyStage _ | .flowSweep | .halfReady _ => true
  | .bucketRefill | .canAuthSet _ _ | .gweEnqueue | .routeAdmit | .batchFrameEnter | .gweDecapsulate => true
  | .gweTblRead _ | .gweTblStage _ | .gweTblReadPending _ | .katRotation _ | .katComplete _ _ => true
  | .aesCtrEnc _ d _ _ => laOpOk 0x01 d
  | .aesCtrDec _ d _ _ => laOpOk 0x02 d
  | .aesGcmEnc _ d _ _ => laOpOk 0x03 d
  | .aesGcmDec _ d _ _ => laOpOk 0x04 d
  | .aesCmacGen _ d _ _ => laOpOk 0x05 d
  | .aesCmacVer _ d _ _ => laOpOk 0x06 d
  | .aesCmacFv _ d _ _ => laOpOk 0x07 d
  | .aesKwWrap _ d _ _ => laOpOk 0x08 d
  | .aesKwUnwrap _ d _ _ => laOpOk 0x09 d
  | .sha256 _ d _ _ => laOpOk 0x10 d
  | .sha384 _ d _ _ => laOpOk 0x11 d
  | .hmacSha256 _ d _ _ => laOpOk 0x12 d
  | .hmacSha384 _ d _ _ => laOpOk 0x13 d
  | .ecdsaSign _ d _ _ => laOpOk 0x20 d
  | .ecdsaVerify _ d _ _ => laOpOk 0x21 d
  | .ecdh _ d _ _ => laOpOk 0x22 d
  | .drbgGen _ d _ => laOpOk 0x30 d
  | .drbgReseed _ d _ => laOpOk 0x31 d
  | .invFence _ d => laOpOk 0x3E d
  | .lookasideComplete _ => true
  | .kumInstall _ | .kumDerive _ | .kumInvalidate _ | .kumLcAdvance _ | .kumFirst _ | .lcGraceReset => true
  | .updActivate _ | .updActivateReset _ | .updCancel _ | .updVeto _ | .oemKeySet _ | .roleSwap _ => true
  | .swapPoint | .swapAbort | .swapCondition _ | .twnKick _ | .kickTimeout | .heartbeatTx => true
  | .heartbeatRx _ _ | .heartbeatSilent _ | .takeoverTask | .claimWindow _ | .claimLowRead => true
  | .arbitrationStart | .observeEnd | .graceEnd | .slLack | .slRetransmit | .joinReqRx => true
  | .joinEndRx _ _ _ _ | .syncApply _ | .digestRecomputeDone _ | .syncAckRx _ _ _ => true
  | .commitRecordRx _ _ _ _ _ | .commitAckRx _ _ | .roleAnnounce | .lockstepMismatch _ _ _ => true
  | .taskCommit _ _ | .taskOverrun _ _ | .dpStall _ | .clockFail _ | .faultReport | .coalesce => true
  | .faultRecordWrite => true
  | .sleepEntryStop | .sleepDrainEnd | .sleepCheckpointDone | .suppliesOff => true
  | .wakeTimerExpire | .powerOn | .resetPin | .tamperAssert | .glitchDetect _ | .temperatureLimit => true
  | .updSessionOpen _ _ | .updSessionClose _ _ => true
  | .updWrite d _ _ => updOpOk 1 d
  | .updFinish d => updOpOk 2 d
  | .updAbort d => updOpOk 3 d
  | .relayRecordRx _ _ _ | .relayRetransmit _ | .trialWindowEnd | .supplyRetry => true
  | .claimHighRead | .flashWriteDone _ | .busyhit _ => true
  | .hostLinkUp _ speed width => hostLinkOk speed width

end Sys2Proof
end

