-- ==== Sys2Proof/Decode.lean ====
section
/-!
DEFINITION. The commands that a word spells. No row of spec/opcode_table.json gives bits: the commands of this block
are accesses, frames and events, not words, so no word spells one.
-/
namespace Sys2Proof

/-- No row of the table gives bits. Marks: DESIGN CHOICE (log entry 1). -/
def decodeTableWord (_nbits _w : Nat) : Option Instr := none

end Sys2Proof
end

