-- ==== Sys2Proof/Config.lean ====
section
/-!
DEFINITION. What the spec leaves to an implementation or leaves open, as constants without a body: nothing can be
proved about their values. `free*` constants are applied to the counter `State.free`, which advances with each use, so
that each use is a value of its own. The cryptographic functions are those of the standards that the spec names; the
spec gives no more of them than their names, so they are constants too (notes/assumptions).
-/
namespace Sys2Proof.Config

/-- Whether a rate or an offset that the spec computes by a division that is not exact is rounded up
(log entry 11). Marks: DESIGN CHOICE (log entry 11). -/
opaque roundsUp : Nat → Nat → Bool

/-- A value that the spec leaves open, by use. Marks: DESIGN CHOICE (log entry 12). -/
opaque freeNat : Nat → Nat

/-- A yes or no that the spec leaves open, by use. Marks: DESIGN CHOICE (log entry 12). -/
opaque freeBool : Nat → Bool

/-- A number below 2^256 drawn from the DRBG (R410, R414, R557), by use. -/
opaque drbg : Nat → List Byte

/-- SHA-256 of a byte string. Marks: DESIGN CHOICE (log entry 13). -/
opaque sha256 : List Byte → BitVec 256

/-- SHA-384 of a byte string. -/
opaque sha384 : List Byte → BitVec 384

/-- AES of one block under a key of 16 or 32 bytes. Marks: DESIGN CHOICE (log entry 13). -/
opaque aesBlock : List Byte → BitVec 128 → BitVec 128

/-- AES-CMAC of a byte string under a key. -/
opaque cmac : List Byte → List Byte → BitVec 128

/-- AES-GCM: key, IV, additional data, plaintext; the ciphertext and the 16-byte tag.
Marks: DESIGN CHOICE (log entry 13). -/
opaque gcm : List Byte → List Byte → List Byte → List Byte → List Byte × BitVec 128

/-- AES-GCM decryption without its check: key, IV, ciphertext; the plaintext. -/
opaque gcmPlain : List Byte → List Byte → List Byte → List Byte

/-- AES key wrap under a key; the result is 8 bytes longer. -/
opaque keyWrap : List Byte → List Byte → List Byte

/-- AES key unwrap; none when the integrity check fails. -/
opaque keyUnwrap : List Byte → List Byte → Option (List Byte)

/-- HMAC-SHA-256 under a key. -/
opaque hmac256 : List Byte → List Byte → BitVec 256

/-- HMAC-SHA-384 under a key. -/
opaque hmac384 : List Byte → List Byte → BitVec 384

/-- ECDSA signature of a digest under a private scalar; curve P-384 when true; r ‖ s. The nonce is the signer's. -/
opaque ecdsaSign : Bool → List Byte → List Byte → Nat → List Byte

/-- ECDSA verification: curve, public x ‖ y, digest, r ‖ s. -/
opaque ecdsaVerify : Bool → List Byte → List Byte → List Byte → Bool

/-- ECDH: curve, private scalar, peer x ‖ y; the x coordinate, none for a point that is not on the curve. -/
opaque ecdh : Bool → List Byte → List Byte → Option (List Byte)

/-- Public key x ‖ y of a private scalar: curve, scalar. -/
opaque ecPublic : Bool → List Byte → List Byte

/-- What the PUF cells of this die give at a reading (R418, R420): the number of cells corrected and the secret.
Marks: DESIGN CHOICE (log entry 14). -/
opaque puf : Nat → Nat × List Byte

/-- TWIN_ID strap of this unit (R452): true for Twin B. Marks: DESIGN CHOICE (log entry 14). -/
opaque twinStrap : Bool

/-- The NVM and OTP that this die left the factory with are part of the reset state; this is the highest TSFMT that
the booted MP0 firmware accepts, and the lowest (R553, INFO). Marks: DESIGN CHOICE (log entry 14). -/
opaque tsfmtRange : Nat × Nat

/-- OTP bytes that Renwatal writes before shipment (Table 14-10): UID, ROOT_HASH, HELPER_HASH, DIK_HASH.
Marks: DESIGN CHOICE (log entry 14). -/
opaque otpFactory : Nat → Byte

/-- What the flash holds when the part is shipped, by page of 256 bytes (Table 18-1).
Marks: DESIGN CHOICE (log entry 14). -/
opaque factoryFlash : Nat → List Byte

/-- The check value that the helper-data record holds (R420; the record's layout is not in the spec).
Marks: DESIGN CHOICE (log entry 14). -/
opaque helperCheck : List Byte → List Byte

/-- What MP0 converts a Topsoil image to: the lowest accepted TSFMT, the image; the image without the header fields
that R555 gives, none when the conversion fails. Marks: DESIGN CHOICE (log entry 14). -/
opaque tsConvert : Nat → List Byte → Option (List Byte)

/-- The DIK certificate that Renwatal writes before shipment (R445). Marks: DESIGN CHOICE (log entry 14). -/
opaque factoryCert : List Byte

/-- CCLK count at which a start ends (R531 gives it for the reference bundle and Topsoil only), by use.
Marks: DESIGN CHOICE (log entry 8). -/
opaque startTime : Nat → Nat

/-- Length in cycles of a T1 line's own timing in negotiation, by use (Table 4-4 gives bounds only). -/
opaque lineTime : Nat → Nat

/-- What the payload of a Shell Link ROLE record says: kind (0 SWAP, 1 SWAP_ACK, 2 YIELD, 3 DIGEST_CHECK), point and
TERM. The spec names the payloads of these records and gives no layout (Table 15-3).
Marks: DESIGN CHOICE (log entry 15). -/
opaque slRole : List Byte → Option (Nat × Nat × Nat)

/-- The MKPDU that the payload of an MKA record tunnels, with its port (R416). Marks: DESIGN CHOICE (log entry 15). -/
opaque slMka : List Byte → Option (Nat × List Byte)

/-- The SAK that the payload of an MKA record carries: port, AN, key number, key server, key (R416).
Marks: DESIGN CHOICE (log entry 15). -/
opaque slSak : List Byte → Option (Nat × Nat × Nat × Nat × List Byte)

/-- The answer that the payload of a RELAY record carries: TAG, STATUS, DONE, DETAIL (R556).
Marks: DESIGN CHOICE (log entry 15). -/
opaque slRelayAnswer : List Byte → Option (Nat × Nat × Nat × Nat)

/-- Bytes of payload and of further headers that a record takes on the Shell Link, beyond its own 20 bytes. The spec
names the payloads and gives no layout (Table 15-3). Marks: DESIGN CHOICE (log entry 52). -/
opaque slPayloadLen : SlBody → Nat

/-- Whether a write of a stored key to NVM fails (Table 14-7, NVM_FAIL): nothing constrains it.
Marks: DESIGN CHOICE (log entry 48). -/
opaque nvmFails : Nat → Bool

/-- Renwatal's PCI-SIG vendor ID (R38), whose number the spec does not give. Marks: UNVERIFIED (log entry 78). -/
opaque vendorId : BitVec 16

/-- Gate control entries, table entries and overlay records that the payload of a JOIN record carries (R467).
Marks: DESIGN CHOICE (log entry 15). -/
opaque slJoin : List Byte → List (Nat × Word) × List (Nat × List Byte) × List Overlay

end Sys2Proof.Config
end

