-- ==== Sys2Proof/Machine/Tab.lean ====
section
/-!
DEFINITION. A table by number in one canonical form: the listed keys strictly rise and no listed entry equals what
an unlisted key reads as. Registers, per-port state and every table of the spec are held this way, so that equal
contents are equal data.
-/
namespace Sys2Proof.Machine

/-- Keyed entries, sparse. What an unlisted key reads as is an argument of every operation. -/
abbrev Tab (α : Type) := List (Nat × α)

/-- The entry of key `k`. -/
def Tab.get {α : Type} (d : Nat → α) : Tab α → Nat → α
  | [], k => d k
  | (j, v) :: t, k => if j = k then v else Tab.get d t k

/-- The table without key `k`. -/
def Tab.erase {α : Type} : Tab α → Nat → Tab α
  | [], _ => []
  | (j, v) :: t, k => if j = k then Tab.erase t k else (j, v) :: Tab.erase t k

/-- The table with `v` put at key `k`, at its place in the rising order. -/
def Tab.put {α : Type} : Tab α → Nat → α → Tab α
  | [], k, v => [(k, v)]
  | (j, x) :: t, k, v =>
    if k < j then (k, v) :: (j, x) :: t
    else if j = k then (k, v) :: t
    else (j, x) :: Tab.put t k v

/-- Write entry `k`. Writing what an unlisted key reads as takes the entry out.
Marks: DESIGN CHOICE (log entry 64). -/
def Tab.set {α : Type} [DecidableEq α] (d : Nat → α) (t : Tab α) (k : Nat) (v : α) : Tab α :=
  if v = d k then Tab.erase t k else Tab.put t k v

/-- Change entry `k` by a function. -/
def Tab.modify {α : Type} [DecidableEq α] (d : Nat → α) (t : Tab α) (k : Nat) (f : α → α) : Tab α :=
  Tab.set d t k (f (Tab.get d t k))

/-- The keys rise strictly above a bound and no entry equals what its key reads as unlisted. -/
def Tab.wfAbove {α : Type} [DecidableEq α] (d : Nat → α) : Option Nat → Tab α → Bool
  | _, [] => true
  | lo, (j, v) :: t =>
    (match lo with
     | none => true
     | some b => decide (b < j)) && decide (v ≠ d j) && Tab.wfAbove d (some j) t

/-- The canonical form. -/
def Tab.wf {α : Type} [DecidableEq α] (d : Nat → α) (t : Tab α) : Bool := Tab.wfAbove d none t

end Sys2Proof.Machine
end

