-- ==== Sys2Proof/Parts/Time.lean ====
section
/-!
DEFINITION. State of the two gPTP domains and of the per-port link measurement (spec/12).
-/
namespace Sys2Proof

/-- Domain states (Table 12-1). -/
inductive PtpState where
  | free | acquire | locked | holdover
deriving DecidableEq, Repr

/-- gPTP messages that EGS edits or whose egress time MP1 needs. -/
inductive PtpKind where
  | sync | pdelayReq | pdelayResp
deriving DecidableEq, Repr

/-- What EGS and MP1 do with a gPTP event message that this unit sends (R373, R376 to R380). A timestamp, with delays that
are given in ps, is in units of 2^-16 ps; a correction is in units of 2^-16 ns. -/
structure PtpEdit where
  kind : PtpKind := .sync
  dom : Nat
  /-- originated as grandmaster (R380) -/
  orig : Bool := false
  oneStep : Bool := true
  /-- sequenceId of the message, and of the received message that it answers or relays -/
  seq : Nat := 0
  rxSeq : Nat := 0
  /-- ingress time of the received Sync, in units of 2^-16 ps -/
  tIn : Int := 0
  /-- received correction, and mean link delay plus asymmetry of the slave port, that in units of 2^-16 ps -/
  corr : Int := 0
  add : Int := 0
  /-- cumulativeScaledRateOffset to send -/
  rate : Int := 0
  /-- origin time, gmTimeBaseIndicator and the rest of the information TLV -/
  origin : Nat := 0
  gmtbi : Nat := 0
  tlv : Nat := 0
  /-- what the received Sync's Follow_Up carries is known -/
  known : Bool := true
  /-- requestingPortIdentity of a Pdelay_Req (R373) -/
  peer : Nat := 0
deriving DecidableEq, Repr

/-- One domain clock (R369) and what MP1 keeps for it. -/
structure Domain where
  state : PtpState := .free
  /-- time since the epoch in units of 2^-48 ns (48-bit seconds, 32-bit nanoseconds, 48-bit fraction) -/
  time : Nat := 0
  /-- the times that the domain showed in the cycles before this one (R112), in spans as the Phase Base's -/
  trail : List (Nat × Nat × Nat) := []
  /-- ADJ in effect, 2^-32 ns per cycle -/
  adj : Int := 0
  /-- last offset, 2^-16 ns -/
  ofs : Int := 0
  runIn : Nat := 0
  runOut : Nat := 0
  /-- CCLK count of the last accepted Sync -/
  lastSync : Option Nat := none
  /-- CCLK count of the entry to HOLDOVER -/
  holdAt : Option Nat := none
  gmtbi : Nat := 0
  /-- a two-step Sync waiting for its Follow_Up: ingress time (2^-16 ps), cycle, sequenceId -/
  waitFu : Option (Int × Nat × Nat) := none
  /-- slave port in effect -/
  slave : Nat := 0
  /-- CCLK count of the last Sync originated (R380) -/
  origAt : Option Nat := none
  /-- relayed or originated two-step Syncs whose Follow_Up is to be sent: port, egress time, the Sync -/
  fuDue : List (Nat × Int × PtpEdit) := []
deriving DecidableEq, Repr

/-- Peer-delay state of one port (R373, R374). -/
structure Pdelay where
  asCap : Bool := false
  lost : Nat := 0
  /-- sequenceId of the outstanding request, and its egress time t1 in 2^-16 ps once it has left -/
  asked : Option Nat := none
  t1 : Option Int := none
  /-- t3 (2^-16 ns) and t4 (2^-16 ps) of the previous complete exchange -/
  prev : Option (Nat × Int) := none
  /-- last mean link delay, 2^-16 ns -/
  mld : Int := 0
  /-- (neighborRateRatio - 1) x 2^41 -/
  nrr : Int := 0
  /-- CCLK count of the last request sent -/
  reqAt : Option Nat := none
deriving DecidableEq, Repr

/-- The PTP engine. -/
structure Ptp where
  dom : List (Nat × Domain) := []
  port : List (Nat × Pdelay) := []
  /-- sequenceId counters (R368): port x 32 + domain x 16 + message type -/
  seqs : List (Nat × Nat) := []
deriving DecidableEq, Repr

end Sys2Proof
end

