-- ==== Sys2Proof/Parts/Frame.lean ====
section
/-!
DEFINITION. A frame on the data path, from the cycle its first bit is taken in to the removal of its last copy
(spec/04 to spec/09), with the states it passes: received, parsed, looked up, decided, stored and queued.
-/
namespace Sys2Proof

/-- Where a frame stands. -/
inductive FrameStage where
  /-- no frame -/
  | gone
  /-- taken in, waiting for byte 63 to reach PRS and be dispatched -/
  | received
  /-- dispatched, no processor was free (R152) -/
  | waitProc
  /-- parked until byte `need` has entered PRS (R155) -/
  | parked (need : Nat)
  /-- parsed -/
  | parsed
  /-- looked up: the forwarding set is formed -/
  | looked
  /-- decided by FW and SFP: the final set is at cell write -/
  | decided
deriving DecidableEq, Repr

/-- A frame. Bytes are those that enter PRS; for an external port they end with the FCS. -/
structure Frame where
  stage : FrameStage := .gone
  /-- ingress logical port, 0 to 51 -/
  port : Nat := 0
  bytes : List Byte := []
  /-- the bytes end with an FCS -/
  hasFcs : Bool := true
  /-- cycle of R23, sub-cycle position in steps of 250 ps (R139), and Phase Base position at that cycle -/
  rx : Nat := 0
  sub : Nat := 0
  pos : Pos := 0
  /-- cycles since the boundary of its PB cycle (R229) -/
  sinceCycle : Nat := 0
  /-- timestamp cycle, which differs from `rx` for a reassembled preemptable frame (R136) -/
  tsCycle : Nat := 0
  /-- receive delay that the ingress timestamp removes, in ps (R138) -/
  lat : Nat := 0
  /-- ingress rate in Mb/s -/
  mbps : Nat := 0
  tc : Nat := 0
  /-- bus channels whose messages a GWE frame carries; 32 stands for a source that is no bus channel (R217) -/
  busSrc : List Nat := []
  /-- the one egress port that MP1 names for a frame it sources (R368) -/
  named : Option Nat := none
  /-- ended with a bad FCS, RX_ABORT, oversize, ICV failure or a late MALFORMED drop -/
  err : Bool := false
  stomped : Bool := false
  macsecRx : Bool := false
  icvFail : Bool := false
  /-- the ingress port's SecY was enabled: the receive adder of Table 1-5 applies -/
  secOn : Bool := false
  /-- SecTAG bytes of a protected frame, which crossed the MII behind its addresses (R394) -/
  tag : Nat := 0
  /-- bytes of a protected frame as it crossed the MII, FCS included (R392) -/
  lineLen : Nat := 0
  /-- cycles by which parity replays delay the frame, at most 32 in all (R26) -/
  replay : Nat := 0
  /-- counted in `FLT_CNT_REPLAY_DELAY` -/
  replayed : Bool := false
  dispatchAt : Nat := 0
  epoch : Nat := 0
  proc : Option Nat := none
  /-- the key builder is to meet a parity error in the result vector (R175) -/
  rvErr : Bool := false
  /-- cycles by which the keys leave later: the wait for a processor and parity replays (R152, R26) -/
  wait : Nat := 0
  parse : Parse := {}
  /-- header steps already run -/
  stepsDone : Nat := 0
  /-- a late MALFORMED is still to be sent to policy -/
  latePending : Bool := false
  /-- policy has been told of a late MALFORMED (R227) -/
  lateMal : Bool := false
  /-- cycle in which the keys are handed to the pipeline -/
  keysAt : Nat := 0
  /-- the result vector has been released to the key builder (R153) -/
  released : Bool := false
  vid : Nat := 0
  /-- forwarding set, bit p = port p -/
  set : Nat := 0
  /-- ports on which TAG0 is removed (R179) -/
  untag : Nat := 0
  handle : Option Nat := none
  /-- sequence number of the R-TAG that EGS inserts (R209) -/
  seqTag : Option Nat := none
  /-- the pipeline or policy dropped the frame -/
  dropped : Bool := false
  /-- what the receive header reports as REASON -/
  reason : Nat := 0
  /-- TC of each copy whose rule names one: port and TC (R222) -/
  copyTc : List (Nat × Nat) := []
  decidedAt : Nat := 0
  lookedAt : Nat := 0
  /-- ready slots of the halves, half 0 first (STAMP) -/
  stamps : List Nat := []
  /-- copies of the frame have been admitted or refused (R242) -/
  admitted : Bool := false
  /-- SCHED of the frame's halves, as the copies were decided (R265) -/
  sched : Bool := false
  cutThrough : Bool := false
  /-- TX ring frame: host B, ring -/
  txRing : Option (Bool × Nat) := none
  /-- a Sync that the PTP engine built -/
  ptp : Option PtpEdit := none
deriving DecidableEq, Repr

/-- A copy: one egress port's share of a frame, in an egress queue (spec/08). -/
structure Copy where
  frame : Nat
  ct : Bool
  /-- slot in which it was opened -/
  open_ : Option Nat := none
  /-- halves charged to the queue's reservation, the port's and the shared pool (R257) -/
  chQ : Nat := 0
  chP : Nat := 0
  chS : Nat := 0
  /-- halves carried through stage 2: half, slot, PERR -/
  carried : List (Nat × Nat × Bool) := []
  /-- halves released to EGS -/
  released : List Nat := []
  /-- slot before which no later half is released (R250) -/
  notBefore : Nat := 0
  /-- selected or in transmission -/
  busy : Bool := false
  /-- a flush of its port removes it (R261) -/
  flush : Bool := false
  /-- its queue was disabled while it waited (R269) -/
  off : Bool := false
deriving DecidableEq, Repr

/-- A half that waits at an input link (R244). -/
structure WaitHalf where
  frame : Nat
  half : Nat
  stamp : Nat
  sched : Bool
  port : Nat
  group : Nat
  lone : Bool
  /-- has waited LONE_WAIT slots -/
  alone : Bool := false
deriving DecidableEq, Repr

/-- A half stored in a bank side, and the egress ports that have still to carry it. -/
structure StoredHalf where
  frame : Nat
  half : Nat
  bank : Nat
  side : Bool
  /-- slot in which it was written -/
  slot : Nat
  need : List Nat
  sched : Bool
deriving DecidableEq, Repr

/-- A frame that an internal port sources and that waits for the port's pacer (R243), from cycle `at_` on. -/
structure EntryWait where
  at_ : Nat
  frame : Frame
deriving DecidableEq, Repr

/-- BUF and FAB (spec/08). -/
structure Fabric where
  /-- cycle from which the pacer of an internal port lets its next frame enter (R15, R243) -/
  entryFree : List (Nat × Nat) := []
  /-- frames of ports 50 and 51 that wait to enter, in the order sourced -/
  entryQ : List EntryWait := []
  waiting : List WaitHalf := []
  stored : List StoredHalf := []
  /-- copies of queue 8 * port + q, oldest first -/
  queues : List (Nat × List Copy) := []
  /-- last slot, plus 1, in which a group's input link wrote; key is the group -/
  linkSlot : List (Nat × Nat) := []
  /-- last slot, plus 1, in which an output group read -/
  readSlot : List (Nat × Nat) := []
  /-- ports being flushed, bit p, and the cycle from which a port's flush has no copy left to remove, plus 1 -/
  flushing : Nat := 0
  flushAt : List (Nat × Nat) := []
  ready : Bool := false
  /-- new copies are refused: a sleep entry is past its stop (Table 17-3) -/
  stopped : Bool := false
deriving DecidableEq, Repr

/-- A transmission on a port's line. -/
structure TxRun where
  frame : Nat
  q : Nat
  /-- cycle F of its first byte to the MAC -/
  start : Nat
  /-- cycle in which the line is free again -/
  endAt : Nat
  /-- bytes as they leave the port, FCS included -/
  bytes : List Byte
  preemptable : Bool
  /-- bytes already sent in earlier fragments -/
  sent : Nat := 0
  frags : Nat := 0
  /-- ended with an inverted FCS, or by an error control character -/
  stomp : Bool := false
  /-- frame bytes after which the MAC ends the current fragment and suspends the frame (R294) -/
  suspendAt : Option Nat := none
  /-- counted length B that the start charges (R268, R278) -/
  charge : Nat := 0
  /-- counted as a window overrun (R296) -/
  overrun : Bool := false
  /-- deficit that the selection took (R276), with effect from F -/
  dwrr : Nat := 0
  /-- the pipes' comparison that the frame meets (R405) -/
  cmp : PipeCmp := .agree
  /-- bytes that the edits put in front of the stored bytes behind the addresses, less those that they take out -/
  ahead : Int := 0
deriving DecidableEq, Repr

/-- EGS of one fabric port (spec/09). Levels are in units of 2^-24 byte or bit. -/
structure EgsPort where
  /-- token bucket levels by queue; queue 8 is the port bucket -/
  level : List (Nat × Int) := []
  credit : List (Nat × Int) := []
  /-- cycle up to which each credit has been brought forward -/
  creditAt : List (Nat × Nat) := []
  deficit : List (Nat × Nat) := []
  /-- DWRR queue served last -/
  lastDwrr : Nat := 7
  /-- list in effect: BASE and LEN -/
  base : Nat := 0
  len : Nat := 0
  /-- a committed list that takes effect at the next list boundary (R288) -/
  install : Option (Nat × Nat) := none
  /-- entry in effect, relative to BASE; its begin cycle and position -/
  entry : Nat := 0
  entryAt : Nat := 0
  entryPos : Pos := 0
  gates : Nat := 0xFF
  hold : Bool := false
  tx : Option TxRun := none
  /-- copies selected for starts F to come, the earliest first (R272) -/
  sel : List TxRun := []
  /-- shaper settings that a commit has replaced, which act until the next refill (R280): offset and value -/
  old : List (Nat × Word) := []
  /-- cycle since which an eligible queue has waited at a free line (R499) -/
  stallAt : Option Nat := none
  /-- an express frame that interrupts a suspended preemptable frame keeps it here -/
  susp : Option TxRun := none
  /-- copies already counted in NOFIT -/
  nofit : List Nat := []
  down : Bool := true
  /-- TC10 negotiation holds selection (Table 4-4) -/
  held : Bool := false
  admitted : List (Nat × Nat) := []
deriving DecidableEq, Repr

/-- All of EGS. -/
structure Egress where
  port : List (Nat × EgsPort) := []
  /-- gate control entries: 1024 x port + index -/
  gcl : List (Nat × Word) := []
  /-- last value of the device-wide admission counter (R298) -/
  seq : Nat := 0
  /-- cycle in which the position last reached a port's list boundary -/
  boundAt : List (Nat × Nat) := []
  /-- last refill cycle, plus 1 -/
  refillAt : Nat := 0
deriving DecidableEq, Repr

end Sys2Proof
end

