-- ==== Sys2Proof/Parts/Host.lean ====
section
/-!
DEFINITION. State of the host side (spec/02): pending shadows, armed commits, DMA rings, MSI-X, the mailbox order
and the Silt Log. Register values themselves are in the register file of State.
-/
namespace Sys2Proof

/-- One pending shadow of an RWS register (R53). -/
structure Shadow where
  off : Nat
  val : Word
  writer : Master
deriving DecidableEq, Repr

/-- When an armed commit is applied (R55, R592): at a CCLK count, or at the sync point of a number. -/
inductive CommitPoint where
  | cycle (n : Nat)
  | sync (num : Nat)
deriving DecidableEq, Repr

/-- What one GO took into a commit (R55, R58). -/
structure CommitPart where
  /-- number that overlay records of the part carry -/
  id : Nat
  writer : Master
  tag : Nat
  goAt : Nat
  vals : List Shadow
  /-- MP0's checks of the part have ended -/
  checked : Bool := false
deriving DecidableEq, Repr

/-- An outstanding commit: the GO that armed it first, then the GOs that joined it. -/
structure Commit where
  point : CommitPoint
  parts : List CommitPart
  /-- staged on a standby from the active's COMMIT record (R469) -/
  fromTwin : Bool := false
  /-- the active's commit record number, for COMMIT_ACK -/
  acked : Bool := false
deriving DecidableEq, Repr

/-- A TX frame taken from a ring and not yet completed (R64, R65). -/
structure TxFrame where
  descs : List TxDesc
  bytes : List Byte
  /-- not yet entered: it waits for its launch position, behind a frame of its TC, or for the port's pacer -/
  waiting : Bool
  /-- cycle in which it was taken -/
  took : Nat := 0
  /-- its launch position was ahead when it came first of its TC -/
  early : Bool := false
  /-- number of the frame in the data path, once entered -/
  frame : Option Nat
  /-- the policy decision has been made: true when lookup, FW or SFP dropped the frame (R66) -/
  verdict : Option Bool := none
  /-- seconds and nanoseconds at PRS entry, in the domain of `PTP_CFG.HOST_DOMAIN` -/
  sec : Nat := 0
  ns : Nat := 0
  /-- cycle in which the last byte has entered PRS -/
  lastAt : Nat := 0
  /-- classification epoch and frame flags, known with the verdict -/
  epoch : Nat := 0
  flags : Nat := 0
deriving DecidableEq, Repr

/-- A frame that egress port 48 or 49 has delivered and that waits for DMA (R67). -/
structure RxWait where
  /-- cycle of the delivery -/
  at_ : Nat
  tc : Nat
  bytes : List Byte
  frame : Frame
deriving DecidableEq, Repr

/-- What a ring keeps beside its registers (R62 to R72). -/
structure RingRun where
  /-- frames taken and not completed, in the order taken -/
  flight : List TxFrame := []
  /-- descriptors taken and not started -/
  taken : List Nat := []
  /-- completions written since the last interrupt message -/
  count : Nat := 0
  /-- CCLK count at which the coalescing timer expires -/
  timer : Option Nat := none
  /-- the ring is to raise its vector -/
  due : Bool := false
  /-- completions written since enable -/
  written : Nat := 0
  /-- RX rings: frames that the port has delivered and that wait for DMA (R67) -/
  rxWait : List RxWait := []
  /-- disabled, still completing -/
  draining : Bool := false
deriving DecidableEq, Repr

/-- What the interrupts of this CCLK cycle have done: pages that have sent their message (R587), and the IRQ_RAW bits
that events have set, by page (R565). -/
structure IrqCycle where
  pages : List Nat := []
  bits : List (Nat × Word) := []
deriving DecidableEq, Repr

/-- MSI-X state of one host port (BAR4): the message address and data words of the table, four words per vector with
the vector control word left to `masked`, and one mask bit and one pending bit per vector. -/
structure Msix where
  table : List (Nat × Word) := []
  masked : BitVec 64 := BitVec.allOnes 64
  pend : BitVec 64 := 0
deriving DecidableEq, Repr

/-- One entry of the Silt Log (Table 2-15). -/
structure SiltEntry where
  seq : Nat
  cycle : Nat
  phase : Nat
  gap : Bool
  damaged : Bool := false
  cp : Bool := false
  ptpSec : Nat
  ptpNs : Nat
  old : Word
  new : Word
  origin : Nat
  kind : Nat
  sub : Nat
  addr : Nat
  link : Nat
deriving DecidableEq, Repr

/-- One checkpoint record (Table 2-16). -/
structure Checkpoint where
  seqLast : Nat
  bootCnt : Nat
  count : Nat
  chain : BitVec 256
  sig : BitVec 512
deriving DecidableEq, Repr

/-- The Silt Log (R75 to R81). SILT_WR_SEQ, SILT_FREE_SEQ, ACKs and counters are registers. -/
structure Silt where
  /-- entries by slot, SEQ mod 16384 -/
  entries : List (Nat × SiltEntry) := []
  /-- chain value C of the next entry (R76) -/
  chain : BitVec 256 := 0
  /-- checkpoint records by slot -/
  records : List (Nat × Checkpoint) := []
  /-- entries whose SEQ mod 256 = 255 and whose checkpoint record is still to be written, oldest first: SEQ, and the
  chain value after the entry (R77) -/
  due : List (Nat × BitVec 256) := []
deriving DecidableEq, Repr

end Sys2Proof
end

