-- ==== Sys2Proof/Machine/SiltFormat.lean ====
section
/-!
DEFINITION. The bytes of a Silt Log entry (Table 2-15), the start of its chain (R76), and reads of the OTP (Table
14-10), which the chain starts from.
-/
namespace Sys2Proof.Machine
open Sys2Proof

/-- Bytes of a 256-bit value, first byte first. -/
def bytes256 (v : BitVec 256) : List Byte := beBytes 32 v.toNat

/-- An OTP byte: the fields of Table 14-10 that Renwatal writes before shipment, and the bits programmed since. -/
def otpByte (n : Nvm) (i : Nat) : Byte :=
  (if i < 0x40 ∨ (0x48 ≤ i ∧ i < 0x88) then Config.otpFactory i else 0) ||| Tab.get (fun _ => 0) n.otp i

/-- UID, 16 bytes (Table 14-10). -/
def uidBytes (n : Nvm) : List Byte := (List.range 16).map (otpByte n)

/-- Table 2-15: an entry as 32 bytes, with DAMAGED and CP as given. -/
def siltBytes (e : SiltEntry) (dmg cp : Bool) : List Byte :=
  leBytes 4 e.seq ++ leBytes 4 e.cycle
  ++ leBytes 2 ((e.phase / 2 ^ 20) * 16 + b2n e.gap + 2 * b2n dmg + 4 * b2n cp)
  ++ leBytes 2 e.ptpSec ++ leBytes 4 e.ptpNs ++ leBytes 4 e.old.toNat ++ leBytes 4 e.new.toNat
  ++ leBytes 4 (e.origin * 2 ^ 28 + e.kind * 2 ^ 24 + (e.sub % 32) * 2 ^ 19 + e.addr % 2 ^ 19)
  ++ leBytes 4 e.link

/-- R76: C_0. Marks: DEDUCED (log entry 26). -/
def siltC0 (n : Nvm) (boot : Nat) : BitVec 256 :=
  Config.sha256 ([0x53, 0x49, 0x4C, 0x54].map b8 ++ uidBytes n ++ leBytes 4 boot)

/-- LINK: bytes 0-3 of a chain value, as the little-endian number that holds them. -/
def linkOf (c : BitVec 256) : Nat := leNat ((bytes256 c).take 4)

/-- R76: the chain value after an entry, which is hashed with DAMAGED = 0 and CP = 0. -/
def chainNext (c : BitVec 256) (e : SiltEntry) : BitVec 256 := Config.sha256 (bytes256 c ++ siltBytes e false false)

/-- R76: entry 0, kind BOOT, origin HW. Marks: DESIGN CHOICE (log entry 70). -/
def bootEntry (n : Nvm) (boot : Nat) : SiltEntry :=
  { seq := 0, cycle := 0, phase := 0, gap := false, ptpSec := 0, ptpNs := 0, old := 0, new := w32 boot,
    origin := 8, kind := 9, sub := 0, addr := 0, link := linkOf (siltC0 n boot) }

/-- R76: the log as a start leaves it, with entry 0 written. -/
def bootSilt (n : Nvm) (boot : Nat) : Silt :=
  { entries := [(0, bootEntry n boot)], chain := chainNext (siltC0 n boot) (bootEntry n boot) }

end Sys2Proof.Machine
end

