-- ==== Sys2Proof/Parts/Phase.lean ====
section
/-!
DEFINITION. State of the Phase Base and of the pulse, capture, encoder and tick pins (spec/03).
-/
namespace Sys2Proof

/-- Tracker states (Table 3-2). -/
inductive PbTrack where
  | unlocked | acquire | locked | holdover | standstill
deriving DecidableEq, Repr

/-- The Phase Base (R82 to R107). -/
structure PhaseBase where
  state : PbTrack := .unlocked
  /-- source and input in effect: 0 NETTIME, 1 TICK, 2 ANGLE, 3 HOLD -/
  src : Nat := 0
  sel : Bool := false
  /-- position with 24 fraction bits below it (R82, R83) -/
  acc : BitVec 88 := 0
  /-- RATE in effect, 32.24 phase units per cycle -/
  rate : Nat := 0
  /-- rates computed and the cycles from which they apply, the earliest first (R95) -/
  rates : List (Nat × Nat) := []
  /-- a rate has been in effect since reset (R94) -/
  everRate : Bool := false
  step : Bool := false
  /-- ANGLE: no forward count has come since the load or STANDSTILL (R97) -/
  fresh : Bool := false
  reverse : Bool := false
  join : Bool := false
  /-- during a join: the new reference has marked a cycle start -/
  joinMark : Bool := false
  /-- the cycle that ends next was stretched by a join (R103) -/
  stretched : Bool := false
  /-- last reference event: compensated cycle and reference position -/
  lastT : Option Nat := none
  lastP : Pos := 0
  /-- measured rates, newest first, 32.24 -/
  hist : List Nat := []
  /-- consecutive events inside (true) or outside the lock tolerance -/
  runIn : Nat := 0
  runOut : Nat := 0
  /-- ANGLE: the position may not pass this one (R89, R92) -/
  clamp : Option Pos := none
  /-- counts by which the shaft stands behind the frozen count (R93) -/
  behind : Nat := 0
  /-- TICK: coming cycles whose boundaries ticks have marked (R99) -/
  marks : List Nat := []
  /-- CCLK count of the last sync point -/
  syncAt : Option Nat := none
  /-- CCLK count of the initial load or of the entry to HOLDOVER under HOLD (R105) -/
  origin : Nat := 0
  /-- CCLK count of the last cycle boundary -/
  cycleAt : Nat := 0
  /-- the positions with their fraction in the cycles before this one (R110: an input edge is recorded at the cycle that
  samples it): spans of equal steps, newest first: first cycle, value in it, step per cycle -/
  trail : List (Nat × Nat × Nat) := []
  /-- TICK: a boundary crossed at this cycle, whose tick may still be in its filter (R99) -/
  unmarked : Option Nat := none
  /-- cycles by which CYCLE runs ahead of the NETTIME reference's own count after a join or a load (R101, R102) -/
  cycOfs : Nat := 0
deriving DecidableEq, Repr

/-- One encoder (R89 to R93). -/
structure Encoder where
  count : Nat := 0
  /-- a Z edge has been accepted since reset -/
  sawZ : Bool := false
  lastAt : Option Nat := none
deriving DecidableEq, Repr

/-- One capture entry (R112). -/
structure CapEntry where
  sec : Nat
  ns : Nat
  pos : Pos
  rising : Bool
deriving DecidableEq, Repr

/-- One capture input. -/
structure Capture where
  fifo : List CapEntry := []
  ovf : Bool := false
deriving DecidableEq, Repr

/-- An armed pulse (R114, R115): where it fires, on the 64-bit scale of its base. -/
structure PulseArm where
  at_ : Nat
  late : Bool
  /-- period, as the registers held it at the ARM write -/
  per : Nat
  /-- CCLK count of the ARM write -/
  armedAt : Nat
deriving DecidableEq, Repr

/-- One pulse output. -/
structure Pulse where
  armed : Option PulseArm := none
  /-- LATE of the last firing -/
  late : Bool := false
  /-- active until this CCLK count -/
  until_ : Option Nat := none
deriving DecidableEq, Repr

/-- The GPIO pins. -/
structure Gpio where
  enc : List (Nat × Encoder) := []
  /-- last accepted tick of each input -/
  tick : List (Nat × Option Nat) := []
  cap : List (Nat × Capture) := []
  ppo : List (Nat × Pulse) := []
deriving DecidableEq, Repr

end Sys2Proof
end

