-- ==== Sys2Proof/Parts/Ports.lean ====
section
/-!
DEFINITION. State of the Ethernet ports, T1 PHYs and MDIO masters (spec/04). Status registers that software reads
are computed from it or are in the register file.
-/
namespace Sys2Proof

/-- Link states (Table 4-2). -/
inductive LinkState where
  | disabled | train | up | sleep
deriving DecidableEq, Repr

/-- Verification of preemption (`MAC_MM_STAT.VERIFY`). -/
inductive MmVerify where
  | disabled | initial | verifying | succeeded | failed
deriving DecidableEq, Repr

/-- A preemptable frame being reassembled (R136). -/
structure MmPartial where
  frameNo : Nat
  /-- number that the next continuation must carry -/
  nextFrag : Nat
  bytes : List Byte
  /-- cycle, sub-cycle position and phase of the first bit of the first fragment, and the cycles since its cycle boundary -/
  startAt : Nat
  sub : Nat := 0
  pos : Pos := 0
  sinceCycle : Nat := 0
deriving DecidableEq, Repr

/-- A frame that is crossing the MII boundary inward: its last cycle, plus 1, and what it has counted: the counter of
Table 4-7 and the octets. -/
structure RxRun where
  endAt : Nat
  counter : Nat
  octets : Nat
deriving DecidableEq, Repr

/-- One Ethernet port. -/
structure MacPort where
  link : LinkState := .disabled
  /-- mode and FEC in effect or being tried -/
  mode : Nat := 0
  fec : Nat := 0
  inAlt : Bool := false
  /-- loss conditions present on the line -/
  loss : List LossKind := [.signal]
  /-- a loss condition has held on an UP port since this CCLK count -/
  lossSince : Option Nat := none
  /-- no loss condition on a training port since this CCLK count -/
  goodSince : Option Nat := none
  /-- when the dwell in MODE or ALT ends (R121) -/
  dwellEnd : Option Nat := none
  verify : MmVerify := .disabled
  verifyTries : Nat := 0
  verifyEnd : Option Nat := none
  partial_ : Option MmPartial := none
  /-- sub-cycle transmit position of the lane, steps of 250 ps (R378) -/
  txSub : Nat := 0
  /-- CCLK count of an exit from UP whose link-down actions are under way (Table 4-3) -/
  downAt : Option Nat := none
  /-- frames that are crossing the MII boundary inward -/
  rxRuns : List RxRun := []
deriving DecidableEq, Repr

/-- TC10 states (Table 4-4). -/
inductive Tc10 where
  | normal | sleepNeg | sleep | wake
deriving DecidableEq, Repr

/-- One T1 PHY. -/
structure Tphy where
  tc10 : Tc10 := .normal
  role : Bool := false
  diagBusy : Bool := false
deriving DecidableEq, Repr

/-- The frame that an MDIO master is sending (R144). -/
structure MdioOp where
  op : Nat
  phy : Nat
  reg : Nat
  addr : Nat
  data : Nat
  endAt : Nat
deriving DecidableEq, Repr

/-- All ports. -/
structure Ports where
  mac : List (Nat × MacPort) := []
  tphy : List (Nat × Tphy) := []
  mdio : List (Nat × Option MdioOp) := []
deriving DecidableEq, Repr

end Sys2Proof
end

