-- ==== Sys2Proof/Parts/Power.lean ====
section
/-!
DEFINITION. State of the mode logic, sleep entry, wake and start (spec/17).
-/
namespace Sys2Proof

/-- The stages of a sleep entry (Table 17-3). -/
inductive EntryStage where
  | responded | stopped | drained | asleep
deriving DecidableEq, Repr

/-- A sleep entry in progress. -/
structure SleepEntry where
  deep : Bool
  /-- CCLK count of the response OK -/
  at_ : Nat
  stage : EntryStage
  by_ : Nat
deriving DecidableEq, Repr

/-- Modes, sleep and start. -/
structure Power where
  entry : Option SleepEntry := none
  lastDeep : Bool := false
  topsoilBusy : Bool := false
  runWait : Bool := false
  /-- 0 Topsoil A, 1 Topsoil B, 2 Bedrock -/
  cfgSrc : Nat := 2
  bootErr : Nat := 0
  /-- mode held at sleep entry -/
  before : Mode := .configure
  /-- switched supplies are on -/
  supplies : Bool := true
  /-- PWR_RET_EN and PWR_MAIN_EN (R571) -/
  retEn : Bool := true
  mainEn : Bool := true
  /-- nanoseconds since the supplies went off, as the 25 MHz sleep counter counts them in SLEEP-RETAIN, and the AON
  timer in SLEEP-DEEP -/
  sleptNs : Nat := 0
  /-- a wake latched during entry (R524) -/
  late : Bool := false
  /-- CCLK count at release of reset or wake, for PWR_READY_US -/
  startAt : Nat := 0
  /-- Topsoil has been applied, or RUN accepted (R534) -/
  configured : Bool := false
  /-- no takeover before this CCLK count (R529) -/
  noTakeoverUntil : Nat := 0
  /-- a start check that failed, while the unit is in BOOT (Table 17-6) -/
  failed : Option Nat := none
  /-- steps of the supply sequencing that were begun again since the supplies went off (R571) -/
  retries : Nat := 0
  /-- CCLK count of the wake advance while rows of Table 17-5 remain, and how many have been done -/
  wakeAt : Option Nat := none
  wakeRow : Nat := 0
deriving DecidableEq, Repr

end Sys2Proof
end

