-- ==== Sys2Proof/Machine/State.lean ====
section
/-!
DEFINITION. The state of the HX48, the reasons a command can stop, and the machine right after reset. A register of
the page map stands in `regs` under its BAR0 offset; an unlisted one holds its Bedrock value (R11), which
`Machine/RegMap.lean` gives. Every table held by number is sparse: an unlisted entry holds its reset value.
-/
namespace Sys2Proof.Machine
open Sys2Proof

/-- What leaves the part: messages and writes to a host, values that a read returns, and what goes out on a line. -/
inductive Out where
  /-- an MSI-X message (R587, R71) -/
  | msix (h : HostPort) (vec : Nat)
  /-- bytes written to host memory -/
  | hostWrite (h : HostPort) (addr : Nat) (bytes : List Byte)
  /-- the value that a read returned to a master -/
  | read (m : Master) (addr : Nat) (val : Word)
  /-- a frame or mPacket on the line of a port, and whether it was stomped -/
  | line (port : Nat) (bytes : List Byte) (stomped : Bool)
  /-- a message on a CAN bus -/
  | can (n : Nat) (msg : CanMsg)
  /-- bytes on a LIN bus: a header, a response, or both -/
  | lin (n : Nat) (bytes : List Byte)
  /-- a dominant pulse on a LIN bus (R338) -/
  | linWake (n : Nat)
  /-- a pulse output goes active -/
  | pulse (n : Nat)
  /-- an XL frame's data phase with the transceiver of channel `n` in FAST TX or FAST RX mode: PWMS, PWML, PWMO -/
  | canFast (n : Nat) (tx : Bool) (pwms pwml pwmo : Nat)
  /-- TC10 signals on a T1 line: 0 LPS, 1 WUP, 2 WUR, 3 SLEEP handshake, 4 reject -/
  | tc10 (n : Nat) (sig : Nat)
  /-- the SGMII control word of a port: speed in Mb/s, full duplex, link up (R118) -/
  | sgmii (port mbps : Nat) (full up : Bool)
  /-- an MDIO frame: master, opcode, PHY, register, data -/
  | mdio (m op phy reg data : Nat)
  /-- a Shell Link record, and the lane that it takes -/
  | sl (lane : Nat) (r : SlRec)
  /-- a heartbeat pulse on TWIN_HB_OUT -/
  | heartbeat
deriving DecidableEq, Repr

/-- The state of the block. Every field's default is its value right after reset. -/
structure State where
  /-- commands that wait, first in, first out -/
  pending : List Instr := []
  /-- CCLK cycles since release of reset (R18) -/
  cclk : Nat := 0
  /-- operating mode (R28) -/
  mode : Mode := .boot
  /-- register values by BAR0 offset (R561) -/
  regs : List (Nat × Word) := []
  /-- latched `_HI` halves (R9): master ID x 2^26 + offset of the `_HI` half -/
  latched : List (Nat × Option Word) := []
  /-- held `_HI` writes (R9), same key -/
  held : List (Nat × Option Word) := []
  /-- HIFA_CTRL and HIFB_CTRL have had MP0's first write (R41) -/
  ctrlLockA : Bool := false
  ctrlLockB : Bool := false
  /-- pending shadows that no armed commit holds, in the order written (R53) -/
  shadows : List Shadow := []
  /-- outstanding commits, earliest point first (R58) -/
  commits : List Commit := []
  /-- number of the last commit part formed -/
  partNo : Nat := 0
  /-- values that the last 16 commits replaced, newest commit first: the epoch before the commit, then offset and
  value before it (R173, R195, R215) -/
  hist : List (Nat × List (Nat × Word)) := []
  /-- DMA, lookaside, TUE and UPD rings, by `ringKey` -/
  rings : List (Nat × RingRun) := []
  msixA : Msix := {}
  msixB : Msix := {}
  /-- hosts whose mailbox request waits, in doorbell order (R74) -/
  mbx : List HostPort := []
  silt : Silt := bootSilt {} 0
  /-- interrupts of this cycle (R587, R565) -/
  msgPages : IrqCycle := {}
  pb : PhaseBase := {}
  gpio : Gpio := {}
  ports : Ports := {}
  ptp : Ptp := {}
  power : Power := {}
  prs : ParsePool := {}
  tables : Tables := {}
  policing : Policing := {}
  frames : List (Nat × Frame) := []
  /-- number of the next frame -/
  nextFrame : Nat := 0
  fab : Fabric := {}
  egress : Egress := {}
  buses : Buses := {}
  gwe : Gateway := {}
  cipher : Cipher := {}
  keys : KeyStore := {}
  twin : Twin := {}
  sl : ShellLink := {}
  faults : Faults := {}
  upd : Update := {}
  /-- NVM, OTP and flash, which a reset keeps -/
  nvm : Nvm := {}
  /-- what has left the part, newest first (the model's own record) -/
  out : List Out := []
  /-- uses of the free values of Config so far (the model's own counter) -/
  free : Nat := 0
deriving DecidableEq, Repr

/-- No command of this block faults: the block has no operation whose effect the spec leaves out altogether. -/
inductive Fault where
deriving DecidableEq, Repr

/-- Reasons for which a command has no meaning. -/
inductive Refusal where
  /-- raised by `exec` for a command that has no meaning yet; safe -/
  | notModelled (mnemonic : String)
  /-- raised by a meaning whose operands name a port, ring, slot, channel or pin that the part does not have: such a
  command does not exist; safe -/
  | illFormed
deriving DecidableEq, Repr

/-- The machine right after reset (R33, R11): every register at its Bedrock value, every table empty, mode BOOT.
Marks: DESIGN CHOICE (log entry 6). -/
def State.reset : State := {}

/-- What a meaning answers. -/
abbrev Result := Host.Outcome State Fault Refusal

end Sys2Proof.Machine
end

