-- ==== Sys2Proof/Machine/Ops.lean ====
section
/-!
DEFINITION. The operations that every family uses: registers by BAR0 offset, counters (R10), interrupts and MSI-X
(R587), refusals (R45, R46), the Silt Log (R75 to R80), fault reports (R502), the record of what leaves the part, and
free values.
-/
namespace Sys2Proof.Machine
open Sys2Proof

/-- A meaning's answer when its operands name something that the part has. -/
def ifWf (wf : Bool) (s : State) : Result := if wf then .next s else .refused .illFormed

/-- The state `t` when the event can happen in `s`, else `s`: an event whose condition the spec does not find met does
not happen. Marks: DESIGN CHOICE (log entry 4). -/
def whenever (c : Bool) (s t : State) : State := if c then t else s

/-! ### Registers -/

/-- Value of the register at a BAR0 offset as held; status registers are shown by `Machine/View.lean`. -/
def State.reg (s : State) (a : Nat) : Word := Tab.get regReset s.regs a

/-- The state with a register changed. -/
def State.setReg (s : State) (a : Nat) (v : Word) : State := { s with regs := Tab.set regReset s.regs a v }

/-- Field `[lo + n - 1 : lo]` of a register. -/
def State.fld (s : State) (a lo n : Nat) : Nat := Machine.fld (s.reg a) lo n

/-- Bit `i` of a register. -/
def State.bitAt (s : State) (a i : Nat) : Bool := bit (s.reg a).toNat i

/-- The state with a register field changed. -/
def State.setFld (s : State) (a lo n x : Nat) : State := s.setReg a (putFld (s.reg a) lo n x)

/-- The state with bit `i` of a register set or cleared. -/
def State.setBitAt (s : State) (a i : Nat) (b : Bool) : State :=
  s.setReg a (if b then setBit (s.reg a) i else clrBit (s.reg a) i)

/-- The 64-bit value of a `_LO`/`_HI` pair. -/
def State.pair (s : State) (a : Nat) : Nat := (s.reg a).toNat + 2 ^ 32 * (s.reg (a + 4)).toNat

/-- The state with a pair changed. -/
def State.setPair (s : State) (a v : Nat) : State := (s.setReg a (w32 v)).setReg (a + 4) (w32 (v / 2 ^ 32))

/-- R10: a 64-bit counter advanced by `n`, wrapping. -/
def State.bumpBy (s : State) (a n : Nat) : State := s.setPair a ((s.pair a + n) % 2 ^ 64)

/-- R10: a counter advanced by one. -/
def State.bump (s : State) (a : Nat) : State := s.bumpBy a 1

/-! ### Pages -/

/-- Page numbers of Table 19-1. -/
def pSys : Nat := 0x000
/-- Page number of PWR. -/
def pPwr : Nat := 0x001
/-- Page number of WAKE. -/
def pWake : Nat := 0x002
/-- Page number of LC. -/
def pLc : Nat := 0x003
/-- Page number of UPD. -/
def pUpd : Nat := 0x004
/-- Page number of SILT. -/
def pSilt : Nat := 0x005
/-- Page number of SEM. -/
def pSem : Nat := 0x006
/-- Page number of FLT. -/
def pFlt : Nat := 0x007
/-- Page number of LSP. -/
def pLsp : Nat := 0x008
/-- Page number of MEM. -/
def pMem : Nat := 0x009
/-- Page number of TWN. -/
def pTwn : Nat := 0x00A
/-- Page number of PB. -/
def pPb : Nat := 0x00B
/-- Page number of PTP. -/
def pPtp : Nat := 0x00C
/-- Page number of GPIO. -/
def pGpio : Nat := 0x00D
/-- Page number of TUE. -/
def pTue : Nat := 0x020
/-- Page number of PRS. -/
def pPrs : Nat := 0x021
/-- Page number of a pipeline. -/
def pPl (n : Nat) : Nat := 0x022 + n
/-- Page number of FW. -/
def pFw : Nat := 0x024
/-- Page number of SFP. -/
def pSfp : Nat := 0x025
/-- Page number of FAB. -/
def pFab : Nat := 0x026
/-- Page number of BUF. -/
def pBuf : Nat := 0x027
/-- Page number of a MAC. -/
def pMac (n : Nat) : Nat := 0x030 + n
/-- Page number of an EGS page. -/
def pEgs (n : Nat) : Nat := 0x060 + n
/-- Page number of the Shell Link. -/
def pSl : Nat := 0x09F
/-- Page number of a SerDes lane. -/
def pSds (n : Nat) : Nat := 0x0A0 + n
/-- Page number of the T1 PHY of port `32 + n`. -/
def pTphy (n : Nat) : Nat := 0x0C0 + n
/-- Page number of a CAN channel. -/
def pCan (n : Nat) : Nat := 0x0D0 + n
/-- Page number of a LIN channel. -/
def pLin (n : Nat) : Nat := 0x0E8 + n
/-- Page number of a GWE page. -/
def pGwe (k : Nat) : Nat := 0x0F0 + k
/-- Page number of a CE page. -/
def pCe (k : Nat) : Nat := 0x100 + k
/-- Page number of a KEY page. -/
def pKey (k : Nat) : Nat := 0x104 + k
/-- Page number of a port's MSC page. -/
def pMsc (n : Nat) : Nat := 0x110 + n

/-- Page number of page `k` of a host port. -/
def pHif : HostPort → Nat → Nat
  | .a, k => 0x010 + k
  | .b, k => 0x014 + k

/-! ### Masters -/

/-- Master IDs (R42). -/
def masterId : Master → Nat
  | .ha => 1 | .hb => 2 | .mp0 => 3 | .mp1 => 4

/-- The master that a host port is. -/
def hostMaster : HostPort → Master
  | .a => .ha
  | .b => .hb

/-- Whether a master is a host. -/
def isHost : Master → Bool
  | .ha => true | .hb => true | .mp0 => false | .mp1 => false

/-- Both host ports. -/
def hosts : List HostPort := [.a, .b]

/-! ### What leaves the part, and free values -/

/-- Record something that leaves the part. -/
def State.emit (s : State) (o : Out) : State := { s with out := o :: s.out }

/-- Use one free value. Marks: DESIGN CHOICE (log entry 12). -/
def State.tick1 (s : State) : State := { s with free := s.free + 1 }

/-- A quotient whose rounding the spec leaves open: exact when it is exact, else the floor or one more.
Marks: DESIGN CHOICE (log entry 11). -/
def divOpen (n d : Nat) : Nat :=
  if n % d = 0 then n / d else n / d + b2n (Config.roundsUp n d)

/-! ### Interrupts -/

/-- MSI-X state of a host port. -/
def State.msix (s : State) : HostPort → Msix
  | .a => s.msixA
  | .b => s.msixB

/-- The state with the MSI-X state of a host port changed. -/
def State.setMsix (s : State) (h : HostPort) (m : Msix) : State :=
  match h with
  | .a => { s with msixA := m }
  | .b => { s with msixB := m }

/-- Send a vector, or set its pending bit while it is masked (R587). -/
def State.sendVec (s : State) (h : HostPort) (v : Nat) : State :=
  let m := s.msix h
  if m.masked.getLsbD v then s.setMsix h { m with pend := m.pend ||| BitVec.ofNat 64 (2 ^ v) }
  else s.emit (.msix h v)

/-- `HIFx_PGVEC` byte of a page on a host port: vector and EN (Table 2-13). -/
def pgvec (s : State) (h : HostPort) (p : Nat) : Nat :=
  bits (s.reg (regAddr (pHif h 0) (0x100 + p / 4 * 4))).toNat (8 * (p % 4)) 8

/-- R587: the message of a page on the ports whose PGVEC entry is enabled, once a cycle. -/
def State.pageMsg (s : State) (p : Nat) : State :=
  if s.msgPages.pages.contains p then s
  else
    hosts.foldl (fun t h => if bit (pgvec s h p) 7 then t.sendVec h (bits (pgvec s h p) 0 6) else t)
      { s with msgPages := { s.msgPages with pages := p :: s.msgPages.pages } }

/-- IRQ_RAW bits that events of this cycle have set on a page. -/
def State.raisedNow (s : State) (p : Nat) : Word := Tab.get (fun _ => 0) s.msgPages.bits p

/-- The bits that an event sets, kept for the cycle (R565). -/
def State.noteRaised (s : State) (p mask : Nat) : State :=
  { s with msgPages := { s.msgPages with bits := Tab.set (fun _ => 0) s.msgPages.bits p (s.raisedNow p ||| w32 mask) } }

/-- Set bits of a page's IRQ_RAW. The page sends its message when a bit of IRQ_PEND becomes 1 (R587). -/
def State.raiseMask (s : State) (p mask : Nat) : State :=
  let raw := (s.reg (regAddr p 0x10)).toNat
  let en := (s.reg (regAddr p 0x14)).toNat
  let t := (s.noteRaised p mask).setReg (regAddr p 0x10) (w32 (raw ||| mask))
  if (mask &&& en) &&& complement 32 raw ≠ 0 then t.pageMsg p else t

/-- Set one bit of a page's IRQ_RAW. -/
def State.raise (s : State) (p i : Nat) : State := s.raiseMask p (2 ^ i)

/-! ### Position and time -/

/-- The Phase Base position CYCLE:PHASE (R82). -/
def State.pos (s : State) : Pos := (s.pb.acc.toNat / 2 ^ 24 : Nat)

/-- CYCLE. -/
def State.cycleNo (s : State) : Nat := s.pos.toNat / 2 ^ 32

/-- PHASE. -/
def State.phase (s : State) : Nat := s.pos.toNat % 2 ^ 32

/-- A gPTP domain. -/
def State.dom (s : State) (d : Nat) : Domain := Tab.get (fun _ => {}) s.ptp.dom d

/-- The state with a gPTP domain changed. -/
def State.setDom (s : State) (d : Nat) (x : Domain) : State :=
  { s with ptp := { s.ptp with dom := Tab.set (fun _ => {}) s.ptp.dom d x } }

/-- Seconds of a domain clock (R369). -/
def timeSec (t : Nat) : Nat := t / (10 ^ 9 * 2 ^ 48) % 2 ^ 48

/-- Nanoseconds of a domain clock. -/
def timeNs (t : Nat) : Nat := t / 2 ^ 48 % 10 ^ 9

/-- Fraction of a nanosecond in units of 2^-16 ns. -/
def timeFrac (t : Nat) : Nat := t / 2 ^ 32 % 2 ^ 16

/-! ### Silt Log -/

/-- BAR0 offset of a SILT register. -/
def aSilt (off : Nat) : Nat := regAddr pSilt off

/-- Entries not freed: from `SILT_FREE_SEQ` to `SILT_WR_SEQ`. -/
def siltUnfreed (s : State) : Nat :=
  ((s.reg (aSilt 0x048)).toNat + 2 ^ 32 - (s.reg (aSilt 0x04C)).toNat) % 2 ^ 32

/-- R79: whether changes of origin HA, HB, KUM and UPDATE are refused. -/
def siltFull (s : State) : Bool := decide (16128 ≤ siltUnfreed s) && !s.bitAt (aSilt 0x040) 0

/-- Silt origins. Marks: DEDUCED (log entry 23). -/
def originOf : Master → Nat
  | .ha => 1 | .hb => 2 | .mp0 => 3 | .mp1 => 4

/-- Silt origin TWIN. -/
def oTwin : Nat := 5
/-- Silt origin KUM. -/
def oKum : Nat := 6
/-- Silt origin UPDATE. -/
def oUpdate : Nat := 7
/-- Silt origin HW. -/
def oHw : Nat := 8

/-- R75 to R77, R80: write one entry, chained, overwriting the oldest unfreed entry when the log is full.
Marks: DEDUCED (log entry 23). -/
def State.silt_ (s : State) (old new : Word) (origin kind sub addr : Nat) : State :=
  let seq := (s.reg (aSilt 0x048)).toNat
  let full := decide (16384 ≤ siltUnfreed s)
  let e : SiltEntry :=
    { seq := seq, cycle := s.cycleNo, phase := s.phase, gap := full, ptpSec := timeSec (s.dom 0).time % 2 ^ 16,
      ptpNs := timeNs (s.dom 0).time, old := old, new := new, origin := origin, kind := kind, sub := sub,
      addr := addr, link := linkOf s.silt.chain }
  let t := { s with silt := { s.silt with
              entries := Tab.put s.silt.entries (seq % 16384) e
              chain := chainNext s.silt.chain e
              due := if seq % 256 = 255 then s.silt.due ++ [(seq, chainNext s.silt.chain e)] else s.silt.due } }
  let t := t.setReg (aSilt 0x048) (w32 (seq + 1))
  if full then
    ((t.setReg (aSilt 0x04C) (s.reg (aSilt 0x04C) + 1)).bump (aSilt 0x068)).raise pSilt 2
  else t

/-- R79: count a change refused with SILT_FULL and raise FULL. -/
def State.siltRefused (s : State) : State := (s.bump (aSilt 0x070)).raise pSilt 0

/-! ### Refusals -/

/-- Refusal codes (Table 2-4), in the order of R46. -/
inductive Refused where
  | addrReserved | accessWidth | writeRo | hifForeign | worldDenied | modeDenied | notOwner | locked | valueRange
  | siltFull
deriving DecidableEq, Repr

/-- Table 2-4. -/
def refusedCode : Refused → Nat
  | .writeRo => 1 | .addrReserved => 2 | .accessWidth => 3 | .notOwner => 4 | .worldDenied => 5 | .siltFull => 6
  | .modeDenied => 7 | .locked => 8 | .valueRange => 9 | .hifForeign => 10

/-- WORLD of an access (R40, R426): hosts carry secure through the secure window; the MPs always do. -/
def worldSec (w : Who) : Bool := w.sec || !isHost w.m

/-- BAR0 offset at which a write entered: a host's secure window lies at 0x0080_0000 (R40). -/
def entryAddr (w : Who) (addr : Nat) : Nat := if isHost w.m ∧ w.sec then addr + 0x800000 else addr

/-- R45: record a refusal in the ERRCAP of a page and raise its ERR. `addr` is the register's BAR0 offset.
Marks: DEDUCED (log entry 23). -/
def State.refuse (s : State) (p : Nat) (r : Refused) (w : Who) (addr : Nat) : State :=
  let s := if r = .siltFull then s.siltRefused else s
  let a := regAddr p 0x28
  let cap := (s.reg a).toNat
  let n := bits cap 16 16
  let t :=
    if n = 0 then
      (s.setReg a (w32 (refusedCode r + masterId w.m * 2 ^ 8 + b2n (worldSec w) * 2 ^ 12 + 2 ^ 16))).setReg
        (regAddr p 0x2C) (w32 (entryAddr w addr % 2 ^ 24))
    else s.setReg a (w32 (putBits (putBits cap 14 1 1) 16 16 (min 0xFFFF (n + 1))))
  t.raise p 31

/-! ### Fault reports -/

/-- R502: submit a report with the present cycle as event time. Where no rule defines the detail (`[]`), its bytes are
a free value. -/
def State.report (s : State) (cls reporter : Nat) (detail : List Byte) (inj : Bool) : State :=
  let d := if detail.isEmpty then leBytes 16 (Config.freeNat s.free) else detail
  { s with
    free := s.free + b2n detail.isEmpty
    faults := { s.faults with
      events := s.faults.events ++ [{ cls := cls, reporter := reporter, at_ := s.cclk, detail := d, inj := inj,
                                      pos := s.pos, ptpSec := timeSec (s.dom 0).time,
                                      ptpNs := timeNs (s.dom 0).time }] } }

/-- Unit IDs (Table 16-4). -/
def unitId (kind index : Nat) : Nat := kind * 2 ^ 16 + index

end Sys2Proof.Machine
end

