-- ==== Sys2Proof/Machine/PhaseOps.lean ====
section
/-!
DEFINITION. The Phase Base (spec/03_phase_base.md): one step of the position (R83 to R93), the phase tracker
(R95, R96, Table 3-2), the NETTIME reference position (R87), and the prediction of sync points (R104, R105, R588).
-/
namespace Sys2Proof.Machine
open Sys2Proof

/-- BAR0 offset of a PB register. -/
def aPb (off : Nat) : Nat := regAddr pPb off

/-- `2^32 / 1000` units per cycle as a 32.24 value: the highest RATE (R86). -/
def rateMax : Nat := 2 ^ 56 / 1000

/-- Positions are compared on the ring of 2^88: how far `b` lies ahead of `a`. -/
def accAhead (a b : Nat) : Nat := (b + 2 ^ 88 - a % 2 ^ 88) % 2 ^ 88

/-- PHASE 0xFFFF_FFFF of the current cycle. -/
def endOfCycle (acc : Nat) : Nat := (acc / 2 ^ 56) * 2 ^ 56 + 0xFFFFFFFF * 2 ^ 24

/-- The position in cycle `t`, now or before (R110). -/
def accAt (s : State) (t : Nat) : Nat :=
  if s.cclk ≤ t then s.pb.acc.toNat else (trailAt (2 ^ 88) s.pb.trail t).getD s.pb.acc.toNat

/-- Whether the position in cycle `t` is among those kept. -/
def accKept (s : State) (t : Nat) : Bool := decide (s.cclk ≤ t) || (trailAt (2 ^ 88) s.pb.trail t).isSome

/-- Where a domain clock wraps: after 2^48 seconds (R369). -/
def timeWrap : Nat := 2 ^ 96 * 10 ^ 9

/-- What a domain clock adds in one CCLK cycle (R369). -/
def domStepOf (d : Domain) : Nat := ((2 : Int) ^ 48 + d.adj * 2 ^ 16).toNat

/-- Time that domain `d` showed in cycle `t`, or will show at the ADJ in effect. -/
def timeAt (s : State) (d t : Nat) : Nat :=
  if s.cclk ≤ t then (s.dom d).time + (t - s.cclk) * domStepOf (s.dom d) else (trailAt 0 (s.dom d).trail t).getD (s.dom d).time

/-- Signed difference of two positions. -/
def posDiff (a b : Nat) : Int := signed 64 ((a + 2 ^ 64 - b % 2 ^ 64) % 2 ^ 64)

/-- Whether the position is held still: UNLOCKED, STANDSTILL, or frozen under R93. During a join the position goes on
at RATE to the end of the cycle, whatever the new reference does (R102). -/
def pbFrozen (p : PhaseBase) : Bool :=
  p.state == .unlocked || ((p.state == .standstill || p.reverse) && !p.join)

/-- R89, R92: the clamp for an event at position `nxt`: the end of the cycle before an event that ends it. -/
def clampFor (nxt : Nat) : Pos := BitVec.ofNat 64 (if nxt % 2 ^ 32 = 0 then nxt + 2 ^ 64 - 1 else nxt)

/-- The position after the next CCLK cycle (R83), held at the clamp of R92 and at the end of a joined cycle (R102). In
step mode it is the position of the last count (R97). -/
def accNext (p : PhaseBase) : Nat :=
  if pbFrozen p then p.acc.toNat
  else if p.step then
    if accAhead p.acc.toNat (p.lastP.toNat * 2 ^ 24) < 2 ^ 87 then p.lastP.toNat * 2 ^ 24 else p.acc.toNat
  else
    let lim :=
      if p.join && p.src != 3 then some (endOfCycle p.acc.toNat)
      else match p.clamp with
        | some c => if p.src = 2 then some (c.toNat * 2 ^ 24) else none
        | none => none
    match lim with
    | none => (p.acc.toNat + p.rate) % 2 ^ 88
    | some l =>
      let room := accAhead p.acc.toNat l
      if room < 2 ^ 87 then (p.acc.toNat + min p.rate room) % 2 ^ 88 else p.acc.toNat

/-- Whether the next CCLK cycle crosses a cycle boundary. -/
def crossesNext (p : PhaseBase) : Bool := accNext p / 2 ^ 56 != p.acc.toNat / 2 ^ 56

/-- R94: RATE under HOLD. -/
def holdRate (s : State) : Nat :=
  let r := s.pair (aPb 0x060) % 2 ^ 56
  min rateMax (if r ≠ 0 then r
    else if s.pb.everRate then s.pb.rate
    else divOpen (2 ^ 56) (s.reg (aPb 0x044)).toNat)

/-! ### Tracker -/

/-- STATE codes of `PB_STAT`. -/
def pbStateCode : PbTrack → Nat
  | .unlocked => 0 | .acquire => 1 | .locked => 2 | .holdover => 3 | .standstill => 4

/-- A change of tracker state, with its fault report: class REF_LOSS (0x18) where the reference is lost, REF_LOCK
(0x19) otherwise; the reporter is the PB engine. -/
def pbEnter (s : State) (st : PbTrack) : State :=
  if s.pb.state = st then s
  else
    let t : State := { s with pb := { s.pb with state := st, runIn := 0, runOut := 0 } }
    t.report (if st = PbTrack.holdover ∨ st = PbTrack.standstill then 0x18 else 0x19) (unitId 6 0x400) [] false

/-- Entry to HOLDOVER from a lost reference (Table 3-2): RATE is held. -/
def pbLoss (s : State) : State :=
  if s.pb.state = .acquire ∨ s.pb.state = .locked then
    ((pbEnter s .holdover).raise pPb 2).bump (aPb 0x110)
  else s

/-- Reference lost while NETTIME follows domain `d` (R88). -/
def pbDomainLost (s : State) (d : Nat) : State :=
  if s.pb.src = 0 ∧ s.fld (aPb 0x040) 3 1 = d then pbLoss s else s

/-- Saturation of a signed value to `n` bits. -/
def satSigned (n : Nat) (i : Int) : Int := max (-(2 ^ (n - 1) : Nat)) (min i ((2 ^ (n - 1) : Nat) - 1))

/-- The rate estimate (the tracker's listing): linear extrapolation, or the mean of up to 2^AVG measured rates. -/
def rateEst (s : State) (hist : List Nat) : Nat :=
  let h := hist.take (2 ^ s.fld (aPb 0x04C) 0 3)
  match s.bitAt (aPb 0x04C) 3, hist with
  | true, r0 :: r1 :: _ => 2 * r0 - r1
  | _, _ => if h.length = 0 then s.pb.rate else divOpen h.sum h.length

/-- The rate that a reference event asks for: the estimate, corrected by at most SLEW/256 of it (R96), within R86.
`e` is the position error in phase units and `gap` the phase to the next reference event. -/
def rateFor (s : State) (est : Nat) (e : Int) (gap : Nat) : Nat :=
  let lim := est * s.fld (aPb 0x04C) 8 8 / 256
  let c := if gap = 0 then lim else min lim (divOpen (e.natAbs * est) gap)
  min rateMax (if e < 0 then est - c else est + c)

/-- Lock counting of Table 3-2 on the error of one reference event. -/
def pbLockCount (s : State) (e : Int) : State :=
  let tol := (s.reg (aPb 0x050)).toNat
  let n := s.fld (aPb 0x04C) 16 8
  let inside := decide (e.natAbs ≤ tol)
  let p : PhaseBase := { s.pb with runIn := if inside then s.pb.runIn + 1 else 0, runOut := if inside then 0 else s.pb.runOut + 1 }
  let t : State := { s with pb := p }
  if p.state = .acquire ∧ n ≤ p.runIn then (pbEnter t .locked).raise pPb 0
  else if p.state = .locked ∧ n ≤ p.runOut then (pbEnter t .acquire).raise pPb 1
  else if p.state = .holdover ∧ p.src ≠ 3 then pbEnter t .acquire
  else t

/-- A reference event: compensated cycle `t`, reference position `p`, reference position `nxt` of the next expected
event, filter delay `filt` (R95). -/
def pbRefEvent (s : State) (t : Nat) (p nxt : Pos) (filt : Nat) : State :=
  let e := posDiff p.toNat (accAt s t / 2 ^ 24)
  let hist :=
    match s.pb.lastT with
    | some t0 =>
      if t0 < t then
        (divOpen ((p.toNat + 2 ^ 64 - s.pb.lastP.toNat) % 2 ^ 64 * 2 ^ 24) (t - t0) :: s.pb.hist).take 128
      else s.pb.hist
    | none => s.pb.hist
  let est := rateEst s hist
  let gap := (nxt.toNat + 2 ^ 64 - p.toNat) % 2 ^ 64
  let s1 := s.setReg (aPb 0x06C) (w32 (unsigned 32 (satSigned 32 e)))
  let s2 := { s1 with pb := { s1.pb with
    hist := hist, lastT := some t, lastP := p,
    clamp := if s.pb.src = 2 then some (clampFor nxt.toNat) else none,
    rates := if hist.length = 0 then s.pb.rates else s.pb.rates ++ [(rateFor s est e gap, t + 16 + filt)] } }
  pbLockCount s2 e

/-- The initial load of Table 3-2: the only move of the position other than by R83 and step mode (R98). -/
def pbInitialLoad (s : State) (p : Pos) (t : Nat) : State :=
  pbEnter { s with pb := { s.pb with acc := p.toNat * 2 ^ 24, lastT := some t, lastP := p, hist := [],
                                     fresh := s.pb.src == 2, step := false, marks := [], unmarked := none,
                                     origin := s.cclk, cycleAt := s.cclk, syncAt := none } } .acquire

/-! ### Network time as reference -/

/-- The domain that NETTIME follows. -/
def pbDomain (s : State) : Nat := s.fld (aPb 0x040) 3 1

/-- R371: a domain has valid time in LOCKED and HOLDOVER. -/
def domValid (s : State) (d : Nat) : Bool := (s.dom d).state == .locked || (s.dom d).state == .holdover

/-- R87: the reference position at a domain time `t` in units of 2^-48 ns. -/
def nettimePos (s : State) (t : Nat) : Nat :=
  let per := (s.reg (aPb 0x044)).toNat
  let ofs : Nat := (s.reg (aPb 0x048)).toNat * 2 ^ 48
  if per = 0 then 0
  else
    let x : Int := ((t : Int) - (ofs : Int)) * (2 : Int) ^ 32
    let q : Int := x / Int.ofNat (per * 2 ^ 48)
    (q % (2 : Int) ^ 64).toNat

/-- The NETTIME reference position now, with the cycles that a join or a load added. -/
def nettimeNow (s : State) : Nat := (nettimePos s (s.dom (pbDomain s)).time + s.pb.cycOfs * 2 ^ 32) % 2 ^ 64

/-- The NETTIME reference position one event later, 1,000 cycles on at the ADJ in effect. -/
def nettimeNext (s : State) : Nat :=
  let d := s.dom (pbDomain s)
  (nettimePos s (d.time + (1000 * ((2 : Int) ^ 48 + d.adj * 2 ^ 16)).toNat) + s.pb.cycOfs * 2 ^ 32) % 2 ^ 64

/-! ### Prediction of sync points -/

/-- CCLK cycles of SYNC_PERIOD + 25 us (R105). -/
def forcedGap (s : State) : Nat := s.fld (aPb 0x054) 16 11 * 1000 + 25000

/-- CCLK count in which the position, at the current RATE, crosses into the `j`-th cycle from now. -/
def crossingAt (s : State) (j : Nat) : Option Nat :=
  if s.pb.rate = 0 ∨ pbFrozen s.pb ∨ s.pb.step then none
  else
    let target := (s.pb.acc.toNat / 2 ^ 56 + j) * 2 ^ 56
    some (s.cclk + ceilDiv (target - s.pb.acc.toNat) s.pb.rate)

/-- R104: whether a boundary into cycle number `c` at CCLK count `t` is a sync point after one at `last`. -/
def boundaryQualifies (s : State) (last : Option Nat) (c t : Nat) : Bool :=
  decide (c % 2 ^ 32 % max 1 (s.fld (aPb 0x054) 0 8) = 0) &&
  (match last with
   | none => true
   | some l => decide (l + 50000 ≤ t))

/-- The sync point that follows one at `last`, after CCLK count `now`, at the current RATE (R588): the earlier of the
forced one (R105) and the next qualifying boundary (R104). -/
def predictAfter (s : State) (last : Option Nat) (now : Nat) : Nat :=
  let forced := last.getD s.pb.origin + forcedGap s
  let hit := (List.range 2200).findSome? (fun j =>
    match crossingAt s (j + 1) with
    | none => none
    | some t =>
      if now < t ∧ boundaryQualifies s last (s.cycleNo + j + 1) t then some t else none)
  match hit with
  | none => max forced (now + 1)
  | some t => min t (max forced (now + 1))

/-- Predicted CCLK counts of the next `k` sync points, nearest first. Marks: DEDUCED (log entry 60). -/
def predictSyncs (s : State) : Nat → List Nat
  | 0 => []
  | k + 1 =>
    match predictSyncs s k with
    | [] => [predictAfter s s.pb.syncAt s.cclk]
    | l => l ++ [predictAfter s (some (l.getLastD 0)) (l.getLastD 0)]

/-- Sync number of the last sync point. -/
def syncCnt (s : State) : Nat := (s.reg (aPb 0x080)).toNat

/-- R55: sync number and predicted count of the first sync point at least 20,000 cycles after now. -/
def bindSync (s : State) : Nat × Nat :=
  let l := predictSyncs s 2
  let s1 := l.headD 0
  if s.cclk + 20000 ≤ s1 then ((syncCnt s + 1) % 2 ^ 32, s1) else ((syncCnt s + 2) % 2 ^ 32, l.getLastD 0)

/-- Predicted CCLK count of the sync point of number `n`. -/
def predictNumber (s : State) (n : Nat) : Nat :=
  let k := (n + 2 ^ 32 - syncCnt s) % 2 ^ 32
  if k = 0 then s.cclk else if k ≤ 4 then (predictSyncs s k).getLastD s.cclk else s.cclk

end Sys2Proof.Machine
end

