-- ==== Sys2Proof/Machine/RegOps.lean ====
section
/-!
DEFINITION. Register accesses (spec/02_host_and_registers.md): the pairs of R9, the values of past epochs that frames
still read, page owners, the rings' register blocks, and which registers R75 logs and Table 15-5 copies.
-/
namespace Sys2Proof.Machine
open Sys2Proof

/-! ### Pairs (R9) -/

/-- Key of a master's latch of the `_HI` half at `a`. -/
def latchKey (m : Master) (a : Nat) : Nat := masterId m * 2 ^ 26 + a

/-- The `_HI` that a master's last read of `_LO` latched. -/
def State.latchOf (s : State) (m : Master) (a : Nat) : Option Word :=
  Tab.get (fun _ => none) s.latched (latchKey m a)

/-- Latch `_HI` for a master. -/
def State.setLatch (s : State) (m : Master) (a : Nat) (v : Word) : State :=
  { s with latched := Tab.set (fun _ => none) s.latched (latchKey m a) (some v) }

/-- The `_HI` write that a master holds. -/
def State.heldOf (s : State) (m : Master) (a : Nat) : Option Word :=
  Tab.get (fun _ => none) s.held (latchKey m a)

/-- Hold or release a `_HI` write of a master. -/
def State.setHeld (s : State) (m : Master) (a : Nat) (v : Option Word) : State :=
  { s with held := Tab.set (fun _ => none) s.held (latchKey m a) v }

/-- Which half of an R9 pair an offset is. -/
def halfOf (a : Nat) : Half :=
  match regDef a with
  | some d => d.half
  | none => .none

/-! ### Values by epoch -/

/-- `SYS_EPOCH`. -/
def State.epoch (s : State) : Nat := s.fld (regAddr pSys 0x050) 0 16

/-- Whether epoch `b` is `a` or newer, on the 16-bit ring (R192). -/
def epochNewer (b a : Nat) : Bool := decide ((b + 2 ^ 16 - a % 2 ^ 16) % 2 ^ 16 < 2 ^ 15)

/-- A register as it stood in epoch `e`: the commits of later epochs undone, newest first. -/
def regAsOf (a e : Nat) : List (Nat × List (Nat × Word)) → Word → Word
  | [], v => v
  | (before, olds) :: rest, v =>
    if epochNewer before e then
      regAsOf a e rest (match olds.find? (fun x => x.1 == a) with | some x => x.2 | none => v)
    else v

/-- A register as a frame of epoch `e` sees it (R173, R195, R215). -/
def State.regAt (s : State) (e a : Nat) : Word := regAsOf a e s.hist (s.reg a)

/-! ### Owners and modes -/

/-- OWNER of a page (R47). -/
def ownerOf (s : State) (p : Nat) : Nat := s.fld (regAddr p 0x20) 0 4

/-- R48: the page is owned by a host, and the writer is the other host. -/
def foreignOwner (s : State) (w : Who) (p : Nat) : Bool :=
  isHost w.m && ownerOf s p != 0 && ownerOf s p != masterId w.m

/-- Modes in which RWS registers and SYS_COMMIT take no write (R54). -/
def rwsClosed : Mode → Bool
  | .standby => true | .boot => true | .quarantine => true | .sleepRetain => true | .sleepDeep => true
  | .configure => false | .active => false | .degraded => false | .service => false

/-- Whether a mode is one of SLEEP. -/
def asleep : Mode → Bool
  | .sleepRetain => true | .sleepDeep => true
  | .boot => false | .configure => false | .active => false | .standby => false | .degraded => false
  | .service => false | .quarantine => false

/-- Pages that can be read and written in BOOT (spec/17, Power-up as seen by software). -/
def bootPage : Page → Bool
  | .sys => true | .pwr => true | .wake => true | .lc => true | .upd => true | .hif _ _ => true
  | _ => false

/-- Table 15-5: whether a register is copied from the active to the standby. -/
def isCopied (a : Nat) : Bool :=
  match pageOf (a / 0x1000) with
  | none => false
  | some pg =>
    match pg with
    | .sys => decide ((0x044 ≤ a % 0x1000 ∧ a % 0x1000 < 0x054) ∨ a % 0x1000 = 0x20)
    | .pb => true | .prs => true | .tue => true | .pl _ => true | .fw => true | .sfp => true
    | .fab => true | .buf => true | .egs _ => true | .can _ => true | .lin _ => true | .gwe _ => true
    | .ce k => k == 0
    | .sem => true
    | .gpio => decide (0x300 ≤ a % 0x1000 ∧ a % 0x1000 < 0x360)
    | _ => a % 0x1000 == 0x20

/-! ### Rings -/

/-- BAR0 offset, or TUE key, of a ring's register block (Tables 2-8, 6-5, 13-7, 18-12). -/
def ringBase : RingId → Nat
  | .tx h k => regAddr (pHif h 1) (0x040 + 0x20 * k)
  | .rx h k => regAddr (pHif h 2) (0x040 + 0x20 * k)
  | .la .a s => regAddr (pCe 1) (if s then 0x060 else 0x040)
  | .la .b s => regAddr (pCe 2) (if s then 0x060 else 0x040)
  | .tue .a => 0x1000000
  | .tue .b => 0x1001000
  | .upd => regAddr pUpd 0x080

/-- What a ring keeps beside its registers. -/
def State.ring (s : State) (r : RingId) : RingRun := Tab.get (fun _ => {}) s.rings (ringBase r)

/-- The state with a ring's own state changed. -/
def State.setRing (s : State) (r : RingId) (x : RingRun) : State :=
  { s with rings := Tab.set (fun _ => {}) s.rings (ringBase r) x }

/-- The ring whose register block holds an offset: the ring and the offset in its block. -/
def ringAt (a : Nat) : Option (RingId × Nat) :=
  let p := a / 0x1000
  let o := a % 0x1000
  let blk (r : Nat → RingId) : Option (RingId × Nat) :=
    if 0x040 ≤ o ∧ o < 0x440 then some (r ((o - 0x040) / 0x20), (o - 0x040) % 0x20) else none
  let two (h : HostPort) : Option (RingId × Nat) :=
    if 0x040 ≤ o ∧ o < 0x080 then some (.la h (decide (0x060 ≤ o)), (o - 0x040) % 0x20) else none
  if p = 0x011 then blk (.tx .a) else if p = 0x012 then blk (.rx .a)
  else if p = 0x015 then blk (.tx .b) else if p = 0x016 then blk (.rx .b)
  else if p = 0x101 then two .a else if p = 0x102 then two .b
  else if p = pUpd then (if 0x080 ≤ o ∧ o < 0x0A0 then some (.upd, o - 0x080) else none)
  else if p = 0x1000 then (if o < 0x20 then some (.tue .a, o) else none)
  else if p = 0x1001 then (if o < 0x20 then some (.tue .b, o) else none)
  else none

/-- `RINGk_CFG.EN`. -/
def ringEn (s : State) (r : RingId) : Bool := s.bitAt (ringBase r + 0x08) 0

/-- Entries of a ring: 2^LOG2N. -/
def ringSize (s : State) (r : RingId) : Nat := 2 ^ s.fld (ringBase r + 0x08) 1 4

/-- Posted descriptors that have not been taken: TAIL − HEAD. -/
def ringPosted (s : State) (r : RingId) : Nat :=
  let n := ringSize s r
  (s.fld (ringBase r + 0x14) 0 12 + n - s.fld (ringBase r + 0x18) 0 12 % n) % n

/-- Take `k` descriptors: HEAD advances. -/
def ringTake (s : State) (r : RingId) (k : Nat) : State :=
  s.setFld (ringBase r + 0x18) 0 12 ((s.fld (ringBase r + 0x18) 0 12 + k) % ringSize s r)

/-- The host whose memory a ring lies in; the UPD ring lies in that of the last session's owner. -/
def ringHost (s : State) : RingId → HostPort
  | .tx h _ => h
  | .rx h _ => h
  | .la h _ => h
  | .tue h => h
  | .upd => s.upd.host

/-- R72: after a completion: count, timer restart, and whether the ring is to raise its vector. -/
def ringCounted (s : State) (r : RingId) (int : Bool) : State :=
  let x := s.ring r
  let tue := decide (r = .tue .a ∨ r = .tue .b)
  let coal := if tue then 0 else s.fld (ringBase r + 0x1C) 0 16
  let cnt := s.fld (ringBase r + 0x08) 16 8
  s.setRing r { x with
    count := x.count + 1
    written := x.written + 1
    timer := if coal = 0 then none else some (s.cclk + coal * 256)
    due := x.due || int || (!tue && decide (cnt ≤ x.count + 1)) }

/-- Write a 16-byte completion entry to a ring's completion ring; `mk` takes WRAP. -/
def ringComplete (s : State) (r : RingId) (int : Bool) (mk : Bool → List Byte) : State :=
  let x := s.ring r
  let n := ringSize s r
  let t := s.emit (.hostWrite (ringHost s r) (s.pair (ringBase r + 0x0C) + 16 * (x.written % n))
    (mk (decide (x.written / n % 2 = 0))))
  ringCounted t r int

/-! ### Logging -/

/-- Registers whose accepted writes are commands or selections and are not logged (R75 and the Logging paragraph of
each chapter). -/
def notLogged (a : Nat) : Bool :=
  let o := a % 0x1000
  if decide (o = 0x01C) || decide (o = 0x028) then true
  else
    match pageOf (a / 0x1000) with
    | none => true
    | some pg =>
      match pg with
      | .sem => true
      | .silt => decide (o = 0x050 ∨ o = 0x054)
      | .hif _ k => (k == 3 && decide (0x40 ≤ o)) || ((k == 1 || k == 2) && decide (0x40 ≤ o ∧ o % 0x20 = 0x14))
      | .ce k => (k == 1 || k == 2) && decide (0x40 ≤ o ∧ o % 0x20 = 0x14)
      | .tphy _ => decide (o = 0x044)
      | .mac _ => decide (o = 0x404 ∨ o = 0x408 ∨ o = 0x40C)
      | .can _ => decide (o = 0x060 ∨ o = 0x064 ∨ o = 0x068 ∨ (0x0A4 ≤ o ∧ o < 0x0B4) ∨ 0x800 ≤ o)
      | .lin _ => decide (o = 0x04C ∨ (0x400 ≤ o ∧ (o % 0x10 = 4 ∨ o % 0x10 = 8)))
      | .gwe k => (k == 1 && decide (o = 0x040)) || (k == 2 && decide (o = 0x040))
      | .key k => (k == 0 && decide (o = 0x044)) || decide (0 < k)
      | .lc => decide (o = 0x050)
      | .twn => decide (o = 0x050 ∨ o = 0x090)
      | .flt => decide (o = 0x054 ∨ o = 0x064 ∨ o = 0x084)
      | .upd => decide (o = 0x060 ∨ (0x080 ≤ o ∧ o < 0x0A0))
      | _ => false

/-- R75: log an accepted write of a register, kind REG or SHADOW. -/
def logReg (s : State) (origin a : Nat) (old new : Word) (shadow : Bool) : State :=
  if notLogged a then s else s.silt_ old new origin (if shadow then 1 else 0) 0 (a / 4 % 2 ^ 19)

/-! ### Shadows -/

/-- The pending shadow of a register that no armed commit holds. -/
def State.shadowOf (s : State) (a : Nat) : Option Shadow := s.shadows.find? (fun x => x.off == a)

/-- R53: a write of an RWS register replaces any earlier pending shadow of it. -/
def State.putShadow (s : State) (x : Shadow) : State :=
  { s with shadows := s.shadows.filter (fun y => y.off != x.off) ++ [x] }

/-- Return shadows to pending; a shadow written since then stands (R53). Marks: DEDUCED (log entry 21). -/
def returnShadows (s : State) (l : List Shadow) : State :=
  { s with shadows := l.filter (fun x => (s.shadowOf x.off).isNone) ++ s.shadows }

end Sys2Proof.Machine
end

