-- ==== Sys2Proof/Machine/WriteCheck.lean ====
section
/-!
DEFINITION. When a write is refused, and with which code (R46, Table 2-4), and when a read reaches its register. The
causes that hold for every register stand in one place each; the causes that a chapter gives for one register of its
own follow Table 2-4's order beside them.
-/
namespace Sys2Proof.Machine
open Sys2Proof

/-! ### Reaching a page -/

/-- `SECWIN_EN` of a host port (R41). -/
def secwinEn (s : State) (h : HostPort) : Bool := s.bitAt (regAddr (pHif h 0) 0x08) 0

/-- The secure window through which an access comes is closed (R41). -/
def windowClosed (s : State) (w : Who) : Bool :=
  match w.m with
  | .ha => w.sec && !secwinEn s .a
  | .hb => w.sec && !secwinEn s .b
  | .mp0 => false
  | .mp1 => false

/-- Whether the page number of an offset holds a page; the TUE rings count as one. -/
def pageKnown (addr : Nat) : Bool := (pageOf (addr / 0x1000)).isSome || decide (0x1000 ≤ addr / 0x1000)

/-- In BOOT a host reaches only some pages (spec/17, Power-up as seen by software). -/
def hiddenInBoot (s : State) (w : Who) (addr : Nat) : Bool :=
  isHost w.m && s.mode == .boot &&
  (match pageOf (addr / 0x1000) with
   | some pg => !bootPage pg
   | none => false)

/-- A read reaches its register: its page is there, its window open, and the part awake. -/
def readReaches (s : State) (w : Who) (addr : Nat) : Bool :=
  !windowClosed s w && pageKnown addr && !hiddenInBoot s w addr && !asleep s.mode

/-- Page whose ERRCAP records a refusal: SYS for an offset in no page and for BAR2 (R563). -/
def errPage (addr : Nat) : Nat := if (pageOf (addr / 0x1000)).isSome then addr / 0x1000 else pSys

/-! ### Causes, in the order of R46 -/

/-- R42: the page is the other host's. -/
def hifForeign (w : Who) (addr : Nat) : Bool :=
  match pageOf (addr / 0x1000) with
  | some (.hif b _) => (w.m == .ha && b) || (w.m == .hb && !b)
  | some (.ce 1) => w.m == .hb
  | some (.ce 2) => w.m == .ha
  | _ => false

/-- The TUE rings lie in BAR2, and each host's BAR2 reaches that host's ring alone (R42): a master behind another door
has no such offset. Marks: DESIGN CHOICE (log entry 72). -/
def noSuchRing (w : Who) (addr : Nat) : Bool :=
  (addr / 0x1000 == 0x1000 && w.m != .ha) || (addr / 0x1000 == 0x1001 && w.m != .hb)

/-- Registers that QUARANTINE leaves open to a host (R535). -/
def quarantineOpen (addr : Nat) : Bool :=
  let o := addr % 0x1000
  decide (o = 0x014 ∨ o = 0x01C ∨ o = 0x028) ||
  (match pageOf (addr / 0x1000) with
   | some (.hif _ 3) => decide (o = 0x040 ∨ (0x100 ≤ o ∧ o < 0x200))
   | some .silt => decide (o = 0x050 ∨ o = 0x054)
   | some .flt => decide (o = 0x054 ∨ o = 0x064)
   | some (.key 0) => decide (o = 0x044)
   | some .lc => decide (o = 0x050)
   | some .twn => decide (o = 0x090)
   | some .sfp => decide (o = 0x048)
   | some (.egs _) => decide (o = 0x074)
   | some (.gwe 2) => decide (o = 0x040)
   | _ => false)

/-- Modes in which R54 and the chapters refuse a test setting: every mode but CONFIGURE and SERVICE. -/
def notTestMode (m : Mode) : Bool := !(m == .configure || m == .service)

/-- SA registers of an MSC page, `MSC_TXSC` and `MSC_SCI` (R388). -/
def mkaOwned (o : Nat) : Bool :=
  decide (o = 0x04C ∨ o = 0x050 ∨ o = 0x054 ∨ (0x080 ≤ o ∧ o < 0x0C8)) ||
  (decide (0x100 ≤ o ∧ o < 0x280) && decide (0x20 ≤ (o - 0x100) % 0x60))

/-- A lane register that only test modes set: LOOP of the lane's CFG, and the PRBS register (R146). -/
def laneDenied (s : State) (o v : Nat) : Bool :=
  (o == 0x040 && bits v 4 2 != 0 && notTestMode s.mode) || (o == 0x04C && v != 0 && notTestMode s.mode)

/-- MODE_DENIED causes that single registers have. -/
def modeDeniedAt (s : State) (w : Who) (pg : Page) (o v : Nat) : Bool :=
  match pg with
  | .tue => o == 0x048 && s.mode != .configure && v != (s.reg (regAddr pTue 0x048)).toNat
  | .fw => o == 0x044 && s.mode != .configure && v != (s.reg (regAddr pFw 0x044)).toNat
  | .sds _ => laneDenied s o v
  | .sl => if 0x400 ≤ o then laneDenied s ((o - 0x400) % 0x200 + 0x040) v else false
  | .tphy n =>
    (o == 0x044 && !s.bitAt (regAddr (pTphy n) 0x040) 1) ||
    (o == 0x04C && bit v 0 && (Tab.get (fun _ => ({} : MacPort)) s.ports.mac (32 + n)).link == .up)
  | .ptp =>
    ((o == 0x144 || o == 0x1C4) && bit v 0 && !s.bitAt (regAddr pPtp (o - 0x044)) 1)
  | .msc n => isHost w.m && mkaOwned o && s.bitAt (regAddr (pMsc n) 0x064) 0
  | .mem =>
    (o == 0x040 && notTestMode s.mode &&
      (s.reg (regAddr pMem 0x040)).toNat &&& complement 32 v != 0) ||
    (o == 0x050 && bit v 31 && bit v 16 && notTestMode s.mode)
  | .lsp =>
    o == 0x04C && bit v 31 &&
      (if bits v 1 2 = 3 then s.mode != .service
       else !(s.mode == .configure || s.mode == .active || s.mode == .standby || s.mode == .degraded
              || s.mode == .service))
  | _ => false

/-- MODE_DENIED. -/
def modeDenied (s : State) (w : Who) (d : RegDef) (addr v : Nat) : Bool :=
  let o := addr % 0x1000
  (isHost w.m && s.mode == .quarantine && !quarantineOpen addr)
  || hiddenInBoot s w addr
  || asleep s.mode
  || ((d.ty == .rws || addr == regAddr pSys 0x040) && rwsClosed s.mode)
  || (isHost w.m && s.mode == .standby && isCopied addr)
  || (isHost w.m && s.power.topsoilBusy && (d.ty == .rw || d.ty == .rws))
  || (match pageOf (addr / 0x1000) with
      | some pg => modeDeniedAt s w pg o v
      | none => false)

/-- NOT_OWNER causes that single registers have. -/
def notOwnerAt (s : State) (w : Who) (pg : Page) (o : Nat) : Bool :=
  match pg with
  | .silt => (o == 0x050 && w.m != .ha) || (o == 0x054 && w.m != .hb)
  | .twn => o == 0x050 && w.m != .mp0
  | .upd =>
    (o == 0x060 || decide (0x080 ≤ o ∧ o < 0x0A0)) &&
    (match s.upd.session with
     | some u => u.owner != w.m
     | none => false)
  | _ => false

/-- R47: a write of OWNER that is neither a claim of a free page by its own ID nor a release by the owner. -/
def ownerDenied (s : State) (w : Who) (p v : Nat) : Bool :=
  if ownerOf s p = 0 then decide (v ≠ 0 ∧ v ≤ 4 ∧ v ≠ masterId w.m)
  else !(ownerOf s p == masterId w.m && v == 0)

/-- NOT_OWNER. -/
def notOwner (s : State) (w : Who) (addr v : Nat) : Bool :=
  let p := addr / 0x1000
  match pageOf p with
  | none => false
  | some pg =>
    (if addr % 0x1000 = 0x20 then ownerDenied s w p (v % 16) else foreignOwner s w p)
    || notOwnerAt s w pg (addr % 0x1000)

/-- R62: a ring field that EN locks. -/
def ringLocked (s : State) (addr v : Nat) : Bool :=
  match ringAt addr with
  | none => false
  | some (r, o) =>
    ringEn s r && (o == 0x00 || o == 0x04 || o == 0x0C || o == 0x10
      || (o == 0x08 && bits v 1 4 != s.fld (ringBase r + 0x08) 1 4))

/-- R41: `HIFx_CTRL`. -/
def ctrlLocked (s : State) (w : Who) (addr : Nat) : Bool :=
  if addr = regAddr (pHif .a 0) 0x08 then w.m != .mp0 || s.ctrlLockA
  else if addr = regAddr (pHif .b 0) 0x08 then w.m != .mp0 || s.ctrlLockB
  else false

/-- Values of a register that armed commits install. -/
def armedVals (s : State) (a : Nat) : List Word :=
  s.commits.flatMap (fun c => c.parts.flatMap (fun p => (p.vals.filter (fun x => x.off == a)).map (fun x => x.val)))

/-- Entry `i` of the gate control entries lies in a list. -/
def inGcl (i base len : Nat) : Bool := decide (base ≤ i ∧ i < base + len)

/-- R284: the entry at INDEX lies in the list in effect, in one that waits for its list boundary, or in one that an
armed commit installs. -/
def gclLocked (s : State) (n : Nat) : Bool :=
  let i := s.fld (regAddr (pEgs n) 0x05C) 0 10
  let e := Tab.get (fun _ => ({} : EgsPort)) s.egress.port n
  inGcl i e.base e.len
  || (match e.install with | some (b, l) => inGcl i b l | none => false)
  || (armedVals s (regAddr (pEgs n) 0x054)).any (fun v => inGcl i (fld v 0 10) (fld v 10 11))

/-- The SA whose CTRL lies at an MSC offset has VALID = 1. -/
def saValid (s : State) (n ctrl : Nat) : Bool := s.bitAt (regAddr (pMsc n) ctrl) 0

/-- R387: a field of an installed SA. A CTRL write with VALID = 0 removes the SA and is not a field write. -/
def saLocked (s : State) (n o v : Nat) : Bool :=
  if 0x080 ≤ o ∧ o < 0x0C0 then
    let c := o / 0x20 * 0x20
    saValid s n c && (if o = c then bit v 0 else true)
  else if 0x0C0 ≤ o ∧ o < 0x0C8 then saValid s n (0x080 + 0x20 * ((o - 0x0C0) / 4))
  else if 0x100 ≤ o ∧ o < 0x280 ∧ 0x20 ≤ (o - 0x100) % 0x60 then
    let c := 0x100 + (o - 0x100) / 0x60 * 0x60 + (o - 0x100) % 0x60 / 0x20 * 0x20
    saValid s n c && (if o = c then bit v 0 else true)
  else false

/-- LOCKED. -/
def locked (s : State) (w : Who) (addr v : Nat) : Bool :=
  let o := addr % 0x1000
  ctrlLocked s w addr || ringLocked s addr v ||
  (match pageOf (addr / 0x1000) with
   | some (.egs n) => o == 0x060 && gclLocked s n
   | some (.can n) =>
     o == 0x0C4 && s.fld (regAddr (pCan n) 0x0C0) 6 1 == (Tab.get (fun _ => ({} : CanChan)) s.buses.can n).bwBank
   | some (.lin n) =>
     o == 0x054 && s.fld (regAddr (pLin n) 0x050) 6 1 == (Tab.get (fun _ => ({} : LinChan)) s.buses.lin n).bank
   | some (.msc n) => saLocked s n o v
   | _ => false)

/-- R116: a pulse setting that PPO cannot run. -/
def ppoRange (s : State) (n v : Nat) : Bool :=
  let per := (s.reg (regAddr pGpio (0x104 + 0x10 * n))).toNat
  let width := bits v 8 16
  (bits v 0 2 == 2 &&
    (if bit v 2 then decide (per ≤ width) else s.pb.rate != 0 && decide (per % 2 ^ 16 * 2 ^ 56 ≤ width * s.pb.rate)))
  || (bits v 0 2 != 0 && !bit v 2 && s.pb.state == .unlocked)

/-- R78: an ACK write that moves backwards, or past `SILT_WR_SEQ` − 1. -/
def ackRange (s : State) (off v : Nat) : Bool :=
  let old := (s.reg (aSilt off)).toNat
  let wr := (s.reg (aSilt 0x048)).toNat
  -- distances ahead of the present ACK, on the ring of 2^32; an ACK of 0xFFFF_FFFF stands before SEQ 0
  decide ((wr + 2 ^ 32 - 1 - old) % 2 ^ 32 < (v + 2 ^ 32 - old) % 2 ^ 32)

/-- VALUE_RANGE causes beyond the register's own range (R584). -/
def valueRangeAt (s : State) (pg : Page) (o v : Nat) : Bool :=
  match pg with
  | .sem => decide (0x040 ≤ o ∧ o < 0x140) && v != 0
  | .silt => if o = 0x050 ∨ o = 0x054 then ackRange s o v else false
  | .gpio => decide (0x100 ≤ o ∧ o < 0x200 ∧ o % 0x10 = 0) && ppoRange s ((o - 0x100) / 0x10) v
  | .can n => o == 0x0C4 && s.bitAt (regAddr (pCan n) 0x0C0) 0 && bits v 30 2 == 0
  | .msc n => o == 0x054 && !saValid s n (0x080 + 0x20 * bits v 0 1)
  | _ => false

/-- R62: a TAIL that names no entry of the ring. -/
def tailRange (s : State) (addr v : Nat) : Bool :=
  match ringAt addr with
  | some (r, o) => o == 0x14 && decide (ringSize s r ≤ v % 2 ^ 12)
  | none => false

/-- VALUE_RANGE. -/
def valueRange (s : State) (d : RegDef) (addr v : Nat) : Bool :=
  !d.ok (v &&& d.mask) || tailRange s addr v ||
  (match pageOf (addr / 0x1000) with
   | some pg => valueRangeAt s pg (addr % 0x1000) v
   | none => false)

/-- WO registers whose accepted write is a logged change: `CAN_AUTH_SET`, which stages a shadow (R53), and `FLT_INJ`
(R519). -/
def loggedCommand (addr : Nat) : Bool := addr == regAddr (pCan 0) 0x0D4 || addr == regAddr pFlt 0x100

/-- Whether an accepted write of this register is logged: RW and RWS registers, but for those that R75 leaves out, and
a `_HI` half, which is only held (R9). Marks: DEDUCED (log entry 17). -/
def writeLogged (d : RegDef) (addr : Nat) : Bool :=
  ((d.ty == .rw || d.ty == .rws) && d.half != .hi && !notLogged addr) || loggedCommand addr

/-- R46: the page and the code of a refusal, the first cause in the order of R46; none when the write is accepted. -/
def checkWrite (s : State) (w : Who) (addr width : Nat) (val : Word) : Option (Nat × Refused) :=
  if windowClosed s w || noSuchRing w addr then some (pSys, .addrReserved)
  else
    match regDef (addr / 4 * 4) with
    | none => some (errPage addr, .addrReserved)
    | some d =>
      let v := val.toNat
      let p := errPage addr
      if width ≠ 4 ∨ addr % 4 ≠ 0 then some (p, .accessWidth)
      else if d.ty = .ro then some (p, .writeRo)
      else if hifForeign w addr then some (p, .hifForeign)
      else if d.sec && !worldSec w then some (p, .worldDenied)
      else if modeDenied s w d addr v then some (p, .modeDenied)
      else if notOwner s w addr v then some (p, .notOwner)
      else if locked s w addr v then some (p, .locked)
      else if valueRange s d addr v then some (p, .valueRange)
      else if isHost w.m && writeLogged d addr && siltFull s then some (p, .siltFull)
      else none

/-- The effect of a write that is accepted, or the record of its refusal. -/
def State.write (s : State) (w : Who) (addr : Nat) (val : Word) (t : State) : State :=
  match checkWrite s w addr 4 val with
  | some (p, r) => s.refuse p r w addr
  | none => t

end Sys2Proof.Machine
end

