-- ==== Sys2Proof/Machine/MemOps.lean ====
section
/-!
DEFINITION. Reads of monitored memory (R32, R494, R515): an armed injection corrupts the next read of its word, or the
read and its repeat. Where the spec does not say at which address of a region an item lies, whether a read touches the
injected word is a free value.
-/
namespace Sys2Proof.Machine
open Sys2Proof

/-- `MEM_ERR_LAST` and `MEM_ERR_ADDR` after an error. -/
def memErr (s : State) (m : InjMark) (repeated scrub : Bool) : State :=
  (s.setReg (regAddr pMem 0x048)
    (w32 (m.region + m.index * 2 ^ 4 + b2n repeated * 2 ^ 16 + b2n scrub * 2 ^ 17 + 2 ^ 31))).setReg
    (regAddr pMem 0x04C) (w32 m.addr)

/-- R502: detail of a memory report: region index and word address. Marks: DESIGN CHOICE (log entry 33). -/
def memDetail (m : InjMark) : List Byte :=
  leBytes 4 (m.region * 2 ^ 12 + m.index) ++ leBytes 4 m.addr ++ List.replicate 8 0

/-- BAR0 offset of an FLT register. -/
def aFlt (off : Nat) : Nat := regAddr pFlt off

/-- BAR0 offset of counter `k` of Table 16-15. -/
def aFltCnt (k : Nat) : Nat := aFlt (0x200 + 8 * k)

/-- Unit ID of a memory (Table 16-4). Marks: DESIGN CHOICE (log entry 33). -/
def memUnit (region index : Nat) : Nat := unitId 5 (region * 2 ^ 12 + index)

/-- R494: a first error that the repeated read repairs. Marks: DESIGN CHOICE (log entry 61). -/
def memReplay (s : State) (m : InjMark) (scrub : Bool) : State :=
  (((memErr s m false scrub).bump (regAddr pMem (0x100 + 0x20 * m.region))).raise pMem 0).report 0x01
    (memUnit m.region m.index) (memDetail m) true

/-- Whether a read of an item of a region meets an injected word: the address is known, or it is a free value.
Marks: DESIGN CHOICE (log entry 33). -/
def memMeets (s : State) (m : InjMark) : Option Nat → Bool
  | some a => a == m.addr
  | none => Config.freeBool s.free

/-- One read of region `r`, index `i`: whether it fails twice (R32). A single error is repaired and counted.
Marks: DESIGN CHOICE (log entry 61). -/
def memRead (s : State) (r i : Nat) (addr : Option Nat) : State × Option InjMark :=
  match s.faults.marks.find? (fun m => m.region == r && m.index == i) with
  | none => (s, none)
  | some m =>
    let hit := memMeets s m addr
    let u := if addr.isNone then s.tick1 else s
    if !hit then (u, none)
    else
      let v := { u with faults := { u.faults with marks := u.faults.marks.erase m } }
      if m.double then (memErr v m true false, some m) else (memReplay v m false, none)

/-- R32: a repeated error with a second source (`MEM_CNT_SECONDr`, REPAIR) or without one (`MEM_CNT_LOSTr`, LOST).
Marks: DESIGN CHOICE (log entry 61). -/
def memRepeated (s : State) (r : Nat) (second : Bool) : State :=
  (s.bump (regAddr pMem (0x100 + 0x20 * r + (if second then 8 else 0x10)))).raise pMem (if second then 0 else 1)

/-- R32: a repeated error for which no rule names a class is reported under R32's own, with region and address.
Marks: DESIGN CHOICE (log entry 61). -/
def memLost (s : State) (m : InjMark) (second : Bool) : State :=
  (memRepeated s m.region second).report 0x01 (memUnit m.region m.index) (memDetail m) true

/-- A read has met a parity error: an injected corruption has acted. -/
def metParity (before after : State) : Bool :=
  decide (after.faults.marks.length < before.faults.marks.length)

end Sys2Proof.Machine
end

