-- ==== Sys2Proof/Machine/FabricOps.lean ====
section
/-!
DEFINITION. Halves, banks, copies and the charges of the packet buffer (spec/08_fabric_and_buffers.md), and the rates
and latency constants of Tables 1-4 and 1-5 (spec/01_architecture.md).
-/
namespace Sys2Proof.Machine
open Sys2Proof

/-! ### Ports and rates -/

/-- State of an external port. -/
def State.mac (s : State) (p : Nat) : MacPort := Tab.get (fun _ => {}) s.ports.mac p

/-- The state with an external port changed. -/
def State.setMac (s : State) (p : Nat) (m : MacPort) : State :=
  { s with ports := { s.ports with mac := Tab.set (fun _ => {}) s.ports.mac p m } }

/-- EGS of a fabric port. -/
def State.egs (s : State) (p : Nat) : EgsPort := Tab.get (fun _ => {}) s.egress.port p

/-- The state with EGS of a fabric port changed. -/
def State.setEgs (s : State) (p : Nat) (e : EgsPort) : State :=
  { s with egress := { s.egress with port := Tab.set (fun _ => {}) s.egress.port p e } }

/-- Rate of a port in Mb/s for the mode in effect (Table 1-4); GWE counts as 10 Gb/s and MGMT as 20 (R246). -/
def portMbps (s : State) (p : Nat) : Nat :=
  if p < 48 then modeMbps (s.mac p).mode
  else if p < 50 then 50000 else if p = 50 then 10000 else 20000

/-- RX constant of a mode (Table 1-4). -/
def rxConst (mode : Nat) : Nat :=
  match mode with
  | 1 => 58 | 2 => 72 | 3 => 88 | 4 => 120 | 5 => 180 | 6 => 196 | 7 => 3520 | 8 => 1480 | _ => 0

/-- TX constant of a mode (Table 1-4). -/
def txConst (mode : Nat) : Nat :=
  match mode with
  | 1 => 101 | 2 => 136 | 3 => 164 | 4 => 212 | 5 => 260 | 6 => 276 | 7 => 1240 | 8 => 760 | _ => 0

/-- FEC adders of Table 1-5, receive. -/
def fecRx (mode fec : Nat) : Nat :=
  if mode = 1 ∧ fec = 2 then 236 else if mode = 1 ∧ fec = 1 then 96 else if mode = 2 ∧ fec = 1 then 219 else 0

/-- FEC adders of Table 1-5, transmit. -/
def fecTx (mode fec : Nat) : Nat :=
  if mode = 1 ∧ fec = 2 then 24 else if (mode = 1 ∨ mode = 2) ∧ fec = 1 then 12 else 0

/-- Cycles that `n` bytes take at a rate, rounded up; 0 at no rate. -/
def byteTime (mbps n : Nat) : Nat := ceilDiv (8000 * n) mbps

/-- BAR0 offset of a BUF register. -/
def aBuf (off : Nat) : Nat := regAddr pBuf off

/-- BAR0 offset of a FAB register. -/
def aFab (off : Nat) : Nat := regAddr pFab off

/-- The slot of the present cycle (R18). -/
def State.slot (s : State) : Nat := s.cclk / 8

/-! ### Frames and queues -/

/-- A frame by its number. -/
def State.frame (s : State) (f : Nat) : Frame := Tab.get (fun _ => {}) s.frames f

/-- The state with a frame changed. -/
def State.setFrame (s : State) (f : Nat) (x : Frame) : State := { s with frames := Tab.set (fun _ => {}) s.frames f x }

/-- R26: cycles by which a parity replay between two states delays frame `n`: a free value, up to 32 cycles in all. -/
def addedReplay (before s : State) (n : Nat) : Nat :=
  if metParity before s then Config.freeNat s.free % (33 - (before.frame n).replay) else 0

/-- R26: a frame whose handling includes a parity replay, between two states, is counted once. -/
def noteReplay (before s : State) (n : Nat) : State :=
  if !metParity before s then s
  else
    let f := before.frame n
    let t := s.setFrame n { s.frame n with replayed := true, replay := f.replay + addedReplay before s n }
    (if f.replayed then t else t.bump (aFltCnt 5)).tick1

/-- R26, R405: a block of a frame is recomputed in a pipe: its later bytes move by at most 32 cycles, a free value. -/
def pipeDelay (s : State) (n : Nat) : State :=
  let f := s.frame n
  let t := s.setFrame n { f with replayed := true }
  (if f.replayed then t else t.bump (aFltCnt 5)).tick1

/-- R236: bytes stored of a frame. -/
def storedLen (f : Frame) : Nat := if f.hasFcs then f.bytes.length - 4 else f.bytes.length

/-- Bytes of a frame as it crossed the MII, or entered PRS on an internal port, FCS included: L of R21. -/
def lineLen (f : Frame) : Nat := max f.lineLen f.bytes.length

/-- R237: halves of a frame. -/
def halvesOf (f : Frame) : Nat := ceilDiv (storedLen f) 32

/-- Queue `q` of a port. -/
def State.queue (s : State) (p q : Nat) : List Copy := Tab.get (fun _ => []) s.fab.queues (8 * p + q)

/-- The state with a queue changed. -/
def State.setQueue (s : State) (p q : Nat) (l : List Copy) : State :=
  { s with fab := { s.fab with queues := Tab.set (fun _ => []) s.fab.queues (8 * p + q) l } }

/-- The state with one copy of a queue changed. -/
def State.setCopy (s : State) (p q f : Nat) (g : Copy → Copy) : State :=
  s.setQueue p q ((s.queue p q).map (fun c => if c.frame = f then g c else c))

/-- The copies of a port, queue by queue. -/
def portCopies (s : State) (p : Nat) : List (Nat × Copy) :=
  (List.range 8).flatMap (fun q => (s.queue p q).map (fun c => (q, c)))

/-- Whether any queue holds a copy of a frame. -/
def frameHeld (s : State) (f : Nat) : Bool := s.fab.queues.any (fun x => x.2.any (fun c => c.frame == f))

/-- A frame that no copy needs leaves the buffer. -/
def retireFrame (s : State) (f : Nat) : State :=
  if frameHeld s f then s
  else { (s.setFrame f {}) with fab := { s.fab with
    waiting := s.fab.waiting.filter (fun h => h.frame != f)
    stored := s.fab.stored.filter (fun h => h.frame != f) } }

/-! ### Credits (R282) -/

/-- Units of 2^-24 bit that a credit gains in a cycle at a slope in kb/s. -/
def creditStep (slope : Nat) : Nat := divOpen (slope * 2 ^ 24) 1000000

/-- Credit after `n` cycles of rise: it rises while the queue holds a copy or the credit is negative; an empty queue's
positive credit is 0. -/
def creditRise (c : Int) (held : Bool) (step n : Nat) : Int :=
  if held then c + (step * n : Nat) else min 0 (c + (step * n : Nat))

/-- A shaper setting of an EGS page as it acts now: a committed change acts from the next refill on (R280, R283). -/
def egsVal (s : State) (p off : Nat) : Word :=
  match (s.egs p).old.find? (fun x => x.1 == off) with
  | some x => x.2
  | none => s.reg (regAddr (pEgs p) off)

/-- The credit of a queue brought forward to cycle `t`, with the gate as it stands (R282). -/
def creditNow (s : State) (p q t : Nat) : Int :=
  let e := s.egs p
  let c := Tab.get (fun _ => 0) e.credit q
  let t0 := Tab.get (fun _ => 0) e.creditAt q
  let held := !(s.queue p q).isEmpty
  if t ≤ t0 then c
  else if bit e.gates q then creditRise c held (creditStep (fld (egsVal s p (0x10C + 0x20 * q)) 0 27)) (t - t0)
  else c

/-- Hold a credit as it stands at a cycle. -/
def setCredit (s : State) (p q t : Nat) (c : Int) : State :=
  let e := s.egs p
  s.setEgs p { e with credit := Tab.set (fun _ => 0) e.credit q c, creditAt := Tab.set (fun _ => 0) e.creditAt q t }

/-- Bring the credit of a CBS queue forward to now, before its gate or its occupancy changes. -/
def settleCredit (s : State) (p q : Nat) : State :=
  if s.fld (regAddr (pEgs p) (0x100 + 0x20 * q)) 1 2 ≠ 1 then s
  else setCredit s p q (max s.cclk (Tab.get (fun _ => 0) (s.egs p).creditAt q)) (creditNow s p q s.cclk)

/-- Deficit of a queue (R276). -/
def deficitOf (s : State) (p q : Nat) : Nat := Tab.get (fun _ => 0) (s.egs p).deficit q

/-- The state with a deficit changed. -/
def setDeficit (s : State) (p q d : Nat) : State :=
  let e := s.egs p
  s.setEgs p { e with deficit := Tab.set (fun _ => 0) e.deficit q d }

/-- A copy that is selected and has not started is selected no more: what its selection took returns (Table 9-1). -/
def unselect (s : State) (p q f : Nat) : State :=
  match (s.egs p).sel.find? (fun x => x.frame == f && x.q == q) with
  | none => s
  | some x =>
    let t := setDeficit s p q (deficitOf s p q + x.dwrr)
    let t := t.setEgs p { t.egs p with sel := (t.egs p).sel.filter (fun y => !(y.frame == f && y.q == q)) }
    t.setCopy p q f (fun c => { c with busy := false })

/-- R276: a queue that has become empty has no deficit. -/
def emptied (s : State) (p q : Nat) : State := if (s.queue p q).isEmpty then setDeficit s p q 0 else s

/-- A copy leaves its queue: the halves that no other copy needs are freed (R258, R261). -/
def removeCopy (s : State) (p q f : Nat) : State :=
  let s := unselect (settleCredit s p q) p q f
  let t := emptied (s.setQueue p q ((s.queue p q).filter (fun c => c.frame != f))) p q
  let st := (t.fab.stored.map (fun h =>
      if h.frame = f then { h with need := h.need.filter (fun x => x != p) } else h)).filter (fun h => !h.need.isEmpty)
  retireFrame { t with fab := { t.fab with stored := st } } f

/-! ### Connection patterns and due slots -/

/-- R240: the raw transit from an input group to an output group. -/
def transit (i o : Nat) : Nat := 2 + (i + 16 + 14 - o) % 16

/-- R247: due slot of a half with STAMP `st`, in a copy opened in slot `v` whose half 0 has STAMP `s0`. -/
def dueSlot (st s0 v : Nat) : Nat := max (st + 32) (v + 32 + (st - s0))

/-- R246: W. -/
def openRoom (s : State) (p : Nat) : Nat := max 2 (2 * portMbps s p / 1000)

/-- R244: order of waiting halves: scheduled classes first, then the oldest STAMP, then the lower ingress port. -/
def waitKey (h : WaitHalf) : Nat := ((b2n (!h.sched)) * 2 ^ 40 + h.stamp) * 64 + h.port

/-- The item of a list with the least key; the first one on equal keys. -/
def leastBy {α : Type} (key : α → Nat) : List α → Option α
  | [] => none
  | x :: xs =>
    match leastBy key xs with
    | none => some x
    | some y => if key x ≤ key y then some x else some y

/-! ### Charges (R256 to R260) -/

/-- Reservation of a queue, in halves. -/
def qrsv (s : State) (p q : Nat) : Nat := s.fld (aBuf (0x100 + 4 * (8 * p + q))) 0 16

/-- Reservation of a port, in halves. -/
def prsv (s : State) (p : Nat) : Nat := s.fld (aBuf (0x800 + 4 * p)) 0 16

/-- Halves of a copy that its transmission has consumed by now, a suspended one's earlier fragments included. -/
def sentHalves (s : State) (p : Nat) (c : Copy) : Nat :=
  let e := s.egs p
  match e.tx.filter (fun t => t.frame == c.frame), e.susp.filter (fun t => t.frame == c.frame) with
  | some t, _ => if c.busy then (t.sent + (s.cclk - t.start) * portMbps s p / 8000) / 32 else 0
  | none, some t => t.sent / 32
  | none, none => 0

/-- R258: the charges of a copy that are left, to queue, port and shared pool; sent halves return in the reverse
order. -/
def chargeLeft (s : State) (p : Nat) (c : Copy) : Nat × Nat × Nat :=
  let k := sentHalves s p c
  let rs := min k c.chS
  let rp := min (k - rs) c.chP
  let rq := min (k - rs - rp) c.chQ
  (c.chQ - rq, c.chP - rp, c.chS - rs)

/-- Sum of a component of the charges of a list of copies. -/
def sumCharge (s : State) (p : Nat) (sel : Nat × Nat × Nat → Nat) (l : List Copy) : Nat :=
  (l.map (fun c => sel (chargeLeft s p c))).sum

/-- Halves charged to a queue's reservation, its excess over a shrunk reservation included (R260). -/
def usedQ (s : State) (p q : Nat) : Nat := sumCharge s p (fun x => x.1) (s.queue p q)

/-- Halves charged to a port's reservation, with the excess of its queues. -/
def usedP (s : State) (p : Nat) : Nat :=
  ((List.range 8).map (fun q => sumCharge s p (fun x => x.2.1) (s.queue p q) + (usedQ s p q - qrsv s p q))).sum

/-- Ports that hold copies. -/
def busyPorts (s : State) : List Nat := (s.fab.queues.map (fun x => x.1 / 8)).eraseDups

/-- Halves charged to the shared pool, with the excess of the ports. -/
def usedShared (s : State) : Nat :=
  ((busyPorts s).map (fun p =>
    ((List.range 8).map (fun q => sumCharge s p (fun x => x.2.2) (s.queue p q))).sum + (usedP s p - prsv s p))).sum

/-- Retired halves (R496). -/
def retiredHalves (s : State) : Nat :=
  ((List.range 32).map (fun b => s.fld (regAddr pMem (0x060 + 4 * b)) 0 16)).sum

/-- All reservations. -/
def allReserved (view : Nat → Word) : Nat :=
  ((List.range 416).map (fun i => fld (view (aBuf (0x100 + 4 * i))) 0 16)).sum
  + ((List.range 52).map (fun p => fld (view (aBuf (0x800 + 4 * p))) 0 16)).sum

/-- `BUF_SHARED`: what the reservations and the retired halves leave of 655,360 halves. -/
def sharedSize (s : State) : Nat := 655360 - allReserved s.reg - retiredHalves s

/-- R257: the charge of `n` halves for queue `q` of port `p`, or none when step 3 cannot take its part. -/
def chargeFor (s : State) (p q n : Nat) : Option (Nat × Nat × Nat) :=
  let a := min n (qrsv s p q - usedQ s p q)
  let b := min (n - a) (prsv s p - usedP s p)
  let c := n - a - b
  if c = 0 then some (a, b, 0)
  else
    let free := sharedSize s - usedShared s
    let qs := sumCharge s p (fun x => x.2.2) (s.queue p q)
    if (qs + c) * 16 ≤ free * 2 ^ s.fld (aBuf 0x040) 0 3 then some (a, b, c) else none

/-! ### Forwarding mode (R24, R252) -/

/-- The ingress SecY's decryption policy requires store-and-forward: below 5 Gb/s (R392), or CT_DEC = 0 (R393). -/
def secForcesSf (s : State) (f : Frame) : Bool :=
  f.macsecRx && decide (f.port < 48) && (decide (f.mbps < 5000) || !s.bitAt (regAddr (pMsc f.port) 0x040) 8)

/-- R24, R156: store-and-forward is forced for the copy to port `p`. -/
def forcedSf (s : State) (f : Frame) (p : Nat) : Bool :=
  decide (f.mbps < portMbps s p) || p == 50 || secForcesSf s f || f.parse.rv.deep

/-- R252: the copy to port `p` is cut-through. -/
def copyCt (s : State) (f : Frame) (p tc : Nat) : Bool :=
  !forcedSf s f p && s.bitAt (aFab (0x080 + 4 * (f.port / 4))) (8 * (f.port % 4) + tc)

/-- TC of the copy to a port (R222). -/
def copyTcOf (f : Frame) (p : Nat) : Nat :=
  match f.copyTc.find? (fun x => x.1 == p) with
  | some x => x.2
  | none => f.tc

/-- R258: halves charged for a copy when it is decided. -/
def copyCharge (s : State) (f : Frame) (ct : Bool) : Nat :=
  if !ct then halvesOf f
  else if f.port < 48 then ceilDiv (s.fld (regAddr (pMac f.port) 0x044) 0 14 - 4) 32 else 288

/-- Whether BUF refuses every copy for a port: the port is marked down, and not merely being flushed (R259, R261). -/
def portDown (s : State) (p : Nat) : Bool := decide (p < 48) && (s.egs p).down

/-- A queue that is disabled, or shed with action DISABLE (R269, R300). -/
def queueOff (s : State) (p q : Nat) : Bool :=
  !s.bitAt (regAddr (pEgs p) (0x100 + 0x20 * q)) 0 ||
  (s.bitAt (regAddr (pEgs p) 0x070) q && !s.bitAt (regAddr (pEgs p) (0x100 + 0x20 * q)) 7)

/-- R259: a refused copy. -/
def refuseCopy (s : State) (p k : Nat) : State := (s.bump (aBuf (0xC00 + 8 * k))).bump (aBuf (0x900 + 8 * p))

/-- BAR0 offset of counter `k` of Table 15-10. -/
def aTwnCnt (k : Nat) : Nat := regAddr pTwn (0x100 + 8 * k)

/-- R465: the role gate is closed and refuses the copy. Until its join completes, a standby forwards nothing (R467). -/
def gateRefuses (s : State) (f : Frame) (p q : Nat) : Bool :=
  !s.twin.gate && p != 51 && f.port != 51
    && (s.fld (regAddr (pEgs p) (0x100 + 0x20 * q)) 3 2 != 3 || (s.twin.role == .standby && s.twin.sync == .joining))

/-- R242, R257, R259: decide the copy of frame `n` for port `p`; true when it is admitted. -/
def decideCopy (s : State) (n : Nat) (f : Frame) (p : Nat) : State × Bool :=
  let q := copyTcOf f p
  let ct := copyCt s f p q
  if gateRefuses s f p q then (s.bump (aTwnCnt 9), false)
  else if s.fab.stopped then (s.bump (regAddr pPwr 0x118), false)
  else if portDown s p then (refuseCopy s p 1, false)
  else if queueOff s p q then (refuseCopy s p 2, false)
  else
    match chargeFor s p q (copyCharge s f ct) with
    | none => (refuseCopy s p 0, false)
    | some (a, b, c) =>
      let t := settleCredit s p q
      let t := t.setQueue p q (s.queue p q ++ [{ frame := n, ct := ct, chQ := a, chP := b, chS := c }])
      (if forcedSf s f p then t.bump (aFab 0x148) else t, true)

/-- R242: the copies of a frame, ascending by port; the state, and whether some were admitted and some refused. -/
def decideCopies (s : State) (n : Nat) (f : Frame) : List Nat → State × Bool × Bool
  | [] => (s, false, false)
  | p :: ps =>
    let (t, ok) := decideCopy s n f p
    let (u, a, r) := decideCopies t n f ps
    (u, a || ok, r || !ok)

/-- R242, R259: admission of a frame before its first half is ready. -/
def admitFrame (s : State) (n : Nat) : State :=
  let f := s.frame n
  let (t, a, r) := decideCopies s n f (setBitsOf 52 f.set)
  let t := if a && r then t.bump (aBuf 0xC18) else t
  let ct := (setBitsOf 52 f.set).any (fun p => (t.queue p (copyTcOf f p)).any (fun c => c.frame == n && c.ct))
  if a then t.setFrame n { f with admitted := true, cutThrough := ct, sched := s.bitAt (aFab 0x044) f.tc }
  else t.setFrame n {}

/-- FREE of `BUF_STAT`: halves not stored. -/
def freeHalves (s : State) : Nat := 655360 - s.fab.stored.length

/-- Table 8-6: POOL_LOW while FREE is below `BUF_LOW`. -/
def poolLow (s : State) : Bool := decide (freeHalves s < s.fld (aBuf 0x050) 0 20)

/-- Raise POOL_LOW when its condition holds. -/
def checkPool (s : State) : State := if poolLow s then s.raise pBuf 0 else s

/-! ### Earliest start (R20, R21, R23) -/

/-- Earliest start E of a copy: the frame's arrival plus the path constant of R20 or R21 from the MII boundary to the
first byte at the MAC, with the receive adder of an enabled SecY (Table 1-5) and what parity replays add (R26). -/
def earliestStart (f : Frame) (c : Copy) : Nat :=
  f.rx + (if c.ct then ceilDiv 512000 f.mbps else byteTime f.mbps (lineLen f)) + 460 + (if f.secOn then 48 else 0)
    + f.replay

end Sys2Proof.Machine
end

