-- ==== Sys2Proof/Machine/Fabric.lean ====
section
/-!
DEFINITION. The packet buffer and the fabric, slot by slot (spec/08_fabric_and_buffers.md, R241 to R263).
-/
namespace Sys2Proof.Machine
open Sys2Proof

/-! ### Halves become ready -/

/-- The cycle after which a cell of a frame is complete: policy's handover, and its last byte at the MII (R241). -/
def cellPresent (f : Frame) (k : Nat) : Nat :=
  max f.decidedAt (f.rx + byteTime f.mbps (min (32 * (k + 2)) (storedLen f) + f.tag))

/-- R241: whether the next cell of a frame can become ready in this slot. -/
def cellDue (s : State) (f : Frame) : Bool :=
  let k := f.stamps.length
  f.stage == .decided && !f.dropped && f.set != 0 && s.fab.ready && decide (k < halvesOf f)
  && decide (cellPresent f k + 9 ≤ 8 * s.slot)
  && (match f.stamps.getLast? with
      | some t => decide (t < s.slot)
      | none => true)

/-- R258: at the EOF half the charges of a frame's copies fall to its actual halves. -/
def trimCharge (n : Nat) (c : Copy) : Copy :=
  let excess := c.chQ + c.chP + c.chS - n
  let ds := min excess c.chS
  let dp := min (excess - ds) c.chP
  { c with chS := c.chS - ds, chP := c.chP - dp, chQ := c.chQ - (excess - ds - dp) }

/-- The waiting halves of the next cell of frame `n`. -/
def cellHalves (s : State) (n : Nat) (f : Frame) : List WaitHalf :=
  let k := f.stamps.length
  let lone := decide (halvesOf f ≤ k + 1)
  let mk (j : Nat) : WaitHalf :=
    { frame := n, half := j, stamp := s.slot, sched := f.sched, port := f.port,
      group := portGroup f.port, lone := lone }
  if lone then [mk k] else [mk k, mk (k + 1)]

/-- R241: the next cell of an admitted frame is ready. -/
def cellReady (s : State) (n : Nat) : State :=
  let f := s.frame n
  let hs := cellHalves s n f
  let t := s.setFrame n { f with stamps := f.stamps ++ hs.map (fun _ => s.slot) }
  let t := { t with fab := { t.fab with waiting := t.fab.waiting ++ hs } }
  if f.stamps.length + hs.length = halvesOf f then
    { t with fab := { t.fab with queues := t.fab.queues.map (fun x =>
        (x.1, x.2.map (fun c => if c.frame = n then trimCharge (halvesOf f) c else c))) } }
  else t

/-- R241, R242: admission before the first half, then the next cell. -/
def halfReadyEvent (s : State) (n : Nat) : State :=
  if !cellDue s (s.frame n) then s
  else if (s.frame n).admitted then cellReady s n
  else
    let t := admitFrame s n
    if (t.frame n).admitted then cellReady t n else t

/-- HALF_READY. -/
def execHalfReady (f : Nat) (s : State) : Result := .next (halfReadyEvent s f)

/-! ### The input link -/

/-- R244: a lone unscheduled half of a group has waited LONE_WAIT slots. -/
def loneExpired (s : State) (g : Nat) (h : WaitHalf) : Bool :=
  h.group == g && h.lone && !h.sched && decide (h.stamp + s.fld (aFab 0x040) 0 3 ≤ s.slot)

/-- LONE_WAIT_EXPIRE. -/
def execLoneWaitExpire (g : Nat) (s : State) : Result :=
  ifWf (groupOk g)
    { s with fab := { s.fab with waiting := s.fab.waiting.map (fun h =>
        if loneExpired s g h then { h with alone := true } else h) } }

/-- Lone halves of a group other than one. -/
def otherLone (s : State) (g : Nat) (h : WaitHalf) : Option WaitHalf :=
  leastBy (fun x => x.stamp)
    (s.fab.waiting.filter (fun x => x.group == g && x.lone && decide (x.stamp ≤ s.slot) && (x.frame != h.frame)))

/-- R244: what a group's input link carries in this slot: S0 and S1. -/
def linkChoice (s : State) (g : Nat) : Option (WaitHalf × Option WaitHalf) :=
  let cand := s.fab.waiting.filter (fun h => h.group == g && decide (h.stamp ≤ s.slot) &&
    (!h.lone || h.sched || h.alone || (otherLone s g h).isSome))
  match leastBy waitKey cand with
  | none => none
  | some h =>
    if h.lone then some (h, otherLone s g h)
    else some (h, s.fab.waiting.find? (fun x => x.frame == h.frame && x.half == h.half + 1))

/-- Ports whose copies still need a half of a frame. -/
def needOf (s : State) (n : Nat) : List Nat :=
  (s.fab.queues.filter (fun x => x.2.any (fun c => c.frame == n))).map (fun x => x.1 / 8)

/-- One half is stored in the bank of this slot (R239). -/
def storeHalf (s : State) (g : Nat) (side : Bool) (h : WaitHalf) : State :=
  let need := needOf s h.frame
  let w := s.fab.waiting.filter (fun x => !(x.frame == h.frame && x.half == h.half))
  let st : List StoredHalf :=
    if need.isEmpty then []
    else [{ frame := h.frame, half := h.half, bank := (g + s.slot) % 16, side := side, slot := s.slot,
            need := need, sched := h.sched }]
  let t := { s with fab := { s.fab with waiting := w, stored := s.fab.stored ++ st } }
  let t := t.bump (aFab 0x100)
  let wait := s.slot - h.stamp
  if t.fld (aFab 0x048) 0 8 < wait then t.setFld (aFab 0x048) 0 8 (min 255 wait) else t

/-- R244: one slot of a group's input link. -/
def linkWrite (s : State) (g : Nat) : State :=
  match linkChoice s g with
  | none => s
  | some (a, b) =>
    let t := storeHalf s g false a
    let t := match b with
      | some h => storeHalf t g true h
      | none => t
    let t := if a.lone then t.bump (aFab (if b.isSome then 0x110 else 0x118)) else t
    checkPool { t with fab := { t.fab with
      linkSlot := Tab.set (fun _ => 0) t.fab.linkSlot g (s.slot + 1) } }

/-- INPUT_LINK_WRITE: at most once a slot. -/
def execInputLinkWrite (g : Nat) (s : State) : Result :=
  ifWf (groupOk g)
    (whenever (Tab.get (fun _ => 0) s.fab.linkSlot g != s.slot + 1) s (linkWrite s g))

/-! ### Copies open -/

/-- R246: halves of a frame counted for W: those that its length gives. -/
def openHalves (s : State) (p q : Nat) : Nat :=
  (((s.queue p q).filter (fun c => c.open_.isSome)).map (fun c => halvesOf (s.frame c.frame))).sum

/-- R246: the oldest unopened copy of a queue opens when its half 0 becomes ready, or when the open copies leave room
under W halves. -/
def copyOpens (s : State) (p q : Nat) : State :=
  match (s.queue p q).find? (fun c => c.open_.isNone) with
  | none => s
  | some c =>
    let now := (s.frame c.frame).stamps.head? == some s.slot
    if now || decide (openHalves s p q < openRoom s p) then
      s.setCopy p q c.frame (fun c => { c with open_ := some s.slot })
    else s

/-- COPY_OPEN. -/
def execCopyOpen (port q : Nat) (s : State) : Result := ifWf (portOk port && queueOk q) (copyOpens s port q)

/-! ### The output link -/

/-- STAMP of a half of a frame. -/
def stampOf (f : Frame) (k : Nat) : Nat := (f.stamps[k]?).getD 0

/-- Due slot of half `k` of a copy (R247). -/
def copyDue (s : State) (c : Copy) (k : Nat) : Nat :=
  let f := s.frame c.frame
  dueSlot (stampOf f k) (stampOf f 0) (c.open_.getD 0)

/-- A half of the bank that output group `g` visits, for an open copy: the half, port, queue and copy. -/
def readable (s : State) (g : Nat) (side : Bool) : List (StoredHalf × Nat × Nat × Copy) :=
  (s.fab.stored.filter (fun h => h.bank == (g + s.slot) % 16 && h.side == side && decide (h.slot + 2 ≤ s.slot))).flatMap
    (fun h => (h.need.filter (fun p => portGroup p == g)).flatMap (fun p =>
      (List.range 8).flatMap (fun q =>
        ((s.queue p q).filter (fun c => c.frame == h.frame &&
          (match c.open_ with | some v => decide (v ≤ s.slot) | none => false))).map (fun c => (h, p, q, c)))))

/-- R248: scheduled classes, then the earliest due slot, then the lower port. -/
def readKey (s : State) (x : StoredHalf × Nat × Nat × Copy) : Nat :=
  (b2n (!x.1.sched) * 2 ^ 40 + copyDue s x.2.2.2 x.1.half) * 64 + x.2.1

/-- R248: whether the winner of a side may be read: a full cell only when both of its halves win. -/
def pairWins (s : State) (x : StoredHalf × Nat × Nat × Copy) (other : Option (StoredHalf × Nat × Nat × Copy)) : Bool :=
  let partner := if x.1.half % 2 = 0 then x.1.half + 1 else x.1.half - 1
  if halvesOf (s.frame x.1.frame) ≤ partner then true
  else
    match other with
    | some y => y.1.frame == x.1.frame && y.1.half == partner && y.2.1 == x.2.1
    | none => false

/-- R250: a late half is counted and recorded. -/
def countLate (s : State) (ig g p : Nat) (sched : Bool) (late : Nat) : State :=
  let t := s.bump (aFab 0x120)
  let t := t.setReg (aFab 0x04C)
    (w32 (ig + g * 2 ^ 4 + p * 2 ^ 8 + b2n sched * 2 ^ 14 + min 0xFFFF late * 2 ^ 16))
  let t := if t.fld (aFab 0x048) 8 16 < late then t.setFld (aFab 0x048) 8 16 (min 0xFFFF late) else t
  if sched then (t.bump (aFab 0x128)).raise pFab 0 else t

/-- R496: a half of bank side `b` leaves use. Marks: DEDUCED (log entry 34). -/
def retireHalf (s : State) (b : Nat) : State :=
  let a := regAddr pMem (0x060 + 4 * b)
  let n := s.fld a 0 16
  let t := s.setFld a 0 16 (min 0xFFFF (n + 1))
  if 256 ≤ n then (t.raise pMem 2).report 0x38 (memUnit 0 b) [] false else t

/-- R496: halves marked for retirement whose store is free again. Marks: DEDUCED (log entry 34). -/
def settleRetiring (s : State) : State :=
  let free (x : Nat × Nat) : Bool := !s.fab.stored.any (fun h => h.frame * 512 + h.half == x.2)
  (s.faults.retiring.filter free).foldl (fun t x => retireHalf t x.1)
    { s with faults := { s.faults with retiring := s.faults.retiring.filter (fun x => !free x) } }

/-- R128, R590: a frame cut after `k` bytes ends with the inverted FCS of the bytes sent. -/
def stompedBytes (bytes : List Byte) (k : Nat) : List Byte :=
  let sent := bytes.take (min k (bytes.length - 4))
  sent ++ leBytes 4 (complement 32 (crc32 sent))

/-- R590: frame bytes that leave before stored half `k` of a copy: the edits lie ahead of the later halves. -/
def bytesBefore (t : TxRun) (k : Nat) : Nat := if k = 0 then 0 else ((32 * k : Nat) + t.ahead).toNat

/-- R128, R255, R590: the MAC ends the frame on a port's line with the inverted FCS of the bytes sent, before half
`k`. -/
def stompTx (s : State) (p : Nat) (t : TxRun) (k : Nat) : State :=
  let u := s.setEgs p { s.egs p with tx := none }
  let u := (u.setFrame t.frame { u.frame t.frame with stomped := true }).emit
    (.line p ((stompedBytes t.bytes (bytesBefore t k)).drop t.sent) true)
  let u := if p < 48 then u.bump (regAddr (pMac p) 0x150) else u
  removeCopy u p t.q t.frame

/-- R263: a copy that meets a half with a repeated parity error: one that has not begun goes, one that has begun ends with
the inverted FCS. Marks: DEDUCED (log entry 34). -/
def parityDrop (s : State) (p q : Nat) (c : Copy) (k b : Nat) (m : InjMark) : State :=
  let t := ((memRepeated s 0 false).bump (aBuf 0xC28)).raise pBuf 2
  let t := t.report 0x04 (memUnit 0 b) (memDetail m) true
  match (t.egs p).tx.filter (fun x => x.frame == c.frame), (t.egs p).susp.filter (fun x => x.frame == c.frame) with
  | some x, _ => stompTx t p x k
  | none, some x =>
    -- a suspended copy ends, when it resumes, with the inverted FCS of what it has sent by then
    let out := stompedBytes x.bytes (max x.sent (bytesBefore x k))
    t.setEgs p { t.egs p with susp := some { x with bytes := out, stomp := true } }
  | none, none => removeCopy t p q c.frame

/-- The half is carried to the copy and leaves the bank when no other copy needs it (R246). -/
def carryHalf (s : State) (p q : Nat) (h : StoredHalf) (c : Copy) : State :=
  let st := (s.fab.stored.map (fun x => if x == h then { x with need := x.need.filter (fun y => y != p) } else x)).filter
    (fun x => !x.need.isEmpty)
  ({ s with fab := { s.fab with stored := st } }).setCopy p q c.frame
    (fun c => { c with carried := c.carried ++ [(h.half, s.slot, false)] })

/-- R248 to R250, R263: one half read for a copy by output group `g`. Marks: DEDUCED (log entry 34). -/
def readHalf (s : State) (g : Nat) (x : StoredHalf × Nat × Nat × Copy) : State :=
  let (h, p, q, c) := x
  let b := 2 * h.bank + b2n h.side
  match memRead s 0 b none with
  | (t, some m) =>
    let t := parityDrop t p q c h.half b m
    settleRetiring { t with faults := { t.faults with retiring := (b, h.frame * 512 + h.half) :: t.faults.retiring } }
  | (t, none) =>
    let due := copyDue s c h.half
    let t := carryHalf t p q h c
    if due ≤ s.slot then countLate t (portGroup (s.frame h.frame).port) g p h.sched (s.slot + 1 - due) else t

/-- R248: one slot of an output group. -/
def groupRead (s : State) (g : Nat) : State :=
  let a := leastBy (readKey s) (readable s g false)
  let b := leastBy (readKey s) (readable s g true)
  let t := match a with
    | some x => if pairWins s x b then readHalf s g x else s
    | none => s
  let t := match b with
    | some y => if pairWins s y a then readHalf t g y else t
    | none => t
  { t with fab := { t.fab with readSlot := Tab.set (fun _ => 0) t.fab.readSlot g (s.slot + 1) } }

/-- HALF_READ: at most once a slot. -/
def execHalfRead (g : Nat) (s : State) : Result :=
  ifWf (groupOk g)
    (whenever (Tab.get (fun _ => 0) s.fab.readSlot g != s.slot + 1) s (groupRead s g))

/-! ### The resequencer -/

/-- R249, R250: whether the next half of a copy can be handed on in this slot. -/
def releaseNow (s : State) (c : Copy) : Bool :=
  let k := c.released.length
  match c.carried.find? (fun x => x.1 == k) with
  | none => false
  | some x => decide (max (copyDue s c k) (x.2.1 + 1) ≤ s.slot) && decide (c.notBefore ≤ s.slot)

/-- One half of the copy of frame `f` is released. -/
def releaseOne (p q f : Nat) (s : State) : State :=
  match (s.queue p q).find? (fun c => c.frame == f) with
  | none => s
  | some c =>
    if !releaseNow s c then s
    else
      let k := c.released.length
      let r := match c.carried.find? (fun x => x.1 == k) with | some x => x.2.1 | none => 0
      (s.setCopy p q f (fun c => { c with
        released := c.released ++ [k]
        notBefore := if copyDue s c k ≤ r then max c.notBefore (r + 1) else c.notBefore })).bump (aFab 0x108)

/-- EGS has started the copy of frame `f` on a port: it is in transmission or suspended. -/
def begun (s : State) (p f : Nat) : Bool :=
  (s.egs p).tx.any (fun x => x.frame == f) || (s.egs p).susp.any (fun x => x.frame == f)

/-- R128, R253: a copy whose EOF half carries ERR goes without transmission unless EGS has started it. -/
def dropErrCopy (p q f : Nat) (s : State) : State :=
  match (s.queue p q).find? (fun c => c.frame == f) with
  | none => s
  | some c =>
    if !begun s p f && (s.frame f).err && c.released.length == halvesOf (s.frame f) then removeCopy s p q f else s

/-- R249: every half of a copy that is due in this slot, in HALF order. -/
def releaseCopy (p q f : Nat) (s : State) : State :=
  dropErrCopy p q f ((List.range 288).foldl (fun t _ => releaseOne p q f t) s)

/-- The copies of a queue in their turn. -/
def releaseQueue (s : State) (p q : Nat) : State :=
  (s.queue p q).foldl (fun t c => releaseCopy p q c.frame t) s

/-- HALF_RELEASE. -/
def execHalfRelease (port q : Nat) (s : State) : Result := ifWf (portOk port && queueOk q) (releaseQueue s port q)

/-! ### Underrun and flush -/

/-- R255: a cut-through copy on the line whose next half was needed by now and is not released. -/
def underrun (s : State) (p : Nat) : Option (TxRun × Nat) :=
  match (s.egs p).tx with
  | none => none
  | some t =>
    match (s.queue p t.q).find? (fun c => c.frame == t.frame) with
    | none => none
    | some c =>
      let k := c.released.length
      if c.ct ∧ k < halvesOf (s.frame t.frame) ∧ t.start + byteTime (portMbps s p) (bytesBefore t k - t.sent) ≤ s.cclk then
        some (t, k)
      else none

/-- TX_UNDERRUN (R255). -/
def execTxUnderrun (port : Nat) (s : State) : Result :=
  ifWf (portOk port)
    (match underrun s port with
     | some (t, k) => ((stompTx s port t k).bump (aFab 0x130)).raise pFab 1
     | none => s)

/-- Table 8-3: a flush begins: the port's bit is set, and every copy that its queues hold is to go. A selected copy does not
start, a suspended frame is lost (R295). -/
def startFlush (s : State) (p : Nat) : State :=
  let t := ((s.egs p).sel).foldl (fun u x => unselect u p x.q x.frame) s
  let t := t.setEgs p { t.egs p with susp := none }
  { t with fab := { t.fab with
      flushing := t.fab.flushing ||| 2 ^ p
      flushAt := Tab.set (fun _ => 0) t.fab.flushAt p (if (portCopies t p).isEmpty then t.cclk + 1 else 0)
      queues := t.fab.queues.map (fun x =>
        if x.1 / 8 = p then (x.1, x.2.map (fun c => { c with flush := true, busy := false })) else x) } }

/-- Copies of a port that its flush has still to remove, TC7 first, oldest first: queue and frame. -/
def flushLeft (s : State) (p : Nat) : List (Nat × Nat) :=
  [7, 6, 5, 4, 3, 2, 1, 0].flatMap (fun q => ((s.queue p q).filter (fun c => c.flush)).map (fun c => (q, c.frame)))

/-- Table 8-3: one copy goes in a cycle; the cycle of the last one is noted. -/
def flushNext (s : State) (p : Nat) : State :=
  match flushLeft s p with
  | [] => { s with fab := { s.fab with flushAt := Tab.set (fun _ => 0) s.fab.flushAt p (s.cclk + 1) } }
  | x :: rest =>
    let t := (removeCopy s p x.1 x.2).bump (aBuf 0xC20)
    if rest.isEmpty then { t with fab := { t.fab with flushAt := Tab.set (fun _ => 0) t.fab.flushAt p (t.cclk + 1) } } else t

/-- The copies of a flush have gone: 0 while some are left, else the cycle of the last one, plus 1. -/
def flushedAt (s : State) (p : Nat) : Nat := if (flushLeft s p).isEmpty then Tab.get (fun _ => 0) s.fab.flushAt p else 0

/-- Table 8-3: the end of a flush. -/
def endFlush (s : State) (p : Nat) : State :=
  ({ s with fab := { s.fab with flushing := s.fab.flushing ^^^ 2 ^ p, flushAt := Tab.set (fun _ => 0) s.fab.flushAt p 0 } }).raise
    pBuf 1

/-- Table 8-3: one cycle of a port's flush, which ends 256 cycles after its last removal at the latest. -/
def flushStep (s : State) (p : Nat) : State :=
  if !bit s.fab.flushing p then s
  else if flushedAt s p = 0 then flushNext s p
  else if flushedAt s p + 255 ≤ s.cclk then endFlush s p else s

/-- FLUSH_DONE. -/
def execFlushDone (port : Nat) (s : State) : Result :=
  ifWf (portOk port)
    (whenever (bit s.fab.flushing port && flushedAt s port != 0) s (endFlush s port))

end Sys2Proof.Machine
end

