-- ==== Sys2Proof/Machine/KeyOps.lean ====
section
/-!
DEFINITION. Key slots, their checks and generations, the key derivation function and the OTP
(spec/14_keys_and_lifecycle.md, R418 to R451).
-/
namespace Sys2Proof.Machine
open Sys2Proof

/-- BAR0 offset of a register of KEY page 0. -/
def aKey (off : Nat) : Nat := regAddr (pKey 0) off

/-- BAR0 offset of counter `k` of KEY page 1. -/
def aKeyCnt (k : Nat) : Nat := regAddr (pKey 1) (0x100 + 8 * k)

/-- A key slot. -/
def State.keySlot (s : State) (k : Nat) : KeySlot := Tab.get (fun _ => {}) s.keys.slots k

/-- The state with a key slot changed. -/
def State.setKeySlot (s : State) (k : Nat) (x : KeySlot) : State :=
  { s with keys := { s.keys with slots := Tab.set (fun _ => {}) s.keys.slots k x } }

/-! ### OTP and lifecycle -/

/-- `n` OTP bytes from `o`. -/
def otpBytes (s : State) (o n : Nat) : List Byte := (List.range n).map (fun i => otpByte s.nvm (o + i))

/-- Program bits of an OTP byte. Marks: DESIGN CHOICE (log entry 48). -/
def otpProgram (s : State) (i : Nat) (v : Byte) : State :=
  { s with nvm := { s.nvm with otp := Tab.set (fun _ => 0) s.nvm.otp i (Tab.get (fun _ => 0) s.nvm.otp i ||| v) } }

/-- UID. -/
def State.uid (s : State) : List Byte := uidBytes s.nvm

/-- `LC_STAT.STATE` (Table 14-10): 0 MANUFACTURE, 1 FIELD, 2 RETURN, 3 SCRAP. -/
def lcState (s : State) : Nat :=
  let b := (otpByte s.nvm 0xA8).toNat
  if bit b 2 then 3 else if bit b 1 then 2 else if bit b 0 then 1 else 0

/-! ### Attribute words (Table 14-3) -/

/-- VALID. -/
def keyValid (x : KeySlot) : Bool := bit x.attr.toNat 0

/-- TYPE. -/
def keyType (x : KeySlot) : Nat := fld x.attr 1 3

/-- Bytes of a key of a type. -/
def keyBytes : Nat → Nat
  | 1 => 16 | 2 => 32 | 3 => 32 | 4 => 48 | 5 => 32 | 6 => 48 | _ => 0

/-- Requesters of MASTER, by bit. -/
inductive KeyUser where
  | ha | hb | mp0 | mp1 | inline_ | gwe
deriving DecidableEq, Repr

/-- Bit of a requester in MASTER. -/
def keyUserBit : KeyUser → Nat
  | .ha => 4 | .hb => 5 | .mp0 => 6 | .mp1 => 7 | .inline_ => 8 | .gwe => 9

/-- Usage bits. -/
def uENC : Nat := 16
/-- DEC. -/
def uDEC : Nat := 17
/-- MAC. -/
def uMAC : Nat := 18
/-- WRAP. -/
def uWRAP : Nat := 19
/-- SIGN. -/
def uSIGN : Nat := 20
/-- AGREE. -/
def uAGREE : Nat := 21
/-- MACSEC. -/
def uMACSEC : Nat := 22
/-- DERIVE. -/
def uDERIVE : Nat := 23
/-- KUM_AUTH. -/
def uKUM : Nat := 24

/-- R426: the slot is usable in the present lifecycle state. -/
def keyLc (s : State) (k : Nat) (x : KeySlot) : Bool :=
  match lcState s with
  | 0 => bit x.attr.toNat 11
  | 1 => bit x.attr.toNat 12
  | 2 => k == 0
  | _ => false

/-- R426: a slot permits a request by a requester, with a WORLD, for a usage. -/
def keyPermits (s : State) (k : Nat) (u : KeyUser) (sec : Bool) (use : Nat) : Bool :=
  let x := s.keySlot k
  let a := x.attr.toNat
  bit a (keyUserBit u) && (!bit a 10 || sec) && keyLc s k x && bit a use

/-- R430: every ancestor is valid and at the generation that its child recorded; at most 4 links. -/
def ancestorsOk (s : State) : Nat → Nat → Bool
  | 0, _ => true
  | n + 1, k =>
    let x := s.keySlot k
    if bit x.link.toNat 15 then
      let p := fld x.link 0 10
      keyValid (s.keySlot p) && (s.keySlot p).gen == fld x.link 16 16 && ancestorsOk s n p
    else true

/-- Slots above a slot, nearest first; at most `n`. -/
def ancestors (s : State) : Nat → Nat → List Nat
  | 0, _ => []
  | n + 1, k =>
    let x := s.keySlot k
    if bit x.link.toNat 15 then fld x.link 0 10 :: ancestors s n (fld x.link 0 10) else []

/-- Valid slots, as `KEY_STAT` counts them. -/
def validSlots (s : State) : Nat := (s.keys.slots.filter (fun x => keyValid x.2)).length

/-! ### Changes of a slot -/

/-- R332, R333: authentication entries that name a slot restart under its new generation. -/
def authGenChange (s : State) (k : Nat) : State :=
  let g := (s.keySlot k).gen
  let hit := s.buses.auth.filter (fun x => x.2.key == k && (x.2.valid || x.2.last != 0))
  hit.foldl (fun t x =>
    let e := { x.2 with last := 0, gen := g, rsv := if x.2.rx then x.2.rsv else 2 ^ 16 }
    let t : State := { t with buses := { t.buses with auth := Tab.set (fun _ => {}) t.buses.auth x.1 e } }
    if x.2.rx then t
    else { t with nvm := { t.nvm with fvRsv := Tab.set (fun _ => 0) t.nvm.fvRsv x.1 (2 ^ 16) } }) s

/-- R429, R430: one change cycle of a slot: GEN advances and TXUSED returns to 0. -/
def changeSlot (s : State) (k : Nat) (f : KeySlot → KeySlot) : State :=
  let x := f (s.keySlot k)
  authGenChange (s.setKeySlot k { x with gen := min 0xFFFF (x.gen + 1), attr := clrBit x.attr 14 }) k

/-- R429: a slot made invalid; its key is gone. -/
def invalidSlot (x : KeySlot) : KeySlot := { x with attr := clrBit x.attr 0, key := [] }

/-- R427: the blob of a slot is erased. Marks: DESIGN CHOICE (log entry 48). -/
def eraseBlob (s : State) (k : Nat) : State :=
  { s with nvm := { s.nvm with blobs := Tab.set (fun _ => none) s.nvm.blobs k none } }

/-- R427: a slot with PERSIST = 1 is written to NVM. Marks: DESIGN CHOICE (log entry 48). -/
def writeBlob (s : State) (k : Nat) : State :=
  let x := s.keySlot k
  if bit x.attr.toNat 13 then
    { s with nvm := { s.nvm with blobs := Tab.set (fun _ => none) s.nvm.blobs k (some x) } }
  else s

/-- R441: the Silt entry of a slot change. -/
def siltKey (s : State) (origin sub k old new : Nat) : State := s.silt_ (w32 old) (w32 new) origin 5 sub k

/-- R412: the admitted requests of a slot whose word failed twice will complete with KEY_PARITY. -/
def spoilRequests (s : State) (k : Nat) : State :=
  { s with cipher := { s.cipher with
      adm := s.cipher.adm.map (fun r => if r.d.key = k then { r with parity := true } else r) } }

/-- R450, R412: a slot word that failed parity twice. -/
def slotParity (s : State) (k : Nat) (m : InjMark) : State :=
  let g := (s.keySlot k).gen
  let t := eraseBlob (changeSlot (spoilRequests (memRepeated s 7 false) k) k invalidSlot) k
  let t := ((t.raise (pKey 0) 1).bump (aKeyCnt 3)).report 0x0B (unitId 9 k) (memDetail m) true
  siltKey t oHw 0x07 k g (t.keySlot k).gen

/-- A use of a slot reads its words (R450): the state, and whether they failed twice. -/
def readSlot (s : State) (k : Nat) : State × Bool :=
  match memRead s 7 0 none with
  | (t, none) => (t, false)
  | (t, some m) => (slotParity t k m, true)

/-! ### Key derivation -/

/-- The PRF of a key's type. -/
def prf (ty : Nat) (key msg : List Byte) : List Byte :=
  if ty = 1 ∨ ty = 2 then beBytes 16 (Config.cmac key msg).toNat
  else if ty = 4 then beBytes 48 (Config.hmac384 key msg).toNat
  else beBytes 32 (Config.hmac256 key msg).toNat

/-- ASCII bytes of a label. -/
def ascii (l : String) : List Byte := l.toList.map (fun c => b8 c.toNat)

/-- Counter-mode KDF of NIST SP 800-108 (Derived keys): type of the key, key, label, context, output bits. -/
def kdf (ty : Nat) (key label ctx : List Byte) (bitsOut : Nat) : List Byte :=
  let n := if ty = 1 ∨ ty = 2 then 128 else if ty = 4 then 384 else 256
  let blk (i : Nat) : List Byte := prf ty key ([b8 (i + 1)] ++ label ++ [0] ++ ctx ++ beBytes 2 bitsOut)
  ((List.range (ceilDiv bitsOut n)).flatMap blk).take (bitsOut / 8)

/-- Order of P-256. -/
def orderP256 : Nat := 0xFFFFFFFF00000000FFFFFFFFFFFFFFFFBCE6FAADA7179E84F3B9CAC2FC632551

/-- Order of P-384. -/
def orderP384 : Nat :=
  0xFFFFFFFFFFFFFFFFFFFFFFFFFFFFFFFFFFFFFFFFFFFFFFFFC7634D81F4372DDF581A0DB248B0A77AECEC196ACCC52973

/-- R421, Table 14-6: a scalar derived with 64 spare bits and reduced, as bytes. -/
def kdfScalar (ty : Nat) (key label ctx : List Byte) (p384 : Bool) : List Byte :=
  let n := if p384 then orderP384 else orderP256
  let len := if p384 then 48 else 32
  beBytes len (beNat (kdf ty key label ctx (8 * len + 64)) % (n - 1) + 1)

end Sys2Proof.Machine
end

