-- ==== Sys2Proof/Machine/PhaseInputs.lean ====
section
/-!
DEFINITION. The reference events of the Phase Base and the GPIO inputs and pulse outputs
(spec/03_phase_base.md, R87 to R116).
-/
namespace Sys2Proof.Machine
open Sys2Proof

/-- BAR0 offset of a GPIO register. -/
def aGpio (off : Nat) : Nat := regAddr pGpio off

/-- A 32-bit register counter advanced by one, wrapping. -/
def State.bump32 (s : State) (a : Nat) : State := s.setReg a (s.reg a + 1)

/-- R87, R98, R99: a NETTIME reference event. Time that is not valid loses the reference (R88); during a join the new
reference does not steer the position (R102). -/
def nettimeEvent (s : State) : State :=
  if s.pb.src ≠ 0 then s
  else if !domValid s (pbDomain s) then pbLoss s
  else if s.pb.state = .unlocked then
    pbInitialLoad s (BitVec.ofNat 64 (nettimePos s (s.dom (pbDomain s)).time)) s.cclk
  else if s.pb.join then s
  else pbRefEvent s s.cclk (BitVec.ofNat 64 (nettimeNow s)) (BitVec.ofNat 64 (nettimeNext s)) 0

/-- NETTIME_REF_EVENT. -/
def execNettimeRefEvent (s : State) : Result := .next (nettimeEvent s)

/-! ### Ticks -/

/-- FILT of a tick input, as R111 takes it. -/
def tickFilt (s : State) (j : Nat) : Nat := max (s.fld (aGpio (0x340 + 0x10 * j)) 8 8) 4

/-- Saturating distance of two CCLK counts, as the INTERVAL registers show it. -/
def intervalWord (t : Nat) : Option Nat → Word
  | some t0 => w32 (min 0xFFFFFFFF (t - t0))
  | none => 0

/-- R593: the cycle start that a tick at compensated cycle `t` stands for: the one nearest the position, among those
later than the previous tick's. -/
def tickCycle (s : State) (t : Nat) : Nat :=
  let pos := accAt s t / 2 ^ 24
  let near := if pos % 2 ^ 32 < 2 ^ 31 then pos / 2 ^ 32 else pos / 2 ^ 32 + 1
  let last := s.pb.lastP.toNat / 2 ^ 32
  match s.pb.lastT with
  | none => near % 2 ^ 32
  | some _ =>
    if 1 ≤ (near + 2 ^ 32 - last) % 2 ^ 32 ∧ (near + 2 ^ 32 - last) % 2 ^ 32 < 2 ^ 31 then near % 2 ^ 32
    else (last + 1) % 2 ^ 32

/-- R99: one synthetic cycle. -/
def countSynth (s : State) : State := s.bump (aPb 0x100)

/-- R99: what a tick for the start of cycle `c` at compensated cycle `t` marks: the coming boundary, or the one just
crossed, which is synthetic if the position crossed it before `t`. -/
def tickMarks (s : State) (c t : Nat) : State :=
  match s.pb.unmarked with
  | some x =>
    if c = s.cycleNo then
      let u := { s with pb := { s.pb with unmarked := none } }
      if x < t then countSynth u else u
    else { s with pb := { s.pb with marks := s.pb.marks ++ [c] } }
  | none =>
    let ahead := (c + 2 ^ 32 - s.cycleNo) % 2 ^ 32
    if 0 < ahead ∧ ahead < 2 ^ 31 then { s with pb := { s.pb with marks := s.pb.marks ++ [c] } } else s

/-- A position at the end of a cycle, where that of a join waits (R102). -/
def atEnd (acc : Nat) : Bool := decide (acc / 2 ^ 24 % 2 ^ 32 = 0xFFFFFFFF)

/-- The position waits at the end of the cycle of a join. -/
def atCycleEnd (p : PhaseBase) : Bool := atEnd p.acc.toNat

/-- R102: during a join a cycle start of the new reference, at compensated cycle `t`, counts if the current cycle had
ended by then. -/
def joinMarks (s : State) (t : Nat) : State :=
  if atEnd (accAt s t) then { s with pb := { s.pb with joinMark := true, lastT := some t, hist := [] } } else s

/-- The tracker's part of an accepted tick. -/
def tickTracks (s : State) (j t : Nat) : State :=
  if s.pb.src ≠ 1 ∨ b2n s.pb.sel ≠ j then s
  else if s.pb.state = .unlocked then pbInitialLoad s 0 t
  else if s.pb.join then joinMarks s t
  else
    let c := tickCycle s t
    let u := tickMarks s c t
    pbRefEvent u t (BitVec.ofNat 64 (c * 2 ^ 32)) (BitVec.ofNat 64 ((c + 1) * 2 ^ 32)) (tickFilt s j)

/-- R111, R593: an accepted tick; its recorded cycle lies 2 + max(FILT, 4) cycles back. -/
def tickAccept (s : State) (j : Nat) : State :=
  let t := s.cclk - (2 + tickFilt s j)
  let u := s.setReg (aGpio (0x344 + 0x10 * j)) (intervalWord t (Tab.get (fun _ => none) s.gpio.tick j))
  tickTracks { u with gpio := { u.gpio with tick := Tab.set (fun _ => none) u.gpio.tick j (some t) } } j t

/-- TICK_ACCEPTED. -/
def execTickAccepted (j : Nat) (s : State) : Result := ifWf (twoOk j) (tickAccept s j)

/-- TICK_RUNT (R111). -/
def execTickRunt (j : Nat) (s : State) : Result :=
  ifWf (twoOk j) (s.bump32 (aGpio (0x348 + 0x10 * j)))

/-- Table 3-2: no tick within the loss margin. -/
def tickOverdue (s : State) : Bool :=
  match s.pb.lastT with
  | some t => s.pb.src == 1 && !s.pb.join && decide ((100 + s.fld (aPb 0x058) 0 8) * 2 ^ 56 < (s.cclk - t) * s.pb.rate * 100)
  | none => false

/-- TICK_LOSS (Table 3-2). -/
def execTickLoss (s : State) : Result := .next (whenever (tickOverdue s) s (pbLoss s))

/-! ### Encoders -/

/-- `GPIO_ENCm_CFG`. -/
def encCfg (s : State) (m : Nat) : Nat := (s.reg (aGpio (0x300 + 0x20 * m))).toNat

/-- An encoder. -/
def State.enc (s : State) (m : Nat) : Encoder := Tab.get (fun _ => {}) s.gpio.enc m

/-- The state with an encoder changed; `GPIO_ENCm_COUNT` shows its count. -/
def State.setEnc (s : State) (m : Nat) (e : Encoder) : State :=
  { (s.setReg (aGpio (0x304 + 0x20 * m)) (w32 e.count)) with
    gpio := { s.gpio with enc := Tab.set (fun _ => {}) s.gpio.enc m e } }

/-- N of an encoder; its register holds 4 to 65,535. -/
def encN (s : State) (m : Nat) : Nat := bits (encCfg s m) 16 16

/-- CYC = COUNT. -/
def encByCount (s : State) (m : Nat) : Bool := bit (encCfg s m) 1

/-- Compensated cycle of an encoder event. -/
def encTime (s : State) (m : Nat) : Nat := s.cclk - (2 + bits (encCfg s m) 8 8)

/-- The encoder is the Phase Base's reference. -/
def encRef (s : State) (m : Nat) : Bool := s.pb.src == 2 && b2n s.pb.sel == m

/-- Position of count `c` in cycle `cyc` (Table 3-1). -/
def countPos (s : State) (m cyc c : Nat) : Nat := (cyc * 2 ^ 32 + divOpen (c * 2 ^ 32) (encN s m)) % 2 ^ 64

/-- Position of the count expected after count `c` of cycle `cyc`. -/
def countNext (s : State) (m cyc c : Nat) : Nat :=
  if encN s m ≤ c + 1 then (cyc + 1) * 2 ^ 32 % 2 ^ 64 else countPos s m cyc (c + 1)

/-- A reference event at position `p` that gives no rate yet: the event, and the clamp for the one expected next. -/
def encNotes (s : State) (t p nxt : Nat) : State :=
  { s with pb := { s.pb with lastT := some t, lastP := BitVec.ofNat 64 p, clamp := some (clampFor nxt) } }

/-- R97: step mode begins with a forward count. -/
def stepBegins (s : State) : State :=
  let u := pbEnter s .acquire
  { u with pb := { u.pb with step := true, fresh := false } }

/-- R97: the first count after the load or after STANDSTILL is only a position; the second gives the first rate. -/
def encTracks (s : State) (m t p nxt : Nat) (fwd : Bool) : State :=
  let filt := bits (encCfg s m) 8 8
  if s.pb.fresh then encNotes (if fwd then stepBegins s else s) t p nxt
  else
    pbRefEvent { s with pb := { s.pb with step := s.pb.step && !fwd } } t (BitVec.ofNat 64 p) (BitVec.ofNat 64 nxt) filt

/-- The tracker's part of a forward count that brings the encoder to count `c`; `wrap` when it ends the cycle. -/
def countTracks (s : State) (m t c : Nat) (wrap : Bool) : State :=
  if s.pb.state = .unlocked then
    -- under CYC = COUNT the first count makes the load and begins step mode
    if encByCount s m then
      (encNotes (stepBegins (pbInitialLoad s 0 t)) t 0 (countNext s m 0 0)).setEnc m { s.enc m with count := 0 }
    else s
  else if s.pb.join then (if wrap then joinMarks s t else s)
  else
    let cyc := s.pb.lastP.toNat / 2 ^ 32
    if wrap then encTracks s m t ((cyc + 1) * 2 ^ 32 % 2 ^ 64) (countNext s m (cyc + 1) 0) true
    else if encN s m ≤ c then
      -- R89: a count past N - 1 stands for no position of its own; it still ends STANDSTILL (Table 3-2)
      if s.pb.fresh then stepBegins { s with pb := { s.pb with lastT := some t } } else s
    else encTracks s m t (countPos s m cyc c) (countNext s m cyc c) true

/-- R89: a forward count. -/
def encForward (s : State) (m : Nat) : State :=
  let e := s.enc m
  let t := encTime s m
  let wrap := encByCount s m && decide (encN s m ≤ e.count + 1)
  let c := if wrap then 0 else min 65535 (e.count + 1)
  let u := (s.setReg (aGpio (0x310 + 0x20 * m)) (intervalWord t e.lastAt)).setEnc m
    { e with count := c, lastAt := some t }
  if encRef s m then countTracks u m t c wrap else u

/-- R93: a forward count while REVERSE = 1 works the backward counts off; the one after them ends it. -/
def encCountEvent (s : State) (m : Nat) : State :=
  if !bit (encCfg s m) 0 then s
  else if encRef s m && s.pb.reverse then
    if s.pb.behind = 0 then encForward { s with pb := { s.pb with reverse := false } } m
    else { ((s.setReg (aGpio (0x310 + 0x20 * m)) (intervalWord (encTime s m) (s.enc m).lastAt)).setEnc m
             { s.enc m with lastAt := some (encTime s m) }) with
           pb := { s.pb with behind := s.pb.behind - 1 } }
  else encForward s m

/-- ENC_COUNT. -/
def execEncCount (m : Nat) (s : State) : Result := ifWf (twoOk m) (encCountEvent s m)

/-- R90: a Z edge at a count other than N, after an earlier one. -/
def encMiscount (s : State) (m : Nat) : State :=
  let e := s.enc m
  if e.sawZ ∧ e.count ≠ encN s m then (s.bump32 (aGpio (0x308 + 0x20 * m))).raise pGpio 25 else s

/-- R89, R90, R93: an accepted Z edge. -/
def encIndexEvent (s : State) (m : Nat) : State :=
  if !bit (encCfg s m) 0 || encByCount s m || (encRef s m && s.pb.reverse) then s
  else
    let t := encTime s m
    let u := (encMiscount s m).setEnc m { s.enc m with count := 0, sawZ := true }
    if !encRef s m then u
    else if u.pb.state = .unlocked then encNotes (pbInitialLoad u 0 t) t 0 (countNext u m 0 0)
    else if u.pb.join then joinMarks u t
    else
      let cyc := u.pb.lastP.toNat / 2 ^ 32 + 1
      encTracks u m t (cyc * 2 ^ 32 % 2 ^ 64) (countNext u m cyc 0) false

/-- ENC_INDEX. -/
def execEncIndex (m : Nat) (s : State) : Result := ifWf (twoOk m) (encIndexEvent s m)

/-- A backward count of an encoder that is not the reference. -/
def countDown (s : State) (m : Nat) (e : Encoder) : Nat :=
  if e.count = 0 then (if encByCount s m then encN s m - 1 else 0) else e.count - 1

/-- R93: a backward count. -/
def encBackwardEvent (s : State) (m : Nat) : State :=
  if !bit (encCfg s m) 0 then s
  else
    let e := s.enc m
    let t := encTime s m
    let u := s.setReg (aGpio (0x310 + 0x20 * m)) (intervalWord t e.lastAt)
    if encRef s m then
      { (u.setEnc m { e with lastAt := some t }) with
        pb := { s.pb with reverse := true, behind := s.pb.behind + 1 } }
    else u.setEnc m { e with count := countDown s m e, lastAt := some t }

/-- ENC_BACKWARD. -/
def execEncBackward (m : Nat) (s : State) : Result := ifWf (twoOk m) (encBackwardEvent s m)

/-- R91: a sample in which A and B both change. -/
def encIllegalEvent (s : State) (m : Nat) : State :=
  whenever (bit (encCfg s m) 0) s ((s.bump32 (aGpio (0x30C + 0x20 * m))).raise pGpio 25)

/-- ENC_ILLEGAL. -/
def execEncIllegal (m : Nat) (s : State) : Result := ifWf (twoOk m) (encIllegalEvent s m)

/-- Table 3-2: no count for STILL_US. -/
def stillDue (s : State) : Bool :=
  s.pb.src == 2 && !s.pb.join && (s.pb.state == .acquire || s.pb.state == .locked) &&
  (match (s.enc (b2n s.pb.sel)).lastAt with
   | some t => decide (t + s.fld (aPb 0x058) 16 16 * 1000 ≤ s.cclk)
   | none => false)

/-- Table 3-2: entry to STANDSTILL. -/
def enterStill (s : State) : State :=
  let u := ((pbEnter s .standstill).raise pPb 3).bump (aPb 0x110)
  { u with pb := { u.pb with rate := 0, rates := [], hist := [], step := false, fresh := true } }

/-- PB_STANDSTILL. -/
def execPbStandstill (s : State) : Result :=
  .next (whenever (stillDue s) s (enterStill s))

/-! ### Capture inputs -/

/-- A capture input. -/
def State.cap (s : State) (n : Nat) : Capture := Tab.get (fun _ => {}) s.gpio.cap n

/-- The state with a capture input changed. -/
def State.setCap (s : State) (n : Nat) (c : Capture) : State :=
  { s with gpio := { s.gpio with cap := Tab.set (fun _ => {}) s.gpio.cap n c } }

/-- R112: the entry of an edge accepted now: time and position of its recorded cycle. -/
def capEntry (s : State) (n : Nat) (rising : Bool) : CapEntry :=
  let cfg := (s.reg (aGpio (0x200 + 0x20 * n))).toNat
  let back := 2 + bits cfg 8 8
  let t := timeAt s (bits cfg 2 1) (s.cclk - back)
  { sec := timeSec t % 2 ^ 32, ns := timeNs t, pos := BitVec.ofNat 64 (accAt s (s.cclk - back) / 2 ^ 24),
    rising := rising }

/-- Whether EDGE of a capture input takes an edge of this kind. -/
def capTakes (s : State) (n : Nat) (rising : Bool) : Bool :=
  bit (bits (s.reg (aGpio (0x200 + 0x20 * n))).toNat 0 2) (if rising then 0 else 1)

/-- R112: write the entry, or set OVF. -/
def capWrite (s : State) (n : Nat) (rising : Bool) : State :=
  let c := s.cap n
  if c.fifo.length < 4 then (s.setCap n { c with fifo := c.fifo ++ [capEntry s n rising] }).raise pGpio (16 + n)
  else (s.setCap n { c with ovf := true }).raise pGpio 24

/-- CAP_EDGE. -/
def execCapEdge (n : Nat) (rising : Bool) (s : State) : Result :=
  ifWf (capOk n) (whenever (capTakes s n rising) s (capWrite s n rising))

/-- A read of `GPIO_CAPn_NS`: pops the oldest entry and latches its other fields. On an empty FIFO the value read is
open. -/
def capNsRead (s : State) (w : Who) (n : Nat) : State :=
  let a := aGpio (0x208 + 0x20 * n)
  match (s.cap n).fifo with
  | [] => (s.emit (.read w.m a (w32 (Config.freeNat s.free)))).tick1
  | e :: rest =>
    ((((s.setCap n { s.cap n with fifo := rest }).setReg (a + 4) (w32 e.sec)).setReg (a + 8)
      (w32 (e.pos.toNat % 2 ^ 32))).setReg (a + 12) (w32 (e.pos.toNat / 2 ^ 32))).emit
      (.read w.m a (w32 (e.ns + b2n e.rising * 2 ^ 31)))

/-- A read that reaches its register acts; another returns 0. -/
def State.readOr (s : State) (w : Who) (addr : Nat) (t : State) : State :=
  if readReaches s w addr then t else s.emit (.read w.m addr 0)

/-- A management pair. -/
def State.pairSt (s : State) (mp1 : Bool) : Pair := if mp1 then s.faults.pair1 else s.faults.pair0

/-- The state with a management pair changed. -/
def State.setPairSt (s : State) (mp1 : Bool) (p : Pair) : State :=
  if mp1 then { s with faults := { s.faults with pair1 := p } } else { s with faults := { s.faults with pair0 := p } }

/-- R488: a read of a task that would change device state. `done` is the state once it has been performed. A first run
performs it and keeps its value; a 33rd read exceeds the limits of R489. A replay takes the value that the log holds for the read. -/
def taskRead (s : State) (w : Who) (mp1 : Bool) (addr : Nat) (done : State) : State :=
  let p := s.pairSt mp1
  match p.left.find? (fun x => x.1 == addr) with
  | some x => (s.setPairSt mp1 { p with left := p.left.erase x }).emit (.read w.m addr x.2)
  | none =>
    if 32 ≤ p.log.length then s.setPairSt mp1 { p with overran := true }
    else
      match done.out.head? with
      | some (.read _ _ v) => done.setPairSt mp1 { done.pairSt mp1 with log := p.log ++ [(addr, v)] }
      | _ => done

/-- A read that changes device state: `t` is the state after it (R7, R488). -/
def State.readOnce (s : State) (w : Who) (addr : Nat) (t : State) : State :=
  s.readOr w addr (match w.m with
    | .ha => t
    | .hb => t
    | .mp0 => taskRead s w false addr t
    | .mp1 => taskRead s w true addr t)

/-- CAP_NS_READ. -/
def execCapNsRead (w : Who) (n : Nat) (s : State) : Result :=
  ifWf (capOk n) (s.readOnce w (aGpio (0x208 + 0x20 * n)) (capNsRead s w n))

/-- A read of `GPIO_CAPn_STAT`: clears OVF. -/
def capStatRead (s : State) (w : Who) (n : Nat) : State :=
  let c := s.cap n
  (s.setCap n { c with ovf := false }).emit
    (.read w.m (aGpio (0x204 + 0x20 * n)) (w32 (c.fifo.length + b2n c.ovf * 8)))

/-- CAP_STAT_READ. -/
def execCapStatRead (w : Who) (n : Nat) (s : State) : Result :=
  ifWf (capOk n) (s.readOr w (aGpio (0x204 + 0x20 * n)) (capStatRead s w n))

/-! ### Pulse outputs -/

/-- A pulse output. -/
def State.ppo (s : State) (n : Nat) : Pulse := Tab.get (fun _ => {}) s.gpio.ppo n

/-- `GPIO_PPOn_CFG`. -/
def ppoCfg (s : State) (n : Nat) : Nat := (s.reg (aGpio (0x100 + 0x10 * n))).toNat

/-- The state with a pulse output changed; ARM and LATE of its register follow. -/
def State.setPpo (s : State) (n : Nat) (p : Pulse) : State :=
  let u := { s with gpio := { s.gpio with ppo := Tab.set (fun _ => {}) s.gpio.ppo n p } }
  let a := aGpio (0x100 + 0x10 * n)
  u.setReg a (putFld (putFld (s.reg a) 4 1 (b2n p.armed.isSome)) 6 1 (b2n p.late))

/-- The present value on the 64-bit scale of a pulse's base: the position, or seconds and ns (Table 3-7). -/
def ppoNow (s : State) (cfg : Nat) : Nat :=
  if bit cfg 2 then
    let t := (s.dom (bits cfg 5 1)).time
    timeSec t % 2 ^ 32 * 2 ^ 32 + timeNs t
  else s.pos.toNat

/-- R65, R114: `a` is ahead of `now`. -/
def aheadOf (a now : Nat) : Bool := decide ((a + 2 ^ 64 - now % 2 ^ 64) % 2 ^ 64 < 2 ^ 63)

/-- R84: `now` has reached or passed `a`. -/
def reachedAt (a now : Nat) : Bool := decide ((now + 2 ^ 64 - a % 2 ^ 64) % 2 ^ 64 < 2 ^ 63)

/-- R115: AT one period later; in time base the first period after the present time, which a step may have carried past
several (R382). -/
def ppoAdvance (s : State) (n at_ per : Nat) : Nat :=
  if bit (ppoCfg s n) 2 then
    let now := ppoNow s (ppoCfg s n)
    let gap := (now / 2 ^ 32 + 2 ^ 32 - at_ / 2 ^ 32) % 2 ^ 32 * 10 ^ 9 + now % 2 ^ 32 - at_ % 2 ^ 32
    let ns := at_ % 2 ^ 32 + (gap / per + 1) * per
    ((at_ / 2 ^ 32 + ns / 10 ^ 9) * 2 ^ 32 + ns % 10 ^ 9) % 2 ^ 64
  else (at_ + per % 2 ^ 16 * 2 ^ 32) % 2 ^ 64

/-- R114: arm a pulse with the AT that the registers hold. -/
def ppoArmed (s : State) (n : Nat) : State :=
  let at_ := s.pair (aGpio (0x108 + 0x10 * n))
  s.setPpo n { s.ppo n with
    armed := some { at_ := at_, late := bits (ppoCfg s n) 0 2 == 1 && !aheadOf at_ (ppoNow s (ppoCfg s n))
                    per := (s.reg (aGpio (0x104 + 0x10 * n))).toNat, armedAt := s.cclk } }

/-- An armed pulse is due: its position or time is reached, or it was late at the ARM write, from the cycle after that
write on (R114). A position does not fire
while the Phase Base is UNLOCKED (Table 3-2). -/
def ppoDue (s : State) (n : Nat) : Bool :=
  match (s.ppo n).armed with
  | none => false
  | some a => decide (a.armedAt < s.cclk) && (a.late || reachedAt a.at_ (ppoNow s (ppoCfg s n)))
      && (bit (ppoCfg s n) 2 || s.pb.state != .unlocked)

/-- R113 to R115: the pulse goes active 2 cycles on, for WIDTH cycles; a once pulse disarms. -/
def ppoFires (s : State) (n : Nat) : State :=
  match (s.ppo n).armed with
  | none => s
  | some a =>
    let nxt := if bits (ppoCfg s n) 0 2 = 2 then some { a with at_ := ppoAdvance s n a.at_ a.per, late := false } else none
    ((s.setPpo n { armed := nxt, late := a.late, until_ := some (s.cclk + 2 + bits (ppoCfg s n) 8 16) }).emit
      (.pulse n)).raise pGpio n

/-- An accepted write of `GPIO_PPOn_CFG`: the fields, its log entry, and what ARM asks for. LATE is read only; MODE = 0
and ARM = 0 take the pulse out. An ARM write in the firing cycle takes effect for the next firing (R115). -/
def ppoWrite (s : State) (w : Who) (n : Nat) (val : Word) : State :=
  let s := if bit val.toNat 4 && ppoDue s n then ppoFires s n else s
  let a := aGpio (0x100 + 0x10 * n)
  let old := s.reg a
  let new := putFld (val &&& 0x00FFFF3F) 6 1 (fld old 6 1)
  let u := logReg (s.setReg a new) (originOf w.m) a old new false
  if bit val.toNat 4 && bits val.toNat 0 2 != 0 then ppoArmed u n
  else u.setPpo n { s.ppo n with armed := none, until_ := if bits val.toNat 0 2 = 0 then none else (s.ppo n).until_ }

/-- PPO_ARM. -/
def execPpoArm (w : Who) (n : Nat) (val : Word) (s : State) : Result :=
  ifWf (ppoOk n && bit val.toNat 4) (s.write w (aGpio (0x100 + 0x10 * n)) val (ppoWrite s w n val))

/-- PPO_FIRE. -/
def execPpoFire (n : Nat) (s : State) : Result :=
  ifWf (ppoOk n) (whenever (ppoDue s n) s (ppoFires s n))

end Sys2Proof.Machine
end

