-- ==== Sys2Proof/Machine/GptpOps.lean ====
section
/-!
DEFINITION. gPTP domains and messages (spec/12_network_time.md, R368 to R374): the transitions of Table 12-1, ADJ and
its clamp, asCapable, and the messages that MP1 sends. The layout of a message is that of IEEE 802.1AS-2020.
-/
namespace Sys2Proof.Machine
open Sys2Proof

/-- BAR0 offset of a PTP register. -/
def aPtp (off : Nat) : Nat := regAddr pPtp off

/-- BAR0 offset of counter `k` of Table 12-5. -/
def aPtpCnt (k : Nat) : Nat := aPtp (0x800 + 8 * k)

/-- BAR0 offset of a register of domain `d`. -/
def aDom (d off : Nat) : Nat := aPtp (0x100 + 0x80 * d + off)

/-- BAR0 offset of a register of port `p`. -/
def aPtpPort (p off : Nat) : Nat := aPtp (0x400 + 0x10 * p + off)

/-- EN of a domain. -/
def domEn (s : State) (d : Nat) : Bool := s.bitAt (aDom d 0) 0

/-- GM of a domain. -/
def domGm (s : State) (d : Nat) : Bool := s.bitAt (aDom d 0) 1

/-- ONESTEP of a domain. -/
def domOneStep (s : State) (d : Nat) : Bool := s.bitAt (aDom d 0) 2

/-- Peer-delay state of a port. -/
def State.pdelay (s : State) (p : Nat) : Pdelay := Tab.get (fun _ => {}) s.ptp.port p

/-- The state with the peer-delay state of a port changed. -/
def State.setPdelay (s : State) (p : Nat) (x : Pdelay) : State :=
  { s with ptp := { s.ptp with port := Tab.set (fun _ => {}) s.ptp.port p x } }

/-- Quotient of a signed number, floor or one more where it is not exact: the spec states no rounding.
Marks: DESIGN CHOICE (log entry 11). -/
def divOpenInt (n : Int) (d : Nat) : Int :=
  if n % d = 0 then n / d else n / d + (b2n (Config.roundsUp n.natAbs d) : Nat)

/-- Cycles of 2^n seconds, `n` a field of `k` bits in two's complement. -/
def logSeconds (k v : Nat) : Nat :=
  let n := signed k v
  if n < 0 then 1000000000 / 2 ^ n.natAbs else 1000000000 * 2 ^ n.natAbs

/-- 2^LOG_SYNC s. -/
def syncInterval (s : State) (d : Nat) : Nat := logSeconds 8 (s.fld (aDom d 0x14) 20 8)

/-- 2^LOG_PDELAY s. -/
def pdelayInterval (s : State) (p : Nat) : Nat := logSeconds 4 (s.fld (aPtpPort p 0) 4 4)

/-- `MAC_LINK_ASYM` in ps. -/
def linkAsym (s : State) (p : Nat) : Int := signed 24 (s.reg (regAddr (pMac p) 0x060)).toNat

/-- `MAC_LINK_ASYM` in units of 2^-16 ps. -/
def asymUnits (s : State) (p : Nat) : Int := linkAsym s p * 2 ^ 16

/-- A time in units of 2^-16 ps, to the nearest unit of 2^-16 ns (R376). -/
def nearestUnit (x : Int) : Int := (x + 500) / 1000

/-! ### ADJ (R370) -/

/-- Largest magnitude of ADJ. -/
def adjMax (s : State) (d : Nat) : Nat := s.fld (aDom d 0x0C) 8 8 * 4295

/-- The clock takes an ADJ, clamped. Marks: DEDUCED (log entry 42). -/
def takeAdj (s : State) (d : Nat) (a : Int) : State :=
  let m : Int := adjMax s d
  let c := max (-m) (min a m)
  let t := s.setDom d { s.dom d with adj := c }
  if c = a then t else t.bump (aPtpCnt 9)

/-- The servo writes ADJ: a result of the gains of MP1's firmware, which the spec does not give.
Marks: DEDUCED (log entry 42). -/
def servo (s : State) (d : Nat) : State := takeAdj s.tick1 d (signed 32 (Config.freeNat s.free % 2 ^ 32))

/-! ### Transitions (R371, Table 12-1) -/

/-- A change of state, with Dd_VALID at each change of validity and the loss that the Phase Base sees (R88). -/
def domEnter (s : State) (d : Nat) (st : PtpState) : State :=
  let was := domValid s d
  let t := s.setDom d { s.dom d with
    state := st, runIn := 0, runOut := if st = .holdover then (s.dom d).runOut else 0, holdAt := if st = .holdover then some s.cclk else none }
  let now := domValid t d
  let t := if was = now then t else t.raise pPtp d
  if was ∧ !now then pbDomainLost t d else t

/-- LOCKED to HOLDOVER: ADJ is held; SYNC_LOSS, and a report with the slave port as reporter. -/
def domHoldover (s : State) (d : Nat) : State :=
  ((domEnter s d .holdover).raise pPtp 3).report 0x1A (unitId 1 (s.dom d).slave) [] false

/-- A step of the clock (R370). -/
def domStep (s : State) (d : Nat) (t : Nat) : State := (s.setDom d { s.dom d with time := t }).bump (aPtpCnt 8)

/-- R374, Table 12-1: the slave port of a LOCKED domain stops being asCapable, or leaves UP. -/
def slavePortLost (s : State) (p : Nat) : State :=
  [0, 1].foldl (fun t d =>
    if domEn t d && !domGm t d && (t.dom d).slave == p && (t.dom d).state == .locked then domHoldover t d else t) s

/-- R374: asCapable is lost. -/
def asCapLost (s : State) (p : Nat) : State :=
  if (s.pdelay p).asCap then
    slavePortLost (((s.setPdelay p { s.pdelay p with asCap := false }).raise pPtp 4).bump (aPtpCnt 11)) p
  else s

/-- R370: a commit of `PTP_Dd_SERVO` narrows the range of ADJ. -/
def servoCommit (s : State) (d : Nat) : State := if (s.dom d).adj.natAbs ≤ adjMax s d then s else takeAdj s d (s.dom d).adj

/-- `NBR_THRESH` in units of 2^-16 ns. -/
def nbrThresh (s : State) (p : Nat) : Nat := s.fld (aPtpPort p 0) 16 16 * 2 ^ 16

/-- R374: a commit of `PTP_Pp_CFG` changes the threshold that the last measurement is held against. -/
def pdelayCommit (s : State) (p : Nat) : State :=
  let x := s.pdelay p
  if nbrThresh s p < x.mld then asCapLost s p
  else if x.prev.isSome && decide (x.lost < 3) then s.setPdelay p { x with asCap := true } else s

/-- Table 12-1: a commit of `PTP_Dd_CFG` takes effect; `was` is the value before. Marks: DEDUCED (log entry 42). -/
def domCommit (s : State) (d : Nat) (was : Word) : State :=
  let slave := s.fld (aDom d 0) 16 6
  if !domEn s d then
    (domEnter s d .free).setDom d { ({} : Domain) with slave := slave }
  else
    let s := if fld was 16 6 != slave && fld was 16 6 != 0x3F && bit was.toNat 0 && (s.dom d).state == .locked
      then domHoldover s d else s
    s.setDom d { s.dom d with slave := slave }

/-! ### Messages -/

/-- clockIdentity. -/
def clockId (s : State) : Nat :=
  let v := s.pair (aPtp 0x044)
  if v = 0 then leNat (s.uid.take 8) else v

/-- sourcePortIdentity of an egress port, as a number of 80 bits. -/
def portIdentity (s : State) (p : Nat) : Nat := clockId s * 2 ^ 16 + p + 1

/-- The sequenceId counter of a port, domain and message type. -/
def seqKey (p d ty : Nat) : Nat := 32 * p + 16 * d + ty

/-- The next sequenceId. -/
def nextSeq (s : State) (p d ty : Nat) : Nat := Tab.get (fun _ => 0) s.ptp.seqs (seqKey p d ty)

/-- The state after a sequenceId has been used. -/
def usedSeq (s : State) (p d ty : Nat) : State :=
  { s with ptp := { s.ptp with seqs := Tab.set (fun _ => 0) s.ptp.seqs (seqKey p d ty) ((nextSeq s p d ty + 1) % 2 ^ 16) } }

/-- Ethernet and PTP header of a message of `len` bytes. Marks: PRESUMED (log entry 41). -/
def gptpHeader (s : State) (p ty len domNum : Nat) (twoStep : Bool) (corr : Int) (seq ctl logv : Nat) : List Byte :=
  beBytes 6 0x0180C200000E ++ beBytes 6 (clockId s % 2 ^ 48) ++ beBytes 2 0x88F7
    ++ [b8 (0x10 + ty), b8 0x12] ++ beBytes 2 len ++ [b8 domNum, 0] ++ beBytes 2 (0x0008 + 0x0200 * b2n twoStep)
    ++ beBytes 8 (unsigned 64 corr) ++ beBytes 4 0 ++ beBytes 10 (portIdentity s p) ++ beBytes 2 seq ++ [b8 ctl, b8 logv]

/-- The Follow_Up information TLV. Marks: PRESUMED (log entry 41). -/
def infoTlv (rate : Int) (gmtbi tlv : Nat) : List Byte :=
  beBytes 2 3 ++ beBytes 2 28 ++ beBytes 3 0x0080C2 ++ beBytes 3 1 ++ beBytes 4 (unsigned 32 rate) ++ beBytes 2 gmtbi
    ++ beBytes 16 tlv

/-- originTimestamp of a time in units of 2^-16 ns: 48-bit seconds and 32-bit nanoseconds. -/
def stampBytes (t : Int) : List Byte :=
  let n := t.toNat
  beBytes 6 (n / (10 ^ 9 * 2 ^ 16)) ++ beBytes 4 (n / 2 ^ 16 % 10 ^ 9)

/-- domainNumber of a domain. -/
def domNum (s : State) (d : Nat) : Nat := s.fld (aDom d 0) 8 8

/-- LOG_SYNC as it stands in a message. -/
def logSync (s : State) (d : Nat) : Nat := s.fld (aDom d 0x14) 20 8

/-- A Sync for port `p` (R376, R379, R380). Marks: PRESUMED (log entry 41). -/
def syncBytes (s : State) (p : Nat) (e : PtpEdit) : List Byte :=
  let head (len : Nat) := gptpHeader s p 0 len (domNum s e.dom) (!e.oneStep) e.corr e.seq 0 (logSync s e.dom)
  if e.oneStep then head 76 ++ stampBytes e.origin ++ infoTlv e.rate e.gmtbi e.tlv
  else head 44 ++ beBytes 10 0

/-- R376, R379: the correction of a copy that leaves at time `t`. -/
def residence (e : PtpEdit) (t : Int) : Int := e.corr + nearestUnit (t - e.tIn + e.add)

/-- A Follow_Up for a Sync that left port `p` at time `t` (R379, R380). Marks: PRESUMED (log entry 41). -/
def followUpBytes (s : State) (p : Nat) (e : PtpEdit) (t : Int) : List Byte :=
  let corr := if e.orig then 0 else residence e t
  gptpHeader s p 8 76 (domNum s e.dom) false corr e.seq 2 (logSync s e.dom)
    ++ stampBytes (if e.orig then t / 1000 else e.origin) ++ infoTlv e.rate e.gmtbi e.tlv

/-- A Pdelay_Req. Marks: PRESUMED (log entry 41). -/
def pdelayReqBytes (s : State) (p seq : Nat) : List Byte :=
  gptpHeader s p 2 54 0 false 0 seq 5 (unsigned 8 (signed 4 (s.fld (aPtpPort p 0) 4 4))) ++ beBytes 20 0

/-- A Pdelay_Resp, or with `ty` 10 a Pdelay_Resp_Follow_Up, with a time. Marks: PRESUMED (log entry 41). -/
def pdelayRespBytes (s : State) (p ty seq : Nat) (t : Int) (peer : Nat) : List Byte :=
  gptpHeader s p ty 54 0 (decide (ty = 3)) 0 seq 5 0x7F ++ stampBytes t ++ beBytes 10 peer

/-! ### Frames -/

/-- A frame enters the part as number `nextFrame`. -/
def enterFrame (s : State) (f : Frame) : State :=
  { (s.setFrame s.nextFrame { f with stage := .received }) with nextFrame := s.nextFrame + 1 }

/-- R138: the receive delay of a port in ps: the constants of its mode and RX_LAT; none on an internal port. -/
def rxDelay (s : State) (p : Nat) : Nat :=
  if p < 48 then
    let m := s.mac p
    (rxConst m.mode + fecRx m.mode m.fec) * 1000 + s.fld (regAddr (pMac p) 0x058) 0 24
  else 0

/-- A frame of a port as it enters, `ts` being the cycle of its timestamp. -/
def portFrame (s : State) (p sub ts : Nat) : Frame :=
  { port := p, rx := s.cclk, sub := sub, pos := s.pos, sinceCycle := s.cclk - s.pb.cycleAt, tsCycle := ts,
    mbps := portMbps s p, lat := rxDelay s p }

/-! ### Frames that the part sources (R15, R23, R243) -/

/-- Cycle from which an internal port's pacer lets its next frame enter. -/
def State.entryFree (s : State) (p : Nat) : Nat := Tab.get (fun _ => 0) s.fab.entryFree p

/-- R243: a frame of an internal port enters in this cycle; its pacer counts 32 bytes for each half. -/
def enterPaced (s : State) (f : Frame) : State :=
  let x := { f with rx := s.cclk, tsCycle := s.cclk, pos := s.pos, sinceCycle := s.cclk - s.pb.cycleAt }
  let t := enterFrame s x
  { t with fab := { t.fab with
      entryFree := Tab.set (fun _ => 0) t.fab.entryFree f.port (s.cclk + byteTime f.mbps (32 * halvesOf f)) } }

/-- The pacer of a port lets a frame enter in this cycle, and none waits before it. -/
def entryOpen (s : State) (p : Nat) : Bool :=
  decide (s.entryFree p ≤ s.cclk) && !s.fab.entryQ.any (fun x => x.frame.port == p)

/-- A frame of port 50 or 51 enters from cycle `at_` on, as soon as the port's pacer lets it. -/
def sourceFrame (s : State) (at_ : Nat) (f : Frame) : State :=
  if at_ ≤ s.cclk ∧ entryOpen s f.port = true then enterPaced s f
  else { s with fab := { s.fab with entryQ := s.fab.entryQ ++ [{ at_ := at_, frame := f }] } }

/-- The first frame of a port that waits and whose cycle has come enters, when the pacer lets it. -/
def sourceDue (s : State) (p : Nat) : State :=
  let mine (x : EntryWait) : Bool := x.frame.port == p && decide (x.at_ ≤ s.cclk)
  if s.cclk < s.entryFree p then s
  else
    match s.fab.entryQ.find? mine with
    | none => s
    | some x => enterPaced { s with fab := { s.fab with entryQ := s.fab.entryQ.erase x } } x.frame

/-- A frame that MP1 sources on port 51 for the egress port `p` that it names. -/
def mgmtFrame (s : State) (p : Nat) (bs : List Byte) : Frame :=
  { portFrame s 51 0 s.cclk with bytes := paddedFrame bs, named := some p, tc := s.fld (aPtp 0x040) 8 3 }

/-- R368: MP1, or the PTP engine for it, sources a message on port 51 for egress port `p`; its first byte enters PRS in
cycle `at_`, or later when the port's pacer is still behind. -/
def gptpSend (s : State) (p at_ : Nat) (bs : List Byte) (e : Option PtpEdit) : State :=
  sourceFrame s at_ { mgmtFrame s p bs with ptp := e }

/-- Master ports of a domain that are asCapable and UP, ascending. -/
def masterPorts (s : State) (d : Nat) : List Nat :=
  (List.range 48).filter (fun p => bit (s.pair (aDom d 0x04)) p && (s.pdelay p).asCap && (s.mac p).link == .up)

/-- Syncs for several ports enter one after another, as the pacer lets them (R375, R243). -/
def sendSyncs (e : PtpEdit) : List Nat → Nat → State → State
  | [], _, s => s
  | p :: rest, at_, s =>
    let x := { e with seq := nextSeq s p e.dom 0 }
    let bs := syncBytes s p x
    let t := (gptpSend (usedSeq s p e.dom 0) p at_ bs (some x)).bump (aPtpCnt 2)
    sendSyncs e rest at_ t

/-- An event message leaves port `p` with egress time `t`, in units of 2^-16 ps. -/
def gptpLeft (s : State) (p : Nat) (e : PtpEdit) (t : Int) : State :=
  match e.kind with
  | .sync => if e.oneStep then s else s.setDom e.dom { s.dom e.dom with fuDue := (s.dom e.dom).fuDue ++ [(p, t, e)] }
  | .pdelayReq => if (s.pdelay p).asked = some e.seq then s.setPdelay p { s.pdelay p with t1 := some t } else s
  | .pdelayResp => gptpSend s p s.cclk (pdelayRespBytes s p 10 e.seq (t / 1000) e.peer) none

end Sys2Proof.Machine
end

