-- ==== Sys2Proof/Machine/MsecOps.lean ====
section
/-!
DEFINITION. The SecY of a port (spec/13_cipher_and_macsec.md, R385 to R407): the checks and the bytes of a protected
frame, packet numbers and reservations, and the inline pipes.
-/
namespace Sys2Proof.Machine
open Sys2Proof

/-- BAR0 offset of an MSC register. -/
def aMsc (p off : Nat) : Nat := regAddr (pMsc p) off

/-- BAR0 offset of counter `k` of Table 13-11. -/
def aMscCnt (p k : Nat) : Nat := aMsc p (0x300 + 8 * k)

/-- BAR0 offset of a register of CE page 0. -/
def aCe (off : Nat) : Nat := regAddr (pCe 0) off

/-- BAR0 offset of counter `k` of Table 13-8. -/
def aCeCnt (k : Nat) : Nat := regAddr (pCe 3) (0x100 + 8 * k)

/-- Offset of an SA's CTRL in its MSC page. -/
def saOff : SaId → Nat
  | .tx i => 0x080 + 0x20 * i
  | .rx c i => 0x120 + 0x60 * c + 0x20 * i

/-- Number of an SA on its port: 0, 1 transmit, then the SAs of each receive SC. -/
def saNum : SaId → Nat
  | .tx i => i
  | .rx c i => 2 + 2 * c + i

/-- What an SA's registers do not hold. -/
def State.saRun (s : State) (p : Nat) (sa : SaId) : SaRun :=
  Tab.get (fun _ => {}) s.cipher.sa (16 * p + saNum sa)

/-- The state with it changed. -/
def State.setSaRun (s : State) (p : Nat) (sa : SaId) (x : SaRun) : State :=
  { s with cipher := { s.cipher with sa := Tab.set (fun _ => {}) s.cipher.sa (16 * p + saNum sa) x } }

/-- CTRL of an SA. -/
def saCtrl (s : State) (p : Nat) (sa : SaId) : Nat := (s.reg (aMsc p (saOff sa))).toNat

/-- Key slot of an SA. -/
def saKey (s : State) (p : Nat) (sa : SaId) : Nat := bits (saCtrl s p sa) 4 10

/-- NEXT_PN, or LOWPN of a receive SA. -/
def saPn (s : State) (p : Nat) (sa : SaId) : Nat := s.pair (aMsc p (saOff sa + 4))

/-- The state with NEXT_PN or LOWPN changed. -/
def setSaPn (s : State) (p : Nat) (sa : SaId) (n : Nat) : State := s.setPair (aMsc p (saOff sa + 4)) n

/-- The SecY is enabled. -/
def mscEn (s : State) (p : Nat) : Bool := decide (p < 48) && s.bitAt (aMsc p 0x040) 0

/-- The suite is one of XPN. -/
def mscXpn (s : State) (p : Nat) : Bool := s.bitAt (aMsc p 0x040) 2

/-- Key bytes of the suite. -/
def mscKeyLen (s : State) (p : Nat) : Nat := if s.bitAt (aMsc p 0x040) 1 then 32 else 16

/-- Confidentiality offset. -/
def mscOffset (s : State) (p : Nat) : Nat :=
  match s.fld (aMsc p 0x040) 4 2 with
  | 1 => 30 | 2 => 50 | _ => 0

/-- Limit of the packet numbers of the suite (R398). -/
def pnLimit (s : State) (p : Nat) : Nat := if mscXpn s p then 2 ^ 64 - 1 else 0xFFFFFFFF

/-- R386: the transmit SCI. -/
def txSci (s : State) (p : Nat) : Nat :=
  let v := s.pair (aMsc p 0x04C)
  if v = 0 then (s.pair (regAddr (pMac p) 0x068) % 2 ^ 48) * 2 ^ 16 + (p + 1) else v

/-- SSCI of an SA. -/
def saSsci (s : State) (p : Nat) : SaId → Nat
  | .tx i => (s.reg (aMsc p (0x094 + 0x20 * i))).toNat
  | .rx c i => (s.reg (aMsc p (0x12C + 0x60 * c + 0x20 * i))).toNat

/-- Salt of an SA, byte 0 highest. -/
def saSalt (s : State) (p : Nat) : SaId → Nat
  | .tx i =>
    leNat (leBytes 4 (s.reg (aMsc p (0x0C0 + 4 * i))).toNat ++ leBytes 4 (s.reg (aMsc p (0x09C + 0x20 * i))).toNat
      ++ leBytes 4 (s.reg (aMsc p (0x098 + 0x20 * i))).toNat)
  | .rx c i =>
    let a := 0x130 + 0x60 * c + 0x20 * i
    leNat (leBytes 4 (s.reg (aMsc p (a + 8))).toNat ++ leBytes 4 (s.reg (aMsc p (a + 4))).toNat
      ++ leBytes 4 (s.reg (aMsc p a)).toNat)

/-- The IV of a frame: SCI ‖ PN, or for XPN (SSCI ‖ PN) XOR salt. -/
def mscIv (s : State) (p : Nat) (sa : SaId) (sci pn : Nat) : List Byte :=
  if mscXpn s p then beBytes 12 ((saSsci s p sa * 2 ^ 64 + pn % 2 ^ 64) ^^^ saSalt s p sa)
  else beBytes 12 (sci % 2 ^ 64 * 2 ^ 32 + pn % 2 ^ 32)

/-! ### Inline pipes -/

/-- R404: the pipe slot of a port. -/
def pipeSlot (p : Nat) : Nat := portGroup p % 8 / 2

/-- The pipe that fills a slot of a direction; 7 = none. -/
def pipeOf (s : State) (eg : Bool) (k : Nat) : Nat := s.fld (aCe 0x048) (4 * k + 16 * b2n eg) 4

/-- R407, R417: the direction of a port has a pipe, and the CE is ready. -/
def pipeReady (s : State) (eg : Bool) (p : Nat) : Bool :=
  s.bitAt (aCe 0x044) 0 && pipeOf s eg (pipeSlot p) != 7

/-- Rotation of a direction. -/
def State.kat (s : State) (eg : Bool) : KatRun := if eg then s.cipher.katEg else s.cipher.katIn

/-- The state with a rotation changed. -/
def State.setKat (s : State) (eg : Bool) (k : KatRun) : State :=
  { s with cipher := if eg then { s.cipher with katEg := k } else { s.cipher with katIn := k } }

/-- Unit ID of a pipe. -/
def pipeUnit (eg : Bool) (i : Nat) : Nat := unitId 6 (0x200 + 0x10 * b2n eg + i)

/-- R407: the direction has no spare: its bit in `CE_STAT`. -/
def markSpare (s : State) (eg : Bool) : State :=
  s.setBitAt (aCe 0x044) (1 + b2n eg) (s.kat eg).spare.isNone

/-- A slot without a pipe shows NO_PIPE; NO_SPARE is raised and the class reported (R407). -/
def slotEmpty (s : State) (eg : Bool) (k i : Nat) : State :=
  let t := s.setFld (aCe 0x048) (4 * k + 16 * b2n eg) 4 7
  ((t.setBitAt (aCe 0x044) 3 true).raise (pCe 0) 2).report 0x20 (pipeUnit eg i) [] false

/-- R405, R407: pipe `i` of a direction is retired; a spare takes the slot that it filled. -/
def retirePipe (s : State) (eg : Bool) (i : Nat) : State :=
  let t := s.setBitAt (aCe 0x04C) (i + 8 * b2n eg) true
  match (List.range 4).find? (fun k => pipeOf s eg k == i) with
  | none =>
    let r := t.kat eg
    markSpare (t.setKat eg { r with testing := if r.testing = some i then none else r.testing,
                                    spare := if r.spare = some i then none else r.spare }) eg
  | some k =>
    let r := t.kat eg
    let u := t.setKat eg { r with spare := none }
    let u := match r.spare with
      | some j => u.setFld (aCe 0x048) (4 * k + 16 * b2n eg) 4 j
      | none => slotEmpty u eg k i
    markSpare u eg

/-- R405: a mismatch that the recomputation resolves. -/
def pipeRetry (s : State) : State := s.bump (aCeCnt 3)

/-- R405: a repeated mismatch: the pipe is retired and reported. -/
def pipeFail (s : State) (eg : Bool) (p : Nat) : State :=
  let i := pipeOf s eg (pipeSlot p)
  retirePipe (((s.bump (aCeCnt 4)).raise (pCe 0) 1).report 0x20 (pipeUnit eg i) [] false) eg i

/-! ### Packet numbers -/

/-- T_DUAL = 2 × SYNC_PERIOD + 150 µs, in cycles (R37). -/
def tDual (s : State) : Nat := 2 * s.fld (aPb 0x054) 16 11 * 1000 + 150000

/-- R400: a transmit SA of a shared SecY that comes within 2^19 of its reservation. Marks: DEDUCED (log entry 43). -/
def raiseRsv (s : State) (p : Nat) (sa : SaId) : State :=
  let a := aMsc p (saOff sa + 0x0C)
  let rsv := s.pair a
  let r := s.saRun p sa
  if !s.bitAt (aMsc p 0x040) 9 || decide (saPn s p sa + 2 ^ 19 < rsv) then s
  else if s.mode == .degraded && decide (s.twin.lastAckAt + tDual s ≤ s.cclk) then s.setPair a (rsv + 2 ^ 20)
  else if r.raise.isSome then s
  else (s.setPair a (rsv + 2 ^ 20)).setSaRun p sa { r with raise := some ((s.reg (regAddr pPb 0x080)).toNat + 1) }

/-- R398: a transmit SA is exhausted: its EXH bit, and EXHAUSTED once. -/
def exhaustTx (s : State) (p i : Nat) : State :=
  let sa := SaId.tx i
  if (s.saRun p sa).exhausted then s
  else ((s.setSaRun p sa { s.saRun p sa with exhausted := true }).setBitAt (aMsc p 0x060) (2 + i) true).raise (pMsc p) 1

/-- R398: after NEXT_PN has advanced: the warning and the exhaustion of an SA. -/
def pnWarn (s : State) (p : Nat) (i pn : Nat) : State :=
  let sa := SaId.tx i
  let r := s.saRun p sa
  let t :=
    if s.pair (aMsc p 0x058) ≤ pn + 1 ∧ !r.warned then
      (s.setSaRun p sa { r with warned := true }).raise (pMsc p) 0
    else s
  if pnLimit s p ≤ pn then exhaustTx t p i else t

/-- R396: SA_REVOKED is raised once per SA. -/
def revokedOnce (s : State) (p : Nat) (sa : SaId) : State :=
  let r := s.saRun p sa
  if r.revokedOnce then s else (s.setSaRun p sa { r with revokedOnce := true }).raise (pMsc p) 3

/-- R402: the slot of an SA is valid and its generation is the SA's. Marks: DEDUCED (log entry 44). -/
def saAuthority (s : State) (p : Nat) (sa : SaId) : Bool :=
  bit (saCtrl s p sa) 0 && keyValid (s.keySlot (saKey s p sa))
  && (s.keySlot (saKey s p sa)).gen == bits (saCtrl s p sa) 16 16

/-! ### Protection -/

/-- EtherType at bytes 12-13. -/
def etypeOf (bs : List Byte) : Nat := beAt bs 12 2

/-- R386: the frame belongs to the uncontrolled port. -/
def mscBypass (s : State) (p : Nat) (bs : List Byte) : Bool :=
  let e := etypeOf bs
  e == 0x888E || (e != 0 && (e == s.fld (aMsc p 0x048) 0 16 || e == s.fld (aMsc p 0x048) 16 16))

/-- The SecTAG of a transmitted frame: TCI, SL, PN and, with INC_SCI, the SCI. `n` is the length of the secure data. -/
def secTag (s : State) (p an n pn : Nat) : List Byte :=
  let conf := s.bitAt (aMsc p 0x040) 3
  let sc := s.bitAt (aMsc p 0x040) 6
  beBytes 2 0x88E5 ++ [b8 (an + b2n conf * 0x0C + b2n sc * 0x20), b8 (if n < 48 then n else 0)] ++ beBytes 4 pn
    ++ (if sc then beBytes 8 (txSci s p) else [])

/-- A frame without FCS, protected with transmit SA `i` at packet number `pn`. -/
def protectBytes (s : State) (p i pn : Nat) (bs : List Byte) : List Byte :=
  let sa := SaId.tx i
  let data := bs.drop 12
  let tag := secTag s p (bits (saCtrl s p sa) 1 2) data.length pn
  let clear := if s.bitAt (aMsc p 0x040) 3 then mscOffset s p else data.length
  let r := Config.gcm (s.keySlot (saKey s p sa)).key (mscIv s p sa (txSci s p) pn)
    (bs.take 12 ++ tag ++ data.take clear) (data.drop clear)
  bs.take 12 ++ tag ++ data.take clear ++ r.1 ++ beBytes 16 r.2.toNat

/-- Bytes that the egress SecY adds to a frame (R267). -/
def secyAdds (s : State) (p : Nat) (bs : List Byte) : Nat :=
  if !mscEn s p || mscBypass s p bs then 0 else 24 + 8 * b2n (s.bitAt (aMsc p 0x040) 6)

/-- R386, R395, R396, R399, R405, R407, R417: what MSC egress makes of a frame at F; none when it drops the frame. The
Boolean is true when the frame is to end with an inverted FCS (a repeated pipe mismatch).
Marks: DEDUCED (log entry 35). -/
def mscTransmit (s : State) (p : Nat) (bs : List Byte) (cmp : PipeCmp) : State × Option (List Byte × Bool) :=
  let i := b2n (s.bitAt (aMsc p 0x054) 0)
  let sa := SaId.tx i
  let pn := saPn s p sa
  if !mscEn s p then (s, some (bs, false))
  else if s.bitAt (aMsc p 0x040) 9 && s.mode == .standby then (s, none)
  else if !s.bitAt (aCe 0x044) 0 then (s.bump (aMscCnt p 14), none)
  else if mscBypass s p bs then (s.bump (aMscCnt p 10), some (bs, false))
  else if !pipeReady s true p then (s.bump (aMscCnt p 14), none)
  else
    match readSlot s (saKey s p sa) with
    | (t, bad) =>
      let t := raiseRsv (if pnLimit t p < pn then exhaustTx t p i else t) p sa
      if (t.saRun p sa).exhausted then (t.bump (aMscCnt p 11), none)
      else if bad || !saAuthority t p sa then (revokedOnce (t.bump (aMscCnt p 12)) p sa, none)
      else if t.pair (aMsc p (saOff sa + 0x0C)) < pn then (t.bump (aMscCnt p 13), none)
      else
        let u := (setSaPn t p sa ((pn + 1) % 2 ^ 64)).bump (aMscCnt p 9)
        let u := raiseRsv (pnWarn u p i pn) p sa
        let out := protectBytes s p i pn bs
        match cmp with
        | .agree => (u, some (out, false))
        | .retry => (pipeRetry u, some (out, false))
        | .differ => ((pipeFail u true p).bump (aMscCnt p 15), some (out, true))

/-! ### Reception -/

/-- A received SecTAG. -/
structure RxTag where
  tci : Nat
  sl : Nat
  pn : Nat
  sci : Nat
  /-- bytes of the SecTAG, EtherType included -/
  len : Nat
deriving DecidableEq, Repr

/-- The SecTAG of a frame whose EtherType is 0x88E5. -/
def rxTag (bs : List Byte) : RxTag :=
  let tci := byteAt bs 14
  let sc := bit tci 5
  { tci := tci, sl := byteAt bs 15, pn := beAt bs 16 4,
    sci := if sc then beAt bs 20 8 else beAt bs 6 6 * 2 ^ 16 + 1, len := if sc then 16 else 8 }

/-- Step 1 of R389. -/
def rxTagOk (t : RxTag) : Bool :=
  !bit t.tci 7 && decide (t.sl ≤ 47) && !(bit t.tci 5 && (bit t.tci 6 || bit t.tci 4))

/-- Step 2 of R389: the receive SC of an SCI. -/
def rxScOf (s : State) (p sci : Nat) : Option Nat :=
  (List.range 4).find? (fun c =>
    s.bitAt (aMsc p (0x108 + 0x60 * c)) 0 && s.pair (aMsc p (0x100 + 0x60 * c)) == sci)

/-- Step 3 of R389: the SA of an SC with an AN. -/
def rxSaOf (s : State) (p c an : Nat) : Option SaId :=
  ((List.range 2).find? (fun i =>
    bit (saCtrl s p (.rx c i)) 0 && bits (saCtrl s p (.rx c i)) 1 2 == an)).map (SaId.rx c)

/-- Step 5 of R389: the PN in full; for XPN recovered from its low half and LOWPN (IEEE 802.1AEbw). -/
def rxPn (s : State) (p : Nat) (sa : SaId) (pn : Nat) : Nat :=
  if !mscXpn s p then pn
  else
    let low := saPn s p sa
    let hi := low / 2 ^ 32
    if bit (low % 2 ^ 32) 31 && !bit pn 31 then ((hi + 1) * 2 ^ 32 + pn) % 2 ^ 64 else hi * 2 ^ 32 + pn

/-- Plaintext and verdict of a protected frame (its FCS already taken off). -/
def rxOpen (s : State) (p : Nat) (sa : SaId) (t : RxTag) (pn : Nat) (bs : List Byte) : List Byte × Bool :=
  let conf := bit t.tci 3
  let body := bs.drop (12 + t.len)
  let data := body.take (body.length - 16)
  let clear := if conf then mscOffset s p else data.length
  let key := (s.keySlot (saKey s p sa)).key
  let iv := mscIv s p sa t.sci pn
  let aad := bs.take (12 + t.len) ++ data.take clear
  let plain := Config.gcmPlain key iv (data.drop clear)
  let good := beBytes 16 (Config.gcm key iv aad plain).2.toNat == body.drop (body.length - 16)
  (bs.take 12 ++ data.take clear ++ plain, good && decide (16 ≤ body.length))

/-- R394: a short plaintext is padded to 60 bytes; a fresh FCS follows. -/
def rxFinish (bs : List Byte) : List Byte := paddedFrame bs

/-- What MSC ingress hands to PRS. -/
inductive RxMsc where
  /-- dropped before PRS -/
  | drop
  /-- passed unchanged -/
  | clear (bs : List Byte)
  /-- plaintext of a protected frame, whether its ICV failed, whether it ends as RX_ABORT -/
  | open_ (bs : List Byte) (icvFail aborted : Bool)
deriving DecidableEq, Repr

/-- R390: LOWPN after a good verdict on `pn`. -/
def lowAfter (s : State) (p : Nat) (sa : SaId) (pn : Nat) : Nat :=
  max (max (saPn s p sa) (pn + 1 - (s.reg (aMsc p 0x044)).toNat)) 1

/-- R398: LOWPN of a receive SA has passed the limit of its suite. -/
def rxPassed (s : State) (p : Nat) (sa : SaId) : Bool := (s.saRun p sa).exhausted || decide (pnLimit s p < saPn s p sa)

/-- R390, R397: the verdict of a frame under SA `sa`. -/
def rxVerdict (s : State) (p : Nat) (sa : SaId) (pn : Nat) (good : Bool) : State :=
  if !good then (s.bump (aMscCnt p 1)).raise (pMsc p) 2
  else
    let t := s.bump (aMscCnt p 0)
    if s.bitAt (aMsc p 0x040) 7 then
      setSaPn t p sa (lowAfter s p sa pn % 2 ^ 64)
    else t

/-- R398: a receive SA whose LOWPN has passed its limit accepts nothing; the frame counts in RX_REPLAY. `full` frames
without FCS. Marks: DEDUCED (log entry 53). -/
def mscProtected (s : State) (p : Nat) (bs : List Byte) (cmp : PipeCmp) : State × RxMsc :=
  let t := rxTag bs
  if !rxTagOk t then (s.bump (aMscCnt p 2), .drop)
  else
    match rxScOf s p t.sci with
    | none => (s.bump (aMscCnt p 3), .drop)
    | some c =>
      match rxSaOf s p c (t.tci % 4) with
      | none => (s.bump (aMscCnt p 4), .drop)
      | some sa =>
        match readSlot s (saKey s p sa) with
        | (u, bad) =>
          let pn := rxPn u p sa t.pn
          if bad || !saAuthority u p sa then (revokedOnce (u.bump (aMscCnt p 5)) p sa, .drop)
          else if pn = 0 || rxPassed u p sa || (u.bitAt (aMsc p 0x040) 7 && decide (pn < saPn u p sa)) then
            (u.bump (aMscCnt p 6), .drop)
          else
            let (plain, good) := rxOpen u p sa t pn bs
            let v := rxVerdict u p sa pn good
            let v := if good && u.bitAt (aMsc p 0x040) 7 && decide (pnLimit u p < lowAfter u p sa pn) then
                v.setSaRun p sa { v.saRun p sa with exhausted := true } else v
            match cmp with
            | .agree => (v, .open_ (rxFinish plain) (!good) false)
            | .retry => (pipeRetry v, .open_ (rxFinish plain) (!good) false)
            | .differ => ((pipeFail v false p).bump (aMscCnt p 15), .open_ (rxFinish plain) (!good) true)

/-- R386, R389, R407, R417: MSC ingress of a port with its SecY enabled; `bs` includes the FCS.
Marks: DEDUCED (log entry 53). -/
def mscReceive (s : State) (p : Nat) (bs : List Byte) (cmp : PipeCmp) : State × RxMsc :=
  let body := bs.take (bs.length - 4)
  if !mscEn s p then (s, .clear bs)
  else if !s.bitAt (aCe 0x044) 0 then (s.bump (aMscCnt p 14), .drop)
  else if mscBypass s p bs then (s.bump (aMscCnt p 8), .clear bs)
  else if etypeOf bs ≠ 0x88E5 then (s.bump (aMscCnt p 7), .drop)
  else if !pipeReady s false p then (s.bump (aMscCnt p 14), .drop)
  else mscProtected s p body cmp

end Sys2Proof.Machine
end

