-- ==== Sys2Proof/Machine/EgressOps.lean ====
section
/-!
DEFINITION. Lengths, shapers, gates and preemption points of an egress port (spec/09_egress_scheduling.md, R266 to
R296; spec/04_ethernet_ports.md, R133 to R135).
-/
namespace Sys2Proof.Machine
open Sys2Proof

/-- BAR0 offset of a register of an EGS page. -/
def aEgs (p off : Nat) : Nat := regAddr (pEgs p) off

/-- BAR0 offset of a register of queue `q`. -/
def aQ (p q off : Nat) : Nat := aEgs p (0x100 + 0x20 * q + off)

/-- BAR0 offset of counter `k` of Table 9-5. -/
def aEgsCnt (p k : Nat) : Nat := aEgs p (0x300 + 8 * k)

/-- BAR0 offset of a MAC register. -/
def aMac (p off : Nat) : Nat := regAddr (pMac p) off

/-- BAR0 offset of counter `k` of Table 4-7. -/
def aMacCnt (p k : Nat) : Nat := aMac p (0x100 + 8 * k)

/-! ### Lengths (R267, R268) -/

/-- Refills that fall after this cycle's, up to cycle `f`; this cycle's own when it is still to come. -/
def refillsBy (s : State) (f : Nat) : Nat :=
  f / 256 - s.cclk / 256 + (if s.cclk % 256 = 0 ∧ s.egress.refillAt ≠ s.cclk + 1 then 1 else 0)

/-- A shaper setting of an EGS page as it will act at cycle `f` (R280). -/
def egsValAt (s : State) (p off f : Nat) : Word := if refillsBy s f = 0 then egsVal s p off else s.reg (aEgs p off)

/-- OVH as it acts at cycle `f`. -/
def ovhAt (s : State) (p f : Nat) : Int := signed 8 (fld (egsValAt s p 0x040 f) 0 8)

/-- OVH as it acts now. -/
def ovh (s : State) (p : Nat) : Int := signed 8 (fld (egsVal s p 0x040) 0 8)

/-- Edits of a copy on its way out: TAG0 off (R179), then the R-TAG behind the tags that stay (R209).
Marks: DEDUCED (log entry 35). -/
def editTags (f : Frame) (p : Nat) : List Byte :=
  let bs := f.bytes.take (storedLen f)
  let cut := bit f.untag p && f.parse.keys.tag0.isSome
  let body := if cut then bs.take 12 ++ bs.drop 16 else bs
  match f.seqTag with
  | none => body
  | some n =>
    let o := 12 + 4 * (f.parse.keys.ntags - b2n cut)
    body.take o ++ beBytes 2 0xF1C1 ++ [0, 0] ++ beBytes 2 n ++ body.drop o

/-- L_tx of a copy (R267). -/
def txLen (s : State) (p : Nat) (f : Frame) : Nat :=
  let bs := editTags f p
  max 64 (bs.length + 4 + secyAdds s p bs)

/-- B: the counted length of a copy that starts at `f` (R268). -/
def countedLen (s : State) (p f l : Nat) : Nat := max 1 (((l : Int) + ovhAt s p f).toNat)

/-- D: line time of a copy of length `l` (R268). -/
def lineTime (s : State) (p l : Nat) : Nat := byteTime (portMbps s p) (l + 20)

/-! ### Token buckets (R277 to R280) -/

/-- Units of 2^-24 byte that a refill adds at a rate in kb/s. -/
def refillStep (rate : Nat) : Nat := divOpen (rate * 256 * 2 ^ 24) 8000000

/-- Offset of RATE of bucket `i` of a port in its EGS page: queues 0 to 7, 8 the port's. -/
def rateOff (i : Nat) : Nat := if i = 8 then 0x04C else 0x104 + 0x20 * i

/-- Offset of BURST. -/
def burstOff (i : Nat) : Nat := if i = 8 then 0x050 else 0x108 + 0x20 * i

/-- RATE of a bucket as committed, which the next refill uses. -/
def bucketRate (s : State) (p i : Nat) : Nat := s.fld (aEgs p (rateOff i)) 0 27

/-- BURST as committed, in units of 2^-24 byte. -/
def bucketBurst (s : State) (p i : Nat) : Int := (s.fld (aEgs p (burstOff i)) 0 24 * 2 ^ 24 : Nat)

/-- R279: the floor of a bucket at an OVH. -/
def levelFloor (o : Int) : Int := -((9254 + o) * 2 ^ 24)

/-- Level of a bucket. -/
def bucketLevel (s : State) (p i : Nat) : Int := Tab.get (fun _ => 0) (s.egs p).level i

/-- The state with the level of a bucket changed. -/
def setBucket (s : State) (p i : Nat) (l : Int) : State :=
  let e := s.egs p
  s.setEgs p { e with level := Tab.set (fun _ => 0) e.level i l }

/-- R277, R280: a level after `n` refills, which use the committed settings. -/
def refilled (s : State) (p i n : Nat) (l : Int) : Int :=
  if n = 0 ∨ bucketRate s p i = 0 then l
  else max (levelFloor (signed 8 (s.fld (aEgs p 0x040) 0 8)))
    (min (bucketBurst s p i) (l + (n * refillStep (bucketRate s p i) : Nat)))

/-- R278, R279: a level after the charge of `b` bytes at cycle `f`; a bucket with RATE = 0 is off. -/
def chargedLevel (s : State) (p i f b : Nat) (l : Int) : Int :=
  if fld (egsValAt s p (rateOff i) f) 0 27 = 0 then l
  else max (levelFloor (ovhAt s p f)) (l - (b * 2 ^ 24 : Nat))

/-- A step of the prediction of R272: cycle and level, then the charge of a selected copy at its start. -/
def levelStep (s : State) (p i : Nat) (x : Nat × Int) (r : TxRun) : Nat × Int :=
  (r.start, chargedLevel s p i r.start r.charge (refilled s p i (refillsBy s r.start - refillsBy s x.1) x.2))

/-- The level as it will stand at cycle `f`, with the charges of the copies selected to start by then (R272). -/
def levelAt (s : State) (p i f : Nat) : Int :=
  let due := (s.egs p).sel.filter (fun r => decide (r.start < f) && (i == 8 || r.q == i))
  let l0 := refilled s p i (refillsBy s s.cclk) (bucketLevel s p i)
  let x := due.foldl (levelStep s p i) (s.cclk, l0)
  refilled s p i (refillsBy s f - refillsBy s x.1) x.2

/-- R274: bucket `i` withholds nothing at cycle `f`. -/
def bucketPass (s : State) (p i f : Nat) : Bool :=
  fld (egsValAt s p (rateOff i) f) 0 27 == 0 || decide (0 ≤ levelAt s p i f)

/-- R277, R280: one refill of one bucket. -/
def refillBucket (s : State) (p i : Nat) : State :=
  if bucketRate s p i = 0 then s else setBucket s p i (refilled s p i 1 (bucketLevel s p i))

/-- R278, R279: the charge of a bucket at a start. -/
def chargeBucket (s : State) (p i b : Nat) : State :=
  if fld (egsVal s p (rateOff i)) 0 27 = 0 then s
  else setBucket s p i (max (levelFloor (ovh s p)) (bucketLevel s p i - (b * 2 ^ 24 : Nat)))

/-! ### Credit (R282) -/

/-- ALG of a queue. -/
def queueAlg (s : State) (p q : Nat) : Nat := s.fld (aQ p q 0) 1 2

/-- R282: the change of a credit at the start of a copy of counted length `b`, at a slope in kb/s. -/
def creditCharge (s : State) (p slope b : Nat) (c : Int) : Int :=
  let r := portMbps s p * 1000
  let m := divOpen ((if slope ≤ r then r - slope else slope - r) * b * 8 * 2 ^ 24) r
  if slope ≤ r then c - (m : Nat) else c + (m : Nat)

/-- R282: the step at the start of a copy of counted length `b` and line time `d`. -/
def chargeCredit (s : State) (p q b d : Nat) : State :=
  if queueAlg s p q ≠ 1 then s
  else setCredit s p q (s.cclk + d)
    (creditCharge s p (fld (egsVal s p (0x10C + 0x20 * q)) 0 27) b (creditNow s p q s.cclk))

/-- The credit of every CBS queue of a port brought forward to now. -/
def settleCredits (s : State) (p : Nat) : State := (List.range 8).foldl (fun t q => settleCredit t p q) s

/-- R304: a word of EGS that failed twice and was replaced. -/
def egsLost (s : State) (p : Nat) (m : InjMark) : State :=
  ((memRepeated s m.region true).bump (aEgsCnt p 4)).report 0x08 (unitId 1 p) (memDetail m) true

/-- R304: a level of a port that fails twice: bucket `k` < 9, then the credits, then the deficits. -/
def loseLevel (s : State) (p k : Nat) (m : InjMark) : State :=
  let t := egsLost s p m
  if k < 9 then setBucket t p k (bucketBurst t p k)
  else if k < 17 then setCredit t p (k - 9) t.cclk 0
  else setDeficit t p (k - 17) 0

/-- R304: a decision reads the port's levels; which one fails twice stands open. Marks: DESIGN CHOICE (log entry 61). -/
def readLevels (s : State) (p : Nat) : State :=
  match memRead s 9 0 none with
  | (t, none) => t
  | (t, some m) => loseLevel t.tick1 p (Config.freeNat t.free % 25) m

/-! ### Preemption -/

/-- R133: preemption is active. -/
def mmActive (s : State) (p : Nat) : Bool :=
  decide (p < 32) && (s.mac p).link == .up && s.bitAt (aMac p 0x050) 0
  && (s.bitAt (aMac p 0x050) 1 || (s.mac p).verify == .succeeded)

/-- ADD_FRAG. -/
def addFrag (s : State) (p : Nat) : Nat := s.fld (aMac p 0x050) 2 2

/-- PTC names the class. -/
def inPtc (s : State) (p q : Nat) : Bool := s.bitAt (aMac p 0x050) (16 + q)

/-- R135: the bound, in cycles. -/
def preemptBound (s : State) (p : Nat) : Nat := byteTime (portMbps s p) (135 + 64 * addFrag s p)

/-- Bytes of the frame that a transmission has sent by cycle `t`: the preamble goes first. -/
def frameSent (s : State) (p : Nat) (x : TxRun) (t : Nat) : Nat :=
  x.sent + ((t - x.start) * portMbps s p / 8000 - 8)

/-- R134: the first point at or after cycle `t` at which the frame on the line may be cut, in frame bytes. -/
def cutPoint (s : State) (p : Nat) (x : TxRun) (t : Nat) : Option Nat :=
  let l := x.bytes.length
  let n := max (frameSent s p x t) (x.sent + 64 * (1 + addFrag s p) - 4)
  if x.preemptable && decide (124 + 64 * addFrag s p ≤ l) && decide (x.frags < 3) && decide (n + 64 ≤ l) then some n
  else none

/-- Cycle in which the line is free after a fragment that ends at frame byte `n`: preamble, fragment, mCRC and gap. -/
def fragEnd (s : State) (p : Nat) (x : TxRun) (n : Nat) : Nat :=
  x.start + byteTime (portMbps s p) (8 + (n - x.sent) + 4 + 12)

/-- R273: cycle in which the line is free after the present transmission or fragment. -/
def lineFreeAt (s : State) (p : Nat) (x : TxRun) : Nat :=
  match x.suspendAt with
  | some n => fragEnd s p x n
  | none => x.endAt

/-! ### Gate control lists (R284 to R290) -/

/-- A gate control entry. -/
def gclEntry (s : State) (p i : Nat) : Nat := (Tab.get (fun _ => (0 : Word)) s.egress.gcl (1024 * p + i)).toNat

/-- DUR of an entry. -/
def gclDur (v : Nat) : Nat := bits v 11 21

/-- The first entry of a list at or after position `i` that is not skipped. -/
def gclNext (s : State) (p base len i : Nat) : Option Nat :=
  ((List.range len).find? (fun j => decide (i ≤ j) && gclDur (gclEntry s p (base + j)) != 0))

/-- The list boundary that follows a position: the next one with PHASE = `EGS_GCL_OFS`. -/
def boundaryAfter (s : State) (p pos : Nat) : Nat :=
  let d := ((s.reg (aEgs p 0x058)).toNat + 2 ^ 32 - pos % 2 ^ 32) % 2 ^ 32
  pos + (if d = 0 then 2 ^ 32 else d)

/-- R290: predicted cycle in which the position reaches `pos`; none when it is unbounded. -/
def predictPos (s : State) (ppm pos : Nat) : Option Nat :=
  let d := (pos + 2 ^ 64 - s.pos.toNat) % 2 ^ 64
  if 2 ^ 63 ≤ d then some s.cclk
  else if s.pb.rate = 0 then none
  else some (s.cclk + d * 2 ^ 24 * 10 ^ 6 / (s.pb.rate * (10 ^ 6 + ppm)))

/-- Position predicted for a cycle. -/
def posAt (s : State) (t : Nat) : Nat :=
  (s.pos.toNat + (if pbFrozen s.pb then 0 else (t - s.cclk) * s.pb.rate / 2 ^ 24)) % 2 ^ 64

/-- A stretch of the predicted gate states. -/
structure GateSeg where
  since : Nat
  until_ : Option Nat
  gates : Nat
  hold : Bool
deriving DecidableEq, Repr

/-- The earlier of two predicted cycles; none is never. -/
def earlier : Option Nat → Option Nat → Option Nat
  | none, b => b
  | a, none => a
  | some x, some y => some (min x y)

/-- HOLD after an entry begins (R287). -/
def gclHold (v : Nat) (hold : Bool) : Bool :=
  match bits v 8 2 with
  | 1 => true
  | 2 => false
  | _ => hold

/-- Predicted CCLK count of a commit point (R588). -/
def pointCycle (s : State) : CommitPoint → Nat
  | .cycle n => n
  | .sync n => predictNumber s n

/-- Values that armed commits give a register: the predicted cycle of the point and the value, in commit order. -/
def armedWrites (s : State) (a : Nat) : List (Nat × Word) :=
  s.commits.flatMap (fun c => c.parts.flatMap (fun x =>
    (x.vals.filter (fun v => v.off == a)).map (fun v => (pointCycle s c.point, v.val))))

/-- A register as it will stand at cycle `t`, armed commits included. -/
def regAt (s : State) (a t : Nat) : Word :=
  match ((armedWrites s a).filter (fun x => decide (x.1 ≤ t))).getLast? with
  | some x => x.2
  | none => s.reg a

/-- R289: the list in effect after a boundary at predicted cycle `t`: one that an armed commit installs by then, one
that waits, or the present one. -/
def listAfter (s : State) (p t : Nat) : Nat × Nat :=
  let e := s.egs p
  match ((armedWrites s (aEgs p 0x054)).filter (fun x => decide (x.1 ≤ t))).getLast? with
  | some x => (fld x.2 0 10, fld x.2 10 11)
  | none => e.install.getD (e.base, e.len)

/-- A step of the look-ahead: list, entry, its begin cycle and position, the next boundary. -/
structure GateWalk where
  base : Nat
  len : Nat
  i : Nat
  at_ : Nat
  pos : Nat
  bound : Nat
  hold : Bool

/-- End of the entry of a walk by its own duration: cycle and position. -/
def walkEnd (s : State) (p ppm : Nat) (w : GateWalk) : Option Nat × Nat :=
  let v := gclEntry s p (w.base + w.i)
  if bit v 10 then (some (w.at_ + gclDur v), posAt s (w.at_ + gclDur v))
  else
    let pe := (w.pos + gclDur v * 2 ^ 11) % 2 ^ 64
    (predictPos s ppm pe, pe)

/-- R289, R290: at most `n` entries from the one of a walk on. Marks: DEDUCED (log entry 35). -/
def gateSegs (s : State) (p ppm : Nat) : Nat → GateWalk → List GateSeg
  | 0, _ => []
  | n + 1, w =>
    let v := gclEntry s p (w.base + w.i)
    let bAt := predictPos s ppm w.bound
    let (eAt, ePos) := walkEnd s p ppm w
    let inner := match eAt, bAt with
      | some x, some y => decide (x < y)
      | some _, none => true
      | none, _ => false
    match inner, gclNext s p w.base w.len (w.i + 1) with
    | true, some j =>
      { since := w.at_, until_ := eAt, gates := bits v 0 8, hold := w.hold } ::
        gateSegs s p ppm n { w with
          i := j, at_ := eAt.getD 0, pos := ePos, hold := gclHold (gclEntry s p (w.base + j)) w.hold }
    | _, _ =>
      { since := w.at_, until_ := bAt, gates := bits v 0 8, hold := w.hold } ::
        (match bAt with
         | none => []
         | some t =>
           let (b, l) := listAfter s p t
           match gclNext s p b l 0 with
           | none => [{ since := t, until_ := none, gates := if l = 0 then 0xFF else bits v 0 8,
                        hold := if l = 0 then false else w.hold }]
           | some j => gateSegs s p ppm n {
               base := b, len := l, i := j, at_ := t, pos := w.bound,
               bound := boundaryAfter s p w.bound, hold := gclHold (gclEntry s p (b + j)) w.hold })

/-- Entries that the walk covers: those that may pass before F, and the 16 of R289. -/
def lookAhead : Nat := 1040

/-- The list boundary at which a port without a list takes one: the next one for a list that waits, the first one from its
point on for one that an armed commit installs (R288). -/
def firstBoundary (s : State) (p : Nat) : Option Nat :=
  let e := s.egs p
  if e.install.isSome then some (boundaryAfter s p e.entryPos.toNat)
  else match armedWrites s (aEgs p 0x054) with
    | x :: _ => some (boundaryAfter s p ((posAt s (max x.1 s.cclk) + 2 ^ 64 - 1) % 2 ^ 64))
    | [] => none

/-- The predicted gate states of a port from now on. -/
def portSegs (s : State) (p ppm : Nat) : List GateSeg :=
  let e := s.egs p
  if e.len = 0 then
    match firstBoundary s p with
    | none => [{ since := s.cclk, until_ := none, gates := e.gates, hold := e.hold }]
    | some bp =>
      match predictPos s ppm bp with
      | none => [{ since := s.cclk, until_ := none, gates := e.gates, hold := e.hold }]
      | some t =>
        let (b, l) := listAfter s p t
        match gclNext s p b l 0 with
        | some j =>
          { since := s.cclk, until_ := some t, gates := e.gates, hold := e.hold } :: gateSegs s p ppm lookAhead {
             base := b, len := l, i := j, at_ := t, pos := bp,
             bound := boundaryAfter s p bp, hold := gclHold (gclEntry s p (b + j)) e.hold }
        | none => [{ since := s.cclk, until_ := none, gates := e.gates, hold := e.hold }]
  else
    match gateSegs s p ppm lookAhead {
        base := e.base, len := e.len, i := e.entry, at_ := e.entryAt, pos := e.entryPos.toNat,
        bound := boundaryAfter s p e.entryPos.toNat, hold := e.hold } with
    | x :: r => { x with gates := e.gates } :: r
    | [] => []

/-- The stretches from the one that holds cycle `f` on, at most 16. -/
def segsFrom (f : Nat) (l : List GateSeg) : List GateSeg :=
  (l.dropWhile (fun x => match x.until_ with | some t => decide (t ≤ f) | none => false)).take 16

/-- Gate of queue `q` open, and HOLD, at a cycle. -/
def gateAt (s : State) (p q f : Nat) : Bool × Bool :=
  match segsFrom f (portSegs s p 0) with
  | x :: _ => (bit x.gates q, x.hold)
  | [] => (bit (s.egs p).gates q, (s.egs p).hold)

/-- End of the open run of queue `q` that a list of stretches begins with. -/
def runEnd (q : Nat) : List GateSeg → Option Nat
  | [] => none
  | x :: rest =>
    if !bit x.gates q then some x.since
    else
      match x.until_, rest with
      | none, _ => none
      | some t, [] => some t
      | some _, _ => runEnd q rest

/-- R289: the close C of queue `q` for a start F; none when it does not close. Marks: DEDUCED (log entry 35). -/
def gateClose (s : State) (p q f : Nat) : Option Nat :=
  runEnd q (segsFrom f (portSegs s p (s.fld (aEgs p 0x048) 0 20)))

/-- Whether a transmission that ends at `t` ends inside the window that closes at C, less GUARD. -/
def fitsClose (s : State) (p t : Nat) : Option Nat → Bool
  | none => true
  | some c => decide (t + s.fld (aEgs p 0x044) 0 16 ≤ c)

/-! ### Credit as it will stand at F (R272, R282) -/

/-- A credit over cycles `a` to `b` with its gate open, the slope changing with the next refill when it is to (R283). -/
def creditOpen (s : State) (p q a b : Nat) (c : Int) : Int :=
  let held := !(s.queue p q).isEmpty
  let step (t : Nat) : Nat := creditStep (fld (egsValAt s p (0x10C + 0x20 * q) t) 0 27)
  let m := max a (min b ((s.cclk / 256 + 1) * 256))
  creditRise (creditRise c held (step a) (m - a)) held (step m) (b - m)

/-- A credit over cycles `a` to `b` through predicted gate states: it holds while the gate is closed. -/
def creditSpan (s : State) (p q a b : Nat) : List GateSeg → Int → Int
  | [], c => c
  | g :: r, c =>
    let lo := max a g.since
    let hi := match g.until_ with | some t => min b t | none => b
    creditSpan s p q a b r (if bit g.gates q && decide (lo < hi) then creditOpen s p q lo hi c else c)

/-- A step of the prediction: the credit up to the start of a selected copy, its charge, then the end of its line time. -/
def creditMove (s : State) (p q : Nat) (segs : List GateSeg) (x : Nat × Int) (r : TxRun) : Nat × Int :=
  let c := creditSpan s p q x.1 r.start segs x.2
  (r.endAt, creditCharge s p (fld (egsValAt s p (0x10C + 0x20 * q) r.start) 0 27) r.charge c)

/-- The credit as it will stand at cycle `f`, with the predicted gate states and the copies selected to start by then. -/
def creditAt (s : State) (p q f : Nat) : Int :=
  let segs := portSegs s p 0
  let due := (s.egs p).sel.filter (fun r => decide (r.start < f) && r.q == q)
  let x := due.foldl (creditMove s p q segs) (max s.cclk (Tab.get (fun _ => 0) (s.egs p).creditAt q), creditNow s p q s.cclk)
  creditSpan s p q x.1 f segs x.2

/-! ### Entries begin -/

/-- R294: a preemptable frame on the line is cut at the first point that R134 allows. -/
def preemptClose (s : State) (p : Nat) : State :=
  let e := s.egs p
  match e.tx with
  | none => s
  | some x =>
    if !x.preemptable || !mmActive s p || x.suspendAt.isSome || (bit e.gates x.q && !e.hold) then s
    else
      match cutPoint s p x s.cclk with
      | none => s
      | some n => (s.setEgs p { e with tx := some { x with suspendAt := some n } }).bump (aEgsCnt p 2)

/-- R296: an express frame still on the line when its gate closes. -/
def windowOverrun (s : State) (p : Nat) : State :=
  let e := s.egs p
  match e.tx with
  | none => s
  | some x =>
    if x.overrun || bit e.gates x.q || decide (x.endAt ≤ s.cclk) || (x.preemptable && mmActive s p) then s
    else
      ((((s.setEgs p { e with tx := some { x with overrun := true } }).bump (aEgsCnt p 0)).raise (pEgs p) 0).report 0x12
        (unitId 1 p) [] false)

/-- R304: a gate control entry whose word fails twice is read from the mirror copy. -/
def readSchedule (s : State) (p : Nat) : State :=
  match memRead s 5 0 none with
  | (t, none) => t
  | (t, some m) => egsLost t p m

/-- R287: entry `i` of a list begins at a position, in this cycle. -/
def entryBegins (s : State) (p base len i pos : Nat) : State :=
  let t := readSchedule (settleCredits s p) p
  let e := t.egs p
  let v := gclEntry t p (base + i)
  let t := t.setEgs p { e with base := base, len := len, install := none, entry := i, entryAt := t.cclk,
                               entryPos := BitVec.ofNat 64 pos, gates := bits v 0 8, hold := gclHold v e.hold }
  windowOverrun (preemptClose t p) p

/-- R285: LEN = 0: every gate open, no HOLD. -/
def listOff (s : State) (p : Nat) : State :=
  let t := settleCredits s p
  let e := t.egs p
  t.setEgs p { e with base := 0, len := 0, install := none, entry := 0, gates := 0xFF, hold := false }

/-- A list takes effect at a boundary with position `pos`. -/
def listBegins (s : State) (p base len pos : Nat) : State :=
  if len = 0 then listOff s p
  else
    match gclNext s p base len 0 with
    | some i => entryBegins s p base len i pos
    | none =>
      let e := s.egs p
      s.setEgs p { e with base := base, len := len, install := none, entry := 0, entryAt := s.cclk,
                          entryPos := BitVec.ofNat 64 pos }

/-- R286: the position has reached a list boundary, `EGS_GCL_OFS`, between two cycles. -/
def reachesOfs (before after ofs : Nat) : Bool :=
  decide ((after + 2 ^ 32 - ofs) % 2 ^ 32 < (after + 2 ^ 64 - before) % 2 ^ 64)

/-- R107: the entry of a list that covers the present position, walking `n` entries from the last boundary. -/
def coverEntry (s : State) (p base len : Nat) : Nat → Nat → Nat → Nat → Nat × Nat × Nat
  | 0, i, at_, pos => (i, at_, pos)
  | n + 1, i, at_, pos =>
    let v := gclEntry s p (base + i)
    let endAt := at_ + gclDur v
    let endPos := (pos + gclDur v * 2 ^ 11) % 2 ^ 64
    let ended := if bit v 10 then decide (endAt ≤ s.cclk) else decide ((s.pos.toNat + 2 ^ 64 - endPos) % 2 ^ 64 < 2 ^ 63)
    match ended, gclNext s p base len (i + 1) with
    | true, some j =>
      if bit v 10 then coverEntry s p base len n j endAt (posAt s s.cclk - (s.cclk - endAt) * s.pb.rate / 2 ^ 24)
      else coverEntry s p base len n j
        (s.cclk - (if s.pb.rate = 0 then 0 else (s.pos.toNat + 2 ^ 64 - endPos) % 2 ^ 64 * 2 ^ 24 / s.pb.rate)) endPos
    | _, _ => (i, at_, pos)

/-- R107: a list installed at a forced sync point is placed at the position of that point. -/
def placeList (s : State) (p base len : Nat) : State :=
  if len = 0 then listOff s p
  else
    match gclNext s p base len 0 with
    | none => listBegins s p base len s.pos.toNat
    | some i0 =>
      let back := (s.pos.toNat + 2 ^ 32 - (s.reg (aEgs p 0x058)).toNat % 2 ^ 32) % 2 ^ 32
      let p0 := (s.pos.toNat + 2 ^ 64 - back) % 2 ^ 64
      let a0 := min s.cclk (Tab.get (fun _ => 0) s.egress.boundAt p)
      let (i, at_, pos) := coverEntry s p base len len i0 a0 p0
      let t := entryBegins s p base len i pos
      let e := t.egs p
      t.setEgs p { e with entryAt := at_ }

/-- R288: a committed list waits for its list boundary. -/
def installList (s : State) (p base len : Nat) : State :=
  let e := s.egs p
  s.setEgs p { e with install := some (base, len),
                      entryPos := if e.len = 0 then s.pos - 1 else e.entryPos }

end Sys2Proof.Machine
end

