-- ==== Sys2Proof/Machine/Egress.lean ====
section
/-!
DEFINITION. The egress stage, gate control and preemption (spec/09_egress_scheduling.md), with the rewriting of Sync
messages (R376 to R380).
-/
namespace Sys2Proof.Machine
open Sys2Proof

/-! ### Sync messages on their way out -/

/-- The cycle in which a frame that starts at `f` crosses the MII boundary: the SecY of a port adds its own time. -/
def leaveAt (s : State) (p f : Nat) : Nat := f + (if mscEn s p then 56 else 0)

/-- R138, R141, R377: the egress timestamp of a frame that starts at `f`, in units of 2^-16 ps of domain `d`. The
cycle, with the sub-cycle position of the lane, in units of 2^-16 ns (R369), the fixed delays of the mode, and TX_LAT. -/
def egressTime (s : State) (p d f : Nat) : Int :=
  let m := s.mac p
  let t := leaveAt s p f
  let x := s.dom d
  let clock : Int := x.time + ((t : Int) - s.cclk) * ((2 : Int) ^ 48 + x.adj * 2 ^ 16)
  (clock / 2 ^ 32 + ((m.txSub * 2 ^ 14 + (txConst m.mode + fecTx m.mode m.fec) * 2 ^ 16 : Nat) : Int)) * 1000
    + ((regAt s (aMac p 0x05C) t).toNat * 2 ^ 16 : Nat)

/-- R376, R380: the fields that EGS writes into a Sync. -/
def editSync (s : State) (p f : Nat) (bs : List Byte) : Option PtpEdit → List Byte
  | none => bs
  | some x =>
    let e := egressTime s p x.dom f
    if !x.oneStep || x.kind != .sync then bs
    else if x.orig then putBytes bs 48 (stampBytes (e / 1000))
    else
      putBytes (putBytes bs 22 (beBytes 8 (unsigned 64 (residence x e)))) 68
        (beBytes 4 (unsigned 32 x.rate))

/-! ### Heads and eligibility (R270 to R274) -/

/-- The first copy of a queue that is neither selected nor in transmission. -/
def headOf (s : State) (p q : Nat) : Option Copy := (s.queue p q).find? (fun c => !c.busy && !c.off)

/-- R270, R271: a head that is too long or too old goes; true when one went. -/
def dropHead (s : State) (p q : Nat) : State × Bool :=
  match headOf s p q with
  | none => (s, false)
  | some c =>
    let f := s.frame c.frame
    let sdu := s.fld (aQ p q 0x10) 0 14
    let stale := s.fld (aEgs p 0x040) 16 16
    if sdu ≠ 0 ∧ sdu < txLen s p f then ((removeCopy s p q c.frame).bump (aEgs p (0x210 + 0x20 * q)), true)
    else if stale ≠ 0 ∧ earliestStart f c + stale * 1000 < s.cclk then
      (((removeCopy s p q c.frame).bump (aEgs p (0x218 + 0x20 * q))).raise (pEgs p) 3, true)
    else (s, false)

/-- Heads of a queue dropped in one decision, at most `n`. -/
def dropHeads (p q : Nat) : Nat → State → State
  | 0, s => s
  | n + 1, s =>
    match dropHead s p q with
    | (t, true) => dropHeads p q n t
    | (t, false) => t

/-- R273: a candidate. Marks: DEDUCED (log entry 35). -/
def candidate (s : State) (c : Copy) (f : Nat) : Bool :=
  let x := s.frame c.frame
  decide (earliestStart x c ≤ f) && x.stamps.length != 0
  && (if c.ct then c.released.contains 0 else c.released.length == halvesOf x)

/-- R274: the shapers withhold nothing at F. -/
def shapersPass (s : State) (p q f : Nat) : Bool :=
  bucketPass s p q f && (!s.bitAt (aQ p q 0) 5 || bucketPass s p 8 f)
  && (queueAlg s p q != 1 || decide (0 ≤ creditAt s p q f))

/-- The copy of queue `q` is preemptable on its port. -/
def isPre (s : State) (p q : Nat) : Bool := mmActive s p && inPtc s p q

/-- Transmissions of a port that run or are selected, in the order of their starts. -/
def lineRuns (s : State) (p : Nat) : List TxRun := (s.egs p).tx.toList ++ (s.egs p).sel

/-- A run holds the line, or will take it, at or after cycle `f`. -/
def holdsAt (s : State) (p f : Nat) (x : TxRun) : Bool := decide (f < lineFreeAt s p x)

/-- The preemptable run that holds the line at `f`. -/
def preHolder (s : State) (p f : Nat) : Option TxRun := (lineRuns s p).find? (fun x => x.preemptable && holdsAt s p f x)

/-- R291: W of an express copy for a start F. -/
def waitBound (s : State) (p f : Nat) : Nat := if (preHolder s p f).isSome then preemptBound s p else 0

/-- R293: a preemptable frame of the port is suspended, or will be before a copy selected now can start. -/
def suspends (s : State) (p : Nat) : Bool := (s.egs p).susp.isSome || (lineRuns s p).any (fun x => x.suspendAt.isSome)

/-- R291, R293: the gate admits the head for a start F: admitted, and whether it is a NOFIT. -/
def gateAdmits (s : State) (p q f l : Nat) : Bool × Bool :=
  let (open_, hold) := gateAt s p q f
  let c := gateClose s p q f
  if !open_ then (false, false)
  else if isPre s p q then
    (!hold && !suspends s p && fitsClose s p (f + byteTime (portMbps s p) (64 * (1 + addFrag s p) + 20)) c, false)
  else
    let ok := fitsClose s p (f + waitBound s p f + lineTime s p l) c
    (ok, !ok)

/-- R272, R292: the line is free at F for a copy of queue `q` and none is selected for F. A preemptable frame that has
started by then gives way to an express one. -/
def lineFor (s : State) (p q f : Nat) : Bool :=
  (lineRuns s p).all (fun x =>
    !holdsAt s p f x || (x.preemptable && decide (x.start < f) && mmActive s p && !inPtc s p q))

/-- R274: queue `q` with its head and that head's length; and the NOFIT of an eligible head that does not fit. -/
def eligible (s : State) (p q f : Nat) : Option (Copy × Nat) × Bool :=
  match headOf s p q with
  | none => (none, false)
  | some c =>
    let l := txLen s p (s.frame c.frame)
    if queueOff s p q || !candidate s c f || !lineFor s p q f then (none, false)
    else
      let (ok, nofit) := gateAdmits s p q f l
      if ok && shapersPass s p q f then (some (c, l), false) else (none, nofit)

/-- R291: NOFIT counts a copy once. Marks: DEDUCED (log entry 35). -/
def countNofit (p : Nat) (s : State) (n : Nat) : State :=
  let e := s.egs p
  if e.nofit.contains n then s
  else (s.setEgs p { e with nofit := n :: e.nofit }).bump (aEgsCnt p 1)

/-! ### Selection (R275, R276) -/

/-- R276: one visit of a queue of the DWRR group whose head counts `b`: true when it is served. -/
def dwrrVisit (s : State) (p q b : Nat) : State × Bool :=
  let d := deficitOf s p q
  if b ≤ d then
    let t := setDeficit s p q (d - b)
    (t.setEgs p { t.egs p with lastDwrr := q }, true)
  else (setDeficit s p q (d + s.fld (aQ p q 0) 16 16), false)

/-- R276: visits in order until one queue is served. -/
def dwrrRound (p : Nat) : List (Nat × Nat) → State → State × Option Nat
  | [], s => (s, none)
  | (q, b) :: rest, s =>
    match dwrrVisit s p q b with
    | (t, true) => (t, some q)
    | (t, false) => dwrrRound p rest t

/-- R276: rounds until a queue is served; a quantum is at least 64 bytes and a frame at most 9,381 counted bytes. -/
def dwrrRounds (p : Nat) (order : List (Nat × Nat)) : Nat → State → State × Option Nat
  | 0, s => (s, none)
  | n + 1, s =>
    match dwrrRound p order s with
    | (t, some q) => (t, some q)
    | (t, none) => dwrrRounds p order n t

/-- R276: eligible queues in the order of the group's turn. Marks: DEDUCED (log entry 35). -/
def dwrrOrder (last : Nat) (l : List (Nat × Nat)) : List (Nat × Nat) :=
  l.filter (fun x => decide (last < x.1)) ++ l.filter (fun x => decide (x.1 ≤ last))

/-- R275: the queue that wins among eligible ones of one set (queue, counted length, ascending); `members` are the
set's DWRR queues, eligible or not. -/
def pickIn (s : State) (p : Nat) (members : List Nat) (l : List (Nat × Nat)) : State × Option Nat :=
  let plain := (l.filter (fun x => queueAlg s p x.1 != 2)).map (fun x => x.1)
  let group := l.filter (fun x => queueAlg s p x.1 == 2)
  let best := plain.getLast?
  let top := members.getLast?
  match group, top with
  | [], _ => (s, best)
  | _ :: _, some m =>
    if (match best with | some b => decide (m < b) | none => false) then (s, best)
    else dwrrRounds p (dwrrOrder (s.egs p).lastDwrr group) 160 s
  | _ :: _, none => (s, best)

/-- Whether a queue is shed with action DEMOTE. -/
def demoted (s : State) (p q : Nat) : Bool := s.bitAt (aEgs p 0x070) q

/-- R275: queues that are not shed go first. -/
def pick (s : State) (p : Nat) (l : List (Nat × Nat)) : State × Option Nat :=
  let dwrr := (List.range 8).filter (fun q => queueAlg s p q == 2)
  let first := l.filter (fun x => !demoted s p x.1)
  if first.isEmpty then pickIn s p (dwrr.filter (fun q => demoted s p q)) l
  else pickIn s p (dwrr.filter (fun q => !demoted s p q)) first

/-! ### The start -/

/-- What a copy is on the line: body without FCS, then the FCS, inverted for a stomped copy. -/
def lineBytes (body : List Byte) (stomp : Bool) : List Byte :=
  let padded := body ++ List.replicate (60 - body.length) 0
  padded ++ leBytes 4 (if stomp then complement 32 (crc32 padded) else crc32 padded)

/-- Bytes of a SecTAG: 16 with an SCI (SC = 1), else 8. -/
def secTagLen (bs : List Byte) : Nat := if bit (byteAt bs 14) 5 then 16 else 8

/-- R405, R590: what of a protected frame leaves when a block is not released: the bytes before a block that stands open,
and their inverted FCS. Marks: DEDUCED (log entry 35). -/
def cutAtBlock (s : State) (out : List Byte) : List Byte :=
  let head := 12 + secTagLen out
  let sent := out.take (head + 16 * (Config.freeNat s.free % ((out.length - head) / 16 + 1)))
  sent ++ leBytes 4 (complement 32 (crc32 sent))

/-- Bytes that stand ahead of the later stored bytes of a copy on the line: edits and SecTAG. -/
def bytesAhead (f : Frame) (body : List Byte) (tag : Nat) : Int := (body.length : Int) + (tag : Nat) - (storedLen f : Nat)

/-- R131, R376, R395, R396: a selected copy at F, after the edits and MSC: its bytes, whether they end with an inverted FCS,
and what stands ahead of the stored bytes; none when the copy is dropped before its first bit. -/
def txBytes (s : State) (p : Nat) (r : TxRun) : State × Option TxRun :=
  let x := s.frame r.frame
  let body := editSync s p r.start (editTags x p) x.ptp
  if p ≥ 48 then (s, some { r with bytes := lineBytes body x.err, stomp := x.err, ahead := bytesAhead x body 0 })
  else
    match mscTransmit s p body r.cmp with
    | (t, none) => (t, none)
    | (t, some (out, bad)) =>
      let ahead := bytesAhead x body (if body.length < out.length then secTagLen out else 0)
      if etypeOf out = 0x8808 then (t.bump (aMacCnt p 12), none)
      else if bad then
        let cut := cutAtBlock t out
        (t.tick1, some { r with bytes := cut, stomp := true, ahead := ahead,
                                endAt := r.start + byteTime (portMbps t p) (cut.length + 20) })
      else
        let y := { r with bytes := lineBytes out x.err, stomp := x.err, ahead := ahead }
        if r.cmp = .retry ∧ body.length < out.length then
          (pipeDelay t r.frame, some { y with endAt := r.endAt + Config.freeNat t.free % (33 - x.replay) })
        else (t, some y)

/-- What a selected copy will be on the line as far as its selection can tell: its length decides where it may be cut. -/
def foreseen (s : State) (p : Nat) (f : Frame) : List Byte :=
  let body := editTags f p
  lineBytes (body ++ List.replicate (if p < 48 then secyAdds s p body else 0) 0) f.err

/-- The run with frame `n` is to be cut after frame byte `k`. -/
def markCut (s : State) (p n k : Nat) : State :=
  let e := s.egs p
  let mark (x : TxRun) : TxRun := if x.frame = n then { x with suspendAt := some k } else x
  s.setEgs p { e with tx := e.tx.map mark, sel := e.sel.map mark }

/-- Start of an express copy selected at F behind a preemptable frame: after the fragment that ends at the first point
at or after F (R134, R135), or after the whole frame; the frame on the line is marked. -/
def behindPre (s : State) (p f : Nat) (pre : Bool) : State × Nat :=
  if pre then (s, f)
  else
    match preHolder s p f with
    | none => (s, f)
    | some x =>
      match x.suspendAt, cutPoint s p x f with
      | some n, _ => (s, fragEnd s p x n)
      | none, some n => (markCut s p x.frame n, fragEnd s p x n)
      | none, none => (s, x.endAt)

/-- R272: a copy is selected for F; `d` is the deficit that its selection took. -/
def selectCopy (s : State) (p q f l d : Nat) (c : Copy) (cmp : PipeCmp) : State :=
  let pre := isPre s p q
  let (t, f) := behindPre s p f pre
  let run : TxRun := { frame := c.frame, q := q, start := f, endAt := f + lineTime t p l, bytes := foreseen s p (s.frame c.frame),
                       preemptable := pre, charge := countedLen t p f l, dwrr := d, cmp := cmp }
  let t := t.setEgs p { t.egs p with sel := (t.egs p).sel ++ [run] }
  let t := t.setCopy p q c.frame (fun c => { c with busy := true })
  t.bump (aFab (if c.ct then 0x138 else 0x140))

/-- The port makes decisions: an external port is UP, neither marked down nor held by TC10, and its flush has ended (Tables
4-3, 4-4 and 8-3). -/
def portDecides (s : State) (p : Nat) : Bool :=
  !bit s.fab.flushing p &&
  (decide (48 ≤ p) || ((s.mac p).link == .up && !(s.egs p).down && !(s.egs p).held))

/-- R270, R271 on every queue that is enabled. -/
def dropAll (s : State) (p : Nat) : State :=
  (List.range 8).foldl (fun t q => if queueOff t p q then t else dropHeads p q (t.queue p q).length t) s

/-- The eligible queues of a port, ascending: queue, copy, length. -/
def eligibles (s : State) (p f : Nat) : List (Nat × Copy × Nat) :=
  (List.range 8).filterMap (fun q => (eligible s p q f).1.map (fun x => (q, x.1, x.2)))

/-- R272 to R276, R291 to R293: the decision of cycle D = now. Express queues go before preemptable ones (R292). -/
def decide_ (s : State) (p : Nat) (cmp : PipeCmp) : State :=
  let f := s.cclk + 40
  let s := dropAll (readLevels s p) p
  let s := ((List.range 8).filter (fun q => (eligible s p q f).2)).foldl
    (fun t q => match headOf t p q with | some c => countNofit p t c.frame | none => t) s
  let all := eligibles s p f
  let ex := all.filter (fun x => !isPre s p x.1)
  let set := if ex.isEmpty then all else ex
  match pick s p (set.map (fun x => (x.1, countedLen s p f x.2.2))) with
  | (t, none) => t
  | (t, some q) =>
    match set.find? (fun x => x.1 == q) with
    | none => t
    | some x => selectCopy t p q f x.2.2 (if queueAlg s p q = 2 then countedLen s p f x.2.2 else 0) x.2.1 cmp

/-- EGRESS_DECISION. -/
def execEgressDecision (port : Nat) (cmp : PipeCmp) (s : State) : Result :=
  ifWf (portOk port) (whenever (portDecides s port) s (decide_ s port cmp))

/-! ### Ends of transmissions -/

/-- The mCRC of a fragment that ends the frame's bytes so far: their FCS with its low 16 bits inverted (IEEE 802.3, Clause
99, which R133 names). Marks: PRESUMED (log entry 76). -/
def mCrc (bs : List Byte) : Nat := crc32 bs ^^^ 0x0000FFFF

/-- The frame on the line becomes the suspended frame (R294): its fragment has gone out, with the mCRC. -/
def suspendTx (s : State) (p : Nat) (x : TxRun) (n : Nat) : State :=
  let e := s.egs p
  let t := s.setEgs p { e with tx := none, susp := some { x with sent := n, frags := x.frags + 1, suspendAt := none } }
  t.emit (.line p ((x.bytes.take n).drop x.sent ++ leBytes 4 (mCrc (x.bytes.take n))) false)

/-- What an internal port does with a frame that has arrived whole: a host's RX ring holds it for DMA (R67), GWE takes
it (R356), MGMT hands it to its firmware. Marks: DEDUCED (log entry 68). -/
def deliver (s : State) (p : Nat) (x : TxRun) : State :=
  let f := s.frame x.frame
  if p = 48 ∨ p = 49 then
    let h : HostPort := if p = 48 then .a else .b
    let k := bits (s.reg (regAddr (pHif h 0) (0x048 + x.q / 4 * 4))).toNat (8 * (x.q % 4)) 5
    let r := s.ring (.rx h k)
    s.setRing (.rx h k) { r with rxWait := r.rxWait ++ [
      { at_ := s.cclk, tc := x.q, bytes := x.bytes, frame := { f with stomped := f.stomped || x.stomp } }] }
  else if p = 50 then
    { s with gwe := { s.gwe with frames := s.gwe.frames ++ [
      { bytes := x.bytes.take (x.bytes.length - 4), start := x.start, tsCycle := f.tsCycle, epoch := f.epoch,
        keys := f.parse.keys }] } }
  else s

/-- R273: a transmission ends: it is counted, handed on, and its copy leaves the queue. -/
def endTx (s : State) (p : Nat) (x : TxRun) : State :=
  let l := x.bytes.length
  let t := s.setEgs p { s.egs p with tx := none }
  let t := (t.bump (aEgs p (0x200 + 0x20 * x.q))).bumpBy (aEgs p (0x208 + 0x20 * x.q)) l
  let t :=
    if p < 48 then
      let u := t.emit (.line p (x.bytes.drop x.sent) x.stomp)
      if x.stomp then (u.setFrame x.frame { u.frame x.frame with stomped := true }).bump (aMacCnt p 10)
      else (u.bump (aMacCnt p 8)).bumpBy (aMacCnt p 9) l
    else deliver t p x
  removeCopy t p x.q x.frame

/-- R273, R294: the line of a port becomes free. Marks: DEDUCED (log entry 35). -/
def lineFreed (s : State) (p : Nat) : State :=
  match (s.egs p).tx with
  | none => s
  | some x =>
    if s.cclk < lineFreeAt s p x then s
    else
      match x.suspendAt with
      | some n => suspendTx s p x n
      | none => endTx s p x

/-- LINE_FREE. -/
def execLineFree (port : Nat) (s : State) : Result := ifWf (portOk port) (lineFreed s port)

/-- R373, R379, R380: the egress time of an event message that starts now. -/
def eventLeaves (s : State) (p : Nat) (x : TxRun) : State :=
  match (s.frame x.frame).ptp with
  | none => s
  | some e => if p < 48 then gptpLeft s p e (egressTime s p e.dom x.start) else s

/-- R272, R278, R282: a copy is on the line from F = now, and its charges are made. -/
def startsNow (s : State) (p : Nat) (rest : List TxRun) (x : TxRun) : State :=
  let t := eventLeaves (s.setEgs p { s.egs p with sel := rest, tx := some x }) p x
  let t := chargeBucket (chargeBucket t p x.q x.charge) p 8 x.charge
  let t := chargeCredit t p x.q x.charge (x.endAt - x.start)
  windowOverrun (preemptClose t p) p

/-- R272, R395, R396: a selected copy starts in cycle F, or MSC drops it there and the line stays free. A port that has
left UP starts nothing; the copy waits for its flush (Table 4-3). Marks: DEDUCED (log entry 35). -/
def startSel (s : State) (p : Nat) : State :=
  match (s.egs p).sel with
  | [] => s
  | x :: rest =>
    if s.cclk < x.start then s
    else
      let s := lineFreed s p
      if p < 48 ∧ (s.mac p).link ≠ .up then unselect s p x.q x.frame
      else
        match txBytes s p x with
        | (t, none) => removeCopy (t.setEgs p { t.egs p with sel := rest }) p x.q x.frame
        | (t, some y) => startsNow t p rest y

/-- R295: a suspended frame resumes. -/
def resume (s : State) (p : Nat) : State :=
  let e := s.egs p
  match e.susp with
  | none => s
  | some x =>
    if e.tx.isSome || !e.sel.isEmpty || !bit e.gates x.q || e.hold || (s.mac p).link != .up then s
    else
      let n := x.bytes.length - x.sent
      (s.setEgs p { e with susp := none, tx := some { x with
        start := s.cclk, endAt := s.cclk + byteTime (portMbps s p) (n + 20) } }).bump (aMacCnt p 18)

/-- PREEMPT_RESUME. -/
def execPreemptResume (port : Nat) (s : State) : Result := ifWf (portOk port) (resume s port)

/-! ### Refills -/

/-- Ports with a bucket that has a RATE. -/
def shapedPorts (s : State) : List (Nat × Nat) :=
  (List.range 52).flatMap (fun p => ((List.range 9).filter (fun i => bucketRate s p i != 0)).map (fun i => (p, i)))

/-- R280, R283: committed shaper settings of a port act from this refill on. -/
def takeSettings (s : State) (p : Nat) : State :=
  if (s.egs p).old.isEmpty then s
  else
    let t := settleCredits s p
    t.setEgs p { t.egs p with old := [] }

/-- R277, R280, R304: one refill of every bucket; a level whose word fails twice is set to BURST. Which one it is stands
open. -/
def refillAll (s : State) : State :=
  let l := shapedPorts s
  let t := (s.egress.port.map (fun x => x.1)).foldl takeSettings s
  let t := l.foldl (fun t x => refillBucket t x.1 x.2) t
  let t := { t with egress := { t.egress with refillAt := s.cclk + 1 } }
  match memRead t 9 0 none with
  | (u, none) => u
  | (u, some m) =>
    match l[Config.freeNat u.free % l.length]? with
    | some (p, i) => loseLevel u.tick1 p i m
    | none => u.tick1

/-- BUCKET_REFILL (R277): in a cycle whose count is a multiple of 256, once. -/
def execBucketRefill (s : State) : Result :=
  .next (whenever (s.cclk % 256 == 0 && s.egress.refillAt != s.cclk + 1) s (refillAll s))

/-! ### Gate control commands -/

/-- R286: the entry in effect has ended before the list boundary and another of its list begins: that entry and its
position. -/
def nextEntryDue (s : State) (p : Nat) : Option (Nat × Nat) :=
  let e := s.egs p
  let v := gclEntry s p (e.base + e.entry)
  let endPos := (e.entryPos.toNat + gclDur v * 2 ^ 11) % 2 ^ 64
  let (due, pos) :=
    if bit v 10 then (decide (e.entryAt + gclDur v ≤ s.cclk), s.pos.toNat)
    else (decide ((s.pos.toNat + 2 ^ 64 - endPos) % 2 ^ 64 < 2 ^ 63), endPos)
  let cut := decide ((pos + 2 ^ 64 - boundaryAfter s p e.entryPos.toNat) % 2 ^ 64 < 2 ^ 63)
  if e.len = 0 ∨ gclDur v = 0 ∨ !due ∨ cut then none
  else (gclNext s p e.base e.len (e.entry + 1)).map (fun j => (j, pos))

/-- GCL_ENTRY_BEGIN (R287). -/
def execGclEntryBegin (port : Nat) (s : State) : Result :=
  ifWf (portOk port)
    (match nextEntryDue s port with
     | some (j, pos) => entryBegins s port (s.egs port).base (s.egs port).len j pos
     | none => s)

/-- R286, R288: the position has reached the list boundary: the list that then holds restarts. -/
def boundaryDue (s : State) (p : Nat) : State :=
  let e := s.egs p
  let b := boundaryAfter s p e.entryPos.toNat
  if (s.pos.toNat + 2 ^ 64 - b) % 2 ^ 64 < 2 ^ 63 ∧ (e.len ≠ 0 ∨ e.install.isSome) then
    let (base, len) := e.install.getD (e.base, e.len)
    listBegins s p base len b
  else s

/-- GCL_LIST_BOUNDARY. -/
def execGclListBoundary (port : Nat) (s : State) : Result := ifWf (portOk port) (boundaryDue s port)

/-- R284: the entry at INDEX is written and INDEX advances. -/
def gclWrite (s : State) (p : Nat) (val : Word) : State :=
  let a := aEgs p 0x05C
  let i := s.fld a 0 10
  let t := { s with egress := { s.egress with gcl := Tab.set (fun _ => (0 : Word)) s.egress.gcl (1024 * p + i) val } }
  if s.bitAt a 31 then t.setFld a 0 10 ((i + 1) % 1024) else t

/-- GCL_DATA_WRITE: the old value logged is the entry's. -/
def execGclDataWrite (w : Who) (port : Nat) (val : Word) (s : State) : Result :=
  ifWf (portOk port)
    (s.write w (aEgs port 0x060) val
      (logReg (gclWrite s port val) (originOf w.m) (aEgs port 0x060)
        (w32 (gclEntry s port (s.fld (aEgs port 0x05C) 0 10))) val false))

end Sys2Proof.Machine
end

