-- ==== Sys2Proof/Machine/Admission.lean ====
section
/-!
DEFINITION. Admission at commit and shedding at run time (spec/09_egress_scheduling.md, R283, R285, R297 to R301). The
conditions are functions of a view of the registers, so that they can be asked of the values that a commit would leave.
-/
namespace Sys2Proof.Machine
open Sys2Proof

/-- A register field in a view. -/
def vf (get : Nat → Word) (a lo n : Nat) : Nat := fld (get a) lo n

/-- CLASS of a queue. -/
def qClass (get : Nat → Word) (p q : Nat) : Nat := vf get (aQ p q 0) 3 2

/-- FRAMES of a queue. -/
def qFrames (get : Nat → Word) (p q : Nat) : Nat := vf get (aQ p q 0x14) 0 8

/-- SDU of a reservation. -/
def qSdu (get : Nat → Word) (p q : Nat) : Nat := vf get (aQ p q 0x14) 8 14

/-- Line time of a frame of `l` bytes at a rate. -/
def lineNs (mbps l : Nat) : Nat := byteTime mbps (l + 20)

/-- An entry of a list as (GATES, ns) over a cycle of `c` ns (R297). -/
def entryNs (s : State) (p c i : Nat) : Nat × Nat :=
  let v := gclEntry s p i
  (bits v 0 8, if bit v 10 then gclDur v else gclDur v * 2 ^ 11 * c / 2 ^ 32)

/-- Entries of a list, skipped ones left out. -/
def listEntries (s : State) (get : Nat → Word) (p c : Nat) : List (Nat × Nat) :=
  let g := get (aEgs p 0x054)
  ((List.range (fld g 10 11)).filter (fun j => gclDur (gclEntry s p (fld g 0 10 + j)) != 0)).map
    (fun j => entryNs s p c (fld g 0 10 + j))

/-- Cut a list at the end of the cycle, with `left` ns to go; the last entry holds until then. -/
def cutCycle : Nat → List (Nat × Nat) → List (Nat × Nat)
  | _, [] => []
  | left, [(g, _)] => [(g, left)]
  | left, (g, d) :: r => if left ≤ d then [(g, left)] else (g, d) :: cutCycle (left - d) r

/-- An open run of a gate in one cycle: start, length in ns, and the GATES of the entry before it. -/
structure GateRun where
  start : Nat
  len : Nat
  before : Option Nat
deriving DecidableEq, Repr

/-- Open runs of queue `q`: entries to come, their start, the GATES of the entry before, the run so far. -/
def openRuns (q : Nat) : List (Nat × Nat) → Nat → Option Nat → Option GateRun → List GateRun
  | [], _, _, cur => cur.toList
  | (g, d) :: r, t, prev, cur =>
    if bit g q then
      match cur with
      | some x => openRuns q r (t + d) (some g) (some { x with len := x.len + d })
      | none => openRuns q r (t + d) (some g) (some { start := t, len := d, before := prev })
    else cur.toList ++ openRuns q r (t + d) (some g) none

/-- Open runs of a queue over a cycle of `c` ns; with LEN = 0 every gate is open throughout. -/
def queueRuns (s : State) (get : Nat → Word) (p q c : Nat) : List GateRun :=
  let l := cutCycle c (listEntries s get p c)
  if vf get (aEgs p 0x054) 10 11 = 0 then [{ start := 0, len := c, before := none }]
  else openRuns q l 0 (l.getLast?.map (fun x => x.1)) none

/-- MM_CFG names the queue preemptable in a view. -/
def preIn (get : Nat → Word) (p q : Nat) : Bool :=
  decide (p < 32) && bit (get (aMac p 0x050)).toNat 0 && bit (get (aMac p 0x050)).toNat (16 + q)

/-- H of R297, condition 2. -/
def runH (get : Nat → Word) (p q mbps : Nat) (before : Option Nat) : Nat :=
  match before with
  | none => 0
  | some g =>
    if (List.range 8).any (fun j => j != q && bit g j && !preIn get p j) then lineNs mbps 9254
    else if (List.range 8).any (fun j => j != q && bit g j && preIn get p j) then
      byteTime mbps (135 + 64 * vf get (aMac p 0x050) 2 2)
    else 0

/-- Condition 1 of R297 for a set of queues. -/
def admGates (s : State) (get : Nat → Word) (p c : Nat) (k : List Nat) : Bool :=
  let k2 := k.filter (fun q => decide (2 ≤ qClass get p q))
  (listEntries s get p c).all (fun x => decide ((k2.filter (fun q => bit x.1 q)).length ≤ 1))

/-- Condition 2 of R297. -/
def admRuns (s : State) (get : Nat → Word) (p c mbps : Nat) (k : List Nat) : Bool :=
  (k.filter (fun q => decide (2 ≤ qClass get p q))).all (fun q =>
    let d := lineNs mbps (qSdu get p q)
    let guard := vf get (aEgs p 0x044) 0 16
    decide (qFrames get p q ≤ if d = 0 then 0 else
      ((queueRuns s get p q c).map (fun r => (r.len - guard - runH get p q mbps r.before) / d)).sum))

/-- Condition 3 of R297: capacity, both sides times C_ns × 100, in kb/s. -/
def admRate (get : Nat → Word) (p c mbps : Nat) (k : List Nat) : Bool :=
  let c := max 1 c
  let frames := ((k.filter (fun q => decide (2 ≤ qClass get p q))).map (fun q =>
    qFrames get p q * (qSdu get p q + 20) * 8 * 10 ^ 6)).sum
  let rates := ((k.filter (fun q => qClass get p q == 1)).map (fun q =>
    vf get (aQ p q 0x04) 0 27 + vf get (aQ p q 0x0C) 0 27)).sum
  decide ((frames + c * rates) * 100 ≤ mbps * 1000 * vf get (aEgs p 0x068) 0 8 * c)

/-- Conditions 4 and 5 of R297. -/
def admQueues (get : Nat → Word) (p : Nat) (k : List Nat) : Bool :=
  k.all (fun q =>
    let cl := qClass get p q
    let sdu := vf get (aQ p q 0x10) 0 14
    (if 2 ≤ cl then bit (get (aFab 0x044)).toNat q
     else vf get (aQ p q 0x04) 0 27 != 0 || vf get (aQ p q 0) 1 2 == 1)
    && (sdu == 0 || decide (qSdu get p q ≤ sdu))
    && (decide (cl < 2) || decide (qFrames get p q * ceilDiv (qSdu get p q - 4) 32 ≤ vf get (aBuf (0x100 + 4 * (8 * p + q))) 0 16)))

/-- Queues of a port whose CLASS reserves, counting DEG = 1 ones only when asked. -/
def classedQueues (get : Nat → Word) (deg : Bool) (p : Nat) : List Nat :=
  (List.range 8).filter (fun q => qClass get p q != 0 && (deg || !bit (get (aQ p q 0)).toNat 6))

/-- C_ns in a view (R297); 0 when it is wanted and not given. -/
def admCycle (get : Nat → Word) (p : Nat) : Nat :=
  let src := vf get (aPb 0x040) 0 2
  if src = 0 ∨ src = 3 then (get (aPb 0x044)).toNat else vf get (aEgs p 0x06C) 0 30

/-! ### Condition 6 -/

/-- A scheduled window: its start in the cycle, length, and source groups. -/
structure SchedWin where
  start : Nat
  len : Nat
  src : Nat
  /-- length of the cycle in ns, as its port has it -/
  cyc : Nat
deriving DecidableEq, Repr

/-- Scheduled windows of a port, placed in a cycle of `c` ns from phase 0. -/
def schedWins (s : State) (get : Nat → Word) (p c : Nat) : List SchedWin :=
  ((classedQueues get false p).filter (fun q => decide (2 ≤ qClass get p q) && qFrames get p q != 0)).flatMap (fun q =>
    (queueRuns s get p q c).map (fun r =>
      { start := (r.start + (get (aEgs p 0x058)).toNat * c / 2 ^ 32) % c, len := r.len, src := vf get (aQ p q 0x18) 0 16, cyc := c }))

/-- Window `w` is open at the phase at which window `x` begins. -/
def winCovers (x w : SchedWin) : Bool :=
  decide ((x.start * w.cyc + x.cyc * w.cyc - w.start * x.cyc) % (x.cyc * w.cyc) < w.len * x.cyc)

/-- The first three conditions of R251 for the windows open at once toward group `o`. A window stands for one copy that is
being released: the copies of its queue follow each other. Marks: DEDUCED (log entry 35). -/
def winsOk (o : Nat) : List SchedWin → Bool
  | [] => true
  | [_] => true
  | [a, b] =>
    let bad := 2 ^ o ||| 2 ^ ((o + 1) % 16)
    decide (a.src &&& b.src = 0) && decide (a.src &&& bad = 0) && decide (b.src &&& bad = 0)
  | _ => false

/-- Condition 6 of R297 for an output group. -/
def admFabric (s : State) (get : Nat → Word) (o : Nat) : Bool :=
  let w := ((List.range 52).filter (fun p => portGroup p == o && admCycle get p != 0)).flatMap
    (fun p => schedWins s get p (admCycle get p))
  w.all (fun x => winsOk o (w.filter (winCovers x)))

/-! ### The checks of a commit -/

/-- Rate of the MODE of a port in a view. -/
def modeRate (get : Nat → Word) (p : Nat) : Nat :=
  if p < 48 then modeMbps (vf get (aMac p 0x040) 0 4)
  else if p < 50 then 50000 else if p = 50 then 10000 else 20000

/-- R283, R285, Table 9-3: settings of one page that a commit may not leave. -/
def egsSettings (s : State) (get : Nat → Word) (p : Nat) : Bool :=
  let g := get (aEgs p 0x054)
  let e := s.egs p
  (List.range 8).all (fun q =>
    (qFrames get p q == 0 || qSdu get p q != 0)
    && (vf get (aQ p q 0) 1 2 != 1 || fld (s.reg (aQ p q 0)) 1 2 == 1 && get (aQ p q 0x0C) == s.reg (aQ p q 0x0C)
        || (vf get (aQ p q 0x0C) 0 27 != 0 && decide (vf get (aQ p q 0x0C) 0 27 ≤ modeRate get p * 1000))))
  && (g == s.reg (aEgs p 0x054) ||
      ((fld g 10 11 == 0 || e.len == 0 || decide (fld g 0 10 + fld g 10 11 ≤ e.base) || decide (e.base + e.len ≤ fld g 0 10))
       && decide (((List.range (fld g 10 11)).map (fun j =>
            let v := gclEntry s p (fld g 0 10 + j)
            if bit v 10 then 0 else gclDur v)).sum < 2 ^ 21)))

/-- R297, conditions 1 to 5 for one page; the failure's code. -/
def egsPage (s : State) (get : Nat → Word) (p : Nat) : Option Nat :=
  if !egsSettings s get p then some 5
  else
    let k := classedQueues get false p
    let c := admCycle get p
    if k.isEmpty then none
    else if c = 0 ∧ k.any (fun q => decide (2 ≤ qClass get p q)) then some 5
    else if admGates s get p c k && admRuns s get p c (modeRate get p) k && admRate get p c (modeRate get p) k
        && admQueues get p k && admFabric s get (portGroup p) then none
    else some 1

/-- R297: the first EGS page that fails, with the code. -/
def egsCheck (s : State) (get : Nat → Word) : Option (Nat × Nat) :=
  (List.range 52).findSome? (fun p => (egsPage s get p).map (fun c => (c, pEgs p)))

/-! ### Shedding -/

/-- R299: the cycle length used at run time. -/
def runCycle (s : State) (p : Nat) : Nat :=
  let c := admCycle s.reg p
  let src := s.fld (aPb 0x040) 0 2
  if (src = 1 ∨ src = 2) ∧ s.pb.rate ≠ 0 then
    let x := 2 ^ 56 * 10 ^ 6 / (s.pb.rate * (10 ^ 6 + s.fld (aEgs p 0x048) 0 20))
    if c = 0 then x else min c x
  else c

/-- ADMIT_SEQ of a queue. -/
def admitSeq (s : State) (p q : Nat) : Nat := s.fld (aQ p q 0x1C) 16 16

/-- R299: the guarantee order: CLASS 3, 2, 1, then ADMIT_SEQ ascending. -/
def guaranteeOrder (s : State) (p : Nat) : List Nat :=
  let key (q : Nat) : Nat := (3 - qClass s.reg p q) * 2 ^ 16 + admitSeq s p q
  ((List.range 8).filter (fun q => qClass s.reg p q != 0)).mergeSort (fun a b => decide (key a ≤ key b))

/-- R299: whether a set of queues keeps its guarantees at the mode in effect. -/
def keeps (s : State) (p : Nat) (k : List Nat) : Bool :=
  let c := runCycle s p
  decide (c = 0) || (admGates s s.reg p c k && admRuns s s.reg p c (portMbps s p) k && admRate s.reg p c (portMbps s p) k)

/-- R299: the queues that are kept, in the listing's order. -/
def keptQueues (s : State) (p : Nat) : List Nat :=
  (guaranteeOrder s p).foldl (fun k q =>
    let counts := s.mode == .degraded || !s.bitAt (aQ p q 0) 6
    if counts && keeps s p (k ++ [q]) then k ++ [q] else k) []

/-- CAUSE of `EGS_SHED`. -/
def shedCause (s : State) (p : Nat) : Nat :=
  if p < 48 ∧ (s.mac p).inAlt then 1 else if s.mode = .degraded then 2 else 3

/-- R269: a queue is off: the copies that it holds are to go, one per cycle, a selected one with them; one in transmission
or suspended completes. -/
def flushQueue (s : State) (p q : Nat) : State :=
  let t := ((s.egs p).sel.filter (fun x => x.q == q)).foldl (fun u x => unselect u p q x.frame) s
  t.setQueue p q ((t.queue p q).map (fun c => if begun t p c.frame then c else { c with off := true }))

/-- R269: one cycle of it on a port. -/
def offOne (s : State) (p : Nat) : State :=
  match (portCopies s p).find? (fun x => x.2.off) with
  | some (q, c) => (removeCopy s p q c.frame).bump (aEgsCnt p 5)
  | none => s

/-- R301: the Silt entry of a change of `EGS_SHED`. -/
def logShed (s : State) (p : Nat) (old : Word) : State :=
  s.silt_ old (s.reg (aEgs p 0x070)) 3 0 0 (aEgs p 0x070 / 4 % 2 ^ 19)

/-- R301: a queue is shed. -/
def shedQueue (p : Nat) (s : State) (q : Nat) : State :=
  let old := s.reg (aEgs p 0x070)
  let t := (s.setBitAt (aEgs p 0x070) q true).setFld (aEgs p 0x070) 8 4 (shedCause s p)
  let t := ((t.bump (aEgsCnt p 3)).raise (pEgs p) 1).report 0x16 (unitId 1 p)
    (leBytes 16 (t.fld (aEgs p 0x070) 0 8)) false
  let t := logShed t p old
  if t.bitAt (aQ p q 0) 7 then t else flushQueue t p q

/-- R301: a queue is restored. -/
def restoreQueue (p : Nat) (s : State) (q : Nat) : State :=
  let old := s.reg (aEgs p 0x070)
  let t := s.setBitAt (aEgs p 0x070) q false
  let t := if t.fld (aEgs p 0x070) 0 8 = 0 then t.setFld (aEgs p 0x070) 8 4 0 else t
  logShed (t.raise (pEgs p) 2) p old

/-- R299: MP0 re-examines a port. -/
def reexamine (s : State) (p : Nat) : State :=
  let kept := keptQueues s p
  let order := guaranteeOrder s p
  let counts (q : Nat) : Bool := s.mode == .degraded || !s.bitAt (aQ p q 0) 6
  let shed := order.filter (fun q => counts q && !kept.contains q && !s.bitAt (aEgs p 0x070) q)
  let back := (List.range 8).filter (fun q => s.bitAt (aEgs p 0x070) q && (kept.contains q || !order.contains q || !counts q))
  let t := shed.foldl (shedQueue p) s
  (order.filter (fun q => back.contains q) ++ back.filter (fun q => !order.contains q)).foldl (restoreQueue p) t

/-- SHED_REEXAMINE. -/
def execShedReexamine (port : Nat) (s : State) : Result := ifWf (portOk port) (reexamine s port)

/-! ### Admission order (R298) -/

/-- Queues that hold an ADMIT_SEQ, in order. -/
def admittedQueues (s : State) : List (Nat × Nat) :=
  let all := (List.range 52).flatMap (fun p => ((List.range 8).filter (fun q => admitSeq s p q != 0)).map (fun q => (p, q)))
  all.mergeSort (fun a b => decide (admitSeq s a.1 a.2 ≤ admitSeq s b.1 b.2))

/-- R298: every admitted queue renumbered from 1. -/
def renumber (s : State) : State :=
  let l := admittedQueues s
  let t := (l.zipIdx 1).foldl (fun t x => t.setFld (aQ x.1.1 x.1.2 0x1C) 16 16 x.2) s
  { t with egress := { t.egress with seq := l.length } }

/-- A queue has a reservation. -/
def reserves (get : Nat → Word) (p q : Nat) : Bool :=
  match qClass get p q with
  | 0 => false
  | 1 => vf get (aQ p q 0x04) 0 27 != 0 || vf get (aQ p q 0x0C) 0 27 != 0
  | _ => qFrames get p q != 0

/-- R298: ADMIT_SEQ of a queue after a commit. -/
def admitQueue (s : State) (x : Nat × Nat) : State :=
  let (p, q) := x
  let a := aQ p q 0x1C
  if !reserves s.reg p q then s.setFld a 16 16 0
  else if admitSeq s p q ≠ 0 then s
  else
    let t := if s.egress.seq = 0xFFFF then renumber s else s
    ({ t with egress := { t.egress with seq := t.egress.seq + 1 } }).setFld a 16 16 (t.egress.seq + 1)

/-- R298 for every queue. -/
def admitQueues (s : State) : State :=
  ((List.range 52).flatMap (fun p => (List.range 8).map (fun q => (p, q)))).foldl admitQueue s

end Sys2Proof.Machine
end

