-- ==== Sys2Proof/Machine/ParseGraph.lean ====
section
/-!
DEFINITION. The parse graph of spec/05 (R157 to R170): the headers a parse follows, the checks of Table 5-4, the
limits of R167, and the key sets and result vector that it fills.
-/
namespace Sys2Proof.Machine
open Sys2Proof

/-- The parse options of one epoch: PRS_CFG, PRS_DOIP, the port's PRS_PORTp, the user EtherType slots (PRS_UETu
and PRS_UETu_NX) and the UDP port slots. -/
structure ParseOpts where
  cfg : Nat
  doip : Nat
  port : Nat
  uet : List (Nat × Nat)
  udp : List Nat
deriving DecidableEq, Repr

/-- A header of the graph that the parse is about to enter, at its offset. -/
inductive Node where
  | eth
  | secTag (o : Nat)
  | tag (o : Nat) (code : Nat)
  | rtag (o : Nat)
  | slotE (o u : Nat)
  | ip4 (o : Nat)
  | ip6 (o : Nat)
  | ext (o nh : Nat)
  | udp (o : Nat)
  | tcp (o : Nat)
  | icmp (o : Nat) (v6 : Bool)
  | slotU (o u : Nat)
  | doip (o : Nat) (tcp : Bool)
  | avtp (o : Nat)
  | innerEth (o : Nat)
  | terminal (o code : Nat)
  | llc (eo : Nat)
deriving DecidableEq, Repr

/-- The parse while it runs. -/
structure Walk where
  p : Parse
  inner : Bool := false
  /-- tags followed in the present stack -/
  tags : Nat := 0
  /-- bytes of IP payload not yet walked -/
  pay : Nat := 0
  /-- bytes walked of IPv6 payload: a fragment header has been seen -/
  sawFrag : Bool := false
  /-- the last length/type field was read by the Ethernet header (none) or by a tag: the parse before it -/
  before : Option (Keys × ResultVec) := none
  /-- offset of that header -/
  lastOff : Nat := 0
deriving DecidableEq, Repr

/-- Set offset Oi. -/
def rvOff (r : ResultVec) (i o : Nat) : ResultVec := { r with offs := r.offs.set i o }

/-- Add one header to HLIST. -/
def rvHdr (r : ResultVec) (code : Nat) : ResultVec := { r with hlist := r.hlist ++ [code] }

/-- R168: the parse ends at a header that fails a check; O15 is its offset. -/
def malAt (k : Keys) (r : ResultVec) (inner : Bool) (code o : Nat) : Keys × ResultVec :=
  (k, { rvOff r 15 o with mal := true, trunc := false, malCode := code + (if inner then 0x80 else 0) })

/-- MALFORMED at the step. -/
def Walk.fail (w : Walk) (code o : Nat) : Walk :=
  let (k, r) := malAt w.p.keys w.p.rv w.inner code o
  { w with p := { w.p with keys := k, rv := r } }

/-- MALFORMED found by a check at end: the first such failure is kept (R169). -/
def Walk.failEnd (w : Walk) (k : Keys) (r : ResultVec) (code o : Nat) : Walk :=
  match w.p.late with
  | some _ => w
  | none => { w with p := { w.p with late := some (malAt k r w.inner code o) } }

/-- R167: the parse stops with PARSE_TRUNC. -/
def Walk.stop (w : Walk) (code o : Nat) : Walk :=
  { w with p := { w.p with rv := { rvOff w.p.rv 15 o with trunc := true, malCode := code } } }

/-- The parse ends with every header followed; O15 is the first byte not parsed. -/
def Walk.done (w : Walk) (o : Nat) : Walk := { w with p := { w.p with rv := rvOff w.p.rv 15 o } }

/-- The offset at which a header starts. -/
def Node.off : Node → Nat
  | .eth => 0 | .secTag o => o | .tag o _ => o | .rtag o => o | .slotE o _ => o | .ip4 o => o | .ip6 o => o
  | .ext o _ => o | .udp o => o | .tcp o => o | .icmp o _ => o | .slotU o _ => o | .doip o _ => o
  | .avtp o => o | .innerEth o => o | .terminal o _ => o | .llc eo => eo

/-- The TPID index and header code of a tag that the port accepts (R158). -/
def tagOf (c : ParseOpts) (et : Nat) : Option (Nat × Nat) :=
  if et = 0x8100 ∧ bit c.port 0 then some (0, 0x02)
  else if et = 0x88A8 ∧ bit c.port 1 then some (1, 0x03)
  else if et = 0x9100 ∧ bit c.port 2 then some (2, 0x04)
  else if et = bits c.cfg 16 16 ∧ et ≠ 0 ∧ bit c.port 3 then some (3, 0x05)
  else none

/-- The enabled user EtherType slot that names an EtherType. -/
def uetOf (c : ParseOpts) (et : Nat) : Option Nat :=
  (List.range 8).find? (fun u => match c.uet[u]? with
    | some (v, _) => bit v 31 && bits v 0 16 == et
    | none => false)

/-- R164: the first UDP slot that matches the ports. -/
def udpSlotOf (c : ParseOpts) (sp dp : Nat) : Option Nat :=
  (List.range 8).find? (fun u => match c.udp[u]? with
    | some v => bit v 31 &&
        (match bits v 16 2 with
         | 0 => bits v 0 16 == dp | 1 => bits v 0 16 == sp | _ => bits v 0 16 == dp || bits v 0 16 == sp)
    | none => false)

/-- The node that an EtherType after the tag stack selects (R157 step 5); `eo` is the offset of the field. -/
def nodeOf (c : ParseOpts) (inner : Bool) (et eo : Nat) : Option Node :=
  if et = 0x0800 then some (.ip4 (eo + 2))
  else if et = 0x86DD then some (.ip6 (eo + 2))
  else if et = 0x0806 then some (.terminal (eo + 2) 0x18)
  else if et = 0x88F7 then some (.terminal (eo + 2) 0x19)
  else if et = 0x888E then some (.terminal (eo + 2) 0x1A)
  else if et = 0x88CC then some (.terminal (eo + 2) 0x1B)
  else if et = 0x22F0 ∧ bit c.port 7 then some (.avtp (eo + 2))
  else if et ≤ 0x05FF then some (.llc eo)
  else if inner then none
  else if bit c.port 6 then (uetOf c et).map (.slotE (eo + 2))
  else none

/-- Decide the next node from the EtherType at `eo`: a SecTAG directly after the Ethernet header, then tags, then
the R-TAG, then the node of the final EtherType. `phase` 0 = after Ethernet, 1 = in the tag stack, 2 = after the R-TAG. -/
def selectNode (c : ParseOpts) (w : Walk) (bs : List Byte) (eo phase : Nat) : Walk × Option Node :=
  let et := beAt bs eo 2
  let final (w : Walk) : Walk × Option Node :=
    let r := if w.inner then w.p.rv else rvOff w.p.rv 4 eo
    let k := if w.inner then w.p.keys else { w.p.keys with etype := et }
    let w := { w with p := { w.p with rv := r, keys := k } }
    match nodeOf c w.inner et eo with
    | some n => (w, some n)
    | none => (w.done (eo + 2), none)
  if phase = 0 ∧ ¬ w.inner ∧ et = 0x88E5 ∧ bit c.port 4 then (w, some (.secTag eo))
  else if phase ≤ 1 then
    match tagOf c et with
    | some (_, code) =>
      if w.tags < bits c.cfg 0 3 then (w, some (.tag eo code))
      else (w.stop 0x42 eo, none)
    | none => if ¬ w.inner ∧ et = 0xF1C1 ∧ bit c.cfg 4 then (w, some (.rtag (eo + 2))) else final w
  else final w

/-- Fill the inner or the outer IP key set. -/
def Walk.ip (w : Walk) (f : KIp → KIp) : Walk :=
  let k := w.p.keys
  { w with p := { w.p with keys := if w.inner then { k with ipi := f k.ipi } else { k with ip := f k.ip } } }

/-- Set the offset of an L3 (5 / 13) or L4 (7 / 14) header, outer or inner. -/
def Walk.layer (w : Walk) (outer inner_ o : Nat) : Walk :=
  { w with p := { w.p with rv := rvOff w.p.rv (if w.inner then inner_ else outer) o } }

/-- R154: the last byte that a step read, of a frame whose last byte is at `lst`. -/
def Walk.readTo (w : Walk) (lst last : Nat) : Walk :=
  { w with p := { w.p with reads := w.p.reads ++ [min last lst] } }

/-- The walk enters a tunnel's header (R165). -/
def Walk.tunnelled (w : Walk) : Walk := { w with inner := true, p := { w.p with rv := { w.p.rv with tunnel := true } } }

/-- The walk at an IP header: the L3 type that selected it, and TUNNEL for an inner one (R168, R171). -/
def Walk.atIp (w : Walk) (l3t : Nat) : Walk := (if w.inner then w.tunnelled else w).ip (fun k => { k with l3t := l3t })

/-- Count a header and note the last byte that its step read. -/
def Walk.took (w : Walk) (code last : Nat) : Walk :=
  { w with p := { w.p with rv := rvHdr w.p.rv code, reads := w.p.reads ++ [last] } }

/-- The IPv4-mapped IPv6 address of R171. -/
def mapped4 (a : Nat) : Nat := 0xFFFF * 2 ^ 32 + a

/-- The L4 node that a protocol number selects. -/
def l4Node (proto o : Nat) (v6 : Bool) : Option Node :=
  if proto = 17 then some (.udp o)
  else if proto = 6 then some (.tcp o)
  else if proto = 1 ∧ v6 = false then some (.icmp o false)
  else if proto = 58 ∧ v6 then some (.icmp o true)
  else none

/-- The IPv6 extension headers that the graph follows (R161). -/
def isExt (nh : Nat) : Bool := nh == 0 || nh == 43 || nh == 44 || nh == 60

/-- The node after an IPv6 Next Header value. -/
def afterIp6 (c : ParseOpts) (w : Walk) (nh o : Nat) : Walk × Option Node :=
  let w := w.ip (fun k => { k with proto := nh })
  if isExt nh ∧ bit c.cfg 6 then (w, some (.ext o nh))
  else match l4Node nh o true with
    | some n => (w, some n)
    | none => (w.done o, none)

/-- R170: a fragment ends the parse. -/
def Walk.fragment (w : Walk) (o proto : Nat) (first : Bool) : Walk :=
  let w := if w.inner then
      { w with p := { w.p with keys := { w.p.keys with ipi := {} }, rv := { w.p.rv with innerFrag := true } } }
    else w.ip (fun k => { k with proto := proto, frag := true, fragFirst := first })
  w.done o

/-- The DoIP or UDP slot that follows a UDP header, or the DoIP node after TCP (R162, R164). `pay` is the payload of
the L4 header, which ends before offset `o`. -/
def afterL4 (c : ParseOpts) (w : Walk) (o pay sp dp : Nat) (tcp : Bool) : Walk × Option Node :=
  if w.inner then (w.done o, none)
  else if bit c.cfg 7 ∧ (sp = c.doip ∨ dp = c.doip) ∧ 8 ≤ pay then ({ w with pay := pay }, some (.doip o tcp))
  else if tcp = false ∧ bit c.port 5 then
    match udpSlotOf c sp dp with
    | some u => (w, some (.slotU o u))
    | none => (w.done o, none)
  else (w.done o, none)

/-- One header of the graph. `bs` is the frame, `dl` the length of its frame data (the FCS is never part of a
header) and `late` the number of the first step that runs after the frame's last byte has entered PRS. `len` is the
header's extent. -/
def enter (c : ParseOpts) (bs : List Byte) (dl late : Nat) (n : Node) (w : Walk) : Walk × Option Node :=
  let k0 := w.p.keys
  let r0 := w.p.rv
  let lst := bs.length - 1
  -- R167 window limit, and check 0x3E: at the step for a header that reaches offset 64 and for a step after the
  -- frame's last byte, and at end for any other (R169). `wf` is the walk at the header when the check fails.
  let fitsAt (wf : Walk) (o len : Nat) (body : Walk → Walk × Option Node) : Walk × Option Node :=
    if 128 < o + len ∧ 128 < dl + 4 then (w.stop 0x41 o, none)
    else if dl < o + len then
      if 64 < o + len ∨ late ≤ w.p.reads.length + 1 then ((wf.readTo lst (o + len - 1)).fail 0x3E o, none)
      else body (wf.failEnd wf.p.keys wf.p.rv 0x3E o)
    else body wf
  let fits := fitsAt w
  match n with
  | .eth => fits 0 14 fun w =>
      let k := { w.p.keys with da := beAt bs 0 6, sa := beAt bs 6 6 }
      let w := { w with p := { w.p with keys := k }, before := some (k0, r0) }
      selectNode c (w.took 0x01 13) bs 12 0
  | .innerEth o => fitsAt w.tunnelled o 14 fun w =>
      let w := { w with tags := 0, before := some (w.p.keys, w.p.rv), lastOff := o
                        p := { w.p with rv := rvOff w.p.rv 12 o } }
      selectNode c (w.took 0x1C (o + 13)) bs (o + 12) 1
  | .secTag o =>
      let tci := byteAt bs (o + 2)
      let len := if bit tci 5 then 16 else 8
      fits o len fun w =>
        if bit tci 7 then ((w.readTo lst (o + len - 1)).fail 0x10 o, none)
        else if 47 < bits (byteAt bs (o + 3)) 0 6 then
          ((w.readTo lst (o + len - 1)).fail 0x11 o, none)
        else if bit tci 5 ∧ (bit tci 6 ∨ bit tci 4) then
          ((w.readTo lst (o + len - 1)).fail 0x12 o, none)
        else
          let w := { w with p := { w.p with rv := rvOff w.p.rv 3 o } }.took 0x07 (o + len - 1)
          if bit tci 3 ∨ ¬ bit c.cfg 5 then
            ({ w with p := { w.p with rv := { w.p.rv with opaqueTag := true } } }.done (o + len), none)
          else
            let w := { w with p := { w.p with reads := (w.p.reads.dropLast) ++ [o + len + 1] } }
            selectNode c w bs (o + len) 1
  | .tag o code => fits o 6 fun w =>
      let idx := code - 2
      let tci := beAt bs (o + 2) 2
      let k := w.p.keys
      let k := if w.inner then k
        else if w.tags = 0 then { k with tag0 := some (tci, idx), ntags := 1 }
        else if w.tags = 1 then { k with tag1 := some (tci, idx), ntags := 2 }
        else { k with ntags := w.tags + 1 }
      let r := if w.inner then w.p.rv
        else if w.tags = 0 then rvOff w.p.rv 0 o else if w.tags = 1 then rvOff w.p.rv 1 o else w.p.rv
      let w := { w with p := { w.p with keys := k, rv := r }, tags := w.tags + 1, before := some (k0, r0),
                        lastOff := o }
      selectNode c (w.took code (o + 5)) bs (o + 4) 1
  | .rtag o => fits o 6 fun w =>
      let w := { w with p := { w.p with keys := { w.p.keys with rtag := some (beAt bs (o + 2) 2) }
                                        rv := rvOff w.p.rv 2 o } }
      selectNode c (w.took 0x06 (o + 5)) bs (o + 4) 2
  | .slotE o u =>
      let (v, nx) := (c.uet[u]?).getD (0, 0)
      let len := bits v 16 7
      fits o len fun w =>
        let w := { w with p := { w.p with keys := { w.p.keys with uet := some u }, rv := rvOff w.p.rv 9 o } }
        let w := w.took 0x13 (o + len - 1)
        let no := bits nx 0 7
        if no = 0x7F then (w.done (o + len), none)
        else match nodeOf c false (beAt bs (o + no) 2) (o + len - 2) with
          | some (.llc _) => (w, some (.llc (o + no)))
          | some m => (w, some m)
          | none => (w.done (o + len), none)
  | .terminal o code => ((w.took code (o - 1)).done o, none)
  | .llc eo =>
      -- checks 0x01 and 0x02 belong to the header that read the field (R168)
      let v := beAt bs eo 2
      let (kb, rb) := w.before.getD (k0, r0)
      if 0x05DD ≤ v then
        let (k, r) := malAt kb rb w.inner 0x01 w.lastOff
        ({ w with p := { w.p with keys := k, rv := r } }, none)
      else
        let w := if dl < eo + 2 + v then w.failEnd kb rb 0x02 w.lastOff else w
        ((w.took 0x1D (eo + 1)).done (eo + 2), none)
  | .ip4 o => fitsAt (w.atIp 1) o 20 fun w =>
      let k1 := w.p.keys
      let b0 := byteAt bs o
      let ihl := bits b0 0 4
      let hl := 4 * ihl
      let tot := beAt bs (o + 2) 2
      let fo := bits (beAt bs (o + 6) 2) 0 13
      let mf := bit (beAt bs (o + 6) 2) 13
        let wr := w.readTo lst (o + 19)
        if bits b0 4 4 ≠ 4 then (wr.fail 0x20 o, none)
        else if ihl < 5 then (wr.fail 0x21 o, none)
        else if tot < hl then (wr.fail 0x22 o, none)
        else if 65535 < fo * 8 + tot - hl then (wr.fail 0x24 o, none)
        else
          let w := if dl < o + tot then w.failEnd k1 w.p.rv 0x23 o else w
          let w := w.ip (fun k => { k with
            src := mapped4 (beAt bs (o + 12) 4), dst := mapped4 (beAt bs (o + 16) 4), proto := byteAt bs (o + 9)
            dscp := bits (byteAt bs (o + 1)) 2 6, ecn := bits (byteAt bs (o + 1)) 0 2, ipopt := decide (5 < ihl) })
          let w := (w.layer 5 13 o).took 0x08 (o + 19)
          let w := { w with pay := tot - hl }
          if mf ∨ fo ≠ 0 then (w.fragment (o + hl) (byteAt bs (o + 9)) (decide (fo = 0)), none)
          else match l4Node (byteAt bs (o + 9)) (o + hl) false with
            | some m => (w, some m)
            | none => (w.done (o + hl), none)
  | .ip6 o => fitsAt (w.atIp 2) o 40 fun w =>
      let k1 := w.p.keys
      let pl := beAt bs (o + 4) 2
      let tc := bits (beAt bs o 2) 4 8
        let wr := w.readTo lst (o + 39)
        if bits (byteAt bs o) 4 4 ≠ 6 then (wr.fail 0x28 o, none)
        else if pl = 0 then (wr.fail 0x29 o, none)
        else
          let w := if dl < o + 40 + pl then w.failEnd k1 w.p.rv 0x2A o else w
          let w := w.ip (fun k => { k with
            src := beAt bs (o + 8) 16, dst := beAt bs (o + 24) 16, dscp := bits tc 2 6, ecn := bits tc 0 2 })
          let w := (w.layer 5 13 o).took 0x09 (o + 39)
          afterIp6 c { w with pay := pl } (byteAt bs (o + 6)) (o + 40)
  | .ext o nh =>
      let len := if nh = 44 then 8 else 8 * (byteAt bs (o + 1) + 1)
      let code := if nh = 0 then 0x0A else if nh = 43 then 0x0B else if nh = 44 then 0x0C else 0x0D
      let direct : Bool := r0.hlist.getLast? == some 0x09
      fits o (max 8 (min len (129 - o))) fun w =>
        let wr := w.readTo lst (o + 7)
        if w.pay < len then (wr.fail 0x2B o, none)
        else if (nh = 0 ∧ direct = false) ∨ (nh = 44 ∧ w.sawFrag) then (wr.fail 0x2C o, none)
        else
          let w := w.ip (fun k => { k with ipopt := true })
          let w := { w with pay := w.pay - len }.took code (o + (if nh = 44 then 7 else len - 1))
          if nh = 44 then
            let w := { w with sawFrag := true, p := { w.p with rv := if w.inner then w.p.rv else rvOff w.p.rv 6 o } }
            (w.fragment (o + 8) (byteAt bs o) (decide (bits (beAt bs (o + 2) 2) 3 13 = 0)), none)
          else afterIp6 c w (byteAt bs o) (o + len)
  | .udp o => fits o 8 fun w =>
      let len := beAt bs (o + 4) 2
      let sp := beAt bs o 2
      let dp := beAt bs (o + 2) 2
      if len < 8 ∨ w.pay < len then ((w.readTo lst (o + 7)).fail 0x30 o, none)
      else
        let w := w.ip (fun k => { k with sport := sp, dport := dp, l4v := true })
        let w := (w.layer 7 14 o).took 0x0E (o + 7)
        let w := if w.inner then w else { w with p := { w.p with rv := rvOff w.p.rv 8 (o + 8) } }
        afterL4 c w (o + 8) (len - 8) sp dp false
  | .tcp o => fits o 20 fun w =>
      let hl := 4 * bits (byteAt bs (o + 12)) 4 4
      let sp := beAt bs o 2
      let dp := beAt bs (o + 2) 2
      if hl < 20 ∨ w.pay < hl then ((w.readTo lst (o + 19)).fail 0x31 o, none)
      else
        let w := w.ip (fun k => { k with sport := sp, dport := dp, tcpf := byteAt bs (o + 13), l4v := true })
        let w := (w.layer 7 14 o).took 0x0F (o + 19)
        let w := if w.inner then w else { w with p := { w.p with rv := rvOff w.p.rv 8 (o + hl) } }
        afterL4 c w (o + hl) (w.pay - hl) sp dp true
  | .icmp o v6 =>
      let len := if v6 then 4 else 8
      fits o len fun w =>
        if w.pay < len then ((w.readTo lst (o + len - 1)).fail 0x32 o, none)
        else
          let w := w.ip (fun k => { k with sport := byteAt bs o, dport := byteAt bs (o + 1), l4v := true })
          let w := (w.layer 7 14 o).took (if v6 then 0x11 else 0x10) (o + len - 1)
          ((if w.inner then w else { w with p := { w.p with rv := rvOff w.p.rv 8 (o + len) } }).done (o + len), none)
  | .slotU o u =>
      let v := (c.udp[u]?).getD 0
      let len := 4 * bits v 18 4
      fits o len fun w =>
        let w := { w with p := { w.p with keys := { w.p.keys with udp := some u }, rv := rvOff w.p.rv 9 o } }
        let w := w.took 0x12 (o + len - 1)
        match bits v 24 3 with
        | 1 => (w, some (.innerEth (o + len)))
        | 2 => ({ w with inner := true, tags := 0 }, some (.ip4 (o + len)))
        | 3 => ({ w with inner := true, tags := 0 }, some (.ip6 (o + len)))
        | 4 => if bit c.port 7 then (w, some (.avtp (o + len))) else (w.done (o + len), none)
        | _ => (w.done (o + len), none)
  | .doip o tcp =>
      let ty := beAt bs (o + 2) 2
      let plen := beAt bs (o + 4) 4
      let hasAddr : Bool := decide (o + 12 ≤ dl) && decide (4 ≤ plen)
      let last := if ty = 0x8001 ∧ hasAddr then o + 11 else o + 7
      fits o (if ty = 0x8001 ∧ hasAddr then 12 else 8) fun w =>
        let wr := w.readTo lst (last)
        if byteAt bs o ^^^ byteAt bs (o + 1) ≠ 0xFF then
          if tcp then (wr.done o, none) else (wr.fail 0x38 o, none)
        else if tcp = false ∧ (w.pay < plen + 8 ∨ (ty = 0x8001 ∧ hasAddr = false)) then (wr.fail 0x39 o, none)
        else
          let d := if ty ≠ 0x8001 then some (ty, 0, 0)
            else if hasAddr then some (ty, beAt bs (o + 8) 2, beAt bs (o + 10) 2) else none
          let w := { w with p := { w.p with keys := { w.p.keys with doip := d }, rv := rvOff w.p.rv 11 o } }
          ((w.took 0x17 last).done (last + 1), none)
  | .avtp o =>
      let st := byteAt bs o
      let len := if st = 0x82 then 12 else if st = 0x05 then 24 else 1
      fits o len fun w =>
        let dlen := if st = 0x82 then bits (beAt bs (o + 1) 2) 0 11 else beAt bs (o + 20) 2
        let w := if len ≠ 1 ∧ dl < o + len + dlen then w.failEnd k0 r0 0x3C o else w
        let sid := if len = 1 then 0 else beAt bs (o + 4) 8
        let w := { w with p := { w.p with keys := { w.p.keys with avtp := some (st, sid) }, rv := rvOff w.p.rv 10 o } }
        ((w.took (if st = 0x82 then 0x14 else if st = 0x05 then 0x15 else 0x16) (o + len - 1)).done (o + len), none)

/-- R167: the parse has followed 12 headers. A further node stops it; a length/type field that selects no node fails
check 0x01. -/
def followLimit (c : ParseOpts) (bs : List Byte) (dl late : Nat) (n : Node) (w : Walk) : Walk :=
  match n with
  | .llc eo => if 0x05DD ≤ beAt bs eo 2 then (enter c bs dl late n w).1 else w.stop 0x40 eo
  | _ => w.stop 0x40 n.off

/-- Follow the graph, at most 12 headers (R167). -/
def follow (c : ParseOpts) (bs : List Byte) (dl late : Nat) : Nat → Node → Walk → Walk
  | 0, n, w => followLimit c bs dl late n w
  | fuel + 1, n, w =>
    match enter c bs dl late n w with
    | (w, none) => w
    | (w, some m) => follow c bs dl late fuel m w

/-- The parse of a frame, before the checks at end are taken in. `late` is the number of the first header step that
runs after the frame's last byte has entered PRS. -/
def parseFrame (c : ParseOpts) (port : Nat) (bs : List Byte) (macsecRx : Bool) (epoch late : Nat) : Parse :=
  let w0 : Walk := { p := { keys := { port := port }, rv := { macsecRx := macsecRx, epoch := epoch } } }
  let w := follow c bs (bs.length - 4) late 12 .eth w0
  -- R154: DEEP when the parse read a byte at offset 64 or higher
  let deep := w.p.reads.any (fun x => decide (64 ≤ x))
  let p := w.p
  { p with rv := { p.rv with deep := deep }
           late := p.late.map (fun (k, r) => (k, { r with deep := deep })) }

/-- The parse with a failed check at end taken into the result vector (R168, R169). -/
def Parse.withEnd (p : Parse) : Parse :=
  match p.late with
  | none => p
  | some (k, r) => { p with keys := k, rv := r, late := none }

/-- K_X FLAGS (R171). -/
def kxFlags (r : ResultVec) : Nat :=
  b2n r.trunc + 2 * b2n r.mal + 4 * b2n r.opaqueTag + 8 * b2n r.macsecRx + 16 * b2n r.tunnel + 32 * b2n r.deep
  + 64 * b2n r.innerFrag

/-- The result vector as its 32 bytes (Table 5-5). -/
def rvBytes (k : Keys) (r : ResultVec) : List Byte :=
  let hl := (r.hlist.foldr (fun c acc => c + 32 * acc) 0)
  let fl := b2n r.trunc + 2 * b2n r.mal + 4 * b2n k.ip.frag + 8 * b2n k.ip.fragFirst + 16 * b2n r.deep
    + 32 * b2n r.macsecRx + 64 * b2n r.opaqueTag + 128 * b2n (k.ip.ipopt || k.ipi.ipopt) + 256 * b2n k.doip.isSome
    + 512 * b2n r.tunnel + 1024 * b2n r.innerFrag
  r.offs.map b8 ++ leBytes 8 hl ++ leBytes 2 fl ++ [b8 r.malCode, b8 (r.hlist.length + 16 * k.ntags)]
    ++ leBytes 2 r.epoch ++ [b8 k.port]
    ++ [b8 ((match k.uet with | some u => u + 8 | none => 0) + (match k.udp with | some u => 16 * u + 128 | none => 0))]

end Sys2Proof.Machine
end

