-- ==== Sys2Proof/Machine/Ports.lean ====
section
/-!
DEFINITION. The external ports (spec/04_ethernet_ports.md, R117 to R147): reception at the MII boundary, link states,
the MAC merge sublayer, TC10, the MDIO masters and the lane and cable tests. Shell Link lanes follow the same link
states (R457); they are ports 48 and 49 of the port table.
-/
namespace Sys2Proof.Machine
open Sys2Proof

/-! ### Reception -/

/-- The last four bytes are the FCS of the bytes before them. -/
def fcsGood (bs : List Byte) : Bool :=
  decide (4 ≤ bs.length) && bs.drop (bs.length - 4) == leBytes 4 (crc32 (bs.take (bs.length - 4)))

/-- What the receiving MAC makes of a frame: what it counts, and what it hands on. -/
inductive MacVerdict where
  /-- counted in counter `k` and dropped -/
  | discard (k : Nat)
  /-- handed on without error -/
  | good
  /-- counted in counter `k`; enters with these bytes and ends as a frame in error -/
  | bad (k : Nat) (bytes : List Byte) (hasFcs : Bool)
deriving DecidableEq, Repr

/-- R127 to R129, R131: the checks of the MAC, MAX_LEN given. -/
def macVerdict (maxLen : Nat) (bs : List Byte) (abort : Bool) : MacVerdict :=
  let ctl := etypeOf bs == 0x8808
  if abort then (if bs.length < 64 || ctl then .discard 7 else .bad 7 bs false)
  else if bs.length < 64 then .discard (if fcsGood bs then 3 else 4)
  else if maxLen < bs.length then (if ctl then .discard 5 else .bad 5 (bs.take maxLen) false)
  else if !fcsGood bs then (if ctl then .discard 2 else .bad 2 bs true)
  else if ctl then .discard 6 else .good

/-- EtherType 0x8100, 0x88A8, 0x9100 or the user TPID: the frame is tagged. -/
def taggedFrame (s : State) (bs : List Byte) : Bool :=
  let e := etypeOf bs
  e == 0x8100 || e == 0x88A8 || e == 0x9100 || (e != 0 && e == s.fld (regAddr pPrs 0x040) 16 16)

/-- EtherType behind any tags, at most 8. -/
def finalEtype (s : State) : Nat → List Byte → Nat
  | 0, bs => etypeOf bs
  | n + 1, bs => if taggedFrame s bs then finalEtype s n (bs.take 12 ++ bs.drop 16) else etypeOf bs

/-- R367: a domain that a message of a domainNumber on a port belongs to: enabled, and the port its slave or one of its
master ports. -/
def gptpDomain (s : State) (p num : Nat) : Option Nat :=
  [0, 1].find? (fun d =>
    let c := regAddr pPtp (0x100 + 0x80 * d)
    s.bitAt c 0 && s.fld c 8 8 == num && (s.fld c 16 6 == p || bit (s.pair (c + 4)) p))

/-- R366, R367: the counter of Table 12-5 in which a gPTP frame is discarded. -/
def gptpDiscard (s : State) (p : Nat) (bs : List Byte) : Option Nat :=
  if finalEtype s 8 bs ≠ 0x88F7 then none
  else if taggedFrame s bs || bits (byteAt bs 14) 4 4 != 1 then some 4
  else
    let ty := bits (byteAt bs 14) 0 4
    if ty = 0xB ∨ ty = 0xC then some 5
    else if ty = 2 ∨ ty = 3 ∨ ty = 0xA then (if s.bitAt (regAddr pPtp (0x400 + 0x10 * p)) 0 then none else some 4)
    else if (gptpDomain s p (byteAt bs 18)).isSome then none else some 4

/-- The instant at which a frame crosses the MII boundary, and its timestamps (R23, R136, R139): the cycle of R23, the cycle,
sub-cycle position and phase of the timestamps. -/
structure Crossing where
  rx : Nat
  ts : Nat
  sub : Nat
  pos : Pos
  sinceCycle : Nat
deriving DecidableEq, Repr

/-- A frame whose first bit crosses in this cycle. -/
def crossNow (s : State) (sub : Nat) : Crossing :=
  { rx := s.cclk, ts := s.cclk, sub := sub, pos := s.pos, sinceCycle := s.cclk - s.pb.cycleAt }

/-- A frame of a port as it enters at a crossing. -/
def crossFrame (s : State) (p : Nat) (x : Crossing) : Frame :=
  { portFrame s p x.sub x.ts with rx := x.rx, pos := x.pos, sinceCycle := x.sinceCycle }

/-- MSC ingress and the gPTP checks, then PRS. `bs` ends with an FCS unless `hasFcs` is false. -/
def afterMac (s : State) (p : Nat) (x : Crossing) (bs : List Byte) (hasFcs err : Bool) (cmp : PipeCmp) : State :=
  let full := if hasFcs then bs else bs ++ leBytes 4 0
  match mscReceive s p full cmp with
  | (t, .drop) => t
  | (t, .clear _) =>
    match (if err then none else gptpDiscard t p bs) with
    | some k => t.bump (aPtpCnt k)
    | none => enterFrame t { crossFrame t p x with bytes := bs, hasFcs := hasFcs, err := err, secOn := mscEn t p }
  | (t, .open_ out icv aborted) =>
    let t := if aborted then t.bump (aMacCnt p 7) else t
    let bad := err || icv || aborted
    match (if bad then none else gptpDiscard t p out) with
    | some k => t.bump (aPtpCnt k)
    | none =>
      let u := enterFrame t { crossFrame t p x with
        bytes := out, hasFcs := true, err := bad, macsecRx := true, icvFail := icv, secOn := true,
        tag := secTagLen bs, lineLen := bs.length, replay := if cmp = .retry then Config.freeNat t.free % 33 else 0 }
      if cmp = .retry then pipeDelay u t.nextFrame else u

/-- What a frame in reception has counted, for the case that its port leaves UP before its end (Table 4-3). -/
def noteRx (s : State) (p rx len k octets : Nat) : State :=
  let m := s.mac p
  s.setMac p { m with rxRuns := m.rxRuns.filter (fun x => decide (s.cclk < x.endAt))
      ++ [{ endAt := rx + byteTime (portMbps s p) len, counter := k, octets := octets }] }

/-- R126 to R131: a frame crosses the MII boundary of a port. Marks: DEDUCED (log entry 27). -/
def receive (s : State) (p : Nat) (x : Crossing) (bs : List Byte) (abort : Bool) (cmp : PipeCmp) : State :=
  match macVerdict (s.fld (aMac p 0x044) 0 14) bs abort with
  | .discard k => noteRx (s.bump (aMacCnt p k)) p x.rx bs.length k 0
  | .bad k out fcs => afterMac (noteRx (s.bump (aMacCnt p k)) p x.rx bs.length k 0) p x out fcs true cmp
  | .good =>
    afterMac (noteRx ((s.bump (aMacCnt p 0)).bumpBy (aMacCnt p 1) bs.length) p x.rx bs.length 0 bs.length)
      p x bs true false cmp

/-- A port hands frames on only while it is UP. -/
def portUp (s : State) (p : Nat) : Bool := (s.mac p).link == .up

/-- FRAME_RECEIVE. -/
def execFrameReceive (port : Nat) (bytes : List Byte) (abort : Bool) (sub : Nat) (cmp : PipeCmp) (s : State) : Result :=
  ifWf (macOk port && decide (sub < 4))
    (whenever (portUp s port) s (receive s port (crossNow s sub) bytes abort cmp))

/-! ### Link-down actions (Table 4-3) -/

/-- Bytes of a frame that have been received by now; a SecTAG is not counted. -/
def receivedBytes (s : State) (f : Frame) : Nat := (s.cclk - f.rx) * f.mbps / 8000 - f.tag

/-- Whether a frame is still being received on a port. -/
def inReception (s : State) (p : Nat) (f : Frame) : Bool :=
  f.stage != .gone && f.port == p && decide (s.cclk < f.rx + byteTime f.mbps (lineLen f))

/-- R590: a copy on its way out of a frame that has been cut to end `cutBy` stored bytes early. -/
def cutRun (s : State) (p cutBy : Nat) (x : TxRun) : TxRun :=
  let out := stompedBytes x.bytes (x.bytes.length - 4 - cutBy)
  { x with bytes := out, stomp := true, endAt := x.start + byteTime (portMbps s p) (out.length - x.sent + 20) }

/-- The copies of frame `n` that EGS has taken, cut. -/
def cutCopies (n cutBy : Nat) (s : State) (p : Nat) : State :=
  let e := s.egs p
  let f (x : Option TxRun) : Option TxRun := x.map (fun r => if r.frame = n then cutRun s p cutBy r else r)
  s.setEgs p { e with tx := f e.tx, sel := e.sel.map (fun r => if r.frame = n then cutRun s p cutBy r else r), susp := f e.susp }

/-- R199: the learn event of a frame is discarded. -/
def dropLearn (s : State) (n : Nat) : State :=
  { s with tables := { s.tables with filt0 := s.tables.filt0.filter (fun e => e.frame != n),
                                     filt1 := s.tables.filt1.filter (fun e => e.frame != n) } }

/-- A counter goes back by `n`. -/
def unbump (s : State) (a n : Nat) : State := s.setPair a ((s.pair a + 2 ^ 64 - n) % 2 ^ 64)

/-- Table 4-3: a frame being received counts in RX_ABORT and nowhere else. -/
def abortCount (p : Nat) (s : State) (x : RxRun) : State :=
  (unbump (unbump s (aMacCnt p x.counter) 1) (aMacCnt p 1) x.octets).bump (aMacCnt p 7)

/-- Table 4-3: a frame being received ends as RX_ABORT after the bytes received. Marks: DEDUCED (log entry 27). -/
def abortReception (s : State) (n : Nat) : State :=
  let f := s.frame n
  let k := min (receivedBytes s f) f.bytes.length
  let t := dropLearn s n
  if k < 64 then retireFrame (t.setFrame n { f with stage := .gone }) n
  else
    let f' := { f with bytes := f.bytes.take k, hasFcs := false, err := true }
    (List.range 52).foldl (cutCopies n (storedLen f - storedLen f')) (t.setFrame n f')

/-- Every frame in reception on a port ends. -/
def endReceptions (s : State) (p : Nat) : State :=
  let m := s.mac p
  let t := ((m.rxRuns.filter (fun x => decide (s.cclk < x.endAt))).foldl (abortCount p) s).setMac p { m with rxRuns := [] }
  ((t.frames.filter (fun x => inReception t p x.2)).map (fun x => x.1)).foldl abortReception t

/-- Table 4-3: a frame being transmitted ends with an error control character. -/
def abortTx (s : State) (p : Nat) : State :=
  match (s.egs p).tx with
  | none => s
  | some x =>
    let n := min (frameSent s p x s.cclk) x.bytes.length
    let t := (s.setEgs p { s.egs p with tx := none }).bump (aMacCnt p 11)
    removeCopy (t.emit (.line p ((x.bytes.take n).drop x.sent) true)) p x.q x.frame

/-- Table 4-3, cycle 0: no frame starts from this cycle: a selected copy stays in its queue for the flush, and a suspended
frame is lost (R295). -/
def stopStarts (s : State) (p : Nat) : State :=
  let t := ((s.egs p).sel).foldl (fun u x => unselect u p x.q x.frame) s
  let e := t.egs p
  t.setEgs p { e with susp := none, held := false }

/-- A T1 PHY. -/
def State.tphy (s : State) (n : Nat) : Tphy := Tab.get (fun _ => {}) s.ports.tphy n

/-- The state with a T1 PHY changed. -/
def State.setTphy (s : State) (n : Nat) (x : Tphy) : State :=
  { s with ports := { s.ports with tphy := Tab.set (fun _ => {}) s.ports.tphy n x } }

/-- R143: a port in SLEEP_NEG that leaves UP returns to NORMAL. -/
def endNegotiation (s : State) (p : Nat) : State :=
  if 32 ≤ p ∧ p < 48 ∧ (s.tphy (p - 32)).tc10 = .sleepNeg then
    s.setTphy (p - 32) { s.tphy (p - 32) with tc10 := .normal }
  else s

/-- R124: the actions of cycle 0 of Table 4-3 for a port that leaves UP for a state. -/
def leaveUp (s : State) (p : Nat) (to_ : LinkState) : State :=
  let t := stopStarts (endReceptions s p) p
  let t := endNegotiation t p
  let t := t.setMac p { t.mac p with
    link := to_, lossSince := none, goodSince := none, verify := .disabled, verifyEnd := none, partial_ := none,
    downAt := some t.cclk }
  let t := { t with tables := { t.tables with purge := t.tables.purge ||| 2 ^ p } }
  slavePortLost ((t.bump (aMacCnt p 13)).raise (pMac p) 1) p

/-- Table 4-3, cycle 8: the port is marked down, and its flush begins. -/
def markDown (s : State) (p : Nat) : State :=
  let t := startFlush s p
  t.setEgs p { t.egs p with down := true }

/-- Table 4-3, cycle 24: the report of class LINK_DOWN; the sequence has ended. -/
def downReport (s : State) (p : Nat) : State :=
  (s.setMac p { s.mac p with downAt := none }).report 0x10 (unitId 1 p) [] false

/-- Table 4-3, cycles 1, 8 and 24. -/
def downStep (s : State) (p : Nat) : State :=
  match (s.mac p).downAt with
  | none => s
  | some t =>
    if s.cclk = t + 1 then abortTx s p
    else if s.cclk = t + 8 then markDown s p
    else if t + 24 ≤ s.cclk then downReport s p else s

/-- A port that comes UP before its link-down actions have ended: those that are left come first. -/
def finishDown (s : State) (p : Nat) : State :=
  match (s.mac p).downAt with
  | none => s
  | some t =>
    let u := if s.cclk < t + 1 then abortTx s p else s
    downReport (if s.cclk < t + 8 then markDown u p else u) p

/-! ### Training -/

/-- MODE, FEC, ALT, ALT_FEC and ALT_MS of a port. -/
def macModeReg (s : State) (p : Nat) : Nat := (s.reg (aMac p 0x040)).toNat

/-- A T1 port trains in the role of its `TPHY_CFG`. -/
def takeRole (s : State) (p : Nat) : State :=
  if 32 ≤ p ∧ p < 48 then s.setTphy (p - 32) { s.tphy (p - 32) with role := s.bitAt (regAddr (pTphy (p - 32)) 0x040) 0 }
  else s

/-- R118: a port that trains in SGMII sends its control word: 1000 Mb/s, full duplex, link up. -/
def sgmiiSends (s : State) (p : Nat) : State :=
  if (s.mac p).mode = 6 ∧ p < 32 then s.emit (.sgmii p 1000 true true) else s

/-- Table 4-2: training starts in MODE. -/
def trainStart (s : State) (p : Nat) : State :=
  let v := macModeReg s p
  let m := s.mac p
  sgmiiSends ((takeRole s p).setMac p { m with
    link := .train, mode := bits v 0 4, fec := bits v 4 2, inAlt := false,
    goodSince := if m.loss.isEmpty then some s.cclk else none, lossSince := none,
    dwellEnd := if bits v 8 4 = 0 then none else some (s.cclk + bits v 16 8 * 1000000) }) p

/-- A disabled T1 port has left the TC10 states. Marks: DEDUCED (log entry 27). -/
def tc10Off (s : State) (p : Nat) : State :=
  if 32 ≤ p ∧ p < 48 ∧ (s.tphy (p - 32)).tc10 ≠ .normal then
    s.setTphy (p - 32) { s.tphy (p - 32) with tc10 := .normal }
  else s

/-- Table 4-2: a port is disabled. -/
def portDisable (s : State) (p : Nat) : State :=
  let t := tc10Off (if portUp s p then leaveUp s p .disabled else s) p
  t.setMac p { t.mac p with
    link := .disabled, mode := 0, fec := 0, inAlt := false, dwellEnd := none, goodSince := none, lossSince := none }

/-- Table 4-2: a commit has changed MODE, FEC, ALT, ALT_FEC or the lane's `SDS_CFG`. -/
def linkTrainStart (s : State) (p : Nat) : State :=
  if bits (macModeReg s p) 0 4 = 0 then
    (if (s.mac p).link = .disabled then s else portDisable s p)
  else if (s.mac p).link = .sleep then s
  else trainStart (if portUp s p then leaveUp s p .train else s) p

/-! ### Loss conditions -/

/-- Port number of a link in the port table. Marks: DEDUCED (log entry 27). -/
def linkKey : LinkId → Nat
  | .port n => n
  | .sl l => 48 + l

/-- BAR0 offset of a register of a SerDes lane's block. -/
def laneReg (k off : Nat) : Nat :=
  if k < 48 then regAddr (pSds k) off else regAddr pSl (0x3C0 + 0x200 * (k - 48) + off)

/-- The page whose IRQ_RAW shows a lane's losses. -/
def lanePage (k : Nat) : Nat := if k < 48 then pSds k else pSl

/-- LOCK_LOSS and HI_BER of a lane (Table 4-8). -/
def laneEvents (s : State) (n : Nat) (k : LossKind) : State :=
  if 32 ≤ n ∧ n < 48 then s
  else
    match k with
    | .blockLock => (s.bump (laneReg n 0x118)).raise (lanePage n) 0
    | .amLock => (s.bump (laneReg n 0x118)).raise (lanePage n) 0
    | .hiBer => s.raise (lanePage n) 1
    | .signal => s
    | .localFault => s
    | .remoteFault => s
    | .phyFail => s

/-- The port runs SGMII: what holds it back is a control word of another speed (R118).
Marks: DEDUCED (log entry 27). -/
def sgmiiWord (s : State) (n : Nat) (k : LossKind) : Bool :=
  k == .phyFail && decide (n < 32) && (s.mac n).mode == 6

/-- R123, R118: a loss condition arises. -/
def lossArises (s : State) (n : Nat) (k : LossKind) : State :=
  let s := if sgmiiWord s n k then s.bump (aMacCnt n 14) else s
  let m := s.mac n
  if m.loss.contains k || (sgmiiWord s n k && m.link == .up) then s
  else
    (laneEvents s n k).setMac n { m with
      loss := k :: m.loss, goodSince := none,
      lossSince := if m.link = .up ∧ m.loss.isEmpty then some s.cclk else m.lossSince }

/-- LOSS_CONDITION. -/
def execLossCondition (l : LinkId) (k : LossKind) (s : State) : Result :=
  ifWf (linkOk l) (lossArises s (linkKey l) k)

/-- R123: a loss condition clears. -/
def lossClears (s : State) (n : Nat) (k : LossKind) : State :=
  let m := s.mac n
  if !m.loss.contains k then s
  else
    let rest := m.loss.filter (fun x => x != k)
    s.setMac n { m with
      loss := rest
      lossSince := if rest.isEmpty then none else m.lossSince
      goodSince := if rest.isEmpty ∧ m.link = .train then some s.cclk else m.goodSince }

/-- LOSS_CONDITION_CLEAR. -/
def execLossConditionClear (l : LinkId) (k : LossKind) (s : State) : Result :=
  ifWf (linkOk l) (lossClears s (linkKey l) k)

/-! ### Link up and down -/

/-- DN_HOLD of a link in cycles. -/
def dnHold (s : State) (n : Nat) : Nat :=
  1000 * (if n < 48 then s.fld (aMac n 0x048) 0 10 else s.fld (regAddr pSl 0x040) 4 12)

/-- UP_HOLD of a link in cycles. -/
def upHold (s : State) (n : Nat) : Nat :=
  100000 * (if n < 48 then s.fld (aMac n 0x048) 16 16 else s.fld (regAddr pSl 0x040) 16 16)

/-- An UP link on which a loss condition has held for DN_HOLD. -/
def downDue (s : State) (n : Nat) : Bool :=
  match (s.mac n).lossSince with
  | some t => (s.mac n).link == .up && decide (t + dnHold s n ≤ s.cclk)
  | none => false

/-- R459: the Shell Link leaves UP: unacknowledged records go and LSEQ restarts. -/
def slLeavesUp (s : State) : State :=
  { s with sl := { s.sl with unacked := [], waiting := [], txSeq := 0, rxSeq := 0, lackDue := none } }.raise pSl 3

/-- A Shell Link lane leaves UP. -/
def slLaneDown (s : State) (l : Nat) : State :=
  let t := s.setMac (48 + l) { s.mac (48 + l) with link := .train, lossSince := none, goodSince := none }
  let t := { t with sl := { t.sl with up := clrBitNat t.sl.up l } }
  let t := (t.bump (regAddr pSl 0x128)).raise pSl 2
  if t.sl.up = 0 then slLeavesUp t else t
where
  /-- A number with bit `i` cleared. -/
  clrBitNat (v i : Nat) : Nat := if bit v i then v - 2 ^ i else v

/-- A loss condition has held for DN_HOLD. -/
def linkGoesDown (s : State) : LinkId → State
  | .port p => trainStart (leaveUp s p .train) p
  | .sl l => slLaneDown s l

/-- LINK_DOWN (R124). -/
def execLinkDown (l : LinkId) (s : State) : Result :=
  ifWf (linkOk l) (whenever (downDue s (linkKey l)) s (linkGoesDown s l))

/-- R146: the PRBS generator of a port's lane is off. -/
def prbsOff (s : State) (n : Nat) : Bool := (decide (32 ≤ n) && decide (n < 48)) || s.fld (laneReg n 0x04C) 0 2 == 0

/-- A training link without a loss condition for UP_HOLD. -/
def upDue (s : State) (n : Nat) : Bool :=
  match (s.mac n).goodSince with
  | some t => (s.mac n).link == .train && decide (t + upHold s n ≤ s.cclk) && prbsOff s n
      && (decide (n < 48) || s.bitAt (regAddr pSl 0x040) (n - 48))
  | none => false

/-- R133: bytes of a verify or respond mPacket. -/
def verifyBytes : List Byte := List.replicate 60 0

/-- R133: verification starts, or is not run. -/
def mmStart (s : State) (p : Nat) : State :=
  if p < 32 ∧ s.bitAt (aMac p 0x050) 0 ∧ !s.bitAt (aMac p 0x050) 1 ∧ portUp s p then
    (s.setMac p { s.mac p with verify := .verifying, verifyTries := 1,
                               verifyEnd := some (s.cclk + s.fld (aMac p 0x050) 8 8 * 1000000) }).emit
      (.line p verifyBytes false)
  else s.setMac p { s.mac p with verify := .disabled, verifyEnd := none }

/-- Table 4-2: the queues of a port start empty, with full buckets. -/
def freshEgs (s : State) (p : Nat) : State :=
  let e := s.egs p
  let t := s.setEgs p { e with
    credit := [], creditAt := (List.range 8).map (fun q => (q, s.cclk)), deficit := [], nofit := [], down := false, held := false }
  (List.range 9).foldl (fun t i => setBucket t p i (bucketBurst t p i)) t

/-- Table 4-2: a port enters UP. Marks: DEDUCED (log entry 27). -/
def portGoesUp (s : State) (p : Nat) : State :=
  let s := finishDown s p
  let t := s.setMac p { s.mac p with
    link := .up, lossSince := none, goodSince := none, dwellEnd := none, txSub := Config.freeNat s.free % 4 }
  let t := mmStart (freshEgs t.tick1 p) p
  let t := t.raise (pMac p) 0
  if (s.mac p).inAlt then t.raise (pMac p) 2 else t

/-- A Shell Link lane enters UP. -/
def slLaneUp (s : State) (l : Nat) : State :=
  let t := s.setMac (48 + l) { s.mac (48 + l) with link := .up, lossSince := none, goodSince := none }
  let t := { t with sl := { t.sl with up := t.sl.up ||| 2 ^ l } }
  if s.sl.up = 0 then t.raise pSl 4 else t

/-- A link enters UP. -/
def linkGoesUp (s : State) : LinkId → State
  | .port p => portGoesUp s p
  | .sl l => slLaneUp s l

/-- LINK_UP (R122). -/
def execLinkUp (l : LinkId) (s : State) : Result :=
  ifWf (linkOk l) (whenever (upDue s (linkKey l)) s (linkGoesUp s l))

/-- R121: a training port changes between MODE and ALT. -/
def altSwitch (s : State) (p : Nat) : State :=
  let v := macModeReg s p
  let m := s.mac p
  let o := if m.inAlt then 0 else 8
  sgmiiSends (s.setMac p { m with
    inAlt := !m.inAlt, mode := bits v o 4, fec := bits v (o + 4) 2
    goodSince := if m.loss.isEmpty then some s.cclk else none
    dwellEnd := some (s.cclk + bits v 16 8 * 1000000) }) p

/-- A dwell of R121 has ended. -/
def dwellOver (s : State) (p : Nat) : Bool :=
  match (s.mac p).dwellEnd with
  | some t => (s.mac p).link == .train && decide (t ≤ s.cclk)
  | none => false

/-- ALT_MODE_SWITCH (R121). -/
def execAltModeSwitch (port : Nat) (s : State) : Result :=
  ifWf (macOk port) (whenever (dwellOver s port) s (altSwitch s port))

/-! ### MAC merge (R133 to R137) -/

/-- The verify mPacket is answered. -/
def mmAnswered (s : State) (p : Nat) : State :=
  if (s.mac p).verify = .verifying then
    s.setMac p { s.mac p with verify := .succeeded, verifyEnd := none }
  else s

/-- MM_VERIFY_RESPONSE (R133). -/
def execMmVerifyResponse (port : Nat) (s : State) : Result := ifWf (macOk port) (mmAnswered s port)

/-- R133: the interval has passed without an answer. -/
def mmTimeout (s : State) (p : Nat) : State :=
  let m := s.mac p
  match m.verifyEnd with
  | none => s
  | some t =>
    if m.verify ≠ .verifying ∨ s.cclk < t then s
    else if m.verifyTries < 3 then
      (s.setMac p { m with verifyTries := m.verifyTries + 1,
                           verifyEnd := some (s.cclk + s.fld (aMac p 0x050) 8 8 * 1000000) }).emit
        (.line p verifyBytes false)
    else (s.setMac p { m with verify := .failed, verifyEnd := none }).raise (pMac p) 3

/-- MM_VERIFY_TIMEOUT. -/
def execMmVerifyTimeout (port : Nat) (s : State) : Result := ifWf (macOk port) (mmTimeout s port)

/-- The reassembly of a port. -/
def setPartial (s : State) (p : Nat) (x : Option MmPartial) : State := s.setMac p { s.mac p with partial_ := x }

/-- R137: a fragment error: the reassembly, if any, ends. -/
def assyErr (s : State) (p : Nat) : State := (setPartial s p none).bump (aMacCnt p 15)

/-- R136: the handover of a reassembled frame: its first bit crosses when its last fragment, of `n` bytes, has arrived; its
timestamps are those of its first fragment. -/
def mmCrossing (s : State) (p n : Nat) (x : MmPartial) : Crossing :=
  { rx := s.cclk + byteTime (portMbps s p) n, ts := x.startAt, sub := x.sub, pos := x.pos, sinceCycle := x.sinceCycle }

/-- R136: a fragment's bytes have arrived: the frame goes on once it is the last. -/
def mmTake (s : State) (p n : Nat) (x : MmPartial) (last crcOk abort : Bool) (cmp : PipeCmp) : State :=
  if abort || (!last && !crcOk) then assyErr s p
  else if last then receive (setPartial s p none) p (mmCrossing s p n x) x.bytes false cmp
  else setPartial s p (some x)

/-- R139: the sub-cycle position of an mPacket's first bit, which the SerDes or PHY measures: a free value.
Marks: DESIGN CHOICE (log entry 77). -/
def measuredSub (s : State) : Nat := Config.freeNat s.free % 4

/-- R136, R137: a start fragment. -/
def mmStartFrag (s : State) (p no : Nat) (bs : List Byte) (last crcOk abort : Bool) (cmp : PipeCmp) : State :=
  let s := if (s.mac p).partial_.isSome then assyErr s p else s
  mmTake s.tick1 p bs.length { frameNo := no, nextFrag := 0, bytes := bs, startAt := s.cclk, sub := measuredSub s, pos := s.pos,
                               sinceCycle := s.cclk - s.pb.cycleAt } last crcOk abort cmp

/-- R136, R137: a continuation fragment. -/
def mmContFrag (s : State) (p no frag : Nat) (bs : List Byte) (last crcOk abort : Bool) (cmp : PipeCmp) : State :=
  let s := s.bump (aMacCnt p 17)
  match (s.mac p).partial_ with
  | none => assyErr s p
  | some x =>
    if x.frameNo ≠ no ∨ x.nextFrag ≠ frag then assyErr s p
    else mmTake s p bs.length { x with nextFrag := (frag + 1) % 4, bytes := x.bytes ++ bs } last crcOk abort cmp

/-- R137: an unknown SMD; a port without MAC merge knows only express frames. -/
def mmUnknown (s : State) (p : Nat) : State :=
  if p < 32 then (setPartial s p none).bump (aMacCnt p 16) else s

/-- R136, R137: an mPacket by its SMD. Marks: DEDUCED (log entry 27). -/
def mmReceive (s : State) (p : Nat) (smd : Smd) (bs : List Byte) (last crcOk abort : Bool) (cmp : PipeCmp) : State :=
  let on := decide (p < 32) && s.bitAt (aMac p 0x050) 0
  match smd with
  | .express => receive s.tick1 p (crossNow s (measuredSub s)) bs abort cmp
  | .start no => if on then mmStartFrag s p no bs last crcOk abort cmp else mmUnknown s p
  | .cont no frag => if on then mmContFrag s p no frag bs last crcOk abort cmp else mmUnknown s p
  | .verify => if on then s.emit (.line p verifyBytes false) else mmUnknown s p
  | .respond => if on then mmAnswered s p else mmUnknown s p
  | .unknown => mmUnknown s p

/-- MM_FRAGMENT_RECEIVE. -/
def execMmFragmentReceive (port : Nat) (smd : Smd) (bytes : List Byte) (last crcOk abort : Bool) (cmp : PipeCmp)
    (s : State) : Result :=
  ifWf (macOk port) (whenever (portUp s port) s (mmReceive s port smd bytes last crcOk abort cmp))

/-! ### TC10 (R142, R143) -/

/-- BAR0 offset of a TPHY register. -/
def aTphy (n off : Nat) : Nat := regAddr (pTphy n) off

/-- TC10_EN. -/
def tc10En (s : State) (n : Nat) : Bool := s.bitAt (aTphy n 0x040) 1

/-- The state with the TC10 state of a port changed. -/
def setTc10 (s : State) (n : Nat) (x : Tc10) : State := s.setTphy n { s.tphy n with tc10 := x }

/-- Whether EGS holds the queued frames of a port while it negotiates. -/
def setHeld (s : State) (p : Nat) (b : Bool) : State := s.setEgs p { s.egs p with held := b }

/-- Table 4-4: NORMAL to SLEEP_NEG. -/
def tc10Negotiate (s : State) (n : Nat) : State :=
  if (s.tphy n).tc10 = .normal ∧ portUp s (32 + n) then
    (setHeld (setTc10 s n .sleepNeg) (32 + n) true).emit (.tc10 n 3)
  else s

/-- TC10_SLEEP_REQ. -/
def execTc10SleepReq (w : Who) (n : Nat) (s : State) : Result :=
  ifWf (t1Ok n) (s.write w (aTphy n 0x044) 1 (tc10Negotiate s n))

/-- Table 4-4: SLEEP to WAKE: a WUP is sent. -/
def tc10Wake (s : State) (n : Nat) : State :=
  if (s.tphy n).tc10 = .sleep then (setTc10 s n .wake).emit (.tc10 n 1) else s

/-- Tables 4-2 and 4-4: WAKE to NORMAL: a port in SLEEP trains, and TC10_WAKE is raised. -/
def tc10Train (s : State) (n : Nat) : State :=
  if (s.tphy n).tc10 ≠ .wake then s
  else
    let t := setTc10 s n .normal
    if (t.mac (32 + n)).link = .sleep then (trainStart t (32 + n)).raise (pTphy n) 0 else t

/-- TC10_WAKE_REQ. -/
def execTc10WakeReq (w : Who) (n : Nat) (s : State) : Result :=
  ifWf (t1Ok n) (s.write w (aTphy n 0x044) 2 (tc10Wake s n))

/-- Table 4-4: a received sleep request. -/
def tc10Requested (s : State) (n : Nat) : State :=
  if !tc10En s n || (s.tphy n).tc10 != .normal || !portUp s (32 + n) then s
  else if s.bitAt (aTphy n 0x040) 2 then tc10Negotiate s n
  else (s.bump (aTphy n 0x118)).emit (.tc10 n 4)

/-- TC10_SLEEP_REQUEST_RX. -/
def execTc10SleepRequestRx (n : Nat) (s : State) : Result := ifWf (t1Ok n) (tc10Requested s n)

/-- Table 4-4: SLEEP_NEG to SLEEP. -/
def tc10Sleeps (s : State) (n : Nat) : State :=
  if (s.tphy n).tc10 = .sleepNeg then
    let t := leaveUp (setTc10 s n .sleep) (32 + n) .sleep
    (t.setMac (32 + n) { t.mac (32 + n) with mode := 0, fec := 0, inAlt := false }).bump (aTphy n 0x110)
  else s

/-- TC10_HANDSHAKE_DONE. -/
def execTc10HandshakeDone (n : Nat) (s : State) : Result := ifWf (t1Ok n) (tc10Sleeps s n)

/-- Table 4-4: SLEEP_NEG back to NORMAL. -/
def tc10Fails (s : State) (n : Nat) : State :=
  if (s.tphy n).tc10 = .sleepNeg then (setHeld (setTc10 s n .normal) (32 + n) false).raise (pTphy n) 2 else s

/-- TC10_SLEEP_FAIL. -/
def execTc10SleepFail (n : Nat) (s : State) : Result := ifWf (t1Ok n) (tc10Fails s n)

/-! ### MDIO (R144, R145) -/

/-- The frame that an MDIO master is sending. -/
def State.mdio (s : State) (m : Nat) : Option MdioOp := Tab.get (fun _ => none) s.ports.mdio m

/-- The state with it changed. -/
def State.setMdio (s : State) (m : Nat) (x : Option MdioOp) : State :=
  { s with ports := { s.ports with mdio := Tab.set (fun _ => none) s.ports.mdio m x } }

/-- R144: cycles of a transaction: MDC periods of 10 × DIV cycles. -/
def mdioTime (s : State) (m op : Nat) : Nat :=
  let cfg := (s.reg (aMac m 0x400)).toNat
  (if bit cfg 8 then 32 else 64) * (if op < 2 then 1 else 2) * (10 * bits cfg 0 8)

/-- An accepted write of `MDIO_CMD`. -/
def mdioStart (s : State) (m op phy reg : Nat) : State :=
  match s.mdio m with
  | some _ => s.setBitAt (aMac m 0x414) 2 true
  | none =>
    let data := s.fld (aMac m 0x40C) 0 16
    let addr := s.fld (aMac m 0x408) 0 16
    let x : MdioOp := { op := op, phy := phy, reg := reg, addr := addr, data := data, endAt := s.cclk + mdioTime s m op }
    (((s.setMdio m (some x)).setReg (aMac m 0x414) 1).emit (.mdio m op phy reg (if op < 2 then data else addr)))

/-- The word that a command writes to `MDIO_CMD`. -/
def mdioWord (op phy reg : Nat) : Word := w32 (op + phy * 2 ^ 8 + reg * 2 ^ 16)

/-- One `MDIO_CMD` write. -/
def mdioCmd (w : Who) (m op phy reg : Nat) (s : State) : Result :=
  ifWf (mdioOk m phy reg) (s.write w (aMac m 0x404) (mdioWord op phy reg) (mdioStart s m op phy reg))

/-- MDIO_C22_WRITE. -/
def execMdioC22Write (w : Who) (m phy reg : Nat) (s : State) : Result := mdioCmd w m 0 phy reg s

/-- MDIO_C22_READ. -/
def execMdioC22Read (w : Who) (m phy reg : Nat) (s : State) : Result := mdioCmd w m 1 phy reg s

/-- MDIO_C45_WRITE. -/
def execMdioC45Write (w : Who) (m phy reg : Nat) (s : State) : Result := mdioCmd w m 2 phy reg s

/-- MDIO_C45_READ. -/
def execMdioC45Read (w : Who) (m phy reg : Nat) (s : State) : Result := mdioCmd w m 3 phy reg s

/-- R145: what a read returns. -/
def mdioReply (s : State) (m : Nat) : Option Nat → State
  | some v => (s.setReg (aMac m 0x410) (w32 v)).setBitAt (aMac m 0x414) 3 false
  | none => (s.setReg (aMac m 0x410) 0xFFFF).setBitAt (aMac m 0x414) 3 true

/-- R144: the last frame ends. Marks: DEDUCED (log entry 27). -/
def mdioEnds (s : State) (m : Nat) (reply : Option Nat) : State :=
  match s.mdio m with
  | none => s
  | some x =>
    if s.cclk < x.endAt then s
    else
      let t := s.setMdio m none
      let t := if x.op % 2 = 1 then mdioReply t m reply else t
      ((t.setBitAt (aMac m 0x414) 0 false).setBitAt (aMac m 0x414) 1 true).raise (pMac m) 4

/-- MDIO_DONE. -/
def execMdioDone (m : Nat) (reply : Option Nat) (s : State) : Result :=
  ifWf (decide (m < 4) && decide (reply.getD 0 < 2 ^ 16)) (mdioEnds s m reply)

/-! ### Lane and cable tests -/

/-- An accepted write of `SDS_PRBS` of a lane of the port table (R146). -/
def prbsWrite (s : State) (w : Who) (k : Nat) (val : Word) : State :=
  let a := laneReg k 0x04C
  let old := s.reg a
  let new := val &&& 0xF
  let t := logReg ((s.setReg a new).setReg (a + 4) 0) (originOf w.m) a old new false
  if fld new 0 2 = 0 then t
  else if k < 48 then (if portUp t k then trainStart (leaveUp t k .train) k else t)
  else if portUp t k then slLaneDown t (k - 48) else t

/-- SDS_PRBS_WRITE. -/
def execSdsPrbsWrite (w : Who) (lane : Nat) (val : Word) (s : State) : Result :=
  ifWf (laneOk lane) (s.write w (laneReg lane 0x04C) val (prbsWrite s w lane val))

/-- An accepted write of START to `TPHY_DIAG`. Marks: DEDUCED (log entry 27). -/
def cableStart (s : State) (w : Who) (n : Nat) : State :=
  let a := aTphy n 0x04C
  let t := logReg (s.setReg a 1) (originOf w.m) a (s.reg a) 1 false
  (t.setTphy n { t.tphy n with diagBusy := true }).setBitAt (aTphy n 0x050) 31 true

/-- CABLE_TEST_START. -/
def execCableTestStart (w : Who) (n : Nat) (s : State) : Result :=
  ifWf (t1Ok n) (s.write w (aTphy n 0x04C) 1 (cableStart s w n))

/-- A cable test ends. -/
def cableDone (s : State) (n fault dist : Nat) : State :=
  if !(s.tphy n).diagBusy then s
  else
    let t := s.setTphy n { s.tphy n with diagBusy := false }
    (t.setReg (aTphy n 0x050) (w32 (fault + dist % 256 * 2 ^ 8))).raise (pTphy n) 3

/-- DIAG_DONE. -/
def execDiagDone (n fault dist : Nat) (s : State) : Result :=
  ifWf (t1Ok n && decide (fault < 4)) (cableDone s n fault dist)

end Sys2Proof.Machine
end

