-- ==== Sys2Proof/Machine/ParseStage.lean ====
section
/-!
DEFINITION. The parse stage (spec/05_parse_engines.md, R148 to R156, R172, R175, R591): the processor pool, parking,
the hand-over of the keys, and the result capture.
-/
namespace Sys2Proof.Machine
open Sys2Proof

/-- BAR0 offset of a PRS register. -/
def aPrs (off : Nat) : Nat := regAddr pPrs off

/-- BAR0 offset of counter `k` of Table 5-10. -/
def aPrsCnt (k : Nat) : Nat := aPrs (0x200 + 8 * k)

/-- R149, R173: the parse options of an epoch for a port. -/
def parseOpts (s : State) (e port : Nat) : ParseOpts :=
  { cfg := (s.regAt e (aPrs 0x040)).toNat
    doip := (s.regAt e (aPrs 0x044)).toNat
    port := (s.regAt e (aPrs (0x100 + 4 * port))).toNat
    uet := (List.range 8).map (fun u =>
      ((s.regAt e (aPrs (0x080 + 8 * u))).toNat, (s.regAt e (aPrs (0x084 + 8 * u))).toNat))
    udp := (List.range 8).map (fun u => (s.regAt e (aPrs (0x0C0 + 4 * u))).toNat) }

/-! ### Times -/

/-- Cycle in which byte `b` of a frame enters PRS, or its last byte when it is shorter. Below 5 Gb/s the SecTAG has to
arrive before the plaintext behind it (R391, R392). The last byte of a protected frame follows the verdict, 10 cycles after
its ICV (R390, R391). Marks: DEDUCED (log entry 28). -/
def byteInPrs (f : Frame) (b : Nat) : Nat :=
  max (if f.macsecRx && decide (f.bytes.length ≤ b + 1) then f.rx + byteTime f.mbps (lineLen f - 4) + 11 else 0) <|
  f.rx + byteTime f.mbps (min (b + 1) f.bytes.length + (if f.mbps < 5000 then f.tag else 0)) + (if f.secOn then 48 else 0)

/-- E: the cycle in which a frame's last byte enters PRS. The last byte of a plaintext follows the ICV verdict, which
is fixed 10 cycles after the ICV's last byte has crossed the MII (R390, R391); below 5 Gb/s it enters 48 cycles after
the protected frame's last bit (R392). -/
def endInPrs (f : Frame) : Nat :=
  let e := byteInPrs f (f.bytes.length - 1)
  if f.tag = 0 then e
  else if f.mbps < 5000 then max e (f.rx + byteTime f.mbps (lineLen f) + 48)
  else max e (f.rx + byteTime f.mbps (lineLen f - 4) + 11)

/-- R153: keys leave no earlier than those of an earlier frame of the same port. Marks: DEDUCED (log entry 28). -/
def afterEarlier (s : State) (n : Nat) (f : Frame) (t : Nat) : Nat :=
  s.frames.foldl (fun m x => if decide (x.1 < n) && x.2.port == f.port then max m x.2.keysAt else m) t

/-- The frame's result is still to come. -/
def unparsed (f : Frame) : Bool :=
  match f.stage with
  | .received => true
  | .waitProc => true
  | .parked _ => true
  | _ => false

/-- R153: an earlier frame of the same port, whose result is still to come, holds back frame `n`.
Marks: DEDUCED (log entry 28). -/
def heldBack (s : State) (n : Nat) (f : Frame) : Bool :=
  s.frames.any (fun x => decide (x.1 < n) && x.2.port == f.port && unparsed x.2)

/-- R153: the results of later frames of the port leave no earlier than frame `n`'s. -/
def pushLater (s : State) (n port t : Nat) : State :=
  s.frames.foldl (fun u x =>
    if decide (n < x.1) && x.2.port == port && x.2.stage == .parsed && decide (x.2.keysAt < t) then
      u.setFrame x.1 { x.2 with keysAt := t }
    else u) s

/-! ### Processors -/

/-- Retired processors. -/
def prsRetired (s : State) (i : Nat) : Bool := bit (s.pair (aPrs 0x050)) i

/-- Processors in use now. -/
def prsBusy (s : State) (i : Nat) : Bool := decide (s.cclk < Tab.get (fun _ => 0) s.prs.busy i)

/-- R148: the lowest-numbered free processor that is not retired. -/
def freeProc (s : State) : Option Nat := (List.range 64).find? (fun i => !prsRetired s i && !prsBusy s i)

/-- Processors busy. -/
def busyCount (s : State) : Nat := ((List.range 64).filter (prsBusy s)).length

/-- A processor is in use until a cycle. -/
def useProc (s : State) (i until_ : Nat) : State :=
  let t := { s with prs := { s.prs with busy := Tab.set (fun _ => 0) s.prs.busy i until_ } }
  { t with prs := { t.prs with busyMax := max t.prs.busyMax (busyCount t) } }

/-! ### Result capture (R591) -/

/-- A word of a byte list. -/
def wordAt (bs : List Byte) (w : Nat) : Word := w32 (leAt bs (4 * w) 4)

/-- The armed capture takes this frame. -/
def captureMatches (s : State) (f : Frame) : Bool :=
  s.bitAt (aPrs 0x04C) 8 && s.fld (aPrs 0x04C) 0 6 == f.port
  && (!s.bitAt (aPrs 0x04C) 10 || f.parse.rv.trunc || f.parse.rv.mal)

/-- R591: the capture. Marks: DEDUCED (log entry 28). -/
def capture (s : State) (f : Frame) : State :=
  let rv := rvBytes f.parse.keys f.parse.rv
  let t := (List.range 8).foldl (fun t w => t.setReg (aPrs (0x300 + 4 * w)) (wordAt rv w)) s
  let t := (List.range 32).foldl (fun t w => t.setReg (aPrs (0x320 + 4 * w)) (wordAt (f.bytes.take 128) w)) t
  ((t.setBitAt (aPrs 0x04C) 8 false).setBitAt (aPrs 0x04C) 9 true).raise pPrs 0

/-! ### The end of a parse -/

/-- What PRS counts of a result vector. -/
def countParse (s : State) (f : Frame) : State :=
  let r := f.parse.rv
  let add (k : Nat) (b : Bool) (t : State) : State := if b then t.bump (aPrsCnt k) else t
  add 7 r.opaqueTag (add 6 r.tunnel (add 5 (f.parse.keys.ip.frag || r.innerFrag)
    (add 3 r.mal (add 2 r.trunc (add 1 r.deep (s.bump (aPrsCnt 0)))))))

/-- R154, R156: the result is complete, and the keys go to the pipeline at a cycle. -/
def parseEnds (s : State) (n : Nat) (f : Frame) (keysAt : Nat) : State :=
  let g := { f with stage := .parsed, keysAt := afterEarlier s n f keysAt }
  countParse (pushLater (s.setFrame n g) n f.port g.keysAt) g

/-- R153, R591: a result is released to the key builder 16 cycles before its keys go to the pipeline. -/
def release (s : State) (n : Nat) : State :=
  let f := s.frame n
  if f.stage = .parsed ∧ f.released = false ∧ f.keysAt ≤ s.cclk + 16 ∧ heldBack s n f = false then
    let t := s.setFrame n { f with released := true }
    if captureMatches t f then capture t f else t
  else s

/-- Every result whose release has come is released, a port's in the order of its frames. -/
def releasesDue (s : State) : State := (s.frames.map (fun x => x.1)).foldl release s

/-- R169: checks at end are part of the result vector when the parse is DEEP or the frame has ended by dispatch + 31. -/
def endInVector (f : Frame) : Bool := f.parse.rv.deep || decide (endInPrs f ≤ f.dispatchAt + 31)

/-- R175: a parity error of a result vector: the frame is reparsed, and a processor that errs twice within 1 s is
retired. Marks: DEDUCED (log entry 28). -/
def rvParity (s : State) (i : Nat) : State :=
  let t := (s.bump (aPrsCnt 9)).report 0x05 (unitId 6 i) [] false
  let again := match Tab.get (fun _ => none) s.prs.rvErr i with
    | some c => decide (s.cclk ≤ c + 1000000000)
    | none => false
  let t := { t with prs := { t.prs with rvErr := Tab.set (fun _ => none) t.prs.rvErr i (some s.cclk) } }
  if again && !prsRetired t i then
    let u := t.setPair (aPrs 0x050) (t.pair (aPrs 0x050) ||| 2 ^ i)
    if 10 < (setBitsOf 64 (u.pair (aPrs 0x050))).length then u.raise pPrs 1 else u
  else t

/-! ### Steps (R150, R155) -/

/-- Steps of a parse from the next one on, the first of them in cycle `at_`: the steps done, and the byte that the
frame parks for, with the cycle of the last step. -/
def runSteps (f : Frame) : Nat → Nat → List Nat → Nat × Option Nat × Nat
  | done, at_, [] => (done, none, at_ - 1)
  | done, at_, b :: rest =>
    if byteInPrs f b < at_ then runSteps f (done + 1) (at_ + 1) rest else (done, some b, at_ - 1)

/-- Header steps on processor `i`, the first in cycle `at_`. A frame whose steps are all done waits for the end of the
parse. -/
def stepFrame (s : State) (n i at_ : Nat) (f : Frame) : State :=
  let (done, need, last) := runSteps f f.stepsDone at_ (f.parse.reads.drop f.stepsDone)
  match need with
  | some b => useProc (s.setFrame n { f with stage := .parked b, stepsDone := done, proc := none }) i (last + 1)
  | none =>
    let t := useProc s i (last + 5)
    if f.parse.rv.deep then t.setFrame n { f with stage := .parked f.bytes.length, stepsDone := done, proc := none }
    else parseEnds t n { f with stepsDone := done, proc := none } (f.dispatchAt + 48 + f.wait)

/-- The lowest-numbered free processor other than `i`. -/
def otherProc (s : State) (i : Nat) : Option Nat :=
  (List.range 64).find? (fun j => decide (j ≠ i) && !prsRetired s j && !prsBusy s j)

/-- R175: the frame that processor `i` parsed is parsed again on another one; its keys leave at most 32 cycles late
under R26. Marks: DEDUCED (log entry 28). -/
def reparse (s : State) (n i : Nat) (f : Frame) : State :=
  let d := Config.freeNat s.free % (33 - f.replay)
  let t := rvParity s i
  let t := match otherProc t i with
    | some j => useProc t j (s.cclk + 9 + f.parse.reads.length + d)
    | none => t
  let t := t.setFrame n { f with replay := f.replay + d, replayed := true, wait := f.wait + d }
  (if f.replayed then t else t.bump (aFltCnt 5)).tick1

/-- R148 to R152: frame `f`, frame number `n`, starts on processor `i`. -/
def startParse (s : State) (n i : Nat) (f : Frame) : State :=
  let p := parseFrame (parseOpts s f.epoch f.port) f.port f.bytes f.macsecRx f.epoch (endInPrs f + 1 - (s.cclk + 4))
  let g := { f with parse := p, proc := some i, stepsDone := 0, wait := f.wait + (s.cclk - f.dispatchAt) }
  let g := if endInVector g then { g with parse := Parse.withEnd p } else { g with latePending := p.late.isSome }
  let t := if f.rvErr then reparse s n i g else s.setFrame n g
  stepFrame t n i (s.cclk + 5) (t.frame n)

/-- A word of the parse microcode that fails twice is repaired from the other copy (R172, R32). A replay makes the
stage longer (R26). -/
def readMicrocode (s : State) (n : Nat) : State :=
  let (t, m) := memRead s 8 0 none
  let u := match m with
    | none => t
    | some m => memLost t m true
  let d := addedReplay s u n
  let v := noteReplay s u n
  if d = 0 then v else v.setFrame n { v.frame n with wait := (v.frame n).wait + d }

/-- Frames that wait for a processor, in the order of their dispatch cycles and then of their ports (R148, R152). -/
def procTurn (f : Frame) : Option Nat :=
  match f.stage with
  | .waitProc => some (f.dispatchAt * 64 + f.port)
  | _ => none

/-- R148, R172: dispatch of a frame. -/
def dispatch (s : State) (n : Nat) (rvErr : Bool) : State :=
  if !s.prs.ready then (retireFrame (s.setFrame n { s.frame n with stage := .gone }) n).bump (aPrsCnt 10)
  else
    let t := readMicrocode s n
    let g := { t.frame n with dispatchAt := s.cclk, epoch := s.epoch, rvErr := rvErr }
    match (if t.frames.any (fun x => (procTurn x.2).isSome) then none else freeProc t) with
    | some i => startParse t n i g
    | none => (t.setFrame n { g with stage := .waitProc }).bump (aPrsCnt 8)

/-- R148: byte 63 of no other frame entered PRS before this one's and still waits for its dispatch, nor in the same
cycle at a lower port. -/
def dispatchFirst (s : State) (n : Nat) : Bool :=
  let k (f : Frame) := byteInPrs f 63 * 64 + f.port
  s.frames.all (fun x => x.2.stage != .received || decide (k (s.frame n) ≤ k x.2))

/-- PARSE_DISPATCH. -/
def execParseDispatch (f : Nat) (rvErr : Bool) (s : State) : Result :=
  .next (whenever ((s.frame f).stage == .received && decide (byteInPrs (s.frame f) 63 ≤ s.cclk) && dispatchFirst s f) s
    (dispatch s f rvErr))

/-- No other frame has waited longer for a processor. -/
def waitFirst (s : State) (n : Nat) : Bool :=
  match procTurn (s.frame n) with
  | none => false
  | some k => s.frames.all (fun x => match procTurn x.2 with | some j => decide (k ≤ j) | none => true)

/-- R152: the frame that waits takes the first processor that becomes free. -/
def dispatchWaiting (s : State) (n : Nat) : State :=
  match waitFirst s n, freeProc s with
  | true, some i => startParse s n i (s.frame n)
  | _, _ => s

/-- DISPATCH_WAIT. -/
def execDispatchWait (f : Nat) (s : State) : Result := .next (dispatchWaiting s f)

/-- R155: a parked parse resumes once the byte that it needs has entered PRS. -/
def resumeParse (s : State) (n : Nat) : State :=
  let f := s.frame n
  match f.stage, freeProc s with
  | .parked b, some i =>
    if f.stepsDone < f.parse.reads.length ∧ byteInPrs f b < s.cclk then
      stepFrame s n i s.cclk { f with proc := some i }
    else s
  | _, _ => s

/-- PARSE_RESUME. -/
def execParseResume (f : Nat) (s : State) : Result := .next (resumeParse s f)

/-- R156: the result of a DEEP frame is released 32 cycles after its last byte, its keys 16 cycles later. A wait for a
processor or a replay makes both later. -/
def deepEnds (s : State) (n : Nat) : State :=
  let f := s.frame n
  match f.stage with
  | .parked _ =>
    if f.parse.rv.deep ∧ f.stepsDone = f.parse.reads.length ∧ endInPrs f + 32 ≤ s.cclk then
      parseEnds s n f (endInPrs f + 48 + f.wait)
    else s
  | _ => s

/-- DEEP_PARSE_END. -/
def execDeepParseEnd (f : Nat) (s : State) : Result := .next (deepEnds s f)

/-! ### Arming a capture -/

/-- An accepted write of `PRS_CAPT_CTRL`: ARM = 1 clears DONE. Marks: DEDUCED (log entry 28). -/
def captWrite (s : State) (w : Who) (val : Word) : State :=
  let a := aPrs 0x04C
  let old := s.reg a
  let new := if bit val.toNat 8 then val &&& 0x53F else (val &&& 0x43F) ||| (old &&& 0x200)
  logReg (s.setReg a new) (originOf w.m) a old new false

/-- PRS_CAPT_ARM. -/
def execPrsCaptArm (w : Who) (val : Word) (s : State) : Result :=
  .next (s.write w (aPrs 0x04C) val (captWrite s w val))

end Sys2Proof.Machine
end

