-- ==== Sys2Proof/Machine/TableOps.lean ====
section
/-!
DEFINITION. The forwarding and classification tables, the overlay and the placement of keys
(spec/06_tables_and_learning.md, R176, R180 to R196, R207).
-/
namespace Sys2Proof.Machine
open Sys2Proof

/-- BAR0 offset of a TUE register. -/
def aTue (off : Nat) : Nat := regAddr pTue off

/-- BAR0 offset of counter `k` of Table 6-15. -/
def aTueCnt (k : Nat) : Nat := aTue (0x100 + 8 * k)

/-- R14: the pipeline of a logical port. -/
def pipelineOf (p : Nat) : Nat := portGroup p % 2

/-- BAR0 offset of counter `k` of Table 6-17. -/
def aPlCnt (pl k : Nat) : Nat := regAddr (pPl pl) (0x100 + 8 * k)

/-! ### Entries (R176) -/

/-- Table IDs. -/
def tFDB : Nat := 0
/-- VLAN. -/
def tVLAN : Nat := 1
/-- PORT. -/
def tPORT : Nat := 2
/-- STREAM_ID. -/
def tSID : Nat := 3
/-- MCAST. -/
def tMCAST : Nat := 4
/-- STREAM_FILTER. -/
def tFILTER : Nat := 5
/-- STREAM_GATE. -/
def tGATE : Nat := 6
/-- FLOW_METER. -/
def tMETER : Nat := 7
/-- FW_RULE. -/
def tRULE : Nat := 8
/-- FLOW. -/
def tFLOW : Nat := 9
/-- SEQ_GEN. -/
def tSEQGEN : Nat := 10
/-- SEQ_REC. -/
def tSEQREC : Nat := 11

/-- Entries of a table (Table 6-1), and of GWE's tables (Table 11-9). -/
def tableEntries : Nat → Nat
  | 0 => 65600 | 1 => 4096 | 2 => 52 | 3 => 16384 | 4 => 4096 | 5 => 16384 | 6 => 1024 | 7 => 4096 | 8 => 8192
  | 9 => 65536 | 10 => 2048 | 11 => 2048 | 0x10 => 49152 | 0x11 => 512 | 0x12 => 1024 | 0x13 => 4096 | 0x14 => 8192
  | 0x15 => 64 | 0x16 => 64 | _ => 0

/-- Entry bytes of a table. -/
def entryBytes : Nat → Nat
  | 0 => 16 | 1 => 16 | 2 => 16 | 3 => 32 | 4 => 8 | 5 => 16 | 6 => 256 | 7 => 16 | 8 => 64 | 9 => 64 | 10 => 8
  | 11 => 16 | 0x10 => 4 | 0x11 => 4 | 0x12 => 16 | 0x13 => 16 | 0x14 => 16 | 0x15 => 32 | 0x16 => 16 | _ => 0

/-- Key of an entry in `Tables.ent`. -/
def entKey (t i : Nat) : Nat := t * 2 ^ 20 + i

/-- What an unlisted entry reads as: zeros (R33). Marks: DESIGN CHOICE (log entry 64). -/
def entZero (k : Nat) : List Byte := List.replicate (entryBytes (k / 2 ^ 20)) 0

/-- An entry of the main table. -/
def State.mainEnt (s : State) (t i : Nat) : List Byte := Tab.get entZero s.tables.ent (entKey t i)

/-- The state with an entry of the main table written, in both copies (R183). -/
def State.setEnt (s : State) (t i : Nat) (v : List Byte) : State :=
  { s with tables := { s.tables with ent := Tab.set entZero s.tables.ent (entKey t i) v } }

/-! ### Overlay (R190 to R196) -/

/-- The record that names a location. -/
def State.ovlAt (s : State) (t i : Nat) : Option Overlay :=
  s.tables.ovl.find? (fun o => o.table == t && o.index == i)

/-- The state with the record of a location replaced, or put in. -/
def State.setOvl (s : State) (o : Overlay) : State :=
  { s with tables := { s.tables with
      ovl := if (s.ovlAt o.table o.index).isSome
        then s.tables.ovl.map (fun x => if x.table == o.table && x.index == o.index then o else x)
        else s.tables.ovl ++ [o] } }

/-- The state without the record of a location. -/
def State.dropOvl (s : State) (t i : Nat) : State :=
  { s with tables := { s.tables with ovl := s.tables.ovl.filter (fun o => !(o.table == t && o.index == i)) } }

/-- A record of the pipelines' overlay, not of GWE's. -/
def isTueRec (o : Overlay) : Bool := decide (o.table < 16)

/-- OVL_USED. -/
def ovlUsed (s : State) : Nat := (s.tables.ovl.filter isTueRec).length

/-- The value of a location for a frame of epoch `e`, and whether a SWAPPED record supplied it (R192). -/
def entAt2 (s : State) (e t i : Nat) : List Byte × Bool :=
  let main := s.mainEnt t i
  match s.ovlAt t i with
  | none => (main, false)
  | some o =>
    match o.st with
    | .live tag => (if epochNewer e tag then o.val else main, false)
    | .swapped tag => if epochNewer e tag then (main, false) else (o.val, true)
    | .pending => (main, false)
    | .armed _ => (main, false)

/-- R192. -/
def State.entAt (s : State) (e t i : Nat) : List Byte := (entAt2 s e t i).1

/-- A write by hardware to the entry that a frame of epoch `e` reads (R209, R210). -/
def State.hwSet (s : State) (e t i : Nat) (v : List Byte) : State :=
  match s.ovlAt t i with
  | some o =>
    match o.st with
    | .live tag => if epochNewer e tag then s.setOvl { o with val := v } else s.setEnt t i v
    | .swapped tag => if epochNewer e tag then s.setEnt t i v else s.setOvl { o with val := v }
    | .pending => s.setEnt t i v
    | .armed _ => s.setEnt t i v
  | none => s.setEnt t i v

/-- A record whose value awaits a commit point. -/
def isStaged (o : Overlay) : Bool :=
  match o.st with
  | .pending => true | .armed _ => true | .live _ => false | .swapped _ => false

/-- The value before a staged write, for its Silt entry: the pending one, else the one in effect. -/
def entBefore (s : State) (t i : Nat) : List Byte :=
  match s.ovlAt t i with
  | some o => if o.st = .pending then o.val else s.entAt s.epoch t i
  | none => s.entAt s.epoch t i

/-! ### Keys and hashes (R180, R207) -/

/-- FDB key of a VID and a MAC address. -/
def fdbKey (vid mac : Nat) : List Byte := beBytes 2 (vid % 2 ^ 12) ++ beBytes 6 mac

/-- Fields of an FDB entry (Table 6-4): VALID. -/
def fdbValid (v : List Byte) : Bool := bit (leAt v 6 2) 12
/-- LOCK. -/
def fdbLock (v : List Byte) : Bool := bit (leAt v 6 2) 13
/-- LEARNED. -/
def fdbLearned (v : List Byte) : Bool := bit (leAt v 6 2) 14
/-- VID. -/
def fdbVid (v : List Byte) : Nat := bits (leAt v 6 2) 0 12
/-- DEST. -/
def fdbDest (v : List Byte) : Nat := bits (leAt v 8 2) 0 12
/-- MC. -/
def fdbMc (v : List Byte) : Bool := bit (leAt v 8 2) 15
/-- AGE. -/
def fdbAge (v : List Byte) : Nat := bits (byteAt v 10) 0 2
/-- DA_ACT. -/
def fdbDaAct (v : List Byte) : Nat := bits (byteAt v 11) 0 2
/-- SA_DISCARD. -/
def fdbSaDiscard (v : List Byte) : Bool := bit (byteAt v 11) 2
/-- LTIME. -/
def fdbLtime (v : List Byte) : Nat := leAt v 12 4

/-- VALID of an entry of a hashed table. -/
def hashValid (t : Nat) (v : List Byte) : Bool := if t = tFDB then fdbValid v else bit (byteAt v 0) 7

/-- STREAM_ID key of 24 bytes: VALID taken as 0 (R207). -/
def sidKey (v : List Byte) : List Byte := b8 (byteAt v 0 % 128) :: slice v 1 23

/-- Key of an entry of a hashed table. -/
def hashKey (t : Nat) (v : List Byte) : List Byte :=
  if t = tFDB then fdbKey (fdbVid v) (beAt v 0 6) else sidKey v

/-- H0 and H1 of a key. -/
def hashes (s : State) (t : Nat) (k : List Byte) : Nat × Nat :=
  let n := if t = tFDB then 13 else 11
  let seed := (s.reg (aTue 0x048)).toNat
  (bits (crc32c k ^^^ bits seed 0 13) 0 n, bits (crc32 k ^^^ bits seed 16 13) 0 n)

/-- First index of T1. -/
def t1Base (t : Nat) : Nat := if t = tFDB then 32768 else 8192

/-- First stash slot of the FDB. -/
def stashBase : Nat := 65536

/-- The 8 home locations of a key, T0 ways first. -/
def homes (s : State) (t : Nat) (k : List Byte) : List Nat :=
  let (h0, h1) := hashes s t k
  (List.range 4).map (fun w => 4 * h0 + w) ++ (List.range 4).map (fun w => t1Base t + 4 * h1 + w)

/-- The stash slots. -/
def stashSlots (t : Nat) : List Nat := if t = tFDB then (List.range 64).map (fun i => stashBase + i) else []

/-- R181: the location of a key as a frame of epoch `e` sees it. -/
def findKey (s : State) (e t : Nat) (k : List Byte) : Option Nat :=
  (homes s t k ++ stashSlots t).find? (fun i =>
    hashValid t (s.entAt e t i) && hashKey t (s.entAt e t i) == k)

/-- R181 in the main table, which the keeper changes. -/
def findMain (s : State) (t : Nat) (k : List Byte) : Option Nat :=
  (homes s t k ++ stashSlots t).find? (fun i => hashValid t (s.mainEnt t i) && hashKey t (s.mainEnt t i) == k)

/-! ### Placement (R182, R183) -/

/-- A free location. Marks: DEDUCED (log entry 29). -/
def locFree (s : State) (t i : Nat) : Bool := (s.ovlAt t i).isNone && !hashValid t (s.mainEnt t i)

/-- A location whose entry can move. Marks: DEDUCED (log entry 29). -/
def locMovable (s : State) (t i : Nat) : Bool :=
  (s.ovlAt t i).isNone && hashValid t (s.mainEnt t i) && !(t == tFDB && fdbLock (s.mainEnt t i))

/-- The four ways that the entry at a location can move to. -/
def otherWays (s : State) (t i : Nat) : List Nat :=
  let (h0, h1) := hashes s t (hashKey t (s.mainEnt t i))
  if i < t1Base t then (List.range 4).map (fun w => t1Base t + 4 * h1 + w) else (List.range 4).map (fun w => 4 * h0 + w)

/-- Step 3 of R182, breadth-first. A path lists the locations it moves, the last one first. -/
def searchPath (s : State) (t : Nat) : Nat → List (List Nat) → List Nat → Option (List Nat × Nat)
  | 0, _, _ => none
  | _ + 1, [], _ => none
  | n + 1, [] :: rest, seen => searchPath s t n rest seen
  | n + 1, (loc :: path) :: rest, seen =>
    if !locMovable s t loc then searchPath s t n rest seen
    else
      let ways := otherWays s t loc
      match ways.find? (locFree s t) with
      | some f => some (loc :: path, f)
      | none =>
        if path.length < 3 then
          let new := ways.filter (fun j => !seen.contains j)
          searchPath s t n (rest ++ new.map (fun j => j :: loc :: path)) (seen ++ new)
        else searchPath s t n rest seen

/-- R183: the writes of a path, in order: source (none is the new key) and destination. -/
def pathWrites : List Nat → Nat → List (Option Nat × Nat)
  | [], f => [(none, f)]
  | x :: rest, f => (some x, f) :: pathWrites rest x

/-- R182: where a new key goes, as the writes of R183; none when there is no location. -/
def placeKey (s : State) (t : Nat) (k : List Byte) : Option (List (Option Nat × Nat)) :=
  let home := homes s t k
  match home.find? (locFree s t) with
  | some i => some [(none, i)]
  | none =>
    match searchPath s t 700 (home.map (fun i => [i])) home with
    | some (path, f) => some (pathWrites path f)
    | none => ((stashSlots t).find? (locFree s t)).map (fun i => [(none, i)])

/-! ### Dynamic writes of the FDB -/

/-- STASH_USED. -/
def stashUsed (s : State) : Nat := ((stashSlots tFDB).filter (fun i => fdbValid (s.mainEnt tFDB i))).length

/-- Hit bit of a location in a pipeline. -/
def hitBit (s : State) (pl i : Nat) : Bool := Tab.get (fun _ => false) s.tables.hit (2 * i + pl)

/-- The state with a hit bit changed. -/
def setHit (s : State) (pl i : Nat) (b : Bool) : State :=
  { s with tables := { s.tables with hit := Tab.set (fun _ => false) s.tables.hit (2 * i + pl) b } }

/-- Hit bits of both pipelines follow an entry that moves. Marks: DEDUCED (log entry 29). -/
def moveHits (s : State) (src dst : Nat) : State :=
  let t := setHit (setHit s 0 dst (hitBit s 0 src)) 1 dst (hitBit s 1 src)
  setHit (setHit t 0 src false) 1 src false

/-- A dynamic write of an FDB location, with the stash figures of R182. -/
def writeFdb (s : State) (i : Nat) (v : List Byte) : State :=
  let fresh := decide (stashBase ≤ i) && fdbValid v && !fdbValid (s.mainEnt tFDB i)
  let t := s.setEnt tFDB i v
  if fresh then
    let u := t.bump (aTueCnt 9)
    if stashUsed u = 64 then u.raise pTue 3 else u
  else t

/-- One write of a path: a move, or the new entry. -/
def pathWrite (new : List Byte) (s : State) (w : Option Nat × Nat) : State :=
  match w.1 with
  | some src => (moveHits (writeFdb s w.2 (s.mainEnt tFDB src)) src w.2).bump (aTueCnt 10)
  | none => writeFdb s w.2 new

/-- R185: a freed bucket way takes the lowest stash entry that hashes to its bucket. -/
def stashReinsert (s : State) (i : Nat) : State :=
  if stashBase ≤ i ∨ (s.ovlAt tFDB i).isSome then s
  else
    match (stashSlots tFDB).find? (fun j => locMovable s tFDB j && (homes s tFDB (hashKey tFDB (s.mainEnt tFDB j))).contains i) with
    | none => s
    | some j => (moveHits (s.setEnt tFDB i (s.mainEnt tFDB j)) j i).setEnt tFDB j (entZero 0)

/-- A location is freed: the entry goes, and a stash entry may take its place. -/
def freeFdb (s : State) (i : Nat) : State :=
  stashReinsert (setHit (setHit (s.setEnt tFDB i (entZero 0)) 0 i false) 1 i false) i

/-! ### Staging (R187, R190, R191) -/

/-- What a staged operation is told: OK, or RETRY or OVERLAY_FULL with nothing staged. -/
def stageCheck (s : State) (t : Nat) (ops : List (Nat × List Byte)) (cap : Nat) : Nat :=
  let blocked := ops.any (fun o => match s.ovlAt t o.1 with | some r => r.st != .pending | none => false)
  let fresh := (ops.filter (fun o => (s.ovlAt t o.1).isNone)).length
  if blocked then 0x04 else if cap < fresh then 0x03 else 0x00

/-- R75, R188: one TABLE entry of the Silt Log. -/
def siltTable (s : State) (origin t i : Nat) (old new : List Byte) : State :=
  s.silt_ (w32 (crc32 old)) (w32 (crc32 new)) origin 4 t i

/-- R190: one location is staged and logged. -/
def stageOne (origin t : Nat) (s : State) (o : Nat × List Byte) : State :=
  let old := entBefore s t o.1
  siltTable (s.setOvl { table := t, index := o.1, val := o.2, st := .pending }) origin t o.1 old o.2

/-- Table 6-13: OVL_USED has reached the level of OVL_HIGH. -/
def checkOvl (s : State) : State := if s.fld (aTue 0x068) 0 11 ≤ ovlUsed s then s.raise pTue 2 else s

/-- Stage the locations of one operation; the status. -/
def stageOps (s : State) (origin t : Nat) (ops : List (Nat × List Byte)) : State × Nat :=
  let st := stageCheck s t ops (1024 - ovlUsed s)
  if st = 0 then (checkOvl (ops.foldl (stageOne origin t) s), 0) else (s, st)

/-! ### Reserved encodings (R187, R584) -/

/-- A field of an entry with VALID = 1 that R187 refuses. -/
def badEntry (t : Nat) (v : List Byte) : Bool :=
  match t with
  | 0 => fdbValid v && (fdbDaAct v == 3 || (!fdbMc v && decide (51 < fdbDest v)) || (fdbMc v && decide (4095 < fdbDest v)))
  | 2 => bits (byteAt v 2) 2 2 == 3
  | 3 => bit (byteAt v 0) 7 && !(decide (1 ≤ bits (byteAt v 0) 0 3 ∧ bits (byteAt v 0) 0 3 ≤ 4))
  | 6 => bit (byteAt v 0) 0 && bits (byteAt v 1) 0 5 == 0
  | 7 => bit (byteAt v 0) 0 && (leAt v 4 4 == 0 || decide (100000000 < leAt v 4 4))
  | 8 => bit (byteAt v 0) 0 &&
      (bits (leAt v 62 2) 0 2 == 3 || decide (128 < byteAt v 48) || decide (128 < byteAt v 49)
        || decide (leAt v 52 2 < leAt v 50 2) || decide (leAt v 56 2 < leAt v 54 2))
  | 0x12 => bit (byteAt v 8) 7 && decide (11 < bits (byteAt v 9) 0 4)
  | 0x13 => bit (byteAt v 0) 0 && (decide (8 < bits (byteAt v 1) 0 4) || decide (2048 < bits (leAt v 6 2) 0 12))
  | 0x14 => bits (byteAt v 0) 0 2 == 0 || decide (4 < bits (byteAt v 2) 0 3)
      || (bits (byteAt v 0) 0 2 == 1 && decide (23 < bits (byteAt v 1) 0 6))
      || (bits (byteAt v 0) 0 2 == 2 && decide (7 < bits (byteAt v 1) 0 6))
  | 11 => bit (byteAt v 0) 0 && (decide (bits (byteAt v 1) 0 6 < 2 ∨ 32 < bits (byteAt v 1) 0 6) || leAt v 2 2 == 0)
  | _ => false

/-! ### Records at and after a commit point -/

/-- R210: a committed function starts with its hardware state reset. -/
def resetHw (t : Nat) (v : List Byte) : List Byte :=
  if t = tSEQGEN then putBytes v 0 [0, 0]
  else if t = tSEQREC then putBytes (putBytes v 4 [0, 0]) 8 (List.replicate 8 0) else v

/-- R231: what a commit does to the state of a filter, gate or meter. -/
def commitPolicing (s : State) (o : Overlay) (cycle : Nat) : State :=
  let p := s.policing
  if o.table = tFILTER then { s with policing := { p with filtBlk := Tab.set (fun _ => false) p.filtBlk o.index false } }
  else if o.table = tGATE then { s with policing := { p with gateBlk := Tab.set (fun _ => false) p.gateBlk o.index false } }
  else if o.table = tMETER then
    let m := Tab.get (fun _ => ({} : Meter)) p.meter o.index
    let cbs := bits (leAt o.val 8 4) 0 24 * 2 ^ 24
    let was := bit (byteAt (s.mainEnt tMETER o.index) 0) 0
    let m' : Meter := if bit (byteAt o.val 0) 0 && !was then { level := cbs, at_ := cycle, blocked := false }
      else { m with level := min m.level cbs, blocked := false }
    { s with policing := { p with meter := Tab.set (fun _ => {}) p.meter o.index m' } }
  else s

/-- Table 6-9: one record of a commit part becomes LIVE with the new epoch as its tag. -/
def recordLive (epoch : Nat) (s : State) (o : Overlay) : State :=
  (commitPolicing s o s.cclk).setOvl { o with val := resetHw o.table o.val, st := .live epoch, liveAt := s.cclk }

/-- The records of a commit part go LIVE. -/
def recordsLive (s : State) (part epoch : Nat) : State :=
  (s.tables.ovl.filter (fun o => o.st == .armed part)).foldl (recordLive epoch) s

/-- Table 6-9: PENDING records join a commit part. -/
def armRecords (s : State) (part : Nat) : State :=
  { s with tables := { s.tables with
      ovl := s.tables.ovl.map (fun o => if o.st = .pending then { o with st := .armed part } else o) } }

/-- Table 6-9: the records of a refused part are PENDING again. -/
def unarmRecords (s : State) (part : Nat) : State :=
  { s with tables := { s.tables with
      ovl := s.tables.ovl.map (fun o => if o.st = .armed part then { o with st := .pending } else o) } }

/-- Table 6-9: DISCARD frees the PENDING records. -/
def discardRecords (s : State) : State :=
  { s with tables := { s.tables with ovl := s.tables.ovl.filter (fun o => o.st != .pending) } }

/-- A record carries an entry that moves from another location (R183). -/
def isMove (s : State) (o : Overlay) : Bool :=
  (o.table == tFDB || o.table == tSID) && hashValid o.table o.val &&
  s.tables.ovl.any (fun x => x.table == o.table && x.index != o.index &&
    (match x.st with
     | .live _ => hashValid o.table (s.mainEnt o.table x.index) && hashKey o.table (s.mainEnt o.table x.index) == hashKey o.table o.val
     | .swapped _ => hashValid o.table x.val && hashKey o.table x.val == hashKey o.table o.val
     | .pending => false
     | .armed _ => false))

/-- The oldest epoch of a list, on the ring. -/
def oldestOf (now : Nat) (l : List Nat) : Nat := l.foldl (fun m e => if epochNewer m e then e else m) now

/-- A frame has been dispatched and awaits its lookup. -/
def awaitsLookup (f : Frame) : Bool :=
  match f.stage with
  | .waitProc => true | .parked _ => true | .parsed => true
  | .gone => false | .received => false | .looked => false | .decided => false

/-- R194: `TUE_EPOCH_OLDEST.LOOKUP`. -/
def oldestLookup (s : State) : Nat := oldestOf s.epoch ((s.frames.filter (fun x => awaitsLookup x.2)).map (fun x => x.2.epoch))

/-- R194: `TUE_EPOCH_OLDEST.OLDEST`. -/
def oldestInside (s : State) : Nat :=
  oldestOf s.epoch ((s.frames.filter (fun x => x.2.stage != .gone && x.2.stage != .received)).map (fun x => x.2.epoch))

/-- `GWE_EPOCH_OLDEST`: the oldest epoch in the gateway's queue or route stage. -/
def oldestGwe (s : State) : Nat :=
  oldestOf s.epoch (s.gwe.inq.map (fun m => m.epoch)
    ++ s.gwe.routed.map (fun r => r.2.epoch))

/-- The epoch that frees SWAPPED records of a table (R194, R360). -/
def oldestFor (s : State) (t : Nat) : Nat := if t < 16 then oldestLookup s else oldestGwe s

end Sys2Proof.Machine
end

