-- ==== Sys2Proof/Machine/Lookup.lean ====
section
/-!
DEFINITION. The lookup stage of a pipeline (spec/06_tables_and_learning.md, R177 to R181, R192, R198, R199, R207 to
R213).
-/
namespace Sys2Proof.Machine
open Sys2Proof

/-! ### The tag that classifies (R178) -/

/-- TAG0 carries the VID: its TPID index is VTPID and its VID is not 0. -/
def vidTagged (port : List Byte) (k : Keys) : Option Nat :=
  match k.tag0 with
  | some (tci, idx) =>
    if idx = bits (byteAt port 2) 0 2 ∧ bits tci 0 12 ≠ 0 then some (bits tci 0 12) else none
  | none => none

/-- R178: the ingress VID. -/
def ingressVid (port : List Byte) (k : Keys) : Nat :=
  match vidTagged port k with
  | some v => v
  | none => bits (leAt port 0 2) 0 12

/-- PCP of TAG0, or DEF_PCP. Marks: DEDUCED (log entry 30). -/
def framePcp (port : List Byte) (k : Keys) : Nat :=
  match k.tag0 with
  | some (tci, _) => bits tci 13 3
  | none => bits (leAt port 0 2) 12 3

/-- R178: the frame is dropped for its VLAN. Marks: DEDUCED (log entry 30). -/
def vlanDrops (port vlan : List Byte) (k : Keys) (vid p : Nat) : Bool :=
  let acc := bits (byteAt port 2) 2 2
  vid == 0 || !bit (byteAt vlan 15) 0 || !bit (leAt vlan 0 7) p
  || (acc == 1 && (vidTagged port k).isNone) || (acc == 2 && (vidTagged port k).isSome)

/-! ### The forwarding set (R179) -/

/-- What the DA gives. -/
inductive DaResult where
  /-- dropped by DA_ACT = 1 -/
  | discard
  /-- the set before members and the ingress port are applied, and whether an individual DA missed -/
  | ports (set : Nat) (miss : Bool)
deriving DecidableEq, Repr

/-- R179: the FDB's answer for a DA. -/
def daLookup (s : State) (e : Nat) (port vlan : List Byte) (vid da : Nat) : DaResult :=
  let group := bit da 40
  match findKey s e tFDB (fdbKey vid da) with
  | some i =>
    let v := s.entAt e tFDB i
    if fdbDaAct v = 1 then .discard
    else
      let g := s.entAt e tMCAST (fdbDest v)
      let set := if fdbMc v then (if bit (leAt g 0 8) 63 then leAt g 0 8 % 2 ^ 52 else 0) else 2 ^ fdbDest v
      .ports (if fdbDaAct v = 2 then set ||| 2 ^ 51 else set) false
  | none =>
    let flood := bit (byteAt port 2) (if group then 6 else 5)
    .ports (if flood then leAt vlan 0 7 % 2 ^ 52 else 0) (!group)

/-- R179: in every case only members of the VLAN other than the ingress port are left. -/
def finalSet (vlan : List Byte) (p set : Nat) : Nat :=
  let m := set &&& (leAt vlan 0 7 % 2 ^ 52)
  if bit m p then m - 2 ^ p else m

/-! ### Streams (R207, R208) -/

/-- The key of a method for a frame. -/
def sidKeyOf (m vid : Nat) (k : Keys) : List Byte :=
  let ip4 := m == 4
  [b8 m, 0] ++ leBytes 2 vid ++ beBytes 6 (if m = 2 then k.sa else k.da)
    ++ (if ip4 then beBytes 4 k.ip.src else leBytes 4 0) ++ (if ip4 then beBytes 4 k.ip.dst else leBytes 4 0)
    ++ (if ip4 then [b8 k.ip.dscp, b8 k.ip.proto] ++ leBytes 2 k.ip.sport ++ leBytes 2 k.ip.dport else leBytes 6 0)

/-- R208: the STREAM_ID entry of a frame. -/
def streamEntry (s : State) (e : Nat) (port : List Byte) (vid : Nat) (k : Keys) : Option (List Byte) :=
  [4, 2, 3, 1].findSome? (fun m =>
    if !bit (byteAt port 3) (m - 1) || (m == 4 && (k.ip.l3t != 1 || !k.ip.l4v)) then none
    else (findKey s e tSID (sidKeyOf m vid k)).map (fun i => s.entAt e tSID i))

/-! ### Sequence functions (R209, R210) -/

/-- R209: the sequence number that a stream's SEQGEN gives. -/
def seqGenerate (s : State) (e : Nat) (sid : List Byte) : State × Option Nat :=
  let v := leAt sid 26 2
  let i := bits v 0 11
  let g := s.entAt e tSEQGEN i
  if !bit v 15 || !bit (byteAt g 2) 0 then (s, none)
  else (s.hwSet e tSEQGEN i (putBytes g 0 (leBytes 2 (leAt g 0 2 + 1))), some (leAt g 0 2))

/-- The SEQ_REC entry after the recovery algorithm, and whether the frame passes. HIST_BITS = 0 stands for TakeAny:
after any accepted frame its bit 0 is 1. `stale` is the expiry of RESET_MS. -/
def recover (r : List Byte) (stale : Bool) (now : Nat) (seq : Option Nat) : List Byte × Bool :=
  let hist := if stale then 0 else leAt r 8 4
  let last := leAt r 4 2
  let n := bits (byteAt r 1) 0 6
  let upd (recov h : Nat) : List Byte := putBytes (putBytes r 4 (leBytes 2 recov)) 8 (leBytes 4 h ++ leBytes 4 now)
  match seq with
  | none => if bit (byteAt r 0) 1 then (upd last hist, true) else (putBytes r 8 (leBytes 4 hist), false)
  | some q =>
    if hist = 0 then (upd q 1, true)
    else
      let d := signed 16 ((q + 2 ^ 16 - last) % 2 ^ 16)
      if (n : Int) ≤ d ∨ d ≤ -(n : Int) then (r, false)
      else if d ≤ 0 then
        if bit hist d.natAbs then (r, false) else (upd last (hist ||| 2 ^ d.natAbs), true)
      else (upd q ((hist * 2 ^ d.natAbs + 1) % 2 ^ 32), true)

/-- RESET_MS of a recovery function has passed since the last frame that it passed. -/
def seqStale (s : State) (i : Nat) (r : List Byte) : Bool :=
  decide ((leAt r 2 2 * 1000000 : Nat) ≤ (s.cclk : Int) - Tab.get (fun _ => 0) s.tables.seqLast i)

/-- R209: vector recovery of a stream; false when the frame is discarded. Marks: DEDUCED (log entry 30). -/
def seqRecover (s : State) (e : Nat) (sid : List Byte) (k : Keys) : State × Bool :=
  let v := leAt sid 28 2
  let i := bits v 0 11
  let r := s.entAt e tSEQREC i
  if !bit v 15 || !bit (byteAt r 0) 0 then (s, true)
  else
    let stale := seqStale s i r
    let (r', ok) := recover r stale s.cclk k.rtag
    let t := s.hwSet e tSEQREC i r'
    if ok then
      ({ t with tables := { t.tables with seqLast := Tab.set (fun _ => 0) t.tables.seqLast i (s.cclk : Int) } }, true)
    else (t, false)

/-! ### Learn events (R198, R199) -/

/-- Learn filter of a pipeline. -/
def State.learnFilter (s : State) (pl : Nat) : List LearnEvt := if pl = 0 then s.tables.filt0 else s.tables.filt1

/-- The state with a learn filter changed. -/
def State.setLearnFilter (s : State) (pl : Nat) (l : List LearnEvt) : State :=
  { s with tables := if pl = 0 then { s.tables with filt0 := l } else { s.tables with filt1 := l } }

/-- Two events name the same key and port. -/
def sameEvent (a b : LearnEvt) : Bool := a.vid == b.vid && a.sa == b.sa && a.port == b.port

/-- R199: an event offered to the filter of a pipeline. -/
def offerEvent (s : State) (pl : Nat) (e : LearnEvt) : State :=
  let s := s.bump (aPlCnt pl 4)
  let l := s.learnFilter pl
  if (l ++ s.tables.queue).any (sameEvent e) then s.bump (aPlCnt pl 5)
  else if 256 ≤ l.length then s.bump (aTueCnt 3)
  else s.setLearnFilter pl (l ++ [e])

/-- R198: what the SA of frame `n` does. -/
def learnFrom (s : State) (n : Nat) (f : Frame) (port vlan : List Byte) (vid : Nat) : State :=
  let pl := pipelineOf f.port
  let k := f.parse.keys
  let may := k.sa != 0 && !bit k.sa 40 && bit (byteAt port 2) 4 && bit (byteAt vlan 15) 1
    && !bit (s.pair (aTue 0x060)) f.port && !f.parse.rv.trunc && !f.parse.rv.mal
  let offer :=
    if may then offerEvent s pl { vid := vid, sa := k.sa, port := f.port, t := f.rx, frame := n, endAt := endInPrs f }
    else s
  match findKey s f.epoch tFDB (fdbKey vid k.sa) with
  | none => offer
  | some i =>
    let v := s.entAt f.epoch tFDB i
    if fdbDest v = f.port ∧ !fdbMc v then (if fdbLock v then s else setHit s pl i true) else offer

/-! ### Parity (R211, R212) -/

/-- R211, R212: an entry of the per-pipeline tables or of the overlay that fails in both copies is invalid. Which entry
the failing word belongs to is open. Marks: DEDUCED (log entry 29). -/
def loseEntry (s : State) : State :=
  let l := s.tables.ent.filter (fun x => decide (x.1 / 2 ^ 20 ≤ tRULE))
  let r := s.tables.ovl.filter isTueRec
  let k := Config.freeNat s.free % (l.length + r.length)
  match l[k]?, r[k - l.length]? with
  | some x, _ => ({ s with tables := { s.tables with ent := Tab.erase s.tables.ent x.1 } }).tick1
  | none, some o => (s.setOvl { o with val := entZero (entKey o.table 0) }).tick1
  | none, none => s.tick1

/-- R211, R212: the words that a lookup reads; true when a word was lost in both copies. -/
def readTables (s : State) (pl : Nat) : State × Bool :=
  match memRead s 1 pl none with
  | (t, none) => (t, false)
  | (t, some m) =>
    match memRead t 1 (1 - pl) (some m.addr) with
    | (u, none) =>
      let u := (u.bump (aPlCnt pl 6)).setReg (regAddr (pPl pl) 0x044) (w32 (Config.freeNat u.free % 2 ^ 29))
      (((memRepeated u.tick1 1 true).raise (pPl pl) 0).report 0x02 (memUnit 1 pl) (memDetail m) true, false)
    | (u, some _) =>
      let u := loseEntry ((memRepeated u 1 false).bump (aPlCnt pl 7))
      (((u.raise (pPl pl) 1).raise pTue 4).report 0x03 (memUnit 1 pl) (memDetail m) true, true)

/-- The hardware state of a sequence function is reset, in the main entry and in the record that holds its value. -/
def seqReset (s : State) (t i : Nat) : State :=
  let u := s.setEnt t i (resetHw t (s.mainEnt t i))
  match u.ovlAt t i with
  | some o => if isStaged o then u else u.setOvl { o with val := resetHw t o.val }
  | none => u

/-- R213: a sequence word that fails twice resets its function's hardware state. -/
def seqLost (s : State) (pl t i : Nat) (m : InjMark) : State := (seqReset (memLost s m false) t i).bump (aPlCnt pl 7)

/-- R213: the word of a sequence function is read. -/
def readSequence (s : State) (pl t i : Nat) : State :=
  match memRead s 9 0 none with
  | (u, none) => u
  | (u, some m) => seqLost u pl t i m

/-! ### The stage -/

/-- A dropped frame has a result, too: it goes to the policy stage with an empty set. -/
def lookDrop (s : State) (n : Nat) (f : Frame) : State := s.setFrame n { f with stage := .looked, dropped := true, set := 0 }

/-- Result of a lookup: stream functions, then the set. -/
def lookResult (s : State) (n : Nat) (f : Frame) (port : List Byte) (vid set untag : Nat) : State :=
  let pl := pipelineOf f.port
  match streamEntry s f.epoch port vid f.parse.keys with
  | none => s.setFrame n { f with stage := .looked, set := set, untag := untag }
  | some sid =>
    let s0 := s
    let s := readSequence (readSequence s pl tSEQGEN (bits (leAt sid 26 2) 0 11)) pl tSEQREC (bits (leAt sid 28 2) 0 11)
    let d := addedReplay s0 s n
    let f := { f with replay := f.replay + d, replayed := f.replayed || metParity s0 s, lookedAt := f.lookedAt + d }
    let s := noteReplay s0 s n
    let (t, q) := seqGenerate s f.epoch sid
    let (t, ok) := seqRecover t f.epoch sid f.parse.keys
    let g := { f with stage := .looked, handle := some (bits (leAt sid 24 2) 0 14), seqTag := q, set := set, untag := untag }
    if ok then t.setFrame n g else lookDrop (t.bump (aPlCnt pl 9)) n g

/-- R179 after the VLAN checks. Marks: DEDUCED (log entry 30). -/
def lookDa (s : State) (n : Nat) (f : Frame) (port vlan : List Byte) (vid : Nat) : State :=
  let pl := pipelineOf f.port
  let k := f.parse.keys
  let sa := (findKey s f.epoch tFDB (fdbKey vid k.sa)).map (fun i => s.entAt f.epoch tFDB i)
  match daLookup s f.epoch port vlan vid k.da with
  | .discard => lookDrop s n f
  | .ports set miss =>
    let s := if miss then s.bump (aPlCnt pl 1) else s
    let out := finalSet vlan f.port set
    if (match sa with | some v => fdbSaDiscard v | none => false) then lookDrop s n f
    else if out = 0 then lookDrop (s.bump (aPlCnt pl 3)) n f
    else lookResult s n f port vid out (out &&& (leAt vlan 8 7 % 2 ^ 52))

/-- Some location that the lookup reads gave an old value out of a record (Table 6-17). -/
def readsOld (s : State) (e : Nat) (vid : Nat) (p : Nat) : Bool :=
  (entAt2 s e tPORT p).2 || (entAt2 s e tVLAN vid).2

/-- R177: one lookup, once its words have been read. -/
def lookWith (s : State) (n : Nat) (f : Frame) (lost : Bool) : State :=
  let pl := pipelineOf f.port
  if lost then lookDrop s n f
  else
    match f.named with
    | some p => s.setFrame n { f with stage := .looked, set := 2 ^ p }
    | none =>
      let port := s.entAt f.epoch tPORT f.port
      let vid := ingressVid port f.parse.keys
      let vlan := s.entAt f.epoch tVLAN vid
      let old := readsOld s f.epoch vid f.port
        || ((findKey s f.epoch tFDB (fdbKey vid f.parse.keys.da)).map (fun i => (entAt2 s f.epoch tFDB i).2)).getD false
      let s := if old then s.bump (aPlCnt pl 8) else s
      let f := { f with vid := vid, tc := if f.port < 48 then framePcp port f.parse.keys else f.tc }
      if vlanDrops port vlan f.parse.keys vid f.port then lookDrop (s.bump (aPlCnt pl 2)) n f
      else lookDa (learnFrom s n f port vlan vid) n f port vlan vid

/-- R177, R26: one lookup. A parity replay among its reads makes the stage longer. -/
def lookup (s : State) (n : Nat) : State :=
  let s := release s n
  let t := s.bump (aPlCnt (pipelineOf (s.frame n).port) 0)
  let (u, lost) := readTables t (pipelineOf (s.frame n).port)
  let d := addedReplay s u n
  let v := noteReplay s u n
  lookWith v n { v.frame n with lookedAt := (v.frame n).keysAt + 72 + d } lost

/-- R209, R210: the cycle in which a frame's keys reach its pipeline, PL0's frames before PL1's of the same cycle. -/
def lookTurn (s : State) (n : Nat) (f : Frame) : Option Nat :=
  match f.stage with
  | .parsed => if heldBack s n f then none else some (f.keysAt * 2 + pipelineOf f.port)
  | _ => none

/-- No frame reaches its pipeline before this one and is still to be looked up. -/
def lookFirst (s : State) (n : Nat) : Bool :=
  match lookTurn s n (s.frame n) with
  | none => false
  | some k => s.frames.all (fun x => match lookTurn s x.1 x.2 with | some j => decide (k ≤ j) | none => true)

/-- LOOKUP_STAGE. -/
def execLookupStage (f : Nat) (s : State) : Result :=
  .next (whenever (decide ((s.frame f).keysAt ≤ s.cclk) && lookFirst s f) s (lookup s f))

end Sys2Proof.Machine
end

