-- ==== Sys2Proof/Machine/Tables.lean ====
section
/-!
DEFINITION. The Table Update Engine and the table keeper (spec/06_tables_and_learning.md, R182 to R206, R210).
-/
namespace Sys2Proof.Machine
open Sys2Proof

/-! ### Completions (Table 6-8) -/

/-- What an operation answers: STATUS, INDEX, COUNT and, for READ and SEARCH, the entry returned. -/
structure TueAns where
  status : Nat
  index : Nat := 0xFFFFFFFF
  count : Nat := 0
  out : List Byte := []
deriving DecidableEq, Repr

/-- The state and a status alone. -/
def tueStatus (s : State) (st : Nat) : State × TueAns := (s, { status := st })

/-- Bytes of a completion entry. -/
def tueCompletion (s : State) (d : TueDesc) (a : TueAns) (wrap : Bool) : List Byte :=
  leBytes 2 d.tag ++ [b8 a.status, b8 (d.table % 32 + 128 * b2n wrap)] ++ leBytes 4 a.index ++ leBytes 2 s.epoch
    ++ leBytes 2 (1024 - ovlUsed s) ++ leBytes 4 a.count

/-- A descriptor completes. -/
def tueFinish (h : HostPort) (d : TueDesc) (r : State × TueAns) : State :=
  let s := if r.2.out.isEmpty then r.1 else r.1.emit (.hostWrite h d.addr r.2.out)
  ringComplete (s.bump (aTueCnt 11)) (.tue h) d.int (tueCompletion s d r.2)

/-! ### Refusals (R187) -/

/-- Origin of a host. -/
def hostOrigin (h : HostPort) : Nat := originOf (hostMaster h)

/-- Modes in which a FLUSH or a FLOW delete is refused. -/
def tueModeShut (m : Mode) : Bool :=
  match m with
  | .boot => true | .quarantine => true | .sleepRetain => true | .sleepDeep => true
  | .configure => false | .active => false | .degraded => false | .service => false | .standby => false

/-- Another host owns the TUE page. -/
def tueForeign (s : State) (h : HostPort) : Bool := ownerOf s pTue != 0 && ownerOf s pTue != masterId (hostMaster h)

/-- MODE_DENIED, NOT_OWNER, VALUE_RANGE and SILT_FULL of a change, in the order of R46; 0 when it is accepted.
Marks: DEDUCED (log entry 29). -/
def tueRefusal (s : State) (h : HostPort) (shut bad : Bool) : Nat :=
  if shut then 0x0A else if tueForeign s h then 0x09 else if bad then 0x0D else if siltFull s then 0x0B else 0

/-- A refused change; SILT_FULL counts (R79). Marks: DEDUCED (log entry 23). -/
def tueRefuse (s : State) (st : Nat) : State × TueAns := tueStatus (if st = 0x0B then s.siltRefused else s) st

/-- The form of a descriptor: operation, table, index, length and data. Marks: DEDUCED (log entry 29). -/
def tueForm (s : State) (d : TueDesc) (op : Nat) (tables : List Nat) (byIndex sized fault : Bool) : Nat :=
  if d.op ≠ op ∨ !tables.contains d.table then 0x06
  else if byIndex ∧ tableEntries d.table ≤ d.index then 0x05
  else if sized ∧ d.len ≠ entryBytes d.table then 0x07
  else if fault then 0x08
  else if !s.tables.ready then 0x0A else 0

/-- R186: the ring is enabled and has a descriptor; it is taken and completed. -/
def tueRun (s : State) (h : HostPort) (d : TueDesc) (f : State → State × TueAns) : State :=
  let r := RingId.tue h
  if !ringEn s r || ringPosted s r == 0 then s else tueFinish h d (f (ringTake s r 1))

/-! ### Reads -/

/-- Every table. -/
def allTables : List Nat := List.range 12

/-- The value that READ and SEARCH return (Table 6-6, PENDING). -/
def tueValue (s : State) (pend : Bool) (t i : Nat) : List Byte :=
  match s.ovlAt t i with
  | some o => if pend && isStaged o then o.val else s.entAt s.epoch t i
  | none => s.entAt s.epoch t i

/-- R31, R211, R212: the words that a READ or a SEARCH of a table reads; true when a word was lost.
Marks: DEDUCED (log entry 29). -/
def tueReads (s : State) (t : Nat) : State × Bool := if t ≤ tRULE then readTables s 0 else (s, false)

/-- READ. -/
def tueReadOp (d : TueDesc) (s : State) : State × TueAns :=
  match tueForm s d 1 allTables true true false with
  | 0 =>
    match tueReads s d.table with
    | (t, true) => tueStatus t 0x0C
    | (t, false) => (t, { status := 0, index := d.index, out := tueValue t d.pending d.table d.index })
  | st => tueStatus s st

/-- TUE_READ. -/
def execTueRead (h : HostPort) (d : TueDesc) (s : State) : Result := .next (tueRun s h d (tueReadOp d))

/-- The location of a key, in staged values first when asked. -/
def locateKey (s : State) (staged : Bool) (t : Nat) (k : List Byte) : Option Nat :=
  match (if staged then s.tables.ovl.find? (fun o => o.table == t && isStaged o && hashValid t o.val && hashKey t o.val == k)
         else none) with
  | some o => some o.index
  | none => findKey s s.epoch t k

/-- The key that a descriptor names. Marks: DEDUCED (log entry 29). -/
def descKey (d : TueDesc) (data : List Byte) : List Byte :=
  if d.table = tFDB then fdbKey d.vid d.mac else sidKey data

/-- SEARCH. -/
def tueSearchOp (d : TueDesc) (data : List Byte) (fault : Bool) (s : State) : State × TueAns :=
  match tueForm s d 5 [tFDB, tSID] false true fault with
  | 0 =>
    let k := descKey d data
    let (s, lost) := tueReads s d.table
    if lost then tueStatus s 0x0C else
    match locateKey s d.pending d.table k with
    | none => tueStatus s 0x01
    | some i =>
      let v := tueValue s d.pending d.table i
      if hashValid d.table v && hashKey d.table v == k then (s, { status := 0, index := i, out := v })
      else tueStatus s 0x01
  | st => tueStatus s st

/-- TUE_SEARCH. -/
def execTueSearch (h : HostPort) (d : TueDesc) (data : List Byte) (fault : Bool) (s : State) : Result :=
  .next (tueRun s h d (tueSearchOp d data fault))

/-! ### Staged operations -/

/-- Stage locations of one operation and answer. -/
def tueStage (s : State) (h : HostPort) (t : Nat) (ops : List (Nat × List Byte)) (i count : Nat) : State × TueAns :=
  match stageOps s (hostOrigin h) t ops with
  | (u, 0) => (u, { status := 0, index := i, count := count })
  | (u, st) => tueStatus u st

/-- WRITE. -/
def tueWriteOp (h : HostPort) (d : TueDesc) (data : List Byte) (fault : Bool) (s : State) : State × TueAns :=
  match tueForm s d 2 [tVLAN, tPORT, tMCAST, tFILTER, tGATE, tMETER, tRULE, tSEQGEN, tSEQREC] true true fault with
  | 0 =>
    let v := slice data 0 (entryBytes d.table)
    match tueRefusal s h (rwsClosed s.mode) (badEntry d.table v) with
    | 0 => tueStage s h d.table [(d.index, v)] d.index 0
    | st => tueRefuse s st
  | st => tueStatus s st

/-- TUE_WRITE. -/
def execTueWrite (h : HostPort) (d : TueDesc) (data : List Byte) (fault : Bool) (s : State) : Result :=
  .next (tueRun s h d (tueWriteOp h d data fault))

/-- R190: the locations of an insertion: the moves of R183, each with the value that it takes, then the new entry. -/
def insertOps (s : State) (t : Nat) (v : List Byte) (w : List (Option Nat × Nat)) : List (Nat × List Byte) :=
  w.map (fun x => (x.2, match x.1 with | some src => s.entAt s.epoch t src | none => v))

/-- INSERT with the key of an entry. -/
def tueInsertKey (s : State) (h : HostPort) (t : Nat) (v : List Byte) : State × TueAns :=
  match locateKey s true t (hashKey t v) with
  | some i => tueStage s h t [(i, v)] i 0
  | none =>
    match placeKey s t (hashKey t v) with
    | none => tueStatus s 0x02
    | some w => tueStage s h t (insertOps s t v w) ((w.getLast?.map (fun x => x.2)).getD 0) (w.length - 1)

/-- INSERT. -/
def tueInsertOp (h : HostPort) (d : TueDesc) (data : List Byte) (fault : Bool) (s : State) : State × TueAns :=
  match tueForm s d 3 [tFDB, tSID] false true fault with
  | 0 =>
    let v := slice data 0 (entryBytes d.table)
    match tueRefusal s h (rwsClosed s.mode) (badEntry d.table v) with
    | 0 => tueInsertKey s h d.table v
    | st => tueRefuse s st
  | st => tueStatus s st

/-- TUE_INSERT. -/
def execTueInsert (h : HostPort) (d : TueDesc) (data : List Byte) (fault : Bool) (s : State) : Result :=
  .next (tueRun s h d (tueInsertOp h d data fault))

/-- DELETE by key. -/
def tueDeleteKey (s : State) (h : HostPort) (d : TueDesc) (data : List Byte) : State × TueAns :=
  let k := descKey d data
  match locateKey s true d.table k with
  | none => tueStatus s 0x01
  | some i =>
    let v := entBefore s d.table i
    if hashValid d.table v && hashKey d.table v == k then tueStage s h d.table [(i, entZero (entKey d.table 0))] i 0
    else tueStatus s 0x01

/-- STATE of a flow entry. -/
def flowState (v : List Byte) : Nat := bits (byteAt v 38) 0 3

/-- The state with a flow entry written; the twin is told at the next sync point (R234). -/
def setFlow (s : State) (i : Nat) (v : List Byte) : State :=
  let t := s.setEnt tFLOW i v
  { t with policing := { t.policing with flowDirty := if t.policing.flowDirty.contains i then t.policing.flowDirty
                                                      else t.policing.flowDirty ++ [i] } }

/-- DELETE of a flow, which is not staged. Marks: DEDUCED (log entry 29). -/
def tueDeleteFlow (s : State) (h : HostPort) (i : Nat) : State × TueAns :=
  let v := s.mainEnt tFLOW i
  if flowState v = 0 then tueStatus s 0x01
  else
    (siltTable (setFlow s i (entZero (entKey tFLOW 0))) (hostOrigin h) tFLOW i v (entZero (entKey tFLOW 0)),
     { status := 0, index := i })

/-- DELETE. -/
def tueDeleteOp (h : HostPort) (d : TueDesc) (data : List Byte) (fault : Bool) (s : State) : State × TueAns :=
  match tueForm s d 4 [tFDB, tSID, tFLOW] (d.table == tFLOW) (d.table == tSID) fault with
  | 0 =>
    let flow := d.table == tFLOW
    match tueRefusal s h (if flow then tueModeShut s.mode || s.mode == .standby else rwsClosed s.mode) false with
    | 0 => if flow then tueDeleteFlow s h d.index else tueDeleteKey s h d data
    | st => tueRefuse s st
  | st => tueStatus s st

/-- TUE_DELETE. -/
def execTueDelete (h : HostPort) (d : TueDesc) (data : List Byte) (fault : Bool) (s : State) : Result :=
  .next (tueRun s h d (tueDeleteOp h d data fault))

/-! ### FLUSH -/

/-- PORT, PORT_ANY, UNLOCKED of a FLUSH: bytes 26 and 27 (Table 6-6); `mac` holds byte 26 highest.
Marks: DEDUCED (log entry 29). -/
def flushMatches (d : TueDesc) (v : List Byte) : Bool :=
  let b26 := d.mac / 2 ^ 40 % 256
  let b27 := d.mac / 2 ^ 32 % 256
  fdbValid v && !fdbLock v && (fdbLearned v || bit b27 1)
  && (d.vidAny || fdbVid v == d.vid % 4096)
  && (bit b27 0 || (!fdbMc v && fdbDest v == b26))

/-- FDB locations without a record, ascending, the stash first so that a refill moves nothing out of reach. -/
def fdbLocs (s : State) : List Nat :=
  let l := ((s.tables.ent.filter (fun x => decide (x.1 < 2 ^ 20))).map (fun x => x.1)).filter (fun i => (s.ovlAt tFDB i).isNone)
  l.filter (fun i => decide (stashBase ≤ i)) ++ l.filter (fun i => decide (i < stashBase))

/-- R188: one location is flushed and logged. -/
def flushOne (origin : Nat) (s : State) (i : Nat) : State :=
  siltTable (freeFdb s i) origin tFDB i (s.mainEnt tFDB i) (entZero 0)

/-- FLUSH. Marks: DESIGN CHOICE (log entry 71). -/
def tueFlushOp (h : HostPort) (d : TueDesc) (s : State) : State × TueAns :=
  match tueForm s d 6 [tFDB] false false false with
  | 0 =>
    match tueRefusal s h (tueModeShut s.mode) false with
    | 0 =>
      let l := (fdbLocs s).filter (fun i => flushMatches d (s.mainEnt tFDB i))
      (l.foldl (flushOne (hostOrigin h)) s, { status := 0, count := l.length })
    | st => tueRefuse s st
  | st => tueStatus s st

/-- TUE_FLUSH. -/
def execTueFlush (h : HostPort) (d : TueDesc) (s : State) : Result := .next (tueRun s h d (tueFlushOp h d))

/-! ### The keeper and the overlay (R193, R194) -/

/-- R193: a LIVE record and its main location change places. -/
def copyOut (s : State) (t i : Nat) : State :=
  match s.ovlAt t i with
  | none => s
  | some o =>
    match o.st with
    | .live tag =>
      let s := if isMove s o then s.bump (aTueCnt 10) else s
      let old := s.mainEnt t i
      let u := if t = tFDB then writeFdb s i o.val else s.setEnt t i o.val
      u.setOvl { o with val := old, st := .swapped tag }
    | .pending => s
    | .armed _ => s
    | .swapped _ => s

/-- OVERLAY_COPY_OUT. -/
def execOverlayCopyOut (table index : Nat) (s : State) : Result := .next (copyOut s table index)

/-- R194: a SWAPPED record whose old value no frame needs is freed. -/
def retireRecord (s : State) (t i : Nat) : State :=
  match s.ovlAt t i with
  | none => s
  | some o =>
    match o.st with
    | .swapped tag =>
      if epochNewer (oldestFor s t) tag then
        let u := s.dropOvl t i
        let u := if t < 16 then u.bump (aTueCnt 12) else u
        if t = tFDB ∧ !fdbValid (u.mainEnt tFDB i) then stashReinsert u i else u
      else s
    | .pending => s
    | .armed _ => s
    | .live _ => s

/-- OVERLAY_RETIRE. -/
def execOverlayRetire (table index : Nat) (s : State) : Result := .next (retireRecord s table index)

/-! ### Learning (R199 to R204) -/

/-- The merged queue takes an event (R200). -/
def queueEvent (s : State) (e : LearnEvt) : State :=
  if 4096 ≤ s.tables.queue.length then (s.bump (aTueCnt 3)).raise pTue 1
  else { s with tables := { s.tables with queue := s.tables.queue ++ [e], lqMax := max s.tables.lqMax (s.tables.queue.length + 1) } }

/-- R199: the oldest event of a filter whose frame has passed and ended. -/
def releasable (s : State) (pl : Nat) : Option LearnEvt :=
  (s.learnFilter pl).find? (fun e => e.passed && decide (e.endAt ≤ s.cclk))

/-- R199, R200: an event of a filter is released; one of PL0 that can be released in the same cycle goes first. -/
def releaseEvent (s : State) (pl : Nat) : State :=
  match releasable s pl with
  | none => s
  | some e =>
    if pl = 1 ∧ (releasable s 0).isSome then s
    else queueEvent (s.setLearnFilter pl ((s.learnFilter pl).erase e)) e

/-- LEARN_RELEASE. -/
def execLearnRelease (pl : Nat) (s : State) : Result := ifWf (twoOk pl) (releaseEvent s pl)

/-- A new entry that learning writes. -/
def learnedEntry (e : LearnEvt) : List Byte :=
  beBytes 6 e.sa ++ leBytes 2 (e.vid % 4096 + 2 ^ 12 + 2 ^ 14) ++ leBytes 2 e.port ++ [0, 0] ++ leBytes 4 e.t

/-- The state with the count of a port's moves in the present second. -/
def setMoves (s : State) (p n : Nat) : State :=
  { s with tables := { s.tables with moves := Tab.set (fun _ => 0) s.tables.moves p n } }

/-- R202: bit `p` of a 64-bit TUE register is set. -/
def setPortBit (s : State) (a p : Nat) : State := s.setPair a (s.pair a ||| 2 ^ p)

/-- The port has raised FLAP in the present second. -/
def markFlapped (s : State) (p : Nat) : State :=
  { s with tables := { s.tables with flapped := s.tables.flapped ||| 2 ^ p } }

/-- R202: a port passes FLAP_LIMIT. -/
def portFlaps (s : State) (p : Nat) : State :=
  let t := (setPortBit (markFlapped s p) (aTue 0x058) p).raise pTue 0
  let u := t.report 0x11 (unitId 1 p) [] false
  if u.bitAt (aTue 0x040) 8 && u.twin.role != .standby then setPortBit u (aTue 0x060) p else u

/-- R202: a move of a port is counted, and the port flaps when it passes the limit. -/
def countMove (s : State) (p : Nat) : State :=
  let n := Tab.get (fun _ => 0) s.tables.moves p + 1
  let t := setMoves s p n
  if decide (n ≤ t.fld (aTue 0x040) 16 16) || bit t.tables.flapped p then t else portFlaps t p

/-- An FDB entry with DEST = P and LTIME = t; a move outside the settle window also sets LEARNED and AGE. -/
def movedEntry (v : List Byte) (e : LearnEvt) (full : Bool) : List Byte :=
  let w := putBytes (putBytes v 8 (leBytes 2 e.port)) 12 (leBytes 4 e.t)
  if full then putBytes (putBytes w 6 (leBytes 2 (leAt w 6 2 ||| 2 ^ 14))) 10 [b8 (byteAt w 10 / 4 * 4)] else w

/-- Table 6-10: an event whose key has an entry at location `i`. -/
def learnAt (s : State) (e : LearnEvt) (i : Nat) : State :=
  let v := s.mainEnt tFDB i
  let d := (e.t % 2 ^ 32 + 2 ^ 32 - fdbLtime v) % 2 ^ 32
  let settle := s.fld (aTue 0x040) 0 8 * 1000
  let conflict := s.bump (aTueCnt 2)
  if fdbLock v then s.bump (aTueCnt 5)
  else if fdbDest v = e.port ∧ !fdbMc v then
    (if d < 2 ^ 31 then s.setEnt tFDB i (putBytes v 12 (leBytes 4 e.t)) else s)
  else if 2 ^ 31 ≤ d then conflict
  else if d = 0 then (if e.port < fdbDest v ∧ !fdbMc v then conflict.setEnt tFDB i (movedEntry v e false) else conflict)
  else if d < settle then conflict.setEnt tFDB i (movedEntry v e false)
  else countMove ((s.setEnt tFDB i (movedEntry v e true)).bump (aTueCnt 1)) e.port

/-- Table 6-10: an event whose key has no entry. -/
def learnNew (s : State) (e : LearnEvt) : State :=
  match placeKey s tFDB (fdbKey e.vid e.sa) with
  | none => s.bump (aTueCnt 4)
  | some w => ((w.foldl (pathWrite (learnedEntry e)) s).bump (aTueCnt 0)).bump (aSilt 0x060)

/-- R196: a record holds the key, or the location that has it. -/
def keyHeld (s : State) (k : List Byte) : Bool :=
  s.tables.ovl.any (fun o => o.table == tFDB &&
    ((hashValid tFDB o.val && hashKey tFDB o.val == k) ||
     (hashValid tFDB (s.mainEnt tFDB o.index) && hashKey tFDB (s.mainEnt tFDB o.index) == k)))

/-- R201: the oldest queued event is applied. -/
def applyEvent (s : State) : State :=
  match s.tables.queue with
  | [] => s
  | e :: rest =>
    let s := { s with tables := { s.tables with queue := rest, learnFree := s.cclk + 250 } }
    if keyHeld s (fdbKey e.vid e.sa) then s.bump (aTueCnt 6)
    else
      match findMain s tFDB (fdbKey e.vid e.sa) with
      | some i => learnAt s e i
      | none => learnNew s e

/-- LEARN_APPLY: at most one event in 250 cycles (R200). -/
def execLearnApply (s : State) : Result := .next (whenever (decide (s.tables.learnFree ≤ s.cclk)) s (applyEvent s))

/-- FLAP_INTERVAL_END (R202): the fixed seconds of CCLK. -/
def execFlapIntervalEnd (s : State) : Result :=
  .next (whenever (s.tables.interval != s.cclk / 1000000000) s
    { s with tables := { s.tables with interval := s.cclk / 1000000000, moves := [], flapped := 0 } })

/-- TUE_FROZEN_CLEAR (R202): W1C of one half. -/
def execTueFrozenClear (w : Who) (hi : Bool) (val : Word) (s : State) : Result :=
  let a := aTue (if hi then 0x064 else 0x060)
  .next (s.write w a val (s.setReg a (s.reg a &&& ~~~ val)))

/-! ### Ageing and purges (R205, R206) -/

/-- R213: a hit bit that fails parity twice reads as 1. -/
def readHit (s : State) (pl i : Nat) : State :=
  match memRead s 1 pl none with
  | (t, none) => t
  | (t, some m) => setHit (memLost t m false) pl i true

/-- R205: one location at a sweep. -/
def ageOne (s : State) (i : Nat) : State :=
  let v := s.mainEnt tFDB i
  let s := if fdbValid v && !fdbLock v then readHit (readHit s 0 i) 1 i else s
  if !fdbValid v || fdbLock v then s
  else if hitBit s 0 i || hitBit s 1 i then
    setHit (setHit (s.setEnt tFDB i (putBytes v 10 [b8 (byteAt v 10 / 4 * 4)])) 0 i false) 1 i false
  else if fdbAge v = 3 then freeFdb (s.bump (aTueCnt 7)) i
  else s.setEnt tFDB i (putBytes v 10 [b8 (byteAt v 10 + 1)])

/-- A sweep is due: a quarter of AGE_TIME has passed since the last. -/
def sweepDue (s : State) : Bool :=
  let a := s.fld (aTue 0x044) 0 16
  a != 0 && decide (s.tables.sweptAt + a * 250000000 ≤ s.cclk)

/-- AGEING_SWEEP. -/
def execAgeingSweep (s : State) : Result :=
  .next (whenever (sweepDue s) s
    ((fdbLocs s).foldl ageOne { s with tables := { s.tables with sweptAt := s.cclk } }))

/-- R206: the entries of a port that has left UP. -/
def purgePort (s : State) (p : Nat) : State :=
  let l := (fdbLocs s).filter (fun i =>
    let v := s.mainEnt tFDB i
    fdbValid v && !fdbLock v && !fdbMc v && fdbDest v == p)
  let t := l.foldl (fun t i => freeFdb (t.bump (aTueCnt 8)) i) s
  { t with tables := { t.tables with purge := t.tables.purge - 2 ^ p } }

/-- FDB_PORT_PURGE. -/
def execFdbPortPurge (port : Nat) (s : State) : Result :=
  ifWf (portOk port) (whenever (bit s.tables.purge port) s (purgePort s port))

end Sys2Proof.Machine
end

