-- ==== Sys2Proof/Machine/Firewall.lean ====
section
/-!
DEFINITION. The firewall: zones, the zone matrix, rules and connection tracking
(spec/07_firewall_and_stream_policing.md, R217 to R227, R233, R235).
-/
namespace Sys2Proof.Machine
open Sys2Proof

/-- BAR0 offset of a FW register. -/
def aFw (off : Nat) : Nat := regAddr pFw off

/-- BAR0 offset of counter `k` of Table 7-12. -/
def aFwCnt (k : Nat) : Nat := aFw (0x200 + 8 * k)

/-- Length of a frame as it enters PRS, FCS included. -/
def frameLen (f : Frame) : Nat := f.bytes.length

/-! ### Zones (R217) -/

/-- Zone of a logical port in an epoch. -/
def portZone (s : State) (e p : Nat) : Nat := fld (s.regAt e (aFw (0x048 + 4 * (p / 8)))) (4 * (p % 8)) 4

/-- Zone of a bus channel in an epoch. -/
def busZone (s : State) (e c : Nat) : Nat := fld (s.regAt e (aFw (0x068 + 4 * (c / 8)))) (4 * (c % 8)) 4

/-- Zone that all channels of a list share. -/
def sharedZone (s : State) (e : Nat) : List Nat → Option Nat
  | [] => none
  | c :: cs =>
    if 32 ≤ c then none
    else if cs.all (fun x => decide (x < 32) && busZone s e x == busZone s e c) then some (busZone s e c) else none

/-- Ingress zone of a frame. -/
def ingressZone (s : State) (f : Frame) : Nat :=
  if f.port = 50 then (sharedZone s f.epoch f.busSrc).getD (portZone s f.epoch 50) else portZone s f.epoch f.port

/-- Cell of the zone matrix in an epoch (Table 7-2). -/
def zoneCell (s : State) (e a b : Nat) : Nat :=
  fld (s.regAt e (aFw (0x080 + 8 * a + 4 * (b / 8)))) (4 * (b % 8)) 4

/-- Table 7-2, CTRL: a control frame. -/
def isControl (k : Keys) : Bool :=
  decide (k.da / 16 = 0x0180C200000) || k.etype == 0x88F7 || k.etype == 0x888E || k.etype == 0x88B5

/-! ### Rules (R220, R221) -/

/-- The first `n` bits of two 128-bit addresses agree. -/
def prefixMatch (a b n : Nat) : Bool := a / 2 ^ (128 - min n 128) == b / 2 ^ (128 - min n 128)

/-- R221: a port range. -/
def rangeMatch (lo hi p : Nat) (l4v : Bool) : Bool :=
  (lo == 0 && hi == 0xFFFF) || (l4v && decide (lo ≤ p ∧ p ≤ hi))

/-- The L3 and L4 fields of a rule match a key set. -/
def ruleIp (r : List Byte) (k : KIp) : Bool :=
  let b0 := byteAt r 0
  let l3 := bits b0 2 2
  (l3 == 0 || (if l3 = 3 then k.l3t == 0 else k.l3t == l3))
  && (!bit b0 4 || k.proto == byteAt r 1)
  && (k.dscp &&& bits (byteAt r 13) 0 6) == (bits (byteAt r 12) 0 6 &&& bits (byteAt r 13) 0 6)
  && (!bit (byteAt r 13) 7 || k.frag == bit (byteAt r 13) 6)
  && (k.tcpf &&& byteAt r 15) == (byteAt r 14 &&& byteAt r 15)
  && prefixMatch k.src (beAt r 16 16) (byteAt r 48) && prefixMatch k.dst (beAt r 32 16) (byteAt r 49)
  && rangeMatch (leAt r 50 2) (leAt r 52 2) k.sport k.l4v && rangeMatch (leAt r 54 2) (leAt r 56 2) k.dport k.l4v

/-- R220, R221: every enabled field of a rule matches the frame. Marks: DEDUCED (log entry 31). -/
def ruleMatches (f : Frame) (zi z : Nat) (r : List Byte) : Bool :=
  let k := f.parse.keys
  let rv := f.parse.rv
  let inner := bit (byteAt r 0) 1
  bit (byteAt r 0) 0 && bit (leAt r 2 2) zi && bit (leAt r 4 2) z
  && (!inner || (rv.tunnel && !rv.innerFrag))
  && (!bit (byteAt r 0) 5 || f.vid == bits (leAt r 8 2) 0 12)
  && (!bit (byteAt r 0) 6 || k.etype == leAt r 10 2)
  && (kxFlags rv &&& byteAt r 7) == (byteAt r 6 &&& byteAt r 7)
  && ruleIp r (if inner then k.ipi else k.ip)

/-- Indices of rules that are not all zero, in the main table or in the overlay. -/
def ruleIndices (s : State) : List Nat :=
  ((s.tables.ent.filter (fun x => x.1 / 2 ^ 20 == tRULE)).map (fun x => x.1 % 2 ^ 20))
    ++ ((s.tables.ovl.filter (fun o => o.table == tRULE)).map (fun o => o.index))

/-- R220: the first hit. -/
def firstRule (s : State) (f : Frame) (zi z : Nat) : Option (List Byte) :=
  (leastBy (fun i => i) ((ruleIndices s).filter (fun i => ruleMatches f zi z (s.entAt f.epoch tRULE i)))).map
    (fun i => s.entAt f.epoch tRULE i)

/-- ACTION of a rule (Table 7-4). -/
def ruleAction (r : List Byte) : Nat := leAt r 62 2

/-! ### Flows (R223 to R225) -/

/-- A frame that can open or match a flow. -/
def flowEligible (f : Frame) : Bool :=
  f.parse.keys.ip.l3t != 0 && !f.parse.keys.ip.frag && !f.parse.rv.innerFrag

/-- ICMP and ICMPv6. -/
def isIcmp (l3t proto : Nat) : Bool := (l3t == 1 && proto == 1) || (l3t == 2 && proto == 58)

/-- The endpoints of a frame, sender first: address and port as one 144-bit number. -/
def endpoints (k : KIp) : Nat × Nat :=
  let ports := k.l4v && !isIcmp k.l3t k.proto
  (k.src * 2 ^ 16 + (if ports then k.sport else 0), k.dst * 2 ^ 16 + (if ports then k.dport else 0))

/-- Endpoints A and B, the lower first. -/
def flowEnds (k : KIp) : Nat × Nat :=
  let (x, y) := endpoints k
  (min x y, max x y)

/-- The sender is endpoint A. -/
def senderIsA (k : KIp) : Bool := decide ((endpoints k).1 ≤ (endpoints k).2)

/-- The flow key of 38 bytes. Marks: DEDUCED (log entry 31). -/
def flowKey (k : KIp) : List Byte :=
  [b8 k.l3t, b8 k.proto] ++ beBytes 18 (flowEnds k).1 ++ beBytes 18 (flowEnds k).2

/-- The four ways of a key's bucket. -/
def flowWays (s : State) (k : KIp) : List Nat :=
  let b := bits (crc32c (flowKey k) ^^^ s.fld (aFw 0x044) 0 14) 0 14
  (List.range 4).map (fun w => 4 * b + w)

/-- R225: now, in units of 10^6 cycles. -/
def flowNow (s : State) : Nat := s.cclk / 1000000 % 2 ^ 32

/-- Timeout of a flow entry in an epoch, in units of 100 ms. -/
def flowTimeout (s : State) (e : Nat) (v : List Byte) : Nat :=
  let r (off lo : Nat) : Nat := fld (s.regAt e (aFw off)) lo 16
  let b := byteAt v 38
  match bits b 0 3 with
  | 1 => r 0x100 0
  | 2 => if bit b 4 then r 0x10C 0 else r 0x100 16
  | 3 => r 0x104 0
  | 4 => r 0x104 0
  | 5 => r 0x104 16
  | _ => if isIcmp (bits b 6 2) (byteAt v 36) then r 0x108 16 else r 0x108 0

/-- R225: the lifetime of a flow has ended. -/
def flowEnded (s : State) (e : Nat) (v : List Byte) : Bool :=
  decide (100 * flowTimeout s e v ≤ (flowNow s + 2 ^ 32 - leAt v 40 4) % 2 ^ 32)

/-- The key of a flow entry. -/
def entryKey (v : List Byte) : List Byte :=
  [b8 (bits (byteAt v 38) 6 2), b8 (byteAt v 36)] ++ slice v 0 16 ++ beBytes 2 (leAt v 32 2) ++ slice v 16 16
    ++ beBytes 2 (leAt v 34 2)

/-- R223: the flow that a frame matches. -/
def matchFlow (s : State) (f : Frame) (zi z : Nat) : Option Nat :=
  (flowWays s f.parse.keys.ip).find? (fun i =>
    let v := s.mainEnt tFLOW i
    let zs := (bits (byteAt v 37) 0 4, bits (byteAt v 37) 4 4)
    flowState v != 0 && !flowEnded s f.epoch v && entryKey v == flowKey f.parse.keys.ip && (zs == (zi, z) || zs == (z, zi)))

/-- Entries of the flow table in use. -/
def flowsUsed (s : State) : Nat :=
  (s.tables.ent.filter (fun x => x.1 / 2 ^ 20 == tFLOW && flowState x.2 != 0)).length

/-- Table 7-10: FLOW_HIGH. -/
def checkFlows (s : State) : State := if s.fld (aFw 0x114) 0 17 ≤ flowsUsed s then s.raise pFw 0 else s

/-- TCP flags. -/
structure TcpFlags where
  syn : Bool
  ack : Bool
  rst : Bool
  fin : Bool
deriving DecidableEq, Repr

/-- TCP flags of a key set. -/
def tcpFlags (k : KIp) : TcpFlags :=
  { syn := bit k.tcpf 1, ack := bit k.tcpf 4, rst := bit k.tcpf 2, fin := bit k.tcpf 0 }

/-- What Table 7-5 gives a frame of a flow: it passes, the new state, and a refresh. -/
structure FlowStep where
  pass : Bool
  st : Nat
  refresh : Bool
deriving DecidableEq, Repr

/-- Table 7-5 for an existing flow; `init` says that the sender is the initiator. Marks: DEDUCED (log entry 31). -/
def flowStep (st : Nat) (t : TcpFlags) (init : Bool) : FlowStep :=
  match st with
  | 1 =>
    if t.rst then ⟨true, 5, true⟩
    else if t.syn && t.ack && !init then ⟨true, 2, true⟩
    else if t.syn && !t.ack && init then ⟨true, 1, true⟩
    else ⟨false, 1, false⟩
  | 2 => if t.rst then ⟨true, 5, true⟩ else if t.fin then ⟨true, if init then 3 else 4, true⟩ else ⟨true, 2, true⟩
  | 3 => if t.rst then ⟨true, 5, true⟩ else if t.fin && !init then ⟨true, 5, true⟩ else ⟨true, 3, true⟩
  | 4 => if t.rst then ⟨true, 5, true⟩ else if t.fin && init then ⟨true, 5, true⟩ else ⟨true, 4, true⟩
  | 5 =>
    if t.syn && !t.ack && init then ⟨true, 1, true⟩
    else if t.syn && !init then ⟨false, 5, false⟩
    else ⟨true, 5, false⟩
  | n => ⟨true, n, true⟩

/-- R226: what the DoIP check gives: the entry, with its tester bound, and whether the frame passes.
Marks: DEDUCED (log entry 31). -/
def doipCheck (v : List Byte) (init : Bool) : Option (Nat × Nat × Nat) → List Byte × Bool
  | some (ty, sa, ta) =>
    if !bit (byteAt v 38) 4 || ty != 0x8001 then (v, true)
    else
      let inRange (x : Nat) : Bool := decide (leAt v 46 2 ≤ x ∧ x ≤ leAt v 48 2)
      let bound := bit (byteAt v 38) 5
      if init then
        let w := if bound then v else putBytes (putBytes v 44 (leBytes 2 sa)) 38 [b8 (byteAt v 38 ||| 32)]
        (w, sa == leAt w 44 2 && inRange ta)
      else (v, bound && ta == leAt v 44 2 && inRange sa)
  | none => (v, true)

/-! ### The decision for one egress zone (R218) -/

/-- The decision for a zone: the counter of a denial, the rule that decided, and whether a flow allowed it. -/
structure ZoneVerdict where
  deny : Option Nat := none
  rule : Option (List Byte) := none
  byFlow : Bool := false
deriving DecidableEq, Repr

/-- The state check and the DoIP check of a frame in flow `i`. -/
def inFlow (s : State) (f : Frame) (i : Nat) : State × Option Nat :=
  let k := f.parse.keys
  let v := s.mainEnt tFLOW i
  let init := senderIsA k.ip == bit (byteAt v 38) 3
  let st := flowStep (if byteAt v 36 = 6 then flowState v else 6) (tcpFlags k.ip) init
  if !st.pass then (s, some 9)
  else
    let (w, ok) := doipCheck v init k.doip
    if !ok then ((setFlow s i w).raise pFw 2, some 13)
    else
      let w := putBytes w 38 [b8 (byteAt w 38 / 8 * 8 + st.st)]
      (setFlow s i (if st.refresh then putBytes w 40 (leBytes 4 (flowNow s)) else w), none)

/-- A new flow entry in a state. -/
def newFlow (s : State) (k : KIp) (zi z st : Nat) (r : List Byte) : List Byte :=
  let (a, b) := flowEnds k
  let doip := bit (byteAt r 0) 7 && k.proto == 6
  beBytes 16 (a / 2 ^ 16) ++ beBytes 16 (b / 2 ^ 16) ++ leBytes 2 a ++ leBytes 2 b
    ++ [b8 k.proto, b8 (zi + 16 * z), b8 (st + 8 * b2n (senderIsA k) + 16 * b2n doip + 64 * k.l3t), 0]
    ++ leBytes 4 (flowNow s) ++ [0, 0] ++ (if doip then slice r 58 4 else leBytes 4 0) ++ List.replicate 14 0

/-- R224: a TRACK decision opens a flow. -/
def openFlow (s : State) (f : Frame) (zi z : Nat) (r : List Byte) : State × Option Nat :=
  let k := f.parse.keys.ip
  let t := tcpFlags k
  let strict := bit (s.regAt f.epoch (aFw 0x040)).toNat 2
  let opener := t.syn && !t.ack
  if k.proto = 6 ∧ !opener ∧ strict then (s, some 10)
  else
    let st := if k.proto ≠ 6 then 6 else if opener then 1 else 2
    match (flowWays s k).find? (fun i => flowState (s.mainEnt tFLOW i) == 0 || flowEnded s f.epoch (s.mainEnt tFLOW i)) with
    | none => (s.raise pFw 1, some 8)
    | some i =>
      let (v, ok) := doipCheck (newFlow s k zi z st r) true f.parse.keys.doip
      let u := checkFlows ((setFlow s i v).bump (aFwCnt 7))
      if ok then (u, none) else (u.raise pFw 2, some 13)

/-- A TRACK rule: open a flow, or go on in it. A standby opens none of its own (R234). Marks: DEDUCED (log entry 31). -/
def trackFlow (s : State) (f : Frame) (zi z : Nat) (r : List Byte) : State × Option Nat :=
  if !bit (s.regAt f.epoch (aFw 0x040)).toNat 1 || !flowEligible f || bit f.parse.keys.da 40 then (s, none)
  else
    match matchFlow s f zi z with
    | some i => inFlow s f i
    | none => if s.twin.role = .standby then (s, none) else openFlow s f zi z r

/-- The cell's ACT decides. -/
def byAct (f : Frame) (cell : Nat) : ZoneVerdict :=
  if bits cell 0 2 = 1 ∨ (bits cell 0 2 = 2 ∧ isControl f.parse.keys) then {} else { deny := some 3 }

/-- Rules, then flows, then the cell. -/
def byRules (s : State) (f : Frame) (zi z cell : Nat) : State × ZoneVerdict :=
  match firstRule s f zi z with
  | some r =>
    match bits (ruleAction r) 0 2 with
    | 0 => (s, { deny := some 2, rule := some r })
    | 2 => let (t, d) := trackFlow s f zi z r; (t, { deny := d, rule := some r })
    | _ => (s, { rule := some r })
  | none =>
    if bit (s.regAt f.epoch (aFw 0x040)).toNat 1 && flowEligible f then
      match matchFlow s f zi z with
      | some i => let (t, d) := inFlow s f i; (t, { deny := d, byFlow := d.isNone })
      | none => (s, byAct f cell)
    else (s, byAct f cell)

/-- R218: the copies of a frame to egress zone `z`. Marks: DEDUCED (log entry 31). -/
def decideZone (s : State) (f : Frame) (zi z : Nat) : State × ZoneVerdict :=
  let cell := zoneCell s f.epoch zi z
  let rv := f.parse.rv
  if bit cell 3 && (rv.trunc || rv.mal) then (s, { deny := some (if rv.trunc then 4 else 5) })
  else if !bit cell 2 then (s, byAct f cell)
  else byRules s f zi z cell

/-! ### The decision for a frame -/

/-- What the firewall leaves of a frame's copies: the set, and the TC that rules give to ports. -/
structure FwResult where
  set : Nat := 0
  tcs : List (Nat × Nat) := []
deriving DecidableEq, Repr

/-- R219: what a zone's decision counts for `n` copies of a frame. Marks: DEDUCED (log entry 31). -/
def countZone (s : State) (f : Frame) (v : ZoneVerdict) (n : Nat) : State :=
  let t := match v.deny with
    | some k => s.bumpBy (aFwCnt k) n
    | none => if v.byFlow then (s.bumpBy (aFwCnt 1) n).bumpBy (aFwCnt 11) n else s.bumpBy (aFwCnt 1) n
  match v.rule with
  | none => t
  | some r =>
    let c := bits (ruleAction r) 8 6
    if c = 0 then t else (t.bumpBy (aFw (0x400 + 16 * c)) n).bumpBy (aFw (0x408 + 16 * c)) (n * frameLen f)

/-- One egress zone of a frame, added to what earlier zones gave. Marks: DEDUCED (log entry 31). -/
def zoneStep (f : Frame) (zi : Nat) (x : State × FwResult) (z : Nat) : State × FwResult :=
  let ports := (setBitsOf 52 f.set).filter (fun p => portZone x.1 f.epoch p == z)
  if ports.isEmpty then x
  else
    let (t, v) := decideZone x.1 f zi z
    let act := (v.rule.map ruleAction).getD 0
    let set := if v.deny.isNone then x.2.set ||| maskOf ports else x.2.set
    let set := if bit act 2 && f.port != 51 then set ||| 2 ^ 51 else set
    let tcs := if bit act 3 then x.2.tcs ++ ports.map (fun p => (p, bits act 4 3)) else x.2.tcs
    (countZone t f v ports.length, { set := set, tcs := tcs })

/-- R235: a flow word that failed twice, in one half or in both. -/
def flowParity (s : State) (m : InjMark) (second : Bool) : State :=
  ((memRepeated s 2 second).bump (aFwCnt 15)).report 0x06 (memUnit 2 m.index) (memDetail m) true

/-- R235: both halves of the flow bucket are read (Table 7-1). A word that fails twice in one half is read from the
other; one that fails in both frees its entry. Which entry of the bucket it belongs to is open. -/
def readFlows (s : State) (f : Frame) : State :=
  match memRead s 2 0 none with
  | (t, none) =>
    match memRead t 2 1 none with
    | (u, none) => u
    | (u, some m) => flowParity u m true
  | (t, some m) =>
    match memRead t 2 1 (some m.addr) with
    | (u, none) => flowParity u m true
    | (u, some _) =>
      let i := ((flowWays u f.parse.keys.ip)[Config.freeNat u.free % 4]?).getD 0
      flowParity (setFlow u.tick1 i (entZero (entKey tFLOW 0))) m false

/-- R218, R219: FW on one frame. -/
def firewall (s : State) (f : Frame) : State × FwResult :=
  let t := (readFlows s f).bump (aFwCnt 0)
  (List.range 16).foldl (zoneStep f (ingressZone t f)) (t, {})

/-! ### The sweeper -/

/-- R225: one visited entry. -/
def sweepFlow (s : State) (i : Nat) : State :=
  let v := s.mainEnt tFLOW i
  if flowState v != 0 && flowEnded s s.epoch v then (setFlow s i (entZero (entKey tFLOW 0))).bump (aFwCnt 12) else s

/-- FLOW_SWEEP (R225). -/
def execFlowSweep (s : State) : Result :=
  .next (((s.tables.ent.filter (fun x => x.1 / 2 ^ 20 == tFLOW)).map (fun x => x.1 % 2 ^ 20)).foldl sweepFlow
    { s with policing := { s.policing with sweptAt := s.cclk } })

end Sys2Proof.Machine
end

