-- ==== Sys2Proof/Machine/Policy.lean ====
section
/-!
DEFINITION. Stream filters, gates and meters, and the policy stage
(spec/07_firewall_and_stream_policing.md, R215, R216, R222, R227 to R231, R235).
-/
namespace Sys2Proof.Machine
open Sys2Proof

/-- BAR0 offset of a SFP register. -/
def aSfp (off : Nat) : Nat := regAddr pSfp off

/-- BAR0 offset of counter `k` of Table 7-14. -/
def aSfpCnt (k : Nat) : Nat := aSfp (0x100 + 8 * k)

/-! ### Filters -/

/-- The filter that applies to a frame: its handle and entry. Marks: DEDUCED (log entry 32). -/
def filterOf (s : State) (f : Frame) : Option (Nat × List Byte) :=
  match f.handle with
  | none => none
  | some h =>
    let v := s.entAt f.epoch tFILTER h
    let pcp := framePcp (s.entAt f.epoch tPORT f.port) f.parse.keys
    if bit (byteAt v 0) 0 && bit (byteAt v 1) pcp then some (h, v) else none

/-- The gate of a filter, when it names a valid one. Marks: DEDUCED (log entry 32). -/
def gateOf (s : State) (e : Nat) (v : List Byte) : Option (Nat × List Byte) :=
  let w := leAt v 4 2
  let g := s.entAt e tGATE (bits w 0 10)
  if bit w 15 && bit (byteAt g 0) 0 then some (bits w 0 10, g) else none

/-- The meter of a filter, when it names a valid one. Marks: DEDUCED (log entry 32). -/
def meterOf (s : State) (e : Nat) (v : List Byte) : Option (Nat × List Byte) :=
  let w := leAt v 6 2
  let m := s.entAt e tMETER (bits w 0 12)
  if bit w 15 && bit (byteAt m 0) 0 then some (bits w 0 12, m) else none

/-! ### Gates (R229) -/

/-- The interval that holds `t`, from interval `i` on; `cur` is the last interval with a duration before it. -/
def gateInterval (g : List Byte) (t : Nat) : Nat → Nat → Nat → Nat → Nat
  | 0, _, _, cur => cur
  | n + 1, i, acc, cur =>
    let d := leAt g (8 + 8 * i) 4
    if d = 0 then gateInterval g t n (i + 1) acc cur
    else if t < acc + d then i
    else gateInterval g t n (i + 1) (acc + d) i

/-- Interval of a gate at a phase and a number of cycles since the cycle boundary. -/
def streamGateAt (g : List Byte) (phase since : Nat) : Nat :=
  let n := bits (byteAt g 1) 0 5
  gateInterval g (if bit (byteAt g 0) 2 then since else phase) n 0 0 (n - 1)

/-- Byte 4 of a gate interval: OPEN, IPV, IPV_V. -/
def gateByte (g : List Byte) (i : Nat) : Nat := byteAt g (12 + 8 * i)

/-- Byte 4 of the interval in which a frame arrived. -/
def frameGate (f : Frame) (g : List Byte) : Nat := gateByte g (streamGateAt g (f.pos.toNat % 2 ^ 32) f.sinceCycle)

/-- R229: the TC of a frame after its gate's IPV. -/
def gateTc (s : State) (f : Frame) : Nat :=
  match filterOf s f with
  | none => f.tc
  | some (_, v) =>
    match gateOf s f.epoch v with
    | none => f.tc
    | some (_, g) => let b := frameGate f g; if bit b 0 && bit b 4 then bits b 1 3 else f.tc

/-! ### Blocked bits and meters (R228, R230) -/

/-- R503: something of a stream becomes blocked. -/
def blockReport (s : State) (h irq : Nat) : State := (s.raise pSfp irq).report 0x17 (unitId 4 h) [] false

/-- A filter becomes blocked. -/
def blockFilter (s : State) (h : Nat) : State :=
  blockReport { s with policing := { s.policing with filtBlk := Tab.set (fun _ => false) s.policing.filtBlk h true } } h 0

/-- A gate becomes blocked by a frame of stream `h`. -/
def blockGate (s : State) (h g : Nat) : State :=
  blockReport { s with policing := { s.policing with gateBlk := Tab.set (fun _ => false) s.policing.gateBlk g true } } h 1

/-- State of a meter. -/
def State.meterSt (s : State) (i : Nat) : Meter := Tab.get (fun _ => {}) s.policing.meter i

/-- The state with a meter changed. -/
def State.setMeterSt (s : State) (i : Nat) (m : Meter) : State :=
  { s with policing := { s.policing with meter := Tab.set (fun _ => {}) s.policing.meter i m } }

/-- CBS of a meter entry, in units of 2^-24 byte. -/
def meterCbs (v : List Byte) : Nat := bits (leAt v 8 4) 0 24 * 2 ^ 24

/-- R230: level of a meter at a cycle. -/
def meterLevel (m : Meter) (v : List Byte) (now : Nat) : Nat :=
  min (meterCbs v) (m.level + divOpen (leAt v 4 4 * (now - m.at_) * 2 ^ 24) 8000000)

/-- R235: a word of SFP that failed twice and was replaced. -/
def sfpLost (s : State) (m : InjMark) : State :=
  ((memRepeated s 9 true).bump (aSfpCnt 6)).report 0x07 (memUnit 9 m.index) (memDetail m) true

/-- R235: a meter level that fails twice is set to CBS. -/
def readMeter (s : State) (i : Nat) (v : List Byte) : State :=
  match memRead s 9 0 none with
  | (t, none) => t
  | (t, some m) => sfpLost (t.setMeterSt i { t.meterSt i with level := meterCbs v }) m

/-- R235: a blocked bit that fails twice reads as blocked: `set` is the state with the bit set. -/
def readBlocked (s : State) (set : State → State) : State :=
  match memRead s 9 0 none with
  | (t, none) => t
  | (t, some m) => sfpLost (set t) m

/-- R230: a charge of `n` bytes to meter `i` at a cycle; false when the frame is dropped.
Marks: DEDUCED (log entry 32). -/
def meterCharge (s : State) (h i : Nat) (v cfg : List Byte) (n now : Nat) : State × Bool :=
  let s := readMeter s i cfg
  let m := s.meterSt i
  let l := meterLevel m cfg now
  let m' : Meter := { m with at_ := max now m.at_ }
  if n * 2 ^ 24 ≤ l then (s.setMeterSt i { m' with level := l - n * 2 ^ 24 }, true)
  else if bit (byteAt v 0) 1 then (blockReport (s.setMeterSt i { m' with level := l, blocked := true }) h 2, false)
  else (s.setMeterSt i { m' with level := l }, false)

/-! ### The filter's checks (R228) -/

/-- A drop: counter `k` of Table 7-14 and register `off` of the filter's counter set. -/
def sfpDrop (s : State) (v : List Byte) (k : Nat) (off : Option Nat) : State :=
  let c := bits (byteAt v 8) 0 6
  let t := s.bump (aSfpCnt k)
  match off with
  | some o => if c = 0 then t else t.bump (aSfp (0x400 + 32 * c + o))
  | none => t

/-- Check 1: something is blocked. -/
def sfpBlocked (s : State) (h : Nat) (g m : Option (Nat × List Byte)) : Bool :=
  Tab.get (fun _ => false) s.policing.filtBlk h
  || (match g with | some x => Tab.get (fun _ => false) s.policing.gateBlk x.1 | none => false)
  || (match m with | some x => (s.meterSt x.1).blocked | none => false)

/-- Check 4. Marks: DEDUCED (log entry 32). -/
def sfpMeter (s : State) (f : Frame) (h : Nat) (v : List Byte) (copies : Bool) : Option (Nat × List Byte) → State × Bool
  | none => (s, true)
  | some (i, m) =>
    if !copies then (s, true)
    else
      match meterCharge s h i m (s.entAt s.epoch tMETER i) (frameLen f) (f.lookedAt + 18) with
      | (t, true) => (t, true)
      | (t, false) => (sfpDrop t v 4 (some 0x18), false)

/-- R228: the checks in order; false when the frame is dropped. Marks: DEDUCED (log entry 32). -/
def sfpChecks (s : State) (f : Frame) (h : Nat) (v : List Byte) (copies : Bool) : State × Bool :=
  let g := gateOf s f.epoch v
  let m := meterOf s f.epoch v
  let sdu := bits (leAt v 2 2) 0 14
  if sfpBlocked s h g m then (sfpDrop s v 5 none, false)
  else if sdu ≠ 0 ∧ sdu < frameLen f then
    let t := if bit (byteAt v 0) 1 then blockFilter s h else s
    (sfpDrop t v 2 (some 0x08), false)
  else
    match g with
    | some (i, e) =>
      if bit (frameGate f e) 0 then sfpMeter s f h v copies m
      else
        let t := if bit (byteAt e 0) 1 then blockGate s h i else s
        (sfpDrop t v 3 (some 0x10), false)
    | none => sfpMeter s f h v copies m

/-- R235: the blocked bits of a frame's filter, gate and meter are read. -/
def readBits (s : State) (f : Frame) (h : Nat) (v : List Byte) : State :=
  let p (t : State) := t.policing
  let t := readBlocked s (fun t =>
    { t with policing := { p t with filtBlk := Tab.set (fun _ => false) (p t).filtBlk h true } })
  let t := match gateOf s f.epoch v with
    | some (g, _) => readBlocked t (fun t =>
        { t with policing := { p t with gateBlk := Tab.set (fun _ => false) (p t).gateBlk g true } })
    | none => t
  match meterOf s f.epoch v with
  | some (i, _) => readBlocked t (fun t => t.setMeterSt i { t.meterSt i with blocked := true })
  | none => t

/-- SFP on one frame. -/
def policing (s : State) (f : Frame) (copies : Bool) : State × Bool :=
  match filterOf s f with
  | none => (s.bump (aSfpCnt 1), true)
  | some (h, v) =>
    let t := (readBits s f h v).bump (aSfpCnt 0)
    let c := bits (byteAt v 8) 0 6
    sfpChecks (if c = 0 then t else t.bump (aSfp (0x400 + 32 * c))) f h v copies

/-! ### What follows a decision -/

/-- The five frame flags, in the order of receive header byte 3 [7:3] (Table 2-11). -/
def frameFlags (f : Frame) : Nat :=
  b2n f.icvFail + 2 * b2n f.parse.rv.trunc + 4 * b2n f.parse.rv.mal + 8 * b2n f.stomped + 16 * b2n f.cutThrough

/-- R66: the ring of a TX frame learns the policy decision. Marks: DESIGN CHOICE (log entry 67). -/
def ringVerdict (s : State) (n : Nat) (f : Frame) (dropped : Bool) : State :=
  match f.txRing with
  | none => s
  | some (b, k) =>
    let r := RingId.tx (if b then .b else .a) k
    let x := s.ring r
    s.setRing r { x with flight := x.flight.map (fun t => if t.frame = some n then 
      { t with verdict := some dropped, epoch := f.epoch, flags := frameFlags f } else t) }

/-- A frame without copies: its learn event goes, and it leaves the part. A late MALFORMED still counts (R169). -/
def policyDrop (s : State) (n : Nat) (f : Frame) : State :=
  let t := ringVerdict (dropLearn s n) n f true
  t.setFrame n (if f.latePending then { f with stage := .gone, dropped := true, set := 0 } else {})

/-- R199: the learn filter is told that a frame has passed. -/
def learnPass (s : State) (n : Nat) (f : Frame) : State :=
  if f.err then dropLearn s n
  else
    let mark (l : List LearnEvt) : List LearnEvt := l.map (fun e => if e.frame = n then { e with passed := true } else e)
    { s with tables := { s.tables with filt0 := mark s.tables.filt0, filt1 := mark s.tables.filt1 } }

/-! ### Late MALFORMED (R227) -/

/-- Ports whose copies of a frame a late MALFORMED drops. -/
def latePorts (s : State) (f : Frame) : List Nat :=
  let all := bit (s.regAt f.epoch (aFw 0x040)).toNat 0
  (setBitsOf 52 f.set).filter (fun p =>
    all || bit (zoneCell s f.epoch (ingressZone s f) (portZone s f.epoch p)) 3)

/-- A copy in transmission ends with the inverted FCS. -/
def stompRun (n : Nat) (x : TxRun) : TxRun :=
  if x.frame ≠ n then x
  else
    let body := x.bytes.take (x.bytes.length - 4)
    { x with bytes := body ++ leBytes 4 (complement 32 (crc32 body)), stomp := true }

/-- A run that has started with frame `n`. -/
def runOf (s : State) (n : Nat) : Option TxRun → Bool
  | some x => x.frame == n && decide (x.start ≤ s.cclk)
  | none => false

/-- A copy of frame `n` for a port exists: it is still to be decided by BUF, or it stands in a queue of the port. -/
def hasCopy (s : State) (n p : Nat) : Bool :=
  !(s.frame n).admitted || (List.range 8).any (fun q => (s.queue p q).any (fun c => c.frame == n))

/-- R227: the copy of frame `n` to one port is dropped, or stomped when it has started. -/
def lateCopy (n : Nat) (s : State) (p : Nat) : State :=
  let e := s.egs p
  let t := if hasCopy s n p then s.bump (aFwCnt 6) else s
  if runOf s n e.tx || runOf s n e.susp then
    t.setEgs p { e with tx := e.tx.map (stompRun n), susp := e.susp.map (stompRun n) }
  else
    (List.range 8).foldl (fun u q =>
      if (u.queue p q).any (fun c => c.frame == n) then removeCopy u p q n else u) t

/-- R227: a late MALFORMED of a decided frame. Marks: DEDUCED (log entry 32). -/
def lateDrop (s : State) (n : Nat) : State :=
  let f := s.frame n
  let ports := latePorts s f
  let t := s.setFrame n { f with set := f.set &&& complement 52 (maskOf ports) }
  ports.foldl (lateCopy n) t

/-- R169: the checks at end of a frame fail. -/
def endFails (s : State) (n : Nat) : State :=
  let f := s.frame n
  let t := (s.setFrame n { f with latePending := false, lateMal := true }).bump (aPrsCnt 4)
  if f.stage = .decided then lateDrop t n
  else if f.stage = .gone then t.setFrame n {} else t

/-- END_CHECK. -/
def execEndCheck (f : Nat) (s : State) : Result :=
  .next (whenever ((s.frame f).latePending && decide (endInPrs (s.frame f) + 1 ≤ s.cclk)) s (endFails s f))

/-! ### The stage (R215) -/

/-- A frame that keeps copies; `d` is what a parity replay adds to the stage's time (R26). -/
def policyKeep (s : State) (n : Nat) (f : Frame) (d : Nat) : State :=
  let t := ringVerdict (learnPass s n f) n f false
  let u := t.setFrame n { f with stage := .decided, decidedAt := f.lookedAt + 28 + d }
  if f.lateMal then
    let v := lateDrop u n
    if (v.frame n).set = 0 then v.setFrame n {} else v
  else u

/-- R215: the decision on one frame. -/
def policy (s : State) (n : Nat) : State :=
  let f := s.frame n
  if f.dropped then policyDrop s n f
  else
    let g := { f with tc := gateTc s f }
    let (t, w) := firewall s g
    let (u, ok) := policing t g (w.set != 0)
    let d := addedReplay s u n
    let g := { g with replay := g.replay + d, replayed := g.replayed || metParity s u }
    let u := noteReplay s u n
    if !ok || w.set == 0 then policyDrop u n g
    else policyKeep u n { g with set := w.set, copyTc := w.tcs } d

/-- R216: the cycle in which a frame enters the policy stage, PL0's frames before PL1's of the same cycle. -/
def policyTurn (s : State) (n : Nat) (f : Frame) : Option Nat :=
  match f.stage with
  | .parsed => if heldBack s n f then none else some ((f.keysAt + 72) * 2 + pipelineOf f.port)
  | .looked => some (f.lookedAt * 2 + pipelineOf f.port)
  | _ => none

/-- R216: no frame enters the stage before this one and is still to be decided. -/
def policyFirst (s : State) (n : Nat) : Bool :=
  match policyTurn s n (s.frame n) with
  | none => false
  | some k => s.frames.all (fun x => match policyTurn s x.1 x.2 with | some j => decide (k ≤ j) | none => true)

/-- POLICY_STAGE. -/
def execPolicyStage (f : Nat) (s : State) : Result :=
  .next (whenever ((s.frame f).stage == .looked && decide ((s.frame f).lookedAt ≤ s.cclk) && policyFirst s f) s
    (policy s f))

end Sys2Proof.Machine
end

