-- ==== Sys2Proof/Machine/BusOps.lean ====
section
/-!
DEFINITION. Messages, priority, message RAM, bus windows and authentication of the CAN controllers
(spec/10_can_and_lin_controllers.md, R307, R310 to R319, R323, R324, R330 to R333), and the request that a controller
makes to the gateway (spec/11_gateway_engine.md, R340).
-/
namespace Sys2Proof.Machine
open Sys2Proof

/-- BAR0 offset of a register of a CAN page. -/
def aCan (n off : Nat) : Nat := regAddr (pCan n) off

/-- BAR0 offset of counter `k` of Table 10-16. -/
def aCanCnt (n k : Nat) : Nat := aCan n (0x100 + 8 * k)

/-- A CAN channel. -/
def State.can (s : State) (n : Nat) : CanChan := Tab.get (fun _ => {}) s.buses.can n

/-- The state with a CAN channel changed. -/
def State.setCan (s : State) (n : Nat) (c : CanChan) : State :=
  { s with buses := { s.buses with can := Tab.set (fun _ => {}) s.buses.can n c } }

/-- An authentication entry. -/
def State.auth (s : State) (i : Nat) : AuthEntry := Tab.get (fun _ => {}) s.buses.auth i

/-- The state with an authentication entry changed. -/
def State.setAuth (s : State) (i : Nat) (e : AuthEntry) : State :=
  { s with buses := { s.buses with auth := Tab.set (fun _ => {}) s.buses.auth i e } }

/-! ### Messages (Table 10-3) -/

/-- IDE. -/
def msgIde (m : CanMsg) : Bool := bit m.idw 29
/-- RMT. -/
def msgRmt (m : CanMsg) : Bool := bit m.idw 30
/-- AUTH. -/
def msgAuth (m : CanMsg) : Bool := bit m.idw 31
/-- LEN. -/
def msgLen (m : CanMsg) : Nat := if msgRmt m then m.rlen else m.data.length

/-- The 16 bytes of a message header. -/
def headerBytes (m : CanMsg) : List Byte :=
  leBytes 4 m.idw ++ leBytes 2 (msgLen m % 2 ^ 12 + m.fmt * 2 ^ 12 + b2n m.brs * 2 ^ 14 + b2n m.esi * 2 ^ 15)
    ++ [b8 m.sdt, b8 m.vcid] ++ leBytes 4 m.af
    ++ leBytes 2 (m.authIdx % 2 ^ 10 + b2n m.sec * 2 ^ 10 + m.wclass % 4 * 2 ^ 11) ++ leBytes 2 m.tag

/-- The message that a header and a payload give. -/
def msgOf (h data : List Byte) : CanMsg :=
  let w := leAt h 4 2
  let x := leAt h 12 2
  let len := bits w 0 12
  let rmt := bit (leAt h 0 4) 30
  { idw := leAt h 0 4, fmt := bits w 12 2, brs := bit w 14, esi := bit w 15, sdt := byteAt h 6, vcid := byteAt h 7,
    af := leAt h 8 4, authIdx := bits x 0 10, sec := bit x 10, wclass := bits x 11 2, tag := leAt h 14 2,
    rlen := if rmt then len else 0, data := if rmt then [] else slice data 0 len }

/-- R315: the priority key. -/
def msgKey (m : CanMsg) : Nat :=
  let rtr := b2n (msgRmt m)
  bits m.idw 18 11 * 2 ^ 21
    + (if msgIde m then 1 else if m.fmt = 0 then rtr else 0) * 2 ^ 20
    + b2n (msgIde m) * 2 ^ 19 + bits m.idw 0 18 * 2 + (if msgIde m then rtr else 0)

/-- Payload sizes that a DLC can give. -/
def dlcSizes : List Nat := [0, 1, 2, 3, 4, 5, 6, 7, 8, 12, 16, 20, 24, 32, 48, 64]

/-- Bytes that a frame of a format carries for `n` bytes: an XL frame carries any number. -/
def dlcFor (fmt n : Nat) : Nat := if fmt = 2 then n else (dlcSizes.find? (fun d => decide (n ≤ d))).getD 64

/-- The payload as it is sent: padded with 0xCC so that a DLC holds it and its trailer. -/
def paddedData (m : CanMsg) (trailer : Nat) : List Byte :=
  m.data ++ List.replicate (dlcFor m.fmt (m.data.length + trailer) - trailer - m.data.length) 0xCC

/-- Pool blocks of a message. -/
def msgBlocks (m : CanMsg) : Nat := ceilDiv (16 + m.data.length) 64

/-! ### The pool (R314) -/

/-- Buffers of a channel. -/
def canBufs (c : CanChan) : List (Option CanBuf) := [c.buf0, c.buf1, c.buf2]

/-- Pool blocks that a channel holds. -/
def chanBlocks (c : CanChan) : Nat :=
  (c.pend.map (fun p => msgBlocks p.msg)).sum
  + ((canBufs c).map (fun b => match b with | some x => msgBlocks x.p.msg | none => 0)).sum
  + ((c.rxq0 ++ c.rxq1).map (fun r => msgBlocks r.msg)).sum

/-- A message of the gateway that holds pool blocks of its own: one taken from a frame (R357). -/
def claimsPool (m : GweMsg) : Bool :=
  decide (32 ≤ m.src) && (match m.kind with | .reinject _ => false | .can => true | .lin _ => true)

/-- Free pool blocks. Messages that wait in the gateway hold the blocks that they claimed (R357). -/
def poolFree (s : State) : Nat :=
  2112 - ((s.buses.can.map (fun x => chanBlocks x.2)).sum
    + (((s.gwe.reqs ++ s.gwe.inq ++ s.gwe.routed.map (fun x => x.2)).filter claimsPool).map
        (fun m => msgBlocks m.msg)).sum)

/-! ### Timing (R307, R323) -/

/-- Bit time of a timing register, in cycles. -/
def canBit (s : State) (n off : Nat) : Nat :=
  (s.fld (aCan n off) 0 8 + 1) * (3 + s.fld (aCan n off) 8 8 + s.fld (aCan n off) 16 7)

/-- t_nom. -/
def tNom (s : State) (n : Nat) : Nat := canBit s n 0x044

/-- Cycles from a sample point to the end of its bit, nominal timing. -/
def afterSample (s : State) (n : Nat) : Nat := (s.fld (aCan n 0x044) 0 8 + 1) * (s.fld (aCan n 0x044) 16 7 + 1)

/-- Table 10-7: A and B for a payload of `len` bytes. -/
def frameBits (m : CanMsg) (len : Nat) : Nat × Nat :=
  let n := if msgRmt m then 0 else len
  match m.fmt with
  | 0 => (if msgIde m then 80 + 10 * n else 55 + 10 * n, 0)
  | 1 =>
    let a := if msgIde m then 50 else 30
    if m.brs then (a, 40 + 10 * n) else (a + 40 + 10 * n, 0)
  | _ => (30, ceilDiv (11 * (120 + 8 * n)) 10)

/-- R323: T_max, in cycles. -/
def tMax (s : State) (n : Nat) (p : CanPend) : Nat :=
  let len := (paddedData p.msg p.trailer.length).length + p.trailer.length
  let (a, b) := frameBits p.msg len
  a * tNom s n + b * canBit s n (if p.msg.fmt = 2 then 0x04C else 0x048)

/-! ### Bus windows (R324, R326) -/

/-- One window: START, length in phase units, EXCL, CLASS. -/
structure BusWindow where
  start : Nat
  len : Nat
  excl : Bool
  cls : Nat
deriving DecidableEq, Repr

/-- Window `i` of a bank. -/
def windowAt (c : CanChan) (bank i : Nat) : BusWindow :=
  let w (k : Nat) : Nat := (Tab.get (fun _ => (0 : Word)) c.bw (64 * bank + 2 * i + k)).toNat
  { start := w 0, len := bits (w 1) 0 29 * 8, excl := bit (w 1) 29, cls := bits (w 1) 30 2 }

/-- The list in effect. -/
def windowList (c : CanChan) : List BusWindow := (List.range c.bwLen).map (windowAt c c.bwBank)

/-- The list that takes effect at the next cycle boundary. -/
def installing (c : CanChan) : List BusWindow :=
  match c.bwInstall with
  | some (b, l) => (List.range l).map (windowAt c b)
  | none => []

/-- R324: position at which a window that is open at position `x` closes. -/
def windowClose (x : Nat) (w : BusWindow) : Option Nat :=
  let ph := x % 2 ^ 32
  if w.start ≤ ph ∧ ph < w.start + w.len then some (x - ph + w.start + w.len) else none

/-- R324: position of the next opening of a window from position `x` on; `x` itself while it is open. -/
def windowOpen (x : Nat) (w : BusWindow) : Nat :=
  let ph := x % 2 ^ 32
  if w.start ≤ ph ∧ ph < w.start + w.len then x
  else if ph < w.start then x - ph + w.start else x - ph + 2 ^ 32 + w.start

/-- Whether a frame that ends at cycle `t` ends GUARD before the predicted cycle of a position. -/
def endsBefore (s : State) (n t pos : Nat) : Bool :=
  match predictPos s (s.fld (aCan n 0x0BC) 0 20) pos with
  | none => true
  | some c => decide (t + s.fld (aCan n 0x0B8) 0 16 ≤ c)

/-- R324: whether a message may start at cycle `f`, and the position at which the window that admits it closes. -/
def windowAllows (s : State) (n : Nat) (p : CanPend) (f : Nat) : Bool × Option Nat :=
  let c := s.can n
  if !s.bitAt (aCan n 0x0B4) 0 then (true, none)
  else
    let x := posAt s f
    let t := f + tMax s n p
    if p.msg.wclass = 0 then
      ((windowList c).all (fun w => !w.excl || endsBefore s n t (windowOpen x w))
        && (installing c).all (fun w => !w.excl || endsBefore s n t (x - x % 2 ^ 32 + 2 ^ 32 + w.start)), none)
    else
      match (windowList c).findSome? (fun w => if w.cls = p.msg.wclass then windowClose x w else none) with
      | some close => (endsBefore s n t close, some close)
      | none => (false, none)

/-! ### Buffers (R316 to R319) -/

/-- TXORD. -/
def txOrd (s : State) (n : Nat) : Bool := s.bitAt (aCan n 0x040) 3

/-- Order of two messages: the key and the sequence number, or the sequence number alone. -/
def pendKey (ord : Bool) (p : CanPend) : Nat := if ord then p.seq else p.key * 2 ^ 32 + p.seq

/-- A buffer by its number. -/
def getBuf (c : CanChan) (b : Nat) : Option CanBuf := if b = 0 then c.buf0 else if b = 1 then c.buf1 else c.buf2

/-- The channel with a buffer changed. -/
def putBuf (c : CanChan) (b : Nat) (x : Option CanBuf) : CanChan :=
  if b = 0 then { c with buf0 := x } else if b = 1 then { c with buf1 := x } else { c with buf2 := x }

/-- A buffer filled 64 cycles after a write or a release, and ready 200 cycles later. -/
def newBuf (now : Nat) (p : CanPend) : CanBuf := { p := p, readyAt := now + 264 }

/-- The unlocked buffer with the least urgent message. -/
def worstBuf (ord : Bool) (c : CanChan) : Option (Nat × CanBuf) :=
  leastBy (fun x => 2 ^ 80 - pendKey ord x.2.p)
    ([0, 1, 2].filterMap (fun b => match getBuf c b with | some x => if x.locked then none else some (b, x) | none => none))

/-- R317, R319: a message takes a free buffer, a swapped buffer, or a place in the list. -/
def placeMsg (s : State) (n : Nat) (p : CanPend) : State :=
  let c := s.can n
  match [0, 1, 2].find? (fun b => (getBuf c b).isNone) with
  | some b => s.setCan n (putBuf c b (some (newBuf s.cclk p)))
  | none =>
    if txOrd s n then s.setCan n { c with pend := c.pend ++ [p] }
    else
      match worstBuf false c with
      | some (b, x) =>
        if p.key < x.p.key then
          (s.setCan n (putBuf { c with pend := c.pend ++ [x.p] } b (some (newBuf s.cclk p)))).bump (aCanCnt n 9)
        else s.setCan n { c with pend := c.pend ++ [p] }
      | none => s.setCan n { c with pend := c.pend ++ [p] }

/-- R317: a released buffer takes the most urgent entry of the list. -/
def refillBuf (s : State) (n b : Nat) : State :=
  let c := putBuf (s.can n) b none
  match leastBy (pendKey (txOrd s n)) c.pend with
  | none => s.setCan n c
  | some p => s.setCan n (putBuf { c with pend := c.pend.erase p } b (some (newBuf s.cclk p)))

/-- The locked buffer. -/
def lockedBuf (c : CanChan) : Option (Nat × CanBuf) :=
  [0, 1, 2].findSome? (fun b => match getBuf c b with | some x => if x.locked then some (b, x) else none | none => none)

/-- A frame of this channel is on the bus. -/
def onBus (s : State) (n : Nat) : Bool :=
  match lockedBuf (s.can n) with
  | some (_, x) => (match x.sof with | some t => decide (t ≤ s.cclk) | none => false)
  | none => false

/-! ### Events of host messages (R320) -/

/-- A message of a host, not of GWE. -/
def isHostMsg (p : CanPend) : Bool := p.handle.isNone

/-- One transmit event; the oldest is lost when 32 are held. -/
def txEvent (s : State) (n : Nat) (p : CanPend) (status : Nat) (late : Bool) : State :=
  if !isHostMsg p then s
  else
    let c := s.can n
    let full := decide (32 ≤ c.txev.length)
    let l := (if full then c.txev.drop 1 else c.txev) ++ [{ tag := p.msg.tag, status := status, late := late }]
    let t := (s.setCan n { c with txev := l }).raise (pCan n) 2
    if full then t.bump (aCanCnt n 19) else t

/-! ### Authentication (R330 to R332) -/

/-- CMAC input M (Table 10-10). -/
def cmacInput (m : CanMsg) (data : List Byte) (fv : Nat) : List Byte :=
  let xl := decide (m.fmt = 2)
  beBytes 4 (bits m.idw 0 31) ++ [b8 m.fmt] ++ beBytes 2 data.length
    ++ [b8 (if xl then m.sdt else 0), b8 (if xl then m.vcid else 0)] ++ beBytes 4 (if xl then m.af else 0)
    ++ data ++ beBytes 4 fv

/-- MAC of a payload: the first 8 bytes of the CMAC. -/
def busMac (key : List Byte) (m : CanMsg) (data : List Byte) (fv : Nat) : List Byte :=
  (beBytes 16 (Config.cmac key (cmacInput m data fv)).toNat).take 8

/-- A slot that GWE may use for a CMAC (R330, R426). -/
def busKeyOk (s : State) (k : Nat) : Bool :=
  keyValid (s.keySlot k) && ancestorsOk s 4 k && keyPermits s k .gwe true uMAC

/-- What authentication answers a submission: a status of `CAN_TXS_STAT`, or a wait, or the trailer. -/
inductive AuthAns where
  | refused (st : Nat)
  | waits
  | ok (trailer : List Byte)
deriving DecidableEq, Repr

/-- R330, R332: the trailer of a message to be sent. Marks: DEDUCED (log entry 37). -/
def authSend (s : State) (m : CanMsg) : AuthAns :=
  let e := s.auth m.authIdx
  if !busKeyOk s e.key then .refused 5
  else if e.last = 0xFFFFFFFF then .refused 6
  else if e.rsv < e.last + 1 then .waits
  else
    let fv := e.last + 1
    .ok (beBytes 4 fv ++ busMac (s.keySlot e.key).key m (paddedData m 12) fv)

/-- The entry after an FV has been used. -/
def authUsed (s : State) (n i : Nat) : State :=
  let e := s.auth i
  let warn := (s.reg (aCan 0 0x0EC)).toNat
  let t := s.setAuth i { e with last := e.last + 1 }
  if e.last < warn ∧ warn ≤ e.last + 1 then t.raise (pCan n) 8 else t

/-! ### Requests to the gateway (R340, R364) -/

/-- Table 17-5: after a wake the gateway admits messages from its row on. -/
def gweAwake (s : State) : Bool := s.power.wakeAt.isNone || decide (3 < s.power.wakeRow)

/-- The gateway takes messages: not on a unit in STANDBY (R362), not before the fixups of a takeover or swap (R477), not
while a sleep entry has stopped it, and not with EN = 0. -/
def gweOpen (s : State) : Bool :=
  s.mode != .standby && s.twin.role != .standby && s.twin.taskAt.isNone && gweAwake s && !s.fab.stopped && s.bitAt (regAddr (pGwe 0) 0x040) 0

/-- A controller hands a message to GWE; it enters the queue at cycle `m.at_`. -/
def gweRequest (s : State) (m : GweMsg) : State :=
  if !s.gwe.ready then s.bump (regAddr (pGwe 3) (0x100 + 8 * 18))
  else if !gweOpen s then s
  else { s with gwe := { s.gwe with reqs := s.gwe.reqs ++ [m] } }

end Sys2Proof.Machine
end

