-- ==== Sys2Proof/Machine/Can.lean ====
section
/-!
DEFINITION. The CAN controllers (spec/10_can_and_lin_controllers.md, R310 to R333, R339).
-/
namespace Sys2Proof.Machine
open Sys2Proof

/-! ### Channel modes (R310 to R312) -/

/-- Modes of Table 10-1 by their encoding in REQ. -/
def canModeOf : Nat → CanMode
  | 1 => .normal | 2 => .restricted | 3 => .listenOnly | 4 => .sleep | _ => .config

/-- Modes in which a channel takes part in the bus. -/
def canAwake (m : CanMode) : Bool := m == .normal || m == .restricted || m == .listenOnly

/-- The mode that governs: a channel held by R312 runs in RESTRICTED. -/
def canEff (c : CanChan) : CanMode := if c.sby && c.mode == .normal then .restricted else c.mode

/-- A mode takes effect; on a unit in STANDBY a channel in NORMAL is held in RESTRICTED (R312).
Marks: DEDUCED (log entry 37). -/
def takeMode (s : State) (n : Nat) (m : CanMode) : State :=
  let c := s.can n
  let on := m == .normal && (s.mode == .standby || s.twin.role == .standby)
  s.setCan n { c with
    mode := m, next := none, integrating := none, sby := on
    before := if m == .sleep then c.mode else c.before }

/-- Table 10-1: a commit has set REQ. -/
def canModeCommit (s : State) (n : Nat) : State :=
  let c := s.can n
  let req := canModeOf (s.fld (aCan n 0x040) 0 3)
  match c.mode with
  | .config => if canAwake req then s.setCan n { c with integrating := some req } else s.setCan n { c with integrating := none }
  | .sleep => if req = .sleep then s else s.setCan n { c with integrating := some req }
  | _ => s.setCan n { c with next := if req = c.mode then none else some req }

/-- The device enters SLEEP (Table 17-3): a channel on the bus goes to SLEEP at the next bus idle. -/
def canSleepEntry (s : State) (n : Nat) : State :=
  let c := s.can n
  if canAwake c.mode then s.setCan n { c with next := some .sleep } else s

/-- A wake (Table 10-1): the mode before SLEEP follows bus integration. -/
def canWake (s : State) (n : Nat) : State :=
  let c := s.can n
  if c.mode = .sleep then s.setCan n { c with integrating := some c.before } else s.setCan n { c with next := none }

/-- CAN_BUS_INTEGRATION_DONE (R310). -/
def execCanBusIntegrationDone (n : Nat) (s : State) : Result :=
  ifWf (canOk n)
    (match (s.can n).integrating with
     | some m => takeMode s n m
     | none => s)

/-- The locked buffer returns to the pending list (Table 10-1), and the most urgent entry fills it (R317). -/
def unlockToList (s : State) (n : Nat) : State :=
  let c := s.can n
  match lockedBuf c with
  | some (b, x) => refillBuf (s.setCan n { c with pend := c.pend ++ [x.p] }) n b
  | none => s

/-- R310, R312: bus idle, or the end of the frame on the bus. After a takeover the fixups come first (R477). -/
def modeAtIdle (s : State) (n : Nat) : State :=
  match (s.can n).next with
  | some .config => takeMode (unlockToList s n) n .config
  | some m => takeMode s n m
  | none =>
    let c := s.can n
    if c.sby ∧ s.mode ≠ .standby ∧ s.twin.role ≠ .standby ∧ s.twin.taskAt = none then s.setCan n { c with sby := false } else s

/-- CAN_MODE_AT_IDLE. -/
def execCanModeAtIdle (n : Nat) (s : State) : Result := ifWf (canOk n) (modeAtIdle s n)

/-! ### Error counters (R313) -/

/-- Bus-off entry: a locked buffer is kept, unlocked. -/
def busOff (s : State) (n : Nat) : State :=
  let c := s.can n
  let c := match lockedBuf c with
    | some (b, x) => putBuf c b (some { x with locked := false, sof := none, closePos := none })
    | none => c
  let t := s.setCan n { c with errst := 2, recovering := s.bitAt (aCan n 0x040) 4 }
  ((t.bump (aCanCnt n 5)).raise (pCan n) 3).report 0x14 (unitId 3 n) [] false

/-- The error state that the counters give. Marks: PRESUMED (log entry 36). -/
def settleErrors (s : State) (n : Nat) : State :=
  let c := s.can n
  if c.errst = 2 then s
  else if 255 < c.tec then busOff s n
  else
    let st := if 127 < c.tec ∨ 127 < c.rec_ then 1 else 0
    let t := s.setCan n { c with errst := st }
    if st = 1 ∧ c.errst = 0 then t.raise (pCan n) 4 else t

/-- R313: counters move in NORMAL only, and not in bus-off. -/
def countsErrors (c : CanChan) : Bool := canEff c == .normal && c.errst != 2

/-- What one counted event adds. Marks: PRESUMED (log entry 36). -/
def errorSteps : CanErrKind → Nat × Nat
  | .tx => (8, 0)
  | .rx => (0, 1)
  | .rxPrimary => (0, 8)
  | .dominantRun true => (8, 0)
  | .dominantRun false => (0, 8)

/-- Counter of Table 10-16 that an event of its kind advances: an error as transmitter or as receiver. -/
def errorCnt : CanErrKind → Option Nat
  | .tx => some 3
  | .rx => some 4
  | .rxPrimary => none
  | .dominantRun _ => none

/-- An error on the bus. -/
def busError (s : State) (n : Nat) (k : CanErrKind) : State :=
  let c := s.can n
  if !canAwake c.mode then s
  else
    let t := match errorCnt k with
      | some i => s.bump (aCanCnt n i)
      | none => s
    if !countsErrors c then t
    else settleErrors (t.setCan n { c with tec := c.tec + (errorSteps k).1, rec_ := min 255 (c.rec_ + (errorSteps k).2) }) n

/-- CAN_ERROR. -/
def execCanError (n : Nat) (k : CanErrKind) (s : State) : Result := ifWf (canOk n) (busError s n k)

/-- CAN_BO_RECOVER: recovery of a bus-off channel starts. -/
def execCanBoRecover (w : Who) (n : Nat) (s : State) : Result :=
  ifWf (canOk n)
    (s.write w (aCan n 0x060) 1
      (if (s.can n).errst = 2 then s.setCan n { s.can n with recovering := true } else s))

/-- BUSOFF_RECOVERED. -/
def execBusoffRecovered (n : Nat) (s : State) : Result :=
  ifWf (canOk n)
    (let c := s.can n
     whenever (c.errst == 2 && c.recovering) s
       (s.setCan n { c with errst := 0, tec := 0, rec_ := 0, recovering := false }))

/-! ### Submissions (R316, R320, R330) -/

/-- R316, R320, R330: a header that a submission may not carry. -/
def headerBad (s : State) (m : CanMsg) (host : Bool) : Bool :=
  let len := msgLen m
  m.fmt == 3 || (msgRmt m && m.fmt != 0)
  || (match m.fmt with
      | 0 => decide (8 < len)
      | 1 => decide (64 < len)
      | _ => decide (len < 1 ∨ 2048 < len))
  || (host && bit m.tag 15)
  || (msgAuth m && (m.fmt == 0 || (m.fmt == 1 && decide (64 < len + 12)) || (m.fmt == 2 && decide (2048 < len + 12))
      || (s.auth m.authIdx).rx || !(s.auth m.authIdx).valid))

/-- A message enters the list or a buffer with the next sequence number. -/
def acceptMsg (s : State) (n : Nat) (m : CanMsg) (handle : Option Nat) (trailer : List Byte) : State :=
  let c := s.can n
  placeMsg (s.setCan n { c with seq := c.seq + 1 }) n
    { key := msgKey m, seq := c.seq, msg := m, handle := handle, trailer := trailer }

/-- R339: an authentication entry is invalid after its word has failed twice. -/
def authLoss (s : State) (i : Nat) (m : InjMark) : State :=
  (memLost s m false).setAuth i { s.auth i with valid := false }

/-- R31, R339: the words of an authentication entry are read. -/
def readAuth (s : State) (i : Nat) : State :=
  match memRead s 4 0 none with
  | (t, none) => t
  | (t, some m) => authLoss t i m

/-- The status of a pending write and the state after it (R316, R330). -/
def pendingWrite (s : State) (n : Nat) (x : CanSub) : State × Nat :=
  match x.mac with
  | .refused st => (if st = 6 then s.bump (aCanCnt n 17) else s, st)
  | m =>
    if m = .none_ ∧ headerBad s x.msg x.handle.isNone then (s, 3)
    else if 256 ≤ (s.can n).pend.length then ((s.bump (aCanCnt n 8)).raise (pCan n) 7, 1)
    else if poolFree s < msgBlocks x.msg + s.fld (aCan 0 0x0CC) 0 12 then (s, 2)
    else (acceptMsg s n x.msg x.handle (match m with | .begun tr => tr | _ => []), 0)

/-- R320, R350: the submitter learns the outcome. Marks: DEDUCED (log entry 37). -/
def pendingDone (s : State) (n : Nat) (x : CanSub) (st : Nat) : State :=
  match x.handle with
  | none => s.setReg (aCan n 0x06C) (w32 st)
  | some _ => if st = 0 then s else s.bump (regAddr (pGwe 3) (0x100 + 8 * 7))

/-- A submission of the inbox changed. -/
def setSub (s : State) (n : Nat) (x y : CanSub) : State :=
  let c := s.can n
  s.setCan n { c with inbox := c.inbox.map (fun z => if z == x then y else z) }

/-- A submission whose CMAC is still to begin: one with AUTH = 1 that the header check passes. -/
def macDue (s : State) (x : CanSub) : Bool :=
  msgAuth x.msg && x.mac == .none_ && !headerBad s x.msg x.handle.isNone

/-- R330, R332, R333: the CMAC of a submission begins under the authority that its slot has now, and ends 288 cycles
later; or it waits for its reservation, which counts once. -/
def beginMac (n : Nat) (s : State) (x : CanSub) : State :=
  if !macDue s x then s
  else
    let t := readAuth s x.msg.authIdx
    if !macDue t x then t
    else
      match authSend t x.msg with
      | .refused st => setSub t n x { x with mac := .refused st, at_ := t.cclk }
      | .waits => if x.waited then t else (setSub t n x { x with waited := true }).bump (aCanCnt n 16)
      | .ok tr => authUsed (setSub t n x { x with mac := .begun tr, at_ := t.cclk + 288 }) n x.msg.authIdx

/-- Every CMAC of a channel that can begin does. -/
def beginMacs (s : State) (n : Nat) : State :=
  ((s.can n).inbox.filter (fun x => decide (x.at_ ≤ s.cclk))).foldl (beginMac n) s

/-- R316: the oldest submission that is due and waits for no CMAC makes its pending write.
Marks: DEDUCED (log entry 37). -/
def canPending (s : State) (n : Nat) : State :=
  match (s.can n).inbox.find? (fun x => decide (x.at_ ≤ s.cclk) && !macDue s x) with
  | none => s
  | some x =>
    let (t, st) := pendingWrite s n x
    let d := t.can n
    pendingDone (t.setCan n { d with inbox := d.inbox.erase x }) n x st

/-- CAN_PENDING_WRITE. -/
def execCanPendingWrite (n : Nat) (s : State) : Result := ifWf (canOk n) (canPending s n)

/-- The staged message. -/
def stagedMsg (c : CanChan) : CanMsg :=
  let h := (List.range 4).flatMap (fun i => leBytes 4 (Tab.get (fun _ => (0 : Word)) c.txh i).toNat)
  msgOf h ((List.range 512).flatMap (fun i => leBytes 4 (Tab.get (fun _ => (0 : Word)) c.txd i).toNat))

/-- R320: GO submits the staged message; a unit in STANDBY refuses it. -/
def txsGo (s : State) (n : Nat) : State :=
  let c := s.can n
  if s.mode = .standby then s.setReg (aCan n 0x06C) (w32 4)
  else
    let m := stagedMsg c
    beginMacs ((s.setCan n { c with inbox := c.inbox ++ [{ msg := m, at_ := s.cclk }] }).setReg (aCan n 0x06C)
      (w32 (2 ^ 31))) n

/-- CAN_TXS_GO. -/
def execCanTxsGo (w : Who) (n : Nat) (s : State) : Result := ifWf (canOk n) (s.write w (aCan n 0x068) 1 (txsGo s n))

/-! ### Selection (R318, R324) -/

/-- Buffers that can be selected in a cycle: those ready and not locked (R318). -/
def readyBufs (now : Nat) (c : CanChan) : List (Nat × CanBuf) :=
  [0, 1, 2].filterMap (fun b => match getBuf c b with
    | some x => if decide (x.readyAt ≤ now) && !x.locked then some (b, x) else none
    | none => none)

/-- R324: a held buffer counts once. -/
def countHeld (n f : Nat) (s : State) (x : Nat × CanBuf) : State :=
  let c := s.can n
  if (windowAllows s n x.2.p f).1 || c.nofit.contains x.2.p.seq then s
  else (s.setCan n { c with nofit := x.2.p.seq :: c.nofit }).bump (aCanCnt n 13)

/-- Drop a message whose words failed twice (R339). -/
def parityLoss (s : State) (n b : Nat) (p : CanPend) (m : InjMark) : State :=
  txEvent (refillBuf ((memLost s m false).bump (aCanCnt n 18)) n b) n p 5 false

/-- R318: lock the most urgent ready buffer that its window allows, for a SOF at cycle `f`. -/
def selectBuf (s : State) (n f : Nat) : State :=
  let c := s.can n
  if canEff c ≠ .normal ∨ c.errst = 2 ∨ (lockedBuf c).isSome then s
  else
    let l := readyBufs s.cclk c
    let t := l.foldl (countHeld n f) s
    match leastBy (fun x => pendKey (txOrd s n) x.2.p) (l.filter (fun x => (windowAllows s n x.2.p f).1)) with
    | none => t
    | some (b, x) =>
      match memRead t 4 0 none with
      | (u, some m) => parityLoss u n b x.p m
      | (u, none) =>
        u.setCan n (putBuf (u.can n) b (some { x with
          locked := true, sof := some f, closePos := (windowAllows s n x.p f).2 }))

/-- CAN_SELECTION: the sample point of the third intermission bit; SOF is driven at the end of that bit. -/
def execCanSelection (n : Nat) (s : State) : Result := ifWf (canOk n) (selectBuf s n (s.cclk + afterSample s n))

/-- CAN_BUFFER_READY: with the bus idle, this is a selection point. -/
def execCanBufferReady (n b : Nat) (idle : Option Nat) (s : State) : Result :=
  ifWf (canOk n && decide (b < 3))
    (match getBuf (s.can n) b with
     | none => s
     | some x =>
       if s.cclk < x.readyAt ∨ x.ready then s
       else
         let t := s.setCan n (putBuf (s.can n) b (some { x with ready := true }))
         match idle with
         | some d => selectBuf t n (t.cclk + d)
         | none => t)

/-! ### The end of a frame sent -/

/-- CAN_ARB_LOST: the locked buffer takes part in the next selection again. -/
def execCanArbLost (n : Nat) (err : Bool) (s : State) : Result :=
  ifWf (canOk n)
    (match lockedBuf (s.can n) with
     | none => s
     | some (b, x) =>
       let t := s.setCan n (putBuf (s.can n) b (some { x with locked := false, sof := none, closePos := none }))
       if err then t else t.bump (aCanCnt n 2))

/-- The message as it stands on the bus. -/
def sentMsg (p : CanPend) : CanMsg := { p.msg with data := paddedData p.msg p.trailer.length ++ p.trailer }

/-- R309: with SWITCH = 1 the transceiver is in FAST TX or FAST RX mode for the data phase of an XL frame. -/
def fastPhase (s : State) (n : Nat) (tx : Bool) (m : CanMsg) : State :=
  let v := (s.reg (aCan n 0x054)).toNat
  if m.fmt = 2 ∧ bit v 0 ∧ (canEff (s.can n) ≠ .listenOnly ∨ tx) then
    s.emit (.canFast n tx (bits v 4 8) (bits v 12 8) (bits v 20 8))
  else s

/-- R317: TX_OK. -/
def txOk (s : State) (n b : Nat) (x : CanBuf) : State :=
  let s := fastPhase s n true x.p.msg
  let c := s.can n
  let t := s.setCan n { c with tec := c.tec - 1, nofit := c.nofit.erase x.p.seq }
  let t := (t.emit (.can n (sentMsg x.p))).bump (aCanCnt n 1)
  settleErrors (txEvent (refillBuf t n b) n x.p 0 x.late) n

/-- CAN_TX_OK. -/
def execCanTxOk (n : Nat) (s : State) : Result :=
  ifWf (canOk n)
    (match lockedBuf (s.can n) with
     | some (b, x) => if onBus s n then txOk s n b x else s
     | none => s)

/-- CAN_WINDOW_OVERRUN (R325). -/
def execCanWindowOverrun (n : Nat) (s : State) : Result :=
  ifWf (canOk n)
    (match lockedBuf (s.can n) with
     | none => s
     | some (b, x) =>
       match x.closePos with
       | none => s
       | some p =>
         if !onBus s n || !reachedAt p s.pos.toNat then s
         else
           (((s.setCan n (putBuf (s.can n) b (some { x with closePos := none }))).bump (aCanCnt n 14)).raise (pCan n) 6).report
             0x13 (unitId 3 n) [] false)

/-! ### Cancelling (R321, R322) -/

/-- A cancel request of a host. -/
def askCancel (s : State) (n : Nat) (x : CanCancel) : State :=
  let c := s.can n
  s.setCan n { c with cancels := c.cancels ++ [x] }

/-- CAN_CANCEL_TAG. -/
def execCanCancelTag (w : Who) (n tag : Nat) (s : State) : Result :=
  ifWf (canOk n && decide (tag < 2 ^ 16)) (s.write w (aCan n 0x064) (w32 tag) (askCancel s n { all := false, tag := tag }))

/-- CAN_CANCEL_ALL. -/
def execCanCancelAll (w : Who) (n : Nat) (s : State) : Result :=
  ifWf (canOk n) (s.write w (aCan n 0x064) (w32 (2 ^ 16)) (askCancel s n { all := true, tag := 0 }))

/-- A request names a message. -/
def cancels (l : List CanCancel) (p : CanPend) : Bool :=
  l.any (fun x => x.gwe != isHostMsg p && (x.all || x.tag == p.msg.tag))

/-- Bits of the arbitration field with SOF, most significant first. -/
def arbBits (m : CanMsg) : List Bool :=
  let id (hi n : Nat) : List Bool := (List.range n).map (fun i => bit m.idw (hi - i))
  let rtr := m.fmt == 0 && msgRmt m
  [false] ++ id 28 11 ++ (if msgIde m then [true, true] ++ id 17 18 ++ [rtr] else [rtr])

/-- Bits that the bus carries for a list, stuff bits included but for one after the last bit: run of equal bits and
its level so far. -/
def stuffed : List Bool → Nat → Bool → Nat
  | [], _, _ => 0
  | b :: rest, run, last =>
    if run = 5 then (if b = !last then 2 + stuffed rest 2 b else 2 + stuffed rest 1 b)
    else if b = last then 1 + stuffed rest (run + 1) b
    else 1 + stuffed rest 1 b

/-- R321: cycle of the sample point of the last bit of the arbitration field. -/
def lastArbSample (s : State) (n sof : Nat) (m : CanMsg) : Nat :=
  sof + stuffed (arbBits m) 0 true * tNom s n - afterSample s n

/-- A message reports CANCELLED. -/
def cancelled (s : State) (n : Nat) (p : CanPend) : State := txEvent (s.bump (aCanCnt n 10)) n p 1 false

/-- R321 for the message of one buffer. -/
def cancelBuf (l : List CanCancel) (n : Nat) (s : State) (b : Nat) : State :=
  match getBuf (s.can n) b with
  | none => s
  | some x =>
    if !cancels l x.p then s
    else
      match x.locked, x.sof with
      | true, some f =>
        if s.cclk < f then cancelled (refillBuf s n b) n x.p
        else if s.cclk ≤ lastArbSample s n f x.p.msg then
          let t := cancelled (refillBuf s n b) n x.p
          t.setCan n { t.can n with withdrawn := true }
        else if x.late then s
        else (s.setCan n (putBuf (s.can n) b (some { x with late := true }))).bump (aCanCnt n 11)
      | _, _ => cancelled (refillBuf s n b) n x.p

/-- R321: one sample point. -/
def cancelSample (s : State) (n : Nat) : State :=
  let c := s.can n
  let l := c.cancels
  let gone := c.pend.filter (cancels l)
  let t := s.setCan n { c with cancels := [], pend := c.pend.filter (fun p => !cancels l p) }
  let t := gone.foldl (fun t p => cancelled t n p) t
  [0, 1, 2].foldl (cancelBuf l n) t

/-- CAN_CANCEL_SAMPLE. -/
def execCanCancelSample (n : Nat) (s : State) : Result := ifWf (canOk n) (cancelSample s n)

/-- CAN_CANCEL_ABORT (R322): no other node continued a withdrawn frame, and a stuff error follows. -/
def execCanCancelAbort (n : Nat) (s : State) : Result :=
  ifWf (canOk n)
    (whenever (s.can n).withdrawn s
      (busError ((s.setCan n { s.can n with withdrawn := false }).bump (aCanCnt n 12)) n .rx))

/-! ### Reads that pop (R320, R328) -/

/-- A read of `CAN_TXEV`. -/
def txevRead (s : State) (w : Who) (n : Nat) : State :=
  let c := s.can n
  match c.txev with
  | [] => s.emit (.read w.m (aCan n 0x070) 0)
  | e :: rest =>
    (s.setCan n { c with txev := rest }).emit
      (.read w.m (aCan n 0x070) (w32 (e.tag + e.status * 2 ^ 16 + b2n e.late * 2 ^ 24 + 2 ^ 31)))

/-- CAN_TXEV_READ. -/
def execCanTxevRead (w : Who) (n : Nat) (s : State) : Result :=
  ifWf (canOk n) (s.readOnce w (aCan n 0x070) (txevRead s w n))

/-- A queue of a channel. -/
def rxq (c : CanChan) (q : Nat) : List CanRx := if q = 0 then c.rxq0 else c.rxq1

/-- The channel with a queue changed. -/
def putRxq (c : CanChan) (q : Nat) (l : List CanRx) : CanChan := if q = 0 then { c with rxq0 := l } else { c with rxq1 := l }

/-- Words of a byte list put into consecutive registers. -/
def putWords (a k : Nat) (bs : List Byte) (s : State) : State :=
  (List.range k).foldl (fun t i => t.setReg (a + 4 * i) (w32 (leAt bs (4 * i) 4))) s

/-- The bytes of a queue entry (Table 10-4); the first pool block is a free value, since the spec does not say which
block a message takes. -/
def rxEntryBytes (blk : Nat) (e : CanRx) : List Byte :=
  leBytes 2 (blk % 2112) ++ [b8 (e.filter % 64), b8 (b2n e.ovr)] ++ leBytes 4 e.ptpNs ++ leBytes 2 e.ptpSec ++ [0, 0]
    ++ leBytes 4 e.phase

/-- R339: a received message whose words failed twice is discarded. -/
def rxLoss (s : State) (n q : Nat) (e : CanRx) (m : InjMark) : State :=
  ((memLost s m false).setCan n (putRxq (s.can n) q ((rxq (s.can n) q).erase e))).bump (aCanCnt n 18)

/-- R31, R339: the words of the oldest entry of a queue are read. -/
def readRxq (s : State) (n q : Nat) : State :=
  match rxq (s.can n) q with
  | [] => s
  | e :: _ =>
    match memRead s 4 0 none with
    | (t, none) => t
    | (t, some m) => rxLoss t n q e m

/-- R328: a read of a pop register. -/
def rxqPop (s : State) (w : Who) (n q : Nat) : State :=
  let s := readRxq s n q
  let c := s.can n
  let a := aCan n (0x07C + 4 * q)
  match rxq c q with
  | [] => s.emit (.read w.m a 0)
  | e :: rest =>
    let t := (s.setCan n (putRxq c q rest)).tick1
    let t := putWords (aCan n 0x084) 4 (rxEntryBytes (Config.freeNat s.free) e) t
    let t := putWords (aCan n 0x094) 4 (headerBytes e.msg) t
    (putWords (aCan n 0x800) 512 e.msg.data t).emit (.read w.m a (w32 (2 ^ 31)))

/-- CAN_RXQ_POP. -/
def execCanRxqPop (w : Who) (n q : Nat) (s : State) : Result :=
  ifWf (canOk n && twoOk q) (s.readOnce w (aCan n (0x07C + 4 * q)) (rxqPop s w n q))

/-! ### Receiving (R327 to R331) -/

/-- R327: the lowest filter that matches. -/
def filterHit (s : State) (n : Nat) (m : CanMsg) : Option Nat :=
  (List.range 64).find? (fun f =>
    let r (o : Nat) : Nat := (s.reg (aCan n (0x200 + 0x10 * f + o))).toNat
    bit (r 8) 0 && bits ((m.idw ^^^ r 0) &&& r 4) 0 31 == 0)

/-- R331: the check of a received frame against entry `i`: the message without its trailer, when it passes. -/
def authReceive (s : State) (i : Nat) (m : CanMsg) : Option (CanMsg × Nat) :=
  let e := s.auth i
  let n := m.data.length
  let body := m.data.take (n - 12)
  let fv := beAt m.data (n - 12) 4
  if 12 ≤ n ∧ e.valid ∧ busKeyOk s e.key ∧ e.last < fv ∧ fv - e.last ≤ (s.reg (aCan 0 0x0E8)).toNat
      ∧ slice m.data (n - 8) 8 = busMac (s.keySlot e.key).key m body fv then
    some ({ m with data := body, idw := m.idw ||| 2 ^ 31 }, fv)
  else none

/-- R331: a frame that fails its authentication. -/
def authFails (s : State) (n : Nat) : State :=
  ((s.bump (aCanCnt n 15)).raise (pCan n) 5).report 0x15 (unitId 3 n) [] false

/-- PTP time, position and filter of a received message, as its queue entry holds them. The position of an SOF
older than the spans that are kept is a free value. Marks: DEDUCED (log entry 37). -/
def rxEntry (s : State) (n : Nat) (m : CanMsg) (f sof : Nat) : CanRx :=
  let t := timeAt s (s.fld (aCan n 0x040) 7 1) (s.cclk - sof)
  { msg := m, filter := f, ovr := false, ptpNs := timeNs t, ptpSec := timeSec t % 2 ^ 16,
    phase := if accKept s (s.cclk - sof) then accAt s (s.cclk - sof) / 2 ^ 24 % 2 ^ 32 else Config.freeNat s.free % 2 ^ 32 }

/-- R328: a message goes to queue `q`. -/
def queueRx (s : State) (n q : Nat) (e : CanRx) : State :=
  let c := s.can n
  let l := rxq c q
  let lvl := s.fld (aCan n 0x074) (8 + 8 * q) 6
  if l.length < 64 then
    let t := s.setCan n (putRxq c q (l ++ [e]))
    if lvl ≤ l.length + 1 then t.raise (pCan n) q else t
  else if s.bitAt (aCan n 0x074) q then
    (s.setCan n (putRxq c q (l.drop 1 ++ [{ e with ovr := true }]))).bump (aCanCnt n 6)
  else s.bump (aCanCnt n 6)

/-- R327, R329: a message is written, and its route request goes to GWE. Marks: DEDUCED (log entry 37). -/
def storeRx (s : State) (n : Nat) (x : CanIn) (m : CanMsg) : State :=
  if poolFree s < msgBlocks m then s.bump (aCanCnt n 7)
  else
    let t := if x.dest = 1 ∨ x.dest = 2 then queueRx s n (x.dest - 1) { x.e with msg := m } else s
    gweRequest t { kind := .can, src := n, msg := m, at_ := s.cclk, epoch := 0, ptpSec := x.sec, ptpNs := x.ns }

/-- R331: a received message reaches its write cycle; with an entry, the CMAC check has ended. -/
def writeRx (n : Nat) (s : State) (x : CanIn) : State :=
  let c := s.can n
  let t := s.setCan n { c with rxIn := c.rxIn.erase x }
  match x.auth with
  | none => storeRx t n x x.e.msg
  | some i =>
    let t := readAuth t i
    match authReceive t i x.e.msg with
    | none => authFails t n
    | some (m, fv) => storeRx (t.setAuth i { t.auth i with last := fv }) n x m

/-- Every message of a channel whose write cycle has come is written. -/
def writesRx (s : State) (n : Nat) : State :=
  ((s.can n).rxIn.filter (fun x => decide (x.at_ ≤ s.cclk))).foldl (writeRx n) s

/-- What a channel does in a cycle of its own. -/
def canCycleDue (s : State) (n : Nat) : State := beginMacs (writesRx s n) n

/-- ISO 11898-1: REC after a frame received without error; the value after a REC above 127 is one of 119 to 127.
Marks: PRESUMED (log entry 36). -/
def recAfterOk (s : State) (c : CanChan) : Nat :=
  if 127 < c.rec_ then 119 + Config.freeNat s.free % 9 else c.rec_ - 1

/-- A frame is valid. -/
def countRx (s : State) (n : Nat) : State :=
  let c := s.can n
  let t := s.bump (aCanCnt n 0)
  if countsErrors c then
    settleErrors ((if 127 < c.rec_ then t.tick1 else t).setCan n { c with rec_ := recAfterOk s c }) n
  else t

/-- R329: a valid frame waits for its filters, 160 cycles from its sample point, or 448 with authentication. The index
that an unmatched frame's entry shows is a free value. Marks: DEDUCED (log entry 37). -/
def takeRx (s : State) (n : Nat) (m : CanMsg) (f : Option Nat) (dest : Nat) (auth : Option Nat) (sof : Nat) : State :=
  let g := timeAt s (s.fld (regAddr (pGwe 0) 0x040) 1 1) (s.cclk - sof)
  let x : CanIn := { e := rxEntry s n m (f.getD (Config.freeNat (s.free + 1))) sof, dest := dest, auth := auth
                     at_ := s.cclk + (if auth.isSome then 448 else 160), sec := timeSec g, ns := timeNs g }
  let t := s.setCan n { s.can n with rxIn := (s.can n).rxIn ++ [x] }
  if f.isSome ∧ accKept s (s.cclk - sof) then t else t.tick1.tick1

/-- R327: a frame becomes valid. -/
def canReceive (s : State) (n : Nat) (m : CanMsg) (sof : Nat) : State :=
  if !canAwake (s.can n).mode then s
  else
    let t := fastPhase (countRx s n) n false m
    match filterHit t n m with
    | none => takeRx t n m none (t.fld (aCan n 0x040) 5 2) none sof
    | some f =>
      let c := (t.reg (aCan n (0x208 + 0x10 * f))).toNat
      let i := bits c 4 10
      takeRx t n m (some f) (bits c 1 2) (if bit c 3 && (t.auth i).rx then some i else none) sof

/-- CAN_FRAME_RECEIVED. -/
def execCanFrameReceived (n : Nat) (msg : CanMsg) (sof : Nat) (s : State) : Result := ifWf (canOk n) (canReceive s n msg sof)

/-! ### Authentication entries (R53, R332) -/

/-- CAN_AUTH_SET: bytes 0 and 1 of the indexed entry become a pending shadow, keyed above BAR0 by the entry. -/
def authShadow (i : Nat) : Nat := 0x1100000 + 4 * i

/-- R53: an accepted write of `CAN_AUTH_SET`: a shadow of the entry that `CAN_AUTH_IDX` names. -/
def authSet (s : State) (w : Who) (val : Word) : State :=
  let i := s.fld (aCan 0 0x0D0) 0 10
  let e := s.auth i
  let now := w32 (e.key + b2n e.rx * 2 ^ 14 + b2n e.valid * 2 ^ 15)
  let old := match s.shadowOf (authShadow i) with | some x => x.val | none => now
  (s.putShadow { off := authShadow i, val := val &&& 0xC3FF, writer := w.m }).silt_ old (val &&& 0xC3FF)
    (originOf w.m) 1 0 (aCan 0 0x0D4 / 4)

/-- CAN_AUTH_SET. -/
def execCanAuthSet (w : Who) (val : Word) (s : State) : Result :=
  .next (s.write w (aCan 0 0x0D4) val (authSet s w val))

/-- An authentication entry takes committed bytes 0 and 1. Marks: DEDUCED (log entry 37). -/
def authCommit (s : State) (i : Nat) (v : Word) : State :=
  let x := v.toNat
  let e := s.auth i
  let k := bits x 0 10
  s.setAuth i { e with key := k, rx := bit x 14, valid := bit x 15, gen := (s.keySlot k).gen,
                       last := if bit x 14 then e.last else Tab.get (fun _ => 0) s.nvm.fvRsv i,
                       rsv := Tab.get (fun _ => 0) s.nvm.fvRsv i }

/-- R332: the reservation is written to NVM, then takes effect. -/
def raiseAuthRsv (s : State) (i : Nat) : State :=
  let e := s.auth i
  let r := min 0xFFFFFFFF (e.rsv + 2 ^ 16)
  { (s.setAuth i { e with rsv := r }) with nvm := { s.nvm with fvRsv := Tab.set (fun _ => 0) s.nvm.fvRsv i r } }

/-- A raise is due: a transmit entry whose RSV is less than 2^15 ahead of LAST. -/
def rsvDue (e : AuthEntry) : Bool := e.valid && !e.rx && decide (e.rsv < e.last + 2 ^ 15) && decide (e.rsv < 0xFFFFFFFF)

/-- AUTH_RSV_RAISE. -/
def execAuthRsvRaise (i : Nat) (s : State) : Result :=
  ifWf (decide (i < 1024)) (whenever (rsvDue (s.auth i)) s (raiseAuthRsv s i))

end Sys2Proof.Machine
end

