-- ==== Sys2Proof/Machine/Lin.lean ====
section
/-!
DEFINITION. The LIN controllers (spec/10_can_and_lin_controllers.md, R334 to R338). LIN_WAKE_DETECT stands with the
wake events, in `Machine/Wake.lean`.
-/
namespace Sys2Proof.Machine
open Sys2Proof

/-- BAR0 offset of a register of a LIN page. -/
def aLin (n off : Nat) : Nat := regAddr (pLin n) off

/-- BAR0 offset of counter `k` of Table 10-18. -/
def aLinCnt (n k : Nat) : Nat := aLin n (0x100 + 8 * k)

/-- BAR0 offset of frame table entry `f`. -/
def aFt (n f : Nat) : Nat := aLin n (0x400 + 0x10 * f)

/-- A LIN channel. -/
def State.lin (s : State) (n : Nat) : LinChan := Tab.get (fun _ => {}) s.buses.lin n

/-- The state with a LIN channel changed. -/
def State.setLin (s : State) (n : Nat) (c : LinChan) : State :=
  { s with buses := { s.buses with lin := Tab.set (fun _ => {}) s.buses.lin n c } }

/-! ### The frame table (Table 10-12) -/

/-- DIR. -/
def ftDir (s : State) (n f : Nat) : Nat := s.fld (aFt n f) 0 2
/-- LEN. -/
def ftLen (s : State) (n f : Nat) : Nat := s.fld (aFt n f) 4 4
/-- DATA. -/
def ftData (s : State) (n f : Nat) : List Byte :=
  (leBytes 4 (s.reg (aFt n f + 4)).toNat ++ leBytes 4 (s.reg (aFt n f + 8)).toNat).take (ftLen s n f)

/-- DATA written: the bytes given, the others kept. -/
def setFtData (s : State) (n f : Nat) (d : List Byte) : State :=
  let all := putBytes (leBytes 4 (s.reg (aFt n f + 4)).toNat ++ leBytes 4 (s.reg (aFt n f + 8)).toNat) 0 d
  (s.setReg (aFt n f + 4) (w32 (leAt all 0 4))).setReg (aFt n f + 8) (w32 (leAt all 4 4))

/-- R381: PTP_NS of a send or a reception in cycle `t`, in the domain of `PTP_CFG.HOST_DOMAIN`. -/
def stampFt (s : State) (n f t : Nat) : State :=
  s.setReg (aFt n f + 0xC) (w32 (timeNs (timeAt s (s.fld (regAddr pPtp 0x040) 0 1) t)))

/-- Bytes of the response of another node to frame `f`. -/
def responseLen (s : State) (n f : Nat) : Nat := if ftDir s n f = 2 then ftLen s n f else 8

/-! ### Frames on the bus -/

/-- Bit time in cycles. -/
def linBit (s : State) (n : Nat) : Nat := divOpen 1000000000 (s.fld (aLin n 0x040) 16 16)

/-- The protected ID of a frame (ISO 17987). Marks: PRESUMED (log entry 38). -/
def protectedId (f : Nat) : Nat :=
  let b (i : Nat) : Bool := bit f i
  f % 64 + b2n (b 0 ^^ b 1 ^^ b 2 ^^ b 4) * 64 + b2n (!(b 1 ^^ b 3 ^^ b 4 ^^ b 5)) * 128

/-- Checksum with carry, inverted (ISO 17987). -/
def linSum (init : Nat) (d : List Byte) : Nat :=
  255 - d.foldl (fun a b => let x := a + b.toNat; if 255 < x then x - 255 else x) init

/-- The checksum of a frame: enhanced over the protected ID, too; classic for the diagnostic frames.
Marks: PRESUMED (log entry 38). -/
def linChecksum (enh : Bool) (f : Nat) (d : List Byte) : Nat := linSum (if enh && decide (f < 0x3C) then protectedId f else 0) d

/-- The data of a go-to-sleep command. -/
def gotoSleepData : List Byte := 0 :: List.replicate 7 0xFF

/-- Cycles of a header. -/
def headerTime (s : State) (n : Nat) : Nat := (s.fld (aLin n 0x044) 0 5 + 21) * linBit s n

/-- The channel drives the bus: not on a unit in STANDBY (R338), nor before the fixups of a takeover or swap (R477).
Marks: PRESUMED (log entry 38). -/
def linDrives (s : State) : Bool :=
  s.mode != .standby && s.mode != .quarantine && !asleep s.mode && s.twin.role != .standby && s.twin.taskAt.isNone

/-- A response that the channel itself sends, from cycle `t` on. -/
def linSend (s : State) (n f : Nat) (d : List Byte) (enh : Bool) (t bitTime : Nat) (hdr : List Byte) : State :=
  let c := s.lin n
  let done := t + 10 * (d.length + 1) * bitTime
  (s.setLin n { c with await := none, busyUntil := done, lastAt := done, sending := some (done, false) }).emit
    (.lin n (hdr ++ d ++ [b8 (linChecksum enh f d)]))

/-- A publish entry's response: UPD is cleared and PTP_NS written. -/
def linPublish (s : State) (n f t bitTime : Nat) (hdr : List Byte) : State :=
  match memRead s 4 0 none with
  | (u, some m) => (memLost u m false).bump (aLinCnt n 8)
  | (u, none) => stampFt ((linSend u n f (ftData u n f) (u.bitAt (aFt n f) 2) t bitTime hdr).setBitAt (aFt n f) 3 false) n f t

/-- A response of another node is awaited from cycle `t` on. -/
def linAwait (s : State) (n f t bitTime : Nat) : State :=
  s.setLin n { s.lin n with await := some (f, t, bitTime), lastAt := t,
                            busyUntil := t + ceilDiv (14 * 10 * (responseLen s n f + 1) * bitTime) 10 }

/-- The response to a header, by DIR; a frame 0x3C is always heard, for its go-to-sleep command. -/
def linRespond (s : State) (n f t bitTime : Nat) (hdr : List Byte) : State :=
  match ftDir s n f with
  | 1 => if linDrives s then linPublish s n f t bitTime hdr else s
  | 2 => linAwait (if hdr.isEmpty then s else s.emit (.lin n hdr)) n f t bitTime
  | _ =>
    let s := if hdr.isEmpty then s else s.emit (.lin n hdr)
    if f = 0x3C then linAwait s n f t bitTime else s.setLin n { s.lin n with lastAt := t }

/-- R338: the channel enters SLEEP. Marks: PRESUMED (log entry 38). -/
def linSleeps (s : State) (n : Nat) : State := s.setLin n { s.lin n with mode := .sleep, await := none }

/-- The header of a frame, as bytes: the sync byte and the protected ID follow the break. -/
def headerOf (f : Nat) : List Byte := [0x55, b8 (protectedId f)]

/-! ### The schedule (R335, R336) -/

/-- Schedule entry `i` of the list in effect. -/
def schEntry (s : State) (n i : Nat) : Nat :=
  let c := s.lin n
  (Tab.get (fun _ => (0 : Word)) c.sch (64 * c.bank + i)).toNat

/-- START of an entry as a PHASE. -/
def schStart (v : Nat) : Nat := bits v 8 24 * 256

/-- Cycle in which the entry after `i` reaches its START, as predicted; none when it is not reached. -/
def nextStart (s : State) (n i : Nat) : Option Nat :=
  let c := s.lin n
  let base := s.pos.toNat - s.phase
  predictPos s 0 (if i + 1 < c.len then base + schStart (schEntry s n (i + 1))
                  else base + 2 ^ 32 + schStart (schEntry s n 0))

/-- The frame of an entry starts in cycle `t`. -/
def linStart (s : State) (n v t : Nat) : State :=
  let f := bits v 0 6
  let h := headerTime s n
  match bits v 6 2 with
  | 2 =>
    let u := linSend s n 0x3C gotoSleepData false (t + h) (linBit s n) (headerOf 0x3C)
    u.setLin n { u.lin n with sending := (u.lin n).sending.map (fun x => (x.1, true)) }
  | _ => linRespond s n f (t + h) (linBit s n) (headerOf f)

/-- The entry that is run: the listed one, or go-to-sleep while a sleep entry with LIN_GTS = 1 is past its stop
(Table 17-3). -/
def linRuns (s : State) (n i : Nat) : Nat :=
  if s.fab.stopped ∧ s.bitAt (regAddr pPwr 0x044) 16 then 2 * 2 ^ 6 else schEntry s n i

/-- R335, R336: an entry reaches its START; `next` is the cycle in which the entry after it does. -/
def linTakes (s : State) (n v : Nat) (next : Option Nat) : State :=
  let c := s.lin n
  if bits v 6 2 = 1 ∧ !s.bitAt (aFt n (bits v 0 6)) 3 then s
  else if c.busyUntil ≤ s.cclk then linStart s n v s.cclk
  else
    let t := c.busyUntil + linBit s n
    match next with
    | some u => if u ≤ t then s.bump (aLinCnt n 6) else (linStart s n v t).bump (aLinCnt n 5)
    | none => (linStart s n v t).bump (aLinCnt n 5)

/-- Entry `i` of the list reaches its START. -/
def linEntry (s : State) (n i : Nat) : State :=
  linTakes (s.setLin n { s.lin n with entry := i, next := i + 1 }) n (linRuns s n i) (nextStart s n i)

/-- R84, R85: an entry whose START the position passed together with the boundary. -/
def linPassed (s : State) (n : Nat) (x : Nat × Option Nat) : State :=
  linTakes (s.setLin n { s.lin n with passed := (s.lin n).passed.drop 1 }) n x.1
    (match x.2 with
     | some p => predictPos s 0 p
     | none => none)

/-- A response of the channel's own has ended: counted, and after go-to-sleep the channel sleeps (R338). -/
def linSent (s : State) (n : Nat) : State :=
  match (s.lin n).sending with
  | none => s
  | some (t, sleep) =>
    if s.cclk < t then s
    else
      let u := (s.setLin n { s.lin n with sending := none }).bump (aLinCnt n 0)
      if sleep then linSleeps u n else u

/-- R351: a LIN leg writes DATA; a payload shorter than the entry's LEN is dropped. -/
def linLegWrite (s : State) (x : LinLeg) : State :=
  let len := ftLen s x.chan x.fid
  if x.data.length < len then s.bump (regAddr (pGwe 3) (0x100 + 8 * 8))
  else (setFtData s x.chan x.fid (x.data.take len)).setBitAt (aFt x.chan x.fid) 3 true

/-- R351: DATA writes of LIN legs that are due, after the responses that have ended. Marks: PRESUMED (log entry 38). -/
def linSettle (s : State) : State :=
  let s := (List.range 8).foldl linSent s
  let due := s.gwe.linLegs.filter (fun x => decide (x.at_ ≤ s.cclk))
  due.foldl linLegWrite
    { s with gwe := { s.gwe with linLegs := s.gwe.linLegs.filter (fun x => decide (s.cclk < x.at_)) } }

/-- A commander runs its schedule. -/
def linCommands (s : State) (n : Nat) : Bool :=
  (s.lin n).mode == .normal && s.bitAt (aLin n 0x040) 2 && linDrives s

/-- The entry whose START the position has reached. -/
def linDue (s : State) (n : Nat) : Option Nat :=
  let c := s.lin n
  if c.next < c.len ∧ schStart (schEntry s n c.next) ≤ s.phase then some c.next else none

/-- The schedule's next entry: one that the cycle passed by comes before the one whose START has come. -/
def linSchedule (s : State) (n : Nat) : State :=
  match (s.lin n).passed with
  | x :: _ => linPassed s n x
  | [] => (linDue s n).elim s (linEntry s n)

/-- LIN_SCHEDULE_ENTRY. -/
def execLinScheduleEntry (n : Nat) (s : State) : Result :=
  ifWf (linOk n) (let s := linSettle s; whenever (linCommands s n) s (linSchedule s n))

/-- A committed list takes effect, and the schedule restarts (R108, R326). -/
def linRestart (s : State) (n : Nat) : State :=
  let c := s.lin n
  match c.install with
  | some (b, l) => s.setLin n { c with bank := b, len := l, install := none, next := 0 }
  | none => s.setLin n { c with next := 0 }

/-- Entries of the cycle that ends at the boundary just crossed and that have not been taken, with the position of the
START after each. -/
def linLeft (s : State) (n : Nat) : List (Nat × Option Nat) :=
  let c := s.lin n
  let base := s.cycleNo * 2 ^ 32
  let u := linRestart s n
  if !linCommands s n then []
  else ((List.range c.len).drop c.next).map (fun i => (linRuns s n i,
    if i + 1 < c.len then some ((base + 2 ^ 64 - 2 ^ 32 + schStart (schEntry s n (i + 1))) % 2 ^ 64)
    else if 0 < (u.lin n).len then some (base + schStart (schEntry u n 0)) else none))

/-- R85, R326 at a cycle boundary: the entries passed with it are still to be taken, and the schedule restarts. -/
def linCycle (s : State) (n : Nat) : State :=
  let t := s.setLin n { s.lin n with passed := linLeft s n }
  linRestart t n

/-- R338: after a takeover, or a wake, a commander goes on with the entry whose span covers the present phase: entries
whose START has passed are behind it, but for the last of them. -/
def linResume (s : State) (n : Nat) : State :=
  let c := s.lin n
  let past := (List.range c.len).filter (fun i => decide (schStart (schEntry s n i) ≤ s.phase))
  s.setLin n { c with next := past.length - 1 }

/-! ### Headers and responses (R337) -/

/-- R337: the measured bit time lies within 14 % of the configured one. Marks: PRESUMED (log entry 38). -/
def syncInRange (s : State) (n meas : Nat) : Bool :=
  decide (86 * linBit s n ≤ 100 * meas ∧ 100 * meas ≤ 114 * linBit s n)

/-- LIN_HEADER_RX. -/
def execLinHeaderRx (n pid meas : Nat) (s : State) : Result :=
  ifWf (linOk n && decide (pid < 256))
    (let s := linSettle s
     if (s.lin n).mode ≠ .normal then s
     else if !syncInRange s n meas then s.bump (aLinCnt n 4)
     else if protectedId (pid % 64) ≠ pid then s.bump (aLinCnt n 3)
     else linRespond s n (pid % 64) s.cclk meas [])

/-- A response without error. -/
def linTake (s : State) (n f : Nat) (d : List Byte) : State :=
  let t := (s.setLin n { s.lin n with await := none, busyUntil := s.cclk, lastAt := s.cclk }).bump (aLinCnt n 0)
  let t := if ftDir t n f = 2 then (stampFt (setFtData t n f d) n f t.cclk).raise (pLin n) 0 else t
  let g := (t.dom (t.fld (regAddr (pGwe 0) 0x040) 1 1)).time
  let t := if ftDir t n f = 2 ∧ t.bitAt (aFt n f) 8 then
      gweRequest t { kind := .lin f, src := 24 + n, msg := { idw := f * 2 ^ 18, data := d }, at_ := t.cclk + 160,
                     epoch := 0, ptpSec := timeSec g, ptpNs := timeNs g }
    else t
  if f = 0x3C ∧ d = gotoSleepData then linSleeps t n else t

/-- A response that is missing or incomplete. -/
def linMissing (s : State) (n : Nat) : State :=
  ((s.setLin n { s.lin n with await := none, busyUntil := s.cclk }).bump (aLinCnt n 2)).raise (pLin n) 1

/-- R337: a response arrives. -/
def linReceive (s : State) (n f : Nat) (d : List Byte) (chk : Nat) : State :=
  if d.length ≠ responseLen s n f then linMissing s n
  else if chk ≠ linChecksum (s.bitAt (aFt n f) 2) f d then
    ((s.setLin n { s.lin n with await := none, busyUntil := s.cclk, lastAt := s.cclk }).bump (aLinCnt n 1)).raise (pLin n) 2
  else linTake s n f d

/-- LIN_RESPONSE_RX. -/
def execLinResponseRx (n : Nat) (data : List Byte) (chk : Nat) (s : State) : Result :=
  ifWf (linOk n && decide (data.length ≤ 8) && decide (chk < 256))
    (match (s.lin n).await with
     | some (f, _, _) => linReceive s n f data chk
     | none => s)

/-- LIN_NO_RESPONSE. -/
def execLinNoResponse (n : Nat) (s : State) : Result :=
  ifWf (linOk n)
    (match (s.lin n).await with
     | some (f, t, b) => if 10 * s.cclk < 10 * t + 14 * 10 * (responseLen s n f + 1) * b then s else linMissing s n
     | none => s)

/-! ### Sleep and wake (R338) -/

/-- LIN_IDLE_SLEEP. -/
def execLinIdleSleep (n : Nat) (s : State) : Result :=
  ifWf (linOk n)
    (let k := s.fld (aLin n 0x044) 16 4
     whenever ((s.lin n).mode == .normal && k != 0 && decide ((s.lin n).lastAt + k * 1000000000 ≤ s.cclk)) s (linSleeps s n))

/-- A channel awake again (ISO 17987: a wake-up signal makes a node operational). Marks: PRESUMED (log entry 38). -/
def linAwakes (s : State) (n : Nat) : State :=
  if (s.lin n).mode = .sleep then s.setLin n { s.lin n with mode := .normal, lastAt := s.cclk } else s

/-- LIN_WAKE_TX: a dominant pulse of 1 ms. -/
def execLinWakeTx (w : Who) (n : Nat) (s : State) : Result :=
  ifWf (linOk n) (s.write w (aLin n 0x04C) 1 (linAwakes ((s.emit (.linWake n)).bump (aLinCnt n 7)) n))

/-- A commit has set REQ of a LIN channel. -/
def linModeCommit (s : State) (n : Nat) : State :=
  let c := s.lin n
  match s.fld (aLin n 0x040) 0 2 with
  | 0 => s.setLin n { c with mode := .config, await := none }
  | 1 => s.setLin n { c with mode := .normal, lastAt := if c.mode = .normal then c.lastAt else s.cclk }
  | _ => linSleeps s n

end Sys2Proof.Machine
end

