-- ==== Sys2Proof/Machine/Gateway.lean ====
section
/-!
DEFINITION. The gateway engine: input queue, route stage, legs (spec/11_gateway_engine.md, R340 to R352, R365).
-/
namespace Sys2Proof.Machine
open Sys2Proof

/-- BAR0 offset of counter `k` of Table 11-11. -/
def aGweCnt (k : Nat) : Nat := regAddr (pGwe 3) (0x100 + 8 * k)

/-- RT_STD. -/
def tSTD : Nat := 0x10
/-- RT_LIN. -/
def tRTLIN : Nat := 0x11
/-- HFILT. -/
def tHFILT : Nat := 0x12
/-- HANDLE. -/
def tHANDLE : Nat := 0x13
/-- LEG. -/
def tLEG : Nat := 0x14
/-- OSTREAM. -/
def tOSTR : Nat := 0x15
/-- ISTREAM. -/
def tISTR : Nat := 0x16

/-! ### The input queue (R340, R342) -/

/-- Order of messages that enter in one cycle. -/
def reqKey (m : GweMsg) : Nat :=
  m.at_ * 2 ^ 16 + (match m.kind with
    | .reinject h => h
    | .can => if m.src < 32 then 2 ^ 13 + m.src else 2 ^ 14
    | .lin _ => if m.src < 32 then 2 ^ 13 + m.src else 2 ^ 14)

/-- R340: a message enters the queue, or finds it full. -/
def enqueue (s : State) (m : GweMsg) : State :=
  if 1024 ≤ s.gwe.inq.length then (s.bump (aGweCnt 5)).raise (pGwe 0) 1
  else
    let t := { s with gwe := { s.gwe with inq := s.gwe.inq ++ [m] } }
    if t.fld (regAddr (pGwe 0) 0x04C) 0 11 ≤ t.gwe.inq.length then t.raise (pGwe 0) 0 else t

/-- R342: a bus message takes the epoch in effect; a decapsulated one keeps its frame's. -/
def stampEpoch (s : State) (m : GweMsg) : GweMsg := if m.src < 32 then { m with epoch := s.epoch } else m

/-! ### Tables and the last-value cache (R343, R365) -/

/-- Run state of a handle. -/
def State.hrun (s : State) (h : Nat) : HandleRun := Tab.get (fun _ => {}) s.gwe.run h

/-- The state with the run state of a handle changed. -/
def State.setHrun (s : State) (h : Nat) (r : HandleRun) : State :=
  { s with gwe := { s.gwe with run := Tab.set (fun _ => {}) s.gwe.run h r } }

/-- The last-value cache of a handle. -/
def State.lvc (s : State) (h : Nat) : Lvc := Tab.get (fun _ => {}) s.gwe.lvc h

/-- R365: a table entry that fails in both copies is VALID = 0 until it is written again; which of the entries `ks` that
are read it is is open. -/
def gweLose (s : State) (ks : List Nat) : State :=
  let l := s.tables.ent.filter (fun x => ks.contains x.1)
  match l[Config.freeNat s.free % l.length]? with
  | some x => ({ s with tables := { s.tables with ent := Tab.erase s.tables.ent x.1 } }).tick1
  | none => s.tick1

/-- Entries of a table that are listed. -/
def gweListed (s : State) (t : Nat) : List Nat := (s.tables.ent.map (fun x => x.1)).filter (fun k => k / 2 ^ 20 == t)

/-- R365: a cache entry that fails in both copies holds no value. -/
def lvcLose (s : State) (h : Nat) : State :=
  { s with gwe := { s.gwe with lvc := Tab.set (fun _ => {}) s.gwe.lvc h { s.lvc h with valid := false } } }

/-- R365: a word of any table entry or cache entry is lost; which one is open. -/
def gweLoseAny (s : State) : State :=
  let ks := (s.tables.ent.map (fun x => x.1)).filter (fun k => decide (0x10 ≤ k / 2 ^ 20))
  let i := Config.freeNat s.free % (ks.length + s.gwe.lvc.length)
  match s.gwe.lvc[i]? with
  | some x => (lvcLose s x.1).tick1
  | none => gweLose s ks

/-- R365: one read of the gateway's tables or cache; true when a word was lost in both copies. -/
def gweRead (s : State) : State × Bool :=
  match memRead s 1 0 none with
  | (t, none) => (t, false)
  | (t, some m) =>
    match memRead t 1 1 (some m.addr) with
    | (u, none) => (memRepeated u 1 true, false)
    | (u, some _) =>
      ((((memRepeated u 1 false).bump (aGweCnt 19)).raise (pGwe 0) 3).report 0x09 (unitId 6 0x300) (memDetail m) true, true)

/-! ### Messages enter the queue; re-injection (R340, R346) -/

/-- The message that a handle's cache gives; payload past the 64 bytes that it holds is open. -/
def lvcMsg (s : State) (h at_ : Nat) : GweMsg :=
  let v := s.lvc h
  let more := (List.range (v.count - 64)).map (fun i => b8 (Config.freeNat (s.free + i)))
  { kind := .reinject h, src := v.src, msg := { v.msg with data := v.msg.data ++ more }, at_ := at_, epoch := s.epoch,
    ptpSec := v.ptpSec, ptpNs := v.ptpNs }

/-- R346, R365: the deferred value of a handle is re-injected, once; a cache entry that is lost holds no value. -/
def reinject (s : State) (h : Nat) (m : GweMsg) : State :=
  let r := s.hrun h
  match gweRead (s.setHrun h { r with due := none }) with
  | (t, true) => lvcLose t h
  | (t, false) => enqueue { t with free := t.free + ((s.lvc h).count - 64) } m

/-- A message enters the queue. -/
def gweEnters (s : State) (m : GweMsg) : State :=
  match m.kind with
  | .reinject h => reinject s h m
  | .can => enqueue { s with gwe := { s.gwe with reqs := s.gwe.reqs.erase m } } (stampEpoch s m)
  | .lin _ => enqueue { s with gwe := { s.gwe with reqs := s.gwe.reqs.erase m } } (stampEpoch s m)

/-- Deferred values on their way to the queue. -/
def deferredMsgs (s : State) : List GweMsg :=
  if gweOpen s then s.gwe.run.filterMap (fun x => x.2.due.map (fun d => lvcMsg s x.1 d)) else []

/-- R340: the messages up to a place in the order enter the queue, in that order. -/
def gweTakeTo (k : Nat) : Nat → State → State
  | 0, s => s
  | n + 1, s =>
    match leastBy reqKey ((deferredMsgs s ++ s.gwe.reqs).filter (fun m => decide (reqKey m ≤ k))) with
    | none => s
    | some m => gweTakeTo k n (gweEnters s m)

/-- Messages on their way to the queue. -/
def gweComing (s : State) : Nat := s.gwe.run.length + s.gwe.reqs.length

/-- R340: the next message whose cycle has come, after those that the order puts before it.
Marks: DEDUCED (log entry 39). -/
def gweTake (s : State) : State :=
  match leastBy reqKey (s.gwe.reqs.filter (fun m => decide (m.at_ ≤ s.cclk))) with
  | none => s
  | some m => gweTakeTo (reqKey m) (gweComing s) s

/-- GWE_ENQUEUE. -/
def execGweEnqueue (s : State) : Result := .next (gweTake s)

/-- R346: a handle's deferred value enters the queue, after the messages that the order puts before it. -/
def gweReinjectOp (s : State) (h : Nat) : State :=
  match (s.hrun h).due with
  | none => s
  | some d => if s.cclk < d ∨ !gweOpen s then s else gweTakeTo (reqKey (lvcMsg s h d)) (gweComing s) s

/-- GWE_REINJECT. -/
def execGweReinject (handle : Nat) (s : State) : Result := ifWf (decide (handle < 4096)) (gweReinjectOp s handle)

/-! ### The handle (R343) -/

/-- The ID word that handle filters compare. -/
def filterWord (m : GweMsg) : Nat :=
  match m.kind with
  | .lin f => f * 2 ^ 18
  | _ => bits m.msg.idw 0 30

/-- The message is a LIN frame. -/
def isLinMsg (m : GweMsg) : Bool := match m.kind with | .lin _ => true | .can => false | .reinject _ => false

/-- R343: a handle filter compares. -/
def hfiltHit (m : GweMsg) (v : List Byte) : Bool :=
  let w := filterWord m
  bit (byteAt v 8) 7 && bits (byteAt v 8) 0 6 == m.src && bit (byteAt v 8) 6 == isLinMsg m
  && bits ((w ^^^ leAt v 0 4) &&& leAt v 4 4) 0 30 == 0

/-- R343: the handle that the lowest matching filter gives. -/
def hfiltHandle (s : State) (m : GweMsg) : Option Nat :=
  ((List.range 1024).find? (fun i => hfiltHit m (s.entAt m.epoch tHFILT i))).map (fun i =>
    let v := s.entAt m.epoch tHFILT i
    let w := filterWord m
    let id := if bit w 29 then bits w 0 29 else bits w 18 11
    bits (leAt v 10 2) 0 12 + id % 2 ^ bits (byteAt v 9) 0 4)

/-- R343: the entry of a direct table. -/
def rtHandle (v : List Byte) : Option Nat := if bit (leAt v 0 2) 15 then some (bits (leAt v 0 2) 0 12) else none

/-- R343: the handle of a message. -/
def handleOf (s : State) (m : GweMsg) : Option Nat :=
  match m.kind with
  | .reinject h => some h
  | .lin f => if m.src < 32 then rtHandle (s.entAt m.epoch tRTLIN (64 * (m.src - 24) + f)) else hfiltHandle s m
  | .can =>
    if m.src < 24 ∧ !msgIde m.msg then rtHandle (s.entAt m.epoch tSTD (2048 * m.src + bits m.msg.idw 18 11))
    else hfiltHandle s m

/-! ### Permission, last value, interval (R344 to R346) -/

/-- R344. -/
def permits (h : List Byte) (m : GweMsg) : Bool :=
  let b := byteAt h 0
  let len := msgLen m.msg
  bit b 0 && bit (bits b 1 2) (if m.src < 32 then 0 else 1) && bit (bits b 4 3) m.msg.fmt
  && (!msgRmt m.msg || bit b 3) && decide (bits (leAt h 4 2) 0 12 ≤ len ∧ len ≤ bits (leAt h 6 2) 0 12)

/-- A message of a LIN frame keeps that through the cache. -/
def linIdOf (s : State) (m : GweMsg) : Bool :=
  match m.kind with
  | .lin _ => true
  | .can => false
  | .reinject h => (s.lvc h).lin

/-- R345: the LVC is written; the twin hears of it at the next sync point (R362). Marks: DEDUCED (log entry 39). -/
def lvcWrite (s : State) (h : Nat) (m : GweMsg) : State :=
  let v : Lvc := { valid := true, msg := { m.msg with data := m.msg.data.take 64 }, lin := linIdOf s m, src := m.src,
                   ptpSec := m.ptpSec, ptpNs := m.ptpNs, count := msgLen m.msg }
  { s with gwe := { s.gwe with lvc := Tab.set (fun _ => {}) s.gwe.lvc h v,
                               dirty := if s.gwe.dirty.contains h then s.gwe.dirty else s.gwe.dirty ++ [h] } }

/-- R346: a message of handle `h`, admitted in cycle `t`, is inside the interval. -/
def inInterval (s : State) (h t iv : Nat) : Bool :=
  iv != 0 && (match (s.hrun h).last with | some l => decide (t < l + iv) | none => false)

/-- R346: a message inside the interval. -/
def intervalHeld (s : State) (h iv : Nat) (latest : Bool) : State :=
  let r := s.hrun h
  if !latest then s.bump (aGweCnt 3)
  else
    let due := r.last.map (fun l => l + iv)
    (s.setHrun h { r with due := if r.due.isSome then r.due else due }).bump (aGweCnt 4)

/-! ### Legs (R347 to R351) -/

/-- Zone of a source in an epoch (R348). Marks: DEDUCED (log entry 39). -/
def sourceZone (s : State) (e src : Nat) : Nat := if src < 32 then busZone s e src else portZone s e 50

/-- R232: a bus leg is permitted. -/
def legZoneOk (s : State) (m : GweMsg) (v : List Byte) (dest : Nat) : Bool :=
  bit (byteAt v 0) 2
  || bits (zoneCell s m.epoch (sourceZone s m.epoch m.src) (busZone s m.epoch dest)) 0 2 == 1

/-- The ID word of a leg: rewritten, or kept; without AUTH. Marks: DEDUCED (log entry 39). -/
def legIdw (m : CanMsg) (v : List Byte) : Nat :=
  (if bit (byteAt v 0) 3 then bits (leAt v 4 4) 0 30 else bits m.idw 0 30) + b2n (msgRmt m) * 2 ^ 30

/-- R349: the message in the format of a CAN leg. -/
def legConvert (m : CanMsg) (v : List Byte) : Option CanMsg :=
  let o := bits (byteAt v 2) 0 3
  let auth := bit (byteAt v 0) 4
  let fmt := if o = 0 then m.fmt else if o = 1 then 0 else if o = 4 then 2 else 1
  let brs := if o = 0 then m.brs else o == 3
  let keep := fmt == 0 && m.fmt == 0 && msgRmt m
  let idw := legIdw m v
  let idw := (if msgRmt m && !keep then idw - 2 ^ 30 else idw) + b2n auth * 2 ^ 31
  let len := if keep then m.rlen else m.data.length
  let fits := if fmt = 0 then decide (len ≤ 8) else if fmt = 1 then decide (len + (if auth then 12 else 0) ≤ 64) else true
  if !fits then none
  else
    let xl := decide (fmt = 2 ∧ m.fmt = 2)
    some { m with
      idw := idw
      fmt := fmt
      brs := brs
      rlen := if keep then m.rlen else 0
      esi := false
      sdt := if xl then m.sdt else 0
      vcid := if xl then m.vcid else 0
      af := if xl then m.af else 0
      authIdx := bits (leAt v 8 2) 0 10
      wclass := bits (byteAt v 0) 5 2 }

/-- R350: a CAN leg, `k` legs of the same message to its channel having gone before. -/
def canLeg (s : State) (m : GweMsg) (h t k : Nat) (v : List Byte) : State :=
  let d := bits (byteAt v 1) 0 6
  if !legZoneOk s m v d then s.bump (aFwCnt 14)
  else
    match legConvert m.msg v with
    | none => s.bump (aGweCnt 6)
    | some x =>
      let c := s.can d
      let y : CanSub := { msg := { x with tag := 0x8000 + h }, handle := some h,
                          at_ := t + 352 + 252 + 8 * k }
      s.setCan d { c with inbox := c.inbox ++ [y] }

/-- R351: a LIN leg. -/
def linLeg (s : State) (m : GweMsg) (t : Nat) (v : List Byte) : State :=
  let d := bits (byteAt v 1) 0 6
  let f := bits (byteAt v 10) 0 6
  if !legZoneOk s m v (24 + d) then s.bump (aFwCnt 14)
  else
    let x : LinLeg := { chan := d, fid := f, data := m.msg.data, at_ := t + 352 + 168 }
    { s with gwe := { s.gwe with linLegs := s.gwe.linLegs ++ [x] } }

/-! ### ACF messages (Table 11-5; the places of the fields are those of IEEE 1722) -/

/-- The first quadlet's CAN bits: pad, mtv, rtr, eff, brs, fdf, esi. -/
def acfCanBits (m : CanMsg) (pad : Nat) (mtv : Bool) : Nat :=
  pad * 64 + b2n mtv * 32 + b2n (msgRmt m) * 16 + b2n (msgIde m) * 8 + b2n m.brs * 4 + b2n (m.fmt == 1) * 2 + b2n m.esi

/-- An ACF message from its type, its bytes after the first two and its payload; `head` counts the header bytes. -/
def acfMessage (ty head : Nat) (fields payload : List Byte) : List Byte :=
  let pad := (4 - payload.length % 4) % 4
  let quads := (head + payload.length + pad) / 4
  beBytes 2 (ty * 512 + quads) ++ fields ++ payload ++ List.replicate pad 0

/-- R353: the ACF message of an ETH leg. Marks: PRESUMED (log entry 40). -/
def acfOf (m : GweMsg) (lin : Bool) (v : List Byte) (mtv : Bool) : List Byte :=
  let x := m.msg
  let bus := bits (byteAt v 3) 0 5
  let pad := (4 - x.data.length % 4) % 4
  let ts := beBytes 8 (if mtv then m.ptpSec * 10 ^ 9 + m.ptpNs else 0)
  if lin then
    acfMessage 3 12 ([b8 (pad * 64 + b2n mtv * 32 + bus), b8 (bits x.idw 18 6)] ++ ts) x.data
  else
    let idw := legIdw x v
    let y := { x with idw := idw }
    let id := beBytes 4 (if msgIde y then bits idw 0 29 else bits idw 18 11)
    if bit (byteAt v 2) 3 then acfMessage 2 8 ([b8 (acfCanBits y pad false), b8 bus] ++ id) x.data
    else acfMessage 1 16 ([b8 (acfCanBits y pad mtv), b8 bus] ++ ts ++ id) x.data

/-! ### Batches (R353 to R355) -/

/-- The next sequence_num of an outbound stream. -/
def ostreamSeq (s : State) (o : Nat) : Nat := Tab.get (fun _ => 0) s.gwe.seq o

/-- Header of an outbound stream's frame (IEEE 1722). Marks: PRESUMED (log entry 40). -/
def streamHeader (v : List Byte) (seq len ns : Nat) : List Byte :=
  let id := (slice v 0 8)
  if bit (byteAt v 16) 1 then
    let mtt := leAt v 24 4
    [0x05, b8 (0x80 + b2n (mtt != 0)), b8 seq, 0] ++ id ++ beBytes 4 (ns + mtt) ++ [0, 0, 0, 0] ++ beBytes 2 len ++ [0, 0]
  else [0x82] ++ beBytes 2 (0x8000 + len % 2 ^ 11) ++ [b8 seq] ++ id

/-- R353: the frame of a batch, without FCS. -/
def batchBytes (s : State) (v : List Byte) (seq : Nat) (b : Batch) : List Byte :=
  let w := leAt v 14 2
  let tag := if bit w 15 then beBytes 2 0x8100 ++ beBytes 2 (bits w 12 3 * 2 ^ 13 + bits w 0 12) else []
  slice v 8 6 ++ beBytes 6 (s.pair (regAddr (pGwe 0) 0x050)) ++ tag ++ beBytes 2 0x22F0
    ++ streamHeader v seq b.acf.length b.firstNs ++ b.acf

/-- R354, R355: the open batch of a stream closes in cycle `t`. Marks: DEDUCED (log entry 39). -/
def closeBatch (s : State) (e o t : Nat) : State :=
  match Tab.get (fun _ => none) s.gwe.batch o with
  | none => s
  | some b =>
    let v := s.entAt e tOSTR o
    let s := { s with gwe := { s.gwe with batch := Tab.set (fun _ => none) s.gwe.batch o none } }
    if 16 ≤ s.gwe.out.length then (s.bump (aGweCnt 11)).raise (pGwe 0) 2
    else
      let q := ostreamSeq s o
      let f : BatchFrame := { stream := o, bytes := batchBytes s v q b, enterAt := t + 975, tc := bits (byteAt v 16) 4 3,
                              srcs := b.srcs }
      ({ s with gwe := { s.gwe with out := s.gwe.out ++ [f], seq := Tab.set (fun _ => 0) s.gwe.seq o ((q + 1) % 256) } }).bump
        (aGweCnt 10)

/-- R354: the position of the batch's H has been reached in cycle `now`. -/
def holdReached (b : Batch) (now : Nat) (pos : Nat) : Batch :=
  match b.holdPos with
  | some p => if reachedAt p pos then { b with holdEnd := min b.holdEnd now, holdPos := none } else b
  | none => b

/-- A new batch whose first message entered the queue in cycle `a`; its H may lie before the present cycle. -/
def newBatch (s : State) (v : List Byte) (a ns : Nat) : Batch :=
  let hold := leAt v 20 4
  let anchor := a - 160
  if bit (byteAt v 16) 3 then { holdEnd := anchor + hold, firstNs := ns, msgs := 0, acf := [] }
  else
    let b : Batch := { holdEnd := anchor + 1000000, holdPos := some ((accAt s anchor / 2 ^ 24 + hold * 2 ^ 11) % 2 ^ 64),
                       firstNs := ns, msgs := 0, acf := [] }
    match ((List.range (s.cclk + 1 - anchor)).map (fun i => holdReached b (anchor + i) (accAt s (anchor + i) / 2 ^ 24))).find?
        (fun x => x.holdPos.isNone) with
    | some x => x
    | none => b

/-- R354: a message that entered the queue in cycle `a` can join the batch. -/
def mayJoin (b : Batch) (a : Nat) : Bool := decide (a ≤ b.holdEnd + 160)

/-- R354: the cycle in which a batch closes whose hold has ended. -/
def holdClose (b : Batch) : Nat := max (b.holdEnd + 512) b.decided

/-- R354: a batch that the message can no longer join has closed before its decision. -/
def closeEnded (s : State) (e o a : Nat) : State :=
  match Tab.get (fun _ => none) s.gwe.batch o with
  | some b => if mayJoin b a then s else closeBatch s e o (holdClose b)
  | none => s

/-- R354: the open batches that a message decided in cycle `t` could have joined. -/
def noteDecided (s : State) (a t : Nat) : State :=
  { s with gwe := { s.gwe with batch := s.gwe.batch.map (fun (x : Nat × Option Batch) =>
      (x.1, x.2.map (fun b => if mayJoin b a then { b with decided := t } else b))) } }

/-- R217: what a message's source counts as in its frame. -/
def srcOf (m : GweMsg) : Nat := min m.src 32

/-- R354: an ETH leg, decided in cycle `t`. -/
def ethLeg (s : State) (m : GweMsg) (t : Nat) (v : List Byte) : State :=
  if m.msg.fmt = 2 then s.bump (aGweCnt 6)
  else
    let o := bits (byteAt v 1) 0 6
    let st := s.entAt m.epoch tOSTR o
    if !bit (byteAt st 16) 0 then s
    else
      let acf := acfOf m (linIdOf s m) v (bit (byteAt st 16) 2)
      let s := closeEnded s m.epoch o m.at_
      let open_ := Tab.get (fun _ => none) s.gwe.batch o
      let full := match open_ with
        | some b => decide (bits (leAt st 18 2) 0 11 < b.acf.length + acf.length)
        | none => false
      let s := if full then closeBatch s m.epoch o t else s
      let b := (Tab.get (fun _ => none) s.gwe.batch o).getD (newBatch s st m.at_ (m.ptpSec * 10 ^ 9 + m.ptpNs))
      let b := { b with msgs := b.msgs + 1, acf := b.acf ++ acf, srcs := b.srcs ++ [srcOf m], decided := t }
      let s := { s with gwe := { s.gwe with batch := Tab.set (fun _ => none) s.gwe.batch o (some b) } }
      if bit (byteAt v 0) 7 ∨ byteAt st 17 ≤ b.msgs ∨ leAt st 20 4 = 0 then closeBatch s m.epoch o t else s

/-- A leg that acts on CAN channel `d`: only such a leg holds back one behind it. -/
def legActs (s : State) (m : GweMsg) (d : Nat) (v : List Byte) : Bool :=
  bits (byteAt v 0) 0 2 == 1 && bits (byteAt v 1) 0 6 == d && legZoneOk s m v d && (legConvert m.msg v).isSome

/-- One leg of a message of handle `h`, admitted in cycle `t`; `done` are the legs before it. -/
def oneLeg (s : State) (m : GweMsg) (h t : Nat) (done : List (List Byte)) (v : List Byte) : State :=
  let d := bits (byteAt v 1) 0 6
  match bits (byteAt v 0) 0 2 with
  | 1 =>
    if d = m.src then s.bump (aGweCnt 9)
    else canLeg s m h t (done.filter (legActs s m d)).length v
  | 2 => if 24 + d = m.src then s.bump (aGweCnt 9) else linLeg s m t v
  | 3 => ethLeg s m (t + 352) v
  | _ => s

/-- R347: the legs, in order. -/
def allLegs (m : GweMsg) (h t : Nat) : List (List Byte) → List (List Byte) → State → State
  | _, [], s => s
  | done, v :: rest, s => allLegs m h t (done ++ [v]) rest (oneLeg s m h t done v)

/-- Legs of a handle entry in an epoch. -/
def legsOf (s : State) (e : Nat) (h : List Byte) : List (List Byte) :=
  (List.range (bits (byteAt h 1) 0 4)).map (fun i => s.entAt e tLEG (bits (leAt h 2 2) 0 13 + i))

/-! ### The route stage (R341) -/

/-- R344 to R346: the decision on a message of handle `h`, admitted in cycle `t`. Marks: DEDUCED (log entry 39). -/
def decideMsg (s : State) (m : GweMsg) (h t : Nat) : State :=
  let v := s.entAt m.epoch tHANDLE h
  if !permits v m then s.bump (aGweCnt 2)
  else
    let s := lvcWrite s h m
    let iv := leAt v 8 4
    if inInterval s h t iv then intervalHeld s h iv (bit (byteAt v 0) 7)
    else
      let s := s.setHrun h { s.hrun h with last := some t }
      allLegs m h t [] (legsOf s m.epoch v) s

/-- R365: the table entries that the decision on a message reads. -/
def gweReads (s : State) (m : GweMsg) : List Nat :=
  let h := (handleOf s m).getD 0
  let v := s.entAt m.epoch tHANDLE h
  let std := match m.kind with
    | .lin f => tRTLIN * 2 ^ 20 + (64 * (m.src - 24) + f)
    | .can => tSTD * 2 ^ 20 + (2048 * m.src + bits m.msg.idw 18 11)
    | .reinject _ => tHANDLE * 2 ^ 20 + h
  [std, tHANDLE * 2 ^ 20 + h] ++ gweListed s tHFILT
    ++ (List.range (bits (byteAt v 1) 0 4)).map (fun i => tLEG * 2 ^ 20 + (bits (leAt v 2 2) 0 13 + i))

/-- R343, R365: the decision on a message, admitted in cycle `t`; one whose entry is lost is not gatewayed. -/
def routeMsg (s : State) (m : GweMsg) (t : Nat) : State :=
  match gweRead s with
  | (u, true) => gweLose u (gweReads s m)
  | (u, false) =>
    match handleOf u m with
    | none => u.bump (aGweCnt 1)
    | some h => decideMsg u m h t

/-- R341: admission in cycle `t`. -/
def admitMsg (s : State) (m : GweMsg) (t : Nat) : State :=
  ({ s with gwe := { s.gwe with inq := s.gwe.inq.drop 1, lastAdmit := some t, routed := s.gwe.routed ++ [(t, m)] } }).bump
    (aGweCnt 0)

/-- R341: a decision is due, 352 cycles after its admission. -/
def decideDue (s : State) (x : Nat × GweMsg) : State :=
  if s.cclk < x.1 + 352 then s
  else
    let t := { s with gwe := { s.gwe with routed := s.gwe.routed.drop 1 } }
    routeMsg (noteDecided t x.2.at_ (x.1 + 352)) x.2 x.1

/-- Decisions of the present cycle, and the batches whose H it is (R341, R354). -/
def gweCycle (s : State) : State :=
  let t := { s with gwe := { s.gwe with batch := s.gwe.batch.map (fun (x : Nat × Option Batch) =>
    (x.1, x.2.map (fun b => holdReached b s.cclk s.pos.toNat))) } }
  t.gwe.routed.foldl decideDue t

/-- R341: the cycle in which a message is admitted. -/
def admitAt (s : State) (m : GweMsg) : Nat :=
  match s.gwe.lastAdmit with
  | none => m.at_
  | some l => max m.at_ (l + 250)

/-- ROUTE_ADMIT. -/
def execRouteAdmit (s : State) : Result :=
  .next (match s.gwe.inq with
    | [] => s
    | m :: _ => if gweOpen s && decide (admitAt s m ≤ s.cclk) then admitMsg s m (admitAt s m) else s)

/-! ### Hold and entry of batches (R354, R355) -/

/-- R354: the hold of a batch has ended, and no message that could join it is left. -/
def holdOver (s : State) (b : Batch) : Bool :=
  decide (b.holdEnd + 512 ≤ s.cclk)
    && (s.gwe.reqs ++ s.gwe.inq ++ s.gwe.routed.map (fun x => x.2)).all (fun m => !mayJoin b m.at_)

/-- BATCH_HOLD_EXPIRE. -/
def execBatchHoldExpire (o : Nat) (s : State) : Result :=
  ifWf (decide (o < 64))
    (match Tab.get (fun _ => none) s.gwe.batch o with
     | none => s
     | some b => if holdOver s b then closeBatch s s.epoch o (holdClose b) else s)

/-- R355: a built frame enters PRS as a frame of port 50. -/
def batchEnter (s : State) (f : BatchFrame) : State :=
  sourceFrame { s with gwe := { s.gwe with out := s.gwe.out.drop 1 } } s.cclk
    { portFrame s 50 0 s.cclk with bytes := paddedFrame f.bytes, tc := f.tc, busSrc := f.srcs }

/-- BATCH_FRAME_ENTER. -/
def execBatchFrameEnter (s : State) : Result :=
  .next (match s.gwe.out with
    | [] => s
    | f :: _ => if f.enterAt ≤ s.cclk then batchEnter s f else s)

end Sys2Proof.Machine
end

