-- ==== Sys2Proof/Machine/GatewayIn.lean ====
section
/-!
DEFINITION. The gateway engine: decapsulation (R356 to R358), the table window (R360), the checks of a commit (R361),
cancels (R352), the last-value window and a takeover (R363) (spec/11_gateway_engine.md).
-/
namespace Sys2Proof.Machine
open Sys2Proof

/-! ### Decapsulation -/

/-- Offset after the final outer EtherType; the tags before it are 4 bytes, an R-TAG 6.
Marks: PRESUMED (log entry 40). -/
def avtpOffset (bs : List Byte) : Nat → Nat → Nat
  | 0, o => o + 2
  | n + 1, o => if beAt bs o 2 = 0x22F0 then o + 2 else avtpOffset bs n (o + (if beAt bs o 2 = 0xF1C1 then 6 else 4))

/-- An inbound stream's frame: the stream, its sequence number, and the first and last offset of its ACF messages. -/
structure AvtpFrame where
  stream : Nat
  seq : Nat
  first : Nat
  last : Nat
deriving DecidableEq, Repr

/-- R356: a frame that GWE accepts. -/
def avtpOf (s : State) (f : GweFrame) : Option AvtpFrame :=
  let o := avtpOffset f.bytes 4 12
  let sub := byteAt f.bytes o
  let id := slice f.bytes (o + 4) 8
  let tscf := decide (sub = 0x05)
  if f.keys.etype != 0x22F0 || !(sub == 0x82 || sub == 0x05) || bits (byteAt f.bytes (o + 1)) 4 4 != 8 then none
  else
    match (List.range 64).find? (fun i =>
      let v := s.entAt f.epoch tISTR i
      bit (byteAt v 8) 0 && bit (byteAt v 8) 1 == tscf && slice v 0 8 == id) with
    | none => none
    | some i =>
      if tscf then
        some { stream := i, seq := byteAt f.bytes (o + 2), first := o + 24, last := o + 24 + beAt f.bytes (o + 20) 2 }
      else
        some { stream := i, seq := byteAt f.bytes (o + 3), first := o + 12,
               last := o + 12 + bits (beAt f.bytes (o + 1) 2) 0 11 }

/-- R358: the cycle in which a message that ends at offset `e` enters the queue. -/
def decapAt (f : GweFrame) (e : Nat) : Nat := f.start + 362 + ceilDiv (8 * max 64 e) 10

/-- Nanoseconds since the epoch of a domain clock. -/
def timeTotalNs (t : Nat) : Nat := t / 2 ^ 48

/-- R345: the PTP time of a decapsulated message. -/
def decapTime (s : State) (f : GweFrame) (stamp : Option Nat) : Nat × Nat :=
  match stamp with
  | some t => (t / 10 ^ 9, t % 10 ^ 9)
  | none =>
    let t := timeAt s (s.fld (regAddr (pGwe 0) 0x040) 1 1) f.tsCycle
    (timeSec t, timeNs t)

/-- The header bytes of an ACF type that GWE takes. Marks: PRESUMED (log entry 40). -/
def acfHead (ty : Nat) : Option Nat := if ty = 1 then some 16 else if ty = 2 then some 8 else if ty = 3 then some 12 else none

/-- The message of an ACF message at offset `o`, `n` bytes long with a header of `head` bytes. -/
def acfRead (s : State) (f : GweFrame) (rbase o n ty head : Nat) : GweMsg :=
  let b2 := byteAt f.bytes (o + 2)
  let payload := slice f.bytes (o + head) (n - head - b2 / 64)
  let stamp := if ty != 2 && bit b2 5 then some (beAt f.bytes (o + 4) 8) else none
  let at_ := decapAt f (o + n)
  let bus := if ty = 3 then bits b2 0 5 else bits (byteAt f.bytes (o + 3)) 0 5
  let src := 32 + (rbase + bus) % 32
  let t := decapTime s f stamp
  if ty = 3 then
    let fid := bits (byteAt f.bytes (o + 3)) 0 6
    { kind := .lin fid, src := src, msg := { idw := fid * 2 ^ 18, data := payload }, at_ := at_, epoch := f.epoch,
      ptpSec := t.1, ptpNs := t.2 }
  else
    let id := beAt f.bytes (o + head - 4) 4
    let rmt := bit b2 4
    let idw := (if bit b2 3 then bits id 0 29 + 2 ^ 29 else bits id 0 11 * 2 ^ 18) + b2n rmt * 2 ^ 30
    { kind := .can, src := src,
      msg := { idw := idw, fmt := if bit b2 1 then 1 else 0, brs := bit b2 2, esi := bit b2 0,
               rlen := if rmt then payload.length else 0, data := if rmt then [] else payload },
      at_ := at_, epoch := f.epoch, ptpSec := t.1, ptpNs := t.2 }

/-- R357: an ACF message of a type that GWE takes. -/
def acfTake (s : State) (f : GweFrame) (rbase o n ty head : Nat) : State :=
  let b2 := byteAt f.bytes (o + 2)
  if n < head + b2 / 64 ∨ (ty ≠ 3 ∧ !bit b2 1 ∧ 8 < n - head - b2 / 64) then s.bump (aGweCnt 16)
  else
    let m := acfRead s f rbase o n ty head
    if poolFree s < msgBlocks m.msg then s.bump (aGweCnt 17)
    else { s with gwe := { s.gwe with reqs := s.gwe.reqs ++ [m] } }

/-- R357: the walk, at most `k` messages. Marks: PRESUMED (log entry 40). -/
def acfWalk (f : GweFrame) (rbase last : Nat) : Nat → Nat → State → State
  | 0, _, s => s
  | k + 1, o, s =>
    if last ≤ o then s
    else
      let w := beAt f.bytes o 2
      let n := bits w 0 9 * 4
      if n = 0 ∨ last < o + n then s.bump (aGweCnt 16)
      else
        acfWalk f rbase last k (o + n)
          (match acfHead (w / 512) with
           | none => s.bump (aGweCnt 15)
           | some h => acfTake s f rbase o n (w / 512) h)

/-- R356, R357: a frame is accepted. Marks: DEDUCED (log entry 39). -/
def acceptAvtp (s : State) (f : GweFrame) (a : AvtpFrame) : State :=
  let v := s.entAt f.epoch tISTR a.stream
  let was := Tab.get (fun _ => 0) s.gwe.seq (64 + a.stream)
  let t := s.bump (aGweCnt 12)
  let t := if bit (byteAt v 8) 2 && a.seq != (was + 1) % 256 then t.bump (aGweCnt 14) else t
  let t := { t with gwe := { t.gwe with seq := Tab.set (fun _ => 0) t.gwe.seq (64 + a.stream) a.seq } }
  acfWalk f (bits (byteAt v 9) 0 5) (min a.last f.bytes.length) 512 a.first t

/-- R365: the inbound streams are read; one that is lost is not valid. -/
def istreamRead (s : State) : State :=
  match gweRead s with
  | (t, true) => gweLose t (gweListed s tISTR)
  | (t, false) => t

/-- GWE_DECAPSULATE. -/
def execGweDecapsulate (s : State) : Result :=
  .next (match s.gwe.frames with
    | [] => s
    | f :: rest =>
      let t := { s with gwe := { s.gwe with frames := rest } }
      if !gweOpen t || !t.gwe.ready then t
      else
        let t := istreamRead t
        match avtpOf t f with
        | none => t.bump (aGweCnt 13)
        | some a => acceptAvtp t f a)

/-! ### The table window (R360, Table 11-10) -/

/-- BAR0 offset of a register of the window. -/
def aGweTbl (off : Nat) : Nat := regAddr (pGwe 1) off

/-- TABLE of `GWE_TBL_SEL`. -/
def gweTable (s : State) : Nat := s.fld (aGweTbl 0x040) 24 5

/-- INDEX of `GWE_TBL_SEL`. -/
def gweIndex (s : State) : Nat := s.fld (aGweTbl 0x040) 0 16

/-- The state with `GWE_TBL_STAT` giving a status. -/
def gweStatus (s : State) (st : Nat) : State := s.setReg (aGweTbl 0x048) (w32 st)

/-- Bytes of `GWE_TBL_D0` to `D7`. -/
def gweData (s : State) : List Byte := (List.range 8).flatMap (fun w => leBytes 4 (s.reg (aGweTbl (0x060 + 4 * w))).toNat)

/-- The state with `GWE_TBL_D0` to `D7` holding an entry. -/
def setGweData (s : State) (v : List Byte) : State :=
  (List.range 8).foldl (fun t w => t.setReg (aGweTbl (0x060 + 4 * w)) (w32 (leAt v (4 * w) 4))) s

/-- An entry as READ returns it: SEQ of a stream is the stream's own. -/
def withSeq (s : State) (t i : Nat) (v : List Byte) : List Byte :=
  if t = tOSTR then putBytes v 28 [b8 (Tab.get (fun _ => 0) s.gwe.seq i)]
  else if t = tISTR then putBytes v 10 [b8 (Tab.get (fun _ => 0) s.gwe.seq (64 + i))] else v

/-- Status of the index, and of READ. Marks: DEDUCED (log entry 39). -/
def gweForm (s : State) : Nat :=
  if tableEntries (gweTable s) = 0 then 0x06 else if tableEntries (gweTable s) ≤ gweIndex s then 0x05
  else if !s.gwe.ready then 0x0A else 0

/-- READ and READ_PENDING. -/
def gweReadOp (pend : Bool) (s : State) : State :=
  match gweForm s with
  | 0 =>
    let t := gweTable s
    let i := gweIndex s
    match gweRead s with
    | (u, true) => gweStatus (gweLose u [t * 2 ^ 20 + i]) 0x0C
    | (u, false) => gweStatus (setGweData u (withSeq u t i (tueValue u pend t i))) 0
  | st => gweStatus s st

/-- GWE_TBL_READ. -/
def execGweTblRead (w : Who) (s : State) : Result := .next (s.write w (aGweTbl 0x044) 1 (gweReadOp false s))

/-- GWE_TBL_READ_PENDING. -/
def execGweTblReadPending (w : Who) (s : State) : Result := .next (s.write w (aGweTbl 0x044) 3 (gweReadOp true s))

/-- SEQ is read only: a staged entry holds none. -/
def noSeq (t : Nat) (v : List Byte) : List Byte :=
  if t = tOSTR then putBytes v 28 [0] else if t = tISTR then putBytes v 10 [0] else v

/-- Records of the gateway's overlay in use. -/
def gweOvlUsed (s : State) : Nat := (s.tables.ovl.filter (fun o => !isTueRec o)).length

/-- The state after records are staged, and the status. -/
def gweStageOne (s : State) (origin t i : Nat) (v : List Byte) : State :=
  match stageCheck s t [(i, v)] (256 - gweOvlUsed s) with
  | 0 => gweStatus (stageOne origin t s (i, v)) 0
  | st => gweStatus s st

/-- STAGE. Marks: DEDUCED (log entry 39). -/
def gweStageOp (w : Who) (s : State) : State :=
  match gweForm s with
  | 0 =>
    let t := gweTable s
    let d := gweData s
    let v := noSeq t (slice d 0 (entryBytes t))
    if rwsClosed s.mode then gweStatus s 0x0A
    else if badEntry t v ∨ (d.drop (entryBytes t)).any (fun b => b != 0) then gweStatus s 0x0D
    else if isHost w.m ∧ siltFull s then gweStatus s.siltRefused 0x0B
    else gweStageOne s (originOf w.m) t (gweIndex s) v
  | st => gweStatus s st

/-- GWE_TBL_STAGE. -/
def execGweTblStage (w : Who) (s : State) : Result := .next (s.write w (aGweTbl 0x044) 2 (gweStageOp w s))

/-! ### The last-value window -/

/-- BAR0 offset of a register of the last-value window. -/
def aGweLvc (off : Nat) : Nat := regAddr (pGwe 2) off

/-- A write of `GWE_LVC_SEL` latches the last value of the handle. -/
def gweLvcLatch (s : State) (h : Nat) : State :=
  let v := s.lvc h
  let d := v.msg.data
  let t := s.setReg (aGweLvc 0x044) (w32 (bits v.count 0 12 + v.msg.fmt * 2 ^ 12 + b2n (msgIde v.msg) * 2 ^ 14 + b2n v.valid * 2 ^ 15))
  let t := t.setReg (aGweLvc 0x048) (w32 (if msgIde v.msg then bits v.msg.idw 0 29 else bits v.msg.idw 18 11))
  let t := (t.setReg (aGweLvc 0x04C) (w32 v.ptpNs)).setReg (aGweLvc 0x050) (w32 v.ptpSec)
  (List.range 16).foldl (fun t w => t.setReg (aGweLvc (0x080 + 4 * w)) (w32 (leAt d (4 * w) 4))) t

/-! ### Commits (R352, R361) -/

/-- The value of a table entry once the records of a commit part are live. -/
def armedEnt (s : State) (part t i : Nat) : List Byte :=
  match s.ovlAt t i with
  | some o => if o.st = .armed part then o.val else s.entAt s.epoch t i
  | none => s.entAt s.epoch t i

/-- Legs of a handle entry with the values of a commit part. -/
def armedLegs (s : State) (part : Nat) (h : List Byte) : List (List Byte) :=
  (List.range (bits (byteAt h 1) 0 4)).map (fun i => armedEnt s part tLEG (bits (leAt h 2 2) 0 13 + i))

/-- Entries of a table that are listed, or that a record holds. -/
def listedOf (s : State) (t : Nat) : List Nat :=
  let a := (s.tables.ent.filter (fun x => x.1 / 2 ^ 20 == t)).map (fun x => x.1 % 2 ^ 20)
  let b := (s.tables.ovl.filter (fun o => o.table == t)).map (fun o => o.index)
  a ++ b.filter (fun i => !a.contains i)

/-- No two entries of a list are equal. -/
def allDiffer {α : Type} [BEq α] : List α → Bool
  | [] => true
  | x :: r => !r.contains x && allDiffer r

/-- R361: the ranges of a handle filter and of a handle, and the streams of its ETH legs. -/
def gweHandleBad (s : State) (part i : Nat) : Bool :=
  let v := armedEnt s part tHANDLE i
  let eth := ((armedLegs s part v).filter (fun l => bits (byteAt l 0) 0 2 == 3)).map (fun l => bits (byteAt l 1) 0 6)
  decide (8192 < bits (leAt v 2 2) 0 13 + bits (byteAt v 1) 0 4) || decide (bits (leAt v 6 2) 0 12 < bits (leAt v 4 2) 0 12)
    || !allDiffer eth

/-- R361. -/
def gweFilterBad (s : State) (part i : Nat) : Bool :=
  let v := armedEnt s part tHFILT i
  decide (4095 < bits (leAt v 10 2) 0 12 + 2 ^ bits (byteAt v 9) 0 4 - 1)

/-- R361: HOLD, MAX_MSGS and MAX_BYTES of an outbound stream. -/
def gweStreamBad (s : State) (part i : Nat) : Bool :=
  let v := armedEnt s part tOSTR i
  let hold := leAt v 20 4
  bit (byteAt v 16) 0 &&
    (byteAt v 17 == 0 || decide (bits (leAt v 18 2) 0 11 < 16) || decide (1472 < bits (leAt v 18 2) 0 11)
      || decide ((if bit (byteAt v 16) 3 then 1000000 else 2 ^ 20) < hold))

/-- STREAM_IDs of the valid entries of a stream table; `b` is the byte that holds VALID. -/
def streamIds (s : State) (part t b : Nat) : List (List Byte) :=
  ((listedOf s t).map (armedEnt s part t)).filterMap (fun v => if bit (byteAt v b) 0 then some (slice v 0 8) else none)

/-- R361: a commit part that GWE's tables refuse. -/
def gweCheckFails (s : State) (part : Nat) : Bool :=
  (listedOf s tHFILT).any (gweFilterBad s part) || (listedOf s tHANDLE).any (gweHandleBad s part)
  || (listedOf s tOSTR).any (gweStreamBad s part)
  || !allDiffer (streamIds s part tOSTR 16) || !allDiffer (streamIds s part tISTR 8)

/-- R352: a handle that the commit part makes invalid, or whose legs it changes. -/
def gweChanged (s : State) (part i : Nat) : Bool :=
  let old := s.entAt s.epoch tHANDLE i
  let new := armedEnt s part tHANDLE i
  bit (byteAt old 0) 0 && (!bit (byteAt new 0) 0 || legsOf s s.epoch old != armedLegs s part new)

/-- R352: cancel a handle's messages on each CAN channel that its old legs named. -/
def gweCancelOne (s : State) (i : Nat) : State :=
  let chans := ((legsOf s s.epoch (s.entAt s.epoch tHANDLE i)).filter (fun l => bits (byteAt l 0) 0 2 == 1)).map
    (fun l => bits (byteAt l 1) 0 6)
  ((List.range 24).filter (fun c => chans.contains c)).foldl
    (fun t c => askCancel t c { all := false, tag := 0x8000 + i, gwe := true }) s

/-- R352: the cancels of a commit part, before its records go LIVE. -/
def gweCancels (s : State) (part : Nat) : State :=
  ((listedOf s tHANDLE).filter (gweChanged s part)).foldl gweCancelOne s

/-! ### Takeover (R363) -/

/-- One handle at a takeover. -/
def hrunTakeover (s : State) (x : Nat × HandleRun) : Nat × HandleRun :=
  let iv := leAt (s.entAt s.epoch tHANDLE x.1) 8 4
  let r := x.2
  (x.1, { r with last := if iv ≠ 0 ∧ r.last.isSome then some s.cclk else r.last,
                 due := r.due.map (fun d => max d (s.cclk + iv)) })

/-- R362, R363: on a unit that takes the standby role, what its queue, route stage and open batches hold is lost. -/
def gweStandby (s : State) : State :=
  { s with gwe := { s.gwe with inq := [], reqs := [], routed := [], frames := [], batch := [] } }

/-- R363. -/
def gweTakeover (s : State) : State :=
  let outs := (List.range 64).map (fun o => (o, (Tab.get (fun _ => 0) s.gwe.seq o + 64) % 256))
  { s with gwe := { s.gwe with
      run := s.gwe.run.map (hrunTakeover s)
      seq := outs.foldl (fun l x => Tab.set (fun _ => 0) l x.1 x.2) s.gwe.seq
      batch := [] } }

end Sys2Proof.Machine
end

