-- ==== Sys2Proof/Machine/NetTime.lean ====
section
/-!
DEFINITION. The commands of gPTP (spec/12_network_time.md, R366 to R384).
-/
namespace Sys2Proof.Machine
open Sys2Proof

/-! ### Sync reception (R372) -/

/-- R374: a Sync or Follow_Up of domain `d` is accepted from port `p`. -/
def syncFrom (s : State) (d p : Nat) : Bool :=
  domEn s d && !domGm s d && (s.dom d).slave == p && (s.pdelay p).asCap && portUp s p

/-- R372: offset, in units of 2^-16 ns, of a Sync with ingress time `t` in units of 2^-16 ps. -/
def syncOffset (s : State) (p : Nat) (t : Int) (i : SyncInfo) : Int :=
  divOpenInt (t - (((i.origin : Int) + i.corr + (s.pdelay p).mld) * 1000 + asymUnits s p)) 1000

/-- `STEP_NS` in units of 2^-16 ns. -/
def stepUnits (s : State) (d : Nat) : Nat := s.fld (aDom d 0x10) 0 30 * 2 ^ 16

/-- LOCK_N. -/
def lockN (s : State) (d : Nat) : Nat := s.fld (aDom d 0x0C) 0 8

/-- The domain clock after a step by minus the offset. Marks: DEDUCED (log entry 42). -/
def steppedTime (s : State) (d : Nat) (ofs : Int) : Nat := (((s.dom d).time - ofs * 2 ^ 32) % (timeWrap : Nat)).toNat

/-- Table 12-1: a change of gmTimeBaseIndicator. -/
def gmChange (s : State) (d g : Nat) : State :=
  if (s.dom d).gmtbi = g then s
  else ((s.setDom d { s.dom d with gmtbi := g }).bump (aPtpCnt 10)).raise pPtp 2

/-- ACQUIRE: consecutive Syncs within LOCK_NS. -/
def acquireSync (s : State) (d : Nat) (ofs : Int) : State :=
  if stepUnits s d < ofs.natAbs then
    let t := domStep s d (steppedTime s d ofs)
    t.setDom d { t.dom d with runIn := 0 }
  else
    let n := if ofs.natAbs ≤ s.fld (aDom d 0x0C) 16 16 * 2 ^ 16 then (s.dom d).runIn + 1 else 0
    let t := servo (s.setDom d { s.dom d with runIn := n }) d
    if lockN t d ≤ n then domEnter t d .locked else t

/-- LOCKED and HOLDOVER: consecutive Syncs past STEP_NS lose the time. -/
def validSync (s : State) (d : Nat) (ofs : Int) : State :=
  if stepUnits s d < ofs.natAbs then
    let n := (s.dom d).runOut + 1
    let t := s.setDom d { s.dom d with runOut := n }
    if lockN t d ≤ n then domEnter t d .free
    else if (t.dom d).state = .locked then servo t d else t
  else
    let t := servo (s.setDom d { s.dom d with runOut := 0 }) d
    if (t.dom d).state = .holdover then domEnter t d .locked else t

/-- R372: an accepted Sync of ingress time `t` with its origin and correction. -/
def syncAccepted (s : State) (d p : Nat) (t : Int) (i : SyncInfo) : State :=
  let ofs := syncOffset s p t i
  let s := gmChange (s.setDom d { s.dom d with ofs := ofs, lastSync := some s.cclk }) d i.gmtbi
  match (s.dom d).state with
  | .free => domEnter (takeAdj (domStep s d (steppedTime s d ofs)) d (divOpenInt i.rate 512)) d .acquire
  | .acquire => acquireSync s d ofs
  | .locked => validSync s d ofs
  | .holdover => validSync s d ofs

/-- R384: the servo word of a domain fails twice. -/
def servoLost (s : State) (d : Nat) (m : InjMark) : State :=
  ((domEnter s d .free).bump (aPtpCnt 12)).report 0x0A (unitId 6 0x500) (memDetail m) true

/-- The servo reads its words. -/
def withServo (s : State) (d : Nat) (f : State → State) : State :=
  match memRead s 9 0 none with
  | (t, none) => f t
  | (t, some m) => servoLost (memRepeated t 9 false) d m

/-- R372: a two-step Sync waits for its Follow_Up; one that still waits is not accepted.
Marks: DEDUCED (log entry 42). -/
def syncWaits (s : State) (d : Nat) (t : Int) (seq : Nat) : State :=
  let s := if (s.dom d).waitFu.isSome then s.bump (aPtpCnt 6) else s
  s.setDom d { s.dom d with waitFu := some (t, s.cclk, seq) }

/-- R138: the ingress timestamp, in units of 2^-16 ps, of a frame whose T_MII is `t`, in units of 2^-16 ns. -/
def gptpIngress (s : State) (p t : Nat) : Int := (t : Int) * 1000 - (rxDelay s p * 2 ^ 16 : Nat)

/-- PTP_SYNC_RX: `t` is T_MII of the Sync (R138). -/
def execPtpSyncRx (d port seq : Nat) (twoStep : Bool) (info : SyncInfo) (t : Nat) (s : State) : Result :=
  ifWf (twoOk d && macOk port)
    (whenever (syncFrom s d port) s
      (if twoStep then syncWaits s d (gptpIngress s port t) seq
       else withServo (s.bump (aPtpCnt 0)) d (fun u => syncAccepted u d port (gptpIngress s port t) info)))

/-- What a Follow_Up gives to the copies of its Sync (R379). -/
def learnInfo (s : State) (d p seq : Nat) (i : SyncInfo) (e : PtpEdit) : PtpEdit :=
  if e.kind == .sync && e.dom == d && e.rxSeq == seq && !e.known then
    { e with known := true, corr := i.corr, rate := i.rate + (s.pdelay p).nrr, origin := i.origin, gmtbi := i.gmtbi,
             tlv := i.tlv }
  else e

/-- R379: the copies of a two-step Sync learn what its Follow_Up carries. -/
def relayInfo (s : State) (d p seq : Nat) (i : SyncInfo) : State :=
  let x := s.dom d
  let t := s.setDom d { x with fuDue := x.fuDue.map (fun a => (a.1, a.2.1, learnInfo s d p seq i a.2.2)) }
  { t with frames := t.frames.map (fun a => (a.1, { a.2 with ptp := a.2.ptp.map (learnInfo s d p seq i) })) }

/-- R372: the Sync that a Follow_Up completes is accepted. -/
def completeSync (s : State) (d p seq : Nat) (i : SyncInfo) : State :=
  match (s.dom d).waitFu with
  | none => s
  | some (t, c, q) =>
    if q ≠ seq then s
    else if c + syncInterval s d < s.cclk then (s.setDom d { s.dom d with waitFu := none }).bump (aPtpCnt 6)
    else
      let u := ((s.setDom d { s.dom d with waitFu := none }).bump (aPtpCnt 0)).bump (aPtpCnt 1)
      withServo u d (fun v => syncAccepted v d p t i)

/-- PTP_FOLLOW_UP_RX. -/
def execPtpFollowUpRx (d port seq : Nat) (info : SyncInfo) (s : State) : Result :=
  ifWf (twoOk d && macOk port)
    (whenever (syncFrom s d port) s (completeSync (relayInfo s d port seq info) d port seq info))

/-- FU_MISSING. -/
def execFuMissing (d : Nat) (s : State) : Result :=
  ifWf (twoOk d)
    (match (s.dom d).waitFu with
     | some (_, c, _) =>
       whenever (decide (c + syncInterval s d < s.cclk)) s
         ((s.setDom d { s.dom d with waitFu := none }).bump (aPtpCnt 6))
     | none => s)

/-! ### Loss (R371) -/

/-- Table 12-1: no Sync for RCPT × 2^LOG_SYNC s, or the slave port not asCapable or not UP. -/
def syncOverdue (s : State) (d : Nat) : Bool :=
  let x := s.dom d
  domEn s d && !domGm s d && x.state == .locked &&
    (decide (x.lastSync.getD 0 + s.fld (aDom d 0x14) 16 4 * syncInterval s d ≤ s.cclk)
      || !(s.pdelay x.slave).asCap || !portUp s x.slave)

/-- PTP_SYNC_TIMEOUT. -/
def execPtpSyncTimeout (d : Nat) (s : State) : Result :=
  ifWf (twoOk d) (whenever (syncOverdue s d) s (domHoldover s d))

/-- HOLD_S seconds in HOLDOVER have passed. -/
def holdOverdue (s : State) (d : Nat) : Bool :=
  let h := s.fld (aDom d 0x14) 0 16
  (s.dom d).state == .holdover && h != 0 &&
    (match (s.dom d).holdAt with | some t => decide (t + h * 1000000000 ≤ s.cclk) | none => false)

/-- PTP_HOLD_EXPIRE. -/
def execPtpHoldExpire (d : Nat) (s : State) : Result :=
  ifWf (twoOk d) (whenever (holdOverdue s d) s (domEnter s d .free))

/-! ### Grandmaster set (R370) -/

/-- The SET time in units of 2^-48 ns. -/
def setTime (s : State) (d : Nat) : Nat :=
  (s.pair (aDom d 0x3C) % 2 ^ 48 * 10 ^ 9 + s.fld (aDom d 0x38) 0 30) * 2 ^ 48

/-- Table 12-1: `PTP_Dd_SET_GO`: through FREE to LOCKED in one cycle. Marks: DEDUCED (log entry 42). -/
def gmSet (s : State) (d : Nat) : State :=
  let t := domStep (domEnter s d .free) d (setTime s d)
  domEnter (takeAdj t d (signed 32 (s.reg (aDom d 0x34)).toNat)) d .locked

/-- PTP_SET_GO. -/
def execPtpSetGo (w : Who) (d : Nat) (s : State) : Result :=
  ifWf (twoOk d) (s.write w (aDom d 0x44) 1 (gmSet s d))

/-! ### Link delay (R373, R374) -/

/-- A Pdelay_Req is due. -/
def pdelayDue (s : State) (p : Nat) : Bool :=
  s.bitAt (aPtpPort p 0) 0 && portUp s p &&
    (match (s.pdelay p).reqAt with | some t => decide (t + pdelayInterval s p ≤ s.cclk) | none => true)

/-- R374: a request that is still outstanding when the next is due has gone unanswered. -/
def unanswered (s : State) (p : Nat) : State :=
  let x := s.pdelay p
  if x.asked.isNone then s
  else
    let n := min 3 (x.lost + 1)
    let t := s.setPdelay p { x with lost := n, asked := none, t1 := none }
    if n = 3 then asCapLost t p else t

/-- R373: a Pdelay_Req goes out. -/
def sendPdelay (s : State) (p : Nat) : State :=
  let q := nextSeq s p 0 2
  let t := (usedSeq s p 0 2).setPdelay p { s.pdelay p with asked := some q, t1 := none, reqAt := some s.cclk }
  gptpSend t p t.cclk (pdelayReqBytes t p q) (some { kind := .pdelayReq, dom := 0, oneStep := false, seq := q })

/-- PDELAY_REQ_TX. -/
def execPdelayReqTx (port : Nat) (s : State) : Result :=
  ifWf (macOk port) (whenever (pdelayDue s port) s (sendPdelay (unanswered s port) port))

/-- R373: a Pdelay_Resp goes out; its Follow_Up follows when it has left. -/
def answerPdelay (s : State) (p seq id : Nat) (t2 : Int) : State :=
  gptpSend s p s.cclk (pdelayRespBytes s p 3 seq t2 id)
    (some { kind := .pdelayResp, dom := 0, oneStep := false, seq := seq, peer := id })

/-- PDELAY_REQ_RX: `t2` is T_MII of the request. -/
def execPdelayReqRx (port seq id t2 : Nat) (s : State) : Result :=
  ifWf (macOk port) (whenever (s.bitAt (aPtpPort port 0) 0 && portUp s port) s (answerPdelay s port seq id (gptpIngress s port t2 / 1000)))

/-- R373: neighborRateRatio from two successive pairs of t3 (2^-16 ns) and t4 (2^-16 ps).
Marks: DEDUCED (log entry 42). -/
def rateRatio (prev : Option (Nat × Int)) (old : Int) (t3 : Nat) (t4 : Int) : Int :=
  match prev with
  | none => old
  | some (a, b) =>
    if b < t4 then divOpenInt ((((t3 : Int) - a) * 1000 - (t4 - b)) * 2 ^ 41) (t4 - b).toNat else old

/-- R373: mean link delay in units of 2^-16 ns; t1, t4 and `asym` are in units of 2^-16 ps. -/
def meanDelay (t1 : Int) (t2 t3 : Nat) (t4 nrr asym : Int) : Int :=
  divOpenInt ((t4 - t1) * (2 ^ 41 + nrr) - ((t3 : Int) - t2) * 1000 * 2 ^ 41 - asym * 2 ^ 42) (2 ^ 42 * 1000)


/-- R374: the measurement of a complete exchange, and what it makes of asCapable. Marks: DEDUCED (log entry 42). -/
def pdelayDone (s : State) (p t2 t3 : Nat) (t4 t1 : Int) : State :=
  let x := s.pdelay p
  let nrr := rateRatio x.prev x.nrr t3 t4
  let mld := meanDelay t1 t2 t3 t4 nrr (asymUnits s p)
  let y : Pdelay := { x with lost := 0, asked := none, t1 := none, prev := some (t3, t4), nrr := nrr, mld := mld }
  if mld ≤ nbrThresh s p then s.setPdelay p { y with asCap := true }
  else asCapLost (s.setPdelay p y) p

/-- PDELAY_RESP_RX: `t4` is T_MII of the response; `t2` and `t3` are what the peer reports. -/
def execPdelayRespRx (port seq t2 t3 t4 : Nat) (s : State) : Result :=
  ifWf (macOk port)
    (if (s.pdelay port).asked = some seq then
       (match (s.pdelay port).t1 with | some t1 => pdelayDone s port t2 t3 (gptpIngress s port t4) t1 | none => s)
     else s)

/-! ### Relay and origination (R375 to R380) -/

/-- R376, R379: what the copies of a received Sync carry. Marks: PRESUMED (log entry 41). -/
def relayEdit (s : State) (d seq : Nat) (twoStep : Bool) (i : SyncInfo) (t : Int) : PtpEdit :=
  let p := (s.dom d).slave
  { dom := d, oneStep := domOneStep s d && !twoStep, rxSeq := seq, tIn := t, corr := i.corr,
    add := (s.pdelay p).mld * 1000 + asymUnits s p, rate := i.rate + (s.pdelay p).nrr, origin := i.origin, gmtbi := i.gmtbi,
    tlv := i.tlv, known := !twoStep }

/-- R375: the copies of a Sync that reaches MGMT now. -/
def relaySync (s : State) (d seq : Nat) (twoStep : Bool) (i : SyncInfo) (t : Int) : State :=
  let u := if twoStep && domOneStep s d then s.bump (aPtpCnt 7) else s
  sendSyncs (relayEdit s d seq twoStep i t) (masterPorts s d) (s.cclk + 156) u

/-- SYNC_RELAY: `t` is T_MII of the Sync. -/
def execSyncRelay (d seq : Nat) (twoStep : Bool) (info : SyncInfo) (t : Nat) (s : State) : Result :=
  ifWf (twoOk d) (whenever (syncFrom s d (s.dom d).slave) s (relaySync s d seq twoStep info (gptpIngress s (s.dom d).slave t)))

/-- R379: the Follow_Up of a Sync that has left a port. -/
def sendFollowUp (s : State) (d p : Nat) (x : Nat × Int × PtpEdit) : State :=
  let t := s.setDom d { s.dom d with fuDue := (s.dom d).fuDue.erase x }
  if (t.pdelay p).asCap && portUp t p then
    (gptpSend t p t.cclk (followUpBytes t p x.2.2 x.2.1) none).bump (aPtpCnt 3)
  else t

/-- FOLLOW_UP_TX. -/
def execFollowUpTx (d port : Nat) (s : State) : Result :=
  ifWf (twoOk d && macOk port)
    (match (s.dom d).fuDue.find? (fun x => x.1 == port && x.2.2.known) with
     | some x => sendFollowUp s d port x
     | none => s)

/-- R380: the interval of the grandmaster has passed. -/
def originDue (s : State) (d : Nat) : Bool :=
  domEn s d && domGm s d &&
    (match (s.dom d).origAt with | some t => decide (t + syncInterval s d ≤ s.cclk) | none => true)

/-- SYNC_ORIGINATE. -/
def execSyncOriginate (d : Nat) (s : State) : Result :=
  ifWf (twoOk d)
    (whenever (originDue s d) s
      (sendSyncs { dom := d, orig := true, oneStep := domOneStep s d } (masterPorts s d) s.cclk
        (s.setDom d { s.dom d with origAt := some s.cclk })))

/-! ### Twin copy (R383) -/

/-- Table 12-1: a valid twin copy, taken by a domain in FREE: the copied time advanced to this cycle and the ADJ. -/
def domAdopt (s : State) (d time : Nat) (adj : Int) : State :=
  if (s.dom d).state = .free ∧ domEn s d then domEnter (takeAdj (domStep s d time) d adj) d .acquire else s

end Sys2Proof.Machine
end

