-- ==== Sys2Proof/Machine/Msec.lean ====
section
/-!
DEFINITION. Secure associations and the rotation of the inline pipes (spec/13_cipher_and_macsec.md, R387, R388, R395,
R399 to R401, R404 to R407).
-/
namespace Sys2Proof.Machine
open Sys2Proof

/-! ### Secure associations (R387) -/

/-- `MSC_STAT.INST`: why an installation is refused; 0 when it is not. Marks: DEDUCED (log entry 44). -/
def installCause (s : State) (p : Nat) (sa : SaId) (k : Nat) : Nat :=
  let x := s.keySlot k
  if !keyValid x then 1
  else if !keyPermits s k .inline_ true uMACSEC || !ancestorsOk s 4 k then 2
  else if keyType x ≠ (if mscKeyLen s p = 32 then 2 else 1) then 3
  else
    match sa with
    | .tx _ => if bit x.attr.toNat 14 then 4 else 0
    | .rx _ _ => 0

/-- Fields of CTRL that a write sets: AN and KEY (Table 13-10). -/
def ctrlFields (val : Word) : Nat := bits val.toNat 1 2 * 2 + bits val.toNat 4 10 * 16

/-- R387, R400: what a transmit SA starts with; its slot serves no other in this generation. -/
def startTx (s : State) (p : Nat) (sa : SaId) (i k : Nat) : State :=
  let t := setSaPn s p sa 1
  let t := t.setPair (aMsc p (saOff sa + 0x0C)) (if t.bitAt (aMsc p 0x040) 9 then 2 ^ 20 else 2 ^ 64 - 1)
  let x := t.keySlot k
  (t.setKeySlot k { x with attr := setBit x.attr 14 }).setBitAt (aMsc p 0x060) (2 + i) false

/-- R387: an SA is installed. -/
def installSa (s : State) (p : Nat) (sa : SaId) (val : Word) : State :=
  let k := bits val.toNat 4 10
  let t := s.setReg (aMsc p (saOff sa)) (w32 (ctrlFields val + 1 + (s.keySlot k).gen * 2 ^ 16))
  let t := t.setSaRun p sa {}
  match sa with
  | .tx i => startTx t p sa i k
  | .rx _ _ => t

/-- An installation that the checks of R387 refuse, or one that SILT_FULL refuses, or the SA.
Marks: DEDUCED (log entry 44). -/
def tryInstall (s : State) (w : Who) (p : Nat) (sa : SaId) (val : Word) : State :=
  let a := aMsc p (saOff sa)
  match readSlot s (bits val.toNat 4 10) with
  | (s, _) =>
    match installCause s p sa (bits val.toNat 4 10) with
    | 0 =>
      if isHost w.m ∧ siltFull s then s.refuse (pMsc p) .siltFull w a
      else
        let t := installSa s p sa val
        logReg t (originOf w.m) a (s.reg a) (t.reg a) false
    | c => (s.setFld (aMsc p 0x060) 4 3 c).refuse (pMsc p) .valueRange w a

/-- A refusal that comes before the checks of R387 in the order of R46. Marks: DEDUCED (log entry 44). -/
def saRefusal (s : State) (w : Who) (p : Nat) (sa : SaId) (val : Word) : Option (Nat × Refused) :=
  match checkWrite s w (aMsc p (saOff sa)) 4 val with
  | some (q, r) => if r = .siltFull then none else some (q, r)
  | none => none

/-- SA_INSTALL. -/
def execSaInstall (w : Who) (port : Nat) (sa : SaId) (val : Word) (s : State) : Result :=
  ifWf (macOk port && saOk sa && bit val.toNat 0)
    (match saRefusal s w port sa val with
     | some (q, r) => s.refuse q r w (aMsc port (saOff sa))
     | none => tryInstall s w port sa val)

/-- R387: a write of VALID = 0: of an installed SA it removes the SA and writes no other field.
Marks: DEDUCED (log entry 44). -/
def removeSa (s : State) (w : Who) (p : Nat) (sa : SaId) (val : Word) : State :=
  let a := aMsc p (saOff sa)
  let old := s.reg a
  let new := if bit old.toNat 0 then clrBit old 0 else w32 (ctrlFields val + bits old.toNat 16 16 * 2 ^ 16)
  logReg (s.setReg a new) (originOf w.m) a old new false

/-- SA_REMOVE. -/
def execSaRemove (w : Who) (port : Nat) (sa : SaId) (val : Word) (s : State) : Result :=
  ifWf (macOk port && saOk sa && !bit val.toNat 0)
    (s.write w (aMsc port (saOff sa)) val (removeSa s w port sa val))

/-- R395: the transmit SA of later frames. -/
def selectSa (s : State) (w : Who) (p : Nat) (val : Word) : State :=
  let a := aMsc p 0x054
  let new := w32 (val.toNat % 2)
  logReg (s.setReg a new) (originOf w.m) a (s.reg a) new false

/-- ENC_SA_WRITE. -/
def execEncSaWrite (w : Who) (port : Nat) (val : Word) (s : State) : Result :=
  ifWf (macOk port) (s.write w (aMsc port 0x054) val (selectSa s w port val))

/-! ### Reservations of a shared SecY (R400, R401) -/

/-- Ports whose SecY is shared. -/
def sharedPorts (s : State) : List Nat := (List.range 48).filter (fun p => s.bitAt (aMsc p 0x040) 9)

/-- Transmit SAs that are installed on shared ports. -/
def sharedSas (s : State) : List (Nat × Nat) :=
  (sharedPorts s).flatMap (fun p => ((List.range 2).filter (fun i => bit (saCtrl s p (.tx i)) 0)).map (fun i => (p, i)))

/-- R400: the standby has acknowledged sync point `n`; a raise that waited for that is made. -/
def rsvConfirm (n : Nat) (s : State) (x : Nat × Nat) : State :=
  let r := s.saRun x.1 (.tx x.2)
  match r.raise with
  | some k => if k ≤ n then raiseRsv (s.setSaRun x.1 (.tx x.2) { r with raise := none }) x.1 (.tx x.2) else s
  | none => s

/-- R399: RSV of a SecY that is not shared reads all ones. -/
def mscCommit (s : State) (p : Nat) : State :=
  if s.bitAt (aMsc p 0x040) 9 then s
  else [0, 1].foldl (fun t i => t.setPair (aMsc p (saOff (.tx i) + 0x0C)) (2 ^ 64 - 1)) s

/-- R401: one transmit SA of a shared SecY at a takeover. -/
def takeoverSa (s : State) (x : Nat × Nat) : State :=
  let p := x.1
  let sa := SaId.tx x.2
  let n := s.pair (aMsc p (saOff sa + 0x0C)) + 2 ^ 20 + 1
  let t := (setSaPn s p sa (n % 2 ^ 64)).setPair (aMsc p (saOff sa + 0x0C)) ((n + 2 ^ 20 - 1) % 2 ^ 64)
  if pnLimit t p < n then exhaustTx t p x.2 else t

/-- R401. -/
def mscTakeover (s : State) : State := (sharedSas s).foldl takeoverSa s

/-! ### Rotation of the pipes (R406) -/

/-- Pipes of a direction in the order of the rotation, the next one first. -/
def katOrder (s : State) (eg : Bool) : List Nat := (List.range 5).map (fun i => ((s.kat eg).next + i) % 5)

/-- A rotation is due: KAT_MS have passed, the direction has a spare and has retired no pipe. -/
def katDue (s : State) (eg : Bool) : Bool :=
  let r := s.kat eg
  r.spare.isSome && r.testing.isNone && s.fld (aCe 0x04C) (8 * b2n eg) 5 == 0 && s.bitAt (aCe 0x044) 0
  && decide (r.startAt + s.fld (aCe 0x040) 0 16 * 1000000 ≤ s.cclk)

/-- R406: the spare takes the slot of the next pipe, which is freed for its tests. -/
def rotate (s : State) (eg : Bool) : State :=
  let r := s.kat eg
  match (katOrder s eg).find? (fun i => (List.range 4).any (fun k => pipeOf s eg k == i)), r.spare with
  | some i, some j =>
    match (List.range 4).find? (fun k => pipeOf s eg k == i) with
    | some k =>
      ((s.setFld (aCe 0x048) (4 * k + 16 * b2n eg) 4 j).setKat eg
        { testing := some i, spare := none, next := (i + 1) % 5, startAt := s.cclk }).bump (aCeCnt 7)
    | none => s
  | _, _ => s

/-- KAT_ROTATION. -/
def execKatRotation (eg : Bool) (s : State) : Result := .next (whenever (katDue s eg) s (rotate s eg))

/-- NO_PIPE of `CE_STAT` shows whether a slot has no pipe. -/
def markNoPipe (s : State) : State :=
  s.setBitAt (aCe 0x044) 3 ((List.range 4).any (fun k => pipeOf s false k == 7 || pipeOf s true k == 7))

/-- A pipe that has passed is the spare, and takes a slot that has no pipe. Marks: DEDUCED (log entry 44). -/
def katPassed (s : State) (eg : Bool) (i : Nat) : State :=
  let t := s.bump (aCeCnt 5)
  let r := t.kat eg
  match (List.range 4).find? (fun k => pipeOf t eg k == 7) with
  | none => t.setKat eg { r with testing := none, spare := some i }
  | some k => markNoPipe ((t.setKat eg { r with testing := none }).setFld (aCe 0x048) (4 * k + 16 * b2n eg) 4 i)

/-- R406: the tests of a freed pipe end. Marks: DESIGN CHOICE (log entry 55). -/
def katEnds (s : State) (eg pass : Bool) : State :=
  match (s.kat eg).testing with
  | none => s
  | some i =>
    if pass then katPassed s eg i
    else retirePipe (((s.bump (aCeCnt 6)).raise (pCe 0) 0).report 0x20 (pipeUnit eg i) [] false) eg i

/-- KAT_COMPLETE. -/
def execKatComplete (eg pass : Bool) (s : State) : Result := .next (katEnds s eg pass)

end Sys2Proof.Machine
end

