-- ==== Sys2Proof/Machine/Lookaside.lean ====
section
/-!
DEFINITION. Lookaside requests of the cipher engine (spec/13_cipher_and_macsec.md, R408 to R413): taking in turn,
admission with its checks, the operations of Table 13-5 and their completions.
-/
namespace Sys2Proof.Machine
open Sys2Proof

/-! ### Sources -/

/-- The ring of a source. -/
def laRing : LaSource → Option RingId
  | .host h x => some (.la h x)
  | .mp0 => none
  | .mp1 => none
  | .gwe => none

/-- Turn of a source: 0 HA, 1 HB, 2 internal (R409). -/
def laTurn : LaSource → Nat
  | .host .a _ => 0
  | .host .b _ => 1
  | .mp0 => 2
  | .mp1 => 2
  | .gwe => 2

/-- The requester that MASTER permits (R426). -/
def laUser : LaSource → KeyUser
  | .host .a _ => .ha
  | .host .b _ => .hb
  | .mp0 => .mp0
  | .mp1 => .mp1
  | .gwe => .gwe

/-- WORLD of a source (R426). -/
def laWorld : LaSource → Bool
  | .host _ x => x
  | .mp0 => true
  | .mp1 => true
  | .gwe => true

/-- Requests of a turn in flight, queued or admitted. -/
def laInFlight (s : State) (t : Nat) : Nat := ((s.cipher.queue ++ s.cipher.adm).filter (fun r => laTurn r.source == t)).length

/-- R408: room for a request of a turn. -/
def laRoom (s : State) (t : Nat) : Bool := decide (laInFlight s t < (if t = 2 then 32 else 64))

/-- A ring has a descriptor to take. -/
def ringHas (s : State) (r : RingId) : Bool := ringEn s r && ringPosted s r != 0

/-- The hosts whose rings have something that can be taken. -/
def hostHas (s : State) (t : Nat) : Bool :=
  let h : HostPort := if t = 0 then .a else .b
  laRoom s t && (ringHas s (.la h false) || ringHas s (.la h true))

/-- R409: no source whose turn comes before has anything posted. The internal users post nothing but their commands. -/
def laMyTurn (s : State) (t : Nat) : Bool :=
  let last := s.cipher.turn
  let before := (List.range ((t + 2 - last % 3) % 3)).map (fun i => (last + 1 + i) % 3)
  before.all (fun x => x == 2 || !hostHas s x)

/-- R409: a request is taken from its source. -/
def laTakes (s : State) (src : LaSource) : Bool :=
  s.bitAt (aCe 0x044) 0 && laRoom s (laTurn src) && (src == .gwe || laMyTurn s (laTurn src))
  && (match laRing src with | some r => ringHas s r | none => true)

/-! ### Forms (Table 13-5) -/

/-- TLEN in bytes. -/
def laTlen (d : LaDesc) : Nat := if d.tlen = 0 then 16 else d.tlen

/-- TLEN is a tag length. -/
def tlenOk (d : LaDesc) : Bool := d.tlen == 0 || decide (4 ≤ d.tlen ∧ d.tlen ≤ 16)

/-- Bytes of output of a request that its lengths fit. -/
def laOutLen (d : LaDesc) : Nat :=
  match d.op with
  | 0x01 => d.srcLen | 0x02 => d.srcLen - 16 | 0x03 => d.srcLen - d.aadLen + 16 | 0x04 => d.srcLen - d.aadLen - 28
  | 0x05 => laTlen d | 0x07 => 8 + laTlen d | 0x08 => d.srcLen + 8 | 0x09 => d.srcLen - 8
  | 0x10 => 32 | 0x11 => 48 | 0x12 => 32 | 0x13 => 48
  | 0x20 => 2 * d.srcLen | 0x22 => d.srcLen / 2 | 0x30 => d.dstLen
  | _ => 0

/-- The input lengths fit. -/
def laSrcOk (d : LaDesc) : Bool :=
  match d.op with
  | 0x02 => decide (16 ≤ d.srcLen)
  | 0x03 => decide (d.aadLen ≤ d.srcLen)
  | 0x04 => decide (d.aadLen + 28 ≤ d.srcLen)
  | 0x06 => decide (laTlen d ≤ d.srcLen)
  | 0x08 => decide (16 ≤ d.srcLen ∧ d.srcLen ≤ 4096 ∧ d.srcLen % 8 = 0)
  | 0x09 => decide (24 ≤ d.srcLen ∧ d.srcLen ≤ 4104 ∧ d.srcLen % 8 = 0)
  | 0x20 => d.srcLen == 32 || d.srcLen == 48
  | 0x21 => d.srcLen == 160 || d.srcLen == 240
  | 0x22 => d.srcLen == 64 || d.srcLen == 96
  | 0x30 => d.srcLen == 0 && decide (1 ≤ d.dstLen ∧ d.dstLen ≤ 65536)
  | 0x31 => d.srcLen == 0
  | 0x3E => d.srcLen == 0
  | _ => true

/-- OPs that have a tag length. -/
def hasTag (op : Nat) : Bool := op == 5 || op == 6 || op == 7

/-- Step 2 of R410. -/
def laLenOk (d : LaDesc) : Bool :=
  (if hasTag d.op then tlenOk d else d.tlen == 0) && laSrcOk d && decide (laOutLen d ≤ d.dstLen)

/-- The usage class of an OP; none for an OP that uses no key. -/
def laUse (op : Nat) : Option Nat :=
  match op with
  | 0x01 => some uENC | 0x02 => some uDEC | 0x03 => some uENC | 0x04 => some uDEC | 0x05 => some uMAC
  | 0x06 => some uMAC | 0x07 => some uMAC | 0x08 => some uWRAP | 0x09 => some uWRAP | 0x12 => some uMAC
  | 0x13 => some uMAC | 0x20 => some uSIGN | 0x22 => some uAGREE | _ => none

/-- The key type that an OP needs. -/
def laTypeOk (d : LaDesc) (ty : Nat) : Bool :=
  match d.op with
  | 0x12 => ty == 3
  | 0x13 => ty == 4
  | 0x20 => ty == (if d.srcLen = 32 then 5 else 6)
  | 0x22 => ty == (if d.srcLen = 64 then 5 else 6)
  | _ => ty == 1 || ty == 2

/-- OPs that take a counter value (R411). -/
def takesCtr (op : Nat) : Bool := op == 1 || op == 3 || op == 7

/-- Engine time. -/
def laTime (d : LaDesc) : Nat :=
  let blk := ceilDiv d.srcLen 16
  match d.op with
  | 0x01 => 120 + 4 * blk
  | 0x02 => 120 + 4 * ceilDiv (d.srcLen - 16) 16
  | 0x03 => 140 + 4 * (ceilDiv d.aadLen 16 + ceilDiv (d.srcLen - d.aadLen) 16)
  | 0x04 => 140 + 4 * (ceilDiv d.aadLen 16 + ceilDiv (d.srcLen - d.aadLen - 28) 16)
  | 0x05 => 120 + 4 * blk
  | 0x06 => 120 + 4 * ceilDiv (d.srcLen - laTlen d) 16
  | 0x07 => 124 + 4 * blk
  | 0x08 => 200 + 24 * (d.srcLen / 8)
  | 0x09 => 200 + 24 * (d.srcLen / 8)
  | 0x10 => 100 + 72 * ceilDiv d.srcLen 64
  | 0x11 => 100 + 96 * ceilDiv d.srcLen 128
  | 0x12 => 244 + 72 * ceilDiv d.srcLen 64
  | 0x13 => 292 + 96 * ceilDiv d.srcLen 128
  | 0x20 => if d.srcLen = 32 then 150000 else 340000
  | 0x21 => if d.srcLen = 160 then 290000 else 660000
  | 0x22 => if d.srcLen = 64 then 140000 else 320000
  | 0x30 => 200 + 40 * ceilDiv d.dstLen 16
  | 0x31 => 60000
  | _ => 0

/-- Engines that can run an OP: 0, 1 AES; 2, 3 hash; 4 ECC; 5 DRBG. -/
def laEngines (op : Nat) : List Nat :=
  if op < 0x10 then [0, 1] else if op < 0x20 then [2, 3] else if op < 0x30 then [4] else if op = 0x3E then [] else [5]

/-- Requests admitted to an engine. -/
def engineLoad (s : State) (e : Nat) : Nat := (s.cipher.adm.filter (fun r => r.engine == e)).length

/-- R409: the engine that a request would be admitted to: one with room, the least loaded; 6 the lane of GWE.
Marks: DEDUCED (log entry 43). -/
def laEngine (s : State) (r : LaReq) : Option Nat :=
  if r.source == .gwe && hasTag r.d.op then some 6
  else if r.d.op = 0x3E then some 7
  else leastBy (fun e => engineLoad s e * 8 + e) ((laEngines r.d.op).filter (fun e => decide (engineLoad s e < 16)))

/-! ### Completions (Table 13-6) -/

/-- Bytes of a completion entry. -/
def laCompletion (r : LaReq) (status outLen value : Nat) (wrap : Bool) : List Byte :=
  leBytes 2 r.d.tag ++ [b8 status, b8 (b2n (match r.source with | .host _ x => x | .mp0 => false | .mp1 => false | .gwe => false)
    + 128 * b2n wrap)] ++ leBytes 4 outLen ++ leBytes 8 value

/-- A request completes with a status, an output and VALUE. -/
def laFinish (s : State) (r : LaReq) (status : Nat) (out : List Byte) (value : Nat) : State :=
  let s := if status = 0 then s.bump (aCeCnt 0) else if status = 8 then s.bump (aCeCnt 2) else s
  match r.source with
  | .host h x =>
    let s := if out.isEmpty then s else s.emit (.hostWrite h r.d.dst out)
    ringComplete s (.la h x) r.d.int (laCompletion r status out.length value)
  | .mp0 => s
  | .mp1 => s
  | .gwe => s

/-! ### Admission (R410, R411) -/

/-- R411: the next counter value of a slot is used; the reservation in NVM is kept ahead of it. -/
def useCtr (s : State) (k : Nat) : State :=
  let x := s.keySlot k
  let t := s.setKeySlot k (if x.ctr = 2 ^ 64 - 1 then { x with ctrExh := true } else { x with ctr := x.ctr + 1 })
  let rsv := Tab.get (fun _ => 0) t.nvm.nonceRsv k
  if rsv < x.ctr + 1 + 2 ^ 15 then
    { t with nvm := { t.nvm with nonceRsv := Tab.set (fun _ => 0) t.nvm.nonceRsv k (rsv + 2 ^ 16) } }
  else t

/-- Steps 3 to 6 of R410 for a key; 0 when they pass. Marks: DEDUCED (log entry 43). -/
def laKeyCheck (s : State) (r : LaReq) (bad : Bool) : Nat :=
  let x := s.keySlot r.d.key
  match laUse r.d.op with
  | none => 0
  | some u =>
    if bad then 0x09
    else if !keyValid x then 0x04
    else if !keyPermits s r.d.key (laUser r.source) (laWorld r.source) u || !laTypeOk r.d (keyType x) then 0x05
    else if !ancestorsOk s 4 r.d.key then 0x06
    else if takesCtr r.d.op && x.ctrExh then 0x07 else 0

/-- R410: the status with which a request is refused at admission, and the state after its slot has been read.
Marks: DEDUCED (log entry 43). -/
def laCheck (s : State) (r : LaReq) : State × Nat :=
  if !laOps.contains r.d.op then (s, 0x01)
  else if !laLenOk r.d then (s, 0x02)
  else
    match (if (laUse r.d.op).isSome then readSlot s r.d.key else (s, false)) with
    | (t, bad) =>
      let c := laKeyCheck t r bad
      (t, if c = 0 && r.fault then 0x03 else c)

/-- The IV of R411: fixed field with TWIN_ID, then C. -/
def laIv (s : State) (c : Nat) : List Byte :=
  beBytes 4 (bits (s.reg (aCe 0x050)).toNat 0 31 + b2n Config.twinStrap * 2 ^ 31) ++ beBytes 8 c

/-- R413: the requests that a fence waits for. -/
def fenceWaits (s : State) (k : Nat) : List Nat :=
  (s.cipher.adm.filter (fun r => (laUse r.d.op).isSome && (r.d.key == k || (ancestors s 4 r.d.key).contains k))).map
    (fun r => r.num)

/-- R410: the DRBG requests are completed with RNG_FAIL. -/
def rngFail (s : State) : State :=
  let bad := s.cipher.adm.filter (fun r => r.engine == 5)
  let t := { s with cipher := { s.cipher with adm := s.cipher.adm.filter (fun r => r.engine != 5) } }
  let t := bad.foldl (fun t r => laFinish t r 0x0A [] 0) t
  (((t.bump (aCeCnt 9)).raise (pCe 0) 3).report 0x21 (unitId 6 0x220) [] false).setBitAt (aCe 0x044) 4 false

/-- R410: the DRBG is reseeded. -/
def reseeded (s : State) : State :=
  ({ s with cipher := { s.cipher with drbgCount := 0 } }.bump (aCeCnt 8)).setBitAt (aCe 0x044) 4 true

/-- R410: a DRBG request runs an entropy health test: each reseed, and a generation after 2^16 requests. -/
def needsHealth (s : State) (r : LaReq) : Bool := r.d.op == 0x31 || (r.d.op == 0x30 && decide (2 ^ 16 ≤ s.cipher.drbgCount))

/-- A request is admitted to an engine. -/
def laAdmit (s : State) (r : LaReq) (e : Nat) : State :=
  let start := if e < 6 then max s.cclk (Tab.get (fun _ => 0) s.cipher.engineEnd e) else s.cclk
  let x := s.keySlot r.d.key
  let waits := if r.d.op = 0x3E then fenceWaits s r.d.key else []
  let q : LaReq := { r with engine := e, doneAt := start + laTime r.d, key := x.key, ctr := x.ctr, waits := waits,
                            drained := waits.length }
  let t := if takesCtr r.d.op then useCtr s r.d.key else s
  let ends := if e < 6 then Tab.set (fun _ => 0) t.cipher.engineEnd e (start + laTime r.d) else t.cipher.engineEnd
  { t with cipher := { t.cipher with adm := t.cipher.adm ++ [q], engineEnd := ends } }

/-- A DRBG request meets the health test, or the state of the last one. Marks: DEDUCED (log entry 43). -/
def drbgAdmit (s : State) (r : LaReq) (e : Nat) : State :=
  if needsHealth s r && !r.healthy then laFinish (rngFail s) r 0x0A [] 0
  else if r.d.op = 0x30 ∧ !s.bitAt (aCe 0x044) 4 then laFinish s r 0x0A [] 0
  else
    let t := if needsHealth s r then reseeded s else s
    laAdmit { t with cipher := { t.cipher with drbgCount := t.cipher.drbgCount + 1 } } r e

/-- R410: the request boundary. -/
def laBoundary (s : State) (r : LaReq) (e : Nat) : State :=
  match laCheck s r with
  | (t, 0) => if r.d.op = 0x30 ∨ r.d.op = 0x31 then drbgAdmit t r e else laAdmit t r e
  | (t, st) => laFinish (if st = 3 ∨ st = 9 then t else t.bump (aCeCnt 1)) r st [] 0

/-- FENCE: an earlier request of the ring has not completed. -/
def laFenced (s : State) (before : List LaReq) (r : LaReq) : Bool :=
  r.d.fence && (before ++ s.cipher.adm).any (fun x => x.source == r.source)

/-- R409: admit queued requests in queue order; `kept` are those that still wait. -/
def laAdmitAll : List LaReq → List LaReq → State → State
  | kept, [], s => { s with cipher := { s.cipher with queue := kept } }
  | kept, r :: rest, s =>
    let blocked := laFenced s kept r || kept.any (fun x => laEngines x.d.op == laEngines r.d.op && laEngines r.d.op != []
      && !(r.source == .gwe && hasTag r.d.op))
    if blocked then laAdmitAll (kept ++ [r]) rest s
    else
      match laEngine s r with
      | none => if laOps.contains r.d.op then laAdmitAll (kept ++ [r]) rest s else laAdmitAll kept rest (laBoundary s r 7)
      | some e => laAdmitAll kept rest (laBoundary s r e)

/-- R409: a request is taken, and what can be admitted is. Marks: DEDUCED (log entry 43). -/
def laTake (s : State) (src : LaSource) (d : LaDesc) (input : List Byte) (fault healthy : Bool) : State :=
  if !laTakes s src then s
  else
    let r : LaReq := { source := src, d := d, input := slice input 0 d.srcLen, num := s.cipher.num, fault := fault,
                       healthy := healthy }
    let t := match laRing src with | some x => ringTake s x 1 | none => s
    let t := { t with cipher := { t.cipher with num := t.cipher.num + 1, turn := if src = .gwe then t.cipher.turn else laTurn src,
                                                queue := t.cipher.queue ++ [r] } }
    laAdmitAll [] t.cipher.queue t

/-- A command of Table 13-5. -/
def laCommand (op : Nat) (src : LaSource) (d : LaDesc) (input : List Byte) (fault healthy : Bool) (s : State) : Result :=
  ifWf (laOpOk op d) (laTake s src d input fault healthy)

/-! ### Operations -/

/-- XOR of two byte lists, as long as the first. -/
def xorBytes : List Byte → List Byte → List Byte
  | [], _ => []
  | a :: r, [] => a :: r
  | a :: r, b :: q => (a ^^^ b) :: xorBytes r q

/-- AES-CTR from a first counter block. Marks: DESIGN CHOICE (log entry 13). -/
def aesCtr (key : List Byte) (first : Nat) (bs : List Byte) : List Byte :=
  let ks := (List.range (ceilDiv bs.length 16)).flatMap (fun i =>
    beBytes 16 (Config.aesBlock key (BitVec.ofNat 128 (first + i))).toNat)
  xorBytes bs ks

/-- A CMAC of TLEN bytes. -/
def cmacTag (key bs : List Byte) (n : Nat) : List Byte := (beBytes 16 (Config.cmac key bs).toNat).take n

/-- GCM decryption: the plaintext when the tag agrees. -/
def gcmOpen (key : List Byte) (d : LaDesc) (x : List Byte) : Option (List Byte) :=
  let iv := x.take 12
  let aad := (x.drop 12).take d.aadLen
  let body := x.drop (12 + d.aadLen)
  let ct := body.take (body.length - 16)
  let p := Config.gcmPlain key iv ct
  if beBytes 16 (Config.gcm key iv aad p).2.toNat = body.drop (body.length - 16) then some p else none

/-- Table 13-5: the output of a request; none for a verification that fails. Marks: DESIGN CHOICE (log entry 13). -/
def laOutput (s : State) (r : LaReq) : Option (List Byte) :=
  let d := r.d
  let x := r.input
  let k := r.key
  match d.op with
  | 0x01 => some (aesCtr k (beNat (laIv s r.ctr ++ beBytes 4 0)) x)
  | 0x02 => some (aesCtr k (beAt x 0 16) (x.drop 16))
  | 0x03 =>
    let o := Config.gcm k (laIv s r.ctr) (x.take d.aadLen) (x.drop d.aadLen)
    some (o.1 ++ beBytes 16 o.2.toNat)
  | 0x04 => gcmOpen k d x
  | 0x05 => some (cmacTag k x (laTlen d))
  | 0x06 =>
    let n := x.length - laTlen d
    if cmacTag k (x.take n) (laTlen d) = x.drop n then some [] else none
  | 0x07 => some (beBytes 8 r.ctr ++ cmacTag k (x ++ beBytes 8 r.ctr) (laTlen d))
  | 0x08 => some (Config.keyWrap k x)
  | 0x09 => Config.keyUnwrap k x
  | 0x10 => some (beBytes 32 (Config.sha256 x).toNat)
  | 0x11 => some (beBytes 48 (Config.sha384 x).toNat)
  | 0x12 => some (beBytes 32 (Config.hmac256 k x).toNat)
  | 0x13 => some (beBytes 48 (Config.hmac384 k x).toNat)
  | 0x20 => some (Config.ecdsaSign (d.srcLen == 48) k x s.free)
  | 0x21 =>
    let p := d.srcLen == 240
    let n := if p then 48 else 32
    if Config.ecdsaVerify p (x.take (2 * n)) ((x.drop (2 * n)).take n) (x.drop (3 * n)) then some [] else none
  | 0x22 =>
    match Config.ecdh (d.srcLen == 96) k x with
    | some o => some o
    | none => some (slice (Config.drbg s.free) 0 (d.srcLen / 2))
  | 0x30 => some (slice (Config.drbg s.free) 0 d.dstLen)
  | _ => some []

/-- VALUE of a completion. -/
def laValue (r : LaReq) : Nat := if takesCtr r.d.op then r.ctr else if r.d.op = 0x3E then r.drained else 0

/-- R409, R412: a request finishes, and its place is free. One whose slot has failed parity twice releases no result. -/
def laDone (s : State) (r : LaReq) : State :=
  let t := { s.tick1 with cipher := { s.cipher with adm := s.cipher.adm.filter (fun x => x.num != r.num) } }
  let t :=
    if r.parity && (laUse r.d.op).isSome then laFinish t r 9 [] 0
    else
      match laOutput s r with
      | some out => laFinish t r 0 out (laValue r)
      | none => laFinish t r 8 [] 0
  laAdmitAll [] t.cipher.queue t

/-- An admitted request has finished: its engine time has passed, and what a fence waits for has completed. -/
def laReady (s : State) (r : LaReq) : Bool :=
  decide (r.doneAt ≤ s.cclk) && r.waits.all (fun n => s.cipher.adm.all (fun x => x.num != n))

/-- LOOKASIDE_COMPLETE. -/
def execLookasideComplete (num : Nat) (s : State) : Result :=
  .next (match s.cipher.adm.find? (fun r => r.num == num) with
    | none => s
    | some r => if laReady s r then laDone s r else s)

/-- R403: a Husk event aborts every request without a result or a completion. -/
def laAbort (s : State) : State := { s with cipher := { s.cipher with queue := [], adm := [] } }

/-! ### Commands -/

/-- AES_CTR_ENC. -/
def execAesCtrEnc (src : LaSource) (d : LaDesc) (input : List Byte) (fault : Bool) (s : State) : Result :=
  laCommand 0x01 src d input fault true s

/-- AES_CTR_DEC. -/
def execAesCtrDec (src : LaSource) (d : LaDesc) (input : List Byte) (fault : Bool) (s : State) : Result :=
  laCommand 0x02 src d input fault true s

/-- AES_GCM_ENC. -/
def execAesGcmEnc (src : LaSource) (d : LaDesc) (input : List Byte) (fault : Bool) (s : State) : Result :=
  laCommand 0x03 src d input fault true s

/-- AES_GCM_DEC. -/
def execAesGcmDec (src : LaSource) (d : LaDesc) (input : List Byte) (fault : Bool) (s : State) : Result :=
  laCommand 0x04 src d input fault true s

/-- AES_CMAC_GEN. -/
def execAesCmacGen (src : LaSource) (d : LaDesc) (input : List Byte) (fault : Bool) (s : State) : Result :=
  laCommand 0x05 src d input fault true s

/-- AES_CMAC_VER. -/
def execAesCmacVer (src : LaSource) (d : LaDesc) (input : List Byte) (fault : Bool) (s : State) : Result :=
  laCommand 0x06 src d input fault true s

/-- AES_CMAC_FV. -/
def execAesCmacFv (src : LaSource) (d : LaDesc) (input : List Byte) (fault : Bool) (s : State) : Result :=
  laCommand 0x07 src d input fault true s

/-- AES_KW_WRAP. -/
def execAesKwWrap (src : LaSource) (d : LaDesc) (input : List Byte) (fault : Bool) (s : State) : Result :=
  laCommand 0x08 src d input fault true s

/-- AES_KW_UNWRAP. -/
def execAesKwUnwrap (src : LaSource) (d : LaDesc) (input : List Byte) (fault : Bool) (s : State) : Result :=
  laCommand 0x09 src d input fault true s

/-- SHA256. -/
def execSha256 (src : LaSource) (d : LaDesc) (input : List Byte) (fault : Bool) (s : State) : Result :=
  laCommand 0x10 src d input fault true s

/-- SHA384. -/
def execSha384 (src : LaSource) (d : LaDesc) (input : List Byte) (fault : Bool) (s : State) : Result :=
  laCommand 0x11 src d input fault true s

/-- HMAC_SHA256. -/
def execHmacSha256 (src : LaSource) (d : LaDesc) (input : List Byte) (fault : Bool) (s : State) : Result :=
  laCommand 0x12 src d input fault true s

/-- HMAC_SHA384. -/
def execHmacSha384 (src : LaSource) (d : LaDesc) (input : List Byte) (fault : Bool) (s : State) : Result :=
  laCommand 0x13 src d input fault true s

/-- ECDSA_SIGN. -/
def execEcdsaSign (src : LaSource) (d : LaDesc) (input : List Byte) (fault : Bool) (s : State) : Result :=
  laCommand 0x20 src d input fault true s

/-- ECDSA_VERIFY. -/
def execEcdsaVerify (src : LaSource) (d : LaDesc) (input : List Byte) (fault : Bool) (s : State) : Result :=
  laCommand 0x21 src d input fault true s

/-- ECDH. -/
def execEcdh (src : LaSource) (d : LaDesc) (input : List Byte) (fault : Bool) (s : State) : Result :=
  laCommand 0x22 src d input fault true s

/-- DRBG_GEN. -/
def execDrbgGen (src : LaSource) (d : LaDesc) (healthy : Bool) (s : State) : Result :=
  laCommand 0x30 src d [] false healthy s

/-- DRBG_RESEED. -/
def execDrbgReseed (src : LaSource) (d : LaDesc) (healthy : Bool) (s : State) : Result :=
  laCommand 0x31 src d [] false healthy s

/-- INV_FENCE. -/
def execInvFence (src : LaSource) (d : LaDesc) (s : State) : Result := laCommand 0x3E src d [] false true s

end Sys2Proof.Machine
end

