-- ==== Sys2Proof/Machine/SlOps.lean ====
section
/-!
DEFINITION. Records that the unit sends on the Shell Link (R457 to R459).
-/
namespace Sys2Proof.Machine
open Sys2Proof

/-- R457: the Shell Link is UP. -/
def slUp (s : State) : Bool := s.sl.up &&& s.fld (regAddr pSl 0x040) 0 2 != 0

/-- Counter `k` of Table 15-13. -/
def aSlCnt (k : Nat) : Nat := regAddr pSl (0x100 + 8 * k)

/-- Bytes of a record (Table 15-2). A JOIN_REQ has no payload. Marks: DESIGN CHOICE (log entry 52). -/
def slLen : SlBody → Nat
  | .joinReq => 20
  | b => 20 + Config.slPayloadLen b

/-- A record leaves on a lane of the Shell Link. Marks: DESIGN CHOICE (log entry 52). -/
def slEmitOn (s : State) (lane : Nat) (r : SlRec) : State :=
  ((s.bump (aSlCnt 0)).bumpBy (aSlCnt 6) (slLen r.body)).emit (.sl lane r)

/-- A lane that is UP and enabled. -/
def laneUp (s : State) (lane : Nat) : Bool := bit s.sl.up lane && s.bitAt (regAddr pSl 0x040) lane

/-- R457: the lane whose turn it is. Marks: DESIGN CHOICE (log entry 52). -/
def slLane (s : State) : Nat := if laneUp s s.sl.turn then s.sl.turn else 1 - s.sl.turn

/-- A record leaves on the lane whose turn it is; the other lane is next. Marks: DESIGN CHOICE (log entry 52). -/
def slEmit (s : State) (r : SlRec) : State :=
  let l := slLane s
  slEmitOn { s with sl := { s.sl with turn := 1 - l } } l r

/-- Bytes in the buffer of R459. -/
def slBuffered (s : State) : Nat := (s.sl.unacked.map (fun x => slLen x.1.body)).sum

/-- R459: the buffer of 256 KiB has room for a record. An empty one always has.
Marks: DESIGN CHOICE (log entry 52). -/
def slFits (s : State) (r : SlRec) : Bool :=
  s.sl.unacked.isEmpty || decide (slBuffered s + slLen r.body ≤ 262144)

/-- R459: a sequenced record leaves and is kept until LACK covers it. Marks: DESIGN CHOICE (log entry 52). -/
def slPass (s : State) (r : SlRec) : State :=
  let r := { r with sync := syncCnt s }
  slEmit { s with sl := { s.sl with unacked := s.sl.unacked ++ [(r, s.cclk)] } } r

/-- R459: records that waited leave, oldest first, as far as the buffer has room.
Marks: DESIGN CHOICE (log entry 52). -/
def slDrain : List SlRec → State → State
  | [], s => s
  | r :: t, s => if slFits s r then slDrain t (slPass { s with sl := { s.sl with waiting := t } } r) else s

/-- R459: a sequenced record is sent, or waits while the buffer is full. While the Shell Link is down nothing is
sent. Marks: DESIGN CHOICE (log entry 52). -/
def slSend (s : State) (ty : Nat) (end_ : Bool) (body : SlBody) : State :=
  if !slUp s then s
  else
    let r : SlRec := { ty := ty, end_ := end_, coreEnd := ty == 0x10, lseq := s.sl.txSeq, sync := syncCnt s, body := body }
    let t := { s with sl := { s.sl with txSeq := (s.sl.txSeq + 1) % 2 ^ 32 } }
    if t.sl.waiting.isEmpty && slFits t r then slPass t r
    else { t with sl := { t.sl with waiting := t.sl.waiting ++ [r] } }

end Sys2Proof.Machine
end

