-- ==== Sys2Proof/Machine/Mka.lean ====
section
/-!
DEFINITION. MKA (spec/13_cipher_and_macsec.md, R414 to R416). What IEEE 802.1X-2020 fixes and the spec only names (the
layout of an MKPDU, the key hierarchy, the assignment of SSCIs and salts, the retirement of an old SAK) is that
standard's.
-/
namespace Sys2Proof.Machine
open Sys2Proof

/-- The MKA participant of a port. -/
def State.mka (s : State) (p : Nat) : Mka := Tab.get (fun _ => {}) s.cipher.mka p

/-- The state with it changed. -/
def State.setMka (s : State) (p : Nat) (m : Mka) : State :=
  { s with cipher := { s.cipher with mka := Tab.set (fun _ => {}) s.cipher.mka p m } }

/-- R414, R416: the participant runs in this unit's MP1. -/
def mkaRuns (s : State) (p : Nat) : Bool :=
  s.bitAt (aMsc p 0x064) 0 && s.twin.role != .standby && s.mode != .standby && keyValid (s.keySlot (s.fld (aMsc p 0x064) 16 10))

/-- The CKN of a port. -/
def mkaCkn (s : State) (p : Nat) : List Byte := (List.range 4).flatMap (fun w => leBytes 4 (s.reg (aMsc p (0x068 + 4 * w))).toNat)

/-- A key derived from the CAK. Marks: PRESUMED (log entry 45). -/
def mkaKey (s : State) (p : Nat) (label : String) : List Byte :=
  let x := s.keySlot (s.fld (aMsc p 0x064) 16 10)
  kdf (keyType x) x.key (ascii label) (mkaCkn s p) (8 * x.key.length)

/-- The ICV of an MKPDU up to its ICV. -/
def mkaIcv (s : State) (p : Nat) (bs : List Byte) : List Byte :=
  beBytes 16 (Config.cmac (mkaKey s p "IEEE8021 ICK") bs).toNat

/-! ### MKPDUs -/

/-- The parameter sets of an MKPDU after the basic one: type, second byte and body, at most `n`. -/
def mkaSets (bs : List Byte) (last : Nat) : Nat → Nat → List (Nat × Nat × List Byte)
  | 0, _ => []
  | n + 1, o =>
    if last < o + 4 then []
    else
      let len := bits (beAt bs (o + 2) 2) 0 12
      (byteAt bs o, byteAt bs (o + 1), slice bs (o + 4) len) :: mkaSets bs last n (o + 4 + (len + 3) / 4 * 4)

/-- Offset of an MKPDU's ICV. -/
def mkaEnd (bs : List Byte) : Nat := 18 + beAt bs 16 2 - 16

/-- The MKPDU is one of the port's participant: its CKN and its ICV. -/
def mkaGood (s : State) (p : Nat) (bs : List Byte) : Bool :=
  let o := mkaEnd bs
  etypeOf bs == 0x888E && byteAt bs 15 == 5 && decide (66 ≤ o ∧ o + 16 ≤ bs.length) && slice bs 50 16 == mkaCkn s p
  && bits (beAt bs 20 2) 0 12 == 44 && mkaIcv s p (bs.take o) == slice bs o 16

/-- A peer list names this participant with a message number that it has used. -/
def mkaListed (m : Mka) (sets : List (Nat × Nat × List Byte)) : Bool :=
  match m.mi with
  | none => false
  | some mi =>
    sets.any (fun x => (x.1 == 1 || x.1 == 2) && (List.range (x.2.2.length / 16)).any (fun i =>
      beAt x.2.2 (16 * i) 12 == mi && decide (beAt x.2.2 (16 * i + 12) 4 ≤ m.mn)))

/-- The SAK use set reports a SAK installed for reception. -/
def mkaReports (k : MkaSak) (sets : List (Nat × Nat × List Byte)) : Bool :=
  sets.any (fun x => x.1 == 3 && bit x.2.1 4 && beAt x.2.2 0 12 == k.ksMi && beAt x.2.2 12 4 == k.kn)

/-- Live peers. -/
def livePeers (m : Mka) : List MkaPeer := m.peers.filter (fun x => x.live)

/-- The peer as an MKPDU leaves it. -/
def mkaPeer (s : State) (m : Mka) (bs : List Byte) (sets : List (Nat × Nat × List Byte)) (was : Option MkaPeer) : MkaPeer :=
  let live := (match was with | some x => x.live | none => false)
    || (mkaListed m sets && decide ((livePeers m).length < 4))
  let has := (match was with | some x => x.hasKey | none => false)
    || (match m.sak with | some k => mkaReports k sets | none => false)
  { mi := beAt bs 30 12, mn := beAt bs 42 4, sci := beAt bs 22 8, prio := byteAt bs 19, live := live,
    lifeEnd := s.cclk + 6000000000, hasKey := has }

/-- R414: key server election by priority and SCI: this unit wins. -/
def mkaServer (s : State) (p : Nat) : Bool :=
  let me := s.fld (aMsc p 0x064) 8 8 * 2 ^ 64 + txSci s p
  (livePeers (s.mka p)).all (fun x => decide (me < x.prio * 2 ^ 64 + x.sci))

/-! ### SAKs (R415) -/

/-- Slots of the pool that hold no SAK in use. -/
def poolSlots (s : State) : List Nat :=
  let used := s.cipher.mka.flatMap (fun x =>
    (match x.2.sak with | some k => [k.slot] | none => []) ++ (match x.2.old with | some k => [k.1.slot] | none => []))
  ((List.range (s.fld (aCe 0x054) 16 10)).map (fun i => s.fld (aCe 0x054) 0 10 + i)).filter (fun k =>
    !used.contains k && decide (k < 512) && (s.keySlot k).gen < 0xFFFF)

/-- R429, R441: a SAK is installed into a pool slot; `origin` is MP1's, or the twin's on a standby. -/
def poolInstall (s : State) (origin k : Nat) (key : List Byte) : State :=
  let g := (s.keySlot k).gen
  let attr := 1 + (if key.length = 32 then 2 else 1) * 2 + 2 ^ 8 + 3 * 2 ^ 11 + 2 ^ 22 + 3 * 2 ^ 25
  let t := changeSlot s k (fun x => { x with attr := w32 attr, link := 0, key := key })
  siltKey t origin 0x06 k g (t.keySlot k).gen

/-- A register write of MP1, logged. -/
def mp1Write (s : State) (a : Nat) (v : Word) : State := logReg (s.setReg a v) 4 a (s.reg a) v false

/-- MP1 as a master. -/
def mp1Who : Who := { m := .mp1, sec := true }

/-- SSCI of an SCI among those of a group: 1 for the highest. Marks: PRESUMED (log entry 45). -/
def sscIof (all : List Nat) (sci : Nat) : Nat := (all.filter (fun x => decide (sci < x))).length + 1

/-- Salt of a SAK for XPN: the key server's member identifier with the key number (IEEE 802.1X-2020).
Marks: PRESUMED (log entry 45). -/
def mkaSalt (k : MkaSak) : Nat :=
  k.ksMi ^^^ (k.kn % 2 ^ 16 * 2 ^ 80 + k.kn / 2 ^ 16 % 2 ^ 16 * 2 ^ 64)

/-- The three salt words of a register block. -/
def saltWords (n : Nat) : List Word := [w32 (leNat (beBytes 4 (n / 2 ^ 64))), w32 (leNat (beBytes 4 (n / 2 ^ 32))), w32 (leNat (beBytes 4 n))]

/-- CTRL that installs a SAK. -/
def sakCtrl (k : MkaSak) : Word := w32 (1 + k.an * 2 + k.slot * 16)

/-- The transmit SA of a SAK. -/
def installTx (s : State) (p : Nat) (scis : List Nat) (k : MkaSak) : State :=
  let b := 0x080 + 0x20 * k.sa
  let w := saltWords (mkaSalt k)
  let s := if mscXpn s p then
      mp1Write (mp1Write (mp1Write (mp1Write s (aMsc p (b + 0x14)) (w32 (sscIof scis (txSci s p)))) (aMsc p (b + 0x18)) (w.headD 0))
        (aMsc p (b + 0x1C)) ((w[1]?).getD 0)) (aMsc p (0x0C0 + 4 * k.sa)) ((w[2]?).getD 0)
    else s
  tryInstall s mp1Who p (.tx k.sa) (sakCtrl k)

/-- The receive SC of a peer: the one with its SCI, or the lowest that is not in use. -/
def scOf (s : State) (p sci : Nat) : Option Nat :=
  match rxScOf s p sci with
  | some c => some c
  | none => (List.range 4).find? (fun c => !s.bitAt (aMsc p (0x108 + 0x60 * c)) 0)

/-- A receive SC set up for an SCI. -/
def openSc (s : State) (p c sci : Nat) : State :=
  let b := 0x100 + 0x60 * c
  if s.bitAt (aMsc p (b + 8)) 0 then s
  else mp1Write (mp1Write (mp1Write s (aMsc p b) (w32 sci)) (aMsc p (b + 4)) (w32 (sci / 2 ^ 32))) (aMsc p (b + 8)) 1

/-- The receive SA of a SAK for a peer. -/
def installRx (p : Nat) (scis : List Nat) (k : MkaSak) (s : State) (x : MkaPeer) : State :=
  match scOf s p x.sci with
  | none => s
  | some c =>
    let s := openSc s p c x.sci
    let b := 0x120 + 0x60 * c + 0x20 * k.sa
    let w := saltWords (mkaSalt k)
    let s := mp1Write (mp1Write s (aMsc p (b + 4)) 1) (aMsc p (b + 8)) 0
    let s := if mscXpn s p then
        mp1Write (mp1Write (mp1Write (mp1Write s (aMsc p (b + 0x0C)) (w32 (sscIof scis x.sci))) (aMsc p (b + 0x10)) (w.headD 0))
          (aMsc p (b + 0x14)) ((w[1]?).getD 0)) (aMsc p (b + 0x18)) ((w[2]?).getD 0)
      else s
    tryInstall s mp1Who p (.rx c k.sa) (sakCtrl k)

/-- An SA is removed by MP1. -/
def mp1Remove (p : Nat) (s : State) (sa : SaId) : State :=
  if bit (saCtrl s p sa) 0 then removeSa s mp1Who p sa 0 else s

/-- The SAs that a SA number names on a port. -/
def sasOf (i : Nat) : List SaId := .tx i :: (List.range 4).map (fun c => SaId.rx c i)

/-- R415, R416: a SAK is installed into the transmit SA that ENC_SA does not name and the matching receive SAs; for a
shared SecY the active sends it to the standby. -/
def sakInstall (s : State) (origin p an kn ksMi : Nat) (key : List Byte) : State :=
  match poolSlots s with
  | [] => s
  | slot :: _ =>
    let m := s.mka p
    let i := 1 - b2n (s.bitAt (aMsc p 0x054) 0)
    let k : MkaSak := { slot := slot, an := an, kn := kn, ksMi := ksMi, sa := i }
    let scis := txSci s p :: (livePeers m).map (fun x => x.sci)
    let t := (sasOf i).foldl (mp1Remove p) (poolInstall s origin slot key)
    let t := (livePeers m).foldl (installRx p scis k) (installTx t p scis k)
    let t := if s.twin.role = .active ∧ s.bitAt (aMsc p 0x040) 9 then slSend t 0x50 true (.sak p an kn ksMi key) else t
    t.setMka p { m with
      sak := some k
      old := m.sak.map (fun o => (o, none))
      key := key
      kn := kn
      want := false
      peers := m.peers.map (fun x => { x with hasKey := false }) }

/-- R414, R415: the key server makes a new SAK. -/
def sakMake (s : State) (p : Nat) : State :=
  let m := s.mka p
  if m.want && mkaServer s p && !(livePeers m).isEmpty then
    let an := match m.sak with | some k => (k.an + 1) % 4 | none => 0
    sakInstall s.tick1 4 p an (m.kn + 1) (m.mi.getD 0) (slice (Config.drbg s.free) 0 (mscKeyLen s p))
  else s

/-- R415: ENC_SA moves to the newest SAK once every live peer has reported it installed. -/
def sakSwitch (s : State) (p : Nat) : State :=
  let m := s.mka p
  match m.sak with
  | none => s
  | some k =>
    if b2n (s.bitAt (aMsc p 0x054) 0) ≠ k.sa ∧ !(livePeers m).isEmpty ∧ (livePeers m).all (fun x => x.hasKey)
        ∧ bit (saCtrl s p (.tx k.sa)) 0 then
      let t := selectSa s mp1Who p (w32 k.sa)
      t.setMka p { m with old := m.old.map (fun o => (o.1, some (s.cclk + 3000000000))) }
    else s

/-- The old SAs go when their SAK retires. Marks: PRESUMED (log entry 45). -/
def sakRetire (s : State) (p : Nat) : State :=
  let m := s.mka p
  match m.old with
  | some (k, some t) => if t ≤ s.cclk then ((sasOf k.sa).foldl (mp1Remove p) s).setMka p { m with old := none } else s
  | some (_, none) => s
  | none => s

/-- R414: a SAK that the key server distributes, unwrapped under the KEK: AN, key number and key. -/
def mkaDist (s : State) (p : Nat) (sets : List (Nat × Nat × List Byte)) : Option (Nat × Nat × List Byte) :=
  match sets.find? (fun x => x.1 == 4) with
  | none => none
  | some x =>
    let o := if x.2.2.length = 28 then 4 else 12
    (Config.keyUnwrap (mkaKey s p "IEEE8021 KEK") (x.2.2.drop o)).map (fun k => (bits x.2.1 6 2, beAt x.2.2 0 4, k))

/-- The sender is the elected key server: no live peer, and not this unit, comes before it. -/
def fromServer (s : State) (p : Nat) (x : MkaPeer) : Bool :=
  x.live && !mkaServer s p &&
    (livePeers (s.mka p)).all (fun y => decide (x.prio * 2 ^ 64 + x.sci ≤ y.prio * 2 ^ 64 + y.sci))

/-- A distributed SAK that is new is installed. -/
def mkaTakeSak (s : State) (p : Nat) (x : MkaPeer) (sets : List (Nat × Nat × List Byte)) : State :=
  match mkaDist s p sets with
  | none => s
  | some (an, kn, key) =>
    let known := match (s.mka p).sak with | some k => k.kn == kn && k.ksMi == x.mi | none => false
    if fromServer s p x && !known && key.length == mscKeyLen s p then sakInstall s 4 p an kn x.mi key else s

/-! ### Participants -/

/-- A participant starts with a member identifier drawn from the DRBG. -/
def mkaStart (s : State) (p : Nat) : State :=
  let m := s.mka p
  if m.mi.isSome then s
  else s.tick1.setMka p { m with mi := some (beNat (slice (Config.drbg s.free) 0 12)) }

/-- R398, R415: a transmit SA that has warned or is exhausted asks for a new SAK. -/
def mkaWants (s : State) (p : Nat) : State :=
  let m := s.mka p
  let r := s.saRun p (.tx (b2n (s.bitAt (aMsc p 0x054) 0)))
  match m.sak with
  | none => if (livePeers m).isEmpty then s else s.setMka p { m with want := true }
  | some k => if (r.warned || r.exhausted) && b2n (s.bitAt (aMsc p 0x054) 0) == k.sa then s.setMka p { m with want := true } else s

/-- R414: an MKPDU with a good ICV. -/
def mkaReceive (s : State) (p : Nat) (bs : List Byte) : State :=
  let m := s.mka p
  let sets := mkaSets bs (mkaEnd bs) 16 66
  let was := m.peers.find? (fun x => x.mi == beAt bs 30 12)
  let x := mkaPeer s m bs sets was
  let fresh := match was with | some y => decide (y.mn < x.mn) | none => true
  if !fresh || some x.mi == m.mi then s
  else
    let newLive := x.live && !(match was with | some y => y.live | none => false)
    let t := s.setMka p { m with peers := m.peers.filter (fun y => y.mi != x.mi) ++ [x], want := m.want || newLive }
    sakSwitch (sakMake (mkaTakeSak (mkaWants t p) p x sets) p) p

/-- R416: a standby hands the MKPDUs of its ports to the active. Marks: DEDUCED (log entry 50). -/
def mkaTunnels (s : State) (p : Nat) (bs : List Byte) : State :=
  if s.twin.role = .standby ∧ s.bitAt (aMsc p 0x064) 0 then slSend s 0x50 true (.mka p bs) else s

/-- An MKPDU for a participant that runs here. -/
def mkaHears (s : State) (p : Nat) (bs : List Byte) : State :=
  if mkaRuns s p && mkaGood s p bs then mkaReceive (mkaStart s p) p bs else s

/-- MKPDU_RX. -/
def execMkpduRx (port : Nat) (bytes : List Byte) (s : State) : Result :=
  ifWf (macOk port) (mkaHears (mkaTunnels s port bytes) port bytes)

/-- A peer list parameter set. -/
def peerSet (ty : Nat) (l : List MkaPeer) : List Byte :=
  if l.isEmpty then [] else [b8 ty, 0] ++ beBytes 2 (16 * l.length) ++ l.flatMap (fun x => beBytes 12 x.mi ++ beBytes 4 x.mn)

/-- The SAK use parameter set. -/
def sakUseSet (s : State) (p : Nat) (m : Mka) : List Byte :=
  match m.sak with
  | none => []
  | some k =>
    let tx := b2n (s.bitAt (aMsc p 0x054) 0) == k.sa
    let old := match m.old with
      | some (o, _) => (o.an * 4 + 2 * b2n (!tx) + 1, beBytes 12 o.ksMi ++ beBytes 4 o.kn)
      | none => (0, beBytes 16 0)
    [3, b8 (k.an * 64 + 32 * b2n tx + 16 + old.1)] ++ beBytes 2 40 ++ beBytes 12 k.ksMi ++ beBytes 4 k.kn
      ++ beBytes 4 (saPn s p (.tx k.sa)) ++ old.2 ++ beBytes 4 0

/-- Cipher suite identifiers of IEEE 802.1AE. -/
def suiteId (s : State) (p : Nat) : Nat := 0x0080C20001000001 + s.fld (aMsc p 0x040) 1 2

/-- The distributed SAK parameter set of the key server. -/
def distSet (s : State) (p : Nat) (m : Mka) : List Byte :=
  match m.sak with
  | none => []
  | some k =>
    if !mkaServer s p || some k.ksMi != m.mi then []
    else
      let conf := if s.bitAt (aMsc p 0x040) 3 then s.fld (aMsc p 0x040) 4 2 + 1 else 0
      let w := Config.keyWrap (mkaKey s p "IEEE8021 KEK") m.key
      let body := beBytes 4 k.kn ++ (if s.fld (aMsc p 0x040) 1 2 = 0 then [] else beBytes 8 (suiteId s p)) ++ w
      [4, b8 (k.an * 64 + conf * 16)] ++ beBytes 2 body.length ++ body

/-- An MKPDU of the participant. Marks: PRESUMED (log entry 45). -/
def mkpduBytes (s : State) (p : Nat) : List Byte :=
  let m := s.mka p
  let basic := [3, b8 (s.fld (aMsc p 0x064) 8 8)]
    ++ beBytes 2 (b2n (mkaServer s p) * 2 ^ 15 + 2 ^ 14 + 3 * 2 ^ 12 + 44) ++ beBytes 8 (txSci s p)
    ++ beBytes 12 (m.mi.getD 0) ++ beBytes 4 m.mn ++ beBytes 4 0x0080C201 ++ mkaCkn s p
  let sets := peerSet 1 (livePeers m) ++ peerSet 2 (m.peers.filter (fun x => !x.live)) ++ sakUseSet s p m ++ distSet s p m
  let body := basic ++ sets
  let head := beBytes 6 0x0180C2000003 ++ beBytes 6 (txSci s p / 2 ^ 16) ++ beBytes 2 0x888E ++ [3, 5] ++ beBytes 2 (body.length + 16)
  head ++ body ++ mkaIcv s p (head ++ body)

/-- R414: a hello is due. -/
def helloDue (s : State) (p : Nat) : Bool := mkaRuns s p && portUp s p && decide ((s.mka p).helloAt ≤ s.cclk)

/-- R414: an MKPDU goes out on port 51 with its egress port named. -/
def mkaSend (s : State) (p : Nat) : State :=
  let m := s.mka p
  let t := s.setMka p { m with mn := m.mn + 1, helloAt := s.cclk + 2000000000 }
  sourceFrame t t.cclk (mgmtFrame t p (mkpduBytes t p))

/-- MKA_HELLO. -/
def execMkaHello (port : Nat) (s : State) : Result :=
  ifWf (macOk port)
    (whenever (helloDue s port) s
      (mkaSend (sakSwitch (sakMake (sakRetire (mkaWants (mkaStart s port) port) port) port) port) port))

/-- R414: a peer whose life time has ended goes; the key server makes a new SAK for those that stay.
Marks: PRESUMED (log entry 45). -/
def peerGoes (s : State) (p mi : Nat) : State :=
  let m := s.mka p
  match m.peers.find? (fun x => x.mi == mi) with
  | none => s
  | some x =>
    if s.cclk < x.lifeEnd then s
    else
      let t := s.setMka p { m with peers := m.peers.filter (fun y => y.mi != mi), want := m.want || x.live }
      sakSwitch (sakMake t p) p

/-- MKA_PEER_TIMEOUT. -/
def execMkaPeerTimeout (port mi : Nat) (s : State) : Result :=
  ifWf (macOk port) (whenever (mkaRuns s port) s (peerGoes s port mi))

/-- R416: at a takeover every participant goes on with its message number plus 2^16. -/
def mkaTakeover (s : State) : State :=
  { s with cipher := { s.cipher with mka := s.cipher.mka.map (fun x => (x.1, { x.2 with mn := x.2.mn + 2 ^ 16 })) } }

end Sys2Proof.Machine
end

