-- ==== Sys2Proof/Machine/ModeOps.lean ====
section
/-!
DEFINITION. What several families share about modes: the mailbox (R73, R74, R589), the mode change and its Silt entry
(R520, R521), what becomes of armed commits (R61), the fall of ALIVE (R453) and entry to QUARANTINE (R535).
-/
namespace Sys2Proof.Machine
open Sys2Proof

/-! ### Mailbox -/

/-- BAR0 offset of a register of a host's mailbox page. -/
def aMbx (h : HostPort) (off : Nat) : Nat := regAddr (pHif h 3) off

/-- Byte `i` of a host's request area. -/
def mbxByte (s : State) (h : HostPort) (i : Nat) : Nat := s.fld (aMbx h (0x100 + i / 4 * 4)) (8 * (i % 4)) 8

/-- `n` bytes of a host's request area from byte `o`. -/
def mbxBytes (s : State) (h : HostPort) (o n : Nat) : List Byte :=
  (List.range n).map (fun i => b8 (mbxByte s h (o + i)))

/-- OPCODE of a request. -/
def mbxOp (s : State) (h : HostPort) : Nat := mbxByte s h 0 + 256 * mbxByte s h 1

/-- LEN of a request. -/
def mbxLen (s : State) (h : HostPort) : Nat := mbxByte s h 4 + 256 * mbxByte s h 5

/-- Write bytes from byte `i` of the response area on. -/
def putRsp (h : HostPort) : Nat → List Byte → State → State
  | _, [], s => s
  | i, b :: bs, s => putRsp h (i + 1) bs (s.setFld (aMbx h (0x200 + i / 4 * 4)) (8 * (i % 4)) 8 b.toNat)

/-- R73: the response: OPCODE, TAG and LEN again, STATUS in byte 6, then what the opcode adds from byte 8 on. DONE is
set, BUSY cleared and vector 0 raised in the same cycle. Marks: DEDUCED (log entry 24). -/
def mbxRespond (s : State) (h : HostPort) (status : Nat) (payload : List Byte) : State :=
  let t := putRsp h 0 (mbxBytes s h 0 6 ++ [b8 status, 0] ++ payload) s
  let t := t.setReg (aMbx h 0x044) (putFld (t.reg (aMbx h 0x044)) 0 2 2)
  { t with mbx := t.mbx.filter (fun x => x != h) }.sendVec h 0

/-- R73: a doorbell: the request is taken in order, or ignored while BUSY = 1. Marks: DEDUCED (log entry 24). -/
def mbxDoor (s : State) (h : HostPort) : State :=
  if s.bitAt (aMbx h 0x044) 0 then s.setBitAt (aMbx h 0x044) 2 true
  else { (s.setReg (aMbx h 0x044) (w32 1)) with mbx := s.mbx ++ [h] }

/-- R74: the request of host `h` with an opcode is the one that is served next. -/
def mbxFront (s : State) (h : HostPort) (op : Nat) : Bool := s.mbx.head? == some h && mbxOp s h == op

/-- R589: whether LEN is not the opcode's length. -/
def mbxBadLen (s : State) (h : HostPort) (len : Nat) : Bool := mbxLen s h != len

/-- A request of an opcode that is served in the present mode: QUARANTINE serves two requests only (R535), and a unit
held in BOOT has no management processor running. Marks: DEDUCED (log entry 24). -/
def mbxServe (s : State) (h : HostPort) (op len : Nat) (act : State → State) : State :=
  if !mbxFront s h op then s
  else if s.mode = .quarantine then mbxRespond s h 3 []
  else if s.mode = .boot ∨ asleep s.mode then s
  else if mbxBadLen s h len then mbxRespond s h 2 []
  else act s

/-! ### Modes -/

/-- Codes of `PWR_STAT.MODE`. -/
def modeCode : Mode → Nat
  | .boot => 1 | .configure => 2 | .active => 3 | .standby => 4 | .degraded => 5 | .service => 6 | .quarantine => 7
  | .sleepRetain => 8 | .sleepDeep => 9

/-- BAR0 offset of a PWR register. -/
def aPwr (off : Nat) : Nat := regAddr pPwr off

/-- BAR0 offset of counter `k` of the PWR page. -/
def aPwrCnt (k : Nat) : Nat := aPwr (0x100 + 8 * k)

/-- R521: a mode change, with its Silt entry and MODE_CHANGE. -/
def setMode (s : State) (m : Mode) (origin sub addr : Nat) : State :=
  if s.mode = m then s
  else ({ s with mode := m }.silt_ (w32 (modeCode s.mode)) (w32 (modeCode m)) origin 6 sub addr).raise pPwr 0

/-- The mode follows role logic (SUB 0x03). -/
def roleMode (s : State) (m : Mode) : State := setMode s m 3 3 0

/-- `SYS_COMMIT_STAT_A` or `_B` of the writer of a GO. -/
def commitStat (s : State) (w : Master) (st code tag : Nat) : State :=
  let v := w32 (st + code * 2 ^ 4 + tag % 2 ^ 16 * 2 ^ 16)
  match w with
  | .ha => s.setReg (regAddr pSys 0x044) v
  | .hb => s.setReg (regAddr pSys 0x048) v
  | .mp0 => s
  | .mp1 => s

/-- A part of a commit is refused: its shadows and records are pending again. -/
def refusePart (code : Nat) (s : State) (p : CommitPart) : State :=
  (commitStat (unarmRecords (returnShadows s p.vals) p.id) p.writer 3 code p.tag).raise pSys 1

/-- R61: armed commits are discarded, the newest part first, so that a newer value of a register stands.
Marks: DEDUCED (log entry 21). -/
def discardCommits (s : State) : State :=
  { ((s.commits.flatMap (fun c => c.parts)).reverse.foldl (refusePart 4) s) with commits := [] }

/-! ### ALIVE and QUARANTINE -/

/-- Modes in which ALIVE can be 1 (R453). -/
def aliveMode : Mode → Bool
  | .configure => true | .active => true | .standby => true | .degraded => true | .service => true
  | .boot => false | .quarantine => false | .sleepRetain => false | .sleepDeep => false

/-- R453: ALIVE falls: the claim is released, TWIN_ACT_OUT low, the role gate closed. -/
def aliveFall (s : State) : State :=
  { s with twin := { s.twin with alive := false, claim := false, actOut := false, gate := false } }

/-- Table 15-4: role NONE. -/
def roleNone (s : State) : State :=
  { s with twin := { s.twin with
      role := .none, sync := .none, claim := false, actOut := false, gate := false, swap := none, taskAt := none,
      joinReq := false, joined := false, store := none, joinEnts := none, joinAt := none, window := none, arbAt := 0 } }

/-- R535: a CAN channel's transmitter is recessive and its transceiver in standby. Marks: DEDUCED (log entry 25). -/
def canStops (s : State) (n : Nat) : State :=
  let t := unlockToList s n
  t.setCan n { t.can n with mode := .sleep, before := (s.can n).mode, next := none, integrating := none }

/-- R535: a LIN channel's transmitter is released. Marks: DEDUCED (log entry 25). -/
def linStops (s : State) (n : Nat) : State := s.setLin n { s.lin n with await := none, sending := none, passed := [] }

/-- R535: a pulse output is inactive. Marks: DEDUCED (log entry 25). -/
def ppoStops (s : State) (n : Nat) : State := s.setPpo n { s.ppo n with armed := none, until_ := none }

/-- R535: ports, buses and pulse outputs stop. -/
def stopOutputs (s : State) : State :=
  let t := (List.range 48).foldl portDisable s
  let t := (List.range 24).foldl canStops t
  let t := (List.range 8).foldl linStops t
  (List.range 16).foldl ppoStops t

/-- A swap that a host asked for through the mailbox ends with a status. Marks: DEDUCED (log entry 25). -/
def swapAnswer (s : State) (status : Nat) : State :=
  match s.twin.swap with
  | some x => (match x.host with | some h => mbxRespond s h status [] | none => s)
  | none => s

/-- R535, R61, Table 15-4: entry to QUARANTINE with a cause, and its Silt entry. Marks: DEDUCED (log entry 25). -/
def quarantine (s : State) (cause origin sub addr : Nat) : State :=
  if s.mode = .quarantine then s
  else
    let t := roleNone (aliveFall (discardCommits (swapAnswer s 3)))
    let t := stopOutputs t
    let t := { t with power := { t.power with entry := none, supplies := true, wakeAt := none }, faults := { t.faults with testBusy := false } }
    let t := (t.setReg (aPwr 0x04C) (w32 cause)).bump (aPwrCnt 4)
    setMode t .quarantine origin sub addr

/-- R520: a fault of a class sends the unit to QUARANTINE. A unit in BOOT goes after BOOT, and a unit in SLEEP only on
the Husk line. Marks: DEDUCED (log entry 53). -/
def faultStop (s : State) (cls : Nat) : State :=
  if asleep s.mode then s else quarantine s cls oHw 5 cls

/-- A management pair runs. -/
def pairOk (s : State) (mp1 : Bool) : Bool := if mp1 then s.faults.pair1.ok else s.faults.pair0.ok

end Sys2Proof.Machine
end

