-- ==== Sys2Proof/Machine/TwinOps.lean ====
section
/-!
DEFINITION. The twin pair (spec/15_twin_pair.md): records of the Shell Link, the state copied at a sync point
(Table 15-6), role entries (Table 15-4), SYNC (R472), the digest (R473) and the takeover (R477).
-/
namespace Sys2Proof.Machine
open Sys2Proof

/-- BAR0 offset of a TWN register. -/
def aTwn (off : Nat) : Nat := regAddr pTwn off

/-- TERM of the unit. -/
def State.term (s : State) : Nat := (s.reg (aTwn 0x048)).toNat

/-- HB_MISS, PREF_B, DIGEST_EN, OBSERVE and GRACE_US of `TWN_CFG`. -/
def hbMiss (s : State) : Nat := s.fld (aTwn 0x040) 0 4
/-- PREF_B. -/
def prefB (s : State) : Bool := s.bitAt (aTwn 0x040) 4
/-- DIGEST_EN. -/
def digestEn (s : State) : Bool := s.bitAt (aTwn 0x040) 5
/-- OBSERVE in cycles. -/
def observe (s : State) : Nat := s.fld (aTwn 0x040) 8 8 * 10000
/-- GRACE_US in cycles. -/
def grace (s : State) : Nat := s.fld (aTwn 0x040) 16 16 * 1000

/-- R461: the unit is the preferred one. -/
def preferred (s : State) : Bool := s.twin.twinB == prefB s

/-- Table 15-12: a Silt entry of kind ROLE. -/
def siltRole (s : State) (sub old new : Nat) (stale : Bool) : State :=
  s.silt_ (w32 old) (w32 new) 3 7 sub (if stale then 2 ^ 18 else 0)

/-- R467, R468: a standby that is not synchronised asks to join once the Shell Link is UP.
Marks: DEDUCED (log entry 49). -/
def sendJoin (s : State) : State :=
  if s.twin.role = .standby ∧ (s.twin.sync = .joining ∨ s.twin.sync = .lost) ∧ slUp s ∧ !s.twin.joinReq then
    slSend { s with twin := { s.twin with sync := .joining, joinReq := true, joined := false, joinAt := none } } 0x30 true
      .joinReq
  else s

/-! ### Digest (R473) -/

/-- First 8 bytes of SHA-256 over an item: page or table, index, value. The byte order is PRESUMED.
Marks: PRESUMED (log entry 16). -/
def digestItem (id index : Nat) (v : List Byte) : Nat :=
  beNat ((bytes256 (Config.sha256 (beBytes 2 id ++ beBytes 4 index ++ v))).take 8)

/-- Locations of a copied table (Tables 6-1 and 11-9 without the FDB) at which a main entry or a record in effect stands. -/
def copiedLocs (s : State) : List (Nat × Nat) :=
  let m := (s.tables.ent.map (fun x => (x.1 / 2 ^ 20, x.1 % 2 ^ 20))).filter (fun x => x.1 != tFDB)
  let o := ((s.tables.ovl.filter (fun o => o.table != tFDB && !isStaged o)).map (fun o => (o.table, o.index))).filter
    (fun x => !m.contains x)
  m ++ o

/-- Main entries of the copied tables. -/
def copiedEnts (s : State) : List (Nat × List Byte) := s.tables.ent.filter (fun x => x.1 / 2 ^ 20 != tFDB)

/-- A register that a snapshot and the digest take in: a copied one that holds settings or an owner. Counters, shed state
and what a unit shows of its own run are not copied (Table 15-6 and the text below it). Marks: DEDUCED (log entry 75). -/
def isSetting (a : Nat) : Bool :=
  isCopied a
    && (match regDef a with
        | none => false
        | some d => d.ty == .rws || d.ty == .rw || a / 0x1000 == pSys || a / 0x1000 == pSem || a % 0x1000 == 0x20)

/-- Offsets of these registers in the page map. -/
def copiedRegs : List Nat :=
  (List.range 0x140).flatMap (fun p => ((List.range 0x400).map (fun i => regAddr p (4 * i))).filter isSetting)

/-- The digest of the control state. An entry that is all zero adds nothing to it, and the hardware state of a SEQ_GEN or
SEQ_REC function is no part of it. Marks: DEDUCED (log entry 75). -/
def digestOf (s : State) : Nat :=
  let r := copiedRegs.foldl (fun d a => d ^^^ digestItem (a / 0x1000) (a % 0x1000 / 4) (beBytes 4 (s.reg a).toNat)) 0
  (copiedLocs s).foldl (fun d x =>
    let v := resetHw x.1 (s.entAt s.epoch x.1 x.2)
    if v.all (fun b => b == 0) then d else d ^^^ digestItem x.1 x.2 v) r

/-- MP0 brings the digest up to date after a commit point or an owner change. -/
def updateDigest (s : State) : State :=
  let d := digestOf s
  ((s.setPair (aTwn 0x054) d).setReg (aTwn 0x05C) (w32 s.epoch)) |> fun t => { t with twin := { t.twin with digest := d } }

/-! ### What a sync point copies (Table 15-6) -/

/-- Pages of the page map. -/
def allPages : List Nat := (List.range 0x140).filter (fun p => (pageOf p).isSome)

/-- Code of a domain state. -/
def ptpCode : PtpState → Nat
  | .free => 0 | .acquire => 1 | .locked => 2 | .holdover => 3

/-- Flow entries to send, each with the lifetime that it has left in milliseconds. -/
def flowItems (s : State) : List (Nat × List Byte × Nat) :=
  s.policing.flowDirty.map (fun i =>
    let v := s.mainEnt tFLOW i
    (i, v, 100 * flowTimeout s s.epoch v - (flowNow s + 2 ^ 32 - leAt v 40 4) % 2 ^ 32))

/-- Item 7: the entries written since the previous point, oldest first, at most as many as the mirror holds. -/
def siltTail (s : State) : List (List Byte) :=
  let wr := (s.reg (aSilt 0x048)).toNat
  let n := min 1024 ((wr + 2 ^ 32 - s.twin.tailSeq) % 2 ^ 32)
  (List.range n).filterMap (fun i =>
    (s.silt.entries.find? (fun x => x.1 == (wr + 2 ^ 32 - n + i) % 2 ^ 32 % 16384)).map
      (fun x => siltBytes x.2 x.2.damaged x.2.cp))

/-- Keys of a sparse flag list that are set. -/
def setKeys (l : List (Nat × Bool)) : List Nat := (l.filter (fun x => x.2)).map (fun x => x.1)

/-- A handle's last and deferral as they are sent: cycles since, and cycles to go. -/
def runSent (now : Nat) (r : HandleRun) : HandleRun :=
  { last := r.last.map (fun t => now - t), due := r.due.map (fun t => t - now) }

/-- They as the receiver's count of cycles places them, from its own point `at_`. -/
def runTaken (at_ : Nat) (r : HandleRun) : HandleRun :=
  { last := r.last.map (fun t => at_ - t), due := r.due.map (fun t => at_ + t) }

/-- The times of a participant under a change of the count of cycles. -/
def mkaTimes (f : Nat → Nat) (m : Mka) : Mka :=
  { m with
    peers := m.peers.map (fun x => { x with lifeEnd := f x.lifeEnd })
    old := m.old.map (fun o => (o.1, o.2.map f))
    helloAt := f m.helloAt }

/-- Items 1 and 2: header and reservations. -/
def coreHead (s : State) : SyncCore :=
  { n := syncCnt s, epoch := s.epoch, term := s.term, digest := s.twin.digest
    sems := ((List.range 64).map (fun n => (n, s.fld (regAddr pSem (0x140 + 4 * n)) 0 4))).filter (fun x => x.2 != 0)
    owners := (allPages.map (fun p => (p, ownerOf s p))).filter (fun x => x.2 != 0)
    frozen := s.pair (aTue 0x060)
    pns := (sharedSas s).map (fun x => (2 * x.1 + x.2, saPn s x.1 (.tx x.2), s.pair (aMsc x.1 (saOff (.tx x.2) + 0x0C))))
    fvs := (s.buses.auth.filter (fun x => x.2.valid && !x.2.rx)).map (fun x => (x.1, x.2.rsv))
    mkas := s.cipher.mka.map (fun x => (x.1, mkaTimes (fun t => t - s.cclk) x.2)) }

/-- The SEQ_GEN and SEQ_REC functions with their hardware state, those that stand only in a record included (R210). -/
def seqItems (s : State) : List (Nat × Nat × List Byte) :=
  ((copiedLocs s).filter (fun x => x.1 == tSEQGEN || x.1 == tSEQREC)).map (fun x => (x.1, x.2, s.entAt s.epoch x.1 x.2))

/-- The level of every meter at this cycle (R230). -/
def meterItems (s : State) : List (Nat × Nat) :=
  s.policing.meter.map (fun x => (x.1, meterLevel x.2 (s.entAt s.epoch tMETER x.1) s.cclk))

/-- Items 1 to 7 as the active sends them at a sync point. -/
def coreOf (s : State) : SyncCore :=
  { coreHead s with
    buckets := s.egress.port.flatMap (fun x => x.2.level.map (fun y => (16 * x.1 + y.1, y.2)))
    credits := s.egress.port.flatMap (fun x => x.2.credit.map (fun y => (8 * x.1 + y.1, creditNow s x.1 y.1 s.cclk)))
    hold := ((s.egress.port.filter (fun x => x.2.hold)).map (fun x => 2 ^ x.1)).sum
    meters := meterItems s
    mBlocked := (s.policing.meter.filter (fun x => x.2.blocked)).map (fun x => x.1)
    fBlocked := setKeys s.policing.filtBlk
    gBlocked := setKeys s.policing.gateBlk
    seqs := seqItems s
    seqAges := s.tables.seqLast.map (fun x => (x.1, (s.cclk : Int) - x.2))
    time := [0, 1].map (fun d => (d, ptpCode (s.dom d).state, (s.dom d).time, (s.dom d).adj, (s.dom d).ofs, (s.dom d).gmtbi))
    lvcs := s.gwe.dirty.map (fun h => (h, s.lvc h))
    runs := s.gwe.run.map (fun x => (x.1, runSent s.cclk x.2))
    oseqs := s.gwe.seq
    flows := flowItems s
    tail := siltTail s }

/-! ### Adoption by the standby (R471) -/

/-- The owner that a list gives, 0 where it gives none. -/
def ownIn (l : List (Nat × Nat)) (k : Nat) : Nat :=
  match l.find? (fun x => x.1 == k) with
  | some x => x.2
  | none => 0

/-- The owner of one page. -/
def adoptOwner (l : List (Nat × Nat)) (s : State) (p : Nat) : State :=
  if ownerOf s p = ownIn l p then s else s.setFld (regAddr p 0x20) 0 4 (ownIn l p)

/-- Owners of semaphores, owners of pages and `TUE_FROZEN`. -/
def adoptOwners (s : State) (c : SyncCore) : State :=
  let t := (List.range 64).foldl (fun (u : State) n => u.setFld (regAddr pSem (0x140 + 4 * n)) 0 4 (ownIn c.sems n)) s
  let t := allPages.foldl (adoptOwner c.owners) t
  t.setPair (aTue 0x060) c.frozen

/-- R302: a queue of CLASS 3 keeps its own levels. -/
def keepsOwn (s : State) (p q : Nat) : Bool := decide (q < 8) && s.fld (aQ p q 0) 3 2 == 3

/-- One bucket level, with the refills since the point at cycle `at_`. -/
def adoptBucket (at_ : Nat) (s : State) (x : Nat × Int) : State :=
  let p := x.1 / 16
  let i := x.1 % 16
  if keepsOwn s p i then s
  else
    let n := s.cclk / 256 - at_ / 256
    setBucket s p i (refilled s p i n x.2)

/-- One credit, as it stood at the point. -/
def adoptCredit (at_ : Nat) (s : State) (x : Nat × Int) : State :=
  if keepsOwn s (x.1 / 8) (x.1 % 8) then s else setCredit s (x.1 / 8) (x.1 % 8) at_ x.2

/-- HOLD of one port. -/
def adoptHold (hold : Nat) (s : State) (p : Nat) : State :=
  if (s.egs p).hold = bit hold p then s else s.setEgs p { s.egs p with hold := bit hold p }

/-- The level or credit that a list gives, 0 where it gives none. -/
def levelIn (l : List (Nat × Int)) (k : Nat) : Int :=
  match l.find? (fun x => x.1 == k) with
  | some x => x.2
  | none => 0

/-- The `n` levels of each port, as a list gives them. -/
def allLevels (l : List (Nat × Int)) (w n : Nat) : List (Nat × Int) :=
  (List.range 52).flatMap (fun p => (List.range n).map (fun i => (w * p + i, levelIn l (w * p + i))))

/-- R210: one function's hardware state. LAST_CYCLE names the same moment on the CCLK count of this unit.
Marks: DEDUCED (log entry 75). -/
def adoptSeq (c : SyncCore) (at_ : Nat) (s : State) (x : Nat × Nat × List Byte) : State :=
  match c.seqAges.find? (fun y => y.1 == x.2.1) with
  | some y =>
    if x.1 = tSEQREC then
      s.hwSet s.epoch x.1 x.2.1 (putBytes x.2.2 12 (leBytes 4 (((at_ : Int) - y.2) % 2 ^ 32).toNat))
    else s.hwSet s.epoch x.1 x.2.1 x.2.2
  | none => s.hwSet s.epoch x.1 x.2.1 x.2.2

/-- Item 3: bucket levels, credits and holds of the egress ports. -/
def adoptEgress (s : State) (c : SyncCore) (at_ : Nat) : State :=
  let t := (allLevels c.buckets 16 9).foldl (adoptBucket at_) s
  let t := (allLevels c.credits 8 8).foldl (adoptCredit at_) t
  (List.range 52).foldl (adoptHold c.hold) t

/-- Item 3: meters and blocked bits. A meter's level is brought forward by R230 when it is next charged. -/
def adoptPolicing (s : State) (c : SyncCore) (at_ : Nat) : State :=
  let on (l : List Nat) : List (Nat × Bool) := l.foldl (fun m i => Tab.set (fun _ => false) m i true) []
  let ms : List (Nat × Meter) := c.meters.foldl (fun m x =>
    Tab.set (fun _ => {}) m x.1 { level := x.2, at_ := at_, blocked := c.mBlocked.contains x.1 }) []
  { s with policing := { s.policing with meter := ms, filtBlk := on c.fBlocked, gateBlk := on c.gBlocked } }

/-- Item 3: the sequence recovery functions with their timers. -/
def adoptSeqs (s : State) (c : SyncCore) (at_ : Nat) : State :=
  let t := c.seqs.foldl (adoptSeq c at_) s
  { t with tables := { t.tables with seqLast := c.seqAges.map (fun x => (x.1, (at_ : Int) - x.2)) } }

/-- Item 3: the state of the traffic. -/
def adoptTraffic (s : State) (c : SyncCore) (at_ : Nat) : State := adoptSeqs (adoptPolicing (adoptEgress s c at_) c at_) c at_

/-- Items 5 to 7, as received, for the point at cycle `at_` of this unit. -/
def adoptDeltas (s : State) (c : SyncCore) (at_ : Nat) : State :=
  let t := { s with
    gwe := { s.gwe with
      lvc := c.lvcs.foldl (fun m x => Tab.set (fun _ => {}) m x.1 x.2) s.gwe.lvc
      run := c.runs.map (fun x => (x.1, runTaken at_ x.2))
      seq := c.oseqs.foldl (fun m x => Tab.set (fun _ => 0) m x.1 x.2) s.gwe.seq }
    twin := { s.twin with mirror := (c.tail.reverse ++ s.twin.mirror).take 1024 } }
  c.flows.foldl (fun t x =>
    let left := (flowNow t + x.2.2 + 2 ^ 32 - 100 * flowTimeout t t.epoch x.2.1) % 2 ^ 32
    setFlow t x.1 (if flowState x.2.1 = 0 then x.2.1 else putBytes x.2.1 40 (leBytes 4 left))) t

/-- R383, Table 12-1: a FREE domain adopts a copied time that is valid, brought forward from the point. -/
def adoptTime (at_ : Nat) (s : State) (x : Nat × Nat × Nat × Int × Int × Nat) : State :=
  let adj := x.2.2.2.1
  if x.2.1 < 2 then s else domAdopt s x.1 (x.2.2.1 + ((2 : Int) ^ 48 + adj * 2 ^ 16).toNat * (s.cclk - at_)) adj

/-! ### SYNC and roles -/

/-- R472, R469: the twin is no longer synchronised. -/
def syncLost (s : State) : State :=
  if s.twin.sync ≠ .synced then s
  else
    let t := siltRole { s with twin := { s.twin with sync := .lost, joinReq := false, joined := false } } 8 s.term s.term false
    let t := t.raise pTwn 3
    if t.mode = .active then roleMode t .degraded else t

/-- Whether the last three sync points of the unit include one acknowledged or applied. -/
def syncFresh (s : State) : Bool := decide ((syncCnt s + 2 ^ 32 - s.twin.lastAcked) % 2 ^ 32 < 3)

/-- The twin is synchronised: SYNCED, and on the active mode ACTIVE (R29). -/
def syncGained (s : State) : State :=
  if s.twin.sync = .synced then s
  else
    let t := { s with twin := { s.twin with sync := .synced, rejoinedAt := some s.cclk } }
    let t := siltRole ((t.raise pTwn 4).bump (aTwnCnt 13)) 7 t.term (t.twin.digest % 2 ^ 32) false
    if t.twin.role = .active ∧ t.mode = .degraded then roleMode t .active else t

/-- `PWR_READY_US` at the first role after a start or a wake, with WOKE after a wake from SLEEP-DEEP.
Marks: DEDUCED (log entry 56). -/
def readyTime (s : State) : State :=
  if s.reg (aPwr 0x050) ≠ 0 then s
  else
    let woke := s.power.startAt = 0 ∧ s.fld (aPwr 0x048) 0 4 = 4
    let s := if woke then s.raise pWake 0 else s
    -- a wake from SLEEP-DEEP counts from its wake event, 1.50 ms before CCLK count 0 (Table 17-7)
    let deep := if woke then 1500 else 0
    s.setReg (aPwr 0x050) (w32 (min 0xFFFFFFFF (deep + divOpen (s.cclk - s.power.startAt) 1000)))

/-- A role entry: ROLE_CHANGE, and the three announcements of R483. -/
def roleEntered (s : State) (reason : Nat) : State :=
  (readyTime { s with twin := { s.twin with annLeft := 3, annNext := s.cclk, annReason := reason } }).raise pTwn 2

/-- R464: TERM of a new active, written to NVM. -/
def raiseTerm (s : State) : State :=
  let n := (max s.term s.twin.termCopied + 1) % 2 ^ 32
  { (s.setReg (aTwn 0x048) (w32 n)) with nvm := { s.nvm with term := n } }

/-- The unit holds the active role: claim driven, role gate open, TWIN_ACT_OUT high. Marks: DEDUCED (log entry 49). -/
def takeActive (s : State) (by_ : ActiveBy) : State :=
  { s with twin := { s.twin with
      role := .active, claim := true, gate := true, actOut := true, activeAt := s.cclk, activeBy := by_, window := none,
      foreignRun := 0, waitWindow := false, lastAcked := syncCnt s, lastAckAt := s.cclk, taskAt := some s.cclk } }

/-- R312: a channel in NORMAL is held in RESTRICTED on a standby. -/
def canHeld (s : State) (n : Nat) : State :=
  let c := s.can n
  if c.mode = .normal then s.setCan n { c with sby := true } else s

/-- The unit holds the standby role. Marks: DEDUCED (log entry 49). -/
def takeStandby (s : State) (sync : SyncSt) : State :=
  let t := (List.range 24).foldl canHeld (gweStandby s)
  { t with twin := { t.twin with
      role := .standby, sync := sync, claim := false, gate := false, actOut := false, window := none, foreignRun := 0,
      joinReq := false, joined := false, taskAt := none, waitWindow := false } }

/-- R332: LAST of a transmit entry at a takeover. -/
def authTakeover (s : State) (x : Nat × AuthEntry) : State :=
  let rsv := match s.twin.store with
    | some c => (match c.fvs.find? (fun y => y.1 == x.1) with | some y => y.2 | none => x.2.rsv)
    | none => x.2.rsv
  s.setAuth x.1 { x.2 with last := min 0xFFFFFFFF (rsv + 2 ^ 16) }

/-- R332 for every transmit entry. -/
def authsTakeover (s : State) : State := (s.buses.auth.filter (fun x => !x.2.rx)).foldl authTakeover s

/-- R401, R482: NEXT_PN and RSV of the shared SAs as copied. -/
def loadPns (s : State) : State :=
  match s.twin.store with
  | none => s
  | some c => c.pns.foldl (fun t x =>
      let a := aMsc (x.1 / 2) (saOff (.tx (x.1 % 2)))
      (t.setPair (a + 4) x.2.1).setPair (a + 0x0C) x.2.2) s

/-- R416: the participants as copied. -/
def loadMka (s : State) : State :=
  match s.twin.store with
  | none => s
  | some c => { s with cipher := { s.cipher with mka := c.mkas } }

/-- Fixups of MP0 at a role entry (Table 15-7): CAN LAST, GWE and MKA, and the LIN commanders. -/
def roleFixups (s : State) : State :=
  let t := mkaTakeover (loadMka (gweTakeover (authsTakeover s)))
  (List.range 8).foldl linResume t

/-- R477, cycle D: the takeover condition is met. The role is ACTIVE; the claim follows at D + 8 and the gate at
D + 16. -/
def takeover (s : State) : State :=
  let stale := s.twin.sync == .lost
  let t := takeActive s .takeover
  { t with twin := { t.twin with
      claim := false, gate := false, actOut := false, stale := stale, sync := .lost, annReason := 2,
      termBefore := s.term } }.raise pTwn 2

/-- R477, cycle D + 8: TAKEOVER, the claim and TERM. -/
def takeoverClaims (s : State) : State :=
  let t := raiseTerm s
  ({ t with twin := { t.twin with claim := true } }.bump (aTwnCnt 0)).raise pTwn 0

/-- R477, cycle D + 16: the SAs of shared SecYs, and the role gate. -/
def takeoverOpens (s : State) : State :=
  let t := mscTakeover (loadPns s)
  roleMode { t with twin := { t.twin with gate := true, actOut := true } } .degraded

/-- R477: what a cycle brings to a takeover that has begun. Marks: DEDUCED (log entry 49). -/
def takeoverStep (s : State) : State :=
  match s.twin.taskAt with
  | none => s
  | some d =>
    if s.twin.role ≠ .active ∨ s.twin.activeBy ≠ .takeover then s
    else
      let t := if s.twin.claim = false ∧ d + 8 ≤ s.cclk then takeoverClaims s else s
      if t.twin.gate = false ∧ d + 16 ≤ t.cclk then takeoverOpens t else t

/-- R474: the mismatch returns within 1 s of a re-join. -/
def digestAgain (t : State) : Bool :=
  match t.twin.rejoinedAt with
  | some r => t.twin.mismatchAt.isSome && decide (t.cclk - r < 10 ^ 9)
  | none => false

/-- A Silt entry of the role record that names the present term. -/
def siltTerm (t : State) (sub : Nat) : State := siltRole t sub t.term t.term false

/-- The unit recomputes its digest, unless the mismatch is a second one. -/
def mismatchNoted (t : State) (again : Bool) : State :=
  { t with twin := { t.twin with mismatchAt := some t.cclk, recomputing := !again, digestOk := false, peerOk := false } }

/-- R474: a mismatch of the digests. -/
def digestMismatch (s : State) : State :=
  let t := siltTerm (((s.bump (aTwnCnt 6)).raise pTwn 5).report 0x29 (unitId 8 0) [] false) 9
  if digestAgain t then (mismatchNoted t true).raise pTwn 6 else mismatchNoted t false

/-- The standby joins again. -/
def rejoin (s : State) : State :=
  sendJoin { s with twin := { s.twin with sync := .joining, joinReq := false, joined := false } }

end Sys2Proof.Machine
end

