-- ==== Sys2Proof/Machine/SyncPoint.lean ====
section
/-!
DEFINITION. Cycle boundaries and sync points (R99 to R108, R470, R472, R592), the join of a new reference (R102), and
what the active sends at a sync point.
-/
namespace Sys2Proof.Machine
open Sys2Proof

/-! ### Records that a commit and a join send -/

/-- What an overlay record is sent as: a deletion from the FDB, whose location is the standby's own, still names its
key. -/
def sentRec (s : State) (o : Overlay) : Nat × Nat × List Byte :=
  let v := s.mainEnt tFDB o.index
  (o.table, o.index, if o.table = tFDB ∧ !fdbValid o.val then putBytes v 7 [b8 (byteAt v 7 % 16 + byteAt v 7 / 32 * 32)] else o.val)

/-- R183, R197: a record that only moves an entry of the active's FDB: its value stands elsewhere in the main table, where
a record puts another entry. The standby places FDB keys by its own search, so a move is no operation for it.
Marks: DEDUCED (log entry 50). -/
def fdbMove (s : State) (o : Overlay) : Bool :=
  o.table == tFDB && fdbValid o.val
    && (match findMain s tFDB (hashKey tFDB o.val) with
        | some i => i != o.index && s.mainEnt tFDB i == o.val
            && (match s.ovlAt tFDB i with | some w => isStaged w && fdbValid w.val && w.val != o.val | none => false)
        | none => false)

/-- Overlay records of the parts of a commit. Marks: DEDUCED (log entry 50). -/
def commitRecs (s : State) (c : Commit) : List (Nat × Nat × List Byte) :=
  (s.tables.ovl.filter (fun o => c.parts.any (fun p => o.st == .armed p.id) && !fdbMove s o)).map (sentRec s)

/-- Values of the parts of a commit, the later part's after the earlier's. -/
def commitVals (c : Commit) : List (Nat × Word) := c.parts.flatMap (fun p => p.vals.map (fun x => (x.off, x.val)))

/-- Number of the sync point of a commit; a commit of CONFIGURE or SERVICE has none. -/
def commitNum : CommitPoint → Option Nat
  | .sync n => some n
  | .cycle _ => none

/-- R469: the COMMIT record of an armed commit whose checks have passed. -/
def sendCommit (s : State) (c : Commit) : State :=
  match commitNum c.point, c.parts.getLast? with
  | some n, some p =>
    if s.twin.role = .active then
      slSend s 0x20 true (.commit { tag := p.tag, writer := p.writer, point := n } (commitVals c) (commitRecs s c))
    else s
  | _, _ => s

/-- A record that a snapshot holds: one that supplies a value now. Armed records travel with their COMMIT records, and
pending ones live only on the active (R469). Marks: DEDUCED (log entry 50). -/
def inSnapshot (o : Overlay) : Bool := o.table != tFDB && !isStaged o

/-- R467: the snapshot of the copied state in effect, with the overlay records, and JOIN_END.
Marks: DEDUCED (log entry 50). -/
def sendSnapshot (s : State) : State :=
  let t := slSend s 0x31 true (.join (copiedRegs.map (fun a => (a, s.reg a))) s.egress.gcl (copiedEnts s)
    (s.tables.ovl.filter inSnapshot))
  let t := slSend t 0x32 true (.joinEnd s.epoch s.twin.digest s.cycleNo)
  let t := { t with twin := { t.twin with joinReq := false, sync := .joining } }
  if t.mode = .active then roleMode t .degraded else t

/-- R470: how many of the delta entries of item `k` the link carries before the next point: as many as a free value
says. Marks: DESIGN CHOICE (log entry 52). -/
def deltasSent (s : State) (k n : Nat) : Nat := Config.freeNat (s.free + k) % (n + 1)

/-- The items of a sync point with the first entries of items 5, 6 and 7 only. -/
def cutCore (c : SyncCore) (h f l : Nat) : SyncCore :=
  { c with lvcs := c.lvcs.take h, flows := c.flows.take f, tail := c.tail.take l }

/-- R470: the deltas that wait for the next point, when `h`, `f` and all but `late` entries of the items were sent.
Marks: DESIGN CHOICE (log entry 52). -/
def deltasLeft (s : State) (h f late : Nat) : State :=
  { s with
    policing := { s.policing with flowDirty := s.policing.flowDirty.drop f }
    gwe := { s.gwe with dirty := s.gwe.dirty.drop h }
    twin := { s.twin with
      tailSeq := ((s.reg (aSilt 0x048)).toNat + 2 ^ 32 - late) % 2 ^ 32
      carry := (s.gwe.dirty.length - h) + (s.policing.flowDirty.length - f) + late } }

/-- R470: the items of the sync point. Delta entries go in their order as far as the link carries them; the rest is
sent at the next point, which counts it. Marks: DESIGN CHOICE (log entry 52). -/
def sendSync (s : State) : State :=
  if !slUp s then s
  else
    let t := if s.twin.joinReq then sendSnapshot s else s
    let t := t.bumpBy (aTwnCnt 5) t.twin.carry
    let c := coreOf s
    let h := deltasSent s 0 c.lvcs.length
    let f := deltasSent s 1 c.flows.length
    let l := deltasSent s 2 c.tail.length
    let t := (slSend t 0x10 true (.sync (cutCore c h f l))).bump (aTwnCnt 2)
    (deltasLeft t h f (c.tail.length - l)).tick1.tick1.tick1

/-! ### Sync points -/

/-- R592: a commit whose point comes before MP0's checks have ended moves to the following point. -/
def commitMoves (n : Nat) (c : Commit) : Bool := c.point == .sync n && c.parts.any (fun p => !p.checked)

/-- R592 for all commits. -/
def rebindAll (n : Nat) (s : State) : State :=
  let t := { s with commits := s.commits.map (fun c => if commitMoves n c then { c with point := .sync ((n + 1) % 2 ^ 32) } else c) }
  let moved := (s.commits.filter (fun c => commitMoves n c && c.parts.any (fun p => p.checked))).map
    (fun c => { c with point := .sync ((n + 1) % 2 ^ 32), parts := c.parts.filter (fun p => p.checked) })
  moved.foldl sendCommit t

/-- R104, R105: a sync point in this cycle. -/
def syncPoint (s : State) : State :=
  let n := (syncCnt s + 1) % 2 ^ 32
  let t := s.setReg (aPb 0x080) (w32 n)
  let t := rebindAll n { t with pb := { t.pb with syncAt := some t.cclk }, twin := { t.twin with window := some t.cclk } }
  match t.twin.role with
  | .active => let u := sendSync t; if syncFresh u then u else syncLost u
  | .standby => if syncFresh t then t else sendJoin (syncLost t)
  | .none => t
  | .arb => t

/-- R105: a forced sync point is due. -/
def forcedDue (s : State) : Bool :=
  s.pb.state != .unlocked && decide (s.pb.syncAt.getD s.pb.origin + forcedGap s ≤ s.cclk)

/-- R105: a forced sync point. Marks: DEDUCED (log entry 60). -/
def forcedPoint (s : State) : State := syncPoint ((s.bump (aPb 0x108)).raise pPb 5)

/-- FORCED_SYNC_POINT. -/
def execForcedSyncPoint (s : State) : Result := .next (whenever (forcedDue s) s (forcedPoint s))

/-! ### Cycle boundaries -/

/-- R326: a committed bus window list takes effect. -/
def canCycle (s : State) (n : Nat) : State :=
  let c := s.can n
  match c.bwInstall with
  | some (b, l) => s.setCan n { c with bwBank := b, bwLen := l, bwInstall := none }
  | none => s

/-- R108: the phase schedules of the buses restart. -/
def busCycle (s : State) : State := (List.range 8).foldl linCycle ((List.range 24).foldl canCycle s)

/-- R99: the boundary just crossed is synthetic, or under TICK its tick may still be on its way.
Marks: DEDUCED (log entry 50). -/
def markCrossed (s : State) : State :=
  let p := s.pb
  let t := { s with pb := { p with marks := p.marks.filter (fun c => c != s.cycleNo) } }
  if p.src = 3 ∨ (p.state = .holdover ∧ p.src ≠ 2) then countSynth t
  else if p.src = 1 ∧ !p.marks.contains s.cycleNo then { t with pb := { t.pb with unmarked := some s.cclk } }
  else t

/-- A boundary has been crossed: schedules restart, and it may be a sync point (R104, R108). -/
def boundaryEffects (s : State) : State :=
  let t := busCycle { s with pb := { s.pb with cycleAt := s.cclk } }
  if boundaryQualifies t s.pb.syncAt t.cycleNo t.cclk then syncPoint t else t

/-- R102 under HOLD: the join ends with the cycle. -/
def holdBegins (s : State) : State :=
  let t := pbEnter { s with pb := { s.pb with join := false, rates := [], origin := s.cclk, everRate := true } } .holdover
  { t with pb := { t.pb with rate := holdRate t } }.raise pPb 4

/-- R99, R102, R108: the position has crossed a cycle boundary in this cycle. Marks: DEDUCED (log entry 60). -/
def crossed (s : State) : State :=
  if s.pb.join && s.pb.src == 3 then
    boundaryEffects (holdBegins (countSynth { s with pb := { s.pb with marks := [], unmarked := none } }))
  else boundaryEffects (markCrossed s)

/-! ### Joining a new reference (R102) -/

/-- Under NETTIME: the domain's own cycle starts in this CCLK cycle. -/
def nettimeStarts (s : State) : Bool :=
  let d := s.dom (pbDomain s)
  domValid s (pbDomain s)
    && nettimePos s d.time / 2 ^ 32 != nettimePos s (timeAt s (pbDomain s) (s.cclk - 1)) / 2 ^ 32

/-- The new reference starts a cycle now, and the old cycle has ended. Marks: DEDUCED (log entry 50). -/
def joinEnds (s : State) : Bool :=
  s.pb.join && atCycleEnd s.pb && (if s.pb.src = 0 then nettimeStarts s else s.pb.joinMark)

/-- R102: the join ends: CYCLE advances by one, the tracker enters ACQUIRE. The stretched cycle is synthetic (R103). -/
def joinFinishes (s : State) : State :=
  let c := (s.cycleNo + 1) % 2 ^ 32
  let own := nettimePos s (s.dom (pbDomain s)).time / 2 ^ 32
  let p : PhaseBase := { s.pb with
    acc := BitVec.ofNat 88 (c * 2 ^ 56)
    join := false
    joinMark := false
    marks := []
    unmarked := none
    lastT := if s.pb.src = 0 then some s.cclk else s.pb.lastT
    lastP := BitVec.ofNat 64 (c * 2 ^ 32)
    hist := []
    clamp := if s.pb.src = 2 then some (clampFor (countNext s (b2n s.pb.sel) c 0)) else none
    cycOfs := if s.pb.src = 0 then (c + 2 ^ 32 - own % 2 ^ 32) % 2 ^ 32 else s.pb.cycOfs }
  boundaryEffects ((pbEnter (countSynth { s with pb := p }) .acquire).raise pPb 4)

/-- JOIN_DONE. -/
def execJoinDone (s : State) : Result := .next (whenever (joinEnds s) s (joinFinishes s))

/-- R102: a commit has changed the source or its cycle. UNLOCKED takes the source at once (Table 3-2). -/
def pbCommit (s : State) : State :=
  let v := (s.reg (aPb 0x040)).toNat
  let p : PhaseBase := { s.pb with
    src := bits v 0 2
    sel := bit v 2
    rates := []
    clamp := none
    step := false
    reverse := false
    behind := 0
    hist := []
    runIn := 0
    runOut := 0
    fresh := false
    marks := []
    unmarked := none }
  -- no tick can mark any more a boundary that was crossed without one (R99)
  let s := if s.pb.unmarked.isSome then countSynth s else s
  if s.pb.state ≠ .unlocked then { s with pb := { p with join := true, joinMark := false } }
  else if p.src = 3 then
    let t := pbEnter { s with pb := { p with origin := s.cclk, cycleAt := s.cclk, everRate := true } } .holdover
    { t with pb := { t.pb with rate := holdRate s } }
  else { s with pb := p }

end Sys2Proof.Machine
end

