-- ==== Sys2Proof/Machine/CommitOps.lean ====
section
/-!
DEFINITION. Commits (R53 to R61, R592): arming, discarding, MP0's checks and the commit point.
-/
namespace Sys2Proof.Machine
open Sys2Proof

/-! ### GO and DISCARD -/

/-- BAR0 offset of a SYS register. -/
def aSys (off : Nat) : Nat := regAddr pSys off

/-- The codes of `SYS_COMMIT_STAT.CODE`. -/
def ccAdmit : Nat := 1
/-- COMMIT_BUSY. -/
def ccBusy : Nat := 2
/-- SILT_FULL. -/
def ccSilt : Nat := 3
/-- CHECK_FAILED. -/
def ccCheck : Nat := 5

/-- A GO that is refused at once in the writer's stat. -/
def goRefused (s : State) (w : Who) (tag code : Nat) : State := (commitStat s w.m 3 code tag).raise pSys 1

/-- R54: the point of a commit that is formed now, later than that of any outstanding one. -/
def newPoint (s : State) : CommitPoint :=
  if s.mode = .configure ∨ s.mode = .service then .cycle (s.cclk + 20000)
  else
    let n := (bindSync s).1
    match s.commits.head? with
    | some c =>
      (match c.point with
       | .sync m => if (n + 2 ^ 32 - m) % 2 ^ 32 = 0 ∨ 2 ^ 31 ≤ (n + 2 ^ 32 - m) % 2 ^ 32 then .sync ((m + 1) % 2 ^ 32) else .sync n
       | .cycle _ => .sync n)
    | none => .sync n

/-- A part joins the one outstanding commit that is still 20,000 cycles away, or forms a commit (R55, R58). -/
def placePart (s : State) (p : CommitPart) : List Commit :=
  match s.commits with
  | [c] => if s.cclk + 20000 ≤ pointCycle s c.point then [{ c with parts := c.parts ++ [p], acked := false }]
           else [c, { point := newPoint s, parts := [p] }]
  | l => l ++ [{ point := newPoint s, parts := [p] }]

/-- R55: the pending shadows of every page and the PENDING records are taken. -/
def armPart (s : State) (w : Who) (tag : Nat) : State :=
  let id := s.partNo + 1
  let p : CommitPart := { id := id, writer := w.m, tag := tag % 2 ^ 16, goAt := s.cclk, vals := s.shadows }
  let t := armRecords { s with commits := placePart s p, partNo := id, shadows := [] } id
  commitStat t w.m 1 0 tag

/-- A GO that passes the checks of R46. Marks: DEDUCED (log entry 21). -/
def goTaken (s : State) (w : Who) (tag : Nat) : State :=
  if 2 ≤ s.commits.length then goRefused s w tag ccBusy
  else if isHost w.m && siltFull s then goRefused s.siltRefused w tag ccSilt
  else armPart s w tag

/-- COMMIT_GO. -/
def execCommitGo (w : Who) (tag : Nat) (s : State) : Result :=
  ifWf (decide (tag < 2 ^ 16)) (s.write w (aSys 0x040) (w32 (1 + tag * 2 ^ 16)) (goTaken s w tag))

/-- What a DISCARD clears: pending shadows and PENDING records. -/
def discardCount (s : State) : Nat := s.shadows.length + (s.tables.ovl.filter (fun o => o.st == .pending)).length

/-- R59: a DISCARD that passes the checks of R46. -/
def discardTaken (s : State) (w : Who) : State :=
  let n := discardCount s
  if n = 0 then s
  else if isHost w.m && siltFull s then s.refuse pSys .siltFull w (aSys 0x040)
  else (discardRecords { s with shadows := [] }).silt_ (w32 n) (w32 s.epoch) (originOf w.m) 2 1 0

/-- COMMIT_DISCARD. -/
def execCommitDiscard (w : Who) (s : State) : Result :=
  .next (s.write w (aSys 0x040) 2 (discardTaken s w))

/-! ### MP0's checks (R55, R57) -/

/-- The first commit with a part whose checks have not ended: the values and records before it, and the part. -/
def uncheckedPart : List CommitPart → List Commit → Option (List CommitPart × CommitPart)
  | _, [] => none
  | before, c :: rest =>
    match c.parts.find? (fun p => !p.checked) with
    | some p => some (before ++ c.parts.takeWhile (fun x => x.checked), p)
    | none => uncheckedPart (before ++ c.parts) rest

/-- The register file as the values of parts would leave it. -/
def withVals (s : State) (ps : List CommitPart) : State :=
  (ps.flatMap (fun p => p.vals)).foldl (fun t x => if x.off < 0x1100000 then t.setReg x.off x.val else t) s

/-- The state that a part is checked against: the values and records of the parts before it and its own.
Marks: DEDUCED (log entry 21). -/
def checkView (s : State) (before : List CommitPart) (p : CommitPart) : State :=
  let t := withVals s (before ++ [p])
  { t with tables := { t.tables with
      ovl := t.tables.ovl.map (fun o => if before.any (fun x => o.st == .armed x.id) then { o with st := .armed p.id } else o) } }

/-- R106: periods of the Phase Base. -/
def pbCheck (v : State) : Bool :=
  let src := v.fld (aPb 0x040) 0 2
  let per := v.fld (aPb 0x044) 0 30
  let sync := v.fld (aPb 0x054) 16 11 * 1000
  let div := v.fld (aPb 0x054) 0 8
  (src == 1 || src == 2 ||
    (if per ≤ sync then decide (100000 ≤ div * per ∧ div * per ≤ sync) else div == 1)) &&
  (src != 0 || decide (v.fld (aPb 0x048) 0 30 < per))

/-- Table 12-4: domain numbers differ, and no slave port is a master port. -/
def ptpCheck (v : State) : Bool :=
  v.fld (aDom 0 0) 8 8 != v.fld (aDom 1 0) 8 8 &&
  [0, 1].all (fun d => decide (48 ≤ v.fld (aDom d 0) 16 6) || !bit (v.pair (aDom d 4)) (v.fld (aDom d 0) 16 6))

/-- EtherTypes that R174 closes to user slots: those of Table 5-3, the TPIDs that the graph uses and 0x88E5. A
USER_TPID of 0 matches no frame (R158). -/
def builtinTypes (v : State) : List Nat :=
  [0x0800, 0x86DD, 0x0806, 0x88F7, 0x888E, 0x88CC, 0x22F0, 0x8100, 0x88A8, 0x9100, 0xF1C1, 0x88E5]
    ++ (if v.fld (aPrs 0x040) 16 16 = 0 then [] else [v.fld (aPrs 0x040) 16 16])

/-- The user EtherType slots that are enabled. -/
def userSlots (v : State) : List Nat := (List.range 8).filter (fun u => v.bitAt (aPrs (0x080 + 8 * u)) 31)

/-- R174. -/
def prsCheck (v : State) : Bool :=
  let types := (userSlots v).map (fun u => v.fld (aPrs (0x080 + 8 * u)) 0 16)
  decide (types.Nodup) && types.all (fun t => !(builtinTypes v).contains t) &&
  (userSlots v).all (fun u =>
    let nx := v.fld (aPrs (0x084 + 8 * u)) 0 7
    nx == 0x7F || decide (nx + 2 ≤ v.fld (aPrs (0x080 + 8 * u)) 16 7)) &&
  (List.range 8).all (fun k => !v.bitAt (aPrs (0x0C0 + 4 * k)) 31 ||
    v.fld (aPrs (0x0C0 + 4 * k)) 0 16 != v.fld (aPrs 0x044) 0 16)

/-- R326: windows ascend, do not overlap and end within the cycle. -/
def windowsOk : Nat → List BusWindow → Bool
  | _, [] => true
  | at_, w :: rest => decide (at_ ≤ w.start) && decide (w.start + w.len ≤ 2 ^ 32) && windowsOk (max (w.start + w.len) (w.start + 1)) rest

/-- R307, R326 for a channel. -/
def canCheck (s v : State) (n : Nat) : Bool :=
  let timings := [0x044, 0x048, 0x04C]
  decide (1000 ≤ canBit v n 0x044) && decide (125 ≤ canBit v n 0x048) && decide (50 ≤ canBit v n 0x04C) &&
  timings.all (fun o => decide (v.fld (aCan n o) 24 7 ≤ v.fld (aCan n o) 16 7)) &&
  ((s.can n).mode == .config || timings.all (fun o => v.reg (aCan n o) == s.reg (aCan n o))) &&
  windowsOk 0 ((List.range (v.fld (aCan n 0x0B4) 8 6)).map (windowAt (s.can n) (v.fld (aCan n 0x0B4) 1 1)))

/-- STARTs of a list ascend. -/
def startsOk : List Nat → Bool
  | a :: b :: rest => decide (a < b) && startsOk (b :: rest)
  | _ => true

/-- R335 for a channel. -/
def linCheck (s v : State) (n : Nat) : Bool :=
  let c := s.lin n
  startsOk ((List.range (v.fld (aLin n 0x040) 4 7)).map (fun i =>
    schStart (Tab.get (fun _ => (0 : Word)) c.sch (64 * v.fld (aLin n 0x040) 3 1 + i)).toNat))

/-- The first page that fails with its code, in the order of the page numbers. Marks: DEDUCED (log entry 21). -/
def partCheck (s v : State) (part : Nat) : Option (Nat × Nat) :=
  if !pbCheck v then some (ccCheck, pPb)
  else if !ptpCheck v then some (ccCheck, pPtp)
  else if !prsCheck v then some (ccCheck, pPrs)
  else if 589824 < allReserved v.reg then some (ccCheck, pBuf)
  else
    match egsCheck s v.reg with
    | some x => some x
    | none =>
      match (List.range 24).find? (fun n => !canCheck s v n) with
      | some n => some (ccCheck, pCan n)
      | none =>
        match (List.range 8).find? (fun n => !linCheck s v n) with
        | some n => some (ccCheck, pLin n)
        | none => if gweCheckFails v part then some (ccCheck, pGwe 1) else none

/-- A commit without a part, and one without any left. -/
def dropPart (id : Nat) (l : List Commit) : List Commit :=
  (l.map (fun c => { c with parts := c.parts.filter (fun p => p.id != id) })).filter (fun c => !c.parts.isEmpty)

/-- The checks of a part have passed. -/
def markChecked (id : Nat) (l : List Commit) : List Commit :=
  l.map (fun c => { c with parts := c.parts.map (fun p => if p.id = id then { p with checked := true } else p) })

/-- R57, R58: the checks of a part end: it is refused alone, or stands, and the active sends its record (R469).
Marks: DEDUCED (log entry 21). -/
def checkEnds (s : State) (before : List CommitPart) (p : CommitPart) : State :=
  match partCheck s (checkView s before p) p.id with
  | some (code, page) =>
    (refusePart code { s with commits := dropPart p.id s.commits } p).setReg (aSys 0x04C) (w32 page)
  | none =>
    let t := { s with commits := markChecked p.id s.commits }
    match t.commits.find? (fun c => c.parts.any (fun x => x.id == p.id)) with
    | some c => if c.parts.all (fun x => x.checked) then sendCommit t c else t
    | none => t

/-- COMMIT_CHECK_END. -/
def execCommitCheckEnd (s : State) : Result :=
  .next (match uncheckedPart [] s.commits with
    | some (before, p) => checkEnds s before p
    | none => s)

/-! ### The commit point -/

/-- The commit's point has come, and its checks have ended. -/
def commitDue (s : State) (c : Commit) : Bool :=
  c.parts.all (fun p => p.checked) && !(c.fromTwin && s.twin.role == .standby && s.twin.sync == .joining) &&
  (match c.point with
   | .cycle n => decide (n ≤ s.cclk)
   | .sync n => decide ((syncCnt s + 2 ^ 32 - n) % 2 ^ 32 < 2 ^ 31))

/-- Values that a commit installs, a later part's in place of an earlier one's. -/
def commitFinal (c : Commit) : List Shadow :=
  (c.parts.flatMap (fun p => p.vals)).foldl (fun l x => l.filter (fun y => y.off != x.off) ++ [x]) []

/-- The value that a shadow replaces; bytes 0 and 1 of an authentication entry for those of CAN_AUTH_SET. -/
def valueNow (s : State) (off : Nat) : Word :=
  if off < 0x1100000 then s.reg off
  else
    let e := s.auth ((off - 0x1100000) / 4)
    w32 (e.key + b2n e.rx * 2 ^ 14 + b2n e.valid * 2 ^ 15)

/-- R60: the shadows that change their register. Marks: DEDUCED (log entry 21). -/
def changedVals (s : State) (c : Commit) : List Shadow := (commitFinal c).filter (fun x => valueNow s x.off != x.val)

/-- R60: a record that changes its entry. -/
def changedRecs (s : State) (c : Commit) : Bool :=
  (commitRecs s c).any (fun x => s.entAt s.epoch x.1 x.2.1 != x.2.2)

/-- Writer stats of a commit that has been applied. -/
def appliedStats (s : State) (c : Commit) : State := c.parts.foldl (fun t p => commitStat t p.writer 2 0 p.tag) s

/-- One value takes effect. -/
def takeVal (s : State) (x : Shadow) : State :=
  if x.off < 0x1100000 then s.setReg x.off x.val else authCommit s ((x.off - 0x1100000) / 4) x.val

/-- Port of a MAC or SDS page whose link a changed register retrains (R122). -/
def trainsPort (s : State) (off : Nat) (old : Word) : Option Nat :=
  match pageOf (off / 0x1000) with
  | some (.mac p) => if off % 0x1000 = 0x040 ∧ fld old 0 16 ≠ s.fld off 0 16 then some p else none
  | some (.sds p) => if off % 0x1000 = 0x040 then some p else none
  | _ => none

/-- Whether a changed register is one that R102 names under the source in effect. -/
def joinsPb (s : State) (off : Nat) (old : Word) : Bool :=
  let src := s.fld (aPb 0x040) 0 2
  -- SRC, and of SEL and DOMAIN the one that the source uses
  let used := 3 + (if src = 0 then 8 else if src = 3 then 0 else 4)
  (off == aPb 0x040 && (s.reg off ^^^ old) &&& w32 used != 0)
  || (src == 0 && (off == aPb 0x044 || off == aPb 0x048))
  || (src == 3 && (off == aPb 0x060 || off == aPb 0x064))
  || (src == 2 && off == aGpio (0x300 + 0x20 * s.fld (aPb 0x040) 2 1) && (s.reg off ^^^ old) &&& 0xFFFF0002 != 0)

/-- A change of `SL_CFG.LANES`: lanes leave the link or train. -/
def lanesChange (s : State) (old : Word) : State :=
  [0, 1].foldl (fun (t : State) l =>
    let on := t.bitAt (regAddr pSl 0x040) l
    if on == bit old.toNat l then t
    else if on then
      t.setMac (48 + l) { t.mac (48 + l) with
        link := .train, goodSince := if (t.mac (48 + l)).loss.isEmpty then some t.cclk else none }
    else
      let u := if portUp t (48 + l) then slLaneDown t l else t
      u.setMac (48 + l) { u.mac (48 + l) with link := .disabled, goodSince := none }) s

/-- R288, R107: a changed `EGS_GCL_CFG`. -/
def gclChange (s : State) (forced : Bool) (p off : Nat) : State :=
  let b := s.fld off 0 10
  let l := s.fld off 10 11
  if forced then placeList s p b l else installList s p b l

/-- R326, R107: a changed `CAN_BW_CFG`. -/
def canBwChange (s : State) (forced : Bool) (n off : Nat) (old : Word) : State :=
  if fld old 1 1 = s.fld off 1 1 ∧ fld old 8 6 = s.fld off 8 6 then s
  else
    let t := s.setCan n { s.can n with bwInstall := some (s.fld off 1 1, s.fld off 8 6) }
    if forced then canCycle t n else t

/-- A changed `LIN_CFG`. -/
def linCfgChange (s : State) (forced : Bool) (n off : Nat) (old : Word) : State :=
  let t := if fld old 0 2 = s.fld off 0 2 then s else linModeCommit s n
  if fld old 3 8 = s.fld off 3 8 then t
  else
    let u := t.setLin n { t.lin n with install := some (t.fld off 3 1, t.fld off 4 7) }
    if forced then linResume (linRestart u n) n else u

/-- R282: ALG of a queue changes: its credit stands as it did, and moves from now on as the new ALG has it. -/
def algChange (s : State) (p q : Nat) : State :=
  setCredit s p q (max s.cclk (Tab.get (fun _ => 0) (s.egs p).creditAt q)) (Tab.get (fun _ => 0) (s.egs p).credit q)

/-- A changed `EGS_Qq_CFG`. -/
def queueChange (s : State) (p q : Nat) (old new : Word) : State :=
  let t := if fld old 1 2 = fld new 1 2 then s else algChange s p q
  if queueOff t p q then flushQueue t p q else t

/-- R280, R283: offsets of an EGS page whose committed change acts from the next refill on. -/
def isShaper (o : Nat) : Bool :=
  o == 0x040 || o == 0x04C || o == 0x050
    || (decide (0x100 ≤ o ∧ o < 0x200) && (o % 0x20 == 0x04 || o % 0x20 == 0x08 || o % 0x20 == 0x0C))

/-- R280: the value that acts until the next refill is kept. -/
def holdSetting (s : State) (x : Shadow) : State :=
  match (if x.off < 0x1100000 then pageOf (x.off / 0x1000) else none) with
  | some (.egs p) =>
    let o := x.off % 0x1000
    let e := s.egs p
    if isShaper o && !e.old.any (fun y => y.1 == o) then s.setEgs p { e with old := e.old ++ [(o, s.reg x.off)] } else s
  | _ => s

/-- What a changed register sets off at the commit point, beside its new value. -/
def commitEffect (forced : Bool) (s : State) (x : Nat × Word) : State :=
  let off := x.1
  let o := off % 0x1000
  if 0x1100000 ≤ off then s
  else
    match pageOf (off / 0x1000) with
    | some (.mac p) => if o = 0x050 then mmStart s p else s
    | some (.msc p) => if o = 0x040 then mscCommit s p else s
    | some .sl => if o = 0x040 then lanesChange s x.2 else s
    | some (.egs p) =>
      if o = 0x054 then gclChange s forced p off
      else if 0x100 ≤ o ∧ o < 0x200 ∧ o % 0x20 = 0 then
        queueChange s p ((o - 0x100) / 0x20) x.2 (s.reg off)
      else s
    | some (.can n) =>
      if o = 0x040 ∧ fld x.2 0 3 ≠ s.fld off 0 3 then canModeCommit s n
      else if o = 0x0B4 then canBwChange s forced n off x.2 else s
    | some (.lin n) => if o = 0x040 then linCfgChange s forced n off x.2 else s
    | some .ptp =>
      if off = aDom 0 0 then domCommit s 0 x.2 else if off = aDom 1 0 then domCommit s 1 x.2
      else if off = aDom 0 0x0C then servoCommit s 0 else if off = aDom 1 0x0C then servoCommit s 1
      else if 0x400 ≤ o ∧ o < 0x700 ∧ o % 0x10 = 0 then pdelayCommit s ((o - 0x400) / 0x10)
      else s
    | _ => s

/-- Queues whose credit R283 settles before a new slope counts. -/
def settleAll (s : State) : State :=
  ((List.range 52).flatMap (fun p => (List.range 8).map (fun q => (p, q)))).foldl
    (fun t x => settleCredit t x.1 x.2) s

/-- The registers and records of a commit take effect, and the epoch advances (R55). -/
def takeCommit (s : State) (c : Commit) : State :=
  let ch := changedVals s c
  let e := s.epoch
  let t := c.parts.foldl (fun (u : State) p => gweCancels u p.id) (settleAll s)
  let t := { t with hist := ((e, ch.map (fun x => (x.off, valueNow s x.off))) :: t.hist).take 16 }
  let t := ch.foldl takeVal (ch.foldl holdSetting t)
  let t := t.setFld (aSys 0x050) 0 16 (e + 1)
  c.parts.foldl (fun (u : State) p => recordsLive u p.id ((e + 1) % 2 ^ 16)) t

/-- Origin of a commit's Silt entry: the first writer, or TWIN on a standby. Marks: DEDUCED (log entry 21). -/
def commitOrigin (c : Commit) : Nat :=
  if c.fromTwin then oTwin
  else match c.parts.head? with
    | some p => originOf p.writer
    | none => oHw

/-- The effects of the changed registers, in the order of the commit. -/
def commitEffects (s : State) (forced : Bool) (ch : List (Nat × Word)) : State :=
  let t := ch.foldl (commitEffect forced) s
  let t := ((ch.filterMap (fun x => trainsPort s x.1 x.2)).eraseDups).foldl linkTrainStart t
  if ch.any (fun x => joinsPb s x.1 x.2) then pbCommit t else t

/-- R469: the active applied a commit that the standby has not acknowledged. -/
def unackedLost (s : State) (c : Commit) : State :=
  if s.twin.role == .active && s.twin.sync == .synced && (commitNum c.point).isSome && !c.acked then syncLost s else s

/-- Table 17-4: the Topsoil that MP0 committed is in effect. -/
def topsoilDone (s : State) (c : Commit) : State :=
  if s.power.topsoilBusy && c.parts.any (fun p => p.writer == .mp0) then
    { s with
      power := { s.power with topsoilBusy := false, configured := true }
      tables := { s.tables with ready := true } }
  else s

/-- R55, R60: a commit is applied. -/
def applyCommit (s : State) (c : Commit) : State :=
  let s := { s with commits := s.commits.filter (fun x => x.parts.map (fun p => p.id) != c.parts.map (fun p => p.id)) }
  let ch := (changedVals s c).map (fun x => (x.off, valueNow s x.off))
  let forced := s.pb.syncAt != some s.pb.cycleAt && (commitNum c.point).isSome
  let t :=
    if ch.isEmpty && !changedRecs s c then
      { s with tables := { s.tables with
          ovl := s.tables.ovl.filter (fun o => !c.parts.any (fun p => o.st == .armed p.id)) } }
    else
      let t := takeCommit s c
      let t := t.silt_ (w32 s.epoch) (w32 t.epoch) (commitOrigin c) 2 0 0
      updateDigest (admitQueues (commitEffects t forced ch))
  topsoilDone (unackedLost ((appliedStats t c).raise pSys 0) c) c

/-- The commits whose point has come are applied, the earliest first. -/
def applyDue (s : State) : State :=
  match s.commits.find? (commitDue s) with
  | some c => applyCommit s c
  | none => s

/-- COMMIT_APPLY. -/
def execCommitApply (s : State) : Result := .next (applyDue s)

end Sys2Proof.Machine
end

