-- ==== Sys2Proof/Machine/HostDma.lean ====
section
/-!
DEFINITION. The rings of Table 2-8 and the host DMA (R62 to R72), and MSI-X unmasking (R587).
-/
namespace Sys2Proof.Machine
open Sys2Proof

/-- The value that a write leaves in a register: read-only and reserved bits keep theirs (R6). -/
def newVal (s : State) (a : Nat) (v : Word) : Word :=
  match regDef a with
  | some d => (s.reg a &&& ~~~ w32 d.mask) ||| (v &&& w32 d.mask)
  | none => v

/-! ### Completions (Table 2-12) -/

/-- Bytes of a completion entry; `ring` is the ring number, with bit 7 for an RX ring. -/
def dmaCompletion (tag ring status len nbuf flags ns sec epoch : Nat) (wrap : Bool) : List Byte :=
  leBytes 2 tag ++ [b8 ring, b8 status] ++ leBytes 2 len ++ [b8 nbuf, b8 (flags + 128 * b2n wrap)]
  ++ leBytes 4 ns ++ leBytes 2 sec ++ leBytes 2 epoch

/-- TAG of a frame's last descriptor. -/
def txTag (l : List TxDesc) : Nat :=
  match l.getLast? with
  | some d => d.tag
  | none => 0

/-- The completion of a frame that never entered PRS. The spec states no LEN, FLAGS, time and epoch for it: they are
free values. -/
def txUnsent (s : State) (h : HostPort) (k status : Nat) (l : List TxDesc) : State :=
  let f (i n : Nat) : Nat := Config.freeNat (s.free + i) % 2 ^ n
  let t := ringComplete s (.tx h k) (l.any (fun d => d.int))
    (dmaCompletion (txTag l) k status (f 0 16) 0 (f 1 5) (f 2 32) (f 3 16) (f 4 16))
  { t with free := t.free + 5 }

/-! ### Enable and disable (R62, R70) -/

/-- R70 on a TX ring: frames taken and not started complete with FLUSHED. Marks: DEDUCED (log entry 22). -/
def txFlush (s : State) (h : HostPort) (k : Nat) : State :=
  let x := s.ring (.tx h k)
  let t := s.setRing (.tx h k) { x with flight := x.flight.filter (fun f => !f.waiting) }
  (x.flight.filter (fun f => f.waiting)).foldl (fun u f => txUnsent u h k 5 f.descs) t

/-- R70, R408 on a lookaside ring: queued requests complete. Table 13-6 gives FLUSHED no code: it is a free value. -/
def laFlush (s : State) (h : HostPort) (x : Bool) : State :=
  let mine (r : LaReq) : Bool := r.source == .host h x
  let t := { s with cipher := { s.cipher with queue := s.cipher.queue.filter (fun r => !mine r) } }
  (s.cipher.queue.filter mine).foldl (fun (u : State) r =>
    let st := Config.freeNat u.free % 256
    ringComplete u.tick1 (.la h x) r.d.int (laCompletion r st 0 0)) t

/-- R70 on the UPD ring: descriptors behind the one that the flash works on complete. Table 18-7 gives FLUSHED no code:
it is a free value. -/
def updFlush (s : State) : State :=
  match s.upd.session with
  | none => s
  | some u =>
    if u.dest ≠ 0 then s
    else
      let t := { s with upd := { s.upd with session := some { u with flight := u.flight.take 1 } } }
      (u.flight.drop 1).foldl (fun (v : State) x =>
        let st := Config.freeNat v.free % 256
        ringComplete v.tick1 .upd x.1.int (fun w => leBytes 2 x.1.tag ++ [b8 st, b8 (128 * b2n w)] ++ leBytes 4 x.1.offset
          ++ leBytes 8 0)) t

/-- A ring is enabled: the completion ring starts its first pass. Marks: DEDUCED (log entry 22). -/
def ringStarts (s : State) (r : RingId) : State :=
  (s.setBitAt (ringBase r + 8) 31 false).setRing r
    { s.ring r with count := 0, timer := none, due := false, written := 0, draining := false }

/-- R70: a ring stops taking descriptors. Marks: DEDUCED (log entry 22). -/
def ringStops (s : State) (r : RingId) : State :=
  let t := s.setRing r { s.ring r with draining := true }
  match r with
  | .tx h k => txFlush t h k
  | .la h x => laFlush t h x
  | .rx _ _ => t
  | .tue _ => t
  | .upd => updFlush t

/-- An accepted write of `RINGk_CFG`. -/
def ringCfgTaken (s : State) (w : Who) (r : RingId) (val : Word) : State :=
  let a := ringBase r + 8
  let new := newVal s a val
  let t := logReg (s.setReg a new) (originOf w.m) a (s.reg a) new false
  if bit new.toNat 0 then (if ringEn s r then t else ringStarts t r)
  else if ringEn s r then ringStops t r else t

/-- RING_ENABLE. -/
def execRingEnable (w : Who) (r : RingId) (val : Word) (s : State) : Result :=
  ifWf (ringOk r && bit val.toNat 0) (s.write w (ringBase r + 8) val (ringCfgTaken s w r val))

/-- RING_DISABLE. -/
def execRingDisable (w : Who) (r : RingId) (val : Word) (s : State) : Result :=
  ifWf (ringOk r && !bit val.toNat 0) (s.write w (ringBase r + 8) val (ringCfgTaken s w r val))

/-- Nothing of a ring is in flight. -/
def ringIdle (s : State) (r : RingId) : Bool :=
  match r with
  | .tx _ _ => (s.ring r).flight.isEmpty
  | .la h x => !(s.cipher.queue ++ s.cipher.adm).any (fun q => q.source == .host h x)
  | .upd => (match s.upd.session with | some u => u.flight.isEmpty | none => true)
  | .rx _ _ => true
  | .tue _ => true

/-- R70: a disabled ring is drained. -/
def ringDrains (s : State) (r : RingId) : State :=
  ((s.setFld (ringBase r + 0x18) 0 12 (s.fld (ringBase r + 0x14) 0 12)).setBitAt (ringBase r + 8) 31 true).setRing r
    { s.ring r with draining := false }

/-- RING_DRAINED. -/
def execRingDrained (r : RingId) (s : State) : Result :=
  ifWf (ringOk r) (whenever ((s.ring r).draining && ringIdle s r) s (ringDrains s r))

/-- RING_TAIL_WRITE. -/
def execRingTailWrite (w : Who) (r : RingId) (val : Word) (s : State) : Result :=
  ifWf (ringOk r) (s.write w (ringBase r + 0x14) val
    (s.setReg (ringBase r + 0x14) (newVal s (ringBase r + 0x14) val)))

/-- R49: every ring of a host is disabled, as by a write of EN = 0. -/
def hostRingsStop (s : State) (h : HostPort) : State :=
  let rs := (List.range 32).map (RingId.tx h) ++ (List.range 32).map (RingId.rx h)
  rs.foldl (fun t r => if ringEn t r then ringStops (t.setBitAt (ringBase r + 8) 0 false) r else t) s

/-! ### TX frames (R63 to R66) -/

/-- Port of a host. -/
def hostPortNo : HostPort → Nat
  | .a => 48
  | .b => 49

/-- TC of a frame: that of its first descriptor. -/
def txTc (l : List TxDesc) : Nat :=
  match l with
  | d :: _ => d.tc
  | [] => 0

/-- R63: a frame outside the limits, by the code of its completion. Marks: DEDUCED (log entry 22). -/
def txLimit (l : List TxDesc) : Nat :=
  if 8 < l.length then 7
  else if descLen l < 14 ∨ 9212 < descLen l ∨ l.any (fun d => d.len == 0) then 2 else 0

/-- R63: padding and FCS. -/
def hostTxBytes (bs : List Byte) : List Byte := paddedFrame bs

/-- A frame of a TX ring enters PRS in this cycle. The clock of `PTP_CFG.HOST_DOMAIN` gives its time.
Marks: DEDUCED (log entry 22). -/
def txEnters (s : State) (h : HostPort) (k : Nat) (x : TxFrame) : State × TxFrame :=
  let bs := hostTxBytes x.bytes
  let f : Frame := { portFrame s (hostPortNo h) 0 s.cclk with
    bytes := bs, tc := txTc x.descs, txRing := some (h == .b, k) }
  let d := s.dom (s.fld (aPtp 0x040) 0 1)
  (enterPaced s f, { x with waiting := false, frame := some s.nextFrame, sec := timeSec d.time, ns := timeNs d.time,
                            lastAt := s.cclk + byteTime f.mbps bs.length })

/-- R65: the launch position of a frame is ahead. -/
def launchAhead (s : State) (x : TxFrame) : Bool :=
  match x.descs with
  | d :: _ => d.launch && aheadOf d.launchPos.toNat s.pos.toNat
  | [] => false

/-- R65: the position has reached or passed the launch position of a frame, or it has none. -/
def launchReached (s : State) (x : TxFrame) : Bool :=
  !launchAhead s x || x.descs.head?.any (fun d => d.launchPos == s.pos)

/-- R65: count a LAUNCH frame whose position was past when the frame was ready. -/
def launchLate (s : State) (h : HostPort) (x : TxFrame) : State :=
  match x.descs with
  | d :: _ => if d.launch && !x.early then s.bump (regAddr (pHif h 0) 0x250) else s
  | [] => s

/-- Put a frame at the end of a ring's frames in flight. -/
def addFlight (s : State) (h : HostPort) (k : Nat) (x : TxFrame) : State :=
  s.setRing (.tx h k) { s.ring (.tx h k) with flight := (s.ring (.tx h k)).flight ++ [x] }

/-- A frame waits to enter PRS, as one of a TC. -/
def txWaits (tc : Nat) (x : TxFrame) : Bool := x.waiting && txTc x.descs == tc

/-- R65: the first waiting frame of a TC is ready to enter: whether its launch position is then ahead. -/
def txNote (s : State) (tc : Nat) : List TxFrame → List TxFrame
  | [] => []
  | x :: rest => if txWaits tc x then { x with early := launchAhead s x } :: rest else x :: txNote s tc rest

/-- The first waiting frame of a ring and TC, when nothing but the port's pacer keeps it from entering (R64, R65). -/
def txFirst (s : State) (h : HostPort) (k tc : Nat) : Option TxFrame :=
  match (s.ring (.tx h k)).flight.find? (txWaits tc) with
  | none => none
  | some x => if launchReached s x then some x else none

/-- Frames of a host that could enter now: ring, TC and frame. -/
def txCandidates (s : State) (h : HostPort) : List (Nat × Nat × TxFrame) :=
  (List.range 32).flatMap (fun k => (List.range 8).filterMap (fun tc => (txFirst s h k tc).map (fun x => (k, tc, x))))

/-- The first waiting frame of a ring and TC enters. -/
def txGo (s : State) (h : HostPort) (k tc : Nat) (x : TxFrame) : State :=
  let l := (s.ring (.tx h k)).flight
  let before := l.takeWhile (fun z => !txWaits tc z)
  let (t, y) := txEnters (launchLate s h x) h k x
  t.setRing (.tx h k) { t.ring (.tx h k) with flight := before ++ y :: txNote t tc (l.drop (before.length + 1)) }

/-- R15, R243: when the pacer of a host's port lets a frame enter, the one that was taken first does.
Marks: DEDUCED (log entry 22). -/
def txDue (s : State) (h : HostPort) : State :=
  if entryOpen s (hostPortNo h) then
    match leastBy (fun c => (c.2.2.took * 32 + c.1) * 8 + c.2.1) (txCandidates s h) with
    | some (k, tc, x) => txGo s h k tc x
    | none => s
  else s

/-- R64, R65: a frame that has been read enters PRS, or waits: behind a frame of its TC, for its launch position, or
for the port's pacer. Marks: DEDUCED (log entry 22). -/
def txReady (s : State) (h : HostPort) (k : Nat) (x : TxFrame) : State :=
  if (s.ring (.tx h k)).flight.any (txWaits (txTc x.descs)) then addFlight s h k { x with waiting := true }
  else
    let y := { x with waiting := true, early := launchAhead s x }
    if launchReached s y && entryOpen s (hostPortNo h) && (txCandidates s h).isEmpty then
      let (t, z) := txEnters (launchLate s h y) h k y
      addFlight t h k z
    else addFlight s h k y

/-- A TX ring takes its next frame. -/
def txTakes (s : State) (h : HostPort) (k : Nat) (l : List TxDesc) (bs : List Byte) (fault : Bool) : State :=
  let t := ringTake s (.tx h k) l.length
  match txLimit l with
  | 0 =>
    if fault then txUnsent (t.bump (regAddr (pHif h 0) 0x248)) h k 3 l
    else txReady t h k { descs := l, bytes := bs, waiting := false, frame := none, took := s.cclk }
  | st => txUnsent t h k st l

/-- R64: a ring can take a frame: it is enabled, has the descriptors, and room; FENCE waits for what is in flight.
Marks: DEDUCED (log entry 22). -/
def txCan (s : State) (h : HostPort) (k : Nat) (l : List TxDesc) : Bool :=
  let r := RingId.tx h k
  let fl := (s.ring r).flight
  ringEn s r && decide (l.length ≤ ringPosted s r) && decide (fl.length < 8) && (!l.any (fun d => d.fence) || fl.isEmpty)

/-- TX_FRAME_ENTER. -/
def execTxFrameEnter (h : HostPort) (k : Nat) (descs : List TxDesc) (bytes : List Byte) (fault : Bool) (s : State) : Result :=
  ifWf (decide (k < 32) && txFrameOk descs bytes fault)
    (whenever (txCan s h k descs) s (txTakes s h k descs bytes fault))

/-- R65: the first waiting frame of a TC enters, once its launch position is reached and the pacer lets it. -/
def txLaunches (k tc : Nat) (s : State) (h : HostPort) : State :=
  match txFirst s h k tc with
  | none => s
  | some x => if entryOpen s (hostPortNo h) then txGo s h k tc x else s

/-- TX_LAUNCH. -/
def execTxLaunch (h : HostPort) (k tc : Nat) (s : State) : Result :=
  ifWf (decide (k < 32) && tcOk tc) (txLaunches k tc s h)

/-- R66: frame `n` of those in flight has been read whole, and its policy decision made. -/
def txFinishes (s : State) (h : HostPort) (k n : Nat) : State :=
  let r := RingId.tx h k
  match (s.ring r).flight[n]? with
  | none => s
  | some x =>
    match x.verdict with
    | none => s
    | some dropped =>
      if s.cclk < x.lastAt then s
      else
        let t := s.setRing r { s.ring r with flight := (s.ring r).flight.eraseIdx n }
        ringComplete t r (x.descs.any (fun d => d.int))
          (dmaCompletion (txTag x.descs) k (b2n dropped) x.bytes.length 0 x.flags x.ns x.sec x.epoch)

/-- TX_COMPLETION. -/
def execTxCompletion (h : HostPort) (k n : Nat) (s : State) : Result :=
  ifWf (decide (k < 32) && decide (n < 8)) (txFinishes s h k n)

/-! ### RX frames (R67 to R69) -/

/-- The RX ring of a host whose first frame was delivered first. -/
def rxNext (s : State) (h : HostPort) : Option Nat :=
  leastBy (fun k => match (s.ring (.rx h k)).rxWait with | x :: _ => x.at_ * 32 + k | [] => 0)
    ((List.range 32).filter (fun k => !(s.ring (.rx h k)).rxWait.isEmpty))

/-- R138, R594: ingress time of a frame in a domain, in units of 2^-16 ns: the clock at its timestamp cycle, its
sub-cycle position, less the receive delay, rounded down. -/
def ingressTime (s : State) (d : Nat) (f : Frame) : Nat :=
  let ps : Int := (timeAt s d f.tsCycle : Int) * 1000 + ((f.sub * 250 : Nat) - (f.lat : Int)) * 2 ^ 48
  (ps / (1000 * 2 ^ 32)).toNat

/-- The receive header (Table 2-11). -/
def rxHeader (s : State) (x : RxWait) : List Byte :=
  let f := x.frame
  let t := ingressTime s (s.fld (aPtp 0x040) 0 1) f
  leBytes 2 x.bytes.length ++ [b8 f.port, b8 (x.tc + 8 * frameFlags f)] ++ leBytes 2 f.epoch ++ leBytes 2 f.reason
  ++ leBytes 6 (t / 2 ^ 16 / 10 ^ 9) ++ leBytes 4 (t / 2 ^ 16 % 10 ^ 9) ++ leBytes 2 t
  ++ leBytes 4 (f.pos.toNat / 2 ^ 32) ++ leBytes 4 f.pos.toNat
  ++ leBytes 2 (match f.handle with | some i => i + 2 ^ 15 | none => 0) ++ leBytes 2 0

/-- A posted buffer as the HX48 uses it. What it does with a descriptor that breaks the rules of its fields is not in
the spec: the address and the length that it uses are free values. Marks: DESIGN CHOICE (log entry 65). -/
def rxBuffer (n : Nat) (d : RxDesc) : RxDesc :=
  if rxDescOk d then d
  else { d with addr := Config.freeNat n % 2 ^ 64, len := Config.freeNat (n + 1) % 2 ^ 16 }

/-- The buffers of a frame as the HX48 uses them, and the free values spent. Marks: DESIGN CHOICE (log entry 65). -/
def rxBuffers (s : State) (l : List RxDesc) : State × List RxDesc :=
  ({ s with free := s.free + 2 * (l.filter (fun d => !rxDescOk d)).length },
   l.mapIdx (fun i d => rxBuffer (s.free + 2 * ((l.take i).filter (fun d => !rxDescOk d)).length) d))

/-- How `n` bytes lie in buffers: address and bytes of each piece, from offset `o` of the first buffer on. -/
def spread : Nat → List RxDesc → List Byte → List (Nat × List Byte)
  | _, [], _ => []
  | o, d :: rest, bs =>
    if bs.isEmpty then []
    else (d.addr + o, bs.take (d.len - o)) :: spread 0 rest (bs.drop (d.len - o))

/-- R68: bytes that the posted buffers must hold before DMA starts. Marks: DEDUCED (log entry 22). -/
def rxNeed (x : RxWait) : Nat := 32 + (if x.frame.cutThrough then 9216 else x.bytes.length)

/-- R67, R69: a frame is written to host memory, then its header, then its completion. -/
def rxWrites (s : State) (h : HostPort) (k : Nat) (x : RxWait) (bufs : List RxDesc) (fault : Bool) : State :=
  let parts := spread 32 bufs x.bytes
  let used := max 1 parts.length
  let t := ringTake s (.rx h k) used
  let tag := match bufs[used - 1]? with | some d => d.tag | none => 0
  let st := if fault then 3 else if x.frame.icvFail then 4 else 0
  let time := ingressTime s (s.fld (aPtp 0x040) 0 1) x.frame / 2 ^ 16
  let t := if fault then t.bump (regAddr (pHif h 0) 0x248)
    else
      let u := parts.foldl (fun (u : State) p => u.emit (.hostWrite h p.1 p.2)) t
      u.emit (.hostWrite h (match bufs with | d :: _ => d.addr | [] => 0) (rxHeader s x))
  ringComplete t (.rx h k) false (dmaCompletion tag (k + 128) st x.bytes.length used (frameFlags x.frame)
    (time % 10 ^ 9) (time / 10 ^ 9) x.frame.epoch)

/-- R67, R68: the oldest frame that waits for DMA on a host port. `bufs` are the buffers that its ring has posted, as
far as they are needed. Marks: DEDUCED (log entry 22). -/
def rxDma (s : State) (h : HostPort) (bufs : List RxDesc) (fault : Bool) : State :=
  match rxNext s h with
  | none => s
  | some k =>
    let r := RingId.rx h k
    let posted := if ringEn s r then ringPosted s r else 0
    match (s.ring r).rxWait with
    | [] => s
    | x :: rest =>
      let t := s.setRing r { s.ring r with rxWait := rest }
      let room := bufs.foldl (fun n d => n + d.len) 0
      if posted < bufs.length then s
      else if rxNeed x ≤ room then rxWrites t h k x bufs fault
      else if bufs.length < posted then s
      else t.bump (regAddr (pHif h 0) 0x240)

/-- RX_FRAME_DMA. -/
def execRxFrameDma (h : HostPort) (bufs : List RxDesc) (fault : Bool) (s : State) : Result :=
  ifWf (bufs.all rxDescFits) (let (t, l) := rxBuffers s bufs; rxDma t h l fault)

/-! ### Interrupts (R72, R587) -/

/-- R72: a ring raises its vector. -/
def ringVector (s : State) (r : RingId) : State :=
  (s.setRing r { s.ring r with count := 0, timer := none, due := false }).sendVec (ringHost s r)
    (s.fld (ringBase r + 8) 8 6)

/-- RING_INTERRUPT. -/
def execRingInterrupt (r : RingId) (s : State) : Result :=
  ifWf (ringOk r) (whenever (s.ring r).due s (ringVector s r))

/-- The coalescing timer of a ring has expired. -/
def coalDue (s : State) (r : RingId) : Bool :=
  match (s.ring r).timer with
  | some t => decide (t ≤ s.cclk)
  | none => false

/-- COAL_TIMER_EXPIRE. -/
def execCoalTimerExpire (r : RingId) (s : State) : Result :=
  ifWf (ringOk r) (whenever (coalDue s r) s (ringVector s r))

/-- R587: a vector is unmasked, and its pending message sent. -/
def msixOpens (s : State) (h : HostPort) (v : Nat) : State :=
  let m := s.msix h
  let b := BitVec.ofNat 64 (2 ^ v)
  let t := s.setMsix h { m with masked := m.masked &&& ~~~ b, pend := m.pend &&& ~~~ b }
  if m.masked.getLsbD v && m.pend.getLsbD v then t.emit (.msix h v) else t

/-- The host port whose MSI-X table a key of BAR4 lies in, and the offset in BAR4 (Table 2-1). -/
def bar4At (a : Nat) : Option (HostPort × Nat) :=
  if 0x1200000 ≤ a ∧ a < 0x1204000 then some (.a, a - 0x1200000)
  else if 0x1204000 ≤ a ∧ a < 0x1208000 then some (.b, a - 0x1204000) else none

/-- The host port whose BAR2 a key lies in, and the offset in BAR2 (Table 2-1). -/
def bar2At (a : Nat) : Option (HostPort × Nat) :=
  if 0x4000000 ≤ a ∧ a < 0x8000000 then some (.a, a - 0x4000000)
  else if 0x8000000 ≤ a ∧ a < 0xC000000 then some (.b, a - 0x8000000) else none

/-- The key of a host port's own TUE ring register. -/
def bar2Ring (h : HostPort) (off : Nat) : Nat := ringBase (.tue h) + off

/-- The refusal of a write to BAR2 past the TUE ring: a reserved offset below the table window (R7), and read-only
areas from it on (Table 2-1). Marks: DESIGN CHOICE (log entry 73). -/
def bar2Refusal (off : Nat) : Refused := if off < 0x1000000 then .addrReserved else .writeRo

/-- A write of a host to its MSI-X table (R39, R587): address and data words, and the mask bit of the vector control
word. The pending bits are read only, and PCI Express Base 4.0 defines aligned 32-bit writes alone.
Marks: DESIGN CHOICE (log entry 73). -/
def msixWrite (s : State) (h : HostPort) (off width : Nat) (val : Word) : State :=
  let m := s.msix h
  let v := off / 16
  if width ≠ 4 ∨ off % 4 ≠ 0 ∨ 0x400 ≤ off then s
  else if off % 16 = 12 then
    if bit val.toNat 0 then s.setMsix h { m with masked := m.masked ||| BitVec.ofNat 64 (2 ^ v) } else msixOpens s h v
  else s.setMsix h { m with table := Tab.set (fun _ => 0) m.table (off / 4) (if off % 16 = 0 then val &&& ~~~ 3 else val) }

/-- MSIX_UNMASK. -/
def execMsixUnmask (h : HostPort) (vec : Nat) (s : State) : Result :=
  ifWf (decide (vec < 64)) (msixOpens s h vec)

end Sys2Proof.Machine
end

