-- ==== Sys2Proof/Machine/HostOps.lean ====
section
/-!
DEFINITION. Page owners and semaphores (R47 to R52), acknowledgements and checkpoints of the Silt Log (R77, R78), and
the PCIe link of a host coming up (R38).
-/
namespace Sys2Proof.Machine
open Sys2Proof

/-! ### OWNER (R47) -/

/-- OWNER of a page takes a value; a change is logged. -/
def setOwner (s : State) (origin p v : Nat) : State :=
  let a := regAddr p 0x20
  let old := s.reg a
  let new := putFld old 0 4 v
  if old = new then s else (s.setReg a new).silt_ old new origin 3 0 (a / 4 % 2 ^ 19)

/-- OWNER_WRITE. -/
def execOwnerWrite (w : Who) (page : Nat) (val : Word) (s : State) : Result :=
  ifWf (pageOk page) (s.write w (regAddr page 0x20) val (setOwner s (originOf w.m) page (fld val 0 4)))

/-! ### Semaphores (R50 to R52) -/

/-- BAR0 offset of `SEM_TASn`. -/
def aTas (n : Nat) : Nat := regAddr pSem (0x040 + 4 * n)

/-- BAR0 offset of `SEM_STATn`. -/
def aSem (n : Nat) : Nat := regAddr pSem (0x140 + 4 * n)

/-- What a read of `SEM_TASn` returns: GOT and OWNER. -/
def tasValue (got : Bool) (owner : Nat) : Word := w32 (b2n got + owner * 2 ^ 8)

/-- R50, R52: a read of `SEM_TASn`. -/
def semTas (s : State) (w : Who) (n : Nat) : State :=
  let o := s.fld (aSem n) 0 4
  let me := masterId w.m
  if s.mode = .standby then s.emit (.read w.m (aTas n) (tasValue false o))
  else if o = 0 then
    ((s.setFld (aSem n) 0 4 me).setFld (aSem n) 16 16 (s.fld (aSem n) 16 16 + 1)).emit
      (.read w.m (aTas n) (tasValue true me))
  else s.emit (.read w.m (aTas n) (tasValue (o == me) o))

/-- SEM_TAS_READ. -/
def execSemTasRead (w : Who) (n : Nat) (s : State) : Result :=
  ifWf (semOk n) (s.readOnce w (aTas n) (semTas s w n))

/-- R51: a write of 0 to `SEM_TASn`. A release on a standby is refused whoever makes it (R52).
Marks: DEDUCED (log entry 23). -/
def semFree (s : State) (w : Who) (n : Nat) : State :=
  let o := s.fld (aSem n) 0 4
  if s.mode = .standby then s.refuse pSem .modeDenied w (aTas n)
  else if o = 0 then s
  else if o = masterId w.m then s.setFld (aSem n) 0 4 0
  else s.refuse pSem .notOwner w (aTas n)

/-- SEM_RELEASE. -/
def execSemRelease (w : Who) (n : Nat) (s : State) : Result :=
  ifWf (semOk n) (s.write w (aTas n) 0 (semFree s w n))

/-- R49: the pages and semaphores of a master are released, each with a Silt entry of origin HW. -/
def releaseOwned (s : State) (id : Nat) : State :=
  let t := (allPages.filter (fun p => ownerOf s p == id)).foldl (fun (u : State) p => setOwner u oHw p 0) s
  ((List.range 64).filter (fun n => s.fld (aSem n) 0 4 == id)).foldl (fun (u : State) n =>
    (u.setFld (aSem n) 0 4 0).silt_ (w32 id) 0 oHw 3 0 (aTas n / 4 % 2 ^ 19)) t

/-- HOST_LINK_UP. -/
def execHostLinkUp (h : HostPort) (speed width : Nat) (s : State) : Result :=
  ifWf (hostLinkOk speed width)
    (whenever (!asleep s.mode) s (s.setReg (regAddr (pHif h 0) 0x040) (w32 (speed + width * 16 + 0x100))))

/-! ### Silt Log -/

/-- R78: the oldest retained entry follows the ACKs. -/
def siltFrees (s : State) : State :=
  let free := (s.reg (aSilt 0x04C)).toNat
  let ahead (a : Nat) : Nat :=
    let d := ((s.reg (aSilt a)).toNat + 1 + 2 ^ 32 - free) % 2 ^ 32
    if d < 2 ^ 31 then d else 0
  let n := if s.bitAt (aSilt 0x040) 1 then min (ahead 0x050) (ahead 0x054) else max (ahead 0x050) (ahead 0x054)
  s.setReg (aSilt 0x04C) (w32 (free + n))

/-- BAR0 offset of a host's ACK. -/
def aAck : HostPort → Nat
  | .a => aSilt 0x050
  | .b => aSilt 0x054

/-- SILT_ACK_WRITE. -/
def execSiltAckWrite (w : Who) (h : HostPort) (val : Word) (s : State) : Result :=
  .next (s.write w (aAck h) val (siltFrees (s.setReg (aAck h) val)))

/-- R77: a checkpoint record closes at entry `last`, whose following chain value is `chain`.
Marks: DEDUCED (log entry 26). -/
def checkpoint (s : State) (last : Nat) (chain : BitVec 256) : State :=
  let n := (s.reg (aSilt 0x05C)).toNat + 1
  let body := leBytes 4 last ++ leBytes 4 s.nvm.bootCount ++ leBytes 4 n ++ List.replicate 20 0 ++ bytes256 chain
  let sig := Config.ecdsaSign false (s.keySlot 0).key (bytes256 (Config.sha256 body)) s.free
  let r : Checkpoint :=
    { seqLast := last, bootCnt := s.nvm.bootCount, count := n, chain := chain, sig := BitVec.ofNat 512 (beNat sig) }
  let ents := s.silt.entries.map (fun e => if e.2.seq = last then (e.1, { e.2 with cp := true }) else e)
  let t := { s.tick1 with silt := { s.silt with
    entries := ents
    records := Tab.put s.silt.records ((n - 1) % 64) r
    due := s.silt.due.filter (fun x => x.1 != last) } }
  ((t.setReg (aSilt 0x05C) (w32 n)).setReg (aSilt 0x058) (w32 last)).raise pSilt 1

/-- R77: MP1 takes a checkpoint at the newest entry. -/
def checkpointNow (s : State) : State := checkpoint s ((s.reg (aSilt 0x048)) - 1).toNat s.silt.chain

/-- SILT_CHECKPOINT_RECORD. -/
def execSiltCheckpointRecord (s : State) : Result :=
  .next (match s.silt.due with
    | x :: _ => whenever (keyValid (s.keySlot 0) && pairOk s true) s (checkpoint s x.1 x.2)
    | [] => s)

end Sys2Proof.Machine
end

