-- ==== Sys2Proof/Machine/FaultOps.lean ====
section
/-!
DEFINITION. The fault coalescer (R502 to R510), error injection (R515 to R517) and the scrubbers (R493, R496, R497).
-/
namespace Sys2Proof.Machine
open Sys2Proof

/-! ### Reports (R504) -/

/-- The report that enters the FIFO next: the oldest event, then the lowest reporter. -/
def nextReport (s : State) : Option Report :=
  leastBy (fun r => r.at_ * 2 ^ 20 + r.reporter) (s.faults.events.filter (fun r => decide (r.at_ + 8 ≤ s.cclk)))

/-- R504: a report enters the FIFO, or is lost. -/
def reportEnters (s : State) (r : Report) : State :=
  let f := s.faults
  let t := { s with faults := { f with events := f.events.erase r } }
  if 1024 ≤ f.fifo.length then
    (({ t with faults := { t.faults with lostMark := true } }.bump (aFltCnt 1)).raise pFlt 3)
  else
    { t with faults := { t.faults with fifo := f.fifo ++ [r], fifoMax := max f.fifoMax (f.fifo.length + 1) } }

/-- FAULT_REPORT. -/
def execFaultReport (s : State) : Result :=
  .next (match nextReport s with
    | some r => reportEnters s r
    | none => s)

/-! ### The coalescer (R505 to R509) -/

/-- WINDOW of a key in cycles. -/
def fltWindow (s : State) : Nat := s.fld (aFlt 0x040) 0 16 * 1000

/-- An attribution entry. -/
def attrEntry (s : State) (i : Nat) : Word × Word × Word := Tab.get (fun _ => (0, 0, 0)) s.faults.attr i

/-- R506: whether an attribution entry matches a report. -/
def attrMatches (a : Word × Word × Word) (r : Report) : Bool :=
  bit a.2.1.toNat 31 && fld a.2.1 0 4 == r.reporter / 2 ^ 16 && decide (fld a.1 0 16 ≤ r.reporter % 2 ^ 16)
    && decide (r.reporter % 2 ^ 16 ≤ fld a.1 16 16) && (bit a.2.1.toNat 10 || fld a.2.1 4 6 == r.cls)

/-- R506: the suspect. -/
def suspectOf (s : State) (r : Report) : Nat :=
  match (List.range 256).find? (fun i => attrMatches (attrEntry s i) r) with
  | some i => fld (attrEntry s i).2.2 0 20
  | none => r.reporter

/-- A coalescer entry; none is FREE. Entry 1024 is that of the OVERFLOW key when every other entry is OPEN. -/
def coalEntry (s : State) (i : Nat) : Option CoalEntry := Tab.get (fun _ => none) s.faults.ent i

/-- The state with a coalescer entry changed. -/
def setCoal (s : State) (i : Nat) (e : Option CoalEntry) : State :=
  { s with faults := { s.faults with ent := Tab.set (fun _ => none) s.faults.ent i e } }

/-- The OPEN entry of a key. -/
def openOf (s : State) (suspect cls : Nat) : Option (Nat × CoalEntry) :=
  s.faults.ent.findSome? (fun x =>
    match x.2 with
    | some e => if e.st = .open_ ∧ e.suspect = suspect ∧ e.cls = cls then some (x.1, e) else none
    | none => none)

/-- R508: an entry closes; its record is due. Marks: DEDUCED (log entry 54). -/
def closeEntry (s : State) (i : Nat) (e : CoalEntry) : State :=
  let t := setCoal s i (some { e with st := .closed })
  { t with faults := { t.faults with closing := t.faults.closing ++ [({ e with st := .closed }, i)] } }

/-- R509: the entry that a new key takes: a FREE one, or the CLOSED one with the oldest LAST whose record is written. -/
def freeEntry (s : State) : Option Nat :=
  match (List.range 1024).find? (fun i => (coalEntry s i).isNone) with
  | some i => some i
  | none =>
    leastBy (fun i => match coalEntry s i with | some e => e.last * 1024 + i | none => 0)
      ((List.range 1024).filter (fun i =>
        match coalEntry s i with
        | some e => e.st == .closed && e.written
        | none => false))

/-- R507: an entry opens. Marks: DEDUCED (log entry 54). -/
def openEntry (s : State) (i suspect cls : Nat) (r : Report) : State :=
  let e : CoalEntry :=
    { suspect := suspect, cls := cls, st := .open_, first := r.at_, last := r.at_, count := 1, reporter := r.reporter,
      detail := r.detail, inj := r.inj, pos := r.pos, ptpSec := r.ptpSec, ptpNs := r.ptpNs }
  let t := (setCoal s i (some e)).bump (aFltCnt 2)
  if bit (t.pair (aFlt 0x044)) cls then t.raise pFlt 0 else t

/-- R507: a report within the window of its key's entry. -/
def extendEntry (s : State) (i : Nat) (e : CoalEntry) (r : Report) : State :=
  setCoal s i (some { e with last := max e.last r.at_, count := min 0xFFFFFFFF (e.count + 1), inj := e.inj || r.inj })

/-- R508: the window of an entry has passed, and 2 us more. -/
def windowOver (s : State) (i : Nat) : State :=
  match coalEntry s i with
  | some e => if e.st = .open_ ∧ e.first + fltWindow s + 2000 < s.cclk then closeEntry s i e else s
  | none => s

/-- WINDOW_CLOSE. -/
def execWindowClose (i : Nat) (s : State) : Result := ifWf (decide (i ≤ 1024)) (windowOver s i)

/-! ### Records (R510) -/

/-- F of the next record: F_0 before the first. -/
def fltChain (s : State) : BitVec 256 :=
  if s.faults.records.isEmpty then
    Config.sha256 ([0x46, 0x4C, 0x54, 0x52].map b8 ++ s.uid ++ leBytes 4 s.nvm.bootCount)
  else s.faults.chain

/-- Table 16-7. -/
def recordBytes (s : State) (e : CoalEntry) : List Byte :=
  let f := b2n e.inj + 2 * b2n s.faults.lostMark + 4 * b2n (decide (0xFFFFFFFF ≤ e.count))
  leBytes 4 (s.reg (aFlt 0x080)).toNat ++ leBytes 4 (e.pos.toNat / 2 ^ 32) ++ leBytes 4 e.pos.toNat
  ++ leBytes 6 e.ptpSec ++ leBytes 4 e.ptpNs ++ leBytes 2 f ++ leBytes 4 (min 0xFFFFFFFF (e.last - e.first))
  ++ leBytes 4 e.count ++ leBytes 3 e.suspect ++ [b8 e.cls] ++ leBytes 3 e.reporter ++ [0]
  ++ (e.detail ++ List.replicate 16 0).take 16 ++ leBytes 4 0 ++ (bytes256 (fltChain s)).take 4

/-- R508, R510: the oldest closed entry's record is written. Marks: DEDUCED (log entry 54). -/
def writeRecord (s : State) : State :=
  match s.faults.closing with
  | [] => s
  | (e, i) :: rest =>
    let seq := (s.reg (aFlt 0x080)).toNat
    let r := recordBytes s e
    let t := { s with faults := { s.faults with
      closing := rest
      lostMark := false
      chain := Config.sha256 (bytes256 (fltChain s) ++ r)
      records := Tab.put s.faults.records (seq % 512) r } }
    let t := if coalEntry t i = some e then setCoal t i (some { e with written := true }) else t
    ((t.setReg (aFlt 0x080) (w32 (seq + 1))).bump (aFltCnt 3)).raise pFlt 1

/-- FAULT_RECORD_WRITE. -/
def execFaultRecordWrite (s : State) : Result := .next (writeRecord s)

/-! ### Reports taken (R507, R509) -/

/-- R508: a report of its key closes an entry: its record is written, with those that wait before it, before anything is
recorded for the new window. Marks: DEDUCED (log entry 54). -/
def closeByReport (s : State) (i : Nat) (e : CoalEntry) : State :=
  let t := closeEntry s i e
  t.faults.closing.foldl (fun u _ => writeRecord u) t

/-- The OVERFLOW key coalesces like any other and raises OVERFLOW (R509). Marks: DEDUCED (log entry 54). -/
def overflowReport (s : State) (r : Report) : State :=
  let t := (s.bump (aFltCnt 4)).raise pFlt 2
  match openOf t 0 0x3F with
  | some (i, e) =>
    if r.at_ < e.first + fltWindow t then extendEntry t i e r
    else
      let u := closeByReport t i e
      openEntry u ((freeEntry u).getD 1024) 0 0x3F r
  | none => openEntry t ((freeEntry t).getD 1024) 0 0x3F r

/-- R507, R509: a key without an entry in whose window the report falls. -/
def newWindow (s : State) (suspect cls : Nat) (r : Report) : State :=
  match freeEntry s with
  | some i => openEntry s i suspect cls r
  | none => overflowReport s r

/-- R504, R507: the coalescer takes a report. Marks: DEDUCED (log entry 54). -/
def takeReport (s : State) : State :=
  match s.faults.fifo with
  | [] => s
  | r :: rest =>
    let t := { s with faults := { s.faults with fifo := rest } }.bump (aFltCnt 0)
    let su := suspectOf t r
    match openOf t su r.cls with
    | some (i, e) =>
      if r.at_ < e.first + fltWindow t then extendEntry t i e r else newWindow (closeByReport t i e) su r.cls r
    | none => newWindow t su r.cls r

/-- COALESCE. -/
def execCoalesce (s : State) : Result := .next (takeReport s)

/-! ### Injection (R515 to R517) -/

/-- BAR0 offset of a MEM register. -/
def aMem (off : Nat) : Nat := regAddr pMem off

/-- BAR0 offset of an LSP register. -/
def aLsp (off : Nat) : Nat := regAddr pLsp off

/-- An accepted write of a register without an effect of its own: the value, logged (R75). -/
def plainWrite (s : State) (w : Who) (a : Nat) (val : Word) : State :=
  let new := newVal s a val
  logReg (s.setReg a new) (originOf w.m) a (s.reg a) new false

/-- R515: an accepted write of `MEM_INJ`. Marks: DESIGN CHOICE (log entry 61). -/
def memInjTaken (s : State) (w : Who) (val : Word) : State :=
  let t := plainWrite s w (aMem 0x050) val
  if bit val.toNat 31 then
    { t with faults := { t.faults with
      marks := t.faults.marks ++ [{ region := fld val 0 4, index := fld val 4 12, addr := (t.reg (aMem 0x054)).toNat,
                                    double := bit val.toNat 16 }] } }
  else t

/-- MEM_INJ_ARM. -/
def execMemInjArm (w : Who) (val : Word) (s : State) : Result :=
  ifWf (bit val.toNat 31) (s.write w (aMem 0x050) val (memInjTaken s w val))

/-- R516: an accepted write of `LSP_INJ`. -/
def lspInjTaken (s : State) (w : Who) (val : Word) : State :=
  let t := plainWrite s w (aLsp 0x04C) val
  let mp1 := bit val.toNat 0
  if bit val.toNat 31 && fld val 1 2 != 0 then
    t.setPairSt mp1 { t.pairSt mp1 with inj := some (fld val 1 2, fld val 4 4) }
  else t

/-- A write of `LSP_INJ` with ARM and a KIND. -/
def lspInj (kind : Nat) (w : Who) (val : Word) (s : State) : Result :=
  ifWf (bit val.toNat 31 && fld val 1 2 == kind) (s.write w (aLsp 0x04C) val (lspInjTaken s w val))

/-- LSP_INJ_ONCE. -/
def execLspInjOnce (w : Who) (val : Word) (s : State) : Result := lspInj 1 w val s

/-- LSP_INJ_ASYNC. -/
def execLspInjAsync (w : Who) (val : Word) (s : State) : Result := lspInj 2 w val s

/-- LSP_INJ_PERSIST. -/
def execLspInjPersist (w : Who) (val : Word) (s : State) : Result := lspInj 3 w val s

/-- R517, R519: an accepted write of `FLT_INJ`. -/
def fltInjTaken (s : State) (w : Who) (val : Word) : State :=
  let t := logReg s (originOf w.m) (aFlt 0x100) 0 val false
  if bit val.toNat 31 then (t.bump (aFltCnt 6)).report (fld val 20 6) (fld val 0 20) [] true else t

/-- FLT_INJ_GO. -/
def execFltInjGo (w : Who) (val : Word) (s : State) : Result :=
  ifWf (bit val.toNat 31) (s.write w (aFlt 0x100) val (fltInjTaken s w val))

/-! ### Scrubbers (R493) -/

/-- R497: every scrubber runs once the unit has left CONFIGURE. -/
def scrubOn (s : State) (r : Nat) : Bool :=
  match s.mode with
  | .boot => false
  | .sleepRetain => false
  | .sleepDeep => false
  | .configure => s.bitAt (aMem 0x040) r
  | .service => s.bitAt (aMem 0x040) r
  | _ => true

/-- The mark of the second copy of the same word is armed too. -/
def siblingBad (s : State) (m : InjMark) (i : Nat) : Bool :=
  s.faults.marks.any (fun x => x.region == m.region && x.index == i && x.addr == m.addr && x.double)

/-- R211, R212, R365 for the table region: index 0 or 1 is the copy. Whether the word is one of GWE's tables is open. -/
def scrubTables (s : State) (m : InjMark) : State :=
  let gwe := Config.freeBool s.free
  let s := s.tick1
  if siblingBad s m (1 - m.index) then
    let t := memRepeated s 1 false
    if gwe then (((gweLoseAny t).bump (aGweCnt 19)).raise (pGwe 0) 3).report 0x09 (unitId 6 0x300) (memDetail m) true
    else
      (((loseEntry (t.bump (aPlCnt m.index 7))).raise (pPl m.index) 1).raise pTue 4).report 0x03 (memUnit 1 m.index)
        (memDetail m) true
  else
    let t := memRepeated s 1 true
    if gwe then t
    else
      let t := (t.bump (aPlCnt m.index 6)).setReg (regAddr (pPl m.index) 0x044) (w32 (Config.freeNat t.free % 2 ^ 29))
      (t.tick1.raise (pPl m.index) 0).report 0x02 (memUnit 1 m.index) (memDetail m) true

/-- A flow that the unit has lost: which one is free. The twin is told at the next sync point (R234). -/
def loseFlow (s : State) : State :=
  let l := s.tables.ent.filter (fun x => x.1 / 2 ^ 20 == tFLOW)
  match l[Config.freeNat s.free % l.length]? with
  | some x => (setFlow s (x.1 % 2 ^ 20) (entZero (entKey tFLOW 0))).tick1
  | none => s.tick1

/-- R235: a flow word, whose entry is open. -/
def scrubFlows (s : State) (m : InjMark) : State :=
  if siblingBad s m (1 - m.index) then flowParity (loseFlow s) m false else flowParity s m true

/-- What a word of the message RAM can belong to (Table 10-2). -/
inductive RamItem where
  | buf (n b : Nat) (p : CanPend)
  | pend (n : Nat) (p : CanPend)
  | rx (n q : Nat) (e : CanRx)
  | auth (i : Nat)
  | lin (n : Nat)
deriving DecidableEq, Repr

/-- Messages that a CAN channel holds in the message RAM. -/
def chanItems (c : CanChan) (n : Nat) : List RamItem :=
  [0, 1, 2].filterMap (fun b => (getBuf c b).map (fun x => .buf n b x.p)) ++ c.pend.map (.pend n)
    ++ c.rxq0.map (.rx n 0) ++ c.rxq1.map (.rx n 1)

/-- Everything that the message RAM holds. -/
def ramItems (s : State) : List RamItem :=
  (List.range 24).flatMap (fun n => chanItems (s.can n) n)
    ++ (s.buses.auth.filter (fun x => x.2.valid)).map (fun x => .auth x.1) ++ (List.range 8).map .lin

/-- R339: what holds a word that failed twice is discarded, or invalid. -/
def loseItem (s : State) (m : InjMark) : RamItem → State
  | .buf n b p => parityLoss s n b p m
  | .pend n p =>
    let c := s.can n
    txEvent (((memLost s m false).setCan n { c with pend := c.pend.erase p }).bump (aCanCnt n 18)) n p 5 false
  | .rx n q e => rxLoss s n q e m
  | .auth i => authLoss s i m
  | .lin n => (memLost s m false).bump (aLinCnt n 8)

/-- R339: a word of the message RAM; what it belongs to, or to nothing, is open. -/
def scrubBuses (s : State) (m : InjMark) : State :=
  let l := ramItems s
  match l[Config.freeNat s.free % (l.length + 1)]? with
  | some x => loseItem s.tick1 m x
  | none => memLost s.tick1 m false

/-- R235: the blocked bit of a filter, a gate or a meter, as `k` says, reads as blocked. -/
def blockedLost (s : State) (k : Nat) : State :=
  let p := s.policing
  let i := k / 3
  if k % 3 = 0 then { s with policing := { p with filtBlk := Tab.set (fun _ => false) p.filtBlk (i % 16384) true } }
  else if k % 3 = 1 then { s with policing := { p with gateBlk := Tab.set (fun _ => false) p.gateBlk (i % 1024) true } }
  else s.setMeterSt (i % 4096) { s.meterSt (i % 4096) with blocked := true }

/-- Table 1-10: a counter whose word is lost saturates. The spec gives the flag beside it no place.
Marks: DESIGN CHOICE (log entry 61). -/
def counterLost (s : State) (a : Nat) : State :=
  match regDef a, regDef (a + 4) with
  | some d, some e =>
    if d.ty == .ro && e.ty == .ro && decide (0x100 ≤ a % 0x1000) && decide (a % 8 = 0) then s.setPair a (2 ^ 64 - 1) else s
  | _, _ => s

/-- R213, R235, R304, R384 and Table 1-10: a word of the miscellaneous region; which engine's it is stands open. -/
def scrubMisc (s : State) (m : InjMark) : State :=
  let k := Config.freeNat (s.free + 1)
  let p := k % 52
  let i := k / 52
  let t := s.tick1.tick1
  match Config.freeNat s.free % 8 with
  | 0 => loseLevel t p (i % 9) m
  | 1 => loseLevel t p (9 + i % 8) m
  | 2 => loseLevel t p (17 + i % 8) m
  | 3 =>
    let j := k % 4096
    sfpLost (t.setMeterSt j { t.meterSt j with level := meterCbs (t.entAt t.epoch tMETER j) }) m
  | 4 => sfpLost (blockedLost t k) m
  | 5 => servoLost (memRepeated t 9 true) (k % 2) m
  | 6 => seqLost t (k % 2) (if i % 2 = 0 then tSEQGEN else tSEQREC) (i / 2 % 2048) m
  | _ => counterLost (memLost t m true) (k / 8 * 8 % 0x140000)

/-- Table 16-2: a Silt entry is marked DAMAGED; which one the word belongs to is open. -/
def scrubSilt (s : State) (m : InjMark) : State :=
  let l := s.silt.entries
  match l[Config.freeNat s.free % l.length]? with
  | some (k, e) =>
    { (memLost s.tick1 m false) with silt := { s.silt with entries := Tab.put l k { e with damaged := true } } }
  | none => memLost s.tick1 m false

/-- Table 16-2, region 0: a stored half is marked so that its copies meet R263; a free one is retired (R496). Which it
is stands open. -/
def scrubBuffer (s : State) (m : InjMark) : State :=
  if Config.freeBool s.free then { s.tick1 with faults := { s.faults with marks := s.faults.marks ++ [m] } }
  else retireHalf (memLost s.tick1 m false) (m.index % 32)

end Sys2Proof.Machine
end

