-- ==== Sys2Proof/Machine/Flags.lean ====
section
/-!
DEFINITION. The block has no arithmetic flags. What stands in their place are the interrupt flags of a page:
IRQ_RAW, IRQ_PEND and the summaries of them (R587, spec/19_register_index.md Table 19-2).
-/
namespace Sys2Proof.Machine
open Sys2Proof

/-- `IRQ_RAW` of a page. -/
def irqRaw (s : State) (p : Nat) : Word := s.reg (regAddr p 0x10)

/-- `IRQ_EN` of a page. -/
def irqEn (s : State) (p : Nat) : Word := s.reg (regAddr p 0x14)

/-- `IRQ_PEND` of a page: the raw bits that are enabled. -/
def irqPend (s : State) (p : Nat) : Word := irqRaw s p &&& irqEn s p

end Sys2Proof.Machine
end

