-- ==== Sys2Proof/Machine/UpdOps.lean ====
section
/-!
DEFINITION. Images, flash, code and Topsoil slots (spec/18: R537 to R550, R560): what the session commands, the start
and the trial share.
-/
namespace Sys2Proof.Machine
open Sys2Proof

/-- BAR0 offset of a UPD register. -/
def aUpd (off : Nat) : Nat := regAddr pUpd off

/-- BAR0 offset of counter `k` of Table 18-14. -/
def aUpdCnt (k : Nat) : Nat := aUpd (0x200 + 8 * k)

/-- BAR0 offset of a register of downstream entry `d`. -/
def aDs (d off : Nat) : Nat := aUpd (0x0C0 + 0x20 * d + off)

/-! ### Flash (R537) -/

/-- Page `p` of 256 bytes of the flash. -/
def flashPage (n : Nvm) (p : Nat) : List Byte :=
  Tab.get (fun i => if n.wiped.contains (i / 256) then List.replicate 256 0xFF else Config.factoryFlash i) n.flash p

/-- `len` bytes of the flash from address `a`. Marks: DESIGN CHOICE (log entry 64). -/
def flashBytes (n : Nvm) (a len : Nat) : List Byte :=
  let first := a / 256
  let pages := (List.range (ceilDiv (a % 256 + len) 256)).flatMap (fun i => slice (flashPage n (first + i)) 0 256)
  (pages.drop (a % 256)).take len

/-- A 64 KiB sector is erased. -/
def eraseSector (n : Nvm) (k : Nat) : Nvm :=
  { n with wiped := if n.wiped.contains k then n.wiped else k :: n.wiped
           flash := n.flash.filter (fun x => x.1 / 256 != k) }

/-- Bytes are programmed from a page boundary on; the rest of the last page keeps its bytes. -/
def programFlash : Nat → Nat → List Byte → Nvm → Nvm
  | 0, _, _, n => n
  | k + 1, p, bs, n =>
    if bs.isEmpty then n
    else programFlash k (p + 1) (bs.drop 256)
      { n with flash := Tab.put n.flash p (putBytes (slice (flashPage n p) 0 256) 0 (bs.take 256)) }

/-- First address of the area of a target and slot (Table 18-1). -/
def areaBase (t : UpdTarget) (slot : Nat) : Nat :=
  match t with
  | .code => slot * 0x01000000
  | .config => 0x02000000 + slot * 0x00200000
  | .relay => 0x02800000

/-- Size of a target's area; an image of the target is at most as long. -/
def areaSize : UpdTarget → Nat
  | .config => 0x200000
  | .code => 0x1000000
  | .relay => 0x1000000

/-! ### Headers (R538 to R540) -/

/-- One entry of a component table: TYPE, OFFSET, LENGTH, CVER, HASH, and whether its reserved bytes are 0. -/
structure Comp where
  ty : Nat
  off : Nat
  len : Nat
  cver : Nat
  hash : List Byte
  clean : Bool
deriving DecidableEq, Repr

/-- Entry `k` of the component table of an image's first bytes. -/
def compAt (h : List Byte) (k : Nat) : Comp :=
  let o := 512 + 64 * k
  { ty := byteAt h o, off := beAt h (o + 4) 4, len := beAt h (o + 8) 4, cver := beAt h (o + 12) 4,
    hash := slice h (o + 16) 48, clean := beAt h (o + 1) 3 == 0 }

/-- NCOMP. -/
def hdrComps (h : List Byte) : Nat := byteAt h 7
/-- VERSION, or TSFMT. -/
def hdrVersion (h : List Byte) : Nat := beAt h 8 4
/-- FAMILY. -/
def hdrFamily (h : List Byte) : Nat := beAt h 12 4
/-- BUILD. -/
def hdrBuild (h : List Byte) : Nat := beAt h 16 4
/-- IMG_LEN. -/
def hdrLen (h : List Byte) : Nat := beAt h 20 4

/-- The components in use. -/
def comps (h : List Byte) : List Comp := (List.range (hdrComps h)).map (compAt h)

/-- R538: components do not overlap. -/
def disjoint : List Comp → Bool
  | [] => true
  | c :: rest => rest.all (fun d => decide (c.off + c.len ≤ d.off ∨ d.off + d.len ≤ c.off)) && disjoint rest

/-- R539: the types that an image of a target holds. -/
def typesOk (t : UpdTarget) (h : List Byte) : Bool :=
  let l := (comps h).map (fun c => c.ty)
  match t with
  | .code => l.length == 7 && [1, 2, 3, 4, 5, 6, 7].all (fun x => l.contains x)
  | .config => l.count 0x20 == 1 && decide (l.count 0x21 ≤ 1) && l.all (fun x => x == 0x20 || x == 0x21)
  | .relay => hdrFamily h != 0x4800

/-- CLASS for a target, and the range of VERSION. Marks: DEDUCED (log entry 59). -/
def classOk (t : UpdTarget) (h : List Byte) : Bool :=
  match t with
  | .config => (byteAt h 6 == 2 || byteAt h 6 == 3) && decide (1 ≤ hdrVersion h ∧ hdrVersion h ≤ 65535)
  | .code => byteAt h 6 == 1 && decide (hdrVersion h ≤ 64)
  | .relay => byteAt h 6 == 1

/-- Table 18-5, order 1. Marks: DEDUCED (log entry 57). -/
def headerForm (t : UpdTarget) (h : List Byte) : Bool :=
  beAt h 0 4 == 0x48584231 && beAt h 4 2 == 1 && classOk t h
  && decide (1 ≤ hdrComps h ∧ hdrComps h ≤ 16) && decide (hdrLen h ≤ areaSize t)
  && beAt h 24 8 == 0 && beAt h 176 240 == 0
  && (comps h).all (fun c => c.ty != 0 && c.clean && c.off % 4096 == 0 && decide (4096 ≤ c.off ∧ 1 ≤ c.len)
       && decide (c.off + c.len ≤ hdrLen h))
  && (List.range 16).all (fun k => decide (k < hdrComps h) || byteAt h (512 + 64 * k) == 0)
  && disjoint (comps h) && typesOk t h

/-- `LC_SECVER`. -/
def secVer (s : State) : Nat := (setBitsOf 64 (beNat (otpBytes s 0x40 8))).length

/-- OEM_CFG_HASH. -/
def oemHash (s : State) : List Byte := otpBytes s 0x88 32

/-- SHA-256 as bytes. -/
def sha256b (bs : List Byte) : List Byte := bytes256 (Config.sha256 bs)

/-- SHA-384 as bytes. -/
def sha384b (bs : List Byte) : List Byte := beBytes 48 (Config.sha384 bs).toNat

/-- Table 18-5, order 3. -/
def headerKey (s : State) (t : UpdTarget) (h : List Byte) : Bool :=
  let key := slice h 32 96
  if t = .config then
    if byteAt h 6 = 2 then beNat (oemHash s) != 0 && sha256b key == oemHash s
    else slice key 0 64 == s.keys.dikX ++ s.keys.dikY && beAt key 64 32 == 0
  else sha384b key == otpBytes s 0x10 48

/-- Table 18-5, order 4. -/
def headerSig (t : UpdTarget) (h : List Byte) : Bool :=
  let body := slice h 0 416
  if t = .config ∧ byteAt h 6 = 3 then
    Config.ecdsaVerify false (slice h 32 64) (sha256b body) (slice h 416 64) && beAt h 480 32 == 0
  else Config.ecdsaVerify true (slice h 32 96) (sha384b body) (slice h 416 96)

/-- R540: the first check that fails: status and order number. `dest` is that of a session, for a relay. -/
def headerCheck (s : State) (t : UpdTarget) (dest : Nat) (h : List Byte) : Option (Nat × Nat) :=
  let fam := if t = .relay then decide (hdrFamily h % 2 ^ 16 = s.fld (aDs (dest - 2) 0) 16 16) else decide (hdrFamily h = 0x4800)
  if !headerForm t h then some (0x04, 1)
  else if !fam then some (0x07, 2)
  else if !headerKey s t h then some (0x05, 3)
  else if !headerSig t h then some (0x06, 4)
  else if t = .code ∧ hdrVersion h < secVer s then some (0x08, 5)
  else if slice h 128 48 != sha384b (slice h 512 1024) then some (0x09, 6)
  else none

/-- R545: the first component whose SHA-384 is wrong. -/
def badComp (s : State) (t : UpdTarget) (slot : Nat) : Option Nat :=
  let b := areaBase t slot
  let h := flashBytes s.nvm b 1536
  (List.range (hdrComps h)).find? (fun k =>
    let c := compAt h k
    sha384b (flashBytes s.nvm (b + c.off) c.len) != c.hash)

/-! ### Slots (Table 18-8) -/

/-- A code slot. -/
def codeSlot (s : State) (k : Nat) : CodeSlot := if k = 0 then s.nvm.slotA else s.nvm.slotB

/-- The state with a code slot changed. -/
def setCodeSlot (s : State) (k : Nat) (c : CodeSlot) : State :=
  if k = 0 then { s with nvm := { s.nvm with slotA := c } } else { s with nvm := { s.nvm with slotB := c } }

/-- A code slot with another state. -/
def markSlot (s : State) (k : Nat) (st : SlotSt) : State := setCodeSlot s k { codeSlot s k with st := st }

/-- The code slot in a state. -/
def slotIn (s : State) (st : SlotSt) : Option Nat := [0, 1].find? (fun k => (codeSlot s k).st == st)

/-- A Topsoil slot's state. -/
def tsSlot (s : State) (k : Nat) : TsSt := if k = 0 then s.nvm.tsA else s.nvm.tsB

/-- The state with a Topsoil slot's state changed. -/
def markTs (s : State) (k : Nat) (st : TsSt) : State :=
  if k = 0 then { s with nvm := { s.nvm with tsA := st } } else { s with nvm := { s.nvm with tsB := st } }

/-- R545: the slot that a session writes: the code slot that is not CONFIRMED, the Topsoil slot that is not in use.
Marks: DEDUCED (log entry 57). -/
def targetSlot (s : State) (t : UpdTarget) : Nat :=
  match t with
  | .code => if (codeSlot s 0).st = .confirmed then 1 else 0
  | .config => if s.nvm.tsUse = 0 then 1 else 0
  | .relay => 0

/-- The unit is in TRIAL. -/
def inTrial (s : State) : Bool := (slotIn s .trial).isSome

/-- R560: a Silt entry of kind UPD. -/
def siltUpd (s : State) (origin sub slot dest old new : Nat) : State :=
  s.silt_ (w32 old) (w32 new) origin 8 sub (slot % 4 + dest * 4)

/-! ### Trial (R548 to R550) -/

/-- R548: the unit is healthy. The READY signals of Table 17-8 are set once the start has ended. -/
def healthNow (s : State) : Bool :=
  inTrial s && pairOk s false && pairOk s true && !s.faults.pair0.agreed && !s.faults.pair1.agreed &&
  (((s.twin.role == .active || s.twin.role == .standby) && s.twin.sync == .synced) ||
    (s.bitAt (aUpd 0x040) 17 && s.mode == .degraded))

/-- R548: HEALTH has been 1 without a break since it was first reached. -/
def healthStep (s : State) : State :=
  let h := healthNow s
  if h && !s.upd.healthy then { s with upd := { s.upd with healthy := true } }
  else if !h && s.upd.healthy && inTrial s then { s with upd := { s.upd with broke := true } }
  else s

/-- R550: program SECVER bits, lowest first, until `n` are set. -/
def burnTo (s : State) (n : Nat) : State :=
  (List.range n).foldl (fun (t : State) i =>
    if secVer t < n ∧ !bit (otpByte t.nvm (0x40 + i / 8)).toNat (i % 8) then otpProgram t (0x40 + i / 8) (b8 (2 ^ (i % 8)))
    else t) s

/-- R550: SECVER is burned to the confirmed VERSION, and an older BACKUP is RETIRED. Marks: DESIGN CHOICE (log entry 48). -/
def secverBurn (s : State) (k : Nat) : State :=
  let v := (codeSlot s k).version
  let old := secVer s
  let t := if old < v then
      let u := burnTo s v
      siltUpd u 3 8 k 0 old (secVer u)
    else s
  let o := 1 - k
  if (codeSlot t o).st = .backup ∧ (codeSlot t o).version < secVer t then markSlot t o .retired else t

/-- R548: a trial is confirmed. -/
def confirmTrial (s : State) (k : Nat) : State :=
  let o := 1 - k
  let old := (codeSlot s o).build
  let t := if (codeSlot s o).st = .confirmed then markSlot s o .backup else s
  let t := markSlot t k .confirmed
  let t := { t with nvm := { t.nvm with trial := none, lastDecision := 1 } }
  let t := siltUpd ((t.bump (aUpdCnt 4)).raise pUpd 1) 3 6 k 0 old (codeSlot t k).build
  if t.bitAt (aUpd 0x040) 16 then secverBurn t k else t

/-- R549: the boot record of a trial that reverts; a reset follows. -/
def revertTrial (s : State) (k decision : Nat) : State :=
  let t := markSlot s k .ready
  let t := { t with nvm := { t.nvm with trial := none, lastDecision := decision } }
  siltUpd ((t.bump (aUpdCnt 5)).raise pUpd 2) 3 7 k 0 (codeSlot t k).build decision

/-! ### Sessions (R541 to R545) -/

/-- Bytes of a UPD completion (Table 18-7). -/
def updCompletion (d : UpdDesc) (status done detail : Nat) (wrap : Bool) : List Byte :=
  leBytes 2 d.tag ++ [b8 status, b8 (128 * b2n wrap)] ++ leBytes 4 d.offset ++ leBytes 4 done ++ leBytes 4 detail

/-- Record a STATUS of the last completion. -/
def updLast (s : State) (status : Nat) : State := s.setFld (aUpd 0x044) 16 8 status

/-- A descriptor completes on the UPD ring. -/
def updComplete (s : State) (d : UpdDesc) (status done detail : Nat) : State :=
  let s := if d.op = 1 ∧ status = 0 then s.bump (aUpdCnt 1) else if d.op = 2 ∧ status ≠ 0 then s.bump (aUpdCnt 2) else s
  updLast (ringComplete s .upd d.int (updCompletion d status done detail)) status

/-- The answer to a descriptor: a completion, or on a standby that serves its twin a RELAY record (R556). -/
def updAnswer (s : State) (u : Session) (d : UpdDesc) (status done detail : Nat) : State :=
  if u.relayed then slSend (updLast s status) 0x60 true (.relayAns d.tag status done detail)
  else updComplete s d status done detail

/-- R545: a slot that a session leaves before a successful FINISH reads EMPTY. -/
def leaveSlot (s : State) (u : Session) : State :=
  match u.target with
  | .code => if (codeSlot s u.slot).st = .loading then setCodeSlot s u.slot {} else s
  | .config => if u.erased.isEmpty ∨ u.dest ≠ 0 then s else markTs s u.slot .empty
  | .relay => s

/-- The session ends. What the flash device still works on goes on. Marks: DEDUCED (log entry 57). -/
def closeSession (s : State) (u : Session) : State :=
  let tail := match u.flight with
    | (d, bs) :: _ => if u.dest = 0 ∧ d.op = 1 then some (d, bs, areaBase u.target u.slot + d.offset) else none
    | [] => none
  { (leaveSlot s u) with upd := { s.upd with session := none, relay := none, tail := tail.orElse (fun _ => s.upd.tail) } }

/-- R541: the session ends by ABORT or R49: descriptors that have not started complete with ABORTED. -/
def abortSession (s : State) (u : Session) : State :=
  let started := if u.dest = 0 then u.flight.take 1 else []
  let rest := u.flight.drop started.length
  let t := rest.foldl (fun (v : State) x => updAnswer v u x.1 0x0D 0 0) s
  closeSession t { u with flight := started }

/-- R556: the pieces of a descriptor, the last with END. -/
def relayPieces (s : State) (t : UpdTarget) (d : UpdDesc) (bs : List Byte) : State :=
  let n := max 1 (ceilDiv bs.length 2016)
  (List.range n).foldl (fun (u : State) i => slSend u 0x60 (decide (i + 1 = n)) (.relay t d (slice bs (2016 * i) 2016))) s

/-- R556: the standby's session ends with the active's: an ABORT tells it, for which the spec names no record of its own.
Marks: DESIGN CHOICE (log entry 80). -/
def tellClose (s : State) (u : Session) : State := if u.dest = 1 then relayPieces s u.target { op := 3 } [] else s

/-- R49: the owner's host port goes down. -/
def updOwnerGone (s : State) (m : Master) : State :=
  match s.upd.session with
  | some u => if u.owner = m ∧ !u.relayed then abortSession (tellClose s u) u else s
  | none => s

/-- R556: the Shell Link leaves UP: a session with DEST = 1 ends on both units. -/
def updLinkGone (s : State) : State :=
  match s.upd.session with
  | some u =>
    if u.relayed then closeSession s { u with flight := [] }
    else if u.dest = 1 then
      closeSession (u.flight.foldl (fun (v : State) x => updAnswer v u x.1 0x0E 0 0) s) { u with flight := [] }
    else s
  | none => s

/-- R541: whether a session can be opened, as the result in `UPD_SESS_STAT`. `boot` is a unit without a bootable slot
(R551). Marks: DEDUCED (log entry 59). -/
def openResult (s : State) (t : UpdTarget) (dest : Nat) : Nat :=
  if s.upd.session.isSome then 1
  else if t = .code ∧ inTrial s then 2
  else if (dest = 1 ∧ !slUp s) ∨ 5 < dest ∨ (2 ≤ dest ∧ (t ≠ .relay ∨ !s.bitAt (aDs (dest - 2) 0) 0)) ∨ (t = .relay ∧ dest < 2)
    then 3
  else if s.mode = .quarantine ∨ asleep s.mode ∨ (s.mode = .boot ∧ (t ≠ .code ∨ dest ≠ 0 ∨ s.power.bootErr ≠ 1)) then 4
  else 0

/-- The target of a TARGET field. -/
def targetOf : Nat → UpdTarget
  | 1 => .code
  | 2 => .config
  | _ => .relay

/-- R541: an accepted write of OPEN. -/
def openSession (s : State) (w : Who) (val : Word) : State :=
  let t := targetOf (fld val 2 2)
  let dest := fld val 4 4
  let r := openResult s t dest
  let u := s.setReg (aUpd 0x064) (w32 r)
  if r = 0 then
    { u with upd := { u.upd with
        session := some { owner := w.m, target := t, dest := dest, slot := targetSlot s t }
        host := if w.m = .hb then .b else .a } }
  else u

/-! ### WRITE and FINISH -/

/-- R542 to R544: what a WRITE's fields alone decide: 0 when it goes on. Marks: DEDUCED (log entry 57). -/
def writeForm (u : Session) (d : UpdDesc) : Nat :=
  let limit := match u.imgLen with | some n => n | none => areaSize u.target
  if u.target ≠ .config ∧ u.imgLen.isNone ∧ (d.offset ≠ 0 ∨ d.len < 1536) then 0x02
  else if d.offset % 256 ≠ 0 ∨ d.len < 256 ∨ 65536 < d.len ∨ limit < d.offset + d.len then 0x03
  else if d.len % 256 ≠ 0 ∧ d.offset + d.len ≠ limit then 0x03
  else 0

/-- R542: the first block of a CODE or RELAY session: status, DETAIL and IMG_LEN. -/
def firstBlock (s : State) (u : Session) (bs : List Byte) : Nat × Nat × Option Nat :=
  match headerCheck s u.target u.dest (bs.take 1536) with
  | some (st, order) => (st, order, none)
  | none => if hdrLen bs < bs.length then (0x03, 0, none) else (0, 0, some (hdrLen bs))

/-- The state with the open session changed. -/
def setSession (s : State) (u : Session) : State := { s with upd := { s.upd with session := some u } }

/-- R544: the sectors that a block touches are erased, each once a session; the block goes to the flash device. -/
def startBlock (s : State) (u : Session) (d : UpdDesc) (bs : List Byte) : State :=
  let a := areaBase u.target u.slot + d.offset
  let ks := ((List.range (ceilDiv (a % 65536 + d.len) 65536)).map (fun i => a / 65536 + i)).filter (fun k => !u.erased.contains k)
  let t := { s with nvm := ks.foldl eraseSector s.nvm }
  let t := if u.target = .config then markTs t u.slot .empty else t
  setSession t { u with erased := u.erased ++ ks, flight := u.flight ++ [(d, bs)] }

/-- R542: a header has passed: the Silt entry, then LOADING. -/
def headerPassed (s : State) (u : Session) (d : UpdDesc) (bs : List Byte) (n : Nat) : State :=
  if siltFull s then updAnswer s.siltRefused u d 0x11 0 0
  else
    let old := if u.target = .code then (codeSlot s u.slot).build else 0
    let t := siltUpd s oUpdate 1 u.slot u.dest old (hdrBuild bs)
    let t := if u.target = .code then
        setCodeSlot t u.slot { st := .loading, version := hdrVersion bs, build := hdrBuild bs } else t
    startBlock t { u with imgLen := some n } d bs

/-- R542 to R544: a WRITE on the unit's own flash. -/
def runWrite (s : State) (u : Session) (d : UpdDesc) (bs : List Byte) (fault : Bool) : State :=
  match writeForm u d with
  | 0 =>
    if fault then updAnswer s u d 0x0C 0 0
    else if u.target ≠ .config ∧ u.imgLen.isNone then
      match firstBlock s u bs with
      | (0, _, some n) => headerPassed s u d bs n
      | (st, detail, _) => updAnswer (if st = 3 then s else s.bump (aUpdCnt 0)) u d st 0 detail
    else startBlock s u d bs
  | st => updAnswer s u d st 0 0

/-- Bytes that a block leaves in the flash when its programming fails: free values. Marks: DEDUCED (log entry 57). -/
def failedBlock (s : State) (n : Nat) : List Byte := leBytes n (Config.freeNat s.free)

/-- The flash device has ended a block: programmed, or not as read back. -/
def blockEnds (s : State) (a : Nat) (bs : List Byte) (ok : Bool) : State :=
  if ok then { s with nvm := programFlash 256 (a / 256) bs s.nvm }
  else { s.tick1 with nvm := programFlash 256 (a / 256) (failedBlock s bs.length) s.nvm }

/-- FINISH is answered and the session closes. -/
def finishWith (s : State) (u : Session) (d : UpdDesc) (st detail : Nat) : State :=
  closeSession (updAnswer s u d st 0 detail) { u with flight := [] }

/-- FINISH of a configuration image: it becomes a candidate. -/
def finishConfig (s : State) (u : Session) (d : UpdDesc) : State :=
  if siltFull s then finishWith s.siltRefused u d 0x11 0
  else
    let ts := beAt (flashBytes s.nvm (areaBase .config u.slot) 1536) 8 4
    closeSession (updAnswer (markTs (siltUpd s oUpdate 2 (2 + u.slot) u.dest ts ts) u.slot .candidate) u d 0 0 0)
      { u with flight := [], erased := [] }

/-- A code image whose components are whole: its slot is READY. Marks: DEDUCED (log entry 57). -/
def finishReady (s : State) (u : Session) (d : UpdDesc) : State :=
  if siltFull s then finishWith s.siltRefused u d 0x11 0
  else
    let b := (codeSlot s u.slot).build
    finishWith (siltUpd (markSlot s u.slot .ready) oUpdate 2 u.slot u.dest b b) u d 0 0

/-- FINISH of a code image. -/
def finishCode (s : State) (u : Session) (d : UpdDesc) : State :=
  (badComp s .code u.slot).elim (finishReady s u d) (finishWith (setCodeSlot s u.slot {}) u d 0x0A)

/-- FINISH of a relayed image before it is relayed. -/
def finishRelay (s : State) (u : Session) (d : UpdDesc) : State :=
  (badComp s .relay 0).elim s (finishWith s u d 0x0A)

/-- R545: FINISH of a session on the unit's own flash, but for what a relay goes on to do. -/
def runFinish (s : State) (u : Session) (d : UpdDesc) : State :=
  match u.target with
  | .config => finishConfig s u d
  | .code => finishCode s u d
  | .relay => finishRelay s u d

end Sys2Proof.Machine
end

