-- ==== Sys2Proof/Machine/RegWrite.lean ====
section
/-!
DEFINITION. Register writes: every register of the page map by its type (R5 to R9, R45, R53), and the registers whose
write is a command of its own. MP0 writes the registers of Topsoil (R533) and of a task (R487) through the same
`regWrite`.
-/
namespace Sys2Proof.Machine
open Sys2Proof

/-! ### By type (R5, R53) -/

/-- The pending value of an RWS register, or the value in effect: OLD of a SHADOW entry (Table 2-15). -/
def pendingVal (s : State) (a : Nat) : Word :=
  match s.shadowOf a with
  | some x => x.val
  | none => s.reg a

/-- R53: an accepted write of an RWS register. -/
def shadowWrite (s : State) (w : Who) (a : Nat) (val : Word) : State :=
  let new := newVal s a val
  logReg (s.putShadow { off := a, val := new, writer := w.m }) (originOf w.m) a (pendingVal s a) new true

/-- A W1C register: every bit written 1 is cleared. -/
def clearBits (s : State) (a : Nat) (val : Word) : State := s.setReg a (s.reg a &&& ~~~ (newVal s a val))

/-- An accepted write of a register without an effect of its own. -/
def typeWrite (s : State) (w : Who) (d : RegDef) (a : Nat) (val : Word) : State :=
  match d.ty with
  | .ro => s
  | .rw => plainWrite s w a val
  | .rws => shadowWrite s w a val
  | .w1c => clearBits s a val
  | .wo => s

/-! ### Common registers -/

/-- R45: CLR clears the captured refusal. -/
def errcapCleared (s : State) (p : Nat) (val : Word) : State :=
  if bit val.toNat 15 then (s.setReg (regAddr p 0x28) 0).setReg (regAddr p 0x2C) 0 else s

/-- R565: IRQ_CLR. A bit that an event of the same cycle sets stays set. -/
def irqCleared (s : State) (p : Nat) (val : Word) : State :=
  s.setReg (regAddr p 0x10) (s.reg (regAddr p 0x10) &&& ~~~ (val &&& ~~~ s.raisedNow p))

/-- R587: an IRQ_EN write that makes a raised bit pending sends the page's message. -/
def irqEnabled (s : State) (w : Who) (p : Nat) (val : Word) : State :=
  let a := regAddr p 0x14
  let t := plainWrite s w a val
  if s.reg (regAddr p 0x10) &&& val &&& ~~~ (s.reg a) ≠ 0 then t.pageMsg p else t

/-- R41: MP0's first write of `HIFx_CTRL` locks it. -/
def ctrlWritten (s : State) (w : Who) (p : Nat) (val : Word) : State :=
  let t := plainWrite s w (regAddr p 0x08) val
  if p = pHif .a 0 then { t with ctrlLockA := true } else if p = pHif .b 0 then { t with ctrlLockB := true } else t

/-- The registers of Table 19-2. -/
def commonWrite (s : State) (w : Who) (d : RegDef) (a : Nat) (val : Word) : State :=
  let p := a / 0x1000
  match a % 0x1000 with
  | 0x008 => ctrlWritten s w p val
  | 0x014 => irqEnabled s w p val
  | 0x01C => irqCleared s p val
  | 0x020 => setOwner s (originOf w.m) p (fld val 0 4)
  | 0x028 => errcapCleared s p val
  | _ => typeWrite s w d a val

/-! ### Registers with an effect of their own, by page -/

/-- `SYS_COMMIT` (R55, R59). -/
def sysWrite (s : State) (w : Who) (val : Word) : State :=
  if bit val.toNat 0 then goTaken s w (fld val 16 16)
  else if bit val.toNat 1 then discardTaken s w else s

/-- `SILT_CTRL` and the ACKs (R78). -/
def siltWrite (s : State) (w : Who) (a : Nat) (val : Word) : State :=
  siltFrees (if a = aSilt 0x040 then plainWrite s w a val else s.setReg a val)

/-- A register of a ring (R62, R70). -/
def ringRegWrite (s : State) (w : Who) (d : RegDef) (r : RingId) (o a : Nat) (val : Word) : State :=
  if o = 0x08 then ringCfgTaken s w r val
  else if o = 0x14 then s.setReg a (newVal s a val)
  else typeWrite s w d a val

/-- HIF page 3 (R73). -/
def mbxWrite (s : State) (h : HostPort) (a : Nat) (val : Word) : State :=
  if a % 0x1000 = 0x040 then (if bit val.toNat 0 then mbxDoor s h else s)
  else s.setReg a val

/-- The host port of a HIF page. -/
def hostOfB (b : Bool) : HostPort := if b then .b else .a

/-- A word that a selector's next value follows: INDEX of `lo` bits advances when AUTOINC (bit 31) is set.
Marks: DEDUCED (log entry 18). -/
def autoInc (s : State) (sel n : Nat) : State :=
  if s.bitAt sel 31 then s.setFld sel 0 n ((s.fld sel 0 n + 1) % 2 ^ n) else s

/-- `CAN_BW_DATA` (Table 10-6): the word at `CAN_BW_ADDR`. -/
def bwWrite (s : State) (w : Who) (n : Nat) (val : Word) : State :=
  let c := s.can n
  let i := s.fld (aCan n 0x0C0) 0 7
  let old := Tab.get (fun _ => (0 : Word)) c.bw i
  let t := s.setCan n { c with bw := Tab.set (fun _ => (0 : Word)) c.bw i val }
  autoInc (logReg t (originOf w.m) (aCan n 0x0C4) old val false) (aCan n 0x0C0) 7

/-- A CAN page (R319 to R326). -/
def canWrite (s : State) (w : Who) (d : RegDef) (n a : Nat) (val : Word) : State :=
  let o := a % 0x1000
  let c := s.can n
  if o = 0x060 then
    (if bit val.toNat 0 && c.errst == 2 then s.setCan n { c with recovering := true } else s)
  else if o = 0x064 then askCancel s n { all := bit val.toNat 16, tag := fld val 0 16 }
  else if o = 0x068 then (if bit val.toNat 0 then txsGo s n else s)
  else if 0x0A4 ≤ o ∧ o < 0x0B4 then
    s.setCan n { c with txh := Tab.set (fun _ => (0 : Word)) c.txh ((o - 0x0A4) / 4) val }
  else if o = 0x0C4 then bwWrite s w n val
  else if o = 0x0D4 then authSet s w val
  else if 0x800 ≤ o then s.setCan n { c with txd := Tab.set (fun _ => (0 : Word)) c.txd ((o - 0x800) / 4) val }
  else typeWrite s w d a val

/-- `LIN_SCH_DATA` (Table 10-13): the entry at `LIN_SCH_ADDR`. -/
def schWrite (s : State) (w : Who) (n : Nat) (val : Word) : State :=
  let c := s.lin n
  let i := s.fld (aLin n 0x050) 0 7
  let old := Tab.get (fun _ => (0 : Word)) c.sch i
  let t := s.setLin n { c with sch := Tab.set (fun _ => (0 : Word)) c.sch i val }
  autoInc (logReg t (originOf w.m) (aLin n 0x054) old val false) (aLin n 0x050) 7

/-- A LIN page. A write of DATA of a publish entry sets its UPD (Table 10-12). Marks: DEDUCED (log entry 18). -/
def linWrite (s : State) (w : Who) (d : RegDef) (n a : Nat) (val : Word) : State :=
  let o := a % 0x1000
  if o = 0x04C then
    (if bit val.toNat 0 then linAwakes ((s.emit (.linWake n)).bump (aLinCnt n 7)) n else s)
  else if o = 0x054 then schWrite s w n val
  else if 0x400 ≤ o ∧ (o % 0x10 = 4 ∨ o % 0x10 = 8) then
    let f := (o - 0x400) / 0x10
    let t := s.setReg a val
    if ftDir s n f = 1 then t.setBitAt (aFt n f) 3 true else t
  else typeWrite s w d a val

/-- Words that a write of `GWE_LVC_SEL` latches (Table 11-10). Marks: DEDUCED (log entry 18). -/
def lvcLatched (s : State) (h : Nat) : State :=
  let v := s.lvc h
  let m := v.msg
  let hdr := m.data.length % 2 ^ 12 + m.fmt % 4 * 2 ^ 12 + b2n (bit m.idw 30) * 2 ^ 14 + b2n v.valid * 2 ^ 15
  let t := (((s.setReg (regAddr (pGwe 2) 0x044) (w32 hdr)).setReg (regAddr (pGwe 2) 0x048) (w32 (m.idw % 2 ^ 29))).setReg
    (regAddr (pGwe 2) 0x04C) (w32 v.ptpNs)).setReg (regAddr (pGwe 2) 0x050) (w32 v.ptpSec)
  (List.range 16).foldl (fun (u : State) i =>
    u.setReg (regAddr (pGwe 2) (0x080 + 4 * i)) (w32 (leAt (m.data ++ List.replicate 64 0) (4 * i) 4))) t

/-- The gateway's pages. -/
def gweWrite (s : State) (w : Who) (d : RegDef) (k a : Nat) (val : Word) : State :=
  let o := a % 0x1000
  if k = 1 ∧ o = 0x044 then
    (match fld val 0 2 with
     | 1 => gweReadOp false s
     | 2 => gweStageOp w s
     | 3 => gweReadOp true s
     | _ => s)
  else if k = 2 ∧ o = 0x040 then lvcLatched (s.setReg a (newVal s a val)) (fld val 0 12)
  else typeWrite s w d a val

/-- The SA whose CTRL stands at an offset of an MSC page. -/
def saAt (o : Nat) : Option SaId :=
  if o = 0x080 then some (.tx 0) else if o = 0x0A0 then some (.tx 1)
  else if 0x120 ≤ o ∧ o < 0x280 ∧ ((o - 0x120) % 0x60 = 0 ∨ (o - 0x120) % 0x60 = 0x20) then
    some (.rx ((o - 0x120) / 0x60) ((o - 0x120) % 0x60 / 0x20))
  else none

/-- A port's MSC page (R387, R395). -/
def mscWrite (s : State) (w : Who) (d : RegDef) (n a : Nat) (val : Word) : State :=
  let o := a % 0x1000
  if o = 0x054 then selectSa s w n val
  else
    match saAt o with
    | some sa => if bit val.toNat 0 then tryInstall s w n sa val else removeSa s w n sa val
    | none => typeWrite s w d a val

/-- A MAC page: `MDIO_CMD` (R144). -/
def macWrite (s : State) (w : Who) (d : RegDef) (n a : Nat) (val : Word) : State :=
  if a % 0x1000 = 0x404 then mdioStart s n (fld val 0 2) (fld val 8 5) (fld val 16 5) else typeWrite s w d a val

/-- A T1 PHY page (Table 4-10). -/
def tphyWrite (s : State) (w : Who) (d : RegDef) (n a : Nat) (val : Word) : State :=
  let o := a % 0x1000
  if o = 0x044 then
    let t := if bit val.toNat 0 then tc10Negotiate s n else s
    if bit val.toNat 1 then tc10Wake t n else t
  else if o = 0x04C ∧ bit val.toNat 0 = true then cableStart s w n
  else typeWrite s w d a val

/-- A lane's PRBS register (R146). -/
def laneWrite (s : State) (w : Who) (d : RegDef) (k o a : Nat) (val : Word) : State :=
  if o = 0x04C then prbsWrite s w k val else typeWrite s w d a val

/-- The Shell Link page (R567). -/
def slRegWrite (s : State) (w : Who) (d : RegDef) (a : Nat) (val : Word) : State :=
  let o := a % 0x1000
  if o < 0x400 then typeWrite s w d a val
  else laneWrite s w d (48 + (o - 0x400) / 0x200) ((o - 0x400) % 0x200 + 0x040) a val

/-- Words that a write of `FLT_ENT_SEL` latches (Table 16-14). Marks: DEDUCED (log entry 18). -/
def entLatched (s : State) (i : Nat) : State :=
  match coalEntry s i with
  | none => (List.range 6).foldl (fun (u : State) k => u.setReg (aFlt (0x068 + 4 * k)) 0) s
  | some e =>
    let st := match e.st with | .open_ => 1 | .closed => 2
    let t := s.setReg (aFlt 0x068) (w32 (e.suspect % 2 ^ 20 + e.cls % 64 * 2 ^ 20 + st * 2 ^ 28))
    ((t.setPair (aFlt 0x06C) e.first).setPair (aFlt 0x074) e.last).setReg (aFlt 0x07C) (w32 (min 0xFFFFFFFF e.count))

/-- Words that a write of `FLT_REC_IDX` latches. The spec does not say what a SEQ shows whose record is not held.
Marks: DEDUCED (log entry 18). -/
def recLatched (s : State) (seq : Nat) : State :=
  let r := Tab.get (fun _ => ([] : List Byte)) s.faults.records (seq % 512)
  let held := !r.isEmpty && leAt r 0 4 == seq
  let b := if held then r else leBytes 64 (Config.freeNat s.free)
  (List.range 16).foldl (fun (u : State) k => u.setReg (aFlt (0x0C0 + 4 * k)) (w32 (leAt b (4 * k) 4)))
    { s with free := s.free + b2n (!held) }

/-- `FLT_ATTR_DATAk` (R505, Table 16-6): word k of the entry at `FLT_ATTR_IDX`. -/
def attrWrite (s : State) (w : Who) (k a : Nat) (val : Word) : State :=
  let i := s.fld (aFlt 0x054) 0 8
  let e := attrEntry s i
  let old := if k = 0 then e.1 else if k = 1 then e.2.1 else e.2.2
  let new := val &&& w32 (match regDef a with | some d => d.mask | none => 0)
  let x : Word × Word × Word := if k = 0 then (new, e.2) else if k = 1 then (e.1, new, e.2.2) else (e.1, e.2.1, new)
  logReg { s with faults := { s.faults with attr := Tab.set (fun _ => (0, 0, 0)) s.faults.attr i x } }
    (originOf w.m) a old new false

/-- The FLT page. -/
def fltWrite (s : State) (w : Who) (d : RegDef) (a : Nat) (val : Word) : State :=
  let o := a % 0x1000
  if o = 0x058 ∨ o = 0x05C ∨ o = 0x060 then attrWrite s w ((o - 0x058) / 4) a val
  else if o = 0x064 then entLatched (s.setReg a (newVal s a val)) (fld val 0 10)
  else if o = 0x084 then recLatched (s.setReg a val) val.toNat
  else if o = 0x100 then fltInjTaken s w val
  else typeWrite s w d a val

/-- R453: a kick by MP0. Marks: DEDUCED (log entry 51). -/
def kicked (s : State) : State :=
  let up := aliveMode s.mode && pairOk s false && pairOk s true && !s.keys.husk
  { s with twin := { s.twin with lastKick := some s.cclk, alive := up } }

/-- Words that a write of `TWN_MIRROR_IDX` latches (Table 15-9). Marks: DEDUCED (log entry 18). -/
def mirrorLatched (s : State) (i : Nat) : State :=
  let e := (s.twin.mirror[i]?).getD (List.replicate 32 0)
  (List.range 8).foldl (fun (u : State) k => u.setReg (regAddr pTwn (0x0A0 + 4 * k)) (w32 (leAt e (4 * k) 4))) s

/-- The TWN page. -/
def twnWrite (s : State) (w : Who) (d : RegDef) (a : Nat) (val : Word) : State :=
  let o := a % 0x1000
  if o = 0x050 then (if bit val.toNat 0 then kicked s else s)
  else if o = 0x090 then mirrorLatched (s.setReg a (newVal s a val)) (fld val 0 10)
  else typeWrite s w d a val

/-- `UPD_SESSION` (R541, R545). -/
def updSessWrite (s : State) (w : Who) (val : Word) : State :=
  if bit val.toNat 0 then openSession s w val
  else if bit val.toNat 1 then (match s.upd.session with | some u => closeSession s u | none => s)
  else s

/-- An accepted write of a register of the block on page `pg`. Marks: DEDUCED (log entry 17). -/
def blockWrite (s : State) (w : Who) (pg : Page) (d : RegDef) (a : Nat) (val : Word) : State :=
  let o := a % 0x1000
  match pg with
  | .sys => if o = 0x040 then sysWrite s w val else typeWrite s w d a val
  | .sem => if 0x040 ≤ o ∧ o < 0x140 then semFree s w ((o - 0x040) / 4) else typeWrite s w d a val
  | .silt => if o = 0x040 ∨ o = 0x050 ∨ o = 0x054 then siltWrite s w a val else typeWrite s w d a val
  | .hif b k => if k = 3 then mbxWrite s (hostOfB b) a val else typeWrite s w d a val
  | .prs => if o = 0x04C then captWrite s w val else typeWrite s w d a val
  | .mac n => macWrite s w d n a val
  | .egs n => if o = 0x060 then
      logReg (gclWrite s n val) (originOf w.m) a (w32 (gclEntry s n (s.fld (aEgs n 0x05C) 0 10))) val false
    else typeWrite s w d a val
  | .sl => slRegWrite s w d a val
  | .sds n => laneWrite s w d n o a val
  | .tphy n => tphyWrite s w d n a val
  | .can n => canWrite s w d n a val
  | .lin n => linWrite s w d n a val
  | .gwe k => gweWrite s w d k a val
  | .msc n => mscWrite s w d n a val
  | .ptp => if (o = 0x144 ∨ o = 0x1C4) then (if bit val.toNat 0 then gmSet s ((o - 0x144) / 0x80) else s)
    else typeWrite s w d a val
  | .gpio => if 0x100 ≤ o ∧ o < 0x200 ∧ o % 0x10 = 0 then ppoWrite s w ((o - 0x100) / 0x10) val
    else typeWrite s w d a val
  | .mem => if o = 0x050 then memInjTaken s w val else typeWrite s w d a val
  | .lsp => if o = 0x04C then lspInjTaken s w val else typeWrite s w d a val
  | .flt => fltWrite s w d a val
  | .twn => twnWrite s w d a val
  | .upd => if o = 0x060 then updSessWrite s w val else typeWrite s w d a val
  | _ => typeWrite s w d a val

/-- The effect of an accepted write. Marks: DEDUCED (log entry 17). -/
def written (s : State) (w : Who) (d : RegDef) (a : Nat) (val : Word) : State :=
  match ringAt a with
  | some (r, o) => ringRegWrite s w d r o a val
  | none =>
    if a % 0x1000 < 0x040 then commonWrite s w d a val
    else
      match pageOf (a / 0x1000) with
      | some pg => blockWrite s w pg d a val
      | none => typeWrite s w d a val

/-! ### Pairs (R9) -/

/-- R9: an accepted write of `_LO` applies both halves. Marks: DEDUCED (log entry 17). -/
def pairApply (s : State) (w : Who) (d : RegDef) (a : Nat) (val : Word) : State :=
  let hi := (s.heldOf w.m (a + 4)).getD (s.reg (a + 4))
  let t := written (s.setHeld w.m (a + 4) none) w d a val
  match regDef (a + 4) with
  | some e => written t w e (a + 4) hi
  | none => t

/-- R9: an accepted write of `_HI` is held. -/
def pairHold (s : State) (w : Who) (a : Nat) (val : Word) : State := s.setHeld w.m a (some (newVal s a val))

/-- An accepted write, by the half of R9. -/
def accepted (s : State) (w : Who) (a : Nat) (val : Word) : State :=
  match regDef a with
  | none => s
  | some d =>
    match d.half with
    | .none => written s w d a val
    | .lo => pairApply s w d a val
    | .hi => pairHold s w a val

/-- A write of an SA's CTRL, which R387 checks after the causes of R46 and before SILT_FULL. -/
def saCtrlWrite (s : State) (w : Who) (n : Nat) (sa : SaId) (val : Word) (a : Nat) : State :=
  match saRefusal s w n sa val with
  | some (q, r) => s.refuse q r w a
  | none => tryInstall s w n sa val

/-- The SA that a write installs. -/
def installs (a : Nat) (val : Word) : Option (Nat × SaId) :=
  match pageOf (a / 0x1000) with
  | some (.msc n) => if bit val.toNat 0 then (saAt (a % 0x1000)).map (fun x => (n, x)) else none
  | _ => none

/-- R45, R46: one write of a master, refused as a whole or accepted. -/
def regWrite (s : State) (w : Who) (a width : Nat) (val : Word) : State :=
  match installs a val with
  | some (n, sa) =>
    if width = 4 then saCtrlWrite s w n sa val a
    else match checkWrite s w a width val with
      | some (p, r) => s.refuse p r w a
      | none => s
  | none =>
    match checkWrite s w a width val with
    | some (p, r) => s.refuse p r w a
    | none => accepted s w a val

/-! ### Commands -/

/-- A write to BAR2 of a host port: its own TUE ring, or a refusal, which SYS records with the offset in BAR2. Another
master has no such offset. Marks: DESIGN CHOICE (log entry 73). -/
def bar2Write (s : State) (w : Who) (h : HostPort) (off width : Nat) (val : Word) : State :=
  let v : Who := { w with sec := false }
  if w.m ≠ hostMaster h then s.refuse pSys .addrReserved v off
  else if off < 0x20 then regWrite s v (bar2Ring h off) width val
  else s.refuse pSys (bar2Refusal off) v off

/-- A write of a master to BAR0, to BAR2, or to the MSI-X table of BAR4 behind its own door. -/
def masterWrite (s : State) (w : Who) (addr width : Nat) (val : Word) : State :=
  match bar4At addr, bar2At addr with
  | some (h, off), _ => whenever (w.m == hostMaster h) s (msixWrite s h off width val)
  | none, some (h, off) => bar2Write s w h off width val
  | none, none => regWrite s w addr width val

/-- REGISTER_WRITE. -/
def execRegisterWrite (w : Who) (addr width : Nat) (val : Word) (s : State) : Result :=
  ifWf (addrOk addr && decide (1 ≤ width) && decide (width ≤ 8)) (masterWrite s w addr width val)

/-- PAIR_HI_WRITE. -/
def execPairHiWrite (w : Who) (addr : Nat) (val : Word) (s : State) : Result :=
  ifWf (hiOk addr) (s.write w addr val (pairHold s w addr val))

/-- PAIR_LO_WRITE. -/
def execPairLoWrite (w : Who) (addr : Nat) (val : Word) (s : State) : Result :=
  ifWf (loOk addr)
    (s.write w addr val (match regDef addr with | some d => pairApply s w d addr val | none => s))

/-- ERRCAP_CLEAR. -/
def execErrcapClear (w : Who) (page : Nat) (s : State) : Result :=
  ifWf (pageOk page) (s.write w (regAddr page 0x28) 0x8000 (errcapCleared s page 0x8000))

/-- IRQ_CLR_WRITE. -/
def execIrqClrWrite (w : Who) (page : Nat) (val : Word) (s : State) : Result :=
  ifWf (pageOk page) (s.write w (regAddr page 0x1C) val (irqCleared s page val))

/-- IRQ_EN_WRITE. -/
def execIrqEnWrite (w : Who) (page : Nat) (val : Word) (s : State) : Result :=
  ifWf (pageOk page) (s.write w (regAddr page 0x14) val (irqEnabled s w page val))

end Sys2Proof.Machine
end

