-- ==== Sys2Proof/Machine/StartOps.lean ====
section
/-!
DEFINITION. Starts (spec/17, R530 to R534): the wipe of R33, the device keys (R418 to R422), the choice of the code
slot (R546), the engine reload (R532), the restore of the key blobs (R427), and Topsoil over Bedrock (R533, R534,
R552 to R555). A start is one transition: it ends held in BOOT, in QUARANTINE, or in CONFIGURE with the Topsoil commit
armed or RUN_WAIT set.
-/
namespace Sys2Proof.Machine
open Sys2Proof

/-! ### The wipe (R33) -/

/-- The start causes of Table 17-6. -/
inductive StartCause where
  | powerOn | resetPin | modeReq | deepWake | lifecycle | test | injected | trialRevert
deriving DecidableEq, Repr

/-- Code of a cause. -/
def causeCode : StartCause → Nat
  | .powerOn => 1 | .resetPin => 2 | .modeReq => 3 | .deepWake => 4 | .lifecycle => 5 | .test => 6
  | .injected => 7 | .trialRevert => 8

/-- Registers that a start keeps: the PWR counters, which stand in NVM, and across SLEEP-DEEP the WAKE page. -/
def keptReg (c : StartCause) (a : Nat) : Bool :=
  decide (aPwr 0x100 ≤ a ∧ a < aPwr 0x128) || (c == .deepWake && a / 0x1000 == pWake)

/-- Non-volatile memory after a start: one boot more, and its cause. -/
def bootNvm (s : State) (c : StartCause) : Nvm := { s.nvm with bootCount := s.nvm.bootCount + 1, cause := causeCode c }

/-- R33, R530: what a start leaves: all SRAM and registers as at reset, NVM, OTP and flash as they were, the boot
counter advanced, and the Silt Log with its BOOT entry. -/
def fresh (s : State) (c : StartCause) (n : Nvm) : State :=
  { pending := s.pending
    cclk := Config.startTime s.free
    regs := s.regs.filter (fun x => keptReg c x.1)
    silt := bootSilt n n.bootCount
    power := { lastDeep := c == .deepWake }
    twin := { twinB := Config.twinStrap }
    nvm := n
    out := s.out
    free := s.free + 1 }

/-- The state at the begin of a start, with its cause recorded. -/
def wiped (s : State) (c : StartCause) : State :=
  ((fresh s c (bootNvm s c)).setReg (aPwr 0x048) (w32 (causeCode c))).bump (aPwrCnt 0)

/-! ### Device keys (R418 to R422) -/

/-- A start check that fails sends the unit to QUARANTINE after BOOT: the first one found. -/
abbrev StartFail := Option Nat

/-- R420: the readings of the PUF, at most `n`: corrected cells and secret of the first good one, and the readings
used. -/
def pufRead (s : State) (check : List Byte) : Nat → Nat → Option (Nat × List Byte × Nat) × Nat
  | 0, used => (none, used)
  | n + 1, used =>
    let r := Config.puf (s.free + used)
    if r.1 ≤ 1800 ∧ sha256b (r.2 ++ ascii "CHK") = check then (some (r.1, r.2, used + 1), used + 1)
    else pufRead s check n (used + 1)

/-- Table 14-1, R422: K_BLOB, the DIK and its check. -/
def deriveKeys (s : State) (seed : List Byte) : State × StartFail :=
  let kb := kdf 0 seed (ascii "BLOB") s.uid 256
  let d := kdfScalar 0 seed (ascii "DIK") s.uid false
  let pub := Config.ecPublic false d
  let t := { s with keys := { s.keys with seed := seed, dikX := pub.take 32, dikY := slice pub 32 32 } }
  let t := (t.setKeySlot 0 { t.keySlot 0 with attr := 0x00101C8B, key := d }).setKeySlot 1
    { t.keySlot 1 with attr := 0x00001C05, key := kb }
  if sha256b pub = otpBytes s 0x68 32 then (t.setBitAt (aKey 0x040) 1 true, none)
  else (t.setBitAt (aKey 0x040) 5 true, some 0x42)

/-- R418 to R422. A unit in SCRAP reads no PUF (R444). -/
def deviceKeys (s : State) : State × StartFail :=
  if lcState s = 3 then (s, some 0x45)
  else
    let rec_ := flashBytes s.nvm 0x02400000 2088
    if sha256b rec_ ≠ otpBytes s 0x48 32 then (s.setBitAt (aKey 0x040) 6 true, some 0x41)
    else
      match pufRead s (Config.helperCheck rec_) 3 0 with
      | (none, n) =>
        (({ s with free := s.free + n }.setReg (aKey 0x060) (w32 (n * 2 ^ 16))).setBitAt (aKey 0x040) 5 true, some 0x42)
      | (some (errs, secret, used), n) =>
        let t := ({ s with free := s.free + n }.setReg (aKey 0x060) (w32 (errs + used * 2 ^ 16))).setBitAt (aKey 0x040) 0 true
        let t := if t.fld (aKey 0x064) 0 14 < errs then (t.raise (pKey 0) 3).report 0x0D (unitId 6 0x600) [] false else t
        deriveKeys t (sha256b (secret ++ s.uid))

/-! ### Self-test at power-on (R511) -/

/-- R511: MBIST and LBIST of a power-on start. What they find is the die's. -/
def powerOnTests (s : State) : State × StartFail :=
  let mb := Config.freeBool s.free
  let lb := Config.freeBool (s.free + 1)
  let first := if mb then 0 else Config.freeNat (s.free + 2) % 2 ^ 16 * 2 ^ 16
  let t := { s with free := s.free + 3 }
  let t := t.setReg (aLsp 0x050) (w32 (1 + 2 * b2n mb + 4 + 8 * b2n lb + 0x80 + first))
  if mb && lb then (t, none)
  else (({ t with free := t.free + 1 }).report 0x37 (Config.freeNat t.free % 2 ^ 20) [] false, some 0x37)

/-- R513: the results that a test sequence left in NVM. Marks: DEDUCED (log entry 9). -/
def testResults (s : State) : State × StartFail :=
  let r := s.nvm.testRes
  let t := s.setReg (aLsp 0x050) (w32 r)
  if (bit r 0 && !bit r 1) || (bit r 2 && !bit r 3) then
    (({ t with free := t.free + 1 }).report 0x37 (Config.freeNat t.free % 2 ^ 20) [] false, some 0x37)
  else (t, none)

/-- The self-tests that a start shows. -/
def startTests (s : State) : StartCause → State × StartFail
  | .powerOn => powerOnTests s
  | .test => testResults s
  | .resetPin => (s, none) | .modeReq => (s, none) | .deepWake => (s, none) | .lifecycle => (s, none)
  | .injected => (s, none) | .trialRevert => (s, none)

/-! ### Code slots (R546, R532, R551) -/

/-- A component of a slot's image is wrong, among some types. -/
def compsBad (s : State) (slot : Nat) (types : List Nat) : Bool :=
  let h := flashBytes s.nvm (areaBase .code slot) 1536
  (comps h).any (fun c => types.contains c.ty &&
    sha384b (flashBytes s.nvm (areaBase .code slot + c.off) c.len) != c.hash)

/-- R546: header, MP1 and MP0 firmware of a slot pass. -/
def slotBoots (s : State) (k : Nat) : Bool :=
  (headerCheck s .code 0 (flashBytes s.nvm (areaBase .code k) 1536)).isNone && !compsBad s k [1, 2]

/-- R546, first part: a trial that a reset cut short reverts; a PENDING slot goes on trial.
Marks: DEDUCED (log entry 9). -/
def trialStep (s : State) : State :=
  match s.nvm.trial, s.nvm.pendingSlot with
  | some (k, boot), _ =>
    if boot ≠ s.nvm.bootCount then
      let t := markSlot s k .ready
      siltUpd (({ t with nvm := { t.nvm with trial := none, lastDecision := 2 } }.bump (aUpdCnt 5)).raise pUpd 2)
        3 7 k 0 (codeSlot t k).build 2
    else s
  | none, some k =>
    let t := markSlot s k .trial
    siltUpd (({ t with nvm := { t.nvm with pendingSlot := none, trial := some (k, t.nvm.bootCount) } }.bump
      (aUpdCnt 3)).raise pUpd 0) 3 5 k 0 (codeSlot t k).build (codeSlot t k).build
  | none, none => s

/-- R546: a slot that fails becomes BAD; a trial ends with it. Marks: DEDUCED (log entry 9). -/
def slotFails (s : State) (k : Nat) : State :=
  let t := if (codeSlot s k).st = .trial then
      siltUpd (({ s with nvm := { s.nvm with trial := none, lastDecision := 5 } }.bump (aUpdCnt 5)).raise pUpd 2)
        3 7 k 0 (codeSlot s k).build 5
    else s
  markSlot t k .bad

/-- R546, second part: the slots in their order; the slot that boots. -/
def chooseSlot : List Nat → State → State × Option Nat
  | [], s => (s, none)
  | k :: rest, s =>
    if (codeSlot s k).version < secVer s then chooseSlot rest (markSlot s k .retired)
    else if slotBoots s k then
      (if (codeSlot s k).st = .backup then markSlot s k .confirmed else s, some k)
    else chooseSlot rest (slotFails s k)

/-- R546. -/
def bootSlot (s : State) : State × Option Nat :=
  let t := trialStep s
  chooseSlot ([slotIn t .trial, slotIn t .confirmed, slotIn t .backup].filterMap id) t

/-! ### Key restore (R427, R449) -/

/-- R427: one blob is restored, or its slot stays invalid when it fails; its counter resumes at the stored reservation
(R411). Marks: DEDUCED (log entry 47). -/
def restoreBlob (s : State) (x : Nat × Option KeySlot) : State :=
  match x.2 with
  | none => s
  | some k =>
    let t := { s with free := s.free + 1 }
    if Config.freeBool s.free then
      siltKey (((t.bump (aKeyCnt 4)).raise (pKey 0) 2).report 0x0C (unitId 9 x.1) [] false) 4 9 x.1 0 0
    else
      let rsv := Tab.get (fun _ => 0) t.nvm.nonceRsv x.1
      (t.setKeySlot x.1 { k with ctr := rsv, ctrExh := k.ctrExh || decide (2 ^ 64 ≤ rsv) }).bump (aKeyCnt 5)

/-- R427, Table 14-8: every blob, in ascending slot order, and one Silt entry with the number of slots restored, whose
OLD and NEW the spec leaves open. A unit in RETURN holds KS0 alone (R444); HUSK_TRIPPED erases the blobs
(R449). Marks: DEDUCED (log entry 47). -/
def restoreKeys (s : State) : State :=
  if s.nvm.huskTripped then { s with nvm := { s.nvm with blobs := [] } }
  else if lcState s = 2 then (s.setKeySlot 1 {}).setBitAt (aKey 0x040) 2 true
  else if !s.bitAt (aKey 0x040) 0 then s
  else
    let t := s.nvm.blobs.foldl restoreBlob s
    let n := (t.reg (aKeyCnt 5)).toNat - (s.reg (aKeyCnt 5)).toNat
    let f := Config.freeNat t.free
    (siltKey t.tick1 4 0x08 n f (f / 2 ^ 32)).setBitAt (aKey 0x040) 2 true

/-! ### Topsoil (R552 to R555) -/

/-- TSFMT of the image in a Topsoil slot. -/
def tsFmt (s : State) (k : Nat) : Nat := hdrVersion (flashBytes s.nvm (areaBase .config k) 12)

/-- R553: a register that Topsoil may write. -/
def tsAddrOk (a : Nat) : Bool :=
  decide (a < 0x800000) && a % 4 == 0 &&
  (match regDef a with
   | some d => (d.ty == .rw || d.ty == .rws) && !d.sec
   | none => false) &&
  a / 0x1000 != pSem && a != aSilt 0x050 && a != aSilt 0x054

/-- MP0's access. -/
def whoMp0 : Who := { m := .mp0 }

/-- R552, R553: register records in their order; none when one does not pass. -/
def tsRegs : Nat → List Byte → State → Option State
  | 0, _, s => some s
  | n + 1, r, s =>
    let a := leAt r 0 4
    let v := w32 (leAt r 4 4)
    if !tsAddrOk a || (checkWrite s whoMp0 a 4 v).isSome then none
    else tsRegs n (r.drop 8) (regWrite s whoMp0 a 4 v)

/-- R552: an entry by INDEX or by key. -/
def tsEntry (s : State) (t op i : Nat) (v : List Byte) : Option State :=
  if badEntry t v then none
  else if op = 1 then (if i < tableEntries t then some (stageOne 3 t s (i, v)) else none)
  else if op = 2 ∧ (t = tFDB ∨ t = tSID) then
    match locateKey s true t (hashKey t v) with
    | some j => some (stageOne 3 t s (j, v))
    | none => (placeKey s t (hashKey t v)).map (fun w => (insertOps s t v w).foldl (stageOne 3 t) s)
  else none

/-- R552: table records in their order; none when one does not pass. -/
def tsTables : Nat → List Byte → State → Option State
  | 0, _, s => some s
  | n + 1, r, s =>
    if r.isEmpty then some s
    else
      let t := byteAt r 0
      let len := leAt r 2 2
      let size := 8 + (len + 7) / 8 * 8
      if r.length < size ∨ tableEntries t = 0 ∨ t = 9 ∨ len ≠ entryBytes t then none
      else
        match tsEntry s t (byteAt r 1) (leAt r 4 4) (slice r 8 len) with
        | none => none
        | some u => tsTables n (r.drop size) u

/-- Bytes of a component of a type of a Topsoil image. -/
def tsComp (s : State) (k ty : Nat) : List Byte :=
  match (comps (flashBytes s.nvm (areaBase .config k) 1536)).find? (fun c => c.ty == ty) with
  | some c => flashBytes s.nvm (areaBase .config k + c.off) c.len
  | none => []

/-- How a Topsoil slot fares under R553: the state with its records written, or CFG_ERR (Table 18-13). -/
inductive TsTry where
  | pass (s : State)
  | fail (err : Nat)
  | below
  | above

/-- R553: the commit checks of what the records leave. Marks: DEDUCED (log entry 58). -/
def tsArm (u : State) : TsTry :=
  let armed := goTaken u whoMp0 0
  (uncheckedPart [] armed.commits).elim (.fail 2) (fun x =>
    (partCheck armed (checkView armed x.1 x.2) x.2.id).elim (.pass armed) (fun c =>
      .fail (if c.1 = ccAdmit then 4 else 2)))

/-- R553: the records of a slot. -/
def tsSchema (s : State) (k : Nat) : TsTry :=
  let r := tsComp s k 0x20
  let tb := tsComp s k 0x21
  (tsRegs (r.length / 8) r s).elim (.fail 2) (fun t =>
    (tsTables tb.length tb t).elim (.fail 2) (fun u => if r.length % 8 ≠ 0 then .fail 2 else tsArm u))

/-- R553: a Topsoil slot under every check. Marks: DEDUCED (log entry 9), DEDUCED (log entry 58). -/
def tsTry (s : State) (k : Nat) : TsTry :=
  let h := flashBytes s.nvm (areaBase .config k) 1536
  (headerCheck s .config 0 h).elim
    (if hdrVersion h < Config.tsfmtRange.1 then .below
     else if Config.tsfmtRange.2 < hdrVersion h then .above
     else tsSchema s k)
    (fun x => .fail (if x.2 = 3 ∨ x.2 = 4 then 1 else 3))

/-- A state with CFG_ERR. Marks: DEDUCED (log entry 9). -/
def cfgErr (s : State) (e : Nat) : State := s.setFld (aUpd 0x05C) 24 4 e

/-- R554: a candidate is rejected. -/
def tsReject (s : State) (k err : Nat) : State :=
  siltUpd (cfgErr (((markTs s k .rejected).bump (aUpdCnt 8)).raise pUpd 3) err) 3 0x0B (2 + k) 0 (tsFmt s k) (tsFmt s k)

/-- R554: a slot whose records have been written becomes the slot in use. -/
def tsInUse (s : State) (k old : Nat) : State :=
  let t := markTs s k .valid
  siltUpd { t with nvm := { t.nvm with tsUse := k }, power := { t.power with cfgSrc := k, topsoilBusy := true } }
    3 0x0A (2 + k) 0 old (tsFmt t k)

/-- R534: no Topsoil: the unit waits for RUN under Bedrock. Marks: DEDUCED (log entry 58). -/
def runWait (s : State) : State :=
  { s with power := { s.power with cfgSrc := 2, runWait := true }, tables := { s.tables with ready := true } }.raise pPwr 1

/-- R555: the image that a migration writes: CLASS 0x03, TSFMT, PUBKEY and SIG by the DIK. -/
def tsMigrated (s : State) (img : List Byte) : List Byte :=
  let pub := s.keys.dikX ++ s.keys.dikY ++ List.replicate 32 0
  let h := putBytes (putBytes (putBytes (img.take 416) 6 [3]) 8 (beBytes 4 Config.tsfmtRange.1)) 32 pub
  let sig := Config.ecdsaSign false (s.keySlot 0).key (sha256b h) s.free
  h ++ sig.take 64 ++ List.replicate 32 0 ++ img.drop 512

/-- R555: a whole area is rewritten. -/
def writeArea (n : Nvm) (a size : Nat) (img : List Byte) : Nvm :=
  programFlash (img.length / 256 + 1) (a / 256) img
    ((List.range (size / 65536)).foldl (fun (m : Nvm) i => eraseSector m (a / 65536 + i)) n)

/-- R555: a migration that does not end in a slot that passes. -/
def migrateFails (s t : State) (k : Nat) : State := runWait (siltUpd (cfgErr t 5) 3 0x0C (3 - k) 0 (tsFmt s k) 0)

/-- R555: the other slot takes the converted image. -/
def migrateWrites (s : State) (k : Nat) (img : List Byte) : State :=
  { s with nvm := writeArea s.nvm (areaBase .config (1 - k)) (areaSize .config) (tsMigrated s img), free := s.free + 1 }

/-- R555: the converted slot passes every check. -/
def migratePasses (s u : State) (k : Nat) : State :=
  tsInUse (siltUpd (u.raise pUpd 4) 3 0x0C (3 - k) 0 (tsFmt s k) Config.tsfmtRange.1) (1 - k) (tsFmt s k)

/-- How a state goes on with the outcome of a Topsoil slot. -/
def tsGoes (x : TsTry) (pass : State → State) (fail : Nat → State) (below above : State) : State :=
  match x with
  | .pass u => pass u
  | .fail e => fail e
  | .below => below
  | .above => above

/-- R555: conversion of slot `k` into the other slot, which is then checked. Marks: DEDUCED (log entry 58). -/
def tsMigrate (s : State) (k : Nat) : State :=
  (Config.tsConvert Config.tsfmtRange.1
      (flashBytes s.nvm (areaBase .config k) (hdrLen (flashBytes s.nvm (areaBase .config k) 24)))).elim
    (migrateFails s s k)
    (fun img =>
      let t := migrateWrites s k img
      let f := migrateFails s t k
      tsGoes (tsTry t (1 - k)) (fun u => migratePasses s u k) (fun _ => f) f f)

/-- R554: the slots in their order. -/
def tsChoose : List Nat → State → State
  | [], s => runWait s
  | k :: rest, s =>
    tsGoes (tsTry s k) (fun u => tsInUse u k (if s.nvm.tsUse < 2 then tsFmt s s.nvm.tsUse else 0))
      (fun e => tsChoose rest (if tsSlot s k = .candidate then tsReject s k e else s))
      (tsMigrate s k) (tsChoose rest s)

/-- R554: candidate, slot in use, other slot, each once. -/
def tsOrder (s : State) : List Nat :=
  (([0, 1].filter (fun k => decide (tsSlot s k = TsSt.candidate))) ++ (if s.nvm.tsUse < 2 then [s.nvm.tsUse] else []) ++ [0, 1]).eraseDups

/-! ### The start -/

/-- The two lanes of the Shell Link that are enabled begin to train. -/
def lanesTrain (s : State) : State :=
  [0, 1].foldl (fun (t : State) l =>
    if t.bitAt (regAddr pSl 0x040) l then t.setMac (48 + l) { t.mac (48 + l) with link := .train } else t) s

/-- The engines report READY and the unit enters CONFIGURE (Table 17-1), where Topsoil is chosen. -/
def enterConfigure (s : State) : State :=
  let t := { s with
    prs := { s.prs with ready := true }
    fab := { s.fab with ready := true }
    gwe := { s.gwe with ready := true } }
  let t := setMode (lanesTrain t) .configure 3 9 0
  tsChoose (tsOrder t) t

/-- What ends a start's BOOT: QUARANTINE for the first start check that failed, else CONFIGURE. -/
def leaveBoot (s : State) : StartFail → State
  | some c => quarantine s c oHw 6 0
  | none => enterConfigure s

/-- The first of several start checks that failed. -/
def firstFail (a b : StartFail) : StartFail := if a.isSome then a else b

/-- A start that finds no slot to boot. -/
def bootNone (u : State) : State := { u with power := { u.power with bootErr := 1 } }

/-- The slot that boots. -/
def bootTaken (u : State) (k : Nat) : State :=
  restoreKeys { u with upd := { u.upd with booted := some k }, power := { u.power with bootErr := 0 } }

/-- An engine image of the slot that boots is bad. Marks: DEDUCED (log entry 9). -/
def bootBad (u : State) (k : Nat) : State := slotFails { u with power := { u.power with bootErr := 2 } } k

/-- Every engine has its image. -/
def bootDone (u : State) : State := leaveBoot { u with power := { u.power with failed := none } } u.power.failed

/-- From the choice of the slot on (R546, R532): held in BOOT without a bootable slot; restarted by `again` when a
component fails its check; else out of BOOT. Marks: DESIGN CHOICE (log entry 8). -/
def bootOn (again : State → State) (s : State) : State :=
  let r := bootSlot s
  r.2.elim (bootNone r.1) (fun k =>
    let u := bootTaken r.1 k
    if compsBad u k [3, 4, 5, 6, 7] then again (bootBad u k) else bootDone u)

/-- R530 to R534, R551: a start of a cause. Each restart leaves one more slot BAD, so that two restarts are the most
there can be. Marks: DESIGN CHOICE (log entry 8). -/
def startFrom : Nat → StartCause → State → State
  | 0, _, s => s
  | n + 1, c, s =>
    let (t, f1) := startTests (wiped s c) c
    let (t, f2) := deviceKeys t
    let f3 : StartFail := if t.nvm.huskTripped then some 0x44 else none
    bootOn (startFrom n .trialRevert) { t with power := { t.power with failed := firstFail f1 (firstFail f2 f3) } }

/-- A start of a cause. Marks: DESIGN CHOICE (log entry 8). -/
def start (c : StartCause) (s : State) : State := startFrom 4 c s

/-- R551: the boot goes on from the choice of the slot. -/
def bootRestart (s : State) : State := bootOn (startFrom 3 .trialRevert) s

end Sys2Proof.Machine
end

