-- ==== Sys2Proof/Machine/Lockstep.lean ====
section
/-!
DEFINITION. Lockstep pairs, scrubbers and monitors (spec/16, R487 to R500).
-/
namespace Sys2Proof.Machine
open Sys2Proof

/-- R40: an MP's access. -/
def whoMp (mp1 : Bool) : Who := { m := if mp1 then .mp1 else .mp0 }

/-- Unit ID of a management pair (Table 16-4). -/
def pairUnit (mp1 : Bool) : Nat := unitId 7 (b2n mp1)

/-! ### Pair failure (R492) -/

/-- CAUSE of `LSP_STAT`. -/
def pairCauseCode : PairCause → Nat
  | .persist => 1 | .overrun => 2 | .dataParity => 3 | .injected => 4

/-- R492: a pair is declared failed. One injected with PERSIST resets the unit in place of QUARANTINE (R516). -/
def pairFail (s : State) (mp1 : Bool) (c : PairCause) : State :=
  let t := s.setPairSt mp1 { s.pairSt mp1 with ok := false, agreed := false, inj := none, log := [], left := [], overran := false }
  let t := ((t.setBitAt (aLsp 0x044) (b2n mp1) false).setBitAt (aLsp 0x044) (2 + b2n mp1) false).setFld (aLsp 0x044) 4 4
    (pairCauseCode c)
  let t := (aliveFall (t.raise pLsp 2)).report 0x32 (pairUnit mp1) [] (decide (c = .injected))
  match c with
  | .injected => start .injected t
  | .persist => faultStop t 0x32
  | .overrun => faultStop t 0x32
  | .dataParity => faultStop t 0x32

/-! ### Mismatch and replay (R490, R516) -/

/-- R516: what an armed injection has left after one run of its pair; ARM clears when it has acted. -/
def injActs (s : State) (mp1 : Bool) : State :=
  let p := s.pairSt mp1
  let done (t : State) : State :=
    let t := t.setPairSt mp1 { t.pairSt mp1 with inj := none }
    if t.fld (aLsp 0x04C) 0 1 = b2n mp1 then t.setBitAt (aLsp 0x04C) 31 false else t
  match p.inj with
  | some (1, _) => done s
  | some (2, n) => if n ≤ 1 then done s else s.setPairSt mp1 { p with inj := some (2, n - 1) }
  | _ => s

/-- `LSP_LAST_MM` and the mismatch counter. -/
def mismatchSeen (s : State) (mp1 : Bool) (task : Nat) (async : Bool) : State :=
  let p := s.pairSt mp1
  let run := p.asyncMm + p.plainMm + 1
  (s.bump (aLsp (0x100 + 24 * b2n mp1))).setReg (aLsp 0x048)
    (w32 (task % 2 ^ 16 + min run 7 * 2 ^ 16 + b2n async * 2 ^ 19 + b2n mp1 * 2 ^ 20))

/-- The run is replayed: counted, REPLAY and its report. The replay takes its reads from the input log (R488). -/
def replays (s : State) (mp1 : Bool) : State :=
  (((s.setPairSt mp1 { s.pairSt mp1 with left := (s.pairSt mp1).log }).bump (aLsp (0x108 + 24 * b2n mp1))).raise pLsp 0).report 0x30 (pairUnit mp1) [] false

/-- R490: an agreed run begins. -/
def agreedRun (s : State) (mp1 : Bool) : State :=
  (((s.setPairSt mp1 { s.pairSt mp1 with agreed := true }).setBitAt (aLsp 0x044) (2 + b2n mp1) true).bump
    (aLsp (0x110 + 24 * b2n mp1))).raise pLsp 1 |>.report 0x31 (pairUnit mp1) [] false

/-- R490. -/
def mismatch (s : State) (mp1 : Bool) (task : Nat) (async : Bool) : State :=
  let t := injActs (mismatchSeen s mp1 task async) mp1
  let p := t.pairSt mp1
  if !p.agreed && async then
    let u := t.setPairSt mp1 { p with asyncMm := p.asyncMm + 1 }
    replays (if p.asyncMm + 1 = 4 then agreedRun u mp1 else u) mp1
  else
    let u := t.setPairSt mp1 { p with plainMm := p.plainMm + 1 }
    if p.plainMm + 1 = 2 then
      pairFail u mp1 (match p.inj with | some (3, _) => .injected | _ => .persist)
    else replays u mp1

/-- LOCKSTEP_MISMATCH. -/
def execLockstepMismatch (pair : Bool) (task : Nat) (async : Bool) (s : State) : Result :=
  .next (whenever (pairOk s pair && !asleep s.mode) s (mismatch s pair task async))

/-- R487: the buffer of a task that compared clean releases its entries in order.
Marks: DESIGN CHOICE (log entry 79). -/
def taskEnds (s : State) (mp1 : Bool) (l : List Staged) : State :=
  let t := l.foldl (fun (u : State) x => regWrite u (whoMp mp1) x.off 4 x.val) s
  (t.setPairSt mp1 { t.pairSt mp1 with asyncMm := 0, plainMm := 0, agreed := false, log := [], left := [], overran := false }).setBitAt (aLsp 0x044)
    (2 + b2n mp1) false

/-- R489: a task exceeds a limit. -/
def taskOver (s : State) (mp1 : Bool) : State :=
  pairFail ((s.bump (aLsp 0x130)).report 0x33 (pairUnit mp1) [] false) mp1 .overrun

/-- R516: an injection that makes the next run mismatch. -/
def runInjected (s : State) (mp1 : Bool) : Bool :=
  match (s.pairSt mp1).inj with
  | some (k, _) => k == 1 || k == 3
  | none => false

/-- TASK_COMMIT: a run that compared clean, with what its buffer holds. A task with more than 64 entries, or with more
reads than its input log holds, exceeds its limits (R489). Marks: DESIGN CHOICE (log entry 79). -/
def execTaskCommit (pair : Bool) (writes : List Staged) (s : State) : Result :=
  .next (whenever (pairOk s pair && !asleep s.mode && !runInjected s pair) s
    (if 64 < writes.length ∨ (s.pairSt pair).overran then taskOver s pair else taskEnds s pair writes))

/-- TASK_OVERRUN (R489). -/
def execTaskOverrun (pair : Bool) (_task : Nat) (s : State) : Result :=
  .next (whenever (pairOk s pair && !asleep s.mode) s (taskOver s pair))

/-! ### Scrubbers (R493 to R496) -/

/-- Region 3: a code word is fetched again; a data word fails its pair. Which it is stands open.
Marks: DEDUCED (log entry 53). -/
def scrubMp (s : State) (m : InjMark) : State :=
  if Config.freeBool s.free then memLost s.tick1 m true
  else pairFail (memLost s.tick1 m false) (decide (m.index = 1)) .dataParity

/-- Region 7: a key slot word; whose it is stands open (R450). -/
def scrubKeys (s : State) (m : InjMark) : State := slotParity s.tick1 (Config.freeNat s.free % 512) m

/-- Table 16-2: a word of region `r` fails the scrub read twice. -/
def scrubRepeated (s : State) (m : InjMark) : State :=
  match m.region with
  | 0 => scrubBuffer s m
  | 1 => scrubTables s m
  | 2 => scrubFlows s m
  | 3 => scrubMp s m
  | 4 => scrubBuses s m
  | 5 => (memRepeated s 5 true).report 0x08 (memUnit 5 m.index) (memDetail m) true
  | 6 => scrubSilt s m
  | 7 => scrubKeys s m
  | 8 => memLost s m true
  | 9 => scrubMisc s m
  | _ => s

/-- R493, R494: the scrubber meets a word with corrupted parity. -/
def scrubWord (s : State) (m : InjMark) : State :=
  let t := { s with faults := { s.faults with marks := s.faults.marks.erase m } }
  if m.double then scrubRepeated (memErr t m true true) m else memReplay t m true

/-- R493: a pass over region `r`. Marks: DESIGN CHOICE (log entry 55). -/
def scrubs (s : State) (r : Nat) : State :=
  let t := (s.faults.marks.filter (fun m => m.region == r)).foldl scrubWord s
  -- R214: a pass over the tables counts in each pipeline's SCRUB_PASS too
  let t := if r = 1 then [0, 1].foldl (fun u n =>
      u.setFld (regAddr (pPl n) 0x040) 16 16 ((u.fld (regAddr (pPl n) 0x040) 16 16 + 1) % 2 ^ 16)) t else t
  (t.bump (aMem (0x100 + 0x20 * r + 0x18))).raise pMem 3

/-- A pass over region `r` can take place: OTP is read at the start only (Table 16-2). -/
def passDue (s : State) (r : Nat) : Bool := if r = 11 then s.mode == .boot else scrubOn s r

/-- SCRUB_PASS. -/
def execScrubPass (region : Nat) (s : State) : Result :=
  ifWf (decide (region < 12)) (whenever (passDue s region) s (scrubs s region))

/-! ### Monitors (R498 to R500) -/

/-- A stall: counted, DP_STALL raised and reported, and QUARANTINE. -/
def stalls (s : State) (reporter : Nat) : State :=
  faultStop (((s.bump (aLsp 0x138)).raise pLsp 3).report 0x34 reporter [] false) 0x34

/-- R498: the exact cycle in which a frame leaves the stage that it is in, and that stage's engine. Waits for a
processor, held-back results and replays do not count. Marks: DEDUCED (log entry 53). -/
def stageExact (s : State) (n : Nat) (f : Frame) : Option (Nat × Nat) :=
  match f.stage with
  | .received => some (byteInPrs f 63 + 48, 0)
  | .parked _ => if f.parse.rv.deep then some (endInPrs f + 48 + f.wait, 0) else none
  | .parsed => if heldBack s n f then none else some (f.keysAt + 72, 0x100 + pipelineOf f.port)
  | .looked => some (f.lookedAt + 28, 0x100 + pipelineOf f.port)
  | .decided =>
    if f.dropped = false ∧ f.set ≠ 0 ∧ s.fab.ready = true ∧ f.stamps.length < halvesOf f then
      some (max (cellPresent f f.stamps.length + 16)
        (match f.stamps.getLast? with | some t => 8 * (t + 1) | none => 0), 0x701)
    else none
  | .gone => none
  | .waitProc => none

/-- The engine of a stage, as the monitor's reporter names it: any parse processor stands for PRS. -/
def sameEngine (unit e : Nat) : Bool := decide (unit = e) || (decide (unit < 64) && decide (e = 0))

/-- R498: a frame, a half or a message is more than 64 cycles past its exact time in a stage of the engine. -/
def stageLate (s : State) (unit : Nat) : Bool :=
  s.frames.any (fun x => match stageExact s x.1 x.2 with
    | some (t, e) => sameEngine unit e && decide (t + x.2.replay + 64 < s.cclk)
    | none => false)
  || (decide (unit = 0x700) && s.fab.queues.any (fun x => x.2.any (fun c =>
      releaseNow s c && decide (8 * copyDue s c c.released.length + (s.frame c.frame).replay + 64 < s.cclk))))
  || (decide (unit = 0x300) && gweOpen s && (match s.gwe.inq with
      | [] => false
      | m :: _ => decide (admitAt s m + 352 + 64 < s.cclk)))

/-- DP_STALL (R498). -/
def execDpStall (unit : Nat) (s : State) : Result :=
  .next (whenever (stageLate s unit && !asleep s.mode) s (stalls s (unitId 6 (unit % 2 ^ 16))))

/-- R499: an eligible queue has waited at a free line for `LSP_CFG.STALL_US`. -/
def portStalls (s : State) (port : Nat) : Bool :=
  match (s.egs port).stallAt with
  | some t => portUp s port && decide (t + s.fld (aLsp 0x040) 8 4 * 1000 ≤ s.cclk)
  | none => false

/-- PORT_STALL (R499). -/
def execPortStall (port : Nat) (s : State) : Result :=
  ifWf (portOk port) (whenever (portStalls s port && !asleep s.mode) s (stalls s (unitId 1 port)))

/-- CLOCK_FAIL (R500). -/
def execClockFail (_mclk : Bool) (s : State) : Result :=
  .next (whenever (!asleep s.mode) s (faultStop ((s.bump (aLsp 0x140)).report 0x35 0 [] false) 0x35))

/-- SUPPLY_FAIL (R500). -/
def execSupplyFail (supply : Nat) (s : State) : Result :=
  ifWf (supplyOk supply) (whenever (!asleep s.mode) s (faultStop ((s.bump (aLsp 0x148)).report 0x36 0 [] false) 0x36))

end Sys2Proof.Machine
end

