-- ==== Sys2Proof/Machine/UpdExec.lean ====
section
/-!
DEFINITION. Image update (spec/18): sessions and UPD descriptors (R541 to R545), the twin's flash (R556), the relay to
downstream devices (R557, R558), the flash device, and the end of the trial window (R548, R549).
-/
namespace Sys2Proof.Machine
open Sys2Proof

/-! ### Sessions -/

/-- UPD_SESSION_OPEN. -/
def execUpdSessionOpen (w : Who) (val : Word) (s : State) : Result :=
  .next (s.write w (aUpd 0x060) (setBit val 0) (openSession s w (setBit val 0)))

/-- UPD_SESSION_CLOSE. -/
def execUpdSessionClose (w : Who) (val : Word) (s : State) : Result :=
  let v := setBit (clrBit val 0) 1
  .next (s.write w (aUpd 0x060) v (match s.upd.session with | some u => closeSession (tellClose s u) u | none => s))

/-! ### Descriptors -/

/-- The session whose descriptor the ring gives next: at most 8 are in flight, and FENCE waits for every earlier one. -/
def updTakes (s : State) (d : UpdDesc) : Option Session :=
  match s.upd.session with
  | none => none
  | some u =>
    if u.relayed ∨ !ringEn s .upd ∨ ringPosted s .upd = 0 ∨ 8 ≤ u.flight.length ∨ (d.fence ∧ !u.flight.isEmpty) ∨
       s.upd.relay.isSome ∨ asleep s.mode ∨ s.mode = .quarantine then none
    else some u

/-- R556: a descriptor goes to the twin, and waits for its answer. -/
def toTwin (s : State) (u : Session) (d : UpdDesc) (bs : List Byte) : State :=
  relayPieces (setSession s { u with flight := u.flight ++ [(d, bs)] }) u.target d bs

/-- Bytes of a block as `slice` gives them: exactly LEN. -/
def blockBytes (d : UpdDesc) (bs : List Byte) : List Byte := (bs ++ List.replicate d.len 0).take d.len

/-- R544, R556: a WRITE that the ring gave. -/
def takenWrite (s : State) (u : Session) (d : UpdDesc) (bs : List Byte) (fault : Bool) : State :=
  if d.op ≠ 1 then updAnswer s u d 0x01 0 0
  else if u.dest = 1 then (if fault then updAnswer s u d 0x0C 0 0 else toTwin s u d (blockBytes d bs))
  else runWrite s u d (blockBytes d bs) fault

/-- UPD_WRITE. -/
def execUpdWrite (d : UpdDesc) (bytes : List Byte) (fault : Bool) (s : State) : Result :=
  ifWf (updOpOk 1 d)
    (match updTakes s d with
     | some u => takenWrite (ringTake s .upd 1) u d bytes fault
     | none => s)

/-! ### Relay frames (R557, Table 18-10) -/

/-- First 8 bytes of AES-CMAC under the key slot of entry `d` over bytes 14 to the end. -/
def relayAuth (s : State) (d : Nat) (body : List Byte) : List Byte :=
  (beBytes 16 (Config.cmac (s.keySlot (s.fld (aDs d 0x1C) 0 10)).key body).toNat).take 8

/-- The entry's slot permits MAC usage for MP0 (R558). -/
def relayKeyOk (s : State) (d : Nat) : Bool :=
  let k := s.fld (aDs d 0x1C) 0 10
  keyValid (s.keySlot k) && (keyType (s.keySlot k) == 1 || keyType (s.keySlot k) == 2) && keyPermits s k .mp0 true uMAC

/-- UID of entry `d`. -/
def dsUid (s : State) (d : Nat) : List Byte := (List.range 4).flatMap (fun w => leBytes 4 (s.reg (aDs d (0x0C + 4 * w))).toNat)

/-- A RELAY frame to entry `d`. -/
def relayFrame (s : State) (d sub seq session off result : Nat) (data : List Byte) : List Byte :=
  let p := s.fld (aDs d 0) 1 6
  let body := beBytes 4 0x54574E31 ++ [2, 1] ++ dsUid s d ++ [b8 sub, 0] ++ beBytes 2 seq ++ beBytes 4 session
    ++ beBytes 4 off ++ beBytes 2 data.length ++ beBytes 2 result ++ List.replicate 8 0 ++ data
  beBytes 6 (s.pair (aDs d 0x04) % 2 ^ 48) ++ beBytes 6 (s.pair (regAddr (pMac p) 0x068) % 2 ^ 48) ++ beBytes 2 0x88B5
    ++ body ++ relayAuth s d body

/-- MGMT sends a RELAY frame on the entry's port (R557), as it does gPTP messages. -/
def relaySend (s : State) (d at_ : Nat) (bs : List Byte) : State := gptpSend s (s.fld (aDs d 0) 1 6) at_ bs none

/-- IMG_LEN of the image in the relay area. -/
def relayLen (s : State) : Nat := hdrLen (flashBytes s.nvm (areaBase .relay 0) 24)

/-- DATA frames of a relay. -/
def relayCount (s : State) : Nat := ceilDiv (relayLen s) 1024

/-- DATA frame `n`. -/
def dataFrame (s : State) (r : Relay) (n : Nat) : List Byte :=
  let len := min 1024 (relayLen s - 1024 * n)
  relayFrame s r.ds 1 n r.session (1024 * n) 0 (flashBytes s.nvm (areaBase .relay 0 + 1024 * n) len)

/-- The state with the relay changed. -/
def setRelay (s : State) (r : Relay) : State := { s with upd := { s.upd with relay := some r } }

/-- R557: DATA frames are sent while fewer than 8 are unacknowledged; after the last acknowledgement comes FINISH. -/
def relayFill : Nat → Nat → State → Relay → State
  | 0, _, s, r => setRelay s r
  | k + 1, at_, s, r =>
    if r.next < relayCount s ∧ r.out.length < 8 then
      let bs := dataFrame s r r.next
      relayFill k (at_ + byteTime 20000 bs.length) (relaySend s r.ds at_ bs)
        { r with next := r.next + 1, out := r.out ++ [(r.next, 1, at_)] }
    else if r.base = relayCount s ∧ !r.finSent then
      setRelay (relaySend s r.ds at_ (relayFrame s r.ds 3 0 r.session 0 0 [])) { r with finSent := true }
    else setRelay s r

/-- R557: the relay starts after FINISH has succeeded for the relay area. -/
def relayStart (s : State) (u : Session) (d : UpdDesc) : State :=
  let r : Relay := { ds := u.dest - 2, image := 0, session := beNat (Config.drbg s.free) % 2 ^ 32, desc := d }
  relayFill 8 s.cclk s.tick1 r

/-- R557: FINISH of a relay completes and its session ends. -/
def relayEnds (s : State) (r : Relay) (status detail : Nat) : State :=
  match s.upd.session with
  | none => { s with upd := { s.upd with relay := none } }
  | some u =>
    let b := hdrBuild (flashBytes s.nvm (areaBase .relay 0) 24)
    let t := if status = 0 then siltUpd s oUpdate 9 u.slot u.dest b b else s
    closeSession (updAnswer t u r.desc status 0 detail) { u with flight := [] }

/-! ### FINISH and ABORT -/

/-- R551: a FINISH on a unit without a bootable slot puts its slot on PENDING and restarts the boot. -/
def noImageBoots (s : State) (k : Nat) : State :=
  if s.mode = .boot ∧ s.power.bootErr = 1 ∧ (codeSlot s k).st = .ready then
    bootRestart { (markSlot s k .pending) with nvm := { (markSlot s k .pending).nvm with pendingSlot := some k } }
  else s

/-- R545 on the unit's own flash. Marks: DEDUCED (log entry 57). -/
def ownFinish (s : State) (u : Session) (d : UpdDesc) : State :=
  if u.target ≠ .config ∧ u.imgLen.isNone then closeSession (updAnswer s u d 0x02 0 0) u
  else
    match u.target with
    | .relay => if (badComp s .relay 0).isSome then runFinish s u d else relayStart s u d
    | .code => noImageBoots (runFinish s u d) u.slot
    | .config => runFinish s u d

/-- A FINISH that the ring gave. -/
def takenFinish (s : State) (u : Session) (d : UpdDesc) : State :=
  if d.op ≠ 2 then updAnswer s u d 0x01 0 0
  else if u.dest = 1 then toTwin s u d []
  else ownFinish s u d

/-- UPD_FINISH: the flash device has ended the blocks before it. -/
def execUpdFinish (d : UpdDesc) (s : State) : Result :=
  ifWf (updOpOk 2 d)
    (match updTakes s d with
     | some u =>
       if d.op = 2 ∧ u.dest ≠ 1 ∧ (!u.flight.isEmpty ∨ s.upd.tail.isSome) then s
       else takenFinish (ringTake s .upd 1) u d
     | none => s)

/-- An ABORT that the ring gave: it completes with OK and the session ends. -/
def takenAbort (s : State) (u : Session) (d : UpdDesc) : State :=
  if d.op ≠ 3 then updAnswer s u d 0x01 0 0
  else
    let t := if u.dest = 1 then relayPieces s u.target d [] else s
    abortSession (updAnswer t u d 0 0 0) u

/-- UPD_ABORT. -/
def execUpdAbort (d : UpdDesc) (s : State) : Result :=
  ifWf (updOpOk 3 d)
    (match updTakes s d with
     | some u => takenAbort (ringTake s .upd 1) u d
     | none => s)

/-! ### The flash device (R544) -/

/-- A block of the open session ends. -/
def ownBlockEnds (s : State) (u : Session) (d : UpdDesc) (bs : List Byte) (ok : Bool) : State :=
  let t := blockEnds s (areaBase u.target u.slot + d.offset) bs ok
  let v := { u with flight := u.flight.drop 1 }
  updAnswer (setSession t v) v d (if ok then 0 else 0x0B) (if ok then d.len else 0) 0

/-- R544: the block that the flash device works on has been read back; a block of an ended session goes first. -/
def flashDone (s : State) (ok : Bool) : State :=
  match s.upd.tail with
  | some (d, bs, a) =>
    let t := { s with upd := { s.upd with tail := none } }
    updComplete (blockEnds t a bs ok) d (if ok then 0 else 0x0B) (if ok then d.len else 0) 0
  | none =>
    match s.upd.session with
    | some u =>
      if u.dest = 1 then s
      else match u.flight with
        | (d, bs) :: _ => ownBlockEnds s u d bs ok
        | [] => s
    | none => s

/-- FLASH_WRITE_DONE. -/
def execFlashWriteDone (ok : Bool) (s : State) : Result := .next (flashDone s ok)

/-! ### The twin's side (R556) -/

/-- R556: the session that the standby runs for the active: opened by its first record. -/
def relayedSession (s : State) (t : UpdTarget) : Option Session :=
  match s.upd.session with
  | some u => if u.relayed ∧ u.target = t then some u else none
  | none => if openResult s t 0 = 0 then some { owner := .mp0, target := t, dest := 0, slot := targetSlot s t, relayed := true }
    else none

/-- R556: a whole descriptor on the standby's flash. Marks: DEDUCED (log entry 59). -/
def relayedRuns (s : State) (u : Session) (d : UpdDesc) (bs : List Byte) : State :=
  match d.op with
  | 1 => runWrite s u d bs false
  | 2 => ownFinish s u d
  | 3 => abortSession s u
  | _ => updAnswer s u d 0x01 0 0

/-- R556: a record of the active. The status of a descriptor that the standby cannot run is not stated. -/
def relayRecord (s : State) (t : UpdTarget) (d : UpdDesc) (bs : List Byte) : State :=
  let all := s.upd.pieces ++ bs
  if d.op = 1 ∧ all.length < d.len then { s with upd := { s.upd with pieces := all } }
  else
    let s := { s with upd := { s.upd with pieces := [] } }
    match relayedSession s t with
    | none => (slSend s 0x60 true (.relayAns d.tag (Config.freeNat s.free % 256) 0 0)).tick1
    | some u => relayedRuns (setSession s u) u d (all.take d.len)

/-- RELAY_RECORD_RX. -/
def execRelayRecordRx (target : UpdTarget) (d : UpdDesc) (bytes : List Byte) (s : State) : Result :=
  .next (whenever (slUp s && s.twin.role == .standby) s (relayRecord s target d bytes))

/-- R556: the active completes a descriptor with the status that came back. -/
def relayAnswered (s : State) (tag status done detail : Nat) : State :=
  match s.upd.session with
  | none => s
  | some u =>
    match u.flight.find? (fun x => x.1.tag == tag) with
    | none => s
    | some x =>
      if u.dest ≠ 1 then s
      else
        let v := { u with flight := u.flight.erase x }
        let t := updComplete (setSession s v) x.1 status done detail
        if x.1.op = 2 then closeSession t { v with flight := [] } else t

/-! ### Frames of a downstream device (R558) -/

/-- R558: the frame is of the relay in progress: it comes from the entry's port and MAC, with its UID and SESSION, and
its AUTH verifies. -/
def relayFrameOk (s : State) (r : Relay) (p : Nat) (b : List Byte) : Bool :=
  let d := r.ds
  let len := beAt b 48 2
  s.bitAt (aDs d 0) 0 && s.fld (aDs d 0) 1 6 == p && beAt b 6 6 == s.pair (aDs d 0x04) % 2 ^ 48 &&
  slice b 20 16 == dsUid s d && beAt b 40 4 == r.session && relayKeyOk s d &&
  slice b (60 + len) 8 == relayAuth s d (slice b 14 (46 + len))

/-- R557: ACK: every DATA frame up to SEQ has arrived. Marks: DEDUCED (log entry 59). -/
def relayAck (s : State) (r : Relay) (seq : Nat) : State :=
  if seq < r.base ∨ r.next ≤ seq then s
  else relayFill 8 s.cclk s { r with base := seq + 1, out := r.out.filter (fun x => decide (seq < x.1)) }

/-- R558: a frame of SUBTYPE ACK or RESULT. -/
def relayHeard (s : State) (r : Relay) (b : List Byte) : State :=
  match byteAt b 36 with
  | 2 => relayAck s r (beAt b 38 2)
  | 4 => if r.finSent then relayEnds s r (if beAt b 50 2 = 0 then 0 else 0x10) (beAt b 50 2) else s
  | _ => s

/-- R558. -/
def relayRx (s : State) (p : Nat) (b : List Byte) : State :=
  if beAt b 12 2 ≠ 0x88B5 ∨ byteAt b 18 ≠ 2 then s
  else
    match s.upd.relay with
    | some r => if relayFrameOk s r p b then relayHeard s r b else s.bump (aUpdCnt 7)
    | none => s.bump (aUpdCnt 7)

/-- RELAY_FRAME_RX. -/
def execRelayFrameRx (port : Nat) (bytes : List Byte) (s : State) : Result := ifWf (macOk port) (relayRx s port bytes)

/-- R557: DATA frame `n` is sent again 2 ms after its last transmission; after the eighth, FINISH times out.
Marks: DEDUCED (log entry 59). -/
def relayAgain (s : State) (r : Relay) (n : Nat) : State :=
  match r.out.find? (fun x => x.1 == n) with
  | none => s
  | some x =>
    if s.cclk < x.2.2 + 2000000 then s
    else if 8 ≤ x.2.1 then relayEnds s r 0x0F 0
    else
      let t := (relaySend s r.ds s.cclk (dataFrame s r n)).bump (aUpdCnt 6)
      setRelay t { r with out := r.out.map (fun y => if y.1 = n then (n, x.2.1 + 1, s.cclk) else y) }

/-- RELAY_RETRANSMIT. -/
def execRelayRetransmit (n : Nat) (s : State) : Result :=
  .next (match s.upd.relay with | some r => relayAgain s r n | none => s)

/-! ### End of the trial window (R548, R549) -/

/-- The unit in TRIAL is at the end of its window, which counts from CCLK count 0 of the start. -/
def trialOver (s : State) : Option Nat :=
  match slotIn s .trial with
  | some k => if s.fld (aUpd 0x040) 0 16 * 10 ^ 9 ≤ s.cclk ∧ pairOk s false then some k else none
  | none => none

/-- R548: HEALTH has been 1 without a break since it was first reached. -/
def stayedHealthy (s : State) : Bool := healthNow s && s.upd.healthy && !s.upd.broke

/-- R548, R549. -/
def trialEnds (s : State) (k : Nat) : State :=
  let s := healthStep s
  if stayedHealthy s then confirmTrial s k else start .trialRevert (revertTrial s k 3)

/-- TRIAL_WINDOW_END. -/
def execTrialWindowEnd (s : State) : Result :=
  .next (match trialOver s with | some k => trialEnds s k | none => s)

end Sys2Proof.Machine
end

