-- ==== Sys2Proof/Machine/Mailbox.lean ====
section
/-!
DEFINITION. Requests of the command mailbox (R73, R74, R589): INFO, MODE_REQ (R522), TEST_REQ (R512, R513),
UPD_DECIDE (R547), ROLE_SWAP (R481) and SILT_CHECKPOINT (R77). KUM_SUBMIT is in Machine/Kum.lean.
-/
namespace Sys2Proof.Machine
open Sys2Proof

/-! ### INFO, SILT_CHECKPOINT, BUSYHIT -/

/-- INFO: the versions' layout is not in the spec, so the payload is a free value. Marks: DEDUCED (log entry 24). -/
def info (s : State) (h : HostPort) : State := (mbxRespond s h 0 (leBytes 248 (Config.freeNat s.free))).tick1

/-- INFO. -/
def execInfo (h : HostPort) (s : State) : Result := .next (mbxServe s h 1 0 (fun t => info t h))

/-- R77: MP1 signs with the DIK; without it no checkpoint is written. Marks: DEDUCED (log entry 26). -/
def mayCheckpoint (s : State) : Bool := keyValid (s.keySlot 0) && pairOk s true

/-- SILT_CHECKPOINT. -/
def execSiltCheckpoint (h : HostPort) (s : State) : Result :=
  .next (mbxServe s h 7 0 (fun t => mbxRespond (whenever (mayCheckpoint t) t (checkpointNow t)) h 0 []))

/-- BUSYHIT: a doorbell of host `h` while its mailbox is busy. -/
def execBusyhit (h : HostPort) (s : State) : Result :=
  .next (whenever (s.bitAt (aMbx h 0x044) 0) s
    (s.write { m := hostMaster h } (aMbx h 0x040) 1 (mbxDoor s h)))

/-! ### Planned swap (R481) -/

/-- A request that is answered later leaves the order; its mailbox stays BUSY. -/
def mbxTaken (s : State) (h : HostPort) : State := { s with mbx := s.mbx.filter (fun x => x != h) }

/-- R481: the active names P, its second sync point from now, and sends ROLE SWAP. -/
def swapStart (s : State) (host : Option HostPort) (test : Option Nat) (digest : Bool) : State :=
  let p := (syncCnt s + 2) % 2 ^ 32
  slSend { s with twin := { s.twin with swap := some { point := p, host := host, thenTest := test, digest := digest } } }
    0x40 true (.role 0 p s.term)

/-- R481. -/
def roleSwap (s : State) (h : HostPort) : State :=
  if s.twin.role ≠ .active then mbxRespond s h 0x10 []
  else if s.twin.sync ≠ .synced then mbxRespond s h 0x11 []
  else if s.twin.swap.isSome then mbxRespond s h 0x12 []
  else swapStart (mbxTaken s h) (some h) none false

/-- ROLE_SWAP. -/
def execRoleSwap (h : HostPort) (s : State) : Result := .next (mbxServe s h 6 0 (fun t => roleSwap t h))

/-- Bit of `LSP_CFG` that enables a condition of R514. -/
def swapCondBit : SwapCond → Nat
  | .poolLow => 0 | .noSpare => 1 | .noPipe => 2

/-- R514: the condition holds: more than 10 parse processors retired (R175), a direction without a spare, or a slot
without a pipe (R407). -/
def swapCondHolds (s : State) : SwapCond → Bool
  | .poolLow => decide (10 < (setBitsOf 64 (s.pair (aPrs 0x050))).length)
  | .noSpare => s.bitAt (aCe 0x044) 1 || s.bitAt (aCe 0x044) 2
  | .noPipe => s.bitAt (aCe 0x044) 3

/-- SWAP_CONDITION (R514): only an ACTIVE unit whose twin is SYNCED swaps. -/
def execSwapCondition (c : SwapCond) (s : State) : Result :=
  .next (whenever (s.mode == .active && s.twin.role == .active && s.twin.sync == .synced && s.twin.swap.isNone &&
      s.bitAt (aLsp 0x040) (swapCondBit c) && swapCondHolds s c) s (swapStart s none none false))

/-! ### MODE_REQ (R522) -/

/-- A MODE_REQ of TARGET `t`; one with a TARGET outside 0x1 to 0x5 is answered BAD_TARGET by each of the commands. -/
def modeReq (t : Nat) (s : State) (h : HostPort) (act : State → State) : State :=
  let tg := mbxByte s h 8
  mbxServe s h 2 2 (fun u =>
    if tg = 0 ∨ 5 < tg then mbxRespond u h 0x17 []
    else if tg ≠ t then u
    else if u.power.entry.isSome then mbxRespond u h 0x15 []
    else act u)

/-- ADDR of a mode change that a host asked for (R521). -/
def reqAddr (h : HostPort) : Nat := masterId (hostMaster h) * 2 ^ 8

/-- BAR0 offset of a WAKE register. -/
def aWake (off : Nat) : Nat := regAddr pWake off

/-- Pin `k` is an enabled wake source (Table 17-11) and at its active level. No command tells the levels of the pins
while the unit is awake, so an enabled one may be found either way. -/
def pinAsserted (s : State) (k : Nat) : Bool := s.bitAt (aWake 0x040) (4 * k) && Config.freeBool (s.free + k)

/-- An enabled wake source is asserted. Marks: DEDUCED (log entry 56). -/
def wakePending (s : State) : Bool := (List.range 8).any (pinAsserted s)

/-- R522: why a SLEEP request is refused. -/
def sleepRefusal (s : State) (deep force : Bool) : Nat :=
  if !(s.mode = .configure ∨ s.mode = .active ∨ s.mode = .degraded ∨ s.mode = .standby) then 0x10
  else if s.mode = .active ∧ !force then 0x12
  else if wakePending s then 0x14
  else if deep ∧ siltUnfreed s ≠ 0 ∧ !force then 0x16
  else 0

/-- Table 17-3, row 0: the entry starts with the response OK and its Silt entry. -/
def sleepStarts (s : State) (h : HostPort) (deep : Bool) : State :=
  let m : Mode := if deep then .sleepDeep else .sleepRetain
  let t := { s with power := { s.power with
    entry := some { deep := deep, at_ := s.cclk, stage := .responded, by_ := masterId (hostMaster h) } } }
  (mbxRespond t h 0 []).silt_ (w32 (modeCode s.mode)) (w32 (modeCode m)) 3 6 1 (reqAddr h)

/-- A SLEEP request. -/
def sleepReq (s : State) (h : HostPort) (deep : Bool) : State :=
  let force := bit (mbxByte s h 9) 0
  let t := { s with free := s.free + 8 }
  match sleepRefusal s deep force with
  | 0 => sleepStarts t h deep
  | c => mbxRespond (if c = 0x14 then t.bump (aWake 0x108) else t) h c []

/-- MODE_REQ SLEEP_RETAIN. -/
def execModeReqSleepRetain (h : HostPort) (s : State) : Result := .next (modeReq 1 s h (fun t => sleepReq t h false))

/-- MODE_REQ SLEEP_DEEP. -/
def execModeReqSleepDeep (h : HostPort) (s : State) : Result := .next (modeReq 2 s h (fun t => sleepReq t h true))

/-- Table 17-1: entry to SERVICE, role NONE. -/
def enterService (s : State) (sub addr : Nat) : State := setMode (roleNone s) .service 3 sub addr

/-- R522, SERVICE: from ACTIVE with VIA_TWIN = 1 after a swap. Marks: DEDUCED (log entry 24). -/
def serviceReq (s : State) (h : HostPort) : State :=
  let via := bit (mbxByte s h 9) 1
  if s.mode = .configure ∨ s.mode = .standby then enterService (mbxRespond s h 0 []) 1 (reqAddr h)
  else if s.mode = .active ∧ via then
    if s.twin.sync ≠ .synced then mbxRespond s h 0x11 []
    else if s.twin.swap.isSome then mbxRespond s h 0x15 []
    else swapStart (mbxTaken s h) (some h) (some 0) false
  else mbxRespond s h 0x10 []

/-- MODE_REQ SERVICE. -/
def execModeReqService (h : HostPort) (s : State) : Result := .next (modeReq 3 s h (fun t => serviceReq t h))

/-- R522: RESET: the response, the checkpoint of R77, and the start. -/
def resetReq (s : State) (h : HostPort) : State :=
  let t := mbxRespond s h 0 []
  start .modeReq (whenever (mayCheckpoint t) t (checkpointNow t))

/-- R522: PWR itself serves RESET, in every mode in which a host can write a doorbell. -/
def modeReset (s : State) (h : HostPort) : State :=
  let tg := mbxByte s h 8
  if !mbxFront s h 2 ∨ asleep s.mode then s
  else if s.mode = .quarantine ∧ tg ≠ 4 then mbxRespond s h 3 []
  else if mbxBadLen s h 2 then mbxRespond s h 2 []
  else if tg = 0 ∨ 5 < tg then mbxRespond s h 0x17 []
  else if tg ≠ 4 then s
  else if s.power.entry.isSome then mbxRespond s h 0x15 []
  else resetReq s h

/-- MODE_REQ RESET. -/
def execModeReqReset (h : HostPort) (s : State) : Result := .next (modeReset s h)

/-- R534: RUN. -/
def runReq (s : State) (h : HostPort) : State :=
  if s.mode = .configure ∧ s.power.runWait then
    mbxRespond { s with power := { s.power with runWait := false, configured := true } } h 0 []
  else mbxRespond s h 0x10 []

/-- MODE_REQ RUN. -/
def execModeReqRun (h : HostPort) (s : State) : Result := .next (modeReq 5 s h (fun t => runReq t h))

/-! ### TEST_REQ (R512, R513) -/

/-- R512: KAT and SCRUB. What a test finds is the die's. Marks: DESIGN CHOICE (log entry 55). -/
def lightTests (s : State) (tests : Nat) : State × Nat :=
  let kat := bit tests 2
  let scrub := bit tests 3
  let katPass := Config.freeBool s.free
  let scrubPass := Config.freeBool (s.free + 1)
  let t := { s with free := s.free + 2 }
  let t := if scrub then ((List.range 12).filter (fun r => r != 10)).foldl scrubs t else t
  let v := (t.reg (aLsp 0x050)).toNat
  let v := if kat then putBits v 4 2 (1 + 2 * b2n katPass) else v
  let v := if scrub then putBits v 6 1 1 else v
  let t := ((t.setReg (aLsp 0x050) (w32 v)).setReg (aLsp 0x054) (w32 t.nvm.bootCount)).raise pLsp 4
  (t, (if kat && katPass then 4 else 0) + (if scrub && scrubPass then 8 else 0))

/-- R513, steps 3 to 5: the tests run in SERVICE, their results go to NVM, and the unit resets.
Marks: DESIGN CHOICE (log entry 55). -/
def destructiveTests (s : State) (tests : Nat) : State :=
  let f (i : Nat) : Bool := Config.freeBool (s.free + i)
  let one (b i lo : Nat) : Nat := if bit tests b then 2 ^ lo + b2n (f i) * 2 ^ (lo + 1) else 0
  let first := if bit tests 0 && !f 0 then Config.freeNat (s.free + 4) % 2 ^ 16 * 2 ^ 16 else 0
  let r := one 0 0 0 + one 1 1 2 + one 2 2 4 + (if bit tests 3 then 2 ^ 6 else 0) + first
  start .test { s with free := s.free + 5, nvm := { s.nvm with testRes := r, testBoot := s.nvm.bootCount } }

/-- R513 from step 2 on. -/
def destructive (s : State) (h : HostPort) (tests : Nat) : State :=
  destructiveTests (mbxRespond (enterService s 2 (reqAddr h)) h 0 []) tests

/-- Table 16-9. Marks: DESIGN CHOICE (log entry 55). -/
def testRun (s : State) (h : HostPort) : State :=
  let tests := mbxByte s h 8
  let via := bit (mbxByte s h 9) 0
  if s.faults.testBusy then mbxRespond s h 0x12 []
  else if tests % 4 = 0 then
    match lightTests s tests with
    | (t, r) => mbxRespond t h 0 [b8 r]
  else if s.mode = .configure ∨ s.mode = .standby ∨ s.mode = .service then destructive s h tests
  else if s.mode = .active ∧ via then
    if s.twin.sync ≠ .synced then mbxRespond s h 0x11 []
    else if s.twin.swap.isSome then mbxRespond s h 0x12 []
    else
      let t := swapStart (mbxTaken s h) (some h) (some tests) false
      { t with faults := { t.faults with testBusy := true } }
  else mbxRespond s h 0x10 []

/-- Table 16-9 in BOOT, where a request can reach the test controller: TEST_DENIED. Marks: DEDUCED (log entry 24). -/
def testReq (s : State) (h : HostPort) : State :=
  if s.mode = .boot ∧ mbxFront s h 3 then
    (if mbxBadLen s h 2 then mbxRespond s h 2 [] else mbxRespond s h 0x10 [])
  else mbxServe s h 3 2 (fun t => testRun t h)

/-- TEST_REQ. -/
def execTestReq (h : HostPort) (s : State) : Result := .next (testReq s h)

/-! ### UPD_DECIDE (R547) -/

/-- A UPD_DECIDE of DECISION `n`. -/
def updDecide (n len : Nat) (s : State) (h : HostPort) (act : State → State) : State :=
  if mbxByte s h 8 = n then mbxServe s h 5 len act else s

/-- Table 18-9: why ACTIVATE is refused, and the READY slot. Marks: DEDUCED (log entry 24). -/
def activateRefusal (s : State) : Nat :=
  if (slotIn s .ready).isNone then 0x10
  else if s.upd.session.isSome then 0x13
  else if inTrial s then 0x14
  else if siltFull s then 0x11 else 0

/-- A READY slot becomes PENDING. -/
def activated (s : State) : State :=
  match slotIn s .ready with
  | none => s
  | some k =>
    let t := markSlot s k .pending
    let b := (codeSlot t k).build
    siltUpd { t with nvm := { t.nvm with pendingSlot := some k } } oUpdate 3 k 0 b b

/-- The answer of a UPD_DECIDE that R79 or Table 18-9 refuses. -/
def updRefused (s : State) (h : HostPort) (c : Nat) (silt : Bool) : State :=
  mbxRespond (if silt then s.siltRefused else s) h c []

/-- ACTIVATE. -/
def activateReq (s : State) (h : HostPort) : State :=
  match activateRefusal s with
  | 0 => mbxRespond (activated s) h 0 []
  | c => updRefused s h c (decide (c = 0x11))

/-- UPD_ACTIVATE. -/
def execUpdActivate (h : HostPort) (s : State) : Result := .next (updDecide 1 2 s h (fun t => activateReq t h))

/-- ACTIVATE_RESET. -/
def activateResetReq (s : State) (h : HostPort) : State :=
  match activateRefusal s with
  | 0 => if s.mode = .active ∧ !bit (mbxByte s h 9) 0 then mbxRespond s h 0x12 [] else resetReq (activated s) h
  | c => if c = 0x11 ∧ s.mode = .active ∧ !bit (mbxByte s h 9) 0 then mbxRespond s h 0x12 []
         else updRefused s h c (decide (c = 0x11))

/-- UPD_ACTIVATE_RESET. -/
def execUpdActivateReset (h : HostPort) (s : State) : Result := .next (updDecide 2 2 s h (fun t => activateResetReq t h))

/-- CANCEL. -/
def cancelReq (s : State) (h : HostPort) : State :=
  match slotIn s .pending with
  | none => mbxRespond s h 0x10 []
  | some k =>
    if siltFull s then updRefused s h 0x11 true
    else
      let t := markSlot s k .ready
      let b := (codeSlot t k).build
      mbxRespond (siltUpd { t with nvm := { t.nvm with pendingSlot := none } } oUpdate 3 k 0 b b) h 0 []

/-- UPD_CANCEL. -/
def execUpdCancel (h : HostPort) (s : State) : Result := .next (updDecide 3 2 s h (fun t => cancelReq t h))

/-- VETO: the revert of R549. -/
def vetoReq (s : State) (h : HostPort) : State :=
  match slotIn s .trial with
  | none => mbxRespond s h 0x11 []
  | some k =>
    if siltFull s then updRefused s h 0x11 true
    else
      let b := (codeSlot s k).build
      start .trialRevert (revertTrial (mbxRespond (siltUpd s oUpdate 4 k 0 b b) h 0 []) k 4)

/-- UPD_VETO. -/
def execUpdVeto (h : HostPort) (s : State) : Result := .next (updDecide 4 2 s h (fun t => vetoReq t h))

/-- OEM_KEY_SET: OEM_CFG_HASH is programmed. -/
def oemKeyReq (s : State) (h : HostPort) : State :=
  if lcState s ≠ 0 then mbxRespond s h 0x15 []
  else if beNat (oemHash s) ≠ 0 then mbxRespond s h 0x16 []
  else if siltFull s then updRefused s h 0x11 true
  else
    let bs := mbxBytes s h 16 32
    let t := (bs.zipIdx).foldl (fun (u : State) x => otpProgram u (0x88 + x.2) x.1) s
    mbxRespond (siltUpd t oUpdate 0x0D 0 0 0 0) h 0 []

/-- OEM_KEY_SET. -/
def execOemKeySet (h : HostPort) (s : State) : Result := .next (updDecide 5 40 s h (fun t => oemKeyReq t h))

end Sys2Proof.Machine
end

