-- ==== Sys2Proof/Machine/Kum.lean ====
section
/-!
DEFINITION. Key Update Messages and the lifecycle (spec/14_keys_and_lifecycle.md, R433 to R443).
-/
namespace Sys2Proof.Machine
open Sys2Proof

/-! ### Fields of a KUM (Table 14-5) -/

/-- OP. -/
def kumOp (m : List Byte) : Nat := byteAt m 5
/-- AUTH. -/
def kumAuth (m : List Byte) : Nat := bits (byteAt m 6) 0 3
/-- CNT. -/
def kumCnt (m : List Byte) : Nat := bits (byteAt m 7) 0 5
/-- CVAL. -/
def kumCval (m : List Byte) : Nat := beAt m 8 4
/-- TARGET. -/
def kumTarget (m : List Byte) : Nat := bits (beAt m 28 2) 0 10
/-- New lifecycle state of an LC_ADVANCE. -/
def kumNewLc (m : List Byte) : Nat := bits (beAt m 28 2) 0 2
/-- PARENT. -/
def kumParent (m : List Byte) : Nat := bits (beAt m 30 2) 0 10
/-- PARENT_V. -/
def kumParentV (m : List Byte) : Bool := bit (beAt m 30 2) 15
/-- ATTR. -/
def kumAttr (m : List Byte) : Nat := beAt m 32 4
/-- PLEN. -/
def kumPlen (m : List Byte) : Nat := beAt m 36 2
/-- PAYLOAD. -/
def kumPayload (m : List Byte) : List Byte := slice m 40 (kumPlen m)
/-- TAG. -/
def kumTag (m : List Byte) : List Byte := slice m (40 + kumPlen m) 16

/-- TYPE of the key that ATTR asks for. -/
def kumType (m : List Byte) : Nat := bits (kumAttr m) 1 3

/-- The KUM that a host's request area holds. -/
def kumBytes (s : State) (h : HostPort) : List Byte := mbxBytes s h 8 (mbxLen s h)

/-- OP of a request: the one its KUM names, 0 when the KUM is too short to hold one. -/
def kumReqOp (s : State) (h : HostPort) : Nat := if mbxLen s h < 6 then 0 else kumOp (kumBytes s h)

/-! ### Keys of a KUM (R434, R435) -/

/-- The ECDH secret of a FIRST; none when the ephemeral point is not on the curve. -/
def firstZ (s : State) (m : List Byte) : Option (List Byte) :=
  Config.ecdh false (s.keySlot 0).key (slice m 40 64)

/-- K_A, or K_F, with the type of its key. -/
def kumRoot (s : State) (m : List Byte) : Nat × List Byte :=
  if kumOp m = 5 then (3, kdf 3 ((firstZ s m).getD []) (ascii "KUM-FIRST") s.uid 256)
  else let x := s.keySlot (2 + kumAuth m); (keyType x, x.key)

/-- K_MAC. -/
def kumMacKey (s : State) (m : List Byte) : List Byte :=
  kdf (kumRoot s m).1 (kumRoot s m).2 (ascii "KUM-MAC") s.uid 256

/-- K_KEK. -/
def kumKek (s : State) (m : List Byte) : List Byte :=
  kdf (kumRoot s m).1 (kumRoot s m).2 (ascii "KUM-KEK") s.uid 256

/-- The wrapped key of an INSTALL or a FIRST. -/
def kumWrapped (m : List Byte) : List Byte :=
  if kumOp m = 5 then (kumPayload m).drop 64 else kumPayload m

/-- The key that it unwraps to. -/
def kumUnwrapped (s : State) (m : List Byte) : Option (List Byte) := Config.keyUnwrap (kumKek s m) (kumWrapped m)

/-- The key of a DERIVE (Table 14-6). -/
def kumDerived (s : State) (m : List Byte) : List Byte :=
  let p := s.keySlot (kumParent m)
  let ctx := s.uid ++ beBytes 2 (kumTarget m)
  let ty := kumType m
  if ty = 5 ∨ ty = 6 then kdfScalar (keyType p) p.key (kumPayload m) ctx (ty == 6)
  else kdf (keyType p) p.key (kumPayload m) ctx (8 * keyBytes ty)

/-! ### Checks (Table 14-7) -/

/-- Check 1. The payload lengths are those of Table 14-6; the wrapped key of an INSTALL is judged by checks 11
and 12. -/
def kumFormat (s : State) (m : List Byte) : Bool :=
  let op := kumOp m
  let n := kumPlen m
  beAt m 0 4 == 0x4B554D31 && byteAt m 4 == 1 && decide (1 ≤ op ∧ op ≤ 5) && m.length == 56 + n &&
  (op == 1 || (op == 2 && decide (8 ≤ n ∧ n ≤ 64)) || ((op == 3 || op == 4) && n == 0) ||
    (op == 5 && n == 104 && (firstZ s m).isSome))

/-- R442, Table 14-9: the change of the lifecycle that an LC_ADVANCE asks for exists. -/
def lcMove (cur new : Nat) : Bool :=
  (cur == 0 && new == 1) || (cur == 0 && new == 3) || (cur == 1 && new == 3) || (cur == 1 && new == 2) || (cur == 2 && new == 3)

/-- Table 14-9: the change to SCRAP out of RETURN, which ignores AUTH, CNT, CVAL and TAG.
Marks: DEDUCED (log entry 46). -/
def kumFreeScrap (s : State) (m : List Byte) : Bool := kumOp m == 4 && lcState s == 2 && kumNewLc m == 3

/-- Check 3: lifecycle state and mode (Table 14-9, R435, R440, R444, R449). -/
def kumPermitted (s : State) (m : List Byte) : Bool :=
  let lc := lcState s
  let scrap := kumOp m == 4 && kumNewLc m == 3
  (if kumOp m = 4 then lcMove lc (kumNewLc m) else if kumOp m = 5 then lc == 0 else decide (lc < 2)) &&
  (s.mode != .quarantine || scrap) && (!s.nvm.huskTripped || (scrap && kumAuth m == 0))

/-- Check 4. -/
def kumAuthOk (s : State) (m : List Byte) : Bool :=
  let x := s.keySlot (2 + kumAuth m)
  keyValid x && bit x.attr.toNat uKUM

/-- Check 5. -/
def kumTagOk (s : State) (m : List Byte) : Bool :=
  beBytes 16 (Config.cmac (kumMacKey s m) (m.take (40 + kumPlen m))).toNat == kumTag m

/-- Check 6 (R435, R436): for FIRST the domain is the target authority's. -/
def kumDomain (m : List Byte) : Bool :=
  if kumOp m = 5 then kumCnt m / 4 + 2 == kumTarget m else kumCnt m / 4 == kumAuth m

/-- A KUM counter. -/
def kumCtr (s : State) (c : Nat) : Nat := Tab.get (fun _ => 0) s.nvm.kumCtr c

/-- Check 7. -/
def kumFresh (s : State) (m : List Byte) : Bool :=
  decide (kumCtr s (kumCnt m) < kumCval m ∧ kumCtr s (kumCnt m) < 0xFFFFFFFF)

/-- The MKA pool. -/
def inPool (s : State) (k : Nat) : Bool :=
  let b := s.fld (aCe 0x054) 0 10
  decide (b ≤ k ∧ k < b + s.fld (aCe 0x054) 16 10)

/-- Check 8 (R435, R438). -/
def kumTargetOk (s : State) (m : List Byte) : Bool :=
  let k := kumTarget m
  let x := s.keySlot k
  let auth := decide (2 ≤ k ∧ k ≤ 9)
  let user := decide (16 ≤ k ∧ k < 512) && !inPool s k
  if kumOp m = 4 then kumAuth m == 0
  else if kumOp m = 5 then auth && !keyValid x
  else if kumAuth m = 0 then auth || user
  else user && (!keyValid x || fld x.attr 27 3 == kumAuth m)

/-- Whether the operation writes a key. -/
def kumWrites (m : List Byte) : Bool := kumOp m == 1 || kumOp m == 2 || kumOp m == 5

/-- R432: with TARGET below PARENT, no slot that lies below TARGET gets more than 4 ancestors. -/
def chainsFit (s : State) (target parent : Nat) : Bool :=
  let up := 1 + (ancestors s 4 parent).length
  decide (up ≤ 4) && s.keys.slots.all fun (k, x) =>
    let as := ancestors s 4 k
    !keyValid x || !as.contains target || decide (as.idxOf target + 1 + up ≤ 4)

/-- Check 9 (R432). A DERIVE names a parent. Marks: DEDUCED (log entry 46). -/
def kumParentOk (s : State) (m : List Byte) : Bool :=
  let p := kumParent m
  if !kumWrites m then true
  else if !kumParentV m then kumOp m != 2
  else keyValid (s.keySlot p) && p != kumTarget m && !(ancestors s 4 p).contains (kumTarget m) &&
    chainsFit s (kumTarget m) p

/-- Usage bits that Table 14-4 permits for a type. -/
def typeUsage : Nat → Nat
  | 1 => 0x0CF | 2 => 0x1CF | 3 => 0x084 | 4 => 0x084 | 5 => 0x030 | 6 => 0x030 | _ => 0

/-- R425: an attribute word may stand in a slot. -/
def attrOk (k a : Nat) : Bool :=
  let ty := bits a 1 3
  let use := bits a 16 9
  let kum := bit use 8
  decide (1 ≤ ty ∧ ty ≤ 6) && use &&& typeUsage ty == use &&
  (if 2 ≤ k ∧ k ≤ 9 then use == 0 || use == 0x100 else !kum) &&
  (!kum || bits a 4 6 == 0) && (!bit use 6 || bit a 8) && !bit a 15

/-- Check 10, with the values that Table 14-5 asks of ATTR. Marks: DEDUCED (log entry 46). -/
def kumAttrOk (m : List Byte) : Bool :=
  let a := kumAttr m
  if !kumWrites m then a == 0
  else bit a 0 && !bit a 14 && bits a 25 7 == 0 && attrOk (kumTarget m) a &&
    (kumOp m != 5 || (kumType m == 2 && bits a 16 9 == 0x100))

/-- Check 11. -/
def kumUnwraps (s : State) (m : List Byte) : Bool :=
  if kumOp m = 2 then bit (s.keySlot (kumParent m)).attr.toNat uDERIVE
  else if kumWrites m then (kumUnwrapped s m).isSome else true

/-- Check 12. -/
def kumLength (s : State) (m : List Byte) : Bool :=
  if kumOp m = 1 ∨ kumOp m = 5 then ((kumUnwrapped s m).getD []).length == keyBytes (kumType m) else true

/-- Check 13 (R429): an invalidation still goes on at the last generation. -/
def kumGenOk (s : State) (m : List Byte) : Bool := !kumWrites m || decide ((s.keySlot (kumTarget m)).gen < 0xFFFF)

/-- R437: the first check that fails, as the mailbox STATUS; 0 when none does. Whether the write
of NVM fails is a free value. Marks: DEDUCED (log entry 46), DESIGN CHOICE (log entry 48). -/
def kumRefusal (s : State) (m : List Byte) : Nat :=
  let fs := kumFreeScrap s m
  if !kumFormat s m then 0x10
  else if slice m 12 16 ≠ s.uid then 0x11
  else if !kumPermitted s m then 0x12
  else if fs then 0
  else if kumOp m ≠ 5 ∧ !kumAuthOk s m then 0x13
  else if !kumTagOk s m then 0x14
  else if !kumDomain m then 0x15
  else if !kumFresh s m then 0x16
  else if !kumTargetOk s m then 0x17
  else if !kumParentOk s m then 0x18
  else if !kumAttrOk m then 0x1B
  else if !kumUnwraps s m then 0x19
  else if !kumLength s m then 0x1A
  else if !kumGenOk s m then 0x1C
  else if siltFull s then 0x1F
  else if Config.nvmFails s.free then 0x1D
  else 0

/-! ### Effects (R439) -/

/-- `KEY_KUM_LAST` and KUM_DONE. -/
def kumDone (s : State) (m : List Byte) (status : Nat) : State :=
  (s.setReg (aKey 0x05C) (w32 (status + kumOp m * 2 ^ 8 + kumTarget m * 2 ^ 16))).raise (pKey 0) 0

/-- R437: a refused KUM. Marks: DEDUCED (log entry 46). -/
def kumRefused (s : State) (h : HostPort) (m : List Byte) (status : Nat) : State :=
  let s := if status = 0x1F then s.siltRefused else s
  mbxRespond (kumDone (s.bump (aKeyCnt 1)) m status) h status []

/-- R439, step 1. -/
def kumCount (s : State) (m : List Byte) : State :=
  { s with nvm := { s.nvm with kumCtr := Tab.set (fun _ => 0) s.nvm.kumCtr (kumCnt m) (kumCval m) } }

/-- R439: the response: TARGET, GEN and the counter. -/
def kumAnswer (s : State) (h : HostPort) (m : List Byte) (gen : Nat) : State :=
  mbxRespond (kumDone (s.bump (aKeyCnt 0)) m 0) h 0
    (leBytes 2 (kumTarget m) ++ leBytes 2 gen ++ leBytes 4 (kumCtr s (kumCnt m)))

/-- R439, R441: an accepted KUM that changes its TARGET by `f`; `blob` is what becomes of the slot's blob.
Marks: DEDUCED (log entry 46). -/
def kumChange (s : State) (h : HostPort) (m : List Byte) (sub : Nat) (f : KeySlot → KeySlot) (keep : Bool) : State :=
  let k := kumTarget m
  let g := (s.keySlot k).gen
  let t := changeSlot (eraseBlob (kumCount s m) k) k f
  let t := if keep then writeBlob t k else t
  let g' := (t.keySlot k).gen
  let t := siltKey t 6 sub k (g + kumCnt m * 2 ^ 16 + kumAuth m * 2 ^ 21) (g' + kumCval m % 2 ^ 16 * 2 ^ 16)
  kumAnswer t h m g'

/-- A slot with a key written: ATTR with ORIGIN and OWNER_AUTH, LINK with the parent's generation (R431). -/
def kumSlot (s : State) (m : List Byte) (origin owner : Nat) (key : List Byte) (x : KeySlot) : KeySlot :=
  { x with
    attr := w32 (kumAttr m + origin * 2 ^ 25 + owner * 2 ^ 27)
    link := w32 (if kumParentV m then kumParent m + 2 ^ 15 + (s.keySlot (kumParent m)).gen * 2 ^ 16 else 0)
    key := key }

/-- R450: the authority's slot is read before check 4. -/
def kumReads (s : State) (m : List Byte) : State :=
  if kumFormat s m && slice m 12 16 == s.uid && kumPermitted s m && !kumFreeScrap s m && kumOp m != 5 then
    (readSlot s (2 + kumAuth m)).1
  else s

/-- KUM_SUBMIT with an OP: the request at the front is served by the OP that its KUM names, and a KUM that names none
by each. -/
def kumServe (s : State) (h : HostPort) (op : Nat) (act : State → List Byte → State) : State :=
  let o := kumReqOp s h
  let m := kumBytes s h
  if !mbxFront s h 4 ∨ s.mode = .boot ∨ asleep s.mode then s
  else if 248 < mbxLen s h then mbxRespond s h 2 []
  else if 1 ≤ o ∧ o ≤ 5 ∧ o ≠ op then s
  else if s.mode = .quarantine ∧ !pairOk s true then mbxRespond s h 3 []
  else
    let s := (kumReads s m).tick1
    let c := kumRefusal s m
    if c = 0 then act s m else kumRefused s h m c

/-- KUM_INSTALL. -/
def execKumInstall (h : HostPort) (s : State) : Result :=
  .next (kumServe s h 1 (fun t m => kumChange t h m 1 (kumSlot t m 1 (kumAuth m) ((kumUnwrapped t m).getD [])) true))

/-- KUM_DERIVE. -/
def execKumDerive (h : HostPort) (s : State) : Result :=
  .next (kumServe s h 2 (fun t m => kumChange t h m 2 (kumSlot t m 2 (kumAuth m) (kumDerived t m)) true))

/-- KUM_INVALIDATE. -/
def execKumInvalidate (h : HostPort) (s : State) : Result :=
  .next (kumServe s h 3 (fun t m => (kumChange t h m 3 invalidSlot false).bump (aKeyCnt 2)))

/-- KUM_FIRST: AUTH is ignored, so no authority wrote the slot, and OWNER_AUTH is a free value. -/
def execKumFirst (h : HostPort) (s : State) : Result :=
  .next (kumServe s h 5 (fun t m => kumChange t.tick1 h m 4 (kumSlot t m 1 (Config.freeNat t.free % 8) ((kumUnwrapped t m).getD [])) true))

/-! ### Lifecycle (R442, R443) -/

/-- Slots cleared in place: no key, no attributes, generation 0 (R429). -/
def clearSlot (s : State) (k : Nat) : State :=
  let g := (s.keySlot k).gen
  let t := s.setKeySlot k {}
  if g = 0 then t else authGenChange t k

/-- All slots cleared, or all but KS0. -/
def clearSlots (s : State) (keepDik : Bool) : State :=
  (s.keys.slots.filter (fun x => !keepDik || x.1 != 0)).foldl (fun t x => clearSlot t x.1) s

/-- Table 14-9, Action. -/
def lcAction (s : State) (new : Nat) : State :=
  if new = 3 then
    let t := clearSlots s false
    { t with nvm := { t.nvm with blobs := [], certErased := true } }
  else if new = 2 then
    let t := (clearSlots s true).setKeySlot 1 { attr := 0x00001C05, key := kdf 0 s.keys.seed (ascii "BLOB") s.uid 256 }
    { t with nvm := { t.nvm with blobs := [] } }
  else s

/-- R443, steps 2 to 4, after the OTP bit. The Silt entry and its checkpoint are written while KS0 can still sign. -/
def lcFollow (s : State) (h : HostPort) (m : List Byte) (gen : Nat) : State :=
  let t := whenever (mayCheckpoint s) s (checkpointNow s)
  let t := kumAnswer (lcAction t (kumNewLc m)) h m gen
  let t := { t with keys := { t.keys with graceEnd := some (s.cclk + s.fld (regAddr pLc 0x044) 0 16 * 1000000) } }
  quarantine (t.raise pLc 0) 0x46 3 7 0

/-- R443: an accepted LC_ADVANCE. It changes no slot that TARGET names, so the generations of its Silt entry and of its
response are free. Marks: DEDUCED (log entry 46). -/
def lcAdvance (s : State) (h : HostPort) (m : List Byte) : State :=
  let new := kumNewLc m
  let fs := kumFreeScrap s m
  let f := Config.freeNat s.free
  let g := f % 2 ^ 16
  let g' := f / 2 ^ 16 % 2 ^ 16
  let t := if fs then s else kumCount s m
  let t := otpProgram t 0xA8 (if new = 1 then 1 else if new = 2 then 2 else 4)
  let t :=
    if fs then siltKey t oHw 5 new g g'
    else siltKey t 6 5 new (g + kumCnt m * 2 ^ 16 + kumAuth m * 2 ^ 21) (g' + kumCval m % 2 ^ 16 * 2 ^ 16)
  lcFollow t.tick1 h m g'

/-- KUM_LC_ADVANCE. -/
def execKumLcAdvance (h : HostPort) (s : State) : Result := .next (kumServe s h 4 (fun t m => lcAdvance t h m))

/-- LC_GRACE_RESET (R443). -/
def execLcGraceReset (s : State) : Result :=
  .next (match s.keys.graceEnd with
    | some g => whenever (decide (g ≤ s.cclk)) s (start .lifecycle s)
    | none => s)

end Sys2Proof.Machine
end

