-- ==== Sys2Proof/Machine/PowerEvents.lean ====
section
/-!
DEFINITION. Sleep entry and wake (spec/17, R523 to R529), power-on and the reset pin (R530), supply sequencing (R571),
the Husk line (R446 to R448, R572), TC10 and LIN wake signals (Table 4-4, R338), and a host link going down (R49).
-/
namespace Sys2Proof.Machine
open Sys2Proof

/-! ### Host links (R49) -/

/-- R49: pages and semaphores of the host are released, its rings stop, and its update session ends.
Marks: DESIGN CHOICE (log entry 69). -/
def hostLinkGone (s : State) (h : HostPort) : State :=
  let t := releaseOwned s (masterId (hostMaster h))
  let t := updOwnerGone (hostRingsStop t h) (hostMaster h)
  t.setReg (regAddr (pHif h 0) 0x040) 0

/-- HOST_LINK_DOWN. -/
def execHostLinkDown (h : HostPort) (s : State) : Result := .next (whenever (!asleep s.mode) s (hostLinkGone s h))

/-! ### Sleep entry (Table 17-3) -/

/-- The cycle of the stop. -/
def entryStopAt (e : SleepEntry) : Nat := e.at_ + 20000

/-- The cycle in which the drain ends. -/
def entryDrainAt (s : State) (e : SleepEntry) : Nat := entryStopAt e + s.fld (aPwr 0x044) 0 16 * 1000

/-- The state with the stage of its sleep entry changed. -/
def setStage (s : State) (e : SleepEntry) (g : EntryStage) : State :=
  { s with power := { s.power with entry := some { e with stage := g } } }

/-- Row 20 of Table 17-3. Marks: DEDUCED (log entry 56). -/
def entryStops (s : State) (e : SleepEntry) : State :=
  let t := { (setStage s e .stopped) with fab := { s.fab with stopped := true } }
  let t := (List.range 24).foldl canSleepEntry t
  if t.bitAt (aPwr 0x044) 17 then
    ((List.range 16).filter (tc10En t)).foldl tc10Negotiate t
  else t

/-- SLEEP_ENTRY_STOP. -/
def execSleepEntryStop (s : State) : Result :=
  .next (match s.power.entry with
    | some e => whenever (e.stage == .responded && decide (entryStopAt e ≤ s.cclk)) s (entryStops s e)
    | none => s)

/-- Copies of a port are flushed, and one that is UP leaves UP. -/
def entryDrainsPort (s : State) (p : Nat) : State :=
  if portUp s p then leaveUp s p .train else startFlush s p

/-- SLEEP_DRAIN_END. -/
def execSleepDrainEnd (s : State) : Result :=
  .next (match s.power.entry with
    | some e => whenever (e.stage == .stopped && decide (entryDrainAt s e ≤ s.cclk)) s
        ((List.range 52).foldl entryDrainsPort (setStage s e .drained))
    | none => s)

/-- Rows of the checkpoint and of the fall of ALIVE: TERM goes to NVM, the hosts' links go down, armed
commits are discarded (R61), and the mode is SLEEP. Its Silt entry was written with the response. -/
def entrySleeps (s : State) (e : SleepEntry) : State :=
  let t := whenever (mayCheckpoint s) s (checkpointNow s)
  let t := { t with nvm := { t.nvm with term := t.term } }
  let t := swapAnswer t 0x13
  let t := aliveFall { t with twin := { t.twin with swap := none, sync := .none, taskAt := none } }
  let t := hostLinkGone (hostLinkGone t .a) .b
  let t := discardCommits { (setStage t e .asleep) with mode := if e.deep then .sleepDeep else .sleepRetain }
  let t := { t with power := { t.power with before := s.mode, lastDeep := e.deep } }
  (t.bump (aPwrCnt (if e.deep then 2 else 1))).raise pPwr 0

/-- SLEEP_CHECKPOINT_DONE. -/
def execSleepCheckpointDone (s : State) : Result :=
  .next (match s.power.entry with
    | some e => whenever (e.stage == .drained) s (entrySleeps s e)
    | none => s)

/-! ### Supplies and wake -/

/-- Table 17-4, SLEEP-DEEP: what is lost: all but the AON domain, NVM, OTP and flash.
Marks: DEDUCED (log entry 56). -/
def deepLoss (s : State) : State :=
  { pending := s.pending
    cclk := s.cclk
    mode := s.mode
    regs := s.regs.filter (fun x => keptReg .deepWake x.1)
    silt := {}
    power := s.power
    twin := { twinB := Config.twinStrap }
    nvm := s.nvm
    out := s.out
    free := s.free }

/-- A channel whose bus was never idle is cut off with the supplies. -/
def canCut (s : State) (n : Nat) : State :=
  let c := s.can n
  if canAwake c.mode then s.setCan n { c with mode := .sleep, before := c.mode, next := none } else s

/-- Table 17-4, SLEEP-RETAIN: the packet buffer, the SerDes lanes and the PHYs go off; the rest is kept. -/
def retainLoss (s : State) : State :=
  let t := (List.range 24).foldl canCut s
  let t := if t.sl.up = 0 then t else slLeavesUp { t with sl := { t.sl with up := 0 } }
  { t with frames := [], fab := { ready := false, stopped := true } }

/-- The last row of Table 17-3. -/
def suppliesGo (s : State) (deep : Bool) : State :=
  let t := if deep then deepLoss s else retainLoss s
  { t with power := { t.power with
      entry := none, supplies := false, mainEn := false, retEn := !deep, sleptNs := 0, retries := 0 } }

/-- Sleep-counter ticks while CCLK is stopped: those counted, the 700 µs of Table 17-5, and the 110 ms of each step that
was begun again. A wake latched during entry has its time 0 before the clock stops, so its count is a free value.
Marks: DEDUCED (log entry 56). -/
def sleptTicks (s : State) : Nat :=
  if s.power.late then Config.freeNat s.free % 17501
  else s.power.sleptNs / 40 + 17500 + s.power.retries * 2750000

/-- R528: the state of a domain after `S` cycles of sleep; `was` is the CCLK count when the clock stopped. -/
def domWakes (was : Nat) (s : State) (d : Nat) : State :=
  let x := s.dom d
  let h := s.fld (aDom d 0x14) 0 16
  let since := match x.state, x.holdAt with
    | .holdover, some t => t
    | _, _ => was
  if !domValid s d then s
  else if h = 0 ∨ s.cclk - since ≤ h * 1000000000 then
    let t := if x.state = .locked then domHoldover s d else s
    t.setDom d { t.dom d with holdAt := some since }
  else domEnter s d .free

/-- R528: the Phase Base after a sleep. -/
def pbWakes (s : State) : State :=
  if s.pb.src = 2 then
    (if s.pb.state = .acquire ∨ s.pb.state = .locked then enterStill s else s)
  else pbLoss s

/-- Whole periods from `a` to the first firing after `now`, and that firing, on a scale of `m` values. -/
def firingAfter (a now per m : Nat) : Nat := (a + ((now + m - a % m) % m / per + 1) * per) % m

/-- R528: no event that the advance passes fires: a pulse passed once is disarmed, a periodic one goes on with its first
firing after the advance. -/
def ppoSkips (before s : State) (n : Nat) : State :=
  match (s.ppo n).armed with
  | none => s
  | some a =>
    let cfg := ppoCfg s n
    let now := ppoNow s cfg
    if reachedAt a.at_ (ppoNow before cfg) ∨ !reachedAt a.at_ now then s
    else
      let per := a.per
      let ns (x : Nat) : Nat := x / 2 ^ 32 * 10 ^ 9 + x % 2 ^ 32
      let next :=
        if bits cfg 0 2 ≠ 2 then none
        else if bit cfg 2 then
          (if per = 0 then none
           else let x := firingAfter (ns a.at_) (ns now) per (2 ^ 32 * 10 ^ 9); some (x / 10 ^ 9 * 2 ^ 32 + x % 10 ^ 9))
        else if per % 2 ^ 16 = 0 then none
        else some (firingAfter a.at_ now (per % 2 ^ 16 * 2 ^ 32) (2 ^ 64))
      s.setPpo n { s.ppo n with armed := next.map (fun x => { a with at_ := x, late := false }) }

/-- The cycle in which the present RATE would have brought the position over the last `d` units. -/
def cyclesBack (s : State) (d : Nat) : Nat := s.cclk - (if s.pb.rate = 0 then 0 else d * 2 ^ 24 / s.pb.rate)

/-- R528: the gate control list of a port goes on with the entry that covers the new position; a list that waits for a
boundary which the advance has passed is the one in effect. -/
def gatesWake (before s : State) (p : Nat) : State :=
  let e := s.egs p
  let ofs := (s.reg (aEgs p 0x058)).toNat
  let crossed := before.pos != s.pos && reachesOfs before.pos.toNat s.pos.toNat ofs
  let back := (s.pos.toNat + 2 ^ 32 - ofs % 2 ^ 32) % 2 ^ 32
  let t := if crossed then
      { s with egress := { s.egress with boundAt := Tab.set (fun _ => 0) s.egress.boundAt p (cyclesBack s back) } }
    else s
  match e.install, crossed with
  | some (b, l), true => placeList t p b l
  | some x, false => if e.len = 0 then t else let u := placeList t p e.base e.len; u.setEgs p { u.egs p with install := some x }
  | none, _ => if e.len = 0 then t else placeList t p e.base e.len

/-- R528: a bus window list that waits for a boundary which the advance has passed is in effect, and the cycle in which
the present cycle of the Phase Base began. -/
def cycleWakes (before s : State) : State :=
  if before.cycleNo = s.cycleNo then s
  else (List.range 24).foldl canCycle { s with pb := { s.pb with cycleAt := cyclesBack s s.phase } }

/-- R528: each phase schedule resumes with the entry that covers the new position. LIN schedules do with their row of
Table 17-5. -/
def schedulesWake (before s : State) : State :=
  (s.egress.port.map (fun x => x.1)).foldl (gatesWake before) (cycleWakes before s)

/-- R528: the wake advance by `S` cycles. Marks: DEDUCED (log entry 56). -/
def wakeAdvance (s : State) (cycles : Nat) : State :=
  let was := s.cclk
  let acc := if s.pb.src = 2 then s.pb.acc else s.pb.acc + BitVec.ofNat 88 (s.pb.rate * cycles)
  let move (d : Domain) : Domain := { d with trail := [], time := d.time + domStepOf d * cycles }
  let t : State := { s with
    cclk := was + cycles
    pb := { s.pb with acc := acc, trail := [], syncAt := s.pb.syncAt.map (fun _ => was + cycles) }
    ptp := { s.ptp with dom := [0, 1].foldl (fun u d => Tab.modify (fun _ => {}) u d move) s.ptp.dom } }
  schedulesWake s ((List.range 16).foldl (ppoSkips s) (pbWakes (domWakes was (domWakes was t 0) 1)))

/-- R526: a T1 port named by `WAKE_TX_MASK` sends a WUP. -/
def wakeSendsWup (s : State) (n : Nat) : State :=
  if s.bitAt (aWake 0x050) n ∧ tc10En s n then
    (if (s.tphy n).tc10 = .sleep then tc10Wake s n else s.emit (.tc10 n 1))
  else s

/-- Table 17-5: a port enters TRAIN. -/
def wakeTrains (s : State) (p : Nat) : State :=
  if (s.mac p).link = .train then linkTrainStart s p else s

/-- A LIN commander resumes. -/
def linRestarts (s : State) (n : Nat) : State :=
  if s.bitAt (aLin n 0x040) 2 ∧ (s.lin n).mode ≠ .config then linResume (linAwakes s n) n else s

/-- R529: the role held at entry. -/
def roleRestore (s : State) : State :=
  let t := { s with twin := { s.twin with alive := true, lastKick := some s.cclk, sbAt := none, slAt := none, lost := false } }
  match s.power.before with
  | .active | .degraded =>
    let u := takeActive (raiseTerm t) .wake
    let u := { u with twin := { u.twin with sync := .none, taskAt := none } }
    roleEntered (setMode u .degraded 3 4 0).tick1 (Config.freeNat u.free % 256)
  | .standby =>
    let u := takeStandby t .joining
    let u := { u with power := { u.power with noTakeoverUntil := s.cclk + grace s } }
    roleEntered (setMode u .standby 3 4 0).tick1 (Config.freeNat u.free % 256)
  | _ => setMode t s.power.before 3 4 0

/-- `PWR_READY_US` and the cycle that it counts from. -/
def wakeReady (s : State) : State :=
  let role := s.power.before = .active ∨ s.power.before = .degraded ∨ s.power.before = .standby
  { s.setReg (aPwr 0x050) (if role then 780 else 0) with power := { s.power with startAt := s.cclk - 780000 } }

/-- Cycles from the wake advance, at 700 µs, to the rows of Table 17-5: READY, the role, CAN, GWE, LIN, and lanes and
PHYs. -/
def wakeRowAt : Nat → Nat
  | 0 => 60000 | 1 => 80000 | 2 => 200000 | 3 => 300000 | 4 => 500000 | _ => 1100000

/-- What a row of Table 17-5 brings. -/
def wakeRowActs (s : State) : Nat → State
  | 0 => { s with fab := { ready := true } }
  | 1 => (roleRestore (wakeReady s)).raise pWake 0
  | 2 => (List.range 24).foldl canWake s
  | 3 => s
  | 4 => (List.range 8).foldl linRestarts s
  | _ => lanesTrain ((List.range 48).foldl wakeTrains ((List.range 16).foldl wakeSendsWup s))

/-- R527: the next row of Table 17-5, once its cycle has come. Marks: DEDUCED (log entry 56). -/
def wakeDue (s : State) : State :=
  match s.power.wakeAt with
  | none => s
  | some t =>
    let r := s.power.wakeRow
    if s.cclk < t + wakeRowAt r then s
    else wakeRowActs { s with power := { s.power with wakeAt := if 5 ≤ r then none else some t, wakeRow := r + 1 } } r

/-- R527, R528: a wake from SLEEP-RETAIN up to the wake advance. -/
def retainWake (s : State) : State :=
  let t := wakeAdvance s (sleptTicks s * 40)
  { t.tick1 with power := { t.power with
      supplies := true, mainEn := true, retEn := true, late := false, wakeAt := some t.cclk, wakeRow := 0 } }

/-- WAKE registers of a wake: SLEPT_MS and the counter. -/
def wakeCounted (s : State) : State :=
  (s.setReg (aWake 0x060) (w32 (min 0xFFFFFFFF (s.power.sleptNs / 1000000)))).bump (aWake 0x100)

/-- A wake from either depth. Marks: DEDUCED (log entry 56). -/
def wakes (s : State) : State :=
  let t := wakeCounted s
  if s.mode = .sleepDeep then start .deepWake t else retainWake t

/-- R525: a source of the WAKE block: its bit of `WAKE_SRC0` or `WAKE_SRC1`, and `WAKE_FIRST` for the first one of this
sleep. -/
def wakeSource (s : State) (reg bit_ code : Nat) : State :=
  let t := s.setBitAt (aWake reg) bit_ true
  if s.power.late then t else t.setReg (aWake 0x05C) (w32 (code + 2 ^ 31))

/-- R524, R525: a wake event: during entry it is latched, in SLEEP it wakes the unit, or adds its bit to those of a wake
that has begun; elsewhere nothing is recorded. -/
def wakeEvent (s : State) (reg bit_ code : Nat) : State :=
  if s.power.entry.isSome then
    let t := wakeSource s reg bit_ code
    let t := if s.power.late then t else t.bump (aWake 0x110)
    { t with power := { t.power with late := true } }
  else if asleep s.mode then
    if s.power.wakeAt.isSome then s.setBitAt (aWake reg) bit_ true else wakes (wakeSource s reg bit_ code)
  else s

/-- SUPPLIES_OFF: the entry ends; a wake latched during it starts at once (R524). -/
def execSuppliesOff (s : State) : Result :=
  .next (match s.power.entry with
    | some e => whenever (e.stage == .asleep) s (let t := suppliesGo s e.deep; whenever t.power.late t (wakes t))
    | none => s)

/-- WAKE_PIN_ASSERT. -/
def execWakePinAssert (k : Nat) (s : State) : Result :=
  ifWf (decide (k < 8)) (whenever (s.bitAt (aWake 0x040) (4 * k)) s (wakeEvent s 0x054 k k))

/-- WAKE_TIMER_EXPIRE. -/
def execWakeTimerExpire (s : State) : Result :=
  .next (let t := s.fld (aWake 0x04C) 0 24
    whenever (t != 0 && asleep s.mode && !s.power.supplies && decide (t * 1000000 ≤ s.power.sleptNs)) s
      (wakeEvent s 0x054 16 0x20))

/-- A valid WUP on a T1 port: in SLEEP and during entry the AON detectors see it; Table 4-4 in every mode with the PHY
powered. Marks: DEDUCED (log entry 56). -/
def wupSeen (s : State) (n : Nat) : State :=
  let t := if tc10En s n ∧ (s.tphy n).tc10 = .sleep then
      ((setTc10 s n .wake).raise (pTphy n) 0).bump (aTphy n 0x100)
    else s
  if s.bitAt (aWake 0x044) n && (tc10En s n || s.mode == .sleepDeep) then wakeEvent t 0x058 n (0x10 + n) else t

/-- TC10_WUP. -/
def execTc10Wup (n : Nat) (s : State) : Result := ifWf (t1Ok n) (wupSeen s n)

/-- TC10_WUR: a WUR while UP. The WAKE block records nothing outside SLEEP and sleep entry (R525). -/
def execTc10Wur (n : Nat) (s : State) : Result :=
  ifWf (t1Ok n)
    (whenever (tc10En s n && (s.tphy n).tc10 == .normal && portUp s (32 + n)) s
      (let t := (s.raise (pTphy n) 1).bump (aTphy n 0x108)
       if t.bitAt (aWake 0x044) n then wakeEvent t 0x058 n (0x10 + n) else t))

/-- R338: dominant for 150 µs on a LIN channel in SLEEP. -/
def linWakes (s : State) (n : Nat) : State :=
  if s.bitAt (aWake 0x048) n ∧ (s.power.entry.isSome ∨ asleep s.mode) then linAwakes (wakeEvent s 0x054 (8 + n) (8 + n)) n
  else if asleep s.mode then s else linAwakes s n

/-- LIN_WAKE_DETECT. -/
def execLinWakeDetect (n : Nat) (s : State) : Result :=
  ifWf (linOk n) (whenever ((s.lin n).mode == .sleep || asleep s.mode) s (linWakes s n))

/-! ### Power-on, reset pin, supply sequencing (R530, R571) -/

/-- POWER_ON. -/
def execPowerOn (s : State) : Result := .next (start .powerOn s)

/-- RESET_PIN. -/
def execResetPin (s : State) : Result := .next (start .resetPin s)

/-- R571: a step of the supply sequencing of a wake begins again. With PWR_RET_EN low a retained unit loses what it
kept, and its supplies rise from below their reset thresholds.
Marks: DEDUCED (log entry 56), DESIGN CHOICE (log entry 63). -/
def retry (s : State) : State :=
  if s.mode = .sleepDeep then { s with power := { s.power with retries := s.power.retries + 1 } }
  else start .powerOn s

/-- SUPPLY_RETRY: only a supply that has been switched off can miss its range. -/
def execSupplyRetry (s : State) : Result := .next (whenever (!s.power.supplies) s (retry s))

/-! ### The Husk line (R446, R447) -/

/-- The sources of Husk with one more, and TRIPPED. -/
def huskSources (t : State) (b : Nat) : Nat := t.nvm.huskSrc ||| 2 ^ b ||| 2 ^ 31

/-- The key seed is gone and the sources stand in non-volatile memory. -/
def huskKeys (t : State) (src : Nat) : State :=
  { t with
    keys := { t.keys with seed := [], husk := true }
    nvm := { t.nvm with huskTripped := true, huskSrc := src } }

/-- The Silt entry of Husk; its OLD and NEW are free. Marks: DEDUCED (log entry 47). -/
def siltHusk (t : State) (src : Nat) : State :=
  siltKey t.tick1 oHw 0x0A (src % 16) (Config.freeNat t.free) (Config.freeNat t.free / 2 ^ 32)

/-- Every supply is on and no sleep entry goes on. Marks: DEDUCED (log entry 47). -/
def huskPower (t : State) : State :=
  { t with power := { t.power with entry := none, supplies := true, mainEn := true, retEn := true, late := false, wakeAt := none } }

/-- R333: every CMAC computation aborts, and its message is discarded. -/
def abortMacs (t : State) : State :=
  let stop (c : CanChan) : CanChan := { c with
    inbox := c.inbox.filter (fun x => !msgAuth x.msg)
    rxIn := c.rxIn.filter (fun x => x.auth.isNone) }
  { t with buses := { t.buses with can := t.buses.can.map (fun x => (x.1, stop x.2)) } }

/-- Table 14-11. `b` is the source's bit in `KEY_HUSK_SRC`. Marks: DEDUCED (log entry 47). -/
def husk (s : State) (b : Nat) : State :=
  let slept := asleep s.mode || s.power.entry.isSome
  let t := clearSlots (abortMacs (laAbort (if slept then wakeSource s 0x054 17 0x21 else s))) false
  let src := huskSources t b
  quarantine (huskPower ((siltHusk (huskKeys t src) src).setReg (aKey 0x068) (w32 src))) 0x43 oHw 8 0

/-- TAMPER_ASSERT. -/
def execTamperAssert (s : State) : Result := .next (husk s 0)

/-- GLITCH_DETECT (R572): the clock detectors are off in SLEEP-DEEP. -/
def execGlitchDetect (k : GlitchKind) (s : State) : Result :=
  .next (match k with
    | .voltage => husk s 1
    | .clock => whenever (s.mode != .sleepDeep) s (husk s 2))

/-- TEMPERATURE_LIMIT. -/
def execTemperatureLimit (s : State) : Result := .next (husk s 3)

end Sys2Proof.Machine
end

