-- ==== Sys2Proof/Machine/TwinPair.lean ====
section
/-!
DEFINITION. Commands of the twin pair (spec/15): ALIVE and heartbeats, TWIN_CLAIM and the roles, takeover and planned
swap, and role announcements. The Shell Link's records are in Machine/TwinLink.lean.
-/
namespace Sys2Proof.Machine
open Sys2Proof

/-! ### ALIVE and heartbeats (R453 to R455) -/

/-- TWN_KICK. -/
def execTwnKick (w : Who) (s : State) : Result := .next (s.write w (aTwn 0x050) 1 (kicked s))

/-- R453: a missed kick: ALIVE falls and the unit enters QUARANTINE. A missed kick has no class of Table 16-5, so ADDR of
its MODE entry is a free value. Marks: DEDUCED (log entry 51). -/
def kickMissed (s : State) : State :=
  quarantine (aliveFall s).tick1 0x40 oHw 5 (Config.freeNat s.free % 64)

/-- KICK_TIMEOUT. -/
def execKickTimeout (s : State) : Result :=
  .next (match s.twin.lastKick with
    | some k => whenever (s.twin.alive && decide (k + 100000 ≤ s.cclk)) s (kickMissed s)
    | none => s)

/-- Code of a role. -/
def roleCode : Role → Nat
  | .none => 0 | .arb => 1 | .active => 2 | .standby => 3

/-- Code of SYNC. -/
def syncCode : SyncSt → Nat
  | .none => 0 | .joining => 1 | .synced => 2 | .lost => 3

/-- The content of this unit's HB records (Table 15-3). -/
def hbInfo (s : State) : HbInfo :=
  { twinB := s.twin.twinB, role := roleCode s.twin.role, sync := syncCode s.twin.sync, prefB := prefB s, term := s.term,
    uid := beNat s.uid }

/-- One HB record leaves on a lane. -/
def hbOn (s : State) (lane : Nat) : State :=
  if laneUp s lane then
    slEmitOn s lane { ty := 1, sync := syncCnt s, body := .hb (hbInfo s) }
  else s

/-- R454. -/
def heartbeat (s : State) : State :=
  let t := s.emit .heartbeat
  hbOn (hbOn { t with twin := { t.twin with nextHb := t.cclk + 10000 } } 0) 1

/-- HEARTBEAT_TX. -/
def execHeartbeatTx (s : State) : Result :=
  .next (whenever (s.twin.alive && decide (s.twin.nextHb ≤ s.cclk)) s (heartbeat s))

/-- The partner's UID that `TWN_PEER_UID` asks for; 0 for any. -/
def expectedUid (s : State) : Nat := beNat ((List.range 4).flatMap (fun i => leBytes 4 (s.reg (aTwn (0x080 + 4 * i))).toNat))

/-- R452. -/
def strapConflictWith (s : State) (x : HbInfo) : Bool :=
  x.twinB == s.twin.twinB || x.prefB != prefB s || (expectedUid s != 0 && expectedUid s != x.uid)

/-- R452: what an HB record says of the partner. -/
def hearPeer (s : State) (x : HbInfo) : State :=
  let c := strapConflictWith s x
  let t := if c && !s.twin.strapConflict then s.raise pTwn 10 else s
  { t with twin := { t.twin with peer := some x, strapConflict := c } }

/-- R452: a changed setting of this unit raises or ends the conflict with the partner last heard. -/
def strapDue (s : State) : State :=
  match s.twin.peer with
  | some x => if strapConflictWith s x = s.twin.strapConflict then s else hearPeer s x
  | none => s

/-- R462: an isolated unit hears its partner again, and a standby joins again. -/
def heardAgain (s : State) : State :=
  let was := s.twin.isolated
  let t := { s with twin := { s.twin with lost := false, isolated := false, waitWindow := false } }
  if was ∧ t.twin.role = .standby then rejoin t else t

/-- A heartbeat on a path; an HB record of a Shell Link that is down does not arrive. -/
def heartbeatHeard (s : State) (p : HbPath) (x : HbInfo) : State :=
  match p with
  | .sideband => heardAgain { s with twin := { s.twin with sbAt := some s.cclk, sbSilent := false } }
  | .shellLink =>
    if slUp s then hearPeer (heardAgain { s with twin := { s.twin with slAt := some s.cclk, slSilent := false } }) x else s

/-- HEARTBEAT_RX. -/
def execHeartbeatRx (p : HbPath) (info : HbInfo) (s : State) : Result :=
  .next (whenever (s.mode != .boot && !asleep s.mode) s (heartbeatHeard s p info))

/-- Cycle of the last heartbeat on a path. Marks: DEDUCED (log entry 49). -/
def lastHeard (s : State) : HbPath → Nat
  | .sideband => s.twin.sbAt.getD 0
  | .shellLink => s.twin.slAt.getD 0

/-- A path has been found silent. -/
def isSilent (s : State) : HbPath → Bool
  | .sideband => s.twin.sbSilent
  | .shellLink => s.twin.slSilent

/-- The other path. -/
def otherPath : HbPath → HbPath
  | .sideband => .shellLink
  | .shellLink => .sideband

/-- A path is silent. -/
def setSilent (s : State) : HbPath → State
  | .sideband => { s with twin := { s.twin with sbSilent := true } }
  | .shellLink => { s with twin := { s.twin with slSilent := true } }

/-! ### TWIN_CLAIM (R456) -/

/-- First and last cycle of a twin's check window, counted from its sync point. -/
def windowOf (twinB : Bool) : Nat × Nat := if twinB then (30000, 31999) else (20000, 21999)

/-- R456: the unit pulls TWIN_CLAIM low in this cycle. -/
def claimDriven (s : State) : Bool :=
  s.twin.claim &&
  (match s.twin.window with
   | some p => let w := windowOf s.twin.twinB; !decide (p + w.1 ≤ s.cclk ∧ s.cclk ≤ p + w.2)
   | none => true)

/-! ### Takeover (R476, R477) -/

/-- A standby that may take over: LOST, not barred after a wake (R529), no strap conflict (R452). -/
def mayTakeOver (s : State) : Bool :=
  s.twin.role == .standby && s.twin.lost && !s.twin.strapConflict && decide (s.power.noTakeoverUntil ≤ s.cclk)

/-- R476: the line high takes the role; the line low waits for the active's next check window. -/
def takeoverCheck (s : State) : State :=
  if !mayTakeOver s then s
  else if !s.twin.lineLow then takeover s
  else if s.twin.waitWindow ∨ s.twin.isolated then s
  else
    let past := match s.twin.window with
      | some p => decide (p + (windowOf (!s.twin.twinB)).2 < s.cclk)
      | none => false
    { s with twin := { s.twin with waitWindow := true, window := if past then none else s.twin.window } }

/-- R455: one path is silent, or both are and the twin is LOST. -/
def silence (s : State) (p : HbPath) : State :=
  let t := setSilent s p
  if isSilent s (otherPath p) then
    (if s.twin.lost then t
     else takeoverCheck (({ t with twin := { t.twin with lost := true } }.bump (aTwnCnt 1)).raise pTwn 1))
  else ((t.bump (aTwnCnt 12)).raise pTwn 9).report 0x28 (unitId 8 0) [] false

/-- HEARTBEAT_SILENT. -/
def execHeartbeatSilent (p : HbPath) (s : State) : Result :=
  .next (whenever (s.mode != .boot && !asleep s.mode && !isSilent s p
      && decide (lastHeard s p + hbMiss s * 10000 + 1000 ≤ s.cclk)) s (silence s p))

/-- TAKEOVER_TASK: the task of Table 15-7, once the gate is open; after a planned swap the same fixups (R482). -/
def takeoverRest (s : State) : State :=
  let stale := s.twin.stale
  let by_ := s.twin.activeBy
  let old := s.twin.termBefore
  let t := roleFixups { s with twin := { s.twin with taskAt := none } }
  let t := readyTime { t with twin := { t.twin with annLeft := 3, annNext := t.cclk } }
  let t := (List.range 52).foldl reexamine t
  if by_ = .takeover then
    (siltRole t 3 old t.term stale).report 0x2A (unitId 8 0) [] false
  else t

/-- TAKEOVER_TASK. -/
def execTakeoverTask (s : State) : Result :=
  .next (match s.twin.taskAt with
    | some d => whenever (s.twin.role == .active && s.twin.gate && decide (d + 8 ≤ s.cclk)) s (takeoverRest s)
    | none => s)

/-! ### Check windows (R456, R463, R476) -/

/-- R463: the exemptions of a unit that came to the role within T_DUAL. -/
def exempt (s : State) : Bool :=
  decide (s.cclk < s.twin.activeAt + tDual s) &&
  (s.twin.activeBy == .takeover || (s.twin.activeBy == .arbitration && preferred s))

/-- R463, R61: the unit yields; its armed commits are discarded. Marks: DEDUCED (log entry 51). -/
def yields (s : State) : State :=
  let t := swapAnswer (discardCommits s) 0x13
  let t := takeStandby { t with twin := { t.twin with swap := none }, faults := { t.faults with testBusy := false } } .joining
  let t := siltRole (roleMode t .standby) 6 t.term t.term false
  sendJoin (roleEntered (t.bump (aTwnCnt 8)) 4)

/-- R463: a foreign claim. -/
def foreignClaim (s : State) : State :=
  let t := { (s.bump (aTwnCnt 7)).raise pTwn 7 with twin := { s.twin with foreignRun := s.twin.foreignRun + 1 } }
  if 2 ≤ t.twin.foreignRun ∧ !exempt t then yields t else t

/-- R462: the line rose in the active's window: the active is alive. -/
def isolates (s : State) : State :=
  let t := { s with twin := { s.twin with waitWindow := false, isolated := true } }
  siltRole ((t.raise pTwn 8).report 0x28 (unitId 8 0) [] false) 0x0A t.term t.term false

/-- A sample in the last cycle of a window: of its own by the active, of the active's by a standby that waits for it.
Marks: DEDUCED (log entry 49). -/
def claimSampled (s : State) (p : Nat) (low : Bool) : State :=
  let t := { s with twin := { s.twin with window := none } }
  if s.twin.role = .active ∧ p + (windowOf s.twin.twinB).2 ≤ s.cclk then
    (if low then foreignClaim t else { t with twin := { t.twin with foreignRun := 0 } })
  else if mayTakeOver s ∧ s.twin.waitWindow ∧ p + (windowOf (!s.twin.twinB)).2 ≤ s.cclk then
    (if low then takeover t else isolates t)
  else s

/-- CLAIM_WINDOW. -/
def execClaimWindow (low : Bool) (s : State) : Result :=
  .next (match s.twin.window with
    | some p => claimSampled s p low
    | none => s)

/-! ### Arbitration (R461, Table 15-4) -/

/-- R100: the Phase Base lets the unit leave CONFIGURE. -/
def pbReady (s : State) : Bool := s.pb.state == .locked || s.pb.src == 3

/-- The conditions of role ARB. -/
def mayArbitrate (s : State) : Bool :=
  s.twin.role == .none && s.mode == .configure && s.power.configured && !s.power.topsoilBusy && pbReady s
  && s.power.entry.isNone

/-- ARB with the line read low: STANDBY. Marks: DEDUCED (log entry 49). -/
def arbStandby (s : State) : State :=
  let t := roleMode (takeStandby s .joining) .standby
  sendJoin (roleEntered (siltRole t 2 t.term t.term false) 1)

/-- ARB with the line high at the end of its watch: ACTIVE, in DEGRADED until a twin synchronises. -/
def arbActive (s : State) : State :=
  let old := s.term
  let t := takeActive (raiseTerm s) .arbitration
  let t := roleMode { t with twin := { t.twin with taskAt := none, sync := .none } } .degraded
  roleEntered (siltRole t 1 old t.term false) 1

/-- ARBITRATION_START. -/
def execArbitrationStart (s : State) : Result :=
  .next (whenever (mayArbitrate s) s
    (let t := { s with twin := { s.twin with role := .arb, arbAt := s.cclk } }
     if s.twin.lineLow then arbStandby t else t))

/-- OBSERVE_END. -/
def execObserveEnd (s : State) : Result :=
  .next (whenever (s.twin.role == .arb && preferred s && !s.twin.strapConflict && !s.twin.lineLow
      && decide (s.twin.arbAt + observe s ≤ s.cclk)) s (arbActive s))

/-- GRACE_END. -/
def execGraceEnd (s : State) : Result :=
  .next (whenever (s.twin.role == .arb && !preferred s && !s.twin.strapConflict && !s.twin.lineLow
      && decide (s.twin.arbAt + observe s + grace s ≤ s.cclk)) s (arbActive s))

/-- CLAIM_LOW_READ. -/
def execClaimLowRead (s : State) : Result :=
  .next (let t := { s with twin := { s.twin with lineLow := true, lineRead := true } }
    if t.twin.role = .arb then arbStandby t else takeoverCheck t)

/-- CLAIM_HIGH_READ. -/
def execClaimHighRead (s : State) : Result :=
  .next (takeoverCheck { s with twin := { s.twin with lineLow := false, lineRead := true } })

/-! ### Planned swap (R481, R482) -/

/-- R482: copies that R465 would refuse are removed. -/
def swapFlushPort (s : State) (p : Nat) : State :=
  ((List.range 8).flatMap (fun q =>
    ((s.queue p q).filter (fun c => !begun s p c.frame && gateRefuses s (s.frame c.frame) p q)).map (fun c => (q, c.frame)))).foldl
    (fun (t : State) x => (removeCopy t p x.1 x.2).bump (aTwnCnt 11)) s

/-- R482: what both units do at P. -/
def swapCounts (s : State) (reason : Nat) : State := roleEntered ((s.bump (aTwnCnt 10)).raise pTwn 11) reason

/-- What a swap was asked for: SERVICE, or a destructive test. -/
def swapThen (x : Swap) (s : State) : State :=
  match x.thenTest, x.host with
  | some 0, some h => enterService s 1 (reqAddr h)
  | some t, some h => destructiveTests (enterService s 2 (reqAddr h)) t
  | _, _ => s

/-- R482: the old active at P. -/
def swapOut (s : State) (x : Swap) : State :=
  let term := s.term
  let t := takeStandby s .synced
  let t := { t with twin := { t.twin with swap := none, lastAcked := syncCnt s }, faults := { t.faults with testBusy := false } }
  let t := (List.range 52).foldl swapFlushPort t
  let t := swapCounts (siltRole (roleMode t .standby) 5 term term false) (if x.digest then 5 else 3)
  let t := match x.host with | some h => mbxRespond t h 0 [] | none => t
  swapThen x (if x.digest then rejoin t else t)

/-- R482: a shared SA goes on at the NEXT_PN of P. -/
def swapSa (s : State) (x : Nat × Nat) : State :=
  let a := aMsc x.1 (saOff (.tx x.2))
  s.setPair (a + 0x0C) ((s.pair (a + 4) + 2 ^ 20 - 1) % 2 ^ 64)

/-- R482: the new active at the apply cycle of P. -/
def swapIn (s : State) : State :=
  let old := s.term
  let t := takeActive (raiseTerm s) .swap
  let t := { t with twin := { t.twin with swap := none, sync := .synced, annReason := 3 } }
  let t := (sharedSas t).foldl swapSa (loadPns t)
  swapCounts (siltRole (roleMode t .active) 4 old t.term false) 3

/-- SWAP_POINT. -/
def execSwapPoint (s : State) : Result :=
  .next (match s.twin.swap with
    | some x =>
      if s.twin.role = .active ∧ x.acked ∧ syncCnt s = x.point then swapOut s x
      else if s.twin.role = .standby ∧ (s.twin.store.map (fun c => c.n)) = some x.point then swapIn s
      else s
    | none => s)

/-- R481: no SWAP_ACK by P − 20 µs. Marks: DEDUCED (log entry 51). -/
def swapAborts (s : State) : State :=
  let t := swapAnswer s 0x13
  { t with twin := { t.twin with swap := none }, faults := { t.faults with testBusy := false } }

/-- SWAP_ABORT. -/
def execSwapAbort (s : State) : Result :=
  .next (match s.twin.swap with
    | some x => whenever (s.twin.role == .active && !x.acked && decide (predictNumber s x.point ≤ s.cclk + 20000)) s
        (swapAborts s)
    | none => s)

/-! ### Role announcements (R483) -/

/-- ROLE of an announcement. -/
def annRole : Role → Nat
  | .active => 1 | .standby => 2 | .none => 0 | .arb => 0

/-- Bytes 14 to 59 of Table 15-8. -/
def annBody (s : State) (reason : Nat) : List Byte :=
  let t := (s.dom 0).time
  beBytes 4 0x54574E31 ++ [1, 1] ++ s.uid ++
  [b8 (b2n s.twin.twinB + annRole s.twin.role * 2 + b2n (s.twin.sync == .synced) * 8), b8 reason] ++
  beBytes 2 s.twin.annSeq ++ beBytes 4 s.term ++ beBytes 4 s.cycleNo ++ beBytes 6 (timeSec t) ++ beBytes 4 (timeNs t) ++ [0, 0]

/-- KEY of `TWN_ANN`. -/
def annKey (s : State) : Nat := s.fld (aTwn 0x068) 0 10

/-- The frame for a port. -/
def annFrame (s : State) (p reason : Nat) : List Byte :=
  let da := s.pair (aTwn 0x074)
  let body := annBody s reason
  let auth := if annKey s = 0 then List.replicate 8 0
    else (beBytes 16 (Config.cmac (s.keySlot (annKey s)).key body).toNat).take 8
  beBytes 6 (da % 2 ^ 48) ++ beBytes 6 (s.pair (regAddr (pMac p) 0x068) % 2 ^ 48) ++ beBytes 2 0x88B5 ++ body ++ auth

/-- One frame leaves for a port. -/
def annSend (reason : Nat) (s : State) (p : Nat) : State :=
  let t := (gptpSend s p s.cclk (annFrame s p reason) none).bump (aTwnCnt 14)
  { t with twin := { t.twin with annSeq := (t.twin.annSeq + 1) % 2 ^ 16 } }

/-- The slot permits MAC for MP0. -/
def annKeyOk (s : State) : Bool :=
  annKey s == 0 || (keyValid (s.keySlot (annKey s)) && (keyType (s.keySlot (annKey s)) == 1 || keyType (s.keySlot (annKey s)) == 2)
    && keyPermits s (annKey s) .mp0 true uMAC)

/-- Ports that announce: those of `TWN_ANN_PORTS` that are UP. -/
def annPorts (s : State) : List Nat := (List.range 48).filter (fun p => bit (s.pair (aTwn 0x06C)) p && portUp s p)

/-- One announcement, and when the next is due: 100 µs after each of the first two, PERIOD_MS after every other.
Marks: DEDUCED (log entry 51). -/
def announce (s : State) : State :=
  let reason := if s.twin.annLeft = 0 then 0 else s.twin.annReason
  let gap := if 2 ≤ s.twin.annLeft then 100000 else s.fld (aTwn 0x068) 16 16 * 1000000
  let t := { s with twin := { s.twin with annLeft := s.twin.annLeft - 1, annNext := s.cclk + gap } }
  if !annKeyOk t then (t.bump (aTwnCnt 15)).raise pTwn 12
  else (annPorts t).foldl (annSend reason) t

/-- ROLE_ANNOUNCE: a unit that has entered a role, with EN = 1 and the next announcement due. -/
def annDue (s : State) : Bool :=
  s.bitAt (aTwn 0x068) 15 && pairOk s false && s.twin.annNext != 0 && decide (s.twin.annNext ≤ s.cclk)
  && (s.twin.annLeft != 0 || s.fld (aTwn 0x068) 16 16 != 0)

/-- ROLE_ANNOUNCE. -/
def execRoleAnnounce (s : State) : Result := .next (whenever (annDue s) s (announce s))

end Sys2Proof.Machine
end

