-- ==== Sys2Proof/Machine/TwinLink.lean ====
section
/-!
DEFINITION. Records that arrive on the Shell Link (spec/15): the link layer (R458, R459), joining (R467), commit records
(R469), sync points (R471, R472) and the digest (R474).
-/
namespace Sys2Proof.Machine
open Sys2Proof

/-! ### ROLE, MKA, RELAY and JOIN records -/

/-- R481: ROLE SWAP names P, and the standby acknowledges it; SWAP_ACK confirms it on the active; DIGEST_CHECK says that
the partner's full digest equals its running one (R474). YIELD asks nothing of its receiver. -/
def roleRecord (s : State) (kind point : Nat) : State :=
  match kind with
  | 0 =>
    if s.twin.role = .standby then
      slSend { s with twin := { s.twin with swap := some { point := point, acked := true } } } 0x40 true (.role 1 point s.term)
    else s
  | 1 =>
    (match s.twin.swap with
     | some x => if s.twin.role = .active ∧ x.point = point then
         { s with twin := { s.twin with swap := some { x with acked := true } } } else s
     | none => s)
  | 3 =>
    let t := { s with twin := { s.twin with peerOk := true } }
    if t.twin.role = .standby ∧ t.twin.digestOk then rejoin t else t
  | _ => s

/-- R416: a tunnelled MKPDU: the active's participant takes it, a standby sends it on its port. -/
def mkaRecord (s : State) (p : Nat) (bs : List Byte) : State :=
  if 48 ≤ p then s
  else if s.twin.role = .standby then
    sourceFrame s s.cclk (mgmtFrame s p bs)
  else mkaHears s p bs

/-- R416, R451: a SAK for the standby's SAs. -/
def sakRecord (s : State) (p an kn ksMi : Nat) (key : List Byte) : State :=
  if s.twin.role = .standby ∧ p < 48 ∧ an < 4 ∧ s.bitAt (aMsc p 0x040) 9 ∧ key.length = mscKeyLen s p then
    let m := match s.twin.store with
      | some c => (match c.mkas.find? (fun x => x.1 == p) with | some x => x.2 | none => s.mka p)
      | none => s.mka p
    sakInstall (s.setMka p m) oTwin p an kn ksMi key
  else s

/-- R467: a piece of the snapshot. -/
def joinRecord (s : State) (bs : List Byte) : State :=
  let x := Config.slJoin bs
  let have_ := s.twin.joinEnts.getD ([], [], [])
  { s with twin := { s.twin with joinEnts := some (have_.1 ++ x.1, have_.2.1 ++ x.2.1, have_.2.2 ++ x.2.2) } }

/-- What a sequenced record does on arrival, for the types that have no command of their own. SYNC, SYNC_ACK, COMMIT,
COMMIT_ACK, JOIN_REQ, JOIN_END, relayed descriptors and heartbeats act through their commands.
Marks: DESIGN CHOICE (log entry 15). -/
def slTakes (s : State) (ty sync : Nat) (bs : List Byte) : State :=
  match ty with
  | 0x31 => joinRecord s bs
  | 0x32 => { s with twin := { s.twin with joinAt := some sync } }
  | 0x40 => (match Config.slRole bs with | some x => roleRecord s x.1 x.2.1 | none => s)
  | 0x50 =>
    (match Config.slMka bs with
     | some x => mkaRecord s x.1 x.2
     | none =>
       (match Config.slSak bs with
        | some x => sakRecord s x.1 x.2.1 x.2.2.1 x.2.2.2.1 x.2.2.2.2
        | none => s))
  | 0x60 => (match Config.slRelayAnswer bs with | some x => relayAnswered s x.1 x.2.1 x.2.2.1 x.2.2.2 | none => s)
  | _ => s

/-! ### The link layer (R458, R459) -/

/-- Types of Table 15-3. -/
def slTypes : List Nat := [0x01, 0x02, 0x10, 0x11, 0x20, 0x21, 0x30, 0x31, 0x32, 0x40, 0x50, 0x60]

/-- R458: the CRC of a record holds: its LEN is that of the bytes, too. -/
def slCrcOk (bs : List Byte) : Bool :=
  let n := bits (beAt bs 2 2) 0 12
  bs.length == n + 20 && crc32c (bs.take (16 + n)) == beAt bs (16 + n) 4

/-- R459: the records that a LACK does not cover. -/
def lackLeft (s : State) (seq : Nat) : List (SlRec × Nat) :=
  s.sl.unacked.filter (fun x => decide ((x.1.lseq + 2 ^ 32 - seq - 1) % 2 ^ 32 < 2 ^ 31))

/-- R459: LACK covers the records up to a number, and records that waited for room leave. -/
def lackTaken (s : State) (seq : Nat) : State :=
  slDrain s.sl.waiting { s with sl := { s.sl with unacked := lackLeft s seq } }

/-- R459: a sequenced record in order is taken; every one makes a LACK due. -/
def slSequenced (s : State) (bs : List Byte) : State :=
  let lseq := beAt bs 4 4
  let t := { s with sl := { s.sl with lackDue := some (s.sl.lackDue.getD s.cclk) } }
  if lseq = s.sl.rxSeq then
    slTakes { t with sl := { t.sl with rxSeq := (lseq + 1) % 2 ^ 32 } } (byteAt bs 0) (beAt bs 8 4)
      (slice bs 16 (bits (beAt bs 2 2) 0 12))
  else t

/-- R458. -/
def slReceive (s : State) (bs : List Byte) : State :=
  let t := s.bump (aSlCnt 1)
  if !slCrcOk bs then t.bump (aSlCnt 2)
  else if !slTypes.contains (byteAt bs 0) then t.bump (aSlCnt 3)
  else match byteAt bs 0 with
    | 1 => t
    | 2 => lackTaken t (beAt bs 16 4)
    | _ => slSequenced t bs

/-- SL_RECORD_RX. -/
def execSlRecordRx (lane : Nat) (bytes : List Byte) (s : State) : Result :=
  ifWf (twoOk lane) (whenever (laneUp s lane) s (slReceive s bytes))

/-- R459: LACK names the highest record received in order. -/
def slAcks (s : State) : State :=
  let n := (s.sl.rxSeq + 2 ^ 32 - 1) % 2 ^ 32
  slEmit { s with sl := { s.sl with lackDue := none } } { ty := 2, sync := syncCnt s, body := .lack n }

/-- SL_LACK. -/
def execSlLack (s : State) : Result := .next (whenever (slUp s && s.sl.lackDue.isSome) s (slAcks s))

/-- R459: the oldest unacknowledged record and every later one go again. Marks: DESIGN CHOICE (log entry 52). -/
def slResend (s : State) : State :=
  let t := s.sl.unacked.foldl (fun (u : State) x => (slEmit u x.1).bump (aSlCnt 4)) s
  { t with sl := { t.sl with unacked := t.sl.unacked.map (fun x => (x.1, s.cclk)) } }

/-- SL_RETRANSMIT. -/
def execSlRetransmit (s : State) : Result :=
  .next (match s.sl.unacked with
    | x :: _ => whenever (slUp s && decide (x.2 + 10000 ≤ s.cclk)) s (slResend s)
    | [] => s)

/-! ### Joining (R467) -/

/-- JOIN_REQ_RX: the snapshot goes with the next sync point. -/
def execJoinReqRx (s : State) : Result :=
  .next (whenever (s.twin.role == .active && slUp s) s { s with twin := { s.twin with joinReq := true } })

/-- The tables without the entries that a snapshot replaces. -/
def ownEntries (s : State) : State :=
  { s with tables := { s.tables with
    ent := s.tables.ent.filter (fun x => x.1 / 2 ^ 20 == tFDB)
    ovl := s.tables.ovl.filter (fun o => o.table == tFDB) } }

/-- An entry of a snapshot. -/
def joinEntry (u : State) (x : Nat × List Byte) : State :=
  if x.1 / 2 ^ 20 = tFDB then u else u.setEnt (x.1 / 2 ^ 20) (x.1 % 2 ^ 20) x.2

/-- A gate control entry of a snapshot. -/
def joinGate (u : State) (x : Nat × Word) : State :=
  { u with egress := { u.egress with gcl := Tab.set (fun _ => 0) u.egress.gcl (x.1 % 53248) x.2 } }

/-- An overlay record of a snapshot, in its state. -/
def joinOverlay (u : State) (o : Overlay) : State :=
  if inSnapshot o then u.setOvl { o with liveAt := u.cclk } else u

/-- Table entries of a snapshot replace those of every copied table, and its gate control entries the unit's own. -/
def joinEntries (s : State) : State :=
  match s.twin.joinEnts with
  | none => s
  | some (gcl, ents, recs) =>
    let t := ownEntries { s with egress := { s.egress with gcl := [] } }
    recs.foldl joinOverlay (ents.foldl joinEntry (gcl.foldl joinGate t))

/-- The position's cycle is the one of the snapshot. What the tracker holds of the reference moves by the same number
of cycles, so that PHASE stays its own (R101). Marks: DEDUCED (log entry 50). -/
def joinCycle (s : State) (cycle : Nat) : State :=
  let d := (cycle + 2 ^ 32 - s.cycleNo) % 2 ^ 32
  let move (p : Pos) : Pos := p + BitVec.ofNat 64 (d * 2 ^ 32)
  { s with pb := { s.pb with
    acc := s.pb.acc + BitVec.ofNat 88 (d * 2 ^ 56)
    trail := s.pb.trail.map (fun x => (x.1, (x.2.1 + d * 2 ^ 56) % 2 ^ 88, x.2.2))
    lastP := move s.pb.lastP
    clamp := s.pb.clamp.map move
    marks := s.pb.marks.map (fun c => (c + d) % 2 ^ 32)
    cycOfs := if s.pb.src = 0 then (s.pb.cycOfs + d) % 2 ^ 32 else s.pb.cycOfs } }

/-- A commit of the active unit that the snapshot holds already. Marks: DEDUCED (log entry 50). -/
def heldBySnapshot (t : Option Nat) (c : Commit) : Bool :=
  c.fromTwin &&
    (match commitNum c.point, t with
     | some n, some j => decide ((j + 2 ^ 32 - n) % 2 ^ 32 < 2 ^ 31)
     | _, _ => false)

/-- The standby has joined. -/
def joinMade (t : State) (at_ : Option Nat) : State :=
  { t with
    commits := t.commits.filter (fun c => !heldBySnapshot at_ c)
    twin := { t.twin with joined := true, joinEnts := none } }

/-- R101, R467: CYCLE, the registers and the tables of the snapshot. Commits whose point it includes go.
Marks: DEDUCED (log entry 50). -/
def joinApplies (s : State) (epoch digest cycle : Nat) (vals : List (Nat × Word)) : State :=
  let copied := vals.filter (fun x => isSetting x.1)
  let ch := (copied.filter (fun x => s.reg x.1 != x.2)).map (fun x => (x.1, s.reg x.1))
  let t := copied.foldl (fun (u : State) x => u.setReg x.1 x.2) (joinCycle s cycle)
  let t := commitEffects (joinEntries (t.setFld (aSys 0x050) 0 16 epoch)) false ch
  updateDigest ((joinMade t s.twin.joinAt).setPair (aTwn 0x060) digest)

/-- JOIN_END_RX. -/
def execJoinEndRx (epoch digest cycle : Nat) (regs : List (Nat × Word)) (s : State) : Result :=
  .next (whenever (s.twin.role == .standby && s.twin.sync == .joining && s.twin.joinReq && slUp s) s
    (joinApplies s epoch digest cycle regs))

/-! ### Sync points at the standby (R471) -/

/-- R467, step 4: commits whose point has passed by point `n`, in point order. -/
def applyPassed (n : Nat) (s : State) : State :=
  let due := s.commits.filter (fun c => c.fromTwin &&
    (match commitNum c.point with | some m => decide ((n + 2 ^ 32 - m) % 2 ^ 32 < 2 ^ 31) | none => false))
  due.foldl applyCommit s

/-- Sync points between the one applied last and `n`. -/
def skipped (s : State) (n : Nat) : Nat :=
  if s.twin.sync = .synced then (n + 2 ^ 32 - s.twin.lastAcked - 1) % 2 ^ 32 else 0

/-- R471: items 1 and 3 in the apply cycle, items 2 and 4 to the takeover store, and items 5 to 7 as received. -/
def adoptCore (s : State) (c : SyncCore) : State :=
  let at_ := s.pb.syncAt.getD s.cclk
  let t := s.setReg (aPb 0x080) (w32 c.n)
  let t := applyPassed c.n t
  let t := adoptOwners t c
  let t := adoptDeltas (adoptTraffic t c at_) c at_
  let t := c.time.foldl (fun (u : State) x => if x.2.1 = 1 ∨ x.2.1 = 2 ∨ x.2.1 = 3 then adoptTime at_ u x else u) t
  let t := (t.setReg (aTwn 0x048) (w32 c.term)).setReg (aTwn 0x04C) (w32 c.n)
  let kept : SyncCore := { c with mkas := c.mkas.map (fun x => (x.1, mkaTimes (fun m => at_ + m) x.2)) }
  let t := { t with twin := { t.twin with store := some kept, lastAcked := c.n, lastAckAt := t.cclk, termCopied := c.term } }
  updateDigest (t.setPair (aTwn 0x060) c.digest)

/-- R474: the digests are compared at the same epoch. -/
def differs (s : State) (c : SyncCore) : Bool := digestEn s && s.epoch == c.epoch && s.twin.digest != c.digest % 2 ^ 64

/-- R471: the apply cycle of a point, and its SYNC_ACK. -/
def applySync (s : State) (c : SyncCore) : State :=
  let k := skipped s c.n
  let t := adoptCore (if k = 0 then s else s.bumpBy (aTwnCnt 4) k) c
  let bad := differs t c
  let t := slSend t 0x11 true (.syncAck c.n t.twin.digest bad)
  let t := if t.twin.joined then syncGained { t with twin := { t.twin with joinReq := false } } else t
  if bad then digestMismatch t else t

/-- A sync number after another, in the wrapping count. -/
def laterPoint (n m : Nat) : Bool := decide (0 < (n + 2 ^ 32 - m) % 2 ^ 32 ∧ (n + 2 ^ 32 - m) % 2 ^ 32 < 2 ^ 31)

/-- A point that the standby has not applied yet; one that joins applies the points after its snapshot's (R467). -/
def isNewer (s : State) (n : Nat) : Bool :=
  if s.twin.sync = .joining then
    (match s.twin.joinAt with | some j => laterPoint n j | none => true)
  else laterPoint n s.twin.lastAcked

/-- SYNC_APPLY. -/
def execSyncApply (core : SyncCore) (s : State) : Result :=
  .next (whenever (s.twin.role == .standby && slUp s && s.twin.joined && isNewer s core.n) s (applySync s core))

/-! ### Sync points at the active (R472) -/

/-- R472, R400: an acknowledged point. -/
def ackTaken (s : State) (n digest : Nat) (match_ : Bool) : State :=
  let t := (s.bump (aTwnCnt 3)).setPair (aTwn 0x060) digest
  let t := (sharedSas t).foldl (rsvConfirm n) (t.setReg (aTwn 0x04C) (w32 n))
  let t := { t with twin := { t.twin with lastAcked := n, lastAckAt := t.cclk } }
  let t := if syncFresh t && !t.twin.joinReq then syncGained t else t
  if match_ then t else digestMismatch t

/-- SYNC_ACK_RX: of a point that this unit has sent. -/
def execSyncAckRx (n digest : Nat) (match_ : Bool) (s : State) : Result :=
  .next (whenever (s.twin.role == .active && slUp s && decide ((syncCnt s + 2 ^ 32 - n) % 2 ^ 32 < 2 ^ 31) && decide (n < 2 ^ 32)) s
    (ackTaken s n digest match_))

/-! ### Commit records (R469) -/

/-- A staged table operation of the active. FDB keys are placed by the standby's own search (R197); a key for which it finds
no location stays out of the standby's FDB. Marks: DESIGN CHOICE (log entry 74). -/
def stageTwin (s : State) (x : Nat × Nat × List Byte) : State :=
  if x.1 = tFDB then
    let k := hashKey tFDB x.2.2
    match locateKey s true tFDB k with
    | some i => stageOne oTwin tFDB s (i, if fdbValid x.2.2 then x.2.2 else entZero (entKey tFDB 0))
    | none =>
      if fdbValid x.2.2 then
        (match placeKey s tFDB k with
         | some w => (insertOps s tFDB x.2.2 w).foldl (stageOne oTwin tFDB) s
         | none => s)
      else s
  else stageOne oTwin x.1 s (x.2.1, x.2.2)

/-- A change that the standby stages is logged with ORIGIN TWIN. -/
def logTwin (s : State) (x : Nat × Word) : State :=
  if x.1 < 0x1100000 then logReg s oTwin x.1 (s.reg x.1) x.2 true
  else s.silt_ (valueNow s x.1) x.2 oTwin 1 0 (aCan 0 0x0D4 / 4)

/-- An earlier record of the same commit: its point, or its tag. -/
def sameCommit (tag point : Nat) (c : Commit) : Bool :=
  c.fromTwin && (c.point == .sync point || c.parts.any (fun p => p.tag == tag))

/-- R469: the commit of a COMMIT record stands armed for its point, in place of an earlier record of it. -/
def commitTaken (s : State) (writer : Master) (tag point : Nat) (vals : List (Nat × Word))
    (recs : List (Nat × Nat × List Byte)) : State :=
  let old := s.commits.filter (sameCommit tag point)
  let t : State := { s with
    commits := s.commits.filter (fun c => !sameCommit tag point c)
    tables := { s.tables with
      ovl := s.tables.ovl.filter (fun o => !old.any (fun c => c.parts.any (fun p => o.st == .armed p.id))) } }
  let id := t.partNo + 1
  let part : CommitPart := {
    id := id
    writer := writer
    tag := tag
    goAt := t.cclk
    vals := vals.map (fun x => { off := x.1, val := x.2, writer := writer })
    checked := true }
  let t := vals.foldl logTwin t
  let t := armRecords (recs.foldl stageTwin t) id
  let t := { t with
    commits := t.commits ++ [{ point := .sync point, parts := [part], fromTwin := true, acked := true }]
    partNo := id }
  slSend t 0x21 true (.commitAck tag point)

/-- What a COMMIT record can hold: copied registers, and authentication entries. Marks: DEDUCED (log entry 50). -/
def mayCommit (off : Nat) : Bool := ((regDef off).isSome && isCopied off) || decide (0x1100000 ≤ off ∧ off < 0x1101000)

/-- COMMIT_RECORD_RX: on a standby. -/
def execCommitRecordRx (writer : Master) (tag point : Nat) (vals : List (Nat × Word)) (recs : List (Nat × Nat × List Byte))
    (s : State) : Result :=
  .next (whenever (s.twin.role == .standby && slUp s) s
    (commitTaken s writer (tag % 2 ^ 16) (point % 2 ^ 32) (vals.filter (fun x => mayCommit x.1)) recs))

/-- COMMIT_ACK_RX: the commit of the point whose newest part has the TAG. -/
def execCommitAckRx (tag point : Nat) (s : State) : Result :=
  .next (whenever (s.twin.role == .active && slUp s) s
    { s with commits := s.commits.map (fun c =>
        if c.point = .sync point ∧ (c.parts.getLast?.map (fun p => p.tag)) = some tag then { c with acked := true } else c) })

/-! ### Digest (R474) -/

/-- A full recomputation that equals the running digest is reported to the partner. -/
def digestAgrees (s : State) : State :=
  let t := slSend { s with twin := { s.twin with digestOk := true } } 0x40 true (.role 3 (syncCnt s) s.term)
  if t.twin.role = .standby ∧ t.twin.peerOk then rejoin t else t

/-- R474: the outcome of a full recomputation. -/
def recomputed (s : State) (full : Nat) : State :=
  let t := { s with twin := { s.twin with recomputing := false } }
  if full % 2 ^ 64 = s.twin.digest then digestAgrees t
  else if s.twin.role = .standby then rejoin (updateDigest t)
  else if s.twin.role = .active ∧ s.twin.sync = .synced ∧ s.twin.swap.isNone then swapStart t none none true
  else t

/-- DIGEST_RECOMPUTE_DONE. -/
def execDigestRecomputeDone (full : Nat) (s : State) : Result :=
  .next (whenever s.twin.recomputing s (recomputed s full))

end Sys2Proof.Machine
end

