-- ==== Sys2Proof/Machine/View.lean ====
section
/-!
DEFINITION. What the status registers show (Tables 2-5 to 2-17, 3-5 to 3-8, 4-5 to 4-10, 5-8, 6-13, 7-16, 8-6, 9-3,
10-15, 10-17, 11-8, 12-3, 13-8, 13-10, 14-12, 14-13, 15-9, 15-12, 16-11 to 16-14, 17-9, 18-12). A register whose value
is a function of other state is computed here; every other register shows the value that it holds.
-/
namespace Sys2Proof.Machine
open Sys2Proof

/-- A word of a 64-bit value: `_LO` or `_HI`. -/
def halfWord (hi : Bool) (v : Nat) : Word := w32 (if hi then v / 2 ^ 32 else v)

/-- A word made of fields, each with its lowest bit. -/
def packed (l : List (Nat × Nat)) : Word := w32 (l.map (fun x => x.1 * 2 ^ x.2)).sum

/-- Four bytes from `o`, the first in [7:0]. -/
def wordBytes (bs : List Byte) (o : Nat) : Word := w32 (leAt bs o 4)

/-! ### Host side -/

/-- R588: `SYS_NEXT_CP`. -/
def nextCp (s : State) : Nat :=
  let armed := s.commits.map (fun c =>
    match c.point with
    | .cycle n => n
    | .sync n => predictNumber s n)
  match armed with
  | x :: r => r.foldl min x
  | [] =>
    match s.mode with
    | .active => (bindSync s).2
    | .degraded => (bindSync s).2
    | .configure => s.cclk + 20000
    | .service => s.cclk + 20000
    | .standby => (predictSyncs s 1).headD 0
    | _ => 0

/-- Bit n = 1 while SEMn is held. -/
def semBusy (s : State) : Nat := maskOf ((List.range 64).filter (fun n => s.fld (aSem n) 0 4 != 0))

/-- SYS page. -/
def viewSys (s : State) (w : Who) (o : Nat) : Option Word :=
  if o = 0x054 then some (w32 (masterId w.m))
  else if o = 0x058 then some (halfWord false s.cclk)
  else if o = 0x05C then some (halfWord true s.cclk)
  else if o = 0x060 then some (halfWord false (nextCp s))
  else if o = 0x064 then some (halfWord true (nextCp s))
  else none

/-- The SHADOW register of a page (R53). -/
def pageShadow (s : State) (p : Nat) : Word :=
  let here (l : List Shadow) : Bool := l.any (fun x => x.off / 0x1000 == p)
  packed [(b2n (here s.shadows), 0), (b2n (s.commits.any (fun c => c.parts.any (fun x => here x.vals))), 1),
          (s.epoch, 16)]

/-- SILT page. In BOOT, when no host reaches the page, SILT_STAT shows its Bedrock value (R11). Marks: DEDUCED (log entry 20). -/
def viewSilt (s : State) (o : Nat) : Option Word :=
  if o = 0x044 ∧ s.mode ≠ .boot then some (packed [(siltUnfreed s, 0), (b2n (siltFull s), 16)]) else none

/-! ### Phase Base and pins -/

/-- PB page. -/
def viewPb (s : State) (o : Nat) : Option Word :=
  let p := s.pb
  if o = 0x068 then
    some (packed [(pbStateCode p.state, 0), (p.src, 4), (b2n p.sel, 6), (b2n p.step, 8), (b2n p.reverse, 9), (b2n p.join, 10)])
  else if o = 0x070 then some (w32 s.phase)
  else if o = 0x074 then some (w32 s.cycleNo)
  else if o = 0x078 then some (halfWord false p.rate)
  else if o = 0x07C then some (halfWord true p.rate)
  else none

/-- GPIO page. ARM of a pulse reads 1 while the pulse is armed. -/
def viewGpio (s : State) (o : Nat) : Option Word :=
  if 0x200 ≤ o ∧ o < 0x300 ∧ o % 0x20 = 4 then
    let c := s.cap ((o - 0x200) / 0x20)
    some (packed [(c.fifo.length, 0), (b2n c.ovf, 3)])
  else if o = 0x304 then some (w32 (s.enc 0).count)
  else if o = 0x324 then some (w32 (s.enc 1).count)
  else none

/-! ### Ports -/

/-- STATE of `MAC_LINK_STAT`. -/
def linkCode : LinkState → Nat
  | .disabled => 0 | .train => 1 | .up => 2 | .sleep => 3

/-- VERIFY of `MAC_MM_STAT`. -/
def verifyCode : MmVerify → Nat
  | .disabled => 0 | .initial => 1 | .verifying => 2 | .succeeded => 3 | .failed => 4

/-- MAC page of a port. -/
def viewMac (s : State) (n o : Nat) : Option Word :=
  let m := s.mac n
  if o = 0x04C then
    some (packed [(linkCode m.link, 0), (m.mode, 4), (b2n m.inAlt, 8), (b2n (mmActive s n), 9)])
  else if o = 0x054 then some (packed [(verifyCode m.verify, 0), (b2n (mmActive s n), 4)])
  else none

/-- Lane status of `SDS_STAT`. When CDR_LOCK and ADAPT_DONE are 1 on a lane with signal is not in the spec. -/
def laneStat (s : State) (k : Nat) : Word :=
  let l := (s.mac k).loss
  let has (x : LossKind) : Bool := l.contains x
  let on := !has .signal
  packed [(b2n on, 0), (b2n (on && Config.freeBool (2 * s.free)), 1), (b2n (on && !has .blockLock), 2),
          (b2n (has .hiBer), 3), (b2n (on && !has .amLock), 4), (b2n (on && Config.freeBool (2 * s.free + 1)), 5),
          (b2n (has .localFault), 6), (b2n (has .remoteFault), 7)]

/-- SDS page, and the lanes of the Shell Link page. Marks: DEDUCED (log entry 20). -/
def viewSds (s : State) (k o : Nat) : Option Word := if o = 0x048 then some (laneStat s k) else none

/-- TC10 of `TPHY_STAT`. -/
def tc10Code : Tc10 → Nat
  | .normal => 0 | .sleepNeg => 1 | .sleep => 2 | .wake => 3

/-- TPHY page. The SQI of a link that is up is a free value. -/
def viewTphy (s : State) (n o : Nat) : Option Word :=
  let up := (s.mac (32 + n)).link == .up
  if o = 0x048 then
    some (packed [(tc10Code (s.tphy n).tc10, 0), (if up then Config.freeNat s.free % 8 else 0, 4), (b2n up, 8),
                  (b2n (s.tphy n).role, 9)])
  else none

/-! ### Data path -/

/-- PRS page. -/
def viewPrs (s : State) (o : Nat) : Option Word :=
  let gone := (setBitsOf 64 (s.pair (aPrs 0x050))).length
  if o = 0x048 then
    some (packed [(b2n s.prs.ready, 0), (((List.range 64).filter (prsBusy s)).length % 2 ^ 7, 1), (s.prs.busyMax, 8),
                  (gone, 16), (b2n (decide (10 < gone)), 24)])
  else none

/-- TUE page. -/
def viewTue (s : State) (o : Nat) : Option Word :=
  if o = 0x04C then some (packed [(ovlUsed s, 0), (b2n s.tables.ready, 16), (stashUsed s, 17)])
  else if o = 0x050 then some (packed [(oldestInside s, 0), (oldestLookup s, 16)])
  else if o = 0x054 then some (packed [(s.tables.queue.length, 0), (s.tables.lqMax, 16)])
  else none

/-- A TUE ring's register block: descriptors in flight. -/
def viewTueRing (s : State) (h : HostPort) (o : Nat) : Option Word :=
  if o = 0x01C then some (w32 (s.ring (.tue h)).taken.length) else none

/-- PLn page: SCRUB_ON while the scrubber of region 1 runs. -/
def viewPl (s : State) (n o : Nat) : Option Word :=
  if o = 0x040 then some (putFld (s.reg (regAddr (pPl n) 0x040)) 0 1 (b2n (scrubOn s 1))) else none

/-- SFP state of the entry that `SFP_STATE_IDX` selects. -/
def sfpState (s : State) : Word :=
  let i := s.fld (aSfp 0x048) 0 14
  match s.fld (aSfp 0x048) 16 2 with
  | 0 => packed [(b2n (Tab.get (fun _ => false) s.policing.filtBlk i), 0)]
  | 1 =>
    let g := s.entAt s.epoch tGATE i
    let k := streamGateAt g s.phase (s.cclk - s.pb.cycleAt)
    packed [(b2n (Tab.get (fun _ => false) s.policing.gateBlk i), 0), (bits (gateByte g k) 0 1, 1), (k, 2)]
  | _ =>
    let m := s.meterSt i
    packed [(b2n m.blocked, 0), (meterLevel m (s.entAt s.epoch tMETER i) s.cclk / 2 ^ 24, 8)]

/-- SFP page. -/
def viewSfp (s : State) (o : Nat) : Option Word :=
  if o = 0x040 then
    some (packed [((s.policing.filtBlk.filter (fun x => x.2)).length, 0), ((s.policing.gateBlk.filter (fun x => x.2)).length, 16)])
  else if o = 0x044 then some (w32 (s.policing.meter.filter (fun x => x.2.blocked)).length)
  else if o = 0x04C then some (sfpState s)
  else none

/-- FW page. -/
def viewFw (s : State) (o : Nat) : Option Word := if o = 0x110 then some (w32 (flowsUsed s)) else none

/-- FAB page: the slot number (R18). -/
def viewFab (s : State) (o : Nat) : Option Word :=
  if o = 0x050 then some (halfWord false s.slot) else if o = 0x054 then some (halfWord true s.slot) else none

/-- BUF page. FREE counts from READY on: its reset value is 0. Marks: DEDUCED (log entry 20). -/
def viewBuf (s : State) (o : Nat) : Option Word :=
  if o = 0x044 then some (packed [(if s.fab.ready then freeHalves s else 0, 0), (b2n s.fab.ready, 31)])
  else if o = 0x048 then some (w32 (sharedSize s))
  else if o = 0x04C then some (w32 (usedShared s))
  else if o = 0x058 then some (halfWord false s.fab.flushing)
  else if o = 0x05C then some (halfWord true s.fab.flushing)
  else none

/-- A level in two's complement, saturating to 32 bits. -/
def levelWord (x : Int) : Word := w32 (unsigned 32 (satSigned 32 x))

/-- The level that `EGS_LVL_SEL` selects, in whole bytes or bits. -/
def egsLevel (s : State) (p : Nat) : Word :=
  let i := s.fld (aEgs p 0x074) 0 4
  match s.fld (aEgs p 0x074) 4 2 with
  | 0 => levelWord (bucketLevel s p i / 2 ^ 24)
  | 1 => levelWord (creditNow s p i s.cclk / 2 ^ 24)
  | _ =>
    -- a selection charges the deficit with effect from F
    let waits := (((s.egs p).sel.filter (fun x => x.q == i)).map (fun x => x.dwrr)).sum
    levelWord ((deficitOf s p i + waits : Nat))

/-- EGS page. In BOOT, when no host reaches the page, EGS_GCL_STAT shows its Bedrock value (R11). Marks: DEDUCED (log entry 20). -/
def viewEgs (s : State) (p o : Nat) : Option Word :=
  let e := s.egs p
  if o = 0x060 then some (Tab.get (fun _ => 0) s.egress.gcl (1024 * p + s.fld (aEgs p 0x05C) 0 10))
  else if o = 0x064 ∧ s.mode ≠ .boot then
    some (packed [(e.entry, 0), (e.gates, 10), (b2n e.hold, 18), (b2n e.susp.isSome, 19)])
  else if o = 0x078 then some (egsLevel s p)
  else if 0x100 ≤ o ∧ o < 0x200 ∧ o % 0x20 = 0x1C then
    some (putFld (s.reg (aEgs p o)) 0 16 (min 0xFFFF (s.queue p ((o - 0x100) / 0x20)).length))
  else none

/-! ### Buses and gateway -/

/-- CAN mode codes of `CAN_STAT`. -/
def canModeCode : CanMode → Nat
  | .config => 0 | .normal => 1 | .restricted => 2 | .listenOnly => 3 | .sleep => 4

/-- State of a transmit buffer in `CAN_TXQ_STAT`; it is filled 200 cycles before it is ready (R318). -/
def bufCode (now : Nat) : Option CanBuf → Nat
  | none => 0
  | some b => if b.locked then 2 else if now + 200 < b.readyAt then 0 else 1

/-- An authentication entry (Table 10-11). -/
def authWords (x : AuthEntry) (k : Nat) : Word :=
  match k with
  | 0 => packed [(x.key, 0), (b2n x.rx, 14), (b2n x.valid, 15), (x.gen % 2 ^ 16, 16)]
  | 1 => w32 x.last
  | 2 => w32 x.rsv
  | _ => 0

/-- CAN page. Marks: DEDUCED (log entry 20). -/
def viewCan (s : State) (n o : Nat) : Option Word :=
  let c := s.can n
  if o = 0x058 then
    some (packed [(canModeCode (canEff c), 0), (b2n c.sby, 3), (c.errst, 4), (min 0xFF c.tec, 8), (min 0xFF c.rec_, 16),
                  (b2n (onBus s n), 24)])
  else if o = 0x05C then
    some (packed [(bufCode s.cclk c.buf0, 0), (bufCode s.cclk c.buf1, 2), (bufCode s.cclk c.buf2, 4), (c.pend.length, 8)])
  else if o = 0x078 then some (packed [(c.rxq0.length, 0), (c.rxq1.length, 16)])
  else if o = 0x0C4 then some (Tab.get (fun _ => 0) c.bw (s.fld (aCan n 0x0C0) 0 7))
  else if 0x800 ≤ o then some (s.reg (aCan n o))
  else if n = 0 ∧ o = 0x0C8 then some (w32 (poolFree s))
  else if n = 0 ∧ 0x0D8 ≤ o ∧ o < 0x0E8 then some (authWords (s.auth (s.fld (aCan 0 0x0D0) 0 10)) ((o - 0x0D8) / 4))
  else none

/-- LIN mode codes. -/
def linModeCode : LinMode → Nat
  | .config => 0 | .normal => 1 | .sleep => 2

/-- LIN page: SBY while a unit in STANDBY keeps a NORMAL channel from driving. -/
def viewLin (s : State) (n o : Nat) : Option Word :=
  let l := s.lin n
  if o = 0x048 then
    some (packed [(linModeCode l.mode, 0), (b2n (l.mode == .normal && s.mode == .standby), 2), (l.entry, 8),
                  (b2n (l.await.isSome || decide (s.cclk < l.busyUntil)), 16)])
  else if o = 0x054 then some (Tab.get (fun _ => 0) l.sch (s.fld (aLin n 0x050) 0 7))
  else none

/-- GWE pages. -/
def viewGwe (s : State) (k o : Nat) : Option Word :=
  if k = 0 ∧ o = 0x044 then some (packed [(b2n s.gwe.ready, 0), (s.gwe.inq.length, 1), (gweOvlUsed s, 16)])
  else if k = 0 ∧ o = 0x048 then some (w32 (oldestGwe s))
  else none

/-! ### Network time -/

/-- Registers of one domain, at an offset of its block. -/
def viewDom (s : State) (d o : Nat) : Option Word :=
  let x := s.dom d
  if o = 0x18 then some (packed [(ptpCode x.state, 0), (b2n (domValid s d), 3), (x.slave, 16)])
  else if o = 0x1C then some (w32 (unsigned 32 x.adj))
  else if o = 0x20 then some (levelWord x.ofs)
  else if o = 0x24 then some (w32 (timeNs x.time))
  else if o = 0x48 then some (w32 x.gmtbi)
  else none

/-- Registers of one port. -/
def viewPdelay (s : State) (p o : Nat) : Option Word :=
  let y := s.pdelay p
  if o = 4 then some (packed [(b2n y.asCap, 0), (min 3 y.lost, 1)])
  else if o = 8 then some (w32 (min 0xFFFFFFFF y.mld.toNat))
  else if o = 0xC then some (levelWord y.nrr)
  else none

/-- PTP page. Marks: DEDUCED (log entry 20). -/
def viewPtp (s : State) (o : Nat) : Option Word :=
  if 0x100 ≤ o ∧ o < 0x200 then viewDom s ((o - 0x100) / 0x80) ((o - 0x100) % 0x80)
  else if 0x400 ≤ o ∧ o < 0x700 then viewPdelay s ((o - 0x400) / 0x10) (o % 0x10)
  else none

/-! ### Cipher engine and keys -/

/-- CE page 0. TWIN_ID of CE_NONCE_FIX is the strap (Table 13-7). -/
def viewCe (s : State) (k o : Nat) : Option Word :=
  if k = 0 ∧ o = 0x050 then some (putFld (s.reg (aCe 0x050)) 31 1 (b2n Config.twinStrap)) else
  if k = 0 ∧ o = 0x058 then
    some (packed [(laInFlight s 0, 0), (laInFlight s 1, 8), (laInFlight s 2, 16), (s.cipher.adm.length, 24)])
  else none

/-- MSC page: ACTIVE, the transmit SA in effect and the pipe slot stand beside what the page holds. -/
def viewMsc (s : State) (n o : Nat) : Option Word :=
  if o = 0x060 then
    let i := s.fld (aMsc n 0x054) 0 1
    some (packed [(b2n (mscEn s n && bit (saCtrl s n (.tx i)) 0), 0), (i, 1), (s.fld (aMsc n 0x060) 2 2, 2),
                  (s.fld (aMsc n 0x060) 4 3, 4), (pipeSlot n, 8)])
  else none

/-- The DIK certificate (R445). -/
def certBytes (s : State) : List Byte := if s.nvm.certErased then [] else Config.factoryCert.take 2048

/-- KEY pages. -/
def viewKey (s : State) (k o : Nat) : Option Word :=
  let x := s.keySlot (s.fld (aKey 0x044) 0 10)
  match k with
  | 0 =>
    if o = 0x040 then
      some (putFld (putFld (s.reg (aKey 0x040)) 3 2 (b2n s.keys.husk + 2 * b2n s.nvm.huskTripped)) 16 10 (validSlots s))
    else if o = 0x048 then some x.attr
    else if o = 0x04C then some x.link
    else if o = 0x050 then some (w32 x.gen)
    else if o = 0x054 then some (halfWord false x.ctr)
    else if o = 0x058 then some (halfWord true x.ctr)
    else if o = 0x068 then some (w32 s.nvm.huskSrc)
    else none
  | 1 => if 0x040 ≤ o ∧ o < 0x0C0 then some (w32 (kumCtr s ((o - 0x040) / 4))) else none
  | 2 =>
    if 0x040 ≤ o ∧ o < 0x060 then some (wordBytes s.keys.dikX (o - 0x040))
    else if 0x060 ≤ o ∧ o < 0x080 then some (wordBytes s.keys.dikY (o - 0x060))
    else if 0x080 ≤ o ∧ o < 0x090 then some (wordBytes s.uid (o - 0x080))
    else none
  | _ =>
    if o = 0x040 then some (w32 (certBytes s).length)
    else if 0x800 ≤ o then some (wordBytes (certBytes s) (o - 0x800))
    else none

/-- LC page. Under CHANGE_PENDING the state is the target of the change, which programs OTP at its start (R443), so that
STATE and the target state agree. -/
def viewLc (s : State) (o : Nat) : Option Word :=
  let pend := s.keys.graceEnd.isSome
  if o = 0x040 then some (packed [(lcState s, 0), (b2n pend, 4), (if pend then lcState s else 0, 8)])
  else if o = 0x048 then some (w32 (secVer s))
  else if o = 0x04C then some (w32 s.nvm.bootCount)
  else if o = 0x054 then some (wordBytes (otpBytes s (4 * s.fld (regAddr pLc 0x050) 2 7) 4) 0)
  else none

/-! ### Twin pair, faults, modes, update -/

/-- TWN page. CLAIM is the level of the line, which a unit that claims drives low. -/
def viewTwn (s : State) (o : Nat) : Option Word :=
  let t := s.twin
  if o = 0x044 then
    some (packed [(roleCode t.role, 0), (syncCode t.sync, 2), (b2n t.twinB, 4), (b2n t.alive, 5), (b2n (t.sbAt.isSome && !t.sbSilent), 6),
                  (b2n (t.slAt.isSome && !t.slSilent), 7), (b2n (t.lineRead && !t.lineLow && !t.claim), 8), (b2n t.gate, 9), (b2n t.isolated, 10),
                  (b2n t.strapConflict, 11), (b2n t.stale, 12)])
  else none

/-- SL page. The use of the retransmit buffer is in KiB, a part of one counting as one or as none. -/
def viewSl (s : State) (o : Nat) : Option Word :=
  if o = 0x044 then
    some (packed [(s.sl.up, 0), (b2n (decide (s.sl.up ≠ 0)), 2),
                  (divOpen (slBuffered s) 1024 % 4096, 8)])
  else if o = 0x448 then some (laneStat s 48)
  else if o = 0x648 then some (laneStat s 49)
  else none

/-- MEM page. -/
def viewMem (s : State) (o : Nat) : Option Word :=
  if o = 0x044 then some (packed [(maskOf ((List.range 12).filter (scrubOn s)), 0), (min 0xFFFF (retiredHalves s), 16)])
  else none

/-- LSP page: the results of tests that a reset keeps. -/
def viewLsp (s : State) (o : Nat) : Option Word :=
  if o = 0x050 then some (w32 s.nvm.testRes) else if o = 0x054 then some (w32 s.nvm.testBoot) else none

/-- FLT page. -/
def viewFlt (s : State) (o : Nat) : Option Word :=
  let used := s.faults.ent.filter (fun x => x.2.isSome)
  let isOpen := used.filter (fun x => match x.2 with | some e => e.st == .open_ | none => false)
  let attr := Tab.get (fun _ => ((0 : Word), (0 : Word), (0 : Word))) s.faults.attr (s.fld (aFlt 0x054) 0 8)
  if o = 0x04C then some (packed [(isOpen.length, 0), (used.length, 16)])
  else if o = 0x050 then some (packed [(s.faults.fifo.length, 0), (s.faults.fifoMax, 16)])
  else if o = 0x058 then some attr.1
  else if o = 0x05C then some attr.2.1
  else if o = 0x060 then some attr.2.2
  else none

/-- PWR page. -/
def viewPwr (s : State) (o : Nat) : Option Word :=
  let p := s.power
  if o = 0x040 then
    some (packed [(modeCode s.mode, 0), (b2n p.entry.isSome, 4), (b2n p.lastDeep, 5), (b2n p.topsoilBusy, 6),
                  (b2n p.runWait, 7), (p.cfgSrc, 8), (p.bootErr, 16)])
  else none

/-- Slot states of Table 18-8. -/
def slotCode : SlotSt → Nat
  | .empty => 0 | .loading => 1 | .ready => 2 | .pending => 3 | .trial => 4 | .confirmed => 5 | .backup => 6
  | .retired => 7 | .bad => 8

/-- Topsoil slot states of Table 18-13. -/
def tsCode : TsSt → Nat
  | .empty => 0 | .candidate => 1 | .valid => 2 | .rejected => 3

/-- TARGET of a session. -/
def targetCode : UpdTarget → Nat
  | .code => 1 | .config => 2 | .relay => 3

/-- TARGET, DEST and OWNER of the open session. -/
def sessionFields (s : State) : List (Nat × Nat) :=
  match s.upd.session with
  | none => []
  | some x => [(1, 3), (targetCode x.target, 4), (x.dest, 6), (masterId x.owner, 10)]

/-- UPD page. -/
def viewUpd (s : State) (o : Nat) : Option Word :=
  let window := s.fld (aUpd 0x040) 0 16 * 10 ^ 9
  if o = 0x044 then
    some (packed ([(s.upd.booted.getD 0, 0), (b2n (inTrial s), 1), (b2n (healthNow s), 2), (s.fld (aUpd 0x044) 16 8, 16),
                   (s.nvm.lastDecision, 24)] ++ sessionFields s))
  else if o = 0x048 then some (w32 (if inTrial s then divOpen (window - s.cclk) (10 ^ 6) % 2 ^ 22 else 0))
  else if o = 0x04C then some (packed [(slotCode s.nvm.slotA.st, 0), (s.nvm.slotA.version, 8)])
  else if o = 0x050 then some (packed [(slotCode s.nvm.slotB.st, 0), (s.nvm.slotB.version, 8)])
  else if o = 0x054 then some (w32 s.nvm.slotA.build)
  else if o = 0x058 then some (w32 s.nvm.slotB.build)
  else if o = 0x05C then
    some (packed [(s.nvm.tsUse, 0), (tsCode s.nvm.tsA, 4), (tsCode s.nvm.tsB, 6), (s.fld (aUpd 0x05C) 8 16, 8),
                  (s.fld (aUpd 0x05C) 24 4, 24)])
  else none

/-! ### Any register -/

/-- What a computed register of a page shows at an offset. -/
def viewPage (s : State) (w : Who) (o : Nat) : Page → Option Word
  | .sys => viewSys s w o
  | .sem => if o = 0x240 then some (halfWord false (semBusy s)) else if o = 0x244 then some (halfWord true (semBusy s)) else none
  | .silt => viewSilt s o
  | .pb => viewPb s o
  | .gpio => viewGpio s o
  | .mac n => viewMac s n o
  | .sds n => viewSds s n o
  | .tphy n => viewTphy s n o
  | .prs => viewPrs s o
  | .tue => viewTue s o
  | .pl n => viewPl s n o
  | .fw => viewFw s o
  | .sfp => viewSfp s o
  | .fab => viewFab s o
  | .buf => viewBuf s o
  | .egs n => viewEgs s n o
  | .can n => viewCan s n o
  | .lin n => viewLin s n o
  | .gwe k => viewGwe s k o
  | .ptp => viewPtp s o
  | .ce k => viewCe s k o
  | .msc n => viewMsc s n o
  | .key k => viewKey s k o
  | .lc => viewLc s o
  | .twn => viewTwn s o
  | .sl => viewSl s o
  | .mem => viewMem s o
  | .lsp => viewLsp s o
  | .flt => viewFlt s o
  | .pwr => viewPwr s o
  | .upd => viewUpd s o
  | .wake => none
  | .hif _ _ => none

/-- `STAT.READY` (R564): the page's engine accepts its settings. PRS, TUE, BUF, GWE and CE follow their chapter's READY
on each of their pages; every other page is ready from entry to CONFIGURE on. Marks: DEDUCED (log entry 19). -/
def engineReady (s : State) : Page → Bool
  | .prs => s.prs.ready
  | .tue => s.tables.ready
  | .buf => s.fab.ready
  | .gwe _ => s.gwe.ready
  | .ce _ => s.bitAt (aCe 0x044) 0
  | _ => true

/-- STAT of a page (Table 19-2): READY and OWNED. Marks: DEDUCED (log entry 19). -/
def pageStat (s : State) (p : Nat) (pg : Page) : Word :=
  packed [(b2n (s.mode != .boot && engineReady s pg), 0), (b2n (ownerOf s p != 0), 1)]

/-- `PTP_Dd_TIME_SEC_LO`, `_HI` and `_TIME_FRAC`, which a read of `PTP_Dd_TIME_NS` latches (Table 12-3). Like every
latch of R9 this one is kept for each master. Marks: DEDUCED (log entry 20). -/
def timeLatched (a : Nat) : Bool :=
  a / 0x1000 == pPtp && decide (0x100 ≤ a % 0x1000 ∧ a % 0x1000 < 0x200)
    && decide (0x28 ≤ a % 0x80 ∧ a % 0x80 < 0x34)

/-- What the register at BAR0 offset `a` shows to a master (R7): a computed value, the pending interrupts, or the value
held. A write-only register shows 0 (Table 0-7); IRQ_CLR shows IRQ_RAW, and ERRCAP what it has captured (Table
19-2). -/
def State.view (s : State) (w : Who) (a : Nat) : Word :=
  let p := a / 0x1000
  let o := a % 0x1000
  match regDef a with
  | none => 0
  | some d =>
    if p = 0x1000 then (viewTueRing s .a o).getD (s.reg a)
    else if p = 0x1001 then (viewTueRing s .b o).getD (s.reg a)
    else
      match pageOf p with
      | none => 0
      | some pg =>
        if o = 0x00C then pageStat s p pg
        else if o = 0x01C then s.reg (regAddr p 0x10)
        else if o = 0x028 then s.reg a
        else if timeLatched a then (s.latchOf w.m a).getD 0
        else if o = 0x018 then irqPend s p
        else if o = 0x024 then pageShadow s p
        else
          match viewPage s w o pg with
          | some v => v
          | none => if d.ty = .wo then 0 else s.reg a

/-- R9: what a read of a register returns: the latched value for a `_HI` half. -/
def readValue (s : State) (w : Who) (a : Nat) : Word :=
  match halfOf a with
  | .hi => (s.latchOf w.m a).getD (regReset a)
  | _ => s.view w a

/-- R8: a read of `width` bytes at a byte offset returns those bytes of the containing word. -/
def readBytes (s : State) (w : Who) (addr width : Nat) : List Byte :=
  ((leBytes 4 (readValue s w (addr / 4 * 4)).toNat).drop (addr % 4)).take width

/-- Table 12-3: a read of `PTP_Dd_TIME_NS` latches the seconds and the fraction of the same instant. -/
def timeLatch (s : State) (w : Who) (a : Nat) : State :=
  let t := (s.dom ((a % 0x1000 - 0x100) / 0x80)).time
  ((s.setLatch w.m (a + 4) (w32 (timeSec t))).setLatch w.m (a + 8) (w32 (timeSec t / 2 ^ 32))).setLatch w.m (a + 12)
    (w32 (timeFrac t))

/-- R9: a read of the `_LO` half at `a` latches the `_HI` half for the reader. -/
def pairLoRead (s : State) (w : Who) (a : Nat) : State :=
  (if timeNsAt a then timeLatch s w a else s.setLatch w.m (a + 4) (s.view w (a + 4))).emit (.read w.m a (s.view w a))

/-- PAIR_LO_READ. -/
def execPairLoRead (w : Who) (addr : Nat) (s : State) : Result :=
  ifWf (loReadOk addr) (s.readOr w addr (pairLoRead s w addr))

end Sys2Proof.Machine
end

