-- ==== Sys2Proof/Machine/Tick.lean ====
section
/-!
DEFINITION. One CCLK cycle, and CYCLE_BOUNDARY. Before the clock advances, the present cycle is completed: what the
spec ties to this cycle and no command has done yet. Then the counts of every cycle advance (R18, R83, R95, R369). Time
events that have a command of their own are left to that command (notes/assumptions, the entry on time).
-/
namespace Sys2Proof.Machine
open Sys2Proof

/-! ### The present cycle is completed -/

/-- Every commit whose point has come is applied (R57, R592). Marks: DESIGN CHOICE (log entry 3). -/
def applyAll (s : State) : State := s.commits.foldl (fun t _ => applyDue t) s

/-- R102, R105: a join that ends in this cycle, and a forced sync point that falls in it.
Marks: DEDUCED (log entry 60). -/
def pointsDue (s : State) : State :=
  let t := if joinEnds s then joinFinishes s else s
  applyAll (if forcedDue t then forcedPoint t else t)

/-- R99, R593: under TICK a boundary was crossed, and its tick can no longer come before it. -/
def unmarkedDue (s : State) : State :=
  match s.pb.unmarked with
  | none => s
  | some x =>
    if x + 2 + tickFilt s (b2n s.pb.sel) < s.cclk then countSynth { s with pb := { s.pb with unmarked := none } } else s

/-- Frames that wait for the pacer of their internal port enter when it lets them (R243).
Marks: DESIGN CHOICE (log entry 2). -/
def entriesDue (s : State) : State := sourceDue (sourceDue (txDue (txDue s .a) .b) 50) 51

/-- The link-down actions of Table 4-3, the flushes of Table 8-3 and the copies of disabled queues (R269): one cycle. -/
def downsDue (s : State) : State :=
  let t := (setBitsOf 52 s.fab.flushing).foldl flushStep s
  let t := (s.ports.mac.map (fun x => x.1)).foldl (fun u p => if p < 48 then downStep u p else u) t
  (busyPorts t).eraseDups.foldl offOne t

/-- R499: a port that is UP has a free line and an eligible queue. -/
def stalled (s : State) (p : Nat) : Bool :=
  decide (p < 48) && portUp s p && (lineRuns s p).isEmpty
    && (List.range 8).any (fun q => (eligible s p q (s.cclk + 40)).1.isSome)

/-- R499: how long that has held. -/
def watchPort (s : State) (p : Nat) : State :=
  let e := s.egs p
  let x := if stalled s p then some (e.stallAt.getD s.cclk) else none
  if x = e.stallAt then s else s.setEgs p { e with stallAt := x }

/-- R499 for every port that holds copies or has stalled. -/
def watchPorts (s : State) : State :=
  (busyPorts s ++ (s.egress.port.filter (fun x => x.2.stallAt.isSome)).map (fun x => x.1)).eraseDups.foldl watchPort s

/-- Copies that were selected for this cycle start; CAN messages and LIN legs that are due are written; PHYs that woke begin to train. -/
def linesDue (s : State) : State :=
  let t := (List.range 52).foldl startSel s
  let t := (s.buses.can.map (fun x => x.1)).foldl canCycleDue (linSettle t)
  (List.range 16).foldl tc10Train t

/-- R565: bits whose condition persists are set again: POOL_LOW, FLOW_HIGH, INQ_HIGH, OVL_HIGH. -/
def conditions (s : State) : State :=
  let t := checkOvl (checkFlows (checkPool s))
  let t := if 10 < (setBitsOf 64 (t.pair (aPrs 0x050))).length then t.raise pPrs 1 else t
  if t.fld (regAddr (pGwe 0) 0x04C) 0 11 ≤ t.gwe.inq.length then t.raise (pGwe 0) 0 else t

/-- What follows from the Shell Link being DOWN or UP (R467, R556). -/
def linkDue (s : State) : State :=
  if slUp s then sendJoin s
  else updLinkGone { s with twin := { s.twin with joinReq := if s.twin.role = .standby then false else s.twin.joinReq } }

/-- R73: a request whose OPCODE is none of Table 2-14's, or whose UPD_DECIDE names no DECISION, has no row of its own.
Marks: DEDUCED (log entry 24). -/
def unknownReq (s : State) (h : HostPort) : State :=
  let op := mbxOp s h
  if s.mbx.head? ≠ some h ∨ s.mode = .boot ∨ asleep s.mode then s
  else if op = 0 ∨ 7 < op then
    mbxRespond s h (if s.mode = .quarantine then 3 else if 248 < mbxLen s h then 2 else 1) []
  else if op = 5 ∧ (mbxByte s h 8 = 0 ∨ 5 < mbxByte s h 8) then
    if s.mode = .quarantine then mbxRespond s h 3 []
    else if mbxBadLen s h 2 then mbxRespond s h 2 []
    else (mbxRespond s h (0x10 + Config.freeNat s.free % 0xF0) []).tick1
  else s

/-- R415: on PN_WARN or EXHAUSTED the key server makes a new SAK at once. -/
def mkaDue (s : State) : State :=
  (s.cipher.mka.map (fun x => x.1)).foldl (fun t p => if mkaRuns t p then sakMake (mkaWants t p) p else t) s

/-- R489: a task that has exceeded its input log. -/
def taskDue (mp1 : Bool) (s : State) : State := if (s.pairSt mp1).overran ∧ pairOk s mp1 then taskOver s mp1 else s

/-- The management processors' share of a cycle. Marks: DESIGN CHOICE (log entry 2). -/
def managersDue (s : State) : State := taskDue false <| taskDue true <| mkaDue <| healthStep (takeoverStep (takeoverCheck (strapDue (unknownReq (unknownReq (linkDue s) .a) .b))))

/-- The present cycle is completed. Marks: DESIGN CHOICE (log entry 2), DESIGN CHOICE (log entry 3). -/
def completeCycle (s : State) : State :=
  if asleep s.mode then wakeDue s
  else conditions (wakeDue (managersDue (entriesDue (watchPorts (linesDue (gweCycle (downsDue (releasesDue (unmarkedDue (pointsDue s))))))))))

/-! ### The clock advances -/

/-- One CCLK cycle of a domain clock (R369). -/
def domTick (now : Nat) (d : Domain) : Domain :=
  { d with trail := trailNote 0 d.trail now d.time (domStepOf d), time := (d.time + domStepOf d) % timeWrap }

/-- RATE for the next cycle: a rate that R95 schedules applies from its cycle on. -/
def pbRateTick (p : PhaseBase) (now : Nat) : PhaseBase :=
  match (p.rates.filter (fun x => decide (x.2 ≤ now))).getLast? with
  | some (r, _) => { p with rate := r, rates := p.rates.filter (fun x => decide (now < x.2)), everRate := true }
  | none => p

/-- R83: the position after the next cycle, and the positions before it. -/
def pbTick (now : Nat) (p : PhaseBase) : PhaseBase :=
  { p with trail := trailNote (2 ^ 88) p.trail now p.acc.toNat (accAhead p.acc.toNat (accNext p))
           acc := BitVec.ofNat 88 (accNext p) }

/-- Every count that advances in each CCLK cycle. Marks: DESIGN CHOICE (log entry 2). -/
def advance (s : State) : State :=
  { s with
    cclk := s.cclk + 1
    msgPages := {}
    pb := pbTick s.cclk (pbRateTick s.pb (s.cclk + 1))
    ptp := { s.ptp with dom := [0, 1].foldl (fun t d => Tab.modify (fun _ => {}) t d (domTick s.cclk)) s.ptp.dom } }

/-- Whether the next cycle crosses a cycle boundary. -/
def willCross (s : State) : Bool := crossesNext (pbRateTick s.pb (s.cclk + 1))

/-- The cycle in which the position reached each port's list boundary. -/
def markBounds (before s : State) : State :=
  if before.pos = s.pos then s
  else
    let l := (List.range 52).filter (fun p => reachesOfs before.pos.toNat s.pos.toNat (s.reg (aEgs p 0x058)).toNat)
    { s with egress := { s.egress with boundAt := l.foldl (fun t p => Tab.set (fun _ => 0) t p s.cclk) s.egress.boundAt } }

/-- The clock advances by one cycle; a boundary that it crosses takes its effects (R108).
Marks: DESIGN CHOICE (log entry 2). -/
def nextCycle (s : State) : State :=
  let t := markBounds s (advance s)
  if willCross s then crossed t else t

/-- With the supplies off, CCLK stands still. The sleep counter counts at 25 MHz in SLEEP-RETAIN, and the AON timer in
SLEEP-DEEP (one step stands for 1 us there). Marks: DESIGN CHOICE (log entry 2). -/
def sleepTick (s : State) : State :=
  { s with msgPages := {}, power := { s.power with sleptNs := s.power.sleptNs + (if s.mode = .sleepDeep then 1000 else 40) } }

/-- What passes when no command waits: one CCLK cycle, or one count of the sleep counter.
Marks: DESIGN CHOICE (log entry 2). -/
def cclkTick (s : State) : State :=
  if asleep s.mode && !s.power.supplies then sleepTick s else nextCycle (completeCycle s)

/-- CYCLE_BOUNDARY: the cycle in which PHASE wraps (R108). -/
def execCycleBoundary (s : State) : Result :=
  .next (whenever (!(asleep s.mode && !s.power.supplies) && willCross (completeCycle s)) s (cclkTick s))

end Sys2Proof.Machine
end

