-- ==== Sys2Proof/Machine/Dispatch.lean ====
section
/-!
DEFINITION. The meaning of each command (one arm per row of spec/opcode_table.json).
-/
namespace Sys2Proof.Machine
open Sys2Proof

def exec (i : Instr) (s : State) : Host.Outcome State Fault Refusal :=
  match i with
  | .registerWrite w addr width val => Sys2Proof.Machine.execRegisterWrite w addr width val s
  | .pairLoRead w addr => Sys2Proof.Machine.execPairLoRead w addr s
  | .pairHiWrite w addr val => Sys2Proof.Machine.execPairHiWrite w addr val s
  | .pairLoWrite w addr val => Sys2Proof.Machine.execPairLoWrite w addr val s
  | .ownerWrite w page val => Sys2Proof.Machine.execOwnerWrite w page val s
  | .semTasRead w n => Sys2Proof.Machine.execSemTasRead w n s
  | .semRelease w n => Sys2Proof.Machine.execSemRelease w n s
  | .commitGo w tag => Sys2Proof.Machine.execCommitGo w tag s
  | .commitDiscard w => Sys2Proof.Machine.execCommitDiscard w s
  | .commitCheckEnd => Sys2Proof.Machine.execCommitCheckEnd s
  | .commitApply => Sys2Proof.Machine.execCommitApply s
  | .errcapClear w page => Sys2Proof.Machine.execErrcapClear w page s
  | .irqClrWrite w page val => Sys2Proof.Machine.execIrqClrWrite w page val s
  | .irqEnWrite w page val => Sys2Proof.Machine.execIrqEnWrite w page val s
  | .msixUnmask h vec => Sys2Proof.Machine.execMsixUnmask h vec s
  | .hostLinkDown h => Sys2Proof.Machine.execHostLinkDown h s
  | .ringEnable w r val => Sys2Proof.Machine.execRingEnable w r val s
  | .ringDisable w r val => Sys2Proof.Machine.execRingDisable w r val s
  | .ringDrained r => Sys2Proof.Machine.execRingDrained r s
  | .ringTailWrite w r val => Sys2Proof.Machine.execRingTailWrite w r val s
  | .txFrameEnter h k descs bytes fault => Sys2Proof.Machine.execTxFrameEnter h k descs bytes fault s
  | .txLaunch h k tc => Sys2Proof.Machine.execTxLaunch h k tc s
  | .txCompletion h k n => Sys2Proof.Machine.execTxCompletion h k n s
  | .rxFrameDma h bufs fault => Sys2Proof.Machine.execRxFrameDma h bufs fault s
  | .ringInterrupt r => Sys2Proof.Machine.execRingInterrupt r s
  | .coalTimerExpire r => Sys2Proof.Machine.execCoalTimerExpire r s
  | .info h => Sys2Proof.Machine.execInfo h s
  | .modeReqSleepRetain h => Sys2Proof.Machine.execModeReqSleepRetain h s
  | .modeReqSleepDeep h => Sys2Proof.Machine.execModeReqSleepDeep h s
  | .modeReqService h => Sys2Proof.Machine.execModeReqService h s
  | .modeReqReset h => Sys2Proof.Machine.execModeReqReset h s
  | .modeReqRun h => Sys2Proof.Machine.execModeReqRun h s
  | .testReq h => Sys2Proof.Machine.execTestReq h s
  | .siltCheckpoint h => Sys2Proof.Machine.execSiltCheckpoint h s
  | .siltCheckpointRecord => Sys2Proof.Machine.execSiltCheckpointRecord s
  | .siltAckWrite w h val => Sys2Proof.Machine.execSiltAckWrite w h val s
  | .cycleBoundary => Sys2Proof.Machine.execCycleBoundary s
  | .forcedSyncPoint => Sys2Proof.Machine.execForcedSyncPoint s
  | .nettimeRefEvent => Sys2Proof.Machine.execNettimeRefEvent s
  | .tickAccepted j => Sys2Proof.Machine.execTickAccepted j s
  | .tickRunt j => Sys2Proof.Machine.execTickRunt j s
  | .tickLoss => Sys2Proof.Machine.execTickLoss s
  | .encCount m => Sys2Proof.Machine.execEncCount m s
  | .encIndex m => Sys2Proof.Machine.execEncIndex m s
  | .encBackward m => Sys2Proof.Machine.execEncBackward m s
  | .encIllegal m => Sys2Proof.Machine.execEncIllegal m s
  | .pbStandstill => Sys2Proof.Machine.execPbStandstill s
  | .joinDone => Sys2Proof.Machine.execJoinDone s
  | .capEdge n rising => Sys2Proof.Machine.execCapEdge n rising s
  | .capNsRead w n => Sys2Proof.Machine.execCapNsRead w n s
  | .capStatRead w n => Sys2Proof.Machine.execCapStatRead w n s
  | .ppoArm w n val => Sys2Proof.Machine.execPpoArm w n val s
  | .ppoFire n => Sys2Proof.Machine.execPpoFire n s
  | .frameReceive port bytes abort sub cmp => Sys2Proof.Machine.execFrameReceive port bytes abort sub cmp s
  | .lossCondition l k => Sys2Proof.Machine.execLossCondition l k s
  | .linkDown l => Sys2Proof.Machine.execLinkDown l s
  | .flushDone port => Sys2Proof.Machine.execFlushDone port s
  | .fdbPortPurge port => Sys2Proof.Machine.execFdbPortPurge port s
  | .linkUp l => Sys2Proof.Machine.execLinkUp l s
  | .altModeSwitch port => Sys2Proof.Machine.execAltModeSwitch port s
  | .mmVerifyResponse port => Sys2Proof.Machine.execMmVerifyResponse port s
  | .mmVerifyTimeout port => Sys2Proof.Machine.execMmVerifyTimeout port s
  | .mmFragmentReceive port smd bytes last crcOk abort cmp => Sys2Proof.Machine.execMmFragmentReceive port smd bytes last crcOk abort cmp s
  | .tc10SleepReq w n => Sys2Proof.Machine.execTc10SleepReq w n s
  | .tc10WakeReq w n => Sys2Proof.Machine.execTc10WakeReq w n s
  | .tc10SleepRequestRx n => Sys2Proof.Machine.execTc10SleepRequestRx n s
  | .tc10HandshakeDone n => Sys2Proof.Machine.execTc10HandshakeDone n s
  | .tc10SleepFail n => Sys2Proof.Machine.execTc10SleepFail n s
  | .tc10Wup n => Sys2Proof.Machine.execTc10Wup n s
  | .tc10Wur n => Sys2Proof.Machine.execTc10Wur n s
  | .mdioC22Write w m phy reg => Sys2Proof.Machine.execMdioC22Write w m phy reg s
  | .mdioC22Read w m phy reg => Sys2Proof.Machine.execMdioC22Read w m phy reg s
  | .mdioC45Write w m phy reg => Sys2Proof.Machine.execMdioC45Write w m phy reg s
  | .mdioC45Read w m phy reg => Sys2Proof.Machine.execMdioC45Read w m phy reg s
  | .mdioDone m reply => Sys2Proof.Machine.execMdioDone m reply s
  | .sdsPrbsWrite w lane val => Sys2Proof.Machine.execSdsPrbsWrite w lane val s
  | .cableTestStart w n => Sys2Proof.Machine.execCableTestStart w n s
  | .diagDone n fault dist => Sys2Proof.Machine.execDiagDone n fault dist s
  | .parseDispatch f rvErr => Sys2Proof.Machine.execParseDispatch f rvErr s
  | .dispatchWait f => Sys2Proof.Machine.execDispatchWait f s
  | .parseResume f => Sys2Proof.Machine.execParseResume f s
  | .deepParseEnd f => Sys2Proof.Machine.execDeepParseEnd f s
  | .endCheck f => Sys2Proof.Machine.execEndCheck f s
  | .prsCaptArm w val => Sys2Proof.Machine.execPrsCaptArm w val s
  | .lookupStage f => Sys2Proof.Machine.execLookupStage f s
  | .tueRead h d => Sys2Proof.Machine.execTueRead h d s
  | .tueWrite h d data fault => Sys2Proof.Machine.execTueWrite h d data fault s
  | .tueInsert h d data fault => Sys2Proof.Machine.execTueInsert h d data fault s
  | .tueDelete h d data fault => Sys2Proof.Machine.execTueDelete h d data fault s
  | .tueSearch h d data fault => Sys2Proof.Machine.execTueSearch h d data fault s
  | .tueFlush h d => Sys2Proof.Machine.execTueFlush h d s
  | .overlayCopyOut table index => Sys2Proof.Machine.execOverlayCopyOut table index s
  | .overlayRetire table index => Sys2Proof.Machine.execOverlayRetire table index s
  | .learnRelease pl => Sys2Proof.Machine.execLearnRelease pl s
  | .learnApply => Sys2Proof.Machine.execLearnApply s
  | .flapIntervalEnd => Sys2Proof.Machine.execFlapIntervalEnd s
  | .tueFrozenClear w hi val => Sys2Proof.Machine.execTueFrozenClear w hi val s
  | .ageingSweep => Sys2Proof.Machine.execAgeingSweep s
  | .policyStage f => Sys2Proof.Machine.execPolicyStage f s
  | .flowSweep => Sys2Proof.Machine.execFlowSweep s
  | .halfReady f => Sys2Proof.Machine.execHalfReady f s
  | .loneWaitExpire g => Sys2Proof.Machine.execLoneWaitExpire g s
  | .copyOpen port q => Sys2Proof.Machine.execCopyOpen port q s
  | .halfRead g => Sys2Proof.Machine.execHalfRead g s
  | .halfRelease port q => Sys2Proof.Machine.execHalfRelease port q s
  | .txUnderrun port => Sys2Proof.Machine.execTxUnderrun port s
  | .egressDecision port cmp => Sys2Proof.Machine.execEgressDecision port cmp s
  | .lineFree port => Sys2Proof.Machine.execLineFree port s
  | .bucketRefill => Sys2Proof.Machine.execBucketRefill s
  | .gclEntryBegin port => Sys2Proof.Machine.execGclEntryBegin port s
  | .gclListBoundary port => Sys2Proof.Machine.execGclListBoundary port s
  | .preemptResume port => Sys2Proof.Machine.execPreemptResume port s
  | .gclDataWrite w port val => Sys2Proof.Machine.execGclDataWrite w port val s
  | .shedReexamine port => Sys2Proof.Machine.execShedReexamine port s
  | .canBusIntegrationDone n => Sys2Proof.Machine.execCanBusIntegrationDone n s
  | .canModeAtIdle n => Sys2Proof.Machine.execCanModeAtIdle n s
  | .canFrameReceived n msg sof => Sys2Proof.Machine.execCanFrameReceived n msg sof s
  | .canError n k => Sys2Proof.Machine.execCanError n k s
  | .canBoRecover w n => Sys2Proof.Machine.execCanBoRecover w n s
  | .busoffRecovered n => Sys2Proof.Machine.execBusoffRecovered n s
  | .canPendingWrite n => Sys2Proof.Machine.execCanPendingWrite n s
  | .canBufferReady n b idle => Sys2Proof.Machine.execCanBufferReady n b idle s
  | .canSelection n => Sys2Proof.Machine.execCanSelection n s
  | .canArbLost n err => Sys2Proof.Machine.execCanArbLost n err s
  | .canTxOk n => Sys2Proof.Machine.execCanTxOk n s
  | .canTxsGo w n => Sys2Proof.Machine.execCanTxsGo w n s
  | .canCancelTag w n tag => Sys2Proof.Machine.execCanCancelTag w n tag s
  | .canCancelAll w n => Sys2Proof.Machine.execCanCancelAll w n s
  | .canCancelSample n => Sys2Proof.Machine.execCanCancelSample n s
  | .canCancelAbort n => Sys2Proof.Machine.execCanCancelAbort n s
  | .canTxevRead w n => Sys2Proof.Machine.execCanTxevRead w n s
  | .canRxqPop w n q => Sys2Proof.Machine.execCanRxqPop w n q s
  | .canWindowOverrun n => Sys2Proof.Machine.execCanWindowOverrun n s
  | .canAuthSet w val => Sys2Proof.Machine.execCanAuthSet w val s
  | .authRsvRaise j => Sys2Proof.Machine.execAuthRsvRaise j s
  | .linScheduleEntry n => Sys2Proof.Machine.execLinScheduleEntry n s
  | .linHeaderRx n pid meas => Sys2Proof.Machine.execLinHeaderRx n pid meas s
  | .linResponseRx n data chk => Sys2Proof.Machine.execLinResponseRx n data chk s
  | .linNoResponse n => Sys2Proof.Machine.execLinNoResponse n s
  | .linIdleSleep n => Sys2Proof.Machine.execLinIdleSleep n s
  | .linWakeTx w n => Sys2Proof.Machine.execLinWakeTx w n s
  | .linWakeDetect n => Sys2Proof.Machine.execLinWakeDetect n s
  | .gweEnqueue => Sys2Proof.Machine.execGweEnqueue s
  | .routeAdmit => Sys2Proof.Machine.execRouteAdmit s
  | .gweReinject handle => Sys2Proof.Machine.execGweReinject handle s
  | .batchHoldExpire x => Sys2Proof.Machine.execBatchHoldExpire x s
  | .batchFrameEnter => Sys2Proof.Machine.execBatchFrameEnter s
  | .gweDecapsulate => Sys2Proof.Machine.execGweDecapsulate s
  | .gweTblRead w => Sys2Proof.Machine.execGweTblRead w s
  | .gweTblStage w => Sys2Proof.Machine.execGweTblStage w s
  | .gweTblReadPending w => Sys2Proof.Machine.execGweTblReadPending w s
  | .ptpSyncRx d port seq twoStep info t => Sys2Proof.Machine.execPtpSyncRx d port seq twoStep info t s
  | .ptpFollowUpRx d port seq info => Sys2Proof.Machine.execPtpFollowUpRx d port seq info s
  | .fuMissing d => Sys2Proof.Machine.execFuMissing d s
  | .ptpSyncTimeout d => Sys2Proof.Machine.execPtpSyncTimeout d s
  | .ptpHoldExpire d => Sys2Proof.Machine.execPtpHoldExpire d s
  | .ptpSetGo w d => Sys2Proof.Machine.execPtpSetGo w d s
  | .pdelayReqTx port => Sys2Proof.Machine.execPdelayReqTx port s
  | .pdelayReqRx port seq id t2 => Sys2Proof.Machine.execPdelayReqRx port seq id t2 s
  | .pdelayRespRx port seq t2 t3 t4 => Sys2Proof.Machine.execPdelayRespRx port seq t2 t3 t4 s
  | .syncRelay d seq twoStep info t => Sys2Proof.Machine.execSyncRelay d seq twoStep info t s
  | .followUpTx d port => Sys2Proof.Machine.execFollowUpTx d port s
  | .syncOriginate d => Sys2Proof.Machine.execSyncOriginate d s
  | .saInstall w port sa val => Sys2Proof.Machine.execSaInstall w port sa val s
  | .saRemove w port sa val => Sys2Proof.Machine.execSaRemove w port sa val s
  | .encSaWrite w port val => Sys2Proof.Machine.execEncSaWrite w port val s
  | .katRotation eg => Sys2Proof.Machine.execKatRotation eg s
  | .katComplete eg pass => Sys2Proof.Machine.execKatComplete eg pass s
  | .aesCtrEnc src d input fault => Sys2Proof.Machine.execAesCtrEnc src d input fault s
  | .aesCtrDec src d input fault => Sys2Proof.Machine.execAesCtrDec src d input fault s
  | .aesGcmEnc src d input fault => Sys2Proof.Machine.execAesGcmEnc src d input fault s
  | .aesGcmDec src d input fault => Sys2Proof.Machine.execAesGcmDec src d input fault s
  | .aesCmacGen src d input fault => Sys2Proof.Machine.execAesCmacGen src d input fault s
  | .aesCmacVer src d input fault => Sys2Proof.Machine.execAesCmacVer src d input fault s
  | .aesCmacFv src d input fault => Sys2Proof.Machine.execAesCmacFv src d input fault s
  | .aesKwWrap src d input fault => Sys2Proof.Machine.execAesKwWrap src d input fault s
  | .aesKwUnwrap src d input fault => Sys2Proof.Machine.execAesKwUnwrap src d input fault s
  | .sha256 src d input fault => Sys2Proof.Machine.execSha256 src d input fault s
  | .sha384 src d input fault => Sys2Proof.Machine.execSha384 src d input fault s
  | .hmacSha256 src d input fault => Sys2Proof.Machine.execHmacSha256 src d input fault s
  | .hmacSha384 src d input fault => Sys2Proof.Machine.execHmacSha384 src d input fault s
  | .ecdsaSign src d input fault => Sys2Proof.Machine.execEcdsaSign src d input fault s
  | .ecdsaVerify src d input fault => Sys2Proof.Machine.execEcdsaVerify src d input fault s
  | .ecdh src d input fault => Sys2Proof.Machine.execEcdh src d input fault s
  | .drbgGen src d healthy => Sys2Proof.Machine.execDrbgGen src d healthy s
  | .drbgReseed src d healthy => Sys2Proof.Machine.execDrbgReseed src d healthy s
  | .invFence src d => Sys2Proof.Machine.execInvFence src d s
  | .lookasideComplete num => Sys2Proof.Machine.execLookasideComplete num s
  | .mkpduRx port bytes => Sys2Proof.Machine.execMkpduRx port bytes s
  | .mkaHello port => Sys2Proof.Machine.execMkaHello port s
  | .mkaPeerTimeout port mi => Sys2Proof.Machine.execMkaPeerTimeout port mi s
  | .kumInstall h => Sys2Proof.Machine.execKumInstall h s
  | .kumDerive h => Sys2Proof.Machine.execKumDerive h s
  | .kumInvalidate h => Sys2Proof.Machine.execKumInvalidate h s
  | .kumLcAdvance h => Sys2Proof.Machine.execKumLcAdvance h s
  | .kumFirst h => Sys2Proof.Machine.execKumFirst h s
  | .lcGraceReset => Sys2Proof.Machine.execLcGraceReset s
  | .updActivate h => Sys2Proof.Machine.execUpdActivate h s
  | .updActivateReset h => Sys2Proof.Machine.execUpdActivateReset h s
  | .updCancel h => Sys2Proof.Machine.execUpdCancel h s
  | .updVeto h => Sys2Proof.Machine.execUpdVeto h s
  | .oemKeySet h => Sys2Proof.Machine.execOemKeySet h s
  | .roleSwap h => Sys2Proof.Machine.execRoleSwap h s
  | .swapPoint => Sys2Proof.Machine.execSwapPoint s
  | .swapAbort => Sys2Proof.Machine.execSwapAbort s
  | .swapCondition c => Sys2Proof.Machine.execSwapCondition c s
  | .twnKick w => Sys2Proof.Machine.execTwnKick w s
  | .kickTimeout => Sys2Proof.Machine.execKickTimeout s
  | .heartbeatTx => Sys2Proof.Machine.execHeartbeatTx s
  | .heartbeatRx p info => Sys2Proof.Machine.execHeartbeatRx p info s
  | .heartbeatSilent p => Sys2Proof.Machine.execHeartbeatSilent p s
  | .takeoverTask => Sys2Proof.Machine.execTakeoverTask s
  | .claimWindow low => Sys2Proof.Machine.execClaimWindow low s
  | .claimLowRead => Sys2Proof.Machine.execClaimLowRead s
  | .arbitrationStart => Sys2Proof.Machine.execArbitrationStart s
  | .observeEnd => Sys2Proof.Machine.execObserveEnd s
  | .graceEnd => Sys2Proof.Machine.execGraceEnd s
  | .slRecordRx lane bytes => Sys2Proof.Machine.execSlRecordRx lane bytes s
  | .slLack => Sys2Proof.Machine.execSlLack s
  | .slRetransmit => Sys2Proof.Machine.execSlRetransmit s
  | .joinReqRx => Sys2Proof.Machine.execJoinReqRx s
  | .joinEndRx epoch digest cycle regs => Sys2Proof.Machine.execJoinEndRx epoch digest cycle regs s
  | .syncApply core => Sys2Proof.Machine.execSyncApply core s
  | .digestRecomputeDone full => Sys2Proof.Machine.execDigestRecomputeDone full s
  | .syncAckRx n digest match_ => Sys2Proof.Machine.execSyncAckRx n digest match_ s
  | .commitRecordRx writer tag point vals recs => Sys2Proof.Machine.execCommitRecordRx writer tag point vals recs s
  | .commitAckRx tag point => Sys2Proof.Machine.execCommitAckRx tag point s
  | .roleAnnounce => Sys2Proof.Machine.execRoleAnnounce s
  | .lockstepMismatch pair task async => Sys2Proof.Machine.execLockstepMismatch pair task async s
  | .taskCommit pair writes => Sys2Proof.Machine.execTaskCommit pair writes s
  | .taskOverrun pair task => Sys2Proof.Machine.execTaskOverrun pair task s
  | .scrubPass region => Sys2Proof.Machine.execScrubPass region s
  | .dpStall unit => Sys2Proof.Machine.execDpStall unit s
  | .portStall port => Sys2Proof.Machine.execPortStall port s
  | .clockFail mclk => Sys2Proof.Machine.execClockFail mclk s
  | .supplyFail supply => Sys2Proof.Machine.execSupplyFail supply s
  | .faultReport => Sys2Proof.Machine.execFaultReport s
  | .coalesce => Sys2Proof.Machine.execCoalesce s
  | .windowClose j => Sys2Proof.Machine.execWindowClose j s
  | .faultRecordWrite => Sys2Proof.Machine.execFaultRecordWrite s
  | .memInjArm w val => Sys2Proof.Machine.execMemInjArm w val s
  | .lspInjOnce w val => Sys2Proof.Machine.execLspInjOnce w val s
  | .lspInjAsync w val => Sys2Proof.Machine.execLspInjAsync w val s
  | .lspInjPersist w val => Sys2Proof.Machine.execLspInjPersist w val s
  | .fltInjGo w val => Sys2Proof.Machine.execFltInjGo w val s
  | .sleepEntryStop => Sys2Proof.Machine.execSleepEntryStop s
  | .sleepDrainEnd => Sys2Proof.Machine.execSleepDrainEnd s
  | .sleepCheckpointDone => Sys2Proof.Machine.execSleepCheckpointDone s
  | .suppliesOff => Sys2Proof.Machine.execSuppliesOff s
  | .wakePinAssert k => Sys2Proof.Machine.execWakePinAssert k s
  | .wakeTimerExpire => Sys2Proof.Machine.execWakeTimerExpire s
  | .powerOn => Sys2Proof.Machine.execPowerOn s
  | .resetPin => Sys2Proof.Machine.execResetPin s
  | .tamperAssert => Sys2Proof.Machine.execTamperAssert s
  | .glitchDetect k => Sys2Proof.Machine.execGlitchDetect k s
  | .temperatureLimit => Sys2Proof.Machine.execTemperatureLimit s
  | .updSessionOpen w val => Sys2Proof.Machine.execUpdSessionOpen w val s
  | .updSessionClose w val => Sys2Proof.Machine.execUpdSessionClose w val s
  | .updWrite d bytes fault => Sys2Proof.Machine.execUpdWrite d bytes fault s
  | .updFinish d => Sys2Proof.Machine.execUpdFinish d s
  | .updAbort d => Sys2Proof.Machine.execUpdAbort d s
  | .relayRecordRx target d bytes => Sys2Proof.Machine.execRelayRecordRx target d bytes s
  | .relayFrameRx port bytes => Sys2Proof.Machine.execRelayFrameRx port bytes s
  | .relayRetransmit n => Sys2Proof.Machine.execRelayRetransmit n s
  | .trialWindowEnd => Sys2Proof.Machine.execTrialWindowEnd s
  | .supplyRetry => Sys2Proof.Machine.execSupplyRetry s
  | .lossConditionClear l k => Sys2Proof.Machine.execLossConditionClear l k s
  | .claimHighRead => Sys2Proof.Machine.execClaimHighRead s
  | .inputLinkWrite g => Sys2Proof.Machine.execInputLinkWrite g s
  | .flashWriteDone ok => Sys2Proof.Machine.execFlashWriteDone ok s
  | .hostLinkUp h speed width => Sys2Proof.Machine.execHostLinkUp h speed width s
  | .busyhit h => Sys2Proof.Machine.execBusyhit h s

end Sys2Proof.Machine
end

