-- ==== Sys2Proof/Machine/Step.lean ====
section
/-!
DEFINITION. One step: the command at the front of the queue, or one CCLK cycle when nothing waits.
-/
namespace Sys2Proof.Machine
open Sys2Proof

/-- Take the command at the front of the queue; on an empty queue one CCLK cycle passes.
Marks: DESIGN CHOICE (log entry 1), DESIGN CHOICE (log entry 2), DESIGN CHOICE (log entry 62). -/
def step (s : State) : Host.Outcome State Fault Refusal :=
  match s.pending with
  | [] => .next (cclkTick s)
  | c :: rest => exec c { s with pending := rest }

/-- The state with the command that a word spells put in front; no word spells one.
Marks: DESIGN CHOICE (log entry 1). -/
def State.withFetchWord (s : State) (nbits w : Nat) : State :=
  match decodeTableWord nbits w with
  | some c => { s with pending := c :: s.pending }
  | none => s

end Sys2Proof.Machine
end

