-- ==== Sys2Proof/Safety.lean ====
section
/-!
DEFINITION. The terms in which the claims about the model speak: what a command answers, the parts of the state and
which of them each command may change, and the invariant that every step keeps.
-/
namespace Sys2Proof.Machine
open Sys2Proof

/-- The command answers a next state, and it is one of which `P` holds. -/
def Answers (c : Instr) (s : State) (P : State → Prop) : Prop := ∃ t, exec c s = .next t ∧ P t

/-- The write of a register by a master passes every check of R46. -/
def Passes (s : State) (w : Who) (a : Nat) (v : Word) : Prop := checkWrite s w a 4 v = none

/-- The read of a register by a master reaches it (R7, R41). -/
def Reaches (s : State) (w : Who) (a : Nat) : Prop := readReaches s w a = true

/-- A read that changes device state is performed on the device (R488): a host's always, a task's unless its replay takes
the value from the log, or the log is full. -/
def Performs (s : State) (w : Who) (a : Nat) : Prop :=
  ∀ mp1 : Bool, w.m = (if mp1 then .mp1 else .mp0) →
    (s.pairSt mp1).left.find? (fun x => x.1 == a) = none ∧ (s.pairSt mp1).log.length < 32

/-- The parts of the state: one for every field of State, under the field's name. -/
inductive Part where
  | pending
  | cclk
  | mode
  | regs
  | latched
  | held
  | ctrlLockA
  | ctrlLockB
  | shadows
  | commits
  | partNo
  | hist
  | rings
  | msixA
  | msixB
  | mbx
  | silt
  | msgPages
  | pb
  | gpio
  | ports
  | ptp
  | power
  | prs
  | tables
  | policing
  | frames
  | nextFrame
  | fab
  | egress
  | buses
  | gwe
  | cipher
  | keys
  | twin
  | sl
  | faults
  | upd
  | nvm
  | out
  | free
deriving DecidableEq, Repr

/-- A part is the same in two states. -/
def Part.Same (p : Part) (s t : State) : Prop :=
  match p with
  | .pending => t.pending = s.pending
  | .cclk => t.cclk = s.cclk
  | .mode => t.mode = s.mode
  | .regs => t.regs = s.regs
  | .latched => t.latched = s.latched
  | .held => t.held = s.held
  | .ctrlLockA => t.ctrlLockA = s.ctrlLockA
  | .ctrlLockB => t.ctrlLockB = s.ctrlLockB
  | .shadows => t.shadows = s.shadows
  | .commits => t.commits = s.commits
  | .partNo => t.partNo = s.partNo
  | .hist => t.hist = s.hist
  | .rings => t.rings = s.rings
  | .msixA => t.msixA = s.msixA
  | .msixB => t.msixB = s.msixB
  | .mbx => t.mbx = s.mbx
  | .silt => t.silt = s.silt
  | .msgPages => t.msgPages = s.msgPages
  | .pb => t.pb = s.pb
  | .gpio => t.gpio = s.gpio
  | .ports => t.ports = s.ports
  | .ptp => t.ptp = s.ptp
  | .power => t.power = s.power
  | .prs => t.prs = s.prs
  | .tables => t.tables = s.tables
  | .policing => t.policing = s.policing
  | .frames => t.frames = s.frames
  | .nextFrame => t.nextFrame = s.nextFrame
  | .fab => t.fab = s.fab
  | .egress => t.egress = s.egress
  | .buses => t.buses = s.buses
  | .gwe => t.gwe = s.gwe
  | .cipher => t.cipher = s.cipher
  | .keys => t.keys = s.keys
  | .twin => t.twin = s.twin
  | .sl => t.sl = s.sl
  | .faults => t.faults = s.faults
  | .upd => t.upd = s.upd
  | .nvm => t.nvm = s.nvm
  | .out => t.out = s.out
  | .free => t.free = s.free

/-- Every part but those of a list is the same in two states. -/
def SameBut (l : List Part) (s t : State) : Prop := ∀ p : Part, p ∉ l → p.Same s t

/-- Every part but the queue: a start, or loss of the supplies, leaves nothing else alone. -/
def anyPart : List Part :=
  [.cclk, .mode, .regs, .latched, .held, .ctrlLockA, .ctrlLockB, .shadows, .commits, .partNo, .hist, .rings, .msixA, .msixB, .mbx, .silt, .msgPages, .pb, .gpio, .ports, .ptp, .power, .prs, .tables, .policing, .frames, .nextFrame, .fab, .egress, .buses, .gwe, .cipher, .keys, .twin, .sl, .faults, .upd, .nvm, .out, .free]

/-- Every part but the queue and those of a list. -/
def anyBut (l : List Part) : List Part := anyPart.filter (fun p => !l.contains p)

/-- What a command touches that changes registers and can raise an interrupt (R587). -/
def signalling : List Part := [.regs, .msixA, .msixB, .msgPages, .out]

/-- What a command touches that can also write the Silt Log (R75). -/
def logging : List Part := signalling ++ [.silt]

/-- What a command touches that can also submit a fault report (R502), whose open detail bytes are free values. -/
def reporting : List Part := signalling ++ [.faults, .free]

/-- The parts of the state that a command may change, whatever its operands. -/
def touches (c : Instr) : List Part :=
  match c with
  | .registerWrite .. => anyBut [.cclk, .mode, .latched, .hist, .power, .prs, .policing, .nextFrame, .gwe]
  | .pairLoRead .. => [.latched, .out]
  | .pairHiWrite .. => signalling ++ [.held]
  | .pairLoWrite .. => anyBut [.cclk, .mode, .latched, .hist, .power, .prs, .policing, .nextFrame, .gwe]
  | .ownerWrite .. => logging
  | .semTasRead .. => [.regs, .faults, .out]
  | .semRelease .. => signalling
  | .commitGo .. => signalling ++ [.shadows, .commits, .partNo, .tables]
  | .commitDiscard .. => logging ++ [.shadows, .tables]
  | .commitCheckEnd .. => signalling ++ [.shadows, .commits, .tables, .sl]
  | .commitApply .. => anyBut [.cclk, .latched, .held, .ctrlLockA, .ctrlLockB, .shadows, .partNo, .rings, .mbx, .gpio, .prs, .nextFrame, .gwe, .cipher, .keys, .upd, .nvm]
  | .errcapClear .. => signalling
  | .irqClrWrite .. => signalling
  | .irqEnWrite .. => logging
  | .msixUnmask .. => [.msixA, .msixB, .out]
  | .hostLinkDown .. => logging ++ [.rings, .cipher, .sl, .upd, .nvm, .free]
  | .ringEnable .. => logging ++ [.rings, .cipher, .upd, .free]
  | .ringDisable .. => logging ++ [.rings, .cipher, .upd, .free]
  | .ringDrained .. => [.regs, .rings]
  | .ringTailWrite .. => signalling
  | .txFrameEnter .. => [.regs, .rings, .frames, .nextFrame, .fab, .out, .free]
  | .txLaunch .. => [.regs, .rings, .frames, .nextFrame, .fab]
  | .txCompletion .. => [.rings, .out]
  | .rxFrameDma .. => [.regs, .rings, .out, .free]
  | .ringInterrupt .. => [.rings, .msixA, .msixB, .out]
  | .coalTimerExpire .. => [.rings, .msixA, .msixB, .out]
  | .info .. => [.regs, .msixA, .msixB, .mbx, .out, .free]
  | .modeReqSleepRetain .. => logging ++ [.mbx, .power, .free]
  | .modeReqSleepDeep .. => logging ++ [.mbx, .power, .free]
  | .modeReqService .. => logging ++ [.mode, .mbx, .twin, .sl]
  | .modeReqReset .. => anyPart
  | .modeReqRun .. => [.regs, .msixA, .msixB, .mbx, .power, .out]
  | .testReq .. => anyPart
  | .siltCheckpoint .. => logging ++ [.mbx, .free]
  | .siltCheckpointRecord .. => logging ++ [.free]
  | .siltAckWrite .. => signalling
  | .cycleBoundary .. => anyPart
  | .forcedSyncPoint .. => logging ++ [.mode, .commits, .pb, .policing, .gwe, .twin, .sl, .free]
  | .nettimeRefEvent .. => reporting ++ [.pb]
  | .tickAccepted .. => reporting ++ [.pb, .gpio]
  | .tickRunt .. => [.regs]
  | .tickLoss .. => reporting ++ [.pb]
  | .encCount .. => reporting ++ [.pb, .gpio]
  | .encIndex .. => reporting ++ [.pb, .gpio]
  | .encBackward .. => [.regs, .pb, .gpio]
  | .encIllegal .. => signalling
  | .pbStandstill .. => reporting ++ [.pb]
  | .joinDone .. => reporting ++ [.mode, .commits, .silt, .pb, .policing, .buses, .gwe, .twin, .sl]
  | .capEdge .. => signalling ++ [.gpio]
  | .capNsRead .. => [.regs, .gpio, .faults, .out, .free]
  | .capStatRead .. => [.gpio, .out]
  | .ppoArm .. => logging ++ [.gpio]
  | .ppoFire .. => signalling ++ [.gpio]
  | .frameReceive .. => reporting ++ [.silt, .ports, .frames, .nextFrame, .buses, .cipher, .keys, .nvm]
  | .lossCondition .. => signalling ++ [.ports]
  | .linkDown .. => reporting ++ [.pb, .ports, .ptp, .tables, .frames, .fab, .egress, .sl]
  | .flushDone .. => signalling ++ [.fab]
  | .fdbPortPurge .. => [.regs, .tables]
  | .linkUp .. => reporting ++ [.ports, .frames, .fab, .egress, .sl]
  | .altModeSwitch .. => [.ports, .out]
  | .mmVerifyResponse .. => [.ports]
  | .mmVerifyTimeout .. => signalling ++ [.ports]
  | .mmFragmentReceive .. => reporting ++ [.silt, .ports, .frames, .nextFrame, .buses, .cipher, .keys, .nvm]
  | .tc10SleepReq .. => signalling ++ [.ports, .egress]
  | .tc10WakeReq .. => signalling ++ [.ports]
  | .tc10SleepRequestRx .. => [.regs, .ports, .egress, .out]
  | .tc10HandshakeDone .. => reporting ++ [.pb, .ports, .ptp, .tables, .frames, .fab, .egress]
  | .tc10SleepFail .. => signalling ++ [.ports, .egress]
  | .tc10Wup .. => anyPart
  | .tc10Wur .. => anyPart
  | .mdioC22Write .. => signalling ++ [.ports]
  | .mdioC22Read .. => signalling ++ [.ports]
  | .mdioC45Write .. => signalling ++ [.ports]
  | .mdioC45Read .. => signalling ++ [.ports]
  | .mdioDone .. => signalling ++ [.ports]
  | .sdsPrbsWrite .. => reporting ++ [.silt, .pb, .ports, .ptp, .tables, .frames, .fab, .egress, .sl]
  | .cableTestStart .. => logging ++ [.ports]
  | .diagDone .. => signalling ++ [.ports]
  | .parseDispatch .. => reporting ++ [.prs, .frames, .fab]
  | .dispatchWait .. => reporting ++ [.prs, .frames]
  | .parseResume .. => [.regs, .prs, .frames]
  | .deepParseEnd .. => [.regs, .frames]
  | .endCheck .. => [.regs, .frames, .fab, .egress]
  | .prsCaptArm .. => logging
  | .lookupStage .. => reporting ++ [.tables, .frames]
  | .tueRead .. => reporting ++ [.rings, .tables]
  | .tueWrite .. => logging ++ [.rings, .tables]
  | .tueInsert .. => logging ++ [.rings, .tables]
  | .tueDelete .. => logging ++ [.rings, .tables, .policing]
  | .tueSearch .. => reporting ++ [.rings, .tables]
  | .tueFlush .. => logging ++ [.rings, .tables]
  | .overlayCopyOut .. => signalling ++ [.tables]
  | .overlayRetire .. => [.regs, .tables]
  | .learnRelease .. => signalling ++ [.tables]
  | .learnApply .. => reporting ++ [.tables]
  | .flapIntervalEnd .. => [.tables]
  | .tueFrozenClear .. => signalling
  | .ageingSweep .. => reporting ++ [.tables]
  | .policyStage .. => reporting ++ [.rings, .tables, .policing, .frames, .fab, .egress]
  | .flowSweep .. => [.regs, .tables, .policing]
  | .halfReady .. => [.regs, .frames, .fab, .egress]
  | .loneWaitExpire .. => [.fab]
  | .copyOpen .. => [.fab]
  | .halfRead .. => reporting ++ [.frames, .fab, .egress]
  | .halfRelease .. => [.regs, .frames, .fab, .egress]
  | .txUnderrun .. => signalling ++ [.frames, .fab, .egress]
  | .egressDecision .. => reporting ++ [.frames, .fab, .egress]
  | .lineFree .. => [.regs, .rings, .frames, .fab, .egress, .gwe, .out]
  | .bucketRefill .. => reporting ++ [.egress]
  | .gclEntryBegin .. => reporting ++ [.egress]
  | .gclListBoundary .. => reporting ++ [.egress]
  | .preemptResume .. => [.regs, .egress]
  | .gclDataWrite .. => logging ++ [.egress]
  | .shedReexamine .. => reporting ++ [.silt, .fab, .egress]
  | .canBusIntegrationDone .. => [.buses]
  | .canModeAtIdle .. => [.buses]
  | .canFrameReceived .. => reporting ++ [.buses]
  | .canError .. => reporting ++ [.buses]
  | .canBoRecover .. => signalling ++ [.buses]
  | .busoffRecovered .. => [.buses]
  | .canPendingWrite .. => signalling ++ [.buses]
  | .canBufferReady .. => reporting ++ [.buses]
  | .canSelection .. => reporting ++ [.buses]
  | .canArbLost .. => [.regs, .buses]
  | .canTxOk .. => reporting ++ [.buses]
  | .canTxsGo .. => reporting ++ [.buses]
  | .canCancelTag .. => signalling ++ [.buses]
  | .canCancelAll .. => signalling ++ [.buses]
  | .canCancelSample .. => signalling ++ [.buses]
  | .canCancelAbort .. => reporting ++ [.buses]
  | .canTxevRead .. => [.buses, .faults, .out]
  | .canRxqPop .. => reporting ++ [.buses]
  | .canWindowOverrun .. => reporting ++ [.buses]
  | .canAuthSet .. => logging ++ [.shadows]
  | .authRsvRaise .. => [.buses, .nvm]
  | .linScheduleEntry .. => reporting ++ [.buses, .gwe]
  | .linHeaderRx .. => reporting ++ [.buses, .gwe]
  | .linResponseRx .. => signalling ++ [.buses, .gwe]
  | .linNoResponse .. => signalling ++ [.buses]
  | .linIdleSleep .. => [.buses]
  | .linWakeTx .. => signalling ++ [.buses]
  | .linWakeDetect .. => anyPart
  | .gweEnqueue .. => reporting ++ [.gwe]
  | .routeAdmit .. => [.regs, .gwe]
  | .gweReinject .. => reporting ++ [.gwe]
  | .batchHoldExpire .. => signalling ++ [.gwe]
  | .batchFrameEnter .. => [.frames, .nextFrame, .fab, .gwe]
  | .gweDecapsulate .. => reporting ++ [.tables, .gwe]
  | .gweTblRead .. => reporting ++ [.tables]
  | .gweTblStage .. => logging ++ [.tables]
  | .gweTblReadPending .. => reporting ++ [.tables]
  | .ptpSyncRx .. => reporting ++ [.pb, .ptp]
  | .ptpFollowUpRx .. => reporting ++ [.pb, .ptp, .frames]
  | .fuMissing .. => [.regs, .ptp]
  | .ptpSyncTimeout .. => reporting ++ [.pb, .ptp]
  | .ptpHoldExpire .. => reporting ++ [.pb, .ptp]
  | .ptpSetGo .. => reporting ++ [.pb, .ptp]
  | .pdelayReqTx .. => reporting ++ [.pb, .ptp, .frames, .nextFrame, .fab]
  | .pdelayReqRx .. => [.frames, .nextFrame, .fab]
  | .pdelayRespRx .. => reporting ++ [.pb, .ptp]
  | .syncRelay .. => [.regs, .ptp, .frames, .nextFrame, .fab]
  | .followUpTx .. => [.regs, .ptp, .frames, .nextFrame, .fab]
  | .syncOriginate .. => [.regs, .ptp, .frames, .nextFrame, .fab]
  | .saInstall .. => reporting ++ [.silt, .buses, .cipher, .keys, .nvm]
  | .saRemove .. => logging
  | .encSaWrite .. => logging
  | .katRotation .. => [.regs, .cipher]
  | .katComplete .. => reporting ++ [.cipher]
  | .aesCtrEnc .. => reporting ++ [.rings, .silt, .buses, .cipher, .keys, .nvm]
  | .aesCtrDec .. => reporting ++ [.rings, .silt, .buses, .cipher, .keys, .nvm]
  | .aesGcmEnc .. => reporting ++ [.rings, .silt, .buses, .cipher, .keys, .nvm]
  | .aesGcmDec .. => reporting ++ [.rings, .silt, .buses, .cipher, .keys, .nvm]
  | .aesCmacGen .. => reporting ++ [.rings, .silt, .buses, .cipher, .keys, .nvm]
  | .aesCmacVer .. => reporting ++ [.rings, .silt, .buses, .cipher, .keys, .nvm]
  | .aesCmacFv .. => reporting ++ [.rings, .silt, .buses, .cipher, .keys, .nvm]
  | .aesKwWrap .. => reporting ++ [.rings, .silt, .buses, .cipher, .keys, .nvm]
  | .aesKwUnwrap .. => reporting ++ [.rings, .silt, .buses, .cipher, .keys, .nvm]
  | .sha256 .. => reporting ++ [.rings, .silt, .buses, .cipher, .keys, .nvm]
  | .sha384 .. => reporting ++ [.rings, .silt, .buses, .cipher, .keys, .nvm]
  | .hmacSha256 .. => reporting ++ [.rings, .silt, .buses, .cipher, .keys, .nvm]
  | .hmacSha384 .. => reporting ++ [.rings, .silt, .buses, .cipher, .keys, .nvm]
  | .ecdsaSign .. => reporting ++ [.rings, .silt, .buses, .cipher, .keys, .nvm]
  | .ecdsaVerify .. => reporting ++ [.rings, .silt, .buses, .cipher, .keys, .nvm]
  | .ecdh .. => reporting ++ [.rings, .silt, .buses, .cipher, .keys, .nvm]
  | .drbgGen .. => reporting ++ [.rings, .silt, .buses, .cipher, .keys, .nvm]
  | .drbgReseed .. => reporting ++ [.rings, .silt, .buses, .cipher, .keys, .nvm]
  | .invFence .. => reporting ++ [.rings, .silt, .buses, .cipher, .keys, .nvm]
  | .lookasideComplete .. => reporting ++ [.rings, .silt, .buses, .cipher, .keys, .nvm]
  | .mkpduRx .. => reporting ++ [.silt, .buses, .cipher, .keys, .sl, .nvm]
  | .mkaHello .. => reporting ++ [.silt, .frames, .nextFrame, .fab, .buses, .cipher, .keys, .sl, .nvm]
  | .mkaPeerTimeout .. => reporting ++ [.silt, .buses, .cipher, .keys, .sl, .nvm]
  | .kumInstall .. => reporting ++ [.mbx, .silt, .buses, .cipher, .keys, .nvm]
  | .kumDerive .. => reporting ++ [.mbx, .silt, .buses, .cipher, .keys, .nvm]
  | .kumInvalidate .. => reporting ++ [.mbx, .silt, .buses, .cipher, .keys, .nvm]
  | .kumLcAdvance .. => anyBut [.cclk, .latched, .held, .ctrlLockA, .ctrlLockB, .partNo, .hist, .rings, .prs, .policing, .nextFrame, .gwe, .sl, .upd]
  | .kumFirst .. => reporting ++ [.mbx, .silt, .buses, .cipher, .keys, .nvm]
  | .lcGraceReset .. => anyPart
  | .updActivate .. => logging ++ [.mbx, .nvm]
  | .updActivateReset .. => anyPart
  | .updCancel .. => logging ++ [.mbx, .nvm]
  | .updVeto .. => anyPart
  | .oemKeySet .. => logging ++ [.mbx, .nvm]
  | .roleSwap .. => [.regs, .msixA, .msixB, .mbx, .twin, .sl, .out]
  | .swapPoint .. => anyPart
  | .swapAbort .. => [.regs, .msixA, .msixB, .mbx, .twin, .faults, .out]
  | .swapCondition .. => [.regs, .twin, .sl, .out]
  | .twnKick .. => signalling ++ [.twin]
  | .kickTimeout .. => anyBut [.cclk, .latched, .held, .ctrlLockA, .ctrlLockB, .partNo, .hist, .rings, .prs, .policing, .nextFrame, .gwe, .cipher, .keys, .sl, .upd, .nvm]
  | .heartbeatTx .. => [.regs, .twin, .out]
  | .heartbeatRx .. => signalling ++ [.twin, .sl]
  | .heartbeatSilent .. => reporting ++ [.twin]
  | .takeoverTask .. => reporting ++ [.silt, .fab, .egress, .buses, .gwe, .cipher, .twin]
  | .claimWindow .. => reporting ++ [.mode, .shadows, .commits, .mbx, .silt, .tables, .buses, .gwe, .twin, .sl]
  | .claimLowRead .. => logging ++ [.mode, .buses, .gwe, .twin, .sl]
  | .arbitrationStart .. => logging ++ [.mode, .buses, .gwe, .twin, .sl]
  | .observeEnd .. => logging ++ [.mode, .twin, .nvm]
  | .graceEnd .. => logging ++ [.mode, .twin, .nvm]
  | .slRecordRx .. => reporting ++ [.rings, .silt, .frames, .nextFrame, .fab, .buses, .cipher, .keys, .twin, .sl, .upd, .nvm]
  | .slLack .. => [.regs, .sl, .out]
  | .slRetransmit .. => [.regs, .sl, .out]
  | .joinReqRx .. => [.twin]
  | .joinEndRx .. => reporting ++ [.commits, .pb, .ports, .ptp, .tables, .frames, .fab, .egress, .buses, .twin, .sl]
  | .syncApply .. => anyBut [.cclk, .latched, .held, .ctrlLockA, .ctrlLockB, .shadows, .partNo, .rings, .mbx, .gpio, .prs, .nextFrame, .cipher, .keys, .upd, .nvm]
  | .digestRecomputeDone .. => [.regs, .twin, .sl, .out]
  | .syncAckRx .. => reporting ++ [.mode, .silt, .cipher, .twin]
  | .commitRecordRx .. => logging ++ [.commits, .partNo, .tables, .sl]
  | .commitAckRx .. => [.commits]
  | .roleAnnounce .. => signalling ++ [.frames, .nextFrame, .fab, .twin]
  | .lockstepMismatch .. => anyPart
  | .taskCommit .. => anyPart
  | .taskOverrun .. => anyPart
  | .scrubPass .. => anyPart
  | .dpStall .. => anyBut [.cclk, .latched, .held, .ctrlLockA, .ctrlLockB, .partNo, .hist, .rings, .prs, .policing, .nextFrame, .gwe, .cipher, .keys, .sl, .upd, .nvm]
  | .portStall .. => anyBut [.cclk, .latched, .held, .ctrlLockA, .ctrlLockB, .partNo, .hist, .rings, .prs, .policing, .nextFrame, .gwe, .cipher, .keys, .sl, .upd, .nvm]
  | .clockFail .. => anyBut [.cclk, .latched, .held, .ctrlLockA, .ctrlLockB, .partNo, .hist, .rings, .prs, .policing, .nextFrame, .gwe, .cipher, .keys, .sl, .upd, .nvm]
  | .supplyFail .. => anyBut [.cclk, .latched, .held, .ctrlLockA, .ctrlLockB, .partNo, .hist, .rings, .prs, .policing, .nextFrame, .gwe, .cipher, .keys, .sl, .upd, .nvm]
  | .faultReport .. => signalling ++ [.faults]
  | .coalesce .. => signalling ++ [.faults]
  | .windowClose .. => [.faults]
  | .faultRecordWrite .. => signalling ++ [.faults]
  | .memInjArm .. => logging ++ [.faults]
  | .lspInjOnce .. => logging ++ [.faults]
  | .lspInjAsync .. => logging ++ [.faults]
  | .lspInjPersist .. => logging ++ [.faults]
  | .fltInjGo .. => reporting ++ [.silt]
  | .sleepEntryStop .. => [.ports, .power, .fab, .egress, .buses, .out]
  | .sleepDrainEnd .. => reporting ++ [.pb, .ports, .ptp, .power, .tables, .frames, .fab, .egress]
  | .sleepCheckpointDone .. => logging ++ [.mode, .shadows, .commits, .rings, .mbx, .power, .tables, .cipher, .twin, .sl, .upd, .nvm, .free]
  | .suppliesOff .. => anyPart
  | .wakePinAssert .. => anyPart
  | .wakeTimerExpire .. => anyPart
  | .powerOn .. => anyPart
  | .resetPin .. => anyPart
  | .tamperAssert .. => anyBut [.cclk, .latched, .held, .ctrlLockA, .ctrlLockB, .partNo, .hist, .rings, .prs, .policing, .nextFrame, .gwe, .sl, .upd]
  | .glitchDetect .. => anyBut [.cclk, .latched, .held, .ctrlLockA, .ctrlLockB, .partNo, .hist, .rings, .prs, .policing, .nextFrame, .gwe, .sl, .upd]
  | .temperatureLimit .. => anyBut [.cclk, .latched, .held, .ctrlLockA, .ctrlLockB, .partNo, .hist, .rings, .prs, .policing, .nextFrame, .gwe, .sl, .upd]
  | .updSessionOpen .. => signalling ++ [.upd]
  | .updSessionClose .. => signalling ++ [.sl, .upd, .nvm]
  | .updWrite .. => logging ++ [.rings, .sl, .upd, .nvm]
  | .updFinish .. => anyPart
  | .updAbort .. => [.regs, .rings, .sl, .upd, .nvm, .out]
  | .relayRecordRx .. => anyPart
  | .relayFrameRx .. => logging ++ [.rings, .frames, .nextFrame, .fab, .sl, .upd, .nvm]
  | .relayRetransmit .. => logging ++ [.rings, .frames, .nextFrame, .fab, .sl, .upd, .nvm]
  | .trialWindowEnd .. => anyPart
  | .supplyRetry .. => anyPart
  | .lossConditionClear .. => [.ports]
  | .claimHighRead .. => signalling ++ [.twin]
  | .inputLinkWrite .. => signalling ++ [.fab]
  | .flashWriteDone .. => [.regs, .rings, .sl, .upd, .nvm, .out, .free]
  | .hostLinkUp .. => [.regs]
  | .busyhit .. => signalling ++ [.mbx]

/-- Every register is the same in two states but those listed by address and those of the listed pages. -/
def RegsBut (addrs pages : List Nat) (s t : State) : Prop :=
  ∀ a, a ∉ addrs → a / 0x1000 ∉ pages → t.reg a = s.reg a

/-- The write of a register that a command is: the master, the BAR0 offset and the value. A SA_INSTALL has checks of its
own before those of R46 (R390), and a REGISTER_WRITE may be of any width. -/
def writeOf (c : Instr) : Option (Who × Nat × Word) :=
  match c with
  | .pairHiWrite w a v => some (w, a, v)
  | .pairLoWrite w a v => some (w, a, v)
  | .ownerWrite w p v => some (w, regAddr p 0x20, v)
  | .semRelease w n => some (w, aTas n, 0)
  | .commitGo w tag => some (w, aSys 0x040, w32 (1 + tag * 2 ^ 16))
  | .commitDiscard w => some (w, aSys 0x040, 2)
  | .errcapClear w p => some (w, regAddr p 0x28, 0x8000)
  | .irqClrWrite w p v => some (w, regAddr p 0x1C, v)
  | .irqEnWrite w p v => some (w, regAddr p 0x14, v)
  | .ringEnable w r v => some (w, ringBase r + 8, v)
  | .ringDisable w r v => some (w, ringBase r + 8, v)
  | .ringTailWrite w r v => some (w, ringBase r + 0x14, v)
  | .siltAckWrite w h v => some (w, aAck h, v)
  | .ppoArm w n v => some (w, aGpio (0x100 + 0x10 * n), v)
  | .tc10SleepReq w n => some (w, aTphy n 0x044, 1)
  | .tc10WakeReq w n => some (w, aTphy n 0x044, 2)
  | .sdsPrbsWrite w lane v => some (w, laneReg lane 0x04C, v)
  | .cableTestStart w n => some (w, aTphy n 0x04C, 1)
  | .prsCaptArm w v => some (w, aPrs 0x04C, v)
  | .tueFrozenClear w hi v => some (w, aTue (if hi then 0x064 else 0x060), v)
  | .gclDataWrite w p v => some (w, aEgs p 0x060, v)
  | .canBoRecover w n => some (w, aCan n 0x060, 1)
  | .canTxsGo w n => some (w, aCan n 0x068, 1)
  | .canCancelTag w n tag => some (w, aCan n 0x064, w32 tag)
  | .canCancelAll w n => some (w, aCan n 0x064, w32 (2 ^ 16))
  | .canAuthSet w v => some (w, aCan 0 0x0D4, v)
  | .linWakeTx w n => some (w, aLin n 0x04C, 1)
  | .gweTblRead w => some (w, aGweTbl 0x044, 1)
  | .gweTblStage w => some (w, aGweTbl 0x044, 2)
  | .gweTblReadPending w => some (w, aGweTbl 0x044, 3)
  | .ptpSetGo w d => some (w, aDom d 0x44, 1)
  | .saRemove w p sa v => some (w, aMsc p (saOff sa), v)
  | .encSaWrite w p v => some (w, aMsc p 0x054, v)
  | .twnKick w => some (w, aTwn 0x050, 1)
  | .memInjArm w v => some (w, aMem 0x050, v)
  | .fltInjGo w v => some (w, aFlt 0x100, v)
  | .updSessionOpen w v => some (w, aUpd 0x060, setBit v 0)
  | .updSessionClose w v => some (w, aUpd 0x060, setBit (clrBit v 0) 1)
  | _ => none

/-- The read of a register that a command is: the master and the BAR0 offset. -/
def readOf (c : Instr) : Option (Who × Nat) :=
  match c with
  | .pairLoRead w a => some (w, a)
  | .semTasRead w n => some (w, aTas n)
  | .capNsRead w n => some (w, aGpio (0x208 + 0x20 * n))
  | .capStatRead w n => some (w, aGpio (0x204 + 0x20 * n))
  | .canTxevRead w n => some (w, aCan n 0x070)
  | .canRxqPop w n q => some (w, aCan n (0x07C + 4 * q))
  | _ => none

/-- The request that a lookaside command makes (R409). -/
def laNew (s : State) (src : LaSource) (d : LaDesc) (input : List Byte) (fault healthy : Bool) : LaReq :=
  { source := src, d := d, input := slice input 0 d.srcLen, num := s.cipher.num, fault := fault, healthy := healthy }

/-- The state in which it has been taken from its source and waits as the last of the queue. -/
def laTaken (s : State) (src : LaSource) (r : LaReq) : State :=
  let t := match laRing src with | some x => ringTake s x 1 | none => s
  { t with cipher := { t.cipher with num := t.cipher.num + 1, turn := if src = .gwe then t.cipher.turn else laTurn src,
                                     queue := t.cipher.queue ++ [r] } }

/-- The invariant: the register file and the memory of the forwarding tables are in their one canonical form. -/
def Canonical (s : State) : Prop := Tab.wf regReset s.regs = true ∧ Tab.wf entZero s.tables.ent = true

/-- Bit `b` of OTP byte `i` is programmed. -/
def otpBit (s : State) (i b : Nat) : Prop := (Tab.get (fun _ => 0) s.nvm.otp i).getLsbD b = true

end Sys2Proof.Machine
end

