-- ==== Sys2Proof/Certificates/Slice0/Obligations.lean ====
section
/-!
DEFINITION. The statements about the model: what every command does, in the terms of Safety.lean. Where one rests on a
choice of the model, its docstring names the entry of the assumption log.
-/
open Sys2Proof Sys2Proof.Machine

/-- STEP_OF_A_COMMAND. The command at the front of the queue runs on the state that holds the rest of the queue. -/
def Obligations.StepRunsTheFrontCommand : Prop :=
  ∀ (c : Instr) (rest : List Instr) (s : State),
    step { s with pending := c :: rest } = exec c { s with pending := rest }

/-- IDLE. On an empty queue one CCLK cycle passes (the model's choice, log entry 2). -/
def Obligations.IdleStepIsOneCclkCycle : Prop :=
  ∀ s : State, s.pending = [] → step s = .next (cclkTick s)

/-- No row of the table has bits: no word spells a command, and nothing is put in front of the queue. Where the spec
leaves a point to a reading or a choice, log entry 1 says which. -/
def Obligations.NoWordSpellsACommand : Prop :=
  ∀ (nbits w : Nat) (s : State), decodeTableWord nbits w = none ∧ s.withFetchWord nbits w = s

/-- Every command whose operands name parts of the HX48 answers a next state, and any other is refused as ill formed.
Where the spec leaves a point to a reading or a choice, log entry 5 says which. -/
def Obligations.WellFormedCommandsComplete : Prop :=
  ∀ (c : Instr) (s : State),
    (c.wf = true → ∃ t, exec c s = .next t) ∧ (c.wf = false → exec c s = .refused .illFormed)

/-- The invariant holds right after reset. Where the spec leaves a point to a reading or a choice, log entries 6 and 7
say which. -/
def Obligations.InvariantAtReset : Prop :=
 Canonical State.reset

/-- Every step keeps the register file and the table memory in their canonical form. Where the spec leaves a point to a
reading or a choice, log entries 2 and 64 say which. -/
def Obligations.EveryStepKeepsTheInvariant : Prop :=
  ∀ s t : State, Canonical s → step s = .next t → Canonical t

/-- A programmed OTP bit stays programmed over every step, a start and a loss of the supplies included. Where the spec
leaves a point to a reading or a choice, log entries 14 and 48 say which. -/
def Obligations.ProgrammedOtpBitsStay : Prop :=
  ∀ (s t : State) (i b : Nat), Canonical s → otpBit s i b → step s = .next t → otpBit t i b

/-- No command changes the queue: a step takes the front command off it and changes nothing else of it. -/
def Obligations.CommandsLeaveTheQueue : Prop :=
  ∀ (c : Instr) (s t : State), exec c s = .next t → t.pending = s.pending

/-- Each command changes only the parts of the state that `touches` lists for it. Where the spec leaves a point to a
reading or a choice, log entry 3 says which. -/
def Obligations.CommandsChangeOnlyWhatTheyTouch : Prop :=
  ∀ (c : Instr) (s t : State), exec c s = .next t → SameBut (touches c) s t

/-- A refused write, by whatever command: recorded in the ERRCAP of a page, with no other effect. Where the spec leaves
a point to a reading or a choice, log entry 23 says which. -/
def Obligations.RefusedWritesAreRecorded : Prop :=
  ∀ (c : Instr) (s : State) (w : Who) (a : Nat) (v : Word) (p : Nat) (r : Refused),
    c.wf = true → writeOf c = some (w, a, v) → checkWrite s w a 4 v = some (p, r) →
    Answers c s fun t =>
      SameBut signalling s t ∧
      RegsBut [regAddr p 0x28, regAddr p 0x2C, regAddr p 0x10] (if r = .siltFull then [pSilt] else []) s t ∧
      (s.fld (regAddr p 0x28) 16 16 = 0 →
        t.fld (regAddr p 0x28) 0 8 = refusedCode r ∧ t.fld (regAddr p 0x28) 8 4 = masterId w.m ∧
        t.fld (regAddr p 0x28) 12 1 = b2n (worldSec w) ∧ t.fld (regAddr p 0x28) 14 1 = 0 ∧
        t.fld (regAddr p 0x28) 16 16 = 1 ∧ t.reg (regAddr p 0x2C) = w32 (entryAddr w a % 2 ^ 24)) ∧
      (s.fld (regAddr p 0x28) 16 16 ≠ 0 →
        t.fld (regAddr p 0x28) 0 13 = s.fld (regAddr p 0x28) 0 13 ∧ t.fld (regAddr p 0x28) 14 1 = 1 ∧
        t.fld (regAddr p 0x28) 16 16 = min 0xFFFF (s.fld (regAddr p 0x28) 16 16 + 1) ∧
        t.reg (regAddr p 0x2C) = s.reg (regAddr p 0x2C)) ∧
      t.bitAt (regAddr p 0x10) 31 = true

/-- A read that reaches no register returns 0 and changes nothing. -/
def Obligations.ReadsOfNothingReturnZero : Prop :=
  ∀ (c : Instr) (s : State) (w : Who) (a : Nat),
    c.wf = true → readOf c = some (w, a) → ¬ Reaches s w a → exec c s = .next (s.emit (.read w.m a 0))

/-- The order of R46, for every write of a register that the map holds; the two cases of ADDR_RESERVED (R41, R42, R7);
and a REGISTER_WRITE that a check refuses is recorded, whatever its width. -/
def Obligations.FirstCauseOfRefusalIsRecorded : Prop :=
  ∀ (s : State) (w : Who) (a width : Nat) (v : Word),
    (windowClosed s w = true ∨ noSuchRing w a = true → checkWrite s w a width v = some (pSys, .addrReserved)) ∧
    (windowClosed s w = false → noSuchRing w a = false → regDef (a / 4 * 4) = none →
      checkWrite s w a width v = some (errPage a, .addrReserved)) ∧
    (∀ d, windowClosed s w = false → noSuchRing w a = false → regDef (a / 4 * 4) = some d →
      checkWrite s w a width v =
        (([(decide (width ≠ 4) || decide (a % 4 ≠ 0), Refused.accessWidth), (decide (d.ty = .ro), .writeRo),
           (hifForeign w a, .hifForeign), (d.sec && !worldSec w, .worldDenied), (modeDenied s w d a v.toNat, .modeDenied),
           (notOwner s w a v.toNat, .notOwner), (locked s w a v.toNat, .locked), (valueRange s d a v.toNat, .valueRange),
           (isHost w.m && writeLogged d a && siltFull s, .siltFull)].find? (fun x => x.1)).map
          (fun x => (errPage a, x.2)))) ∧
    (∀ p r, a < 0x1000000 → 1 ≤ width → width ≤ 8 → installs a v = none → checkWrite s w a width v = some (p, r) →
      exec (.registerWrite w a width v) s = .next (s.refuse p r w a))

/-- REGISTER_WRITE of a register without an effect of its own, on a page that has none such: by its type (R5, R6), RW
and RWS logged (R75). Where the spec leaves a point to a reading or a choice, log entries 17, 72 and 73 say which.
It says where this command completes: REGISTER_WRITE. -/
def Obligations.RegisterWriteActsByType : Prop :=
  ∀ (s : State) (w : Who) (a : Nat) (v : Word) (d : RegDef),
    addrOk a = true → regDef a = some d → d.half = .none →
    a / 0x1000 ∈ [pWake, pPb, pTue, pPl 0, pPl 1, pFw, pSfp, pFab, pBuf] → 0x040 ≤ a % 0x1000 → Passes s w a v →
    (d.ty = .rw → exec (.registerWrite w a 4 v) s = .next
      (logReg (s.setReg a (newVal s a v)) (originOf w.m) a (s.reg a) (newVal s a v) false)) ∧
    (d.ty = .rws → exec (.registerWrite w a 4 v) s = .next
      (logReg (s.putShadow { off := a, val := newVal s a v, writer := w.m }) (originOf w.m) a (pendingVal s a)
        (newVal s a v) true)) ∧
    (d.ty = .w1c → exec (.registerWrite w a 4 v) s = .next (s.setReg a (s.reg a &&& ~~~ (newVal s a v))))

/-- R53: the pending shadow of an RWS register, whoever wrote the one before; the value in effect stays. -/
def Obligations.ShadowReplacesTheEarlierOne : Prop :=
  ∀ (s : State) (w : Who) (a : Nat) (v : Word) (d : RegDef),
    addrOk a = true → regDef a = some d → d.half = .none → d.ty = .rws →
    a / 0x1000 ∈ [pWake, pPb, pTue, pPl 0, pPl 1, pFw, pSfp, pFab, pBuf] → 0x040 ≤ a % 0x1000 → Passes s w a v →
    Answers (.registerWrite w a 4 v) s fun t =>
      t.shadows.filter (fun x => x.off == a) = [{ off := a, val := newVal s a v, writer := w.m }] ∧
      t.shadows.filter (fun x => x.off != a) = s.shadows.filter (fun x => x.off != a) ∧
      RegsBut [] [pSilt] s t

/-- R9: PAIR_LO_READ latches `_HI` for its reader (and a read of `PTP_Dd_TIME_NS` the seconds and the fraction of the
same instant, Table 12-3), PAIR_HI_WRITE is held for its writer, and PAIR_LO_WRITE of a pair of plain RW registers
applies both halves. Where the spec leaves a point to a reading or a choice, log entry 17 says which. It says where
these commands complete: PAIR_LO_READ, PAIR_HI_WRITE, PAIR_LO_WRITE. -/
def Obligations.PairsAreReadAndWrittenWhole : Prop :=
  (∀ (s : State) (w : Who) (a : Nat), loOk a = true → timeNsAt a = false → Reaches s w a →
    exec (.pairLoRead w a) s =
      .next ((s.setLatch w.m (a + 4) (s.view w (a + 4))).emit (.read w.m a (s.view w a)))) ∧
  (∀ (s : State) (w : Who) (d : Nat), d < 2 → Reaches s w (aDom d 0x24) →
    exec (.pairLoRead w (aDom d 0x24)) s =
      .next ((((s.setLatch w.m (aDom d 0x28) (w32 (timeSec (s.dom d).time))).setLatch w.m (aDom d 0x2C)
        (w32 (timeSec (s.dom d).time / 2 ^ 32))).setLatch w.m (aDom d 0x30) (w32 (timeFrac (s.dom d).time))).emit
        (.read w.m (aDom d 0x24) (s.view w (aDom d 0x24))))) ∧
  (∀ (s : State) (w : Who) (a : Nat) (v : Word), hiOk a = true → Passes s w a v →
    Answers (.pairHiWrite w a v) s fun t =>
      t.heldOf w.m a = some (newVal s a v) ∧ RegsBut [] [] s t ∧
      ∀ m b, latchKey m b ≠ latchKey w.m a → t.heldOf m b = s.heldOf m b) ∧
  (∀ (s : State) (w : Who) (a : Nat) (v : Word) (d e : RegDef), regDef a = some d → regDef (a + 4) = some e →
    d.half = .lo → d.ty = .rw → e.ty = .rw →
    (a / 0x1000 = pGpio ∧ a % 0x10 = 8) ∨ (a / 0x1000 = pPtp ∧ a % 0x10 = 12) → 0x040 ≤ a % 0x1000 →
    a % 0x1000 < 0xFF0 → Passes s w a v →
    Answers (.pairLoWrite w a v) s fun t =>
      t.reg a = newVal s a v ∧
      t.reg (a + 4) = newVal s (a + 4) ((s.heldOf w.m (a + 4)).getD (s.reg (a + 4))) ∧
      t.heldOf w.m (a + 4) = none ∧ RegsBut [a, a + 4] [pSilt] s t)

/-- OWNER_WRITE that no rule refuses sets ID and logs the change; one that leaves ID as it is changes nothing.
ERRCAP_CLEAR, IRQ_CLR_WRITE and IRQ_EN_WRITE: what the common registers of a page hold after them (R45, R565, R587).
MSIX_UNMASK: a pending vector is sent and its pending bit cleared; one that is not pending sends nothing (R587).
Where the spec leaves a point to a reading or a choice, log entry 23 says which. It says where these commands
complete: OWNER_WRITE, ERRCAP_CLEAR, IRQ_CLR_WRITE, IRQ_EN_WRITE, MSIX_UNMASK. -/
def Obligations.CommonRegistersOfAPage : Prop :=
  (
    ∀ (s : State) (w : Who) (p : Nat) (v : Word), pageOk p = true → Passes s w (regAddr p 0x20) v →
      let a := regAddr p 0x20
      let new := putFld (s.reg a) 0 4 (fld v 0 4)
      exec (.ownerWrite w p v) s = .next
        (if s.reg a = new then s
         else (s.setReg a new).silt_ (s.reg a) new (originOf w.m) 3 0 (a / 4 % 2 ^ 19))) ∧
  (
    (∀ (s : State) (w : Who) (p : Nat), pageOk p = true → Passes s w (regAddr p 0x28) 0x8000 →
      exec (.errcapClear w p) s = .next ((s.setReg (regAddr p 0x28) 0).setReg (regAddr p 0x2C) 0)) ∧
    (∀ (s : State) (w : Who) (p : Nat) (v : Word), pageOk p = true → Passes s w (regAddr p 0x1C) v →
      exec (.irqClrWrite w p v) s = .next (s.setReg (regAddr p 0x10) (s.reg (regAddr p 0x10) &&& ~~~ (v &&& ~~~ s.raisedNow p)))) ∧
    (∀ (s : State) (w : Who) (p : Nat) (v : Word), pageOk p = true → p ≠ pSilt → Passes s w (regAddr p 0x14) v →
      Answers (.irqEnWrite w p v) s fun t =>
        t.reg (regAddr p 0x14) = newVal s (regAddr p 0x14) v ∧ RegsBut [regAddr p 0x14] [pSilt] s t ∧
        t = (if s.reg (regAddr p 0x10) &&& v &&& ~~~ (s.reg (regAddr p 0x14)) ≠ 0 then
               (plainWrite s w (regAddr p 0x14) v).pageMsg p
             else plainWrite s w (regAddr p 0x14) v))) ∧
  (
    ∀ (s : State) (h : HostPort) (v : Nat), v < 64 →
      Answers (.msixUnmask h v) s fun t =>
        (t.msix h).masked.getLsbD v = false ∧ (t.msix h).pend.getLsbD v = false ∧
        (∀ i, i ≠ v → (t.msix h).masked.getLsbD i = (s.msix h).masked.getLsbD i ∧
          (t.msix h).pend.getLsbD i = (s.msix h).pend.getLsbD i) ∧
        (t.msix h).table = (s.msix h).table ∧
        t.out = (if (s.msix h).masked.getLsbD v && (s.msix h).pend.getLsbD v then .msix h v :: s.out else s.out))

/-- R50: what a read of `SEM_TASn` returns and leaves, for every master whose read is performed (R488), on a unit that
is not in STANDBY; and in STANDBY GOT = 0 with the owner, nothing changed (R52, first clause). It says where this
command completes: SEM_TAS_READ. -/
def Obligations.SemaphoreRead : Prop :=
  ∀ (s : State) (w : Who) (n : Nat), n < 64 → Reaches s w (aTas n) → Performs s w (aTas n) →
    let o := s.fld (aSem n) 0 4
    Answers (.semTasRead w n) s fun t =>
      (s.mode ≠ .standby → o = 0 →
        t.fld (aSem n) 0 4 = masterId w.m ∧ t.out = .read w.m (aTas n) (tasValue true (masterId w.m)) :: s.out ∧
        RegsBut [aSem n] [] s t) ∧
      (s.mode ≠ .standby → o = masterId w.m →
        t.out = .read w.m (aTas n) (tasValue true o) :: s.out ∧ SameBut [.faults, .out] s t) ∧
      (s.mode ≠ .standby → o ≠ 0 → o ≠ masterId w.m →
        t.out = .read w.m (aTas n) (tasValue false o) :: s.out ∧ SameBut [.faults, .out] s t) ∧
      (s.mode = .standby →
        t.out = .read w.m (aTas n) (tasValue false o) :: s.out ∧ SameBut [.faults, .out] s t) ∧
      (isHost w.m = true → t.faults = s.faults)

/-- R51 for a write of 0: release by the owner, no effect on a free semaphore, NOT_OWNER for another master, and
MODE_DENIED on a standby (R52). It says where this command completes: SEM_RELEASE. -/
def Obligations.SemaphoreRelease : Prop :=
  ∀ (s : State) (w : Who) (n : Nat), n < 64 → Passes s w (aTas n) 0 →
    let o := s.fld (aSem n) 0 4
    exec (.semRelease w n) s = .next
      (if s.mode = .standby then s.refuse pSem .modeDenied w (aTas n)
       else if o = 0 then s
       else if o = masterId w.m then s.setFld (aSem n) 0 4 0
       else s.refuse pSem .notOwner w (aTas n))

/-- COMMIT_GO with no commit outstanding arms one that holds every pending shadow (R55); with two outstanding it is
refused in the writer's stat (R58). COMMIT_CHECK_END of a commit of one part: a part that passes stands as checked;
one that fails is refused in its writer's stat, its shadows pending again, no register of the commit changed (R57).
COMMIT_APPLY of the one outstanding commit at its point: its values and its records take effect and its writer's
stat shows APPLIED (R55, R60). A commit that changes nothing reports APPLIED and leaves the epoch and the Silt Log
(R60). An event whose condition does not hold changes nothing: the model's choice (log entry 4). Where the spec
leaves a point to a reading or a choice, log entry 21 says which. It says where these commands complete: COMMIT_GO,
COMMIT_CHECK_END, COMMIT_APPLY. -/
def Obligations.CommitsRunTheirCourse : Prop :=
  (
    ∀ (s : State) (w : Who) (tag : Nat), tag < 2 ^ 16 → Passes s w (aSys 0x040) (w32 (1 + tag * 2 ^ 16)) →
      (s.commits = [] → (isHost w.m && siltFull s) = false →
        Answers (.commitGo w tag) s fun t =>
          t.shadows = [] ∧
          t.commits = [{ point := newPoint s,
                         parts := [{ id := s.partNo + 1, writer := w.m, tag := tag, goAt := s.cclk, vals := s.shadows }] }] ∧
          ((s.mode = .configure ∨ s.mode = .service) → newPoint s = .cycle (s.cclk + 20000)) ∧
          RegsBut [aSys 0x044, aSys 0x048] [] s t ∧
          (w.m = .ha → t.reg (aSys 0x044) = w32 (1 + tag * 2 ^ 16)) ∧
          (w.m = .hb → t.reg (aSys 0x048) = w32 (1 + tag * 2 ^ 16))) ∧
      (2 ≤ s.commits.length →
        exec (.commitGo w tag) s = .next ((commitStat s w.m 3 ccBusy tag).raise pSys 1))) ∧
  (
    ∀ (s : State) (pt : CommitPoint) (ft ak : Bool) (p : CommitPart),
      s.commits = [{ point := pt, parts := [p], fromTwin := ft, acked := ak }] → p.checked = false →
      (partCheck s (checkView s [] p) p.id = none → s.twin.role ≠ .active →
        exec .commitCheckEnd s = .next { s with
          commits := [{ point := pt, parts := [{ p with checked := true }], fromTwin := ft, acked := ak }] }) ∧
      (∀ code page, partCheck s (checkView s [] p) p.id = some (code, page) →
        Answers .commitCheckEnd s fun t =>
          t.commits = [] ∧
          t.shadows = p.vals.filter (fun x => (s.shadowOf x.off).isNone) ++ s.shadows ∧
          t.reg (aSys 0x04C) = w32 page ∧ t.epoch = s.epoch ∧
          (p.writer = .ha → t.reg (aSys 0x044) = w32 (3 + code * 2 ^ 4 + p.tag % 2 ^ 16 * 2 ^ 16)) ∧
          (p.writer = .hb → t.reg (aSys 0x048) = w32 (3 + code * 2 ^ 4 + p.tag % 2 ^ 16 * 2 ^ 16)) ∧
          RegsBut [aSys 0x044, aSys 0x048, aSys 0x04C, regAddr pSys 0x10] [] s t)) ∧
  (
    (∀ (s : State) (c : Commit) (p : CommitPart), s.commits = [c] → c.parts = [p] → commitDue s c = true →
      s.twin.role ≠ .active →
      Answers .commitApply s fun t =>
        t = applyCommit s c ∧ t.commits = [] ∧ t.shadows = s.shadows ∧
        (p.writer = .ha → t.reg (aSys 0x044) = w32 (2 + p.tag % 2 ^ 16 * 2 ^ 16)) ∧
        (p.writer = .hb → t.reg (aSys 0x048) = w32 (2 + p.tag % 2 ^ 16 * 2 ^ 16))) ∧
    (∀ (s : State) (c : Commit), s.commits.find? (commitDue s) = some c →
      exec .commitApply s = .next (applyCommit s c)) ∧
    (∀ s : State, s.commits.find? (commitDue s) = none → exec .commitApply s = .next s) ∧
    ∀ (s : State) (c : Commit) (p : CommitPart), s.commits = [c] → c.parts = [p] → commitDue s c = true →
      changedVals { s with commits := [] } c = [] → changedRecs { s with commits := [] } c = false →
      s.twin.role ≠ .active → s.power.topsoilBusy = false →
      Answers .commitApply s fun t =>
        t.commits = [] ∧ t.epoch = s.epoch ∧ t.silt = s.silt ∧
        (p.writer = .ha → t.reg (aSys 0x044) = w32 (2 + p.tag % 2 ^ 16 * 2 ^ 16)) ∧
        (p.writer = .hb → t.reg (aSys 0x048) = w32 (2 + p.tag % 2 ^ 16 * 2 ^ 16)))

/-- R59: DISCARD clears every pending shadow and every PENDING record, logs it once, and leaves armed commits. It says
where this command completes: COMMIT_DISCARD. -/
def Obligations.DiscardClearsWhatIsPending : Prop :=
  ∀ (s : State) (w : Who), Passes s w (aSys 0x040) 2 →
    (discardCount s = 0 →
      exec (.commitDiscard w) s = .next s) ∧
    (discardCount s ≠ 0 →
      (isHost w.m && siltFull s) = true → exec (.commitDiscard w) s = .next (s.refuse pSys .siltFull w (aSys 0x040))) ∧
    (discardCount s ≠ 0 →
      (isHost w.m && siltFull s) = false →
      exec (.commitDiscard w) s = .next
        ((discardRecords { s with shadows := [] }).silt_ (w32 (discardCount s)) (w32 s.epoch)
          (originOf w.m) 2 1 0))

/-- HOST_LINK_DOWN and HOST_LINK_UP: the link's speed and width, and, when it falls, no page and no semaphore is left to
the host and its rings stand disabled (R49). RING_ENABLE of a ring that stands disabled, and RING_DISABLE of one
that is enabled: EN and DRAINED, the first pass of the completion ring, and the ring draining (R70, R72).
RING_DRAINED sets HEAD to TAIL and DRAINED (R70); RING_TAIL_WRITE sets TAIL. Where the spec leaves a point to a
reading or a choice, log entries 22 and 69 say which. It says where these commands complete: HOST_LINK_DOWN,
RING_ENABLE, RING_DISABLE, RING_DRAINED, RING_TAIL_WRITE, HOST_LINK_UP. -/
def Obligations.HostLinksAndRings : Prop :=
  (
    (∀ (s : State) (h : HostPort), asleep s.mode = false →
      exec (.hostLinkDown h) s = .next
        ((updOwnerGone (hostRingsStop (releaseOwned s (masterId (hostMaster h))) h) (hostMaster h)).setReg
          (regAddr (pHif h 0) 0x040) 0)) ∧
    (∀ (s : State) (h : HostPort) (speed width : Nat), hostLinkOk speed width = true → asleep s.mode = false →
      exec (.hostLinkUp h speed width) s = .next (s.setReg (regAddr (pHif h 0) 0x040) (w32 (speed + width * 16 + 0x100))))) ∧
  (
    (∀ (s : State) (w : Who) (r : RingId) (v : Word), ringOk r = true → bit v.toNat 0 = true → ringEn s r = false →
      Passes s w (ringBase r + 8) v →
      Answers (.ringEnable w r v) s fun t =>
        t.fld (ringBase r + 8) 0 31 = fld (newVal s (ringBase r + 8) v) 0 31 ∧ t.bitAt (ringBase r + 8) 31 = false ∧
        (t.ring r).count = 0 ∧ (t.ring r).written = 0 ∧ (t.ring r).draining = false ∧
        (t.ring r).flight = (s.ring r).flight ∧ RegsBut [ringBase r + 8] [pSilt] s t) ∧
    (∀ (s : State) (w : Who) (r : RingId) (v : Word), ringOk r = true → bit v.toNat 0 = false → ringEn s r = true →
      Passes s w (ringBase r + 8) v →
      Answers (.ringDisable w r v) s fun t =>
        t.reg (ringBase r + 8) = newVal s (ringBase r + 8) v ∧ (t.ring r).draining = true ∧
        RegsBut [ringBase r + 8] [pSilt] s t)) ∧
  (
    (∀ (s : State) (r : RingId), ringOk r = true → (s.ring r).draining = true → ringIdle s r = true →
      Answers (.ringDrained r) s fun t =>
        t.fld (ringBase r + 0x18) 0 12 = s.fld (ringBase r + 0x14) 0 12 ∧ t.bitAt (ringBase r + 8) 31 = true ∧
        (t.ring r).draining = false ∧ RegsBut [ringBase r + 0x18, ringBase r + 8] [] s t) ∧
    (∀ (s : State) (w : Who) (r : RingId) (v : Word), ringOk r = true → Passes s w (ringBase r + 0x14) v →
      exec (.ringTailWrite w r v) s = .next (s.setReg (ringBase r + 0x14) (newVal s (ringBase r + 0x14) v))))

/-- TX_FRAME_ENTER: a frame within the limits of R63, with no frame of its TC waiting before it and its launch position
reached, enters PRS in this cycle when the port's pacer is open (R64, R65, R243): it is the next frame, from the
host's port, with the bytes and the TC that the host gave. One outside the limits completes with LEN_RANGE or
CHAIN_RANGE, one that could not be read with its error, and one whose launch position is ahead waits. TX_LAUNCH: the
first waiting frame of a TC enters in the same way once its position is reached. TX_COMPLETION: a frame that was
read whole and has its policy decision completes (R66). A command whose condition does not hold changes nothing.
RX_FRAME_DMA: with the posted buffers that a frame needs its bytes are written, then its header, then its completion
(R67, R69); a frame whose ring has not posted them is dropped and counted (R68), and so is one of a ring that is not
enabled. A buffer whose descriptor breaks the rules of its fields runs with free values (the model's choice, log
entry 65). RING_INTERRUPT of a ring whose vector is due, and COAL_TIMER_EXPIRE of one whose timer has run out: the
count and the timer start again, and the ring's vector is sent, or, while it is masked, its pending bit is set (R72,
R587). An event whose condition does not hold changes nothing: the model's choice (log entry 4). Where the spec
leaves a point to a reading or a choice, log entries 22, 65, 67 and 68 say which. It says where these commands
complete: TX_FRAME_ENTER, TX_LAUNCH, TX_COMPLETION, RX_FRAME_DMA, RING_INTERRUPT, COAL_TIMER_EXPIRE. -/
def Obligations.FramesOfAHost : Prop :=
  (
    (∀ (s : State) (h : HostPort) (k : Nat) (ds : List TxDesc) (bs : List Byte) (fault : Bool),
      k < 32 → txFrameOk ds bs fault = true →
      (txCan s h k ds = false → exec (.txFrameEnter h k ds bs fault) s = .next s) ∧
      (txCan s h k ds = true →
        (∀ st, txLimit ds = st → st ≠ 0 →
          exec (.txFrameEnter h k ds bs fault) s = .next (txUnsent (ringTake s (.tx h k) ds.length) h k st ds)) ∧
        (txLimit ds = 0 → fault = true →
          exec (.txFrameEnter h k ds bs fault) s =
            .next (txUnsent ((ringTake s (.tx h k) ds.length).bump (regAddr (pHif h 0) 0x248)) h k 3 ds)))) ∧
    (∀ (s : State) (h : HostPort) (k : Nat) (ds : List TxDesc) (bs : List Byte) (x : TxFrame),
      k < 32 → txFrameOk ds bs false = true → txCan s h k ds = true → txLimit ds = 0 →
      (s.ring (.tx h k)).flight.any (txWaits (txTc ds)) = false →
      x = { descs := ds, bytes := bs, waiting := true, frame := none, took := s.cclk } →
      (launchReached s { x with early := launchAhead s x } = true → entryOpen s (hostPortNo h) = true →
        txCandidates s h = [] →
        Answers (.txFrameEnter h k ds bs false) s fun t =>
          t.nextFrame = s.nextFrame + 1 ∧ (t.frame s.nextFrame).bytes = hostTxBytes bs ∧
          (t.frame s.nextFrame).port = hostPortNo h ∧ (t.frame s.nextFrame).tc = txTc ds ∧
          (t.frame s.nextFrame).stage = .received ∧
          ∃ y, (t.ring (.tx h k)).flight = (s.ring (.tx h k)).flight ++ [y] ∧ y.frame = some s.nextFrame ∧
            y.descs = ds ∧ y.waiting = false) ∧
      (launchReached s { x with early := launchAhead s x } = false →
        Answers (.txFrameEnter h k ds bs false) s fun t =>
          (t.ring (.tx h k)).flight = (s.ring (.tx h k)).flight ++ [{ x with early := launchAhead s x }] ∧
          t.nextFrame = s.nextFrame ∧ t.out = s.out)) ∧
    (∀ (s : State) (h : HostPort) (k tc : Nat), k < 32 → tcOk tc = true →
      (txFirst s h k tc = none ∨ entryOpen s (hostPortNo h) = false → exec (.txLaunch h k tc) s = .next s) ∧
      (∀ x, txFirst s h k tc = some x → entryOpen s (hostPortNo h) = true →
        Answers (.txLaunch h k tc) s fun t =>
          t.nextFrame = s.nextFrame + 1 ∧ (t.frame s.nextFrame).bytes = hostTxBytes x.bytes ∧
          (t.frame s.nextFrame).port = hostPortNo h ∧ (t.frame s.nextFrame).tc = txTc x.descs ∧
          (t.frame s.nextFrame).stage = .received ∧
          ∃ y ∈ (t.ring (.tx h k)).flight, y.frame = some s.nextFrame ∧ y.descs = x.descs ∧ y.waiting = false)) ∧
    (∀ (s : State) (h : HostPort) (k n : Nat) (x : TxFrame) (dropped : Bool), k < 32 → n < 8 →
      (s.ring (.tx h k)).flight[n]? = some x → x.verdict = some dropped →
      (s.cclk < x.lastAt → exec (.txCompletion h k n) s = .next s) ∧
      (x.lastAt ≤ s.cclk →
        Answers (.txCompletion h k n) s fun t =>
          (t.ring (.tx h k)).flight = (s.ring (.tx h k)).flight.eraseIdx n ∧
          (t.ring (.tx h k)).count = (s.ring (.tx h k)).count + 1 ∧
          (t.ring (.tx h k)).written = (s.ring (.tx h k)).written + 1 ∧
          RegsBut [] [] s t ∧
          t.out = .hostWrite h
            (s.pair (ringBase (.tx h k) + 0x0C) + 16 * ((s.ring (.tx h k)).written % ringSize s (.tx h k)))
            (dmaCompletion (txTag x.descs) k (b2n dropped) x.bytes.length 0 x.flags x.ns x.sec x.epoch
              (decide ((s.ring (.tx h k)).written / ringSize s (.tx h k) % 2 = 0))) :: s.out))) ∧
  (
    (∀ (s : State) (h : HostPort) (k : Nat) (x : RxWait) (rest : List RxWait) (fault : Bool),
      rxNext s h = some k → (s.ring (.rx h k)).rxWait = x :: rest → ringEn s (.rx h k) = false →
      exec (.rxFrameDma h [] fault) s = .next
        ((s.setRing (.rx h k) { s.ring (.rx h k) with rxWait := rest }).bump (regAddr (pHif h 0) 0x240))) ∧
    (∀ (s : State) (h : HostPort) (k : Nat) (x : RxWait) (rest : List RxWait) (bufs : List RxDesc) (fault : Bool),
      bufs.all rxDescFits = true → bufs.all rxDescOk = true → rxNext s h = some k →
      (s.ring (.rx h k)).rxWait = x :: rest → ringEn s (.rx h k) = true →
      (bufs.length ≤ ringPosted s (.rx h k) → rxNeed x ≤ bufs.foldl (fun n d => n + d.len) 0 →
        exec (.rxFrameDma h bufs fault) s = .next
          (rxWrites (s.setRing (.rx h k) { s.ring (.rx h k) with rxWait := rest }) h k x bufs fault)) ∧
      (bufs.length = ringPosted s (.rx h k) → bufs.foldl (fun n d => n + d.len) 0 < rxNeed x →
        exec (.rxFrameDma h bufs fault) s = .next
          ((s.setRing (.rx h k) { s.ring (.rx h k) with rxWait := rest }).bump (regAddr (pHif h 0) 0x240)))) ∧
    (∀ (s : State) (h : HostPort) (bufs : List RxDesc) (fault : Bool), bufs.all rxDescFits = true →
      exec (.rxFrameDma h bufs fault) s = .next (rxDma (rxBuffers s bufs).1 h (rxBuffers s bufs).2 fault))) ∧
  (
    ∀ (s : State) (r : RingId) (c : Instr), ringOk r = true →
      let h := ringHost s r
      let v := s.fld (ringBase r + 8) 8 6
      ((c = .ringInterrupt r ∧ (s.ring r).due = true) ∨
          (c = .coalTimerExpire r ∧ ∃ at_, (s.ring r).timer = some at_ ∧ at_ ≤ s.cclk) →
        Answers c s fun t =>
          t.ring r = { s.ring r with count := 0, timer := none, due := false } ∧
          ((s.msix h).masked.getLsbD v = false → t.out = .msix h v :: s.out ∧ t.msix h = s.msix h) ∧
          ((s.msix h).masked.getLsbD v = true → t.out = s.out ∧ (t.msix h).pend.getLsbD v = true) ∧ t.regs = s.regs) ∧
      ((s.ring r).due = false → exec (.ringInterrupt r) s = .next s) ∧
      ((s.ring r).timer = none → exec (.coalTimerExpire r) s = .next s))

/-- INFO: the response of R73. Its header repeats the request's, STATUS is OK, DONE is set and BUSY cleared, and the
request leaves the order of R74. MODE_REQ of each TARGET, at the front, in a mode that serves it, with its LEN, and
no sleep entry in progress. TEST_REQ and SILT_CHECKPOINT (Table 16-9, R77). Where the spec leaves a point to a
reading or a choice, log entry 24 says which. It says where these commands complete: INFO, MODE_REQ_SLEEP_RETAIN,
MODE_REQ_SLEEP_DEEP, MODE_REQ_SERVICE, MODE_REQ_RESET, MODE_REQ_RUN, TEST_REQ, SILT_CHECKPOINT. -/
def Obligations.MailboxRequests : Prop :=
  (
    ∀ (s : State) (h : HostPort), mbxFront s h 1 = true → s.mode ≠ .quarantine → s.mode ≠ .boot →
      asleep s.mode = false → mbxLen s h = 0 →
      Answers (.info h) s fun t =>
        t.fld (aMbx h 0x044) 0 2 = 2 ∧ t.mbx = s.mbx.filter (fun x => x != h) ∧ t.free = s.free + 1 ∧
        ∀ a, a / 0x1000 ≠ pHif h 3 → t.reg a = s.reg a) ∧
  (
    ∀ (s : State) (h : HostPort), mbxFront s h 2 = true → s.mode ≠ .quarantine → s.mode ≠ .boot →
      asleep s.mode = false → mbxLen s h = 2 → s.power.entry = none →
      (∀ deep : Bool, mbxByte s h 8 = (if deep then 2 else 1) →
        sleepRefusal s deep (bit (mbxByte s h 9) 0) = 0 →
        Answers (if deep then .modeReqSleepDeep h else .modeReqSleepRetain h) s fun t =>
          t.power.entry = some { deep := deep, at_ := s.cclk, stage := .responded, by_ := masterId (hostMaster h) } ∧
          t.mode = s.mode) ∧
      (mbxByte s h 8 = 3 → s.mode = .configure →
        Answers (.modeReqService h) s fun t => t.mode = .service ∧ t.twin.role = .none) ∧
      (mbxByte s h 8 = 4 →
        exec (.modeReqReset h) s = .next
          (start .modeReq (whenever (mayCheckpoint (mbxRespond s h 0 [])) (mbxRespond s h 0 [])
            (checkpointNow (mbxRespond s h 0 []))))) ∧
      (mbxByte s h 8 = 5 → s.mode = .configure → s.power.runWait = true →
        Answers (.modeReqRun h) s fun t =>
          t.power = { s.power with runWait := false, configured := true } ∧ t.mode = s.mode)) ∧
  (
    (∀ (s : State) (h : HostPort), mbxFront s h 3 = true → s.mode ≠ .quarantine → s.mode ≠ .boot →
      asleep s.mode = false → mbxLen s h = 2 → s.faults.testBusy = false → mbxByte s h 8 % 4 = 0 →
      exec (.testReq h) s = .next
        (mbxRespond (lightTests s (mbxByte s h 8)).1 h 0 [b8 (lightTests s (mbxByte s h 8)).2])) ∧
    (∀ (s : State) (h : HostPort), mbxFront s h 7 = true → s.mode ≠ .quarantine → s.mode ≠ .boot →
      asleep s.mode = false → mbxLen s h = 0 → keyValid (s.keySlot 0) = true → pairOk s true = true →
      exec (.siltCheckpoint h) s = .next (mbxRespond (checkpointNow s) h 0 [])))

/-- SILT_CHECKPOINT_RECORD: the record, its slot, the counters and CP of the closing entry (R77), for the oldest
checkpoint that is due. SILT_ACK_WRITE: the ACK, and the entries that both or either ACK has passed are freed (R78).
Where the spec leaves a point to a reading or a choice, log entry 26 says which. It says where these commands
complete: SILT_CHECKPOINT_RECORD, SILT_ACK_WRITE. -/
def Obligations.SiltCheckpointsAndAcks : Prop :=
  (∀ (s : State) (last : Nat) (chain : BitVec 256) (rest : List (Nat × BitVec 256)),
    s.silt.due = (last, chain) :: rest → keyValid (s.keySlot 0) = true → pairOk s true = true →
    last < 2 ^ 32 →
    Answers .siltCheckpointRecord s fun t =>
      t.reg (aSilt 0x05C) = w32 ((s.reg (aSilt 0x05C)).toNat + 1) ∧ t.reg (aSilt 0x058) = w32 last ∧
      (∀ d, let r := Tab.get d t.silt.records ((s.reg (aSilt 0x05C)).toNat % 64)
        r.seqLast = last ∧ r.bootCnt = s.nvm.bootCount ∧ r.count = (s.reg (aSilt 0x05C)).toNat + 1 ∧ r.chain = chain) ∧
      t.silt.chain = s.silt.chain ∧ t.silt.due = s.silt.due.filter (fun x => x.1 != last) ∧
      t.silt.entries = s.silt.entries.map (fun e => if e.2.seq = last then (e.1, { e.2 with cp := true }) else e) ∧
      RegsBut [aSilt 0x05C, aSilt 0x058, regAddr pSilt 0x10] [] s t) ∧
  (∀ (s : State) (w : Who) (h : HostPort) (v : Word), Passes s w (aAck h) v →
    Answers (.siltAckWrite w h v) s fun t =>
      t.reg (aAck h) = v ∧ RegsBut [aAck h, aSilt 0x04C] [] s t)

/-- CYCLE_BOUNDARY when the next cycle crosses one, FORCED_SYNC_POINT when it is due (R105), and JOIN_DONE when the new
reference starts its cycle (R102). References of the Phase Base: NETTIME_REF_EVENT loads the position, tracks it or
loses the reference (R87, R88), TICK_ACCEPTED keeps the recorded cycle of its input (R111), TICK_RUNT counts (R111),
TICK_LOSS enters HOLDOVER and PB_STANDSTILL STANDSTILL with RATE 0 (Table 3-2). Where the spec leaves a point to a
reading or a choice, log entries 60 and 77 say which. It says where these commands complete: CYCLE_BOUNDARY,
FORCED_SYNC_POINT, NETTIME_REF_EVENT, TICK_ACCEPTED, TICK_RUNT, TICK_LOSS, PB_STANDSTILL, JOIN_DONE. -/
def Obligations.PhaseBaseEvents : Prop :=
  (
    (∀ s : State, asleep s.mode = false → willCross (completeCycle s) = true →
      exec .cycleBoundary s = .next (cclkTick s)) ∧
    (∀ s : State, forcedDue s = true →
      exec .forcedSyncPoint s = .next (syncPoint ((s.bump (aPb 0x108)).raise pPb 5))) ∧
    (∀ s : State, joinEnds s = true → exec .joinDone s = .next (joinFinishes s))) ∧
  (
    (∀ s : State, s.pb.src = 0 → domValid s (pbDomain s) = true → s.pb.state = .unlocked →
      exec .nettimeRefEvent s =
        .next (pbInitialLoad s (BitVec.ofNat 64 (nettimePos s (s.dom (pbDomain s)).time)) s.cclk)) ∧
    (∀ s : State, s.pb.src = 0 → domValid s (pbDomain s) = true → s.pb.state ≠ .unlocked → s.pb.join = false →
      exec .nettimeRefEvent s =
        .next (pbRefEvent s s.cclk (BitVec.ofNat 64 (nettimeNow s)) (BitVec.ofNat 64 (nettimeNext s)) 0)) ∧
    (∀ s : State, s.pb.src = 0 → domValid s (pbDomain s) = false → exec .nettimeRefEvent s = .next (pbLoss s)) ∧
    (∀ (s : State) (j : Nat), twoOk j = true →
      Answers (.tickAccepted j) s fun t =>
        Tab.get (fun _ => none) t.gpio.tick j = some (s.cclk - (2 + tickFilt s j)) ∧
        ∀ i, i ≠ j → Tab.get (fun _ => none) t.gpio.tick i = Tab.get (fun _ => none) s.gpio.tick i) ∧
    (∀ (s : State) (j : Nat), twoOk j = true →
      exec (.tickRunt j) s = .next (s.setReg (aGpio (0x348 + 0x10 * j)) (s.reg (aGpio (0x348 + 0x10 * j)) + 1))) ∧
    (∀ s : State, tickOverdue s = true → s.pb.state = .locked →
      exec .tickLoss s = .next (((pbEnter s .holdover).raise pPb 2).bump (aPb 0x110))) ∧
    (∀ s : State, stillDue s = true →
      Answers .pbStandstill s fun t => t.pb.rate = 0 ∧ t.pb.rates = [] ∧ t.pb.acc = s.pb.acc))

/-- Encoders: a forward count, an index that zeroes the count, a backward count and an illegal sample, of an enabled
encoder that is not the Phase Base's reference, and a forward and a backward count of one that is (R89 to R93); a
disabled one changes nothing. Captures: an edge that the input takes is stored and signalled, or sets OVF when the
FIFO is full (R112); a read of `GPIO_CAPn_NS` takes the oldest entry, and a read of `GPIO_CAPn_STAT` clears OVF.
Pulse outputs: a PPO that fires goes active 2 cycles on for WIDTH cycles and, once, disarms (R113 to R115); an
arming write of MODE once or periodic arms it, after the firing of a pulse that is due in that cycle. An event whose
condition does not hold changes nothing: the model's choice (log entry 4). Where the spec leaves a point to a
reading or a choice, log entry 60 says which. It says where these commands complete: ENC_COUNT, ENC_INDEX,
ENC_BACKWARD, ENC_ILLEGAL, CAP_EDGE, CAP_NS_READ, CAP_STAT_READ, PPO_ARM, PPO_FIRE. -/
def Obligations.GpioChannels : Prop :=
  (
    ∀ (s : State) (m : Nat), twoOk m = true →
      (bit (encCfg s m) 0 = false →
        exec (.encCount m) s = .next s ∧ exec (.encIndex m) s = .next s ∧ exec (.encBackward m) s = .next s ∧
        exec (.encIllegal m) s = .next s) ∧
      (bit (encCfg s m) 0 = true → encRef s m = true →
        (s.pb.reverse = false → exec (.encCount m) s = .next (encForward s m)) ∧
        Answers (.encBackward m) s (fun t =>
          t.pb.reverse = true ∧ t.pb.behind = s.pb.behind + 1 ∧ (t.enc m).lastAt = some (encTime s m) ∧
          (t.enc m).count = (s.enc m).count)) ∧
      (bit (encCfg s m) 0 = true → encRef s m = false →
        exec (.encCount m) s = .next (encForward s m) ∧
        (encByCount s m = false →
          exec (.encIndex m) s = .next ((encMiscount s m).setEnc m { s.enc m with count := 0, sawZ := true })) ∧
        Answers (.encBackward m) s (fun t =>
          (t.enc m).count = countDown s m (s.enc m) ∧ (t.enc m).lastAt = some (encTime s m) ∧ t.pb = s.pb) ∧
        exec (.encIllegal m) s = .next
          ((s.setReg (aGpio (0x30C + 0x20 * m)) (s.reg (aGpio (0x30C + 0x20 * m)) + 1)).raise pGpio 25))) ∧
  (
    (∀ (s : State) (n : Nat) (rising : Bool), capOk n = true → capTakes s n rising = true →
      exec (.capEdge n rising) s = .next
        (if (s.cap n).fifo.length < 4 then
           (s.setCap n { s.cap n with fifo := (s.cap n).fifo ++ [capEntry s n rising] }).raise pGpio (16 + n)
         else (s.setCap n { s.cap n with ovf := true }).raise pGpio 24)) ∧
    (∀ (s : State) (w : Who) (n : Nat) (e : CapEntry) (rest : List CapEntry), capOk n = true →
      Reaches s w (aGpio (0x208 + 0x20 * n)) → Performs s w (aGpio (0x208 + 0x20 * n)) → (s.cap n).fifo = e :: rest →
      Answers (.capNsRead w n) s fun t =>
        (t.cap n).fifo = rest ∧
        t.out = .read w.m (aGpio (0x208 + 0x20 * n)) (w32 (e.ns + b2n e.rising * 2 ^ 31)) :: s.out ∧
        t.reg (aGpio (0x20C + 0x20 * n)) = w32 e.sec ∧ t.reg (aGpio (0x210 + 0x20 * n)) = w32 (e.pos.toNat % 2 ^ 32) ∧
        t.reg (aGpio (0x214 + 0x20 * n)) = w32 (e.pos.toNat / 2 ^ 32) ∧
        RegsBut [aGpio (0x20C + 0x20 * n), aGpio (0x210 + 0x20 * n), aGpio (0x214 + 0x20 * n)] [] s t) ∧
    (∀ (s : State) (w : Who) (n : Nat), capOk n = true → Reaches s w (aGpio (0x204 + 0x20 * n)) →
      exec (.capStatRead w n) s = .next ((s.setCap n { s.cap n with ovf := false }).emit
        (.read w.m (aGpio (0x204 + 0x20 * n)) (w32 ((s.cap n).fifo.length + b2n (s.cap n).ovf * 8)))))) ∧
  (
    (∀ (s : State) (n : Nat) (a : PulseArm), ppoOk n = true → ppoDue s n = true → (s.ppo n).armed = some a →
      Answers (.ppoFire n) s fun t =>
        (t.ppo n).until_ = some (s.cclk + 2 + bits (ppoCfg s n) 8 16) ∧
        (bits (ppoCfg s n) 0 2 ≠ 2 → (t.ppo n).armed = none)) ∧
    (∀ (s : State) (w : Who) (n : Nat) (v : Word), ppoOk n = true → bit v.toNat 4 = true → bits v.toNat 0 2 ≠ 0 →
      Passes s w (aGpio (0x100 + 0x10 * n)) v →
      exec (.ppoArm w n v) s = .next (let s := if ppoDue s n then ppoFires s n else s
        (ppoArmed (logReg (s.setReg (aGpio (0x100 + 0x10 * n))
            (putFld (v &&& 0x00FFFF3F) 6 1 (fld (s.reg (aGpio (0x100 + 0x10 * n))) 6 1))) (originOf w.m)
          (aGpio (0x100 + 0x10 * n)) (s.reg (aGpio (0x100 + 0x10 * n)))
          (putFld (v &&& 0x00FFFF3F) 6 1 (fld (s.reg (aGpio (0x100 + 0x10 * n))) 6 1)) false) n))))

/-- Frames that reach a port. FRAME_RECEIVE counts a frame and discards it, hands on a bad one, with the error, or a
good one, by its verdict (R126 to R131). MM_FRAGMENT_RECEIVE hands an express mPacket on the same way; a start
fragment opens a reassembly, a continuation in sequence adds to it, and the last one hands the frame on; one without
a reassembly is an error (R136, R137). Loss conditions of a link: one that arises on an UP link starts its hold
time, and the last one that clears ends it (R123). A link leaves UP when a loss condition has held for DN_HOLD and
enters it when none has for UP_HOLD (R122, R124): the port that leaves UP trains, its learned entries are to be
purged and the steps of Table 4-3 count from this cycle; FLUSH_DONE ends a flush of which no copy is left, and
FDB_PORT_PURGE the purge (R206). An event whose condition does not hold changes nothing: the model's choice (log
entry 4). Where the spec leaves a point to a reading or a choice, log entry 27 says which. It says where these
commands complete: FRAME_RECEIVE, LOSS_CONDITION, LINK_DOWN, FLUSH_DONE, FDB_PORT_PURGE, LINK_UP,
MM_FRAGMENT_RECEIVE, LOSS_CONDITION_CLEAR. -/
def Obligations.PortsAndTheirLinks : Prop :=
  (
    (∀ (s : State) (p : Nat) (bs : List Byte) (abort : Bool) (sub : Nat) (cmp : PipeCmp),
      macOk p = true → sub < 4 → portUp s p = true →
      (∀ k, macVerdict (s.fld (aMac p 0x044) 0 14) bs abort = .discard k →
        exec (.frameReceive p bs abort sub cmp) s = .next (noteRx (s.bump (aMacCnt p k)) p s.cclk bs.length k 0)) ∧
      (∀ k out fcs, macVerdict (s.fld (aMac p 0x044) 0 14) bs abort = .bad k out fcs →
        exec (.frameReceive p bs abort sub cmp) s = .next
          (afterMac (noteRx (s.bump (aMacCnt p k)) p s.cclk bs.length k 0) p (crossNow s sub) out fcs true cmp)) ∧
      (macVerdict (s.fld (aMac p 0x044) 0 14) bs abort = .good →
        exec (.frameReceive p bs abort sub cmp) s = .next
          (afterMac (noteRx ((s.bump (aMacCnt p 0)).bumpBy (aMacCnt p 1) bs.length) p s.cclk bs.length 0 bs.length) p
            (crossNow s sub) bs true false cmp))) ∧
    (∀ (s : State) (p : Nat) (bs : List Byte) (last crcOk abort : Bool) (cmp : PipeCmp), macOk p = true →
      portUp s p = true →
      exec (.mmFragmentReceive p .express bs last crcOk abort cmp) s =
        .next (receive s.tick1 p (crossNow s (measuredSub s)) bs abort cmp) ∧
      (p < 32 → s.bitAt (aMac p 0x050) 0 = true →
        (∀ no, (s.mac p).partial_ = none → last = false → crcOk = true → abort = false →
          Answers (.mmFragmentReceive p (.start no) bs last crcOk abort cmp) s fun t =>
            (t.mac p).partial_ = some { frameNo := no, nextFrag := 0, bytes := bs, startAt := s.cclk,
                                        sub := measuredSub s, pos := s.pos, sinceCycle := s.cclk - s.pb.cycleAt }) ∧
        (∀ x, (s.mac p).partial_ = some x → abort = false →
          (last = false → crcOk = true →
            exec (.mmFragmentReceive p (.cont x.frameNo x.nextFrag) bs last crcOk abort cmp) s =
              .next (setPartial (s.bump (aMacCnt p 17)) p
                (some { x with nextFrag := (x.nextFrag + 1) % 4, bytes := x.bytes ++ bs }))) ∧
          (last = true →
            exec (.mmFragmentReceive p (.cont x.frameNo x.nextFrag) bs last crcOk abort cmp) s =
              .next (let t := s.bump (aMacCnt p 17)
                let y := { x with nextFrag := (x.nextFrag + 1) % 4, bytes := x.bytes ++ bs }
                receive (setPartial t p none) p (mmCrossing t p bs.length y) y.bytes false cmp))) ∧
        (∀ no frag, (s.mac p).partial_ = none →
          Answers (.mmFragmentReceive p (.cont no frag) bs last crcOk abort cmp) s fun t =>
            t.pair (aMacCnt p 17) = (s.pair (aMacCnt p 17) + 1) % 2 ^ 64 ∧
            t.pair (aMacCnt p 15) = (s.pair (aMacCnt p 15) + 1) % 2 ^ 64 ∧ (t.mac p).partial_ = none)))) ∧
  (
    ∀ (s : State) (l : LinkId) (k : LossKind), linkOk l = true →
      let n := linkKey l
      ((s.mac n).link = .up → (s.mac n).loss = [] → sgmiiWord s n k = false →
        Answers (.lossCondition l k) s fun t =>
          (t.mac n).loss = [k] ∧ (t.mac n).lossSince = some s.cclk ∧ (t.mac n).link = .up ∧
          ∀ j, j ≠ n → t.mac j = s.mac j) ∧
      ((s.mac n).loss.contains k = true → sgmiiWord s n k = false → exec (.lossCondition l k) s = .next s) ∧
      ((s.mac n).loss = [k] →
        Answers (.lossConditionClear l k) s fun t =>
          (t.mac n).loss = [] ∧ (t.mac n).lossSince = none ∧ (∀ j, j ≠ n → t.mac j = s.mac j) ∧ RegsBut [] [] s t) ∧
      ((s.mac n).loss.contains k = false → exec (.lossConditionClear l k) s = .next s)) ∧
  (
    (∀ (s : State) (p : Nat), macOk p = true → downDue s p = true →
      Answers (.linkDown (.port p)) s fun t => (t.mac p).link = .train ∧ (t.mac p).lossSince = none ∧
        (t.mac p).downAt = some s.cclk ∧ bit t.tables.purge p = true) ∧
    (∀ (s : State) (l : Nat), l < 2 → downDue s (48 + l) = true →
      Answers (.linkDown (.sl l)) s fun t => (t.mac (48 + l)).link = .train ∧ t.fab = s.fab ∧ t.tables = s.tables) ∧
    (∀ (s : State) (p : Nat), macOk p = true → upDue s p = true →
      Answers (.linkUp (.port p)) s fun t => (t.mac p).link = .up ∧ (t.mac p).goodSince = none ∧ (t.mac p).mode = (s.mac p).mode) ∧
    (∀ (s : State) (l : Nat), l < 2 → upDue s (48 + l) = true →
      Answers (.linkUp (.sl l)) s fun t => (t.mac (48 + l)).link = .up ∧ t.sl.up = s.sl.up ||| 2 ^ l) ∧
    (∀ (s : State) (p : Nat), portOk p = true → bit s.fab.flushing p = true → flushedAt s p ≠ 0 →
      Answers (.flushDone p) s fun t => t.fab.flushing = s.fab.flushing ^^^ 2 ^ p ∧ RegsBut [regAddr pBuf 0x10] [] s t) ∧
    (∀ (s : State) (p : Nat), portOk p = true → bit s.tables.purge p = true →
      exec (.fdbPortPurge p) s = .next (purgePort s p) ∧ (purgePort s p).tables.purge = s.tables.purge - 2 ^ p))

/-- ALT_MODE_SWITCH changes the mode that a training port tries (R121); MM_VERIFY_RESPONSE ends verification with
success and MM_VERIFY_TIMEOUT tries again, or ends it with failure after the third try (R133). TC10 (Table 4-4):
what each request and event does to a T1 port in the state that it concerns. An event whose condition does not hold
changes nothing: the model's choice (log entry 4). Where the spec leaves a point to a reading or a choice, log entry
27 says which. It says where these commands complete: ALT_MODE_SWITCH, MM_VERIFY_RESPONSE, MM_VERIFY_TIMEOUT,
TC10_SLEEP_REQ, TC10_WAKE_REQ, TC10_SLEEP_REQUEST_RX, TC10_HANDSHAKE_DONE, TC10_SLEEP_FAIL, TC10_WUP, TC10_WUR. -/
def Obligations.TrainingAndHandshakes : Prop :=
  (
    (∀ (s : State) (p : Nat), macOk p = true → dwellOver s p = true →
      Answers (.altModeSwitch p) s fun t =>
        (t.mac p).inAlt = !(s.mac p).inAlt ∧
        (t.mac p).mode = bits (s.reg (aMac p 0x040)).toNat (if (s.mac p).inAlt then 0 else 8) 4 ∧
        (t.mac p).dwellEnd = some (s.cclk + bits (s.reg (aMac p 0x040)).toNat 16 8 * 1000000) ∧ RegsBut [] [] s t) ∧
    (∀ (s : State) (p : Nat), macOk p = true →
      ((s.mac p).verify = .verifying →
        exec (.mmVerifyResponse p) s = .next (s.setMac p { s.mac p with verify := .succeeded, verifyEnd := none })) ∧
      ((s.mac p).verify ≠ .verifying → exec (.mmVerifyResponse p) s = .next s)) ∧
    (∀ (s : State) (p at_ : Nat), macOk p = true → (s.mac p).verify = .verifying → (s.mac p).verifyEnd = some at_ →
      at_ ≤ s.cclk →
      ((s.mac p).verifyTries < 3 →
        Answers (.mmVerifyTimeout p) s fun t =>
          (t.mac p).verifyTries = (s.mac p).verifyTries + 1 ∧ (t.mac p).verify = .verifying ∧
          t.out = .line p verifyBytes false :: s.out) ∧
      (3 ≤ (s.mac p).verifyTries →
        exec (.mmVerifyTimeout p) s =
          .next ((s.setMac p { s.mac p with verify := .failed, verifyEnd := none }).raise (pMac p) 3)))) ∧
  (
    ∀ (s : State) (w : Who) (n : Nat), t1Ok n = true →
      (Passes s w (aTphy n 0x044) 1 → (s.tphy n).tc10 = .normal → portUp s (32 + n) = true →
        Answers (.tc10SleepReq w n) s fun t =>
          (t.tphy n).tc10 = .sleepNeg ∧ (t.egs (32 + n)).held = true ∧ t.out = .tc10 n 3 :: s.out) ∧
      (Passes s w (aTphy n 0x044) 2 → (s.tphy n).tc10 = .sleep →
        Answers (.tc10WakeReq w n) s fun t => (t.tphy n).tc10 = .wake ∧ t.out = .tc10 n 1 :: s.out) ∧
      (tc10En s n = true → (s.tphy n).tc10 = .normal → portUp s (32 + n) = true →
        (s.bitAt (aTphy n 0x040) 2 = true →
          Answers (.tc10SleepRequestRx n) s fun t => (t.tphy n).tc10 = .sleepNeg ∧ t.out = .tc10 n 3 :: s.out) ∧
        (s.bitAt (aTphy n 0x040) 2 = false →
          exec (.tc10SleepRequestRx n) s = .next ((s.bump (aTphy n 0x118)).emit (.tc10 n 4)))) ∧
      ((s.tphy n).tc10 = .sleepNeg →
        Answers (.tc10HandshakeDone n) s (fun t => (t.mac (32 + n)).link = .sleep ∧ (t.tphy n).tc10 = .sleep) ∧
        Answers (.tc10SleepFail n) s (fun t => (t.tphy n).tc10 = .normal ∧ (t.egs (32 + n)).held = false)) ∧
      (tc10En s n = true → (s.tphy n).tc10 = .sleep → s.power.entry = none → asleep s.mode = false →
        Answers (.tc10Wup n) s fun t => (t.tphy n).tc10 = .wake) ∧
      (tc10En s n = true → (s.tphy n).tc10 = .normal → portUp s (32 + n) = true → s.power.entry = none → asleep s.mode = false →
        exec (.tc10Wur n) s = .next ((s.raise (pTphy n) 1).bump (aTphy n 0x108))))

/-- MDIO: each of the four commands starts its frame when the master is idle, and sets BUSYHIT when it is not (R145);
MDIO_DONE ends it, with what a read returned (R144). Lane and cable tests: a PRBS generator that is switched on
takes an UP port out of UP (R146); a cable test shows BUSY until DIAG_DONE gives its result. It says where these
commands complete: MDIO_C22_WRITE, MDIO_C22_READ, MDIO_C45_WRITE, MDIO_C45_READ, MDIO_DONE, SDS_PRBS_WRITE,
CABLE_TEST_START, DIAG_DONE. -/
def Obligations.MdioLanesAndCables : Prop :=
  (
    (∀ (s : State) (w : Who) (m phy reg op : Nat) (c : Instr), mdioOk m phy reg = true →
      Passes s w (aMac m 0x404) (mdioWord op phy reg) →
      (op, c) ∈ [(0, Instr.mdioC22Write w m phy reg), (1, .mdioC22Read w m phy reg), (2, .mdioC45Write w m phy reg),
       (3, .mdioC45Read w m phy reg)] →
      (s.mdio m = none →
        Answers c s fun t =>
          t.mdio m = some { op := op, phy := phy, reg := reg, addr := s.fld (aMac m 0x408) 0 16,
                            data := s.fld (aMac m 0x40C) 0 16, endAt := s.cclk + mdioTime s m op } ∧
          t.reg (aMac m 0x414) = 1 ∧ RegsBut [aMac m 0x414] [] s t) ∧
      (∀ x, s.mdio m = some x → exec c s = .next (s.setBitAt (aMac m 0x414) 2 true))) ∧
    (∀ (s : State) (m v : Nat) (x : MdioOp), m < 4 → v < 2 ^ 16 → s.mdio m = some x → x.endAt ≤ s.cclk → x.op % 2 = 1 →
      Answers (.mdioDone m (some v)) s fun t =>
        t.mdio m = none ∧ t.reg (aMac m 0x410) = w32 v ∧ t.bitAt (aMac m 0x414) 0 = false ∧
        t.bitAt (aMac m 0x414) 1 = true ∧ t.bitAt (aMac m 0x414) 3 = false)) ∧
  (
    (∀ (s : State) (w : Who) (k : Nat) (v : Word), laneOk k = true → Passes s w (laneReg k 0x04C) v →
      (fld (v &&& 0xF) 0 2 = 0 ∨ portUp s k = false →
        exec (.sdsPrbsWrite w k v) s = .next
          (logReg ((s.setReg (laneReg k 0x04C) (v &&& 0xF)).setReg (laneReg k 0x04C + 4) 0) (originOf w.m)
            (laneReg k 0x04C) (s.reg (laneReg k 0x04C)) (v &&& 0xF) false)) ∧
      (fld (v &&& 0xF) 0 2 ≠ 0 → portUp s k = true →
        Answers (.sdsPrbsWrite w k v) s fun t => (t.mac k).link = .train)) ∧
    (∀ (s : State) (w : Who) (n : Nat), t1Ok n = true → Passes s w (aTphy n 0x04C) 1 →
      Answers (.cableTestStart w n) s fun t =>
        (t.tphy n).diagBusy = true ∧ t.bitAt (aTphy n 0x050) 31 = true ∧ t.reg (aTphy n 0x04C) = 1 ∧
        RegsBut [aTphy n 0x04C, aTphy n 0x050] [pSilt] s t) ∧
    (∀ (s : State) (n fault dist : Nat), t1Ok n = true → fault < 4 → (s.tphy n).diagBusy = true →
      Answers (.diagDone n fault dist) s fun t =>
        (t.tphy n).diagBusy = false ∧ t.reg (aTphy n 0x050) = w32 (fault + dist % 256 * 2 ^ 8) ∧
        RegsBut [aTphy n 0x050, regAddr (pTphy n) 0x10] [] s t))

/-- Parsing: the frame whose byte 63 is there first is dispatched, to a free processor or to wait for one (R148, R152);
the frame that waits and a parked one go on when a processor is free (R152, R155), a DEEP one ends 32 cycles after
its last byte (R156), the check at end fails late (R169), and a write that arms the capture clears DONE (R591).
Lookup, policy and the flow sweep: the frame that reaches its pipeline first is looked up, with its result 72 cycles
on and later by its replays (R177); at the policy stage the frame that enters first is decided: one that lookup
dropped is dropped, one that the firewall and the policing pass is kept with the set that they leave, any other is
dropped (R215, R216). A sweep judges every flow (R225); without one it changes only its time. Where the spec leaves
a point to a reading or a choice, log entries 28, 30, 31 and 32 say which. It says where these commands complete:
PARSE_DISPATCH, DISPATCH_WAIT, PARSE_RESUME, DEEP_PARSE_END, END_CHECK, PRS_CAPT_ARM, LOOKUP_STAGE, POLICY_STAGE,
FLOW_SWEEP. -/
def Obligations.ParsingAndLookup : Prop :=
  (
    (∀ (s : State) (f : Nat) (rvErr : Bool), (s.frame f).stage = .received → byteInPrs (s.frame f) 63 ≤ s.cclk →
      dispatchFirst s f = true →
      (s.prs.ready = false →
        exec (.parseDispatch f rvErr) s = .next
          ((retireFrame (s.setFrame f { s.frame f with stage := .gone }) f).bump (aPrsCnt 10))) ∧
      (s.prs.ready = true →
        let t := readMicrocode s f
        let g := { t.frame f with dispatchAt := s.cclk, epoch := s.epoch, rvErr := rvErr }
        (∀ i, t.frames.any (fun x => (procTurn x.2).isSome) = false → freeProc t = some i →
          exec (.parseDispatch f rvErr) s = .next (startParse t f i g)) ∧
        (t.frames.any (fun x => (procTurn x.2).isSome) = true ∨ freeProc t = none →
          exec (.parseDispatch f rvErr) s = .next ((t.setFrame f { g with stage := .waitProc }).bump (aPrsCnt 8))))) ∧
    (∀ (s : State) (f i : Nat), waitFirst s f = true → freeProc s = some i →
      exec (.dispatchWait f) s = .next (startParse s f i (s.frame f))) ∧
    (∀ (s : State) (f i b : Nat), (s.frame f).stage = .parked b → freeProc s = some i →
      (s.frame f).stepsDone < (s.frame f).parse.reads.length → byteInPrs (s.frame f) b < s.cclk →
      exec (.parseResume f) s = .next (stepFrame s f i s.cclk { s.frame f with proc := some i })) ∧
    (∀ (s : State) (f b : Nat), (s.frame f).stage = .parked b → (s.frame f).parse.rv.deep = true →
      (s.frame f).stepsDone = (s.frame f).parse.reads.length → endInPrs (s.frame f) + 32 ≤ s.cclk →
      Answers (.deepParseEnd f) s fun t =>
        (t.frame f).stage = .parsed ∧
        (t.frame f).keysAt = afterEarlier s f (s.frame f) (endInPrs (s.frame f) + 48 + (s.frame f).wait)) ∧
    (∀ (s : State) (f : Nat), (s.frame f).latePending = true → endInPrs (s.frame f) + 1 ≤ s.cclk →
      let t := (s.setFrame f { s.frame f with latePending := false, lateMal := true }).bump (aPrsCnt 4)
      ((s.frame f).stage = .decided → exec (.endCheck f) s = .next (lateDrop t f)) ∧
      ((s.frame f).stage ≠ .decided → (s.frame f).stage ≠ .gone → exec (.endCheck f) s = .next t)) ∧
    (∀ (s : State) (w : Who) (v : Word), bit v.toNat 8 = true → Passes s w (aPrs 0x04C) v →
      exec (.prsCaptArm w v) s = .next (logReg (s.setReg (aPrs 0x04C) (v &&& 0x53F)) (originOf w.m)
        (aPrs 0x04C) (s.reg (aPrs 0x04C)) (v &&& 0x53F) false))) ∧
  (
    (∀ (s : State) (f : Nat), (s.frame f).keysAt ≤ s.cclk → lookFirst s f = true →
      exec (.lookupStage f) s = .next (lookup s f) ∧
      (let r := release s f
       let x := readTables (r.bump (aPlCnt (pipelineOf (r.frame f).port) 0)) (pipelineOf (r.frame f).port)
       ∀ p, x.2 = false → ((noteReplay r x.1 f).frame f).named = some p →
        Answers (.lookupStage f) s fun t =>
          (t.frame f).stage = .looked ∧ (t.frame f).set = 2 ^ p ∧
          (t.frame f).lookedAt = ((noteReplay r x.1 f).frame f).keysAt + 72 + addedReplay r x.1 f)) ∧
    (∀ (s : State) (f : Nat), (s.frame f).stage = .looked → (s.frame f).lookedAt ≤ s.cclk → policyFirst s f = true →
      ((s.frame f).dropped = true → exec (.policyStage f) s = .next (policyDrop s f (s.frame f))) ∧
      ((s.frame f).dropped = false →
        let g := { s.frame f with tc := gateTc s (s.frame f) }
        let w := firewall s g
        let u := policing w.1 g (w.2.set != 0)
        let d := addedReplay s u.1 f
        let k := { g with replay := g.replay + d, replayed := g.replayed || metParity s u.1 }
        (u.2 = true → w.2.set ≠ 0 →
          exec (.policyStage f) s = .next
            (policyKeep (noteReplay s u.1 f) f { k with set := w.2.set, copyTc := w.2.tcs } d)) ∧
        (u.2 = false ∨ w.2.set = 0 → exec (.policyStage f) s = .next (policyDrop (noteReplay s u.1 f) f k)))) ∧
    (∀ s : State, s.tables.ent.filter (fun x => x.1 / 2 ^ 20 == tFLOW) = [] →
      exec .flowSweep s = .next { s with policing := { s.policing with sweptAt := s.cclk } }) ∧
    (∀ s : State, exec .flowSweep s = .next
      (((s.tables.ent.filter (fun x => x.1 / 2 ^ 20 == tFLOW)).map (fun x => x.1 % 2 ^ 20)).foldl sweepFlow
        { s with policing := { s.policing with sweptAt := s.cclk } })))

/-- The table engine takes a descriptor and completes it with its operation's answer (R186). A descriptor that is well
formed and accepted has its effect: READ and SEARCH return the entry, WRITE and INSERT stage it, DELETE stages or
frees it, and FLUSH frees every entry that matches. A disabled ring takes none. The overlay: a LIVE record and its
main location change places (R193), and a SWAPPED record is freed once no frame needs its value, where an entry of
the stash may take a location that it leaves free (R185, R194). Learning: a filter's oldest event whose frame has
passed joins the queue, PL0's first (R199, R200); the oldest queued event is applied once 250 cycles have passed
since the last, and one whose key a record holds is counted alone (R196, R200, R201); the flap interval starts anew
and frozen ports are cleared (R202); an ageing sweep ages every location and takes its time (R205). An event whose
condition does not hold changes nothing: the model's choice (log entry 4). Where the spec leaves a point to a
reading or a choice, log entries 29 and 71 say which. It says where these commands complete: TUE_READ, TUE_WRITE,
TUE_INSERT, TUE_DELETE, TUE_SEARCH, TUE_FLUSH, OVERLAY_COPY_OUT, OVERLAY_RETIRE, LEARN_RELEASE, LEARN_APPLY,
FLAP_INTERVAL_END, TUE_FROZEN_CLEAR, AGEING_SWEEP. -/
def Obligations.TablesAndLearning : Prop :=
  (
    ∀ (s : State) (h : HostPort) (d : TueDesc) (data : List Byte) (fault : Bool),
      (ringEn s (.tue h) = true → ringPosted s (.tue h) ≠ 0 →
        let u := ringTake s (.tue h) 1
        exec (.tueRead h d) s = .next (tueFinish h d (tueReadOp d u)) ∧
        exec (.tueWrite h d data fault) s = .next (tueFinish h d (tueWriteOp h d data fault u)) ∧
        exec (.tueInsert h d data fault) s = .next (tueFinish h d (tueInsertOp h d data fault u)) ∧
        exec (.tueDelete h d data fault) s = .next (tueFinish h d (tueDeleteOp h d data fault u)) ∧
        exec (.tueSearch h d data fault) s = .next (tueFinish h d (tueSearchOp d data fault u)) ∧
        exec (.tueFlush h d) s = .next (tueFinish h d (tueFlushOp h d u)) ∧
        (tueForm u d 1 allTables true true false = 0 → (tueReads u d.table).2 = false →
          exec (.tueRead h d) s = .next (tueFinish h d ((tueReads u d.table).1,
            { status := 0, index := d.index, out := tueValue (tueReads u d.table).1 d.pending d.table d.index }))) ∧
        (tueForm u d 2 [tVLAN, tPORT, tMCAST, tFILTER, tGATE, tMETER, tRULE, tSEQGEN, tSEQREC] true true fault = 0 →
          tueRefusal u h (rwsClosed u.mode) (badEntry d.table (slice data 0 (entryBytes d.table))) = 0 →
          exec (.tueWrite h d data fault) s = .next (tueFinish h d
            (tueStage u h d.table [(d.index, slice data 0 (entryBytes d.table))] d.index 0))) ∧
        (tueForm u d 3 [tFDB, tSID] false true fault = 0 →
          tueRefusal u h (rwsClosed u.mode) (badEntry d.table (slice data 0 (entryBytes d.table))) = 0 →
          exec (.tueInsert h d data fault) s = .next (tueFinish h d
            (tueInsertKey u h d.table (slice data 0 (entryBytes d.table))))) ∧
        (tueForm u d 4 [tFDB, tSID, tFLOW] (d.table == tFLOW) (d.table == tSID) fault = 0 →
          tueRefusal u h (if d.table == tFLOW then tueModeShut u.mode || u.mode == .standby else rwsClosed u.mode) false = 0 →
          exec (.tueDelete h d data fault) s = .next (tueFinish h d
            (if d.table == tFLOW then tueDeleteFlow u h d.index else tueDeleteKey u h d data))) ∧
        (tueForm u d 5 [tFDB, tSID] false true fault = 0 → (tueReads u d.table).2 = false →
          let r := (tueReads u d.table).1
          ∀ i, locateKey r d.pending d.table (descKey d data) = some i →
            hashValid d.table (tueValue r d.pending d.table i) = true →
            hashKey d.table (tueValue r d.pending d.table i) = descKey d data →
            exec (.tueSearch h d data fault) s = .next (tueFinish h d
              (r, { status := 0, index := i, out := tueValue r d.pending d.table i }))) ∧
        (tueForm u d 6 [tFDB] false false false = 0 → tueRefusal u h (tueModeShut u.mode) false = 0 →
          let l := (fdbLocs u).filter (fun i => flushMatches d (u.mainEnt tFDB i))
          exec (.tueFlush h d) s = .next (tueFinish h d
            (l.foldl (flushOne (hostOrigin h)) u, { status := 0, count := l.length })))) ∧
      (ringEn s (.tue h) = false →
        exec (.tueRead h d) s = .next s ∧ exec (.tueWrite h d data fault) s = .next s ∧
        exec (.tueInsert h d data fault) s = .next s ∧ exec (.tueDelete h d data fault) s = .next s ∧
        exec (.tueSearch h d data fault) s = .next s ∧ exec (.tueFlush h d) s = .next s)) ∧
  (
    (∀ (s : State) (t i tag : Nat) (o : Overlay), s.ovlAt t i = some o → o.st = .live tag →
      let v := if isMove s o then s.bump (aTueCnt 10) else s
      exec (.overlayCopyOut t i) s = .next
        ((if t = tFDB then writeFdb v i o.val else v.setEnt t i o.val).setOvl
          { o with val := v.mainEnt t i, st := .swapped tag })) ∧
    (∀ (s : State) (t i tag : Nat) (o : Overlay), s.ovlAt t i = some o → o.st = .swapped tag →
      epochNewer (oldestFor s t) tag = true →
      let u := if t < 16 then (s.dropOvl t i).bump (aTueCnt 12) else s.dropOvl t i
      exec (.overlayRetire t i) s =
        .next (if t = tFDB ∧ fdbValid (u.mainEnt tFDB i) = false then stashReinsert u i else u))) ∧
  (
    (∀ (s : State) (pl : Nat) (e : LearnEvt), twoOk pl = true →
      releasable s pl = some e → (pl = 1 → releasable s 0 = none) → s.tables.queue.length < 4096 →
      Answers (.learnRelease pl) s fun t =>
        t.tables.queue = s.tables.queue ++ [e] ∧ t.learnFilter pl = (s.learnFilter pl).erase e ∧ RegsBut [] [] s t) ∧
    (∀ (s : State) (e : LearnEvt) (rest : List LearnEvt), s.tables.queue = e :: rest → keyHeld s (fdbKey e.vid e.sa) = true →
      s.tables.learnFree ≤ s.cclk →
      Answers .learnApply s fun t =>
        t.tables = { s.tables with queue := rest, learnFree := s.cclk + 250 } ∧ t.pair (aTueCnt 6) = (s.pair (aTueCnt 6) + 1) % 2 ^ 64) ∧
    (∀ (s : State) (e : LearnEvt) (rest : List LearnEvt), s.tables.queue = e :: rest → keyHeld s (fdbKey e.vid e.sa) = false →
      s.tables.learnFree ≤ s.cclk →
      let u := { s with tables := { s.tables with queue := rest, learnFree := s.cclk + 250 } }
      (∀ i, findMain u tFDB (fdbKey e.vid e.sa) = some i → exec .learnApply s = .next (learnAt u e i)) ∧
      (findMain u tFDB (fdbKey e.vid e.sa) = none → exec .learnApply s = .next (learnNew u e))) ∧
    (∀ s : State, s.tables.interval ≠ s.cclk / 1000000000 →
      exec .flapIntervalEnd s = .next { s with tables :=
        { s.tables with interval := s.cclk / 1000000000, moves := [], flapped := 0 } }) ∧
    (∀ (s : State) (w : Who) (hi : Bool) (v : Word), Passes s w (aTue (if hi then 0x064 else 0x060)) v →
      exec (.tueFrozenClear w hi v) s = .next
        (s.setReg (aTue (if hi then 0x064 else 0x060)) (s.reg (aTue (if hi then 0x064 else 0x060)) &&& ~~~ v))) ∧
    (∀ s : State, sweepDue s = true →
      exec .ageingSweep s =
        .next ((fdbLocs s).foldl ageOne { s with tables := { s.tables with sweptAt := s.cclk } }) ∧
      Answers .ageingSweep s fun t => t.tables.sweptAt = s.cclk ∧ t.tables.ovl = s.tables.ovl ∧
        t.tables.queue = s.tables.queue))

/-- The fabric: a cell of an admitted frame becomes ready (R241), lone halves that have waited LONE_WAIT slots go alone
(R244), the oldest unopened copy of a queue opens when its first half becomes ready or there is room (R246), an
input link writes and an output group reads once a slot (R247, R248), released halves are taken (R250), and a
cut-through copy that runs out is stomped and counted (R255). Where the spec leaves a point to a reading or a
choice, log entry 34 says which. It says where these commands complete: HALF_READY, LONE_WAIT_EXPIRE, COPY_OPEN,
HALF_READ, HALF_RELEASE, TX_UNDERRUN, INPUT_LINK_WRITE. -/
def Obligations.FabricMovesHalves : Prop :=
  (∀ (s : State) (f : Nat), cellDue s (s.frame f) = true → (s.frame f).admitted = true →
    exec (.halfReady f) s = .next (cellReady s f)) ∧
  (∀ (s : State) (f : Nat), cellDue s (s.frame f) = true → (s.frame f).admitted = false →
    exec (.halfReady f) s = .next
      (if ((admitFrame s f).frame f).admitted then cellReady (admitFrame s f) f else admitFrame s f)) ∧
  (∀ (s : State) (g : Nat), groupOk g = true →
    Answers (.loneWaitExpire g) s fun t =>
      t.fab.waiting.length = s.fab.waiting.length ∧ t.fab.queues = s.fab.queues ∧ RegsBut [] [] s t ∧
      ∀ h ∈ s.fab.waiting, loneExpired s g h = true → { h with alone := true } ∈ t.fab.waiting) ∧
  (∀ (s : State) (p q : Nat) (c : Copy), portOk p = true → queueOk q = true →
    (s.queue p q).find? (fun c => c.open_.isNone) = some c →
    ((s.frame c.frame).stamps.head? = some s.slot ∨ openHalves s p q < openRoom s p) →
    exec (.copyOpen p q) s = .next (s.setCopy p q c.frame (fun c => { c with open_ := some s.slot }))) ∧
  (∀ (s : State) (g : Nat), groupOk g = true → Tab.get (fun _ => 0) s.fab.readSlot g ≠ s.slot + 1 →
    (let done (t : State) : State :=
       { t with fab := { t.fab with readSlot := Tab.set (fun _ => 0) t.fab.readSlot g (s.slot + 1) } }
     let a := leastBy (readKey s) (readable s g false)
     let b := leastBy (readKey s) (readable s g true)
     (∀ x, a = some x → pairWins s x b = true → (∀ y, b = some y → pairWins s y a = false) →
       exec (.halfRead g) s = .next (done (readHalf s g x))) ∧
     (∀ y, b = some y → pairWins s y a = true → (∀ x, a = some x → pairWins s x b = false) →
       exec (.halfRead g) s = .next (done (readHalf s g y))) ∧
     (∀ x y, a = some x → b = some y → pairWins s x b = true → pairWins s y a = true →
       exec (.halfRead g) s = .next (done (readHalf (readHalf s g x) g y)))) ∧
    Answers (.halfRead g) s fun t => Tab.get (fun _ => 0) t.fab.readSlot g = s.slot + 1) ∧
  (∀ (s : State) (g : Nat), groupOk g = true → Tab.get (fun _ => 0) s.fab.linkSlot g ≠ s.slot + 1 →
    ∀ a b, linkChoice s g = some (a, b) →
      exec (.inputLinkWrite g) s = .next (
        let t := storeHalf s g false a
        let t := match b with
          | some h => storeHalf t g true h
          | none => t
        let t := if a.lone then t.bump (aFab (if b.isSome then 0x110 else 0x118)) else t
        checkPool { t with fab := { t.fab with
          linkSlot := Tab.set (fun _ => 0) t.fab.linkSlot g (s.slot + 1) } })) ∧
  (∀ (s : State) (p q : Nat), portOk p = true → queueOk q = true →
    exec (.halfRelease p q) s = .next ((s.queue p q).foldl (fun t c => releaseCopy p q c.frame t) s)) ∧
  (∀ (s : State) (p k : Nat) (x : TxRun), portOk p = true → underrun s p = some (x, k) →
    exec (.txUnderrun p) s = .next (((stompTx s p x k).bump (aFab 0x130)).raise pFab 1))

/-- Egress: a decision selects the copy that the pick takes among the express candidates, or among all where there is
none (R272, R276, R292), and selects none where it takes none; a line that becomes free ends its frame or suspends
it (R273, R294), a suspended frame resumes with its line time (R295), and every bucket is refilled once in 256
cycles (R277). Where the spec leaves a point to a reading or a choice, log entries 35 and 76 say which. It says
where these commands complete: EGRESS_DECISION, LINE_FREE, BUCKET_REFILL, PREEMPT_RESUME. -/
def Obligations.EgressPortsTransmit : Prop :=
  (∀ (s : State) (p : Nat) (cmp : PipeCmp), portOk p = true → portDecides s p = true →
    let u := ((List.range 8).filter (fun q => (eligible (dropAll (readLevels s p) p) p q (s.cclk + 40)).2)).foldl
      (fun t q => match headOf t p q with | some c => countNofit p t c.frame | none => t) (dropAll (readLevels s p) p)
    let all := eligibles u p (s.cclk + 40)
    let ex := all.filter (fun x => !isPre u p x.1)
    let set := if ex.isEmpty then all else ex
    let r := pick u p (set.map (fun x => (x.1, countedLen u p (s.cclk + 40) x.2.2)))
    (r.2 = none → exec (.egressDecision p cmp) s = .next r.1) ∧
    (∀ q x, r.2 = some q → set.find? (fun x => x.1 == q) = some x →
      exec (.egressDecision p cmp) s = .next (selectCopy r.1 p q (s.cclk + 40) x.2.2
        (if queueAlg u p q = 2 then countedLen u p (s.cclk + 40) x.2.2 else 0) x.2.1 cmp))) ∧
  (∀ (s : State) (p : Nat) (x : TxRun), portOk p = true → (s.egs p).tx = some x → lineFreeAt s p x ≤ s.cclk →
    (x.suspendAt = none → exec (.lineFree p) s = .next (endTx s p x)) ∧
    (∀ n, x.suspendAt = some n →
      Answers (.lineFree p) s fun t =>
        (t.egs p).tx = none ∧
        (t.egs p).susp = some { x with sent := n, frags := x.frags + 1, suspendAt := none } ∧
        t.out = .line p ((x.bytes.take n).drop x.sent ++ leBytes 4 (mCrc (x.bytes.take n))) false :: s.out)) ∧
  (∀ (s : State) (p : Nat) (x : TxRun), portOk p = true → (s.egs p).susp = some x → (s.egs p).tx = none →
    (s.egs p).sel = [] → bit (s.egs p).gates x.q = true → (s.egs p).hold = false → (s.mac p).link = .up →
    Answers (.preemptResume p) s fun t =>
      (t.egs p).susp = none ∧
      (t.egs p).tx = some { x with start := s.cclk,
                                   endAt := s.cclk + byteTime (portMbps s p) (x.bytes.length - x.sent + 20) } ∧
      t.pair (aMacCnt p 18) = (s.pair (aMacCnt p 18) + 1) % 2 ^ 64) ∧
  (∀ s : State, s.cclk % 256 = 0 → s.egress.refillAt ≠ s.cclk + 1 →
    (let t := (shapedPorts s).foldl (fun t x => refillBucket t x.1 x.2) ((s.egress.port.map (fun x => x.1)).foldl takeSettings s)
     let t := { t with egress := { t.egress with refillAt := s.cclk + 1 } }
     (memRead t 9 0 none).2 = none → exec .bucketRefill s = .next (memRead t 9 0 none).1) ∧
    Answers .bucketRefill s fun t => t.egress.refillAt = s.cclk + 1 ∧ t.fab = s.fab ∧ t.frames = s.frames)

/-- Gate control: the next entry of the list in effect begins with its gates and HOLD (R286, R287), the list that then
holds begins at its boundary (R288), an entry is written at INDEX, which then advances (R284), and a re-examination
of a port sheds the queues of its guarantees that are no longer kept and restores those that are (R299, R301). An
event whose condition does not hold changes nothing: the model's choice (log entry 4). Where the spec leaves a point
to a reading or a choice, log entry 35 says which. It says where these commands complete: GCL_ENTRY_BEGIN,
GCL_LIST_BOUNDARY, GCL_DATA_WRITE, SHED_REEXAMINE. -/
def Obligations.GateControlLists : Prop :=
  (∀ (s : State) (p j pos : Nat), portOk p = true → nextEntryDue s p = some (j, pos) →
    exec (.gclEntryBegin p) s = .next (entryBegins s p (s.egs p).base (s.egs p).len j pos)) ∧
  (∀ (s : State) (p : Nat), portOk p = true → nextEntryDue s p = none → exec (.gclEntryBegin p) s = .next s) ∧
  (∀ (s : State) (p : Nat), portOk p = true → (s.egs p).install.isSome = true ∨ (s.egs p).len ≠ 0 →
    (s.pos.toNat + 2 ^ 64 - boundaryAfter s p (s.egs p).entryPos.toNat) % 2 ^ 64 < 2 ^ 63 →
    exec (.gclListBoundary p) s = .next
      (listBegins s p ((s.egs p).install.getD ((s.egs p).base, (s.egs p).len)).1
        ((s.egs p).install.getD ((s.egs p).base, (s.egs p).len)).2 (boundaryAfter s p (s.egs p).entryPos.toNat))) ∧
  (∀ (s : State) (w : Who) (p : Nat) (v : Word), portOk p = true → Passes s w (aEgs p 0x060) v →
    Answers (.gclDataWrite w p v) s fun t =>
      gclEntry t p (s.fld (aEgs p 0x05C) 0 10) = v.toNat ∧
      t.fld (aEgs p 0x05C) 0 10 =
        (if s.bitAt (aEgs p 0x05C) 31 then (s.fld (aEgs p 0x05C) 0 10 + 1) % 1024 else s.fld (aEgs p 0x05C) 0 10) ∧
      RegsBut [aEgs p 0x05C] [pSilt] s t) ∧
  (∀ (s : State) (p : Nat), portOk p = true →
    let kept := keptQueues s p
    let order := guaranteeOrder s p
    let counts (q : Nat) : Bool := s.mode == .degraded || !s.bitAt (aQ p q 0) 6
    let shed := order.filter (fun q => counts q && !kept.contains q && !s.bitAt (aEgs p 0x070) q)
    let back := (List.range 8).filter (fun q => s.bitAt (aEgs p 0x070) q && (kept.contains q || !order.contains q || !counts q))
    exec (.shedReexamine p) s =
      .next ((order.filter (fun q => back.contains q) ++ back.filter (fun q => !order.contains q)).foldl (restoreQueue p)
        (shed.foldl (shedQueue p) s)))

/-- The mode of a CAN channel: integration ends in the mode that was asked for (R310), a committed mode takes effect at
bus idle (R310), a channel held in RESTRICTED is released when the unit has left STANDBY and no takeover is under
way (R312, R477), bus-off recovery starts only from bus-off and ends error-active with both counters 0 (R313). What
arrives on a CAN bus: nothing in a mode that does not take part in it (R310); otherwise a frame is counted and
taken, to be stored as the lowest filter that matches it says, or by ACCEPT_DEST (R326, R327); an error is counted
by its kind, and in RESTRICTED and LISTEN_ONLY the error counters stand still (R313). A pop of an empty queue
answers 0 (R328), a pop of a queue with frames removes the oldest, and `CAN_TXEV` likewise (R320). A withdrawn frame
ends in an error of this channel as receiver (R322). An event whose condition does not hold changes nothing: the
model's choice (log entry 4). Where the spec leaves a point to a reading or a choice, log entries 36 and 37 say
which. It says where these commands complete: CAN_BUS_INTEGRATION_DONE, CAN_MODE_AT_IDLE, CAN_FRAME_RECEIVED,
CAN_ERROR, CAN_BO_RECOVER, BUSOFF_RECOVERED, CAN_CANCEL_ABORT, CAN_TXEV_READ, CAN_RXQ_POP. -/
def Obligations.CanChannels : Prop :=
  (
    (∀ (s : State) (n : Nat) (m : CanMode), canOk n = true → (s.can n).integrating = some m →
      Answers (.canBusIntegrationDone n) s fun t =>
        (t.can n).mode = m ∧ (t.can n).next = none ∧ (t.can n).integrating = none ∧
        (t.can n).pend = (s.can n).pend ∧ (t.can n).tec = (s.can n).tec ∧
        ((t.can n).sby = true ↔ m = .normal ∧ (s.mode = .standby ∨ s.twin.role = .standby)) ∧
        ∀ k, k ≠ n → t.can k = s.can k) ∧
    (∀ (s : State) (n : Nat) (m : CanMode), canOk n = true → (s.can n).next = some m →
      Answers (.canModeAtIdle n) s fun t => (t.can n).mode = m ∧ (t.can n).next = none) ∧
    (∀ (s : State) (n : Nat), canOk n = true → (s.can n).next = none → (s.can n).sby = true →
      s.mode ≠ .standby → s.twin.role ≠ .standby → s.twin.taskAt = none →
      exec (.canModeAtIdle n) s = .next (s.setCan n { s.can n with sby := false })) ∧
    (∀ (s : State) (w : Who) (n : Nat), canOk n = true → Passes s w (aCan n 0x060) 1 →
      exec (.canBoRecover w n) s = .next
        (if (s.can n).errst = 2 then s.setCan n { s.can n with recovering := true } else s)) ∧
    (∀ (s : State) (n : Nat), canOk n = true → (s.can n).errst = 2 → (s.can n).recovering = true →
      exec (.busoffRecovered n) s = .next
        (s.setCan n { s.can n with errst := 0, tec := 0, rec_ := 0, recovering := false })) ∧
    (∀ (s : State) (n : Nat), canOk n = true → (s.can n).errst ≠ 2 → exec (.busoffRecovered n) s = .next s)) ∧
  (
    (∀ (s : State) (n : Nat) (m : CanMsg) (sof : Nat), canOk n = true → canAwake (s.can n).mode = false →
      exec (.canFrameReceived n m sof) s = .next s) ∧
    (∀ (s : State) (n : Nat) (m : CanMsg) (sof : Nat), canOk n = true → canAwake (s.can n).mode = true →
      let t := fastPhase (countRx s n) n false m
      (filterHit t n m = none →
        exec (.canFrameReceived n m sof) s = .next (takeRx t n m none (t.fld (aCan n 0x040) 5 2) none sof)) ∧
      (∀ f, filterHit t n m = some f →
        let c := (t.reg (aCan n (0x208 + 0x10 * f))).toNat
        exec (.canFrameReceived n m sof) s = .next
          (takeRx t n m (some f) (bits c 1 2)
            (if bit c 3 && (t.auth (bits c 4 10)).rx then some (bits c 4 10) else none) sof))) ∧
    (∀ (s : State) (n : Nat), canOk n = true → (s.can n).mode = .restricted ∨ (s.can n).mode = .listenOnly →
      exec (.canError n .tx) s = .next (s.bump (aCanCnt n 3)) ∧
      exec (.canError n .rx) s = .next (s.bump (aCanCnt n 4)) ∧
      exec (.canError n .rxPrimary) s = .next s ∧
      ∀ k, exec (.canError n (.dominantRun k)) s = .next s) ∧
    (∀ (s : State) (n : Nat), canOk n = true → (s.can n).mode = .normal → (s.can n).sby = false → (s.can n).errst ≠ 2 →
      exec (.canError n .tx) s = .next
        (settleErrors ((s.bump (aCanCnt n 3)).setCan n
          { s.can n with tec := (s.can n).tec + (errorSteps .tx).1,
                         rec_ := min 255 ((s.can n).rec_ + (errorSteps .tx).2) }) n)) ∧
    (∀ (s : State) (n : Nat), canOk n = true → (s.can n).withdrawn = true →
      exec (.canCancelAbort n) s = .next
        (busError ((s.setCan n { s.can n with withdrawn := false }).bump (aCanCnt n 12)) n .rx)) ∧
    (∀ (s : State) (w : Who) (n q : Nat), canOk n = true → twoOk q = true → Reaches s w (aCan n (0x07C + 4 * q)) →
      Performs s w (aCan n (0x07C + 4 * q)) →
      let u := readRxq s n q
      (rxq (u.can n) q = [] → Answers (.canRxqPop w n q) s fun t =>
        t.can n = u.can n ∧ t.regs = u.regs ∧ t.out = .read w.m (aCan n (0x07C + 4 * q)) 0 :: u.out) ∧
      (∀ e rest, rxq (u.can n) q = e :: rest →
        Answers (.canRxqPop w n q) s fun t =>
          rxq (t.can n) q = rest ∧ t.out = .read w.m (aCan n (0x07C + 4 * q)) (w32 (2 ^ 31)) :: u.out)) ∧
    (∀ (s : State) (w : Who) (n : Nat), canOk n = true → Reaches s w (aCan n 0x070) → Performs s w (aCan n 0x070) →
      ((s.can n).txev = [] → Answers (.canTxevRead w n) s fun t =>
        t.can n = s.can n ∧ t.regs = s.regs ∧ t.out = .read w.m (aCan n 0x070) 0 :: s.out) ∧
      (∀ e rest, (s.can n).txev = e :: rest →
        Answers (.canTxevRead w n) s fun t =>
          t.can n = { s.can n with txev := rest } ∧ t.regs = s.regs ∧
          t.out = .read w.m (aCan n 0x070)
            (w32 (e.tag + e.status * 2 ^ 16 + b2n e.late * 2 ^ 24 + 2 ^ 31)) :: s.out)))

/-- Transmission on a CAN bus: GO submits the staged message, whose CMAC begins where it is to be authenticated, and a
unit in STANDBY answers STANDBY (R316, R320); the pending write of the oldest submission that is due, a buffer that
becomes ready, the selection of the most urgent buffer that its window allows, its frame that is sent (R317, R318),
a lost arbitration, which is counted unless the frame is withdrawn (R318), cancel requests and the sample point that
takes them (R321), a window that closes on a frame (R325). Bus authentication: a write of `CAN_AUTH_SET` stages the
entry that `CAN_AUTH_IDX` names (R53, R330), and a raise of a reservation stores the greater value in NVM with the
entry (R332). An event whose condition does not hold changes nothing: the model's choice (log entry 4). Where the
spec leaves a point to a reading or a choice, log entry 37 says which. It says where these commands complete:
CAN_PENDING_WRITE, CAN_BUFFER_READY, CAN_SELECTION, CAN_ARB_LOST, CAN_TX_OK, CAN_TXS_GO, CAN_CANCEL_TAG,
CAN_CANCEL_ALL, CAN_CANCEL_SAMPLE, CAN_WINDOW_OVERRUN, CAN_AUTH_SET, AUTH_RSV_RAISE. -/
def Obligations.CanSendsMessages : Prop :=
  (
    (∀ (s : State) (w : Who) (n : Nat), canOk n = true → Passes s w (aCan n 0x068) 1 →
      (s.mode = .standby → exec (.canTxsGo w n) s = .next (s.setReg (aCan n 0x06C) 4)) ∧
      (s.mode ≠ .standby →
        exec (.canTxsGo w n) s = .next (beginMacs ((s.setCan n { s.can n with
          inbox := (s.can n).inbox ++ [{ msg := stagedMsg (s.can n), at_ := s.cclk }] }).setReg (aCan n 0x06C)
            (w32 (2 ^ 31))) n))) ∧
    (∀ (s : State) (n : Nat), canOk n = true →
      (∀ x, (s.can n).inbox.find? (fun x => decide (x.at_ ≤ s.cclk) && !macDue s x) = some x →
        let r := pendingWrite s n x
        exec (.canPendingWrite n) s =
          .next (pendingDone (r.1.setCan n { r.1.can n with inbox := (r.1.can n).inbox.erase x }) n x r.2)) ∧
      ((s.can n).inbox.find? (fun x => decide (x.at_ ≤ s.cclk) && !macDue s x) = none →
        exec (.canPendingWrite n) s = .next s)) ∧
    (∀ (s : State) (n b : Nat) (x : CanBuf), canOk n = true → b < 3 → getBuf (s.can n) b = some x → x.readyAt ≤ s.cclk →
      x.ready = false →
      Answers (.canBufferReady n b none) s fun t =>
        getBuf (t.can n) b = some { x with ready := true } ∧ (∀ k, k < 3 → k ≠ b → getBuf (t.can n) k = getBuf (s.can n) k) ∧
        t.regs = s.regs) ∧
    (∀ (s : State) (n b d : Nat) (x : CanBuf), canOk n = true → b < 3 → getBuf (s.can n) b = some x →
      x.readyAt ≤ s.cclk → x.ready = false →
      exec (.canBufferReady n b (some d)) s = .next
        (selectBuf (s.setCan n (putBuf (s.can n) b (some { x with ready := true }))) n (s.cclk + d))) ∧
    (∀ (s : State) (n : Nat), canOk n = true →
      exec (.canSelection n) s = .next (selectBuf s n (s.cclk + afterSample s n)) ∧
      (canEff (s.can n) = .normal → (s.can n).errst ≠ 2 → lockedBuf (s.can n) = none →
        let f := s.cclk + afterSample s n
        let t := (readyBufs s.cclk (s.can n)).foldl (countHeld n f) s
        (memRead t 4 0 none).2 = none →
        ∀ b x, leastBy (fun x => pendKey (txOrd s n) x.2.p)
            ((readyBufs s.cclk (s.can n)).filter (fun x => (windowAllows s n x.2.p f).1)) = some (b, x) →
          exec (.canSelection n) s = .next
            ((memRead t 4 0 none).1.setCan n (putBuf ((memRead t 4 0 none).1.can n) b (some { x with
              locked := true, sof := some f, closePos := (windowAllows s n x.p f).2 }))))) ∧
    (∀ (s : State) (n b : Nat) (x : CanBuf) (err : Bool), canOk n = true → lockedBuf (s.can n) = some (b, x) →
      Answers (.canArbLost n err) s fun t =>
        getBuf (t.can n) b = some { x with locked := false, sof := none, closePos := none } ∧
        t.pair (aCanCnt n 2) = (if err then s.pair (aCanCnt n 2) else (s.pair (aCanCnt n 2) + 1) % 2 ^ 64)) ∧
    (∀ (s : State) (n b : Nat) (x : CanBuf), canOk n = true → lockedBuf (s.can n) = some (b, x) → onBus s n = true →
      exec (.canTxOk n) s = .next (txOk s n b x)) ∧
    (∀ (s : State) (w : Who) (n tag : Nat), canOk n = true → tag < 2 ^ 16 → Passes s w (aCan n 0x064) (w32 tag) →
      exec (.canCancelTag w n tag) s = .next
        (s.setCan n { s.can n with cancels := (s.can n).cancels ++ [{ all := false, tag := tag }] })) ∧
    (∀ (s : State) (w : Who) (n : Nat), canOk n = true → Passes s w (aCan n 0x064) (w32 (2 ^ 16)) →
      exec (.canCancelAll w n) s = .next
        (s.setCan n { s.can n with cancels := (s.can n).cancels ++ [{ all := true, tag := 0 }] })) ∧
    (∀ (s : State) (n : Nat), canOk n = true →
      let l := (s.can n).cancels
      exec (.canCancelSample n) s = .next ([0, 1, 2].foldl (cancelBuf l n)
        (((s.can n).pend.filter (cancels l)).foldl (fun t p => cancelled t n p)
          (s.setCan n { s.can n with cancels := [], pend := (s.can n).pend.filter (fun p => !cancels l p) })))) ∧
    (∀ (s : State) (n b p : Nat) (x : CanBuf), canOk n = true → lockedBuf (s.can n) = some (b, x) →
      x.closePos = some p → onBus s n = true → reachedAt p s.pos.toNat = true →
      Answers (.canWindowOverrun n) s fun t =>
        getBuf (t.can n) b = some { x with closePos := none } ∧
        t.pair (aCanCnt n 14) = (s.pair (aCanCnt n 14) + 1) % 2 ^ 64 ∧
        t.bitAt (regAddr (pCan n) 0x10) 6 = true)) ∧
  (
    (∀ (s : State) (w : Who) (v : Word), Passes s w (aCan 0 0x0D4) v → 
      let i := s.fld (aCan 0 0x0D0) 0 10
      Answers (.canAuthSet w v) s fun t =>
        t.shadowOf (authShadow i) = some { off := authShadow i, val := v &&& 0xC3FF, writer := w.m } ∧
        (∀ j, j ≠ authShadow i → t.shadowOf j = s.shadowOf j) ∧ ∀ j, t.auth j = s.auth j) ∧
    (∀ (s : State) (i : Nat), i < 1024 → rsvDue (s.auth i) = true →
      Answers (.authRsvRaise i) s fun t =>
        (t.auth i).rsv = min 0xFFFFFFFF ((s.auth i).rsv + 2 ^ 16) ∧
        Tab.get (fun _ => 0) t.nvm.fvRsv i = min 0xFFFFFFFF ((s.auth i).rsv + 2 ^ 16) ∧
        (t.auth i).last = (s.auth i).last ∧ (∀ j, j ≠ i → t.auth j = s.auth j)) ∧
    (∀ (s : State) (i : Nat), i < 1024 → rsvDue (s.auth i) = false → exec (.authRsvRaise i) s = .next s))

/-- LIN channels: a commander begins the entry whose START has come, after one that the position passed (R85, R335), a
responder judges the header's synch and protected identifier (R337), a response is taken, refused for its checksum,
or missing (R337), and channels sleep and wake (R338). Where the spec leaves a point to a reading or a choice, log
entries 38 and 66 say which. It says where these commands complete: LIN_SCHEDULE_ENTRY, LIN_HEADER_RX,
LIN_RESPONSE_RX, LIN_NO_RESPONSE, LIN_IDLE_SLEEP, LIN_WAKE_TX, LIN_WAKE_DETECT. -/
def Obligations.LinChannels : Prop :=
  (∀ (s : State) (n : Nat), linOk n = true → linCommands (linSettle s) n = true →
    (∀ x rest, ((linSettle s).lin n).passed = x :: rest →
      exec (.linScheduleEntry n) s = .next (linPassed (linSettle s) n x)) ∧
    (∀ i, ((linSettle s).lin n).passed = [] → linDue (linSettle s) n = some i →
      exec (.linScheduleEntry n) s = .next (linEntry (linSettle s) n i))) ∧
  (∀ (s u : State) (n pid meas : Nat), linOk n = true → pid < 256 → linSettle s = u →
    ((u.lin n).mode ≠ .normal → exec (.linHeaderRx n pid meas) s = .next u) ∧
    ((u.lin n).mode = .normal → syncInRange u n meas = false →
      Answers (.linHeaderRx n pid meas) s fun t =>
        t.pair (aLinCnt n 4) = (u.pair (aLinCnt n 4) + 1) % 2 ^ 64 ∧ t.lin n = u.lin n) ∧
    ((u.lin n).mode = .normal → syncInRange u n meas = true → protectedId (pid % 64) ≠ pid →
      Answers (.linHeaderRx n pid meas) s fun t =>
        t.pair (aLinCnt n 3) = (u.pair (aLinCnt n 3) + 1) % 2 ^ 64 ∧ t.lin n = u.lin n) ∧
    ((u.lin n).mode = .normal → syncInRange u n meas = true → protectedId (pid % 64) = pid →
      exec (.linHeaderRx n pid meas) s = .next (linRespond u n (pid % 64) u.cclk meas []))) ∧
  (∀ (s : State) (n f t0 b chk : Nat) (d : List Byte), linOk n = true → d.length ≤ 8 → chk < 256 →
    (s.lin n).await = some (f, t0, b) →
    (d.length = responseLen s n f → chk = linChecksum (s.bitAt (aFt n f) 2) f d →
      exec (.linResponseRx n d chk) s = .next (linTake s n f d)) ∧
    (d.length = responseLen s n f → chk ≠ linChecksum (s.bitAt (aFt n f) 2) f d →
      Answers (.linResponseRx n d chk) s fun t =>
        t.lin n = { s.lin n with await := none, busyUntil := s.cclk, lastAt := s.cclk } ∧
        t.pair (aLinCnt n 1) = (s.pair (aLinCnt n 1) + 1) % 2 ^ 64 ∧ t.bitAt (regAddr (pLin n) 0x10) 2 = true) ∧
    (d.length ≠ responseLen s n f → exec (.linResponseRx n d chk) s = .next (linMissing s n))) ∧
  (∀ (s : State) (n f t0 b : Nat), linOk n = true → (s.lin n).await = some (f, t0, b) →
    10 * t0 + 14 * 10 * (responseLen s n f + 1) * b ≤ 10 * s.cclk →
    Answers (.linNoResponse n) s fun t =>
      t.lin n = { s.lin n with await := none, busyUntil := s.cclk } ∧
      t.pair (aLinCnt n 2) = (s.pair (aLinCnt n 2) + 1) % 2 ^ 64 ∧ t.bitAt (regAddr (pLin n) 0x10) 1 = true) ∧
  (∀ (s : State) (n : Nat), linOk n = true → (s.lin n).mode = .normal → s.fld (aLin n 0x044) 16 4 ≠ 0 →
    (s.lin n).lastAt + s.fld (aLin n 0x044) 16 4 * 1000000000 ≤ s.cclk →
    exec (.linIdleSleep n) s = .next (s.setLin n { s.lin n with mode := .sleep, await := none })) ∧
  (∀ (s : State) (w : Who) (n : Nat), linOk n = true → Passes s w (aLin n 0x04C) 1 →
    Answers (.linWakeTx w n) s fun t =>
      (t.lin n).mode = (if (s.lin n).mode = .sleep then .normal else (s.lin n).mode) ∧ t.out = .linWake n :: s.out ∧
      t.pair (aLinCnt n 7) = (s.pair (aLinCnt n 7) + 1) % 2 ^ 64) ∧
  (∀ (s : State) (n : Nat), linOk n = true → (s.lin n).mode = .sleep → asleep s.mode = false → s.power.entry = none →
    exec (.linWakeDetect n) s = .next (s.setLin n { s.lin n with mode := .normal, lastAt := s.cclk }))

/-- The gateway's queue: the next message whose cycle has come enters it after those that the order puts before it, and
one that comes alone is queued, or dropped and counted where 1,024 wait (R340); its head is admitted not earlier
than 250 cycles after the one before (R341); a deferred value enters again at its cycle, with its cache read (R346,
R365); the hold of a batch closes it, and a built frame enters the pipeline as one of port 50, padded and with its
FCS, as soon as the pacer of the port lets it (R243, R354, R355); an arriving frame that is an AVTP frame of a
stream is taken apart, any other is counted and goes no further (R356). The gateway's table window: READ and
READ_PENDING put the entry, or its staged value, into the data registers with status 0, and an entry lost in both
copies gives status 0x0C; a form error answers its status and moves nothing; STAGE stages a well-formed entry and
refuses another with its status (R360, R365). An event whose condition does not hold changes nothing: the model's
choice (log entry 4). Where the spec leaves a point to a reading or a choice, log entries 39 and 40 say which. It
says where these commands complete: GWE_ENQUEUE, ROUTE_ADMIT, GWE_REINJECT, BATCH_HOLD_EXPIRE, BATCH_FRAME_ENTER,
GWE_DECAPSULATE, GWE_TBL_READ, GWE_TBL_STAGE, GWE_TBL_READ_PENDING. -/
def Obligations.GatewayMessagesAndTables : Prop :=
  (
    (∀ (s : State) (m : GweMsg), leastBy reqKey (s.gwe.reqs.filter (fun x => decide (x.at_ ≤ s.cclk))) = some m →
      exec .gweEnqueue s = .next (gweTakeTo (reqKey m) (gweComing s) s) ∧
      (s.gwe.run = [] → s.gwe.reqs = [m] → (∀ h, m.kind ≠ .reinject h) →
        (s.gwe.inq.length < 1024 →
          Answers .gweEnqueue s fun t =>
            t.gwe.inq = s.gwe.inq ++ [stampEpoch s m] ∧ t.gwe.reqs = [] ∧
            t.pair (aGweCnt 5) = s.pair (aGweCnt 5)) ∧
        (1024 ≤ s.gwe.inq.length →
          Answers .gweEnqueue s fun t =>
            t.gwe.inq = s.gwe.inq ∧ t.gwe.reqs = [] ∧
            t.pair (aGweCnt 5) = (s.pair (aGweCnt 5) + 1) % 2 ^ 64 ∧ t.bitAt (regAddr (pGwe 0) 0x10) 1 = true))) ∧
    (∀ s : State, s.gwe.reqs = [] → exec .gweEnqueue s = .next s) ∧
    (∀ (s : State) (m : GweMsg) (rest : List GweMsg), s.gwe.inq = m :: rest →
      (gweOpen s = true → admitAt s m ≤ s.cclk →
        Answers .routeAdmit s fun t =>
          t.gwe = { s.gwe with inq := rest, lastAdmit := some (admitAt s m), routed := s.gwe.routed ++ [(admitAt s m, m)] } ∧
          t.pair (aGweCnt 0) = (s.pair (aGweCnt 0) + 1) % 2 ^ 64) ∧
      (gweOpen s = false ∨ s.cclk < admitAt s m → exec .routeAdmit s = .next s)) ∧
    (∀ (s : State) (h d : Nat), h < 4096 → (s.hrun h).due = some d → d ≤ s.cclk → gweOpen s = true →
      exec (.gweReinject h) s = .next (gweTakeTo (reqKey (lvcMsg s h d)) (gweComing s) s) ∧
      (s.gwe.reqs = [] → s.gwe.run = [(h, s.hrun h)] →
        let r := gweRead (s.setHrun h { s.hrun h with due := none })
        exec (.gweReinject h) s = .next (if r.2 then lvcLose r.1 h
          else enqueue { r.1 with free := r.1.free + ((s.lvc h).count - 64) } (lvcMsg s h d)))) ∧
    (∀ (s : State) (o : Nat) (b : Batch), o < 64 → Tab.get (fun _ => none) s.gwe.batch o = some b → holdOver s b = true →
      exec (.batchHoldExpire o) s = .next (closeBatch s s.epoch o (max (b.holdEnd + 512) b.decided))) ∧
    (∀ (s : State) (f : BatchFrame) (rest : List BatchFrame), s.gwe.out = f :: rest → f.enterAt ≤ s.cclk →
      (entryOpen s 50 = true → Answers .batchFrameEnter s fun t =>
        t.gwe.out = rest ∧ t.nextFrame = s.nextFrame + 1 ∧ (t.frame s.nextFrame).bytes = paddedFrame f.bytes ∧
        (t.frame s.nextFrame).port = 50 ∧ (t.frame s.nextFrame).rx = s.cclk) ∧
      (entryOpen s 50 = false → Answers .batchFrameEnter s fun t =>
        t.gwe.out = rest ∧ t.nextFrame = s.nextFrame ∧
        ∃ x, t.fab.entryQ = s.fab.entryQ ++ [x] ∧ x.frame.bytes = paddedFrame f.bytes ∧ x.frame.port = 50)) ∧
    (∀ (s : State) (f : GweFrame) (rest : List GweFrame), s.gwe.frames = f :: rest →
      let u := { s with gwe := { s.gwe with frames := rest } }
      ((gweOpen s = false ∨ s.gwe.ready = false) → exec .gweDecapsulate s = .next u) ∧
      (gweOpen s = true → s.gwe.ready = true →
        (avtpOf (istreamRead u) f = none →
          exec .gweDecapsulate s = .next ((istreamRead u).bump (aGweCnt 13))) ∧
        (∀ a, avtpOf (istreamRead u) f = some a →
          exec .gweDecapsulate s = .next (acceptAvtp (istreamRead u) f a))))) ∧
  (
    (∀ (s : State) (w : Who) (pend : Bool) (c : Instr), (pend, c) ∈ [(false, Instr.gweTblRead w), (true, .gweTblReadPending w)] →
      Passes s w (aGweTbl 0x044) (if pend then 3 else 1) →
      (gweForm s = 0 → exec c s = .next (if (gweRead s).2
        then gweStatus (gweLose (gweRead s).1 [gweTable s * 2 ^ 20 + gweIndex s]) 0x0C
        else gweStatus (setGweData (gweRead s).1
          (withSeq (gweRead s).1 (gweTable s) (gweIndex s) (tueValue (gweRead s).1 pend (gweTable s) (gweIndex s)))) 0)) ∧
      (gweForm s ≠ 0 → exec c s = .next (gweStatus s (gweForm s)))) ∧
    (∀ (s : State) (w : Who), Passes s w (aGweTbl 0x044) 2 →
      (gweForm s ≠ 0 → exec (.gweTblStage w) s = .next (gweStatus s (gweForm s))) ∧
      (gweForm s = 0 → rwsClosed s.mode = true → exec (.gweTblStage w) s = .next (gweStatus s 0x0A)) ∧
      (gweForm s = 0 → rwsClosed s.mode = false →
        badEntry (gweTable s) (noSeq (gweTable s) (slice (gweData s) 0 (entryBytes (gweTable s)))) = true ∨
          ((gweData s).drop (entryBytes (gweTable s))).any (fun b => b != 0) = true →
        exec (.gweTblStage w) s = .next (gweStatus s 0x0D)) ∧
      (gweForm s = 0 → rwsClosed s.mode = false →
        badEntry (gweTable s) (noSeq (gweTable s) (slice (gweData s) 0 (entryBytes (gweTable s)))) = false →
        ((gweData s).drop (entryBytes (gweTable s))).any (fun b => b != 0) = false →
        (isHost w.m = true → siltFull s = true → exec (.gweTblStage w) s = .next (gweStatus s.siltRefused 0x0B)) ∧
        (isHost w.m = false ∨ siltFull s = false →
          exec (.gweTblStage w) s = .next (gweStageOne s (originOf w.m) (gweTable s) (gweIndex s)
            (noSeq (gweTable s) (slice (gweData s) 0 (entryBytes (gweTable s)))))))))

/-- The clocks of a domain: a Sync from the slave port is taken by the servo, or waits for its Follow_Up (R372); one
whose Follow_Up has not come within a sync interval is given up and counted; a domain whose Sync is overdue goes to
HOLDOVER with its interrupt and report, and one held too long goes to FREE (R371, Table 12-1); a grandmaster's clock
is set through FREE (R370). A message that is not from the slave port of an enabled domain changes nothing (R374).
Peer delay and what a domain sends: a Pdelay_Req when it is due, the answer to one on a port that is up, the
measurement of a complete exchange (R373, R374), the copies of a Sync for the master ports (R375), the Follow_Up of
one that has left (R379), and the Syncs that a grandmaster originates (R380). An event whose condition does not hold
changes nothing: the model's choice (log entry 4). Where the spec leaves a point to a reading or a choice, log
entries 41 and 42 say which. It says where these commands complete: PTP_SYNC_RX, PTP_FOLLOW_UP_RX, FU_MISSING,
PTP_SYNC_TIMEOUT, PTP_HOLD_EXPIRE, PTP_SET_GO, PDELAY_REQ_TX, PDELAY_REQ_RX, PDELAY_RESP_RX, SYNC_RELAY,
FOLLOW_UP_TX, SYNC_ORIGINATE. -/
def Obligations.PtpClocksAndMessages : Prop :=
  (
    (∀ (s : State) (d p q t : Nat) (two : Bool) (i : SyncInfo), twoOk d = true → macOk p = true → syncFrom s d p = false →
      exec (.ptpSyncRx d p q two i t) s = .next s ∧ exec (.ptpFollowUpRx d p q i) s = .next s) ∧
    (∀ (s : State) (d p q t : Nat) (i : SyncInfo), twoOk d = true → macOk p = true → syncFrom s d p = true →
      exec (.ptpSyncRx d p q false i t) s =
        .next (withServo (s.bump (aPtpCnt 0)) d (fun u => syncAccepted u d p (gptpIngress s p t) i)) ∧
      Answers (.ptpSyncRx d p q true i t) s fun u =>
        (u.dom d).waitFu = some (gptpIngress s p t, s.cclk, q) ∧ (u.dom d).state = (s.dom d).state ∧ (u.dom d).ofs = (s.dom d).ofs ∧
        u.pair (aPtpCnt 6) =
          (if (s.dom d).waitFu.isSome then (s.pair (aPtpCnt 6) + 1) % 2 ^ 64 else s.pair (aPtpCnt 6))) ∧
    (∀ (s : State) (d p q : Nat) (i : SyncInfo), twoOk d = true → macOk p = true → syncFrom s d p = true →
      exec (.ptpFollowUpRx d p q i) s = .next (completeSync (relayInfo s d p q i) d p q i)) ∧
    (∀ (s : State) (d c q : Nat) (t : Int), twoOk d = true → (s.dom d).waitFu = some (t, c, q) →
      c + syncInterval s d < s.cclk →
      exec (.fuMissing d) s = .next ((s.setDom d { s.dom d with waitFu := none }).bump (aPtpCnt 6))) ∧
    (∀ (s : State) (d : Nat), twoOk d = true → syncOverdue s d = true →
      Answers (.ptpSyncTimeout d) s fun t =>
        (t.dom d).state = .holdover ∧ (t.dom d).holdAt = some s.cclk ∧ (t.dom d).waitFu = (s.dom d).waitFu ∧
        t.bitAt (regAddr pPtp 0x10) 3 = true) ∧
    (∀ (s : State) (d : Nat), twoOk d = true → syncOverdue s d = false → exec (.ptpSyncTimeout d) s = .next s) ∧
    (∀ (s : State) (d : Nat), twoOk d = true → holdOverdue s d = true →
      Answers (.ptpHoldExpire d) s fun t => (t.dom d).state = .free ∧ (t.dom d).holdAt = none) ∧
    (∀ (s : State) (d : Nat), twoOk d = true → holdOverdue s d = false → exec (.ptpHoldExpire d) s = .next s) ∧
    (∀ (s : State) (w : Who) (d : Nat), twoOk d = true → Passes s w (aDom d 0x44) 1 →
      exec (.ptpSetGo w d) s = .next (domEnter (takeAdj (domStep (domEnter s d .free) d (setTime s d)) d
        (signed 32 (s.reg (aDom d 0x34)).toNat)) d .locked) ∧
      Answers (.ptpSetGo w d) s fun t => (t.dom d).state = .locked)) ∧
  (
    (∀ (s : State) (p : Nat), macOk p = true → pdelayDue s p = true →
      Answers (.pdelayReqTx p) s fun t =>
        (t.pdelay p).reqAt = some s.cclk ∧ (t.pdelay p).asked = some (nextSeq (unanswered s p) p 0 2) ∧
        (t.pdelay p).t1 = none ∧
        ((s.pdelay p).asked ≠ none → (t.pdelay p).lost = min 3 ((s.pdelay p).lost + 1)) ∧
        (entryOpen s 51 = true → t.nextFrame = s.nextFrame + 1)) ∧
    (∀ (s : State) (p : Nat), macOk p = true → pdelayDue s p = false → exec (.pdelayReqTx p) s = .next s) ∧
    (∀ (s : State) (p q id t2 : Nat), macOk p = true → s.bitAt (aPtpPort p 0) 0 = true → portUp s p = true →
      Answers (.pdelayReqRx p q id t2) s fun t =>
        t.ptp = s.ptp ∧
        (entryOpen s 51 = true → t.nextFrame = s.nextFrame + 1 ∧
          (t.frame s.nextFrame).bytes = paddedFrame (pdelayRespBytes s p 3 q (gptpIngress s p t2 / 1000) id)) ∧
        (entryOpen s 51 = false → ∃ x, t.fab.entryQ = s.fab.entryQ ++ [x] ∧
          x.frame.bytes = paddedFrame (pdelayRespBytes s p 3 q (gptpIngress s p t2 / 1000) id))) ∧
    (∀ (s : State) (p q t2 t3 t4 : Nat) (t1 : Int), macOk p = true → (s.pdelay p).asked = some q →
      (s.pdelay p).t1 = some t1 →
      let u := gptpIngress s p t4
      let nrr := rateRatio (s.pdelay p).prev (s.pdelay p).nrr t3 u
      let mld := meanDelay t1 t2 t3 u nrr (asymUnits s p)
      let y := { s.pdelay p with lost := 0, asked := none, t1 := none, prev := some (t3, u), nrr := nrr, mld := mld }
      (mld ≤ nbrThresh s p → exec (.pdelayRespRx p q t2 t3 t4) s = .next (s.setPdelay p { y with asCap := true })) ∧
      (¬ mld ≤ nbrThresh s p → exec (.pdelayRespRx p q t2 t3 t4) s = .next (asCapLost (s.setPdelay p y) p))) ∧
    (∀ (s : State) (p q t2 t3 t4 : Nat), macOk p = true → (s.pdelay p).asked ≠ some q →
      exec (.pdelayRespRx p q t2 t3 t4) s = .next s) ∧
    (∀ (s : State) (d q t : Nat) (two : Bool) (i : SyncInfo), twoOk d = true → syncFrom s d (s.dom d).slave = true →
      exec (.syncRelay d q two i t) s = .next (sendSyncs (relayEdit s d q two i (gptpIngress s (s.dom d).slave t)) (masterPorts s d) (s.cclk + 156)
        (if two && domOneStep s d then s.bump (aPtpCnt 7) else s))) ∧
    (∀ (s : State) (d p : Nat) (x : Nat × Int × PtpEdit), twoOk d = true → macOk p = true →
      (s.dom d).fuDue.find? (fun y => y.1 == p && y.2.2.known) = some x →
      let t := s.setDom d { s.dom d with fuDue := (s.dom d).fuDue.erase x }
      ((t.pdelay p).asCap = true → portUp t p = true →
        exec (.followUpTx d p) s = .next ((gptpSend t p t.cclk (followUpBytes t p x.2.2 x.2.1) none).bump (aPtpCnt 3))) ∧
      ((t.pdelay p).asCap = false ∨ portUp t p = false → exec (.followUpTx d p) s = .next t)) ∧
    (∀ (s : State) (d : Nat), twoOk d = true → originDue s d = true →
      exec (.syncOriginate d) s = .next (sendSyncs { dom := d, orig := true, oneStep := domOneStep s d } (masterPorts s d)
        s.cclk (s.setDom d { s.dom d with origAt := some s.cclk }))))

/-- Lookaside requests (R409, R410): a request that its source may not make now is not taken; with an empty queue one
that is not held by a FENCE and passes the checks of R410 is admitted to the least loaded engine that has room, with
the key and the counter value of its slot at admission (R411, R412); one that fails them completes with the status
of the first that fails, and is not admitted. The DRBG and the fence (R410): a DRBG request is admitted when a
health test that is due passes, or none is due and RNG_OK = 1; an INV_FENCE waits for the earlier requests with its
key (R413). A request that has finished completes and is counted by its output, or by the verification that failed,
and what waits may then be admitted (R409); one that has not changes nothing. An event whose condition does not hold
changes nothing: the model's choice (log entry 4). Where the spec leaves a point to a reading or a choice, log
entries 13 and 43 say which. It says where these commands complete: AES_CTR_ENC, AES_CTR_DEC, AES_GCM_ENC,
AES_GCM_DEC, AES_CMAC_GEN, AES_CMAC_VER, AES_CMAC_FV, AES_KW_WRAP, AES_KW_UNWRAP, SHA256, SHA384, HMAC_SHA256,
HMAC_SHA384, ECDSA_SIGN, ECDSA_VERIFY, ECDH, DRBG_GEN, DRBG_RESEED, INV_FENCE, LOOKASIDE_COMPLETE. -/
def Obligations.LookasideEngines : Prop :=
  (
    ∀ (s u : State) (src : LaSource) (d : LaDesc) (x : List Byte) (f : Bool) (op e : Nat) (r : LaReq) (c : Instr),
      (c, op) ∈ [(Instr.aesCtrEnc src d x f, 0x01), (.aesCtrDec src d x f, 0x02), (.aesGcmEnc src d x f, 0x03),
        (.aesGcmDec src d x f, 0x04), (.aesCmacGen src d x f, 0x05), (.aesCmacVer src d x f, 0x06),
        (.aesCmacFv src d x f, 0x07), (.aesKwWrap src d x f, 0x08), (.aesKwUnwrap src d x f, 0x09),
        (.sha256 src d x f, 0x10), (.sha384 src d x f, 0x11), (.hmacSha256 src d x f, 0x12), (.hmacSha384 src d x f, 0x13),
        (.ecdsaSign src d x f, 0x20), (.ecdsaVerify src d x f, 0x21), (.ecdh src d x f, 0x22)] →
      d.op = op → r = laNew s src d x f true → u = laTaken s src r → s.cipher.queue = [] →
      (laTakes s src = false → exec c s = .next s) ∧
      (laTakes s src = true → laFenced u [] r = false → laEngine u r = some e → laCheck u r = (u, 0) →
        Answers c s fun t =>
          t.cipher.queue = [] ∧ t.cipher.num = s.cipher.num + 1 ∧
          t.cipher.adm = s.cipher.adm ++ [{ r with
            engine := e, key := (s.keySlot d.key).key, ctr := (s.keySlot d.key).ctr, waits := [], drained := 0
            doneAt := (if e < 6 then max s.cclk (Tab.get (fun _ => 0) s.cipher.engineEnd e) else s.cclk) + laTime d }]) ∧
      (∀ st, laTakes s src = true → laFenced u [] r = false → laEngine u r = some e → laCheck u r = (u, st + 1) →
        Answers c s fun t =>
          let v := laFinish (if st + 1 = 3 ∨ st + 1 = 9 then u else u.bump (aCeCnt 1)) r (st + 1) [] 0
          t = { v with cipher := { v.cipher with queue := [] } } ∧
          t.cipher.num = s.cipher.num + 1 ∧ t.cipher.adm = s.cipher.adm ∧ t.keys = s.keys)) ∧
  (
    (∀ (s u : State) (src : LaSource) (d : LaDesc) (good : Bool) (e op : Nat) (r : LaReq) (c : Instr),
      (c, op) ∈ [(Instr.drbgGen src d good, 0x30), (.drbgReseed src d good, 0x31)] →
      d.op = op → r = laNew s src d [] false good → u = laTaken s src r → s.cipher.queue = [] →
      laTakes s src = true → laFenced u [] r = false → laEngine u r = some e → laCheck u r = (u, 0) →
      (needsHealth s r = false → u.bitAt (aCe 0x044) 4 = true →
        Answers c s fun t =>
          t.cipher.queue = [] ∧ t.cipher.drbgCount = s.cipher.drbgCount + 1 ∧
          t.cipher.adm.length = s.cipher.adm.length + 1 ∧ t.reg (aCe 0x044) = u.reg (aCe 0x044)) ∧
      (needsHealth s r = true → good = true → op = 0x31 ∨ u.bitAt (aCe 0x044) 4 = true →
        Answers c s fun t =>
          t.cipher.queue = [] ∧ t.cipher.drbgCount = 1 ∧ t.cipher.adm.length = s.cipher.adm.length + 1 ∧
          t.bitAt (aCe 0x044) 4 = true)) ∧
    (∀ (s u : State) (src : LaSource) (d : LaDesc) (r : LaReq),
      d.op = 0x3E → r = laNew s src d [] false true → u = laTaken s src r → s.cipher.queue = [] →
      laTakes s src = true → laFenced u [] r = false → laCheck u r = (u, 0) →
      Answers (.invFence src d) s fun t =>
        t.cipher.queue = [] ∧
        t.cipher.adm = s.cipher.adm ++ [{ r with
          engine := 7, key := (s.keySlot d.key).key, ctr := (s.keySlot d.key).ctr, waits := fenceWaits u d.key
          drained := (fenceWaits u d.key).length, doneAt := s.cclk + laTime d }]) ∧
    (∀ (s : State) (n : Nat) (r : LaReq), s.cipher.adm.find? (fun x => x.num == n) = some r →
      (laReady s r = true → exec (.lookasideComplete n) s = .next (laDone s r)) ∧
      (laReady s r = false → exec (.lookasideComplete n) s = .next s) ∧
      (laReady s r = true → r.source = .mp0 ∨ r.source = .mp1 ∨ r.source = .gwe → s.cipher.queue = [] →
        Answers (.lookasideComplete n) s fun t =>
          t.cipher.adm = s.cipher.adm.filter (fun x => x.num != n) ∧ t.rings = s.rings ∧
          ((r.parity && (laUse r.d.op).isSome) = false →
            (laOutput s r ≠ none → t.pair (aCeCnt 0) = (s.pair (aCeCnt 0) + 1) % 2 ^ 64) ∧
            (laOutput s r = none → t.pair (aCeCnt 2) = (s.pair (aCeCnt 2) + 1) % 2 ^ 64)))))

/-- Secure associations: an installation that R387 refuses is recorded with its cause in `MSC_STAT.INST`, another
installs the SA (R387); a write of VALID = 0 removes an installed SA and writes no other field of it; `MSC_ENC_SA`
names the transmit SA (R395). Known answer tests: the spare takes the slot of the next pipe, and a pipe that passes
is the spare (R406). Where the spec leaves a point to a reading or a choice, log entry 44 says which. It says where
these commands complete: SA_INSTALL, SA_REMOVE, ENC_SA_WRITE, KAT_ROTATION, KAT_COMPLETE. -/
def Obligations.SecureAssociationsAndTests : Prop :=
  (∀ (s : State) (w : Who) (p : Nat) (sa : SaId) (v : Word), macOk p = true → saOk sa = true → bit v.toNat 0 = true →
    Passes s w (aMsc p (saOff sa)) v → s.faults.marks = [] → isHost w.m = false ∨ siltFull s = false →
    (installCause s p sa (bits v.toNat 4 10) = 0 →
      exec (.saInstall w p sa v) s = .next (logReg (installSa s p sa v) (originOf w.m) (aMsc p (saOff sa))
        (s.reg (aMsc p (saOff sa))) ((installSa s p sa v).reg (aMsc p (saOff sa))) false)) ∧
    (∀ k, installCause s p sa (bits v.toNat 4 10) = k + 1 →
      exec (.saInstall w p sa v) s = .next
        ((s.setFld (aMsc p 0x060) 4 3 (k + 1)).refuse (pMsc p) .valueRange w (aMsc p (saOff sa))))) ∧
  (∀ (s : State) (w : Who) (p : Nat) (sa : SaId) (v : Word), macOk p = true → saOk sa = true → bit v.toNat 0 = false →
    Passes s w (aMsc p (saOff sa)) v → bit (s.reg (aMsc p (saOff sa))).toNat 0 = true →
    Answers (.saRemove w p sa v) s fun t =>
      t.reg (aMsc p (saOff sa)) = clrBit (s.reg (aMsc p (saOff sa))) 0 ∧ RegsBut [aMsc p (saOff sa)] [pSilt] s t) ∧
  (∀ (s : State) (w : Who) (p : Nat) (v : Word), macOk p = true → Passes s w (aMsc p 0x054) v →
    Answers (.encSaWrite w p v) s fun t =>
      t.reg (aMsc p 0x054) = w32 (v.toNat % 2) ∧ RegsBut [aMsc p 0x054] [pSilt] s t) ∧
  (∀ (s : State) (eg : Bool) (i j k : Nat), katDue s eg = true → (s.kat eg).spare = some j →
    (katOrder s eg).find? (fun i => (List.range 4).any (fun k => pipeOf s eg k == i)) = some i →
    (List.range 4).find? (fun k => pipeOf s eg k == i) = some k →
    Answers (.katRotation eg) s fun t =>
      t.kat eg = { testing := some i, spare := none, next := (i + 1) % 5, startAt := s.cclk } ∧ pipeOf t eg k = j % 16 ∧
      t.pair (aCeCnt 7) = (s.pair (aCeCnt 7) + 1) % 2 ^ 64) ∧
  (∀ (s : State) (eg : Bool) (i : Nat), (s.kat eg).testing = some i →
    ((List.range 4).find? (fun k => pipeOf (s.bump (aCeCnt 5)) eg k == 7) = none →
      Answers (.katComplete eg true) s fun t =>
        t.kat eg = { s.kat eg with testing := none, spare := some i } ∧
        t.pair (aCeCnt 5) = (s.pair (aCeCnt 5) + 1) % 2 ^ 64) ∧
    exec (.katComplete eg false) s = .next
      (retirePipe (((s.bump (aCeCnt 6)).raise (pCe 0) 0).report 0x20 (pipeUnit eg i) [] false) eg i))

/-- Key agreement: a participant that does not run hears nothing, one that runs takes an MKPDU with a good ICV (R414),
and a standby hands on the MKPDUs of its ports (R416); a hello that is due goes out on port 51 with its egress port
named, as soon as the pacer of the port lets it, and the next is two seconds later; a peer whose life time has ended
goes (R414). An event whose condition does not hold changes nothing: the model's choice (log entry 4). Where the
spec leaves a point to a reading or a choice, log entries 13 and 45 say which. It says where these commands
complete: MKPDU_RX, MKA_HELLO, MKA_PEER_TIMEOUT. -/
def Obligations.KeyAgreement : Prop :=
  (∀ (s : State) (p : Nat) (bs : List Byte), macOk p = true → s.twin.role ≠ .standby →
    exec (.mkpduRx p bs) s =
      .next (if mkaRuns s p = true ∧ mkaGood s p bs = true then mkaReceive (mkaStart s p) p bs else s)) ∧
  (∀ (s : State) (p : Nat) (bs : List Byte), macOk p = true → s.twin.role = .standby → s.bitAt (aMsc p 0x064) 0 = true →
    (slSend s 0x50 true (.mka p bs)).twin.role = .standby →
    exec (.mkpduRx p bs) s = .next (slSend s 0x50 true (.mka p bs))) ∧
  (∀ (s u : State) (p : Nat), macOk p = true → helloDue s p = true →
    u = sakSwitch (sakMake (sakRetire (mkaWants (mkaStart s p) p) p) p) p →
    Answers (.mkaHello p) s fun t =>
      t.mka p = { u.mka p with mn := (u.mka p).mn + 1, helloAt := u.cclk + 2000000000 } ∧
      (entryOpen u 51 = true →
        t.nextFrame = u.nextFrame + 1 ∧ (t.frame u.nextFrame).port = 51 ∧ (t.frame u.nextFrame).named = some p) ∧
      (entryOpen u 51 = false → ∃ x, t.fab.entryQ = u.fab.entryQ ++ [x] ∧ x.frame.port = 51 ∧ x.frame.named = some p)) ∧
  (∀ (s : State) (p : Nat), macOk p = true → helloDue s p = false → exec (.mkaHello p) s = .next s) ∧
  (∀ (s : State) (p mi : Nat) (x : MkaPeer), macOk p = true → mkaRuns s p = true →
    (s.mka p).peers.find? (fun y => y.mi == mi) = some x →
    (x.lifeEnd ≤ s.cclk → exec (.mkaPeerTimeout p mi) s = .next (sakSwitch (sakMake (s.setMka p { s.mka p with
      peers := (s.mka p).peers.filter (fun y => y.mi != mi), want := (s.mka p).want || x.live }) p) p)) ∧
    (s.cclk < x.lifeEnd → exec (.mkaPeerTimeout p mi) s = .next s))

/-- Key update messages: INSTALL, DERIVE, INVALIDATE and FIRST, at the front of the mailbox order, with their OP and
with every check passed (R437), change their TARGET, its generation and its stored blob, and answer (R435, R439);
one that a check refuses changes no slot and answers that check's status (R437). A host without such a request at
the front is not served. LC_ADVANCE advances the life cycle, and the unit starts again at the end of its grace time
(R443). An event whose condition does not hold changes nothing: the model's choice (log entry 4). Where the spec
leaves a point to a reading or a choice, log entry 46 says which. It says where these commands complete:
KUM_INSTALL, KUM_DERIVE, KUM_INVALIDATE, KUM_LC_ADVANCE, KUM_FIRST, LC_GRACE_RESET. -/
def Obligations.KeyUpdateMessages : Prop :=
  (∀ (s : State) (h : HostPort), mbxFront s h 4 = true → s.mode ≠ .boot → asleep s.mode = false → mbxLen s h ≤ 248 →
    s.mode ≠ .quarantine ∨ pairOk s true = true →
    let u := (kumReads s (kumBytes s h)).tick1
    let m := kumBytes s h
    (kumReqOp s h = 1 → exec (.kumInstall h) s = .next (if kumRefusal u m = 0 then
        kumChange u h m 1 (kumSlot u m 1 (kumAuth m)
          ((kumUnwrapped u m).getD [])) true
      else kumRefused u h m (kumRefusal u m))) ∧
    (kumReqOp s h = 2 → exec (.kumDerive h) s = .next (if kumRefusal u m = 0 then
        kumChange u h m 2 (kumSlot u m 2 (kumAuth m)
          (kumDerived u m)) true
      else kumRefused u h m (kumRefusal u m))) ∧
    (kumReqOp s h = 3 → exec (.kumInvalidate h) s = .next (if kumRefusal u m = 0 then
        (kumChange u h m 3 invalidSlot false).bump (aKeyCnt 2)
      else kumRefused u h m (kumRefusal u m))) ∧
    (kumReqOp s h = 5 → exec (.kumFirst h) s = .next (if kumRefusal u m = 0 then
        kumChange u.tick1 h m 4 (kumSlot u m 1 (Config.freeNat u.free % 8)
          ((kumUnwrapped u m).getD [])) true
      else kumRefused u h m (kumRefusal u m))) ∧
    (kumReqOp s h = 4 → exec (.kumLcAdvance h) s = .next (if kumRefusal u m = 0 then
        lcAdvance u h m
      else kumRefused u h m (kumRefusal u m)))) ∧
  (∀ (s : State) (h : HostPort) (c : Instr), mbxFront s h 4 = false →
    c ∈ [Instr.kumInstall h, .kumDerive h, .kumInvalidate h, .kumFirst h, .kumLcAdvance h] → exec c s = .next s) ∧
  (∀ (s : State) (g : Nat), s.keys.graceEnd = some g →
    (g ≤ s.cclk → exec .lcGraceReset s = .next (start .lifecycle s)) ∧
    (s.cclk < g → exec .lcGraceReset s = .next s))

/-- Update decisions (R547, R549, Table 18-9): ACTIVATE makes the READY slot PENDING, CANCEL the PENDING slot READY,
VETO ends a trial with a reset, ACTIVATE_RESET starts the unit again, and OEM_KEY_SET programs OEM_CFG_HASH once and
in OPEN only; where the slot or the state that the decision needs is missing, its status is answered and nothing
else changes. Where the spec leaves a point to a reading or a choice, log entry 57 says which. It says where these
commands complete: UPD_ACTIVATE, UPD_ACTIVATE_RESET, UPD_CANCEL, UPD_VETO, OEM_KEY_SET. -/
def Obligations.UpdateDecisions : Prop :=
  ∀ (s : State) (h : HostPort), s.mode ≠ .boot → s.mode ≠ .quarantine → asleep s.mode = false → mbxFront s h 5 = true →
    (mbxByte s h 8 = 1 → mbxLen s h = 2 →
      (activateRefusal s = 0 → exec (.updActivate h) s = .next (mbxRespond (activated s) h 0 [])) ∧
      (slotIn s .ready = none → exec (.updActivate h) s = .next (mbxRespond s h 0x10 []))) ∧
    (mbxByte s h 8 = 2 → mbxLen s h = 2 →
      (activateRefusal s = 0 → s.mode ≠ .active ∨ bit (mbxByte s h 9) 0 = true →
        exec (.updActivateReset h) s = .next (resetReq (activated s) h)) ∧
      (activateRefusal s = 0 → s.mode = .active → bit (mbxByte s h 9) 0 = false →
        exec (.updActivateReset h) s = .next (mbxRespond s h 0x12 []))) ∧
    (mbxByte s h 8 = 3 → mbxLen s h = 2 →
      (slotIn s .pending = none → exec (.updCancel h) s = .next (mbxRespond s h 0x10 [])) ∧
      (∀ k, slotIn s .pending = some k → siltFull s = false →
        Answers (.updCancel h) s fun t =>
          (codeSlot t k).st = .ready ∧ t.nvm.pendingSlot = none ∧ t.keys = s.keys ∧ t.mode = s.mode)) ∧
    (mbxByte s h 8 = 4 → mbxLen s h = 2 →
      (slotIn s .trial = none → exec (.updVeto h) s = .next (mbxRespond s h 0x11 [])) ∧
      (∀ k, slotIn s .trial = some k → siltFull s = false →
        exec (.updVeto h) s = .next (start .trialRevert (revertTrial
          (mbxRespond (siltUpd s oUpdate 4 k 0 (codeSlot s k).build (codeSlot s k).build) h 0 []) k 4)))) ∧
    (mbxByte s h 8 = 5 → mbxLen s h = 40 →
      (lcState s ≠ 0 → exec (.oemKeySet h) s = .next (mbxRespond s h 0x15 [])) ∧
      (lcState s = 0 → beNat (oemHash s) ≠ 0 → exec (.oemKeySet h) s = .next (mbxRespond s h 0x16 [])) ∧
      (lcState s = 0 → beNat (oemHash s) = 0 → siltFull s = false →
        exec (.oemKeySet h) s = .next (mbxRespond (siltUpd
          (((mbxBytes s h 16 32).zipIdx).foldl (fun (u : State) x => otpProgram u (0x88 + x.2) x.1) s)
          oUpdate 0x0D 0 0 0 0) h 0 [])))

/-- Roles of the twin pair: arbitration stands in ARB while the line is high and in STANDBY when it is low; the watch of
an arbitrating unit ends in ACTIVE (R461); a claim window is read at its end (R456); the line's reads are kept; a
planned swap is asked for at the second point from now and changes roles at its point (R481, R482, R514), or is
given up 20 us before it; after a takeover the rest of its work is done, once its gate is open (R477). An event
whose condition does not hold changes nothing: the model's choice (log entry 4). Where the spec leaves a point to a
reading or a choice, log entries 49 and 51 say which. It says where these commands complete: ROLE_SWAP, SWAP_POINT,
SWAP_ABORT, SWAP_CONDITION, TAKEOVER_TASK, CLAIM_WINDOW, CLAIM_LOW_READ, ARBITRATION_START, OBSERVE_END, GRACE_END,
CLAIM_HIGH_READ. -/
def Obligations.RolesOfTheTwins : Prop :=
  (∀ s : State, mayArbitrate s = true → s.twin.lineLow = false →
    exec .arbitrationStart s = .next { s with twin := { s.twin with role := .arb, arbAt := s.cclk } }) ∧
  (∀ s : State, mayArbitrate s = true → s.twin.lineLow = true →
    exec .arbitrationStart s = .next (arbStandby { s with twin := { s.twin with role := .arb, arbAt := s.cclk } }) ∧
    Answers .arbitrationStart s fun t => t.twin.role = .standby ∧ t.twin.claim = false ∧ t.twin.gate = false) ∧
  (∀ s : State, mayArbitrate s = false → exec .arbitrationStart s = .next s) ∧
  (∀ s : State, s.twin.role = .arb → s.twin.strapConflict = false → s.twin.lineLow = false →
    (preferred s = true → s.twin.arbAt + observe s ≤ s.cclk → exec .observeEnd s = .next (arbActive s)) ∧
    (preferred s = false → s.twin.arbAt + observe s + grace s ≤ s.cclk → exec .graceEnd s = .next (arbActive s)) ∧
    ((arbActive s).twin.role = .active ∧ (arbActive s).twin.claim = true ∧ (arbActive s).twin.gate = true ∧
      (arbActive s).twin.sync = .none) ∧
    (preferred s = false → exec .observeEnd s = .next s) ∧ (preferred s = true → exec .graceEnd s = .next s)) ∧
  (∀ (s : State) (p : Nat) (low : Bool), s.twin.window = some p →
    exec (.claimWindow low) s = .next (claimSampled s p low) ∧
    (low = false → s.twin.role = .active → p + (windowOf s.twin.twinB).2 ≤ s.cclk →
      exec (.claimWindow low) s = .next { s with twin := { s.twin with window := none, foreignRun := 0 } })) ∧
  (∀ s : State, s.twin.role ≠ .arb → s.twin.role ≠ .standby →
    exec .claimLowRead s = .next { s with twin := { s.twin with lineLow := true, lineRead := true } } ∧
    exec .claimHighRead s = .next { s with twin := { s.twin with lineLow := false, lineRead := true } }) ∧
  (∀ s : State, s.twin.role = .arb →
    exec .claimLowRead s = .next (arbStandby { s with twin := { s.twin with lineLow := true, lineRead := true } }) ∧
    exec .claimHighRead s = .next { s with twin := { s.twin with lineLow := false, lineRead := true } }) ∧
  (∀ s : State, mayTakeOver s = true →
    exec .claimHighRead s = .next (takeover { s with twin := { s.twin with lineLow := false, lineRead := true } }) ∧
    (Answers .claimHighRead s fun t => t.twin.role = .active ∧ t.twin.claim = false ∧ t.twin.gate = false ∧
      t.twin.taskAt = some s.cclk ∧ t.mode = s.mode) ∧
    (s.twin.waitWindow = false → s.twin.isolated = false → s.twin.window = none →
      exec .claimLowRead s = .next { s with twin := { s.twin with lineLow := true, lineRead := true, waitWindow := true } })) ∧
  (∀ (s : State) (h : HostPort), s.mode ≠ .boot → s.mode ≠ .quarantine → asleep s.mode = false →
    mbxFront s h 6 = true → mbxLen s h = 0 →
    (s.twin.role ≠ .active → exec (.roleSwap h) s = .next (mbxRespond s h 0x10 [])) ∧
    (s.twin.role = .active → s.twin.sync ≠ .synced → exec (.roleSwap h) s = .next (mbxRespond s h 0x11 [])) ∧
    (s.twin.role = .active → s.twin.sync = .synced → s.twin.swap = none →
      Answers (.roleSwap h) s fun t =>
        t.twin.swap = some { point := (syncCnt s + 2) % 2 ^ 32, host := some h, thenTest := none, digest := false } ∧
        t.twin.role = .active ∧ t.mbx = s.mbx.filter (fun x => x != h))) ∧
  (∀ (s : State) (c : SwapCond), s.mode = .active → s.twin.role = .active → s.twin.sync = .synced → s.twin.swap = none →
    s.bitAt (aLsp 0x040) (swapCondBit c) = true → swapCondHolds s c = true →
    Answers (.swapCondition c) s fun t =>
      t.twin.swap = some { point := (syncCnt s + 2) % 2 ^ 32, host := none, thenTest := none, digest := false } ∧
      t.mode = s.mode) ∧
  (∀ (s : State) (x : Swap), s.twin.swap = some x → s.twin.role = .active → x.acked = true → syncCnt s = x.point →
    exec .swapPoint s = .next (swapOut s x)) ∧
  (∀ (s : State) (x : Swap), s.twin.swap = some x → s.twin.role = .standby →
    s.twin.store.map (fun c => c.n) = some x.point →
    exec .swapPoint s = .next (swapIn s) ∧
    Answers .swapPoint s fun t => t.twin.role = .active ∧ t.twin.claim = true ∧ t.twin.gate = true) ∧
  (∀ (s : State) (x : Swap), s.twin.swap = some x → s.twin.role = .active → x.acked = false →
    predictNumber s x.point ≤ s.cclk + 20000 →
    Answers .swapAbort s fun t => t.twin.swap = none ∧ t.twin.role = .active ∧ t.faults.testBusy = false) ∧
  (∀ (s : State) (d : Nat), s.twin.taskAt = some d → s.twin.role = .active →
    (s.twin.gate = true → d + 8 ≤ s.cclk → exec .takeoverTask s = .next (takeoverRest s)) ∧
    (s.twin.gate = false → exec .takeoverTask s = .next s))

/-- ALIVE and heartbeats: a kick raises ALIVE where the unit may run (R453), a missed kick sends the unit to QUARANTINE
(R453); a heartbeat goes out each 10,000 cycles while ALIVE (R454), one that is heard is kept with its cycle, and a
path not heard for its time is silent, counted and reported (R455); an announcement that is due goes out (R483). An
event whose condition does not hold changes nothing: the model's choice (log entry 4). Where the spec leaves a point
to a reading or a choice, log entry 51 says which. It says where these commands complete: TWN_KICK, KICK_TIMEOUT,
HEARTBEAT_TX, HEARTBEAT_RX, HEARTBEAT_SILENT, ROLE_ANNOUNCE. -/
def Obligations.AliveAndHeartbeats : Prop :=
  (∀ (s : State) (w : Who), Passes s w (aTwn 0x050) 1 →
    exec (.twnKick w) s = .next { s with twin := { s.twin with
      lastKick := some s.cclk, alive := aliveMode s.mode && pairOk s false && pairOk s true && !s.keys.husk } }) ∧
  (∀ (s : State) (k : Nat), s.twin.lastKick = some k → s.twin.alive = true → k + 100000 ≤ s.cclk → s.mode ≠ .quarantine →
    Answers .kickTimeout s fun t =>
      t.mode = .quarantine ∧ t.twin.alive = false ∧ t.twin.role = .none ∧ t.twin.claim = false ∧ t.commits = []) ∧
  (∀ (s : State) (k : Nat), s.twin.lastKick = some k → s.cclk < k + 100000 → exec .kickTimeout s = .next s) ∧
  (∀ s : State, s.twin.alive = true → s.twin.nextHb ≤ s.cclk →
    Answers .heartbeatTx s fun t => t.twin.nextHb = s.cclk + 10000 ∧ Out.heartbeat ∈ t.out ∧ t.mode = s.mode) ∧
  (∀ s : State, s.twin.alive = false → exec .heartbeatTx s = .next s) ∧
  (∀ (s : State) (p : HbPath) (x : HbInfo), s.mode ≠ .boot → asleep s.mode = false →
    exec (.heartbeatRx p x) s = .next (heartbeatHeard s p x)) ∧
  (∀ (s : State) (p : HbPath), s.mode ≠ .boot → asleep s.mode = false → isSilent s p = false →
    lastHeard s p + hbMiss s * 10000 + 1000 ≤ s.cclk → isSilent s (otherPath p) = false →
    Answers (.heartbeatSilent p) s fun t =>
      isSilent t p = true ∧ isSilent t (otherPath p) = false ∧ t.twin.role = s.twin.role ∧
      t.bitAt (regAddr pTwn 0x10) 9 = true) ∧
  (∀ s : State, annDue s = true → exec .roleAnnounce s = .next (announce s)) ∧
  (∀ s : State, annDue s = false → exec .roleAnnounce s = .next s)

/-- The Shell Link: a record with a bad CRC or of no type is counted and dropped, a LACK frees what it covers, and a
record that waited for room in the buffer goes out when it has become empty (R458, R459), a LACK that is due goes
out with the number before the next expected, and what has waited 10,000 cycles for its LACK goes out again (R459).
Nothing arrives on a lane that is down. An event whose condition does not hold changes nothing: the model's choice
(log entry 4). Where the spec leaves a point to a reading or a choice, log entry 52 says which. It says where these
commands complete: SL_RECORD_RX, SL_LACK, SL_RETRANSMIT. -/
def Obligations.ShellLinkRecords : Prop :=
  (∀ (s : State) (lane : Nat) (bs : List Byte), twoOk lane = true →
    (bit s.sl.up lane = false ∨ s.bitAt (regAddr pSl 0x040) lane = false → exec (.slRecordRx lane bs) s = .next s) ∧
    (bit s.sl.up lane = true → s.bitAt (regAddr pSl 0x040) lane = true →
      (slCrcOk bs = false →
        Answers (.slRecordRx lane bs) s fun t =>
          t.pair (aSlCnt 1) = (s.pair (aSlCnt 1) + 1) % 2 ^ 64 ∧ t.pair (aSlCnt 2) = (s.pair (aSlCnt 2) + 1) % 2 ^ 64 ∧
          t.sl = s.sl ∧ t.twin = s.twin) ∧
      (slCrcOk bs = true → slTypes.contains (byteAt bs 0) = false →
        Answers (.slRecordRx lane bs) s fun t =>
          t.pair (aSlCnt 1) = (s.pair (aSlCnt 1) + 1) % 2 ^ 64 ∧ t.pair (aSlCnt 3) = (s.pair (aSlCnt 3) + 1) % 2 ^ 64 ∧
          t.sl = s.sl ∧ t.twin = s.twin) ∧
      (slCrcOk bs = true → byteAt bs 0 = 2 → s.sl.waiting = [] →
        Answers (.slRecordRx lane bs) s fun t =>
          t.pair (aSlCnt 1) = (s.pair (aSlCnt 1) + 1) % 2 ^ 64 ∧
          t.sl.unacked = s.sl.unacked.filter
            (fun x => decide ((x.1.lseq + 2 ^ 32 - beAt bs 16 4 - 1) % 2 ^ 32 < 2 ^ 31)) ∧ t.out = s.out) ∧
      (∀ r : SlRec, slCrcOk bs = true → byteAt bs 0 = 2 → s.sl.waiting = [r] →
        (∀ x ∈ s.sl.unacked, 2 ^ 31 ≤ (x.1.lseq + 2 ^ 32 - beAt bs 16 4 - 1) % 2 ^ 32) →
        Answers (.slRecordRx lane bs) s fun t =>
          t.pair (aSlCnt 1) = (s.pair (aSlCnt 1) + 1) % 2 ^ 64 ∧
          t.sl.waiting = [] ∧ t.sl.unacked = [({ r with sync := syncCnt s }, s.cclk)] ∧
          t.out = .sl (slLane s) { r with sync := syncCnt s } :: s.out))) ∧
  (∀ s : State, slUp s = true → s.sl.lackDue ≠ none →
    Answers .slLack s fun t =>
      t.sl.lackDue = none ∧ t.sl.unacked = s.sl.unacked ∧
      t.out = .sl (slLane s) { ty := 2, sync := syncCnt s, body := .lack ((s.sl.rxSeq + 2 ^ 32 - 1) % 2 ^ 32) } :: s.out) ∧
  (∀ (s : State) (x : SlRec × Nat) (rest : List (SlRec × Nat)), s.sl.unacked = x :: rest → slUp s = true →
    (x.2 + 10000 ≤ s.cclk → exec .slRetransmit s = .next (slResend s)) ∧
    (s.cclk < x.2 + 10000 → exec .slRetransmit s = .next s))

/-- Joining and staying in step: an active keeps a join request (R467), a standby that joins takes the snapshot, a
synchronised one applies each newer point (R471) and stands its commits as armed, acknowledging them (R469); the
active notes acknowledgements of commits and of points (R470, R472); a recomputed digest that agrees or does not
(R474). An event whose condition does not hold changes nothing: the model's choice (log entry 4). Where the spec
leaves a point to a reading or a choice, log entries 15, 50, 74 and 75 say which. It says where these commands
complete: JOIN_REQ_RX, JOIN_END_RX, SYNC_APPLY, DIGEST_RECOMPUTE_DONE, SYNC_ACK_RX, COMMIT_RECORD_RX, COMMIT_ACK_RX.
-/
def Obligations.JoinsAndPoints : Prop :=
  (∀ s : State, s.twin.role = .active → slUp s = true →
    exec .joinReqRx s = .next { s with twin := { s.twin with joinReq := true } }) ∧
  (∀ s : State, s.twin.role ≠ .active → exec .joinReqRx s = .next s) ∧
  (∀ (s : State) (e d c : Nat) (l : List (Nat × Word)), s.twin.role = .standby → s.twin.sync = .joining →
    s.twin.joinReq = true → slUp s = true → exec (.joinEndRx e d c l) s = .next (joinApplies s e d c l)) ∧
  (∀ (s : State) (c : SyncCore), s.twin.role = .standby → slUp s = true → s.twin.joined = true →
    (isNewer s c.n = true → exec (.syncApply c) s = .next (applySync s c)) ∧
    (isNewer s c.n = false → exec (.syncApply c) s = .next s)) ∧
  (∀ (s : State) (f : Nat), s.twin.recomputing = true → exec (.digestRecomputeDone f) s = .next (recomputed s f)) ∧
  (∀ (s : State) (f : Nat), s.twin.recomputing = false → exec (.digestRecomputeDone f) s = .next s) ∧
  (∀ (s : State) (n d : Nat) (m : Bool), s.twin.role = .active → slUp s = true → n < 2 ^ 32 →
    (syncCnt s + 2 ^ 32 - n) % 2 ^ 32 < 2 ^ 31 → exec (.syncAckRx n d m) s = .next (ackTaken s n d m)) ∧
  (∀ (s : State) (w : Master) (tag point : Nat) (vals : List (Nat × Word)) (recs : List (Nat × Nat × List Byte)),
    s.twin.role = .standby → slUp s = true →
    exec (.commitRecordRx w tag point vals recs) s = .next
      (commitTaken s w (tag % 2 ^ 16) (point % 2 ^ 32) (vals.filter (fun x => mayCommit x.1)) recs)) ∧
  (∀ (s : State) (tag point : Nat), s.twin.role = .active → slUp s = true →
    Answers (.commitAckRx tag point) s fun t =>
      t.commits.length = s.commits.length ∧ t.regs = s.regs ∧
      ∀ c ∈ s.commits, c.point = .sync point → c.parts.getLast?.map (fun p => p.tag) = some tag →
        { c with acked := true } ∈ t.commits)

/-- Lockstep pairs and stalls: a mismatch is judged, and one that does not fail the pair replays the task with its input
log (R488, R490); a replay takes its reads from that log (R488); a task that compared clean within its limits
releases its buffer in order (R487), and one past them, a stalled unit or port, a failed clock or supply sends the
unit to QUARANTINE (R489, R498 to R500); a scrub pass is counted and signalled (R493). An event whose condition does
not hold changes nothing: the model's choice (log entry 4). Where the spec leaves a point to a reading or a choice,
log entries 53, 55 and 79 say which. It says where these commands complete: LOCKSTEP_MISMATCH, TASK_COMMIT,
TASK_OVERRUN, SCRUB_PASS, DP_STALL, PORT_STALL, CLOCK_FAIL, SUPPLY_FAIL. -/
def Obligations.LockstepAndStalls : Prop :=
  (∀ (s : State) (mp1 : Bool) (k : Nat) (a : Bool), pairOk s mp1 = true → asleep s.mode = false →
    exec (.lockstepMismatch mp1 k a) s = .next (mismatch s mp1 k a)) ∧
  (∀ (s : State) (mp1 : Bool) (k : Nat) (a : Bool), pairOk s mp1 = false →
    exec (.lockstepMismatch mp1 k a) s = .next s ∧ exec (.taskOverrun mp1 k) s = .next s ∧
    ∀ l, exec (.taskCommit mp1 l) s = .next s) ∧
  (∀ (s : State) (mp1 : Bool) (k : Nat), pairOk s mp1 = true → asleep s.mode = false → (s.pairSt mp1).inj = none →
    (s.pairSt mp1).agreed = false → (s.pairSt mp1).asyncMm ≠ 3 →
    Answers (.lockstepMismatch mp1 k true) s fun t =>
      (t.pairSt mp1).left = (s.pairSt mp1).log ∧ (t.pairSt mp1).asyncMm = (s.pairSt mp1).asyncMm + 1 ∧ t.mode = s.mode) ∧
  (∀ (s : State) (w : Who) (a n q : Nat) (mp1 : Bool) (x : Nat × Word) (c : Instr),
    c ∈ [.semTasRead w n, .capNsRead w n, .canTxevRead w n, .canRxqPop w n q] → c.wf = true → readOf c = some (w, a) →
    w.m = (if mp1 then .mp1 else .mp0) → Reaches s w a → (s.pairSt mp1).left.find? (fun y => y.1 == a) = some x →
    exec c s = .next ((s.setPairSt mp1 { s.pairSt mp1 with left := (s.pairSt mp1).left.erase x }).emit
      (.read w.m a x.2))) ∧
  (∀ (s : State) (mp1 : Bool) (l : List Staged), pairOk s mp1 = true → asleep s.mode = false →
    runInjected s mp1 = false → (l.length ≤ 64 → (s.pairSt mp1).overran = false →
      Answers (.taskCommit mp1 l) s fun t =>
        (t.pairSt mp1).asyncMm = 0 ∧ (t.pairSt mp1).plainMm = 0 ∧ (t.pairSt mp1).agreed = false ∧
        (t.pairSt mp1).log = [] ∧ (t.pairSt mp1).left = [] ∧ t.bitAt (aLsp 0x044) (2 + b2n mp1) = false) ∧
    (64 < l.length → s.mode ≠ .quarantine →
      Answers (.taskCommit mp1 l) s fun t => t.mode = .quarantine ∧ t.twin.role = .none ∧ t.commits = [])) ∧
  (∀ (s : State) (mp1 : Bool) (k : Nat), pairOk s mp1 = true → asleep s.mode = false → s.mode ≠ .quarantine →
    Answers (.taskOverrun mp1 k) s fun t => t.mode = .quarantine ∧ t.twin.role = .none ∧ t.commits = []) ∧
  (∀ (s : State) (u : Nat), asleep s.mode = false →
    (stageLate s u = true → s.mode ≠ .quarantine →
      Answers (.dpStall u) s fun t => t.mode = .quarantine ∧ t.twin.role = .none ∧ t.commits = []) ∧
    (stageLate s u = false → exec (.dpStall u) s = .next s)) ∧
  (∀ (s : State) (p : Nat), portOk p = true → portStalls s p = true → asleep s.mode = false → s.mode ≠ .quarantine →
    Answers (.portStall p) s fun t => t.mode = .quarantine ∧ t.twin.role = .none ∧ t.commits = []) ∧
  (∀ (s : State) (b : Bool), asleep s.mode = false → s.mode ≠ .quarantine →
    Answers (.clockFail b) s fun t => t.mode = .quarantine ∧ t.twin.role = .none ∧ t.commits = []) ∧
  (∀ (s : State) (n : Nat), supplyOk n = true → asleep s.mode = false → s.mode ≠ .quarantine →
    Answers (.supplyFail n) s fun t => t.mode = .quarantine ∧ t.twin.role = .none ∧ t.commits = []) ∧
  (∀ (s : State) (r : Nat), r < 12 → passDue s r = true → exec (.scrubPass r) s = .next (scrubs s r)) ∧
  (∀ (s : State) (r : Nat), r < 12 → passDue s r = false → exec (.scrubPass r) s = .next s)

/-- Fault reports and records: the next report enters the FIFO, or is lost with 1,024 in it (R504); the coalescer takes
the oldest (R507); an entry closes 2 us after its window (R508); a record is written, chained and numbered (R508,
R510). Injections are taken as their registers' writes say (R515 to R517, R519). An event whose condition does not
hold changes nothing: the model's choice (log entry 4). Where the spec leaves a point to a reading or a choice, log
entry 54 says which. It says where these commands complete: FAULT_REPORT, COALESCE, WINDOW_CLOSE,
FAULT_RECORD_WRITE, MEM_INJ_ARM, LSP_INJ_ONCE, LSP_INJ_ASYNC, LSP_INJ_PERSIST, FLT_INJ_GO. -/
def Obligations.FaultReportsAndInjection : Prop :=
  (∀ (s : State) (r : Report), nextReport s = some r →
    (s.faults.fifo.length < 1024 →
      Answers .faultReport s fun t =>
        t.faults.fifo = s.faults.fifo ++ [r] ∧ t.faults.events = s.faults.events.erase r ∧ t.regs = s.regs) ∧
    (1024 ≤ s.faults.fifo.length →
      Answers .faultReport s fun t =>
        t.faults.fifo = s.faults.fifo ∧ t.faults.lostMark = true ∧
        t.pair (aFltCnt 1) = (s.pair (aFltCnt 1) + 1) % 2 ^ 64)) ∧
  (∀ s : State, nextReport s = none → exec .faultReport s = .next s) ∧
  (∀ s : State, exec .coalesce s = .next (takeReport s)) ∧
  (∀ (s : State) (i : Nat) (e : CoalEntry), i ≤ 1024 → coalEntry s i = some e → e.st = .open_ →
    (e.first + fltWindow s + 2000 < s.cclk →
      Answers (.windowClose i) s fun t =>
        coalEntry t i = some { e with st := .closed } ∧
        t.faults.closing = s.faults.closing ++ [({ e with st := .closed }, i)]) ∧
    (s.cclk ≤ e.first + fltWindow s + 2000 → exec (.windowClose i) s = .next s)) ∧
  (∀ (s : State) (e : CoalEntry) (i : Nat) (rest : List (CoalEntry × Nat)), s.faults.closing = (e, i) :: rest →
    Answers .faultRecordWrite s fun t =>
      t.faults.closing = rest ∧ t.faults.lostMark = false ∧ t.reg (aFlt 0x080) = s.reg (aFlt 0x080) + 1 ∧
      t.faults.chain = Config.sha256 (bytes256 (fltChain s) ++ recordBytes s e)) ∧
  (∀ (s : State) (w : Who) (v : Word), bit v.toNat 31 = true → Passes s w (aMem 0x050) v →
    Answers (.memInjArm w v) s fun t => t.faults.marks.length = s.faults.marks.length + 1) ∧
  (∀ (s : State) (w : Who) (v : Word) (k : Nat) (c : Instr),
    (c, k) ∈ [(Instr.lspInjOnce w v, 1), (.lspInjAsync w v, 2), (.lspInjPersist w v, 3)] →
    bit v.toNat 31 = true → fld v 1 2 = k → Passes s w (aLsp 0x04C) v → exec c s = .next (lspInjTaken s w v)) ∧
  (∀ (s : State) (w : Who) (v : Word), bit v.toNat 31 = true → Passes s w (aFlt 0x100) v →
    Answers (.fltInjGo w v) s fun t =>
      t.faults.events.length = s.faults.events.length + 1 ∧ t.faults.fifo = s.faults.fifo)

/-- A doorbell while its host's request is being served sets BUSYHIT and takes no request (R73). It says where this
command completes: BUSYHIT. -/
def Obligations.DoorbellWhileBusy : Prop :=
  ∀ (s : State) (h : HostPort), s.bitAt (aMbx h 0x044) 0 = true →
    Passes s { m := hostMaster h } (aMbx h 0x040) 1 →
    Answers (.busyhit h) s fun t => t.bitAt (aMbx h 0x044) 2 = true ∧ t.mbx = s.mbx ∧ RegsBut [aMbx h 0x044] [] s t

/-- Sleep and wake: an entry stops the fabric, then drains its ports, then sleeps, and its supplies go (R523, Table
17-3); an enabled pin or the timer wakes a unit in SLEEP, adds its bit to a wake that has begun, is latched during
an entry and changes nothing elsewhere (R524, R525); a supply retry (R571), power-on and the reset pin start the
unit (R530); a Husk cause clears the keys and ends in QUARANTINE (R446, R572, Table 14-11). An event whose condition
does not hold changes nothing: the model's choice (log entry 4). Where the spec leaves a point to a reading or a
choice, log entries 8, 47 and 56 say which. It says where these commands complete: SLEEP_ENTRY_STOP,
SLEEP_DRAIN_END, SLEEP_CHECKPOINT_DONE, SUPPLIES_OFF, WAKE_PIN_ASSERT, WAKE_TIMER_EXPIRE, POWER_ON, RESET_PIN,
TAMPER_ASSERT, GLITCH_DETECT, TEMPERATURE_LIMIT, SUPPLY_RETRY. -/
def Obligations.SleepWakeAndStarts : Prop :=
  (∀ (s : State) (e : SleepEntry), s.power.entry = some e →
    (e.stage = .responded → entryStopAt e ≤ s.cclk →
      Answers .sleepEntryStop s fun t =>
        t.fab.stopped = true ∧ t.power.entry = some { e with stage := .stopped } ∧ t.mode = s.mode) ∧
    (e.stage = .stopped → entryDrainAt s e ≤ s.cclk →
      Answers .sleepDrainEnd s fun t => t.power.entry = some { e with stage := .drained } ∧ t.mode = s.mode) ∧
    (e.stage = .drained →
      Answers .sleepCheckpointDone s fun t =>
        t.mode = (if e.deep then .sleepDeep else .sleepRetain) ∧ t.commits = [] ∧ t.twin.alive = false ∧ t.twin.claim = false ∧
        t.power.entry = some { e with stage := .asleep }) ∧
    (e.stage = .asleep → (suppliesGo s e.deep).power.late = false →
      Answers .suppliesOff s fun t =>
        t.power.entry = none ∧ t.power.supplies = false ∧ t.power.mainEn = false ∧ t.power.retEn = !e.deep) ∧
    (e.stage = .asleep → (suppliesGo s e.deep).power.late = true →
      exec .suppliesOff s = .next (wakes (suppliesGo s e.deep)))) ∧
  (∀ (s : State) (k : Nat), k < 8 → s.bitAt (aWake 0x040) (4 * k) = true →
    (s.power.entry = none → asleep s.mode = false → exec (.wakePinAssert k) s = .next s) ∧
    (s.power.entry = none → asleep s.mode = true → s.power.wakeAt = none →
      exec (.wakePinAssert k) s = .next (wakes (wakeSource s 0x054 k k)) ∧
      (s.mode = .sleepRetain → Answers (.wakePinAssert k) s fun t =>
        t.power.supplies = true ∧ t.power.mainEn = true ∧ t.power.wakeAt ≠ none)) ∧
    (s.power.entry = none → asleep s.mode = true → s.power.wakeAt ≠ none →
      exec (.wakePinAssert k) s = .next (s.setBitAt (aWake 0x054) k true)) ∧
    (s.power.entry ≠ none →
      Answers (.wakePinAssert k) s fun t => t.power.late = true ∧ t.power.entry = s.power.entry ∧ t.mode = s.mode)) ∧
  (∀ (s : State) (k : Nat), k < 8 → s.bitAt (aWake 0x040) (4 * k) = false → exec (.wakePinAssert k) s = .next s) ∧
  (∀ s : State, s.fld (aWake 0x04C) 0 24 ≠ 0 → asleep s.mode = true → s.power.supplies = false → s.power.entry = none →
    s.power.wakeAt = none → s.fld (aWake 0x04C) 0 24 * 1000000 ≤ s.power.sleptNs →
    exec .wakeTimerExpire s = .next (wakes (wakeSource s 0x054 16 0x20))) ∧
  (∀ s : State, s.fld (aWake 0x04C) 0 24 = 0 → exec .wakeTimerExpire s = .next s) ∧
  (∀ s : State, exec .powerOn s = .next (start .powerOn s) ∧ exec .resetPin s = .next (start .resetPin s)) ∧
  (∀ s : State, s.power.supplies = true → exec .supplyRetry s = .next s) ∧
  (∀ s : State, s.power.supplies = false →
    (s.mode = .sleepDeep →
      exec .supplyRetry s = .next { s with power := { s.power with retries := s.power.retries + 1 } }) ∧
    (s.mode ≠ .sleepDeep → exec .supplyRetry s = .next (start .powerOn s))) ∧
  (∀ (s : State) (b : Nat) (c : Instr),
    (c, b) ∈ [(Instr.tamperAssert, 0), (.glitchDetect .voltage, 1), (.temperatureLimit, 3)] ∨
      (c = .glitchDetect .clock ∧ b = 2 ∧ s.mode ≠ .sleepDeep) →
    exec c s = .next (husk s b) ∧
    (s.mode ≠ .quarantine →
      Answers c s fun t => t.mode = .quarantine ∧ t.twin.role = .none ∧ t.power.supplies = true)) ∧
  (∀ s : State, s.mode = .sleepDeep → exec (.glitchDetect .clock) s = .next s)

/-- Update sessions: OPEN makes a session or answers why not (R541), CLOSE ends it; the ring gives WRITE, FINISH and
ABORT to the session of its owner, and none while it may not run them (R544, R556); a block that the flash device
has read back ends; a unit in TRIAL is confirmed or reverted at the end of its window (R548, R549). An event whose
condition does not hold changes nothing: the model's choice (log entry 4). Where the spec leaves a point to a
reading or a choice, log entry 57 says which. It says where these commands complete: UPD_SESSION_OPEN,
UPD_SESSION_CLOSE, UPD_WRITE, UPD_FINISH, UPD_ABORT, TRIAL_WINDOW_END, FLASH_WRITE_DONE. -/
def Obligations.UpdateSessions : Prop :=
  (∀ (s : State) (w : Who) (v : Word), Passes s w (aUpd 0x060) (setBit v 0) →
    exec (.updSessionOpen w v) s = .next (openSession s w (setBit v 0))) ∧
  (∀ (s : State) (w : Who) (v : Word), Passes s w (aUpd 0x060) (setBit (clrBit v 0) 1) →
    (∀ u, s.upd.session = some u →
      Answers (.updSessionClose w v) s fun t => t.upd.session = none ∧ t.upd.relay = none ∧ t.mode = s.mode) ∧
    (s.upd.session = none → exec (.updSessionClose w v) s = .next s)) ∧
  (∀ (s : State) (d : UpdDesc) (u : Session) (bs : List Byte), updTakes s d = some u → bs.length ≤ 65536 →
    (d.op = 1 → u.dest ≠ 1 → updOpOk 1 d = true →
      exec (.updWrite d bs false) s = .next (runWrite (ringTake s .upd 1) u d (blockBytes d bs) false)) ∧
    (d.op = 2 → u.dest ≠ 1 → updOpOk 2 d = true → u.flight = [] → s.upd.tail = none →
      exec (.updFinish d) s = .next (ownFinish (ringTake s .upd 1) u d)) ∧
    (d.op = 3 → u.dest ≠ 1 → updOpOk 3 d = true →
      exec (.updAbort d) s = .next (abortSession (updAnswer (ringTake s .upd 1) u d 0 0 0) u))) ∧
  (∀ (s : State) (d : UpdDesc), updTakes s d = none →
    (updOpOk 1 d = true → ∀ bs f, exec (.updWrite d bs f) s = .next s) ∧
    (updOpOk 2 d = true → exec (.updFinish d) s = .next s) ∧ (updOpOk 3 d = true → exec (.updAbort d) s = .next s)) ∧
  (∀ (s : State) (ok : Bool), s.upd.tail = none → s.upd.session = none → exec (.flashWriteDone ok) s = .next s) ∧
  (∀ (s : State) (ok : Bool) (u : Session) (d : UpdDesc) (bs : List Byte) (rest : List (UpdDesc × List Byte)),
    s.upd.tail = none → s.upd.session = some u → u.dest ≠ 1 → u.flight = (d, bs) :: rest →
    exec (.flashWriteDone ok) s = .next (ownBlockEnds s u d bs ok)) ∧
  (∀ (s : State) (k : Nat), trialOver s = some k →
    exec .trialWindowEnd s = .next (if stayedHealthy (healthStep s) then confirmTrial (healthStep s) k
      else start .trialRevert (revertTrial (healthStep s) k 3))) ∧
  (∀ s : State, trialOver s = none → exec .trialWindowEnd s = .next s)

/-- Relays: a standby runs the descriptors of its active (R556), a frame of the relayed update protocol is taken from
its relay or counted (R558), and a DATA frame that has waited 2 ms is sent again, until the eighth time ends the
relay (R557). An event whose condition does not hold changes nothing: the model's choice (log entry 4). Where the
spec leaves a point to a reading or a choice, log entries 15 and 59 say which. It says where these commands
complete: RELAY_RECORD_RX, RELAY_FRAME_RX, RELAY_RETRANSMIT. -/
def Obligations.RelayedUpdates : Prop :=
  (∀ (s : State) (t : UpdTarget) (d : UpdDesc) (bs : List Byte), slUp s = true → s.twin.role = .standby →
    (d.op = 1 → (s.upd.pieces ++ bs).length < d.len →
      exec (.relayRecordRx t d bs) s = .next { s with upd := { s.upd with pieces := s.upd.pieces ++ bs } }) ∧
    (∀ u, d.op ≠ 1 ∨ d.len ≤ (s.upd.pieces ++ bs).length →
      relayedSession { s with upd := { s.upd with pieces := [] } } t = some u →
      exec (.relayRecordRx t d bs) s = .next (relayedRuns (setSession { s with upd := { s.upd with pieces := [] } } u) u d
        ((s.upd.pieces ++ bs).take d.len)))) ∧
  (∀ (s : State) (t : UpdTarget) (d : UpdDesc) (bs : List Byte), s.twin.role ≠ .standby →
    exec (.relayRecordRx t d bs) s = .next s) ∧
  (∀ (s : State) (p : Nat) (b : List Byte), macOk p = true → beAt b 12 2 = 0x88B5 → byteAt b 18 = 2 →
    (s.upd.relay = none →
      Answers (.relayFrameRx p b) s fun t => t.pair (aUpdCnt 7) = (s.pair (aUpdCnt 7) + 1) % 2 ^ 64 ∧ t.upd = s.upd) ∧
    (∀ r, s.upd.relay = some r → exec (.relayFrameRx p b) s =
      .next (if relayFrameOk s r p b = true then relayHeard s r b else s.bump (aUpdCnt 7)))) ∧
  (∀ (s : State) (n : Nat) (r : Relay) (x : Nat × Nat × Nat), s.upd.relay = some r →
    r.out.find? (fun y => y.1 == n) = some x →
    (s.cclk < x.2.2 + 2000000 → exec (.relayRetransmit n) s = .next s) ∧
    (x.2.2 + 2000000 ≤ s.cclk → 8 ≤ x.2.1 → exec (.relayRetransmit n) s = .next (relayEnds s r 0x0F 0)) ∧
    (x.2.2 + 2000000 ≤ s.cclk → x.2.1 < 8 →
      exec (.relayRetransmit n) s = .next (setRelay ((relaySend s r.ds s.cclk (dataFrame s r n)).bump (aUpdCnt 6))
        { r with out := r.out.map (fun y => if y.1 = n then (n, x.2.1 + 1, s.cclk) else y) })))
end

