-- ==== Sys2Proof/Laws/Keep.lean ====
section
/-!
SUPPORT. What no command touches: the queue, programmed OTP bits and the canonical form of the register file and of the
forwarding memory (`Kept`), with the lemmas about tables that this takes. The files Keep0 to Keep9 hold one lemma
`keep_f` for every function `f` of the model that answers a state: where `Kept` holds of the states it takes, it holds
of the state it answers.
-/
namespace Sys2Proof.Laws
set_option Elab.async false
open Sys2Proof Sys2Proof.Machine

/-- What is watched over a step: the queue, and one bit of the OTP. -/
structure Watch where
  queue : List Instr
  /-- whether the bit is programmed before the step -/
  was : Bool
  byte : Nat
  bitNo : Nat

/-- The canonical form keeps under a write. -/
theorem wfAbove_put {α : Type} [DecidableEq α] {d : Nat → α} {t : Tab α} {k : Nat} {v : α} {b : Option Nat}
    (h : Tab.wfAbove d b t = true) (hv : v ≠ d k) (hb : ∀ x, b = some x → x < k) : Tab.wfAbove d b (Tab.put t k v) = true := by
  induction t generalizing b with
  | nil => cases b <;> simp_all [Tab.put, Tab.wfAbove]
  | cons x t ih =>
    obtain ⟨j, w⟩ := x
    simp only [Tab.put]
    split
    · cases b <;> simp_all [Tab.wfAbove]
    · split
      · cases b <;> simp_all [Tab.wfAbove]
      · simp only [Tab.wfAbove, Bool.and_eq_true] at h ⊢
        exact ⟨h.1, ih h.2 (by simp; omega)⟩

/-- A lower bound may be weakened. -/
theorem wfAbove_weaken {α : Type} [DecidableEq α] {d : Nat → α} {t : Tab α} {b c : Option Nat}
    (h : Tab.wfAbove d b t = true) (hc : ∀ x, c = some x → ∃ y, b = some y ∧ x ≤ y) : Tab.wfAbove d c t = true := by
  cases t with
  | nil => rfl
  | cons x t =>
    obtain ⟨j, w⟩ := x
    simp only [Tab.wfAbove, Bool.and_eq_true] at h ⊢
    refine ⟨⟨?_, h.1.2⟩, h.2⟩
    cases c with
    | none => rfl
    | some x =>
      obtain ⟨y, rfl, hy⟩ := hc x rfl
      simp at h ⊢
      omega

/-- The canonical form keeps under an erasure. -/
theorem wfAbove_erase {α : Type} [DecidableEq α] {d : Nat → α} {t : Tab α} {k : Nat} {b : Option Nat}
    (h : Tab.wfAbove d b t = true) : Tab.wfAbove d b (Tab.erase t k) = true := by
  induction t generalizing b with
  | nil => exact h
  | cons x t ih =>
    obtain ⟨j, w⟩ := x
    simp only [Tab.erase]
    split
    · simp only [Tab.wfAbove, Bool.and_eq_true] at h
      refine wfAbove_weaken (ih h.2) ?_
      intro y hy
      subst hy
      simp at h
      exact ⟨j, rfl, by omega⟩
    · simp only [Tab.wfAbove, Bool.and_eq_true] at h ⊢
      exact ⟨h.1, ih h.2⟩

/-- The canonical form keeps under `Tab.set`. -/
theorem wf_set {α : Type} [DecidableEq α] {d : Nat → α} {t : Tab α} {k : Nat} {v : α}
    (h : Tab.wf d t = true) : Tab.wf d (Tab.set d t k v) = true := by
  simp only [Tab.set, Tab.wf] at *
  split
  · exact wfAbove_erase h
  · exact wfAbove_put h ‹_› (by simp)

/-- What a written table reads as. -/
theorem get_put {α : Type} {d : Nat → α} {t : Tab α} {k j : Nat} {v : α} :
    Tab.get d (Tab.put t k v) j = if k = j then v else Tab.get d t j := by
  induction t with
  | nil => simp [Tab.put, Tab.get]
  | cons x t ih =>
    obtain ⟨i, w⟩ := x
    simp only [Tab.put]
    split
    · simp [Tab.get]
    · split
      · subst i; simp [Tab.get]; split <;> simp_all
      · simp only [Tab.get, ih]; split <;> split <;> simp_all

theorem get_erase_ne {α : Type} {d : Nat → α} {t : Tab α} {k j : Nat} (h : k ≠ j) :
    Tab.get d (Tab.erase t k) j = Tab.get d t j := by
  induction t with
  | nil => rfl
  | cons x t ih =>
    obtain ⟨i, w⟩ := x
    simp only [Tab.erase]
    split
    · subst i
      rw [ih]
      simp [Tab.get, h]
    · simp only [Tab.get, ih]

/-- An erased entry reads as an unlisted one. -/
theorem get_erase_same {α : Type} {d : Nat → α} {t : Tab α} {k : Nat} : Tab.get d (Tab.erase t k) k = d k := by
  induction t with
  | nil => rfl
  | cons x t ih =>
    obtain ⟨i, w⟩ := x
    simp only [Tab.erase]
    split
    · exact ih
    · rename_i h
      simp only [Tab.get, if_neg h, ih]

/-- Read after write: the entry written reads as written, every other one as before. -/
theorem get_set {α : Type} [DecidableEq α] {d : Nat → α} {t : Tab α} {k j : Nat} {v : α} :
    Tab.get d (Tab.set d t k v) j = if k = j then v else Tab.get d t j := by
  simp only [Tab.set]
  split
  · rename_i h
    by_cases hkj : k = j
    · subst hkj
      rw [get_erase_same, if_pos rfl, h]
    · rw [get_erase_ne hkj, if_neg hkj]
  · exact get_put

/-- Programming a byte clears no bit of any byte. -/
theorem otp_programmed {o : List (Nat × Byte)} {i j b : Nat} {v : Byte}
    (h : (Tab.get (fun _ => 0) o j).getLsbD b = true) :
    (Tab.get (fun _ => 0) (Tab.set (fun _ => 0) o i (Tab.get (fun _ => 0) o i ||| v)) j).getLsbD b = true := by
  simp only [Tab.set]
  by_cases hij : i = j
  · subst hij
    have hb : (Tab.get (fun _ => (0 : Byte)) o i ||| v).getLsbD b = true := by
      rw [BitVec.getLsbD_or, h, Bool.true_or]
    split
    · rename_i hz
      rw [hz] at hb
      simp at hb
    · rw [get_put, if_pos rfl]; exact hb
  · split
    · rw [get_erase_ne hij]; exact h
    · rw [get_put, if_neg hij]; exact h

/-- `Kept` in terms of the four parts it speaks of. -/
def KeptF (k : Watch) (q : List Instr) (o : List (Nat × Byte)) (r : Tab Word) (e : Tab (List Byte)) : Prop :=
  q = k.queue ∧ (k.was = true → (Tab.get (fun _ => 0) o k.byte).getLsbD k.bitNo = true) ∧ Tab.wf regReset r = true ∧ Tab.wf entZero e = true

/-- The queue is the watched one, the watched OTP bit is programmed if it was, and the register file and the forwarding
memory are in canonical form. -/
def Kept (k : Watch) (s : State) : Prop := KeptF k s.pending s.nvm.otp s.regs s.tables.ent

/-- `Kept` of the state that a command leaves. -/
def KeptR (k : Watch) : Result → Prop
  | .next t => Kept k t
  | _ => True

theorem wfAbove_filter {α : Type} [DecidableEq α] {d : Nat → α} {p : Nat × α → Bool} {t : Tab α} {b : Option Nat}
    (h : Tab.wfAbove d b t = true) : Tab.wfAbove d b (t.filter p) = true := by
  induction t generalizing b with
  | nil => exact h
  | cons x t ih =>
    obtain ⟨j, w⟩ := x
    simp only [Tab.wfAbove, Bool.and_eq_true] at h
    rw [List.filter_cons]
    split
    · simp only [Tab.wfAbove, Bool.and_eq_true]
      exact ⟨h.1, ih h.2⟩
    · refine ih (wfAbove_weaken h.2 ?_)
      intro y hy
      subst hy
      simp at h
      exact ⟨j, rfl, by omega⟩

theorem wf_filter {α : Type} [DecidableEq α] {d : Nat → α} {p : Nat × α → Bool} {t : Tab α}
    (h : Tab.wf d t = true) : Tab.wf d (t.filter p) = true := wfAbove_filter h

theorem programFlash_otp {k p : Nat} {bs : List Byte} {n : Nvm} : (programFlash k p bs n).otp = n.otp := by
  induction k generalizing p bs n with
  | zero => rfl
  | succ k ih =>
    unfold programFlash
    split
    · rfl
    · rw [ih]

theorem eraseSectors_otp {l : List Nat} {n : Nvm} : (l.foldl eraseSector n).otp = n.otp := by
  induction l generalizing n with
  | nil => rfl
  | cons x l ih => rw [List.foldl_cons, ih]; rfl

theorem writeArea_otp {n : Nvm} {a z : Nat} {img : List Byte} : (writeArea n a z img).otp = n.otp := by
  unfold writeArea
  rw [programFlash_otp, ← List.foldl_map (f := fun i => a / 65536 + i) (g := eraseSector), eraseSectors_otp]

theorem kept_mk {k : Watch} {v_pending v_cclk v_mode v_regs v_latched v_held v_ctrlLockA v_ctrlLockB v_shadows v_commits v_partNo v_hist v_rings v_msixA v_msixB v_mbx v_silt v_msgPages v_pb v_gpio v_ports v_ptp v_power v_prs v_tables v_policing v_frames v_nextFrame v_fab v_egress v_buses v_gwe v_cipher v_keys v_twin v_sl v_faults v_upd v_nvm v_out v_free} :
    Kept k (State.mk v_pending v_cclk v_mode v_regs v_latched v_held v_ctrlLockA v_ctrlLockB v_shadows v_commits v_partNo v_hist v_rings v_msixA v_msixB v_mbx v_silt v_msgPages v_pb v_gpio v_ports v_ptp v_power v_prs v_tables v_policing v_frames v_nextFrame v_fab v_egress v_buses v_gwe v_cipher v_keys v_twin v_sl v_faults v_upd v_nvm v_out v_free) = KeptF k v_pending v_nvm.otp v_regs v_tables.ent := rfl

theorem keptF_fold {k : Watch} {s : State} : KeptF k s.pending s.nvm.otp s.regs s.tables.ent = Kept k s := rfl

theorem kept_pb {k : Watch} {s : State} {p : PhaseBase} (h : Kept k s) : Kept k { s with pb := p } := h

theorem kept_faults {k : Watch} {s : State} {p : Faults} (h : Kept k s) : Kept k { s with faults := p } := h

theorem kept_power {k : Watch} {s : State} {p : Power} (h : Kept k s) : Kept k { s with power := p } := h

theorem kept_nvm {k : Watch} {s : State} {n : Nvm} (h : Kept k s) (e : n.otp = s.nvm.otp) : Kept k { s with nvm := n } :=
  ⟨h.1, e.symm ▸ h.2.1, h.2.2⟩

theorem kept_erase {k : Watch} {s : State} {i : Nat} (h : Kept k s) :
    Kept k { s with tables := { s.tables with ent := Tab.erase s.tables.ent i } } := ⟨h.1, h.2.1, h.2.2.1, wfAbove_erase h.2.2.2⟩

theorem keptR_next {k : Watch} {s : State} (h : Kept k s) : KeptR k (.next s) := h

theorem keptR_refused {k : Watch} {r : Refusal} : KeptR k (.refused r) := trivial

theorem keep_foldl {α : Type} {k : Watch} {f : State → α → State} {s : State} {l : List α}
    (hf : ∀ t x, Kept k t → Kept k (f t x)) (h : Kept k s) : Kept k (l.foldl f s) := by
  induction l generalizing s with
  | nil => exact h
  | cons a l ih => exact ih (hf s a h)

theorem keep_foldl1 {α β : Type} {k : Watch} {f : State × β → α → State × β} {s : State × β} {l : List α}
    (hf : ∀ t x, Kept k t.1 → Kept k (f t x).1) (h : Kept k s.1) : Kept k (l.foldl f s).1 := by
  induction l generalizing s with
  | nil => exact h
  | cons a l ih => exact ih (hf s a h)

theorem keep_elim {α : Type} {k : Watch} {o : Option α} {d : State} {f : α → State} (hd : Kept k d)
    (hf : ∀ x, Kept k (f x)) : Kept k (o.elim d f) := by
  cases o with
  | none => exact hd
  | some x => exact hf x

theorem keep_ite {k : Watch} {c : Prop} [Decidable c] {a b : State} (ha : c → Kept k a) (hb : ¬c → Kept k b) :
    Kept k (if c then a else b) := by
  split
  · exact ha ‹_›
  · exact hb ‹_›

theorem keep_ite1 {β : Type} {k : Watch} {c : Prop} [Decidable c] {a b : State × β} (ha : c → Kept k a.1) (hb : ¬c → Kept k b.1) :
    Kept k (if c then a else b).1 := by
  split
  · exact ha ‹_›
  · exact hb ‹_›

theorem keep_iteR {k : Watch} {c : Prop} [Decidable c] {a b : Result} (ha : c → KeptR k a) (hb : ¬c → KeptR k b) :
    KeptR k (if c then a else b) := by
  split
  · exact ha ‹_›
  · exact hb ‹_›

theorem kept_fst {β : Type} {k : Watch} {e : State × β} {s : State} {b : β} (h : e = (s, b)) (he : Kept k e.1) : Kept k s := by
  subst h; exact he
end Sys2Proof.Laws
end

