-- ==== Sys2Proof/Laws/Keep0.lean ====
section
/-!
SUPPORT. `Kept` for the functions of Machine/: Ops, PhaseOps, RegOps, WriteCheck, MemOps, KeyOps, MsecOps, FabricOps, Fabric, PhaseInputs.
-/
set_option linter.unusedSimpArgs false
namespace Sys2Proof.Laws
set_option Elab.async false
open Sys2Proof Sys2Proof.Machine

/-! ### Ops -/

theorem keep_ifWf {k : Watch} {a0 s1} (h1 : Kept k s1) : KeptR k (Machine.ifWf a0 s1) := by
  unfold ifWf
  repeat' first | with_reducible assumption | with_reducible apply keptR_next | with_reducible apply keptR_refused | split

theorem keep_whenever {k : Watch} {a0 s1 s2} (h1 : Kept k s1) (h2 : Kept k s2) : Kept k (whenever a0 s1 s2) := by
  unfold whenever
  repeat' first
    | with_reducible assumption
    | split

theorem keep_State_setReg {k : Watch} {s0 a1 a2} (h0 : Kept k s0) : Kept k (State.setReg s0 a1 a2) :=
  ⟨h0.1, h0.2.1, wf_set h0.2.2.1, h0.2.2.2⟩

theorem keep_State_setFld {k : Watch} {s0 a1 a2 a3 a4} (h0 : Kept k s0) : Kept k (State.setFld s0 a1 a2 a3 a4) := by
  unfold State.setFld
  repeat' first | with_reducible assumption | with_reducible apply keep_State_setReg

theorem keep_State_setBitAt {k : Watch} {s0 a1 a2 a3} (h0 : Kept k s0) : Kept k (State.setBitAt s0 a1 a2 a3) := by
  unfold State.setBitAt
  repeat' first | with_reducible assumption | with_reducible apply keep_State_setReg

theorem keep_State_setPair {k : Watch} {s0 a1 a2} (h0 : Kept k s0) : Kept k (State.setPair s0 a1 a2) := by
  unfold State.setPair
  repeat' first | with_reducible assumption | with_reducible apply keep_State_setReg

theorem keep_State_bumpBy {k : Watch} {s0 a1 a2} (h0 : Kept k s0) : Kept k (State.bumpBy s0 a1 a2) := by
  unfold State.bumpBy
  repeat' first | with_reducible assumption | with_reducible apply keep_State_setPair

theorem keep_State_bump {k : Watch} {s0 a1} (h0 : Kept k s0) : Kept k (State.bump s0 a1) := by
  unfold State.bump
  repeat' first | with_reducible assumption | with_reducible apply keep_State_bumpBy

theorem keep_State_emit {k : Watch} {s0 a1} (h0 : Kept k s0) : Kept k (State.emit s0 a1) := by
  unfold State.emit
  repeat' first
    | with_reducible assumption
    | simp only [kept_mk, keptF_fold]

theorem keep_State_tick1 {k : Watch} {s0} (h0 : Kept k s0) : Kept k (State.tick1 s0) := by
  unfold State.tick1
  repeat' first
    | with_reducible assumption
    | simp only [kept_mk, keptF_fold]

theorem keep_State_setMsix {k : Watch} {s0 a1 a2} (h0 : Kept k s0) : Kept k (State.setMsix s0 a1 a2) := by
  unfold State.setMsix
  repeat' first
    | with_reducible assumption
    | simp only [kept_mk, keptF_fold]
    | split

theorem keep_State_sendVec {k : Watch} {s0 a1 a2} (h0 : Kept k s0) : Kept k (State.sendVec s0 a1 a2) := by
  unfold State.sendVec
  repeat' first
    | with_reducible assumption
    | with_reducible first | apply keep_State_setMsix | apply keep_State_emit
    | simp only [kept_mk, keptF_fold]
    | split

theorem keep_State_pageMsg {k : Watch} {s0 a1} (h0 : Kept k s0) : Kept k (State.pageMsg s0 a1) := by
  unfold State.pageMsg
  repeat' first
    | with_reducible assumption
    | with_reducible first | apply keep_State_sendVec | apply keep_foldl
    | intro _
    | simp only [kept_mk, keptF_fold]
    | split

theorem keep_State_noteRaised {k : Watch} {s0 a1 a2} (h0 : Kept k s0) : Kept k (State.noteRaised s0 a1 a2) := by
  unfold State.noteRaised
  repeat' first
    | with_reducible assumption
    | simp only [kept_mk, keptF_fold]

theorem keep_State_raiseMask {k : Watch} {s0 a1 a2} (h0 : Kept k s0) : Kept k (State.raiseMask s0 a1 a2) := by
  unfold State.raiseMask
  repeat' first
    | with_reducible assumption
    | with_reducible first | apply keep_State_setReg | apply keep_State_noteRaised | apply keep_State_pageMsg
    | simp only [kept_mk, keptF_fold]
    | split

theorem keep_State_raise {k : Watch} {s0 a1 a2} (h0 : Kept k s0) : Kept k (State.raise s0 a1 a2) := by
  unfold State.raise
  repeat' first | with_reducible assumption | with_reducible apply keep_State_raiseMask

theorem keep_State_setDom {k : Watch} {s0 a1 a2} (h0 : Kept k s0) : Kept k (State.setDom s0 a1 a2) := by
  unfold State.setDom
  repeat' first
    | with_reducible assumption
    | simp only [kept_mk, keptF_fold]

theorem keep_State_silt_ {k : Watch} {s0 a1 a2 a3 a4 a5 a6} (h0 : Kept k s0) : Kept k (State.silt_ s0 a1 a2 a3 a4 a5 a6) := by
  unfold State.silt_
  repeat' first
    | with_reducible assumption
    | with_reducible first | apply keep_State_setReg | apply keep_State_raise | apply keep_State_bump
    | simp only [kept_mk, keptF_fold]
    | split

theorem keep_State_siltRefused {k : Watch} {s0} (h0 : Kept k s0) : Kept k (State.siltRefused s0) := by
  unfold State.siltRefused
  repeat' first | with_reducible assumption | with_reducible apply keep_State_raise | with_reducible apply keep_State_bump

theorem keep_State_refuse {k : Watch} {s0 a1 a2 a3 a4} (h0 : Kept k s0) : Kept k (State.refuse s0 a1 a2 a3 a4) := by
  unfold State.refuse
  repeat' first | with_reducible assumption | with_reducible apply keep_State_siltRefused | with_reducible apply keep_State_setReg | with_reducible apply keep_State_raise | split

theorem keep_State_report {k : Watch} {s0 a1 a2 a3 a4} (h0 : Kept k s0) : Kept k (State.report s0 a1 a2 a3 a4) := by
  unfold State.report
  repeat' first
    | with_reducible assumption
    | simp only [kept_mk, keptF_fold]

/-! ### PhaseOps -/

theorem keep_pbEnter {k : Watch} {s0 a1} (h0 : Kept k s0) : Kept k (pbEnter s0 a1) := by
  unfold pbEnter
  repeat' first
    | with_reducible assumption
    | with_reducible first | apply keep_State_report
    | simp only [kept_mk, keptF_fold]
    | split

theorem keep_pbLoss {k : Watch} {s0} (h0 : Kept k s0) : Kept k (pbLoss s0) := by
  unfold pbLoss
  repeat' first | with_reducible assumption | with_reducible apply keep_State_bump | with_reducible apply keep_State_raise | with_reducible apply keep_pbEnter | split

theorem keep_pbDomainLost {k : Watch} {s0 a1} (h0 : Kept k s0) : Kept k (pbDomainLost s0 a1) := by
  unfold pbDomainLost
  repeat' first | with_reducible assumption | with_reducible apply keep_pbLoss | split

theorem keep_pbLockCount {k : Watch} {s0 a1} (h0 : Kept k s0) : Kept k (pbLockCount s0 a1) := by
  unfold pbLockCount
  repeat' first
    | with_reducible assumption
    | with_reducible first | apply keep_State_raise | apply keep_pbEnter
    | simp only [kept_mk, keptF_fold]
    | split

theorem keep_pbRefEvent {k : Watch} {s0 a1 a2 a3 a4} (h0 : Kept k s0) : Kept k (pbRefEvent s0 a1 a2 a3 a4) := by
  unfold pbRefEvent
  have h : Kept k (s0.setReg (aPb 0x06C) (w32 (unsigned 32 (satSigned 32 (posDiff a2.toNat (accAt s0 a1 / 2 ^ 24)))))) := keep_State_setReg h0
  exact keep_pbLockCount (show KeptF k _ _ _ _ from ⟨h.1, h.2.1, h.2.2.1, h.2.2.2⟩)

theorem keep_pbInitialLoad {k : Watch} {s0 a1 a2} (h0 : Kept k s0) : Kept k (pbInitialLoad s0 a1 a2) := by
  unfold pbInitialLoad
  exact keep_pbEnter (kept_pb h0)

/-! ### RegOps -/

theorem keep_State_setLatch {k : Watch} {s0 a1 a2 a3} (h0 : Kept k s0) : Kept k (State.setLatch s0 a1 a2 a3) := by
  unfold State.setLatch
  repeat' first
    | with_reducible assumption
    | simp only [kept_mk, keptF_fold]

theorem keep_State_setHeld {k : Watch} {s0 a1 a2 a3} (h0 : Kept k s0) : Kept k (State.setHeld s0 a1 a2 a3) := by
  unfold State.setHeld
  repeat' first
    | with_reducible assumption
    | simp only [kept_mk, keptF_fold]

theorem keep_State_setRing {k : Watch} {s0 a1 a2} (h0 : Kept k s0) : Kept k (State.setRing s0 a1 a2) := by
  unfold State.setRing
  repeat' first
    | with_reducible assumption
    | simp only [kept_mk, keptF_fold]

theorem keep_ringTake {k : Watch} {s0 a1 a2} (h0 : Kept k s0) : Kept k (ringTake s0 a1 a2) := by
  unfold ringTake
  repeat' first | with_reducible assumption | with_reducible apply keep_State_setFld

theorem keep_ringCounted {k : Watch} {s0 a1 a2} (h0 : Kept k s0) : Kept k (ringCounted s0 a1 a2) := by
  unfold ringCounted
  repeat' first | with_reducible assumption | with_reducible apply keep_State_setRing

theorem keep_ringComplete {k : Watch} {s0 a1 a2 a3} (h0 : Kept k s0) : Kept k (ringComplete s0 a1 a2 a3) := by
  unfold ringComplete
  repeat' first | with_reducible assumption | with_reducible apply keep_State_emit | with_reducible apply keep_ringCounted

theorem keep_logReg {k : Watch} {s0 a1 a2 a3 a4 a5} (h0 : Kept k s0) : Kept k (logReg s0 a1 a2 a3 a4 a5) := by
  unfold logReg
  repeat' first | with_reducible assumption | with_reducible apply keep_State_silt_ | split

theorem keep_State_putShadow {k : Watch} {s0 a1} (h0 : Kept k s0) : Kept k (State.putShadow s0 a1) := by
  unfold State.putShadow
  repeat' first
    | with_reducible assumption
    | simp only [kept_mk, keptF_fold]

theorem keep_returnShadows {k : Watch} {s0 a1} (h0 : Kept k s0) : Kept k (returnShadows s0 a1) := by
  unfold returnShadows
  repeat' first
    | with_reducible assumption
    | simp only [kept_mk, keptF_fold]

/-! ### WriteCheck -/

theorem keep_State_write {k : Watch} {s0 a1 a2 a3 s4} (h0 : Kept k s0) (h4 : Kept k s4) : Kept k (State.write s0 a1 a2 a3 s4) := by
  unfold State.write
  repeat' first | with_reducible assumption | with_reducible apply keep_State_refuse | split

/-! ### MemOps -/

theorem keep_memErr {k : Watch} {s0 a1 a2 a3} (h0 : Kept k s0) : Kept k (memErr s0 a1 a2 a3) := by
  unfold memErr
  repeat' first | with_reducible assumption | with_reducible apply keep_State_setReg

theorem keep_memReplay {k : Watch} {s0 a1 a2} (h0 : Kept k s0) : Kept k (memReplay s0 a1 a2) := by
  unfold memReplay
  repeat' first | with_reducible assumption | with_reducible apply keep_State_report | with_reducible apply keep_State_raise | with_reducible apply keep_State_bump | with_reducible apply keep_memErr

theorem keep_memRead {k : Watch} {s0 a1 a2 a3} (h0 : Kept k s0) : Kept k (memRead s0 a1 a2 a3).1 := by
  unfold memRead
  repeat' first
    | with_reducible assumption
    | with_reducible first | apply keep_State_tick1 | apply keep_memErr | apply keep_memReplay
    | simp only [kept_mk, keptF_fold]
    | split

theorem keep_memRepeated {k : Watch} {s0 a1 a2} (h0 : Kept k s0) : Kept k (memRepeated s0 a1 a2) := by
  unfold memRepeated
  repeat' first | with_reducible assumption | with_reducible apply keep_State_raise | with_reducible apply keep_State_bump

theorem keep_memLost {k : Watch} {s0 a1 a2} (h0 : Kept k s0) : Kept k (memLost s0 a1 a2) := by
  unfold memLost
  repeat' first | with_reducible assumption | with_reducible apply keep_State_report | with_reducible apply keep_memRepeated

/-! ### KeyOps -/

theorem keep_State_setKeySlot {k : Watch} {s0 a1 a2} (h0 : Kept k s0) : Kept k (State.setKeySlot s0 a1 a2) := by
  unfold State.setKeySlot
  repeat' first
    | with_reducible assumption
    | simp only [kept_mk, keptF_fold]

theorem keep_otpProgram {k : Watch} {s0 a1 a2} (h0 : Kept k s0) : Kept k (otpProgram s0 a1 a2) :=
  ⟨h0.1, fun h => otp_programmed (h0.2.1 h), h0.2.2.1, h0.2.2.2⟩

theorem keep_authGenChange {k : Watch} {s0 a1} (h0 : Kept k s0) : Kept k (authGenChange s0 a1) := by
  unfold authGenChange
  repeat' first
    | with_reducible assumption
    | with_reducible first | apply keep_foldl
    | intro _
    | simp only [kept_mk, keptF_fold]
    | split

theorem keep_changeSlot {k : Watch} {s0 a1 a2} (h0 : Kept k s0) : Kept k (changeSlot s0 a1 a2) := by
  unfold changeSlot
  repeat' first | with_reducible assumption | with_reducible apply keep_authGenChange | with_reducible apply keep_State_setKeySlot

theorem keep_eraseBlob {k : Watch} {s0 a1} (h0 : Kept k s0) : Kept k (eraseBlob s0 a1) := by
  unfold eraseBlob
  repeat' first
    | with_reducible assumption
    | simp only [kept_mk, keptF_fold]

theorem keep_writeBlob {k : Watch} {s0 a1} (h0 : Kept k s0) : Kept k (writeBlob s0 a1) := by
  unfold writeBlob
  repeat' first
    | with_reducible assumption
    | simp only [kept_mk, keptF_fold]
    | split

theorem keep_siltKey {k : Watch} {s0 a1 a2 a3 a4 a5} (h0 : Kept k s0) : Kept k (siltKey s0 a1 a2 a3 a4 a5) := by
  unfold siltKey
  repeat' first | with_reducible assumption | with_reducible apply keep_State_silt_

theorem keep_spoilRequests {k : Watch} {s0 a1} (h0 : Kept k s0) : Kept k (spoilRequests s0 a1) := by
  unfold spoilRequests
  repeat' first
    | with_reducible assumption
    | simp only [kept_mk, keptF_fold]

theorem keep_slotParity {k : Watch} {s0 a1 a2} (h0 : Kept k s0) : Kept k (slotParity s0 a1 a2) := by
  unfold slotParity
  repeat' first | with_reducible assumption | with_reducible apply keep_eraseBlob | with_reducible apply keep_changeSlot | with_reducible apply keep_spoilRequests | with_reducible apply keep_memRepeated | with_reducible apply keep_State_report | with_reducible apply keep_State_bump | with_reducible apply keep_State_raise | with_reducible apply keep_siltKey

theorem keep_readSlot {k : Watch} {s0 a1} (h0 : Kept k s0) : Kept k (readSlot s0 a1).1 := by
  unfold readSlot
  repeat' first
    | with_reducible assumption
    | with_reducible first | apply keep_memRead | apply keep_slotParity
    | split
    | with_reducible refine kept_fst (by assumption) ?_

/-! ### MsecOps -/

theorem keep_State_setSaRun {k : Watch} {s0 a1 a2 a3} (h0 : Kept k s0) : Kept k (State.setSaRun s0 a1 a2 a3) := by
  unfold State.setSaRun
  repeat' first
    | with_reducible assumption
    | simp only [kept_mk, keptF_fold]

theorem keep_setSaPn {k : Watch} {s0 a1 a2 a3} (h0 : Kept k s0) : Kept k (setSaPn s0 a1 a2 a3) := by
  unfold setSaPn
  repeat' first | with_reducible assumption | with_reducible apply keep_State_setPair

theorem keep_State_setKat {k : Watch} {s0 a1 a2} (h0 : Kept k s0) : Kept k (State.setKat s0 a1 a2) := by
  unfold State.setKat
  repeat' first
    | with_reducible assumption
    | simp only [kept_mk, keptF_fold]

theorem keep_markSpare {k : Watch} {s0 a1} (h0 : Kept k s0) : Kept k (markSpare s0 a1) := by
  unfold markSpare
  repeat' first | with_reducible assumption | with_reducible apply keep_State_setBitAt

theorem keep_slotEmpty {k : Watch} {s0 a1 a2 a3} (h0 : Kept k s0) : Kept k (slotEmpty s0 a1 a2 a3) := by
  unfold slotEmpty
  repeat' first | with_reducible assumption | with_reducible apply keep_State_setFld | with_reducible apply keep_State_report | with_reducible apply keep_State_raise | with_reducible apply keep_State_setBitAt

theorem keep_retirePipe {k : Watch} {s0 a1 a2} (h0 : Kept k s0) : Kept k (retirePipe s0 a1 a2) := by
  unfold retirePipe
  repeat' first | with_reducible assumption | with_reducible apply keep_State_setBitAt | with_reducible apply keep_markSpare | with_reducible apply keep_State_setKat | with_reducible apply keep_State_setFld | with_reducible apply keep_slotEmpty | split

theorem keep_pipeRetry {k : Watch} {s0} (h0 : Kept k s0) : Kept k (pipeRetry s0) := by
  unfold pipeRetry
  repeat' first | with_reducible assumption | with_reducible apply keep_State_bump

theorem keep_pipeFail {k : Watch} {s0 a1 a2} (h0 : Kept k s0) : Kept k (pipeFail s0 a1 a2) := by
  unfold pipeFail
  repeat' first | with_reducible assumption | with_reducible apply keep_retirePipe | with_reducible apply keep_State_report | with_reducible apply keep_State_raise | with_reducible apply keep_State_bump

theorem keep_raiseRsv {k : Watch} {s0 a1 a2} (h0 : Kept k s0) : Kept k (raiseRsv s0 a1 a2) := by
  unfold raiseRsv
  repeat' first
    | with_reducible assumption
    | with_reducible first | apply keep_State_setPair | apply keep_State_setSaRun
    | simp only [kept_mk, keptF_fold]
    | split

theorem keep_exhaustTx {k : Watch} {s0 a1 a2} (h0 : Kept k s0) : Kept k (exhaustTx s0 a1 a2) := by
  unfold exhaustTx
  repeat' first
    | with_reducible assumption
    | with_reducible first | apply keep_State_raise | apply keep_State_setBitAt | apply keep_State_setSaRun
    | simp only [kept_mk, keptF_fold]
    | split

theorem keep_pnWarn {k : Watch} {s0 a1 a2 a3} (h0 : Kept k s0) : Kept k (pnWarn s0 a1 a2 a3) := by
  unfold pnWarn
  repeat' first
    | with_reducible assumption
    | with_reducible first | apply keep_State_raise | apply keep_State_setSaRun | apply keep_exhaustTx
    | simp only [kept_mk, keptF_fold]
    | split

theorem keep_revokedOnce {k : Watch} {s0 a1 a2} (h0 : Kept k s0) : Kept k (revokedOnce s0 a1 a2) := by
  unfold revokedOnce
  repeat' first
    | with_reducible assumption
    | with_reducible first | apply keep_State_raise | apply keep_State_setSaRun
    | simp only [kept_mk, keptF_fold]
    | split

theorem keep_mscTransmit {k : Watch} {s0 a1 a2 a3} (h0 : Kept k s0) : Kept k (mscTransmit s0 a1 a2 a3).1 := by
  unfold mscTransmit
  repeat' first
    | with_reducible assumption
    | with_reducible first | apply keep_State_bump | apply keep_readSlot | apply keep_raiseRsv | apply keep_exhaustTx | apply keep_revokedOnce | apply keep_setSaPn | apply keep_pnWarn | apply keep_pipeRetry | apply keep_pipeFail | apply keep_ite1
    | intro _
    | split

theorem keep_rxVerdict {k : Watch} {s0 a1 a2 a3 a4} (h0 : Kept k s0) : Kept k (rxVerdict s0 a1 a2 a3 a4) := by
  unfold rxVerdict
  repeat' first | with_reducible assumption | with_reducible apply keep_State_raise | with_reducible apply keep_State_bump | with_reducible apply keep_setSaPn | split

theorem keep_mscProtected {k : Watch} {s0 a1 a2 a3} (h0 : Kept k s0) : Kept k (mscProtected s0 a1 a2 a3).1 := by
  unfold mscProtected
  repeat' first
    | with_reducible assumption
    | with_reducible first | apply keep_State_bump | apply keep_readSlot | apply keep_revokedOnce | apply keep_rxVerdict | apply keep_State_setSaRun | apply keep_pipeRetry | apply keep_pipeFail
    | simp only [kept_mk, keptF_fold]
    | split

theorem keep_mscReceive {k : Watch} {s0 a1 a2 a3} (h0 : Kept k s0) : Kept k (mscReceive s0 a1 a2 a3).1 := by
  unfold mscReceive
  repeat' first | with_reducible assumption | with_reducible apply keep_State_bump | with_reducible apply keep_mscProtected | split

/-! ### FabricOps -/

theorem keep_State_setMac {k : Watch} {s0 a1 a2} (h0 : Kept k s0) : Kept k (State.setMac s0 a1 a2) := by
  unfold State.setMac
  repeat' first
    | with_reducible assumption
    | simp only [kept_mk, keptF_fold]

theorem keep_State_setEgs {k : Watch} {s0 a1 a2} (h0 : Kept k s0) : Kept k (State.setEgs s0 a1 a2) := by
  unfold State.setEgs
  repeat' first
    | with_reducible assumption
    | simp only [kept_mk, keptF_fold]

theorem keep_State_setFrame {k : Watch} {s0 a1 a2} (h0 : Kept k s0) : Kept k (State.setFrame s0 a1 a2) := by
  unfold State.setFrame
  repeat' first
    | with_reducible assumption
    | simp only [kept_mk, keptF_fold]

theorem keep_noteReplay {k : Watch} {s0 s1 a2} (h0 : Kept k s0) (h1 : Kept k s1) : Kept k (noteReplay s0 s1 a2) := by
  unfold noteReplay
  repeat' first | with_reducible assumption | with_reducible apply keep_State_setFrame | with_reducible apply keep_State_tick1 | with_reducible apply keep_State_bump | split

theorem keep_pipeDelay {k : Watch} {s0 a1} (h0 : Kept k s0) : Kept k (pipeDelay s0 a1) := by
  unfold pipeDelay
  repeat' first | with_reducible assumption | with_reducible apply keep_State_setFrame | with_reducible apply keep_State_tick1 | with_reducible apply keep_State_bump | split

theorem keep_State_setQueue {k : Watch} {s0 a1 a2 a3} (h0 : Kept k s0) : Kept k (State.setQueue s0 a1 a2 a3) := by
  unfold State.setQueue
  repeat' first
    | with_reducible assumption
    | simp only [kept_mk, keptF_fold]

theorem keep_State_setCopy {k : Watch} {s0 a1 a2 a3 a4} (h0 : Kept k s0) : Kept k (State.setCopy s0 a1 a2 a3 a4) := by
  unfold State.setCopy
  repeat' first | with_reducible assumption | with_reducible apply keep_State_setQueue

theorem keep_retireFrame {k : Watch} {s0 a1} (h0 : Kept k s0) : Kept k (retireFrame s0 a1) := by
  unfold retireFrame
  repeat' first
    | with_reducible assumption
    | with_reducible first | apply keep_State_setFrame
    | simp only [kept_mk, keptF_fold]
    | split

theorem keep_setCredit {k : Watch} {s0 a1 a2 a3 a4} (h0 : Kept k s0) : Kept k (setCredit s0 a1 a2 a3 a4) := by
  unfold setCredit
  repeat' first | with_reducible assumption | with_reducible apply keep_State_setEgs

theorem keep_settleCredit {k : Watch} {s0 a1 a2} (h0 : Kept k s0) : Kept k (settleCredit s0 a1 a2) := by
  unfold settleCredit
  repeat' first | with_reducible assumption | with_reducible apply keep_setCredit | split

theorem keep_setDeficit {k : Watch} {s0 a1 a2 a3} (h0 : Kept k s0) : Kept k (setDeficit s0 a1 a2 a3) := by
  unfold setDeficit
  repeat' first | with_reducible assumption | with_reducible apply keep_State_setEgs

theorem keep_unselect {k : Watch} {s0 a1 a2 a3} (h0 : Kept k s0) : Kept k (unselect s0 a1 a2 a3) := by
  unfold unselect
  repeat' first | with_reducible assumption | with_reducible apply keep_setDeficit | with_reducible apply keep_State_setEgs | with_reducible apply keep_State_setCopy | split

theorem keep_emptied {k : Watch} {s0 a1 a2} (h0 : Kept k s0) : Kept k (emptied s0 a1 a2) := by
  unfold emptied
  repeat' first | with_reducible assumption | with_reducible apply keep_setDeficit | split

theorem keep_removeCopy {k : Watch} {s0 a1 a2 a3} (h0 : Kept k s0) : Kept k (removeCopy s0 a1 a2 a3) := by
  unfold removeCopy
  repeat' first | with_reducible assumption | with_reducible apply keep_unselect | with_reducible apply keep_settleCredit | with_reducible apply keep_emptied | with_reducible apply keep_State_setQueue | with_reducible apply keep_retireFrame | simp only [kept_mk, keptF_fold]

theorem keep_refuseCopy {k : Watch} {s0 a1 a2} (h0 : Kept k s0) : Kept k (refuseCopy s0 a1 a2) := by
  unfold refuseCopy
  repeat' first | with_reducible assumption | with_reducible apply keep_State_bump

theorem keep_decideCopy {k : Watch} {s0 a1 a2 a3} (h0 : Kept k s0) : Kept k (decideCopy s0 a1 a2 a3).1 := by
  unfold decideCopy
  repeat' first
    | with_reducible assumption
    | with_reducible first | apply keep_State_bump | apply keep_refuseCopy | apply keep_settleCredit | apply keep_State_setQueue
    | simp only [kept_mk, keptF_fold]
    | split

theorem keep_decideCopies {k : Watch} {s0 a1 a2 a3} (h0 : Kept k s0) : Kept k (decideCopies s0 a1 a2 a3).1 := by
  induction a3 generalizing s0 with
  | nil => exact h0
  | cons p ps ih =>
    unfold decideCopies
    exact ih (keep_decideCopy h0)

theorem keep_admitFrame {k : Watch} {s0 a1} (h0 : Kept k s0) : Kept k (admitFrame s0 a1) := by
  unfold admitFrame
  repeat' first
    | with_reducible assumption
    | with_reducible first | apply keep_decideCopies | apply keep_State_bump | apply keep_State_setFrame
    | simp only [kept_mk, keptF_fold]
    | split

theorem keep_checkPool {k : Watch} {s0} (h0 : Kept k s0) : Kept k (checkPool s0) := by
  unfold checkPool
  repeat' first | with_reducible assumption | with_reducible apply keep_State_raise | split

/-! ### Fabric -/

theorem keep_cellReady {k : Watch} {s0 a1} (h0 : Kept k s0) : Kept k (cellReady s0 a1) := by
  unfold cellReady
  repeat' first
    | with_reducible assumption
    | with_reducible first | apply keep_State_setFrame
    | simp only [kept_mk, keptF_fold]
    | split

theorem keep_halfReadyEvent {k : Watch} {s0 a1} (h0 : Kept k s0) : Kept k (halfReadyEvent s0 a1) := by
  unfold halfReadyEvent
  repeat' first
    | with_reducible assumption
    | with_reducible first | apply keep_cellReady | apply keep_admitFrame
    | simp only [kept_mk, keptF_fold]
    | split

theorem keep_execHalfReady {k : Watch} {a0 s1} (h1 : Kept k s1) : KeptR k (execHalfReady a0 s1) := by
  unfold execHalfReady
  repeat' first | with_reducible assumption | with_reducible apply keep_halfReadyEvent | with_reducible apply keptR_next

theorem keep_execLoneWaitExpire {k : Watch} {a0 s1} (h1 : Kept k s1) : KeptR k (execLoneWaitExpire a0 s1) := by
  unfold execLoneWaitExpire
  repeat' first | with_reducible assumption | with_reducible apply keep_ifWf | simp only [kept_mk, keptF_fold]

theorem keep_storeHalf {k : Watch} {s0 a1 a2 a3} (h0 : Kept k s0) : Kept k (storeHalf s0 a1 a2 a3) := by
  unfold storeHalf
  repeat' first
    | with_reducible assumption
    | with_reducible first | apply keep_State_bump | apply keep_State_setFld
    | simp only [kept_mk, keptF_fold]
    | split

theorem keep_linkWrite {k : Watch} {s0 a1} (h0 : Kept k s0) : Kept k (linkWrite s0 a1) := by
  unfold linkWrite
  repeat' first
    | with_reducible assumption
    | with_reducible first | apply keep_storeHalf | apply keep_State_bump | apply keep_checkPool
    | simp only [kept_mk, keptF_fold]
    | split

theorem keep_execInputLinkWrite {k : Watch} {a0 s1} (h1 : Kept k s1) : KeptR k (execInputLinkWrite a0 s1) := by
  unfold execInputLinkWrite
  repeat' first | with_reducible assumption | with_reducible apply keep_ifWf | with_reducible apply keep_whenever | with_reducible apply keep_linkWrite

theorem keep_copyOpens {k : Watch} {s0 a1 a2} (h0 : Kept k s0) : Kept k (copyOpens s0 a1 a2) := by
  unfold copyOpens
  repeat' first
    | with_reducible assumption
    | with_reducible first | apply keep_State_setCopy
    | simp only [kept_mk, keptF_fold]
    | split

theorem keep_execCopyOpen {k : Watch} {a0 a1 s2} (h2 : Kept k s2) : KeptR k (execCopyOpen a0 a1 s2) := by
  unfold execCopyOpen
  repeat' first | with_reducible assumption | with_reducible apply keep_ifWf | with_reducible apply keep_copyOpens

theorem keep_countLate {k : Watch} {s0 a1 a2 a3 a4 a5} (h0 : Kept k s0) : Kept k (countLate s0 a1 a2 a3 a4 a5) := by
  unfold countLate
  repeat' first
    | with_reducible assumption
    | with_reducible first | apply keep_State_bump | apply keep_State_setReg | apply keep_State_setFld | apply keep_State_raise
    | simp only [kept_mk, keptF_fold]
    | split

theorem keep_retireHalf {k : Watch} {s0 a1} (h0 : Kept k s0) : Kept k (retireHalf s0 a1) := by
  unfold retireHalf
  repeat' first
    | with_reducible assumption
    | with_reducible first | apply keep_State_setFld | apply keep_State_report | apply keep_State_raise
    | simp only [kept_mk, keptF_fold]
    | split

theorem keep_settleRetiring {k : Watch} {s0} (h0 : Kept k s0) : Kept k (settleRetiring s0) := by
  unfold settleRetiring
  repeat' first
    | with_reducible assumption
    | with_reducible first | apply keep_retireHalf | apply keep_foldl
    | intro _
    | simp only [kept_mk, keptF_fold]

theorem keep_stompTx {k : Watch} {s0 a1 a2 a3} (h0 : Kept k s0) : Kept k (stompTx s0 a1 a2 a3) := by
  unfold stompTx
  repeat' first | with_reducible assumption | with_reducible apply keep_State_setEgs | with_reducible apply keep_State_emit | with_reducible apply keep_State_setFrame | with_reducible apply keep_State_bump | with_reducible apply keep_removeCopy | split

theorem keep_parityDrop {k : Watch} {s0 a1 a2 a3 a4 a5 a6} (h0 : Kept k s0) : Kept k (parityDrop s0 a1 a2 a3 a4 a5 a6) := by
  unfold parityDrop
  repeat' first
    | with_reducible assumption
    | with_reducible first | apply keep_State_raise | apply keep_State_bump | apply keep_memRepeated | apply keep_State_report | apply keep_stompTx | apply keep_State_setEgs | apply keep_removeCopy
    | simp only [kept_mk, keptF_fold]
    | split

theorem keep_carryHalf {k : Watch} {s0 a1 a2 a3 a4} (h0 : Kept k s0) : Kept k (carryHalf s0 a1 a2 a3 a4) := by
  unfold carryHalf
  repeat' first | with_reducible assumption | with_reducible apply keep_State_setCopy | simp only [kept_mk, keptF_fold]

theorem keep_readHalf {k : Watch} {s0 a1 a2} (h0 : Kept k s0) : Kept k (readHalf s0 a1 a2) := by
  unfold readHalf
  repeat' first
    | with_reducible assumption
    | with_reducible first | apply keep_memRead | apply keep_parityDrop | apply keep_settleRetiring | apply keep_carryHalf | apply keep_countLate
    | simp only [kept_mk, keptF_fold]
    | split
    | with_reducible refine kept_fst (by assumption) ?_

theorem keep_groupRead {k : Watch} {s0 a1} (h0 : Kept k s0) : Kept k (groupRead s0 a1) := by
  unfold groupRead
  repeat' first
    | with_reducible assumption
    | with_reducible first | apply keep_readHalf
    | simp only [kept_mk, keptF_fold]
    | split

theorem keep_execHalfRead {k : Watch} {a0 s1} (h1 : Kept k s1) : KeptR k (execHalfRead a0 s1) := by
  unfold execHalfRead
  repeat' first | with_reducible assumption | with_reducible apply keep_ifWf | with_reducible apply keep_whenever | with_reducible apply keep_groupRead

theorem keep_releaseOne {k : Watch} {a0 a1 a2 s3} (h3 : Kept k s3) : Kept k (releaseOne a0 a1 a2 s3) := by
  unfold releaseOne
  repeat' first | with_reducible assumption | with_reducible apply keep_State_bump | with_reducible apply keep_State_setCopy | split

theorem keep_dropErrCopy {k : Watch} {a0 a1 a2 s3} (h3 : Kept k s3) : Kept k (dropErrCopy a0 a1 a2 s3) := by
  unfold dropErrCopy
  repeat' first | with_reducible assumption | with_reducible apply keep_removeCopy | split

theorem keep_releaseCopy {k : Watch} {a0 a1 a2 s3} (h3 : Kept k s3) : Kept k (releaseCopy a0 a1 a2 s3) := by
  unfold releaseCopy
  repeat' first | with_reducible assumption | with_reducible apply keep_dropErrCopy | with_reducible apply keep_releaseOne | with_reducible apply keep_foldl | intro _

theorem keep_releaseQueue {k : Watch} {s0 a1 a2} (h0 : Kept k s0) : Kept k (releaseQueue s0 a1 a2) := by
  unfold releaseQueue
  repeat' first | with_reducible assumption | with_reducible apply keep_releaseCopy | with_reducible apply keep_foldl | intro _

theorem keep_execHalfRelease {k : Watch} {a0 a1 s2} (h2 : Kept k s2) : KeptR k (execHalfRelease a0 a1 s2) := by
  unfold execHalfRelease
  repeat' first | with_reducible assumption | with_reducible apply keep_ifWf | with_reducible apply keep_releaseQueue

theorem keep_execTxUnderrun {k : Watch} {a0 s1} (h1 : Kept k s1) : KeptR k (execTxUnderrun a0 s1) := by
  unfold execTxUnderrun
  repeat' first | with_reducible assumption | with_reducible apply keep_ifWf | with_reducible apply keep_State_raise | with_reducible apply keep_State_bump | with_reducible apply keep_stompTx | split

theorem keep_startFlush {k : Watch} {s0 a1} (h0 : Kept k s0) : Kept k (startFlush s0 a1) := by
  unfold startFlush
  repeat' first
    | with_reducible assumption
    | with_reducible first | apply keep_unselect | apply keep_State_setEgs | apply keep_foldl
    | intro _
    | simp only [kept_mk, keptF_fold]

theorem keep_flushNext {k : Watch} {s0 a1} (h0 : Kept k s0) : Kept k (flushNext s0 a1) := by
  unfold flushNext
  repeat' first
    | with_reducible assumption
    | with_reducible first | apply keep_State_bump | apply keep_removeCopy
    | simp only [kept_mk, keptF_fold]
    | split

theorem keep_endFlush {k : Watch} {s0 a1} (h0 : Kept k s0) : Kept k (endFlush s0 a1) := by
  unfold endFlush
  repeat' first | with_reducible assumption | with_reducible apply keep_State_raise | simp only [kept_mk, keptF_fold]

theorem keep_flushStep {k : Watch} {s0 a1} (h0 : Kept k s0) : Kept k (flushStep s0 a1) := by
  unfold flushStep
  repeat' first | with_reducible assumption | with_reducible apply keep_flushNext | with_reducible apply keep_endFlush | split

theorem keep_execFlushDone {k : Watch} {a0 s1} (h1 : Kept k s1) : KeptR k (execFlushDone a0 s1) := by
  unfold execFlushDone
  repeat' first | with_reducible assumption | with_reducible apply keep_ifWf | with_reducible apply keep_whenever | with_reducible apply keep_endFlush

/-! ### PhaseInputs -/

theorem keep_State_bump32 {k : Watch} {s0 a1} (h0 : Kept k s0) : Kept k (State.bump32 s0 a1) := by
  unfold State.bump32
  repeat' first | with_reducible assumption | with_reducible apply keep_State_setReg

theorem keep_nettimeEvent {k : Watch} {s0} (h0 : Kept k s0) : Kept k (nettimeEvent s0) := by
  unfold nettimeEvent
  repeat' first | with_reducible assumption | with_reducible apply keep_pbLoss | with_reducible apply keep_pbInitialLoad | with_reducible apply keep_pbRefEvent | split

theorem keep_execNettimeRefEvent {k : Watch} {s0} (h0 : Kept k s0) : KeptR k (execNettimeRefEvent s0) := by
  unfold execNettimeRefEvent
  repeat' first | with_reducible assumption | with_reducible apply keep_nettimeEvent | with_reducible apply keptR_next

theorem keep_countSynth {k : Watch} {s0} (h0 : Kept k s0) : Kept k (countSynth s0) := by
  unfold countSynth
  repeat' first | with_reducible assumption | with_reducible apply keep_State_bump

theorem keep_tickMarks {k : Watch} {s0 a1 a2} (h0 : Kept k s0) : Kept k (tickMarks s0 a1 a2) := by
  unfold tickMarks
  repeat' first
    | with_reducible assumption
    | with_reducible first | apply keep_countSynth
    | simp only [kept_mk, keptF_fold]
    | split

theorem keep_joinMarks {k : Watch} {s0 a1} (h0 : Kept k s0) : Kept k (joinMarks s0 a1) := by
  unfold joinMarks
  repeat' first
    | with_reducible assumption
    | simp only [kept_mk, keptF_fold]
    | split

theorem keep_tickTracks {k : Watch} {s0 a1 a2} (h0 : Kept k s0) : Kept k (tickTracks s0 a1 a2) := by
  unfold tickTracks
  repeat' first | with_reducible assumption | with_reducible apply keep_pbInitialLoad | with_reducible apply keep_joinMarks | with_reducible apply keep_tickMarks | with_reducible apply keep_pbRefEvent | split

theorem keep_tickAccept {k : Watch} {s0 a1} (h0 : Kept k s0) : Kept k (tickAccept s0 a1) := by
  unfold tickAccept
  repeat' first | with_reducible assumption | with_reducible apply keep_State_setReg | with_reducible apply keep_tickTracks | simp only [kept_mk, keptF_fold]

theorem keep_execTickAccepted {k : Watch} {a0 s1} (h1 : Kept k s1) : KeptR k (execTickAccepted a0 s1) := by
  unfold execTickAccepted
  repeat' first | with_reducible assumption | with_reducible apply keep_ifWf | with_reducible apply keep_tickAccept

theorem keep_execTickRunt {k : Watch} {a0 s1} (h1 : Kept k s1) : KeptR k (execTickRunt a0 s1) := by
  unfold execTickRunt
  repeat' first | with_reducible assumption | with_reducible apply keep_ifWf | with_reducible apply keep_State_bump32

theorem keep_execTickLoss {k : Watch} {s0} (h0 : Kept k s0) : KeptR k (execTickLoss s0) := by
  unfold execTickLoss
  repeat' first | with_reducible assumption | with_reducible apply keep_whenever | with_reducible apply keep_pbLoss | with_reducible apply keptR_next

theorem keep_State_setEnc {k : Watch} {s0 a1 a2} (h0 : Kept k s0) : Kept k (State.setEnc s0 a1 a2) := by
  unfold State.setEnc
  repeat' first | with_reducible assumption | with_reducible apply keep_State_setReg | simp only [kept_mk, keptF_fold]

theorem keep_encNotes {k : Watch} {s0 a1 a2 a3} (h0 : Kept k s0) : Kept k (encNotes s0 a1 a2 a3) := by
  unfold encNotes
  repeat' first
    | with_reducible assumption
    | simp only [kept_mk, keptF_fold]

theorem keep_stepBegins {k : Watch} {s0} (h0 : Kept k s0) : Kept k (stepBegins s0) := by
  unfold stepBegins
  repeat' first | with_reducible assumption | with_reducible apply keep_pbEnter | simp only [kept_mk, keptF_fold]

theorem keep_encTracks {k : Watch} {s0 a1 a2 a3 a4 a5} (h0 : Kept k s0) : Kept k (encTracks s0 a1 a2 a3 a4 a5) := by
  unfold encTracks
  repeat' first
    | with_reducible assumption
    | with_reducible first | apply keep_encNotes | apply keep_stepBegins | apply keep_pbRefEvent
    | simp only [kept_mk, keptF_fold]
    | split

theorem keep_countTracks {k : Watch} {s0 a1 a2 a3 a4} (h0 : Kept k s0) : Kept k (countTracks s0 a1 a2 a3 a4) := by
  unfold countTracks
  repeat' first
    | with_reducible assumption
    | with_reducible first | apply keep_State_setEnc | apply keep_encNotes | apply keep_stepBegins | apply keep_pbInitialLoad | apply keep_joinMarks | apply keep_encTracks
    | simp only [kept_mk, keptF_fold]
    | split

theorem keep_encForward {k : Watch} {s0 a1} (h0 : Kept k s0) : Kept k (encForward s0 a1) := by
  unfold encForward
  repeat' first | with_reducible assumption | with_reducible apply keep_State_setEnc | with_reducible apply keep_State_setReg | with_reducible apply keep_countTracks | split

theorem keep_encCountEvent {k : Watch} {s0 a1} (h0 : Kept k s0) : Kept k (encCountEvent s0 a1) := by
  unfold encCountEvent
  repeat' first
    | with_reducible assumption
    | with_reducible first | apply keep_encForward | apply keep_State_setEnc | apply keep_State_setReg
    | simp only [kept_mk, keptF_fold]
    | split

theorem keep_execEncCount {k : Watch} {a0 s1} (h1 : Kept k s1) : KeptR k (execEncCount a0 s1) := by
  unfold execEncCount
  repeat' first | with_reducible assumption | with_reducible apply keep_ifWf | with_reducible apply keep_encCountEvent

theorem keep_encMiscount {k : Watch} {s0 a1} (h0 : Kept k s0) : Kept k (encMiscount s0 a1) := by
  unfold encMiscount
  repeat' first
    | with_reducible assumption
    | with_reducible first | apply keep_State_raise | apply keep_State_bump32
    | simp only [kept_mk, keptF_fold]
    | split

theorem keep_encIndexEvent {k : Watch} {s0 a1} (h0 : Kept k s0) : Kept k (encIndexEvent s0 a1) := by
  unfold encIndexEvent
  repeat' first
    | with_reducible assumption
    | with_reducible first | apply keep_State_setEnc | apply keep_encMiscount | apply keep_encNotes | apply keep_pbInitialLoad | apply keep_joinMarks | apply keep_encTracks
    | simp only [kept_mk, keptF_fold]
    | split

theorem keep_execEncIndex {k : Watch} {a0 s1} (h1 : Kept k s1) : KeptR k (execEncIndex a0 s1) := by
  unfold execEncIndex
  repeat' first | with_reducible assumption | with_reducible apply keep_ifWf | with_reducible apply keep_encIndexEvent

theorem keep_encBackwardEvent {k : Watch} {s0 a1} (h0 : Kept k s0) : Kept k (encBackwardEvent s0 a1) := by
  unfold encBackwardEvent
  repeat' first
    | with_reducible assumption
    | with_reducible first | apply keep_State_setReg | apply keep_State_setEnc
    | simp only [kept_mk, keptF_fold]
    | split

theorem keep_execEncBackward {k : Watch} {a0 s1} (h1 : Kept k s1) : KeptR k (execEncBackward a0 s1) := by
  unfold execEncBackward
  repeat' first | with_reducible assumption | with_reducible apply keep_ifWf | with_reducible apply keep_encBackwardEvent

theorem keep_encIllegalEvent {k : Watch} {s0 a1} (h0 : Kept k s0) : Kept k (encIllegalEvent s0 a1) := by
  unfold encIllegalEvent
  repeat' first | with_reducible assumption | with_reducible apply keep_whenever | with_reducible apply keep_State_raise | with_reducible apply keep_State_bump32

theorem keep_execEncIllegal {k : Watch} {a0 s1} (h1 : Kept k s1) : KeptR k (execEncIllegal a0 s1) := by
  unfold execEncIllegal
  repeat' first | with_reducible assumption | with_reducible apply keep_ifWf | with_reducible apply keep_encIllegalEvent

theorem keep_enterStill {k : Watch} {s0} (h0 : Kept k s0) : Kept k (enterStill s0) := by
  unfold enterStill
  repeat' first | with_reducible assumption | with_reducible apply keep_State_bump | with_reducible apply keep_State_raise | with_reducible apply keep_pbEnter | simp only [kept_mk, keptF_fold]

theorem keep_execPbStandstill {k : Watch} {s0} (h0 : Kept k s0) : KeptR k (execPbStandstill s0) := by
  unfold execPbStandstill
  repeat' first | with_reducible assumption | with_reducible apply keep_whenever | with_reducible apply keep_enterStill | with_reducible apply keptR_next

theorem keep_State_setCap {k : Watch} {s0 a1 a2} (h0 : Kept k s0) : Kept k (State.setCap s0 a1 a2) := by
  unfold State.setCap
  repeat' first
    | with_reducible assumption
    | simp only [kept_mk, keptF_fold]

theorem keep_capWrite {k : Watch} {s0 a1 a2} (h0 : Kept k s0) : Kept k (capWrite s0 a1 a2) := by
  unfold capWrite
  repeat' first
    | with_reducible assumption
    | with_reducible first | apply keep_State_raise | apply keep_State_setCap
    | simp only [kept_mk, keptF_fold]
    | split

theorem keep_execCapEdge {k : Watch} {a0 a1 s2} (h2 : Kept k s2) : KeptR k (execCapEdge a0 a1 s2) := by
  unfold execCapEdge
  repeat' first | with_reducible assumption | with_reducible apply keep_ifWf | with_reducible apply keep_whenever | with_reducible apply keep_capWrite

theorem keep_capNsRead {k : Watch} {s0 a1 a2} (h0 : Kept k s0) : Kept k (capNsRead s0 a1 a2) := by
  unfold capNsRead
  repeat' first | with_reducible assumption | with_reducible apply keep_State_tick1 | with_reducible apply keep_State_emit | with_reducible apply keep_State_setReg | with_reducible apply keep_State_setCap | split

theorem keep_State_readOr {k : Watch} {s0 a1 a2 s3} (h0 : Kept k s0) (h3 : Kept k s3) : Kept k (State.readOr s0 a1 a2 s3) := by
  unfold State.readOr
  repeat' first | with_reducible assumption | with_reducible apply keep_State_emit | split

theorem keep_State_setPairSt {k : Watch} {s0 a1 a2} (h0 : Kept k s0) : Kept k (State.setPairSt s0 a1 a2) := by
  unfold State.setPairSt
  repeat' first
    | with_reducible assumption
    | simp only [kept_mk, keptF_fold]
    | split

theorem keep_taskRead {k : Watch} {s0 a1 a2 a3 s4} (h0 : Kept k s0) (h4 : Kept k s4) : Kept k (taskRead s0 a1 a2 a3 s4) := by
  unfold taskRead
  repeat' first
    | with_reducible assumption
    | with_reducible first | apply keep_State_emit | apply keep_State_setPairSt
    | simp only [kept_mk, keptF_fold]
    | split

theorem keep_State_readOnce {k : Watch} {s0 a1 a2 s3} (h0 : Kept k s0) (h3 : Kept k s3) : Kept k (State.readOnce s0 a1 a2 s3) := by
  unfold State.readOnce
  repeat' first | with_reducible assumption | with_reducible apply keep_State_readOr | with_reducible apply keep_taskRead | split

theorem keep_execCapNsRead {k : Watch} {a0 a1 s2} (h2 : Kept k s2) : KeptR k (execCapNsRead a0 a1 s2) := by
  unfold execCapNsRead
  repeat' first | with_reducible assumption | with_reducible apply keep_ifWf | with_reducible apply keep_State_readOnce | with_reducible apply keep_capNsRead

theorem keep_capStatRead {k : Watch} {s0 a1 a2} (h0 : Kept k s0) : Kept k (capStatRead s0 a1 a2) := by
  unfold capStatRead
  repeat' first | with_reducible assumption | with_reducible apply keep_State_emit | with_reducible apply keep_State_setCap

theorem keep_execCapStatRead {k : Watch} {a0 a1 s2} (h2 : Kept k s2) : KeptR k (execCapStatRead a0 a1 s2) := by
  unfold execCapStatRead
  repeat' first | with_reducible assumption | with_reducible apply keep_ifWf | with_reducible apply keep_State_readOr | with_reducible apply keep_capStatRead

theorem keep_State_setPpo {k : Watch} {s0 a1 a2} (h0 : Kept k s0) : Kept k (State.setPpo s0 a1 a2) := by
  unfold State.setPpo
  repeat' first | with_reducible assumption | with_reducible apply keep_State_setReg | simp only [kept_mk, keptF_fold]

theorem keep_ppoArmed {k : Watch} {s0 a1} (h0 : Kept k s0) : Kept k (ppoArmed s0 a1) := by
  unfold ppoArmed
  repeat' first | with_reducible assumption | with_reducible apply keep_State_setPpo

theorem keep_ppoFires {k : Watch} {s0 a1} (h0 : Kept k s0) : Kept k (ppoFires s0 a1) := by
  unfold ppoFires
  repeat' first | with_reducible assumption | with_reducible apply keep_State_raise | with_reducible apply keep_State_emit | with_reducible apply keep_State_setPpo | split

theorem keep_ppoWrite {k : Watch} {s0 a1 a2 a3} (h0 : Kept k s0) : Kept k (ppoWrite s0 a1 a2 a3) := by
  unfold ppoWrite
  repeat' first | with_reducible assumption | with_reducible apply keep_ppoFires | with_reducible apply keep_logReg | with_reducible apply keep_State_setReg | with_reducible apply keep_ppoArmed | with_reducible apply keep_State_setPpo | split

theorem keep_execPpoArm {k : Watch} {a0 a1 a2 s3} (h3 : Kept k s3) : KeptR k (execPpoArm a0 a1 a2 s3) := by
  unfold execPpoArm
  repeat' first | with_reducible assumption | with_reducible apply keep_ifWf | with_reducible apply keep_State_write | with_reducible apply keep_ppoWrite

theorem keep_execPpoFire {k : Watch} {a0 s1} (h1 : Kept k s1) : KeptR k (execPpoFire a0 s1) := by
  unfold execPpoFire
  repeat' first | with_reducible assumption | with_reducible apply keep_ifWf | with_reducible apply keep_whenever | with_reducible apply keep_ppoFires

end Sys2Proof.Laws
end

