-- ==== Sys2Proof/Laws/Keep1.lean ====
section
/-!
SUPPORT. `Kept` for the functions of Machine/: GptpOps, EgressOps, Egress, Admission, Ports.
-/
set_option linter.unusedSimpArgs false
namespace Sys2Proof.Laws
set_option Elab.async false
open Sys2Proof Sys2Proof.Machine

/-! ### GptpOps -/

theorem keep_State_setPdelay {k : Watch} {s0 a1 a2} (h0 : Kept k s0) : Kept k (State.setPdelay s0 a1 a2) := by
  unfold State.setPdelay
  repeat' first
    | with_reducible assumption
    | simp only [kept_mk, keptF_fold]

theorem keep_takeAdj {k : Watch} {s0 a1 a2} (h0 : Kept k s0) : Kept k (takeAdj s0 a1 a2) := by
  unfold takeAdj
  repeat' first
    | with_reducible assumption
    | with_reducible first | apply keep_State_setDom | apply keep_State_bump
    | simp only [kept_mk, keptF_fold]
    | split

theorem keep_servo {k : Watch} {s0 a1} (h0 : Kept k s0) : Kept k (servo s0 a1) := by
  unfold servo
  repeat' first | with_reducible assumption | with_reducible apply keep_takeAdj | with_reducible apply keep_State_tick1

theorem keep_domEnter {k : Watch} {s0 a1 a2} (h0 : Kept k s0) : Kept k (domEnter s0 a1 a2) := by
  unfold domEnter
  repeat' first
    | with_reducible assumption
    | with_reducible first | apply keep_State_setDom | apply keep_State_raise | apply keep_pbDomainLost
    | simp only [kept_mk, keptF_fold]
    | split

theorem keep_domHoldover {k : Watch} {s0 a1} (h0 : Kept k s0) : Kept k (domHoldover s0 a1) := by
  unfold domHoldover
  repeat' first | with_reducible assumption | with_reducible apply keep_State_report | with_reducible apply keep_State_raise | with_reducible apply keep_domEnter

theorem keep_domStep {k : Watch} {s0 a1 a2} (h0 : Kept k s0) : Kept k (domStep s0 a1 a2) := by
  unfold domStep
  repeat' first | with_reducible assumption | with_reducible apply keep_State_bump | with_reducible apply keep_State_setDom

theorem keep_slavePortLost {k : Watch} {s0 a1} (h0 : Kept k s0) : Kept k (slavePortLost s0 a1) := by
  unfold slavePortLost
  repeat' first
    | with_reducible assumption
    | with_reducible first | apply keep_domHoldover | apply keep_foldl
    | intro _
    | split

theorem keep_asCapLost {k : Watch} {s0 a1} (h0 : Kept k s0) : Kept k (asCapLost s0 a1) := by
  unfold asCapLost
  repeat' first | with_reducible assumption | with_reducible apply keep_slavePortLost | with_reducible apply keep_State_bump | with_reducible apply keep_State_raise | with_reducible apply keep_State_setPdelay | split

theorem keep_servoCommit {k : Watch} {s0 a1} (h0 : Kept k s0) : Kept k (servoCommit s0 a1) := by
  unfold servoCommit
  repeat' first | with_reducible assumption | with_reducible apply keep_takeAdj | split

theorem keep_pdelayCommit {k : Watch} {s0 a1} (h0 : Kept k s0) : Kept k (pdelayCommit s0 a1) := by
  unfold pdelayCommit
  repeat' first
    | with_reducible assumption
    | with_reducible first | apply keep_asCapLost | apply keep_State_setPdelay
    | simp only [kept_mk, keptF_fold]
    | split

theorem keep_domCommit {k : Watch} {s0 a1 a2} (h0 : Kept k s0) : Kept k (domCommit s0 a1 a2) := by
  unfold domCommit
  repeat' first | with_reducible assumption | with_reducible apply keep_State_setDom | with_reducible apply keep_domEnter | with_reducible apply keep_domHoldover | split

theorem keep_usedSeq {k : Watch} {s0 a1 a2 a3} (h0 : Kept k s0) : Kept k (usedSeq s0 a1 a2 a3) := by
  unfold usedSeq
  repeat' first
    | with_reducible assumption
    | simp only [kept_mk, keptF_fold]

theorem keep_enterFrame {k : Watch} {s0 a1} (h0 : Kept k s0) : Kept k (enterFrame s0 a1) := by
  unfold enterFrame
  repeat' first | with_reducible assumption | with_reducible apply keep_State_setFrame | simp only [kept_mk, keptF_fold]

theorem keep_enterPaced {k : Watch} {s0 a1} (h0 : Kept k s0) : Kept k (enterPaced s0 a1) := by
  unfold enterPaced
  repeat' first | with_reducible assumption | with_reducible apply keep_enterFrame | simp only [kept_mk, keptF_fold]

theorem keep_sourceFrame {k : Watch} {s0 a1 a2} (h0 : Kept k s0) : Kept k (sourceFrame s0 a1 a2) := by
  unfold sourceFrame
  repeat' first
    | with_reducible assumption
    | with_reducible first | apply keep_enterPaced
    | simp only [kept_mk, keptF_fold]
    | split

theorem keep_sourceDue {k : Watch} {s0 a1} (h0 : Kept k s0) : Kept k (sourceDue s0 a1) := by
  unfold sourceDue
  repeat' first
    | with_reducible assumption
    | with_reducible first | apply keep_enterPaced
    | simp only [kept_mk, keptF_fold]
    | split

theorem keep_gptpSend {k : Watch} {s0 a1 a2 a3 a4} (h0 : Kept k s0) : Kept k (gptpSend s0 a1 a2 a3 a4) := by
  unfold gptpSend
  repeat' first | with_reducible assumption | with_reducible apply keep_sourceFrame

theorem keep_sendSyncs {k : Watch} {a0 a1 a2 s3} (h3 : Kept k s3) : Kept k (sendSyncs a0 a1 a2 s3) := by
  induction a1 generalizing a2 s3 with
  | nil => exact h3
  | cons p ps ih =>
    unfold sendSyncs
    exact ih (keep_State_bump (keep_gptpSend (keep_usedSeq h3)))

theorem keep_gptpLeft {k : Watch} {s0 a1 a2 a3} (h0 : Kept k s0) : Kept k (gptpLeft s0 a1 a2 a3) := by
  unfold gptpLeft
  repeat' first | with_reducible assumption | with_reducible apply keep_State_setDom | with_reducible apply keep_State_setPdelay | with_reducible apply keep_gptpSend | split

/-! ### EgressOps -/

theorem keep_setBucket {k : Watch} {s0 a1 a2 a3} (h0 : Kept k s0) : Kept k (setBucket s0 a1 a2 a3) := by
  unfold setBucket
  repeat' first | with_reducible assumption | with_reducible apply keep_State_setEgs

theorem keep_refillBucket {k : Watch} {s0 a1 a2} (h0 : Kept k s0) : Kept k (refillBucket s0 a1 a2) := by
  unfold refillBucket
  repeat' first | with_reducible assumption | with_reducible apply keep_setBucket | split

theorem keep_chargeBucket {k : Watch} {s0 a1 a2 a3} (h0 : Kept k s0) : Kept k (chargeBucket s0 a1 a2 a3) := by
  unfold chargeBucket
  repeat' first | with_reducible assumption | with_reducible apply keep_setBucket | split

theorem keep_chargeCredit {k : Watch} {s0 a1 a2 a3 a4} (h0 : Kept k s0) : Kept k (chargeCredit s0 a1 a2 a3 a4) := by
  unfold chargeCredit
  repeat' first | with_reducible assumption | with_reducible apply keep_setCredit | split

theorem keep_settleCredits {k : Watch} {s0 a1} (h0 : Kept k s0) : Kept k (settleCredits s0 a1) := by
  unfold settleCredits
  repeat' first | with_reducible assumption | with_reducible apply keep_settleCredit | with_reducible apply keep_foldl | intro _

theorem keep_egsLost {k : Watch} {s0 a1 a2} (h0 : Kept k s0) : Kept k (egsLost s0 a1 a2) := by
  unfold egsLost
  repeat' first | with_reducible assumption | with_reducible apply keep_State_report | with_reducible apply keep_State_bump | with_reducible apply keep_memRepeated

theorem keep_loseLevel {k : Watch} {s0 a1 a2 a3} (h0 : Kept k s0) : Kept k (loseLevel s0 a1 a2 a3) := by
  unfold loseLevel
  repeat' first | with_reducible assumption | with_reducible apply keep_egsLost | with_reducible apply keep_setBucket | with_reducible apply keep_setCredit | with_reducible apply keep_setDeficit | split

theorem keep_readLevels {k : Watch} {s0 a1} (h0 : Kept k s0) : Kept k (readLevels s0 a1) := by
  unfold readLevels
  repeat' first
    | with_reducible assumption
    | with_reducible first | apply keep_memRead | apply keep_loseLevel | apply keep_State_tick1
    | split
    | with_reducible refine kept_fst (by assumption) ?_

theorem keep_preemptClose {k : Watch} {s0 a1} (h0 : Kept k s0) : Kept k (preemptClose s0 a1) := by
  unfold preemptClose
  repeat' first
    | with_reducible assumption
    | with_reducible first | apply keep_State_bump | apply keep_State_setEgs
    | simp only [kept_mk, keptF_fold]
    | split

theorem keep_windowOverrun {k : Watch} {s0 a1} (h0 : Kept k s0) : Kept k (windowOverrun s0 a1) := by
  unfold windowOverrun
  repeat' first
    | with_reducible assumption
    | with_reducible first | apply keep_State_report | apply keep_State_raise | apply keep_State_bump | apply keep_State_setEgs
    | simp only [kept_mk, keptF_fold]
    | split

theorem keep_readSchedule {k : Watch} {s0 a1} (h0 : Kept k s0) : Kept k (readSchedule s0 a1) := by
  unfold readSchedule
  repeat' first
    | with_reducible assumption
    | with_reducible first | apply keep_memRead | apply keep_egsLost
    | split
    | with_reducible refine kept_fst (by assumption) ?_

theorem keep_entryBegins {k : Watch} {s0 a1 a2 a3 a4 a5} (h0 : Kept k s0) : Kept k (entryBegins s0 a1 a2 a3 a4 a5) := by
  unfold entryBegins
  repeat' first | with_reducible assumption | with_reducible apply keep_readSchedule | with_reducible apply keep_settleCredits | with_reducible apply keep_State_setEgs | with_reducible apply keep_windowOverrun | with_reducible apply keep_preemptClose

theorem keep_listOff {k : Watch} {s0 a1} (h0 : Kept k s0) : Kept k (listOff s0 a1) := by
  unfold listOff
  repeat' first | with_reducible assumption | with_reducible apply keep_settleCredits | with_reducible apply keep_State_setEgs

theorem keep_listBegins {k : Watch} {s0 a1 a2 a3 a4} (h0 : Kept k s0) : Kept k (listBegins s0 a1 a2 a3 a4) := by
  unfold listBegins
  repeat' first | with_reducible assumption | with_reducible apply keep_listOff | with_reducible apply keep_entryBegins | with_reducible apply keep_State_setEgs | split

theorem keep_placeList {k : Watch} {s0 a1 a2 a3} (h0 : Kept k s0) : Kept k (placeList s0 a1 a2 a3) := by
  unfold placeList
  repeat' first | with_reducible assumption | with_reducible apply keep_listOff | with_reducible apply keep_listBegins | with_reducible apply keep_entryBegins | with_reducible apply keep_State_setEgs | split

theorem keep_installList {k : Watch} {s0 a1 a2 a3} (h0 : Kept k s0) : Kept k (installList s0 a1 a2 a3) := by
  unfold installList
  repeat' first | with_reducible assumption | with_reducible apply keep_State_setEgs

/-! ### Egress -/

theorem keep_dropHead {k : Watch} {s0 a1 a2} (h0 : Kept k s0) : Kept k (dropHead s0 a1 a2).1 := by
  unfold dropHead
  repeat' first
    | with_reducible assumption
    | with_reducible first | apply keep_State_bump | apply keep_removeCopy | apply keep_State_raise
    | simp only [kept_mk, keptF_fold]
    | split

theorem keep_dropHeads {k : Watch} {a0 a1 a2 s3} (h3 : Kept k s3) : Kept k (dropHeads a0 a1 a2 s3) := by
  induction a2 generalizing s3 with
  | zero => exact h3
  | succ n ih =>
    have hd := keep_dropHead (a1 := a0) (a2 := a1) h3
    unfold dropHeads
    split
    · rename_i e; rw [e] at hd; exact ih hd
    · rename_i e; rw [e] at hd; exact hd

theorem keep_countNofit {k : Watch} {a0 s1 a2} (h1 : Kept k s1) : Kept k (countNofit a0 s1 a2) := by
  unfold countNofit
  repeat' first
    | with_reducible assumption
    | with_reducible first | apply keep_State_bump | apply keep_State_setEgs
    | simp only [kept_mk, keptF_fold]
    | split

theorem keep_dwrrVisit {k : Watch} {s0 a1 a2 a3} (h0 : Kept k s0) : Kept k (dwrrVisit s0 a1 a2 a3).1 := by
  unfold dwrrVisit
  repeat' first
    | with_reducible assumption
    | with_reducible first | apply keep_setDeficit | apply keep_State_setEgs
    | simp only [kept_mk, keptF_fold]
    | split

theorem keep_dwrrRound {k : Watch} {a0 a1 s2} (h2 : Kept k s2) : Kept k (dwrrRound a0 a1 s2).1 := by
  induction a1 generalizing s2 with
  | nil => exact h2
  | cons x rest ih =>
    have hd := keep_dwrrVisit (a1 := a0) (a2 := x.1) (a3 := x.2) h2
    obtain ⟨q, b⟩ := x
    unfold dwrrRound
    split
    · rename_i e; rw [e] at hd; exact hd
    · rename_i e; rw [e] at hd; exact ih hd

theorem keep_dwrrRounds {k : Watch} {a0 a1 a2 s3} (h3 : Kept k s3) : Kept k (dwrrRounds a0 a1 a2 s3).1 := by
  induction a2 generalizing s3 with
  | zero => exact h3
  | succ n ih =>
    have hd := keep_dwrrRound (a0 := a0) (a1 := a1) h3
    unfold dwrrRounds
    split
    · rename_i e; rw [e] at hd; exact hd
    · rename_i e; rw [e] at hd; exact ih hd

theorem keep_pickIn {k : Watch} {s0 a1 a2 a3} (h0 : Kept k s0) : Kept k (pickIn s0 a1 a2 a3).1 := by
  unfold pickIn
  repeat' first
    | with_reducible assumption
    | with_reducible first | apply keep_dwrrRounds
    | simp only [kept_mk, keptF_fold]
    | split

theorem keep_pick {k : Watch} {s0 a1 a2} (h0 : Kept k s0) : Kept k (pick s0 a1 a2).1 := by
  unfold pick
  repeat' first
    | with_reducible assumption
    | with_reducible first | apply keep_pickIn
    | simp only [kept_mk, keptF_fold]
    | split

theorem keep_txBytes {k : Watch} {s0 a1 a2} (h0 : Kept k s0) : Kept k (txBytes s0 a1 a2).1 := by
  unfold txBytes
  repeat' first
    | with_reducible assumption
    | with_reducible first | apply keep_mscTransmit | apply keep_State_bump | apply keep_State_tick1 | apply keep_pipeDelay
    | simp only [kept_mk, keptF_fold]
    | split
    | with_reducible refine kept_fst (by assumption) ?_

theorem keep_markCut {k : Watch} {s0 a1 a2 a3} (h0 : Kept k s0) : Kept k (markCut s0 a1 a2 a3) := by
  unfold markCut
  repeat' first | with_reducible assumption | with_reducible apply keep_State_setEgs

theorem keep_behindPre {k : Watch} {s0 a1 a2 a3} (h0 : Kept k s0) : Kept k (behindPre s0 a1 a2 a3).1 := by
  unfold behindPre
  repeat' first | with_reducible assumption | with_reducible apply keep_markCut | split

theorem keep_selectCopy {k : Watch} {s0 a1 a2 a3 a4 a5 a6 a7} (h0 : Kept k s0) : Kept k (selectCopy s0 a1 a2 a3 a4 a5 a6 a7) := by
  unfold selectCopy
  repeat' first | with_reducible assumption | with_reducible apply keep_behindPre | with_reducible apply keep_State_setEgs | with_reducible apply keep_State_setCopy | with_reducible apply keep_State_bump

theorem keep_dropAll {k : Watch} {s0 a1} (h0 : Kept k s0) : Kept k (dropAll s0 a1) := by
  unfold dropAll
  repeat' first
    | with_reducible assumption
    | with_reducible first | apply keep_dropHeads | apply keep_foldl
    | intro _
    | split

theorem keep_decide_ {k : Watch} {s0 a1 a2} (h0 : Kept k s0) : Kept k (decide_ s0 a1 a2) := by
  unfold decide_
  repeat' first
    | with_reducible assumption
    | with_reducible first | apply keep_dropAll | apply keep_readLevels | apply keep_countNofit | apply keep_pick | apply keep_selectCopy | apply keep_foldl
    | intro _
    | simp only [kept_mk, keptF_fold]
    | split
    | with_reducible refine kept_fst (by assumption) ?_

theorem keep_execEgressDecision {k : Watch} {a0 a1 s2} (h2 : Kept k s2) : KeptR k (execEgressDecision a0 a1 s2) := by
  unfold execEgressDecision
  repeat' first | with_reducible assumption | with_reducible apply keep_ifWf | with_reducible apply keep_whenever | with_reducible apply keep_decide_

theorem keep_suspendTx {k : Watch} {s0 a1 a2 a3} (h0 : Kept k s0) : Kept k (suspendTx s0 a1 a2 a3) := by
  unfold suspendTx
  repeat' first | with_reducible assumption | with_reducible apply keep_State_setEgs | with_reducible apply keep_State_emit

theorem keep_deliver {k : Watch} {s0 a1 a2} (h0 : Kept k s0) : Kept k (deliver s0 a1 a2) := by
  unfold deliver
  repeat' first
    | with_reducible assumption
    | with_reducible first | apply keep_State_setRing
    | simp only [kept_mk, keptF_fold]
    | split

theorem keep_endTx {k : Watch} {s0 a1 a2} (h0 : Kept k s0) : Kept k (endTx s0 a1 a2) := by
  unfold endTx
  repeat' first | with_reducible assumption | with_reducible apply keep_State_setEgs | with_reducible apply keep_State_bumpBy | with_reducible apply keep_State_bump | with_reducible apply keep_State_emit | with_reducible apply keep_State_setFrame | with_reducible apply keep_deliver | with_reducible apply keep_removeCopy | split

theorem keep_lineFreed {k : Watch} {s0 a1} (h0 : Kept k s0) : Kept k (lineFreed s0 a1) := by
  unfold lineFreed
  repeat' first | with_reducible assumption | with_reducible apply keep_suspendTx | with_reducible apply keep_endTx | split

theorem keep_execLineFree {k : Watch} {a0 s1} (h1 : Kept k s1) : KeptR k (execLineFree a0 s1) := by
  unfold execLineFree
  repeat' first | with_reducible assumption | with_reducible apply keep_ifWf | with_reducible apply keep_lineFreed

theorem keep_eventLeaves {k : Watch} {s0 a1 a2} (h0 : Kept k s0) : Kept k (eventLeaves s0 a1 a2) := by
  unfold eventLeaves
  repeat' first | with_reducible assumption | with_reducible apply keep_gptpLeft | split

theorem keep_startsNow {k : Watch} {s0 a1 a2 a3} (h0 : Kept k s0) : Kept k (startsNow s0 a1 a2 a3) := by
  unfold startsNow
  repeat' first | with_reducible assumption | with_reducible apply keep_eventLeaves | with_reducible apply keep_State_setEgs | with_reducible apply keep_chargeBucket | with_reducible apply keep_chargeCredit | with_reducible apply keep_windowOverrun | with_reducible apply keep_preemptClose

theorem keep_startSel {k : Watch} {s0 a1} (h0 : Kept k s0) : Kept k (startSel s0 a1) := by
  unfold startSel
  repeat' first
    | with_reducible assumption
    | with_reducible first | apply keep_lineFreed | apply keep_unselect | apply keep_txBytes | apply keep_removeCopy | apply keep_State_setEgs | apply keep_startsNow
    | simp only [kept_mk, keptF_fold]
    | split
    | with_reducible refine kept_fst (by assumption) ?_

theorem keep_resume {k : Watch} {s0 a1} (h0 : Kept k s0) : Kept k (resume s0 a1) := by
  unfold resume
  repeat' first
    | with_reducible assumption
    | with_reducible first | apply keep_State_bump | apply keep_State_setEgs
    | simp only [kept_mk, keptF_fold]
    | split

theorem keep_execPreemptResume {k : Watch} {a0 s1} (h1 : Kept k s1) : KeptR k (execPreemptResume a0 s1) := by
  unfold execPreemptResume
  repeat' first | with_reducible assumption | with_reducible apply keep_ifWf | with_reducible apply keep_resume

theorem keep_takeSettings {k : Watch} {s0 a1} (h0 : Kept k s0) : Kept k (takeSettings s0 a1) := by
  unfold takeSettings
  repeat' first | with_reducible assumption | with_reducible apply keep_settleCredits | with_reducible apply keep_State_setEgs | split

theorem keep_refillAll {k : Watch} {s0} (h0 : Kept k s0) : Kept k (refillAll s0) := by
  unfold refillAll
  repeat' first
    | with_reducible assumption
    | with_reducible first | apply keep_takeSettings | apply keep_refillBucket | apply keep_memRead | apply keep_loseLevel | apply keep_State_tick1 | apply keep_foldl
    | intro _
    | simp only [kept_mk, keptF_fold]
    | split
    | with_reducible refine kept_fst (by assumption) ?_

theorem keep_execBucketRefill {k : Watch} {s0} (h0 : Kept k s0) : KeptR k (execBucketRefill s0) := by
  unfold execBucketRefill
  repeat' first | with_reducible assumption | with_reducible apply keep_whenever | with_reducible apply keep_refillAll | with_reducible apply keptR_next

theorem keep_execGclEntryBegin {k : Watch} {a0 s1} (h1 : Kept k s1) : KeptR k (execGclEntryBegin a0 s1) := by
  unfold execGclEntryBegin
  repeat' first | with_reducible assumption | with_reducible apply keep_ifWf | with_reducible apply keep_entryBegins | split

theorem keep_boundaryDue {k : Watch} {s0 a1} (h0 : Kept k s0) : Kept k (boundaryDue s0 a1) := by
  unfold boundaryDue
  repeat' first
    | with_reducible assumption
    | with_reducible first | apply keep_listBegins
    | simp only [kept_mk, keptF_fold]
    | split

theorem keep_execGclListBoundary {k : Watch} {a0 s1} (h1 : Kept k s1) : KeptR k (execGclListBoundary a0 s1) := by
  unfold execGclListBoundary
  repeat' first | with_reducible assumption | with_reducible apply keep_ifWf | with_reducible apply keep_boundaryDue

theorem keep_gclWrite {k : Watch} {s0 a1 a2} (h0 : Kept k s0) : Kept k (gclWrite s0 a1 a2) := by
  unfold gclWrite
  repeat' first
    | with_reducible assumption
    | with_reducible first | apply keep_State_setFld
    | simp only [kept_mk, keptF_fold]
    | split

theorem keep_execGclDataWrite {k : Watch} {a0 a1 a2 s3} (h3 : Kept k s3) : KeptR k (execGclDataWrite a0 a1 a2 s3) := by
  unfold execGclDataWrite
  repeat' first | with_reducible assumption | with_reducible apply keep_ifWf | with_reducible apply keep_State_write | with_reducible apply keep_logReg | with_reducible apply keep_gclWrite

/-! ### Admission -/

theorem keep_flushQueue {k : Watch} {s0 a1 a2} (h0 : Kept k s0) : Kept k (flushQueue s0 a1 a2) := by
  unfold flushQueue
  repeat' first | with_reducible assumption | with_reducible apply keep_unselect | with_reducible apply keep_State_setQueue | with_reducible apply keep_foldl | intro _

theorem keep_offOne {k : Watch} {s0 a1} (h0 : Kept k s0) : Kept k (offOne s0 a1) := by
  unfold offOne
  repeat' first | with_reducible assumption | with_reducible apply keep_State_bump | with_reducible apply keep_removeCopy | split

theorem keep_logShed {k : Watch} {s0 a1 a2} (h0 : Kept k s0) : Kept k (logShed s0 a1 a2) := by
  unfold logShed
  repeat' first | with_reducible assumption | with_reducible apply keep_State_silt_

theorem keep_shedQueue {k : Watch} {a0 s1 a2} (h1 : Kept k s1) : Kept k (shedQueue a0 s1 a2) := by
  unfold shedQueue
  repeat' first
    | with_reducible assumption
    | with_reducible first | apply keep_State_setFld | apply keep_State_setBitAt | apply keep_State_report | apply keep_State_raise | apply keep_State_bump | apply keep_logShed | apply keep_flushQueue
    | simp only [kept_mk, keptF_fold]
    | split

theorem keep_restoreQueue {k : Watch} {a0 s1 a2} (h1 : Kept k s1) : Kept k (restoreQueue a0 s1 a2) := by
  unfold restoreQueue
  repeat' first | with_reducible assumption | with_reducible apply keep_State_setBitAt | with_reducible apply keep_State_setFld | with_reducible apply keep_logShed | with_reducible apply keep_State_raise | split

theorem keep_reexamine {k : Watch} {s0 a1} (h0 : Kept k s0) : Kept k (reexamine s0 a1) := by
  unfold reexamine
  repeat' first | with_reducible assumption | with_reducible apply keep_shedQueue | with_reducible apply keep_restoreQueue | with_reducible apply keep_foldl

theorem keep_execShedReexamine {k : Watch} {a0 s1} (h1 : Kept k s1) : KeptR k (execShedReexamine a0 s1) := by
  unfold execShedReexamine
  repeat' first | with_reducible assumption | with_reducible apply keep_ifWf | with_reducible apply keep_reexamine

theorem keep_renumber {k : Watch} {s0} (h0 : Kept k s0) : Kept k (renumber s0) := by
  unfold renumber
  repeat' first
    | with_reducible assumption
    | with_reducible first | apply keep_State_setFld | apply keep_foldl
    | intro _
    | simp only [kept_mk, keptF_fold]

theorem keep_admitQueue {k : Watch} {s0 a1} (h0 : Kept k s0) : Kept k (admitQueue s0 a1) := by
  unfold admitQueue
  repeat' first
    | with_reducible assumption
    | with_reducible first | apply keep_State_setFld | apply keep_renumber
    | simp only [kept_mk, keptF_fold]
    | split

theorem keep_admitQueues {k : Watch} {s0} (h0 : Kept k s0) : Kept k (admitQueues s0) := by
  unfold admitQueues
  repeat' first | with_reducible assumption | with_reducible apply keep_admitQueue | with_reducible apply keep_foldl

/-! ### Ports -/

theorem keep_afterMac {k : Watch} {s0 a1 a2 a3 a4 a5 a6} (h0 : Kept k s0) : Kept k (afterMac s0 a1 a2 a3 a4 a5 a6) := by
  unfold afterMac
  repeat' first
    | with_reducible assumption
    | with_reducible first | apply keep_mscReceive | apply keep_State_bump | apply keep_enterFrame | apply keep_pipeDelay
    | simp only [kept_mk, keptF_fold]
    | split
    | with_reducible refine kept_fst (by assumption) ?_

theorem keep_noteRx {k : Watch} {s0 a1 a2 a3 a4 a5} (h0 : Kept k s0) : Kept k (noteRx s0 a1 a2 a3 a4 a5) := by
  unfold noteRx
  repeat' first | with_reducible assumption | with_reducible apply keep_State_setMac

theorem keep_receive {k : Watch} {s0 a1 a2 a3 a4 a5} (h0 : Kept k s0) : Kept k (receive s0 a1 a2 a3 a4 a5) := by
  unfold receive
  repeat' first | with_reducible assumption | with_reducible apply keep_noteRx | with_reducible apply keep_State_bump | with_reducible apply keep_afterMac | with_reducible apply keep_State_bumpBy | split

theorem keep_execFrameReceive {k : Watch} {a0 a1 a2 a3 a4 s5} (h5 : Kept k s5) : KeptR k (execFrameReceive a0 a1 a2 a3 a4 s5) := by
  unfold execFrameReceive
  repeat' first | with_reducible assumption | with_reducible apply keep_ifWf | with_reducible apply keep_whenever | with_reducible apply keep_receive

theorem keep_cutCopies {k : Watch} {a0 a1 s2 a3} (h2 : Kept k s2) : Kept k (cutCopies a0 a1 s2 a3) := by
  unfold cutCopies
  repeat' first | with_reducible assumption | with_reducible apply keep_State_setEgs

theorem keep_dropLearn {k : Watch} {s0 a1} (h0 : Kept k s0) : Kept k (dropLearn s0 a1) := by
  unfold dropLearn
  repeat' first
    | with_reducible assumption
    | simp only [kept_mk, keptF_fold]

theorem keep_unbump {k : Watch} {s0 a1 a2} (h0 : Kept k s0) : Kept k (unbump s0 a1 a2) := by
  unfold unbump
  repeat' first | with_reducible assumption | with_reducible apply keep_State_setPair

theorem keep_abortCount {k : Watch} {a0 s1 a2} (h1 : Kept k s1) : Kept k (abortCount a0 s1 a2) := by
  unfold abortCount
  repeat' first | with_reducible assumption | with_reducible apply keep_State_bump | with_reducible apply keep_unbump

theorem keep_abortReception {k : Watch} {s0 a1} (h0 : Kept k s0) : Kept k (abortReception s0 a1) := by
  unfold abortReception
  repeat' first
    | with_reducible assumption
    | with_reducible first | apply keep_dropLearn | apply keep_retireFrame | apply keep_State_setFrame | apply keep_cutCopies | apply keep_foldl
    | simp only [kept_mk, keptF_fold]
    | split

theorem keep_endReceptions {k : Watch} {s0 a1} (h0 : Kept k s0) : Kept k (endReceptions s0 a1) := by
  unfold endReceptions
  repeat' first | with_reducible assumption | with_reducible apply keep_State_setMac | with_reducible apply keep_abortCount | with_reducible apply keep_abortReception | with_reducible apply keep_foldl

theorem keep_abortTx {k : Watch} {s0 a1} (h0 : Kept k s0) : Kept k (abortTx s0 a1) := by
  unfold abortTx
  repeat' first | with_reducible assumption | with_reducible apply keep_State_bump | with_reducible apply keep_State_setEgs | with_reducible apply keep_removeCopy | with_reducible apply keep_State_emit | split

theorem keep_stopStarts {k : Watch} {s0 a1} (h0 : Kept k s0) : Kept k (stopStarts s0 a1) := by
  unfold stopStarts
  repeat' first | with_reducible assumption | with_reducible apply keep_unselect | with_reducible apply keep_State_setEgs | with_reducible apply keep_foldl | intro _

theorem keep_State_setTphy {k : Watch} {s0 a1 a2} (h0 : Kept k s0) : Kept k (State.setTphy s0 a1 a2) := by
  unfold State.setTphy
  repeat' first
    | with_reducible assumption
    | simp only [kept_mk, keptF_fold]

theorem keep_endNegotiation {k : Watch} {s0 a1} (h0 : Kept k s0) : Kept k (endNegotiation s0 a1) := by
  unfold endNegotiation
  repeat' first | with_reducible assumption | with_reducible apply keep_State_setTphy | split

theorem keep_leaveUp {k : Watch} {s0 a1 a2} (h0 : Kept k s0) : Kept k (leaveUp s0 a1 a2) := by
  unfold leaveUp
  repeat' first | with_reducible assumption | with_reducible apply keep_stopStarts | with_reducible apply keep_endReceptions | with_reducible apply keep_endNegotiation | with_reducible apply keep_State_setMac | with_reducible apply keep_slavePortLost | with_reducible apply keep_State_raise | with_reducible apply keep_State_bump | simp only [kept_mk, keptF_fold]

theorem keep_markDown {k : Watch} {s0 a1} (h0 : Kept k s0) : Kept k (markDown s0 a1) := by
  unfold markDown
  repeat' first | with_reducible assumption | with_reducible apply keep_startFlush | with_reducible apply keep_State_setEgs

theorem keep_downReport {k : Watch} {s0 a1} (h0 : Kept k s0) : Kept k (downReport s0 a1) := by
  unfold downReport
  repeat' first | with_reducible assumption | with_reducible apply keep_State_report | with_reducible apply keep_State_setMac

theorem keep_downStep {k : Watch} {s0 a1} (h0 : Kept k s0) : Kept k (downStep s0 a1) := by
  unfold downStep
  repeat' first | with_reducible assumption | with_reducible apply keep_abortTx | with_reducible apply keep_markDown | with_reducible apply keep_downReport | split

theorem keep_finishDown {k : Watch} {s0 a1} (h0 : Kept k s0) : Kept k (finishDown s0 a1) := by
  unfold finishDown
  repeat' first | with_reducible assumption | with_reducible apply keep_abortTx | with_reducible apply keep_downReport | with_reducible apply keep_markDown | split

theorem keep_takeRole {k : Watch} {s0 a1} (h0 : Kept k s0) : Kept k (takeRole s0 a1) := by
  unfold takeRole
  repeat' first | with_reducible assumption | with_reducible apply keep_State_setTphy | split

theorem keep_sgmiiSends {k : Watch} {s0 a1} (h0 : Kept k s0) : Kept k (sgmiiSends s0 a1) := by
  unfold sgmiiSends
  repeat' first | with_reducible assumption | with_reducible apply keep_State_emit | split

theorem keep_trainStart {k : Watch} {s0 a1} (h0 : Kept k s0) : Kept k (trainStart s0 a1) := by
  unfold trainStart
  repeat' first | with_reducible assumption | with_reducible apply keep_sgmiiSends | with_reducible apply keep_State_setMac | with_reducible apply keep_takeRole

theorem keep_tc10Off {k : Watch} {s0 a1} (h0 : Kept k s0) : Kept k (tc10Off s0 a1) := by
  unfold tc10Off
  repeat' first | with_reducible assumption | with_reducible apply keep_State_setTphy | split

theorem keep_portDisable {k : Watch} {s0 a1} (h0 : Kept k s0) : Kept k (portDisable s0 a1) := by
  unfold portDisable
  repeat' first | with_reducible assumption | with_reducible apply keep_tc10Off | with_reducible apply keep_leaveUp | with_reducible apply keep_State_setMac | split

theorem keep_linkTrainStart {k : Watch} {s0 a1} (h0 : Kept k s0) : Kept k (linkTrainStart s0 a1) := by
  unfold linkTrainStart
  repeat' first | with_reducible assumption | with_reducible apply keep_portDisable | with_reducible apply keep_trainStart | with_reducible apply keep_leaveUp | split

theorem keep_laneEvents {k : Watch} {s0 a1 a2} (h0 : Kept k s0) : Kept k (laneEvents s0 a1 a2) := by
  unfold laneEvents
  repeat' first | with_reducible assumption | with_reducible apply keep_State_raise | with_reducible apply keep_State_bump | split

theorem keep_lossArises {k : Watch} {s0 a1 a2} (h0 : Kept k s0) : Kept k (lossArises s0 a1 a2) := by
  unfold lossArises
  repeat' first
    | with_reducible assumption
    | with_reducible first | apply keep_State_bump | apply keep_State_setMac | apply keep_laneEvents
    | simp only [kept_mk, keptF_fold]
    | split

theorem keep_execLossCondition {k : Watch} {a0 a1 s2} (h2 : Kept k s2) : KeptR k (execLossCondition a0 a1 s2) := by
  unfold execLossCondition
  repeat' first | with_reducible assumption | with_reducible apply keep_ifWf | with_reducible apply keep_lossArises

theorem keep_lossClears {k : Watch} {s0 a1 a2} (h0 : Kept k s0) : Kept k (lossClears s0 a1 a2) := by
  unfold lossClears
  repeat' first
    | with_reducible assumption
    | with_reducible first | apply keep_State_setMac
    | simp only [kept_mk, keptF_fold]
    | split

theorem keep_execLossConditionClear {k : Watch} {a0 a1 s2} (h2 : Kept k s2) : KeptR k (execLossConditionClear a0 a1 s2) := by
  unfold execLossConditionClear
  repeat' first | with_reducible assumption | with_reducible apply keep_ifWf | with_reducible apply keep_lossClears

theorem keep_slLeavesUp {k : Watch} {s0} (h0 : Kept k s0) : Kept k (slLeavesUp s0) := by
  unfold slLeavesUp
  repeat' first | with_reducible assumption | with_reducible apply keep_State_raise | simp only [kept_mk, keptF_fold]

theorem keep_slLaneDown {k : Watch} {s0 a1} (h0 : Kept k s0) : Kept k (slLaneDown s0 a1) := by
  unfold slLaneDown
  repeat' first
    | with_reducible assumption
    | with_reducible first | apply keep_State_setMac | apply keep_State_raise | apply keep_State_bump | apply keep_slLeavesUp
    | simp only [kept_mk, keptF_fold]
    | split

theorem keep_linkGoesDown {k : Watch} {s0 a1} (h0 : Kept k s0) : Kept k (linkGoesDown s0 a1) := by
  unfold linkGoesDown
  repeat' first | with_reducible assumption | with_reducible apply keep_trainStart | with_reducible apply keep_leaveUp | with_reducible apply keep_slLaneDown | split

theorem keep_execLinkDown {k : Watch} {a0 s1} (h1 : Kept k s1) : KeptR k (execLinkDown a0 s1) := by
  unfold execLinkDown
  repeat' first | with_reducible assumption | with_reducible apply keep_ifWf | with_reducible apply keep_whenever | with_reducible apply keep_linkGoesDown

theorem keep_mmStart {k : Watch} {s0 a1} (h0 : Kept k s0) : Kept k (mmStart s0 a1) := by
  unfold mmStart
  repeat' first | with_reducible assumption | with_reducible apply keep_State_emit | with_reducible apply keep_State_setMac | split

theorem keep_freshEgs {k : Watch} {s0 a1} (h0 : Kept k s0) : Kept k (freshEgs s0 a1) := by
  unfold freshEgs
  repeat' first | with_reducible assumption | with_reducible apply keep_State_setEgs | with_reducible apply keep_setBucket | with_reducible apply keep_foldl | intro _

theorem keep_portGoesUp {k : Watch} {s0 a1} (h0 : Kept k s0) : Kept k (portGoesUp s0 a1) := by
  unfold portGoesUp
  repeat' first
    | with_reducible assumption
    | with_reducible first | apply keep_finishDown | apply keep_State_setMac | apply keep_mmStart | apply keep_freshEgs | apply keep_State_tick1 | apply keep_State_raise
    | simp only [kept_mk, keptF_fold]
    | split

theorem keep_slLaneUp {k : Watch} {s0 a1} (h0 : Kept k s0) : Kept k (slLaneUp s0 a1) := by
  unfold slLaneUp
  repeat' first
    | with_reducible assumption
    | with_reducible first | apply keep_State_setMac | apply keep_State_raise
    | simp only [kept_mk, keptF_fold]
    | split

theorem keep_linkGoesUp {k : Watch} {s0 a1} (h0 : Kept k s0) : Kept k (linkGoesUp s0 a1) := by
  unfold linkGoesUp
  repeat' first | with_reducible assumption | with_reducible apply keep_portGoesUp | with_reducible apply keep_slLaneUp | split

theorem keep_execLinkUp {k : Watch} {a0 s1} (h1 : Kept k s1) : KeptR k (execLinkUp a0 s1) := by
  unfold execLinkUp
  repeat' first | with_reducible assumption | with_reducible apply keep_ifWf | with_reducible apply keep_whenever | with_reducible apply keep_linkGoesUp

theorem keep_altSwitch {k : Watch} {s0 a1} (h0 : Kept k s0) : Kept k (altSwitch s0 a1) := by
  unfold altSwitch
  repeat' first | with_reducible assumption | with_reducible apply keep_sgmiiSends | with_reducible apply keep_State_setMac

theorem keep_execAltModeSwitch {k : Watch} {a0 s1} (h1 : Kept k s1) : KeptR k (execAltModeSwitch a0 s1) := by
  unfold execAltModeSwitch
  repeat' first | with_reducible assumption | with_reducible apply keep_ifWf | with_reducible apply keep_whenever | with_reducible apply keep_altSwitch

theorem keep_mmAnswered {k : Watch} {s0 a1} (h0 : Kept k s0) : Kept k (mmAnswered s0 a1) := by
  unfold mmAnswered
  repeat' first | with_reducible assumption | with_reducible apply keep_State_setMac | split

theorem keep_execMmVerifyResponse {k : Watch} {a0 s1} (h1 : Kept k s1) : KeptR k (execMmVerifyResponse a0 s1) := by
  unfold execMmVerifyResponse
  repeat' first | with_reducible assumption | with_reducible apply keep_ifWf | with_reducible apply keep_mmAnswered

theorem keep_mmTimeout {k : Watch} {s0 a1} (h0 : Kept k s0) : Kept k (mmTimeout s0 a1) := by
  unfold mmTimeout
  repeat' first
    | with_reducible assumption
    | with_reducible first | apply keep_State_emit | apply keep_State_setMac | apply keep_State_raise
    | simp only [kept_mk, keptF_fold]
    | split

theorem keep_execMmVerifyTimeout {k : Watch} {a0 s1} (h1 : Kept k s1) : KeptR k (execMmVerifyTimeout a0 s1) := by
  unfold execMmVerifyTimeout
  repeat' first | with_reducible assumption | with_reducible apply keep_ifWf | with_reducible apply keep_mmTimeout

theorem keep_setPartial {k : Watch} {s0 a1 a2} (h0 : Kept k s0) : Kept k (setPartial s0 a1 a2) := by
  unfold setPartial
  repeat' first | with_reducible assumption | with_reducible apply keep_State_setMac

theorem keep_assyErr {k : Watch} {s0 a1} (h0 : Kept k s0) : Kept k (assyErr s0 a1) := by
  unfold assyErr
  repeat' first | with_reducible assumption | with_reducible apply keep_State_bump | with_reducible apply keep_setPartial

theorem keep_mmTake {k : Watch} {s0 a1 a2 a3 a4 a5 a6 a7} (h0 : Kept k s0) : Kept k (mmTake s0 a1 a2 a3 a4 a5 a6 a7) := by
  unfold mmTake
  repeat' first | with_reducible assumption | with_reducible apply keep_assyErr | with_reducible apply keep_receive | with_reducible apply keep_setPartial | split

theorem keep_mmStartFrag {k : Watch} {s0 a1 a2 a3 a4 a5 a6 a7} (h0 : Kept k s0) : Kept k (mmStartFrag s0 a1 a2 a3 a4 a5 a6 a7) := by
  unfold mmStartFrag
  repeat' first | with_reducible assumption | with_reducible apply keep_assyErr | with_reducible apply keep_mmTake | with_reducible apply keep_State_tick1 | split

theorem keep_mmContFrag {k : Watch} {s0 a1 a2 a3 a4 a5 a6 a7 a8} (h0 : Kept k s0) : Kept k (mmContFrag s0 a1 a2 a3 a4 a5 a6 a7 a8) := by
  unfold mmContFrag
  repeat' first
    | with_reducible assumption
    | with_reducible first | apply keep_State_bump | apply keep_assyErr | apply keep_mmTake
    | simp only [kept_mk, keptF_fold]
    | split

theorem keep_mmUnknown {k : Watch} {s0 a1} (h0 : Kept k s0) : Kept k (mmUnknown s0 a1) := by
  unfold mmUnknown
  repeat' first | with_reducible assumption | with_reducible apply keep_State_bump | with_reducible apply keep_setPartial | split

theorem keep_mmReceive {k : Watch} {s0 a1 a2 a3 a4 a5 a6 a7} (h0 : Kept k s0) : Kept k (mmReceive s0 a1 a2 a3 a4 a5 a6 a7) := by
  unfold mmReceive
  repeat' first
    | with_reducible assumption
    | with_reducible first | apply keep_receive | apply keep_State_tick1 | apply keep_mmStartFrag | apply keep_mmUnknown | apply keep_mmContFrag | apply keep_State_emit | apply keep_mmAnswered
    | simp only [kept_mk, keptF_fold]
    | split

theorem keep_execMmFragmentReceive {k : Watch} {a0 a1 a2 a3 a4 a5 a6 s7} (h7 : Kept k s7) : KeptR k (execMmFragmentReceive a0 a1 a2 a3 a4 a5 a6 s7) := by
  unfold execMmFragmentReceive
  repeat' first | with_reducible assumption | with_reducible apply keep_ifWf | with_reducible apply keep_whenever | with_reducible apply keep_mmReceive

theorem keep_setTc10 {k : Watch} {s0 a1 a2} (h0 : Kept k s0) : Kept k (setTc10 s0 a1 a2) := by
  unfold setTc10
  repeat' first | with_reducible assumption | with_reducible apply keep_State_setTphy

theorem keep_setHeld {k : Watch} {s0 a1 a2} (h0 : Kept k s0) : Kept k (setHeld s0 a1 a2) := by
  unfold setHeld
  repeat' first | with_reducible assumption | with_reducible apply keep_State_setEgs

theorem keep_tc10Negotiate {k : Watch} {s0 a1} (h0 : Kept k s0) : Kept k (tc10Negotiate s0 a1) := by
  unfold tc10Negotiate
  repeat' first | with_reducible assumption | with_reducible apply keep_State_emit | with_reducible apply keep_setHeld | with_reducible apply keep_setTc10 | split

theorem keep_execTc10SleepReq {k : Watch} {a0 a1 s2} (h2 : Kept k s2) : KeptR k (execTc10SleepReq a0 a1 s2) := by
  unfold execTc10SleepReq
  repeat' first | with_reducible assumption | with_reducible apply keep_ifWf | with_reducible apply keep_State_write | with_reducible apply keep_tc10Negotiate

theorem keep_tc10Wake {k : Watch} {s0 a1} (h0 : Kept k s0) : Kept k (tc10Wake s0 a1) := by
  unfold tc10Wake
  repeat' first | with_reducible assumption | with_reducible apply keep_State_emit | with_reducible apply keep_setTc10 | split

theorem keep_tc10Train {k : Watch} {s0 a1} (h0 : Kept k s0) : Kept k (tc10Train s0 a1) := by
  unfold tc10Train
  repeat' first
    | with_reducible assumption
    | with_reducible first | apply keep_setTc10 | apply keep_State_raise | apply keep_trainStart
    | simp only [kept_mk, keptF_fold]
    | split

theorem keep_execTc10WakeReq {k : Watch} {a0 a1 s2} (h2 : Kept k s2) : KeptR k (execTc10WakeReq a0 a1 s2) := by
  unfold execTc10WakeReq
  repeat' first | with_reducible assumption | with_reducible apply keep_ifWf | with_reducible apply keep_State_write | with_reducible apply keep_tc10Wake

theorem keep_tc10Requested {k : Watch} {s0 a1} (h0 : Kept k s0) : Kept k (tc10Requested s0 a1) := by
  unfold tc10Requested
  repeat' first | with_reducible assumption | with_reducible apply keep_tc10Negotiate | with_reducible apply keep_State_emit | with_reducible apply keep_State_bump | split

theorem keep_execTc10SleepRequestRx {k : Watch} {a0 s1} (h1 : Kept k s1) : KeptR k (execTc10SleepRequestRx a0 s1) := by
  unfold execTc10SleepRequestRx
  repeat' first | with_reducible assumption | with_reducible apply keep_ifWf | with_reducible apply keep_tc10Requested

theorem keep_tc10Sleeps {k : Watch} {s0 a1} (h0 : Kept k s0) : Kept k (tc10Sleeps s0 a1) := by
  unfold tc10Sleeps
  repeat' first | with_reducible assumption | with_reducible apply keep_leaveUp | with_reducible apply keep_setTc10 | with_reducible apply keep_State_bump | with_reducible apply keep_State_setMac | split

theorem keep_execTc10HandshakeDone {k : Watch} {a0 s1} (h1 : Kept k s1) : KeptR k (execTc10HandshakeDone a0 s1) := by
  unfold execTc10HandshakeDone
  repeat' first | with_reducible assumption | with_reducible apply keep_ifWf | with_reducible apply keep_tc10Sleeps

theorem keep_tc10Fails {k : Watch} {s0 a1} (h0 : Kept k s0) : Kept k (tc10Fails s0 a1) := by
  unfold tc10Fails
  repeat' first | with_reducible assumption | with_reducible apply keep_State_raise | with_reducible apply keep_setHeld | with_reducible apply keep_setTc10 | split

theorem keep_execTc10SleepFail {k : Watch} {a0 s1} (h1 : Kept k s1) : KeptR k (execTc10SleepFail a0 s1) := by
  unfold execTc10SleepFail
  repeat' first | with_reducible assumption | with_reducible apply keep_ifWf | with_reducible apply keep_tc10Fails

theorem keep_State_setMdio {k : Watch} {s0 a1 a2} (h0 : Kept k s0) : Kept k (State.setMdio s0 a1 a2) := by
  unfold State.setMdio
  repeat' first
    | with_reducible assumption
    | simp only [kept_mk, keptF_fold]

theorem keep_mdioStart {k : Watch} {s0 a1 a2 a3 a4} (h0 : Kept k s0) : Kept k (mdioStart s0 a1 a2 a3 a4) := by
  unfold mdioStart
  repeat' first | with_reducible assumption | with_reducible apply keep_State_setBitAt | with_reducible apply keep_State_emit | with_reducible apply keep_State_setReg | with_reducible apply keep_State_setMdio | split

theorem keep_mdioCmd {k : Watch} {a0 a1 a2 a3 a4 s5} (h5 : Kept k s5) : KeptR k (mdioCmd a0 a1 a2 a3 a4 s5) := by
  unfold mdioCmd
  repeat' first | with_reducible assumption | with_reducible apply keep_ifWf | with_reducible apply keep_State_write | with_reducible apply keep_mdioStart

theorem keep_execMdioC22Write {k : Watch} {a0 a1 a2 a3 s4} (h4 : Kept k s4) : KeptR k (execMdioC22Write a0 a1 a2 a3 s4) := by
  unfold execMdioC22Write
  repeat' first | with_reducible assumption | with_reducible apply keep_mdioCmd

theorem keep_execMdioC22Read {k : Watch} {a0 a1 a2 a3 s4} (h4 : Kept k s4) : KeptR k (execMdioC22Read a0 a1 a2 a3 s4) := by
  unfold execMdioC22Read
  repeat' first | with_reducible assumption | with_reducible apply keep_mdioCmd

theorem keep_execMdioC45Write {k : Watch} {a0 a1 a2 a3 s4} (h4 : Kept k s4) : KeptR k (execMdioC45Write a0 a1 a2 a3 s4) := by
  unfold execMdioC45Write
  repeat' first | with_reducible assumption | with_reducible apply keep_mdioCmd

theorem keep_execMdioC45Read {k : Watch} {a0 a1 a2 a3 s4} (h4 : Kept k s4) : KeptR k (execMdioC45Read a0 a1 a2 a3 s4) := by
  unfold execMdioC45Read
  repeat' first | with_reducible assumption | with_reducible apply keep_mdioCmd

theorem keep_mdioReply {k : Watch} {s0 a1 a2} (h0 : Kept k s0) : Kept k (mdioReply s0 a1 a2) := by
  unfold mdioReply
  repeat' first | with_reducible assumption | with_reducible apply keep_State_setBitAt | with_reducible apply keep_State_setReg | split

theorem keep_mdioEnds {k : Watch} {s0 a1 a2} (h0 : Kept k s0) : Kept k (mdioEnds s0 a1 a2) := by
  unfold mdioEnds
  repeat' first | with_reducible assumption | with_reducible apply keep_State_setMdio | with_reducible apply keep_mdioReply | with_reducible apply keep_State_raise | with_reducible apply keep_State_setBitAt | split

theorem keep_execMdioDone {k : Watch} {a0 a1 s2} (h2 : Kept k s2) : KeptR k (execMdioDone a0 a1 s2) := by
  unfold execMdioDone
  repeat' first | with_reducible assumption | with_reducible apply keep_ifWf | with_reducible apply keep_mdioEnds

theorem keep_prbsWrite {k : Watch} {s0 a1 a2 a3} (h0 : Kept k s0) : Kept k (prbsWrite s0 a1 a2 a3) := by
  unfold prbsWrite
  repeat' first
    | with_reducible assumption
    | with_reducible first | apply keep_logReg | apply keep_State_setReg | apply keep_trainStart | apply keep_leaveUp | apply keep_slLaneDown
    | simp only [kept_mk, keptF_fold]
    | split

theorem keep_execSdsPrbsWrite {k : Watch} {a0 a1 a2 s3} (h3 : Kept k s3) : KeptR k (execSdsPrbsWrite a0 a1 a2 s3) := by
  unfold execSdsPrbsWrite
  repeat' first | with_reducible assumption | with_reducible apply keep_ifWf | with_reducible apply keep_State_write | with_reducible apply keep_prbsWrite

theorem keep_cableStart {k : Watch} {s0 a1 a2} (h0 : Kept k s0) : Kept k (cableStart s0 a1 a2) := by
  unfold cableStart
  repeat' first | with_reducible assumption | with_reducible apply keep_logReg | with_reducible apply keep_State_setReg | with_reducible apply keep_State_setBitAt | with_reducible apply keep_State_setTphy

theorem keep_execCableTestStart {k : Watch} {a0 a1 s2} (h2 : Kept k s2) : KeptR k (execCableTestStart a0 a1 s2) := by
  unfold execCableTestStart
  repeat' first | with_reducible assumption | with_reducible apply keep_ifWf | with_reducible apply keep_State_write | with_reducible apply keep_cableStart

theorem keep_cableDone {k : Watch} {s0 a1 a2 a3} (h0 : Kept k s0) : Kept k (cableDone s0 a1 a2 a3) := by
  unfold cableDone
  repeat' first | with_reducible assumption | with_reducible apply keep_State_setTphy | with_reducible apply keep_State_raise | with_reducible apply keep_State_setReg | split

theorem keep_execDiagDone {k : Watch} {a0 a1 a2 s3} (h3 : Kept k s3) : KeptR k (execDiagDone a0 a1 a2 s3) := by
  unfold execDiagDone
  repeat' first | with_reducible assumption | with_reducible apply keep_ifWf | with_reducible apply keep_cableDone

end Sys2Proof.Laws
end

