-- ==== Sys2Proof/Laws/Keep2.lean ====
section
/-!
SUPPORT. `Kept` for the functions of Machine/: ParseStage, TableOps, Lookup, Tables.
-/
set_option linter.unusedSimpArgs false
namespace Sys2Proof.Laws
set_option Elab.async false
open Sys2Proof Sys2Proof.Machine

/-! ### ParseStage -/

theorem keep_pushLater {k : Watch} {s0 a1 a2 a3} (h0 : Kept k s0) : Kept k (pushLater s0 a1 a2 a3) := by
  unfold pushLater
  repeat' first
    | with_reducible assumption
    | with_reducible first | apply keep_State_setFrame | apply keep_foldl
    | intro _
    | split

theorem keep_useProc {k : Watch} {s0 a1 a2} (h0 : Kept k s0) : Kept k (useProc s0 a1 a2) := by
  unfold useProc
  repeat' first
    | with_reducible assumption
    | simp only [kept_mk, keptF_fold]

theorem keep_capture {k : Watch} {s0 a1} (h0 : Kept k s0) : Kept k (capture s0 a1) := by
  unfold capture
  repeat' first | with_reducible assumption | with_reducible apply keep_State_setReg | with_reducible apply keep_State_raise | with_reducible apply keep_State_setBitAt | with_reducible apply keep_foldl | intro _

theorem keep_countParse {k : Watch} {s0 a1} (h0 : Kept k s0) : Kept k (countParse s0 a1) := by
  unfold countParse
  repeat' first
    | with_reducible assumption
    | with_reducible first | apply keep_State_bump
    | simp only [kept_mk, keptF_fold]
    | split

theorem keep_parseEnds {k : Watch} {s0 a1 a2 a3} (h0 : Kept k s0) : Kept k (parseEnds s0 a1 a2 a3) := by
  unfold parseEnds
  repeat' first | with_reducible assumption | with_reducible apply keep_countParse | with_reducible apply keep_pushLater | with_reducible apply keep_State_setFrame

theorem keep_release {k : Watch} {s0 a1} (h0 : Kept k s0) : Kept k (release s0 a1) := by
  unfold release
  repeat' first
    | with_reducible assumption
    | with_reducible first | apply keep_State_setFrame | apply keep_capture
    | simp only [kept_mk, keptF_fold]
    | split

theorem keep_releasesDue {k : Watch} {s0} (h0 : Kept k s0) : Kept k (releasesDue s0) := by
  unfold releasesDue
  repeat' first | with_reducible assumption | with_reducible apply keep_release | with_reducible apply keep_foldl

theorem keep_rvParity {k : Watch} {s0 a1} (h0 : Kept k s0) : Kept k (rvParity s0 a1) := by
  unfold rvParity
  repeat' first
    | with_reducible assumption
    | with_reducible first | apply keep_State_report | apply keep_State_bump | apply keep_State_setPair | apply keep_State_raise
    | simp only [kept_mk, keptF_fold]
    | split

theorem keep_stepFrame {k : Watch} {s0 a1 a2 a3 a4} (h0 : Kept k s0) : Kept k (stepFrame s0 a1 a2 a3 a4) := by
  unfold stepFrame
  repeat' first | with_reducible assumption | with_reducible apply keep_useProc | with_reducible apply keep_State_setFrame | with_reducible apply keep_parseEnds | split

theorem keep_reparse {k : Watch} {s0 a1 a2 a3} (h0 : Kept k s0) : Kept k (reparse s0 a1 a2 a3) := by
  unfold reparse
  repeat' first | with_reducible assumption | with_reducible apply keep_rvParity | with_reducible apply keep_useProc | with_reducible apply keep_State_setFrame | with_reducible apply keep_State_tick1 | with_reducible apply keep_State_bump | split

theorem keep_startParse {k : Watch} {s0 a1 a2 a3} (h0 : Kept k s0) : Kept k (startParse s0 a1 a2 a3) := by
  unfold startParse
  repeat' first | with_reducible assumption | with_reducible apply keep_reparse | with_reducible apply keep_State_setFrame | with_reducible apply keep_stepFrame | split

theorem keep_readMicrocode {k : Watch} {s0 a1} (h0 : Kept k s0) : Kept k (readMicrocode s0 a1) := by
  unfold readMicrocode
  repeat' first
    | with_reducible assumption
    | with_reducible first | apply keep_memRead | apply keep_memLost | apply keep_noteReplay | apply keep_State_setFrame
    | simp only [kept_mk, keptF_fold]
    | split

theorem keep_dispatch {k : Watch} {s0 a1 a2} (h0 : Kept k s0) : Kept k (dispatch s0 a1 a2) := by
  unfold dispatch
  repeat' first
    | with_reducible assumption
    | with_reducible first | apply keep_State_bump | apply keep_retireFrame | apply keep_State_setFrame | apply keep_readMicrocode | apply keep_startParse
    | simp only [kept_mk, keptF_fold]
    | split

theorem keep_execParseDispatch {k : Watch} {a0 a1 s2} (h2 : Kept k s2) : KeptR k (execParseDispatch a0 a1 s2) := by
  unfold execParseDispatch
  repeat' first | with_reducible assumption | with_reducible apply keep_whenever | with_reducible apply keep_dispatch | with_reducible apply keptR_next

theorem keep_dispatchWaiting {k : Watch} {s0 a1} (h0 : Kept k s0) : Kept k (dispatchWaiting s0 a1) := by
  unfold dispatchWaiting
  repeat' first | with_reducible assumption | with_reducible apply keep_startParse | split

theorem keep_execDispatchWait {k : Watch} {a0 s1} (h1 : Kept k s1) : KeptR k (execDispatchWait a0 s1) := by
  unfold execDispatchWait
  repeat' first | with_reducible assumption | with_reducible apply keep_dispatchWaiting | with_reducible apply keptR_next

theorem keep_resumeParse {k : Watch} {s0 a1} (h0 : Kept k s0) : Kept k (resumeParse s0 a1) := by
  unfold resumeParse
  repeat' first
    | with_reducible assumption
    | with_reducible first | apply keep_stepFrame
    | simp only [kept_mk, keptF_fold]
    | split

theorem keep_execParseResume {k : Watch} {a0 s1} (h1 : Kept k s1) : KeptR k (execParseResume a0 s1) := by
  unfold execParseResume
  repeat' first | with_reducible assumption | with_reducible apply keep_resumeParse | with_reducible apply keptR_next

theorem keep_deepEnds {k : Watch} {s0 a1} (h0 : Kept k s0) : Kept k (deepEnds s0 a1) := by
  unfold deepEnds
  repeat' first
    | with_reducible assumption
    | with_reducible first | apply keep_parseEnds
    | simp only [kept_mk, keptF_fold]
    | split

theorem keep_execDeepParseEnd {k : Watch} {a0 s1} (h1 : Kept k s1) : KeptR k (execDeepParseEnd a0 s1) := by
  unfold execDeepParseEnd
  repeat' first | with_reducible assumption | with_reducible apply keep_deepEnds | with_reducible apply keptR_next

theorem keep_captWrite {k : Watch} {s0 a1 a2} (h0 : Kept k s0) : Kept k (captWrite s0 a1 a2) :=
  keep_logReg (keep_State_setReg h0)

theorem keep_execPrsCaptArm {k : Watch} {a0 a1 s2} (h2 : Kept k s2) : KeptR k (execPrsCaptArm a0 a1 s2) := by
  unfold execPrsCaptArm
  exact keep_State_write h2 (keep_captWrite h2)

/-! ### TableOps -/

theorem keep_State_setEnt {k : Watch} {s0 a1 a2 a3} (h0 : Kept k s0) : Kept k (State.setEnt s0 a1 a2 a3) :=
  ⟨h0.1, h0.2.1, h0.2.2.1, wf_set h0.2.2.2⟩

theorem keep_State_setOvl {k : Watch} {s0 a1} (h0 : Kept k s0) : Kept k (State.setOvl s0 a1) := by
  unfold State.setOvl
  repeat' first
    | with_reducible assumption
    | simp only [kept_mk, keptF_fold]

theorem keep_State_dropOvl {k : Watch} {s0 a1 a2} (h0 : Kept k s0) : Kept k (State.dropOvl s0 a1 a2) := by
  unfold State.dropOvl
  repeat' first
    | with_reducible assumption
    | simp only [kept_mk, keptF_fold]

theorem keep_State_hwSet {k : Watch} {s0 a1 a2 a3 a4} (h0 : Kept k s0) : Kept k (State.hwSet s0 a1 a2 a3 a4) := by
  unfold State.hwSet
  repeat' first | with_reducible assumption | with_reducible apply keep_State_setOvl | with_reducible apply keep_State_setEnt | split

theorem keep_setHit {k : Watch} {s0 a1 a2 a3} (h0 : Kept k s0) : Kept k (setHit s0 a1 a2 a3) := by
  unfold setHit
  repeat' first
    | with_reducible assumption
    | simp only [kept_mk, keptF_fold]

theorem keep_moveHits {k : Watch} {s0 a1 a2} (h0 : Kept k s0) : Kept k (moveHits s0 a1 a2) := by
  unfold moveHits
  repeat' first | with_reducible assumption | with_reducible apply keep_setHit

theorem keep_writeFdb {k : Watch} {s0 a1 a2} (h0 : Kept k s0) : Kept k (writeFdb s0 a1 a2) := by
  unfold writeFdb
  repeat' first
    | with_reducible assumption
    | with_reducible first | apply keep_State_setEnt | apply keep_State_bump | apply keep_State_raise
    | simp only [kept_mk, keptF_fold]
    | split

theorem keep_pathWrite {k : Watch} {a0 s1 a2} (h1 : Kept k s1) : Kept k (pathWrite a0 s1 a2) := by
  unfold pathWrite
  repeat' first | with_reducible assumption | with_reducible apply keep_State_bump | with_reducible apply keep_moveHits | with_reducible apply keep_writeFdb | split

theorem keep_stashReinsert {k : Watch} {s0 a1} (h0 : Kept k s0) : Kept k (stashReinsert s0 a1) := by
  unfold stashReinsert
  repeat' first | with_reducible assumption | with_reducible apply keep_State_setEnt | with_reducible apply keep_moveHits | split

theorem keep_freeFdb {k : Watch} {s0 a1} (h0 : Kept k s0) : Kept k (freeFdb s0 a1) := by
  unfold freeFdb
  repeat' first | with_reducible assumption | with_reducible apply keep_stashReinsert | with_reducible apply keep_setHit | with_reducible apply keep_State_setEnt

theorem keep_siltTable {k : Watch} {s0 a1 a2 a3 a4 a5} (h0 : Kept k s0) : Kept k (siltTable s0 a1 a2 a3 a4 a5) := by
  unfold siltTable
  repeat' first | with_reducible assumption | with_reducible apply keep_State_silt_

theorem keep_stageOne {k : Watch} {a0 a1 s2 a3} (h2 : Kept k s2) : Kept k (stageOne a0 a1 s2 a3) := by
  unfold stageOne
  repeat' first | with_reducible assumption | with_reducible apply keep_siltTable | with_reducible apply keep_State_setOvl

theorem keep_checkOvl {k : Watch} {s0} (h0 : Kept k s0) : Kept k (checkOvl s0) := by
  unfold checkOvl
  repeat' first | with_reducible assumption | with_reducible apply keep_State_raise | split

theorem keep_stageOps {k : Watch} {s0 a1 a2 a3} (h0 : Kept k s0) : Kept k (stageOps s0 a1 a2 a3).1 := by
  unfold stageOps
  repeat' first
    | with_reducible assumption
    | with_reducible first | apply keep_checkOvl | apply keep_stageOne | apply keep_foldl
    | simp only [kept_mk, keptF_fold]
    | split

theorem keep_commitPolicing {k : Watch} {s0 a1 a2} (h0 : Kept k s0) : Kept k (commitPolicing s0 a1 a2) := by
  unfold commitPolicing
  repeat' first
    | with_reducible assumption
    | simp only [kept_mk, keptF_fold]
    | split

theorem keep_recordLive {k : Watch} {a0 s1 a2} (h1 : Kept k s1) : Kept k (recordLive a0 s1 a2) := by
  unfold recordLive
  repeat' first | with_reducible assumption | with_reducible apply keep_State_setOvl | with_reducible apply keep_commitPolicing

theorem keep_recordsLive {k : Watch} {s0 a1 a2} (h0 : Kept k s0) : Kept k (recordsLive s0 a1 a2) := by
  unfold recordsLive
  repeat' first | with_reducible assumption | with_reducible apply keep_recordLive | with_reducible apply keep_foldl

theorem keep_armRecords {k : Watch} {s0 a1} (h0 : Kept k s0) : Kept k (armRecords s0 a1) := by
  unfold armRecords
  repeat' first
    | with_reducible assumption
    | simp only [kept_mk, keptF_fold]

theorem keep_unarmRecords {k : Watch} {s0 a1} (h0 : Kept k s0) : Kept k (unarmRecords s0 a1) := by
  unfold unarmRecords
  repeat' first
    | with_reducible assumption
    | simp only [kept_mk, keptF_fold]

theorem keep_discardRecords {k : Watch} {s0} (h0 : Kept k s0) : Kept k (discardRecords s0) := by
  unfold discardRecords
  repeat' first
    | with_reducible assumption
    | simp only [kept_mk, keptF_fold]

/-! ### Lookup -/

theorem keep_seqGenerate {k : Watch} {s0 a1 a2} (h0 : Kept k s0) : Kept k (seqGenerate s0 a1 a2).1 := by
  unfold seqGenerate
  repeat' first
    | with_reducible assumption
    | with_reducible first | apply keep_State_hwSet
    | simp only [kept_mk, keptF_fold]
    | split

theorem keep_seqRecover {k : Watch} {s0 a1 a2 a3} (h0 : Kept k s0) : Kept k (seqRecover s0 a1 a2 a3).1 := by
  unfold seqRecover
  repeat' first
    | with_reducible assumption
    | with_reducible first | apply keep_State_hwSet
    | simp only [kept_mk, keptF_fold]
    | split

theorem keep_State_setLearnFilter {k : Watch} {s0 a1 a2} (h0 : Kept k s0) : Kept k (State.setLearnFilter s0 a1 a2) := by
  unfold State.setLearnFilter
  repeat' first
    | with_reducible assumption
    | simp only [kept_mk, keptF_fold]
    | split

theorem keep_offerEvent {k : Watch} {s0 a1 a2} (h0 : Kept k s0) : Kept k (offerEvent s0 a1 a2) := by
  unfold offerEvent
  repeat' first
    | with_reducible assumption
    | with_reducible first | apply keep_State_bump | apply keep_State_setLearnFilter
    | simp only [kept_mk, keptF_fold]
    | split

theorem keep_learnFrom {k : Watch} {s0 a1 a2 a3 a4 a5} (h0 : Kept k s0) : Kept k (learnFrom s0 a1 a2 a3 a4 a5) := by
  unfold learnFrom
  repeat' first
    | with_reducible assumption
    | with_reducible first | apply keep_offerEvent | apply keep_setHit
    | simp only [kept_mk, keptF_fold]
    | split

theorem keep_loseEntry {k : Watch} {s0} (h0 : Kept k s0) : Kept k (loseEntry s0) := by
  unfold loseEntry
  extract_lets l r j
  split
  · exact keep_State_tick1 (kept_erase h0)
  · exact keep_State_tick1 (keep_State_setOvl h0)
  · exact keep_State_tick1 h0

theorem keep_readTables {k : Watch} {s0 a1} (h0 : Kept k s0) : Kept k (readTables s0 a1).1 := by
  unfold readTables
  repeat' first
    | with_reducible assumption
    | with_reducible first | apply keep_memRead | apply keep_State_setReg | apply keep_State_bump | apply keep_State_report | apply keep_State_raise | apply keep_memRepeated | apply keep_State_tick1 | apply keep_loseEntry
    | split
    | with_reducible refine kept_fst (by assumption) ?_

theorem keep_seqReset {k : Watch} {s0 a1 a2} (h0 : Kept k s0) : Kept k (seqReset s0 a1 a2) := by
  unfold seqReset
  repeat' first
    | with_reducible assumption
    | with_reducible first | apply keep_State_setEnt | apply keep_State_setOvl
    | simp only [kept_mk, keptF_fold]
    | split

theorem keep_seqLost {k : Watch} {s0 a1 a2 a3 a4} (h0 : Kept k s0) : Kept k (seqLost s0 a1 a2 a3 a4) := by
  unfold seqLost
  repeat' first | with_reducible assumption | with_reducible apply keep_State_bump | with_reducible apply keep_seqReset | with_reducible apply keep_memLost

theorem keep_readSequence {k : Watch} {s0 a1 a2 a3} (h0 : Kept k s0) : Kept k (readSequence s0 a1 a2 a3) := by
  unfold readSequence
  repeat' first
    | with_reducible assumption
    | with_reducible first | apply keep_memRead | apply keep_seqLost
    | split
    | with_reducible refine kept_fst (by assumption) ?_

theorem keep_lookDrop {k : Watch} {s0 a1 a2} (h0 : Kept k s0) : Kept k (lookDrop s0 a1 a2) := by
  unfold lookDrop
  repeat' first | with_reducible assumption | with_reducible apply keep_State_setFrame

theorem keep_lookResult {k : Watch} {s0 a1 a2 a3 a4 a5 a6} (h0 : Kept k s0) : Kept k (lookResult s0 a1 a2 a3 a4 a5 a6) := by
  unfold lookResult
  repeat' first
    | with_reducible assumption
    | with_reducible first | apply keep_State_setFrame | apply keep_readSequence | apply keep_noteReplay | apply keep_seqGenerate | apply keep_seqRecover | apply keep_lookDrop | apply keep_State_bump
    | simp only [kept_mk, keptF_fold]
    | split

theorem keep_lookDa {k : Watch} {s0 a1 a2 a3 a4 a5} (h0 : Kept k s0) : Kept k (lookDa s0 a1 a2 a3 a4 a5) := by
  unfold lookDa
  repeat' first
    | with_reducible assumption
    | with_reducible first | apply keep_lookDrop | apply keep_State_bump | apply keep_lookResult
    | simp only [kept_mk, keptF_fold]
    | split

theorem keep_lookWith {k : Watch} {s0 a1 a2 a3} (h0 : Kept k s0) : Kept k (lookWith s0 a1 a2 a3) := by
  unfold lookWith
  repeat' first
    | with_reducible assumption
    | with_reducible first | apply keep_lookDrop | apply keep_State_setFrame | apply keep_State_bump | apply keep_lookDa | apply keep_learnFrom
    | simp only [kept_mk, keptF_fold]
    | split

theorem keep_lookup {k : Watch} {s0 a1} (h0 : Kept k s0) : Kept k (lookup s0 a1) := by
  unfold lookup
  repeat' first | with_reducible assumption | with_reducible apply keep_release | with_reducible apply keep_State_bump | with_reducible apply keep_readTables | with_reducible apply keep_noteReplay | with_reducible apply keep_lookWith

theorem keep_execLookupStage {k : Watch} {a0 s1} (h1 : Kept k s1) : KeptR k (execLookupStage a0 s1) := by
  unfold execLookupStage
  repeat' first | with_reducible assumption | with_reducible apply keep_whenever | with_reducible apply keep_lookup | with_reducible apply keptR_next

/-! ### Tables -/

theorem keep_tueStatus {k : Watch} {s0 a1} (h0 : Kept k s0) : Kept k (tueStatus s0 a1).1 := by
  unfold tueStatus
  repeat' first
    | with_reducible assumption

theorem keep_tueFinish {k : Watch} {a0 a1} {r : State × TueAns} (h2 : Kept k r.1) : Kept k (tueFinish a0 a1 r) := by
  unfold tueFinish
  repeat' first | with_reducible assumption | with_reducible apply keep_State_emit | with_reducible apply keep_ringComplete | with_reducible apply keep_State_bump | split

theorem keep_tueRefuse {k : Watch} {s0 a1} (h0 : Kept k s0) : Kept k (tueRefuse s0 a1).1 := by
  unfold tueRefuse
  repeat' first | with_reducible assumption | with_reducible apply keep_tueStatus | with_reducible apply keep_State_siltRefused | split

theorem keep_tueRun {k : Watch} {s a1 a2 f} (h0 : Kept k s) (h3 : ∀ u, Kept k u → Kept k (f u).1) : Kept k (tueRun s a1 a2 f) := by
  unfold tueRun
  dsimp only
  split
  · exact h0
  · exact keep_tueFinish (h3 _ (keep_ringTake h0))

theorem keep_tueReads {k : Watch} {s0 a1} (h0 : Kept k s0) : Kept k (tueReads s0 a1).1 := by
  unfold tueReads
  repeat' first | with_reducible assumption | with_reducible apply keep_readTables | split

theorem keep_tueReadOp {k : Watch} {a0 s1} (h1 : Kept k s1) : Kept k (tueReadOp a0 s1).1 := by
  unfold tueReadOp
  repeat' first
    | with_reducible assumption
    | with_reducible first | apply keep_tueReads | apply keep_tueStatus
    | split
    | with_reducible refine kept_fst (by assumption) ?_

theorem keep_execTueRead {k : Watch} {a0 a1 s2} (h2 : Kept k s2) : KeptR k (execTueRead a0 a1 s2) := by
  unfold execTueRead
  repeat' first | with_reducible assumption | with_reducible apply keep_tueRun | with_reducible apply keep_tueReadOp | with_reducible apply keptR_next

theorem keep_tueSearchOp {k : Watch} {a0 a1 a2 s3} (h3 : Kept k s3) : Kept k (tueSearchOp a0 a1 a2 s3).1 := by
  unfold tueSearchOp
  repeat' first
    | with_reducible assumption
    | with_reducible first | apply keep_tueReads | apply keep_tueStatus
    | simp only [kept_mk, keptF_fold]
    | split

theorem keep_execTueSearch {k : Watch} {a0 a1 a2 a3 s4} (h4 : Kept k s4) : KeptR k (execTueSearch a0 a1 a2 a3 s4) := by
  unfold execTueSearch
  repeat' first | with_reducible assumption | with_reducible apply keep_tueRun | with_reducible apply keep_tueSearchOp | with_reducible apply keptR_next

theorem keep_tueStage {k : Watch} {s0 a1 a2 a3 a4 a5} (h0 : Kept k s0) : Kept k (tueStage s0 a1 a2 a3 a4 a5).1 := by
  unfold tueStage
  repeat' first
    | with_reducible assumption
    | with_reducible first | apply keep_stageOps | apply keep_tueStatus
    | split
    | with_reducible refine kept_fst (by assumption) ?_

theorem keep_tueWriteOp {k : Watch} {a0 a1 a2 a3 s4} (h4 : Kept k s4) : Kept k (tueWriteOp a0 a1 a2 a3 s4).1 := by
  unfold tueWriteOp
  repeat' first
    | with_reducible assumption
    | with_reducible first | apply keep_tueStage | apply keep_tueRefuse | apply keep_tueStatus
    | simp only [kept_mk, keptF_fold]
    | split

theorem keep_execTueWrite {k : Watch} {a0 a1 a2 a3 s4} (h4 : Kept k s4) : KeptR k (execTueWrite a0 a1 a2 a3 s4) := by
  unfold execTueWrite
  repeat' first | with_reducible assumption | with_reducible apply keep_tueRun | with_reducible apply keep_tueWriteOp | with_reducible apply keptR_next

theorem keep_tueInsertKey {k : Watch} {s0 a1 a2 a3} (h0 : Kept k s0) : Kept k (tueInsertKey s0 a1 a2 a3).1 := by
  unfold tueInsertKey
  repeat' first | with_reducible assumption | with_reducible apply keep_tueStage | with_reducible apply keep_tueStatus | split

theorem keep_tueInsertOp {k : Watch} {a0 a1 a2 a3 s4} (h4 : Kept k s4) : Kept k (tueInsertOp a0 a1 a2 a3 s4).1 := by
  unfold tueInsertOp
  repeat' first
    | with_reducible assumption
    | with_reducible first | apply keep_tueInsertKey | apply keep_tueRefuse | apply keep_tueStatus
    | simp only [kept_mk, keptF_fold]
    | split

theorem keep_execTueInsert {k : Watch} {a0 a1 a2 a3 s4} (h4 : Kept k s4) : KeptR k (execTueInsert a0 a1 a2 a3 s4) := by
  unfold execTueInsert
  repeat' first | with_reducible assumption | with_reducible apply keep_tueRun | with_reducible apply keep_tueInsertOp | with_reducible apply keptR_next

theorem keep_tueDeleteKey {k : Watch} {s0 a1 a2 a3} (h0 : Kept k s0) : Kept k (tueDeleteKey s0 a1 a2 a3).1 := by
  unfold tueDeleteKey
  repeat' first
    | with_reducible assumption
    | with_reducible first | apply keep_tueStatus | apply keep_tueStage
    | simp only [kept_mk, keptF_fold]
    | split

theorem keep_setFlow {k : Watch} {s0 a1 a2} (h0 : Kept k s0) : Kept k (setFlow s0 a1 a2) := by
  unfold setFlow
  repeat' first | with_reducible assumption | with_reducible apply keep_State_setEnt | simp only [kept_mk, keptF_fold]

theorem keep_tueDeleteFlow {k : Watch} {s0 a1 a2} (h0 : Kept k s0) : Kept k (tueDeleteFlow s0 a1 a2).1 := by
  unfold tueDeleteFlow
  repeat' first
    | with_reducible assumption
    | with_reducible first | apply keep_tueStatus | apply keep_siltTable | apply keep_setFlow
    | simp only [kept_mk, keptF_fold]
    | split

theorem keep_tueDeleteOp {k : Watch} {a0 a1 a2 a3 s4} (h4 : Kept k s4) : Kept k (tueDeleteOp a0 a1 a2 a3 s4).1 := by
  unfold tueDeleteOp
  repeat' first
    | with_reducible assumption
    | with_reducible first | apply keep_tueDeleteFlow | apply keep_tueDeleteKey | apply keep_tueRefuse | apply keep_tueStatus
    | simp only [kept_mk, keptF_fold]
    | split

theorem keep_execTueDelete {k : Watch} {a0 a1 a2 a3 s4} (h4 : Kept k s4) : KeptR k (execTueDelete a0 a1 a2 a3 s4) := by
  unfold execTueDelete
  repeat' first | with_reducible assumption | with_reducible apply keep_tueRun | with_reducible apply keep_tueDeleteOp | with_reducible apply keptR_next

theorem keep_flushOne {k : Watch} {a0 s1 a2} (h1 : Kept k s1) : Kept k (flushOne a0 s1 a2) := by
  unfold flushOne
  repeat' first | with_reducible assumption | with_reducible apply keep_siltTable | with_reducible apply keep_freeFdb

theorem keep_tueFlushOp {k : Watch} {a0 a1 s2} (h2 : Kept k s2) : Kept k (tueFlushOp a0 a1 s2).1 := by
  unfold tueFlushOp
  repeat' first | with_reducible assumption | with_reducible apply keep_flushOne | with_reducible apply keep_tueRefuse | with_reducible apply keep_tueStatus | with_reducible apply keep_foldl | split

theorem keep_execTueFlush {k : Watch} {a0 a1 s2} (h2 : Kept k s2) : KeptR k (execTueFlush a0 a1 s2) := by
  unfold execTueFlush
  repeat' first | with_reducible assumption | with_reducible apply keep_tueRun | with_reducible apply keep_tueFlushOp | with_reducible apply keptR_next

theorem keep_copyOut {k : Watch} {s0 a1 a2} (h0 : Kept k s0) : Kept k (copyOut s0 a1 a2) := by
  unfold copyOut
  repeat' first | with_reducible assumption | with_reducible apply keep_State_bump | with_reducible apply keep_writeFdb | with_reducible apply keep_State_setEnt | with_reducible apply keep_State_setOvl | split

theorem keep_execOverlayCopyOut {k : Watch} {a0 a1 s2} (h2 : Kept k s2) : KeptR k (execOverlayCopyOut a0 a1 s2) := by
  unfold execOverlayCopyOut
  repeat' first | with_reducible assumption | with_reducible apply keep_copyOut | with_reducible apply keptR_next

theorem keep_retireRecord {k : Watch} {s0 a1 a2} (h0 : Kept k s0) : Kept k (retireRecord s0 a1 a2) := by
  unfold retireRecord
  repeat' first
    | with_reducible assumption
    | with_reducible first | apply keep_State_dropOvl | apply keep_State_bump | apply keep_stashReinsert
    | simp only [kept_mk, keptF_fold]
    | split

theorem keep_execOverlayRetire {k : Watch} {a0 a1 s2} (h2 : Kept k s2) : KeptR k (execOverlayRetire a0 a1 s2) := by
  unfold execOverlayRetire
  repeat' first | with_reducible assumption | with_reducible apply keep_retireRecord | with_reducible apply keptR_next

theorem keep_queueEvent {k : Watch} {s0 a1} (h0 : Kept k s0) : Kept k (queueEvent s0 a1) := by
  unfold queueEvent
  repeat' first
    | with_reducible assumption
    | with_reducible first | apply keep_State_raise | apply keep_State_bump
    | simp only [kept_mk, keptF_fold]
    | split

theorem keep_releaseEvent {k : Watch} {s0 a1} (h0 : Kept k s0) : Kept k (releaseEvent s0 a1) := by
  unfold releaseEvent
  repeat' first | with_reducible assumption | with_reducible apply keep_queueEvent | with_reducible apply keep_State_setLearnFilter | split

theorem keep_execLearnRelease {k : Watch} {a0 s1} (h1 : Kept k s1) : KeptR k (execLearnRelease a0 s1) := by
  unfold execLearnRelease
  repeat' first | with_reducible assumption | with_reducible apply keep_ifWf | with_reducible apply keep_releaseEvent

theorem keep_setMoves {k : Watch} {s0 a1 a2} (h0 : Kept k s0) : Kept k (setMoves s0 a1 a2) := by
  unfold setMoves
  repeat' first
    | with_reducible assumption
    | simp only [kept_mk, keptF_fold]

theorem keep_setPortBit {k : Watch} {s0 a1 a2} (h0 : Kept k s0) : Kept k (setPortBit s0 a1 a2) := by
  unfold setPortBit
  repeat' first | with_reducible assumption | with_reducible apply keep_State_setPair

theorem keep_markFlapped {k : Watch} {s0 a1} (h0 : Kept k s0) : Kept k (markFlapped s0 a1) := by
  unfold markFlapped
  repeat' first
    | with_reducible assumption
    | simp only [kept_mk, keptF_fold]

theorem keep_portFlaps {k : Watch} {s0 a1} (h0 : Kept k s0) : Kept k (portFlaps s0 a1) := by
  unfold portFlaps
  repeat' first
    | with_reducible assumption
    | with_reducible first | apply keep_State_raise | apply keep_setPortBit | apply keep_markFlapped | apply keep_State_report
    | simp only [kept_mk, keptF_fold]
    | split

theorem keep_countMove {k : Watch} {s0 a1} (h0 : Kept k s0) : Kept k (countMove s0 a1) := by
  unfold countMove
  repeat' first
    | with_reducible assumption
    | with_reducible first | apply keep_setMoves | apply keep_portFlaps
    | simp only [kept_mk, keptF_fold]
    | split

theorem keep_learnAt {k : Watch} {s0 a1 a2} (h0 : Kept k s0) : Kept k (learnAt s0 a1 a2) := by
  unfold learnAt
  repeat' first
    | with_reducible assumption
    | with_reducible first | apply keep_State_bump | apply keep_State_setEnt | apply keep_countMove
    | simp only [kept_mk, keptF_fold]
    | split

theorem keep_learnNew {k : Watch} {s0 a1} (h0 : Kept k s0) : Kept k (learnNew s0 a1) := by
  unfold learnNew
  repeat' first | with_reducible assumption | with_reducible apply keep_State_bump | with_reducible apply keep_pathWrite | with_reducible apply keep_foldl | split

theorem keep_applyEvent {k : Watch} {s0} (h0 : Kept k s0) : Kept k (applyEvent s0) := by
  unfold applyEvent
  repeat' first
    | with_reducible assumption
    | with_reducible first | apply keep_State_bump | apply keep_learnAt | apply keep_learnNew
    | simp only [kept_mk, keptF_fold]
    | split

theorem keep_execLearnApply {k : Watch} {s0} (h0 : Kept k s0) : KeptR k (execLearnApply s0) := by
  unfold execLearnApply
  repeat' first | with_reducible assumption | with_reducible apply keep_whenever | with_reducible apply keep_applyEvent | with_reducible apply keptR_next

theorem keep_execFlapIntervalEnd {k : Watch} {s0} (h0 : Kept k s0) : KeptR k (execFlapIntervalEnd s0) := by
  unfold execFlapIntervalEnd
  repeat' first | with_reducible assumption | with_reducible apply keep_whenever | with_reducible apply keptR_next | simp only [kept_mk, keptF_fold]

theorem keep_execTueFrozenClear {k : Watch} {a0 a1 a2 s3} (h3 : Kept k s3) : KeptR k (execTueFrozenClear a0 a1 a2 s3) := by
  unfold execTueFrozenClear
  repeat' first | with_reducible assumption | with_reducible apply keep_State_write | with_reducible apply keep_State_setReg | with_reducible apply keptR_next

theorem keep_readHit {k : Watch} {s0 a1 a2} (h0 : Kept k s0) : Kept k (readHit s0 a1 a2) := by
  unfold readHit
  repeat' first
    | with_reducible assumption
    | with_reducible first | apply keep_memRead | apply keep_setHit | apply keep_memLost
    | split
    | with_reducible refine kept_fst (by assumption) ?_

theorem keep_ageOne {k : Watch} {s0 a1} (h0 : Kept k s0) : Kept k (ageOne s0 a1) := by
  unfold ageOne
  repeat' first
    | with_reducible assumption
    | with_reducible first | apply keep_readHit | apply keep_setHit | apply keep_State_setEnt | apply keep_freeFdb | apply keep_State_bump
    | simp only [kept_mk, keptF_fold]
    | split

theorem keep_execAgeingSweep {k : Watch} {s0} (h0 : Kept k s0) : KeptR k (execAgeingSweep s0) := by
  unfold execAgeingSweep
  repeat' first | with_reducible assumption | with_reducible apply keep_whenever | with_reducible apply keep_ageOne | with_reducible apply keptR_next | with_reducible apply keep_foldl | simp only [kept_mk, keptF_fold]

theorem keep_purgePort {k : Watch} {s0 a1} (h0 : Kept k s0) : Kept k (purgePort s0 a1) := by
  unfold purgePort
  repeat' first
    | with_reducible assumption
    | with_reducible first | apply keep_freeFdb | apply keep_State_bump | apply keep_foldl
    | intro _
    | simp only [kept_mk, keptF_fold]

theorem keep_execFdbPortPurge {k : Watch} {a0 s1} (h1 : Kept k s1) : KeptR k (execFdbPortPurge a0 s1) := by
  unfold execFdbPortPurge
  repeat' first | with_reducible assumption | with_reducible apply keep_ifWf | with_reducible apply keep_whenever | with_reducible apply keep_purgePort

end Sys2Proof.Laws
end

