-- ==== Sys2Proof/Laws/Keep3.lean ====
section
/-!
SUPPORT. `Kept` for the functions of Machine/: Firewall, Policy, BusOps, Can.
-/
set_option linter.unusedSimpArgs false
namespace Sys2Proof.Laws
set_option Elab.async false
open Sys2Proof Sys2Proof.Machine

/-! ### Firewall -/

theorem keep_checkFlows {k : Watch} {s0} (h0 : Kept k s0) : Kept k (checkFlows s0) := by
  unfold checkFlows
  repeat' first | with_reducible assumption | with_reducible apply keep_State_raise | split

theorem keep_inFlow {k : Watch} {s0 a1 a2} (h0 : Kept k s0) : Kept k (inFlow s0 a1 a2).1 := by
  unfold inFlow
  repeat' first
    | with_reducible assumption
    | with_reducible first | apply keep_State_raise | apply keep_setFlow
    | simp only [kept_mk, keptF_fold]
    | split

theorem keep_openFlow {k : Watch} {s0 a1 a2 a3 a4} (h0 : Kept k s0) : Kept k (openFlow s0 a1 a2 a3 a4).1 := by
  unfold openFlow
  repeat' first
    | with_reducible assumption
    | with_reducible first | apply keep_State_raise | apply keep_checkFlows | apply keep_State_bump | apply keep_setFlow
    | simp only [kept_mk, keptF_fold]
    | split

theorem keep_trackFlow {k : Watch} {s0 a1 a2 a3 a4} (h0 : Kept k s0) : Kept k (trackFlow s0 a1 a2 a3 a4).1 := by
  unfold trackFlow
  repeat' first | with_reducible assumption | with_reducible apply keep_inFlow | with_reducible apply keep_openFlow | split

theorem keep_byRules {k : Watch} {s0 a1 a2 a3 a4} (h0 : Kept k s0) : Kept k (byRules s0 a1 a2 a3 a4).1 := by
  unfold byRules
  repeat' first | with_reducible assumption | with_reducible apply keep_trackFlow | with_reducible apply keep_inFlow | split

theorem keep_decideZone {k : Watch} {s0 a1 a2 a3} (h0 : Kept k s0) : Kept k (decideZone s0 a1 a2 a3).1 := by
  unfold decideZone
  repeat' first
    | with_reducible assumption
    | with_reducible first | apply keep_byRules
    | simp only [kept_mk, keptF_fold]
    | split

theorem keep_countZone {k : Watch} {s0 a1 a2 a3} (h0 : Kept k s0) : Kept k (countZone s0 a1 a2 a3) := by
  unfold countZone
  repeat' first
    | with_reducible assumption
    | with_reducible first | apply keep_State_bumpBy
    | simp only [kept_mk, keptF_fold]
    | split

theorem keep_zoneStep {k : Watch} {a0 a1} {x : State × FwResult} {a3} (h2 : Kept k x.1) : Kept k (zoneStep a0 a1 x a3).1 := by
  unfold zoneStep
  repeat' first
    | with_reducible assumption
    | with_reducible first | apply keep_decideZone | apply keep_countZone
    | simp only [kept_mk, keptF_fold]
    | split

theorem keep_flowParity {k : Watch} {s0 a1 a2} (h0 : Kept k s0) : Kept k (flowParity s0 a1 a2) := by
  unfold flowParity
  repeat' first | with_reducible assumption | with_reducible apply keep_State_report | with_reducible apply keep_State_bump | with_reducible apply keep_memRepeated

theorem keep_readFlows {k : Watch} {s0 a1} (h0 : Kept k s0) : Kept k (readFlows s0 a1) := by
  unfold readFlows
  repeat' first
    | with_reducible assumption
    | with_reducible first | apply keep_memRead | apply keep_flowParity | apply keep_setFlow | apply keep_State_tick1
    | split
    | with_reducible refine kept_fst (by assumption) ?_

theorem keep_firewall {k : Watch} {s0 a1} (h0 : Kept k s0) : Kept k (firewall s0 a1).1 := by
  unfold firewall
  repeat' first | with_reducible assumption | with_reducible apply keep_State_bump | with_reducible apply keep_readFlows | with_reducible apply keep_zoneStep | with_reducible apply keep_foldl1

theorem keep_sweepFlow {k : Watch} {s0 a1} (h0 : Kept k s0) : Kept k (sweepFlow s0 a1) := by
  unfold sweepFlow
  repeat' first
    | with_reducible assumption
    | with_reducible first | apply keep_State_bump | apply keep_setFlow
    | simp only [kept_mk, keptF_fold]
    | split

theorem keep_execFlowSweep {k : Watch} {s0} (h0 : Kept k s0) : KeptR k (execFlowSweep s0) := by
  unfold execFlowSweep
  repeat' first | with_reducible assumption | with_reducible apply keep_sweepFlow | with_reducible apply keptR_next | with_reducible apply keep_foldl | simp only [kept_mk, keptF_fold]

/-! ### Policy -/

theorem keep_blockReport {k : Watch} {s0 a1 a2} (h0 : Kept k s0) : Kept k (blockReport s0 a1 a2) := by
  unfold blockReport
  repeat' first | with_reducible assumption | with_reducible apply keep_State_report | with_reducible apply keep_State_raise | simp only [kept_mk, keptF_fold]

theorem keep_blockFilter {k : Watch} {s0 a1} (h0 : Kept k s0) : Kept k (blockFilter s0 a1) := by
  unfold blockFilter
  repeat' first | with_reducible assumption | with_reducible apply keep_blockReport | simp only [kept_mk, keptF_fold]

theorem keep_blockGate {k : Watch} {s0 a1 a2} (h0 : Kept k s0) : Kept k (blockGate s0 a1 a2) := by
  unfold blockGate
  repeat' first | with_reducible assumption | with_reducible apply keep_blockReport | simp only [kept_mk, keptF_fold]

theorem keep_State_setMeterSt {k : Watch} {s0 a1 a2} (h0 : Kept k s0) : Kept k (State.setMeterSt s0 a1 a2) := by
  unfold State.setMeterSt
  repeat' first
    | with_reducible assumption
    | simp only [kept_mk, keptF_fold]

theorem keep_sfpLost {k : Watch} {s0 a1} (h0 : Kept k s0) : Kept k (sfpLost s0 a1) := by
  unfold sfpLost
  repeat' first | with_reducible assumption | with_reducible apply keep_State_report | with_reducible apply keep_State_bump | with_reducible apply keep_memRepeated | simp only [kept_mk, keptF_fold]

theorem keep_readMeter {k : Watch} {s0 a1 a2} (h0 : Kept k s0) : Kept k (readMeter s0 a1 a2) := by
  unfold readMeter
  repeat' first
    | with_reducible assumption
    | with_reducible first | apply keep_memRead | apply keep_sfpLost | apply keep_State_setMeterSt
    | simp only [kept_mk, keptF_fold]
    | split
    | with_reducible refine kept_fst (by assumption) ?_

theorem keep_readBlocked {k : Watch} {s0 a1} (h0 : Kept k s0) (h1 : ∀ x0, Kept k x0 → Kept k (a1 x0)) : Kept k (readBlocked s0 a1) := by
  have hd := keep_memRead (a1 := 9) (a2 := 0) (a3 := none) h0
  unfold readBlocked
  split
  · rename_i e; rw [e] at hd; exact hd
  · rename_i e; rw [e] at hd; exact keep_sfpLost (h1 _ hd)

theorem keep_meterCharge {k : Watch} {s0 a1 a2 a3 a4 a5 a6} (h0 : Kept k s0) : Kept k (meterCharge s0 a1 a2 a3 a4 a5 a6).1 := by
  unfold meterCharge
  repeat' first
    | with_reducible assumption
    | with_reducible first | apply keep_readMeter | apply keep_State_setMeterSt | apply keep_blockReport
    | simp only [kept_mk, keptF_fold]
    | split

theorem keep_sfpDrop {k : Watch} {s0 a1 a2 a3} (h0 : Kept k s0) : Kept k (sfpDrop s0 a1 a2 a3) := by
  unfold sfpDrop
  repeat' first
    | with_reducible assumption
    | with_reducible first | apply keep_State_bump
    | simp only [kept_mk, keptF_fold]
    | split

theorem keep_sfpMeter {k : Watch} {s0 a1 a2 a3 a4 a5} (h0 : Kept k s0) : Kept k (sfpMeter s0 a1 a2 a3 a4 a5).1 := by
  unfold sfpMeter
  repeat' first
    | with_reducible assumption
    | with_reducible first | apply keep_meterCharge | apply keep_sfpDrop
    | simp only [kept_mk, keptF_fold]
    | split
    | with_reducible refine kept_fst (by assumption) ?_

theorem keep_sfpChecks {k : Watch} {s0 a1 a2 a3 a4} (h0 : Kept k s0) : Kept k (sfpChecks s0 a1 a2 a3 a4).1 := by
  unfold sfpChecks
  repeat' first
    | with_reducible assumption
    | with_reducible first | apply keep_sfpDrop | apply keep_blockFilter | apply keep_sfpMeter | apply keep_blockGate
    | simp only [kept_mk, keptF_fold]
    | split

theorem keep_readBits {k : Watch} {s0 a1 a2 a3} (h0 : Kept k s0) : Kept k (readBits s0 a1 a2 a3) := by
  unfold readBits
  repeat' first
    | with_reducible assumption
    | with_reducible first | apply keep_readBlocked | apply keep_State_setMeterSt
    | intro _
    | simp only [kept_mk, keptF_fold]
    | split

theorem keep_policing {k : Watch} {s0 a1 a2} (h0 : Kept k s0) : Kept k (policing s0 a1 a2).1 := by
  unfold policing
  repeat' first
    | with_reducible assumption
    | with_reducible first | apply keep_State_bump | apply keep_readBits | apply keep_sfpChecks
    | simp only [kept_mk, keptF_fold]
    | split

theorem keep_ringVerdict {k : Watch} {s0 a1 a2 a3} (h0 : Kept k s0) : Kept k (ringVerdict s0 a1 a2 a3) := by
  unfold ringVerdict
  repeat' first
    | with_reducible assumption
    | with_reducible first | apply keep_State_setRing
    | simp only [kept_mk, keptF_fold]
    | split

theorem keep_policyDrop {k : Watch} {s0 a1 a2} (h0 : Kept k s0) : Kept k (policyDrop s0 a1 a2) := by
  unfold policyDrop
  repeat' first | with_reducible assumption | with_reducible apply keep_ringVerdict | with_reducible apply keep_dropLearn | with_reducible apply keep_State_setFrame | simp only [kept_mk, keptF_fold]

theorem keep_learnPass {k : Watch} {s0 a1 a2} (h0 : Kept k s0) : Kept k (learnPass s0 a1 a2) := by
  unfold learnPass
  repeat' first
    | with_reducible assumption
    | with_reducible first | apply keep_dropLearn
    | simp only [kept_mk, keptF_fold]
    | split

theorem keep_lateCopy {k : Watch} {a0 s1 a2} (h1 : Kept k s1) : Kept k (lateCopy a0 s1 a2) := by
  unfold lateCopy
  repeat' first
    | with_reducible assumption
    | with_reducible first | apply keep_State_bump | apply keep_State_setEgs | apply keep_removeCopy | apply keep_foldl
    | intro _
    | simp only [kept_mk, keptF_fold]
    | split

theorem keep_lateDrop {k : Watch} {s0 a1} (h0 : Kept k s0) : Kept k (lateDrop s0 a1) := by
  unfold lateDrop
  repeat' first | with_reducible assumption | with_reducible apply keep_State_setFrame | with_reducible apply keep_lateCopy | with_reducible apply keep_foldl | simp only [kept_mk, keptF_fold]

theorem keep_endFails {k : Watch} {s0 a1} (h0 : Kept k s0) : Kept k (endFails s0 a1) := by
  unfold endFails
  repeat' first
    | with_reducible assumption
    | with_reducible first | apply keep_State_bump | apply keep_State_setFrame | apply keep_lateDrop
    | simp only [kept_mk, keptF_fold]
    | split

theorem keep_execEndCheck {k : Watch} {a0 s1} (h1 : Kept k s1) : KeptR k (execEndCheck a0 s1) := by
  unfold execEndCheck
  repeat' first | with_reducible assumption | with_reducible apply keep_whenever | with_reducible apply keep_endFails | with_reducible apply keptR_next | simp only [kept_mk, keptF_fold]

theorem keep_policyKeep {k : Watch} {s0 a1 a2 a3} (h0 : Kept k s0) : Kept k (policyKeep s0 a1 a2 a3) := by
  unfold policyKeep
  repeat' first
    | with_reducible assumption
    | with_reducible first | apply keep_ringVerdict | apply keep_learnPass | apply keep_State_setFrame | apply keep_lateDrop
    | simp only [kept_mk, keptF_fold]
    | split

theorem keep_policy {k : Watch} {s0 a1} (h0 : Kept k s0) : Kept k (policy s0 a1) := by
  unfold policy
  repeat' first
    | with_reducible assumption
    | with_reducible first | apply keep_policyDrop | apply keep_firewall | apply keep_policing | apply keep_noteReplay | apply keep_policyKeep
    | simp only [kept_mk, keptF_fold]
    | split

theorem keep_execPolicyStage {k : Watch} {a0 s1} (h1 : Kept k s1) : KeptR k (execPolicyStage a0 s1) := by
  unfold execPolicyStage
  repeat' first | with_reducible assumption | with_reducible apply keep_whenever | with_reducible apply keep_policy | with_reducible apply keptR_next | simp only [kept_mk, keptF_fold]

/-! ### BusOps -/

theorem keep_State_setCan {k : Watch} {s0 a1 a2} (h0 : Kept k s0) : Kept k (State.setCan s0 a1 a2) := by
  unfold State.setCan
  repeat' first
    | with_reducible assumption
    | simp only [kept_mk, keptF_fold]

theorem keep_State_setAuth {k : Watch} {s0 a1 a2} (h0 : Kept k s0) : Kept k (State.setAuth s0 a1 a2) := by
  unfold State.setAuth
  repeat' first
    | with_reducible assumption
    | simp only [kept_mk, keptF_fold]

theorem keep_placeMsg {k : Watch} {s0 a1 a2} (h0 : Kept k s0) : Kept k (placeMsg s0 a1 a2) := by
  unfold placeMsg
  repeat' first
    | with_reducible assumption
    | with_reducible first | apply keep_State_setCan | apply keep_State_bump
    | simp only [kept_mk, keptF_fold]
    | split

theorem keep_refillBuf {k : Watch} {s0 a1 a2} (h0 : Kept k s0) : Kept k (refillBuf s0 a1 a2) := by
  unfold refillBuf
  repeat' first
    | with_reducible assumption
    | with_reducible first | apply keep_State_setCan
    | simp only [kept_mk, keptF_fold]
    | split

theorem keep_txEvent {k : Watch} {s0 a1 a2 a3 a4} (h0 : Kept k s0) : Kept k (txEvent s0 a1 a2 a3 a4) := by
  unfold txEvent
  repeat' first
    | with_reducible assumption
    | with_reducible first | apply keep_State_raise | apply keep_State_setCan | apply keep_State_bump
    | simp only [kept_mk, keptF_fold]
    | split

theorem keep_authUsed {k : Watch} {s0 a1 a2} (h0 : Kept k s0) : Kept k (authUsed s0 a1 a2) := by
  unfold authUsed
  repeat' first
    | with_reducible assumption
    | with_reducible first | apply keep_State_setAuth | apply keep_State_raise
    | simp only [kept_mk, keptF_fold]
    | split

theorem keep_gweRequest {k : Watch} {s0 a1} (h0 : Kept k s0) : Kept k (gweRequest s0 a1) := by
  unfold gweRequest
  repeat' first
    | with_reducible assumption
    | with_reducible first | apply keep_State_bump
    | simp only [kept_mk, keptF_fold]
    | split

/-! ### Can -/

theorem keep_takeMode {k : Watch} {s0 a1 a2} (h0 : Kept k s0) : Kept k (takeMode s0 a1 a2) := by
  unfold takeMode
  repeat' first | with_reducible assumption | with_reducible apply keep_State_setCan

theorem keep_canModeCommit {k : Watch} {s0 a1} (h0 : Kept k s0) : Kept k (canModeCommit s0 a1) := by
  unfold canModeCommit
  repeat' first
    | with_reducible assumption
    | with_reducible first | apply keep_State_setCan
    | simp only [kept_mk, keptF_fold]
    | split

theorem keep_canSleepEntry {k : Watch} {s0 a1} (h0 : Kept k s0) : Kept k (canSleepEntry s0 a1) := by
  unfold canSleepEntry
  repeat' first
    | with_reducible assumption
    | with_reducible first | apply keep_State_setCan
    | simp only [kept_mk, keptF_fold]
    | split

theorem keep_canWake {k : Watch} {s0 a1} (h0 : Kept k s0) : Kept k (canWake s0 a1) := by
  unfold canWake
  repeat' first
    | with_reducible assumption
    | with_reducible first | apply keep_State_setCan
    | simp only [kept_mk, keptF_fold]
    | split

theorem keep_execCanBusIntegrationDone {k : Watch} {a0 s1} (h1 : Kept k s1) : KeptR k (execCanBusIntegrationDone a0 s1) := by
  unfold execCanBusIntegrationDone
  repeat' first | with_reducible assumption | with_reducible apply keep_ifWf | with_reducible apply keep_takeMode | split

theorem keep_unlockToList {k : Watch} {s0 a1} (h0 : Kept k s0) : Kept k (unlockToList s0 a1) := by
  unfold unlockToList
  repeat' first
    | with_reducible assumption
    | with_reducible first | apply keep_refillBuf | apply keep_State_setCan
    | simp only [kept_mk, keptF_fold]
    | split

theorem keep_modeAtIdle {k : Watch} {s0 a1} (h0 : Kept k s0) : Kept k (modeAtIdle s0 a1) := by
  unfold modeAtIdle
  repeat' first
    | with_reducible assumption
    | with_reducible first | apply keep_takeMode | apply keep_unlockToList | apply keep_State_setCan
    | simp only [kept_mk, keptF_fold]
    | split

theorem keep_execCanModeAtIdle {k : Watch} {a0 s1} (h1 : Kept k s1) : KeptR k (execCanModeAtIdle a0 s1) := by
  unfold execCanModeAtIdle
  repeat' first | with_reducible assumption | with_reducible apply keep_ifWf | with_reducible apply keep_modeAtIdle

theorem keep_busOff {k : Watch} {s0 a1} (h0 : Kept k s0) : Kept k (busOff s0 a1) := by
  unfold busOff
  repeat' first | with_reducible assumption | with_reducible apply keep_State_setCan | with_reducible apply keep_State_report | with_reducible apply keep_State_raise | with_reducible apply keep_State_bump

theorem keep_settleErrors {k : Watch} {s0 a1} (h0 : Kept k s0) : Kept k (settleErrors s0 a1) := by
  unfold settleErrors
  repeat' first
    | with_reducible assumption
    | with_reducible first | apply keep_busOff | apply keep_State_setCan | apply keep_State_raise
    | simp only [kept_mk, keptF_fold]
    | split

theorem keep_busError {k : Watch} {s0 a1 a2} (h0 : Kept k s0) : Kept k (busError s0 a1 a2) := by
  unfold busError
  repeat' first
    | with_reducible assumption
    | with_reducible first | apply keep_State_bump | apply keep_settleErrors | apply keep_State_setCan
    | simp only [kept_mk, keptF_fold]
    | split

theorem keep_execCanError {k : Watch} {a0 a1 s2} (h2 : Kept k s2) : KeptR k (execCanError a0 a1 s2) := by
  unfold execCanError
  repeat' first | with_reducible assumption | with_reducible apply keep_ifWf | with_reducible apply keep_busError

theorem keep_execCanBoRecover {k : Watch} {a0 a1 s2} (h2 : Kept k s2) : KeptR k (execCanBoRecover a0 a1 s2) := by
  unfold execCanBoRecover
  repeat' first | with_reducible assumption | with_reducible apply keep_ifWf | with_reducible apply keep_State_write | with_reducible apply keep_State_setCan | split

theorem keep_execBusoffRecovered {k : Watch} {a0 s1} (h1 : Kept k s1) : KeptR k (execBusoffRecovered a0 s1) := by
  unfold execBusoffRecovered
  repeat' first | with_reducible assumption | with_reducible apply keep_ifWf | with_reducible apply keep_whenever | with_reducible apply keep_State_setCan

theorem keep_acceptMsg {k : Watch} {s0 a1 a2 a3 a4} (h0 : Kept k s0) : Kept k (acceptMsg s0 a1 a2 a3 a4) := by
  unfold acceptMsg
  repeat' first | with_reducible assumption | with_reducible apply keep_placeMsg | with_reducible apply keep_State_setCan

theorem keep_authLoss {k : Watch} {s0 a1 a2} (h0 : Kept k s0) : Kept k (authLoss s0 a1 a2) := by
  unfold authLoss
  repeat' first | with_reducible assumption | with_reducible apply keep_State_setAuth | with_reducible apply keep_memLost

theorem keep_readAuth {k : Watch} {s0 a1} (h0 : Kept k s0) : Kept k (readAuth s0 a1) := by
  unfold readAuth
  repeat' first
    | with_reducible assumption
    | with_reducible first | apply keep_memRead | apply keep_authLoss
    | split
    | with_reducible refine kept_fst (by assumption) ?_

theorem keep_pendingWrite {k : Watch} {s0 a1 a2} (h0 : Kept k s0) : Kept k (pendingWrite s0 a1 a2).1 := by
  unfold pendingWrite
  repeat' first | with_reducible assumption | with_reducible apply keep_State_bump | with_reducible apply keep_State_raise | with_reducible apply keep_acceptMsg | split

theorem keep_pendingDone {k : Watch} {s0 a1 a2 a3} (h0 : Kept k s0) : Kept k (pendingDone s0 a1 a2 a3) := by
  unfold pendingDone
  repeat' first | with_reducible assumption | with_reducible apply keep_State_setReg | with_reducible apply keep_State_bump | split

theorem keep_setSub {k : Watch} {s0 a1 a2 a3} (h0 : Kept k s0) : Kept k (setSub s0 a1 a2 a3) := by
  unfold setSub
  repeat' first | with_reducible assumption | with_reducible apply keep_State_setCan

theorem keep_beginMac {k : Watch} {a0 s1 a2} (h1 : Kept k s1) : Kept k (beginMac a0 s1 a2) := by
  unfold beginMac
  repeat' first
    | with_reducible assumption
    | with_reducible first | apply keep_readAuth | apply keep_setSub | apply keep_State_bump | apply keep_authUsed
    | simp only [kept_mk, keptF_fold]
    | split

theorem keep_beginMacs {k : Watch} {s0 a1} (h0 : Kept k s0) : Kept k (beginMacs s0 a1) := by
  unfold beginMacs
  repeat' first | with_reducible assumption | with_reducible apply keep_beginMac | with_reducible apply keep_foldl

theorem keep_canPending {k : Watch} {s0 a1} (h0 : Kept k s0) : Kept k (canPending s0 a1) := by
  unfold canPending
  repeat' first | with_reducible assumption | with_reducible apply keep_pendingWrite | with_reducible apply keep_pendingDone | with_reducible apply keep_State_setCan | split

theorem keep_execCanPendingWrite {k : Watch} {a0 s1} (h1 : Kept k s1) : KeptR k (execCanPendingWrite a0 s1) := by
  unfold execCanPendingWrite
  repeat' first | with_reducible assumption | with_reducible apply keep_ifWf | with_reducible apply keep_canPending

theorem keep_txsGo {k : Watch} {s0 a1} (h0 : Kept k s0) : Kept k (txsGo s0 a1) := by
  unfold txsGo
  repeat' first | with_reducible assumption | with_reducible apply keep_State_setReg | with_reducible apply keep_beginMacs | with_reducible apply keep_State_setCan | split

theorem keep_execCanTxsGo {k : Watch} {a0 a1 s2} (h2 : Kept k s2) : KeptR k (execCanTxsGo a0 a1 s2) := by
  unfold execCanTxsGo
  repeat' first | with_reducible assumption | with_reducible apply keep_ifWf | with_reducible apply keep_State_write | with_reducible apply keep_txsGo

theorem keep_countHeld {k : Watch} {a0 a1 s2 a3} (h2 : Kept k s2) : Kept k (countHeld a0 a1 s2 a3) := by
  unfold countHeld
  repeat' first
    | with_reducible assumption
    | with_reducible first | apply keep_State_bump | apply keep_State_setCan
    | simp only [kept_mk, keptF_fold]
    | split

theorem keep_parityLoss {k : Watch} {s0 a1 a2 a3 a4} (h0 : Kept k s0) : Kept k (parityLoss s0 a1 a2 a3 a4) := by
  unfold parityLoss
  repeat' first | with_reducible assumption | with_reducible apply keep_txEvent | with_reducible apply keep_refillBuf | with_reducible apply keep_State_bump | with_reducible apply keep_memLost

theorem keep_selectBuf {k : Watch} {s0 a1 a2} (h0 : Kept k s0) : Kept k (selectBuf s0 a1 a2) := by
  unfold selectBuf
  repeat' first
    | with_reducible assumption
    | with_reducible first | apply keep_countHeld | apply keep_memRead | apply keep_parityLoss | apply keep_State_setCan | apply keep_foldl
    | simp only [kept_mk, keptF_fold]
    | split
    | with_reducible refine kept_fst (by assumption) ?_

theorem keep_execCanSelection {k : Watch} {a0 s1} (h1 : Kept k s1) : KeptR k (execCanSelection a0 s1) := by
  unfold execCanSelection
  repeat' first | with_reducible assumption | with_reducible apply keep_ifWf | with_reducible apply keep_selectBuf

theorem keep_execCanBufferReady {k : Watch} {a0 a1 a2 s3} (h3 : Kept k s3) : KeptR k (execCanBufferReady a0 a1 a2 s3) := by
  unfold execCanBufferReady
  repeat' first | with_reducible assumption | with_reducible apply keep_ifWf | with_reducible apply keep_State_setCan | with_reducible apply keep_selectBuf | split

theorem keep_execCanArbLost {k : Watch} {a0 a1 s2} (h2 : Kept k s2) : KeptR k (execCanArbLost a0 a1 s2) := by
  unfold execCanArbLost
  repeat' first | with_reducible assumption | with_reducible apply keep_ifWf | with_reducible apply keep_State_setCan | with_reducible apply keep_State_bump | split

theorem keep_fastPhase {k : Watch} {s0 a1 a2 a3} (h0 : Kept k s0) : Kept k (fastPhase s0 a1 a2 a3) := by
  unfold fastPhase
  repeat' first
    | with_reducible assumption
    | with_reducible first | apply keep_State_emit
    | simp only [kept_mk, keptF_fold]
    | split

theorem keep_txOk {k : Watch} {s0 a1 a2 a3} (h0 : Kept k s0) : Kept k (txOk s0 a1 a2 a3) := by
  unfold txOk
  repeat' first | with_reducible assumption | with_reducible apply keep_fastPhase | with_reducible apply keep_State_setCan | with_reducible apply keep_State_bump | with_reducible apply keep_State_emit | with_reducible apply keep_settleErrors | with_reducible apply keep_txEvent | with_reducible apply keep_refillBuf

theorem keep_execCanTxOk {k : Watch} {a0 s1} (h1 : Kept k s1) : KeptR k (execCanTxOk a0 s1) := by
  unfold execCanTxOk
  repeat' first | with_reducible assumption | with_reducible apply keep_ifWf | with_reducible apply keep_txOk | split

theorem keep_execCanWindowOverrun {k : Watch} {a0 s1} (h1 : Kept k s1) : KeptR k (execCanWindowOverrun a0 s1) := by
  unfold execCanWindowOverrun
  repeat' first | with_reducible assumption | with_reducible apply keep_ifWf | with_reducible apply keep_State_report | with_reducible apply keep_State_raise | with_reducible apply keep_State_bump | with_reducible apply keep_State_setCan | split

theorem keep_askCancel {k : Watch} {s0 a1 a2} (h0 : Kept k s0) : Kept k (askCancel s0 a1 a2) := by
  unfold askCancel
  repeat' first | with_reducible assumption | with_reducible apply keep_State_setCan

theorem keep_execCanCancelTag {k : Watch} {a0 a1 a2 s3} (h3 : Kept k s3) : KeptR k (execCanCancelTag a0 a1 a2 s3) := by
  unfold execCanCancelTag
  repeat' first | with_reducible assumption | with_reducible apply keep_ifWf | with_reducible apply keep_State_write | with_reducible apply keep_askCancel

theorem keep_execCanCancelAll {k : Watch} {a0 a1 s2} (h2 : Kept k s2) : KeptR k (execCanCancelAll a0 a1 s2) := by
  unfold execCanCancelAll
  repeat' first | with_reducible assumption | with_reducible apply keep_ifWf | with_reducible apply keep_State_write | with_reducible apply keep_askCancel

theorem keep_cancelled {k : Watch} {s0 a1 a2} (h0 : Kept k s0) : Kept k (cancelled s0 a1 a2) := by
  unfold cancelled
  repeat' first | with_reducible assumption | with_reducible apply keep_txEvent | with_reducible apply keep_State_bump

theorem keep_cancelBuf {k : Watch} {a0 a1 s2 a3} (h2 : Kept k s2) : Kept k (cancelBuf a0 a1 s2 a3) := by
  unfold cancelBuf
  repeat' first | with_reducible assumption | with_reducible apply keep_cancelled | with_reducible apply keep_refillBuf | with_reducible apply keep_State_setCan | with_reducible apply keep_State_bump | split

theorem keep_cancelSample {k : Watch} {s0 a1} (h0 : Kept k s0) : Kept k (cancelSample s0 a1) := by
  unfold cancelSample
  repeat' first | with_reducible assumption | with_reducible apply keep_State_setCan | with_reducible apply keep_cancelled | with_reducible apply keep_cancelBuf | with_reducible apply keep_foldl | intro _

theorem keep_execCanCancelSample {k : Watch} {a0 s1} (h1 : Kept k s1) : KeptR k (execCanCancelSample a0 s1) := by
  unfold execCanCancelSample
  repeat' first | with_reducible assumption | with_reducible apply keep_ifWf | with_reducible apply keep_cancelSample

theorem keep_execCanCancelAbort {k : Watch} {a0 s1} (h1 : Kept k s1) : KeptR k (execCanCancelAbort a0 s1) := by
  unfold execCanCancelAbort
  repeat' first | with_reducible assumption | with_reducible apply keep_ifWf | with_reducible apply keep_whenever | with_reducible apply keep_busError | with_reducible apply keep_State_bump | with_reducible apply keep_State_setCan

theorem keep_txevRead {k : Watch} {s0 a1 a2} (h0 : Kept k s0) : Kept k (txevRead s0 a1 a2) := by
  unfold txevRead
  repeat' first
    | with_reducible assumption
    | with_reducible first | apply keep_State_emit | apply keep_State_setCan
    | simp only [kept_mk, keptF_fold]
    | split

theorem keep_execCanTxevRead {k : Watch} {a0 a1 s2} (h2 : Kept k s2) : KeptR k (execCanTxevRead a0 a1 s2) := by
  unfold execCanTxevRead
  repeat' first | with_reducible assumption | with_reducible apply keep_ifWf | with_reducible apply keep_State_readOnce | with_reducible apply keep_txevRead

theorem keep_putWords {k : Watch} {a0 a1 a2 s3} (h3 : Kept k s3) : Kept k (putWords a0 a1 a2 s3) := by
  unfold putWords
  repeat' first | with_reducible assumption | with_reducible apply keep_State_setReg | with_reducible apply keep_foldl | intro _

theorem keep_rxLoss {k : Watch} {s0 a1 a2 a3 a4} (h0 : Kept k s0) : Kept k (rxLoss s0 a1 a2 a3 a4) := by
  unfold rxLoss
  repeat' first | with_reducible assumption | with_reducible apply keep_State_bump | with_reducible apply keep_State_setCan | with_reducible apply keep_memLost

theorem keep_readRxq {k : Watch} {s0 a1 a2} (h0 : Kept k s0) : Kept k (readRxq s0 a1 a2) := by
  unfold readRxq
  repeat' first
    | with_reducible assumption
    | with_reducible first | apply keep_memRead | apply keep_rxLoss
    | split
    | with_reducible refine kept_fst (by assumption) ?_

theorem keep_rxqPop {k : Watch} {s0 a1 a2 a3} (h0 : Kept k s0) : Kept k (rxqPop s0 a1 a2 a3) := by
  unfold rxqPop
  repeat' first
    | with_reducible assumption
    | with_reducible first | apply keep_readRxq | apply keep_State_emit | apply keep_State_tick1 | apply keep_State_setCan | apply keep_putWords
    | simp only [kept_mk, keptF_fold]
    | split

theorem keep_execCanRxqPop {k : Watch} {a0 a1 a2 s3} (h3 : Kept k s3) : KeptR k (execCanRxqPop a0 a1 a2 s3) := by
  unfold execCanRxqPop
  repeat' first | with_reducible assumption | with_reducible apply keep_ifWf | with_reducible apply keep_State_readOnce | with_reducible apply keep_rxqPop

theorem keep_authFails {k : Watch} {s0 a1} (h0 : Kept k s0) : Kept k (authFails s0 a1) := by
  unfold authFails
  repeat' first | with_reducible assumption | with_reducible apply keep_State_report | with_reducible apply keep_State_raise | with_reducible apply keep_State_bump

theorem keep_queueRx {k : Watch} {s0 a1 a2 a3} (h0 : Kept k s0) : Kept k (queueRx s0 a1 a2 a3) := by
  unfold queueRx
  repeat' first
    | with_reducible assumption
    | with_reducible first | apply keep_State_setCan | apply keep_State_raise | apply keep_State_bump
    | simp only [kept_mk, keptF_fold]
    | split

theorem keep_storeRx {k : Watch} {s0 a1 a2 a3} (h0 : Kept k s0) : Kept k (storeRx s0 a1 a2 a3) := by
  unfold storeRx
  repeat' first | with_reducible assumption | with_reducible apply keep_State_bump | with_reducible apply keep_queueRx | with_reducible apply keep_gweRequest | split

theorem keep_writeRx {k : Watch} {a0 s1 a2} (h1 : Kept k s1) : Kept k (writeRx a0 s1 a2) := by
  unfold writeRx
  repeat' first
    | with_reducible assumption
    | with_reducible first | apply keep_State_setCan | apply keep_storeRx | apply keep_readAuth | apply keep_authFails | apply keep_State_setAuth
    | simp only [kept_mk, keptF_fold]
    | split

theorem keep_writesRx {k : Watch} {s0 a1} (h0 : Kept k s0) : Kept k (writesRx s0 a1) := by
  unfold writesRx
  repeat' first | with_reducible assumption | with_reducible apply keep_writeRx | with_reducible apply keep_foldl

theorem keep_canCycleDue {k : Watch} {s0 a1} (h0 : Kept k s0) : Kept k (canCycleDue s0 a1) := by
  unfold canCycleDue
  repeat' first | with_reducible assumption | with_reducible apply keep_beginMacs | with_reducible apply keep_writesRx

theorem keep_countRx {k : Watch} {s0 a1} (h0 : Kept k s0) : Kept k (countRx s0 a1) := by
  unfold countRx
  repeat' first
    | with_reducible assumption
    | with_reducible first | apply keep_State_bump | apply keep_settleErrors | apply keep_State_setCan | apply keep_State_tick1
    | simp only [kept_mk, keptF_fold]
    | split

theorem keep_takeRx {k : Watch} {s0 a1 a2 a3 a4 a5 a6} (h0 : Kept k s0) : Kept k (takeRx s0 a1 a2 a3 a4 a5 a6) := by
  unfold takeRx
  repeat' first | with_reducible assumption | with_reducible apply keep_State_setCan | with_reducible apply keep_State_tick1 | split

theorem keep_canReceive {k : Watch} {s0 a1 a2 a3} (h0 : Kept k s0) : Kept k (canReceive s0 a1 a2 a3) := by
  unfold canReceive
  repeat' first
    | with_reducible assumption
    | with_reducible first | apply keep_fastPhase | apply keep_countRx | apply keep_takeRx
    | simp only [kept_mk, keptF_fold]
    | split

theorem keep_execCanFrameReceived {k : Watch} {a0 a1 a2 s3} (h3 : Kept k s3) : KeptR k (execCanFrameReceived a0 a1 a2 s3) := by
  unfold execCanFrameReceived
  repeat' first | with_reducible assumption | with_reducible apply keep_ifWf | with_reducible apply keep_canReceive

theorem keep_authSet {k : Watch} {s0 a1 a2} (h0 : Kept k s0) : Kept k (authSet s0 a1 a2) := by
  unfold authSet
  repeat' first | with_reducible assumption | with_reducible apply keep_State_silt_ | with_reducible apply keep_State_putShadow

theorem keep_execCanAuthSet {k : Watch} {a0 a1 s2} (h2 : Kept k s2) : KeptR k (execCanAuthSet a0 a1 s2) := by
  unfold execCanAuthSet
  repeat' first | with_reducible assumption | with_reducible apply keep_State_write | with_reducible apply keep_authSet | with_reducible apply keptR_next

theorem keep_authCommit {k : Watch} {s0 a1 a2} (h0 : Kept k s0) : Kept k (authCommit s0 a1 a2) := by
  unfold authCommit
  repeat' first | with_reducible assumption | with_reducible apply keep_State_setAuth

theorem keep_raiseAuthRsv {k : Watch} {s0 a1} (h0 : Kept k s0) : Kept k (raiseAuthRsv s0 a1) := by
  unfold raiseAuthRsv
  exact kept_nvm (keep_State_setAuth h0) rfl

theorem keep_execAuthRsvRaise {k : Watch} {a0 s1} (h1 : Kept k s1) : KeptR k (execAuthRsvRaise a0 s1) := by
  unfold execAuthRsvRaise
  repeat' first | with_reducible assumption | with_reducible apply keep_ifWf | with_reducible apply keep_whenever | with_reducible apply keep_raiseAuthRsv

end Sys2Proof.Laws
end

