-- ==== Sys2Proof/Laws/Keep4.lean ====
section
/-!
SUPPORT. `Kept` for the functions of Machine/: NetTime, Msec, Lookaside, SlOps, Mka, Lin.
-/
set_option linter.unusedSimpArgs false
namespace Sys2Proof.Laws
set_option Elab.async false
open Sys2Proof Sys2Proof.Machine

/-! ### NetTime -/

theorem keep_gmChange {k : Watch} {s0 a1 a2} (h0 : Kept k s0) : Kept k (gmChange s0 a1 a2) := by
  unfold gmChange
  repeat' first | with_reducible assumption | with_reducible apply keep_State_raise | with_reducible apply keep_State_bump | with_reducible apply keep_State_setDom | split

theorem keep_acquireSync {k : Watch} {s0 a1 a2} (h0 : Kept k s0) : Kept k (acquireSync s0 a1 a2) := by
  unfold acquireSync
  repeat' first
    | with_reducible assumption
    | with_reducible first | apply keep_domStep | apply keep_State_setDom | apply keep_servo | apply keep_domEnter
    | simp only [kept_mk, keptF_fold]
    | split

theorem keep_validSync {k : Watch} {s0 a1 a2} (h0 : Kept k s0) : Kept k (validSync s0 a1 a2) := by
  unfold validSync
  repeat' first
    | with_reducible assumption
    | with_reducible first | apply keep_State_setDom | apply keep_domEnter | apply keep_servo
    | simp only [kept_mk, keptF_fold]
    | split

theorem keep_syncAccepted {k : Watch} {s0 a1 a2 a3 a4} (h0 : Kept k s0) : Kept k (syncAccepted s0 a1 a2 a3 a4) := by
  unfold syncAccepted
  repeat' first
    | with_reducible assumption
    | with_reducible first | apply keep_gmChange | apply keep_State_setDom | apply keep_domEnter | apply keep_takeAdj | apply keep_domStep | apply keep_acquireSync | apply keep_validSync
    | simp only [kept_mk, keptF_fold]
    | split

theorem keep_servoLost {k : Watch} {s0 a1 a2} (h0 : Kept k s0) : Kept k (servoLost s0 a1 a2) := by
  unfold servoLost
  repeat' first | with_reducible assumption | with_reducible apply keep_State_report | with_reducible apply keep_State_bump | with_reducible apply keep_domEnter

theorem keep_withServo {k : Watch} {s0 a1 a2} (h0 : Kept k s0) (h2 : ∀ x0, Kept k x0 → Kept k (a2 x0)) : Kept k (withServo s0 a1 a2) := by
  have hd := keep_memRead (a1 := 9) (a2 := 0) (a3 := none) h0
  unfold withServo
  split
  · rename_i e; rw [e] at hd; exact h2 _ hd
  · rename_i e; rw [e] at hd; exact keep_servoLost (keep_memRepeated hd)

theorem keep_syncWaits {k : Watch} {s0 a1 a2 a3} (h0 : Kept k s0) : Kept k (syncWaits s0 a1 a2 a3) := by
  unfold syncWaits
  repeat' first | with_reducible assumption | with_reducible apply keep_State_bump | with_reducible apply keep_State_setDom | split

theorem keep_execPtpSyncRx {k : Watch} {a0 a1 a2 a3 a4 a5 s6} (h6 : Kept k s6) : KeptR k (execPtpSyncRx a0 a1 a2 a3 a4 a5 s6) := by
  unfold execPtpSyncRx
  repeat' first
    | with_reducible assumption
    | with_reducible first | apply keep_ifWf | apply keep_whenever | apply keep_syncWaits | apply keep_withServo | apply keep_State_bump | apply keep_syncAccepted
    | intro _
    | split

theorem keep_relayInfo {k : Watch} {s0 a1 a2 a3 a4} (h0 : Kept k s0) : Kept k (relayInfo s0 a1 a2 a3 a4) := by
  unfold relayInfo
  repeat' first | with_reducible assumption | with_reducible apply keep_State_setDom | simp only [kept_mk, keptF_fold]

theorem keep_completeSync {k : Watch} {s0 a1 a2 a3 a4} (h0 : Kept k s0) : Kept k (completeSync s0 a1 a2 a3 a4) := by
  unfold completeSync
  repeat' first
    | with_reducible assumption
    | with_reducible first | apply keep_State_bump | apply keep_State_setDom | apply keep_withServo | apply keep_syncAccepted
    | intro _
    | split

theorem keep_execPtpFollowUpRx {k : Watch} {a0 a1 a2 a3 s4} (h4 : Kept k s4) : KeptR k (execPtpFollowUpRx a0 a1 a2 a3 s4) := by
  unfold execPtpFollowUpRx
  repeat' first | with_reducible assumption | with_reducible apply keep_ifWf | with_reducible apply keep_whenever | with_reducible apply keep_completeSync | with_reducible apply keep_relayInfo

theorem keep_execFuMissing {k : Watch} {a0 s1} (h1 : Kept k s1) : KeptR k (execFuMissing a0 s1) := by
  unfold execFuMissing
  repeat' first | with_reducible assumption | with_reducible apply keep_ifWf | with_reducible apply keep_whenever | with_reducible apply keep_State_bump | with_reducible apply keep_State_setDom | split

theorem keep_execPtpSyncTimeout {k : Watch} {a0 s1} (h1 : Kept k s1) : KeptR k (execPtpSyncTimeout a0 s1) := by
  unfold execPtpSyncTimeout
  repeat' first | with_reducible assumption | with_reducible apply keep_ifWf | with_reducible apply keep_whenever | with_reducible apply keep_domHoldover

theorem keep_execPtpHoldExpire {k : Watch} {a0 s1} (h1 : Kept k s1) : KeptR k (execPtpHoldExpire a0 s1) := by
  unfold execPtpHoldExpire
  repeat' first | with_reducible assumption | with_reducible apply keep_ifWf | with_reducible apply keep_whenever | with_reducible apply keep_domEnter

theorem keep_gmSet {k : Watch} {s0 a1} (h0 : Kept k s0) : Kept k (gmSet s0 a1) := by
  unfold gmSet
  repeat' first | with_reducible assumption | with_reducible apply keep_domStep | with_reducible apply keep_domEnter | with_reducible apply keep_takeAdj

theorem keep_execPtpSetGo {k : Watch} {a0 a1 s2} (h2 : Kept k s2) : KeptR k (execPtpSetGo a0 a1 s2) := by
  unfold execPtpSetGo
  repeat' first | with_reducible assumption | with_reducible apply keep_ifWf | with_reducible apply keep_State_write | with_reducible apply keep_gmSet

theorem keep_unanswered {k : Watch} {s0 a1} (h0 : Kept k s0) : Kept k (unanswered s0 a1) := by
  unfold unanswered
  repeat' first
    | with_reducible assumption
    | with_reducible first | apply keep_State_setPdelay | apply keep_asCapLost
    | simp only [kept_mk, keptF_fold]
    | split

theorem keep_sendPdelay {k : Watch} {s0 a1} (h0 : Kept k s0) : Kept k (sendPdelay s0 a1) := by
  unfold sendPdelay
  repeat' first | with_reducible assumption | with_reducible apply keep_State_setPdelay | with_reducible apply keep_usedSeq | with_reducible apply keep_gptpSend

theorem keep_execPdelayReqTx {k : Watch} {a0 s1} (h1 : Kept k s1) : KeptR k (execPdelayReqTx a0 s1) := by
  unfold execPdelayReqTx
  repeat' first | with_reducible assumption | with_reducible apply keep_ifWf | with_reducible apply keep_whenever | with_reducible apply keep_sendPdelay | with_reducible apply keep_unanswered

theorem keep_answerPdelay {k : Watch} {s0 a1 a2 a3 a4} (h0 : Kept k s0) : Kept k (answerPdelay s0 a1 a2 a3 a4) := by
  unfold answerPdelay
  repeat' first | with_reducible assumption | with_reducible apply keep_gptpSend

theorem keep_execPdelayReqRx {k : Watch} {a0 a1 a2 a3 s4} (h4 : Kept k s4) : KeptR k (execPdelayReqRx a0 a1 a2 a3 s4) := by
  unfold execPdelayReqRx
  repeat' first | with_reducible assumption | with_reducible apply keep_ifWf | with_reducible apply keep_whenever | with_reducible apply keep_answerPdelay

theorem keep_pdelayDone {k : Watch} {s0 a1 a2 a3 a4 a5} (h0 : Kept k s0) : Kept k (pdelayDone s0 a1 a2 a3 a4 a5) := by
  unfold pdelayDone
  repeat' first
    | with_reducible assumption
    | with_reducible first | apply keep_State_setPdelay | apply keep_asCapLost
    | simp only [kept_mk, keptF_fold]
    | split

theorem keep_execPdelayRespRx {k : Watch} {a0 a1 a2 a3 a4 s5} (h5 : Kept k s5) : KeptR k (execPdelayRespRx a0 a1 a2 a3 a4 s5) := by
  unfold execPdelayRespRx
  repeat' first | with_reducible assumption | with_reducible apply keep_ifWf | with_reducible apply keep_pdelayDone | split

theorem keep_relaySync {k : Watch} {s0 a1 a2 a3 a4 a5} (h0 : Kept k s0) : Kept k (relaySync s0 a1 a2 a3 a4 a5) := by
  unfold relaySync
  repeat' first | with_reducible assumption | with_reducible apply keep_State_bump | with_reducible apply keep_sendSyncs | split

theorem keep_execSyncRelay {k : Watch} {a0 a1 a2 a3 a4 s5} (h5 : Kept k s5) : KeptR k (execSyncRelay a0 a1 a2 a3 a4 s5) := by
  unfold execSyncRelay
  repeat' first | with_reducible assumption | with_reducible apply keep_ifWf | with_reducible apply keep_whenever | with_reducible apply keep_relaySync

theorem keep_sendFollowUp {k : Watch} {s0 a1 a2 a3} (h0 : Kept k s0) : Kept k (sendFollowUp s0 a1 a2 a3) := by
  unfold sendFollowUp
  repeat' first
    | with_reducible assumption
    | with_reducible first | apply keep_State_setDom | apply keep_State_bump | apply keep_gptpSend
    | simp only [kept_mk, keptF_fold]
    | split

theorem keep_execFollowUpTx {k : Watch} {a0 a1 s2} (h2 : Kept k s2) : KeptR k (execFollowUpTx a0 a1 s2) := by
  unfold execFollowUpTx
  repeat' first | with_reducible assumption | with_reducible apply keep_ifWf | with_reducible apply keep_sendFollowUp | split

theorem keep_execSyncOriginate {k : Watch} {a0 s1} (h1 : Kept k s1) : KeptR k (execSyncOriginate a0 s1) := by
  unfold execSyncOriginate
  repeat' first | with_reducible assumption | with_reducible apply keep_ifWf | with_reducible apply keep_whenever | with_reducible apply keep_sendSyncs | with_reducible apply keep_State_setDom

theorem keep_domAdopt {k : Watch} {s0 a1 a2 a3} (h0 : Kept k s0) : Kept k (domAdopt s0 a1 a2 a3) := by
  unfold domAdopt
  repeat' first | with_reducible assumption | with_reducible apply keep_domEnter | with_reducible apply keep_takeAdj | with_reducible apply keep_domStep | split

/-! ### Msec -/

theorem keep_startTx {k : Watch} {s0 a1 a2 a3 a4} (h0 : Kept k s0) : Kept k (startTx s0 a1 a2 a3 a4) := by
  unfold startTx
  repeat' first | with_reducible assumption | with_reducible apply keep_setSaPn | with_reducible apply keep_State_setPair | with_reducible apply keep_State_setBitAt | with_reducible apply keep_State_setKeySlot

theorem keep_installSa {k : Watch} {s0 a1 a2 a3} (h0 : Kept k s0) : Kept k (installSa s0 a1 a2 a3) := by
  unfold installSa
  repeat' first | with_reducible assumption | with_reducible apply keep_State_setReg | with_reducible apply keep_State_setSaRun | with_reducible apply keep_startTx | split

theorem keep_tryInstall {k : Watch} {s0 a1 a2 a3 a4} (h0 : Kept k s0) : Kept k (tryInstall s0 a1 a2 a3 a4) := by
  unfold tryInstall
  repeat' first
    | with_reducible assumption
    | with_reducible first | apply keep_readSlot | apply keep_State_refuse | apply keep_installSa | apply keep_logReg | apply keep_State_setFld
    | simp only [kept_mk, keptF_fold]
    | split

theorem keep_execSaInstall {k : Watch} {a0 a1 a2 a3 s4} (h4 : Kept k s4) : KeptR k (execSaInstall a0 a1 a2 a3 s4) := by
  unfold execSaInstall
  repeat' first | with_reducible assumption | with_reducible apply keep_ifWf | with_reducible apply keep_State_refuse | with_reducible apply keep_tryInstall | split

theorem keep_removeSa {k : Watch} {s0 a1 a2 a3 a4} (h0 : Kept k s0) : Kept k (removeSa s0 a1 a2 a3 a4) := by
  unfold removeSa
  repeat' first | with_reducible assumption | with_reducible apply keep_logReg | with_reducible apply keep_State_setReg

theorem keep_execSaRemove {k : Watch} {a0 a1 a2 a3 s4} (h4 : Kept k s4) : KeptR k (execSaRemove a0 a1 a2 a3 s4) := by
  unfold execSaRemove
  repeat' first | with_reducible assumption | with_reducible apply keep_ifWf | with_reducible apply keep_State_write | with_reducible apply keep_removeSa

theorem keep_selectSa {k : Watch} {s0 a1 a2 a3} (h0 : Kept k s0) : Kept k (selectSa s0 a1 a2 a3) := by
  unfold selectSa
  repeat' first | with_reducible assumption | with_reducible apply keep_logReg | with_reducible apply keep_State_setReg

theorem keep_execEncSaWrite {k : Watch} {a0 a1 a2 s3} (h3 : Kept k s3) : KeptR k (execEncSaWrite a0 a1 a2 s3) := by
  unfold execEncSaWrite
  repeat' first | with_reducible assumption | with_reducible apply keep_ifWf | with_reducible apply keep_State_write | with_reducible apply keep_selectSa

theorem keep_rsvConfirm {k : Watch} {a0 s1 a2} (h1 : Kept k s1) : Kept k (rsvConfirm a0 s1 a2) := by
  unfold rsvConfirm
  repeat' first
    | with_reducible assumption
    | with_reducible first | apply keep_raiseRsv | apply keep_State_setSaRun
    | simp only [kept_mk, keptF_fold]
    | split

theorem keep_mscCommit {k : Watch} {s0 a1} (h0 : Kept k s0) : Kept k (mscCommit s0 a1) := by
  unfold mscCommit
  repeat' first
    | with_reducible assumption
    | with_reducible first | apply keep_State_setPair | apply keep_foldl
    | intro _
    | split

theorem keep_takeoverSa {k : Watch} {s0 a1} (h0 : Kept k s0) : Kept k (takeoverSa s0 a1) := by
  unfold takeoverSa
  repeat' first
    | with_reducible assumption
    | with_reducible first | apply keep_State_setPair | apply keep_setSaPn | apply keep_exhaustTx
    | simp only [kept_mk, keptF_fold]
    | split

theorem keep_mscTakeover {k : Watch} {s0} (h0 : Kept k s0) : Kept k (mscTakeover s0) := by
  unfold mscTakeover
  repeat' first | with_reducible assumption | with_reducible apply keep_takeoverSa | with_reducible apply keep_foldl

theorem keep_rotate {k : Watch} {s0 a1} (h0 : Kept k s0) : Kept k (rotate s0 a1) := by
  unfold rotate
  repeat' first
    | with_reducible assumption
    | with_reducible first | apply keep_State_bump | apply keep_State_setKat | apply keep_State_setFld
    | simp only [kept_mk, keptF_fold]
    | split

theorem keep_execKatRotation {k : Watch} {a0 s1} (h1 : Kept k s1) : KeptR k (execKatRotation a0 s1) := by
  unfold execKatRotation
  repeat' first | with_reducible assumption | with_reducible apply keep_whenever | with_reducible apply keep_rotate | with_reducible apply keptR_next

theorem keep_markNoPipe {k : Watch} {s0} (h0 : Kept k s0) : Kept k (markNoPipe s0) := by
  unfold markNoPipe
  repeat' first | with_reducible assumption | with_reducible apply keep_State_setBitAt

theorem keep_katPassed {k : Watch} {s0 a1 a2} (h0 : Kept k s0) : Kept k (katPassed s0 a1 a2) := by
  unfold katPassed
  repeat' first
    | with_reducible assumption
    | with_reducible first | apply keep_State_bump | apply keep_State_setKat | apply keep_markNoPipe | apply keep_State_setFld
    | simp only [kept_mk, keptF_fold]
    | split

theorem keep_katEnds {k : Watch} {s0 a1 a2} (h0 : Kept k s0) : Kept k (katEnds s0 a1 a2) := by
  unfold katEnds
  repeat' first | with_reducible assumption | with_reducible apply keep_katPassed | with_reducible apply keep_retirePipe | with_reducible apply keep_State_report | with_reducible apply keep_State_raise | with_reducible apply keep_State_bump | split

theorem keep_execKatComplete {k : Watch} {a0 a1 s2} (h2 : Kept k s2) : KeptR k (execKatComplete a0 a1 s2) := by
  unfold execKatComplete
  repeat' first | with_reducible assumption | with_reducible apply keep_katEnds | with_reducible apply keptR_next

/-! ### Lookaside -/

theorem keep_laFinish {k : Watch} {s0 a1 a2 a3 a4} (h0 : Kept k s0) : Kept k (laFinish s0 a1 a2 a3 a4) := by
  unfold laFinish
  repeat' first | with_reducible assumption | with_reducible apply keep_State_bump | with_reducible apply keep_State_emit | with_reducible apply keep_ringComplete | split

theorem keep_useCtr {k : Watch} {s0 a1} (h0 : Kept k s0) : Kept k (useCtr s0 a1) := by
  unfold useCtr
  repeat' first
    | with_reducible assumption
    | with_reducible first | apply keep_State_setKeySlot
    | simp only [kept_mk, keptF_fold]
    | split

theorem keep_laCheck {k : Watch} {s0 a1} (h0 : Kept k s0) : Kept k (laCheck s0 a1).1 := by
  unfold laCheck
  repeat' first
    | with_reducible assumption
    | with_reducible first | apply keep_readSlot
    | simp only [kept_mk, keptF_fold]
    | split

theorem keep_rngFail {k : Watch} {s0} (h0 : Kept k s0) : Kept k (rngFail s0) := by
  unfold rngFail
  repeat' first
    | with_reducible assumption
    | with_reducible first | apply keep_laFinish | apply keep_State_setBitAt | apply keep_State_report | apply keep_State_raise | apply keep_State_bump | apply keep_foldl
    | intro _
    | simp only [kept_mk, keptF_fold]

theorem keep_reseeded {k : Watch} {s0} (h0 : Kept k s0) : Kept k (reseeded s0) := by
  unfold reseeded
  repeat' first | with_reducible assumption | with_reducible apply keep_State_setBitAt | with_reducible apply keep_State_bump | simp only [kept_mk, keptF_fold]

theorem keep_laAdmit {k : Watch} {s0 a1 a2} (h0 : Kept k s0) : Kept k (laAdmit s0 a1 a2) := by
  unfold laAdmit
  repeat' first
    | with_reducible assumption
    | with_reducible first | apply keep_useCtr
    | simp only [kept_mk, keptF_fold]
    | split

theorem keep_drbgAdmit {k : Watch} {s0 a1 a2} (h0 : Kept k s0) : Kept k (drbgAdmit s0 a1 a2) := by
  unfold drbgAdmit
  repeat' first
    | with_reducible assumption
    | with_reducible first | apply keep_laFinish | apply keep_rngFail | apply keep_reseeded | apply keep_laAdmit
    | simp only [kept_mk, keptF_fold]
    | split

theorem keep_laBoundary {k : Watch} {s0 a1 a2} (h0 : Kept k s0) : Kept k (laBoundary s0 a1 a2) := by
  unfold laBoundary
  repeat' first
    | with_reducible assumption
    | with_reducible first | apply keep_laCheck | apply keep_drbgAdmit | apply keep_laAdmit | apply keep_laFinish | apply keep_State_bump
    | split
    | with_reducible refine kept_fst (by assumption) ?_

theorem keep_laAdmitAll {k : Watch} {a0 a1 s2} (h2 : Kept k s2) : Kept k (laAdmitAll a0 a1 s2) := by
  induction a1 generalizing a0 s2 with
  | nil => exact h2
  | cons r rest ih =>
    unfold laAdmitAll
    dsimp only
    repeat' split
    all_goals first | exact ih h2 | exact ih (keep_laBoundary h2)

theorem keep_laTake {k : Watch} {s0 a1 a2 a3 a4 a5} (h0 : Kept k s0) : Kept k (laTake s0 a1 a2 a3 a4 a5) := by
  unfold laTake
  repeat' first
    | with_reducible assumption
    | with_reducible first | apply keep_ringTake | apply keep_laAdmitAll
    | simp only [kept_mk, keptF_fold]
    | split

theorem keep_laCommand {k : Watch} {a0 a1 a2 a3 a4 a5 s6} (h6 : Kept k s6) : KeptR k (laCommand a0 a1 a2 a3 a4 a5 s6) := by
  unfold laCommand
  repeat' first | with_reducible assumption | with_reducible apply keep_ifWf | with_reducible apply keep_laTake

theorem keep_laDone {k : Watch} {s0 a1} (h0 : Kept k s0) : Kept k (laDone s0 a1) := by
  unfold laDone
  repeat' first
    | with_reducible assumption
    | with_reducible first | apply keep_State_tick1 | apply keep_laFinish | apply keep_laAdmitAll
    | simp only [kept_mk, keptF_fold]
    | split

theorem keep_execLookasideComplete {k : Watch} {a0 s1} (h1 : Kept k s1) : KeptR k (execLookasideComplete a0 s1) := by
  unfold execLookasideComplete
  repeat' first | with_reducible assumption | with_reducible apply keep_laDone | with_reducible apply keptR_next | split

theorem keep_laAbort {k : Watch} {s0} (h0 : Kept k s0) : Kept k (laAbort s0) := by
  unfold laAbort
  repeat' first
    | with_reducible assumption
    | simp only [kept_mk, keptF_fold]

theorem keep_execAesCtrEnc {k : Watch} {a0 a1 a2 a3 s4} (h4 : Kept k s4) : KeptR k (execAesCtrEnc a0 a1 a2 a3 s4) := by
  unfold execAesCtrEnc
  repeat' first | with_reducible assumption | with_reducible apply keep_laCommand

theorem keep_execAesCtrDec {k : Watch} {a0 a1 a2 a3 s4} (h4 : Kept k s4) : KeptR k (execAesCtrDec a0 a1 a2 a3 s4) := by
  unfold execAesCtrDec
  repeat' first | with_reducible assumption | with_reducible apply keep_laCommand

theorem keep_execAesGcmEnc {k : Watch} {a0 a1 a2 a3 s4} (h4 : Kept k s4) : KeptR k (execAesGcmEnc a0 a1 a2 a3 s4) := by
  unfold execAesGcmEnc
  repeat' first | with_reducible assumption | with_reducible apply keep_laCommand

theorem keep_execAesGcmDec {k : Watch} {a0 a1 a2 a3 s4} (h4 : Kept k s4) : KeptR k (execAesGcmDec a0 a1 a2 a3 s4) := by
  unfold execAesGcmDec
  repeat' first | with_reducible assumption | with_reducible apply keep_laCommand

theorem keep_execAesCmacGen {k : Watch} {a0 a1 a2 a3 s4} (h4 : Kept k s4) : KeptR k (execAesCmacGen a0 a1 a2 a3 s4) := by
  unfold execAesCmacGen
  repeat' first | with_reducible assumption | with_reducible apply keep_laCommand

theorem keep_execAesCmacVer {k : Watch} {a0 a1 a2 a3 s4} (h4 : Kept k s4) : KeptR k (execAesCmacVer a0 a1 a2 a3 s4) := by
  unfold execAesCmacVer
  repeat' first | with_reducible assumption | with_reducible apply keep_laCommand

theorem keep_execAesCmacFv {k : Watch} {a0 a1 a2 a3 s4} (h4 : Kept k s4) : KeptR k (execAesCmacFv a0 a1 a2 a3 s4) := by
  unfold execAesCmacFv
  repeat' first | with_reducible assumption | with_reducible apply keep_laCommand

theorem keep_execAesKwWrap {k : Watch} {a0 a1 a2 a3 s4} (h4 : Kept k s4) : KeptR k (execAesKwWrap a0 a1 a2 a3 s4) := by
  unfold execAesKwWrap
  repeat' first | with_reducible assumption | with_reducible apply keep_laCommand

theorem keep_execAesKwUnwrap {k : Watch} {a0 a1 a2 a3 s4} (h4 : Kept k s4) : KeptR k (execAesKwUnwrap a0 a1 a2 a3 s4) := by
  unfold execAesKwUnwrap
  repeat' first | with_reducible assumption | with_reducible apply keep_laCommand

theorem keep_execSha256 {k : Watch} {a0 a1 a2 a3 s4} (h4 : Kept k s4) : KeptR k (execSha256 a0 a1 a2 a3 s4) := by
  unfold execSha256
  repeat' first | with_reducible assumption | with_reducible apply keep_laCommand

theorem keep_execSha384 {k : Watch} {a0 a1 a2 a3 s4} (h4 : Kept k s4) : KeptR k (execSha384 a0 a1 a2 a3 s4) := by
  unfold execSha384
  repeat' first | with_reducible assumption | with_reducible apply keep_laCommand

theorem keep_execHmacSha256 {k : Watch} {a0 a1 a2 a3 s4} (h4 : Kept k s4) : KeptR k (execHmacSha256 a0 a1 a2 a3 s4) := by
  unfold execHmacSha256
  repeat' first | with_reducible assumption | with_reducible apply keep_laCommand

theorem keep_execHmacSha384 {k : Watch} {a0 a1 a2 a3 s4} (h4 : Kept k s4) : KeptR k (execHmacSha384 a0 a1 a2 a3 s4) := by
  unfold execHmacSha384
  repeat' first | with_reducible assumption | with_reducible apply keep_laCommand

theorem keep_execEcdsaSign {k : Watch} {a0 a1 a2 a3 s4} (h4 : Kept k s4) : KeptR k (execEcdsaSign a0 a1 a2 a3 s4) := by
  unfold execEcdsaSign
  repeat' first | with_reducible assumption | with_reducible apply keep_laCommand

theorem keep_execEcdsaVerify {k : Watch} {a0 a1 a2 a3 s4} (h4 : Kept k s4) : KeptR k (execEcdsaVerify a0 a1 a2 a3 s4) := by
  unfold execEcdsaVerify
  repeat' first | with_reducible assumption | with_reducible apply keep_laCommand

theorem keep_execEcdh {k : Watch} {a0 a1 a2 a3 s4} (h4 : Kept k s4) : KeptR k (execEcdh a0 a1 a2 a3 s4) := by
  unfold execEcdh
  repeat' first | with_reducible assumption | with_reducible apply keep_laCommand

theorem keep_execDrbgGen {k : Watch} {a0 a1 a2 s3} (h3 : Kept k s3) : KeptR k (execDrbgGen a0 a1 a2 s3) := by
  unfold execDrbgGen
  repeat' first | with_reducible assumption | with_reducible apply keep_laCommand

theorem keep_execDrbgReseed {k : Watch} {a0 a1 a2 s3} (h3 : Kept k s3) : KeptR k (execDrbgReseed a0 a1 a2 s3) := by
  unfold execDrbgReseed
  repeat' first | with_reducible assumption | with_reducible apply keep_laCommand

theorem keep_execInvFence {k : Watch} {a0 a1 s2} (h2 : Kept k s2) : KeptR k (execInvFence a0 a1 s2) := by
  unfold execInvFence
  repeat' first | with_reducible assumption | with_reducible apply keep_laCommand

/-! ### SlOps -/

theorem keep_slEmitOn {k : Watch} {s0 a1 a2} (h0 : Kept k s0) : Kept k (slEmitOn s0 a1 a2) := by
  unfold slEmitOn
  repeat' first | with_reducible assumption | with_reducible apply keep_State_emit | with_reducible apply keep_State_bumpBy | with_reducible apply keep_State_bump

theorem keep_slEmit {k : Watch} {s0 a1} (h0 : Kept k s0) : Kept k (slEmit s0 a1) := by
  unfold slEmit
  repeat' first | with_reducible assumption | with_reducible apply keep_slEmitOn | simp only [kept_mk, keptF_fold]

theorem keep_slPass {k : Watch} {s0 a1} (h0 : Kept k s0) : Kept k (slPass s0 a1) := by
  unfold slPass
  repeat' first | with_reducible assumption | with_reducible apply keep_slEmit | simp only [kept_mk, keptF_fold]

theorem keep_slDrain {k : Watch} {a0 s1} (h1 : Kept k s1) : Kept k (slDrain a0 s1) := by
  induction a0 generalizing s1 with
  | nil => exact h1
  | cons r t ih =>
    unfold slDrain
    split
    · exact ih (keep_slPass h1)
    · exact h1

theorem keep_slSend {k : Watch} {s0 a1 a2 a3} (h0 : Kept k s0) : Kept k (slSend s0 a1 a2 a3) := by
  unfold slSend
  repeat' first
    | with_reducible assumption
    | with_reducible first | apply keep_slPass
    | simp only [kept_mk, keptF_fold]
    | split

/-! ### Mka -/

theorem keep_State_setMka {k : Watch} {s0 a1 a2} (h0 : Kept k s0) : Kept k (State.setMka s0 a1 a2) := by
  unfold State.setMka
  repeat' first
    | with_reducible assumption
    | simp only [kept_mk, keptF_fold]

theorem keep_poolInstall {k : Watch} {s0 a1 a2 a3} (h0 : Kept k s0) : Kept k (poolInstall s0 a1 a2 a3) := by
  unfold poolInstall
  repeat' first | with_reducible assumption | with_reducible apply keep_changeSlot | with_reducible apply keep_siltKey

theorem keep_mp1Write {k : Watch} {s0 a1 a2} (h0 : Kept k s0) : Kept k (mp1Write s0 a1 a2) := by
  unfold mp1Write
  repeat' first | with_reducible assumption | with_reducible apply keep_logReg | with_reducible apply keep_State_setReg

theorem keep_installTx {k : Watch} {s0 a1 a2 a3} (h0 : Kept k s0) : Kept k (installTx s0 a1 a2 a3) := by
  unfold installTx
  repeat' first | with_reducible assumption | with_reducible apply keep_mp1Write | with_reducible apply keep_tryInstall | split

theorem keep_openSc {k : Watch} {s0 a1 a2 a3} (h0 : Kept k s0) : Kept k (openSc s0 a1 a2 a3) := by
  unfold openSc
  repeat' first
    | with_reducible assumption
    | with_reducible first | apply keep_mp1Write
    | simp only [kept_mk, keptF_fold]
    | split

theorem keep_installRx {k : Watch} {a0 a1 a2 s3 a4} (h3 : Kept k s3) : Kept k (installRx a0 a1 a2 s3 a4) := by
  unfold installRx
  repeat' first | with_reducible assumption | with_reducible apply keep_openSc | with_reducible apply keep_mp1Write | with_reducible apply keep_tryInstall | split

theorem keep_mp1Remove {k : Watch} {a0 s1 a2} (h1 : Kept k s1) : Kept k (mp1Remove a0 s1 a2) := by
  unfold mp1Remove
  repeat' first | with_reducible assumption | with_reducible apply keep_removeSa | split

theorem keep_sakInstall {k : Watch} {s0 a1 a2 a3 a4 a5 a6} (h0 : Kept k s0) : Kept k (sakInstall s0 a1 a2 a3 a4 a5 a6) := by
  unfold sakInstall
  repeat' first | with_reducible assumption | with_reducible apply keep_mp1Remove | with_reducible apply keep_poolInstall | with_reducible apply keep_installRx | with_reducible apply keep_installTx | with_reducible apply keep_slSend | with_reducible apply keep_State_setMka | with_reducible apply keep_foldl | split

theorem keep_sakMake {k : Watch} {s0 a1} (h0 : Kept k s0) : Kept k (sakMake s0 a1) := by
  unfold sakMake
  repeat' first
    | with_reducible assumption
    | with_reducible first | apply keep_sakInstall | apply keep_State_tick1
    | simp only [kept_mk, keptF_fold]
    | split

theorem keep_sakSwitch {k : Watch} {s0 a1} (h0 : Kept k s0) : Kept k (sakSwitch s0 a1) := by
  unfold sakSwitch
  repeat' first
    | with_reducible assumption
    | with_reducible first | apply keep_selectSa | apply keep_State_setMka
    | simp only [kept_mk, keptF_fold]
    | split

theorem keep_sakRetire {k : Watch} {s0 a1} (h0 : Kept k s0) : Kept k (sakRetire s0 a1) := by
  unfold sakRetire
  repeat' first
    | with_reducible assumption
    | with_reducible first | apply keep_State_setMka | apply keep_mp1Remove | apply keep_foldl
    | simp only [kept_mk, keptF_fold]
    | split

theorem keep_mkaTakeSak {k : Watch} {s0 a1 a2 a3} (h0 : Kept k s0) : Kept k (mkaTakeSak s0 a1 a2 a3) := by
  unfold mkaTakeSak
  repeat' first
    | with_reducible assumption
    | with_reducible first | apply keep_sakInstall
    | simp only [kept_mk, keptF_fold]
    | split

theorem keep_mkaStart {k : Watch} {s0 a1} (h0 : Kept k s0) : Kept k (mkaStart s0 a1) := by
  unfold mkaStart
  repeat' first
    | with_reducible assumption
    | with_reducible first | apply keep_State_setMka | apply keep_State_tick1
    | simp only [kept_mk, keptF_fold]
    | split

theorem keep_mkaWants {k : Watch} {s0 a1} (h0 : Kept k s0) : Kept k (mkaWants s0 a1) := by
  unfold mkaWants
  repeat' first
    | with_reducible assumption
    | with_reducible first | apply keep_State_setMka
    | simp only [kept_mk, keptF_fold]
    | split

theorem keep_mkaReceive {k : Watch} {s0 a1 a2} (h0 : Kept k s0) : Kept k (mkaReceive s0 a1 a2) := by
  unfold mkaReceive
  repeat' first
    | with_reducible assumption
    | with_reducible first | apply keep_State_setMka | apply keep_sakSwitch | apply keep_sakMake | apply keep_mkaTakeSak | apply keep_mkaWants
    | simp only [kept_mk, keptF_fold]
    | split

theorem keep_mkaTunnels {k : Watch} {s0 a1 a2} (h0 : Kept k s0) : Kept k (mkaTunnels s0 a1 a2) := by
  unfold mkaTunnels
  repeat' first | with_reducible assumption | with_reducible apply keep_slSend | split

theorem keep_mkaHears {k : Watch} {s0 a1 a2} (h0 : Kept k s0) : Kept k (mkaHears s0 a1 a2) := by
  unfold mkaHears
  repeat' first | with_reducible assumption | with_reducible apply keep_mkaReceive | with_reducible apply keep_mkaStart | split

theorem keep_execMkpduRx {k : Watch} {a0 a1 s2} (h2 : Kept k s2) : KeptR k (execMkpduRx a0 a1 s2) := by
  unfold execMkpduRx
  repeat' first | with_reducible assumption | with_reducible apply keep_ifWf | with_reducible apply keep_mkaHears | with_reducible apply keep_mkaTunnels

theorem keep_mkaSend {k : Watch} {s0 a1} (h0 : Kept k s0) : Kept k (mkaSend s0 a1) := by
  unfold mkaSend
  repeat' first | with_reducible assumption | with_reducible apply keep_State_setMka | with_reducible apply keep_sourceFrame

theorem keep_execMkaHello {k : Watch} {a0 s1} (h1 : Kept k s1) : KeptR k (execMkaHello a0 s1) := by
  unfold execMkaHello
  repeat' first | with_reducible assumption | with_reducible apply keep_ifWf | with_reducible apply keep_whenever | with_reducible apply keep_mkaSend | with_reducible apply keep_sakSwitch | with_reducible apply keep_sakMake | with_reducible apply keep_sakRetire | with_reducible apply keep_mkaWants | with_reducible apply keep_mkaStart

theorem keep_peerGoes {k : Watch} {s0 a1 a2} (h0 : Kept k s0) : Kept k (peerGoes s0 a1 a2) := by
  unfold peerGoes
  repeat' first
    | with_reducible assumption
    | with_reducible first | apply keep_State_setMka | apply keep_sakSwitch | apply keep_sakMake
    | simp only [kept_mk, keptF_fold]
    | split

theorem keep_execMkaPeerTimeout {k : Watch} {a0 a1 s2} (h2 : Kept k s2) : KeptR k (execMkaPeerTimeout a0 a1 s2) := by
  unfold execMkaPeerTimeout
  repeat' first | with_reducible assumption | with_reducible apply keep_ifWf | with_reducible apply keep_whenever | with_reducible apply keep_peerGoes

theorem keep_mkaTakeover {k : Watch} {s0} (h0 : Kept k s0) : Kept k (mkaTakeover s0) := by
  unfold mkaTakeover
  repeat' first
    | with_reducible assumption
    | simp only [kept_mk, keptF_fold]

/-! ### Lin -/

theorem keep_State_setLin {k : Watch} {s0 a1 a2} (h0 : Kept k s0) : Kept k (State.setLin s0 a1 a2) := by
  unfold State.setLin
  repeat' first
    | with_reducible assumption
    | simp only [kept_mk, keptF_fold]

theorem keep_setFtData {k : Watch} {s0 a1 a2 a3} (h0 : Kept k s0) : Kept k (setFtData s0 a1 a2 a3) := by
  unfold setFtData
  repeat' first | with_reducible assumption | with_reducible apply keep_State_setReg

theorem keep_stampFt {k : Watch} {s0 a1 a2 a3} (h0 : Kept k s0) : Kept k (stampFt s0 a1 a2 a3) := by
  unfold stampFt
  repeat' first | with_reducible assumption | with_reducible apply keep_State_setReg

theorem keep_linSend {k : Watch} {s0 a1 a2 a3 a4 a5 a6 a7} (h0 : Kept k s0) : Kept k (linSend s0 a1 a2 a3 a4 a5 a6 a7) := by
  unfold linSend
  repeat' first | with_reducible assumption | with_reducible apply keep_State_emit | with_reducible apply keep_State_setLin

theorem keep_linPublish {k : Watch} {s0 a1 a2 a3 a4 a5} (h0 : Kept k s0) : Kept k (linPublish s0 a1 a2 a3 a4 a5) := by
  unfold linPublish
  repeat' first
    | with_reducible assumption
    | with_reducible first | apply keep_memRead | apply keep_State_bump | apply keep_memLost | apply keep_stampFt | apply keep_State_setBitAt | apply keep_linSend
    | split
    | with_reducible refine kept_fst (by assumption) ?_

theorem keep_linAwait {k : Watch} {s0 a1 a2 a3 a4} (h0 : Kept k s0) : Kept k (linAwait s0 a1 a2 a3 a4) := by
  unfold linAwait
  repeat' first | with_reducible assumption | with_reducible apply keep_State_setLin

theorem keep_linRespond {k : Watch} {s0 a1 a2 a3 a4 a5} (h0 : Kept k s0) : Kept k (linRespond s0 a1 a2 a3 a4 a5) := by
  unfold linRespond
  repeat' first | with_reducible assumption | with_reducible apply keep_linPublish | with_reducible apply keep_linAwait | with_reducible apply keep_State_emit | with_reducible apply keep_State_setLin | split

theorem keep_linSleeps {k : Watch} {s0 a1} (h0 : Kept k s0) : Kept k (linSleeps s0 a1) := by
  unfold linSleeps
  repeat' first | with_reducible assumption | with_reducible apply keep_State_setLin

theorem keep_linStart {k : Watch} {s0 a1 a2 a3} (h0 : Kept k s0) : Kept k (linStart s0 a1 a2 a3) := by
  unfold linStart
  repeat' first | with_reducible assumption | with_reducible apply keep_linSend | with_reducible apply keep_State_setLin | with_reducible apply keep_linRespond | split

theorem keep_linTakes {k : Watch} {s0 a1 a2 a3} (h0 : Kept k s0) : Kept k (linTakes s0 a1 a2 a3) := by
  unfold linTakes
  repeat' first
    | with_reducible assumption
    | with_reducible first | apply keep_linStart | apply keep_State_bump
    | simp only [kept_mk, keptF_fold]
    | split

theorem keep_linEntry {k : Watch} {s0 a1 a2} (h0 : Kept k s0) : Kept k (linEntry s0 a1 a2) := by
  unfold linEntry
  repeat' first | with_reducible assumption | with_reducible apply keep_linTakes | with_reducible apply keep_State_setLin

theorem keep_linPassed {k : Watch} {s0 a1 a2} (h0 : Kept k s0) : Kept k (linPassed s0 a1 a2) := by
  unfold linPassed
  repeat' first | with_reducible assumption | with_reducible apply keep_linTakes | with_reducible apply keep_State_setLin

theorem keep_linSent {k : Watch} {s0 a1} (h0 : Kept k s0) : Kept k (linSent s0 a1) := by
  unfold linSent
  repeat' first | with_reducible assumption | with_reducible apply keep_State_bump | with_reducible apply keep_State_setLin | with_reducible apply keep_linSleeps | split

theorem keep_linLegWrite {k : Watch} {s0 a1} (h0 : Kept k s0) : Kept k (linLegWrite s0 a1) := by
  unfold linLegWrite
  repeat' first
    | with_reducible assumption
    | with_reducible first | apply keep_State_bump | apply keep_State_setBitAt | apply keep_setFtData
    | simp only [kept_mk, keptF_fold]
    | split

theorem keep_linSettle {k : Watch} {s0} (h0 : Kept k s0) : Kept k (linSettle s0) := by
  unfold linSettle
  repeat' first | with_reducible assumption | with_reducible apply keep_linSent | with_reducible apply keep_linLegWrite | with_reducible apply keep_foldl | simp only [kept_mk, keptF_fold]

theorem keep_linSchedule {k : Watch} {s0 a1} (h0 : Kept k s0) : Kept k (linSchedule s0 a1) := by
  unfold linSchedule
  repeat' first
    | with_reducible assumption
    | with_reducible first | apply keep_linPassed | apply keep_linEntry | apply keep_elim
    | intro _
    | split

theorem keep_execLinScheduleEntry {k : Watch} {a0 s1} (h1 : Kept k s1) : KeptR k (execLinScheduleEntry a0 s1) := by
  unfold execLinScheduleEntry
  repeat' first | with_reducible assumption | with_reducible apply keep_ifWf | with_reducible apply keep_linSettle | with_reducible apply keep_whenever | with_reducible apply keep_linSchedule

theorem keep_linRestart {k : Watch} {s0 a1} (h0 : Kept k s0) : Kept k (linRestart s0 a1) := by
  unfold linRestart
  repeat' first
    | with_reducible assumption
    | with_reducible first | apply keep_State_setLin
    | simp only [kept_mk, keptF_fold]
    | split

theorem keep_linCycle {k : Watch} {s0 a1} (h0 : Kept k s0) : Kept k (linCycle s0 a1) := by
  unfold linCycle
  repeat' first | with_reducible assumption | with_reducible apply keep_State_setLin | with_reducible apply keep_linRestart

theorem keep_linResume {k : Watch} {s0 a1} (h0 : Kept k s0) : Kept k (linResume s0 a1) := by
  unfold linResume
  repeat' first | with_reducible assumption | with_reducible apply keep_State_setLin

theorem keep_execLinHeaderRx {k : Watch} {a0 a1 a2 s3} (h3 : Kept k s3) : KeptR k (execLinHeaderRx a0 a1 a2 s3) := by
  unfold execLinHeaderRx
  repeat' first
    | with_reducible assumption
    | with_reducible first | apply keep_ifWf | apply keep_linSettle | apply keep_State_bump | apply keep_linRespond
    | simp only [kept_mk, keptF_fold]
    | split

theorem keep_linTake {k : Watch} {s0 a1 a2 a3} (h0 : Kept k s0) : Kept k (linTake s0 a1 a2 a3) := by
  unfold linTake
  repeat' first
    | with_reducible assumption
    | with_reducible first | apply keep_State_bump | apply keep_State_setLin | apply keep_State_raise | apply keep_stampFt | apply keep_setFtData | apply keep_gweRequest | apply keep_linSleeps
    | simp only [kept_mk, keptF_fold]
    | split

theorem keep_linMissing {k : Watch} {s0 a1} (h0 : Kept k s0) : Kept k (linMissing s0 a1) := by
  unfold linMissing
  repeat' first | with_reducible assumption | with_reducible apply keep_State_raise | with_reducible apply keep_State_bump | with_reducible apply keep_State_setLin

theorem keep_linReceive {k : Watch} {s0 a1 a2 a3 a4} (h0 : Kept k s0) : Kept k (linReceive s0 a1 a2 a3 a4) := by
  unfold linReceive
  repeat' first | with_reducible assumption | with_reducible apply keep_linMissing | with_reducible apply keep_State_raise | with_reducible apply keep_State_bump | with_reducible apply keep_State_setLin | with_reducible apply keep_linTake | split

theorem keep_execLinResponseRx {k : Watch} {a0 a1 a2 s3} (h3 : Kept k s3) : KeptR k (execLinResponseRx a0 a1 a2 s3) := by
  unfold execLinResponseRx
  repeat' first | with_reducible assumption | with_reducible apply keep_ifWf | with_reducible apply keep_linReceive | split

theorem keep_execLinNoResponse {k : Watch} {a0 s1} (h1 : Kept k s1) : KeptR k (execLinNoResponse a0 s1) := by
  unfold execLinNoResponse
  repeat' first | with_reducible assumption | with_reducible apply keep_ifWf | with_reducible apply keep_linMissing | split

theorem keep_execLinIdleSleep {k : Watch} {a0 s1} (h1 : Kept k s1) : KeptR k (execLinIdleSleep a0 s1) := by
  unfold execLinIdleSleep
  repeat' first | with_reducible assumption | with_reducible apply keep_ifWf | with_reducible apply keep_whenever | with_reducible apply keep_linSleeps

theorem keep_linAwakes {k : Watch} {s0 a1} (h0 : Kept k s0) : Kept k (linAwakes s0 a1) := by
  unfold linAwakes
  repeat' first | with_reducible assumption | with_reducible apply keep_State_setLin | split

theorem keep_execLinWakeTx {k : Watch} {a0 a1 s2} (h2 : Kept k s2) : KeptR k (execLinWakeTx a0 a1 s2) := by
  unfold execLinWakeTx
  repeat' first | with_reducible assumption | with_reducible apply keep_ifWf | with_reducible apply keep_State_write | with_reducible apply keep_linAwakes | with_reducible apply keep_State_bump | with_reducible apply keep_State_emit

theorem keep_linModeCommit {k : Watch} {s0 a1} (h0 : Kept k s0) : Kept k (linModeCommit s0 a1) := by
  unfold linModeCommit
  repeat' first | with_reducible assumption | with_reducible apply keep_State_setLin | with_reducible apply keep_linSleeps | split

end Sys2Proof.Laws
end

