-- ==== Sys2Proof/Laws/Keep5.lean ====
section
/-!
SUPPORT. `Kept` for the functions of Machine/: Gateway, GatewayIn, ModeOps, TwinOps, SyncPoint.
-/
set_option linter.unusedSimpArgs false
namespace Sys2Proof.Laws
set_option Elab.async false
open Sys2Proof Sys2Proof.Machine

/-! ### Gateway -/

theorem keep_enqueue {k : Watch} {s0 a1} (h0 : Kept k s0) : Kept k (enqueue s0 a1) := by
  unfold enqueue
  repeat' first
    | with_reducible assumption
    | with_reducible first | apply keep_State_raise | apply keep_State_bump
    | simp only [kept_mk, keptF_fold]
    | split

theorem keep_State_setHrun {k : Watch} {s0 a1 a2} (h0 : Kept k s0) : Kept k (State.setHrun s0 a1 a2) := by
  unfold State.setHrun
  repeat' first
    | with_reducible assumption
    | simp only [kept_mk, keptF_fold]

theorem keep_gweLose {k : Watch} {s0 a1} (h0 : Kept k s0) : Kept k (gweLose s0 a1) := by
  unfold gweLose
  dsimp only
  split
  · exact keep_State_tick1 (kept_erase h0)
  · exact keep_State_tick1 h0

theorem keep_lvcLose {k : Watch} {s0 a1} (h0 : Kept k s0) : Kept k (lvcLose s0 a1) := by
  unfold lvcLose
  repeat' first
    | with_reducible assumption
    | simp only [kept_mk, keptF_fold]

theorem keep_gweLoseAny {k : Watch} {s0} (h0 : Kept k s0) : Kept k (gweLoseAny s0) := by
  unfold gweLoseAny
  repeat' first
    | with_reducible assumption
    | with_reducible first | apply keep_State_tick1 | apply keep_lvcLose | apply keep_gweLose
    | simp only [kept_mk, keptF_fold]
    | split

theorem keep_gweRead {k : Watch} {s0} (h0 : Kept k s0) : Kept k (gweRead s0).1 := by
  unfold gweRead
  repeat' first
    | with_reducible assumption
    | with_reducible first | apply keep_memRead | apply keep_memRepeated | apply keep_State_report | apply keep_State_raise | apply keep_State_bump
    | split
    | with_reducible refine kept_fst (by assumption) ?_

theorem keep_reinject {k : Watch} {s0 a1 a2} (h0 : Kept k s0) : Kept k (reinject s0 a1 a2) := by
  unfold reinject
  repeat' first
    | with_reducible assumption
    | with_reducible first | apply keep_gweRead | apply keep_State_setHrun | apply keep_lvcLose | apply keep_enqueue
    | simp only [kept_mk, keptF_fold]
    | split
    | with_reducible refine kept_fst (by assumption) ?_

theorem keep_gweEnters {k : Watch} {s0 a1} (h0 : Kept k s0) : Kept k (gweEnters s0 a1) := by
  unfold gweEnters
  repeat' first
    | with_reducible assumption
    | with_reducible first | apply keep_reinject | apply keep_enqueue
    | simp only [kept_mk, keptF_fold]
    | split

theorem keep_gweTakeTo {k : Watch} {a0 a1 s2} (h2 : Kept k s2) : Kept k (gweTakeTo a0 a1 s2) := by
  induction a1 generalizing s2 with
  | zero => exact h2
  | succ n ih =>
    unfold gweTakeTo
    split
    · exact h2
    · exact ih (keep_gweEnters h2)

theorem keep_gweTake {k : Watch} {s0} (h0 : Kept k s0) : Kept k (gweTake s0) := by
  unfold gweTake
  repeat' first | with_reducible assumption | with_reducible apply keep_gweTakeTo | split

theorem keep_execGweEnqueue {k : Watch} {s0} (h0 : Kept k s0) : KeptR k (execGweEnqueue s0) := by
  unfold execGweEnqueue
  repeat' first | with_reducible assumption | with_reducible apply keep_gweTake | with_reducible apply keptR_next

theorem keep_gweReinjectOp {k : Watch} {s0 a1} (h0 : Kept k s0) : Kept k (gweReinjectOp s0 a1) := by
  unfold gweReinjectOp
  repeat' first | with_reducible assumption | with_reducible apply keep_gweTakeTo | split

theorem keep_execGweReinject {k : Watch} {a0 s1} (h1 : Kept k s1) : KeptR k (execGweReinject a0 s1) := by
  unfold execGweReinject
  repeat' first | with_reducible assumption | with_reducible apply keep_ifWf | with_reducible apply keep_gweReinjectOp

theorem keep_lvcWrite {k : Watch} {s0 a1 a2} (h0 : Kept k s0) : Kept k (lvcWrite s0 a1 a2) := by
  unfold lvcWrite
  repeat' first
    | with_reducible assumption
    | simp only [kept_mk, keptF_fold]

theorem keep_intervalHeld {k : Watch} {s0 a1 a2 a3} (h0 : Kept k s0) : Kept k (intervalHeld s0 a1 a2 a3) := by
  unfold intervalHeld
  repeat' first | with_reducible assumption | with_reducible apply keep_State_bump | with_reducible apply keep_State_setHrun | split

theorem keep_canLeg {k : Watch} {s0 a1 a2 a3 a4 a5} (h0 : Kept k s0) : Kept k (canLeg s0 a1 a2 a3 a4 a5) := by
  unfold canLeg
  repeat' first
    | with_reducible assumption
    | with_reducible first | apply keep_State_bump | apply keep_State_setCan
    | simp only [kept_mk, keptF_fold]
    | split

theorem keep_linLeg {k : Watch} {s0 a1 a2 a3} (h0 : Kept k s0) : Kept k (linLeg s0 a1 a2 a3) := by
  unfold linLeg
  repeat' first
    | with_reducible assumption
    | with_reducible first | apply keep_State_bump
    | simp only [kept_mk, keptF_fold]
    | split

theorem keep_closeBatch {k : Watch} {s0 a1 a2 a3} (h0 : Kept k s0) : Kept k (closeBatch s0 a1 a2 a3) := by
  unfold closeBatch
  repeat' first
    | with_reducible assumption
    | with_reducible first | apply keep_State_raise | apply keep_State_bump
    | simp only [kept_mk, keptF_fold]
    | split

theorem keep_closeEnded {k : Watch} {s0 a1 a2 a3} (h0 : Kept k s0) : Kept k (closeEnded s0 a1 a2 a3) := by
  unfold closeEnded
  repeat' first | with_reducible assumption | with_reducible apply keep_closeBatch | split

theorem keep_noteDecided {k : Watch} {s0 a1 a2} (h0 : Kept k s0) : Kept k (noteDecided s0 a1 a2) := by
  unfold noteDecided
  repeat' first
    | with_reducible assumption
    | simp only [kept_mk, keptF_fold]

theorem keep_ethLeg {k : Watch} {s0 a1 a2 a3} (h0 : Kept k s0) : Kept k (ethLeg s0 a1 a2 a3) := by
  unfold ethLeg
  repeat' first
    | with_reducible assumption
    | with_reducible first | apply keep_State_bump | apply keep_closeEnded | apply keep_closeBatch
    | simp only [kept_mk, keptF_fold]
    | split

theorem keep_oneLeg {k : Watch} {s0 a1 a2 a3 a4 a5} (h0 : Kept k s0) : Kept k (oneLeg s0 a1 a2 a3 a4 a5) := by
  unfold oneLeg
  repeat' first
    | with_reducible assumption
    | with_reducible first | apply keep_State_bump | apply keep_canLeg | apply keep_linLeg | apply keep_ethLeg
    | simp only [kept_mk, keptF_fold]
    | split

theorem keep_allLegs {k : Watch} {a0 a1 a2 a3 a4 s5} (h5 : Kept k s5) : Kept k (allLegs a0 a1 a2 a3 a4 s5) := by
  induction a4 generalizing a3 s5 with
  | nil => exact h5
  | cons v rest ih =>
    unfold allLegs
    exact ih (keep_oneLeg h5)

theorem keep_decideMsg {k : Watch} {s0 a1 a2 a3} (h0 : Kept k s0) : Kept k (decideMsg s0 a1 a2 a3) := by
  unfold decideMsg
  repeat' first
    | with_reducible assumption
    | with_reducible first | apply keep_State_bump | apply keep_lvcWrite | apply keep_intervalHeld | apply keep_State_setHrun | apply keep_allLegs
    | simp only [kept_mk, keptF_fold]
    | split

theorem keep_routeMsg {k : Watch} {s0 a1 a2} (h0 : Kept k s0) : Kept k (routeMsg s0 a1 a2) := by
  unfold routeMsg
  repeat' first
    | with_reducible assumption
    | with_reducible first | apply keep_gweRead | apply keep_gweLose | apply keep_State_bump | apply keep_decideMsg
    | split
    | with_reducible refine kept_fst (by assumption) ?_

theorem keep_admitMsg {k : Watch} {s0 a1 a2} (h0 : Kept k s0) : Kept k (admitMsg s0 a1 a2) := by
  unfold admitMsg
  repeat' first | with_reducible assumption | with_reducible apply keep_State_bump | simp only [kept_mk, keptF_fold]

theorem keep_decideDue {k : Watch} {s0 a1} (h0 : Kept k s0) : Kept k (decideDue s0 a1) := by
  unfold decideDue
  repeat' first
    | with_reducible assumption
    | with_reducible first | apply keep_routeMsg | apply keep_noteDecided
    | simp only [kept_mk, keptF_fold]
    | split

theorem keep_gweCycle {k : Watch} {s0} (h0 : Kept k s0) : Kept k (gweCycle s0) := by
  unfold gweCycle
  repeat' first | with_reducible assumption | with_reducible apply keep_decideDue | with_reducible apply keep_foldl | simp only [kept_mk, keptF_fold]

theorem keep_execRouteAdmit {k : Watch} {s0} (h0 : Kept k s0) : KeptR k (execRouteAdmit s0) := by
  unfold execRouteAdmit
  repeat' first | with_reducible assumption | with_reducible apply keep_admitMsg | with_reducible apply keptR_next | split

theorem keep_execBatchHoldExpire {k : Watch} {a0 s1} (h1 : Kept k s1) : KeptR k (execBatchHoldExpire a0 s1) := by
  unfold execBatchHoldExpire
  repeat' first | with_reducible assumption | with_reducible apply keep_ifWf | with_reducible apply keep_closeBatch | split

theorem keep_batchEnter {k : Watch} {s0 a1} (h0 : Kept k s0) : Kept k (batchEnter s0 a1) := by
  unfold batchEnter
  repeat' first | with_reducible assumption | with_reducible apply keep_sourceFrame | simp only [kept_mk, keptF_fold]

theorem keep_execBatchFrameEnter {k : Watch} {s0} (h0 : Kept k s0) : KeptR k (execBatchFrameEnter s0) := by
  unfold execBatchFrameEnter
  repeat' first | with_reducible assumption | with_reducible apply keep_batchEnter | with_reducible apply keptR_next | split

/-! ### GatewayIn -/

theorem keep_acfTake {k : Watch} {s0 a1 a2 a3 a4 a5 a6} (h0 : Kept k s0) : Kept k (acfTake s0 a1 a2 a3 a4 a5 a6) := by
  unfold acfTake
  repeat' first
    | with_reducible assumption
    | with_reducible first | apply keep_State_bump
    | simp only [kept_mk, keptF_fold]
    | split

theorem keep_acfWalk {k : Watch} {a0 a1 a2 a3 a4 s5} (h5 : Kept k s5) : Kept k (acfWalk a0 a1 a2 a3 a4 s5) := by
  induction a3 generalizing a4 s5 with
  | zero => exact h5
  | succ n ih =>
    unfold acfWalk
    dsimp only
    split
    · exact h5
    · split
      · exact keep_State_bump h5
      · apply ih
        split
        · exact keep_State_bump h5
        · exact keep_acfTake h5

theorem keep_acceptAvtp {k : Watch} {s0 a1 a2} (h0 : Kept k s0) : Kept k (acceptAvtp s0 a1 a2) := by
  unfold acceptAvtp
  repeat' first
    | with_reducible assumption
    | with_reducible first | apply keep_State_bump | apply keep_acfWalk
    | simp only [kept_mk, keptF_fold]
    | split

theorem keep_istreamRead {k : Watch} {s0} (h0 : Kept k s0) : Kept k (istreamRead s0) := by
  unfold istreamRead
  repeat' first
    | with_reducible assumption
    | with_reducible first | apply keep_gweRead | apply keep_gweLose
    | split
    | with_reducible refine kept_fst (by assumption) ?_

theorem keep_execGweDecapsulate {k : Watch} {s0} (h0 : Kept k s0) : KeptR k (execGweDecapsulate s0) := by
  unfold execGweDecapsulate
  repeat' first
    | with_reducible assumption
    | with_reducible first | apply keep_istreamRead | apply keep_State_bump | apply keep_acceptAvtp | apply keptR_next
    | simp only [kept_mk, keptF_fold]
    | split

theorem keep_gweStatus {k : Watch} {s0 a1} (h0 : Kept k s0) : Kept k (gweStatus s0 a1) := by
  unfold gweStatus
  repeat' first | with_reducible assumption | with_reducible apply keep_State_setReg

theorem keep_setGweData {k : Watch} {s0 a1} (h0 : Kept k s0) : Kept k (setGweData s0 a1) := by
  unfold setGweData
  repeat' first | with_reducible assumption | with_reducible apply keep_State_setReg | with_reducible apply keep_foldl | intro _

theorem keep_gweReadOp {k : Watch} {a0 s1} (h1 : Kept k s1) : Kept k (gweReadOp a0 s1) := by
  unfold gweReadOp
  repeat' first
    | with_reducible assumption
    | with_reducible first | apply keep_gweRead | apply keep_gweStatus | apply keep_gweLose | apply keep_setGweData
    | split
    | with_reducible refine kept_fst (by assumption) ?_

theorem keep_execGweTblRead {k : Watch} {a0 s1} (h1 : Kept k s1) : KeptR k (execGweTblRead a0 s1) := by
  unfold execGweTblRead
  repeat' first | with_reducible assumption | with_reducible apply keep_State_write | with_reducible apply keep_gweReadOp | with_reducible apply keptR_next

theorem keep_execGweTblReadPending {k : Watch} {a0 s1} (h1 : Kept k s1) : KeptR k (execGweTblReadPending a0 s1) := by
  unfold execGweTblReadPending
  repeat' first | with_reducible assumption | with_reducible apply keep_State_write | with_reducible apply keep_gweReadOp | with_reducible apply keptR_next

theorem keep_gweStageOne {k : Watch} {s0 a1 a2 a3 a4} (h0 : Kept k s0) : Kept k (gweStageOne s0 a1 a2 a3 a4) := by
  unfold gweStageOne
  repeat' first | with_reducible assumption | with_reducible apply keep_gweStatus | with_reducible apply keep_stageOne | split

theorem keep_gweStageOp {k : Watch} {a0 s1} (h1 : Kept k s1) : Kept k (gweStageOp a0 s1) := by
  unfold gweStageOp
  repeat' first
    | with_reducible assumption
    | with_reducible first | apply keep_gweStatus | apply keep_State_siltRefused | apply keep_gweStageOne
    | simp only [kept_mk, keptF_fold]
    | split

theorem keep_execGweTblStage {k : Watch} {a0 s1} (h1 : Kept k s1) : KeptR k (execGweTblStage a0 s1) := by
  unfold execGweTblStage
  repeat' first | with_reducible assumption | with_reducible apply keep_State_write | with_reducible apply keep_gweStageOp | with_reducible apply keptR_next

theorem keep_gweLvcLatch {k : Watch} {s0 a1} (h0 : Kept k s0) : Kept k (gweLvcLatch s0 a1) := by
  unfold gweLvcLatch
  repeat' first | with_reducible assumption | with_reducible apply keep_State_setReg | with_reducible apply keep_foldl | intro _

theorem keep_gweCancelOne {k : Watch} {s0 a1} (h0 : Kept k s0) : Kept k (gweCancelOne s0 a1) := by
  unfold gweCancelOne
  repeat' first | with_reducible assumption | with_reducible apply keep_askCancel | with_reducible apply keep_foldl | intro _

theorem keep_gweCancels {k : Watch} {s0 a1} (h0 : Kept k s0) : Kept k (gweCancels s0 a1) := by
  unfold gweCancels
  repeat' first | with_reducible assumption | with_reducible apply keep_gweCancelOne | with_reducible apply keep_foldl

theorem keep_gweStandby {k : Watch} {s0} (h0 : Kept k s0) : Kept k (gweStandby s0) := by
  unfold gweStandby
  repeat' first
    | with_reducible assumption
    | simp only [kept_mk, keptF_fold]

theorem keep_gweTakeover {k : Watch} {s0} (h0 : Kept k s0) : Kept k (gweTakeover s0) := by
  unfold gweTakeover
  repeat' first
    | with_reducible assumption
    | simp only [kept_mk, keptF_fold]

/-! ### ModeOps -/

theorem keep_putRsp {k : Watch} {a0 a1 a2 s3} (h3 : Kept k s3) : Kept k (putRsp a0 a1 a2 s3) := by
  induction a2 generalizing a1 s3 with
  | nil => exact h3
  | cons v rest ih =>
    unfold putRsp
    exact ih (keep_State_setFld h3)

theorem keep_mbxRespond {k : Watch} {s0 a1 a2 a3} (h0 : Kept k s0) : Kept k (mbxRespond s0 a1 a2 a3) := by
  unfold mbxRespond
  repeat' first | with_reducible assumption | with_reducible apply keep_putRsp | with_reducible apply keep_State_setReg | with_reducible apply keep_State_sendVec | simp only [kept_mk, keptF_fold]

theorem keep_mbxDoor {k : Watch} {s0 a1} (h0 : Kept k s0) : Kept k (mbxDoor s0 a1) := by
  unfold mbxDoor
  repeat' first
    | with_reducible assumption
    | with_reducible first | apply keep_State_setBitAt | apply keep_State_setReg
    | simp only [kept_mk, keptF_fold]
    | split

theorem keep_mbxServe {k : Watch} {s0 a1 a2 a3 a4} (h0 : Kept k s0) (h4 : ∀ x0, Kept k x0 → Kept k (a4 x0)) : Kept k (mbxServe s0 a1 a2 a3 a4) := by
  unfold mbxServe
  repeat' split
  all_goals first | exact h0 | exact keep_mbxRespond h0 | exact h4 _ h0

theorem keep_setMode {k : Watch} {s0 a1 a2 a3 a4} (h0 : Kept k s0) : Kept k (setMode s0 a1 a2 a3 a4) := by
  unfold setMode
  repeat' first
    | with_reducible assumption
    | with_reducible first | apply keep_State_raise | apply keep_State_silt_
    | simp only [kept_mk, keptF_fold]
    | split

theorem keep_roleMode {k : Watch} {s0 a1} (h0 : Kept k s0) : Kept k (roleMode s0 a1) := by
  unfold roleMode
  repeat' first | with_reducible assumption | with_reducible apply keep_setMode

theorem keep_commitStat {k : Watch} {s0 a1 a2 a3 a4} (h0 : Kept k s0) : Kept k (commitStat s0 a1 a2 a3 a4) := by
  unfold commitStat
  repeat' first | with_reducible assumption | with_reducible apply keep_State_setReg | split

theorem keep_refusePart {k : Watch} {a0 s1 a2} (h1 : Kept k s1) : Kept k (refusePart a0 s1 a2) := by
  unfold refusePart
  repeat' first | with_reducible assumption | with_reducible apply keep_State_raise | with_reducible apply keep_commitStat | with_reducible apply keep_unarmRecords | with_reducible apply keep_returnShadows

theorem keep_discardCommits {k : Watch} {s0} (h0 : Kept k s0) : Kept k (discardCommits s0) := by
  unfold discardCommits
  repeat' first | with_reducible assumption | with_reducible apply keep_refusePart | with_reducible apply keep_foldl | simp only [kept_mk, keptF_fold]

theorem keep_aliveFall {k : Watch} {s0} (h0 : Kept k s0) : Kept k (aliveFall s0) := by
  unfold aliveFall
  repeat' first
    | with_reducible assumption
    | simp only [kept_mk, keptF_fold]

theorem keep_roleNone {k : Watch} {s0} (h0 : Kept k s0) : Kept k (roleNone s0) := by
  unfold roleNone
  repeat' first
    | with_reducible assumption
    | simp only [kept_mk, keptF_fold]

theorem keep_canStops {k : Watch} {s0 a1} (h0 : Kept k s0) : Kept k (canStops s0 a1) := by
  unfold canStops
  repeat' first | with_reducible assumption | with_reducible apply keep_unlockToList | with_reducible apply keep_State_setCan

theorem keep_linStops {k : Watch} {s0 a1} (h0 : Kept k s0) : Kept k (linStops s0 a1) := by
  unfold linStops
  repeat' first | with_reducible assumption | with_reducible apply keep_State_setLin

theorem keep_ppoStops {k : Watch} {s0 a1} (h0 : Kept k s0) : Kept k (ppoStops s0 a1) := by
  unfold ppoStops
  repeat' first | with_reducible assumption | with_reducible apply keep_State_setPpo

theorem keep_stopOutputs {k : Watch} {s0} (h0 : Kept k s0) : Kept k (stopOutputs s0) := by
  unfold stopOutputs
  repeat' first | with_reducible assumption | with_reducible apply keep_portDisable | with_reducible apply keep_canStops | with_reducible apply keep_linStops | with_reducible apply keep_ppoStops | with_reducible apply keep_foldl

theorem keep_swapAnswer {k : Watch} {s0 a1} (h0 : Kept k s0) : Kept k (swapAnswer s0 a1) := by
  unfold swapAnswer
  repeat' first | with_reducible assumption | with_reducible apply keep_mbxRespond | split

theorem keep_quarantine {k : Watch} {s0 a1 a2 a3 a4} (h0 : Kept k s0) : Kept k (quarantine s0 a1 a2 a3 a4) := by
  unfold quarantine
  repeat' first
    | with_reducible assumption
    | with_reducible first | apply keep_roleNone | apply keep_aliveFall | apply keep_discardCommits | apply keep_swapAnswer | apply keep_stopOutputs | apply keep_State_bump | apply keep_State_setReg | apply keep_setMode
    | simp only [kept_mk, keptF_fold]
    | split

theorem keep_faultStop {k : Watch} {s0 a1} (h0 : Kept k s0) : Kept k (faultStop s0 a1) := by
  unfold faultStop
  repeat' first | with_reducible assumption | with_reducible apply keep_quarantine | split

/-! ### TwinOps -/

theorem keep_siltRole {k : Watch} {s0 a1 a2 a3 a4} (h0 : Kept k s0) : Kept k (siltRole s0 a1 a2 a3 a4) := by
  unfold siltRole
  repeat' first | with_reducible assumption | with_reducible apply keep_State_silt_

theorem keep_sendJoin {k : Watch} {s0} (h0 : Kept k s0) : Kept k (sendJoin s0) := by
  unfold sendJoin
  repeat' first
    | with_reducible assumption
    | with_reducible first | apply keep_slSend
    | simp only [kept_mk, keptF_fold]
    | split

theorem keep_updateDigest {k : Watch} {s0} (h0 : Kept k s0) : Kept k (updateDigest s0) := by
  unfold updateDigest
  repeat' first | with_reducible assumption | with_reducible apply keep_State_setReg | with_reducible apply keep_State_setPair | simp only [kept_mk, keptF_fold]

theorem keep_adoptOwner {k : Watch} {a0 s1 a2} (h1 : Kept k s1) : Kept k (adoptOwner a0 s1 a2) := by
  unfold adoptOwner
  repeat' first | with_reducible assumption | with_reducible apply keep_State_setFld | split

theorem keep_adoptOwners {k : Watch} {s0 a1} (h0 : Kept k s0) : Kept k (adoptOwners s0 a1) := by
  unfold adoptOwners
  repeat' first | with_reducible assumption | with_reducible apply keep_State_setFld | with_reducible apply keep_adoptOwner | with_reducible apply keep_State_setPair | with_reducible apply keep_foldl | intro _

theorem keep_adoptBucket {k : Watch} {a0 s1 a2} (h1 : Kept k s1) : Kept k (adoptBucket a0 s1 a2) := by
  unfold adoptBucket
  repeat' first
    | with_reducible assumption
    | with_reducible first | apply keep_setBucket
    | simp only [kept_mk, keptF_fold]
    | split

theorem keep_adoptCredit {k : Watch} {a0 s1 a2} (h1 : Kept k s1) : Kept k (adoptCredit a0 s1 a2) := by
  unfold adoptCredit
  repeat' first | with_reducible assumption | with_reducible apply keep_setCredit | split

theorem keep_adoptHold {k : Watch} {a0 s1 a2} (h1 : Kept k s1) : Kept k (adoptHold a0 s1 a2) := by
  unfold adoptHold
  repeat' first | with_reducible assumption | with_reducible apply keep_State_setEgs | split

theorem keep_adoptSeq {k : Watch} {a0 a1 s2 a3} (h2 : Kept k s2) : Kept k (adoptSeq a0 a1 s2 a3) := by
  unfold adoptSeq
  repeat' first | with_reducible assumption | with_reducible apply keep_State_hwSet | split

theorem keep_adoptEgress {k : Watch} {s0 a1 a2} (h0 : Kept k s0) : Kept k (adoptEgress s0 a1 a2) := by
  unfold adoptEgress
  repeat' first | with_reducible assumption | with_reducible apply keep_adoptBucket | with_reducible apply keep_adoptCredit | with_reducible apply keep_adoptHold | with_reducible apply keep_foldl

theorem keep_adoptPolicing {k : Watch} {s0 a1 a2} (h0 : Kept k s0) : Kept k (adoptPolicing s0 a1 a2) := by
  unfold adoptPolicing
  repeat' first
    | with_reducible assumption
    | simp only [kept_mk, keptF_fold]

theorem keep_adoptSeqs {k : Watch} {s0 a1 a2} (h0 : Kept k s0) : Kept k (adoptSeqs s0 a1 a2) := by
  unfold adoptSeqs
  repeat' first | with_reducible assumption | with_reducible apply keep_adoptSeq | with_reducible apply keep_foldl | simp only [kept_mk, keptF_fold]

theorem keep_adoptTraffic {k : Watch} {s0 a1 a2} (h0 : Kept k s0) : Kept k (adoptTraffic s0 a1 a2) := by
  unfold adoptTraffic
  repeat' first | with_reducible assumption | with_reducible apply keep_adoptSeqs | with_reducible apply keep_adoptPolicing | with_reducible apply keep_adoptEgress

theorem keep_adoptDeltas {k : Watch} {s0 a1 a2} (h0 : Kept k s0) : Kept k (adoptDeltas s0 a1 a2) := by
  unfold adoptDeltas
  repeat' first
    | with_reducible assumption
    | with_reducible first | apply keep_setFlow | apply keep_foldl
    | intro _
    | simp only [kept_mk, keptF_fold]

theorem keep_adoptTime {k : Watch} {a0 s1 a2} (h1 : Kept k s1) : Kept k (adoptTime a0 s1 a2) := by
  unfold adoptTime
  repeat' first | with_reducible assumption | with_reducible apply keep_domAdopt | split

theorem keep_syncLost {k : Watch} {s0} (h0 : Kept k s0) : Kept k (syncLost s0) := by
  unfold syncLost
  repeat' first
    | with_reducible assumption
    | with_reducible first | apply keep_siltRole | apply keep_State_raise | apply keep_roleMode
    | simp only [kept_mk, keptF_fold]
    | split

theorem keep_syncGained {k : Watch} {s0} (h0 : Kept k s0) : Kept k (syncGained s0) := by
  unfold syncGained
  repeat' first
    | with_reducible assumption
    | with_reducible first | apply keep_siltRole | apply keep_State_bump | apply keep_State_raise | apply keep_roleMode
    | simp only [kept_mk, keptF_fold]
    | split

theorem keep_readyTime {k : Watch} {s0} (h0 : Kept k s0) : Kept k (readyTime s0) := by
  unfold readyTime
  repeat' first | with_reducible assumption | with_reducible apply keep_State_raise | with_reducible apply keep_State_setReg | split

theorem keep_roleEntered {k : Watch} {s0 a1} (h0 : Kept k s0) : Kept k (roleEntered s0 a1) := by
  unfold roleEntered
  repeat' first | with_reducible assumption | with_reducible apply keep_State_raise | with_reducible apply keep_readyTime | simp only [kept_mk, keptF_fold]

theorem keep_raiseTerm {k : Watch} {s0} (h0 : Kept k s0) : Kept k (raiseTerm s0) :=
  keep_State_setReg h0

theorem keep_takeActive {k : Watch} {s0 a1} (h0 : Kept k s0) : Kept k (takeActive s0 a1) := by
  unfold takeActive
  repeat' first
    | with_reducible assumption
    | simp only [kept_mk, keptF_fold]

theorem keep_canHeld {k : Watch} {s0 a1} (h0 : Kept k s0) : Kept k (canHeld s0 a1) := by
  unfold canHeld
  repeat' first
    | with_reducible assumption
    | with_reducible first | apply keep_State_setCan
    | simp only [kept_mk, keptF_fold]
    | split

theorem keep_takeStandby {k : Watch} {s0 a1} (h0 : Kept k s0) : Kept k (takeStandby s0 a1) := by
  unfold takeStandby
  repeat' first | with_reducible assumption | with_reducible apply keep_canHeld | with_reducible apply keep_gweStandby | with_reducible apply keep_foldl | simp only [kept_mk, keptF_fold]

theorem keep_authTakeover {k : Watch} {s0 a1} (h0 : Kept k s0) : Kept k (authTakeover s0 a1) := by
  unfold authTakeover
  repeat' first | with_reducible assumption | with_reducible apply keep_State_setAuth

theorem keep_authsTakeover {k : Watch} {s0} (h0 : Kept k s0) : Kept k (authsTakeover s0) := by
  unfold authsTakeover
  repeat' first | with_reducible assumption | with_reducible apply keep_authTakeover | with_reducible apply keep_foldl

theorem keep_loadPns {k : Watch} {s0} (h0 : Kept k s0) : Kept k (loadPns s0) := by
  unfold loadPns
  repeat' first
    | with_reducible assumption
    | with_reducible first | apply keep_State_setPair | apply keep_foldl
    | intro _
    | split

theorem keep_loadMka {k : Watch} {s0} (h0 : Kept k s0) : Kept k (loadMka s0) := by
  unfold loadMka
  repeat' first
    | with_reducible assumption
    | simp only [kept_mk, keptF_fold]
    | split

theorem keep_roleFixups {k : Watch} {s0} (h0 : Kept k s0) : Kept k (roleFixups s0) := by
  unfold roleFixups
  repeat' first | with_reducible assumption | with_reducible apply keep_mkaTakeover | with_reducible apply keep_loadMka | with_reducible apply keep_gweTakeover | with_reducible apply keep_authsTakeover | with_reducible apply keep_linResume | with_reducible apply keep_foldl

theorem keep_takeover {k : Watch} {s0} (h0 : Kept k s0) : Kept k (takeover s0) := by
  unfold takeover
  repeat' first | with_reducible assumption | with_reducible apply keep_takeActive | with_reducible apply keep_State_raise | simp only [kept_mk, keptF_fold]

theorem keep_takeoverClaims {k : Watch} {s0} (h0 : Kept k s0) : Kept k (takeoverClaims s0) := by
  unfold takeoverClaims
  repeat' first | with_reducible assumption | with_reducible apply keep_raiseTerm | with_reducible apply keep_State_raise | with_reducible apply keep_State_bump | simp only [kept_mk, keptF_fold]

theorem keep_takeoverOpens {k : Watch} {s0} (h0 : Kept k s0) : Kept k (takeoverOpens s0) := by
  unfold takeoverOpens
  repeat' first | with_reducible assumption | with_reducible apply keep_mscTakeover | with_reducible apply keep_loadPns | with_reducible apply keep_roleMode | simp only [kept_mk, keptF_fold]

theorem keep_takeoverStep {k : Watch} {s0} (h0 : Kept k s0) : Kept k (takeoverStep s0) := by
  unfold takeoverStep
  repeat' first
    | with_reducible assumption
    | with_reducible first | apply keep_takeoverClaims | apply keep_takeoverOpens
    | simp only [kept_mk, keptF_fold]
    | split

theorem keep_siltTerm {k : Watch} {s0 a1} (h0 : Kept k s0) : Kept k (siltTerm s0 a1) := by
  unfold siltTerm
  repeat' first | with_reducible assumption | with_reducible apply keep_siltRole

theorem keep_mismatchNoted {k : Watch} {s0 a1} (h0 : Kept k s0) : Kept k (mismatchNoted s0 a1) := by
  unfold mismatchNoted
  repeat' first
    | with_reducible assumption
    | simp only [kept_mk, keptF_fold]

theorem keep_digestMismatch {k : Watch} {s0} (h0 : Kept k s0) : Kept k (digestMismatch s0) := by
  unfold digestMismatch
  repeat' first
    | with_reducible assumption
    | with_reducible first | apply keep_siltTerm | apply keep_State_report | apply keep_State_raise | apply keep_State_bump | apply keep_mismatchNoted
    | simp only [kept_mk, keptF_fold]
    | split

theorem keep_rejoin {k : Watch} {s0} (h0 : Kept k s0) : Kept k (rejoin s0) := by
  unfold rejoin
  repeat' first | with_reducible assumption | with_reducible apply keep_sendJoin | simp only [kept_mk, keptF_fold]

/-! ### SyncPoint -/

theorem keep_sendCommit {k : Watch} {s0 a1} (h0 : Kept k s0) : Kept k (sendCommit s0 a1) := by
  unfold sendCommit
  repeat' first | with_reducible assumption | with_reducible apply keep_slSend | split

theorem keep_sendSnapshot {k : Watch} {s0} (h0 : Kept k s0) : Kept k (sendSnapshot s0) := by
  unfold sendSnapshot
  repeat' first
    | with_reducible assumption
    | with_reducible first | apply keep_slSend | apply keep_roleMode
    | simp only [kept_mk, keptF_fold]
    | split

theorem keep_deltasLeft {k : Watch} {s0 a1 a2 a3} (h0 : Kept k s0) : Kept k (deltasLeft s0 a1 a2 a3) := by
  unfold deltasLeft
  repeat' first
    | with_reducible assumption
    | simp only [kept_mk, keptF_fold]

theorem keep_sendSync {k : Watch} {s0} (h0 : Kept k s0) : Kept k (sendSync s0) := by
  unfold sendSync
  repeat' first | with_reducible assumption | with_reducible apply keep_sendSnapshot | with_reducible apply keep_State_bumpBy | with_reducible apply keep_State_bump | with_reducible apply keep_slSend | with_reducible apply keep_State_tick1 | with_reducible apply keep_deltasLeft | split

theorem keep_rebindAll {k : Watch} {a0 s1} (h1 : Kept k s1) : Kept k (rebindAll a0 s1) := by
  unfold rebindAll
  repeat' first | with_reducible assumption | with_reducible apply keep_sendCommit | with_reducible apply keep_foldl | simp only [kept_mk, keptF_fold]

theorem keep_syncPoint {k : Watch} {s0} (h0 : Kept k s0) : Kept k (syncPoint s0) := by
  unfold syncPoint
  repeat' first
    | with_reducible assumption
    | with_reducible first | apply keep_State_setReg | apply keep_rebindAll | apply keep_sendSync | apply keep_syncLost | apply keep_sendJoin
    | simp only [kept_mk, keptF_fold]
    | split

theorem keep_forcedPoint {k : Watch} {s0} (h0 : Kept k s0) : Kept k (forcedPoint s0) := by
  unfold forcedPoint
  repeat' first | with_reducible assumption | with_reducible apply keep_syncPoint | with_reducible apply keep_State_raise | with_reducible apply keep_State_bump

theorem keep_execForcedSyncPoint {k : Watch} {s0} (h0 : Kept k s0) : KeptR k (execForcedSyncPoint s0) := by
  unfold execForcedSyncPoint
  repeat' first | with_reducible assumption | with_reducible apply keep_whenever | with_reducible apply keep_forcedPoint | with_reducible apply keptR_next

theorem keep_canCycle {k : Watch} {s0 a1} (h0 : Kept k s0) : Kept k (canCycle s0 a1) := by
  unfold canCycle
  repeat' first
    | with_reducible assumption
    | with_reducible first | apply keep_State_setCan
    | simp only [kept_mk, keptF_fold]
    | split

theorem keep_busCycle {k : Watch} {s0} (h0 : Kept k s0) : Kept k (busCycle s0) := by
  unfold busCycle
  repeat' first | with_reducible assumption | with_reducible apply keep_linCycle | with_reducible apply keep_canCycle | with_reducible apply keep_foldl

theorem keep_markCrossed {k : Watch} {s0} (h0 : Kept k s0) : Kept k (markCrossed s0) := by
  unfold markCrossed
  repeat' first
    | with_reducible assumption
    | with_reducible first | apply keep_countSynth
    | simp only [kept_mk, keptF_fold]
    | split

theorem keep_boundaryEffects {k : Watch} {s0} (h0 : Kept k s0) : Kept k (boundaryEffects s0) := by
  unfold boundaryEffects
  repeat' first
    | with_reducible assumption
    | with_reducible first | apply keep_busCycle | apply keep_syncPoint
    | simp only [kept_mk, keptF_fold]
    | split

theorem keep_holdBegins {k : Watch} {s0} (h0 : Kept k s0) : Kept k (holdBegins s0) := by
  unfold holdBegins
  repeat' first | with_reducible assumption | with_reducible apply keep_pbEnter | with_reducible apply keep_State_raise | simp only [kept_mk, keptF_fold]

theorem keep_crossed {k : Watch} {s0} (h0 : Kept k s0) : Kept k (crossed s0) := by
  unfold crossed
  repeat' first
    | with_reducible assumption
    | with_reducible first | apply keep_boundaryEffects | apply keep_holdBegins | apply keep_countSynth | apply keep_markCrossed
    | simp only [kept_mk, keptF_fold]
    | split

theorem keep_joinFinishes {k : Watch} {s0} (h0 : Kept k s0) : Kept k (joinFinishes s0) := by
  unfold joinFinishes
  exact keep_boundaryEffects (keep_State_raise (keep_pbEnter (keep_countSynth (kept_pb h0))))

theorem keep_execJoinDone {k : Watch} {s0} (h0 : Kept k s0) : KeptR k (execJoinDone s0) :=
  keep_whenever h0 (keep_joinFinishes h0)

theorem keep_pbCommit {k : Watch} {s0} (h0 : Kept k s0) : Kept k (pbCommit s0) := by
  unfold pbCommit
  repeat' first
    | with_reducible assumption
    | with_reducible first | apply keep_countSynth | apply keep_pbEnter
    | simp only [kept_mk, keptF_fold]
    | split

end Sys2Proof.Laws
end

