-- ==== Sys2Proof/Laws/Keep6.lean ====
section
/-!
SUPPORT. `Kept` for the functions of Machine/: CommitOps, HostDma, HostOps, FaultOps, UpdOps.
-/
set_option linter.unusedSimpArgs false
namespace Sys2Proof.Laws
set_option Elab.async false
open Sys2Proof Sys2Proof.Machine

/-! ### CommitOps -/

theorem keep_goRefused {k : Watch} {s0 a1 a2 a3} (h0 : Kept k s0) : Kept k (goRefused s0 a1 a2 a3) := by
  unfold goRefused
  repeat' first | with_reducible assumption | with_reducible apply keep_State_raise | with_reducible apply keep_commitStat

theorem keep_armPart {k : Watch} {s0 a1 a2} (h0 : Kept k s0) : Kept k (armPart s0 a1 a2) := by
  unfold armPart
  repeat' first | with_reducible assumption | with_reducible apply keep_armRecords | with_reducible apply keep_commitStat | simp only [kept_mk, keptF_fold]

theorem keep_goTaken {k : Watch} {s0 a1 a2} (h0 : Kept k s0) : Kept k (goTaken s0 a1 a2) := by
  unfold goTaken
  repeat' first | with_reducible assumption | with_reducible apply keep_goRefused | with_reducible apply keep_State_siltRefused | with_reducible apply keep_armPart | split

theorem keep_execCommitGo {k : Watch} {a0 a1 s2} (h2 : Kept k s2) : KeptR k (execCommitGo a0 a1 s2) := by
  unfold execCommitGo
  repeat' first | with_reducible assumption | with_reducible apply keep_ifWf | with_reducible apply keep_State_write | with_reducible apply keep_goTaken

theorem keep_discardTaken {k : Watch} {s0 a1} (h0 : Kept k s0) : Kept k (discardTaken s0 a1) := by
  unfold discardTaken
  repeat' first
    | with_reducible assumption
    | with_reducible first | apply keep_State_refuse | apply keep_State_silt_ | apply keep_discardRecords
    | simp only [kept_mk, keptF_fold]
    | split

theorem keep_execCommitDiscard {k : Watch} {a0 s1} (h1 : Kept k s1) : KeptR k (execCommitDiscard a0 s1) := by
  unfold execCommitDiscard
  repeat' first | with_reducible assumption | with_reducible apply keep_State_write | with_reducible apply keep_discardTaken | with_reducible apply keptR_next

theorem keep_withVals {k : Watch} {s0 a1} (h0 : Kept k s0) : Kept k (withVals s0 a1) := by
  unfold withVals
  repeat' first
    | with_reducible assumption
    | with_reducible first | apply keep_State_setReg | apply keep_foldl
    | intro _
    | split

theorem keep_checkView {k : Watch} {s0 a1 a2} (h0 : Kept k s0) : Kept k (checkView s0 a1 a2) := by
  unfold checkView
  repeat' first | with_reducible assumption | with_reducible apply keep_withVals | simp only [kept_mk, keptF_fold]

theorem keep_checkEnds {k : Watch} {s0 a1 a2} (h0 : Kept k s0) : Kept k (checkEnds s0 a1 a2) := by
  unfold checkEnds
  repeat' first
    | with_reducible assumption
    | with_reducible first | apply keep_checkView | apply keep_State_setReg | apply keep_refusePart | apply keep_sendCommit
    | simp only [kept_mk, keptF_fold]
    | split

theorem keep_execCommitCheckEnd {k : Watch} {s0} (h0 : Kept k s0) : KeptR k (execCommitCheckEnd s0) := by
  unfold execCommitCheckEnd
  repeat' first | with_reducible assumption | with_reducible apply keep_checkEnds | with_reducible apply keptR_next | split

theorem keep_appliedStats {k : Watch} {s0 a1} (h0 : Kept k s0) : Kept k (appliedStats s0 a1) := by
  unfold appliedStats
  repeat' first | with_reducible assumption | with_reducible apply keep_commitStat | with_reducible apply keep_foldl | intro _

theorem keep_takeVal {k : Watch} {s0 a1} (h0 : Kept k s0) : Kept k (takeVal s0 a1) := by
  unfold takeVal
  repeat' first | with_reducible assumption | with_reducible apply keep_State_setReg | with_reducible apply keep_authCommit | split

theorem keep_lanesChange {k : Watch} {s0 a1} (h0 : Kept k s0) : Kept k (lanesChange s0 a1) := by
  unfold lanesChange
  repeat' first
    | with_reducible assumption
    | with_reducible first | apply keep_State_setMac | apply keep_slLaneDown | apply keep_foldl
    | intro _
    | simp only [kept_mk, keptF_fold]
    | split

theorem keep_gclChange {k : Watch} {s0 a1 a2 a3} (h0 : Kept k s0) : Kept k (gclChange s0 a1 a2 a3) := by
  unfold gclChange
  repeat' first | with_reducible assumption | with_reducible apply keep_placeList | with_reducible apply keep_installList | split

theorem keep_canBwChange {k : Watch} {s0 a1 a2 a3 a4} (h0 : Kept k s0) : Kept k (canBwChange s0 a1 a2 a3 a4) := by
  unfold canBwChange
  repeat' first | with_reducible assumption | with_reducible apply keep_State_setCan | with_reducible apply keep_canCycle | split

theorem keep_linCfgChange {k : Watch} {s0 a1 a2 a3 a4} (h0 : Kept k s0) : Kept k (linCfgChange s0 a1 a2 a3 a4) := by
  unfold linCfgChange
  repeat' first | with_reducible assumption | with_reducible apply keep_linModeCommit | with_reducible apply keep_State_setLin | with_reducible apply keep_linResume | with_reducible apply keep_linRestart | split

theorem keep_algChange {k : Watch} {s0 a1 a2} (h0 : Kept k s0) : Kept k (algChange s0 a1 a2) := by
  unfold algChange
  repeat' first | with_reducible assumption | with_reducible apply keep_setCredit

theorem keep_queueChange {k : Watch} {s0 a1 a2 a3 a4} (h0 : Kept k s0) : Kept k (queueChange s0 a1 a2 a3 a4) := by
  unfold queueChange
  repeat' first
    | with_reducible assumption
    | with_reducible first | apply keep_algChange | apply keep_flushQueue
    | simp only [kept_mk, keptF_fold]
    | split

theorem keep_holdSetting {k : Watch} {s0 a1} (h0 : Kept k s0) : Kept k (holdSetting s0 a1) := by
  unfold holdSetting
  repeat' first
    | with_reducible assumption
    | with_reducible first | apply keep_State_setEgs
    | simp only [kept_mk, keptF_fold]
    | split

theorem keep_commitEffect {k : Watch} {a0 s1 a2} (h1 : Kept k s1) : Kept k (commitEffect a0 s1 a2) := by
  unfold commitEffect
  repeat' first
    | with_reducible assumption
    | with_reducible first | apply keep_mmStart | apply keep_mscCommit | apply keep_lanesChange | apply keep_gclChange | apply keep_queueChange | apply keep_canModeCommit | apply keep_canBwChange | apply keep_linCfgChange | apply keep_domCommit | apply keep_servoCommit | apply keep_pdelayCommit
    | simp only [kept_mk, keptF_fold]
    | split

theorem keep_settleAll {k : Watch} {s0} (h0 : Kept k s0) : Kept k (settleAll s0) := by
  unfold settleAll
  repeat' first | with_reducible assumption | with_reducible apply keep_settleCredit | with_reducible apply keep_foldl | intro _

theorem keep_takeCommit {k : Watch} {s0 a1} (h0 : Kept k s0) : Kept k (takeCommit s0 a1) := by
  unfold takeCommit
  repeat' first
    | with_reducible assumption
    | with_reducible first | apply keep_gweCancels | apply keep_settleAll | apply keep_takeVal | apply keep_holdSetting | apply keep_State_setFld | apply keep_recordsLive | apply keep_foldl
    | intro _
    | simp only [kept_mk, keptF_fold]

theorem keep_commitEffects {k : Watch} {s0 a1 a2} (h0 : Kept k s0) : Kept k (commitEffects s0 a1 a2) := by
  unfold commitEffects
  repeat' first | with_reducible assumption | with_reducible apply keep_commitEffect | with_reducible apply keep_linkTrainStart | with_reducible apply keep_pbCommit | with_reducible apply keep_foldl | split

theorem keep_unackedLost {k : Watch} {s0 a1} (h0 : Kept k s0) : Kept k (unackedLost s0 a1) := by
  unfold unackedLost
  repeat' first | with_reducible assumption | with_reducible apply keep_syncLost | split

theorem keep_topsoilDone {k : Watch} {s0 a1} (h0 : Kept k s0) : Kept k (topsoilDone s0 a1) := by
  unfold topsoilDone
  repeat' first
    | with_reducible assumption
    | simp only [kept_mk, keptF_fold]
    | split

theorem keep_applyCommit {k : Watch} {s0 a1} (h0 : Kept k s0) : Kept k (applyCommit s0 a1) := by
  unfold applyCommit
  repeat' first
    | with_reducible assumption
    | with_reducible first | apply keep_takeCommit | apply keep_State_silt_ | apply keep_updateDigest | apply keep_admitQueues | apply keep_commitEffects | apply keep_topsoilDone | apply keep_unackedLost | apply keep_State_raise | apply keep_appliedStats
    | simp only [kept_mk, keptF_fold]
    | split

theorem keep_applyDue {k : Watch} {s0} (h0 : Kept k s0) : Kept k (applyDue s0) := by
  unfold applyDue
  repeat' first | with_reducible assumption | with_reducible apply keep_applyCommit | split

theorem keep_execCommitApply {k : Watch} {s0} (h0 : Kept k s0) : KeptR k (execCommitApply s0) := by
  unfold execCommitApply
  repeat' first | with_reducible assumption | with_reducible apply keep_applyDue | with_reducible apply keptR_next

/-! ### HostDma -/

theorem keep_txUnsent {k : Watch} {s0 a1 a2 a3 a4} (h0 : Kept k s0) : Kept k (txUnsent s0 a1 a2 a3 a4) := by
  unfold txUnsent
  repeat' first | with_reducible assumption | with_reducible apply keep_ringComplete | simp only [kept_mk, keptF_fold]

theorem keep_txFlush {k : Watch} {s0 a1 a2} (h0 : Kept k s0) : Kept k (txFlush s0 a1 a2) := by
  unfold txFlush
  repeat' first | with_reducible assumption | with_reducible apply keep_State_setRing | with_reducible apply keep_txUnsent | with_reducible apply keep_foldl | intro _

theorem keep_laFlush {k : Watch} {s0 a1 a2} (h0 : Kept k s0) : Kept k (laFlush s0 a1 a2) := by
  unfold laFlush
  repeat' first
    | with_reducible assumption
    | with_reducible first | apply keep_ringComplete | apply keep_State_tick1 | apply keep_foldl
    | intro _
    | simp only [kept_mk, keptF_fold]

theorem keep_updFlush {k : Watch} {s0} (h0 : Kept k s0) : Kept k (updFlush s0) := by
  unfold updFlush
  repeat' first
    | with_reducible assumption
    | with_reducible first | apply keep_ringComplete | apply keep_State_tick1 | apply keep_foldl
    | intro _
    | simp only [kept_mk, keptF_fold]
    | split

theorem keep_ringStarts {k : Watch} {s0 a1} (h0 : Kept k s0) : Kept k (ringStarts s0 a1) := by
  unfold ringStarts
  repeat' first | with_reducible assumption | with_reducible apply keep_State_setRing | with_reducible apply keep_State_setBitAt

theorem keep_ringStops {k : Watch} {s0 a1} (h0 : Kept k s0) : Kept k (ringStops s0 a1) := by
  unfold ringStops
  repeat' first | with_reducible assumption | with_reducible apply keep_State_setRing | with_reducible apply keep_txFlush | with_reducible apply keep_laFlush | with_reducible apply keep_updFlush | split

theorem keep_ringCfgTaken {k : Watch} {s0 a1 a2 a3} (h0 : Kept k s0) : Kept k (ringCfgTaken s0 a1 a2 a3) := by
  unfold ringCfgTaken
  repeat' first
    | with_reducible assumption
    | with_reducible first | apply keep_logReg | apply keep_State_setReg | apply keep_ringStarts | apply keep_ringStops
    | simp only [kept_mk, keptF_fold]
    | split

theorem keep_execRingEnable {k : Watch} {a0 a1 a2 s3} (h3 : Kept k s3) : KeptR k (execRingEnable a0 a1 a2 s3) := by
  unfold execRingEnable
  repeat' first | with_reducible assumption | with_reducible apply keep_ifWf | with_reducible apply keep_State_write | with_reducible apply keep_ringCfgTaken

theorem keep_execRingDisable {k : Watch} {a0 a1 a2 s3} (h3 : Kept k s3) : KeptR k (execRingDisable a0 a1 a2 s3) := by
  unfold execRingDisable
  repeat' first | with_reducible assumption | with_reducible apply keep_ifWf | with_reducible apply keep_State_write | with_reducible apply keep_ringCfgTaken

theorem keep_ringDrains {k : Watch} {s0 a1} (h0 : Kept k s0) : Kept k (ringDrains s0 a1) := by
  unfold ringDrains
  repeat' first | with_reducible assumption | with_reducible apply keep_State_setRing | with_reducible apply keep_State_setBitAt | with_reducible apply keep_State_setFld

theorem keep_execRingDrained {k : Watch} {a0 s1} (h1 : Kept k s1) : KeptR k (execRingDrained a0 s1) := by
  unfold execRingDrained
  repeat' first | with_reducible assumption | with_reducible apply keep_ifWf | with_reducible apply keep_whenever | with_reducible apply keep_ringDrains

theorem keep_execRingTailWrite {k : Watch} {a0 a1 a2 s3} (h3 : Kept k s3) : KeptR k (execRingTailWrite a0 a1 a2 s3) := by
  unfold execRingTailWrite
  repeat' first | with_reducible assumption | with_reducible apply keep_ifWf | with_reducible apply keep_State_write | with_reducible apply keep_State_setReg

theorem keep_hostRingsStop {k : Watch} {s0 a1} (h0 : Kept k s0) : Kept k (hostRingsStop s0 a1) := by
  unfold hostRingsStop
  repeat' first
    | with_reducible assumption
    | with_reducible first | apply keep_ringStops | apply keep_State_setBitAt | apply keep_foldl
    | intro _
    | split

theorem keep_txEnters {k : Watch} {s0 a1 a2 a3} (h0 : Kept k s0) : Kept k (txEnters s0 a1 a2 a3).1 := by
  unfold txEnters
  repeat' first | with_reducible assumption | with_reducible apply keep_enterPaced

theorem keep_launchLate {k : Watch} {s0 a1 a2} (h0 : Kept k s0) : Kept k (launchLate s0 a1 a2) := by
  unfold launchLate
  repeat' first | with_reducible assumption | with_reducible apply keep_State_bump | split

theorem keep_addFlight {k : Watch} {s0 a1 a2 a3} (h0 : Kept k s0) : Kept k (addFlight s0 a1 a2 a3) := by
  unfold addFlight
  repeat' first | with_reducible assumption | with_reducible apply keep_State_setRing

theorem keep_txGo {k : Watch} {s0 a1 a2 a3 a4} (h0 : Kept k s0) : Kept k (txGo s0 a1 a2 a3 a4) := by
  unfold txGo
  repeat' first | with_reducible assumption | with_reducible apply keep_txEnters | with_reducible apply keep_launchLate | with_reducible apply keep_State_setRing

theorem keep_txDue {k : Watch} {s0 a1} (h0 : Kept k s0) : Kept k (txDue s0 a1) := by
  unfold txDue
  repeat' first | with_reducible assumption | with_reducible apply keep_txGo | split

theorem keep_txReady {k : Watch} {s0 a1 a2 a3} (h0 : Kept k s0) : Kept k (txReady s0 a1 a2 a3) := by
  unfold txReady
  repeat' first
    | with_reducible assumption
    | with_reducible first | apply keep_addFlight | apply keep_txEnters | apply keep_launchLate
    | simp only [kept_mk, keptF_fold]
    | split

theorem keep_txTakes {k : Watch} {s0 a1 a2 a3 a4 a5} (h0 : Kept k s0) : Kept k (txTakes s0 a1 a2 a3 a4 a5) := by
  unfold txTakes
  repeat' first | with_reducible assumption | with_reducible apply keep_ringTake | with_reducible apply keep_txUnsent | with_reducible apply keep_State_bump | with_reducible apply keep_txReady | split

theorem keep_execTxFrameEnter {k : Watch} {a0 a1 a2 a3 a4 s5} (h5 : Kept k s5) : KeptR k (execTxFrameEnter a0 a1 a2 a3 a4 s5) := by
  unfold execTxFrameEnter
  repeat' first | with_reducible assumption | with_reducible apply keep_ifWf | with_reducible apply keep_whenever | with_reducible apply keep_txTakes

theorem keep_txLaunches {k : Watch} {a0 a1 s2 a3} (h2 : Kept k s2) : Kept k (txLaunches a0 a1 s2 a3) := by
  unfold txLaunches
  repeat' first | with_reducible assumption | with_reducible apply keep_txGo | split

theorem keep_execTxLaunch {k : Watch} {a0 a1 a2 s3} (h3 : Kept k s3) : KeptR k (execTxLaunch a0 a1 a2 s3) := by
  unfold execTxLaunch
  repeat' first | with_reducible assumption | with_reducible apply keep_ifWf | with_reducible apply keep_txLaunches

theorem keep_txFinishes {k : Watch} {s0 a1 a2 a3} (h0 : Kept k s0) : Kept k (txFinishes s0 a1 a2 a3) := by
  unfold txFinishes
  repeat' first
    | with_reducible assumption
    | with_reducible first | apply keep_State_setRing | apply keep_ringComplete
    | simp only [kept_mk, keptF_fold]
    | split

theorem keep_execTxCompletion {k : Watch} {a0 a1 a2 s3} (h3 : Kept k s3) : KeptR k (execTxCompletion a0 a1 a2 s3) := by
  unfold execTxCompletion
  repeat' first | with_reducible assumption | with_reducible apply keep_ifWf | with_reducible apply keep_txFinishes

theorem keep_rxBuffers {k : Watch} {s0 a1} (h0 : Kept k s0) : Kept k (rxBuffers s0 a1).1 := by
  unfold rxBuffers
  repeat' first
    | with_reducible assumption
    | simp only [kept_mk, keptF_fold]

theorem keep_rxWrites {k : Watch} {s0 a1 a2 a3 a4 a5} (h0 : Kept k s0) : Kept k (rxWrites s0 a1 a2 a3 a4 a5) := by
  unfold rxWrites
  repeat' first
    | with_reducible assumption
    | with_reducible first | apply keep_ringTake | apply keep_State_bump | apply keep_State_emit | apply keep_ringComplete | apply keep_foldl
    | intro _
    | split

theorem keep_rxDma {k : Watch} {s0 a1 a2 a3} (h0 : Kept k s0) : Kept k (rxDma s0 a1 a2 a3) := by
  unfold rxDma
  repeat' first
    | with_reducible assumption
    | with_reducible first | apply keep_State_setRing | apply keep_rxWrites | apply keep_State_bump
    | simp only [kept_mk, keptF_fold]
    | split

theorem keep_execRxFrameDma {k : Watch} {a0 a1 a2 s3} (h3 : Kept k s3) : KeptR k (execRxFrameDma a0 a1 a2 s3) := by
  unfold execRxFrameDma
  repeat' first | with_reducible assumption | with_reducible apply keep_ifWf | with_reducible apply keep_rxBuffers | with_reducible apply keep_rxDma

theorem keep_ringVector {k : Watch} {s0 a1} (h0 : Kept k s0) : Kept k (ringVector s0 a1) := by
  unfold ringVector
  repeat' first | with_reducible assumption | with_reducible apply keep_State_sendVec | with_reducible apply keep_State_setRing

theorem keep_execRingInterrupt {k : Watch} {a0 s1} (h1 : Kept k s1) : KeptR k (execRingInterrupt a0 s1) := by
  unfold execRingInterrupt
  repeat' first | with_reducible assumption | with_reducible apply keep_ifWf | with_reducible apply keep_whenever | with_reducible apply keep_ringVector

theorem keep_execCoalTimerExpire {k : Watch} {a0 s1} (h1 : Kept k s1) : KeptR k (execCoalTimerExpire a0 s1) := by
  unfold execCoalTimerExpire
  repeat' first | with_reducible assumption | with_reducible apply keep_ifWf | with_reducible apply keep_whenever | with_reducible apply keep_ringVector

theorem keep_msixOpens {k : Watch} {s0 a1 a2} (h0 : Kept k s0) : Kept k (msixOpens s0 a1 a2) := by
  unfold msixOpens
  repeat' first
    | with_reducible assumption
    | with_reducible first | apply keep_State_setMsix | apply keep_State_emit
    | simp only [kept_mk, keptF_fold]
    | split

theorem keep_msixWrite {k : Watch} {s0 a1 a2 a3 a4} (h0 : Kept k s0) : Kept k (msixWrite s0 a1 a2 a3 a4) := by
  unfold msixWrite
  repeat' first | with_reducible assumption | with_reducible apply keep_State_setMsix | with_reducible apply keep_msixOpens | split

theorem keep_execMsixUnmask {k : Watch} {a0 a1 s2} (h2 : Kept k s2) : KeptR k (execMsixUnmask a0 a1 s2) := by
  unfold execMsixUnmask
  repeat' first | with_reducible assumption | with_reducible apply keep_ifWf | with_reducible apply keep_msixOpens

/-! ### HostOps -/

theorem keep_setOwner {k : Watch} {s0 a1 a2 a3} (h0 : Kept k s0) : Kept k (setOwner s0 a1 a2 a3) := by
  unfold setOwner
  repeat' first
    | with_reducible assumption
    | with_reducible first | apply keep_State_silt_ | apply keep_State_setReg
    | simp only [kept_mk, keptF_fold]
    | split

theorem keep_execOwnerWrite {k : Watch} {a0 a1 a2 s3} (h3 : Kept k s3) : KeptR k (execOwnerWrite a0 a1 a2 s3) := by
  unfold execOwnerWrite
  repeat' first | with_reducible assumption | with_reducible apply keep_ifWf | with_reducible apply keep_State_write | with_reducible apply keep_setOwner

theorem keep_semTas {k : Watch} {s0 a1 a2} (h0 : Kept k s0) : Kept k (semTas s0 a1 a2) := by
  unfold semTas
  repeat' first
    | with_reducible assumption
    | with_reducible first | apply keep_State_emit | apply keep_State_setFld
    | simp only [kept_mk, keptF_fold]
    | split

theorem keep_execSemTasRead {k : Watch} {a0 a1 s2} (h2 : Kept k s2) : KeptR k (execSemTasRead a0 a1 s2) := by
  unfold execSemTasRead
  repeat' first | with_reducible assumption | with_reducible apply keep_ifWf | with_reducible apply keep_State_readOnce | with_reducible apply keep_semTas

theorem keep_semFree {k : Watch} {s0 a1 a2} (h0 : Kept k s0) : Kept k (semFree s0 a1 a2) := by
  unfold semFree
  repeat' first
    | with_reducible assumption
    | with_reducible first | apply keep_State_refuse | apply keep_State_setFld
    | simp only [kept_mk, keptF_fold]
    | split

theorem keep_execSemRelease {k : Watch} {a0 a1 s2} (h2 : Kept k s2) : KeptR k (execSemRelease a0 a1 s2) := by
  unfold execSemRelease
  repeat' first | with_reducible assumption | with_reducible apply keep_ifWf | with_reducible apply keep_State_write | with_reducible apply keep_semFree

theorem keep_releaseOwned {k : Watch} {s0 a1} (h0 : Kept k s0) : Kept k (releaseOwned s0 a1) := by
  unfold releaseOwned
  repeat' first | with_reducible assumption | with_reducible apply keep_setOwner | with_reducible apply keep_State_silt_ | with_reducible apply keep_State_setFld | with_reducible apply keep_foldl | intro _

theorem keep_execHostLinkUp {k : Watch} {a0 a1 a2 s3} (h3 : Kept k s3) : KeptR k (execHostLinkUp a0 a1 a2 s3) := by
  unfold execHostLinkUp
  repeat' first | with_reducible assumption | with_reducible apply keep_ifWf | with_reducible apply keep_whenever | with_reducible apply keep_State_setReg

theorem keep_siltFrees {k : Watch} {s0} (h0 : Kept k s0) : Kept k (siltFrees s0) := by
  unfold siltFrees
  repeat' first | with_reducible assumption | with_reducible apply keep_State_setReg

theorem keep_execSiltAckWrite {k : Watch} {a0 a1 a2 s3} (h3 : Kept k s3) : KeptR k (execSiltAckWrite a0 a1 a2 s3) := by
  unfold execSiltAckWrite
  repeat' first | with_reducible assumption | with_reducible apply keep_State_write | with_reducible apply keep_siltFrees | with_reducible apply keep_State_setReg | with_reducible apply keptR_next

theorem keep_checkpoint {k : Watch} {s0 a1 a2} (h0 : Kept k s0) : Kept k (checkpoint s0 a1 a2) := by
  unfold checkpoint
  repeat' first | with_reducible assumption | with_reducible apply keep_State_tick1 | with_reducible apply keep_State_raise | with_reducible apply keep_State_setReg | simp only [kept_mk, keptF_fold]

theorem keep_checkpointNow {k : Watch} {s0} (h0 : Kept k s0) : Kept k (checkpointNow s0) := by
  unfold checkpointNow
  repeat' first | with_reducible assumption | with_reducible apply keep_checkpoint

theorem keep_execSiltCheckpointRecord {k : Watch} {s0} (h0 : Kept k s0) : KeptR k (execSiltCheckpointRecord s0) := by
  unfold execSiltCheckpointRecord
  repeat' first | with_reducible assumption | with_reducible apply keep_whenever | with_reducible apply keep_checkpoint | with_reducible apply keptR_next | split

/-! ### FaultOps -/

theorem keep_reportEnters {k : Watch} {s0 a1} (h0 : Kept k s0) : Kept k (reportEnters s0 a1) := by
  unfold reportEnters
  repeat' first
    | with_reducible assumption
    | with_reducible first | apply keep_State_raise | apply keep_State_bump
    | simp only [kept_mk, keptF_fold]
    | split

theorem keep_execFaultReport {k : Watch} {s0} (h0 : Kept k s0) : KeptR k (execFaultReport s0) := by
  unfold execFaultReport
  repeat' first | with_reducible assumption | with_reducible apply keep_reportEnters | with_reducible apply keptR_next | split

theorem keep_setCoal {k : Watch} {s0 a1 a2} (h0 : Kept k s0) : Kept k (setCoal s0 a1 a2) := by
  unfold setCoal
  repeat' first
    | with_reducible assumption
    | simp only [kept_mk, keptF_fold]

theorem keep_closeEntry {k : Watch} {s0 a1 a2} (h0 : Kept k s0) : Kept k (closeEntry s0 a1 a2) := by
  unfold closeEntry
  repeat' first | with_reducible assumption | with_reducible apply keep_setCoal | simp only [kept_mk, keptF_fold]

theorem keep_openEntry {k : Watch} {s0 a1 a2 a3 a4} (h0 : Kept k s0) : Kept k (openEntry s0 a1 a2 a3 a4) := by
  unfold openEntry
  repeat' first
    | with_reducible assumption
    | with_reducible first | apply keep_State_bump | apply keep_setCoal | apply keep_State_raise
    | simp only [kept_mk, keptF_fold]
    | split

theorem keep_extendEntry {k : Watch} {s0 a1 a2 a3} (h0 : Kept k s0) : Kept k (extendEntry s0 a1 a2 a3) := by
  unfold extendEntry
  repeat' first | with_reducible assumption | with_reducible apply keep_setCoal

theorem keep_windowOver {k : Watch} {s0 a1} (h0 : Kept k s0) : Kept k (windowOver s0 a1) := by
  unfold windowOver
  repeat' first | with_reducible assumption | with_reducible apply keep_closeEntry | split

theorem keep_execWindowClose {k : Watch} {a0 s1} (h1 : Kept k s1) : KeptR k (execWindowClose a0 s1) := by
  unfold execWindowClose
  repeat' first | with_reducible assumption | with_reducible apply keep_ifWf | with_reducible apply keep_windowOver

theorem keep_writeRecord {k : Watch} {s0} (h0 : Kept k s0) : Kept k (writeRecord s0) := by
  unfold writeRecord
  repeat' first
    | with_reducible assumption
    | with_reducible first | apply keep_setCoal | apply keep_State_raise | apply keep_State_bump | apply keep_State_setReg
    | simp only [kept_mk, keptF_fold]
    | split

theorem keep_execFaultRecordWrite {k : Watch} {s0} (h0 : Kept k s0) : KeptR k (execFaultRecordWrite s0) := by
  unfold execFaultRecordWrite
  repeat' first | with_reducible assumption | with_reducible apply keep_writeRecord | with_reducible apply keptR_next

theorem keep_closeByReport {k : Watch} {s0 a1 a2} (h0 : Kept k s0) : Kept k (closeByReport s0 a1 a2) := by
  unfold closeByReport
  repeat' first | with_reducible assumption | with_reducible apply keep_closeEntry | with_reducible apply keep_writeRecord | with_reducible apply keep_foldl | intro _

theorem keep_overflowReport {k : Watch} {s0 a1} (h0 : Kept k s0) : Kept k (overflowReport s0 a1) := by
  unfold overflowReport
  repeat' first
    | with_reducible assumption
    | with_reducible first | apply keep_State_raise | apply keep_State_bump | apply keep_extendEntry | apply keep_closeByReport | apply keep_openEntry
    | simp only [kept_mk, keptF_fold]
    | split

theorem keep_newWindow {k : Watch} {s0 a1 a2 a3} (h0 : Kept k s0) : Kept k (newWindow s0 a1 a2 a3) := by
  unfold newWindow
  repeat' first | with_reducible assumption | with_reducible apply keep_openEntry | with_reducible apply keep_overflowReport | split

theorem keep_takeReport {k : Watch} {s0} (h0 : Kept k s0) : Kept k (takeReport s0) := by
  unfold takeReport
  repeat' first
    | with_reducible assumption
    | with_reducible first | apply keep_State_bump | apply keep_extendEntry | apply keep_newWindow | apply keep_closeByReport
    | simp only [kept_mk, keptF_fold]
    | split

theorem keep_execCoalesce {k : Watch} {s0} (h0 : Kept k s0) : KeptR k (execCoalesce s0) := by
  unfold execCoalesce
  repeat' first | with_reducible assumption | with_reducible apply keep_takeReport | with_reducible apply keptR_next

theorem keep_plainWrite {k : Watch} {s0 a1 a2 a3} (h0 : Kept k s0) : Kept k (plainWrite s0 a1 a2 a3) := by
  unfold plainWrite
  repeat' first | with_reducible assumption | with_reducible apply keep_logReg | with_reducible apply keep_State_setReg

theorem keep_memInjTaken {k : Watch} {s0 a1 a2} (h0 : Kept k s0) : Kept k (memInjTaken s0 a1 a2) := by
  have h : Kept k (plainWrite s0 a1 (aMem 0x050) a2) := keep_plainWrite h0
  unfold memInjTaken
  extract_lets t
  split
  · exact kept_faults h
  · exact h

theorem keep_execMemInjArm {k : Watch} {a0 a1 s2} (h2 : Kept k s2) : KeptR k (execMemInjArm a0 a1 s2) :=
  keep_ifWf (keep_State_write h2 (keep_memInjTaken h2))

theorem keep_lspInjTaken {k : Watch} {s0 a1 a2} (h0 : Kept k s0) : Kept k (lspInjTaken s0 a1 a2) := by
  unfold lspInjTaken
  repeat' first | with_reducible assumption | with_reducible apply keep_plainWrite | with_reducible apply keep_State_setPairSt | split

theorem keep_lspInj {k : Watch} {a0 a1 a2 s3} (h3 : Kept k s3) : KeptR k (lspInj a0 a1 a2 s3) := by
  unfold lspInj
  repeat' first | with_reducible assumption | with_reducible apply keep_ifWf | with_reducible apply keep_State_write | with_reducible apply keep_lspInjTaken

theorem keep_execLspInjOnce {k : Watch} {a0 a1 s2} (h2 : Kept k s2) : KeptR k (execLspInjOnce a0 a1 s2) := by
  unfold execLspInjOnce
  repeat' first | with_reducible assumption | with_reducible apply keep_lspInj

theorem keep_execLspInjAsync {k : Watch} {a0 a1 s2} (h2 : Kept k s2) : KeptR k (execLspInjAsync a0 a1 s2) := by
  unfold execLspInjAsync
  repeat' first | with_reducible assumption | with_reducible apply keep_lspInj

theorem keep_execLspInjPersist {k : Watch} {a0 a1 s2} (h2 : Kept k s2) : KeptR k (execLspInjPersist a0 a1 s2) := by
  unfold execLspInjPersist
  repeat' first | with_reducible assumption | with_reducible apply keep_lspInj

theorem keep_fltInjTaken {k : Watch} {s0 a1 a2} (h0 : Kept k s0) : Kept k (fltInjTaken s0 a1 a2) := by
  unfold fltInjTaken
  repeat' first | with_reducible assumption | with_reducible apply keep_logReg | with_reducible apply keep_State_report | with_reducible apply keep_State_bump | split

theorem keep_execFltInjGo {k : Watch} {a0 a1 s2} (h2 : Kept k s2) : KeptR k (execFltInjGo a0 a1 s2) := by
  unfold execFltInjGo
  repeat' first | with_reducible assumption | with_reducible apply keep_ifWf | with_reducible apply keep_State_write | with_reducible apply keep_fltInjTaken

theorem keep_scrubTables {k : Watch} {s0 a1} (h0 : Kept k s0) : Kept k (scrubTables s0 a1) := by
  unfold scrubTables
  repeat' first
    | with_reducible assumption
    | with_reducible first | apply keep_State_tick1 | apply keep_memRepeated | apply keep_State_report | apply keep_State_raise | apply keep_State_bump | apply keep_gweLoseAny | apply keep_loseEntry | apply keep_State_setReg
    | simp only [kept_mk, keptF_fold]
    | split

theorem keep_loseFlow {k : Watch} {s0} (h0 : Kept k s0) : Kept k (loseFlow s0) := by
  unfold loseFlow
  extract_lets l
  split
  · exact keep_State_tick1 (keep_setFlow h0)
  · exact keep_State_tick1 h0

theorem keep_scrubFlows {k : Watch} {s0 a1} (h0 : Kept k s0) : Kept k (scrubFlows s0 a1) := by
  unfold scrubFlows
  repeat' first | with_reducible assumption | with_reducible apply keep_flowParity | with_reducible apply keep_loseFlow | split

theorem keep_loseItem {k : Watch} {s0 a1 a2} (h0 : Kept k s0) : Kept k (loseItem s0 a1 a2) := by
  unfold loseItem
  repeat' first | with_reducible assumption | with_reducible apply keep_parityLoss | with_reducible apply keep_txEvent | with_reducible apply keep_State_bump | with_reducible apply keep_State_setCan | with_reducible apply keep_memLost | with_reducible apply keep_rxLoss | with_reducible apply keep_authLoss | split

theorem keep_scrubBuses {k : Watch} {s0 a1} (h0 : Kept k s0) : Kept k (scrubBuses s0 a1) := by
  unfold scrubBuses
  repeat' first
    | with_reducible assumption
    | with_reducible first | apply keep_loseItem | apply keep_State_tick1 | apply keep_memLost
    | simp only [kept_mk, keptF_fold]
    | split

theorem keep_blockedLost {k : Watch} {s0 a1} (h0 : Kept k s0) : Kept k (blockedLost s0 a1) := by
  unfold blockedLost
  repeat' first
    | with_reducible assumption
    | with_reducible first | apply keep_State_setMeterSt
    | simp only [kept_mk, keptF_fold]
    | split

theorem keep_counterLost {k : Watch} {s0 a1} (h0 : Kept k s0) : Kept k (counterLost s0 a1) := by
  unfold counterLost
  repeat' first | with_reducible assumption | with_reducible apply keep_State_setPair | split

theorem keep_scrubMisc {k : Watch} {s0 a1} (h0 : Kept k s0) : Kept k (scrubMisc s0 a1) := by
  unfold scrubMisc
  repeat' first | with_reducible assumption | with_reducible apply keep_State_tick1 | with_reducible apply keep_loseLevel | with_reducible apply keep_sfpLost | with_reducible apply keep_State_setMeterSt | with_reducible apply keep_blockedLost | with_reducible apply keep_servoLost | with_reducible apply keep_memRepeated | with_reducible apply keep_seqLost | with_reducible apply keep_counterLost | with_reducible apply keep_memLost | split

theorem keep_scrubSilt {k : Watch} {s0 a1} (h0 : Kept k s0) : Kept k (scrubSilt s0 a1) := by
  unfold scrubSilt
  repeat' first
    | with_reducible assumption
    | with_reducible first | apply keep_memLost | apply keep_State_tick1
    | simp only [kept_mk, keptF_fold]
    | split

theorem keep_scrubBuffer {k : Watch} {s0 a1} (h0 : Kept k s0) : Kept k (scrubBuffer s0 a1) := by
  unfold scrubBuffer
  repeat' first
    | with_reducible assumption
    | with_reducible first | apply keep_State_tick1 | apply keep_retireHalf | apply keep_memLost
    | simp only [kept_mk, keptF_fold]
    | split

/-! ### UpdOps -/

theorem keep_setCodeSlot {k : Watch} {s0 a1 a2} (h0 : Kept k s0) : Kept k (setCodeSlot s0 a1 a2) := by
  unfold setCodeSlot
  repeat' first
    | with_reducible assumption
    | simp only [kept_mk, keptF_fold]
    | split

theorem keep_markSlot {k : Watch} {s0 a1 a2} (h0 : Kept k s0) : Kept k (markSlot s0 a1 a2) := by
  unfold markSlot
  repeat' first | with_reducible assumption | with_reducible apply keep_setCodeSlot

theorem keep_markTs {k : Watch} {s0 a1 a2} (h0 : Kept k s0) : Kept k (markTs s0 a1 a2) := by
  unfold markTs
  repeat' first
    | with_reducible assumption
    | simp only [kept_mk, keptF_fold]
    | split

theorem keep_siltUpd {k : Watch} {s0 a1 a2 a3 a4 a5 a6} (h0 : Kept k s0) : Kept k (siltUpd s0 a1 a2 a3 a4 a5 a6) := by
  unfold siltUpd
  repeat' first | with_reducible assumption | with_reducible apply keep_State_silt_

theorem keep_healthStep {k : Watch} {s0} (h0 : Kept k s0) : Kept k (healthStep s0) := by
  unfold healthStep
  repeat' first
    | with_reducible assumption
    | simp only [kept_mk, keptF_fold]
    | split

theorem keep_burnTo {k : Watch} {s0 a1} (h0 : Kept k s0) : Kept k (burnTo s0 a1) := by
  unfold burnTo
  repeat' first
    | with_reducible assumption
    | with_reducible first | apply keep_otpProgram | apply keep_foldl
    | intro _
    | split

theorem keep_secverBurn {k : Watch} {s0 a1} (h0 : Kept k s0) : Kept k (secverBurn s0 a1) := by
  unfold secverBurn
  repeat' first
    | with_reducible assumption
    | with_reducible first | apply keep_burnTo | apply keep_siltUpd | apply keep_markSlot
    | simp only [kept_mk, keptF_fold]
    | split

theorem keep_confirmTrial {k : Watch} {s0 a1} (h0 : Kept k s0) : Kept k (confirmTrial s0 a1) := by
  unfold confirmTrial
  repeat' first
    | with_reducible assumption
    | with_reducible first | apply keep_markSlot | apply keep_siltUpd | apply keep_State_raise | apply keep_State_bump | apply keep_secverBurn
    | simp only [kept_mk, keptF_fold]
    | split

theorem keep_revertTrial {k : Watch} {s0 a1 a2} (h0 : Kept k s0) : Kept k (revertTrial s0 a1 a2) := by
  unfold revertTrial
  repeat' first | with_reducible assumption | with_reducible apply keep_markSlot | with_reducible apply keep_siltUpd | with_reducible apply keep_State_raise | with_reducible apply keep_State_bump | simp only [kept_mk, keptF_fold]

theorem keep_updLast {k : Watch} {s0 a1} (h0 : Kept k s0) : Kept k (updLast s0 a1) := by
  unfold updLast
  repeat' first | with_reducible assumption | with_reducible apply keep_State_setFld

theorem keep_updComplete {k : Watch} {s0 a1 a2 a3 a4} (h0 : Kept k s0) : Kept k (updComplete s0 a1 a2 a3 a4) := by
  unfold updComplete
  repeat' first | with_reducible assumption | with_reducible apply keep_State_bump | with_reducible apply keep_updLast | with_reducible apply keep_ringComplete | split

theorem keep_updAnswer {k : Watch} {s0 a1 a2 a3 a4 a5} (h0 : Kept k s0) : Kept k (updAnswer s0 a1 a2 a3 a4 a5) := by
  unfold updAnswer
  repeat' first | with_reducible assumption | with_reducible apply keep_slSend | with_reducible apply keep_updLast | with_reducible apply keep_updComplete | split

theorem keep_leaveSlot {k : Watch} {s0 a1} (h0 : Kept k s0) : Kept k (leaveSlot s0 a1) := by
  unfold leaveSlot
  repeat' first | with_reducible assumption | with_reducible apply keep_setCodeSlot | with_reducible apply keep_markTs | split

theorem keep_closeSession {k : Watch} {s0 a1} (h0 : Kept k s0) : Kept k (closeSession s0 a1) := by
  unfold closeSession
  repeat' first | with_reducible assumption | with_reducible apply keep_leaveSlot | simp only [kept_mk, keptF_fold]

theorem keep_abortSession {k : Watch} {s0 a1} (h0 : Kept k s0) : Kept k (abortSession s0 a1) := by
  unfold abortSession
  repeat' first | with_reducible assumption | with_reducible apply keep_updAnswer | with_reducible apply keep_closeSession | with_reducible apply keep_foldl | intro _

theorem keep_relayPieces {k : Watch} {s0 a1 a2 a3} (h0 : Kept k s0) : Kept k (relayPieces s0 a1 a2 a3) := by
  unfold relayPieces
  repeat' first | with_reducible assumption | with_reducible apply keep_slSend | with_reducible apply keep_foldl | intro _

theorem keep_tellClose {k : Watch} {s0 a1} (h0 : Kept k s0) : Kept k (tellClose s0 a1) := by
  unfold tellClose
  repeat' first | with_reducible assumption | with_reducible apply keep_relayPieces | split

theorem keep_updOwnerGone {k : Watch} {s0 a1} (h0 : Kept k s0) : Kept k (updOwnerGone s0 a1) := by
  unfold updOwnerGone
  repeat' first | with_reducible assumption | with_reducible apply keep_abortSession | with_reducible apply keep_tellClose | split

theorem keep_updLinkGone {k : Watch} {s0} (h0 : Kept k s0) : Kept k (updLinkGone s0) := by
  unfold updLinkGone
  repeat' first
    | with_reducible assumption
    | with_reducible first | apply keep_closeSession | apply keep_updAnswer | apply keep_foldl
    | intro _
    | split

theorem keep_openSession {k : Watch} {s0 a1 a2} (h0 : Kept k s0) : Kept k (openSession s0 a1 a2) := by
  unfold openSession
  repeat' first
    | with_reducible assumption
    | with_reducible first | apply keep_State_setReg
    | simp only [kept_mk, keptF_fold]
    | split

theorem keep_setSession {k : Watch} {s0 a1} (h0 : Kept k s0) : Kept k (setSession s0 a1) := by
  unfold setSession
  repeat' first
    | with_reducible assumption
    | simp only [kept_mk, keptF_fold]

theorem keep_startBlock {k : Watch} {s0 a1 a2 a3} (h0 : Kept k s0) : Kept k (startBlock s0 a1 a2 a3) := by
  unfold startBlock
  extract_lets a ks t t1
  have h : Kept k t := by
    have e : t.nvm.otp = s0.nvm.otp := eraseSectors_otp
    exact ⟨h0.1, e ▸ h0.2.1, h0.2.2⟩
  apply keep_setSession
  dsimp only [t1]
  split
  · exact keep_markTs h
  · exact h

theorem keep_headerPassed {k : Watch} {s0 a1 a2 a3 a4} (h0 : Kept k s0) : Kept k (headerPassed s0 a1 a2 a3 a4) := by
  unfold headerPassed
  repeat' first | with_reducible assumption | with_reducible apply keep_updAnswer | with_reducible apply keep_State_siltRefused | with_reducible apply keep_siltUpd | with_reducible apply keep_setCodeSlot | with_reducible apply keep_startBlock | split

theorem keep_runWrite {k : Watch} {s0 a1 a2 a3 a4} (h0 : Kept k s0) : Kept k (runWrite s0 a1 a2 a3 a4) := by
  unfold runWrite
  repeat' first | with_reducible assumption | with_reducible apply keep_updAnswer | with_reducible apply keep_headerPassed | with_reducible apply keep_State_bump | with_reducible apply keep_startBlock | split

theorem keep_blockEnds {k : Watch} {s0 a1 a2 a3} (h0 : Kept k s0) : Kept k (blockEnds s0 a1 a2 a3) := by
  unfold blockEnds
  split
  · exact ⟨h0.1, by rw [show ({ s0 with nvm := programFlash 256 (a1 / 256) a2 s0.nvm } : State).nvm.otp = s0.nvm.otp from programFlash_otp]; exact h0.2.1, h0.2.2⟩
  · exact ⟨h0.1, by dsimp only; rw [programFlash_otp]; exact h0.2.1, h0.2.2⟩

theorem keep_finishWith {k : Watch} {s0 a1 a2 a3 a4} (h0 : Kept k s0) : Kept k (finishWith s0 a1 a2 a3 a4) := by
  unfold finishWith
  repeat' first | with_reducible assumption | with_reducible apply keep_closeSession | with_reducible apply keep_updAnswer

theorem keep_finishConfig {k : Watch} {s0 a1 a2} (h0 : Kept k s0) : Kept k (finishConfig s0 a1 a2) := by
  unfold finishConfig
  repeat' first | with_reducible assumption | with_reducible apply keep_finishWith | with_reducible apply keep_State_siltRefused | with_reducible apply keep_closeSession | with_reducible apply keep_updAnswer | with_reducible apply keep_markTs | with_reducible apply keep_siltUpd | split

theorem keep_finishReady {k : Watch} {s0 a1 a2} (h0 : Kept k s0) : Kept k (finishReady s0 a1 a2) := by
  unfold finishReady
  repeat' first | with_reducible assumption | with_reducible apply keep_finishWith | with_reducible apply keep_State_siltRefused | with_reducible apply keep_siltUpd | with_reducible apply keep_markSlot | split

theorem keep_finishCode {k : Watch} {s0 a1 a2} (h0 : Kept k s0) : Kept k (finishCode s0 a1 a2) := by
  unfold finishCode
  repeat' first | with_reducible assumption | with_reducible apply keep_finishReady | with_reducible apply keep_finishWith | with_reducible apply keep_setCodeSlot | with_reducible apply keep_elim | intro _

theorem keep_finishRelay {k : Watch} {s0 a1 a2} (h0 : Kept k s0) : Kept k (finishRelay s0 a1 a2) := by
  unfold finishRelay
  repeat' first | with_reducible assumption | with_reducible apply keep_finishWith | with_reducible apply keep_elim | intro _

theorem keep_runFinish {k : Watch} {s0 a1 a2} (h0 : Kept k s0) : Kept k (runFinish s0 a1 a2) := by
  unfold runFinish
  repeat' first | with_reducible assumption | with_reducible apply keep_finishConfig | with_reducible apply keep_finishCode | with_reducible apply keep_finishRelay | split

end Sys2Proof.Laws
end

