-- ==== Sys2Proof/Laws/Keep7.lean ====
section
/-!
SUPPORT. `Kept` for the functions of Machine/: RegWrite, StartOps, Lockstep.
-/
set_option linter.unusedSimpArgs false
namespace Sys2Proof.Laws
set_option Elab.async false
open Sys2Proof Sys2Proof.Machine

/-! ### RegWrite -/

theorem keep_shadowWrite {k : Watch} {s0 a1 a2 a3} (h0 : Kept k s0) : Kept k (shadowWrite s0 a1 a2 a3) := by
  unfold shadowWrite
  repeat' first | with_reducible assumption | with_reducible apply keep_logReg | with_reducible apply keep_State_putShadow

theorem keep_clearBits {k : Watch} {s0 a1 a2} (h0 : Kept k s0) : Kept k (clearBits s0 a1 a2) := by
  unfold clearBits
  repeat' first | with_reducible assumption | with_reducible apply keep_State_setReg

theorem keep_typeWrite {k : Watch} {s0 a1 a2 a3 a4} (h0 : Kept k s0) : Kept k (typeWrite s0 a1 a2 a3 a4) := by
  unfold typeWrite
  repeat' first | with_reducible assumption | with_reducible apply keep_plainWrite | with_reducible apply keep_shadowWrite | with_reducible apply keep_clearBits | split

theorem keep_errcapCleared {k : Watch} {s0 a1 a2} (h0 : Kept k s0) : Kept k (errcapCleared s0 a1 a2) := by
  unfold errcapCleared
  repeat' first | with_reducible assumption | with_reducible apply keep_State_setReg | split

theorem keep_irqCleared {k : Watch} {s0 a1 a2} (h0 : Kept k s0) : Kept k (irqCleared s0 a1 a2) := by
  unfold irqCleared
  repeat' first | with_reducible assumption | with_reducible apply keep_State_setReg

theorem keep_irqEnabled {k : Watch} {s0 a1 a2 a3} (h0 : Kept k s0) : Kept k (irqEnabled s0 a1 a2 a3) := by
  unfold irqEnabled
  repeat' first
    | with_reducible assumption
    | with_reducible first | apply keep_plainWrite | apply keep_State_pageMsg
    | simp only [kept_mk, keptF_fold]
    | split

theorem keep_ctrlWritten {k : Watch} {s0 a1 a2 a3} (h0 : Kept k s0) : Kept k (ctrlWritten s0 a1 a2 a3) := by
  unfold ctrlWritten
  repeat' first
    | with_reducible assumption
    | with_reducible first | apply keep_plainWrite
    | simp only [kept_mk, keptF_fold]
    | split

theorem keep_commonWrite {k : Watch} {s0 a1 a2 a3 a4} (h0 : Kept k s0) : Kept k (commonWrite s0 a1 a2 a3 a4) := by
  unfold commonWrite
  repeat' first | with_reducible assumption | with_reducible apply keep_ctrlWritten | with_reducible apply keep_irqEnabled | with_reducible apply keep_irqCleared | with_reducible apply keep_setOwner | with_reducible apply keep_errcapCleared | with_reducible apply keep_typeWrite | split

theorem keep_sysWrite {k : Watch} {s0 a1 a2} (h0 : Kept k s0) : Kept k (sysWrite s0 a1 a2) := by
  unfold sysWrite
  repeat' first | with_reducible assumption | with_reducible apply keep_goTaken | with_reducible apply keep_discardTaken | split

theorem keep_siltWrite {k : Watch} {s0 a1 a2 a3} (h0 : Kept k s0) : Kept k (siltWrite s0 a1 a2 a3) := by
  unfold siltWrite
  repeat' first | with_reducible assumption | with_reducible apply keep_siltFrees | with_reducible apply keep_plainWrite | with_reducible apply keep_State_setReg | split

theorem keep_ringRegWrite {k : Watch} {s0 a1 a2 a3 a4 a5 a6} (h0 : Kept k s0) : Kept k (ringRegWrite s0 a1 a2 a3 a4 a5 a6) := by
  unfold ringRegWrite
  repeat' first | with_reducible assumption | with_reducible apply keep_ringCfgTaken | with_reducible apply keep_State_setReg | with_reducible apply keep_typeWrite | split

theorem keep_mbxWrite {k : Watch} {s0 a1 a2 a3} (h0 : Kept k s0) : Kept k (mbxWrite s0 a1 a2 a3) := by
  unfold mbxWrite
  repeat' first | with_reducible assumption | with_reducible apply keep_mbxDoor | with_reducible apply keep_State_setReg | split

theorem keep_autoInc {k : Watch} {s0 a1 a2} (h0 : Kept k s0) : Kept k (autoInc s0 a1 a2) := by
  unfold autoInc
  repeat' first | with_reducible assumption | with_reducible apply keep_State_setFld | split

theorem keep_bwWrite {k : Watch} {s0 a1 a2 a3} (h0 : Kept k s0) : Kept k (bwWrite s0 a1 a2 a3) := by
  unfold bwWrite
  repeat' first | with_reducible assumption | with_reducible apply keep_State_setCan | with_reducible apply keep_autoInc | with_reducible apply keep_logReg

theorem keep_canWrite {k : Watch} {s0 a1 a2 a3 a4 a5} (h0 : Kept k s0) : Kept k (canWrite s0 a1 a2 a3 a4 a5) := by
  unfold canWrite
  repeat' first
    | with_reducible assumption
    | with_reducible first | apply keep_State_setCan | apply keep_askCancel | apply keep_txsGo | apply keep_bwWrite | apply keep_authSet | apply keep_typeWrite
    | simp only [kept_mk, keptF_fold]
    | split

theorem keep_schWrite {k : Watch} {s0 a1 a2 a3} (h0 : Kept k s0) : Kept k (schWrite s0 a1 a2 a3) := by
  unfold schWrite
  repeat' first | with_reducible assumption | with_reducible apply keep_State_setLin | with_reducible apply keep_autoInc | with_reducible apply keep_logReg

theorem keep_linWrite {k : Watch} {s0 a1 a2 a3 a4 a5} (h0 : Kept k s0) : Kept k (linWrite s0 a1 a2 a3 a4 a5) := by
  unfold linWrite
  repeat' first
    | with_reducible assumption
    | with_reducible first | apply keep_linAwakes | apply keep_State_bump | apply keep_State_emit | apply keep_schWrite | apply keep_State_setReg | apply keep_State_setBitAt | apply keep_typeWrite
    | simp only [kept_mk, keptF_fold]
    | split

theorem keep_lvcLatched {k : Watch} {s0 a1} (h0 : Kept k s0) : Kept k (lvcLatched s0 a1) := by
  unfold lvcLatched
  repeat' first | with_reducible assumption | with_reducible apply keep_State_setReg | with_reducible apply keep_foldl | intro _

theorem keep_gweWrite {k : Watch} {s0 a1 a2 a3 a4 a5} (h0 : Kept k s0) : Kept k (gweWrite s0 a1 a2 a3 a4 a5) := by
  unfold gweWrite
  repeat' first
    | with_reducible assumption
    | with_reducible first | apply keep_gweReadOp | apply keep_gweStageOp | apply keep_lvcLatched | apply keep_State_setReg | apply keep_typeWrite
    | simp only [kept_mk, keptF_fold]
    | split

theorem keep_mscWrite {k : Watch} {s0 a1 a2 a3 a4 a5} (h0 : Kept k s0) : Kept k (mscWrite s0 a1 a2 a3 a4 a5) := by
  unfold mscWrite
  repeat' first
    | with_reducible assumption
    | with_reducible first | apply keep_selectSa | apply keep_tryInstall | apply keep_removeSa | apply keep_typeWrite
    | simp only [kept_mk, keptF_fold]
    | split

theorem keep_macWrite {k : Watch} {s0 a1 a2 a3 a4 a5} (h0 : Kept k s0) : Kept k (macWrite s0 a1 a2 a3 a4 a5) := by
  unfold macWrite
  repeat' first | with_reducible assumption | with_reducible apply keep_mdioStart | with_reducible apply keep_typeWrite | split

theorem keep_tphyWrite {k : Watch} {s0 a1 a2 a3 a4 a5} (h0 : Kept k s0) : Kept k (tphyWrite s0 a1 a2 a3 a4 a5) := by
  unfold tphyWrite
  repeat' first
    | with_reducible assumption
    | with_reducible first | apply keep_tc10Negotiate | apply keep_tc10Wake | apply keep_cableStart | apply keep_typeWrite
    | simp only [kept_mk, keptF_fold]
    | split

theorem keep_laneWrite {k : Watch} {s0 a1 a2 a3 a4 a5 a6} (h0 : Kept k s0) : Kept k (laneWrite s0 a1 a2 a3 a4 a5 a6) := by
  unfold laneWrite
  repeat' first | with_reducible assumption | with_reducible apply keep_prbsWrite | with_reducible apply keep_typeWrite | split

theorem keep_slRegWrite {k : Watch} {s0 a1 a2 a3 a4} (h0 : Kept k s0) : Kept k (slRegWrite s0 a1 a2 a3 a4) := by
  unfold slRegWrite
  repeat' first
    | with_reducible assumption
    | with_reducible first | apply keep_typeWrite | apply keep_laneWrite
    | simp only [kept_mk, keptF_fold]
    | split

theorem keep_entLatched {k : Watch} {s0 a1} (h0 : Kept k s0) : Kept k (entLatched s0 a1) := by
  unfold entLatched
  repeat' first
    | with_reducible assumption
    | with_reducible first | apply keep_State_setReg | apply keep_State_setPair | apply keep_foldl
    | intro _
    | split

theorem keep_recLatched {k : Watch} {s0 a1} (h0 : Kept k s0) : Kept k (recLatched s0 a1) := by
  unfold recLatched
  repeat' first
    | with_reducible assumption
    | with_reducible first | apply keep_State_setReg | apply keep_foldl
    | intro _
    | simp only [kept_mk, keptF_fold]

theorem keep_attrWrite {k : Watch} {s0 a1 a2 a3 a4} (h0 : Kept k s0) : Kept k (attrWrite s0 a1 a2 a3 a4) := by
  unfold attrWrite
  repeat' first | with_reducible assumption | with_reducible apply keep_logReg | simp only [kept_mk, keptF_fold]

theorem keep_fltWrite {k : Watch} {s0 a1 a2 a3 a4} (h0 : Kept k s0) : Kept k (fltWrite s0 a1 a2 a3 a4) := by
  unfold fltWrite
  repeat' first
    | with_reducible assumption
    | with_reducible first | apply keep_attrWrite | apply keep_entLatched | apply keep_State_setReg | apply keep_recLatched | apply keep_fltInjTaken | apply keep_typeWrite
    | simp only [kept_mk, keptF_fold]
    | split

theorem keep_kicked {k : Watch} {s0} (h0 : Kept k s0) : Kept k (kicked s0) := by
  unfold kicked
  repeat' first
    | with_reducible assumption
    | simp only [kept_mk, keptF_fold]

theorem keep_mirrorLatched {k : Watch} {s0 a1} (h0 : Kept k s0) : Kept k (mirrorLatched s0 a1) := by
  unfold mirrorLatched
  repeat' first | with_reducible assumption | with_reducible apply keep_State_setReg | with_reducible apply keep_foldl | intro _

theorem keep_twnWrite {k : Watch} {s0 a1 a2 a3 a4} (h0 : Kept k s0) : Kept k (twnWrite s0 a1 a2 a3 a4) := by
  unfold twnWrite
  repeat' first
    | with_reducible assumption
    | with_reducible first | apply keep_kicked | apply keep_mirrorLatched | apply keep_State_setReg | apply keep_typeWrite
    | simp only [kept_mk, keptF_fold]
    | split

theorem keep_updSessWrite {k : Watch} {s0 a1 a2} (h0 : Kept k s0) : Kept k (updSessWrite s0 a1 a2) := by
  unfold updSessWrite
  repeat' first | with_reducible assumption | with_reducible apply keep_openSession | with_reducible apply keep_closeSession | split

theorem keep_blockWrite {k : Watch} {s0 a1 a2 a3 a4 a5} (h0 : Kept k s0) : Kept k (blockWrite s0 a1 a2 a3 a4 a5) := by
  unfold blockWrite
  repeat' first
    | with_reducible assumption
    | with_reducible first | apply keep_sysWrite | apply keep_typeWrite | apply keep_semFree | apply keep_siltWrite | apply keep_mbxWrite | apply keep_captWrite | apply keep_macWrite | apply keep_logReg | apply keep_gclWrite | apply keep_slRegWrite | apply keep_laneWrite | apply keep_tphyWrite | apply keep_canWrite | apply keep_linWrite | apply keep_gweWrite | apply keep_mscWrite | apply keep_gmSet | apply keep_ppoWrite | apply keep_memInjTaken | apply keep_lspInjTaken | apply keep_fltWrite | apply keep_twnWrite | apply keep_updSessWrite
    | simp only [kept_mk, keptF_fold]
    | split

theorem keep_written {k : Watch} {s0 a1 a2 a3 a4} (h0 : Kept k s0) : Kept k (written s0 a1 a2 a3 a4) := by
  unfold written
  repeat' first | with_reducible assumption | with_reducible apply keep_ringRegWrite | with_reducible apply keep_commonWrite | with_reducible apply keep_blockWrite | with_reducible apply keep_typeWrite | split

theorem keep_pairApply {k : Watch} {s0 a1 a2 a3 a4} (h0 : Kept k s0) : Kept k (pairApply s0 a1 a2 a3 a4) := by
  unfold pairApply
  repeat' first | with_reducible assumption | with_reducible apply keep_written | with_reducible apply keep_State_setHeld | split

theorem keep_pairHold {k : Watch} {s0 a1 a2 a3} (h0 : Kept k s0) : Kept k (pairHold s0 a1 a2 a3) := by
  unfold pairHold
  repeat' first | with_reducible assumption | with_reducible apply keep_State_setHeld

theorem keep_accepted {k : Watch} {s0 a1 a2 a3} (h0 : Kept k s0) : Kept k (accepted s0 a1 a2 a3) := by
  unfold accepted
  repeat' first | with_reducible assumption | with_reducible apply keep_written | with_reducible apply keep_pairApply | with_reducible apply keep_pairHold | split

theorem keep_saCtrlWrite {k : Watch} {s0 a1 a2 a3 a4 a5} (h0 : Kept k s0) : Kept k (saCtrlWrite s0 a1 a2 a3 a4 a5) := by
  unfold saCtrlWrite
  repeat' first | with_reducible assumption | with_reducible apply keep_State_refuse | with_reducible apply keep_tryInstall | split

theorem keep_regWrite {k : Watch} {s0 a1 a2 a3 a4} (h0 : Kept k s0) : Kept k (regWrite s0 a1 a2 a3 a4) := by
  unfold regWrite
  repeat' first | with_reducible assumption | with_reducible apply keep_saCtrlWrite | with_reducible apply keep_State_refuse | with_reducible apply keep_accepted | split

theorem keep_bar2Write {k : Watch} {s0 a1 a2 a3 a4 a5} (h0 : Kept k s0) : Kept k (bar2Write s0 a1 a2 a3 a4 a5) := by
  unfold bar2Write
  repeat' first | with_reducible assumption | with_reducible apply keep_State_refuse | with_reducible apply keep_regWrite | split

theorem keep_masterWrite {k : Watch} {s0 a1 a2 a3 a4} (h0 : Kept k s0) : Kept k (masterWrite s0 a1 a2 a3 a4) := by
  unfold masterWrite
  repeat' first | with_reducible assumption | with_reducible apply keep_whenever | with_reducible apply keep_msixWrite | with_reducible apply keep_bar2Write | with_reducible apply keep_regWrite | split

theorem keep_execRegisterWrite {k : Watch} {a0 a1 a2 a3 s4} (h4 : Kept k s4) : KeptR k (execRegisterWrite a0 a1 a2 a3 s4) := by
  unfold execRegisterWrite
  repeat' first | with_reducible assumption | with_reducible apply keep_ifWf | with_reducible apply keep_masterWrite

theorem keep_execPairHiWrite {k : Watch} {a0 a1 a2 s3} (h3 : Kept k s3) : KeptR k (execPairHiWrite a0 a1 a2 s3) := by
  unfold execPairHiWrite
  repeat' first | with_reducible assumption | with_reducible apply keep_ifWf | with_reducible apply keep_State_write | with_reducible apply keep_pairHold

theorem keep_execPairLoWrite {k : Watch} {a0 a1 a2 s3} (h3 : Kept k s3) : KeptR k (execPairLoWrite a0 a1 a2 s3) := by
  unfold execPairLoWrite
  repeat' first | with_reducible assumption | with_reducible apply keep_ifWf | with_reducible apply keep_State_write | with_reducible apply keep_pairApply | split

theorem keep_execErrcapClear {k : Watch} {a0 a1 s2} (h2 : Kept k s2) : KeptR k (execErrcapClear a0 a1 s2) := by
  unfold execErrcapClear
  repeat' first | with_reducible assumption | with_reducible apply keep_ifWf | with_reducible apply keep_State_write | with_reducible apply keep_errcapCleared

theorem keep_execIrqClrWrite {k : Watch} {a0 a1 a2 s3} (h3 : Kept k s3) : KeptR k (execIrqClrWrite a0 a1 a2 s3) := by
  unfold execIrqClrWrite
  repeat' first | with_reducible assumption | with_reducible apply keep_ifWf | with_reducible apply keep_State_write | with_reducible apply keep_irqCleared

theorem keep_execIrqEnWrite {k : Watch} {a0 a1 a2 s3} (h3 : Kept k s3) : KeptR k (execIrqEnWrite a0 a1 a2 s3) := by
  unfold execIrqEnWrite
  repeat' first | with_reducible assumption | with_reducible apply keep_ifWf | with_reducible apply keep_State_write | with_reducible apply keep_irqEnabled

/-! ### StartOps -/

theorem keep_fresh {k : Watch} {s0 a1 n} (h0 : Kept k s0) (e : n.otp = s0.nvm.otp) : Kept k (fresh s0 a1 n) :=
  ⟨h0.1, by unfold fresh; dsimp only; rw [e]; exact h0.2.1, wf_filter h0.2.2.1, rfl⟩

theorem keep_wiped {k : Watch} {s0 a1} (h0 : Kept k s0) : Kept k (wiped s0 a1) := by
  unfold wiped
  exact keep_State_bump (keep_State_setReg (keep_fresh h0 rfl))

theorem keep_deriveKeys {k : Watch} {s0 a1} (h0 : Kept k s0) : Kept k (deriveKeys s0 a1).1 := by
  unfold deriveKeys
  repeat' first
    | with_reducible assumption
    | with_reducible first | apply keep_State_setKeySlot | apply keep_State_setBitAt
    | simp only [kept_mk, keptF_fold]
    | split

theorem keep_deviceKeys {k : Watch} {s0} (h0 : Kept k s0) : Kept k (deviceKeys s0).1 := by
  unfold deviceKeys
  repeat' first
    | with_reducible assumption
    | with_reducible first | apply keep_State_setBitAt | apply keep_State_setReg | apply keep_State_report | apply keep_State_raise | apply keep_deriveKeys
    | simp only [kept_mk, keptF_fold]
    | split

theorem keep_powerOnTests {k : Watch} {s0} (h0 : Kept k s0) : Kept k (powerOnTests s0).1 := by
  unfold powerOnTests
  repeat' first
    | with_reducible assumption
    | with_reducible first | apply keep_State_setReg | apply keep_State_report
    | simp only [kept_mk, keptF_fold]
    | split

theorem keep_testResults {k : Watch} {s0} (h0 : Kept k s0) : Kept k (testResults s0).1 := by
  unfold testResults
  repeat' first
    | with_reducible assumption
    | with_reducible first | apply keep_State_setReg | apply keep_State_report
    | simp only [kept_mk, keptF_fold]
    | split

theorem keep_startTests {k : Watch} {s0 a1} (h0 : Kept k s0) : Kept k (startTests s0 a1).1 := by
  unfold startTests
  repeat' first | with_reducible assumption | with_reducible apply keep_powerOnTests | with_reducible apply keep_testResults | split

theorem keep_trialStep {k : Watch} {s0} (h0 : Kept k s0) : Kept k (trialStep s0) := by
  unfold trialStep
  repeat' first
    | with_reducible assumption
    | with_reducible first | apply keep_markSlot | apply keep_siltUpd | apply keep_State_raise | apply keep_State_bump
    | simp only [kept_mk, keptF_fold]
    | split

theorem keep_slotFails {k : Watch} {s0 a1} (h0 : Kept k s0) : Kept k (slotFails s0 a1) := by
  unfold slotFails
  repeat' first
    | with_reducible assumption
    | with_reducible first | apply keep_siltUpd | apply keep_State_raise | apply keep_State_bump | apply keep_markSlot
    | simp only [kept_mk, keptF_fold]
    | split

theorem keep_chooseSlot {k : Watch} {a0 s1} (h1 : Kept k s1) : Kept k (chooseSlot a0 s1).1 := by
  induction a0 generalizing s1 with
  | nil => exact h1
  | cons j rest ih =>
    unfold chooseSlot
    split
    · exact ih (keep_markSlot h1)
    · split
      · split
        · exact keep_markSlot h1
        · exact h1
      · exact ih (keep_slotFails h1)

theorem keep_bootSlot {k : Watch} {s0} (h0 : Kept k s0) : Kept k (bootSlot s0).1 := by
  unfold bootSlot
  repeat' first | with_reducible assumption | with_reducible apply keep_trialStep | with_reducible apply keep_chooseSlot

theorem keep_restoreBlob {k : Watch} {s0 a1} (h0 : Kept k s0) : Kept k (restoreBlob s0 a1) := by
  unfold restoreBlob
  repeat' first
    | with_reducible assumption
    | with_reducible first | apply keep_siltKey | apply keep_State_report | apply keep_State_raise | apply keep_State_bump | apply keep_State_setKeySlot
    | simp only [kept_mk, keptF_fold]
    | split

theorem keep_restoreKeys {k : Watch} {s0} (h0 : Kept k s0) : Kept k (restoreKeys s0) := by
  unfold restoreKeys
  repeat' first
    | with_reducible assumption
    | with_reducible first | apply keep_State_setBitAt | apply keep_State_setKeySlot | apply keep_restoreBlob | apply keep_siltKey | apply keep_State_tick1 | apply keep_foldl
    | simp only [kept_mk, keptF_fold]
    | split

theorem keep_tsRegs {k : Watch} {a0 a1 s2} (h2 : Kept k s2) : ∀ t, (tsRegs a0 a1 s2) = some t → Kept k t := by
  induction a0 generalizing a1 s2 with
  | zero => intro t ht; cases ht; exact h2
  | succ n ih =>
    intro t ht
    unfold tsRegs at ht
    dsimp only at ht
    split at ht
    · cases ht
    · exact ih (keep_regWrite h2) t ht

theorem keep_tsEntry {k : Watch} {s0 a1 a2 a3 a4} (h0 : Kept k s0) : ∀ t, (tsEntry s0 a1 a2 a3 a4) = some t → Kept k t := by
  intro t ht
  unfold tsEntry at ht
  split at ht
  · cases ht
  · split at ht
    · split at ht
      · cases ht; exact keep_stageOne h0
      · cases ht
    · split at ht
      · split at ht
        · cases ht; exact keep_stageOne h0
        · rw [Option.map_eq_some_iff] at ht
          obtain ⟨w, -, rfl⟩ := ht
          exact keep_foldl (fun _ _ h => keep_stageOne h) h0
      · cases ht

theorem keep_tsTables {k : Watch} {a0 a1 s2} (h2 : Kept k s2) : ∀ t, (tsTables a0 a1 s2) = some t → Kept k t := by
  induction a0 generalizing a1 s2 with
  | zero => intro t ht; cases ht; exact h2
  | succ n ih =>
    intro t ht
    unfold tsTables at ht
    dsimp only at ht
    split at ht
    · cases ht; exact h2
    · split at ht
      · cases ht
      · split at ht
        · cases ht
        · exact ih (keep_tsEntry h2 _ (by assumption)) t ht

theorem keep_cfgErr {k : Watch} {s0 a1} (h0 : Kept k s0) : Kept k (cfgErr s0 a1) := by
  unfold cfgErr
  repeat' first | with_reducible assumption | with_reducible apply keep_State_setFld

theorem keep_tsReject {k : Watch} {s0 a1 a2} (h0 : Kept k s0) : Kept k (tsReject s0 a1 a2) := by
  unfold tsReject
  repeat' first | with_reducible assumption | with_reducible apply keep_siltUpd | with_reducible apply keep_cfgErr | with_reducible apply keep_State_raise | with_reducible apply keep_State_bump | with_reducible apply keep_markTs

theorem keep_tsInUse {k : Watch} {s0 a1 a2} (h0 : Kept k s0) : Kept k (tsInUse s0 a1 a2) := by
  unfold tsInUse
  repeat' first | with_reducible assumption | with_reducible apply keep_markTs | with_reducible apply keep_siltUpd | simp only [kept_mk, keptF_fold]

theorem keep_runWait {k : Watch} {s0} (h0 : Kept k s0) : Kept k (runWait s0) := by
  unfold runWait
  repeat' first | with_reducible assumption | with_reducible apply keep_State_raise | simp only [kept_mk, keptF_fold]

theorem keep_migrateFails {k : Watch} {s0 s1 a2} (h0 : Kept k s0) (h1 : Kept k s1) : Kept k (migrateFails s0 s1 a2) := by
  unfold migrateFails
  repeat' first | with_reducible assumption | with_reducible apply keep_runWait | with_reducible apply keep_siltUpd | with_reducible apply keep_cfgErr

theorem keep_migrateWrites {k : Watch} {s0 a1 a2} (h0 : Kept k s0) : Kept k (migrateWrites s0 a1 a2) := by
  refine ⟨h0.1, ?_, h0.2.2⟩
  unfold migrateWrites
  dsimp only
  rw [writeArea_otp]
  exact h0.2.1

theorem keep_migratePasses {k : Watch} {s0 s1 a2} (h0 : Kept k s0) (h1 : Kept k s1) : Kept k (migratePasses s0 s1 a2) := by
  unfold migratePasses
  repeat' first | with_reducible assumption | with_reducible apply keep_tsInUse | with_reducible apply keep_siltUpd | with_reducible apply keep_State_raise

theorem keep_tsGoes {k : Watch} {x : TsTry} {p : State → State} {f : Nat → State} {b a : State}
    (hp : ∀ u, x = .pass u → Kept k (p u)) (hf : ∀ e, Kept k (f e)) (hb : Kept k b) (ha : Kept k a) :
    Kept k (tsGoes x p f b a) := by
  cases x with
  | pass u => exact hp u rfl
  | fail e => exact hf e
  | below => exact hb
  | above => exact ha

theorem elim_pass {α : Type} {o : Option α} {x : Nat} {f : α → TsTry} {u : State} (e : o.elim (.fail x) f = .pass u) :
    ∃ y, o = some y ∧ f y = .pass u := by
  cases o with
  | none => cases e
  | some y => exact ⟨y, rfl, e⟩

theorem elim_fail {α : Type} {o : Option α} {d : TsTry} {g : α → Nat} {u : State}
    (e : o.elim d (fun x => .fail (g x)) = .pass u) : d = .pass u := by
  cases o with
  | none => exact e
  | some y => cases e

theorem kept_tsArm {k : Watch} {s u : State} (h : Kept k s) (e : tsArm s = .pass u) : Kept k u := by
  have hg : Kept k (goTaken s whoMp0 0) := keep_goTaken h
  unfold tsArm at e
  extract_lets armed at e
  have hg : Kept k armed := hg
  clear_value armed
  obtain ⟨x, -, e⟩ := elim_pass e
  have e := elim_fail e
  cases e
  exact hg

theorem kept_tsSchema {k : Watch} {s u : State} {j : Nat} (h : Kept k s) (e : tsSchema s j = .pass u) : Kept k u := by
  unfold tsSchema at e
  extract_lets r tb at e
  clear_value r tb
  obtain ⟨t, ht, e⟩ := elim_pass e
  obtain ⟨v, hv, e⟩ := elim_pass e
  split at e
  · cases e
  · exact kept_tsArm (keep_tsTables (keep_tsRegs h _ ht) _ hv) e

theorem kept_tsTry {k : Watch} {s u : State} {j : Nat} (h : Kept k s) (e : tsTry s j = .pass u) : Kept k u := by
  unfold tsTry at e
  extract_lets b at e
  clear_value b
  have e := elim_fail e
  split at e
  · cases e
  · split at e
    · cases e
    · exact kept_tsSchema h e

theorem keep_tsMigrate {k : Watch} {s0 a1} (h0 : Kept k s0) : Kept k (tsMigrate s0 a1) := by
  have hf : ∀ t, Kept k t → Kept k (migrateFails s0 t a1) := fun _ h => keep_runWait (keep_siltUpd (keep_cfgErr h))
  unfold tsMigrate
  refine keep_elim (hf _ h0) (fun img => ?_)
  have ht : Kept k (migrateWrites s0 a1 img) := keep_migrateWrites h0
  exact keep_tsGoes (fun u hu => keep_migratePasses h0 (kept_tsTry ht hu)) (fun _ => hf _ ht) (hf _ ht) (hf _ ht)

theorem keep_tsChoose {k : Watch} {a0 s1} (h1 : Kept k s1) : Kept k (tsChoose a0 s1) := by
  induction a0 generalizing s1 with
  | nil => exact keep_runWait h1
  | cons j rest ih =>
    unfold tsChoose
    refine keep_tsGoes (fun u hu => keep_tsInUse (kept_tsTry h1 hu)) (fun e => ih ?_) (keep_tsMigrate h1) (ih h1)
    split
    · exact keep_tsReject h1
    · exact h1

theorem keep_lanesTrain {k : Watch} {s0} (h0 : Kept k s0) : Kept k (lanesTrain s0) := by
  unfold lanesTrain
  repeat' first
    | with_reducible assumption
    | with_reducible first | apply keep_State_setMac | apply keep_foldl
    | intro _
    | split

theorem keep_enterConfigure {k : Watch} {s0} (h0 : Kept k s0) : Kept k (enterConfigure s0) := by
  unfold enterConfigure
  repeat' first | with_reducible assumption | with_reducible apply keep_setMode | with_reducible apply keep_lanesTrain | with_reducible apply keep_tsChoose | simp only [kept_mk, keptF_fold]

theorem keep_leaveBoot {k : Watch} {s0 a1} (h0 : Kept k s0) : Kept k (leaveBoot s0 a1) := by
  unfold leaveBoot
  repeat' first | with_reducible assumption | with_reducible apply keep_quarantine | with_reducible apply keep_enterConfigure | split

theorem keep_bootNone {k : Watch} {s0} (h0 : Kept k s0) : Kept k (bootNone s0) := by
  unfold bootNone
  repeat' first
    | with_reducible assumption
    | simp only [kept_mk, keptF_fold]

theorem keep_bootTaken {k : Watch} {s0 a1} (h0 : Kept k s0) : Kept k (bootTaken s0 a1) := by
  unfold bootTaken
  repeat' first | with_reducible assumption | with_reducible apply keep_restoreKeys | simp only [kept_mk, keptF_fold]

theorem keep_bootBad {k : Watch} {s0 a1} (h0 : Kept k s0) : Kept k (bootBad s0 a1) := by
  unfold bootBad
  repeat' first | with_reducible assumption | with_reducible apply keep_slotFails | simp only [kept_mk, keptF_fold]

theorem keep_bootDone {k : Watch} {s0} (h0 : Kept k s0) : Kept k (bootDone s0) := by
  unfold bootDone
  repeat' first | with_reducible assumption | with_reducible apply keep_leaveBoot | simp only [kept_mk, keptF_fold]

theorem keep_bootOn {k : Watch} {a0 s1} (h0 : ∀ x0, Kept k x0 → Kept k (a0 x0)) (h1 : Kept k s1) : Kept k (bootOn a0 s1) := by
  have hr := keep_bootSlot h1
  unfold bootOn
  refine keep_elim (keep_bootNone hr) (fun j => ?_)
  have hu := keep_bootTaken (a1 := j) hr
  dsimp only
  split
  · exact h0 _ (keep_bootBad hu)
  · exact keep_bootDone hu

theorem keep_startFrom {k : Watch} {a0 a1 s2} (h2 : Kept k s2) : Kept k (startFrom a0 a1 s2) := by
  induction a0 generalizing a1 s2 with
  | zero => exact h2
  | succ n ih =>
    unfold startFrom
    exact keep_bootOn (fun _ h => ih h) (keep_deviceKeys (keep_startTests (keep_wiped h2)))

theorem keep_start {k : Watch} {a0 s1} (h1 : Kept k s1) : Kept k (start a0 s1) := by
  unfold start
  repeat' first | with_reducible assumption | with_reducible apply keep_startFrom

theorem keep_bootRestart {k : Watch} {s0} (h0 : Kept k s0) : Kept k (bootRestart s0) := by
  unfold bootRestart
  repeat' first | with_reducible assumption | with_reducible apply keep_bootOn | with_reducible apply keep_startFrom

/-! ### Lockstep -/

theorem keep_pairFail {k : Watch} {s0 a1 a2} (h0 : Kept k s0) : Kept k (pairFail s0 a1 a2) := by
  unfold pairFail
  repeat' first | with_reducible assumption | with_reducible apply keep_State_setPairSt | with_reducible apply keep_State_setFld | with_reducible apply keep_State_setBitAt | with_reducible apply keep_State_report | with_reducible apply keep_aliveFall | with_reducible apply keep_State_raise | with_reducible apply keep_start | with_reducible apply keep_faultStop | split

theorem keep_injActs {k : Watch} {s0 a1} (h0 : Kept k s0) : Kept k (injActs s0 a1) := by
  unfold injActs
  repeat' first
    | with_reducible assumption
    | with_reducible first | apply keep_State_setPairSt | apply keep_State_setBitAt
    | simp only [kept_mk, keptF_fold]
    | split

theorem keep_mismatchSeen {k : Watch} {s0 a1 a2 a3} (h0 : Kept k s0) : Kept k (mismatchSeen s0 a1 a2 a3) := by
  unfold mismatchSeen
  repeat' first | with_reducible assumption | with_reducible apply keep_State_setReg | with_reducible apply keep_State_bump

theorem keep_replays {k : Watch} {s0 a1} (h0 : Kept k s0) : Kept k (replays s0 a1) := by
  unfold replays
  repeat' first | with_reducible assumption | with_reducible apply keep_State_report | with_reducible apply keep_State_raise | with_reducible apply keep_State_bump | with_reducible apply keep_State_setPairSt

theorem keep_agreedRun {k : Watch} {s0 a1} (h0 : Kept k s0) : Kept k (agreedRun s0 a1) := by
  unfold agreedRun
  repeat' first | with_reducible assumption | with_reducible apply keep_State_report | with_reducible apply keep_State_raise | with_reducible apply keep_State_bump | with_reducible apply keep_State_setBitAt | with_reducible apply keep_State_setPairSt

theorem keep_mismatch {k : Watch} {s0 a1 a2 a3} (h0 : Kept k s0) : Kept k (mismatch s0 a1 a2 a3) := by
  unfold mismatch
  repeat' first
    | with_reducible assumption
    | with_reducible first | apply keep_injActs | apply keep_mismatchSeen | apply keep_State_setPairSt | apply keep_replays | apply keep_agreedRun | apply keep_pairFail
    | simp only [kept_mk, keptF_fold]
    | split

theorem keep_execLockstepMismatch {k : Watch} {a0 a1 a2 s3} (h3 : Kept k s3) : KeptR k (execLockstepMismatch a0 a1 a2 s3) := by
  unfold execLockstepMismatch
  repeat' first | with_reducible assumption | with_reducible apply keep_whenever | with_reducible apply keep_mismatch | with_reducible apply keptR_next

theorem keep_taskEnds {k : Watch} {s0 a1 a2} (h0 : Kept k s0) : Kept k (taskEnds s0 a1 a2) := by
  unfold taskEnds
  repeat' first | with_reducible assumption | with_reducible apply keep_regWrite | with_reducible apply keep_State_setBitAt | with_reducible apply keep_State_setPairSt | with_reducible apply keep_foldl | intro _

theorem keep_taskOver {k : Watch} {s0 a1} (h0 : Kept k s0) : Kept k (taskOver s0 a1) := by
  unfold taskOver
  repeat' first | with_reducible assumption | with_reducible apply keep_pairFail | with_reducible apply keep_State_report | with_reducible apply keep_State_bump

theorem keep_execTaskCommit {k : Watch} {a0 a1 s2} (h2 : Kept k s2) : KeptR k (execTaskCommit a0 a1 s2) := by
  unfold execTaskCommit
  repeat' first | with_reducible assumption | with_reducible apply keep_whenever | with_reducible apply keep_taskOver | with_reducible apply keep_taskEnds | with_reducible apply keptR_next | split

theorem keep_execTaskOverrun {k : Watch} {a0 a1 s2} (h2 : Kept k s2) : KeptR k (execTaskOverrun a0 a1 s2) := by
  unfold execTaskOverrun
  repeat' first | with_reducible assumption | with_reducible apply keep_whenever | with_reducible apply keep_taskOver | with_reducible apply keptR_next

theorem keep_scrubMp {k : Watch} {s0 a1} (h0 : Kept k s0) : Kept k (scrubMp s0 a1) := by
  unfold scrubMp
  repeat' first | with_reducible assumption | with_reducible apply keep_memLost | with_reducible apply keep_State_tick1 | with_reducible apply keep_pairFail | split

theorem keep_scrubKeys {k : Watch} {s0 a1} (h0 : Kept k s0) : Kept k (scrubKeys s0 a1) := by
  unfold scrubKeys
  repeat' first | with_reducible assumption | with_reducible apply keep_slotParity | with_reducible apply keep_State_tick1

theorem keep_scrubRepeated {k : Watch} {s0 a1} (h0 : Kept k s0) : Kept k (scrubRepeated s0 a1) := by
  unfold scrubRepeated
  repeat' first | with_reducible assumption | with_reducible apply keep_scrubBuffer | with_reducible apply keep_scrubTables | with_reducible apply keep_scrubFlows | with_reducible apply keep_scrubMp | with_reducible apply keep_scrubBuses | with_reducible apply keep_State_report | with_reducible apply keep_memRepeated | with_reducible apply keep_scrubSilt | with_reducible apply keep_scrubKeys | with_reducible apply keep_memLost | with_reducible apply keep_scrubMisc | split

theorem keep_scrubWord {k : Watch} {s0 a1} (h0 : Kept k s0) : Kept k (scrubWord s0 a1) := by
  unfold scrubWord
  repeat' first
    | with_reducible assumption
    | with_reducible first | apply keep_scrubRepeated | apply keep_memErr | apply keep_memReplay
    | simp only [kept_mk, keptF_fold]
    | split

theorem keep_scrubs {k : Watch} {s0 a1} (h0 : Kept k s0) : Kept k (scrubs s0 a1) := by
  unfold scrubs
  repeat' first
    | with_reducible assumption
    | with_reducible first | apply keep_scrubWord | apply keep_State_setFld | apply keep_State_raise | apply keep_State_bump | apply keep_foldl
    | intro _
    | split

theorem keep_execScrubPass {k : Watch} {a0 s1} (h1 : Kept k s1) : KeptR k (execScrubPass a0 s1) := by
  unfold execScrubPass
  repeat' first | with_reducible assumption | with_reducible apply keep_ifWf | with_reducible apply keep_whenever | with_reducible apply keep_scrubs

theorem keep_stalls {k : Watch} {s0 a1} (h0 : Kept k s0) : Kept k (stalls s0 a1) := by
  unfold stalls
  repeat' first | with_reducible assumption | with_reducible apply keep_faultStop | with_reducible apply keep_State_report | with_reducible apply keep_State_raise | with_reducible apply keep_State_bump

theorem keep_execDpStall {k : Watch} {a0 s1} (h1 : Kept k s1) : KeptR k (execDpStall a0 s1) := by
  unfold execDpStall
  repeat' first | with_reducible assumption | with_reducible apply keep_whenever | with_reducible apply keep_stalls | with_reducible apply keptR_next

theorem keep_execPortStall {k : Watch} {a0 s1} (h1 : Kept k s1) : KeptR k (execPortStall a0 s1) := by
  unfold execPortStall
  repeat' first | with_reducible assumption | with_reducible apply keep_ifWf | with_reducible apply keep_whenever | with_reducible apply keep_stalls

theorem keep_execClockFail {k : Watch} {a0 s1} (h1 : Kept k s1) : KeptR k (execClockFail a0 s1) := by
  unfold execClockFail
  repeat' first | with_reducible assumption | with_reducible apply keep_whenever | with_reducible apply keep_faultStop | with_reducible apply keep_State_report | with_reducible apply keep_State_bump | with_reducible apply keptR_next

theorem keep_execSupplyFail {k : Watch} {a0 s1} (h1 : Kept k s1) : KeptR k (execSupplyFail a0 s1) := by
  unfold execSupplyFail
  repeat' first | with_reducible assumption | with_reducible apply keep_ifWf | with_reducible apply keep_whenever | with_reducible apply keep_faultStop | with_reducible apply keep_State_report | with_reducible apply keep_State_bump

end Sys2Proof.Laws
end

