-- ==== Sys2Proof/Laws/Keep8.lean ====
section
/-!
SUPPORT. `Kept` for the functions of Machine/: UpdExec, Mailbox, Kum, PowerEvents.
-/
set_option linter.unusedSimpArgs false
namespace Sys2Proof.Laws
set_option Elab.async false
open Sys2Proof Sys2Proof.Machine

/-! ### UpdExec -/

theorem keep_execUpdSessionOpen {k : Watch} {a0 a1 s2} (h2 : Kept k s2) : KeptR k (execUpdSessionOpen a0 a1 s2) := by
  unfold execUpdSessionOpen
  repeat' first | with_reducible assumption | with_reducible apply keep_State_write | with_reducible apply keep_openSession | with_reducible apply keptR_next

theorem keep_execUpdSessionClose {k : Watch} {a0 a1 s2} (h2 : Kept k s2) : KeptR k (execUpdSessionClose a0 a1 s2) := by
  unfold execUpdSessionClose
  repeat' first | with_reducible assumption | with_reducible apply keep_State_write | with_reducible apply keep_closeSession | with_reducible apply keep_tellClose | with_reducible apply keptR_next | split

theorem keep_toTwin {k : Watch} {s0 a1 a2 a3} (h0 : Kept k s0) : Kept k (toTwin s0 a1 a2 a3) := by
  unfold toTwin
  repeat' first | with_reducible assumption | with_reducible apply keep_relayPieces | with_reducible apply keep_setSession

theorem keep_takenWrite {k : Watch} {s0 a1 a2 a3 a4} (h0 : Kept k s0) : Kept k (takenWrite s0 a1 a2 a3 a4) := by
  unfold takenWrite
  repeat' first | with_reducible assumption | with_reducible apply keep_updAnswer | with_reducible apply keep_toTwin | with_reducible apply keep_runWrite | split

theorem keep_execUpdWrite {k : Watch} {a0 a1 a2 s3} (h3 : Kept k s3) : KeptR k (execUpdWrite a0 a1 a2 s3) := by
  unfold execUpdWrite
  repeat' first | with_reducible assumption | with_reducible apply keep_ifWf | with_reducible apply keep_takenWrite | with_reducible apply keep_ringTake | split

theorem keep_relaySend {k : Watch} {s0 a1 a2 a3} (h0 : Kept k s0) : Kept k (relaySend s0 a1 a2 a3) := by
  unfold relaySend
  repeat' first | with_reducible assumption | with_reducible apply keep_gptpSend

theorem keep_setRelay {k : Watch} {s0 a1} (h0 : Kept k s0) : Kept k (setRelay s0 a1) := by
  unfold setRelay
  repeat' first
    | with_reducible assumption
    | simp only [kept_mk, keptF_fold]

theorem keep_relayFill {k : Watch} {a0 a1 s2 a3} (h2 : Kept k s2) : Kept k (relayFill a0 a1 s2 a3) := by
  induction a0 generalizing a1 s2 a3 with
  | zero => exact keep_setRelay h2
  | succ n ih =>
    unfold relayFill
    split
    · exact ih (keep_relaySend h2)
    · split
      · exact keep_setRelay (keep_relaySend h2)
      · exact keep_setRelay h2

theorem keep_relayStart {k : Watch} {s0 a1 a2} (h0 : Kept k s0) : Kept k (relayStart s0 a1 a2) := by
  unfold relayStart
  repeat' first | with_reducible assumption | with_reducible apply keep_relayFill | with_reducible apply keep_State_tick1

theorem keep_relayEnds {k : Watch} {s0 a1 a2 a3} (h0 : Kept k s0) : Kept k (relayEnds s0 a1 a2 a3) := by
  unfold relayEnds
  repeat' first
    | with_reducible assumption
    | with_reducible first | apply keep_siltUpd | apply keep_closeSession | apply keep_updAnswer
    | simp only [kept_mk, keptF_fold]
    | split

theorem keep_noImageBoots {k : Watch} {s0 a1} (h0 : Kept k s0) : Kept k (noImageBoots s0 a1) := by
  unfold noImageBoots
  repeat' first
    | with_reducible assumption
    | with_reducible first | apply keep_bootRestart | apply keep_markSlot
    | simp only [kept_mk, keptF_fold]
    | split

theorem keep_ownFinish {k : Watch} {s0 a1 a2} (h0 : Kept k s0) : Kept k (ownFinish s0 a1 a2) := by
  unfold ownFinish
  repeat' first | with_reducible assumption | with_reducible apply keep_closeSession | with_reducible apply keep_updAnswer | with_reducible apply keep_runFinish | with_reducible apply keep_relayStart | with_reducible apply keep_noImageBoots | split

theorem keep_takenFinish {k : Watch} {s0 a1 a2} (h0 : Kept k s0) : Kept k (takenFinish s0 a1 a2) := by
  unfold takenFinish
  repeat' first | with_reducible assumption | with_reducible apply keep_updAnswer | with_reducible apply keep_toTwin | with_reducible apply keep_ownFinish | split

theorem keep_execUpdFinish {k : Watch} {a0 s1} (h1 : Kept k s1) : KeptR k (execUpdFinish a0 s1) := by
  unfold execUpdFinish
  repeat' first | with_reducible assumption | with_reducible apply keep_ifWf | with_reducible apply keep_takenFinish | with_reducible apply keep_ringTake | split

theorem keep_takenAbort {k : Watch} {s0 a1 a2} (h0 : Kept k s0) : Kept k (takenAbort s0 a1 a2) := by
  unfold takenAbort
  repeat' first | with_reducible assumption | with_reducible apply keep_updAnswer | with_reducible apply keep_relayPieces | with_reducible apply keep_abortSession | split

theorem keep_execUpdAbort {k : Watch} {a0 s1} (h1 : Kept k s1) : KeptR k (execUpdAbort a0 s1) := by
  unfold execUpdAbort
  repeat' first | with_reducible assumption | with_reducible apply keep_ifWf | with_reducible apply keep_takenAbort | with_reducible apply keep_ringTake | split

theorem keep_ownBlockEnds {k : Watch} {s0 a1 a2 a3 a4} (h0 : Kept k s0) : Kept k (ownBlockEnds s0 a1 a2 a3 a4) := by
  unfold ownBlockEnds
  repeat' first | with_reducible assumption | with_reducible apply keep_blockEnds | with_reducible apply keep_updAnswer | with_reducible apply keep_setSession

theorem keep_flashDone {k : Watch} {s0 a1} (h0 : Kept k s0) : Kept k (flashDone s0 a1) := by
  unfold flashDone
  repeat' first
    | with_reducible assumption
    | with_reducible first | apply keep_updComplete | apply keep_blockEnds | apply keep_ownBlockEnds
    | simp only [kept_mk, keptF_fold]
    | split

theorem keep_execFlashWriteDone {k : Watch} {a0 s1} (h1 : Kept k s1) : KeptR k (execFlashWriteDone a0 s1) := by
  unfold execFlashWriteDone
  repeat' first | with_reducible assumption | with_reducible apply keep_flashDone | with_reducible apply keptR_next

theorem keep_relayedRuns {k : Watch} {s0 a1 a2 a3} (h0 : Kept k s0) : Kept k (relayedRuns s0 a1 a2 a3) := by
  unfold relayedRuns
  repeat' first | with_reducible assumption | with_reducible apply keep_runWrite | with_reducible apply keep_ownFinish | with_reducible apply keep_abortSession | with_reducible apply keep_updAnswer | split

theorem keep_relayRecord {k : Watch} {s0 a1 a2 a3} (h0 : Kept k s0) : Kept k (relayRecord s0 a1 a2 a3) := by
  unfold relayRecord
  repeat' first
    | with_reducible assumption
    | with_reducible first | apply keep_State_tick1 | apply keep_slSend | apply keep_relayedRuns | apply keep_setSession
    | simp only [kept_mk, keptF_fold]
    | split

theorem keep_execRelayRecordRx {k : Watch} {a0 a1 a2 s3} (h3 : Kept k s3) : KeptR k (execRelayRecordRx a0 a1 a2 s3) := by
  unfold execRelayRecordRx
  repeat' first | with_reducible assumption | with_reducible apply keep_whenever | with_reducible apply keep_relayRecord | with_reducible apply keptR_next

theorem keep_relayAnswered {k : Watch} {s0 a1 a2 a3 a4} (h0 : Kept k s0) : Kept k (relayAnswered s0 a1 a2 a3 a4) := by
  unfold relayAnswered
  repeat' first | with_reducible assumption | with_reducible apply keep_updComplete | with_reducible apply keep_setSession | with_reducible apply keep_closeSession | split

theorem keep_relayAck {k : Watch} {s0 a1 a2} (h0 : Kept k s0) : Kept k (relayAck s0 a1 a2) := by
  unfold relayAck
  repeat' first | with_reducible assumption | with_reducible apply keep_relayFill | split

theorem keep_relayHeard {k : Watch} {s0 a1 a2} (h0 : Kept k s0) : Kept k (relayHeard s0 a1 a2) := by
  unfold relayHeard
  repeat' first | with_reducible assumption | with_reducible apply keep_relayAck | with_reducible apply keep_relayEnds | split

theorem keep_relayRx {k : Watch} {s0 a1 a2} (h0 : Kept k s0) : Kept k (relayRx s0 a1 a2) := by
  unfold relayRx
  repeat' first | with_reducible assumption | with_reducible apply keep_relayHeard | with_reducible apply keep_State_bump | split

theorem keep_execRelayFrameRx {k : Watch} {a0 a1 s2} (h2 : Kept k s2) : KeptR k (execRelayFrameRx a0 a1 s2) := by
  unfold execRelayFrameRx
  repeat' first | with_reducible assumption | with_reducible apply keep_ifWf | with_reducible apply keep_relayRx

theorem keep_relayAgain {k : Watch} {s0 a1 a2} (h0 : Kept k s0) : Kept k (relayAgain s0 a1 a2) := by
  unfold relayAgain
  repeat' first | with_reducible assumption | with_reducible apply keep_relayEnds | with_reducible apply keep_State_bump | with_reducible apply keep_relaySend | with_reducible apply keep_setRelay | split

theorem keep_execRelayRetransmit {k : Watch} {a0 s1} (h1 : Kept k s1) : KeptR k (execRelayRetransmit a0 s1) := by
  unfold execRelayRetransmit
  repeat' first | with_reducible assumption | with_reducible apply keep_relayAgain | with_reducible apply keptR_next | split

theorem keep_trialEnds {k : Watch} {s0 a1} (h0 : Kept k s0) : Kept k (trialEnds s0 a1) := by
  unfold trialEnds
  repeat' first
    | with_reducible assumption
    | with_reducible first | apply keep_healthStep | apply keep_confirmTrial | apply keep_start | apply keep_revertTrial
    | simp only [kept_mk, keptF_fold]
    | split

theorem keep_execTrialWindowEnd {k : Watch} {s0} (h0 : Kept k s0) : KeptR k (execTrialWindowEnd s0) := by
  unfold execTrialWindowEnd
  repeat' first | with_reducible assumption | with_reducible apply keep_trialEnds | with_reducible apply keptR_next | split

/-! ### Mailbox -/

theorem keep_info {k : Watch} {s0 a1} (h0 : Kept k s0) : Kept k (info s0 a1) := by
  unfold info
  repeat' first | with_reducible assumption | with_reducible apply keep_State_tick1 | with_reducible apply keep_mbxRespond

theorem keep_execInfo {k : Watch} {a0 s1} (h1 : Kept k s1) : KeptR k (execInfo a0 s1) := by
  unfold execInfo
  repeat' first | with_reducible assumption | with_reducible apply keep_mbxServe | with_reducible apply keep_info | with_reducible apply keptR_next | intro _

theorem keep_execSiltCheckpoint {k : Watch} {a0 s1} (h1 : Kept k s1) : KeptR k (execSiltCheckpoint a0 s1) := by
  unfold execSiltCheckpoint
  repeat' first | with_reducible assumption | with_reducible apply keep_mbxServe | with_reducible apply keep_mbxRespond | with_reducible apply keep_whenever | with_reducible apply keep_checkpointNow | with_reducible apply keptR_next | intro _

theorem keep_execBusyhit {k : Watch} {a0 s1} (h1 : Kept k s1) : KeptR k (execBusyhit a0 s1) := by
  unfold execBusyhit
  repeat' first | with_reducible assumption | with_reducible apply keep_whenever | with_reducible apply keep_State_write | with_reducible apply keep_mbxDoor | with_reducible apply keptR_next

theorem keep_mbxTaken {k : Watch} {s0 a1} (h0 : Kept k s0) : Kept k (mbxTaken s0 a1) := by
  unfold mbxTaken
  repeat' first
    | with_reducible assumption
    | simp only [kept_mk, keptF_fold]

theorem keep_swapStart {k : Watch} {s0 a1 a2 a3} (h0 : Kept k s0) : Kept k (swapStart s0 a1 a2 a3) := by
  unfold swapStart
  repeat' first | with_reducible assumption | with_reducible apply keep_slSend | simp only [kept_mk, keptF_fold]

theorem keep_roleSwap {k : Watch} {s0 a1} (h0 : Kept k s0) : Kept k (roleSwap s0 a1) := by
  unfold roleSwap
  repeat' first | with_reducible assumption | with_reducible apply keep_mbxRespond | with_reducible apply keep_swapStart | with_reducible apply keep_mbxTaken | split

theorem keep_execRoleSwap {k : Watch} {a0 s1} (h1 : Kept k s1) : KeptR k (execRoleSwap a0 s1) := by
  unfold execRoleSwap
  repeat' first | with_reducible assumption | with_reducible apply keep_mbxServe | with_reducible apply keep_roleSwap | with_reducible apply keptR_next | intro _

theorem keep_execSwapCondition {k : Watch} {a0 s1} (h1 : Kept k s1) : KeptR k (execSwapCondition a0 s1) := by
  unfold execSwapCondition
  repeat' first | with_reducible assumption | with_reducible apply keep_whenever | with_reducible apply keep_swapStart | with_reducible apply keptR_next

theorem keep_modeReq {k : Watch} {a0 s1 a2 a3} (h1 : Kept k s1) (h3 : ∀ x0, Kept k x0 → Kept k (a3 x0)) : Kept k (modeReq a0 s1 a2 a3) := by
  unfold modeReq
  refine keep_mbxServe h1 (fun u hu => ?_)
  repeat' split
  all_goals first | exact keep_mbxRespond hu | exact hu | exact h3 _ hu

theorem keep_sleepStarts {k : Watch} {s0 a1 a2} (h0 : Kept k s0) : Kept k (sleepStarts s0 a1 a2) := by
  unfold sleepStarts
  repeat' first | with_reducible assumption | with_reducible apply keep_State_silt_ | with_reducible apply keep_mbxRespond | simp only [kept_mk, keptF_fold]

theorem keep_sleepReq {k : Watch} {s0 a1 a2} (h0 : Kept k s0) : Kept k (sleepReq s0 a1 a2) := by
  unfold sleepReq
  repeat' first
    | with_reducible assumption
    | with_reducible first | apply keep_sleepStarts | apply keep_mbxRespond | apply keep_State_bump
    | simp only [kept_mk, keptF_fold]
    | split

theorem keep_execModeReqSleepRetain {k : Watch} {a0 s1} (h1 : Kept k s1) : KeptR k (execModeReqSleepRetain a0 s1) := by
  unfold execModeReqSleepRetain
  repeat' first | with_reducible assumption | with_reducible apply keep_modeReq | with_reducible apply keep_sleepReq | with_reducible apply keptR_next | intro _

theorem keep_execModeReqSleepDeep {k : Watch} {a0 s1} (h1 : Kept k s1) : KeptR k (execModeReqSleepDeep a0 s1) := by
  unfold execModeReqSleepDeep
  repeat' first | with_reducible assumption | with_reducible apply keep_modeReq | with_reducible apply keep_sleepReq | with_reducible apply keptR_next | intro _

theorem keep_enterService {k : Watch} {s0 a1 a2} (h0 : Kept k s0) : Kept k (enterService s0 a1 a2) := by
  unfold enterService
  repeat' first | with_reducible assumption | with_reducible apply keep_setMode | with_reducible apply keep_roleNone

theorem keep_serviceReq {k : Watch} {s0 a1} (h0 : Kept k s0) : Kept k (serviceReq s0 a1) := by
  unfold serviceReq
  repeat' first
    | with_reducible assumption
    | with_reducible first | apply keep_enterService | apply keep_mbxRespond | apply keep_swapStart | apply keep_mbxTaken
    | simp only [kept_mk, keptF_fold]
    | split

theorem keep_execModeReqService {k : Watch} {a0 s1} (h1 : Kept k s1) : KeptR k (execModeReqService a0 s1) := by
  unfold execModeReqService
  repeat' first | with_reducible assumption | with_reducible apply keep_modeReq | with_reducible apply keep_serviceReq | with_reducible apply keptR_next | intro _

theorem keep_resetReq {k : Watch} {s0 a1} (h0 : Kept k s0) : Kept k (resetReq s0 a1) := by
  unfold resetReq
  repeat' first | with_reducible assumption | with_reducible apply keep_mbxRespond | with_reducible apply keep_start | with_reducible apply keep_whenever | with_reducible apply keep_checkpointNow

theorem keep_modeReset {k : Watch} {s0 a1} (h0 : Kept k s0) : Kept k (modeReset s0 a1) := by
  unfold modeReset
  repeat' first
    | with_reducible assumption
    | with_reducible first | apply keep_mbxRespond | apply keep_resetReq
    | simp only [kept_mk, keptF_fold]
    | split

theorem keep_execModeReqReset {k : Watch} {a0 s1} (h1 : Kept k s1) : KeptR k (execModeReqReset a0 s1) := by
  unfold execModeReqReset
  repeat' first | with_reducible assumption | with_reducible apply keep_modeReset | with_reducible apply keptR_next

theorem keep_runReq {k : Watch} {s0 a1} (h0 : Kept k s0) : Kept k (runReq s0 a1) := by
  unfold runReq
  repeat' first
    | with_reducible assumption
    | with_reducible first | apply keep_mbxRespond
    | simp only [kept_mk, keptF_fold]
    | split

theorem keep_execModeReqRun {k : Watch} {a0 s1} (h1 : Kept k s1) : KeptR k (execModeReqRun a0 s1) := by
  unfold execModeReqRun
  repeat' first | with_reducible assumption | with_reducible apply keep_modeReq | with_reducible apply keep_runReq | with_reducible apply keptR_next | intro _

theorem keep_lightTests {k : Watch} {s0 a1} (h0 : Kept k s0) : Kept k (lightTests s0 a1).1 := by
  unfold lightTests
  repeat' first
    | with_reducible assumption
    | with_reducible first | apply keep_scrubs | apply keep_State_raise | apply keep_State_setReg | apply keep_foldl
    | simp only [kept_mk, keptF_fold]
    | split

theorem keep_destructiveTests {k : Watch} {s0 a1} (h0 : Kept k s0) : Kept k (destructiveTests s0 a1) := by
  unfold destructiveTests
  repeat' first | with_reducible assumption | with_reducible apply keep_start | simp only [kept_mk, keptF_fold]

theorem keep_destructive {k : Watch} {s0 a1 a2} (h0 : Kept k s0) : Kept k (destructive s0 a1 a2) := by
  unfold destructive
  repeat' first | with_reducible assumption | with_reducible apply keep_destructiveTests | with_reducible apply keep_mbxRespond | with_reducible apply keep_enterService

theorem keep_testRun {k : Watch} {s0 a1} (h0 : Kept k s0) : Kept k (testRun s0 a1) := by
  unfold testRun
  repeat' first
    | with_reducible assumption
    | with_reducible first | apply keep_mbxRespond | apply keep_lightTests | apply keep_destructive | apply keep_swapStart | apply keep_mbxTaken
    | simp only [kept_mk, keptF_fold]
    | split

theorem keep_testReq {k : Watch} {s0 a1} (h0 : Kept k s0) : Kept k (testReq s0 a1) := by
  unfold testReq
  repeat' first
    | with_reducible assumption
    | with_reducible first | apply keep_mbxRespond | apply keep_mbxServe | apply keep_testRun
    | intro _
    | split

theorem keep_execTestReq {k : Watch} {a0 s1} (h1 : Kept k s1) : KeptR k (execTestReq a0 s1) := by
  unfold execTestReq
  repeat' first | with_reducible assumption | with_reducible apply keep_testReq | with_reducible apply keptR_next

theorem keep_updDecide {k : Watch} {a0 a1 s2 a3 a4} (h2 : Kept k s2) (h4 : ∀ x0, Kept k x0 → Kept k (a4 x0)) : Kept k (updDecide a0 a1 s2 a3 a4) := by
  unfold updDecide
  repeat' first | with_reducible assumption | with_reducible apply keep_mbxServe | split

theorem keep_activated {k : Watch} {s0} (h0 : Kept k s0) : Kept k (activated s0) := by
  unfold activated
  repeat' first
    | with_reducible assumption
    | with_reducible first | apply keep_markSlot | apply keep_siltUpd
    | simp only [kept_mk, keptF_fold]
    | split

theorem keep_updRefused {k : Watch} {s0 a1 a2 a3} (h0 : Kept k s0) : Kept k (updRefused s0 a1 a2 a3) := by
  unfold updRefused
  repeat' first | with_reducible assumption | with_reducible apply keep_mbxRespond | with_reducible apply keep_State_siltRefused | split

theorem keep_activateReq {k : Watch} {s0 a1} (h0 : Kept k s0) : Kept k (activateReq s0 a1) := by
  unfold activateReq
  repeat' first | with_reducible assumption | with_reducible apply keep_mbxRespond | with_reducible apply keep_activated | with_reducible apply keep_updRefused | split

theorem keep_execUpdActivate {k : Watch} {a0 s1} (h1 : Kept k s1) : KeptR k (execUpdActivate a0 s1) := by
  unfold execUpdActivate
  repeat' first | with_reducible assumption | with_reducible apply keep_updDecide | with_reducible apply keep_activateReq | with_reducible apply keptR_next | intro _

theorem keep_activateResetReq {k : Watch} {s0 a1} (h0 : Kept k s0) : Kept k (activateResetReq s0 a1) := by
  unfold activateResetReq
  repeat' first | with_reducible assumption | with_reducible apply keep_mbxRespond | with_reducible apply keep_resetReq | with_reducible apply keep_activated | with_reducible apply keep_updRefused | split

theorem keep_execUpdActivateReset {k : Watch} {a0 s1} (h1 : Kept k s1) : KeptR k (execUpdActivateReset a0 s1) := by
  unfold execUpdActivateReset
  repeat' first | with_reducible assumption | with_reducible apply keep_updDecide | with_reducible apply keep_activateResetReq | with_reducible apply keptR_next | intro _

theorem keep_cancelReq {k : Watch} {s0 a1} (h0 : Kept k s0) : Kept k (cancelReq s0 a1) := by
  unfold cancelReq
  repeat' first
    | with_reducible assumption
    | with_reducible first | apply keep_mbxRespond | apply keep_updRefused | apply keep_markSlot | apply keep_siltUpd
    | simp only [kept_mk, keptF_fold]
    | split

theorem keep_execUpdCancel {k : Watch} {a0 s1} (h1 : Kept k s1) : KeptR k (execUpdCancel a0 s1) := by
  unfold execUpdCancel
  repeat' first | with_reducible assumption | with_reducible apply keep_updDecide | with_reducible apply keep_cancelReq | with_reducible apply keptR_next | intro _

theorem keep_vetoReq {k : Watch} {s0 a1} (h0 : Kept k s0) : Kept k (vetoReq s0 a1) := by
  unfold vetoReq
  repeat' first | with_reducible assumption | with_reducible apply keep_mbxRespond | with_reducible apply keep_updRefused | with_reducible apply keep_start | with_reducible apply keep_revertTrial | with_reducible apply keep_siltUpd | split

theorem keep_execUpdVeto {k : Watch} {a0 s1} (h1 : Kept k s1) : KeptR k (execUpdVeto a0 s1) := by
  unfold execUpdVeto
  repeat' first | with_reducible assumption | with_reducible apply keep_updDecide | with_reducible apply keep_vetoReq | with_reducible apply keptR_next | intro _

theorem keep_oemKeyReq {k : Watch} {s0 a1} (h0 : Kept k s0) : Kept k (oemKeyReq s0 a1) := by
  unfold oemKeyReq
  repeat' first
    | with_reducible assumption
    | with_reducible first | apply keep_mbxRespond | apply keep_updRefused | apply keep_otpProgram | apply keep_siltUpd | apply keep_foldl
    | intro _
    | split

theorem keep_execOemKeySet {k : Watch} {a0 s1} (h1 : Kept k s1) : KeptR k (execOemKeySet a0 s1) := by
  unfold execOemKeySet
  repeat' first | with_reducible assumption | with_reducible apply keep_updDecide | with_reducible apply keep_oemKeyReq | with_reducible apply keptR_next | intro _

/-! ### Kum -/

theorem keep_kumDone {k : Watch} {s0 a1 a2} (h0 : Kept k s0) : Kept k (kumDone s0 a1 a2) := by
  unfold kumDone
  repeat' first | with_reducible assumption | with_reducible apply keep_State_raise | with_reducible apply keep_State_setReg

theorem keep_kumRefused {k : Watch} {s0 a1 a2 a3} (h0 : Kept k s0) : Kept k (kumRefused s0 a1 a2 a3) := by
  unfold kumRefused
  repeat' first | with_reducible assumption | with_reducible apply keep_State_siltRefused | with_reducible apply keep_mbxRespond | with_reducible apply keep_kumDone | with_reducible apply keep_State_bump | split

theorem keep_kumCount {k : Watch} {s0 a1} (h0 : Kept k s0) : Kept k (kumCount s0 a1) := by
  unfold kumCount
  repeat' first
    | with_reducible assumption
    | simp only [kept_mk, keptF_fold]

theorem keep_kumAnswer {k : Watch} {s0 a1 a2 a3} (h0 : Kept k s0) : Kept k (kumAnswer s0 a1 a2 a3) := by
  unfold kumAnswer
  repeat' first | with_reducible assumption | with_reducible apply keep_mbxRespond | with_reducible apply keep_kumDone | with_reducible apply keep_State_bump

theorem keep_kumChange {k : Watch} {s0 a1 a2 a3 a4 a5} (h0 : Kept k s0) : Kept k (kumChange s0 a1 a2 a3 a4 a5) := by
  unfold kumChange
  repeat' first | with_reducible assumption | with_reducible apply keep_changeSlot | with_reducible apply keep_eraseBlob | with_reducible apply keep_kumCount | with_reducible apply keep_writeBlob | with_reducible apply keep_siltKey | with_reducible apply keep_kumAnswer | split

theorem keep_kumReads {k : Watch} {s0 a1} (h0 : Kept k s0) : Kept k (kumReads s0 a1) := by
  unfold kumReads
  repeat' first | with_reducible assumption | with_reducible apply keep_readSlot | split

theorem keep_kumServe {k : Watch} {s0 a1 a2 a3} (h0 : Kept k s0) (h3 : ∀ x0 x1, Kept k x0 → Kept k (a3 x0 x1)) : Kept k (kumServe s0 a1 a2 a3) := by
  unfold kumServe
  repeat' first
    | with_reducible assumption
    | with_reducible first | apply keep_mbxRespond | apply keep_kumRefused | apply h3 | apply keep_State_tick1 | apply keep_kumReads | apply keep_elim | apply keptR_next | apply keptR_refused | apply keep_ite | apply keep_ite1 | apply keep_iteR | apply keep_foldl | apply keep_foldl1
    | intro _
    | simp only [kept_mk, keptF_fold]
    | split
    | with_reducible refine kept_fst (by assumption) ?_
    | dsimp only

theorem keep_execKumInstall {k : Watch} {a0 s1} (h1 : Kept k s1) : KeptR k (execKumInstall a0 s1) := by
  unfold execKumInstall
  repeat' first | with_reducible assumption | with_reducible apply keep_kumServe | with_reducible apply keep_kumChange | with_reducible apply keptR_next | intro _

theorem keep_execKumDerive {k : Watch} {a0 s1} (h1 : Kept k s1) : KeptR k (execKumDerive a0 s1) := by
  unfold execKumDerive
  repeat' first | with_reducible assumption | with_reducible apply keep_kumServe | with_reducible apply keep_kumChange | with_reducible apply keptR_next | intro _

theorem keep_execKumInvalidate {k : Watch} {a0 s1} (h1 : Kept k s1) : KeptR k (execKumInvalidate a0 s1) := by
  unfold execKumInvalidate
  repeat' first | with_reducible assumption | with_reducible apply keep_kumServe | with_reducible apply keep_State_bump | with_reducible apply keep_kumChange | with_reducible apply keptR_next | intro _

theorem keep_execKumFirst {k : Watch} {a0 s1} (h1 : Kept k s1) : KeptR k (execKumFirst a0 s1) := by
  unfold execKumFirst
  repeat' first | with_reducible assumption | with_reducible apply keep_kumServe | with_reducible apply keep_kumChange | with_reducible apply keep_State_tick1 | with_reducible apply keptR_next | intro _

theorem keep_clearSlot {k : Watch} {s0 a1} (h0 : Kept k s0) : Kept k (clearSlot s0 a1) := by
  unfold clearSlot
  repeat' first
    | with_reducible assumption
    | with_reducible first | apply keep_State_setKeySlot | apply keep_authGenChange
    | simp only [kept_mk, keptF_fold]
    | split

theorem keep_clearSlots {k : Watch} {s0 a1} (h0 : Kept k s0) : Kept k (clearSlots s0 a1) := by
  unfold clearSlots
  repeat' first | with_reducible assumption | with_reducible apply keep_clearSlot | with_reducible apply keep_foldl | intro _

theorem keep_lcAction {k : Watch} {s0 a1} (h0 : Kept k s0) : Kept k (lcAction s0 a1) := by
  unfold lcAction
  repeat' first
    | with_reducible assumption
    | with_reducible first | apply keep_clearSlots | apply keep_State_setKeySlot
    | simp only [kept_mk, keptF_fold]
    | split

theorem keep_lcFollow {k : Watch} {s0 a1 a2 a3} (h0 : Kept k s0) : Kept k (lcFollow s0 a1 a2 a3) := by
  unfold lcFollow
  repeat' first | with_reducible assumption | with_reducible apply keep_whenever | with_reducible apply keep_checkpointNow | with_reducible apply keep_kumAnswer | with_reducible apply keep_lcAction | with_reducible apply keep_quarantine | with_reducible apply keep_State_raise | simp only [kept_mk, keptF_fold]

theorem keep_lcAdvance {k : Watch} {s0 a1 a2} (h0 : Kept k s0) : Kept k (lcAdvance s0 a1 a2) := by
  unfold lcAdvance
  repeat' first | with_reducible assumption | with_reducible apply keep_kumCount | with_reducible apply keep_otpProgram | with_reducible apply keep_siltKey | with_reducible apply keep_lcFollow | with_reducible apply keep_State_tick1 | split

theorem keep_execKumLcAdvance {k : Watch} {a0 s1} (h1 : Kept k s1) : KeptR k (execKumLcAdvance a0 s1) := by
  unfold execKumLcAdvance
  repeat' first | with_reducible assumption | with_reducible apply keep_kumServe | with_reducible apply keep_lcAdvance | with_reducible apply keptR_next | intro _

theorem keep_execLcGraceReset {k : Watch} {s0} (h0 : Kept k s0) : KeptR k (execLcGraceReset s0) := by
  unfold execLcGraceReset
  repeat' first | with_reducible assumption | with_reducible apply keep_whenever | with_reducible apply keep_start | with_reducible apply keptR_next | split

/-! ### PowerEvents -/

theorem keep_hostLinkGone {k : Watch} {s0 a1} (h0 : Kept k s0) : Kept k (hostLinkGone s0 a1) := by
  unfold hostLinkGone
  repeat' first | with_reducible assumption | with_reducible apply keep_releaseOwned | with_reducible apply keep_updOwnerGone | with_reducible apply keep_hostRingsStop | with_reducible apply keep_State_setReg

theorem keep_execHostLinkDown {k : Watch} {a0 s1} (h1 : Kept k s1) : KeptR k (execHostLinkDown a0 s1) := by
  unfold execHostLinkDown
  repeat' first | with_reducible assumption | with_reducible apply keep_whenever | with_reducible apply keep_hostLinkGone | with_reducible apply keptR_next

theorem keep_setStage {k : Watch} {s0 a1 a2} (h0 : Kept k s0) : Kept k (setStage s0 a1 a2) := by
  unfold setStage
  repeat' first
    | with_reducible assumption
    | simp only [kept_mk, keptF_fold]

theorem keep_entryStops {k : Watch} {s0 a1} (h0 : Kept k s0) : Kept k (entryStops s0 a1) := by
  unfold entryStops
  repeat' first
    | with_reducible assumption
    | with_reducible first | apply keep_setStage | apply keep_canSleepEntry | apply keep_tc10Negotiate | apply keep_foldl
    | simp only [kept_mk, keptF_fold]
    | split

theorem keep_execSleepEntryStop {k : Watch} {s0} (h0 : Kept k s0) : KeptR k (execSleepEntryStop s0) := by
  unfold execSleepEntryStop
  repeat' first | with_reducible assumption | with_reducible apply keep_whenever | with_reducible apply keep_entryStops | with_reducible apply keptR_next | split

theorem keep_entryDrainsPort {k : Watch} {s0 a1} (h0 : Kept k s0) : Kept k (entryDrainsPort s0 a1) := by
  unfold entryDrainsPort
  repeat' first | with_reducible assumption | with_reducible apply keep_leaveUp | with_reducible apply keep_startFlush | split

theorem keep_execSleepDrainEnd {k : Watch} {s0} (h0 : Kept k s0) : KeptR k (execSleepDrainEnd s0) := by
  unfold execSleepDrainEnd
  repeat' first | with_reducible assumption | with_reducible apply keep_whenever | with_reducible apply keep_entryDrainsPort | with_reducible apply keep_setStage | with_reducible apply keptR_next | with_reducible apply keep_foldl | split

theorem keep_entrySleeps {k : Watch} {s0 a1} (h0 : Kept k s0) : Kept k (entrySleeps s0 a1) := by
  unfold entrySleeps
  repeat' first | with_reducible assumption | with_reducible apply keep_whenever | with_reducible apply keep_checkpointNow | with_reducible apply keep_swapAnswer | with_reducible apply keep_aliveFall | with_reducible apply keep_hostLinkGone | with_reducible apply keep_discardCommits | with_reducible apply keep_setStage | with_reducible apply keep_State_raise | with_reducible apply keep_State_bump | simp only [kept_mk, keptF_fold]

theorem keep_execSleepCheckpointDone {k : Watch} {s0} (h0 : Kept k s0) : KeptR k (execSleepCheckpointDone s0) := by
  unfold execSleepCheckpointDone
  repeat' first | with_reducible assumption | with_reducible apply keep_whenever | with_reducible apply keep_entrySleeps | with_reducible apply keptR_next | split

theorem keep_deepLoss {k : Watch} {s0} (h0 : Kept k s0) : Kept k (deepLoss s0) :=
  ⟨h0.1, h0.2.1, wf_filter h0.2.2.1, rfl⟩

theorem keep_canCut {k : Watch} {s0 a1} (h0 : Kept k s0) : Kept k (canCut s0 a1) := by
  unfold canCut
  repeat' first
    | with_reducible assumption
    | with_reducible first | apply keep_State_setCan
    | simp only [kept_mk, keptF_fold]
    | split

theorem keep_retainLoss {k : Watch} {s0} (h0 : Kept k s0) : Kept k (retainLoss s0) := by
  unfold retainLoss
  repeat' first
    | with_reducible assumption
    | with_reducible first | apply keep_canCut | apply keep_slLeavesUp | apply keep_foldl
    | simp only [kept_mk, keptF_fold]
    | split

theorem keep_suppliesGo {k : Watch} {s0 a1} (h0 : Kept k s0) : Kept k (suppliesGo s0 a1) := by
  unfold suppliesGo
  repeat' first
    | with_reducible assumption
    | with_reducible first | apply keep_deepLoss | apply keep_retainLoss
    | simp only [kept_mk, keptF_fold]
    | split

theorem keep_domWakes {k : Watch} {a0 s1 a2} (h1 : Kept k s1) : Kept k (domWakes a0 s1 a2) := by
  unfold domWakes
  repeat' first
    | with_reducible assumption
    | with_reducible first | apply keep_domHoldover | apply keep_State_setDom | apply keep_domEnter
    | simp only [kept_mk, keptF_fold]
    | split

theorem keep_pbWakes {k : Watch} {s0} (h0 : Kept k s0) : Kept k (pbWakes s0) := by
  unfold pbWakes
  repeat' first | with_reducible assumption | with_reducible apply keep_enterStill | with_reducible apply keep_pbLoss | split

theorem keep_ppoSkips {k : Watch} {s0 s1 a2} (h0 : Kept k s0) (h1 : Kept k s1) : Kept k (ppoSkips s0 s1 a2) := by
  unfold ppoSkips
  repeat' first
    | with_reducible assumption
    | with_reducible first | apply keep_State_setPpo
    | simp only [kept_mk, keptF_fold]
    | split

theorem keep_gatesWake {k : Watch} {s0 s1 a2} (h0 : Kept k s0) (h1 : Kept k s1) : Kept k (gatesWake s0 s1 a2) := by
  unfold gatesWake
  repeat' first
    | with_reducible assumption
    | with_reducible first | apply keep_placeList | apply keep_State_setEgs
    | simp only [kept_mk, keptF_fold]
    | split

theorem keep_cycleWakes {k : Watch} {s0 s1} (h0 : Kept k s0) (h1 : Kept k s1) : Kept k (cycleWakes s0 s1) := by
  unfold cycleWakes
  repeat' first
    | with_reducible assumption
    | with_reducible first | apply keep_canCycle | apply keep_foldl
    | simp only [kept_mk, keptF_fold]
    | split

theorem keep_schedulesWake {k : Watch} {s0 s1} (h0 : Kept k s0) (h1 : Kept k s1) : Kept k (schedulesWake s0 s1) := by
  unfold schedulesWake
  repeat' first | with_reducible assumption | with_reducible apply keep_gatesWake | with_reducible apply keep_cycleWakes | with_reducible apply keep_foldl | intro _

theorem keep_wakeAdvance {k : Watch} {s0 a1} (h0 : Kept k s0) : Kept k (wakeAdvance s0 a1) := by
  unfold wakeAdvance
  repeat' first
    | with_reducible assumption
    | with_reducible first | apply keep_schedulesWake | apply keep_ppoSkips | apply keep_pbWakes | apply keep_domWakes | apply keep_foldl
    | intro _
    | simp only [kept_mk, keptF_fold]

theorem keep_wakeSendsWup {k : Watch} {s0 a1} (h0 : Kept k s0) : Kept k (wakeSendsWup s0 a1) := by
  unfold wakeSendsWup
  repeat' first | with_reducible assumption | with_reducible apply keep_tc10Wake | with_reducible apply keep_State_emit | split

theorem keep_wakeTrains {k : Watch} {s0 a1} (h0 : Kept k s0) : Kept k (wakeTrains s0 a1) := by
  unfold wakeTrains
  repeat' first | with_reducible assumption | with_reducible apply keep_linkTrainStart | split

theorem keep_linRestarts {k : Watch} {s0 a1} (h0 : Kept k s0) : Kept k (linRestarts s0 a1) := by
  unfold linRestarts
  repeat' first | with_reducible assumption | with_reducible apply keep_linResume | with_reducible apply keep_linAwakes | split

theorem keep_roleRestore {k : Watch} {s0} (h0 : Kept k s0) : Kept k (roleRestore s0) := by
  unfold roleRestore
  repeat' first
    | with_reducible assumption
    | with_reducible first | apply keep_takeActive | apply keep_raiseTerm | apply keep_roleEntered | apply keep_State_tick1 | apply keep_setMode | apply keep_takeStandby
    | simp only [kept_mk, keptF_fold]
    | split

theorem keep_wakeReady {k : Watch} {s0} (h0 : Kept k s0) : Kept k (wakeReady s0) := by
  unfold wakeReady
  extract_lets role
  have h := keep_State_setReg (a1 := aPwr 0x050) (a2 := if role then 780 else 0) h0
  exact (show KeptF k _ _ _ _ from ⟨h.1, h.2.1, h.2.2.1, h.2.2.2⟩)

theorem keep_wakeRowActs {k : Watch} {s0 a1} (h0 : Kept k s0) : Kept k (wakeRowActs s0 a1) := by
  unfold wakeRowActs
  repeat' first
    | with_reducible assumption
    | with_reducible first | apply keep_State_raise | apply keep_roleRestore | apply keep_wakeReady | apply keep_canWake | apply keep_linRestarts | apply keep_lanesTrain | apply keep_wakeTrains | apply keep_wakeSendsWup | apply keep_foldl
    | simp only [kept_mk, keptF_fold]
    | split

theorem keep_wakeDue {k : Watch} {s0} (h0 : Kept k s0) : Kept k (wakeDue s0) := by
  unfold wakeDue
  repeat' first
    | with_reducible assumption
    | with_reducible first | apply keep_wakeRowActs
    | simp only [kept_mk, keptF_fold]
    | split

theorem keep_retainWake {k : Watch} {s0} (h0 : Kept k s0) : Kept k (retainWake s0) := by
  unfold retainWake
  repeat' first | with_reducible assumption | with_reducible apply keep_wakeAdvance | with_reducible apply keep_State_tick1 | simp only [kept_mk, keptF_fold]

theorem keep_wakeCounted {k : Watch} {s0} (h0 : Kept k s0) : Kept k (wakeCounted s0) := by
  unfold wakeCounted
  repeat' first | with_reducible assumption | with_reducible apply keep_State_bump | with_reducible apply keep_State_setReg

theorem keep_wakes {k : Watch} {s0} (h0 : Kept k s0) : Kept k (wakes s0) := by
  unfold wakes
  repeat' first | with_reducible assumption | with_reducible apply keep_wakeCounted | with_reducible apply keep_start | with_reducible apply keep_retainWake | split

theorem keep_wakeSource {k : Watch} {s0 a1 a2 a3} (h0 : Kept k s0) : Kept k (wakeSource s0 a1 a2 a3) := by
  unfold wakeSource
  repeat' first | with_reducible assumption | with_reducible apply keep_State_setBitAt | with_reducible apply keep_State_setReg | split

theorem keep_wakeEvent {k : Watch} {s0 a1 a2 a3} (h0 : Kept k s0) : Kept k (wakeEvent s0 a1 a2 a3) := by
  unfold wakeEvent
  repeat' first
    | with_reducible assumption
    | with_reducible first | apply keep_wakeSource | apply keep_State_bump | apply keep_State_setBitAt | apply keep_wakes
    | simp only [kept_mk, keptF_fold]
    | split

theorem keep_execSuppliesOff {k : Watch} {s0} (h0 : Kept k s0) : KeptR k (execSuppliesOff s0) := by
  unfold execSuppliesOff
  repeat' first | with_reducible assumption | with_reducible apply keep_whenever | with_reducible apply keep_suppliesGo | with_reducible apply keep_wakes | with_reducible apply keptR_next | split

theorem keep_execWakePinAssert {k : Watch} {a0 s1} (h1 : Kept k s1) : KeptR k (execWakePinAssert a0 s1) := by
  unfold execWakePinAssert
  repeat' first | with_reducible assumption | with_reducible apply keep_ifWf | with_reducible apply keep_whenever | with_reducible apply keep_wakeEvent

theorem keep_execWakeTimerExpire {k : Watch} {s0} (h0 : Kept k s0) : KeptR k (execWakeTimerExpire s0) := by
  unfold execWakeTimerExpire
  repeat' first | with_reducible assumption | with_reducible apply keep_whenever | with_reducible apply keep_wakeEvent | with_reducible apply keptR_next

theorem keep_wupSeen {k : Watch} {s0 a1} (h0 : Kept k s0) : Kept k (wupSeen s0 a1) := by
  unfold wupSeen
  repeat' first | with_reducible assumption | with_reducible apply keep_State_bump | with_reducible apply keep_State_raise | with_reducible apply keep_setTc10 | with_reducible apply keep_wakeEvent | split

theorem keep_execTc10Wup {k : Watch} {a0 s1} (h1 : Kept k s1) : KeptR k (execTc10Wup a0 s1) := by
  unfold execTc10Wup
  repeat' first | with_reducible assumption | with_reducible apply keep_ifWf | with_reducible apply keep_wupSeen

theorem keep_execTc10Wur {k : Watch} {a0 s1} (h1 : Kept k s1) : KeptR k (execTc10Wur a0 s1) := by
  unfold execTc10Wur
  repeat' first
    | with_reducible assumption
    | with_reducible first | apply keep_ifWf | apply keep_whenever | apply keep_State_bump | apply keep_State_raise | apply keep_wakeEvent
    | simp only [kept_mk, keptF_fold]
    | split

theorem keep_linWakes {k : Watch} {s0 a1} (h0 : Kept k s0) : Kept k (linWakes s0 a1) := by
  unfold linWakes
  repeat' first | with_reducible assumption | with_reducible apply keep_linAwakes | with_reducible apply keep_wakeEvent | split

theorem keep_execLinWakeDetect {k : Watch} {a0 s1} (h1 : Kept k s1) : KeptR k (execLinWakeDetect a0 s1) := by
  unfold execLinWakeDetect
  repeat' first | with_reducible assumption | with_reducible apply keep_ifWf | with_reducible apply keep_whenever | with_reducible apply keep_linWakes

theorem keep_execPowerOn {k : Watch} {s0} (h0 : Kept k s0) : KeptR k (execPowerOn s0) := by
  unfold execPowerOn
  repeat' first | with_reducible assumption | with_reducible apply keep_start | with_reducible apply keptR_next

theorem keep_execResetPin {k : Watch} {s0} (h0 : Kept k s0) : KeptR k (execResetPin s0) := by
  unfold execResetPin
  repeat' first | with_reducible assumption | with_reducible apply keep_start | with_reducible apply keptR_next

theorem keep_retry {k : Watch} {s0} (h0 : Kept k s0) : Kept k (retry s0) := by
  unfold retry
  repeat' first
    | with_reducible assumption
    | with_reducible first | apply keep_start
    | simp only [kept_mk, keptF_fold]
    | split

theorem keep_execSupplyRetry {k : Watch} {s0} (h0 : Kept k s0) : KeptR k (execSupplyRetry s0) := by
  unfold execSupplyRetry
  repeat' first | with_reducible assumption | with_reducible apply keep_whenever | with_reducible apply keep_retry | with_reducible apply keptR_next

theorem keep_huskKeys {k : Watch} {s0 a1} (h0 : Kept k s0) : Kept k (huskKeys s0 a1) := by
  unfold huskKeys
  repeat' first
    | with_reducible assumption
    | simp only [kept_mk, keptF_fold]

theorem keep_siltHusk {k : Watch} {s0 a1} (h0 : Kept k s0) : Kept k (siltHusk s0 a1) := by
  unfold siltHusk
  repeat' first | with_reducible assumption | with_reducible apply keep_siltKey | with_reducible apply keep_State_tick1

theorem keep_huskPower {k : Watch} {s0} (h0 : Kept k s0) : Kept k (huskPower s0) := by
  unfold huskPower
  repeat' first
    | with_reducible assumption
    | simp only [kept_mk, keptF_fold]

theorem keep_abortMacs {k : Watch} {s0} (h0 : Kept k s0) : Kept k (abortMacs s0) := by
  unfold abortMacs
  repeat' first
    | with_reducible assumption
    | simp only [kept_mk, keptF_fold]

theorem keep_husk {k : Watch} {s0 a1} (h0 : Kept k s0) : Kept k (husk s0 a1) := by
  unfold husk
  repeat' first | with_reducible assumption | with_reducible apply keep_clearSlots | with_reducible apply keep_abortMacs | with_reducible apply keep_laAbort | with_reducible apply keep_wakeSource | with_reducible apply keep_quarantine | with_reducible apply keep_huskPower | with_reducible apply keep_State_setReg | with_reducible apply keep_siltHusk | with_reducible apply keep_huskKeys | split

theorem keep_execTamperAssert {k : Watch} {s0} (h0 : Kept k s0) : KeptR k (execTamperAssert s0) := by
  unfold execTamperAssert
  repeat' first | with_reducible assumption | with_reducible apply keep_husk | with_reducible apply keptR_next

theorem keep_execGlitchDetect {k : Watch} {a0 s1} (h1 : Kept k s1) : KeptR k (execGlitchDetect a0 s1) := by
  unfold execGlitchDetect
  repeat' first | with_reducible assumption | with_reducible apply keep_husk | with_reducible apply keep_whenever | with_reducible apply keptR_next | split

theorem keep_execTemperatureLimit {k : Watch} {s0} (h0 : Kept k s0) : KeptR k (execTemperatureLimit s0) := by
  unfold execTemperatureLimit
  repeat' first | with_reducible assumption | with_reducible apply keep_husk | with_reducible apply keptR_next

end Sys2Proof.Laws
end

