-- ==== Sys2Proof/Laws/Keep9.lean ====
section
/-!
SUPPORT. `Kept` for the functions of Machine/: TwinPair, TwinLink, View, Tick.
-/
set_option linter.unusedSimpArgs false
namespace Sys2Proof.Laws
set_option Elab.async false
open Sys2Proof Sys2Proof.Machine

/-! ### TwinPair -/

theorem keep_execTwnKick {k : Watch} {a0 s1} (h1 : Kept k s1) : KeptR k (execTwnKick a0 s1) := by
  unfold execTwnKick
  repeat' first | with_reducible assumption | with_reducible apply keep_State_write | with_reducible apply keep_kicked | with_reducible apply keptR_next

theorem keep_kickMissed {k : Watch} {s0} (h0 : Kept k s0) : Kept k (kickMissed s0) := by
  unfold kickMissed
  repeat' first | with_reducible assumption | with_reducible apply keep_quarantine | with_reducible apply keep_State_tick1 | with_reducible apply keep_aliveFall

theorem keep_execKickTimeout {k : Watch} {s0} (h0 : Kept k s0) : KeptR k (execKickTimeout s0) := by
  unfold execKickTimeout
  repeat' first | with_reducible assumption | with_reducible apply keep_whenever | with_reducible apply keep_kickMissed | with_reducible apply keptR_next | split

theorem keep_hbOn {k : Watch} {s0 a1} (h0 : Kept k s0) : Kept k (hbOn s0 a1) := by
  unfold hbOn
  repeat' first | with_reducible assumption | with_reducible apply keep_slEmitOn | split

theorem keep_heartbeat {k : Watch} {s0} (h0 : Kept k s0) : Kept k (heartbeat s0) := by
  unfold heartbeat
  repeat' first | with_reducible assumption | with_reducible apply keep_State_emit | with_reducible apply keep_hbOn | simp only [kept_mk, keptF_fold]

theorem keep_execHeartbeatTx {k : Watch} {s0} (h0 : Kept k s0) : KeptR k (execHeartbeatTx s0) := by
  unfold execHeartbeatTx
  repeat' first | with_reducible assumption | with_reducible apply keep_whenever | with_reducible apply keep_heartbeat | with_reducible apply keptR_next

theorem keep_hearPeer {k : Watch} {s0 a1} (h0 : Kept k s0) : Kept k (hearPeer s0 a1) := by
  unfold hearPeer
  repeat' first
    | with_reducible assumption
    | with_reducible first | apply keep_State_raise
    | simp only [kept_mk, keptF_fold]
    | split

theorem keep_strapDue {k : Watch} {s0} (h0 : Kept k s0) : Kept k (strapDue s0) := by
  unfold strapDue
  repeat' first | with_reducible assumption | with_reducible apply keep_hearPeer | split

theorem keep_heardAgain {k : Watch} {s0} (h0 : Kept k s0) : Kept k (heardAgain s0) := by
  unfold heardAgain
  repeat' first
    | with_reducible assumption
    | with_reducible first | apply keep_rejoin
    | simp only [kept_mk, keptF_fold]
    | split

theorem keep_heartbeatHeard {k : Watch} {s0 a1 a2} (h0 : Kept k s0) : Kept k (heartbeatHeard s0 a1 a2) := by
  unfold heartbeatHeard
  repeat' first
    | with_reducible assumption
    | with_reducible first | apply keep_heardAgain | apply keep_hearPeer
    | simp only [kept_mk, keptF_fold]
    | split

theorem keep_execHeartbeatRx {k : Watch} {a0 a1 s2} (h2 : Kept k s2) : KeptR k (execHeartbeatRx a0 a1 s2) := by
  unfold execHeartbeatRx
  repeat' first | with_reducible assumption | with_reducible apply keep_whenever | with_reducible apply keep_heartbeatHeard | with_reducible apply keptR_next

theorem keep_setSilent {k : Watch} {s0 a1} (h0 : Kept k s0) : Kept k (setSilent s0 a1) := by
  unfold setSilent
  repeat' first
    | with_reducible assumption
    | simp only [kept_mk, keptF_fold]
    | split

theorem keep_takeoverCheck {k : Watch} {s0} (h0 : Kept k s0) : Kept k (takeoverCheck s0) := by
  unfold takeoverCheck
  repeat' first
    | with_reducible assumption
    | with_reducible first | apply keep_takeover
    | simp only [kept_mk, keptF_fold]
    | split

theorem keep_silence {k : Watch} {s0 a1} (h0 : Kept k s0) : Kept k (silence s0 a1) := by
  unfold silence
  repeat' first
    | with_reducible assumption
    | with_reducible first | apply keep_setSilent | apply keep_takeoverCheck | apply keep_State_raise | apply keep_State_bump | apply keep_State_report
    | simp only [kept_mk, keptF_fold]
    | split

theorem keep_execHeartbeatSilent {k : Watch} {a0 s1} (h1 : Kept k s1) : KeptR k (execHeartbeatSilent a0 s1) := by
  unfold execHeartbeatSilent
  repeat' first | with_reducible assumption | with_reducible apply keep_whenever | with_reducible apply keep_silence | with_reducible apply keptR_next

theorem keep_takeoverRest {k : Watch} {s0} (h0 : Kept k s0) : Kept k (takeoverRest s0) := by
  unfold takeoverRest
  repeat' first
    | with_reducible assumption
    | with_reducible first | apply keep_roleFixups | apply keep_readyTime | apply keep_reexamine | apply keep_State_report | apply keep_siltRole | apply keep_foldl
    | simp only [kept_mk, keptF_fold]
    | split

theorem keep_execTakeoverTask {k : Watch} {s0} (h0 : Kept k s0) : KeptR k (execTakeoverTask s0) := by
  unfold execTakeoverTask
  repeat' first | with_reducible assumption | with_reducible apply keep_whenever | with_reducible apply keep_takeoverRest | with_reducible apply keptR_next | split

theorem keep_yields {k : Watch} {s0} (h0 : Kept k s0) : Kept k (yields s0) := by
  unfold yields
  repeat' first | with_reducible assumption | with_reducible apply keep_swapAnswer | with_reducible apply keep_discardCommits | with_reducible apply keep_takeStandby | with_reducible apply keep_siltRole | with_reducible apply keep_roleMode | with_reducible apply keep_sendJoin | with_reducible apply keep_roleEntered | with_reducible apply keep_State_bump | simp only [kept_mk, keptF_fold]

theorem keep_foreignClaim {k : Watch} {s0} (h0 : Kept k s0) : Kept k (foreignClaim s0) := by
  unfold foreignClaim
  repeat' first
    | with_reducible assumption
    | with_reducible first | apply keep_State_raise | apply keep_State_bump | apply keep_yields
    | simp only [kept_mk, keptF_fold]
    | split

theorem keep_isolates {k : Watch} {s0} (h0 : Kept k s0) : Kept k (isolates s0) := by
  unfold isolates
  repeat' first | with_reducible assumption | with_reducible apply keep_siltRole | with_reducible apply keep_State_report | with_reducible apply keep_State_raise | simp only [kept_mk, keptF_fold]

theorem keep_claimSampled {k : Watch} {s0 a1 a2} (h0 : Kept k s0) : Kept k (claimSampled s0 a1 a2) := by
  unfold claimSampled
  repeat' first
    | with_reducible assumption
    | with_reducible first | apply keep_foreignClaim | apply keep_takeover | apply keep_isolates
    | simp only [kept_mk, keptF_fold]
    | split

theorem keep_execClaimWindow {k : Watch} {a0 s1} (h1 : Kept k s1) : KeptR k (execClaimWindow a0 s1) := by
  unfold execClaimWindow
  repeat' first | with_reducible assumption | with_reducible apply keep_claimSampled | with_reducible apply keptR_next | split

theorem keep_arbStandby {k : Watch} {s0} (h0 : Kept k s0) : Kept k (arbStandby s0) := by
  unfold arbStandby
  repeat' first | with_reducible assumption | with_reducible apply keep_roleMode | with_reducible apply keep_takeStandby | with_reducible apply keep_sendJoin | with_reducible apply keep_roleEntered | with_reducible apply keep_siltRole

theorem keep_arbActive {k : Watch} {s0} (h0 : Kept k s0) : Kept k (arbActive s0) := by
  unfold arbActive
  repeat' first | with_reducible assumption | with_reducible apply keep_takeActive | with_reducible apply keep_raiseTerm | with_reducible apply keep_roleMode | with_reducible apply keep_roleEntered | with_reducible apply keep_siltRole | simp only [kept_mk, keptF_fold]

theorem keep_execArbitrationStart {k : Watch} {s0} (h0 : Kept k s0) : KeptR k (execArbitrationStart s0) := by
  unfold execArbitrationStart
  repeat' first
    | with_reducible assumption
    | with_reducible first | apply keep_whenever | apply keep_arbStandby | apply keptR_next
    | simp only [kept_mk, keptF_fold]
    | split

theorem keep_execObserveEnd {k : Watch} {s0} (h0 : Kept k s0) : KeptR k (execObserveEnd s0) := by
  unfold execObserveEnd
  repeat' first | with_reducible assumption | with_reducible apply keep_whenever | with_reducible apply keep_arbActive | with_reducible apply keptR_next

theorem keep_execGraceEnd {k : Watch} {s0} (h0 : Kept k s0) : KeptR k (execGraceEnd s0) := by
  unfold execGraceEnd
  repeat' first | with_reducible assumption | with_reducible apply keep_whenever | with_reducible apply keep_arbActive | with_reducible apply keptR_next

theorem keep_execClaimLowRead {k : Watch} {s0} (h0 : Kept k s0) : KeptR k (execClaimLowRead s0) := by
  unfold execClaimLowRead
  repeat' first
    | with_reducible assumption
    | with_reducible first | apply keep_arbStandby | apply keep_takeoverCheck | apply keptR_next
    | simp only [kept_mk, keptF_fold]
    | split

theorem keep_execClaimHighRead {k : Watch} {s0} (h0 : Kept k s0) : KeptR k (execClaimHighRead s0) := by
  unfold execClaimHighRead
  repeat' first | with_reducible assumption | with_reducible apply keep_takeoverCheck | with_reducible apply keptR_next | simp only [kept_mk, keptF_fold]

theorem keep_swapFlushPort {k : Watch} {s0 a1} (h0 : Kept k s0) : Kept k (swapFlushPort s0 a1) := by
  unfold swapFlushPort
  repeat' first | with_reducible assumption | with_reducible apply keep_State_bump | with_reducible apply keep_removeCopy | with_reducible apply keep_foldl | intro _

theorem keep_swapCounts {k : Watch} {s0 a1} (h0 : Kept k s0) : Kept k (swapCounts s0 a1) := by
  unfold swapCounts
  repeat' first | with_reducible assumption | with_reducible apply keep_roleEntered | with_reducible apply keep_State_raise | with_reducible apply keep_State_bump

theorem keep_swapThen {k : Watch} {a0 s1} (h1 : Kept k s1) : Kept k (swapThen a0 s1) := by
  unfold swapThen
  repeat' first | with_reducible assumption | with_reducible apply keep_enterService | with_reducible apply keep_destructiveTests | split

theorem keep_swapOut {k : Watch} {s0 a1} (h0 : Kept k s0) : Kept k (swapOut s0 a1) := by
  unfold swapOut
  repeat' first
    | with_reducible assumption
    | with_reducible first | apply keep_takeStandby | apply keep_swapFlushPort | apply keep_swapCounts | apply keep_siltRole | apply keep_roleMode | apply keep_mbxRespond | apply keep_swapThen | apply keep_rejoin | apply keep_foldl
    | simp only [kept_mk, keptF_fold]
    | split

theorem keep_swapSa {k : Watch} {s0 a1} (h0 : Kept k s0) : Kept k (swapSa s0 a1) := by
  unfold swapSa
  repeat' first | with_reducible assumption | with_reducible apply keep_State_setPair

theorem keep_swapIn {k : Watch} {s0} (h0 : Kept k s0) : Kept k (swapIn s0) := by
  unfold swapIn
  repeat' first | with_reducible assumption | with_reducible apply keep_takeActive | with_reducible apply keep_raiseTerm | with_reducible apply keep_swapSa | with_reducible apply keep_loadPns | with_reducible apply keep_swapCounts | with_reducible apply keep_siltRole | with_reducible apply keep_roleMode | with_reducible apply keep_foldl | simp only [kept_mk, keptF_fold]

theorem keep_execSwapPoint {k : Watch} {s0} (h0 : Kept k s0) : KeptR k (execSwapPoint s0) := by
  unfold execSwapPoint
  repeat' first | with_reducible assumption | with_reducible apply keep_swapOut | with_reducible apply keep_swapIn | with_reducible apply keptR_next | split

theorem keep_swapAborts {k : Watch} {s0} (h0 : Kept k s0) : Kept k (swapAborts s0) := by
  unfold swapAborts
  repeat' first | with_reducible assumption | with_reducible apply keep_swapAnswer | simp only [kept_mk, keptF_fold]

theorem keep_execSwapAbort {k : Watch} {s0} (h0 : Kept k s0) : KeptR k (execSwapAbort s0) := by
  unfold execSwapAbort
  repeat' first | with_reducible assumption | with_reducible apply keep_whenever | with_reducible apply keep_swapAborts | with_reducible apply keptR_next | split

theorem keep_annSend {k : Watch} {a0 s1 a2} (h1 : Kept k s1) : Kept k (annSend a0 s1 a2) := by
  unfold annSend
  repeat' first | with_reducible assumption | with_reducible apply keep_State_bump | with_reducible apply keep_gptpSend | simp only [kept_mk, keptF_fold]

theorem keep_announce {k : Watch} {s0} (h0 : Kept k s0) : Kept k (announce s0) := by
  unfold announce
  repeat' first
    | with_reducible assumption
    | with_reducible first | apply keep_State_raise | apply keep_State_bump | apply keep_annSend | apply keep_foldl
    | simp only [kept_mk, keptF_fold]
    | split

theorem keep_execRoleAnnounce {k : Watch} {s0} (h0 : Kept k s0) : KeptR k (execRoleAnnounce s0) := by
  unfold execRoleAnnounce
  repeat' first | with_reducible assumption | with_reducible apply keep_whenever | with_reducible apply keep_announce | with_reducible apply keptR_next

/-! ### TwinLink -/

theorem keep_roleRecord {k : Watch} {s0 a1 a2} (h0 : Kept k s0) : Kept k (roleRecord s0 a1 a2) := by
  unfold roleRecord
  repeat' first
    | with_reducible assumption
    | with_reducible first | apply keep_slSend | apply keep_rejoin
    | simp only [kept_mk, keptF_fold]
    | split

theorem keep_mkaRecord {k : Watch} {s0 a1 a2} (h0 : Kept k s0) : Kept k (mkaRecord s0 a1 a2) := by
  unfold mkaRecord
  repeat' first | with_reducible assumption | with_reducible apply keep_sourceFrame | with_reducible apply keep_mkaHears | split

theorem keep_sakRecord {k : Watch} {s0 a1 a2 a3 a4 a5} (h0 : Kept k s0) : Kept k (sakRecord s0 a1 a2 a3 a4 a5) := by
  unfold sakRecord
  repeat' first | with_reducible assumption | with_reducible apply keep_sakInstall | with_reducible apply keep_State_setMka | split

theorem keep_joinRecord {k : Watch} {s0 a1} (h0 : Kept k s0) : Kept k (joinRecord s0 a1) := by
  unfold joinRecord
  repeat' first
    | with_reducible assumption
    | simp only [kept_mk, keptF_fold]

theorem keep_slTakes {k : Watch} {s0 a1 a2 a3} (h0 : Kept k s0) : Kept k (slTakes s0 a1 a2 a3) := by
  unfold slTakes
  repeat' first
    | with_reducible assumption
    | with_reducible first | apply keep_joinRecord | apply keep_roleRecord | apply keep_mkaRecord | apply keep_sakRecord | apply keep_relayAnswered
    | simp only [kept_mk, keptF_fold]
    | split

theorem keep_lackTaken {k : Watch} {s0 a1} (h0 : Kept k s0) : Kept k (lackTaken s0 a1) := by
  unfold lackTaken
  repeat' first | with_reducible assumption | with_reducible apply keep_slDrain | simp only [kept_mk, keptF_fold]

theorem keep_slSequenced {k : Watch} {s0 a1} (h0 : Kept k s0) : Kept k (slSequenced s0 a1) := by
  unfold slSequenced
  repeat' first
    | with_reducible assumption
    | with_reducible first | apply keep_slTakes
    | simp only [kept_mk, keptF_fold]
    | split

theorem keep_slReceive {k : Watch} {s0 a1} (h0 : Kept k s0) : Kept k (slReceive s0 a1) := by
  unfold slReceive
  repeat' first | with_reducible assumption | with_reducible apply keep_State_bump | with_reducible apply keep_lackTaken | with_reducible apply keep_slSequenced | split

theorem keep_execSlRecordRx {k : Watch} {a0 a1 s2} (h2 : Kept k s2) : KeptR k (execSlRecordRx a0 a1 s2) := by
  unfold execSlRecordRx
  repeat' first | with_reducible assumption | with_reducible apply keep_ifWf | with_reducible apply keep_whenever | with_reducible apply keep_slReceive

theorem keep_slAcks {k : Watch} {s0} (h0 : Kept k s0) : Kept k (slAcks s0) := by
  unfold slAcks
  repeat' first | with_reducible assumption | with_reducible apply keep_slEmit | simp only [kept_mk, keptF_fold]

theorem keep_execSlLack {k : Watch} {s0} (h0 : Kept k s0) : KeptR k (execSlLack s0) := by
  unfold execSlLack
  repeat' first | with_reducible assumption | with_reducible apply keep_whenever | with_reducible apply keep_slAcks | with_reducible apply keptR_next

theorem keep_slResend {k : Watch} {s0} (h0 : Kept k s0) : Kept k (slResend s0) := by
  unfold slResend
  repeat' first
    | with_reducible assumption
    | with_reducible first | apply keep_State_bump | apply keep_slEmit | apply keep_foldl
    | intro _
    | simp only [kept_mk, keptF_fold]

theorem keep_execSlRetransmit {k : Watch} {s0} (h0 : Kept k s0) : KeptR k (execSlRetransmit s0) := by
  unfold execSlRetransmit
  repeat' first | with_reducible assumption | with_reducible apply keep_whenever | with_reducible apply keep_slResend | with_reducible apply keptR_next | split

theorem keep_execJoinReqRx {k : Watch} {s0} (h0 : Kept k s0) : KeptR k (execJoinReqRx s0) := by
  unfold execJoinReqRx
  repeat' first | with_reducible assumption | with_reducible apply keep_whenever | with_reducible apply keptR_next | simp only [kept_mk, keptF_fold]

theorem keep_ownEntries {k : Watch} {s0} (h0 : Kept k s0) : Kept k (ownEntries s0) :=
  ⟨h0.1, h0.2.1, h0.2.2.1, wf_filter h0.2.2.2⟩

theorem keep_joinEntry {k : Watch} {s0 a1} (h0 : Kept k s0) : Kept k (joinEntry s0 a1) := by
  unfold joinEntry
  repeat' first | with_reducible assumption | with_reducible apply keep_State_setEnt | split

theorem keep_joinGate {k : Watch} {s0 a1} (h0 : Kept k s0) : Kept k (joinGate s0 a1) := by
  unfold joinGate
  repeat' first
    | with_reducible assumption
    | simp only [kept_mk, keptF_fold]

theorem keep_joinOverlay {k : Watch} {s0 a1} (h0 : Kept k s0) : Kept k (joinOverlay s0 a1) := by
  unfold joinOverlay
  repeat' first | with_reducible assumption | with_reducible apply keep_State_setOvl | split

theorem keep_joinEntries {k : Watch} {s0} (h0 : Kept k s0) : Kept k (joinEntries s0) := by
  unfold joinEntries
  repeat' first
    | with_reducible assumption
    | with_reducible first | apply keep_ownEntries | apply keep_joinOverlay | apply keep_joinEntry | apply keep_joinGate | apply keep_foldl
    | simp only [kept_mk, keptF_fold]
    | split

theorem keep_joinCycle {k : Watch} {s0 a1} (h0 : Kept k s0) : Kept k (joinCycle s0 a1) := by
  unfold joinCycle
  exact kept_pb h0

theorem keep_joinMade {k : Watch} {s0 a1} (h0 : Kept k s0) : Kept k (joinMade s0 a1) := by
  unfold joinMade
  repeat' first
    | with_reducible assumption
    | simp only [kept_mk, keptF_fold]

theorem keep_joinApplies {k : Watch} {s0 a1 a2 a3 a4} (h0 : Kept k s0) : Kept k (joinApplies s0 a1 a2 a3 a4) := by
  unfold joinApplies
  repeat' first | with_reducible assumption | with_reducible apply keep_State_setReg | with_reducible apply keep_joinCycle | with_reducible apply keep_commitEffects | with_reducible apply keep_joinEntries | with_reducible apply keep_State_setFld | with_reducible apply keep_updateDigest | with_reducible apply keep_State_setPair | with_reducible apply keep_joinMade | with_reducible apply keep_foldl | intro _

theorem keep_execJoinEndRx {k : Watch} {a0 a1 a2 a3 s4} (h4 : Kept k s4) : KeptR k (execJoinEndRx a0 a1 a2 a3 s4) :=
  keep_whenever h4 (keep_joinApplies h4)

theorem keep_applyPassed {k : Watch} {a0 s1} (h1 : Kept k s1) : Kept k (applyPassed a0 s1) := by
  unfold applyPassed
  repeat' first | with_reducible assumption | with_reducible apply keep_applyCommit | with_reducible apply keep_foldl

theorem keep_adoptCore {k : Watch} {s0 a1} (h0 : Kept k s0) : Kept k (adoptCore s0 a1) := by
  unfold adoptCore
  repeat' first
    | with_reducible assumption
    | with_reducible first | apply keep_State_setReg | apply keep_applyPassed | apply keep_adoptOwners | apply keep_adoptDeltas | apply keep_adoptTraffic | apply keep_adoptTime | apply keep_updateDigest | apply keep_State_setPair | apply keep_foldl
    | intro _
    | simp only [kept_mk, keptF_fold]
    | split

theorem keep_applySync {k : Watch} {s0 a1} (h0 : Kept k s0) : Kept k (applySync s0 a1) := by
  unfold applySync
  repeat' first
    | with_reducible assumption
    | with_reducible first | apply keep_adoptCore | apply keep_State_bumpBy | apply keep_slSend | apply keep_syncGained | apply keep_digestMismatch
    | simp only [kept_mk, keptF_fold]
    | split

theorem keep_execSyncApply {k : Watch} {a0 s1} (h1 : Kept k s1) : KeptR k (execSyncApply a0 s1) := by
  unfold execSyncApply
  repeat' first | with_reducible assumption | with_reducible apply keep_whenever | with_reducible apply keep_applySync | with_reducible apply keptR_next

theorem keep_ackTaken {k : Watch} {s0 a1 a2 a3} (h0 : Kept k s0) : Kept k (ackTaken s0 a1 a2 a3) := by
  unfold ackTaken
  repeat' first
    | with_reducible assumption
    | with_reducible first | apply keep_State_setPair | apply keep_State_bump | apply keep_rsvConfirm | apply keep_State_setReg | apply keep_syncGained | apply keep_digestMismatch | apply keep_foldl
    | simp only [kept_mk, keptF_fold]
    | split

theorem keep_execSyncAckRx {k : Watch} {a0 a1 a2 s3} (h3 : Kept k s3) : KeptR k (execSyncAckRx a0 a1 a2 s3) := by
  unfold execSyncAckRx
  repeat' first | with_reducible assumption | with_reducible apply keep_whenever | with_reducible apply keep_ackTaken | with_reducible apply keptR_next

theorem keep_stageTwin {k : Watch} {s0 a1} (h0 : Kept k s0) : Kept k (stageTwin s0 a1) := by
  unfold stageTwin
  repeat' first
    | with_reducible assumption
    | with_reducible first | apply keep_stageOne | apply keep_foldl
    | simp only [kept_mk, keptF_fold]
    | split

theorem keep_logTwin {k : Watch} {s0 a1} (h0 : Kept k s0) : Kept k (logTwin s0 a1) := by
  unfold logTwin
  repeat' first | with_reducible assumption | with_reducible apply keep_logReg | with_reducible apply keep_State_silt_ | split

theorem keep_commitTaken {k : Watch} {s0 a1 a2 a3 a4 a5} (h0 : Kept k s0) : Kept k (commitTaken s0 a1 a2 a3 a4 a5) := by
  unfold commitTaken
  repeat' first | with_reducible assumption | with_reducible apply keep_logTwin | with_reducible apply keep_armRecords | with_reducible apply keep_stageTwin | with_reducible apply keep_slSend | with_reducible apply keep_foldl | simp only [kept_mk, keptF_fold]

theorem keep_execCommitRecordRx {k : Watch} {a0 a1 a2 a3 a4 s5} (h5 : Kept k s5) : KeptR k (execCommitRecordRx a0 a1 a2 a3 a4 s5) := by
  unfold execCommitRecordRx
  repeat' first | with_reducible assumption | with_reducible apply keep_whenever | with_reducible apply keep_commitTaken | with_reducible apply keptR_next

theorem keep_execCommitAckRx {k : Watch} {a0 a1 s2} (h2 : Kept k s2) : KeptR k (execCommitAckRx a0 a1 s2) := by
  unfold execCommitAckRx
  repeat' first | with_reducible assumption | with_reducible apply keep_whenever | with_reducible apply keptR_next | simp only [kept_mk, keptF_fold]

theorem keep_digestAgrees {k : Watch} {s0} (h0 : Kept k s0) : Kept k (digestAgrees s0) := by
  unfold digestAgrees
  repeat' first
    | with_reducible assumption
    | with_reducible first | apply keep_slSend | apply keep_rejoin
    | simp only [kept_mk, keptF_fold]
    | split

theorem keep_recomputed {k : Watch} {s0 a1} (h0 : Kept k s0) : Kept k (recomputed s0 a1) := by
  unfold recomputed
  repeat' first
    | with_reducible assumption
    | with_reducible first | apply keep_digestAgrees | apply keep_rejoin | apply keep_updateDigest | apply keep_swapStart
    | simp only [kept_mk, keptF_fold]
    | split

theorem keep_execDigestRecomputeDone {k : Watch} {a0 s1} (h1 : Kept k s1) : KeptR k (execDigestRecomputeDone a0 s1) := by
  unfold execDigestRecomputeDone
  repeat' first | with_reducible assumption | with_reducible apply keep_whenever | with_reducible apply keep_recomputed | with_reducible apply keptR_next

/-! ### View -/

theorem keep_timeLatch {k : Watch} {s0 a1 a2} (h0 : Kept k s0) : Kept k (timeLatch s0 a1 a2) := by
  unfold timeLatch
  repeat' first | with_reducible assumption | with_reducible apply keep_State_setLatch

theorem keep_pairLoRead {k : Watch} {s0 a1 a2} (h0 : Kept k s0) : Kept k (pairLoRead s0 a1 a2) := by
  unfold pairLoRead
  repeat' first | with_reducible assumption | with_reducible apply keep_State_emit | with_reducible apply keep_timeLatch | with_reducible apply keep_State_setLatch | split

theorem keep_execPairLoRead {k : Watch} {a0 a1 s2} (h2 : Kept k s2) : KeptR k (execPairLoRead a0 a1 s2) := by
  unfold execPairLoRead
  repeat' first | with_reducible assumption | with_reducible apply keep_ifWf | with_reducible apply keep_State_readOr | with_reducible apply keep_pairLoRead

/-! ### Tick -/

theorem keep_applyAll {k : Watch} {s0} (h0 : Kept k s0) : Kept k (applyAll s0) := by
  unfold applyAll
  repeat' first | with_reducible assumption | with_reducible apply keep_applyDue | with_reducible apply keep_foldl | intro _

theorem keep_pointsDue {k : Watch} {s0} (h0 : Kept k s0) : Kept k (pointsDue s0) := by
  unfold pointsDue
  repeat' first | with_reducible assumption | with_reducible apply keep_joinFinishes | with_reducible apply keep_applyAll | with_reducible apply keep_forcedPoint | split

theorem keep_unmarkedDue {k : Watch} {s0} (h0 : Kept k s0) : Kept k (unmarkedDue s0) := by
  unfold unmarkedDue
  repeat' first
    | with_reducible assumption
    | with_reducible first | apply keep_countSynth
    | simp only [kept_mk, keptF_fold]
    | split

theorem keep_entriesDue {k : Watch} {s0} (h0 : Kept k s0) : Kept k (entriesDue s0) := by
  unfold entriesDue
  repeat' first | with_reducible assumption | with_reducible apply keep_sourceDue | with_reducible apply keep_txDue

theorem keep_downsDue {k : Watch} {s0} (h0 : Kept k s0) : Kept k (downsDue s0) := by
  unfold downsDue
  repeat' first
    | with_reducible assumption
    | with_reducible first | apply keep_flushStep | apply keep_downStep | apply keep_offOne | apply keep_foldl
    | intro _
    | split

theorem keep_watchPort {k : Watch} {s0 a1} (h0 : Kept k s0) : Kept k (watchPort s0 a1) := by
  unfold watchPort
  repeat' first
    | with_reducible assumption
    | with_reducible first | apply keep_State_setEgs
    | simp only [kept_mk, keptF_fold]
    | split

theorem keep_watchPorts {k : Watch} {s0} (h0 : Kept k s0) : Kept k (watchPorts s0) := by
  unfold watchPorts
  repeat' first | with_reducible assumption | with_reducible apply keep_watchPort | with_reducible apply keep_foldl

theorem keep_linesDue {k : Watch} {s0} (h0 : Kept k s0) : Kept k (linesDue s0) := by
  unfold linesDue
  repeat' first | with_reducible assumption | with_reducible apply keep_startSel | with_reducible apply keep_canCycleDue | with_reducible apply keep_linSettle | with_reducible apply keep_tc10Train | with_reducible apply keep_foldl

theorem keep_conditions {k : Watch} {s0} (h0 : Kept k s0) : Kept k (conditions s0) := by
  unfold conditions
  repeat' first
    | with_reducible assumption
    | with_reducible first | apply keep_checkOvl | apply keep_checkFlows | apply keep_checkPool | apply keep_State_raise
    | simp only [kept_mk, keptF_fold]
    | split

theorem keep_linkDue {k : Watch} {s0} (h0 : Kept k s0) : Kept k (linkDue s0) := by
  unfold linkDue
  repeat' first
    | with_reducible assumption
    | with_reducible first | apply keep_sendJoin | apply keep_updLinkGone
    | simp only [kept_mk, keptF_fold]
    | split

theorem keep_unknownReq {k : Watch} {s0 a1} (h0 : Kept k s0) : Kept k (unknownReq s0 a1) := by
  unfold unknownReq
  repeat' first
    | with_reducible assumption
    | with_reducible first | apply keep_mbxRespond | apply keep_State_tick1
    | simp only [kept_mk, keptF_fold]
    | split

theorem keep_mkaDue {k : Watch} {s0} (h0 : Kept k s0) : Kept k (mkaDue s0) := by
  unfold mkaDue
  repeat' first
    | with_reducible assumption
    | with_reducible first | apply keep_sakMake | apply keep_mkaWants | apply keep_foldl
    | intro _
    | split

theorem keep_taskDue {k : Watch} {a0 s1} (h1 : Kept k s1) : Kept k (taskDue a0 s1) := by
  unfold taskDue
  repeat' first | with_reducible assumption | with_reducible apply keep_taskOver | split

theorem keep_managersDue {k : Watch} {s0} (h0 : Kept k s0) : Kept k (managersDue s0) := by
  unfold managersDue
  repeat' first | with_reducible assumption | with_reducible apply keep_taskDue | with_reducible apply keep_mkaDue | with_reducible apply keep_healthStep | with_reducible apply keep_takeoverStep | with_reducible apply keep_takeoverCheck | with_reducible apply keep_strapDue | with_reducible apply keep_unknownReq | with_reducible apply keep_linkDue

theorem keep_completeCycle {k : Watch} {s0} (h0 : Kept k s0) : Kept k (completeCycle s0) := by
  unfold completeCycle
  repeat' first | with_reducible assumption | with_reducible apply keep_wakeDue | with_reducible apply keep_conditions | with_reducible apply keep_managersDue | with_reducible apply keep_entriesDue | with_reducible apply keep_watchPorts | with_reducible apply keep_linesDue | with_reducible apply keep_gweCycle | with_reducible apply keep_downsDue | with_reducible apply keep_releasesDue | with_reducible apply keep_unmarkedDue | with_reducible apply keep_pointsDue | split

theorem keep_advance {k : Watch} {s0} (h0 : Kept k s0) : Kept k (advance s0) := by
  unfold advance
  repeat' first
    | with_reducible assumption
    | simp only [kept_mk, keptF_fold]

theorem keep_markBounds {k : Watch} {s0 s1} (h0 : Kept k s0) (h1 : Kept k s1) : Kept k (markBounds s0 s1) := by
  unfold markBounds
  refine keep_ite (fun _ => h1) (fun _ => ?_)
  extract_lets l
  clear_value l
  exact ⟨h1.1, h1.2.1, h1.2.2.1, h1.2.2.2⟩

theorem keep_nextCycle {k : Watch} {s0} (h0 : Kept k s0) : Kept k (nextCycle s0) := by
  unfold nextCycle
  repeat' first | with_reducible assumption | with_reducible apply keep_markBounds | with_reducible apply keep_advance | with_reducible apply keep_crossed | split

theorem keep_sleepTick {k : Watch} {s0} (h0 : Kept k s0) : Kept k (sleepTick s0) := by
  unfold sleepTick
  repeat' first
    | with_reducible assumption
    | simp only [kept_mk, keptF_fold]

theorem keep_cclkTick {k : Watch} {s0} (h0 : Kept k s0) : Kept k (cclkTick s0) := by
  unfold cclkTick
  repeat' first | with_reducible assumption | with_reducible apply keep_sleepTick | with_reducible apply keep_nextCycle | with_reducible apply keep_completeCycle | split

theorem keep_execCycleBoundary {k : Watch} {s0} (h0 : Kept k s0) : KeptR k (execCycleBoundary s0) :=
  keptR_next (keep_whenever h0 (keep_cclkTick h0))

end Sys2Proof.Laws
end

