-- ==== Sys2Proof/Laws/Frame.lean ====
section
/-!
SUPPORT. Which parts of the state a function leaves alone (`Frm`), with one lemma for every set of fields that the model
updates at once. The files Frame0 to Frame9 hold one lemma `fr_f` for every function `f` of the model that answers a
state: its first hypothesis holds the set of the fields that `f` may change.
-/
namespace Sys2Proof.Laws
set_option Elab.async false
open Sys2Proof Sys2Proof.Machine

/-- The state `s` has every field of `b` but those whose bit is set in `F` (bit 0 is the first field of State). -/
structure Frm (F : Nat) (b s : State) : Prop where
  pending : F.testBit 0 = true ∨ s.pending = b.pending
  cclk : F.testBit 1 = true ∨ s.cclk = b.cclk
  mode : F.testBit 2 = true ∨ s.mode = b.mode
  regs : F.testBit 3 = true ∨ s.regs = b.regs
  latched : F.testBit 4 = true ∨ s.latched = b.latched
  held : F.testBit 5 = true ∨ s.held = b.held
  ctrlLockA : F.testBit 6 = true ∨ s.ctrlLockA = b.ctrlLockA
  ctrlLockB : F.testBit 7 = true ∨ s.ctrlLockB = b.ctrlLockB
  shadows : F.testBit 8 = true ∨ s.shadows = b.shadows
  commits : F.testBit 9 = true ∨ s.commits = b.commits
  partNo : F.testBit 10 = true ∨ s.partNo = b.partNo
  hist : F.testBit 11 = true ∨ s.hist = b.hist
  rings : F.testBit 12 = true ∨ s.rings = b.rings
  msixA : F.testBit 13 = true ∨ s.msixA = b.msixA
  msixB : F.testBit 14 = true ∨ s.msixB = b.msixB
  mbx : F.testBit 15 = true ∨ s.mbx = b.mbx
  silt : F.testBit 16 = true ∨ s.silt = b.silt
  msgPages : F.testBit 17 = true ∨ s.msgPages = b.msgPages
  pb : F.testBit 18 = true ∨ s.pb = b.pb
  gpio : F.testBit 19 = true ∨ s.gpio = b.gpio
  ports : F.testBit 20 = true ∨ s.ports = b.ports
  ptp : F.testBit 21 = true ∨ s.ptp = b.ptp
  power : F.testBit 22 = true ∨ s.power = b.power
  prs : F.testBit 23 = true ∨ s.prs = b.prs
  tables : F.testBit 24 = true ∨ s.tables = b.tables
  policing : F.testBit 25 = true ∨ s.policing = b.policing
  frames : F.testBit 26 = true ∨ s.frames = b.frames
  nextFrame : F.testBit 27 = true ∨ s.nextFrame = b.nextFrame
  fab : F.testBit 28 = true ∨ s.fab = b.fab
  egress : F.testBit 29 = true ∨ s.egress = b.egress
  buses : F.testBit 30 = true ∨ s.buses = b.buses
  gwe : F.testBit 31 = true ∨ s.gwe = b.gwe
  cipher : F.testBit 32 = true ∨ s.cipher = b.cipher
  keys : F.testBit 33 = true ∨ s.keys = b.keys
  twin : F.testBit 34 = true ∨ s.twin = b.twin
  sl : F.testBit 35 = true ∨ s.sl = b.sl
  faults : F.testBit 36 = true ∨ s.faults = b.faults
  upd : F.testBit 37 = true ∨ s.upd = b.upd
  nvm : F.testBit 38 = true ∨ s.nvm = b.nvm
  out : F.testBit 39 = true ∨ s.out = b.out
  free : F.testBit 40 = true ∨ s.free = b.free

/-- `Frm` in terms of the fields. -/
def FrmF (F : Nat) (b : State) (v_pending : List Sys2Proof.Instr) (v_cclk : Nat) (v_mode : Sys2Proof.Mode) (v_regs : List (Nat × Sys2Proof.Word)) (v_latched : List (Nat × Option Sys2Proof.Word)) (v_held : List (Nat × Option Sys2Proof.Word)) (v_ctrlLockA : Bool) (v_ctrlLockB : Bool) (v_shadows : List Sys2Proof.Shadow) (v_commits : List Sys2Proof.Commit) (v_partNo : Nat) (v_hist : List (Nat × List (Nat × Sys2Proof.Word))) (v_rings : List (Nat × Sys2Proof.RingRun)) (v_msixA : Sys2Proof.Msix) (v_msixB : Sys2Proof.Msix) (v_mbx : List Sys2Proof.HostPort) (v_silt : Sys2Proof.Silt) (v_msgPages : Sys2Proof.IrqCycle) (v_pb : Sys2Proof.PhaseBase) (v_gpio : Sys2Proof.Gpio) (v_ports : Sys2Proof.Ports) (v_ptp : Sys2Proof.Ptp) (v_power : Sys2Proof.Power) (v_prs : Sys2Proof.ParsePool) (v_tables : Sys2Proof.Tables) (v_policing : Sys2Proof.Policing) (v_frames : List (Nat × Sys2Proof.Frame)) (v_nextFrame : Nat) (v_fab : Sys2Proof.Fabric) (v_egress : Sys2Proof.Egress) (v_buses : Sys2Proof.Buses) (v_gwe : Sys2Proof.Gateway) (v_cipher : Sys2Proof.Cipher) (v_keys : Sys2Proof.KeyStore) (v_twin : Sys2Proof.Twin) (v_sl : Sys2Proof.ShellLink) (v_faults : Sys2Proof.Faults) (v_upd : Sys2Proof.Update) (v_nvm : Sys2Proof.Nvm) (v_out : List Sys2Proof.Machine.Out) (v_free : Nat) : Prop :=
  Frm F b { pending := v_pending, cclk := v_cclk, mode := v_mode, regs := v_regs, latched := v_latched, held := v_held, ctrlLockA := v_ctrlLockA, ctrlLockB := v_ctrlLockB, shadows := v_shadows, commits := v_commits, partNo := v_partNo, hist := v_hist, rings := v_rings, msixA := v_msixA, msixB := v_msixB, mbx := v_mbx, silt := v_silt, msgPages := v_msgPages, pb := v_pb, gpio := v_gpio, ports := v_ports, ptp := v_ptp, power := v_power, prs := v_prs, tables := v_tables, policing := v_policing, frames := v_frames, nextFrame := v_nextFrame, fab := v_fab, egress := v_egress, buses := v_buses, gwe := v_gwe, cipher := v_cipher, keys := v_keys, twin := v_twin, sl := v_sl, faults := v_faults, upd := v_upd, nvm := v_nvm, out := v_out, free := v_free }

theorem frm_mk {F : Nat} {b : State} {v_pending v_cclk v_mode v_regs v_latched v_held v_ctrlLockA v_ctrlLockB v_shadows v_commits v_partNo v_hist v_rings v_msixA v_msixB v_mbx v_silt v_msgPages v_pb v_gpio v_ports v_ptp v_power v_prs v_tables v_policing v_frames v_nextFrame v_fab v_egress v_buses v_gwe v_cipher v_keys v_twin v_sl v_faults v_upd v_nvm v_out v_free} :
    Frm F b (State.mk v_pending v_cclk v_mode v_regs v_latched v_held v_ctrlLockA v_ctrlLockB v_shadows v_commits v_partNo v_hist v_rings v_msixA v_msixB v_mbx v_silt v_msgPages v_pb v_gpio v_ports v_ptp v_power v_prs v_tables v_policing v_frames v_nextFrame v_fab v_egress v_buses v_gwe v_cipher v_keys v_twin v_sl v_faults v_upd v_nvm v_out v_free) =
      FrmF F b v_pending v_cclk v_mode v_regs v_latched v_held v_ctrlLockA v_ctrlLockB v_shadows v_commits v_partNo v_hist v_rings v_msixA v_msixB v_mbx v_silt v_msgPages v_pb v_gpio v_ports v_ptp v_power v_prs v_tables v_policing v_frames v_nextFrame v_fab v_egress v_buses v_gwe v_cipher v_keys v_twin v_sl v_faults v_upd v_nvm v_out v_free := rfl

/-- `Frm` of the state that a command leaves. -/
def FrmR (F : Nat) (b : State) : Result → Prop
  | .next t => Frm F b t
  | _ => True

/-- A set of fields within another one within a third. -/
theorem subm {A B F : Nat} (hF : B ||| F = F) (h : A ||| B = B := by rfl) : A ||| F = F := by
  rw [← hF, ← Nat.or_assoc, h]

/-- `subm` with its condition last. -/
theorem subt {A B F : Nat} (hF : B ||| F = F) (h : A ||| B = B) : A ||| F = F := subm hF h

/-- A field in a set is in every larger one. -/
theorem bitm {C F i : Nat} (hF : C ||| F = F) (h : C.testBit i = true) : F.testBit i = true := by
  rw [← hF, Nat.testBit_or, h, Bool.true_or]

theorem frm_refl {F : Nat} {b : State} : Frm F b b where
  pending := .inr rfl
  cclk := .inr rfl
  mode := .inr rfl
  regs := .inr rfl
  latched := .inr rfl
  held := .inr rfl
  ctrlLockA := .inr rfl
  ctrlLockB := .inr rfl
  shadows := .inr rfl
  commits := .inr rfl
  partNo := .inr rfl
  hist := .inr rfl
  rings := .inr rfl
  msixA := .inr rfl
  msixB := .inr rfl
  mbx := .inr rfl
  silt := .inr rfl
  msgPages := .inr rfl
  pb := .inr rfl
  gpio := .inr rfl
  ports := .inr rfl
  ptp := .inr rfl
  power := .inr rfl
  prs := .inr rfl
  tables := .inr rfl
  policing := .inr rfl
  frames := .inr rfl
  nextFrame := .inr rfl
  fab := .inr rfl
  egress := .inr rfl
  buses := .inr rfl
  gwe := .inr rfl
  cipher := .inr rfl
  keys := .inr rfl
  twin := .inr rfl
  sl := .inr rfl
  faults := .inr rfl
  upd := .inr rfl
  nvm := .inr rfl
  out := .inr rfl
  free := .inr rfl

theorem frmR_next {F : Nat} {b s : State} (h : Frm F b s) : FrmR F b (.next s) := h

theorem frmR_refused {F : Nat} {b : State} {r : Refusal} : FrmR F b (.refused r) := trivial

theorem frm_elim {α : Type} {F : Nat} {b : State} {o : Option α} {d : State} {f : α → State} (hd : Frm F b d)
    (hf : ∀ x, Frm F b (f x)) : Frm F b (o.elim d f) := by
  cases o with
  | none => exact hd
  | some x => exact hf x

theorem frm_foldl {α : Type} {F : Nat} {b : State} {f : State → α → State} {s : State} {l : List α}
    (hf : ∀ t x, Frm F b t → Frm F b (f t x)) (h : Frm F b s) : Frm F b (l.foldl f s) := by
  induction l generalizing s with
  | nil => exact h
  | cons a l ih => exact ih (hf s a h)

theorem frm_foldl1 {α β : Type} {F : Nat} {b : State} {f : State × β → α → State × β} {s : State × β} {l : List α}
    (hf : ∀ t x, Frm F b t.1 → Frm F b (f t x).1) (h : Frm F b s.1) : Frm F b (l.foldl f s).1 := by
  induction l generalizing s with
  | nil => exact h
  | cons a l ih => exact ih (hf s a h)

theorem frm_ite {F : Nat} {b : State} {c : Prop} [Decidable c] {x y : State} (ha : c → Frm F b x) (hb : ¬c → Frm F b y) :
    Frm F b (if c then x else y) := by
  split
  · exact ha ‹_›
  · exact hb ‹_›

theorem frm_ite1 {β : Type} {F : Nat} {b : State} {c : Prop} [Decidable c] {x y : State × β} (ha : c → Frm F b x.1) (hb : ¬c → Frm F b y.1) :
    Frm F b (if c then x else y).1 := by
  split
  · exact ha ‹_›
  · exact hb ‹_›

theorem frm_iteR {F : Nat} {b : State} {c : Prop} [Decidable c] {x y : Result} (ha : c → FrmR F b x) (hb : ¬c → FrmR F b y) :
    FrmR F b (if c then x else y) := by
  split
  · exact ha ‹_›
  · exact hb ‹_›

theorem frm_fst {β : Type} {F : Nat} {b : State} {e : State × β} {s : State} {x : β} (h : e = (s, x)) (he : Frm F b e.1) : Frm F b s := by
  subst h; exact he

theorem fr_mk_1 {F : Nat} {b s : State} {v0} (hF : 1 ||| F = F) (h : Frm F b s) :
    FrmF F b v0 s.cclk s.mode s.regs s.latched s.held s.ctrlLockA s.ctrlLockB s.shadows s.commits s.partNo s.hist s.rings s.msixA s.msixB s.mbx s.silt s.msgPages s.pb s.gpio s.ports s.ptp s.power s.prs s.tables s.policing s.frames s.nextFrame s.fab s.egress s.buses s.gwe s.cipher s.keys s.twin s.sl s.faults s.upd s.nvm s.out s.free where
  pending := .inl (bitm hF rfl)
  cclk := h.cclk
  mode := h.mode
  regs := h.regs
  latched := h.latched
  held := h.held
  ctrlLockA := h.ctrlLockA
  ctrlLockB := h.ctrlLockB
  shadows := h.shadows
  commits := h.commits
  partNo := h.partNo
  hist := h.hist
  rings := h.rings
  msixA := h.msixA
  msixB := h.msixB
  mbx := h.mbx
  silt := h.silt
  msgPages := h.msgPages
  pb := h.pb
  gpio := h.gpio
  ports := h.ports
  ptp := h.ptp
  power := h.power
  prs := h.prs
  tables := h.tables
  policing := h.policing
  frames := h.frames
  nextFrame := h.nextFrame
  fab := h.fab
  egress := h.egress
  buses := h.buses
  gwe := h.gwe
  cipher := h.cipher
  keys := h.keys
  twin := h.twin
  sl := h.sl
  faults := h.faults
  upd := h.upd
  nvm := h.nvm
  out := h.out
  free := h.free

theorem fr_mk_4 {F : Nat} {b s : State} {v0} (hF : 4 ||| F = F) (h : Frm F b s) :
    FrmF F b s.pending s.cclk v0 s.regs s.latched s.held s.ctrlLockA s.ctrlLockB s.shadows s.commits s.partNo s.hist s.rings s.msixA s.msixB s.mbx s.silt s.msgPages s.pb s.gpio s.ports s.ptp s.power s.prs s.tables s.policing s.frames s.nextFrame s.fab s.egress s.buses s.gwe s.cipher s.keys s.twin s.sl s.faults s.upd s.nvm s.out s.free where
  pending := h.pending
  cclk := h.cclk
  mode := .inl (bitm hF rfl)
  regs := h.regs
  latched := h.latched
  held := h.held
  ctrlLockA := h.ctrlLockA
  ctrlLockB := h.ctrlLockB
  shadows := h.shadows
  commits := h.commits
  partNo := h.partNo
  hist := h.hist
  rings := h.rings
  msixA := h.msixA
  msixB := h.msixB
  mbx := h.mbx
  silt := h.silt
  msgPages := h.msgPages
  pb := h.pb
  gpio := h.gpio
  ports := h.ports
  ptp := h.ptp
  power := h.power
  prs := h.prs
  tables := h.tables
  policing := h.policing
  frames := h.frames
  nextFrame := h.nextFrame
  fab := h.fab
  egress := h.egress
  buses := h.buses
  gwe := h.gwe
  cipher := h.cipher
  keys := h.keys
  twin := h.twin
  sl := h.sl
  faults := h.faults
  upd := h.upd
  nvm := h.nvm
  out := h.out
  free := h.free

theorem fr_mk_8 {F : Nat} {b s : State} {v0} (hF : 8 ||| F = F) (h : Frm F b s) :
    FrmF F b s.pending s.cclk s.mode v0 s.latched s.held s.ctrlLockA s.ctrlLockB s.shadows s.commits s.partNo s.hist s.rings s.msixA s.msixB s.mbx s.silt s.msgPages s.pb s.gpio s.ports s.ptp s.power s.prs s.tables s.policing s.frames s.nextFrame s.fab s.egress s.buses s.gwe s.cipher s.keys s.twin s.sl s.faults s.upd s.nvm s.out s.free where
  pending := h.pending
  cclk := h.cclk
  mode := h.mode
  regs := .inl (bitm hF rfl)
  latched := h.latched
  held := h.held
  ctrlLockA := h.ctrlLockA
  ctrlLockB := h.ctrlLockB
  shadows := h.shadows
  commits := h.commits
  partNo := h.partNo
  hist := h.hist
  rings := h.rings
  msixA := h.msixA
  msixB := h.msixB
  mbx := h.mbx
  silt := h.silt
  msgPages := h.msgPages
  pb := h.pb
  gpio := h.gpio
  ports := h.ports
  ptp := h.ptp
  power := h.power
  prs := h.prs
  tables := h.tables
  policing := h.policing
  frames := h.frames
  nextFrame := h.nextFrame
  fab := h.fab
  egress := h.egress
  buses := h.buses
  gwe := h.gwe
  cipher := h.cipher
  keys := h.keys
  twin := h.twin
  sl := h.sl
  faults := h.faults
  upd := h.upd
  nvm := h.nvm
  out := h.out
  free := h.free

theorem fr_mk_16 {F : Nat} {b s : State} {v0} (hF : 16 ||| F = F) (h : Frm F b s) :
    FrmF F b s.pending s.cclk s.mode s.regs v0 s.held s.ctrlLockA s.ctrlLockB s.shadows s.commits s.partNo s.hist s.rings s.msixA s.msixB s.mbx s.silt s.msgPages s.pb s.gpio s.ports s.ptp s.power s.prs s.tables s.policing s.frames s.nextFrame s.fab s.egress s.buses s.gwe s.cipher s.keys s.twin s.sl s.faults s.upd s.nvm s.out s.free where
  pending := h.pending
  cclk := h.cclk
  mode := h.mode
  regs := h.regs
  latched := .inl (bitm hF rfl)
  held := h.held
  ctrlLockA := h.ctrlLockA
  ctrlLockB := h.ctrlLockB
  shadows := h.shadows
  commits := h.commits
  partNo := h.partNo
  hist := h.hist
  rings := h.rings
  msixA := h.msixA
  msixB := h.msixB
  mbx := h.mbx
  silt := h.silt
  msgPages := h.msgPages
  pb := h.pb
  gpio := h.gpio
  ports := h.ports
  ptp := h.ptp
  power := h.power
  prs := h.prs
  tables := h.tables
  policing := h.policing
  frames := h.frames
  nextFrame := h.nextFrame
  fab := h.fab
  egress := h.egress
  buses := h.buses
  gwe := h.gwe
  cipher := h.cipher
  keys := h.keys
  twin := h.twin
  sl := h.sl
  faults := h.faults
  upd := h.upd
  nvm := h.nvm
  out := h.out
  free := h.free

theorem fr_mk_32 {F : Nat} {b s : State} {v0} (hF : 32 ||| F = F) (h : Frm F b s) :
    FrmF F b s.pending s.cclk s.mode s.regs s.latched v0 s.ctrlLockA s.ctrlLockB s.shadows s.commits s.partNo s.hist s.rings s.msixA s.msixB s.mbx s.silt s.msgPages s.pb s.gpio s.ports s.ptp s.power s.prs s.tables s.policing s.frames s.nextFrame s.fab s.egress s.buses s.gwe s.cipher s.keys s.twin s.sl s.faults s.upd s.nvm s.out s.free where
  pending := h.pending
  cclk := h.cclk
  mode := h.mode
  regs := h.regs
  latched := h.latched
  held := .inl (bitm hF rfl)
  ctrlLockA := h.ctrlLockA
  ctrlLockB := h.ctrlLockB
  shadows := h.shadows
  commits := h.commits
  partNo := h.partNo
  hist := h.hist
  rings := h.rings
  msixA := h.msixA
  msixB := h.msixB
  mbx := h.mbx
  silt := h.silt
  msgPages := h.msgPages
  pb := h.pb
  gpio := h.gpio
  ports := h.ports
  ptp := h.ptp
  power := h.power
  prs := h.prs
  tables := h.tables
  policing := h.policing
  frames := h.frames
  nextFrame := h.nextFrame
  fab := h.fab
  egress := h.egress
  buses := h.buses
  gwe := h.gwe
  cipher := h.cipher
  keys := h.keys
  twin := h.twin
  sl := h.sl
  faults := h.faults
  upd := h.upd
  nvm := h.nvm
  out := h.out
  free := h.free

theorem fr_mk_64 {F : Nat} {b s : State} {v0} (hF : 64 ||| F = F) (h : Frm F b s) :
    FrmF F b s.pending s.cclk s.mode s.regs s.latched s.held v0 s.ctrlLockB s.shadows s.commits s.partNo s.hist s.rings s.msixA s.msixB s.mbx s.silt s.msgPages s.pb s.gpio s.ports s.ptp s.power s.prs s.tables s.policing s.frames s.nextFrame s.fab s.egress s.buses s.gwe s.cipher s.keys s.twin s.sl s.faults s.upd s.nvm s.out s.free where
  pending := h.pending
  cclk := h.cclk
  mode := h.mode
  regs := h.regs
  latched := h.latched
  held := h.held
  ctrlLockA := .inl (bitm hF rfl)
  ctrlLockB := h.ctrlLockB
  shadows := h.shadows
  commits := h.commits
  partNo := h.partNo
  hist := h.hist
  rings := h.rings
  msixA := h.msixA
  msixB := h.msixB
  mbx := h.mbx
  silt := h.silt
  msgPages := h.msgPages
  pb := h.pb
  gpio := h.gpio
  ports := h.ports
  ptp := h.ptp
  power := h.power
  prs := h.prs
  tables := h.tables
  policing := h.policing
  frames := h.frames
  nextFrame := h.nextFrame
  fab := h.fab
  egress := h.egress
  buses := h.buses
  gwe := h.gwe
  cipher := h.cipher
  keys := h.keys
  twin := h.twin
  sl := h.sl
  faults := h.faults
  upd := h.upd
  nvm := h.nvm
  out := h.out
  free := h.free

theorem fr_mk_128 {F : Nat} {b s : State} {v0} (hF : 128 ||| F = F) (h : Frm F b s) :
    FrmF F b s.pending s.cclk s.mode s.regs s.latched s.held s.ctrlLockA v0 s.shadows s.commits s.partNo s.hist s.rings s.msixA s.msixB s.mbx s.silt s.msgPages s.pb s.gpio s.ports s.ptp s.power s.prs s.tables s.policing s.frames s.nextFrame s.fab s.egress s.buses s.gwe s.cipher s.keys s.twin s.sl s.faults s.upd s.nvm s.out s.free where
  pending := h.pending
  cclk := h.cclk
  mode := h.mode
  regs := h.regs
  latched := h.latched
  held := h.held
  ctrlLockA := h.ctrlLockA
  ctrlLockB := .inl (bitm hF rfl)
  shadows := h.shadows
  commits := h.commits
  partNo := h.partNo
  hist := h.hist
  rings := h.rings
  msixA := h.msixA
  msixB := h.msixB
  mbx := h.mbx
  silt := h.silt
  msgPages := h.msgPages
  pb := h.pb
  gpio := h.gpio
  ports := h.ports
  ptp := h.ptp
  power := h.power
  prs := h.prs
  tables := h.tables
  policing := h.policing
  frames := h.frames
  nextFrame := h.nextFrame
  fab := h.fab
  egress := h.egress
  buses := h.buses
  gwe := h.gwe
  cipher := h.cipher
  keys := h.keys
  twin := h.twin
  sl := h.sl
  faults := h.faults
  upd := h.upd
  nvm := h.nvm
  out := h.out
  free := h.free

theorem fr_mk_256 {F : Nat} {b s : State} {v0} (hF : 256 ||| F = F) (h : Frm F b s) :
    FrmF F b s.pending s.cclk s.mode s.regs s.latched s.held s.ctrlLockA s.ctrlLockB v0 s.commits s.partNo s.hist s.rings s.msixA s.msixB s.mbx s.silt s.msgPages s.pb s.gpio s.ports s.ptp s.power s.prs s.tables s.policing s.frames s.nextFrame s.fab s.egress s.buses s.gwe s.cipher s.keys s.twin s.sl s.faults s.upd s.nvm s.out s.free where
  pending := h.pending
  cclk := h.cclk
  mode := h.mode
  regs := h.regs
  latched := h.latched
  held := h.held
  ctrlLockA := h.ctrlLockA
  ctrlLockB := h.ctrlLockB
  shadows := .inl (bitm hF rfl)
  commits := h.commits
  partNo := h.partNo
  hist := h.hist
  rings := h.rings
  msixA := h.msixA
  msixB := h.msixB
  mbx := h.mbx
  silt := h.silt
  msgPages := h.msgPages
  pb := h.pb
  gpio := h.gpio
  ports := h.ports
  ptp := h.ptp
  power := h.power
  prs := h.prs
  tables := h.tables
  policing := h.policing
  frames := h.frames
  nextFrame := h.nextFrame
  fab := h.fab
  egress := h.egress
  buses := h.buses
  gwe := h.gwe
  cipher := h.cipher
  keys := h.keys
  twin := h.twin
  sl := h.sl
  faults := h.faults
  upd := h.upd
  nvm := h.nvm
  out := h.out
  free := h.free

theorem fr_mk_512 {F : Nat} {b s : State} {v0} (hF : 512 ||| F = F) (h : Frm F b s) :
    FrmF F b s.pending s.cclk s.mode s.regs s.latched s.held s.ctrlLockA s.ctrlLockB s.shadows v0 s.partNo s.hist s.rings s.msixA s.msixB s.mbx s.silt s.msgPages s.pb s.gpio s.ports s.ptp s.power s.prs s.tables s.policing s.frames s.nextFrame s.fab s.egress s.buses s.gwe s.cipher s.keys s.twin s.sl s.faults s.upd s.nvm s.out s.free where
  pending := h.pending
  cclk := h.cclk
  mode := h.mode
  regs := h.regs
  latched := h.latched
  held := h.held
  ctrlLockA := h.ctrlLockA
  ctrlLockB := h.ctrlLockB
  shadows := h.shadows
  commits := .inl (bitm hF rfl)
  partNo := h.partNo
  hist := h.hist
  rings := h.rings
  msixA := h.msixA
  msixB := h.msixB
  mbx := h.mbx
  silt := h.silt
  msgPages := h.msgPages
  pb := h.pb
  gpio := h.gpio
  ports := h.ports
  ptp := h.ptp
  power := h.power
  prs := h.prs
  tables := h.tables
  policing := h.policing
  frames := h.frames
  nextFrame := h.nextFrame
  fab := h.fab
  egress := h.egress
  buses := h.buses
  gwe := h.gwe
  cipher := h.cipher
  keys := h.keys
  twin := h.twin
  sl := h.sl
  faults := h.faults
  upd := h.upd
  nvm := h.nvm
  out := h.out
  free := h.free

theorem fr_mk_1536 {F : Nat} {b s : State} {v0 v1} (hF : 1536 ||| F = F) (h : Frm F b s) :
    FrmF F b s.pending s.cclk s.mode s.regs s.latched s.held s.ctrlLockA s.ctrlLockB s.shadows v0 v1 s.hist s.rings s.msixA s.msixB s.mbx s.silt s.msgPages s.pb s.gpio s.ports s.ptp s.power s.prs s.tables s.policing s.frames s.nextFrame s.fab s.egress s.buses s.gwe s.cipher s.keys s.twin s.sl s.faults s.upd s.nvm s.out s.free where
  pending := h.pending
  cclk := h.cclk
  mode := h.mode
  regs := h.regs
  latched := h.latched
  held := h.held
  ctrlLockA := h.ctrlLockA
  ctrlLockB := h.ctrlLockB
  shadows := h.shadows
  commits := .inl (bitm hF rfl)
  partNo := .inl (bitm hF rfl)
  hist := h.hist
  rings := h.rings
  msixA := h.msixA
  msixB := h.msixB
  mbx := h.mbx
  silt := h.silt
  msgPages := h.msgPages
  pb := h.pb
  gpio := h.gpio
  ports := h.ports
  ptp := h.ptp
  power := h.power
  prs := h.prs
  tables := h.tables
  policing := h.policing
  frames := h.frames
  nextFrame := h.nextFrame
  fab := h.fab
  egress := h.egress
  buses := h.buses
  gwe := h.gwe
  cipher := h.cipher
  keys := h.keys
  twin := h.twin
  sl := h.sl
  faults := h.faults
  upd := h.upd
  nvm := h.nvm
  out := h.out
  free := h.free

theorem fr_mk_1792 {F : Nat} {b s : State} {v0 v1 v2} (hF : 1792 ||| F = F) (h : Frm F b s) :
    FrmF F b s.pending s.cclk s.mode s.regs s.latched s.held s.ctrlLockA s.ctrlLockB v0 v1 v2 s.hist s.rings s.msixA s.msixB s.mbx s.silt s.msgPages s.pb s.gpio s.ports s.ptp s.power s.prs s.tables s.policing s.frames s.nextFrame s.fab s.egress s.buses s.gwe s.cipher s.keys s.twin s.sl s.faults s.upd s.nvm s.out s.free where
  pending := h.pending
  cclk := h.cclk
  mode := h.mode
  regs := h.regs
  latched := h.latched
  held := h.held
  ctrlLockA := h.ctrlLockA
  ctrlLockB := h.ctrlLockB
  shadows := .inl (bitm hF rfl)
  commits := .inl (bitm hF rfl)
  partNo := .inl (bitm hF rfl)
  hist := h.hist
  rings := h.rings
  msixA := h.msixA
  msixB := h.msixB
  mbx := h.mbx
  silt := h.silt
  msgPages := h.msgPages
  pb := h.pb
  gpio := h.gpio
  ports := h.ports
  ptp := h.ptp
  power := h.power
  prs := h.prs
  tables := h.tables
  policing := h.policing
  frames := h.frames
  nextFrame := h.nextFrame
  fab := h.fab
  egress := h.egress
  buses := h.buses
  gwe := h.gwe
  cipher := h.cipher
  keys := h.keys
  twin := h.twin
  sl := h.sl
  faults := h.faults
  upd := h.upd
  nvm := h.nvm
  out := h.out
  free := h.free

theorem fr_mk_2048 {F : Nat} {b s : State} {v0} (hF : 2048 ||| F = F) (h : Frm F b s) :
    FrmF F b s.pending s.cclk s.mode s.regs s.latched s.held s.ctrlLockA s.ctrlLockB s.shadows s.commits s.partNo v0 s.rings s.msixA s.msixB s.mbx s.silt s.msgPages s.pb s.gpio s.ports s.ptp s.power s.prs s.tables s.policing s.frames s.nextFrame s.fab s.egress s.buses s.gwe s.cipher s.keys s.twin s.sl s.faults s.upd s.nvm s.out s.free where
  pending := h.pending
  cclk := h.cclk
  mode := h.mode
  regs := h.regs
  latched := h.latched
  held := h.held
  ctrlLockA := h.ctrlLockA
  ctrlLockB := h.ctrlLockB
  shadows := h.shadows
  commits := h.commits
  partNo := h.partNo
  hist := .inl (bitm hF rfl)
  rings := h.rings
  msixA := h.msixA
  msixB := h.msixB
  mbx := h.mbx
  silt := h.silt
  msgPages := h.msgPages
  pb := h.pb
  gpio := h.gpio
  ports := h.ports
  ptp := h.ptp
  power := h.power
  prs := h.prs
  tables := h.tables
  policing := h.policing
  frames := h.frames
  nextFrame := h.nextFrame
  fab := h.fab
  egress := h.egress
  buses := h.buses
  gwe := h.gwe
  cipher := h.cipher
  keys := h.keys
  twin := h.twin
  sl := h.sl
  faults := h.faults
  upd := h.upd
  nvm := h.nvm
  out := h.out
  free := h.free

theorem fr_mk_4096 {F : Nat} {b s : State} {v0} (hF : 4096 ||| F = F) (h : Frm F b s) :
    FrmF F b s.pending s.cclk s.mode s.regs s.latched s.held s.ctrlLockA s.ctrlLockB s.shadows s.commits s.partNo s.hist v0 s.msixA s.msixB s.mbx s.silt s.msgPages s.pb s.gpio s.ports s.ptp s.power s.prs s.tables s.policing s.frames s.nextFrame s.fab s.egress s.buses s.gwe s.cipher s.keys s.twin s.sl s.faults s.upd s.nvm s.out s.free where
  pending := h.pending
  cclk := h.cclk
  mode := h.mode
  regs := h.regs
  latched := h.latched
  held := h.held
  ctrlLockA := h.ctrlLockA
  ctrlLockB := h.ctrlLockB
  shadows := h.shadows
  commits := h.commits
  partNo := h.partNo
  hist := h.hist
  rings := .inl (bitm hF rfl)
  msixA := h.msixA
  msixB := h.msixB
  mbx := h.mbx
  silt := h.silt
  msgPages := h.msgPages
  pb := h.pb
  gpio := h.gpio
  ports := h.ports
  ptp := h.ptp
  power := h.power
  prs := h.prs
  tables := h.tables
  policing := h.policing
  frames := h.frames
  nextFrame := h.nextFrame
  fab := h.fab
  egress := h.egress
  buses := h.buses
  gwe := h.gwe
  cipher := h.cipher
  keys := h.keys
  twin := h.twin
  sl := h.sl
  faults := h.faults
  upd := h.upd
  nvm := h.nvm
  out := h.out
  free := h.free

theorem fr_mk_8192 {F : Nat} {b s : State} {v0} (hF : 8192 ||| F = F) (h : Frm F b s) :
    FrmF F b s.pending s.cclk s.mode s.regs s.latched s.held s.ctrlLockA s.ctrlLockB s.shadows s.commits s.partNo s.hist s.rings v0 s.msixB s.mbx s.silt s.msgPages s.pb s.gpio s.ports s.ptp s.power s.prs s.tables s.policing s.frames s.nextFrame s.fab s.egress s.buses s.gwe s.cipher s.keys s.twin s.sl s.faults s.upd s.nvm s.out s.free where
  pending := h.pending
  cclk := h.cclk
  mode := h.mode
  regs := h.regs
  latched := h.latched
  held := h.held
  ctrlLockA := h.ctrlLockA
  ctrlLockB := h.ctrlLockB
  shadows := h.shadows
  commits := h.commits
  partNo := h.partNo
  hist := h.hist
  rings := h.rings
  msixA := .inl (bitm hF rfl)
  msixB := h.msixB
  mbx := h.mbx
  silt := h.silt
  msgPages := h.msgPages
  pb := h.pb
  gpio := h.gpio
  ports := h.ports
  ptp := h.ptp
  power := h.power
  prs := h.prs
  tables := h.tables
  policing := h.policing
  frames := h.frames
  nextFrame := h.nextFrame
  fab := h.fab
  egress := h.egress
  buses := h.buses
  gwe := h.gwe
  cipher := h.cipher
  keys := h.keys
  twin := h.twin
  sl := h.sl
  faults := h.faults
  upd := h.upd
  nvm := h.nvm
  out := h.out
  free := h.free

theorem fr_mk_16384 {F : Nat} {b s : State} {v0} (hF : 16384 ||| F = F) (h : Frm F b s) :
    FrmF F b s.pending s.cclk s.mode s.regs s.latched s.held s.ctrlLockA s.ctrlLockB s.shadows s.commits s.partNo s.hist s.rings s.msixA v0 s.mbx s.silt s.msgPages s.pb s.gpio s.ports s.ptp s.power s.prs s.tables s.policing s.frames s.nextFrame s.fab s.egress s.buses s.gwe s.cipher s.keys s.twin s.sl s.faults s.upd s.nvm s.out s.free where
  pending := h.pending
  cclk := h.cclk
  mode := h.mode
  regs := h.regs
  latched := h.latched
  held := h.held
  ctrlLockA := h.ctrlLockA
  ctrlLockB := h.ctrlLockB
  shadows := h.shadows
  commits := h.commits
  partNo := h.partNo
  hist := h.hist
  rings := h.rings
  msixA := h.msixA
  msixB := .inl (bitm hF rfl)
  mbx := h.mbx
  silt := h.silt
  msgPages := h.msgPages
  pb := h.pb
  gpio := h.gpio
  ports := h.ports
  ptp := h.ptp
  power := h.power
  prs := h.prs
  tables := h.tables
  policing := h.policing
  frames := h.frames
  nextFrame := h.nextFrame
  fab := h.fab
  egress := h.egress
  buses := h.buses
  gwe := h.gwe
  cipher := h.cipher
  keys := h.keys
  twin := h.twin
  sl := h.sl
  faults := h.faults
  upd := h.upd
  nvm := h.nvm
  out := h.out
  free := h.free

theorem fr_mk_32768 {F : Nat} {b s : State} {v0} (hF : 32768 ||| F = F) (h : Frm F b s) :
    FrmF F b s.pending s.cclk s.mode s.regs s.latched s.held s.ctrlLockA s.ctrlLockB s.shadows s.commits s.partNo s.hist s.rings s.msixA s.msixB v0 s.silt s.msgPages s.pb s.gpio s.ports s.ptp s.power s.prs s.tables s.policing s.frames s.nextFrame s.fab s.egress s.buses s.gwe s.cipher s.keys s.twin s.sl s.faults s.upd s.nvm s.out s.free where
  pending := h.pending
  cclk := h.cclk
  mode := h.mode
  regs := h.regs
  latched := h.latched
  held := h.held
  ctrlLockA := h.ctrlLockA
  ctrlLockB := h.ctrlLockB
  shadows := h.shadows
  commits := h.commits
  partNo := h.partNo
  hist := h.hist
  rings := h.rings
  msixA := h.msixA
  msixB := h.msixB
  mbx := .inl (bitm hF rfl)
  silt := h.silt
  msgPages := h.msgPages
  pb := h.pb
  gpio := h.gpio
  ports := h.ports
  ptp := h.ptp
  power := h.power
  prs := h.prs
  tables := h.tables
  policing := h.policing
  frames := h.frames
  nextFrame := h.nextFrame
  fab := h.fab
  egress := h.egress
  buses := h.buses
  gwe := h.gwe
  cipher := h.cipher
  keys := h.keys
  twin := h.twin
  sl := h.sl
  faults := h.faults
  upd := h.upd
  nvm := h.nvm
  out := h.out
  free := h.free

theorem fr_mk_65536 {F : Nat} {b s : State} {v0} (hF : 65536 ||| F = F) (h : Frm F b s) :
    FrmF F b s.pending s.cclk s.mode s.regs s.latched s.held s.ctrlLockA s.ctrlLockB s.shadows s.commits s.partNo s.hist s.rings s.msixA s.msixB s.mbx v0 s.msgPages s.pb s.gpio s.ports s.ptp s.power s.prs s.tables s.policing s.frames s.nextFrame s.fab s.egress s.buses s.gwe s.cipher s.keys s.twin s.sl s.faults s.upd s.nvm s.out s.free where
  pending := h.pending
  cclk := h.cclk
  mode := h.mode
  regs := h.regs
  latched := h.latched
  held := h.held
  ctrlLockA := h.ctrlLockA
  ctrlLockB := h.ctrlLockB
  shadows := h.shadows
  commits := h.commits
  partNo := h.partNo
  hist := h.hist
  rings := h.rings
  msixA := h.msixA
  msixB := h.msixB
  mbx := h.mbx
  silt := .inl (bitm hF rfl)
  msgPages := h.msgPages
  pb := h.pb
  gpio := h.gpio
  ports := h.ports
  ptp := h.ptp
  power := h.power
  prs := h.prs
  tables := h.tables
  policing := h.policing
  frames := h.frames
  nextFrame := h.nextFrame
  fab := h.fab
  egress := h.egress
  buses := h.buses
  gwe := h.gwe
  cipher := h.cipher
  keys := h.keys
  twin := h.twin
  sl := h.sl
  faults := h.faults
  upd := h.upd
  nvm := h.nvm
  out := h.out
  free := h.free

theorem fr_mk_131072 {F : Nat} {b s : State} {v0} (hF : 131072 ||| F = F) (h : Frm F b s) :
    FrmF F b s.pending s.cclk s.mode s.regs s.latched s.held s.ctrlLockA s.ctrlLockB s.shadows s.commits s.partNo s.hist s.rings s.msixA s.msixB s.mbx s.silt v0 s.pb s.gpio s.ports s.ptp s.power s.prs s.tables s.policing s.frames s.nextFrame s.fab s.egress s.buses s.gwe s.cipher s.keys s.twin s.sl s.faults s.upd s.nvm s.out s.free where
  pending := h.pending
  cclk := h.cclk
  mode := h.mode
  regs := h.regs
  latched := h.latched
  held := h.held
  ctrlLockA := h.ctrlLockA
  ctrlLockB := h.ctrlLockB
  shadows := h.shadows
  commits := h.commits
  partNo := h.partNo
  hist := h.hist
  rings := h.rings
  msixA := h.msixA
  msixB := h.msixB
  mbx := h.mbx
  silt := h.silt
  msgPages := .inl (bitm hF rfl)
  pb := h.pb
  gpio := h.gpio
  ports := h.ports
  ptp := h.ptp
  power := h.power
  prs := h.prs
  tables := h.tables
  policing := h.policing
  frames := h.frames
  nextFrame := h.nextFrame
  fab := h.fab
  egress := h.egress
  buses := h.buses
  gwe := h.gwe
  cipher := h.cipher
  keys := h.keys
  twin := h.twin
  sl := h.sl
  faults := h.faults
  upd := h.upd
  nvm := h.nvm
  out := h.out
  free := h.free

theorem fr_mk_262144 {F : Nat} {b s : State} {v0} (hF : 262144 ||| F = F) (h : Frm F b s) :
    FrmF F b s.pending s.cclk s.mode s.regs s.latched s.held s.ctrlLockA s.ctrlLockB s.shadows s.commits s.partNo s.hist s.rings s.msixA s.msixB s.mbx s.silt s.msgPages v0 s.gpio s.ports s.ptp s.power s.prs s.tables s.policing s.frames s.nextFrame s.fab s.egress s.buses s.gwe s.cipher s.keys s.twin s.sl s.faults s.upd s.nvm s.out s.free where
  pending := h.pending
  cclk := h.cclk
  mode := h.mode
  regs := h.regs
  latched := h.latched
  held := h.held
  ctrlLockA := h.ctrlLockA
  ctrlLockB := h.ctrlLockB
  shadows := h.shadows
  commits := h.commits
  partNo := h.partNo
  hist := h.hist
  rings := h.rings
  msixA := h.msixA
  msixB := h.msixB
  mbx := h.mbx
  silt := h.silt
  msgPages := h.msgPages
  pb := .inl (bitm hF rfl)
  gpio := h.gpio
  ports := h.ports
  ptp := h.ptp
  power := h.power
  prs := h.prs
  tables := h.tables
  policing := h.policing
  frames := h.frames
  nextFrame := h.nextFrame
  fab := h.fab
  egress := h.egress
  buses := h.buses
  gwe := h.gwe
  cipher := h.cipher
  keys := h.keys
  twin := h.twin
  sl := h.sl
  faults := h.faults
  upd := h.upd
  nvm := h.nvm
  out := h.out
  free := h.free

theorem fr_mk_524288 {F : Nat} {b s : State} {v0} (hF : 524288 ||| F = F) (h : Frm F b s) :
    FrmF F b s.pending s.cclk s.mode s.regs s.latched s.held s.ctrlLockA s.ctrlLockB s.shadows s.commits s.partNo s.hist s.rings s.msixA s.msixB s.mbx s.silt s.msgPages s.pb v0 s.ports s.ptp s.power s.prs s.tables s.policing s.frames s.nextFrame s.fab s.egress s.buses s.gwe s.cipher s.keys s.twin s.sl s.faults s.upd s.nvm s.out s.free where
  pending := h.pending
  cclk := h.cclk
  mode := h.mode
  regs := h.regs
  latched := h.latched
  held := h.held
  ctrlLockA := h.ctrlLockA
  ctrlLockB := h.ctrlLockB
  shadows := h.shadows
  commits := h.commits
  partNo := h.partNo
  hist := h.hist
  rings := h.rings
  msixA := h.msixA
  msixB := h.msixB
  mbx := h.mbx
  silt := h.silt
  msgPages := h.msgPages
  pb := h.pb
  gpio := .inl (bitm hF rfl)
  ports := h.ports
  ptp := h.ptp
  power := h.power
  prs := h.prs
  tables := h.tables
  policing := h.policing
  frames := h.frames
  nextFrame := h.nextFrame
  fab := h.fab
  egress := h.egress
  buses := h.buses
  gwe := h.gwe
  cipher := h.cipher
  keys := h.keys
  twin := h.twin
  sl := h.sl
  faults := h.faults
  upd := h.upd
  nvm := h.nvm
  out := h.out
  free := h.free

theorem fr_mk_1048576 {F : Nat} {b s : State} {v0} (hF : 1048576 ||| F = F) (h : Frm F b s) :
    FrmF F b s.pending s.cclk s.mode s.regs s.latched s.held s.ctrlLockA s.ctrlLockB s.shadows s.commits s.partNo s.hist s.rings s.msixA s.msixB s.mbx s.silt s.msgPages s.pb s.gpio v0 s.ptp s.power s.prs s.tables s.policing s.frames s.nextFrame s.fab s.egress s.buses s.gwe s.cipher s.keys s.twin s.sl s.faults s.upd s.nvm s.out s.free where
  pending := h.pending
  cclk := h.cclk
  mode := h.mode
  regs := h.regs
  latched := h.latched
  held := h.held
  ctrlLockA := h.ctrlLockA
  ctrlLockB := h.ctrlLockB
  shadows := h.shadows
  commits := h.commits
  partNo := h.partNo
  hist := h.hist
  rings := h.rings
  msixA := h.msixA
  msixB := h.msixB
  mbx := h.mbx
  silt := h.silt
  msgPages := h.msgPages
  pb := h.pb
  gpio := h.gpio
  ports := .inl (bitm hF rfl)
  ptp := h.ptp
  power := h.power
  prs := h.prs
  tables := h.tables
  policing := h.policing
  frames := h.frames
  nextFrame := h.nextFrame
  fab := h.fab
  egress := h.egress
  buses := h.buses
  gwe := h.gwe
  cipher := h.cipher
  keys := h.keys
  twin := h.twin
  sl := h.sl
  faults := h.faults
  upd := h.upd
  nvm := h.nvm
  out := h.out
  free := h.free

theorem fr_mk_2097152 {F : Nat} {b s : State} {v0} (hF : 2097152 ||| F = F) (h : Frm F b s) :
    FrmF F b s.pending s.cclk s.mode s.regs s.latched s.held s.ctrlLockA s.ctrlLockB s.shadows s.commits s.partNo s.hist s.rings s.msixA s.msixB s.mbx s.silt s.msgPages s.pb s.gpio s.ports v0 s.power s.prs s.tables s.policing s.frames s.nextFrame s.fab s.egress s.buses s.gwe s.cipher s.keys s.twin s.sl s.faults s.upd s.nvm s.out s.free where
  pending := h.pending
  cclk := h.cclk
  mode := h.mode
  regs := h.regs
  latched := h.latched
  held := h.held
  ctrlLockA := h.ctrlLockA
  ctrlLockB := h.ctrlLockB
  shadows := h.shadows
  commits := h.commits
  partNo := h.partNo
  hist := h.hist
  rings := h.rings
  msixA := h.msixA
  msixB := h.msixB
  mbx := h.mbx
  silt := h.silt
  msgPages := h.msgPages
  pb := h.pb
  gpio := h.gpio
  ports := h.ports
  ptp := .inl (bitm hF rfl)
  power := h.power
  prs := h.prs
  tables := h.tables
  policing := h.policing
  frames := h.frames
  nextFrame := h.nextFrame
  fab := h.fab
  egress := h.egress
  buses := h.buses
  gwe := h.gwe
  cipher := h.cipher
  keys := h.keys
  twin := h.twin
  sl := h.sl
  faults := h.faults
  upd := h.upd
  nvm := h.nvm
  out := h.out
  free := h.free

theorem fr_mk_2359298 {F : Nat} {b s : State} {v0 v1 v2} (hF : 2359298 ||| F = F) (h : Frm F b s) :
    FrmF F b s.pending v0 s.mode s.regs s.latched s.held s.ctrlLockA s.ctrlLockB s.shadows s.commits s.partNo s.hist s.rings s.msixA s.msixB s.mbx s.silt s.msgPages v1 s.gpio s.ports v2 s.power s.prs s.tables s.policing s.frames s.nextFrame s.fab s.egress s.buses s.gwe s.cipher s.keys s.twin s.sl s.faults s.upd s.nvm s.out s.free where
  pending := h.pending
  cclk := .inl (bitm hF rfl)
  mode := h.mode
  regs := h.regs
  latched := h.latched
  held := h.held
  ctrlLockA := h.ctrlLockA
  ctrlLockB := h.ctrlLockB
  shadows := h.shadows
  commits := h.commits
  partNo := h.partNo
  hist := h.hist
  rings := h.rings
  msixA := h.msixA
  msixB := h.msixB
  mbx := h.mbx
  silt := h.silt
  msgPages := h.msgPages
  pb := .inl (bitm hF rfl)
  gpio := h.gpio
  ports := h.ports
  ptp := .inl (bitm hF rfl)
  power := h.power
  prs := h.prs
  tables := h.tables
  policing := h.policing
  frames := h.frames
  nextFrame := h.nextFrame
  fab := h.fab
  egress := h.egress
  buses := h.buses
  gwe := h.gwe
  cipher := h.cipher
  keys := h.keys
  twin := h.twin
  sl := h.sl
  faults := h.faults
  upd := h.upd
  nvm := h.nvm
  out := h.out
  free := h.free

theorem fr_mk_2490370 {F : Nat} {b s : State} {v0 v1 v2 v3} (hF : 2490370 ||| F = F) (h : Frm F b s) :
    FrmF F b s.pending v0 s.mode s.regs s.latched s.held s.ctrlLockA s.ctrlLockB s.shadows s.commits s.partNo s.hist s.rings s.msixA s.msixB s.mbx s.silt v1 v2 s.gpio s.ports v3 s.power s.prs s.tables s.policing s.frames s.nextFrame s.fab s.egress s.buses s.gwe s.cipher s.keys s.twin s.sl s.faults s.upd s.nvm s.out s.free where
  pending := h.pending
  cclk := .inl (bitm hF rfl)
  mode := h.mode
  regs := h.regs
  latched := h.latched
  held := h.held
  ctrlLockA := h.ctrlLockA
  ctrlLockB := h.ctrlLockB
  shadows := h.shadows
  commits := h.commits
  partNo := h.partNo
  hist := h.hist
  rings := h.rings
  msixA := h.msixA
  msixB := h.msixB
  mbx := h.mbx
  silt := h.silt
  msgPages := .inl (bitm hF rfl)
  pb := .inl (bitm hF rfl)
  gpio := h.gpio
  ports := h.ports
  ptp := .inl (bitm hF rfl)
  power := h.power
  prs := h.prs
  tables := h.tables
  policing := h.policing
  frames := h.frames
  nextFrame := h.nextFrame
  fab := h.fab
  egress := h.egress
  buses := h.buses
  gwe := h.gwe
  cipher := h.cipher
  keys := h.keys
  twin := h.twin
  sl := h.sl
  faults := h.faults
  upd := h.upd
  nvm := h.nvm
  out := h.out
  free := h.free

theorem fr_mk_4194304 {F : Nat} {b s : State} {v0} (hF : 4194304 ||| F = F) (h : Frm F b s) :
    FrmF F b s.pending s.cclk s.mode s.regs s.latched s.held s.ctrlLockA s.ctrlLockB s.shadows s.commits s.partNo s.hist s.rings s.msixA s.msixB s.mbx s.silt s.msgPages s.pb s.gpio s.ports s.ptp v0 s.prs s.tables s.policing s.frames s.nextFrame s.fab s.egress s.buses s.gwe s.cipher s.keys s.twin s.sl s.faults s.upd s.nvm s.out s.free where
  pending := h.pending
  cclk := h.cclk
  mode := h.mode
  regs := h.regs
  latched := h.latched
  held := h.held
  ctrlLockA := h.ctrlLockA
  ctrlLockB := h.ctrlLockB
  shadows := h.shadows
  commits := h.commits
  partNo := h.partNo
  hist := h.hist
  rings := h.rings
  msixA := h.msixA
  msixB := h.msixB
  mbx := h.mbx
  silt := h.silt
  msgPages := h.msgPages
  pb := h.pb
  gpio := h.gpio
  ports := h.ports
  ptp := h.ptp
  power := .inl (bitm hF rfl)
  prs := h.prs
  tables := h.tables
  policing := h.policing
  frames := h.frames
  nextFrame := h.nextFrame
  fab := h.fab
  egress := h.egress
  buses := h.buses
  gwe := h.gwe
  cipher := h.cipher
  keys := h.keys
  twin := h.twin
  sl := h.sl
  faults := h.faults
  upd := h.upd
  nvm := h.nvm
  out := h.out
  free := h.free

theorem fr_mk_4325376 {F : Nat} {b s : State} {v0 v1} (hF : 4325376 ||| F = F) (h : Frm F b s) :
    FrmF F b s.pending s.cclk s.mode s.regs s.latched s.held s.ctrlLockA s.ctrlLockB s.shadows s.commits s.partNo s.hist s.rings s.msixA s.msixB s.mbx s.silt v0 s.pb s.gpio s.ports s.ptp v1 s.prs s.tables s.policing s.frames s.nextFrame s.fab s.egress s.buses s.gwe s.cipher s.keys s.twin s.sl s.faults s.upd s.nvm s.out s.free where
  pending := h.pending
  cclk := h.cclk
  mode := h.mode
  regs := h.regs
  latched := h.latched
  held := h.held
  ctrlLockA := h.ctrlLockA
  ctrlLockB := h.ctrlLockB
  shadows := h.shadows
  commits := h.commits
  partNo := h.partNo
  hist := h.hist
  rings := h.rings
  msixA := h.msixA
  msixB := h.msixB
  mbx := h.mbx
  silt := h.silt
  msgPages := .inl (bitm hF rfl)
  pb := h.pb
  gpio := h.gpio
  ports := h.ports
  ptp := h.ptp
  power := .inl (bitm hF rfl)
  prs := h.prs
  tables := h.tables
  policing := h.policing
  frames := h.frames
  nextFrame := h.nextFrame
  fab := h.fab
  egress := h.egress
  buses := h.buses
  gwe := h.gwe
  cipher := h.cipher
  keys := h.keys
  twin := h.twin
  sl := h.sl
  faults := h.faults
  upd := h.upd
  nvm := h.nvm
  out := h.out
  free := h.free

theorem fr_mk_8388608 {F : Nat} {b s : State} {v0} (hF : 8388608 ||| F = F) (h : Frm F b s) :
    FrmF F b s.pending s.cclk s.mode s.regs s.latched s.held s.ctrlLockA s.ctrlLockB s.shadows s.commits s.partNo s.hist s.rings s.msixA s.msixB s.mbx s.silt s.msgPages s.pb s.gpio s.ports s.ptp s.power v0 s.tables s.policing s.frames s.nextFrame s.fab s.egress s.buses s.gwe s.cipher s.keys s.twin s.sl s.faults s.upd s.nvm s.out s.free where
  pending := h.pending
  cclk := h.cclk
  mode := h.mode
  regs := h.regs
  latched := h.latched
  held := h.held
  ctrlLockA := h.ctrlLockA
  ctrlLockB := h.ctrlLockB
  shadows := h.shadows
  commits := h.commits
  partNo := h.partNo
  hist := h.hist
  rings := h.rings
  msixA := h.msixA
  msixB := h.msixB
  mbx := h.mbx
  silt := h.silt
  msgPages := h.msgPages
  pb := h.pb
  gpio := h.gpio
  ports := h.ports
  ptp := h.ptp
  power := h.power
  prs := .inl (bitm hF rfl)
  tables := h.tables
  policing := h.policing
  frames := h.frames
  nextFrame := h.nextFrame
  fab := h.fab
  egress := h.egress
  buses := h.buses
  gwe := h.gwe
  cipher := h.cipher
  keys := h.keys
  twin := h.twin
  sl := h.sl
  faults := h.faults
  upd := h.upd
  nvm := h.nvm
  out := h.out
  free := h.free

theorem fr_mk_16777216 {F : Nat} {b s : State} {v0} (hF : 16777216 ||| F = F) (h : Frm F b s) :
    FrmF F b s.pending s.cclk s.mode s.regs s.latched s.held s.ctrlLockA s.ctrlLockB s.shadows s.commits s.partNo s.hist s.rings s.msixA s.msixB s.mbx s.silt s.msgPages s.pb s.gpio s.ports s.ptp s.power s.prs v0 s.policing s.frames s.nextFrame s.fab s.egress s.buses s.gwe s.cipher s.keys s.twin s.sl s.faults s.upd s.nvm s.out s.free where
  pending := h.pending
  cclk := h.cclk
  mode := h.mode
  regs := h.regs
  latched := h.latched
  held := h.held
  ctrlLockA := h.ctrlLockA
  ctrlLockB := h.ctrlLockB
  shadows := h.shadows
  commits := h.commits
  partNo := h.partNo
  hist := h.hist
  rings := h.rings
  msixA := h.msixA
  msixB := h.msixB
  mbx := h.mbx
  silt := h.silt
  msgPages := h.msgPages
  pb := h.pb
  gpio := h.gpio
  ports := h.ports
  ptp := h.ptp
  power := h.power
  prs := h.prs
  tables := .inl (bitm hF rfl)
  policing := h.policing
  frames := h.frames
  nextFrame := h.nextFrame
  fab := h.fab
  egress := h.egress
  buses := h.buses
  gwe := h.gwe
  cipher := h.cipher
  keys := h.keys
  twin := h.twin
  sl := h.sl
  faults := h.faults
  upd := h.upd
  nvm := h.nvm
  out := h.out
  free := h.free

theorem fr_mk_16777728 {F : Nat} {b s : State} {v0 v1} (hF : 16777728 ||| F = F) (h : Frm F b s) :
    FrmF F b s.pending s.cclk s.mode s.regs s.latched s.held s.ctrlLockA s.ctrlLockB s.shadows v0 s.partNo s.hist s.rings s.msixA s.msixB s.mbx s.silt s.msgPages s.pb s.gpio s.ports s.ptp s.power s.prs v1 s.policing s.frames s.nextFrame s.fab s.egress s.buses s.gwe s.cipher s.keys s.twin s.sl s.faults s.upd s.nvm s.out s.free where
  pending := h.pending
  cclk := h.cclk
  mode := h.mode
  regs := h.regs
  latched := h.latched
  held := h.held
  ctrlLockA := h.ctrlLockA
  ctrlLockB := h.ctrlLockB
  shadows := h.shadows
  commits := .inl (bitm hF rfl)
  partNo := h.partNo
  hist := h.hist
  rings := h.rings
  msixA := h.msixA
  msixB := h.msixB
  mbx := h.mbx
  silt := h.silt
  msgPages := h.msgPages
  pb := h.pb
  gpio := h.gpio
  ports := h.ports
  ptp := h.ptp
  power := h.power
  prs := h.prs
  tables := .inl (bitm hF rfl)
  policing := h.policing
  frames := h.frames
  nextFrame := h.nextFrame
  fab := h.fab
  egress := h.egress
  buses := h.buses
  gwe := h.gwe
  cipher := h.cipher
  keys := h.keys
  twin := h.twin
  sl := h.sl
  faults := h.faults
  upd := h.upd
  nvm := h.nvm
  out := h.out
  free := h.free

theorem fr_mk_20971520 {F : Nat} {b s : State} {v0 v1} (hF : 20971520 ||| F = F) (h : Frm F b s) :
    FrmF F b s.pending s.cclk s.mode s.regs s.latched s.held s.ctrlLockA s.ctrlLockB s.shadows s.commits s.partNo s.hist s.rings s.msixA s.msixB s.mbx s.silt s.msgPages s.pb s.gpio s.ports s.ptp v0 s.prs v1 s.policing s.frames s.nextFrame s.fab s.egress s.buses s.gwe s.cipher s.keys s.twin s.sl s.faults s.upd s.nvm s.out s.free where
  pending := h.pending
  cclk := h.cclk
  mode := h.mode
  regs := h.regs
  latched := h.latched
  held := h.held
  ctrlLockA := h.ctrlLockA
  ctrlLockB := h.ctrlLockB
  shadows := h.shadows
  commits := h.commits
  partNo := h.partNo
  hist := h.hist
  rings := h.rings
  msixA := h.msixA
  msixB := h.msixB
  mbx := h.mbx
  silt := h.silt
  msgPages := h.msgPages
  pb := h.pb
  gpio := h.gpio
  ports := h.ports
  ptp := h.ptp
  power := .inl (bitm hF rfl)
  prs := h.prs
  tables := .inl (bitm hF rfl)
  policing := h.policing
  frames := h.frames
  nextFrame := h.nextFrame
  fab := h.fab
  egress := h.egress
  buses := h.buses
  gwe := h.gwe
  cipher := h.cipher
  keys := h.keys
  twin := h.twin
  sl := h.sl
  faults := h.faults
  upd := h.upd
  nvm := h.nvm
  out := h.out
  free := h.free

theorem fr_mk_33554432 {F : Nat} {b s : State} {v0} (hF : 33554432 ||| F = F) (h : Frm F b s) :
    FrmF F b s.pending s.cclk s.mode s.regs s.latched s.held s.ctrlLockA s.ctrlLockB s.shadows s.commits s.partNo s.hist s.rings s.msixA s.msixB s.mbx s.silt s.msgPages s.pb s.gpio s.ports s.ptp s.power s.prs s.tables v0 s.frames s.nextFrame s.fab s.egress s.buses s.gwe s.cipher s.keys s.twin s.sl s.faults s.upd s.nvm s.out s.free where
  pending := h.pending
  cclk := h.cclk
  mode := h.mode
  regs := h.regs
  latched := h.latched
  held := h.held
  ctrlLockA := h.ctrlLockA
  ctrlLockB := h.ctrlLockB
  shadows := h.shadows
  commits := h.commits
  partNo := h.partNo
  hist := h.hist
  rings := h.rings
  msixA := h.msixA
  msixB := h.msixB
  mbx := h.mbx
  silt := h.silt
  msgPages := h.msgPages
  pb := h.pb
  gpio := h.gpio
  ports := h.ports
  ptp := h.ptp
  power := h.power
  prs := h.prs
  tables := h.tables
  policing := .inl (bitm hF rfl)
  frames := h.frames
  nextFrame := h.nextFrame
  fab := h.fab
  egress := h.egress
  buses := h.buses
  gwe := h.gwe
  cipher := h.cipher
  keys := h.keys
  twin := h.twin
  sl := h.sl
  faults := h.faults
  upd := h.upd
  nvm := h.nvm
  out := h.out
  free := h.free

theorem fr_mk_67108864 {F : Nat} {b s : State} {v0} (hF : 67108864 ||| F = F) (h : Frm F b s) :
    FrmF F b s.pending s.cclk s.mode s.regs s.latched s.held s.ctrlLockA s.ctrlLockB s.shadows s.commits s.partNo s.hist s.rings s.msixA s.msixB s.mbx s.silt s.msgPages s.pb s.gpio s.ports s.ptp s.power s.prs s.tables s.policing v0 s.nextFrame s.fab s.egress s.buses s.gwe s.cipher s.keys s.twin s.sl s.faults s.upd s.nvm s.out s.free where
  pending := h.pending
  cclk := h.cclk
  mode := h.mode
  regs := h.regs
  latched := h.latched
  held := h.held
  ctrlLockA := h.ctrlLockA
  ctrlLockB := h.ctrlLockB
  shadows := h.shadows
  commits := h.commits
  partNo := h.partNo
  hist := h.hist
  rings := h.rings
  msixA := h.msixA
  msixB := h.msixB
  mbx := h.mbx
  silt := h.silt
  msgPages := h.msgPages
  pb := h.pb
  gpio := h.gpio
  ports := h.ports
  ptp := h.ptp
  power := h.power
  prs := h.prs
  tables := h.tables
  policing := h.policing
  frames := .inl (bitm hF rfl)
  nextFrame := h.nextFrame
  fab := h.fab
  egress := h.egress
  buses := h.buses
  gwe := h.gwe
  cipher := h.cipher
  keys := h.keys
  twin := h.twin
  sl := h.sl
  faults := h.faults
  upd := h.upd
  nvm := h.nvm
  out := h.out
  free := h.free

theorem fr_mk_134217728 {F : Nat} {b s : State} {v0} (hF : 134217728 ||| F = F) (h : Frm F b s) :
    FrmF F b s.pending s.cclk s.mode s.regs s.latched s.held s.ctrlLockA s.ctrlLockB s.shadows s.commits s.partNo s.hist s.rings s.msixA s.msixB s.mbx s.silt s.msgPages s.pb s.gpio s.ports s.ptp s.power s.prs s.tables s.policing s.frames v0 s.fab s.egress s.buses s.gwe s.cipher s.keys s.twin s.sl s.faults s.upd s.nvm s.out s.free where
  pending := h.pending
  cclk := h.cclk
  mode := h.mode
  regs := h.regs
  latched := h.latched
  held := h.held
  ctrlLockA := h.ctrlLockA
  ctrlLockB := h.ctrlLockB
  shadows := h.shadows
  commits := h.commits
  partNo := h.partNo
  hist := h.hist
  rings := h.rings
  msixA := h.msixA
  msixB := h.msixB
  mbx := h.mbx
  silt := h.silt
  msgPages := h.msgPages
  pb := h.pb
  gpio := h.gpio
  ports := h.ports
  ptp := h.ptp
  power := h.power
  prs := h.prs
  tables := h.tables
  policing := h.policing
  frames := h.frames
  nextFrame := .inl (bitm hF rfl)
  fab := h.fab
  egress := h.egress
  buses := h.buses
  gwe := h.gwe
  cipher := h.cipher
  keys := h.keys
  twin := h.twin
  sl := h.sl
  faults := h.faults
  upd := h.upd
  nvm := h.nvm
  out := h.out
  free := h.free

theorem fr_mk_268435456 {F : Nat} {b s : State} {v0} (hF : 268435456 ||| F = F) (h : Frm F b s) :
    FrmF F b s.pending s.cclk s.mode s.regs s.latched s.held s.ctrlLockA s.ctrlLockB s.shadows s.commits s.partNo s.hist s.rings s.msixA s.msixB s.mbx s.silt s.msgPages s.pb s.gpio s.ports s.ptp s.power s.prs s.tables s.policing s.frames s.nextFrame v0 s.egress s.buses s.gwe s.cipher s.keys s.twin s.sl s.faults s.upd s.nvm s.out s.free where
  pending := h.pending
  cclk := h.cclk
  mode := h.mode
  regs := h.regs
  latched := h.latched
  held := h.held
  ctrlLockA := h.ctrlLockA
  ctrlLockB := h.ctrlLockB
  shadows := h.shadows
  commits := h.commits
  partNo := h.partNo
  hist := h.hist
  rings := h.rings
  msixA := h.msixA
  msixB := h.msixB
  mbx := h.mbx
  silt := h.silt
  msgPages := h.msgPages
  pb := h.pb
  gpio := h.gpio
  ports := h.ports
  ptp := h.ptp
  power := h.power
  prs := h.prs
  tables := h.tables
  policing := h.policing
  frames := h.frames
  nextFrame := h.nextFrame
  fab := .inl (bitm hF rfl)
  egress := h.egress
  buses := h.buses
  gwe := h.gwe
  cipher := h.cipher
  keys := h.keys
  twin := h.twin
  sl := h.sl
  faults := h.faults
  upd := h.upd
  nvm := h.nvm
  out := h.out
  free := h.free

theorem fr_mk_335544320 {F : Nat} {b s : State} {v0 v1} (hF : 335544320 ||| F = F) (h : Frm F b s) :
    FrmF F b s.pending s.cclk s.mode s.regs s.latched s.held s.ctrlLockA s.ctrlLockB s.shadows s.commits s.partNo s.hist s.rings s.msixA s.msixB s.mbx s.silt s.msgPages s.pb s.gpio s.ports s.ptp s.power s.prs s.tables s.policing v0 s.nextFrame v1 s.egress s.buses s.gwe s.cipher s.keys s.twin s.sl s.faults s.upd s.nvm s.out s.free where
  pending := h.pending
  cclk := h.cclk
  mode := h.mode
  regs := h.regs
  latched := h.latched
  held := h.held
  ctrlLockA := h.ctrlLockA
  ctrlLockB := h.ctrlLockB
  shadows := h.shadows
  commits := h.commits
  partNo := h.partNo
  hist := h.hist
  rings := h.rings
  msixA := h.msixA
  msixB := h.msixB
  mbx := h.mbx
  silt := h.silt
  msgPages := h.msgPages
  pb := h.pb
  gpio := h.gpio
  ports := h.ports
  ptp := h.ptp
  power := h.power
  prs := h.prs
  tables := h.tables
  policing := h.policing
  frames := .inl (bitm hF rfl)
  nextFrame := h.nextFrame
  fab := .inl (bitm hF rfl)
  egress := h.egress
  buses := h.buses
  gwe := h.gwe
  cipher := h.cipher
  keys := h.keys
  twin := h.twin
  sl := h.sl
  faults := h.faults
  upd := h.upd
  nvm := h.nvm
  out := h.out
  free := h.free

theorem fr_mk_536870912 {F : Nat} {b s : State} {v0} (hF : 536870912 ||| F = F) (h : Frm F b s) :
    FrmF F b s.pending s.cclk s.mode s.regs s.latched s.held s.ctrlLockA s.ctrlLockB s.shadows s.commits s.partNo s.hist s.rings s.msixA s.msixB s.mbx s.silt s.msgPages s.pb s.gpio s.ports s.ptp s.power s.prs s.tables s.policing s.frames s.nextFrame s.fab v0 s.buses s.gwe s.cipher s.keys s.twin s.sl s.faults s.upd s.nvm s.out s.free where
  pending := h.pending
  cclk := h.cclk
  mode := h.mode
  regs := h.regs
  latched := h.latched
  held := h.held
  ctrlLockA := h.ctrlLockA
  ctrlLockB := h.ctrlLockB
  shadows := h.shadows
  commits := h.commits
  partNo := h.partNo
  hist := h.hist
  rings := h.rings
  msixA := h.msixA
  msixB := h.msixB
  mbx := h.mbx
  silt := h.silt
  msgPages := h.msgPages
  pb := h.pb
  gpio := h.gpio
  ports := h.ports
  ptp := h.ptp
  power := h.power
  prs := h.prs
  tables := h.tables
  policing := h.policing
  frames := h.frames
  nextFrame := h.nextFrame
  fab := h.fab
  egress := .inl (bitm hF rfl)
  buses := h.buses
  gwe := h.gwe
  cipher := h.cipher
  keys := h.keys
  twin := h.twin
  sl := h.sl
  faults := h.faults
  upd := h.upd
  nvm := h.nvm
  out := h.out
  free := h.free

theorem fr_mk_1073741824 {F : Nat} {b s : State} {v0} (hF : 1073741824 ||| F = F) (h : Frm F b s) :
    FrmF F b s.pending s.cclk s.mode s.regs s.latched s.held s.ctrlLockA s.ctrlLockB s.shadows s.commits s.partNo s.hist s.rings s.msixA s.msixB s.mbx s.silt s.msgPages s.pb s.gpio s.ports s.ptp s.power s.prs s.tables s.policing s.frames s.nextFrame s.fab s.egress v0 s.gwe s.cipher s.keys s.twin s.sl s.faults s.upd s.nvm s.out s.free where
  pending := h.pending
  cclk := h.cclk
  mode := h.mode
  regs := h.regs
  latched := h.latched
  held := h.held
  ctrlLockA := h.ctrlLockA
  ctrlLockB := h.ctrlLockB
  shadows := h.shadows
  commits := h.commits
  partNo := h.partNo
  hist := h.hist
  rings := h.rings
  msixA := h.msixA
  msixB := h.msixB
  mbx := h.mbx
  silt := h.silt
  msgPages := h.msgPages
  pb := h.pb
  gpio := h.gpio
  ports := h.ports
  ptp := h.ptp
  power := h.power
  prs := h.prs
  tables := h.tables
  policing := h.policing
  frames := h.frames
  nextFrame := h.nextFrame
  fab := h.fab
  egress := h.egress
  buses := .inl (bitm hF rfl)
  gwe := h.gwe
  cipher := h.cipher
  keys := h.keys
  twin := h.twin
  sl := h.sl
  faults := h.faults
  upd := h.upd
  nvm := h.nvm
  out := h.out
  free := h.free

theorem fr_mk_2147483648 {F : Nat} {b s : State} {v0} (hF : 2147483648 ||| F = F) (h : Frm F b s) :
    FrmF F b s.pending s.cclk s.mode s.regs s.latched s.held s.ctrlLockA s.ctrlLockB s.shadows s.commits s.partNo s.hist s.rings s.msixA s.msixB s.mbx s.silt s.msgPages s.pb s.gpio s.ports s.ptp s.power s.prs s.tables s.policing s.frames s.nextFrame s.fab s.egress s.buses v0 s.cipher s.keys s.twin s.sl s.faults s.upd s.nvm s.out s.free where
  pending := h.pending
  cclk := h.cclk
  mode := h.mode
  regs := h.regs
  latched := h.latched
  held := h.held
  ctrlLockA := h.ctrlLockA
  ctrlLockB := h.ctrlLockB
  shadows := h.shadows
  commits := h.commits
  partNo := h.partNo
  hist := h.hist
  rings := h.rings
  msixA := h.msixA
  msixB := h.msixB
  mbx := h.mbx
  silt := h.silt
  msgPages := h.msgPages
  pb := h.pb
  gpio := h.gpio
  ports := h.ports
  ptp := h.ptp
  power := h.power
  prs := h.prs
  tables := h.tables
  policing := h.policing
  frames := h.frames
  nextFrame := h.nextFrame
  fab := h.fab
  egress := h.egress
  buses := h.buses
  gwe := .inl (bitm hF rfl)
  cipher := h.cipher
  keys := h.keys
  twin := h.twin
  sl := h.sl
  faults := h.faults
  upd := h.upd
  nvm := h.nvm
  out := h.out
  free := h.free

theorem fr_mk_2424307712 {F : Nat} {b s : State} {v0 v1 v2} (hF : 2424307712 ||| F = F) (h : Frm F b s) :
    FrmF F b s.pending s.cclk s.mode s.regs s.latched s.held s.ctrlLockA s.ctrlLockB s.shadows s.commits s.partNo s.hist s.rings s.msixA s.msixB s.mbx s.silt s.msgPages s.pb s.gpio s.ports s.ptp s.power v0 s.tables s.policing s.frames s.nextFrame v1 s.egress s.buses v2 s.cipher s.keys s.twin s.sl s.faults s.upd s.nvm s.out s.free where
  pending := h.pending
  cclk := h.cclk
  mode := h.mode
  regs := h.regs
  latched := h.latched
  held := h.held
  ctrlLockA := h.ctrlLockA
  ctrlLockB := h.ctrlLockB
  shadows := h.shadows
  commits := h.commits
  partNo := h.partNo
  hist := h.hist
  rings := h.rings
  msixA := h.msixA
  msixB := h.msixB
  mbx := h.mbx
  silt := h.silt
  msgPages := h.msgPages
  pb := h.pb
  gpio := h.gpio
  ports := h.ports
  ptp := h.ptp
  power := h.power
  prs := .inl (bitm hF rfl)
  tables := h.tables
  policing := h.policing
  frames := h.frames
  nextFrame := h.nextFrame
  fab := .inl (bitm hF rfl)
  egress := h.egress
  buses := h.buses
  gwe := .inl (bitm hF rfl)
  cipher := h.cipher
  keys := h.keys
  twin := h.twin
  sl := h.sl
  faults := h.faults
  upd := h.upd
  nvm := h.nvm
  out := h.out
  free := h.free

theorem fr_mk_4294967296 {F : Nat} {b s : State} {v0} (hF : 4294967296 ||| F = F) (h : Frm F b s) :
    FrmF F b s.pending s.cclk s.mode s.regs s.latched s.held s.ctrlLockA s.ctrlLockB s.shadows s.commits s.partNo s.hist s.rings s.msixA s.msixB s.mbx s.silt s.msgPages s.pb s.gpio s.ports s.ptp s.power s.prs s.tables s.policing s.frames s.nextFrame s.fab s.egress s.buses s.gwe v0 s.keys s.twin s.sl s.faults s.upd s.nvm s.out s.free where
  pending := h.pending
  cclk := h.cclk
  mode := h.mode
  regs := h.regs
  latched := h.latched
  held := h.held
  ctrlLockA := h.ctrlLockA
  ctrlLockB := h.ctrlLockB
  shadows := h.shadows
  commits := h.commits
  partNo := h.partNo
  hist := h.hist
  rings := h.rings
  msixA := h.msixA
  msixB := h.msixB
  mbx := h.mbx
  silt := h.silt
  msgPages := h.msgPages
  pb := h.pb
  gpio := h.gpio
  ports := h.ports
  ptp := h.ptp
  power := h.power
  prs := h.prs
  tables := h.tables
  policing := h.policing
  frames := h.frames
  nextFrame := h.nextFrame
  fab := h.fab
  egress := h.egress
  buses := h.buses
  gwe := h.gwe
  cipher := .inl (bitm hF rfl)
  keys := h.keys
  twin := h.twin
  sl := h.sl
  faults := h.faults
  upd := h.upd
  nvm := h.nvm
  out := h.out
  free := h.free

theorem fr_mk_8589934592 {F : Nat} {b s : State} {v0} (hF : 8589934592 ||| F = F) (h : Frm F b s) :
    FrmF F b s.pending s.cclk s.mode s.regs s.latched s.held s.ctrlLockA s.ctrlLockB s.shadows s.commits s.partNo s.hist s.rings s.msixA s.msixB s.mbx s.silt s.msgPages s.pb s.gpio s.ports s.ptp s.power s.prs s.tables s.policing s.frames s.nextFrame s.fab s.egress s.buses s.gwe s.cipher v0 s.twin s.sl s.faults s.upd s.nvm s.out s.free where
  pending := h.pending
  cclk := h.cclk
  mode := h.mode
  regs := h.regs
  latched := h.latched
  held := h.held
  ctrlLockA := h.ctrlLockA
  ctrlLockB := h.ctrlLockB
  shadows := h.shadows
  commits := h.commits
  partNo := h.partNo
  hist := h.hist
  rings := h.rings
  msixA := h.msixA
  msixB := h.msixB
  mbx := h.mbx
  silt := h.silt
  msgPages := h.msgPages
  pb := h.pb
  gpio := h.gpio
  ports := h.ports
  ptp := h.ptp
  power := h.power
  prs := h.prs
  tables := h.tables
  policing := h.policing
  frames := h.frames
  nextFrame := h.nextFrame
  fab := h.fab
  egress := h.egress
  buses := h.buses
  gwe := h.gwe
  cipher := h.cipher
  keys := .inl (bitm hF rfl)
  twin := h.twin
  sl := h.sl
  faults := h.faults
  upd := h.upd
  nvm := h.nvm
  out := h.out
  free := h.free

theorem fr_mk_17179869184 {F : Nat} {b s : State} {v0} (hF : 17179869184 ||| F = F) (h : Frm F b s) :
    FrmF F b s.pending s.cclk s.mode s.regs s.latched s.held s.ctrlLockA s.ctrlLockB s.shadows s.commits s.partNo s.hist s.rings s.msixA s.msixB s.mbx s.silt s.msgPages s.pb s.gpio s.ports s.ptp s.power s.prs s.tables s.policing s.frames s.nextFrame s.fab s.egress s.buses s.gwe s.cipher s.keys v0 s.sl s.faults s.upd s.nvm s.out s.free where
  pending := h.pending
  cclk := h.cclk
  mode := h.mode
  regs := h.regs
  latched := h.latched
  held := h.held
  ctrlLockA := h.ctrlLockA
  ctrlLockB := h.ctrlLockB
  shadows := h.shadows
  commits := h.commits
  partNo := h.partNo
  hist := h.hist
  rings := h.rings
  msixA := h.msixA
  msixB := h.msixB
  mbx := h.mbx
  silt := h.silt
  msgPages := h.msgPages
  pb := h.pb
  gpio := h.gpio
  ports := h.ports
  ptp := h.ptp
  power := h.power
  prs := h.prs
  tables := h.tables
  policing := h.policing
  frames := h.frames
  nextFrame := h.nextFrame
  fab := h.fab
  egress := h.egress
  buses := h.buses
  gwe := h.gwe
  cipher := h.cipher
  keys := h.keys
  twin := .inl (bitm hF rfl)
  sl := h.sl
  faults := h.faults
  upd := h.upd
  nvm := h.nvm
  out := h.out
  free := h.free

theorem fr_mk_17179869696 {F : Nat} {b s : State} {v0 v1} (hF : 17179869696 ||| F = F) (h : Frm F b s) :
    FrmF F b s.pending s.cclk s.mode s.regs s.latched s.held s.ctrlLockA s.ctrlLockB s.shadows v0 s.partNo s.hist s.rings s.msixA s.msixB s.mbx s.silt s.msgPages s.pb s.gpio s.ports s.ptp s.power s.prs s.tables s.policing s.frames s.nextFrame s.fab s.egress s.buses s.gwe s.cipher s.keys v1 s.sl s.faults s.upd s.nvm s.out s.free where
  pending := h.pending
  cclk := h.cclk
  mode := h.mode
  regs := h.regs
  latched := h.latched
  held := h.held
  ctrlLockA := h.ctrlLockA
  ctrlLockB := h.ctrlLockB
  shadows := h.shadows
  commits := .inl (bitm hF rfl)
  partNo := h.partNo
  hist := h.hist
  rings := h.rings
  msixA := h.msixA
  msixB := h.msixB
  mbx := h.mbx
  silt := h.silt
  msgPages := h.msgPages
  pb := h.pb
  gpio := h.gpio
  ports := h.ports
  ptp := h.ptp
  power := h.power
  prs := h.prs
  tables := h.tables
  policing := h.policing
  frames := h.frames
  nextFrame := h.nextFrame
  fab := h.fab
  egress := h.egress
  buses := h.buses
  gwe := h.gwe
  cipher := h.cipher
  keys := h.keys
  twin := .inl (bitm hF rfl)
  sl := h.sl
  faults := h.faults
  upd := h.upd
  nvm := h.nvm
  out := h.out
  free := h.free

theorem fr_mk_17180131328 {F : Nat} {b s : State} {v0 v1} (hF : 17180131328 ||| F = F) (h : Frm F b s) :
    FrmF F b s.pending s.cclk s.mode s.regs s.latched s.held s.ctrlLockA s.ctrlLockB s.shadows s.commits s.partNo s.hist s.rings s.msixA s.msixB s.mbx s.silt s.msgPages v0 s.gpio s.ports s.ptp s.power s.prs s.tables s.policing s.frames s.nextFrame s.fab s.egress s.buses s.gwe s.cipher s.keys v1 s.sl s.faults s.upd s.nvm s.out s.free where
  pending := h.pending
  cclk := h.cclk
  mode := h.mode
  regs := h.regs
  latched := h.latched
  held := h.held
  ctrlLockA := h.ctrlLockA
  ctrlLockB := h.ctrlLockB
  shadows := h.shadows
  commits := h.commits
  partNo := h.partNo
  hist := h.hist
  rings := h.rings
  msixA := h.msixA
  msixB := h.msixB
  mbx := h.mbx
  silt := h.silt
  msgPages := h.msgPages
  pb := .inl (bitm hF rfl)
  gpio := h.gpio
  ports := h.ports
  ptp := h.ptp
  power := h.power
  prs := h.prs
  tables := h.tables
  policing := h.policing
  frames := h.frames
  nextFrame := h.nextFrame
  fab := h.fab
  egress := h.egress
  buses := h.buses
  gwe := h.gwe
  cipher := h.cipher
  keys := h.keys
  twin := .inl (bitm hF rfl)
  sl := h.sl
  faults := h.faults
  upd := h.upd
  nvm := h.nvm
  out := h.out
  free := h.free

theorem fr_mk_19327352832 {F : Nat} {b s : State} {v0 v1} (hF : 19327352832 ||| F = F) (h : Frm F b s) :
    FrmF F b s.pending s.cclk s.mode s.regs s.latched s.held s.ctrlLockA s.ctrlLockB s.shadows s.commits s.partNo s.hist s.rings s.msixA s.msixB s.mbx s.silt s.msgPages s.pb s.gpio s.ports s.ptp s.power s.prs s.tables s.policing s.frames s.nextFrame s.fab s.egress s.buses v0 s.cipher s.keys v1 s.sl s.faults s.upd s.nvm s.out s.free where
  pending := h.pending
  cclk := h.cclk
  mode := h.mode
  regs := h.regs
  latched := h.latched
  held := h.held
  ctrlLockA := h.ctrlLockA
  ctrlLockB := h.ctrlLockB
  shadows := h.shadows
  commits := h.commits
  partNo := h.partNo
  hist := h.hist
  rings := h.rings
  msixA := h.msixA
  msixB := h.msixB
  mbx := h.mbx
  silt := h.silt
  msgPages := h.msgPages
  pb := h.pb
  gpio := h.gpio
  ports := h.ports
  ptp := h.ptp
  power := h.power
  prs := h.prs
  tables := h.tables
  policing := h.policing
  frames := h.frames
  nextFrame := h.nextFrame
  fab := h.fab
  egress := h.egress
  buses := h.buses
  gwe := .inl (bitm hF rfl)
  cipher := h.cipher
  keys := h.keys
  twin := .inl (bitm hF rfl)
  sl := h.sl
  faults := h.faults
  upd := h.upd
  nvm := h.nvm
  out := h.out
  free := h.free

theorem fr_mk_19360907264 {F : Nat} {b s : State} {v0 v1 v2} (hF : 19360907264 ||| F = F) (h : Frm F b s) :
    FrmF F b s.pending s.cclk s.mode s.regs s.latched s.held s.ctrlLockA s.ctrlLockB s.shadows s.commits s.partNo s.hist s.rings s.msixA s.msixB s.mbx s.silt s.msgPages s.pb s.gpio s.ports s.ptp s.power s.prs s.tables v0 s.frames s.nextFrame s.fab s.egress s.buses v1 s.cipher s.keys v2 s.sl s.faults s.upd s.nvm s.out s.free where
  pending := h.pending
  cclk := h.cclk
  mode := h.mode
  regs := h.regs
  latched := h.latched
  held := h.held
  ctrlLockA := h.ctrlLockA
  ctrlLockB := h.ctrlLockB
  shadows := h.shadows
  commits := h.commits
  partNo := h.partNo
  hist := h.hist
  rings := h.rings
  msixA := h.msixA
  msixB := h.msixB
  mbx := h.mbx
  silt := h.silt
  msgPages := h.msgPages
  pb := h.pb
  gpio := h.gpio
  ports := h.ports
  ptp := h.ptp
  power := h.power
  prs := h.prs
  tables := h.tables
  policing := .inl (bitm hF rfl)
  frames := h.frames
  nextFrame := h.nextFrame
  fab := h.fab
  egress := h.egress
  buses := h.buses
  gwe := .inl (bitm hF rfl)
  cipher := h.cipher
  keys := h.keys
  twin := .inl (bitm hF rfl)
  sl := h.sl
  faults := h.faults
  upd := h.upd
  nvm := h.nvm
  out := h.out
  free := h.free

theorem fr_mk_34359738368 {F : Nat} {b s : State} {v0} (hF : 34359738368 ||| F = F) (h : Frm F b s) :
    FrmF F b s.pending s.cclk s.mode s.regs s.latched s.held s.ctrlLockA s.ctrlLockB s.shadows s.commits s.partNo s.hist s.rings s.msixA s.msixB s.mbx s.silt s.msgPages s.pb s.gpio s.ports s.ptp s.power s.prs s.tables s.policing s.frames s.nextFrame s.fab s.egress s.buses s.gwe s.cipher s.keys s.twin v0 s.faults s.upd s.nvm s.out s.free where
  pending := h.pending
  cclk := h.cclk
  mode := h.mode
  regs := h.regs
  latched := h.latched
  held := h.held
  ctrlLockA := h.ctrlLockA
  ctrlLockB := h.ctrlLockB
  shadows := h.shadows
  commits := h.commits
  partNo := h.partNo
  hist := h.hist
  rings := h.rings
  msixA := h.msixA
  msixB := h.msixB
  mbx := h.mbx
  silt := h.silt
  msgPages := h.msgPages
  pb := h.pb
  gpio := h.gpio
  ports := h.ports
  ptp := h.ptp
  power := h.power
  prs := h.prs
  tables := h.tables
  policing := h.policing
  frames := h.frames
  nextFrame := h.nextFrame
  fab := h.fab
  egress := h.egress
  buses := h.buses
  gwe := h.gwe
  cipher := h.cipher
  keys := h.keys
  twin := h.twin
  sl := .inl (bitm hF rfl)
  faults := h.faults
  upd := h.upd
  nvm := h.nvm
  out := h.out
  free := h.free

theorem fr_mk_68719476736 {F : Nat} {b s : State} {v0} (hF : 68719476736 ||| F = F) (h : Frm F b s) :
    FrmF F b s.pending s.cclk s.mode s.regs s.latched s.held s.ctrlLockA s.ctrlLockB s.shadows s.commits s.partNo s.hist s.rings s.msixA s.msixB s.mbx s.silt s.msgPages s.pb s.gpio s.ports s.ptp s.power s.prs s.tables s.policing s.frames s.nextFrame s.fab s.egress s.buses s.gwe s.cipher s.keys s.twin s.sl v0 s.upd s.nvm s.out s.free where
  pending := h.pending
  cclk := h.cclk
  mode := h.mode
  regs := h.regs
  latched := h.latched
  held := h.held
  ctrlLockA := h.ctrlLockA
  ctrlLockB := h.ctrlLockB
  shadows := h.shadows
  commits := h.commits
  partNo := h.partNo
  hist := h.hist
  rings := h.rings
  msixA := h.msixA
  msixB := h.msixB
  mbx := h.mbx
  silt := h.silt
  msgPages := h.msgPages
  pb := h.pb
  gpio := h.gpio
  ports := h.ports
  ptp := h.ptp
  power := h.power
  prs := h.prs
  tables := h.tables
  policing := h.policing
  frames := h.frames
  nextFrame := h.nextFrame
  fab := h.fab
  egress := h.egress
  buses := h.buses
  gwe := h.gwe
  cipher := h.cipher
  keys := h.keys
  twin := h.twin
  sl := h.sl
  faults := .inl (bitm hF rfl)
  upd := h.upd
  nvm := h.nvm
  out := h.out
  free := h.free

theorem fr_mk_68723671040 {F : Nat} {b s : State} {v0 v1} (hF : 68723671040 ||| F = F) (h : Frm F b s) :
    FrmF F b s.pending s.cclk s.mode s.regs s.latched s.held s.ctrlLockA s.ctrlLockB s.shadows s.commits s.partNo s.hist s.rings s.msixA s.msixB s.mbx s.silt s.msgPages s.pb s.gpio s.ports s.ptp v0 s.prs s.tables s.policing s.frames s.nextFrame s.fab s.egress s.buses s.gwe s.cipher s.keys s.twin s.sl v1 s.upd s.nvm s.out s.free where
  pending := h.pending
  cclk := h.cclk
  mode := h.mode
  regs := h.regs
  latched := h.latched
  held := h.held
  ctrlLockA := h.ctrlLockA
  ctrlLockB := h.ctrlLockB
  shadows := h.shadows
  commits := h.commits
  partNo := h.partNo
  hist := h.hist
  rings := h.rings
  msixA := h.msixA
  msixB := h.msixB
  mbx := h.mbx
  silt := h.silt
  msgPages := h.msgPages
  pb := h.pb
  gpio := h.gpio
  ports := h.ports
  ptp := h.ptp
  power := .inl (bitm hF rfl)
  prs := h.prs
  tables := h.tables
  policing := h.policing
  frames := h.frames
  nextFrame := h.nextFrame
  fab := h.fab
  egress := h.egress
  buses := h.buses
  gwe := h.gwe
  cipher := h.cipher
  keys := h.keys
  twin := h.twin
  sl := h.sl
  faults := .inl (bitm hF rfl)
  upd := h.upd
  nvm := h.nvm
  out := h.out
  free := h.free

theorem fr_mk_85899345920 {F : Nat} {b s : State} {v0 v1} (hF : 85899345920 ||| F = F) (h : Frm F b s) :
    FrmF F b s.pending s.cclk s.mode s.regs s.latched s.held s.ctrlLockA s.ctrlLockB s.shadows s.commits s.partNo s.hist s.rings s.msixA s.msixB s.mbx s.silt s.msgPages s.pb s.gpio s.ports s.ptp s.power s.prs s.tables s.policing s.frames s.nextFrame s.fab s.egress s.buses s.gwe s.cipher s.keys v0 s.sl v1 s.upd s.nvm s.out s.free where
  pending := h.pending
  cclk := h.cclk
  mode := h.mode
  regs := h.regs
  latched := h.latched
  held := h.held
  ctrlLockA := h.ctrlLockA
  ctrlLockB := h.ctrlLockB
  shadows := h.shadows
  commits := h.commits
  partNo := h.partNo
  hist := h.hist
  rings := h.rings
  msixA := h.msixA
  msixB := h.msixB
  mbx := h.mbx
  silt := h.silt
  msgPages := h.msgPages
  pb := h.pb
  gpio := h.gpio
  ports := h.ports
  ptp := h.ptp
  power := h.power
  prs := h.prs
  tables := h.tables
  policing := h.policing
  frames := h.frames
  nextFrame := h.nextFrame
  fab := h.fab
  egress := h.egress
  buses := h.buses
  gwe := h.gwe
  cipher := h.cipher
  keys := h.keys
  twin := .inl (bitm hF rfl)
  sl := h.sl
  faults := .inl (bitm hF rfl)
  upd := h.upd
  nvm := h.nvm
  out := h.out
  free := h.free

theorem fr_mk_137438953472 {F : Nat} {b s : State} {v0} (hF : 137438953472 ||| F = F) (h : Frm F b s) :
    FrmF F b s.pending s.cclk s.mode s.regs s.latched s.held s.ctrlLockA s.ctrlLockB s.shadows s.commits s.partNo s.hist s.rings s.msixA s.msixB s.mbx s.silt s.msgPages s.pb s.gpio s.ports s.ptp s.power s.prs s.tables s.policing s.frames s.nextFrame s.fab s.egress s.buses s.gwe s.cipher s.keys s.twin s.sl s.faults v0 s.nvm s.out s.free where
  pending := h.pending
  cclk := h.cclk
  mode := h.mode
  regs := h.regs
  latched := h.latched
  held := h.held
  ctrlLockA := h.ctrlLockA
  ctrlLockB := h.ctrlLockB
  shadows := h.shadows
  commits := h.commits
  partNo := h.partNo
  hist := h.hist
  rings := h.rings
  msixA := h.msixA
  msixB := h.msixB
  mbx := h.mbx
  silt := h.silt
  msgPages := h.msgPages
  pb := h.pb
  gpio := h.gpio
  ports := h.ports
  ptp := h.ptp
  power := h.power
  prs := h.prs
  tables := h.tables
  policing := h.policing
  frames := h.frames
  nextFrame := h.nextFrame
  fab := h.fab
  egress := h.egress
  buses := h.buses
  gwe := h.gwe
  cipher := h.cipher
  keys := h.keys
  twin := h.twin
  sl := h.sl
  faults := h.faults
  upd := .inl (bitm hF rfl)
  nvm := h.nvm
  out := h.out
  free := h.free

theorem fr_mk_137443147776 {F : Nat} {b s : State} {v0 v1} (hF : 137443147776 ||| F = F) (h : Frm F b s) :
    FrmF F b s.pending s.cclk s.mode s.regs s.latched s.held s.ctrlLockA s.ctrlLockB s.shadows s.commits s.partNo s.hist s.rings s.msixA s.msixB s.mbx s.silt s.msgPages s.pb s.gpio s.ports s.ptp v0 s.prs s.tables s.policing s.frames s.nextFrame s.fab s.egress s.buses s.gwe s.cipher s.keys s.twin s.sl s.faults v1 s.nvm s.out s.free where
  pending := h.pending
  cclk := h.cclk
  mode := h.mode
  regs := h.regs
  latched := h.latched
  held := h.held
  ctrlLockA := h.ctrlLockA
  ctrlLockB := h.ctrlLockB
  shadows := h.shadows
  commits := h.commits
  partNo := h.partNo
  hist := h.hist
  rings := h.rings
  msixA := h.msixA
  msixB := h.msixB
  mbx := h.mbx
  silt := h.silt
  msgPages := h.msgPages
  pb := h.pb
  gpio := h.gpio
  ports := h.ports
  ptp := h.ptp
  power := .inl (bitm hF rfl)
  prs := h.prs
  tables := h.tables
  policing := h.policing
  frames := h.frames
  nextFrame := h.nextFrame
  fab := h.fab
  egress := h.egress
  buses := h.buses
  gwe := h.gwe
  cipher := h.cipher
  keys := h.keys
  twin := h.twin
  sl := h.sl
  faults := h.faults
  upd := .inl (bitm hF rfl)
  nvm := h.nvm
  out := h.out
  free := h.free

theorem fr_mk_274877906944 {F : Nat} {b s : State} {v0} (hF : 274877906944 ||| F = F) (h : Frm F b s) :
    FrmF F b s.pending s.cclk s.mode s.regs s.latched s.held s.ctrlLockA s.ctrlLockB s.shadows s.commits s.partNo s.hist s.rings s.msixA s.msixB s.mbx s.silt s.msgPages s.pb s.gpio s.ports s.ptp s.power s.prs s.tables s.policing s.frames s.nextFrame s.fab s.egress s.buses s.gwe s.cipher s.keys s.twin s.sl s.faults s.upd v0 s.out s.free where
  pending := h.pending
  cclk := h.cclk
  mode := h.mode
  regs := h.regs
  latched := h.latched
  held := h.held
  ctrlLockA := h.ctrlLockA
  ctrlLockB := h.ctrlLockB
  shadows := h.shadows
  commits := h.commits
  partNo := h.partNo
  hist := h.hist
  rings := h.rings
  msixA := h.msixA
  msixB := h.msixB
  mbx := h.mbx
  silt := h.silt
  msgPages := h.msgPages
  pb := h.pb
  gpio := h.gpio
  ports := h.ports
  ptp := h.ptp
  power := h.power
  prs := h.prs
  tables := h.tables
  policing := h.policing
  frames := h.frames
  nextFrame := h.nextFrame
  fab := h.fab
  egress := h.egress
  buses := h.buses
  gwe := h.gwe
  cipher := h.cipher
  keys := h.keys
  twin := h.twin
  sl := h.sl
  faults := h.faults
  upd := h.upd
  nvm := .inl (bitm hF rfl)
  out := h.out
  free := h.free

theorem fr_mk_274882101248 {F : Nat} {b s : State} {v0 v1} (hF : 274882101248 ||| F = F) (h : Frm F b s) :
    FrmF F b s.pending s.cclk s.mode s.regs s.latched s.held s.ctrlLockA s.ctrlLockB s.shadows s.commits s.partNo s.hist s.rings s.msixA s.msixB s.mbx s.silt s.msgPages s.pb s.gpio s.ports s.ptp v0 s.prs s.tables s.policing s.frames s.nextFrame s.fab s.egress s.buses s.gwe s.cipher s.keys s.twin s.sl s.faults s.upd v1 s.out s.free where
  pending := h.pending
  cclk := h.cclk
  mode := h.mode
  regs := h.regs
  latched := h.latched
  held := h.held
  ctrlLockA := h.ctrlLockA
  ctrlLockB := h.ctrlLockB
  shadows := h.shadows
  commits := h.commits
  partNo := h.partNo
  hist := h.hist
  rings := h.rings
  msixA := h.msixA
  msixB := h.msixB
  mbx := h.mbx
  silt := h.silt
  msgPages := h.msgPages
  pb := h.pb
  gpio := h.gpio
  ports := h.ports
  ptp := h.ptp
  power := .inl (bitm hF rfl)
  prs := h.prs
  tables := h.tables
  policing := h.policing
  frames := h.frames
  nextFrame := h.nextFrame
  fab := h.fab
  egress := h.egress
  buses := h.buses
  gwe := h.gwe
  cipher := h.cipher
  keys := h.keys
  twin := h.twin
  sl := h.sl
  faults := h.faults
  upd := h.upd
  nvm := .inl (bitm hF rfl)
  out := h.out
  free := h.free

theorem fr_mk_275951648768 {F : Nat} {b s : State} {v0 v1} (hF : 275951648768 ||| F = F) (h : Frm F b s) :
    FrmF F b s.pending s.cclk s.mode s.regs s.latched s.held s.ctrlLockA s.ctrlLockB s.shadows s.commits s.partNo s.hist s.rings s.msixA s.msixB s.mbx s.silt s.msgPages s.pb s.gpio s.ports s.ptp s.power s.prs s.tables s.policing s.frames s.nextFrame s.fab s.egress v0 s.gwe s.cipher s.keys s.twin s.sl s.faults s.upd v1 s.out s.free where
  pending := h.pending
  cclk := h.cclk
  mode := h.mode
  regs := h.regs
  latched := h.latched
  held := h.held
  ctrlLockA := h.ctrlLockA
  ctrlLockB := h.ctrlLockB
  shadows := h.shadows
  commits := h.commits
  partNo := h.partNo
  hist := h.hist
  rings := h.rings
  msixA := h.msixA
  msixB := h.msixB
  mbx := h.mbx
  silt := h.silt
  msgPages := h.msgPages
  pb := h.pb
  gpio := h.gpio
  ports := h.ports
  ptp := h.ptp
  power := h.power
  prs := h.prs
  tables := h.tables
  policing := h.policing
  frames := h.frames
  nextFrame := h.nextFrame
  fab := h.fab
  egress := h.egress
  buses := .inl (bitm hF rfl)
  gwe := h.gwe
  cipher := h.cipher
  keys := h.keys
  twin := h.twin
  sl := h.sl
  faults := h.faults
  upd := h.upd
  nvm := .inl (bitm hF rfl)
  out := h.out
  free := h.free

theorem fr_mk_283467841536 {F : Nat} {b s : State} {v0 v1} (hF : 283467841536 ||| F = F) (h : Frm F b s) :
    FrmF F b s.pending s.cclk s.mode s.regs s.latched s.held s.ctrlLockA s.ctrlLockB s.shadows s.commits s.partNo s.hist s.rings s.msixA s.msixB s.mbx s.silt s.msgPages s.pb s.gpio s.ports s.ptp s.power s.prs s.tables s.policing s.frames s.nextFrame s.fab s.egress s.buses s.gwe s.cipher v0 s.twin s.sl s.faults s.upd v1 s.out s.free where
  pending := h.pending
  cclk := h.cclk
  mode := h.mode
  regs := h.regs
  latched := h.latched
  held := h.held
  ctrlLockA := h.ctrlLockA
  ctrlLockB := h.ctrlLockB
  shadows := h.shadows
  commits := h.commits
  partNo := h.partNo
  hist := h.hist
  rings := h.rings
  msixA := h.msixA
  msixB := h.msixB
  mbx := h.mbx
  silt := h.silt
  msgPages := h.msgPages
  pb := h.pb
  gpio := h.gpio
  ports := h.ports
  ptp := h.ptp
  power := h.power
  prs := h.prs
  tables := h.tables
  policing := h.policing
  frames := h.frames
  nextFrame := h.nextFrame
  fab := h.fab
  egress := h.egress
  buses := h.buses
  gwe := h.gwe
  cipher := h.cipher
  keys := .inl (bitm hF rfl)
  twin := h.twin
  sl := h.sl
  faults := h.faults
  upd := h.upd
  nvm := .inl (bitm hF rfl)
  out := h.out
  free := h.free

theorem fr_mk_549755813888 {F : Nat} {b s : State} {v0} (hF : 549755813888 ||| F = F) (h : Frm F b s) :
    FrmF F b s.pending s.cclk s.mode s.regs s.latched s.held s.ctrlLockA s.ctrlLockB s.shadows s.commits s.partNo s.hist s.rings s.msixA s.msixB s.mbx s.silt s.msgPages s.pb s.gpio s.ports s.ptp s.power s.prs s.tables s.policing s.frames s.nextFrame s.fab s.egress s.buses s.gwe s.cipher s.keys s.twin s.sl s.faults s.upd s.nvm v0 s.free where
  pending := h.pending
  cclk := h.cclk
  mode := h.mode
  regs := h.regs
  latched := h.latched
  held := h.held
  ctrlLockA := h.ctrlLockA
  ctrlLockB := h.ctrlLockB
  shadows := h.shadows
  commits := h.commits
  partNo := h.partNo
  hist := h.hist
  rings := h.rings
  msixA := h.msixA
  msixB := h.msixB
  mbx := h.mbx
  silt := h.silt
  msgPages := h.msgPages
  pb := h.pb
  gpio := h.gpio
  ports := h.ports
  ptp := h.ptp
  power := h.power
  prs := h.prs
  tables := h.tables
  policing := h.policing
  frames := h.frames
  nextFrame := h.nextFrame
  fab := h.fab
  egress := h.egress
  buses := h.buses
  gwe := h.gwe
  cipher := h.cipher
  keys := h.keys
  twin := h.twin
  sl := h.sl
  faults := h.faults
  upd := h.upd
  nvm := h.nvm
  out := .inl (bitm hF rfl)
  free := h.free

theorem fr_mk_1099511627776 {F : Nat} {b s : State} {v0} (hF : 1099511627776 ||| F = F) (h : Frm F b s) :
    FrmF F b s.pending s.cclk s.mode s.regs s.latched s.held s.ctrlLockA s.ctrlLockB s.shadows s.commits s.partNo s.hist s.rings s.msixA s.msixB s.mbx s.silt s.msgPages s.pb s.gpio s.ports s.ptp s.power s.prs s.tables s.policing s.frames s.nextFrame s.fab s.egress s.buses s.gwe s.cipher s.keys s.twin s.sl s.faults s.upd s.nvm s.out v0 where
  pending := h.pending
  cclk := h.cclk
  mode := h.mode
  regs := h.regs
  latched := h.latched
  held := h.held
  ctrlLockA := h.ctrlLockA
  ctrlLockB := h.ctrlLockB
  shadows := h.shadows
  commits := h.commits
  partNo := h.partNo
  hist := h.hist
  rings := h.rings
  msixA := h.msixA
  msixB := h.msixB
  mbx := h.mbx
  silt := h.silt
  msgPages := h.msgPages
  pb := h.pb
  gpio := h.gpio
  ports := h.ports
  ptp := h.ptp
  power := h.power
  prs := h.prs
  tables := h.tables
  policing := h.policing
  frames := h.frames
  nextFrame := h.nextFrame
  fab := h.fab
  egress := h.egress
  buses := h.buses
  gwe := h.gwe
  cipher := h.cipher
  keys := h.keys
  twin := h.twin
  sl := h.sl
  faults := h.faults
  upd := h.upd
  nvm := h.nvm
  out := h.out
  free := .inl (bitm hF rfl)

theorem fr_mk_1168231104512 {F : Nat} {b s : State} {v0 v1} (hF : 1168231104512 ||| F = F) (h : Frm F b s) :
    FrmF F b s.pending s.cclk s.mode s.regs s.latched s.held s.ctrlLockA s.ctrlLockB s.shadows s.commits s.partNo s.hist s.rings s.msixA s.msixB s.mbx s.silt s.msgPages s.pb s.gpio s.ports s.ptp s.power s.prs s.tables s.policing s.frames s.nextFrame s.fab s.egress s.buses s.gwe s.cipher s.keys s.twin s.sl v0 s.upd s.nvm s.out v1 where
  pending := h.pending
  cclk := h.cclk
  mode := h.mode
  regs := h.regs
  latched := h.latched
  held := h.held
  ctrlLockA := h.ctrlLockA
  ctrlLockB := h.ctrlLockB
  shadows := h.shadows
  commits := h.commits
  partNo := h.partNo
  hist := h.hist
  rings := h.rings
  msixA := h.msixA
  msixB := h.msixB
  mbx := h.mbx
  silt := h.silt
  msgPages := h.msgPages
  pb := h.pb
  gpio := h.gpio
  ports := h.ports
  ptp := h.ptp
  power := h.power
  prs := h.prs
  tables := h.tables
  policing := h.policing
  frames := h.frames
  nextFrame := h.nextFrame
  fab := h.fab
  egress := h.egress
  buses := h.buses
  gwe := h.gwe
  cipher := h.cipher
  keys := h.keys
  twin := h.twin
  sl := h.sl
  faults := .inl (bitm hF rfl)
  upd := h.upd
  nvm := h.nvm
  out := h.out
  free := .inl (bitm hF rfl)

theorem fr_mk_1374389534720 {F : Nat} {b s : State} {v0 v1} (hF : 1374389534720 ||| F = F) (h : Frm F b s) :
    FrmF F b s.pending s.cclk s.mode s.regs s.latched s.held s.ctrlLockA s.ctrlLockB s.shadows s.commits s.partNo s.hist s.rings s.msixA s.msixB s.mbx s.silt s.msgPages s.pb s.gpio s.ports s.ptp s.power s.prs s.tables s.policing s.frames s.nextFrame s.fab s.egress s.buses s.gwe s.cipher s.keys s.twin s.sl s.faults s.upd v0 s.out v1 where
  pending := h.pending
  cclk := h.cclk
  mode := h.mode
  regs := h.regs
  latched := h.latched
  held := h.held
  ctrlLockA := h.ctrlLockA
  ctrlLockB := h.ctrlLockB
  shadows := h.shadows
  commits := h.commits
  partNo := h.partNo
  hist := h.hist
  rings := h.rings
  msixA := h.msixA
  msixB := h.msixB
  mbx := h.mbx
  silt := h.silt
  msgPages := h.msgPages
  pb := h.pb
  gpio := h.gpio
  ports := h.ports
  ptp := h.ptp
  power := h.power
  prs := h.prs
  tables := h.tables
  policing := h.policing
  frames := h.frames
  nextFrame := h.nextFrame
  fab := h.fab
  egress := h.egress
  buses := h.buses
  gwe := h.gwe
  cipher := h.cipher
  keys := h.keys
  twin := h.twin
  sl := h.sl
  faults := h.faults
  upd := h.upd
  nvm := .inl (bitm hF rfl)
  out := h.out
  free := .inl (bitm hF rfl)

/-- Place of a part in the bit sets of `Frm`. -/
def partBit : Part → Nat
  | .pending => 0
  | .cclk => 1
  | .mode => 2
  | .regs => 3
  | .latched => 4
  | .held => 5
  | .ctrlLockA => 6
  | .ctrlLockB => 7
  | .shadows => 8
  | .commits => 9
  | .partNo => 10
  | .hist => 11
  | .rings => 12
  | .msixA => 13
  | .msixB => 14
  | .mbx => 15
  | .silt => 16
  | .msgPages => 17
  | .pb => 18
  | .gpio => 19
  | .ports => 20
  | .ptp => 21
  | .power => 22
  | .prs => 23
  | .tables => 24
  | .policing => 25
  | .frames => 26
  | .nextFrame => 27
  | .fab => 28
  | .egress => 29
  | .buses => 30
  | .gwe => 31
  | .cipher => 32
  | .keys => 33
  | .twin => 34
  | .sl => 35
  | .faults => 36
  | .upd => 37
  | .nvm => 38
  | .out => 39
  | .free => 40

/-- What `Frm` says of a part that is not in its set. -/
theorem frm_same {F : Nat} {b s : State} (h : Frm F b s) {p : Part} (hp : F.testBit (partBit p) = false) : p.Same b s := by
  cases p
  · exact (h.pending.resolve_left (by simp only [partBit] at hp; rw [hp]; simp))
  · exact (h.cclk.resolve_left (by simp only [partBit] at hp; rw [hp]; simp))
  · exact (h.mode.resolve_left (by simp only [partBit] at hp; rw [hp]; simp))
  · exact (h.regs.resolve_left (by simp only [partBit] at hp; rw [hp]; simp))
  · exact (h.latched.resolve_left (by simp only [partBit] at hp; rw [hp]; simp))
  · exact (h.held.resolve_left (by simp only [partBit] at hp; rw [hp]; simp))
  · exact (h.ctrlLockA.resolve_left (by simp only [partBit] at hp; rw [hp]; simp))
  · exact (h.ctrlLockB.resolve_left (by simp only [partBit] at hp; rw [hp]; simp))
  · exact (h.shadows.resolve_left (by simp only [partBit] at hp; rw [hp]; simp))
  · exact (h.commits.resolve_left (by simp only [partBit] at hp; rw [hp]; simp))
  · exact (h.partNo.resolve_left (by simp only [partBit] at hp; rw [hp]; simp))
  · exact (h.hist.resolve_left (by simp only [partBit] at hp; rw [hp]; simp))
  · exact (h.rings.resolve_left (by simp only [partBit] at hp; rw [hp]; simp))
  · exact (h.msixA.resolve_left (by simp only [partBit] at hp; rw [hp]; simp))
  · exact (h.msixB.resolve_left (by simp only [partBit] at hp; rw [hp]; simp))
  · exact (h.mbx.resolve_left (by simp only [partBit] at hp; rw [hp]; simp))
  · exact (h.silt.resolve_left (by simp only [partBit] at hp; rw [hp]; simp))
  · exact (h.msgPages.resolve_left (by simp only [partBit] at hp; rw [hp]; simp))
  · exact (h.pb.resolve_left (by simp only [partBit] at hp; rw [hp]; simp))
  · exact (h.gpio.resolve_left (by simp only [partBit] at hp; rw [hp]; simp))
  · exact (h.ports.resolve_left (by simp only [partBit] at hp; rw [hp]; simp))
  · exact (h.ptp.resolve_left (by simp only [partBit] at hp; rw [hp]; simp))
  · exact (h.power.resolve_left (by simp only [partBit] at hp; rw [hp]; simp))
  · exact (h.prs.resolve_left (by simp only [partBit] at hp; rw [hp]; simp))
  · exact (h.tables.resolve_left (by simp only [partBit] at hp; rw [hp]; simp))
  · exact (h.policing.resolve_left (by simp only [partBit] at hp; rw [hp]; simp))
  · exact (h.frames.resolve_left (by simp only [partBit] at hp; rw [hp]; simp))
  · exact (h.nextFrame.resolve_left (by simp only [partBit] at hp; rw [hp]; simp))
  · exact (h.fab.resolve_left (by simp only [partBit] at hp; rw [hp]; simp))
  · exact (h.egress.resolve_left (by simp only [partBit] at hp; rw [hp]; simp))
  · exact (h.buses.resolve_left (by simp only [partBit] at hp; rw [hp]; simp))
  · exact (h.gwe.resolve_left (by simp only [partBit] at hp; rw [hp]; simp))
  · exact (h.cipher.resolve_left (by simp only [partBit] at hp; rw [hp]; simp))
  · exact (h.keys.resolve_left (by simp only [partBit] at hp; rw [hp]; simp))
  · exact (h.twin.resolve_left (by simp only [partBit] at hp; rw [hp]; simp))
  · exact (h.sl.resolve_left (by simp only [partBit] at hp; rw [hp]; simp))
  · exact (h.faults.resolve_left (by simp only [partBit] at hp; rw [hp]; simp))
  · exact (h.upd.resolve_left (by simp only [partBit] at hp; rw [hp]; simp))
  · exact (h.nvm.resolve_left (by simp only [partBit] at hp; rw [hp]; simp))
  · exact (h.out.resolve_left (by simp only [partBit] at hp; rw [hp]; simp))
  · exact (h.free.resolve_left (by simp only [partBit] at hp; rw [hp]; simp))

end Sys2Proof.Laws
end

