-- ==== Sys2Proof/Laws/Frame0.lean ====
section
/-!
SUPPORT. `Frm` for the functions of Machine/: Ops, PhaseOps, RegOps, WriteCheck, MemOps, KeyOps, MsecOps, FabricOps, Fabric, PhaseInputs.
-/
set_option linter.unusedVariables false
namespace Sys2Proof.Laws
set_option Elab.async false
open Sys2Proof Sys2Proof.Machine

/-! ### Ops -/

theorem fr_ifWf {F : Nat} {b : State} {a0 s1} (hF : 0 ||| F = F) (h1 : Frm F b s1) : FrmR F b (Machine.ifWf a0 s1) := by
  unfold ifWf
  repeat' first
    | with_reducible assumption
    | ((with_reducible apply subt hF); rfl)
    | with_reducible first | apply frmR_next | apply frmR_refused
    | split

theorem fr_whenever {F : Nat} {b : State} {a0 s1 s2} (hF : 0 ||| F = F) (h1 : Frm F b s1) (h2 : Frm F b s2) : Frm F b (whenever a0 s1 s2) := by
  unfold whenever
  repeat' first
    | with_reducible assumption
    | split

theorem fr_State_setReg {F : Nat} {b : State} {s0 a1 a2} (hF : 8 ||| F = F) (h0 : Frm F b s0) : Frm F b (State.setReg s0 a1 a2) := by
  unfold State.setReg
  exact fr_mk_8 (subm hF) h0

theorem fr_State_setFld {F : Nat} {b : State} {s0 a1 a2 a3 a4} (hF : 8 ||| F = F) (h0 : Frm F b s0) : Frm F b (State.setFld s0 a1 a2 a3 a4) := by
  unfold State.setFld
  repeat' first
    | with_reducible assumption
    | ((with_reducible apply subt hF); rfl)
    | with_reducible apply fr_State_setReg

theorem fr_State_setBitAt {F : Nat} {b : State} {s0 a1 a2 a3} (hF : 8 ||| F = F) (h0 : Frm F b s0) : Frm F b (State.setBitAt s0 a1 a2 a3) := by
  unfold State.setBitAt
  repeat' first
    | with_reducible assumption
    | ((with_reducible apply subt hF); rfl)
    | with_reducible apply fr_State_setReg

theorem fr_State_setPair {F : Nat} {b : State} {s0 a1 a2} (hF : 8 ||| F = F) (h0 : Frm F b s0) : Frm F b (State.setPair s0 a1 a2) := by
  unfold State.setPair
  repeat' first
    | with_reducible assumption
    | ((with_reducible apply subt hF); rfl)
    | with_reducible apply fr_State_setReg

theorem fr_State_bumpBy {F : Nat} {b : State} {s0 a1 a2} (hF : 8 ||| F = F) (h0 : Frm F b s0) : Frm F b (State.bumpBy s0 a1 a2) := by
  unfold State.bumpBy
  repeat' first
    | with_reducible assumption
    | ((with_reducible apply subt hF); rfl)
    | with_reducible apply fr_State_setPair

theorem fr_State_bump {F : Nat} {b : State} {s0 a1} (hF : 8 ||| F = F) (h0 : Frm F b s0) : Frm F b (State.bump s0 a1) := by
  unfold State.bump
  repeat' first
    | with_reducible assumption
    | ((with_reducible apply subt hF); rfl)
    | with_reducible apply fr_State_bumpBy

theorem fr_State_emit {F : Nat} {b : State} {s0 a1} (hF : 549755813888 ||| F = F) (h0 : Frm F b s0) : Frm F b (State.emit s0 a1) := by
  unfold State.emit
  repeat' first
    | with_reducible assumption
    | ((with_reducible apply subt hF); rfl)
    | with_reducible apply fr_mk_549755813888
    | simp only [frm_mk]

theorem fr_State_tick1 {F : Nat} {b : State} {s0} (hF : 1099511627776 ||| F = F) (h0 : Frm F b s0) : Frm F b (State.tick1 s0) := by
  unfold State.tick1
  repeat' first
    | with_reducible assumption
    | ((with_reducible apply subt hF); rfl)
    | with_reducible apply fr_mk_1099511627776
    | simp only [frm_mk]

theorem fr_State_setMsix {F : Nat} {b : State} {s0 a1 a2} (hF : 24576 ||| F = F) (h0 : Frm F b s0) : Frm F b (State.setMsix s0 a1 a2) := by
  unfold State.setMsix
  repeat' first
    | with_reducible assumption
    | ((with_reducible apply subt hF); rfl)
    | with_reducible first | apply fr_mk_8192 | apply fr_mk_16384
    | simp only [frm_mk]
    | split

theorem fr_State_sendVec {F : Nat} {b : State} {s0 a1 a2} (hF : 549755838464 ||| F = F) (h0 : Frm F b s0) : Frm F b (State.sendVec s0 a1 a2) := by
  unfold State.sendVec
  repeat' first
    | with_reducible assumption
    | ((with_reducible apply subt hF); rfl)
    | with_reducible first | apply fr_State_setMsix | apply fr_State_emit
    | split
    | dsimp only

theorem fr_State_pageMsg {F : Nat} {b : State} {s0 a1} (hF : 549755969536 ||| F = F) (h0 : Frm F b s0) : Frm F b (State.pageMsg s0 a1) := by
  unfold State.pageMsg
  repeat' first
    | with_reducible assumption
    | ((with_reducible apply subt hF); rfl)
    | with_reducible first | apply fr_State_sendVec | apply fr_mk_131072 | apply frm_foldl
    | simp only [frm_mk]
    | intro _
    | split

theorem fr_State_noteRaised {F : Nat} {b : State} {s0 a1 a2} (hF : 131072 ||| F = F) (h0 : Frm F b s0) : Frm F b (State.noteRaised s0 a1 a2) := by
  unfold State.noteRaised
  repeat' first
    | with_reducible assumption
    | ((with_reducible apply subt hF); rfl)
    | with_reducible apply fr_mk_131072
    | simp only [frm_mk]

theorem fr_State_raiseMask {F : Nat} {b : State} {s0 a1 a2} (hF : 549755969544 ||| F = F) (h0 : Frm F b s0) : Frm F b (State.raiseMask s0 a1 a2) := by
  unfold State.raiseMask
  repeat' first
    | with_reducible assumption
    | ((with_reducible apply subt hF); rfl)
    | with_reducible first | apply fr_State_setReg | apply fr_State_noteRaised | apply fr_State_pageMsg
    | split
    | dsimp only

theorem fr_State_raise {F : Nat} {b : State} {s0 a1 a2} (hF : 549755969544 ||| F = F) (h0 : Frm F b s0) : Frm F b (State.raise s0 a1 a2) := by
  unfold State.raise
  repeat' first
    | with_reducible assumption
    | ((with_reducible apply subt hF); rfl)
    | with_reducible apply fr_State_raiseMask

theorem fr_State_setDom {F : Nat} {b : State} {s0 a1 a2} (hF : 2097152 ||| F = F) (h0 : Frm F b s0) : Frm F b (State.setDom s0 a1 a2) := by
  unfold State.setDom
  repeat' first
    | with_reducible assumption
    | ((with_reducible apply subt hF); rfl)
    | with_reducible apply fr_mk_2097152
    | simp only [frm_mk]

theorem fr_State_silt_ {F : Nat} {b : State} {s0 a1 a2 a3 a4 a5 a6} (hF : 549756035080 ||| F = F) (h0 : Frm F b s0) : Frm F b (State.silt_ s0 a1 a2 a3 a4 a5 a6) := by
  unfold State.silt_
  repeat' first
    | with_reducible assumption
    | ((with_reducible apply subt hF); rfl)
    | with_reducible first | apply fr_State_setReg | apply fr_State_raise | apply fr_State_bump | apply fr_mk_65536
    | simp only [frm_mk]
    | split

theorem fr_State_siltRefused {F : Nat} {b : State} {s0} (hF : 549755969544 ||| F = F) (h0 : Frm F b s0) : Frm F b (State.siltRefused s0) := by
  unfold State.siltRefused
  repeat' first
    | with_reducible assumption
    | ((with_reducible apply subt hF); rfl)
    | with_reducible first | apply fr_State_raise | apply fr_State_bump

theorem fr_State_refuse {F : Nat} {b : State} {s0 a1 a2 a3 a4} (hF : 549755969544 ||| F = F) (h0 : Frm F b s0) : Frm F b (State.refuse s0 a1 a2 a3 a4) := by
  unfold State.refuse
  repeat' first
    | with_reducible assumption
    | ((with_reducible apply subt hF); rfl)
    | with_reducible first | apply fr_State_siltRefused | apply fr_State_setReg | apply fr_State_raise
    | split

theorem fr_State_report {F : Nat} {b : State} {s0 a1 a2 a3 a4} (hF : 1168231104512 ||| F = F) (h0 : Frm F b s0) : Frm F b (State.report s0 a1 a2 a3 a4) := by
  unfold State.report
  repeat' first
    | with_reducible assumption
    | ((with_reducible apply subt hF); rfl)
    | with_reducible apply fr_mk_1168231104512
    | simp only [frm_mk]

/-! ### PhaseOps -/

theorem fr_pbEnter {F : Nat} {b : State} {s0 a1} (hF : 1168231366656 ||| F = F) (h0 : Frm F b s0) : Frm F b (pbEnter s0 a1) := by
  unfold pbEnter
  repeat' first
    | with_reducible assumption
    | ((with_reducible apply subt hF); rfl)
    | with_reducible first | apply fr_State_report | apply fr_mk_262144
    | simp only [frm_mk]
    | split

theorem fr_pbLoss {F : Nat} {b : State} {s0} (hF : 1717987336200 ||| F = F) (h0 : Frm F b s0) : Frm F b (pbLoss s0) := by
  unfold pbLoss
  repeat' first
    | with_reducible assumption
    | ((with_reducible apply subt hF); rfl)
    | with_reducible first | apply fr_State_bump | apply fr_State_raise | apply fr_pbEnter
    | split

theorem fr_pbDomainLost {F : Nat} {b : State} {s0 a1} (hF : 1717987336200 ||| F = F) (h0 : Frm F b s0) : Frm F b (pbDomainLost s0 a1) := by
  unfold pbDomainLost
  repeat' first
    | with_reducible assumption
    | ((with_reducible apply subt hF); rfl)
    | with_reducible apply fr_pbLoss
    | split

theorem fr_pbLockCount {F : Nat} {b : State} {s0 a1} (hF : 1717987336200 ||| F = F) (h0 : Frm F b s0) : Frm F b (pbLockCount s0 a1) := by
  unfold pbLockCount
  repeat' first
    | with_reducible assumption
    | ((with_reducible apply subt hF); rfl)
    | with_reducible first | apply fr_State_raise | apply fr_pbEnter | apply fr_mk_262144
    | simp only [frm_mk]
    | split

theorem fr_pbRefEvent {F : Nat} {b : State} {s0 a1 a2 a3 a4} (hF : 1717987336200 ||| F = F) (h0 : Frm F b s0) : Frm F b (pbRefEvent s0 a1 a2 a3 a4) := by
  unfold pbRefEvent
  refine fr_pbLockCount (subm hF) ?_
  simp only [frm_mk]
  exact fr_mk_262144 (subm hF) (fr_State_setReg (subm hF) h0)

theorem fr_pbInitialLoad {F : Nat} {b : State} {s0 a1 a2} (hF : 1168231366656 ||| F = F) (h0 : Frm F b s0) : Frm F b (pbInitialLoad s0 a1 a2) := by
  unfold pbInitialLoad
  exact fr_pbEnter (subm hF) (fr_mk_262144 (subm hF) h0)

/-! ### RegOps -/

theorem fr_State_setLatch {F : Nat} {b : State} {s0 a1 a2 a3} (hF : 16 ||| F = F) (h0 : Frm F b s0) : Frm F b (State.setLatch s0 a1 a2 a3) := by
  unfold State.setLatch
  repeat' first
    | with_reducible assumption
    | ((with_reducible apply subt hF); rfl)
    | with_reducible apply fr_mk_16
    | simp only [frm_mk]

theorem fr_State_setHeld {F : Nat} {b : State} {s0 a1 a2 a3} (hF : 32 ||| F = F) (h0 : Frm F b s0) : Frm F b (State.setHeld s0 a1 a2 a3) := by
  unfold State.setHeld
  repeat' first
    | with_reducible assumption
    | ((with_reducible apply subt hF); rfl)
    | with_reducible apply fr_mk_32
    | simp only [frm_mk]

theorem fr_State_setRing {F : Nat} {b : State} {s0 a1 a2} (hF : 4096 ||| F = F) (h0 : Frm F b s0) : Frm F b (State.setRing s0 a1 a2) := by
  unfold State.setRing
  repeat' first
    | with_reducible assumption
    | ((with_reducible apply subt hF); rfl)
    | with_reducible apply fr_mk_4096
    | simp only [frm_mk]

theorem fr_ringTake {F : Nat} {b : State} {s0 a1 a2} (hF : 8 ||| F = F) (h0 : Frm F b s0) : Frm F b (ringTake s0 a1 a2) := by
  unfold ringTake
  repeat' first
    | with_reducible assumption
    | ((with_reducible apply subt hF); rfl)
    | with_reducible apply fr_State_setFld

theorem fr_ringCounted {F : Nat} {b : State} {s0 a1 a2} (hF : 4096 ||| F = F) (h0 : Frm F b s0) : Frm F b (ringCounted s0 a1 a2) := by
  unfold ringCounted
  repeat' first
    | with_reducible assumption
    | ((with_reducible apply subt hF); rfl)
    | with_reducible apply fr_State_setRing

theorem fr_ringComplete {F : Nat} {b : State} {s0 a1 a2 a3} (hF : 549755817984 ||| F = F) (h0 : Frm F b s0) : Frm F b (ringComplete s0 a1 a2 a3) := by
  unfold ringComplete
  repeat' first
    | with_reducible assumption
    | ((with_reducible apply subt hF); rfl)
    | with_reducible first | apply fr_State_emit | apply fr_ringCounted

theorem fr_logReg {F : Nat} {b : State} {s0 a1 a2 a3 a4 a5} (hF : 549756035080 ||| F = F) (h0 : Frm F b s0) : Frm F b (logReg s0 a1 a2 a3 a4 a5) := by
  unfold logReg
  repeat' first
    | with_reducible assumption
    | ((with_reducible apply subt hF); rfl)
    | with_reducible apply fr_State_silt_
    | split

theorem fr_State_putShadow {F : Nat} {b : State} {s0 a1} (hF : 256 ||| F = F) (h0 : Frm F b s0) : Frm F b (State.putShadow s0 a1) := by
  unfold State.putShadow
  repeat' first
    | with_reducible assumption
    | ((with_reducible apply subt hF); rfl)
    | with_reducible apply fr_mk_256
    | simp only [frm_mk]

theorem fr_returnShadows {F : Nat} {b : State} {s0 a1} (hF : 256 ||| F = F) (h0 : Frm F b s0) : Frm F b (returnShadows s0 a1) := by
  unfold returnShadows
  repeat' first
    | with_reducible assumption
    | ((with_reducible apply subt hF); rfl)
    | with_reducible apply fr_mk_256
    | simp only [frm_mk]

/-! ### WriteCheck -/

theorem fr_State_write {F : Nat} {b : State} {s0 a1 a2 a3 s4} (hF : 549755969544 ||| F = F) (h0 : Frm F b s0) (h4 : Frm F b s4) : Frm F b (State.write s0 a1 a2 a3 s4) := by
  unfold State.write
  repeat' first
    | with_reducible assumption
    | ((with_reducible apply subt hF); rfl)
    | with_reducible apply fr_State_refuse
    | split

/-! ### MemOps -/

theorem fr_memErr {F : Nat} {b : State} {s0 a1 a2 a3} (hF : 8 ||| F = F) (h0 : Frm F b s0) : Frm F b (memErr s0 a1 a2 a3) := by
  unfold memErr
  repeat' first
    | with_reducible assumption
    | ((with_reducible apply subt hF); rfl)
    | with_reducible apply fr_State_setReg

theorem fr_memReplay {F : Nat} {b : State} {s0 a1 a2} (hF : 1717987074056 ||| F = F) (h0 : Frm F b s0) : Frm F b (memReplay s0 a1 a2) := by
  unfold memReplay
  repeat' first
    | with_reducible assumption
    | ((with_reducible apply subt hF); rfl)
    | with_reducible first | apply fr_State_report | apply fr_State_raise | apply fr_State_bump | apply fr_memErr

theorem fr_memRead {F : Nat} {b : State} {s0 a1 a2 a3} (hF : 1717987074056 ||| F = F) (h0 : Frm F b s0) : Frm F b (memRead s0 a1 a2 a3).1 := by
  unfold memRead
  repeat' first
    | with_reducible assumption
    | ((with_reducible apply subt hF); rfl)
    | with_reducible first | apply fr_State_tick1 | apply fr_memErr | apply fr_memReplay | apply fr_mk_68719476736
    | simp only [frm_mk]
    | split

theorem fr_memRepeated {F : Nat} {b : State} {s0 a1 a2} (hF : 549755969544 ||| F = F) (h0 : Frm F b s0) : Frm F b (memRepeated s0 a1 a2) := by
  unfold memRepeated
  repeat' first
    | with_reducible assumption
    | ((with_reducible apply subt hF); rfl)
    | with_reducible first | apply fr_State_raise | apply fr_State_bump

theorem fr_memLost {F : Nat} {b : State} {s0 a1 a2} (hF : 1717987074056 ||| F = F) (h0 : Frm F b s0) : Frm F b (memLost s0 a1 a2) := by
  unfold memLost
  repeat' first
    | with_reducible assumption
    | ((with_reducible apply subt hF); rfl)
    | with_reducible first | apply fr_State_report | apply fr_memRepeated

/-! ### KeyOps -/

theorem fr_State_setKeySlot {F : Nat} {b : State} {s0 a1 a2} (hF : 8589934592 ||| F = F) (h0 : Frm F b s0) : Frm F b (State.setKeySlot s0 a1 a2) := by
  unfold State.setKeySlot
  repeat' first
    | with_reducible assumption
    | ((with_reducible apply subt hF); rfl)
    | with_reducible apply fr_mk_8589934592
    | simp only [frm_mk]

theorem fr_otpProgram {F : Nat} {b : State} {s0 a1 a2} (hF : 274877906944 ||| F = F) (h0 : Frm F b s0) : Frm F b (otpProgram s0 a1 a2) := by
  unfold otpProgram
  exact fr_mk_274877906944 (subm hF) h0

theorem fr_authGenChange {F : Nat} {b : State} {s0 a1} (hF : 275951648768 ||| F = F) (h0 : Frm F b s0) : Frm F b (authGenChange s0 a1) := by
  unfold authGenChange
  repeat' first
    | with_reducible assumption
    | ((with_reducible apply subt hF); rfl)
    | with_reducible first | apply fr_mk_1073741824 | apply fr_mk_274877906944 | apply fr_mk_275951648768 | apply frm_foldl
    | simp only [frm_mk]
    | intro _
    | split

theorem fr_changeSlot {F : Nat} {b : State} {s0 a1 a2} (hF : 284541583360 ||| F = F) (h0 : Frm F b s0) : Frm F b (changeSlot s0 a1 a2) := by
  unfold changeSlot
  repeat' first
    | with_reducible assumption
    | ((with_reducible apply subt hF); rfl)
    | with_reducible first | apply fr_authGenChange | apply fr_State_setKeySlot

theorem fr_eraseBlob {F : Nat} {b : State} {s0 a1} (hF : 274877906944 ||| F = F) (h0 : Frm F b s0) : Frm F b (eraseBlob s0 a1) := by
  unfold eraseBlob
  repeat' first
    | with_reducible assumption
    | ((with_reducible apply subt hF); rfl)
    | with_reducible apply fr_mk_274877906944
    | simp only [frm_mk]

theorem fr_writeBlob {F : Nat} {b : State} {s0 a1} (hF : 274877906944 ||| F = F) (h0 : Frm F b s0) : Frm F b (writeBlob s0 a1) := by
  unfold writeBlob
  repeat' first
    | with_reducible assumption
    | ((with_reducible apply subt hF); rfl)
    | with_reducible apply fr_mk_274877906944
    | simp only [frm_mk]
    | split

theorem fr_siltKey {F : Nat} {b : State} {s0 a1 a2 a3 a4 a5} (hF : 549756035080 ||| F = F) (h0 : Frm F b s0) : Frm F b (siltKey s0 a1 a2 a3 a4 a5) := by
  unfold siltKey
  repeat' first
    | with_reducible assumption
    | ((with_reducible apply subt hF); rfl)
    | with_reducible apply fr_State_silt_

theorem fr_spoilRequests {F : Nat} {b : State} {s0 a1} (hF : 4294967296 ||| F = F) (h0 : Frm F b s0) : Frm F b (spoilRequests s0 a1) := by
  unfold spoilRequests
  repeat' first
    | with_reducible assumption
    | ((with_reducible apply subt hF); rfl)
    | with_reducible apply fr_mk_4294967296
    | simp only [frm_mk]

theorem fr_slotParity {F : Nat} {b : State} {s0 a1 a2} (hF : 2006823690248 ||| F = F) (h0 : Frm F b s0) : Frm F b (slotParity s0 a1 a2) := by
  unfold slotParity
  repeat' first
    | with_reducible assumption
    | ((with_reducible apply subt hF); rfl)
    | with_reducible first | apply fr_eraseBlob | apply fr_changeSlot | apply fr_spoilRequests | apply fr_memRepeated | apply fr_State_report | apply fr_State_bump | apply fr_State_raise | apply fr_siltKey

theorem fr_readSlot {F : Nat} {b : State} {s0 a1} (hF : 2006823690248 ||| F = F) (h0 : Frm F b s0) : Frm F b (readSlot s0 a1).1 := by
  unfold readSlot
  repeat' first
    | with_reducible assumption
    | ((with_reducible apply subt hF); rfl)
    | with_reducible first | apply fr_memRead | apply fr_slotParity
    | split
    | with_reducible refine frm_fst (by assumption) ?_

/-! ### MsecOps -/

theorem fr_State_setSaRun {F : Nat} {b : State} {s0 a1 a2 a3} (hF : 4294967296 ||| F = F) (h0 : Frm F b s0) : Frm F b (State.setSaRun s0 a1 a2 a3) := by
  unfold State.setSaRun
  repeat' first
    | with_reducible assumption
    | ((with_reducible apply subt hF); rfl)
    | with_reducible apply fr_mk_4294967296
    | simp only [frm_mk]

theorem fr_setSaPn {F : Nat} {b : State} {s0 a1 a2 a3} (hF : 8 ||| F = F) (h0 : Frm F b s0) : Frm F b (setSaPn s0 a1 a2 a3) := by
  unfold setSaPn
  repeat' first
    | with_reducible assumption
    | ((with_reducible apply subt hF); rfl)
    | with_reducible apply fr_State_setPair

theorem fr_State_setKat {F : Nat} {b : State} {s0 a1 a2} (hF : 4294967296 ||| F = F) (h0 : Frm F b s0) : Frm F b (State.setKat s0 a1 a2) := by
  unfold State.setKat
  repeat' first
    | with_reducible assumption
    | ((with_reducible apply subt hF); rfl)
    | with_reducible apply fr_mk_4294967296
    | simp only [frm_mk]

theorem fr_markSpare {F : Nat} {b : State} {s0 a1} (hF : 8 ||| F = F) (h0 : Frm F b s0) : Frm F b (markSpare s0 a1) := by
  unfold markSpare
  repeat' first
    | with_reducible assumption
    | ((with_reducible apply subt hF); rfl)
    | with_reducible apply fr_State_setBitAt

theorem fr_slotEmpty {F : Nat} {b : State} {s0 a1 a2 a3} (hF : 1717987074056 ||| F = F) (h0 : Frm F b s0) : Frm F b (slotEmpty s0 a1 a2 a3) := by
  unfold slotEmpty
  repeat' first
    | with_reducible assumption
    | ((with_reducible apply subt hF); rfl)
    | with_reducible first | apply fr_State_setFld | apply fr_State_report | apply fr_State_raise | apply fr_State_setBitAt

theorem fr_retirePipe {F : Nat} {b : State} {s0 a1 a2} (hF : 1722282041352 ||| F = F) (h0 : Frm F b s0) : Frm F b (retirePipe s0 a1 a2) := by
  unfold retirePipe
  repeat' first
    | with_reducible assumption
    | ((with_reducible apply subt hF); rfl)
    | with_reducible first | apply fr_State_setBitAt | apply fr_markSpare | apply fr_State_setKat | apply fr_State_setFld | apply fr_slotEmpty
    | split

theorem fr_pipeRetry {F : Nat} {b : State} {s0} (hF : 8 ||| F = F) (h0 : Frm F b s0) : Frm F b (pipeRetry s0) := by
  unfold pipeRetry
  repeat' first
    | with_reducible assumption
    | ((with_reducible apply subt hF); rfl)
    | with_reducible apply fr_State_bump

theorem fr_pipeFail {F : Nat} {b : State} {s0 a1 a2} (hF : 1722282041352 ||| F = F) (h0 : Frm F b s0) : Frm F b (pipeFail s0 a1 a2) := by
  unfold pipeFail
  repeat' first
    | with_reducible assumption
    | ((with_reducible apply subt hF); rfl)
    | with_reducible first | apply fr_retirePipe | apply fr_State_report | apply fr_State_raise | apply fr_State_bump

theorem fr_raiseRsv {F : Nat} {b : State} {s0 a1 a2} (hF : 4294967304 ||| F = F) (h0 : Frm F b s0) : Frm F b (raiseRsv s0 a1 a2) := by
  unfold raiseRsv
  repeat' first
    | with_reducible assumption
    | ((with_reducible apply subt hF); rfl)
    | with_reducible first | apply fr_State_setPair | apply fr_State_setSaRun
    | split
    | dsimp only

theorem fr_exhaustTx {F : Nat} {b : State} {s0 a1 a2} (hF : 554050936840 ||| F = F) (h0 : Frm F b s0) : Frm F b (exhaustTx s0 a1 a2) := by
  unfold exhaustTx
  repeat' first
    | with_reducible assumption
    | ((with_reducible apply subt hF); rfl)
    | with_reducible first | apply fr_State_raise | apply fr_State_setBitAt | apply fr_State_setSaRun
    | split
    | dsimp only

theorem fr_pnWarn {F : Nat} {b : State} {s0 a1 a2 a3} (hF : 554050936840 ||| F = F) (h0 : Frm F b s0) : Frm F b (pnWarn s0 a1 a2 a3) := by
  unfold pnWarn
  repeat' first
    | with_reducible assumption
    | ((with_reducible apply subt hF); rfl)
    | with_reducible first | apply fr_State_raise | apply fr_State_setSaRun | apply fr_exhaustTx
    | split
    | dsimp only

theorem fr_revokedOnce {F : Nat} {b : State} {s0 a1 a2} (hF : 554050936840 ||| F = F) (h0 : Frm F b s0) : Frm F b (revokedOnce s0 a1 a2) := by
  unfold revokedOnce
  repeat' first
    | with_reducible assumption
    | ((with_reducible apply subt hF); rfl)
    | with_reducible first | apply fr_State_raise | apply fr_State_setSaRun
    | split
    | dsimp only

theorem fr_mscTransmit {F : Nat} {b : State} {s0 a1 a2 a3} (hF : 2006823690248 ||| F = F) (h0 : Frm F b s0) : Frm F b (mscTransmit s0 a1 a2 a3).1 := by
  unfold mscTransmit
  repeat' first
    | with_reducible assumption
    | ((with_reducible apply subt hF); rfl)
    | with_reducible first | apply fr_State_bump | apply fr_readSlot | apply fr_raiseRsv | apply fr_exhaustTx | apply fr_revokedOnce | apply fr_setSaPn | apply fr_pnWarn | apply fr_pipeRetry | apply fr_pipeFail
    | split
    | dsimp only

theorem fr_rxVerdict {F : Nat} {b : State} {s0 a1 a2 a3 a4} (hF : 549755969544 ||| F = F) (h0 : Frm F b s0) : Frm F b (rxVerdict s0 a1 a2 a3 a4) := by
  unfold rxVerdict
  repeat' first
    | with_reducible assumption
    | ((with_reducible apply subt hF); rfl)
    | with_reducible first | apply fr_State_raise | apply fr_State_bump | apply fr_setSaPn
    | split

theorem fr_mscProtected {F : Nat} {b : State} {s0 a1 a2 a3} (hF : 2006823690248 ||| F = F) (h0 : Frm F b s0) : Frm F b (mscProtected s0 a1 a2 a3).1 := by
  unfold mscProtected
  repeat' first
    | with_reducible assumption
    | ((with_reducible apply subt hF); rfl)
    | with_reducible first | apply fr_State_bump | apply fr_readSlot | apply fr_revokedOnce | apply fr_rxVerdict | apply fr_State_setSaRun | apply fr_pipeRetry | apply fr_pipeFail
    | split
    | dsimp only

theorem fr_mscReceive {F : Nat} {b : State} {s0 a1 a2 a3} (hF : 2006823690248 ||| F = F) (h0 : Frm F b s0) : Frm F b (mscReceive s0 a1 a2 a3).1 := by
  unfold mscReceive
  repeat' first
    | with_reducible assumption
    | ((with_reducible apply subt hF); rfl)
    | with_reducible first | apply fr_State_bump | apply fr_mscProtected
    | split

/-! ### FabricOps -/

theorem fr_State_setMac {F : Nat} {b : State} {s0 a1 a2} (hF : 1048576 ||| F = F) (h0 : Frm F b s0) : Frm F b (State.setMac s0 a1 a2) := by
  unfold State.setMac
  repeat' first
    | with_reducible assumption
    | ((with_reducible apply subt hF); rfl)
    | with_reducible apply fr_mk_1048576
    | simp only [frm_mk]

theorem fr_State_setEgs {F : Nat} {b : State} {s0 a1 a2} (hF : 536870912 ||| F = F) (h0 : Frm F b s0) : Frm F b (State.setEgs s0 a1 a2) := by
  unfold State.setEgs
  repeat' first
    | with_reducible assumption
    | ((with_reducible apply subt hF); rfl)
    | with_reducible apply fr_mk_536870912
    | simp only [frm_mk]

theorem fr_State_setFrame {F : Nat} {b : State} {s0 a1 a2} (hF : 67108864 ||| F = F) (h0 : Frm F b s0) : Frm F b (State.setFrame s0 a1 a2) := by
  unfold State.setFrame
  repeat' first
    | with_reducible assumption
    | ((with_reducible apply subt hF); rfl)
    | with_reducible apply fr_mk_67108864
    | simp only [frm_mk]

theorem fr_noteReplay {F : Nat} {b : State} {s0 s1 a2} (hF : 1099578736648 ||| F = F) (h0 : Frm F b s0) (h1 : Frm F b s1) : Frm F b (noteReplay s0 s1 a2) := by
  unfold noteReplay
  repeat' first
    | with_reducible assumption
    | ((with_reducible apply subt hF); rfl)
    | with_reducible first | apply fr_State_setFrame | apply fr_State_tick1 | apply fr_State_bump
    | split

theorem fr_pipeDelay {F : Nat} {b : State} {s0 a1} (hF : 1099578736648 ||| F = F) (h0 : Frm F b s0) : Frm F b (pipeDelay s0 a1) := by
  unfold pipeDelay
  repeat' first
    | with_reducible assumption
    | ((with_reducible apply subt hF); rfl)
    | with_reducible first | apply fr_State_setFrame | apply fr_State_tick1 | apply fr_State_bump
    | split

theorem fr_State_setQueue {F : Nat} {b : State} {s0 a1 a2 a3} (hF : 268435456 ||| F = F) (h0 : Frm F b s0) : Frm F b (State.setQueue s0 a1 a2 a3) := by
  unfold State.setQueue
  repeat' first
    | with_reducible assumption
    | ((with_reducible apply subt hF); rfl)
    | with_reducible apply fr_mk_268435456
    | simp only [frm_mk]

theorem fr_State_setCopy {F : Nat} {b : State} {s0 a1 a2 a3 a4} (hF : 268435456 ||| F = F) (h0 : Frm F b s0) : Frm F b (State.setCopy s0 a1 a2 a3 a4) := by
  unfold State.setCopy
  repeat' first
    | with_reducible assumption
    | ((with_reducible apply subt hF); rfl)
    | with_reducible apply fr_State_setQueue

theorem fr_retireFrame {F : Nat} {b : State} {s0 a1} (hF : 335544320 ||| F = F) (h0 : Frm F b s0) : Frm F b (retireFrame s0 a1) := by
  unfold retireFrame
  repeat' first
    | with_reducible assumption
    | ((with_reducible apply subt hF); rfl)
    | with_reducible first | apply fr_State_setFrame | apply fr_mk_268435456
    | simp only [frm_mk]
    | split

theorem fr_setCredit {F : Nat} {b : State} {s0 a1 a2 a3 a4} (hF : 536870912 ||| F = F) (h0 : Frm F b s0) : Frm F b (setCredit s0 a1 a2 a3 a4) := by
  unfold setCredit
  repeat' first
    | with_reducible assumption
    | ((with_reducible apply subt hF); rfl)
    | with_reducible apply fr_State_setEgs

theorem fr_settleCredit {F : Nat} {b : State} {s0 a1 a2} (hF : 536870912 ||| F = F) (h0 : Frm F b s0) : Frm F b (settleCredit s0 a1 a2) := by
  unfold settleCredit
  repeat' first
    | with_reducible assumption
    | ((with_reducible apply subt hF); rfl)
    | with_reducible apply fr_setCredit
    | split

theorem fr_setDeficit {F : Nat} {b : State} {s0 a1 a2 a3} (hF : 536870912 ||| F = F) (h0 : Frm F b s0) : Frm F b (setDeficit s0 a1 a2 a3) := by
  unfold setDeficit
  repeat' first
    | with_reducible assumption
    | ((with_reducible apply subt hF); rfl)
    | with_reducible apply fr_State_setEgs

theorem fr_unselect {F : Nat} {b : State} {s0 a1 a2 a3} (hF : 805306368 ||| F = F) (h0 : Frm F b s0) : Frm F b (unselect s0 a1 a2 a3) := by
  unfold unselect
  repeat' first
    | with_reducible assumption
    | ((with_reducible apply subt hF); rfl)
    | with_reducible first | apply fr_setDeficit | apply fr_State_setEgs | apply fr_State_setCopy
    | split

theorem fr_emptied {F : Nat} {b : State} {s0 a1 a2} (hF : 536870912 ||| F = F) (h0 : Frm F b s0) : Frm F b (emptied s0 a1 a2) := by
  unfold emptied
  repeat' first
    | with_reducible assumption
    | ((with_reducible apply subt hF); rfl)
    | with_reducible apply fr_setDeficit
    | split

theorem fr_removeCopy {F : Nat} {b : State} {s0 a1 a2 a3} (hF : 872415232 ||| F = F) (h0 : Frm F b s0) : Frm F b (removeCopy s0 a1 a2 a3) := by
  unfold removeCopy
  repeat' first
    | with_reducible assumption
    | ((with_reducible apply subt hF); rfl)
    | with_reducible first | apply fr_unselect | apply fr_settleCredit | apply fr_emptied | apply fr_State_setQueue | apply fr_retireFrame | apply fr_mk_268435456
    | simp only [frm_mk]

theorem fr_refuseCopy {F : Nat} {b : State} {s0 a1 a2} (hF : 8 ||| F = F) (h0 : Frm F b s0) : Frm F b (refuseCopy s0 a1 a2) := by
  unfold refuseCopy
  repeat' first
    | with_reducible assumption
    | ((with_reducible apply subt hF); rfl)
    | with_reducible apply fr_State_bump

theorem fr_decideCopy {F : Nat} {b : State} {s0 a1 a2 a3} (hF : 805306376 ||| F = F) (h0 : Frm F b s0) : Frm F b (decideCopy s0 a1 a2 a3).1 := by
  unfold decideCopy
  repeat' first
    | with_reducible assumption
    | ((with_reducible apply subt hF); rfl)
    | with_reducible first | apply fr_State_bump | apply fr_refuseCopy | apply fr_settleCredit | apply fr_State_setQueue
    | split
    | dsimp only

theorem fr_decideCopies {F : Nat} {b : State} {s0 a1 a2 a3} (hF : 805306376 ||| F = F) (h0 : Frm F b s0) : Frm F b (decideCopies s0 a1 a2 a3).1 := by
  induction a3 generalizing s0 with
  | nil => exact h0
  | cons p ps ih =>
    unfold decideCopies
    exact ih (fr_decideCopy (subm hF) h0)

theorem fr_admitFrame {F : Nat} {b : State} {s0 a1} (hF : 872415240 ||| F = F) (h0 : Frm F b s0) : Frm F b (admitFrame s0 a1) := by
  unfold admitFrame
  repeat' first
    | with_reducible assumption
    | ((with_reducible apply subt hF); rfl)
    | with_reducible first | apply fr_decideCopies | apply fr_State_bump | apply fr_State_setFrame
    | split
    | dsimp only

theorem fr_checkPool {F : Nat} {b : State} {s0} (hF : 549755969544 ||| F = F) (h0 : Frm F b s0) : Frm F b (checkPool s0) := by
  unfold checkPool
  repeat' first
    | with_reducible assumption
    | ((with_reducible apply subt hF); rfl)
    | with_reducible apply fr_State_raise
    | split

/-! ### Fabric -/

theorem fr_cellReady {F : Nat} {b : State} {s0 a1} (hF : 335544320 ||| F = F) (h0 : Frm F b s0) : Frm F b (cellReady s0 a1) := by
  unfold cellReady
  repeat' first
    | with_reducible assumption
    | ((with_reducible apply subt hF); rfl)
    | with_reducible first | apply fr_State_setFrame | apply fr_mk_268435456
    | simp only [frm_mk]
    | split

theorem fr_halfReadyEvent {F : Nat} {b : State} {s0 a1} (hF : 872415240 ||| F = F) (h0 : Frm F b s0) : Frm F b (halfReadyEvent s0 a1) := by
  unfold halfReadyEvent
  repeat' first
    | with_reducible assumption
    | ((with_reducible apply subt hF); rfl)
    | with_reducible first | apply fr_cellReady | apply fr_admitFrame
    | split
    | dsimp only

theorem fr_execHalfReady {F : Nat} {b : State} {a0 s1} (hF : 872415240 ||| F = F) (h1 : Frm F b s1) : FrmR F b (execHalfReady a0 s1) := by
  unfold execHalfReady
  repeat' first
    | with_reducible assumption
    | ((with_reducible apply subt hF); rfl)
    | with_reducible first | apply fr_halfReadyEvent | apply frmR_next

theorem fr_execLoneWaitExpire {F : Nat} {b : State} {a0 s1} (hF : 268435456 ||| F = F) (h1 : Frm F b s1) : FrmR F b (execLoneWaitExpire a0 s1) := by
  unfold execLoneWaitExpire
  repeat' first
    | with_reducible assumption
    | ((with_reducible apply subt hF); rfl)
    | with_reducible first | apply fr_ifWf | apply fr_mk_268435456
    | simp only [frm_mk]

theorem fr_storeHalf {F : Nat} {b : State} {s0 a1 a2 a3} (hF : 268435464 ||| F = F) (h0 : Frm F b s0) : Frm F b (storeHalf s0 a1 a2 a3) := by
  unfold storeHalf
  repeat' first
    | with_reducible assumption
    | ((with_reducible apply subt hF); rfl)
    | with_reducible first | apply fr_State_bump | apply fr_State_setFld | apply fr_mk_268435456
    | simp only [frm_mk]
    | split

theorem fr_linkWrite {F : Nat} {b : State} {s0 a1} (hF : 550024405000 ||| F = F) (h0 : Frm F b s0) : Frm F b (linkWrite s0 a1) := by
  unfold linkWrite
  repeat' first
    | with_reducible assumption
    | ((with_reducible apply subt hF); rfl)
    | with_reducible first | apply fr_storeHalf | apply fr_State_bump | apply fr_checkPool | apply fr_mk_268435456
    | simp only [frm_mk]
    | split

theorem fr_execInputLinkWrite {F : Nat} {b : State} {a0 s1} (hF : 550024405000 ||| F = F) (h1 : Frm F b s1) : FrmR F b (execInputLinkWrite a0 s1) := by
  unfold execInputLinkWrite
  repeat' first
    | with_reducible assumption
    | ((with_reducible apply subt hF); rfl)
    | with_reducible first | apply fr_ifWf | apply fr_whenever | apply fr_linkWrite

theorem fr_copyOpens {F : Nat} {b : State} {s0 a1 a2} (hF : 268435456 ||| F = F) (h0 : Frm F b s0) : Frm F b (copyOpens s0 a1 a2) := by
  unfold copyOpens
  repeat' first
    | with_reducible assumption
    | ((with_reducible apply subt hF); rfl)
    | with_reducible apply fr_State_setCopy
    | split
    | dsimp only

theorem fr_execCopyOpen {F : Nat} {b : State} {a0 a1 s2} (hF : 268435456 ||| F = F) (h2 : Frm F b s2) : FrmR F b (execCopyOpen a0 a1 s2) := by
  unfold execCopyOpen
  repeat' first
    | with_reducible assumption
    | ((with_reducible apply subt hF); rfl)
    | with_reducible first | apply fr_ifWf | apply fr_copyOpens

theorem fr_countLate {F : Nat} {b : State} {s0 a1 a2 a3 a4 a5} (hF : 549755969544 ||| F = F) (h0 : Frm F b s0) : Frm F b (countLate s0 a1 a2 a3 a4 a5) := by
  unfold countLate
  repeat' first
    | with_reducible assumption
    | ((with_reducible apply subt hF); rfl)
    | with_reducible first | apply fr_State_bump | apply fr_State_setReg | apply fr_State_setFld | apply fr_State_raise
    | split
    | dsimp only

theorem fr_retireHalf {F : Nat} {b : State} {s0 a1} (hF : 1717987074056 ||| F = F) (h0 : Frm F b s0) : Frm F b (retireHalf s0 a1) := by
  unfold retireHalf
  repeat' first
    | with_reducible assumption
    | ((with_reducible apply subt hF); rfl)
    | with_reducible first | apply fr_State_setFld | apply fr_State_report | apply fr_State_raise
    | split
    | dsimp only

theorem fr_settleRetiring {F : Nat} {b : State} {s0} (hF : 1717987074056 ||| F = F) (h0 : Frm F b s0) : Frm F b (settleRetiring s0) := by
  unfold settleRetiring
  repeat' first
    | with_reducible assumption
    | ((with_reducible apply subt hF); rfl)
    | with_reducible first | apply fr_retireHalf | apply fr_mk_68719476736 | apply frm_foldl
    | simp only [frm_mk]
    | intro _

theorem fr_stompTx {F : Nat} {b : State} {s0 a1 a2 a3} (hF : 550628229128 ||| F = F) (h0 : Frm F b s0) : Frm F b (stompTx s0 a1 a2 a3) := by
  unfold stompTx
  repeat' first
    | with_reducible assumption
    | ((with_reducible apply subt hF); rfl)
    | with_reducible first | apply fr_State_setEgs | apply fr_State_emit | apply fr_State_setFrame | apply fr_State_bump | apply fr_removeCopy
    | split

theorem fr_parityDrop {F : Nat} {b : State} {s0 a1 a2 a3 a4 a5 a6} (hF : 1718859489288 ||| F = F) (h0 : Frm F b s0) : Frm F b (parityDrop s0 a1 a2 a3 a4 a5 a6) := by
  unfold parityDrop
  repeat' first
    | with_reducible assumption
    | ((with_reducible apply subt hF); rfl)
    | with_reducible first | apply fr_State_raise | apply fr_State_bump | apply fr_memRepeated | apply fr_State_report | apply fr_stompTx | apply fr_State_setEgs | apply fr_removeCopy
    | split
    | dsimp only

theorem fr_carryHalf {F : Nat} {b : State} {s0 a1 a2 a3 a4} (hF : 268435456 ||| F = F) (h0 : Frm F b s0) : Frm F b (carryHalf s0 a1 a2 a3 a4) := by
  unfold carryHalf
  repeat' first
    | with_reducible assumption
    | ((with_reducible apply subt hF); rfl)
    | with_reducible first | apply fr_State_setCopy | apply fr_mk_268435456
    | simp only [frm_mk]

theorem fr_readHalf {F : Nat} {b : State} {s0 a1 a2} (hF : 1718859489288 ||| F = F) (h0 : Frm F b s0) : Frm F b (readHalf s0 a1 a2) := by
  unfold readHalf
  repeat' first
    | with_reducible assumption
    | ((with_reducible apply subt hF); rfl)
    | with_reducible first | apply fr_memRead | apply fr_parityDrop | apply fr_settleRetiring | apply fr_carryHalf | apply fr_countLate | apply fr_mk_68719476736
    | simp only [frm_mk]
    | split
    | with_reducible refine frm_fst (by assumption) ?_

theorem fr_groupRead {F : Nat} {b : State} {s0 a1} (hF : 1718859489288 ||| F = F) (h0 : Frm F b s0) : Frm F b (groupRead s0 a1) := by
  unfold groupRead
  repeat' first
    | with_reducible assumption
    | ((with_reducible apply subt hF); rfl)
    | with_reducible first | apply fr_readHalf | apply fr_mk_268435456
    | simp only [frm_mk]
    | split

theorem fr_execHalfRead {F : Nat} {b : State} {a0 s1} (hF : 1718859489288 ||| F = F) (h1 : Frm F b s1) : FrmR F b (execHalfRead a0 s1) := by
  unfold execHalfRead
  repeat' first
    | with_reducible assumption
    | ((with_reducible apply subt hF); rfl)
    | with_reducible first | apply fr_ifWf | apply fr_whenever | apply fr_groupRead

theorem fr_releaseOne {F : Nat} {b : State} {a0 a1 a2 s3} (hF : 268435464 ||| F = F) (h3 : Frm F b s3) : Frm F b (releaseOne a0 a1 a2 s3) := by
  unfold releaseOne
  repeat' first
    | with_reducible assumption
    | ((with_reducible apply subt hF); rfl)
    | with_reducible first | apply fr_State_bump | apply fr_State_setCopy
    | split

theorem fr_dropErrCopy {F : Nat} {b : State} {a0 a1 a2 s3} (hF : 872415232 ||| F = F) (h3 : Frm F b s3) : Frm F b (dropErrCopy a0 a1 a2 s3) := by
  unfold dropErrCopy
  repeat' first
    | with_reducible assumption
    | ((with_reducible apply subt hF); rfl)
    | with_reducible apply fr_removeCopy
    | split

theorem fr_releaseCopy {F : Nat} {b : State} {a0 a1 a2 s3} (hF : 872415240 ||| F = F) (h3 : Frm F b s3) : Frm F b (releaseCopy a0 a1 a2 s3) := by
  unfold releaseCopy
  repeat' first
    | with_reducible assumption
    | ((with_reducible apply subt hF); rfl)
    | with_reducible first | apply fr_dropErrCopy | apply fr_releaseOne | apply frm_foldl
    | intro _

theorem fr_releaseQueue {F : Nat} {b : State} {s0 a1 a2} (hF : 872415240 ||| F = F) (h0 : Frm F b s0) : Frm F b (releaseQueue s0 a1 a2) := by
  unfold releaseQueue
  repeat' first
    | with_reducible assumption
    | ((with_reducible apply subt hF); rfl)
    | with_reducible first | apply fr_releaseCopy | apply frm_foldl
    | intro _

theorem fr_execHalfRelease {F : Nat} {b : State} {a0 a1 s2} (hF : 872415240 ||| F = F) (h2 : Frm F b s2) : FrmR F b (execHalfRelease a0 a1 s2) := by
  unfold execHalfRelease
  repeat' first
    | with_reducible assumption
    | ((with_reducible apply subt hF); rfl)
    | with_reducible first | apply fr_ifWf | apply fr_releaseQueue

theorem fr_execTxUnderrun {F : Nat} {b : State} {a0 s1} (hF : 550628384776 ||| F = F) (h1 : Frm F b s1) : FrmR F b (execTxUnderrun a0 s1) := by
  unfold execTxUnderrun
  repeat' first
    | with_reducible assumption
    | ((with_reducible apply subt hF); rfl)
    | with_reducible first | apply fr_ifWf | apply fr_State_raise | apply fr_State_bump | apply fr_stompTx
    | split

theorem fr_startFlush {F : Nat} {b : State} {s0 a1} (hF : 805306368 ||| F = F) (h0 : Frm F b s0) : Frm F b (startFlush s0 a1) := by
  unfold startFlush
  repeat' first
    | with_reducible assumption
    | ((with_reducible apply subt hF); rfl)
    | with_reducible first | apply fr_unselect | apply fr_State_setEgs | apply fr_mk_268435456 | apply frm_foldl
    | simp only [frm_mk]
    | intro _

theorem fr_flushNext {F : Nat} {b : State} {s0 a1} (hF : 872415240 ||| F = F) (h0 : Frm F b s0) : Frm F b (flushNext s0 a1) := by
  unfold flushNext
  repeat' first
    | with_reducible assumption
    | ((with_reducible apply subt hF); rfl)
    | with_reducible first | apply fr_State_bump | apply fr_removeCopy | apply fr_mk_268435456
    | simp only [frm_mk]
    | split

theorem fr_endFlush {F : Nat} {b : State} {s0 a1} (hF : 550024405000 ||| F = F) (h0 : Frm F b s0) : Frm F b (endFlush s0 a1) := by
  unfold endFlush
  repeat' first
    | with_reducible assumption
    | ((with_reducible apply subt hF); rfl)
    | with_reducible first | apply fr_State_raise | apply fr_mk_268435456
    | simp only [frm_mk]

theorem fr_flushStep {F : Nat} {b : State} {s0 a1} (hF : 550628384776 ||| F = F) (h0 : Frm F b s0) : Frm F b (flushStep s0 a1) := by
  unfold flushStep
  repeat' first
    | with_reducible assumption
    | ((with_reducible apply subt hF); rfl)
    | with_reducible first | apply fr_flushNext | apply fr_endFlush
    | split

theorem fr_execFlushDone {F : Nat} {b : State} {a0 s1} (hF : 550024405000 ||| F = F) (h1 : Frm F b s1) : FrmR F b (execFlushDone a0 s1) := by
  unfold execFlushDone
  repeat' first
    | with_reducible assumption
    | ((with_reducible apply subt hF); rfl)
    | with_reducible first | apply fr_ifWf | apply fr_whenever | apply fr_endFlush

/-! ### PhaseInputs -/

theorem fr_State_bump32 {F : Nat} {b : State} {s0 a1} (hF : 8 ||| F = F) (h0 : Frm F b s0) : Frm F b (State.bump32 s0 a1) := by
  unfold State.bump32
  repeat' first
    | with_reducible assumption
    | ((with_reducible apply subt hF); rfl)
    | with_reducible apply fr_State_setReg

theorem fr_nettimeEvent {F : Nat} {b : State} {s0} (hF : 1717987336200 ||| F = F) (h0 : Frm F b s0) : Frm F b (nettimeEvent s0) := by
  unfold nettimeEvent
  repeat' first
    | with_reducible assumption
    | ((with_reducible apply subt hF); rfl)
    | with_reducible first | apply fr_pbLoss | apply fr_pbInitialLoad | apply fr_pbRefEvent
    | split

theorem fr_execNettimeRefEvent {F : Nat} {b : State} {s0} (hF : 1717987336200 ||| F = F) (h0 : Frm F b s0) : FrmR F b (execNettimeRefEvent s0) := by
  unfold execNettimeRefEvent
  repeat' first
    | with_reducible assumption
    | ((with_reducible apply subt hF); rfl)
    | with_reducible first | apply fr_nettimeEvent | apply frmR_next

theorem fr_countSynth {F : Nat} {b : State} {s0} (hF : 8 ||| F = F) (h0 : Frm F b s0) : Frm F b (countSynth s0) := by
  unfold countSynth
  repeat' first
    | with_reducible assumption
    | ((with_reducible apply subt hF); rfl)
    | with_reducible apply fr_State_bump

theorem fr_tickMarks {F : Nat} {b : State} {s0 a1 a2} (hF : 262152 ||| F = F) (h0 : Frm F b s0) : Frm F b (tickMarks s0 a1 a2) := by
  unfold tickMarks
  repeat' first
    | with_reducible assumption
    | ((with_reducible apply subt hF); rfl)
    | with_reducible first | apply fr_countSynth | apply fr_mk_262144
    | simp only [frm_mk]
    | split

theorem fr_joinMarks {F : Nat} {b : State} {s0 a1} (hF : 262144 ||| F = F) (h0 : Frm F b s0) : Frm F b (joinMarks s0 a1) := by
  unfold joinMarks
  repeat' first
    | with_reducible assumption
    | ((with_reducible apply subt hF); rfl)
    | with_reducible apply fr_mk_262144
    | simp only [frm_mk]
    | split

theorem fr_tickTracks {F : Nat} {b : State} {s0 a1 a2} (hF : 1717987336200 ||| F = F) (h0 : Frm F b s0) : Frm F b (tickTracks s0 a1 a2) := by
  unfold tickTracks
  repeat' first
    | with_reducible assumption
    | ((with_reducible apply subt hF); rfl)
    | with_reducible first | apply fr_pbInitialLoad | apply fr_joinMarks | apply fr_tickMarks | apply fr_pbRefEvent
    | split

theorem fr_tickAccept {F : Nat} {b : State} {s0 a1} (hF : 1717987860488 ||| F = F) (h0 : Frm F b s0) : Frm F b (tickAccept s0 a1) := by
  unfold tickAccept
  repeat' first
    | with_reducible assumption
    | ((with_reducible apply subt hF); rfl)
    | with_reducible first | apply fr_State_setReg | apply fr_tickTracks | apply fr_mk_524288
    | simp only [frm_mk]

theorem fr_execTickAccepted {F : Nat} {b : State} {a0 s1} (hF : 1717987860488 ||| F = F) (h1 : Frm F b s1) : FrmR F b (execTickAccepted a0 s1) := by
  unfold execTickAccepted
  repeat' first
    | with_reducible assumption
    | ((with_reducible apply subt hF); rfl)
    | with_reducible first | apply fr_ifWf | apply fr_tickAccept

theorem fr_execTickRunt {F : Nat} {b : State} {a0 s1} (hF : 8 ||| F = F) (h1 : Frm F b s1) : FrmR F b (execTickRunt a0 s1) := by
  unfold execTickRunt
  repeat' first
    | with_reducible assumption
    | ((with_reducible apply subt hF); rfl)
    | with_reducible first | apply fr_ifWf | apply fr_State_bump32

theorem fr_execTickLoss {F : Nat} {b : State} {s0} (hF : 1717987336200 ||| F = F) (h0 : Frm F b s0) : FrmR F b (execTickLoss s0) := by
  unfold execTickLoss
  repeat' first
    | with_reducible assumption
    | ((with_reducible apply subt hF); rfl)
    | with_reducible first | apply fr_whenever | apply fr_pbLoss | apply frmR_next

theorem fr_State_setEnc {F : Nat} {b : State} {s0 a1 a2} (hF : 524296 ||| F = F) (h0 : Frm F b s0) : Frm F b (State.setEnc s0 a1 a2) := by
  unfold State.setEnc
  repeat' first
    | with_reducible assumption
    | ((with_reducible apply subt hF); rfl)
    | with_reducible first | apply fr_State_setReg | apply fr_mk_524288
    | simp only [frm_mk]

theorem fr_encNotes {F : Nat} {b : State} {s0 a1 a2 a3} (hF : 262144 ||| F = F) (h0 : Frm F b s0) : Frm F b (encNotes s0 a1 a2 a3) := by
  unfold encNotes
  repeat' first
    | with_reducible assumption
    | ((with_reducible apply subt hF); rfl)
    | with_reducible apply fr_mk_262144
    | simp only [frm_mk]

theorem fr_stepBegins {F : Nat} {b : State} {s0} (hF : 1168231366656 ||| F = F) (h0 : Frm F b s0) : Frm F b (stepBegins s0) := by
  unfold stepBegins
  repeat' first
    | with_reducible assumption
    | ((with_reducible apply subt hF); rfl)
    | with_reducible first | apply fr_pbEnter | apply fr_mk_262144
    | simp only [frm_mk]

theorem fr_encTracks {F : Nat} {b : State} {s0 a1 a2 a3 a4 a5} (hF : 1717987336200 ||| F = F) (h0 : Frm F b s0) : Frm F b (encTracks s0 a1 a2 a3 a4 a5) := by
  unfold encTracks
  repeat' first
    | with_reducible assumption
    | ((with_reducible apply subt hF); rfl)
    | with_reducible first | apply fr_encNotes | apply fr_stepBegins | apply fr_pbRefEvent | apply fr_mk_262144
    | simp only [frm_mk]
    | split

theorem fr_countTracks {F : Nat} {b : State} {s0 a1 a2 a3 a4} (hF : 1717987860488 ||| F = F) (h0 : Frm F b s0) : Frm F b (countTracks s0 a1 a2 a3 a4) := by
  unfold countTracks
  repeat' first
    | with_reducible assumption
    | ((with_reducible apply subt hF); rfl)
    | with_reducible first | apply fr_State_setEnc | apply fr_encNotes | apply fr_stepBegins | apply fr_pbInitialLoad | apply fr_joinMarks | apply fr_encTracks | apply fr_mk_262144
    | simp only [frm_mk]
    | split

theorem fr_encForward {F : Nat} {b : State} {s0 a1} (hF : 1717987860488 ||| F = F) (h0 : Frm F b s0) : Frm F b (encForward s0 a1) := by
  unfold encForward
  repeat' first
    | with_reducible assumption
    | ((with_reducible apply subt hF); rfl)
    | with_reducible first | apply fr_State_setEnc | apply fr_State_setReg | apply fr_countTracks
    | split

theorem fr_encCountEvent {F : Nat} {b : State} {s0 a1} (hF : 1717987860488 ||| F = F) (h0 : Frm F b s0) : Frm F b (encCountEvent s0 a1) := by
  unfold encCountEvent
  repeat' first
    | with_reducible assumption
    | ((with_reducible apply subt hF); rfl)
    | with_reducible first | apply fr_encForward | apply fr_State_setEnc | apply fr_State_setReg | apply fr_mk_262144
    | simp only [frm_mk]
    | split

theorem fr_execEncCount {F : Nat} {b : State} {a0 s1} (hF : 1717987860488 ||| F = F) (h1 : Frm F b s1) : FrmR F b (execEncCount a0 s1) := by
  unfold execEncCount
  repeat' first
    | with_reducible assumption
    | ((with_reducible apply subt hF); rfl)
    | with_reducible first | apply fr_ifWf | apply fr_encCountEvent

theorem fr_encMiscount {F : Nat} {b : State} {s0 a1} (hF : 549755969544 ||| F = F) (h0 : Frm F b s0) : Frm F b (encMiscount s0 a1) := by
  unfold encMiscount
  repeat' first
    | with_reducible assumption
    | ((with_reducible apply subt hF); rfl)
    | with_reducible first | apply fr_State_raise | apply fr_State_bump32
    | split
    | dsimp only

theorem fr_encIndexEvent {F : Nat} {b : State} {s0 a1} (hF : 1717987860488 ||| F = F) (h0 : Frm F b s0) : Frm F b (encIndexEvent s0 a1) := by
  unfold encIndexEvent
  repeat' first
    | with_reducible assumption
    | ((with_reducible apply subt hF); rfl)
    | with_reducible first | apply fr_State_setEnc | apply fr_encMiscount | apply fr_encNotes | apply fr_pbInitialLoad | apply fr_joinMarks | apply fr_encTracks
    | split
    | dsimp only

theorem fr_execEncIndex {F : Nat} {b : State} {a0 s1} (hF : 1717987860488 ||| F = F) (h1 : Frm F b s1) : FrmR F b (execEncIndex a0 s1) := by
  unfold execEncIndex
  repeat' first
    | with_reducible assumption
    | ((with_reducible apply subt hF); rfl)
    | with_reducible first | apply fr_ifWf | apply fr_encIndexEvent

theorem fr_encBackwardEvent {F : Nat} {b : State} {s0 a1} (hF : 786440 ||| F = F) (h0 : Frm F b s0) : Frm F b (encBackwardEvent s0 a1) := by
  unfold encBackwardEvent
  repeat' first
    | with_reducible assumption
    | ((with_reducible apply subt hF); rfl)
    | with_reducible first | apply fr_State_setReg | apply fr_State_setEnc | apply fr_mk_262144
    | simp only [frm_mk]
    | split

theorem fr_execEncBackward {F : Nat} {b : State} {a0 s1} (hF : 786440 ||| F = F) (h1 : Frm F b s1) : FrmR F b (execEncBackward a0 s1) := by
  unfold execEncBackward
  repeat' first
    | with_reducible assumption
    | ((with_reducible apply subt hF); rfl)
    | with_reducible first | apply fr_ifWf | apply fr_encBackwardEvent

theorem fr_encIllegalEvent {F : Nat} {b : State} {s0 a1} (hF : 549755969544 ||| F = F) (h0 : Frm F b s0) : Frm F b (encIllegalEvent s0 a1) := by
  unfold encIllegalEvent
  repeat' first
    | with_reducible assumption
    | ((with_reducible apply subt hF); rfl)
    | with_reducible first | apply fr_whenever | apply fr_State_raise | apply fr_State_bump32

theorem fr_execEncIllegal {F : Nat} {b : State} {a0 s1} (hF : 549755969544 ||| F = F) (h1 : Frm F b s1) : FrmR F b (execEncIllegal a0 s1) := by
  unfold execEncIllegal
  repeat' first
    | with_reducible assumption
    | ((with_reducible apply subt hF); rfl)
    | with_reducible first | apply fr_ifWf | apply fr_encIllegalEvent

theorem fr_enterStill {F : Nat} {b : State} {s0} (hF : 1717987336200 ||| F = F) (h0 : Frm F b s0) : Frm F b (enterStill s0) := by
  unfold enterStill
  repeat' first
    | with_reducible assumption
    | ((with_reducible apply subt hF); rfl)
    | with_reducible first | apply fr_State_bump | apply fr_State_raise | apply fr_pbEnter | apply fr_mk_262144
    | simp only [frm_mk]

theorem fr_execPbStandstill {F : Nat} {b : State} {s0} (hF : 1717987336200 ||| F = F) (h0 : Frm F b s0) : FrmR F b (execPbStandstill s0) := by
  unfold execPbStandstill
  repeat' first
    | with_reducible assumption
    | ((with_reducible apply subt hF); rfl)
    | with_reducible first | apply fr_whenever | apply fr_enterStill | apply frmR_next

theorem fr_State_setCap {F : Nat} {b : State} {s0 a1 a2} (hF : 524288 ||| F = F) (h0 : Frm F b s0) : Frm F b (State.setCap s0 a1 a2) := by
  unfold State.setCap
  repeat' first
    | with_reducible assumption
    | ((with_reducible apply subt hF); rfl)
    | with_reducible apply fr_mk_524288
    | simp only [frm_mk]

theorem fr_capWrite {F : Nat} {b : State} {s0 a1 a2} (hF : 549756493832 ||| F = F) (h0 : Frm F b s0) : Frm F b (capWrite s0 a1 a2) := by
  unfold capWrite
  repeat' first
    | with_reducible assumption
    | ((with_reducible apply subt hF); rfl)
    | with_reducible first | apply fr_State_raise | apply fr_State_setCap
    | split
    | dsimp only

theorem fr_execCapEdge {F : Nat} {b : State} {a0 a1 s2} (hF : 549756493832 ||| F = F) (h2 : Frm F b s2) : FrmR F b (execCapEdge a0 a1 s2) := by
  unfold execCapEdge
  repeat' first
    | with_reducible assumption
    | ((with_reducible apply subt hF); rfl)
    | with_reducible first | apply fr_ifWf | apply fr_whenever | apply fr_capWrite

theorem fr_capNsRead {F : Nat} {b : State} {s0 a1 a2} (hF : 1649267965960 ||| F = F) (h0 : Frm F b s0) : Frm F b (capNsRead s0 a1 a2) := by
  unfold capNsRead
  repeat' first
    | with_reducible assumption
    | ((with_reducible apply subt hF); rfl)
    | with_reducible first | apply fr_State_tick1 | apply fr_State_emit | apply fr_State_setReg | apply fr_State_setCap
    | split

theorem fr_State_readOr {F : Nat} {b : State} {s0 a1 a2 s3} (hF : 549755813888 ||| F = F) (h0 : Frm F b s0) (h3 : Frm F b s3) : Frm F b (State.readOr s0 a1 a2 s3) := by
  unfold State.readOr
  repeat' first
    | with_reducible assumption
    | ((with_reducible apply subt hF); rfl)
    | with_reducible apply fr_State_emit
    | split

theorem fr_State_setPairSt {F : Nat} {b : State} {s0 a1 a2} (hF : 68719476736 ||| F = F) (h0 : Frm F b s0) : Frm F b (State.setPairSt s0 a1 a2) := by
  unfold State.setPairSt
  repeat' first
    | with_reducible assumption
    | ((with_reducible apply subt hF); rfl)
    | with_reducible apply fr_mk_68719476736
    | simp only [frm_mk]
    | split

theorem fr_taskRead {F : Nat} {b : State} {s0 a1 a2 a3 s4} (hF : 618475290624 ||| F = F) (h0 : Frm F b s0) (h4 : Frm F b s4) : Frm F b (taskRead s0 a1 a2 a3 s4) := by
  unfold taskRead
  repeat' first
    | with_reducible assumption
    | ((with_reducible apply subt hF); rfl)
    | with_reducible first | apply fr_State_emit | apply fr_State_setPairSt
    | split
    | dsimp only

theorem fr_State_readOnce {F : Nat} {b : State} {s0 a1 a2 s3} (hF : 618475290624 ||| F = F) (h0 : Frm F b s0) (h3 : Frm F b s3) : Frm F b (State.readOnce s0 a1 a2 s3) := by
  unfold State.readOnce
  repeat' first
    | with_reducible assumption
    | ((with_reducible apply subt hF); rfl)
    | with_reducible first | apply fr_State_readOr | apply fr_taskRead
    | split

theorem fr_execCapNsRead {F : Nat} {b : State} {a0 a1 s2} (hF : 1717987442696 ||| F = F) (h2 : Frm F b s2) : FrmR F b (execCapNsRead a0 a1 s2) := by
  unfold execCapNsRead
  repeat' first
    | with_reducible assumption
    | ((with_reducible apply subt hF); rfl)
    | with_reducible first | apply fr_ifWf | apply fr_State_readOnce | apply fr_capNsRead

theorem fr_capStatRead {F : Nat} {b : State} {s0 a1 a2} (hF : 549756338176 ||| F = F) (h0 : Frm F b s0) : Frm F b (capStatRead s0 a1 a2) := by
  unfold capStatRead
  repeat' first
    | with_reducible assumption
    | ((with_reducible apply subt hF); rfl)
    | with_reducible first | apply fr_State_emit | apply fr_State_setCap

theorem fr_execCapStatRead {F : Nat} {b : State} {a0 a1 s2} (hF : 549756338176 ||| F = F) (h2 : Frm F b s2) : FrmR F b (execCapStatRead a0 a1 s2) := by
  unfold execCapStatRead
  repeat' first
    | with_reducible assumption
    | ((with_reducible apply subt hF); rfl)
    | with_reducible first | apply fr_ifWf | apply fr_State_readOr | apply fr_capStatRead

theorem fr_State_setPpo {F : Nat} {b : State} {s0 a1 a2} (hF : 524296 ||| F = F) (h0 : Frm F b s0) : Frm F b (State.setPpo s0 a1 a2) := by
  unfold State.setPpo
  repeat' first
    | with_reducible assumption
    | ((with_reducible apply subt hF); rfl)
    | with_reducible first | apply fr_State_setReg | apply fr_mk_524288
    | simp only [frm_mk]

theorem fr_ppoArmed {F : Nat} {b : State} {s0 a1} (hF : 524296 ||| F = F) (h0 : Frm F b s0) : Frm F b (ppoArmed s0 a1) := by
  unfold ppoArmed
  repeat' first
    | with_reducible assumption
    | ((with_reducible apply subt hF); rfl)
    | with_reducible apply fr_State_setPpo

theorem fr_ppoFires {F : Nat} {b : State} {s0 a1} (hF : 549756493832 ||| F = F) (h0 : Frm F b s0) : Frm F b (ppoFires s0 a1) := by
  unfold ppoFires
  repeat' first
    | with_reducible assumption
    | ((with_reducible apply subt hF); rfl)
    | with_reducible first | apply fr_State_raise | apply fr_State_emit | apply fr_State_setPpo
    | split

theorem fr_ppoWrite {F : Nat} {b : State} {s0 a1 a2 a3} (hF : 549756559368 ||| F = F) (h0 : Frm F b s0) : Frm F b (ppoWrite s0 a1 a2 a3) := by
  unfold ppoWrite
  repeat' first
    | with_reducible assumption
    | ((with_reducible apply subt hF); rfl)
    | with_reducible first | apply fr_ppoFires | apply fr_logReg | apply fr_State_setReg | apply fr_ppoArmed | apply fr_State_setPpo
    | split

theorem fr_execPpoArm {F : Nat} {b : State} {a0 a1 a2 s3} (hF : 549756559368 ||| F = F) (h3 : Frm F b s3) : FrmR F b (execPpoArm a0 a1 a2 s3) := by
  unfold execPpoArm
  repeat' first
    | with_reducible assumption
    | ((with_reducible apply subt hF); rfl)
    | with_reducible first | apply fr_ifWf | apply fr_State_write | apply fr_ppoWrite

theorem fr_execPpoFire {F : Nat} {b : State} {a0 s1} (hF : 549756493832 ||| F = F) (h1 : Frm F b s1) : FrmR F b (execPpoFire a0 s1) := by
  unfold execPpoFire
  repeat' first
    | with_reducible assumption
    | ((with_reducible apply subt hF); rfl)
    | with_reducible first | apply fr_ifWf | apply fr_whenever | apply fr_ppoFires

end Sys2Proof.Laws
end

