-- ==== Sys2Proof/Laws/Frame1.lean ====
section
/-!
SUPPORT. `Frm` for the functions of Machine/: GptpOps, EgressOps, Egress, Admission, Ports.
-/
set_option linter.unusedVariables false
namespace Sys2Proof.Laws
set_option Elab.async false
open Sys2Proof Sys2Proof.Machine

/-! ### GptpOps -/

theorem fr_State_setPdelay {F : Nat} {b : State} {s0 a1 a2} (hF : 2097152 ||| F = F) (h0 : Frm F b s0) : Frm F b (State.setPdelay s0 a1 a2) := by
  unfold State.setPdelay
  repeat' first
    | with_reducible assumption
    | ((with_reducible apply subt hF); rfl)
    | with_reducible apply fr_mk_2097152
    | simp only [frm_mk]

theorem fr_takeAdj {F : Nat} {b : State} {s0 a1 a2} (hF : 2097160 ||| F = F) (h0 : Frm F b s0) : Frm F b (takeAdj s0 a1 a2) := by
  unfold takeAdj
  repeat' first
    | with_reducible assumption
    | ((with_reducible apply subt hF); rfl)
    | with_reducible first | apply fr_State_setDom | apply fr_State_bump
    | split
    | dsimp only

theorem fr_servo {F : Nat} {b : State} {s0 a1} (hF : 1099513724936 ||| F = F) (h0 : Frm F b s0) : Frm F b (servo s0 a1) := by
  unfold servo
  repeat' first
    | with_reducible assumption
    | ((with_reducible apply subt hF); rfl)
    | with_reducible first | apply fr_takeAdj | apply fr_State_tick1

theorem fr_domEnter {F : Nat} {b : State} {s0 a1 a2} (hF : 1717989433352 ||| F = F) (h0 : Frm F b s0) : Frm F b (domEnter s0 a1 a2) := by
  unfold domEnter
  repeat' first
    | with_reducible assumption
    | ((with_reducible apply subt hF); rfl)
    | with_reducible first | apply fr_State_setDom | apply fr_State_raise | apply fr_pbDomainLost
    | split
    | dsimp only

theorem fr_domHoldover {F : Nat} {b : State} {s0 a1} (hF : 1717989433352 ||| F = F) (h0 : Frm F b s0) : Frm F b (domHoldover s0 a1) := by
  unfold domHoldover
  repeat' first
    | with_reducible assumption
    | ((with_reducible apply subt hF); rfl)
    | with_reducible first | apply fr_State_report | apply fr_State_raise | apply fr_domEnter

theorem fr_domStep {F : Nat} {b : State} {s0 a1 a2} (hF : 2097160 ||| F = F) (h0 : Frm F b s0) : Frm F b (domStep s0 a1 a2) := by
  unfold domStep
  repeat' first
    | with_reducible assumption
    | ((with_reducible apply subt hF); rfl)
    | with_reducible first | apply fr_State_bump | apply fr_State_setDom

theorem fr_slavePortLost {F : Nat} {b : State} {s0 a1} (hF : 1717989433352 ||| F = F) (h0 : Frm F b s0) : Frm F b (slavePortLost s0 a1) := by
  unfold slavePortLost
  repeat' first
    | with_reducible assumption
    | ((with_reducible apply subt hF); rfl)
    | with_reducible first | apply fr_domHoldover | apply frm_foldl
    | intro _
    | split

theorem fr_asCapLost {F : Nat} {b : State} {s0 a1} (hF : 1717989433352 ||| F = F) (h0 : Frm F b s0) : Frm F b (asCapLost s0 a1) := by
  unfold asCapLost
  repeat' first
    | with_reducible assumption
    | ((with_reducible apply subt hF); rfl)
    | with_reducible first | apply fr_slavePortLost | apply fr_State_bump | apply fr_State_raise | apply fr_State_setPdelay
    | split

theorem fr_servoCommit {F : Nat} {b : State} {s0 a1} (hF : 2097160 ||| F = F) (h0 : Frm F b s0) : Frm F b (servoCommit s0 a1) := by
  unfold servoCommit
  repeat' first
    | with_reducible assumption
    | ((with_reducible apply subt hF); rfl)
    | with_reducible apply fr_takeAdj
    | split

theorem fr_pdelayCommit {F : Nat} {b : State} {s0 a1} (hF : 1717989433352 ||| F = F) (h0 : Frm F b s0) : Frm F b (pdelayCommit s0 a1) := by
  unfold pdelayCommit
  repeat' first
    | with_reducible assumption
    | ((with_reducible apply subt hF); rfl)
    | with_reducible first | apply fr_asCapLost | apply fr_State_setPdelay
    | split
    | dsimp only

theorem fr_domCommit {F : Nat} {b : State} {s0 a1 a2} (hF : 1717989433352 ||| F = F) (h0 : Frm F b s0) : Frm F b (domCommit s0 a1 a2) := by
  unfold domCommit
  repeat' first
    | with_reducible assumption
    | ((with_reducible apply subt hF); rfl)
    | with_reducible first | apply fr_State_setDom | apply fr_domEnter | apply fr_domHoldover
    | split

theorem fr_usedSeq {F : Nat} {b : State} {s0 a1 a2 a3} (hF : 2097152 ||| F = F) (h0 : Frm F b s0) : Frm F b (usedSeq s0 a1 a2 a3) := by
  unfold usedSeq
  repeat' first
    | with_reducible assumption
    | ((with_reducible apply subt hF); rfl)
    | with_reducible apply fr_mk_2097152
    | simp only [frm_mk]

theorem fr_enterFrame {F : Nat} {b : State} {s0 a1} (hF : 201326592 ||| F = F) (h0 : Frm F b s0) : Frm F b (enterFrame s0 a1) := by
  unfold enterFrame
  repeat' first
    | with_reducible assumption
    | ((with_reducible apply subt hF); rfl)
    | with_reducible first | apply fr_State_setFrame | apply fr_mk_134217728
    | simp only [frm_mk]

theorem fr_enterPaced {F : Nat} {b : State} {s0 a1} (hF : 469762048 ||| F = F) (h0 : Frm F b s0) : Frm F b (enterPaced s0 a1) := by
  unfold enterPaced
  repeat' first
    | with_reducible assumption
    | ((with_reducible apply subt hF); rfl)
    | with_reducible first | apply fr_enterFrame | apply fr_mk_268435456
    | simp only [frm_mk]

theorem fr_sourceFrame {F : Nat} {b : State} {s0 a1 a2} (hF : 469762048 ||| F = F) (h0 : Frm F b s0) : Frm F b (sourceFrame s0 a1 a2) := by
  unfold sourceFrame
  repeat' first
    | with_reducible assumption
    | ((with_reducible apply subt hF); rfl)
    | with_reducible first | apply fr_enterPaced | apply fr_mk_268435456
    | simp only [frm_mk]
    | split

theorem fr_sourceDue {F : Nat} {b : State} {s0 a1} (hF : 469762048 ||| F = F) (h0 : Frm F b s0) : Frm F b (sourceDue s0 a1) := by
  unfold sourceDue
  repeat' first
    | with_reducible assumption
    | ((with_reducible apply subt hF); rfl)
    | with_reducible first | apply fr_enterPaced | apply fr_mk_268435456
    | simp only [frm_mk]
    | split

theorem fr_gptpSend {F : Nat} {b : State} {s0 a1 a2 a3 a4} (hF : 469762048 ||| F = F) (h0 : Frm F b s0) : Frm F b (gptpSend s0 a1 a2 a3 a4) := by
  unfold gptpSend
  repeat' first
    | with_reducible assumption
    | ((with_reducible apply subt hF); rfl)
    | with_reducible apply fr_sourceFrame

theorem fr_sendSyncs {F : Nat} {b : State} {a0 a1 a2 s3} (hF : 471859208 ||| F = F) (h3 : Frm F b s3) : Frm F b (sendSyncs a0 a1 a2 s3) := by
  induction a1 generalizing a2 s3 with
  | nil => exact h3
  | cons p ps ih =>
    unfold sendSyncs
    exact ih (fr_State_bump (subm hF) (fr_gptpSend (subm hF) (fr_usedSeq (subm hF) h3)))

theorem fr_gptpLeft {F : Nat} {b : State} {s0 a1 a2 a3} (hF : 471859200 ||| F = F) (h0 : Frm F b s0) : Frm F b (gptpLeft s0 a1 a2 a3) := by
  unfold gptpLeft
  repeat' first
    | with_reducible assumption
    | ((with_reducible apply subt hF); rfl)
    | with_reducible first | apply fr_State_setDom | apply fr_State_setPdelay | apply fr_gptpSend
    | split

/-! ### EgressOps -/

theorem fr_setBucket {F : Nat} {b : State} {s0 a1 a2 a3} (hF : 536870912 ||| F = F) (h0 : Frm F b s0) : Frm F b (setBucket s0 a1 a2 a3) := by
  unfold setBucket
  repeat' first
    | with_reducible assumption
    | ((with_reducible apply subt hF); rfl)
    | with_reducible apply fr_State_setEgs

theorem fr_refillBucket {F : Nat} {b : State} {s0 a1 a2} (hF : 536870912 ||| F = F) (h0 : Frm F b s0) : Frm F b (refillBucket s0 a1 a2) := by
  unfold refillBucket
  repeat' first
    | with_reducible assumption
    | ((with_reducible apply subt hF); rfl)
    | with_reducible apply fr_setBucket
    | split

theorem fr_chargeBucket {F : Nat} {b : State} {s0 a1 a2 a3} (hF : 536870912 ||| F = F) (h0 : Frm F b s0) : Frm F b (chargeBucket s0 a1 a2 a3) := by
  unfold chargeBucket
  repeat' first
    | with_reducible assumption
    | ((with_reducible apply subt hF); rfl)
    | with_reducible apply fr_setBucket
    | split

theorem fr_chargeCredit {F : Nat} {b : State} {s0 a1 a2 a3 a4} (hF : 536870912 ||| F = F) (h0 : Frm F b s0) : Frm F b (chargeCredit s0 a1 a2 a3 a4) := by
  unfold chargeCredit
  repeat' first
    | with_reducible assumption
    | ((with_reducible apply subt hF); rfl)
    | with_reducible apply fr_setCredit
    | split

theorem fr_settleCredits {F : Nat} {b : State} {s0 a1} (hF : 536870912 ||| F = F) (h0 : Frm F b s0) : Frm F b (settleCredits s0 a1) := by
  unfold settleCredits
  repeat' first
    | with_reducible assumption
    | ((with_reducible apply subt hF); rfl)
    | with_reducible first | apply fr_settleCredit | apply frm_foldl
    | intro _

theorem fr_egsLost {F : Nat} {b : State} {s0 a1 a2} (hF : 1717987074056 ||| F = F) (h0 : Frm F b s0) : Frm F b (egsLost s0 a1 a2) := by
  unfold egsLost
  repeat' first
    | with_reducible assumption
    | ((with_reducible apply subt hF); rfl)
    | with_reducible first | apply fr_State_report | apply fr_State_bump | apply fr_memRepeated

theorem fr_loseLevel {F : Nat} {b : State} {s0 a1 a2 a3} (hF : 1718523944968 ||| F = F) (h0 : Frm F b s0) : Frm F b (loseLevel s0 a1 a2 a3) := by
  unfold loseLevel
  repeat' first
    | with_reducible assumption
    | ((with_reducible apply subt hF); rfl)
    | with_reducible first | apply fr_egsLost | apply fr_setBucket | apply fr_setCredit | apply fr_setDeficit
    | split

theorem fr_readLevels {F : Nat} {b : State} {s0 a1} (hF : 1718523944968 ||| F = F) (h0 : Frm F b s0) : Frm F b (readLevels s0 a1) := by
  unfold readLevels
  repeat' first
    | with_reducible assumption
    | ((with_reducible apply subt hF); rfl)
    | with_reducible first | apply fr_memRead | apply fr_loseLevel | apply fr_State_tick1
    | split
    | with_reducible refine frm_fst (by assumption) ?_

theorem fr_preemptClose {F : Nat} {b : State} {s0 a1} (hF : 536870920 ||| F = F) (h0 : Frm F b s0) : Frm F b (preemptClose s0 a1) := by
  unfold preemptClose
  repeat' first
    | with_reducible assumption
    | ((with_reducible apply subt hF); rfl)
    | with_reducible first | apply fr_State_bump | apply fr_State_setEgs
    | split
    | dsimp only

theorem fr_windowOverrun {F : Nat} {b : State} {s0 a1} (hF : 1718523944968 ||| F = F) (h0 : Frm F b s0) : Frm F b (windowOverrun s0 a1) := by
  unfold windowOverrun
  repeat' first
    | with_reducible assumption
    | ((with_reducible apply subt hF); rfl)
    | with_reducible first | apply fr_State_report | apply fr_State_raise | apply fr_State_bump | apply fr_State_setEgs
    | split
    | dsimp only

theorem fr_readSchedule {F : Nat} {b : State} {s0 a1} (hF : 1717987074056 ||| F = F) (h0 : Frm F b s0) : Frm F b (readSchedule s0 a1) := by
  unfold readSchedule
  repeat' first
    | with_reducible assumption
    | ((with_reducible apply subt hF); rfl)
    | with_reducible first | apply fr_memRead | apply fr_egsLost
    | split
    | with_reducible refine frm_fst (by assumption) ?_

theorem fr_entryBegins {F : Nat} {b : State} {s0 a1 a2 a3 a4 a5} (hF : 1718523944968 ||| F = F) (h0 : Frm F b s0) : Frm F b (entryBegins s0 a1 a2 a3 a4 a5) := by
  unfold entryBegins
  repeat' first
    | with_reducible assumption
    | ((with_reducible apply subt hF); rfl)
    | with_reducible first | apply fr_readSchedule | apply fr_settleCredits | apply fr_State_setEgs | apply fr_windowOverrun | apply fr_preemptClose

theorem fr_listOff {F : Nat} {b : State} {s0 a1} (hF : 536870912 ||| F = F) (h0 : Frm F b s0) : Frm F b (listOff s0 a1) := by
  unfold listOff
  repeat' first
    | with_reducible assumption
    | ((with_reducible apply subt hF); rfl)
    | with_reducible first | apply fr_settleCredits | apply fr_State_setEgs

theorem fr_listBegins {F : Nat} {b : State} {s0 a1 a2 a3 a4} (hF : 1718523944968 ||| F = F) (h0 : Frm F b s0) : Frm F b (listBegins s0 a1 a2 a3 a4) := by
  unfold listBegins
  repeat' first
    | with_reducible assumption
    | ((with_reducible apply subt hF); rfl)
    | with_reducible first | apply fr_listOff | apply fr_entryBegins | apply fr_State_setEgs
    | split

theorem fr_placeList {F : Nat} {b : State} {s0 a1 a2 a3} (hF : 1718523944968 ||| F = F) (h0 : Frm F b s0) : Frm F b (placeList s0 a1 a2 a3) := by
  unfold placeList
  repeat' first
    | with_reducible assumption
    | ((with_reducible apply subt hF); rfl)
    | with_reducible first | apply fr_listOff | apply fr_listBegins | apply fr_entryBegins | apply fr_State_setEgs
    | split

theorem fr_installList {F : Nat} {b : State} {s0 a1 a2 a3} (hF : 536870912 ||| F = F) (h0 : Frm F b s0) : Frm F b (installList s0 a1 a2 a3) := by
  unfold installList
  repeat' first
    | with_reducible assumption
    | ((with_reducible apply subt hF); rfl)
    | with_reducible apply fr_State_setEgs

/-! ### Egress -/

theorem fr_dropHead {F : Nat} {b : State} {s0 a1 a2} (hF : 550628384776 ||| F = F) (h0 : Frm F b s0) : Frm F b (dropHead s0 a1 a2).1 := by
  unfold dropHead
  repeat' first
    | with_reducible assumption
    | ((with_reducible apply subt hF); rfl)
    | with_reducible first | apply fr_State_bump | apply fr_removeCopy | apply fr_State_raise
    | split
    | dsimp only

theorem fr_dropHeads {F : Nat} {b : State} {a0 a1 a2 s3} (hF : 550628384776 ||| F = F) (h3 : Frm F b s3) : Frm F b (dropHeads a0 a1 a2 s3) := by
  induction a2 generalizing s3 with
  | zero => exact h3
  | succ n ih =>
    have hd := fr_dropHead (subm hF) (a1 := a0) (a2 := a1) h3
    unfold dropHeads
    split
    · rename_i e; rw [e] at hd; exact ih hd
    · rename_i e; rw [e] at hd; exact hd

theorem fr_countNofit {F : Nat} {b : State} {a0 s1 a2} (hF : 536870920 ||| F = F) (h1 : Frm F b s1) : Frm F b (countNofit a0 s1 a2) := by
  unfold countNofit
  repeat' first
    | with_reducible assumption
    | ((with_reducible apply subt hF); rfl)
    | with_reducible first | apply fr_State_bump | apply fr_State_setEgs
    | split
    | dsimp only

theorem fr_dwrrVisit {F : Nat} {b : State} {s0 a1 a2 a3} (hF : 536870912 ||| F = F) (h0 : Frm F b s0) : Frm F b (dwrrVisit s0 a1 a2 a3).1 := by
  unfold dwrrVisit
  repeat' first
    | with_reducible assumption
    | ((with_reducible apply subt hF); rfl)
    | with_reducible first | apply fr_setDeficit | apply fr_State_setEgs
    | split
    | dsimp only

theorem fr_dwrrRound {F : Nat} {b : State} {a0 a1 s2} (hF : 536870912 ||| F = F) (h2 : Frm F b s2) : Frm F b (dwrrRound a0 a1 s2).1 := by
  induction a1 generalizing s2 with
  | nil => exact h2
  | cons x rest ih =>
    have hd := fr_dwrrVisit (subm hF) (a1 := a0) (a2 := x.1) (a3 := x.2) h2
    obtain ⟨q, b⟩ := x
    unfold dwrrRound
    split
    · rename_i e; rw [e] at hd; exact hd
    · rename_i e; rw [e] at hd; exact ih hd

theorem fr_dwrrRounds {F : Nat} {b : State} {a0 a1 a2 s3} (hF : 536870912 ||| F = F) (h3 : Frm F b s3) : Frm F b (dwrrRounds a0 a1 a2 s3).1 := by
  induction a2 generalizing s3 with
  | zero => exact h3
  | succ n ih =>
    have hd := fr_dwrrRound (subm hF) (a0 := a0) (a1 := a1) h3
    unfold dwrrRounds
    split
    · rename_i e; rw [e] at hd; exact hd
    · rename_i e; rw [e] at hd; exact ih hd

theorem fr_pickIn {F : Nat} {b : State} {s0 a1 a2 a3} (hF : 536870912 ||| F = F) (h0 : Frm F b s0) : Frm F b (pickIn s0 a1 a2 a3).1 := by
  unfold pickIn
  repeat' first
    | with_reducible assumption
    | ((with_reducible apply subt hF); rfl)
    | with_reducible apply fr_dwrrRounds
    | split
    | dsimp only

theorem fr_pick {F : Nat} {b : State} {s0 a1 a2} (hF : 536870912 ||| F = F) (h0 : Frm F b s0) : Frm F b (pick s0 a1 a2).1 := by
  unfold pick
  repeat' first
    | with_reducible assumption
    | ((with_reducible apply subt hF); rfl)
    | with_reducible apply fr_pickIn
    | split
    | dsimp only

theorem fr_txBytes {F : Nat} {b : State} {s0 a1 a2} (hF : 2006890799112 ||| F = F) (h0 : Frm F b s0) : Frm F b (txBytes s0 a1 a2).1 := by
  unfold txBytes
  repeat' first
    | with_reducible assumption
    | ((with_reducible apply subt hF); rfl)
    | with_reducible first | apply fr_mscTransmit | apply fr_State_bump | apply fr_State_tick1 | apply fr_pipeDelay
    | split
    | with_reducible refine frm_fst (by assumption) ?_
    | dsimp only

theorem fr_markCut {F : Nat} {b : State} {s0 a1 a2 a3} (hF : 536870912 ||| F = F) (h0 : Frm F b s0) : Frm F b (markCut s0 a1 a2 a3) := by
  unfold markCut
  repeat' first
    | with_reducible assumption
    | ((with_reducible apply subt hF); rfl)
    | with_reducible apply fr_State_setEgs

theorem fr_behindPre {F : Nat} {b : State} {s0 a1 a2 a3} (hF : 536870912 ||| F = F) (h0 : Frm F b s0) : Frm F b (behindPre s0 a1 a2 a3).1 := by
  unfold behindPre
  repeat' first
    | with_reducible assumption
    | ((with_reducible apply subt hF); rfl)
    | with_reducible apply fr_markCut
    | split

theorem fr_selectCopy {F : Nat} {b : State} {s0 a1 a2 a3 a4 a5 a6 a7} (hF : 805306376 ||| F = F) (h0 : Frm F b s0) : Frm F b (selectCopy s0 a1 a2 a3 a4 a5 a6 a7) := by
  unfold selectCopy
  repeat' first
    | with_reducible assumption
    | ((with_reducible apply subt hF); rfl)
    | with_reducible first | apply fr_behindPre | apply fr_State_setEgs | apply fr_State_setCopy | apply fr_State_bump

theorem fr_dropAll {F : Nat} {b : State} {s0 a1} (hF : 550628384776 ||| F = F) (h0 : Frm F b s0) : Frm F b (dropAll s0 a1) := by
  unfold dropAll
  repeat' first
    | with_reducible assumption
    | ((with_reducible apply subt hF); rfl)
    | with_reducible first | apply fr_dropHeads | apply frm_foldl
    | intro _
    | split

theorem fr_decide_ {F : Nat} {b : State} {s0 a1 a2} (hF : 1718859489288 ||| F = F) (h0 : Frm F b s0) : Frm F b (decide_ s0 a1 a2) := by
  unfold decide_
  repeat' first
    | with_reducible assumption
    | ((with_reducible apply subt hF); rfl)
    | with_reducible first | apply fr_dropAll | apply fr_readLevels | apply fr_countNofit | apply fr_pick | apply fr_selectCopy | apply frm_foldl
    | intro _
    | split
    | with_reducible refine frm_fst (by assumption) ?_
    | dsimp only

theorem fr_execEgressDecision {F : Nat} {b : State} {a0 a1 s2} (hF : 1718859489288 ||| F = F) (h2 : Frm F b s2) : FrmR F b (execEgressDecision a0 a1 s2) := by
  unfold execEgressDecision
  repeat' first
    | with_reducible assumption
    | ((with_reducible apply subt hF); rfl)
    | with_reducible first | apply fr_ifWf | apply fr_whenever | apply fr_decide_

theorem fr_suspendTx {F : Nat} {b : State} {s0 a1 a2 a3} (hF : 550292684800 ||| F = F) (h0 : Frm F b s0) : Frm F b (suspendTx s0 a1 a2 a3) := by
  unfold suspendTx
  repeat' first
    | with_reducible assumption
    | ((with_reducible apply subt hF); rfl)
    | with_reducible first | apply fr_State_setEgs | apply fr_State_emit

theorem fr_deliver {F : Nat} {b : State} {s0 a1 a2} (hF : 2147487744 ||| F = F) (h0 : Frm F b s0) : Frm F b (deliver s0 a1 a2) := by
  unfold deliver
  repeat' first
    | with_reducible assumption
    | ((with_reducible apply subt hF); rfl)
    | with_reducible first | apply fr_State_setRing | apply fr_mk_2147483648
    | simp only [frm_mk]
    | split

theorem fr_endTx {F : Nat} {b : State} {s0 a1 a2} (hF : 552775716872 ||| F = F) (h0 : Frm F b s0) : Frm F b (endTx s0 a1 a2) := by
  unfold endTx
  repeat' first
    | with_reducible assumption
    | ((with_reducible apply subt hF); rfl)
    | with_reducible first | apply fr_State_setEgs | apply fr_State_bumpBy | apply fr_State_bump | apply fr_State_emit | apply fr_State_setFrame | apply fr_deliver | apply fr_removeCopy
    | split

theorem fr_lineFreed {F : Nat} {b : State} {s0 a1} (hF : 552775716872 ||| F = F) (h0 : Frm F b s0) : Frm F b (lineFreed s0 a1) := by
  unfold lineFreed
  repeat' first
    | with_reducible assumption
    | ((with_reducible apply subt hF); rfl)
    | with_reducible first | apply fr_suspendTx | apply fr_endTx
    | split

theorem fr_execLineFree {F : Nat} {b : State} {a0 s1} (hF : 552775716872 ||| F = F) (h1 : Frm F b s1) : FrmR F b (execLineFree a0 s1) := by
  unfold execLineFree
  repeat' first
    | with_reducible assumption
    | ((with_reducible apply subt hF); rfl)
    | with_reducible first | apply fr_ifWf | apply fr_lineFreed

theorem fr_eventLeaves {F : Nat} {b : State} {s0 a1 a2} (hF : 471859200 ||| F = F) (h0 : Frm F b s0) : Frm F b (eventLeaves s0 a1 a2) := by
  unfold eventLeaves
  repeat' first
    | with_reducible assumption
    | ((with_reducible apply subt hF); rfl)
    | with_reducible apply fr_gptpLeft
    | split

theorem fr_startsNow {F : Nat} {b : State} {s0 a1 a2 a3} (hF : 1718995804168 ||| F = F) (h0 : Frm F b s0) : Frm F b (startsNow s0 a1 a2 a3) := by
  unfold startsNow
  repeat' first
    | with_reducible assumption
    | ((with_reducible apply subt hF); rfl)
    | with_reducible first | apply fr_eventLeaves | apply fr_State_setEgs | apply fr_chargeBucket | apply fr_chargeCredit | apply fr_windowOverrun | apply fr_preemptClose

theorem fr_startSel {F : Nat} {b : State} {s0 a1} (hF : 2009979908104 ||| F = F) (h0 : Frm F b s0) : Frm F b (startSel s0 a1) := by
  unfold startSel
  repeat' first
    | with_reducible assumption
    | ((with_reducible apply subt hF); rfl)
    | with_reducible first | apply fr_lineFreed | apply fr_unselect | apply fr_txBytes | apply fr_removeCopy | apply fr_State_setEgs | apply fr_startsNow
    | split
    | with_reducible refine frm_fst (by assumption) ?_
    | dsimp only

theorem fr_resume {F : Nat} {b : State} {s0 a1} (hF : 536870920 ||| F = F) (h0 : Frm F b s0) : Frm F b (resume s0 a1) := by
  unfold resume
  repeat' first
    | with_reducible assumption
    | ((with_reducible apply subt hF); rfl)
    | with_reducible first | apply fr_State_bump | apply fr_State_setEgs
    | split
    | dsimp only

theorem fr_execPreemptResume {F : Nat} {b : State} {a0 s1} (hF : 536870920 ||| F = F) (h1 : Frm F b s1) : FrmR F b (execPreemptResume a0 s1) := by
  unfold execPreemptResume
  repeat' first
    | with_reducible assumption
    | ((with_reducible apply subt hF); rfl)
    | with_reducible first | apply fr_ifWf | apply fr_resume

theorem fr_takeSettings {F : Nat} {b : State} {s0 a1} (hF : 536870912 ||| F = F) (h0 : Frm F b s0) : Frm F b (takeSettings s0 a1) := by
  unfold takeSettings
  repeat' first
    | with_reducible assumption
    | ((with_reducible apply subt hF); rfl)
    | with_reducible first | apply fr_settleCredits | apply fr_State_setEgs
    | split

theorem fr_refillAll {F : Nat} {b : State} {s0} (hF : 1718523944968 ||| F = F) (h0 : Frm F b s0) : Frm F b (refillAll s0) := by
  unfold refillAll
  repeat' first
    | with_reducible assumption
    | ((with_reducible apply subt hF); rfl)
    | with_reducible first | apply fr_takeSettings | apply fr_refillBucket | apply fr_memRead | apply fr_loseLevel | apply fr_State_tick1 | apply fr_mk_536870912 | apply frm_foldl
    | simp only [frm_mk]
    | intro _
    | split
    | with_reducible refine frm_fst (by assumption) ?_

theorem fr_execBucketRefill {F : Nat} {b : State} {s0} (hF : 1718523944968 ||| F = F) (h0 : Frm F b s0) : FrmR F b (execBucketRefill s0) := by
  unfold execBucketRefill
  repeat' first
    | with_reducible assumption
    | ((with_reducible apply subt hF); rfl)
    | with_reducible first | apply fr_whenever | apply fr_refillAll | apply frmR_next

theorem fr_execGclEntryBegin {F : Nat} {b : State} {a0 s1} (hF : 1718523944968 ||| F = F) (h1 : Frm F b s1) : FrmR F b (execGclEntryBegin a0 s1) := by
  unfold execGclEntryBegin
  repeat' first
    | with_reducible assumption
    | ((with_reducible apply subt hF); rfl)
    | with_reducible first | apply fr_ifWf | apply fr_entryBegins
    | split

theorem fr_boundaryDue {F : Nat} {b : State} {s0 a1} (hF : 1718523944968 ||| F = F) (h0 : Frm F b s0) : Frm F b (boundaryDue s0 a1) := by
  unfold boundaryDue
  repeat' first
    | with_reducible assumption
    | ((with_reducible apply subt hF); rfl)
    | with_reducible apply fr_listBegins
    | split
    | dsimp only

theorem fr_execGclListBoundary {F : Nat} {b : State} {a0 s1} (hF : 1718523944968 ||| F = F) (h1 : Frm F b s1) : FrmR F b (execGclListBoundary a0 s1) := by
  unfold execGclListBoundary
  repeat' first
    | with_reducible assumption
    | ((with_reducible apply subt hF); rfl)
    | with_reducible first | apply fr_ifWf | apply fr_boundaryDue

theorem fr_gclWrite {F : Nat} {b : State} {s0 a1 a2} (hF : 536870920 ||| F = F) (h0 : Frm F b s0) : Frm F b (gclWrite s0 a1 a2) := by
  unfold gclWrite
  repeat' first
    | with_reducible assumption
    | ((with_reducible apply subt hF); rfl)
    | with_reducible first | apply fr_State_setFld | apply fr_mk_536870912
    | simp only [frm_mk]
    | split

theorem fr_execGclDataWrite {F : Nat} {b : State} {a0 a1 a2 s3} (hF : 550292905992 ||| F = F) (h3 : Frm F b s3) : FrmR F b (execGclDataWrite a0 a1 a2 s3) := by
  unfold execGclDataWrite
  repeat' first
    | with_reducible assumption
    | ((with_reducible apply subt hF); rfl)
    | with_reducible first | apply fr_ifWf | apply fr_State_write | apply fr_logReg | apply fr_gclWrite

/-! ### Admission -/

theorem fr_flushQueue {F : Nat} {b : State} {s0 a1 a2} (hF : 805306368 ||| F = F) (h0 : Frm F b s0) : Frm F b (flushQueue s0 a1 a2) := by
  unfold flushQueue
  repeat' first
    | with_reducible assumption
    | ((with_reducible apply subt hF); rfl)
    | with_reducible first | apply fr_unselect | apply fr_State_setQueue | apply frm_foldl
    | intro _

theorem fr_offOne {F : Nat} {b : State} {s0 a1} (hF : 872415240 ||| F = F) (h0 : Frm F b s0) : Frm F b (offOne s0 a1) := by
  unfold offOne
  repeat' first
    | with_reducible assumption
    | ((with_reducible apply subt hF); rfl)
    | with_reducible first | apply fr_State_bump | apply fr_removeCopy
    | split

theorem fr_logShed {F : Nat} {b : State} {s0 a1 a2} (hF : 549756035080 ||| F = F) (h0 : Frm F b s0) : Frm F b (logShed s0 a1 a2) := by
  unfold logShed
  repeat' first
    | with_reducible assumption
    | ((with_reducible apply subt hF); rfl)
    | with_reducible apply fr_State_silt_

theorem fr_shedQueue {F : Nat} {b : State} {a0 s1 a2} (hF : 1718792445960 ||| F = F) (h1 : Frm F b s1) : Frm F b (shedQueue a0 s1 a2) := by
  unfold shedQueue
  repeat' first
    | with_reducible assumption
    | ((with_reducible apply subt hF); rfl)
    | with_reducible first | apply fr_State_setFld | apply fr_State_setBitAt | apply fr_State_report | apply fr_State_raise | apply fr_State_bump | apply fr_logShed | apply fr_flushQueue
    | split
    | dsimp only

theorem fr_restoreQueue {F : Nat} {b : State} {a0 s1 a2} (hF : 549756035080 ||| F = F) (h1 : Frm F b s1) : Frm F b (restoreQueue a0 s1 a2) := by
  unfold restoreQueue
  repeat' first
    | with_reducible assumption
    | ((with_reducible apply subt hF); rfl)
    | with_reducible first | apply fr_State_setBitAt | apply fr_State_setFld | apply fr_logShed | apply fr_State_raise
    | split

theorem fr_reexamine {F : Nat} {b : State} {s0 a1} (hF : 1718792445960 ||| F = F) (h0 : Frm F b s0) : Frm F b (reexamine s0 a1) := by
  unfold reexamine
  repeat' first
    | with_reducible assumption
    | ((with_reducible apply subt hF); rfl)
    | with_reducible first | apply fr_shedQueue | apply fr_restoreQueue | apply frm_foldl
    | intro _

theorem fr_execShedReexamine {F : Nat} {b : State} {a0 s1} (hF : 1718792445960 ||| F = F) (h1 : Frm F b s1) : FrmR F b (execShedReexamine a0 s1) := by
  unfold execShedReexamine
  repeat' first
    | with_reducible assumption
    | ((with_reducible apply subt hF); rfl)
    | with_reducible first | apply fr_ifWf | apply fr_reexamine

theorem fr_renumber {F : Nat} {b : State} {s0} (hF : 536870920 ||| F = F) (h0 : Frm F b s0) : Frm F b (renumber s0) := by
  unfold renumber
  repeat' first
    | with_reducible assumption
    | ((with_reducible apply subt hF); rfl)
    | with_reducible first | apply fr_State_setFld | apply fr_mk_536870912 | apply frm_foldl
    | simp only [frm_mk]
    | intro _

theorem fr_admitQueue {F : Nat} {b : State} {s0 a1} (hF : 536870920 ||| F = F) (h0 : Frm F b s0) : Frm F b (admitQueue s0 a1) := by
  unfold admitQueue
  repeat' first
    | with_reducible assumption
    | ((with_reducible apply subt hF); rfl)
    | with_reducible first | apply fr_State_setFld | apply fr_renumber | apply fr_mk_536870912
    | simp only [frm_mk]
    | split

theorem fr_admitQueues {F : Nat} {b : State} {s0} (hF : 536870920 ||| F = F) (h0 : Frm F b s0) : Frm F b (admitQueues s0) := by
  unfold admitQueues
  repeat' first
    | with_reducible assumption
    | ((with_reducible apply subt hF); rfl)
    | with_reducible first | apply fr_admitQueue | apply frm_foldl
    | intro _

/-! ### Ports -/

theorem fr_afterMac {F : Nat} {b : State} {s0 a1 a2 a3 a4 a5 a6} (hF : 2007025016840 ||| F = F) (h0 : Frm F b s0) : Frm F b (afterMac s0 a1 a2 a3 a4 a5 a6) := by
  unfold afterMac
  repeat' first
    | with_reducible assumption
    | ((with_reducible apply subt hF); rfl)
    | with_reducible first | apply fr_mscReceive | apply fr_State_bump | apply fr_enterFrame | apply fr_pipeDelay
    | split
    | with_reducible refine frm_fst (by assumption) ?_
    | dsimp only

theorem fr_noteRx {F : Nat} {b : State} {s0 a1 a2 a3 a4 a5} (hF : 1048576 ||| F = F) (h0 : Frm F b s0) : Frm F b (noteRx s0 a1 a2 a3 a4 a5) := by
  unfold noteRx
  repeat' first
    | with_reducible assumption
    | ((with_reducible apply subt hF); rfl)
    | with_reducible apply fr_State_setMac

theorem fr_receive {F : Nat} {b : State} {s0 a1 a2 a3 a4 a5} (hF : 2007026065416 ||| F = F) (h0 : Frm F b s0) : Frm F b (receive s0 a1 a2 a3 a4 a5) := by
  unfold receive
  repeat' first
    | with_reducible assumption
    | ((with_reducible apply subt hF); rfl)
    | with_reducible first | apply fr_noteRx | apply fr_State_bump | apply fr_afterMac | apply fr_State_bumpBy
    | split

theorem fr_execFrameReceive {F : Nat} {b : State} {a0 a1 a2 a3 a4 s5} (hF : 2007026065416 ||| F = F) (h5 : Frm F b s5) : FrmR F b (execFrameReceive a0 a1 a2 a3 a4 s5) := by
  unfold execFrameReceive
  repeat' first
    | with_reducible assumption
    | ((with_reducible apply subt hF); rfl)
    | with_reducible first | apply fr_ifWf | apply fr_whenever | apply fr_receive

theorem fr_cutCopies {F : Nat} {b : State} {a0 a1 s2 a3} (hF : 536870912 ||| F = F) (h2 : Frm F b s2) : Frm F b (cutCopies a0 a1 s2 a3) := by
  unfold cutCopies
  repeat' first
    | with_reducible assumption
    | ((with_reducible apply subt hF); rfl)
    | with_reducible apply fr_State_setEgs

theorem fr_dropLearn {F : Nat} {b : State} {s0 a1} (hF : 16777216 ||| F = F) (h0 : Frm F b s0) : Frm F b (dropLearn s0 a1) := by
  unfold dropLearn
  repeat' first
    | with_reducible assumption
    | ((with_reducible apply subt hF); rfl)
    | with_reducible apply fr_mk_16777216
    | simp only [frm_mk]

theorem fr_unbump {F : Nat} {b : State} {s0 a1 a2} (hF : 8 ||| F = F) (h0 : Frm F b s0) : Frm F b (unbump s0 a1 a2) := by
  unfold unbump
  repeat' first
    | with_reducible assumption
    | ((with_reducible apply subt hF); rfl)
    | with_reducible apply fr_State_setPair

theorem fr_abortCount {F : Nat} {b : State} {a0 s1 a2} (hF : 8 ||| F = F) (h1 : Frm F b s1) : Frm F b (abortCount a0 s1 a2) := by
  unfold abortCount
  repeat' first
    | with_reducible assumption
    | ((with_reducible apply subt hF); rfl)
    | with_reducible first | apply fr_State_bump | apply fr_unbump

theorem fr_abortReception {F : Nat} {b : State} {s0 a1} (hF : 889192448 ||| F = F) (h0 : Frm F b s0) : Frm F b (abortReception s0 a1) := by
  unfold abortReception
  repeat' first
    | with_reducible assumption
    | ((with_reducible apply subt hF); rfl)
    | with_reducible first | apply fr_dropLearn | apply fr_retireFrame | apply fr_State_setFrame | apply fr_cutCopies | apply frm_foldl
    | intro _
    | split
    | dsimp only

theorem fr_endReceptions {F : Nat} {b : State} {s0 a1} (hF : 890241032 ||| F = F) (h0 : Frm F b s0) : Frm F b (endReceptions s0 a1) := by
  unfold endReceptions
  repeat' first
    | with_reducible assumption
    | ((with_reducible apply subt hF); rfl)
    | with_reducible first | apply fr_State_setMac | apply fr_abortCount | apply fr_abortReception | apply frm_foldl
    | intro _

theorem fr_abortTx {F : Nat} {b : State} {s0 a1} (hF : 550628229128 ||| F = F) (h0 : Frm F b s0) : Frm F b (abortTx s0 a1) := by
  unfold abortTx
  repeat' first
    | with_reducible assumption
    | ((with_reducible apply subt hF); rfl)
    | with_reducible first | apply fr_State_bump | apply fr_State_setEgs | apply fr_removeCopy | apply fr_State_emit
    | split

theorem fr_stopStarts {F : Nat} {b : State} {s0 a1} (hF : 805306368 ||| F = F) (h0 : Frm F b s0) : Frm F b (stopStarts s0 a1) := by
  unfold stopStarts
  repeat' first
    | with_reducible assumption
    | ((with_reducible apply subt hF); rfl)
    | with_reducible first | apply fr_unselect | apply fr_State_setEgs | apply frm_foldl
    | intro _

theorem fr_State_setTphy {F : Nat} {b : State} {s0 a1 a2} (hF : 1048576 ||| F = F) (h0 : Frm F b s0) : Frm F b (State.setTphy s0 a1 a2) := by
  unfold State.setTphy
  repeat' first
    | with_reducible assumption
    | ((with_reducible apply subt hF); rfl)
    | with_reducible apply fr_mk_1048576
    | simp only [frm_mk]

theorem fr_endNegotiation {F : Nat} {b : State} {s0 a1} (hF : 1048576 ||| F = F) (h0 : Frm F b s0) : Frm F b (endNegotiation s0 a1) := by
  unfold endNegotiation
  repeat' first
    | with_reducible assumption
    | ((with_reducible apply subt hF); rfl)
    | with_reducible apply fr_State_setTphy
    | split

theorem fr_leaveUp {F : Nat} {b : State} {s0 a1 a2} (hF : 1718879674376 ||| F = F) (h0 : Frm F b s0) : Frm F b (leaveUp s0 a1 a2) := by
  unfold leaveUp
  repeat' first
    | with_reducible assumption
    | ((with_reducible apply subt hF); rfl)
    | with_reducible first | apply fr_stopStarts | apply fr_endReceptions | apply fr_endNegotiation | apply fr_State_setMac | apply fr_slavePortLost | apply fr_State_raise | apply fr_State_bump | apply fr_mk_16777216
    | simp only [frm_mk]

theorem fr_markDown {F : Nat} {b : State} {s0 a1} (hF : 805306368 ||| F = F) (h0 : Frm F b s0) : Frm F b (markDown s0 a1) := by
  unfold markDown
  repeat' first
    | with_reducible assumption
    | ((with_reducible apply subt hF); rfl)
    | with_reducible first | apply fr_startFlush | apply fr_State_setEgs

theorem fr_downReport {F : Nat} {b : State} {s0 a1} (hF : 1168232153088 ||| F = F) (h0 : Frm F b s0) : Frm F b (downReport s0 a1) := by
  unfold downReport
  repeat' first
    | with_reducible assumption
    | ((with_reducible apply subt hF); rfl)
    | with_reducible first | apply fr_State_report | apply fr_State_setMac

theorem fr_downStep {F : Nat} {b : State} {s0 a1} (hF : 1718860382216 ||| F = F) (h0 : Frm F b s0) : Frm F b (downStep s0 a1) := by
  unfold downStep
  repeat' first
    | with_reducible assumption
    | ((with_reducible apply subt hF); rfl)
    | with_reducible first | apply fr_abortTx | apply fr_markDown | apply fr_downReport
    | split

theorem fr_finishDown {F : Nat} {b : State} {s0 a1} (hF : 1718860382216 ||| F = F) (h0 : Frm F b s0) : Frm F b (finishDown s0 a1) := by
  unfold finishDown
  repeat' first
    | with_reducible assumption
    | ((with_reducible apply subt hF); rfl)
    | with_reducible first | apply fr_abortTx | apply fr_downReport | apply fr_markDown
    | split

theorem fr_takeRole {F : Nat} {b : State} {s0 a1} (hF : 1048576 ||| F = F) (h0 : Frm F b s0) : Frm F b (takeRole s0 a1) := by
  unfold takeRole
  repeat' first
    | with_reducible assumption
    | ((with_reducible apply subt hF); rfl)
    | with_reducible apply fr_State_setTphy
    | split

theorem fr_sgmiiSends {F : Nat} {b : State} {s0 a1} (hF : 549755813888 ||| F = F) (h0 : Frm F b s0) : Frm F b (sgmiiSends s0 a1) := by
  unfold sgmiiSends
  repeat' first
    | with_reducible assumption
    | ((with_reducible apply subt hF); rfl)
    | with_reducible apply fr_State_emit
    | split

theorem fr_trainStart {F : Nat} {b : State} {s0 a1} (hF : 549756862464 ||| F = F) (h0 : Frm F b s0) : Frm F b (trainStart s0 a1) := by
  unfold trainStart
  repeat' first
    | with_reducible assumption
    | ((with_reducible apply subt hF); rfl)
    | with_reducible first | apply fr_sgmiiSends | apply fr_State_setMac | apply fr_takeRole

theorem fr_tc10Off {F : Nat} {b : State} {s0 a1} (hF : 1048576 ||| F = F) (h0 : Frm F b s0) : Frm F b (tc10Off s0 a1) := by
  unfold tc10Off
  repeat' first
    | with_reducible assumption
    | ((with_reducible apply subt hF); rfl)
    | with_reducible apply fr_State_setTphy
    | split

theorem fr_portDisable {F : Nat} {b : State} {s0 a1} (hF : 1718879674376 ||| F = F) (h0 : Frm F b s0) : Frm F b (portDisable s0 a1) := by
  unfold portDisable
  repeat' first
    | with_reducible assumption
    | ((with_reducible apply subt hF); rfl)
    | with_reducible first | apply fr_tc10Off | apply fr_leaveUp | apply fr_State_setMac
    | split

theorem fr_linkTrainStart {F : Nat} {b : State} {s0 a1} (hF : 1718879674376 ||| F = F) (h0 : Frm F b s0) : Frm F b (linkTrainStart s0 a1) := by
  unfold linkTrainStart
  repeat' first
    | with_reducible assumption
    | ((with_reducible apply subt hF); rfl)
    | with_reducible first | apply fr_portDisable | apply fr_trainStart | apply fr_leaveUp
    | split

theorem fr_laneEvents {F : Nat} {b : State} {s0 a1 a2} (hF : 549755969544 ||| F = F) (h0 : Frm F b s0) : Frm F b (laneEvents s0 a1 a2) := by
  unfold laneEvents
  repeat' first
    | with_reducible assumption
    | ((with_reducible apply subt hF); rfl)
    | with_reducible first | apply fr_State_raise | apply fr_State_bump
    | split

theorem fr_lossArises {F : Nat} {b : State} {s0 a1 a2} (hF : 549757018120 ||| F = F) (h0 : Frm F b s0) : Frm F b (lossArises s0 a1 a2) := by
  unfold lossArises
  repeat' first
    | with_reducible assumption
    | ((with_reducible apply subt hF); rfl)
    | with_reducible first | apply fr_State_bump | apply fr_State_setMac | apply fr_laneEvents
    | split
    | dsimp only

theorem fr_execLossCondition {F : Nat} {b : State} {a0 a1 s2} (hF : 549757018120 ||| F = F) (h2 : Frm F b s2) : FrmR F b (execLossCondition a0 a1 s2) := by
  unfold execLossCondition
  repeat' first
    | with_reducible assumption
    | ((with_reducible apply subt hF); rfl)
    | with_reducible first | apply fr_ifWf | apply fr_lossArises

theorem fr_lossClears {F : Nat} {b : State} {s0 a1 a2} (hF : 1048576 ||| F = F) (h0 : Frm F b s0) : Frm F b (lossClears s0 a1 a2) := by
  unfold lossClears
  repeat' first
    | with_reducible assumption
    | ((with_reducible apply subt hF); rfl)
    | with_reducible apply fr_State_setMac
    | split
    | dsimp only

theorem fr_execLossConditionClear {F : Nat} {b : State} {a0 a1 s2} (hF : 1048576 ||| F = F) (h2 : Frm F b s2) : FrmR F b (execLossConditionClear a0 a1 s2) := by
  unfold execLossConditionClear
  repeat' first
    | with_reducible assumption
    | ((with_reducible apply subt hF); rfl)
    | with_reducible first | apply fr_ifWf | apply fr_lossClears

theorem fr_slLeavesUp {F : Nat} {b : State} {s0} (hF : 584115707912 ||| F = F) (h0 : Frm F b s0) : Frm F b (slLeavesUp s0) := by
  unfold slLeavesUp
  repeat' first
    | with_reducible assumption
    | ((with_reducible apply subt hF); rfl)
    | with_reducible first | apply fr_State_raise | apply fr_mk_34359738368
    | simp only [frm_mk]

theorem fr_slLaneDown {F : Nat} {b : State} {s0 a1} (hF : 584116756488 ||| F = F) (h0 : Frm F b s0) : Frm F b (slLaneDown s0 a1) := by
  unfold slLaneDown
  repeat' first
    | with_reducible assumption
    | ((with_reducible apply subt hF); rfl)
    | with_reducible first | apply fr_State_setMac | apply fr_State_raise | apply fr_State_bump | apply fr_slLeavesUp | apply fr_mk_34359738368
    | simp only [frm_mk]
    | split

theorem fr_linkGoesDown {F : Nat} {b : State} {s0 a1} (hF : 1753239412744 ||| F = F) (h0 : Frm F b s0) : Frm F b (linkGoesDown s0 a1) := by
  unfold linkGoesDown
  repeat' first
    | with_reducible assumption
    | ((with_reducible apply subt hF); rfl)
    | with_reducible first | apply fr_trainStart | apply fr_leaveUp | apply fr_slLaneDown
    | split

theorem fr_execLinkDown {F : Nat} {b : State} {a0 s1} (hF : 1753239412744 ||| F = F) (h1 : Frm F b s1) : FrmR F b (execLinkDown a0 s1) := by
  unfold execLinkDown
  repeat' first
    | with_reducible assumption
    | ((with_reducible apply subt hF); rfl)
    | with_reducible first | apply fr_ifWf | apply fr_whenever | apply fr_linkGoesDown

theorem fr_mmStart {F : Nat} {b : State} {s0 a1} (hF : 549756862464 ||| F = F) (h0 : Frm F b s0) : Frm F b (mmStart s0 a1) := by
  unfold mmStart
  repeat' first
    | with_reducible assumption
    | ((with_reducible apply subt hF); rfl)
    | with_reducible first | apply fr_State_emit | apply fr_State_setMac
    | split

theorem fr_freshEgs {F : Nat} {b : State} {s0 a1} (hF : 536870912 ||| F = F) (h0 : Frm F b s0) : Frm F b (freshEgs s0 a1) := by
  unfold freshEgs
  repeat' first
    | with_reducible assumption
    | ((with_reducible apply subt hF); rfl)
    | with_reducible first | apply fr_State_setEgs | apply fr_setBucket | apply frm_foldl
    | intro _

theorem fr_portGoesUp {F : Nat} {b : State} {s0 a1} (hF : 1718860537864 ||| F = F) (h0 : Frm F b s0) : Frm F b (portGoesUp s0 a1) := by
  unfold portGoesUp
  repeat' first
    | with_reducible assumption
    | ((with_reducible apply subt hF); rfl)
    | with_reducible first | apply fr_finishDown | apply fr_State_setMac | apply fr_mmStart | apply fr_freshEgs | apply fr_State_tick1 | apply fr_State_raise
    | split
    | dsimp only

theorem fr_slLaneUp {F : Nat} {b : State} {s0 a1} (hF : 584116756488 ||| F = F) (h0 : Frm F b s0) : Frm F b (slLaneUp s0 a1) := by
  unfold slLaneUp
  repeat' first
    | with_reducible assumption
    | ((with_reducible apply subt hF); rfl)
    | with_reducible first | apply fr_State_setMac | apply fr_State_raise | apply fr_mk_34359738368
    | simp only [frm_mk]
    | split

theorem fr_linkGoesUp {F : Nat} {b : State} {s0 a1} (hF : 1753220276232 ||| F = F) (h0 : Frm F b s0) : Frm F b (linkGoesUp s0 a1) := by
  unfold linkGoesUp
  repeat' first
    | with_reducible assumption
    | ((with_reducible apply subt hF); rfl)
    | with_reducible first | apply fr_portGoesUp | apply fr_slLaneUp
    | split

theorem fr_execLinkUp {F : Nat} {b : State} {a0 s1} (hF : 1753220276232 ||| F = F) (h1 : Frm F b s1) : FrmR F b (execLinkUp a0 s1) := by
  unfold execLinkUp
  repeat' first
    | with_reducible assumption
    | ((with_reducible apply subt hF); rfl)
    | with_reducible first | apply fr_ifWf | apply fr_whenever | apply fr_linkGoesUp

theorem fr_altSwitch {F : Nat} {b : State} {s0 a1} (hF : 549756862464 ||| F = F) (h0 : Frm F b s0) : Frm F b (altSwitch s0 a1) := by
  unfold altSwitch
  repeat' first
    | with_reducible assumption
    | ((with_reducible apply subt hF); rfl)
    | with_reducible first | apply fr_sgmiiSends | apply fr_State_setMac

theorem fr_execAltModeSwitch {F : Nat} {b : State} {a0 s1} (hF : 549756862464 ||| F = F) (h1 : Frm F b s1) : FrmR F b (execAltModeSwitch a0 s1) := by
  unfold execAltModeSwitch
  repeat' first
    | with_reducible assumption
    | ((with_reducible apply subt hF); rfl)
    | with_reducible first | apply fr_ifWf | apply fr_whenever | apply fr_altSwitch

theorem fr_mmAnswered {F : Nat} {b : State} {s0 a1} (hF : 1048576 ||| F = F) (h0 : Frm F b s0) : Frm F b (mmAnswered s0 a1) := by
  unfold mmAnswered
  repeat' first
    | with_reducible assumption
    | ((with_reducible apply subt hF); rfl)
    | with_reducible apply fr_State_setMac
    | split

theorem fr_execMmVerifyResponse {F : Nat} {b : State} {a0 s1} (hF : 1048576 ||| F = F) (h1 : Frm F b s1) : FrmR F b (execMmVerifyResponse a0 s1) := by
  unfold execMmVerifyResponse
  repeat' first
    | with_reducible assumption
    | ((with_reducible apply subt hF); rfl)
    | with_reducible first | apply fr_ifWf | apply fr_mmAnswered

theorem fr_mmTimeout {F : Nat} {b : State} {s0 a1} (hF : 549757018120 ||| F = F) (h0 : Frm F b s0) : Frm F b (mmTimeout s0 a1) := by
  unfold mmTimeout
  repeat' first
    | with_reducible assumption
    | ((with_reducible apply subt hF); rfl)
    | with_reducible first | apply fr_State_emit | apply fr_State_setMac | apply fr_State_raise
    | split
    | dsimp only

theorem fr_execMmVerifyTimeout {F : Nat} {b : State} {a0 s1} (hF : 549757018120 ||| F = F) (h1 : Frm F b s1) : FrmR F b (execMmVerifyTimeout a0 s1) := by
  unfold execMmVerifyTimeout
  repeat' first
    | with_reducible assumption
    | ((with_reducible apply subt hF); rfl)
    | with_reducible first | apply fr_ifWf | apply fr_mmTimeout

theorem fr_setPartial {F : Nat} {b : State} {s0 a1 a2} (hF : 1048576 ||| F = F) (h0 : Frm F b s0) : Frm F b (setPartial s0 a1 a2) := by
  unfold setPartial
  repeat' first
    | with_reducible assumption
    | ((with_reducible apply subt hF); rfl)
    | with_reducible apply fr_State_setMac

theorem fr_assyErr {F : Nat} {b : State} {s0 a1} (hF : 1048584 ||| F = F) (h0 : Frm F b s0) : Frm F b (assyErr s0 a1) := by
  unfold assyErr
  repeat' first
    | with_reducible assumption
    | ((with_reducible apply subt hF); rfl)
    | with_reducible first | apply fr_State_bump | apply fr_setPartial

theorem fr_mmTake {F : Nat} {b : State} {s0 a1 a2 a3 a4 a5 a6 a7} (hF : 2007026065416 ||| F = F) (h0 : Frm F b s0) : Frm F b (mmTake s0 a1 a2 a3 a4 a5 a6 a7) := by
  unfold mmTake
  repeat' first
    | with_reducible assumption
    | ((with_reducible apply subt hF); rfl)
    | with_reducible first | apply fr_assyErr | apply fr_receive | apply fr_setPartial
    | split

theorem fr_mmStartFrag {F : Nat} {b : State} {s0 a1 a2 a3 a4 a5 a6 a7} (hF : 2007026065416 ||| F = F) (h0 : Frm F b s0) : Frm F b (mmStartFrag s0 a1 a2 a3 a4 a5 a6 a7) := by
  unfold mmStartFrag
  repeat' first
    | with_reducible assumption
    | ((with_reducible apply subt hF); rfl)
    | with_reducible first | apply fr_assyErr | apply fr_mmTake | apply fr_State_tick1
    | split

theorem fr_mmContFrag {F : Nat} {b : State} {s0 a1 a2 a3 a4 a5 a6 a7 a8} (hF : 2007026065416 ||| F = F) (h0 : Frm F b s0) : Frm F b (mmContFrag s0 a1 a2 a3 a4 a5 a6 a7 a8) := by
  unfold mmContFrag
  repeat' first
    | with_reducible assumption
    | ((with_reducible apply subt hF); rfl)
    | with_reducible first | apply fr_State_bump | apply fr_assyErr | apply fr_mmTake
    | split
    | dsimp only

theorem fr_mmUnknown {F : Nat} {b : State} {s0 a1} (hF : 1048584 ||| F = F) (h0 : Frm F b s0) : Frm F b (mmUnknown s0 a1) := by
  unfold mmUnknown
  repeat' first
    | with_reducible assumption
    | ((with_reducible apply subt hF); rfl)
    | with_reducible first | apply fr_State_bump | apply fr_setPartial
    | split

theorem fr_mmReceive {F : Nat} {b : State} {s0 a1 a2 a3 a4 a5 a6 a7} (hF : 2007026065416 ||| F = F) (h0 : Frm F b s0) : Frm F b (mmReceive s0 a1 a2 a3 a4 a5 a6 a7) := by
  unfold mmReceive
  repeat' first
    | with_reducible assumption
    | ((with_reducible apply subt hF); rfl)
    | with_reducible first | apply fr_receive | apply fr_State_tick1 | apply fr_mmStartFrag | apply fr_mmUnknown | apply fr_mmContFrag | apply fr_State_emit | apply fr_mmAnswered
    | split
    | dsimp only

theorem fr_execMmFragmentReceive {F : Nat} {b : State} {a0 a1 a2 a3 a4 a5 a6 s7} (hF : 2007026065416 ||| F = F) (h7 : Frm F b s7) : FrmR F b (execMmFragmentReceive a0 a1 a2 a3 a4 a5 a6 s7) := by
  unfold execMmFragmentReceive
  repeat' first
    | with_reducible assumption
    | ((with_reducible apply subt hF); rfl)
    | with_reducible first | apply fr_ifWf | apply fr_whenever | apply fr_mmReceive

theorem fr_setTc10 {F : Nat} {b : State} {s0 a1 a2} (hF : 1048576 ||| F = F) (h0 : Frm F b s0) : Frm F b (setTc10 s0 a1 a2) := by
  unfold setTc10
  repeat' first
    | with_reducible assumption
    | ((with_reducible apply subt hF); rfl)
    | with_reducible apply fr_State_setTphy

theorem fr_setHeld {F : Nat} {b : State} {s0 a1 a2} (hF : 536870912 ||| F = F) (h0 : Frm F b s0) : Frm F b (setHeld s0 a1 a2) := by
  unfold setHeld
  repeat' first
    | with_reducible assumption
    | ((with_reducible apply subt hF); rfl)
    | with_reducible apply fr_State_setEgs

theorem fr_tc10Negotiate {F : Nat} {b : State} {s0 a1} (hF : 550293733376 ||| F = F) (h0 : Frm F b s0) : Frm F b (tc10Negotiate s0 a1) := by
  unfold tc10Negotiate
  repeat' first
    | with_reducible assumption
    | ((with_reducible apply subt hF); rfl)
    | with_reducible first | apply fr_State_emit | apply fr_setHeld | apply fr_setTc10
    | split

theorem fr_execTc10SleepReq {F : Nat} {b : State} {a0 a1 s2} (hF : 550293889032 ||| F = F) (h2 : Frm F b s2) : FrmR F b (execTc10SleepReq a0 a1 s2) := by
  unfold execTc10SleepReq
  repeat' first
    | with_reducible assumption
    | ((with_reducible apply subt hF); rfl)
    | with_reducible first | apply fr_ifWf | apply fr_State_write | apply fr_tc10Negotiate

theorem fr_tc10Wake {F : Nat} {b : State} {s0 a1} (hF : 549756862464 ||| F = F) (h0 : Frm F b s0) : Frm F b (tc10Wake s0 a1) := by
  unfold tc10Wake
  repeat' first
    | with_reducible assumption
    | ((with_reducible apply subt hF); rfl)
    | with_reducible first | apply fr_State_emit | apply fr_setTc10
    | split

theorem fr_tc10Train {F : Nat} {b : State} {s0 a1} (hF : 549757018120 ||| F = F) (h0 : Frm F b s0) : Frm F b (tc10Train s0 a1) := by
  unfold tc10Train
  repeat' first
    | with_reducible assumption
    | ((with_reducible apply subt hF); rfl)
    | with_reducible first | apply fr_setTc10 | apply fr_State_raise | apply fr_trainStart
    | split
    | dsimp only

theorem fr_execTc10WakeReq {F : Nat} {b : State} {a0 a1 s2} (hF : 549757018120 ||| F = F) (h2 : Frm F b s2) : FrmR F b (execTc10WakeReq a0 a1 s2) := by
  unfold execTc10WakeReq
  repeat' first
    | with_reducible assumption
    | ((with_reducible apply subt hF); rfl)
    | with_reducible first | apply fr_ifWf | apply fr_State_write | apply fr_tc10Wake

theorem fr_tc10Requested {F : Nat} {b : State} {s0 a1} (hF : 550293733384 ||| F = F) (h0 : Frm F b s0) : Frm F b (tc10Requested s0 a1) := by
  unfold tc10Requested
  repeat' first
    | with_reducible assumption
    | ((with_reducible apply subt hF); rfl)
    | with_reducible first | apply fr_tc10Negotiate | apply fr_State_emit | apply fr_State_bump
    | split

theorem fr_execTc10SleepRequestRx {F : Nat} {b : State} {a0 s1} (hF : 550293733384 ||| F = F) (h1 : Frm F b s1) : FrmR F b (execTc10SleepRequestRx a0 s1) := by
  unfold execTc10SleepRequestRx
  repeat' first
    | with_reducible assumption
    | ((with_reducible apply subt hF); rfl)
    | with_reducible first | apply fr_ifWf | apply fr_tc10Requested

theorem fr_tc10Sleeps {F : Nat} {b : State} {s0 a1} (hF : 1718879674376 ||| F = F) (h0 : Frm F b s0) : Frm F b (tc10Sleeps s0 a1) := by
  unfold tc10Sleeps
  repeat' first
    | with_reducible assumption
    | ((with_reducible apply subt hF); rfl)
    | with_reducible first | apply fr_leaveUp | apply fr_setTc10 | apply fr_State_bump | apply fr_State_setMac
    | split

theorem fr_execTc10HandshakeDone {F : Nat} {b : State} {a0 s1} (hF : 1718879674376 ||| F = F) (h1 : Frm F b s1) : FrmR F b (execTc10HandshakeDone a0 s1) := by
  unfold execTc10HandshakeDone
  repeat' first
    | with_reducible assumption
    | ((with_reducible apply subt hF); rfl)
    | with_reducible first | apply fr_ifWf | apply fr_tc10Sleeps

theorem fr_tc10Fails {F : Nat} {b : State} {s0 a1} (hF : 550293889032 ||| F = F) (h0 : Frm F b s0) : Frm F b (tc10Fails s0 a1) := by
  unfold tc10Fails
  repeat' first
    | with_reducible assumption
    | ((with_reducible apply subt hF); rfl)
    | with_reducible first | apply fr_State_raise | apply fr_setHeld | apply fr_setTc10
    | split

theorem fr_execTc10SleepFail {F : Nat} {b : State} {a0 s1} (hF : 550293889032 ||| F = F) (h1 : Frm F b s1) : FrmR F b (execTc10SleepFail a0 s1) := by
  unfold execTc10SleepFail
  repeat' first
    | with_reducible assumption
    | ((with_reducible apply subt hF); rfl)
    | with_reducible first | apply fr_ifWf | apply fr_tc10Fails

theorem fr_State_setMdio {F : Nat} {b : State} {s0 a1 a2} (hF : 1048576 ||| F = F) (h0 : Frm F b s0) : Frm F b (State.setMdio s0 a1 a2) := by
  unfold State.setMdio
  repeat' first
    | with_reducible assumption
    | ((with_reducible apply subt hF); rfl)
    | with_reducible apply fr_mk_1048576
    | simp only [frm_mk]

theorem fr_mdioStart {F : Nat} {b : State} {s0 a1 a2 a3 a4} (hF : 549756862472 ||| F = F) (h0 : Frm F b s0) : Frm F b (mdioStart s0 a1 a2 a3 a4) := by
  unfold mdioStart
  repeat' first
    | with_reducible assumption
    | ((with_reducible apply subt hF); rfl)
    | with_reducible first | apply fr_State_setBitAt | apply fr_State_emit | apply fr_State_setReg | apply fr_State_setMdio
    | split

theorem fr_mdioCmd {F : Nat} {b : State} {a0 a1 a2 a3 a4 s5} (hF : 549757018120 ||| F = F) (h5 : Frm F b s5) : FrmR F b (mdioCmd a0 a1 a2 a3 a4 s5) := by
  unfold mdioCmd
  repeat' first
    | with_reducible assumption
    | ((with_reducible apply subt hF); rfl)
    | with_reducible first | apply fr_ifWf | apply fr_State_write | apply fr_mdioStart

theorem fr_execMdioC22Write {F : Nat} {b : State} {a0 a1 a2 a3 s4} (hF : 549757018120 ||| F = F) (h4 : Frm F b s4) : FrmR F b (execMdioC22Write a0 a1 a2 a3 s4) := by
  unfold execMdioC22Write
  repeat' first
    | with_reducible assumption
    | ((with_reducible apply subt hF); rfl)
    | with_reducible apply fr_mdioCmd

theorem fr_execMdioC22Read {F : Nat} {b : State} {a0 a1 a2 a3 s4} (hF : 549757018120 ||| F = F) (h4 : Frm F b s4) : FrmR F b (execMdioC22Read a0 a1 a2 a3 s4) := by
  unfold execMdioC22Read
  repeat' first
    | with_reducible assumption
    | ((with_reducible apply subt hF); rfl)
    | with_reducible apply fr_mdioCmd

theorem fr_execMdioC45Write {F : Nat} {b : State} {a0 a1 a2 a3 s4} (hF : 549757018120 ||| F = F) (h4 : Frm F b s4) : FrmR F b (execMdioC45Write a0 a1 a2 a3 s4) := by
  unfold execMdioC45Write
  repeat' first
    | with_reducible assumption
    | ((with_reducible apply subt hF); rfl)
    | with_reducible apply fr_mdioCmd

theorem fr_execMdioC45Read {F : Nat} {b : State} {a0 a1 a2 a3 s4} (hF : 549757018120 ||| F = F) (h4 : Frm F b s4) : FrmR F b (execMdioC45Read a0 a1 a2 a3 s4) := by
  unfold execMdioC45Read
  repeat' first
    | with_reducible assumption
    | ((with_reducible apply subt hF); rfl)
    | with_reducible apply fr_mdioCmd

theorem fr_mdioReply {F : Nat} {b : State} {s0 a1 a2} (hF : 8 ||| F = F) (h0 : Frm F b s0) : Frm F b (mdioReply s0 a1 a2) := by
  unfold mdioReply
  repeat' first
    | with_reducible assumption
    | ((with_reducible apply subt hF); rfl)
    | with_reducible first | apply fr_State_setBitAt | apply fr_State_setReg
    | split

theorem fr_mdioEnds {F : Nat} {b : State} {s0 a1 a2} (hF : 549757018120 ||| F = F) (h0 : Frm F b s0) : Frm F b (mdioEnds s0 a1 a2) := by
  unfold mdioEnds
  repeat' first
    | with_reducible assumption
    | ((with_reducible apply subt hF); rfl)
    | with_reducible first | apply fr_State_setMdio | apply fr_mdioReply | apply fr_State_raise | apply fr_State_setBitAt
    | split

theorem fr_execMdioDone {F : Nat} {b : State} {a0 a1 s2} (hF : 549757018120 ||| F = F) (h2 : Frm F b s2) : FrmR F b (execMdioDone a0 a1 s2) := by
  unfold execMdioDone
  repeat' first
    | with_reducible assumption
    | ((with_reducible apply subt hF); rfl)
    | with_reducible first | apply fr_ifWf | apply fr_mdioEnds

theorem fr_prbsWrite {F : Nat} {b : State} {s0 a1 a2 a3} (hF : 1753239478280 ||| F = F) (h0 : Frm F b s0) : Frm F b (prbsWrite s0 a1 a2 a3) := by
  unfold prbsWrite
  repeat' first
    | with_reducible assumption
    | ((with_reducible apply subt hF); rfl)
    | with_reducible first | apply fr_logReg | apply fr_State_setReg | apply fr_trainStart | apply fr_leaveUp | apply fr_slLaneDown
    | split
    | dsimp only

theorem fr_execSdsPrbsWrite {F : Nat} {b : State} {a0 a1 a2 s3} (hF : 1753239478280 ||| F = F) (h3 : Frm F b s3) : FrmR F b (execSdsPrbsWrite a0 a1 a2 s3) := by
  unfold execSdsPrbsWrite
  repeat' first
    | with_reducible assumption
    | ((with_reducible apply subt hF); rfl)
    | with_reducible first | apply fr_ifWf | apply fr_State_write | apply fr_prbsWrite

theorem fr_cableStart {F : Nat} {b : State} {s0 a1 a2} (hF : 549757083656 ||| F = F) (h0 : Frm F b s0) : Frm F b (cableStart s0 a1 a2) := by
  unfold cableStart
  repeat' first
    | with_reducible assumption
    | ((with_reducible apply subt hF); rfl)
    | with_reducible first | apply fr_logReg | apply fr_State_setReg | apply fr_State_setBitAt | apply fr_State_setTphy

theorem fr_execCableTestStart {F : Nat} {b : State} {a0 a1 s2} (hF : 549757083656 ||| F = F) (h2 : Frm F b s2) : FrmR F b (execCableTestStart a0 a1 s2) := by
  unfold execCableTestStart
  repeat' first
    | with_reducible assumption
    | ((with_reducible apply subt hF); rfl)
    | with_reducible first | apply fr_ifWf | apply fr_State_write | apply fr_cableStart

theorem fr_cableDone {F : Nat} {b : State} {s0 a1 a2 a3} (hF : 549757018120 ||| F = F) (h0 : Frm F b s0) : Frm F b (cableDone s0 a1 a2 a3) := by
  unfold cableDone
  repeat' first
    | with_reducible assumption
    | ((with_reducible apply subt hF); rfl)
    | with_reducible first | apply fr_State_setTphy | apply fr_State_raise | apply fr_State_setReg
    | split

theorem fr_execDiagDone {F : Nat} {b : State} {a0 a1 a2 s3} (hF : 549757018120 ||| F = F) (h3 : Frm F b s3) : FrmR F b (execDiagDone a0 a1 a2 s3) := by
  unfold execDiagDone
  repeat' first
    | with_reducible assumption
    | ((with_reducible apply subt hF); rfl)
    | with_reducible first | apply fr_ifWf | apply fr_cableDone

end Sys2Proof.Laws
end

