-- ==== Sys2Proof/Laws/Frame2.lean ====
section
/-!
SUPPORT. `Frm` for the functions of Machine/: ParseStage, TableOps, Lookup, Tables.
-/
set_option linter.unusedVariables false
namespace Sys2Proof.Laws
set_option Elab.async false
open Sys2Proof Sys2Proof.Machine

/-! ### ParseStage -/

theorem fr_pushLater {F : Nat} {b : State} {s0 a1 a2 a3} (hF : 67108864 ||| F = F) (h0 : Frm F b s0) : Frm F b (pushLater s0 a1 a2 a3) := by
  unfold pushLater
  repeat' first
    | with_reducible assumption
    | ((with_reducible apply subt hF); rfl)
    | with_reducible first | apply fr_State_setFrame | apply frm_foldl
    | intro _
    | split

theorem fr_useProc {F : Nat} {b : State} {s0 a1 a2} (hF : 8388608 ||| F = F) (h0 : Frm F b s0) : Frm F b (useProc s0 a1 a2) := by
  unfold useProc
  repeat' first
    | with_reducible assumption
    | ((with_reducible apply subt hF); rfl)
    | with_reducible apply fr_mk_8388608
    | simp only [frm_mk]

theorem fr_capture {F : Nat} {b : State} {s0 a1} (hF : 549755969544 ||| F = F) (h0 : Frm F b s0) : Frm F b (capture s0 a1) := by
  unfold capture
  repeat' first
    | with_reducible assumption
    | ((with_reducible apply subt hF); rfl)
    | with_reducible first | apply fr_State_setReg | apply fr_State_raise | apply fr_State_setBitAt | apply frm_foldl
    | intro _

theorem fr_countParse {F : Nat} {b : State} {s0 a1} (hF : 8 ||| F = F) (h0 : Frm F b s0) : Frm F b (countParse s0 a1) := by
  unfold countParse
  repeat' first
    | with_reducible assumption
    | ((with_reducible apply subt hF); rfl)
    | with_reducible apply fr_State_bump
    | split
    | dsimp only

theorem fr_parseEnds {F : Nat} {b : State} {s0 a1 a2 a3} (hF : 67108872 ||| F = F) (h0 : Frm F b s0) : Frm F b (parseEnds s0 a1 a2 a3) := by
  unfold parseEnds
  repeat' first
    | with_reducible assumption
    | ((with_reducible apply subt hF); rfl)
    | with_reducible first | apply fr_countParse | apply fr_pushLater | apply fr_State_setFrame

theorem fr_release {F : Nat} {b : State} {s0 a1} (hF : 549823078408 ||| F = F) (h0 : Frm F b s0) : Frm F b (release s0 a1) := by
  unfold release
  repeat' first
    | with_reducible assumption
    | ((with_reducible apply subt hF); rfl)
    | with_reducible first | apply fr_State_setFrame | apply fr_capture
    | split
    | dsimp only

theorem fr_releasesDue {F : Nat} {b : State} {s0} (hF : 549823078408 ||| F = F) (h0 : Frm F b s0) : Frm F b (releasesDue s0) := by
  unfold releasesDue
  repeat' first
    | with_reducible assumption
    | ((with_reducible apply subt hF); rfl)
    | with_reducible first | apply fr_release | apply frm_foldl
    | intro _

theorem fr_rvParity {F : Nat} {b : State} {s0 a1} (hF : 1717995462664 ||| F = F) (h0 : Frm F b s0) : Frm F b (rvParity s0 a1) := by
  unfold rvParity
  repeat' first
    | with_reducible assumption
    | ((with_reducible apply subt hF); rfl)
    | with_reducible first | apply fr_State_report | apply fr_State_bump | apply fr_State_setPair | apply fr_State_raise | apply fr_mk_8388608
    | simp only [frm_mk]
    | split

theorem fr_stepFrame {F : Nat} {b : State} {s0 a1 a2 a3 a4} (hF : 75497480 ||| F = F) (h0 : Frm F b s0) : Frm F b (stepFrame s0 a1 a2 a3 a4) := by
  unfold stepFrame
  repeat' first
    | with_reducible assumption
    | ((with_reducible apply subt hF); rfl)
    | with_reducible first | apply fr_useProc | apply fr_State_setFrame | apply fr_parseEnds
    | split

theorem fr_reparse {F : Nat} {b : State} {s0 a1 a2 a3} (hF : 1718062571528 ||| F = F) (h0 : Frm F b s0) : Frm F b (reparse s0 a1 a2 a3) := by
  unfold reparse
  repeat' first
    | with_reducible assumption
    | ((with_reducible apply subt hF); rfl)
    | with_reducible first | apply fr_rvParity | apply fr_useProc | apply fr_State_setFrame | apply fr_State_tick1 | apply fr_State_bump
    | split

theorem fr_startParse {F : Nat} {b : State} {s0 a1 a2 a3} (hF : 1718062571528 ||| F = F) (h0 : Frm F b s0) : Frm F b (startParse s0 a1 a2 a3) := by
  unfold startParse
  repeat' first
    | with_reducible assumption
    | ((with_reducible apply subt hF); rfl)
    | with_reducible first | apply fr_reparse | apply fr_State_setFrame | apply fr_stepFrame
    | split

theorem fr_readMicrocode {F : Nat} {b : State} {s0 a1} (hF : 1718054182920 ||| F = F) (h0 : Frm F b s0) : Frm F b (readMicrocode s0 a1) := by
  unfold readMicrocode
  repeat' first
    | with_reducible assumption
    | ((with_reducible apply subt hF); rfl)
    | with_reducible first | apply fr_memRead | apply fr_memLost | apply fr_noteReplay | apply fr_State_setFrame
    | split
    | with_reducible refine frm_fst (by assumption) ?_
    | dsimp only

theorem fr_dispatch {F : Nat} {b : State} {s0 a1 a2} (hF : 1718331006984 ||| F = F) (h0 : Frm F b s0) : Frm F b (dispatch s0 a1 a2) := by
  unfold dispatch
  repeat' first
    | with_reducible assumption
    | ((with_reducible apply subt hF); rfl)
    | with_reducible first | apply fr_State_bump | apply fr_retireFrame | apply fr_State_setFrame | apply fr_readMicrocode | apply fr_startParse
    | split
    | dsimp only

theorem fr_execParseDispatch {F : Nat} {b : State} {a0 a1 s2} (hF : 1718331006984 ||| F = F) (h2 : Frm F b s2) : FrmR F b (execParseDispatch a0 a1 s2) := by
  unfold execParseDispatch
  repeat' first
    | with_reducible assumption
    | ((with_reducible apply subt hF); rfl)
    | with_reducible first | apply fr_whenever | apply fr_dispatch | apply frmR_next

theorem fr_dispatchWaiting {F : Nat} {b : State} {s0 a1} (hF : 1718062571528 ||| F = F) (h0 : Frm F b s0) : Frm F b (dispatchWaiting s0 a1) := by
  unfold dispatchWaiting
  repeat' first
    | with_reducible assumption
    | ((with_reducible apply subt hF); rfl)
    | with_reducible apply fr_startParse
    | split

theorem fr_execDispatchWait {F : Nat} {b : State} {a0 s1} (hF : 1718062571528 ||| F = F) (h1 : Frm F b s1) : FrmR F b (execDispatchWait a0 s1) := by
  unfold execDispatchWait
  repeat' first
    | with_reducible assumption
    | ((with_reducible apply subt hF); rfl)
    | with_reducible first | apply fr_dispatchWaiting | apply frmR_next

theorem fr_resumeParse {F : Nat} {b : State} {s0 a1} (hF : 75497480 ||| F = F) (h0 : Frm F b s0) : Frm F b (resumeParse s0 a1) := by
  unfold resumeParse
  repeat' first
    | with_reducible assumption
    | ((with_reducible apply subt hF); rfl)
    | with_reducible apply fr_stepFrame
    | split
    | dsimp only

theorem fr_execParseResume {F : Nat} {b : State} {a0 s1} (hF : 75497480 ||| F = F) (h1 : Frm F b s1) : FrmR F b (execParseResume a0 s1) := by
  unfold execParseResume
  repeat' first
    | with_reducible assumption
    | ((with_reducible apply subt hF); rfl)
    | with_reducible first | apply fr_resumeParse | apply frmR_next

theorem fr_deepEnds {F : Nat} {b : State} {s0 a1} (hF : 67108872 ||| F = F) (h0 : Frm F b s0) : Frm F b (deepEnds s0 a1) := by
  unfold deepEnds
  repeat' first
    | with_reducible assumption
    | ((with_reducible apply subt hF); rfl)
    | with_reducible apply fr_parseEnds
    | split
    | dsimp only

theorem fr_execDeepParseEnd {F : Nat} {b : State} {a0 s1} (hF : 67108872 ||| F = F) (h1 : Frm F b s1) : FrmR F b (execDeepParseEnd a0 s1) := by
  unfold execDeepParseEnd
  repeat' first
    | with_reducible assumption
    | ((with_reducible apply subt hF); rfl)
    | with_reducible first | apply fr_deepEnds | apply frmR_next

theorem fr_captWrite {F : Nat} {b : State} {s0 a1 a2} (hF : 549756035080 ||| F = F) (h0 : Frm F b s0) : Frm F b (captWrite s0 a1 a2) :=
  fr_logReg (subm hF) (fr_State_setReg (subm hF) h0)

theorem fr_execPrsCaptArm {F : Nat} {b : State} {a0 a1 s2} (hF : 549756035080 ||| F = F) (h2 : Frm F b s2) : FrmR F b (execPrsCaptArm a0 a1 s2) := by
  unfold execPrsCaptArm
  exact fr_State_write (subm hF) h2 (fr_captWrite (subm hF) h2)

/-! ### TableOps -/

theorem fr_State_setEnt {F : Nat} {b : State} {s0 a1 a2 a3} (hF : 16777216 ||| F = F) (h0 : Frm F b s0) : Frm F b (State.setEnt s0 a1 a2 a3) := by
  unfold State.setEnt
  exact fr_mk_16777216 (subm hF) h0

theorem fr_State_setOvl {F : Nat} {b : State} {s0 a1} (hF : 16777216 ||| F = F) (h0 : Frm F b s0) : Frm F b (State.setOvl s0 a1) := by
  unfold State.setOvl
  repeat' first
    | with_reducible assumption
    | ((with_reducible apply subt hF); rfl)
    | with_reducible apply fr_mk_16777216
    | simp only [frm_mk]

theorem fr_State_dropOvl {F : Nat} {b : State} {s0 a1 a2} (hF : 16777216 ||| F = F) (h0 : Frm F b s0) : Frm F b (State.dropOvl s0 a1 a2) := by
  unfold State.dropOvl
  repeat' first
    | with_reducible assumption
    | ((with_reducible apply subt hF); rfl)
    | with_reducible apply fr_mk_16777216
    | simp only [frm_mk]

theorem fr_State_hwSet {F : Nat} {b : State} {s0 a1 a2 a3 a4} (hF : 16777216 ||| F = F) (h0 : Frm F b s0) : Frm F b (State.hwSet s0 a1 a2 a3 a4) := by
  unfold State.hwSet
  repeat' first
    | with_reducible assumption
    | ((with_reducible apply subt hF); rfl)
    | with_reducible first | apply fr_State_setOvl | apply fr_State_setEnt
    | split

theorem fr_setHit {F : Nat} {b : State} {s0 a1 a2 a3} (hF : 16777216 ||| F = F) (h0 : Frm F b s0) : Frm F b (setHit s0 a1 a2 a3) := by
  unfold setHit
  repeat' first
    | with_reducible assumption
    | ((with_reducible apply subt hF); rfl)
    | with_reducible apply fr_mk_16777216
    | simp only [frm_mk]

theorem fr_moveHits {F : Nat} {b : State} {s0 a1 a2} (hF : 16777216 ||| F = F) (h0 : Frm F b s0) : Frm F b (moveHits s0 a1 a2) := by
  unfold moveHits
  repeat' first
    | with_reducible assumption
    | ((with_reducible apply subt hF); rfl)
    | with_reducible apply fr_setHit

theorem fr_writeFdb {F : Nat} {b : State} {s0 a1 a2} (hF : 549772746760 ||| F = F) (h0 : Frm F b s0) : Frm F b (writeFdb s0 a1 a2) := by
  unfold writeFdb
  repeat' first
    | with_reducible assumption
    | ((with_reducible apply subt hF); rfl)
    | with_reducible first | apply fr_State_setEnt | apply fr_State_bump | apply fr_State_raise
    | split
    | dsimp only

theorem fr_pathWrite {F : Nat} {b : State} {a0 s1 a2} (hF : 549772746760 ||| F = F) (h1 : Frm F b s1) : Frm F b (pathWrite a0 s1 a2) := by
  unfold pathWrite
  repeat' first
    | with_reducible assumption
    | ((with_reducible apply subt hF); rfl)
    | with_reducible first | apply fr_State_bump | apply fr_moveHits | apply fr_writeFdb
    | split

theorem fr_stashReinsert {F : Nat} {b : State} {s0 a1} (hF : 16777216 ||| F = F) (h0 : Frm F b s0) : Frm F b (stashReinsert s0 a1) := by
  unfold stashReinsert
  repeat' first
    | with_reducible assumption
    | ((with_reducible apply subt hF); rfl)
    | with_reducible first | apply fr_State_setEnt | apply fr_moveHits
    | split

theorem fr_freeFdb {F : Nat} {b : State} {s0 a1} (hF : 16777216 ||| F = F) (h0 : Frm F b s0) : Frm F b (freeFdb s0 a1) := by
  unfold freeFdb
  repeat' first
    | with_reducible assumption
    | ((with_reducible apply subt hF); rfl)
    | with_reducible first | apply fr_stashReinsert | apply fr_setHit | apply fr_State_setEnt

theorem fr_siltTable {F : Nat} {b : State} {s0 a1 a2 a3 a4 a5} (hF : 549756035080 ||| F = F) (h0 : Frm F b s0) : Frm F b (siltTable s0 a1 a2 a3 a4 a5) := by
  unfold siltTable
  repeat' first
    | with_reducible assumption
    | ((with_reducible apply subt hF); rfl)
    | with_reducible apply fr_State_silt_

theorem fr_stageOne {F : Nat} {b : State} {a0 a1 s2 a3} (hF : 549772812296 ||| F = F) (h2 : Frm F b s2) : Frm F b (stageOne a0 a1 s2 a3) := by
  unfold stageOne
  repeat' first
    | with_reducible assumption
    | ((with_reducible apply subt hF); rfl)
    | with_reducible first | apply fr_siltTable | apply fr_State_setOvl

theorem fr_checkOvl {F : Nat} {b : State} {s0} (hF : 549755969544 ||| F = F) (h0 : Frm F b s0) : Frm F b (checkOvl s0) := by
  unfold checkOvl
  repeat' first
    | with_reducible assumption
    | ((with_reducible apply subt hF); rfl)
    | with_reducible apply fr_State_raise
    | split

theorem fr_stageOps {F : Nat} {b : State} {s0 a1 a2 a3} (hF : 549772812296 ||| F = F) (h0 : Frm F b s0) : Frm F b (stageOps s0 a1 a2 a3).1 := by
  unfold stageOps
  repeat' first
    | with_reducible assumption
    | ((with_reducible apply subt hF); rfl)
    | with_reducible first | apply fr_checkOvl | apply fr_stageOne | apply frm_foldl
    | intro _
    | split
    | dsimp only

theorem fr_commitPolicing {F : Nat} {b : State} {s0 a1 a2} (hF : 33554432 ||| F = F) (h0 : Frm F b s0) : Frm F b (commitPolicing s0 a1 a2) := by
  unfold commitPolicing
  repeat' first
    | with_reducible assumption
    | ((with_reducible apply subt hF); rfl)
    | with_reducible apply fr_mk_33554432
    | simp only [frm_mk]
    | split

theorem fr_recordLive {F : Nat} {b : State} {a0 s1 a2} (hF : 50331648 ||| F = F) (h1 : Frm F b s1) : Frm F b (recordLive a0 s1 a2) := by
  unfold recordLive
  repeat' first
    | with_reducible assumption
    | ((with_reducible apply subt hF); rfl)
    | with_reducible first | apply fr_State_setOvl | apply fr_commitPolicing

theorem fr_recordsLive {F : Nat} {b : State} {s0 a1 a2} (hF : 50331648 ||| F = F) (h0 : Frm F b s0) : Frm F b (recordsLive s0 a1 a2) := by
  unfold recordsLive
  repeat' first
    | with_reducible assumption
    | ((with_reducible apply subt hF); rfl)
    | with_reducible first | apply fr_recordLive | apply frm_foldl
    | intro _

theorem fr_armRecords {F : Nat} {b : State} {s0 a1} (hF : 16777216 ||| F = F) (h0 : Frm F b s0) : Frm F b (armRecords s0 a1) := by
  unfold armRecords
  repeat' first
    | with_reducible assumption
    | ((with_reducible apply subt hF); rfl)
    | with_reducible apply fr_mk_16777216
    | simp only [frm_mk]

theorem fr_unarmRecords {F : Nat} {b : State} {s0 a1} (hF : 16777216 ||| F = F) (h0 : Frm F b s0) : Frm F b (unarmRecords s0 a1) := by
  unfold unarmRecords
  repeat' first
    | with_reducible assumption
    | ((with_reducible apply subt hF); rfl)
    | with_reducible apply fr_mk_16777216
    | simp only [frm_mk]

theorem fr_discardRecords {F : Nat} {b : State} {s0} (hF : 16777216 ||| F = F) (h0 : Frm F b s0) : Frm F b (discardRecords s0) := by
  unfold discardRecords
  repeat' first
    | with_reducible assumption
    | ((with_reducible apply subt hF); rfl)
    | with_reducible apply fr_mk_16777216
    | simp only [frm_mk]

/-! ### Lookup -/

theorem fr_seqGenerate {F : Nat} {b : State} {s0 a1 a2} (hF : 16777216 ||| F = F) (h0 : Frm F b s0) : Frm F b (seqGenerate s0 a1 a2).1 := by
  unfold seqGenerate
  repeat' first
    | with_reducible assumption
    | ((with_reducible apply subt hF); rfl)
    | with_reducible apply fr_State_hwSet
    | split
    | dsimp only

theorem fr_seqRecover {F : Nat} {b : State} {s0 a1 a2 a3} (hF : 16777216 ||| F = F) (h0 : Frm F b s0) : Frm F b (seqRecover s0 a1 a2 a3).1 := by
  unfold seqRecover
  repeat' first
    | with_reducible assumption
    | ((with_reducible apply subt hF); rfl)
    | with_reducible first | apply fr_State_hwSet | apply fr_mk_16777216
    | simp only [frm_mk]
    | split

theorem fr_State_setLearnFilter {F : Nat} {b : State} {s0 a1 a2} (hF : 16777216 ||| F = F) (h0 : Frm F b s0) : Frm F b (State.setLearnFilter s0 a1 a2) := by
  unfold State.setLearnFilter
  repeat' first
    | with_reducible assumption
    | ((with_reducible apply subt hF); rfl)
    | with_reducible apply fr_mk_16777216
    | simp only [frm_mk]

theorem fr_offerEvent {F : Nat} {b : State} {s0 a1 a2} (hF : 16777224 ||| F = F) (h0 : Frm F b s0) : Frm F b (offerEvent s0 a1 a2) := by
  unfold offerEvent
  repeat' first
    | with_reducible assumption
    | ((with_reducible apply subt hF); rfl)
    | with_reducible first | apply fr_State_bump | apply fr_State_setLearnFilter
    | split
    | dsimp only

theorem fr_learnFrom {F : Nat} {b : State} {s0 a1 a2 a3 a4 a5} (hF : 16777224 ||| F = F) (h0 : Frm F b s0) : Frm F b (learnFrom s0 a1 a2 a3 a4 a5) := by
  unfold learnFrom
  repeat' first
    | with_reducible assumption
    | ((with_reducible apply subt hF); rfl)
    | with_reducible first | apply fr_offerEvent | apply fr_setHit
    | split
    | dsimp only

theorem fr_loseEntry {F : Nat} {b : State} {s0} (hF : 1099528404992 ||| F = F) (h0 : Frm F b s0) : Frm F b (loseEntry s0) := by
  unfold loseEntry
  extract_lets l r j
  split
  · exact fr_State_tick1 (subm hF) (fr_mk_16777216 (subm hF) h0)
  · exact fr_State_tick1 (subm hF) (fr_State_setOvl (subm hF) h0)
  · exact fr_State_tick1 (subm hF) h0

theorem fr_readTables {F : Nat} {b : State} {s0 a1} (hF : 1718003851272 ||| F = F) (h0 : Frm F b s0) : Frm F b (readTables s0 a1).1 := by
  unfold readTables
  repeat' first
    | with_reducible assumption
    | ((with_reducible apply subt hF); rfl)
    | with_reducible first | apply fr_memRead | apply fr_State_setReg | apply fr_State_bump | apply fr_State_report | apply fr_State_raise | apply fr_memRepeated | apply fr_State_tick1 | apply fr_loseEntry
    | split
    | with_reducible refine frm_fst (by assumption) ?_

theorem fr_seqReset {F : Nat} {b : State} {s0 a1 a2} (hF : 16777216 ||| F = F) (h0 : Frm F b s0) : Frm F b (seqReset s0 a1 a2) := by
  unfold seqReset
  repeat' first
    | with_reducible assumption
    | ((with_reducible apply subt hF); rfl)
    | with_reducible first | apply fr_State_setEnt | apply fr_State_setOvl
    | split
    | dsimp only

theorem fr_seqLost {F : Nat} {b : State} {s0 a1 a2 a3 a4} (hF : 1718003851272 ||| F = F) (h0 : Frm F b s0) : Frm F b (seqLost s0 a1 a2 a3 a4) := by
  unfold seqLost
  repeat' first
    | with_reducible assumption
    | ((with_reducible apply subt hF); rfl)
    | with_reducible first | apply fr_State_bump | apply fr_seqReset | apply fr_memLost

theorem fr_readSequence {F : Nat} {b : State} {s0 a1 a2 a3} (hF : 1718003851272 ||| F = F) (h0 : Frm F b s0) : Frm F b (readSequence s0 a1 a2 a3) := by
  unfold readSequence
  repeat' first
    | with_reducible assumption
    | ((with_reducible apply subt hF); rfl)
    | with_reducible first | apply fr_memRead | apply fr_seqLost
    | split
    | with_reducible refine frm_fst (by assumption) ?_

theorem fr_lookDrop {F : Nat} {b : State} {s0 a1 a2} (hF : 67108864 ||| F = F) (h0 : Frm F b s0) : Frm F b (lookDrop s0 a1 a2) := by
  unfold lookDrop
  repeat' first
    | with_reducible assumption
    | ((with_reducible apply subt hF); rfl)
    | with_reducible apply fr_State_setFrame

theorem fr_lookResult {F : Nat} {b : State} {s0 a1 a2 a3 a4 a5 a6} (hF : 1718070960136 ||| F = F) (h0 : Frm F b s0) : Frm F b (lookResult s0 a1 a2 a3 a4 a5 a6) := by
  unfold lookResult
  repeat' first
    | with_reducible assumption
    | ((with_reducible apply subt hF); rfl)
    | with_reducible first | apply fr_State_setFrame | apply fr_readSequence | apply fr_noteReplay | apply fr_seqGenerate | apply fr_seqRecover | apply fr_lookDrop | apply fr_State_bump
    | split
    | dsimp only

theorem fr_lookDa {F : Nat} {b : State} {s0 a1 a2 a3 a4 a5} (hF : 1718070960136 ||| F = F) (h0 : Frm F b s0) : Frm F b (lookDa s0 a1 a2 a3 a4 a5) := by
  unfold lookDa
  repeat' first
    | with_reducible assumption
    | ((with_reducible apply subt hF); rfl)
    | with_reducible first | apply fr_lookDrop | apply fr_State_bump | apply fr_lookResult
    | split
    | dsimp only

theorem fr_lookWith {F : Nat} {b : State} {s0 a1 a2 a3} (hF : 1718070960136 ||| F = F) (h0 : Frm F b s0) : Frm F b (lookWith s0 a1 a2 a3) := by
  unfold lookWith
  repeat' first
    | with_reducible assumption
    | ((with_reducible apply subt hF); rfl)
    | with_reducible first | apply fr_lookDrop | apply fr_State_setFrame | apply fr_State_bump | apply fr_lookDa | apply fr_learnFrom
    | split
    | dsimp only

theorem fr_lookup {F : Nat} {b : State} {s0 a1} (hF : 1718070960136 ||| F = F) (h0 : Frm F b s0) : Frm F b (lookup s0 a1) := by
  unfold lookup
  repeat' first
    | with_reducible assumption
    | ((with_reducible apply subt hF); rfl)
    | with_reducible first | apply fr_release | apply fr_State_bump | apply fr_readTables | apply fr_noteReplay | apply fr_lookWith

theorem fr_execLookupStage {F : Nat} {b : State} {a0 s1} (hF : 1718070960136 ||| F = F) (h1 : Frm F b s1) : FrmR F b (execLookupStage a0 s1) := by
  unfold execLookupStage
  repeat' first
    | with_reducible assumption
    | ((with_reducible apply subt hF); rfl)
    | with_reducible first | apply fr_whenever | apply fr_lookup | apply frmR_next

/-! ### Tables -/

theorem fr_tueStatus {F : Nat} {b : State} {s0 a1} (hF : 0 ||| F = F) (h0 : Frm F b s0) : Frm F b (tueStatus s0 a1).1 := by
  unfold tueStatus
  repeat' first
    | with_reducible assumption

theorem fr_tueFinish {F : Nat} {b : State} {a0 a1} {r : State × TueAns} (hF : 549755817992 ||| F = F) (h2 : Frm F b r.1) : Frm F b (tueFinish a0 a1 r) := by
  unfold tueFinish
  repeat' first
    | with_reducible assumption
    | ((with_reducible apply subt hF); rfl)
    | with_reducible first | apply fr_State_emit | apply fr_ringComplete | apply fr_State_bump
    | split

theorem fr_tueRefuse {F : Nat} {b : State} {s0 a1} (hF : 549755969544 ||| F = F) (h0 : Frm F b s0) : Frm F b (tueRefuse s0 a1).1 := by
  unfold tueRefuse
  repeat' first
    | with_reducible assumption
    | ((with_reducible apply subt hF); rfl)
    | with_reducible first | apply fr_tueStatus | apply fr_State_siltRefused
    | split

theorem fr_tueRun {F : Nat} {b : State} {s a1 a2 f} (hF : 549755817992 ||| F = F) (h0 : Frm F b s) (h3 : ∀ u, Frm F b u → Frm F b (f u).1) : Frm F b (tueRun s a1 a2 f) := by
  unfold tueRun
  dsimp only
  split
  · exact h0
  · exact fr_tueFinish (subm hF) (h3 _ (fr_ringTake (subm hF) h0))

theorem fr_tueReads {F : Nat} {b : State} {s0 a1} (hF : 1718003851272 ||| F = F) (h0 : Frm F b s0) : Frm F b (tueReads s0 a1).1 := by
  unfold tueReads
  repeat' first
    | with_reducible assumption
    | ((with_reducible apply subt hF); rfl)
    | with_reducible apply fr_readTables
    | split

theorem fr_tueReadOp {F : Nat} {b : State} {a0 s1} (hF : 1718003851272 ||| F = F) (h1 : Frm F b s1) : Frm F b (tueReadOp a0 s1).1 := by
  unfold tueReadOp
  repeat' first
    | with_reducible assumption
    | ((with_reducible apply subt hF); rfl)
    | with_reducible first | apply fr_tueReads | apply fr_tueStatus
    | split
    | with_reducible refine frm_fst (by assumption) ?_

theorem fr_execTueRead {F : Nat} {b : State} {a0 a1 s2} (hF : 1718003855368 ||| F = F) (h2 : Frm F b s2) : FrmR F b (execTueRead a0 a1 s2) := by
  unfold execTueRead
  repeat' first
    | with_reducible assumption
    | ((with_reducible apply subt hF); rfl)
    | with_reducible first | apply fr_tueRun | apply fr_tueReadOp | apply frmR_next
    | intro _

theorem fr_tueSearchOp {F : Nat} {b : State} {a0 a1 a2 s3} (hF : 1718003851272 ||| F = F) (h3 : Frm F b s3) : Frm F b (tueSearchOp a0 a1 a2 s3).1 := by
  unfold tueSearchOp
  repeat' first
    | with_reducible assumption
    | ((with_reducible apply subt hF); rfl)
    | with_reducible first | apply fr_tueReads | apply fr_tueStatus
    | split
    | with_reducible refine frm_fst (by assumption) ?_
    | dsimp only

theorem fr_execTueSearch {F : Nat} {b : State} {a0 a1 a2 a3 s4} (hF : 1718003855368 ||| F = F) (h4 : Frm F b s4) : FrmR F b (execTueSearch a0 a1 a2 a3 s4) := by
  unfold execTueSearch
  repeat' first
    | with_reducible assumption
    | ((with_reducible apply subt hF); rfl)
    | with_reducible first | apply fr_tueRun | apply fr_tueSearchOp | apply frmR_next
    | intro _

theorem fr_tueStage {F : Nat} {b : State} {s0 a1 a2 a3 a4 a5} (hF : 549772812296 ||| F = F) (h0 : Frm F b s0) : Frm F b (tueStage s0 a1 a2 a3 a4 a5).1 := by
  unfold tueStage
  repeat' first
    | with_reducible assumption
    | ((with_reducible apply subt hF); rfl)
    | with_reducible first | apply fr_stageOps | apply fr_tueStatus
    | split
    | with_reducible refine frm_fst (by assumption) ?_

theorem fr_tueWriteOp {F : Nat} {b : State} {a0 a1 a2 a3 s4} (hF : 549772812296 ||| F = F) (h4 : Frm F b s4) : Frm F b (tueWriteOp a0 a1 a2 a3 s4).1 := by
  unfold tueWriteOp
  repeat' first
    | with_reducible assumption
    | ((with_reducible apply subt hF); rfl)
    | with_reducible first | apply fr_tueStage | apply fr_tueRefuse | apply fr_tueStatus
    | split
    | dsimp only

theorem fr_execTueWrite {F : Nat} {b : State} {a0 a1 a2 a3 s4} (hF : 549772816392 ||| F = F) (h4 : Frm F b s4) : FrmR F b (execTueWrite a0 a1 a2 a3 s4) := by
  unfold execTueWrite
  repeat' first
    | with_reducible assumption
    | ((with_reducible apply subt hF); rfl)
    | with_reducible first | apply fr_tueRun | apply fr_tueWriteOp | apply frmR_next
    | intro _

theorem fr_tueInsertKey {F : Nat} {b : State} {s0 a1 a2 a3} (hF : 549772812296 ||| F = F) (h0 : Frm F b s0) : Frm F b (tueInsertKey s0 a1 a2 a3).1 := by
  unfold tueInsertKey
  repeat' first
    | with_reducible assumption
    | ((with_reducible apply subt hF); rfl)
    | with_reducible first | apply fr_tueStage | apply fr_tueStatus
    | split

theorem fr_tueInsertOp {F : Nat} {b : State} {a0 a1 a2 a3 s4} (hF : 549772812296 ||| F = F) (h4 : Frm F b s4) : Frm F b (tueInsertOp a0 a1 a2 a3 s4).1 := by
  unfold tueInsertOp
  repeat' first
    | with_reducible assumption
    | ((with_reducible apply subt hF); rfl)
    | with_reducible first | apply fr_tueInsertKey | apply fr_tueRefuse | apply fr_tueStatus
    | split
    | dsimp only

theorem fr_execTueInsert {F : Nat} {b : State} {a0 a1 a2 a3 s4} (hF : 549772816392 ||| F = F) (h4 : Frm F b s4) : FrmR F b (execTueInsert a0 a1 a2 a3 s4) := by
  unfold execTueInsert
  repeat' first
    | with_reducible assumption
    | ((with_reducible apply subt hF); rfl)
    | with_reducible first | apply fr_tueRun | apply fr_tueInsertOp | apply frmR_next
    | intro _

theorem fr_tueDeleteKey {F : Nat} {b : State} {s0 a1 a2 a3} (hF : 549772812296 ||| F = F) (h0 : Frm F b s0) : Frm F b (tueDeleteKey s0 a1 a2 a3).1 := by
  unfold tueDeleteKey
  repeat' first
    | with_reducible assumption
    | ((with_reducible apply subt hF); rfl)
    | with_reducible first | apply fr_tueStatus | apply fr_tueStage
    | split
    | dsimp only

theorem fr_setFlow {F : Nat} {b : State} {s0 a1 a2} (hF : 50331648 ||| F = F) (h0 : Frm F b s0) : Frm F b (setFlow s0 a1 a2) := by
  unfold setFlow
  repeat' first
    | with_reducible assumption
    | ((with_reducible apply subt hF); rfl)
    | with_reducible first | apply fr_State_setEnt | apply fr_mk_33554432
    | simp only [frm_mk]

theorem fr_tueDeleteFlow {F : Nat} {b : State} {s0 a1 a2} (hF : 549806366728 ||| F = F) (h0 : Frm F b s0) : Frm F b (tueDeleteFlow s0 a1 a2).1 := by
  unfold tueDeleteFlow
  repeat' first
    | with_reducible assumption
    | ((with_reducible apply subt hF); rfl)
    | with_reducible first | apply fr_tueStatus | apply fr_siltTable | apply fr_setFlow
    | split
    | dsimp only

theorem fr_tueDeleteOp {F : Nat} {b : State} {a0 a1 a2 a3 s4} (hF : 549806366728 ||| F = F) (h4 : Frm F b s4) : Frm F b (tueDeleteOp a0 a1 a2 a3 s4).1 := by
  unfold tueDeleteOp
  repeat' first
    | with_reducible assumption
    | ((with_reducible apply subt hF); rfl)
    | with_reducible first | apply fr_tueDeleteFlow | apply fr_tueDeleteKey | apply fr_tueRefuse | apply fr_tueStatus
    | split
    | dsimp only

theorem fr_execTueDelete {F : Nat} {b : State} {a0 a1 a2 a3 s4} (hF : 549806370824 ||| F = F) (h4 : Frm F b s4) : FrmR F b (execTueDelete a0 a1 a2 a3 s4) := by
  unfold execTueDelete
  repeat' first
    | with_reducible assumption
    | ((with_reducible apply subt hF); rfl)
    | with_reducible first | apply fr_tueRun | apply fr_tueDeleteOp | apply frmR_next
    | intro _

theorem fr_flushOne {F : Nat} {b : State} {a0 s1 a2} (hF : 549772812296 ||| F = F) (h1 : Frm F b s1) : Frm F b (flushOne a0 s1 a2) := by
  unfold flushOne
  repeat' first
    | with_reducible assumption
    | ((with_reducible apply subt hF); rfl)
    | with_reducible first | apply fr_siltTable | apply fr_freeFdb

theorem fr_tueFlushOp {F : Nat} {b : State} {a0 a1 s2} (hF : 549772812296 ||| F = F) (h2 : Frm F b s2) : Frm F b (tueFlushOp a0 a1 s2).1 := by
  unfold tueFlushOp
  repeat' first
    | with_reducible assumption
    | ((with_reducible apply subt hF); rfl)
    | with_reducible first | apply fr_flushOne | apply fr_tueRefuse | apply fr_tueStatus | apply frm_foldl
    | intro _
    | split

theorem fr_execTueFlush {F : Nat} {b : State} {a0 a1 s2} (hF : 549772816392 ||| F = F) (h2 : Frm F b s2) : FrmR F b (execTueFlush a0 a1 s2) := by
  unfold execTueFlush
  repeat' first
    | with_reducible assumption
    | ((with_reducible apply subt hF); rfl)
    | with_reducible first | apply fr_tueRun | apply fr_tueFlushOp | apply frmR_next
    | intro _

theorem fr_copyOut {F : Nat} {b : State} {s0 a1 a2} (hF : 549772746760 ||| F = F) (h0 : Frm F b s0) : Frm F b (copyOut s0 a1 a2) := by
  unfold copyOut
  repeat' first
    | with_reducible assumption
    | ((with_reducible apply subt hF); rfl)
    | with_reducible first | apply fr_State_bump | apply fr_writeFdb | apply fr_State_setEnt | apply fr_State_setOvl
    | split

theorem fr_execOverlayCopyOut {F : Nat} {b : State} {a0 a1 s2} (hF : 549772746760 ||| F = F) (h2 : Frm F b s2) : FrmR F b (execOverlayCopyOut a0 a1 s2) := by
  unfold execOverlayCopyOut
  repeat' first
    | with_reducible assumption
    | ((with_reducible apply subt hF); rfl)
    | with_reducible first | apply fr_copyOut | apply frmR_next

theorem fr_retireRecord {F : Nat} {b : State} {s0 a1 a2} (hF : 16777224 ||| F = F) (h0 : Frm F b s0) : Frm F b (retireRecord s0 a1 a2) := by
  unfold retireRecord
  repeat' first
    | with_reducible assumption
    | ((with_reducible apply subt hF); rfl)
    | with_reducible first | apply fr_State_dropOvl | apply fr_State_bump | apply fr_stashReinsert
    | split
    | dsimp only

theorem fr_execOverlayRetire {F : Nat} {b : State} {a0 a1 s2} (hF : 16777224 ||| F = F) (h2 : Frm F b s2) : FrmR F b (execOverlayRetire a0 a1 s2) := by
  unfold execOverlayRetire
  repeat' first
    | with_reducible assumption
    | ((with_reducible apply subt hF); rfl)
    | with_reducible first | apply fr_retireRecord | apply frmR_next

theorem fr_queueEvent {F : Nat} {b : State} {s0 a1} (hF : 549772746760 ||| F = F) (h0 : Frm F b s0) : Frm F b (queueEvent s0 a1) := by
  unfold queueEvent
  repeat' first
    | with_reducible assumption
    | ((with_reducible apply subt hF); rfl)
    | with_reducible first | apply fr_State_raise | apply fr_State_bump | apply fr_mk_16777216
    | simp only [frm_mk]
    | split

theorem fr_releaseEvent {F : Nat} {b : State} {s0 a1} (hF : 549772746760 ||| F = F) (h0 : Frm F b s0) : Frm F b (releaseEvent s0 a1) := by
  unfold releaseEvent
  repeat' first
    | with_reducible assumption
    | ((with_reducible apply subt hF); rfl)
    | with_reducible first | apply fr_queueEvent | apply fr_State_setLearnFilter
    | split

theorem fr_execLearnRelease {F : Nat} {b : State} {a0 s1} (hF : 549772746760 ||| F = F) (h1 : Frm F b s1) : FrmR F b (execLearnRelease a0 s1) := by
  unfold execLearnRelease
  repeat' first
    | with_reducible assumption
    | ((with_reducible apply subt hF); rfl)
    | with_reducible first | apply fr_ifWf | apply fr_releaseEvent

theorem fr_setMoves {F : Nat} {b : State} {s0 a1 a2} (hF : 16777216 ||| F = F) (h0 : Frm F b s0) : Frm F b (setMoves s0 a1 a2) := by
  unfold setMoves
  repeat' first
    | with_reducible assumption
    | ((with_reducible apply subt hF); rfl)
    | with_reducible apply fr_mk_16777216
    | simp only [frm_mk]

theorem fr_setPortBit {F : Nat} {b : State} {s0 a1 a2} (hF : 8 ||| F = F) (h0 : Frm F b s0) : Frm F b (setPortBit s0 a1 a2) := by
  unfold setPortBit
  repeat' first
    | with_reducible assumption
    | ((with_reducible apply subt hF); rfl)
    | with_reducible apply fr_State_setPair

theorem fr_markFlapped {F : Nat} {b : State} {s0 a1} (hF : 16777216 ||| F = F) (h0 : Frm F b s0) : Frm F b (markFlapped s0 a1) := by
  unfold markFlapped
  repeat' first
    | with_reducible assumption
    | ((with_reducible apply subt hF); rfl)
    | with_reducible apply fr_mk_16777216
    | simp only [frm_mk]

theorem fr_portFlaps {F : Nat} {b : State} {s0 a1} (hF : 1718003851272 ||| F = F) (h0 : Frm F b s0) : Frm F b (portFlaps s0 a1) := by
  unfold portFlaps
  repeat' first
    | with_reducible assumption
    | ((with_reducible apply subt hF); rfl)
    | with_reducible first | apply fr_State_raise | apply fr_setPortBit | apply fr_markFlapped | apply fr_State_report
    | split
    | dsimp only

theorem fr_countMove {F : Nat} {b : State} {s0 a1} (hF : 1718003851272 ||| F = F) (h0 : Frm F b s0) : Frm F b (countMove s0 a1) := by
  unfold countMove
  repeat' first
    | with_reducible assumption
    | ((with_reducible apply subt hF); rfl)
    | with_reducible first | apply fr_setMoves | apply fr_portFlaps
    | split
    | dsimp only

theorem fr_learnAt {F : Nat} {b : State} {s0 a1 a2} (hF : 1718003851272 ||| F = F) (h0 : Frm F b s0) : Frm F b (learnAt s0 a1 a2) := by
  unfold learnAt
  repeat' first
    | with_reducible assumption
    | ((with_reducible apply subt hF); rfl)
    | with_reducible first | apply fr_State_bump | apply fr_State_setEnt | apply fr_countMove
    | split
    | dsimp only

theorem fr_learnNew {F : Nat} {b : State} {s0 a1} (hF : 549772746760 ||| F = F) (h0 : Frm F b s0) : Frm F b (learnNew s0 a1) := by
  unfold learnNew
  repeat' first
    | with_reducible assumption
    | ((with_reducible apply subt hF); rfl)
    | with_reducible first | apply fr_State_bump | apply fr_pathWrite | apply frm_foldl
    | intro _
    | split

theorem fr_applyEvent {F : Nat} {b : State} {s0} (hF : 1718003851272 ||| F = F) (h0 : Frm F b s0) : Frm F b (applyEvent s0) := by
  unfold applyEvent
  repeat' first
    | with_reducible assumption
    | ((with_reducible apply subt hF); rfl)
    | with_reducible first | apply fr_State_bump | apply fr_learnAt | apply fr_learnNew | apply fr_mk_16777216
    | simp only [frm_mk]
    | split

theorem fr_execLearnApply {F : Nat} {b : State} {s0} (hF : 1718003851272 ||| F = F) (h0 : Frm F b s0) : FrmR F b (execLearnApply s0) := by
  unfold execLearnApply
  repeat' first
    | with_reducible assumption
    | ((with_reducible apply subt hF); rfl)
    | with_reducible first | apply fr_whenever | apply fr_applyEvent | apply frmR_next

theorem fr_execFlapIntervalEnd {F : Nat} {b : State} {s0} (hF : 16777216 ||| F = F) (h0 : Frm F b s0) : FrmR F b (execFlapIntervalEnd s0) := by
  unfold execFlapIntervalEnd
  repeat' first
    | with_reducible assumption
    | ((with_reducible apply subt hF); rfl)
    | with_reducible first | apply fr_whenever | apply fr_mk_16777216 | apply frmR_next
    | simp only [frm_mk]

theorem fr_execTueFrozenClear {F : Nat} {b : State} {a0 a1 a2 s3} (hF : 549755969544 ||| F = F) (h3 : Frm F b s3) : FrmR F b (execTueFrozenClear a0 a1 a2 s3) := by
  unfold execTueFrozenClear
  repeat' first
    | with_reducible assumption
    | ((with_reducible apply subt hF); rfl)
    | with_reducible first | apply fr_State_write | apply fr_State_setReg | apply frmR_next

theorem fr_readHit {F : Nat} {b : State} {s0 a1 a2} (hF : 1718003851272 ||| F = F) (h0 : Frm F b s0) : Frm F b (readHit s0 a1 a2) := by
  unfold readHit
  repeat' first
    | with_reducible assumption
    | ((with_reducible apply subt hF); rfl)
    | with_reducible first | apply fr_memRead | apply fr_setHit | apply fr_memLost
    | split
    | with_reducible refine frm_fst (by assumption) ?_

theorem fr_ageOne {F : Nat} {b : State} {s0 a1} (hF : 1718003851272 ||| F = F) (h0 : Frm F b s0) : Frm F b (ageOne s0 a1) := by
  unfold ageOne
  repeat' first
    | with_reducible assumption
    | ((with_reducible apply subt hF); rfl)
    | with_reducible first | apply fr_readHit | apply fr_setHit | apply fr_State_setEnt | apply fr_freeFdb | apply fr_State_bump
    | split
    | dsimp only

theorem fr_execAgeingSweep {F : Nat} {b : State} {s0} (hF : 1718003851272 ||| F = F) (h0 : Frm F b s0) : FrmR F b (execAgeingSweep s0) := by
  unfold execAgeingSweep
  repeat' first
    | with_reducible assumption
    | ((with_reducible apply subt hF); rfl)
    | with_reducible first | apply fr_whenever | apply fr_ageOne | apply fr_mk_16777216 | apply frmR_next | apply frm_foldl
    | simp only [frm_mk]
    | intro _

theorem fr_purgePort {F : Nat} {b : State} {s0 a1} (hF : 16777224 ||| F = F) (h0 : Frm F b s0) : Frm F b (purgePort s0 a1) := by
  unfold purgePort
  repeat' first
    | with_reducible assumption
    | ((with_reducible apply subt hF); rfl)
    | with_reducible first | apply fr_freeFdb | apply fr_State_bump | apply fr_mk_16777216 | apply frm_foldl
    | simp only [frm_mk]
    | intro _

theorem fr_execFdbPortPurge {F : Nat} {b : State} {a0 s1} (hF : 16777224 ||| F = F) (h1 : Frm F b s1) : FrmR F b (execFdbPortPurge a0 s1) := by
  unfold execFdbPortPurge
  repeat' first
    | with_reducible assumption
    | ((with_reducible apply subt hF); rfl)
    | with_reducible first | apply fr_ifWf | apply fr_whenever | apply fr_purgePort

end Sys2Proof.Laws
end

