-- ==== Sys2Proof/Laws/Frame3.lean ====
section
/-!
SUPPORT. `Frm` for the functions of Machine/: Firewall, Policy, BusOps, Can.
-/
set_option linter.unusedVariables false
namespace Sys2Proof.Laws
set_option Elab.async false
open Sys2Proof Sys2Proof.Machine

/-! ### Firewall -/

theorem fr_checkFlows {F : Nat} {b : State} {s0} (hF : 549755969544 ||| F = F) (h0 : Frm F b s0) : Frm F b (checkFlows s0) := by
  unfold checkFlows
  repeat' first
    | with_reducible assumption
    | ((with_reducible apply subt hF); rfl)
    | with_reducible apply fr_State_raise
    | split

theorem fr_inFlow {F : Nat} {b : State} {s0 a1 a2} (hF : 549806301192 ||| F = F) (h0 : Frm F b s0) : Frm F b (inFlow s0 a1 a2).1 := by
  unfold inFlow
  repeat' first
    | with_reducible assumption
    | ((with_reducible apply subt hF); rfl)
    | with_reducible first | apply fr_State_raise | apply fr_setFlow
    | split
    | dsimp only

theorem fr_openFlow {F : Nat} {b : State} {s0 a1 a2 a3 a4} (hF : 549806301192 ||| F = F) (h0 : Frm F b s0) : Frm F b (openFlow s0 a1 a2 a3 a4).1 := by
  unfold openFlow
  repeat' first
    | with_reducible assumption
    | ((with_reducible apply subt hF); rfl)
    | with_reducible first | apply fr_State_raise | apply fr_checkFlows | apply fr_State_bump | apply fr_setFlow
    | split
    | dsimp only

theorem fr_trackFlow {F : Nat} {b : State} {s0 a1 a2 a3 a4} (hF : 549806301192 ||| F = F) (h0 : Frm F b s0) : Frm F b (trackFlow s0 a1 a2 a3 a4).1 := by
  unfold trackFlow
  repeat' first
    | with_reducible assumption
    | ((with_reducible apply subt hF); rfl)
    | with_reducible first | apply fr_inFlow | apply fr_openFlow
    | split

theorem fr_byRules {F : Nat} {b : State} {s0 a1 a2 a3 a4} (hF : 549806301192 ||| F = F) (h0 : Frm F b s0) : Frm F b (byRules s0 a1 a2 a3 a4).1 := by
  unfold byRules
  repeat' first
    | with_reducible assumption
    | ((with_reducible apply subt hF); rfl)
    | with_reducible first | apply fr_trackFlow | apply fr_inFlow
    | split

theorem fr_decideZone {F : Nat} {b : State} {s0 a1 a2 a3} (hF : 549806301192 ||| F = F) (h0 : Frm F b s0) : Frm F b (decideZone s0 a1 a2 a3).1 := by
  unfold decideZone
  repeat' first
    | with_reducible assumption
    | ((with_reducible apply subt hF); rfl)
    | with_reducible apply fr_byRules
    | split
    | dsimp only

theorem fr_countZone {F : Nat} {b : State} {s0 a1 a2 a3} (hF : 8 ||| F = F) (h0 : Frm F b s0) : Frm F b (countZone s0 a1 a2 a3) := by
  unfold countZone
  repeat' first
    | with_reducible assumption
    | ((with_reducible apply subt hF); rfl)
    | with_reducible apply fr_State_bumpBy
    | split
    | dsimp only

theorem fr_zoneStep {F : Nat} {b : State} {a0 a1} {x : State × FwResult} {a3} (hF : 549806301192 ||| F = F) (h2 : Frm F b x.1) : Frm F b (zoneStep a0 a1 x a3).1 := by
  unfold zoneStep
  repeat' first
    | with_reducible assumption
    | ((with_reducible apply subt hF); rfl)
    | with_reducible first | apply fr_decideZone | apply fr_countZone
    | split
    | with_reducible refine frm_fst (by assumption) ?_
    | dsimp only

theorem fr_flowParity {F : Nat} {b : State} {s0 a1 a2} (hF : 1717987074056 ||| F = F) (h0 : Frm F b s0) : Frm F b (flowParity s0 a1 a2) := by
  unfold flowParity
  repeat' first
    | with_reducible assumption
    | ((with_reducible apply subt hF); rfl)
    | with_reducible first | apply fr_State_report | apply fr_State_bump | apply fr_memRepeated

theorem fr_readFlows {F : Nat} {b : State} {s0 a1} (hF : 1718037405704 ||| F = F) (h0 : Frm F b s0) : Frm F b (readFlows s0 a1) := by
  unfold readFlows
  repeat' first
    | with_reducible assumption
    | ((with_reducible apply subt hF); rfl)
    | with_reducible first | apply fr_memRead | apply fr_flowParity | apply fr_setFlow | apply fr_State_tick1
    | split
    | with_reducible refine frm_fst (by assumption) ?_

theorem fr_firewall {F : Nat} {b : State} {s0 a1} (hF : 1718037405704 ||| F = F) (h0 : Frm F b s0) : Frm F b (firewall s0 a1).1 := by
  unfold firewall
  repeat' first
    | with_reducible assumption
    | ((with_reducible apply subt hF); rfl)
    | with_reducible first | apply fr_State_bump | apply fr_readFlows | apply fr_zoneStep | apply frm_foldl1
    | intro _

theorem fr_sweepFlow {F : Nat} {b : State} {s0 a1} (hF : 50331656 ||| F = F) (h0 : Frm F b s0) : Frm F b (sweepFlow s0 a1) := by
  unfold sweepFlow
  repeat' first
    | with_reducible assumption
    | ((with_reducible apply subt hF); rfl)
    | with_reducible first | apply fr_State_bump | apply fr_setFlow
    | split
    | dsimp only

theorem fr_execFlowSweep {F : Nat} {b : State} {s0} (hF : 50331656 ||| F = F) (h0 : Frm F b s0) : FrmR F b (execFlowSweep s0) := by
  unfold execFlowSweep
  repeat' first
    | with_reducible assumption
    | ((with_reducible apply subt hF); rfl)
    | with_reducible first | apply fr_sweepFlow | apply fr_mk_33554432 | apply frmR_next | apply frm_foldl
    | simp only [frm_mk]
    | intro _

/-! ### Policy -/

theorem fr_blockReport {F : Nat} {b : State} {s0 a1 a2} (hF : 1717987074056 ||| F = F) (h0 : Frm F b s0) : Frm F b (blockReport s0 a1 a2) := by
  unfold blockReport
  repeat' first
    | with_reducible assumption
    | ((with_reducible apply subt hF); rfl)
    | with_reducible first | apply fr_State_report | apply fr_State_raise | apply frm_ite1

theorem fr_blockFilter {F : Nat} {b : State} {s0 a1} (hF : 1718020628488 ||| F = F) (h0 : Frm F b s0) : Frm F b (blockFilter s0 a1) := by
  unfold blockFilter
  repeat' first
    | with_reducible assumption
    | ((with_reducible apply subt hF); rfl)
    | with_reducible first | apply fr_blockReport | apply fr_mk_33554432 | apply frm_ite1
    | simp only [frm_mk]

theorem fr_blockGate {F : Nat} {b : State} {s0 a1 a2} (hF : 1718020628488 ||| F = F) (h0 : Frm F b s0) : Frm F b (blockGate s0 a1 a2) := by
  unfold blockGate
  repeat' first
    | with_reducible assumption
    | ((with_reducible apply subt hF); rfl)
    | with_reducible first | apply fr_blockReport | apply fr_mk_33554432 | apply frm_ite1
    | simp only [frm_mk]

theorem fr_State_setMeterSt {F : Nat} {b : State} {s0 a1 a2} (hF : 33554432 ||| F = F) (h0 : Frm F b s0) : Frm F b (State.setMeterSt s0 a1 a2) := by
  unfold State.setMeterSt
  repeat' first
    | with_reducible assumption
    | ((with_reducible apply subt hF); rfl)
    | with_reducible first | apply fr_mk_33554432 | apply frm_ite1
    | simp only [frm_mk]

theorem fr_sfpLost {F : Nat} {b : State} {s0 a1} (hF : 1717987074056 ||| F = F) (h0 : Frm F b s0) : Frm F b (sfpLost s0 a1) := by
  unfold sfpLost
  repeat' first
    | with_reducible assumption
    | ((with_reducible apply subt hF); rfl)
    | with_reducible first | apply fr_State_report | apply fr_State_bump | apply fr_memRepeated | apply frm_ite1

theorem fr_readMeter {F : Nat} {b : State} {s0 a1 a2} (hF : 1718020628488 ||| F = F) (h0 : Frm F b s0) : Frm F b (readMeter s0 a1 a2) := by
  unfold readMeter
  repeat' first
    | with_reducible assumption
    | ((with_reducible apply subt hF); rfl)
    | with_reducible first | apply fr_memRead | apply fr_sfpLost | apply fr_State_setMeterSt | apply frm_ite1
    | split
    | with_reducible refine frm_fst (by assumption) ?_

theorem fr_readBlocked {F : Nat} {b : State} {s0 a1} (hF : 1717987074056 ||| F = F) (h0 : Frm F b s0) (h1 : ∀ x0, Frm F b x0 → Frm F b (a1 x0)) : Frm F b (readBlocked s0 a1) := by
  have hd := fr_memRead (subm hF) (a1 := 9) (a2 := 0) (a3 := none) h0
  unfold readBlocked
  split
  · rename_i e; rw [e] at hd; exact hd
  · rename_i e; rw [e] at hd; exact fr_sfpLost (subm hF) (h1 _ hd)

theorem fr_meterCharge {F : Nat} {b : State} {s0 a1 a2 a3 a4 a5 a6} (hF : 1718020628488 ||| F = F) (h0 : Frm F b s0) : Frm F b (meterCharge s0 a1 a2 a3 a4 a5 a6).1 := by
  unfold meterCharge
  repeat' first
    | with_reducible assumption
    | ((with_reducible apply subt hF); rfl)
    | with_reducible first | apply fr_readMeter | apply fr_State_setMeterSt | apply fr_blockReport | apply frm_ite1
    | intro _

theorem fr_sfpDrop {F : Nat} {b : State} {s0 a1 a2 a3} (hF : 8 ||| F = F) (h0 : Frm F b s0) : Frm F b (sfpDrop s0 a1 a2 a3) := by
  unfold sfpDrop
  repeat' first
    | with_reducible assumption
    | ((with_reducible apply subt hF); rfl)
    | with_reducible first | apply fr_State_bump | apply frm_ite1
    | split
    | dsimp only

theorem fr_sfpMeter {F : Nat} {b : State} {s0 a1 a2 a3 a4 a5} (hF : 1718020628488 ||| F = F) (h0 : Frm F b s0) : Frm F b (sfpMeter s0 a1 a2 a3 a4 a5).1 := by
  unfold sfpMeter
  repeat' first
    | with_reducible assumption
    | ((with_reducible apply subt hF); rfl)
    | with_reducible first | apply fr_meterCharge | apply fr_sfpDrop | apply frm_ite1
    | intro _
    | split
    | with_reducible refine frm_fst (by assumption) ?_

theorem fr_sfpChecks {F : Nat} {b : State} {s0 a1 a2 a3 a4} (hF : 1718020628488 ||| F = F) (h0 : Frm F b s0) : Frm F b (sfpChecks s0 a1 a2 a3 a4).1 := by
  unfold sfpChecks
  repeat' first
    | with_reducible assumption
    | ((with_reducible apply subt hF); rfl)
    | with_reducible first | apply fr_sfpDrop | apply fr_blockFilter | apply fr_sfpMeter | apply fr_blockGate | apply frm_ite1
    | intro _
    | split

theorem fr_readBits {F : Nat} {b : State} {s0 a1 a2 a3} (hF : 1718020628488 ||| F = F) (h0 : Frm F b s0) : Frm F b (readBits s0 a1 a2 a3) := by
  unfold readBits
  repeat' first
    | with_reducible assumption
    | ((with_reducible apply subt hF); rfl)
    | with_reducible first | apply fr_readBlocked | apply fr_State_setMeterSt | apply fr_mk_33554432 | apply frm_ite1
    | simp only [frm_mk]
    | intro _
    | split

theorem fr_policing {F : Nat} {b : State} {s0 a1 a2} (hF : 1718020628488 ||| F = F) (h0 : Frm F b s0) : Frm F b (policing s0 a1 a2).1 := by
  unfold policing
  repeat' first
    | with_reducible assumption
    | ((with_reducible apply subt hF); rfl)
    | with_reducible first | apply fr_State_bump | apply fr_readBits | apply fr_sfpChecks | apply frm_ite1
    | split

theorem fr_ringVerdict {F : Nat} {b : State} {s0 a1 a2 a3} (hF : 4096 ||| F = F) (h0 : Frm F b s0) : Frm F b (ringVerdict s0 a1 a2 a3) := by
  unfold ringVerdict
  repeat' first
    | with_reducible assumption
    | ((with_reducible apply subt hF); rfl)
    | with_reducible first | apply fr_State_setRing | apply frm_ite1
    | split

theorem fr_policyDrop {F : Nat} {b : State} {s0 a1 a2} (hF : 83890176 ||| F = F) (h0 : Frm F b s0) : Frm F b (policyDrop s0 a1 a2) := by
  unfold policyDrop
  repeat' first
    | with_reducible assumption
    | ((with_reducible apply subt hF); rfl)
    | with_reducible first | apply fr_ringVerdict | apply fr_dropLearn | apply fr_State_setFrame | apply frm_ite1

theorem fr_learnPass {F : Nat} {b : State} {s0 a1 a2} (hF : 16777216 ||| F = F) (h0 : Frm F b s0) : Frm F b (learnPass s0 a1 a2) := by
  unfold learnPass
  repeat' first
    | with_reducible assumption
    | ((with_reducible apply subt hF); rfl)
    | with_reducible first | apply fr_dropLearn | apply fr_mk_16777216 | apply frm_ite1
    | simp only [frm_mk]
    | split

theorem fr_lateCopy {F : Nat} {b : State} {a0 s1 a2} (hF : 872415240 ||| F = F) (h1 : Frm F b s1) : Frm F b (lateCopy a0 s1 a2) := by
  unfold lateCopy
  repeat' first
    | with_reducible assumption
    | ((with_reducible apply subt hF); rfl)
    | with_reducible first | apply fr_State_bump | apply fr_State_setEgs | apply fr_removeCopy | apply frm_ite1 | apply frm_foldl
    | intro _
    | split
    | dsimp only

theorem fr_lateDrop {F : Nat} {b : State} {s0 a1} (hF : 872415240 ||| F = F) (h0 : Frm F b s0) : Frm F b (lateDrop s0 a1) := by
  unfold lateDrop
  repeat' first
    | with_reducible assumption
    | ((with_reducible apply subt hF); rfl)
    | with_reducible first | apply fr_State_setFrame | apply fr_lateCopy | apply frm_ite1 | apply frm_foldl
    | intro _

theorem fr_endFails {F : Nat} {b : State} {s0 a1} (hF : 872415240 ||| F = F) (h0 : Frm F b s0) : Frm F b (endFails s0 a1) := by
  unfold endFails
  repeat' first
    | with_reducible assumption
    | ((with_reducible apply subt hF); rfl)
    | with_reducible first | apply fr_State_bump | apply fr_State_setFrame | apply fr_lateDrop | apply frm_ite1
    | split
    | dsimp only

theorem fr_execEndCheck {F : Nat} {b : State} {a0 s1} (hF : 872415240 ||| F = F) (h1 : Frm F b s1) : FrmR F b (execEndCheck a0 s1) := by
  unfold execEndCheck
  repeat' first
    | with_reducible assumption
    | ((with_reducible apply subt hF); rfl)
    | with_reducible first | apply fr_whenever | apply fr_endFails | apply frmR_next | apply frm_ite1

theorem fr_policyKeep {F : Nat} {b : State} {s0 a1 a2 a3} (hF : 889196552 ||| F = F) (h0 : Frm F b s0) : Frm F b (policyKeep s0 a1 a2 a3) := by
  unfold policyKeep
  repeat' first
    | with_reducible assumption
    | ((with_reducible apply subt hF); rfl)
    | with_reducible first | apply fr_ringVerdict | apply fr_learnPass | apply fr_State_setFrame | apply fr_lateDrop | apply frm_ite1
    | split
    | dsimp only

theorem fr_policy {F : Nat} {b : State} {s0 a1} (hF : 1718909825032 ||| F = F) (h0 : Frm F b s0) : Frm F b (policy s0 a1) := by
  unfold policy
  repeat' first
    | with_reducible assumption
    | ((with_reducible apply subt hF); rfl)
    | with_reducible first | apply fr_policyDrop | apply fr_firewall | apply fr_policing | apply fr_noteReplay | apply fr_policyKeep | apply frm_ite1
    | split
    | dsimp only

theorem fr_execPolicyStage {F : Nat} {b : State} {a0 s1} (hF : 1718909825032 ||| F = F) (h1 : Frm F b s1) : FrmR F b (execPolicyStage a0 s1) := by
  unfold execPolicyStage
  repeat' first
    | with_reducible assumption
    | ((with_reducible apply subt hF); rfl)
    | with_reducible first | apply fr_whenever | apply fr_policy | apply frmR_next | apply frm_ite1

/-! ### BusOps -/

theorem fr_State_setCan {F : Nat} {b : State} {s0 a1 a2} (hF : 1073741824 ||| F = F) (h0 : Frm F b s0) : Frm F b (State.setCan s0 a1 a2) := by
  unfold State.setCan
  repeat' first
    | with_reducible assumption
    | ((with_reducible apply subt hF); rfl)
    | with_reducible apply fr_mk_1073741824
    | simp only [frm_mk]

theorem fr_State_setAuth {F : Nat} {b : State} {s0 a1 a2} (hF : 1073741824 ||| F = F) (h0 : Frm F b s0) : Frm F b (State.setAuth s0 a1 a2) := by
  unfold State.setAuth
  repeat' first
    | with_reducible assumption
    | ((with_reducible apply subt hF); rfl)
    | with_reducible apply fr_mk_1073741824
    | simp only [frm_mk]

theorem fr_placeMsg {F : Nat} {b : State} {s0 a1 a2} (hF : 1073741832 ||| F = F) (h0 : Frm F b s0) : Frm F b (placeMsg s0 a1 a2) := by
  unfold placeMsg
  repeat' first
    | with_reducible assumption
    | ((with_reducible apply subt hF); rfl)
    | with_reducible first | apply fr_State_setCan | apply fr_State_bump
    | split
    | dsimp only

theorem fr_refillBuf {F : Nat} {b : State} {s0 a1 a2} (hF : 1073741824 ||| F = F) (h0 : Frm F b s0) : Frm F b (refillBuf s0 a1 a2) := by
  unfold refillBuf
  repeat' first
    | with_reducible assumption
    | ((with_reducible apply subt hF); rfl)
    | with_reducible apply fr_State_setCan
    | split
    | dsimp only

theorem fr_txEvent {F : Nat} {b : State} {s0 a1 a2 a3 a4} (hF : 550829711368 ||| F = F) (h0 : Frm F b s0) : Frm F b (txEvent s0 a1 a2 a3 a4) := by
  unfold txEvent
  repeat' first
    | with_reducible assumption
    | ((with_reducible apply subt hF); rfl)
    | with_reducible first | apply fr_State_raise | apply fr_State_setCan | apply fr_State_bump
    | split
    | dsimp only

theorem fr_authUsed {F : Nat} {b : State} {s0 a1 a2} (hF : 550829711368 ||| F = F) (h0 : Frm F b s0) : Frm F b (authUsed s0 a1 a2) := by
  unfold authUsed
  repeat' first
    | with_reducible assumption
    | ((with_reducible apply subt hF); rfl)
    | with_reducible first | apply fr_State_setAuth | apply fr_State_raise
    | split
    | dsimp only

theorem fr_gweRequest {F : Nat} {b : State} {s0 a1} (hF : 2147483656 ||| F = F) (h0 : Frm F b s0) : Frm F b (gweRequest s0 a1) := by
  unfold gweRequest
  repeat' first
    | with_reducible assumption
    | ((with_reducible apply subt hF); rfl)
    | with_reducible first | apply fr_State_bump | apply fr_mk_2147483648
    | simp only [frm_mk]
    | split

/-! ### Can -/

theorem fr_takeMode {F : Nat} {b : State} {s0 a1 a2} (hF : 1073741824 ||| F = F) (h0 : Frm F b s0) : Frm F b (takeMode s0 a1 a2) := by
  unfold takeMode
  repeat' first
    | with_reducible assumption
    | ((with_reducible apply subt hF); rfl)
    | with_reducible apply fr_State_setCan

theorem fr_canModeCommit {F : Nat} {b : State} {s0 a1} (hF : 1073741824 ||| F = F) (h0 : Frm F b s0) : Frm F b (canModeCommit s0 a1) := by
  unfold canModeCommit
  repeat' first
    | with_reducible assumption
    | ((with_reducible apply subt hF); rfl)
    | with_reducible apply fr_State_setCan
    | split
    | dsimp only

theorem fr_canSleepEntry {F : Nat} {b : State} {s0 a1} (hF : 1073741824 ||| F = F) (h0 : Frm F b s0) : Frm F b (canSleepEntry s0 a1) := by
  unfold canSleepEntry
  repeat' first
    | with_reducible assumption
    | ((with_reducible apply subt hF); rfl)
    | with_reducible apply fr_State_setCan
    | split
    | dsimp only

theorem fr_canWake {F : Nat} {b : State} {s0 a1} (hF : 1073741824 ||| F = F) (h0 : Frm F b s0) : Frm F b (canWake s0 a1) := by
  unfold canWake
  repeat' first
    | with_reducible assumption
    | ((with_reducible apply subt hF); rfl)
    | with_reducible apply fr_State_setCan
    | split
    | dsimp only

theorem fr_execCanBusIntegrationDone {F : Nat} {b : State} {a0 s1} (hF : 1073741824 ||| F = F) (h1 : Frm F b s1) : FrmR F b (execCanBusIntegrationDone a0 s1) := by
  unfold execCanBusIntegrationDone
  repeat' first
    | with_reducible assumption
    | ((with_reducible apply subt hF); rfl)
    | with_reducible first | apply fr_ifWf | apply fr_takeMode
    | split

theorem fr_unlockToList {F : Nat} {b : State} {s0 a1} (hF : 1073741824 ||| F = F) (h0 : Frm F b s0) : Frm F b (unlockToList s0 a1) := by
  unfold unlockToList
  repeat' first
    | with_reducible assumption
    | ((with_reducible apply subt hF); rfl)
    | with_reducible first | apply fr_refillBuf | apply fr_State_setCan
    | split
    | dsimp only

theorem fr_modeAtIdle {F : Nat} {b : State} {s0 a1} (hF : 1073741824 ||| F = F) (h0 : Frm F b s0) : Frm F b (modeAtIdle s0 a1) := by
  unfold modeAtIdle
  repeat' first
    | with_reducible assumption
    | ((with_reducible apply subt hF); rfl)
    | with_reducible first | apply fr_takeMode | apply fr_unlockToList | apply fr_State_setCan
    | split
    | dsimp only

theorem fr_execCanModeAtIdle {F : Nat} {b : State} {a0 s1} (hF : 1073741824 ||| F = F) (h1 : Frm F b s1) : FrmR F b (execCanModeAtIdle a0 s1) := by
  unfold execCanModeAtIdle
  repeat' first
    | with_reducible assumption
    | ((with_reducible apply subt hF); rfl)
    | with_reducible first | apply fr_ifWf | apply fr_modeAtIdle

theorem fr_busOff {F : Nat} {b : State} {s0 a1} (hF : 1719060815880 ||| F = F) (h0 : Frm F b s0) : Frm F b (busOff s0 a1) := by
  unfold busOff
  repeat' first
    | with_reducible assumption
    | ((with_reducible apply subt hF); rfl)
    | with_reducible first | apply fr_State_setCan | apply fr_State_report | apply fr_State_raise | apply fr_State_bump

theorem fr_settleErrors {F : Nat} {b : State} {s0 a1} (hF : 1719060815880 ||| F = F) (h0 : Frm F b s0) : Frm F b (settleErrors s0 a1) := by
  unfold settleErrors
  repeat' first
    | with_reducible assumption
    | ((with_reducible apply subt hF); rfl)
    | with_reducible first | apply fr_busOff | apply fr_State_setCan | apply fr_State_raise
    | split
    | dsimp only

theorem fr_busError {F : Nat} {b : State} {s0 a1 a2} (hF : 1719060815880 ||| F = F) (h0 : Frm F b s0) : Frm F b (busError s0 a1 a2) := by
  unfold busError
  repeat' first
    | with_reducible assumption
    | ((with_reducible apply subt hF); rfl)
    | with_reducible first | apply fr_State_bump | apply fr_settleErrors | apply fr_State_setCan
    | split
    | dsimp only

theorem fr_execCanError {F : Nat} {b : State} {a0 a1 s2} (hF : 1719060815880 ||| F = F) (h2 : Frm F b s2) : FrmR F b (execCanError a0 a1 s2) := by
  unfold execCanError
  repeat' first
    | with_reducible assumption
    | ((with_reducible apply subt hF); rfl)
    | with_reducible first | apply fr_ifWf | apply fr_busError

theorem fr_execCanBoRecover {F : Nat} {b : State} {a0 a1 s2} (hF : 550829711368 ||| F = F) (h2 : Frm F b s2) : FrmR F b (execCanBoRecover a0 a1 s2) := by
  unfold execCanBoRecover
  repeat' first
    | with_reducible assumption
    | ((with_reducible apply subt hF); rfl)
    | with_reducible first | apply fr_ifWf | apply fr_State_write | apply fr_State_setCan
    | split

theorem fr_execBusoffRecovered {F : Nat} {b : State} {a0 s1} (hF : 1073741824 ||| F = F) (h1 : Frm F b s1) : FrmR F b (execBusoffRecovered a0 s1) := by
  unfold execBusoffRecovered
  repeat' first
    | with_reducible assumption
    | ((with_reducible apply subt hF); rfl)
    | with_reducible first | apply fr_ifWf | apply fr_whenever | apply fr_State_setCan

theorem fr_acceptMsg {F : Nat} {b : State} {s0 a1 a2 a3 a4} (hF : 1073741832 ||| F = F) (h0 : Frm F b s0) : Frm F b (acceptMsg s0 a1 a2 a3 a4) := by
  unfold acceptMsg
  repeat' first
    | with_reducible assumption
    | ((with_reducible apply subt hF); rfl)
    | with_reducible first | apply fr_placeMsg | apply fr_State_setCan

theorem fr_authLoss {F : Nat} {b : State} {s0 a1 a2} (hF : 1719060815880 ||| F = F) (h0 : Frm F b s0) : Frm F b (authLoss s0 a1 a2) := by
  unfold authLoss
  repeat' first
    | with_reducible assumption
    | ((with_reducible apply subt hF); rfl)
    | with_reducible first | apply fr_State_setAuth | apply fr_memLost

theorem fr_readAuth {F : Nat} {b : State} {s0 a1} (hF : 1719060815880 ||| F = F) (h0 : Frm F b s0) : Frm F b (readAuth s0 a1) := by
  unfold readAuth
  repeat' first
    | with_reducible assumption
    | ((with_reducible apply subt hF); rfl)
    | with_reducible first | apply fr_memRead | apply fr_authLoss
    | split
    | with_reducible refine frm_fst (by assumption) ?_

theorem fr_pendingWrite {F : Nat} {b : State} {s0 a1 a2} (hF : 550829711368 ||| F = F) (h0 : Frm F b s0) : Frm F b (pendingWrite s0 a1 a2).1 := by
  unfold pendingWrite
  repeat' first
    | with_reducible assumption
    | ((with_reducible apply subt hF); rfl)
    | with_reducible first | apply fr_State_bump | apply fr_State_raise | apply fr_acceptMsg
    | split

theorem fr_pendingDone {F : Nat} {b : State} {s0 a1 a2 a3} (hF : 8 ||| F = F) (h0 : Frm F b s0) : Frm F b (pendingDone s0 a1 a2 a3) := by
  unfold pendingDone
  repeat' first
    | with_reducible assumption
    | ((with_reducible apply subt hF); rfl)
    | with_reducible first | apply fr_State_setReg | apply fr_State_bump
    | split

theorem fr_setSub {F : Nat} {b : State} {s0 a1 a2 a3} (hF : 1073741824 ||| F = F) (h0 : Frm F b s0) : Frm F b (setSub s0 a1 a2 a3) := by
  unfold setSub
  repeat' first
    | with_reducible assumption
    | ((with_reducible apply subt hF); rfl)
    | with_reducible apply fr_State_setCan

theorem fr_beginMac {F : Nat} {b : State} {a0 s1 a2} (hF : 1719060815880 ||| F = F) (h1 : Frm F b s1) : Frm F b (beginMac a0 s1 a2) := by
  unfold beginMac
  repeat' first
    | with_reducible assumption
    | ((with_reducible apply subt hF); rfl)
    | with_reducible first | apply fr_readAuth | apply fr_setSub | apply fr_State_bump | apply fr_authUsed
    | split
    | dsimp only

theorem fr_beginMacs {F : Nat} {b : State} {s0 a1} (hF : 1719060815880 ||| F = F) (h0 : Frm F b s0) : Frm F b (beginMacs s0 a1) := by
  unfold beginMacs
  repeat' first
    | with_reducible assumption
    | ((with_reducible apply subt hF); rfl)
    | with_reducible first | apply fr_beginMac | apply frm_foldl
    | intro _

theorem fr_canPending {F : Nat} {b : State} {s0 a1} (hF : 550829711368 ||| F = F) (h0 : Frm F b s0) : Frm F b (canPending s0 a1) := by
  unfold canPending
  repeat' first
    | with_reducible assumption
    | ((with_reducible apply subt hF); rfl)
    | with_reducible first | apply fr_pendingWrite | apply fr_pendingDone | apply fr_State_setCan
    | split

theorem fr_execCanPendingWrite {F : Nat} {b : State} {a0 s1} (hF : 550829711368 ||| F = F) (h1 : Frm F b s1) : FrmR F b (execCanPendingWrite a0 s1) := by
  unfold execCanPendingWrite
  repeat' first
    | with_reducible assumption
    | ((with_reducible apply subt hF); rfl)
    | with_reducible first | apply fr_ifWf | apply fr_canPending

theorem fr_txsGo {F : Nat} {b : State} {s0 a1} (hF : 1719060815880 ||| F = F) (h0 : Frm F b s0) : Frm F b (txsGo s0 a1) := by
  unfold txsGo
  repeat' first
    | with_reducible assumption
    | ((with_reducible apply subt hF); rfl)
    | with_reducible first | apply fr_State_setReg | apply fr_beginMacs | apply fr_State_setCan
    | split

theorem fr_execCanTxsGo {F : Nat} {b : State} {a0 a1 s2} (hF : 1719060815880 ||| F = F) (h2 : Frm F b s2) : FrmR F b (execCanTxsGo a0 a1 s2) := by
  unfold execCanTxsGo
  repeat' first
    | with_reducible assumption
    | ((with_reducible apply subt hF); rfl)
    | with_reducible first | apply fr_ifWf | apply fr_State_write | apply fr_txsGo

theorem fr_countHeld {F : Nat} {b : State} {a0 a1 s2 a3} (hF : 1073741832 ||| F = F) (h2 : Frm F b s2) : Frm F b (countHeld a0 a1 s2 a3) := by
  unfold countHeld
  repeat' first
    | with_reducible assumption
    | ((with_reducible apply subt hF); rfl)
    | with_reducible first | apply fr_State_bump | apply fr_State_setCan
    | split
    | dsimp only

theorem fr_parityLoss {F : Nat} {b : State} {s0 a1 a2 a3 a4} (hF : 1719060815880 ||| F = F) (h0 : Frm F b s0) : Frm F b (parityLoss s0 a1 a2 a3 a4) := by
  unfold parityLoss
  repeat' first
    | with_reducible assumption
    | ((with_reducible apply subt hF); rfl)
    | with_reducible first | apply fr_txEvent | apply fr_refillBuf | apply fr_State_bump | apply fr_memLost

theorem fr_selectBuf {F : Nat} {b : State} {s0 a1 a2} (hF : 1719060815880 ||| F = F) (h0 : Frm F b s0) : Frm F b (selectBuf s0 a1 a2) := by
  unfold selectBuf
  repeat' first
    | with_reducible assumption
    | ((with_reducible apply subt hF); rfl)
    | with_reducible first | apply fr_countHeld | apply fr_memRead | apply fr_parityLoss | apply fr_State_setCan | apply frm_foldl
    | intro _
    | split
    | with_reducible refine frm_fst (by assumption) ?_
    | dsimp only

theorem fr_execCanSelection {F : Nat} {b : State} {a0 s1} (hF : 1719060815880 ||| F = F) (h1 : Frm F b s1) : FrmR F b (execCanSelection a0 s1) := by
  unfold execCanSelection
  repeat' first
    | with_reducible assumption
    | ((with_reducible apply subt hF); rfl)
    | with_reducible first | apply fr_ifWf | apply fr_selectBuf

theorem fr_execCanBufferReady {F : Nat} {b : State} {a0 a1 a2 s3} (hF : 1719060815880 ||| F = F) (h3 : Frm F b s3) : FrmR F b (execCanBufferReady a0 a1 a2 s3) := by
  unfold execCanBufferReady
  repeat' first
    | with_reducible assumption
    | ((with_reducible apply subt hF); rfl)
    | with_reducible first | apply fr_ifWf | apply fr_State_setCan | apply fr_selectBuf
    | split

theorem fr_execCanArbLost {F : Nat} {b : State} {a0 a1 s2} (hF : 1073741832 ||| F = F) (h2 : Frm F b s2) : FrmR F b (execCanArbLost a0 a1 s2) := by
  unfold execCanArbLost
  repeat' first
    | with_reducible assumption
    | ((with_reducible apply subt hF); rfl)
    | with_reducible first | apply fr_ifWf | apply fr_State_setCan | apply fr_State_bump
    | split

theorem fr_fastPhase {F : Nat} {b : State} {s0 a1 a2 a3} (hF : 549755813888 ||| F = F) (h0 : Frm F b s0) : Frm F b (fastPhase s0 a1 a2 a3) := by
  unfold fastPhase
  repeat' first
    | with_reducible assumption
    | ((with_reducible apply subt hF); rfl)
    | with_reducible apply fr_State_emit
    | split
    | dsimp only

theorem fr_txOk {F : Nat} {b : State} {s0 a1 a2 a3} (hF : 1719060815880 ||| F = F) (h0 : Frm F b s0) : Frm F b (txOk s0 a1 a2 a3) := by
  unfold txOk
  repeat' first
    | with_reducible assumption
    | ((with_reducible apply subt hF); rfl)
    | with_reducible first | apply fr_fastPhase | apply fr_State_setCan | apply fr_State_bump | apply fr_State_emit | apply fr_settleErrors | apply fr_txEvent | apply fr_refillBuf

theorem fr_execCanTxOk {F : Nat} {b : State} {a0 s1} (hF : 1719060815880 ||| F = F) (h1 : Frm F b s1) : FrmR F b (execCanTxOk a0 s1) := by
  unfold execCanTxOk
  repeat' first
    | with_reducible assumption
    | ((with_reducible apply subt hF); rfl)
    | with_reducible first | apply fr_ifWf | apply fr_txOk
    | split

theorem fr_execCanWindowOverrun {F : Nat} {b : State} {a0 s1} (hF : 1719060815880 ||| F = F) (h1 : Frm F b s1) : FrmR F b (execCanWindowOverrun a0 s1) := by
  unfold execCanWindowOverrun
  repeat' first
    | with_reducible assumption
    | ((with_reducible apply subt hF); rfl)
    | with_reducible first | apply fr_ifWf | apply fr_State_report | apply fr_State_raise | apply fr_State_bump | apply fr_State_setCan
    | split

theorem fr_askCancel {F : Nat} {b : State} {s0 a1 a2} (hF : 1073741824 ||| F = F) (h0 : Frm F b s0) : Frm F b (askCancel s0 a1 a2) := by
  unfold askCancel
  repeat' first
    | with_reducible assumption
    | ((with_reducible apply subt hF); rfl)
    | with_reducible apply fr_State_setCan

theorem fr_execCanCancelTag {F : Nat} {b : State} {a0 a1 a2 s3} (hF : 550829711368 ||| F = F) (h3 : Frm F b s3) : FrmR F b (execCanCancelTag a0 a1 a2 s3) := by
  unfold execCanCancelTag
  repeat' first
    | with_reducible assumption
    | ((with_reducible apply subt hF); rfl)
    | with_reducible first | apply fr_ifWf | apply fr_State_write | apply fr_askCancel

theorem fr_execCanCancelAll {F : Nat} {b : State} {a0 a1 s2} (hF : 550829711368 ||| F = F) (h2 : Frm F b s2) : FrmR F b (execCanCancelAll a0 a1 s2) := by
  unfold execCanCancelAll
  repeat' first
    | with_reducible assumption
    | ((with_reducible apply subt hF); rfl)
    | with_reducible first | apply fr_ifWf | apply fr_State_write | apply fr_askCancel

theorem fr_cancelled {F : Nat} {b : State} {s0 a1 a2} (hF : 550829711368 ||| F = F) (h0 : Frm F b s0) : Frm F b (cancelled s0 a1 a2) := by
  unfold cancelled
  repeat' first
    | with_reducible assumption
    | ((with_reducible apply subt hF); rfl)
    | with_reducible first | apply fr_txEvent | apply fr_State_bump

theorem fr_cancelBuf {F : Nat} {b : State} {a0 a1 s2 a3} (hF : 550829711368 ||| F = F) (h2 : Frm F b s2) : Frm F b (cancelBuf a0 a1 s2 a3) := by
  unfold cancelBuf
  repeat' first
    | with_reducible assumption
    | ((with_reducible apply subt hF); rfl)
    | with_reducible first | apply fr_cancelled | apply fr_refillBuf | apply fr_State_setCan | apply fr_State_bump
    | split

theorem fr_cancelSample {F : Nat} {b : State} {s0 a1} (hF : 550829711368 ||| F = F) (h0 : Frm F b s0) : Frm F b (cancelSample s0 a1) := by
  unfold cancelSample
  repeat' first
    | with_reducible assumption
    | ((with_reducible apply subt hF); rfl)
    | with_reducible first | apply fr_State_setCan | apply fr_cancelled | apply fr_cancelBuf | apply frm_foldl
    | intro _

theorem fr_execCanCancelSample {F : Nat} {b : State} {a0 s1} (hF : 550829711368 ||| F = F) (h1 : Frm F b s1) : FrmR F b (execCanCancelSample a0 s1) := by
  unfold execCanCancelSample
  repeat' first
    | with_reducible assumption
    | ((with_reducible apply subt hF); rfl)
    | with_reducible first | apply fr_ifWf | apply fr_cancelSample

theorem fr_execCanCancelAbort {F : Nat} {b : State} {a0 s1} (hF : 1719060815880 ||| F = F) (h1 : Frm F b s1) : FrmR F b (execCanCancelAbort a0 s1) := by
  unfold execCanCancelAbort
  repeat' first
    | with_reducible assumption
    | ((with_reducible apply subt hF); rfl)
    | with_reducible first | apply fr_ifWf | apply fr_whenever | apply fr_busError | apply fr_State_bump | apply fr_State_setCan

theorem fr_txevRead {F : Nat} {b : State} {s0 a1 a2} (hF : 550829555712 ||| F = F) (h0 : Frm F b s0) : Frm F b (txevRead s0 a1 a2) := by
  unfold txevRead
  repeat' first
    | with_reducible assumption
    | ((with_reducible apply subt hF); rfl)
    | with_reducible first | apply fr_State_emit | apply fr_State_setCan
    | split
    | dsimp only

theorem fr_execCanTxevRead {F : Nat} {b : State} {a0 a1 s2} (hF : 619549032448 ||| F = F) (h2 : Frm F b s2) : FrmR F b (execCanTxevRead a0 a1 s2) := by
  unfold execCanTxevRead
  repeat' first
    | with_reducible assumption
    | ((with_reducible apply subt hF); rfl)
    | with_reducible first | apply fr_ifWf | apply fr_State_readOnce | apply fr_txevRead

theorem fr_putWords {F : Nat} {b : State} {a0 a1 a2 s3} (hF : 8 ||| F = F) (h3 : Frm F b s3) : Frm F b (putWords a0 a1 a2 s3) := by
  unfold putWords
  repeat' first
    | with_reducible assumption
    | ((with_reducible apply subt hF); rfl)
    | with_reducible first | apply fr_State_setReg | apply frm_foldl
    | intro _

theorem fr_rxLoss {F : Nat} {b : State} {s0 a1 a2 a3 a4} (hF : 1719060815880 ||| F = F) (h0 : Frm F b s0) : Frm F b (rxLoss s0 a1 a2 a3 a4) := by
  unfold rxLoss
  repeat' first
    | with_reducible assumption
    | ((with_reducible apply subt hF); rfl)
    | with_reducible first | apply fr_State_bump | apply fr_State_setCan | apply fr_memLost

theorem fr_readRxq {F : Nat} {b : State} {s0 a1 a2} (hF : 1719060815880 ||| F = F) (h0 : Frm F b s0) : Frm F b (readRxq s0 a1 a2) := by
  unfold readRxq
  repeat' first
    | with_reducible assumption
    | ((with_reducible apply subt hF); rfl)
    | with_reducible first | apply fr_memRead | apply fr_rxLoss
    | split
    | with_reducible refine frm_fst (by assumption) ?_

theorem fr_rxqPop {F : Nat} {b : State} {s0 a1 a2 a3} (hF : 1719060815880 ||| F = F) (h0 : Frm F b s0) : Frm F b (rxqPop s0 a1 a2 a3) := by
  unfold rxqPop
  repeat' first
    | with_reducible assumption
    | ((with_reducible apply subt hF); rfl)
    | with_reducible first | apply fr_readRxq | apply fr_State_emit | apply fr_State_tick1 | apply fr_State_setCan | apply fr_putWords
    | split
    | dsimp only

theorem fr_execCanRxqPop {F : Nat} {b : State} {a0 a1 a2 s3} (hF : 1719060815880 ||| F = F) (h3 : Frm F b s3) : FrmR F b (execCanRxqPop a0 a1 a2 s3) := by
  unfold execCanRxqPop
  repeat' first
    | with_reducible assumption
    | ((with_reducible apply subt hF); rfl)
    | with_reducible first | apply fr_ifWf | apply fr_State_readOnce | apply fr_rxqPop

theorem fr_authFails {F : Nat} {b : State} {s0 a1} (hF : 1717987074056 ||| F = F) (h0 : Frm F b s0) : Frm F b (authFails s0 a1) := by
  unfold authFails
  repeat' first
    | with_reducible assumption
    | ((with_reducible apply subt hF); rfl)
    | with_reducible first | apply fr_State_report | apply fr_State_raise | apply fr_State_bump

theorem fr_queueRx {F : Nat} {b : State} {s0 a1 a2 a3} (hF : 550829711368 ||| F = F) (h0 : Frm F b s0) : Frm F b (queueRx s0 a1 a2 a3) := by
  unfold queueRx
  repeat' first
    | with_reducible assumption
    | ((with_reducible apply subt hF); rfl)
    | with_reducible first | apply fr_State_setCan | apply fr_State_raise | apply fr_State_bump
    | split
    | dsimp only

theorem fr_storeRx {F : Nat} {b : State} {s0 a1 a2 a3} (hF : 552977195016 ||| F = F) (h0 : Frm F b s0) : Frm F b (storeRx s0 a1 a2 a3) := by
  unfold storeRx
  repeat' first
    | with_reducible assumption
    | ((with_reducible apply subt hF); rfl)
    | with_reducible first | apply fr_State_bump | apply fr_queueRx | apply fr_gweRequest
    | split

theorem fr_writeRx {F : Nat} {b : State} {a0 s1 a2} (hF : 1721208299528 ||| F = F) (h1 : Frm F b s1) : Frm F b (writeRx a0 s1 a2) := by
  unfold writeRx
  repeat' first
    | with_reducible assumption
    | ((with_reducible apply subt hF); rfl)
    | with_reducible first | apply fr_State_setCan | apply fr_storeRx | apply fr_readAuth | apply fr_authFails | apply fr_State_setAuth
    | split
    | dsimp only

theorem fr_writesRx {F : Nat} {b : State} {s0 a1} (hF : 1721208299528 ||| F = F) (h0 : Frm F b s0) : Frm F b (writesRx s0 a1) := by
  unfold writesRx
  repeat' first
    | with_reducible assumption
    | ((with_reducible apply subt hF); rfl)
    | with_reducible first | apply fr_writeRx | apply frm_foldl
    | intro _

theorem fr_canCycleDue {F : Nat} {b : State} {s0 a1} (hF : 1721208299528 ||| F = F) (h0 : Frm F b s0) : Frm F b (canCycleDue s0 a1) := by
  unfold canCycleDue
  repeat' first
    | with_reducible assumption
    | ((with_reducible apply subt hF); rfl)
    | with_reducible first | apply fr_beginMacs | apply fr_writesRx

theorem fr_countRx {F : Nat} {b : State} {s0 a1} (hF : 1719060815880 ||| F = F) (h0 : Frm F b s0) : Frm F b (countRx s0 a1) := by
  unfold countRx
  repeat' first
    | with_reducible assumption
    | ((with_reducible apply subt hF); rfl)
    | with_reducible first | apply fr_State_bump | apply fr_settleErrors | apply fr_State_setCan | apply fr_State_tick1
    | split
    | dsimp only

theorem fr_takeRx {F : Nat} {b : State} {s0 a1 a2 a3 a4 a5 a6} (hF : 1100585369600 ||| F = F) (h0 : Frm F b s0) : Frm F b (takeRx s0 a1 a2 a3 a4 a5 a6) := by
  unfold takeRx
  repeat' first
    | with_reducible assumption
    | ((with_reducible apply subt hF); rfl)
    | with_reducible first | apply fr_State_setCan | apply fr_State_tick1
    | split

theorem fr_canReceive {F : Nat} {b : State} {s0 a1 a2 a3} (hF : 1719060815880 ||| F = F) (h0 : Frm F b s0) : Frm F b (canReceive s0 a1 a2 a3) := by
  unfold canReceive
  repeat' first
    | with_reducible assumption
    | ((with_reducible apply subt hF); rfl)
    | with_reducible first | apply fr_fastPhase | apply fr_countRx | apply fr_takeRx
    | split
    | dsimp only

theorem fr_execCanFrameReceived {F : Nat} {b : State} {a0 a1 a2 s3} (hF : 1719060815880 ||| F = F) (h3 : Frm F b s3) : FrmR F b (execCanFrameReceived a0 a1 a2 s3) := by
  unfold execCanFrameReceived
  repeat' first
    | with_reducible assumption
    | ((with_reducible apply subt hF); rfl)
    | with_reducible first | apply fr_ifWf | apply fr_canReceive

theorem fr_authSet {F : Nat} {b : State} {s0 a1 a2} (hF : 549756035336 ||| F = F) (h0 : Frm F b s0) : Frm F b (authSet s0 a1 a2) := by
  unfold authSet
  repeat' first
    | with_reducible assumption
    | ((with_reducible apply subt hF); rfl)
    | with_reducible first | apply fr_State_silt_ | apply fr_State_putShadow

theorem fr_execCanAuthSet {F : Nat} {b : State} {a0 a1 s2} (hF : 549756035336 ||| F = F) (h2 : Frm F b s2) : FrmR F b (execCanAuthSet a0 a1 s2) := by
  unfold execCanAuthSet
  repeat' first
    | with_reducible assumption
    | ((with_reducible apply subt hF); rfl)
    | with_reducible first | apply fr_State_write | apply fr_authSet | apply frmR_next

theorem fr_authCommit {F : Nat} {b : State} {s0 a1 a2} (hF : 1073741824 ||| F = F) (h0 : Frm F b s0) : Frm F b (authCommit s0 a1 a2) := by
  unfold authCommit
  repeat' first
    | with_reducible assumption
    | ((with_reducible apply subt hF); rfl)
    | with_reducible apply fr_State_setAuth

theorem fr_raiseAuthRsv {F : Nat} {b : State} {s0 a1} (hF : 275951648768 ||| F = F) (h0 : Frm F b s0) : Frm F b (raiseAuthRsv s0 a1) := by
  unfold raiseAuthRsv
  exact fr_mk_274877906944 (subm hF) (fr_State_setAuth (subm hF) h0)

theorem fr_execAuthRsvRaise {F : Nat} {b : State} {a0 s1} (hF : 275951648768 ||| F = F) (h1 : Frm F b s1) : FrmR F b (execAuthRsvRaise a0 s1) := by
  unfold execAuthRsvRaise
  repeat' first
    | with_reducible assumption
    | ((with_reducible apply subt hF); rfl)
    | with_reducible first | apply fr_ifWf | apply fr_whenever | apply fr_raiseAuthRsv

end Sys2Proof.Laws
end

