-- ==== Sys2Proof/Laws/Frame4.lean ====
section
/-!
SUPPORT. `Frm` for the functions of Machine/: NetTime, Msec, Lookaside, SlOps, Mka, Lin.
-/
set_option linter.unusedVariables false
namespace Sys2Proof.Laws
set_option Elab.async false
open Sys2Proof Sys2Proof.Machine

/-! ### NetTime -/

theorem fr_gmChange {F : Nat} {b : State} {s0 a1 a2} (hF : 549758066696 ||| F = F) (h0 : Frm F b s0) : Frm F b (gmChange s0 a1 a2) := by
  unfold gmChange
  repeat' first
    | with_reducible assumption
    | ((with_reducible apply subt hF); rfl)
    | with_reducible first | apply fr_State_raise | apply fr_State_bump | apply fr_State_setDom
    | split

theorem fr_acquireSync {F : Nat} {b : State} {s0 a1 a2} (hF : 1717989433352 ||| F = F) (h0 : Frm F b s0) : Frm F b (acquireSync s0 a1 a2) := by
  unfold acquireSync
  repeat' first
    | with_reducible assumption
    | ((with_reducible apply subt hF); rfl)
    | with_reducible first | apply fr_domStep | apply fr_State_setDom | apply fr_servo | apply fr_domEnter
    | split
    | dsimp only

theorem fr_validSync {F : Nat} {b : State} {s0 a1 a2} (hF : 1717989433352 ||| F = F) (h0 : Frm F b s0) : Frm F b (validSync s0 a1 a2) := by
  unfold validSync
  repeat' first
    | with_reducible assumption
    | ((with_reducible apply subt hF); rfl)
    | with_reducible first | apply fr_State_setDom | apply fr_domEnter | apply fr_servo
    | split
    | dsimp only

theorem fr_syncAccepted {F : Nat} {b : State} {s0 a1 a2 a3 a4} (hF : 1717989433352 ||| F = F) (h0 : Frm F b s0) : Frm F b (syncAccepted s0 a1 a2 a3 a4) := by
  unfold syncAccepted
  repeat' first
    | with_reducible assumption
    | ((with_reducible apply subt hF); rfl)
    | with_reducible first | apply fr_gmChange | apply fr_State_setDom | apply fr_domEnter | apply fr_takeAdj | apply fr_domStep | apply fr_acquireSync | apply fr_validSync
    | split
    | dsimp only

theorem fr_servoLost {F : Nat} {b : State} {s0 a1 a2} (hF : 1717989433352 ||| F = F) (h0 : Frm F b s0) : Frm F b (servoLost s0 a1 a2) := by
  unfold servoLost
  repeat' first
    | with_reducible assumption
    | ((with_reducible apply subt hF); rfl)
    | with_reducible first | apply fr_State_report | apply fr_State_bump | apply fr_domEnter

theorem fr_withServo {F : Nat} {b : State} {s0 a1 a2} (hF : 1717989433352 ||| F = F) (h0 : Frm F b s0) (h2 : ∀ x0, Frm F b x0 → Frm F b (a2 x0)) : Frm F b (withServo s0 a1 a2) := by
  have hd := fr_memRead (subm hF) (a1 := 9) (a2 := 0) (a3 := none) h0
  unfold withServo
  split
  · rename_i e; rw [e] at hd; exact h2 _ hd
  · rename_i e; rw [e] at hd; exact fr_servoLost (subm hF) (fr_memRepeated (subm hF) hd)

theorem fr_syncWaits {F : Nat} {b : State} {s0 a1 a2 a3} (hF : 2097160 ||| F = F) (h0 : Frm F b s0) : Frm F b (syncWaits s0 a1 a2 a3) := by
  unfold syncWaits
  repeat' first
    | with_reducible assumption
    | ((with_reducible apply subt hF); rfl)
    | with_reducible first | apply fr_State_bump | apply fr_State_setDom
    | split

theorem fr_execPtpSyncRx {F : Nat} {b : State} {a0 a1 a2 a3 a4 a5 s6} (hF : 1717989433352 ||| F = F) (h6 : Frm F b s6) : FrmR F b (execPtpSyncRx a0 a1 a2 a3 a4 a5 s6) := by
  unfold execPtpSyncRx
  repeat' first
    | with_reducible assumption
    | ((with_reducible apply subt hF); rfl)
    | with_reducible first | apply fr_ifWf | apply fr_whenever | apply fr_syncWaits | apply fr_withServo | apply fr_State_bump | apply fr_syncAccepted
    | intro _
    | split

theorem fr_relayInfo {F : Nat} {b : State} {s0 a1 a2 a3 a4} (hF : 69206016 ||| F = F) (h0 : Frm F b s0) : Frm F b (relayInfo s0 a1 a2 a3 a4) := by
  unfold relayInfo
  repeat' first
    | with_reducible assumption
    | ((with_reducible apply subt hF); rfl)
    | with_reducible first | apply fr_State_setDom | apply fr_mk_67108864
    | simp only [frm_mk]

theorem fr_completeSync {F : Nat} {b : State} {s0 a1 a2 a3 a4} (hF : 1717989433352 ||| F = F) (h0 : Frm F b s0) : Frm F b (completeSync s0 a1 a2 a3 a4) := by
  unfold completeSync
  repeat' first
    | with_reducible assumption
    | ((with_reducible apply subt hF); rfl)
    | with_reducible first | apply fr_State_bump | apply fr_State_setDom | apply fr_withServo | apply fr_syncAccepted
    | intro _
    | split

theorem fr_execPtpFollowUpRx {F : Nat} {b : State} {a0 a1 a2 a3 s4} (hF : 1718056542216 ||| F = F) (h4 : Frm F b s4) : FrmR F b (execPtpFollowUpRx a0 a1 a2 a3 s4) := by
  unfold execPtpFollowUpRx
  repeat' first
    | with_reducible assumption
    | ((with_reducible apply subt hF); rfl)
    | with_reducible first | apply fr_ifWf | apply fr_whenever | apply fr_completeSync | apply fr_relayInfo

theorem fr_execFuMissing {F : Nat} {b : State} {a0 s1} (hF : 2097160 ||| F = F) (h1 : Frm F b s1) : FrmR F b (execFuMissing a0 s1) := by
  unfold execFuMissing
  repeat' first
    | with_reducible assumption
    | ((with_reducible apply subt hF); rfl)
    | with_reducible first | apply fr_ifWf | apply fr_whenever | apply fr_State_bump | apply fr_State_setDom
    | split

theorem fr_execPtpSyncTimeout {F : Nat} {b : State} {a0 s1} (hF : 1717989433352 ||| F = F) (h1 : Frm F b s1) : FrmR F b (execPtpSyncTimeout a0 s1) := by
  unfold execPtpSyncTimeout
  repeat' first
    | with_reducible assumption
    | ((with_reducible apply subt hF); rfl)
    | with_reducible first | apply fr_ifWf | apply fr_whenever | apply fr_domHoldover

theorem fr_execPtpHoldExpire {F : Nat} {b : State} {a0 s1} (hF : 1717989433352 ||| F = F) (h1 : Frm F b s1) : FrmR F b (execPtpHoldExpire a0 s1) := by
  unfold execPtpHoldExpire
  repeat' first
    | with_reducible assumption
    | ((with_reducible apply subt hF); rfl)
    | with_reducible first | apply fr_ifWf | apply fr_whenever | apply fr_domEnter

theorem fr_gmSet {F : Nat} {b : State} {s0 a1} (hF : 1717989433352 ||| F = F) (h0 : Frm F b s0) : Frm F b (gmSet s0 a1) := by
  unfold gmSet
  repeat' first
    | with_reducible assumption
    | ((with_reducible apply subt hF); rfl)
    | with_reducible first | apply fr_domStep | apply fr_domEnter | apply fr_takeAdj

theorem fr_execPtpSetGo {F : Nat} {b : State} {a0 a1 s2} (hF : 1717989433352 ||| F = F) (h2 : Frm F b s2) : FrmR F b (execPtpSetGo a0 a1 s2) := by
  unfold execPtpSetGo
  repeat' first
    | with_reducible assumption
    | ((with_reducible apply subt hF); rfl)
    | with_reducible first | apply fr_ifWf | apply fr_State_write | apply fr_gmSet

theorem fr_unanswered {F : Nat} {b : State} {s0 a1} (hF : 1717989433352 ||| F = F) (h0 : Frm F b s0) : Frm F b (unanswered s0 a1) := by
  unfold unanswered
  repeat' first
    | with_reducible assumption
    | ((with_reducible apply subt hF); rfl)
    | with_reducible first | apply fr_State_setPdelay | apply fr_asCapLost
    | split
    | dsimp only

theorem fr_sendPdelay {F : Nat} {b : State} {s0 a1} (hF : 471859200 ||| F = F) (h0 : Frm F b s0) : Frm F b (sendPdelay s0 a1) := by
  unfold sendPdelay
  repeat' first
    | with_reducible assumption
    | ((with_reducible apply subt hF); rfl)
    | with_reducible first | apply fr_State_setPdelay | apply fr_usedSeq | apply fr_gptpSend

theorem fr_execPdelayReqTx {F : Nat} {b : State} {a0 s1} (hF : 1718459195400 ||| F = F) (h1 : Frm F b s1) : FrmR F b (execPdelayReqTx a0 s1) := by
  unfold execPdelayReqTx
  repeat' first
    | with_reducible assumption
    | ((with_reducible apply subt hF); rfl)
    | with_reducible first | apply fr_ifWf | apply fr_whenever | apply fr_sendPdelay | apply fr_unanswered

theorem fr_answerPdelay {F : Nat} {b : State} {s0 a1 a2 a3 a4} (hF : 469762048 ||| F = F) (h0 : Frm F b s0) : Frm F b (answerPdelay s0 a1 a2 a3 a4) := by
  unfold answerPdelay
  repeat' first
    | with_reducible assumption
    | ((with_reducible apply subt hF); rfl)
    | with_reducible apply fr_gptpSend

theorem fr_execPdelayReqRx {F : Nat} {b : State} {a0 a1 a2 a3 s4} (hF : 469762048 ||| F = F) (h4 : Frm F b s4) : FrmR F b (execPdelayReqRx a0 a1 a2 a3 s4) := by
  unfold execPdelayReqRx
  repeat' first
    | with_reducible assumption
    | ((with_reducible apply subt hF); rfl)
    | with_reducible first | apply fr_ifWf | apply fr_whenever | apply fr_answerPdelay

theorem fr_pdelayDone {F : Nat} {b : State} {s0 a1 a2 a3 a4 a5} (hF : 1717989433352 ||| F = F) (h0 : Frm F b s0) : Frm F b (pdelayDone s0 a1 a2 a3 a4 a5) := by
  unfold pdelayDone
  repeat' first
    | with_reducible assumption
    | ((with_reducible apply subt hF); rfl)
    | with_reducible first | apply fr_State_setPdelay | apply fr_asCapLost
    | split
    | dsimp only

theorem fr_execPdelayRespRx {F : Nat} {b : State} {a0 a1 a2 a3 a4 s5} (hF : 1717989433352 ||| F = F) (h5 : Frm F b s5) : FrmR F b (execPdelayRespRx a0 a1 a2 a3 a4 s5) := by
  unfold execPdelayRespRx
  repeat' first
    | with_reducible assumption
    | ((with_reducible apply subt hF); rfl)
    | with_reducible first | apply fr_ifWf | apply fr_pdelayDone
    | split

theorem fr_relaySync {F : Nat} {b : State} {s0 a1 a2 a3 a4 a5} (hF : 471859208 ||| F = F) (h0 : Frm F b s0) : Frm F b (relaySync s0 a1 a2 a3 a4 a5) := by
  unfold relaySync
  repeat' first
    | with_reducible assumption
    | ((with_reducible apply subt hF); rfl)
    | with_reducible first | apply fr_State_bump | apply fr_sendSyncs
    | split

theorem fr_execSyncRelay {F : Nat} {b : State} {a0 a1 a2 a3 a4 s5} (hF : 471859208 ||| F = F) (h5 : Frm F b s5) : FrmR F b (execSyncRelay a0 a1 a2 a3 a4 s5) := by
  unfold execSyncRelay
  repeat' first
    | with_reducible assumption
    | ((with_reducible apply subt hF); rfl)
    | with_reducible first | apply fr_ifWf | apply fr_whenever | apply fr_relaySync

theorem fr_sendFollowUp {F : Nat} {b : State} {s0 a1 a2 a3} (hF : 471859208 ||| F = F) (h0 : Frm F b s0) : Frm F b (sendFollowUp s0 a1 a2 a3) := by
  unfold sendFollowUp
  repeat' first
    | with_reducible assumption
    | ((with_reducible apply subt hF); rfl)
    | with_reducible first | apply fr_State_setDom | apply fr_State_bump | apply fr_gptpSend
    | split
    | dsimp only

theorem fr_execFollowUpTx {F : Nat} {b : State} {a0 a1 s2} (hF : 471859208 ||| F = F) (h2 : Frm F b s2) : FrmR F b (execFollowUpTx a0 a1 s2) := by
  unfold execFollowUpTx
  repeat' first
    | with_reducible assumption
    | ((with_reducible apply subt hF); rfl)
    | with_reducible first | apply fr_ifWf | apply fr_sendFollowUp
    | split

theorem fr_execSyncOriginate {F : Nat} {b : State} {a0 s1} (hF : 471859208 ||| F = F) (h1 : Frm F b s1) : FrmR F b (execSyncOriginate a0 s1) := by
  unfold execSyncOriginate
  repeat' first
    | with_reducible assumption
    | ((with_reducible apply subt hF); rfl)
    | with_reducible first | apply fr_ifWf | apply fr_whenever | apply fr_sendSyncs | apply fr_State_setDom

theorem fr_domAdopt {F : Nat} {b : State} {s0 a1 a2 a3} (hF : 1717989433352 ||| F = F) (h0 : Frm F b s0) : Frm F b (domAdopt s0 a1 a2 a3) := by
  unfold domAdopt
  repeat' first
    | with_reducible assumption
    | ((with_reducible apply subt hF); rfl)
    | with_reducible first | apply fr_domEnter | apply fr_takeAdj | apply fr_domStep
    | split

/-! ### Msec -/

theorem fr_startTx {F : Nat} {b : State} {s0 a1 a2 a3 a4} (hF : 8589934600 ||| F = F) (h0 : Frm F b s0) : Frm F b (startTx s0 a1 a2 a3 a4) := by
  unfold startTx
  repeat' first
    | with_reducible assumption
    | ((with_reducible apply subt hF); rfl)
    | with_reducible first | apply fr_setSaPn | apply fr_State_setPair | apply fr_State_setBitAt | apply fr_State_setKeySlot

theorem fr_installSa {F : Nat} {b : State} {s0 a1 a2 a3} (hF : 12884901896 ||| F = F) (h0 : Frm F b s0) : Frm F b (installSa s0 a1 a2 a3) := by
  unfold installSa
  repeat' first
    | with_reducible assumption
    | ((with_reducible apply subt hF); rfl)
    | with_reducible first | apply fr_State_setReg | apply fr_State_setSaRun | apply fr_startTx
    | split

theorem fr_tryInstall {F : Nat} {b : State} {s0 a1 a2 a3 a4} (hF : 2006823690248 ||| F = F) (h0 : Frm F b s0) : Frm F b (tryInstall s0 a1 a2 a3 a4) := by
  unfold tryInstall
  repeat' first
    | with_reducible assumption
    | ((with_reducible apply subt hF); rfl)
    | with_reducible first | apply fr_readSlot | apply fr_State_refuse | apply fr_installSa | apply fr_logReg | apply fr_State_setFld
    | split
    | with_reducible refine frm_fst (by assumption) ?_

theorem fr_execSaInstall {F : Nat} {b : State} {a0 a1 a2 a3 s4} (hF : 2006823690248 ||| F = F) (h4 : Frm F b s4) : FrmR F b (execSaInstall a0 a1 a2 a3 s4) := by
  unfold execSaInstall
  repeat' first
    | with_reducible assumption
    | ((with_reducible apply subt hF); rfl)
    | with_reducible first | apply fr_ifWf | apply fr_State_refuse | apply fr_tryInstall
    | split

theorem fr_removeSa {F : Nat} {b : State} {s0 a1 a2 a3 a4} (hF : 549756035080 ||| F = F) (h0 : Frm F b s0) : Frm F b (removeSa s0 a1 a2 a3 a4) := by
  unfold removeSa
  repeat' first
    | with_reducible assumption
    | ((with_reducible apply subt hF); rfl)
    | with_reducible first | apply fr_logReg | apply fr_State_setReg

theorem fr_execSaRemove {F : Nat} {b : State} {a0 a1 a2 a3 s4} (hF : 549756035080 ||| F = F) (h4 : Frm F b s4) : FrmR F b (execSaRemove a0 a1 a2 a3 s4) := by
  unfold execSaRemove
  repeat' first
    | with_reducible assumption
    | ((with_reducible apply subt hF); rfl)
    | with_reducible first | apply fr_ifWf | apply fr_State_write | apply fr_removeSa

theorem fr_selectSa {F : Nat} {b : State} {s0 a1 a2 a3} (hF : 549756035080 ||| F = F) (h0 : Frm F b s0) : Frm F b (selectSa s0 a1 a2 a3) := by
  unfold selectSa
  repeat' first
    | with_reducible assumption
    | ((with_reducible apply subt hF); rfl)
    | with_reducible first | apply fr_logReg | apply fr_State_setReg

theorem fr_execEncSaWrite {F : Nat} {b : State} {a0 a1 a2 s3} (hF : 549756035080 ||| F = F) (h3 : Frm F b s3) : FrmR F b (execEncSaWrite a0 a1 a2 s3) := by
  unfold execEncSaWrite
  repeat' first
    | with_reducible assumption
    | ((with_reducible apply subt hF); rfl)
    | with_reducible first | apply fr_ifWf | apply fr_State_write | apply fr_selectSa

theorem fr_rsvConfirm {F : Nat} {b : State} {a0 s1 a2} (hF : 4294967304 ||| F = F) (h1 : Frm F b s1) : Frm F b (rsvConfirm a0 s1 a2) := by
  unfold rsvConfirm
  repeat' first
    | with_reducible assumption
    | ((with_reducible apply subt hF); rfl)
    | with_reducible first | apply fr_raiseRsv | apply fr_State_setSaRun
    | split
    | dsimp only

theorem fr_mscCommit {F : Nat} {b : State} {s0 a1} (hF : 8 ||| F = F) (h0 : Frm F b s0) : Frm F b (mscCommit s0 a1) := by
  unfold mscCommit
  repeat' first
    | with_reducible assumption
    | ((with_reducible apply subt hF); rfl)
    | with_reducible first | apply fr_State_setPair | apply frm_foldl
    | intro _
    | split

theorem fr_takeoverSa {F : Nat} {b : State} {s0 a1} (hF : 554050936840 ||| F = F) (h0 : Frm F b s0) : Frm F b (takeoverSa s0 a1) := by
  unfold takeoverSa
  repeat' first
    | with_reducible assumption
    | ((with_reducible apply subt hF); rfl)
    | with_reducible first | apply fr_State_setPair | apply fr_setSaPn | apply fr_exhaustTx
    | split
    | dsimp only

theorem fr_mscTakeover {F : Nat} {b : State} {s0} (hF : 554050936840 ||| F = F) (h0 : Frm F b s0) : Frm F b (mscTakeover s0) := by
  unfold mscTakeover
  repeat' first
    | with_reducible assumption
    | ((with_reducible apply subt hF); rfl)
    | with_reducible first | apply fr_takeoverSa | apply frm_foldl
    | intro _

theorem fr_rotate {F : Nat} {b : State} {s0 a1} (hF : 4294967304 ||| F = F) (h0 : Frm F b s0) : Frm F b (rotate s0 a1) := by
  unfold rotate
  repeat' first
    | with_reducible assumption
    | ((with_reducible apply subt hF); rfl)
    | with_reducible first | apply fr_State_bump | apply fr_State_setKat | apply fr_State_setFld
    | split
    | dsimp only

theorem fr_execKatRotation {F : Nat} {b : State} {a0 s1} (hF : 4294967304 ||| F = F) (h1 : Frm F b s1) : FrmR F b (execKatRotation a0 s1) := by
  unfold execKatRotation
  repeat' first
    | with_reducible assumption
    | ((with_reducible apply subt hF); rfl)
    | with_reducible first | apply fr_whenever | apply fr_rotate | apply frmR_next

theorem fr_markNoPipe {F : Nat} {b : State} {s0} (hF : 8 ||| F = F) (h0 : Frm F b s0) : Frm F b (markNoPipe s0) := by
  unfold markNoPipe
  repeat' first
    | with_reducible assumption
    | ((with_reducible apply subt hF); rfl)
    | with_reducible apply fr_State_setBitAt

theorem fr_katPassed {F : Nat} {b : State} {s0 a1 a2} (hF : 4294967304 ||| F = F) (h0 : Frm F b s0) : Frm F b (katPassed s0 a1 a2) := by
  unfold katPassed
  repeat' first
    | with_reducible assumption
    | ((with_reducible apply subt hF); rfl)
    | with_reducible first | apply fr_State_bump | apply fr_State_setKat | apply fr_markNoPipe | apply fr_State_setFld
    | split
    | dsimp only

theorem fr_katEnds {F : Nat} {b : State} {s0 a1 a2} (hF : 1722282041352 ||| F = F) (h0 : Frm F b s0) : Frm F b (katEnds s0 a1 a2) := by
  unfold katEnds
  repeat' first
    | with_reducible assumption
    | ((with_reducible apply subt hF); rfl)
    | with_reducible first | apply fr_katPassed | apply fr_retirePipe | apply fr_State_report | apply fr_State_raise | apply fr_State_bump
    | split

theorem fr_execKatComplete {F : Nat} {b : State} {a0 a1 s2} (hF : 1722282041352 ||| F = F) (h2 : Frm F b s2) : FrmR F b (execKatComplete a0 a1 s2) := by
  unfold execKatComplete
  repeat' first
    | with_reducible assumption
    | ((with_reducible apply subt hF); rfl)
    | with_reducible first | apply fr_katEnds | apply frmR_next

/-! ### Lookaside -/

theorem fr_laFinish {F : Nat} {b : State} {s0 a1 a2 a3 a4} (hF : 549755817992 ||| F = F) (h0 : Frm F b s0) : Frm F b (laFinish s0 a1 a2 a3 a4) := by
  unfold laFinish
  repeat' first
    | with_reducible assumption
    | ((with_reducible apply subt hF); rfl)
    | with_reducible first | apply fr_State_bump | apply fr_State_emit | apply fr_ringComplete
    | split

theorem fr_useCtr {F : Nat} {b : State} {s0 a1} (hF : 283467841536 ||| F = F) (h0 : Frm F b s0) : Frm F b (useCtr s0 a1) := by
  unfold useCtr
  repeat' first
    | with_reducible assumption
    | ((with_reducible apply subt hF); rfl)
    | with_reducible first | apply fr_State_setKeySlot | apply fr_mk_274877906944
    | simp only [frm_mk]
    | split

theorem fr_laCheck {F : Nat} {b : State} {s0 a1} (hF : 2006823690248 ||| F = F) (h0 : Frm F b s0) : Frm F b (laCheck s0 a1).1 := by
  unfold laCheck
  repeat' first
    | with_reducible assumption
    | ((with_reducible apply subt hF); rfl)
    | with_reducible apply fr_readSlot
    | split
    | with_reducible refine frm_fst (by assumption) ?_

theorem fr_rngFail {F : Nat} {b : State} {s0} (hF : 1722282045448 ||| F = F) (h0 : Frm F b s0) : Frm F b (rngFail s0) := by
  unfold rngFail
  repeat' first
    | with_reducible assumption
    | ((with_reducible apply subt hF); rfl)
    | with_reducible first | apply fr_laFinish | apply fr_State_setBitAt | apply fr_State_report | apply fr_State_raise | apply fr_State_bump | apply fr_mk_4294967296 | apply frm_foldl
    | simp only [frm_mk]
    | intro _

theorem fr_reseeded {F : Nat} {b : State} {s0} (hF : 4294967304 ||| F = F) (h0 : Frm F b s0) : Frm F b (reseeded s0) := by
  unfold reseeded
  repeat' first
    | with_reducible assumption
    | ((with_reducible apply subt hF); rfl)
    | with_reducible first | apply fr_State_setBitAt | apply fr_State_bump | apply fr_mk_4294967296
    | simp only [frm_mk]

theorem fr_laAdmit {F : Nat} {b : State} {s0 a1 a2} (hF : 287762808832 ||| F = F) (h0 : Frm F b s0) : Frm F b (laAdmit s0 a1 a2) := by
  unfold laAdmit
  repeat' first
    | with_reducible assumption
    | ((with_reducible apply subt hF); rfl)
    | with_reducible first | apply fr_useCtr | apply fr_mk_4294967296
    | simp only [frm_mk]
    | split

theorem fr_drbgAdmit {F : Nat} {b : State} {s0 a1 a2} (hF : 2005749886984 ||| F = F) (h0 : Frm F b s0) : Frm F b (drbgAdmit s0 a1 a2) := by
  unfold drbgAdmit
  repeat' first
    | with_reducible assumption
    | ((with_reducible apply subt hF); rfl)
    | with_reducible first | apply fr_laFinish | apply fr_rngFail | apply fr_reseeded | apply fr_laAdmit | apply fr_mk_4294967296
    | simp only [frm_mk]
    | split

theorem fr_laBoundary {F : Nat} {b : State} {s0 a1 a2} (hF : 2006823694344 ||| F = F) (h0 : Frm F b s0) : Frm F b (laBoundary s0 a1 a2) := by
  unfold laBoundary
  repeat' first
    | with_reducible assumption
    | ((with_reducible apply subt hF); rfl)
    | with_reducible first | apply fr_laCheck | apply fr_drbgAdmit | apply fr_laAdmit | apply fr_laFinish | apply fr_State_bump
    | split
    | with_reducible refine frm_fst (by assumption) ?_

theorem fr_laAdmitAll {F : Nat} {b : State} {a0 a1 s2} (hF : 2006823694344 ||| F = F) (h2 : Frm F b s2) : Frm F b (laAdmitAll a0 a1 s2) := by
  induction a1 generalizing a0 s2 with
  | nil =>
    unfold laAdmitAll
    exact fr_mk_4294967296 (subm hF) h2
  | cons r rest ih =>
    unfold laAdmitAll
    dsimp only
    repeat' split
    all_goals first | exact ih h2 | exact ih (fr_laBoundary (subm hF) h2)

theorem fr_laTake {F : Nat} {b : State} {s0 a1 a2 a3 a4 a5} (hF : 2006823694344 ||| F = F) (h0 : Frm F b s0) : Frm F b (laTake s0 a1 a2 a3 a4 a5) := by
  unfold laTake
  repeat' first
    | with_reducible assumption
    | ((with_reducible apply subt hF); rfl)
    | with_reducible first | apply fr_ringTake | apply fr_laAdmitAll | apply fr_mk_4294967296
    | simp only [frm_mk]
    | split

theorem fr_laCommand {F : Nat} {b : State} {a0 a1 a2 a3 a4 a5 s6} (hF : 2006823694344 ||| F = F) (h6 : Frm F b s6) : FrmR F b (laCommand a0 a1 a2 a3 a4 a5 s6) := by
  unfold laCommand
  repeat' first
    | with_reducible assumption
    | ((with_reducible apply subt hF); rfl)
    | with_reducible first | apply fr_ifWf | apply fr_laTake

theorem fr_laDone {F : Nat} {b : State} {s0 a1} (hF : 2006823694344 ||| F = F) (h0 : Frm F b s0) : Frm F b (laDone s0 a1) := by
  unfold laDone
  repeat' first
    | with_reducible assumption
    | ((with_reducible apply subt hF); rfl)
    | with_reducible first | apply fr_State_tick1 | apply fr_laFinish | apply fr_laAdmitAll | apply fr_mk_4294967296
    | simp only [frm_mk]
    | split

theorem fr_execLookasideComplete {F : Nat} {b : State} {a0 s1} (hF : 2006823694344 ||| F = F) (h1 : Frm F b s1) : FrmR F b (execLookasideComplete a0 s1) := by
  unfold execLookasideComplete
  repeat' first
    | with_reducible assumption
    | ((with_reducible apply subt hF); rfl)
    | with_reducible first | apply fr_laDone | apply frmR_next
    | split

theorem fr_laAbort {F : Nat} {b : State} {s0} (hF : 4294967296 ||| F = F) (h0 : Frm F b s0) : Frm F b (laAbort s0) := by
  unfold laAbort
  repeat' first
    | with_reducible assumption
    | ((with_reducible apply subt hF); rfl)
    | with_reducible apply fr_mk_4294967296
    | simp only [frm_mk]

theorem fr_execAesCtrEnc {F : Nat} {b : State} {a0 a1 a2 a3 s4} (hF : 2006823694344 ||| F = F) (h4 : Frm F b s4) : FrmR F b (execAesCtrEnc a0 a1 a2 a3 s4) := by
  unfold execAesCtrEnc
  repeat' first
    | with_reducible assumption
    | ((with_reducible apply subt hF); rfl)
    | with_reducible apply fr_laCommand

theorem fr_execAesCtrDec {F : Nat} {b : State} {a0 a1 a2 a3 s4} (hF : 2006823694344 ||| F = F) (h4 : Frm F b s4) : FrmR F b (execAesCtrDec a0 a1 a2 a3 s4) := by
  unfold execAesCtrDec
  repeat' first
    | with_reducible assumption
    | ((with_reducible apply subt hF); rfl)
    | with_reducible apply fr_laCommand

theorem fr_execAesGcmEnc {F : Nat} {b : State} {a0 a1 a2 a3 s4} (hF : 2006823694344 ||| F = F) (h4 : Frm F b s4) : FrmR F b (execAesGcmEnc a0 a1 a2 a3 s4) := by
  unfold execAesGcmEnc
  repeat' first
    | with_reducible assumption
    | ((with_reducible apply subt hF); rfl)
    | with_reducible apply fr_laCommand

theorem fr_execAesGcmDec {F : Nat} {b : State} {a0 a1 a2 a3 s4} (hF : 2006823694344 ||| F = F) (h4 : Frm F b s4) : FrmR F b (execAesGcmDec a0 a1 a2 a3 s4) := by
  unfold execAesGcmDec
  repeat' first
    | with_reducible assumption
    | ((with_reducible apply subt hF); rfl)
    | with_reducible apply fr_laCommand

theorem fr_execAesCmacGen {F : Nat} {b : State} {a0 a1 a2 a3 s4} (hF : 2006823694344 ||| F = F) (h4 : Frm F b s4) : FrmR F b (execAesCmacGen a0 a1 a2 a3 s4) := by
  unfold execAesCmacGen
  repeat' first
    | with_reducible assumption
    | ((with_reducible apply subt hF); rfl)
    | with_reducible apply fr_laCommand

theorem fr_execAesCmacVer {F : Nat} {b : State} {a0 a1 a2 a3 s4} (hF : 2006823694344 ||| F = F) (h4 : Frm F b s4) : FrmR F b (execAesCmacVer a0 a1 a2 a3 s4) := by
  unfold execAesCmacVer
  repeat' first
    | with_reducible assumption
    | ((with_reducible apply subt hF); rfl)
    | with_reducible apply fr_laCommand

theorem fr_execAesCmacFv {F : Nat} {b : State} {a0 a1 a2 a3 s4} (hF : 2006823694344 ||| F = F) (h4 : Frm F b s4) : FrmR F b (execAesCmacFv a0 a1 a2 a3 s4) := by
  unfold execAesCmacFv
  repeat' first
    | with_reducible assumption
    | ((with_reducible apply subt hF); rfl)
    | with_reducible apply fr_laCommand

theorem fr_execAesKwWrap {F : Nat} {b : State} {a0 a1 a2 a3 s4} (hF : 2006823694344 ||| F = F) (h4 : Frm F b s4) : FrmR F b (execAesKwWrap a0 a1 a2 a3 s4) := by
  unfold execAesKwWrap
  repeat' first
    | with_reducible assumption
    | ((with_reducible apply subt hF); rfl)
    | with_reducible apply fr_laCommand

theorem fr_execAesKwUnwrap {F : Nat} {b : State} {a0 a1 a2 a3 s4} (hF : 2006823694344 ||| F = F) (h4 : Frm F b s4) : FrmR F b (execAesKwUnwrap a0 a1 a2 a3 s4) := by
  unfold execAesKwUnwrap
  repeat' first
    | with_reducible assumption
    | ((with_reducible apply subt hF); rfl)
    | with_reducible apply fr_laCommand

theorem fr_execSha256 {F : Nat} {b : State} {a0 a1 a2 a3 s4} (hF : 2006823694344 ||| F = F) (h4 : Frm F b s4) : FrmR F b (execSha256 a0 a1 a2 a3 s4) := by
  unfold execSha256
  repeat' first
    | with_reducible assumption
    | ((with_reducible apply subt hF); rfl)
    | with_reducible apply fr_laCommand

theorem fr_execSha384 {F : Nat} {b : State} {a0 a1 a2 a3 s4} (hF : 2006823694344 ||| F = F) (h4 : Frm F b s4) : FrmR F b (execSha384 a0 a1 a2 a3 s4) := by
  unfold execSha384
  repeat' first
    | with_reducible assumption
    | ((with_reducible apply subt hF); rfl)
    | with_reducible apply fr_laCommand

theorem fr_execHmacSha256 {F : Nat} {b : State} {a0 a1 a2 a3 s4} (hF : 2006823694344 ||| F = F) (h4 : Frm F b s4) : FrmR F b (execHmacSha256 a0 a1 a2 a3 s4) := by
  unfold execHmacSha256
  repeat' first
    | with_reducible assumption
    | ((with_reducible apply subt hF); rfl)
    | with_reducible apply fr_laCommand

theorem fr_execHmacSha384 {F : Nat} {b : State} {a0 a1 a2 a3 s4} (hF : 2006823694344 ||| F = F) (h4 : Frm F b s4) : FrmR F b (execHmacSha384 a0 a1 a2 a3 s4) := by
  unfold execHmacSha384
  repeat' first
    | with_reducible assumption
    | ((with_reducible apply subt hF); rfl)
    | with_reducible apply fr_laCommand

theorem fr_execEcdsaSign {F : Nat} {b : State} {a0 a1 a2 a3 s4} (hF : 2006823694344 ||| F = F) (h4 : Frm F b s4) : FrmR F b (execEcdsaSign a0 a1 a2 a3 s4) := by
  unfold execEcdsaSign
  repeat' first
    | with_reducible assumption
    | ((with_reducible apply subt hF); rfl)
    | with_reducible apply fr_laCommand

theorem fr_execEcdsaVerify {F : Nat} {b : State} {a0 a1 a2 a3 s4} (hF : 2006823694344 ||| F = F) (h4 : Frm F b s4) : FrmR F b (execEcdsaVerify a0 a1 a2 a3 s4) := by
  unfold execEcdsaVerify
  repeat' first
    | with_reducible assumption
    | ((with_reducible apply subt hF); rfl)
    | with_reducible apply fr_laCommand

theorem fr_execEcdh {F : Nat} {b : State} {a0 a1 a2 a3 s4} (hF : 2006823694344 ||| F = F) (h4 : Frm F b s4) : FrmR F b (execEcdh a0 a1 a2 a3 s4) := by
  unfold execEcdh
  repeat' first
    | with_reducible assumption
    | ((with_reducible apply subt hF); rfl)
    | with_reducible apply fr_laCommand

theorem fr_execDrbgGen {F : Nat} {b : State} {a0 a1 a2 s3} (hF : 2006823694344 ||| F = F) (h3 : Frm F b s3) : FrmR F b (execDrbgGen a0 a1 a2 s3) := by
  unfold execDrbgGen
  repeat' first
    | with_reducible assumption
    | ((with_reducible apply subt hF); rfl)
    | with_reducible apply fr_laCommand

theorem fr_execDrbgReseed {F : Nat} {b : State} {a0 a1 a2 s3} (hF : 2006823694344 ||| F = F) (h3 : Frm F b s3) : FrmR F b (execDrbgReseed a0 a1 a2 s3) := by
  unfold execDrbgReseed
  repeat' first
    | with_reducible assumption
    | ((with_reducible apply subt hF); rfl)
    | with_reducible apply fr_laCommand

theorem fr_execInvFence {F : Nat} {b : State} {a0 a1 s2} (hF : 2006823694344 ||| F = F) (h2 : Frm F b s2) : FrmR F b (execInvFence a0 a1 s2) := by
  unfold execInvFence
  repeat' first
    | with_reducible assumption
    | ((with_reducible apply subt hF); rfl)
    | with_reducible apply fr_laCommand

/-! ### SlOps -/

theorem fr_slEmitOn {F : Nat} {b : State} {s0 a1 a2} (hF : 549755813896 ||| F = F) (h0 : Frm F b s0) : Frm F b (slEmitOn s0 a1 a2) := by
  unfold slEmitOn
  repeat' first
    | with_reducible assumption
    | ((with_reducible apply subt hF); rfl)
    | with_reducible first | apply fr_State_emit | apply fr_State_bumpBy | apply fr_State_bump

theorem fr_slEmit {F : Nat} {b : State} {s0 a1} (hF : 584115552264 ||| F = F) (h0 : Frm F b s0) : Frm F b (slEmit s0 a1) := by
  unfold slEmit
  repeat' first
    | with_reducible assumption
    | ((with_reducible apply subt hF); rfl)
    | with_reducible first | apply fr_slEmitOn | apply fr_mk_34359738368
    | simp only [frm_mk]

theorem fr_slPass {F : Nat} {b : State} {s0 a1} (hF : 584115552264 ||| F = F) (h0 : Frm F b s0) : Frm F b (slPass s0 a1) := by
  unfold slPass
  repeat' first
    | with_reducible assumption
    | ((with_reducible apply subt hF); rfl)
    | with_reducible first | apply fr_slEmit | apply fr_mk_34359738368
    | simp only [frm_mk]

theorem fr_slDrain {F : Nat} {b : State} {a0 s1} (hF : 584115552264 ||| F = F) (h1 : Frm F b s1) : Frm F b (slDrain a0 s1) := by
  induction a0 generalizing s1 with
  | nil => exact h1
  | cons r t ih =>
    unfold slDrain
    split
    · exact ih (fr_slPass (subm hF) (fr_mk_34359738368 (subm hF) h1))
    · exact h1

theorem fr_slSend {F : Nat} {b : State} {s0 a1 a2 a3} (hF : 584115552264 ||| F = F) (h0 : Frm F b s0) : Frm F b (slSend s0 a1 a2 a3) := by
  unfold slSend
  repeat' first
    | with_reducible assumption
    | ((with_reducible apply subt hF); rfl)
    | with_reducible first | apply fr_slPass | apply fr_mk_34359738368
    | simp only [frm_mk]
    | split

/-! ### Mka -/

theorem fr_State_setMka {F : Nat} {b : State} {s0 a1 a2} (hF : 4294967296 ||| F = F) (h0 : Frm F b s0) : Frm F b (State.setMka s0 a1 a2) := by
  unfold State.setMka
  repeat' first
    | with_reducible assumption
    | ((with_reducible apply subt hF); rfl)
    | with_reducible apply fr_mk_4294967296
    | simp only [frm_mk]

theorem fr_poolInstall {F : Nat} {b : State} {s0 a1 a2 a3} (hF : 834297618440 ||| F = F) (h0 : Frm F b s0) : Frm F b (poolInstall s0 a1 a2 a3) := by
  unfold poolInstall
  repeat' first
    | with_reducible assumption
    | ((with_reducible apply subt hF); rfl)
    | with_reducible first | apply fr_changeSlot | apply fr_siltKey

theorem fr_mp1Write {F : Nat} {b : State} {s0 a1 a2} (hF : 549756035080 ||| F = F) (h0 : Frm F b s0) : Frm F b (mp1Write s0 a1 a2) := by
  unfold mp1Write
  repeat' first
    | with_reducible assumption
    | ((with_reducible apply subt hF); rfl)
    | with_reducible first | apply fr_logReg | apply fr_State_setReg

theorem fr_installTx {F : Nat} {b : State} {s0 a1 a2 a3} (hF : 2006823690248 ||| F = F) (h0 : Frm F b s0) : Frm F b (installTx s0 a1 a2 a3) := by
  unfold installTx
  repeat' first
    | with_reducible assumption
    | ((with_reducible apply subt hF); rfl)
    | with_reducible first | apply fr_mp1Write | apply fr_tryInstall
    | split

theorem fr_openSc {F : Nat} {b : State} {s0 a1 a2 a3} (hF : 549756035080 ||| F = F) (h0 : Frm F b s0) : Frm F b (openSc s0 a1 a2 a3) := by
  unfold openSc
  repeat' first
    | with_reducible assumption
    | ((with_reducible apply subt hF); rfl)
    | with_reducible apply fr_mp1Write
    | split
    | dsimp only

theorem fr_installRx {F : Nat} {b : State} {a0 a1 a2 s3 a4} (hF : 2006823690248 ||| F = F) (h3 : Frm F b s3) : Frm F b (installRx a0 a1 a2 s3 a4) := by
  unfold installRx
  repeat' first
    | with_reducible assumption
    | ((with_reducible apply subt hF); rfl)
    | with_reducible first | apply fr_openSc | apply fr_mp1Write | apply fr_tryInstall
    | split

theorem fr_mp1Remove {F : Nat} {b : State} {a0 s1 a2} (hF : 549756035080 ||| F = F) (h1 : Frm F b s1) : Frm F b (mp1Remove a0 s1 a2) := by
  unfold mp1Remove
  repeat' first
    | with_reducible assumption
    | ((with_reducible apply subt hF); rfl)
    | with_reducible apply fr_removeSa
    | split

theorem fr_sakInstall {F : Nat} {b : State} {s0 a1 a2 a3 a4 a5 a6} (hF : 2041183428616 ||| F = F) (h0 : Frm F b s0) : Frm F b (sakInstall s0 a1 a2 a3 a4 a5 a6) := by
  unfold sakInstall
  repeat' first
    | with_reducible assumption
    | ((with_reducible apply subt hF); rfl)
    | with_reducible first | apply fr_mp1Remove | apply fr_poolInstall | apply fr_installRx | apply fr_installTx | apply fr_slSend | apply fr_State_setMka | apply frm_foldl
    | intro _
    | split

theorem fr_sakMake {F : Nat} {b : State} {s0 a1} (hF : 2041183428616 ||| F = F) (h0 : Frm F b s0) : Frm F b (sakMake s0 a1) := by
  unfold sakMake
  repeat' first
    | with_reducible assumption
    | ((with_reducible apply subt hF); rfl)
    | with_reducible first | apply fr_sakInstall | apply fr_State_tick1
    | split
    | dsimp only

theorem fr_sakSwitch {F : Nat} {b : State} {s0 a1} (hF : 554051002376 ||| F = F) (h0 : Frm F b s0) : Frm F b (sakSwitch s0 a1) := by
  unfold sakSwitch
  repeat' first
    | with_reducible assumption
    | ((with_reducible apply subt hF); rfl)
    | with_reducible first | apply fr_selectSa | apply fr_State_setMka
    | split
    | dsimp only

theorem fr_sakRetire {F : Nat} {b : State} {s0 a1} (hF : 554051002376 ||| F = F) (h0 : Frm F b s0) : Frm F b (sakRetire s0 a1) := by
  unfold sakRetire
  repeat' first
    | with_reducible assumption
    | ((with_reducible apply subt hF); rfl)
    | with_reducible first | apply fr_State_setMka | apply fr_mp1Remove | apply frm_foldl
    | intro _
    | split
    | dsimp only

theorem fr_mkaTakeSak {F : Nat} {b : State} {s0 a1 a2 a3} (hF : 2041183428616 ||| F = F) (h0 : Frm F b s0) : Frm F b (mkaTakeSak s0 a1 a2 a3) := by
  unfold mkaTakeSak
  repeat' first
    | with_reducible assumption
    | ((with_reducible apply subt hF); rfl)
    | with_reducible apply fr_sakInstall
    | split
    | dsimp only

theorem fr_mkaStart {F : Nat} {b : State} {s0 a1} (hF : 1103806595072 ||| F = F) (h0 : Frm F b s0) : Frm F b (mkaStart s0 a1) := by
  unfold mkaStart
  repeat' first
    | with_reducible assumption
    | ((with_reducible apply subt hF); rfl)
    | with_reducible first | apply fr_State_setMka | apply fr_State_tick1
    | split
    | dsimp only

theorem fr_mkaWants {F : Nat} {b : State} {s0 a1} (hF : 4294967296 ||| F = F) (h0 : Frm F b s0) : Frm F b (mkaWants s0 a1) := by
  unfold mkaWants
  repeat' first
    | with_reducible assumption
    | ((with_reducible apply subt hF); rfl)
    | with_reducible apply fr_State_setMka
    | split
    | dsimp only

theorem fr_mkaReceive {F : Nat} {b : State} {s0 a1 a2} (hF : 2041183428616 ||| F = F) (h0 : Frm F b s0) : Frm F b (mkaReceive s0 a1 a2) := by
  unfold mkaReceive
  repeat' first
    | with_reducible assumption
    | ((with_reducible apply subt hF); rfl)
    | with_reducible first | apply fr_State_setMka | apply fr_sakSwitch | apply fr_sakMake | apply fr_mkaTakeSak | apply fr_mkaWants
    | split
    | dsimp only

theorem fr_mkaTunnels {F : Nat} {b : State} {s0 a1 a2} (hF : 584115552264 ||| F = F) (h0 : Frm F b s0) : Frm F b (mkaTunnels s0 a1 a2) := by
  unfold mkaTunnels
  repeat' first
    | with_reducible assumption
    | ((with_reducible apply subt hF); rfl)
    | with_reducible apply fr_slSend
    | split

theorem fr_mkaHears {F : Nat} {b : State} {s0 a1 a2} (hF : 2041183428616 ||| F = F) (h0 : Frm F b s0) : Frm F b (mkaHears s0 a1 a2) := by
  unfold mkaHears
  repeat' first
    | with_reducible assumption
    | ((with_reducible apply subt hF); rfl)
    | with_reducible first | apply fr_mkaReceive | apply fr_mkaStart
    | split

theorem fr_execMkpduRx {F : Nat} {b : State} {a0 a1 s2} (hF : 2041183428616 ||| F = F) (h2 : Frm F b s2) : FrmR F b (execMkpduRx a0 a1 s2) := by
  unfold execMkpduRx
  repeat' first
    | with_reducible assumption
    | ((with_reducible apply subt hF); rfl)
    | with_reducible first | apply fr_ifWf | apply fr_mkaHears | apply fr_mkaTunnels

theorem fr_mkaSend {F : Nat} {b : State} {s0 a1} (hF : 4764729344 ||| F = F) (h0 : Frm F b s0) : Frm F b (mkaSend s0 a1) := by
  unfold mkaSend
  repeat' first
    | with_reducible assumption
    | ((with_reducible apply subt hF); rfl)
    | with_reducible first | apply fr_State_setMka | apply fr_sourceFrame

theorem fr_execMkaHello {F : Nat} {b : State} {a0 s1} (hF : 2041653190664 ||| F = F) (h1 : Frm F b s1) : FrmR F b (execMkaHello a0 s1) := by
  unfold execMkaHello
  repeat' first
    | with_reducible assumption
    | ((with_reducible apply subt hF); rfl)
    | with_reducible first | apply fr_ifWf | apply fr_whenever | apply fr_mkaSend | apply fr_sakSwitch | apply fr_sakMake | apply fr_sakRetire | apply fr_mkaWants | apply fr_mkaStart

theorem fr_peerGoes {F : Nat} {b : State} {s0 a1 a2} (hF : 2041183428616 ||| F = F) (h0 : Frm F b s0) : Frm F b (peerGoes s0 a1 a2) := by
  unfold peerGoes
  repeat' first
    | with_reducible assumption
    | ((with_reducible apply subt hF); rfl)
    | with_reducible first | apply fr_State_setMka | apply fr_sakSwitch | apply fr_sakMake
    | split
    | dsimp only

theorem fr_execMkaPeerTimeout {F : Nat} {b : State} {a0 a1 s2} (hF : 2041183428616 ||| F = F) (h2 : Frm F b s2) : FrmR F b (execMkaPeerTimeout a0 a1 s2) := by
  unfold execMkaPeerTimeout
  repeat' first
    | with_reducible assumption
    | ((with_reducible apply subt hF); rfl)
    | with_reducible first | apply fr_ifWf | apply fr_whenever | apply fr_peerGoes

theorem fr_mkaTakeover {F : Nat} {b : State} {s0} (hF : 4294967296 ||| F = F) (h0 : Frm F b s0) : Frm F b (mkaTakeover s0) := by
  unfold mkaTakeover
  repeat' first
    | with_reducible assumption
    | ((with_reducible apply subt hF); rfl)
    | with_reducible apply fr_mk_4294967296
    | simp only [frm_mk]

/-! ### Lin -/

theorem fr_State_setLin {F : Nat} {b : State} {s0 a1 a2} (hF : 1073741824 ||| F = F) (h0 : Frm F b s0) : Frm F b (State.setLin s0 a1 a2) := by
  unfold State.setLin
  repeat' first
    | with_reducible assumption
    | ((with_reducible apply subt hF); rfl)
    | with_reducible apply fr_mk_1073741824
    | simp only [frm_mk]

theorem fr_setFtData {F : Nat} {b : State} {s0 a1 a2 a3} (hF : 8 ||| F = F) (h0 : Frm F b s0) : Frm F b (setFtData s0 a1 a2 a3) := by
  unfold setFtData
  repeat' first
    | with_reducible assumption
    | ((with_reducible apply subt hF); rfl)
    | with_reducible apply fr_State_setReg

theorem fr_stampFt {F : Nat} {b : State} {s0 a1 a2 a3} (hF : 8 ||| F = F) (h0 : Frm F b s0) : Frm F b (stampFt s0 a1 a2 a3) := by
  unfold stampFt
  repeat' first
    | with_reducible assumption
    | ((with_reducible apply subt hF); rfl)
    | with_reducible apply fr_State_setReg

theorem fr_linSend {F : Nat} {b : State} {s0 a1 a2 a3 a4 a5 a6 a7} (hF : 550829555712 ||| F = F) (h0 : Frm F b s0) : Frm F b (linSend s0 a1 a2 a3 a4 a5 a6 a7) := by
  unfold linSend
  repeat' first
    | with_reducible assumption
    | ((with_reducible apply subt hF); rfl)
    | with_reducible first | apply fr_State_emit | apply fr_State_setLin

theorem fr_linPublish {F : Nat} {b : State} {s0 a1 a2 a3 a4 a5} (hF : 1719060815880 ||| F = F) (h0 : Frm F b s0) : Frm F b (linPublish s0 a1 a2 a3 a4 a5) := by
  unfold linPublish
  repeat' first
    | with_reducible assumption
    | ((with_reducible apply subt hF); rfl)
    | with_reducible first | apply fr_memRead | apply fr_State_bump | apply fr_memLost | apply fr_stampFt | apply fr_State_setBitAt | apply fr_linSend
    | split
    | with_reducible refine frm_fst (by assumption) ?_

theorem fr_linAwait {F : Nat} {b : State} {s0 a1 a2 a3 a4} (hF : 1073741824 ||| F = F) (h0 : Frm F b s0) : Frm F b (linAwait s0 a1 a2 a3 a4) := by
  unfold linAwait
  repeat' first
    | with_reducible assumption
    | ((with_reducible apply subt hF); rfl)
    | with_reducible apply fr_State_setLin

theorem fr_linRespond {F : Nat} {b : State} {s0 a1 a2 a3 a4 a5} (hF : 1719060815880 ||| F = F) (h0 : Frm F b s0) : Frm F b (linRespond s0 a1 a2 a3 a4 a5) := by
  unfold linRespond
  repeat' first
    | with_reducible assumption
    | ((with_reducible apply subt hF); rfl)
    | with_reducible first | apply fr_linPublish | apply fr_linAwait | apply fr_State_emit | apply fr_State_setLin
    | split

theorem fr_linSleeps {F : Nat} {b : State} {s0 a1} (hF : 1073741824 ||| F = F) (h0 : Frm F b s0) : Frm F b (linSleeps s0 a1) := by
  unfold linSleeps
  repeat' first
    | with_reducible assumption
    | ((with_reducible apply subt hF); rfl)
    | with_reducible apply fr_State_setLin

theorem fr_linStart {F : Nat} {b : State} {s0 a1 a2 a3} (hF : 1719060815880 ||| F = F) (h0 : Frm F b s0) : Frm F b (linStart s0 a1 a2 a3) := by
  unfold linStart
  repeat' first
    | with_reducible assumption
    | ((with_reducible apply subt hF); rfl)
    | with_reducible first | apply fr_linSend | apply fr_State_setLin | apply fr_linRespond
    | split

theorem fr_linTakes {F : Nat} {b : State} {s0 a1 a2 a3} (hF : 1719060815880 ||| F = F) (h0 : Frm F b s0) : Frm F b (linTakes s0 a1 a2 a3) := by
  unfold linTakes
  repeat' first
    | with_reducible assumption
    | ((with_reducible apply subt hF); rfl)
    | with_reducible first | apply fr_linStart | apply fr_State_bump
    | split
    | dsimp only

theorem fr_linEntry {F : Nat} {b : State} {s0 a1 a2} (hF : 1719060815880 ||| F = F) (h0 : Frm F b s0) : Frm F b (linEntry s0 a1 a2) := by
  unfold linEntry
  repeat' first
    | with_reducible assumption
    | ((with_reducible apply subt hF); rfl)
    | with_reducible first | apply fr_linTakes | apply fr_State_setLin

theorem fr_linPassed {F : Nat} {b : State} {s0 a1 a2} (hF : 1719060815880 ||| F = F) (h0 : Frm F b s0) : Frm F b (linPassed s0 a1 a2) := by
  unfold linPassed
  repeat' first
    | with_reducible assumption
    | ((with_reducible apply subt hF); rfl)
    | with_reducible first | apply fr_linTakes | apply fr_State_setLin

theorem fr_linSent {F : Nat} {b : State} {s0 a1} (hF : 1073741832 ||| F = F) (h0 : Frm F b s0) : Frm F b (linSent s0 a1) := by
  unfold linSent
  repeat' first
    | with_reducible assumption
    | ((with_reducible apply subt hF); rfl)
    | with_reducible first | apply fr_State_bump | apply fr_State_setLin | apply fr_linSleeps
    | split

theorem fr_linLegWrite {F : Nat} {b : State} {s0 a1} (hF : 8 ||| F = F) (h0 : Frm F b s0) : Frm F b (linLegWrite s0 a1) := by
  unfold linLegWrite
  repeat' first
    | with_reducible assumption
    | ((with_reducible apply subt hF); rfl)
    | with_reducible first | apply fr_State_bump | apply fr_State_setBitAt | apply fr_setFtData
    | split
    | dsimp only

theorem fr_linSettle {F : Nat} {b : State} {s0} (hF : 3221225480 ||| F = F) (h0 : Frm F b s0) : Frm F b (linSettle s0) := by
  unfold linSettle
  repeat' first
    | with_reducible assumption
    | ((with_reducible apply subt hF); rfl)
    | with_reducible first | apply fr_linSent | apply fr_linLegWrite | apply fr_mk_2147483648 | apply frm_foldl
    | simp only [frm_mk]
    | intro _

theorem fr_linSchedule {F : Nat} {b : State} {s0 a1} (hF : 1719060815880 ||| F = F) (h0 : Frm F b s0) : Frm F b (linSchedule s0 a1) := by
  unfold linSchedule
  repeat' first
    | with_reducible assumption
    | ((with_reducible apply subt hF); rfl)
    | with_reducible first | apply fr_linPassed | apply fr_linEntry | apply frm_elim
    | intro _
    | split

theorem fr_execLinScheduleEntry {F : Nat} {b : State} {a0 s1} (hF : 1721208299528 ||| F = F) (h1 : Frm F b s1) : FrmR F b (execLinScheduleEntry a0 s1) := by
  unfold execLinScheduleEntry
  repeat' first
    | with_reducible assumption
    | ((with_reducible apply subt hF); rfl)
    | with_reducible first | apply fr_ifWf | apply fr_linSettle | apply fr_whenever | apply fr_linSchedule

theorem fr_linRestart {F : Nat} {b : State} {s0 a1} (hF : 1073741824 ||| F = F) (h0 : Frm F b s0) : Frm F b (linRestart s0 a1) := by
  unfold linRestart
  repeat' first
    | with_reducible assumption
    | ((with_reducible apply subt hF); rfl)
    | with_reducible apply fr_State_setLin
    | split
    | dsimp only

theorem fr_linCycle {F : Nat} {b : State} {s0 a1} (hF : 1073741824 ||| F = F) (h0 : Frm F b s0) : Frm F b (linCycle s0 a1) := by
  unfold linCycle
  repeat' first
    | with_reducible assumption
    | ((with_reducible apply subt hF); rfl)
    | with_reducible first | apply fr_State_setLin | apply fr_linRestart

theorem fr_linResume {F : Nat} {b : State} {s0 a1} (hF : 1073741824 ||| F = F) (h0 : Frm F b s0) : Frm F b (linResume s0 a1) := by
  unfold linResume
  repeat' first
    | with_reducible assumption
    | ((with_reducible apply subt hF); rfl)
    | with_reducible apply fr_State_setLin

theorem fr_execLinHeaderRx {F : Nat} {b : State} {a0 a1 a2 s3} (hF : 1721208299528 ||| F = F) (h3 : Frm F b s3) : FrmR F b (execLinHeaderRx a0 a1 a2 s3) := by
  unfold execLinHeaderRx
  repeat' first
    | with_reducible assumption
    | ((with_reducible apply subt hF); rfl)
    | with_reducible first | apply fr_ifWf | apply fr_linSettle | apply fr_State_bump | apply fr_linRespond
    | split
    | dsimp only

theorem fr_linTake {F : Nat} {b : State} {s0 a1 a2 a3} (hF : 552977195016 ||| F = F) (h0 : Frm F b s0) : Frm F b (linTake s0 a1 a2 a3) := by
  unfold linTake
  repeat' first
    | with_reducible assumption
    | ((with_reducible apply subt hF); rfl)
    | with_reducible first | apply fr_State_bump | apply fr_State_setLin | apply fr_State_raise | apply fr_stampFt | apply fr_setFtData | apply fr_gweRequest | apply fr_linSleeps
    | split
    | dsimp only

theorem fr_linMissing {F : Nat} {b : State} {s0 a1} (hF : 550829711368 ||| F = F) (h0 : Frm F b s0) : Frm F b (linMissing s0 a1) := by
  unfold linMissing
  repeat' first
    | with_reducible assumption
    | ((with_reducible apply subt hF); rfl)
    | with_reducible first | apply fr_State_raise | apply fr_State_bump | apply fr_State_setLin

theorem fr_linReceive {F : Nat} {b : State} {s0 a1 a2 a3 a4} (hF : 552977195016 ||| F = F) (h0 : Frm F b s0) : Frm F b (linReceive s0 a1 a2 a3 a4) := by
  unfold linReceive
  repeat' first
    | with_reducible assumption
    | ((with_reducible apply subt hF); rfl)
    | with_reducible first | apply fr_linMissing | apply fr_State_raise | apply fr_State_bump | apply fr_State_setLin | apply fr_linTake
    | split

theorem fr_execLinResponseRx {F : Nat} {b : State} {a0 a1 a2 s3} (hF : 552977195016 ||| F = F) (h3 : Frm F b s3) : FrmR F b (execLinResponseRx a0 a1 a2 s3) := by
  unfold execLinResponseRx
  repeat' first
    | with_reducible assumption
    | ((with_reducible apply subt hF); rfl)
    | with_reducible first | apply fr_ifWf | apply fr_linReceive
    | split

theorem fr_execLinNoResponse {F : Nat} {b : State} {a0 s1} (hF : 550829711368 ||| F = F) (h1 : Frm F b s1) : FrmR F b (execLinNoResponse a0 s1) := by
  unfold execLinNoResponse
  repeat' first
    | with_reducible assumption
    | ((with_reducible apply subt hF); rfl)
    | with_reducible first | apply fr_ifWf | apply fr_linMissing
    | split

theorem fr_execLinIdleSleep {F : Nat} {b : State} {a0 s1} (hF : 1073741824 ||| F = F) (h1 : Frm F b s1) : FrmR F b (execLinIdleSleep a0 s1) := by
  unfold execLinIdleSleep
  repeat' first
    | with_reducible assumption
    | ((with_reducible apply subt hF); rfl)
    | with_reducible first | apply fr_ifWf | apply fr_whenever | apply fr_linSleeps

theorem fr_linAwakes {F : Nat} {b : State} {s0 a1} (hF : 1073741824 ||| F = F) (h0 : Frm F b s0) : Frm F b (linAwakes s0 a1) := by
  unfold linAwakes
  repeat' first
    | with_reducible assumption
    | ((with_reducible apply subt hF); rfl)
    | with_reducible apply fr_State_setLin
    | split

theorem fr_execLinWakeTx {F : Nat} {b : State} {a0 a1 s2} (hF : 550829711368 ||| F = F) (h2 : Frm F b s2) : FrmR F b (execLinWakeTx a0 a1 s2) := by
  unfold execLinWakeTx
  repeat' first
    | with_reducible assumption
    | ((with_reducible apply subt hF); rfl)
    | with_reducible first | apply fr_ifWf | apply fr_State_write | apply fr_linAwakes | apply fr_State_bump | apply fr_State_emit

theorem fr_linModeCommit {F : Nat} {b : State} {s0 a1} (hF : 1073741824 ||| F = F) (h0 : Frm F b s0) : Frm F b (linModeCommit s0 a1) := by
  unfold linModeCommit
  repeat' first
    | with_reducible assumption
    | ((with_reducible apply subt hF); rfl)
    | with_reducible first | apply fr_State_setLin | apply fr_linSleeps
    | split

end Sys2Proof.Laws
end

