-- ==== Sys2Proof/Laws/Frame5.lean ====
section
/-!
SUPPORT. `Frm` for the functions of Machine/: Gateway, GatewayIn, ModeOps, TwinOps, SyncPoint.
-/
set_option linter.unusedVariables false
namespace Sys2Proof.Laws
set_option Elab.async false
open Sys2Proof Sys2Proof.Machine

/-! ### Gateway -/

theorem fr_enqueue {F : Nat} {b : State} {s0 a1} (hF : 551903453192 ||| F = F) (h0 : Frm F b s0) : Frm F b (enqueue s0 a1) := by
  unfold enqueue
  repeat' first
    | with_reducible assumption
    | ((with_reducible apply subt hF); rfl)
    | with_reducible first | apply fr_State_raise | apply fr_State_bump | apply fr_mk_2147483648
    | simp only [frm_mk]
    | split

theorem fr_State_setHrun {F : Nat} {b : State} {s0 a1 a2} (hF : 2147483648 ||| F = F) (h0 : Frm F b s0) : Frm F b (State.setHrun s0 a1 a2) := by
  unfold State.setHrun
  repeat' first
    | with_reducible assumption
    | ((with_reducible apply subt hF); rfl)
    | with_reducible apply fr_mk_2147483648
    | simp only [frm_mk]

theorem fr_gweLose {F : Nat} {b : State} {s0 a1} (hF : 1099528404992 ||| F = F) (h0 : Frm F b s0) : Frm F b (gweLose s0 a1) := by
  unfold gweLose
  dsimp only
  split
  · exact fr_State_tick1 (subm hF) (fr_mk_16777216 (subm hF) h0)
  · exact fr_State_tick1 (subm hF) h0

theorem fr_lvcLose {F : Nat} {b : State} {s0 a1} (hF : 2147483648 ||| F = F) (h0 : Frm F b s0) : Frm F b (lvcLose s0 a1) := by
  unfold lvcLose
  repeat' first
    | with_reducible assumption
    | ((with_reducible apply subt hF); rfl)
    | with_reducible apply fr_mk_2147483648
    | simp only [frm_mk]

theorem fr_gweLoseAny {F : Nat} {b : State} {s0} (hF : 1101675888640 ||| F = F) (h0 : Frm F b s0) : Frm F b (gweLoseAny s0) := by
  unfold gweLoseAny
  repeat' first
    | with_reducible assumption
    | ((with_reducible apply subt hF); rfl)
    | with_reducible first | apply fr_State_tick1 | apply fr_lvcLose | apply fr_gweLose
    | split
    | dsimp only

theorem fr_gweRead {F : Nat} {b : State} {s0} (hF : 1717987074056 ||| F = F) (h0 : Frm F b s0) : Frm F b (gweRead s0).1 := by
  unfold gweRead
  repeat' first
    | with_reducible assumption
    | ((with_reducible apply subt hF); rfl)
    | with_reducible first | apply fr_memRead | apply fr_memRepeated | apply fr_State_report | apply fr_State_raise | apply fr_State_bump
    | split
    | with_reducible refine frm_fst (by assumption) ?_

theorem fr_reinject {F : Nat} {b : State} {s0 a1 a2} (hF : 1720134557704 ||| F = F) (h0 : Frm F b s0) : Frm F b (reinject s0 a1 a2) := by
  unfold reinject
  repeat' first
    | with_reducible assumption
    | ((with_reducible apply subt hF); rfl)
    | with_reducible first | apply fr_gweRead | apply fr_State_setHrun | apply fr_lvcLose | apply fr_enqueue | apply fr_mk_1099511627776
    | simp only [frm_mk]
    | split
    | with_reducible refine frm_fst (by assumption) ?_

theorem fr_gweEnters {F : Nat} {b : State} {s0 a1} (hF : 1720134557704 ||| F = F) (h0 : Frm F b s0) : Frm F b (gweEnters s0 a1) := by
  unfold gweEnters
  repeat' first
    | with_reducible assumption
    | ((with_reducible apply subt hF); rfl)
    | with_reducible first | apply fr_reinject | apply fr_enqueue | apply fr_mk_2147483648
    | simp only [frm_mk]
    | split

theorem fr_gweTakeTo {F : Nat} {b : State} {a0 a1 s2} (hF : 1720134557704 ||| F = F) (h2 : Frm F b s2) : Frm F b (gweTakeTo a0 a1 s2) := by
  induction a1 generalizing s2 with
  | zero => exact h2
  | succ n ih =>
    unfold gweTakeTo
    split
    · exact h2
    · exact ih (fr_gweEnters (subm hF) h2)

theorem fr_gweTake {F : Nat} {b : State} {s0} (hF : 1720134557704 ||| F = F) (h0 : Frm F b s0) : Frm F b (gweTake s0) := by
  unfold gweTake
  repeat' first
    | with_reducible assumption
    | ((with_reducible apply subt hF); rfl)
    | with_reducible apply fr_gweTakeTo
    | split

theorem fr_execGweEnqueue {F : Nat} {b : State} {s0} (hF : 1720134557704 ||| F = F) (h0 : Frm F b s0) : FrmR F b (execGweEnqueue s0) := by
  unfold execGweEnqueue
  repeat' first
    | with_reducible assumption
    | ((with_reducible apply subt hF); rfl)
    | with_reducible first | apply fr_gweTake | apply frmR_next

theorem fr_gweReinjectOp {F : Nat} {b : State} {s0 a1} (hF : 1720134557704 ||| F = F) (h0 : Frm F b s0) : Frm F b (gweReinjectOp s0 a1) := by
  unfold gweReinjectOp
  repeat' first
    | with_reducible assumption
    | ((with_reducible apply subt hF); rfl)
    | with_reducible apply fr_gweTakeTo
    | split

theorem fr_execGweReinject {F : Nat} {b : State} {a0 s1} (hF : 1720134557704 ||| F = F) (h1 : Frm F b s1) : FrmR F b (execGweReinject a0 s1) := by
  unfold execGweReinject
  repeat' first
    | with_reducible assumption
    | ((with_reducible apply subt hF); rfl)
    | with_reducible first | apply fr_ifWf | apply fr_gweReinjectOp

theorem fr_lvcWrite {F : Nat} {b : State} {s0 a1 a2} (hF : 2147483648 ||| F = F) (h0 : Frm F b s0) : Frm F b (lvcWrite s0 a1 a2) := by
  unfold lvcWrite
  repeat' first
    | with_reducible assumption
    | ((with_reducible apply subt hF); rfl)
    | with_reducible apply fr_mk_2147483648
    | simp only [frm_mk]

theorem fr_intervalHeld {F : Nat} {b : State} {s0 a1 a2 a3} (hF : 2147483656 ||| F = F) (h0 : Frm F b s0) : Frm F b (intervalHeld s0 a1 a2 a3) := by
  unfold intervalHeld
  repeat' first
    | with_reducible assumption
    | ((with_reducible apply subt hF); rfl)
    | with_reducible first | apply fr_State_bump | apply fr_State_setHrun
    | split

theorem fr_canLeg {F : Nat} {b : State} {s0 a1 a2 a3 a4 a5} (hF : 1073741832 ||| F = F) (h0 : Frm F b s0) : Frm F b (canLeg s0 a1 a2 a3 a4 a5) := by
  unfold canLeg
  repeat' first
    | with_reducible assumption
    | ((with_reducible apply subt hF); rfl)
    | with_reducible first | apply fr_State_bump | apply fr_State_setCan
    | split
    | dsimp only

theorem fr_linLeg {F : Nat} {b : State} {s0 a1 a2 a3} (hF : 2147483656 ||| F = F) (h0 : Frm F b s0) : Frm F b (linLeg s0 a1 a2 a3) := by
  unfold linLeg
  repeat' first
    | with_reducible assumption
    | ((with_reducible apply subt hF); rfl)
    | with_reducible first | apply fr_State_bump | apply fr_mk_2147483648
    | simp only [frm_mk]
    | split

theorem fr_closeBatch {F : Nat} {b : State} {s0 a1 a2 a3} (hF : 551903453192 ||| F = F) (h0 : Frm F b s0) : Frm F b (closeBatch s0 a1 a2 a3) := by
  unfold closeBatch
  repeat' first
    | with_reducible assumption
    | ((with_reducible apply subt hF); rfl)
    | with_reducible first | apply fr_State_raise | apply fr_State_bump | apply fr_mk_2147483648
    | simp only [frm_mk]
    | split

theorem fr_closeEnded {F : Nat} {b : State} {s0 a1 a2 a3} (hF : 551903453192 ||| F = F) (h0 : Frm F b s0) : Frm F b (closeEnded s0 a1 a2 a3) := by
  unfold closeEnded
  repeat' first
    | with_reducible assumption
    | ((with_reducible apply subt hF); rfl)
    | with_reducible apply fr_closeBatch
    | split

theorem fr_noteDecided {F : Nat} {b : State} {s0 a1 a2} (hF : 2147483648 ||| F = F) (h0 : Frm F b s0) : Frm F b (noteDecided s0 a1 a2) := by
  unfold noteDecided
  repeat' first
    | with_reducible assumption
    | ((with_reducible apply subt hF); rfl)
    | with_reducible apply fr_mk_2147483648
    | simp only [frm_mk]

theorem fr_ethLeg {F : Nat} {b : State} {s0 a1 a2 a3} (hF : 551903453192 ||| F = F) (h0 : Frm F b s0) : Frm F b (ethLeg s0 a1 a2 a3) := by
  unfold ethLeg
  repeat' first
    | with_reducible assumption
    | ((with_reducible apply subt hF); rfl)
    | with_reducible first | apply fr_State_bump | apply fr_closeEnded | apply fr_closeBatch | apply fr_mk_2147483648
    | simp only [frm_mk]
    | split

theorem fr_oneLeg {F : Nat} {b : State} {s0 a1 a2 a3 a4 a5} (hF : 552977195016 ||| F = F) (h0 : Frm F b s0) : Frm F b (oneLeg s0 a1 a2 a3 a4 a5) := by
  unfold oneLeg
  repeat' first
    | with_reducible assumption
    | ((with_reducible apply subt hF); rfl)
    | with_reducible first | apply fr_State_bump | apply fr_canLeg | apply fr_linLeg | apply fr_ethLeg
    | split
    | dsimp only

theorem fr_allLegs {F : Nat} {b : State} {a0 a1 a2 a3 a4 s5} (hF : 552977195016 ||| F = F) (h5 : Frm F b s5) : Frm F b (allLegs a0 a1 a2 a3 a4 s5) := by
  induction a4 generalizing a3 s5 with
  | nil => exact h5
  | cons v rest ih =>
    unfold allLegs
    exact ih (fr_oneLeg (subm hF) h5)

theorem fr_decideMsg {F : Nat} {b : State} {s0 a1 a2 a3} (hF : 552977195016 ||| F = F) (h0 : Frm F b s0) : Frm F b (decideMsg s0 a1 a2 a3) := by
  unfold decideMsg
  repeat' first
    | with_reducible assumption
    | ((with_reducible apply subt hF); rfl)
    | with_reducible first | apply fr_State_bump | apply fr_lvcWrite | apply fr_intervalHeld | apply fr_State_setHrun | apply fr_allLegs
    | split
    | dsimp only

theorem fr_routeMsg {F : Nat} {b : State} {s0 a1 a2} (hF : 1721225076744 ||| F = F) (h0 : Frm F b s0) : Frm F b (routeMsg s0 a1 a2) := by
  unfold routeMsg
  repeat' first
    | with_reducible assumption
    | ((with_reducible apply subt hF); rfl)
    | with_reducible first | apply fr_gweRead | apply fr_gweLose | apply fr_State_bump | apply fr_decideMsg
    | split
    | with_reducible refine frm_fst (by assumption) ?_

theorem fr_admitMsg {F : Nat} {b : State} {s0 a1 a2} (hF : 2147483656 ||| F = F) (h0 : Frm F b s0) : Frm F b (admitMsg s0 a1 a2) := by
  unfold admitMsg
  repeat' first
    | with_reducible assumption
    | ((with_reducible apply subt hF); rfl)
    | with_reducible first | apply fr_State_bump | apply fr_mk_2147483648
    | simp only [frm_mk]

theorem fr_decideDue {F : Nat} {b : State} {s0 a1} (hF : 1721225076744 ||| F = F) (h0 : Frm F b s0) : Frm F b (decideDue s0 a1) := by
  unfold decideDue
  repeat' first
    | with_reducible assumption
    | ((with_reducible apply subt hF); rfl)
    | with_reducible first | apply fr_routeMsg | apply fr_noteDecided | apply fr_mk_2147483648
    | simp only [frm_mk]
    | split

theorem fr_gweCycle {F : Nat} {b : State} {s0} (hF : 1721225076744 ||| F = F) (h0 : Frm F b s0) : Frm F b (gweCycle s0) := by
  unfold gweCycle
  repeat' first
    | with_reducible assumption
    | ((with_reducible apply subt hF); rfl)
    | with_reducible first | apply fr_decideDue | apply fr_mk_2147483648 | apply frm_foldl
    | simp only [frm_mk]
    | intro _

theorem fr_execRouteAdmit {F : Nat} {b : State} {s0} (hF : 2147483656 ||| F = F) (h0 : Frm F b s0) : FrmR F b (execRouteAdmit s0) := by
  unfold execRouteAdmit
  repeat' first
    | with_reducible assumption
    | ((with_reducible apply subt hF); rfl)
    | with_reducible first | apply fr_admitMsg | apply frmR_next
    | split

theorem fr_execBatchHoldExpire {F : Nat} {b : State} {a0 s1} (hF : 551903453192 ||| F = F) (h1 : Frm F b s1) : FrmR F b (execBatchHoldExpire a0 s1) := by
  unfold execBatchHoldExpire
  repeat' first
    | with_reducible assumption
    | ((with_reducible apply subt hF); rfl)
    | with_reducible first | apply fr_ifWf | apply fr_closeBatch
    | split

theorem fr_batchEnter {F : Nat} {b : State} {s0 a1} (hF : 2617245696 ||| F = F) (h0 : Frm F b s0) : Frm F b (batchEnter s0 a1) := by
  unfold batchEnter
  repeat' first
    | with_reducible assumption
    | ((with_reducible apply subt hF); rfl)
    | with_reducible first | apply fr_sourceFrame | apply fr_mk_2147483648
    | simp only [frm_mk]

theorem fr_execBatchFrameEnter {F : Nat} {b : State} {s0} (hF : 2617245696 ||| F = F) (h0 : Frm F b s0) : FrmR F b (execBatchFrameEnter s0) := by
  unfold execBatchFrameEnter
  repeat' first
    | with_reducible assumption
    | ((with_reducible apply subt hF); rfl)
    | with_reducible first | apply fr_batchEnter | apply frmR_next
    | split

/-! ### GatewayIn -/

theorem fr_acfTake {F : Nat} {b : State} {s0 a1 a2 a3 a4 a5 a6} (hF : 2147483656 ||| F = F) (h0 : Frm F b s0) : Frm F b (acfTake s0 a1 a2 a3 a4 a5 a6) := by
  unfold acfTake
  repeat' first
    | with_reducible assumption
    | ((with_reducible apply subt hF); rfl)
    | with_reducible first | apply fr_State_bump | apply fr_mk_2147483648
    | simp only [frm_mk]
    | split

theorem fr_acfWalk {F : Nat} {b : State} {a0 a1 a2 a3 a4 s5} (hF : 2147483656 ||| F = F) (h5 : Frm F b s5) : Frm F b (acfWalk a0 a1 a2 a3 a4 s5) := by
  induction a3 generalizing a4 s5 with
  | zero => exact h5
  | succ n ih =>
    unfold acfWalk
    dsimp only
    split
    · exact h5
    · split
      · exact fr_State_bump (subm hF) h5
      · apply ih
        split
        · exact fr_State_bump (subm hF) h5
        · exact fr_acfTake (subm hF) h5

theorem fr_acceptAvtp {F : Nat} {b : State} {s0 a1 a2} (hF : 2147483656 ||| F = F) (h0 : Frm F b s0) : Frm F b (acceptAvtp s0 a1 a2) := by
  unfold acceptAvtp
  repeat' first
    | with_reducible assumption
    | ((with_reducible apply subt hF); rfl)
    | with_reducible first | apply fr_State_bump | apply fr_acfWalk | apply fr_mk_2147483648
    | simp only [frm_mk]
    | split

theorem fr_istreamRead {F : Nat} {b : State} {s0} (hF : 1718003851272 ||| F = F) (h0 : Frm F b s0) : Frm F b (istreamRead s0) := by
  unfold istreamRead
  repeat' first
    | with_reducible assumption
    | ((with_reducible apply subt hF); rfl)
    | with_reducible first | apply fr_gweRead | apply fr_gweLose
    | split
    | with_reducible refine frm_fst (by assumption) ?_

theorem fr_execGweDecapsulate {F : Nat} {b : State} {s0} (hF : 1720151334920 ||| F = F) (h0 : Frm F b s0) : FrmR F b (execGweDecapsulate s0) := by
  unfold execGweDecapsulate
  repeat' first
    | with_reducible assumption
    | ((with_reducible apply subt hF); rfl)
    | with_reducible first | apply fr_istreamRead | apply fr_State_bump | apply fr_acceptAvtp | apply fr_mk_2147483648 | apply frmR_next
    | simp only [frm_mk]
    | split

theorem fr_gweStatus {F : Nat} {b : State} {s0 a1} (hF : 8 ||| F = F) (h0 : Frm F b s0) : Frm F b (gweStatus s0 a1) := by
  unfold gweStatus
  repeat' first
    | with_reducible assumption
    | ((with_reducible apply subt hF); rfl)
    | with_reducible apply fr_State_setReg

theorem fr_setGweData {F : Nat} {b : State} {s0 a1} (hF : 8 ||| F = F) (h0 : Frm F b s0) : Frm F b (setGweData s0 a1) := by
  unfold setGweData
  repeat' first
    | with_reducible assumption
    | ((with_reducible apply subt hF); rfl)
    | with_reducible first | apply fr_State_setReg | apply frm_foldl
    | intro _

theorem fr_gweReadOp {F : Nat} {b : State} {a0 s1} (hF : 1718003851272 ||| F = F) (h1 : Frm F b s1) : Frm F b (gweReadOp a0 s1) := by
  unfold gweReadOp
  repeat' first
    | with_reducible assumption
    | ((with_reducible apply subt hF); rfl)
    | with_reducible first | apply fr_gweRead | apply fr_gweStatus | apply fr_gweLose | apply fr_setGweData
    | split
    | with_reducible refine frm_fst (by assumption) ?_

theorem fr_execGweTblRead {F : Nat} {b : State} {a0 s1} (hF : 1718003851272 ||| F = F) (h1 : Frm F b s1) : FrmR F b (execGweTblRead a0 s1) := by
  unfold execGweTblRead
  repeat' first
    | with_reducible assumption
    | ((with_reducible apply subt hF); rfl)
    | with_reducible first | apply fr_State_write | apply fr_gweReadOp | apply frmR_next

theorem fr_execGweTblReadPending {F : Nat} {b : State} {a0 s1} (hF : 1718003851272 ||| F = F) (h1 : Frm F b s1) : FrmR F b (execGweTblReadPending a0 s1) := by
  unfold execGweTblReadPending
  repeat' first
    | with_reducible assumption
    | ((with_reducible apply subt hF); rfl)
    | with_reducible first | apply fr_State_write | apply fr_gweReadOp | apply frmR_next

theorem fr_gweStageOne {F : Nat} {b : State} {s0 a1 a2 a3 a4} (hF : 549772812296 ||| F = F) (h0 : Frm F b s0) : Frm F b (gweStageOne s0 a1 a2 a3 a4) := by
  unfold gweStageOne
  repeat' first
    | with_reducible assumption
    | ((with_reducible apply subt hF); rfl)
    | with_reducible first | apply fr_gweStatus | apply fr_stageOne
    | split

theorem fr_gweStageOp {F : Nat} {b : State} {a0 s1} (hF : 549772812296 ||| F = F) (h1 : Frm F b s1) : Frm F b (gweStageOp a0 s1) := by
  unfold gweStageOp
  repeat' first
    | with_reducible assumption
    | ((with_reducible apply subt hF); rfl)
    | with_reducible first | apply fr_gweStatus | apply fr_State_siltRefused | apply fr_gweStageOne
    | split
    | dsimp only

theorem fr_execGweTblStage {F : Nat} {b : State} {a0 s1} (hF : 549772812296 ||| F = F) (h1 : Frm F b s1) : FrmR F b (execGweTblStage a0 s1) := by
  unfold execGweTblStage
  repeat' first
    | with_reducible assumption
    | ((with_reducible apply subt hF); rfl)
    | with_reducible first | apply fr_State_write | apply fr_gweStageOp | apply frmR_next

theorem fr_gweLvcLatch {F : Nat} {b : State} {s0 a1} (hF : 8 ||| F = F) (h0 : Frm F b s0) : Frm F b (gweLvcLatch s0 a1) := by
  unfold gweLvcLatch
  repeat' first
    | with_reducible assumption
    | ((with_reducible apply subt hF); rfl)
    | with_reducible first | apply fr_State_setReg | apply frm_foldl
    | intro _

theorem fr_gweCancelOne {F : Nat} {b : State} {s0 a1} (hF : 1073741824 ||| F = F) (h0 : Frm F b s0) : Frm F b (gweCancelOne s0 a1) := by
  unfold gweCancelOne
  repeat' first
    | with_reducible assumption
    | ((with_reducible apply subt hF); rfl)
    | with_reducible first | apply fr_askCancel | apply frm_foldl
    | intro _

theorem fr_gweCancels {F : Nat} {b : State} {s0 a1} (hF : 1073741824 ||| F = F) (h0 : Frm F b s0) : Frm F b (gweCancels s0 a1) := by
  unfold gweCancels
  repeat' first
    | with_reducible assumption
    | ((with_reducible apply subt hF); rfl)
    | with_reducible first | apply fr_gweCancelOne | apply frm_foldl
    | intro _

theorem fr_gweStandby {F : Nat} {b : State} {s0} (hF : 2147483648 ||| F = F) (h0 : Frm F b s0) : Frm F b (gweStandby s0) := by
  unfold gweStandby
  repeat' first
    | with_reducible assumption
    | ((with_reducible apply subt hF); rfl)
    | with_reducible apply fr_mk_2147483648
    | simp only [frm_mk]

theorem fr_gweTakeover {F : Nat} {b : State} {s0} (hF : 2147483648 ||| F = F) (h0 : Frm F b s0) : Frm F b (gweTakeover s0) := by
  unfold gweTakeover
  repeat' first
    | with_reducible assumption
    | ((with_reducible apply subt hF); rfl)
    | with_reducible apply fr_mk_2147483648
    | simp only [frm_mk]

/-! ### ModeOps -/

theorem fr_putRsp {F : Nat} {b : State} {a0 a1 a2 s3} (hF : 8 ||| F = F) (h3 : Frm F b s3) : Frm F b (putRsp a0 a1 a2 s3) := by
  induction a2 generalizing a1 s3 with
  | nil => exact h3
  | cons v rest ih =>
    unfold putRsp
    exact ih (fr_State_setFld (subm hF) h3)

theorem fr_mbxRespond {F : Nat} {b : State} {s0 a1 a2 a3} (hF : 549755871240 ||| F = F) (h0 : Frm F b s0) : Frm F b (mbxRespond s0 a1 a2 a3) := by
  unfold mbxRespond
  repeat' first
    | with_reducible assumption
    | ((with_reducible apply subt hF); rfl)
    | with_reducible first | apply fr_putRsp | apply fr_State_setReg | apply fr_State_sendVec | apply fr_mk_32768
    | simp only [frm_mk]

theorem fr_mbxDoor {F : Nat} {b : State} {s0 a1} (hF : 32776 ||| F = F) (h0 : Frm F b s0) : Frm F b (mbxDoor s0 a1) := by
  unfold mbxDoor
  repeat' first
    | with_reducible assumption
    | ((with_reducible apply subt hF); rfl)
    | with_reducible first | apply fr_State_setBitAt | apply fr_State_setReg | apply fr_mk_32768
    | simp only [frm_mk]
    | split

theorem fr_mbxServe {F : Nat} {b : State} {s0 a1 a2 a3 a4} (hF : 549755871240 ||| F = F) (h0 : Frm F b s0) (h4 : ∀ x0, Frm F b x0 → Frm F b (a4 x0)) : Frm F b (mbxServe s0 a1 a2 a3 a4) := by
  unfold mbxServe
  repeat' split
  all_goals first | exact h0 | exact fr_mbxRespond (subm hF) h0 | exact h4 _ h0

theorem fr_setMode {F : Nat} {b : State} {s0 a1 a2 a3 a4} (hF : 549756035084 ||| F = F) (h0 : Frm F b s0) : Frm F b (setMode s0 a1 a2 a3 a4) := by
  unfold setMode
  repeat' first
    | with_reducible assumption
    | ((with_reducible apply subt hF); rfl)
    | with_reducible first | apply fr_State_raise | apply fr_State_silt_ | apply fr_mk_4
    | simp only [frm_mk]
    | split

theorem fr_roleMode {F : Nat} {b : State} {s0 a1} (hF : 549756035084 ||| F = F) (h0 : Frm F b s0) : Frm F b (roleMode s0 a1) := by
  unfold roleMode
  repeat' first
    | with_reducible assumption
    | ((with_reducible apply subt hF); rfl)
    | with_reducible apply fr_setMode

theorem fr_commitStat {F : Nat} {b : State} {s0 a1 a2 a3 a4} (hF : 8 ||| F = F) (h0 : Frm F b s0) : Frm F b (commitStat s0 a1 a2 a3 a4) := by
  unfold commitStat
  repeat' first
    | with_reducible assumption
    | ((with_reducible apply subt hF); rfl)
    | with_reducible apply fr_State_setReg
    | split

theorem fr_refusePart {F : Nat} {b : State} {a0 s1 a2} (hF : 549772747016 ||| F = F) (h1 : Frm F b s1) : Frm F b (refusePart a0 s1 a2) := by
  unfold refusePart
  repeat' first
    | with_reducible assumption
    | ((with_reducible apply subt hF); rfl)
    | with_reducible first | apply fr_State_raise | apply fr_commitStat | apply fr_unarmRecords | apply fr_returnShadows

theorem fr_discardCommits {F : Nat} {b : State} {s0} (hF : 549772747528 ||| F = F) (h0 : Frm F b s0) : Frm F b (discardCommits s0) := by
  unfold discardCommits
  repeat' first
    | with_reducible assumption
    | ((with_reducible apply subt hF); rfl)
    | with_reducible first | apply fr_refusePart | apply fr_mk_512 | apply frm_foldl
    | simp only [frm_mk]
    | intro _

theorem fr_aliveFall {F : Nat} {b : State} {s0} (hF : 17179869184 ||| F = F) (h0 : Frm F b s0) : Frm F b (aliveFall s0) := by
  unfold aliveFall
  repeat' first
    | with_reducible assumption
    | ((with_reducible apply subt hF); rfl)
    | with_reducible apply fr_mk_17179869184
    | simp only [frm_mk]

theorem fr_roleNone {F : Nat} {b : State} {s0} (hF : 17179869184 ||| F = F) (h0 : Frm F b s0) : Frm F b (roleNone s0) := by
  unfold roleNone
  repeat' first
    | with_reducible assumption
    | ((with_reducible apply subt hF); rfl)
    | with_reducible apply fr_mk_17179869184
    | simp only [frm_mk]

theorem fr_canStops {F : Nat} {b : State} {s0 a1} (hF : 1073741824 ||| F = F) (h0 : Frm F b s0) : Frm F b (canStops s0 a1) := by
  unfold canStops
  repeat' first
    | with_reducible assumption
    | ((with_reducible apply subt hF); rfl)
    | with_reducible first | apply fr_unlockToList | apply fr_State_setCan

theorem fr_linStops {F : Nat} {b : State} {s0 a1} (hF : 1073741824 ||| F = F) (h0 : Frm F b s0) : Frm F b (linStops s0 a1) := by
  unfold linStops
  repeat' first
    | with_reducible assumption
    | ((with_reducible apply subt hF); rfl)
    | with_reducible apply fr_State_setLin

theorem fr_ppoStops {F : Nat} {b : State} {s0 a1} (hF : 524296 ||| F = F) (h0 : Frm F b s0) : Frm F b (ppoStops s0 a1) := by
  unfold ppoStops
  repeat' first
    | with_reducible assumption
    | ((with_reducible apply subt hF); rfl)
    | with_reducible apply fr_State_setPpo

theorem fr_stopOutputs {F : Nat} {b : State} {s0} (hF : 1719953940488 ||| F = F) (h0 : Frm F b s0) : Frm F b (stopOutputs s0) := by
  unfold stopOutputs
  repeat' first
    | with_reducible assumption
    | ((with_reducible apply subt hF); rfl)
    | with_reducible first | apply fr_portDisable | apply fr_canStops | apply fr_linStops | apply fr_ppoStops | apply frm_foldl
    | intro _

theorem fr_swapAnswer {F : Nat} {b : State} {s0 a1} (hF : 549755871240 ||| F = F) (h0 : Frm F b s0) : Frm F b (swapAnswer s0 a1) := by
  unfold swapAnswer
  repeat' first
    | with_reducible assumption
    | ((with_reducible apply subt hF); rfl)
    | with_reducible apply fr_mbxRespond
    | split

theorem fr_quarantine {F : Nat} {b : State} {s0 a1 a2 a3 a4} (hF : 1737138103052 ||| F = F) (h0 : Frm F b s0) : Frm F b (quarantine s0 a1 a2 a3 a4) := by
  unfold quarantine
  repeat' first
    | with_reducible assumption
    | ((with_reducible apply subt hF); rfl)
    | with_reducible first | apply fr_roleNone | apply fr_aliveFall | apply fr_discardCommits | apply fr_swapAnswer | apply fr_stopOutputs | apply fr_State_bump | apply fr_State_setReg | apply fr_setMode | apply fr_mk_68723671040
    | simp only [frm_mk]
    | split

theorem fr_faultStop {F : Nat} {b : State} {s0 a1} (hF : 1737138103052 ||| F = F) (h0 : Frm F b s0) : Frm F b (faultStop s0 a1) := by
  unfold faultStop
  repeat' first
    | with_reducible assumption
    | ((with_reducible apply subt hF); rfl)
    | with_reducible apply fr_quarantine
    | split

/-! ### TwinOps -/

theorem fr_siltRole {F : Nat} {b : State} {s0 a1 a2 a3 a4} (hF : 549756035080 ||| F = F) (h0 : Frm F b s0) : Frm F b (siltRole s0 a1 a2 a3 a4) := by
  unfold siltRole
  repeat' first
    | with_reducible assumption
    | ((with_reducible apply subt hF); rfl)
    | with_reducible apply fr_State_silt_

theorem fr_sendJoin {F : Nat} {b : State} {s0} (hF : 601295421448 ||| F = F) (h0 : Frm F b s0) : Frm F b (sendJoin s0) := by
  unfold sendJoin
  repeat' first
    | with_reducible assumption
    | ((with_reducible apply subt hF); rfl)
    | with_reducible first | apply fr_slSend | apply fr_mk_17179869184
    | simp only [frm_mk]
    | split

theorem fr_updateDigest {F : Nat} {b : State} {s0} (hF : 17179869192 ||| F = F) (h0 : Frm F b s0) : Frm F b (updateDigest s0) := by
  unfold updateDigest
  repeat' first
    | with_reducible assumption
    | ((with_reducible apply subt hF); rfl)
    | with_reducible first | apply fr_State_setReg | apply fr_State_setPair | apply fr_mk_17179869184
    | simp only [frm_mk]

theorem fr_adoptOwner {F : Nat} {b : State} {a0 s1 a2} (hF : 8 ||| F = F) (h1 : Frm F b s1) : Frm F b (adoptOwner a0 s1 a2) := by
  unfold adoptOwner
  repeat' first
    | with_reducible assumption
    | ((with_reducible apply subt hF); rfl)
    | with_reducible apply fr_State_setFld
    | split

theorem fr_adoptOwners {F : Nat} {b : State} {s0 a1} (hF : 8 ||| F = F) (h0 : Frm F b s0) : Frm F b (adoptOwners s0 a1) := by
  unfold adoptOwners
  repeat' first
    | with_reducible assumption
    | ((with_reducible apply subt hF); rfl)
    | with_reducible first | apply fr_State_setFld | apply fr_adoptOwner | apply fr_State_setPair | apply frm_foldl
    | intro _

theorem fr_adoptBucket {F : Nat} {b : State} {a0 s1 a2} (hF : 536870912 ||| F = F) (h1 : Frm F b s1) : Frm F b (adoptBucket a0 s1 a2) := by
  unfold adoptBucket
  repeat' first
    | with_reducible assumption
    | ((with_reducible apply subt hF); rfl)
    | with_reducible apply fr_setBucket
    | split
    | dsimp only

theorem fr_adoptCredit {F : Nat} {b : State} {a0 s1 a2} (hF : 536870912 ||| F = F) (h1 : Frm F b s1) : Frm F b (adoptCredit a0 s1 a2) := by
  unfold adoptCredit
  repeat' first
    | with_reducible assumption
    | ((with_reducible apply subt hF); rfl)
    | with_reducible apply fr_setCredit
    | split

theorem fr_adoptHold {F : Nat} {b : State} {a0 s1 a2} (hF : 536870912 ||| F = F) (h1 : Frm F b s1) : Frm F b (adoptHold a0 s1 a2) := by
  unfold adoptHold
  repeat' first
    | with_reducible assumption
    | ((with_reducible apply subt hF); rfl)
    | with_reducible apply fr_State_setEgs
    | split

theorem fr_adoptSeq {F : Nat} {b : State} {a0 a1 s2 a3} (hF : 16777216 ||| F = F) (h2 : Frm F b s2) : Frm F b (adoptSeq a0 a1 s2 a3) := by
  unfold adoptSeq
  repeat' first
    | with_reducible assumption
    | ((with_reducible apply subt hF); rfl)
    | with_reducible apply fr_State_hwSet
    | split

theorem fr_adoptEgress {F : Nat} {b : State} {s0 a1 a2} (hF : 536870912 ||| F = F) (h0 : Frm F b s0) : Frm F b (adoptEgress s0 a1 a2) := by
  unfold adoptEgress
  repeat' first
    | with_reducible assumption
    | ((with_reducible apply subt hF); rfl)
    | with_reducible first | apply fr_adoptBucket | apply fr_adoptCredit | apply fr_adoptHold | apply frm_foldl
    | intro _

theorem fr_adoptPolicing {F : Nat} {b : State} {s0 a1 a2} (hF : 33554432 ||| F = F) (h0 : Frm F b s0) : Frm F b (adoptPolicing s0 a1 a2) := by
  unfold adoptPolicing
  repeat' first
    | with_reducible assumption
    | ((with_reducible apply subt hF); rfl)
    | with_reducible apply fr_mk_33554432
    | simp only [frm_mk]

theorem fr_adoptSeqs {F : Nat} {b : State} {s0 a1 a2} (hF : 16777216 ||| F = F) (h0 : Frm F b s0) : Frm F b (adoptSeqs s0 a1 a2) := by
  unfold adoptSeqs
  repeat' first
    | with_reducible assumption
    | ((with_reducible apply subt hF); rfl)
    | with_reducible first | apply fr_adoptSeq | apply fr_mk_16777216 | apply frm_foldl
    | simp only [frm_mk]
    | intro _

theorem fr_adoptTraffic {F : Nat} {b : State} {s0 a1 a2} (hF : 587202560 ||| F = F) (h0 : Frm F b s0) : Frm F b (adoptTraffic s0 a1 a2) := by
  unfold adoptTraffic
  repeat' first
    | with_reducible assumption
    | ((with_reducible apply subt hF); rfl)
    | with_reducible first | apply fr_adoptSeqs | apply fr_adoptPolicing | apply fr_adoptEgress

theorem fr_adoptDeltas {F : Nat} {b : State} {s0 a1 a2} (hF : 19377684480 ||| F = F) (h0 : Frm F b s0) : Frm F b (adoptDeltas s0 a1 a2) := by
  unfold adoptDeltas
  repeat' first
    | with_reducible assumption
    | ((with_reducible apply subt hF); rfl)
    | with_reducible first | apply fr_setFlow | apply fr_mk_19327352832 | apply frm_foldl
    | simp only [frm_mk]
    | intro _

theorem fr_adoptTime {F : Nat} {b : State} {a0 s1 a2} (hF : 1717989433352 ||| F = F) (h1 : Frm F b s1) : Frm F b (adoptTime a0 s1 a2) := by
  unfold adoptTime
  repeat' first
    | with_reducible assumption
    | ((with_reducible apply subt hF); rfl)
    | with_reducible apply fr_domAdopt
    | split

theorem fr_syncLost {F : Nat} {b : State} {s0} (hF : 566935904268 ||| F = F) (h0 : Frm F b s0) : Frm F b (syncLost s0) := by
  unfold syncLost
  repeat' first
    | with_reducible assumption
    | ((with_reducible apply subt hF); rfl)
    | with_reducible first | apply fr_siltRole | apply fr_State_raise | apply fr_roleMode | apply fr_mk_17179869184
    | simp only [frm_mk]
    | split

theorem fr_syncGained {F : Nat} {b : State} {s0} (hF : 566935904268 ||| F = F) (h0 : Frm F b s0) : Frm F b (syncGained s0) := by
  unfold syncGained
  repeat' first
    | with_reducible assumption
    | ((with_reducible apply subt hF); rfl)
    | with_reducible first | apply fr_siltRole | apply fr_State_bump | apply fr_State_raise | apply fr_roleMode | apply fr_mk_17179869184
    | simp only [frm_mk]
    | split

theorem fr_readyTime {F : Nat} {b : State} {s0} (hF : 549755969544 ||| F = F) (h0 : Frm F b s0) : Frm F b (readyTime s0) := by
  unfold readyTime
  repeat' first
    | with_reducible assumption
    | ((with_reducible apply subt hF); rfl)
    | with_reducible first | apply fr_State_raise | apply fr_State_setReg
    | split

theorem fr_roleEntered {F : Nat} {b : State} {s0 a1} (hF : 566935838728 ||| F = F) (h0 : Frm F b s0) : Frm F b (roleEntered s0 a1) := by
  unfold roleEntered
  repeat' first
    | with_reducible assumption
    | ((with_reducible apply subt hF); rfl)
    | with_reducible first | apply fr_State_raise | apply fr_readyTime | apply fr_mk_17179869184
    | simp only [frm_mk]

theorem fr_raiseTerm {F : Nat} {b : State} {s0} (hF : 274877906952 ||| F = F) (h0 : Frm F b s0) : Frm F b (raiseTerm s0) := by
  unfold raiseTerm
  exact fr_mk_274877906944 (subm hF) (fr_State_setReg (subm hF) h0)

theorem fr_takeActive {F : Nat} {b : State} {s0 a1} (hF : 17179869184 ||| F = F) (h0 : Frm F b s0) : Frm F b (takeActive s0 a1) := by
  unfold takeActive
  repeat' first
    | with_reducible assumption
    | ((with_reducible apply subt hF); rfl)
    | with_reducible apply fr_mk_17179869184
    | simp only [frm_mk]

theorem fr_canHeld {F : Nat} {b : State} {s0 a1} (hF : 1073741824 ||| F = F) (h0 : Frm F b s0) : Frm F b (canHeld s0 a1) := by
  unfold canHeld
  repeat' first
    | with_reducible assumption
    | ((with_reducible apply subt hF); rfl)
    | with_reducible apply fr_State_setCan
    | split
    | dsimp only

theorem fr_takeStandby {F : Nat} {b : State} {s0 a1} (hF : 20401094656 ||| F = F) (h0 : Frm F b s0) : Frm F b (takeStandby s0 a1) := by
  unfold takeStandby
  repeat' first
    | with_reducible assumption
    | ((with_reducible apply subt hF); rfl)
    | with_reducible first | apply fr_canHeld | apply fr_gweStandby | apply fr_mk_17179869184 | apply frm_foldl
    | simp only [frm_mk]
    | intro _

theorem fr_authTakeover {F : Nat} {b : State} {s0 a1} (hF : 1073741824 ||| F = F) (h0 : Frm F b s0) : Frm F b (authTakeover s0 a1) := by
  unfold authTakeover
  repeat' first
    | with_reducible assumption
    | ((with_reducible apply subt hF); rfl)
    | with_reducible apply fr_State_setAuth

theorem fr_authsTakeover {F : Nat} {b : State} {s0} (hF : 1073741824 ||| F = F) (h0 : Frm F b s0) : Frm F b (authsTakeover s0) := by
  unfold authsTakeover
  repeat' first
    | with_reducible assumption
    | ((with_reducible apply subt hF); rfl)
    | with_reducible first | apply fr_authTakeover | apply frm_foldl
    | intro _

theorem fr_loadPns {F : Nat} {b : State} {s0} (hF : 8 ||| F = F) (h0 : Frm F b s0) : Frm F b (loadPns s0) := by
  unfold loadPns
  repeat' first
    | with_reducible assumption
    | ((with_reducible apply subt hF); rfl)
    | with_reducible first | apply fr_State_setPair | apply frm_foldl
    | intro _
    | split

theorem fr_loadMka {F : Nat} {b : State} {s0} (hF : 4294967296 ||| F = F) (h0 : Frm F b s0) : Frm F b (loadMka s0) := by
  unfold loadMka
  repeat' first
    | with_reducible assumption
    | ((with_reducible apply subt hF); rfl)
    | with_reducible apply fr_mk_4294967296
    | simp only [frm_mk]
    | split

theorem fr_roleFixups {F : Nat} {b : State} {s0} (hF : 7516192768 ||| F = F) (h0 : Frm F b s0) : Frm F b (roleFixups s0) := by
  unfold roleFixups
  repeat' first
    | with_reducible assumption
    | ((with_reducible apply subt hF); rfl)
    | with_reducible first | apply fr_mkaTakeover | apply fr_loadMka | apply fr_gweTakeover | apply fr_authsTakeover | apply fr_linResume | apply frm_foldl
    | intro _

theorem fr_takeover {F : Nat} {b : State} {s0} (hF : 566935838728 ||| F = F) (h0 : Frm F b s0) : Frm F b (takeover s0) := by
  unfold takeover
  repeat' first
    | with_reducible assumption
    | ((with_reducible apply subt hF); rfl)
    | with_reducible first | apply fr_takeActive | apply fr_State_raise | apply fr_mk_17179869184
    | simp only [frm_mk]

theorem fr_takeoverClaims {F : Nat} {b : State} {s0} (hF : 841813745672 ||| F = F) (h0 : Frm F b s0) : Frm F b (takeoverClaims s0) := by
  unfold takeoverClaims
  repeat' first
    | with_reducible assumption
    | ((with_reducible apply subt hF); rfl)
    | with_reducible first | apply fr_raiseTerm | apply fr_State_raise | apply fr_State_bump | apply fr_mk_17179869184
    | simp only [frm_mk]

theorem fr_takeoverOpens {F : Nat} {b : State} {s0} (hF : 571230871564 ||| F = F) (h0 : Frm F b s0) : Frm F b (takeoverOpens s0) := by
  unfold takeoverOpens
  repeat' first
    | with_reducible assumption
    | ((with_reducible apply subt hF); rfl)
    | with_reducible first | apply fr_mscTakeover | apply fr_loadPns | apply fr_roleMode | apply fr_mk_17179869184
    | simp only [frm_mk]

theorem fr_takeoverStep {F : Nat} {b : State} {s0} (hF : 846108778508 ||| F = F) (h0 : Frm F b s0) : Frm F b (takeoverStep s0) := by
  unfold takeoverStep
  repeat' first
    | with_reducible assumption
    | ((with_reducible apply subt hF); rfl)
    | with_reducible first | apply fr_takeoverClaims | apply fr_takeoverOpens
    | split
    | dsimp only

theorem fr_siltTerm {F : Nat} {b : State} {s0 a1} (hF : 549756035080 ||| F = F) (h0 : Frm F b s0) : Frm F b (siltTerm s0 a1) := by
  unfold siltTerm
  repeat' first
    | with_reducible assumption
    | ((with_reducible apply subt hF); rfl)
    | with_reducible apply fr_siltRole

theorem fr_mismatchNoted {F : Nat} {b : State} {s0 a1} (hF : 17179869184 ||| F = F) (h0 : Frm F b s0) : Frm F b (mismatchNoted s0 a1) := by
  unfold mismatchNoted
  repeat' first
    | with_reducible assumption
    | ((with_reducible apply subt hF); rfl)
    | with_reducible apply fr_mk_17179869184
    | simp only [frm_mk]

theorem fr_digestMismatch {F : Nat} {b : State} {s0} (hF : 1735167008776 ||| F = F) (h0 : Frm F b s0) : Frm F b (digestMismatch s0) := by
  unfold digestMismatch
  repeat' first
    | with_reducible assumption
    | ((with_reducible apply subt hF); rfl)
    | with_reducible first | apply fr_siltTerm | apply fr_State_report | apply fr_State_raise | apply fr_State_bump | apply fr_mismatchNoted
    | split
    | dsimp only

theorem fr_rejoin {F : Nat} {b : State} {s0} (hF : 601295421448 ||| F = F) (h0 : Frm F b s0) : Frm F b (rejoin s0) := by
  unfold rejoin
  repeat' first
    | with_reducible assumption
    | ((with_reducible apply subt hF); rfl)
    | with_reducible first | apply fr_sendJoin | apply fr_mk_17179869184
    | simp only [frm_mk]

/-! ### SyncPoint -/

theorem fr_sendCommit {F : Nat} {b : State} {s0 a1} (hF : 584115552264 ||| F = F) (h0 : Frm F b s0) : Frm F b (sendCommit s0 a1) := by
  unfold sendCommit
  repeat' first
    | with_reducible assumption
    | ((with_reducible apply subt hF); rfl)
    | with_reducible apply fr_slSend
    | split

theorem fr_sendSnapshot {F : Nat} {b : State} {s0} (hF : 601295642636 ||| F = F) (h0 : Frm F b s0) : Frm F b (sendSnapshot s0) := by
  unfold sendSnapshot
  repeat' first
    | with_reducible assumption
    | ((with_reducible apply subt hF); rfl)
    | with_reducible first | apply fr_slSend | apply fr_roleMode | apply fr_mk_17179869184
    | simp only [frm_mk]
    | split

theorem fr_deltasLeft {F : Nat} {b : State} {s0 a1 a2 a3} (hF : 19360907264 ||| F = F) (h0 : Frm F b s0) : Frm F b (deltasLeft s0 a1 a2 a3) := by
  unfold deltasLeft
  repeat' first
    | with_reducible assumption
    | ((with_reducible apply subt hF); rfl)
    | with_reducible apply fr_mk_19360907264
    | simp only [frm_mk]

theorem fr_sendSync {F : Nat} {b : State} {s0} (hF : 1702988308492 ||| F = F) (h0 : Frm F b s0) : Frm F b (sendSync s0) := by
  unfold sendSync
  repeat' first
    | with_reducible assumption
    | ((with_reducible apply subt hF); rfl)
    | with_reducible first | apply fr_sendSnapshot | apply fr_State_bumpBy | apply fr_State_bump | apply fr_slSend | apply fr_State_tick1 | apply fr_deltasLeft
    | split

theorem fr_rebindAll {F : Nat} {b : State} {a0 s1} (hF : 584115552776 ||| F = F) (h1 : Frm F b s1) : Frm F b (rebindAll a0 s1) := by
  unfold rebindAll
  repeat' first
    | with_reducible assumption
    | ((with_reducible apply subt hF); rfl)
    | with_reducible first | apply fr_sendCommit | apply fr_mk_512 | apply frm_foldl
    | simp only [frm_mk]
    | intro _

theorem fr_syncPoint {F : Nat} {b : State} {s0} (hF : 1702988571148 ||| F = F) (h0 : Frm F b s0) : Frm F b (syncPoint s0) := by
  unfold syncPoint
  repeat' first
    | with_reducible assumption
    | ((with_reducible apply subt hF); rfl)
    | with_reducible first | apply fr_State_setReg | apply fr_rebindAll | apply fr_sendSync | apply fr_syncLost | apply fr_sendJoin | apply fr_mk_17180131328
    | simp only [frm_mk]
    | split

theorem fr_forcedPoint {F : Nat} {b : State} {s0} (hF : 1702988571148 ||| F = F) (h0 : Frm F b s0) : Frm F b (forcedPoint s0) := by
  unfold forcedPoint
  repeat' first
    | with_reducible assumption
    | ((with_reducible apply subt hF); rfl)
    | with_reducible first | apply fr_syncPoint | apply fr_State_raise | apply fr_State_bump

theorem fr_execForcedSyncPoint {F : Nat} {b : State} {s0} (hF : 1702988571148 ||| F = F) (h0 : Frm F b s0) : FrmR F b (execForcedSyncPoint s0) := by
  unfold execForcedSyncPoint
  repeat' first
    | with_reducible assumption
    | ((with_reducible apply subt hF); rfl)
    | with_reducible first | apply fr_whenever | apply fr_forcedPoint | apply frmR_next

theorem fr_canCycle {F : Nat} {b : State} {s0 a1} (hF : 1073741824 ||| F = F) (h0 : Frm F b s0) : Frm F b (canCycle s0 a1) := by
  unfold canCycle
  repeat' first
    | with_reducible assumption
    | ((with_reducible apply subt hF); rfl)
    | with_reducible apply fr_State_setCan
    | split
    | dsimp only

theorem fr_busCycle {F : Nat} {b : State} {s0} (hF : 1073741824 ||| F = F) (h0 : Frm F b s0) : Frm F b (busCycle s0) := by
  unfold busCycle
  repeat' first
    | with_reducible assumption
    | ((with_reducible apply subt hF); rfl)
    | with_reducible first | apply fr_linCycle | apply fr_canCycle | apply frm_foldl
    | intro _

theorem fr_markCrossed {F : Nat} {b : State} {s0} (hF : 262152 ||| F = F) (h0 : Frm F b s0) : Frm F b (markCrossed s0) := by
  unfold markCrossed
  repeat' first
    | with_reducible assumption
    | ((with_reducible apply subt hF); rfl)
    | with_reducible first | apply fr_countSynth | apply fr_mk_262144
    | simp only [frm_mk]
    | split

theorem fr_boundaryEffects {F : Nat} {b : State} {s0} (hF : 1704062312972 ||| F = F) (h0 : Frm F b s0) : Frm F b (boundaryEffects s0) := by
  unfold boundaryEffects
  repeat' first
    | with_reducible assumption
    | ((with_reducible apply subt hF); rfl)
    | with_reducible first | apply fr_busCycle | apply fr_syncPoint | apply fr_mk_262144
    | simp only [frm_mk]
    | split

theorem fr_holdBegins {F : Nat} {b : State} {s0} (hF : 1717987336200 ||| F = F) (h0 : Frm F b s0) : Frm F b (holdBegins s0) := by
  unfold holdBegins
  repeat' first
    | with_reducible assumption
    | ((with_reducible apply subt hF); rfl)
    | with_reducible first | apply fr_pbEnter | apply fr_State_raise | apply fr_mk_262144
    | simp only [frm_mk]

theorem fr_crossed {F : Nat} {b : State} {s0} (hF : 1772781789708 ||| F = F) (h0 : Frm F b s0) : Frm F b (crossed s0) := by
  unfold crossed
  repeat' first
    | with_reducible assumption
    | ((with_reducible apply subt hF); rfl)
    | with_reducible first | apply fr_boundaryEffects | apply fr_holdBegins | apply fr_countSynth | apply fr_markCrossed | apply fr_mk_262144
    | simp only [frm_mk]
    | split

theorem fr_joinFinishes {F : Nat} {b : State} {s0} (hF : 1772781789708 ||| F = F) (h0 : Frm F b s0) : Frm F b (joinFinishes s0) := by
  unfold joinFinishes
  exact fr_boundaryEffects (subm hF) (fr_State_raise (subm hF) (fr_pbEnter (subm hF) (fr_countSynth (subm hF) (fr_mk_262144 (subm hF) h0))))

theorem fr_execJoinDone {F : Nat} {b : State} {s0} (hF : 1772781789708 ||| F = F) (h0 : Frm F b s0) : FrmR F b (execJoinDone s0) :=
  fr_whenever (subm hF) h0 (fr_joinFinishes (subm hF) h0)

theorem fr_pbCommit {F : Nat} {b : State} {s0} (hF : 1168231366664 ||| F = F) (h0 : Frm F b s0) : Frm F b (pbCommit s0) := by
  unfold pbCommit
  repeat' first
    | with_reducible assumption
    | ((with_reducible apply subt hF); rfl)
    | with_reducible first | apply fr_countSynth | apply fr_pbEnter | apply fr_mk_262144
    | simp only [frm_mk]
    | split

end Sys2Proof.Laws
end

