-- ==== Sys2Proof/Laws/Frame6.lean ====
section
/-!
SUPPORT. `Frm` for the functions of Machine/: CommitOps, HostDma, HostOps, FaultOps, UpdOps.
-/
set_option linter.unusedVariables false
namespace Sys2Proof.Laws
set_option Elab.async false
open Sys2Proof Sys2Proof.Machine

/-! ### CommitOps -/

theorem fr_goRefused {F : Nat} {b : State} {s0 a1 a2 a3} (hF : 549755969544 ||| F = F) (h0 : Frm F b s0) : Frm F b (goRefused s0 a1 a2 a3) := by
  unfold goRefused
  repeat' first
    | with_reducible assumption
    | ((with_reducible apply subt hF); rfl)
    | with_reducible first | apply fr_State_raise | apply fr_commitStat

theorem fr_armPart {F : Nat} {b : State} {s0 a1 a2} (hF : 16779016 ||| F = F) (h0 : Frm F b s0) : Frm F b (armPart s0 a1 a2) := by
  unfold armPart
  repeat' first
    | with_reducible assumption
    | ((with_reducible apply subt hF); rfl)
    | with_reducible first | apply fr_armRecords | apply fr_commitStat | apply fr_mk_1792
    | simp only [frm_mk]

theorem fr_goTaken {F : Nat} {b : State} {s0 a1 a2} (hF : 549772748552 ||| F = F) (h0 : Frm F b s0) : Frm F b (goTaken s0 a1 a2) := by
  unfold goTaken
  repeat' first
    | with_reducible assumption
    | ((with_reducible apply subt hF); rfl)
    | with_reducible first | apply fr_goRefused | apply fr_State_siltRefused | apply fr_armPart
    | split

theorem fr_execCommitGo {F : Nat} {b : State} {a0 a1 s2} (hF : 549772748552 ||| F = F) (h2 : Frm F b s2) : FrmR F b (execCommitGo a0 a1 s2) := by
  unfold execCommitGo
  repeat' first
    | with_reducible assumption
    | ((with_reducible apply subt hF); rfl)
    | with_reducible first | apply fr_ifWf | apply fr_State_write | apply fr_goTaken

theorem fr_discardTaken {F : Nat} {b : State} {s0 a1} (hF : 549772812552 ||| F = F) (h0 : Frm F b s0) : Frm F b (discardTaken s0 a1) := by
  unfold discardTaken
  repeat' first
    | with_reducible assumption
    | ((with_reducible apply subt hF); rfl)
    | with_reducible first | apply fr_State_refuse | apply fr_State_silt_ | apply fr_discardRecords | apply fr_mk_256
    | simp only [frm_mk]
    | split

theorem fr_execCommitDiscard {F : Nat} {b : State} {a0 s1} (hF : 549772812552 ||| F = F) (h1 : Frm F b s1) : FrmR F b (execCommitDiscard a0 s1) := by
  unfold execCommitDiscard
  repeat' first
    | with_reducible assumption
    | ((with_reducible apply subt hF); rfl)
    | with_reducible first | apply fr_State_write | apply fr_discardTaken | apply frmR_next

theorem fr_withVals {F : Nat} {b : State} {s0 a1} (hF : 8 ||| F = F) (h0 : Frm F b s0) : Frm F b (withVals s0 a1) := by
  unfold withVals
  repeat' first
    | with_reducible assumption
    | ((with_reducible apply subt hF); rfl)
    | with_reducible first | apply fr_State_setReg | apply frm_foldl
    | intro _
    | split

theorem fr_checkView {F : Nat} {b : State} {s0 a1 a2} (hF : 16777224 ||| F = F) (h0 : Frm F b s0) : Frm F b (checkView s0 a1 a2) := by
  unfold checkView
  repeat' first
    | with_reducible assumption
    | ((with_reducible apply subt hF); rfl)
    | with_reducible first | apply fr_withVals | apply fr_mk_16777216
    | simp only [frm_mk]

theorem fr_checkEnds {F : Nat} {b : State} {s0 a1 a2} (hF : 584132485896 ||| F = F) (h0 : Frm F b s0) : Frm F b (checkEnds s0 a1 a2) := by
  unfold checkEnds
  repeat' first
    | with_reducible assumption
    | ((with_reducible apply subt hF); rfl)
    | with_reducible first | apply fr_checkView | apply fr_State_setReg | apply fr_refusePart | apply fr_sendCommit | apply fr_mk_512
    | simp only [frm_mk]
    | split

theorem fr_execCommitCheckEnd {F : Nat} {b : State} {s0} (hF : 584132485896 ||| F = F) (h0 : Frm F b s0) : FrmR F b (execCommitCheckEnd s0) := by
  unfold execCommitCheckEnd
  repeat' first
    | with_reducible assumption
    | ((with_reducible apply subt hF); rfl)
    | with_reducible first | apply fr_checkEnds | apply frmR_next
    | split

theorem fr_appliedStats {F : Nat} {b : State} {s0 a1} (hF : 8 ||| F = F) (h0 : Frm F b s0) : Frm F b (appliedStats s0 a1) := by
  unfold appliedStats
  repeat' first
    | with_reducible assumption
    | ((with_reducible apply subt hF); rfl)
    | with_reducible first | apply fr_commitStat | apply frm_foldl
    | intro _

theorem fr_takeVal {F : Nat} {b : State} {s0 a1} (hF : 1073741832 ||| F = F) (h0 : Frm F b s0) : Frm F b (takeVal s0 a1) := by
  unfold takeVal
  repeat' first
    | with_reducible assumption
    | ((with_reducible apply subt hF); rfl)
    | with_reducible first | apply fr_State_setReg | apply fr_authCommit
    | split

theorem fr_lanesChange {F : Nat} {b : State} {s0 a1} (hF : 584116756488 ||| F = F) (h0 : Frm F b s0) : Frm F b (lanesChange s0 a1) := by
  unfold lanesChange
  repeat' first
    | with_reducible assumption
    | ((with_reducible apply subt hF); rfl)
    | with_reducible first | apply fr_State_setMac | apply fr_slLaneDown | apply frm_foldl
    | intro _
    | split
    | dsimp only

theorem fr_gclChange {F : Nat} {b : State} {s0 a1 a2 a3} (hF : 1718523944968 ||| F = F) (h0 : Frm F b s0) : Frm F b (gclChange s0 a1 a2 a3) := by
  unfold gclChange
  repeat' first
    | with_reducible assumption
    | ((with_reducible apply subt hF); rfl)
    | with_reducible first | apply fr_placeList | apply fr_installList
    | split

theorem fr_canBwChange {F : Nat} {b : State} {s0 a1 a2 a3 a4} (hF : 1073741824 ||| F = F) (h0 : Frm F b s0) : Frm F b (canBwChange s0 a1 a2 a3 a4) := by
  unfold canBwChange
  repeat' first
    | with_reducible assumption
    | ((with_reducible apply subt hF); rfl)
    | with_reducible first | apply fr_State_setCan | apply fr_canCycle
    | split

theorem fr_linCfgChange {F : Nat} {b : State} {s0 a1 a2 a3 a4} (hF : 1073741824 ||| F = F) (h0 : Frm F b s0) : Frm F b (linCfgChange s0 a1 a2 a3 a4) := by
  unfold linCfgChange
  repeat' first
    | with_reducible assumption
    | ((with_reducible apply subt hF); rfl)
    | with_reducible first | apply fr_linModeCommit | apply fr_State_setLin | apply fr_linResume | apply fr_linRestart
    | split

theorem fr_algChange {F : Nat} {b : State} {s0 a1 a2} (hF : 536870912 ||| F = F) (h0 : Frm F b s0) : Frm F b (algChange s0 a1 a2) := by
  unfold algChange
  repeat' first
    | with_reducible assumption
    | ((with_reducible apply subt hF); rfl)
    | with_reducible apply fr_setCredit

theorem fr_queueChange {F : Nat} {b : State} {s0 a1 a2 a3 a4} (hF : 805306368 ||| F = F) (h0 : Frm F b s0) : Frm F b (queueChange s0 a1 a2 a3 a4) := by
  unfold queueChange
  repeat' first
    | with_reducible assumption
    | ((with_reducible apply subt hF); rfl)
    | with_reducible first | apply fr_algChange | apply fr_flushQueue
    | split
    | dsimp only

theorem fr_holdSetting {F : Nat} {b : State} {s0 a1} (hF : 536870912 ||| F = F) (h0 : Frm F b s0) : Frm F b (holdSetting s0 a1) := by
  unfold holdSetting
  repeat' first
    | with_reducible assumption
    | ((with_reducible apply subt hF); rfl)
    | with_reducible apply fr_State_setEgs
    | split
    | dsimp only

theorem fr_commitEffect {F : Nat} {b : State} {a0 s1 a2} (hF : 1754229268488 ||| F = F) (h1 : Frm F b s1) : Frm F b (commitEffect a0 s1 a2) := by
  unfold commitEffect
  repeat' first
    | with_reducible assumption
    | ((with_reducible apply subt hF); rfl)
    | with_reducible first | apply fr_mmStart | apply fr_mscCommit | apply fr_lanesChange | apply fr_gclChange | apply fr_queueChange | apply fr_canModeCommit | apply fr_canBwChange | apply fr_linCfgChange | apply fr_domCommit | apply fr_servoCommit | apply fr_pdelayCommit
    | split
    | dsimp only

theorem fr_settleAll {F : Nat} {b : State} {s0} (hF : 536870912 ||| F = F) (h0 : Frm F b s0) : Frm F b (settleAll s0) := by
  unfold settleAll
  repeat' first
    | with_reducible assumption
    | ((with_reducible apply subt hF); rfl)
    | with_reducible first | apply fr_settleCredit | apply frm_foldl
    | intro _

theorem fr_takeCommit {F : Nat} {b : State} {s0 a1} (hF : 1660946440 ||| F = F) (h0 : Frm F b s0) : Frm F b (takeCommit s0 a1) := by
  unfold takeCommit
  repeat' first
    | with_reducible assumption
    | ((with_reducible apply subt hF); rfl)
    | with_reducible first | apply fr_gweCancels | apply fr_settleAll | apply fr_takeVal | apply fr_holdSetting | apply fr_State_setFld | apply fr_recordsLive | apply fr_mk_2048 | apply frm_foldl
    | simp only [frm_mk]
    | intro _

theorem fr_commitEffects {F : Nat} {b : State} {s0 a1 a2} (hF : 1754313154568 ||| F = F) (h0 : Frm F b s0) : Frm F b (commitEffects s0 a1 a2) := by
  unfold commitEffects
  repeat' first
    | with_reducible assumption
    | ((with_reducible apply subt hF); rfl)
    | with_reducible first | apply fr_commitEffect | apply fr_linkTrainStart | apply fr_pbCommit | apply frm_foldl
    | intro _
    | split

theorem fr_unackedLost {F : Nat} {b : State} {s0 a1} (hF : 566935904268 ||| F = F) (h0 : Frm F b s0) : Frm F b (unackedLost s0 a1) := by
  unfold unackedLost
  repeat' first
    | with_reducible assumption
    | ((with_reducible apply subt hF); rfl)
    | with_reducible apply fr_syncLost
    | split

theorem fr_topsoilDone {F : Nat} {b : State} {s0 a1} (hF : 20971520 ||| F = F) (h0 : Frm F b s0) : Frm F b (topsoilDone s0 a1) := by
  unfold topsoilDone
  repeat' first
    | with_reducible assumption
    | ((with_reducible apply subt hF); rfl)
    | with_reducible apply fr_mk_20971520
    | simp only [frm_mk]
    | split

theorem fr_applyCommit {F : Nat} {b : State} {s0 a1} (hF : 1771530840588 ||| F = F) (h0 : Frm F b s0) : Frm F b (applyCommit s0 a1) := by
  unfold applyCommit
  repeat' first
    | with_reducible assumption
    | ((with_reducible apply subt hF); rfl)
    | with_reducible first | apply fr_takeCommit | apply fr_State_silt_ | apply fr_updateDigest | apply fr_admitQueues | apply fr_commitEffects | apply fr_topsoilDone | apply fr_unackedLost | apply fr_State_raise | apply fr_appliedStats | apply fr_mk_512 | apply fr_mk_16777216 | apply fr_mk_16777728
    | simp only [frm_mk]
    | split

theorem fr_applyDue {F : Nat} {b : State} {s0} (hF : 1771530840588 ||| F = F) (h0 : Frm F b s0) : Frm F b (applyDue s0) := by
  unfold applyDue
  repeat' first
    | with_reducible assumption
    | ((with_reducible apply subt hF); rfl)
    | with_reducible apply fr_applyCommit
    | split

theorem fr_execCommitApply {F : Nat} {b : State} {s0} (hF : 1771530840588 ||| F = F) (h0 : Frm F b s0) : FrmR F b (execCommitApply s0) := by
  unfold execCommitApply
  repeat' first
    | with_reducible assumption
    | ((with_reducible apply subt hF); rfl)
    | with_reducible first | apply fr_applyDue | apply frmR_next

/-! ### HostDma -/

theorem fr_txUnsent {F : Nat} {b : State} {s0 a1 a2 a3 a4} (hF : 1649267445760 ||| F = F) (h0 : Frm F b s0) : Frm F b (txUnsent s0 a1 a2 a3 a4) := by
  unfold txUnsent
  repeat' first
    | with_reducible assumption
    | ((with_reducible apply subt hF); rfl)
    | with_reducible first | apply fr_ringComplete | apply fr_mk_1099511627776
    | simp only [frm_mk]

theorem fr_txFlush {F : Nat} {b : State} {s0 a1 a2} (hF : 1649267445760 ||| F = F) (h0 : Frm F b s0) : Frm F b (txFlush s0 a1 a2) := by
  unfold txFlush
  repeat' first
    | with_reducible assumption
    | ((with_reducible apply subt hF); rfl)
    | with_reducible first | apply fr_State_setRing | apply fr_txUnsent | apply frm_foldl
    | intro _

theorem fr_laFlush {F : Nat} {b : State} {s0 a1 a2} (hF : 1653562413056 ||| F = F) (h0 : Frm F b s0) : Frm F b (laFlush s0 a1 a2) := by
  unfold laFlush
  repeat' first
    | with_reducible assumption
    | ((with_reducible apply subt hF); rfl)
    | with_reducible first | apply fr_ringComplete | apply fr_State_tick1 | apply fr_mk_4294967296 | apply frm_foldl
    | simp only [frm_mk]
    | intro _

theorem fr_updFlush {F : Nat} {b : State} {s0} (hF : 1786706399232 ||| F = F) (h0 : Frm F b s0) : Frm F b (updFlush s0) := by
  unfold updFlush
  repeat' first
    | with_reducible assumption
    | ((with_reducible apply subt hF); rfl)
    | with_reducible first | apply fr_ringComplete | apply fr_State_tick1 | apply fr_mk_137438953472 | apply frm_foldl
    | simp only [frm_mk]
    | intro _
    | split

theorem fr_ringStarts {F : Nat} {b : State} {s0 a1} (hF : 4104 ||| F = F) (h0 : Frm F b s0) : Frm F b (ringStarts s0 a1) := by
  unfold ringStarts
  repeat' first
    | with_reducible assumption
    | ((with_reducible apply subt hF); rfl)
    | with_reducible first | apply fr_State_setRing | apply fr_State_setBitAt

theorem fr_ringStops {F : Nat} {b : State} {s0 a1} (hF : 1791001366528 ||| F = F) (h0 : Frm F b s0) : Frm F b (ringStops s0 a1) := by
  unfold ringStops
  repeat' first
    | with_reducible assumption
    | ((with_reducible apply subt hF); rfl)
    | with_reducible first | apply fr_State_setRing | apply fr_txFlush | apply fr_laFlush | apply fr_updFlush
    | split

theorem fr_ringCfgTaken {F : Nat} {b : State} {s0 a1 a2 a3} (hF : 1791001587720 ||| F = F) (h0 : Frm F b s0) : Frm F b (ringCfgTaken s0 a1 a2 a3) := by
  unfold ringCfgTaken
  repeat' first
    | with_reducible assumption
    | ((with_reducible apply subt hF); rfl)
    | with_reducible first | apply fr_logReg | apply fr_State_setReg | apply fr_ringStarts | apply fr_ringStops
    | split
    | dsimp only

theorem fr_execRingEnable {F : Nat} {b : State} {a0 a1 a2 s3} (hF : 1791001587720 ||| F = F) (h3 : Frm F b s3) : FrmR F b (execRingEnable a0 a1 a2 s3) := by
  unfold execRingEnable
  repeat' first
    | with_reducible assumption
    | ((with_reducible apply subt hF); rfl)
    | with_reducible first | apply fr_ifWf | apply fr_State_write | apply fr_ringCfgTaken

theorem fr_execRingDisable {F : Nat} {b : State} {a0 a1 a2 s3} (hF : 1791001587720 ||| F = F) (h3 : Frm F b s3) : FrmR F b (execRingDisable a0 a1 a2 s3) := by
  unfold execRingDisable
  repeat' first
    | with_reducible assumption
    | ((with_reducible apply subt hF); rfl)
    | with_reducible first | apply fr_ifWf | apply fr_State_write | apply fr_ringCfgTaken

theorem fr_ringDrains {F : Nat} {b : State} {s0 a1} (hF : 4104 ||| F = F) (h0 : Frm F b s0) : Frm F b (ringDrains s0 a1) := by
  unfold ringDrains
  repeat' first
    | with_reducible assumption
    | ((with_reducible apply subt hF); rfl)
    | with_reducible first | apply fr_State_setRing | apply fr_State_setBitAt | apply fr_State_setFld

theorem fr_execRingDrained {F : Nat} {b : State} {a0 s1} (hF : 4104 ||| F = F) (h1 : Frm F b s1) : FrmR F b (execRingDrained a0 s1) := by
  unfold execRingDrained
  repeat' first
    | with_reducible assumption
    | ((with_reducible apply subt hF); rfl)
    | with_reducible first | apply fr_ifWf | apply fr_whenever | apply fr_ringDrains

theorem fr_execRingTailWrite {F : Nat} {b : State} {a0 a1 a2 s3} (hF : 549755969544 ||| F = F) (h3 : Frm F b s3) : FrmR F b (execRingTailWrite a0 a1 a2 s3) := by
  unfold execRingTailWrite
  repeat' first
    | with_reducible assumption
    | ((with_reducible apply subt hF); rfl)
    | with_reducible first | apply fr_ifWf | apply fr_State_write | apply fr_State_setReg

theorem fr_hostRingsStop {F : Nat} {b : State} {s0 a1} (hF : 1791001366536 ||| F = F) (h0 : Frm F b s0) : Frm F b (hostRingsStop s0 a1) := by
  unfold hostRingsStop
  repeat' first
    | with_reducible assumption
    | ((with_reducible apply subt hF); rfl)
    | with_reducible first | apply fr_ringStops | apply fr_State_setBitAt | apply frm_foldl
    | intro _
    | split

theorem fr_txEnters {F : Nat} {b : State} {s0 a1 a2 a3} (hF : 469762048 ||| F = F) (h0 : Frm F b s0) : Frm F b (txEnters s0 a1 a2 a3).1 := by
  unfold txEnters
  repeat' first
    | with_reducible assumption
    | ((with_reducible apply subt hF); rfl)
    | with_reducible apply fr_enterPaced

theorem fr_launchLate {F : Nat} {b : State} {s0 a1 a2} (hF : 8 ||| F = F) (h0 : Frm F b s0) : Frm F b (launchLate s0 a1 a2) := by
  unfold launchLate
  repeat' first
    | with_reducible assumption
    | ((with_reducible apply subt hF); rfl)
    | with_reducible apply fr_State_bump
    | split

theorem fr_addFlight {F : Nat} {b : State} {s0 a1 a2 a3} (hF : 4096 ||| F = F) (h0 : Frm F b s0) : Frm F b (addFlight s0 a1 a2 a3) := by
  unfold addFlight
  repeat' first
    | with_reducible assumption
    | ((with_reducible apply subt hF); rfl)
    | with_reducible apply fr_State_setRing

theorem fr_txGo {F : Nat} {b : State} {s0 a1 a2 a3 a4} (hF : 469766152 ||| F = F) (h0 : Frm F b s0) : Frm F b (txGo s0 a1 a2 a3 a4) := by
  unfold txGo
  repeat' first
    | with_reducible assumption
    | ((with_reducible apply subt hF); rfl)
    | with_reducible first | apply fr_txEnters | apply fr_launchLate | apply fr_State_setRing

theorem fr_txDue {F : Nat} {b : State} {s0 a1} (hF : 469766152 ||| F = F) (h0 : Frm F b s0) : Frm F b (txDue s0 a1) := by
  unfold txDue
  repeat' first
    | with_reducible assumption
    | ((with_reducible apply subt hF); rfl)
    | with_reducible apply fr_txGo
    | split

theorem fr_txReady {F : Nat} {b : State} {s0 a1 a2 a3} (hF : 469766152 ||| F = F) (h0 : Frm F b s0) : Frm F b (txReady s0 a1 a2 a3) := by
  unfold txReady
  repeat' first
    | with_reducible assumption
    | ((with_reducible apply subt hF); rfl)
    | with_reducible first | apply fr_addFlight | apply fr_txEnters | apply fr_launchLate
    | split
    | dsimp only

theorem fr_txTakes {F : Nat} {b : State} {s0 a1 a2 a3 a4 a5} (hF : 1649737207816 ||| F = F) (h0 : Frm F b s0) : Frm F b (txTakes s0 a1 a2 a3 a4 a5) := by
  unfold txTakes
  repeat' first
    | with_reducible assumption
    | ((with_reducible apply subt hF); rfl)
    | with_reducible first | apply fr_ringTake | apply fr_txUnsent | apply fr_State_bump | apply fr_txReady
    | split

theorem fr_execTxFrameEnter {F : Nat} {b : State} {a0 a1 a2 a3 a4 s5} (hF : 1649737207816 ||| F = F) (h5 : Frm F b s5) : FrmR F b (execTxFrameEnter a0 a1 a2 a3 a4 s5) := by
  unfold execTxFrameEnter
  repeat' first
    | with_reducible assumption
    | ((with_reducible apply subt hF); rfl)
    | with_reducible first | apply fr_ifWf | apply fr_whenever | apply fr_txTakes

theorem fr_txLaunches {F : Nat} {b : State} {a0 a1 s2 a3} (hF : 469766152 ||| F = F) (h2 : Frm F b s2) : Frm F b (txLaunches a0 a1 s2 a3) := by
  unfold txLaunches
  repeat' first
    | with_reducible assumption
    | ((with_reducible apply subt hF); rfl)
    | with_reducible apply fr_txGo
    | split

theorem fr_execTxLaunch {F : Nat} {b : State} {a0 a1 a2 s3} (hF : 469766152 ||| F = F) (h3 : Frm F b s3) : FrmR F b (execTxLaunch a0 a1 a2 s3) := by
  unfold execTxLaunch
  repeat' first
    | with_reducible assumption
    | ((with_reducible apply subt hF); rfl)
    | with_reducible first | apply fr_ifWf | apply fr_txLaunches

theorem fr_txFinishes {F : Nat} {b : State} {s0 a1 a2 a3} (hF : 549755817984 ||| F = F) (h0 : Frm F b s0) : Frm F b (txFinishes s0 a1 a2 a3) := by
  unfold txFinishes
  repeat' first
    | with_reducible assumption
    | ((with_reducible apply subt hF); rfl)
    | with_reducible first | apply fr_State_setRing | apply fr_ringComplete
    | split
    | dsimp only

theorem fr_execTxCompletion {F : Nat} {b : State} {a0 a1 a2 s3} (hF : 549755817984 ||| F = F) (h3 : Frm F b s3) : FrmR F b (execTxCompletion a0 a1 a2 s3) := by
  unfold execTxCompletion
  repeat' first
    | with_reducible assumption
    | ((with_reducible apply subt hF); rfl)
    | with_reducible first | apply fr_ifWf | apply fr_txFinishes

theorem fr_rxBuffers {F : Nat} {b : State} {s0 a1} (hF : 1099511627776 ||| F = F) (h0 : Frm F b s0) : Frm F b (rxBuffers s0 a1).1 := by
  unfold rxBuffers
  repeat' first
    | with_reducible assumption
    | ((with_reducible apply subt hF); rfl)
    | with_reducible apply fr_mk_1099511627776
    | simp only [frm_mk]

theorem fr_rxWrites {F : Nat} {b : State} {s0 a1 a2 a3 a4 a5} (hF : 549755817992 ||| F = F) (h0 : Frm F b s0) : Frm F b (rxWrites s0 a1 a2 a3 a4 a5) := by
  unfold rxWrites
  repeat' first
    | with_reducible assumption
    | ((with_reducible apply subt hF); rfl)
    | with_reducible first | apply fr_ringTake | apply fr_State_bump | apply fr_State_emit | apply fr_ringComplete | apply frm_foldl
    | intro _
    | split

theorem fr_rxDma {F : Nat} {b : State} {s0 a1 a2 a3} (hF : 549755817992 ||| F = F) (h0 : Frm F b s0) : Frm F b (rxDma s0 a1 a2 a3) := by
  unfold rxDma
  repeat' first
    | with_reducible assumption
    | ((with_reducible apply subt hF); rfl)
    | with_reducible first | apply fr_State_setRing | apply fr_rxWrites | apply fr_State_bump
    | split
    | dsimp only

theorem fr_execRxFrameDma {F : Nat} {b : State} {a0 a1 a2 s3} (hF : 1649267445768 ||| F = F) (h3 : Frm F b s3) : FrmR F b (execRxFrameDma a0 a1 a2 s3) := by
  unfold execRxFrameDma
  repeat' first
    | with_reducible assumption
    | ((with_reducible apply subt hF); rfl)
    | with_reducible first | apply fr_ifWf | apply fr_rxBuffers | apply fr_rxDma

theorem fr_ringVector {F : Nat} {b : State} {s0 a1} (hF : 549755842560 ||| F = F) (h0 : Frm F b s0) : Frm F b (ringVector s0 a1) := by
  unfold ringVector
  repeat' first
    | with_reducible assumption
    | ((with_reducible apply subt hF); rfl)
    | with_reducible first | apply fr_State_sendVec | apply fr_State_setRing

theorem fr_execRingInterrupt {F : Nat} {b : State} {a0 s1} (hF : 549755842560 ||| F = F) (h1 : Frm F b s1) : FrmR F b (execRingInterrupt a0 s1) := by
  unfold execRingInterrupt
  repeat' first
    | with_reducible assumption
    | ((with_reducible apply subt hF); rfl)
    | with_reducible first | apply fr_ifWf | apply fr_whenever | apply fr_ringVector

theorem fr_execCoalTimerExpire {F : Nat} {b : State} {a0 s1} (hF : 549755842560 ||| F = F) (h1 : Frm F b s1) : FrmR F b (execCoalTimerExpire a0 s1) := by
  unfold execCoalTimerExpire
  repeat' first
    | with_reducible assumption
    | ((with_reducible apply subt hF); rfl)
    | with_reducible first | apply fr_ifWf | apply fr_whenever | apply fr_ringVector

theorem fr_msixOpens {F : Nat} {b : State} {s0 a1 a2} (hF : 549755838464 ||| F = F) (h0 : Frm F b s0) : Frm F b (msixOpens s0 a1 a2) := by
  unfold msixOpens
  repeat' first
    | with_reducible assumption
    | ((with_reducible apply subt hF); rfl)
    | with_reducible first | apply fr_State_setMsix | apply fr_State_emit
    | split
    | dsimp only

theorem fr_msixWrite {F : Nat} {b : State} {s0 a1 a2 a3 a4} (hF : 549755838464 ||| F = F) (h0 : Frm F b s0) : Frm F b (msixWrite s0 a1 a2 a3 a4) := by
  unfold msixWrite
  repeat' first
    | with_reducible assumption
    | ((with_reducible apply subt hF); rfl)
    | with_reducible first | apply fr_State_setMsix | apply fr_msixOpens
    | split

theorem fr_execMsixUnmask {F : Nat} {b : State} {a0 a1 s2} (hF : 549755838464 ||| F = F) (h2 : Frm F b s2) : FrmR F b (execMsixUnmask a0 a1 s2) := by
  unfold execMsixUnmask
  repeat' first
    | with_reducible assumption
    | ((with_reducible apply subt hF); rfl)
    | with_reducible first | apply fr_ifWf | apply fr_msixOpens

/-! ### HostOps -/

theorem fr_setOwner {F : Nat} {b : State} {s0 a1 a2 a3} (hF : 549756035080 ||| F = F) (h0 : Frm F b s0) : Frm F b (setOwner s0 a1 a2 a3) := by
  unfold setOwner
  repeat' first
    | with_reducible assumption
    | ((with_reducible apply subt hF); rfl)
    | with_reducible first | apply fr_State_silt_ | apply fr_State_setReg
    | split
    | dsimp only

theorem fr_execOwnerWrite {F : Nat} {b : State} {a0 a1 a2 s3} (hF : 549756035080 ||| F = F) (h3 : Frm F b s3) : FrmR F b (execOwnerWrite a0 a1 a2 s3) := by
  unfold execOwnerWrite
  repeat' first
    | with_reducible assumption
    | ((with_reducible apply subt hF); rfl)
    | with_reducible first | apply fr_ifWf | apply fr_State_write | apply fr_setOwner

theorem fr_semTas {F : Nat} {b : State} {s0 a1 a2} (hF : 549755813896 ||| F = F) (h0 : Frm F b s0) : Frm F b (semTas s0 a1 a2) := by
  unfold semTas
  repeat' first
    | with_reducible assumption
    | ((with_reducible apply subt hF); rfl)
    | with_reducible first | apply fr_State_emit | apply fr_State_setFld
    | split
    | dsimp only

theorem fr_execSemTasRead {F : Nat} {b : State} {a0 a1 s2} (hF : 618475290632 ||| F = F) (h2 : Frm F b s2) : FrmR F b (execSemTasRead a0 a1 s2) := by
  unfold execSemTasRead
  repeat' first
    | with_reducible assumption
    | ((with_reducible apply subt hF); rfl)
    | with_reducible first | apply fr_ifWf | apply fr_State_readOnce | apply fr_semTas

theorem fr_semFree {F : Nat} {b : State} {s0 a1 a2} (hF : 549755969544 ||| F = F) (h0 : Frm F b s0) : Frm F b (semFree s0 a1 a2) := by
  unfold semFree
  repeat' first
    | with_reducible assumption
    | ((with_reducible apply subt hF); rfl)
    | with_reducible first | apply fr_State_refuse | apply fr_State_setFld
    | split
    | dsimp only

theorem fr_execSemRelease {F : Nat} {b : State} {a0 a1 s2} (hF : 549755969544 ||| F = F) (h2 : Frm F b s2) : FrmR F b (execSemRelease a0 a1 s2) := by
  unfold execSemRelease
  repeat' first
    | with_reducible assumption
    | ((with_reducible apply subt hF); rfl)
    | with_reducible first | apply fr_ifWf | apply fr_State_write | apply fr_semFree

theorem fr_releaseOwned {F : Nat} {b : State} {s0 a1} (hF : 549756035080 ||| F = F) (h0 : Frm F b s0) : Frm F b (releaseOwned s0 a1) := by
  unfold releaseOwned
  repeat' first
    | with_reducible assumption
    | ((with_reducible apply subt hF); rfl)
    | with_reducible first | apply fr_setOwner | apply fr_State_silt_ | apply fr_State_setFld | apply frm_foldl
    | intro _

theorem fr_execHostLinkUp {F : Nat} {b : State} {a0 a1 a2 s3} (hF : 8 ||| F = F) (h3 : Frm F b s3) : FrmR F b (execHostLinkUp a0 a1 a2 s3) := by
  unfold execHostLinkUp
  repeat' first
    | with_reducible assumption
    | ((with_reducible apply subt hF); rfl)
    | with_reducible first | apply fr_ifWf | apply fr_whenever | apply fr_State_setReg

theorem fr_siltFrees {F : Nat} {b : State} {s0} (hF : 8 ||| F = F) (h0 : Frm F b s0) : Frm F b (siltFrees s0) := by
  unfold siltFrees
  repeat' first
    | with_reducible assumption
    | ((with_reducible apply subt hF); rfl)
    | with_reducible apply fr_State_setReg

theorem fr_execSiltAckWrite {F : Nat} {b : State} {a0 a1 a2 s3} (hF : 549755969544 ||| F = F) (h3 : Frm F b s3) : FrmR F b (execSiltAckWrite a0 a1 a2 s3) := by
  unfold execSiltAckWrite
  repeat' first
    | with_reducible assumption
    | ((with_reducible apply subt hF); rfl)
    | with_reducible first | apply fr_State_write | apply fr_siltFrees | apply fr_State_setReg | apply frmR_next

theorem fr_checkpoint {F : Nat} {b : State} {s0 a1 a2} (hF : 1649267662856 ||| F = F) (h0 : Frm F b s0) : Frm F b (checkpoint s0 a1 a2) := by
  unfold checkpoint
  repeat' first
    | with_reducible assumption
    | ((with_reducible apply subt hF); rfl)
    | with_reducible first | apply fr_State_tick1 | apply fr_State_raise | apply fr_State_setReg | apply fr_mk_65536
    | simp only [frm_mk]

theorem fr_checkpointNow {F : Nat} {b : State} {s0} (hF : 1649267662856 ||| F = F) (h0 : Frm F b s0) : Frm F b (checkpointNow s0) := by
  unfold checkpointNow
  repeat' first
    | with_reducible assumption
    | ((with_reducible apply subt hF); rfl)
    | with_reducible apply fr_checkpoint

theorem fr_execSiltCheckpointRecord {F : Nat} {b : State} {s0} (hF : 1649267662856 ||| F = F) (h0 : Frm F b s0) : FrmR F b (execSiltCheckpointRecord s0) := by
  unfold execSiltCheckpointRecord
  repeat' first
    | with_reducible assumption
    | ((with_reducible apply subt hF); rfl)
    | with_reducible first | apply fr_whenever | apply fr_checkpoint | apply frmR_next
    | split

/-! ### FaultOps -/

theorem fr_reportEnters {F : Nat} {b : State} {s0 a1} (hF : 618475446280 ||| F = F) (h0 : Frm F b s0) : Frm F b (reportEnters s0 a1) := by
  unfold reportEnters
  repeat' first
    | with_reducible assumption
    | ((with_reducible apply subt hF); rfl)
    | with_reducible first | apply fr_State_raise | apply fr_State_bump | apply fr_mk_68719476736
    | simp only [frm_mk]
    | split

theorem fr_execFaultReport {F : Nat} {b : State} {s0} (hF : 618475446280 ||| F = F) (h0 : Frm F b s0) : FrmR F b (execFaultReport s0) := by
  unfold execFaultReport
  repeat' first
    | with_reducible assumption
    | ((with_reducible apply subt hF); rfl)
    | with_reducible first | apply fr_reportEnters | apply frmR_next
    | split

theorem fr_setCoal {F : Nat} {b : State} {s0 a1 a2} (hF : 68719476736 ||| F = F) (h0 : Frm F b s0) : Frm F b (setCoal s0 a1 a2) := by
  unfold setCoal
  repeat' first
    | with_reducible assumption
    | ((with_reducible apply subt hF); rfl)
    | with_reducible apply fr_mk_68719476736
    | simp only [frm_mk]

theorem fr_closeEntry {F : Nat} {b : State} {s0 a1 a2} (hF : 68719476736 ||| F = F) (h0 : Frm F b s0) : Frm F b (closeEntry s0 a1 a2) := by
  unfold closeEntry
  repeat' first
    | with_reducible assumption
    | ((with_reducible apply subt hF); rfl)
    | with_reducible first | apply fr_setCoal | apply fr_mk_68719476736
    | simp only [frm_mk]

theorem fr_openEntry {F : Nat} {b : State} {s0 a1 a2 a3 a4} (hF : 618475446280 ||| F = F) (h0 : Frm F b s0) : Frm F b (openEntry s0 a1 a2 a3 a4) := by
  unfold openEntry
  repeat' first
    | with_reducible assumption
    | ((with_reducible apply subt hF); rfl)
    | with_reducible first | apply fr_State_bump | apply fr_setCoal | apply fr_State_raise
    | split
    | dsimp only

theorem fr_extendEntry {F : Nat} {b : State} {s0 a1 a2 a3} (hF : 68719476736 ||| F = F) (h0 : Frm F b s0) : Frm F b (extendEntry s0 a1 a2 a3) := by
  unfold extendEntry
  repeat' first
    | with_reducible assumption
    | ((with_reducible apply subt hF); rfl)
    | with_reducible apply fr_setCoal

theorem fr_windowOver {F : Nat} {b : State} {s0 a1} (hF : 68719476736 ||| F = F) (h0 : Frm F b s0) : Frm F b (windowOver s0 a1) := by
  unfold windowOver
  repeat' first
    | with_reducible assumption
    | ((with_reducible apply subt hF); rfl)
    | with_reducible apply fr_closeEntry
    | split

theorem fr_execWindowClose {F : Nat} {b : State} {a0 s1} (hF : 68719476736 ||| F = F) (h1 : Frm F b s1) : FrmR F b (execWindowClose a0 s1) := by
  unfold execWindowClose
  repeat' first
    | with_reducible assumption
    | ((with_reducible apply subt hF); rfl)
    | with_reducible first | apply fr_ifWf | apply fr_windowOver

theorem fr_writeRecord {F : Nat} {b : State} {s0} (hF : 618475446280 ||| F = F) (h0 : Frm F b s0) : Frm F b (writeRecord s0) := by
  unfold writeRecord
  repeat' first
    | with_reducible assumption
    | ((with_reducible apply subt hF); rfl)
    | with_reducible first | apply fr_setCoal | apply fr_State_raise | apply fr_State_bump | apply fr_State_setReg | apply fr_mk_68719476736
    | simp only [frm_mk]
    | split

theorem fr_execFaultRecordWrite {F : Nat} {b : State} {s0} (hF : 618475446280 ||| F = F) (h0 : Frm F b s0) : FrmR F b (execFaultRecordWrite s0) := by
  unfold execFaultRecordWrite
  repeat' first
    | with_reducible assumption
    | ((with_reducible apply subt hF); rfl)
    | with_reducible first | apply fr_writeRecord | apply frmR_next

theorem fr_closeByReport {F : Nat} {b : State} {s0 a1 a2} (hF : 618475446280 ||| F = F) (h0 : Frm F b s0) : Frm F b (closeByReport s0 a1 a2) := by
  unfold closeByReport
  repeat' first
    | with_reducible assumption
    | ((with_reducible apply subt hF); rfl)
    | with_reducible first | apply fr_closeEntry | apply fr_writeRecord | apply frm_foldl
    | intro _

theorem fr_overflowReport {F : Nat} {b : State} {s0 a1} (hF : 618475446280 ||| F = F) (h0 : Frm F b s0) : Frm F b (overflowReport s0 a1) := by
  unfold overflowReport
  repeat' first
    | with_reducible assumption
    | ((with_reducible apply subt hF); rfl)
    | with_reducible first | apply fr_State_raise | apply fr_State_bump | apply fr_extendEntry | apply fr_closeByReport | apply fr_openEntry
    | split
    | dsimp only

theorem fr_newWindow {F : Nat} {b : State} {s0 a1 a2 a3} (hF : 618475446280 ||| F = F) (h0 : Frm F b s0) : Frm F b (newWindow s0 a1 a2 a3) := by
  unfold newWindow
  repeat' first
    | with_reducible assumption
    | ((with_reducible apply subt hF); rfl)
    | with_reducible first | apply fr_openEntry | apply fr_overflowReport
    | split

theorem fr_takeReport {F : Nat} {b : State} {s0} (hF : 618475446280 ||| F = F) (h0 : Frm F b s0) : Frm F b (takeReport s0) := by
  unfold takeReport
  repeat' first
    | with_reducible assumption
    | ((with_reducible apply subt hF); rfl)
    | with_reducible first | apply fr_State_bump | apply fr_extendEntry | apply fr_newWindow | apply fr_closeByReport | apply fr_mk_68719476736
    | simp only [frm_mk]
    | split

theorem fr_execCoalesce {F : Nat} {b : State} {s0} (hF : 618475446280 ||| F = F) (h0 : Frm F b s0) : FrmR F b (execCoalesce s0) := by
  unfold execCoalesce
  repeat' first
    | with_reducible assumption
    | ((with_reducible apply subt hF); rfl)
    | with_reducible first | apply fr_takeReport | apply frmR_next

theorem fr_plainWrite {F : Nat} {b : State} {s0 a1 a2 a3} (hF : 549756035080 ||| F = F) (h0 : Frm F b s0) : Frm F b (plainWrite s0 a1 a2 a3) := by
  unfold plainWrite
  repeat' first
    | with_reducible assumption
    | ((with_reducible apply subt hF); rfl)
    | with_reducible first | apply fr_logReg | apply fr_State_setReg

theorem fr_memInjTaken {F : Nat} {b : State} {s0 a1 a2} (hF : 618475511816 ||| F = F) (h0 : Frm F b s0) : Frm F b (memInjTaken s0 a1 a2) := by
  have h : Frm F b (plainWrite s0 a1 (aMem 0x050) a2) := fr_plainWrite (subm hF) h0
  unfold memInjTaken
  extract_lets t
  split
  · exact fr_mk_68719476736 (subm hF) h
  · exact h

theorem fr_execMemInjArm {F : Nat} {b : State} {a0 a1 s2} (hF : 618475511816 ||| F = F) (h2 : Frm F b s2) : FrmR F b (execMemInjArm a0 a1 s2) :=
  fr_ifWf (subm hF) (fr_State_write (subm hF) h2 (fr_memInjTaken (subm hF) h2))

theorem fr_lspInjTaken {F : Nat} {b : State} {s0 a1 a2} (hF : 618475511816 ||| F = F) (h0 : Frm F b s0) : Frm F b (lspInjTaken s0 a1 a2) := by
  unfold lspInjTaken
  repeat' first
    | with_reducible assumption
    | ((with_reducible apply subt hF); rfl)
    | with_reducible first | apply fr_plainWrite | apply fr_State_setPairSt
    | split

theorem fr_lspInj {F : Nat} {b : State} {a0 a1 a2 s3} (hF : 618475511816 ||| F = F) (h3 : Frm F b s3) : FrmR F b (lspInj a0 a1 a2 s3) := by
  unfold lspInj
  repeat' first
    | with_reducible assumption
    | ((with_reducible apply subt hF); rfl)
    | with_reducible first | apply fr_ifWf | apply fr_State_write | apply fr_lspInjTaken

theorem fr_execLspInjOnce {F : Nat} {b : State} {a0 a1 s2} (hF : 618475511816 ||| F = F) (h2 : Frm F b s2) : FrmR F b (execLspInjOnce a0 a1 s2) := by
  unfold execLspInjOnce
  repeat' first
    | with_reducible assumption
    | ((with_reducible apply subt hF); rfl)
    | with_reducible apply fr_lspInj

theorem fr_execLspInjAsync {F : Nat} {b : State} {a0 a1 s2} (hF : 618475511816 ||| F = F) (h2 : Frm F b s2) : FrmR F b (execLspInjAsync a0 a1 s2) := by
  unfold execLspInjAsync
  repeat' first
    | with_reducible assumption
    | ((with_reducible apply subt hF); rfl)
    | with_reducible apply fr_lspInj

theorem fr_execLspInjPersist {F : Nat} {b : State} {a0 a1 s2} (hF : 618475511816 ||| F = F) (h2 : Frm F b s2) : FrmR F b (execLspInjPersist a0 a1 s2) := by
  unfold execLspInjPersist
  repeat' first
    | with_reducible assumption
    | ((with_reducible apply subt hF); rfl)
    | with_reducible apply fr_lspInj

theorem fr_fltInjTaken {F : Nat} {b : State} {s0 a1 a2} (hF : 1717987139592 ||| F = F) (h0 : Frm F b s0) : Frm F b (fltInjTaken s0 a1 a2) := by
  unfold fltInjTaken
  repeat' first
    | with_reducible assumption
    | ((with_reducible apply subt hF); rfl)
    | with_reducible first | apply fr_logReg | apply fr_State_report | apply fr_State_bump
    | split

theorem fr_execFltInjGo {F : Nat} {b : State} {a0 a1 s2} (hF : 1717987139592 ||| F = F) (h2 : Frm F b s2) : FrmR F b (execFltInjGo a0 a1 s2) := by
  unfold execFltInjGo
  repeat' first
    | with_reducible assumption
    | ((with_reducible apply subt hF); rfl)
    | with_reducible first | apply fr_ifWf | apply fr_State_write | apply fr_fltInjTaken

theorem fr_scrubTables {F : Nat} {b : State} {s0 a1} (hF : 1720151334920 ||| F = F) (h0 : Frm F b s0) : Frm F b (scrubTables s0 a1) := by
  unfold scrubTables
  repeat' first
    | with_reducible assumption
    | ((with_reducible apply subt hF); rfl)
    | with_reducible first | apply fr_State_tick1 | apply fr_memRepeated | apply fr_State_report | apply fr_State_raise | apply fr_State_bump | apply fr_gweLoseAny | apply fr_loseEntry | apply fr_State_setReg
    | split
    | dsimp only

theorem fr_loseFlow {F : Nat} {b : State} {s0} (hF : 1099561959424 ||| F = F) (h0 : Frm F b s0) : Frm F b (loseFlow s0) := by
  unfold loseFlow
  extract_lets l
  split
  · exact fr_State_tick1 (subm hF) (fr_setFlow (subm hF) h0)
  · exact fr_State_tick1 (subm hF) h0

theorem fr_scrubFlows {F : Nat} {b : State} {s0 a1} (hF : 1718037405704 ||| F = F) (h0 : Frm F b s0) : Frm F b (scrubFlows s0 a1) := by
  unfold scrubFlows
  repeat' first
    | with_reducible assumption
    | ((with_reducible apply subt hF); rfl)
    | with_reducible first | apply fr_flowParity | apply fr_loseFlow
    | split

theorem fr_loseItem {F : Nat} {b : State} {s0 a1 a2} (hF : 1719060815880 ||| F = F) (h0 : Frm F b s0) : Frm F b (loseItem s0 a1 a2) := by
  unfold loseItem
  repeat' first
    | with_reducible assumption
    | ((with_reducible apply subt hF); rfl)
    | with_reducible first | apply fr_parityLoss | apply fr_txEvent | apply fr_State_bump | apply fr_State_setCan | apply fr_memLost | apply fr_rxLoss | apply fr_authLoss
    | split

theorem fr_scrubBuses {F : Nat} {b : State} {s0 a1} (hF : 1719060815880 ||| F = F) (h0 : Frm F b s0) : Frm F b (scrubBuses s0 a1) := by
  unfold scrubBuses
  repeat' first
    | with_reducible assumption
    | ((with_reducible apply subt hF); rfl)
    | with_reducible first | apply fr_loseItem | apply fr_State_tick1 | apply fr_memLost
    | split
    | dsimp only

theorem fr_blockedLost {F : Nat} {b : State} {s0 a1} (hF : 33554432 ||| F = F) (h0 : Frm F b s0) : Frm F b (blockedLost s0 a1) := by
  unfold blockedLost
  repeat' first
    | with_reducible assumption
    | ((with_reducible apply subt hF); rfl)
    | with_reducible first | apply fr_State_setMeterSt | apply fr_mk_33554432
    | simp only [frm_mk]
    | split

theorem fr_counterLost {F : Nat} {b : State} {s0 a1} (hF : 8 ||| F = F) (h0 : Frm F b s0) : Frm F b (counterLost s0 a1) := by
  unfold counterLost
  repeat' first
    | with_reducible assumption
    | ((with_reducible apply subt hF); rfl)
    | with_reducible apply fr_State_setPair
    | split

theorem fr_scrubMisc {F : Nat} {b : State} {s0 a1} (hF : 1718576635912 ||| F = F) (h0 : Frm F b s0) : Frm F b (scrubMisc s0 a1) := by
  unfold scrubMisc
  repeat' first
    | with_reducible assumption
    | ((with_reducible apply subt hF); rfl)
    | with_reducible first | apply fr_State_tick1 | apply fr_loseLevel | apply fr_sfpLost | apply fr_State_setMeterSt | apply fr_blockedLost | apply fr_servoLost | apply fr_memRepeated | apply fr_seqLost | apply fr_counterLost | apply fr_memLost
    | split

theorem fr_scrubSilt {F : Nat} {b : State} {s0 a1} (hF : 1717987139592 ||| F = F) (h0 : Frm F b s0) : Frm F b (scrubSilt s0 a1) := by
  unfold scrubSilt
  repeat' first
    | with_reducible assumption
    | ((with_reducible apply subt hF); rfl)
    | with_reducible first | apply fr_memLost | apply fr_State_tick1 | apply fr_mk_65536
    | simp only [frm_mk]
    | split

theorem fr_scrubBuffer {F : Nat} {b : State} {s0 a1} (hF : 1717987074056 ||| F = F) (h0 : Frm F b s0) : Frm F b (scrubBuffer s0 a1) := by
  unfold scrubBuffer
  repeat' first
    | with_reducible assumption
    | ((with_reducible apply subt hF); rfl)
    | with_reducible first | apply fr_State_tick1 | apply fr_retireHalf | apply fr_memLost | apply fr_mk_68719476736
    | simp only [frm_mk]
    | split

/-! ### UpdOps -/

theorem fr_setCodeSlot {F : Nat} {b : State} {s0 a1 a2} (hF : 274877906944 ||| F = F) (h0 : Frm F b s0) : Frm F b (setCodeSlot s0 a1 a2) := by
  unfold setCodeSlot
  repeat' first
    | with_reducible assumption
    | ((with_reducible apply subt hF); rfl)
    | with_reducible apply fr_mk_274877906944
    | simp only [frm_mk]
    | split

theorem fr_markSlot {F : Nat} {b : State} {s0 a1 a2} (hF : 274877906944 ||| F = F) (h0 : Frm F b s0) : Frm F b (markSlot s0 a1 a2) := by
  unfold markSlot
  repeat' first
    | with_reducible assumption
    | ((with_reducible apply subt hF); rfl)
    | with_reducible apply fr_setCodeSlot

theorem fr_markTs {F : Nat} {b : State} {s0 a1 a2} (hF : 274877906944 ||| F = F) (h0 : Frm F b s0) : Frm F b (markTs s0 a1 a2) := by
  unfold markTs
  repeat' first
    | with_reducible assumption
    | ((with_reducible apply subt hF); rfl)
    | with_reducible apply fr_mk_274877906944
    | simp only [frm_mk]
    | split

theorem fr_siltUpd {F : Nat} {b : State} {s0 a1 a2 a3 a4 a5 a6} (hF : 549756035080 ||| F = F) (h0 : Frm F b s0) : Frm F b (siltUpd s0 a1 a2 a3 a4 a5 a6) := by
  unfold siltUpd
  repeat' first
    | with_reducible assumption
    | ((with_reducible apply subt hF); rfl)
    | with_reducible apply fr_State_silt_

theorem fr_healthStep {F : Nat} {b : State} {s0} (hF : 137438953472 ||| F = F) (h0 : Frm F b s0) : Frm F b (healthStep s0) := by
  unfold healthStep
  repeat' first
    | with_reducible assumption
    | ((with_reducible apply subt hF); rfl)
    | with_reducible apply fr_mk_137438953472
    | simp only [frm_mk]
    | split

theorem fr_burnTo {F : Nat} {b : State} {s0 a1} (hF : 274877906944 ||| F = F) (h0 : Frm F b s0) : Frm F b (burnTo s0 a1) := by
  unfold burnTo
  repeat' first
    | with_reducible assumption
    | ((with_reducible apply subt hF); rfl)
    | with_reducible first | apply fr_otpProgram | apply frm_foldl
    | intro _
    | split

theorem fr_secverBurn {F : Nat} {b : State} {s0 a1} (hF : 824633942024 ||| F = F) (h0 : Frm F b s0) : Frm F b (secverBurn s0 a1) := by
  unfold secverBurn
  repeat' first
    | with_reducible assumption
    | ((with_reducible apply subt hF); rfl)
    | with_reducible first | apply fr_burnTo | apply fr_siltUpd | apply fr_markSlot
    | split
    | dsimp only

theorem fr_confirmTrial {F : Nat} {b : State} {s0 a1} (hF : 824633942024 ||| F = F) (h0 : Frm F b s0) : Frm F b (confirmTrial s0 a1) := by
  unfold confirmTrial
  repeat' first
    | with_reducible assumption
    | ((with_reducible apply subt hF); rfl)
    | with_reducible first | apply fr_markSlot | apply fr_siltUpd | apply fr_State_raise | apply fr_State_bump | apply fr_secverBurn | apply fr_mk_274877906944
    | simp only [frm_mk]
    | split

theorem fr_revertTrial {F : Nat} {b : State} {s0 a1 a2} (hF : 824633942024 ||| F = F) (h0 : Frm F b s0) : Frm F b (revertTrial s0 a1 a2) := by
  unfold revertTrial
  repeat' first
    | with_reducible assumption
    | ((with_reducible apply subt hF); rfl)
    | with_reducible first | apply fr_markSlot | apply fr_siltUpd | apply fr_State_raise | apply fr_State_bump | apply fr_mk_274877906944
    | simp only [frm_mk]

theorem fr_updLast {F : Nat} {b : State} {s0 a1} (hF : 8 ||| F = F) (h0 : Frm F b s0) : Frm F b (updLast s0 a1) := by
  unfold updLast
  repeat' first
    | with_reducible assumption
    | ((with_reducible apply subt hF); rfl)
    | with_reducible apply fr_State_setFld

theorem fr_updComplete {F : Nat} {b : State} {s0 a1 a2 a3 a4} (hF : 549755817992 ||| F = F) (h0 : Frm F b s0) : Frm F b (updComplete s0 a1 a2 a3 a4) := by
  unfold updComplete
  repeat' first
    | with_reducible assumption
    | ((with_reducible apply subt hF); rfl)
    | with_reducible first | apply fr_State_bump | apply fr_updLast | apply fr_ringComplete
    | split

theorem fr_updAnswer {F : Nat} {b : State} {s0 a1 a2 a3 a4 a5} (hF : 584115556360 ||| F = F) (h0 : Frm F b s0) : Frm F b (updAnswer s0 a1 a2 a3 a4 a5) := by
  unfold updAnswer
  repeat' first
    | with_reducible assumption
    | ((with_reducible apply subt hF); rfl)
    | with_reducible first | apply fr_slSend | apply fr_updLast | apply fr_updComplete
    | split

theorem fr_leaveSlot {F : Nat} {b : State} {s0 a1} (hF : 274877906944 ||| F = F) (h0 : Frm F b s0) : Frm F b (leaveSlot s0 a1) := by
  unfold leaveSlot
  repeat' first
    | with_reducible assumption
    | ((with_reducible apply subt hF); rfl)
    | with_reducible first | apply fr_setCodeSlot | apply fr_markTs
    | split

theorem fr_closeSession {F : Nat} {b : State} {s0 a1} (hF : 412316860416 ||| F = F) (h0 : Frm F b s0) : Frm F b (closeSession s0 a1) := by
  unfold closeSession
  repeat' first
    | with_reducible assumption
    | ((with_reducible apply subt hF); rfl)
    | with_reducible first | apply fr_leaveSlot | apply fr_mk_137438953472
    | simp only [frm_mk]

theorem fr_abortSession {F : Nat} {b : State} {s0 a1} (hF : 996432416776 ||| F = F) (h0 : Frm F b s0) : Frm F b (abortSession s0 a1) := by
  unfold abortSession
  repeat' first
    | with_reducible assumption
    | ((with_reducible apply subt hF); rfl)
    | with_reducible first | apply fr_updAnswer | apply fr_closeSession | apply frm_foldl
    | intro _

theorem fr_relayPieces {F : Nat} {b : State} {s0 a1 a2 a3} (hF : 584115552264 ||| F = F) (h0 : Frm F b s0) : Frm F b (relayPieces s0 a1 a2 a3) := by
  unfold relayPieces
  repeat' first
    | with_reducible assumption
    | ((with_reducible apply subt hF); rfl)
    | with_reducible first | apply fr_slSend | apply frm_foldl
    | intro _

theorem fr_tellClose {F : Nat} {b : State} {s0 a1} (hF : 584115552264 ||| F = F) (h0 : Frm F b s0) : Frm F b (tellClose s0 a1) := by
  unfold tellClose
  repeat' first
    | with_reducible assumption
    | ((with_reducible apply subt hF); rfl)
    | with_reducible apply fr_relayPieces
    | split

theorem fr_updOwnerGone {F : Nat} {b : State} {s0 a1} (hF : 996432416776 ||| F = F) (h0 : Frm F b s0) : Frm F b (updOwnerGone s0 a1) := by
  unfold updOwnerGone
  repeat' first
    | with_reducible assumption
    | ((with_reducible apply subt hF); rfl)
    | with_reducible first | apply fr_abortSession | apply fr_tellClose
    | split

theorem fr_updLinkGone {F : Nat} {b : State} {s0} (hF : 996432416776 ||| F = F) (h0 : Frm F b s0) : Frm F b (updLinkGone s0) := by
  unfold updLinkGone
  repeat' first
    | with_reducible assumption
    | ((with_reducible apply subt hF); rfl)
    | with_reducible first | apply fr_closeSession | apply fr_updAnswer | apply frm_foldl
    | intro _
    | split

theorem fr_openSession {F : Nat} {b : State} {s0 a1 a2} (hF : 137438953480 ||| F = F) (h0 : Frm F b s0) : Frm F b (openSession s0 a1 a2) := by
  unfold openSession
  repeat' first
    | with_reducible assumption
    | ((with_reducible apply subt hF); rfl)
    | with_reducible first | apply fr_State_setReg | apply fr_mk_137438953472
    | simp only [frm_mk]
    | split

theorem fr_setSession {F : Nat} {b : State} {s0 a1} (hF : 137438953472 ||| F = F) (h0 : Frm F b s0) : Frm F b (setSession s0 a1) := by
  unfold setSession
  repeat' first
    | with_reducible assumption
    | ((with_reducible apply subt hF); rfl)
    | with_reducible apply fr_mk_137438953472
    | simp only [frm_mk]

theorem fr_startBlock {F : Nat} {b : State} {s0 a1 a2 a3} (hF : 412316860416 ||| F = F) (h0 : Frm F b s0) : Frm F b (startBlock s0 a1 a2 a3) := by
  unfold startBlock
  extract_lets a ks t t1
  have h : Frm F b t := fr_mk_274877906944 (subm hF) h0
  apply fr_setSession (subm hF)
  dsimp only [t1]
  split
  · exact fr_markTs (subm hF) h
  · exact h

theorem fr_headerPassed {F : Nat} {b : State} {s0 a1 a2 a3 a4} (hF : 996432637960 ||| F = F) (h0 : Frm F b s0) : Frm F b (headerPassed s0 a1 a2 a3 a4) := by
  unfold headerPassed
  repeat' first
    | with_reducible assumption
    | ((with_reducible apply subt hF); rfl)
    | with_reducible first | apply fr_updAnswer | apply fr_State_siltRefused | apply fr_siltUpd | apply fr_setCodeSlot | apply fr_startBlock
    | split

theorem fr_runWrite {F : Nat} {b : State} {s0 a1 a2 a3 a4} (hF : 996432637960 ||| F = F) (h0 : Frm F b s0) : Frm F b (runWrite s0 a1 a2 a3 a4) := by
  unfold runWrite
  repeat' first
    | with_reducible assumption
    | ((with_reducible apply subt hF); rfl)
    | with_reducible first | apply fr_updAnswer | apply fr_headerPassed | apply fr_State_bump | apply fr_startBlock
    | split

theorem fr_blockEnds {F : Nat} {b : State} {s0 a1 a2 a3} (hF : 1374389534720 ||| F = F) (h0 : Frm F b s0) : Frm F b (blockEnds s0 a1 a2 a3) := by
  unfold blockEnds
  split
  · exact fr_mk_274877906944 (subm hF) h0
  · exact fr_mk_274877906944 (subm hF) (fr_State_tick1 (subm hF) h0)

theorem fr_finishWith {F : Nat} {b : State} {s0 a1 a2 a3 a4} (hF : 996432416776 ||| F = F) (h0 : Frm F b s0) : Frm F b (finishWith s0 a1 a2 a3 a4) := by
  unfold finishWith
  repeat' first
    | with_reducible assumption
    | ((with_reducible apply subt hF); rfl)
    | with_reducible first | apply fr_closeSession | apply fr_updAnswer

theorem fr_finishConfig {F : Nat} {b : State} {s0 a1 a2} (hF : 996432637960 ||| F = F) (h0 : Frm F b s0) : Frm F b (finishConfig s0 a1 a2) := by
  unfold finishConfig
  repeat' first
    | with_reducible assumption
    | ((with_reducible apply subt hF); rfl)
    | with_reducible first | apply fr_finishWith | apply fr_State_siltRefused | apply fr_closeSession | apply fr_updAnswer | apply fr_markTs | apply fr_siltUpd
    | split

theorem fr_finishReady {F : Nat} {b : State} {s0 a1 a2} (hF : 996432637960 ||| F = F) (h0 : Frm F b s0) : Frm F b (finishReady s0 a1 a2) := by
  unfold finishReady
  repeat' first
    | with_reducible assumption
    | ((with_reducible apply subt hF); rfl)
    | with_reducible first | apply fr_finishWith | apply fr_State_siltRefused | apply fr_siltUpd | apply fr_markSlot
    | split

theorem fr_finishCode {F : Nat} {b : State} {s0 a1 a2} (hF : 996432637960 ||| F = F) (h0 : Frm F b s0) : Frm F b (finishCode s0 a1 a2) := by
  unfold finishCode
  repeat' first
    | with_reducible assumption
    | ((with_reducible apply subt hF); rfl)
    | with_reducible first | apply fr_finishReady | apply fr_finishWith | apply fr_setCodeSlot | apply frm_elim
    | intro _

theorem fr_finishRelay {F : Nat} {b : State} {s0 a1 a2} (hF : 996432416776 ||| F = F) (h0 : Frm F b s0) : Frm F b (finishRelay s0 a1 a2) := by
  unfold finishRelay
  repeat' first
    | with_reducible assumption
    | ((with_reducible apply subt hF); rfl)
    | with_reducible first | apply fr_finishWith | apply frm_elim
    | intro _

theorem fr_runFinish {F : Nat} {b : State} {s0 a1 a2} (hF : 996432637960 ||| F = F) (h0 : Frm F b s0) : Frm F b (runFinish s0 a1 a2) := by
  unfold runFinish
  repeat' first
    | with_reducible assumption
    | ((with_reducible apply subt hF); rfl)
    | with_reducible first | apply fr_finishConfig | apply fr_finishCode | apply fr_finishRelay
    | split

end Sys2Proof.Laws
end

