-- ==== Sys2Proof/Laws/Frame7.lean ====
section
/-!
SUPPORT. `Frm` for the functions of Machine/: RegWrite, StartOps, Lockstep.
-/
set_option linter.unusedVariables false
namespace Sys2Proof.Laws
set_option Elab.async false
open Sys2Proof Sys2Proof.Machine

/-! ### RegWrite -/

theorem fr_shadowWrite {F : Nat} {b : State} {s0 a1 a2 a3} (hF : 549756035336 ||| F = F) (h0 : Frm F b s0) : Frm F b (shadowWrite s0 a1 a2 a3) := by
  unfold shadowWrite
  repeat' first
    | with_reducible assumption
    | ((with_reducible apply subt hF); rfl)
    | with_reducible first | apply fr_logReg | apply fr_State_putShadow

theorem fr_clearBits {F : Nat} {b : State} {s0 a1 a2} (hF : 8 ||| F = F) (h0 : Frm F b s0) : Frm F b (clearBits s0 a1 a2) := by
  unfold clearBits
  repeat' first
    | with_reducible assumption
    | ((with_reducible apply subt hF); rfl)
    | with_reducible apply fr_State_setReg

theorem fr_typeWrite {F : Nat} {b : State} {s0 a1 a2 a3 a4} (hF : 549756035336 ||| F = F) (h0 : Frm F b s0) : Frm F b (typeWrite s0 a1 a2 a3 a4) := by
  unfold typeWrite
  repeat' first
    | with_reducible assumption
    | ((with_reducible apply subt hF); rfl)
    | with_reducible first | apply fr_plainWrite | apply fr_shadowWrite | apply fr_clearBits
    | split

theorem fr_errcapCleared {F : Nat} {b : State} {s0 a1 a2} (hF : 8 ||| F = F) (h0 : Frm F b s0) : Frm F b (errcapCleared s0 a1 a2) := by
  unfold errcapCleared
  repeat' first
    | with_reducible assumption
    | ((with_reducible apply subt hF); rfl)
    | with_reducible apply fr_State_setReg
    | split

theorem fr_irqCleared {F : Nat} {b : State} {s0 a1 a2} (hF : 8 ||| F = F) (h0 : Frm F b s0) : Frm F b (irqCleared s0 a1 a2) := by
  unfold irqCleared
  repeat' first
    | with_reducible assumption
    | ((with_reducible apply subt hF); rfl)
    | with_reducible apply fr_State_setReg

theorem fr_irqEnabled {F : Nat} {b : State} {s0 a1 a2 a3} (hF : 549756035080 ||| F = F) (h0 : Frm F b s0) : Frm F b (irqEnabled s0 a1 a2 a3) := by
  unfold irqEnabled
  repeat' first
    | with_reducible assumption
    | ((with_reducible apply subt hF); rfl)
    | with_reducible first | apply fr_plainWrite | apply fr_State_pageMsg
    | split
    | dsimp only

theorem fr_ctrlWritten {F : Nat} {b : State} {s0 a1 a2 a3} (hF : 549756035272 ||| F = F) (h0 : Frm F b s0) : Frm F b (ctrlWritten s0 a1 a2 a3) := by
  unfold ctrlWritten
  repeat' first
    | with_reducible assumption
    | ((with_reducible apply subt hF); rfl)
    | with_reducible first | apply fr_plainWrite | apply fr_mk_64 | apply fr_mk_128
    | simp only [frm_mk]
    | split

theorem fr_commonWrite {F : Nat} {b : State} {s0 a1 a2 a3 a4} (hF : 549756035528 ||| F = F) (h0 : Frm F b s0) : Frm F b (commonWrite s0 a1 a2 a3 a4) := by
  unfold commonWrite
  repeat' first
    | with_reducible assumption
    | ((with_reducible apply subt hF); rfl)
    | with_reducible first | apply fr_ctrlWritten | apply fr_irqEnabled | apply fr_irqCleared | apply fr_setOwner | apply fr_errcapCleared | apply fr_typeWrite
    | split

theorem fr_sysWrite {F : Nat} {b : State} {s0 a1 a2} (hF : 549772814088 ||| F = F) (h0 : Frm F b s0) : Frm F b (sysWrite s0 a1 a2) := by
  unfold sysWrite
  repeat' first
    | with_reducible assumption
    | ((with_reducible apply subt hF); rfl)
    | with_reducible first | apply fr_goTaken | apply fr_discardTaken
    | split

theorem fr_siltWrite {F : Nat} {b : State} {s0 a1 a2 a3} (hF : 549756035080 ||| F = F) (h0 : Frm F b s0) : Frm F b (siltWrite s0 a1 a2 a3) := by
  unfold siltWrite
  repeat' first
    | with_reducible assumption
    | ((with_reducible apply subt hF); rfl)
    | with_reducible first | apply fr_siltFrees | apply fr_plainWrite | apply fr_State_setReg
    | split

theorem fr_ringRegWrite {F : Nat} {b : State} {s0 a1 a2 a3 a4 a5 a6} (hF : 1791001587976 ||| F = F) (h0 : Frm F b s0) : Frm F b (ringRegWrite s0 a1 a2 a3 a4 a5 a6) := by
  unfold ringRegWrite
  repeat' first
    | with_reducible assumption
    | ((with_reducible apply subt hF); rfl)
    | with_reducible first | apply fr_ringCfgTaken | apply fr_State_setReg | apply fr_typeWrite
    | split

theorem fr_mbxWrite {F : Nat} {b : State} {s0 a1 a2 a3} (hF : 32776 ||| F = F) (h0 : Frm F b s0) : Frm F b (mbxWrite s0 a1 a2 a3) := by
  unfold mbxWrite
  repeat' first
    | with_reducible assumption
    | ((with_reducible apply subt hF); rfl)
    | with_reducible first | apply fr_mbxDoor | apply fr_State_setReg
    | split

theorem fr_autoInc {F : Nat} {b : State} {s0 a1 a2} (hF : 8 ||| F = F) (h0 : Frm F b s0) : Frm F b (autoInc s0 a1 a2) := by
  unfold autoInc
  repeat' first
    | with_reducible assumption
    | ((with_reducible apply subt hF); rfl)
    | with_reducible apply fr_State_setFld
    | split

theorem fr_bwWrite {F : Nat} {b : State} {s0 a1 a2 a3} (hF : 550829776904 ||| F = F) (h0 : Frm F b s0) : Frm F b (bwWrite s0 a1 a2 a3) := by
  unfold bwWrite
  repeat' first
    | with_reducible assumption
    | ((with_reducible apply subt hF); rfl)
    | with_reducible first | apply fr_State_setCan | apply fr_autoInc | apply fr_logReg

theorem fr_canWrite {F : Nat} {b : State} {s0 a1 a2 a3 a4 a5} (hF : 1719060881672 ||| F = F) (h0 : Frm F b s0) : Frm F b (canWrite s0 a1 a2 a3 a4 a5) := by
  unfold canWrite
  repeat' first
    | with_reducible assumption
    | ((with_reducible apply subt hF); rfl)
    | with_reducible first | apply fr_State_setCan | apply fr_askCancel | apply fr_txsGo | apply fr_bwWrite | apply fr_authSet | apply fr_typeWrite
    | split
    | dsimp only

theorem fr_schWrite {F : Nat} {b : State} {s0 a1 a2 a3} (hF : 550829776904 ||| F = F) (h0 : Frm F b s0) : Frm F b (schWrite s0 a1 a2 a3) := by
  unfold schWrite
  repeat' first
    | with_reducible assumption
    | ((with_reducible apply subt hF); rfl)
    | with_reducible first | apply fr_State_setLin | apply fr_autoInc | apply fr_logReg

theorem fr_linWrite {F : Nat} {b : State} {s0 a1 a2 a3 a4 a5} (hF : 550829777160 ||| F = F) (h0 : Frm F b s0) : Frm F b (linWrite s0 a1 a2 a3 a4 a5) := by
  unfold linWrite
  repeat' first
    | with_reducible assumption
    | ((with_reducible apply subt hF); rfl)
    | with_reducible first | apply fr_linAwakes | apply fr_State_bump | apply fr_State_emit | apply fr_schWrite | apply fr_State_setReg | apply fr_State_setBitAt | apply fr_typeWrite
    | split
    | dsimp only

theorem fr_lvcLatched {F : Nat} {b : State} {s0 a1} (hF : 8 ||| F = F) (h0 : Frm F b s0) : Frm F b (lvcLatched s0 a1) := by
  unfold lvcLatched
  repeat' first
    | with_reducible assumption
    | ((with_reducible apply subt hF); rfl)
    | with_reducible first | apply fr_State_setReg | apply frm_foldl
    | intro _

theorem fr_gweWrite {F : Nat} {b : State} {s0 a1 a2 a3 a4 a5} (hF : 1718003917064 ||| F = F) (h0 : Frm F b s0) : Frm F b (gweWrite s0 a1 a2 a3 a4 a5) := by
  unfold gweWrite
  repeat' first
    | with_reducible assumption
    | ((with_reducible apply subt hF); rfl)
    | with_reducible first | apply fr_gweReadOp | apply fr_gweStageOp | apply fr_lvcLatched | apply fr_State_setReg | apply fr_typeWrite
    | split
    | dsimp only

theorem fr_mscWrite {F : Nat} {b : State} {s0 a1 a2 a3 a4 a5} (hF : 2006823690504 ||| F = F) (h0 : Frm F b s0) : Frm F b (mscWrite s0 a1 a2 a3 a4 a5) := by
  unfold mscWrite
  repeat' first
    | with_reducible assumption
    | ((with_reducible apply subt hF); rfl)
    | with_reducible first | apply fr_selectSa | apply fr_tryInstall | apply fr_removeSa | apply fr_typeWrite
    | split
    | dsimp only

theorem fr_macWrite {F : Nat} {b : State} {s0 a1 a2 a3 a4 a5} (hF : 549757083912 ||| F = F) (h0 : Frm F b s0) : Frm F b (macWrite s0 a1 a2 a3 a4 a5) := by
  unfold macWrite
  repeat' first
    | with_reducible assumption
    | ((with_reducible apply subt hF); rfl)
    | with_reducible first | apply fr_mdioStart | apply fr_typeWrite
    | split

theorem fr_tphyWrite {F : Nat} {b : State} {s0 a1 a2 a3 a4 a5} (hF : 550293954824 ||| F = F) (h0 : Frm F b s0) : Frm F b (tphyWrite s0 a1 a2 a3 a4 a5) := by
  unfold tphyWrite
  repeat' first
    | with_reducible assumption
    | ((with_reducible apply subt hF); rfl)
    | with_reducible first | apply fr_tc10Negotiate | apply fr_tc10Wake | apply fr_cableStart | apply fr_typeWrite
    | split
    | dsimp only

theorem fr_laneWrite {F : Nat} {b : State} {s0 a1 a2 a3 a4 a5 a6} (hF : 1753239478536 ||| F = F) (h0 : Frm F b s0) : Frm F b (laneWrite s0 a1 a2 a3 a4 a5 a6) := by
  unfold laneWrite
  repeat' first
    | with_reducible assumption
    | ((with_reducible apply subt hF); rfl)
    | with_reducible first | apply fr_prbsWrite | apply fr_typeWrite
    | split

theorem fr_slRegWrite {F : Nat} {b : State} {s0 a1 a2 a3 a4} (hF : 1753239478536 ||| F = F) (h0 : Frm F b s0) : Frm F b (slRegWrite s0 a1 a2 a3 a4) := by
  unfold slRegWrite
  repeat' first
    | with_reducible assumption
    | ((with_reducible apply subt hF); rfl)
    | with_reducible first | apply fr_typeWrite | apply fr_laneWrite
    | split
    | dsimp only

theorem fr_entLatched {F : Nat} {b : State} {s0 a1} (hF : 8 ||| F = F) (h0 : Frm F b s0) : Frm F b (entLatched s0 a1) := by
  unfold entLatched
  repeat' first
    | with_reducible assumption
    | ((with_reducible apply subt hF); rfl)
    | with_reducible first | apply fr_State_setReg | apply fr_State_setPair | apply frm_foldl
    | intro _
    | split

theorem fr_recLatched {F : Nat} {b : State} {s0 a1} (hF : 1099511627784 ||| F = F) (h0 : Frm F b s0) : Frm F b (recLatched s0 a1) := by
  unfold recLatched
  repeat' first
    | with_reducible assumption
    | ((with_reducible apply subt hF); rfl)
    | with_reducible first | apply fr_State_setReg | apply fr_mk_1099511627776 | apply frm_foldl
    | simp only [frm_mk]
    | intro _

theorem fr_attrWrite {F : Nat} {b : State} {s0 a1 a2 a3 a4} (hF : 618475511816 ||| F = F) (h0 : Frm F b s0) : Frm F b (attrWrite s0 a1 a2 a3 a4) := by
  unfold attrWrite
  repeat' first
    | with_reducible assumption
    | ((with_reducible apply subt hF); rfl)
    | with_reducible first | apply fr_logReg | apply fr_mk_68719476736
    | simp only [frm_mk]

theorem fr_fltWrite {F : Nat} {b : State} {s0 a1 a2 a3 a4} (hF : 1717987139848 ||| F = F) (h0 : Frm F b s0) : Frm F b (fltWrite s0 a1 a2 a3 a4) := by
  unfold fltWrite
  repeat' first
    | with_reducible assumption
    | ((with_reducible apply subt hF); rfl)
    | with_reducible first | apply fr_attrWrite | apply fr_entLatched | apply fr_State_setReg | apply fr_recLatched | apply fr_fltInjTaken | apply fr_typeWrite
    | split
    | dsimp only

theorem fr_kicked {F : Nat} {b : State} {s0} (hF : 17179869184 ||| F = F) (h0 : Frm F b s0) : Frm F b (kicked s0) := by
  unfold kicked
  repeat' first
    | with_reducible assumption
    | ((with_reducible apply subt hF); rfl)
    | with_reducible apply fr_mk_17179869184
    | simp only [frm_mk]

theorem fr_mirrorLatched {F : Nat} {b : State} {s0 a1} (hF : 8 ||| F = F) (h0 : Frm F b s0) : Frm F b (mirrorLatched s0 a1) := by
  unfold mirrorLatched
  repeat' first
    | with_reducible assumption
    | ((with_reducible apply subt hF); rfl)
    | with_reducible first | apply fr_State_setReg | apply frm_foldl
    | intro _

theorem fr_twnWrite {F : Nat} {b : State} {s0 a1 a2 a3 a4} (hF : 566935904520 ||| F = F) (h0 : Frm F b s0) : Frm F b (twnWrite s0 a1 a2 a3 a4) := by
  unfold twnWrite
  repeat' first
    | with_reducible assumption
    | ((with_reducible apply subt hF); rfl)
    | with_reducible first | apply fr_kicked | apply fr_mirrorLatched | apply fr_State_setReg | apply fr_typeWrite
    | split
    | dsimp only

theorem fr_updSessWrite {F : Nat} {b : State} {s0 a1 a2} (hF : 412316860424 ||| F = F) (h0 : Frm F b s0) : Frm F b (updSessWrite s0 a1 a2) := by
  unfold updSessWrite
  repeat' first
    | with_reducible assumption
    | ((with_reducible apply subt hF); rfl)
    | with_reducible first | apply fr_openSession | apply fr_closeSession
    | split

theorem fr_blockWrite {F : Nat} {b : State} {s0 a1 a2 a3 a4 a5} (hF : 2196695410440 ||| F = F) (h0 : Frm F b s0) : Frm F b (blockWrite s0 a1 a2 a3 a4 a5) := by
  unfold blockWrite
  repeat' first
    | with_reducible assumption
    | ((with_reducible apply subt hF); rfl)
    | with_reducible first | apply fr_sysWrite | apply fr_typeWrite | apply fr_semFree | apply fr_siltWrite | apply fr_mbxWrite | apply fr_captWrite | apply fr_macWrite | apply fr_logReg | apply fr_gclWrite | apply fr_slRegWrite | apply fr_laneWrite | apply fr_tphyWrite | apply fr_canWrite | apply fr_linWrite | apply fr_gweWrite | apply fr_mscWrite | apply fr_gmSet | apply fr_ppoWrite | apply fr_memInjTaken | apply fr_lspInjTaken | apply fr_fltWrite | apply fr_twnWrite | apply fr_updSessWrite
    | split
    | dsimp only

theorem fr_written {F : Nat} {b : State} {s0 a1 a2 a3 a4} (hF : 2196695414728 ||| F = F) (h0 : Frm F b s0) : Frm F b (written s0 a1 a2 a3 a4) := by
  unfold written
  repeat' first
    | with_reducible assumption
    | ((with_reducible apply subt hF); rfl)
    | with_reducible first | apply fr_ringRegWrite | apply fr_commonWrite | apply fr_blockWrite | apply fr_typeWrite
    | split

theorem fr_pairApply {F : Nat} {b : State} {s0 a1 a2 a3 a4} (hF : 2196695414760 ||| F = F) (h0 : Frm F b s0) : Frm F b (pairApply s0 a1 a2 a3 a4) := by
  unfold pairApply
  repeat' first
    | with_reducible assumption
    | ((with_reducible apply subt hF); rfl)
    | with_reducible first | apply fr_written | apply fr_State_setHeld
    | split

theorem fr_pairHold {F : Nat} {b : State} {s0 a1 a2 a3} (hF : 32 ||| F = F) (h0 : Frm F b s0) : Frm F b (pairHold s0 a1 a2 a3) := by
  unfold pairHold
  repeat' first
    | with_reducible assumption
    | ((with_reducible apply subt hF); rfl)
    | with_reducible apply fr_State_setHeld

theorem fr_accepted {F : Nat} {b : State} {s0 a1 a2 a3} (hF : 2196695414760 ||| F = F) (h0 : Frm F b s0) : Frm F b (accepted s0 a1 a2 a3) := by
  unfold accepted
  repeat' first
    | with_reducible assumption
    | ((with_reducible apply subt hF); rfl)
    | with_reducible first | apply fr_written | apply fr_pairApply | apply fr_pairHold
    | split

theorem fr_saCtrlWrite {F : Nat} {b : State} {s0 a1 a2 a3 a4 a5} (hF : 2006823690248 ||| F = F) (h0 : Frm F b s0) : Frm F b (saCtrlWrite s0 a1 a2 a3 a4 a5) := by
  unfold saCtrlWrite
  repeat' first
    | with_reducible assumption
    | ((with_reducible apply subt hF); rfl)
    | with_reducible first | apply fr_State_refuse | apply fr_tryInstall
    | split

theorem fr_regWrite {F : Nat} {b : State} {s0 a1 a2 a3 a4} (hF : 2196695414760 ||| F = F) (h0 : Frm F b s0) : Frm F b (regWrite s0 a1 a2 a3 a4) := by
  unfold regWrite
  repeat' first
    | with_reducible assumption
    | ((with_reducible apply subt hF); rfl)
    | with_reducible first | apply fr_saCtrlWrite | apply fr_State_refuse | apply fr_accepted
    | split

theorem fr_bar2Write {F : Nat} {b : State} {s0 a1 a2 a3 a4 a5} (hF : 2196695414760 ||| F = F) (h0 : Frm F b s0) : Frm F b (bar2Write s0 a1 a2 a3 a4 a5) := by
  unfold bar2Write
  repeat' first
    | with_reducible assumption
    | ((with_reducible apply subt hF); rfl)
    | with_reducible first | apply fr_State_refuse | apply fr_regWrite
    | split

theorem fr_masterWrite {F : Nat} {b : State} {s0 a1 a2 a3 a4} (hF : 2196695414760 ||| F = F) (h0 : Frm F b s0) : Frm F b (masterWrite s0 a1 a2 a3 a4) := by
  unfold masterWrite
  repeat' first
    | with_reducible assumption
    | ((with_reducible apply subt hF); rfl)
    | with_reducible first | apply fr_whenever | apply fr_msixWrite | apply fr_bar2Write | apply fr_regWrite
    | split

theorem fr_execRegisterWrite {F : Nat} {b : State} {a0 a1 a2 a3 s4} (hF : 2196695414760 ||| F = F) (h4 : Frm F b s4) : FrmR F b (execRegisterWrite a0 a1 a2 a3 s4) := by
  unfold execRegisterWrite
  repeat' first
    | with_reducible assumption
    | ((with_reducible apply subt hF); rfl)
    | with_reducible first | apply fr_ifWf | apply fr_masterWrite

theorem fr_execPairHiWrite {F : Nat} {b : State} {a0 a1 a2 s3} (hF : 549755969576 ||| F = F) (h3 : Frm F b s3) : FrmR F b (execPairHiWrite a0 a1 a2 s3) := by
  unfold execPairHiWrite
  repeat' first
    | with_reducible assumption
    | ((with_reducible apply subt hF); rfl)
    | with_reducible first | apply fr_ifWf | apply fr_State_write | apply fr_pairHold

theorem fr_execPairLoWrite {F : Nat} {b : State} {a0 a1 a2 s3} (hF : 2196695414760 ||| F = F) (h3 : Frm F b s3) : FrmR F b (execPairLoWrite a0 a1 a2 s3) := by
  unfold execPairLoWrite
  repeat' first
    | with_reducible assumption
    | ((with_reducible apply subt hF); rfl)
    | with_reducible first | apply fr_ifWf | apply fr_State_write | apply fr_pairApply
    | split

theorem fr_execErrcapClear {F : Nat} {b : State} {a0 a1 s2} (hF : 549755969544 ||| F = F) (h2 : Frm F b s2) : FrmR F b (execErrcapClear a0 a1 s2) := by
  unfold execErrcapClear
  repeat' first
    | with_reducible assumption
    | ((with_reducible apply subt hF); rfl)
    | with_reducible first | apply fr_ifWf | apply fr_State_write | apply fr_errcapCleared

theorem fr_execIrqClrWrite {F : Nat} {b : State} {a0 a1 a2 s3} (hF : 549755969544 ||| F = F) (h3 : Frm F b s3) : FrmR F b (execIrqClrWrite a0 a1 a2 s3) := by
  unfold execIrqClrWrite
  repeat' first
    | with_reducible assumption
    | ((with_reducible apply subt hF); rfl)
    | with_reducible first | apply fr_ifWf | apply fr_State_write | apply fr_irqCleared

theorem fr_execIrqEnWrite {F : Nat} {b : State} {a0 a1 a2 s3} (hF : 549756035080 ||| F = F) (h3 : Frm F b s3) : FrmR F b (execIrqEnWrite a0 a1 a2 s3) := by
  unfold execIrqEnWrite
  repeat' first
    | with_reducible assumption
    | ((with_reducible apply subt hF); rfl)
    | with_reducible first | apply fr_ifWf | apply fr_State_write | apply fr_irqEnabled

/-! ### StartOps -/

theorem fr_fresh {F : Nat} {b : State} {s0 a1 n} (hF : 1649267441662 ||| F = F) (h0 : Frm F b s0) (e : n.otp = s0.nvm.otp) : Frm F b (fresh s0 a1 n) where
  pending := h0.pending
  cclk := .inl (bitm hF rfl)
  mode := .inl (bitm hF rfl)
  regs := .inl (bitm hF rfl)
  latched := .inl (bitm hF rfl)
  held := .inl (bitm hF rfl)
  ctrlLockA := .inl (bitm hF rfl)
  ctrlLockB := .inl (bitm hF rfl)
  shadows := .inl (bitm hF rfl)
  commits := .inl (bitm hF rfl)
  partNo := .inl (bitm hF rfl)
  hist := .inl (bitm hF rfl)
  rings := .inl (bitm hF rfl)
  msixA := .inl (bitm hF rfl)
  msixB := .inl (bitm hF rfl)
  mbx := .inl (bitm hF rfl)
  silt := .inl (bitm hF rfl)
  msgPages := .inl (bitm hF rfl)
  pb := .inl (bitm hF rfl)
  gpio := .inl (bitm hF rfl)
  ports := .inl (bitm hF rfl)
  ptp := .inl (bitm hF rfl)
  power := .inl (bitm hF rfl)
  prs := .inl (bitm hF rfl)
  tables := .inl (bitm hF rfl)
  policing := .inl (bitm hF rfl)
  frames := .inl (bitm hF rfl)
  nextFrame := .inl (bitm hF rfl)
  fab := .inl (bitm hF rfl)
  egress := .inl (bitm hF rfl)
  buses := .inl (bitm hF rfl)
  gwe := .inl (bitm hF rfl)
  cipher := .inl (bitm hF rfl)
  keys := .inl (bitm hF rfl)
  twin := .inl (bitm hF rfl)
  sl := .inl (bitm hF rfl)
  faults := .inl (bitm hF rfl)
  upd := .inl (bitm hF rfl)
  nvm := .inl (bitm hF rfl)
  out := h0.out
  free := .inl (bitm hF rfl)

theorem fr_wiped {F : Nat} {b : State} {s0 a1} (hF : 1649267441662 ||| F = F) (h0 : Frm F b s0) : Frm F b (wiped s0 a1) := by
  unfold wiped
  exact fr_State_bump (subm hF) (fr_State_setReg (subm hF) (fr_fresh (subm hF) h0 rfl))

theorem fr_deriveKeys {F : Nat} {b : State} {s0 a1} (hF : 8589934600 ||| F = F) (h0 : Frm F b s0) : Frm F b (deriveKeys s0 a1).1 := by
  unfold deriveKeys
  repeat' first
    | with_reducible assumption
    | ((with_reducible apply subt hF); rfl)
    | with_reducible first | apply fr_State_setKeySlot | apply fr_State_setBitAt | apply fr_mk_8589934592
    | simp only [frm_mk]
    | split

theorem fr_deviceKeys {F : Nat} {b : State} {s0} (hF : 1726577008648 ||| F = F) (h0 : Frm F b s0) : Frm F b (deviceKeys s0).1 := by
  unfold deviceKeys
  repeat' first
    | with_reducible assumption
    | ((with_reducible apply subt hF); rfl)
    | with_reducible first | apply fr_State_setBitAt | apply fr_State_setReg | apply fr_State_report | apply fr_State_raise | apply fr_deriveKeys | apply fr_mk_1099511627776
    | simp only [frm_mk]
    | split

theorem fr_powerOnTests {F : Nat} {b : State} {s0} (hF : 1168231104520 ||| F = F) (h0 : Frm F b s0) : Frm F b (powerOnTests s0).1 := by
  unfold powerOnTests
  repeat' first
    | with_reducible assumption
    | ((with_reducible apply subt hF); rfl)
    | with_reducible first | apply fr_State_setReg | apply fr_State_report | apply fr_mk_1099511627776
    | simp only [frm_mk]
    | split

theorem fr_testResults {F : Nat} {b : State} {s0} (hF : 1168231104520 ||| F = F) (h0 : Frm F b s0) : Frm F b (testResults s0).1 := by
  unfold testResults
  repeat' first
    | with_reducible assumption
    | ((with_reducible apply subt hF); rfl)
    | with_reducible first | apply fr_State_setReg | apply fr_State_report | apply fr_mk_1099511627776
    | simp only [frm_mk]
    | split

theorem fr_startTests {F : Nat} {b : State} {s0 a1} (hF : 1168231104520 ||| F = F) (h0 : Frm F b s0) : Frm F b (startTests s0 a1).1 := by
  unfold startTests
  repeat' first
    | with_reducible assumption
    | ((with_reducible apply subt hF); rfl)
    | with_reducible first | apply fr_powerOnTests | apply fr_testResults
    | split

theorem fr_trialStep {F : Nat} {b : State} {s0} (hF : 824633942024 ||| F = F) (h0 : Frm F b s0) : Frm F b (trialStep s0) := by
  unfold trialStep
  repeat' first
    | with_reducible assumption
    | ((with_reducible apply subt hF); rfl)
    | with_reducible first | apply fr_markSlot | apply fr_siltUpd | apply fr_State_raise | apply fr_State_bump | apply fr_mk_274877906944
    | simp only [frm_mk]
    | split

theorem fr_slotFails {F : Nat} {b : State} {s0 a1} (hF : 824633942024 ||| F = F) (h0 : Frm F b s0) : Frm F b (slotFails s0 a1) := by
  unfold slotFails
  repeat' first
    | with_reducible assumption
    | ((with_reducible apply subt hF); rfl)
    | with_reducible first | apply fr_siltUpd | apply fr_State_raise | apply fr_State_bump | apply fr_markSlot | apply fr_mk_274877906944
    | simp only [frm_mk]
    | split

theorem fr_chooseSlot {F : Nat} {b : State} {a0 s1} (hF : 824633942024 ||| F = F) (h1 : Frm F b s1) : Frm F b (chooseSlot a0 s1).1 := by
  induction a0 generalizing s1 with
  | nil => exact h1
  | cons j rest ih =>
    unfold chooseSlot
    split
    · exact ih (fr_markSlot (subm hF) h1)
    · split
      · split
        · exact fr_markSlot (subm hF) h1
        · exact h1
      · exact ih (fr_slotFails (subm hF) h1)

theorem fr_bootSlot {F : Nat} {b : State} {s0} (hF : 824633942024 ||| F = F) (h0 : Frm F b s0) : Frm F b (bootSlot s0).1 := by
  unfold bootSlot
  repeat' first
    | with_reducible assumption
    | ((with_reducible apply subt hF); rfl)
    | with_reducible first | apply fr_trialStep | apply fr_chooseSlot

theorem fr_restoreBlob {F : Nat} {b : State} {s0 a1} (hF : 1726577074184 ||| F = F) (h0 : Frm F b s0) : Frm F b (restoreBlob s0 a1) := by
  unfold restoreBlob
  repeat' first
    | with_reducible assumption
    | ((with_reducible apply subt hF); rfl)
    | with_reducible first | apply fr_siltKey | apply fr_State_report | apply fr_State_raise | apply fr_State_bump | apply fr_State_setKeySlot | apply fr_mk_1099511627776
    | simp only [frm_mk]
    | split

theorem fr_restoreKeys {F : Nat} {b : State} {s0} (hF : 2001454981128 ||| F = F) (h0 : Frm F b s0) : Frm F b (restoreKeys s0) := by
  unfold restoreKeys
  repeat' first
    | with_reducible assumption
    | ((with_reducible apply subt hF); rfl)
    | with_reducible first | apply fr_State_setBitAt | apply fr_State_setKeySlot | apply fr_restoreBlob | apply fr_siltKey | apply fr_State_tick1 | apply fr_mk_274877906944 | apply frm_foldl
    | simp only [frm_mk]
    | intro _
    | split

theorem fr_tsRegs {F : Nat} {b : State} {a0 a1 s2} (hF : 2196695414760 ||| F = F) (h2 : Frm F b s2) : ∀ t, (tsRegs a0 a1 s2) = some t → Frm F b t := by
  induction a0 generalizing a1 s2 with
  | zero => intro t ht; cases ht; exact h2
  | succ n ih =>
    intro t ht
    unfold tsRegs at ht
    dsimp only at ht
    split at ht
    · cases ht
    · exact ih (fr_regWrite (subm hF) h2) t ht

theorem fr_tsEntry {F : Nat} {b : State} {s0 a1 a2 a3 a4} (hF : 549772812296 ||| F = F) (h0 : Frm F b s0) : ∀ t, (tsEntry s0 a1 a2 a3 a4) = some t → Frm F b t := by
  intro t ht
  unfold tsEntry at ht
  split at ht
  · cases ht
  · split at ht
    · split at ht
      · cases ht; exact fr_stageOne (subm hF) h0
      · cases ht
    · split at ht
      · split at ht
        · cases ht; exact fr_stageOne (subm hF) h0
        · rw [Option.map_eq_some_iff] at ht
          obtain ⟨w, -, rfl⟩ := ht
          exact frm_foldl (fun _ _ h => fr_stageOne (subm hF) h) h0
      · cases ht

theorem fr_tsTables {F : Nat} {b : State} {a0 a1 s2} (hF : 549772812296 ||| F = F) (h2 : Frm F b s2) : ∀ t, (tsTables a0 a1 s2) = some t → Frm F b t := by
  induction a0 generalizing a1 s2 with
  | zero => intro t ht; cases ht; exact h2
  | succ n ih =>
    intro t ht
    unfold tsTables at ht
    dsimp only at ht
    split at ht
    · cases ht; exact h2
    · split at ht
      · cases ht
      · split at ht
        · cases ht
        · exact ih (fr_tsEntry (subm hF) h2 _ (by assumption)) t ht

theorem fr_cfgErr {F : Nat} {b : State} {s0 a1} (hF : 8 ||| F = F) (h0 : Frm F b s0) : Frm F b (cfgErr s0 a1) := by
  unfold cfgErr
  repeat' first
    | with_reducible assumption
    | ((with_reducible apply subt hF); rfl)
    | with_reducible apply fr_State_setFld

theorem fr_tsReject {F : Nat} {b : State} {s0 a1 a2} (hF : 824633942024 ||| F = F) (h0 : Frm F b s0) : Frm F b (tsReject s0 a1 a2) := by
  unfold tsReject
  repeat' first
    | with_reducible assumption
    | ((with_reducible apply subt hF); rfl)
    | with_reducible first | apply fr_siltUpd | apply fr_cfgErr | apply fr_State_raise | apply fr_State_bump | apply fr_markTs

theorem fr_tsInUse {F : Nat} {b : State} {s0 a1 a2} (hF : 824638136328 ||| F = F) (h0 : Frm F b s0) : Frm F b (tsInUse s0 a1 a2) := by
  unfold tsInUse
  repeat' first
    | with_reducible assumption
    | ((with_reducible apply subt hF); rfl)
    | with_reducible first | apply fr_markTs | apply fr_siltUpd | apply fr_mk_274882101248
    | simp only [frm_mk]

theorem fr_runWait {F : Nat} {b : State} {s0} (hF : 549776941064 ||| F = F) (h0 : Frm F b s0) : Frm F b (runWait s0) := by
  unfold runWait
  repeat' first
    | with_reducible assumption
    | ((with_reducible apply subt hF); rfl)
    | with_reducible first | apply fr_State_raise | apply fr_mk_20971520
    | simp only [frm_mk]

theorem fr_migrateFails {F : Nat} {b : State} {s0 s1 a2} (hF : 549777006600 ||| F = F) (h0 : Frm F b s0) (h1 : Frm F b s1) : Frm F b (migrateFails s0 s1 a2) := by
  unfold migrateFails
  repeat' first
    | with_reducible assumption
    | ((with_reducible apply subt hF); rfl)
    | with_reducible first | apply fr_runWait | apply fr_siltUpd | apply fr_cfgErr

theorem fr_migrateWrites {F : Nat} {b : State} {s0 a1 a2} (hF : 1374389534720 ||| F = F) (h0 : Frm F b s0) : Frm F b (migrateWrites s0 a1 a2) := by
  unfold migrateWrites
  exact fr_mk_1374389534720 (subm hF) h0

theorem fr_migratePasses {F : Nat} {b : State} {s0 s1 a2} (hF : 824638136328 ||| F = F) (h0 : Frm F b s0) (h1 : Frm F b s1) : Frm F b (migratePasses s0 s1 a2) := by
  unfold migratePasses
  repeat' first
    | with_reducible assumption
    | ((with_reducible apply subt hF); rfl)
    | with_reducible first | apply fr_tsInUse | apply fr_siltUpd | apply fr_State_raise

theorem fr_tsGoes {F : Nat} {b : State} {x : TsTry} {p : State → State} {f : Nat → State} {y z : State} (hF : 0 ||| F = F)
    (hp : ∀ u, x = .pass u → Frm F b (p u)) (hf : ∀ e, Frm F b (f e)) (hb : Frm F b y) (ha : Frm F b z) :
    Frm F b (tsGoes x p f y z) := by
  cases x with
  | pass u => exact hp u rfl
  | fail e => exact hf e
  | below => exact hb
  | above => exact ha

theorem frm_tsArm {F : Nat} {b : State} {s u : State} (hF : 549772748552 ||| F = F) (h : Frm F b s) (e : tsArm s = .pass u) : Frm F b u := by
  have hg : Frm F b (goTaken s whoMp0 0) := fr_goTaken (subm hF) h
  unfold tsArm at e
  extract_lets armed at e
  have hg : Frm F b armed := hg
  clear_value armed
  obtain ⟨x, -, e⟩ := elim_pass e
  have e := elim_fail e
  cases e
  exact hg

theorem frm_tsSchema {F : Nat} {b : State} {s u : State} {j : Nat} (hF : 2196695414760 ||| F = F) (h : Frm F b s) (e : tsSchema s j = .pass u) : Frm F b u := by
  unfold tsSchema at e
  extract_lets r tb at e
  clear_value r tb
  obtain ⟨t, ht, e⟩ := elim_pass e
  obtain ⟨v, hv, e⟩ := elim_pass e
  split at e
  · cases e
  · exact frm_tsArm (subm hF) (fr_tsTables (subm hF) (fr_tsRegs (subm hF) h _ ht) _ hv) e

theorem frm_tsTry {F : Nat} {b : State} {s u : State} {j : Nat} (hF : 2196695414760 ||| F = F) (h : Frm F b s) (e : tsTry s j = .pass u) : Frm F b u := by
  unfold tsTry at e
  extract_lets bs at e
  clear_value bs
  have e := elim_fail e
  split at e
  · cases e
  · split at e
    · cases e
    · exact frm_tsSchema (subm hF) h e

theorem fr_tsMigrate {F : Nat} {b : State} {s0 a1} (hF : 2196699609064 ||| F = F) (h0 : Frm F b s0) : Frm F b (tsMigrate s0 a1) := by
  have hf : ∀ t, Frm F b t → Frm F b (migrateFails s0 t a1) := fun _ h => fr_runWait (subm hF) (fr_siltUpd (subm hF) (fr_cfgErr (subm hF) h))
  unfold tsMigrate
  refine frm_elim (hf _ h0) (fun img => ?_)
  have ht : Frm F b (migrateWrites s0 a1 img) := fr_migrateWrites (subm hF) h0
  exact fr_tsGoes (subm hF) (fun u hu => fr_migratePasses (subm hF) h0 (frm_tsTry (subm hF) ht hu)) (fun _ => hf _ ht) (hf _ ht) (hf _ ht)

theorem fr_tsChoose {F : Nat} {b : State} {a0 s1} (hF : 2196699609064 ||| F = F) (h1 : Frm F b s1) : Frm F b (tsChoose a0 s1) := by
  induction a0 generalizing s1 with
  | nil => exact fr_runWait (subm hF) h1
  | cons j rest ih =>
    unfold tsChoose
    refine fr_tsGoes (subm hF) (fun u hu => fr_tsInUse (subm hF) (frm_tsTry (subm hF) h1 hu)) (fun e => ih ?_) (fr_tsMigrate (subm hF) h1) (ih h1)
    split
    · exact fr_tsReject (subm hF) h1
    · exact h1

theorem fr_lanesTrain {F : Nat} {b : State} {s0} (hF : 1048576 ||| F = F) (h0 : Frm F b s0) : Frm F b (lanesTrain s0) := by
  unfold lanesTrain
  repeat' first
    | with_reducible assumption
    | ((with_reducible apply subt hF); rfl)
    | with_reducible first | apply fr_State_setMac | apply frm_foldl
    | intro _
    | split

theorem fr_enterConfigure {F : Nat} {b : State} {s0} (hF : 2198855481324 ||| F = F) (h0 : Frm F b s0) : Frm F b (enterConfigure s0) := by
  unfold enterConfigure
  repeat' first
    | with_reducible assumption
    | ((with_reducible apply subt hF); rfl)
    | with_reducible first | apply fr_setMode | apply fr_lanesTrain | apply fr_tsChoose | apply fr_mk_2424307712
    | simp only [frm_mk]

theorem fr_leaveBoot {F : Nat} {b : State} {s0 a1} (hF : 2198855481324 ||| F = F) (h0 : Frm F b s0) : Frm F b (leaveBoot s0 a1) := by
  unfold leaveBoot
  repeat' first
    | with_reducible assumption
    | ((with_reducible apply subt hF); rfl)
    | with_reducible first | apply fr_quarantine | apply fr_enterConfigure
    | split

theorem fr_bootNone {F : Nat} {b : State} {s0} (hF : 4194304 ||| F = F) (h0 : Frm F b s0) : Frm F b (bootNone s0) := by
  unfold bootNone
  repeat' first
    | with_reducible assumption
    | ((with_reducible apply subt hF); rfl)
    | with_reducible apply fr_mk_4194304
    | simp only [frm_mk]

theorem fr_bootTaken {F : Nat} {b : State} {s0 a1} (hF : 2138898128904 ||| F = F) (h0 : Frm F b s0) : Frm F b (bootTaken s0 a1) := by
  unfold bootTaken
  repeat' first
    | with_reducible assumption
    | ((with_reducible apply subt hF); rfl)
    | with_reducible first | apply fr_restoreKeys | apply fr_mk_137443147776
    | simp only [frm_mk]

theorem fr_bootBad {F : Nat} {b : State} {s0 a1} (hF : 824638136328 ||| F = F) (h0 : Frm F b s0) : Frm F b (bootBad s0 a1) := by
  unfold bootBad
  repeat' first
    | with_reducible assumption
    | ((with_reducible apply subt hF); rfl)
    | with_reducible first | apply fr_slotFails | apply fr_mk_4194304
    | simp only [frm_mk]

theorem fr_bootDone {F : Nat} {b : State} {s0} (hF : 2198855481324 ||| F = F) (h0 : Frm F b s0) : Frm F b (bootDone s0) := by
  unfold bootDone
  repeat' first
    | with_reducible assumption
    | ((with_reducible apply subt hF); rfl)
    | with_reducible first | apply fr_leaveBoot | apply fr_mk_4194304
    | simp only [frm_mk]

theorem fr_bootOn {F : Nat} {b : State} {a0 s1} (hF : 2198855481324 ||| F = F) (h0 : ∀ x0, Frm F b x0 → Frm F b (a0 x0)) (h1 : Frm F b s1) : Frm F b (bootOn a0 s1) := by
  have hr := fr_bootSlot (subm hF) h1
  unfold bootOn
  refine frm_elim (fr_bootNone (subm hF) hr) (fun j => ?_)
  have hu := fr_bootTaken (subm hF) (a1 := j) hr
  dsimp only
  split
  · exact h0 _ (fr_bootBad (subm hF) hu)
  · exact fr_bootDone (subm hF) hu

theorem fr_startFrom {F : Nat} {b : State} {a0 a1 s2} (hF : 2199023255550 ||| F = F) (h2 : Frm F b s2) : Frm F b (startFrom a0 a1 s2) := by
  induction a0 generalizing a1 s2 with
  | zero => exact h2
  | succ n ih =>
    unfold startFrom
    refine fr_bootOn (subm hF) (fun _ h => ih h) ?_
    simp only [frm_mk]
    exact fr_mk_4194304 (subm hF) (fr_deviceKeys (subm hF) (fr_startTests (subm hF) (fr_wiped (subm hF) h2)))

theorem fr_start {F : Nat} {b : State} {a0 s1} (hF : 2199023255550 ||| F = F) (h1 : Frm F b s1) : Frm F b (start a0 s1) := by
  unfold start
  repeat' first
    | with_reducible assumption
    | ((with_reducible apply subt hF); rfl)
    | with_reducible apply fr_startFrom

theorem fr_bootRestart {F : Nat} {b : State} {s0} (hF : 2199023255550 ||| F = F) (h0 : Frm F b s0) : Frm F b (bootRestart s0) := by
  unfold bootRestart
  repeat' first
    | with_reducible assumption
    | ((with_reducible apply subt hF); rfl)
    | with_reducible first | apply fr_bootOn | apply fr_startFrom
    | intro _

/-! ### Lockstep -/

theorem fr_pairFail {F : Nat} {b : State} {s0 a1 a2} (hF : 2199023255550 ||| F = F) (h0 : Frm F b s0) : Frm F b (pairFail s0 a1 a2) := by
  unfold pairFail
  repeat' first
    | with_reducible assumption
    | ((with_reducible apply subt hF); rfl)
    | with_reducible first | apply fr_State_setPairSt | apply fr_State_setFld | apply fr_State_setBitAt | apply fr_State_report | apply fr_aliveFall | apply fr_State_raise | apply fr_start | apply fr_faultStop
    | split

theorem fr_injActs {F : Nat} {b : State} {s0 a1} (hF : 68719476744 ||| F = F) (h0 : Frm F b s0) : Frm F b (injActs s0 a1) := by
  unfold injActs
  repeat' first
    | with_reducible assumption
    | ((with_reducible apply subt hF); rfl)
    | with_reducible first | apply fr_State_setPairSt | apply fr_State_setBitAt
    | split
    | dsimp only

theorem fr_mismatchSeen {F : Nat} {b : State} {s0 a1 a2 a3} (hF : 8 ||| F = F) (h0 : Frm F b s0) : Frm F b (mismatchSeen s0 a1 a2 a3) := by
  unfold mismatchSeen
  repeat' first
    | with_reducible assumption
    | ((with_reducible apply subt hF); rfl)
    | with_reducible first | apply fr_State_setReg | apply fr_State_bump

theorem fr_replays {F : Nat} {b : State} {s0 a1} (hF : 1717987074056 ||| F = F) (h0 : Frm F b s0) : Frm F b (replays s0 a1) := by
  unfold replays
  repeat' first
    | with_reducible assumption
    | ((with_reducible apply subt hF); rfl)
    | with_reducible first | apply fr_State_report | apply fr_State_raise | apply fr_State_bump | apply fr_State_setPairSt

theorem fr_agreedRun {F : Nat} {b : State} {s0 a1} (hF : 1717987074056 ||| F = F) (h0 : Frm F b s0) : Frm F b (agreedRun s0 a1) := by
  unfold agreedRun
  repeat' first
    | with_reducible assumption
    | ((with_reducible apply subt hF); rfl)
    | with_reducible first | apply fr_State_report | apply fr_State_raise | apply fr_State_bump | apply fr_State_setBitAt | apply fr_State_setPairSt

theorem fr_mismatch {F : Nat} {b : State} {s0 a1 a2 a3} (hF : 2199023255550 ||| F = F) (h0 : Frm F b s0) : Frm F b (mismatch s0 a1 a2 a3) := by
  unfold mismatch
  repeat' first
    | with_reducible assumption
    | ((with_reducible apply subt hF); rfl)
    | with_reducible first | apply fr_injActs | apply fr_mismatchSeen | apply fr_State_setPairSt | apply fr_replays | apply fr_agreedRun | apply fr_pairFail
    | split
    | dsimp only

theorem fr_execLockstepMismatch {F : Nat} {b : State} {a0 a1 a2 s3} (hF : 2199023255550 ||| F = F) (h3 : Frm F b s3) : FrmR F b (execLockstepMismatch a0 a1 a2 s3) := by
  unfold execLockstepMismatch
  repeat' first
    | with_reducible assumption
    | ((with_reducible apply subt hF); rfl)
    | with_reducible first | apply fr_whenever | apply fr_mismatch | apply frmR_next

theorem fr_taskEnds {F : Nat} {b : State} {s0 a1 a2} (hF : 2196695414760 ||| F = F) (h0 : Frm F b s0) : Frm F b (taskEnds s0 a1 a2) := by
  unfold taskEnds
  repeat' first
    | with_reducible assumption
    | ((with_reducible apply subt hF); rfl)
    | with_reducible first | apply fr_regWrite | apply fr_State_setBitAt | apply fr_State_setPairSt | apply frm_foldl
    | intro _

theorem fr_taskOver {F : Nat} {b : State} {s0 a1} (hF : 2199023255550 ||| F = F) (h0 : Frm F b s0) : Frm F b (taskOver s0 a1) := by
  unfold taskOver
  repeat' first
    | with_reducible assumption
    | ((with_reducible apply subt hF); rfl)
    | with_reducible first | apply fr_pairFail | apply fr_State_report | apply fr_State_bump

theorem fr_execTaskCommit {F : Nat} {b : State} {a0 a1 s2} (hF : 2199023255550 ||| F = F) (h2 : Frm F b s2) : FrmR F b (execTaskCommit a0 a1 s2) := by
  unfold execTaskCommit
  repeat' first
    | with_reducible assumption
    | ((with_reducible apply subt hF); rfl)
    | with_reducible first | apply fr_whenever | apply fr_taskOver | apply fr_taskEnds | apply frmR_next
    | split

theorem fr_execTaskOverrun {F : Nat} {b : State} {a0 a1 s2} (hF : 2199023255550 ||| F = F) (h2 : Frm F b s2) : FrmR F b (execTaskOverrun a0 a1 s2) := by
  unfold execTaskOverrun
  repeat' first
    | with_reducible assumption
    | ((with_reducible apply subt hF); rfl)
    | with_reducible first | apply fr_whenever | apply fr_taskOver | apply frmR_next

theorem fr_scrubMp {F : Nat} {b : State} {s0 a1} (hF : 2199023255550 ||| F = F) (h0 : Frm F b s0) : Frm F b (scrubMp s0 a1) := by
  unfold scrubMp
  repeat' first
    | with_reducible assumption
    | ((with_reducible apply subt hF); rfl)
    | with_reducible first | apply fr_memLost | apply fr_State_tick1 | apply fr_pairFail
    | split

theorem fr_scrubKeys {F : Nat} {b : State} {s0 a1} (hF : 2006823690248 ||| F = F) (h0 : Frm F b s0) : Frm F b (scrubKeys s0 a1) := by
  unfold scrubKeys
  repeat' first
    | with_reducible assumption
    | ((with_reducible apply subt hF); rfl)
    | with_reducible first | apply fr_slotParity | apply fr_State_tick1

theorem fr_scrubRepeated {F : Nat} {b : State} {s0 a1} (hF : 2199023255550 ||| F = F) (h0 : Frm F b s0) : Frm F b (scrubRepeated s0 a1) := by
  unfold scrubRepeated
  repeat' first
    | with_reducible assumption
    | ((with_reducible apply subt hF); rfl)
    | with_reducible first | apply fr_scrubBuffer | apply fr_scrubTables | apply fr_scrubFlows | apply fr_scrubMp | apply fr_scrubBuses | apply fr_State_report | apply fr_memRepeated | apply fr_scrubSilt | apply fr_scrubKeys | apply fr_memLost | apply fr_scrubMisc
    | split

theorem fr_scrubWord {F : Nat} {b : State} {s0 a1} (hF : 2199023255550 ||| F = F) (h0 : Frm F b s0) : Frm F b (scrubWord s0 a1) := by
  unfold scrubWord
  repeat' first
    | with_reducible assumption
    | ((with_reducible apply subt hF); rfl)
    | with_reducible first | apply fr_scrubRepeated | apply fr_memErr | apply fr_memReplay | apply fr_mk_68719476736
    | simp only [frm_mk]
    | split

theorem fr_scrubs {F : Nat} {b : State} {s0 a1} (hF : 2199023255550 ||| F = F) (h0 : Frm F b s0) : Frm F b (scrubs s0 a1) := by
  unfold scrubs
  repeat' first
    | with_reducible assumption
    | ((with_reducible apply subt hF); rfl)
    | with_reducible first | apply fr_scrubWord | apply fr_State_setFld | apply fr_State_raise | apply fr_State_bump | apply frm_foldl
    | intro _
    | split

theorem fr_execScrubPass {F : Nat} {b : State} {a0 s1} (hF : 2199023255550 ||| F = F) (h1 : Frm F b s1) : FrmR F b (execScrubPass a0 s1) := by
  unfold execScrubPass
  repeat' first
    | with_reducible assumption
    | ((with_reducible apply subt hF); rfl)
    | with_reducible first | apply fr_ifWf | apply fr_whenever | apply fr_scrubs

theorem fr_stalls {F : Nat} {b : State} {s0 a1} (hF : 1737138103052 ||| F = F) (h0 : Frm F b s0) : Frm F b (stalls s0 a1) := by
  unfold stalls
  repeat' first
    | with_reducible assumption
    | ((with_reducible apply subt hF); rfl)
    | with_reducible first | apply fr_faultStop | apply fr_State_report | apply fr_State_raise | apply fr_State_bump

theorem fr_execDpStall {F : Nat} {b : State} {a0 s1} (hF : 1737138103052 ||| F = F) (h1 : Frm F b s1) : FrmR F b (execDpStall a0 s1) := by
  unfold execDpStall
  repeat' first
    | with_reducible assumption
    | ((with_reducible apply subt hF); rfl)
    | with_reducible first | apply fr_whenever | apply fr_stalls | apply frmR_next

theorem fr_execPortStall {F : Nat} {b : State} {a0 s1} (hF : 1737138103052 ||| F = F) (h1 : Frm F b s1) : FrmR F b (execPortStall a0 s1) := by
  unfold execPortStall
  repeat' first
    | with_reducible assumption
    | ((with_reducible apply subt hF); rfl)
    | with_reducible first | apply fr_ifWf | apply fr_whenever | apply fr_stalls

theorem fr_execClockFail {F : Nat} {b : State} {a0 s1} (hF : 1737138103052 ||| F = F) (h1 : Frm F b s1) : FrmR F b (execClockFail a0 s1) := by
  unfold execClockFail
  repeat' first
    | with_reducible assumption
    | ((with_reducible apply subt hF); rfl)
    | with_reducible first | apply fr_whenever | apply fr_faultStop | apply fr_State_report | apply fr_State_bump | apply frmR_next

theorem fr_execSupplyFail {F : Nat} {b : State} {a0 s1} (hF : 1737138103052 ||| F = F) (h1 : Frm F b s1) : FrmR F b (execSupplyFail a0 s1) := by
  unfold execSupplyFail
  repeat' first
    | with_reducible assumption
    | ((with_reducible apply subt hF); rfl)
    | with_reducible first | apply fr_ifWf | apply fr_whenever | apply fr_faultStop | apply fr_State_report | apply fr_State_bump

end Sys2Proof.Laws
end

