-- ==== Sys2Proof/Laws/Frame8.lean ====
section
/-!
SUPPORT. `Frm` for the functions of Machine/: UpdExec, Mailbox, Kum, PowerEvents.
-/
set_option linter.unusedVariables false
namespace Sys2Proof.Laws
set_option Elab.async false
open Sys2Proof Sys2Proof.Machine

/-! ### UpdExec -/

theorem fr_execUpdSessionOpen {F : Nat} {b : State} {a0 a1 s2} (hF : 687194923016 ||| F = F) (h2 : Frm F b s2) : FrmR F b (execUpdSessionOpen a0 a1 s2) := by
  unfold execUpdSessionOpen
  repeat' first
    | with_reducible assumption
    | ((with_reducible apply subt hF); rfl)
    | with_reducible first | apply fr_State_write | apply fr_openSession | apply frmR_next

theorem fr_execUpdSessionClose {F : Nat} {b : State} {a0 a1 s2} (hF : 996432568328 ||| F = F) (h2 : Frm F b s2) : FrmR F b (execUpdSessionClose a0 a1 s2) := by
  unfold execUpdSessionClose
  repeat' first
    | with_reducible assumption
    | ((with_reducible apply subt hF); rfl)
    | with_reducible first | apply fr_State_write | apply fr_closeSession | apply fr_tellClose | apply frmR_next
    | split

theorem fr_toTwin {F : Nat} {b : State} {s0 a1 a2 a3} (hF : 721554505736 ||| F = F) (h0 : Frm F b s0) : Frm F b (toTwin s0 a1 a2 a3) := by
  unfold toTwin
  repeat' first
    | with_reducible assumption
    | ((with_reducible apply subt hF); rfl)
    | with_reducible first | apply fr_relayPieces | apply fr_setSession

theorem fr_takenWrite {F : Nat} {b : State} {s0 a1 a2 a3 a4} (hF : 996432637960 ||| F = F) (h0 : Frm F b s0) : Frm F b (takenWrite s0 a1 a2 a3 a4) := by
  unfold takenWrite
  repeat' first
    | with_reducible assumption
    | ((with_reducible apply subt hF); rfl)
    | with_reducible first | apply fr_updAnswer | apply fr_toTwin | apply fr_runWrite
    | split

theorem fr_execUpdWrite {F : Nat} {b : State} {a0 a1 a2 s3} (hF : 996432637960 ||| F = F) (h3 : Frm F b s3) : FrmR F b (execUpdWrite a0 a1 a2 s3) := by
  unfold execUpdWrite
  repeat' first
    | with_reducible assumption
    | ((with_reducible apply subt hF); rfl)
    | with_reducible first | apply fr_ifWf | apply fr_takenWrite | apply fr_ringTake
    | split

theorem fr_relaySend {F : Nat} {b : State} {s0 a1 a2 a3} (hF : 469762048 ||| F = F) (h0 : Frm F b s0) : Frm F b (relaySend s0 a1 a2 a3) := by
  unfold relaySend
  repeat' first
    | with_reducible assumption
    | ((with_reducible apply subt hF); rfl)
    | with_reducible apply fr_gptpSend

theorem fr_setRelay {F : Nat} {b : State} {s0 a1} (hF : 137438953472 ||| F = F) (h0 : Frm F b s0) : Frm F b (setRelay s0 a1) := by
  unfold setRelay
  repeat' first
    | with_reducible assumption
    | ((with_reducible apply subt hF); rfl)
    | with_reducible apply fr_mk_137438953472
    | simp only [frm_mk]

theorem fr_relayFill {F : Nat} {b : State} {a0 a1 s2 a3} (hF : 137908715520 ||| F = F) (h2 : Frm F b s2) : Frm F b (relayFill a0 a1 s2 a3) := by
  induction a0 generalizing a1 s2 a3 with
  | zero => exact fr_setRelay (subm hF) h2
  | succ n ih =>
    unfold relayFill
    split
    · exact ih (fr_relaySend (subm hF) h2)
    · split
      · exact fr_setRelay (subm hF) (fr_relaySend (subm hF) h2)
      · exact fr_setRelay (subm hF) h2

theorem fr_relayStart {F : Nat} {b : State} {s0 a1 a2} (hF : 1237420343296 ||| F = F) (h0 : Frm F b s0) : Frm F b (relayStart s0 a1 a2) := by
  unfold relayStart
  repeat' first
    | with_reducible assumption
    | ((with_reducible apply subt hF); rfl)
    | with_reducible first | apply fr_relayFill | apply fr_State_tick1

theorem fr_relayEnds {F : Nat} {b : State} {s0 a1 a2 a3} (hF : 996432637960 ||| F = F) (h0 : Frm F b s0) : Frm F b (relayEnds s0 a1 a2 a3) := by
  unfold relayEnds
  repeat' first
    | with_reducible assumption
    | ((with_reducible apply subt hF); rfl)
    | with_reducible first | apply fr_siltUpd | apply fr_closeSession | apply fr_updAnswer | apply fr_mk_137438953472
    | simp only [frm_mk]
    | split

theorem fr_noImageBoots {F : Nat} {b : State} {s0 a1} (hF : 2199023255550 ||| F = F) (h0 : Frm F b s0) : Frm F b (noImageBoots s0 a1) := by
  unfold noImageBoots
  repeat' first
    | with_reducible assumption
    | ((with_reducible apply subt hF); rfl)
    | with_reducible first | apply fr_bootRestart | apply fr_markSlot | apply fr_mk_274877906944
    | simp only [frm_mk]
    | split

theorem fr_ownFinish {F : Nat} {b : State} {s0 a1 a2} (hF : 2199023255550 ||| F = F) (h0 : Frm F b s0) : Frm F b (ownFinish s0 a1 a2) := by
  unfold ownFinish
  repeat' first
    | with_reducible assumption
    | ((with_reducible apply subt hF); rfl)
    | with_reducible first | apply fr_closeSession | apply fr_updAnswer | apply fr_runFinish | apply fr_relayStart | apply fr_noImageBoots
    | split

theorem fr_takenFinish {F : Nat} {b : State} {s0 a1 a2} (hF : 2199023255550 ||| F = F) (h0 : Frm F b s0) : Frm F b (takenFinish s0 a1 a2) := by
  unfold takenFinish
  repeat' first
    | with_reducible assumption
    | ((with_reducible apply subt hF); rfl)
    | with_reducible first | apply fr_updAnswer | apply fr_toTwin | apply fr_ownFinish
    | split

theorem fr_execUpdFinish {F : Nat} {b : State} {a0 s1} (hF : 2199023255550 ||| F = F) (h1 : Frm F b s1) : FrmR F b (execUpdFinish a0 s1) := by
  unfold execUpdFinish
  repeat' first
    | with_reducible assumption
    | ((with_reducible apply subt hF); rfl)
    | with_reducible first | apply fr_ifWf | apply fr_takenFinish | apply fr_ringTake
    | split

theorem fr_takenAbort {F : Nat} {b : State} {s0 a1 a2} (hF : 996432416776 ||| F = F) (h0 : Frm F b s0) : Frm F b (takenAbort s0 a1 a2) := by
  unfold takenAbort
  repeat' first
    | with_reducible assumption
    | ((with_reducible apply subt hF); rfl)
    | with_reducible first | apply fr_updAnswer | apply fr_relayPieces | apply fr_abortSession
    | split

theorem fr_execUpdAbort {F : Nat} {b : State} {a0 s1} (hF : 996432416776 ||| F = F) (h1 : Frm F b s1) : FrmR F b (execUpdAbort a0 s1) := by
  unfold execUpdAbort
  repeat' first
    | with_reducible assumption
    | ((with_reducible apply subt hF); rfl)
    | with_reducible first | apply fr_ifWf | apply fr_takenAbort | apply fr_ringTake
    | split

theorem fr_ownBlockEnds {F : Nat} {b : State} {s0 a1 a2 a3 a4} (hF : 2095944044552 ||| F = F) (h0 : Frm F b s0) : Frm F b (ownBlockEnds s0 a1 a2 a3 a4) := by
  unfold ownBlockEnds
  repeat' first
    | with_reducible assumption
    | ((with_reducible apply subt hF); rfl)
    | with_reducible first | apply fr_blockEnds | apply fr_updAnswer | apply fr_setSession

theorem fr_flashDone {F : Nat} {b : State} {s0 a1} (hF : 2095944044552 ||| F = F) (h0 : Frm F b s0) : Frm F b (flashDone s0 a1) := by
  unfold flashDone
  repeat' first
    | with_reducible assumption
    | ((with_reducible apply subt hF); rfl)
    | with_reducible first | apply fr_updComplete | apply fr_blockEnds | apply fr_ownBlockEnds | apply fr_mk_137438953472
    | simp only [frm_mk]
    | split

theorem fr_execFlashWriteDone {F : Nat} {b : State} {a0 s1} (hF : 2095944044552 ||| F = F) (h1 : Frm F b s1) : FrmR F b (execFlashWriteDone a0 s1) := by
  unfold execFlashWriteDone
  repeat' first
    | with_reducible assumption
    | ((with_reducible apply subt hF); rfl)
    | with_reducible first | apply fr_flashDone | apply frmR_next

theorem fr_relayedRuns {F : Nat} {b : State} {s0 a1 a2 a3} (hF : 2199023255550 ||| F = F) (h0 : Frm F b s0) : Frm F b (relayedRuns s0 a1 a2 a3) := by
  unfold relayedRuns
  repeat' first
    | with_reducible assumption
    | ((with_reducible apply subt hF); rfl)
    | with_reducible first | apply fr_runWrite | apply fr_ownFinish | apply fr_abortSession | apply fr_updAnswer
    | split

theorem fr_relayRecord {F : Nat} {b : State} {s0 a1 a2 a3} (hF : 2199023255550 ||| F = F) (h0 : Frm F b s0) : Frm F b (relayRecord s0 a1 a2 a3) := by
  unfold relayRecord
  repeat' first
    | with_reducible assumption
    | ((with_reducible apply subt hF); rfl)
    | with_reducible first | apply fr_State_tick1 | apply fr_slSend | apply fr_relayedRuns | apply fr_setSession | apply fr_mk_137438953472
    | simp only [frm_mk]
    | split

theorem fr_execRelayRecordRx {F : Nat} {b : State} {a0 a1 a2 s3} (hF : 2199023255550 ||| F = F) (h3 : Frm F b s3) : FrmR F b (execRelayRecordRx a0 a1 a2 s3) := by
  unfold execRelayRecordRx
  repeat' first
    | with_reducible assumption
    | ((with_reducible apply subt hF); rfl)
    | with_reducible first | apply fr_whenever | apply fr_relayRecord | apply frmR_next

theorem fr_relayAnswered {F : Nat} {b : State} {s0 a1 a2 a3 a4} (hF : 962072678408 ||| F = F) (h0 : Frm F b s0) : Frm F b (relayAnswered s0 a1 a2 a3 a4) := by
  unfold relayAnswered
  repeat' first
    | with_reducible assumption
    | ((with_reducible apply subt hF); rfl)
    | with_reducible first | apply fr_updComplete | apply fr_setSession | apply fr_closeSession
    | split

theorem fr_relayAck {F : Nat} {b : State} {s0 a1 a2} (hF : 137908715520 ||| F = F) (h0 : Frm F b s0) : Frm F b (relayAck s0 a1 a2) := by
  unfold relayAck
  repeat' first
    | with_reducible assumption
    | ((with_reducible apply subt hF); rfl)
    | with_reducible apply fr_relayFill
    | split

theorem fr_relayHeard {F : Nat} {b : State} {s0 a1 a2} (hF : 996902400008 ||| F = F) (h0 : Frm F b s0) : Frm F b (relayHeard s0 a1 a2) := by
  unfold relayHeard
  repeat' first
    | with_reducible assumption
    | ((with_reducible apply subt hF); rfl)
    | with_reducible first | apply fr_relayAck | apply fr_relayEnds
    | split

theorem fr_relayRx {F : Nat} {b : State} {s0 a1 a2} (hF : 996902400008 ||| F = F) (h0 : Frm F b s0) : Frm F b (relayRx s0 a1 a2) := by
  unfold relayRx
  repeat' first
    | with_reducible assumption
    | ((with_reducible apply subt hF); rfl)
    | with_reducible first | apply fr_relayHeard | apply fr_State_bump
    | split

theorem fr_execRelayFrameRx {F : Nat} {b : State} {a0 a1 s2} (hF : 996902400008 ||| F = F) (h2 : Frm F b s2) : FrmR F b (execRelayFrameRx a0 a1 s2) := by
  unfold execRelayFrameRx
  repeat' first
    | with_reducible assumption
    | ((with_reducible apply subt hF); rfl)
    | with_reducible first | apply fr_ifWf | apply fr_relayRx

theorem fr_relayAgain {F : Nat} {b : State} {s0 a1 a2} (hF : 996902400008 ||| F = F) (h0 : Frm F b s0) : Frm F b (relayAgain s0 a1 a2) := by
  unfold relayAgain
  repeat' first
    | with_reducible assumption
    | ((with_reducible apply subt hF); rfl)
    | with_reducible first | apply fr_relayEnds | apply fr_State_bump | apply fr_relaySend | apply fr_setRelay
    | split

theorem fr_execRelayRetransmit {F : Nat} {b : State} {a0 s1} (hF : 996902400008 ||| F = F) (h1 : Frm F b s1) : FrmR F b (execRelayRetransmit a0 s1) := by
  unfold execRelayRetransmit
  repeat' first
    | with_reducible assumption
    | ((with_reducible apply subt hF); rfl)
    | with_reducible first | apply fr_relayAgain | apply frmR_next
    | split

theorem fr_trialEnds {F : Nat} {b : State} {s0 a1} (hF : 2199023255550 ||| F = F) (h0 : Frm F b s0) : Frm F b (trialEnds s0 a1) := by
  unfold trialEnds
  repeat' first
    | with_reducible assumption
    | ((with_reducible apply subt hF); rfl)
    | with_reducible first | apply fr_healthStep | apply fr_confirmTrial | apply fr_start | apply fr_revertTrial
    | split
    | dsimp only

theorem fr_execTrialWindowEnd {F : Nat} {b : State} {s0} (hF : 2199023255550 ||| F = F) (h0 : Frm F b s0) : FrmR F b (execTrialWindowEnd s0) := by
  unfold execTrialWindowEnd
  repeat' first
    | with_reducible assumption
    | ((with_reducible apply subt hF); rfl)
    | with_reducible first | apply fr_trialEnds | apply frmR_next
    | split

/-! ### Mailbox -/

theorem fr_info {F : Nat} {b : State} {s0 a1} (hF : 1649267499016 ||| F = F) (h0 : Frm F b s0) : Frm F b (info s0 a1) := by
  unfold info
  repeat' first
    | with_reducible assumption
    | ((with_reducible apply subt hF); rfl)
    | with_reducible first | apply fr_State_tick1 | apply fr_mbxRespond

theorem fr_execInfo {F : Nat} {b : State} {a0 s1} (hF : 1649267499016 ||| F = F) (h1 : Frm F b s1) : FrmR F b (execInfo a0 s1) := by
  unfold execInfo
  repeat' first
    | with_reducible assumption
    | ((with_reducible apply subt hF); rfl)
    | with_reducible first | apply fr_mbxServe | apply fr_info | apply frmR_next
    | intro _

theorem fr_execSiltCheckpoint {F : Nat} {b : State} {a0 s1} (hF : 1649267695624 ||| F = F) (h1 : Frm F b s1) : FrmR F b (execSiltCheckpoint a0 s1) := by
  unfold execSiltCheckpoint
  repeat' first
    | with_reducible assumption
    | ((with_reducible apply subt hF); rfl)
    | with_reducible first | apply fr_mbxServe | apply fr_mbxRespond | apply fr_whenever | apply fr_checkpointNow | apply frmR_next
    | intro _

theorem fr_execBusyhit {F : Nat} {b : State} {a0 s1} (hF : 549756002312 ||| F = F) (h1 : Frm F b s1) : FrmR F b (execBusyhit a0 s1) := by
  unfold execBusyhit
  repeat' first
    | with_reducible assumption
    | ((with_reducible apply subt hF); rfl)
    | with_reducible first | apply fr_whenever | apply fr_State_write | apply fr_mbxDoor | apply frmR_next

theorem fr_mbxTaken {F : Nat} {b : State} {s0 a1} (hF : 32768 ||| F = F) (h0 : Frm F b s0) : Frm F b (mbxTaken s0 a1) := by
  unfold mbxTaken
  repeat' first
    | with_reducible assumption
    | ((with_reducible apply subt hF); rfl)
    | with_reducible apply fr_mk_32768
    | simp only [frm_mk]

theorem fr_swapStart {F : Nat} {b : State} {s0 a1 a2 a3} (hF : 601295421448 ||| F = F) (h0 : Frm F b s0) : Frm F b (swapStart s0 a1 a2 a3) := by
  unfold swapStart
  repeat' first
    | with_reducible assumption
    | ((with_reducible apply subt hF); rfl)
    | with_reducible first | apply fr_slSend | apply fr_mk_17179869184
    | simp only [frm_mk]

theorem fr_roleSwap {F : Nat} {b : State} {s0 a1} (hF : 601295478792 ||| F = F) (h0 : Frm F b s0) : Frm F b (roleSwap s0 a1) := by
  unfold roleSwap
  repeat' first
    | with_reducible assumption
    | ((with_reducible apply subt hF); rfl)
    | with_reducible first | apply fr_mbxRespond | apply fr_swapStart | apply fr_mbxTaken
    | split

theorem fr_execRoleSwap {F : Nat} {b : State} {a0 s1} (hF : 601295478792 ||| F = F) (h1 : Frm F b s1) : FrmR F b (execRoleSwap a0 s1) := by
  unfold execRoleSwap
  repeat' first
    | with_reducible assumption
    | ((with_reducible apply subt hF); rfl)
    | with_reducible first | apply fr_mbxServe | apply fr_roleSwap | apply frmR_next
    | intro _

theorem fr_execSwapCondition {F : Nat} {b : State} {a0 s1} (hF : 601295421448 ||| F = F) (h1 : Frm F b s1) : FrmR F b (execSwapCondition a0 s1) := by
  unfold execSwapCondition
  repeat' first
    | with_reducible assumption
    | ((with_reducible apply subt hF); rfl)
    | with_reducible first | apply fr_whenever | apply fr_swapStart | apply frmR_next

theorem fr_modeReq {F : Nat} {b : State} {a0 s1 a2 a3} (hF : 549755871240 ||| F = F) (h1 : Frm F b s1) (h3 : ∀ x0, Frm F b x0 → Frm F b (a3 x0)) : Frm F b (modeReq a0 s1 a2 a3) := by
  unfold modeReq
  refine fr_mbxServe (subm hF) h1 (fun u hu => ?_)
  repeat' split
  all_goals first | exact fr_mbxRespond (subm hF) hu | exact hu | exact h3 _ hu

theorem fr_sleepStarts {F : Nat} {b : State} {s0 a1 a2} (hF : 549760262152 ||| F = F) (h0 : Frm F b s0) : Frm F b (sleepStarts s0 a1 a2) := by
  unfold sleepStarts
  repeat' first
    | with_reducible assumption
    | ((with_reducible apply subt hF); rfl)
    | with_reducible first | apply fr_State_silt_ | apply fr_mbxRespond | apply fr_mk_4194304
    | simp only [frm_mk]

theorem fr_sleepReq {F : Nat} {b : State} {s0 a1 a2} (hF : 1649271889928 ||| F = F) (h0 : Frm F b s0) : Frm F b (sleepReq s0 a1 a2) := by
  unfold sleepReq
  repeat' first
    | with_reducible assumption
    | ((with_reducible apply subt hF); rfl)
    | with_reducible first | apply fr_sleepStarts | apply fr_mbxRespond | apply fr_State_bump | apply fr_mk_1099511627776
    | simp only [frm_mk]
    | split

theorem fr_execModeReqSleepRetain {F : Nat} {b : State} {a0 s1} (hF : 1649271889928 ||| F = F) (h1 : Frm F b s1) : FrmR F b (execModeReqSleepRetain a0 s1) := by
  unfold execModeReqSleepRetain
  repeat' first
    | with_reducible assumption
    | ((with_reducible apply subt hF); rfl)
    | with_reducible first | apply fr_modeReq | apply fr_sleepReq | apply frmR_next
    | intro _

theorem fr_execModeReqSleepDeep {F : Nat} {b : State} {a0 s1} (hF : 1649271889928 ||| F = F) (h1 : Frm F b s1) : FrmR F b (execModeReqSleepDeep a0 s1) := by
  unfold execModeReqSleepDeep
  repeat' first
    | with_reducible assumption
    | ((with_reducible apply subt hF); rfl)
    | with_reducible first | apply fr_modeReq | apply fr_sleepReq | apply frmR_next
    | intro _

theorem fr_enterService {F : Nat} {b : State} {s0 a1 a2} (hF : 566935904268 ||| F = F) (h0 : Frm F b s0) : Frm F b (enterService s0 a1 a2) := by
  unfold enterService
  repeat' first
    | with_reducible assumption
    | ((with_reducible apply subt hF); rfl)
    | with_reducible first | apply fr_setMode | apply fr_roleNone

theorem fr_serviceReq {F : Nat} {b : State} {s0 a1} (hF : 601295675404 ||| F = F) (h0 : Frm F b s0) : Frm F b (serviceReq s0 a1) := by
  unfold serviceReq
  repeat' first
    | with_reducible assumption
    | ((with_reducible apply subt hF); rfl)
    | with_reducible first | apply fr_enterService | apply fr_mbxRespond | apply fr_swapStart | apply fr_mbxTaken
    | split
    | dsimp only

theorem fr_execModeReqService {F : Nat} {b : State} {a0 s1} (hF : 601295675404 ||| F = F) (h1 : Frm F b s1) : FrmR F b (execModeReqService a0 s1) := by
  unfold execModeReqService
  repeat' first
    | with_reducible assumption
    | ((with_reducible apply subt hF); rfl)
    | with_reducible first | apply fr_modeReq | apply fr_serviceReq | apply frmR_next
    | intro _

theorem fr_resetReq {F : Nat} {b : State} {s0 a1} (hF : 2199023255550 ||| F = F) (h0 : Frm F b s0) : Frm F b (resetReq s0 a1) := by
  unfold resetReq
  repeat' first
    | with_reducible assumption
    | ((with_reducible apply subt hF); rfl)
    | with_reducible first | apply fr_mbxRespond | apply fr_start | apply fr_whenever | apply fr_checkpointNow

theorem fr_modeReset {F : Nat} {b : State} {s0 a1} (hF : 2199023255550 ||| F = F) (h0 : Frm F b s0) : Frm F b (modeReset s0 a1) := by
  unfold modeReset
  repeat' first
    | with_reducible assumption
    | ((with_reducible apply subt hF); rfl)
    | with_reducible first | apply fr_mbxRespond | apply fr_resetReq
    | split
    | dsimp only

theorem fr_execModeReqReset {F : Nat} {b : State} {a0 s1} (hF : 2199023255550 ||| F = F) (h1 : Frm F b s1) : FrmR F b (execModeReqReset a0 s1) := by
  unfold execModeReqReset
  repeat' first
    | with_reducible assumption
    | ((with_reducible apply subt hF); rfl)
    | with_reducible first | apply fr_modeReset | apply frmR_next

theorem fr_runReq {F : Nat} {b : State} {s0 a1} (hF : 549760065544 ||| F = F) (h0 : Frm F b s0) : Frm F b (runReq s0 a1) := by
  unfold runReq
  repeat' first
    | with_reducible assumption
    | ((with_reducible apply subt hF); rfl)
    | with_reducible first | apply fr_mbxRespond | apply fr_mk_4194304
    | simp only [frm_mk]
    | split

theorem fr_execModeReqRun {F : Nat} {b : State} {a0 s1} (hF : 549760065544 ||| F = F) (h1 : Frm F b s1) : FrmR F b (execModeReqRun a0 s1) := by
  unfold execModeReqRun
  repeat' first
    | with_reducible assumption
    | ((with_reducible apply subt hF); rfl)
    | with_reducible first | apply fr_modeReq | apply fr_runReq | apply frmR_next
    | intro _

theorem fr_lightTests {F : Nat} {b : State} {s0 a1} (hF : 2199023255550 ||| F = F) (h0 : Frm F b s0) : Frm F b (lightTests s0 a1).1 := by
  unfold lightTests
  repeat' first
    | with_reducible assumption
    | ((with_reducible apply subt hF); rfl)
    | with_reducible first | apply fr_scrubs | apply fr_State_raise | apply fr_State_setReg | apply fr_mk_1099511627776 | apply frm_foldl
    | simp only [frm_mk]
    | intro _
    | split

theorem fr_destructiveTests {F : Nat} {b : State} {s0 a1} (hF : 2199023255550 ||| F = F) (h0 : Frm F b s0) : Frm F b (destructiveTests s0 a1) := by
  unfold destructiveTests
  repeat' first
    | with_reducible assumption
    | ((with_reducible apply subt hF); rfl)
    | with_reducible first | apply fr_start | apply fr_mk_1374389534720
    | simp only [frm_mk]

theorem fr_destructive {F : Nat} {b : State} {s0 a1 a2} (hF : 2199023255550 ||| F = F) (h0 : Frm F b s0) : Frm F b (destructive s0 a1 a2) := by
  unfold destructive
  repeat' first
    | with_reducible assumption
    | ((with_reducible apply subt hF); rfl)
    | with_reducible first | apply fr_destructiveTests | apply fr_mbxRespond | apply fr_enterService

theorem fr_testRun {F : Nat} {b : State} {s0 a1} (hF : 2199023255550 ||| F = F) (h0 : Frm F b s0) : Frm F b (testRun s0 a1) := by
  unfold testRun
  repeat' first
    | with_reducible assumption
    | ((with_reducible apply subt hF); rfl)
    | with_reducible first | apply fr_mbxRespond | apply fr_lightTests | apply fr_destructive | apply fr_swapStart | apply fr_mbxTaken | apply fr_mk_68719476736
    | simp only [frm_mk]
    | split

theorem fr_testReq {F : Nat} {b : State} {s0 a1} (hF : 2199023255550 ||| F = F) (h0 : Frm F b s0) : Frm F b (testReq s0 a1) := by
  unfold testReq
  repeat' first
    | with_reducible assumption
    | ((with_reducible apply subt hF); rfl)
    | with_reducible first | apply fr_mbxRespond | apply fr_mbxServe | apply fr_testRun
    | intro _
    | split

theorem fr_execTestReq {F : Nat} {b : State} {a0 s1} (hF : 2199023255550 ||| F = F) (h1 : Frm F b s1) : FrmR F b (execTestReq a0 s1) := by
  unfold execTestReq
  repeat' first
    | with_reducible assumption
    | ((with_reducible apply subt hF); rfl)
    | with_reducible first | apply fr_testReq | apply frmR_next

theorem fr_updDecide {F : Nat} {b : State} {a0 a1 s2 a3 a4} (hF : 549755871240 ||| F = F) (h2 : Frm F b s2) (h4 : ∀ x0, Frm F b x0 → Frm F b (a4 x0)) : Frm F b (updDecide a0 a1 s2 a3 a4) := by
  unfold updDecide
  repeat' first
    | with_reducible assumption
    | ((with_reducible apply subt hF); rfl)
    | with_reducible apply fr_mbxServe
    | split

theorem fr_activated {F : Nat} {b : State} {s0} (hF : 824633942024 ||| F = F) (h0 : Frm F b s0) : Frm F b (activated s0) := by
  unfold activated
  repeat' first
    | with_reducible assumption
    | ((with_reducible apply subt hF); rfl)
    | with_reducible first | apply fr_markSlot | apply fr_siltUpd | apply fr_mk_274877906944
    | simp only [frm_mk]
    | split

theorem fr_updRefused {F : Nat} {b : State} {s0 a1 a2 a3} (hF : 549756002312 ||| F = F) (h0 : Frm F b s0) : Frm F b (updRefused s0 a1 a2 a3) := by
  unfold updRefused
  repeat' first
    | with_reducible assumption
    | ((with_reducible apply subt hF); rfl)
    | with_reducible first | apply fr_mbxRespond | apply fr_State_siltRefused
    | split

theorem fr_activateReq {F : Nat} {b : State} {s0 a1} (hF : 824633974792 ||| F = F) (h0 : Frm F b s0) : Frm F b (activateReq s0 a1) := by
  unfold activateReq
  repeat' first
    | with_reducible assumption
    | ((with_reducible apply subt hF); rfl)
    | with_reducible first | apply fr_mbxRespond | apply fr_activated | apply fr_updRefused
    | split

theorem fr_execUpdActivate {F : Nat} {b : State} {a0 s1} (hF : 824633974792 ||| F = F) (h1 : Frm F b s1) : FrmR F b (execUpdActivate a0 s1) := by
  unfold execUpdActivate
  repeat' first
    | with_reducible assumption
    | ((with_reducible apply subt hF); rfl)
    | with_reducible first | apply fr_updDecide | apply fr_activateReq | apply frmR_next
    | intro _

theorem fr_activateResetReq {F : Nat} {b : State} {s0 a1} (hF : 2199023255550 ||| F = F) (h0 : Frm F b s0) : Frm F b (activateResetReq s0 a1) := by
  unfold activateResetReq
  repeat' first
    | with_reducible assumption
    | ((with_reducible apply subt hF); rfl)
    | with_reducible first | apply fr_mbxRespond | apply fr_resetReq | apply fr_activated | apply fr_updRefused
    | split

theorem fr_execUpdActivateReset {F : Nat} {b : State} {a0 s1} (hF : 2199023255550 ||| F = F) (h1 : Frm F b s1) : FrmR F b (execUpdActivateReset a0 s1) := by
  unfold execUpdActivateReset
  repeat' first
    | with_reducible assumption
    | ((with_reducible apply subt hF); rfl)
    | with_reducible first | apply fr_updDecide | apply fr_activateResetReq | apply frmR_next
    | intro _

theorem fr_cancelReq {F : Nat} {b : State} {s0 a1} (hF : 824633974792 ||| F = F) (h0 : Frm F b s0) : Frm F b (cancelReq s0 a1) := by
  unfold cancelReq
  repeat' first
    | with_reducible assumption
    | ((with_reducible apply subt hF); rfl)
    | with_reducible first | apply fr_mbxRespond | apply fr_updRefused | apply fr_markSlot | apply fr_siltUpd | apply fr_mk_274877906944
    | simp only [frm_mk]
    | split

theorem fr_execUpdCancel {F : Nat} {b : State} {a0 s1} (hF : 824633974792 ||| F = F) (h1 : Frm F b s1) : FrmR F b (execUpdCancel a0 s1) := by
  unfold execUpdCancel
  repeat' first
    | with_reducible assumption
    | ((with_reducible apply subt hF); rfl)
    | with_reducible first | apply fr_updDecide | apply fr_cancelReq | apply frmR_next
    | intro _

theorem fr_vetoReq {F : Nat} {b : State} {s0 a1} (hF : 2199023255550 ||| F = F) (h0 : Frm F b s0) : Frm F b (vetoReq s0 a1) := by
  unfold vetoReq
  repeat' first
    | with_reducible assumption
    | ((with_reducible apply subt hF); rfl)
    | with_reducible first | apply fr_mbxRespond | apply fr_updRefused | apply fr_start | apply fr_revertTrial | apply fr_siltUpd
    | split

theorem fr_execUpdVeto {F : Nat} {b : State} {a0 s1} (hF : 2199023255550 ||| F = F) (h1 : Frm F b s1) : FrmR F b (execUpdVeto a0 s1) := by
  unfold execUpdVeto
  repeat' first
    | with_reducible assumption
    | ((with_reducible apply subt hF); rfl)
    | with_reducible first | apply fr_updDecide | apply fr_vetoReq | apply frmR_next
    | intro _

theorem fr_oemKeyReq {F : Nat} {b : State} {s0 a1} (hF : 824633974792 ||| F = F) (h0 : Frm F b s0) : Frm F b (oemKeyReq s0 a1) := by
  unfold oemKeyReq
  repeat' first
    | with_reducible assumption
    | ((with_reducible apply subt hF); rfl)
    | with_reducible first | apply fr_mbxRespond | apply fr_updRefused | apply fr_otpProgram | apply fr_siltUpd | apply frm_foldl
    | intro _
    | split

theorem fr_execOemKeySet {F : Nat} {b : State} {a0 s1} (hF : 824633974792 ||| F = F) (h1 : Frm F b s1) : FrmR F b (execOemKeySet a0 s1) := by
  unfold execOemKeySet
  repeat' first
    | with_reducible assumption
    | ((with_reducible apply subt hF); rfl)
    | with_reducible first | apply fr_updDecide | apply fr_oemKeyReq | apply frmR_next
    | intro _

/-! ### Kum -/

theorem fr_kumDone {F : Nat} {b : State} {s0 a1 a2} (hF : 549755969544 ||| F = F) (h0 : Frm F b s0) : Frm F b (kumDone s0 a1 a2) := by
  unfold kumDone
  repeat' first
    | with_reducible assumption
    | ((with_reducible apply subt hF); rfl)
    | with_reducible first | apply fr_State_raise | apply fr_State_setReg

theorem fr_kumRefused {F : Nat} {b : State} {s0 a1 a2 a3} (hF : 549756002312 ||| F = F) (h0 : Frm F b s0) : Frm F b (kumRefused s0 a1 a2 a3) := by
  unfold kumRefused
  repeat' first
    | with_reducible assumption
    | ((with_reducible apply subt hF); rfl)
    | with_reducible first | apply fr_State_siltRefused | apply fr_mbxRespond | apply fr_kumDone | apply fr_State_bump
    | split

theorem fr_kumCount {F : Nat} {b : State} {s0 a1} (hF : 274877906944 ||| F = F) (h0 : Frm F b s0) : Frm F b (kumCount s0 a1) := by
  unfold kumCount
  repeat' first
    | with_reducible assumption
    | ((with_reducible apply subt hF); rfl)
    | with_reducible apply fr_mk_274877906944
    | simp only [frm_mk]

theorem fr_kumAnswer {F : Nat} {b : State} {s0 a1 a2 a3} (hF : 549756002312 ||| F = F) (h0 : Frm F b s0) : Frm F b (kumAnswer s0 a1 a2 a3) := by
  unfold kumAnswer
  repeat' first
    | with_reducible assumption
    | ((with_reducible apply subt hF); rfl)
    | with_reducible first | apply fr_mbxRespond | apply fr_kumDone | apply fr_State_bump

theorem fr_kumChange {F : Nat} {b : State} {s0 a1 a2 a3 a4 a5} (hF : 834297651208 ||| F = F) (h0 : Frm F b s0) : Frm F b (kumChange s0 a1 a2 a3 a4 a5) := by
  unfold kumChange
  repeat' first
    | with_reducible assumption
    | ((with_reducible apply subt hF); rfl)
    | with_reducible first | apply fr_changeSlot | apply fr_eraseBlob | apply fr_kumCount | apply fr_writeBlob | apply fr_siltKey | apply fr_kumAnswer
    | split

theorem fr_kumReads {F : Nat} {b : State} {s0 a1} (hF : 2006823690248 ||| F = F) (h0 : Frm F b s0) : Frm F b (kumReads s0 a1) := by
  unfold kumReads
  repeat' first
    | with_reducible assumption
    | ((with_reducible apply subt hF); rfl)
    | with_reducible apply fr_readSlot
    | split

theorem fr_kumServe {F : Nat} {b : State} {s0 a1 a2 a3} (hF : 2006823723016 ||| F = F) (h0 : Frm F b s0) (h3 : ∀ x0 x1, Frm F b x0 → Frm F b (a3 x0 x1)) : Frm F b (kumServe s0 a1 a2 a3) := by
  unfold kumServe
  repeat' first
    | with_reducible assumption
    | ((with_reducible apply subt hF); rfl)
    | with_reducible first | apply fr_mbxRespond | apply fr_kumRefused | apply h3 | apply fr_State_tick1 | apply fr_kumReads | apply frm_elim | apply frmR_next | apply frmR_refused | apply frm_ite | apply frm_ite1 | apply frm_iteR | apply frm_foldl | apply frm_foldl1
    | intro _
    | split
    | with_reducible refine frm_fst (by assumption) ?_
    | dsimp only

theorem fr_execKumInstall {F : Nat} {b : State} {a0 s1} (hF : 2006823723016 ||| F = F) (h1 : Frm F b s1) : FrmR F b (execKumInstall a0 s1) := by
  unfold execKumInstall
  repeat' first
    | with_reducible assumption
    | ((with_reducible apply subt hF); rfl)
    | with_reducible first | apply fr_kumServe | apply fr_kumChange | apply frmR_next
    | intro _

theorem fr_execKumDerive {F : Nat} {b : State} {a0 s1} (hF : 2006823723016 ||| F = F) (h1 : Frm F b s1) : FrmR F b (execKumDerive a0 s1) := by
  unfold execKumDerive
  repeat' first
    | with_reducible assumption
    | ((with_reducible apply subt hF); rfl)
    | with_reducible first | apply fr_kumServe | apply fr_kumChange | apply frmR_next
    | intro _

theorem fr_execKumInvalidate {F : Nat} {b : State} {a0 s1} (hF : 2006823723016 ||| F = F) (h1 : Frm F b s1) : FrmR F b (execKumInvalidate a0 s1) := by
  unfold execKumInvalidate
  repeat' first
    | with_reducible assumption
    | ((with_reducible apply subt hF); rfl)
    | with_reducible first | apply fr_kumServe | apply fr_State_bump | apply fr_kumChange | apply frmR_next
    | intro _

theorem fr_execKumFirst {F : Nat} {b : State} {a0 s1} (hF : 2006823723016 ||| F = F) (h1 : Frm F b s1) : FrmR F b (execKumFirst a0 s1) := by
  unfold execKumFirst
  repeat' first
    | with_reducible assumption
    | ((with_reducible apply subt hF); rfl)
    | with_reducible first | apply fr_kumServe | apply fr_kumChange | apply fr_State_tick1 | apply frmR_next
    | intro _

theorem fr_clearSlot {F : Nat} {b : State} {s0 a1} (hF : 284541583360 ||| F = F) (h0 : Frm F b s0) : Frm F b (clearSlot s0 a1) := by
  unfold clearSlot
  repeat' first
    | with_reducible assumption
    | ((with_reducible apply subt hF); rfl)
    | with_reducible first | apply fr_State_setKeySlot | apply fr_authGenChange
    | split
    | dsimp only

theorem fr_clearSlots {F : Nat} {b : State} {s0 a1} (hF : 284541583360 ||| F = F) (h0 : Frm F b s0) : Frm F b (clearSlots s0 a1) := by
  unfold clearSlots
  repeat' first
    | with_reducible assumption
    | ((with_reducible apply subt hF); rfl)
    | with_reducible first | apply fr_clearSlot | apply frm_foldl
    | intro _

theorem fr_lcAction {F : Nat} {b : State} {s0 a1} (hF : 284541583360 ||| F = F) (h0 : Frm F b s0) : Frm F b (lcAction s0 a1) := by
  unfold lcAction
  repeat' first
    | with_reducible assumption
    | ((with_reducible apply subt hF); rfl)
    | with_reducible first | apply fr_clearSlots | apply fr_State_setKeySlot | apply fr_mk_274877906944
    | simp only [frm_mk]
    | split

theorem fr_lcFollow {F : Nat} {b : State} {s0 a1 a2 a3} (hF : 2020605944588 ||| F = F) (h0 : Frm F b s0) : Frm F b (lcFollow s0 a1 a2 a3) := by
  unfold lcFollow
  repeat' first
    | with_reducible assumption
    | ((with_reducible apply subt hF); rfl)
    | with_reducible first | apply fr_whenever | apply fr_checkpointNow | apply fr_kumAnswer | apply fr_lcAction | apply fr_quarantine | apply fr_State_raise | apply fr_mk_8589934592
    | simp only [frm_mk]

theorem fr_lcAdvance {F : Nat} {b : State} {s0 a1 a2} (hF : 2020605944588 ||| F = F) (h0 : Frm F b s0) : Frm F b (lcAdvance s0 a1 a2) := by
  unfold lcAdvance
  repeat' first
    | with_reducible assumption
    | ((with_reducible apply subt hF); rfl)
    | with_reducible first | apply fr_kumCount | apply fr_otpProgram | apply fr_siltKey | apply fr_lcFollow | apply fr_State_tick1
    | split

theorem fr_execKumLcAdvance {F : Nat} {b : State} {a0 s1} (hF : 2024900911884 ||| F = F) (h1 : Frm F b s1) : FrmR F b (execKumLcAdvance a0 s1) := by
  unfold execKumLcAdvance
  repeat' first
    | with_reducible assumption
    | ((with_reducible apply subt hF); rfl)
    | with_reducible first | apply fr_kumServe | apply fr_lcAdvance | apply frmR_next
    | intro _

theorem fr_execLcGraceReset {F : Nat} {b : State} {s0} (hF : 2199023255550 ||| F = F) (h0 : Frm F b s0) : FrmR F b (execLcGraceReset s0) := by
  unfold execLcGraceReset
  repeat' first
    | with_reducible assumption
    | ((with_reducible apply subt hF); rfl)
    | with_reducible first | apply fr_whenever | apply fr_start | apply frmR_next
    | split

/-! ### PowerEvents -/

theorem fr_hostLinkGone {F : Nat} {b : State} {s0 a1} (hF : 2100239233032 ||| F = F) (h0 : Frm F b s0) : Frm F b (hostLinkGone s0 a1) := by
  unfold hostLinkGone
  repeat' first
    | with_reducible assumption
    | ((with_reducible apply subt hF); rfl)
    | with_reducible first | apply fr_releaseOwned | apply fr_updOwnerGone | apply fr_hostRingsStop | apply fr_State_setReg

theorem fr_execHostLinkDown {F : Nat} {b : State} {a0 s1} (hF : 2100239233032 ||| F = F) (h1 : Frm F b s1) : FrmR F b (execHostLinkDown a0 s1) := by
  unfold execHostLinkDown
  repeat' first
    | with_reducible assumption
    | ((with_reducible apply subt hF); rfl)
    | with_reducible first | apply fr_whenever | apply fr_hostLinkGone | apply frmR_next

theorem fr_setStage {F : Nat} {b : State} {s0 a1 a2} (hF : 4194304 ||| F = F) (h0 : Frm F b s0) : Frm F b (setStage s0 a1 a2) := by
  unfold setStage
  repeat' first
    | with_reducible assumption
    | ((with_reducible apply subt hF); rfl)
    | with_reducible apply fr_mk_4194304
    | simp only [frm_mk]

theorem fr_entryStops {F : Nat} {b : State} {s0 a1} (hF : 551640104960 ||| F = F) (h0 : Frm F b s0) : Frm F b (entryStops s0 a1) := by
  unfold entryStops
  repeat' first
    | with_reducible assumption
    | ((with_reducible apply subt hF); rfl)
    | with_reducible first | apply fr_setStage | apply fr_canSleepEntry | apply fr_tc10Negotiate | apply fr_mk_268435456 | apply frm_foldl
    | simp only [frm_mk]
    | intro _
    | split

theorem fr_execSleepEntryStop {F : Nat} {b : State} {s0} (hF : 551640104960 ||| F = F) (h0 : Frm F b s0) : FrmR F b (execSleepEntryStop s0) := by
  unfold execSleepEntryStop
  repeat' first
    | with_reducible assumption
    | ((with_reducible apply subt hF); rfl)
    | with_reducible first | apply fr_whenever | apply fr_entryStops | apply frmR_next
    | split

theorem fr_entryDrainsPort {F : Nat} {b : State} {s0 a1} (hF : 1718879674376 ||| F = F) (h0 : Frm F b s0) : Frm F b (entryDrainsPort s0 a1) := by
  unfold entryDrainsPort
  repeat' first
    | with_reducible assumption
    | ((with_reducible apply subt hF); rfl)
    | with_reducible first | apply fr_leaveUp | apply fr_startFlush
    | split

theorem fr_execSleepDrainEnd {F : Nat} {b : State} {s0} (hF : 1718883868680 ||| F = F) (h0 : Frm F b s0) : FrmR F b (execSleepDrainEnd s0) := by
  unfold execSleepDrainEnd
  repeat' first
    | with_reducible assumption
    | ((with_reducible apply subt hF); rfl)
    | with_reducible first | apply fr_whenever | apply fr_entryDrainsPort | apply fr_setStage | apply frmR_next | apply frm_foldl
    | intro _
    | split

theorem fr_entrySleeps {F : Nat} {b : State} {s0 a1} (hF : 2117440107276 ||| F = F) (h0 : Frm F b s0) : Frm F b (entrySleeps s0 a1) := by
  unfold entrySleeps
  exact fr_State_raise (subm hF) (fr_State_bump (subm hF) (fr_mk_4194304 (subm hF) (fr_discardCommits (subm hF) (fr_mk_4 (subm hF) (fr_setStage (subm hF)
    (fr_hostLinkGone (subm hF) (fr_hostLinkGone (subm hF) (fr_aliveFall (subm hF) (fr_mk_17179869184 (subm hF)
    (fr_swapAnswer (subm hF) (fr_mk_274877906944 (subm hF)
    (fr_whenever (subm hF) h0 (fr_checkpointNow (subm hF) h0)))))))))))))

theorem fr_execSleepCheckpointDone {F : Nat} {b : State} {s0} (hF : 2117440107276 ||| F = F) (h0 : Frm F b s0) : FrmR F b (execSleepCheckpointDone s0) := by
  unfold execSleepCheckpointDone
  repeat' first
    | with_reducible assumption
    | ((with_reducible apply subt hF); rfl)
    | with_reducible first | apply fr_whenever | apply fr_entrySleeps | apply frmR_next
    | split

theorem fr_deepLoss {F : Nat} {b : State} {s0} (hF : 274873712632 ||| F = F) (h0 : Frm F b s0) : Frm F b (deepLoss s0) where
  pending := h0.pending
  cclk := h0.cclk
  mode := h0.mode
  regs := .inl (bitm hF rfl)
  latched := .inl (bitm hF rfl)
  held := .inl (bitm hF rfl)
  ctrlLockA := .inl (bitm hF rfl)
  ctrlLockB := .inl (bitm hF rfl)
  shadows := .inl (bitm hF rfl)
  commits := .inl (bitm hF rfl)
  partNo := .inl (bitm hF rfl)
  hist := .inl (bitm hF rfl)
  rings := .inl (bitm hF rfl)
  msixA := .inl (bitm hF rfl)
  msixB := .inl (bitm hF rfl)
  mbx := .inl (bitm hF rfl)
  silt := .inl (bitm hF rfl)
  msgPages := .inl (bitm hF rfl)
  pb := .inl (bitm hF rfl)
  gpio := .inl (bitm hF rfl)
  ports := .inl (bitm hF rfl)
  ptp := .inl (bitm hF rfl)
  power := h0.power
  prs := .inl (bitm hF rfl)
  tables := .inl (bitm hF rfl)
  policing := .inl (bitm hF rfl)
  frames := .inl (bitm hF rfl)
  nextFrame := .inl (bitm hF rfl)
  fab := .inl (bitm hF rfl)
  egress := .inl (bitm hF rfl)
  buses := .inl (bitm hF rfl)
  gwe := .inl (bitm hF rfl)
  cipher := .inl (bitm hF rfl)
  keys := .inl (bitm hF rfl)
  twin := .inl (bitm hF rfl)
  sl := .inl (bitm hF rfl)
  faults := .inl (bitm hF rfl)
  upd := .inl (bitm hF rfl)
  nvm := h0.nvm
  out := h0.out
  free := h0.free

theorem fr_canCut {F : Nat} {b : State} {s0 a1} (hF : 1073741824 ||| F = F) (h0 : Frm F b s0) : Frm F b (canCut s0 a1) := by
  unfold canCut
  repeat' first
    | with_reducible assumption
    | ((with_reducible apply subt hF); rfl)
    | with_reducible apply fr_State_setCan
    | split
    | dsimp only

theorem fr_retainLoss {F : Nat} {b : State} {s0} (hF : 585524994056 ||| F = F) (h0 : Frm F b s0) : Frm F b (retainLoss s0) := by
  unfold retainLoss
  repeat' first
    | with_reducible assumption
    | ((with_reducible apply subt hF); rfl)
    | with_reducible first | apply fr_canCut | apply fr_slLeavesUp | apply fr_mk_335544320 | apply fr_mk_34359738368 | apply frm_foldl
    | simp only [frm_mk]
    | intro _
    | split

theorem fr_suppliesGo {F : Nat} {b : State} {s0 a1} (hF : 824633720824 ||| F = F) (h0 : Frm F b s0) : Frm F b (suppliesGo s0 a1) := by
  unfold suppliesGo
  repeat' first
    | with_reducible assumption
    | ((with_reducible apply subt hF); rfl)
    | with_reducible first | apply fr_deepLoss | apply fr_retainLoss | apply fr_mk_4194304
    | simp only [frm_mk]
    | split

theorem fr_domWakes {F : Nat} {b : State} {a0 s1 a2} (hF : 1717989433352 ||| F = F) (h1 : Frm F b s1) : Frm F b (domWakes a0 s1 a2) := by
  unfold domWakes
  repeat' first
    | with_reducible assumption
    | ((with_reducible apply subt hF); rfl)
    | with_reducible first | apply fr_domHoldover | apply fr_State_setDom | apply fr_domEnter
    | split
    | dsimp only

theorem fr_pbWakes {F : Nat} {b : State} {s0} (hF : 1717987336200 ||| F = F) (h0 : Frm F b s0) : Frm F b (pbWakes s0) := by
  unfold pbWakes
  repeat' first
    | with_reducible assumption
    | ((with_reducible apply subt hF); rfl)
    | with_reducible first | apply fr_enterStill | apply fr_pbLoss
    | split

theorem fr_ppoSkips {F : Nat} {b : State} {s0 s1 a2} (hF : 524296 ||| F = F) (h0 : Frm F b s0) (h1 : Frm F b s1) : Frm F b (ppoSkips s0 s1 a2) := by
  unfold ppoSkips
  repeat' first
    | with_reducible assumption
    | ((with_reducible apply subt hF); rfl)
    | with_reducible apply fr_State_setPpo
    | split
    | dsimp only

theorem fr_gatesWake {F : Nat} {b : State} {s0 s1 a2} (hF : 1718523944968 ||| F = F) (h0 : Frm F b s0) (h1 : Frm F b s1) : Frm F b (gatesWake s0 s1 a2) := by
  unfold gatesWake
  repeat' first
    | with_reducible assumption
    | ((with_reducible apply subt hF); rfl)
    | with_reducible first | apply fr_placeList | apply fr_State_setEgs | apply fr_mk_536870912
    | simp only [frm_mk]
    | split

theorem fr_cycleWakes {F : Nat} {b : State} {s0 s1} (hF : 1074003968 ||| F = F) (h0 : Frm F b s0) (h1 : Frm F b s1) : Frm F b (cycleWakes s0 s1) := by
  unfold cycleWakes
  repeat' first
    | with_reducible assumption
    | ((with_reducible apply subt hF); rfl)
    | with_reducible first | apply fr_canCycle | apply fr_mk_262144 | apply frm_foldl
    | simp only [frm_mk]
    | intro _
    | split

theorem fr_schedulesWake {F : Nat} {b : State} {s0 s1} (hF : 1719597948936 ||| F = F) (h0 : Frm F b s0) (h1 : Frm F b s1) : Frm F b (schedulesWake s0 s1) := by
  unfold schedulesWake
  repeat' first
    | with_reducible assumption
    | ((with_reducible apply subt hF); rfl)
    | with_reducible first | apply fr_gatesWake | apply fr_cycleWakes | apply frm_foldl
    | intro _

theorem fr_wakeAdvance {F : Nat} {b : State} {s0 a1} (hF : 1719600570378 ||| F = F) (h0 : Frm F b s0) : Frm F b (wakeAdvance s0 a1) := by
  unfold wakeAdvance
  repeat' first
    | with_reducible assumption
    | ((with_reducible apply subt hF); rfl)
    | with_reducible first | apply fr_schedulesWake | apply fr_ppoSkips | apply fr_pbWakes | apply fr_domWakes | apply fr_mk_2359298 | apply frm_foldl
    | simp only [frm_mk]
    | intro _

theorem fr_wakeSendsWup {F : Nat} {b : State} {s0 a1} (hF : 549756862464 ||| F = F) (h0 : Frm F b s0) : Frm F b (wakeSendsWup s0 a1) := by
  unfold wakeSendsWup
  repeat' first
    | with_reducible assumption
    | ((with_reducible apply subt hF); rfl)
    | with_reducible first | apply fr_tc10Wake | apply fr_State_emit
    | split

theorem fr_wakeTrains {F : Nat} {b : State} {s0 a1} (hF : 1718879674376 ||| F = F) (h0 : Frm F b s0) : Frm F b (wakeTrains s0 a1) := by
  unfold wakeTrains
  repeat' first
    | with_reducible assumption
    | ((with_reducible apply subt hF); rfl)
    | with_reducible apply fr_linkTrainStart
    | split

theorem fr_linRestarts {F : Nat} {b : State} {s0 a1} (hF : 1073741824 ||| F = F) (h0 : Frm F b s0) : Frm F b (linRestarts s0 a1) := by
  unfold linRestarts
  repeat' first
    | with_reducible assumption
    | ((with_reducible apply subt hF); rfl)
    | with_reducible first | apply fr_linResume | apply fr_linAwakes
    | split

theorem fr_roleRestore {F : Nat} {b : State} {s0} (hF : 1944550858764 ||| F = F) (h0 : Frm F b s0) : Frm F b (roleRestore s0) := by
  unfold roleRestore
  repeat' first
    | with_reducible assumption
    | ((with_reducible apply subt hF); rfl)
    | with_reducible first | apply fr_takeActive | apply fr_raiseTerm | apply fr_roleEntered | apply fr_State_tick1 | apply fr_setMode | apply fr_takeStandby | apply fr_mk_4194304 | apply fr_mk_17179869184
    | simp only [frm_mk]
    | split

theorem fr_wakeReady {F : Nat} {b : State} {s0} (hF : 4194312 ||| F = F) (h0 : Frm F b s0) : Frm F b (wakeReady s0) := by
  unfold wakeReady
  simp only [frm_mk]
  exact fr_mk_4194304 (subm hF) (fr_State_setReg (subm hF) h0)

theorem fr_wakeRowActs {F : Nat} {b : State} {s0 a1} (hF : 2014162935820 ||| F = F) (h0 : Frm F b s0) : Frm F b (wakeRowActs s0 a1) := by
  unfold wakeRowActs
  repeat' first
    | with_reducible assumption
    | ((with_reducible apply subt hF); rfl)
    | with_reducible first | apply fr_State_raise | apply fr_roleRestore | apply fr_wakeReady | apply fr_canWake | apply fr_linRestarts | apply fr_lanesTrain | apply fr_wakeTrains | apply fr_wakeSendsWup | apply fr_mk_268435456 | apply frm_foldl
    | simp only [frm_mk]
    | intro _
    | split

theorem fr_wakeDue {F : Nat} {b : State} {s0} (hF : 2014162935820 ||| F = F) (h0 : Frm F b s0) : Frm F b (wakeDue s0) := by
  unfold wakeDue
  repeat' first
    | with_reducible assumption
    | ((with_reducible apply subt hF); rfl)
    | with_reducible first | apply fr_wakeRowActs | apply fr_mk_4194304
    | simp only [frm_mk]
    | split

theorem fr_retainWake {F : Nat} {b : State} {s0} (hF : 1719604764682 ||| F = F) (h0 : Frm F b s0) : Frm F b (retainWake s0) := by
  unfold retainWake
  repeat' first
    | with_reducible assumption
    | ((with_reducible apply subt hF); rfl)
    | with_reducible first | apply fr_wakeAdvance | apply fr_State_tick1 | apply fr_mk_4194304
    | simp only [frm_mk]

theorem fr_wakeCounted {F : Nat} {b : State} {s0} (hF : 8 ||| F = F) (h0 : Frm F b s0) : Frm F b (wakeCounted s0) := by
  unfold wakeCounted
  repeat' first
    | with_reducible assumption
    | ((with_reducible apply subt hF); rfl)
    | with_reducible first | apply fr_State_bump | apply fr_State_setReg

theorem fr_wakes {F : Nat} {b : State} {s0} (hF : 2199023255550 ||| F = F) (h0 : Frm F b s0) : Frm F b (wakes s0) := by
  unfold wakes
  repeat' first
    | with_reducible assumption
    | ((with_reducible apply subt hF); rfl)
    | with_reducible first | apply fr_wakeCounted | apply fr_start | apply fr_retainWake
    | split

theorem fr_wakeSource {F : Nat} {b : State} {s0 a1 a2 a3} (hF : 8 ||| F = F) (h0 : Frm F b s0) : Frm F b (wakeSource s0 a1 a2 a3) := by
  unfold wakeSource
  repeat' first
    | with_reducible assumption
    | ((with_reducible apply subt hF); rfl)
    | with_reducible first | apply fr_State_setBitAt | apply fr_State_setReg
    | split

theorem fr_wakeEvent {F : Nat} {b : State} {s0 a1 a2 a3} (hF : 2199023255550 ||| F = F) (h0 : Frm F b s0) : Frm F b (wakeEvent s0 a1 a2 a3) := by
  unfold wakeEvent
  repeat' first
    | with_reducible assumption
    | ((with_reducible apply subt hF); rfl)
    | with_reducible first | apply fr_wakeSource | apply fr_State_bump | apply fr_State_setBitAt | apply fr_wakes | apply fr_mk_4194304
    | simp only [frm_mk]
    | split

theorem fr_execSuppliesOff {F : Nat} {b : State} {s0} (hF : 2199023255550 ||| F = F) (h0 : Frm F b s0) : FrmR F b (execSuppliesOff s0) := by
  unfold execSuppliesOff
  repeat' first
    | with_reducible assumption
    | ((with_reducible apply subt hF); rfl)
    | with_reducible first | apply fr_whenever | apply fr_suppliesGo | apply fr_wakes | apply frmR_next
    | split

theorem fr_execWakePinAssert {F : Nat} {b : State} {a0 s1} (hF : 2199023255550 ||| F = F) (h1 : Frm F b s1) : FrmR F b (execWakePinAssert a0 s1) := by
  unfold execWakePinAssert
  repeat' first
    | with_reducible assumption
    | ((with_reducible apply subt hF); rfl)
    | with_reducible first | apply fr_ifWf | apply fr_whenever | apply fr_wakeEvent

theorem fr_execWakeTimerExpire {F : Nat} {b : State} {s0} (hF : 2199023255550 ||| F = F) (h0 : Frm F b s0) : FrmR F b (execWakeTimerExpire s0) := by
  unfold execWakeTimerExpire
  repeat' first
    | with_reducible assumption
    | ((with_reducible apply subt hF); rfl)
    | with_reducible first | apply fr_whenever | apply fr_wakeEvent | apply frmR_next

theorem fr_wupSeen {F : Nat} {b : State} {s0 a1} (hF : 2199023255550 ||| F = F) (h0 : Frm F b s0) : Frm F b (wupSeen s0 a1) := by
  unfold wupSeen
  repeat' first
    | with_reducible assumption
    | ((with_reducible apply subt hF); rfl)
    | with_reducible first | apply fr_State_bump | apply fr_State_raise | apply fr_setTc10 | apply fr_wakeEvent
    | split

theorem fr_execTc10Wup {F : Nat} {b : State} {a0 s1} (hF : 2199023255550 ||| F = F) (h1 : Frm F b s1) : FrmR F b (execTc10Wup a0 s1) := by
  unfold execTc10Wup
  repeat' first
    | with_reducible assumption
    | ((with_reducible apply subt hF); rfl)
    | with_reducible first | apply fr_ifWf | apply fr_wupSeen

theorem fr_execTc10Wur {F : Nat} {b : State} {a0 s1} (hF : 2199023255550 ||| F = F) (h1 : Frm F b s1) : FrmR F b (execTc10Wur a0 s1) := by
  unfold execTc10Wur
  repeat' first
    | with_reducible assumption
    | ((with_reducible apply subt hF); rfl)
    | with_reducible first | apply fr_ifWf | apply fr_whenever | apply fr_State_bump | apply fr_State_raise | apply fr_wakeEvent
    | split
    | dsimp only

theorem fr_linWakes {F : Nat} {b : State} {s0 a1} (hF : 2199023255550 ||| F = F) (h0 : Frm F b s0) : Frm F b (linWakes s0 a1) := by
  unfold linWakes
  repeat' first
    | with_reducible assumption
    | ((with_reducible apply subt hF); rfl)
    | with_reducible first | apply fr_linAwakes | apply fr_wakeEvent
    | split

theorem fr_execLinWakeDetect {F : Nat} {b : State} {a0 s1} (hF : 2199023255550 ||| F = F) (h1 : Frm F b s1) : FrmR F b (execLinWakeDetect a0 s1) := by
  unfold execLinWakeDetect
  repeat' first
    | with_reducible assumption
    | ((with_reducible apply subt hF); rfl)
    | with_reducible first | apply fr_ifWf | apply fr_whenever | apply fr_linWakes

theorem fr_execPowerOn {F : Nat} {b : State} {s0} (hF : 2199023255550 ||| F = F) (h0 : Frm F b s0) : FrmR F b (execPowerOn s0) := by
  unfold execPowerOn
  repeat' first
    | with_reducible assumption
    | ((with_reducible apply subt hF); rfl)
    | with_reducible first | apply fr_start | apply frmR_next

theorem fr_execResetPin {F : Nat} {b : State} {s0} (hF : 2199023255550 ||| F = F) (h0 : Frm F b s0) : FrmR F b (execResetPin s0) := by
  unfold execResetPin
  repeat' first
    | with_reducible assumption
    | ((with_reducible apply subt hF); rfl)
    | with_reducible first | apply fr_start | apply frmR_next

theorem fr_retry {F : Nat} {b : State} {s0} (hF : 2199023255550 ||| F = F) (h0 : Frm F b s0) : Frm F b (retry s0) := by
  unfold retry
  repeat' first
    | with_reducible assumption
    | ((with_reducible apply subt hF); rfl)
    | with_reducible first | apply fr_start | apply fr_mk_4194304
    | simp only [frm_mk]
    | split

theorem fr_execSupplyRetry {F : Nat} {b : State} {s0} (hF : 2199023255550 ||| F = F) (h0 : Frm F b s0) : FrmR F b (execSupplyRetry s0) := by
  unfold execSupplyRetry
  repeat' first
    | with_reducible assumption
    | ((with_reducible apply subt hF); rfl)
    | with_reducible first | apply fr_whenever | apply fr_retry | apply frmR_next

theorem fr_huskKeys {F : Nat} {b : State} {s0 a1} (hF : 283467841536 ||| F = F) (h0 : Frm F b s0) : Frm F b (huskKeys s0 a1) := by
  unfold huskKeys
  repeat' first
    | with_reducible assumption
    | ((with_reducible apply subt hF); rfl)
    | with_reducible apply fr_mk_283467841536
    | simp only [frm_mk]

theorem fr_siltHusk {F : Nat} {b : State} {s0 a1} (hF : 1649267662856 ||| F = F) (h0 : Frm F b s0) : Frm F b (siltHusk s0 a1) := by
  unfold siltHusk
  repeat' first
    | with_reducible assumption
    | ((with_reducible apply subt hF); rfl)
    | with_reducible first | apply fr_siltKey | apply fr_State_tick1

theorem fr_huskPower {F : Nat} {b : State} {s0} (hF : 4194304 ||| F = F) (h0 : Frm F b s0) : Frm F b (huskPower s0) := by
  unfold huskPower
  repeat' first
    | with_reducible assumption
    | ((with_reducible apply subt hF); rfl)
    | with_reducible apply fr_mk_4194304
    | simp only [frm_mk]

theorem fr_abortMacs {F : Nat} {b : State} {s0} (hF : 1073741824 ||| F = F) (h0 : Frm F b s0) : Frm F b (abortMacs s0) := by
  unfold abortMacs
  repeat' first
    | with_reducible assumption
    | ((with_reducible apply subt hF); rfl)
    | with_reducible apply fr_mk_1073741824
    | simp only [frm_mk]

theorem fr_husk {F : Nat} {b : State} {s0 a1} (hF : 2024900911884 ||| F = F) (h0 : Frm F b s0) : Frm F b (husk s0 a1) := by
  unfold husk
  repeat' first
    | with_reducible assumption
    | ((with_reducible apply subt hF); rfl)
    | with_reducible first | apply fr_clearSlots | apply fr_abortMacs | apply fr_laAbort | apply fr_wakeSource | apply fr_quarantine | apply fr_huskPower | apply fr_State_setReg | apply fr_siltHusk | apply fr_huskKeys
    | split

theorem fr_execTamperAssert {F : Nat} {b : State} {s0} (hF : 2024900911884 ||| F = F) (h0 : Frm F b s0) : FrmR F b (execTamperAssert s0) := by
  unfold execTamperAssert
  repeat' first
    | with_reducible assumption
    | ((with_reducible apply subt hF); rfl)
    | with_reducible first | apply fr_husk | apply frmR_next

theorem fr_execGlitchDetect {F : Nat} {b : State} {a0 s1} (hF : 2024900911884 ||| F = F) (h1 : Frm F b s1) : FrmR F b (execGlitchDetect a0 s1) := by
  unfold execGlitchDetect
  repeat' first
    | with_reducible assumption
    | ((with_reducible apply subt hF); rfl)
    | with_reducible first | apply fr_husk | apply fr_whenever | apply frmR_next
    | split

theorem fr_execTemperatureLimit {F : Nat} {b : State} {s0} (hF : 2024900911884 ||| F = F) (h0 : Frm F b s0) : FrmR F b (execTemperatureLimit s0) := by
  unfold execTemperatureLimit
  repeat' first
    | with_reducible assumption
    | ((with_reducible apply subt hF); rfl)
    | with_reducible first | apply fr_husk | apply frmR_next

end Sys2Proof.Laws
end

