-- ==== Sys2Proof/Laws/Frame9.lean ====
section
/-!
SUPPORT. `Frm` for the functions of Machine/: TwinPair, TwinLink, View, Tick.
-/
set_option linter.unusedVariables false
namespace Sys2Proof.Laws
set_option Elab.async false
open Sys2Proof Sys2Proof.Machine

/-! ### TwinPair -/

theorem fr_execTwnKick {F : Nat} {b : State} {a0 s1} (hF : 566935838728 ||| F = F) (h1 : Frm F b s1) : FrmR F b (execTwnKick a0 s1) := by
  unfold execTwnKick
  repeat' first
    | with_reducible assumption
    | ((with_reducible apply subt hF); rfl)
    | with_reducible first | apply fr_State_write | apply fr_kicked | apply frmR_next

theorem fr_kickMissed {F : Nat} {b : State} {s0} (hF : 1737138103052 ||| F = F) (h0 : Frm F b s0) : Frm F b (kickMissed s0) := by
  unfold kickMissed
  repeat' first
    | with_reducible assumption
    | ((with_reducible apply subt hF); rfl)
    | with_reducible first | apply fr_quarantine | apply fr_State_tick1 | apply fr_aliveFall

theorem fr_execKickTimeout {F : Nat} {b : State} {s0} (hF : 1737138103052 ||| F = F) (h0 : Frm F b s0) : FrmR F b (execKickTimeout s0) := by
  unfold execKickTimeout
  repeat' first
    | with_reducible assumption
    | ((with_reducible apply subt hF); rfl)
    | with_reducible first | apply fr_whenever | apply fr_kickMissed | apply frmR_next
    | split

theorem fr_hbOn {F : Nat} {b : State} {s0 a1} (hF : 549755813896 ||| F = F) (h0 : Frm F b s0) : Frm F b (hbOn s0 a1) := by
  unfold hbOn
  repeat' first
    | with_reducible assumption
    | ((with_reducible apply subt hF); rfl)
    | with_reducible apply fr_slEmitOn
    | split

theorem fr_heartbeat {F : Nat} {b : State} {s0} (hF : 566935683080 ||| F = F) (h0 : Frm F b s0) : Frm F b (heartbeat s0) := by
  unfold heartbeat
  repeat' first
    | with_reducible assumption
    | ((with_reducible apply subt hF); rfl)
    | with_reducible first | apply fr_State_emit | apply fr_hbOn | apply fr_mk_17179869184
    | simp only [frm_mk]

theorem fr_execHeartbeatTx {F : Nat} {b : State} {s0} (hF : 566935683080 ||| F = F) (h0 : Frm F b s0) : FrmR F b (execHeartbeatTx s0) := by
  unfold execHeartbeatTx
  repeat' first
    | with_reducible assumption
    | ((with_reducible apply subt hF); rfl)
    | with_reducible first | apply fr_whenever | apply fr_heartbeat | apply frmR_next

theorem fr_hearPeer {F : Nat} {b : State} {s0 a1} (hF : 566935838728 ||| F = F) (h0 : Frm F b s0) : Frm F b (hearPeer s0 a1) := by
  unfold hearPeer
  repeat' first
    | with_reducible assumption
    | ((with_reducible apply subt hF); rfl)
    | with_reducible first | apply fr_State_raise | apply fr_mk_17179869184
    | simp only [frm_mk]
    | split

theorem fr_strapDue {F : Nat} {b : State} {s0} (hF : 566935838728 ||| F = F) (h0 : Frm F b s0) : Frm F b (strapDue s0) := by
  unfold strapDue
  repeat' first
    | with_reducible assumption
    | ((with_reducible apply subt hF); rfl)
    | with_reducible apply fr_hearPeer
    | split

theorem fr_heardAgain {F : Nat} {b : State} {s0} (hF : 601295421448 ||| F = F) (h0 : Frm F b s0) : Frm F b (heardAgain s0) := by
  unfold heardAgain
  repeat' first
    | with_reducible assumption
    | ((with_reducible apply subt hF); rfl)
    | with_reducible first | apply fr_rejoin | apply fr_mk_17179869184
    | simp only [frm_mk]
    | split

theorem fr_heartbeatHeard {F : Nat} {b : State} {s0 a1 a2} (hF : 601295577096 ||| F = F) (h0 : Frm F b s0) : Frm F b (heartbeatHeard s0 a1 a2) := by
  unfold heartbeatHeard
  repeat' first
    | with_reducible assumption
    | ((with_reducible apply subt hF); rfl)
    | with_reducible first | apply fr_heardAgain | apply fr_hearPeer | apply fr_mk_17179869184
    | simp only [frm_mk]
    | split

theorem fr_execHeartbeatRx {F : Nat} {b : State} {a0 a1 s2} (hF : 601295577096 ||| F = F) (h2 : Frm F b s2) : FrmR F b (execHeartbeatRx a0 a1 s2) := by
  unfold execHeartbeatRx
  repeat' first
    | with_reducible assumption
    | ((with_reducible apply subt hF); rfl)
    | with_reducible first | apply fr_whenever | apply fr_heartbeatHeard | apply frmR_next

theorem fr_setSilent {F : Nat} {b : State} {s0 a1} (hF : 17179869184 ||| F = F) (h0 : Frm F b s0) : Frm F b (setSilent s0 a1) := by
  unfold setSilent
  repeat' first
    | with_reducible assumption
    | ((with_reducible apply subt hF); rfl)
    | with_reducible apply fr_mk_17179869184
    | simp only [frm_mk]
    | split

theorem fr_takeoverCheck {F : Nat} {b : State} {s0} (hF : 566935838728 ||| F = F) (h0 : Frm F b s0) : Frm F b (takeoverCheck s0) := by
  unfold takeoverCheck
  repeat' first
    | with_reducible assumption
    | ((with_reducible apply subt hF); rfl)
    | with_reducible first | apply fr_takeover | apply fr_mk_17179869184
    | simp only [frm_mk]
    | split

theorem fr_silence {F : Nat} {b : State} {s0 a1} (hF : 1735166943240 ||| F = F) (h0 : Frm F b s0) : Frm F b (silence s0 a1) := by
  unfold silence
  repeat' first
    | with_reducible assumption
    | ((with_reducible apply subt hF); rfl)
    | with_reducible first | apply fr_setSilent | apply fr_takeoverCheck | apply fr_State_raise | apply fr_State_bump | apply fr_State_report | apply fr_mk_17179869184
    | simp only [frm_mk]
    | split

theorem fr_execHeartbeatSilent {F : Nat} {b : State} {a0 s1} (hF : 1735166943240 ||| F = F) (h1 : Frm F b s1) : FrmR F b (execHeartbeatSilent a0 s1) := by
  unfold execHeartbeatSilent
  repeat' first
    | with_reducible assumption
    | ((with_reducible apply subt hF); rfl)
    | with_reducible first | apply fr_whenever | apply fr_silence | apply frmR_next

theorem fr_takeoverRest {F : Nat} {b : State} {s0} (hF : 1743488507912 ||| F = F) (h0 : Frm F b s0) : Frm F b (takeoverRest s0) := by
  unfold takeoverRest
  repeat' first
    | with_reducible assumption
    | ((with_reducible apply subt hF); rfl)
    | with_reducible first | apply fr_roleFixups | apply fr_readyTime | apply fr_reexamine | apply fr_State_report | apply fr_siltRole | apply fr_mk_17179869184 | apply frm_foldl
    | simp only [frm_mk]
    | intro _
    | split

theorem fr_execTakeoverTask {F : Nat} {b : State} {s0} (hF : 1743488507912 ||| F = F) (h0 : Frm F b s0) : FrmR F b (execTakeoverTask s0) := by
  unfold execTakeoverTask
  repeat' first
    | with_reducible assumption
    | ((with_reducible apply subt hF); rfl)
    | with_reducible first | apply fr_whenever | apply fr_takeoverRest | apply frmR_next
    | split

theorem fr_yields {F : Nat} {b : State} {s0} (hF : 673253155596 ||| F = F) (h0 : Frm F b s0) : Frm F b (yields s0) := by
  unfold yields
  repeat' first
    | with_reducible assumption
    | ((with_reducible apply subt hF); rfl)
    | with_reducible first | apply fr_swapAnswer | apply fr_discardCommits | apply fr_takeStandby | apply fr_siltRole | apply fr_roleMode | apply fr_sendJoin | apply fr_roleEntered | apply fr_State_bump | apply fr_mk_85899345920
    | simp only [frm_mk]

theorem fr_foreignClaim {F : Nat} {b : State} {s0} (hF : 673253155596 ||| F = F) (h0 : Frm F b s0) : Frm F b (foreignClaim s0) := by
  unfold foreignClaim
  repeat' first
    | with_reducible assumption
    | ((with_reducible apply subt hF); rfl)
    | with_reducible first | apply fr_State_raise | apply fr_State_bump | apply fr_yields | apply fr_mk_17179869184
    | simp only [frm_mk]
    | split

theorem fr_isolates {F : Nat} {b : State} {s0} (hF : 1735167008776 ||| F = F) (h0 : Frm F b s0) : Frm F b (isolates s0) := by
  unfold isolates
  repeat' first
    | with_reducible assumption
    | ((with_reducible apply subt hF); rfl)
    | with_reducible first | apply fr_siltRole | apply fr_State_report | apply fr_State_raise | apply fr_mk_17179869184
    | simp only [frm_mk]

theorem fr_claimSampled {F : Nat} {b : State} {s0 a1 a2} (hF : 1772764783372 ||| F = F) (h0 : Frm F b s0) : Frm F b (claimSampled s0 a1 a2) := by
  unfold claimSampled
  repeat' first
    | with_reducible assumption
    | ((with_reducible apply subt hF); rfl)
    | with_reducible first | apply fr_foreignClaim | apply fr_takeover | apply fr_isolates | apply fr_mk_17179869184
    | simp only [frm_mk]
    | split

theorem fr_execClaimWindow {F : Nat} {b : State} {a0 s1} (hF : 1772764783372 ||| F = F) (h1 : Frm F b s1) : FrmR F b (execClaimWindow a0 s1) := by
  unfold execClaimWindow
  repeat' first
    | with_reducible assumption
    | ((with_reducible apply subt hF); rfl)
    | with_reducible first | apply fr_claimSampled | apply frmR_next
    | split

theorem fr_arbStandby {F : Nat} {b : State} {s0} (hF : 604516868108 ||| F = F) (h0 : Frm F b s0) : Frm F b (arbStandby s0) := by
  unfold arbStandby
  repeat' first
    | with_reducible assumption
    | ((with_reducible apply subt hF); rfl)
    | with_reducible first | apply fr_roleMode | apply fr_takeStandby | apply fr_sendJoin | apply fr_roleEntered | apply fr_siltRole

theorem fr_arbActive {F : Nat} {b : State} {s0} (hF : 841813811212 ||| F = F) (h0 : Frm F b s0) : Frm F b (arbActive s0) := by
  unfold arbActive
  repeat' first
    | with_reducible assumption
    | ((with_reducible apply subt hF); rfl)
    | with_reducible first | apply fr_takeActive | apply fr_raiseTerm | apply fr_roleMode | apply fr_roleEntered | apply fr_siltRole | apply fr_mk_17179869184
    | simp only [frm_mk]

theorem fr_execArbitrationStart {F : Nat} {b : State} {s0} (hF : 604516868108 ||| F = F) (h0 : Frm F b s0) : FrmR F b (execArbitrationStart s0) := by
  unfold execArbitrationStart
  repeat' first
    | with_reducible assumption
    | ((with_reducible apply subt hF); rfl)
    | with_reducible first | apply fr_whenever | apply fr_arbStandby | apply fr_mk_17179869184 | apply frmR_next
    | simp only [frm_mk]
    | split

theorem fr_execObserveEnd {F : Nat} {b : State} {s0} (hF : 841813811212 ||| F = F) (h0 : Frm F b s0) : FrmR F b (execObserveEnd s0) := by
  unfold execObserveEnd
  repeat' first
    | with_reducible assumption
    | ((with_reducible apply subt hF); rfl)
    | with_reducible first | apply fr_whenever | apply fr_arbActive | apply frmR_next

theorem fr_execGraceEnd {F : Nat} {b : State} {s0} (hF : 841813811212 ||| F = F) (h0 : Frm F b s0) : FrmR F b (execGraceEnd s0) := by
  unfold execGraceEnd
  repeat' first
    | with_reducible assumption
    | ((with_reducible apply subt hF); rfl)
    | with_reducible first | apply fr_whenever | apply fr_arbActive | apply frmR_next

theorem fr_execClaimLowRead {F : Nat} {b : State} {s0} (hF : 604516868108 ||| F = F) (h0 : Frm F b s0) : FrmR F b (execClaimLowRead s0) := by
  unfold execClaimLowRead
  repeat' first
    | with_reducible assumption
    | ((with_reducible apply subt hF); rfl)
    | with_reducible first | apply fr_arbStandby | apply fr_takeoverCheck | apply fr_mk_17179869184 | apply frmR_next
    | simp only [frm_mk]
    | split

theorem fr_execClaimHighRead {F : Nat} {b : State} {s0} (hF : 566935838728 ||| F = F) (h0 : Frm F b s0) : FrmR F b (execClaimHighRead s0) := by
  unfold execClaimHighRead
  repeat' first
    | with_reducible assumption
    | ((with_reducible apply subt hF); rfl)
    | with_reducible first | apply fr_takeoverCheck | apply fr_mk_17179869184 | apply frmR_next
    | simp only [frm_mk]

theorem fr_swapFlushPort {F : Nat} {b : State} {s0 a1} (hF : 872415240 ||| F = F) (h0 : Frm F b s0) : Frm F b (swapFlushPort s0 a1) := by
  unfold swapFlushPort
  repeat' first
    | with_reducible assumption
    | ((with_reducible apply subt hF); rfl)
    | with_reducible first | apply fr_State_bump | apply fr_removeCopy | apply frm_foldl
    | intro _

theorem fr_swapCounts {F : Nat} {b : State} {s0 a1} (hF : 566935838728 ||| F = F) (h0 : Frm F b s0) : Frm F b (swapCounts s0 a1) := by
  unfold swapCounts
  repeat' first
    | with_reducible assumption
    | ((with_reducible apply subt hF); rfl)
    | with_reducible first | apply fr_roleEntered | apply fr_State_raise | apply fr_State_bump

theorem fr_swapThen {F : Nat} {b : State} {a0 s1} (hF : 2199023255550 ||| F = F) (h1 : Frm F b s1) : Frm F b (swapThen a0 s1) := by
  unfold swapThen
  repeat' first
    | with_reducible assumption
    | ((with_reducible apply subt hF); rfl)
    | with_reducible first | apply fr_enterService | apply fr_destructiveTests
    | split

theorem fr_swapOut {F : Nat} {b : State} {s0 a1} (hF : 2199023255550 ||| F = F) (h0 : Frm F b s0) : Frm F b (swapOut s0 a1) := by
  unfold swapOut
  repeat' first
    | with_reducible assumption
    | ((with_reducible apply subt hF); rfl)
    | with_reducible first | apply fr_takeStandby | apply fr_swapFlushPort | apply fr_swapCounts | apply fr_siltRole | apply fr_roleMode | apply fr_mbxRespond | apply fr_swapThen | apply fr_rejoin | apply fr_mk_85899345920 | apply frm_foldl
    | simp only [frm_mk]
    | intro _
    | split

theorem fr_swapSa {F : Nat} {b : State} {s0 a1} (hF : 8 ||| F = F) (h0 : Frm F b s0) : Frm F b (swapSa s0 a1) := by
  unfold swapSa
  repeat' first
    | with_reducible assumption
    | ((with_reducible apply subt hF); rfl)
    | with_reducible apply fr_State_setPair

theorem fr_swapIn {F : Nat} {b : State} {s0} (hF : 841813811212 ||| F = F) (h0 : Frm F b s0) : Frm F b (swapIn s0) := by
  unfold swapIn
  repeat' first
    | with_reducible assumption
    | ((with_reducible apply subt hF); rfl)
    | with_reducible first | apply fr_takeActive | apply fr_raiseTerm | apply fr_swapSa | apply fr_loadPns | apply fr_swapCounts | apply fr_siltRole | apply fr_roleMode | apply fr_mk_17179869184 | apply frm_foldl
    | simp only [frm_mk]
    | intro _

theorem fr_execSwapPoint {F : Nat} {b : State} {s0} (hF : 2199023255550 ||| F = F) (h0 : Frm F b s0) : FrmR F b (execSwapPoint s0) := by
  unfold execSwapPoint
  repeat' first
    | with_reducible assumption
    | ((with_reducible apply subt hF); rfl)
    | with_reducible first | apply fr_swapOut | apply fr_swapIn | apply frmR_next
    | split

theorem fr_swapAborts {F : Nat} {b : State} {s0} (hF : 635655217160 ||| F = F) (h0 : Frm F b s0) : Frm F b (swapAborts s0) := by
  unfold swapAborts
  repeat' first
    | with_reducible assumption
    | ((with_reducible apply subt hF); rfl)
    | with_reducible first | apply fr_swapAnswer | apply fr_mk_85899345920
    | simp only [frm_mk]

theorem fr_execSwapAbort {F : Nat} {b : State} {s0} (hF : 635655217160 ||| F = F) (h0 : Frm F b s0) : FrmR F b (execSwapAbort s0) := by
  unfold execSwapAbort
  repeat' first
    | with_reducible assumption
    | ((with_reducible apply subt hF); rfl)
    | with_reducible first | apply fr_whenever | apply fr_swapAborts | apply frmR_next
    | split

theorem fr_annSend {F : Nat} {b : State} {a0 s1 a2} (hF : 17649631240 ||| F = F) (h1 : Frm F b s1) : Frm F b (annSend a0 s1 a2) := by
  unfold annSend
  repeat' first
    | with_reducible assumption
    | ((with_reducible apply subt hF); rfl)
    | with_reducible first | apply fr_State_bump | apply fr_gptpSend | apply fr_mk_17179869184
    | simp only [frm_mk]

theorem fr_announce {F : Nat} {b : State} {s0} (hF : 567405600776 ||| F = F) (h0 : Frm F b s0) : Frm F b (announce s0) := by
  unfold announce
  repeat' first
    | with_reducible assumption
    | ((with_reducible apply subt hF); rfl)
    | with_reducible first | apply fr_State_raise | apply fr_State_bump | apply fr_annSend | apply fr_mk_17179869184 | apply frm_foldl
    | simp only [frm_mk]
    | intro _
    | split

theorem fr_execRoleAnnounce {F : Nat} {b : State} {s0} (hF : 567405600776 ||| F = F) (h0 : Frm F b s0) : FrmR F b (execRoleAnnounce s0) := by
  unfold execRoleAnnounce
  repeat' first
    | with_reducible assumption
    | ((with_reducible apply subt hF); rfl)
    | with_reducible first | apply fr_whenever | apply fr_announce | apply frmR_next

/-! ### TwinLink -/

theorem fr_roleRecord {F : Nat} {b : State} {s0 a1 a2} (hF : 601295421448 ||| F = F) (h0 : Frm F b s0) : Frm F b (roleRecord s0 a1 a2) := by
  unfold roleRecord
  repeat' first
    | with_reducible assumption
    | ((with_reducible apply subt hF); rfl)
    | with_reducible first | apply fr_slSend | apply fr_rejoin | apply fr_mk_17179869184
    | simp only [frm_mk]
    | split

theorem fr_mkaRecord {F : Nat} {b : State} {s0 a1 a2} (hF : 2041653190664 ||| F = F) (h0 : Frm F b s0) : Frm F b (mkaRecord s0 a1 a2) := by
  unfold mkaRecord
  repeat' first
    | with_reducible assumption
    | ((with_reducible apply subt hF); rfl)
    | with_reducible first | apply fr_sourceFrame | apply fr_mkaHears
    | split

theorem fr_sakRecord {F : Nat} {b : State} {s0 a1 a2 a3 a4 a5} (hF : 2041183428616 ||| F = F) (h0 : Frm F b s0) : Frm F b (sakRecord s0 a1 a2 a3 a4 a5) := by
  unfold sakRecord
  repeat' first
    | with_reducible assumption
    | ((with_reducible apply subt hF); rfl)
    | with_reducible first | apply fr_sakInstall | apply fr_State_setMka
    | split

theorem fr_joinRecord {F : Nat} {b : State} {s0 a1} (hF : 17179869184 ||| F = F) (h0 : Frm F b s0) : Frm F b (joinRecord s0 a1) := by
  unfold joinRecord
  repeat' first
    | with_reducible assumption
    | ((with_reducible apply subt hF); rfl)
    | with_reducible apply fr_mk_17179869184
    | simp only [frm_mk]

theorem fr_slTakes {F : Nat} {b : State} {s0 a1 a2 a3} (hF : 2196272017416 ||| F = F) (h0 : Frm F b s0) : Frm F b (slTakes s0 a1 a2 a3) := by
  unfold slTakes
  repeat' first
    | with_reducible assumption
    | ((with_reducible apply subt hF); rfl)
    | with_reducible first | apply fr_joinRecord | apply fr_roleRecord | apply fr_mkaRecord | apply fr_sakRecord | apply fr_relayAnswered | apply fr_mk_17179869184
    | simp only [frm_mk]
    | split

theorem fr_lackTaken {F : Nat} {b : State} {s0 a1} (hF : 584115552264 ||| F = F) (h0 : Frm F b s0) : Frm F b (lackTaken s0 a1) := by
  unfold lackTaken
  repeat' first
    | with_reducible assumption
    | ((with_reducible apply subt hF); rfl)
    | with_reducible first | apply fr_slDrain | apply fr_mk_34359738368
    | simp only [frm_mk]

theorem fr_slSequenced {F : Nat} {b : State} {s0 a1} (hF : 2196272017416 ||| F = F) (h0 : Frm F b s0) : Frm F b (slSequenced s0 a1) := by
  unfold slSequenced
  repeat' first
    | with_reducible assumption
    | ((with_reducible apply subt hF); rfl)
    | with_reducible first | apply fr_slTakes | apply fr_mk_34359738368
    | simp only [frm_mk]
    | split

theorem fr_slReceive {F : Nat} {b : State} {s0 a1} (hF : 2196272017416 ||| F = F) (h0 : Frm F b s0) : Frm F b (slReceive s0 a1) := by
  unfold slReceive
  repeat' first
    | with_reducible assumption
    | ((with_reducible apply subt hF); rfl)
    | with_reducible first | apply fr_State_bump | apply fr_lackTaken | apply fr_slSequenced
    | split

theorem fr_execSlRecordRx {F : Nat} {b : State} {a0 a1 s2} (hF : 2196272017416 ||| F = F) (h2 : Frm F b s2) : FrmR F b (execSlRecordRx a0 a1 s2) := by
  unfold execSlRecordRx
  repeat' first
    | with_reducible assumption
    | ((with_reducible apply subt hF); rfl)
    | with_reducible first | apply fr_ifWf | apply fr_whenever | apply fr_slReceive

theorem fr_slAcks {F : Nat} {b : State} {s0} (hF : 584115552264 ||| F = F) (h0 : Frm F b s0) : Frm F b (slAcks s0) := by
  unfold slAcks
  repeat' first
    | with_reducible assumption
    | ((with_reducible apply subt hF); rfl)
    | with_reducible first | apply fr_slEmit | apply fr_mk_34359738368
    | simp only [frm_mk]

theorem fr_execSlLack {F : Nat} {b : State} {s0} (hF : 584115552264 ||| F = F) (h0 : Frm F b s0) : FrmR F b (execSlLack s0) := by
  unfold execSlLack
  repeat' first
    | with_reducible assumption
    | ((with_reducible apply subt hF); rfl)
    | with_reducible first | apply fr_whenever | apply fr_slAcks | apply frmR_next

theorem fr_slResend {F : Nat} {b : State} {s0} (hF : 584115552264 ||| F = F) (h0 : Frm F b s0) : Frm F b (slResend s0) := by
  unfold slResend
  repeat' first
    | with_reducible assumption
    | ((with_reducible apply subt hF); rfl)
    | with_reducible first | apply fr_State_bump | apply fr_slEmit | apply fr_mk_34359738368 | apply frm_foldl
    | simp only [frm_mk]
    | intro _

theorem fr_execSlRetransmit {F : Nat} {b : State} {s0} (hF : 584115552264 ||| F = F) (h0 : Frm F b s0) : FrmR F b (execSlRetransmit s0) := by
  unfold execSlRetransmit
  repeat' first
    | with_reducible assumption
    | ((with_reducible apply subt hF); rfl)
    | with_reducible first | apply fr_whenever | apply fr_slResend | apply frmR_next
    | split

theorem fr_execJoinReqRx {F : Nat} {b : State} {s0} (hF : 17179869184 ||| F = F) (h0 : Frm F b s0) : FrmR F b (execJoinReqRx s0) := by
  unfold execJoinReqRx
  repeat' first
    | with_reducible assumption
    | ((with_reducible apply subt hF); rfl)
    | with_reducible first | apply fr_whenever | apply fr_mk_17179869184 | apply frmR_next
    | simp only [frm_mk]

theorem fr_ownEntries {F : Nat} {b : State} {s0} (hF : 16777216 ||| F = F) (h0 : Frm F b s0) : Frm F b (ownEntries s0) := by
  unfold ownEntries
  exact fr_mk_16777216 (subm hF) h0

theorem fr_joinEntry {F : Nat} {b : State} {s0 a1} (hF : 16777216 ||| F = F) (h0 : Frm F b s0) : Frm F b (joinEntry s0 a1) := by
  unfold joinEntry
  repeat' first
    | with_reducible assumption
    | ((with_reducible apply subt hF); rfl)
    | with_reducible apply fr_State_setEnt
    | split

theorem fr_joinGate {F : Nat} {b : State} {s0 a1} (hF : 536870912 ||| F = F) (h0 : Frm F b s0) : Frm F b (joinGate s0 a1) := by
  unfold joinGate
  repeat' first
    | with_reducible assumption
    | ((with_reducible apply subt hF); rfl)
    | with_reducible apply fr_mk_536870912
    | simp only [frm_mk]

theorem fr_joinOverlay {F : Nat} {b : State} {s0 a1} (hF : 16777216 ||| F = F) (h0 : Frm F b s0) : Frm F b (joinOverlay s0 a1) := by
  unfold joinOverlay
  repeat' first
    | with_reducible assumption
    | ((with_reducible apply subt hF); rfl)
    | with_reducible apply fr_State_setOvl
    | split

theorem fr_joinEntries {F : Nat} {b : State} {s0} (hF : 553648128 ||| F = F) (h0 : Frm F b s0) : Frm F b (joinEntries s0) := by
  unfold joinEntries
  repeat' first
    | with_reducible assumption
    | ((with_reducible apply subt hF); rfl)
    | with_reducible first | apply fr_ownEntries | apply fr_joinOverlay | apply fr_joinEntry | apply fr_joinGate | apply fr_mk_536870912 | apply frm_foldl
    | simp only [frm_mk]
    | intro _
    | split

theorem fr_joinCycle {F : Nat} {b : State} {s0 a1} (hF : 262144 ||| F = F) (h0 : Frm F b s0) : Frm F b (joinCycle s0 a1) := by
  unfold joinCycle
  exact fr_mk_262144 (subm hF) h0

theorem fr_joinMade {F : Nat} {b : State} {s0 a1} (hF : 17179869696 ||| F = F) (h0 : Frm F b s0) : Frm F b (joinMade s0 a1) := by
  unfold joinMade
  repeat' first
    | with_reducible assumption
    | ((with_reducible apply subt hF); rfl)
    | with_reducible apply fr_mk_17179869696
    | simp only [frm_mk]

theorem fr_joinApplies {F : Nat} {b : State} {s0 a1 a2 a3 a4} (hF : 1771493024264 ||| F = F) (h0 : Frm F b s0) : Frm F b (joinApplies s0 a1 a2 a3 a4) := by
  unfold joinApplies
  repeat' first
    | with_reducible assumption
    | ((with_reducible apply subt hF); rfl)
    | with_reducible first | apply fr_State_setReg | apply fr_joinCycle | apply fr_commitEffects | apply fr_joinEntries | apply fr_State_setFld | apply fr_updateDigest | apply fr_State_setPair | apply fr_joinMade | apply frm_foldl
    | intro _

theorem fr_execJoinEndRx {F : Nat} {b : State} {a0 a1 a2 a3 s4} (hF : 1771493024264 ||| F = F) (h4 : Frm F b s4) : FrmR F b (execJoinEndRx a0 a1 a2 a3 s4) :=
  fr_whenever (subm hF) h4 (fr_joinApplies (subm hF) h4)

theorem fr_applyPassed {F : Nat} {b : State} {a0 s1} (hF : 1771530840588 ||| F = F) (h1 : Frm F b s1) : Frm F b (applyPassed a0 s1) := by
  unfold applyPassed
  repeat' first
    | with_reducible assumption
    | ((with_reducible apply subt hF); rfl)
    | with_reducible first | apply fr_applyCommit | apply frm_foldl
    | intro _

theorem fr_adoptCore {F : Nat} {b : State} {s0 a1} (hF : 1773678324236 ||| F = F) (h0 : Frm F b s0) : Frm F b (adoptCore s0 a1) := by
  unfold adoptCore
  repeat' first
    | with_reducible assumption
    | ((with_reducible apply subt hF); rfl)
    | with_reducible first | apply fr_State_setReg | apply fr_applyPassed | apply fr_adoptOwners | apply fr_adoptDeltas | apply fr_adoptTraffic | apply fr_adoptTime | apply fr_updateDigest | apply fr_State_setPair | apply fr_mk_17179869184 | apply frm_foldl
    | simp only [frm_mk]
    | intro _
    | split

theorem fr_applySync {F : Nat} {b : State} {s0 a1} (hF : 1773678324236 ||| F = F) (h0 : Frm F b s0) : Frm F b (applySync s0 a1) := by
  unfold applySync
  repeat' first
    | with_reducible assumption
    | ((with_reducible apply subt hF); rfl)
    | with_reducible first | apply fr_adoptCore | apply fr_State_bumpBy | apply fr_slSend | apply fr_syncGained | apply fr_digestMismatch | apply fr_mk_17179869184
    | simp only [frm_mk]
    | split

theorem fr_execSyncApply {F : Nat} {b : State} {a0 s1} (hF : 1773678324236 ||| F = F) (h1 : Frm F b s1) : FrmR F b (execSyncApply a0 s1) := by
  unfold execSyncApply
  repeat' first
    | with_reducible assumption
    | ((with_reducible apply subt hF); rfl)
    | with_reducible first | apply fr_whenever | apply fr_applySync | apply frmR_next

theorem fr_ackTaken {F : Nat} {b : State} {s0 a1 a2 a3} (hF : 1739461976076 ||| F = F) (h0 : Frm F b s0) : Frm F b (ackTaken s0 a1 a2 a3) := by
  unfold ackTaken
  repeat' first
    | with_reducible assumption
    | ((with_reducible apply subt hF); rfl)
    | with_reducible first | apply fr_State_setPair | apply fr_State_bump | apply fr_rsvConfirm | apply fr_State_setReg | apply fr_syncGained | apply fr_digestMismatch | apply fr_mk_17179869184 | apply frm_foldl
    | simp only [frm_mk]
    | intro _
    | split

theorem fr_execSyncAckRx {F : Nat} {b : State} {a0 a1 a2 s3} (hF : 1739461976076 ||| F = F) (h3 : Frm F b s3) : FrmR F b (execSyncAckRx a0 a1 a2 s3) := by
  unfold execSyncAckRx
  repeat' first
    | with_reducible assumption
    | ((with_reducible apply subt hF); rfl)
    | with_reducible first | apply fr_whenever | apply fr_ackTaken | apply frmR_next

theorem fr_stageTwin {F : Nat} {b : State} {s0 a1} (hF : 549772812296 ||| F = F) (h0 : Frm F b s0) : Frm F b (stageTwin s0 a1) := by
  unfold stageTwin
  repeat' first
    | with_reducible assumption
    | ((with_reducible apply subt hF); rfl)
    | with_reducible first | apply fr_stageOne | apply frm_foldl
    | intro _
    | split
    | dsimp only

theorem fr_logTwin {F : Nat} {b : State} {s0 a1} (hF : 549756035080 ||| F = F) (h0 : Frm F b s0) : Frm F b (logTwin s0 a1) := by
  unfold logTwin
  repeat' first
    | with_reducible assumption
    | ((with_reducible apply subt hF); rfl)
    | with_reducible first | apply fr_logReg | apply fr_State_silt_
    | split

theorem fr_commitTaken {F : Nat} {b : State} {s0 a1 a2 a3 a4 a5} (hF : 584132552200 ||| F = F) (h0 : Frm F b s0) : Frm F b (commitTaken s0 a1 a2 a3 a4 a5) := by
  unfold commitTaken
  repeat' first
    | with_reducible assumption
    | ((with_reducible apply subt hF); rfl)
    | with_reducible first | apply fr_logTwin | apply fr_armRecords | apply fr_stageTwin | apply fr_slSend | apply fr_mk_1536 | apply fr_mk_16777728 | apply frm_foldl
    | simp only [frm_mk]
    | intro _

theorem fr_execCommitRecordRx {F : Nat} {b : State} {a0 a1 a2 a3 a4 s5} (hF : 584132552200 ||| F = F) (h5 : Frm F b s5) : FrmR F b (execCommitRecordRx a0 a1 a2 a3 a4 s5) := by
  unfold execCommitRecordRx
  repeat' first
    | with_reducible assumption
    | ((with_reducible apply subt hF); rfl)
    | with_reducible first | apply fr_whenever | apply fr_commitTaken | apply frmR_next

theorem fr_execCommitAckRx {F : Nat} {b : State} {a0 a1 s2} (hF : 512 ||| F = F) (h2 : Frm F b s2) : FrmR F b (execCommitAckRx a0 a1 s2) := by
  unfold execCommitAckRx
  repeat' first
    | with_reducible assumption
    | ((with_reducible apply subt hF); rfl)
    | with_reducible first | apply fr_whenever | apply fr_mk_512 | apply frmR_next
    | simp only [frm_mk]

theorem fr_digestAgrees {F : Nat} {b : State} {s0} (hF : 601295421448 ||| F = F) (h0 : Frm F b s0) : Frm F b (digestAgrees s0) := by
  unfold digestAgrees
  repeat' first
    | with_reducible assumption
    | ((with_reducible apply subt hF); rfl)
    | with_reducible first | apply fr_slSend | apply fr_rejoin | apply fr_mk_17179869184
    | simp only [frm_mk]
    | split

theorem fr_recomputed {F : Nat} {b : State} {s0 a1} (hF : 601295421448 ||| F = F) (h0 : Frm F b s0) : Frm F b (recomputed s0 a1) := by
  unfold recomputed
  repeat' first
    | with_reducible assumption
    | ((with_reducible apply subt hF); rfl)
    | with_reducible first | apply fr_digestAgrees | apply fr_rejoin | apply fr_updateDigest | apply fr_swapStart | apply fr_mk_17179869184
    | simp only [frm_mk]
    | split

theorem fr_execDigestRecomputeDone {F : Nat} {b : State} {a0 s1} (hF : 601295421448 ||| F = F) (h1 : Frm F b s1) : FrmR F b (execDigestRecomputeDone a0 s1) := by
  unfold execDigestRecomputeDone
  repeat' first
    | with_reducible assumption
    | ((with_reducible apply subt hF); rfl)
    | with_reducible first | apply fr_whenever | apply fr_recomputed | apply frmR_next

/-! ### View -/

theorem fr_timeLatch {F : Nat} {b : State} {s0 a1 a2} (hF : 16 ||| F = F) (h0 : Frm F b s0) : Frm F b (timeLatch s0 a1 a2) := by
  unfold timeLatch
  repeat' first
    | with_reducible assumption
    | ((with_reducible apply subt hF); rfl)
    | with_reducible apply fr_State_setLatch

theorem fr_pairLoRead {F : Nat} {b : State} {s0 a1 a2} (hF : 549755813904 ||| F = F) (h0 : Frm F b s0) : Frm F b (pairLoRead s0 a1 a2) := by
  unfold pairLoRead
  repeat' first
    | with_reducible assumption
    | ((with_reducible apply subt hF); rfl)
    | with_reducible first | apply fr_State_emit | apply fr_timeLatch | apply fr_State_setLatch
    | split

theorem fr_execPairLoRead {F : Nat} {b : State} {a0 a1 s2} (hF : 549755813904 ||| F = F) (h2 : Frm F b s2) : FrmR F b (execPairLoRead a0 a1 s2) := by
  unfold execPairLoRead
  repeat' first
    | with_reducible assumption
    | ((with_reducible apply subt hF); rfl)
    | with_reducible first | apply fr_ifWf | apply fr_State_readOr | apply fr_pairLoRead

/-! ### Tick -/

theorem fr_applyAll {F : Nat} {b : State} {s0} (hF : 1771530840588 ||| F = F) (h0 : Frm F b s0) : Frm F b (applyAll s0) := by
  unfold applyAll
  repeat' first
    | with_reducible assumption
    | ((with_reducible apply subt hF); rfl)
    | with_reducible first | apply fr_applyDue | apply frm_foldl
    | intro _

theorem fr_pointsDue {F : Nat} {b : State} {s0} (hF : 1773678324236 ||| F = F) (h0 : Frm F b s0) : Frm F b (pointsDue s0) := by
  unfold pointsDue
  repeat' first
    | with_reducible assumption
    | ((with_reducible apply subt hF); rfl)
    | with_reducible first | apply fr_joinFinishes | apply fr_applyAll | apply fr_forcedPoint
    | split

theorem fr_unmarkedDue {F : Nat} {b : State} {s0} (hF : 262152 ||| F = F) (h0 : Frm F b s0) : Frm F b (unmarkedDue s0) := by
  unfold unmarkedDue
  repeat' first
    | with_reducible assumption
    | ((with_reducible apply subt hF); rfl)
    | with_reducible first | apply fr_countSynth | apply fr_mk_262144
    | simp only [frm_mk]
    | split

theorem fr_entriesDue {F : Nat} {b : State} {s0} (hF : 469766152 ||| F = F) (h0 : Frm F b s0) : Frm F b (entriesDue s0) := by
  unfold entriesDue
  repeat' first
    | with_reducible assumption
    | ((with_reducible apply subt hF); rfl)
    | with_reducible first | apply fr_sourceDue | apply fr_txDue

theorem fr_downsDue {F : Nat} {b : State} {s0} (hF : 1718860537864 ||| F = F) (h0 : Frm F b s0) : Frm F b (downsDue s0) := by
  unfold downsDue
  repeat' first
    | with_reducible assumption
    | ((with_reducible apply subt hF); rfl)
    | with_reducible first | apply fr_flushStep | apply fr_downStep | apply fr_offOne | apply frm_foldl
    | intro _
    | split

theorem fr_watchPort {F : Nat} {b : State} {s0 a1} (hF : 536870912 ||| F = F) (h0 : Frm F b s0) : Frm F b (watchPort s0 a1) := by
  unfold watchPort
  repeat' first
    | with_reducible assumption
    | ((with_reducible apply subt hF); rfl)
    | with_reducible apply fr_State_setEgs
    | split
    | dsimp only

theorem fr_watchPorts {F : Nat} {b : State} {s0} (hF : 536870912 ||| F = F) (h0 : Frm F b s0) : Frm F b (watchPorts s0) := by
  unfold watchPorts
  repeat' first
    | with_reducible assumption
    | ((with_reducible apply subt hF); rfl)
    | with_reducible first | apply fr_watchPort | apply frm_foldl
    | intro _

theorem fr_linesDue {F : Nat} {b : State} {s0} (hF : 2009980956680 ||| F = F) (h0 : Frm F b s0) : Frm F b (linesDue s0) := by
  unfold linesDue
  repeat' first
    | with_reducible assumption
    | ((with_reducible apply subt hF); rfl)
    | with_reducible first | apply fr_startSel | apply fr_canCycleDue | apply fr_linSettle | apply fr_tc10Train | apply frm_foldl
    | intro _

theorem fr_conditions {F : Nat} {b : State} {s0} (hF : 549755969544 ||| F = F) (h0 : Frm F b s0) : Frm F b (conditions s0) := by
  unfold conditions
  repeat' first
    | with_reducible assumption
    | ((with_reducible apply subt hF); rfl)
    | with_reducible first | apply fr_checkOvl | apply fr_checkFlows | apply fr_checkPool | apply fr_State_raise
    | split
    | dsimp only

theorem fr_linkDue {F : Nat} {b : State} {s0} (hF : 1013612285960 ||| F = F) (h0 : Frm F b s0) : Frm F b (linkDue s0) := by
  unfold linkDue
  repeat' first
    | with_reducible assumption
    | ((with_reducible apply subt hF); rfl)
    | with_reducible first | apply fr_sendJoin | apply fr_updLinkGone | apply fr_mk_17179869184
    | simp only [frm_mk]
    | split

theorem fr_unknownReq {F : Nat} {b : State} {s0 a1} (hF : 1649267499016 ||| F = F) (h0 : Frm F b s0) : Frm F b (unknownReq s0 a1) := by
  unfold unknownReq
  repeat' first
    | with_reducible assumption
    | ((with_reducible apply subt hF); rfl)
    | with_reducible first | apply fr_mbxRespond | apply fr_State_tick1
    | split
    | dsimp only

theorem fr_mkaDue {F : Nat} {b : State} {s0} (hF : 2041183428616 ||| F = F) (h0 : Frm F b s0) : Frm F b (mkaDue s0) := by
  unfold mkaDue
  repeat' first
    | with_reducible assumption
    | ((with_reducible apply subt hF); rfl)
    | with_reducible first | apply fr_sakMake | apply fr_mkaWants | apply frm_foldl
    | intro _
    | split

theorem fr_taskDue {F : Nat} {b : State} {a0 s1} (hF : 2199023255550 ||| F = F) (h1 : Frm F b s1) : Frm F b (taskDue a0 s1) := by
  unfold taskDue
  repeat' first
    | with_reducible assumption
    | ((with_reducible apply subt hF); rfl)
    | with_reducible apply fr_taskOver
    | split

theorem fr_managersDue {F : Nat} {b : State} {s0} (hF : 2199023255550 ||| F = F) (h0 : Frm F b s0) : Frm F b (managersDue s0) := by
  unfold managersDue
  repeat' first
    | with_reducible assumption
    | ((with_reducible apply subt hF); rfl)
    | with_reducible first | apply fr_taskDue | apply fr_mkaDue | apply fr_healthStep | apply fr_takeoverStep | apply fr_takeoverCheck | apply fr_strapDue | apply fr_unknownReq | apply fr_linkDue

theorem fr_completeCycle {F : Nat} {b : State} {s0} (hF : 2199023255550 ||| F = F) (h0 : Frm F b s0) : Frm F b (completeCycle s0) := by
  unfold completeCycle
  repeat' first
    | with_reducible assumption
    | ((with_reducible apply subt hF); rfl)
    | with_reducible first | apply fr_wakeDue | apply fr_conditions | apply fr_managersDue | apply fr_entriesDue | apply fr_watchPorts | apply fr_linesDue | apply fr_gweCycle | apply fr_downsDue | apply fr_releasesDue | apply fr_unmarkedDue | apply fr_pointsDue
    | split

theorem fr_advance {F : Nat} {b : State} {s0} (hF : 2490370 ||| F = F) (h0 : Frm F b s0) : Frm F b (advance s0) := by
  unfold advance
  repeat' first
    | with_reducible assumption
    | ((with_reducible apply subt hF); rfl)
    | with_reducible apply fr_mk_2490370
    | simp only [frm_mk]

theorem fr_markBounds {F : Nat} {b : State} {s0 s1} (hF : 536870912 ||| F = F) (h0 : Frm F b s0) (h1 : Frm F b s1) : Frm F b (markBounds s0 s1) := by
  unfold markBounds
  refine frm_ite (fun _ => h1) (fun _ => ?_)
  extract_lets l
  clear_value l
  exact fr_mk_536870912 (subm hF) h1

theorem fr_nextCycle {F : Nat} {b : State} {s0} (hF : 1773320757774 ||| F = F) (h0 : Frm F b s0) : Frm F b (nextCycle s0) := by
  unfold nextCycle
  repeat' first
    | with_reducible assumption
    | ((with_reducible apply subt hF); rfl)
    | with_reducible first | apply fr_markBounds | apply fr_advance | apply fr_crossed
    | split

theorem fr_sleepTick {F : Nat} {b : State} {s0} (hF : 4325376 ||| F = F) (h0 : Frm F b s0) : Frm F b (sleepTick s0) := by
  unfold sleepTick
  repeat' first
    | with_reducible assumption
    | ((with_reducible apply subt hF); rfl)
    | with_reducible apply fr_mk_4325376
    | simp only [frm_mk]

theorem fr_cclkTick {F : Nat} {b : State} {s0} (hF : 2199023255550 ||| F = F) (h0 : Frm F b s0) : Frm F b (cclkTick s0) := by
  unfold cclkTick
  repeat' first
    | with_reducible assumption
    | ((with_reducible apply subt hF); rfl)
    | with_reducible first | apply fr_sleepTick | apply fr_nextCycle | apply fr_completeCycle
    | split

theorem fr_execCycleBoundary {F : Nat} {b : State} {s0} (hF : 2199023255550 ||| F = F) (h0 : Frm F b s0) : FrmR F b (execCycleBoundary s0) :=
  frmR_next (fr_whenever (subm hF) h0 (fr_cclkTick (subm hF) h0))

end Sys2Proof.Laws
end

