-- ==== Sys2Proof/Laws/State.lean ====
section
/-!
SUPPORT. What the shared updates of the state leave alone: one lemma for every update and every field that it does not
touch, and what each reads back as.
-/
namespace Sys2Proof.Laws
set_option Elab.async false
open Sys2Proof Sys2Proof.Machine

/-! ### Registers -/

/-- R5: a register reads as written, and every other one as before. -/
@[simp] theorem reg_setReg (s : State) (a b : Nat) (v : Word) :
    (s.setReg a v).reg b = if a = b then v else s.reg b := by
  exact get_set

/-! ### `setReg` -/

@[simp] theorem setReg_pending (s : State) (a : Nat) (v : Word) : (s.setReg a v).pending = s.pending := rfl
@[simp] theorem setReg_cclk (s : State) (a : Nat) (v : Word) : (s.setReg a v).cclk = s.cclk := rfl
@[simp] theorem setReg_mode (s : State) (a : Nat) (v : Word) : (s.setReg a v).mode = s.mode := rfl
@[simp] theorem setReg_latched (s : State) (a : Nat) (v : Word) : (s.setReg a v).latched = s.latched := rfl
@[simp] theorem setReg_held (s : State) (a : Nat) (v : Word) : (s.setReg a v).held = s.held := rfl
@[simp] theorem setReg_ctrlLockA (s : State) (a : Nat) (v : Word) : (s.setReg a v).ctrlLockA = s.ctrlLockA := rfl
@[simp] theorem setReg_ctrlLockB (s : State) (a : Nat) (v : Word) : (s.setReg a v).ctrlLockB = s.ctrlLockB := rfl
@[simp] theorem setReg_shadows (s : State) (a : Nat) (v : Word) : (s.setReg a v).shadows = s.shadows := rfl
@[simp] theorem setReg_commits (s : State) (a : Nat) (v : Word) : (s.setReg a v).commits = s.commits := rfl
@[simp] theorem setReg_partNo (s : State) (a : Nat) (v : Word) : (s.setReg a v).partNo = s.partNo := rfl
@[simp] theorem setReg_hist (s : State) (a : Nat) (v : Word) : (s.setReg a v).hist = s.hist := rfl
@[simp] theorem setReg_rings (s : State) (a : Nat) (v : Word) : (s.setReg a v).rings = s.rings := rfl
@[simp] theorem setReg_msixA (s : State) (a : Nat) (v : Word) : (s.setReg a v).msixA = s.msixA := rfl
@[simp] theorem setReg_msixB (s : State) (a : Nat) (v : Word) : (s.setReg a v).msixB = s.msixB := rfl
@[simp] theorem setReg_mbx (s : State) (a : Nat) (v : Word) : (s.setReg a v).mbx = s.mbx := rfl
@[simp] theorem setReg_silt (s : State) (a : Nat) (v : Word) : (s.setReg a v).silt = s.silt := rfl
@[simp] theorem setReg_msgPages (s : State) (a : Nat) (v : Word) : (s.setReg a v).msgPages = s.msgPages := rfl
@[simp] theorem setReg_pb (s : State) (a : Nat) (v : Word) : (s.setReg a v).pb = s.pb := rfl
@[simp] theorem setReg_gpio (s : State) (a : Nat) (v : Word) : (s.setReg a v).gpio = s.gpio := rfl
@[simp] theorem setReg_ports (s : State) (a : Nat) (v : Word) : (s.setReg a v).ports = s.ports := rfl
@[simp] theorem setReg_ptp (s : State) (a : Nat) (v : Word) : (s.setReg a v).ptp = s.ptp := rfl
@[simp] theorem setReg_power (s : State) (a : Nat) (v : Word) : (s.setReg a v).power = s.power := rfl
@[simp] theorem setReg_prs (s : State) (a : Nat) (v : Word) : (s.setReg a v).prs = s.prs := rfl
@[simp] theorem setReg_tables (s : State) (a : Nat) (v : Word) : (s.setReg a v).tables = s.tables := rfl
@[simp] theorem setReg_policing (s : State) (a : Nat) (v : Word) : (s.setReg a v).policing = s.policing := rfl
@[simp] theorem setReg_frames (s : State) (a : Nat) (v : Word) : (s.setReg a v).frames = s.frames := rfl
@[simp] theorem setReg_nextFrame (s : State) (a : Nat) (v : Word) : (s.setReg a v).nextFrame = s.nextFrame := rfl
@[simp] theorem setReg_fab (s : State) (a : Nat) (v : Word) : (s.setReg a v).fab = s.fab := rfl
@[simp] theorem setReg_egress (s : State) (a : Nat) (v : Word) : (s.setReg a v).egress = s.egress := rfl
@[simp] theorem setReg_buses (s : State) (a : Nat) (v : Word) : (s.setReg a v).buses = s.buses := rfl
@[simp] theorem setReg_gwe (s : State) (a : Nat) (v : Word) : (s.setReg a v).gwe = s.gwe := rfl
@[simp] theorem setReg_cipher (s : State) (a : Nat) (v : Word) : (s.setReg a v).cipher = s.cipher := rfl
@[simp] theorem setReg_keys (s : State) (a : Nat) (v : Word) : (s.setReg a v).keys = s.keys := rfl
@[simp] theorem setReg_twin (s : State) (a : Nat) (v : Word) : (s.setReg a v).twin = s.twin := rfl
@[simp] theorem setReg_sl (s : State) (a : Nat) (v : Word) : (s.setReg a v).sl = s.sl := rfl
@[simp] theorem setReg_faults (s : State) (a : Nat) (v : Word) : (s.setReg a v).faults = s.faults := rfl
@[simp] theorem setReg_upd (s : State) (a : Nat) (v : Word) : (s.setReg a v).upd = s.upd := rfl
@[simp] theorem setReg_nvm (s : State) (a : Nat) (v : Word) : (s.setReg a v).nvm = s.nvm := rfl
@[simp] theorem setReg_out (s : State) (a : Nat) (v : Word) : (s.setReg a v).out = s.out := rfl
@[simp] theorem setReg_free (s : State) (a : Nat) (v : Word) : (s.setReg a v).free = s.free := rfl

/-! ### `setFld` -/

@[simp] theorem setFld_pending (s : State) (a lo n x : Nat) : (s.setFld a lo n x).pending = s.pending := rfl
@[simp] theorem setFld_cclk (s : State) (a lo n x : Nat) : (s.setFld a lo n x).cclk = s.cclk := rfl
@[simp] theorem setFld_mode (s : State) (a lo n x : Nat) : (s.setFld a lo n x).mode = s.mode := rfl
@[simp] theorem setFld_latched (s : State) (a lo n x : Nat) : (s.setFld a lo n x).latched = s.latched := rfl
@[simp] theorem setFld_held (s : State) (a lo n x : Nat) : (s.setFld a lo n x).held = s.held := rfl
@[simp] theorem setFld_ctrlLockA (s : State) (a lo n x : Nat) : (s.setFld a lo n x).ctrlLockA = s.ctrlLockA := rfl
@[simp] theorem setFld_ctrlLockB (s : State) (a lo n x : Nat) : (s.setFld a lo n x).ctrlLockB = s.ctrlLockB := rfl
@[simp] theorem setFld_shadows (s : State) (a lo n x : Nat) : (s.setFld a lo n x).shadows = s.shadows := rfl
@[simp] theorem setFld_commits (s : State) (a lo n x : Nat) : (s.setFld a lo n x).commits = s.commits := rfl
@[simp] theorem setFld_partNo (s : State) (a lo n x : Nat) : (s.setFld a lo n x).partNo = s.partNo := rfl
@[simp] theorem setFld_hist (s : State) (a lo n x : Nat) : (s.setFld a lo n x).hist = s.hist := rfl
@[simp] theorem setFld_rings (s : State) (a lo n x : Nat) : (s.setFld a lo n x).rings = s.rings := rfl
@[simp] theorem setFld_msixA (s : State) (a lo n x : Nat) : (s.setFld a lo n x).msixA = s.msixA := rfl
@[simp] theorem setFld_msixB (s : State) (a lo n x : Nat) : (s.setFld a lo n x).msixB = s.msixB := rfl
@[simp] theorem setFld_mbx (s : State) (a lo n x : Nat) : (s.setFld a lo n x).mbx = s.mbx := rfl
@[simp] theorem setFld_silt (s : State) (a lo n x : Nat) : (s.setFld a lo n x).silt = s.silt := rfl
@[simp] theorem setFld_msgPages (s : State) (a lo n x : Nat) : (s.setFld a lo n x).msgPages = s.msgPages := rfl
@[simp] theorem setFld_pb (s : State) (a lo n x : Nat) : (s.setFld a lo n x).pb = s.pb := rfl
@[simp] theorem setFld_gpio (s : State) (a lo n x : Nat) : (s.setFld a lo n x).gpio = s.gpio := rfl
@[simp] theorem setFld_ports (s : State) (a lo n x : Nat) : (s.setFld a lo n x).ports = s.ports := rfl
@[simp] theorem setFld_ptp (s : State) (a lo n x : Nat) : (s.setFld a lo n x).ptp = s.ptp := rfl
@[simp] theorem setFld_power (s : State) (a lo n x : Nat) : (s.setFld a lo n x).power = s.power := rfl
@[simp] theorem setFld_prs (s : State) (a lo n x : Nat) : (s.setFld a lo n x).prs = s.prs := rfl
@[simp] theorem setFld_tables (s : State) (a lo n x : Nat) : (s.setFld a lo n x).tables = s.tables := rfl
@[simp] theorem setFld_policing (s : State) (a lo n x : Nat) : (s.setFld a lo n x).policing = s.policing := rfl
@[simp] theorem setFld_frames (s : State) (a lo n x : Nat) : (s.setFld a lo n x).frames = s.frames := rfl
@[simp] theorem setFld_nextFrame (s : State) (a lo n x : Nat) : (s.setFld a lo n x).nextFrame = s.nextFrame := rfl
@[simp] theorem setFld_fab (s : State) (a lo n x : Nat) : (s.setFld a lo n x).fab = s.fab := rfl
@[simp] theorem setFld_egress (s : State) (a lo n x : Nat) : (s.setFld a lo n x).egress = s.egress := rfl
@[simp] theorem setFld_buses (s : State) (a lo n x : Nat) : (s.setFld a lo n x).buses = s.buses := rfl
@[simp] theorem setFld_gwe (s : State) (a lo n x : Nat) : (s.setFld a lo n x).gwe = s.gwe := rfl
@[simp] theorem setFld_cipher (s : State) (a lo n x : Nat) : (s.setFld a lo n x).cipher = s.cipher := rfl
@[simp] theorem setFld_keys (s : State) (a lo n x : Nat) : (s.setFld a lo n x).keys = s.keys := rfl
@[simp] theorem setFld_twin (s : State) (a lo n x : Nat) : (s.setFld a lo n x).twin = s.twin := rfl
@[simp] theorem setFld_sl (s : State) (a lo n x : Nat) : (s.setFld a lo n x).sl = s.sl := rfl
@[simp] theorem setFld_faults (s : State) (a lo n x : Nat) : (s.setFld a lo n x).faults = s.faults := rfl
@[simp] theorem setFld_upd (s : State) (a lo n x : Nat) : (s.setFld a lo n x).upd = s.upd := rfl
@[simp] theorem setFld_nvm (s : State) (a lo n x : Nat) : (s.setFld a lo n x).nvm = s.nvm := rfl
@[simp] theorem setFld_out (s : State) (a lo n x : Nat) : (s.setFld a lo n x).out = s.out := rfl
@[simp] theorem setFld_free (s : State) (a lo n x : Nat) : (s.setFld a lo n x).free = s.free := rfl

/-! ### `setBitAt` -/

@[simp] theorem setBitAt_pending (s : State) (a i : Nat) (b : Bool) : (s.setBitAt a i b).pending = s.pending := rfl
@[simp] theorem setBitAt_cclk (s : State) (a i : Nat) (b : Bool) : (s.setBitAt a i b).cclk = s.cclk := rfl
@[simp] theorem setBitAt_mode (s : State) (a i : Nat) (b : Bool) : (s.setBitAt a i b).mode = s.mode := rfl
@[simp] theorem setBitAt_latched (s : State) (a i : Nat) (b : Bool) : (s.setBitAt a i b).latched = s.latched := rfl
@[simp] theorem setBitAt_held (s : State) (a i : Nat) (b : Bool) : (s.setBitAt a i b).held = s.held := rfl
@[simp] theorem setBitAt_ctrlLockA (s : State) (a i : Nat) (b : Bool) : (s.setBitAt a i b).ctrlLockA = s.ctrlLockA := rfl
@[simp] theorem setBitAt_ctrlLockB (s : State) (a i : Nat) (b : Bool) : (s.setBitAt a i b).ctrlLockB = s.ctrlLockB := rfl
@[simp] theorem setBitAt_shadows (s : State) (a i : Nat) (b : Bool) : (s.setBitAt a i b).shadows = s.shadows := rfl
@[simp] theorem setBitAt_commits (s : State) (a i : Nat) (b : Bool) : (s.setBitAt a i b).commits = s.commits := rfl
@[simp] theorem setBitAt_partNo (s : State) (a i : Nat) (b : Bool) : (s.setBitAt a i b).partNo = s.partNo := rfl
@[simp] theorem setBitAt_hist (s : State) (a i : Nat) (b : Bool) : (s.setBitAt a i b).hist = s.hist := rfl
@[simp] theorem setBitAt_rings (s : State) (a i : Nat) (b : Bool) : (s.setBitAt a i b).rings = s.rings := rfl
@[simp] theorem setBitAt_msixA (s : State) (a i : Nat) (b : Bool) : (s.setBitAt a i b).msixA = s.msixA := rfl
@[simp] theorem setBitAt_msixB (s : State) (a i : Nat) (b : Bool) : (s.setBitAt a i b).msixB = s.msixB := rfl
@[simp] theorem setBitAt_mbx (s : State) (a i : Nat) (b : Bool) : (s.setBitAt a i b).mbx = s.mbx := rfl
@[simp] theorem setBitAt_silt (s : State) (a i : Nat) (b : Bool) : (s.setBitAt a i b).silt = s.silt := rfl
@[simp] theorem setBitAt_msgPages (s : State) (a i : Nat) (b : Bool) : (s.setBitAt a i b).msgPages = s.msgPages := rfl
@[simp] theorem setBitAt_pb (s : State) (a i : Nat) (b : Bool) : (s.setBitAt a i b).pb = s.pb := rfl
@[simp] theorem setBitAt_gpio (s : State) (a i : Nat) (b : Bool) : (s.setBitAt a i b).gpio = s.gpio := rfl
@[simp] theorem setBitAt_ports (s : State) (a i : Nat) (b : Bool) : (s.setBitAt a i b).ports = s.ports := rfl
@[simp] theorem setBitAt_ptp (s : State) (a i : Nat) (b : Bool) : (s.setBitAt a i b).ptp = s.ptp := rfl
@[simp] theorem setBitAt_power (s : State) (a i : Nat) (b : Bool) : (s.setBitAt a i b).power = s.power := rfl
@[simp] theorem setBitAt_prs (s : State) (a i : Nat) (b : Bool) : (s.setBitAt a i b).prs = s.prs := rfl
@[simp] theorem setBitAt_tables (s : State) (a i : Nat) (b : Bool) : (s.setBitAt a i b).tables = s.tables := rfl
@[simp] theorem setBitAt_policing (s : State) (a i : Nat) (b : Bool) : (s.setBitAt a i b).policing = s.policing := rfl
@[simp] theorem setBitAt_frames (s : State) (a i : Nat) (b : Bool) : (s.setBitAt a i b).frames = s.frames := rfl
@[simp] theorem setBitAt_nextFrame (s : State) (a i : Nat) (b : Bool) : (s.setBitAt a i b).nextFrame = s.nextFrame := rfl
@[simp] theorem setBitAt_fab (s : State) (a i : Nat) (b : Bool) : (s.setBitAt a i b).fab = s.fab := rfl
@[simp] theorem setBitAt_egress (s : State) (a i : Nat) (b : Bool) : (s.setBitAt a i b).egress = s.egress := rfl
@[simp] theorem setBitAt_buses (s : State) (a i : Nat) (b : Bool) : (s.setBitAt a i b).buses = s.buses := rfl
@[simp] theorem setBitAt_gwe (s : State) (a i : Nat) (b : Bool) : (s.setBitAt a i b).gwe = s.gwe := rfl
@[simp] theorem setBitAt_cipher (s : State) (a i : Nat) (b : Bool) : (s.setBitAt a i b).cipher = s.cipher := rfl
@[simp] theorem setBitAt_keys (s : State) (a i : Nat) (b : Bool) : (s.setBitAt a i b).keys = s.keys := rfl
@[simp] theorem setBitAt_twin (s : State) (a i : Nat) (b : Bool) : (s.setBitAt a i b).twin = s.twin := rfl
@[simp] theorem setBitAt_sl (s : State) (a i : Nat) (b : Bool) : (s.setBitAt a i b).sl = s.sl := rfl
@[simp] theorem setBitAt_faults (s : State) (a i : Nat) (b : Bool) : (s.setBitAt a i b).faults = s.faults := rfl
@[simp] theorem setBitAt_upd (s : State) (a i : Nat) (b : Bool) : (s.setBitAt a i b).upd = s.upd := rfl
@[simp] theorem setBitAt_nvm (s : State) (a i : Nat) (b : Bool) : (s.setBitAt a i b).nvm = s.nvm := rfl
@[simp] theorem setBitAt_out (s : State) (a i : Nat) (b : Bool) : (s.setBitAt a i b).out = s.out := rfl
@[simp] theorem setBitAt_free (s : State) (a i : Nat) (b : Bool) : (s.setBitAt a i b).free = s.free := rfl

/-! ### `setPair` -/

@[simp] theorem setPair_pending (s : State) (a v : Nat) : (s.setPair a v).pending = s.pending := rfl
@[simp] theorem setPair_cclk (s : State) (a v : Nat) : (s.setPair a v).cclk = s.cclk := rfl
@[simp] theorem setPair_mode (s : State) (a v : Nat) : (s.setPair a v).mode = s.mode := rfl
@[simp] theorem setPair_latched (s : State) (a v : Nat) : (s.setPair a v).latched = s.latched := rfl
@[simp] theorem setPair_held (s : State) (a v : Nat) : (s.setPair a v).held = s.held := rfl
@[simp] theorem setPair_ctrlLockA (s : State) (a v : Nat) : (s.setPair a v).ctrlLockA = s.ctrlLockA := rfl
@[simp] theorem setPair_ctrlLockB (s : State) (a v : Nat) : (s.setPair a v).ctrlLockB = s.ctrlLockB := rfl
@[simp] theorem setPair_shadows (s : State) (a v : Nat) : (s.setPair a v).shadows = s.shadows := rfl
@[simp] theorem setPair_commits (s : State) (a v : Nat) : (s.setPair a v).commits = s.commits := rfl
@[simp] theorem setPair_partNo (s : State) (a v : Nat) : (s.setPair a v).partNo = s.partNo := rfl
@[simp] theorem setPair_hist (s : State) (a v : Nat) : (s.setPair a v).hist = s.hist := rfl
@[simp] theorem setPair_rings (s : State) (a v : Nat) : (s.setPair a v).rings = s.rings := rfl
@[simp] theorem setPair_msixA (s : State) (a v : Nat) : (s.setPair a v).msixA = s.msixA := rfl
@[simp] theorem setPair_msixB (s : State) (a v : Nat) : (s.setPair a v).msixB = s.msixB := rfl
@[simp] theorem setPair_mbx (s : State) (a v : Nat) : (s.setPair a v).mbx = s.mbx := rfl
@[simp] theorem setPair_silt (s : State) (a v : Nat) : (s.setPair a v).silt = s.silt := rfl
@[simp] theorem setPair_msgPages (s : State) (a v : Nat) : (s.setPair a v).msgPages = s.msgPages := rfl
@[simp] theorem setPair_pb (s : State) (a v : Nat) : (s.setPair a v).pb = s.pb := rfl
@[simp] theorem setPair_gpio (s : State) (a v : Nat) : (s.setPair a v).gpio = s.gpio := rfl
@[simp] theorem setPair_ports (s : State) (a v : Nat) : (s.setPair a v).ports = s.ports := rfl
@[simp] theorem setPair_ptp (s : State) (a v : Nat) : (s.setPair a v).ptp = s.ptp := rfl
@[simp] theorem setPair_power (s : State) (a v : Nat) : (s.setPair a v).power = s.power := rfl
@[simp] theorem setPair_prs (s : State) (a v : Nat) : (s.setPair a v).prs = s.prs := rfl
@[simp] theorem setPair_tables (s : State) (a v : Nat) : (s.setPair a v).tables = s.tables := rfl
@[simp] theorem setPair_policing (s : State) (a v : Nat) : (s.setPair a v).policing = s.policing := rfl
@[simp] theorem setPair_frames (s : State) (a v : Nat) : (s.setPair a v).frames = s.frames := rfl
@[simp] theorem setPair_nextFrame (s : State) (a v : Nat) : (s.setPair a v).nextFrame = s.nextFrame := rfl
@[simp] theorem setPair_fab (s : State) (a v : Nat) : (s.setPair a v).fab = s.fab := rfl
@[simp] theorem setPair_egress (s : State) (a v : Nat) : (s.setPair a v).egress = s.egress := rfl
@[simp] theorem setPair_buses (s : State) (a v : Nat) : (s.setPair a v).buses = s.buses := rfl
@[simp] theorem setPair_gwe (s : State) (a v : Nat) : (s.setPair a v).gwe = s.gwe := rfl
@[simp] theorem setPair_cipher (s : State) (a v : Nat) : (s.setPair a v).cipher = s.cipher := rfl
@[simp] theorem setPair_keys (s : State) (a v : Nat) : (s.setPair a v).keys = s.keys := rfl
@[simp] theorem setPair_twin (s : State) (a v : Nat) : (s.setPair a v).twin = s.twin := rfl
@[simp] theorem setPair_sl (s : State) (a v : Nat) : (s.setPair a v).sl = s.sl := rfl
@[simp] theorem setPair_faults (s : State) (a v : Nat) : (s.setPair a v).faults = s.faults := rfl
@[simp] theorem setPair_upd (s : State) (a v : Nat) : (s.setPair a v).upd = s.upd := rfl
@[simp] theorem setPair_nvm (s : State) (a v : Nat) : (s.setPair a v).nvm = s.nvm := rfl
@[simp] theorem setPair_out (s : State) (a v : Nat) : (s.setPair a v).out = s.out := rfl
@[simp] theorem setPair_free (s : State) (a v : Nat) : (s.setPair a v).free = s.free := rfl

/-! ### `bumpBy` -/

@[simp] theorem bumpBy_pending (s : State) (a n : Nat) : (s.bumpBy a n).pending = s.pending := rfl
@[simp] theorem bumpBy_cclk (s : State) (a n : Nat) : (s.bumpBy a n).cclk = s.cclk := rfl
@[simp] theorem bumpBy_mode (s : State) (a n : Nat) : (s.bumpBy a n).mode = s.mode := rfl
@[simp] theorem bumpBy_latched (s : State) (a n : Nat) : (s.bumpBy a n).latched = s.latched := rfl
@[simp] theorem bumpBy_held (s : State) (a n : Nat) : (s.bumpBy a n).held = s.held := rfl
@[simp] theorem bumpBy_ctrlLockA (s : State) (a n : Nat) : (s.bumpBy a n).ctrlLockA = s.ctrlLockA := rfl
@[simp] theorem bumpBy_ctrlLockB (s : State) (a n : Nat) : (s.bumpBy a n).ctrlLockB = s.ctrlLockB := rfl
@[simp] theorem bumpBy_shadows (s : State) (a n : Nat) : (s.bumpBy a n).shadows = s.shadows := rfl
@[simp] theorem bumpBy_commits (s : State) (a n : Nat) : (s.bumpBy a n).commits = s.commits := rfl
@[simp] theorem bumpBy_partNo (s : State) (a n : Nat) : (s.bumpBy a n).partNo = s.partNo := rfl
@[simp] theorem bumpBy_hist (s : State) (a n : Nat) : (s.bumpBy a n).hist = s.hist := rfl
@[simp] theorem bumpBy_rings (s : State) (a n : Nat) : (s.bumpBy a n).rings = s.rings := rfl
@[simp] theorem bumpBy_msixA (s : State) (a n : Nat) : (s.bumpBy a n).msixA = s.msixA := rfl
@[simp] theorem bumpBy_msixB (s : State) (a n : Nat) : (s.bumpBy a n).msixB = s.msixB := rfl
@[simp] theorem bumpBy_mbx (s : State) (a n : Nat) : (s.bumpBy a n).mbx = s.mbx := rfl
@[simp] theorem bumpBy_silt (s : State) (a n : Nat) : (s.bumpBy a n).silt = s.silt := rfl
@[simp] theorem bumpBy_msgPages (s : State) (a n : Nat) : (s.bumpBy a n).msgPages = s.msgPages := rfl
@[simp] theorem bumpBy_pb (s : State) (a n : Nat) : (s.bumpBy a n).pb = s.pb := rfl
@[simp] theorem bumpBy_gpio (s : State) (a n : Nat) : (s.bumpBy a n).gpio = s.gpio := rfl
@[simp] theorem bumpBy_ports (s : State) (a n : Nat) : (s.bumpBy a n).ports = s.ports := rfl
@[simp] theorem bumpBy_ptp (s : State) (a n : Nat) : (s.bumpBy a n).ptp = s.ptp := rfl
@[simp] theorem bumpBy_power (s : State) (a n : Nat) : (s.bumpBy a n).power = s.power := rfl
@[simp] theorem bumpBy_prs (s : State) (a n : Nat) : (s.bumpBy a n).prs = s.prs := rfl
@[simp] theorem bumpBy_tables (s : State) (a n : Nat) : (s.bumpBy a n).tables = s.tables := rfl
@[simp] theorem bumpBy_policing (s : State) (a n : Nat) : (s.bumpBy a n).policing = s.policing := rfl
@[simp] theorem bumpBy_frames (s : State) (a n : Nat) : (s.bumpBy a n).frames = s.frames := rfl
@[simp] theorem bumpBy_nextFrame (s : State) (a n : Nat) : (s.bumpBy a n).nextFrame = s.nextFrame := rfl
@[simp] theorem bumpBy_fab (s : State) (a n : Nat) : (s.bumpBy a n).fab = s.fab := rfl
@[simp] theorem bumpBy_egress (s : State) (a n : Nat) : (s.bumpBy a n).egress = s.egress := rfl
@[simp] theorem bumpBy_buses (s : State) (a n : Nat) : (s.bumpBy a n).buses = s.buses := rfl
@[simp] theorem bumpBy_gwe (s : State) (a n : Nat) : (s.bumpBy a n).gwe = s.gwe := rfl
@[simp] theorem bumpBy_cipher (s : State) (a n : Nat) : (s.bumpBy a n).cipher = s.cipher := rfl
@[simp] theorem bumpBy_keys (s : State) (a n : Nat) : (s.bumpBy a n).keys = s.keys := rfl
@[simp] theorem bumpBy_twin (s : State) (a n : Nat) : (s.bumpBy a n).twin = s.twin := rfl
@[simp] theorem bumpBy_sl (s : State) (a n : Nat) : (s.bumpBy a n).sl = s.sl := rfl
@[simp] theorem bumpBy_faults (s : State) (a n : Nat) : (s.bumpBy a n).faults = s.faults := rfl
@[simp] theorem bumpBy_upd (s : State) (a n : Nat) : (s.bumpBy a n).upd = s.upd := rfl
@[simp] theorem bumpBy_nvm (s : State) (a n : Nat) : (s.bumpBy a n).nvm = s.nvm := rfl
@[simp] theorem bumpBy_out (s : State) (a n : Nat) : (s.bumpBy a n).out = s.out := rfl
@[simp] theorem bumpBy_free (s : State) (a n : Nat) : (s.bumpBy a n).free = s.free := rfl

/-! ### `bump` -/

@[simp] theorem bump_pending (s : State) (a : Nat) : (s.bump a).pending = s.pending := rfl
@[simp] theorem bump_cclk (s : State) (a : Nat) : (s.bump a).cclk = s.cclk := rfl
@[simp] theorem bump_mode (s : State) (a : Nat) : (s.bump a).mode = s.mode := rfl
@[simp] theorem bump_latched (s : State) (a : Nat) : (s.bump a).latched = s.latched := rfl
@[simp] theorem bump_held (s : State) (a : Nat) : (s.bump a).held = s.held := rfl
@[simp] theorem bump_ctrlLockA (s : State) (a : Nat) : (s.bump a).ctrlLockA = s.ctrlLockA := rfl
@[simp] theorem bump_ctrlLockB (s : State) (a : Nat) : (s.bump a).ctrlLockB = s.ctrlLockB := rfl
@[simp] theorem bump_shadows (s : State) (a : Nat) : (s.bump a).shadows = s.shadows := rfl
@[simp] theorem bump_commits (s : State) (a : Nat) : (s.bump a).commits = s.commits := rfl
@[simp] theorem bump_partNo (s : State) (a : Nat) : (s.bump a).partNo = s.partNo := rfl
@[simp] theorem bump_hist (s : State) (a : Nat) : (s.bump a).hist = s.hist := rfl
@[simp] theorem bump_rings (s : State) (a : Nat) : (s.bump a).rings = s.rings := rfl
@[simp] theorem bump_msixA (s : State) (a : Nat) : (s.bump a).msixA = s.msixA := rfl
@[simp] theorem bump_msixB (s : State) (a : Nat) : (s.bump a).msixB = s.msixB := rfl
@[simp] theorem bump_mbx (s : State) (a : Nat) : (s.bump a).mbx = s.mbx := rfl
@[simp] theorem bump_silt (s : State) (a : Nat) : (s.bump a).silt = s.silt := rfl
@[simp] theorem bump_msgPages (s : State) (a : Nat) : (s.bump a).msgPages = s.msgPages := rfl
@[simp] theorem bump_pb (s : State) (a : Nat) : (s.bump a).pb = s.pb := rfl
@[simp] theorem bump_gpio (s : State) (a : Nat) : (s.bump a).gpio = s.gpio := rfl
@[simp] theorem bump_ports (s : State) (a : Nat) : (s.bump a).ports = s.ports := rfl
@[simp] theorem bump_ptp (s : State) (a : Nat) : (s.bump a).ptp = s.ptp := rfl
@[simp] theorem bump_power (s : State) (a : Nat) : (s.bump a).power = s.power := rfl
@[simp] theorem bump_prs (s : State) (a : Nat) : (s.bump a).prs = s.prs := rfl
@[simp] theorem bump_tables (s : State) (a : Nat) : (s.bump a).tables = s.tables := rfl
@[simp] theorem bump_policing (s : State) (a : Nat) : (s.bump a).policing = s.policing := rfl
@[simp] theorem bump_frames (s : State) (a : Nat) : (s.bump a).frames = s.frames := rfl
@[simp] theorem bump_nextFrame (s : State) (a : Nat) : (s.bump a).nextFrame = s.nextFrame := rfl
@[simp] theorem bump_fab (s : State) (a : Nat) : (s.bump a).fab = s.fab := rfl
@[simp] theorem bump_egress (s : State) (a : Nat) : (s.bump a).egress = s.egress := rfl
@[simp] theorem bump_buses (s : State) (a : Nat) : (s.bump a).buses = s.buses := rfl
@[simp] theorem bump_gwe (s : State) (a : Nat) : (s.bump a).gwe = s.gwe := rfl
@[simp] theorem bump_cipher (s : State) (a : Nat) : (s.bump a).cipher = s.cipher := rfl
@[simp] theorem bump_keys (s : State) (a : Nat) : (s.bump a).keys = s.keys := rfl
@[simp] theorem bump_twin (s : State) (a : Nat) : (s.bump a).twin = s.twin := rfl
@[simp] theorem bump_sl (s : State) (a : Nat) : (s.bump a).sl = s.sl := rfl
@[simp] theorem bump_faults (s : State) (a : Nat) : (s.bump a).faults = s.faults := rfl
@[simp] theorem bump_upd (s : State) (a : Nat) : (s.bump a).upd = s.upd := rfl
@[simp] theorem bump_nvm (s : State) (a : Nat) : (s.bump a).nvm = s.nvm := rfl
@[simp] theorem bump_out (s : State) (a : Nat) : (s.bump a).out = s.out := rfl
@[simp] theorem bump_free (s : State) (a : Nat) : (s.bump a).free = s.free := rfl

/-! ### `emit` -/

@[simp] theorem emit_pending (s : State) (o : Out) : (s.emit o).pending = s.pending := rfl
@[simp] theorem emit_cclk (s : State) (o : Out) : (s.emit o).cclk = s.cclk := rfl
@[simp] theorem emit_mode (s : State) (o : Out) : (s.emit o).mode = s.mode := rfl
@[simp] theorem emit_regs (s : State) (o : Out) : (s.emit o).regs = s.regs := rfl
@[simp] theorem emit_latched (s : State) (o : Out) : (s.emit o).latched = s.latched := rfl
@[simp] theorem emit_held (s : State) (o : Out) : (s.emit o).held = s.held := rfl
@[simp] theorem emit_ctrlLockA (s : State) (o : Out) : (s.emit o).ctrlLockA = s.ctrlLockA := rfl
@[simp] theorem emit_ctrlLockB (s : State) (o : Out) : (s.emit o).ctrlLockB = s.ctrlLockB := rfl
@[simp] theorem emit_shadows (s : State) (o : Out) : (s.emit o).shadows = s.shadows := rfl
@[simp] theorem emit_commits (s : State) (o : Out) : (s.emit o).commits = s.commits := rfl
@[simp] theorem emit_partNo (s : State) (o : Out) : (s.emit o).partNo = s.partNo := rfl
@[simp] theorem emit_hist (s : State) (o : Out) : (s.emit o).hist = s.hist := rfl
@[simp] theorem emit_rings (s : State) (o : Out) : (s.emit o).rings = s.rings := rfl
@[simp] theorem emit_msixA (s : State) (o : Out) : (s.emit o).msixA = s.msixA := rfl
@[simp] theorem emit_msixB (s : State) (o : Out) : (s.emit o).msixB = s.msixB := rfl
@[simp] theorem emit_mbx (s : State) (o : Out) : (s.emit o).mbx = s.mbx := rfl
@[simp] theorem emit_silt (s : State) (o : Out) : (s.emit o).silt = s.silt := rfl
@[simp] theorem emit_msgPages (s : State) (o : Out) : (s.emit o).msgPages = s.msgPages := rfl
@[simp] theorem emit_pb (s : State) (o : Out) : (s.emit o).pb = s.pb := rfl
@[simp] theorem emit_gpio (s : State) (o : Out) : (s.emit o).gpio = s.gpio := rfl
@[simp] theorem emit_ports (s : State) (o : Out) : (s.emit o).ports = s.ports := rfl
@[simp] theorem emit_ptp (s : State) (o : Out) : (s.emit o).ptp = s.ptp := rfl
@[simp] theorem emit_power (s : State) (o : Out) : (s.emit o).power = s.power := rfl
@[simp] theorem emit_prs (s : State) (o : Out) : (s.emit o).prs = s.prs := rfl
@[simp] theorem emit_tables (s : State) (o : Out) : (s.emit o).tables = s.tables := rfl
@[simp] theorem emit_policing (s : State) (o : Out) : (s.emit o).policing = s.policing := rfl
@[simp] theorem emit_frames (s : State) (o : Out) : (s.emit o).frames = s.frames := rfl
@[simp] theorem emit_nextFrame (s : State) (o : Out) : (s.emit o).nextFrame = s.nextFrame := rfl
@[simp] theorem emit_fab (s : State) (o : Out) : (s.emit o).fab = s.fab := rfl
@[simp] theorem emit_egress (s : State) (o : Out) : (s.emit o).egress = s.egress := rfl
@[simp] theorem emit_buses (s : State) (o : Out) : (s.emit o).buses = s.buses := rfl
@[simp] theorem emit_gwe (s : State) (o : Out) : (s.emit o).gwe = s.gwe := rfl
@[simp] theorem emit_cipher (s : State) (o : Out) : (s.emit o).cipher = s.cipher := rfl
@[simp] theorem emit_keys (s : State) (o : Out) : (s.emit o).keys = s.keys := rfl
@[simp] theorem emit_twin (s : State) (o : Out) : (s.emit o).twin = s.twin := rfl
@[simp] theorem emit_sl (s : State) (o : Out) : (s.emit o).sl = s.sl := rfl
@[simp] theorem emit_faults (s : State) (o : Out) : (s.emit o).faults = s.faults := rfl
@[simp] theorem emit_upd (s : State) (o : Out) : (s.emit o).upd = s.upd := rfl
@[simp] theorem emit_nvm (s : State) (o : Out) : (s.emit o).nvm = s.nvm := rfl
@[simp] theorem emit_free (s : State) (o : Out) : (s.emit o).free = s.free := rfl

/-! ### `tick1` -/

@[simp] theorem tick1_pending (s : State) : (s.tick1).pending = s.pending := rfl
@[simp] theorem tick1_cclk (s : State) : (s.tick1).cclk = s.cclk := rfl
@[simp] theorem tick1_mode (s : State) : (s.tick1).mode = s.mode := rfl
@[simp] theorem tick1_regs (s : State) : (s.tick1).regs = s.regs := rfl
@[simp] theorem tick1_latched (s : State) : (s.tick1).latched = s.latched := rfl
@[simp] theorem tick1_held (s : State) : (s.tick1).held = s.held := rfl
@[simp] theorem tick1_ctrlLockA (s : State) : (s.tick1).ctrlLockA = s.ctrlLockA := rfl
@[simp] theorem tick1_ctrlLockB (s : State) : (s.tick1).ctrlLockB = s.ctrlLockB := rfl
@[simp] theorem tick1_shadows (s : State) : (s.tick1).shadows = s.shadows := rfl
@[simp] theorem tick1_commits (s : State) : (s.tick1).commits = s.commits := rfl
@[simp] theorem tick1_partNo (s : State) : (s.tick1).partNo = s.partNo := rfl
@[simp] theorem tick1_hist (s : State) : (s.tick1).hist = s.hist := rfl
@[simp] theorem tick1_rings (s : State) : (s.tick1).rings = s.rings := rfl
@[simp] theorem tick1_msixA (s : State) : (s.tick1).msixA = s.msixA := rfl
@[simp] theorem tick1_msixB (s : State) : (s.tick1).msixB = s.msixB := rfl
@[simp] theorem tick1_mbx (s : State) : (s.tick1).mbx = s.mbx := rfl
@[simp] theorem tick1_silt (s : State) : (s.tick1).silt = s.silt := rfl
@[simp] theorem tick1_msgPages (s : State) : (s.tick1).msgPages = s.msgPages := rfl
@[simp] theorem tick1_pb (s : State) : (s.tick1).pb = s.pb := rfl
@[simp] theorem tick1_gpio (s : State) : (s.tick1).gpio = s.gpio := rfl
@[simp] theorem tick1_ports (s : State) : (s.tick1).ports = s.ports := rfl
@[simp] theorem tick1_ptp (s : State) : (s.tick1).ptp = s.ptp := rfl
@[simp] theorem tick1_power (s : State) : (s.tick1).power = s.power := rfl
@[simp] theorem tick1_prs (s : State) : (s.tick1).prs = s.prs := rfl
@[simp] theorem tick1_tables (s : State) : (s.tick1).tables = s.tables := rfl
@[simp] theorem tick1_policing (s : State) : (s.tick1).policing = s.policing := rfl
@[simp] theorem tick1_frames (s : State) : (s.tick1).frames = s.frames := rfl
@[simp] theorem tick1_nextFrame (s : State) : (s.tick1).nextFrame = s.nextFrame := rfl
@[simp] theorem tick1_fab (s : State) : (s.tick1).fab = s.fab := rfl
@[simp] theorem tick1_egress (s : State) : (s.tick1).egress = s.egress := rfl
@[simp] theorem tick1_buses (s : State) : (s.tick1).buses = s.buses := rfl
@[simp] theorem tick1_gwe (s : State) : (s.tick1).gwe = s.gwe := rfl
@[simp] theorem tick1_cipher (s : State) : (s.tick1).cipher = s.cipher := rfl
@[simp] theorem tick1_keys (s : State) : (s.tick1).keys = s.keys := rfl
@[simp] theorem tick1_twin (s : State) : (s.tick1).twin = s.twin := rfl
@[simp] theorem tick1_sl (s : State) : (s.tick1).sl = s.sl := rfl
@[simp] theorem tick1_faults (s : State) : (s.tick1).faults = s.faults := rfl
@[simp] theorem tick1_upd (s : State) : (s.tick1).upd = s.upd := rfl
@[simp] theorem tick1_nvm (s : State) : (s.tick1).nvm = s.nvm := rfl
@[simp] theorem tick1_out (s : State) : (s.tick1).out = s.out := rfl

@[simp] theorem emit_out (s : State) (o : Out) : (s.emit o).out = o :: s.out := rfl

@[simp] theorem emit_reg (s : State) (o : Out) (a : Nat) : (s.emit o).reg a = s.reg a := rfl

@[simp] theorem tick1_free (s : State) : s.tick1.free = s.free + 1 := rfl

@[simp] theorem tick1_reg (s : State) (a : Nat) : s.tick1.reg a = s.reg a := rfl

/-! ### `noteRaised` -/

@[simp] theorem noteRaised_pending (s : State) (p m : Nat) : (s.noteRaised p m).pending = s.pending := rfl
@[simp] theorem noteRaised_cclk (s : State) (p m : Nat) : (s.noteRaised p m).cclk = s.cclk := rfl
@[simp] theorem noteRaised_mode (s : State) (p m : Nat) : (s.noteRaised p m).mode = s.mode := rfl
@[simp] theorem noteRaised_regs (s : State) (p m : Nat) : (s.noteRaised p m).regs = s.regs := rfl
@[simp] theorem noteRaised_latched (s : State) (p m : Nat) : (s.noteRaised p m).latched = s.latched := rfl
@[simp] theorem noteRaised_held (s : State) (p m : Nat) : (s.noteRaised p m).held = s.held := rfl
@[simp] theorem noteRaised_ctrlLockA (s : State) (p m : Nat) : (s.noteRaised p m).ctrlLockA = s.ctrlLockA := rfl
@[simp] theorem noteRaised_ctrlLockB (s : State) (p m : Nat) : (s.noteRaised p m).ctrlLockB = s.ctrlLockB := rfl
@[simp] theorem noteRaised_shadows (s : State) (p m : Nat) : (s.noteRaised p m).shadows = s.shadows := rfl
@[simp] theorem noteRaised_commits (s : State) (p m : Nat) : (s.noteRaised p m).commits = s.commits := rfl
@[simp] theorem noteRaised_partNo (s : State) (p m : Nat) : (s.noteRaised p m).partNo = s.partNo := rfl
@[simp] theorem noteRaised_hist (s : State) (p m : Nat) : (s.noteRaised p m).hist = s.hist := rfl
@[simp] theorem noteRaised_rings (s : State) (p m : Nat) : (s.noteRaised p m).rings = s.rings := rfl
@[simp] theorem noteRaised_msixA (s : State) (p m : Nat) : (s.noteRaised p m).msixA = s.msixA := rfl
@[simp] theorem noteRaised_msixB (s : State) (p m : Nat) : (s.noteRaised p m).msixB = s.msixB := rfl
@[simp] theorem noteRaised_mbx (s : State) (p m : Nat) : (s.noteRaised p m).mbx = s.mbx := rfl
@[simp] theorem noteRaised_silt (s : State) (p m : Nat) : (s.noteRaised p m).silt = s.silt := rfl
@[simp] theorem noteRaised_pb (s : State) (p m : Nat) : (s.noteRaised p m).pb = s.pb := rfl
@[simp] theorem noteRaised_gpio (s : State) (p m : Nat) : (s.noteRaised p m).gpio = s.gpio := rfl
@[simp] theorem noteRaised_ports (s : State) (p m : Nat) : (s.noteRaised p m).ports = s.ports := rfl
@[simp] theorem noteRaised_ptp (s : State) (p m : Nat) : (s.noteRaised p m).ptp = s.ptp := rfl
@[simp] theorem noteRaised_power (s : State) (p m : Nat) : (s.noteRaised p m).power = s.power := rfl
@[simp] theorem noteRaised_prs (s : State) (p m : Nat) : (s.noteRaised p m).prs = s.prs := rfl
@[simp] theorem noteRaised_tables (s : State) (p m : Nat) : (s.noteRaised p m).tables = s.tables := rfl
@[simp] theorem noteRaised_policing (s : State) (p m : Nat) : (s.noteRaised p m).policing = s.policing := rfl
@[simp] theorem noteRaised_frames (s : State) (p m : Nat) : (s.noteRaised p m).frames = s.frames := rfl
@[simp] theorem noteRaised_nextFrame (s : State) (p m : Nat) : (s.noteRaised p m).nextFrame = s.nextFrame := rfl
@[simp] theorem noteRaised_fab (s : State) (p m : Nat) : (s.noteRaised p m).fab = s.fab := rfl
@[simp] theorem noteRaised_egress (s : State) (p m : Nat) : (s.noteRaised p m).egress = s.egress := rfl
@[simp] theorem noteRaised_buses (s : State) (p m : Nat) : (s.noteRaised p m).buses = s.buses := rfl
@[simp] theorem noteRaised_gwe (s : State) (p m : Nat) : (s.noteRaised p m).gwe = s.gwe := rfl
@[simp] theorem noteRaised_cipher (s : State) (p m : Nat) : (s.noteRaised p m).cipher = s.cipher := rfl
@[simp] theorem noteRaised_keys (s : State) (p m : Nat) : (s.noteRaised p m).keys = s.keys := rfl
@[simp] theorem noteRaised_twin (s : State) (p m : Nat) : (s.noteRaised p m).twin = s.twin := rfl
@[simp] theorem noteRaised_sl (s : State) (p m : Nat) : (s.noteRaised p m).sl = s.sl := rfl
@[simp] theorem noteRaised_faults (s : State) (p m : Nat) : (s.noteRaised p m).faults = s.faults := rfl
@[simp] theorem noteRaised_upd (s : State) (p m : Nat) : (s.noteRaised p m).upd = s.upd := rfl
@[simp] theorem noteRaised_nvm (s : State) (p m : Nat) : (s.noteRaised p m).nvm = s.nvm := rfl
@[simp] theorem noteRaised_out (s : State) (p m : Nat) : (s.noteRaised p m).out = s.out := rfl
@[simp] theorem noteRaised_free (s : State) (p m : Nat) : (s.noteRaised p m).free = s.free := rfl
@[simp] theorem noteRaised_reg (s : State) (p m a : Nat) : (s.noteRaised p m).reg a = s.reg a := rfl

/-! ### `pageMsg` -/

@[simp] theorem pageMsg_pending (s : State) (p : Nat) : (s.pageMsg p).pending = s.pending :=
  (fr_State_pageMsg (F := 549755969536) rfl (frm_refl (b := s))).pending.resolve_left (by decide)
@[simp] theorem pageMsg_cclk (s : State) (p : Nat) : (s.pageMsg p).cclk = s.cclk :=
  (fr_State_pageMsg (F := 549755969536) rfl (frm_refl (b := s))).cclk.resolve_left (by decide)
@[simp] theorem pageMsg_mode (s : State) (p : Nat) : (s.pageMsg p).mode = s.mode :=
  (fr_State_pageMsg (F := 549755969536) rfl (frm_refl (b := s))).mode.resolve_left (by decide)
@[simp] theorem pageMsg_regs (s : State) (p : Nat) : (s.pageMsg p).regs = s.regs :=
  (fr_State_pageMsg (F := 549755969536) rfl (frm_refl (b := s))).regs.resolve_left (by decide)
@[simp] theorem pageMsg_latched (s : State) (p : Nat) : (s.pageMsg p).latched = s.latched :=
  (fr_State_pageMsg (F := 549755969536) rfl (frm_refl (b := s))).latched.resolve_left (by decide)
@[simp] theorem pageMsg_held (s : State) (p : Nat) : (s.pageMsg p).held = s.held :=
  (fr_State_pageMsg (F := 549755969536) rfl (frm_refl (b := s))).held.resolve_left (by decide)
@[simp] theorem pageMsg_ctrlLockA (s : State) (p : Nat) : (s.pageMsg p).ctrlLockA = s.ctrlLockA :=
  (fr_State_pageMsg (F := 549755969536) rfl (frm_refl (b := s))).ctrlLockA.resolve_left (by decide)
@[simp] theorem pageMsg_ctrlLockB (s : State) (p : Nat) : (s.pageMsg p).ctrlLockB = s.ctrlLockB :=
  (fr_State_pageMsg (F := 549755969536) rfl (frm_refl (b := s))).ctrlLockB.resolve_left (by decide)
@[simp] theorem pageMsg_shadows (s : State) (p : Nat) : (s.pageMsg p).shadows = s.shadows :=
  (fr_State_pageMsg (F := 549755969536) rfl (frm_refl (b := s))).shadows.resolve_left (by decide)
@[simp] theorem pageMsg_commits (s : State) (p : Nat) : (s.pageMsg p).commits = s.commits :=
  (fr_State_pageMsg (F := 549755969536) rfl (frm_refl (b := s))).commits.resolve_left (by decide)
@[simp] theorem pageMsg_partNo (s : State) (p : Nat) : (s.pageMsg p).partNo = s.partNo :=
  (fr_State_pageMsg (F := 549755969536) rfl (frm_refl (b := s))).partNo.resolve_left (by decide)
@[simp] theorem pageMsg_hist (s : State) (p : Nat) : (s.pageMsg p).hist = s.hist :=
  (fr_State_pageMsg (F := 549755969536) rfl (frm_refl (b := s))).hist.resolve_left (by decide)
@[simp] theorem pageMsg_rings (s : State) (p : Nat) : (s.pageMsg p).rings = s.rings :=
  (fr_State_pageMsg (F := 549755969536) rfl (frm_refl (b := s))).rings.resolve_left (by decide)
@[simp] theorem pageMsg_mbx (s : State) (p : Nat) : (s.pageMsg p).mbx = s.mbx :=
  (fr_State_pageMsg (F := 549755969536) rfl (frm_refl (b := s))).mbx.resolve_left (by decide)
@[simp] theorem pageMsg_silt (s : State) (p : Nat) : (s.pageMsg p).silt = s.silt :=
  (fr_State_pageMsg (F := 549755969536) rfl (frm_refl (b := s))).silt.resolve_left (by decide)
@[simp] theorem pageMsg_pb (s : State) (p : Nat) : (s.pageMsg p).pb = s.pb :=
  (fr_State_pageMsg (F := 549755969536) rfl (frm_refl (b := s))).pb.resolve_left (by decide)
@[simp] theorem pageMsg_gpio (s : State) (p : Nat) : (s.pageMsg p).gpio = s.gpio :=
  (fr_State_pageMsg (F := 549755969536) rfl (frm_refl (b := s))).gpio.resolve_left (by decide)
@[simp] theorem pageMsg_ports (s : State) (p : Nat) : (s.pageMsg p).ports = s.ports :=
  (fr_State_pageMsg (F := 549755969536) rfl (frm_refl (b := s))).ports.resolve_left (by decide)
@[simp] theorem pageMsg_ptp (s : State) (p : Nat) : (s.pageMsg p).ptp = s.ptp :=
  (fr_State_pageMsg (F := 549755969536) rfl (frm_refl (b := s))).ptp.resolve_left (by decide)
@[simp] theorem pageMsg_power (s : State) (p : Nat) : (s.pageMsg p).power = s.power :=
  (fr_State_pageMsg (F := 549755969536) rfl (frm_refl (b := s))).power.resolve_left (by decide)
@[simp] theorem pageMsg_prs (s : State) (p : Nat) : (s.pageMsg p).prs = s.prs :=
  (fr_State_pageMsg (F := 549755969536) rfl (frm_refl (b := s))).prs.resolve_left (by decide)
@[simp] theorem pageMsg_tables (s : State) (p : Nat) : (s.pageMsg p).tables = s.tables :=
  (fr_State_pageMsg (F := 549755969536) rfl (frm_refl (b := s))).tables.resolve_left (by decide)
@[simp] theorem pageMsg_policing (s : State) (p : Nat) : (s.pageMsg p).policing = s.policing :=
  (fr_State_pageMsg (F := 549755969536) rfl (frm_refl (b := s))).policing.resolve_left (by decide)
@[simp] theorem pageMsg_frames (s : State) (p : Nat) : (s.pageMsg p).frames = s.frames :=
  (fr_State_pageMsg (F := 549755969536) rfl (frm_refl (b := s))).frames.resolve_left (by decide)
@[simp] theorem pageMsg_nextFrame (s : State) (p : Nat) : (s.pageMsg p).nextFrame = s.nextFrame :=
  (fr_State_pageMsg (F := 549755969536) rfl (frm_refl (b := s))).nextFrame.resolve_left (by decide)
@[simp] theorem pageMsg_fab (s : State) (p : Nat) : (s.pageMsg p).fab = s.fab :=
  (fr_State_pageMsg (F := 549755969536) rfl (frm_refl (b := s))).fab.resolve_left (by decide)
@[simp] theorem pageMsg_egress (s : State) (p : Nat) : (s.pageMsg p).egress = s.egress :=
  (fr_State_pageMsg (F := 549755969536) rfl (frm_refl (b := s))).egress.resolve_left (by decide)
@[simp] theorem pageMsg_buses (s : State) (p : Nat) : (s.pageMsg p).buses = s.buses :=
  (fr_State_pageMsg (F := 549755969536) rfl (frm_refl (b := s))).buses.resolve_left (by decide)
@[simp] theorem pageMsg_gwe (s : State) (p : Nat) : (s.pageMsg p).gwe = s.gwe :=
  (fr_State_pageMsg (F := 549755969536) rfl (frm_refl (b := s))).gwe.resolve_left (by decide)
@[simp] theorem pageMsg_cipher (s : State) (p : Nat) : (s.pageMsg p).cipher = s.cipher :=
  (fr_State_pageMsg (F := 549755969536) rfl (frm_refl (b := s))).cipher.resolve_left (by decide)
@[simp] theorem pageMsg_keys (s : State) (p : Nat) : (s.pageMsg p).keys = s.keys :=
  (fr_State_pageMsg (F := 549755969536) rfl (frm_refl (b := s))).keys.resolve_left (by decide)
@[simp] theorem pageMsg_twin (s : State) (p : Nat) : (s.pageMsg p).twin = s.twin :=
  (fr_State_pageMsg (F := 549755969536) rfl (frm_refl (b := s))).twin.resolve_left (by decide)
@[simp] theorem pageMsg_sl (s : State) (p : Nat) : (s.pageMsg p).sl = s.sl :=
  (fr_State_pageMsg (F := 549755969536) rfl (frm_refl (b := s))).sl.resolve_left (by decide)
@[simp] theorem pageMsg_faults (s : State) (p : Nat) : (s.pageMsg p).faults = s.faults :=
  (fr_State_pageMsg (F := 549755969536) rfl (frm_refl (b := s))).faults.resolve_left (by decide)
@[simp] theorem pageMsg_upd (s : State) (p : Nat) : (s.pageMsg p).upd = s.upd :=
  (fr_State_pageMsg (F := 549755969536) rfl (frm_refl (b := s))).upd.resolve_left (by decide)
@[simp] theorem pageMsg_nvm (s : State) (p : Nat) : (s.pageMsg p).nvm = s.nvm :=
  (fr_State_pageMsg (F := 549755969536) rfl (frm_refl (b := s))).nvm.resolve_left (by decide)
@[simp] theorem pageMsg_free (s : State) (p : Nat) : (s.pageMsg p).free = s.free :=
  (fr_State_pageMsg (F := 549755969536) rfl (frm_refl (b := s))).free.resolve_left (by decide)

/-! ### `raiseMask` -/

@[simp] theorem raiseMask_pending (s : State) (p m : Nat) : (s.raiseMask p m).pending = s.pending :=
  (fr_State_raiseMask (F := 549755969544) rfl (frm_refl (b := s))).pending.resolve_left (by decide)
@[simp] theorem raiseMask_cclk (s : State) (p m : Nat) : (s.raiseMask p m).cclk = s.cclk :=
  (fr_State_raiseMask (F := 549755969544) rfl (frm_refl (b := s))).cclk.resolve_left (by decide)
@[simp] theorem raiseMask_mode (s : State) (p m : Nat) : (s.raiseMask p m).mode = s.mode :=
  (fr_State_raiseMask (F := 549755969544) rfl (frm_refl (b := s))).mode.resolve_left (by decide)
@[simp] theorem raiseMask_latched (s : State) (p m : Nat) : (s.raiseMask p m).latched = s.latched :=
  (fr_State_raiseMask (F := 549755969544) rfl (frm_refl (b := s))).latched.resolve_left (by decide)
@[simp] theorem raiseMask_held (s : State) (p m : Nat) : (s.raiseMask p m).held = s.held :=
  (fr_State_raiseMask (F := 549755969544) rfl (frm_refl (b := s))).held.resolve_left (by decide)
@[simp] theorem raiseMask_ctrlLockA (s : State) (p m : Nat) : (s.raiseMask p m).ctrlLockA = s.ctrlLockA :=
  (fr_State_raiseMask (F := 549755969544) rfl (frm_refl (b := s))).ctrlLockA.resolve_left (by decide)
@[simp] theorem raiseMask_ctrlLockB (s : State) (p m : Nat) : (s.raiseMask p m).ctrlLockB = s.ctrlLockB :=
  (fr_State_raiseMask (F := 549755969544) rfl (frm_refl (b := s))).ctrlLockB.resolve_left (by decide)
@[simp] theorem raiseMask_shadows (s : State) (p m : Nat) : (s.raiseMask p m).shadows = s.shadows :=
  (fr_State_raiseMask (F := 549755969544) rfl (frm_refl (b := s))).shadows.resolve_left (by decide)
@[simp] theorem raiseMask_commits (s : State) (p m : Nat) : (s.raiseMask p m).commits = s.commits :=
  (fr_State_raiseMask (F := 549755969544) rfl (frm_refl (b := s))).commits.resolve_left (by decide)
@[simp] theorem raiseMask_partNo (s : State) (p m : Nat) : (s.raiseMask p m).partNo = s.partNo :=
  (fr_State_raiseMask (F := 549755969544) rfl (frm_refl (b := s))).partNo.resolve_left (by decide)
@[simp] theorem raiseMask_hist (s : State) (p m : Nat) : (s.raiseMask p m).hist = s.hist :=
  (fr_State_raiseMask (F := 549755969544) rfl (frm_refl (b := s))).hist.resolve_left (by decide)
@[simp] theorem raiseMask_rings (s : State) (p m : Nat) : (s.raiseMask p m).rings = s.rings :=
  (fr_State_raiseMask (F := 549755969544) rfl (frm_refl (b := s))).rings.resolve_left (by decide)
@[simp] theorem raiseMask_mbx (s : State) (p m : Nat) : (s.raiseMask p m).mbx = s.mbx :=
  (fr_State_raiseMask (F := 549755969544) rfl (frm_refl (b := s))).mbx.resolve_left (by decide)
@[simp] theorem raiseMask_silt (s : State) (p m : Nat) : (s.raiseMask p m).silt = s.silt :=
  (fr_State_raiseMask (F := 549755969544) rfl (frm_refl (b := s))).silt.resolve_left (by decide)
@[simp] theorem raiseMask_pb (s : State) (p m : Nat) : (s.raiseMask p m).pb = s.pb :=
  (fr_State_raiseMask (F := 549755969544) rfl (frm_refl (b := s))).pb.resolve_left (by decide)
@[simp] theorem raiseMask_gpio (s : State) (p m : Nat) : (s.raiseMask p m).gpio = s.gpio :=
  (fr_State_raiseMask (F := 549755969544) rfl (frm_refl (b := s))).gpio.resolve_left (by decide)
@[simp] theorem raiseMask_ports (s : State) (p m : Nat) : (s.raiseMask p m).ports = s.ports :=
  (fr_State_raiseMask (F := 549755969544) rfl (frm_refl (b := s))).ports.resolve_left (by decide)
@[simp] theorem raiseMask_ptp (s : State) (p m : Nat) : (s.raiseMask p m).ptp = s.ptp :=
  (fr_State_raiseMask (F := 549755969544) rfl (frm_refl (b := s))).ptp.resolve_left (by decide)
@[simp] theorem raiseMask_power (s : State) (p m : Nat) : (s.raiseMask p m).power = s.power :=
  (fr_State_raiseMask (F := 549755969544) rfl (frm_refl (b := s))).power.resolve_left (by decide)
@[simp] theorem raiseMask_prs (s : State) (p m : Nat) : (s.raiseMask p m).prs = s.prs :=
  (fr_State_raiseMask (F := 549755969544) rfl (frm_refl (b := s))).prs.resolve_left (by decide)
@[simp] theorem raiseMask_tables (s : State) (p m : Nat) : (s.raiseMask p m).tables = s.tables :=
  (fr_State_raiseMask (F := 549755969544) rfl (frm_refl (b := s))).tables.resolve_left (by decide)
@[simp] theorem raiseMask_policing (s : State) (p m : Nat) : (s.raiseMask p m).policing = s.policing :=
  (fr_State_raiseMask (F := 549755969544) rfl (frm_refl (b := s))).policing.resolve_left (by decide)
@[simp] theorem raiseMask_frames (s : State) (p m : Nat) : (s.raiseMask p m).frames = s.frames :=
  (fr_State_raiseMask (F := 549755969544) rfl (frm_refl (b := s))).frames.resolve_left (by decide)
@[simp] theorem raiseMask_nextFrame (s : State) (p m : Nat) : (s.raiseMask p m).nextFrame = s.nextFrame :=
  (fr_State_raiseMask (F := 549755969544) rfl (frm_refl (b := s))).nextFrame.resolve_left (by decide)
@[simp] theorem raiseMask_fab (s : State) (p m : Nat) : (s.raiseMask p m).fab = s.fab :=
  (fr_State_raiseMask (F := 549755969544) rfl (frm_refl (b := s))).fab.resolve_left (by decide)
@[simp] theorem raiseMask_egress (s : State) (p m : Nat) : (s.raiseMask p m).egress = s.egress :=
  (fr_State_raiseMask (F := 549755969544) rfl (frm_refl (b := s))).egress.resolve_left (by decide)
@[simp] theorem raiseMask_buses (s : State) (p m : Nat) : (s.raiseMask p m).buses = s.buses :=
  (fr_State_raiseMask (F := 549755969544) rfl (frm_refl (b := s))).buses.resolve_left (by decide)
@[simp] theorem raiseMask_gwe (s : State) (p m : Nat) : (s.raiseMask p m).gwe = s.gwe :=
  (fr_State_raiseMask (F := 549755969544) rfl (frm_refl (b := s))).gwe.resolve_left (by decide)
@[simp] theorem raiseMask_cipher (s : State) (p m : Nat) : (s.raiseMask p m).cipher = s.cipher :=
  (fr_State_raiseMask (F := 549755969544) rfl (frm_refl (b := s))).cipher.resolve_left (by decide)
@[simp] theorem raiseMask_keys (s : State) (p m : Nat) : (s.raiseMask p m).keys = s.keys :=
  (fr_State_raiseMask (F := 549755969544) rfl (frm_refl (b := s))).keys.resolve_left (by decide)
@[simp] theorem raiseMask_twin (s : State) (p m : Nat) : (s.raiseMask p m).twin = s.twin :=
  (fr_State_raiseMask (F := 549755969544) rfl (frm_refl (b := s))).twin.resolve_left (by decide)
@[simp] theorem raiseMask_sl (s : State) (p m : Nat) : (s.raiseMask p m).sl = s.sl :=
  (fr_State_raiseMask (F := 549755969544) rfl (frm_refl (b := s))).sl.resolve_left (by decide)
@[simp] theorem raiseMask_faults (s : State) (p m : Nat) : (s.raiseMask p m).faults = s.faults :=
  (fr_State_raiseMask (F := 549755969544) rfl (frm_refl (b := s))).faults.resolve_left (by decide)
@[simp] theorem raiseMask_upd (s : State) (p m : Nat) : (s.raiseMask p m).upd = s.upd :=
  (fr_State_raiseMask (F := 549755969544) rfl (frm_refl (b := s))).upd.resolve_left (by decide)
@[simp] theorem raiseMask_nvm (s : State) (p m : Nat) : (s.raiseMask p m).nvm = s.nvm :=
  (fr_State_raiseMask (F := 549755969544) rfl (frm_refl (b := s))).nvm.resolve_left (by decide)
@[simp] theorem raiseMask_free (s : State) (p m : Nat) : (s.raiseMask p m).free = s.free :=
  (fr_State_raiseMask (F := 549755969544) rfl (frm_refl (b := s))).free.resolve_left (by decide)

/-! ### `raise` -/

@[simp] theorem raise_pending (s : State) (p i : Nat) : (s.raise p i).pending = s.pending :=
  (fr_State_raise (F := 549755969544) rfl (frm_refl (b := s))).pending.resolve_left (by decide)
@[simp] theorem raise_cclk (s : State) (p i : Nat) : (s.raise p i).cclk = s.cclk :=
  (fr_State_raise (F := 549755969544) rfl (frm_refl (b := s))).cclk.resolve_left (by decide)
@[simp] theorem raise_mode (s : State) (p i : Nat) : (s.raise p i).mode = s.mode :=
  (fr_State_raise (F := 549755969544) rfl (frm_refl (b := s))).mode.resolve_left (by decide)
@[simp] theorem raise_latched (s : State) (p i : Nat) : (s.raise p i).latched = s.latched :=
  (fr_State_raise (F := 549755969544) rfl (frm_refl (b := s))).latched.resolve_left (by decide)
@[simp] theorem raise_held (s : State) (p i : Nat) : (s.raise p i).held = s.held :=
  (fr_State_raise (F := 549755969544) rfl (frm_refl (b := s))).held.resolve_left (by decide)
@[simp] theorem raise_ctrlLockA (s : State) (p i : Nat) : (s.raise p i).ctrlLockA = s.ctrlLockA :=
  (fr_State_raise (F := 549755969544) rfl (frm_refl (b := s))).ctrlLockA.resolve_left (by decide)
@[simp] theorem raise_ctrlLockB (s : State) (p i : Nat) : (s.raise p i).ctrlLockB = s.ctrlLockB :=
  (fr_State_raise (F := 549755969544) rfl (frm_refl (b := s))).ctrlLockB.resolve_left (by decide)
@[simp] theorem raise_shadows (s : State) (p i : Nat) : (s.raise p i).shadows = s.shadows :=
  (fr_State_raise (F := 549755969544) rfl (frm_refl (b := s))).shadows.resolve_left (by decide)
@[simp] theorem raise_commits (s : State) (p i : Nat) : (s.raise p i).commits = s.commits :=
  (fr_State_raise (F := 549755969544) rfl (frm_refl (b := s))).commits.resolve_left (by decide)
@[simp] theorem raise_partNo (s : State) (p i : Nat) : (s.raise p i).partNo = s.partNo :=
  (fr_State_raise (F := 549755969544) rfl (frm_refl (b := s))).partNo.resolve_left (by decide)
@[simp] theorem raise_hist (s : State) (p i : Nat) : (s.raise p i).hist = s.hist :=
  (fr_State_raise (F := 549755969544) rfl (frm_refl (b := s))).hist.resolve_left (by decide)
@[simp] theorem raise_rings (s : State) (p i : Nat) : (s.raise p i).rings = s.rings :=
  (fr_State_raise (F := 549755969544) rfl (frm_refl (b := s))).rings.resolve_left (by decide)
@[simp] theorem raise_mbx (s : State) (p i : Nat) : (s.raise p i).mbx = s.mbx :=
  (fr_State_raise (F := 549755969544) rfl (frm_refl (b := s))).mbx.resolve_left (by decide)
@[simp] theorem raise_silt (s : State) (p i : Nat) : (s.raise p i).silt = s.silt :=
  (fr_State_raise (F := 549755969544) rfl (frm_refl (b := s))).silt.resolve_left (by decide)
@[simp] theorem raise_pb (s : State) (p i : Nat) : (s.raise p i).pb = s.pb :=
  (fr_State_raise (F := 549755969544) rfl (frm_refl (b := s))).pb.resolve_left (by decide)
@[simp] theorem raise_gpio (s : State) (p i : Nat) : (s.raise p i).gpio = s.gpio :=
  (fr_State_raise (F := 549755969544) rfl (frm_refl (b := s))).gpio.resolve_left (by decide)
@[simp] theorem raise_ports (s : State) (p i : Nat) : (s.raise p i).ports = s.ports :=
  (fr_State_raise (F := 549755969544) rfl (frm_refl (b := s))).ports.resolve_left (by decide)
@[simp] theorem raise_ptp (s : State) (p i : Nat) : (s.raise p i).ptp = s.ptp :=
  (fr_State_raise (F := 549755969544) rfl (frm_refl (b := s))).ptp.resolve_left (by decide)
@[simp] theorem raise_power (s : State) (p i : Nat) : (s.raise p i).power = s.power :=
  (fr_State_raise (F := 549755969544) rfl (frm_refl (b := s))).power.resolve_left (by decide)
@[simp] theorem raise_prs (s : State) (p i : Nat) : (s.raise p i).prs = s.prs :=
  (fr_State_raise (F := 549755969544) rfl (frm_refl (b := s))).prs.resolve_left (by decide)
@[simp] theorem raise_tables (s : State) (p i : Nat) : (s.raise p i).tables = s.tables :=
  (fr_State_raise (F := 549755969544) rfl (frm_refl (b := s))).tables.resolve_left (by decide)
@[simp] theorem raise_policing (s : State) (p i : Nat) : (s.raise p i).policing = s.policing :=
  (fr_State_raise (F := 549755969544) rfl (frm_refl (b := s))).policing.resolve_left (by decide)
@[simp] theorem raise_frames (s : State) (p i : Nat) : (s.raise p i).frames = s.frames :=
  (fr_State_raise (F := 549755969544) rfl (frm_refl (b := s))).frames.resolve_left (by decide)
@[simp] theorem raise_nextFrame (s : State) (p i : Nat) : (s.raise p i).nextFrame = s.nextFrame :=
  (fr_State_raise (F := 549755969544) rfl (frm_refl (b := s))).nextFrame.resolve_left (by decide)
@[simp] theorem raise_fab (s : State) (p i : Nat) : (s.raise p i).fab = s.fab :=
  (fr_State_raise (F := 549755969544) rfl (frm_refl (b := s))).fab.resolve_left (by decide)
@[simp] theorem raise_egress (s : State) (p i : Nat) : (s.raise p i).egress = s.egress :=
  (fr_State_raise (F := 549755969544) rfl (frm_refl (b := s))).egress.resolve_left (by decide)
@[simp] theorem raise_buses (s : State) (p i : Nat) : (s.raise p i).buses = s.buses :=
  (fr_State_raise (F := 549755969544) rfl (frm_refl (b := s))).buses.resolve_left (by decide)
@[simp] theorem raise_gwe (s : State) (p i : Nat) : (s.raise p i).gwe = s.gwe :=
  (fr_State_raise (F := 549755969544) rfl (frm_refl (b := s))).gwe.resolve_left (by decide)
@[simp] theorem raise_cipher (s : State) (p i : Nat) : (s.raise p i).cipher = s.cipher :=
  (fr_State_raise (F := 549755969544) rfl (frm_refl (b := s))).cipher.resolve_left (by decide)
@[simp] theorem raise_keys (s : State) (p i : Nat) : (s.raise p i).keys = s.keys :=
  (fr_State_raise (F := 549755969544) rfl (frm_refl (b := s))).keys.resolve_left (by decide)
@[simp] theorem raise_twin (s : State) (p i : Nat) : (s.raise p i).twin = s.twin :=
  (fr_State_raise (F := 549755969544) rfl (frm_refl (b := s))).twin.resolve_left (by decide)
@[simp] theorem raise_sl (s : State) (p i : Nat) : (s.raise p i).sl = s.sl :=
  (fr_State_raise (F := 549755969544) rfl (frm_refl (b := s))).sl.resolve_left (by decide)
@[simp] theorem raise_faults (s : State) (p i : Nat) : (s.raise p i).faults = s.faults :=
  (fr_State_raise (F := 549755969544) rfl (frm_refl (b := s))).faults.resolve_left (by decide)
@[simp] theorem raise_upd (s : State) (p i : Nat) : (s.raise p i).upd = s.upd :=
  (fr_State_raise (F := 549755969544) rfl (frm_refl (b := s))).upd.resolve_left (by decide)
@[simp] theorem raise_nvm (s : State) (p i : Nat) : (s.raise p i).nvm = s.nvm :=
  (fr_State_raise (F := 549755969544) rfl (frm_refl (b := s))).nvm.resolve_left (by decide)
@[simp] theorem raise_free (s : State) (p i : Nat) : (s.raise p i).free = s.free :=
  (fr_State_raise (F := 549755969544) rfl (frm_refl (b := s))).free.resolve_left (by decide)

/-! ### `sendVec` -/

@[simp] theorem sendVec_pending (s : State) (h : HostPort) (v : Nat) : (s.sendVec h v).pending = s.pending :=
  (fr_State_sendVec (F := 549755838464) rfl (frm_refl (b := s))).pending.resolve_left (by decide)
@[simp] theorem sendVec_cclk (s : State) (h : HostPort) (v : Nat) : (s.sendVec h v).cclk = s.cclk :=
  (fr_State_sendVec (F := 549755838464) rfl (frm_refl (b := s))).cclk.resolve_left (by decide)
@[simp] theorem sendVec_mode (s : State) (h : HostPort) (v : Nat) : (s.sendVec h v).mode = s.mode :=
  (fr_State_sendVec (F := 549755838464) rfl (frm_refl (b := s))).mode.resolve_left (by decide)
@[simp] theorem sendVec_regs (s : State) (h : HostPort) (v : Nat) : (s.sendVec h v).regs = s.regs :=
  (fr_State_sendVec (F := 549755838464) rfl (frm_refl (b := s))).regs.resolve_left (by decide)
@[simp] theorem sendVec_latched (s : State) (h : HostPort) (v : Nat) : (s.sendVec h v).latched = s.latched :=
  (fr_State_sendVec (F := 549755838464) rfl (frm_refl (b := s))).latched.resolve_left (by decide)
@[simp] theorem sendVec_held (s : State) (h : HostPort) (v : Nat) : (s.sendVec h v).held = s.held :=
  (fr_State_sendVec (F := 549755838464) rfl (frm_refl (b := s))).held.resolve_left (by decide)
@[simp] theorem sendVec_ctrlLockA (s : State) (h : HostPort) (v : Nat) : (s.sendVec h v).ctrlLockA = s.ctrlLockA :=
  (fr_State_sendVec (F := 549755838464) rfl (frm_refl (b := s))).ctrlLockA.resolve_left (by decide)
@[simp] theorem sendVec_ctrlLockB (s : State) (h : HostPort) (v : Nat) : (s.sendVec h v).ctrlLockB = s.ctrlLockB :=
  (fr_State_sendVec (F := 549755838464) rfl (frm_refl (b := s))).ctrlLockB.resolve_left (by decide)
@[simp] theorem sendVec_shadows (s : State) (h : HostPort) (v : Nat) : (s.sendVec h v).shadows = s.shadows :=
  (fr_State_sendVec (F := 549755838464) rfl (frm_refl (b := s))).shadows.resolve_left (by decide)
@[simp] theorem sendVec_commits (s : State) (h : HostPort) (v : Nat) : (s.sendVec h v).commits = s.commits :=
  (fr_State_sendVec (F := 549755838464) rfl (frm_refl (b := s))).commits.resolve_left (by decide)
@[simp] theorem sendVec_partNo (s : State) (h : HostPort) (v : Nat) : (s.sendVec h v).partNo = s.partNo :=
  (fr_State_sendVec (F := 549755838464) rfl (frm_refl (b := s))).partNo.resolve_left (by decide)
@[simp] theorem sendVec_hist (s : State) (h : HostPort) (v : Nat) : (s.sendVec h v).hist = s.hist :=
  (fr_State_sendVec (F := 549755838464) rfl (frm_refl (b := s))).hist.resolve_left (by decide)
@[simp] theorem sendVec_rings (s : State) (h : HostPort) (v : Nat) : (s.sendVec h v).rings = s.rings :=
  (fr_State_sendVec (F := 549755838464) rfl (frm_refl (b := s))).rings.resolve_left (by decide)
@[simp] theorem sendVec_mbx (s : State) (h : HostPort) (v : Nat) : (s.sendVec h v).mbx = s.mbx :=
  (fr_State_sendVec (F := 549755838464) rfl (frm_refl (b := s))).mbx.resolve_left (by decide)
@[simp] theorem sendVec_silt (s : State) (h : HostPort) (v : Nat) : (s.sendVec h v).silt = s.silt :=
  (fr_State_sendVec (F := 549755838464) rfl (frm_refl (b := s))).silt.resolve_left (by decide)
@[simp] theorem sendVec_msgPages (s : State) (h : HostPort) (v : Nat) : (s.sendVec h v).msgPages = s.msgPages :=
  (fr_State_sendVec (F := 549755838464) rfl (frm_refl (b := s))).msgPages.resolve_left (by decide)
@[simp] theorem sendVec_pb (s : State) (h : HostPort) (v : Nat) : (s.sendVec h v).pb = s.pb :=
  (fr_State_sendVec (F := 549755838464) rfl (frm_refl (b := s))).pb.resolve_left (by decide)
@[simp] theorem sendVec_gpio (s : State) (h : HostPort) (v : Nat) : (s.sendVec h v).gpio = s.gpio :=
  (fr_State_sendVec (F := 549755838464) rfl (frm_refl (b := s))).gpio.resolve_left (by decide)
@[simp] theorem sendVec_ports (s : State) (h : HostPort) (v : Nat) : (s.sendVec h v).ports = s.ports :=
  (fr_State_sendVec (F := 549755838464) rfl (frm_refl (b := s))).ports.resolve_left (by decide)
@[simp] theorem sendVec_ptp (s : State) (h : HostPort) (v : Nat) : (s.sendVec h v).ptp = s.ptp :=
  (fr_State_sendVec (F := 549755838464) rfl (frm_refl (b := s))).ptp.resolve_left (by decide)
@[simp] theorem sendVec_power (s : State) (h : HostPort) (v : Nat) : (s.sendVec h v).power = s.power :=
  (fr_State_sendVec (F := 549755838464) rfl (frm_refl (b := s))).power.resolve_left (by decide)
@[simp] theorem sendVec_prs (s : State) (h : HostPort) (v : Nat) : (s.sendVec h v).prs = s.prs :=
  (fr_State_sendVec (F := 549755838464) rfl (frm_refl (b := s))).prs.resolve_left (by decide)
@[simp] theorem sendVec_tables (s : State) (h : HostPort) (v : Nat) : (s.sendVec h v).tables = s.tables :=
  (fr_State_sendVec (F := 549755838464) rfl (frm_refl (b := s))).tables.resolve_left (by decide)
@[simp] theorem sendVec_policing (s : State) (h : HostPort) (v : Nat) : (s.sendVec h v).policing = s.policing :=
  (fr_State_sendVec (F := 549755838464) rfl (frm_refl (b := s))).policing.resolve_left (by decide)
@[simp] theorem sendVec_frames (s : State) (h : HostPort) (v : Nat) : (s.sendVec h v).frames = s.frames :=
  (fr_State_sendVec (F := 549755838464) rfl (frm_refl (b := s))).frames.resolve_left (by decide)
@[simp] theorem sendVec_nextFrame (s : State) (h : HostPort) (v : Nat) : (s.sendVec h v).nextFrame = s.nextFrame :=
  (fr_State_sendVec (F := 549755838464) rfl (frm_refl (b := s))).nextFrame.resolve_left (by decide)
@[simp] theorem sendVec_fab (s : State) (h : HostPort) (v : Nat) : (s.sendVec h v).fab = s.fab :=
  (fr_State_sendVec (F := 549755838464) rfl (frm_refl (b := s))).fab.resolve_left (by decide)
@[simp] theorem sendVec_egress (s : State) (h : HostPort) (v : Nat) : (s.sendVec h v).egress = s.egress :=
  (fr_State_sendVec (F := 549755838464) rfl (frm_refl (b := s))).egress.resolve_left (by decide)
@[simp] theorem sendVec_buses (s : State) (h : HostPort) (v : Nat) : (s.sendVec h v).buses = s.buses :=
  (fr_State_sendVec (F := 549755838464) rfl (frm_refl (b := s))).buses.resolve_left (by decide)
@[simp] theorem sendVec_gwe (s : State) (h : HostPort) (v : Nat) : (s.sendVec h v).gwe = s.gwe :=
  (fr_State_sendVec (F := 549755838464) rfl (frm_refl (b := s))).gwe.resolve_left (by decide)
@[simp] theorem sendVec_cipher (s : State) (h : HostPort) (v : Nat) : (s.sendVec h v).cipher = s.cipher :=
  (fr_State_sendVec (F := 549755838464) rfl (frm_refl (b := s))).cipher.resolve_left (by decide)
@[simp] theorem sendVec_keys (s : State) (h : HostPort) (v : Nat) : (s.sendVec h v).keys = s.keys :=
  (fr_State_sendVec (F := 549755838464) rfl (frm_refl (b := s))).keys.resolve_left (by decide)
@[simp] theorem sendVec_twin (s : State) (h : HostPort) (v : Nat) : (s.sendVec h v).twin = s.twin :=
  (fr_State_sendVec (F := 549755838464) rfl (frm_refl (b := s))).twin.resolve_left (by decide)
@[simp] theorem sendVec_sl (s : State) (h : HostPort) (v : Nat) : (s.sendVec h v).sl = s.sl :=
  (fr_State_sendVec (F := 549755838464) rfl (frm_refl (b := s))).sl.resolve_left (by decide)
@[simp] theorem sendVec_faults (s : State) (h : HostPort) (v : Nat) : (s.sendVec h v).faults = s.faults :=
  (fr_State_sendVec (F := 549755838464) rfl (frm_refl (b := s))).faults.resolve_left (by decide)
@[simp] theorem sendVec_upd (s : State) (h : HostPort) (v : Nat) : (s.sendVec h v).upd = s.upd :=
  (fr_State_sendVec (F := 549755838464) rfl (frm_refl (b := s))).upd.resolve_left (by decide)
@[simp] theorem sendVec_nvm (s : State) (h : HostPort) (v : Nat) : (s.sendVec h v).nvm = s.nvm :=
  (fr_State_sendVec (F := 549755838464) rfl (frm_refl (b := s))).nvm.resolve_left (by decide)
@[simp] theorem sendVec_free (s : State) (h : HostPort) (v : Nat) : (s.sendVec h v).free = s.free :=
  (fr_State_sendVec (F := 549755838464) rfl (frm_refl (b := s))).free.resolve_left (by decide)

/-! ### `siltRefused` -/

@[simp] theorem siltRefused_pending (s : State) : (s.siltRefused).pending = s.pending :=
  (fr_State_siltRefused (F := 549755969544) rfl (frm_refl (b := s))).pending.resolve_left (by decide)
@[simp] theorem siltRefused_cclk (s : State) : (s.siltRefused).cclk = s.cclk :=
  (fr_State_siltRefused (F := 549755969544) rfl (frm_refl (b := s))).cclk.resolve_left (by decide)
@[simp] theorem siltRefused_mode (s : State) : (s.siltRefused).mode = s.mode :=
  (fr_State_siltRefused (F := 549755969544) rfl (frm_refl (b := s))).mode.resolve_left (by decide)
@[simp] theorem siltRefused_latched (s : State) : (s.siltRefused).latched = s.latched :=
  (fr_State_siltRefused (F := 549755969544) rfl (frm_refl (b := s))).latched.resolve_left (by decide)
@[simp] theorem siltRefused_held (s : State) : (s.siltRefused).held = s.held :=
  (fr_State_siltRefused (F := 549755969544) rfl (frm_refl (b := s))).held.resolve_left (by decide)
@[simp] theorem siltRefused_ctrlLockA (s : State) : (s.siltRefused).ctrlLockA = s.ctrlLockA :=
  (fr_State_siltRefused (F := 549755969544) rfl (frm_refl (b := s))).ctrlLockA.resolve_left (by decide)
@[simp] theorem siltRefused_ctrlLockB (s : State) : (s.siltRefused).ctrlLockB = s.ctrlLockB :=
  (fr_State_siltRefused (F := 549755969544) rfl (frm_refl (b := s))).ctrlLockB.resolve_left (by decide)
@[simp] theorem siltRefused_shadows (s : State) : (s.siltRefused).shadows = s.shadows :=
  (fr_State_siltRefused (F := 549755969544) rfl (frm_refl (b := s))).shadows.resolve_left (by decide)
@[simp] theorem siltRefused_commits (s : State) : (s.siltRefused).commits = s.commits :=
  (fr_State_siltRefused (F := 549755969544) rfl (frm_refl (b := s))).commits.resolve_left (by decide)
@[simp] theorem siltRefused_partNo (s : State) : (s.siltRefused).partNo = s.partNo :=
  (fr_State_siltRefused (F := 549755969544) rfl (frm_refl (b := s))).partNo.resolve_left (by decide)
@[simp] theorem siltRefused_hist (s : State) : (s.siltRefused).hist = s.hist :=
  (fr_State_siltRefused (F := 549755969544) rfl (frm_refl (b := s))).hist.resolve_left (by decide)
@[simp] theorem siltRefused_rings (s : State) : (s.siltRefused).rings = s.rings :=
  (fr_State_siltRefused (F := 549755969544) rfl (frm_refl (b := s))).rings.resolve_left (by decide)
@[simp] theorem siltRefused_mbx (s : State) : (s.siltRefused).mbx = s.mbx :=
  (fr_State_siltRefused (F := 549755969544) rfl (frm_refl (b := s))).mbx.resolve_left (by decide)
@[simp] theorem siltRefused_silt (s : State) : (s.siltRefused).silt = s.silt :=
  (fr_State_siltRefused (F := 549755969544) rfl (frm_refl (b := s))).silt.resolve_left (by decide)
@[simp] theorem siltRefused_pb (s : State) : (s.siltRefused).pb = s.pb :=
  (fr_State_siltRefused (F := 549755969544) rfl (frm_refl (b := s))).pb.resolve_left (by decide)
@[simp] theorem siltRefused_gpio (s : State) : (s.siltRefused).gpio = s.gpio :=
  (fr_State_siltRefused (F := 549755969544) rfl (frm_refl (b := s))).gpio.resolve_left (by decide)
@[simp] theorem siltRefused_ports (s : State) : (s.siltRefused).ports = s.ports :=
  (fr_State_siltRefused (F := 549755969544) rfl (frm_refl (b := s))).ports.resolve_left (by decide)
@[simp] theorem siltRefused_ptp (s : State) : (s.siltRefused).ptp = s.ptp :=
  (fr_State_siltRefused (F := 549755969544) rfl (frm_refl (b := s))).ptp.resolve_left (by decide)
@[simp] theorem siltRefused_power (s : State) : (s.siltRefused).power = s.power :=
  (fr_State_siltRefused (F := 549755969544) rfl (frm_refl (b := s))).power.resolve_left (by decide)
@[simp] theorem siltRefused_prs (s : State) : (s.siltRefused).prs = s.prs :=
  (fr_State_siltRefused (F := 549755969544) rfl (frm_refl (b := s))).prs.resolve_left (by decide)
@[simp] theorem siltRefused_tables (s : State) : (s.siltRefused).tables = s.tables :=
  (fr_State_siltRefused (F := 549755969544) rfl (frm_refl (b := s))).tables.resolve_left (by decide)
@[simp] theorem siltRefused_policing (s : State) : (s.siltRefused).policing = s.policing :=
  (fr_State_siltRefused (F := 549755969544) rfl (frm_refl (b := s))).policing.resolve_left (by decide)
@[simp] theorem siltRefused_frames (s : State) : (s.siltRefused).frames = s.frames :=
  (fr_State_siltRefused (F := 549755969544) rfl (frm_refl (b := s))).frames.resolve_left (by decide)
@[simp] theorem siltRefused_nextFrame (s : State) : (s.siltRefused).nextFrame = s.nextFrame :=
  (fr_State_siltRefused (F := 549755969544) rfl (frm_refl (b := s))).nextFrame.resolve_left (by decide)
@[simp] theorem siltRefused_fab (s : State) : (s.siltRefused).fab = s.fab :=
  (fr_State_siltRefused (F := 549755969544) rfl (frm_refl (b := s))).fab.resolve_left (by decide)
@[simp] theorem siltRefused_egress (s : State) : (s.siltRefused).egress = s.egress :=
  (fr_State_siltRefused (F := 549755969544) rfl (frm_refl (b := s))).egress.resolve_left (by decide)
@[simp] theorem siltRefused_buses (s : State) : (s.siltRefused).buses = s.buses :=
  (fr_State_siltRefused (F := 549755969544) rfl (frm_refl (b := s))).buses.resolve_left (by decide)
@[simp] theorem siltRefused_gwe (s : State) : (s.siltRefused).gwe = s.gwe :=
  (fr_State_siltRefused (F := 549755969544) rfl (frm_refl (b := s))).gwe.resolve_left (by decide)
@[simp] theorem siltRefused_cipher (s : State) : (s.siltRefused).cipher = s.cipher :=
  (fr_State_siltRefused (F := 549755969544) rfl (frm_refl (b := s))).cipher.resolve_left (by decide)
@[simp] theorem siltRefused_keys (s : State) : (s.siltRefused).keys = s.keys :=
  (fr_State_siltRefused (F := 549755969544) rfl (frm_refl (b := s))).keys.resolve_left (by decide)
@[simp] theorem siltRefused_twin (s : State) : (s.siltRefused).twin = s.twin :=
  (fr_State_siltRefused (F := 549755969544) rfl (frm_refl (b := s))).twin.resolve_left (by decide)
@[simp] theorem siltRefused_sl (s : State) : (s.siltRefused).sl = s.sl :=
  (fr_State_siltRefused (F := 549755969544) rfl (frm_refl (b := s))).sl.resolve_left (by decide)
@[simp] theorem siltRefused_faults (s : State) : (s.siltRefused).faults = s.faults :=
  (fr_State_siltRefused (F := 549755969544) rfl (frm_refl (b := s))).faults.resolve_left (by decide)
@[simp] theorem siltRefused_upd (s : State) : (s.siltRefused).upd = s.upd :=
  (fr_State_siltRefused (F := 549755969544) rfl (frm_refl (b := s))).upd.resolve_left (by decide)
@[simp] theorem siltRefused_nvm (s : State) : (s.siltRefused).nvm = s.nvm :=
  (fr_State_siltRefused (F := 549755969544) rfl (frm_refl (b := s))).nvm.resolve_left (by decide)
@[simp] theorem siltRefused_free (s : State) : (s.siltRefused).free = s.free :=
  (fr_State_siltRefused (F := 549755969544) rfl (frm_refl (b := s))).free.resolve_left (by decide)

/-! ### `refuse` -/

@[simp] theorem refuse_pending (s : State) (p : Nat) (r : Refused) (w : Who) (a : Nat) : (s.refuse p r w a).pending = s.pending :=
  (fr_State_refuse (F := 549755969544) rfl (frm_refl (b := s))).pending.resolve_left (by decide)
@[simp] theorem refuse_cclk (s : State) (p : Nat) (r : Refused) (w : Who) (a : Nat) : (s.refuse p r w a).cclk = s.cclk :=
  (fr_State_refuse (F := 549755969544) rfl (frm_refl (b := s))).cclk.resolve_left (by decide)
@[simp] theorem refuse_mode (s : State) (p : Nat) (r : Refused) (w : Who) (a : Nat) : (s.refuse p r w a).mode = s.mode :=
  (fr_State_refuse (F := 549755969544) rfl (frm_refl (b := s))).mode.resolve_left (by decide)
@[simp] theorem refuse_latched (s : State) (p : Nat) (r : Refused) (w : Who) (a : Nat) : (s.refuse p r w a).latched = s.latched :=
  (fr_State_refuse (F := 549755969544) rfl (frm_refl (b := s))).latched.resolve_left (by decide)
@[simp] theorem refuse_held (s : State) (p : Nat) (r : Refused) (w : Who) (a : Nat) : (s.refuse p r w a).held = s.held :=
  (fr_State_refuse (F := 549755969544) rfl (frm_refl (b := s))).held.resolve_left (by decide)
@[simp] theorem refuse_ctrlLockA (s : State) (p : Nat) (r : Refused) (w : Who) (a : Nat) : (s.refuse p r w a).ctrlLockA = s.ctrlLockA :=
  (fr_State_refuse (F := 549755969544) rfl (frm_refl (b := s))).ctrlLockA.resolve_left (by decide)
@[simp] theorem refuse_ctrlLockB (s : State) (p : Nat) (r : Refused) (w : Who) (a : Nat) : (s.refuse p r w a).ctrlLockB = s.ctrlLockB :=
  (fr_State_refuse (F := 549755969544) rfl (frm_refl (b := s))).ctrlLockB.resolve_left (by decide)
@[simp] theorem refuse_shadows (s : State) (p : Nat) (r : Refused) (w : Who) (a : Nat) : (s.refuse p r w a).shadows = s.shadows :=
  (fr_State_refuse (F := 549755969544) rfl (frm_refl (b := s))).shadows.resolve_left (by decide)
@[simp] theorem refuse_commits (s : State) (p : Nat) (r : Refused) (w : Who) (a : Nat) : (s.refuse p r w a).commits = s.commits :=
  (fr_State_refuse (F := 549755969544) rfl (frm_refl (b := s))).commits.resolve_left (by decide)
@[simp] theorem refuse_partNo (s : State) (p : Nat) (r : Refused) (w : Who) (a : Nat) : (s.refuse p r w a).partNo = s.partNo :=
  (fr_State_refuse (F := 549755969544) rfl (frm_refl (b := s))).partNo.resolve_left (by decide)
@[simp] theorem refuse_hist (s : State) (p : Nat) (r : Refused) (w : Who) (a : Nat) : (s.refuse p r w a).hist = s.hist :=
  (fr_State_refuse (F := 549755969544) rfl (frm_refl (b := s))).hist.resolve_left (by decide)
@[simp] theorem refuse_rings (s : State) (p : Nat) (r : Refused) (w : Who) (a : Nat) : (s.refuse p r w a).rings = s.rings :=
  (fr_State_refuse (F := 549755969544) rfl (frm_refl (b := s))).rings.resolve_left (by decide)
@[simp] theorem refuse_mbx (s : State) (p : Nat) (r : Refused) (w : Who) (a : Nat) : (s.refuse p r w a).mbx = s.mbx :=
  (fr_State_refuse (F := 549755969544) rfl (frm_refl (b := s))).mbx.resolve_left (by decide)
@[simp] theorem refuse_silt (s : State) (p : Nat) (r : Refused) (w : Who) (a : Nat) : (s.refuse p r w a).silt = s.silt :=
  (fr_State_refuse (F := 549755969544) rfl (frm_refl (b := s))).silt.resolve_left (by decide)
@[simp] theorem refuse_pb (s : State) (p : Nat) (r : Refused) (w : Who) (a : Nat) : (s.refuse p r w a).pb = s.pb :=
  (fr_State_refuse (F := 549755969544) rfl (frm_refl (b := s))).pb.resolve_left (by decide)
@[simp] theorem refuse_gpio (s : State) (p : Nat) (r : Refused) (w : Who) (a : Nat) : (s.refuse p r w a).gpio = s.gpio :=
  (fr_State_refuse (F := 549755969544) rfl (frm_refl (b := s))).gpio.resolve_left (by decide)
@[simp] theorem refuse_ports (s : State) (p : Nat) (r : Refused) (w : Who) (a : Nat) : (s.refuse p r w a).ports = s.ports :=
  (fr_State_refuse (F := 549755969544) rfl (frm_refl (b := s))).ports.resolve_left (by decide)
@[simp] theorem refuse_ptp (s : State) (p : Nat) (r : Refused) (w : Who) (a : Nat) : (s.refuse p r w a).ptp = s.ptp :=
  (fr_State_refuse (F := 549755969544) rfl (frm_refl (b := s))).ptp.resolve_left (by decide)
@[simp] theorem refuse_power (s : State) (p : Nat) (r : Refused) (w : Who) (a : Nat) : (s.refuse p r w a).power = s.power :=
  (fr_State_refuse (F := 549755969544) rfl (frm_refl (b := s))).power.resolve_left (by decide)
@[simp] theorem refuse_prs (s : State) (p : Nat) (r : Refused) (w : Who) (a : Nat) : (s.refuse p r w a).prs = s.prs :=
  (fr_State_refuse (F := 549755969544) rfl (frm_refl (b := s))).prs.resolve_left (by decide)
@[simp] theorem refuse_tables (s : State) (p : Nat) (r : Refused) (w : Who) (a : Nat) : (s.refuse p r w a).tables = s.tables :=
  (fr_State_refuse (F := 549755969544) rfl (frm_refl (b := s))).tables.resolve_left (by decide)
@[simp] theorem refuse_policing (s : State) (p : Nat) (r : Refused) (w : Who) (a : Nat) : (s.refuse p r w a).policing = s.policing :=
  (fr_State_refuse (F := 549755969544) rfl (frm_refl (b := s))).policing.resolve_left (by decide)
@[simp] theorem refuse_frames (s : State) (p : Nat) (r : Refused) (w : Who) (a : Nat) : (s.refuse p r w a).frames = s.frames :=
  (fr_State_refuse (F := 549755969544) rfl (frm_refl (b := s))).frames.resolve_left (by decide)
@[simp] theorem refuse_nextFrame (s : State) (p : Nat) (r : Refused) (w : Who) (a : Nat) : (s.refuse p r w a).nextFrame = s.nextFrame :=
  (fr_State_refuse (F := 549755969544) rfl (frm_refl (b := s))).nextFrame.resolve_left (by decide)
@[simp] theorem refuse_fab (s : State) (p : Nat) (r : Refused) (w : Who) (a : Nat) : (s.refuse p r w a).fab = s.fab :=
  (fr_State_refuse (F := 549755969544) rfl (frm_refl (b := s))).fab.resolve_left (by decide)
@[simp] theorem refuse_egress (s : State) (p : Nat) (r : Refused) (w : Who) (a : Nat) : (s.refuse p r w a).egress = s.egress :=
  (fr_State_refuse (F := 549755969544) rfl (frm_refl (b := s))).egress.resolve_left (by decide)
@[simp] theorem refuse_buses (s : State) (p : Nat) (r : Refused) (w : Who) (a : Nat) : (s.refuse p r w a).buses = s.buses :=
  (fr_State_refuse (F := 549755969544) rfl (frm_refl (b := s))).buses.resolve_left (by decide)
@[simp] theorem refuse_gwe (s : State) (p : Nat) (r : Refused) (w : Who) (a : Nat) : (s.refuse p r w a).gwe = s.gwe :=
  (fr_State_refuse (F := 549755969544) rfl (frm_refl (b := s))).gwe.resolve_left (by decide)
@[simp] theorem refuse_cipher (s : State) (p : Nat) (r : Refused) (w : Who) (a : Nat) : (s.refuse p r w a).cipher = s.cipher :=
  (fr_State_refuse (F := 549755969544) rfl (frm_refl (b := s))).cipher.resolve_left (by decide)
@[simp] theorem refuse_keys (s : State) (p : Nat) (r : Refused) (w : Who) (a : Nat) : (s.refuse p r w a).keys = s.keys :=
  (fr_State_refuse (F := 549755969544) rfl (frm_refl (b := s))).keys.resolve_left (by decide)
@[simp] theorem refuse_twin (s : State) (p : Nat) (r : Refused) (w : Who) (a : Nat) : (s.refuse p r w a).twin = s.twin :=
  (fr_State_refuse (F := 549755969544) rfl (frm_refl (b := s))).twin.resolve_left (by decide)
@[simp] theorem refuse_sl (s : State) (p : Nat) (r : Refused) (w : Who) (a : Nat) : (s.refuse p r w a).sl = s.sl :=
  (fr_State_refuse (F := 549755969544) rfl (frm_refl (b := s))).sl.resolve_left (by decide)
@[simp] theorem refuse_faults (s : State) (p : Nat) (r : Refused) (w : Who) (a : Nat) : (s.refuse p r w a).faults = s.faults :=
  (fr_State_refuse (F := 549755969544) rfl (frm_refl (b := s))).faults.resolve_left (by decide)
@[simp] theorem refuse_upd (s : State) (p : Nat) (r : Refused) (w : Who) (a : Nat) : (s.refuse p r w a).upd = s.upd :=
  (fr_State_refuse (F := 549755969544) rfl (frm_refl (b := s))).upd.resolve_left (by decide)
@[simp] theorem refuse_nvm (s : State) (p : Nat) (r : Refused) (w : Who) (a : Nat) : (s.refuse p r w a).nvm = s.nvm :=
  (fr_State_refuse (F := 549755969544) rfl (frm_refl (b := s))).nvm.resolve_left (by decide)
@[simp] theorem refuse_free (s : State) (p : Nat) (r : Refused) (w : Who) (a : Nat) : (s.refuse p r w a).free = s.free :=
  (fr_State_refuse (F := 549755969544) rfl (frm_refl (b := s))).free.resolve_left (by decide)

/-! ### `silt_` -/

@[simp] theorem silt__pending (s : State) (o n : Word) (g k u a : Nat) : (s.silt_ o n g k u a).pending = s.pending :=
  (fr_State_silt_ (F := 549756035080) rfl (frm_refl (b := s))).pending.resolve_left (by decide)
@[simp] theorem silt__cclk (s : State) (o n : Word) (g k u a : Nat) : (s.silt_ o n g k u a).cclk = s.cclk :=
  (fr_State_silt_ (F := 549756035080) rfl (frm_refl (b := s))).cclk.resolve_left (by decide)
@[simp] theorem silt__mode (s : State) (o n : Word) (g k u a : Nat) : (s.silt_ o n g k u a).mode = s.mode :=
  (fr_State_silt_ (F := 549756035080) rfl (frm_refl (b := s))).mode.resolve_left (by decide)
@[simp] theorem silt__latched (s : State) (o n : Word) (g k u a : Nat) : (s.silt_ o n g k u a).latched = s.latched :=
  (fr_State_silt_ (F := 549756035080) rfl (frm_refl (b := s))).latched.resolve_left (by decide)
@[simp] theorem silt__held (s : State) (o n : Word) (g k u a : Nat) : (s.silt_ o n g k u a).held = s.held :=
  (fr_State_silt_ (F := 549756035080) rfl (frm_refl (b := s))).held.resolve_left (by decide)
@[simp] theorem silt__ctrlLockA (s : State) (o n : Word) (g k u a : Nat) : (s.silt_ o n g k u a).ctrlLockA = s.ctrlLockA :=
  (fr_State_silt_ (F := 549756035080) rfl (frm_refl (b := s))).ctrlLockA.resolve_left (by decide)
@[simp] theorem silt__ctrlLockB (s : State) (o n : Word) (g k u a : Nat) : (s.silt_ o n g k u a).ctrlLockB = s.ctrlLockB :=
  (fr_State_silt_ (F := 549756035080) rfl (frm_refl (b := s))).ctrlLockB.resolve_left (by decide)
@[simp] theorem silt__shadows (s : State) (o n : Word) (g k u a : Nat) : (s.silt_ o n g k u a).shadows = s.shadows :=
  (fr_State_silt_ (F := 549756035080) rfl (frm_refl (b := s))).shadows.resolve_left (by decide)
@[simp] theorem silt__commits (s : State) (o n : Word) (g k u a : Nat) : (s.silt_ o n g k u a).commits = s.commits :=
  (fr_State_silt_ (F := 549756035080) rfl (frm_refl (b := s))).commits.resolve_left (by decide)
@[simp] theorem silt__partNo (s : State) (o n : Word) (g k u a : Nat) : (s.silt_ o n g k u a).partNo = s.partNo :=
  (fr_State_silt_ (F := 549756035080) rfl (frm_refl (b := s))).partNo.resolve_left (by decide)
@[simp] theorem silt__hist (s : State) (o n : Word) (g k u a : Nat) : (s.silt_ o n g k u a).hist = s.hist :=
  (fr_State_silt_ (F := 549756035080) rfl (frm_refl (b := s))).hist.resolve_left (by decide)
@[simp] theorem silt__rings (s : State) (o n : Word) (g k u a : Nat) : (s.silt_ o n g k u a).rings = s.rings :=
  (fr_State_silt_ (F := 549756035080) rfl (frm_refl (b := s))).rings.resolve_left (by decide)
@[simp] theorem silt__mbx (s : State) (o n : Word) (g k u a : Nat) : (s.silt_ o n g k u a).mbx = s.mbx :=
  (fr_State_silt_ (F := 549756035080) rfl (frm_refl (b := s))).mbx.resolve_left (by decide)
@[simp] theorem silt__pb (s : State) (o n : Word) (g k u a : Nat) : (s.silt_ o n g k u a).pb = s.pb :=
  (fr_State_silt_ (F := 549756035080) rfl (frm_refl (b := s))).pb.resolve_left (by decide)
@[simp] theorem silt__gpio (s : State) (o n : Word) (g k u a : Nat) : (s.silt_ o n g k u a).gpio = s.gpio :=
  (fr_State_silt_ (F := 549756035080) rfl (frm_refl (b := s))).gpio.resolve_left (by decide)
@[simp] theorem silt__ports (s : State) (o n : Word) (g k u a : Nat) : (s.silt_ o n g k u a).ports = s.ports :=
  (fr_State_silt_ (F := 549756035080) rfl (frm_refl (b := s))).ports.resolve_left (by decide)
@[simp] theorem silt__ptp (s : State) (o n : Word) (g k u a : Nat) : (s.silt_ o n g k u a).ptp = s.ptp :=
  (fr_State_silt_ (F := 549756035080) rfl (frm_refl (b := s))).ptp.resolve_left (by decide)
@[simp] theorem silt__power (s : State) (o n : Word) (g k u a : Nat) : (s.silt_ o n g k u a).power = s.power :=
  (fr_State_silt_ (F := 549756035080) rfl (frm_refl (b := s))).power.resolve_left (by decide)
@[simp] theorem silt__prs (s : State) (o n : Word) (g k u a : Nat) : (s.silt_ o n g k u a).prs = s.prs :=
  (fr_State_silt_ (F := 549756035080) rfl (frm_refl (b := s))).prs.resolve_left (by decide)
@[simp] theorem silt__tables (s : State) (o n : Word) (g k u a : Nat) : (s.silt_ o n g k u a).tables = s.tables :=
  (fr_State_silt_ (F := 549756035080) rfl (frm_refl (b := s))).tables.resolve_left (by decide)
@[simp] theorem silt__policing (s : State) (o n : Word) (g k u a : Nat) : (s.silt_ o n g k u a).policing = s.policing :=
  (fr_State_silt_ (F := 549756035080) rfl (frm_refl (b := s))).policing.resolve_left (by decide)
@[simp] theorem silt__frames (s : State) (o n : Word) (g k u a : Nat) : (s.silt_ o n g k u a).frames = s.frames :=
  (fr_State_silt_ (F := 549756035080) rfl (frm_refl (b := s))).frames.resolve_left (by decide)
@[simp] theorem silt__nextFrame (s : State) (o n : Word) (g k u a : Nat) : (s.silt_ o n g k u a).nextFrame = s.nextFrame :=
  (fr_State_silt_ (F := 549756035080) rfl (frm_refl (b := s))).nextFrame.resolve_left (by decide)
@[simp] theorem silt__fab (s : State) (o n : Word) (g k u a : Nat) : (s.silt_ o n g k u a).fab = s.fab :=
  (fr_State_silt_ (F := 549756035080) rfl (frm_refl (b := s))).fab.resolve_left (by decide)
@[simp] theorem silt__egress (s : State) (o n : Word) (g k u a : Nat) : (s.silt_ o n g k u a).egress = s.egress :=
  (fr_State_silt_ (F := 549756035080) rfl (frm_refl (b := s))).egress.resolve_left (by decide)
@[simp] theorem silt__buses (s : State) (o n : Word) (g k u a : Nat) : (s.silt_ o n g k u a).buses = s.buses :=
  (fr_State_silt_ (F := 549756035080) rfl (frm_refl (b := s))).buses.resolve_left (by decide)
@[simp] theorem silt__gwe (s : State) (o n : Word) (g k u a : Nat) : (s.silt_ o n g k u a).gwe = s.gwe :=
  (fr_State_silt_ (F := 549756035080) rfl (frm_refl (b := s))).gwe.resolve_left (by decide)
@[simp] theorem silt__cipher (s : State) (o n : Word) (g k u a : Nat) : (s.silt_ o n g k u a).cipher = s.cipher :=
  (fr_State_silt_ (F := 549756035080) rfl (frm_refl (b := s))).cipher.resolve_left (by decide)
@[simp] theorem silt__keys (s : State) (o n : Word) (g k u a : Nat) : (s.silt_ o n g k u a).keys = s.keys :=
  (fr_State_silt_ (F := 549756035080) rfl (frm_refl (b := s))).keys.resolve_left (by decide)
@[simp] theorem silt__twin (s : State) (o n : Word) (g k u a : Nat) : (s.silt_ o n g k u a).twin = s.twin :=
  (fr_State_silt_ (F := 549756035080) rfl (frm_refl (b := s))).twin.resolve_left (by decide)
@[simp] theorem silt__sl (s : State) (o n : Word) (g k u a : Nat) : (s.silt_ o n g k u a).sl = s.sl :=
  (fr_State_silt_ (F := 549756035080) rfl (frm_refl (b := s))).sl.resolve_left (by decide)
@[simp] theorem silt__faults (s : State) (o n : Word) (g k u a : Nat) : (s.silt_ o n g k u a).faults = s.faults :=
  (fr_State_silt_ (F := 549756035080) rfl (frm_refl (b := s))).faults.resolve_left (by decide)
@[simp] theorem silt__upd (s : State) (o n : Word) (g k u a : Nat) : (s.silt_ o n g k u a).upd = s.upd :=
  (fr_State_silt_ (F := 549756035080) rfl (frm_refl (b := s))).upd.resolve_left (by decide)
@[simp] theorem silt__nvm (s : State) (o n : Word) (g k u a : Nat) : (s.silt_ o n g k u a).nvm = s.nvm :=
  (fr_State_silt_ (F := 549756035080) rfl (frm_refl (b := s))).nvm.resolve_left (by decide)
@[simp] theorem silt__free (s : State) (o n : Word) (g k u a : Nat) : (s.silt_ o n g k u a).free = s.free :=
  (fr_State_silt_ (F := 549756035080) rfl (frm_refl (b := s))).free.resolve_left (by decide)

/-! ### `report` -/

@[simp] theorem report_pending (s : State) (c r : Nat) (d : List Byte) (i : Bool) : (s.report c r d i).pending = s.pending :=
  (fr_State_report (F := 1168231104512) rfl (frm_refl (b := s))).pending.resolve_left (by decide)
@[simp] theorem report_cclk (s : State) (c r : Nat) (d : List Byte) (i : Bool) : (s.report c r d i).cclk = s.cclk :=
  (fr_State_report (F := 1168231104512) rfl (frm_refl (b := s))).cclk.resolve_left (by decide)
@[simp] theorem report_mode (s : State) (c r : Nat) (d : List Byte) (i : Bool) : (s.report c r d i).mode = s.mode :=
  (fr_State_report (F := 1168231104512) rfl (frm_refl (b := s))).mode.resolve_left (by decide)
@[simp] theorem report_regs (s : State) (c r : Nat) (d : List Byte) (i : Bool) : (s.report c r d i).regs = s.regs :=
  (fr_State_report (F := 1168231104512) rfl (frm_refl (b := s))).regs.resolve_left (by decide)
@[simp] theorem report_latched (s : State) (c r : Nat) (d : List Byte) (i : Bool) : (s.report c r d i).latched = s.latched :=
  (fr_State_report (F := 1168231104512) rfl (frm_refl (b := s))).latched.resolve_left (by decide)
@[simp] theorem report_held (s : State) (c r : Nat) (d : List Byte) (i : Bool) : (s.report c r d i).held = s.held :=
  (fr_State_report (F := 1168231104512) rfl (frm_refl (b := s))).held.resolve_left (by decide)
@[simp] theorem report_ctrlLockA (s : State) (c r : Nat) (d : List Byte) (i : Bool) : (s.report c r d i).ctrlLockA = s.ctrlLockA :=
  (fr_State_report (F := 1168231104512) rfl (frm_refl (b := s))).ctrlLockA.resolve_left (by decide)
@[simp] theorem report_ctrlLockB (s : State) (c r : Nat) (d : List Byte) (i : Bool) : (s.report c r d i).ctrlLockB = s.ctrlLockB :=
  (fr_State_report (F := 1168231104512) rfl (frm_refl (b := s))).ctrlLockB.resolve_left (by decide)
@[simp] theorem report_shadows (s : State) (c r : Nat) (d : List Byte) (i : Bool) : (s.report c r d i).shadows = s.shadows :=
  (fr_State_report (F := 1168231104512) rfl (frm_refl (b := s))).shadows.resolve_left (by decide)
@[simp] theorem report_commits (s : State) (c r : Nat) (d : List Byte) (i : Bool) : (s.report c r d i).commits = s.commits :=
  (fr_State_report (F := 1168231104512) rfl (frm_refl (b := s))).commits.resolve_left (by decide)
@[simp] theorem report_partNo (s : State) (c r : Nat) (d : List Byte) (i : Bool) : (s.report c r d i).partNo = s.partNo :=
  (fr_State_report (F := 1168231104512) rfl (frm_refl (b := s))).partNo.resolve_left (by decide)
@[simp] theorem report_hist (s : State) (c r : Nat) (d : List Byte) (i : Bool) : (s.report c r d i).hist = s.hist :=
  (fr_State_report (F := 1168231104512) rfl (frm_refl (b := s))).hist.resolve_left (by decide)
@[simp] theorem report_rings (s : State) (c r : Nat) (d : List Byte) (i : Bool) : (s.report c r d i).rings = s.rings :=
  (fr_State_report (F := 1168231104512) rfl (frm_refl (b := s))).rings.resolve_left (by decide)
@[simp] theorem report_msixA (s : State) (c r : Nat) (d : List Byte) (i : Bool) : (s.report c r d i).msixA = s.msixA :=
  (fr_State_report (F := 1168231104512) rfl (frm_refl (b := s))).msixA.resolve_left (by decide)
@[simp] theorem report_msixB (s : State) (c r : Nat) (d : List Byte) (i : Bool) : (s.report c r d i).msixB = s.msixB :=
  (fr_State_report (F := 1168231104512) rfl (frm_refl (b := s))).msixB.resolve_left (by decide)
@[simp] theorem report_mbx (s : State) (c r : Nat) (d : List Byte) (i : Bool) : (s.report c r d i).mbx = s.mbx :=
  (fr_State_report (F := 1168231104512) rfl (frm_refl (b := s))).mbx.resolve_left (by decide)
@[simp] theorem report_silt (s : State) (c r : Nat) (d : List Byte) (i : Bool) : (s.report c r d i).silt = s.silt :=
  (fr_State_report (F := 1168231104512) rfl (frm_refl (b := s))).silt.resolve_left (by decide)
@[simp] theorem report_msgPages (s : State) (c r : Nat) (d : List Byte) (i : Bool) : (s.report c r d i).msgPages = s.msgPages :=
  (fr_State_report (F := 1168231104512) rfl (frm_refl (b := s))).msgPages.resolve_left (by decide)
@[simp] theorem report_pb (s : State) (c r : Nat) (d : List Byte) (i : Bool) : (s.report c r d i).pb = s.pb :=
  (fr_State_report (F := 1168231104512) rfl (frm_refl (b := s))).pb.resolve_left (by decide)
@[simp] theorem report_gpio (s : State) (c r : Nat) (d : List Byte) (i : Bool) : (s.report c r d i).gpio = s.gpio :=
  (fr_State_report (F := 1168231104512) rfl (frm_refl (b := s))).gpio.resolve_left (by decide)
@[simp] theorem report_ports (s : State) (c r : Nat) (d : List Byte) (i : Bool) : (s.report c r d i).ports = s.ports :=
  (fr_State_report (F := 1168231104512) rfl (frm_refl (b := s))).ports.resolve_left (by decide)
@[simp] theorem report_ptp (s : State) (c r : Nat) (d : List Byte) (i : Bool) : (s.report c r d i).ptp = s.ptp :=
  (fr_State_report (F := 1168231104512) rfl (frm_refl (b := s))).ptp.resolve_left (by decide)
@[simp] theorem report_power (s : State) (c r : Nat) (d : List Byte) (i : Bool) : (s.report c r d i).power = s.power :=
  (fr_State_report (F := 1168231104512) rfl (frm_refl (b := s))).power.resolve_left (by decide)
@[simp] theorem report_prs (s : State) (c r : Nat) (d : List Byte) (i : Bool) : (s.report c r d i).prs = s.prs :=
  (fr_State_report (F := 1168231104512) rfl (frm_refl (b := s))).prs.resolve_left (by decide)
@[simp] theorem report_tables (s : State) (c r : Nat) (d : List Byte) (i : Bool) : (s.report c r d i).tables = s.tables :=
  (fr_State_report (F := 1168231104512) rfl (frm_refl (b := s))).tables.resolve_left (by decide)
@[simp] theorem report_policing (s : State) (c r : Nat) (d : List Byte) (i : Bool) : (s.report c r d i).policing = s.policing :=
  (fr_State_report (F := 1168231104512) rfl (frm_refl (b := s))).policing.resolve_left (by decide)
@[simp] theorem report_frames (s : State) (c r : Nat) (d : List Byte) (i : Bool) : (s.report c r d i).frames = s.frames :=
  (fr_State_report (F := 1168231104512) rfl (frm_refl (b := s))).frames.resolve_left (by decide)
@[simp] theorem report_nextFrame (s : State) (c r : Nat) (d : List Byte) (i : Bool) : (s.report c r d i).nextFrame = s.nextFrame :=
  (fr_State_report (F := 1168231104512) rfl (frm_refl (b := s))).nextFrame.resolve_left (by decide)
@[simp] theorem report_fab (s : State) (c r : Nat) (d : List Byte) (i : Bool) : (s.report c r d i).fab = s.fab :=
  (fr_State_report (F := 1168231104512) rfl (frm_refl (b := s))).fab.resolve_left (by decide)
@[simp] theorem report_egress (s : State) (c r : Nat) (d : List Byte) (i : Bool) : (s.report c r d i).egress = s.egress :=
  (fr_State_report (F := 1168231104512) rfl (frm_refl (b := s))).egress.resolve_left (by decide)
@[simp] theorem report_buses (s : State) (c r : Nat) (d : List Byte) (i : Bool) : (s.report c r d i).buses = s.buses :=
  (fr_State_report (F := 1168231104512) rfl (frm_refl (b := s))).buses.resolve_left (by decide)
@[simp] theorem report_gwe (s : State) (c r : Nat) (d : List Byte) (i : Bool) : (s.report c r d i).gwe = s.gwe :=
  (fr_State_report (F := 1168231104512) rfl (frm_refl (b := s))).gwe.resolve_left (by decide)
@[simp] theorem report_cipher (s : State) (c r : Nat) (d : List Byte) (i : Bool) : (s.report c r d i).cipher = s.cipher :=
  (fr_State_report (F := 1168231104512) rfl (frm_refl (b := s))).cipher.resolve_left (by decide)
@[simp] theorem report_keys (s : State) (c r : Nat) (d : List Byte) (i : Bool) : (s.report c r d i).keys = s.keys :=
  (fr_State_report (F := 1168231104512) rfl (frm_refl (b := s))).keys.resolve_left (by decide)
@[simp] theorem report_twin (s : State) (c r : Nat) (d : List Byte) (i : Bool) : (s.report c r d i).twin = s.twin :=
  (fr_State_report (F := 1168231104512) rfl (frm_refl (b := s))).twin.resolve_left (by decide)
@[simp] theorem report_sl (s : State) (c r : Nat) (d : List Byte) (i : Bool) : (s.report c r d i).sl = s.sl :=
  (fr_State_report (F := 1168231104512) rfl (frm_refl (b := s))).sl.resolve_left (by decide)
@[simp] theorem report_upd (s : State) (c r : Nat) (d : List Byte) (i : Bool) : (s.report c r d i).upd = s.upd :=
  (fr_State_report (F := 1168231104512) rfl (frm_refl (b := s))).upd.resolve_left (by decide)
@[simp] theorem report_nvm (s : State) (c r : Nat) (d : List Byte) (i : Bool) : (s.report c r d i).nvm = s.nvm :=
  (fr_State_report (F := 1168231104512) rfl (frm_refl (b := s))).nvm.resolve_left (by decide)
@[simp] theorem report_out (s : State) (c r : Nat) (d : List Byte) (i : Bool) : (s.report c r d i).out = s.out :=
  (fr_State_report (F := 1168231104512) rfl (frm_refl (b := s))).out.resolve_left (by decide)

end Sys2Proof.Laws
end

