-- ==== Sys2Proof/Laws/Fields.lean ====
section
/-!
SUPPORT. Fields of register words: what a written field reads as, and that every field beside it keeps its value.
-/
namespace Sys2Proof.Laws
set_option Elab.async false
open Sys2Proof Sys2Proof.Machine

/-- The three parts of a number about a field. -/
theorem putBits_parts (v lo n x : Nat) :
    putBits v lo n x = v / 2 ^ (lo + n) * 2 ^ (lo + n) + (x % 2 ^ n) * 2 ^ lo + v % 2 ^ lo := by
  have h1 : v = v / 2 ^ (lo + n) * 2 ^ (lo + n) + bits v lo n * 2 ^ lo + v % 2 ^ lo := by
    have e1 := Nat.div_add_mod v (2 ^ lo)
    have e2 := Nat.div_add_mod (v / 2 ^ lo) (2 ^ n)
    have e3 : v / 2 ^ lo / 2 ^ n = v / 2 ^ (lo + n) := by rw [Nat.div_div_eq_div_mul, Nat.pow_add]
    rw [e3] at e2
    simp only [bits, Nat.shiftRight_eq_div_pow]
    calc v = 2 ^ lo * (v / 2 ^ lo) + v % 2 ^ lo := e1.symm
      _ = 2 ^ lo * (2 ^ n * (v / 2 ^ (lo + n)) + v / 2 ^ lo % 2 ^ n) + v % 2 ^ lo := by rw [e2]
      _ = _ := by simp only [Nat.pow_add, Nat.mul_add, Nat.mul_comm, Nat.mul_assoc, Nat.add_comm]
  have h2 : bits v lo n * 2 ^ lo ≤ v := by
    have : bits v lo n * 2 ^ lo ≤ v / 2 ^ (lo + n) * 2 ^ (lo + n) + bits v lo n * 2 ^ lo + v % 2 ^ lo := by omega
    omega
  simp only [putBits]
  generalize v / 2 ^ (lo + n) * 2 ^ (lo + n) = A at *
  generalize bits v lo n * 2 ^ lo = B at *
  generalize x % 2 ^ n * 2 ^ lo = C at *
  omega

theorem putBits_lt {v lo n x m : Nat} (hv : v < 2 ^ m) (h : lo + n ≤ m) : putBits v lo n x < 2 ^ m := by
  rw [putBits_parts]
  have h1 : (x % 2 ^ n) * 2 ^ lo + v % 2 ^ lo < 2 ^ (lo + n) := by
    have a := Nat.mod_lt x (Nat.two_pow_pos n)
    have b := Nat.mod_lt v (Nat.two_pow_pos lo)
    have c : (x % 2 ^ n + 1) * 2 ^ lo ≤ 2 ^ n * 2 ^ lo := Nat.mul_le_mul_right _ a
    have e : 2 ^ n * 2 ^ lo = 2 ^ (lo + n) := by rw [Nat.pow_add, Nat.mul_comm]
    rw [Nat.add_mul, Nat.one_mul, e] at c
    omega
  have h2 : v / 2 ^ (lo + n) < 2 ^ (m - (lo + n)) := by
    rw [Nat.div_lt_iff_lt_mul (Nat.two_pow_pos _), ← Nat.pow_add]
    rwa [Nat.sub_add_cancel h]
  have h3 : (v / 2 ^ (lo + n) + 1) * 2 ^ (lo + n) ≤ 2 ^ (m - (lo + n)) * 2 ^ (lo + n) := Nat.mul_le_mul_right _ h2
  rw [← Nat.pow_add, Nat.sub_add_cancel h, Nat.add_mul, Nat.one_mul] at h3
  omega

/-- A written field reads as written. -/
theorem bits_putBits_same (v lo n x : Nat) : bits (putBits v lo n x) lo n = x % 2 ^ n := by
  have hl : v % 2 ^ lo < 2 ^ lo := Nat.mod_lt _ (Nat.two_pow_pos _)
  simp only [bits, Nat.shiftRight_eq_div_pow]
  rw [putBits_parts]
  have e : v / 2 ^ (lo + n) * 2 ^ (lo + n) + x % 2 ^ n * 2 ^ lo + v % 2 ^ lo =
      2 ^ lo * (v / 2 ^ (lo + n) * 2 ^ n + x % 2 ^ n) + v % 2 ^ lo := by
    simp only [Nat.pow_add, Nat.mul_add, Nat.mul_comm, Nat.mul_assoc, Nat.add_comm]
  rw [e, Nat.mul_add_div (Nat.two_pow_pos _), Nat.div_eq_of_lt hl, Nat.add_zero, Nat.add_comm, Nat.add_mul_mod_self_right, Nat.mod_mod]

/-- A field below a written one keeps its value. -/
theorem bits_putBits_low {v lo n x a k : Nat} (h : a + k ≤ lo) : bits (putBits v lo n x) a k = bits v a k := by
  simp only [bits, Nat.shiftRight_eq_div_pow]
  have key : ∀ y, y / 2 ^ a % 2 ^ k = y % 2 ^ (a + k) / 2 ^ a := by
    intro y; rw [Nat.pow_add, Nat.mod_mul_right_div_self]
  rw [key, key v, putBits_parts]
  congr 1
  have d1 : 2 ^ (a + k) ∣ 2 ^ lo := Nat.pow_dvd_pow 2 h
  have d2 : 2 ^ (a + k) ∣ 2 ^ (lo + n) := Nat.pow_dvd_pow 2 (by omega)
  obtain ⟨c1, hc1⟩ := d1
  obtain ⟨c2, hc2⟩ := d2
  have hm : v % 2 ^ lo % 2 ^ (a + k) = v % 2 ^ (a + k) := Nat.mod_mod_of_dvd _ (Nat.pow_dvd_pow 2 h)
  rw [← hm]
  generalize v % 2 ^ lo = l
  generalize v / 2 ^ (lo + n) = q
  rw [hc1, hc2]
  have e : q * (2 ^ (a + k) * c2) + x % 2 ^ n * (2 ^ (a + k) * c1) + l =
      l + 2 ^ (a + k) * (q * c2 + x % 2 ^ n * c1) := by
    rw [Nat.mul_add, Nat.mul_left_comm q, Nat.mul_left_comm (x % 2 ^ n), Nat.add_comm]
  rw [e, Nat.add_mul_mod_self_left]

/-- A field above a written one keeps its value. -/
theorem bits_putBits_high {v lo n x a k : Nat} (h : lo + n ≤ a) : bits (putBits v lo n x) a k = bits v a k := by
  simp only [bits, Nat.shiftRight_eq_div_pow]
  congr 1
  obtain ⟨d, rfl⟩ := Nat.exists_eq_add_of_le h
  rw [Nat.pow_add 2 (lo + n) d, ← Nat.div_div_eq_div_mul, ← Nat.div_div_eq_div_mul]
  congr 1
  rw [putBits_parts]
  have h1 : (x % 2 ^ n) * 2 ^ lo + v % 2 ^ lo < 2 ^ (lo + n) := by
    have a := Nat.mod_lt x (Nat.two_pow_pos n)
    have b := Nat.mod_lt v (Nat.two_pow_pos lo)
    have c : (x % 2 ^ n + 1) * 2 ^ lo ≤ 2 ^ n * 2 ^ lo := Nat.mul_le_mul_right _ a
    have e : 2 ^ n * 2 ^ lo = 2 ^ (lo + n) := by rw [Nat.pow_add, Nat.mul_comm]
    rw [Nat.add_mul, Nat.one_mul, e] at c
    omega
  rw [Nat.add_assoc, Nat.mul_comm, Nat.mul_add_div (Nat.two_pow_pos _), Nat.div_eq_of_lt h1, Nat.add_zero]
/-- A written field of a register word reads as written. -/
theorem fld_putFld_same {w : Word} {lo n x : Nat} (h : lo + n ≤ 32) : fld (putFld w lo n x) lo n = x % 2 ^ n := by
  simp only [fld, putFld, w32, BitVec.toNat_ofNat]
  rw [Nat.mod_eq_of_lt (putBits_lt w.isLt h), bits_putBits_same]

/-- A field beside a written one keeps its value. -/
theorem fld_putFld_ne {w : Word} {lo n x a k : Nat} (h : lo + n ≤ 32) (d : a + k ≤ lo ∨ lo + n ≤ a) :
    fld (putFld w lo n x) a k = fld w a k := by
  simp only [fld, putFld, w32, BitVec.toNat_ofNat]
  rw [Nat.mod_eq_of_lt (putBits_lt w.isLt h)]
  rcases d with d | d
  · exact bits_putBits_low d
  · exact bits_putBits_high d

/-- A field of a register word is below its bound. -/
theorem fld_lt (w : Word) (lo n : Nat) : fld w lo n < 2 ^ n := Nat.mod_lt _ (Nat.two_pow_pos _)

/-- A set bit reads as 1. -/
theorem bit_setBit {w : Word} {i j : Nat} (h : i < 32) :
    bit (setBit w i).toNat j = (decide (j = i) || bit w.toNat j) := by
  simp only [bit, setBit, BitVec.toNat_or, Nat.testBit_or, w32, BitVec.toNat_ofNat]
  rw [Nat.mod_eq_of_lt (Nat.pow_lt_pow_right (by decide) h), Nat.testBit_two_pow]
  by_cases hj : j = i
  · simp [hj]
  · simp [hj, Ne.symm hj]

/-- A cleared bit reads as 0. -/
theorem bit_clrBit {w : Word} {i j : Nat} (h : i < 32) :
    bit (clrBit w i).toNat j = (decide (j ≠ i) && bit w.toNat j) := by
  simp only [bit, clrBit, BitVec.testBit_toNat, BitVec.getLsbD_and, BitVec.getLsbD_not, w32, BitVec.getLsbD_ofNat,
    Nat.testBit_two_pow]
  by_cases hj : j = i
  · subst hj
    simp [h]
  · by_cases h32 : j < 32
    · simp [hj, Ne.symm hj, h32]
    · simp [BitVec.getLsbD_of_ge w j (by omega)]

/-- A field of the register that a field write changed, or of another register. -/
theorem fld_setFld_same {s : State} {a lo n x : Nat} (h : lo + n ≤ 32) : (s.setFld a lo n x).fld a lo n = x % 2 ^ n := by
  simp only [State.fld, State.setFld, reg_setReg, if_true]
  exact fld_putFld_same h

/-- A field beside the written one. -/
theorem fld_setFld_ne {s : State} {a lo n x b l k : Nat} (h : lo + n ≤ 32) (d : a ≠ b ∨ l + k ≤ lo ∨ lo + n ≤ l) :
    (s.setFld a lo n x).fld b l k = s.fld b l k := by
  simp only [State.fld, State.setFld, reg_setReg]
  split
  · rename_i e
    subst e
    exact fld_putFld_ne h (d.resolve_left (fun h => h rfl))
  · rfl

/-- A bit of the register that a bit write changed, or of another register. -/
theorem bitAt_setBitAt {s : State} {a b i j : Nat} {v : Bool} (h : i < 32) :
    (s.setBitAt a i v).bitAt b j = if a = b ∧ j = i then v else s.bitAt b j := by
  simp only [State.bitAt, State.setBitAt, reg_setReg]
  by_cases ha : a = b
  · subst ha
    simp only [if_true, true_and]
    cases v
    · simp only [Bool.false_eq_true, if_false]
      rw [bit_clrBit h]
      by_cases hj : j = i <;> simp [hj]
    · simp only [if_true]
      rw [bit_setBit h]
      by_cases hj : j = i <;> simp [hj]
  · simp [ha]

end Sys2Proof.Laws
end

