-- ==== Sys2Proof/Laws/Ops.lean ====
section
/-!
SUPPORT. What the shared operations do: fields and pairs of registers, counters (R10), interrupts (R587), the Silt Log
(R75), refusals (R45), mailbox responses (R73), and the two gates of a meaning: its operands and its condition.
-/
namespace Sys2Proof.Laws
set_option Elab.async false
open Sys2Proof Sys2Proof.Machine

/-! ### Gates -/

/-- Well-formed operands let the effect through. -/
theorem ifWf_true {c : Bool} {s : State} (h : c = true) : ifWf c s = .next s := by simp [ifWf, h]

/-- Operands that name nothing of the part are refused. -/
theorem ifWf_false {c : Bool} {s : State} (h : c = false) : ifWf c s = .refused .illFormed := by simp [ifWf, h]

/-- An event whose condition is met has its effect. -/
theorem whenever_true {c : Bool} {s t : State} (h : c = true) : whenever c s t = t := by simp [whenever, h]

/-- An event whose condition is not met changes nothing. -/
theorem whenever_false {c : Bool} {s t : State} (h : c = false) : whenever c s t = s := by simp [whenever, h]

/-- A write that passes the checks of R46 has its effect. -/
theorem write_passes {s t : State} {w : Who} {a : Nat} {v : Word} (h : Passes s w a v) : s.write w a v t = t := by
  simp only [State.write]
  rw [show checkWrite s w a 4 v = none from h]

/-- A write that fails a check is recorded, and has no other effect. -/
theorem write_refused {s t : State} {w : Who} {a : Nat} {v : Word} {p : Nat} {r : Refused}
    (h : checkWrite s w a 4 v = some (p, r)) : s.write w a v t = s.refuse p r w a := by
  simp only [State.write]
  rw [h]

/-- A read that reaches its register has its effect. -/
theorem readOr_reaches {s t : State} {w : Who} {a : Nat} (h : Reaches s w a) : s.readOr w a t = t := by
  simp only [State.readOr]
  rw [if_pos (show readReaches s w a = true from h)]

/-! ### Numbers -/

/-- A number below 2^32 is kept by `w32`. -/
theorem w32_toNat {n : Nat} : (w32 n).toNat = n % 2 ^ 32 := by simp [w32]

/-- Offsets in a page do not meet those of another page. -/
theorem regAddr_page {p o : Nat} (h : o < 0x1000) : regAddr p o / 0x1000 = p := by
  simp only [regAddr]
  omega

/-! ### Fields and pairs -/

@[simp] theorem reg_setFld (s : State) (a b lo n x : Nat) :
    (s.setFld a lo n x).reg b = if a = b then putFld (s.reg a) lo n x else s.reg b := by
  simp [State.setFld]

@[simp] theorem reg_setBitAt (s : State) (a b i : Nat) (v : Bool) :
    (s.setBitAt a i v).reg b = if a = b then (if v then setBit (s.reg a) i else clrBit (s.reg a) i) else s.reg b := by
  simp [State.setBitAt]

/-- A pair reads as written. -/
theorem pair_setPair (s : State) (a v : Nat) : (s.setPair a v).pair a = v % 2 ^ 64 := by
  simp only [State.pair, State.setPair, reg_setReg]
  simp [w32]
  omega

/-- Writing a pair changes no register outside it. -/
theorem reg_setPair {s : State} {a b v : Nat} (h : b ≠ a) (h4 : b ≠ a + 4) : (s.setPair a v).reg b = s.reg b := by
  simp only [State.setPair, reg_setReg]
  rw [if_neg (Ne.symm h4), if_neg (Ne.symm h)]

/-- R10: a counter advances by one and wraps after its maximum. -/
theorem pair_bump (s : State) (a : Nat) : (s.bump a).pair a = (s.pair a + 1) % 2 ^ 64 := by
  simp only [State.bump, State.bumpBy, pair_setPair, Nat.mod_mod]

/-- A counter's advance changes no register outside it. -/
theorem reg_bump {s : State} {a b : Nat} (h : b ≠ a) (h4 : b ≠ a + 4) : (s.bump a).reg b = s.reg b :=
  reg_setPair h h4

/-! ### Interrupts -/

@[simp] theorem sendVec_reg (s : State) (h : HostPort) (v a : Nat) : (s.sendVec h v).reg a = s.reg a := by
  simp only [State.reg, sendVec_regs]

/-- A page's message changes no register. -/
@[simp] theorem pageMsg_reg (s : State) (p a : Nat) : (s.pageMsg p).reg a = s.reg a := by
  simp only [State.reg, pageMsg_regs]

/-- Raising interrupts changes no register but the page's IRQ_RAW. -/
theorem reg_raiseMask {s : State} {p m a : Nat} (h : a ≠ regAddr p 0x10) : (s.raiseMask p m).reg a = s.reg a := by
  simp only [State.raiseMask]
  split <;> simp [Ne.symm h]

/-- Raising interrupts sets their bits in the page's IRQ_RAW. -/
theorem raw_raiseMask (s : State) (p m : Nat) :
    (s.raiseMask p m).reg (regAddr p 0x10) = w32 ((s.reg (regAddr p 0x10)).toNat ||| m) := by
  simp only [State.raiseMask]
  split <;> simp

/-- Raising an interrupt changes no register but the page's IRQ_RAW. -/
theorem reg_raise {s : State} {p i a : Nat} (h : a ≠ regAddr p 0x10) : (s.raise p i).reg a = s.reg a :=
  reg_raiseMask h

/-! ### The Silt Log and refusals -/

/-- A Silt entry changes registers of page SILT only. -/
theorem reg_silt_ {s : State} {o n : Word} {g k u a b : Nat} (h : b / 0x1000 ≠ pSilt) :
    (s.silt_ o n g k u a).reg b = s.reg b := by
  have hp : ∀ x, x < 0x1000 → b ≠ regAddr pSilt x := by
    intro x hx hb
    exact h (by rw [hb, regAddr_page hx])
  have h48 : aSilt 0x048 ≠ b := Ne.symm (hp 0x048 (by decide))
  have h4c : aSilt 0x04C ≠ b := Ne.symm (hp 0x04C (by decide))
  have h68 : b ≠ aSilt 0x068 := hp 0x068 (by decide)
  have h6c : b ≠ aSilt 0x068 + 4 := hp 0x06C (by decide)
  have hs : ∀ (t : State), t.regs = s.regs → t.reg b = s.reg b := by
    intro t ht
    simp only [State.reg, ht]
  simp only [State.silt_]
  split
  · rw [reg_raise (hp 0x10 (by decide)), reg_bump h68 h6c, reg_setReg,
      if_neg h4c, reg_setReg, if_neg h48]
    exact hs _ rfl
  · rw [reg_setReg, if_neg h48]
    exact hs _ rfl

/-- A logged write changes, beside its register, registers of page SILT only. -/
theorem reg_logReg {s : State} {g a b : Nat} {o n : Word} {sh : Bool} (h : b / 0x1000 ≠ pSilt) :
    (logReg s g a o n sh).reg b = s.reg b := by
  simp only [logReg]
  split
  · rfl
  · exact reg_silt_ h

/-- R45: a refusal changes, of registers outside SILT, the ERRCAP, ERRADDR and IRQ_RAW of its page only. -/
theorem reg_refuse {s : State} {p a b : Nat} {r : Refused} {w : Who} (hs : b / 0x1000 ≠ pSilt)
    (h28 : b ≠ regAddr p 0x28) (h2c : b ≠ regAddr p 0x2C) (h10 : b ≠ regAddr p 0x10) :
    (s.refuse p r w a).reg b = s.reg b := by
  have hp : ∀ x, x < 0x1000 → b ≠ regAddr pSilt x := by
    intro x hx hb
    exact hs (by rw [hb, regAddr_page hx])
  have hq : s.siltRefused.reg b = s.reg b := by
    have h70 : b ≠ aSilt 0x070 := hp 0x070 (by decide)
    have h74 : b ≠ aSilt 0x070 + 4 := hp 0x074 (by decide)
    simp only [State.siltRefused]
    rw [reg_raise (hp 0x10 (by decide)), reg_bump h70 h74]
  simp only [State.refuse]
  rw [reg_raise h10]
  split <;> split <;> simp [Ne.symm h28, Ne.symm h2c, hq]

end Sys2Proof.Laws
end

