-- ==== Sys2Proof/Laws/PerInstr.lean ====
section
/-!
SUPPORT. Facts about every command, one lemma per constructor of Instr: no command lists the queue among the parts that
it touches.
-/
namespace Sys2Proof.Laws
set_option Elab.async false
open Sys2Proof Sys2Proof.Machine

/-- The queue is not among the parts that a command touches. -/
def Queue.Statement (i : Instr) : Prop := Part.pending ∉ touches i

theorem Queue.registerWrite (w : Who) (addr width : Nat) (val : Word) : Queue.Statement (.registerWrite w addr width val) := by
  dsimp only [Queue.Statement, touches]
  decide

theorem Queue.pairLoRead (w : Who) (addr : Nat) : Queue.Statement (.pairLoRead w addr) := by
  dsimp only [Queue.Statement, touches]
  decide

theorem Queue.pairHiWrite (w : Who) (addr : Nat) (val : Word) : Queue.Statement (.pairHiWrite w addr val) := by
  dsimp only [Queue.Statement, touches]
  decide

theorem Queue.pairLoWrite (w : Who) (addr : Nat) (val : Word) : Queue.Statement (.pairLoWrite w addr val) := by
  dsimp only [Queue.Statement, touches]
  decide

theorem Queue.ownerWrite (w : Who) (page : Nat) (val : Word) : Queue.Statement (.ownerWrite w page val) := by
  dsimp only [Queue.Statement, touches]
  decide

theorem Queue.semTasRead (w : Who) (n : Nat) : Queue.Statement (.semTasRead w n) := by
  dsimp only [Queue.Statement, touches]
  decide

theorem Queue.semRelease (w : Who) (n : Nat) : Queue.Statement (.semRelease w n) := by
  dsimp only [Queue.Statement, touches]
  decide

theorem Queue.commitGo (w : Who) (tag : Nat) : Queue.Statement (.commitGo w tag) := by
  dsimp only [Queue.Statement, touches]
  decide

theorem Queue.commitDiscard (w : Who) : Queue.Statement (.commitDiscard w) := by
  dsimp only [Queue.Statement, touches]
  decide

theorem Queue.commitCheckEnd : Queue.Statement (.commitCheckEnd) := by
  dsimp only [Queue.Statement, touches]
  decide

theorem Queue.commitApply : Queue.Statement (.commitApply) := by
  dsimp only [Queue.Statement, touches]
  decide

theorem Queue.errcapClear (w : Who) (page : Nat) : Queue.Statement (.errcapClear w page) := by
  dsimp only [Queue.Statement, touches]
  decide

theorem Queue.irqClrWrite (w : Who) (page : Nat) (val : Word) : Queue.Statement (.irqClrWrite w page val) := by
  dsimp only [Queue.Statement, touches]
  decide

theorem Queue.irqEnWrite (w : Who) (page : Nat) (val : Word) : Queue.Statement (.irqEnWrite w page val) := by
  dsimp only [Queue.Statement, touches]
  decide

theorem Queue.msixUnmask (h : HostPort) (vec : Nat) : Queue.Statement (.msixUnmask h vec) := by
  dsimp only [Queue.Statement, touches]
  decide

theorem Queue.hostLinkDown (h : HostPort) : Queue.Statement (.hostLinkDown h) := by
  dsimp only [Queue.Statement, touches]
  decide

theorem Queue.ringEnable (w : Who) (r : RingId) (val : Word) : Queue.Statement (.ringEnable w r val) := by
  dsimp only [Queue.Statement, touches]
  decide

theorem Queue.ringDisable (w : Who) (r : RingId) (val : Word) : Queue.Statement (.ringDisable w r val) := by
  dsimp only [Queue.Statement, touches]
  decide

theorem Queue.ringDrained (r : RingId) : Queue.Statement (.ringDrained r) := by
  dsimp only [Queue.Statement, touches]
  decide

theorem Queue.ringTailWrite (w : Who) (r : RingId) (val : Word) : Queue.Statement (.ringTailWrite w r val) := by
  dsimp only [Queue.Statement, touches]
  decide

theorem Queue.txFrameEnter (h : HostPort) (k : Nat) (descs : List TxDesc) (bytes : List Byte) (fault : Bool) : Queue.Statement (.txFrameEnter h k descs bytes fault) := by
  dsimp only [Queue.Statement, touches]
  decide

theorem Queue.txLaunch (h : HostPort) (k tc : Nat) : Queue.Statement (.txLaunch h k tc) := by
  dsimp only [Queue.Statement, touches]
  decide

theorem Queue.txCompletion (h : HostPort) (k n : Nat) : Queue.Statement (.txCompletion h k n) := by
  dsimp only [Queue.Statement, touches]
  decide

theorem Queue.rxFrameDma (h : HostPort) (bufs : List RxDesc) (fault : Bool) : Queue.Statement (.rxFrameDma h bufs fault) := by
  dsimp only [Queue.Statement, touches]
  decide

theorem Queue.ringInterrupt (r : RingId) : Queue.Statement (.ringInterrupt r) := by
  dsimp only [Queue.Statement, touches]
  decide

theorem Queue.coalTimerExpire (r : RingId) : Queue.Statement (.coalTimerExpire r) := by
  dsimp only [Queue.Statement, touches]
  decide

theorem Queue.info (h : HostPort) : Queue.Statement (.info h) := by
  dsimp only [Queue.Statement, touches]
  decide

theorem Queue.modeReqSleepRetain (h : HostPort) : Queue.Statement (.modeReqSleepRetain h) := by
  dsimp only [Queue.Statement, touches]
  decide

theorem Queue.modeReqSleepDeep (h : HostPort) : Queue.Statement (.modeReqSleepDeep h) := by
  dsimp only [Queue.Statement, touches]
  decide

theorem Queue.modeReqService (h : HostPort) : Queue.Statement (.modeReqService h) := by
  dsimp only [Queue.Statement, touches]
  decide

theorem Queue.modeReqReset (h : HostPort) : Queue.Statement (.modeReqReset h) := by
  dsimp only [Queue.Statement, touches]
  decide

theorem Queue.modeReqRun (h : HostPort) : Queue.Statement (.modeReqRun h) := by
  dsimp only [Queue.Statement, touches]
  decide

theorem Queue.testReq (h : HostPort) : Queue.Statement (.testReq h) := by
  dsimp only [Queue.Statement, touches]
  decide

theorem Queue.siltCheckpoint (h : HostPort) : Queue.Statement (.siltCheckpoint h) := by
  dsimp only [Queue.Statement, touches]
  decide

theorem Queue.siltCheckpointRecord : Queue.Statement (.siltCheckpointRecord) := by
  dsimp only [Queue.Statement, touches]
  decide

theorem Queue.siltAckWrite (w : Who) (h : HostPort) (val : Word) : Queue.Statement (.siltAckWrite w h val) := by
  dsimp only [Queue.Statement, touches]
  decide

theorem Queue.cycleBoundary : Queue.Statement (.cycleBoundary) := by
  dsimp only [Queue.Statement, touches]
  decide

theorem Queue.forcedSyncPoint : Queue.Statement (.forcedSyncPoint) := by
  dsimp only [Queue.Statement, touches]
  decide

theorem Queue.nettimeRefEvent : Queue.Statement (.nettimeRefEvent) := by
  dsimp only [Queue.Statement, touches]
  decide

theorem Queue.tickAccepted (j : Nat) : Queue.Statement (.tickAccepted j) := by
  dsimp only [Queue.Statement, touches]
  decide

theorem Queue.tickRunt (j : Nat) : Queue.Statement (.tickRunt j) := by
  dsimp only [Queue.Statement, touches]
  decide

theorem Queue.tickLoss : Queue.Statement (.tickLoss) := by
  dsimp only [Queue.Statement, touches]
  decide

theorem Queue.encCount (m : Nat) : Queue.Statement (.encCount m) := by
  dsimp only [Queue.Statement, touches]
  decide

theorem Queue.encIndex (m : Nat) : Queue.Statement (.encIndex m) := by
  dsimp only [Queue.Statement, touches]
  decide

theorem Queue.encBackward (m : Nat) : Queue.Statement (.encBackward m) := by
  dsimp only [Queue.Statement, touches]
  decide

theorem Queue.encIllegal (m : Nat) : Queue.Statement (.encIllegal m) := by
  dsimp only [Queue.Statement, touches]
  decide

theorem Queue.pbStandstill : Queue.Statement (.pbStandstill) := by
  dsimp only [Queue.Statement, touches]
  decide

theorem Queue.joinDone : Queue.Statement (.joinDone) := by
  dsimp only [Queue.Statement, touches]
  decide

theorem Queue.capEdge (n : Nat) (rising : Bool) : Queue.Statement (.capEdge n rising) := by
  dsimp only [Queue.Statement, touches]
  decide

theorem Queue.capNsRead (w : Who) (n : Nat) : Queue.Statement (.capNsRead w n) := by
  dsimp only [Queue.Statement, touches]
  decide

theorem Queue.capStatRead (w : Who) (n : Nat) : Queue.Statement (.capStatRead w n) := by
  dsimp only [Queue.Statement, touches]
  decide

theorem Queue.ppoArm (w : Who) (n : Nat) (val : Word) : Queue.Statement (.ppoArm w n val) := by
  dsimp only [Queue.Statement, touches]
  decide

theorem Queue.ppoFire (n : Nat) : Queue.Statement (.ppoFire n) := by
  dsimp only [Queue.Statement, touches]
  decide

theorem Queue.frameReceive (port : Nat) (bytes : List Byte) (abort : Bool) (sub : Nat) (cmp : PipeCmp) : Queue.Statement (.frameReceive port bytes abort sub cmp) := by
  dsimp only [Queue.Statement, touches]
  decide

theorem Queue.lossCondition (l : LinkId) (k : LossKind) : Queue.Statement (.lossCondition l k) := by
  dsimp only [Queue.Statement, touches]
  decide

theorem Queue.linkDown (l : LinkId) : Queue.Statement (.linkDown l) := by
  dsimp only [Queue.Statement, touches]
  decide

theorem Queue.flushDone (port : Nat) : Queue.Statement (.flushDone port) := by
  dsimp only [Queue.Statement, touches]
  decide

theorem Queue.fdbPortPurge (port : Nat) : Queue.Statement (.fdbPortPurge port) := by
  dsimp only [Queue.Statement, touches]
  decide

theorem Queue.linkUp (l : LinkId) : Queue.Statement (.linkUp l) := by
  dsimp only [Queue.Statement, touches]
  decide

theorem Queue.altModeSwitch (port : Nat) : Queue.Statement (.altModeSwitch port) := by
  dsimp only [Queue.Statement, touches]
  decide

theorem Queue.mmVerifyResponse (port : Nat) : Queue.Statement (.mmVerifyResponse port) := by
  dsimp only [Queue.Statement, touches]
  decide

theorem Queue.mmVerifyTimeout (port : Nat) : Queue.Statement (.mmVerifyTimeout port) := by
  dsimp only [Queue.Statement, touches]
  decide

theorem Queue.mmFragmentReceive (port : Nat) (smd : Smd) (bytes : List Byte) (last crcOk abort : Bool) (cmp : PipeCmp) : Queue.Statement (.mmFragmentReceive port smd bytes last crcOk abort cmp) := by
  dsimp only [Queue.Statement, touches]
  decide

theorem Queue.tc10SleepReq (w : Who) (n : Nat) : Queue.Statement (.tc10SleepReq w n) := by
  dsimp only [Queue.Statement, touches]
  decide

theorem Queue.tc10WakeReq (w : Who) (n : Nat) : Queue.Statement (.tc10WakeReq w n) := by
  dsimp only [Queue.Statement, touches]
  decide

theorem Queue.tc10SleepRequestRx (n : Nat) : Queue.Statement (.tc10SleepRequestRx n) := by
  dsimp only [Queue.Statement, touches]
  decide

theorem Queue.tc10HandshakeDone (n : Nat) : Queue.Statement (.tc10HandshakeDone n) := by
  dsimp only [Queue.Statement, touches]
  decide

theorem Queue.tc10SleepFail (n : Nat) : Queue.Statement (.tc10SleepFail n) := by
  dsimp only [Queue.Statement, touches]
  decide

theorem Queue.tc10Wup (n : Nat) : Queue.Statement (.tc10Wup n) := by
  dsimp only [Queue.Statement, touches]
  decide

theorem Queue.tc10Wur (n : Nat) : Queue.Statement (.tc10Wur n) := by
  dsimp only [Queue.Statement, touches]
  decide

theorem Queue.mdioC22Write (w : Who) (m phy reg : Nat) : Queue.Statement (.mdioC22Write w m phy reg) := by
  dsimp only [Queue.Statement, touches]
  decide

theorem Queue.mdioC22Read (w : Who) (m phy reg : Nat) : Queue.Statement (.mdioC22Read w m phy reg) := by
  dsimp only [Queue.Statement, touches]
  decide

theorem Queue.mdioC45Write (w : Who) (m phy reg : Nat) : Queue.Statement (.mdioC45Write w m phy reg) := by
  dsimp only [Queue.Statement, touches]
  decide

theorem Queue.mdioC45Read (w : Who) (m phy reg : Nat) : Queue.Statement (.mdioC45Read w m phy reg) := by
  dsimp only [Queue.Statement, touches]
  decide

theorem Queue.mdioDone (m : Nat) (reply : Option Nat) : Queue.Statement (.mdioDone m reply) := by
  dsimp only [Queue.Statement, touches]
  decide

theorem Queue.sdsPrbsWrite (w : Who) (lane : Nat) (val : Word) : Queue.Statement (.sdsPrbsWrite w lane val) := by
  dsimp only [Queue.Statement, touches]
  decide

theorem Queue.cableTestStart (w : Who) (n : Nat) : Queue.Statement (.cableTestStart w n) := by
  dsimp only [Queue.Statement, touches]
  decide

theorem Queue.diagDone (n fault dist : Nat) : Queue.Statement (.diagDone n fault dist) := by
  dsimp only [Queue.Statement, touches]
  decide

theorem Queue.parseDispatch (f : Nat) (rvErr : Bool) : Queue.Statement (.parseDispatch f rvErr) := by
  dsimp only [Queue.Statement, touches]
  decide

theorem Queue.dispatchWait (f : Nat) : Queue.Statement (.dispatchWait f) := by
  dsimp only [Queue.Statement, touches]
  decide

theorem Queue.parseResume (f : Nat) : Queue.Statement (.parseResume f) := by
  dsimp only [Queue.Statement, touches]
  decide

theorem Queue.deepParseEnd (f : Nat) : Queue.Statement (.deepParseEnd f) := by
  dsimp only [Queue.Statement, touches]
  decide

theorem Queue.endCheck (f : Nat) : Queue.Statement (.endCheck f) := by
  dsimp only [Queue.Statement, touches]
  decide

theorem Queue.prsCaptArm (w : Who) (val : Word) : Queue.Statement (.prsCaptArm w val) := by
  dsimp only [Queue.Statement, touches]
  decide

theorem Queue.lookupStage (f : Nat) : Queue.Statement (.lookupStage f) := by
  dsimp only [Queue.Statement, touches]
  decide

theorem Queue.tueRead (h : HostPort) (d : TueDesc) : Queue.Statement (.tueRead h d) := by
  dsimp only [Queue.Statement, touches]
  decide

theorem Queue.tueWrite (h : HostPort) (d : TueDesc) (data : List Byte) (fault : Bool) : Queue.Statement (.tueWrite h d data fault) := by
  dsimp only [Queue.Statement, touches]
  decide

theorem Queue.tueInsert (h : HostPort) (d : TueDesc) (data : List Byte) (fault : Bool) : Queue.Statement (.tueInsert h d data fault) := by
  dsimp only [Queue.Statement, touches]
  decide

theorem Queue.tueDelete (h : HostPort) (d : TueDesc) (data : List Byte) (fault : Bool) : Queue.Statement (.tueDelete h d data fault) := by
  dsimp only [Queue.Statement, touches]
  decide

theorem Queue.tueSearch (h : HostPort) (d : TueDesc) (data : List Byte) (fault : Bool) : Queue.Statement (.tueSearch h d data fault) := by
  dsimp only [Queue.Statement, touches]
  decide

theorem Queue.tueFlush (h : HostPort) (d : TueDesc) : Queue.Statement (.tueFlush h d) := by
  dsimp only [Queue.Statement, touches]
  decide

theorem Queue.overlayCopyOut (table index : Nat) : Queue.Statement (.overlayCopyOut table index) := by
  dsimp only [Queue.Statement, touches]
  decide

theorem Queue.overlayRetire (table index : Nat) : Queue.Statement (.overlayRetire table index) := by
  dsimp only [Queue.Statement, touches]
  decide

theorem Queue.learnRelease (pl : Nat) : Queue.Statement (.learnRelease pl) := by
  dsimp only [Queue.Statement, touches]
  decide

theorem Queue.learnApply : Queue.Statement (.learnApply) := by
  dsimp only [Queue.Statement, touches]
  decide

theorem Queue.flapIntervalEnd : Queue.Statement (.flapIntervalEnd) := by
  dsimp only [Queue.Statement, touches]
  decide

theorem Queue.tueFrozenClear (w : Who) (hi : Bool) (val : Word) : Queue.Statement (.tueFrozenClear w hi val) := by
  dsimp only [Queue.Statement, touches]
  decide

theorem Queue.ageingSweep : Queue.Statement (.ageingSweep) := by
  dsimp only [Queue.Statement, touches]
  decide

theorem Queue.policyStage (f : Nat) : Queue.Statement (.policyStage f) := by
  dsimp only [Queue.Statement, touches]
  decide

theorem Queue.flowSweep : Queue.Statement (.flowSweep) := by
  dsimp only [Queue.Statement, touches]
  decide

theorem Queue.halfReady (f : Nat) : Queue.Statement (.halfReady f) := by
  dsimp only [Queue.Statement, touches]
  decide

theorem Queue.loneWaitExpire (g : Nat) : Queue.Statement (.loneWaitExpire g) := by
  dsimp only [Queue.Statement, touches]
  decide

theorem Queue.copyOpen (port q : Nat) : Queue.Statement (.copyOpen port q) := by
  dsimp only [Queue.Statement, touches]
  decide

theorem Queue.halfRead (g : Nat) : Queue.Statement (.halfRead g) := by
  dsimp only [Queue.Statement, touches]
  decide

theorem Queue.halfRelease (port q : Nat) : Queue.Statement (.halfRelease port q) := by
  dsimp only [Queue.Statement, touches]
  decide

theorem Queue.txUnderrun (port : Nat) : Queue.Statement (.txUnderrun port) := by
  dsimp only [Queue.Statement, touches]
  decide

theorem Queue.egressDecision (port : Nat) (cmp : PipeCmp) : Queue.Statement (.egressDecision port cmp) := by
  dsimp only [Queue.Statement, touches]
  decide

theorem Queue.lineFree (port : Nat) : Queue.Statement (.lineFree port) := by
  dsimp only [Queue.Statement, touches]
  decide

theorem Queue.bucketRefill : Queue.Statement (.bucketRefill) := by
  dsimp only [Queue.Statement, touches]
  decide

theorem Queue.gclEntryBegin (port : Nat) : Queue.Statement (.gclEntryBegin port) := by
  dsimp only [Queue.Statement, touches]
  decide

theorem Queue.gclListBoundary (port : Nat) : Queue.Statement (.gclListBoundary port) := by
  dsimp only [Queue.Statement, touches]
  decide

theorem Queue.preemptResume (port : Nat) : Queue.Statement (.preemptResume port) := by
  dsimp only [Queue.Statement, touches]
  decide

theorem Queue.gclDataWrite (w : Who) (port : Nat) (val : Word) : Queue.Statement (.gclDataWrite w port val) := by
  dsimp only [Queue.Statement, touches]
  decide

theorem Queue.shedReexamine (port : Nat) : Queue.Statement (.shedReexamine port) := by
  dsimp only [Queue.Statement, touches]
  decide

theorem Queue.canBusIntegrationDone (n : Nat) : Queue.Statement (.canBusIntegrationDone n) := by
  dsimp only [Queue.Statement, touches]
  decide

theorem Queue.canModeAtIdle (n : Nat) : Queue.Statement (.canModeAtIdle n) := by
  dsimp only [Queue.Statement, touches]
  decide

theorem Queue.canFrameReceived (n : Nat) (msg : CanMsg) (sof : Nat) : Queue.Statement (.canFrameReceived n msg sof) := by
  dsimp only [Queue.Statement, touches]
  decide

theorem Queue.canError (n : Nat) (k : CanErrKind) : Queue.Statement (.canError n k) := by
  dsimp only [Queue.Statement, touches]
  decide

theorem Queue.canBoRecover (w : Who) (n : Nat) : Queue.Statement (.canBoRecover w n) := by
  dsimp only [Queue.Statement, touches]
  decide

theorem Queue.busoffRecovered (n : Nat) : Queue.Statement (.busoffRecovered n) := by
  dsimp only [Queue.Statement, touches]
  decide

theorem Queue.canPendingWrite (n : Nat) : Queue.Statement (.canPendingWrite n) := by
  dsimp only [Queue.Statement, touches]
  decide

theorem Queue.canBufferReady (n b : Nat) (idle : Option Nat) : Queue.Statement (.canBufferReady n b idle) := by
  dsimp only [Queue.Statement, touches]
  decide

theorem Queue.canSelection (n : Nat) : Queue.Statement (.canSelection n) := by
  dsimp only [Queue.Statement, touches]
  decide

theorem Queue.canArbLost (n : Nat) (err : Bool) : Queue.Statement (.canArbLost n err) := by
  dsimp only [Queue.Statement, touches]
  decide

theorem Queue.canTxOk (n : Nat) : Queue.Statement (.canTxOk n) := by
  dsimp only [Queue.Statement, touches]
  decide

theorem Queue.canTxsGo (w : Who) (n : Nat) : Queue.Statement (.canTxsGo w n) := by
  dsimp only [Queue.Statement, touches]
  decide

theorem Queue.canCancelTag (w : Who) (n tag : Nat) : Queue.Statement (.canCancelTag w n tag) := by
  dsimp only [Queue.Statement, touches]
  decide

theorem Queue.canCancelAll (w : Who) (n : Nat) : Queue.Statement (.canCancelAll w n) := by
  dsimp only [Queue.Statement, touches]
  decide

theorem Queue.canCancelSample (n : Nat) : Queue.Statement (.canCancelSample n) := by
  dsimp only [Queue.Statement, touches]
  decide

theorem Queue.canCancelAbort (n : Nat) : Queue.Statement (.canCancelAbort n) := by
  dsimp only [Queue.Statement, touches]
  decide

theorem Queue.canTxevRead (w : Who) (n : Nat) : Queue.Statement (.canTxevRead w n) := by
  dsimp only [Queue.Statement, touches]
  decide

theorem Queue.canRxqPop (w : Who) (n q : Nat) : Queue.Statement (.canRxqPop w n q) := by
  dsimp only [Queue.Statement, touches]
  decide

theorem Queue.canWindowOverrun (n : Nat) : Queue.Statement (.canWindowOverrun n) := by
  dsimp only [Queue.Statement, touches]
  decide

theorem Queue.canAuthSet (w : Who) (val : Word) : Queue.Statement (.canAuthSet w val) := by
  dsimp only [Queue.Statement, touches]
  decide

theorem Queue.authRsvRaise (i : Nat) : Queue.Statement (.authRsvRaise i) := by
  dsimp only [Queue.Statement, touches]
  decide

theorem Queue.linScheduleEntry (n : Nat) : Queue.Statement (.linScheduleEntry n) := by
  dsimp only [Queue.Statement, touches]
  decide

theorem Queue.linHeaderRx (n pid meas : Nat) : Queue.Statement (.linHeaderRx n pid meas) := by
  dsimp only [Queue.Statement, touches]
  decide

theorem Queue.linResponseRx (n : Nat) (data : List Byte) (chk : Nat) : Queue.Statement (.linResponseRx n data chk) := by
  dsimp only [Queue.Statement, touches]
  decide

theorem Queue.linNoResponse (n : Nat) : Queue.Statement (.linNoResponse n) := by
  dsimp only [Queue.Statement, touches]
  decide

theorem Queue.linIdleSleep (n : Nat) : Queue.Statement (.linIdleSleep n) := by
  dsimp only [Queue.Statement, touches]
  decide

theorem Queue.linWakeTx (w : Who) (n : Nat) : Queue.Statement (.linWakeTx w n) := by
  dsimp only [Queue.Statement, touches]
  decide

theorem Queue.linWakeDetect (n : Nat) : Queue.Statement (.linWakeDetect n) := by
  dsimp only [Queue.Statement, touches]
  decide

theorem Queue.gweEnqueue : Queue.Statement (.gweEnqueue) := by
  dsimp only [Queue.Statement, touches]
  decide

theorem Queue.routeAdmit : Queue.Statement (.routeAdmit) := by
  dsimp only [Queue.Statement, touches]
  decide

theorem Queue.gweReinject (handle : Nat) : Queue.Statement (.gweReinject handle) := by
  dsimp only [Queue.Statement, touches]
  decide

theorem Queue.batchHoldExpire (s : Nat) : Queue.Statement (.batchHoldExpire s) := by
  dsimp only [Queue.Statement, touches]
  decide

theorem Queue.batchFrameEnter : Queue.Statement (.batchFrameEnter) := by
  dsimp only [Queue.Statement, touches]
  decide

theorem Queue.gweDecapsulate : Queue.Statement (.gweDecapsulate) := by
  dsimp only [Queue.Statement, touches]
  decide

theorem Queue.gweTblRead (w : Who) : Queue.Statement (.gweTblRead w) := by
  dsimp only [Queue.Statement, touches]
  decide

theorem Queue.gweTblStage (w : Who) : Queue.Statement (.gweTblStage w) := by
  dsimp only [Queue.Statement, touches]
  decide

theorem Queue.gweTblReadPending (w : Who) : Queue.Statement (.gweTblReadPending w) := by
  dsimp only [Queue.Statement, touches]
  decide

theorem Queue.ptpSyncRx (d port : Nat) (seq : Nat) (twoStep : Bool) (info : SyncInfo) (t : Nat) : Queue.Statement (.ptpSyncRx d port seq twoStep info t) := by
  dsimp only [Queue.Statement, touches]
  decide

theorem Queue.ptpFollowUpRx (d port : Nat) (seq : Nat) (info : SyncInfo) : Queue.Statement (.ptpFollowUpRx d port seq info) := by
  dsimp only [Queue.Statement, touches]
  decide

theorem Queue.fuMissing (d : Nat) : Queue.Statement (.fuMissing d) := by
  dsimp only [Queue.Statement, touches]
  decide

theorem Queue.ptpSyncTimeout (d : Nat) : Queue.Statement (.ptpSyncTimeout d) := by
  dsimp only [Queue.Statement, touches]
  decide

theorem Queue.ptpHoldExpire (d : Nat) : Queue.Statement (.ptpHoldExpire d) := by
  dsimp only [Queue.Statement, touches]
  decide

theorem Queue.ptpSetGo (w : Who) (d : Nat) : Queue.Statement (.ptpSetGo w d) := by
  dsimp only [Queue.Statement, touches]
  decide

theorem Queue.pdelayReqTx (port : Nat) : Queue.Statement (.pdelayReqTx port) := by
  dsimp only [Queue.Statement, touches]
  decide

theorem Queue.pdelayReqRx (port seq id t2 : Nat) : Queue.Statement (.pdelayReqRx port seq id t2) := by
  dsimp only [Queue.Statement, touches]
  decide

theorem Queue.pdelayRespRx (port seq t2 t3 t4 : Nat) : Queue.Statement (.pdelayRespRx port seq t2 t3 t4) := by
  dsimp only [Queue.Statement, touches]
  decide

theorem Queue.syncRelay (d : Nat) (seq : Nat) (twoStep : Bool) (info : SyncInfo) (t : Nat) : Queue.Statement (.syncRelay d seq twoStep info t) := by
  dsimp only [Queue.Statement, touches]
  decide

theorem Queue.followUpTx (d port : Nat) : Queue.Statement (.followUpTx d port) := by
  dsimp only [Queue.Statement, touches]
  decide

theorem Queue.syncOriginate (d : Nat) : Queue.Statement (.syncOriginate d) := by
  dsimp only [Queue.Statement, touches]
  decide

theorem Queue.saInstall (w : Who) (port : Nat) (sa : SaId) (val : Word) : Queue.Statement (.saInstall w port sa val) := by
  dsimp only [Queue.Statement, touches]
  decide

theorem Queue.saRemove (w : Who) (port : Nat) (sa : SaId) (val : Word) : Queue.Statement (.saRemove w port sa val) := by
  dsimp only [Queue.Statement, touches]
  decide

theorem Queue.encSaWrite (w : Who) (port : Nat) (val : Word) : Queue.Statement (.encSaWrite w port val) := by
  dsimp only [Queue.Statement, touches]
  decide

theorem Queue.katRotation (eg : Bool) : Queue.Statement (.katRotation eg) := by
  dsimp only [Queue.Statement, touches]
  decide

theorem Queue.katComplete (eg pass : Bool) : Queue.Statement (.katComplete eg pass) := by
  dsimp only [Queue.Statement, touches]
  decide

theorem Queue.aesCtrEnc (src : LaSource) (d : LaDesc) (input : List Byte) (fault : Bool) : Queue.Statement (.aesCtrEnc src d input fault) := by
  dsimp only [Queue.Statement, touches]
  decide

theorem Queue.aesCtrDec (src : LaSource) (d : LaDesc) (input : List Byte) (fault : Bool) : Queue.Statement (.aesCtrDec src d input fault) := by
  dsimp only [Queue.Statement, touches]
  decide

theorem Queue.aesGcmEnc (src : LaSource) (d : LaDesc) (input : List Byte) (fault : Bool) : Queue.Statement (.aesGcmEnc src d input fault) := by
  dsimp only [Queue.Statement, touches]
  decide

theorem Queue.aesGcmDec (src : LaSource) (d : LaDesc) (input : List Byte) (fault : Bool) : Queue.Statement (.aesGcmDec src d input fault) := by
  dsimp only [Queue.Statement, touches]
  decide

theorem Queue.aesCmacGen (src : LaSource) (d : LaDesc) (input : List Byte) (fault : Bool) : Queue.Statement (.aesCmacGen src d input fault) := by
  dsimp only [Queue.Statement, touches]
  decide

theorem Queue.aesCmacVer (src : LaSource) (d : LaDesc) (input : List Byte) (fault : Bool) : Queue.Statement (.aesCmacVer src d input fault) := by
  dsimp only [Queue.Statement, touches]
  decide

theorem Queue.aesCmacFv (src : LaSource) (d : LaDesc) (input : List Byte) (fault : Bool) : Queue.Statement (.aesCmacFv src d input fault) := by
  dsimp only [Queue.Statement, touches]
  decide

theorem Queue.aesKwWrap (src : LaSource) (d : LaDesc) (input : List Byte) (fault : Bool) : Queue.Statement (.aesKwWrap src d input fault) := by
  dsimp only [Queue.Statement, touches]
  decide

theorem Queue.aesKwUnwrap (src : LaSource) (d : LaDesc) (input : List Byte) (fault : Bool) : Queue.Statement (.aesKwUnwrap src d input fault) := by
  dsimp only [Queue.Statement, touches]
  decide

theorem Queue.sha256 (src : LaSource) (d : LaDesc) (input : List Byte) (fault : Bool) : Queue.Statement (.sha256 src d input fault) := by
  dsimp only [Queue.Statement, touches]
  decide

theorem Queue.sha384 (src : LaSource) (d : LaDesc) (input : List Byte) (fault : Bool) : Queue.Statement (.sha384 src d input fault) := by
  dsimp only [Queue.Statement, touches]
  decide

theorem Queue.hmacSha256 (src : LaSource) (d : LaDesc) (input : List Byte) (fault : Bool) : Queue.Statement (.hmacSha256 src d input fault) := by
  dsimp only [Queue.Statement, touches]
  decide

theorem Queue.hmacSha384 (src : LaSource) (d : LaDesc) (input : List Byte) (fault : Bool) : Queue.Statement (.hmacSha384 src d input fault) := by
  dsimp only [Queue.Statement, touches]
  decide

theorem Queue.ecdsaSign (src : LaSource) (d : LaDesc) (input : List Byte) (fault : Bool) : Queue.Statement (.ecdsaSign src d input fault) := by
  dsimp only [Queue.Statement, touches]
  decide

theorem Queue.ecdsaVerify (src : LaSource) (d : LaDesc) (input : List Byte) (fault : Bool) : Queue.Statement (.ecdsaVerify src d input fault) := by
  dsimp only [Queue.Statement, touches]
  decide

theorem Queue.ecdh (src : LaSource) (d : LaDesc) (input : List Byte) (fault : Bool) : Queue.Statement (.ecdh src d input fault) := by
  dsimp only [Queue.Statement, touches]
  decide

theorem Queue.drbgGen (src : LaSource) (d : LaDesc) (healthy : Bool) : Queue.Statement (.drbgGen src d healthy) := by
  dsimp only [Queue.Statement, touches]
  decide

theorem Queue.drbgReseed (src : LaSource) (d : LaDesc) (healthy : Bool) : Queue.Statement (.drbgReseed src d healthy) := by
  dsimp only [Queue.Statement, touches]
  decide

theorem Queue.invFence (src : LaSource) (d : LaDesc) : Queue.Statement (.invFence src d) := by
  dsimp only [Queue.Statement, touches]
  decide

theorem Queue.lookasideComplete (num : Nat) : Queue.Statement (.lookasideComplete num) := by
  dsimp only [Queue.Statement, touches]
  decide

theorem Queue.mkpduRx (port : Nat) (bytes : List Byte) : Queue.Statement (.mkpduRx port bytes) := by
  dsimp only [Queue.Statement, touches]
  decide

theorem Queue.mkaHello (port : Nat) : Queue.Statement (.mkaHello port) := by
  dsimp only [Queue.Statement, touches]
  decide

theorem Queue.mkaPeerTimeout (port mi : Nat) : Queue.Statement (.mkaPeerTimeout port mi) := by
  dsimp only [Queue.Statement, touches]
  decide

theorem Queue.kumInstall (h : HostPort) : Queue.Statement (.kumInstall h) := by
  dsimp only [Queue.Statement, touches]
  decide

theorem Queue.kumDerive (h : HostPort) : Queue.Statement (.kumDerive h) := by
  dsimp only [Queue.Statement, touches]
  decide

theorem Queue.kumInvalidate (h : HostPort) : Queue.Statement (.kumInvalidate h) := by
  dsimp only [Queue.Statement, touches]
  decide

theorem Queue.kumLcAdvance (h : HostPort) : Queue.Statement (.kumLcAdvance h) := by
  dsimp only [Queue.Statement, touches]
  decide

theorem Queue.kumFirst (h : HostPort) : Queue.Statement (.kumFirst h) := by
  dsimp only [Queue.Statement, touches]
  decide

theorem Queue.lcGraceReset : Queue.Statement (.lcGraceReset) := by
  dsimp only [Queue.Statement, touches]
  decide

theorem Queue.updActivate (h : HostPort) : Queue.Statement (.updActivate h) := by
  dsimp only [Queue.Statement, touches]
  decide

theorem Queue.updActivateReset (h : HostPort) : Queue.Statement (.updActivateReset h) := by
  dsimp only [Queue.Statement, touches]
  decide

theorem Queue.updCancel (h : HostPort) : Queue.Statement (.updCancel h) := by
  dsimp only [Queue.Statement, touches]
  decide

theorem Queue.updVeto (h : HostPort) : Queue.Statement (.updVeto h) := by
  dsimp only [Queue.Statement, touches]
  decide

theorem Queue.oemKeySet (h : HostPort) : Queue.Statement (.oemKeySet h) := by
  dsimp only [Queue.Statement, touches]
  decide

theorem Queue.roleSwap (h : HostPort) : Queue.Statement (.roleSwap h) := by
  dsimp only [Queue.Statement, touches]
  decide

theorem Queue.swapPoint : Queue.Statement (.swapPoint) := by
  dsimp only [Queue.Statement, touches]
  decide

theorem Queue.swapAbort : Queue.Statement (.swapAbort) := by
  dsimp only [Queue.Statement, touches]
  decide

theorem Queue.swapCondition (c : SwapCond) : Queue.Statement (.swapCondition c) := by
  dsimp only [Queue.Statement, touches]
  decide

theorem Queue.twnKick (w : Who) : Queue.Statement (.twnKick w) := by
  dsimp only [Queue.Statement, touches]
  decide

theorem Queue.kickTimeout : Queue.Statement (.kickTimeout) := by
  dsimp only [Queue.Statement, touches]
  decide

theorem Queue.heartbeatTx : Queue.Statement (.heartbeatTx) := by
  dsimp only [Queue.Statement, touches]
  decide

theorem Queue.heartbeatRx (p : HbPath) (info : HbInfo) : Queue.Statement (.heartbeatRx p info) := by
  dsimp only [Queue.Statement, touches]
  decide

theorem Queue.heartbeatSilent (p : HbPath) : Queue.Statement (.heartbeatSilent p) := by
  dsimp only [Queue.Statement, touches]
  decide

theorem Queue.takeoverTask : Queue.Statement (.takeoverTask) := by
  dsimp only [Queue.Statement, touches]
  decide

theorem Queue.claimWindow (low : Bool) : Queue.Statement (.claimWindow low) := by
  dsimp only [Queue.Statement, touches]
  decide

theorem Queue.claimLowRead : Queue.Statement (.claimLowRead) := by
  dsimp only [Queue.Statement, touches]
  decide

theorem Queue.arbitrationStart : Queue.Statement (.arbitrationStart) := by
  dsimp only [Queue.Statement, touches]
  decide

theorem Queue.observeEnd : Queue.Statement (.observeEnd) := by
  dsimp only [Queue.Statement, touches]
  decide

theorem Queue.graceEnd : Queue.Statement (.graceEnd) := by
  dsimp only [Queue.Statement, touches]
  decide

theorem Queue.slRecordRx (lane : Nat) (bytes : List Byte) : Queue.Statement (.slRecordRx lane bytes) := by
  dsimp only [Queue.Statement, touches]
  decide

theorem Queue.slLack : Queue.Statement (.slLack) := by
  dsimp only [Queue.Statement, touches]
  decide

theorem Queue.slRetransmit : Queue.Statement (.slRetransmit) := by
  dsimp only [Queue.Statement, touches]
  decide

theorem Queue.joinReqRx : Queue.Statement (.joinReqRx) := by
  dsimp only [Queue.Statement, touches]
  decide

theorem Queue.joinEndRx (epoch digest cycle : Nat) (regs : List (Nat × Word)) : Queue.Statement (.joinEndRx epoch digest cycle regs) := by
  dsimp only [Queue.Statement, touches]
  decide

theorem Queue.syncApply (core : SyncCore) : Queue.Statement (.syncApply core) := by
  dsimp only [Queue.Statement, touches]
  decide

theorem Queue.digestRecomputeDone (full : Nat) : Queue.Statement (.digestRecomputeDone full) := by
  dsimp only [Queue.Statement, touches]
  decide

theorem Queue.syncAckRx (n digest : Nat) (match_ : Bool) : Queue.Statement (.syncAckRx n digest match_) := by
  dsimp only [Queue.Statement, touches]
  decide

theorem Queue.commitRecordRx (writer : Master) (tag point : Nat) (vals : List (Nat × Word)) (recs : List (Nat × Nat × List Byte)) : Queue.Statement (.commitRecordRx writer tag point vals recs) := by
  dsimp only [Queue.Statement, touches]
  decide

theorem Queue.commitAckRx (tag point : Nat) : Queue.Statement (.commitAckRx tag point) := by
  dsimp only [Queue.Statement, touches]
  decide

theorem Queue.roleAnnounce : Queue.Statement (.roleAnnounce) := by
  dsimp only [Queue.Statement, touches]
  decide

theorem Queue.lockstepMismatch (pair : Bool) (task : Nat) (async : Bool) : Queue.Statement (.lockstepMismatch pair task async) := by
  dsimp only [Queue.Statement, touches]
  decide

theorem Queue.taskCommit (pair : Bool) (writes : List Staged) : Queue.Statement (.taskCommit pair writes) := by
  dsimp only [Queue.Statement, touches]
  decide

theorem Queue.taskOverrun (pair : Bool) (task : Nat) : Queue.Statement (.taskOverrun pair task) := by
  dsimp only [Queue.Statement, touches]
  decide

theorem Queue.scrubPass (region : Nat) : Queue.Statement (.scrubPass region) := by
  dsimp only [Queue.Statement, touches]
  decide

theorem Queue.dpStall (unit : Nat) : Queue.Statement (.dpStall unit) := by
  dsimp only [Queue.Statement, touches]
  decide

theorem Queue.portStall (port : Nat) : Queue.Statement (.portStall port) := by
  dsimp only [Queue.Statement, touches]
  decide

theorem Queue.clockFail (mclk : Bool) : Queue.Statement (.clockFail mclk) := by
  dsimp only [Queue.Statement, touches]
  decide

theorem Queue.supplyFail (supply : Nat) : Queue.Statement (.supplyFail supply) := by
  dsimp only [Queue.Statement, touches]
  decide

theorem Queue.faultReport : Queue.Statement (.faultReport) := by
  dsimp only [Queue.Statement, touches]
  decide

theorem Queue.coalesce : Queue.Statement (.coalesce) := by
  dsimp only [Queue.Statement, touches]
  decide

theorem Queue.windowClose (i : Nat) : Queue.Statement (.windowClose i) := by
  dsimp only [Queue.Statement, touches]
  decide

theorem Queue.faultRecordWrite : Queue.Statement (.faultRecordWrite) := by
  dsimp only [Queue.Statement, touches]
  decide

theorem Queue.memInjArm (w : Who) (val : Word) : Queue.Statement (.memInjArm w val) := by
  dsimp only [Queue.Statement, touches]
  decide

theorem Queue.lspInjOnce (w : Who) (val : Word) : Queue.Statement (.lspInjOnce w val) := by
  dsimp only [Queue.Statement, touches]
  decide

theorem Queue.lspInjAsync (w : Who) (val : Word) : Queue.Statement (.lspInjAsync w val) := by
  dsimp only [Queue.Statement, touches]
  decide

theorem Queue.lspInjPersist (w : Who) (val : Word) : Queue.Statement (.lspInjPersist w val) := by
  dsimp only [Queue.Statement, touches]
  decide

theorem Queue.fltInjGo (w : Who) (val : Word) : Queue.Statement (.fltInjGo w val) := by
  dsimp only [Queue.Statement, touches]
  decide

theorem Queue.sleepEntryStop : Queue.Statement (.sleepEntryStop) := by
  dsimp only [Queue.Statement, touches]
  decide

theorem Queue.sleepDrainEnd : Queue.Statement (.sleepDrainEnd) := by
  dsimp only [Queue.Statement, touches]
  decide

theorem Queue.sleepCheckpointDone : Queue.Statement (.sleepCheckpointDone) := by
  dsimp only [Queue.Statement, touches]
  decide

theorem Queue.suppliesOff : Queue.Statement (.suppliesOff) := by
  dsimp only [Queue.Statement, touches]
  decide

theorem Queue.wakePinAssert (k : Nat) : Queue.Statement (.wakePinAssert k) := by
  dsimp only [Queue.Statement, touches]
  decide

theorem Queue.wakeTimerExpire : Queue.Statement (.wakeTimerExpire) := by
  dsimp only [Queue.Statement, touches]
  decide

theorem Queue.powerOn : Queue.Statement (.powerOn) := by
  dsimp only [Queue.Statement, touches]
  decide

theorem Queue.resetPin : Queue.Statement (.resetPin) := by
  dsimp only [Queue.Statement, touches]
  decide

theorem Queue.tamperAssert : Queue.Statement (.tamperAssert) := by
  dsimp only [Queue.Statement, touches]
  decide

theorem Queue.glitchDetect (k : GlitchKind) : Queue.Statement (.glitchDetect k) := by
  dsimp only [Queue.Statement, touches]
  decide

theorem Queue.temperatureLimit : Queue.Statement (.temperatureLimit) := by
  dsimp only [Queue.Statement, touches]
  decide

theorem Queue.updSessionOpen (w : Who) (val : Word) : Queue.Statement (.updSessionOpen w val) := by
  dsimp only [Queue.Statement, touches]
  decide

theorem Queue.updSessionClose (w : Who) (val : Word) : Queue.Statement (.updSessionClose w val) := by
  dsimp only [Queue.Statement, touches]
  decide

theorem Queue.updWrite (d : UpdDesc) (bytes : List Byte) (fault : Bool) : Queue.Statement (.updWrite d bytes fault) := by
  dsimp only [Queue.Statement, touches]
  decide

theorem Queue.updFinish (d : UpdDesc) : Queue.Statement (.updFinish d) := by
  dsimp only [Queue.Statement, touches]
  decide

theorem Queue.updAbort (d : UpdDesc) : Queue.Statement (.updAbort d) := by
  dsimp only [Queue.Statement, touches]
  decide

theorem Queue.relayRecordRx (target : UpdTarget) (d : UpdDesc) (bytes : List Byte) : Queue.Statement (.relayRecordRx target d bytes) := by
  dsimp only [Queue.Statement, touches]
  decide

theorem Queue.relayFrameRx (port : Nat) (bytes : List Byte) : Queue.Statement (.relayFrameRx port bytes) := by
  dsimp only [Queue.Statement, touches]
  decide

theorem Queue.relayRetransmit (n : Nat) : Queue.Statement (.relayRetransmit n) := by
  dsimp only [Queue.Statement, touches]
  decide

theorem Queue.trialWindowEnd : Queue.Statement (.trialWindowEnd) := by
  dsimp only [Queue.Statement, touches]
  decide

theorem Queue.supplyRetry : Queue.Statement (.supplyRetry) := by
  dsimp only [Queue.Statement, touches]
  decide

theorem Queue.lossConditionClear (l : LinkId) (k : LossKind) : Queue.Statement (.lossConditionClear l k) := by
  dsimp only [Queue.Statement, touches]
  decide

theorem Queue.claimHighRead : Queue.Statement (.claimHighRead) := by
  dsimp only [Queue.Statement, touches]
  decide

theorem Queue.inputLinkWrite (g : Nat) : Queue.Statement (.inputLinkWrite g) := by
  dsimp only [Queue.Statement, touches]
  decide

theorem Queue.flashWriteDone (ok : Bool) : Queue.Statement (.flashWriteDone ok) := by
  dsimp only [Queue.Statement, touches]
  decide

theorem Queue.hostLinkUp (h : HostPort) (speed width : Nat) : Queue.Statement (.hostLinkUp h speed width) := by
  dsimp only [Queue.Statement, touches]
  decide

theorem Queue.busyhit (h : HostPort) : Queue.Statement (.busyhit h) := by
  dsimp only [Queue.Statement, touches]
  decide

end Sys2Proof.Laws
end

