-- ==== Sys2Proof/Machine/Bar.lean ====
section
/-!
DEFINITION. What a host reads behind its door besides BAR0: the identity of its PCI Express function (R38), BAR2 with
the TUE ring, the table window and the Silt Log, and BAR4 with MSI-X (R39, Table 2-1).
-/
namespace Sys2Proof.Machine
open Sys2Proof

/-- What a PCI Express function reports of itself. -/
structure FuncIdentity where
  deviceId : Nat
  classCode : Nat
  vendorId : BitVec 16
  maxPayload : Nat
  maxReadRequest : Nat
  tags10 : Bool
  aer : Bool
  msix : Bool
  intx : Bool
  msi : Bool
  sriov : Bool
  ats : Bool
deriving DecidableEq, Repr

/-- R38: the function of each host port. Renwatal's vendor ID is a number that the spec does not give.
Marks: UNVERIFIED (log entry 78). -/
def hostFunction : FuncIdentity :=
  { deviceId := 0x4800, classCode := 0x028000, vendorId := Config.vendorId, maxPayload := 512, maxReadRequest := 4096
    tags10 := true, aer := true, msix := true, intx := false, msi := false, sriov := false, ats := false }

/-! ### BAR2 -/

/-- A byte of the table window: entry i of table t lies at t * 4 MiB + i * S. It shows the main table. -/
def windowByte (s : State) (x : Nat) : Byte :=
  let t := x / 0x400000
  let i := x % 0x400000 / max 1 (entryBytes t)
  if t < 12 ∧ i < tableEntries t then byteAt (s.mainEnt t i) (x % 0x400000 % max 1 (entryBytes t)) else 0

/-- A checkpoint record as its 128 bytes (Table 2-16). -/
def checkpointBytes (c : Checkpoint) : List Byte :=
  leBytes 4 c.seqLast ++ leBytes 4 c.bootCnt ++ leBytes 4 c.count ++ List.replicate 20 0 ++ bytes256 c.chain
    ++ beBytes 64 c.sig.toNat

/-- A byte of the checkpoint records; a slot that holds none reads 0. -/
def checkpointByte (s : State) (x : Nat) : Byte :=
  match Tab.get (fun _ => none) (s.silt.records.map (fun r => (r.1, some r.2))) (x / 128) with
  | some c => byteAt (checkpointBytes c) (x % 128)
  | none => 0

/-- DAMAGED as a read shows it: kept with the entry, or set because the read and its repeat both meet a parity error
(Table 2-15, R32). Marks: DESIGN CHOICE (log entry 33). -/
def readsDamaged (s : State) (slot : Nat) (e : SiltEntry) : Bool :=
  e.damaged || s.faults.marks.any (fun m => m.region == 6 && m.double && Config.freeBool (s.free + slot))

/-- A byte of the Silt Log entries, entry SEQ at slot SEQ mod 16,384; a slot that holds none reads 0. -/
def siltByte (s : State) (x : Nat) : Byte :=
  match Tab.get (fun _ => none) (s.silt.entries.map (fun r => (r.1, some r.2))) (x / 32) with
  | some e => byteAt (siltBytes e (readsDamaged s (x / 32) e) e.cp) (x % 32)
  | none => 0

/-- A byte of BAR2 of a host port (Table 2-1). -/
def bar2Byte (s : State) (h : HostPort) (off : Nat) : Byte :=
  if off < 0x20 then
    byteAt (leBytes 4 (readValue s { m := hostMaster h } (bar2Ring h (off / 4 * 4))).toNat) (off % 4)
  else if off < 0x1000000 then 0
  else if off < 0x3F7E000 then windowByte s (off - 0x1000000)
  else if off < 0x3F80000 then checkpointByte s (off - 0x3F7E000)
  else if off < 0x4000000 then siltByte s (off - 0x3F80000)
  else 0

/-! ### BAR4 -/

/-- A word of BAR4 of a host port: the MSI-X table of 64 vectors, and the pending bit array. -/
def bar4Word (s : State) (h : HostPort) (off : Nat) : Word :=
  let m := s.msix h
  if off < 0x400 then
    if off % 16 = 12 then w32 (b2n (m.masked.getLsbD (off / 16))) else Tab.get (fun _ => 0) m.table (off / 4)
  else if off = 0x2000 then w32 (m.pend.toNat % 2 ^ 32)
  else if off = 0x2004 then w32 (m.pend.toNat / 2 ^ 32)
  else 0

/-- What a host reads at a byte of a BAR behind its own door: `width` bytes at a BAR0 offset, or at a key of BAR2 or
BAR4. Another host's BAR2 and BAR4 are not there. -/
def masterRead (s : State) (w : Who) (addr width : Nat) : List Byte :=
  match bar4At addr, bar2At addr with
  | some (h, off), _ =>
    if w.m = hostMaster h then ((leBytes 4 (bar4Word s h (off / 4 * 4)).toNat).drop (off % 4)).take width
    else List.replicate width 0
  | none, some (h, off) =>
    if w.m = hostMaster h then (List.range width).map (fun k => bar2Byte s h (off + k)) else List.replicate width 0
  | none, none => readBytes s w addr width

end Sys2Proof.Machine
end

