-- ==== Sys2Proof/Tests/Slice0.lean ====
section
/-!
SUPPORT. Our own tests: an ill-formed term for every check of WellFormed.lean, a few single steps whose result stands
in the spec or in a standard that it names, and for every statement with hypotheses, the states and operands that meet
them (one theorem for each statement, one part for each of its clauses with hypotheses of their own).
-/

namespace Sys2Proof.Tests
set_option Elab.async false
set_option maxRecDepth 20000
set_option linter.unusedVariables false
open Sys2Proof Sys2Proof.Machine

/-! ### States that the tests use -/

/-- A host's access through the plain window. -/
def w : Who := { m := .ha }

/-- The machine after reset, in CONFIGURE. -/
def conf : State := { State.reset with mode := .configure }

/-- The machine after reset, in ACTIVE with that role. -/
def actv : State := { State.reset with mode := .active, twin := { role := .active } }

/-- The machine after reset, in STANDBY with that role. -/
def stby : State := { State.reset with mode := .standby, twin := { role := .standby } }

/-- A state with some registers written. -/
def regsAre (s : State) (l : List (Nat × Word)) : State := l.foldl (fun s x => s.setReg x.1 x.2) s

/-- A state in which host A's mailbox holds a request with an opcode, LEN, and the first bytes of its payload. -/
def asks (s : State) (op len b8 b9 : Nat) : State :=
  { regsAre s [(aMbx .a 0x100, w32 op), (aMbx .a 0x104, w32 len), (aMbx .a 0x108, w32 (b8 + 256 * b9))] with
      mbx := [.a] }

/-- A frame of 64 bytes with a good FCS. -/
def goodFrame : List Byte := List.replicate 60 0 ++ leBytes 4 (crc32 (List.replicate 60 0))

/-- ACTIVE, with an external port UP at 1 Gbit/s. -/
def upPort (p : Nat) : State := actv.setMac p { link := .up, loss := [] }

/-- ACTIVE, with frame 0. -/
def withFrame (x : Frame) : State := { actv.setFrame 0 x with cclk := 100000 }

/-- ACTIVE, with CAN channel 23 in a state. -/
def withCan (c : CanChan) : State := actv.setCan 23 c

/-- ACTIVE, with LIN channel 7 at 20 kbit/s in a state. -/
def withLin (c : LinChan) : State := (regsAre actv [(aLin 7 0x040, w32 (20000 * 2 ^ 16 + 4))]).setLin 7 c

/-- ACTIVE, with the gateway enabled and in a state. -/
def withGwe (s : State) (g : Gateway) : State := { regsAre s [(regAddr (pGwe 0) 0x040, 1)] with gwe := g, cclk := 100000 }

/-- ACTIVE, with gPTP domain 1 enabled in a state, and its slave port 47 UP and asCapable. -/
def ptpOn (x : Domain) : State :=
  { regsAre (((upPort 47).setPdelay 47 { asCap := true, asked := some 9, t1 := some 0 }).setDom 1 x)
      [(aDom 1 0, 1), (aPtpPort 47 0, 1)] with cclk := 10 ^ 15 }

/-- ACTIVE, with MKA running on port 47 with key slot 5, and the port UP. -/
def mkaOn (x : Mka) : State :=
  { (regsAre ((upPort 47).setKeySlot 5 { attr := 1 }) [(aMsc 47 0x064, w32 (1 + 5 * 2 ^ 16))]).setMka 47 x with cclk := 1000 }

/-- ACTIVE, with the lookaside engines enabled. -/
def laOn : State := regsAre actv [(aCe 0x044, 0x11)]

/-- CONFIGURE, with a key update message of an operation in host A's mailbox. -/
def kumAsks (op : Nat) : State :=
  regsAre (asks conf 4 200 0 0) [(aMbx .a 0x10C, w32 (op * 256))]

/-- CONFIGURE or ACTIVE, with an update decision in host A's mailbox and the code slots given. -/
def decides (s : State) (d len flags : Nat) (a b : SlotSt) : State :=
  { asks s 5 len d flags with nvm := { slotA := { st := a }, slotB := { st := b } } }

/-- CONFIGURE, ready to arbitrate. -/
def mayArb (t : Twin) : State := { conf with power := { configured := true }, pb := { state := .locked }, twin := t }

/-- In role ARB since cycle 0. -/
def arb (t : Twin) : State := { conf with twin := { t with role := .arb }, cclk := 10 ^ 12 }

/-- ACTIVE, with the twin joined and a swap under way. -/
def swaps (x : Option Swap) : State := { actv with twin := { role := .active, sync := .synced, swap := x } }

/-- The Shell Link is UP on both lanes, for a unit. -/
def linked (s : State) (l : ShellLink) : State :=
  { regsAre s [(regAddr pSl 0x040, 3)] with sl := { l with up := 3 }, cclk := 10000 }

/-- A Shell Link record of a type without a body, with its CRC. -/
def slEmpty (ty : Byte) : List Byte :=
  ty :: List.replicate 15 0 ++ beBytes 4 (crc32c (ty :: List.replicate 15 0))

/-- STANDBY, with an update session of the unit's own open and a descriptor posted. -/
def updOpen (u : Session) : State :=
  { regsAre conf [(ringBase .upd + 8, 0x10D), (ringBase .upd + 0x14, 1)] with upd := { session := some u } }

/-- A sleep entry in a stage. -/
def entering (e : SleepEntry) (late : Bool) : State :=
  { conf with cclk := 10 ^ 9, power := { entry := some e, late := late } }

/-- The candidates of a decision on a port, and what the pick takes among them. -/
def picked (s : State) (p : Nat) : List (Nat × Copy × Nat) × (State × Option Nat) :=
  let u := ((List.range 8).filter (fun q => (eligible (dropAll (readLevels s p) p) p q (s.cclk + 40)).2)).foldl
    (fun t q => match headOf t p q with | some c => countNofit p t c.frame | none => t) (dropAll (readLevels s p) p)
  let all := eligibles u p (s.cclk + 40)
  let ex := all.filter (fun x => !isPre u p x.1)
  let set := if ex.isEmpty then all else ex
  (set, pick u p (set.map (fun x => (x.1, countedLen u p (s.cclk + 40) x.2.2))))

/-! ### Ill-formed terms -/

theorem test_wf_refuses_registers :
    List.all (α := Instr)
     [.registerWrite w 0x1002000 4 0,
      .registerWrite w 0 0 0,
      .registerWrite w 0 9 0,
      .pairLoRead w 0,
      .pairHiWrite w 0 0,
      .pairLoWrite w 0 0,
      .ownerWrite w 0xFFF 0,
      .semTasRead w 64,
      .semRelease w 64,
      .commitGo w 65536,
      .errcapClear w 0xFFF,
      .irqClrWrite w 0xFFF 0,
      .irqEnWrite w 0xFFF 0,
      .msixUnmask .a 64,
      .hostLinkUp .a 5 4,
      .hostLinkUp .a 4 3]
      (fun c => !c.wf) = true := by decide

theorem test_wf_refuses_rings :
    List.all (α := Instr)
     [.ringEnable w (.tx .a 32) 1,
      .ringEnable w (.rx .a 32) 1,
      .ringEnable w .upd 0,
      .ringDisable w (.tx .a 32) 0,
      .ringDisable w .upd 1,
      .ringDrained (.rx .a 32),
      .ringTailWrite w (.tx .b 32) 0,
      .ringInterrupt (.tx .b 32),
      .coalTimerExpire (.tx .b 32)]
      (fun c => !c.wf) = true := by decide

theorem test_wf_refuses_host_frames :
    List.all (α := Instr)
     [.txFrameEnter .a 32 [{ addr := 0, len := 64, tc := 0, fence := false, chain := false, launch := false, int := false, tag := 0, launchPos := 0 }] (List.replicate 64 0) false,
      .txFrameEnter .a 0 [] [] false,
      .txFrameEnter .a 0 [{ addr := 0, len := 64, tc := 0, fence := false, chain := true, launch := false, int := false, tag := 0, launchPos := 0 }] (List.replicate 64 0) false,
      .txFrameEnter .a 0 [{ addr := 2 ^ 64, len := 64, tc := 0, fence := false, chain := false, launch := false, int := false, tag := 0, launchPos := 0 }] (List.replicate 64 0) false,
      .txFrameEnter .a 0 [{ addr := 0, len := 2 ^ 14, tc := 0, fence := false, chain := false, launch := false, int := false, tag := 0, launchPos := 0 }] [] true,
      .txFrameEnter .a 0 [{ addr := 0, len := 64, tc := 8, fence := false, chain := false, launch := false, int := false, tag := 0, launchPos := 0 }] (List.replicate 64 0) false,
      .txFrameEnter .a 0 [{ addr := 0, len := 64, tc := 0, fence := false, chain := false, launch := false, int := false, tag := 2 ^ 16, launchPos := 0 }] (List.replicate 64 0) false,
      .txFrameEnter .a 0 [{ addr := 0, len := 64, tc := 0, fence := false, chain := false, launch := false, int := false, tag := 0, launchPos := 0 }] [] false,
      .txLaunch .a 32 0,
      .txLaunch .a 0 8,
      .txCompletion .a 32 0,
      .txCompletion .a 0 8,
      .rxFrameDma .a [{ addr := 2 ^ 64, len := 256, tag := 0 }] false,
      .rxFrameDma .a [{ addr := 0, len := 2 ^ 16, tag := 0 }] false,
      .rxFrameDma .a [{ addr := 0, len := 256, tag := 2 ^ 16 }] false]
      (fun c => !c.wf) = true := by decide

theorem test_wf_refuses_pins :
    List.all (α := Instr)
     [.tickAccepted 2,
      .tickRunt 2,
      .encCount 2,
      .encIndex 2,
      .encBackward 2,
      .encIllegal 2,
      .capEdge 8 true,
      .capNsRead w 8,
      .capStatRead w 8,
      .ppoArm w 16 16,
      .ppoArm w 0 0,
      .ppoFire 16,
      .wakePinAssert 8,
      .supplyFail 13]
      (fun c => !c.wf) = true := by decide

theorem test_wf_refuses_ports :
    List.all (α := Instr)
     [.frameReceive 48 [] false 0 .agree,
      .frameReceive 0 [] false 4 .agree,
      .lossCondition (.port 48) .signal,
      .lossCondition (.sl 2) .signal,
      .lossConditionClear (.port 48) .signal,
      .linkDown (.sl 2),
      .flushDone 52,
      .fdbPortPurge 52,
      .linkUp (.port 48),
      .altModeSwitch 48,
      .mmVerifyResponse 48,
      .mmVerifyTimeout 48,
      .mmFragmentReceive 48 .express [] true true false .agree,
      .tc10SleepReq w 16,
      .tc10WakeReq w 16,
      .tc10SleepRequestRx 16,
      .tc10HandshakeDone 16,
      .tc10SleepFail 16,
      .tc10Wup 16,
      .tc10Wur 16]
      (fun c => !c.wf) = true := by decide

theorem test_wf_refuses_mdio :
    List.all (α := Instr)
     [.mdioC22Write w 4 0 0,
      .mdioC22Write w 0 32 0,
      .mdioC22Write w 0 0 32,
      .mdioC22Read w 4 0 0,
      .mdioC22Read w 0 32 0,
      .mdioC22Read w 0 0 32,
      .mdioC45Write w 4 0 0,
      .mdioC45Write w 0 32 0,
      .mdioC45Write w 0 0 32,
      .mdioC45Read w 4 0 0,
      .mdioC45Read w 0 32 0,
      .mdioC45Read w 0 0 32,
      .mdioDone 4 none,
      .mdioDone 0 (some 65536),
      .sdsPrbsWrite w 32 0,
      .cableTestStart w 16,
      .diagDone 16 0 0,
      .diagDone 0 4 0]
      (fun c => !c.wf) = true := by decide

theorem test_wf_refuses_data_path :
    List.all (α := Instr)
     [.learnRelease 2,
      .loneWaitExpire 16,
      .copyOpen 52 0,
      .copyOpen 0 8,
      .halfRead 16,
      .halfRelease 52 0,
      .halfRelease 0 8,
      .inputLinkWrite 16,
      .txUnderrun 52,
      .egressDecision 52 .agree,
      .lineFree 52,
      .gclEntryBegin 52,
      .gclListBoundary 52,
      .preemptResume 52,
      .gclDataWrite w 52 0,
      .shedReexamine 52,
      .portStall 52]
      (fun c => !c.wf) = true := by decide

theorem test_wf_refuses_can :
    List.all (α := Instr)
     [.canBusIntegrationDone 24,
      .canModeAtIdle 24,
      .canFrameReceived 24 {} 0,
      .canError 24 .tx,
      .canBoRecover w 24,
      .busoffRecovered 24,
      .canPendingWrite 24,
      .canBufferReady 24 0 none,
      .canBufferReady 0 3 none,
      .canSelection 24,
      .canArbLost 24 false,
      .canTxOk 24,
      .canTxsGo w 24,
      .canCancelTag w 24 0,
      .canCancelTag w 0 65536,
      .canCancelAll w 24,
      .canCancelSample 24,
      .canCancelAbort 24,
      .canTxevRead w 24,
      .canRxqPop w 24 0,
      .canRxqPop w 0 2,
      .canWindowOverrun 24,
      .authRsvRaise 1024]
      (fun c => !c.wf) = true := by decide

theorem test_wf_refuses_lin_and_gateway :
    List.all (α := Instr)
     [.linScheduleEntry 8,
      .linHeaderRx 8 0 0,
      .linHeaderRx 0 256 0,
      .linResponseRx 8 [] 0,
      .linResponseRx 0 (List.replicate 9 0) 0,
      .linResponseRx 0 [] 256,
      .linNoResponse 8,
      .linIdleSleep 8,
      .linWakeTx w 8,
      .linWakeDetect 8,
      .gweReinject 4096,
      .batchHoldExpire 64]
      (fun c => !c.wf) = true := by decide

theorem test_wf_refuses_network_time :
    List.all (α := Instr)
     [.ptpSyncRx 2 0 0 true { origin := 0, corr := 0, rate := 0, gmtbi := 0, tlv := 0 } 0,
      .ptpSyncRx 0 48 0 true { origin := 0, corr := 0, rate := 0, gmtbi := 0, tlv := 0 } 0,
      .ptpFollowUpRx 2 0 0 { origin := 0, corr := 0, rate := 0, gmtbi := 0, tlv := 0 },
      .ptpFollowUpRx 0 48 0 { origin := 0, corr := 0, rate := 0, gmtbi := 0, tlv := 0 },
      .fuMissing 2,
      .ptpSyncTimeout 2,
      .ptpHoldExpire 2,
      .ptpSetGo w 2,
      .pdelayReqTx 48,
      .pdelayReqRx 48 0 0 0,
      .pdelayRespRx 48 0 0 0 0,
      .syncRelay 2 0 true { origin := 0, corr := 0, rate := 0, gmtbi := 0, tlv := 0 } 0,
      .followUpTx 2 0,
      .followUpTx 0 48,
      .syncOriginate 2]
      (fun c => !c.wf) = true := by decide

theorem test_wf_refuses_security :
    List.all (α := Instr)
     [.saInstall w 48 (.tx 0) 1,
      .saInstall w 0 (.tx 2) 1,
      .saInstall w 0 (.rx 4 0) 1,
      .saInstall w 0 (.rx 0 2) 1,
      .saInstall w 0 (.tx 0) 0,
      .saRemove w 48 (.tx 0) 0,
      .saRemove w 0 (.rx 4 0) 0,
      .saRemove w 0 (.tx 0) 1,
      .encSaWrite w 48 0,
      .mkpduRx 48 [],
      .mkaHello 48,
      .mkaPeerTimeout 48 0,
      .slRecordRx 2 [],
      .relayFrameRx 48 []]
      (fun c => !c.wf) = true := by decide

theorem test_wf_refuses_lookaside :
    List.all (α := Instr)
     [.aesCtrEnc .mp0 { op := 0x3E } [] false,
      .aesCtrDec .mp0 { op := 0x3E } [] false,
      .aesGcmEnc .mp0 { op := 0x3E } [] false,
      .aesGcmDec .mp0 { op := 0x3E } [] false,
      .aesCmacGen .mp0 { op := 0x3E } [] false,
      .aesCmacVer .mp0 { op := 0x3E } [] false,
      .aesCmacFv .mp0 { op := 0x3E } [] false,
      .aesKwWrap .mp0 { op := 0x3E } [] false,
      .aesKwUnwrap .mp0 { op := 0x3E } [] false,
      .sha256 .mp0 { op := 0x3E } [] false,
      .sha384 .mp0 { op := 0x3E } [] false,
      .hmacSha256 .mp0 { op := 0x3E } [] false,
      .hmacSha384 .mp0 { op := 0x3E } [] false,
      .ecdsaSign .mp0 { op := 0x3E } [] false,
      .ecdsaVerify .mp0 { op := 0x3E } [] false,
      .ecdh .mp0 { op := 0x3E } [] false,
      .drbgGen .mp0 { op := 0x3E } true,
      .drbgReseed .mp0 { op := 0x3E } true,
      .invFence .mp0 { op := 0x01 }]
      (fun c => !c.wf) = true := by decide

theorem test_wf_refuses_faults_and_updates :
    List.all (α := Instr)
     [.scrubPass 12,
      .memInjArm w 0,
      .lspInjOnce w 2,
      .lspInjOnce w 0x80000004,
      .lspInjAsync w 4,
      .lspInjAsync w 0x80000002,
      .lspInjPersist w 6,
      .lspInjPersist w 0x80000002,
      .fltInjGo w 0,
      .windowClose 1025,
      .updWrite { op := 2 } [] false,
      .updFinish { op := 1 },
      .updAbort { op := 1 }]
      (fun c => !c.wf) = true := by decide

/-! ### Single steps -/

/-- What a command leaves, when it answers a next state. -/
def leaves (r : Result) (p : State → Bool) : Bool :=
  match r with
  | .next t => p t
  | .fault _ => false
  | .refused _ => false

/-- Source: the check value of CRC-32, over the digits 1 to 9. -/
theorem test_crc32 : crc32 [0x31, 0x32, 0x33, 0x34, 0x35, 0x36, 0x37, 0x38, 0x39] = 0xCBF43926 := by decide

/-- Source: the check value of CRC-32C, over the digits 1 to 9. -/
theorem test_crc32c : crc32c [0x31, 0x32, 0x33, 0x34, 0x35, 0x36, 0x37, 0x38, 0x39] = 0xE3069283 := by decide

/-- Source: the protected IDs of the frames 0x00, 0x3C and 0x3D in ISO 17987. -/
theorem test_protected_ids : [0x00, 0x3C, 0x3D].map protectedId = [0x80, 0x3C, 0x7D] := by decide

/-- Source: 64 bytes take 512 ns at 1 Gbit/s, and 5,120 ns at 100 Mbit/s. -/
theorem test_byte_times : byteTime 1000 64 = 512 ∧ byteTime 100 64 = 5120 := by decide

/-- Source: spec/01, the unit starts in BOOT. -/
theorem test_reset_is_boot : State.reset.mode = .boot ∧ State.reset.pending = [] := by decide

/-- Source: the idle step is one CCLK cycle (log entry 2). -/
theorem test_idle_step_counts : leaves (step conf) (fun t => t.cclk == 1) = true := by decide

/-- Source: spec/02, a read of SEM_TAS of a free semaphore gives it to the reader, HA with ID 1. -/
theorem test_semaphore_free : leaves (exec (.semTasRead w 63) conf) (fun t => t.fld (aSem 63) 0 4 == 1) = true := by decide

/-- Source: spec/02, a semaphore that another master holds stays with it. -/
theorem test_semaphore_held :
    leaves (exec (.semTasRead { m := .hb } 63) (regsAre conf [(aSem 63, 1)])) (fun t => t.fld (aSem 63) 0 4 == 1) = true := by
  decide

/-- Source: R46, a write of the wrong width changes nothing but the page's error registers. -/
theorem test_width_refused :
    leaves (exec (.registerWrite w 0x20068 2 1) conf) (fun t => t.reg 0x20068 == conf.reg 0x20068) = true := by decide

/-- Source: R5, R6, an RWS write is pending until its commit. -/
theorem test_rws_waits :
    leaves (exec (.registerWrite w 0x2048 4 1) conf)
      (fun t => t.reg 0x2048 == conf.reg 0x2048 && t.shadows == [{ off := 0x2048, val := 1, writer := .ha }]) = true := by
  decide

/-- Source: R5, W1C. -/
theorem test_irq_clear :
    leaves (exec (.irqClrWrite w 4 0x5) (regsAre conf [(regAddr 4 0x10, 0x7)])) (fun t => t.reg (regAddr 4 0x10) == 0x2)
      = true := by decide

/-- Source: an operand that names no part of the HX48 makes a command that does not exist. -/
theorem test_absent_part_refused : exec (.semTasRead w 64) conf = .refused .illFormed := rfl

/-! ### Hypotheses that can be met -/

/-- States and operands that meet the hypotheses of `IdleStepIsOneCclkCycle`, clause by clause. -/
theorem witness_IdleStepIsOneCclkCycle :
    (∃ (s : State), s.pending = []) :=
  ⟨State.reset, by decide⟩

/-- States and operands that meet the hypotheses of `WellFormedCommandsComplete`, clause by clause. -/
theorem witness_WellFormedCommandsComplete :
    (∃ (c : Instr) (s : State), c.wf = true) ∧
    (∃ (c : Instr) (s : State), c.wf = false) :=
  ⟨⟨.powerOn, State.reset, by decide⟩,
   ⟨.semTasRead w 64, State.reset, by decide⟩⟩

/-- States and operands that meet the hypotheses of `EveryStepKeepsTheInvariant`, clause by clause. -/
theorem witness_EveryStepKeepsTheInvariant :
    (∃ (s t : State), Canonical s ∧ step s = .next t) :=
  ⟨State.reset, cclkTick State.reset, (by unfold Canonical; decide), rfl⟩

/-- States and operands that meet the hypotheses of `ProgrammedOtpBitsStay`, clause by clause. -/
theorem witness_ProgrammedOtpBitsStay :
    (∃ (s t : State) (i b : Nat), Canonical s ∧ otpBit s i b ∧ step s = .next t) :=
  ⟨{ State.reset with nvm := { otp := [(0x90, 1)] } }, cclkTick
    { State.reset with nvm := { otp := [(0x90, 1)] } }, 0x90, 0, (by unfold Canonical; decide),
    (by unfold otpBit; decide), rfl⟩

/-- States and operands that meet the hypotheses of `CommandsLeaveTheQueue`, clause by clause. -/
theorem witness_CommandsLeaveTheQueue :
    (∃ (c : Instr) (s t : State), exec c s = .next t) :=
  ⟨.faultReport, State.reset, State.reset, rfl⟩

/-- States and operands that meet the hypotheses of `CommandsChangeOnlyWhatTheyTouch`, clause by clause. -/
theorem witness_CommandsChangeOnlyWhatTheyTouch :
    (∃ (c : Instr) (s t : State), exec c s = .next t) :=
  ⟨.faultReport, State.reset, State.reset, rfl⟩

/-- States and operands that meet the hypotheses of `RefusedWritesAreRecorded`, clause by clause. -/
theorem witness_RefusedWritesAreRecorded :
    (∃ (c : Instr) (s : State) (w : Who) (a : Nat) (v : Word) (p : Nat) (r : Refused), c.wf = true ∧ writeOf c
      = some (w, a, v) ∧ checkWrite s w a 4 v = some (p, r)) :=
  ⟨.commitDiscard w, State.reset, w, aSys 0x040, 2, 0, .modeDenied, by decide, rfl, by decide⟩

/-- States and operands that meet the hypotheses of `ReadsOfNothingReturnZero`, clause by clause. -/
theorem witness_ReadsOfNothingReturnZero :
    (∃ (c : Instr) (s : State) (w : Who) (a : Nat), c.wf = true ∧ readOf c = some (w, a) ∧ (¬ Reaches s w a)) :=
  ⟨.semTasRead { m := .ha, sec := true } 0, State.reset, { m := .ha, sec := true }, aTas 0, by decide, rfl,
    (by unfold Reaches; decide)⟩

/-- States and operands that meet the hypotheses of `FirstCauseOfRefusalIsRecorded`, clause by clause. -/
theorem witness_FirstCauseOfRefusalIsRecorded :
    (∃ (s : State) (w : Who) (a width : Nat) (v : Word), (windowClosed s w = true ∨ noSuchRing w a = true)) ∧
    (∃ (s : State) (w : Who) (a width : Nat) (v : Word), windowClosed s w = false ∧ noSuchRing w a = false ∧
      regDef (a / 4 * 4) = none) ∧
    (∃ (s : State) (w : Who) (a width : Nat) (v : Word) (d : _), windowClosed s w = false ∧ noSuchRing w a =
      false ∧ regDef (a / 4 * 4) = some d) ∧
    (∃ (s : State) (w : Who) (a width : Nat) (v : Word) (p r : _), a < 0x1000000 ∧ 1 ≤ width ∧ width ≤ 8 ∧
      installs a v = none ∧ checkWrite s w a width v = some (p, r)) :=
  ⟨⟨State.reset, { m := .ha, sec := true }, 0x2040, 4, 0, by decide⟩,
   ⟨conf, w, 0x2FF8, 4, 0, by decide, by decide, by decide⟩,
   ⟨State.reset, w, 0x2041, 2, 0, _, by decide, by decide, rfl⟩,
   ⟨State.reset, w, 0x2040, 2, 0, _, _, by decide, by decide, by decide, by decide, rfl⟩⟩

/-- States and operands that meet the hypotheses of `RegisterWriteActsByType`, clause by clause. -/
theorem witness_RegisterWriteActsByType :
    (∃ (s : State) (w : Who) (a : Nat) (v : Word) (d : RegDef), addrOk a = true ∧ regDef a = some d ∧ d.half =
      .none ∧ a / 0x1000 ∈ [pWake, pPb, pTue, pPl 0, pPl 1, pFw, pSfp, pFab, pBuf] ∧ 0x040 ≤ a % 0x1000 ∧
      Passes s w a v ∧ d.ty = .rw) ∧
    (∃ (s : State) (w : Who) (a : Nat) (v : Word) (d : RegDef), addrOk a = true ∧ regDef a = some d ∧ d.half =
      .none ∧ a / 0x1000 ∈ [pWake, pPb, pTue, pPl 0, pPl 1, pFw, pSfp, pFab, pBuf] ∧ 0x040 ≤ a % 0x1000 ∧
      Passes s w a v ∧ d.ty = .rws) ∧
    (∃ (s : State) (w : Who) (a : Nat) (v : Word) (d : RegDef), addrOk a = true ∧ regDef a = some d ∧ d.half =
      .none ∧ a / 0x1000 ∈ [pWake, pPb, pTue, pPl 0, pPl 1, pFw, pSfp, pFab, pBuf] ∧ 0x040 ≤ a % 0x1000 ∧
      Passes s w a v ∧ d.ty = .w1c) :=
  ⟨⟨conf, w, 0x20068, 1, _, by decide, rfl, by decide, by decide, by decide, (by unfold Passes; decide), by decide⟩,
   ⟨conf, w, 0x2040, 1, _, by decide, rfl, by decide, by decide, by decide, (by unfold Passes; decide), by decide⟩,
   ⟨conf, w, 0x2054, 1, _, by decide, rfl, by decide, by decide, by decide, (by unfold Passes; decide), by decide⟩⟩

/-- States and operands that meet the hypotheses of `ShadowReplacesTheEarlierOne`, clause by clause. -/
theorem witness_ShadowReplacesTheEarlierOne :
    (∃ (s : State) (w : Who) (a : Nat) (v : Word) (d : RegDef), addrOk a = true ∧ regDef a = some d ∧ d.half =
      .none ∧ d.ty = .rws ∧ a / 0x1000 ∈ [pWake, pPb, pTue, pPl 0, pPl 1, pFw, pSfp, pFab, pBuf] ∧ 0x040 ≤
      a % 0x1000 ∧ Passes s w a v) :=
  ⟨conf, w, 0x2040, 1, _, by decide, rfl, by decide, by decide, by decide, by decide,
    (by unfold Passes; decide)⟩

/-- States and operands that meet the hypotheses of `PairsAreReadAndWrittenWhole`, clause by clause. -/
theorem witness_PairsAreReadAndWrittenWhole :
    (∃ (s : State) (w : Who) (a : Nat), loOk a = true ∧ timeNsAt a = false ∧ Reaches s w a) ∧
    (∃ (s : State) (w : Who) (d : Nat), d < 2 ∧ Reaches s w (aDom d 0x24)) ∧
    (∃ (s : State) (w : Who) (a : Nat) (v : Word), hiOk a = true ∧ Passes s w a v) ∧
    (∃ (s : State) (w : Who) (a : Nat) (v : Word) (d e : RegDef), regDef a = some d ∧ regDef (a + 4) = some e
      ∧ d.half = .lo ∧ d.ty = .rw ∧ e.ty = .rw ∧ ((a / 0x1000 = pGpio ∧ a % 0x10 = 8) ∨ (a / 0x1000 = pPtp
      ∧ a % 0x10 = 12)) ∧ 0x040 ≤ a % 0x1000 ∧ a % 0x1000 < 0xFF0 ∧ Passes s w a v) :=
  ⟨⟨conf, w, 0xB060, by decide, by decide, (by unfold Reaches; decide)⟩,
   ⟨conf, w, 1, by decide, (by unfold Reaches; decide)⟩,
   ⟨conf, w, 0xD10C, 7, by decide, (by unfold Passes; decide)⟩,
   ⟨conf, w, 0xD108, 7, _, _, rfl, rfl, by decide, by decide, by decide, by decide, by decide, by decide,
    (by unfold Passes; decide)⟩⟩

/-- States and operands that meet the hypotheses of `CommonRegistersOfAPage`, clause by clause. -/
theorem witness_CommonRegistersOfAPage :
    (∃ (s : State) (w : Who) (p : Nat) (v : Word), pageOk p = true ∧ Passes s w (regAddr p 0x20) v) ∧
    (∃ (s : State) (w : Who) (p : Nat), pageOk p = true ∧ Passes s w (regAddr p 0x28) 0x8000) ∧
    (∃ (s : State) (w : Who) (p : Nat) (v : Word), pageOk p = true ∧ Passes s w (regAddr p 0x1C) v) ∧
    (∃ (s : State) (w : Who) (p : Nat) (v : Word), pageOk p = true ∧ p ≠ pSilt ∧ Passes s w (regAddr p 0x14)
      v) ∧
    (∃ (s : State) (h : HostPort) (v : Nat), v < 64) :=
  ⟨⟨conf, w, 0, 1, by decide, (by unfold Passes; decide)⟩,
   ⟨conf, w, 0, by decide, (by unfold Passes; decide)⟩,
   ⟨conf, w, 0, 1, by decide, (by unfold Passes; decide)⟩,
   ⟨conf, w, 0, 1, by decide, by decide, (by unfold Passes; decide)⟩,
   ⟨conf, .a, 63, by decide⟩⟩

/-- States and operands that meet the hypotheses of `SemaphoreRead`, clause by clause. -/
theorem witness_SemaphoreRead :
    (∃ (s : State) (w : Who) (n : Nat), n < 64 ∧ Reaches s w (aTas n) ∧ Performs s w (aTas n)) :=
  ⟨conf, w, 63, by decide, (by unfold Reaches; decide), (by unfold Performs; simp [w])⟩

/-- States and operands that meet the hypotheses of `SemaphoreRelease`, clause by clause. -/
theorem witness_SemaphoreRelease :
    (∃ (s : State) (w : Who) (n : Nat), n < 64 ∧ Passes s w (aTas n) 0) :=
  ⟨conf, w, 63, by decide, (by unfold Passes; decide)⟩

/-- States and operands that meet the hypotheses of `CommitsRunTheirCourse`, clause by clause. -/
theorem witness_CommitsRunTheirCourse :
    (∃ (s : State) (w : Who) (tag : Nat), tag < 2 ^ 16 ∧ Passes s w (aSys 0x040) (w32 (1 + tag * 2 ^ 16)) ∧
      s.commits = [] ∧ (isHost w.m && siltFull s) = false) ∧
    (∃ (s : State) (w : Who) (tag : Nat), tag < 2 ^ 16 ∧ Passes s w (aSys 0x040) (w32 (1 + tag * 2 ^ 16)) ∧ 2
      ≤ s.commits.length) ∧
    (∃ (s : State) (pt : CommitPoint) (ft ak : Bool) (p : CommitPart), s.commits =
      [{ point := pt, parts := [p], fromTwin := ft, acked := ak }] ∧ p.checked = false ∧ partCheck s
      (checkView s [] p) p.id = none ∧ s.twin.role ≠ .active) ∧
    (∃ (s : State) (pt : CommitPoint) (ft ak : Bool) (p : CommitPart) (code page : _), s.commits =
      [{ point := pt, parts := [p], fromTwin := ft, acked := ak }] ∧ p.checked = false ∧ partCheck s
      (checkView s [] p) p.id = some (code, page)) :=
  ⟨⟨actv, w, 65535, by decide, (by unfold Passes; decide), by decide, by decide⟩,
   ⟨{ actv with commits := [{ point := .cycle 0, parts := [] }, { point := .sync 0, parts := [] }] }, w, 1, by decide,
    (by unfold Passes; decide), by decide⟩,
   ⟨{ stby with commits := [{ point := .cycle 0, parts := [{ id := 0, writer := .ha, tag := 5, goAt := 0, vals := [] }], fromTwin := false, acked := false }] },
    .cycle 0, false, false, { id := 0, writer := .ha, tag := 5, goAt := 0, vals := [] }, by decide, by decide,
    by decide, by decide⟩,
   ⟨{ regsAre stby [(aPb 0x048, 0x3FFFFFFF)] with commits := [{ point := .cycle 0, parts := [{ id := 0, writer := .ha, tag := 5, goAt := 0, vals := [] }], fromTwin := false, acked := false }] },
    .cycle 0, false, false, { id := 0, writer := .ha, tag := 5, goAt := 0, vals := [] }, ccCheck, pPb, by decide,
    by decide, by decide⟩⟩

/-- States and operands that meet the hypotheses of `DiscardClearsWhatIsPending`, clause by clause. -/
theorem witness_DiscardClearsWhatIsPending :
    (∃ (s : State) (w : Who), Passes s w (aSys 0x040) 2 ∧ discardCount s = 0) ∧
    (∃ (s : State) (w : Who), Passes s w (aSys 0x040) 2 ∧ discardCount s ≠ 0 ∧ (isHost w.m && siltFull s) =
      true) ∧
    (∃ (s : State) (w : Who), Passes s w (aSys 0x040) 2 ∧ discardCount s ≠ 0 ∧ (isHost w.m && siltFull s) =
      false) :=
  ⟨⟨actv, w, (by unfold Passes; decide), by decide⟩,
   ⟨regsAre { actv with shadows := [{ off := 0x2040, val := 1, writer := .ha }] } [(aSilt 0x048, 0x10000)], w,
    (by unfold Passes; decide), by decide, by decide⟩,
   ⟨{ actv with shadows := [{ off := 0x2040, val := 1, writer := .ha }] }, w, (by unfold Passes; decide), by decide,
    by decide⟩⟩

/-- States and operands that meet the hypotheses of `HostLinksAndRings`, clause by clause. -/
theorem witness_HostLinksAndRings :
    (∃ (s : State) (h : HostPort), asleep s.mode = false) ∧
    (∃ (s : State) (h : HostPort) (speed width : Nat), hostLinkOk speed width = true ∧ asleep s.mode = false) ∧
    (∃ (s : State) (w : Who) (r : RingId) (v : Word), ringOk r = true ∧ bit v.toNat 0 = true ∧ ringEn s r =
      false ∧ Passes s w (ringBase r + 8) v) ∧
    (∃ (s : State) (w : Who) (r : RingId) (v : Word), ringOk r = true ∧ bit v.toNat 0 = false ∧ ringEn s r =
      true ∧ Passes s w (ringBase r + 8) v) ∧
    (∃ (s : State) (r : RingId), ringOk r = true ∧ (s.ring r).draining = true ∧ ringIdle s r = true) ∧
    (∃ (s : State) (w : Who) (r : RingId) (v : Word), ringOk r = true ∧ Passes s w (ringBase r + 0x14) v) :=
  ⟨⟨actv, .a, by decide⟩,
   ⟨actv, .a, 4, 4, by decide, by decide⟩,
   ⟨conf, w, .tx .a 31, 0x10D, by decide, by decide, by decide, (by unfold Passes; decide)⟩,
   ⟨regsAre conf [(ringBase (.tx .a 31) + 8, 0x10D)], w, .tx .a 31, 0x10C, by decide, by decide, by decide,
    (by unfold Passes; decide)⟩,
   ⟨conf.setRing (.tx .a 0) { draining := true }, .tx .a 0, by decide, by decide, by decide⟩,
   ⟨regsAre conf [(ringBase (.tx .a 31) + 8, 0x10D)], w, .tx .a 31, 1, by decide, (by unfold Passes; decide)⟩⟩

/-- States and operands that meet the hypotheses of `FramesOfAHost`, clause by clause. -/
theorem witness_FramesOfAHost :
    (∃ (s : State) (h : HostPort) (k : Nat) (ds : List TxDesc) (bs : List Byte) (fault : Bool), k < 32 ∧
      txFrameOk ds bs fault = true ∧ txCan s h k ds = false) ∧
    (∃ (s : State) (h : HostPort) (k : Nat) (ds : List TxDesc) (bs : List Byte) (fault : Bool) (st : Nat), k <
      32 ∧ txFrameOk ds bs fault = true ∧ txCan s h k ds = true ∧ txLimit ds = st ∧ st ≠ 0) ∧
    (∃ (s : State) (h : HostPort) (k : Nat) (ds : List TxDesc) (bs : List Byte) (fault : Bool), k < 32 ∧
      txFrameOk ds bs fault = true ∧ txCan s h k ds = true ∧ txLimit ds = 0 ∧ fault = true) ∧
    (∃ (s : State) (h : HostPort) (k : Nat) (ds : List TxDesc) (bs : List Byte) (x : TxFrame), k < 32 ∧
      txFrameOk ds bs false = true ∧ txCan s h k ds = true ∧ txLimit ds = 0 ∧ (s.ring (.tx h
      k)).flight.any (txWaits (txTc ds)) = false ∧ x =
      { descs := ds, bytes := bs, waiting := true, frame := none, took := s.cclk } ∧ launchReached s
      { x with early := launchAhead s x } = true ∧ entryOpen s (hostPortNo h) = true ∧ txCandidates s h =
      []) ∧
    (∃ (s : State) (h : HostPort) (k : Nat) (ds : List TxDesc) (bs : List Byte) (x : TxFrame), k < 32 ∧
      txFrameOk ds bs false = true ∧ txCan s h k ds = true ∧ txLimit ds = 0 ∧ (s.ring (.tx h
      k)).flight.any (txWaits (txTc ds)) = false ∧ x =
      { descs := ds, bytes := bs, waiting := true, frame := none, took := s.cclk } ∧ launchReached s
      { x with early := launchAhead s x } = false) ∧
    (∃ (s : State) (h : HostPort) (k tc : Nat), k < 32 ∧ tcOk tc = true ∧ (txFirst s h k tc = none ∨ entryOpen
      s (hostPortNo h) = false)) ∧
    (∃ (s : State) (h : HostPort) (k tc : Nat) (x : _), k < 32 ∧ tcOk tc = true ∧ txFirst s h k tc = some x ∧
      entryOpen s (hostPortNo h) = true) ∧
    (∃ (s : State) (h : HostPort) (k n : Nat) (x : TxFrame) (dropped : Bool), k < 32 ∧ n < 8 ∧ (s.ring (.tx h
      k)).flight[n]? = some x ∧ x.verdict = some dropped ∧ s.cclk < x.lastAt) ∧
    (∃ (s : State) (h : HostPort) (k n : Nat) (x : TxFrame) (dropped : Bool), k < 32 ∧ n < 8 ∧ (s.ring (.tx h
      k)).flight[n]? = some x ∧ x.verdict = some dropped ∧ x.lastAt ≤ s.cclk) ∧
    (∃ (s : State) (h : HostPort) (k : Nat) (x : RxWait) (rest : List RxWait) (fault : Bool), rxNext s h =
      some k ∧ (s.ring (.rx h k)).rxWait = x :: rest ∧ ringEn s (.rx h k) = false) ∧
    (∃ (s : State) (h : HostPort) (k : Nat) (x : RxWait) (rest : List RxWait) (bufs : List RxDesc) (fault :
      Bool), bufs.all rxDescFits = true ∧ bufs.all rxDescOk = true ∧ rxNext s h = some k ∧ (s.ring (.rx h
      k)).rxWait = x :: rest ∧ ringEn s (.rx h k) = true ∧ bufs.length ≤ ringPosted s (.rx h k) ∧ rxNeed x
      ≤ bufs.foldl (fun n d => n + d.len) 0) ∧
    (∃ (s : State) (h : HostPort) (k : Nat) (x : RxWait) (rest : List RxWait) (bufs : List RxDesc) (fault :
      Bool), bufs.all rxDescFits = true ∧ bufs.all rxDescOk = true ∧ rxNext s h = some k ∧ (s.ring (.rx h
      k)).rxWait = x :: rest ∧ ringEn s (.rx h k) = true ∧ bufs.length = ringPosted s (.rx h k) ∧
      bufs.foldl (fun n d => n + d.len) 0 < rxNeed x) ∧
    (∃ (s : State) (h : HostPort) (bufs : List RxDesc) (fault : Bool), bufs.all rxDescFits = true) ∧
    (∃ (s : State) (r : RingId) (c : Instr), ringOk r = true ∧ ((c = .ringInterrupt r ∧ (s.ring r).due = true)
      ∨ (c = .coalTimerExpire r ∧ ∃ at_, (s.ring r).timer = some at_ ∧ at_ ≤ s.cclk))) ∧
    (∃ (s : State) (r : RingId) (c : Instr), ringOk r = true ∧ (s.ring r).due = false) ∧
    (∃ (s : State) (r : RingId) (c : Instr), ringOk r = true ∧ (s.ring r).timer = none) :=
  ⟨⟨actv, .a, 31,
    [{ addr := 0x1000, len := 64, tc := 2, fence := false, chain := false, launch := false, int := false, tag := 7, launchPos := 0 }],
    List.replicate 64 0xAB, false, by decide, by decide, by decide⟩,
   ⟨regsAre actv [(ringBase (.tx .a 31) + 8, 0x10D), (ringBase (.tx .a 31) + 0x14, 1)], .a, 31,
    [{ addr := 0x1000, len := 13, tc := 2, fence := false, chain := false, launch := false, int := false, tag := 7, launchPos := 0 }],
    List.replicate 13 0xAB, false, _, by decide, by decide, by decide, rfl, by decide⟩,
   ⟨regsAre actv [(ringBase (.tx .a 31) + 8, 0x10D), (ringBase (.tx .a 31) + 0x14, 1)], .a, 31,
    [{ addr := 0x1000, len := 64, tc := 2, fence := false, chain := false, launch := false, int := false, tag := 7, launchPos := 0 }],
    [], true, by decide, by decide, by decide, by decide, by decide⟩,
   ⟨regsAre actv [(ringBase (.tx .a 31) + 8, 0x10D), (ringBase (.tx .a 31) + 0x14, 1)], .a, 31,
    [{ addr := 0x1000, len := 64, tc := 2, fence := false, chain := false, launch := false, int := false, tag := 7, launchPos := 0 }],
    List.replicate 64 0xAB,
    { descs := [{ addr := 0x1000, len := 64, tc := 2, fence := false, chain := false, launch := false, int := false, tag := 7, launchPos := 0 }], bytes := List.replicate 64 0xAB, waiting := true, frame := none },
    by decide, by decide, by decide, by decide, by decide, by decide, by decide, by decide, by decide⟩,
   ⟨regsAre actv [(ringBase (.tx .a 31) + 8, 0x10D), (ringBase (.tx .a 31) + 0x14, 1)], .a, 31,
    [{ addr := 0x1000, len := 64, tc := 2, fence := false, chain := false, launch := true, int := false, tag := 7, launchPos := 0xFFFFFFFF }],
    List.replicate 64 0xAB,
    { descs := [{ addr := 0x1000, len := 64, tc := 2, fence := false, chain := false, launch := true, int := false, tag := 7, launchPos := 0xFFFFFFFF }], bytes := List.replicate 64 0xAB, waiting := true, frame := none },
    by decide, by decide, by decide, by decide, by decide, by decide, by decide⟩,
   ⟨actv, .a, 31, 2, by decide, by decide, by decide⟩,
   ⟨actv.setRing (.tx .a 31)
    { flight := [{ descs := [{ addr := 0x1000, len := 64, tc := 2, fence := false, chain := false, launch := false, int := false, tag := 7, launchPos := 0 }], bytes := List.replicate 64 0xAB, waiting := true, frame := none }] },
    .a, 31, 2,
    { descs := [{ addr := 0x1000, len := 64, tc := 2, fence := false, chain := false, launch := false, int := false, tag := 7, launchPos := 0 }], bytes := List.replicate 64 0xAB, waiting := true, frame := none },
    by decide, by decide, by decide, by decide⟩,
   ⟨actv.setRing (.tx .a 31)
    { flight := [{ descs := [{ addr := 0x1000, len := 64, tc := 2, fence := false, chain := false, launch := false, int := false, tag := 7, launchPos := 0 }], bytes := List.replicate 64 0xAB, waiting := true, frame := none, verdict := some false, lastAt := 5 }] },
    .a, 31, 0,
    { descs := [{ addr := 0x1000, len := 64, tc := 2, fence := false, chain := false, launch := false, int := false, tag := 7, launchPos := 0 }], bytes := List.replicate 64 0xAB, waiting := true, frame := none, verdict := some false, lastAt := 5 },
    false, by decide, by decide, by decide, by decide, by decide⟩,
   ⟨actv.setRing (.tx .a 31)
    { flight := [{ descs := [{ addr := 0x1000, len := 64, tc := 2, fence := false, chain := false, launch := false, int := false, tag := 7, launchPos := 0 }], bytes := List.replicate 64 0xAB, waiting := false, frame := none, verdict := some true }] },
    .a, 31, 0,
    { descs := [{ addr := 0x1000, len := 64, tc := 2, fence := false, chain := false, launch := false, int := false, tag := 7, launchPos := 0 }], bytes := List.replicate 64 0xAB, waiting := false, frame := none, verdict := some true },
    true, by decide, by decide, by decide, by decide, by decide⟩,
   ⟨actv.setRing (.rx .a 31)
    { rxWait := [{ at_ := 0, tc := 2, bytes := List.replicate 64 0xAB, frame := {} }] }, .a, 31,
    { at_ := 0, tc := 2, bytes := List.replicate 64 0xAB, frame := {} }, [], true, by decide, by decide, by decide⟩,
   ⟨(regsAre actv [(ringBase (.rx .a 31) + 8, 0x10D), (ringBase (.rx .a 31) + 0x14, 1)]).setRing (.rx .a 31)
    { rxWait := [{ at_ := 0, tc := 2, bytes := List.replicate 64 0xAB, frame := {} }] }, .a, 31,
    { at_ := 0, tc := 2, bytes := List.replicate 64 0xAB, frame := {} }, [],
    [{ addr := 0x4000, len := 256, tag := 3 }], false, by decide, by decide, by decide, by decide, by decide,
    by decide, by decide⟩,
   ⟨(regsAre actv [(ringBase (.rx .a 31) + 8, 0x10D), (ringBase (.rx .a 31) + 0x14, 1)]).setRing (.rx .a 31)
    { rxWait := [{ at_ := 0, tc := 2, bytes := List.replicate 300 0xAB, frame := {} }] }, .a, 31,
    { at_ := 0, tc := 2, bytes := List.replicate 300 0xAB, frame := {} }, [],
    [{ addr := 0x4000, len := 256, tag := 3 }], false, by decide, by decide, by decide, by decide, by decide,
    by decide, by decide⟩,
   ⟨actv, .a, [{ addr := 0x4001, len := 256, tag := 3 }], false, by decide⟩,
   ⟨actv.setRing .upd { due := true }, .upd, .ringInterrupt .upd, by decide, .inl ⟨rfl, by decide⟩⟩,
   ⟨actv, .upd, .ringInterrupt .upd, by decide, by decide⟩,
   ⟨actv, .tue .b, .coalTimerExpire (.tue .b), by decide, by decide⟩⟩

/-- States and operands that meet the hypotheses of `MailboxRequests`, clause by clause. -/
theorem witness_MailboxRequests :
    (∃ (s : State) (h : HostPort), mbxFront s h 1 = true ∧ s.mode ≠ .quarantine ∧ s.mode ≠ .boot ∧ asleep
      s.mode = false ∧ mbxLen s h = 0) ∧
    (∃ (s : State) (h : HostPort) (deep : Bool), mbxFront s h 2 = true ∧ s.mode ≠ .quarantine ∧ s.mode ≠ .boot
      ∧ asleep s.mode = false ∧ mbxLen s h = 2 ∧ s.power.entry = none ∧ mbxByte s h 8 = (if deep then 2
      else 1) ∧ sleepRefusal s deep (bit (mbxByte s h 9) 0) = 0) ∧
    (∃ (s : State) (h : HostPort), mbxFront s h 2 = true ∧ s.mode ≠ .quarantine ∧ s.mode ≠ .boot ∧ asleep
      s.mode = false ∧ mbxLen s h = 2 ∧ s.power.entry = none ∧ mbxByte s h 8 = 3 ∧ s.mode = .configure) ∧
    (∃ (s : State) (h : HostPort), mbxFront s h 2 = true ∧ s.mode ≠ .quarantine ∧ s.mode ≠ .boot ∧ asleep
      s.mode = false ∧ mbxLen s h = 2 ∧ s.power.entry = none ∧ mbxByte s h 8 = 4) ∧
    (∃ (s : State) (h : HostPort), mbxFront s h 2 = true ∧ s.mode ≠ .quarantine ∧ s.mode ≠ .boot ∧ asleep
      s.mode = false ∧ mbxLen s h = 2 ∧ s.power.entry = none ∧ mbxByte s h 8 = 5 ∧ s.mode = .configure ∧
      s.power.runWait = true) ∧
    (∃ (s : State) (h : HostPort), mbxFront s h 3 = true ∧ s.mode ≠ .quarantine ∧ s.mode ≠ .boot ∧ asleep
      s.mode = false ∧ mbxLen s h = 2 ∧ s.faults.testBusy = false ∧ mbxByte s h 8 % 4 = 0) ∧
    (∃ (s : State) (h : HostPort), mbxFront s h 7 = true ∧ s.mode ≠ .quarantine ∧ s.mode ≠ .boot ∧ asleep
      s.mode = false ∧ mbxLen s h = 0 ∧ keyValid (s.keySlot 0) = true ∧ pairOk s true = true) :=
  ⟨⟨asks conf 1 0 0 0, .a, by decide, by decide, by decide, by decide, by decide⟩,
   ⟨asks conf 2 2 2 1, .a, true, by decide, by decide, by decide, by decide, by decide, by decide, by decide,
    by decide⟩,
   ⟨asks conf 2 2 3 0, .a, by decide, by decide, by decide, by decide, by decide, by decide, by decide, by decide⟩,
   ⟨asks conf 2 2 4 0, .a, by decide, by decide, by decide, by decide, by decide, by decide, by decide⟩,
   ⟨{ asks conf 2 2 5 0 with power := { runWait := true } }, .a, by decide, by decide, by decide, by decide, by decide,
    by decide, by decide, by decide, by decide⟩,
   ⟨asks conf 3 2 0 0, .a, by decide, by decide, by decide, by decide, by decide, by decide, by decide⟩,
   ⟨(asks conf 7 0 0 0).setKeySlot 0 { attr := 1 }, .a, by decide, by decide, by decide, by decide, by decide,
    by decide, by decide⟩⟩

/-- States and operands that meet the hypotheses of `SiltCheckpointsAndAcks`, clause by clause. -/
theorem witness_SiltCheckpointsAndAcks :
    (∃ (s : State) (last : Nat) (chain : BitVec 256) (rest : List (Nat × BitVec 256)), s.silt.due = (last,
      chain) :: rest ∧ keyValid (s.keySlot 0) = true ∧ pairOk s true = true ∧ last < 2 ^ 32) ∧
    (∃ (s : State) (w : Who) (h : HostPort) (v : Word), Passes s w (aAck h) v) :=
  ⟨⟨({ conf with silt := { due := [(4095, 7)] } }).setKeySlot 0 { attr := 1 }, 4095, 7, [], by decide, by decide,
    by decide, by decide⟩,
   ⟨conf, w, .a, 0, (by unfold Passes; decide)⟩⟩

/-- States and operands that meet the hypotheses of `PhaseBaseEvents`, clause by clause. -/
theorem witness_PhaseBaseEvents :
    (∃ (s : State), asleep s.mode = false ∧ willCross (completeCycle s) = true) ∧
    (∃ (s : State), forcedDue s = true) ∧
    (∃ (s : State), joinEnds s = true) ∧
    (∃ (s : State), s.pb.src = 0 ∧ domValid s (pbDomain s) = true ∧ s.pb.state = .unlocked) ∧
    (∃ (s : State), s.pb.src = 0 ∧ domValid s (pbDomain s) = true ∧ s.pb.state ≠ .unlocked ∧ s.pb.join =
      false) ∧
    (∃ (s : State), s.pb.src = 0 ∧ domValid s (pbDomain s) = false) ∧
    (∃ (s : State) (j : Nat), twoOk j = true) ∧
    (∃ (s : State), tickOverdue s = true ∧ s.pb.state = .locked) ∧
    (∃ (s : State), stillDue s = true) :=
  ⟨⟨{ actv with pb := { state := .locked, src := 3, acc := 0xFFFFFFFFFFFFFF, rate := 2 } }, by decide, by decide⟩,
   ⟨{ actv with pb := { state := .locked }, cclk := 10000000 }, by decide⟩,
   ⟨{ actv with pb := { src := 1, join := true, joinMark := true, acc := 0xFFFFFFFF000000 } }, by decide⟩,
   ⟨actv.setDom 0 { state := .locked }, by decide, by decide, by decide⟩,
   ⟨{ actv.setDom 0 { state := .locked } with pb := { state := .locked } }, by decide, by decide, by decide, by decide⟩,
   ⟨actv, by decide, by decide⟩,
   ⟨actv, 1, by decide⟩,
   ⟨{ actv with pb := { src := 1, state := .locked, lastT := some 0, rate := 0x10000000000 }, cclk := 1000000 },
    by decide, by decide⟩,
   ⟨{ regsAre (actv.setEnc 0 { lastAt := some 0 }) [(aPb 0x058, 0x10000)] with pb := { src := 2, state := .locked }, cclk := 1000 },
    by decide⟩⟩

/-- States and operands that meet the hypotheses of `GpioChannels`, clause by clause. -/
theorem witness_GpioChannels :
    (∃ (s : State) (m : Nat), twoOk m = true ∧ bit (encCfg s m) 0 = false) ∧
    (∃ (s : State) (m : Nat), twoOk m = true ∧ bit (encCfg s m) 0 = true ∧ encRef s m = true ∧ s.pb.reverse =
      false) ∧
    (∃ (s : State) (m : Nat), twoOk m = true ∧ bit (encCfg s m) 0 = true ∧ encRef s m = true) ∧
    (∃ (s : State) (m : Nat), twoOk m = true ∧ bit (encCfg s m) 0 = true ∧ encRef s m = false) ∧
    (∃ (s : State) (m : Nat), twoOk m = true ∧ bit (encCfg s m) 0 = true ∧ encRef s m = false ∧ encByCount s m
      = false) ∧
    (∃ (s : State) (n : Nat) (rising : Bool), capOk n = true ∧ capTakes s n rising = true) ∧
    (∃ (s : State) (w : Who) (n : Nat) (e : CapEntry) (rest : List CapEntry), capOk n = true ∧ Reaches s w
      (aGpio (0x208 + 0x20 * n)) ∧ Performs s w (aGpio (0x208 + 0x20 * n)) ∧ (s.cap n).fifo = e :: rest) ∧
    (∃ (s : State) (w : Who) (n : Nat), capOk n = true ∧ Reaches s w (aGpio (0x204 + 0x20 * n))) ∧
    (∃ (s : State) (n : Nat) (a : PulseArm), ppoOk n = true ∧ ppoDue s n = true ∧ (s.ppo n).armed = some a) ∧
    (∃ (s : State) (w : Who) (n : Nat) (v : Word), ppoOk n = true ∧ bit v.toNat 4 = true ∧ bits v.toNat 0 2 ≠
      0 ∧ Passes s w (aGpio (0x100 + 0x10 * n)) v) :=
  ⟨⟨actv, 1, by decide, by decide⟩,
   ⟨{ regsAre actv [(aGpio 0x320, 1)] with pb := { src := 2, sel := true } }, 1, by decide, by decide, by decide,
    by decide⟩,
   ⟨{ regsAre actv [(aGpio 0x320, 1)] with pb := { src := 2, sel := true } }, 1, by decide, by decide, by decide⟩,
   ⟨regsAre actv [(aGpio (0x300 + 0x20 * 1), 1)], 1, by decide, by decide, by decide⟩,
   ⟨regsAre actv [(aGpio (0x300 + 0x20 * 1), 1)], 1, by decide, by decide, by decide, by decide⟩,
   ⟨regsAre actv [(aGpio 0x200, 1)], 0, true, by decide, by decide⟩,
   ⟨actv.setCap 1 { fifo := [{ sec := 1, ns := 2, pos := 3, rising := true }] }, w, 1,
    { sec := 1, ns := 2, pos := 3, rising := true }, [], by decide, (by unfold Reaches; decide),
    (by unfold Performs; simp [w]), by decide⟩,
   ⟨actv, w, 1, by decide, (by unfold Reaches; decide)⟩,
   ⟨{ actv.setPpo 15 { armed := some { at_ := 0, late := true, per := 0, armedAt := 0 } } with pb := { state := .locked }, cclk := 9 },
    15, { at_ := 0, late := true, per := 0, armedAt := 0 }, by decide, by decide, by decide⟩,
   ⟨{ conf with pb := { state := .locked } }, w, 15, 0x111, by decide, by decide, by decide,
    (by unfold Passes; decide)⟩⟩

/-- States and operands that meet the hypotheses of `PortsAndTheirLinks`, clause by clause. -/
theorem witness_PortsAndTheirLinks :
    (∃ (s : State) (p : Nat) (bs : List Byte) (abort : Bool) (sub : Nat) (cmp : PipeCmp) (k : Nat), macOk p =
      true ∧ sub < 4 ∧ portUp s p = true ∧ macVerdict (s.fld (aMac p 0x044) 0 14) bs abort = .discard k) ∧
    (∃ (s : State) (p : Nat) (bs : List Byte) (abort : Bool) (sub : Nat) (cmp : PipeCmp) (k out fcs : _),
      macOk p = true ∧ sub < 4 ∧ portUp s p = true ∧ macVerdict (s.fld (aMac p 0x044) 0 14) bs abort =
      .bad k out fcs) ∧
    (∃ (s : State) (p : Nat) (bs : List Byte) (abort : Bool) (sub : Nat) (cmp : PipeCmp), macOk p = true ∧ sub
      < 4 ∧ portUp s p = true ∧ macVerdict (s.fld (aMac p 0x044) 0 14) bs abort = .good) ∧
    (∃ (s : State) (p : Nat) (bs : List Byte) (last crcOk abort : Bool) (cmp : PipeCmp), macOk p = true ∧
      portUp s p = true) ∧
    (∃ (s : State) (p : Nat) (bs : List Byte) (last crcOk abort : Bool) (cmp : PipeCmp) (no : Nat), macOk p =
      true ∧ portUp s p = true ∧ p < 32 ∧ s.bitAt (aMac p 0x050) 0 = true ∧ (s.mac p).partial_ = none ∧
      last = false ∧ crcOk = true ∧ abort = false) ∧
    (∃ (s : State) (p : Nat) (bs : List Byte) (last crcOk abort : Bool) (cmp : PipeCmp) (x : _), macOk p =
      true ∧ portUp s p = true ∧ p < 32 ∧ s.bitAt (aMac p 0x050) 0 = true ∧ (s.mac p).partial_ = some x ∧
      abort = false ∧ last = false ∧ crcOk = true) ∧
    (∃ (s : State) (p : Nat) (bs : List Byte) (last crcOk abort : Bool) (cmp : PipeCmp) (x : _), macOk p =
      true ∧ portUp s p = true ∧ p < 32 ∧ s.bitAt (aMac p 0x050) 0 = true ∧ (s.mac p).partial_ = some x ∧
      abort = false ∧ last = true) ∧
    (∃ (s : State) (p : Nat) (bs : List Byte) (last crcOk abort : Bool) (cmp : PipeCmp) (no frag : Nat), macOk
      p = true ∧ portUp s p = true ∧ p < 32 ∧ s.bitAt (aMac p 0x050) 0 = true ∧ (s.mac p).partial_ = none) ∧
    (∃ (s : State) (l : LinkId) (k : LossKind), linkOk l = true ∧ (s.mac (linkKey l)).link = .up ∧ (s.mac
      (linkKey l)).loss = [] ∧ sgmiiWord s (linkKey l) k = false) ∧
    (∃ (s : State) (l : LinkId) (k : LossKind), linkOk l = true ∧ (s.mac (linkKey l)).loss.contains k = true ∧
      sgmiiWord s (linkKey l) k = false) ∧
    (∃ (s : State) (l : LinkId) (k : LossKind), linkOk l = true ∧ (s.mac (linkKey l)).loss = [k]) ∧
    (∃ (s : State) (l : LinkId) (k : LossKind), linkOk l = true ∧ (s.mac (linkKey l)).loss.contains k = false) ∧
    (∃ (s : State) (p : Nat), macOk p = true ∧ downDue s p = true) ∧
    (∃ (s : State) (l : Nat), l < 2 ∧ downDue s (48 + l) = true) ∧
    (∃ (s : State) (p : Nat), macOk p = true ∧ upDue s p = true) ∧
    (∃ (s : State) (l : Nat), l < 2 ∧ upDue s (48 + l) = true) ∧
    (∃ (s : State) (p : Nat), portOk p = true ∧ bit s.fab.flushing p = true ∧ flushedAt s p ≠ 0) ∧
    (∃ (s : State) (p : Nat), portOk p = true ∧ bit s.tables.purge p = true) :=
  ⟨⟨upPort 47, 47, List.replicate 63 0, false, 3, .agree, 4, by decide, by decide, by decide, by decide⟩,
   ⟨upPort 47, 47, List.replicate 64 0, false, 3, .agree, _, _, _, by decide, by decide, by decide, rfl⟩,
   ⟨upPort 47, 47, goodFrame, false, 3, .agree, by decide, by decide, by decide, by decide⟩,
   ⟨upPort 31, 31, [], true, true, false, .agree, by decide, by decide⟩,
   ⟨regsAre (upPort 31) [(aMac 31 0x050, 1)], 31, [], false, true, false, .agree, 3, by decide, by decide, by decide,
    by decide, by decide, by decide, by decide, by decide⟩,
   ⟨(regsAre (upPort 31) [(aMac 31 0x050, 1)]).setMac 31
    { link := .up, loss := [], partial_ := some { frameNo := 0, nextFrag := 0, bytes := List.replicate 60 0, startAt := 0 } },
    31, List.replicate 8 0, false, true, false, .agree,
    { frameNo := 0, nextFrag := 0, bytes := List.replicate 60 0, startAt := 0 }, by decide, by decide, by decide,
    by decide, by decide, by decide, by decide, by decide⟩,
   ⟨(regsAre (upPort 31) [(aMac 31 0x050, 1)]).setMac 31
    { link := .up, loss := [], partial_ := some { frameNo := 0, nextFrag := 0, bytes := List.replicate 60 0, startAt := 0 } },
    31, List.replicate 8 0, true, true, false, .agree,
    { frameNo := 0, nextFrag := 0, bytes := List.replicate 60 0, startAt := 0 }, by decide, by decide, by decide,
    by decide, by decide, by decide, by decide⟩,
   ⟨regsAre (upPort 31) [(aMac 31 0x050, 1)], 31, [], true, true, false, .agree, 0, 0, by decide, by decide, by decide,
    by decide, by decide⟩,
   ⟨upPort 47, .port 47, .signal, by decide, by decide, by decide, by decide⟩,
   ⟨actv, .port 47, .signal, by decide, by decide, by decide⟩,
   ⟨actv, .sl 1, .signal, by decide, by decide⟩,
   ⟨actv, .sl 1, .localFault, by decide, by decide⟩,
   ⟨{ actv.setMac 47 { link := .up, lossSince := some 0 } with cclk := 10000000 }, 47, by decide, by decide⟩,
   ⟨{ actv.setMac 49 { link := .up, lossSince := some 0 } with cclk := 10000000 }, 1, by decide, by decide⟩,
   ⟨{ actv.setMac 47 { link := .train, goodSince := some 0 } with cclk := 10000000000 }, 47, by decide, by decide⟩,
   ⟨{ regsAre (actv.setMac 49 { link := .train, goodSince := some 0 }) [(regAddr pSl 0x040, 3)] with cclk := 10000000000 },
    1, by decide, by decide⟩,
   ⟨{ actv with fab := { flushing := 2 ^ 51, flushAt := [(51, 7)] } }, 51, by decide, by decide, by decide⟩,
   ⟨{ actv with tables := { purge := 2 ^ 51 } }, 51, by decide, by decide⟩⟩

/-- States and operands that meet the hypotheses of `TrainingAndHandshakes`, clause by clause. -/
theorem witness_TrainingAndHandshakes :
    (∃ (s : State) (p : Nat), macOk p = true ∧ dwellOver s p = true) ∧
    (∃ (s : State) (p : Nat), macOk p = true ∧ (s.mac p).verify = .verifying) ∧
    (∃ (s : State) (p : Nat), macOk p = true ∧ (s.mac p).verify ≠ .verifying) ∧
    (∃ (s : State) (p at_ : Nat), macOk p = true ∧ (s.mac p).verify = .verifying ∧ (s.mac p).verifyEnd = some
      at_ ∧ at_ ≤ s.cclk ∧ (s.mac p).verifyTries < 3) ∧
    (∃ (s : State) (p at_ : Nat), macOk p = true ∧ (s.mac p).verify = .verifying ∧ (s.mac p).verifyEnd = some
      at_ ∧ at_ ≤ s.cclk ∧ 3 ≤ (s.mac p).verifyTries) ∧
    (∃ (s : State) (w : Who) (n : Nat), t1Ok n = true ∧ Passes s w (aTphy n 0x044) 1 ∧ (s.tphy n).tc10 =
      .normal ∧ portUp s (32 + n) = true) ∧
    (∃ (s : State) (w : Who) (n : Nat), t1Ok n = true ∧ Passes s w (aTphy n 0x044) 2 ∧ (s.tphy n).tc10 =
      .sleep) ∧
    (∃ (s : State) (w : Who) (n : Nat), t1Ok n = true ∧ tc10En s n = true ∧ (s.tphy n).tc10 = .normal ∧ portUp
      s (32 + n) = true ∧ s.bitAt (aTphy n 0x040) 2 = true) ∧
    (∃ (s : State) (w : Who) (n : Nat), t1Ok n = true ∧ tc10En s n = true ∧ (s.tphy n).tc10 = .normal ∧ portUp
      s (32 + n) = true ∧ s.bitAt (aTphy n 0x040) 2 = false) ∧
    (∃ (s : State) (w : Who) (n : Nat), t1Ok n = true ∧ (s.tphy n).tc10 = .sleepNeg) ∧
    (∃ (s : State) (w : Who) (n : Nat), t1Ok n = true ∧ tc10En s n = true ∧ (s.tphy n).tc10 = .sleep ∧
      s.power.entry = none ∧ asleep s.mode = false) ∧
    (∃ (s : State) (w : Who) (n : Nat), t1Ok n = true ∧ tc10En s n = true ∧ (s.tphy n).tc10 = .normal ∧ portUp
      s (32 + n) = true ∧ s.power.entry = none ∧ asleep s.mode = false) :=
  ⟨⟨actv.setMac 47 { link := .train, dwellEnd := some 0 }, 47, by decide, by decide⟩,
   ⟨actv.setMac 31 { verify := .verifying, verifyEnd := some 0, verifyTries := 0 }, 31, by decide, by decide⟩,
   ⟨actv, 31, by decide, by decide⟩,
   ⟨actv.setMac 31 { verify := .verifying, verifyEnd := some 0, verifyTries := 2 }, 31, 0, by decide, by decide,
    by decide, by decide, by decide⟩,
   ⟨actv.setMac 31 { verify := .verifying, verifyEnd := some 0, verifyTries := 3 }, 31, 0, by decide, by decide,
    by decide, by decide, by decide⟩,
   ⟨regsAre (upPort 47) [(aTphy 15 0x040, 3)], w, 15, by decide, (by unfold Passes; decide), by decide, by decide⟩,
   ⟨regsAre (actv.setTphy 15 { tc10 := .sleep }) [(aTphy 15 0x040, 3)], w, 15, by decide,
    (by unfold Passes; decide), by decide⟩,
   ⟨regsAre (upPort 47) [(aTphy 15 0x040, 6)], w, 15, by decide, by decide, by decide, by decide, by decide⟩,
   ⟨regsAre (upPort 47) [(aTphy 15 0x040, 2)], w, 15, by decide, by decide, by decide, by decide, by decide⟩,
   ⟨actv.setTphy 15 { tc10 := .sleepNeg }, w, 15, by decide, by decide⟩,
   ⟨regsAre (actv.setTphy 15 { tc10 := .sleep }) [(aTphy 15 0x040, 2)], w, 15, by decide, by decide, by decide,
    by decide, by decide⟩,
   ⟨regsAre (upPort 47) [(aTphy 15 0x040, 2)], w, 15, by decide, by decide, by decide, by decide, by decide, by decide⟩⟩

/-- States and operands that meet the hypotheses of `MdioLanesAndCables`, clause by clause. -/
theorem witness_MdioLanesAndCables :
    (∃ (s : State) (w : Who) (m phy reg op : Nat) (c : Instr), mdioOk m phy reg = true ∧ Passes s w (aMac m
      0x404) (mdioWord op phy reg) ∧ (op, c) ∈ [(0, Instr.mdioC22Write w m phy reg), (1, .mdioC22Read w m
      phy reg), (2, .mdioC45Write w m phy reg), (3, .mdioC45Read w m phy reg)] ∧ s.mdio m = none) ∧
    (∃ (s : State) (w : Who) (m phy reg op : Nat) (c : Instr) (x : _), mdioOk m phy reg = true ∧ Passes s w
      (aMac m 0x404) (mdioWord op phy reg) ∧ (op, c) ∈ [(0, Instr.mdioC22Write w m phy reg), (1,
      .mdioC22Read w m phy reg), (2, .mdioC45Write w m phy reg), (3, .mdioC45Read w m phy reg)] ∧ s.mdio m
      = some x) ∧
    (∃ (s : State) (m v : Nat) (x : MdioOp), m < 4 ∧ v < 2 ^ 16 ∧ s.mdio m = some x ∧ x.endAt ≤ s.cclk ∧ x.op
      % 2 = 1) ∧
    (∃ (s : State) (w : Who) (k : Nat) (v : Word), laneOk k = true ∧ Passes s w (laneReg k 0x04C) v ∧ (fld (v
      &&& 0xF) 0 2 = 0 ∨ portUp s k = false)) ∧
    (∃ (s : State) (w : Who) (k : Nat) (v : Word), laneOk k = true ∧ Passes s w (laneReg k 0x04C) v ∧ fld (v
      &&& 0xF) 0 2 ≠ 0 ∧ portUp s k = true) ∧
    (∃ (s : State) (w : Who) (n : Nat), t1Ok n = true ∧ Passes s w (aTphy n 0x04C) 1) ∧
    (∃ (s : State) (n fault dist : Nat), t1Ok n = true ∧ fault < 4 ∧ (s.tphy n).diagBusy = true) :=
  ⟨⟨actv, w, 3, 31, 31, 3, .mdioC45Read w 3 31 31, by decide, (by unfold Passes; decide), by simp, by decide⟩,
   ⟨actv.setMdio 3 (some { op := 1, phy := 31, reg := 31, addr := 0, data := 0, endAt := 0 }), w, 3, 31, 31, 3,
    .mdioC45Read w 3 31 31, { op := 1, phy := 31, reg := 31, addr := 0, data := 0, endAt := 0 }, by decide,
    (by unfold Passes; decide), by simp, by decide⟩,
   ⟨actv.setMdio 3 (some { op := 1, phy := 31, reg := 31, addr := 0, data := 0, endAt := 0 }), 3, 65535,
    { op := 1, phy := 31, reg := 31, addr := 0, data := 0, endAt := 0 }, by decide, by decide, by decide, by decide,
    by decide⟩,
   ⟨conf, w, 31, 1, by decide, (by unfold Passes; decide), by decide⟩,
   ⟨conf.setMac 31 { link := .up }, w, 31, 1, by decide, (by unfold Passes; decide), by decide, by decide⟩,
   ⟨actv, w, 15, by decide, (by unfold Passes; decide)⟩,
   ⟨actv.setTphy 15 { diagBusy := true }, 15, 3, 80, by decide, by decide, by decide⟩⟩

/-- States and operands that meet the hypotheses of `ParsingAndLookup`, clause by clause. -/
theorem witness_ParsingAndLookup :
    (∃ (s : State) (f : Nat) (rvErr : Bool), (s.frame f).stage = .received ∧ byteInPrs (s.frame f) 63 ≤ s.cclk
      ∧ dispatchFirst s f = true ∧ s.prs.ready = false) ∧
    (∃ (s : State) (f : Nat) (rvErr : Bool) (i : _), (s.frame f).stage = .received ∧ byteInPrs (s.frame f) 63
      ≤ s.cclk ∧ dispatchFirst s f = true ∧ s.prs.ready = true ∧ (readMicrocode s f).frames.any (fun x =>
      (procTurn x.2).isSome) = false ∧ freeProc (readMicrocode s f) = some i) ∧
    (∃ (s : State) (f : Nat) (rvErr : Bool), (s.frame f).stage = .received ∧ byteInPrs (s.frame f) 63 ≤ s.cclk
      ∧ dispatchFirst s f = true ∧ s.prs.ready = true ∧ ((readMicrocode s f).frames.any (fun x =>
      (procTurn x.2).isSome) = true ∨ freeProc (readMicrocode s f) = none)) ∧
    (∃ (s : State) (f i : Nat), waitFirst s f = true ∧ freeProc s = some i) ∧
    (∃ (s : State) (f i b : Nat), (s.frame f).stage = .parked b ∧ freeProc s = some i ∧ (s.frame f).stepsDone
      < (s.frame f).parse.reads.length ∧ byteInPrs (s.frame f) b < s.cclk) ∧
    (∃ (s : State) (f b : Nat), (s.frame f).stage = .parked b ∧ (s.frame f).parse.rv.deep = true ∧ (s.frame
      f).stepsDone = (s.frame f).parse.reads.length ∧ endInPrs (s.frame f) + 32 ≤ s.cclk) ∧
    (∃ (s : State) (f : Nat), (s.frame f).latePending = true ∧ endInPrs (s.frame f) + 1 ≤ s.cclk ∧ (s.frame
      f).stage = .decided) ∧
    (∃ (s : State) (f : Nat), (s.frame f).latePending = true ∧ endInPrs (s.frame f) + 1 ≤ s.cclk ∧ (s.frame
      f).stage ≠ .decided ∧ (s.frame f).stage ≠ .gone) ∧
    (∃ (s : State) (w : Who) (v : Word), bit v.toNat 8 = true ∧ Passes s w (aPrs 0x04C) v) ∧
    (∃ (s : State) (f : Nat), (s.frame f).keysAt ≤ s.cclk ∧ lookFirst s f = true) ∧
    (∃ (s : State) (f : Nat) (p : _), (s.frame f).keysAt ≤ s.cclk ∧ lookFirst s f = true ∧ (readTables
      ((release s f).bump (aPlCnt (pipelineOf ((release s f).frame f).port) 0)) (pipelineOf ((release s
      f).frame f).port)).2 = false ∧ ((noteReplay (release s f) (readTables ((release s f).bump (aPlCnt
      (pipelineOf ((release s f).frame f).port) 0)) (pipelineOf ((release s f).frame f).port)).1 f).frame
      f).named = some p) ∧
    (∃ (s : State) (f : Nat), (s.frame f).stage = .looked ∧ (s.frame f).lookedAt ≤ s.cclk ∧ policyFirst s f =
      true ∧ (s.frame f).dropped = true) ∧
    (∃ (s : State) (f : Nat), (s.frame f).stage = .looked ∧ (s.frame f).lookedAt ≤ s.cclk ∧ policyFirst s f =
      true ∧ (s.frame f).dropped = false ∧ (policing (firewall s
      ({ s.frame f with tc := gateTc s (s.frame f) })).1 ({ s.frame f with tc := gateTc s (s.frame f) })
      ((firewall s ({ s.frame f with tc := gateTc s (s.frame f) })).2.set != 0)).2 = true ∧ (firewall s
      ({ s.frame f with tc := gateTc s (s.frame f) })).2.set ≠ 0) ∧
    (∃ (s : State) (f : Nat), (s.frame f).stage = .looked ∧ (s.frame f).lookedAt ≤ s.cclk ∧ policyFirst s f =
      true ∧ (s.frame f).dropped = false ∧ ((policing (firewall s
      ({ s.frame f with tc := gateTc s (s.frame f) })).1 ({ s.frame f with tc := gateTc s (s.frame f) })
      ((firewall s ({ s.frame f with tc := gateTc s (s.frame f) })).2.set != 0)).2 = false ∨ (firewall s
      ({ s.frame f with tc := gateTc s (s.frame f) })).2.set = 0)) ∧
    (∃ (s : State), s.tables.ent.filter (fun x => x.1 / 2 ^ 20 == tFLOW) = []) :=
  ⟨⟨withFrame { stage := .received, bytes := goodFrame, mbps := 1000 }, 0, false, by decide, by decide, by decide,
    by decide⟩,
   ⟨{ withFrame { stage := .received, bytes := goodFrame, mbps := 1000 } with prs := { ready := true } }, 0,
    false, 0, by decide, by decide, by decide, by decide, by decide, by decide⟩,
   ⟨{ (withFrame { stage := .received, bytes := goodFrame, mbps := 1000 }).setFrame 1 { stage := .waitProc } with prs := { ready := true } },
    0, false, by decide, by decide, by decide, by decide, by decide⟩,
   ⟨withFrame { stage := .waitProc }, 0, 0, by decide, by decide⟩,
   ⟨withFrame { stage := .parked 80, bytes := goodFrame, mbps := 1000, parse := { reads := [80] } }, 0, 0, 80,
    by decide, by decide, by decide, by decide⟩,
   ⟨withFrame { stage := .parked 80, bytes := goodFrame, mbps := 1000, parse := { rv := { deep := true } } },
    0, 80, by decide, by decide, by decide, by decide⟩,
   ⟨withFrame { stage := .decided, latePending := true, bytes := goodFrame, mbps := 1000 }, 0, by decide, by decide,
    by decide⟩,
   ⟨withFrame { stage := .parsed, latePending := true, bytes := goodFrame, mbps := 1000 }, 0, by decide, by decide,
    by decide, by decide⟩,
   ⟨conf, w, 0x100, by decide, (by unfold Passes; decide)⟩,
   ⟨withFrame { stage := .parsed, released := true }, 0, by decide, by decide⟩,
   ⟨withFrame { stage := .parsed, named := some 3 }, 0, 3, by decide, by decide, by decide, by decide⟩,
   ⟨withFrame { stage := .looked, dropped := true }, 0, by decide, by decide, by decide, by decide⟩,
   ⟨withFrame { stage := .looked, set := 4 }, 0, by decide, by decide, by decide, by decide, by decide, by decide⟩,
   ⟨withFrame { stage := .looked }, 0, by decide, by decide, by decide, by decide, by decide⟩,
   ⟨actv, by decide⟩⟩

/-- States and operands that meet the hypotheses of `TablesAndLearning`, clause by clause. -/
theorem witness_TablesAndLearning :
    (∃ (s : State) (h : HostPort) (d : TueDesc) (data : List Byte) (fault : Bool), ringEn s (.tue h) = true ∧
      ringPosted s (.tue h) ≠ 0) ∧
    (∃ (s : State) (h : HostPort) (d : TueDesc) (data : List Byte) (fault : Bool), ringEn s (.tue h) = true ∧
      ringPosted s (.tue h) ≠ 0 ∧ tueForm (ringTake s (.tue h) 1) d 1 allTables true true false = 0 ∧
      (tueReads (ringTake s (.tue h) 1) d.table).2 = false) ∧
    (∃ (s : State) (h : HostPort) (d : TueDesc) (data : List Byte) (fault : Bool), ringEn s (.tue h) = true ∧
      ringPosted s (.tue h) ≠ 0 ∧ tueForm (ringTake s (.tue h) 1) d 2 [tVLAN, tPORT, tMCAST, tFILTER,
      tGATE, tMETER, tRULE, tSEQGEN, tSEQREC] true true fault = 0 ∧ tueRefusal (ringTake s (.tue h) 1) h
      (rwsClosed (ringTake s (.tue h) 1).mode) (badEntry d.table (slice data 0 (entryBytes d.table))) = 0) ∧
    (∃ (s : State) (h : HostPort) (d : TueDesc) (data : List Byte) (fault : Bool), ringEn s (.tue h) = true ∧
      ringPosted s (.tue h) ≠ 0 ∧ tueForm (ringTake s (.tue h) 1) d 3 [tFDB, tSID] false true fault = 0 ∧
      tueRefusal (ringTake s (.tue h) 1) h (rwsClosed (ringTake s (.tue h) 1).mode) (badEntry d.table
      (slice data 0 (entryBytes d.table))) = 0) ∧
    (∃ (s : State) (h : HostPort) (d : TueDesc) (data : List Byte) (fault : Bool), ringEn s (.tue h) = true ∧
      ringPosted s (.tue h) ≠ 0 ∧ tueForm (ringTake s (.tue h) 1) d 4 [tFDB, tSID, tFLOW] (d.table ==
      tFLOW) (d.table == tSID) fault = 0 ∧ tueRefusal (ringTake s (.tue h) 1) h (if d.table == tFLOW then
      tueModeShut (ringTake s (.tue h) 1).mode || (ringTake s (.tue h) 1).mode == .standby else rwsClosed
      (ringTake s (.tue h) 1).mode) false = 0) ∧
    (∃ (s : State) (h : HostPort) (d : TueDesc) (data : List Byte) (fault : Bool) (i : _), ringEn s (.tue h) =
      true ∧ ringPosted s (.tue h) ≠ 0 ∧ tueForm (ringTake s (.tue h) 1) d 5 [tFDB, tSID] false true fault
      = 0 ∧ (tueReads (ringTake s (.tue h) 1) d.table).2 = false ∧ locateKey ((tueReads (ringTake s (.tue
      h) 1) d.table).1) d.pending d.table (descKey d data) = some i ∧ hashValid d.table (tueValue
      ((tueReads (ringTake s (.tue h) 1) d.table).1) d.pending d.table i) = true ∧ hashKey d.table
      (tueValue ((tueReads (ringTake s (.tue h) 1) d.table).1) d.pending d.table i) = descKey d data) ∧
    (∃ (s : State) (h : HostPort) (d : TueDesc) (data : List Byte) (fault : Bool), ringEn s (.tue h) = true ∧
      ringPosted s (.tue h) ≠ 0 ∧ tueForm (ringTake s (.tue h) 1) d 6 [tFDB] false false false = 0 ∧
      tueRefusal (ringTake s (.tue h) 1) h (tueModeShut (ringTake s (.tue h) 1).mode) false = 0) ∧
    (∃ (s : State) (h : HostPort) (d : TueDesc) (data : List Byte) (fault : Bool), ringEn s (.tue h) = false) ∧
    (∃ (s : State) (t i tag : Nat) (o : Overlay), s.ovlAt t i = some o ∧ o.st = .live tag) ∧
    (∃ (s : State) (t i tag : Nat) (o : Overlay), s.ovlAt t i = some o ∧ o.st = .swapped tag ∧ epochNewer
      (oldestFor s t) tag = true) ∧
    (∃ (s : State) (pl : Nat) (e : LearnEvt), twoOk pl = true ∧ releasable s pl = some e ∧ ((pl = 1 →
      releasable s 0 = none)) ∧ s.tables.queue.length < 4096) ∧
    (∃ (s : State) (e : LearnEvt) (rest : List LearnEvt), s.tables.queue = e :: rest ∧ keyHeld s (fdbKey e.vid
      e.sa) = true ∧ s.tables.learnFree ≤ s.cclk) ∧
    (∃ (s : State) (e : LearnEvt) (rest : List LearnEvt) (i : _), s.tables.queue = e :: rest ∧ keyHeld s
      (fdbKey e.vid e.sa) = false ∧ s.tables.learnFree ≤ s.cclk ∧ findMain
      ({ s with tables := { s.tables with queue := rest, learnFree := s.cclk + 250 } }) tFDB (fdbKey e.vid
      e.sa) = some i) ∧
    (∃ (s : State) (e : LearnEvt) (rest : List LearnEvt), s.tables.queue = e :: rest ∧ keyHeld s (fdbKey e.vid
      e.sa) = false ∧ s.tables.learnFree ≤ s.cclk ∧ findMain
      ({ s with tables := { s.tables with queue := rest, learnFree := s.cclk + 250 } }) tFDB (fdbKey e.vid
      e.sa) = none) ∧
    (∃ (s : State), s.tables.interval ≠ s.cclk / 1000000000) ∧
    (∃ (s : State) (w : Who) (hi : Bool) (v : Word), Passes s w (aTue (if hi then 0x064 else 0x060)) v) ∧
    (∃ (s : State), sweepDue s = true) :=
  ⟨⟨regsAre actv [(ringBase (.tue .a) + 8, 0x10D), (ringBase (.tue .a) + 0x14, 1)], .a, { op := 0 }, [], false,
    by decide, by decide⟩,
   ⟨{ regsAre actv [(ringBase (.tue .a) + 8, 0x10D), (ringBase (.tue .a) + 0x14, 1)] with tables := { ready := true } },
    .a, { op := 1, table := 0, index := 65535, len := 16 }, [], false, by decide, by decide, by decide, by decide⟩,
   ⟨{ regsAre actv [(ringBase (.tue .a) + 8, 0x10D), (ringBase (.tue .a) + 0x14, 1)] with tables := { ready := true } },
    .a, { op := 2, table := tPORT, index := 3, len := entryBytes tPORT }, List.replicate 16 0, false, by decide,
    by decide, by decide, by decide⟩,
   ⟨{ regsAre actv [(ringBase (.tue .a) + 8, 0x10D), (ringBase (.tue .a) + 0x14, 1)] with tables := { ready := true } },
    .a, { op := 3, table := tFDB, len := 16 }, [0, 0, 0, 0, 0, 2, 1, 0x90, 3, 0, 0, 0, 0, 0, 0, 0], false,
    by decide, by decide, by decide, by decide⟩,
   ⟨{ regsAre actv [(ringBase (.tue .a) + 8, 0x10D), (ringBase (.tue .a) + 0x14, 1)] with tables := { ready := true } },
    .a, { op := 4, table := tFDB, len := 8 }, List.replicate 8 0, false, by decide, by decide, by decide, by decide⟩,
   ⟨{ regsAre actv [(ringBase (.tue .a) + 8, 0x10D), (ringBase (.tue .a) + 0x14, 1)] with tables := { ready := true, ent := [(stashBase, [0, 0, 0, 0, 0, 2, 1, 0x10, 3, 0, 0, 0, 0, 0, 0, 0])] } },
    .a, { op := 5, table := tFDB, len := 16, vid := 1, mac := 2 }, [], false, stashBase, by decide, by decide,
    by decide, by decide, by decide, by decide, by decide⟩,
   ⟨{ regsAre actv [(ringBase (.tue .a) + 8, 0x10D), (ringBase (.tue .a) + 0x14, 1)] with tables := { ready := true } },
    .a, { op := 6, table := tFDB }, [], false, by decide, by decide, by decide, by decide⟩,
   ⟨actv, .a, { op := 0 }, [], false, by decide⟩,
   ⟨{ actv with tables := { ovl := [{ table := 1, index := 3, val := [], st := .live 0 }] } }, 1, 3, 0,
    { table := 1, index := 3, val := [], st := .live 0 }, by decide, by decide⟩,
   ⟨{ actv with tables := { ovl := [{ table := 15, index := 3, val := [], st := .swapped 0 }] } }, 15, 3, 0,
    { table := 15, index := 3, val := [], st := .swapped 0 }, by decide, by decide, by decide⟩,
   ⟨{ actv with tables := { filt1 := [{ vid := 1, sa := 2, port := 3, t := 0, frame := 0, passed := true }] } },
    1, { vid := 1, sa := 2, port := 3, t := 0, frame := 0, passed := true }, by decide, by decide, fun _ =>
    by decide, by decide⟩,
   ⟨{ actv with tables := { queue := [{ vid := 1, sa := 2, port := 3, t := 0, frame := 0, passed := true }], ovl := [{ table := 0, index := 3, val := [0, 0, 0, 0, 0, 2, 1, 0x10], st := .pending }] } },
    { vid := 1, sa := 2, port := 3, t := 0, frame := 0, passed := true }, [], by decide, by decide, by decide⟩,
   ⟨{ actv with tables := { queue := [{ vid := 1, sa := 2, port := 3, t := 0, frame := 0, passed := true }], ent := [(stashBase, [0, 0, 0, 0, 0, 2, 1, 0x10, 3, 0, 0, 0, 0, 0, 0, 0])] } },
    { vid := 1, sa := 2, port := 3, t := 0, frame := 0, passed := true }, [], stashBase, by decide, by decide,
    by decide, by decide⟩,
   ⟨{ actv with tables := { queue := [{ vid := 1, sa := 2, port := 3, t := 0, frame := 0, passed := true }] } },
    { vid := 1, sa := 2, port := 3, t := 0, frame := 0, passed := true }, [], by decide, by decide, by decide,
    by decide⟩,
   ⟨{ actv with cclk := 1000000000 }, by decide⟩,
   ⟨conf, w, true, 1, (by unfold Passes; decide)⟩,
   ⟨{ regsAre actv [(aTue 0x044, 1)] with cclk := 250000000 }, by decide⟩⟩

/-- States and operands that meet the hypotheses of `FabricMovesHalves`, clause by clause. -/
theorem witness_FabricMovesHalves :
    (∃ (s : State) (f : Nat), cellDue s (s.frame f) = true ∧ (s.frame f).admitted = true) ∧
    (∃ (s : State) (f : Nat), cellDue s (s.frame f) = true ∧ (s.frame f).admitted = false) ∧
    (∃ (s : State) (g : Nat), groupOk g = true) ∧
    (∃ (s : State) (p q : Nat) (c : Copy), portOk p = true ∧ queueOk q = true ∧ (s.queue p q).find? (fun c =>
      c.open_.isNone) = some c ∧ (((s.frame c.frame).stamps.head? = some s.slot ∨ openHalves s p q <
      openRoom s p))) ∧
    (∃ (s : State) (g : Nat) (x : StoredHalf × Nat × Nat × Copy), groupOk g = true ∧ Tab.get (fun _ => 0)
      s.fab.readSlot g ≠ s.slot + 1 ∧ leastBy (readKey s) (readable s g false) = some x ∧ pairWins s x
      (leastBy (readKey s) (readable s g true)) = true ∧ ((∀ y, leastBy (readKey s) (readable s g true) =
      some y → pairWins s y (leastBy (readKey s) (readable s g false)) = false))) ∧
    (∃ (s : State) (g : Nat) (y : StoredHalf × Nat × Nat × Copy), groupOk g = true ∧ Tab.get (fun _ => 0)
      s.fab.readSlot g ≠ s.slot + 1 ∧ leastBy (readKey s) (readable s g true) = some y ∧ pairWins s y
      (leastBy (readKey s) (readable s g false)) = true ∧ ((∀ x, leastBy (readKey s) (readable s g false)
      = some x → pairWins s x (leastBy (readKey s) (readable s g true)) = false))) ∧
    (∃ (s : State) (g : Nat) (x y : StoredHalf × Nat × Nat × Copy), groupOk g = true ∧ Tab.get (fun _ => 0)
      s.fab.readSlot g ≠ s.slot + 1 ∧ leastBy (readKey s) (readable s g false) = some x ∧ leastBy (readKey
      s) (readable s g true) = some y ∧ pairWins s x (leastBy (readKey s) (readable s g true)) = true ∧
      pairWins s y (leastBy (readKey s) (readable s g false)) = true) ∧
    (∃ (s : State) (g : Nat) (a b : _), groupOk g = true ∧ Tab.get (fun _ => 0) s.fab.linkSlot g ≠ s.slot + 1
      ∧ linkChoice s g = some (a, b)) ∧
    (∃ (s : State) (p q : Nat), portOk p = true ∧ queueOk q = true) ∧
    (∃ (s : State) (p k : Nat) (x : TxRun), portOk p = true ∧ underrun s p = some (x, k)) :=
  ⟨⟨{ withFrame { stage := .decided, set := 1, bytes := goodFrame, mbps := 1000, admitted := true } with fab := { ready := true } },
    0, by decide, by decide⟩,
   ⟨{ withFrame { stage := .decided, set := 1, bytes := goodFrame, mbps := 1000, admitted := false } with fab := { ready := true } },
    0, by decide, by decide⟩,
   ⟨actv, 15, by decide⟩,
   ⟨{ withFrame { stage := .decided, set := 1, bytes := goodFrame, mbps := 1000, admitted := true } with fab := { queues := [(415, [{ frame := 0, ct := false }])] } },
    51, 7, { frame := 0, ct := false }, by decide, by decide, by decide, (by decide)⟩,
   ⟨{ withFrame { stage := .decided, set := 1, bytes := List.replicate 30 0, mbps := 1000, admitted := true } with fab := { queues := [(415, [{ frame := 0, ct := false, open_ := some 0 }])], stored := [{ frame := 0, half := 0, bank := (portGroup 51 + 12500) % 16, side := false, slot := 0, need := [51], sched := false }] } },
    portGroup 51,
    ({ frame := 0, half := 0, bank := (portGroup 51 + 12500) % 16, side := false, slot := 0, need := [51], sched := false },
    51, 7, { frame := 0, ct := false, open_ := some 0 }), by decide, by decide, by decide, by decide, (by
    intro y h; exact absurd (show none = some y from h) (by simp))⟩,
   ⟨{ withFrame { stage := .decided, set := 1, bytes := List.replicate 30 0, mbps := 1000, admitted := true } with fab := { queues := [(415, [{ frame := 0, ct := false, open_ := some 0 }])], stored := [{ frame := 0, half := 0, bank := (portGroup 51 + 12500) % 16, side := true, slot := 0, need := [51], sched := false }] } },
    portGroup 51,
    ({ frame := 0, half := 0, bank := (portGroup 51 + 12500) % 16, side := true, slot := 0, need := [51], sched := false },
    51, 7, { frame := 0, ct := false, open_ := some 0 }), by decide, by decide, by decide, by decide, (by
    intro y h; exact absurd (show none = some y from h) (by simp))⟩,
   ⟨{ withFrame { stage := .decided, set := 1, bytes := goodFrame, mbps := 1000, admitted := true } with fab := { queues := [(415, [{ frame := 0, ct := false, open_ := some 0 }])], stored := [{ frame := 0, half := 0, bank := (portGroup 51 + 12500) % 16, side := false, slot := 0, need := [51], sched := false }, { frame := 0, half := 1, bank := (portGroup 51 + 12500) % 16, side := true, slot := 0, need := [51], sched := false }] } },
    portGroup 51,
    ({ frame := 0, half := 0, bank := (portGroup 51 + 12500) % 16, side := false, slot := 0, need := [51], sched := false },
    51, 7, { frame := 0, ct := false, open_ := some 0 }),
    ({ frame := 0, half := 1, bank := (portGroup 51 + 12500) % 16, side := true, slot := 0, need := [51], sched := false },
    51, 7, { frame := 0, ct := false, open_ := some 0 }), by decide, by decide, by decide, by decide, by decide,
    by decide⟩,
   ⟨{ withFrame { stage := .decided, set := 1, bytes := goodFrame, mbps := 1000, admitted := true } with fab := { waiting := [{ frame := 0, half := 0, stamp := 0, sched := false, port := 0, group := 15, lone := false }, { frame := 0, half := 1, stamp := 0, sched := false, port := 0, group := 15, lone := false }] } },
    15, _, _, by decide, by decide, rfl⟩,
   ⟨actv, 51, 7, by decide, by decide⟩,
   ⟨{ (withFrame { stage := .decided, set := 1, bytes := goodFrame, mbps := 1000, admitted := true }).setEgs 51 { tx := some { frame := 0, q := 7, start := 0, endAt := 0, bytes := [], preemptable := false } } with fab := { queues := [(415, [{ frame := 0, ct := true }])] } },
    51, 0, { frame := 0, q := 7, start := 0, endAt := 0, bytes := [], preemptable := false }, by decide, by decide⟩⟩

/-- States and operands that meet the hypotheses of `EgressPortsTransmit`, clause by clause. -/
theorem witness_EgressPortsTransmit :
    (∃ (s : State) (p : Nat) (cmp : PipeCmp), portOk p = true ∧ portDecides s p = true ∧ (picked s p).2.2 =
      none) ∧
    (∃ (s : State) (p : Nat) (cmp : PipeCmp) (q : Nat) (x : Nat × Copy × Nat), portOk p = true ∧ portDecides s
      p = true ∧ (picked s p).2.2 = some q ∧ (picked s p).1.find? (fun x => x.1 == q) = some x) ∧
    (∃ (s : State) (p : Nat) (x : TxRun), portOk p = true ∧ (s.egs p).tx = some x ∧ lineFreeAt s p x ≤ s.cclk
      ∧ x.suspendAt = none) ∧
    (∃ (s : State) (p : Nat) (x : TxRun) (n : _), portOk p = true ∧ (s.egs p).tx = some x ∧ lineFreeAt s p x ≤
      s.cclk ∧ x.suspendAt = some n) ∧
    (∃ (s : State) (p : Nat) (x : TxRun), portOk p = true ∧ (s.egs p).susp = some x ∧ (s.egs p).tx = none ∧
      (s.egs p).sel = [] ∧ bit (s.egs p).gates x.q = true ∧ (s.egs p).hold = false ∧ (s.mac p).link = .up) ∧
    (∃ (s : State), s.cclk % 256 = 0 ∧ s.egress.refillAt ≠ s.cclk + 1 ∧ (memRead
      ({ ((shapedPorts s).foldl (fun t x => refillBucket t x.1 x.2) ((s.egress.port.map (fun x => x.1)).foldl takeSettings s)) with egress := { ((shapedPorts s).foldl (fun t x => refillBucket t x.1 x.2) ((s.egress.port.map (fun x => x.1)).foldl takeSettings s)).egress with refillAt := s.cclk + 1 } })
      9 0 none).2 = none) ∧
    (∃ (s : State), s.cclk % 256 = 0 ∧ s.egress.refillAt ≠ s.cclk + 1) :=
  ⟨⟨actv, 51, .agree, by decide, by decide, by decide⟩,
   ⟨{ withFrame { stage := .decided, set := 1, bytes := goodFrame, mbps := 1000, admitted := true, stamps := [0], port := 50 } with fab := { queues := [(415, [{ frame := 0, ct := false, released := [0, 1] }])] } },
    51, .agree, 7, _, by decide, by decide, by decide, rfl⟩,
   ⟨actv.setEgs 51
    { tx := some { frame := 0, q := 7, start := 0, endAt := 0, bytes := goodFrame, preemptable := true } },
    51, { frame := 0, q := 7, start := 0, endAt := 0, bytes := goodFrame, preemptable := true }, by decide,
    by decide, by decide, by decide⟩,
   ⟨{ (upPort 31).setEgs 31 { tx := some { frame := 0, q := 7, start := 0, endAt := 0, bytes := goodFrame, preemptable := true, suspendAt := some 30 } } with cclk := 1000000 },
    31,
    { frame := 0, q := 7, start := 0, endAt := 0, bytes := goodFrame, preemptable := true, suspendAt := some 30 },
    30, by decide, by decide, by decide, by decide⟩,
   ⟨(upPort 31).setEgs 31
    { susp := some { frame := 0, q := 7, start := 0, endAt := 0, bytes := goodFrame, preemptable := true } },
    31, { frame := 0, q := 7, start := 0, endAt := 0, bytes := goodFrame, preemptable := true }, by decide,
    by decide, by decide, by decide, by decide, by decide, by decide⟩,
   ⟨actv, by decide, by decide, by decide⟩,
   ⟨actv, by decide, by decide⟩⟩

/-- States and operands that meet the hypotheses of `GateControlLists`, clause by clause. -/
theorem witness_GateControlLists :
    (∃ (s : State) (p j pos : Nat), portOk p = true ∧ nextEntryDue s p = some (j, pos)) ∧
    (∃ (s : State) (p : Nat), portOk p = true ∧ nextEntryDue s p = none) ∧
    (∃ (s : State) (p : Nat), portOk p = true ∧ ((s.egs p).install.isSome = true ∨ (s.egs p).len ≠ 0) ∧
      (s.pos.toNat + 2 ^ 64 - boundaryAfter s p (s.egs p).entryPos.toNat) % 2 ^ 64 < 2 ^ 63) ∧
    (∃ (s : State) (w : Who) (p : Nat) (v : Word), portOk p = true ∧ Passes s w (aEgs p 0x060) v) ∧
    (∃ (s : State) (p : Nat), portOk p = true) :=
  ⟨⟨{ actv with egress := { port := [(51, { len := 2 })], gcl := [(1024 * 51, 0xC00), (1024 * 51 + 1, 0x800)] }, cclk := 10 },
    51, 1, 0, by decide, by decide⟩,
   ⟨actv, 51, by decide, by decide⟩,
   ⟨{ actv.setEgs 51 { len := 1 } with pb := { acc := 0x1000000000000000 } }, 51, by decide, (by decide), by decide⟩,
   ⟨conf, w, 51, 1, by decide, (by unfold Passes; decide)⟩,
   ⟨actv, 51, by decide⟩⟩

/-- States and operands that meet the hypotheses of `CanChannels`, clause by clause. -/
theorem witness_CanChannels :
    (∃ (s : State) (n : Nat) (m : CanMode), canOk n = true ∧ (s.can n).integrating = some m) ∧
    (∃ (s : State) (n : Nat) (m : CanMode), canOk n = true ∧ (s.can n).next = some m) ∧
    (∃ (s : State) (n : Nat), canOk n = true ∧ (s.can n).next = none ∧ (s.can n).sby = true ∧ s.mode ≠
      .standby ∧ s.twin.role ≠ .standby ∧ s.twin.taskAt = none) ∧
    (∃ (s : State) (w : Who) (n : Nat), canOk n = true ∧ Passes s w (aCan n 0x060) 1) ∧
    (∃ (s : State) (n : Nat), canOk n = true ∧ (s.can n).errst = 2 ∧ (s.can n).recovering = true) ∧
    (∃ (s : State) (n : Nat), canOk n = true ∧ (s.can n).errst ≠ 2) ∧
    (∃ (s : State) (n : Nat) (m : CanMsg) (sof : Nat), canOk n = true ∧ canAwake (s.can n).mode = false) ∧
    (∃ (s : State) (n : Nat) (m : CanMsg) (sof : Nat), canOk n = true ∧ canAwake (s.can n).mode = true ∧
      filterHit (fastPhase (countRx s n) n false m) n m = none) ∧
    (∃ (s : State) (n : Nat) (m : CanMsg) (sof : Nat) (f : _), canOk n = true ∧ canAwake (s.can n).mode = true
      ∧ filterHit (fastPhase (countRx s n) n false m) n m = some f) ∧
    (∃ (s : State) (n : Nat), canOk n = true ∧ ((s.can n).mode = .restricted ∨ (s.can n).mode = .listenOnly)) ∧
    (∃ (s : State) (n : Nat) (k : CanErrKind), canOk n = true ∧ ((s.can n).mode = .restricted ∨ (s.can n).mode
      = .listenOnly)) ∧
    (∃ (s : State) (n : Nat), canOk n = true ∧ (s.can n).mode = .normal ∧ (s.can n).sby = false ∧ (s.can
      n).errst ≠ 2) ∧
    (∃ (s : State) (n : Nat), canOk n = true ∧ (s.can n).withdrawn = true) ∧
    (∃ (s : State) (w : Who) (n q : Nat), canOk n = true ∧ twoOk q = true ∧ Reaches s w (aCan n (0x07C + 4 *
      q)) ∧ Performs s w (aCan n (0x07C + 4 * q)) ∧ rxq ((readRxq s n q).can n) q = []) ∧
    (∃ (s : State) (w : Who) (n q : Nat) (e rest : _), canOk n = true ∧ twoOk q = true ∧ Reaches s w (aCan n
      (0x07C + 4 * q)) ∧ Performs s w (aCan n (0x07C + 4 * q)) ∧ rxq ((readRxq s n q).can n) q = e ::
      rest) ∧
    (∃ (s : State) (w : Who) (n : Nat), canOk n = true ∧ Reaches s w (aCan n 0x070) ∧ Performs s w (aCan n
      0x070) ∧ (s.can n).txev = []) ∧
    (∃ (s : State) (w : Who) (n : Nat) (e rest : _), canOk n = true ∧ Reaches s w (aCan n 0x070) ∧ Performs s
      w (aCan n 0x070) ∧ (s.can n).txev = e :: rest) :=
  ⟨⟨withCan { integrating := some .normal }, 23, .normal, by decide, by decide⟩,
   ⟨withCan { next := some .normal }, 23, .normal, by decide, by decide⟩,
   ⟨withCan { sby := true }, 23, by decide, by decide, by decide, by decide, by decide, by decide⟩,
   ⟨conf, w, 23, by decide, (by unfold Passes; decide)⟩,
   ⟨withCan { errst := 2, recovering := true }, 23, by decide, by decide, by decide⟩,
   ⟨actv, 23, by decide, by decide⟩,
   ⟨actv, 23, {}, 0, by decide, by decide⟩,
   ⟨withCan { mode := .normal }, 23, {}, 0, by decide, by decide, by decide⟩,
   ⟨regsAre (withCan { mode := .normal }) [(aCan 23 0x208, 1)], 23, {}, 0, 0, by decide, by decide, by decide⟩,
   ⟨withCan { mode := .restricted }, 23, by decide, by decide⟩,
   ⟨withCan { mode := .listenOnly }, 23, .tx, by decide, by decide⟩,
   ⟨withCan { mode := .normal }, 23, by decide, by decide, by decide, by decide⟩,
   ⟨withCan { withdrawn := true }, 23, by decide, by decide⟩,
   ⟨actv, w, 23, 1, by decide, by decide, (by unfold Reaches; decide),
    (by unfold Performs; simp [w]), by decide⟩,
   ⟨withCan { rxq1 := [{ msg := {}, filter := 0, ovr := false, ptpNs := 0, ptpSec := 0, phase := 0 }] }, w, 23,
    1, { msg := {}, filter := 0, ovr := false, ptpNs := 0, ptpSec := 0, phase := 0 }, [], by decide, by decide,
    (by unfold Reaches; decide), (by unfold Performs; simp [w]), by decide⟩,
   ⟨actv, w, 23, by decide, (by unfold Reaches; decide), (by unfold Performs; simp [w]), by decide⟩,
   ⟨withCan { txev := [{ tag := 1, status := 0, late := false }] }, w, 23,
    { tag := 1, status := 0, late := false }, [], by decide, (by unfold Reaches; decide),
    (by unfold Performs; simp [w]), by decide⟩⟩

/-- States and operands that meet the hypotheses of `CanSendsMessages`, clause by clause. -/
theorem witness_CanSendsMessages :
    (∃ (s : State) (w : Who) (n : Nat), canOk n = true ∧ Passes s w (aCan n 0x068) 1 ∧ s.mode = .standby) ∧
    (∃ (s : State) (w : Who) (n : Nat), canOk n = true ∧ Passes s w (aCan n 0x068) 1 ∧ s.mode ≠ .standby) ∧
    (∃ (s : State) (n : Nat) (x : _), canOk n = true ∧ (s.can n).inbox.find? (fun x => decide (x.at_ ≤ s.cclk)
      && !macDue s x) = some x) ∧
    (∃ (s : State) (n : Nat), canOk n = true ∧ (s.can n).inbox.find? (fun x => decide (x.at_ ≤ s.cclk) &&
      !macDue s x) = none) ∧
    (∃ (s : State) (n b : Nat) (x : CanBuf), canOk n = true ∧ b < 3 ∧ getBuf (s.can n) b = some x ∧ x.readyAt
      ≤ s.cclk ∧ x.ready = false) ∧
    (∃ (s : State) (n b d : Nat) (x : CanBuf), canOk n = true ∧ b < 3 ∧ getBuf (s.can n) b = some x ∧
      x.readyAt ≤ s.cclk ∧ x.ready = false) ∧
    (∃ (s : State) (n : Nat), canOk n = true) ∧
    (∃ (s : State) (n : Nat) (b x : _), canOk n = true ∧ canEff (s.can n) = .normal ∧ (s.can n).errst ≠ 2 ∧
      lockedBuf (s.can n) = none ∧ (memRead ((readyBufs s.cclk (s.can n)).foldl (countHeld n (s.cclk +
      afterSample s n)) s) 4 0 none).2 = none ∧ leastBy (fun x => pendKey (txOrd s n) x.2.p) ((readyBufs
      s.cclk (s.can n)).filter (fun x => (windowAllows s n x.2.p (s.cclk + afterSample s n)).1)) = some
      (b, x)) ∧
    (∃ (s : State) (n b : Nat) (x : CanBuf) (err : Bool), canOk n = true ∧ lockedBuf (s.can n) = some (b, x)) ∧
    (∃ (s : State) (n b : Nat) (x : CanBuf), canOk n = true ∧ lockedBuf (s.can n) = some (b, x) ∧ onBus s n =
      true) ∧
    (∃ (s : State) (w : Who) (n tag : Nat), canOk n = true ∧ tag < 2 ^ 16 ∧ Passes s w (aCan n 0x064) (w32
      tag)) ∧
    (∃ (s : State) (w : Who) (n : Nat), canOk n = true ∧ Passes s w (aCan n 0x064) (w32 (2 ^ 16))) ∧
    (∃ (s : State) (n b p : Nat) (x : CanBuf), canOk n = true ∧ lockedBuf (s.can n) = some (b, x) ∧ x.closePos
      = some p ∧ onBus s n = true ∧ reachedAt p s.pos.toNat = true) ∧
    (∃ (s : State) (w : Who) (v : Word), Passes s w (aCan 0 0x0D4) v) ∧
    (∃ (s : State) (i : Nat), i < 1024 ∧ rsvDue (s.auth i) = true) ∧
    (∃ (s : State) (i : Nat), i < 1024 ∧ rsvDue (s.auth i) = false) :=
  ⟨⟨stby, { m := .mp0 }, 23, by decide, (by unfold Passes; decide), by decide⟩,
   ⟨conf, w, 23, by decide, (by unfold Passes; decide), by decide⟩,
   ⟨withCan { inbox := [{ msg := {}, at_ := 0 }] }, 23, { msg := {}, at_ := 0 }, by decide, by decide⟩,
   ⟨actv, 23, by decide, by decide⟩,
   ⟨withCan { buf2 := some { p := { key := 0, seq := 0, msg := {} }, readyAt := 0 } }, 23, 2,
    { p := { key := 0, seq := 0, msg := {} }, readyAt := 0 }, by decide, by decide, by decide, by decide, by decide⟩,
   ⟨withCan { buf2 := some { p := { key := 0, seq := 0, msg := {} }, readyAt := 0 } }, 23, 2, 3,
    { p := { key := 0, seq := 0, msg := {} }, readyAt := 0 }, by decide, by decide, by decide, by decide, by decide⟩,
   ⟨actv, 23, by decide⟩,
   ⟨withCan
    { mode := .normal, buf2 := some { p := { key := 0, seq := 0, msg := {} }, readyAt := 0, ready := true } },
    23, 2, { p := { key := 0, seq := 0, msg := {} }, readyAt := 0, ready := true }, by decide, by decide, by decide,
    by decide, by decide, by decide⟩,
   ⟨withCan { buf2 := some { p := { key := 0, seq := 0, msg := {} }, readyAt := 0, locked := true } }, 23, 2,
    { p := { key := 0, seq := 0, msg := {} }, readyAt := 0, locked := true }, false, by decide, by decide⟩,
   ⟨withCan
    { buf2 := some { p := { key := 0, seq := 0, msg := {} }, readyAt := 0, locked := true, sof := some 0 } },
    23, 2, { p := { key := 0, seq := 0, msg := {} }, readyAt := 0, locked := true, sof := some 0 }, by decide,
    by decide, by decide⟩,
   ⟨conf, w, 23, 65535, by decide, by decide, (by unfold Passes; decide)⟩,
   ⟨conf, w, 23, by decide, (by unfold Passes; decide)⟩,
   ⟨withCan
    { buf2 := some { p := { key := 0, seq := 0, msg := {} }, readyAt := 0, locked := true, sof := some 0, closePos := some 0 } },
    23, 2, 0,
    { p := { key := 0, seq := 0, msg := {} }, readyAt := 0, locked := true, sof := some 0, closePos := some 0 },
    by decide, by decide, by decide, by decide, by decide⟩,
   ⟨conf, w, 0, (by unfold Passes; decide)⟩,
   ⟨{ actv with buses := { auth := [(1023, { valid := true })] } }, 1023, by decide, by decide⟩,
   ⟨actv, 1023, by decide, by decide⟩⟩

/-- States and operands that meet the hypotheses of `LinChannels`, clause by clause. -/
theorem witness_LinChannels :
    (∃ (s : State) (n : Nat) (x rest : _), linOk n = true ∧ linCommands (linSettle s) n = true ∧ ((linSettle
      s).lin n).passed = x :: rest) ∧
    (∃ (s : State) (n : Nat) (i : _), linOk n = true ∧ linCommands (linSettle s) n = true ∧ ((linSettle s).lin
      n).passed = [] ∧ linDue (linSettle s) n = some i) ∧
    (∃ (s u : State) (n pid meas : Nat), linOk n = true ∧ pid < 256 ∧ linSettle s = u ∧ (u.lin n).mode ≠
      .normal) ∧
    (∃ (s u : State) (n pid meas : Nat), linOk n = true ∧ pid < 256 ∧ linSettle s = u ∧ (u.lin n).mode =
      .normal ∧ syncInRange u n meas = false) ∧
    (∃ (s u : State) (n pid meas : Nat), linOk n = true ∧ pid < 256 ∧ linSettle s = u ∧ (u.lin n).mode =
      .normal ∧ syncInRange u n meas = true ∧ protectedId (pid % 64) ≠ pid) ∧
    (∃ (s u : State) (n pid meas : Nat), linOk n = true ∧ pid < 256 ∧ linSettle s = u ∧ (u.lin n).mode =
      .normal ∧ syncInRange u n meas = true ∧ protectedId (pid % 64) = pid) ∧
    (∃ (s : State) (n f t0 b chk : Nat) (d : List Byte), linOk n = true ∧ d.length ≤ 8 ∧ chk < 256 ∧ (s.lin
      n).await = some (f, t0, b) ∧ d.length = responseLen s n f ∧ chk = linChecksum (s.bitAt (aFt n f) 2)
      f d) ∧
    (∃ (s : State) (n f t0 b chk : Nat) (d : List Byte), linOk n = true ∧ d.length ≤ 8 ∧ chk < 256 ∧ (s.lin
      n).await = some (f, t0, b) ∧ d.length = responseLen s n f ∧ chk ≠ linChecksum (s.bitAt (aFt n f) 2)
      f d) ∧
    (∃ (s : State) (n f t0 b chk : Nat) (d : List Byte), linOk n = true ∧ d.length ≤ 8 ∧ chk < 256 ∧ (s.lin
      n).await = some (f, t0, b) ∧ d.length ≠ responseLen s n f) ∧
    (∃ (s : State) (n f t0 b : Nat), linOk n = true ∧ (s.lin n).await = some (f, t0, b) ∧ 10 * t0 + 14 * 10 *
      (responseLen s n f + 1) * b ≤ 10 * s.cclk) ∧
    (∃ (s : State) (n : Nat), linOk n = true ∧ (s.lin n).mode = .normal ∧ s.fld (aLin n 0x044) 16 4 ≠ 0 ∧
      (s.lin n).lastAt + s.fld (aLin n 0x044) 16 4 * 1000000000 ≤ s.cclk) ∧
    (∃ (s : State) (w : Who) (n : Nat), linOk n = true ∧ Passes s w (aLin n 0x04C) 1) ∧
    (∃ (s : State) (n : Nat), linOk n = true ∧ (s.lin n).mode = .sleep ∧ asleep s.mode = false ∧ s.power.entry
      = none) :=
  ⟨⟨withLin { mode := .normal, len := 1, passed := [(0, none)] }, 7, (0, none), [], by decide, by decide, by decide⟩,
   ⟨withLin { mode := .normal, len := 1 }, 7, 0, by decide, by decide, by decide, by decide⟩,
   ⟨actv, linSettle actv, 7, 255, 0, by decide, by decide, rfl, by decide⟩,
   ⟨withLin { mode := .normal }, linSettle (withLin { mode := .normal }), 7, 255, 0, by decide, by decide, rfl,
    by decide, by decide⟩,
   ⟨withLin { mode := .normal }, linSettle (withLin { mode := .normal }), 7, 0, 50000, by decide, by decide,
    rfl, by decide, by decide, by decide⟩,
   ⟨withLin { mode := .normal }, linSettle (withLin { mode := .normal }), 7, 0x80, 50000, by decide, by decide,
    rfl, by decide, by decide, by decide⟩,
   ⟨withLin { await := some (3, 0, 20) }, 7, 3, 0, 20, 255, List.replicate 8 0, by decide, by decide, by decide,
    by decide, by decide, by decide⟩,
   ⟨withLin { await := some (3, 0, 20) }, 7, 3, 0, 20, 254, List.replicate 8 0, by decide, by decide, by decide,
    by decide, by decide, by decide⟩,
   ⟨withLin { await := some (3, 0, 20) }, 7, 3, 0, 20, 0, [], by decide, by decide, by decide, by decide, by decide⟩,
   ⟨{ withLin { await := some (3, 0, 20) } with cclk := 100000 }, 7, 3, 0, 20, by decide, by decide, by decide⟩,
   ⟨{ regsAre (withLin { mode := .normal }) [(aLin 7 0x044, 0x40000)] with cclk := 4000000000 }, 7, by decide,
    by decide, by decide, by decide⟩,
   ⟨conf, w, 7, by decide, (by unfold Passes; decide)⟩,
   ⟨withLin { mode := .sleep }, 7, by decide, by decide, by decide, by decide⟩⟩

/-- States and operands that meet the hypotheses of `GatewayMessagesAndTables`, clause by clause. -/
theorem witness_GatewayMessagesAndTables :
    (∃ (s : State) (m : GweMsg), leastBy reqKey (s.gwe.reqs.filter (fun x => decide (x.at_ ≤ s.cclk))) = some
      m) ∧
    (∃ (s : State) (m : GweMsg), leastBy reqKey (s.gwe.reqs.filter (fun x => decide (x.at_ ≤ s.cclk))) = some
      m ∧ s.gwe.run = [] ∧ s.gwe.reqs = [m] ∧ (∀ h, m.kind ≠ .reinject h) ∧ s.gwe.inq.length < 1024) ∧
    (∃ (s : State) (m : GweMsg), leastBy reqKey (s.gwe.reqs.filter (fun x => decide (x.at_ ≤ s.cclk))) = some
      m ∧ s.gwe.run = [] ∧ s.gwe.reqs = [m] ∧ (∀ h, m.kind ≠ .reinject h) ∧ 1024 ≤ s.gwe.inq.length) ∧
    (∃ (s : State), s.gwe.reqs = []) ∧
    (∃ (s : State) (m : GweMsg) (rest : List GweMsg), s.gwe.inq = m :: rest ∧ gweOpen s = true ∧ admitAt s m ≤
      s.cclk) ∧
    (∃ (s : State) (m : GweMsg) (rest : List GweMsg), s.gwe.inq = m :: rest ∧ (gweOpen s = false ∨ s.cclk <
      admitAt s m)) ∧
    (∃ (s : State) (h d : Nat), h < 4096 ∧ (s.hrun h).due = some d ∧ d ≤ s.cclk ∧ gweOpen s = true) ∧
    (∃ (s : State) (h d : Nat), h < 4096 ∧ (s.hrun h).due = some d ∧ d ≤ s.cclk ∧ gweOpen s = true ∧
      s.gwe.reqs = [] ∧ s.gwe.run = [(h, s.hrun h)]) ∧
    (∃ (s : State) (o : Nat) (b : Batch), o < 64 ∧ Tab.get (fun _ => none) s.gwe.batch o = some b ∧ holdOver s
      b = true) ∧
    (∃ (s : State) (f : BatchFrame) (rest : List BatchFrame), s.gwe.out = f :: rest ∧ f.enterAt ≤ s.cclk ∧
      entryOpen s 50 = true) ∧
    (∃ (s : State) (f : BatchFrame) (rest : List BatchFrame), s.gwe.out = f :: rest ∧ f.enterAt ≤ s.cclk ∧
      entryOpen s 50 = false) ∧
    (∃ (s : State) (f : GweFrame) (rest : List GweFrame), s.gwe.frames = f :: rest ∧ ((gweOpen s = false ∨
      s.gwe.ready = false))) ∧
    (∃ (s : State) (f : GweFrame) (rest : List GweFrame), s.gwe.frames = f :: rest ∧ gweOpen s = true ∧
      s.gwe.ready = true ∧ avtpOf (istreamRead ({ s with gwe := { s.gwe with frames := rest } })) f =
      none) ∧
    (∃ (s : State) (f : GweFrame) (rest : List GweFrame) (a : _), s.gwe.frames = f :: rest ∧ gweOpen s = true
      ∧ s.gwe.ready = true ∧ avtpOf (istreamRead ({ s with gwe := { s.gwe with frames := rest } })) f =
      some a) ∧
    (∃ (s : State) (w : Who) (pend : Bool) (c : Instr), (pend, c) ∈ [(false, Instr.gweTblRead w), (true,
      .gweTblReadPending w)] ∧ Passes s w (aGweTbl 0x044) (if pend then 3 else 1) ∧ gweForm s = 0) ∧
    (∃ (s : State) (w : Who) (pend : Bool) (c : Instr), (pend, c) ∈ [(false, Instr.gweTblRead w), (true,
      .gweTblReadPending w)] ∧ Passes s w (aGweTbl 0x044) (if pend then 3 else 1) ∧ gweForm s ≠ 0) ∧
    (∃ (s : State) (w : Who), Passes s w (aGweTbl 0x044) 2 ∧ gweForm s ≠ 0) ∧
    (∃ (s : State) (w : Who), Passes s w (aGweTbl 0x044) 2 ∧ gweForm s = 0 ∧ rwsClosed s.mode = true) ∧
    (∃ (s : State) (w : Who), Passes s w (aGweTbl 0x044) 2 ∧ gweForm s = 0 ∧ rwsClosed s.mode = false ∧
      (badEntry (gweTable s) (noSeq (gweTable s) (slice (gweData s) 0 (entryBytes (gweTable s)))) = true ∨
      ((gweData s).drop (entryBytes (gweTable s))).any (fun b => b != 0) = true)) ∧
    (∃ (s : State) (w : Who), Passes s w (aGweTbl 0x044) 2 ∧ gweForm s = 0 ∧ rwsClosed s.mode = false ∧
      badEntry (gweTable s) (noSeq (gweTable s) (slice (gweData s) 0 (entryBytes (gweTable s)))) = false ∧
      ((gweData s).drop (entryBytes (gweTable s))).any (fun b => b != 0) = false ∧ isHost w.m = true ∧
      siltFull s = true) ∧
    (∃ (s : State) (w : Who), Passes s w (aGweTbl 0x044) 2 ∧ gweForm s = 0 ∧ rwsClosed s.mode = false ∧
      badEntry (gweTable s) (noSeq (gweTable s) (slice (gweData s) 0 (entryBytes (gweTable s)))) = false ∧
      ((gweData s).drop (entryBytes (gweTable s))).any (fun b => b != 0) = false ∧ (isHost w.m = false ∨
      siltFull s = false)) :=
  ⟨⟨withGwe actv
    { reqs := [{ kind := .can, src := 0, msg := {}, at_ := 0, epoch := 0, ptpSec := 0, ptpNs := 0 }] },
    { kind := .can, src := 0, msg := {}, at_ := 0, epoch := 0, ptpSec := 0, ptpNs := 0 }, by decide⟩,
   ⟨withGwe actv
    { reqs := [{ kind := .can, src := 0, msg := {}, at_ := 0, epoch := 0, ptpSec := 0, ptpNs := 0 }] },
    { kind := .can, src := 0, msg := {}, at_ := 0, epoch := 0, ptpSec := 0, ptpNs := 0 }, by decide, by decide,
    by decide, (by intro h hh; cases hh), by decide⟩,
   ⟨withGwe actv
    { reqs := [{ kind := .can, src := 0, msg := {}, at_ := 0, epoch := 0, ptpSec := 0, ptpNs := 0 }], inq := List.replicate 1024 { kind := .can, src := 0, msg := {}, at_ := 0, epoch := 0, ptpSec := 0, ptpNs := 0 } },
    { kind := .can, src := 0, msg := {}, at_ := 0, epoch := 0, ptpSec := 0, ptpNs := 0 }, by decide, by decide,
    by decide, (by intro h hh; cases hh), by decide⟩,
   ⟨actv, by decide⟩,
   ⟨withGwe actv
    { inq := [{ kind := .can, src := 0, msg := {}, at_ := 0, epoch := 0, ptpSec := 0, ptpNs := 0 }] },
    { kind := .can, src := 0, msg := {}, at_ := 0, epoch := 0, ptpSec := 0, ptpNs := 0 }, [], by decide, by decide,
    by decide⟩,
   ⟨withGwe stby
    { inq := [{ kind := .can, src := 0, msg := {}, at_ := 0, epoch := 0, ptpSec := 0, ptpNs := 0 }] },
    { kind := .can, src := 0, msg := {}, at_ := 0, epoch := 0, ptpSec := 0, ptpNs := 0 }, [], by decide, by decide⟩,
   ⟨withGwe actv { run := [(4095, { due := some 0 })] }, 4095, 0, by decide, by decide, by decide, by decide⟩,
   ⟨withGwe actv { run := [(4095, { due := some 0 })] }, 4095, 0, by decide, by decide, by decide, by decide,
    by decide, by decide⟩,
   ⟨withGwe actv { batch := [(63, some { holdEnd := 0, firstNs := 0, msgs := 1, acf := [] })] }, 63,
    { holdEnd := 0, firstNs := 0, msgs := 1, acf := [] }, by decide, by decide, by decide⟩,
   ⟨withGwe actv { out := [{ stream := 0, bytes := [], enterAt := 0, tc := 0 }] },
    { stream := 0, bytes := [], enterAt := 0, tc := 0 }, [], by decide, by decide, by decide⟩,
   ⟨{ withGwe actv { out := [{ stream := 0, bytes := [], enterAt := 0, tc := 0 }] } with fab := { entryFree := [(50, 200000)] } },
    { stream := 0, bytes := [], enterAt := 0, tc := 0 }, [], by decide, by decide, by decide⟩,
   ⟨withGwe stby { frames := [{ bytes := [], start := 0, tsCycle := 0, epoch := 0 }] },
    { bytes := [], start := 0, tsCycle := 0, epoch := 0 }, [], by decide, (by decide)⟩,
   ⟨withGwe actv { frames := [{ bytes := [], start := 0, tsCycle := 0, epoch := 0 }], ready := true },
    { bytes := [], start := 0, tsCycle := 0, epoch := 0 }, [], by decide, by decide, by decide, by decide⟩,
   ⟨{ withGwe actv { frames := [{ bytes := List.replicate 12 0 ++ [0x22, 0xF0, 0x82, 0x80] ++ List.replicate 20 0, start := 0, tsCycle := 0, epoch := 0, keys := { etype := 0x22F0 } }], ready := true } with tables := { ent := [(0x1600000, List.replicate 8 0 ++ [1] ++ List.replicate 23 0)] } },
    { bytes := List.replicate 12 0 ++ [0x22, 0xF0, 0x82, 0x80] ++ List.replicate 20 0, start := 0, tsCycle := 0, epoch := 0, keys := { etype := 0x22F0 } },
    [], { stream := 0, seq := 0, first := 26, last := 26 }, by decide, by decide, by decide, by decide⟩,
   ⟨withGwe (regsAre conf [(aGweTbl 0x040, 0x10000000)]) { ready := true }, w, true, .gweTblReadPending w, (by
    simp), (by unfold Passes; decide), by decide⟩,
   ⟨conf, w, false, .gweTblRead w, (by simp), (by unfold Passes; decide), by decide⟩,
   ⟨conf, w, (by unfold Passes; decide), by decide⟩,
   ⟨withGwe (regsAre stby [(aGweTbl 0x040, 0x10000000)]) { ready := true }, { m := .mp0 },
    (by unfold Passes; decide), by decide, by decide⟩,
   ⟨withGwe (regsAre conf [(aGweTbl 0x040, 0x14000000)]) { ready := true }, w, (by unfold Passes; decide), by decide,
    by decide, (by decide)⟩,
   ⟨withGwe (regsAre conf [(aGweTbl 0x040, 0x10000000), (aSilt 0x048, 16128)]) { ready := true }, w,
    (by unfold Passes; decide), by decide, by decide, by decide, by decide, by decide, by decide⟩,
   ⟨withGwe (regsAre conf [(aGweTbl 0x040, 0x10000000)]) { ready := true }, w, (by unfold Passes; decide), by decide,
    by decide, by decide, by decide, (by decide)⟩⟩

/-- States and operands that meet the hypotheses of `PtpClocksAndMessages`, clause by clause. -/
theorem witness_PtpClocksAndMessages :
    (∃ (s : State) (d p q t : Nat) (two : Bool) (i : SyncInfo), twoOk d = true ∧ macOk p = true ∧ syncFrom s d
      p = false) ∧
    (∃ (s : State) (d p q t : Nat) (i : SyncInfo), twoOk d = true ∧ macOk p = true ∧ syncFrom s d p = true) ∧
    (∃ (s : State) (d p q : Nat) (i : SyncInfo), twoOk d = true ∧ macOk p = true ∧ syncFrom s d p = true) ∧
    (∃ (s : State) (d c q : Nat) (t : Int), twoOk d = true ∧ (s.dom d).waitFu = some (t, c, q) ∧ c +
      syncInterval s d < s.cclk) ∧
    (∃ (s : State) (d : Nat), twoOk d = true ∧ syncOverdue s d = true) ∧
    (∃ (s : State) (d : Nat), twoOk d = true ∧ syncOverdue s d = false) ∧
    (∃ (s : State) (d : Nat), twoOk d = true ∧ holdOverdue s d = true) ∧
    (∃ (s : State) (d : Nat), twoOk d = true ∧ holdOverdue s d = false) ∧
    (∃ (s : State) (w : Who) (d : Nat), twoOk d = true ∧ Passes s w (aDom d 0x44) 1) ∧
    (∃ (s : State) (p : Nat), macOk p = true ∧ pdelayDue s p = true) ∧
    (∃ (s : State) (p : Nat), macOk p = true ∧ pdelayDue s p = false) ∧
    (∃ (s : State) (p q id t2 : Nat), macOk p = true ∧ s.bitAt (aPtpPort p 0) 0 = true ∧ portUp s p = true) ∧
    (∃ (s : State) (p q t2 t3 t4 : Nat) (t1 : Int), macOk p = true ∧ (s.pdelay p).asked = some q ∧ (s.pdelay
      p).t1 = some t1 ∧ (meanDelay t1 t2 t3 (gptpIngress s p t4) (rateRatio (s.pdelay p).prev (s.pdelay
      p).nrr t3 (gptpIngress s p t4)) (asymUnits s p)) ≤ nbrThresh s p) ∧
    (∃ (s : State) (p q t2 t3 t4 : Nat) (t1 : Int), macOk p = true ∧ (s.pdelay p).asked = some q ∧ (s.pdelay
      p).t1 = some t1 ∧ (¬ (meanDelay t1 t2 t3 (gptpIngress s p t4) (rateRatio (s.pdelay p).prev (s.pdelay
      p).nrr t3 (gptpIngress s p t4)) (asymUnits s p)) ≤ nbrThresh s p)) ∧
    (∃ (s : State) (p q t2 t3 t4 : Nat), macOk p = true ∧ (s.pdelay p).asked ≠ some q) ∧
    (∃ (s : State) (d q t : Nat) (two : Bool) (i : SyncInfo), twoOk d = true ∧ syncFrom s d (s.dom d).slave =
      true) ∧
    (∃ (s : State) (d p : Nat) (x : Nat × Int × PtpEdit), twoOk d = true ∧ macOk p = true ∧ (s.dom
      d).fuDue.find? (fun y => y.1 == p && y.2.2.known) = some x ∧ ((s.setDom d
      { s.dom d with fuDue := (s.dom d).fuDue.erase x }).pdelay p).asCap = true ∧ portUp (s.setDom d
      { s.dom d with fuDue := (s.dom d).fuDue.erase x }) p = true) ∧
    (∃ (s : State) (d p : Nat) (x : Nat × Int × PtpEdit), twoOk d = true ∧ macOk p = true ∧ (s.dom
      d).fuDue.find? (fun y => y.1 == p && y.2.2.known) = some x ∧ (((s.setDom d
      { s.dom d with fuDue := (s.dom d).fuDue.erase x }).pdelay p).asCap = false ∨ portUp (s.setDom d
      { s.dom d with fuDue := (s.dom d).fuDue.erase x }) p = false)) ∧
    (∃ (s : State) (d : Nat), twoOk d = true ∧ originDue s d = true) :=
  ⟨⟨actv, 1, 47, 5, 6, true, { origin := 0, corr := 0, rate := 0, gmtbi := 0, tlv := 0 }, by decide, by decide,
    by decide⟩,
   ⟨ptpOn { slave := 47 }, 1, 47, 5, 6, { origin := 0, corr := 0, rate := 0, gmtbi := 0, tlv := 0 }, by decide,
    by decide, by decide⟩,
   ⟨ptpOn { slave := 47 }, 1, 47, 5, { origin := 0, corr := 0, rate := 0, gmtbi := 0, tlv := 0 }, by decide, by decide,
    by decide⟩,
   ⟨ptpOn { slave := 47, waitFu := some (1, 0, 2) }, 1, 0, 2, 1, by decide, by decide, by decide⟩,
   ⟨ptpOn { slave := 47, state := .locked }, 1, by decide, by decide⟩,
   ⟨actv, 1, by decide, by decide⟩,
   ⟨regsAre (ptpOn { slave := 47, state := .holdover, holdAt := some 0 }) [(aDom 1 0x14, 1)], 1, by decide, by decide⟩,
   ⟨actv, 1, by decide, by decide⟩,
   ⟨regsAre conf [(aDom 1 0, 2)], w, 1, by decide, (by unfold Passes; decide)⟩,
   ⟨ptpOn { slave := 47 }, 47, by decide, by decide⟩,
   ⟨actv, 47, by decide, by decide⟩,
   ⟨ptpOn { slave := 47 }, 47, 1, 2, 3, by decide, by decide, by decide⟩,
   ⟨ptpOn { slave := 47 }, 47, 9, 0, 0, 0, 0, by decide, by decide, by decide, by decide⟩,
   ⟨regsAre (ptpOn { slave := 47 }) [(aPtpPort 47 0, 1)], 47, 9, 0, 0, 2 ^ 60, 0, by decide, by decide, by decide,
    by decide⟩,
   ⟨ptpOn { slave := 47 }, 47, 8, 0, 0, 0, by decide, by decide⟩,
   ⟨ptpOn { slave := 47 }, 1, 5, 6, true, { origin := 0, corr := 0, rate := 0, gmtbi := 0, tlv := 0 }, by decide,
    by decide⟩,
   ⟨ptpOn { slave := 47, fuDue := [(47, 0, { dom := 1 })] }, 1, 47, (47, 0, { dom := 1 }), by decide, by decide,
    by decide, by decide, by decide⟩,
   ⟨{ actv.setDom 1 { fuDue := [(47, 0, { dom := 1 })] } with cclk := 1 }, 1, 47, (47, 0, { dom := 1 }), by decide,
    by decide, by decide, (by decide)⟩,
   ⟨regsAre (ptpOn {}) [(aDom 1 0, 3)], 1, by decide, by decide⟩⟩

/-- States and operands that meet the hypotheses of `LookasideEngines`, clause by clause. -/
theorem witness_LookasideEngines :
    (∃ (s u : State) (src : LaSource) (d : LaDesc) (x : List Byte) (f : Bool) (op e : Nat) (r : LaReq) (c :
      Instr), (c, op) ∈ [(Instr.aesCtrEnc src d x f, 0x01), (.aesCtrDec src d x f, 0x02), (.aesGcmEnc src
      d x f, 0x03), (.aesGcmDec src d x f, 0x04), (.aesCmacGen src d x f, 0x05), (.aesCmacVer src d x f,
      0x06), (.aesCmacFv src d x f, 0x07), (.aesKwWrap src d x f, 0x08), (.aesKwUnwrap src d x f, 0x09),
      (.sha256 src d x f, 0x10), (.sha384 src d x f, 0x11), (.hmacSha256 src d x f, 0x12), (.hmacSha384
      src d x f, 0x13), (.ecdsaSign src d x f, 0x20), (.ecdsaVerify src d x f, 0x21), (.ecdh src d x f,
      0x22)] ∧ d.op = op ∧ r = laNew s src d x f true ∧ u = laTaken s src r ∧ s.cipher.queue = [] ∧
      laTakes s src = false) ∧
    (∃ (s u : State) (src : LaSource) (d : LaDesc) (x : List Byte) (f : Bool) (op e : Nat) (r : LaReq) (c :
      Instr), (c, op) ∈ [(Instr.aesCtrEnc src d x f, 0x01), (.aesCtrDec src d x f, 0x02), (.aesGcmEnc src
      d x f, 0x03), (.aesGcmDec src d x f, 0x04), (.aesCmacGen src d x f, 0x05), (.aesCmacVer src d x f,
      0x06), (.aesCmacFv src d x f, 0x07), (.aesKwWrap src d x f, 0x08), (.aesKwUnwrap src d x f, 0x09),
      (.sha256 src d x f, 0x10), (.sha384 src d x f, 0x11), (.hmacSha256 src d x f, 0x12), (.hmacSha384
      src d x f, 0x13), (.ecdsaSign src d x f, 0x20), (.ecdsaVerify src d x f, 0x21), (.ecdh src d x f,
      0x22)] ∧ d.op = op ∧ r = laNew s src d x f true ∧ u = laTaken s src r ∧ s.cipher.queue = [] ∧
      laTakes s src = true ∧ laFenced u [] r = false ∧ laEngine u r = some e ∧ laCheck u r = (u, 0)) ∧
    (∃ (s u : State) (src : LaSource) (d : LaDesc) (x : List Byte) (f : Bool) (op e : Nat) (r : LaReq) (c :
      Instr) (st : Nat), (c, op) ∈ [(Instr.aesCtrEnc src d x f, 0x01), (.aesCtrDec src d x f, 0x02),
      (.aesGcmEnc src d x f, 0x03), (.aesGcmDec src d x f, 0x04), (.aesCmacGen src d x f, 0x05),
      (.aesCmacVer src d x f, 0x06), (.aesCmacFv src d x f, 0x07), (.aesKwWrap src d x f, 0x08),
      (.aesKwUnwrap src d x f, 0x09), (.sha256 src d x f, 0x10), (.sha384 src d x f, 0x11), (.hmacSha256
      src d x f, 0x12), (.hmacSha384 src d x f, 0x13), (.ecdsaSign src d x f, 0x20), (.ecdsaVerify src d x
      f, 0x21), (.ecdh src d x f, 0x22)] ∧ d.op = op ∧ r = laNew s src d x f true ∧ u = laTaken s src r ∧
      s.cipher.queue = [] ∧ laTakes s src = true ∧ laFenced u [] r = false ∧ laEngine u r = some e ∧
      laCheck u r = (u, st + 1)) ∧
    (∃ (s u : State) (src : LaSource) (d : LaDesc) (good : Bool) (e op : Nat) (r : LaReq) (c : Instr), (c, op)
      ∈ [(Instr.drbgGen src d good, 0x30), (.drbgReseed src d good, 0x31)] ∧ d.op = op ∧ r = laNew s src d
      [] false good ∧ u = laTaken s src r ∧ s.cipher.queue = [] ∧ laTakes s src = true ∧ laFenced u [] r =
      false ∧ laEngine u r = some e ∧ laCheck u r = (u, 0) ∧ needsHealth s r = false ∧ u.bitAt (aCe 0x044)
      4 = true) ∧
    (∃ (s u : State) (src : LaSource) (d : LaDesc) (good : Bool) (e op : Nat) (r : LaReq) (c : Instr), (c, op)
      ∈ [(Instr.drbgGen src d good, 0x30), (.drbgReseed src d good, 0x31)] ∧ d.op = op ∧ r = laNew s src d
      [] false good ∧ u = laTaken s src r ∧ s.cipher.queue = [] ∧ laTakes s src = true ∧ laFenced u [] r =
      false ∧ laEngine u r = some e ∧ laCheck u r = (u, 0) ∧ needsHealth s r = true ∧ good = true ∧ (op =
      0x31 ∨ u.bitAt (aCe 0x044) 4 = true)) ∧
    (∃ (s u : State) (src : LaSource) (d : LaDesc) (r : LaReq), d.op = 0x3E ∧ r = laNew s src d [] false true
      ∧ u = laTaken s src r ∧ s.cipher.queue = [] ∧ laTakes s src = true ∧ laFenced u [] r = false ∧
      laCheck u r = (u, 0)) ∧
    (∃ (s : State) (n : Nat) (r : LaReq), s.cipher.adm.find? (fun x => x.num == n) = some r ∧ laReady s r =
      true) ∧
    (∃ (s : State) (n : Nat) (r : LaReq), s.cipher.adm.find? (fun x => x.num == n) = some r ∧ laReady s r =
      false) ∧
    (∃ (s : State) (n : Nat) (r : LaReq), s.cipher.adm.find? (fun x => x.num == n) = some r ∧ laReady s r =
      true ∧ (r.source = .mp0 ∨ r.source = .mp1 ∨ r.source = .gwe) ∧ s.cipher.queue = []) :=
  ⟨⟨actv, laTaken actv .mp0 (laNew actv .mp0 { op := 0x10, srcLen := 0, dstLen := 64 } [] false true), .mp0,
    { op := 0x10, srcLen := 0, dstLen := 64 }, [], false, 0x10, 0, (laNew actv .mp0
    { op := 0x10, srcLen := 0, dstLen := 64 } [] false true), .sha256 .mp0
    { op := 0x10, srcLen := 0, dstLen := 64 } [] false, by simp, by decide, rfl, rfl, by decide, by decide⟩,
   ⟨laOn, laTaken laOn .mp0 (laNew laOn .mp0 { op := 0x10, srcLen := 0, dstLen := 64 } [] false true), .mp0,
    { op := 0x10, srcLen := 0, dstLen := 64 }, [], false, 0x10, 2, (laNew laOn .mp0
    { op := 0x10, srcLen := 0, dstLen := 64 } [] false true), .sha256 .mp0
    { op := 0x10, srcLen := 0, dstLen := 64 } [] false, by simp, by decide, rfl, rfl, rfl, by decide, by decide,
    by decide, rfl⟩,
   ⟨laOn, laTaken laOn .mp0 (laNew laOn .mp0 { op := 0x10, tlen := 8 } [] false true), .mp0,
    { op := 0x10, tlen := 8 }, [], false, 0x10, 2, (laNew laOn .mp0 { op := 0x10, tlen := 8 } [] false
    true), .sha256 .mp0 { op := 0x10, tlen := 8 } [] false, 1, by simp, by decide, rfl, rfl, rfl, by decide,
    by decide, by decide, rfl⟩,
   ⟨laOn, laTaken laOn .mp0 (laNew laOn .mp0 { op := 0x30, srcLen := 0, dstLen := 64 } [] false true), .mp0,
    { op := 0x30, srcLen := 0, dstLen := 64 }, true, 5, 0x30, (laNew laOn .mp0
    { op := 0x30, srcLen := 0, dstLen := 64 } [] false true), .drbgGen .mp0
    { op := 0x30, srcLen := 0, dstLen := 64 } true, by simp, by decide, rfl, rfl, rfl, by decide, by decide,
    by decide, rfl, by decide, by decide⟩,
   ⟨laOn, laTaken laOn .mp0 (laNew laOn .mp0 { op := 0x31 } [] false true), .mp0, { op := 0x31 }, true, 5,
    0x31, (laNew laOn .mp0 { op := 0x31 } [] false true), .drbgReseed .mp0 { op := 0x31 } true, by simp, by decide,
    rfl, rfl, rfl, by decide, by decide, by decide, rfl, by decide, by decide, by decide⟩,
   ⟨laOn, laTaken laOn .mp0 (laNew laOn .mp0 { op := 0x3E } [] false true), .mp0, { op := 0x3E }, (laNew laOn
    .mp0 { op := 0x3E } [] false true), by decide, rfl, rfl, by decide, by decide, by decide, rfl⟩,
   ⟨{ actv with cipher := { adm := [{ source := .mp0, d := { op := 0x10 }, input := [], num := 7, doneAt := 0 }] } },
    7, { source := .mp0, d := { op := 0x10 }, input := [], num := 7, doneAt := 0 }, by decide, by decide⟩,
   ⟨{ actv with cipher := { adm := [{ source := .mp0, d := { op := 0x10 }, input := [], num := 7, doneAt := 1 }] } },
    7, { source := .mp0, d := { op := 0x10 }, input := [], num := 7, doneAt := 1 }, by decide, by decide⟩,
   ⟨{ actv with cipher := { adm := [{ source := .mp0, d := { op := 0x10 }, input := [], num := 7, doneAt := 0 }] } },
    7, { source := .mp0, d := { op := 0x10 }, input := [], num := 7, doneAt := 0 }, by decide, by decide, by decide,
    by decide⟩⟩

/-- States and operands that meet the hypotheses of `SecureAssociationsAndTests`, clause by clause. -/
theorem witness_SecureAssociationsAndTests :
    (∃ (s : State) (w : Who) (p : Nat) (sa : SaId) (v : Word), macOk p = true ∧ saOk sa = true ∧ bit v.toNat 0
      = true ∧ Passes s w (aMsc p (saOff sa)) v ∧ s.faults.marks = [] ∧ (isHost w.m = false ∨ siltFull s =
      false) ∧ installCause s p sa (bits v.toNat 4 10) = 0) ∧
    (∃ (s : State) (w : Who) (p : Nat) (sa : SaId) (v : Word) (k : Nat), macOk p = true ∧ saOk sa = true ∧ bit
      v.toNat 0 = true ∧ Passes s w (aMsc p (saOff sa)) v ∧ s.faults.marks = [] ∧ (isHost w.m = false ∨
      siltFull s = false) ∧ installCause s p sa (bits v.toNat 4 10) = k + 1) ∧
    (∃ (s : State) (w : Who) (p : Nat) (sa : SaId) (v : Word), macOk p = true ∧ saOk sa = true ∧ bit v.toNat 0
      = false ∧ Passes s w (aMsc p (saOff sa)) v ∧ bit (s.reg (aMsc p (saOff sa))).toNat 0 = true) ∧
    (∃ (s : State) (w : Who) (p : Nat) (v : Word), macOk p = true ∧ Passes s w (aMsc p 0x054) v) ∧
    (∃ (s : State) (eg : Bool) (i j k : Nat), katDue s eg = true ∧ (s.kat eg).spare = some j ∧ (katOrder s
      eg).find? (fun i => (List.range 4).any (fun k => pipeOf s eg k == i)) = some i ∧ (List.range
      4).find? (fun k => pipeOf s eg k == i) = some k) ∧
    (∃ (s : State) (eg : Bool) (i : Nat), (s.kat eg).testing = some i ∧ (List.range 4).find? (fun k => pipeOf
      (s.bump (aCeCnt 5)) eg k == 7) = none) ∧
    (∃ (s : State) (eg : Bool) (i : Nat), (s.kat eg).testing = some i) :=
  ⟨⟨(conf.setKeySlot 5 { attr := 0x400903 }), { m := .mp1 }, 47, .rx 3 1, 0x51, by decide, by decide, by decide,
    (by unfold Passes; decide), by decide, by decide, by decide⟩,
   ⟨conf, { m := .mp1 }, 47, .rx 3 1, 0x51, 0, by decide, by decide, by decide, (by unfold Passes; decide), by decide,
    by decide, by decide⟩,
   ⟨regsAre conf [(aMsc 47 0x080, 1)], { m := .mp1 }, 47, .tx 0, 0, by decide, by decide, by decide,
    (by unfold Passes; decide), by decide⟩,
   ⟨regsAre conf [(aMsc 47 0x080, 1)], { m := .mp1 }, 47, 0, by decide, (by unfold Passes; decide)⟩,
   ⟨{ regsAre actv [(aCe 0x044, 1)] with cclk := 10 ^ 12 }, true, 0, 4, 0, by decide, by decide, by decide, by decide⟩,
   ⟨{ actv with cipher := { katEg := { testing := some 0 } } }, true, 0, by decide, by decide⟩,
   ⟨{ actv with cipher := { katEg := { testing := some 0 } } }, true, 0, by decide⟩⟩

/-- States and operands that meet the hypotheses of `KeyAgreement`, clause by clause. -/
theorem witness_KeyAgreement :
    (∃ (s : State) (p : Nat) (bs : List Byte), macOk p = true ∧ s.twin.role ≠ .standby) ∧
    (∃ (s : State) (p : Nat) (bs : List Byte), macOk p = true ∧ s.twin.role = .standby ∧ s.bitAt (aMsc p
      0x064) 0 = true ∧ (slSend s 0x50 true (.mka p bs)).twin.role = .standby) ∧
    (∃ (s u : State) (p : Nat), macOk p = true ∧ helloDue s p = true ∧ u = sakSwitch (sakMake (sakRetire
      (mkaWants (mkaStart s p) p) p) p) p) ∧
    (∃ (s : State) (p : Nat), macOk p = true ∧ helloDue s p = false) ∧
    (∃ (s : State) (p mi : Nat) (x : MkaPeer), macOk p = true ∧ mkaRuns s p = true ∧ (s.mka p).peers.find?
      (fun y => y.mi == mi) = some x ∧ x.lifeEnd ≤ s.cclk) ∧
    (∃ (s : State) (p mi : Nat) (x : MkaPeer), macOk p = true ∧ mkaRuns s p = true ∧ (s.mka p).peers.find?
      (fun y => y.mi == mi) = some x ∧ s.cclk < x.lifeEnd) :=
  ⟨⟨actv, 47, [], by decide, by decide⟩,
   ⟨linked { (regsAre stby [(aMsc 47 0x064, 1)]) with cclk := 1 } {}, 47, [], by decide, by decide, by decide,
    by decide⟩,
   ⟨mkaOn { mi := some 5 }, _, 47, by decide, by decide, rfl⟩,
   ⟨actv, 47, by decide, by decide⟩,
   ⟨mkaOn { peers := [{ mi := 5, mn := 1, sci := 2, prio := 3, live := true, lifeEnd := 1000 }] }, 47, 5,
    { mi := 5, mn := 1, sci := 2, prio := 3, live := true, lifeEnd := 1000 }, by decide, by decide, by decide,
    by decide⟩,
   ⟨mkaOn { peers := [{ mi := 5, mn := 1, sci := 2, prio := 3, live := true, lifeEnd := 1001 }] }, 47, 5,
    { mi := 5, mn := 1, sci := 2, prio := 3, live := true, lifeEnd := 1001 }, by decide, by decide, by decide,
    by decide⟩⟩

/-- States and operands that meet the hypotheses of `KeyUpdateMessages`, clause by clause. -/
theorem witness_KeyUpdateMessages :
    (∃ (s : State) (h : HostPort), mbxFront s h 4 = true ∧ s.mode ≠ .boot ∧ asleep s.mode = false ∧ mbxLen s h
      ≤ 248 ∧ (s.mode ≠ .quarantine ∨ pairOk s true = true) ∧ kumReqOp s h = 1) ∧
    (∃ (s : State) (h : HostPort), mbxFront s h 4 = true ∧ s.mode ≠ .boot ∧ asleep s.mode = false ∧ mbxLen s h
      ≤ 248 ∧ (s.mode ≠ .quarantine ∨ pairOk s true = true) ∧ kumReqOp s h = 2) ∧
    (∃ (s : State) (h : HostPort), mbxFront s h 4 = true ∧ s.mode ≠ .boot ∧ asleep s.mode = false ∧ mbxLen s h
      ≤ 248 ∧ (s.mode ≠ .quarantine ∨ pairOk s true = true) ∧ kumReqOp s h = 3) ∧
    (∃ (s : State) (h : HostPort), mbxFront s h 4 = true ∧ s.mode ≠ .boot ∧ asleep s.mode = false ∧ mbxLen s h
      ≤ 248 ∧ (s.mode ≠ .quarantine ∨ pairOk s true = true) ∧ kumReqOp s h = 5) ∧
    (∃ (s : State) (h : HostPort), mbxFront s h 4 = true ∧ s.mode ≠ .boot ∧ asleep s.mode = false ∧ mbxLen s h
      ≤ 248 ∧ (s.mode ≠ .quarantine ∨ pairOk s true = true) ∧ kumReqOp s h = 4) ∧
    (∃ (s : State) (h : HostPort) (c : Instr), mbxFront s h 4 = false ∧ c ∈ [Instr.kumInstall h, .kumDerive h,
      .kumInvalidate h, .kumFirst h, .kumLcAdvance h]) ∧
    (∃ (s : State) (g : Nat), s.keys.graceEnd = some g ∧ g ≤ s.cclk) ∧
    (∃ (s : State) (g : Nat), s.keys.graceEnd = some g ∧ s.cclk < g) :=
  ⟨⟨kumAsks 1, .a, by decide, by decide, by decide, by decide, by decide, by decide⟩,
   ⟨kumAsks 2, .a, by decide, by decide, by decide, by decide, by decide, by decide⟩,
   ⟨kumAsks 3, .a, by decide, by decide, by decide, by decide, by decide, by decide⟩,
   ⟨kumAsks 5, .a, by decide, by decide, by decide, by decide, by decide, by decide⟩,
   ⟨kumAsks 4, .a, by decide, by decide, by decide, by decide, by decide, by decide⟩,
   ⟨conf, .a, .kumLcAdvance .a, by decide, by simp⟩,
   ⟨{ conf with keys := { graceEnd := some 0 } }, 0, by decide, by decide⟩,
   ⟨{ conf with keys := { graceEnd := some 1 } }, 1, by decide, by decide⟩⟩

/-- States and operands that meet the hypotheses of `UpdateDecisions`, clause by clause. -/
theorem witness_UpdateDecisions :
    (∃ (s : State) (h : HostPort), s.mode ≠ .boot ∧ s.mode ≠ .quarantine ∧ asleep s.mode = false ∧ mbxFront s
      h 5 = true ∧ mbxByte s h 8 = 1 ∧ mbxLen s h = 2 ∧ activateRefusal s = 0) ∧
    (∃ (s : State) (h : HostPort), s.mode ≠ .boot ∧ s.mode ≠ .quarantine ∧ asleep s.mode = false ∧ mbxFront s
      h 5 = true ∧ mbxByte s h 8 = 1 ∧ mbxLen s h = 2 ∧ slotIn s .ready = none) ∧
    (∃ (s : State) (h : HostPort), s.mode ≠ .boot ∧ s.mode ≠ .quarantine ∧ asleep s.mode = false ∧ mbxFront s
      h 5 = true ∧ mbxByte s h 8 = 2 ∧ mbxLen s h = 2 ∧ activateRefusal s = 0 ∧ (s.mode ≠ .active ∨ bit
      (mbxByte s h 9) 0 = true)) ∧
    (∃ (s : State) (h : HostPort), s.mode ≠ .boot ∧ s.mode ≠ .quarantine ∧ asleep s.mode = false ∧ mbxFront s
      h 5 = true ∧ mbxByte s h 8 = 2 ∧ mbxLen s h = 2 ∧ activateRefusal s = 0 ∧ s.mode = .active ∧ bit
      (mbxByte s h 9) 0 = false) ∧
    (∃ (s : State) (h : HostPort), s.mode ≠ .boot ∧ s.mode ≠ .quarantine ∧ asleep s.mode = false ∧ mbxFront s
      h 5 = true ∧ mbxByte s h 8 = 3 ∧ mbxLen s h = 2 ∧ slotIn s .pending = none) ∧
    (∃ (s : State) (h : HostPort) (k : Nat), s.mode ≠ .boot ∧ s.mode ≠ .quarantine ∧ asleep s.mode = false ∧
      mbxFront s h 5 = true ∧ mbxByte s h 8 = 3 ∧ mbxLen s h = 2 ∧ slotIn s .pending = some k ∧ siltFull s
      = false) ∧
    (∃ (s : State) (h : HostPort), s.mode ≠ .boot ∧ s.mode ≠ .quarantine ∧ asleep s.mode = false ∧ mbxFront s
      h 5 = true ∧ mbxByte s h 8 = 4 ∧ mbxLen s h = 2 ∧ slotIn s .trial = none) ∧
    (∃ (s : State) (h : HostPort) (k : Nat), s.mode ≠ .boot ∧ s.mode ≠ .quarantine ∧ asleep s.mode = false ∧
      mbxFront s h 5 = true ∧ mbxByte s h 8 = 4 ∧ mbxLen s h = 2 ∧ slotIn s .trial = some k ∧ siltFull s =
      false) ∧
    (∃ (s : State) (h : HostPort), s.mode ≠ .boot ∧ s.mode ≠ .quarantine ∧ asleep s.mode = false ∧ mbxFront s
      h 5 = true ∧ mbxByte s h 8 = 5 ∧ mbxLen s h = 40 ∧ lcState s ≠ 0) ∧
    (∃ (s : State) (h : HostPort), s.mode ≠ .boot ∧ s.mode ≠ .quarantine ∧ asleep s.mode = false ∧ mbxFront s
      h 5 = true ∧ mbxByte s h 8 = 5 ∧ mbxLen s h = 40 ∧ lcState s = 0 ∧ beNat (oemHash s) ≠ 0) ∧
    (∃ (s : State) (h : HostPort), s.mode ≠ .boot ∧ s.mode ≠ .quarantine ∧ asleep s.mode = false ∧ mbxFront s
      h 5 = true ∧ mbxByte s h 8 = 5 ∧ mbxLen s h = 40 ∧ lcState s = 0 ∧ beNat (oemHash s) = 0 ∧ siltFull
      s = false) :=
  ⟨⟨decides conf 1 2 0 .confirmed .ready, .a, by decide, by decide, by decide, by decide, by decide, by decide,
    by decide⟩,
   ⟨decides conf 1 2 0 .confirmed .empty, .a, by decide, by decide, by decide, by decide, by decide, by decide,
    by decide⟩,
   ⟨decides conf 2 2 0 .confirmed .ready, .a, by decide, by decide, by decide, by decide, by decide, by decide,
    by decide, by decide⟩,
   ⟨decides actv 2 2 0 .confirmed .ready, .a, by decide, by decide, by decide, by decide, by decide, by decide,
    by decide, by decide, by decide⟩,
   ⟨decides conf 3 2 0 .confirmed .empty, .a, by decide, by decide, by decide, by decide, by decide, by decide,
    by decide⟩,
   ⟨decides conf 3 2 0 .confirmed .pending, .a, 1, by decide, by decide, by decide, by decide, by decide, by decide,
    by decide, by decide⟩,
   ⟨decides conf 4 2 0 .confirmed .empty, .a, by decide, by decide, by decide, by decide, by decide, by decide,
    by decide⟩,
   ⟨decides conf 4 2 0 .confirmed .trial, .a, 1, by decide, by decide, by decide, by decide, by decide, by decide,
    by decide, by decide⟩,
   ⟨{ decides conf 5 40 0 .confirmed .empty with nvm := { otp := [(0xA8, 1)] } }, .a, by decide, by decide, by decide,
    by decide, by decide, by decide, by decide⟩,
   ⟨{ decides conf 5 40 0 .confirmed .empty with nvm := { otp := [(0x88, 1)] } }, .a, by decide, by decide, by decide,
    by decide, by decide, by decide, by decide, by decide⟩,
   ⟨decides conf 5 40 0 .confirmed .empty, .a, by decide, by decide, by decide, by decide, by decide, by decide,
    by decide, by decide, by decide⟩⟩

/-- States and operands that meet the hypotheses of `RolesOfTheTwins`, clause by clause. -/
theorem witness_RolesOfTheTwins :
    (∃ (s : State), mayArbitrate s = true ∧ s.twin.lineLow = false) ∧
    (∃ (s : State), mayArbitrate s = true ∧ s.twin.lineLow = true) ∧
    (∃ (s : State), mayArbitrate s = false) ∧
    (∃ (s : State), s.twin.role = .arb ∧ s.twin.strapConflict = false ∧ s.twin.lineLow = false ∧ preferred s =
      true ∧ s.twin.arbAt + observe s ≤ s.cclk) ∧
    (∃ (s : State), s.twin.role = .arb ∧ s.twin.strapConflict = false ∧ s.twin.lineLow = false ∧ preferred s =
      false ∧ s.twin.arbAt + observe s + grace s ≤ s.cclk) ∧
    (∃ (s : State), s.twin.role = .arb ∧ s.twin.strapConflict = false ∧ s.twin.lineLow = false) ∧
    (∃ (s : State), s.twin.role = .arb ∧ s.twin.strapConflict = false ∧ s.twin.lineLow = false ∧ preferred s =
      false) ∧
    (∃ (s : State), s.twin.role = .arb ∧ s.twin.strapConflict = false ∧ s.twin.lineLow = false ∧ preferred s =
      true) ∧
    (∃ (s : State) (p : Nat) (low : Bool), s.twin.window = some p) ∧
    (∃ (s : State) (p : Nat) (low : Bool), s.twin.window = some p ∧ low = false ∧ s.twin.role = .active ∧ p +
      (windowOf s.twin.twinB).2 ≤ s.cclk) ∧
    (∃ (s : State), s.twin.role ≠ .arb ∧ s.twin.role ≠ .standby) ∧
    (∃ (s : State), s.twin.role = .arb) ∧
    (∃ (s : State), mayTakeOver s = true) ∧
    (∃ (s : State), mayTakeOver s = true ∧ s.twin.waitWindow = false ∧ s.twin.isolated = false ∧ s.twin.window
      = none) ∧
    (∃ (s : State) (h : HostPort), s.mode ≠ .boot ∧ s.mode ≠ .quarantine ∧ asleep s.mode = false ∧ mbxFront s
      h 6 = true ∧ mbxLen s h = 0 ∧ s.twin.role ≠ .active) ∧
    (∃ (s : State) (h : HostPort), s.mode ≠ .boot ∧ s.mode ≠ .quarantine ∧ asleep s.mode = false ∧ mbxFront s
      h 6 = true ∧ mbxLen s h = 0 ∧ s.twin.role = .active ∧ s.twin.sync ≠ .synced) ∧
    (∃ (s : State) (h : HostPort), s.mode ≠ .boot ∧ s.mode ≠ .quarantine ∧ asleep s.mode = false ∧ mbxFront s
      h 6 = true ∧ mbxLen s h = 0 ∧ s.twin.role = .active ∧ s.twin.sync = .synced ∧ s.twin.swap = none) ∧
    (∃ (s : State) (c : SwapCond), s.mode = .active ∧ s.twin.role = .active ∧ s.twin.sync = .synced ∧
      s.twin.swap = none ∧ s.bitAt (aLsp 0x040) (swapCondBit c) = true ∧ swapCondHolds s c = true) ∧
    (∃ (s : State) (x : Swap), s.twin.swap = some x ∧ s.twin.role = .active ∧ x.acked = true ∧ syncCnt s =
      x.point) ∧
    (∃ (s : State) (x : Swap), s.twin.swap = some x ∧ s.twin.role = .standby ∧ s.twin.store.map (fun c => c.n)
      = some x.point) ∧
    (∃ (s : State) (x : Swap), s.twin.swap = some x ∧ s.twin.role = .active ∧ x.acked = false ∧ predictNumber
      s x.point ≤ s.cclk + 20000) ∧
    (∃ (s : State) (d : Nat), s.twin.taskAt = some d ∧ s.twin.role = .active ∧ s.twin.gate = true ∧ d + 8 ≤
      s.cclk) ∧
    (∃ (s : State) (d : Nat), s.twin.taskAt = some d ∧ s.twin.role = .active ∧ s.twin.gate = false) :=
  ⟨⟨mayArb {}, by decide, by decide⟩,
   ⟨mayArb { lineLow := true }, by decide, by decide⟩,
   ⟨actv, by decide⟩,
   ⟨arb {}, by decide, by decide, by decide, by decide, by decide⟩,
   ⟨arb { twinB := true }, by decide, by decide, by decide, by decide, by decide⟩,
   ⟨arb {}, by decide, by decide, by decide⟩,
   ⟨arb { twinB := true }, by decide, by decide, by decide, by decide⟩,
   ⟨arb {}, by decide, by decide, by decide, by decide⟩,
   ⟨{ actv with twin := { window := some 0 } }, 0, false, by decide⟩,
   ⟨{ actv with twin := { role := .active, window := some 0 }, cclk := 21999 }, 0, false, by decide, by decide,
    by decide, by decide⟩,
   ⟨actv, by decide, by decide⟩,
   ⟨arb {}, by decide⟩,
   ⟨{ stby with twin := { role := .standby, lost := true } }, by decide⟩,
   ⟨{ stby with twin := { role := .standby, lost := true } }, by decide, by decide, by decide, by decide⟩,
   ⟨asks conf 6 0 0 0, .a, by decide, by decide, by decide, by decide, by decide, by decide⟩,
   ⟨asks actv 6 0 0 0, .a, by decide, by decide, by decide, by decide, by decide, by decide, by decide⟩,
   ⟨asks (swaps none) 6 0 0 0, .a, by decide, by decide, by decide, by decide, by decide, by decide, by decide,
    by decide⟩,
   ⟨regsAre (swaps none) [(aLsp 0x040, 7), (aCe 0x044, 8)], .noPipe, by decide, by decide, by decide, by decide,
    by decide, by decide⟩,
   ⟨swaps (some { point := 0, acked := true }), { point := 0, acked := true }, by decide, by decide, by decide,
    by decide⟩,
   ⟨{ stby with twin := { role := .standby, store := some { n := 4, epoch := 0, term := 0, digest := 0 }, swap := some { point := 4 } } },
    { point := 4 }, by decide, by decide, by decide⟩,
   ⟨swaps (some { point := 0 }), { point := 0 }, by decide, by decide, by decide, by decide⟩,
   ⟨{ actv with twin := { role := .active, gate := true, taskAt := some 0 }, cclk := 8 }, 0, by decide, by decide,
    by decide, by decide⟩,
   ⟨{ actv with twin := { role := .active, taskAt := some 0 }, cclk := 8 }, 0, by decide, by decide, by decide⟩⟩

/-- States and operands that meet the hypotheses of `AliveAndHeartbeats`, clause by clause. -/
theorem witness_AliveAndHeartbeats :
    (∃ (s : State) (w : Who), Passes s w (aTwn 0x050) 1) ∧
    (∃ (s : State) (k : Nat), s.twin.lastKick = some k ∧ s.twin.alive = true ∧ k + 100000 ≤ s.cclk ∧ s.mode ≠
      .quarantine) ∧
    (∃ (s : State) (k : Nat), s.twin.lastKick = some k ∧ s.cclk < k + 100000) ∧
    (∃ (s : State), s.twin.alive = true ∧ s.twin.nextHb ≤ s.cclk) ∧
    (∃ (s : State), s.twin.alive = false) ∧
    (∃ (s : State) (p : HbPath) (x : HbInfo), s.mode ≠ .boot ∧ asleep s.mode = false) ∧
    (∃ (s : State) (p : HbPath), s.mode ≠ .boot ∧ asleep s.mode = false ∧ isSilent s p = false ∧ lastHeard s p
      + hbMiss s * 10000 + 1000 ≤ s.cclk ∧ isSilent s (otherPath p) = false) ∧
    (∃ (s : State), annDue s = true) ∧
    (∃ (s : State), annDue s = false) :=
  ⟨⟨conf, { m := .mp0 }, (by unfold Passes; decide)⟩,
   ⟨{ actv with twin := { lastKick := some 0, alive := true }, cclk := 100000 }, 0, by decide, by decide, by decide,
    by decide⟩,
   ⟨{ actv with twin := { lastKick := some 0 }, cclk := 99999 }, 0, by decide, by decide⟩,
   ⟨{ actv with twin := { alive := true } }, by decide, by decide⟩,
   ⟨actv, by decide⟩,
   ⟨actv, .sideband, { twinB := true, role := 0, sync := 0, prefB := false, term := 0, uid := 0 }, by decide,
    by decide⟩,
   ⟨{ actv with cclk := 10 ^ 9 }, .shellLink, by decide, by decide, by decide, by decide, by decide⟩,
   ⟨{ regsAre actv [(aTwn 0x068, 0x8000)] with twin := { annNext := 1, annLeft := 1 }, cclk := 1 }, by decide⟩,
   ⟨actv, by decide⟩⟩

/-- States and operands that meet the hypotheses of `ShellLinkRecords`, clause by clause. -/
theorem witness_ShellLinkRecords :
    (∃ (s : State) (lane : Nat) (bs : List Byte), twoOk lane = true ∧ (bit s.sl.up lane = false ∨ s.bitAt
      (regAddr pSl 0x040) lane = false)) ∧
    (∃ (s : State) (lane : Nat) (bs : List Byte), twoOk lane = true ∧ bit s.sl.up lane = true ∧ s.bitAt
      (regAddr pSl 0x040) lane = true ∧ slCrcOk bs = false) ∧
    (∃ (s : State) (lane : Nat) (bs : List Byte), twoOk lane = true ∧ bit s.sl.up lane = true ∧ s.bitAt
      (regAddr pSl 0x040) lane = true ∧ slCrcOk bs = true ∧ slTypes.contains (byteAt bs 0) = false) ∧
    (∃ (s : State) (lane : Nat) (bs : List Byte), twoOk lane = true ∧ bit s.sl.up lane = true ∧ s.bitAt
      (regAddr pSl 0x040) lane = true ∧ slCrcOk bs = true ∧ byteAt bs 0 = 2 ∧ s.sl.waiting = []) ∧
    (∃ (s : State) (lane : Nat) (bs : List Byte) (r : SlRec), twoOk lane = true ∧ bit s.sl.up lane = true ∧
      s.bitAt (regAddr pSl 0x040) lane = true ∧ slCrcOk bs = true ∧ byteAt bs 0 = 2 ∧ s.sl.waiting = [r] ∧
      (∀ x ∈ s.sl.unacked, 2 ^ 31 ≤ (x.1.lseq + 2 ^ 32 - beAt bs 16 4 - 1) % 2 ^ 32)) ∧
    (∃ (s : State), slUp s = true ∧ s.sl.lackDue ≠ none) ∧
    (∃ (s : State) (x : SlRec × Nat) (rest : List (SlRec × Nat)), s.sl.unacked = x :: rest ∧ slUp s = true ∧
      x.2 + 10000 ≤ s.cclk) ∧
    (∃ (s : State) (x : SlRec × Nat) (rest : List (SlRec × Nat)), s.sl.unacked = x :: rest ∧ slUp s = true ∧
      s.cclk < x.2 + 10000) :=
  ⟨⟨actv, 1, [], by decide, by decide⟩,
   ⟨linked actv {}, 1, [], by decide, by decide, by decide, by decide⟩,
   ⟨linked actv {}, 1, slEmpty 0x7F, by decide, by decide, by decide, by decide, by decide⟩,
   ⟨linked actv {}, 1, slEmpty 2, by decide, by decide, by decide, by decide, by decide, by decide⟩,
   ⟨linked actv { waiting := [{ ty := 1, body := .joinReq }] }, 1, slEmpty 2, { ty := 1, body := .joinReq }, by decide,
    by decide, by decide, by decide, by decide, by decide, by decide⟩,
   ⟨linked actv { lackDue := some 0 }, by decide, by decide⟩,
   ⟨linked actv { unacked := [({ ty := 1, body := .joinReq }, 0)] }, ({ ty := 1, body := .joinReq }, 0), [], by decide,
    by decide, by decide⟩,
   ⟨{ linked actv { unacked := [({ ty := 1, body := .joinReq }, 0)] } with cclk := 9999 },
    ({ ty := 1, body := .joinReq }, 0), [], by decide, by decide, by decide⟩⟩

/-- States and operands that meet the hypotheses of `JoinsAndPoints`, clause by clause. -/
theorem witness_JoinsAndPoints :
    (∃ (s : State), s.twin.role = .active ∧ slUp s = true) ∧
    (∃ (s : State), s.twin.role ≠ .active) ∧
    (∃ (s : State) (e d c : Nat) (l : List (Nat × Word)), s.twin.role = .standby ∧ s.twin.sync = .joining ∧
      s.twin.joinReq = true ∧ slUp s = true) ∧
    (∃ (s : State) (c : SyncCore), s.twin.role = .standby ∧ slUp s = true ∧ s.twin.joined = true ∧ isNewer s
      c.n = true) ∧
    (∃ (s : State) (c : SyncCore), s.twin.role = .standby ∧ slUp s = true ∧ s.twin.joined = true ∧ isNewer s
      c.n = false) ∧
    (∃ (s : State) (f : Nat), s.twin.recomputing = true) ∧
    (∃ (s : State) (f : Nat), s.twin.recomputing = false) ∧
    (∃ (s : State) (n d : Nat) (m : Bool), s.twin.role = .active ∧ slUp s = true ∧ n < 2 ^ 32 ∧ (syncCnt s + 2
      ^ 32 - n) % 2 ^ 32 < 2 ^ 31) ∧
    (∃ (s : State) (w : Master) (tag point : Nat) (vals : List (Nat × Word)) (recs : List (Nat × Nat × List
      Byte)), s.twin.role = .standby ∧ slUp s = true) ∧
    (∃ (s : State) (tag point : Nat), s.twin.role = .active ∧ slUp s = true) :=
  ⟨⟨linked actv {}, by decide, by decide⟩,
   ⟨conf, by decide⟩,
   ⟨{ linked stby {} with twin := { role := .standby, sync := .joining, joinReq := true, joined := true } }, 0,
    0, 0, [], by decide, by decide, by decide, by decide⟩,
   ⟨{ linked stby {} with twin := { role := .standby, sync := .synced, joinReq := true, joined := true } },
    { n := 1, epoch := 0, term := 0, digest := 0 }, by decide, by decide, by decide, by decide⟩,
   ⟨{ linked stby {} with twin := { role := .standby, sync := .synced, joinReq := true, joined := true } },
    { n := 0, epoch := 0, term := 0, digest := 0 }, by decide, by decide, by decide, by decide⟩,
   ⟨{ stby with twin := { recomputing := true } }, 0, by decide⟩,
   ⟨stby, 0, by decide⟩,
   ⟨linked actv {}, 0, 0, false, by decide, by decide, by decide, by decide⟩,
   ⟨linked stby {}, .ha, 0, 0, [], [], by decide, by decide⟩,
   ⟨linked actv {}, 0, 0, by decide, by decide⟩⟩

/-- States and operands that meet the hypotheses of `LockstepAndStalls`, clause by clause. -/
theorem witness_LockstepAndStalls :
    (∃ (s : State) (mp1 : Bool) (k : Nat) (a : Bool), pairOk s mp1 = true ∧ asleep s.mode = false) ∧
    (∃ (s : State) (mp1 : Bool) (k : Nat) (a : Bool), pairOk s mp1 = false) ∧
    (∃ (s : State) (mp1 : Bool) (k : Nat) (a : Bool) (l : List Staged), pairOk s mp1 = false) ∧
    (∃ (s : State) (mp1 : Bool) (k : Nat), pairOk s mp1 = true ∧ asleep s.mode = false ∧ (s.pairSt mp1).inj =
      none ∧ (s.pairSt mp1).agreed = false ∧ (s.pairSt mp1).asyncMm ≠ 3) ∧
    (∃ (s : State) (w : Who) (a n q : Nat) (mp1 : Bool) (x : Nat × Word) (c : Instr), c ∈ [.semTasRead w n,
      .capNsRead w n, .canTxevRead w n, .canRxqPop w n q] ∧ c.wf = true ∧ readOf c = some (w, a) ∧ w.m =
      (if mp1 then .mp1 else .mp0) ∧ Reaches s w a ∧ (s.pairSt mp1).left.find? (fun y => y.1 == a) = some
      x) ∧
    (∃ (s : State) (mp1 : Bool) (l : List Staged), pairOk s mp1 = true ∧ asleep s.mode = false ∧ runInjected s
      mp1 = false ∧ l.length ≤ 64 ∧ (s.pairSt mp1).overran = false) ∧
    (∃ (s : State) (mp1 : Bool) (l : List Staged), pairOk s mp1 = true ∧ asleep s.mode = false ∧ runInjected s
      mp1 = false ∧ 64 < l.length ∧ s.mode ≠ .quarantine) ∧
    (∃ (s : State) (mp1 : Bool) (k : Nat), pairOk s mp1 = true ∧ asleep s.mode = false ∧ s.mode ≠ .quarantine) ∧
    (∃ (s : State) (u : Nat), asleep s.mode = false ∧ stageLate s u = true ∧ s.mode ≠ .quarantine) ∧
    (∃ (s : State) (u : Nat), asleep s.mode = false ∧ stageLate s u = false) ∧
    (∃ (s : State) (p : Nat), portOk p = true ∧ portStalls s p = true ∧ asleep s.mode = false ∧ s.mode ≠
      .quarantine) ∧
    (∃ (s : State) (b : Bool), asleep s.mode = false ∧ s.mode ≠ .quarantine) ∧
    (∃ (s : State) (n : Nat), supplyOk n = true ∧ asleep s.mode = false ∧ s.mode ≠ .quarantine) ∧
    (∃ (s : State) (r : Nat), r < 12 ∧ passDue s r = true) ∧
    (∃ (s : State) (r : Nat), r < 12 ∧ passDue s r = false) :=
  ⟨⟨actv, true, 3, false, by decide, by decide⟩,
   ⟨{ actv with faults := { pair1 := { ok := false } } }, true, 3, false, by decide⟩,
   ⟨{ actv with faults := { pair1 := { ok := false } } }, true, 3, false, [], by decide⟩,
   ⟨actv, true, 3, by decide, by decide, by decide, by decide, by decide⟩,
   ⟨{ actv with faults := { pair0 := { left := [(aTas 0, 5)] } } }, { m := .mp0 }, aTas 0, 0, 0, false, (aTas
    0, 5), .semTasRead { m := .mp0 } 0, (by simp), by decide, by decide, by decide,
    (by unfold Reaches; decide), by decide⟩,
   ⟨actv, true, [], by decide, by decide, by decide, by decide, by decide⟩,
   ⟨actv, true, List.replicate 65 { off := 0, val := 0 }, by decide, by decide, by decide, by decide, by decide⟩,
   ⟨actv, true, 3, by decide, by decide, by decide⟩,
   ⟨withFrame { stage := .looked, set := 4 }, 0x100, by decide, by decide, by decide⟩,
   ⟨actv, 3, by decide, by decide⟩,
   ⟨{ (upPort 47).setEgs 47 { stallAt := some 0 } with cclk := 100000 }, 47, by decide, by decide, by decide,
    by decide⟩,
   ⟨actv, true, by decide, by decide⟩,
   ⟨actv, 2, by decide, by decide, by decide⟩,
   ⟨actv, 10, by decide, by decide⟩,
   ⟨regsAre conf [(aMem 0x040, 0)], 10, by decide, by decide⟩⟩

/-- States and operands that meet the hypotheses of `FaultReportsAndInjection`, clause by clause. -/
theorem witness_FaultReportsAndInjection :
    (∃ (s : State) (r : Report), nextReport s = some r ∧ s.faults.fifo.length < 1024) ∧
    (∃ (s : State) (r : Report), nextReport s = some r ∧ 1024 ≤ s.faults.fifo.length) ∧
    (∃ (s : State), nextReport s = none) ∧
    (∃ (s : State) (i : Nat) (e : CoalEntry), i ≤ 1024 ∧ coalEntry s i = some e ∧ e.st = .open_ ∧ e.first +
      fltWindow s + 2000 < s.cclk) ∧
    (∃ (s : State) (i : Nat) (e : CoalEntry), i ≤ 1024 ∧ coalEntry s i = some e ∧ e.st = .open_ ∧ s.cclk ≤
      e.first + fltWindow s + 2000) ∧
    (∃ (s : State) (e : CoalEntry) (i : Nat) (rest : List (CoalEntry × Nat)), s.faults.closing = (e, i) ::
      rest) ∧
    (∃ (s : State) (w : Who) (v : Word), bit v.toNat 31 = true ∧ Passes s w (aMem 0x050) v) ∧
    (∃ (s : State) (w : Who) (v : Word) (k : Nat) (c : Instr), (c, k) ∈ [(Instr.lspInjOnce w v, 1),
      (.lspInjAsync w v, 2), (.lspInjPersist w v, 3)] ∧ bit v.toNat 31 = true ∧ fld v 1 2 = k ∧ Passes s w
      (aLsp 0x04C) v) ∧
    (∃ (s : State) (w : Who) (v : Word), bit v.toNat 31 = true ∧ Passes s w (aFlt 0x100) v) :=
  ⟨⟨{ actv with faults := { events := [{ cls := 1, reporter := 2, at_ := 0 }] }, cclk := 8 },
    { cls := 1, reporter := 2, at_ := 0 }, by decide, by decide⟩,
   ⟨{ actv with faults := { events := [{ cls := 1, reporter := 2, at_ := 0 }], fifo := List.replicate 1024 { cls := 1, reporter := 2, at_ := 0 } }, cclk := 8 },
    { cls := 1, reporter := 2, at_ := 0 }, by decide, by decide⟩,
   ⟨actv, by decide⟩,
   ⟨{ actv with faults := { ent := [(1024, some { suspect := 0, cls := 1, st := .open_, first := 0, last := 0, count := 1, reporter := 0, detail := [], inj := false, pos := 0, ptpSec := 0, ptpNs := 0 })] }, cclk := 10 ^ 9 },
    1024,
    { suspect := 0, cls := 1, st := .open_, first := 0, last := 0, count := 1, reporter := 0, detail := [], inj := false, pos := 0, ptpSec := 0, ptpNs := 0 },
    by decide, by decide, by decide, by decide⟩,
   ⟨{ actv with faults := { ent := [(1024, some { suspect := 0, cls := 1, st := .open_, first := 0, last := 0, count := 1, reporter := 0, detail := [], inj := false, pos := 0, ptpSec := 0, ptpNs := 0 })] } },
    1024,
    { suspect := 0, cls := 1, st := .open_, first := 0, last := 0, count := 1, reporter := 0, detail := [], inj := false, pos := 0, ptpSec := 0, ptpNs := 0 },
    by decide, by decide, by decide, by decide⟩,
   ⟨{ actv with faults := { closing := [({ suspect := 0, cls := 1, st := .open_, first := 0, last := 0, count := 1, reporter := 0, detail := [], inj := false, pos := 0, ptpSec := 0, ptpNs := 0 }, 3)] } },
    { suspect := 0, cls := 1, st := .open_, first := 0, last := 0, count := 1, reporter := 0, detail := [], inj := false, pos := 0, ptpSec := 0, ptpNs := 0 },
    3, [], by decide⟩,
   ⟨conf, w, 0x80000000, by decide, (by unfold Passes; decide)⟩,
   ⟨conf, w, 0x80000002, 1, .lspInjOnce w 0x80000002, by simp, by decide, by decide,
    (by unfold Passes; decide)⟩,
   ⟨conf, w, 0x80000000, by decide, (by unfold Passes; decide)⟩⟩

/-- States and operands that meet the hypotheses of `DoorbellWhileBusy`, clause by clause. -/
theorem witness_DoorbellWhileBusy :
    (∃ (s : State) (h : HostPort), s.bitAt (aMbx h 0x044) 0 = true ∧ Passes s { m := hostMaster h } (aMbx h
      0x040) 1) :=
  ⟨regsAre conf [(aMbx .a 0x044, 1)], .a, by decide, (by unfold Passes; decide)⟩

/-- States and operands that meet the hypotheses of `SleepWakeAndStarts`, clause by clause. -/
theorem witness_SleepWakeAndStarts :
    (∃ (s : State) (e : SleepEntry), s.power.entry = some e ∧ e.stage = .responded ∧ entryStopAt e ≤ s.cclk) ∧
    (∃ (s : State) (e : SleepEntry), s.power.entry = some e ∧ e.stage = .stopped ∧ entryDrainAt s e ≤ s.cclk) ∧
    (∃ (s : State) (e : SleepEntry), s.power.entry = some e ∧ e.stage = .drained) ∧
    (∃ (s : State) (e : SleepEntry), s.power.entry = some e ∧ e.stage = .asleep ∧ (suppliesGo s
      e.deep).power.late = false) ∧
    (∃ (s : State) (e : SleepEntry), s.power.entry = some e ∧ e.stage = .asleep ∧ (suppliesGo s
      e.deep).power.late = true) ∧
    (∃ (s : State) (k : Nat), k < 8 ∧ s.bitAt (aWake 0x040) (4 * k) = true ∧ s.power.entry = none ∧ asleep
      s.mode = false) ∧
    (∃ (s : State) (k : Nat), k < 8 ∧ s.bitAt (aWake 0x040) (4 * k) = true ∧ s.power.entry = none ∧ asleep
      s.mode = true ∧ s.power.wakeAt = none) ∧
    (∃ (s : State) (k : Nat), k < 8 ∧ s.bitAt (aWake 0x040) (4 * k) = true ∧ s.power.entry = none ∧ asleep
      s.mode = true ∧ s.power.wakeAt = none ∧ s.mode = .sleepRetain) ∧
    (∃ (s : State) (k : Nat), k < 8 ∧ s.bitAt (aWake 0x040) (4 * k) = true ∧ s.power.entry = none ∧ asleep
      s.mode = true ∧ s.power.wakeAt ≠ none) ∧
    (∃ (s : State) (k : Nat), k < 8 ∧ s.bitAt (aWake 0x040) (4 * k) = true ∧ s.power.entry ≠ none) ∧
    (∃ (s : State) (k : Nat), k < 8 ∧ s.bitAt (aWake 0x040) (4 * k) = false) ∧
    (∃ (s : State), s.fld (aWake 0x04C) 0 24 ≠ 0 ∧ asleep s.mode = true ∧ s.power.supplies = false ∧
      s.power.entry = none ∧ s.power.wakeAt = none ∧ s.fld (aWake 0x04C) 0 24 * 1000000 ≤ s.power.sleptNs) ∧
    (∃ (s : State), s.fld (aWake 0x04C) 0 24 = 0) ∧
    (∃ (s : State), s.power.supplies = true) ∧
    (∃ (s : State), s.power.supplies = false ∧ s.mode = .sleepDeep) ∧
    (∃ (s : State), s.power.supplies = false ∧ s.mode ≠ .sleepDeep) ∧
    (∃ (s : State) (b : Nat) (c : Instr), ((c, b) ∈ [(Instr.tamperAssert, 0), (.glitchDetect .voltage, 1),
      (.temperatureLimit, 3)] ∨ (c = .glitchDetect .clock ∧ b = 2 ∧ s.mode ≠ .sleepDeep))) ∧
    (∃ (s : State) (b : Nat) (c : Instr), ((c, b) ∈ [(Instr.tamperAssert, 0), (.glitchDetect .voltage, 1),
      (.temperatureLimit, 3)] ∨ (c = .glitchDetect .clock ∧ b = 2 ∧ s.mode ≠ .sleepDeep)) ∧ s.mode ≠
      .quarantine) ∧
    (∃ (s : State), s.mode = .sleepDeep) :=
  ⟨⟨entering { deep := false, at_ := 0, stage := .responded, by_ := 0 } false,
    { deep := false, at_ := 0, stage := .responded, by_ := 0 }, by decide, by decide, by decide⟩,
   ⟨entering { deep := false, at_ := 0, stage := .stopped, by_ := 0 } false,
    { deep := false, at_ := 0, stage := .stopped, by_ := 0 }, by decide, by decide, by decide⟩,
   ⟨entering { deep := false, at_ := 0, stage := .drained, by_ := 0 } false,
    { deep := false, at_ := 0, stage := .drained, by_ := 0 }, by decide, by decide⟩,
   ⟨entering { deep := false, at_ := 0, stage := .asleep, by_ := 0 } false,
    { deep := false, at_ := 0, stage := .asleep, by_ := 0 }, by decide, by decide, by decide⟩,
   ⟨entering { deep := false, at_ := 0, stage := .asleep, by_ := 0 } true,
    { deep := false, at_ := 0, stage := .asleep, by_ := 0 }, by decide, by decide, by decide⟩,
   ⟨regsAre conf [(aWake 0x040, 0x10000000)], 7, by decide, by decide, by decide, by decide⟩,
   ⟨{ regsAre { State.reset with mode := .sleepDeep } [(aWake 0x040, 0x10000000), (aWake 0x04C, 1)] with power := { supplies := false, sleptNs := 1000000 } },
    7, by decide, by decide, by decide, by decide, by decide⟩,
   ⟨{ regsAre { State.reset with mode := .sleepRetain } [(aWake 0x040, 0x10000000), (aWake 0x04C, 1)] with power := { supplies := false, sleptNs := 1000000 } },
    7, by decide, by decide, by decide, by decide, by decide, by decide⟩,
   ⟨{ regsAre { State.reset with mode := .sleepRetain } [(aWake 0x040, 0x10000000), (aWake 0x04C, 1)] with power := { supplies := false, sleptNs := 1000000, wakeAt := some 5 } },
    7, by decide, by decide, by decide, by decide, by decide⟩,
   ⟨regsAre (entering { deep := false, at_ := 0, stage := .stopped, by_ := 0 } false) [(aWake 0x040,
    0x10000000)], 7, by decide, by decide, by decide⟩,
   ⟨regsAre conf [(aWake 0x040, 0)], 7, by decide, by decide⟩,
   ⟨{ regsAre { State.reset with mode := .sleepDeep } [(aWake 0x040, 0x10000000), (aWake 0x04C, 1)] with power := { supplies := false, sleptNs := 1000000 } },
    by decide, by decide, by decide, by decide, by decide, by decide⟩,
   ⟨conf, by decide⟩,
   ⟨conf, by decide⟩,
   ⟨{ regsAre { State.reset with mode := .sleepDeep } [(aWake 0x040, 0x10000000), (aWake 0x04C, 1)] with power := { supplies := false, sleptNs := 1000000 } },
    by decide, by decide⟩,
   ⟨{ conf with power := { supplies := false } }, by decide, by decide⟩,
   ⟨conf, 2, .glitchDetect .clock, Or.inr ⟨rfl, rfl, by decide⟩⟩,
   ⟨conf, 3, .temperatureLimit, Or.inl (by simp), by decide⟩,
   ⟨{ regsAre { State.reset with mode := .sleepDeep } [(aWake 0x040, 0x10000000), (aWake 0x04C, 1)] with power := { supplies := false, sleptNs := 1000000 } },
    by decide⟩⟩

/-- States and operands that meet the hypotheses of `UpdateSessions`, clause by clause. -/
theorem witness_UpdateSessions :
    (∃ (s : State) (w : Who) (v : Word), Passes s w (aUpd 0x060) (setBit v 0)) ∧
    (∃ (s : State) (w : Who) (v : Word) (u : Session), Passes s w (aUpd 0x060) (setBit (clrBit v 0) 1) ∧
      s.upd.session = some u) ∧
    (∃ (s : State) (w : Who) (v : Word), Passes s w (aUpd 0x060) (setBit (clrBit v 0) 1) ∧ s.upd.session =
      none) ∧
    (∃ (s : State) (d : UpdDesc) (u : Session) (bs : List Byte), updTakes s d = some u ∧ bs.length ≤ 65536 ∧
      d.op = 1 ∧ u.dest ≠ 1 ∧ updOpOk 1 d = true) ∧
    (∃ (s : State) (d : UpdDesc) (u : Session) (bs : List Byte), updTakes s d = some u ∧ bs.length ≤ 65536 ∧
      d.op = 2 ∧ u.dest ≠ 1 ∧ updOpOk 2 d = true ∧ u.flight = [] ∧ s.upd.tail = none) ∧
    (∃ (s : State) (d : UpdDesc) (u : Session) (bs : List Byte), updTakes s d = some u ∧ bs.length ≤ 65536 ∧
      d.op = 3 ∧ u.dest ≠ 1 ∧ updOpOk 3 d = true) ∧
    (∃ (s : State) (d : UpdDesc) (bs : List Byte) (f : Bool), updTakes s d = none ∧ updOpOk 1 d = true) ∧
    (∃ (s : State) (d : UpdDesc), updTakes s d = none ∧ updOpOk 2 d = true) ∧
    (∃ (s : State) (d : UpdDesc), updTakes s d = none ∧ updOpOk 3 d = true) ∧
    (∃ (s : State) (ok : Bool), s.upd.tail = none ∧ s.upd.session = none) ∧
    (∃ (s : State) (ok : Bool) (u : Session) (d : UpdDesc) (bs : List Byte) (rest : List (UpdDesc × List
      Byte)), s.upd.tail = none ∧ s.upd.session = some u ∧ u.dest ≠ 1 ∧ u.flight = (d, bs) :: rest) ∧
    (∃ (s : State) (k : Nat), trialOver s = some k) ∧
    (∃ (s : State), trialOver s = none) :=
  ⟨⟨conf, w, 5, (by unfold Passes; decide)⟩,
   ⟨updOpen { owner := .ha, target := .code, dest := 0 }, w, 2, { owner := .ha, target := .code, dest := 0 },
    (by unfold Passes; decide), by decide⟩,
   ⟨conf, w, 2, (by unfold Passes; decide), by decide⟩,
   ⟨updOpen { owner := .ha, target := .code, dest := 0 }, { op := 1 },
    { owner := .ha, target := .code, dest := 0 }, [], by decide, by decide, by decide, by decide, by decide⟩,
   ⟨updOpen { owner := .ha, target := .code, dest := 0 }, { op := 2 },
    { owner := .ha, target := .code, dest := 0 }, [], by decide, by decide, by decide, by decide, by decide,
    by decide, by decide⟩,
   ⟨updOpen { owner := .ha, target := .code, dest := 0 }, { op := 3 },
    { owner := .ha, target := .code, dest := 0 }, [], by decide, by decide, by decide, by decide, by decide⟩,
   ⟨conf, { op := 1 }, [], false, by decide, by decide⟩,
   ⟨conf, { op := 2 }, by decide, by decide⟩,
   ⟨conf, { op := 3 }, by decide, by decide⟩,
   ⟨conf, true, by decide, by decide⟩,
   ⟨updOpen { owner := .ha, target := .code, dest := 0, flight := [({ op := 1 }, [])] }, true,
    { owner := .ha, target := .code, dest := 0, flight := [({ op := 1 }, [])] }, { op := 1 }, [], [], by decide,
    by decide, by decide, by decide⟩,
   ⟨{ conf with nvm := { slotB := { st := .trial } }, cclk := 10 ^ 15 }, 1, by decide⟩,
   ⟨conf, by decide⟩⟩

/-- States and operands that meet the hypotheses of `RelayedUpdates`, clause by clause. -/
theorem witness_RelayedUpdates :
    (∃ (s : State) (t : UpdTarget) (d : UpdDesc) (bs : List Byte), slUp s = true ∧ s.twin.role = .standby ∧
      d.op = 1 ∧ (s.upd.pieces ++ bs).length < d.len) ∧
    (∃ (s : State) (t : UpdTarget) (d : UpdDesc) (bs : List Byte) (u : Session), slUp s = true ∧ s.twin.role =
      .standby ∧ (d.op ≠ 1 ∨ d.len ≤ (s.upd.pieces ++ bs).length) ∧ relayedSession
      { s with upd := { s.upd with pieces := [] } } t = some u) ∧
    (∃ (s : State) (t : UpdTarget) (d : UpdDesc) (bs : List Byte), s.twin.role ≠ .standby) ∧
    (∃ (s : State) (p : Nat) (b : List Byte), macOk p = true ∧ beAt b 12 2 = 0x88B5 ∧ byteAt b 18 = 2 ∧
      s.upd.relay = none) ∧
    (∃ (s : State) (p : Nat) (b : List Byte) (r : Relay), macOk p = true ∧ beAt b 12 2 = 0x88B5 ∧ byteAt b 18
      = 2 ∧ s.upd.relay = some r) ∧
    (∃ (s : State) (n : Nat) (r : Relay) (x : Nat × Nat × Nat), s.upd.relay = some r ∧ r.out.find? (fun y =>
      y.1 == n) = some x ∧ s.cclk < x.2.2 + 2000000) ∧
    (∃ (s : State) (n : Nat) (r : Relay) (x : Nat × Nat × Nat), s.upd.relay = some r ∧ r.out.find? (fun y =>
      y.1 == n) = some x ∧ x.2.2 + 2000000 ≤ s.cclk ∧ 8 ≤ x.2.1) ∧
    (∃ (s : State) (n : Nat) (r : Relay) (x : Nat × Nat × Nat), s.upd.relay = some r ∧ r.out.find? (fun y =>
      y.1 == n) = some x ∧ x.2.2 + 2000000 ≤ s.cclk ∧ x.2.1 < 8) :=
  ⟨⟨linked stby {}, .code, { op := 1, len := 8 }, [], by decide, by decide, by decide, by decide⟩,
   ⟨linked stby {}, .config, { op := 3 }, [],
    { owner := .mp0, target := .config, dest := 0, slot := targetSlot conf .config, relayed := true }, by decide,
    by decide, by decide, by decide⟩,
   ⟨actv, .code, { op := 1 }, [], by decide⟩,
   ⟨conf, 47, List.replicate 12 0 ++ [0x88, 0xB5] ++ List.replicate 4 0 ++ [2] ++ List.replicate 41 0, by decide,
    by decide, by decide, by decide⟩,
   ⟨{ conf with upd := { relay := some { ds := 0, image := 0, session := 0, out := [(3, 1, 0)], desc := { op := 2 } } }, cclk := 0 },
    47, List.replicate 12 0 ++ [0x88, 0xB5] ++ List.replicate 4 0 ++ [2] ++ List.replicate 41 0,
    { ds := 0, image := 0, session := 0, out := [(3, 1, 0)], desc := { op := 2 } }, by decide, by decide, by decide,
    by decide⟩,
   ⟨{ conf with upd := { relay := some { ds := 0, image := 0, session := 0, out := [(3, 1, 0)], desc := { op := 2 } } }, cclk := 1999999 },
    3, { ds := 0, image := 0, session := 0, out := [(3, 1, 0)], desc := { op := 2 } }, (3, 1, 0), by decide,
    by decide, by decide⟩,
   ⟨{ conf with upd := { relay := some { ds := 0, image := 0, session := 0, out := [(3, 8, 0)], desc := { op := 2 } } }, cclk := 2000000 },
    3, { ds := 0, image := 0, session := 0, out := [(3, 8, 0)], desc := { op := 2 } }, (3, 8, 0), by decide,
    by decide, by decide, by decide⟩,
   ⟨{ conf with upd := { relay := some { ds := 0, image := 0, session := 0, out := [(3, 7, 0)], desc := { op := 2 } } }, cclk := 2000000 },
    3, { ds := 0, image := 0, session := 0, out := [(3, 7, 0)], desc := { op := 2 } }, (3, 7, 0), by decide,
    by decide, by decide, by decide⟩⟩

end Sys2Proof.Tests
end

section
/-!
Register accesses as the claims meet them: what a read that reaches no register does (R7, R41), which writes come down
to the type of the register (R5, R6, R75), and the two halves of a pair (R9).
-/
namespace Sys2Proof.Proofs
open Sys2Proof Sys2Proof.Machine Sys2Proof.Laws

/-! ### Reads -/

/-- A read that reaches no register returns 0. -/
theorem readOr_of_not_reaches {s t : State} {w : Who} {a : Nat} (h : ¬ Reaches s w a) :
    s.readOr w a t = s.emit (.read w.m a 0) :=
  if_neg h

/-- A read that would change device state, and reaches no register, returns 0 and changes none. -/
theorem readOnce_of_not_reaches {s t : State} {w : Who} {a : Nat} (h : ¬ Reaches s w a) :
    s.readOnce w a t = s.emit (.read w.m a 0) :=
  readOr_of_not_reaches h

/-- PAIR_LO_READ that reaches its register. -/
theorem exec_pairLoRead {s : State} {w : Who} {a : Nat} (ha : loReadOk a = true) (h : Reaches s w a) :
    exec (.pairLoRead w a) s = .next (pairLoRead s w a) := by
  show ifWf (loReadOk a) (s.readOr w a (pairLoRead s w a)) = _
  rw [ifWf_true ha, readOr_reaches h]

/-! ### Held halves -/

/-- R9: what a master holds reads as held, and every other held half as before. -/
@[simp] theorem heldOf_setHeld (s : State) (m n : Master) (a b : Nat) (v : Option Word) :
    (s.setHeld m a v).heldOf n b = if latchKey m a = latchKey n b then v else s.heldOf n b :=
  get_set

@[simp] theorem setHeld_reg (s : State) (m : Master) (a b : Nat) (v : Option Word) :
    (s.setHeld m a v).reg b = s.reg b := rfl

@[simp] theorem logReg_held (s : State) (g a : Nat) (o n : Word) (sh : Bool) : (logReg s g a o n sh).held = s.held := by
  simp only [logReg]
  split <;> simp

/-! ### The plain write of a register -/

/-- The value that a write leaves depends on the state by the register's own value alone (R6). -/
theorem newVal_congr {s t : State} {a : Nat} (v : Word) (h : t.reg a = s.reg a) : newVal t a v = newVal s a v := by
  simp only [newVal, h]

/-- A plain write changes, beside its register, registers of page SILT only. -/
theorem reg_plainWrite {s : State} {w : Who} {a b : Nat} {v : Word} (h : b / 0x1000 ≠ pSilt) :
    (plainWrite s w a v).reg b = if a = b then newVal s a v else s.reg b := by
  simp only [plainWrite]
  rw [reg_logReg h, reg_setReg]

/-- A plain write leaves the held halves. -/
@[simp] theorem plainWrite_heldOf (s : State) (w : Who) (m : Master) (a b : Nat) (v : Word) :
    (plainWrite s w a v).heldOf m b = s.heldOf m b := by
  simp only [State.heldOf, plainWrite, logReg_held, setReg_held]

theorem typeWrite_rw {s : State} {w : Who} {d : RegDef} {a : Nat} {v : Word} (h : d.ty = .rw) :
    typeWrite s w d a v = plainWrite s w a v := by
  simp only [typeWrite, h]

theorem typeWrite_rws {s : State} {w : Who} {d : RegDef} {a : Nat} {v : Word} (h : d.ty = .rws) :
    typeWrite s w d a v = shadowWrite s w a v := by
  simp only [typeWrite, h]

theorem typeWrite_w1c {s : State} {w : Who} {d : RegDef} {a : Nat} {v : Word} (h : d.ty = .w1c) :
    typeWrite s w d a v = clearBits s a v := by
  simp only [typeWrite, h]

/-! ### From a command to the write of a block's register -/

/-- Behind BAR0 a master's write is a register write: no key of BAR2 or of BAR4 lies there. -/
theorem masterWrite_bar0 {s : State} {w : Who} {a width : Nat} {v : Word} (h : a < 0x1200000) :
    masterWrite s w a width v = regWrite s w a width v := by
  have h4 : bar4At a = none := by
    simp only [bar4At]
    rw [if_neg (by omega), if_neg (by omega)]
  have h2 : bar2At a = none := by
    simp only [bar2At]
    rw [if_neg (by omega), if_neg (by omega)]
  simp only [masterWrite, h4, h2]

/-- A write that passes the checks and installs no SA is accepted. -/
theorem regWrite_passes {s : State} {w : Who} {a : Nat} {v : Word} (hi : installs a v = none) (h : Passes s w a v) :
    regWrite s w a 4 v = accepted s w a v := by
  simp only [regWrite, hi]
  rw [show checkWrite s w a 4 v = none from h]

/-- An accepted write of a register that is no half of a pair. -/
theorem accepted_whole {s : State} {w : Who} {a : Nat} {v : Word} {d : RegDef} (hd : regDef a = some d)
    (hh : d.half = .none) : accepted s w a v = written s w d a v := by
  simp only [accepted, hd, hh]

/-- The page numbers that hold rings: HIF pages 1 and 2, CE pages 1 and 2, UPD and the TUE rings. -/
def ringPages : List Nat := [0x011, 0x012, 0x015, 0x016, 0x101, 0x102, pUpd, 0x1000, 0x1001]

/-- Off those pages no ring's register block lies. -/
theorem ringAt_of_not_ringPage {a : Nat} (h : a / 0x1000 ∉ ringPages) : ringAt a = none := by
  simp only [ringPages, List.mem_cons, List.not_mem_nil, or_false, not_or] at h
  simp only [ringAt, h, if_false]

/-- A write past the common registers of a page without rings goes to the page's block. -/
theorem written_block {s : State} {w : Who} {d : RegDef} {a : Nat} {v : Word} {pg : Page}
    (hr : a / 0x1000 ∉ ringPages) (ho : 0x040 ≤ a % 0x1000) (hp : pageOf (a / 0x1000) = some pg) :
    written s w d a v = blockWrite s w pg d a v := by
  simp only [written, ringAt_of_not_ringPage hr, if_neg (Nat.not_lt.mpr ho), hp]

/-! ### Pages whose registers have no effect of their own -/

/-- WAKE, PB, TUE, PL, FW, SFP, FAB and BUF: every write there goes by the type of the register. -/
def plainPages : List Nat := [pWake, pPb, pTue, pPl 0, pPl 1, pFw, pSfp, pFab, pBuf]

/-- What the map says of such a page number: a page that writes by type, and installs no SA. -/
theorem plainPage_block {p : Nat} (h : p ∈ plainPages) :
    ∃ pg, pageOf p = some pg ∧ (∀ n, pg ≠ .msc n) ∧ ∀ s w d a v, blockWrite s w pg d a v = typeWrite s w d a v := by
  simp only [plainPages, List.mem_cons, List.not_mem_nil, or_false] at h
  rcases h with rfl | rfl | rfl | rfl | rfl | rfl | rfl | rfl | rfl <;>
    exact ⟨_, rfl, nofun, fun _ _ _ _ _ => rfl⟩

/-- Such a page lies in BAR0 and holds no ring. -/
theorem plainPage_bounds {p : Nat} (h : p ∈ plainPages) : p < 0x028 ∧ p ∉ ringPages := by
  revert p
  decide

/-- A write of such a page installs no SA. -/
theorem installs_plainPage {a : Nat} {v : Word} (h : a / 0x1000 ∈ plainPages) : installs a v = none := by
  obtain ⟨pg, hp, hm, _⟩ := plainPage_block h
  simp only [installs, hp]
  split
  · rename_i n e
    exact absurd (Option.some.inj e) (hm n)
  · rfl

/-- REGISTER_WRITE on such a page, past the common registers, of a register that is no half of a pair: by its type. -/
theorem exec_registerWrite_plainPage {s : State} {w : Who} {a : Nat} {v : Word} {d : RegDef} (hk : addrOk a = true)
    (hd : regDef a = some d) (hh : d.half = .none) (hp : a / 0x1000 ∈ plainPages) (ho : 0x040 ≤ a % 0x1000)
    (h : Passes s w a v) : exec (.registerWrite w a 4 v) s = .next (typeWrite s w d a v) := by
  obtain ⟨hlt, hr⟩ := plainPage_bounds hp
  obtain ⟨pg, hpg, _, hb⟩ := plainPage_block hp
  calc exec (.registerWrite w a 4 v) s
      = .next (masterWrite s w a 4 v) := ifWf_true (by simp [hk])
    _ = .next (regWrite s w a 4 v) := by rw [masterWrite_bar0 (by omega)]
    _ = .next (accepted s w a v) := by rw [regWrite_passes (installs_plainPage hp) h]
    _ = .next (written s w d a v) := by rw [accepted_whole hd hh]
    _ = .next (blockWrite s w pg d a v) := by rw [written_block hr ho hpg]
    _ = .next (typeWrite s w d a v) := by rw [hb]

/-- Settles O13: such a write goes by the type of the register, and each type has its one effect. -/
theorem registerWriteActsByType : Obligations.RegisterWriteActsByType := by
  unfold Obligations.RegisterWriteActsByType
  intro s w a v d hk hd hh hp ho h
  rw [exec_registerWrite_plainPage hk hd hh hp ho h]
  refine ⟨fun hty => ?_, fun hty => ?_, fun hty => ?_⟩
  · rw [typeWrite_rw hty, plainWrite]
  · rw [typeWrite_rws hty, shadowWrite]
  · rw [typeWrite_w1c hty, clearBits]

/-- Settles O11: each of the six commands that are reads acts behind the gate of `readOr`. -/
theorem readsOfNothingReturnZero : Obligations.ReadsOfNothingReturnZero := by
  unfold Obligations.ReadsOfNothingReturnZero
  intro c s w a hwf hread hmiss
  unfold readOf at hread
  split at hread
  case h_7 => exact absurd hread nofun
  all_goals
    obtain ⟨rfl, rfl⟩ := Prod.mk.inj (Option.some.inj hread)
    refine (ifWf_true hwf).trans (congrArg _ ?_)
  -- PAIR_LO_READ and CAP_STAT_READ go through `readOr` itself, the four other reads through `readOnce`
  case h_1 | h_4 => exact readOr_of_not_reaches hmiss
  all_goals exact readOnce_of_not_reaches hmiss

/-! ### Pairs -/

/-- PAIR_HI_WRITE that passes the checks is held. -/
theorem exec_pairHiWrite {s : State} {w : Who} {a : Nat} {v : Word} (ha : hiOk a = true) (h : Passes s w a v) :
    exec (.pairHiWrite w a v) s = .next (pairHold s w a v) := by
  show ifWf (hiOk a) (s.write w a v (pairHold s w a v)) = _
  rw [ifWf_true ha, write_passes h]

/-- PAIR_LO_WRITE that passes the checks applies the pair. -/
theorem exec_pairLoWrite {s : State} {w : Who} {a : Nat} {v : Word} {d : RegDef} (hd : regDef a = some d)
    (hl : d.half = .lo) (h : Passes s w a v) : exec (.pairLoWrite w a v) s = .next (pairApply s w d a v) := by
  have ha : loOk a = true := by simp [loOk, hd, hl]
  calc exec (.pairLoWrite w a v) s
      = .next (s.write w a v (match regDef a with | some d => pairApply s w d a v | none => s)) := ifWf_true ha
    _ = .next (pairApply s w d a v) := by rw [write_passes h]; simp only [hd]

/-- A word past the common registers of GPIO that is no `GPIO_PPOn_CFG`, or of PTP that is no `PTP_Dd_SET_GO`: its
write is no command of its own. -/
def PlainWord (a : Nat) : Prop :=
  0x040 ≤ a % 0x1000 ∧
    ((a / 0x1000 = pGpio ∧ a % 0x10 ≠ 0) ∨ (a / 0x1000 = pPtp ∧ a % 0x10 ≠ 4))

/-- An accepted write of such a word, of type RW, is a plain write. -/
theorem written_plainWord {s : State} {w : Who} {d : RegDef} {a : Nat} {v : Word} (ha : PlainWord a)
    (hty : d.ty = .rw) : written s w d a v = plainWrite s w a v := by
  obtain ⟨ho, ⟨hp, hx⟩ | ⟨hp, hx⟩⟩ := ha
  · have hpg : pageOf (a / 0x1000) = some .gpio := by rw [hp]; rfl
    rw [written_block (by rw [hp]; decide) ho hpg, ← typeWrite_rw hty]
    exact if_neg (by omega)
  · have hpg : pageOf (a / 0x1000) = some .ptp := by rw [hp]; rfl
    rw [written_block (by rw [hp]; decide) ho hpg, ← typeWrite_rw hty]
    exact if_neg (by omega)

/-- R9: an accepted write of `_LO` of a plain pair writes `_LO`, then the held `_HI` or the value that `_HI` has. -/
theorem pairApply_plain {s : State} {w : Who} {a : Nat} {v : Word} {d e : RegDef} (he : regDef (a + 4) = some e)
    (hd : d.ty = .rw) (hty : e.ty = .rw) (hlo : PlainWord a) (hhi : PlainWord (a + 4)) :
    pairApply s w d a v = plainWrite (plainWrite (s.setHeld w.m (a + 4) none) w a v) w (a + 4)
      ((s.heldOf w.m (a + 4)).getD (s.reg (a + 4))) := by
  simp only [pairApply, he]
  rw [written_plainWord hlo hd, written_plainWord hhi hty]

/-- What two plain writes leave of a pair whose `_HI` was held: both halves, and no other register outside SILT. -/
theorem plainWrite_pair {s : State} {w : Who} {a : Nat} {v hi : Word} (hlo : a / 0x1000 ≠ pSilt)
    (hhi : (a + 4) / 0x1000 ≠ pSilt) :
    let t := plainWrite (plainWrite (s.setHeld w.m (a + 4) none) w a v) w (a + 4) hi
    t.reg a = newVal s a v ∧ t.reg (a + 4) = newVal s (a + 4) hi ∧ t.heldOf w.m (a + 4) = none ∧
      RegsBut [a, a + 4] [pSilt] s t := by
  refine ⟨?_, ?_, ?_, fun b hb hpg => ?_⟩
  · rw [reg_plainWrite hlo, if_neg (by omega), reg_plainWrite hlo, if_pos rfl]
    exact newVal_congr v rfl
  · rw [reg_plainWrite hhi, if_pos rfl]
    exact newVal_congr hi (by rw [reg_plainWrite hhi, if_neg (by omega), setHeld_reg])
  · simp
  · simp only [List.mem_cons, List.not_mem_nil, or_false, not_or] at hb hpg
    obtain ⟨hba, hba4⟩ := hb
    rw [reg_plainWrite hpg, if_neg (Ne.symm hba4), reg_plainWrite hpg, if_neg (Ne.symm hba), setHeld_reg]

/-- Settles O15: the latch of a read, the held write, and both halves of a plain pair. -/
theorem pairsAreReadAndWrittenWhole : Obligations.PairsAreReadAndWrittenWhole := by
  unfold Obligations.PairsAreReadAndWrittenWhole
  refine ⟨fun s w a ha ht h => ?_, fun s w d hd h => ?_, fun s w a v ha h => ?_, ?_⟩
  · rw [exec_pairLoRead (by simp [loReadOk, ha]) h, pairLoRead, ht]
    rfl
  · obtain rfl | rfl : d = 0 ∨ d = 1 := by omega
    all_goals exact exec_pairLoRead (by decide) h
  · refine ⟨_, exec_pairHiWrite ha h, ?_, fun _ _ _ => rfl, fun m b hne => ?_⟩
    · rw [pairHold, heldOf_setHeld, if_pos rfl]
    · rw [pairHold, heldOf_setHeld, if_neg (Ne.symm hne)]
  · intro s w a v d e hd he hl hdty hety hpg ho ho' h
    have hpages : a / 0x1000 ≠ pSilt ∧ (a + 4) / 0x1000 ≠ pSilt ∧ PlainWord a ∧ PlainWord (a + 4) := by
      simp only [PlainWord, pGpio, pPtp, pSilt] at hpg ⊢
      omega
    obtain ⟨hlo, hhi, hwlo, hwhi⟩ := hpages
    refine ⟨_, exec_pairLoWrite hd hl h, ?_⟩
    rw [pairApply_plain he hdty hety hwlo hwhi]
    exact plainWrite_pair hlo hhi

end Sys2Proof.Proofs
end

section
/-!
The encoders, capture inputs and pulse outputs of the GPIO page (R89 to R93, R112 to R115), one lemma per case of an
event, and the claim about them.
-/
namespace Sys2Proof.Proofs
open Sys2Proof Sys2Proof.Machine Sys2Proof.Laws

/-! ### Encoders -/

@[simp] theorem enc_setEnc (s : State) (m k : Nat) (e : Encoder) :
    (s.setEnc m e).enc k = if m = k then e else s.enc k :=
  get_set

theorem exec_encCount {s : State} {m : Nat} (hm : twoOk m = true) :
    exec (.encCount m) s = .next (encCountEvent s m) :=
  ifWf_true hm

theorem exec_encIndex {s : State} {m : Nat} (hm : twoOk m = true) :
    exec (.encIndex m) s = .next (encIndexEvent s m) :=
  ifWf_true hm

theorem exec_encBackward {s : State} {m : Nat} (hm : twoOk m = true) :
    exec (.encBackward m) s = .next (encBackwardEvent s m) :=
  ifWf_true hm

theorem exec_encIllegal {s : State} {m : Nat} (hm : twoOk m = true) :
    exec (.encIllegal m) s = .next (encIllegalEvent s m) :=
  ifWf_true hm

theorem encCountEvent_disabled {s : State} {m : Nat} (h : bit (encCfg s m) 0 = false) : encCountEvent s m = s := by
  rw [encCountEvent, h]
  rfl

/-- R89, R93: a count moves an encoder forward unless the Phase Base works its backward counts off. -/
theorem encCountEvent_forward {s : State} {m : Nat} (h : bit (encCfg s m) 0 = true)
    (hr : (encRef s m && s.pb.reverse) = false) : encCountEvent s m = encForward s m := by
  rw [encCountEvent, h, hr]
  rfl

theorem encIndexEvent_disabled {s : State} {m : Nat} (h : bit (encCfg s m) 0 = false) : encIndexEvent s m = s := by
  rw [encIndexEvent, h]
  rfl

/-- R90: an index of an encoder that is not the reference judges the count and zeroes it. -/
theorem encIndexEvent_zeroes {s : State} {m : Nat} (h : bit (encCfg s m) 0 = true) (hr : encRef s m = false)
    (hc : encByCount s m = false) :
    encIndexEvent s m = (encMiscount s m).setEnc m { s.enc m with count := 0, sawZ := true } := by
  rw [encIndexEvent, h, hr, hc]
  rfl

theorem encBackwardEvent_disabled {s : State} {m : Nat} (h : bit (encCfg s m) 0 = false) :
    encBackwardEvent s m = s := by
  rw [encBackwardEvent, h]
  rfl

/-- R93: a backward count of the reference keeps the encoder's count and is noted as one to work off. -/
theorem encBackwardEvent_ref {s : State} {m : Nat} (h : bit (encCfg s m) 0 = true) (hr : encRef s m = true) :
    let t := encBackwardEvent s m
    t.enc m = { s.enc m with lastAt := some (encTime s m) } ∧
      t.pb = { s.pb with reverse := true, behind := s.pb.behind + 1 } := by
  rw [encBackwardEvent, h, hr]
  exact ⟨(enc_setEnc _ m m _).trans (if_pos rfl), rfl⟩

/-- R93: a backward count of another encoder moves its count down and leaves the Phase Base. -/
theorem encBackwardEvent_other {s : State} {m : Nat} (h : bit (encCfg s m) 0 = true) (hr : encRef s m = false) :
    let t := encBackwardEvent s m
    t.enc m = { s.enc m with count := countDown s m (s.enc m), lastAt := some (encTime s m) } ∧ t.pb = s.pb := by
  rw [encBackwardEvent, h, hr]
  exact ⟨(enc_setEnc _ m m _).trans (if_pos rfl), rfl⟩

/-! ### Capture inputs -/

@[simp] theorem cap_setCap (s : State) (n k : Nat) (c : Capture) :
    (s.setCap n c).cap k = if n = k then c else s.cap k :=
  get_set

/-- CAP_EDGE of an edge that the input takes. -/
theorem exec_capEdge {s : State} {n : Nat} {rising : Bool} (hn : capOk n = true) (ht : capTakes s n rising = true) :
    exec (.capEdge n rising) s = .next (capWrite s n rising) :=
  (ifWf_true hn).trans (congrArg _ (whenever_true ht))

/-- R7, R488: a read that is performed on the device leaves the state that it describes; a task notes its value in the
log of its pair, which is part of `faults`. -/
theorem readOnce_performs {s t : State} {w : Who} {a : Nat} (hr : Reaches s w a) (hp : Performs s w a) :
    ∃ f, s.readOnce w a t = { t with faults := f } := by
  have htask : ∀ mp1 : Bool, w.m = (if mp1 then .mp1 else .mp0) →
      ∃ f, taskRead s w mp1 a t = { t with faults := f } := by
    intro mp1 hm
    obtain ⟨hleft, hlog⟩ := hp mp1 hm
    simp only [taskRead, hleft, if_neg (Nat.not_le.mpr hlog)]
    split
    · cases mp1 <;> exact ⟨_, rfl⟩
    · exact ⟨_, rfl⟩
  rw [State.readOnce, readOr_reaches hr]
  cases hm : w.m with
  | ha => exact ⟨_, rfl⟩
  | hb => exact ⟨_, rfl⟩
  | mp0 => exact htask false hm
  | mp1 => exact htask true hm

/-- Three words written after address `a` read as written, and every other register as before. -/
theorem reg_setReg_three (s : State) (a : Nat) (x y z : Word) :
    let t := ((s.setReg (a + 4) x).setReg (a + 8) y).setReg (a + 12) z
    t.reg (a + 4) = x ∧ t.reg (a + 8) = y ∧ t.reg (a + 12) = z ∧ RegsBut [a + 4, a + 8, a + 12] [] s t := by
  refine ⟨by simp, by simp, by simp, fun b hb _ => ?_⟩
  simp only [List.mem_cons, List.not_mem_nil, or_false, not_or] at hb
  obtain ⟨h4, h8, h12⟩ := hb
  simp [Ne.symm h4, Ne.symm h8, Ne.symm h12]

/-- The registers of a capture input that follow `GPIO_CAPn_NS`. -/
theorem aGpio_cap (n : Nat) : let a := aGpio (0x208 + 0x20 * n)
    aGpio (0x20C + 0x20 * n) = a + 4 ∧ aGpio (0x210 + 0x20 * n) = a + 8 ∧ aGpio (0x214 + 0x20 * n) = a + 12 := by
  simp only [aGpio, regAddr]
  omega

/-- R112: a read of `GPIO_CAPn_NS` takes the oldest entry and latches its other fields. -/
theorem capNsRead_cons {s : State} {w : Who} {n : Nat} {e : CapEntry} {rest : List CapEntry}
    (h : (s.cap n).fifo = e :: rest) :
    let a := aGpio (0x208 + 0x20 * n)
    let t := capNsRead s w n
    (t.cap n).fifo = rest ∧ t.out = .read w.m a (w32 (e.ns + b2n e.rising * 2 ^ 31)) :: s.out ∧
      t.reg (a + 4) = w32 e.sec ∧ t.reg (a + 8) = w32 (e.pos.toNat % 2 ^ 32) ∧
      t.reg (a + 12) = w32 (e.pos.toNat / 2 ^ 32) ∧ RegsBut [a + 4, a + 8, a + 12] [] s t := by
  simp only [capNsRead, h]
  refine ⟨?_, rfl, reg_setReg_three _ _ _ _ _⟩
  exact congrArg Capture.fifo ((cap_setCap s n n _).trans (if_pos rfl))

/-- CAP_STAT_READ that reaches its register. -/
theorem exec_capStatRead {s : State} {w : Who} {n : Nat} (hn : capOk n = true)
    (h : Reaches s w (aGpio (0x204 + 0x20 * n))) : exec (.capStatRead w n) s = .next (capStatRead s w n) :=
  (ifWf_true hn).trans (congrArg _ (readOr_reaches h))

/-! ### Pulse outputs -/

@[simp] theorem ppo_setPpo (s : State) (n k : Nat) (p : Pulse) :
    (s.setPpo n p).ppo k = if n = k then p else s.ppo k :=
  get_set

@[simp] theorem raise_ppo (s : State) (p i n : Nat) : (s.raise p i).ppo n = s.ppo n := by
  simp only [State.ppo, raise_gpio]

/-- PPO_FIRE of a pulse that is due. -/
theorem exec_ppoFire {s : State} {n : Nat} (hn : ppoOk n = true) (hd : ppoDue s n = true) :
    exec (.ppoFire n) s = .next (ppoFires s n) :=
  (ifWf_true hn).trans (congrArg _ (whenever_true hd))

/-- R113, R115: what a pulse that fires leaves armed: the next one when it is periodic. -/
def armedNext (s : State) (n : Nat) (a : PulseArm) : Option PulseArm :=
  if bits (ppoCfg s n) 0 2 = 2 then some { a with at_ := ppoAdvance s n a.at_ a.per, late := false } else none

/-- R113 to R115: the pulse output after a firing. -/
theorem ppo_ppoFires {s : State} {n : Nat} {a : PulseArm} (h : (s.ppo n).armed = some a) :
    (ppoFires s n).ppo n =
      { armed := armedNext s n a, late := a.late, until_ := some (s.cclk + 2 + bits (ppoCfg s n) 8 16) } := by
  simp only [ppoFires, h, raise_ppo]
  exact (ppo_setPpo s n n _).trans (if_pos rfl)

/-- PPO_ARM that passes the checks. -/
theorem exec_ppoArm {s : State} {w : Who} {n : Nat} {v : Word} (hn : ppoOk n = true) (hv : bit v.toNat 4 = true)
    (h : Passes s w (aGpio (0x100 + 0x10 * n)) v) : exec (.ppoArm w n v) s = .next (ppoWrite s w n v) :=
  (ifWf_true (by rw [hn, hv]; rfl)).trans (congrArg _ (write_passes h))

/-- Settles O26: each event of an encoder, a capture input or a pulse output by its case. -/
theorem gpioChannels : Obligations.GpioChannels := by
  unfold Obligations.GpioChannels
  refine ⟨fun s m hm => ⟨fun hoff => ?_, fun hon href => ?_, fun hon href => ?_⟩,
    ⟨fun s n rising hn ht => exec_capEdge hn ht, fun s w n e rest hn hr hp hf => ?_,
      fun s w n hn hr => exec_capStatRead hn hr⟩,
    fun s n a hn hd ha => ?_, fun s w n v hn hv hmode h => ?_⟩
  · rw [exec_encCount hm, exec_encIndex hm, exec_encBackward hm, exec_encIllegal hm, encCountEvent_disabled hoff,
      encIndexEvent_disabled hoff, encBackwardEvent_disabled hoff, encIllegalEvent, whenever_false hoff]
    exact ⟨rfl, rfl, rfl, rfl⟩
  · obtain ⟨henc, hpb⟩ := encBackwardEvent_ref hon href
    refine ⟨fun hrev => ?_, _, exec_encBackward hm, ?_⟩
    · rw [exec_encCount hm, encCountEvent_forward hon (by rw [hrev, Bool.and_false])]
    · dsimp only
      rw [henc, hpb]
      exact ⟨rfl, rfl, rfl, rfl⟩
  · obtain ⟨henc, hpb⟩ := encBackwardEvent_other hon href
    refine ⟨?_, fun hc => ?_, ⟨_, exec_encBackward hm, ?_⟩, ?_⟩
    · rw [exec_encCount hm, encCountEvent_forward hon (by rw [href, Bool.false_and])]
    · rw [exec_encIndex hm, encIndexEvent_zeroes hon href hc]
    · dsimp only
      rw [henc, hpb]
      exact ⟨rfl, rfl, rfl⟩
    · rw [exec_encIllegal hm, encIllegalEvent, whenever_true hon]
      rfl
  · obtain ⟨f, hread⟩ := readOnce_performs (t := capNsRead s w n) hr hp
    obtain ⟨h4, h8, h12⟩ := aGpio_cap n
    refine ⟨_, (ifWf_true hn).trans (congrArg _ hread), ?_⟩
    rw [h4, h8, h12]
    exact capNsRead_cons hf
  · refine ⟨_, exec_ppoFire hn hd, ?_⟩
    dsimp only
    rw [ppo_ppoFires ha]
    exact ⟨rfl, fun hm => if_neg hm⟩
  · have harms : (bit v.toNat 4 && bits v.toNat 0 2 != 0) = true := by simp [hv, hmode]
    rw [exec_ppoArm hn hv h, ppoWrite, if_pos harms, hv, Bool.true_and]

end Sys2Proof.Proofs
end

section
/-!
The LIN channels (R85, R335 to R338), one lemma per case of an event, and the claim about them.
-/
namespace Sys2Proof.Proofs
open Sys2Proof Sys2Proof.Machine Sys2Proof.Laws

/-! ### Channels, counters and interrupts -/

@[simp] theorem lin_setLin (s : State) (n k : Nat) (c : LinChan) :
    (s.setLin n c).lin k = if n = k then c else s.lin k :=
  get_set

@[simp] theorem bump_lin (s : State) (a n : Nat) : (s.bump a).lin n = s.lin n := rfl

@[simp] theorem raise_lin (s : State) (p i n : Nat) : (s.raise p i).lin n = s.lin n := by
  simp only [State.lin, raise_buses]

/-- Raising an interrupt leaves every pair that does not hold the page's IRQ_RAW. -/
theorem pair_raise {s : State} {p i a : Nat} (h : a ≠ regAddr p 0x10) (h4 : a + 4 ≠ regAddr p 0x10) :
    (s.raise p i).pair a = s.pair a := by
  simp only [State.pair, reg_raise h, reg_raise h4]

/-- A raised interrupt shows in the page's IRQ_RAW. -/
theorem bitAt_raise {s : State} {p i : Nat} (h : i < 32) : (s.raise p i).bitAt (regAddr p 0x10) i = true := by
  rw [State.bitAt, State.raise, raw_raiseMask, w32_toNat, bit, Nat.testBit_mod_two_pow, Nat.testBit_or,
    Nat.testBit_two_pow_self, Bool.or_true, Bool.and_true, decide_eq_true h]

/-- A channel set, a counter of its page advanced and an interrupt of its page raised: each of the three shows. -/
theorem linError_shows {s : State} {n k i : Nat} {c : LinChan} (hi : i < 32) :
    let t := ((s.setLin n c).bump (aLinCnt n k)).raise (pLin n) i
    t.lin n = c ∧ t.pair (aLinCnt n k) = (s.pair (aLinCnt n k) + 1) % 2 ^ 64 ∧
      t.bitAt (regAddr (pLin n) 0x10) i = true := by
  have hraw : aLinCnt n k ≠ regAddr (pLin n) 0x10 ∧ aLinCnt n k + 4 ≠ regAddr (pLin n) 0x10 := by
    simp only [aLinCnt, aLin, regAddr]
    omega
  obtain ⟨hlo, hhi⟩ := hraw
  refine ⟨?_, ?_, bitAt_raise hi⟩
  · rw [raise_lin, bump_lin, lin_setLin, if_pos rfl]
  · rw [pair_raise hlo hhi, pair_bump]
    rfl

/-! ### The schedule -/

/-- LIN_SCHEDULE_ENTRY of a commander. -/
theorem exec_linScheduleEntry {s : State} {n : Nat} (hn : linOk n = true) (hc : linCommands (linSettle s) n = true) :
    exec (.linScheduleEntry n) s = .next (linSchedule (linSettle s) n) :=
  (ifWf_true hn).trans (congrArg _ (whenever_true hc))

/-! ### Headers -/

/-- What a channel that has heard a header does, once its legs and responses are settled (R337). -/
def linHears (u : State) (n pid meas : Nat) : State :=
  if (u.lin n).mode ≠ .normal then u
  else if !syncInRange u n meas then u.bump (aLinCnt n 4)
  else if protectedId (pid % 64) ≠ pid then u.bump (aLinCnt n 3)
  else linRespond u n (pid % 64) u.cclk meas []

theorem exec_linHeaderRx {s : State} {n pid meas : Nat} (hn : linOk n = true) (hp : pid < 256) :
    exec (.linHeaderRx n pid meas) s = .next (linHears (linSettle s) n pid meas) :=
  ifWf_true (by simp [hn, hp])

theorem linHears_not_normal {u : State} {n pid meas : Nat} (h : (u.lin n).mode ≠ .normal) :
    linHears u n pid meas = u :=
  if_pos h

theorem linHears_badSync {u : State} {n pid meas : Nat} (h : (u.lin n).mode = .normal)
    (hs : syncInRange u n meas = false) : linHears u n pid meas = u.bump (aLinCnt n 4) := by
  rw [linHears, if_neg (not_not_intro h), hs]
  rfl

theorem linHears_badId {u : State} {n pid meas : Nat} (h : (u.lin n).mode = .normal)
    (hs : syncInRange u n meas = true) (hp : protectedId (pid % 64) ≠ pid) :
    linHears u n pid meas = u.bump (aLinCnt n 3) := by
  rw [linHears, if_neg (not_not_intro h), hs, if_pos hp]
  rfl

theorem linHears_good {u : State} {n pid meas : Nat} (h : (u.lin n).mode = .normal)
    (hs : syncInRange u n meas = true) (hp : protectedId (pid % 64) = pid) :
    linHears u n pid meas = linRespond u n (pid % 64) u.cclk meas [] := by
  rw [linHears, if_neg (not_not_intro h), hs, if_neg (not_not_intro hp)]
  rfl

/-! ### Responses -/

/-- LIN_RESPONSE_RX while a response is awaited. -/
theorem exec_linResponseRx {s : State} {n f t0 b chk : Nat} {d : List Byte} (hn : linOk n = true) (hd : d.length ≤ 8)
    (hk : chk < 256) (ha : (s.lin n).await = some (f, t0, b)) :
    exec (.linResponseRx n d chk) s = .next (linReceive s n f d chk) := by
  show execLinResponseRx n d chk s = _
  rw [execLinResponseRx, ifWf_true (by simp [hn, hd, hk]), ha]

/-- LIN_NO_RESPONSE once the awaited response is overdue. -/
theorem exec_linNoResponse {s : State} {n f t0 b : Nat} (hn : linOk n = true) (ha : (s.lin n).await = some (f, t0, b))
    (hlate : 10 * t0 + 14 * 10 * (responseLen s n f + 1) * b ≤ 10 * s.cclk) :
    exec (.linNoResponse n) s = .next (linMissing s n) := by
  show execLinNoResponse n s = _
  rw [execLinNoResponse, ifWf_true hn, ha]
  exact congrArg _ (if_neg (Nat.not_lt.mpr hlate))

theorem linReceive_badLength {s : State} {n f chk : Nat} {d : List Byte} (h : d.length ≠ responseLen s n f) :
    linReceive s n f d chk = linMissing s n :=
  if_pos h

theorem linReceive_badChecksum {s : State} {n f chk : Nat} {d : List Byte} (h : d.length = responseLen s n f)
    (hc : chk ≠ linChecksum (s.bitAt (aFt n f) 2) f d) :
    linReceive s n f d chk = ((s.setLin n { s.lin n with await := none, busyUntil := s.cclk, lastAt := s.cclk }).bump
      (aLinCnt n 1)).raise (pLin n) 2 := by
  rw [linReceive, if_neg (not_not_intro h), if_pos hc]

theorem linReceive_good {s : State} {n f chk : Nat} {d : List Byte} (h : d.length = responseLen s n f)
    (hc : chk = linChecksum (s.bitAt (aFt n f) 2) f d) : linReceive s n f d chk = linTake s n f d := by
  rw [linReceive, if_neg (not_not_intro h), if_neg (not_not_intro hc)]

/-! ### Sleep and wake -/

theorem linAwakes_sleep {s : State} {n : Nat} (h : (s.lin n).mode = .sleep) :
    linAwakes s n = s.setLin n { s.lin n with mode := .normal, lastAt := s.cclk } :=
  if_pos h

theorem lin_linAwakes_mode (s : State) (n : Nat) :
    ((linAwakes s n).lin n).mode = if (s.lin n).mode = .sleep then .normal else (s.lin n).mode := by
  rw [linAwakes]
  split
  · rw [lin_setLin, if_pos rfl]
  · rfl

@[simp] theorem linAwakes_regs (s : State) (n : Nat) : (linAwakes s n).regs = s.regs := by
  rw [linAwakes]
  split <;> rfl

@[simp] theorem linAwakes_out (s : State) (n : Nat) : (linAwakes s n).out = s.out := by
  rw [linAwakes]
  split <;> rfl

/-- LIN_IDLE_SLEEP of a channel whose bus has been idle for long enough. -/
theorem exec_linIdleSleep {s : State} {n : Nat} (hn : linOk n = true) (hm : (s.lin n).mode = .normal)
    (hk : s.fld (aLin n 0x044) 16 4 ≠ 0)
    (hidle : (s.lin n).lastAt + s.fld (aLin n 0x044) 16 4 * 1000000000 ≤ s.cclk) :
    exec (.linIdleSleep n) s = .next (linSleeps s n) :=
  (ifWf_true hn).trans (congrArg _ (whenever_true (by simp [hm, hk, hidle])))

/-- LIN_WAKE_TX that passes the checks. -/
theorem exec_linWakeTx {s : State} {w : Who} {n : Nat} (hn : linOk n = true) (h : Passes s w (aLin n 0x04C) 1) :
    exec (.linWakeTx w n) s = .next (linAwakes ((s.emit (.linWake n)).bump (aLinCnt n 7)) n) :=
  (ifWf_true hn).trans (congrArg _ (write_passes h))

/-- LIN_WAKE_DETECT of a sleeping channel on a unit that neither sleeps nor is entering SLEEP. -/
theorem exec_linWakeDetect {s : State} {n : Nat} (hn : linOk n = true) (hm : (s.lin n).mode = .sleep)
    (ha : asleep s.mode = false) (he : s.power.entry = none) :
    exec (.linWakeDetect n) s = .next (linAwakes s n) := by
  have hw : linWakes s n = linAwakes s n := by simp [linWakes, ha, he]
  exact (ifWf_true hn).trans (congrArg _ ((whenever_true (by simp [hm])).trans hw))

/-- Settles O37: the schedule, headers, responses, and sleep and wake of a LIN channel, each by its case. -/
theorem linChannels : Obligations.LinChannels := by
  unfold Obligations.LinChannels
  refine ⟨fun s n hn hc => ⟨fun x rest hx => ?_, fun i hx hi => ?_⟩, fun s u n pid meas hn hp hu => ?_,
    fun s n f t0 b chk d hn hd hk ha => ?_, fun s n f t0 b hn ha hlate => ?_, fun s n hn hm hk hidle => ?_,
    fun s w n hn h => ?_, fun s n hn hm ha he => ?_⟩
  · rw [exec_linScheduleEntry hn hc, linSchedule, hx]
  · rw [exec_linScheduleEntry hn hc, linSchedule, hx, hi]
    rfl
  · subst hu
    have hexec := exec_linHeaderRx (s := s) (meas := meas) hn hp
    refine ⟨fun hm => ?_, fun hm hs => ⟨_, hexec, ?_⟩, fun hm hs hid => ⟨_, hexec, ?_⟩, fun hm hs hid => ?_⟩
    · rw [hexec, linHears_not_normal hm]
    · rw [linHears_badSync hm hs]
      exact ⟨pair_bump _ _, bump_lin _ _ _⟩
    · rw [linHears_badId hm hs hid]
      exact ⟨pair_bump _ _, bump_lin _ _ _⟩
    · rw [hexec, linHears_good hm hs hid]
  · have hexec := exec_linResponseRx hn hd hk ha
    refine ⟨fun hl hck => ?_, fun hl hck => ⟨_, hexec, ?_⟩, fun hl => ?_⟩
    · rw [hexec, linReceive_good hl hck]
    · rw [linReceive_badChecksum hl hck]
      exact linError_shows (by decide)
    · rw [hexec, linReceive_badLength hl]
  · exact ⟨_, exec_linNoResponse hn ha hlate, linError_shows (by decide)⟩
  · exact exec_linIdleSleep hn hm hk hidle
  · refine ⟨_, exec_linWakeTx hn h, lin_linAwakes_mode _ n, linAwakes_out _ n, ?_⟩
    simp only [State.pair, State.reg, linAwakes_regs]
    exact pair_bump _ _
  · rw [exec_linWakeDetect hn hm ha he, linAwakes_sleep hm]

end Sys2Proof.Proofs
end

section
/-!
The state of the external ports: what the Ethernet ports, the T1 PHYs and the MDIO masters read as after the shared
operations, and what training and an exit from UP leave of a port (Table 4-2, Table 4-3).
-/
namespace Sys2Proof.Proofs
open Sys2Proof Sys2Proof.Machine Sys2Proof.Laws

/-! ### Addresses and bits of registers -/

/-- Two offsets of one page name one register just when they are equal. -/
@[simp] theorem regAddr_inj {p a b : Nat} : regAddr p a = regAddr p b ↔ a = b := by
  simp only [regAddr]
  omega

/-- Raising an interrupt changes no bit of a register but the page's IRQ_RAW. -/
theorem bitAt_raise_ne {s : State} {p i a j : Nat} (h : a ≠ regAddr p 0x10) :
    (s.raise p i).bitAt a j = s.bitAt a j := by
  simp only [State.bitAt, reg_raise h]

@[simp] theorem logReg_ports (s : State) (g a : Nat) (o n : Word) (sh : Bool) :
    (logReg s g a o n sh).ports = s.ports := by
  rw [logReg]
  split <;> simp

/-! ### Ports, T1 PHYs and MDIO masters -/

@[simp] theorem mac_setMac (s : State) (p k : Nat) (m : MacPort) :
    (s.setMac p m).mac k = if p = k then m else s.mac k :=
  get_set

@[simp] theorem tphy_setTphy (s : State) (n k : Nat) (x : Tphy) :
    (s.setTphy n x).tphy k = if n = k then x else s.tphy k :=
  get_set

@[simp] theorem mdio_setMdio (s : State) (m k : Nat) (x : Option MdioOp) :
    (s.setMdio m x).mdio k = if m = k then x else s.mdio k :=
  get_set

@[simp] theorem setMac_tphy (s : State) (p n : Nat) (m : MacPort) : (s.setMac p m).tphy n = s.tphy n := rfl

@[simp] theorem setTphy_reg (s : State) (n a : Nat) (x : Tphy) : (s.setTphy n x).reg a = s.reg a := rfl
@[simp] theorem setMdio_reg (s : State) (m a : Nat) (x : Option MdioOp) : (s.setMdio m x).reg a = s.reg a := rfl

/-- The ports, T1 PHYs and MDIO masters are read from one part of the state. -/
theorem mac_congr {s t : State} (h : t.ports = s.ports) (p : Nat) : t.mac p = s.mac p := by
  simp only [State.mac, h]

theorem tphy_congr {s t : State} (h : t.ports = s.ports) (n : Nat) : t.tphy n = s.tphy n := by
  simp only [State.tphy, h]

theorem mdio_congr {s t : State} (h : t.ports = s.ports) (m : Nat) : t.mdio m = s.mdio m := by
  simp only [State.mdio, h]

@[simp] theorem raise_mac (s : State) (p i k : Nat) : (s.raise p i).mac k = s.mac k := mac_congr (raise_ports ..) k
@[simp] theorem bump_mac (s : State) (a k : Nat) : (s.bump a).mac k = s.mac k := rfl
@[simp] theorem emit_mac (s : State) (o : Out) (k : Nat) : (s.emit o).mac k = s.mac k := rfl
@[simp] theorem raise_tphy (s : State) (p i n : Nat) : (s.raise p i).tphy n = s.tphy n :=
  tphy_congr (raise_ports ..) n
@[simp] theorem bump_tphy (s : State) (a n : Nat) : (s.bump a).tphy n = s.tphy n := rfl
@[simp] theorem emit_tphy (s : State) (o : Out) (n : Nat) : (s.emit o).tphy n = s.tphy n := rfl

/-! ### Training -/

@[simp] theorem sgmiiSends_ports (s : State) (p : Nat) : (sgmiiSends s p).ports = s.ports := by
  rw [sgmiiSends]
  split <;> rfl

@[simp] theorem sgmiiSends_regs (s : State) (p : Nat) : (sgmiiSends s p).regs = s.regs := by
  rw [sgmiiSends]
  split <;> rfl

@[simp] theorem sgmiiSends_mac (s : State) (p k : Nat) : (sgmiiSends s p).mac k = s.mac k :=
  mac_congr (sgmiiSends_ports s p) k

@[simp] theorem trainStart_tables (s : State) (p : Nat) : (trainStart s p).tables = s.tables :=
  (fr_trainStart (F := 549756862464) rfl frm_refl).tables.resolve_left (by decide)

/-- Table 4-2: a port that starts to train is in TRAIN and on no hold time; link-down actions under way go on. -/
theorem mac_trainStart (s : State) (p : Nat) :
    let m := (trainStart s p).mac p
    m.link = .train ∧ m.lossSince = none ∧ m.downAt = (s.mac p).downAt := by
  simp [trainStart]

/-- R124: a Shell Link lane that leaves UP trains. -/
theorem slLaneDown_link (s : State) (l : Nat) : ((slLaneDown s l).mac (48 + l)).link = .train := by
  rw [slLaneDown]
  split <;> simp [slLeavesUp, State.mac, State.setMac, get_set]

/-! ### Exit from UP -/

@[simp] theorem endReceptions_cclk (s : State) (p : Nat) : (endReceptions s p).cclk = s.cclk :=
  (fr_endReceptions (F := 890241032) rfl frm_refl).cclk.resolve_left (by decide)

@[simp] theorem stopStarts_cclk (s : State) (p : Nat) : (stopStarts s p).cclk = s.cclk :=
  (fr_stopStarts (F := 805306368) rfl frm_refl).cclk.resolve_left (by decide)

@[simp] theorem stopStarts_ports (s : State) (p : Nat) : (stopStarts s p).ports = s.ports :=
  (fr_stopStarts (F := 805306368) rfl frm_refl).ports.resolve_left (by decide)

@[simp] theorem endNegotiation_cclk (s : State) (p : Nat) : (endNegotiation s p).cclk = s.cclk :=
  (fr_endNegotiation (F := 1048576) rfl frm_refl).cclk.resolve_left (by decide)

@[simp] theorem slavePortLost_ports (s : State) (p : Nat) : (slavePortLost s p).ports = s.ports :=
  (fr_slavePortLost (F := 1717989433352) rfl frm_refl).ports.resolve_left (by decide)

@[simp] theorem slavePortLost_tables (s : State) (p : Nat) : (slavePortLost s p).tables = s.tables :=
  (fr_slavePortLost (F := 1717989433352) rfl frm_refl).tables.resolve_left (by decide)

/-- R124: a port that leaves UP is in its new state, on no hold time, and counts its link-down actions from now. -/
theorem mac_leaveUp (s : State) (p : Nat) (to_ : LinkState) :
    let m := (leaveUp s p to_).mac p
    m.link = to_ ∧ m.lossSince = none ∧ m.downAt = some s.cclk := by
  simp only [leaveUp, mac_congr (slavePortLost_ports ..) p, raise_mac, bump_mac]
  simp only [State.mac, State.setMac, get_set, if_true, endNegotiation_cclk, stopStarts_cclk, endReceptions_cclk,
    and_self]

/-- R206: the learned entries of a port that leaves UP are to be purged. -/
theorem purge_leaveUp (s : State) (p : Nat) (to_ : LinkState) : bit (leaveUp s p to_).tables.purge p = true := by
  simp [leaveUp, bit]

theorem abortReception_ports (s : State) (n : Nat) : (abortReception s n).ports = s.ports :=
  (fr_abortReception (F := 889192448) rfl frm_refl).ports.resolve_left (by decide)

theorem foldl_abortReception_ports (l : List Nat) (s : State) : (l.foldl abortReception s).ports = s.ports := by
  induction l generalizing s with
  | nil => rfl
  | cons n l ih => rw [List.foldl_cons, ih, abortReception_ports]

theorem foldl_abortCount_ports (l : List RxRun) (s : State) (p : Nat) : (l.foldl (abortCount p) s).ports = s.ports := by
  induction l generalizing s with
  | nil => rfl
  | cons x l ih =>
    rw [List.foldl_cons, ih, abortCount, bump_ports, unbump, setPair_ports, unbump, setPair_ports]

/-- The frames that a port stops receiving leave the T1 PHYs alone. -/
@[simp] theorem endReceptions_tphy (s : State) (p n : Nat) : (endReceptions s p).tphy n = s.tphy n := by
  simp only [endReceptions]
  rw [tphy_congr (foldl_abortReception_ports ..), setMac_tphy, tphy_congr (foldl_abortCount_ports ..)]

/-- R143: an exit from UP changes no T1 PHY but one in SLEEP_NEG. -/
theorem tphy_leaveUp {s : State} {n : Nat} (to_ : LinkState) (h : (s.tphy n).tc10 ≠ .sleepNeg) :
    (leaveUp s (32 + n) to_).tphy n = s.tphy n := by
  have hstop : (stopStarts (endReceptions s (32 + n)) (32 + n)).tphy n = s.tphy n := by
    rw [tphy_congr (stopStarts_ports ..), endReceptions_tphy]
  have hneg : endNegotiation (stopStarts (endReceptions s (32 + n)) (32 + n)) (32 + n) =
      stopStarts (endReceptions s (32 + n)) (32 + n) :=
    if_neg fun ⟨_, _, hc⟩ => h (by rwa [Nat.add_sub_cancel_left, hstop] at hc)
  simp only [leaveUp, tphy_congr (slavePortLost_ports ..) n, raise_tphy, bump_tphy, hneg]
  simp only [State.tphy, State.setMac] at hstop ⊢
  exact hstop

end Sys2Proof.Proofs
end


section
/-!
Frames at a port (R126 to R131), the MAC merge sublayer (R136, R137), loss conditions (R123), links that go down and come
up (R122, R124) and what follows an exit from UP (R206), one lemma per case of an event, and the claim about them.
-/
namespace Sys2Proof.Proofs
open Sys2Proof Sys2Proof.Machine Sys2Proof.Laws

/-! ### Frames -/

/-- FRAME_RECEIVE at an UP port. -/
theorem exec_frameReceive {s : State} {p sub : Nat} {bs : List Byte} {abort : Bool} {cmp : PipeCmp}
    (hp : macOk p = true) (hsub : sub < 4) (hup : portUp s p = true) :
    exec (.frameReceive p bs abort sub cmp) s = .next (receive s p (crossNow s sub) bs abort cmp) :=
  (ifWf_true (by rw [hp, decide_eq_true hsub]; rfl)).trans (congrArg _ (whenever_true hup))

section Receive
variable {s : State} {p : Nat} {x : Crossing} {bs : List Byte} {abort : Bool} {cmp : PipeCmp}

theorem receive_discard {k : Nat} (h : macVerdict (s.fld (aMac p 0x044) 0 14) bs abort = .discard k) :
    receive s p x bs abort cmp = noteRx (s.bump (aMacCnt p k)) p x.rx bs.length k 0 := by
  rw [receive, h]

theorem receive_bad {k : Nat} {out : List Byte} {fcs : Bool}
    (h : macVerdict (s.fld (aMac p 0x044) 0 14) bs abort = .bad k out fcs) :
    receive s p x bs abort cmp =
      afterMac (noteRx (s.bump (aMacCnt p k)) p x.rx bs.length k 0) p x out fcs true cmp := by
  rw [receive, h]

theorem receive_good (h : macVerdict (s.fld (aMac p 0x044) 0 14) bs abort = .good) :
    receive s p x bs abort cmp =
      afterMac (noteRx ((s.bump (aMacCnt p 0)).bumpBy (aMacCnt p 1) bs.length) p x.rx bs.length 0 bs.length) p x bs true
        false cmp := by
  rw [receive, h]

end Receive

/-! ### MAC merge -/

/-- MM_FRAGMENT_RECEIVE at an UP port. -/
theorem exec_mmFragmentReceive {s : State} {p : Nat} {bs : List Byte} {last crcOk abort : Bool} {cmp : PipeCmp}
    (smd : Smd) (hp : macOk p = true) (hup : portUp s p = true) :
    exec (.mmFragmentReceive p smd bs last crcOk abort cmp) s = .next (mmReceive s p smd bs last crcOk abort cmp) :=
  (ifWf_true hp).trans (congrArg _ (whenever_true hup))

section Fragments
variable {s : State} {p : Nat} {bs : List Byte} {last crcOk abort : Bool} {cmp : PipeCmp}

/-- A start fragment on a port with MAC merge. -/
theorem mmReceive_start (no : Nat) (hp : p < 32) (hon : s.bitAt (aMac p 0x050) 0 = true) :
    mmReceive s p (.start no) bs last crcOk abort cmp = mmStartFrag s p no bs last crcOk abort cmp := by
  simp only [mmReceive, hp, hon, decide_true, Bool.and_self, if_true]

/-- A continuation fragment on a port with MAC merge. -/
theorem mmReceive_cont (no frag : Nat) (hp : p < 32) (hon : s.bitAt (aMac p 0x050) 0 = true) :
    mmReceive s p (.cont no frag) bs last crcOk abort cmp = mmContFrag s p no frag bs last crcOk abort cmp := by
  simp only [mmReceive, hp, hon, decide_true, Bool.and_self, if_true]

/-- R136: a good fragment that is not the last leaves the reassembly open. -/
theorem mmTake_more {n : Nat} {x : MmPartial} (hl : last = false) (hc : crcOk = true) (ha : abort = false) :
    mmTake s p n x last crcOk abort cmp = setPartial s p (some x) := by
  rw [mmTake, hl, hc, ha]
  rfl

/-- R136: the last fragment hands the frame on. -/
theorem mmTake_last {n : Nat} {x : MmPartial} (hl : last = true) (ha : abort = false) :
    mmTake s p n x last crcOk abort cmp = receive (setPartial s p none) p (mmCrossing s p n x) x.bytes false cmp := by
  rw [mmTake, hl, ha]
  rfl

/-- R136: a start fragment while no reassembly is open opens one. -/
theorem mmStartFrag_opens {no : Nat} (hx : (s.mac p).partial_ = none) (hl : last = false) (hc : crcOk = true)
    (ha : abort = false) :
    mmStartFrag s p no bs last crcOk abort cmp =
      setPartial s.tick1 p (some { frameNo := no, nextFrag := 0, bytes := bs, startAt := s.cclk, sub := measuredSub s,
                                   pos := s.pos, sinceCycle := s.cclk - s.pb.cycleAt }) := by
  rw [mmStartFrag, mmTake_more hl hc ha, hx]
  rfl

/-- R136: a continuation in sequence adds its bytes. -/
theorem mmContFrag_inSequence {x : MmPartial} (hx : (s.mac p).partial_ = some x) :
    mmContFrag s p x.frameNo x.nextFrag bs last crcOk abort cmp =
      mmTake (s.bump (aMacCnt p 17)) p bs.length
        { x with nextFrag := (x.nextFrag + 1) % 4, bytes := x.bytes ++ bs } last crcOk abort cmp := by
  simp only [mmContFrag, bump_mac, hx, ne_eq, not_true_eq_false, or_self, if_false]

/-- R137: a continuation without a reassembly is an error. -/
theorem mmContFrag_unopened {no frag : Nat} (hx : (s.mac p).partial_ = none) :
    mmContFrag s p no frag bs last crcOk abort cmp = assyErr (s.bump (aMacCnt p 17)) p := by
  simp only [mmContFrag, bump_mac, hx]

end Fragments

@[simp] theorem setPartial_mac (s : State) (p : Nat) (x : Option MmPartial) :
    (setPartial s p x).mac p = { s.mac p with partial_ := x } :=
  (mac_setMac ..).trans (if_pos rfl)

/-- Counters of one port do not overlap. -/
theorem pair_bump_ne {s : State} {p j k : Nat} (h : j ≠ k) :
    (s.bump (aMacCnt p j)).pair (aMacCnt p k) = s.pair (aMacCnt p k) := by
  simp only [State.pair]
  rw [reg_bump, reg_bump] <;> simp only [aMacCnt, aMac, regAddr] <;> omega

/-- A fragment that is an error counts as one and leaves no reassembly. -/
theorem assyErr_shows (s : State) (p : Nat) :
    let t := assyErr (s.bump (aMacCnt p 17)) p
    t.pair (aMacCnt p 17) = (s.pair (aMacCnt p 17) + 1) % 2 ^ 64 ∧
      t.pair (aMacCnt p 15) = (s.pair (aMacCnt p 15) + 1) % 2 ^ 64 ∧ (t.mac p).partial_ = none := by
  have hset : ∀ a, (setPartial (s.bump (aMacCnt p 17)) p none).pair a = (s.bump (aMacCnt p 17)).pair a := fun _ => rfl
  simp only [assyErr]
  refine ⟨?_, ?_, by rw [bump_mac, setPartial_mac]⟩
  · rw [pair_bump_ne (by decide), hset, pair_bump]
  · rw [pair_bump, hset, pair_bump_ne (by decide)]

/-! ### Loss conditions -/

theorem exec_lossCondition {s : State} {l : LinkId} {k : LossKind} (hl : linkOk l = true) :
    exec (.lossCondition l k) s = .next (lossArises s (linkKey l) k) :=
  ifWf_true hl

theorem exec_lossConditionClear {s : State} {l : LinkId} {k : LossKind} (hl : linkOk l = true) :
    exec (.lossConditionClear l k) s = .next (lossClears s (linkKey l) k) :=
  ifWf_true hl

@[simp] theorem laneEvents_mac (s : State) (n j : Nat) (k : LossKind) : (laneEvents s n k).mac j = s.mac j :=
  mac_congr ((fr_laneEvents (F := 549755969544) rfl frm_refl).ports.resolve_left (by decide)) j

/-- R123: a condition that is there already changes nothing. -/
theorem lossArises_present {s : State} {n : Nat} {k : LossKind} (hw : sgmiiWord s n k = false)
    (hk : (s.mac n).loss.contains k = true) : lossArises s n k = s := by
  simp only [lossArises, hw, Bool.false_eq_true, if_false, hk, Bool.true_or, if_true]

/-- R123: the first condition on an UP link starts its hold time. -/
theorem lossArises_first {s : State} {n : Nat} {k : LossKind} (hw : sgmiiWord s n k = false)
    (hup : (s.mac n).link = .up) (hl : (s.mac n).loss = []) :
    lossArises s n k = (laneEvents s n k).setMac n
      { s.mac n with loss := [k], goodSince := none, lossSince := some s.cclk } := by
  simp [lossArises, hw, hup, hl]

theorem lossClears_absent {s : State} {n : Nat} {k : LossKind} (hk : (s.mac n).loss.contains k = false) :
    lossClears s n k = s := by
  simp only [lossClears, hk, Bool.not_false, if_true]

/-- R123: the last condition that clears ends the hold time. -/
theorem lossClears_last {s : State} {n : Nat} {k : LossKind} (hl : (s.mac n).loss = [k]) :
    lossClears s n k = s.setMac n { s.mac n with
      loss := [], lossSince := none,
      goodSince := if (s.mac n).link = .train then some s.cclk else (s.mac n).goodSince } := by
  simp [lossClears, hl]

/-! ### Links that go down -/

theorem exec_linkDown {s : State} {l : LinkId} (hl : linkOk l = true) (hd : downDue s (linkKey l) = true) :
    exec (.linkDown l) s = .next (linkGoesDown s l) :=
  (ifWf_true hl).trans (congrArg _ (whenever_true hd))

/-- R124: the port that leaves UP trains, its entries are to be purged, and its link-down actions count from now. -/
theorem linkGoesDown_port (s : State) (p : Nat) :
    let t := linkGoesDown s (.port p)
    (t.mac p).link = .train ∧ (t.mac p).lossSince = none ∧ (t.mac p).downAt = some s.cclk ∧
      bit t.tables.purge p = true := by
  obtain ⟨hlink, hloss, hdown⟩ := mac_trainStart (leaveUp s p .train) p
  refine ⟨hlink, hloss, hdown.trans (mac_leaveUp s p .train).2.2, ?_⟩
  rw [linkGoesDown, trainStart_tables]
  exact purge_leaveUp s p .train

@[simp] theorem slLaneDown_fab (s : State) (l : Nat) : (slLaneDown s l).fab = s.fab :=
  (fr_slLaneDown (F := 584116756488) rfl frm_refl).fab.resolve_left (by decide)

@[simp] theorem slLaneDown_tables (s : State) (l : Nat) : (slLaneDown s l).tables = s.tables :=
  (fr_slLaneDown (F := 584116756488) rfl frm_refl).tables.resolve_left (by decide)

/-! ### Links that come up -/

theorem exec_linkUp {s : State} {l : LinkId} (hl : linkOk l = true) (hd : upDue s (linkKey l) = true) :
    exec (.linkUp l) s = .next (linkGoesUp s l) :=
  (ifWf_true hl).trans (congrArg _ (whenever_true hd))

theorem abortTx_ports (s : State) (p : Nat) : (abortTx s p).ports = s.ports :=
  (fr_abortTx (F := 550628229128) rfl frm_refl).ports.resolve_left (by decide)

theorem markDown_ports (s : State) (p : Nat) : (markDown s p).ports = s.ports :=
  (fr_markDown (F := 805306368) rfl frm_refl).ports.resolve_left (by decide)

/-- Link-down actions that are left, and end before the port comes up, leave its mode. -/
theorem finishDown_mode (s : State) (p : Nat) : ((finishDown s p).mac p).mode = (s.mac p).mode := by
  have hreport : ∀ u : State, u.ports = s.ports → ((downReport u p).mac p).mode = (s.mac p).mode := by
    intro u hu
    rw [downReport, mac_congr (report_ports ..), mac_setMac, if_pos rfl, mac_congr hu]
  rw [finishDown]
  split
  · rfl
  · refine hreport _ ?_
    split <;> split <;> simp only [markDown_ports, abortTx_ports]

theorem freshEgs_ports (s : State) (p : Nat) : (freshEgs s p).ports = s.ports :=
  (fr_freshEgs (F := 536870912) rfl frm_refl).ports.resolve_left (by decide)

/-- R133: verification starts, or not, and the link stays. -/
theorem mac_mmStart (s : State) (p : Nat) :
    let m := (mmStart s p).mac p
    m.link = (s.mac p).link ∧ m.goodSince = (s.mac p).goodSince ∧ m.mode = (s.mac p).mode := by
  rw [mmStart]
  split <;> simp

/-- Table 4-2: a port as it enters UP. -/
def upMac (s : State) (p : Nat) : MacPort :=
  { s.mac p with link := .up, lossSince := none, goodSince := none, dwellEnd := none, txSub := Config.freeNat s.free % 4 }

/-- The interrupts of a port that comes up change nothing of the port. -/
theorem portGoesUp_mac (s : State) (p : Nat) :
    let u := finishDown s p
    (portGoesUp s p).mac p = (mmStart (freshEgs (u.setMac p (upMac u p)).tick1 p) p).mac p := by
  simp only [portGoesUp]
  split <;> simp only [raise_mac, upMac]

/-- R122: the port is UP, in the mode that it has trained in. -/
theorem mac_portGoesUp (s : State) (p : Nat) :
    let m := (portGoesUp s p).mac p
    m.link = .up ∧ m.goodSince = none ∧ m.mode = (s.mac p).mode := by
  let u := finishDown s p
  let t := freshEgs (u.setMac p (upMac u p)).tick1 p
  have ht : t.mac p = upMac u p := by
    rw [mac_congr ((freshEgs_ports ..).trans (tick1_ports _)), mac_setMac, if_pos rfl]
  obtain ⟨hlink, hgood, hmode⟩ := mac_mmStart t p
  rw [ht] at hlink hgood hmode
  rw [portGoesUp_mac]
  exact ⟨hlink, hgood, hmode.trans (finishDown_mode s p)⟩

/-- R122: the Shell Link lane is UP. -/
theorem slLaneUp_shows (s : State) (l : Nat) :
    let t := slLaneUp s l
    (t.mac (48 + l)).link = .up ∧ t.sl.up = s.sl.up ||| 2 ^ l := by
  rw [slLaneUp]
  split <;> simp [State.mac, State.setMac, get_set]

/-! ### After an exit from UP -/

/-- FLUSH_DONE of a flush of which no copy is left. -/
theorem exec_flushDone {s : State} {p : Nat} (hp : portOk p = true) (hf : bit s.fab.flushing p = true)
    (ha : flushedAt s p ≠ 0) : exec (.flushDone p) s = .next (endFlush s p) :=
  (ifWf_true hp).trans (congrArg _ (whenever_true (by simp [hf, ha])))

/-- Table 8-3: the end of a flush clears the port's bit and is signalled on page BUF. -/
theorem endFlush_shows (s : State) (p : Nat) :
    let t := endFlush s p
    t.fab.flushing = s.fab.flushing ^^^ 2 ^ p ∧ RegsBut [regAddr pBuf 0x10] [] s t := by
  refine ⟨by rw [endFlush, raise_fab], fun a ha _ => ?_⟩
  rw [endFlush, reg_raise (List.ne_of_not_mem_cons ha)]
  rfl

theorem exec_fdbPortPurge {s : State} {p : Nat} (hp : portOk p = true) (hb : bit s.tables.purge p = true) :
    exec (.fdbPortPurge p) s = .next (purgePort s p) :=
  (ifWf_true hp).trans (congrArg _ (whenever_true hb))

/-- A freed forwarding entry leaves the purges that are due. -/
theorem freeFdb_purge (s : State) (i : Nat) : (freeFdb s i).tables.purge = s.tables.purge := by
  rw [freeFdb, stashReinsert]
  split
  · rfl
  · split <;> rfl

theorem foldl_freeFdb_purge (l : List Nat) (s : State) :
    (l.foldl (fun t i => freeFdb (t.bump (aTueCnt 8)) i) s).tables.purge = s.tables.purge := by
  induction l generalizing s with
  | nil => rfl
  | cons i l ih => rw [List.foldl_cons, ih, freeFdb_purge, bump_tables]

/-- R206: a purge ends with the port's bit. -/
theorem purgePort_purge (s : State) (p : Nat) : (purgePort s p).tables.purge = s.tables.purge - 2 ^ p := by
  simp only [purgePort, foldl_freeFdb_purge]

/-- Settles O27: frames and fragments, loss conditions, links that go down and come up, flush and purge, by their cases. -/
theorem portsAndTheirLinks : Obligations.PortsAndTheirLinks := by
  unfold Obligations.PortsAndTheirLinks
  refine ⟨⟨fun s p bs abort sub cmp hp hsub hup => ?_, fun s p bs last crcOk abort cmp hp hup => ?_⟩,
    fun s l k hl => ?_, ?_⟩
  · rw [exec_frameReceive hp hsub hup]
    exact ⟨fun k h => by rw [receive_discard h]; rfl, fun k out fcs h => by rw [receive_bad h]; rfl,
      fun h => by rw [receive_good h]; rfl⟩
  · refine ⟨exec_mmFragmentReceive .express hp hup, fun hp32 hon => ⟨fun no hx hl hc ha => ?_, fun x hx ha => ?_,
      fun no frag hx => ?_⟩⟩
    · refine ⟨_, exec_mmFragmentReceive _ hp hup, ?_⟩
      rw [mmReceive_start no hp32 hon, mmStartFrag_opens hx hl hc ha]
      exact congrArg MacPort.partial_ (setPartial_mac ..)
    · rw [exec_mmFragmentReceive _ hp hup, mmReceive_cont _ _ hp32 hon, mmContFrag_inSequence hx]
      exact ⟨fun hl hc => by rw [mmTake_more hl hc ha], fun hl => by rw [mmTake_last hl ha]⟩
    · refine ⟨_, exec_mmFragmentReceive _ hp hup, ?_⟩
      rw [mmReceive_cont _ _ hp32 hon, mmContFrag_unopened hx]
      exact assyErr_shows s p
  · refine ⟨fun hup hnone hw => ⟨_, exec_lossCondition hl, ?_⟩, fun hk hw => ?_,
      fun hlast => ⟨_, exec_lossConditionClear hl, ?_⟩, fun hk => ?_⟩
    · rw [lossArises_first hw hup hnone]
      simp only [mac_setMac, if_true, laneEvents_mac]
      exact ⟨trivial, trivial, hup, fun j hj => if_neg (Ne.symm hj)⟩
    · rw [exec_lossCondition hl, lossArises_present hw hk]
    · rw [lossClears_last hlast]
      simp only [mac_setMac, if_true]
      exact ⟨trivial, trivial, fun j hj => if_neg (Ne.symm hj), fun _ _ _ => rfl⟩
    · rw [exec_lossConditionClear hl, lossClears_absent hk]
  · refine ⟨fun s p hp hd => ?_, fun s l hl hd => ?_, fun s p hp hd => ?_, fun s l hl hd => ?_,
      fun s p hp hf ha => ?_, fun s p hp hb => ?_⟩
    · exact ⟨_, exec_linkDown hp hd, linkGoesDown_port s p⟩
    · exact ⟨_, exec_linkDown (decide_eq_true hl) hd, slLaneDown_link s l, slLaneDown_fab s l, slLaneDown_tables s l⟩
    · exact ⟨_, exec_linkUp hp hd, mac_portGoesUp s p⟩
    · exact ⟨_, exec_linkUp (decide_eq_true hl) hd, slLaneUp_shows s l⟩
    · exact ⟨_, exec_flushDone hp hf ha, endFlush_shows s p⟩
    · exact ⟨exec_fdbPortPurge hp hb, purgePort_purge s p⟩

end Sys2Proof.Proofs
end

section
/-!
Training in turn in two modes (R121), verification of preemption (R133) and TC10 (R142, R143, Table 4-4), one lemma per
case of an event, and the claim about them.
-/
namespace Sys2Proof.Proofs
open Sys2Proof Sys2Proof.Machine Sys2Proof.Laws

/-! ### Training -/

/-- ALT_MODE_SWITCH once a dwell is over. -/
theorem exec_altModeSwitch {s : State} {p : Nat} (hp : macOk p = true) (hd : dwellOver s p = true) :
    exec (.altModeSwitch p) s = .next (altSwitch s p) :=
  (ifWf_true hp).trans (congrArg _ (whenever_true hd))

/-- R121: the port tries the other of MODE and ALT for one more dwell. -/
theorem altSwitch_shows (s : State) (p : Nat) :
    let t := altSwitch s p
    (t.mac p).inAlt = !(s.mac p).inAlt ∧
      (t.mac p).mode = bits (s.reg (aMac p 0x040)).toNat (if (s.mac p).inAlt then 0 else 8) 4 ∧
      (t.mac p).dwellEnd = some (s.cclk + bits (s.reg (aMac p 0x040)).toNat 16 8 * 1000000) ∧ RegsBut [] [] s t := by
  simp only [altSwitch, sgmiiSends_mac, mac_setMac, if_true]
  exact ⟨trivial, rfl, rfl, fun a _ _ => by simp only [State.reg, sgmiiSends_regs]; rfl⟩

/-! ### Verification of preemption -/

theorem exec_mmVerifyResponse {s : State} {p : Nat} (hp : macOk p = true) :
    exec (.mmVerifyResponse p) s = .next (mmAnswered s p) :=
  ifWf_true hp

theorem exec_mmVerifyTimeout {s : State} {p : Nat} (hp : macOk p = true) :
    exec (.mmVerifyTimeout p) s = .next (mmTimeout s p) :=
  ifWf_true hp

/-- R133: a try that has had no answer in its time, of the first two, is followed by another. -/
theorem mmTimeout_again {s : State} {p e : Nat} (hv : (s.mac p).verify = .verifying) (he : (s.mac p).verifyEnd = some e)
    (hdue : e ≤ s.cclk) (htries : (s.mac p).verifyTries < 3) :
    let t := mmTimeout s p
    (t.mac p).verifyTries = (s.mac p).verifyTries + 1 ∧ (t.mac p).verify = .verifying ∧
      t.out = .line p verifyBytes false :: s.out := by
  have hgo : ¬((s.mac p).verify ≠ .verifying ∨ s.cclk < e) := by simp [hv, hdue]
  simp only [mmTimeout, he, if_neg hgo, if_pos htries, emit_mac, mac_setMac, if_true]
  exact ⟨trivial, hv, rfl⟩

/-- R133: the last try without an answer ends verification. -/
theorem mmTimeout_fails {s : State} {p e : Nat} (hv : (s.mac p).verify = .verifying) (he : (s.mac p).verifyEnd = some e)
    (hdue : e ≤ s.cclk) (htries : 3 ≤ (s.mac p).verifyTries) :
    mmTimeout s p = (s.setMac p { s.mac p with verify := .failed, verifyEnd := none }).raise (pMac p) 3 := by
  have hgo : ¬((s.mac p).verify ≠ .verifying ∨ s.cclk < e) := by simp [hv, hdue]
  simp only [mmTimeout, he, if_neg hgo, if_neg (Nat.not_lt.mpr htries)]

/-! ### TC10 -/

@[simp] theorem tphy_setTc10 (s : State) (n : Nat) (x : Tc10) : (setTc10 s n x).tphy n = { s.tphy n with tc10 := x } :=
  (tphy_setTphy ..).trans (if_pos rfl)

@[simp] theorem setHeld_tphy (s : State) (p n : Nat) (b : Bool) : (setHeld s p b).tphy n = s.tphy n := rfl

@[simp] theorem egs_setHeld (s : State) (p : Nat) (b : Bool) : (setHeld s p b).egs p = { s.egs p with held := b } :=
  get_set.trans (if_pos rfl)

@[simp] theorem raise_egs (s : State) (p i k : Nat) : (s.raise p i).egs k = s.egs k := by
  simp only [State.egs, raise_egress]

/-- TC10_SLEEP_REQ that passes the checks. -/
theorem exec_tc10SleepReq {s : State} {w : Who} {n : Nat} (hn : t1Ok n = true) (h : Passes s w (aTphy n 0x044) 1) :
    exec (.tc10SleepReq w n) s = .next (tc10Negotiate s n) :=
  (ifWf_true hn).trans (congrArg _ (write_passes h))

/-- TC10_WAKE_REQ that passes the checks. -/
theorem exec_tc10WakeReq {s : State} {w : Who} {n : Nat} (hn : t1Ok n = true) (h : Passes s w (aTphy n 0x044) 2) :
    exec (.tc10WakeReq w n) s = .next (tc10Wake s n) :=
  (ifWf_true hn).trans (congrArg _ (write_passes h))

theorem exec_tc10SleepRequestRx {s : State} {n : Nat} (hn : t1Ok n = true) :
    exec (.tc10SleepRequestRx n) s = .next (tc10Requested s n) :=
  ifWf_true hn

theorem exec_tc10HandshakeDone {s : State} {n : Nat} (hn : t1Ok n = true) :
    exec (.tc10HandshakeDone n) s = .next (tc10Sleeps s n) :=
  ifWf_true hn

theorem exec_tc10SleepFail {s : State} {n : Nat} (hn : t1Ok n = true) :
    exec (.tc10SleepFail n) s = .next (tc10Fails s n) :=
  ifWf_true hn

theorem exec_tc10Wup {s : State} {n : Nat} (hn : t1Ok n = true) : exec (.tc10Wup n) s = .next (wupSeen s n) :=
  ifWf_true hn

/-- Table 4-4: an UP port in NORMAL that negotiates holds its queued frames and sends the handshake. -/
theorem tc10Negotiate_shows {s : State} {n : Nat} (hc : (s.tphy n).tc10 = .normal) (hup : portUp s (32 + n) = true) :
    let t := tc10Negotiate s n
    (t.tphy n).tc10 = .sleepNeg ∧ (t.egs (32 + n)).held = true ∧ t.out = .tc10 n 3 :: s.out := by
  rw [tc10Negotiate, if_pos ⟨hc, hup⟩]
  refine ⟨?_, ?_, rfl⟩
  · rw [emit_tphy, setHeld_tphy, tphy_setTc10]
  · exact congrArg EgsPort.held (egs_setHeld ..)

/-- Table 4-4: a port in SLEEP that is to wake sends a WUP. -/
theorem tc10Wake_shows {s : State} {n : Nat} (hc : (s.tphy n).tc10 = .sleep) :
    let t := tc10Wake s n
    (t.tphy n).tc10 = .wake ∧ t.out = .tc10 n 1 :: s.out := by
  rw [tc10Wake, if_pos hc]
  exact ⟨by rw [emit_tphy, tphy_setTc10], rfl⟩

/-- Table 4-4: what an UP port in NORMAL makes of a sleep request, by ACCEPT_SLEEP of `TPHY_CFG`. -/
theorem tc10Requested_normal {s : State} {n : Nat} (hen : tc10En s n = true) (hc : (s.tphy n).tc10 = .normal)
    (hup : portUp s (32 + n) = true) :
    tc10Requested s n =
      if s.bitAt (aTphy n 0x040) 2 then tc10Negotiate s n else (s.bump (aTphy n 0x118)).emit (.tc10 n 4) := by
  rw [tc10Requested, hen, hc, hup]
  rfl

/-- Table 4-4: the end of the handshake puts port and PHY to sleep. -/
theorem tc10Sleeps_shows {s : State} {n : Nat} (hc : (s.tphy n).tc10 = .sleepNeg) :
    let t := tc10Sleeps s n
    (t.mac (32 + n)).link = .sleep ∧ (t.tphy n).tc10 = .sleep := by
  rw [tc10Sleeps, if_pos hc]
  simp only [bump_mac, mac_setMac, if_true, bump_tphy, setMac_tphy]
  refine ⟨(mac_leaveUp _ _ _).1, ?_⟩
  rw [tphy_leaveUp .sleep (by rw [tphy_setTc10]; nofun), tphy_setTc10]

/-- Table 4-4: a handshake that fails takes the PHY back to NORMAL and lets the queued frames go. -/
theorem tc10Fails_shows {s : State} {n : Nat} (hc : (s.tphy n).tc10 = .sleepNeg) :
    let t := tc10Fails s n
    (t.tphy n).tc10 = .normal ∧ (t.egs (32 + n)).held = false := by
  rw [tc10Fails, if_pos hc]
  exact ⟨by rw [raise_tphy, setHeld_tphy, tphy_setTc10], by rw [raise_egs, egs_setHeld]⟩

/-- R525: a unit that neither sleeps nor is entering SLEEP records no wake event. -/
theorem wakeEvent_awake {s : State} {r b c : Nat} (he : s.power.entry = none) (ha : asleep s.mode = false) :
    wakeEvent s r b c = s := by
  simp [wakeEvent, he, ha]

/-- Table 4-4: a WUP wakes the PHY of a port in SLEEP, on a unit that is awake. -/
theorem tphy_wupSeen {s : State} {n : Nat} (hen : tc10En s n = true) (hc : (s.tphy n).tc10 = .sleep)
    (he : s.power.entry = none) (ha : asleep s.mode = false) : ((wupSeen s n).tphy n).tc10 = .wake := by
  let t := ((setTc10 s n .wake).raise (pTphy n) 0).bump (aTphy n 0x100)
  have hpower : t.power.entry = none := by rw [bump_power, raise_power]; exact he
  have hmode : asleep t.mode = false := by rw [bump_mode, raise_mode]; exact ha
  have ht : wupSeen s n = t := by
    simp only [wupSeen, hen, hc, and_self, if_true]
    split
    · exact wakeEvent_awake hpower hmode
    · rfl
  rw [ht, bump_tphy, raise_tphy, tphy_setTc10]

/-- TC10_WUR of an UP port in NORMAL, on a unit that is awake, is noted and counted. -/
theorem exec_tc10Wur {s : State} {n : Nat} (hn : t1Ok n = true) (hen : tc10En s n = true)
    (hc : (s.tphy n).tc10 = .normal) (hup : portUp s (32 + n) = true) (he : s.power.entry = none)
    (ha : asleep s.mode = false) :
    exec (.tc10Wur n) s = .next ((s.raise (pTphy n) 1).bump (aTphy n 0x108)) := by
  let t := (s.raise (pTphy n) 1).bump (aTphy n 0x108)
  have hpower : t.power.entry = none := by rw [bump_power, raise_power, he]
  have hmode : asleep t.mode = false := by rw [bump_mode, raise_mode, ha]
  refine (ifWf_true hn).trans (congrArg _ ((whenever_true (by simp [hen, hc, hup])).trans ?_))
  exact (ite_congr rfl (fun _ => wakeEvent_awake hpower hmode) fun _ => rfl).trans (ite_self t)

/-- Settles O28: training, verification and TC10, each request and event in the state that it concerns. -/
theorem trainingAndHandshakes : Obligations.TrainingAndHandshakes := by
  unfold Obligations.TrainingAndHandshakes
  refine ⟨⟨fun s p hp hd => ⟨_, exec_altModeSwitch hp hd, altSwitch_shows s p⟩, fun s p hp => ⟨fun hv => ?_, fun hv => ?_⟩,
      fun s p e hp hv he hdue => ⟨fun htries => ?_, fun htries => ?_⟩⟩,
    fun s w n hn => ⟨fun h hc hup => ?_, fun h hc => ?_, fun hen hc hup => ⟨fun hacc => ?_, fun hacc => ?_⟩,
      fun hc => ?_, fun hen hc he ha => ?_, fun hen hc hup he ha => exec_tc10Wur hn hen hc hup he ha⟩⟩
  · rw [exec_mmVerifyResponse hp, mmAnswered, if_pos hv]
  · rw [exec_mmVerifyResponse hp, mmAnswered, if_neg hv]
  · exact ⟨_, exec_mmVerifyTimeout hp, mmTimeout_again hv he hdue htries⟩
  · rw [exec_mmVerifyTimeout hp, mmTimeout_fails hv he hdue htries]
  · exact ⟨_, exec_tc10SleepReq hn h, tc10Negotiate_shows hc hup⟩
  · exact ⟨_, exec_tc10WakeReq hn h, tc10Wake_shows hc⟩
  · refine ⟨_, exec_tc10SleepRequestRx hn, ?_⟩
    rw [tc10Requested_normal hen hc hup, if_pos hacc]
    obtain ⟨hneg, _, hout⟩ := tc10Negotiate_shows hc hup
    exact ⟨hneg, hout⟩
  · rw [exec_tc10SleepRequestRx hn, tc10Requested_normal hen hc hup, if_neg (by simp [hacc])]
  · exact ⟨⟨_, exec_tc10HandshakeDone hn, tc10Sleeps_shows hc⟩, _, exec_tc10SleepFail hn, tc10Fails_shows hc⟩
  · exact ⟨_, exec_tc10Wup hn, tphy_wupSeen hen hc he ha⟩

end Sys2Proof.Proofs
end

section
/-!
The MDIO masters (R144, R145), the PRBS generators of the lanes (R146) and the cable tests, one lemma per case of a
command, and the claim about them.
-/
namespace Sys2Proof.Proofs
open Sys2Proof Sys2Proof.Machine Sys2Proof.Laws

/-! ### MDIO -/

/-- Each of the four MDIO commands that passes the checks is one write of `MDIO_CMD`, with its opcode. -/
theorem exec_mdioCmd {s : State} {w : Who} {m phy reg op : Nat} {c : Instr} (hm : mdioOk m phy reg = true)
    (h : Passes s w (aMac m 0x404) (mdioWord op phy reg))
    (hc : (op, c) ∈ [(0, Instr.mdioC22Write w m phy reg), (1, .mdioC22Read w m phy reg),
      (2, .mdioC45Write w m phy reg), (3, .mdioC45Read w m phy reg)]) :
    exec c s = .next (mdioStart s m op phy reg) := by
  have hcmd : exec c s = mdioCmd w m op phy reg s := by
    simp only [List.mem_cons, Prod.mk.injEq, List.not_mem_nil, or_false] at hc
    obtain ⟨rfl, rfl⟩ | ⟨rfl, rfl⟩ | ⟨rfl, rfl⟩ | ⟨rfl, rfl⟩ := hc <;> rfl
  rw [hcmd, mdioCmd, ifWf_true hm, write_passes h]

/-- The frame that an idle MDIO master starts (R144). -/
def mdioFrame (s : State) (m op phy reg : Nat) : MdioOp :=
  { op := op, phy := phy, reg := reg, addr := s.fld (aMac m 0x408) 0 16, data := s.fld (aMac m 0x40C) 0 16,
    endAt := s.cclk + mdioTime s m op }

theorem mdioStart_idle {s : State} {m op phy reg : Nat} (h : s.mdio m = none) :
    let t := mdioStart s m op phy reg
    t.mdio m = some (mdioFrame s m op phy reg) ∧ t.reg (aMac m 0x414) = 1 ∧ RegsBut [aMac m 0x414] [] s t := by
  simp only [mdioStart, h]
  refine ⟨(mdio_setMdio ..).trans (if_pos rfl), by simp, fun a ha _ => ?_⟩
  simp [Ne.symm (List.ne_of_not_mem_cons ha)]

/-- R145: a busy master notes BUSYHIT and starts nothing. -/
theorem mdioStart_busy {s : State} {m op phy reg : Nat} {x : MdioOp} (h : s.mdio m = some x) :
    mdioStart s m op phy reg = s.setBitAt (aMac m 0x414) 2 true := by
  simp only [mdioStart, h]

theorem exec_mdioDone {s : State} {m v : Nat} (hm : m < 4) (hv : v < 2 ^ 16) :
    exec (.mdioDone m (some v)) s = .next (mdioEnds s m (some v)) :=
  ifWf_true (by rw [decide_eq_true hm, decide_eq_true (show (some v).getD 0 < 2 ^ 16 from hv)]; rfl)

/-- R144, R145: a read that has ended leaves what it returned, and in `MDIO_STAT` DONE without BUSY or an error. -/
theorem mdioEnds_read {s : State} {m v : Nat} {x : MdioOp} (hx : s.mdio m = some x) (hend : x.endAt ≤ s.cclk)
    (hop : x.op % 2 = 1) :
    let t := mdioEnds s m (some v)
    t.mdio m = none ∧ t.reg (aMac m 0x410) = w32 v ∧ t.bitAt (aMac m 0x414) 0 = false ∧
      t.bitAt (aMac m 0x414) 1 = true ∧ t.bitAt (aMac m 0x414) 3 = false := by
  have hdata : aMac m 0x410 ≠ regAddr (pMac m) 0x10 := by simp [aMac]
  have hstat : aMac m 0x414 ≠ regAddr (pMac m) 0x10 := by simp [aMac]
  simp only [mdioEnds, hx, if_neg (Nat.not_lt.mpr hend), hop, if_true, mdioReply, mdio_congr (raise_ports ..) m,
    reg_raise hdata, bitAt_raise_ne hstat]
  refine ⟨(mdio_setMdio ..).trans (if_pos rfl), by simp [aMac], ?_, ?_, ?_⟩ <;> simp [bitAt_setBitAt]

/-! ### PRBS generators -/

/-- SDS_PRBS_WRITE that passes the checks. -/
theorem exec_sdsPrbsWrite {s : State} {w : Who} {k : Nat} {v : Word} (hk : laneOk k = true)
    (h : Passes s w (laneReg k 0x04C) v) : exec (.sdsPrbsWrite w k v) s = .next (prbsWrite s w k v) :=
  (ifWf_true hk).trans (congrArg _ (write_passes h))

/-- An accepted write of `SDS_PRBS` before any effect on the link: the value, the error count at 0 and the log. -/
def prbsSet (s : State) (w : Who) (k : Nat) (v : Word) : State :=
  logReg ((s.setReg (laneReg k 0x04C) (v &&& 0xF)).setReg (laneReg k 0x04C + 4) 0) (originOf w.m)
    (laneReg k 0x04C) (s.reg (laneReg k 0x04C)) (v &&& 0xF) false

@[simp] theorem prbsSet_portUp (s : State) (w : Who) (k p : Nat) (v : Word) :
    portUp (prbsSet s w k v) p = portUp s p := by
  rw [portUp, portUp, mac_congr (t := prbsSet s w k v) (s := s) (by simp [prbsSet])]

/-- R146: the link after an accepted write of `SDS_PRBS`. -/
theorem prbsWrite_eq (s : State) (w : Who) (k : Nat) (v : Word) :
    prbsWrite s w k v =
      if fld (v &&& 0xF) 0 2 = 0 then prbsSet s w k v
      else if k < 48 then
        (if portUp (prbsSet s w k v) k then trainStart (leaveUp (prbsSet s w k v) k .train) k else prbsSet s w k v)
      else if portUp (prbsSet s w k v) k then slLaneDown (prbsSet s w k v) (k - 48) else prbsSet s w k v := rfl

/-- R146: a generator that is off, or on the lane of a port that is not UP, changes no link. -/
theorem prbsWrite_stays {s : State} {w : Who} {k : Nat} {v : Word} (h : fld (v &&& 0xF) 0 2 = 0 ∨ portUp s k = false) :
    prbsWrite s w k v = prbsSet s w k v := by
  rw [prbsWrite_eq]
  obtain hoff | hdown := h
  · exact if_pos hoff
  · simp [hdown]

/-- R146: a generator that is switched on takes an UP port out of UP. -/
theorem prbsWrite_trains {s : State} {w : Who} {k : Nat} {v : Word} (hk : k < 48) (hon : fld (v &&& 0xF) 0 2 ≠ 0)
    (hup : portUp s k = true) :
    prbsWrite s w k v = trainStart (leaveUp (prbsSet s w k v) k .train) k := by
  rw [prbsWrite_eq, if_neg hon, if_pos hk, prbsSet_portUp, if_pos hup]

/-! ### Cable tests -/

/-- The registers of a T1 PHY lie outside page SILT. -/
theorem aTphy_page {n off : Nat} (ho : off < 0x1000) : aTphy n off / 0x1000 ≠ pSilt := by
  rw [aTphy, regAddr_page ho]
  simp only [pTphy, pSilt]
  omega

/-- CABLE_TEST_START that passes the checks. -/
theorem exec_cableTestStart {s : State} {w : Who} {n : Nat} (hn : t1Ok n = true) (h : Passes s w (aTphy n 0x04C) 1) :
    exec (.cableTestStart w n) s = .next (cableStart s w n) :=
  (ifWf_true hn).trans (congrArg _ (write_passes h))

/-- A cable test that starts shows BUSY, and START of `TPHY_DIAG` stays set. -/
theorem cableStart_shows (s : State) (w : Who) (n : Nat) :
    let t := cableStart s w n
    (t.tphy n).diagBusy = true ∧ t.bitAt (aTphy n 0x050) 31 = true ∧ t.reg (aTphy n 0x04C) = 1 ∧
      RegsBut [aTphy n 0x04C, aTphy n 0x050] [pSilt] s t := by
  refine ⟨?_, ?_, ?_, fun a ha hpg => ?_⟩
  · exact congrArg Tphy.diagBusy ((tphy_setTphy ..).trans (if_pos rfl))
  · simp [cableStart, bitAt_setBitAt]
  · have hne : aTphy n 0x050 ≠ aTphy n 0x04C := by simp [aTphy]
    simp [cableStart, hne, reg_logReg (aTphy_page (show 0x04C < 0x1000 by decide))]
  · simp only [List.mem_cons, List.not_mem_nil, or_false, not_or] at ha hpg
    obtain ⟨hstart, hstat⟩ := ha
    simp [cableStart, Ne.symm hstat, Ne.symm hstart, reg_logReg hpg]

theorem exec_diagDone {s : State} {n fault dist : Nat} (hn : t1Ok n = true) (hf : fault < 4) :
    exec (.diagDone n fault dist) s = .next (cableDone s n fault dist) :=
  ifWf_true (by simp [hn, hf])

/-- A cable test that ends shows its result in place of BUSY. -/
theorem cableDone_shows {s : State} {n fault dist : Nat} (hb : (s.tphy n).diagBusy = true) :
    let t := cableDone s n fault dist
    (t.tphy n).diagBusy = false ∧ t.reg (aTphy n 0x050) = w32 (fault + dist % 256 * 2 ^ 8) ∧
      RegsBut [aTphy n 0x050, regAddr (pTphy n) 0x10] [] s t := by
  simp only [cableDone, hb, Bool.not_true, Bool.false_eq_true, if_false]
  refine ⟨?_, ?_, fun a ha _ => ?_⟩
  · rw [raise_tphy]
    exact congrArg Tphy.diagBusy ((tphy_setTphy ..).trans (if_pos rfl))
  · rw [reg_raise (by simp [aTphy]), reg_setReg, if_pos rfl]
  · simp only [List.mem_cons, List.not_mem_nil, or_false, not_or] at ha
    obtain ⟨hres, hraw⟩ := ha
    rw [reg_raise hraw, reg_setReg, if_neg (Ne.symm hres), setTphy_reg]

/-- Settles O29: the frames of an MDIO master, the PRBS generator of a lane and a cable test, each by its case. -/
theorem mdioLanesAndCables : Obligations.MdioLanesAndCables := by
  unfold Obligations.MdioLanesAndCables
  refine ⟨⟨fun s w m phy reg op c hm h hc => ?_, fun s m v x hm hv hx hend hop => ?_⟩,
    fun s w k v hk h => ?_, fun s w n hn h => ?_, fun s n fault dist hn hf hb => ?_⟩
  · have hexec := exec_mdioCmd hm h hc
    exact ⟨fun hidle => ⟨_, hexec, mdioStart_idle hidle⟩, fun x hx => by rw [hexec, mdioStart_busy hx]⟩
  · exact ⟨_, exec_mdioDone hm hv, mdioEnds_read hx hend hop⟩
  · have hexec := exec_sdsPrbsWrite hk h
    have hlane : k < 48 := by
      simp only [laneOk, decide_eq_true_eq] at hk
      omega
    refine ⟨fun hstay => by rw [hexec, prbsWrite_stays hstay, prbsSet], fun hon hup => ⟨_, hexec, ?_⟩⟩
    rw [prbsWrite_trains hlane hon hup]
    exact (mac_trainStart _ _).1
  · exact ⟨_, exec_cableTestStart hn h, cableStart_shows s w n⟩
  · exact ⟨_, exec_diagDone hn hf, cableDone_shows hb⟩

end Sys2Proof.Proofs
end

section
/-!
Parsing (R148 to R156, R169, R591), lookup (R177), the policy stage (R215, R216) and the flow sweep (R225), one lemma
per case of an event, and the claim about them.
-/
namespace Sys2Proof.Proofs
open Sys2Proof Sys2Proof.Machine Sys2Proof.Laws

/-! ### Frames -/

@[simp] theorem frame_setFrame (s : State) (n k : Nat) (x : Frame) :
    (s.setFrame n x).frame k = if n = k then x else s.frame k :=
  get_set

theorem frame_congr {s t : State} (h : t.frames = s.frames) (n : Nat) : t.frame n = s.frame n := by
  rw [State.frame, h, State.frame]

/-! ### Dispatch -/

/-- PARSE_DISPATCH of the frame whose byte 63 is there first (R148). -/
theorem exec_parseDispatch {s : State} {f : Nat} (rvErr : Bool) (hst : (s.frame f).stage = .received)
    (hb : byteInPrs (s.frame f) 63 ≤ s.cclk) (hfirst : dispatchFirst s f = true) :
    exec (.parseDispatch f rvErr) s = .next (dispatch s f rvErr) :=
  congrArg _ (whenever_true (by simp [hst, hb, hfirst]))

/-- R172: before the parse microcode is there, a frame is dropped and counted. -/
theorem dispatch_notReady {s : State} {f : Nat} {rvErr : Bool} (h : s.prs.ready = false) :
    dispatch s f rvErr =
      (retireFrame (s.setFrame f { s.frame f with stage := .gone }) f).bump (aPrsCnt 10) := by
  simp only [dispatch, h, Bool.not_false, if_true]

/-- Frame `f` of a state in the cycle and epoch of its dispatch. -/
def dispatchedFrame (t : State) (f : Nat) (rvErr : Bool) (cclk epoch : Nat) : Frame :=
  { t.frame f with dispatchAt := cclk, epoch := epoch, rvErr := rvErr }

/-- R148: a frame is parsed at once where no frame waits and a processor is free. -/
theorem dispatch_starts {s : State} {f i : Nat} {rvErr : Bool} (hr : s.prs.ready = true)
    (hnone : (readMicrocode s f).frames.any (fun x => (procTurn x.2).isSome) = false)
    (hfree : freeProc (readMicrocode s f) = some i) :
    dispatch s f rvErr =
      startParse (readMicrocode s f) f i (dispatchedFrame (readMicrocode s f) f rvErr s.cclk s.epoch) := by
  simp only [dispatch, hr, hnone, hfree, Bool.not_true, Bool.false_eq_true, if_false, dispatchedFrame]

/-- R152: a frame waits behind one that waits already, or where no processor is free. -/
theorem dispatch_waits {s : State} {f : Nat} {rvErr : Bool} (hr : s.prs.ready = true)
    (h : (readMicrocode s f).frames.any (fun x => (procTurn x.2).isSome) = true ∨ freeProc (readMicrocode s f) = none) :
    dispatch s f rvErr =
      ((readMicrocode s f).setFrame f { dispatchedFrame (readMicrocode s f) f rvErr s.cclk s.epoch with
        stage := .waitProc }).bump (aPrsCnt 8) := by
  have hproc : (if (readMicrocode s f).frames.any (fun x => (procTurn x.2).isSome) then none
      else freeProc (readMicrocode s f)) = none := by
    obtain hwait | hbusy := h
    · rw [if_pos hwait]
    · rw [hbusy, ite_self]
  simp only [dispatch, hr, hproc, Bool.not_true, Bool.false_eq_true, if_false, dispatchedFrame]

/-- R152: the frame that has waited longest takes the processor that is free. -/
theorem dispatchWaiting_starts {s : State} {f i : Nat} (hfirst : waitFirst s f = true) (hfree : freeProc s = some i) :
    dispatchWaiting s f = startParse s f i (s.frame f) := by
  simp only [dispatchWaiting, hfirst, hfree]

/-! ### Parked parses -/

/-- R155: a parked parse goes on once its byte is there and a processor is free. -/
theorem resumeParse_steps {s : State} {f i b : Nat} (hst : (s.frame f).stage = .parked b) (hfree : freeProc s = some i)
    (hsteps : (s.frame f).stepsDone < (s.frame f).parse.reads.length) (hb : byteInPrs (s.frame f) b < s.cclk) :
    resumeParse s f = stepFrame s f i s.cclk { s.frame f with proc := some i } := by
  simp only [resumeParse, hst, hfree, hsteps, hb, and_self, if_true]

/-- R156: a DEEP parse with no step left ends 32 cycles after the frame's last byte. -/
theorem deepEnds_parseEnds {s : State} {f b : Nat} (hst : (s.frame f).stage = .parked b)
    (hdeep : (s.frame f).parse.rv.deep = true) (hsteps : (s.frame f).stepsDone = (s.frame f).parse.reads.length)
    (hend : endInPrs (s.frame f) + 32 ≤ s.cclk) :
    deepEnds s f = parseEnds s f (s.frame f) (endInPrs (s.frame f) + 48 + (s.frame f).wait) := by
  simp only [deepEnds, hst, hdeep, hsteps, hend, and_self, if_true]

@[simp] theorem countParse_frames (s : State) (g : Frame) : (countParse s g).frames = s.frames :=
  (fr_countParse (F := 8) rfl frm_refl).frames.resolve_left (by decide)

/-- R153: holding back a port's later frames leaves the frame that they follow alone. -/
theorem frame_pushLater (s : State) (n port at_ : Nat) : (pushLater s n port at_).frame n = s.frame n := by
  refine List.foldlRecOn (motive := fun u : State => u.frame n = s.frame n) s.frames _ rfl fun u hu x _ => ?_
  split
  · rename_i hlater
    simp only [Bool.and_eq_true, decide_eq_true_eq] at hlater
    obtain ⟨⟨⟨hlt, -⟩, -⟩, -⟩ := hlater
    rw [frame_setFrame, if_neg (Nat.ne_of_gt hlt), hu]
  · exact hu

/-- R153, R154: a parse that ends leaves its frame parsed, with keys no earlier than those of the port's earlier
frames. -/
theorem frame_parseEnds (s : State) (n : Nat) (g : Frame) (keysAt : Nat) :
    (parseEnds s n g keysAt).frame n = { g with stage := .parsed, keysAt := afterEarlier s n g keysAt } := by
  rw [parseEnds, frame_congr (countParse_frames ..), frame_pushLater, frame_setFrame, if_pos rfl]

/-- R156: the frame of a DEEP parse that ends is parsed, with its keys 48 cycles after its last byte, and later by its
waits and its port's earlier frames. -/
theorem deepEnds_shows {s : State} {f b : Nat} (hst : (s.frame f).stage = .parked b)
    (hdeep : (s.frame f).parse.rv.deep = true) (hsteps : (s.frame f).stepsDone = (s.frame f).parse.reads.length)
    (hend : endInPrs (s.frame f) + 32 ≤ s.cclk) :
    let g := (deepEnds s f).frame f
    g.stage = .parsed ∧
      g.keysAt = afterEarlier s f (s.frame f) (endInPrs (s.frame f) + 48 + (s.frame f).wait) := by
  rw [deepEnds_parseEnds hst hdeep hsteps hend, frame_parseEnds]
  exact ⟨rfl, rfl⟩

/-! ### The checks at end and the capture -/

/-- END_CHECK one cycle after the last byte of a frame whose late checks fail (R169). -/
theorem exec_endCheck {s : State} {f : Nat} (hlate : (s.frame f).latePending = true)
    (hend : endInPrs (s.frame f) + 1 ≤ s.cclk) : exec (.endCheck f) s = .next (endFails s f) :=
  congrArg _ (whenever_true (by simp [hlate, hend]))

/-- R169, R227: a decided frame loses the copies that a late MALFORMED drops. -/
theorem endFails_decided {s : State} {f : Nat} (h : (s.frame f).stage = .decided) :
    endFails s f =
      lateDrop ((s.setFrame f { s.frame f with latePending := false, lateMal := true }).bump (aPrsCnt 4)) f :=
  if_pos h

/-- R169: a frame that is still in the part, and not decided, is marked and counted. -/
theorem endFails_undecided {s : State} {f : Nat} (hd : (s.frame f).stage ≠ .decided) (hg : (s.frame f).stage ≠ .gone) :
    endFails s f = (s.setFrame f { s.frame f with latePending := false, lateMal := true }).bump (aPrsCnt 4) :=
  (if_neg hd).trans (if_neg hg)

/-- R591: a write that arms the capture clears DONE. -/
theorem captWrite_arms {s : State} {w : Who} {v : Word} (h : bit v.toNat 8 = true) :
    captWrite s w v = logReg (s.setReg (aPrs 0x04C) (v &&& 0x53F)) (originOf w.m) (aPrs 0x04C) (s.reg (aPrs 0x04C))
      (v &&& 0x53F) false := by
  simp only [captWrite, h, if_true]

/-! ### Lookup -/

/-- LOOKUP_STAGE of the frame that reaches its pipeline first (R177). -/
theorem exec_lookupStage {s : State} {f : Nat} (hkeys : (s.frame f).keysAt ≤ s.cclk) (hfirst : lookFirst s f = true) :
    exec (.lookupStage f) s = .next (lookup s f) :=
  congrArg _ (whenever_true (by simp [hkeys, hfirst]))

/-- R177: a frame that names its port is looked up without the tables' entries, once its words have been read. -/
theorem lookWith_named {s : State} {f p : Nat} {g : Frame} (h : g.named = some p) :
    lookWith s f g false = s.setFrame f { g with stage := .looked, set := 2 ^ p } := by
  simp only [lookWith, h, Bool.false_eq_true, if_false]

/-- Frame `f` of a state with the cycle of its lookup's result: 72 cycles after its keys, and `d` later (R177, R26). -/
def timedFrame (t : State) (f d : Nat) : Frame :=
  { t.frame f with lookedAt := (t.frame f).keysAt + 72 + d }

/-- R177, R26: the result of a frame that names its port comes 72 cycles after its keys, and later by its replays. -/
theorem lookup_named {s : State} {f p : Nat} :
    let r := release s f
    let x := readTables (r.bump (aPlCnt (pipelineOf (r.frame f).port) 0)) (pipelineOf (r.frame f).port)
    x.2 = false → ((noteReplay r x.1 f).frame f).named = some p →
      ((lookup s f).frame f).stage = .looked ∧ ((lookup s f).frame f).set = 2 ^ p ∧
        ((lookup s f).frame f).lookedAt = ((noteReplay r x.1 f).frame f).keysAt + 72 + addedReplay r x.1 f := by
  intro r x hkept hnamed
  have hlook : lookup s f =
      lookWith (noteReplay r x.1 f) f (timedFrame (noteReplay r x.1 f) f (addedReplay r x.1 f)) x.2 := rfl
  have hport : (timedFrame (noteReplay r x.1 f) f (addedReplay r x.1 f)).named = some p := hnamed
  rw [hlook, hkept, lookWith_named hport, frame_setFrame, if_pos rfl]
  exact ⟨rfl, rfl, rfl⟩

/-! ### The policy stage -/

/-- POLICY_STAGE of the frame that enters the stage first (R216). -/
theorem exec_policyStage {s : State} {f : Nat} (hst : (s.frame f).stage = .looked)
    (hat : (s.frame f).lookedAt ≤ s.cclk) (hfirst : policyFirst s f = true) :
    exec (.policyStage f) s = .next (policy s f) :=
  congrArg _ (whenever_true (by simp [hst, hat, hfirst]))

/-- R215: a frame that lookup dropped is dropped. -/
theorem policy_dropped {s : State} {f : Nat} (h : (s.frame f).dropped = true) :
    policy s f = policyDrop s f (s.frame f) := by
  simp only [policy, h, if_true]

/-- R215: any other frame goes through the firewall and then the policing, and is dropped where the policing drops it
or the firewall leaves it no copy. -/
theorem policy_decides {s : State} {f : Nat} (h : (s.frame f).dropped = false) :
    policy s f =
      let g := { s.frame f with tc := gateTc s (s.frame f) }
      let w := firewall s g
      let u := policing w.1 g (w.2.set != 0)
      let d := addedReplay s u.1 f
      let k := { g with replay := g.replay + d, replayed := g.replayed || metParity s u.1 }
      if !u.2 || w.2.set == 0 then policyDrop (noteReplay s u.1 f) f k
      else policyKeep (noteReplay s u.1 f) f { k with set := w.2.set, copyTc := w.2.tcs } d := by
  simp only [policy, h, Bool.false_eq_true, if_false]

/-! ### The flow sweep -/

/-- FLOW_SWEEP visits every flow that the table holds (R225). -/
theorem exec_flowSweep (s : State) :
    exec .flowSweep s = .next
      (((s.tables.ent.filter (fun x => x.1 / 2 ^ 20 == tFLOW)).map (fun x => x.1 % 2 ^ 20)).foldl sweepFlow
        { s with policing := { s.policing with sweptAt := s.cclk } }) := rfl

/-- Settles O30: each event of parsing, lookup, policy and the flow sweep by its case. -/
theorem parsingAndLookup : Obligations.ParsingAndLookup := by
  unfold Obligations.ParsingAndLookup
  refine ⟨⟨fun s f rvErr hst hb hfirst => ?_, fun s f i hfirst hfree => ?_, fun s f i b hst hfree hsteps hb => ?_,
      fun s f b hst hdeep hsteps hend => ?_, fun s f hlate hend => ?_, fun s w v harm h => ?_⟩,
    fun s f hkeys hfirst => ?_, fun s f hst hat hfirst => ?_, fun s hnone => ?_, exec_flowSweep⟩
  · have hexec := exec_parseDispatch rvErr hst hb hfirst
    refine ⟨fun hr => by rw [hexec, dispatch_notReady hr], fun hr => ⟨fun i hnone hfree => ?_, fun hwait => ?_⟩⟩
    · rw [hexec, dispatch_starts hr hnone hfree, dispatchedFrame]
    · rw [hexec, dispatch_waits hr hwait, dispatchedFrame]
  · exact congrArg Host.Outcome.next (dispatchWaiting_starts hfirst hfree)
  · exact congrArg Host.Outcome.next (resumeParse_steps hst hfree hsteps hb)
  · exact ⟨_, rfl, deepEnds_shows hst hdeep hsteps hend⟩
  · have hexec := exec_endCheck hlate hend
    exact ⟨fun hd => by rw [hexec, endFails_decided hd], fun hd hg => by rw [hexec, endFails_undecided hd hg]⟩
  · exact congrArg Host.Outcome.next ((write_passes h).trans (captWrite_arms harm))
  · have hexec := exec_lookupStage hkeys hfirst
    exact ⟨hexec, fun p hkept hnamed => ⟨_, hexec, lookup_named hkept hnamed⟩⟩
  · have hexec := exec_policyStage hst hat hfirst
    refine ⟨fun hd => by rw [hexec, policy_dropped hd], fun hd => ⟨fun hpass hset => ?_, fun hdrop => ?_⟩⟩
    · rw [hexec, policy_decides hd]
      exact congrArg _ (if_neg (by simp [hpass, hset]))
    · rw [hexec, policy_decides hd]
      exact congrArg _ (if_pos (by simpa using hdrop))
  · rw [exec_flowSweep, hnone]
    rfl

end Sys2Proof.Proofs
end

section
/-!
The table engine (R186 to R189), the overlay (R193, R194), learning (R196 to R202) and ageing (R205), one lemma per
case of an event, and the claim about them.
-/
namespace Sys2Proof.Proofs
open Sys2Proof Sys2Proof.Machine Sys2Proof.Laws

/-! ### The table engine -/

/-- R186: an enabled ring with a descriptor has it taken and completed with the operation's answer. -/
theorem tueRun_takes {s : State} {h : HostPort} (d : TueDesc) (f : State → State × TueAns)
    (hen : ringEn s (.tue h) = true) (hpost : ringPosted s (.tue h) ≠ 0) :
    tueRun s h d f = tueFinish h d (f (ringTake s (.tue h) 1)) :=
  if_neg (by simp [hen, hpost])

/-- R186: a disabled ring has none taken. -/
theorem tueRun_disabled {s : State} {h : HostPort} (d : TueDesc) (f : State → State × TueAns)
    (hen : ringEn s (.tue h) = false) : tueRun s h d f = s :=
  if_pos (by simp [hen])

/-- R189: an accepted READ returns the entry, once its words have been read. -/
theorem tueReadOp_accepted {s : State} {d : TueDesc} (hform : tueForm s d 1 allTables true true false = 0)
    (hkept : (tueReads s d.table).2 = false) :
    tueReadOp d s = ((tueReads s d.table).1,
      { status := 0, index := d.index, out := tueValue (tueReads s d.table).1 d.pending d.table d.index }) := by
  rcases hr : tueReads s d.table with ⟨t, lost⟩
  obtain rfl : lost = false := by simpa [hr] using hkept
  simp only [tueReadOp, hform, hr]

/-- R187, R190: an accepted WRITE stages its entry. -/
theorem tueWriteOp_accepted {s : State} {h : HostPort} {d : TueDesc} {data : List Byte} {fault : Bool}
    (hform : tueForm s d 2 [tVLAN, tPORT, tMCAST, tFILTER, tGATE, tMETER, tRULE, tSEQGEN, tSEQREC] true true fault = 0)
    (hok : tueRefusal s h (rwsClosed s.mode) (badEntry d.table (slice data 0 (entryBytes d.table))) = 0) :
    tueWriteOp h d data fault s = tueStage s h d.table [(d.index, slice data 0 (entryBytes d.table))] d.index 0 := by
  simp only [tueWriteOp, hform, hok]

/-- R187: an accepted INSERT goes by the key of its entry. -/
theorem tueInsertOp_accepted {s : State} {h : HostPort} {d : TueDesc} {data : List Byte} {fault : Bool}
    (hform : tueForm s d 3 [tFDB, tSID] false true fault = 0)
    (hok : tueRefusal s h (rwsClosed s.mode) (badEntry d.table (slice data 0 (entryBytes d.table))) = 0) :
    tueInsertOp h d data fault s = tueInsertKey s h d.table (slice data 0 (entryBytes d.table)) := by
  simp only [tueInsertOp, hform, hok]

/-- R187: an accepted DELETE frees a flow by its index, and stages any other by its key. -/
theorem tueDeleteOp_accepted {s : State} {h : HostPort} {d : TueDesc} {data : List Byte} {fault : Bool}
    (hform : tueForm s d 4 [tFDB, tSID, tFLOW] (d.table == tFLOW) (d.table == tSID) fault = 0)
    (hok : tueRefusal s h
      (if d.table == tFLOW then tueModeShut s.mode || s.mode == .standby else rwsClosed s.mode) false = 0) :
    tueDeleteOp h d data fault s =
      if d.table == tFLOW then tueDeleteFlow s h d.index else tueDeleteKey s h d data := by
  simp only [tueDeleteOp, hform, hok]

/-- R189: a SEARCH returns the valid entry that has its key, with its location. -/
theorem tueSearchOp_found {s : State} {d : TueDesc} {data : List Byte} {fault : Bool} {i : Nat}
    (hform : tueForm s d 5 [tFDB, tSID] false true fault = 0) (hkept : (tueReads s d.table).2 = false) :
    let r := (tueReads s d.table).1
    locateKey r d.pending d.table (descKey d data) = some i →
      hashValid d.table (tueValue r d.pending d.table i) = true →
      hashKey d.table (tueValue r d.pending d.table i) = descKey d data →
      tueSearchOp d data fault s = (r, { status := 0, index := i, out := tueValue r d.pending d.table i }) := by
  intro r hloc hvalid hkey
  have hr : (tueReads s d.table).1 = r := rfl
  simp only [tueSearchOp, hform, hkept, hr, hloc, Bool.false_eq_true, if_false]
  exact if_pos (by simp [hvalid, hkey])

/-- R188: an accepted FLUSH frees the entries that match it, and counts them. -/
theorem tueFlushOp_accepted {s : State} {h : HostPort} {d : TueDesc}
    (hform : tueForm s d 6 [tFDB] false false false = 0) (hok : tueRefusal s h (tueModeShut s.mode) false = 0) :
    let l := (fdbLocs s).filter (fun i => flushMatches d (s.mainEnt tFDB i))
    tueFlushOp h d s = (l.foldl (flushOne (hostOrigin h)) s, { status := 0, count := l.length }) := by
  simp only [tueFlushOp, hform, hok]

/-! ### The overlay -/

/-- R193: a LIVE record and its main location change places. -/
theorem copyOut_live {s : State} {t i tag : Nat} {o : Overlay} (ho : s.ovlAt t i = some o) (hst : o.st = .live tag) :
    let v := if isMove s o then s.bump (aTueCnt 10) else s
    copyOut s t i =
      (if t = tFDB then writeFdb v i o.val else v.setEnt t i o.val).setOvl
        { o with val := v.mainEnt t i, st := .swapped tag } := by
  simp only [copyOut, ho, hst]

/-- R194, R185: a SWAPPED record that no frame needs is freed, and a stash entry may take the location. -/
theorem retireRecord_swapped {s : State} {t i tag : Nat} {o : Overlay} (ho : s.ovlAt t i = some o)
    (hst : o.st = .swapped tag) (hold : epochNewer (oldestFor s t) tag = true) :
    let u := if t < 16 then (s.dropOvl t i).bump (aTueCnt 12) else s.dropOvl t i
    retireRecord s t i = if t = tFDB ∧ fdbValid (u.mainEnt tFDB i) = false then stashReinsert u i else u := by
  simp only [retireRecord, ho, hst, hold, if_true, Bool.not_eq_true']

/-! ### Learning -/

/-- R200: a queue with room takes an event at its end. -/
theorem queueEvent_room {s : State} {e : LearnEvt} (h : s.tables.queue.length < 4096) :
    queueEvent s e = { s with tables := { s.tables with
      queue := s.tables.queue ++ [e], lqMax := max s.tables.lqMax (s.tables.queue.length + 1) } } :=
  if_neg (Nat.not_le.2 h)

@[simp] theorem setLearnFilter_queue (s : State) (pl : Nat) (l : List LearnEvt) :
    (s.setLearnFilter pl l).tables.queue = s.tables.queue := by
  unfold State.setLearnFilter
  split <;> rfl

@[simp] theorem learnFilter_setLearnFilter (s : State) (pl : Nat) (l : List LearnEvt) :
    (s.setLearnFilter pl l).learnFilter pl = l := by
  unfold State.setLearnFilter State.learnFilter
  split <;> rfl

/-- R199, R200: the oldest event that can be released is, unless PL0 has one for PL1 to wait for. -/
theorem releaseEvent_releases {s : State} {pl : Nat} {e : LearnEvt} (he : releasable s pl = some e)
    (hfirst : pl = 1 → releasable s 0 = none) :
    releaseEvent s pl = queueEvent (s.setLearnFilter pl ((s.learnFilter pl).erase e)) e := by
  simp only [releaseEvent, he]
  exact if_neg fun ⟨hpl, hsome⟩ => by simp [hfirst hpl] at hsome

/-- R199, R200: a released event leaves its filter for the end of the queue; no register changes. -/
theorem releaseEvent_shows {s : State} {pl : Nat} {e : LearnEvt} (he : releasable s pl = some e)
    (hfirst : pl = 1 → releasable s 0 = none) (hroom : s.tables.queue.length < 4096) :
    let t := releaseEvent s pl
    t.tables.queue = s.tables.queue ++ [e] ∧ t.learnFilter pl = (s.learnFilter pl).erase e ∧ RegsBut [] [] s t := by
  rw [releaseEvent_releases he hfirst, queueEvent_room (by simpa using hroom)]
  exact ⟨congrArg (· ++ [e]) (setLearnFilter_queue ..), learnFilter_setLearnFilter .., fun _ _ _ => rfl⟩

/-- The state in which the oldest event has left the queue and the next may follow 250 cycles on (R200). -/
def eventTaken (s : State) (rest : List LearnEvt) : State :=
  { s with tables := { s.tables with queue := rest, learnFree := s.cclk + 250 } }

/-- LEARN_APPLY 250 cycles or more after the last event (R200). -/
theorem exec_learnApply {s : State} (hfree : s.tables.learnFree ≤ s.cclk) :
    exec .learnApply s = .next (applyEvent s) :=
  congrArg _ (whenever_true (decide_eq_true hfree))

section Apply
variable {s : State} {e : LearnEvt} {rest : List LearnEvt} (hq : s.tables.queue = e :: rest)
include hq

/-- R196: an event whose key a record holds is counted alone. -/
theorem applyEvent_held (hheld : keyHeld s (fdbKey e.vid e.sa) = true) :
    applyEvent s = (eventTaken s rest).bump (aTueCnt 6) := by
  simp only [applyEvent, hq]
  exact if_pos hheld

/-- R201: any other event goes by the entry of its key, or is a new one. -/
theorem applyEvent_free (hheld : keyHeld s (fdbKey e.vid e.sa) = false) :
    let u := eventTaken s rest
    applyEvent s = (findMain u tFDB (fdbKey e.vid e.sa)).elim (learnNew u e) (learnAt u e) := by
  simp only [applyEvent, hq]
  refine (if_neg (ne_true_of_eq_false hheld)).trans ?_
  simp only [eventTaken]
  split
  next i hat => rw [hat, Option.elim_some]
  next hnone => rw [hnone, Option.elim_none]

end Apply

/-- FLAP_INTERVAL_END in a new second of CCLK (R202). -/
theorem exec_flapIntervalEnd {s : State} (h : s.tables.interval ≠ s.cclk / 1000000000) :
    exec .flapIntervalEnd s = .next { s with tables :=
      { s.tables with interval := s.cclk / 1000000000, moves := [], flapped := 0 } } :=
  congrArg _ (whenever_true (bne_iff_ne.2 h))

/-! ### Ageing -/

/-- AGEING_SWEEP a quarter of AGE_TIME after the last (R205). -/
theorem exec_ageingSweep {s : State} (h : sweepDue s = true) :
    exec .ageingSweep s =
      .next ((fdbLocs s).foldl ageOne { s with tables := { s.tables with sweptAt := s.cclk } }) :=
  congrArg _ (whenever_true h)

/-- The tables of two states differ in nothing but their entries and hit bits. -/
def SameButEntries (s t : State) : Prop :=
  t.tables = { s.tables with ent := t.tables.ent, hit := t.tables.hit }

theorem SameButEntries.of_eq {s t : State} (h : t.tables = s.tables) : SameButEntries s t := by
  rw [SameButEntries, h]

theorem SameButEntries.trans {s t u : State} (hst : SameButEntries s t) (htu : SameButEntries t u) :
    SameButEntries s u := by
  rw [SameButEntries, htu, hst]

theorem setHit_sameButEntries (s : State) (pl i : Nat) (b : Bool) : SameButEntries s (setHit s pl i b) := rfl

theorem stashReinsert_sameButEntries (s : State) (i : Nat) : SameButEntries s (stashReinsert s i) := by
  unfold stashReinsert
  split
  · rfl
  · split <;> rfl

theorem freeFdb_sameButEntries (s : State) (i : Nat) : SameButEntries s (freeFdb s i) :=
  .trans rfl (stashReinsert_sameButEntries ..)

theorem readHit_sameButEntries (s : State) (pl i : Nat) : SameButEntries s (readHit s pl i) := by
  have hread : (memRead s 1 pl none).1.tables = s.tables :=
    (fr_memRead (F := 1717987074056) rfl frm_refl).tables.resolve_left (by decide)
  rcases hr : memRead s 1 pl none with ⟨t, m⟩
  rw [hr] at hread
  cases m with
  | none => simpa only [readHit, hr] using .of_eq hread
  | some m =>
    have hlost : (memLost t m false).tables = t.tables :=
      (fr_memLost (F := 1717987074056) rfl frm_refl).tables.resolve_left (by decide)
    simpa only [readHit, hr] using (SameButEntries.of_eq (hlost.trans hread)).trans (setHit_sameButEntries ..)

/-- R205, R213: a location at a sweep, after the read of its hit bits, is kept, made younger, freed or made older. -/
theorem ageOne_sameButEntries (s : State) (i : Nat) : SameButEntries s (ageOne s i) := by
  have hread : SameButEntries s
      (if fdbValid (s.mainEnt tFDB i) && !fdbLock (s.mainEnt tFDB i) then readHit (readHit s 0 i) 1 i else s) := by
    split
    · exact (readHit_sameButEntries ..).trans (readHit_sameButEntries ..)
    · rfl
  unfold ageOne
  extract_lets v u
  split
  · exact hread
  · split
    · exact hread.trans rfl
    · split
      · exact hread.trans ((SameButEntries.of_eq (bump_tables ..)).trans (freeFdb_sameButEntries ..))
      · exact hread.trans rfl

theorem foldl_ageOne_sameButEntries (l : List Nat) (s : State) : SameButEntries s (l.foldl ageOne s) := by
  induction l generalizing s with
  | nil => rfl
  | cons i l ih => exact (ageOne_sameButEntries s i).trans (ih _)

/-- R205: a sweep takes its time, and leaves the overlay and the queue alone. -/
theorem sweep_shows (s : State) :
    let t := (fdbLocs s).foldl ageOne { s with tables := { s.tables with sweptAt := s.cclk } }
    t.tables.sweptAt = s.cclk ∧ t.tables.ovl = s.tables.ovl ∧ t.tables.queue = s.tables.queue := by
  intro t
  have ht : SameButEntries { s with tables := { s.tables with sweptAt := s.cclk } } t :=
    foldl_ageOne_sameButEntries ..
  rw [ht]
  exact ⟨rfl, rfl, rfl⟩

/-- Settles O31: each event of the table engine, the overlay, learning and ageing by its case. -/
theorem tablesAndLearning : Obligations.TablesAndLearning := by
  unfold Obligations.TablesAndLearning
  refine ⟨fun s h d data fault => ⟨fun hen hpost => ?_, fun hen => ?_⟩,
    ⟨fun s t i tag o ho hst => ?_, fun s t i tag o ho hst hold => ?_⟩,
    fun s pl e hpl he hfirst hroom => ?_, fun s e rest hq hheld hfree => ?_, fun s e rest hq hheld hfree => ?_,
    fun s h => exec_flapIntervalEnd h, fun s w hi v h => congrArg Host.Outcome.next (write_passes h),
    fun s hdue => ⟨exec_ageingSweep hdue, _, exec_ageingSweep hdue, sweep_shows s⟩⟩
  · have hdone {f : State → State × TueAns} {a : State × TueAns} (hf : f (ringTake s (.tue h) 1) = a) :
        (.next (tueRun s h d f) : Result) = .next (tueFinish h d a) :=
      congrArg _ ((tueRun_takes d f hen hpost).trans (congrArg _ hf))
    exact ⟨hdone rfl, hdone rfl, hdone rfl, hdone rfl, hdone rfl, hdone rfl,
      fun hform hkept => hdone (tueReadOp_accepted hform hkept),
      fun hform hok => hdone (tueWriteOp_accepted hform hok),
      fun hform hok => hdone (tueInsertOp_accepted hform hok),
      fun hform hok => hdone (tueDeleteOp_accepted hform hok),
      fun hform hkept i hloc hvalid hkey => hdone (tueSearchOp_found hform hkept hloc hvalid hkey),
      fun hform hok => hdone (tueFlushOp_accepted hform hok)⟩
  · have hstays (f : State → State × TueAns) : (.next (tueRun s h d f) : Result) = .next s :=
      congrArg _ (tueRun_disabled d f hen)
    exact ⟨hstays _, hstays _, hstays _, hstays _, hstays _, hstays _⟩
  · exact congrArg Host.Outcome.next (copyOut_live ho hst)
  · exact congrArg Host.Outcome.next (retireRecord_swapped ho hst hold)
  · exact ⟨_, ifWf_true hpl, releaseEvent_shows he hfirst hroom⟩
  · refine ⟨_, exec_learnApply hfree, ?_⟩
    rw [applyEvent_held hq hheld]
    exact ⟨rfl, pair_bump ..⟩
  · have hexec := (exec_learnApply hfree).trans (congrArg _ (applyEvent_free hq hheld))
    exact ⟨fun i hat => hexec.trans (by rw [eventTaken, hat]; rfl),
      fun hnone => hexec.trans (by rw [eventTaken, hnone]; rfl)⟩

end Sys2Proof.Proofs
end

section
/-!
The packet buffer and the fabric (R241 to R255): cells, lone halves, the input and output links, the resequencer and
underruns, one lemma per case of an event, and the claim about them.
-/
namespace Sys2Proof.Proofs
open Sys2Proof Sys2Proof.Machine Sys2Proof.Laws

/-! ### Cells -/

/-- R241: the next cell of a frame that has been admitted is ready. -/
theorem halfReadyEvent_admitted {s : State} {f : Nat} (hdue : cellDue s (s.frame f) = true)
    (hadm : (s.frame f).admitted = true) : halfReadyEvent s f = cellReady s f := by
  simp only [halfReadyEvent, hdue, hadm, Bool.not_true, Bool.false_eq_true, if_false, if_true]

/-- R242: the copies of a frame are decided before its first cell, which is ready if one of them is admitted. -/
theorem halfReadyEvent_decides {s : State} {f : Nat} (hdue : cellDue s (s.frame f) = true)
    (hadm : (s.frame f).admitted = false) :
    halfReadyEvent s f =
      if ((admitFrame s f).frame f).admitted then cellReady (admitFrame s f) f else admitFrame s f := by
  simp only [halfReadyEvent, hdue, hadm, Bool.not_true, Bool.false_eq_true, if_false]

/-! ### The input link -/

/-- R244: a half that waits goes alone once it has waited LONE_WAIT slots. -/
def markAlone (s : State) (g : Nat) (h : WaitHalf) : WaitHalf :=
  if loneExpired s g h then { h with alone := true } else h

theorem exec_loneWaitExpire {s : State} {g : Nat} (hg : groupOk g = true) :
    exec (.loneWaitExpire g) s =
      .next { s with fab := { s.fab with waiting := s.fab.waiting.map (markAlone s g) } } :=
  ifWf_true hg

theorem markAlone_mem {s : State} {g : Nat} {h : WaitHalf} (hmem : h ∈ s.fab.waiting) (hexp : loneExpired s g h = true) :
    { h with alone := true } ∈ s.fab.waiting.map (markAlone s g) :=
  List.mem_map.2 ⟨h, hmem, if_pos hexp⟩

/-- INPUT_LINK_WRITE of a group whose link has not written in this slot (R244). -/
theorem exec_inputLinkWrite {s : State} {g : Nat} (hg : groupOk g = true)
    (hslot : Tab.get (fun _ => 0) s.fab.linkSlot g ≠ s.slot + 1) :
    exec (.inputLinkWrite g) s = .next (linkWrite s g) :=
  (ifWf_true hg).trans (congrArg _ (whenever_true (bne_iff_ne.2 hslot)))

/-- R244: the halves that a group's input link carries in one slot are stored, and a lone half is counted. -/
def linkCarries (s : State) (g : Nat) (a : WaitHalf) (b : Option WaitHalf) : State :=
  let t := storeHalf s g false a
  let t := match b with
    | some h => storeHalf t g true h
    | none => t
  let t := if a.lone then t.bump (aFab (if b.isSome then 0x110 else 0x118)) else t
  checkPool { t with fab := { t.fab with
    linkSlot := Tab.set (fun _ => 0) t.fab.linkSlot g (s.slot + 1) } }

theorem linkWrite_chosen {s : State} {g : Nat} {a : WaitHalf} {b : Option WaitHalf}
    (h : linkChoice s g = some (a, b)) : linkWrite s g = linkCarries s g a b := by
  simp only [linkWrite, h]
  rfl

/-! ### Copies open -/

/-- R246: the oldest unopened copy of a queue opens when its half 0 becomes ready, or when there is room. -/
theorem copyOpens_opens {s : State} {p q : Nat} {c : Copy}
    (hfirst : (s.queue p q).find? (fun c => c.open_.isNone) = some c)
    (h : (s.frame c.frame).stamps.head? = some s.slot ∨ openHalves s p q < openRoom s p) :
    copyOpens s p q = s.setCopy p q c.frame (fun c => { c with open_ := some s.slot }) := by
  have hopen : ((s.frame c.frame).stamps.head? == some s.slot ||
      decide (openHalves s p q < openRoom s p)) = true := by
    simpa using h
  simp only [copyOpens, hfirst, hopen, if_true]

/-! ### The output link -/

/-- HALF_READ of a group that has not read in this slot (R248). -/
theorem exec_halfRead {s : State} {g : Nat} (hg : groupOk g = true)
    (hslot : Tab.get (fun _ => 0) s.fab.readSlot g ≠ s.slot + 1) :
    exec (.halfRead g) s = .next (groupRead s g) :=
  (ifWf_true hg).trans (congrArg _ (whenever_true (bne_iff_ne.2 hslot)))

/-- R248: in state `t`, a group reads the choice of a side if, beside that of the other side, it won in `s`. -/
def readIfWins (s : State) (g : Nat) (own other : Option (StoredHalf × Nat × Nat × Copy)) (t : State) : State :=
  match own with
  | some x => if pairWins s x other then readHalf t g x else t
  | none => t

section ReadIfWins
variable {s t : State} {g : Nat} {x : StoredHalf × Nat × Nat × Copy}
  {own other : Option (StoredHalf × Nat × Nat × Copy)}

theorem readIfWins_wins (hown : own = some x) (h : pairWins s x other = true) :
    readIfWins s g own other t = readHalf t g x := by
  subst hown
  exact if_pos h

theorem readIfWins_loses (h : ∀ x, own = some x → pairWins s x other = false) :
    readIfWins s g own other t = t := by
  cases own with
  | none => rfl
  | some x => exact if_neg (by simp [h x rfl])

end ReadIfWins

/-- The slot of a group's read is noted (R248: once a slot). -/
def noteRead (s : State) (g : Nat) (t : State) : State :=
  { t with fab := { t.fab with readSlot := Tab.set (fun _ => 0) t.fab.readSlot g (s.slot + 1) } }

@[simp] theorem readSlot_noteRead (s t : State) (g : Nat) :
    Tab.get (fun _ => 0) (noteRead s g t).fab.readSlot g = s.slot + 1 := by
  rw [noteRead, get_set, if_pos rfl]

/-- R248: one slot of an output group reads the winner of side 0 and then that of side 1. -/
theorem groupRead_eq (s : State) (g : Nat) :
    let a := leastBy (readKey s) (readable s g false)
    let b := leastBy (readKey s) (readable s g true)
    groupRead s g = noteRead s g (readIfWins s g b a (readIfWins s g a b s)) :=
  rfl

/-! ### Underrun -/

/-- R255: a cut-through copy that runs out is stomped, counted and signalled. -/
theorem exec_txUnderrun {s : State} {p k : Nat} {x : TxRun} (hp : portOk p = true) (h : underrun s p = some (x, k)) :
    exec (.txUnderrun p) s = .next (((stompTx s p x k).bump (aFab 0x130)).raise pFab 1) :=
  (ifWf_true hp).trans (by rw [h])

/-- Settles O32: each event of the fabric by its case. -/
theorem fabricMovesHalves : Obligations.FabricMovesHalves := by
  unfold Obligations.FabricMovesHalves
  refine ⟨fun s f hdue hadm => congrArg Host.Outcome.next (halfReadyEvent_admitted hdue hadm),
    fun s f hdue hadm => congrArg Host.Outcome.next (halfReadyEvent_decides hdue hadm),
    fun s g hg => ⟨_, exec_loneWaitExpire hg, List.length_map _, rfl, fun _ _ _ => rfl, fun _ => markAlone_mem⟩,
    fun s p q c hp hq hfirst h => ?_, fun s g hg hslot => ⟨⟨fun x ha hx hb => ?_, fun y hb hy ha => ?_,
      fun x y ha hb hx hy => ?_⟩, _, exec_halfRead hg hslot, readSlot_noteRead ..⟩,
    fun s g hg hslot a b h => ?_, fun s p q hp hq => ifWf_true (by simp [hp, hq]),
    fun s p k x hp h => exec_txUnderrun hp h⟩
  · exact (ifWf_true (by simp [hp, hq])).trans (congrArg _ (copyOpens_opens hfirst h))
  · rw [exec_halfRead hg hslot, groupRead_eq, readIfWins_loses hb, readIfWins_wins ha hx]
    rfl
  · rw [exec_halfRead hg hslot, groupRead_eq, readIfWins_loses ha, readIfWins_wins hb hy]
    rfl
  · rw [exec_halfRead hg hslot, groupRead_eq, readIfWins_wins ha hx, readIfWins_wins hb hy]
    rfl
  · exact (exec_inputLinkWrite hg hslot).trans (congrArg _ (linkWrite_chosen h))

end Sys2Proof.Proofs
end

section
/-!
EGS of a port as it reads after the shared operations, the decision, the line, preemption and the buckets (R272 to R277,
R292 to R295), one lemma per case of an event, and the claim about them.
-/
namespace Sys2Proof.Proofs
open Sys2Proof Sys2Proof.Machine Sys2Proof.Laws

/-! ### EGS of a port -/

@[simp] theorem egs_setEgs (s : State) (p k : Nat) (e : EgsPort) :
    (s.setEgs p e).egs k = if p = k then e else s.egs k :=
  get_set

@[simp] theorem setEgs_pair (s : State) (p a : Nat) (e : EgsPort) : (s.setEgs p e).pair a = s.pair a := rfl
@[simp] theorem setEgs_refillAt (s : State) (p : Nat) (e : EgsPort) :
    (s.setEgs p e).egress.refillAt = s.egress.refillAt := rfl
@[simp] theorem bump_egs (s : State) (a k : Nat) : (s.bump a).egs k = s.egs k := rfl
@[simp] theorem emit_egs (s : State) (o : Out) (k : Nat) : (s.emit o).egs k = s.egs k := rfl

/-! ### The decision -/

/-- EGRESS_DECISION of a port that makes decisions. -/
theorem exec_egressDecision {s : State} {p : Nat} (cmp : PipeCmp) (hp : portOk p = true) (hd : portDecides s p = true) :
    exec (.egressDecision p cmp) s = .next (decide_ s p cmp) :=
  (ifWf_true hp).trans (congrArg _ (whenever_true hd))

/-- R270, R271, R291: the state in which a port picks, its levels read, its stale and long heads dropped, and the heads
that do not fit before `f` counted. -/
def readyToPick (s : State) (p f : Nat) : State :=
  let t := dropAll (readLevels s p) p
  ((List.range 8).filter (fun q => (eligible t p q f).2)).foldl
    (fun t q => match headOf t p q with | some c => countNofit p t c.frame | none => t) t

/-- R292: the copies among which a port picks: the express ones, or all where none is express. -/
def pickSet (u : State) (p f : Nat) : List (Nat × Copy × Nat) :=
  let ex := (eligibles u p f).filter (fun x => !isPre u p x.1)
  if ex.isEmpty then eligibles u p f else ex

/-- R275, R276: what the pick answers among those copies, by their counted lengths. -/
def pickAmong (u : State) (p f : Nat) : State × Option Nat :=
  pick u p ((pickSet u p f).map (fun x => (x.1, countedLen u p f x.2.2)))

/-- R272: the selection of the copy that was picked, for a start at `f`; the rest is as the pick leaves it. -/
def selectPicked (u : State) (p f : Nat) (cmp : PipeCmp) : State × Option Nat → State
  | (t, none) => t
  | (t, some q) =>
    match (pickSet u p f).find? (fun x => x.1 == q) with
    | none => t
    | some x => selectCopy t p q f x.2.2 (if queueAlg u p q = 2 then countedLen u p f x.2.2 else 0) x.2.1 cmp

/-- R272: a decision is for a start 40 cycles on: it selects what the pick takes among the port's copies. -/
theorem decide_eq (s : State) (p : Nat) (cmp : PipeCmp) :
    let f := s.cclk + 40
    let u := readyToPick s p f
    decide_ s p cmp = selectPicked u p f cmp (pickAmong u p f) :=
  rfl

section Picked
variable {u : State} {p f : Nat} {cmp : PipeCmp} {r : State × Option Nat}

theorem selectPicked_none (h : r.2 = none) : selectPicked u p f cmp r = r.1 := by
  obtain ⟨t, _⟩ := r
  subst h
  rfl

theorem selectPicked_some {q : Nat} {x : Nat × Copy × Nat} (h : r.2 = some q)
    (hx : (pickSet u p f).find? (fun x => x.1 == q) = some x) :
    selectPicked u p f cmp r =
      selectCopy r.1 p q f x.2.2 (if queueAlg u p q = 2 then countedLen u p f x.2.2 else 0) x.2.1 cmp := by
  obtain ⟨t, _⟩ := r
  subst h
  simp only [selectPicked, hx]

end Picked

/-! ### The line -/

theorem exec_lineFree {s : State} {p : Nat} (hp : portOk p = true) : exec (.lineFree p) s = .next (lineFreed s p) :=
  ifWf_true hp

section Line
variable {s : State} {p : Nat} {x : TxRun}

/-- R273: the frame on a line that is free, and that is not to be cut, ends. -/
theorem lineFreed_ends (htx : (s.egs p).tx = some x) (hfree : lineFreeAt s p x ≤ s.cclk) (hcut : x.suspendAt = none) :
    lineFreed s p = endTx s p x := by
  simp only [lineFreed, htx, if_neg (Nat.not_lt.2 hfree), hcut]

/-- R294: one that is to be cut is suspended. -/
theorem lineFreed_suspends {n : Nat} (htx : (s.egs p).tx = some x) (hfree : lineFreeAt s p x ≤ s.cclk)
    (hcut : x.suspendAt = some n) : lineFreed s p = suspendTx s p x n := by
  simp only [lineFreed, htx, if_neg (Nat.not_lt.2 hfree), hcut]

/-- R294: the line is free, the frame stands suspended after byte `n`, and its fragment has gone out with its mCRC. -/
theorem suspendTx_shows (s : State) (p : Nat) (x : TxRun) (n : Nat) :
    let t := suspendTx s p x n
    (t.egs p).tx = none ∧
      (t.egs p).susp = some { x with sent := n, frags := x.frags + 1, suspendAt := none } ∧
      t.out = .line p ((x.bytes.take n).drop x.sent ++ leBytes 4 (mCrc (x.bytes.take n))) false :: s.out := by
  intro t
  have hegs : t.egs p = { s.egs p with
      tx := none, susp := some { x with sent := n, frags := x.frags + 1, suspendAt := none } } := by
    simp only [t, suspendTx, emit_egs, egs_setEgs, if_true]
  exact ⟨congrArg EgsPort.tx hegs, congrArg EgsPort.susp hegs, rfl⟩

/-! ### Resumption -/

theorem exec_preemptResume (hp : portOk p = true) : exec (.preemptResume p) s = .next (resume s p) :=
  ifWf_true hp

/-- R295: a suspended frame as it goes on in this cycle, for the line time of the bytes that are left. -/
def resumedRun (s : State) (p : Nat) (x : TxRun) : TxRun :=
  { x with start := s.cclk, endAt := s.cclk + byteTime (portMbps s p) (x.bytes.length - x.sent + 20) }

/-- R295: a suspended frame resumes on a free line that no copy is selected for, while its gate is open without HOLD. -/
theorem resume_resumes (hsusp : (s.egs p).susp = some x) (htx : (s.egs p).tx = none) (hsel : (s.egs p).sel = [])
    (hgate : bit (s.egs p).gates x.q = true) (hhold : (s.egs p).hold = false) (hup : (s.mac p).link = .up) :
    resume s p =
      (s.setEgs p { s.egs p with susp := none, tx := some (resumedRun s p x) }).bump (aMacCnt p 18) := by
  simp [resume, hsusp, htx, hsel, hgate, hhold, hup, resumedRun]

end Line

/-! ### Buckets -/

/-- R277: BUCKET_REFILL in a cycle whose count is a multiple of 256, for the first time. -/
theorem exec_bucketRefill {s : State} (hdiv : s.cclk % 256 = 0) (honce : s.egress.refillAt ≠ s.cclk + 1) :
    exec .bucketRefill s = .next (refillAll s) :=
  congrArg Host.Outcome.next (whenever_true (by simp [hdiv, honce]))

/-- R277, R280: every shaped bucket refilled once at the committed settings, and the cycle noted. -/
def bucketsRefilled (s : State) : State :=
  let t := (shapedPorts s).foldl (fun t x => refillBucket t x.1 x.2)
    ((s.egress.port.map (fun x => x.1)).foldl takeSettings s)
  { t with egress := { t.egress with refillAt := s.cclk + 1 } }

/-- R304: the refill when no level fails twice. -/
theorem refillAll_kept {s : State} (h : (memRead (bucketsRefilled s) 9 0 none).2 = none) :
    refillAll s = (memRead (bucketsRefilled s) 9 0 none).1 := by
  rcases hr : memRead (bucketsRefilled s) 9 0 none with ⟨u, m⟩
  obtain rfl : m = none := by rw [hr] at h; exact h
  simp only [bucketsRefilled] at hr
  simp only [refillAll, hr]

@[simp] theorem memRead_egress (s : State) (r i : Nat) (a : Option Nat) : (memRead s r i a).1.egress = s.egress :=
  (fr_memRead (F := 1717987074056) rfl frm_refl).egress.resolve_left (by decide)

@[simp] theorem egsLost_egress (s : State) (p : Nat) (m : InjMark) : (egsLost s p m).egress = s.egress :=
  (fr_egsLost (F := 1717987074056) rfl frm_refl).egress.resolve_left (by decide)

/-- R304: a level that is lost leaves the cycle of the last refill: it is put back into its port's EGS. -/
theorem loseLevel_refillAt (s : State) (p k : Nat) (m : InjMark) :
    (loseLevel s p k m).egress.refillAt = s.egress.refillAt := by
  have hlost : ∀ e, ((egsLost s p m).setEgs p e).egress.refillAt = s.egress.refillAt := fun e => by
    rw [setEgs_refillAt, egsLost_egress]
  simp only [loseLevel, setBucket, setCredit, setDeficit]
  split
  · exact hlost _
  · split <;> exact hlost _

/-- R277: the refill notes its cycle, with or without a level that is lost. -/
theorem refillAll_refillAt (s : State) : (refillAll s).egress.refillAt = s.cclk + 1 := by
  have hread := memRead_egress (bucketsRefilled s) 9 0 none
  rcases hr : memRead (bucketsRefilled s) 9 0 none with ⟨u, m⟩
  rw [hr] at hread
  have hu : u.egress.refillAt = s.cclk + 1 := congrArg Egress.refillAt hread
  simp only [bucketsRefilled] at hr
  simp only [refillAll, hr]
  cases m with
  | none => exact hu
  | some m =>
    dsimp only
    split
    · rw [loseLevel_refillAt]
      exact hu
    · exact hu

/-- A refill leaves the frames and the fabric alone. -/
theorem refillAll_frame (s : State) : (refillAll s).fab = s.fab ∧ (refillAll s).frames = s.frames := by
  have h : Frm 1718523944968 s (refillAll s) := fr_refillAll rfl frm_refl
  exact ⟨h.fab.resolve_left (by decide), h.frames.resolve_left (by decide)⟩

/-- Settles O33: the decision, the line, the resumption and the refill, each by its cases. -/
theorem egressPortsTransmit : Obligations.EgressPortsTransmit := by
  unfold Obligations.EgressPortsTransmit
  refine ⟨fun s p cmp hp hd => ⟨fun hnone => ?_, fun q x hq hx => ?_⟩, fun s p x hp htx hfree =>
    ⟨fun hcut => ?_, fun n hcut => ?_⟩, fun s p x hp hsusp htx hsel hgate hhold hup => ?_, fun s hdiv honce =>
    ⟨fun hkept => ?_, ?_⟩⟩
  · rw [exec_egressDecision cmp hp hd, decide_eq]
    exact congrArg _ (selectPicked_none hnone)
  · rw [exec_egressDecision cmp hp hd, decide_eq]
    exact congrArg _ (selectPicked_some hq hx)
  · rw [exec_lineFree hp, lineFreed_ends htx hfree hcut]
  · refine ⟨_, exec_lineFree hp, ?_⟩
    rw [lineFreed_suspends htx hfree hcut]
    exact suspendTx_shows s p x n
  · refine ⟨_, exec_preemptResume hp, ?_⟩
    rw [resume_resumes hsusp htx hsel hgate hhold hup]
    simp only [bump_egs, egs_setEgs, if_true, pair_bump, setEgs_pair, resumedRun, and_self]
  · exact (exec_bucketRefill hdiv honce).trans (congrArg _ (refillAll_kept hkept))
  · exact ⟨_, exec_bucketRefill hdiv honce, refillAll_refillAt s, refillAll_frame s⟩

end Sys2Proof.Proofs
end

section
/-!
Gate control lists (R284 to R288) and the shedding of queues (R299, R301), one lemma per case of an event, and the claim
about them.
-/
namespace Sys2Proof.Proofs
open Sys2Proof Sys2Proof.Machine Sys2Proof.Laws

/-! ### Entries and lists -/

/-- R287: the next entry of the list in effect begins. -/
theorem exec_gclEntryBegin_due {s : State} {p j pos : Nat} (hp : portOk p = true)
    (hdue : nextEntryDue s p = some (j, pos)) :
    exec (.gclEntryBegin p) s = .next (entryBegins s p (s.egs p).base (s.egs p).len j pos) :=
  (ifWf_true hp).trans (by rw [hdue])

theorem exec_gclEntryBegin_none {s : State} {p : Nat} (hp : portOk p = true) (hdue : nextEntryDue s p = none) :
    exec (.gclEntryBegin p) s = .next s :=
  (ifWf_true hp).trans (by rw [hdue])

theorem exec_gclListBoundary {s : State} {p : Nat} (hp : portOk p = true) :
    exec (.gclListBoundary p) s = .next (boundaryDue s p) :=
  ifWf_true hp

/-- R286, R288: at a boundary that the position has reached, the list that waits begins, or the one in effect again. -/
theorem boundaryDue_reached {s : State} {p : Nat} (hlist : (s.egs p).install.isSome = true ∨ (s.egs p).len ≠ 0)
    (hpos : (s.pos.toNat + 2 ^ 64 - boundaryAfter s p (s.egs p).entryPos.toNat) % 2 ^ 64 < 2 ^ 63) :
    boundaryDue s p =
      listBegins s p ((s.egs p).install.getD ((s.egs p).base, (s.egs p).len)).1
        ((s.egs p).install.getD ((s.egs p).base, (s.egs p).len)).2 (boundaryAfter s p (s.egs p).entryPos.toNat) := by
  simp only [boundaryDue]
  exact if_pos ⟨hpos, hlist.symm⟩

/-! ### Writing an entry -/

/-- GCL_DATA_WRITE that passes the checks. -/
theorem exec_gclDataWrite {s : State} {w : Who} {p : Nat} {v : Word} (hp : portOk p = true)
    (h : Passes s w (aEgs p 0x060) v) :
    exec (.gclDataWrite w p v) s = .next
      (logReg (gclWrite s p v) (originOf w.m) (aEgs p 0x060)
        (w32 (gclEntry s p (s.fld (aEgs p 0x05C) 0 10))) v false) :=
  (ifWf_true hp).trans (congrArg _ (write_passes h))

@[simp] theorem logReg_egress (s : State) (g a : Nat) (o n : Word) (sh : Bool) :
    (logReg s g a o n sh).egress = s.egress := by
  rw [logReg]
  split <;> simp

/-- R284: the entry at INDEX reads as written. -/
theorem gclEntry_gclWrite (s : State) (p : Nat) (v : Word) :
    gclEntry (gclWrite s p v) p (s.fld (aEgs p 0x05C) 0 10) = v.toNat := by
  have hset : Tab.get (fun _ => (0 : Word)) (gclWrite s p v).egress.gcl (1024 * p + s.fld (aEgs p 0x05C) 0 10) = v := by
    simp only [gclWrite]
    split <;> exact get_set.trans (if_pos rfl)
  rw [gclEntry, hset]

/-- R284: INDEX advances, where the port's list register says that it does. -/
theorem index_gclWrite (s : State) (p : Nat) (v : Word) :
    (gclWrite s p v).fld (aEgs p 0x05C) 0 10 =
      if s.bitAt (aEgs p 0x05C) 31 then (s.fld (aEgs p 0x05C) 0 10 + 1) % 1024 else s.fld (aEgs p 0x05C) 0 10 := by
  simp only [gclWrite]
  split
  · exact (fld_setFld_same (by decide)).trans (Nat.mod_mod ..)
  · rfl

/-- R284: no other register changes with the write of an entry. -/
theorem reg_gclWrite {s : State} {p a : Nat} {v : Word} (h : a ≠ aEgs p 0x05C) : (gclWrite s p v).reg a = s.reg a := by
  simp only [gclWrite]
  split
  · rw [reg_setFld, if_neg (Ne.symm h)]
    rfl
  · rfl

/-- No register of an EGS page lies on page SILT. -/
theorem aEgs_page_ne_silt {p o : Nat} (h : o < 0x1000) : aEgs p o / 0x1000 ≠ pSilt := by
  rw [aEgs, regAddr_page h, pEgs, pSilt]
  omega

/-! ### Shedding -/

theorem exec_shedReexamine {s : State} {p : Nat} (hp : portOk p = true) :
    exec (.shedReexamine p) s = .next (reexamine s p) :=
  ifWf_true hp

/-- Settles O34: entries, boundaries, the writing of an entry and the re-examination of a port, each by its cases. -/
theorem gateControlLists : Obligations.GateControlLists := by
  unfold Obligations.GateControlLists
  refine ⟨fun s p j pos hp hdue => exec_gclEntryBegin_due hp hdue, fun s p hp hdue => exec_gclEntryBegin_none hp hdue,
    fun s p hp hlist hpos => ?_, fun s w p v hp h => ⟨_, exec_gclDataWrite hp h, ?_, ?_, fun a ha hpg => ?_⟩,
    fun s p hp => exec_shedReexamine hp⟩
  · rw [exec_gclListBoundary hp, boundaryDue_reached hlist hpos]
  · rw [gclEntry, logReg_egress]
    exact gclEntry_gclWrite s p v
  · rw [State.fld, reg_logReg (aEgs_page_ne_silt (by decide))]
    exact index_gclWrite s p v
  · rw [reg_logReg (List.ne_of_not_mem_cons hpg), reg_gclWrite (List.ne_of_not_mem_cons ha)]

end Sys2Proof.Proofs
end

section
/-!
The CAN channels (R310 to R313, R320, R322, R326 to R328, R477): modes, bus-off, reception, errors and the reads that pop,
one lemma per case of an event, and the claim about them.
-/
namespace Sys2Proof.Proofs
open Sys2Proof Sys2Proof.Machine Sys2Proof.Laws

/-! ### Channels -/

@[simp] theorem can_setCan (s : State) (n k : Nat) (c : CanChan) :
    (s.setCan n c).can k = if n = k then c else s.can k :=
  get_set

@[simp] theorem setCan_out (s : State) (n : Nat) (c : CanChan) : (s.setCan n c).out = s.out := rfl

theorem can_congr {s t : State} (h : t.buses = s.buses) (n : Nat) : t.can n = s.can n := by
  simp only [State.can, h]

/-! ### Modes -/

theorem exec_canBusIntegrationDone {s : State} {n : Nat} {m : CanMode} (hn : canOk n = true)
    (hm : (s.can n).integrating = some m) : exec (.canBusIntegrationDone n) s = .next (takeMode s n m) := by
  show execCanBusIntegrationDone n s = _
  rw [execCanBusIntegrationDone, ifWf_true hn, hm]

/-- R310, R312: the mode that takes effect, and whether the channel is held in RESTRICTED. -/
theorem takeMode_shows (s : State) (n : Nat) (m : CanMode) :
    let c := (takeMode s n m).can n
    c.mode = m ∧ c.next = none ∧ c.integrating = none ∧ c.pend = (s.can n).pend ∧ c.tec = (s.can n).tec ∧
      (c.sby = true ↔ m = .normal ∧ (s.mode = .standby ∨ s.twin.role = .standby)) := by
  simp [takeMode]

theorem can_takeMode_ne {s : State} {n k : Nat} {m : CanMode} (h : k ≠ n) : (takeMode s n m).can k = s.can k := by
  simp only [takeMode, can_setCan, if_neg (Ne.symm h)]

theorem exec_canModeAtIdle {s : State} {n : Nat} (hn : canOk n = true) :
    exec (.canModeAtIdle n) s = .next (modeAtIdle s n) :=
  ifWf_true hn

/-- R310: at bus idle a committed mode takes effect; before CONFIG the locked buffer is given back. -/
theorem modeAtIdle_committed {s : State} {n : Nat} {m : CanMode} (h : (s.can n).next = some m) :
    modeAtIdle s n = takeMode (if m = .config then unlockToList s n else s) n m := by
  simp only [modeAtIdle, h]
  cases m <;> rfl

/-- R312, R477: a held channel is released at bus idle. -/
theorem modeAtIdle_released {s : State} {n : Nat} (hnext : (s.can n).next = none) (hsby : (s.can n).sby = true)
    (hmode : s.mode ≠ .standby) (hrole : s.twin.role ≠ .standby) (htask : s.twin.taskAt = none) :
    modeAtIdle s n = s.setCan n { s.can n with sby := false } := by
  simp only [modeAtIdle, hnext]
  exact if_pos ⟨hsby, hmode, hrole, htask⟩

/-! ### Bus-off -/

/-- CAN_BO_RECOVER that passes the checks. -/
theorem exec_canBoRecover {s : State} {w : Who} {n : Nat} (hn : canOk n = true) (h : Passes s w (aCan n 0x060) 1) :
    exec (.canBoRecover w n) s = .next
      (if (s.can n).errst = 2 then s.setCan n { s.can n with recovering := true } else s) :=
  (ifWf_true hn).trans (congrArg _ (write_passes h))

theorem exec_busoffRecovered {s : State} {n : Nat} (hn : canOk n = true) (he : (s.can n).errst = 2)
    (hr : (s.can n).recovering = true) :
    exec (.busoffRecovered n) s = .next
      (s.setCan n { s.can n with errst := 0, tec := 0, rec_ := 0, recovering := false }) :=
  (ifWf_true hn).trans (congrArg _ (whenever_true (by simp [he, hr])))

theorem exec_busoffRecovered_not_off {s : State} {n : Nat} (hn : canOk n = true) (he : (s.can n).errst ≠ 2) :
    exec (.busoffRecovered n) s = .next s :=
  (ifWf_true hn).trans (congrArg _ (whenever_false (by simp [he])))

/-! ### Reception -/

theorem exec_canFrameReceived {s : State} {n : Nat} (m : CanMsg) (sof : Nat) (hn : canOk n = true) :
    exec (.canFrameReceived n m sof) s = .next (canReceive s n m sof) :=
  ifWf_true hn

/-- R310: a channel that takes no part in the bus receives nothing. -/
theorem canReceive_asleep {s : State} {n : Nat} (m : CanMsg) (sof : Nat) (h : canAwake (s.can n).mode = false) :
    canReceive s n m sof = s := by
  simp [canReceive, h]

/-- R327: a frame that no filter matches goes where ACCEPT_DEST says. -/
theorem canReceive_unmatched {s : State} {n : Nat} {m : CanMsg} (sof : Nat) (h : canAwake (s.can n).mode = true)
    (hf : filterHit (fastPhase (countRx s n) n false m) n m = none) :
    canReceive s n m sof =
      takeRx (fastPhase (countRx s n) n false m) n m none ((fastPhase (countRx s n) n false m).fld (aCan n 0x040) 5 2)
        none sof := by
  simp [canReceive, h, hf]

/-- R326, R327: a frame goes where the lowest filter that matches it says. -/
theorem canReceive_matched {s : State} {n f : Nat} {m : CanMsg} (sof : Nat) (h : canAwake (s.can n).mode = true)
    (hf : filterHit (fastPhase (countRx s n) n false m) n m = some f) :
    let t := fastPhase (countRx s n) n false m
    let c := (t.reg (aCan n (0x208 + 0x10 * f))).toNat
    canReceive s n m sof = takeRx t n m (some f) (bits c 1 2)
      (if bit c 3 && (t.auth (bits c 4 10)).rx then some (bits c 4 10) else none) sof := by
  simp [canReceive, h, hf]

/-! ### Errors -/

theorem exec_canError {s : State} {n : Nat} (k : CanErrKind) (hn : canOk n = true) :
    exec (.canError n k) s = .next (busError s n k) :=
  ifWf_true hn

/-- R313: in RESTRICTED and LISTEN_ONLY an error is counted by its kind alone. -/
theorem busError_listening {s : State} {n : Nat} (k : CanErrKind)
    (h : (s.can n).mode = .restricted ∨ (s.can n).mode = .listenOnly) :
    busError s n k = (errorCnt k).elim s (fun i => s.bump (aCanCnt n i)) := by
  have hawake : canAwake (s.can n).mode = true := by rcases h with h | h <;> rw [h] <;> rfl
  have hstill : countsErrors (s.can n) = false := by rcases h with h | h <;> simp [countsErrors, canEff, h]
  simp only [busError, hawake, hstill, Bool.not_true, Bool.not_false, Bool.false_eq_true, if_false, if_true]
  cases k <;> rfl

/-- R313: in NORMAL an error as transmitter moves the error counters too. -/
theorem busError_tx {s : State} {n : Nat} (hmode : (s.can n).mode = .normal) (hsby : (s.can n).sby = false)
    (herr : (s.can n).errst ≠ 2) :
    busError s n .tx =
      settleErrors ((s.bump (aCanCnt n 3)).setCan n
        { s.can n with tec := (s.can n).tec + (errorSteps .tx).1,
                       rec_ := min 255 ((s.can n).rec_ + (errorSteps .tx).2) }) n := by
  have hawake : canAwake (s.can n).mode = true := by rw [hmode]; rfl
  have hcounts : countsErrors (s.can n) = true := by simp [countsErrors, canEff, hmode, hsby, herr]
  simp only [busError, hawake, hcounts, Bool.not_true, Bool.false_eq_true, if_false]
  rfl

/-- CAN_CANCEL_ABORT of a withdrawn frame. -/
theorem exec_canCancelAbort {s : State} {n : Nat} (hn : canOk n = true) (h : (s.can n).withdrawn = true) :
    exec (.canCancelAbort n) s = .next
      (busError ((s.setCan n { s.can n with withdrawn := false }).bump (aCanCnt n 12)) n .rx) :=
  (ifWf_true hn).trans (congrArg _ (whenever_true h))

/-! ### Reads that pop -/

theorem rxq_putRxq (c : CanChan) (q : Nat) (l : List CanRx) : rxq (putRxq c q l) q = l := by
  by_cases hq : q = 0 <;> simp [rxq, putRxq, hq]

@[simp] theorem putWords_buses (a k : Nat) (bs : List Byte) (s : State) : (putWords a k bs s).buses = s.buses :=
  (fr_putWords (F := 8) rfl (frm_refl (b := s))).buses.resolve_left (by decide)

@[simp] theorem putWords_out (a k : Nat) (bs : List Byte) (s : State) : (putWords a k bs s).out = s.out :=
  (fr_putWords (F := 8) rfl (frm_refl (b := s))).out.resolve_left (by decide)

/-- R328: a pop of an empty queue answers 0. -/
theorem rxqPop_empty {s : State} {w : Who} {n q : Nat} (h : rxq ((readRxq s n q).can n) q = []) :
    rxqPop s w n q = (readRxq s n q).emit (.read w.m (aCan n (0x07C + 4 * q)) 0) := by
  simp only [rxqPop, h]

/-- R328: the registers of a channel show a queue entry: its fields, the header of its message and its payload. -/
def rxShown (s : State) (n : Nat) (e : CanRx) : State :=
  putWords (aCan n 0x800) 512 e.msg.data (putWords (aCan n 0x094) 4 (headerBytes e.msg)
    (putWords (aCan n 0x084) 4 (rxEntryBytes (Config.freeNat s.free) e) s.tick1))

@[simp] theorem rxShown_buses (s : State) (n : Nat) (e : CanRx) : (rxShown s n e).buses = s.buses := by
  simp only [rxShown, putWords_buses, tick1_buses]

@[simp] theorem rxShown_out (s : State) (n : Nat) (e : CanRx) : (rxShown s n e).out = s.out := by
  simp only [rxShown, putWords_out, tick1_out]

/-- R328: a pop of a queue with frames shows the oldest entry in the registers of the channel. -/
theorem rxqPop_oldest {s : State} {w : Who} {n q : Nat} {e : CanRx} {rest : List CanRx}
    (h : rxq ((readRxq s n q).can n) q = e :: rest) :
    rxqPop s w n q = (rxShown ((readRxq s n q).setCan n (putRxq ((readRxq s n q).can n) q rest)) n e).emit
      (.read w.m (aCan n (0x07C + 4 * q)) (w32 (2 ^ 31))) := by
  rw [rxqPop, h]
  rfl

/-- R328: such a pop removes that entry from the queue, and reads as valid. -/
theorem rxqPop_oldest_shows {s : State} {w : Who} {n q : Nat} {e : CanRx} {rest : List CanRx}
    (h : rxq ((readRxq s n q).can n) q = e :: rest) :
    rxq ((rxqPop s w n q).can n) q = rest ∧
      (rxqPop s w n q).out = .read w.m (aCan n (0x07C + 4 * q)) (w32 (2 ^ 31)) :: (readRxq s n q).out := by
  rw [rxqPop_oldest h]
  refine ⟨?_, ?_⟩
  · rw [can_congr (emit_buses ..), can_congr (rxShown_buses ..), can_setCan, if_pos rfl, rxq_putRxq]
  · rw [emit_out, rxShown_out, setCan_out]

/-- R320: a read of `CAN_TXEV` without an event answers 0. -/
theorem txevRead_empty {s : State} {w : Who} {n : Nat} (h : (s.can n).txev = []) :
    txevRead s w n = s.emit (.read w.m (aCan n 0x070) 0) := by
  simp only [txevRead, h]

/-- R320: a read of `CAN_TXEV` takes the oldest event. -/
theorem txevRead_oldest {s : State} {w : Who} {n : Nat} {e : CanEvt} {rest : List CanEvt}
    (h : (s.can n).txev = e :: rest) :
    txevRead s w n = (s.setCan n { s.can n with txev := rest }).emit
      (.read w.m (aCan n 0x070) (w32 (e.tag + e.status * 2 ^ 16 + b2n e.late * 2 ^ 24 + 2 ^ 31))) := by
  simp only [txevRead, h]

/-- Settles O35: modes and bus-off, reception and errors, and the reads that pop, each by its cases. -/
theorem canChannels : Obligations.CanChannels := by
  unfold Obligations.CanChannels
  refine ⟨⟨fun s n m hn hm => ?_, fun s n m hn hm => ?_, fun s n hn hnext hsby hmode hrole htask => ?_,
      fun s w n hn h => exec_canBoRecover hn h, fun s n hn he hr => exec_busoffRecovered hn he hr,
      fun s n hn he => exec_busoffRecovered_not_off hn he⟩,
    fun s n m sof hn h => ?_, fun s n m sof hn h => ⟨fun hf => ?_, fun f hf => ?_⟩,
    fun s n hn h => ?_, fun s n hn hmode hsby herr => ?_, fun s n hn h => exec_canCancelAbort hn h,
    fun s w n q hn hq hr hp => ?_, fun s w n hn hr hp => ?_⟩
  · obtain ⟨hmode, hnext, hint, hpend, htec, hsby⟩ := takeMode_shows s n m
    exact ⟨_, exec_canBusIntegrationDone hn hm, hmode, hnext, hint, hpend, htec, hsby, fun k hk => can_takeMode_ne hk⟩
  · refine ⟨_, exec_canModeAtIdle hn, ?_⟩
    rw [modeAtIdle_committed hm]
    obtain ⟨hmode, hnext, -⟩ := takeMode_shows (if m = .config then unlockToList s n else s) n m
    exact ⟨hmode, hnext⟩
  · rw [exec_canModeAtIdle hn, modeAtIdle_released hnext hsby hmode hrole htask]
  · rw [exec_canFrameReceived m sof hn, canReceive_asleep m sof h]
  · rw [exec_canFrameReceived m sof hn, canReceive_unmatched sof h hf]
  · rw [exec_canFrameReceived m sof hn, canReceive_matched sof h hf]
  · have hexec (k : CanErrKind) := (exec_canError k hn).trans (congrArg _ (busError_listening k h))
    exact ⟨hexec .tx, hexec .rx, hexec .rxPrimary, fun k => hexec (.dominantRun k)⟩
  · rw [exec_canError .tx hn, busError_tx hmode hsby herr]
  · obtain ⟨f, hread⟩ := readOnce_performs (t := rxqPop s w n q) hr hp
    have hwf : (canOk n && twoOk q) = true := by rw [hn, hq]; rfl
    have hexec := (ifWf_true hwf).trans (congrArg Host.Outcome.next hread)
    refine ⟨fun hempty => ⟨_, hexec, ?_⟩, fun e rest hcons => ⟨_, hexec, rxqPop_oldest_shows hcons⟩⟩
    rw [rxqPop_empty hempty]
    exact ⟨rfl, rfl, rfl⟩
  · obtain ⟨f, hread⟩ := readOnce_performs (t := txevRead s w n) hr hp
    have hexec := (ifWf_true hn).trans (congrArg Host.Outcome.next hread)
    refine ⟨fun hempty => ⟨_, hexec, ?_⟩, fun e rest hcons => ⟨_, hexec, ?_⟩⟩
    · rw [txevRead_empty hempty]
      exact ⟨rfl, rfl, rfl⟩
    · rw [txevRead_oldest hcons]
      exact ⟨(can_setCan s n n _).trans (if_pos rfl), rfl, rfl⟩

end Sys2Proof.Proofs
end

section
/-!
Transmission on the CAN channels (R316 to R318, R320, R321, R325) and the entries of bus authentication (R53, R330, R332),
one lemma per case of an event, and the claim about them.
-/
namespace Sys2Proof.Proofs
open Sys2Proof Sys2Proof.Machine Sys2Proof.Laws

/-! ### Buffers -/

@[simp] theorem getBuf_putBuf_same (c : CanChan) (b : Nat) (x : Option CanBuf) : getBuf (putBuf c b x) b = x := by
  by_cases h0 : b = 0
  · simp [getBuf, putBuf, h0]
  · by_cases h1 : b = 1 <;> simp [getBuf, putBuf, h0, h1]

theorem getBuf_putBuf_ne {c : CanChan} {b k : Nat} {x : Option CanBuf} (hb : b < 3) (hk : k < 3) (h : k ≠ b) :
    getBuf (putBuf c b x) k = getBuf c k := by
  obtain rfl | rfl | rfl : b = 0 ∨ b = 1 ∨ b = 2 := by omega
  · simp [getBuf, putBuf, h]
  · simp [getBuf, putBuf, h]
  · obtain rfl | rfl : k = 0 ∨ k = 1 := by omega
    all_goals rfl

theorem reg_congr {s t : State} (h : t.regs = s.regs) (a : Nat) : t.reg a = s.reg a := by
  simp only [State.reg, h]

@[simp] theorem report_pair (s : State) (c r a : Nat) (d : List Byte) (i : Bool) :
    (s.report c r d i).pair a = s.pair a := by
  simp only [State.pair, reg_congr (report_regs ..)]

@[simp] theorem report_bitAt (s : State) (c r a k : Nat) (d : List Byte) (i : Bool) :
    (s.report c r d i).bitAt a k = s.bitAt a k := by
  simp only [State.bitAt, reg_congr (report_regs ..)]

@[simp] theorem bump_can (s : State) (a n : Nat) : (s.bump a).can n = s.can n := rfl

@[simp] theorem setCan_pair (s : State) (n a : Nat) (c : CanChan) : (s.setCan n c).pair a = s.pair a := rfl

/-! ### Submissions -/

/-- CAN_TXS_GO that passes the checks. -/
theorem exec_canTxsGo {s : State} {w : Who} {n : Nat} (hn : canOk n = true) (h : Passes s w (aCan n 0x068) 1) :
    exec (.canTxsGo w n) s = .next (txsGo s n) :=
  (ifWf_true hn).trans (congrArg _ (write_passes h))

/-- R316: a unit in STANDBY answers STANDBY. -/
theorem txsGo_standby {s : State} {n : Nat} (h : s.mode = .standby) : txsGo s n = s.setReg (aCan n 0x06C) 4 :=
  if_pos h

/-- R320, R330: GO submits the staged message, and every CMAC that can begin does. -/
theorem txsGo_submits {s : State} {n : Nat} (h : s.mode ≠ .standby) :
    txsGo s n = beginMacs ((s.setCan n { s.can n with
      inbox := (s.can n).inbox ++ [{ msg := stagedMsg (s.can n), at_ := s.cclk }] }).setReg (aCan n 0x06C)
        (w32 (2 ^ 31))) n :=
  if_neg h

theorem exec_canPendingWrite {s : State} {n : Nat} (hn : canOk n = true) :
    exec (.canPendingWrite n) s = .next (canPending s n) :=
  ifWf_true hn

/-- R316: the oldest submission that is due makes its pending write. -/
theorem canPending_due {s : State} {n : Nat} {x : CanSub}
    (h : (s.can n).inbox.find? (fun x => decide (x.at_ ≤ s.cclk) && !macDue s x) = some x) :
    let r := pendingWrite s n x
    canPending s n = pendingDone (r.1.setCan n { r.1.can n with inbox := (r.1.can n).inbox.erase x }) n x r.2 := by
  simp only [canPending, h]

theorem canPending_none {s : State} {n : Nat}
    (h : (s.can n).inbox.find? (fun x => decide (x.at_ ≤ s.cclk) && !macDue s x) = none) : canPending s n = s := by
  simp only [canPending, h]

/-! ### Selection -/

/-- R317: a buffer of a channel is ready. -/
def bufReady (s : State) (n b : Nat) (x : CanBuf) : State :=
  s.setCan n (putBuf (s.can n) b (some { x with ready := true }))

/-- CAN_BUFFER_READY of a buffer whose cycle has come; with the bus idle it is a selection point too. -/
theorem exec_canBufferReady {s : State} {n b : Nat} {x : CanBuf} (idle : Option Nat) (hn : canOk n = true) (hb : b < 3)
    (hx : getBuf (s.can n) b = some x) (hat : x.readyAt ≤ s.cclk) (hr : x.ready = false) :
    exec (.canBufferReady n b idle) s =
      .next (idle.elim (bufReady s n b x) (fun d => selectBuf (bufReady s n b x) n (s.cclk + d))) := by
  have hnew : ¬ (s.cclk < x.readyAt ∨ x.ready = true) := by simp [hr, hat]
  show execCanBufferReady n b idle s = _
  rw [execCanBufferReady, ifWf_true (by simp [hn, hb]), hx]
  dsimp only
  rw [if_neg hnew]
  cases idle <;> rfl

theorem exec_canSelection {s : State} {n : Nat} (hn : canOk n = true) :
    exec (.canSelection n) s = .next (selectBuf s n (s.cclk + afterSample s n)) :=
  ifWf_true hn

/-- R324: for a SOF at cycle `f`, the ready buffers that their windows hold back are counted. -/
def heldCounted (s : State) (n f : Nat) : State :=
  (readyBufs s.cclk (s.can n)).foldl (countHeld n f) s

/-- R318, R324: for a SOF at cycle `f`, the most urgent ready buffer that its window allows. -/
def mostUrgent (s : State) (n f : Nat) : Option (Nat × CanBuf) :=
  leastBy (fun x => pendKey (txOrd s n) x.2.p)
    ((readyBufs s.cclk (s.can n)).filter (fun x => (windowAllows s n x.2.p f).1))

/-- R318: that buffer is locked, when its words read without loss. -/
theorem selectBuf_locks {s : State} {n f b : Nat} {x : CanBuf} (hmode : canEff (s.can n) = .normal)
    (herr : (s.can n).errst ≠ 2) (hfree : lockedBuf (s.can n) = none)
    (hread : (memRead (heldCounted s n f) 4 0 none).2 = none) (hpick : mostUrgent s n f = some (b, x)) :
    let u := (memRead (heldCounted s n f) 4 0 none).1
    selectBuf s n f = u.setCan n (putBuf (u.can n) b (some { x with
      locked := true, sof := some f, closePos := (windowAllows s n x.p f).2 })) := by
  have hopen : ¬ (canEff (s.can n) ≠ .normal ∨ (s.can n).errst = 2 ∨ (lockedBuf (s.can n)).isSome = true) := by
    simp [hmode, herr, hfree]
  rw [heldCounted] at hread ⊢
  rw [mostUrgent] at hpick
  simp only [selectBuf, if_neg hopen, hpick]
  split
  next u m hm => exact absurd (hread.symm.trans (congrArg Prod.snd hm)) nofun
  next u hm => rw [hm]

/-! ### The end of a frame sent -/

/-- CAN_ARB_LOST of a locked buffer. -/
theorem exec_canArbLost {s : State} {n b : Nat} {x : CanBuf} {err : Bool} (hn : canOk n = true)
    (hl : lockedBuf (s.can n) = some (b, x)) :
    let t := s.setCan n (putBuf (s.can n) b (some { x with locked := false, sof := none, closePos := none }))
    exec (.canArbLost n err) s = .next (if err then t else t.bump (aCanCnt n 2)) := by
  show execCanArbLost n err s = _
  rw [execCanArbLost, ifWf_true hn, hl]

/-- CAN_TX_OK of the frame on the bus. -/
theorem exec_canTxOk {s : State} {n b : Nat} {x : CanBuf} (hn : canOk n = true)
    (hl : lockedBuf (s.can n) = some (b, x)) (hbus : onBus s n = true) :
    exec (.canTxOk n) s = .next (txOk s n b x) := by
  show execCanTxOk n s = _
  rw [execCanTxOk, ifWf_true hn, hl]
  exact congrArg _ (if_pos hbus)

/-- R325: the window of the frame on the bus has closed: it is counted, signalled and reported, once. -/
def windowCloses (s : State) (n b : Nat) (x : CanBuf) : State :=
  (((s.setCan n (putBuf (s.can n) b (some { x with closePos := none }))).bump (aCanCnt n 14)).raise (pCan n) 6).report
    0x13 (unitId 3 n) [] false

theorem exec_canWindowOverrun {s : State} {n b p : Nat} {x : CanBuf} (hn : canOk n = true)
    (hl : lockedBuf (s.can n) = some (b, x)) (hp : x.closePos = some p) (hbus : onBus s n = true)
    (hreach : reachedAt p s.pos.toNat = true) : exec (.canWindowOverrun n) s = .next (windowCloses s n b x) := by
  show execCanWindowOverrun n s = _
  rw [execCanWindowOverrun, ifWf_true hn, hl]
  simp only [hp, hbus, hreach]
  rfl

theorem windowCloses_shows (s : State) (n b : Nat) (x : CanBuf) :
    let t := windowCloses s n b x
    getBuf (t.can n) b = some { x with closePos := none } ∧
      t.pair (aCanCnt n 14) = (s.pair (aCanCnt n 14) + 1) % 2 ^ 64 ∧ t.bitAt (regAddr (pCan n) 0x10) 6 = true := by
  have hraw : aCanCnt n 14 ≠ regAddr (pCan n) 0x10 ∧ aCanCnt n 14 + 4 ≠ regAddr (pCan n) 0x10 := by
    simp only [aCanCnt, aCan, regAddr]
    omega
  obtain ⟨hlo, hhi⟩ := hraw
  refine ⟨?_, ?_, ?_⟩
  · rw [windowCloses, can_congr (report_buses ..), can_congr (raise_buses ..), bump_can, can_setCan, if_pos rfl,
      getBuf_putBuf_same]
  · rw [windowCloses, report_pair, pair_raise hlo hhi, pair_bump, setCan_pair]
  · rw [windowCloses, report_bitAt]
    exact bitAt_raise (by decide)

/-! ### Cancelling -/

/-- CAN_CANCEL_TAG that passes the checks. -/
theorem exec_canCancelTag {s : State} {w : Who} {n tag : Nat} (hn : canOk n = true) (ht : tag < 2 ^ 16)
    (h : Passes s w (aCan n 0x064) (w32 tag)) :
    exec (.canCancelTag w n tag) s = .next (askCancel s n { all := false, tag := tag }) :=
  (ifWf_true (by rw [hn, decide_eq_true ht]; rfl)).trans (congrArg _ (write_passes h))

/-- CAN_CANCEL_ALL that passes the checks. -/
theorem exec_canCancelAll {s : State} {w : Who} {n : Nat} (hn : canOk n = true)
    (h : Passes s w (aCan n 0x064) (w32 (2 ^ 16))) :
    exec (.canCancelAll w n) s = .next (askCancel s n { all := true, tag := 0 }) :=
  (ifWf_true hn).trans (congrArg _ (write_passes h))

theorem exec_canCancelSample {s : State} {n : Nat} (hn : canOk n = true) :
    exec (.canCancelSample n) s = .next (cancelSample s n) :=
  ifWf_true hn

/-! ### Authentication entries -/

@[simp] theorem auth_setAuth (s : State) (i j : Nat) (e : AuthEntry) :
    (s.setAuth i e).auth j = if i = j then e else s.auth j :=
  get_set

theorem auth_congr {s t : State} (h : t.buses = s.buses) (i : Nat) : t.auth i = s.auth i := by
  simp only [State.auth, h]

theorem shadowOf_congr {s t : State} (h : t.shadows = s.shadows) (a : Nat) : t.shadowOf a = s.shadowOf a := by
  simp only [State.shadowOf, h]

/-- R53: the shadow that a write puts is the one pending for its register, and the others stay. -/
theorem shadowOf_putShadow (s : State) (x : Shadow) (a : Nat) :
    (s.putShadow x).shadowOf a = if x.off = a then some x else s.shadowOf a := by
  simp only [State.shadowOf, State.putShadow, List.find?_append, List.find?_filter]
  split
  next h =>
    subst h
    have hgone : s.shadows.find? (fun y => decide ((y.off != x.off) = true ∧ (y.off == x.off) = true)) = none :=
      List.find?_eq_none.2 (by simp)
    rw [hgone, Option.none_or, List.find?_cons_of_pos (by simp)]
  next h =>
    have hsame : (fun y : Shadow => decide ((y.off != x.off) = true ∧ (y.off == a) = true)) = fun y => y.off == a := by
      funext y
      by_cases hy : y.off = a
      · simp [hy, Ne.symm h]
      · simp [hy]
    rw [hsame, List.find?_cons_of_neg (by simp [h]), List.find?_nil, Option.or_none]

/-- CAN_AUTH_SET that passes the checks. -/
theorem exec_canAuthSet {s : State} {w : Who} {v : Word} (h : Passes s w (aCan 0 0x0D4) v) :
    exec (.canAuthSet w v) s = .next (authSet s w v) :=
  congrArg _ (write_passes h)

theorem authSet_shows (s : State) (w : Who) (v : Word) :
    let i := s.fld (aCan 0 0x0D0) 0 10
    let t := authSet s w v
    t.shadowOf (authShadow i) = some { off := authShadow i, val := v &&& 0xC3FF, writer := w.m } ∧
      (∀ j, j ≠ authShadow i → t.shadowOf j = s.shadowOf j) ∧ ∀ j, t.auth j = s.auth j := by
  have hshadows : (authSet s w v).shadows =
      (s.putShadow { off := authShadow (s.fld (aCan 0 0x0D0) 0 10), val := v &&& 0xC3FF, writer := w.m }).shadows :=
    silt__shadows ..
  have hbuses : (authSet s w v).buses = s.buses := silt__buses ..
  refine ⟨?_, fun j hj => ?_, fun j => auth_congr hbuses j⟩
  · rw [shadowOf_congr hshadows, shadowOf_putShadow, if_pos rfl]
  · rw [shadowOf_congr hshadows, shadowOf_putShadow, if_neg (Ne.symm hj)]

/-- AUTH_RSV_RAISE of an entry that is due. -/
theorem exec_authRsvRaise {s : State} {i : Nat} (hi : i < 1024) (hd : rsvDue (s.auth i) = true) :
    exec (.authRsvRaise i) s = .next (raiseAuthRsv s i) :=
  (ifWf_true (decide_eq_true hi)).trans (congrArg _ (whenever_true hd))

theorem exec_authRsvRaise_not_due {s : State} {i : Nat} (hi : i < 1024) (hd : rsvDue (s.auth i) = false) :
    exec (.authRsvRaise i) s = .next s :=
  (ifWf_true (decide_eq_true hi)).trans (congrArg _ (whenever_false hd))

/-- R332: the reservation that follows the present one of an entry. -/
def nextRsv (e : AuthEntry) : Nat := min 0xFFFFFFFF (e.rsv + 2 ^ 16)

/-- R332: an entry takes its next reservation, and the other entries stay. -/
theorem auth_raiseAuthRsv (s : State) (i j : Nat) :
    (raiseAuthRsv s i).auth j = if i = j then { s.auth i with rsv := nextRsv (s.auth i) } else s.auth j := by
  have hbuses : (raiseAuthRsv s i).buses = (s.setAuth i { s.auth i with rsv := nextRsv (s.auth i) }).buses := by
    simp only [raiseAuthRsv, nextRsv]
  rw [auth_congr hbuses, auth_setAuth]

/-- R332: NVM holds the reservation that the entry takes. -/
theorem nvm_raiseAuthRsv (s : State) (i : Nat) :
    Tab.get (fun _ => 0) (raiseAuthRsv s i).nvm.fvRsv i = nextRsv (s.auth i) := by
  simp only [raiseAuthRsv, get_set, if_true, nextRsv]

/-- Settles O36: submission and selection, the end of a frame, cancelling and the entries of authentication, each by its
cases. -/
theorem canSendsMessages : Obligations.CanSendsMessages := by
  unfold Obligations.CanSendsMessages
  refine ⟨⟨fun s w n hn h => ⟨fun hstby => ?_, fun hstby => ?_⟩, fun s n hn => ⟨fun x hx => ?_, fun hnone => ?_⟩,
      fun s n b x hn hb hx hat hr => ⟨_, exec_canBufferReady none hn hb hx hat hr, ?_⟩,
      fun s n b d x hn hb hx hat hr => exec_canBufferReady (some d) hn hb hx hat hr,
      fun s n hn => ⟨exec_canSelection hn, fun hmode herr hfree hread b x hpick =>
        (exec_canSelection hn).trans (congrArg _ (selectBuf_locks hmode herr hfree hread hpick))⟩,
      fun s n b x err hn hl => ⟨_, exec_canArbLost hn hl, ?_⟩,
      fun s n b x hn hl hbus => exec_canTxOk hn hl hbus, fun s w n tag hn ht h => exec_canCancelTag hn ht h,
      fun s w n hn h => exec_canCancelAll hn h, fun s n hn => exec_canCancelSample hn,
      fun s n b p x hn hl hp hbus hreach =>
        ⟨_, exec_canWindowOverrun hn hl hp hbus hreach, windowCloses_shows s n b x⟩⟩,
    fun s w v h => ⟨_, exec_canAuthSet h, authSet_shows s w v⟩,
    fun s i hi hd => ⟨_, exec_authRsvRaise hi hd, ?_, nvm_raiseAuthRsv s i, ?_, fun j hj => ?_⟩,
    fun s i hi hd => exec_authRsvRaise_not_due hi hd⟩
  · rw [exec_canTxsGo hn h, txsGo_standby hstby]
  · rw [exec_canTxsGo hn h, txsGo_submits hstby]
  · rw [exec_canPendingWrite hn, canPending_due hx]
  · rw [exec_canPendingWrite hn, canPending_none hnone]
  · simp only [Option.elim_none, bufReady, can_setCan, if_true]
    exact ⟨getBuf_putBuf_same .., fun k hk hne => getBuf_putBuf_ne hb hk hne, rfl⟩
  · cases err
    · exact ⟨by simp, pair_bump ..⟩
    · exact ⟨by simp, rfl⟩
  · rw [auth_raiseAuthRsv, if_pos rfl, nextRsv]
  · rw [auth_raiseAuthRsv, if_pos rfl]
  · rw [auth_raiseAuthRsv, if_neg (Ne.symm hj)]

end Sys2Proof.Proofs
end

section
/-!
The gateway's input queue and route stage (R340, R341, R346, R365), its batches (R243, R354, R355), decapsulation (R356)
and its table window (R360, R365), one lemma per case of an event, and the claim about them.
-/
namespace Sys2Proof.Proofs
open Sys2Proof Sys2Proof.Machine Sys2Proof.Laws

/-! ### The input queue -/

/-- Counters of the gateway do not lie on its page of interrupts. -/
theorem pair_gweCnt_raise (s : State) (k i : Nat) : (s.raise (pGwe 0) i).pair (aGweCnt k) = s.pair (aGweCnt k) := by
  apply pair_raise <;> simp only [aGweCnt, pGwe, regAddr] <;> omega

/-- R340: a message that finds room enters the queue, at its end, and none is counted as dropped. -/
theorem enqueue_room {s : State} (m : GweMsg) (h : s.gwe.inq.length < 1024) :
    (enqueue s m).gwe = { s.gwe with inq := s.gwe.inq ++ [m] } ∧
      (enqueue s m).pair (aGweCnt 5) = s.pair (aGweCnt 5) := by
  simp only [enqueue, if_neg (Nat.not_le.2 h)]
  split
  · exact ⟨raise_gwe .., pair_gweCnt_raise ..⟩
  · exact ⟨rfl, rfl⟩

/-- R340: a message that finds the queue full is dropped, counted and signalled. -/
theorem enqueue_full {s : State} (m : GweMsg) (h : 1024 ≤ s.gwe.inq.length) :
    (enqueue s m).gwe = s.gwe ∧ (enqueue s m).pair (aGweCnt 5) = (s.pair (aGweCnt 5) + 1) % 2 ^ 64 ∧
      (enqueue s m).bitAt (regAddr (pGwe 0) 0x10) 1 = true := by
  rw [enqueue, if_pos h]
  exact ⟨by rw [raise_gwe, bump_gwe], by rw [pair_gweCnt_raise, pair_bump], bitAt_raise (by decide)⟩

/-- R340: a message that is the only one on its way to the queue enters it alone. -/
theorem gweTakeTo_alone {s : State} {m : GweMsg} (hcoming : gweComing s = 1)
    (halone : deferredMsgs s ++ s.gwe.reqs = [m]) : gweTakeTo (reqKey m) (gweComing s) s = gweEnters s m := by
  simp [hcoming, gweTakeTo, halone, leastBy]

/-- R340: GWE_ENQUEUE takes the messages up to the next one whose cycle has come. -/
theorem exec_gweEnqueue {s : State} {m : GweMsg}
    (h : leastBy reqKey (s.gwe.reqs.filter (fun x => decide (x.at_ ≤ s.cclk))) = some m) :
    exec .gweEnqueue s = .next (gweTakeTo (reqKey m) (gweComing s) s) := by
  show Host.Outcome.next (gweTake s) = _
  simp only [gweTake, h]

/-- The state in which the message on its way from a bus or a frame is no longer on its way. -/
def requestsTaken (s : State) : State := { s with gwe := { s.gwe with reqs := [] } }

/-- R340, R342: a bus message or a decapsulated one that comes alone enters the queue with its epoch. -/
theorem exec_gweEnqueue_alone {s : State} {m : GweMsg}
    (h : leastBy reqKey (s.gwe.reqs.filter (fun x => decide (x.at_ ≤ s.cclk))) = some m) (hrun : s.gwe.run = [])
    (hreqs : s.gwe.reqs = [m]) (hbus : ∀ h, m.kind ≠ .reinject h) :
    exec .gweEnqueue s = .next (enqueue (requestsTaken s) (stampEpoch s m)) := by
  have hdeferred : deferredMsgs s = [] := by simp [deferredMsgs, hrun]
  have henters : gweEnters s m = enqueue (requestsTaken s) (stampEpoch s m) := by
    cases hk : m.kind with
    | can => simp [gweEnters, hk, hreqs, requestsTaken]
    | lin f => simp [gweEnters, hk, hreqs, requestsTaken]
    | reinject h => exact absurd hk (hbus h)
  rw [exec_gweEnqueue h, gweTakeTo_alone (by simp [gweComing, hrun, hreqs]) (by simp [hdeferred, hreqs]), henters]

theorem exec_gweEnqueue_none {s : State} (h : s.gwe.reqs = []) : exec .gweEnqueue s = .next s := by
  show Host.Outcome.next (gweTake s) = _
  simp only [gweTake, h, List.filter_nil, leastBy]

/-! ### Admission -/

/-- R341: the head of the queue is admitted, 250 cycles after the one before at the earliest. -/
theorem exec_routeAdmit_due {s : State} {m : GweMsg} {rest : List GweMsg} (hq : s.gwe.inq = m :: rest)
    (hopen : gweOpen s = true) (hdue : admitAt s m ≤ s.cclk) :
    exec .routeAdmit s = .next (admitMsg s m (admitAt s m)) := by
  show execRouteAdmit s = _
  simp [execRouteAdmit, hq, hopen, hdue]

theorem exec_routeAdmit_waits {s : State} {m : GweMsg} {rest : List GweMsg} (hq : s.gwe.inq = m :: rest)
    (h : gweOpen s = false ∨ s.cclk < admitAt s m) : exec .routeAdmit s = .next s := by
  have hnot : ¬ (gweOpen s && decide (admitAt s m ≤ s.cclk)) = true := by
    obtain hclosed | hearly := h
    · simp [hclosed]
    · simp [Nat.not_le.2 hearly]
  show execRouteAdmit s = _
  simp only [execRouteAdmit, hq, if_neg hnot]

theorem gwe_admitMsg {s : State} {m : GweMsg} {rest : List GweMsg} (t : Nat) (hq : s.gwe.inq = m :: rest) :
    (admitMsg s m t).gwe =
      { s.gwe with inq := rest, lastAdmit := some t, routed := s.gwe.routed ++ [(t, m)] } := by
  simp only [admitMsg, bump_gwe, hq, List.drop_one, List.tail_cons]

/-! ### Re-injection -/

/-- GWE_REINJECT of a handle whose deferred value's cycle has come. -/
theorem exec_gweReinject {s : State} {h d : Nat} (hh : h < 4096) (hd : (s.hrun h).due = some d) (hdue : d ≤ s.cclk)
    (hopen : gweOpen s = true) :
    exec (.gweReinject h) s = .next (gweTakeTo (reqKey (lvcMsg s h d)) (gweComing s) s) := by
  show execGweReinject h s = _
  rw [execGweReinject, ifWf_true (decide_eq_true hh)]
  simp [gweReinjectOp, hd, hopen, Nat.not_lt.2 hdue]

/-- R340, R346: a deferred value that is the only message on its way to the queue. -/
theorem deferredMsgs_alone {s : State} {h d : Nat} (hd : (s.hrun h).due = some d) (hopen : gweOpen s = true)
    (hrun : s.gwe.run = [(h, s.hrun h)]) : deferredMsgs s = [lvcMsg s h d] := by
  simp [deferredMsgs, hopen, hrun, hd]

/-- R346, R365: the deferred value of a handle enters the queue, when its cache reads without loss. -/
theorem gweEnters_lvcMsg (s : State) (h d : Nat) :
    let r := gweRead (s.setHrun h { s.hrun h with due := none })
    gweEnters s (lvcMsg s h d) = if r.2 then lvcLose r.1 h
      else enqueue { r.1 with free := r.1.free + ((s.lvc h).count - 64) } (lvcMsg s h d) := by
  show reinject s h (lvcMsg s h d) = _
  dsimp only [reinject]
  split
  next t hr => simp only [hr, if_true]
  next t hr => simp only [hr, Bool.false_eq_true, if_false]

/-! ### Batches -/

/-- R354: the end of its hold closes the batch of a stream. -/
theorem exec_batchHoldExpire {s : State} {o : Nat} {b : Batch} (ho : o < 64)
    (hb : Tab.get (fun _ => none) s.gwe.batch o = some b) (hover : holdOver s b = true) :
    exec (.batchHoldExpire o) s = .next (closeBatch s s.epoch o (holdClose b)) := by
  show execBatchHoldExpire o s = _
  rw [execBatchHoldExpire, ifWf_true (decide_eq_true ho), hb]
  exact congrArg _ (if_pos hover)

/-- R355: the oldest built frame enters in its cycle. -/
theorem exec_batchFrameEnter {s : State} {f : BatchFrame} {rest : List BatchFrame} (ho : s.gwe.out = f :: rest)
    (hat : f.enterAt ≤ s.cclk) : exec .batchFrameEnter s = .next (batchEnter s f) := by
  show execBatchFrameEnter s = _
  simp only [execBatchFrameEnter, ho, if_pos hat]

/-- R243: a frame whose cycle has come enters where the pacer of its port lets it. -/
theorem sourceFrame_enters {s : State} {at_ : Nat} {f : Frame} (hat : at_ ≤ s.cclk)
    (h : entryOpen s f.port = true) : sourceFrame s at_ f = enterPaced s f :=
  if_pos ⟨hat, h⟩

/-- R243: a frame that the pacer of its port does not let in yet waits. -/
theorem sourceFrame_waits {s : State} {at_ : Nat} {f : Frame} (h : entryOpen s f.port = false) :
    sourceFrame s at_ f = { s with fab := { s.fab with entryQ := s.fab.entryQ ++ [{ at_ := at_, frame := f }] } } :=
  if_neg (by simp [h])

theorem frame_enterFrame (s : State) (f : Frame) :
    (enterFrame s f).frame s.nextFrame = { f with stage := .received } := by
  have hframes : (enterFrame s f).frames = (s.setFrame s.nextFrame { f with stage := .received }).frames := rfl
  rw [frame_congr hframes, frame_setFrame, if_pos rfl]

/-- A frame with the times of an entry in the present cycle. -/
def enteringNow (s : State) (f : Frame) : Frame :=
  { f with rx := s.cclk, tsCycle := s.cclk, pos := s.pos, sinceCycle := s.cclk - s.pb.cycleAt }

/-- R243: a paced frame takes the next number, and enters in the present cycle. -/
theorem enterPaced_shows (s : State) (f : Frame) :
    (enterPaced s f).gwe = s.gwe ∧ (enterPaced s f).nextFrame = s.nextFrame + 1 ∧
      (enterPaced s f).frame s.nextFrame = { enteringNow s f with stage := .received } :=
  ⟨rfl, rfl, frame_enterFrame s (enteringNow s f)⟩

/-- The state in which the oldest built frame has left the output FIFO. -/
def builtTaken (s : State) : State := { s with gwe := { s.gwe with out := s.gwe.out.drop 1 } }

/-- R355: a built frame as one of port 50, padded and with its FCS. -/
def builtFrame (s : State) (f : BatchFrame) : Frame :=
  { portFrame (builtTaken s) 50 0 s.cclk with bytes := paddedFrame f.bytes, tc := f.tc, busSrc := f.srcs }

/-- R243, R355: the pacer of port 50 lets a built frame in at once. -/
theorem batchEnter_enters {s : State} {f : BatchFrame} (h : entryOpen s 50 = true) :
    batchEnter s f = enterPaced (builtTaken s) (builtFrame s f) :=
  sourceFrame_enters (Nat.le_refl s.cclk) h

/-- R243, R355: a built frame waits for the pacer of port 50. -/
theorem batchEnter_waits {s : State} {f : BatchFrame} (h : entryOpen s 50 = false) :
    batchEnter s f = { builtTaken s with
      fab := { s.fab with entryQ := s.fab.entryQ ++ [{ at_ := s.cclk, frame := builtFrame s f }] } } :=
  sourceFrame_waits h

theorem out_builtTaken {s : State} {f : BatchFrame} {rest : List BatchFrame} (ho : s.gwe.out = f :: rest) :
    (builtTaken s).gwe.out = rest := by
  simp only [builtTaken, ho, List.drop_one, List.tail_cons]

/-! ### Decapsulation -/

/-- The state in which the frame delivered to port 50 has been taken, `rest` being those behind it. -/
def deliveredTaken (s : State) (rest : List GweFrame) : State := { s with gwe := { s.gwe with frames := rest } }

/-- R356: a frame taken by a gateway that is open and ready is looked up among the inbound streams. -/
def decapsulated (u : State) (f : GweFrame) : State :=
  match avtpOf u f with
  | none => u.bump (aGweCnt 13)
  | some a => acceptAvtp u f a

/-- GWE_DECAPSULATE where the gateway takes no message. -/
theorem exec_gweDecapsulate_closed {s : State} {f : GweFrame} {rest : List GweFrame} (hf : s.gwe.frames = f :: rest)
    (h : gweOpen s = false ∨ s.gwe.ready = false) : exec .gweDecapsulate s = .next (deliveredTaken s rest) := by
  have hclosed : (!gweOpen (deliveredTaken s rest) || !(deliveredTaken s rest).gwe.ready) = true := by
    rwa [Bool.or_eq_true, Bool.not_eq_true', Bool.not_eq_true']
  show execGweDecapsulate s = _
  simp only [execGweDecapsulate, hf]
  exact congrArg _ (if_pos hclosed)

/-- GWE_DECAPSULATE where the gateway takes messages. -/
theorem exec_gweDecapsulate_open {s : State} {f : GweFrame} {rest : List GweFrame} (hf : s.gwe.frames = f :: rest)
    (hopen : gweOpen s = true) (hready : s.gwe.ready = true) :
    exec .gweDecapsulate s = .next (decapsulated (istreamRead (deliveredTaken s rest)) f) := by
  have htakes : ¬ (!gweOpen (deliveredTaken s rest) || !(deliveredTaken s rest).gwe.ready) = true := by
    show ¬ (!gweOpen s || !s.gwe.ready) = true
    simp [hopen, hready]
  show execGweDecapsulate s = _
  simp only [execGweDecapsulate, hf]
  exact congrArg _ (if_neg htakes)

/-- R356: a frame that is of no inbound stream is counted, and goes no further. -/
theorem decapsulated_counted {u : State} {f : GweFrame} (h : avtpOf u f = none) :
    decapsulated u f = u.bump (aGweCnt 13) := by
  simp only [decapsulated, h]

/-- R356: an AVTP frame of an inbound stream is taken apart. -/
theorem decapsulated_accepted {u : State} {f : GweFrame} {a : AvtpFrame} (h : avtpOf u f = some a) :
    decapsulated u f = acceptAvtp u f a := by
  simp only [decapsulated, h]

/-! ### The table window -/

/-- READ and READ_PENDING that pass the checks. -/
theorem exec_gweTblReads {s : State} {w : Who} {pend : Bool} {c : Instr}
    (hc : (pend, c) ∈ [(false, Instr.gweTblRead w), (true, .gweTblReadPending w)])
    (h : Passes s w (aGweTbl 0x044) (if pend then 3 else 1)) : exec c s = .next (gweReadOp pend s) := by
  simp only [List.mem_cons, Prod.mk.injEq, List.not_mem_nil, or_false] at hc
  obtain ⟨rfl, rfl⟩ | ⟨rfl, rfl⟩ := hc
  · exact congrArg _ (write_passes h)
  · exact congrArg _ (write_passes h)

/-- R360, R365: a well-formed READ answers the entry, or that it is lost in both copies. -/
theorem gweReadOp_wellFormed {s : State} (pend : Bool) (hform : gweForm s = 0) :
    let u := (gweRead s).1
    gweReadOp pend s = if (gweRead s).2
      then gweStatus (gweLose u [gweTable s * 2 ^ 20 + gweIndex s]) 0x0C
      else gweStatus (setGweData u
        (withSeq u (gweTable s) (gweIndex s) (tueValue u pend (gweTable s) (gweIndex s)))) 0 := by
  simp only [gweReadOp, hform]
  split
  next u hr => simp only [hr, if_true]
  next u hr => simp only [hr, Bool.false_eq_true, if_false]

/-- R360: a READ of no entry answers its form error, and moves nothing. -/
theorem gweReadOp_formError {s : State} (pend : Bool) (hform : gweForm s ≠ 0) :
    gweReadOp pend s = gweStatus s (gweForm s) := by
  simp only [gweReadOp]

/-- STAGE that passes the checks. -/
theorem exec_gweTblStage {s : State} {w : Who} (h : Passes s w (aGweTbl 0x044) 2) :
    exec (.gweTblStage w) s = .next (gweStageOp w s) :=
  congrArg _ (write_passes h)

/-- R360: the entry that the data registers hold. -/
def stagedEntry (s : State) : List Byte := noSeq (gweTable s) (slice (gweData s) 0 (entryBytes (gweTable s)))

/-- R360: the data registers hold a byte behind the entry. -/
def bytesBehindEntry (s : State) : Bool := ((gweData s).drop (entryBytes (gweTable s))).any (fun b => b != 0)

/-- R360: STAGE where no entry is staged in this mode. -/
theorem gweStageOp_shut {s : State} (w : Who) (hform : gweForm s = 0) (hshut : rwsClosed s.mode = true) :
    gweStageOp w s = gweStatus s 0x0A := by
  simp only [gweStageOp, hform, if_pos hshut]

section Entry
variable {s : State} {w : Who} (hform : gweForm s = 0) (hshut : rwsClosed s.mode = false)
include hform hshut

/-- R360: where the mode lets an entry be staged, the entry and then the log are examined. -/
theorem gweStageOp_examines : gweStageOp w s =
    if badEntry (gweTable s) (stagedEntry s) = true ∨ bytesBehindEntry s = true then gweStatus s 0x0D
    else if isHost w.m = true ∧ siltFull s = true then gweStatus s.siltRefused 0x0B
    else gweStageOne s (originOf w.m) (gweTable s) (gweIndex s) (stagedEntry s) := by
  simp only [gweStageOp, hform, hshut, Bool.false_eq_true, if_false]
  rfl

/-- R360: an entry that is not well-formed is refused. -/
theorem gweStageOp_badEntry (hbad : badEntry (gweTable s) (stagedEntry s) = true ∨ bytesBehindEntry s = true) :
    gweStageOp w s = gweStatus s 0x0D :=
  (gweStageOp_examines hform hshut).trans (if_pos hbad)

variable (hgood : badEntry (gweTable s) (stagedEntry s) = false) (hbehind : bytesBehindEntry s = false)
include hgood hbehind

/-- R360: a host's entry that the log has no room for is refused. -/
theorem gweStageOp_logFull (hhost : isHost w.m = true) (hfull : siltFull s = true) :
    gweStageOp w s = gweStatus s.siltRefused 0x0B := by
  rw [gweStageOp_examines hform hshut, if_neg (by simp [hgood, hbehind]), if_pos ⟨hhost, hfull⟩]

/-- R360: a well-formed entry is staged. -/
theorem gweStageOp_stages (hroom : isHost w.m = false ∨ siltFull s = false) :
    gweStageOp w s = gweStageOne s (originOf w.m) (gweTable s) (gweIndex s) (stagedEntry s) := by
  have hlogs : ¬ (isHost w.m = true ∧ siltFull s = true) := by
    obtain hmp | hfree := hroom
    · simp [hmp]
    · simp [hfree]
  rw [gweStageOp_examines hform hshut, if_neg (by simp [hgood, hbehind]), if_neg hlogs]

end Entry

/-- R360: a STAGE of no entry answers its form error, and moves nothing. -/
theorem gweStageOp_formError {s : State} (w : Who) (hform : gweForm s ≠ 0) :
    gweStageOp w s = gweStatus s (gweForm s) := by
  simp only [gweStageOp]

/-- Settles O38: the queue, admission, re-injection, batches, decapsulation and the table window, each by its cases. -/
theorem gatewayMessagesAndTables : Obligations.GatewayMessagesAndTables := by
  unfold Obligations.GatewayMessagesAndTables
  refine ⟨⟨fun s m hm => ⟨exec_gweEnqueue hm, fun hrun hreqs hbus => ?_⟩, fun s hnone => exec_gweEnqueue_none hnone,
      fun s m rest hq => ⟨fun hopen hdue => ⟨_, exec_routeAdmit_due hq hopen hdue, gwe_admitMsg _ hq, pair_bump ..⟩,
        fun hwait => exec_routeAdmit_waits hq hwait⟩,
      fun s h d hh hd hdue hopen => ⟨exec_gweReinject hh hd hdue hopen, fun hreqs hrun => ?_⟩,
      fun s o b ho hb hover => exec_batchHoldExpire ho hb hover,
      fun s f rest ho hat => ⟨fun hopen => ⟨_, exec_batchFrameEnter ho hat, ?_⟩,
        fun hclosed => ⟨_, exec_batchFrameEnter ho hat, ?_⟩⟩,
      fun s f rest hf => ⟨fun hclosed => exec_gweDecapsulate_closed hf hclosed, fun hopen hready =>
        ⟨fun hnone => (exec_gweDecapsulate_open hf hopen hready).trans (congrArg _ (decapsulated_counted hnone)),
          fun a hsome => (exec_gweDecapsulate_open hf hopen hready).trans (congrArg _ (decapsulated_accepted hsome))⟩⟩⟩,
    fun s w pend c hc h => ⟨fun hform => ?_, fun hform => ?_⟩,
    fun s w h => ⟨fun hform => (exec_gweTblStage h).trans (congrArg _ (gweStageOp_formError w hform)),
      fun hform hshut => (exec_gweTblStage h).trans (congrArg _ (gweStageOp_shut w hform hshut)),
      fun hform hshut hbad => (exec_gweTblStage h).trans (congrArg _ (gweStageOp_badEntry hform hshut hbad)),
      fun hform hshut hgood hbehind => ⟨fun hhost hfull => (exec_gweTblStage h).trans
          (congrArg _ (gweStageOp_logFull hform hshut hgood hbehind hhost hfull)),
        fun hroom => (exec_gweTblStage h).trans (congrArg _ (gweStageOp_stages hform hshut hgood hbehind hroom))⟩⟩⟩
  · have hexec := exec_gweEnqueue_alone hm hrun hreqs hbus
    refine ⟨fun hroom => ⟨_, hexec, ?_⟩, fun hfull => ⟨_, hexec, ?_⟩⟩
    · obtain ⟨hgwe, hdropped⟩ := enqueue_room (s := requestsTaken s) (stampEpoch s m) hroom
      exact ⟨congrArg Gateway.inq hgwe, congrArg Gateway.reqs hgwe, hdropped⟩
    · obtain ⟨hgwe, hdropped, hraised⟩ := enqueue_full (s := requestsTaken s) (stampEpoch s m) hfull
      exact ⟨(congrArg Gateway.inq hgwe).trans rfl, (congrArg Gateway.reqs hgwe).trans rfl, hdropped, hraised⟩
  · rw [exec_gweReinject hh hd hdue hopen, gweTakeTo_alone (by simp [gweComing, hrun, hreqs])
      (by simp [deferredMsgs_alone hd hopen hrun, hreqs]), gweEnters_lvcMsg]
  · rw [batchEnter_enters hopen]
    obtain ⟨hgwe, hnext, hframe⟩ := enterPaced_shows (builtTaken s) (builtFrame s f)
    exact ⟨(congrArg Gateway.out hgwe).trans (out_builtTaken ho), hnext, congrArg Frame.bytes hframe,
      congrArg Frame.port hframe, congrArg Frame.rx hframe⟩
  · rw [batchEnter_waits hclosed]
    exact ⟨out_builtTaken ho, rfl, _, rfl, rfl, rfl⟩
  · rw [exec_gweTblReads hc h, gweReadOp_wellFormed pend hform]
  · rw [exec_gweTblReads hc h, gweReadOp_formError pend hform]

end Sys2Proof.Proofs
end

section
/-!
The gPTP domains (R370 to R372, Table 12-1), peer delay (R373, R374) and the messages that a domain sends (R375, R379,
R380), one lemma per case of an event, and the claim about them.
-/
namespace Sys2Proof.Proofs
open Sys2Proof Sys2Proof.Machine Sys2Proof.Laws

/-! ### The domains and the ports of the PTP engine -/

@[simp] theorem dom_setDom (s : State) (d k : Nat) (x : Domain) :
    (s.setDom d x).dom k = if d = k then x else s.dom k :=
  get_set

@[simp] theorem pdelay_setPdelay (s : State) (p k : Nat) (x : Pdelay) :
    (s.setPdelay p x).pdelay k = if p = k then x else s.pdelay k :=
  get_set

/-- Domains and peer-delay ports are read from one part of the state. -/
theorem dom_congr {s t : State} (h : t.ptp = s.ptp) (d : Nat) : t.dom d = s.dom d := by
  simp only [State.dom, h]

theorem pdelay_congr {s t : State} (h : t.ptp = s.ptp) (p : Nat) : t.pdelay p = s.pdelay p := by
  simp only [State.pdelay, h]

@[simp] theorem setDom_pair (s : State) (d a : Nat) (x : Domain) : (s.setDom d x).pair a = s.pair a := rfl
@[simp] theorem setDom_pdelay (s : State) (d p : Nat) (x : Domain) : (s.setDom d x).pdelay p = s.pdelay p := rfl
@[simp] theorem bump_dom (s : State) (a d : Nat) : (s.bump a).dom d = s.dom d := rfl
@[simp] theorem bump_pdelay (s : State) (a p : Nat) : (s.bump a).pdelay p = s.pdelay p := rfl
@[simp] theorem raise_pdelay (s : State) (p i k : Nat) : (s.raise p i).pdelay k = s.pdelay k :=
  pdelay_congr (raise_ptp ..) k

/-! ### Transitions of a domain (Table 12-1) -/

@[simp] theorem pbDomainLost_ptp (s : State) (d : Nat) : (pbDomainLost s d).ptp = s.ptp :=
  (fr_pbDomainLost (F := 1717987336200) rfl frm_refl).ptp.resolve_left (by decide)

/-- A domain that enters a state of Table 12-1 in cycle `c`. -/
def entered (x : Domain) (st : PtpState) (c : Nat) : Domain :=
  { x with state := st, runIn := 0, runOut := if st = .holdover then x.runOut else 0
           holdAt := if st = .holdover then some c else none }

/-- A change of state changes, of the PTP engine, its domain only. -/
theorem domEnter_ptp (s : State) (d : Nat) (st : PtpState) :
    (domEnter s d st).ptp = (s.setDom d (entered (s.dom d) st s.cclk)).ptp := by
  have hvalid (c : Prop) [Decidable c] (t : State) : (if c then t else t.raise pPtp d).ptp = t.ptp := by
    split <;> simp
  have hlost (c : Prop) [Decidable c] (t : State) : (if c then pbDomainLost t d else t).ptp = t.ptp := by
    split <;> simp
  exact (hlost ..).trans (hvalid ..)

@[simp] theorem dom_domEnter (s : State) (d : Nat) (st : PtpState) :
    (domEnter s d st).dom d = entered (s.dom d) st s.cclk := by
  rw [dom_congr (domEnter_ptp s d st), dom_setDom, if_pos rfl]

/-- Loss of a LOCKED domain's Sync changes, of the PTP engine, what the change to HOLDOVER does. -/
theorem domHoldover_ptp (s : State) (d : Nat) :
    (domHoldover s d).ptp = (s.setDom d (entered (s.dom d) .holdover s.cclk)).ptp := by
  rw [domHoldover, report_ptp, raise_ptp, domEnter_ptp]

/-- R371: a domain whose Sync is lost is in HOLDOVER from this cycle on, and still waits for the Follow_Up it waited
for; SYNC_LOSS is raised. -/
theorem domHoldover_shows (s : State) (d : Nat) :
    let t := domHoldover s d
    (t.dom d).state = .holdover ∧ (t.dom d).holdAt = some s.cclk ∧ (t.dom d).waitFu = (s.dom d).waitFu ∧
      t.bitAt (regAddr pPtp 0x10) 3 = true := by
  have hdom : (domHoldover s d).dom d = entered (s.dom d) .holdover s.cclk := by
    rw [dom_congr (domHoldover_ptp s d), dom_setDom, if_pos rfl]
  refine ⟨by rw [hdom]; rfl, by rw [hdom]; rfl, by rw [hdom]; rfl, ?_⟩
  rw [domHoldover, report_bitAt, bitAt_raise (by decide)]

@[simp] theorem domHoldover_pdelay (s : State) (d p : Nat) : (domHoldover s d).pdelay p = s.pdelay p :=
  pdelay_congr (domHoldover_ptp s d) p

/-! ### Syncs and their Follow_Ups (R372) -/

/-- PTP_SYNC_RX of a domain and a port of the part. -/
theorem exec_ptpSyncRx {d p : Nat} (s : State) (q t : Nat) (two : Bool) (i : SyncInfo) (hd : twoOk d = true)
    (hp : macOk p = true) : exec (.ptpSyncRx d p q two i t) s = .next (whenever (syncFrom s d p) s
      (if two then syncWaits s d (gptpIngress s p t) q
       else withServo (s.bump (aPtpCnt 0)) d (fun u => syncAccepted u d p (gptpIngress s p t) i))) :=
  ifWf_true (Bool.and_eq_true_iff.2 ⟨hd, hp⟩)

/-- PTP_FOLLOW_UP_RX of a domain and a port of the part. -/
theorem exec_ptpFollowUpRx {d p : Nat} (s : State) (q : Nat) (i : SyncInfo) (hd : twoOk d = true)
    (hp : macOk p = true) : exec (.ptpFollowUpRx d p q i) s =
      .next (whenever (syncFrom s d p) s (completeSync (relayInfo s d p q i) d p q i)) :=
  ifWf_true (Bool.and_eq_true_iff.2 ⟨hd, hp⟩)

/-- R372: a two-step Sync waits for its Follow_Up and moves nothing else of its domain; the one that it displaces
counts as missing its own. -/
theorem syncWaits_shows (s : State) (d q : Nat) (t : Int) :
    let u := syncWaits s d t q
    (u.dom d).waitFu = some (t, s.cclk, q) ∧ (u.dom d).state = (s.dom d).state ∧ (u.dom d).ofs = (s.dom d).ofs ∧
      u.pair (aPtpCnt 6) =
        (if (s.dom d).waitFu.isSome then (s.pair (aPtpCnt 6) + 1) % 2 ^ 64 else s.pair (aPtpCnt 6)) := by
  cases hw : (s.dom d).waitFu.isSome
  · simp [syncWaits, hw]
  · simp [syncWaits, hw, pair_bump]

/-- R372: a Sync whose Follow_Up has not come within a sync interval is given up, and counted. -/
theorem exec_fuMissing_late {s : State} {d c q : Nat} {t : Int} (hd : twoOk d = true)
    (hwait : (s.dom d).waitFu = some (t, c, q)) (hlate : c + syncInterval s d < s.cclk) :
    exec (.fuMissing d) s = .next ((s.setDom d { s.dom d with waitFu := none }).bump (aPtpCnt 6)) := by
  show execFuMissing d s = _
  rw [execFuMissing, ifWf_true hd, hwait]
  exact congrArg _ (whenever_true (decide_eq_true hlate))

/-! ### Loss of the Sync, and the grandmaster's clock (R370, R371) -/

theorem exec_ptpSyncTimeout {d : Nat} (s : State) (hd : twoOk d = true) :
    exec (.ptpSyncTimeout d) s = .next (whenever (syncOverdue s d) s (domHoldover s d)) :=
  ifWf_true hd

theorem exec_ptpHoldExpire {d : Nat} (s : State) (hd : twoOk d = true) :
    exec (.ptpHoldExpire d) s = .next (whenever (holdOverdue s d) s (domEnter s d .free)) :=
  ifWf_true hd

/-- PTP_SET_GO that passes the checks. -/
theorem exec_ptpSetGo {s : State} {w : Who} {d : Nat} (hd : twoOk d = true) (h : Passes s w (aDom d 0x44) 1) :
    exec (.ptpSetGo w d) s = .next (gmSet s d) :=
  (ifWf_true hd).trans (congrArg _ (write_passes h))

/-! ### Frames of MP1 (R243, R368) -/

/-- R243, R368: a message that MP1 sources where the pacer of port 51 lets it in. -/
theorem gptpSend_enters {s : State} {at_ : Nat} (p : Nat) (bs : List Byte) (e : Option PtpEdit) (hat : at_ ≤ s.cclk)
    (h : entryOpen s 51 = true) : gptpSend s p at_ bs e = enterPaced s { mgmtFrame s p bs with ptp := e } :=
  sourceFrame_enters hat h

/-- R243, R368: a message that MP1 sources waits for the pacer of port 51. -/
theorem gptpSend_waits {s : State} (p at_ : Nat) (bs : List Byte) (e : Option PtpEdit) (h : entryOpen s 51 = false) :
    gptpSend s p at_ bs e = { s with fab := { s.fab with
      entryQ := s.fab.entryQ ++ [{ at_ := at_, frame := { mgmtFrame s p bs with ptp := e } }] } } :=
  sourceFrame_waits h

/-- Sourcing a message changes nothing of the PTP engine. -/
@[simp] theorem gptpSend_ptp (s : State) (p at_ : Nat) (bs : List Byte) (e : Option PtpEdit) :
    (gptpSend s p at_ bs e).ptp = s.ptp := by
  rw [gptpSend, sourceFrame]
  split <;> rfl

/-- R243: whether a pacer lets a frame in turns on the fabric and the cycle. -/
theorem entryOpen_congr {s t : State} (hfab : t.fab = s.fab) (hcclk : t.cclk = s.cclk) (p : Nat) :
    entryOpen t p = entryOpen s p := by
  rw [entryOpen, State.entryFree, hfab, hcclk]
  rfl

/-! ### asCapable (R374) -/

/-- R374: what the loss of a slave port does to the domains leaves every peer-delay port. -/
@[simp] theorem slavePortLost_pdelay (s : State) (p k : Nat) : (slavePortLost s p).pdelay k = s.pdelay k := by
  have hstep (c : Bool) (t : State) (d : Nat) : (if c then domHoldover t d else t).pdelay k = t.pdelay k := by
    split <;> simp
  rw [slavePortLost, List.foldl_cons, List.foldl_cons, List.foldl_nil, hstep, hstep]

/-- R374: a port that loses asCapable loses nothing else of its peer delay. -/
theorem pdelay_asCapLost (s : State) (p : Nat) :
    (asCapLost s p).pdelay p = { s.pdelay p with asCap := false } := by
  rw [asCapLost]
  split
  next _ => simp
  next hnot => rw [← Bool.eq_false_iff.2 hnot]

/-! ### Requests (R373) -/

@[simp] theorem unanswered_cclk (s : State) (p : Nat) : (unanswered s p).cclk = s.cclk :=
  (fr_unanswered (F := 1717989433352) rfl frm_refl).cclk.resolve_left (by decide)

@[simp] theorem unanswered_fab (s : State) (p : Nat) : (unanswered s p).fab = s.fab :=
  (fr_unanswered (F := 1717989433352) rfl frm_refl).fab.resolve_left (by decide)

@[simp] theorem unanswered_nextFrame (s : State) (p : Nat) : (unanswered s p).nextFrame = s.nextFrame :=
  (fr_unanswered (F := 1717989433352) rfl frm_refl).nextFrame.resolve_left (by decide)

/-- R374: a request that is still outstanding counts as lost, up to the three that take asCapable. -/
theorem lost_unanswered {s : State} {p : Nat} (h : (s.pdelay p).asked ≠ none) :
    ((unanswered s p).pdelay p).lost = min 3 ((s.pdelay p).lost + 1) := by
  have hasked : ¬ (s.pdelay p).asked.isNone = true := by rwa [Option.isNone_iff_eq_none]
  rw [unanswered, if_neg hasked]
  dsimp only
  split <;> simp [pdelay_asCapLost]

/-- PDELAY_REQ_TX of a port of the part. -/
theorem exec_pdelayReqTx {p : Nat} (s : State) (hp : macOk p = true) :
    exec (.pdelayReqTx p) s = .next (whenever (pdelayDue s p) s (sendPdelay (unanswered s p) p)) :=
  ifWf_true hp

/-- The state in which a port has taken the next number for its request. -/
def requested (s : State) (p : Nat) : State :=
  (usedSeq s p 0 2).setPdelay p
    { s.pdelay p with asked := some (nextSeq s p 0 2), t1 := none, reqAt := some s.cclk }

/-- R368, R373: the request goes out once it has taken its number. -/
theorem sendPdelay_eq (s : State) (p : Nat) :
    sendPdelay s p = gptpSend (requested s p) p (requested s p).cclk (pdelayReqBytes (requested s p) p (nextSeq s p 0 2))
      (some { kind := .pdelayReq, dom := 0, oneStep := false, seq := nextSeq s p 0 2 }) :=
  rfl

/-- R373: a port that has sent a request waits for the answer to it. -/
theorem pdelay_sendPdelay (s : State) (p : Nat) :
    (sendPdelay s p).pdelay p =
      { s.pdelay p with asked := some (nextSeq s p 0 2), t1 := none, reqAt := some s.cclk } := by
  rw [sendPdelay_eq, pdelay_congr (gptpSend_ptp ..), requested, pdelay_setPdelay, if_pos rfl]

/-- R243, R373: a request that the pacer of port 51 lets in is the next frame. -/
theorem nextFrame_sendPdelay {s : State} (p : Nat) (h : entryOpen s 51 = true) :
    (sendPdelay s p).nextFrame = s.nextFrame + 1 := by
  have hopen : entryOpen (requested s p) 51 = true := (entryOpen_congr rfl rfl 51).trans h
  rw [sendPdelay_eq, gptpSend_enters p _ _ (Nat.le_refl _) hopen]
  obtain ⟨_, hnext, _⟩ := enterPaced_shows (requested s p) _
  exact hnext

/-- R373, R374: what a request that is due leaves of its port, and that it goes out. -/
theorem sendPdelay_unanswered_shows (s : State) (p : Nat) :
    let t := sendPdelay (unanswered s p) p
    (t.pdelay p).reqAt = some s.cclk ∧ (t.pdelay p).asked = some (nextSeq (unanswered s p) p 0 2) ∧
      (t.pdelay p).t1 = none ∧
      ((s.pdelay p).asked ≠ none → (t.pdelay p).lost = min 3 ((s.pdelay p).lost + 1)) ∧
      (entryOpen s 51 = true → t.nextFrame = s.nextFrame + 1) := by
  simp only [pdelay_sendPdelay, unanswered_cclk, true_and]
  refine ⟨lost_unanswered, fun hopen => ?_⟩
  have hopen' : entryOpen (unanswered s p) 51 = true := by
    rwa [entryOpen_congr (unanswered_fab s p) (unanswered_cclk s p)]
  rw [nextFrame_sendPdelay p hopen', unanswered_nextFrame]

/-! ### Answers (R373, R374) -/

/-- PDELAY_REQ_RX on a port that is up and measures its link. -/
theorem exec_pdelayReqRx {s : State} {p : Nat} (q id t2 : Nat) (hp : macOk p = true)
    (hon : s.bitAt (aPtpPort p 0) 0 = true) (hup : portUp s p = true) :
    exec (.pdelayReqRx p q id t2) s = .next (answerPdelay s p q id (gptpIngress s p t2 / 1000)) :=
  (ifWf_true hp).trans (congrArg _ (whenever_true (Bool.and_eq_true_iff.2 ⟨hon, hup⟩)))

/-- R243, R373: the answer to a request is the next frame where the pacer of port 51 lets it in. -/
theorem answerPdelay_enters {s : State} (p q id : Nat) (t2 : Int) (h : entryOpen s 51 = true) :
    let t := answerPdelay s p q id t2
    t.nextFrame = s.nextFrame + 1 ∧ (t.frame s.nextFrame).bytes = paddedFrame (pdelayRespBytes s p 3 q t2 id) := by
  simp only [answerPdelay, gptpSend_enters p _ _ (Nat.le_refl s.cclk) h]
  obtain ⟨_, hnext, hframe⟩ := enterPaced_shows s { mgmtFrame s p (pdelayRespBytes s p 3 q t2 id) with
    ptp := some { kind := .pdelayResp, dom := 0, oneStep := false, seq := q, peer := id } }
  exact ⟨hnext, congrArg Frame.bytes hframe⟩

/-- R243, R373: the answer to a request waits at the end of the queue for the pacer of port 51. -/
theorem answerPdelay_waits {s : State} (p q id : Nat) (t2 : Int) (h : entryOpen s 51 = false) :
    ∃ x, (answerPdelay s p q id t2).fab.entryQ = s.fab.entryQ ++ [x] ∧
      x.frame.bytes = paddedFrame (pdelayRespBytes s p 3 q t2 id) := by
  rw [answerPdelay, gptpSend_waits p _ _ _ h]
  exact ⟨_, rfl, rfl⟩

/-- PDELAY_RESP_RX that completes an exchange. -/
theorem exec_pdelayRespRx_complete {s : State} {p q : Nat} {t1 : Int} (t2 t3 t4 : Nat) (hp : macOk p = true)
    (hasked : (s.pdelay p).asked = some q) (ht1 : (s.pdelay p).t1 = some t1) :
    exec (.pdelayRespRx p q t2 t3 t4) s = .next (pdelayDone s p t2 t3 (gptpIngress s p t4) t1) := by
  show execPdelayRespRx p q t2 t3 t4 s = _
  rw [execPdelayRespRx, ifWf_true hp, if_pos hasked, ht1]

/-- R373: an answer to no request that is outstanding changes nothing. -/
theorem exec_pdelayRespRx_unasked {s : State} {p q : Nat} (t2 t3 t4 : Nat) (hp : macOk p = true)
    (h : (s.pdelay p).asked ≠ some q) : exec (.pdelayRespRx p q t2 t3 t4) s = .next s := by
  show execPdelayRespRx p q t2 t3 t4 s = _
  rw [execPdelayRespRx, ifWf_true hp, if_neg h]

/-! ### What a domain sends (R375, R379, R380) -/

/-- SYNC_RELAY of a Sync from the slave port. -/
theorem exec_syncRelay {s : State} {d : Nat} (q t : Nat) (two : Bool) (i : SyncInfo) (hd : twoOk d = true)
    (h : syncFrom s d (s.dom d).slave = true) :
    exec (.syncRelay d q two i t) s = .next (relaySync s d q two i (gptpIngress s (s.dom d).slave t)) :=
  (ifWf_true hd).trans (congrArg _ (whenever_true h))

/-- FOLLOW_UP_TX takes the first Sync that has left the port and whose Follow_Up is known. -/
theorem exec_followUpTx {s : State} {d p : Nat} {x : Nat × Int × PtpEdit} (hd : twoOk d = true) (hp : macOk p = true)
    (hx : (s.dom d).fuDue.find? (fun y => y.1 == p && y.2.2.known) = some x) :
    exec (.followUpTx d p) s = .next (sendFollowUp s d p x) := by
  show execFollowUpTx d p s = _
  rw [execFollowUpTx, ifWf_true (Bool.and_eq_true_iff.2 ⟨hd, hp⟩), hx]

/-- The state in which the Follow_Up of a Sync that has left is no longer due. -/
def followUpTaken (s : State) (d : Nat) (x : Nat × Int × PtpEdit) : State :=
  s.setDom d { s.dom d with fuDue := (s.dom d).fuDue.erase x }

/-- R379: a Follow_Up goes out on a port that is asCapable and up, and is counted. -/
theorem sendFollowUp_sends {s : State} {d p : Nat} {x : Nat × Int × PtpEdit}
    (hcap : ((followUpTaken s d x).pdelay p).asCap = true) (hup : portUp (followUpTaken s d x) p = true) :
    sendFollowUp s d p x = (gptpSend (followUpTaken s d x) p (followUpTaken s d x).cclk
      (followUpBytes (followUpTaken s d x) p x.2.2 x.2.1) none).bump (aPtpCnt 3) :=
  if_pos (Bool.and_eq_true_iff.2 ⟨hcap, hup⟩)

/-- R379: on another port no Follow_Up goes out. -/
theorem sendFollowUp_drops {s : State} {d p : Nat} {x : Nat × Int × PtpEdit}
    (h : ((followUpTaken s d x).pdelay p).asCap = false ∨ portUp (followUpTaken s d x) p = false) :
    sendFollowUp s d p x = followUpTaken s d x :=
  if_neg (Bool.eq_false_iff.1 (Bool.and_eq_false_iff.2 h))

/-- SYNC_ORIGINATE of a grandmaster whose interval has passed. -/
theorem exec_syncOriginate {s : State} {d : Nat} (hd : twoOk d = true) (h : originDue s d = true) :
    exec (.syncOriginate d) s = .next (sendSyncs { dom := d, orig := true, oneStep := domOneStep s d } (masterPorts s d)
      s.cclk (s.setDom d { s.dom d with origAt := some s.cclk })) :=
  (ifWf_true hd).trans (congrArg _ (whenever_true h))

/-- Settles O39: Syncs and Follow_Ups, loss, the set clock, peer delay and what a domain sends, each by its cases. -/
theorem ptpClocksAndMessages : Obligations.PtpClocksAndMessages := by
  unfold Obligations.PtpClocksAndMessages
  refine ⟨⟨?_, ?_, ?_, fun s d c q t hd hwait hlate => exec_fuMissing_late hd hwait hlate, ?_, ?_, ?_, ?_, ?_⟩,
    ?_, ?_, ?_, ?_, fun s p q t2 t3 t4 hp h => exec_pdelayRespRx_unasked t2 t3 t4 hp h,
    fun s d q t two i hd h => exec_syncRelay q t two i hd h, ?_, fun s d hd h => exec_syncOriginate hd h⟩
  · intro s d p q t two i hd hp hfrom
    exact ⟨by rw [exec_ptpSyncRx s q t two i hd hp, whenever_false hfrom],
      by rw [exec_ptpFollowUpRx s q i hd hp, whenever_false hfrom]⟩
  · intro s d p q t i hd hp hfrom
    have hexec (two : Bool) := (exec_ptpSyncRx s q t two i hd hp).trans (congrArg _ (whenever_true hfrom))
    exact ⟨hexec false, _, hexec true, syncWaits_shows s d q (gptpIngress s p t)⟩
  · intro s d p q i hd hp hfrom
    rw [exec_ptpFollowUpRx s q i hd hp, whenever_true hfrom]
  · intro s d hd hover
    exact ⟨_, (exec_ptpSyncTimeout s hd).trans (congrArg _ (whenever_true hover)), domHoldover_shows s d⟩
  · intro s d hd hover
    rw [exec_ptpSyncTimeout s hd, whenever_false hover]
  · intro s d hd hover
    exact ⟨_, (exec_ptpHoldExpire s hd).trans (congrArg _ (whenever_true hover)), by rw [dom_domEnter]; rfl,
      by rw [dom_domEnter]; rfl⟩
  · intro s d hd hover
    rw [exec_ptpHoldExpire s hd, whenever_false hover]
  · intro s w d hd h
    exact ⟨exec_ptpSetGo hd h, _, exec_ptpSetGo hd h, congrArg Domain.state (dom_domEnter ..)⟩
  · intro s p hp hdue
    exact ⟨_, (exec_pdelayReqTx s hp).trans (congrArg _ (whenever_true hdue)), sendPdelay_unanswered_shows s p⟩
  · intro s p hp hdue
    rw [exec_pdelayReqTx s hp, whenever_false hdue]
  · intro s p q id t2 hp hon hup
    exact ⟨_, exec_pdelayReqRx q id t2 hp hon hup, gptpSend_ptp .., fun hopen => answerPdelay_enters p q id _ hopen,
      fun hclosed => answerPdelay_waits p q id _ hclosed⟩
  · intro s p q t2 t3 t4 t1 hp hasked ht1
    have hexec := exec_pdelayRespRx_complete t2 t3 t4 hp hasked ht1
    exact ⟨fun hnear => hexec.trans (congrArg _ (if_pos hnear)), fun hfar => hexec.trans (congrArg _ (if_neg hfar))⟩
  · intro s d p x hd hp hx
    exact ⟨fun hcap hup => (exec_followUpTx hd hp hx).trans (congrArg _ (sendFollowUp_sends hcap hup)),
      fun h => (exec_followUpTx hd hp hx).trans (congrArg _ (sendFollowUp_drops h))⟩

end Sys2Proof.Proofs
end

section
/-!
What every command keeps, and every step: a command changes no part of the state but those listed for it, it leaves
the queue, and no step breaks the canonical form of the register file and the forwarding memory or clears a programmed
OTP bit. The lemmas `fr_f`, `keep_f` and `Queue.c` of Laws/ are put together here, command by command.
-/
namespace Sys2Proof.Proofs
open Sys2Proof Sys2Proof.Machine Sys2Proof.Laws

/-! ### From a set of fields to a list of parts -/

/-- Every part of the state whose field the set `F` of `Frm` holds stands in the list. -/
def listed (F : Nat) (l : List Part) : Bool :=
  (.pending :: anyPart).all fun p => !F.testBit (partBit p) || l.contains p

/-- The field of a part that is not in the list is not in the set. -/
theorem testBit_of_listed {F : Nat} {l : List Part} {p : Part} (h : listed F l = true) (hp : p ∉ l) :
    F.testBit (partBit p) = false := by
  have hall : p ∈ Part.pending :: anyPart := by cases p <;> decide
  simpa [hp] using List.all_eq_true.1 h p hall

/-- A state that differs from another by the fields of a set only, all of them listed. -/
theorem sameBut_of_frm {F : Nat} {l : List Part} {s t : State} (h : Frm F s t) (hl : listed F l = true) :
    SameBut l s t := fun p hp =>
  frm_same h (testBit_of_listed hl hp)

/-! ### Every command -/

/-- What holds of every command: it does not list the queue, it changes only the parts that it lists, and it keeps what
`Kept` watches. -/
structure Behaves (c : Instr) (s : State) : Prop where
  queue : Part.pending ∉ touches c
  frame : ∀ t, exec c s = .next t → SameBut (touches c) s t
  kept : ∀ k, Kept k s → KeptR k (exec c s)

/-- `Behaves` from the three lemmas of Laws/ about a command: the fields that its frame lemma names must be listed. -/
theorem behaves_of {F : Nat} {c : Instr} {s : State} (hq : Queue.Statement c)
    (hfr : ∀ {G : Nat} {b : State}, F ||| G = G → Frm G b s → FrmR G b (exec c s))
    (hk : ∀ {k : Watch}, Kept k s → KeptR k (exec c s)) (hl : listed F (touches c) = true := by rfl) : Behaves c s where
  queue := hq
  frame t ht := by
    have h : FrmR F s (exec c s) := hfr (Nat.or_self F) frm_refl
    rw [ht] at h
    exact sameBut_of_frm h hl
  kept _ := hk

/-- One row for each command of the table. -/
theorem behaves (c : Instr) (s : State) : Behaves c s := by
  cases c with
  | registerWrite => exact behaves_of (Queue.registerWrite _ _ _ _) fr_execRegisterWrite keep_execRegisterWrite
  | pairLoRead => exact behaves_of (Queue.pairLoRead _ _) fr_execPairLoRead keep_execPairLoRead
  | pairHiWrite => exact behaves_of (Queue.pairHiWrite _ _ _) fr_execPairHiWrite keep_execPairHiWrite
  | pairLoWrite => exact behaves_of (Queue.pairLoWrite _ _ _) fr_execPairLoWrite keep_execPairLoWrite
  | ownerWrite => exact behaves_of (Queue.ownerWrite _ _ _) fr_execOwnerWrite keep_execOwnerWrite
  | semTasRead => exact behaves_of (Queue.semTasRead _ _) fr_execSemTasRead keep_execSemTasRead
  | semRelease => exact behaves_of (Queue.semRelease _ _) fr_execSemRelease keep_execSemRelease
  | commitGo => exact behaves_of (Queue.commitGo _ _) fr_execCommitGo keep_execCommitGo
  | commitDiscard => exact behaves_of (Queue.commitDiscard _) fr_execCommitDiscard keep_execCommitDiscard
  | commitCheckEnd => exact behaves_of Queue.commitCheckEnd fr_execCommitCheckEnd keep_execCommitCheckEnd
  | commitApply => exact behaves_of Queue.commitApply fr_execCommitApply keep_execCommitApply
  | errcapClear => exact behaves_of (Queue.errcapClear _ _) fr_execErrcapClear keep_execErrcapClear
  | irqClrWrite => exact behaves_of (Queue.irqClrWrite _ _ _) fr_execIrqClrWrite keep_execIrqClrWrite
  | irqEnWrite => exact behaves_of (Queue.irqEnWrite _ _ _) fr_execIrqEnWrite keep_execIrqEnWrite
  | msixUnmask => exact behaves_of (Queue.msixUnmask _ _) fr_execMsixUnmask keep_execMsixUnmask
  | hostLinkDown => exact behaves_of (Queue.hostLinkDown _) fr_execHostLinkDown keep_execHostLinkDown
  | ringEnable => exact behaves_of (Queue.ringEnable _ _ _) fr_execRingEnable keep_execRingEnable
  | ringDisable => exact behaves_of (Queue.ringDisable _ _ _) fr_execRingDisable keep_execRingDisable
  | ringDrained => exact behaves_of (Queue.ringDrained _) fr_execRingDrained keep_execRingDrained
  | ringTailWrite => exact behaves_of (Queue.ringTailWrite _ _ _) fr_execRingTailWrite keep_execRingTailWrite
  | txFrameEnter => exact behaves_of (Queue.txFrameEnter _ _ _ _ _) fr_execTxFrameEnter keep_execTxFrameEnter
  | txLaunch => exact behaves_of (Queue.txLaunch _ _ _) fr_execTxLaunch keep_execTxLaunch
  | txCompletion => exact behaves_of (Queue.txCompletion _ _ _) fr_execTxCompletion keep_execTxCompletion
  | rxFrameDma => exact behaves_of (Queue.rxFrameDma _ _ _) fr_execRxFrameDma keep_execRxFrameDma
  | ringInterrupt => exact behaves_of (Queue.ringInterrupt _) fr_execRingInterrupt keep_execRingInterrupt
  | coalTimerExpire => exact behaves_of (Queue.coalTimerExpire _) fr_execCoalTimerExpire keep_execCoalTimerExpire
  | info => exact behaves_of (Queue.info _) fr_execInfo keep_execInfo
  | modeReqSleepRetain =>
    exact behaves_of (Queue.modeReqSleepRetain _) fr_execModeReqSleepRetain keep_execModeReqSleepRetain
  | modeReqSleepDeep => exact behaves_of (Queue.modeReqSleepDeep _) fr_execModeReqSleepDeep keep_execModeReqSleepDeep
  | modeReqService => exact behaves_of (Queue.modeReqService _) fr_execModeReqService keep_execModeReqService
  | modeReqReset => exact behaves_of (Queue.modeReqReset _) fr_execModeReqReset keep_execModeReqReset
  | modeReqRun => exact behaves_of (Queue.modeReqRun _) fr_execModeReqRun keep_execModeReqRun
  | testReq => exact behaves_of (Queue.testReq _) fr_execTestReq keep_execTestReq
  | siltCheckpoint => exact behaves_of (Queue.siltCheckpoint _) fr_execSiltCheckpoint keep_execSiltCheckpoint
  | siltCheckpointRecord =>
    exact behaves_of Queue.siltCheckpointRecord fr_execSiltCheckpointRecord keep_execSiltCheckpointRecord
  | siltAckWrite => exact behaves_of (Queue.siltAckWrite _ _ _) fr_execSiltAckWrite keep_execSiltAckWrite
  | cycleBoundary => exact behaves_of Queue.cycleBoundary fr_execCycleBoundary keep_execCycleBoundary
  | forcedSyncPoint => exact behaves_of Queue.forcedSyncPoint fr_execForcedSyncPoint keep_execForcedSyncPoint
  | nettimeRefEvent => exact behaves_of Queue.nettimeRefEvent fr_execNettimeRefEvent keep_execNettimeRefEvent
  | tickAccepted => exact behaves_of (Queue.tickAccepted _) fr_execTickAccepted keep_execTickAccepted
  | tickRunt => exact behaves_of (Queue.tickRunt _) fr_execTickRunt keep_execTickRunt
  | tickLoss => exact behaves_of Queue.tickLoss fr_execTickLoss keep_execTickLoss
  | encCount => exact behaves_of (Queue.encCount _) fr_execEncCount keep_execEncCount
  | encIndex => exact behaves_of (Queue.encIndex _) fr_execEncIndex keep_execEncIndex
  | encBackward => exact behaves_of (Queue.encBackward _) fr_execEncBackward keep_execEncBackward
  | encIllegal => exact behaves_of (Queue.encIllegal _) fr_execEncIllegal keep_execEncIllegal
  | pbStandstill => exact behaves_of Queue.pbStandstill fr_execPbStandstill keep_execPbStandstill
  | joinDone => exact behaves_of Queue.joinDone fr_execJoinDone keep_execJoinDone
  | capEdge => exact behaves_of (Queue.capEdge _ _) fr_execCapEdge keep_execCapEdge
  | capNsRead => exact behaves_of (Queue.capNsRead _ _) fr_execCapNsRead keep_execCapNsRead
  | capStatRead => exact behaves_of (Queue.capStatRead _ _) fr_execCapStatRead keep_execCapStatRead
  | ppoArm => exact behaves_of (Queue.ppoArm _ _ _) fr_execPpoArm keep_execPpoArm
  | ppoFire => exact behaves_of (Queue.ppoFire _) fr_execPpoFire keep_execPpoFire
  | frameReceive => exact behaves_of (Queue.frameReceive _ _ _ _ _) fr_execFrameReceive keep_execFrameReceive
  | lossCondition => exact behaves_of (Queue.lossCondition _ _) fr_execLossCondition keep_execLossCondition
  | linkDown => exact behaves_of (Queue.linkDown _) fr_execLinkDown keep_execLinkDown
  | flushDone => exact behaves_of (Queue.flushDone _) fr_execFlushDone keep_execFlushDone
  | fdbPortPurge => exact behaves_of (Queue.fdbPortPurge _) fr_execFdbPortPurge keep_execFdbPortPurge
  | linkUp => exact behaves_of (Queue.linkUp _) fr_execLinkUp keep_execLinkUp
  | altModeSwitch => exact behaves_of (Queue.altModeSwitch _) fr_execAltModeSwitch keep_execAltModeSwitch
  | mmVerifyResponse => exact behaves_of (Queue.mmVerifyResponse _) fr_execMmVerifyResponse keep_execMmVerifyResponse
  | mmVerifyTimeout => exact behaves_of (Queue.mmVerifyTimeout _) fr_execMmVerifyTimeout keep_execMmVerifyTimeout
  | mmFragmentReceive =>
    exact behaves_of (Queue.mmFragmentReceive _ _ _ _ _ _ _) fr_execMmFragmentReceive keep_execMmFragmentReceive
  | tc10SleepReq => exact behaves_of (Queue.tc10SleepReq _ _) fr_execTc10SleepReq keep_execTc10SleepReq
  | tc10WakeReq => exact behaves_of (Queue.tc10WakeReq _ _) fr_execTc10WakeReq keep_execTc10WakeReq
  | tc10SleepRequestRx =>
    exact behaves_of (Queue.tc10SleepRequestRx _) fr_execTc10SleepRequestRx keep_execTc10SleepRequestRx
  | tc10HandshakeDone =>
    exact behaves_of (Queue.tc10HandshakeDone _) fr_execTc10HandshakeDone keep_execTc10HandshakeDone
  | tc10SleepFail => exact behaves_of (Queue.tc10SleepFail _) fr_execTc10SleepFail keep_execTc10SleepFail
  | tc10Wup => exact behaves_of (Queue.tc10Wup _) fr_execTc10Wup keep_execTc10Wup
  | tc10Wur => exact behaves_of (Queue.tc10Wur _) fr_execTc10Wur keep_execTc10Wur
  | mdioC22Write => exact behaves_of (Queue.mdioC22Write _ _ _ _) fr_execMdioC22Write keep_execMdioC22Write
  | mdioC22Read => exact behaves_of (Queue.mdioC22Read _ _ _ _) fr_execMdioC22Read keep_execMdioC22Read
  | mdioC45Write => exact behaves_of (Queue.mdioC45Write _ _ _ _) fr_execMdioC45Write keep_execMdioC45Write
  | mdioC45Read => exact behaves_of (Queue.mdioC45Read _ _ _ _) fr_execMdioC45Read keep_execMdioC45Read
  | mdioDone => exact behaves_of (Queue.mdioDone _ _) fr_execMdioDone keep_execMdioDone
  | sdsPrbsWrite => exact behaves_of (Queue.sdsPrbsWrite _ _ _) fr_execSdsPrbsWrite keep_execSdsPrbsWrite
  | cableTestStart => exact behaves_of (Queue.cableTestStart _ _) fr_execCableTestStart keep_execCableTestStart
  | diagDone => exact behaves_of (Queue.diagDone _ _ _) fr_execDiagDone keep_execDiagDone
  | parseDispatch => exact behaves_of (Queue.parseDispatch _ _) fr_execParseDispatch keep_execParseDispatch
  | dispatchWait => exact behaves_of (Queue.dispatchWait _) fr_execDispatchWait keep_execDispatchWait
  | parseResume => exact behaves_of (Queue.parseResume _) fr_execParseResume keep_execParseResume
  | deepParseEnd => exact behaves_of (Queue.deepParseEnd _) fr_execDeepParseEnd keep_execDeepParseEnd
  | endCheck => exact behaves_of (Queue.endCheck _) fr_execEndCheck keep_execEndCheck
  | prsCaptArm => exact behaves_of (Queue.prsCaptArm _ _) fr_execPrsCaptArm keep_execPrsCaptArm
  | lookupStage => exact behaves_of (Queue.lookupStage _) fr_execLookupStage keep_execLookupStage
  | tueRead => exact behaves_of (Queue.tueRead _ _) fr_execTueRead keep_execTueRead
  | tueWrite => exact behaves_of (Queue.tueWrite _ _ _ _) fr_execTueWrite keep_execTueWrite
  | tueInsert => exact behaves_of (Queue.tueInsert _ _ _ _) fr_execTueInsert keep_execTueInsert
  | tueDelete => exact behaves_of (Queue.tueDelete _ _ _ _) fr_execTueDelete keep_execTueDelete
  | tueSearch => exact behaves_of (Queue.tueSearch _ _ _ _) fr_execTueSearch keep_execTueSearch
  | tueFlush => exact behaves_of (Queue.tueFlush _ _) fr_execTueFlush keep_execTueFlush
  | overlayCopyOut => exact behaves_of (Queue.overlayCopyOut _ _) fr_execOverlayCopyOut keep_execOverlayCopyOut
  | overlayRetire => exact behaves_of (Queue.overlayRetire _ _) fr_execOverlayRetire keep_execOverlayRetire
  | learnRelease => exact behaves_of (Queue.learnRelease _) fr_execLearnRelease keep_execLearnRelease
  | learnApply => exact behaves_of Queue.learnApply fr_execLearnApply keep_execLearnApply
  | flapIntervalEnd => exact behaves_of Queue.flapIntervalEnd fr_execFlapIntervalEnd keep_execFlapIntervalEnd
  | tueFrozenClear => exact behaves_of (Queue.tueFrozenClear _ _ _) fr_execTueFrozenClear keep_execTueFrozenClear
  | ageingSweep => exact behaves_of Queue.ageingSweep fr_execAgeingSweep keep_execAgeingSweep
  | policyStage => exact behaves_of (Queue.policyStage _) fr_execPolicyStage keep_execPolicyStage
  | flowSweep => exact behaves_of Queue.flowSweep fr_execFlowSweep keep_execFlowSweep
  | halfReady => exact behaves_of (Queue.halfReady _) fr_execHalfReady keep_execHalfReady
  | loneWaitExpire => exact behaves_of (Queue.loneWaitExpire _) fr_execLoneWaitExpire keep_execLoneWaitExpire
  | copyOpen => exact behaves_of (Queue.copyOpen _ _) fr_execCopyOpen keep_execCopyOpen
  | halfRead => exact behaves_of (Queue.halfRead _) fr_execHalfRead keep_execHalfRead
  | halfRelease => exact behaves_of (Queue.halfRelease _ _) fr_execHalfRelease keep_execHalfRelease
  | txUnderrun => exact behaves_of (Queue.txUnderrun _) fr_execTxUnderrun keep_execTxUnderrun
  | egressDecision => exact behaves_of (Queue.egressDecision _ _) fr_execEgressDecision keep_execEgressDecision
  | lineFree => exact behaves_of (Queue.lineFree _) fr_execLineFree keep_execLineFree
  | bucketRefill => exact behaves_of Queue.bucketRefill fr_execBucketRefill keep_execBucketRefill
  | gclEntryBegin => exact behaves_of (Queue.gclEntryBegin _) fr_execGclEntryBegin keep_execGclEntryBegin
  | gclListBoundary => exact behaves_of (Queue.gclListBoundary _) fr_execGclListBoundary keep_execGclListBoundary
  | preemptResume => exact behaves_of (Queue.preemptResume _) fr_execPreemptResume keep_execPreemptResume
  | gclDataWrite => exact behaves_of (Queue.gclDataWrite _ _ _) fr_execGclDataWrite keep_execGclDataWrite
  | shedReexamine => exact behaves_of (Queue.shedReexamine _) fr_execShedReexamine keep_execShedReexamine
  | canBusIntegrationDone =>
    exact behaves_of (Queue.canBusIntegrationDone _) fr_execCanBusIntegrationDone keep_execCanBusIntegrationDone
  | canModeAtIdle => exact behaves_of (Queue.canModeAtIdle _) fr_execCanModeAtIdle keep_execCanModeAtIdle
  | canFrameReceived =>
    exact behaves_of (Queue.canFrameReceived _ _ _) fr_execCanFrameReceived keep_execCanFrameReceived
  | canError => exact behaves_of (Queue.canError _ _) fr_execCanError keep_execCanError
  | canBoRecover => exact behaves_of (Queue.canBoRecover _ _) fr_execCanBoRecover keep_execCanBoRecover
  | busoffRecovered => exact behaves_of (Queue.busoffRecovered _) fr_execBusoffRecovered keep_execBusoffRecovered
  | canPendingWrite => exact behaves_of (Queue.canPendingWrite _) fr_execCanPendingWrite keep_execCanPendingWrite
  | canBufferReady => exact behaves_of (Queue.canBufferReady _ _ _) fr_execCanBufferReady keep_execCanBufferReady
  | canSelection => exact behaves_of (Queue.canSelection _) fr_execCanSelection keep_execCanSelection
  | canArbLost => exact behaves_of (Queue.canArbLost _ _) fr_execCanArbLost keep_execCanArbLost
  | canTxOk => exact behaves_of (Queue.canTxOk _) fr_execCanTxOk keep_execCanTxOk
  | canTxsGo => exact behaves_of (Queue.canTxsGo _ _) fr_execCanTxsGo keep_execCanTxsGo
  | canCancelTag => exact behaves_of (Queue.canCancelTag _ _ _) fr_execCanCancelTag keep_execCanCancelTag
  | canCancelAll => exact behaves_of (Queue.canCancelAll _ _) fr_execCanCancelAll keep_execCanCancelAll
  | canCancelSample => exact behaves_of (Queue.canCancelSample _) fr_execCanCancelSample keep_execCanCancelSample
  | canCancelAbort => exact behaves_of (Queue.canCancelAbort _) fr_execCanCancelAbort keep_execCanCancelAbort
  | canTxevRead => exact behaves_of (Queue.canTxevRead _ _) fr_execCanTxevRead keep_execCanTxevRead
  | canRxqPop => exact behaves_of (Queue.canRxqPop _ _ _) fr_execCanRxqPop keep_execCanRxqPop
  | canWindowOverrun => exact behaves_of (Queue.canWindowOverrun _) fr_execCanWindowOverrun keep_execCanWindowOverrun
  | canAuthSet => exact behaves_of (Queue.canAuthSet _ _) fr_execCanAuthSet keep_execCanAuthSet
  | authRsvRaise => exact behaves_of (Queue.authRsvRaise _) fr_execAuthRsvRaise keep_execAuthRsvRaise
  | linScheduleEntry => exact behaves_of (Queue.linScheduleEntry _) fr_execLinScheduleEntry keep_execLinScheduleEntry
  | linHeaderRx => exact behaves_of (Queue.linHeaderRx _ _ _) fr_execLinHeaderRx keep_execLinHeaderRx
  | linResponseRx => exact behaves_of (Queue.linResponseRx _ _ _) fr_execLinResponseRx keep_execLinResponseRx
  | linNoResponse => exact behaves_of (Queue.linNoResponse _) fr_execLinNoResponse keep_execLinNoResponse
  | linIdleSleep => exact behaves_of (Queue.linIdleSleep _) fr_execLinIdleSleep keep_execLinIdleSleep
  | linWakeTx => exact behaves_of (Queue.linWakeTx _ _) fr_execLinWakeTx keep_execLinWakeTx
  | linWakeDetect => exact behaves_of (Queue.linWakeDetect _) fr_execLinWakeDetect keep_execLinWakeDetect
  | gweEnqueue => exact behaves_of Queue.gweEnqueue fr_execGweEnqueue keep_execGweEnqueue
  | routeAdmit => exact behaves_of Queue.routeAdmit fr_execRouteAdmit keep_execRouteAdmit
  | gweReinject => exact behaves_of (Queue.gweReinject _) fr_execGweReinject keep_execGweReinject
  | batchHoldExpire => exact behaves_of (Queue.batchHoldExpire _) fr_execBatchHoldExpire keep_execBatchHoldExpire
  | batchFrameEnter => exact behaves_of Queue.batchFrameEnter fr_execBatchFrameEnter keep_execBatchFrameEnter
  | gweDecapsulate => exact behaves_of Queue.gweDecapsulate fr_execGweDecapsulate keep_execGweDecapsulate
  | gweTblRead => exact behaves_of (Queue.gweTblRead _) fr_execGweTblRead keep_execGweTblRead
  | gweTblStage => exact behaves_of (Queue.gweTblStage _) fr_execGweTblStage keep_execGweTblStage
  | gweTblReadPending =>
    exact behaves_of (Queue.gweTblReadPending _) fr_execGweTblReadPending keep_execGweTblReadPending
  | ptpSyncRx => exact behaves_of (Queue.ptpSyncRx _ _ _ _ _ _) fr_execPtpSyncRx keep_execPtpSyncRx
  | ptpFollowUpRx => exact behaves_of (Queue.ptpFollowUpRx _ _ _ _) fr_execPtpFollowUpRx keep_execPtpFollowUpRx
  | fuMissing => exact behaves_of (Queue.fuMissing _) fr_execFuMissing keep_execFuMissing
  | ptpSyncTimeout => exact behaves_of (Queue.ptpSyncTimeout _) fr_execPtpSyncTimeout keep_execPtpSyncTimeout
  | ptpHoldExpire => exact behaves_of (Queue.ptpHoldExpire _) fr_execPtpHoldExpire keep_execPtpHoldExpire
  | ptpSetGo => exact behaves_of (Queue.ptpSetGo _ _) fr_execPtpSetGo keep_execPtpSetGo
  | pdelayReqTx => exact behaves_of (Queue.pdelayReqTx _) fr_execPdelayReqTx keep_execPdelayReqTx
  | pdelayReqRx => exact behaves_of (Queue.pdelayReqRx _ _ _ _) fr_execPdelayReqRx keep_execPdelayReqRx
  | pdelayRespRx => exact behaves_of (Queue.pdelayRespRx _ _ _ _ _) fr_execPdelayRespRx keep_execPdelayRespRx
  | syncRelay => exact behaves_of (Queue.syncRelay _ _ _ _ _) fr_execSyncRelay keep_execSyncRelay
  | followUpTx => exact behaves_of (Queue.followUpTx _ _) fr_execFollowUpTx keep_execFollowUpTx
  | syncOriginate => exact behaves_of (Queue.syncOriginate _) fr_execSyncOriginate keep_execSyncOriginate
  | saInstall => exact behaves_of (Queue.saInstall _ _ _ _) fr_execSaInstall keep_execSaInstall
  | saRemove => exact behaves_of (Queue.saRemove _ _ _ _) fr_execSaRemove keep_execSaRemove
  | encSaWrite => exact behaves_of (Queue.encSaWrite _ _ _) fr_execEncSaWrite keep_execEncSaWrite
  | katRotation => exact behaves_of (Queue.katRotation _) fr_execKatRotation keep_execKatRotation
  | katComplete => exact behaves_of (Queue.katComplete _ _) fr_execKatComplete keep_execKatComplete
  | aesCtrEnc => exact behaves_of (Queue.aesCtrEnc _ _ _ _) fr_execAesCtrEnc keep_execAesCtrEnc
  | aesCtrDec => exact behaves_of (Queue.aesCtrDec _ _ _ _) fr_execAesCtrDec keep_execAesCtrDec
  | aesGcmEnc => exact behaves_of (Queue.aesGcmEnc _ _ _ _) fr_execAesGcmEnc keep_execAesGcmEnc
  | aesGcmDec => exact behaves_of (Queue.aesGcmDec _ _ _ _) fr_execAesGcmDec keep_execAesGcmDec
  | aesCmacGen => exact behaves_of (Queue.aesCmacGen _ _ _ _) fr_execAesCmacGen keep_execAesCmacGen
  | aesCmacVer => exact behaves_of (Queue.aesCmacVer _ _ _ _) fr_execAesCmacVer keep_execAesCmacVer
  | aesCmacFv => exact behaves_of (Queue.aesCmacFv _ _ _ _) fr_execAesCmacFv keep_execAesCmacFv
  | aesKwWrap => exact behaves_of (Queue.aesKwWrap _ _ _ _) fr_execAesKwWrap keep_execAesKwWrap
  | aesKwUnwrap => exact behaves_of (Queue.aesKwUnwrap _ _ _ _) fr_execAesKwUnwrap keep_execAesKwUnwrap
  | sha256 => exact behaves_of (Queue.sha256 _ _ _ _) fr_execSha256 keep_execSha256
  | sha384 => exact behaves_of (Queue.sha384 _ _ _ _) fr_execSha384 keep_execSha384
  | hmacSha256 => exact behaves_of (Queue.hmacSha256 _ _ _ _) fr_execHmacSha256 keep_execHmacSha256
  | hmacSha384 => exact behaves_of (Queue.hmacSha384 _ _ _ _) fr_execHmacSha384 keep_execHmacSha384
  | ecdsaSign => exact behaves_of (Queue.ecdsaSign _ _ _ _) fr_execEcdsaSign keep_execEcdsaSign
  | ecdsaVerify => exact behaves_of (Queue.ecdsaVerify _ _ _ _) fr_execEcdsaVerify keep_execEcdsaVerify
  | ecdh => exact behaves_of (Queue.ecdh _ _ _ _) fr_execEcdh keep_execEcdh
  | drbgGen => exact behaves_of (Queue.drbgGen _ _ _) fr_execDrbgGen keep_execDrbgGen
  | drbgReseed => exact behaves_of (Queue.drbgReseed _ _ _) fr_execDrbgReseed keep_execDrbgReseed
  | invFence => exact behaves_of (Queue.invFence _ _) fr_execInvFence keep_execInvFence
  | lookasideComplete =>
    exact behaves_of (Queue.lookasideComplete _) fr_execLookasideComplete keep_execLookasideComplete
  | mkpduRx => exact behaves_of (Queue.mkpduRx _ _) fr_execMkpduRx keep_execMkpduRx
  | mkaHello => exact behaves_of (Queue.mkaHello _) fr_execMkaHello keep_execMkaHello
  | mkaPeerTimeout => exact behaves_of (Queue.mkaPeerTimeout _ _) fr_execMkaPeerTimeout keep_execMkaPeerTimeout
  | kumInstall => exact behaves_of (Queue.kumInstall _) fr_execKumInstall keep_execKumInstall
  | kumDerive => exact behaves_of (Queue.kumDerive _) fr_execKumDerive keep_execKumDerive
  | kumInvalidate => exact behaves_of (Queue.kumInvalidate _) fr_execKumInvalidate keep_execKumInvalidate
  | kumLcAdvance => exact behaves_of (Queue.kumLcAdvance _) fr_execKumLcAdvance keep_execKumLcAdvance
  | kumFirst => exact behaves_of (Queue.kumFirst _) fr_execKumFirst keep_execKumFirst
  | lcGraceReset => exact behaves_of Queue.lcGraceReset fr_execLcGraceReset keep_execLcGraceReset
  | updActivate => exact behaves_of (Queue.updActivate _) fr_execUpdActivate keep_execUpdActivate
  | updActivateReset => exact behaves_of (Queue.updActivateReset _) fr_execUpdActivateReset keep_execUpdActivateReset
  | updCancel => exact behaves_of (Queue.updCancel _) fr_execUpdCancel keep_execUpdCancel
  | updVeto => exact behaves_of (Queue.updVeto _) fr_execUpdVeto keep_execUpdVeto
  | oemKeySet => exact behaves_of (Queue.oemKeySet _) fr_execOemKeySet keep_execOemKeySet
  | roleSwap => exact behaves_of (Queue.roleSwap _) fr_execRoleSwap keep_execRoleSwap
  | swapPoint => exact behaves_of Queue.swapPoint fr_execSwapPoint keep_execSwapPoint
  | swapAbort => exact behaves_of Queue.swapAbort fr_execSwapAbort keep_execSwapAbort
  | swapCondition => exact behaves_of (Queue.swapCondition _) fr_execSwapCondition keep_execSwapCondition
  | twnKick => exact behaves_of (Queue.twnKick _) fr_execTwnKick keep_execTwnKick
  | kickTimeout => exact behaves_of Queue.kickTimeout fr_execKickTimeout keep_execKickTimeout
  | heartbeatTx => exact behaves_of Queue.heartbeatTx fr_execHeartbeatTx keep_execHeartbeatTx
  | heartbeatRx => exact behaves_of (Queue.heartbeatRx _ _) fr_execHeartbeatRx keep_execHeartbeatRx
  | heartbeatSilent => exact behaves_of (Queue.heartbeatSilent _) fr_execHeartbeatSilent keep_execHeartbeatSilent
  | takeoverTask => exact behaves_of Queue.takeoverTask fr_execTakeoverTask keep_execTakeoverTask
  | claimWindow => exact behaves_of (Queue.claimWindow _) fr_execClaimWindow keep_execClaimWindow
  | claimLowRead => exact behaves_of Queue.claimLowRead fr_execClaimLowRead keep_execClaimLowRead
  | arbitrationStart => exact behaves_of Queue.arbitrationStart fr_execArbitrationStart keep_execArbitrationStart
  | observeEnd => exact behaves_of Queue.observeEnd fr_execObserveEnd keep_execObserveEnd
  | graceEnd => exact behaves_of Queue.graceEnd fr_execGraceEnd keep_execGraceEnd
  | slRecordRx => exact behaves_of (Queue.slRecordRx _ _) fr_execSlRecordRx keep_execSlRecordRx
  | slLack => exact behaves_of Queue.slLack fr_execSlLack keep_execSlLack
  | slRetransmit => exact behaves_of Queue.slRetransmit fr_execSlRetransmit keep_execSlRetransmit
  | joinReqRx => exact behaves_of Queue.joinReqRx fr_execJoinReqRx keep_execJoinReqRx
  | joinEndRx => exact behaves_of (Queue.joinEndRx _ _ _ _) fr_execJoinEndRx keep_execJoinEndRx
  | syncApply => exact behaves_of (Queue.syncApply _) fr_execSyncApply keep_execSyncApply
  | digestRecomputeDone =>
    exact behaves_of (Queue.digestRecomputeDone _) fr_execDigestRecomputeDone keep_execDigestRecomputeDone
  | syncAckRx => exact behaves_of (Queue.syncAckRx _ _ _) fr_execSyncAckRx keep_execSyncAckRx
  | commitRecordRx => exact behaves_of (Queue.commitRecordRx _ _ _ _ _) fr_execCommitRecordRx keep_execCommitRecordRx
  | commitAckRx => exact behaves_of (Queue.commitAckRx _ _) fr_execCommitAckRx keep_execCommitAckRx
  | roleAnnounce => exact behaves_of Queue.roleAnnounce fr_execRoleAnnounce keep_execRoleAnnounce
  | lockstepMismatch =>
    exact behaves_of (Queue.lockstepMismatch _ _ _) fr_execLockstepMismatch keep_execLockstepMismatch
  | taskCommit => exact behaves_of (Queue.taskCommit _ _) fr_execTaskCommit keep_execTaskCommit
  | taskOverrun _ task =>
    exact behaves_of (Queue.taskOverrun _ _) (fr_execTaskOverrun (a1 := task)) (keep_execTaskOverrun (a1 := task))
  | scrubPass => exact behaves_of (Queue.scrubPass _) fr_execScrubPass keep_execScrubPass
  | dpStall => exact behaves_of (Queue.dpStall _) fr_execDpStall keep_execDpStall
  | portStall => exact behaves_of (Queue.portStall _) fr_execPortStall keep_execPortStall
  | clockFail mclk =>
    exact behaves_of (Queue.clockFail _) (fr_execClockFail (a0 := mclk)) (keep_execClockFail (a0 := mclk))
  | supplyFail => exact behaves_of (Queue.supplyFail _) fr_execSupplyFail keep_execSupplyFail
  | faultReport => exact behaves_of Queue.faultReport fr_execFaultReport keep_execFaultReport
  | coalesce => exact behaves_of Queue.coalesce fr_execCoalesce keep_execCoalesce
  | windowClose => exact behaves_of (Queue.windowClose _) fr_execWindowClose keep_execWindowClose
  | faultRecordWrite => exact behaves_of Queue.faultRecordWrite fr_execFaultRecordWrite keep_execFaultRecordWrite
  | memInjArm => exact behaves_of (Queue.memInjArm _ _) fr_execMemInjArm keep_execMemInjArm
  | lspInjOnce => exact behaves_of (Queue.lspInjOnce _ _) fr_execLspInjOnce keep_execLspInjOnce
  | lspInjAsync => exact behaves_of (Queue.lspInjAsync _ _) fr_execLspInjAsync keep_execLspInjAsync
  | lspInjPersist => exact behaves_of (Queue.lspInjPersist _ _) fr_execLspInjPersist keep_execLspInjPersist
  | fltInjGo => exact behaves_of (Queue.fltInjGo _ _) fr_execFltInjGo keep_execFltInjGo
  | sleepEntryStop => exact behaves_of Queue.sleepEntryStop fr_execSleepEntryStop keep_execSleepEntryStop
  | sleepDrainEnd => exact behaves_of Queue.sleepDrainEnd fr_execSleepDrainEnd keep_execSleepDrainEnd
  | sleepCheckpointDone =>
    exact behaves_of Queue.sleepCheckpointDone fr_execSleepCheckpointDone keep_execSleepCheckpointDone
  | suppliesOff => exact behaves_of Queue.suppliesOff fr_execSuppliesOff keep_execSuppliesOff
  | wakePinAssert => exact behaves_of (Queue.wakePinAssert _) fr_execWakePinAssert keep_execWakePinAssert
  | wakeTimerExpire => exact behaves_of Queue.wakeTimerExpire fr_execWakeTimerExpire keep_execWakeTimerExpire
  | powerOn => exact behaves_of Queue.powerOn fr_execPowerOn keep_execPowerOn
  | resetPin => exact behaves_of Queue.resetPin fr_execResetPin keep_execResetPin
  | tamperAssert => exact behaves_of Queue.tamperAssert fr_execTamperAssert keep_execTamperAssert
  | glitchDetect => exact behaves_of (Queue.glitchDetect _) fr_execGlitchDetect keep_execGlitchDetect
  | temperatureLimit => exact behaves_of Queue.temperatureLimit fr_execTemperatureLimit keep_execTemperatureLimit
  | updSessionOpen => exact behaves_of (Queue.updSessionOpen _ _) fr_execUpdSessionOpen keep_execUpdSessionOpen
  | updSessionClose => exact behaves_of (Queue.updSessionClose _ _) fr_execUpdSessionClose keep_execUpdSessionClose
  | updWrite => exact behaves_of (Queue.updWrite _ _ _) fr_execUpdWrite keep_execUpdWrite
  | updFinish => exact behaves_of (Queue.updFinish _) fr_execUpdFinish keep_execUpdFinish
  | updAbort => exact behaves_of (Queue.updAbort _) fr_execUpdAbort keep_execUpdAbort
  | relayRecordRx => exact behaves_of (Queue.relayRecordRx _ _ _) fr_execRelayRecordRx keep_execRelayRecordRx
  | relayFrameRx => exact behaves_of (Queue.relayFrameRx _ _) fr_execRelayFrameRx keep_execRelayFrameRx
  | relayRetransmit => exact behaves_of (Queue.relayRetransmit _) fr_execRelayRetransmit keep_execRelayRetransmit
  | trialWindowEnd => exact behaves_of Queue.trialWindowEnd fr_execTrialWindowEnd keep_execTrialWindowEnd
  | supplyRetry => exact behaves_of Queue.supplyRetry fr_execSupplyRetry keep_execSupplyRetry
  | lossConditionClear =>
    exact behaves_of (Queue.lossConditionClear _ _) fr_execLossConditionClear keep_execLossConditionClear
  | claimHighRead => exact behaves_of Queue.claimHighRead fr_execClaimHighRead keep_execClaimHighRead
  | inputLinkWrite => exact behaves_of (Queue.inputLinkWrite _) fr_execInputLinkWrite keep_execInputLinkWrite
  | flashWriteDone => exact behaves_of (Queue.flashWriteDone _) fr_execFlashWriteDone keep_execFlashWriteDone
  | hostLinkUp => exact behaves_of (Queue.hostLinkUp _ _ _) fr_execHostLinkUp keep_execHostLinkUp
  | busyhit => exact behaves_of (Queue.busyhit _) fr_execBusyhit keep_execBusyhit

/-- Settles O9: the frame of every command. -/
theorem commandsChangeOnlyWhatTheyTouch : Obligations.CommandsChangeOnlyWhatTheyTouch := by
  unfold Obligations.CommandsChangeOnlyWhatTheyTouch
  exact fun c s => (behaves c s).frame

/-- Settles O8: the queue is a part that no command lists. -/
theorem commandsLeaveTheQueue : Obligations.CommandsLeaveTheQueue := by
  unfold Obligations.CommandsLeaveTheQueue
  exact fun c s t h => (behaves c s).frame t h .pending (behaves c s).queue

/-- A command answers a next state behind the check of its operands, and only that check refuses it. -/
theorem exec_ifWf (c : Instr) (s : State) : ∃ t, exec c s = ifWf c.wf t := by
  cases c <;> exact ⟨_, rfl⟩

/-- Settles O4: every arm of `exec` is behind the check of its operands. -/
theorem wellFormedCommandsComplete : Obligations.WellFormedCommandsComplete := by
  unfold Obligations.WellFormedCommandsComplete
  intro c s
  obtain ⟨t, ht⟩ := exec_ifWf c s
  exact ⟨fun h => ⟨t, ht.trans (ifWf_true h)⟩, fun h => ht.trans (ifWf_false h)⟩

/-! ### Every step -/

/-- Settles O1: by the definition of a step. -/
theorem stepRunsTheFrontCommand : Obligations.StepRunsTheFrontCommand := by
  unfold Obligations.StepRunsTheFrontCommand
  exact fun _ _ _ => rfl

/-- Settles O3: no row of the table has bits. -/
theorem noWordSpellsACommand : Obligations.NoWordSpellsACommand := by
  unfold Obligations.NoWordSpellsACommand
  exact fun _ _ _ => ⟨rfl, rfl⟩

/-- The state in which a step runs: the front command, where there is one, is off the queue. -/
def dequeued (s : State) : State := { s with pending := s.pending.tail }

theorem dequeued_nil {s : State} (h : s.pending = []) : dequeued s = s := by
  cases s
  cases h
  rfl

theorem dequeued_cons {s : State} {c : Instr} {rest : List Instr} (h : s.pending = c :: rest) :
    dequeued s = { s with pending := rest } := by
  rw [dequeued, h]
  rfl

/-- A step keeps what `Kept` watches, be it a command or an idle cycle. -/
theorem step_kept {s t : State} {k : Watch} (h : step s = .next t) (hk : Kept k (dequeued s)) : Kept k t := by
  unfold step at h
  split at h
  case h_1 hq =>
    rw [dequeued_nil hq] at hk
    obtain rfl := Host.Outcome.next.inj h
    exact keep_cclkTick hk
  case h_2 c rest hq =>
    rw [dequeued_cons hq] at hk
    have hnext := (behaves c _).kept k hk
    rwa [h] at hnext

/-- The watch over the queue that a step leaves and a bit of the OTP. -/
def watchOf (s : State) (i b : Nat) (was : Bool) : Watch := { queue := s.pending.tail, was := was, byte := i, bitNo := b }

/-- Settles O5: both tables are empty at reset. -/
theorem invariantAtReset : Obligations.InvariantAtReset := by
  unfold Obligations.InvariantAtReset
  exact ⟨rfl, rfl⟩

/-- Settles O6: by what every step keeps, whatever the OTP holds. -/
theorem everyStepKeepsTheInvariant : Obligations.EveryStepKeepsTheInvariant := by
  unfold Obligations.EveryStepKeepsTheInvariant
  intro s t hs h
  have hk : Kept (watchOf s 0 0 false) (dequeued s) := ⟨rfl, nofun, hs⟩
  obtain ⟨_, _, ht⟩ := step_kept h hk
  exact ht

/-- Settles O7: by what every step keeps, of a bit that is programmed before it. -/
theorem programmedOtpBitsStay : Obligations.ProgrammedOtpBitsStay := by
  unfold Obligations.ProgrammedOtpBitsStay
  intro s t i b hs hb h
  have hk : Kept (watchOf s i b true) (dequeued s) := ⟨rfl, fun _ => hb, hs⟩
  obtain ⟨_, ht, _⟩ := step_kept h hk
  exact ht rfl

end Sys2Proof.Proofs
end

section
/-!
A refused write (R45, R46): every command that is the write of a register runs behind the checks of R46, and what a
refusal leaves in the ERRCAP, the ERRADDR and the IRQ_RAW of its page, and in no other register.
-/
namespace Sys2Proof.Proofs
open Sys2Proof Sys2Proof.Machine Sys2Proof.Laws

/-! ### What a refusal leaves -/

theorem fld_eq (s : State) (a lo n : Nat) : s.fld a lo n = fld (s.reg a) lo n := rfl

/-- What a refusal does before ERRCAP: SILT_FULL counts in the Silt Log page. -/
def refusalNoted (s : State) (r : Refused) : State := if r = .siltFull then s.siltRefused else s

/-- The words of ERRCAP that a first refusal and a later one leave. -/
def errcapFirst (r : Refused) (w : Who) : Word :=
  w32 (refusedCode r + masterId w.m * 2 ^ 8 + b2n (worldSec w) * 2 ^ 12 + 2 ^ 16)

def errcapAgain (cap : Word) : Word :=
  w32 (putBits (putBits cap.toNat 14 1 1) 16 16 (min 0xFFFF (fld cap 16 16 + 1)))

/-- A refusal: counted where it is SILT_FULL, recorded in ERRCAP and ERRADDR, and ERR raised. -/
theorem refuse_eq (s : State) (p : Nat) (r : Refused) (w : Who) (a : Nat) :
    let u := refusalNoted s r
    s.refuse p r w a = State.raise (if u.fld (regAddr p 0x28) 16 16 = 0 then
        (u.setReg (regAddr p 0x28) (errcapFirst r w)).setReg (regAddr p 0x2C) (w32 (entryAddr w a % 2 ^ 24))
      else u.setReg (regAddr p 0x28) (errcapAgain (u.reg (regAddr p 0x28)))) p 31 := rfl

/-- A counted refusal changes registers of page SILT only, and of these neither an ERRCAP nor an ERRADDR. -/
theorem reg_refusalNoted {s : State} {r : Refused} {b : Nat}
    (h : b / 0x1000 ≠ pSilt ∨ b % 0x1000 = 0x28 ∨ b % 0x1000 = 0x2C) : (refusalNoted s r).reg b = s.reg b := by
  have hne : b ≠ aSilt 0x070 ∧ b ≠ aSilt 0x070 + 4 ∧ b ≠ regAddr pSilt 0x10 := by
    simp only [aSilt, regAddr, pSilt] at h ⊢
    omega
  obtain ⟨h70, h74, h10⟩ := hne
  simp only [refusalNoted]
  split
  · rw [State.siltRefused, reg_raise h10, reg_bump h70 h74]
  · rfl

theorem errcap_refusalNoted (s : State) (r : Refused) (p : Nat) :
    (refusalNoted s r).reg (regAddr p 0x28) = s.reg (regAddr p 0x28) :=
  reg_refusalNoted (.inr (.inl (by simp only [regAddr]; omega)))

theorem erraddr_refusalNoted (s : State) (r : Refused) (p : Nat) :
    (refusalNoted s r).reg (regAddr p 0x2C) = s.reg (regAddr p 0x2C) :=
  reg_refusalNoted (.inr (.inr (by simp only [regAddr]; omega)))

/-- ERRCAP after a refusal: the cause, the master and its world with COUNT = 1, or OVF and a COUNT one higher. -/
theorem errcap_refuse (s : State) (p : Nat) (r : Refused) (w : Who) (a : Nat) :
    (s.refuse p r w a).reg (regAddr p 0x28) = if s.fld (regAddr p 0x28) 16 16 = 0 then errcapFirst r w
      else errcapAgain (s.reg (regAddr p 0x28)) := by
  rw [refuse_eq, reg_raise (by simp only [regAddr]; omega), State.fld, State.fld, errcap_refusalNoted]
  split
  · rw [reg_setReg, if_neg (by simp only [regAddr]; omega), reg_setReg, if_pos rfl]
  · rw [reg_setReg, if_pos rfl]

/-- ERRADDR after a refusal: the offset of a first one. -/
theorem erraddr_refuse (s : State) (p : Nat) (r : Refused) (w : Who) (a : Nat) :
    (s.refuse p r w a).reg (regAddr p 0x2C) = if s.fld (regAddr p 0x28) 16 16 = 0 then w32 (entryAddr w a % 2 ^ 24)
      else s.reg (regAddr p 0x2C) := by
  rw [refuse_eq, reg_raise (by simp only [regAddr]; omega), State.fld, State.fld, errcap_refusalNoted]
  split
  · rw [reg_setReg, if_pos rfl]
  · rw [reg_setReg, if_neg (by simp only [regAddr]; omega), erraddr_refusalNoted]

/-- A refusal raises ERR, bit 31 of its page's IRQ_RAW. -/
theorem err_refuse (s : State) (p : Nat) (r : Refused) (w : Who) (a : Nat) :
    (s.refuse p r w a).bitAt (regAddr p 0x10) 31 = true := by
  rw [refuse_eq]
  exact bitAt_raise (by decide)

/-- The fields of ERRCAP after a first refusal. -/
theorem errcapFirst_fields (r : Refused) (w : Who) :
    fld (errcapFirst r w) 0 8 = refusedCode r ∧ fld (errcapFirst r w) 8 4 = masterId w.m ∧
      fld (errcapFirst r w) 12 1 = b2n (worldSec w) ∧ fld (errcapFirst r w) 14 1 = 0 ∧
      fld (errcapFirst r w) 16 16 = 1 := by
  have hr : refusedCode r < 2 ^ 8 := by cases r <;> decide
  have hm : masterId w.m < 2 ^ 4 := by cases w.m <;> decide
  have hb : b2n (worldSec w) < 2 := by cases worldSec w <;> decide
  simp only [errcapFirst, fld, bits, w32_toNat, Nat.shiftRight_eq_div_pow]
  omega

/-- The fields of ERRCAP after a later refusal: what was recorded stays, OVF is set and COUNT advances to its maximum. -/
theorem errcapAgain_fields (cap : Word) :
    fld (errcapAgain cap) 0 13 = fld cap 0 13 ∧ fld (errcapAgain cap) 14 1 = 1 ∧
      fld (errcapAgain cap) 16 16 = min 0xFFFF (fld cap 16 16 + 1) := by
  have hlt : putBits (putBits cap.toNat 14 1 1) 16 16 (min 0xFFFF (fld cap 16 16 + 1)) < 2 ^ 32 :=
    putBits_lt (putBits_lt cap.isLt (by decide)) (by decide)
  simp only [errcapAgain, fld] at hlt ⊢
  simp only [w32_toNat, Nat.mod_eq_of_lt hlt]
  refine ⟨?_, ?_, ?_⟩
  · rw [bits_putBits_low (by decide), bits_putBits_low (by decide)]
  · exact (bits_putBits_low (by decide)).trans (bits_putBits_same ..)
  · rw [bits_putBits_same]
    omega

/-- A refusal touches registers and what an interrupt touches. -/
theorem sameBut_refuse (s : State) (p : Nat) (r : Refused) (w : Who) (a : Nat) :
    SameBut signalling s (s.refuse p r w a) :=
  sameBut_of_frm (F := 549755969544) (fr_State_refuse rfl frm_refl) rfl

/-- The registers that a refusal leaves. -/
theorem regsBut_refuse (s : State) (p : Nat) (r : Refused) (w : Who) (a : Nat) :
    RegsBut [regAddr p 0x28, regAddr p 0x2C, regAddr p 0x10] (if r = .siltFull then [pSilt] else []) s
      (s.refuse p r w a) := by
  intro b hb hpg
  simp only [List.mem_cons, List.not_mem_nil, or_false, not_or] at hb
  obtain ⟨h28, h2c, h10⟩ := hb
  have hu : (refusalNoted s r).reg b = s.reg b := by
    split at hpg
    · exact reg_refusalNoted (.inl (by simpa using hpg))
    · rename_i hr
      rw [refusalNoted, if_neg hr]
  rw [refuse_eq, reg_raise h10]
  split <;> simp [Ne.symm h28, Ne.symm h2c, hu]

/-! ### The commands that are register writes -/

/-- A command that is the write of a register runs behind the checks of R46. -/
theorem exec_write {c : Instr} {w : Who} {a : Nat} {v : Word} (s : State) (h : writeOf c = some (w, a, v)) :
    ∃ u, exec c s = ifWf c.wf (s.write w a v u) := by
  unfold writeOf at h
  split at h
  case h_39 => exact absurd h nofun
  all_goals
    cases h
    exact ⟨_, rfl⟩

/-- Settles O10: behind the checks of R46 a refused write is the refusal and nothing else. -/
theorem refusedWritesAreRecorded : Obligations.RefusedWritesAreRecorded := by
  unfold Obligations.RefusedWritesAreRecorded
  intro c s w a v p r hwf hwr hck
  obtain ⟨u, hu⟩ := exec_write s hwr
  have hexec : exec c s = .next (s.refuse p r w a) := by rw [hu, ifWf_true hwf, write_refused hck]
  refine ⟨_, hexec, sameBut_refuse s p r w a, regsBut_refuse s p r w a, fun h0 => ?_, fun h0 => ?_, err_refuse s p r w a⟩
  · simp only [fld_eq (s.refuse p r w a), errcap_refuse, erraddr_refuse, if_pos h0, and_true]
    exact errcapFirst_fields r w
  · simp only [fld_eq (s.refuse p r w a), errcap_refuse, erraddr_refuse, if_neg h0, and_true]
    exact errcapAgain_fields _

end Sys2Proof.Proofs
end

section
/-!
Lookaside requests (R409 to R413): a request is taken and meets its boundary where it is the only one that waits, the
DRBG and the fence, and the end of a request.
-/
namespace Sys2Proof.Proofs
open Sys2Proof Sys2Proof.Machine Sys2Proof.Laws

/-! ### What the steps of a request leave alone -/

@[simp] theorem laFinish_cipher (s : State) (r : LaReq) (st v : Nat) (o : List Byte) :
    (laFinish s r st o v).cipher = s.cipher :=
  (fr_laFinish (F := 549755817992) rfl (frm_refl (b := s))).cipher.resolve_left (by decide)

@[simp] theorem laFinish_keys (s : State) (r : LaReq) (st v : Nat) (o : List Byte) :
    (laFinish s r st o v).keys = s.keys :=
  (fr_laFinish (F := 549755817992) rfl (frm_refl (b := s))).keys.resolve_left (by decide)

@[simp] theorem useCtr_cipher (s : State) (k : Nat) : (useCtr s k).cipher = s.cipher :=
  (fr_useCtr (F := 283467841536) rfl (frm_refl (b := s))).cipher.resolve_left (by decide)

@[simp] theorem useCtr_regs (s : State) (k : Nat) : (useCtr s k).regs = s.regs :=
  (fr_useCtr (F := 283467841536) rfl (frm_refl (b := s))).regs.resolve_left (by decide)

/-- The ring of a source with its head moved on; the state itself for a source that has no ring. -/
def ringTaken (s : State) (src : LaSource) : State := match laRing src with | some x => ringTake s x 1 | none => s

theorem frm_ringTaken (s : State) (src : LaSource) : Frm 8 s (ringTaken s src) := by
  unfold ringTaken
  split
  · exact fr_ringTake rfl frm_refl
  · exact frm_refl

/-- Taking a request changes, beside registers, the queue of the cipher engine, its numbers and its turn. -/
theorem cipher_laTaken (s : State) (src : LaSource) (r : LaReq) :
    (laTaken s src r).cipher = { s.cipher with num := s.cipher.num + 1,
                                               turn := if src = .gwe then s.cipher.turn else laTurn src,
                                               queue := s.cipher.queue ++ [r] } := by
  have h : (ringTaken s src).cipher = s.cipher := (frm_ringTaken s src).cipher.resolve_left (by decide)
  exact h ▸ rfl

theorem keys_laTaken (s : State) (src : LaSource) (r : LaReq) : (laTaken s src r).keys = s.keys :=
  (frm_ringTaken s src).keys.resolve_left (by decide)

theorem keySlot_laTaken (s : State) (src : LaSource) (r : LaReq) (k : Nat) :
    (laTaken s src r).keySlot k = s.keySlot k := by
  simp only [State.keySlot, keys_laTaken]

theorem cclk_laTaken (s : State) (src : LaSource) (r : LaReq) : (laTaken s src r).cclk = s.cclk :=
  (frm_ringTaken s src).cclk.resolve_left (by decide)

/-! ### Taking and admitting -/

/-- The state whose lookaside queue is empty. -/
def queueEmptied (s : State) : State := { s with cipher := { s.cipher with queue := [] } }

/-- R409: a request that waits alone, is not fenced and has an engine with room meets its boundary. -/
theorem laAdmitAll_alone {u : State} {r : LaReq} {e : Nat} (hf : laFenced u [] r = false) (he : laEngine u r = some e) :
    laAdmitAll [] [r] u = queueEmptied (laBoundary u r e) := by
  simp [laAdmitAll, hf, he, queueEmptied]

theorem laTake_not_taken {s : State} {src : LaSource} {d : LaDesc} {x : List Byte} {f g : Bool}
    (h : laTakes s src = false) : laTake s src d x f g = s := by
  rw [laTake, h]
  rfl

/-- R409: a request that its source may make, with nothing before it in the queue. -/
theorem laTake_alone {s : State} {src : LaSource} {d : LaDesc} {x : List Byte} {f g : Bool} {r : LaReq} {e : Nat}
    (hr : r = laNew s src d x f g) (hq : s.cipher.queue = []) (ht : laTakes s src = true)
    (hf : laFenced (laTaken s src r) [] r = false) (he : laEngine (laTaken s src r) r = some e) :
    laTake s src d x f g = queueEmptied (laBoundary (laTaken s src r) r e) := by
  have hqueue : (laTaken s src r).cipher.queue = [r] := by rw [cipher_laTaken, hq]; rfl
  calc laTake s src d x f g
      = laAdmitAll [] (laTaken s src r).cipher.queue (laTaken s src r) := by rw [laTake, ht, hr]; rfl
    _ = _ := by rw [hqueue, laAdmitAll_alone hf he]

/-- R410: a failed check is counted, but not an address fault or a slot that cannot be read. -/
def checkCounted (u : State) (st : Nat) : State := if st = 3 ∨ st = 9 then u else u.bump (aCeCnt 1)

theorem checkCounted_same (u : State) (st : Nat) :
    (checkCounted u st).cipher = u.cipher ∧ (checkCounted u st).keys = u.keys := by
  unfold checkCounted
  split <;> exact ⟨rfl, rfl⟩

/-- R410: the boundary of a request that passes the checks, and of one that fails them. -/
theorem laBoundary_passes {u : State} {r : LaReq} {e : Nat} (h : laCheck u r = (u, 0)) :
    laBoundary u r e = if r.d.op = 0x30 ∨ r.d.op = 0x31 then drbgAdmit u r e else laAdmit u r e := by
  simp only [laBoundary, h]

theorem laBoundary_fails {u : State} {r : LaReq} {e st : Nat} (h : laCheck u r = (u, st + 1)) :
    laBoundary u r e = laFinish (checkCounted u (st + 1)) r (st + 1) [] 0 := by
  simp only [laBoundary, h, checkCounted]

/-- The cycle in which an engine can start a request: at once in the reserved lane and for a fence. -/
def engineStart (s : State) (e : Nat) : Nat :=
  if e < 6 then max s.cclk (Tab.get (fun _ => 0) s.cipher.engineEnd e) else s.cclk

/-- R411, R412: an admission adds the request with its engine, its key and its counter value. -/
theorem cipher_laAdmit (u : State) (r : LaReq) (e : Nat) :
    let x := u.keySlot r.d.key
    let waits := if r.d.op = 0x3E then fenceWaits u r.d.key else []
    let t := laAdmit u r e
    t.cipher.adm = u.cipher.adm ++ [{ r with engine := e, doneAt := engineStart u e + laTime r.d, key := x.key,
                                             ctr := x.ctr, waits := waits, drained := waits.length }] ∧
      t.cipher.num = u.cipher.num ∧ t.cipher.drbgCount = u.cipher.drbgCount ∧ t.regs = u.regs := by
  simp only [laAdmit, engineStart]
  split <;> simp

/-! ### The commands of Table 13-5 -/

/-- A request whose descriptor is its command's is well formed. -/
theorem laCommand_own {d : LaDesc} {op : Nat} (s : State) (src : LaSource) (x : List Byte) (f g : Bool) (h : d.op = op) :
    laCommand op src d x f g s = .next (laTake s src d x f g) :=
  ifWf_true (by simp [laOpOk, h])

/-- The commands that bring input, with their OPs (Table 13-5). -/
def inputCommands (src : LaSource) (d : LaDesc) (x : List Byte) (f : Bool) : List (Instr × Nat) :=
  [(.aesCtrEnc src d x f, 0x01), (.aesCtrDec src d x f, 0x02), (.aesGcmEnc src d x f, 0x03),
    (.aesGcmDec src d x f, 0x04), (.aesCmacGen src d x f, 0x05), (.aesCmacVer src d x f, 0x06),
    (.aesCmacFv src d x f, 0x07), (.aesKwWrap src d x f, 0x08), (.aesKwUnwrap src d x f, 0x09),
    (.sha256 src d x f, 0x10), (.sha384 src d x f, 0x11), (.hmacSha256 src d x f, 0x12), (.hmacSha384 src d x f, 0x13),
    (.ecdsaSign src d x f, 0x20), (.ecdsaVerify src d x f, 0x21), (.ecdh src d x f, 0x22)]

/-- Each of them runs through `laCommand`, and none is a DRBG request or a fence. -/
theorem exec_inputCommand {c : Instr} {op : Nat} {src : LaSource} {d : LaDesc} {x : List Byte} {f : Bool}
    (s : State) (hc : (c, op) ∈ inputCommands src d x f) (hop : d.op = op) :
    exec c s = .next (laTake s src d x f true) ∧ d.op < 0x30 := by
  simp only [inputCommands, List.mem_cons, List.not_mem_nil, or_false, Prod.mk.injEq] at hc
  rcases hc with ⟨rfl, rfl⟩ | ⟨rfl, rfl⟩ | ⟨rfl, rfl⟩ | ⟨rfl, rfl⟩ | ⟨rfl, rfl⟩ | ⟨rfl, rfl⟩ | ⟨rfl, rfl⟩ | ⟨rfl, rfl⟩ |
    ⟨rfl, rfl⟩ | ⟨rfl, rfl⟩ | ⟨rfl, rfl⟩ | ⟨rfl, rfl⟩ | ⟨rfl, rfl⟩ | ⟨rfl, rfl⟩ | ⟨rfl, rfl⟩ | ⟨rfl, rfl⟩ <;>
    exact ⟨laCommand_own s src x f true hop, by rw [hop]; decide⟩

/-- DRBG_GEN and DRBG_RESEED run through `laCommand` without input. -/
theorem exec_drbgCommand {c : Instr} {op : Nat} {src : LaSource} {d : LaDesc} {good : Bool} (s : State)
    (hc : (c, op) ∈ [(Instr.drbgGen src d good, 0x30), (.drbgReseed src d good, 0x31)]) (hop : d.op = op) :
    exec c s = .next (laTake s src d [] false good) ∧ (op = 0x30 ∨ op = 0x31) := by
  simp only [List.mem_cons, List.not_mem_nil, or_false, Prod.mk.injEq] at hc
  rcases hc with ⟨rfl, rfl⟩ | ⟨rfl, rfl⟩
  · exact ⟨laCommand_own s src [] false good hop, .inl rfl⟩
  · exact ⟨laCommand_own s src [] false good hop, .inr rfl⟩

/-! ### The DRBG (R410) -/

/-- A DRBG request is counted. -/
def drbgCounted (u : State) : State := { u with cipher := { u.cipher with drbgCount := u.cipher.drbgCount + 1 } }

@[simp] theorem drbgCounted_adm (u : State) : (drbgCounted u).cipher.adm = u.cipher.adm := rfl

@[simp] theorem drbgCounted_count (u : State) : (drbgCounted u).cipher.drbgCount = u.cipher.drbgCount + 1 := rfl

/-- A DRBG request that needs no health test is admitted while RNG_OK = 1, and counted. -/
theorem drbgAdmit_untested {u : State} {r : LaReq} (e : Nat) (hn : needsHealth u r = false)
    (hok : u.bitAt (aCe 0x044) 4 = true) :
    drbgAdmit u r e = laAdmit (drbgCounted u) r e := by
  simp [drbgAdmit, drbgCounted, hn, hok]

/-- One whose test passes reseeds the DRBG, and is the first of its new count. -/
theorem drbgAdmit_tested {u : State} {r : LaReq} (e : Nat) (hn : needsHealth u r = true) (hg : r.healthy = true)
    (hok : r.d.op = 0x30 → u.bitAt (aCe 0x044) 4 = true) :
    drbgAdmit u r e = laAdmit (drbgCounted (reseeded u)) r e := by
  have hrefuse : ¬ (r.d.op = 0x30 ∧ (!u.bitAt (aCe 0x044) 4) = true) := fun ⟨h30, hbit⟩ => by simp [hok h30] at hbit
  rw [drbgAdmit, if_neg (by simp [hg]), if_neg hrefuse, if_pos hn, drbgCounted]

/-- A reseed starts the count of the DRBG again and sets RNG_OK. -/
theorem reseeded_shows (u : State) :
    (reseeded u).cipher = { u.cipher with drbgCount := 0 } ∧ (reseeded u).bitAt (aCe 0x044) 4 = true :=
  ⟨rfl, by rw [reseeded, bitAt_setBitAt (by decide)]; rfl⟩

/-! ### The end of a request -/

/-- LOOKASIDE_COMPLETE of an admitted request. -/
theorem exec_lookasideComplete {s : State} {n : Nat} {r : LaReq}
    (h : s.cipher.adm.find? (fun x => x.num == n) = some r) :
    exec (.lookasideComplete n) s = .next (if laReady s r = true then laDone s r else s) := by
  show execLookasideComplete n s = _
  rw [execLookasideComplete, h]

/-- The state in which a request is no longer among the admitted ones. -/
def requestRemoved (s : State) (r : LaReq) : State :=
  { s.tick1 with cipher := { s.cipher with adm := s.cipher.adm.filter (fun x => x.num != r.num) } }

/-- What a request that ends completes with: an error of its slot, its output, or the failure of a verification. -/
def laEnded (s : State) (r : LaReq) : State :=
  if r.parity && (laUse r.d.op).isSome then laFinish (requestRemoved s r) r 9 [] 0
  else
    match laOutput s r with
    | some out => laFinish (requestRemoved s r) r 0 out (laValue r)
    | none => laFinish (requestRemoved s r) r 8 [] 0

theorem laDone_eq (s : State) (r : LaReq) : laDone s r = laAdmitAll [] (laEnded s r).cipher.queue (laEnded s r) := rfl

/-- An end removes the request from those admitted and leaves the queue. -/
theorem laEnded_cipher (s : State) (r : LaReq) :
    (laEnded s r).cipher = { s.cipher with adm := s.cipher.adm.filter (fun x => x.num != r.num) } := by
  unfold laEnded
  split
  · exact laFinish_cipher ..
  · split <;> exact laFinish_cipher ..

/-- With nothing that waits, the end of a request is its completion. -/
theorem laDone_alone {s : State} {r : LaReq} (hq : s.cipher.queue = []) : laDone s r = queueEmptied (laEnded s r) := by
  have hqueue : (laEnded s r).cipher.queue = [] := by rw [laEnded_cipher, hq]
  rw [laDone_eq, hqueue]
  rfl

/-- The sources that have no ring: nothing is written for them. -/
def Internal (r : LaReq) : Prop := r.source = .mp0 ∨ r.source = .mp1 ∨ r.source = .gwe

theorem laFinish_internal {s : State} {r : LaReq} (st v : Nat) (o : List Byte) (h : Internal r) :
    laFinish s r st o v = if st = 0 then s.bump (aCeCnt 0) else if st = 8 then s.bump (aCeCnt 2) else s := by
  rcases h with h | h | h <;> simp only [laFinish, h]

theorem laEnded_rings {s : State} {r : LaReq} (h : Internal r) : (laEnded s r).rings = s.rings := by
  simp only [laEnded, laFinish_internal _ _ _ h]
  split
  · rfl
  · split <;> rfl

/-- The end of a request whose slot is sound is counted, by its output or by the verification that failed. -/
theorem laEnded_counts {s : State} {r : LaReq} (h : Internal r) (hp : (r.parity && (laUse r.d.op).isSome) = false) :
    (laOutput s r ≠ none → laEnded s r = (requestRemoved s r).bump (aCeCnt 0)) ∧
      (laOutput s r = none → laEnded s r = (requestRemoved s r).bump (aCeCnt 2)) := by
  rw [laEnded, hp, if_neg Bool.false_ne_true]
  split
  case h_1 out ho => exact ⟨fun _ => laFinish_internal 0 _ out h, fun hn => absurd hn (by simp [ho])⟩
  case h_2 ho => exact ⟨fun hn => absurd ho hn, fun _ => laFinish_internal 8 0 [] h⟩

/-- Settles O40: a request that waits alone meets its boundary, and each outcome of the boundary is read off. -/
theorem lookasideEngines : Obligations.LookasideEngines := by
  unfold Obligations.LookasideEngines
  refine ⟨?_, ?_, ?_, ?_⟩
  · intro s u src d x f op e r c hc hop hr hu hq
    obtain ⟨hexec, hlt⟩ := exec_inputCommand s hc hop
    have hd : r.d = d := hr ▸ rfl
    refine ⟨fun ht => ?_, fun ht hf he hck => ?_, fun st ht hf he hck => ?_⟩
    · rw [hexec, laTake_not_taken ht]
    · subst hu
      have hadm : ¬ (r.d.op = 0x30 ∨ r.d.op = 0x31) := by rw [hd]; omega
      rw [laTake_alone hr hq ht hf he, laBoundary_passes hck, if_neg hadm] at hexec
      obtain ⟨h1, h2, _, _⟩ := cipher_laAdmit (laTaken s src r) r e
      refine ⟨_, hexec, rfl, ?_, ?_⟩
      · rw [queueEmptied, h2, cipher_laTaken]
      · simp only [queueEmptied, h1, cipher_laTaken, keySlot_laTaken, engineStart, cclk_laTaken, hd,
          if_neg (show d.op ≠ 0x3E by omega), List.length_nil]
    · subst hu
      rw [laTake_alone hr hq ht hf he, laBoundary_fails hck] at hexec
      obtain ⟨hcipher, hkeys⟩ := checkCounted_same (laTaken s src r) (st + 1)
      refine ⟨_, hexec, rfl, ?_, ?_, ?_⟩
      · rw [queueEmptied, laFinish_cipher, hcipher, cipher_laTaken]
      · rw [queueEmptied, laFinish_cipher, hcipher, cipher_laTaken]
      · rw [queueEmptied, laFinish_keys, hkeys, keys_laTaken]
  · intro s u src d good e op r c hc hop hr hu hq ht hf he hck
    subst hu
    obtain ⟨hexec, hops⟩ := exec_drbgCommand s hc hop
    have hd : r.d.op = op := hr ▸ hop
    have hneeds : needsHealth (laTaken s src r) r = needsHealth s r := by simp only [needsHealth, cipher_laTaken]
    rw [laTake_alone hr hq ht hf he, laBoundary_passes hck, if_pos (hd ▸ hops)] at hexec
    refine ⟨fun hn hok => ?_, fun hn hg hok => ?_⟩
    · rw [drbgAdmit_untested e (hneeds.trans hn) hok] at hexec
      obtain ⟨hadm, _, hcount, hregs⟩ := cipher_laAdmit (drbgCounted (laTaken s src r)) r e
      refine ⟨_, hexec, rfl, ?_, ?_, reg_congr hregs _⟩
      · rw [queueEmptied, hcount, drbgCounted_count, cipher_laTaken]
      · simp only [queueEmptied, hadm, drbgCounted_adm, List.length_append, List.length_singleton, cipher_laTaken]
    · obtain ⟨hcipher, hrng⟩ := reseeded_shows (laTaken s src r)
      have hbit : r.d.op = 0x30 → (laTaken s src r).bitAt (aCe 0x044) 4 = true := fun h30 =>
        hok.resolve_left (by omega)
      rw [drbgAdmit_tested e (hneeds.trans hn) (by rw [hr]; exact hg) hbit] at hexec
      obtain ⟨hadm, _, hcount, hregs⟩ := cipher_laAdmit (drbgCounted (reseeded (laTaken s src r))) r e
      refine ⟨_, hexec, rfl, ?_, ?_, ?_⟩
      · rw [queueEmptied, hcount, drbgCounted_count, hcipher]
      · simp only [queueEmptied, hadm, drbgCounted_adm, hcipher, List.length_append, List.length_singleton, cipher_laTaken]
      · exact (congrArg (fun v : Word => bit v.toNat 4) (reg_congr hregs _)).trans hrng
  · intro s u src d r hop hr hu hq ht hf hck
    subst hu
    have hd : r.d = d := hr ▸ rfl
    have hengine : laEngine (laTaken s src r) r = some 7 := by simp [laEngine, hd, hop, hasTag]
    have hexec : exec (.invFence src d) s = .next (laTake s src d [] false true) := laCommand_own s src [] false true hop
    rw [laTake_alone hr hq ht hf hengine, laBoundary_passes hck, if_neg (by rw [hd]; omega)] at hexec
    obtain ⟨hadm, _⟩ := cipher_laAdmit (laTaken s src r) r 7
    refine ⟨_, hexec, rfl, ?_⟩
    simp only [queueEmptied, hadm, cipher_laTaken, keySlot_laTaken, engineStart, cclk_laTaken, hd, if_pos hop]
    rfl
  · intro s n r h
    have hnum : r.num = n := by simpa using List.find?_some h
    refine ⟨fun hready => ?_, fun hready => ?_, fun hready hint hq => ?_⟩
    · rw [exec_lookasideComplete h, if_pos hready]
    · rw [exec_lookasideComplete h, if_neg (Bool.eq_false_iff.1 hready)]
    · have hexec := exec_lookasideComplete h
      rw [if_pos hready, laDone_alone hq] at hexec
      refine ⟨_, hexec, ?_, laEnded_rings hint, fun hp => ?_⟩
      · rw [queueEmptied, laEnded_cipher, hnum]
      · obtain ⟨hout, hfail⟩ := laEnded_counts hint hp
        have hpair (k : Nat) (he : laEnded s r = (requestRemoved s r).bump (aCeCnt k)) :
            (queueEmptied (laEnded s r)).pair (aCeCnt k) = (s.pair (aCeCnt k) + 1) % 2 ^ 64 := by
          rw [he]
          exact pair_bump (requestRemoved s r) (aCeCnt k)
        exact ⟨fun ho => hpair 0 (hout ho), fun ho => hpair 2 (hfail ho)⟩

end Sys2Proof.Proofs
end

section
/-!
Secure associations (R387, R395) and the known answer tests of the pipes (R406).
-/
namespace Sys2Proof.Proofs
open Sys2Proof Sys2Proof.Machine Sys2Proof.Laws

/-! ### Secure associations -/

/-- The registers of the MSC pages lie behind page SILT. -/
theorem aMsc_page_ne_silt {p o : Nat} : aMsc p o / 0x1000 ≠ pSilt := by
  simp only [aMsc, regAddr, pMsc, pSilt]
  omega

/-- R75: a logged write leaves its register as written, and outside SILT no other one changed. -/
theorem loggedWrite_shows {s : State} {a g : Nat} {v o n : Word} {sh : Bool} (ha : a / 0x1000 ≠ pSilt) :
    (logReg (s.setReg a v) g a o n sh).reg a = v ∧ RegsBut [a] [pSilt] s (logReg (s.setReg a v) g a o n sh) := by
  refine ⟨?_, fun b hb hpg => ?_⟩
  · rw [reg_logReg ha, reg_setReg, if_pos rfl]
  · simp only [List.mem_singleton] at hb hpg
    rw [reg_logReg hpg, reg_setReg, if_neg (Ne.symm hb)]

/-- A slot whose memory holds no injected error is read as it stands (R450). -/
theorem readSlot_sound {s : State} (k : Nat) (h : s.faults.marks = []) : readSlot s k = (s, false) := by
  simp [readSlot, memRead, h]

/-- SA_INSTALL that passes the checks of R46 comes to those of R387. -/
theorem exec_saInstall {s : State} {w : Who} {p : Nat} {sa : SaId} {v : Word} (hp : macOk p = true)
    (hsa : saOk sa = true) (hv : bit v.toNat 0 = true) (h : Passes s w (aMsc p (saOff sa)) v) :
    exec (.saInstall w p sa v) s = .next (tryInstall s w p sa v) := by
  have hchecks : saRefusal s w p sa v = none := by
    simp only [saRefusal, show checkWrite s w (aMsc p (saOff sa)) 4 v = none from h]
  show execSaInstall w p sa v s = _
  rw [execSaInstall, ifWf_true (by simp [hp, hsa, hv]), hchecks]

/-- R387: an installation that no check refuses, of a unit whose Silt Log has room, is made and logged. -/
theorem tryInstall_installs {s : State} {w : Who} {p : Nat} {sa : SaId} {v : Word} (hm : s.faults.marks = [])
    (hlog : isHost w.m = false ∨ siltFull s = false) (h : installCause s p sa (bits v.toNat 4 10) = 0) :
    tryInstall s w p sa v = logReg (installSa s p sa v) (originOf w.m) (aMsc p (saOff sa)) (s.reg (aMsc p (saOff sa)))
      ((installSa s p sa v).reg (aMsc p (saOff sa))) false := by
  have hfull : ¬ (isHost w.m = true ∧ siltFull s = true) := by
    rcases hlog with hl | hl <;> simp [hl]
  simp only [tryInstall, readSlot_sound _ hm, h, if_neg hfull]

/-- R387: one that a check refuses leaves its cause in `MSC_STAT.INST`. -/
theorem tryInstall_refuses {s : State} {w : Who} {p k : Nat} {sa : SaId} {v : Word} (hm : s.faults.marks = [])
    (h : installCause s p sa (bits v.toNat 4 10) = k + 1) :
    tryInstall s w p sa v =
      (s.setFld (aMsc p 0x060) 4 3 (k + 1)).refuse (pMsc p) .valueRange w (aMsc p (saOff sa)) := by
  simp only [tryInstall, readSlot_sound _ hm, h]

/-- SA_REMOVE that passes the checks. -/
theorem exec_saRemove {s : State} {w : Who} {p : Nat} {sa : SaId} {v : Word} (hp : macOk p = true)
    (hsa : saOk sa = true) (hv : bit v.toNat 0 = false) (h : Passes s w (aMsc p (saOff sa)) v) :
    exec (.saRemove w p sa v) s = .next (removeSa s w p sa v) := by
  show execSaRemove w p sa v s = _
  rw [execSaRemove, ifWf_true (by simp [hp, hsa, hv]), write_passes h]

/-- ENC_SA_WRITE that passes the checks. -/
theorem exec_encSaWrite {s : State} {w : Who} {p : Nat} {v : Word} (hp : macOk p = true)
    (h : Passes s w (aMsc p 0x054) v) : exec (.encSaWrite w p v) s = .next (selectSa s w p v) := by
  show execEncSaWrite w p v s = _
  rw [execEncSaWrite, ifWf_true hp, write_passes h]

/-! ### Known answer tests -/

@[simp] theorem kat_setKat (s : State) (eg : Bool) (r : KatRun) : (s.setKat eg r).kat eg = r := by
  cases eg <;> rfl

@[simp] theorem setKat_reg (s : State) (eg : Bool) (r : KatRun) (a : Nat) : (s.setKat eg r).reg a = s.reg a := rfl

@[simp] theorem bump_kat (s : State) (a : Nat) (eg : Bool) : (s.bump a).kat eg = s.kat eg := rfl

/-- R406: pipe j stands in slot k, and the rotation is counted. -/
def slotTaken (s : State) (eg : Bool) (k j : Nat) (r : KatRun) : State :=
  ((s.setFld (aCe 0x048) (4 * k + 16 * b2n eg) 4 j).setKat eg r).bump (aCeCnt 7)

/-- KAT_ROTATION of a direction whose rotation is due: the spare takes the slot of the next pipe. -/
theorem exec_katRotation {s : State} {eg : Bool} {i j k : Nat} (hdue : katDue s eg = true)
    (hspare : (s.kat eg).spare = some j)
    (hnext : (katOrder s eg).find? (fun i => (List.range 4).any (fun k => pipeOf s eg k == i)) = some i)
    (hslot : (List.range 4).find? (fun k => pipeOf s eg k == i) = some k) :
    exec (.katRotation eg) s = .next (slotTaken s eg k j
      { testing := some i, spare := none, next := (i + 1) % 5, startAt := s.cclk }) := by
  show execKatRotation eg s = _
  rw [execKatRotation, whenever_true hdue, rotate, slotTaken]
  simp only [hnext, hspare, hslot]

/-- The slot that has just been taken holds the pipe, and the rotation is counted. -/
theorem slotTaken_shows {s : State} {eg : Bool} {j k : Nat} (r : KatRun) (hk : k < 4) :
    (slotTaken s eg k j r).kat eg = r ∧ pipeOf (slotTaken s eg k j r) eg k = j % 16 ∧
      (slotTaken s eg k j r).pair (aCeCnt 7) = (s.pair (aCeCnt 7) + 1) % 2 ^ 64 := by
  have hfield : 4 * k + 16 * b2n eg + 4 ≤ 32 := by cases eg <;> simp [b2n] <;> omega
  refine ⟨?_, ?_, ?_⟩
  · rw [slotTaken, bump_kat, kat_setKat]
  · rw [pipeOf, State.fld, slotTaken, reg_bump (by decide) (by decide), setKat_reg, ← State.fld]
    exact fld_setFld_same hfield
  · rw [slotTaken, pair_bump, State.pair, setKat_reg, setKat_reg, reg_setFld, reg_setFld, if_neg (by decide),
      if_neg (by decide), State.pair]

/-- KAT_COMPLETE of a test that has passed, with a pipe in every slot: the pipe is the spare. -/
theorem exec_katComplete_passed {s : State} {eg : Bool} {i : Nat} (ht : (s.kat eg).testing = some i)
    (hslots : (List.range 4).find? (fun k => pipeOf (s.bump (aCeCnt 5)) eg k == 7) = none) :
    exec (.katComplete eg true) s =
      .next ((s.bump (aCeCnt 5)).setKat eg { s.kat eg with testing := none, spare := some i }) := by
  have hends : katEnds s eg true = katPassed s eg i := by simp only [katEnds, ht, if_true]
  refine congrArg _ (hends.trans ?_)
  simp only [katPassed, hslots]
  rfl

/-- KAT_COMPLETE of a test that has failed. -/
theorem exec_katComplete_failed {s : State} {eg : Bool} {i : Nat} (ht : (s.kat eg).testing = some i) :
    exec (.katComplete eg false) s = .next
      (retirePipe (((s.bump (aCeCnt 6)).raise (pCe 0) 0).report 0x20 (pipeUnit eg i) [] false) eg i) := by
  have hends : katEnds s eg false =
      retirePipe (((s.bump (aCeCnt 6)).raise (pCe 0) 0).report 0x20 (pipeUnit eg i) [] false) eg i := by
    simp [katEnds, ht]
  exact congrArg _ hends

/-- Settles O41: installation, removal, the transmit SA, and the rotation and the end of a test, each by its case. -/
theorem secureAssociationsAndTests : Obligations.SecureAssociationsAndTests := by
  unfold Obligations.SecureAssociationsAndTests
  refine ⟨fun s w p sa v hp hsa hv h hm hlog => ⟨fun h0 => ?_, fun k hk => ?_⟩, fun s w p sa v hp hsa hv h hinst => ?_,
    fun s w p v hp h => ?_, fun s eg i j k hdue hspare hnext hslot => ?_, fun s eg i ht => ⟨fun hslots => ?_, ?_⟩⟩
  · rw [exec_saInstall hp hsa hv h, tryInstall_installs hm hlog h0]
  · rw [exec_saInstall hp hsa hv h, tryInstall_refuses hm hk]
  · refine ⟨_, exec_saRemove hp hsa hv h, ?_⟩
    rw [removeSa, if_pos hinst]
    exact loggedWrite_shows aMsc_page_ne_silt
  · exact ⟨_, exec_encSaWrite hp h, loggedWrite_shows aMsc_page_ne_silt⟩
  · have hk : k < 4 := List.mem_range.1 (List.mem_of_find?_eq_some hslot)
    exact ⟨_, exec_katRotation hdue hspare hnext hslot, slotTaken_shows _ hk⟩
  · exact ⟨_, exec_katComplete_passed ht hslots, kat_setKat .., pair_bump s (aCeCnt 5)⟩
  · exact exec_katComplete_failed ht

end Sys2Proof.Proofs
end

section
/-!
Key agreement (R414, R416): MKPDUs that are heard or handed on, hellos, and peers that time out.
-/
namespace Sys2Proof.Proofs
open Sys2Proof Sys2Proof.Machine Sys2Proof.Laws

@[simp] theorem mka_setMka (s : State) (p k : Nat) (m : Mka) :
    (s.setMka p m).mka k = if p = k then m else s.mka k :=
  get_set

/-! ### MKPDUs -/

/-- R416: a unit that is no standby hands no MKPDU on. -/
theorem mkaTunnels_not_standby {s : State} (p : Nat) (bs : List Byte) (h : s.twin.role ≠ .standby) :
    mkaTunnels s p bs = s :=
  if_neg fun hs => h hs.1

theorem mkaTunnels_standby {s : State} {p : Nat} (bs : List Byte) (h : s.twin.role = .standby)
    (hon : s.bitAt (aMsc p 0x064) 0 = true) : mkaTunnels s p bs = slSend s 0x50 true (.mka p bs) :=
  if_pos ⟨h, hon⟩

/-- R416: no participant runs on a standby, which hears nothing itself. -/
theorem mkaHears_standby {s : State} (p : Nat) (bs : List Byte) (h : s.twin.role = .standby) : mkaHears s p bs = s := by
  have hruns : mkaRuns s p = false := by simp [mkaRuns, h]
  rw [mkaHears, hruns]
  rfl

/-- MKPDU_RX: it is handed on, then heard. -/
theorem exec_mkpduRx {p : Nat} (s : State) (bs : List Byte) (hp : macOk p = true) :
    exec (.mkpduRx p bs) s = .next (mkaHears (mkaTunnels s p bs) p bs) :=
  ifWf_true hp

/-! ### Hellos -/

/-- What the participant of a port does before a hello (R398, R414, R415). -/
def beforeHello (s : State) (p : Nat) : State := sakSwitch (sakMake (sakRetire (mkaWants (mkaStart s p) p) p) p) p

/-- MKA_HELLO. -/
theorem exec_mkaHello {p : Nat} (s : State) (hp : macOk p = true) :
    exec (.mkaHello p) s = .next (whenever (helloDue s p) s (mkaSend (beforeHello s p) p)) :=
  ifWf_true hp

/-- The state in which the participant has counted the hello that goes out. -/
def helloCounted (u : State) (p : Nat) : State :=
  u.setMka p { u.mka p with mn := (u.mka p).mn + 1, helloAt := u.cclk + 2000000000 }

/-- R414: a hello is counted, and sourced on port 51 with its egress port named. -/
theorem mkaSend_eq (u : State) (p : Nat) : mkaSend u p = sourceFrame (helloCounted u p) u.cclk
    (mgmtFrame (helloCounted u p) p (mkpduBytes (helloCounted u p) p)) := rfl

theorem mka_mkaSend (u : State) (p : Nat) :
    (mkaSend u p).mka p = { u.mka p with mn := (u.mka p).mn + 1, helloAt := u.cclk + 2000000000 } := by
  have hcipher : (mkaSend u p).cipher = (helloCounted u p).cipher :=
    (fr_sourceFrame (F := 469762048) rfl frm_refl).cipher.resolve_left (by decide)
  rw [State.mka, hcipher, ← State.mka, helloCounted, mka_setMka, if_pos rfl]

/-- R243: an open pacer lets the hello in at once. -/
theorem mkaSend_enters {u : State} (p : Nat) (h : entryOpen u 51 = true) :
    (mkaSend u p).nextFrame = u.nextFrame + 1 ∧ ((mkaSend u p).frame u.nextFrame).port = 51 ∧
      ((mkaSend u p).frame u.nextFrame).named = some p := by
  have henter : mkaSend u p = enterPaced (helloCounted u p)
      (mgmtFrame (helloCounted u p) p (mkpduBytes (helloCounted u p) p)) :=
    sourceFrame_enters (Nat.le_refl u.cclk) h
  obtain ⟨_, hnext, hframe⟩ := enterPaced_shows (helloCounted u p)
    (mgmtFrame (helloCounted u p) p (mkpduBytes (helloCounted u p) p))
  rw [henter]
  exact ⟨hnext, congrArg Frame.port hframe, congrArg Frame.named hframe⟩

/-- R243: while the pacer is shut the hello waits. -/
theorem mkaSend_waits {u : State} (p : Nat) (h : entryOpen u 51 = false) :
    ∃ x, (mkaSend u p).fab.entryQ = u.fab.entryQ ++ [x] ∧ x.frame.port = 51 ∧ x.frame.named = some p := by
  rw [mkaSend_eq, sourceFrame_waits h]
  exact ⟨_, rfl, rfl, rfl⟩

/-! ### Peers -/

/-- MKA_PEER_TIMEOUT of a participant that runs. -/
theorem exec_mkaPeerTimeout {s : State} {p : Nat} (mi : Nat) (hp : macOk p = true) (hr : mkaRuns s p = true) :
    exec (.mkaPeerTimeout p mi) s = .next (peerGoes s p mi) :=
  (ifWf_true hp).trans (congrArg _ (whenever_true hr))

/-- R414: a peer goes when its life time has ended, and not before. -/
theorem peerGoes_of_peer {s : State} {p mi : Nat} {x : MkaPeer}
    (hx : (s.mka p).peers.find? (fun y => y.mi == mi) = some x) :
    peerGoes s p mi = if s.cclk < x.lifeEnd then s else sakSwitch (sakMake (s.setMka p { s.mka p with
      peers := (s.mka p).peers.filter (fun y => y.mi != mi), want := (s.mka p).want || x.live }) p) p := by
  simp only [peerGoes, hx]

/-- Settles O42: MKPDUs, hellos and time-outs, each by its case. -/
theorem keyAgreement : Obligations.KeyAgreement := by
  unfold Obligations.KeyAgreement
  refine ⟨fun s p bs hp hrole => ?_, fun s p bs hp hrole hon hafter => ?_, fun s u p hp hdue hu => ?_,
    fun s p hp hdue => ?_, fun s p mi x hp hr hx => ⟨fun hend => ?_, fun hlive => ?_⟩⟩
  · rw [exec_mkpduRx s bs hp, mkaTunnels_not_standby p bs hrole, mkaHears]
    simp only [Bool.and_eq_true]
  · rw [exec_mkpduRx s bs hp, mkaTunnels_standby bs hrole hon, mkaHears_standby p bs hafter]
  · subst hu
    exact ⟨_, (exec_mkaHello s hp).trans (congrArg _ (whenever_true hdue)), mka_mkaSend .., mkaSend_enters p,
      mkaSend_waits p⟩
  · rw [exec_mkaHello s hp, whenever_false hdue]
  · rw [exec_mkaPeerTimeout mi hp hr, peerGoes_of_peer hx, if_neg (Nat.not_lt.2 hend)]
  · rw [exec_mkaPeerTimeout mi hp hr, peerGoes_of_peer hx, if_pos hlive]

end Sys2Proof.Proofs
end

section
/-!
Roles of the twin pair: arbitration and claim windows (R456, R461), planned swaps (R481, R482, R514) and the work of a
takeover (R476, R477).
-/
namespace Sys2Proof.Proofs
open Sys2Proof Sys2Proof.Machine Sys2Proof.Laws

/-! ### What the shared operations leave of the twin's state -/

@[simp] theorem siltRole_twin (s : State) (sub o n : Nat) (st : Bool) : (siltRole s sub o n st).twin = s.twin :=
  (fr_siltRole (F := 549756035080) rfl frm_refl).twin.resolve_left (by decide)

@[simp] theorem setMode_twin (s : State) (m : Mode) (g u a : Nat) : (setMode s m g u a).twin = s.twin :=
  (fr_setMode (F := 549756035084) rfl frm_refl).twin.resolve_left (by decide)

@[simp] theorem roleMode_twin (s : State) (m : Mode) : (roleMode s m).twin = s.twin := setMode_twin ..

@[simp] theorem readyTime_twin (s : State) : (readyTime s).twin = s.twin :=
  (fr_readyTime (F := 549755969544) rfl frm_refl).twin.resolve_left (by decide)

@[simp] theorem loadPns_twin (s : State) : (loadPns s).twin = s.twin :=
  (fr_loadPns (F := 8) rfl frm_refl).twin.resolve_left (by decide)

@[simp] theorem mbxRespond_twin (s : State) (h : HostPort) (st : Nat) (b : List Byte) :
    (mbxRespond s h st b).twin = s.twin :=
  (fr_mbxRespond (F := 549755871240) rfl frm_refl).twin.resolve_left (by decide)

@[simp] theorem swapAnswer_twin (s : State) (st : Nat) : (swapAnswer s st).twin = s.twin :=
  (fr_swapAnswer (F := 549755871240) rfl frm_refl).twin.resolve_left (by decide)

@[simp] theorem slSend_twin (s : State) (ty : Nat) (e : Bool) (b : SlBody) : (slSend s ty e b).twin = s.twin :=
  (fr_slSend (F := 584115552264) rfl frm_refl).twin.resolve_left (by decide)

@[simp] theorem slSend_mbx (s : State) (ty : Nat) (e : Bool) (b : SlBody) : (slSend s ty e b).mbx = s.mbx :=
  (fr_slSend (F := 584115552264) rfl frm_refl).mbx.resolve_left (by decide)

@[simp] theorem slSend_mode (s : State) (ty : Nat) (e : Bool) (b : SlBody) : (slSend s ty e b).mode = s.mode :=
  (fr_slSend (F := 584115552264) rfl frm_refl).mode.resolve_left (by decide)

@[simp] theorem raiseTerm_twin (s : State) : (raiseTerm s).twin = s.twin := rfl

theorem frm_swapSas (l : List (Nat × Nat)) (s : State) : Frm 8 s (l.foldl swapSa s) :=
  frm_foldl (fun _ _ ht => fr_swapSa rfl ht) frm_refl

@[simp] theorem swapSas_twin (l : List (Nat × Nat)) (s : State) : (l.foldl swapSa s).twin = s.twin :=
  (frm_swapSas l s).twin.resolve_left (by decide)

/-! ### Role, claim and role gate -/

/-- What the pair sees of a unit: its role, and whether it holds the claim and its role gate is open. -/
def stance (s : State) : Role × Bool × Bool := (s.twin.role, s.twin.claim, s.twin.gate)

theorem stance_eq {s : State} {r : Role} {c g : Bool} :
    stance s = (r, c, g) ↔ s.twin.role = r ∧ s.twin.claim = c ∧ s.twin.gate = g := by
  simp only [stance, Prod.mk.injEq]

theorem stance_congr {s t : State} (h : t.twin = s.twin) : stance t = stance s := by rw [stance, stance, h]

/-- R483: a role entry makes announcements due, and leaves the rest of the twin's state. -/
theorem roleEntered_twin (s : State) (reason : Nat) :
    (roleEntered s reason).twin = { s.twin with annLeft := 3, annNext := s.cclk, annReason := reason } := by
  rw [roleEntered, raise_twin, readyTime_twin]

@[simp] theorem stance_roleEntered (s : State) (reason : Nat) : stance (roleEntered s reason) = stance s := by
  rw [stance, roleEntered_twin]
  rfl

@[simp] theorem stance_sendJoin (s : State) : stance (sendJoin s) = stance s := by
  rw [sendJoin]
  split
  · rw [stance, slSend_twin]
    rfl
  · rfl

@[simp] theorem stance_siltRole (s : State) (sub o n : Nat) (st : Bool) : stance (siltRole s sub o n st) = stance s :=
  stance_congr (siltRole_twin ..)

@[simp] theorem stance_roleMode (s : State) (m : Mode) : stance (roleMode s m) = stance s :=
  stance_congr (roleMode_twin ..)

theorem stance_takeStandby (s : State) (y : SyncSt) : stance (takeStandby s y) = (.standby, false, false) := rfl

theorem stance_takeActive (s : State) (b : ActiveBy) : stance (takeActive s b) = (.active, true, true) := rfl

/-! ### Arbitration (R461) -/

/-- The unit begins to arbitrate. -/
def arbBegun (s : State) : State := { s with twin := { s.twin with role := .arb, arbAt := s.cclk } }

/-- R461: arbitration starts where it may, and ends at once where the line is low. -/
theorem exec_arbitrationStart {s : State} (h : mayArbitrate s = true) :
    exec .arbitrationStart s = .next (if s.twin.lineLow = true then arbStandby (arbBegun s) else arbBegun s) := by
  show execArbitrationStart s = _
  rw [execArbitrationStart, whenever_true h]
  rfl

theorem exec_arbitrationStart_not {s : State} (h : mayArbitrate s = false) : exec .arbitrationStart s = .next s :=
  congrArg _ (whenever_false h)

theorem stance_arbStandby (s : State) : stance (arbStandby s) = (.standby, false, false) := by
  rw [arbStandby, stance_sendJoin, stance_roleEntered, stance_siltRole, stance_roleMode, stance_takeStandby]

/-- R461: the unit that wins is ACTIVE with its claim and its gate, and no twin is synchronised. -/
theorem arbActive_shows (s : State) : stance (arbActive s) = (.active, true, true) ∧ (arbActive s).twin.sync = .none := by
  constructor
  · rw [arbActive, stance_roleEntered, stance_siltRole, stance_roleMode]
    rfl
  · rw [arbActive, roleEntered_twin, siltRole_twin, roleMode_twin]

/-- What OBSERVE_END and GRACE_END wait for. -/
theorem exec_observeEnd (s : State) : exec .observeEnd s = .next (whenever (s.twin.role == .arb && preferred s &&
    !s.twin.strapConflict && !s.twin.lineLow && decide (s.twin.arbAt + observe s ≤ s.cclk)) s (arbActive s)) := rfl

theorem exec_graceEnd (s : State) : exec .graceEnd s = .next (whenever (s.twin.role == .arb && !preferred s &&
    !s.twin.strapConflict && !s.twin.lineLow && decide (s.twin.arbAt + observe s + grace s ≤ s.cclk)) s
      (arbActive s)) := rfl

/-! ### The line and the claim windows (R456, R476) -/

/-- The line as it has been read. -/
def lineSeen (s : State) (low : Bool) : State := { s with twin := { s.twin with lineLow := low, lineRead := true } }

theorem exec_claimLowRead (s : State) : exec .claimLowRead s =
    .next (if s.twin.role = .arb then arbStandby (lineSeen s true) else takeoverCheck (lineSeen s true)) := rfl

theorem exec_claimHighRead (s : State) : exec .claimHighRead s = .next (takeoverCheck (lineSeen s false)) := rfl

/-- A reading of the line changes nothing of what lets a standby take over. -/
theorem mayTakeOver_lineSeen (s : State) (low : Bool) : mayTakeOver (lineSeen s low) = mayTakeOver s := rfl

theorem takeoverCheck_not {s : State} (h : mayTakeOver s = false) : takeoverCheck s = s := by
  rw [takeoverCheck, h]
  rfl

/-- Only a standby may take over. -/
theorem mayTakeOver_of_role {s : State} (h : s.twin.role ≠ .standby) : mayTakeOver s = false := by
  simp [mayTakeOver, h]

theorem role_of_mayTakeOver {s : State} (h : mayTakeOver s = true) : s.twin.role = .standby :=
  Decidable.byContradiction fun hr => by
    rw [mayTakeOver_of_role hr] at h
    exact absurd h (by decide)

/-- R476: with the line high the standby takes over. -/
theorem takeoverCheck_high {s : State} (h : mayTakeOver s = true) (hl : s.twin.lineLow = false) :
    takeoverCheck s = takeover s := by
  simp [takeoverCheck, h, hl]

/-- R476: with the line low, and no window noted, the standby waits for the active's next window. -/
theorem takeoverCheck_low {s : State} (h : mayTakeOver s = true) (hl : s.twin.lineLow = true)
    (hwait : s.twin.waitWindow = false) (hiso : s.twin.isolated = false) (hwin : s.twin.window = none) :
    takeoverCheck s = { s with twin := { s.twin with waitWindow := true } } := by
  rw [takeoverCheck, if_neg (by simp [h]), if_neg (by simp [hl]), if_neg (by simp [hwait, hiso])]
  simp only [hwin, Bool.false_eq_true, if_false]

/-- R477, cycle D: ACTIVE, without claim and gate yet. -/
theorem takeover_shows (s : State) : stance (takeover s) = (.active, false, false) ∧
    (takeover s).twin.taskAt = some s.cclk ∧ (takeover s).mode = s.mode := by
  refine ⟨?_, ?_, ?_⟩
  · rw [takeover, stance, raise_twin]
    rfl
  · rw [takeover, raise_twin]
    rfl
  · rw [takeover, raise_mode]
    rfl

theorem exec_claimWindow {s : State} {p : Nat} (low : Bool) (h : s.twin.window = some p) :
    exec (.claimWindow low) s = .next (claimSampled s p low) := by
  show execClaimWindow low s = _
  rw [execClaimWindow, h]

/-- R456: a window of its own that the active reads high ends its run of foreign claims. -/
theorem claimSampled_own_high {s : State} {p : Nat} (hr : s.twin.role = .active)
    (hend : p + (windowOf s.twin.twinB).2 ≤ s.cclk) :
    claimSampled s p false = { s with twin := { s.twin with window := none, foreignRun := 0 } } := by
  rw [claimSampled, if_pos ⟨hr, hend⟩]
  rfl

/-! ### Planned swaps (R481, R482, R514) -/

/-- A request of the mailbox that is served next, in a mode that serves it, with the length of its opcode. -/
theorem mbxServe_serves {s : State} {h : HostPort} {op len : Nat} {act : State → State} (hf : mbxFront s h op = true)
    (hb : s.mode ≠ .boot) (hq : s.mode ≠ .quarantine) (ha : asleep s.mode = false) (hl : mbxLen s h = len) :
    mbxServe s h op len act = act s := by
  simp [mbxServe, hf, hb, hq, ha, mbxBadLen, hl]

/-- R481: the swap that a start notes, for the second sync point from now. -/
def swapNoted (s : State) (host : Option HostPort) : Swap :=
  { point := (syncCnt s + 2) % 2 ^ 32, host := host, thenTest := none, digest := false }

/-- R481: a start notes the swap, and changes neither the role nor the mode nor the mailboxes. -/
theorem swapStart_shows (s : State) (host : Option HostPort) :
    (swapStart s host none false).twin = { s.twin with swap := some (swapNoted s host) } ∧
      (swapStart s host none false).mode = s.mode ∧ (swapStart s host none false).mbx = s.mbx :=
  ⟨slSend_twin .., slSend_mode .., slSend_mbx ..⟩

/-- ROLE_SWAP of a request that is served. -/
theorem exec_roleSwap {s : State} {h : HostPort} (hf : mbxFront s h 6 = true) (hb : s.mode ≠ .boot)
    (hq : s.mode ≠ .quarantine) (ha : asleep s.mode = false) (hl : mbxLen s h = 0) :
    exec (.roleSwap h) s = .next (roleSwap s h) := by
  show execRoleSwap h s = _
  rw [execRoleSwap, mbxServe_serves hf hb hq ha hl]

/-- R514: SWAP_CONDITION of an enabled condition that holds, on an ACTIVE unit with a synchronised twin. -/
theorem exec_swapCondition {s : State} {c : SwapCond} (hm : s.mode = .active) (hr : s.twin.role = .active)
    (hy : s.twin.sync = .synced) (hs : s.twin.swap = none) (hb : s.bitAt (aLsp 0x040) (swapCondBit c) = true)
    (hc : swapCondHolds s c = true) : exec (.swapCondition c) s = .next (swapStart s none none false) :=
  congrArg _ (whenever_true (by simp [hm, hr, hy, hs, hb, hc]))

/-- SWAP_POINT while a swap is noted. -/
theorem exec_swapPoint {s : State} {x : Swap} (h : s.twin.swap = some x) : exec .swapPoint s =
    .next (if s.twin.role = .active ∧ x.acked = true ∧ syncCnt s = x.point then swapOut s x
      else if s.twin.role = .standby ∧ (s.twin.store.map (fun c => c.n)) = some x.point then swapIn s else s) := by
  show execSwapPoint s = _
  rw [execSwapPoint, h]

/-- R482: the new active holds the claim and its gate is open. -/
theorem stance_swapIn (s : State) : stance (swapIn s) = (.active, true, true) := by
  rw [swapIn, swapCounts, stance_roleEntered, stance, raise_twin, bump_twin, ← stance, stance_siltRole, stance_roleMode,
    stance, swapSas_twin, loadPns_twin]
  rfl

/-- SWAP_ABORT, 20 us before the point of a swap that has no acknowledgement. -/
theorem exec_swapAbort {s : State} {x : Swap} (h : s.twin.swap = some x) (hr : s.twin.role = .active)
    (ha : x.acked = false) (hp : predictNumber s x.point ≤ s.cclk + 20000) :
    exec .swapAbort s = .next (swapAborts s) := by
  show execSwapAbort s = _
  rw [execSwapAbort, h]
  exact congrArg _ (whenever_true (by simp [hr, ha, hp]))

theorem swapAborts_shows (s : State) : (swapAborts s).twin = { s.twin with swap := none } ∧
    (swapAborts s).faults.testBusy = false := by
  rw [swapAborts, swapAnswer_twin]
  exact ⟨rfl, rfl⟩

/-! ### The work of a takeover (R477) -/

/-- TAKEOVER_TASK while work is due. -/
theorem exec_takeoverTask {s : State} {d : Nat} (h : s.twin.taskAt = some d) : exec .takeoverTask s =
    .next (whenever (s.twin.role == .active && s.twin.gate && decide (d + 8 ≤ s.cclk)) s (takeoverRest s)) := by
  show execTakeoverTask s = _
  rw [execTakeoverTask, h]

/-- Settles O45: arbitration, the line, claim windows, swaps and takeover work, each by its case. -/
theorem rolesOfTheTwins : Obligations.RolesOfTheTwins := by
  unfold Obligations.RolesOfTheTwins
  refine ⟨fun s h hl => ?_, fun s h hl => ?_, fun s h => exec_arbitrationStart_not h,
    fun s hr hc hl => ⟨fun hp hd => ?_, fun hp hd => ?_, ?_, fun hp => ?_, fun hp => ?_⟩,
    fun s p low hw => ⟨exec_claimWindow low hw, fun h0 hr hend => ?_⟩, fun s ha hs => ?_, fun s hr => ?_, fun s h => ?_,
    fun s h hb hq ha hf hl => ?_, fun s c hm hr hy hs hb hc => ?_, fun s x hx hr ha hp => ?_, fun s x hx hr hp => ?_,
    fun s x hx hr ha hp => ?_, fun s d hd hr => ⟨fun hg hc => ?_, fun hg => ?_⟩⟩
  · rw [exec_arbitrationStart h, hl]
    rfl
  · have hexec : exec .arbitrationStart s = .next (arbStandby (arbBegun s)) := by
      rw [exec_arbitrationStart h, if_pos hl]
    exact ⟨hexec, _, hexec, stance_eq.1 (stance_arbStandby _)⟩
  · rw [exec_observeEnd, whenever_true (by simp [hr, hp, hc, hl, hd])]
  · rw [exec_graceEnd, whenever_true (by simp [hr, hp, hc, hl, hd])]
  · obtain ⟨hstance, hsync⟩ := arbActive_shows s
    obtain ⟨hrole, hclaim, hgate⟩ := stance_eq.1 hstance
    exact ⟨hrole, hclaim, hgate, hsync⟩
  · rw [exec_observeEnd, whenever_false (by simp [hp])]
  · rw [exec_graceEnd, whenever_false (by simp [hp])]
  · rw [exec_claimWindow low hw, h0, claimSampled_own_high hr hend]
  · have hno (low : Bool) : mayTakeOver (lineSeen s low) = false := mayTakeOver_of_role hs
    constructor
    · rw [exec_claimLowRead, if_neg ha, takeoverCheck_not (hno true)]
      rfl
    · rw [exec_claimHighRead, takeoverCheck_not (hno false)]
      rfl
  · have hno : mayTakeOver (lineSeen s false) = false := mayTakeOver_of_role (by simp [lineSeen, hr])
    constructor
    · rw [exec_claimLowRead, if_pos hr]
      rfl
    · rw [exec_claimHighRead, takeoverCheck_not hno]
      rfl
  · have hexec : exec .claimHighRead s = .next (takeover (lineSeen s false)) := by
      rw [exec_claimHighRead, takeoverCheck_high ((mayTakeOver_lineSeen s false).trans h) rfl]
    obtain ⟨hstance, htask, hmode⟩ := takeover_shows (lineSeen s false)
    obtain ⟨hrole, hclaim, hgate⟩ := stance_eq.1 hstance
    refine ⟨hexec, ⟨_, hexec, hrole, hclaim, hgate, htask, hmode⟩, fun hwait hiso hwin => ?_⟩
    have harb : s.twin.role ≠ .arb := by simp [role_of_mayTakeOver h]
    rw [exec_claimLowRead, if_neg harb,
      takeoverCheck_low ((mayTakeOver_lineSeen s true).trans h) rfl hwait hiso hwin]
    rfl
  · have hexec := exec_roleSwap hf hb hq ha hl
    refine ⟨fun hr => ?_, fun hr hy => ?_, fun hr hy hs => ?_⟩
    · rw [hexec, roleSwap, if_pos hr]
    · rw [hexec, roleSwap, if_neg (not_not_intro hr), if_pos hy]
    · rw [roleSwap, if_neg (not_not_intro hr), if_neg (not_not_intro hy), hs, if_neg (by decide)] at hexec
      obtain ⟨htwin, _, hmbx⟩ := swapStart_shows (mbxTaken s h) (some h)
      exact ⟨_, hexec, by rw [htwin]; rfl, by rw [htwin]; exact hr, hmbx⟩
  · obtain ⟨htwin, hmode, _⟩ := swapStart_shows s none
    exact ⟨_, exec_swapCondition hm hr hy hs hb hc, by rw [htwin]; rfl, hmode⟩
  · rw [exec_swapPoint hx, if_pos ⟨hr, ha, hp⟩]
  · have hexec : exec .swapPoint s = .next (swapIn s) := by
      rw [exec_swapPoint hx, if_neg (by simp [hr]), if_pos ⟨hr, hp⟩]
    exact ⟨hexec, _, hexec, stance_eq.1 (stance_swapIn s)⟩
  · obtain ⟨htwin, hbusy⟩ := swapAborts_shows s
    exact ⟨_, exec_swapAbort hx hr ha hp, by rw [htwin], by rw [htwin]; exact hr, hbusy⟩
  · rw [exec_takeoverTask hd, whenever_true (by simp [hr, hg, hc])]
  · rw [exec_takeoverTask hd, whenever_false (by simp [hg])]

end Sys2Proof.Proofs
end

section
/-!
ALIVE and heartbeats (R453 to R455), the announcement of the role (R483), and what an entry to QUARANTINE leaves (R535).
-/
namespace Sys2Proof.Proofs
open Sys2Proof Sys2Proof.Machine Sys2Proof.Laws

/-! ### Entry to QUARANTINE (R535, R61, Table 15-4) -/

@[simp] theorem swapAnswer_mode (s : State) (st : Nat) : (swapAnswer s st).mode = s.mode :=
  (fr_swapAnswer (F := 549755871240) rfl frm_refl).mode.resolve_left (by decide)

@[simp] theorem discardCommits_mode (s : State) : (discardCommits s).mode = s.mode :=
  (fr_discardCommits (F := 549772747528) rfl frm_refl).mode.resolve_left (by decide)

@[simp] theorem discardCommits_twin (s : State) : (discardCommits s).twin = s.twin :=
  (fr_discardCommits (F := 549772747528) rfl frm_refl).twin.resolve_left (by decide)

@[simp] theorem discardCommits_power (s : State) : (discardCommits s).power = s.power :=
  (fr_discardCommits (F := 549772747528) rfl frm_refl).power.resolve_left (by decide)

theorem discardCommits_commits (s : State) : (discardCommits s).commits = [] := rfl

/-- Ports, buses and pulse outputs that stop leave the mode, the commits and the twin's state. -/
theorem stopOutputs_keeps (s : State) :
    (stopOutputs s).mode = s.mode ∧ (stopOutputs s).commits = s.commits ∧ (stopOutputs s).twin = s.twin :=
  have h := fr_stopOutputs (F := 1719953940488) (b := s) rfl frm_refl
  ⟨h.mode.resolve_left (by decide), h.commits.resolve_left (by decide), h.twin.resolve_left (by decide)⟩

@[simp] theorem setMode_commits (s : State) (m : Mode) (g u a : Nat) : (setMode s m g u a).commits = s.commits :=
  (fr_setMode (F := 549756035084) rfl frm_refl).commits.resolve_left (by decide)

@[simp] theorem setMode_power (s : State) (m : Mode) (g u a : Nat) : (setMode s m g u a).power = s.power :=
  (fr_setMode (F := 549756035084) rfl frm_refl).power.resolve_left (by decide)

/-- R521: a mode change ends in its mode. -/
@[simp] theorem setMode_mode (s : State) (m : Mode) (g u a : Nat) : (setMode s m g u a).mode = m := by
  rw [setMode]
  split
  case isTrue h => exact h
  case isFalse => rw [raise_mode, silt__mode]

/-- Role, claim, swaps and commits as an entry to QUARANTINE ends them, before the outputs stop. -/
def disarmed (s : State) : State := roleNone (aliveFall (discardCommits (swapAnswer s 3)))

/-- Every supply on, without a sleep entry, a wake or a test. -/
def powered (t : State) : State :=
  { t with
    power := { t.power with entry := none, supplies := true, wakeAt := none }
    faults := { t.faults with testBusy := false } }

/-- The outputs stopped, the supplies on, and the cause in `PWR_QUAR_CAUSE`. -/
def halted (s : State) (cause : Nat) : State :=
  ((powered (stopOutputs (disarmed s))).setReg (aPwr 0x04C) (w32 cause)).bump (aPwrCnt 4)

theorem quarantine_of_ne {s : State} (h : s.mode ≠ .quarantine) (cause g u a : Nat) :
    quarantine s cause g u a = setMode (halted s cause) .quarantine g u a := by
  simp only [quarantine, if_neg h, halted, powered, disarmed]

theorem halted_twin (s : State) (cause : Nat) : (halted s cause).twin = (disarmed s).twin := by
  obtain ⟨-, -, htwin⟩ := stopOutputs_keeps (disarmed s)
  rw [halted, bump_twin, setReg_twin, ← htwin, powered]

theorem halted_commits (s : State) (cause : Nat) : (halted s cause).commits = [] := by
  obtain ⟨-, hcommits, -⟩ := stopOutputs_keeps (disarmed s)
  have hd : (disarmed s).commits = [] := discardCommits_commits (swapAnswer s 3)
  rw [halted, bump_commits, setReg_commits, ← hd, ← hcommits, powered]

theorem halted_supplies (s : State) (cause : Nat) : (halted s cause).power.supplies = true := by
  rw [halted, bump_power, setReg_power, powered]

/-- R535: the unit is in QUARANTINE without role, claim and ALIVE, its commits are discarded and its supplies are on. -/
theorem quarantine_shows {s : State} (h : s.mode ≠ .quarantine) (cause g u a : Nat) :
    (quarantine s cause g u a).mode = .quarantine ∧ (quarantine s cause g u a).twin.alive = false ∧
      (quarantine s cause g u a).twin.role = .none ∧ (quarantine s cause g u a).twin.claim = false ∧
      (quarantine s cause g u a).commits = [] ∧ (quarantine s cause g u a).power.supplies = true := by
  rw [quarantine_of_ne h, setMode_twin, setMode_commits, setMode_power, halted_twin]
  exact ⟨setMode_mode .., rfl, rfl, rfl, halted_commits .., halted_supplies ..⟩

/-! ### Kicks (R453) -/

theorem exec_twnKick {s : State} {w : Who} (h : Passes s w (aTwn 0x050) 1) : exec (.twnKick w) s = .next (kicked s) :=
  congrArg _ (write_passes h)

/-- What KICK_TIMEOUT waits for. -/
theorem exec_kickTimeout {s : State} {k : Nat} (h : s.twin.lastKick = some k) : exec .kickTimeout s =
    .next (whenever (s.twin.alive && decide (k + 100000 ≤ s.cclk)) s (kickMissed s)) := by
  show execKickTimeout s = _
  rw [execKickTimeout, h]

/-! ### Heartbeats (R454, R455) -/

@[simp] theorem hbOn_twin (s : State) (l : Nat) : (hbOn s l).twin = s.twin :=
  (fr_hbOn (F := 549755813896) rfl frm_refl).twin.resolve_left (by decide)

@[simp] theorem hbOn_mode (s : State) (l : Nat) : (hbOn s l).mode = s.mode :=
  (fr_hbOn (F := 549755813896) rfl frm_refl).mode.resolve_left (by decide)

/-- A record on a lane comes after what the unit has sent. -/
theorem mem_hbOn_out {s : State} {o : Out} (l : Nat) (h : o ∈ s.out) : o ∈ (hbOn s l).out := by
  rw [hbOn]
  split
  · exact List.mem_cons_of_mem _ h
  · exact h

/-- R454: a heartbeat goes out, and the next is 10,000 cycles later. -/
theorem heartbeat_shows (s : State) : (heartbeat s).twin.nextHb = s.cclk + 10000 ∧ Out.heartbeat ∈ (heartbeat s).out ∧
    (heartbeat s).mode = s.mode := by
  refine ⟨?_, ?_, ?_⟩
  · rw [heartbeat, hbOn_twin, hbOn_twin]; rfl
  · exact mem_hbOn_out 1 (mem_hbOn_out 0 List.mem_cons_self)
  · rw [heartbeat, hbOn_mode, hbOn_mode]; rfl

theorem exec_heartbeatTx (s : State) : exec .heartbeatTx s =
    .next (whenever (s.twin.alive && decide (s.twin.nextHb ≤ s.cclk)) s (heartbeat s)) := rfl

/-- A unit that is neither in BOOT nor asleep. -/
theorem awake_guard {s : State} (hb : s.mode ≠ .boot) (ha : asleep s.mode = false) :
    (s.mode != .boot && !asleep s.mode) = true := by simp [hb, ha]

theorem exec_heartbeatRx {s : State} (hb : s.mode ≠ .boot) (ha : asleep s.mode = false) (p : HbPath) (x : HbInfo) :
    exec (.heartbeatRx p x) s = .next (heartbeatHeard s p x) :=
  congrArg _ (whenever_true (awake_guard hb ha))

theorem exec_heartbeatSilent {s : State} {p : HbPath} (hb : s.mode ≠ .boot) (ha : asleep s.mode = false)
    (hs : isSilent s p = false) (hc : lastHeard s p + hbMiss s * 10000 + 1000 ≤ s.cclk) :
    exec (.heartbeatSilent p) s = .next (silence s p) :=
  congrArg _ (whenever_true (by simp [hb, ha, hs, hc]))

theorem isSilent_congr {s t : State} (h : t.twin = s.twin) (p : HbPath) : isSilent t p = isSilent s p := by
  cases p <;> simp only [isSilent, h]

theorem isSilent_setSilent_same (s : State) (p : HbPath) : isSilent (setSilent s p) p = true := by
  cases p <;> rfl

theorem isSilent_setSilent_other (s : State) (p : HbPath) :
    isSilent (setSilent s p) (otherPath p) = isSilent s (otherPath p) := by
  cases p <;> rfl

theorem role_setSilent (s : State) (p : HbPath) : (setSilent s p).twin.role = s.twin.role := by
  cases p <;> rfl

/-- R455: the first of the two paths that falls silent is counted and reported. -/
theorem silence_first {s : State} {p : HbPath} (h : isSilent s (otherPath p) = false) :
    silence s p = (((setSilent s p).bump (aTwnCnt 12)).raise pTwn 9).report 0x28 (unitId 8 0) [] false := by
  rw [silence, h]
  rfl

/-- It leaves the twin's state but for the path. -/
theorem silence_first_twin {s : State} {p : HbPath} (h : isSilent s (otherPath p) = false) :
    (silence s p).twin = (setSilent s p).twin := by
  rw [silence_first h, report_twin, raise_twin, bump_twin]

theorem silence_first_bitAt {s : State} {p : HbPath} (h : isSilent s (otherPath p) = false) :
    (silence s p).bitAt (regAddr pTwn 0x10) 9 = true := by
  rw [silence_first h, report_bitAt, bitAt_raise (by decide)]

/-! ### The obligation -/

/-- Settles O46: each command's condition, and what it leaves where the condition holds. -/
theorem aliveAndHeartbeats : Obligations.AliveAndHeartbeats := by
  unfold Obligations.AliveAndHeartbeats
  refine ⟨?_, ?_, ?_, ?_, ?_, ?_, ?_, ?_, ?_⟩
  · intro s w h
    exact exec_twnKick h
  · intro s k hk ha hc hq
    obtain ⟨hm, hal, hr, hcl, hco, -⟩ :=
      quarantine_shows (s := (aliveFall s).tick1) hq 0x40 oHw 5 (Config.freeNat s.free % 64)
    refine ⟨kickMissed s, ?_, hm, hal, hr, hcl, hco⟩
    rw [exec_kickTimeout hk, whenever_true (by simp [ha, hc])]
  · intro s k hk hc
    rw [exec_kickTimeout hk, whenever_false (by simp [Nat.not_le.mpr hc])]
  · intro s ha hc
    refine ⟨heartbeat s, ?_, heartbeat_shows s⟩
    rw [exec_heartbeatTx, whenever_true (by simp [ha, hc])]
  · intro s ha
    rw [exec_heartbeatTx, whenever_false (by simp [ha])]
  · intro s p x hb ha
    exact exec_heartbeatRx hb ha p x
  · intro s p hb ha hs hc ho
    refine ⟨silence s p, exec_heartbeatSilent hb ha hs hc, ?_, ?_, ?_, silence_first_bitAt ho⟩
    · rw [isSilent_congr (silence_first_twin ho), isSilent_setSilent_same]
    · rw [isSilent_congr (silence_first_twin ho), isSilent_setSilent_other, ho]
    · rw [silence_first_twin ho, role_setSilent]
  · intro s h
    exact congrArg _ (whenever_true h)
  · intro s h
    exact congrArg _ (whenever_false h)

end Sys2Proof.Proofs
end

section
/-!
Records of the Shell Link: what arrives, LACK and retransmission (R457 to R459).
-/
namespace Sys2Proof.Proofs
open Sys2Proof Sys2Proof.Machine Sys2Proof.Laws

/-! ### Counters of the Shell Link (Table 15-13) -/

/-- The counters lie apart: one that is advanced leaves the others. -/
theorem pair_bumpBy_slCnt_ne {j k : Nat} (h : j ≠ k) (s : State) (n : Nat) :
    (s.bumpBy (aSlCnt j) n).pair (aSlCnt k) = s.pair (aSlCnt k) := by
  have h1 : aSlCnt k ≠ aSlCnt j := by simp only [aSlCnt, regAddr]; omega
  have h2 : aSlCnt k ≠ aSlCnt j + 4 := by simp only [aSlCnt, regAddr]; omega
  have h3 : aSlCnt k + 4 ≠ aSlCnt j := by simp only [aSlCnt, regAddr]; omega
  have h4 : aSlCnt k + 4 ≠ aSlCnt j + 4 := by simp only [aSlCnt, regAddr]; omega
  rw [State.bumpBy, State.pair, reg_setPair h1 h2, reg_setPair h3 h4, State.pair]

theorem pair_bump_slCnt_ne {j k : Nat} (h : j ≠ k) (s : State) :
    (s.bump (aSlCnt j)).pair (aSlCnt k) = s.pair (aSlCnt k) := pair_bumpBy_slCnt_ne h s 1

/-- They lie outside every register below them, those that the Shell Link reads among them. -/
theorem reg_bump_slCnt {s : State} {k a : Nat} (h : a < aSlCnt 0) : (s.bump (aSlCnt k)).reg a = s.reg a := by
  simp only [aSlCnt, regAddr] at h
  exact reg_bump (by simp only [aSlCnt, regAddr]; omega) (by simp only [aSlCnt, regAddr]; omega)

theorem syncCnt_bump_slCnt (s : State) (k : Nat) : syncCnt (s.bump (aSlCnt k)) = syncCnt s := by
  rw [syncCnt, reg_bump_slCnt (by decide), syncCnt]

theorem slLane_bump_slCnt (s : State) (k : Nat) : slLane (s.bump (aSlCnt k)) = slLane s := by
  have h (l : Nat) : laneUp (s.bump (aSlCnt k)) l = laneUp s l := by
    rw [laneUp, State.bitAt, reg_bump_slCnt (by decide), bump_sl, laneUp, State.bitAt]
  rw [slLane, h, bump_sl, slLane]

/-! ### A record that leaves -/

/-- The lane for the next record depends on the lanes' state and turn and on the lanes enabled. -/
theorem slLane_congr {s t : State} (hup : t.sl.up = s.sl.up) (hturn : t.sl.turn = s.sl.turn) (hregs : t.regs = s.regs) :
    slLane t = slLane s := by
  have h (l : Nat) : laneUp t l = laneUp s l := by
    rw [laneUp, State.bitAt, hup, reg_congr hregs, laneUp, State.bitAt]
  rw [slLane, h, hturn, slLane]

theorem slEmit_out (s : State) (r : SlRec) : (slEmit s r).out = .sl (slLane s) r :: s.out := rfl

theorem slEmit_sl (s : State) (r : SlRec) : (slEmit s r).sl = { s.sl with turn := 1 - slLane s } := rfl

/-- A record that leaves counts among those sent and their bytes, not among those received. -/
theorem slEmit_received (s : State) (r : SlRec) : (slEmit s r).pair (aSlCnt 1) = s.pair (aSlCnt 1) := by
  rw [slEmit, slEmitOn, State.pair, emit_reg, emit_reg, ← State.pair, pair_bumpBy_slCnt_ne (by decide),
    pair_bump_slCnt_ne (by decide)]
  rfl

/-- R459: with an empty buffer, the one record that waited leaves and is the one kept. -/
theorem slDrain_single {s : State} (h : s.sl.unacked = []) (r : SlRec) :
    (slDrain [r] s).pair (aSlCnt 1) = s.pair (aSlCnt 1) ∧ (slDrain [r] s).sl.waiting = [] ∧
      (slDrain [r] s).sl.unacked = [({ r with sync := syncCnt s }, s.cclk)] ∧
      (slDrain [r] s).out = .sl (slLane s) { r with sync := syncCnt s } :: s.out := by
  have hfits : slFits s r = true := by simp [slFits, h]
  have hd : slDrain [r] s = slPass { s with sl := { s.sl with waiting := [] } } r := by
    rw [slDrain, if_pos hfits, slDrain]
  rw [hd]
  refine ⟨?_, ?_, ?_, ?_⟩
  · rw [slPass, slEmit_received]; rfl
  · rw [slPass, slEmit_sl]
  · rw [slPass, slEmit_sl]
    simp only [h, List.nil_append]
    rfl
  · rw [slPass, slEmit_out, slLane_congr (s := s) rfl rfl rfl]
    rfl

/-! ### Records that arrive (R458, R459) -/

/-- A lane that is UP and enabled. -/
theorem laneUp_of {s : State} {lane : Nat} (hup : bit s.sl.up lane = true)
    (hen : s.bitAt (regAddr pSl 0x040) lane = true) : laneUp s lane = true := by
  simp [laneUp, hup, hen]

theorem exec_slRecordRx {s : State} {lane : Nat} (hl : twoOk lane = true) (hu : laneUp s lane = true) (bs : List Byte) :
    exec (.slRecordRx lane bs) s = .next (slReceive s bs) :=
  (ifWf_true hl).trans (congrArg _ (whenever_true hu))

/-- Nothing arrives on a lane that is down. -/
theorem exec_slRecordRx_down {s : State} {lane : Nat} (hl : twoOk lane = true)
    (h : bit s.sl.up lane = false ∨ s.bitAt (regAddr pSl 0x040) lane = false) (bs : List Byte) :
    exec (.slRecordRx lane bs) s = .next s := by
  have hu : laneUp s lane = false := by
    obtain h | h := h <;> simp [laneUp, h]
  exact (ifWf_true hl).trans (congrArg _ (whenever_false hu))

theorem slReceive_badCrc {s : State} {bs : List Byte} (h : slCrcOk bs = false) :
    slReceive s bs = (s.bump (aSlCnt 1)).bump (aSlCnt 2) := by
  simp [slReceive, h]

theorem slReceive_noType {s : State} {bs : List Byte} (h : slCrcOk bs = true)
    (ht : slTypes.contains (byteAt bs 0) = false) : slReceive s bs = (s.bump (aSlCnt 1)).bump (aSlCnt 3) := by
  simp only [slReceive, h, ht, Bool.not_true, Bool.not_false, Bool.false_eq_true, if_false, if_true]

theorem slReceive_lack {s : State} {bs : List Byte} (h : slCrcOk bs = true) (ht : byteAt bs 0 = 2) :
    slReceive s bs = lackTaken (s.bump (aSlCnt 1)) (beAt bs 16 4) := by
  have hmem : slTypes.contains 2 = true := by decide
  simp only [slReceive, h, ht, hmem, Bool.not_true, Bool.false_eq_true, if_false]

/-- A record that is dropped counts as received and in the counter of its cause; link and twin keep their state. -/
theorem dropped_shows {s : State} {k : Nat} (h : k ≠ 1) :
    ((s.bump (aSlCnt 1)).bump (aSlCnt k)).pair (aSlCnt 1) = (s.pair (aSlCnt 1) + 1) % 2 ^ 64 ∧
      ((s.bump (aSlCnt 1)).bump (aSlCnt k)).pair (aSlCnt k) = (s.pair (aSlCnt k) + 1) % 2 ^ 64 ∧
      ((s.bump (aSlCnt 1)).bump (aSlCnt k)).sl = s.sl ∧ ((s.bump (aSlCnt 1)).bump (aSlCnt k)).twin = s.twin := by
  refine ⟨?_, ?_, ?_, ?_⟩
  · rw [pair_bump_slCnt_ne h, pair_bump]
  · rw [pair_bump, pair_bump_slCnt_ne (Ne.symm h)]
  · rw [bump_sl, bump_sl]
  · rw [bump_twin, bump_twin]

/-- The records that a LACK leaves kept. -/
def lackKept (s : State) (seq : Nat) : State := { s with sl := { s.sl with unacked := lackLeft s seq } }

theorem lackTaken_eq (s : State) (seq : Nat) : lackTaken s seq = slDrain s.sl.waiting (lackKept s seq) := rfl

theorem lackTaken_none {s : State} {seq : Nat} (hw : s.sl.waiting = []) : lackTaken s seq = lackKept s seq := by
  rw [lackTaken_eq, hw, slDrain]

/-- A LACK that covers every record leaves the buffer empty. -/
theorem lackLeft_covered {s : State} {seq : Nat}
    (h : ∀ x ∈ s.sl.unacked, 2 ^ 31 ≤ (x.1.lseq + 2 ^ 32 - seq - 1) % 2 ^ 32) : lackLeft s seq = [] :=
  List.filter_eq_nil_iff.mpr fun x hx => by simpa using h x hx

/-- R459: the record that waited goes out once a LACK has emptied the buffer. -/
theorem lackTaken_single {s : State} {seq : Nat} {r : SlRec} (hw : s.sl.waiting = [r])
    (h : ∀ x ∈ s.sl.unacked, 2 ^ 31 ≤ (x.1.lseq + 2 ^ 32 - seq - 1) % 2 ^ 32) :
    (lackTaken s seq).pair (aSlCnt 1) = s.pair (aSlCnt 1) ∧ (lackTaken s seq).sl.waiting = [] ∧
      (lackTaken s seq).sl.unacked = [({ r with sync := syncCnt s }, s.cclk)] ∧
      (lackTaken s seq).out = .sl (slLane s) { r with sync := syncCnt s } :: s.out := by
  rw [lackTaken_eq, hw]
  obtain ⟨hp, hwait, hun, hout⟩ := slDrain_single (s := lackKept s seq) (lackLeft_covered h) r
  refine ⟨?_, hwait, hun, ?_⟩
  · rw [hp]; rfl
  · rw [hout, slLane_congr (s := s) rfl rfl rfl]; rfl

/-! ### LACK and retransmission (R459) -/

theorem exec_slLack {s : State} (hu : slUp s = true) (hd : s.sl.lackDue ≠ none) : exec .slLack s = .next (slAcks s) :=
  congrArg _ (whenever_true (by rw [hu, Bool.true_and, Option.isSome_iff_ne_none]; exact hd))

/-- What SL_RETRANSMIT waits for. -/
theorem exec_slRetransmit {s : State} {x : SlRec × Nat} {rest : List (SlRec × Nat)} (h : s.sl.unacked = x :: rest) :
    exec .slRetransmit s = .next (whenever (slUp s && decide (x.2 + 10000 ≤ s.cclk)) s (slResend s)) := by
  show execSlRetransmit s = _
  rw [execSlRetransmit, h]

/-! ### The obligation -/

/-- Settles O47: what each kind of record leaves, then the LACK that is due and the retransmission. -/
theorem shellLinkRecords : Obligations.ShellLinkRecords := by
  unfold Obligations.ShellLinkRecords
  refine ⟨fun s lane bs hl => ⟨fun h => exec_slRecordRx_down hl h bs, fun hup hen => ?_⟩, ?_, ?_⟩
  · have hx := exec_slRecordRx hl (laneUp_of hup hen) bs
    refine ⟨fun hc => ?_, fun hc ht => ?_, fun hc ht hw => ?_, fun r hc ht hw hall => ?_⟩
    · exact ⟨_, by rw [hx, slReceive_badCrc hc], dropped_shows (by decide)⟩
    · exact ⟨_, by rw [hx, slReceive_noType hc ht], dropped_shows (by decide)⟩
    · refine ⟨lackKept (s.bump (aSlCnt 1)) (beAt bs 16 4), ?_, ?_, rfl, rfl⟩
      · rw [hx, slReceive_lack hc ht, lackTaken_none (by rw [bump_sl, hw])]
      · exact pair_bump s (aSlCnt 1)
    · obtain ⟨hp, hwait, hun, hout⟩ := lackTaken_single (s := s.bump (aSlCnt 1)) (seq := beAt bs 16 4) hw hall
      rw [syncCnt_bump_slCnt] at hun hout
      rw [slLane_bump_slCnt, bump_out] at hout
      rw [pair_bump] at hp
      exact ⟨_, by rw [hx, slReceive_lack hc ht], hp, hwait, hun, hout⟩
  · intro s hu hd
    refine ⟨slAcks s, exec_slLack hu hd, ?_, ?_, ?_⟩
    · rw [slAcks, slEmit_sl]
    · rw [slAcks, slEmit_sl]
    · rw [slAcks, slEmit_out]
      exact congrArg (fun l => Out.sl l _ :: s.out) (slLane_congr rfl rfl rfl)
  · intro s x rest hun hu
    refine ⟨fun hc => ?_, fun hc => ?_⟩
    · rw [exec_slRetransmit hun, whenever_true (by simp [hu, hc])]
    · rw [exec_slRetransmit hun, whenever_false (by simp [Nat.not_le.mpr hc])]

end Sys2Proof.Proofs
end

section
/-!
Sleep entry, supplies and wake (R523 to R525, R571), the starts (R530) and the Husk causes (R446, R572).
-/
namespace Sys2Proof.Proofs
open Sys2Proof Sys2Proof.Machine Sys2Proof.Laws

/-! ### Sleep entry (Table 17-3) -/

/-- The first row's state: the stage is noted and the fabric stopped. -/
def fabricStopped (s : State) (e : SleepEntry) : State :=
  { setStage s e .stopped with fab := { s.fab with stopped := true } }

/-- What the first row does to CAN channels and TC10 ports leaves the fabric, the power state and the mode. -/
theorem entryStops_frm (s : State) (e : SleepEntry) : Frm 551367475200 (fabricStopped s e) (entryStops s e) := by
  have hcan : Frm 551367475200 (fabricStopped s e) ((List.range 24).foldl canSleepEntry (fabricStopped s e)) :=
    frm_foldl (fun _ _ ht => fr_canSleepEntry rfl ht) frm_refl
  rw [entryStops]
  split
  · exact frm_foldl (fun _ _ ht => fr_tc10Negotiate rfl ht) hcan
  · exact hcan

theorem entryStops_shows (s : State) (e : SleepEntry) :
    (entryStops s e).fab.stopped = true ∧ (entryStops s e).power.entry = some { e with stage := .stopped } ∧
      (entryStops s e).mode = s.mode := by
  have h := entryStops_frm s e
  have hfab : (entryStops s e).fab = (fabricStopped s e).fab := h.fab.resolve_left (by decide)
  have hpower : (entryStops s e).power = (fabricStopped s e).power := h.power.resolve_left (by decide)
  have hmode : (entryStops s e).mode = (fabricStopped s e).mode := h.mode.resolve_left (by decide)
  exact ⟨by rw [hfab]; rfl, by rw [hpower]; rfl, by rw [hmode]; rfl⟩

/-- The drain of the ports. -/
def entryDrains (s : State) (e : SleepEntry) : State := (List.range 52).foldl entryDrainsPort (setStage s e .drained)

theorem entryDrains_shows (s : State) (e : SleepEntry) :
    (entryDrains s e).power.entry = some { e with stage := .drained } ∧ (entryDrains s e).mode = s.mode := by
  have h : Frm 1718879674376 (setStage s e .drained) (entryDrains s e) :=
    frm_foldl (fun _ _ ht => fr_entryDrainsPort rfl ht) frm_refl
  have hpower : (entryDrains s e).power = (setStage s e .drained).power := h.power.resolve_left (by decide)
  have hmode : (entryDrains s e).mode = (setStage s e .drained).mode := h.mode.resolve_left (by decide)
  exact ⟨by rw [hpower]; rfl, by rw [hmode]; rfl⟩

@[simp] theorem hostLinkGone_twin (s : State) (h : HostPort) : (hostLinkGone s h).twin = s.twin :=
  (fr_hostLinkGone (F := 2100239233032) rfl frm_refl).twin.resolve_left (by decide)

/-- R453: ALIVE falls, and hosts' links go down. -/
def linksGone (t : State) : State := hostLinkGone (hostLinkGone (aliveFall t) .a) .b

theorem linksGone_twin (t : State) : (linksGone t).twin = (aliveFall t).twin := by
  rw [linksGone, hostLinkGone_twin, hostLinkGone_twin]

/-- The unit before its links go: TERM in non-volatile memory, no swap. -/
def entryLeaves (s : State) : State :=
  let t := whenever (mayCheckpoint s) s (checkpointNow s)
  let t := swapAnswer { t with nvm := { t.nvm with term := t.term } } 0x13
  { t with twin := { t.twin with swap := none, sync := .none, taskAt := none } }

/-- The mode of a depth of sleep. -/
def sleepMode (e : SleepEntry) : Mode := if e.deep then .sleepDeep else .sleepRetain

/-- The entry's last stage, in the mode SLEEP. -/
def dozed (t : State) (e : SleepEntry) : State := { setStage t e .asleep with mode := sleepMode e }

/-- The mode and the depth of an entry. -/
def depthNoted (t : State) (before : Mode) (deep : Bool) : State :=
  { t with power := { t.power with before := before, lastDeep := deep } }

theorem entrySleeps_eq (s : State) (e : SleepEntry) : entrySleeps s e =
    ((depthNoted (discardCommits (dozed (linksGone (entryLeaves s)) e)) s.mode e.deep).bump
      (aPwrCnt (if e.deep then 2 else 1))).raise pPwr 0 := by
  simp only [entrySleeps, depthNoted, dozed, sleepMode, linksGone, entryLeaves]

theorem entrySleeps_shows (s : State) (e : SleepEntry) :
    (entrySleeps s e).mode = sleepMode e ∧ (entrySleeps s e).commits = [] ∧ (entrySleeps s e).twin.alive = false ∧
      (entrySleeps s e).twin.claim = false ∧ (entrySleeps s e).power.entry = some { e with stage := .asleep } := by
  have htwin : (dozed (linksGone (entryLeaves s)) e).twin = (aliveFall (entryLeaves s)).twin := linksGone_twin _
  rw [entrySleeps_eq, raise_mode, raise_commits, raise_twin, raise_power, bump_mode, bump_commits, bump_twin, bump_power]
  simp only [depthNoted, discardCommits_mode, discardCommits_twin, discardCommits_power, discardCommits_commits, htwin]
  exact ⟨rfl, trivial, rfl, rfl, rfl⟩

/-! ### Supplies (R571) and starts (R530) -/

/-- The last row of Table 17-3 ends the entry and switches the supplies off. -/
theorem suppliesGo_shows (s : State) (deep : Bool) :
    (suppliesGo s deep).power.entry = none ∧ (suppliesGo s deep).power.supplies = false ∧
      (suppliesGo s deep).power.mainEn = false ∧ (suppliesGo s deep).power.retEn = !deep :=
  ⟨rfl, rfl, rfl, rfl⟩

/-- What each row of a sleep entry waits for. -/
theorem exec_sleepEntryStop {s : State} {e : SleepEntry} (h : s.power.entry = some e) : exec .sleepEntryStop s =
    .next (whenever (e.stage == .responded && decide (entryStopAt e ≤ s.cclk)) s (entryStops s e)) := by
  show execSleepEntryStop s = _
  rw [execSleepEntryStop, h]

theorem exec_sleepDrainEnd {s : State} {e : SleepEntry} (h : s.power.entry = some e) : exec .sleepDrainEnd s =
    .next (whenever (e.stage == .stopped && decide (entryDrainAt s e ≤ s.cclk)) s (entryDrains s e)) := by
  show execSleepDrainEnd s = _
  rw [execSleepDrainEnd, h]
  rfl

theorem exec_sleepCheckpointDone {s : State} {e : SleepEntry} (h : s.power.entry = some e) :
    exec .sleepCheckpointDone s = .next (whenever (e.stage == .drained) s (entrySleeps s e)) := by
  show execSleepCheckpointDone s = _
  rw [execSleepCheckpointDone, h]

theorem exec_suppliesOff {s : State} {e : SleepEntry} (h : s.power.entry = some e) (hs : e.stage = .asleep) :
    exec .suppliesOff s = .next (whenever (suppliesGo s e.deep).power.late (suppliesGo s e.deep)
      (wakes (suppliesGo s e.deep))) := by
  show execSuppliesOff s = _
  rw [execSuppliesOff, h]
  exact congrArg _ (whenever_true (by rw [hs]; rfl))

theorem exec_supplyRetry {s : State} (h : s.power.supplies = false) : exec .supplyRetry s = .next (retry s) :=
  congrArg _ (whenever_true (by rw [h]; rfl))

/-! ### Wake (R524, R525) -/

@[simp] theorem wakeSource_power (s : State) (r b c : Nat) : (wakeSource s r b c).power = s.power :=
  (fr_wakeSource (F := 8) rfl frm_refl).power.resolve_left (by decide)

@[simp] theorem wakeSource_mode (s : State) (r b c : Nat) : (wakeSource s r b c).mode = s.mode :=
  (fr_wakeSource (F := 8) rfl frm_refl).mode.resolve_left (by decide)

/-- R524: in SLEEP the event wakes the unit. -/
theorem wakeEvent_asleep {s : State} (he : s.power.entry = none) (ha : asleep s.mode = true)
    (hw : s.power.wakeAt = none) (r b c : Nat) : wakeEvent s r b c = wakes (wakeSource s r b c) := by
  simp [wakeEvent, he, ha, hw]

/-- R525: once a wake has begun, the event adds its bit. -/
theorem wakeEvent_waking {s : State} (he : s.power.entry = none) (ha : asleep s.mode = true)
    (hw : s.power.wakeAt ≠ none) (r b c : Nat) : wakeEvent s r b c = s.setBitAt (aWake r) b true := by
  simp [wakeEvent, he, ha, Option.isSome_iff_ne_none.mpr hw]

/-- R524: during an entry the event is latched, and the entry goes on. -/
theorem wakeEvent_entry {s : State} (he : s.power.entry ≠ none) (r b c : Nat) :
    (wakeEvent s r b c).power.late = true ∧ (wakeEvent s r b c).power.entry = s.power.entry ∧
      (wakeEvent s r b c).mode = s.mode := by
  have hsome := Option.isSome_iff_ne_none.mpr he
  rw [wakeEvent, if_pos hsome]
  by_cases hl : s.power.late = true
  · simp only [hl, if_true, wakeSource_power, wakeSource_mode, and_self]
  · simp only [hl, Bool.false_eq_true, if_false, bump_power, bump_mode, wakeSource_power, wakeSource_mode, and_self]

/-- A wake from SLEEP-RETAIN switches the supplies on and has the rows of Table 17-5 before it. -/
theorem retainWake_power (s : State) : (retainWake s).power.supplies = true ∧ (retainWake s).power.mainEn = true ∧
    (retainWake s).power.wakeAt ≠ none :=
  ⟨rfl, rfl, Option.some_ne_none _⟩

theorem wakes_retain {s : State} (h : s.mode = .sleepRetain) : wakes s = retainWake (wakeCounted s) := by
  rw [wakes, if_neg (by rw [h]; decide)]

theorem exec_wakePinAssert {s : State} {k : Nat} (hk : k < 8) (h : s.bitAt (aWake 0x040) (4 * k) = true) :
    exec (.wakePinAssert k) s = .next (wakeEvent s 0x054 k k) :=
  (ifWf_true (decide_eq_true hk)).trans (congrArg _ (whenever_true h))

theorem exec_wakePinAssert_off {s : State} {k : Nat} (hk : k < 8) (h : s.bitAt (aWake 0x040) (4 * k) = false) :
    exec (.wakePinAssert k) s = .next s :=
  (ifWf_true (decide_eq_true hk)).trans (congrArg _ (whenever_false h))

/-- What WAKE_TIMER_EXPIRE waits for. -/
theorem exec_wakeTimerExpire (s : State) : exec .wakeTimerExpire s =
    .next (whenever (s.fld (aWake 0x04C) 0 24 != 0 && asleep s.mode && !s.power.supplies &&
      decide (s.fld (aWake 0x04C) 0 24 * 1000000 ≤ s.power.sleptNs)) s (wakeEvent s 0x054 16 0x20)) := rfl

/-! ### The Husk line (R446, Table 14-11) -/

/-- The wake that a Husk cause is in SLEEP, and the engines, MACs and key slots after it. -/
def huskCleared (s : State) : State :=
  clearSlots (abortMacs (laAbort
    (if (asleep s.mode || s.power.entry.isSome) = true then wakeSource s 0x054 17 0x21 else s))) false

/-- The unit as it enters QUARANTINE for a Husk cause. -/
def huskEnters (s : State) (b : Nat) : State :=
  huskPower ((siltHusk (huskKeys (huskCleared s) (huskSources (huskCleared s) b)) (huskSources (huskCleared s) b)).setReg
    (aKey 0x068) (w32 (huskSources (huskCleared s) b)))

theorem husk_eq (s : State) (b : Nat) : husk s b = quarantine (huskEnters s b) 0x43 oHw 8 0 := by
  simp only [husk, huskEnters, huskCleared]

theorem huskCleared_mode (s : State) : (huskCleared s).mode = s.mode := by
  have h : Frm 288836550664 s (huskCleared s) := by
    refine fr_clearSlots rfl (fr_abortMacs rfl (fr_laAbort rfl ?_))
    split
    · exact fr_wakeSource rfl frm_refl
    · exact frm_refl
  exact h.mode.resolve_left (by decide)

@[simp] theorem siltHusk_mode (t : State) (src : Nat) : (siltHusk t src).mode = t.mode :=
  (fr_siltHusk (F := 1649267662856) rfl frm_refl).mode.resolve_left (by decide)

theorem huskKeys_mode (t : State) (src : Nat) : (huskKeys t src).mode = t.mode :=
  (fr_huskKeys (F := 283467841536) rfl frm_refl).mode.resolve_left (by decide)

theorem huskPower_mode (t : State) : (huskPower t).mode = t.mode :=
  (fr_huskPower (F := 4194304) rfl frm_refl).mode.resolve_left (by decide)

theorem huskEnters_mode (s : State) (b : Nat) : (huskEnters s b).mode = s.mode := by
  rw [huskEnters, huskPower_mode, setReg_mode, siltHusk_mode, huskKeys_mode, huskCleared_mode]

/-- R446: a Husk cause ends in QUARANTINE, without a role and with its supplies on. -/
theorem husk_shows {s : State} (h : s.mode ≠ .quarantine) (b : Nat) :
    (husk s b).mode = .quarantine ∧ (husk s b).twin.role = .none ∧ (husk s b).power.supplies = true := by
  have hm : (huskEnters s b).mode ≠ .quarantine := by rw [huskEnters_mode]; exact h
  obtain ⟨hmode, -, hrole, -, -, hsup⟩ := quarantine_shows hm 0x43 oHw 8 0
  rw [husk_eq]
  exact ⟨hmode, hrole, hsup⟩

/-- R572: the clock detectors are off in SLEEP-DEEP. -/
theorem exec_glitchClock {s : State} (h : s.mode ≠ .sleepDeep) : exec (.glitchDetect .clock) s = .next (husk s 2) :=
  congrArg _ (whenever_true (by simp [h]))

theorem exec_glitchClock_deep {s : State} (h : s.mode = .sleepDeep) : exec (.glitchDetect .clock) s = .next s :=
  congrArg _ (whenever_false (by simp [h]))

/-- Each Husk cause, with its source's bit in `KEY_HUSK_SRC`. -/
theorem exec_huskCause {s : State} {b : Nat} {c : Instr}
    (h : (c, b) ∈ [(Instr.tamperAssert, 0), (.glitchDetect .voltage, 1), (.temperatureLimit, 3)] ∨
      (c = .glitchDetect .clock ∧ b = 2 ∧ s.mode ≠ .sleepDeep)) : exec c s = .next (husk s b) := by
  obtain h | ⟨rfl, rfl, hm⟩ := h
  · simp only [List.mem_cons, Prod.mk.injEq, List.not_mem_nil, or_false] at h
    obtain ⟨rfl, rfl⟩ | ⟨rfl, rfl⟩ | ⟨rfl, rfl⟩ := h <;> rfl
  · exact exec_glitchClock hm

/-! ### The obligation -/

/-- Settles O52: the rows of a sleep entry, then wakes, starts and Husk causes. -/
theorem sleepWakeAndStarts : Obligations.SleepWakeAndStarts := by
  unfold Obligations.SleepWakeAndStarts
  refine ⟨?_, ?_, ?_, ?_, ?_, ?_, ?_, ?_, ?_, ?_⟩
  · intro s e he
    refine ⟨fun hs hc => ?_, fun hs hc => ?_, fun hs => ?_, fun hs hl => ?_, fun hs hl => ?_⟩
    · refine ⟨entryStops s e, ?_, entryStops_shows s e⟩
      rw [exec_sleepEntryStop he, hs, whenever_true (by simp [hc])]
    · refine ⟨entryDrains s e, ?_, entryDrains_shows s e⟩
      rw [exec_sleepDrainEnd he, hs, whenever_true (by simp [hc])]
    · refine ⟨entrySleeps s e, ?_, entrySleeps_shows s e⟩
      rw [exec_sleepCheckpointDone he, hs, beq_self_eq_true, whenever_true rfl]
    · refine ⟨suppliesGo s e.deep, ?_, suppliesGo_shows s e.deep⟩
      rw [exec_suppliesOff he hs, whenever_false hl]
    · rw [exec_suppliesOff he hs, whenever_true hl]
  · intro s k hk h
    have hx := exec_wakePinAssert hk h
    refine ⟨fun he ha => ?_, fun he ha hw => ?_, fun he ha hw => ?_, fun he => ?_⟩
    · rw [hx, wakeEvent_awake he ha]
    · rw [wakeEvent_asleep he ha hw] at hx
      refine ⟨hx, fun hm => ⟨_, hx, ?_⟩⟩
      rw [wakes_retain (by rw [wakeSource_mode, hm])]
      exact retainWake_power _
    · rw [hx, wakeEvent_waking he ha hw]
    · exact ⟨_, hx, wakeEvent_entry he ..⟩
  · intro s k hk h
    exact exec_wakePinAssert_off hk h
  · intro s hn ha hs he hw hc
    rw [exec_wakeTimerExpire, whenever_true (by simp [hn, ha, hs, hc]), wakeEvent_asleep he ha hw]
  · intro s h
    rw [exec_wakeTimerExpire, whenever_false (by simp [h])]
  · intro s
    exact ⟨rfl, rfl⟩
  · intro s h
    exact congrArg _ (whenever_false (by rw [h]; rfl))
  · intro s h
    rw [exec_supplyRetry h, retry]
    exact ⟨fun hm => by rw [if_pos hm], fun hm => by rw [if_neg hm]⟩
  · intro s b c h
    have hx := exec_huskCause h
    exact ⟨hx, fun hm => ⟨_, hx, husk_shows hm b⟩⟩
  · intro s h
    exact exec_glitchClock_deep h

end Sys2Proof.Proofs
end

section
/-!
Update decisions of a host (R547, R549, Table 18-9).
-/
namespace Sys2Proof.Proofs
open Sys2Proof Sys2Proof.Machine Sys2Proof.Laws

/-! ### UPD_DECIDE as the mailbox serves it -/

/-- A UPD_DECIDE of host `h` is served next, in a mode that serves it. -/
structure DecideServed (s : State) (h : HostPort) : Prop where
  notBoot : s.mode ≠ .boot
  notQuarantine : s.mode ≠ .quarantine
  awake : asleep s.mode = false
  front : mbxFront s h 5 = true

/-- A decision of the length that its DECISION asks for runs. -/
theorem updDecide_runs {s : State} {h : HostPort} (hs : DecideServed s h) {n len : Nat} {act : State → State}
    (hn : mbxByte s h 8 = n) (hl : mbxLen s h = len) : updDecide n len s h act = act s :=
  (if_pos hn).trans (mbxServe_serves hs.front hs.notBoot hs.notQuarantine hs.awake hl)

section
variable {s : State} {h : HostPort} (hs : DecideServed s h)
include hs

theorem exec_updActivate (hn : mbxByte s h 8 = 1) (hl : mbxLen s h = 2) :
    exec (.updActivate h) s = .next (activateReq s h) := congrArg _ (updDecide_runs hs hn hl)

theorem exec_updActivateReset (hn : mbxByte s h 8 = 2) (hl : mbxLen s h = 2) :
    exec (.updActivateReset h) s = .next (activateResetReq s h) := congrArg _ (updDecide_runs hs hn hl)

theorem exec_updCancel (hn : mbxByte s h 8 = 3) (hl : mbxLen s h = 2) :
    exec (.updCancel h) s = .next (cancelReq s h) := congrArg _ (updDecide_runs hs hn hl)

theorem exec_updVeto (hn : mbxByte s h 8 = 4) (hl : mbxLen s h = 2) :
    exec (.updVeto h) s = .next (vetoReq s h) := congrArg _ (updDecide_runs hs hn hl)

theorem exec_oemKeySet (hn : mbxByte s h 8 = 5) (hl : mbxLen s h = 40) :
    exec (.oemKeySet h) s = .next (oemKeyReq s h) := congrArg _ (updDecide_runs hs hn hl)

end

/-! ### ACTIVATE and ACTIVATE_RESET -/

/-- Table 18-9: without a READY slot the answer is 0x10, whatever else holds. -/
theorem activateRefusal_noSlot {s : State} (h : slotIn s .ready = none) : activateRefusal s = 0x10 := by
  simp [activateRefusal, h]

theorem activateReq_ok {s : State} (h : HostPort) (hr : activateRefusal s = 0) :
    activateReq s h = mbxRespond (activated s) h 0 [] := by
  simp only [activateReq, hr]

theorem activateReq_noSlot {s : State} (h : HostPort) (hr : slotIn s .ready = none) :
    activateReq s h = mbxRespond s h 0x10 [] := by
  rw [activateReq, activateRefusal_noSlot hr]
  rfl

/-- Outside ACTIVE, or with the flag of byte 9, the activation is followed by a reset. -/
theorem activateResetReq_ok {s : State} {h : HostPort} (hr : activateRefusal s = 0)
    (hm : s.mode ≠ .active ∨ bit (mbxByte s h 9) 0 = true) : activateResetReq s h = resetReq (activated s) h := by
  have hno : ¬(s.mode = .active ∧ (!bit (mbxByte s h 9) 0) = true) := by
    rintro ⟨hact, hbit⟩
    obtain hm | hm := hm
    · exact hm hact
    · simp [hm] at hbit
  simp only [activateResetReq, hr, if_neg hno]

theorem activateResetReq_active {s : State} {h : HostPort} (hr : activateRefusal s = 0) (hm : s.mode = .active)
    (hb : bit (mbxByte s h 9) 0 = false) : activateResetReq s h = mbxRespond s h 0x12 [] := by
  have hyes : s.mode = .active ∧ (!bit (mbxByte s h 9) 0) = true := ⟨hm, by rw [hb]; rfl⟩
  simp only [activateResetReq, hr, if_pos hyes]

/-! ### CANCEL -/

theorem codeSlot_setCodeSlot (s : State) (k : Nat) (c : CodeSlot) : codeSlot (setCodeSlot s k c) k = c := by
  rw [codeSlot, setCodeSlot]
  by_cases hk : k = 0
  · rw [if_pos hk, if_pos hk]
  · rw [if_neg hk, if_neg hk]

theorem codeSlot_congr {s t : State} (h : t.nvm = s.nvm) (k : Nat) : codeSlot t k = codeSlot s k := by
  rw [codeSlot, codeSlot, h]

/-- The PENDING slot is READY again, and no slot is pending. -/
def cancelled (s : State) (k : Nat) : State :=
  let t := markSlot s k .ready
  { t with nvm := { t.nvm with pendingSlot := none } }

theorem cancelled_st (s : State) (k : Nat) : (codeSlot (cancelled s k) k).st = .ready := by
  have h : codeSlot (cancelled s k) k = codeSlot (markSlot s k .ready) k := rfl
  rw [h, markSlot, codeSlot_setCodeSlot]

theorem cancelled_keeps (s : State) (k : Nat) : (cancelled s k).keys = s.keys ∧ (cancelled s k).mode = s.mode :=
  have h := fr_markSlot (F := 274877906944) (b := s) (a1 := k) (a2 := .ready) rfl frm_refl
  ⟨h.keys.resolve_left (by decide), h.mode.resolve_left (by decide)⟩

theorem cancelReq_none {s : State} (h : HostPort) (hp : slotIn s .pending = none) :
    cancelReq s h = mbxRespond s h 0x10 [] := by
  rw [cancelReq, hp]

theorem cancelReq_some {s : State} {k : Nat} (h : HostPort) (hp : slotIn s .pending = some k)
    (hf : siltFull s = false) : cancelReq s h = mbxRespond (siltUpd (cancelled s k) oUpdate 3 k 0
      (codeSlot (markSlot s k .ready) k).build (codeSlot (markSlot s k .ready) k).build) h 0 [] := by
  simp only [cancelReq, hp, hf, Bool.false_eq_true, if_false, cancelled]

/-- The Silt entry and the answer leave non-volatile memory, keys and mode. -/
theorem answered_keeps (t : State) (h : HostPort) (o sub slot dest old new st : Nat) (b : List Byte) :
    (mbxRespond (siltUpd t o sub slot dest old new) h st b).nvm = t.nvm ∧
      (mbxRespond (siltUpd t o sub slot dest old new) h st b).keys = t.keys ∧
      (mbxRespond (siltUpd t o sub slot dest old new) h st b).mode = t.mode := by
  have hf : Frm 549756067848 t (mbxRespond (siltUpd t o sub slot dest old new) h st b) :=
    fr_mbxRespond rfl (fr_siltUpd rfl frm_refl)
  exact ⟨hf.nvm.resolve_left (by decide), hf.keys.resolve_left (by decide), hf.mode.resolve_left (by decide)⟩

/-! ### VETO and OEM_KEY_SET -/

theorem vetoReq_none {s : State} (h : HostPort) (hp : slotIn s .trial = none) :
    vetoReq s h = mbxRespond s h 0x11 [] := by
  rw [vetoReq, hp]

theorem vetoReq_some {s : State} {k : Nat} (h : HostPort) (hp : slotIn s .trial = some k) (hf : siltFull s = false) :
    vetoReq s h = start .trialRevert (revertTrial
      (mbxRespond (siltUpd s oUpdate 4 k 0 (codeSlot s k).build (codeSlot s k).build) h 0 []) k 4) := by
  simp only [vetoReq, hp, hf, Bool.false_eq_true, if_false]

theorem oemKeyReq_closed {s : State} (h : HostPort) (hl : lcState s ≠ 0) :
    oemKeyReq s h = mbxRespond s h 0x15 [] := if_pos hl

theorem oemKeyReq_set {s : State} (h : HostPort) (hl : lcState s = 0) (ho : beNat (oemHash s) ≠ 0) :
    oemKeyReq s h = mbxRespond s h 0x16 [] := by
  rw [oemKeyReq, if_neg (not_not_intro hl), if_pos ho]

theorem oemKeyReq_programs {s : State} (h : HostPort) (hl : lcState s = 0) (ho : beNat (oemHash s) = 0)
    (hf : siltFull s = false) : oemKeyReq s h = mbxRespond (siltUpd
      (((mbxBytes s h 16 32).zipIdx).foldl (fun (u : State) x => otpProgram u (0x88 + x.2) x.1) s)
      oUpdate 0x0D 0 0 0 0) h 0 [] := by
  rw [oemKeyReq, if_neg (not_not_intro hl), if_neg (not_not_intro ho), if_neg (by rw [hf]; decide)]

/-! ### The obligation -/

/-- Settles O44: each decision is served, then each of its answers. -/
theorem updateDecisions : Obligations.UpdateDecisions := by
  unfold Obligations.UpdateDecisions
  intro s h hb hq ha hf
  have hs : DecideServed s h := ⟨hb, hq, ha, hf⟩
  refine ⟨fun hn hl => ?_, fun hn hl => ?_, fun hn hl => ?_, fun hn hl => ?_, fun hn hl => ?_⟩
  · rw [exec_updActivate hs hn hl]
    exact ⟨fun hr => congrArg _ (activateReq_ok h hr), fun hr => congrArg _ (activateReq_noSlot h hr)⟩
  · rw [exec_updActivateReset hs hn hl]
    exact ⟨fun hr hm => congrArg _ (activateResetReq_ok hr hm),
      fun hr hm hbit => congrArg _ (activateResetReq_active hr hm hbit)⟩
  · have hx := exec_updCancel hs hn hl
    refine ⟨fun hp => by rw [hx, cancelReq_none h hp], fun k hp hfull => ?_⟩
    rw [cancelReq_some h hp hfull] at hx
    obtain ⟨hnvm, hkeys, hmode⟩ := answered_keeps (cancelled s k) h oUpdate 3 k 0
      (codeSlot (markSlot s k .ready) k).build (codeSlot (markSlot s k .ready) k).build 0 []
    obtain ⟨hskeys, hsmode⟩ := cancelled_keeps s k
    refine ⟨_, hx, ?_, ?_, ?_, ?_⟩
    · rw [codeSlot_congr hnvm, cancelled_st]
    · rw [hnvm]; rfl
    · rw [hkeys, hskeys]
    · rw [hmode, hsmode]
  · rw [exec_updVeto hs hn hl]
    exact ⟨fun hp => congrArg _ (vetoReq_none h hp), fun k hp hfull => congrArg _ (vetoReq_some h hp hfull)⟩
  · rw [exec_oemKeySet hs hn hl]
    exact ⟨fun hc => congrArg _ (oemKeyReq_closed h hc), fun hc ho => congrArg _ (oemKeyReq_set h hc ho),
      fun hc ho hfull => congrArg _ (oemKeyReq_programs h hc ho hfull)⟩

end Sys2Proof.Proofs
end

section
/-!
Relays of an update to the twin and to downstream devices (R556 to R558).
-/
namespace Sys2Proof.Proofs
open Sys2Proof Sys2Proof.Machine Sys2Proof.Laws

/-! ### Records of the active (R556) -/

theorem exec_relayRecordRx {s : State} (hu : slUp s = true) (hr : s.twin.role = .standby) (t : UpdTarget) (d : UpdDesc)
    (bs : List Byte) : exec (.relayRecordRx t d bs) s = .next (relayRecord s t d bs) :=
  congrArg _ (whenever_true (by rw [hu, hr]; rfl))

/-- Only a standby runs its active's descriptors. -/
theorem exec_relayRecordRx_not {s : State} (hr : s.twin.role ≠ .standby) (t : UpdTarget) (d : UpdDesc)
    (bs : List Byte) : exec (.relayRecordRx t d bs) s = .next s :=
  congrArg _ (whenever_false (by simp [hr]))

/-- A piece of a WRITE is kept until its last one has come. -/
theorem relayRecord_piece {s : State} {d : UpdDesc} {bs : List Byte} (t : UpdTarget) (ho : d.op = 1)
    (hl : (s.upd.pieces ++ bs).length < d.len) :
    relayRecord s t d bs = { s with upd := { s.upd with pieces := s.upd.pieces ++ bs } } :=
  if_pos ⟨ho, hl⟩

/-- The state once a descriptor is whole: no piece is kept. -/
def piecesTaken (s : State) : State := { s with upd := { s.upd with pieces := [] } }

/-- A whole descriptor runs in the standby's session. -/
theorem relayRecord_whole {s : State} {t : UpdTarget} {d : UpdDesc} {bs : List Byte} {u : Session}
    (h : d.op ≠ 1 ∨ d.len ≤ (s.upd.pieces ++ bs).length) (hu : relayedSession (piecesTaken s) t = some u) :
    relayRecord s t d bs =
      relayedRuns (setSession (piecesTaken s) u) u d ((s.upd.pieces ++ bs).take d.len) := by
  have hno : ¬(d.op = 1 ∧ (s.upd.pieces ++ bs).length < d.len) := by
    rintro ⟨ho, hl⟩
    obtain h | h := h
    · exact h ho
    · exact absurd hl (Nat.not_lt.mpr h)
  rw [piecesTaken] at hu
  simp only [relayRecord, if_neg hno, hu, piecesTaken]

/-! ### Frames of a downstream device (R558) -/

theorem exec_relayFrameRx {p : Nat} (hp : macOk p = true) (s : State) (b : List Byte) :
    exec (.relayFrameRx p b) s = .next (relayRx s p b) := ifWf_true hp

section
variable {b : List Byte} (ht : beAt b 12 2 = 0x88B5) (hk : byteAt b 18 = 2)
include ht hk

/-- Without a relay in progress, a frame of the relayed update protocol is counted. -/
theorem relayRx_none {s : State} (p : Nat) (hr : s.upd.relay = none) : relayRx s p b = s.bump (aUpdCnt 7) := by
  rw [relayRx, if_neg (by simp [ht, hk]), hr]

/-- One of the relay in progress is heard, another counted. -/
theorem relayRx_some {s : State} {r : Relay} (p : Nat) (hr : s.upd.relay = some r) :
    relayRx s p b = if relayFrameOk s r p b = true then relayHeard s r b else s.bump (aUpdCnt 7) := by
  rw [relayRx, if_neg (by simp [ht, hk]), hr]

end

/-! ### Retransmission (R557) -/

/-- The DATA frame sent again, with its count and its time. -/
def dataAgain (s : State) (r : Relay) (n : Nat) (x : Nat × Nat × Nat) : State :=
  setRelay ((relaySend s r.ds s.cclk (dataFrame s r n)).bump (aUpdCnt 6))
    { r with out := r.out.map (fun y => if y.1 = n then (n, x.2.1 + 1, s.cclk) else y) }

/-- A DATA frame in flight waits 2 ms, and goes at most eight times. -/
theorem exec_relayRetransmit {s : State} {n : Nat} {r : Relay} {x : Nat × Nat × Nat} (hr : s.upd.relay = some r)
    (hx : r.out.find? (fun y => y.1 == n) = some x) : exec (.relayRetransmit n) s =
      .next (if s.cclk < x.2.2 + 2000000 then s else if 8 ≤ x.2.1 then relayEnds s r 0x0F 0 else dataAgain s r n x) := by
  show execRelayRetransmit n s = _
  simp only [execRelayRetransmit, hr, relayAgain, hx, dataAgain]

/-! ### The obligation -/

/-- Settles O54: records of the active, frames of a downstream device, and the retransmission of DATA frames. -/
theorem relayedUpdates : Obligations.RelayedUpdates := by
  unfold Obligations.RelayedUpdates
  refine ⟨?_, ?_, ?_, ?_⟩
  · intro s t d bs hu hr
    rw [exec_relayRecordRx hu hr]
    exact ⟨fun ho hl => congrArg _ (relayRecord_piece t ho hl), fun u h hs => congrArg _ (relayRecord_whole h hs)⟩
  · intro s t d bs hr
    exact exec_relayRecordRx_not hr t d bs
  · intro s p b hp ht hk
    refine ⟨fun hr => ?_, fun r hr => (exec_relayFrameRx hp s b).trans (congrArg _ (relayRx_some ht hk p hr))⟩
    refine ⟨s.bump (aUpdCnt 7), ?_, pair_bump s (aUpdCnt 7), rfl⟩
    rw [exec_relayFrameRx hp, relayRx_none ht hk p hr]
  · intro s n r x hr hf
    have hx := exec_relayRetransmit hr hf
    refine ⟨fun hc => ?_, fun hc h8 => ?_, fun hc h8 => ?_⟩
    · rw [hx, if_pos hc]
    · rw [hx, if_neg (Nat.not_lt.mpr hc), if_pos h8]
    · rw [hx, if_neg (Nat.not_lt.mpr hc), if_neg (Nat.not_le.mpr h8), dataAgain]

end Sys2Proof.Proofs
end

section
/-!
Accesses of registers that several pages share, and of SEM and the mailbox: the cause that a refusal records (R46),
shadows (R53), the common registers of a page and the MSI-X mask (R45, R47, R565, R587), semaphores (R50 to R52) and
the doorbell of a busy mailbox (R73).
-/
namespace Sys2Proof.Proofs
open Sys2Proof Sys2Proof.Machine Sys2Proof.Laws

/-! ### The cause that is recorded (R46) -/

/-- The first cause that applies, of a list that begins with one. -/
theorem firstCause_cons (b : Bool) (r : Refused) (l : List (Bool × Refused)) (p : Nat) :
    ((((b, r) :: l).find? (fun x => x.1)).map (fun x => (p, x.2))) =
      if b then some (p, r) else (l.find? (fun x => x.1)).map (fun x => (p, x.2)) := by
  cases b <;> rfl

/-- R41, R42: behind a closed window, and at a ring of another host's BAR2, there is no register. -/
theorem checkWrite_unreached {s : State} {w : Who} {a width : Nat} {v : Word}
    (h : windowClosed s w = true ∨ noSuchRing w a = true) : checkWrite s w a width v = some (pSys, .addrReserved) := by
  rw [checkWrite, if_pos (Bool.or_eq_true_iff.2 h)]

theorem checkWrite_unmapped {s : State} {w : Who} {a width : Nat} {v : Word} (hw : windowClosed s w = false)
    (hr : noSuchRing w a = false) (hd : regDef (a / 4 * 4) = none) :
    checkWrite s w a width v = some (errPage a, .addrReserved) := by
  simp only [checkWrite, hw, hr, hd, Bool.or_self, Bool.false_eq_true, if_false]

/-- A REGISTER_WRITE of any width that a check refuses is the refusal. -/
theorem exec_registerWrite_refused {s : State} {w : Who} {a width p : Nat} {v : Word} {r : Refused}
    (ha : a < 0x1000000) (h1 : 1 ≤ width) (h8 : width ≤ 8) (hi : installs a v = none)
    (h : checkWrite s w a width v = some (p, r)) :
    exec (.registerWrite w a width v) s = .next (s.refuse p r w a) := by
  have hk : addrOk a = true := by
    simp only [addrOk, decide_eq_true (show a < 0x1002000 by omega), Bool.true_or]
  calc exec (.registerWrite w a width v) s
      = .next (masterWrite s w a width v) := ifWf_true (by simp [hk, h1, h8])
    _ = .next (regWrite s w a width v) := by rw [masterWrite_bar0 (by omega)]
    _ = .next (s.refuse p r w a) := by simp only [regWrite, hi, h]

/-- Settles O12: the checks stand in the order of the list, each behind those before it. -/
theorem firstCauseOfRefusalIsRecorded : Obligations.FirstCauseOfRefusalIsRecorded := by
  unfold Obligations.FirstCauseOfRefusalIsRecorded
  intro s w a width v
  refine ⟨checkWrite_unreached, checkWrite_unmapped, fun d hw hr hd => ?_,
    fun p r ha h1 h8 hi h => exec_registerWrite_refused ha h1 h8 hi h⟩
  simp only [firstCause_cons, List.find?_nil, Option.map_none, Bool.or_eq_true, decide_eq_true_eq, checkWrite, hw, hr,
    hd, Bool.or_self, Bool.false_eq_true, if_false]

/-! ### Shadows (R53) -/

@[simp] theorem logReg_shadows (s : State) (g a : Nat) (o n : Word) (sh : Bool) :
    (logReg s g a o n sh).shadows = s.shadows := by
  simp only [logReg]
  split <;> simp

/-- The pending shadows of the register that a shadow is put for: that one alone. -/
theorem shadows_putShadow_same (s : State) (x : Shadow) :
    (s.putShadow x).shadows.filter (fun y => y.off == x.off) = [x] := by
  simp [State.putShadow, List.filter_append, List.filter_filter]

/-- The pending shadows of every other register stand as before. -/
theorem shadows_putShadow_other (s : State) (x : Shadow) :
    (s.putShadow x).shadows.filter (fun y => y.off != x.off) = s.shadows.filter (fun y => y.off != x.off) := by
  simp [State.putShadow, List.filter_append, List.filter_filter]

/-- Settles O14: a write of an RWS register puts a shadow, whose log entry is no shadow and no value in effect. -/
theorem shadowReplacesTheEarlierOne : Obligations.ShadowReplacesTheEarlierOne := by
  unfold Obligations.ShadowReplacesTheEarlierOne
  intro s w a v d hk hd hh hty hp ho h
  refine ⟨_, exec_registerWrite_plainPage hk hd hh hp ho h, ?_⟩
  rw [typeWrite_rws hty, shadowWrite]
  refine ⟨?_, ?_, fun b _ hb => ?_⟩
  · rw [logReg_shadows]
    exact shadows_putShadow_same s { off := a, val := newVal s a v, writer := w.m }
  · rw [logReg_shadows]
    exact shadows_putShadow_other s { off := a, val := newVal s a v, writer := w.m }
  · rw [reg_logReg (by simpa using hb)]
    rfl

/-! ### Common registers (R45, R47, R565, R587) -/

/-- OWNER_WRITE that passes the checks. -/
theorem exec_ownerWrite {s : State} {w : Who} {p : Nat} {v : Word} (hp : pageOk p = true)
    (h : Passes s w (regAddr p 0x20) v) :
    exec (.ownerWrite w p v) s = .next (setOwner s (originOf w.m) p (fld v 0 4)) :=
  (ifWf_true hp).trans (congrArg _ (write_passes h))

/-- ERRCAP_CLEAR that passes the checks. -/
theorem exec_errcapClear {s : State} {w : Who} {p : Nat} (hp : pageOk p = true)
    (h : Passes s w (regAddr p 0x28) 0x8000) :
    exec (.errcapClear w p) s = .next (errcapCleared s p 0x8000) :=
  (ifWf_true hp).trans (congrArg _ (write_passes h))

/-- IRQ_CLR_WRITE that passes the checks. -/
theorem exec_irqClrWrite {s : State} {w : Who} {p : Nat} {v : Word} (hp : pageOk p = true)
    (h : Passes s w (regAddr p 0x1C) v) : exec (.irqClrWrite w p v) s = .next (irqCleared s p v) :=
  (ifWf_true hp).trans (congrArg _ (write_passes h))

/-- IRQ_EN_WRITE that passes the checks. -/
theorem exec_irqEnWrite {s : State} {w : Who} {p : Nat} {v : Word} (hp : pageOk p = true)
    (h : Passes s w (regAddr p 0x14) v) : exec (.irqEnWrite w p v) s = .next (irqEnabled s w p v) :=
  (ifWf_true hp).trans (congrArg _ (write_passes h))

/-- IRQ_EN of a page takes the value; a message that the page sends changes no register. -/
theorem reg_irqEnabled {s : State} {w : Who} {p b : Nat} {v : Word} (h : b / 0x1000 ≠ pSilt) :
    (irqEnabled s w p v).reg b = if regAddr p 0x14 = b then newVal s (regAddr p 0x14) v else s.reg b := by
  simp only [irqEnabled]
  split
  · rw [pageMsg_reg, reg_plainWrite h]
  · rw [reg_plainWrite h]

/-! ### The MSI-X mask (R587) -/

@[simp] theorem msix_setMsix (s : State) (h : HostPort) (m : Msix) : (s.setMsix h m).msix h = m := by
  cases h <;> rfl

@[simp] theorem setMsix_out (s : State) (h : HostPort) (m : Msix) : (s.setMsix h m).out = s.out := by
  cases h <;> rfl

@[simp] theorem msix_emit (s : State) (h : HostPort) (o : Out) : (s.emit o).msix h = s.msix h := by
  cases h <;> rfl

/-- Bit `i` of a vector mask from which vector `v` is taken. -/
theorem getLsbD_clearVec (m : BitVec 64) (v i : Nat) :
    (m &&& ~~~ BitVec.ofNat 64 (2 ^ v)).getLsbD i = (decide (i ≠ v) && m.getLsbD i) := by
  simp only [BitVec.getLsbD_and, BitVec.getLsbD_not, BitVec.getLsbD_ofNat, Nat.testBit_two_pow]
  by_cases hi : i < 64
  · by_cases h : v = i
    · simp [h]
    · simp [hi, h, Ne.symm h]
  · simp [BitVec.getLsbD_of_ge m i (by omega)]

/-- The vectors of a host once one is unmasked: it is neither masked nor pending, and every other one is as before. -/
theorem msix_msixOpens (s : State) (h : HostPort) (v : Nat) :
    let m := (msixOpens s h v).msix h
    m.table = (s.msix h).table ∧
      (∀ i, m.masked.getLsbD i = (decide (i ≠ v) && (s.msix h).masked.getLsbD i)) ∧
      ∀ i, m.pend.getLsbD i = (decide (i ≠ v) && (s.msix h).pend.getLsbD i) := by
  have hm : (msixOpens s h v).msix h = { s.msix h with
      masked := (s.msix h).masked &&& ~~~ BitVec.ofNat 64 (2 ^ v)
      pend := (s.msix h).pend &&& ~~~ BitVec.ofNat 64 (2 ^ v) } := by
    simp only [msixOpens]
    split <;> simp
  rw [hm]
  exact ⟨rfl, getLsbD_clearVec _ v, getLsbD_clearVec _ v⟩

/-- A masked vector that is pending is sent when it is unmasked. -/
theorem out_msixOpens (s : State) (h : HostPort) (v : Nat) : (msixOpens s h v).out =
    if (s.msix h).masked.getLsbD v && (s.msix h).pend.getLsbD v then .msix h v :: s.out else s.out := by
  simp only [msixOpens]
  split <;> simp

/-- Settles O16: the common registers of a page, each behind its checks, and the mask of a vector. -/
theorem commonRegistersOfAPage : Obligations.CommonRegistersOfAPage := by
  unfold Obligations.CommonRegistersOfAPage
  refine ⟨fun s w p v hp h => exec_ownerWrite hp h, ⟨fun s w p hp h => exec_errcapClear hp h,
    fun s w p v hp h => exec_irqClrWrite hp h, fun s w p v hp hsilt h => ?_⟩, fun s h v hv => ?_⟩
  · have hpg : regAddr p 0x14 / 0x1000 ≠ pSilt := by rwa [regAddr_page (by decide)]
    refine ⟨_, exec_irqEnWrite hp h, ?_, fun b hb hbp => ?_, rfl⟩
    · rw [reg_irqEnabled hpg, if_pos rfl]
    · rw [reg_irqEnabled (by simpa using hbp), if_neg (by simpa [eq_comm] using hb)]
  · obtain ⟨htable, hmask, hpend⟩ := msix_msixOpens s h v
    refine ⟨_, ifWf_true (decide_eq_true hv), ?_, ?_, fun i hi => ?_, htable, out_msixOpens s h v⟩
    · simp [hmask]
    · simp [hpend]
    · simp [hmask, hpend, hi]

/-! ### Semaphores (R50 to R52) -/

/-- R7, R488: `readOnce_performs` for a host, of whose reads no pair keeps a log. -/
theorem readOnce_host {s t : State} {w : Who} {a : Nat} (hr : Reaches s w a) (hh : isHost w.m = true) :
    s.readOnce w a t = t := by
  rw [State.readOnce, readOr_reaches hr]
  cases hm : w.m with
  | ha => rfl
  | hb => rfl
  | mp0 => simp [hm, isHost] at hh
  | mp1 => simp [hm, isHost] at hh

@[simp] theorem emit_fld (s : State) (o : Out) (a lo n : Nat) : (s.emit o).fld a lo n = s.fld a lo n := rfl

/-- A semaphore that its reader takes is the reader's, and no other register has changed. -/
theorem semTas_free {s : State} {w : Who} {n : Nat} (hm : s.mode ≠ .standby) (ho : s.fld (aSem n) 0 4 = 0) :
    let t := semTas s w n
    t.fld (aSem n) 0 4 = masterId w.m ∧ t.out = .read w.m (aTas n) (tasValue true (masterId w.m)) :: s.out ∧
      RegsBut [aSem n] [] s t := by
  have hid : masterId w.m < 2 ^ 4 := by cases w.m <;> decide
  rw [semTas, if_neg hm, if_pos ho]
  refine ⟨?_, ?_, fun b hb _ => ?_⟩
  · rw [emit_fld, fld_setFld_ne (by decide) (.inr (.inl (by decide))), fld_setFld_same (by decide), Nat.mod_eq_of_lt hid]
  · rw [emit_out, setFld_out, setFld_out]
  · have hne : aSem n ≠ b := by simpa [eq_comm] using hb
    rw [emit_reg, reg_setFld, if_neg hne, reg_setFld, if_neg hne]

/-- A semaphore that has an owner stays its owner's; only the owner reads GOT = 1. -/
theorem semTas_owned {s : State} {w : Who} {n : Nat} (hm : s.mode ≠ .standby) (ho : s.fld (aSem n) 0 4 ≠ 0) :
    semTas s w n = s.emit (.read w.m (aTas n)
      (tasValue (s.fld (aSem n) 0 4 == masterId w.m) (s.fld (aSem n) 0 4))) := by
  simp only [semTas, if_neg hm, if_neg ho]

/-- R52: on a standby no semaphore is taken. -/
theorem semTas_standby {s : State} {w : Who} {n : Nat} (hm : s.mode = .standby) :
    semTas s w n = s.emit (.read w.m (aTas n) (tasValue false (s.fld (aSem n) 0 4))) := by
  simp only [semTas, if_pos hm]

/-- A value that is read, and the log of the pair that reads it, are all that such a read touches. -/
theorem sameBut_emit_faults (s : State) (o : Out) (f : Faults) :
    SameBut [.faults, .out] s { s.emit o with faults := f } :=
  sameBut_of_frm (F := 618475290624) (fr_mk_68719476736 rfl (fr_State_emit rfl frm_refl)) rfl

/-- Settles O17: a semaphore is free, its reader's or another's, or the unit is on standby. -/
theorem semaphoreRead : Obligations.SemaphoreRead := by
  unfold Obligations.SemaphoreRead
  intro s w n hn hr hp o
  obtain ⟨f, hread⟩ := readOnce_performs (t := semTas s w n) hr hp
  refine ⟨_, (ifWf_true (decide_eq_true hn)).trans (congrArg _ hread), fun hm h0 => ?_, fun hm ho => ?_,
    fun hm h0 hne => ?_, fun hm => ?_, fun hh => ?_⟩
  · exact semTas_free hm h0
  · have h0 : s.fld (aSem n) 0 4 ≠ 0 := by
      rw [show s.fld (aSem n) 0 4 = masterId w.m from ho]
      cases w.m <;> decide
    rw [semTas_owned hm h0, show (s.fld (aSem n) 0 4 == masterId w.m) = true from beq_iff_eq.2 ho]
    exact ⟨rfl, sameBut_emit_faults s _ f⟩
  · rw [semTas_owned hm h0, show (s.fld (aSem n) 0 4 == masterId w.m) = false from beq_eq_false_iff_ne.2 hne]
    exact ⟨rfl, sameBut_emit_faults s _ f⟩
  · rw [semTas_standby hm]
    exact ⟨rfl, sameBut_emit_faults s _ f⟩
  · rw [← hread, readOnce_host hr hh]
    exact (fr_semTas (Nat.or_self _) frm_refl).faults.resolve_left (by decide)

/-- Settles O18: a write of 0 that passes the checks is the release of R51. -/
theorem semaphoreRelease : Obligations.SemaphoreRelease := by
  unfold Obligations.SemaphoreRelease
  intro s w n hn h
  calc exec (.semRelease w n) s
      = .next (s.write w (aTas n) 0 (semFree s w n)) := ifWf_true (decide_eq_true hn)
    _ = .next (semFree s w n) := by rw [write_passes h]

/-! ### The doorbell of a busy mailbox (R73) -/

/-- BUSYHIT where the mailbox is busy and the write passes the checks. -/
theorem exec_busyhit {s : State} {h : HostPort} (hb : s.bitAt (aMbx h 0x044) 0 = true)
    (hp : Passes s { m := hostMaster h } (aMbx h 0x040) 1) : exec (.busyhit h) s = .next (mbxDoor s h) :=
  congrArg _ ((whenever_true hb).trans (write_passes hp))

/-- A doorbell while BUSY = 1 sets BUSYHIT. -/
theorem mbxDoor_busy {s : State} {h : HostPort} (hb : s.bitAt (aMbx h 0x044) 0 = true) :
    mbxDoor s h = s.setBitAt (aMbx h 0x044) 2 true := if_pos hb

/-- Settles O51: a doorbell while BUSY = 1 changes bit 2 of the mailbox's status and nothing else. -/
theorem doorbellWhileBusy : Obligations.DoorbellWhileBusy := by
  unfold Obligations.DoorbellWhileBusy
  intro s h hb hp
  refine ⟨_, exec_busyhit hb hp, ?_⟩
  rw [mbxDoor_busy hb]
  refine ⟨(bitAt_setBitAt (by decide)).trans (if_pos ⟨rfl, rfl⟩), rfl, fun a ha _ => ?_⟩
  rw [reg_setBitAt, if_neg (by simpa [eq_comm] using ha)]

end Sys2Proof.Proofs
end

section
/-!
Commits (R53 to R60): what GO and DISCARD take, the end of the checks of a part, and the commit point.
-/
namespace Sys2Proof.Proofs
open Sys2Proof Sys2Proof.Machine Sys2Proof.Laws

/-! ### DISCARD (R59) -/

/-- COMMIT_DISCARD that passes the checks of R46. -/
theorem exec_commitDiscard {s : State} {w : Who} (h : Passes s w (aSys 0x040) 2) :
    exec (.commitDiscard w) s = .next (discardTaken s w) :=
  congrArg _ (write_passes h)

/-- Settles O20: DISCARD finds nothing, is refused as its entry would be, or clears what is pending. -/
theorem discardClearsWhatIsPending : Obligations.DiscardClearsWhatIsPending := by
  unfold Obligations.DiscardClearsWhatIsPending
  intro s w h
  rw [exec_commitDiscard h, discardTaken]
  refine ⟨fun h0 => ?_, fun h0 hfull => ?_, fun h0 hroom => ?_⟩
  · rw [if_pos h0]
  · rw [if_neg h0, if_pos hfull]
  · simp only [if_neg h0, hroom, Bool.false_eq_true, if_false]

/-! ### The stat of a commit's writer -/

/-- `SYS_COMMIT_STAT_A` or `_B`, where the writer is a host, holds a word. -/
def StatShows (t : State) (m : Master) (v : Word) : Prop :=
  (m = .ha → t.reg (aSys 0x044) = v) ∧ (m = .hb → t.reg (aSys 0x048) = v)

/-- The word of a commit's state, code and tag. -/
def statWord (st code tag : Nat) : Word := w32 (st + code * 2 ^ 4 + tag % 2 ^ 16 * 2 ^ 16)

theorem StatShows.of_regs {s t : State} {m : Master} {v : Word} (h : StatShows s m v)
    (ha : t.reg (aSys 0x044) = s.reg (aSys 0x044)) (hb : t.reg (aSys 0x048) = s.reg (aSys 0x048)) :
    StatShows t m v :=
  ⟨fun hm => ha.trans (h.1 hm), fun hm => hb.trans (h.2 hm)⟩

theorem commitStat_shows (s : State) (m : Master) (st code tag : Nat) :
    StatShows (commitStat s m st code tag) m (statWord st code tag) := by
  refine ⟨?_, ?_⟩ <;> rintro rfl <;> exact (reg_setReg ..).trans (if_pos rfl)

/-- A stat changes no register but those of the two hosts. -/
theorem reg_commitStat {s : State} {m : Master} {st code tag a : Nat} (ha : a ≠ aSys 0x044) (hb : a ≠ aSys 0x048) :
    (commitStat s m st code tag).reg a = s.reg a := by
  cases m
  · exact (reg_setReg ..).trans (if_neg (Ne.symm ha))
  · exact (reg_setReg ..).trans (if_neg (Ne.symm hb))
  · rfl
  · rfl

@[simp] theorem commitStat_shadows (s : State) (m : Master) (st code tag : Nat) :
    (commitStat s m st code tag).shadows = s.shadows :=
  (fr_commitStat (Nat.or_self _) frm_refl).shadows.resolve_left (by decide)

@[simp] theorem commitStat_commits (s : State) (m : Master) (st code tag : Nat) :
    (commitStat s m st code tag).commits = s.commits :=
  (fr_commitStat (Nat.or_self _) frm_refl).commits.resolve_left (by decide)

/-! ### GO (R55, R58) -/

/-- COMMIT_GO that passes the checks of R46. -/
theorem exec_commitGo {s : State} {w : Who} {tag : Nat} (ht : tag < 2 ^ 16)
    (h : Passes s w (aSys 0x040) (w32 (1 + tag * 2 ^ 16))) : exec (.commitGo w tag) s = .next (goTaken s w tag) :=
  (ifWf_true (decide_eq_true ht)).trans (congrArg _ (write_passes h))

theorem goTaken_busy {s : State} {w : Who} {tag : Nat} (h : 2 ≤ s.commits.length) :
    goTaken s w tag = goRefused s w tag ccBusy :=
  if_pos h

/-- A GO with no commit outstanding, and room in the Silt Log, arms its part. -/
theorem goTaken_first {s : State} {w : Who} {tag : Nat} (hc : s.commits = [])
    (hroom : (isHost w.m && siltFull s) = false) : goTaken s w tag = armPart s w tag := by
  rw [goTaken, hc, if_neg (by decide), hroom, if_neg (by decide)]

/-- What a GO leaves that arms the only commit: every pending shadow in its one part, and ARMED in the writer's stat. -/
theorem armPart_first {s : State} {w : Who} {tag : Nat} (hc : s.commits = []) (ht : tag < 2 ^ 16) :
    let t := armPart s w tag
    t.shadows = [] ∧
      t.commits = [{ point := newPoint s, parts :=
        [{ id := s.partNo + 1, writer := w.m, tag := tag, goAt := s.cclk, vals := s.shadows }] }] ∧
      RegsBut [aSys 0x044, aSys 0x048] [] s t ∧ StatShows t w.m (statWord 1 0 tag) := by
  refine ⟨?_, ?_, fun a ha _ => ?_, commitStat_shows ..⟩
  · rw [armPart, commitStat_shadows]
    rfl
  · rw [armPart, commitStat_commits, Nat.mod_eq_of_lt ht]
    simp only [armRecords, placePart, hc, List.nil_append]
  · simp only [List.mem_cons, List.not_mem_nil, or_false, not_or] at ha
    obtain ⟨h44, h48⟩ := ha
    rw [armPart, reg_commitStat h44 h48]
    rfl

/-! ### The end of the checks (R57) -/

theorem exec_commitCheckEnd_alone {s : State} {c : Commit} {p : CommitPart} (hs : s.commits = [c])
    (hp : c.parts = [p]) (hu : p.checked = false) : exec .commitCheckEnd s = .next (checkEnds s [] p) := by
  have hfirst : uncheckedPart [] s.commits = some ([], p) := by
    simp only [hs, uncheckedPart, hp, List.find?_cons, List.takeWhile_cons, hu, Bool.not_false, Bool.false_eq_true,
      if_false, List.append_nil]
  show Host.Outcome.next _ = _
  rw [hfirst]

/-- R469: only the active sends the record of a commit. -/
theorem sendCommit_of_ne {s : State} (h : s.twin.role ≠ .active) (c : Commit) : sendCommit s c = s := by
  simp only [sendCommit]
  split
  · rw [if_neg h]
  · rfl

/-- A part that passes stands as checked. -/
theorem checkEnds_passes {s : State} {c : Commit} {p : CommitPart} (hs : s.commits = [c]) (hp : c.parts = [p])
    (hck : partCheck s (checkView s [] p) p.id = none) (hrole : s.twin.role ≠ .active) :
    checkEnds s [] p = { s with commits := [{ c with parts := [{ p with checked := true }] }] } := by
  have hmark : markChecked p.id s.commits = [{ c with parts := [{ p with checked := true }] }] := by
    simp [markChecked, hs, hp]
  simp only [checkEnds, hck, hmark]
  split
  · split
    · refine sendCommit_of_ne ?_ _
      exact hrole
    · rfl
  · rfl

theorem dropPart_alone {c : Commit} {p : CommitPart} (hp : c.parts = [p]) : dropPart p.id [c] = [] := by
  simp [dropPart, hp]

/-- R57: a part that is refused leaves its code in its writer's stat and its shadows pending. -/
theorem refusePart_shows (code : Nat) (s : State) (p : CommitPart) :
    let t := refusePart code s p
    t.commits = s.commits ∧ t.shadows = (returnShadows s p.vals).shadows ∧
      StatShows t p.writer (statWord 3 code p.tag) ∧
      RegsBut [aSys 0x044, aSys 0x048, regAddr pSys 0x10] [] s t := by
  let u := unarmRecords (returnShadows s p.vals) p.id
  refine ⟨?_, ?_, ?_, fun a ha _ => ?_⟩
  · rw [refusePart, raise_commits, commitStat_commits]
    rfl
  · rw [refusePart, raise_shadows, commitStat_shadows]
    rfl
  · exact (commitStat_shows u p.writer 3 code p.tag).of_regs (reg_raise (by decide)) (reg_raise (by decide))
  · simp only [List.mem_cons, List.not_mem_nil, or_false, not_or] at ha
    obtain ⟨h44, h48, h10⟩ := ha
    rw [refusePart, reg_raise h10, reg_commitStat h44 h48]
    rfl

/-- A part that fails is refused in its writer's stat, with the page; its shadows are pending again. -/
theorem checkEnds_fails {s : State} {c : Commit} {p : CommitPart} {code page : Nat} (hs : s.commits = [c])
    (hp : c.parts = [p]) (hck : partCheck s (checkView s [] p) p.id = some (code, page)) :
    let t := checkEnds s [] p
    t.commits = [] ∧ t.shadows = p.vals.filter (fun x => (s.shadowOf x.off).isNone) ++ s.shadows ∧
      t.reg (aSys 0x04C) = w32 page ∧ StatShows t p.writer (statWord 3 code p.tag) ∧
      RegsBut [aSys 0x044, aSys 0x048, aSys 0x04C, regAddr pSys 0x10] [] s t := by
  obtain ⟨hcommits, hshadows, hstat, hregs⟩ := refusePart_shows code { s with commits := dropPart p.id s.commits } p
  simp only [checkEnds, hck]
  refine ⟨?_, hshadows, ?_, hstat.of_regs ?_ ?_, fun a ha hpg => ?_⟩
  · rw [setReg_commits, hcommits, hs, dropPart_alone hp]
  · rw [reg_setReg, if_pos rfl]
  · rw [reg_setReg, if_neg (by decide)]
  · rw [reg_setReg, if_neg (by decide)]
  · simp only [List.mem_cons, List.not_mem_nil, or_false, not_or] at ha
    obtain ⟨h44, h48, h4c, h10⟩ := ha
    rw [reg_setReg, if_neg (Ne.symm h4c)]
    exact hregs a (by simp [h44, h48, h10]) hpg

/-! ### The commit point (R55, R60) -/

/-- A commit no longer outstanding. -/
def commitRemoved (s : State) (c : Commit) : State :=
  { s with commits := s.commits.filter (fun x => x.parts.map (fun p => p.id) != c.parts.map (fun p => p.id)) }

theorem commitRemoved_alone {s : State} {c : Commit} (h : s.commits = [c]) :
    commitRemoved s c = { s with commits := [] } := by
  simp [commitRemoved, h]

/-- The changed registers of a commit, each with the value that it replaces. -/
def replacedVals (s : State) (c : Commit) : List (Nat × Word) :=
  (changedVals s c).map (fun x => (x.off, valueNow s x.off))

/-- R107: the sync point of a commit has been forced. -/
def pointForced (s : State) (c : Commit) : Bool := s.pb.syncAt != some s.pb.cycleAt && (commitNum c.point).isSome

/-- What a commit that changes something installs, logs and sets off. -/
def commitInstalled (s : State) (c : Commit) : State :=
  admitQueues (commitEffects ((takeCommit s c).silt_ (w32 s.epoch) (w32 (takeCommit s c).epoch) (commitOrigin c) 2 0 0)
    (pointForced s c) (replacedVals s c))

/-- The records of a commit that changes nothing are dropped. -/
def recordsDropped (s : State) (c : Commit) : State :=
  { s with tables := { s.tables with
      ovl := s.tables.ovl.filter (fun o => !c.parts.any (fun p => o.st == .armed p.id)) } }

/-- A commit up to its writers' stats. -/
def commitTakes (s : State) (c : Commit) : State :=
  if (replacedVals s c).isEmpty && !changedRecs s c then recordsDropped s c else updateDigest (commitInstalled s c)

/-- A commit is removed, takes effect, and is reported. -/
theorem applyCommit_eq (s : State) (c : Commit) :
    let u := commitRemoved s c
    applyCommit s c = topsoilDone (unackedLost ((appliedStats (commitTakes u c) c).raise pSys 0) c) c := rfl

/-- What a commit installs touches neither the commits outstanding nor the twin's state. -/
theorem commitInstalled_keeps (s : State) (c : Commit) :
    (commitInstalled s c).commits = s.commits ∧ (commitInstalled s c).twin = s.twin := by
  -- every field but `commits` (bit 9) and `twin` (bit 34)
  have h : Frm 2181843385855 s (commitInstalled s c) :=
    fr_admitQueues rfl (fr_commitEffects rfl (fr_State_silt_ rfl (fr_takeCommit rfl frm_refl)))
  exact ⟨h.commits.resolve_left (by decide), h.twin.resolve_left (by decide)⟩

theorem updateDigest_commits (s : State) : (updateDigest s).commits = s.commits := rfl

theorem updateDigest_role (s : State) : (updateDigest s).twin.role = s.twin.role := rfl

/-- A commit leaves the other commits and the role as they are. -/
theorem commitTakes_keeps (s : State) (c : Commit) :
    (commitTakes s c).commits = s.commits ∧ (commitTakes s c).twin.role = s.twin.role := by
  obtain ⟨hcommits, htwin⟩ := commitInstalled_keeps s c
  simp only [commitTakes]
  split
  · exact ⟨rfl, rfl⟩
  · rw [updateDigest_commits, updateDigest_role, hcommits, htwin]
    exact ⟨rfl, rfl⟩

@[simp] theorem appliedStats_commits (s : State) (c : Commit) : (appliedStats s c).commits = s.commits :=
  (fr_appliedStats (Nat.or_self _) frm_refl).commits.resolve_left (by decide)

@[simp] theorem appliedStats_twin (s : State) (c : Commit) : (appliedStats s c).twin = s.twin :=
  (fr_appliedStats (Nat.or_self _) frm_refl).twin.resolve_left (by decide)

@[simp] theorem appliedStats_silt (s : State) (c : Commit) : (appliedStats s c).silt = s.silt :=
  (fr_appliedStats (Nat.or_self _) frm_refl).silt.resolve_left (by decide)

theorem appliedStats_single {c : Commit} {p : CommitPart} (hp : c.parts = [p]) (s : State) :
    appliedStats s c = commitStat s p.writer 2 0 p.tag := by
  simp only [appliedStats, hp, List.foldl_cons, List.foldl_nil]

/-- Only an active loses its twin over a commit that was not acknowledged. -/
theorem unackedLost_of_ne {s : State} (h : s.twin.role ≠ .active) (c : Commit) : unackedLost s c = s := by
  have hr : (s.twin.role == .active) = false := beq_eq_false_iff_ne.2 h
  simp only [unackedLost, hr, Bool.false_and, Bool.false_eq_true, if_false]

/-- The end of a Topsoil commit changes `power` and `tables` only. -/
theorem topsoilDone_keeps (s : State) (c : Commit) :
    (topsoilDone s c).commits = s.commits ∧ (topsoilDone s c).silt = s.silt ∧
      ∀ a, (topsoilDone s c).reg a = s.reg a := by
  have h : Frm _ s (topsoilDone s c) := fr_topsoilDone (Nat.or_self _) frm_refl
  exact ⟨h.commits.resolve_left (by decide), h.silt.resolve_left (by decide),
    reg_congr (h.regs.resolve_left (by decide))⟩

/-- On a unit that is not the active, the one outstanding commit is applied up to its stats, which are then set. -/
theorem applyCommit_alone {s : State} {c : Commit} (hs : s.commits = [c]) (hrole : s.twin.role ≠ .active) :
    applyCommit s c = topsoilDone ((appliedStats (commitTakes { s with commits := [] } c) c).raise pSys 0) c := by
  obtain ⟨-, hkept⟩ := commitTakes_keeps { s with commits := [] } c
  rw [applyCommit_eq, commitRemoved_alone hs, unackedLost_of_ne]
  rw [raise_twin, appliedStats_twin, hkept]
  exact hrole

/-- The one commit of one part is applied: none is left outstanding, and its writer's stat shows APPLIED. -/
theorem applyCommit_shows {s : State} {c : Commit} {p : CommitPart} (hs : s.commits = [c]) (hp : c.parts = [p])
    (hrole : s.twin.role ≠ .active) :
    (applyCommit s c).commits = [] ∧ StatShows (applyCommit s c) p.writer (statWord 2 0 p.tag) := by
  obtain ⟨hcommits, -⟩ := commitTakes_keeps { s with commits := [] } c
  rw [applyCommit_alone hs hrole, appliedStats_single hp]
  obtain ⟨hdone, -, hregs⟩ := topsoilDone_keeps
    ((commitStat (commitTakes { s with commits := [] } c) p.writer 2 0 p.tag).raise pSys 0) c
  refine ⟨?_, ?_⟩
  · rw [hdone, raise_commits, commitStat_commits, hcommits]
  · refine (commitStat_shows (commitTakes { s with commits := [] } c) p.writer 2 0 p.tag).of_regs ?_ ?_
    · rw [hregs, reg_raise (by decide)]
    · rw [hregs, reg_raise (by decide)]

/-- R60: a commit that changes neither a register nor an entry takes no effect. -/
theorem commitTakes_nothing {s : State} {c : Commit} (hv : changedVals s c = []) (hr : changedRecs s c = false) :
    commitTakes s c = recordsDropped s c := by
  simp only [commitTakes, replacedVals, hv, hr, List.map_nil, List.isEmpty_nil, Bool.not_false, Bool.and_self, if_true]

theorem exec_commitApply_due {s : State} {c : Commit} (h : s.commits.find? (commitDue s) = some c) :
    exec .commitApply s = .next (applyCommit s c) := by
  show Host.Outcome.next (applyDue s) = _
  rw [applyDue, h]

theorem exec_commitApply_none {s : State} (h : s.commits.find? (commitDue s) = none) :
    exec .commitApply s = .next s := by
  show Host.Outcome.next (applyDue s) = _
  rw [applyDue, h]

theorem exec_commitApply_alone {s : State} {c : Commit} (hs : s.commits = [c]) (hd : commitDue s c = true) :
    exec .commitApply s = .next (applyCommit s c) :=
  exec_commitApply_due (by rw [hs, List.find?_cons, hd])

/-- COMMIT_APPLY leaves the pending shadows, which no armed commit holds. -/
theorem applyCommit_shadows {s : State} {c : Commit} : (applyCommit s c).shadows = s.shadows :=
  (fr_applyCommit (Nat.or_self _) frm_refl).shadows.resolve_left (by decide)

/-- R60: the one commit of one part that changes nothing leaves the epoch and the Silt Log. -/
theorem applyCommit_nothing {s : State} {c : Commit} {p : CommitPart} (hs : s.commits = [c]) (hp : c.parts = [p])
    (hrole : s.twin.role ≠ .active) (hv : changedVals { s with commits := [] } c = [])
    (hr : changedRecs { s with commits := [] } c = false) :
    (applyCommit s c).epoch = s.epoch ∧ (applyCommit s c).silt = s.silt := by
  rw [applyCommit_alone hs hrole, commitTakes_nothing hv hr]
  obtain ⟨-, hsilt, hregs⟩ := topsoilDone_keeps
    ((appliedStats (recordsDropped { s with commits := [] } c) c).raise pSys 0) c
  refine ⟨?_, ?_⟩
  · rw [State.epoch, State.fld, hregs, reg_raise (by decide), appliedStats_single hp,
      reg_commitStat (by decide) (by decide)]
    rfl
  · rw [hsilt, raise_silt, appliedStats_silt]
    rfl

/-- Settles O19: GO, the end of the checks and the commit point, each by its cases. -/
theorem commitsRunTheirCourse : Obligations.CommitsRunTheirCourse := by
  unfold Obligations.CommitsRunTheirCourse
  refine ⟨fun s w tag ht h => ⟨fun hc hroom => ?_, fun h2 => ?_⟩,
    fun s pt ft ak p hs hu => ⟨fun hck hrole => ?_, fun code page hck => ?_⟩,
    fun s c p hs hp hd hrole => ?_, fun s c => exec_commitApply_due, fun s => exec_commitApply_none,
    fun s c p hs hp hd hv hr hrole _ => ?_⟩
  · obtain ⟨hsh, hcm, hregs, ha, hb⟩ := armPart_first (w := w) hc ht
    have hword : statWord 1 0 tag = w32 (1 + tag * 2 ^ 16) := by
      simp only [statWord, Nat.zero_mul, Nat.add_zero, Nat.mod_eq_of_lt ht]
    rw [hword] at ha hb
    exact ⟨_, (exec_commitGo ht h).trans (congrArg _ (goTaken_first hc hroom)), hsh, hcm, fun hm => if_pos hm, hregs,
      ha, hb⟩
  · rw [exec_commitGo ht h, goTaken_busy h2, goRefused]
  · rw [exec_commitCheckEnd_alone hs rfl hu, checkEnds_passes hs rfl hck hrole]
  · obtain ⟨hcm, hsh, hpage, ⟨ha, hb⟩, hregs⟩ := checkEnds_fails hs rfl hck
    have hepoch : (checkEnds s [] p).reg (regAddr pSys 0x050) = s.reg (regAddr pSys 0x050) :=
      hregs _ (by decide) (by decide)
    refine ⟨_, exec_commitCheckEnd_alone hs rfl hu, hcm, hsh, hpage, ?_, ha, hb, hregs⟩
    rw [State.epoch, State.fld, hepoch]
    rfl
  · obtain ⟨hcm, ha, hb⟩ := applyCommit_shows hs hp hrole
    exact ⟨_, exec_commitApply_alone hs hd, rfl, hcm, applyCommit_shadows, ha, hb⟩
  · obtain ⟨hcm, ha, hb⟩ := applyCommit_shows hs hp hrole
    obtain ⟨hepoch, hsilt⟩ := applyCommit_nothing hs hp hrole hv hr
    exact ⟨_, exec_commitApply_alone hs hd, hcm, hepoch, hsilt, ha, hb⟩

end Sys2Proof.Proofs
end

section
/-!
Rings and host links (R49, R62, R70, R72): what a ring keeps beside its registers, a write of its CFG, a stop and its
drain, and the link of a host going down and coming up.
-/
namespace Sys2Proof.Proofs
open Sys2Proof Sys2Proof.Machine Sys2Proof.Laws

/-! ### What a ring keeps beside its registers -/

@[simp] theorem ring_setRing (s : State) (r q : RingId) (x : RingRun) :
    (s.setRing r x).ring q = if ringBase r = ringBase q then x else s.ring q :=
  get_set

theorem ring_setRing_same (s : State) (r : RingId) (x : RingRun) : (s.setRing r x).ring r = x :=
  (ring_setRing s r r x).trans (if_pos rfl)

theorem ring_congr {s t : State} (h : t.rings = s.rings) (r : RingId) : t.ring r = s.ring r := by
  rw [State.ring, h, State.ring]

@[simp] theorem setRing_reg (s : State) (r : RingId) (x : RingRun) (a : Nat) : (s.setRing r x).reg a = s.reg a := rfl

@[simp] theorem setRing_bitAt (s : State) (r : RingId) (x : RingRun) (a i : Nat) :
    (s.setRing r x).bitAt a i = s.bitAt a i := rfl

@[simp] theorem emit_ring (s : State) (o : Out) (r : RingId) : (s.emit o).ring r = s.ring r := rfl
@[simp] theorem bump_ring (s : State) (a : Nat) (r : RingId) : (s.bump a).ring r = s.ring r := rfl
@[simp] theorem setReg_ring (s : State) (a : Nat) (v : Word) (r : RingId) : (s.setReg a v).ring r = s.ring r := rfl

@[simp] theorem setBitAt_ring (s : State) (a i : Nat) (b : Bool) (r : RingId) :
    (s.setBitAt a i b).ring r = s.ring r := rfl

@[simp] theorem logReg_rings (s : State) (g a : Nat) (o n : Word) (sh : Bool) :
    (logReg s g a o n sh).rings = s.rings := by
  simp only [logReg]
  split <;> simp

/-! ### Completions (R72) -/

/-- A completion changes no register. -/
@[simp] theorem ringComplete_reg (s : State) (r : RingId) (i : Bool) (mk : Bool → List Byte) (a : Nat) :
    (ringComplete s r i mk).reg a = s.reg a := rfl

/-- A completion leaves a ring in flight, waiting and draining as it was, and counts on. -/
theorem ring_ringComplete (s : State) (r : RingId) (i : Bool) (mk : Bool → List Byte) :
    let x := (ringComplete s r i mk).ring r
    x.flight = (s.ring r).flight ∧ x.draining = (s.ring r).draining ∧ x.count = (s.ring r).count + 1 ∧
      x.written = (s.ring r).written + 1 := by
  simp only [ringComplete, ringCounted, ring_setRing_same, emit_ring, and_self]

/-- R70: what completing a ring's frames keeps: the ring drains on, and no register changes. -/
def DrainsOn (r : RingId) (s t : State) : Prop := (t.ring r).draining = true ∧ ∀ a, t.reg a = s.reg a

theorem DrainsOn.complete {r : RingId} {s t : State} (h : DrainsOn r s t) (i : Bool) (mk : Bool → List Byte) :
    DrainsOn r s (ringComplete t r i mk) := by
  obtain ⟨hdrain, hregs⟩ := h
  obtain ⟨-, hkept, -⟩ := ring_ringComplete t r i mk
  exact ⟨hkept.trans hdrain, fun a => (ringComplete_reg t r i mk a).trans (hregs a)⟩

/-- Completing a whole list keeps it. -/
theorem DrainsOn.foldl {α : Type} {r : RingId} {s t : State} {f : State → α → State} {l : List α}
    (hf : ∀ u x, DrainsOn r s u → DrainsOn r s (f u x)) (h : DrainsOn r s t) : DrainsOn r s (l.foldl f t) := by
  induction l generalizing t with
  | nil => exact h
  | cons a l ih => exact ih (hf t a h)

/-- R70: a ring that stops drains, and its stop changes no register. -/
theorem ringStops_drains (s : State) (r : RingId) : DrainsOn r s (ringStops s r) := by
  have hset (t : State) (x : RingRun) (hd : x.draining = true) (hr : t.regs = s.regs) : DrainsOn r s (t.setRing r x) :=
    ⟨by rw [ring_setRing_same, hd], fun a => (setRing_reg t r x a).trans (reg_congr hr a)⟩
  cases r with
  | tx h k =>
    exact .foldl (fun u x hu => hu.complete _ _) (hset _ _ (by rw [ring_setRing_same]) rfl)
  | la h x =>
    have hstart := hset s { s.ring (.la h x) with draining := true } rfl rfl
    exact .foldl (fun u y hu => DrainsOn.complete (t := u.tick1) hu _ _) hstart
  | rx h k => exact hset s _ rfl rfl
  | tue h => exact hset s _ rfl rfl
  | upd =>
    have hstart := hset s { s.ring .upd with draining := true } rfl rfl
    simp only [ringStops, updFlush]
    split
    · exact hstart
    · split
      · exact hstart
      · exact .foldl (fun u y hu => DrainsOn.complete (t := u.tick1) hu _ _) hstart

/-! ### RINGk_CFG (R62, R70) -/

/-- The CFG of a ring lies off the page of the Silt Log, and the map lets a write change its EN. -/
def ringCfgMapped (r : RingId) : Bool :=
  decide ((ringBase r + 8) / 0x1000 ≠ pSilt) && (regDef (ringBase r + 8)).any (fun d => d.mask.testBit 0)

theorem ringCfgMapped_of_ok {r : RingId} (h : ringOk r = true) : ringCfgMapped r = true := by
  have hblocks : ∀ p : HostPort, ∀ k < 32, ringCfgMapped (.tx p k) = true ∧ ringCfgMapped (.rx p k) = true := by
    intro p
    cases p <;> decide
  cases r with
  | tx p k =>
    obtain ⟨htx, -⟩ := hblocks p k (of_decide_eq_true h)
    exact htx
  | rx p k =>
    obtain ⟨-, hrx⟩ := hblocks p k (of_decide_eq_true h)
    exact hrx
  | la p x => cases p <;> cases x <;> decide
  | tue p => cases p <;> decide
  | upd => decide

/-- A bit that the map lets a write change reads as written (R6). -/
theorem bit_newVal {s : State} {a i : Nat} {v : Word} (h : (regDef a).any (fun d => d.mask.testBit i) = true)
    (hi : i < 32) : bit (newVal s a v).toNat i = bit v.toNat i := by
  cases hd : regDef a with
  | none => simp [newVal, hd]
  | some d =>
    have hm : d.mask.testBit i = true := by simpa [hd] using h
    have hmask : (w32 d.mask).getLsbD i = true := by rw [w32, BitVec.getLsbD_ofNat, hm, decide_eq_true hi]; rfl
    simp only [newVal, hd, bit, BitVec.testBit_toNat, BitVec.getLsbD_or, BitVec.getLsbD_and, BitVec.getLsbD_not,
      hmask, Bool.not_true, Bool.and_false, Bool.false_or, Bool.and_true]

/-- EN of a ring reads as written. -/
theorem ringEn_newVal {s : State} {r : RingId} {v : Word} (hr : ringOk r = true) :
    bit (newVal s (ringBase r + 8) v).toNat 0 = bit v.toNat 0 := by
  obtain ⟨-, hen⟩ := Bool.and_eq_true_iff.1 (ringCfgMapped_of_ok hr)
  exact bit_newVal hen (by decide)

theorem ringCfg_page {r : RingId} (hr : ringOk r = true) : (ringBase r + 8) / 0x1000 ≠ pSilt := by
  obtain ⟨hpage, -⟩ := Bool.and_eq_true_iff.1 (ringCfgMapped_of_ok hr)
  exact of_decide_eq_true hpage

/-- R70: an accepted write of CFG with EN = 1 starts a ring that stands disabled. -/
theorem ringCfgTaken_starts {s : State} {w : Who} {r : RingId} {v : Word} (hr : ringOk r = true)
    (hv : bit v.toNat 0 = true) (he : ringEn s r = false) :
    ringCfgTaken s w r v = ringStarts (plainWrite s w (ringBase r + 8) v) r := by
  simp only [ringCfgTaken, ringEn_newVal hr, hv, he, if_true, Bool.false_eq_true, if_false, plainWrite]

/-- R70: an accepted write of CFG with EN = 0 stops a ring that stands enabled. -/
theorem ringCfgTaken_stops {s : State} {w : Who} {r : RingId} {v : Word} (hr : ringOk r = true)
    (hv : bit v.toNat 0 = false) (he : ringEn s r = true) :
    ringCfgTaken s w r v = ringStops (plainWrite s w (ringBase r + 8) v) r := by
  simp only [ringCfgTaken, ringEn_newVal hr, hv, he, if_true, Bool.false_eq_true, if_false, plainWrite]

/-- Clearing bit `i` leaves the field below it. -/
theorem fld_clrBit_low (w : Word) {i : Nat} (hi : i < 32) : fld (clrBit w i) 0 i = fld w 0 i := by
  simp only [fld, bits, Nat.shiftRight_zero]
  refine Nat.eq_of_testBit_eq fun j => ?_
  rw [Nat.testBit_mod_two_pow, Nat.testBit_mod_two_pow]
  by_cases hj : j < i
  · have hb := bit_clrBit (w := w) (j := j) hi
    rw [bit, bit, decide_eq_true (Nat.ne_of_lt hj), Bool.true_and] at hb
    rw [hb]
  · rw [decide_eq_false hj, Bool.false_and, Bool.false_and]

/-- A plain write changes nothing of what rings keep beside their registers. -/
theorem plainWrite_rings (s : State) (w : Who) (a : Nat) (v : Word) : (plainWrite s w a v).rings = s.rings :=
  logReg_rings ..

/-- R70, R72: a ring that starts has the CFG as written with DRAINED clear, and is in the first pass of its completion
ring; what is in flight stays. -/
theorem ringStarts_shows {s : State} {w : Who} {r : RingId} {v : Word} (hr : ringOk r = true) :
    let t := ringStarts (plainWrite s w (ringBase r + 8) v) r
    t.fld (ringBase r + 8) 0 31 = fld (newVal s (ringBase r + 8) v) 0 31 ∧ t.bitAt (ringBase r + 8) 31 = false ∧
      t.ring r = { s.ring r with count := 0, timer := none, due := false, written := 0, draining := false } ∧
      RegsBut [ringBase r + 8] [pSilt] s t := by
  have hpg := ringCfg_page hr
  have hcfg : (plainWrite s w (ringBase r + 8) v).reg (ringBase r + 8) = newVal s (ringBase r + 8) v :=
    (reg_plainWrite hpg).trans (if_pos rfl)
  refine ⟨?_, ?_, ?_, fun b hb hbp => ?_⟩
  · simp only [State.fld, ringStarts, setRing_reg, reg_setBitAt, if_true, hcfg, Bool.false_eq_true, if_false]
    exact fld_clrBit_low _ (by decide)
  · rw [ringStarts, setRing_bitAt, bitAt_setBitAt (by decide), if_pos ⟨rfl, rfl⟩]
  · rw [ringStarts, ring_setRing_same, ring_congr (plainWrite_rings s w _ v)]
  · have hne : ringBase r + 8 ≠ b := by simpa [eq_comm] using hb
    rw [ringStarts, setRing_reg, reg_setBitAt, if_neg hne, reg_plainWrite (by simpa using hbp), if_neg hne]

/-- R70: a ring that stops has the CFG as written, and drains. -/
theorem ringStops_shows {s : State} {w : Who} {r : RingId} {v : Word} (hr : ringOk r = true) :
    let t := ringStops (plainWrite s w (ringBase r + 8) v) r
    t.reg (ringBase r + 8) = newVal s (ringBase r + 8) v ∧ (t.ring r).draining = true ∧
      RegsBut [ringBase r + 8] [pSilt] s t := by
  obtain ⟨hdrain, hregs⟩ := ringStops_drains (plainWrite s w (ringBase r + 8) v) r
  refine ⟨?_, hdrain, fun b hb hbp => ?_⟩
  · rw [hregs, reg_plainWrite (ringCfg_page hr), if_pos rfl]
  · rw [hregs, reg_plainWrite (by simpa using hbp), if_neg (by simpa [eq_comm] using hb)]

/-! ### Commands of the rings and of the links -/

/-- HOST_LINK_DOWN of an awake unit. -/
theorem exec_hostLinkDown {s : State} (h : HostPort) (ha : asleep s.mode = false) :
    exec (.hostLinkDown h) s = .next (hostLinkGone s h) :=
  congrArg _ (whenever_true (by rw [ha]; rfl))

/-- HOST_LINK_UP of an awake unit. -/
theorem exec_hostLinkUp {s : State} {h : HostPort} {speed width : Nat} (hk : hostLinkOk speed width = true)
    (ha : asleep s.mode = false) : exec (.hostLinkUp h speed width) s =
      .next (s.setReg (regAddr (pHif h 0) 0x040) (w32 (speed + width * 16 + 0x100))) :=
  (ifWf_true hk).trans (congrArg _ (whenever_true (by rw [ha]; rfl)))

/-- RING_ENABLE that passes the checks. -/
theorem exec_ringEnable {s : State} {w : Who} {r : RingId} {v : Word} (hr : ringOk r = true)
    (hv : bit v.toNat 0 = true) (h : Passes s w (ringBase r + 8) v) :
    exec (.ringEnable w r v) s = .next (ringCfgTaken s w r v) :=
  (ifWf_true (by rw [hr, hv]; rfl)).trans (congrArg _ (write_passes h))

/-- RING_DISABLE that passes the checks. -/
theorem exec_ringDisable {s : State} {w : Who} {r : RingId} {v : Word} (hr : ringOk r = true)
    (hv : bit v.toNat 0 = false) (h : Passes s w (ringBase r + 8) v) :
    exec (.ringDisable w r v) s = .next (ringCfgTaken s w r v) :=
  (ifWf_true (by rw [hr, hv]; rfl)).trans (congrArg _ (write_passes h))

/-- RING_DRAINED of a ring that drains and has nothing in flight. -/
theorem exec_ringDrained {s : State} {r : RingId} (hr : ringOk r = true) (hd : (s.ring r).draining = true)
    (hi : ringIdle s r = true) : exec (.ringDrained r) s = .next (ringDrains s r) :=
  (ifWf_true hr).trans (congrArg _ (whenever_true (by rw [hd, hi]; rfl)))

/-- R70: a drained ring has HEAD at TAIL and DRAINED set. -/
theorem ringDrains_shows (s : State) (r : RingId) :
    let t := ringDrains s r
    t.fld (ringBase r + 0x18) 0 12 = s.fld (ringBase r + 0x14) 0 12 ∧ t.bitAt (ringBase r + 8) 31 = true ∧
      (t.ring r).draining = false ∧ RegsBut [ringBase r + 0x18, ringBase r + 8] [] s t := by
  refine ⟨?_, ?_, by rw [ringDrains, ring_setRing_same], fun b hb _ => ?_⟩
  · have htail : s.fld (ringBase r + 0x14) 0 12 < 2 ^ 12 := fld_lt ..
    simp only [State.fld, ringDrains, setRing_reg, reg_setBitAt]
    rw [if_neg (by omega), ← State.fld, ← State.fld, fld_setFld_same (by decide), Nat.mod_eq_of_lt htail]
  · rw [ringDrains, setRing_bitAt, bitAt_setBitAt (by decide), if_pos ⟨rfl, rfl⟩]
  · simp only [List.mem_cons, List.not_mem_nil, or_false, not_or] at hb
    obtain ⟨h18, h8⟩ := hb
    rw [ringDrains, setRing_reg, reg_setBitAt, if_neg (Ne.symm h8), reg_setFld, if_neg (Ne.symm h18)]

/-- Settles O21: the link of a host, then each command of a ring. -/
theorem hostLinksAndRings : Obligations.HostLinksAndRings := by
  unfold Obligations.HostLinksAndRings
  refine ⟨⟨fun s h ha => exec_hostLinkDown h ha, fun s h speed width hk ha => exec_hostLinkUp hk ha⟩,
    ⟨fun s w r v hr hv he h => ?_, fun s w r v hr hv he h => ?_⟩, fun s r hr hd hi => ?_, fun s w r v hr h => ?_⟩
  · obtain ⟨hcfg, hdrained, hring, hregs⟩ := ringStarts_shows (s := s) (w := w) (v := v) hr
    refine ⟨_, (exec_ringEnable hr hv h).trans (congrArg _ (ringCfgTaken_starts hr hv he)), hcfg, hdrained, ?_⟩
    rw [hring]
    exact ⟨rfl, rfl, rfl, rfl, hregs⟩
  · exact ⟨_, (exec_ringDisable hr hv h).trans (congrArg _ (ringCfgTaken_stops hr hv he)), ringStops_shows hr⟩
  · exact ⟨_, exec_ringDrained hr hd hi, ringDrains_shows s r⟩
  · exact (ifWf_true hr).trans (congrArg _ (write_passes h))

end Sys2Proof.Proofs
end

section
/-!
Requests of the command mailbox (R73, R74): the response, the requests that change the mode (R522, R534), the light
tests (Table 16-9) and a checkpoint of the Silt Log (R77).
-/
namespace Sys2Proof.Proofs
open Sys2Proof Sys2Proof.Machine Sys2Proof.Laws

/-! ### The response (R73) -/

/-- Response bytes lie in the response area: no register of another page changes. -/
theorem reg_putRsp {h : HostPort} {bs : List Byte} {i a : Nat} (s : State) (hi : i + bs.length ≤ 0x100)
    (ha : a / 0x1000 ≠ pHif h 3) : (putRsp h i bs s).reg a = s.reg a := by
  induction bs generalizing i s with
  | nil => rfl
  | cons b bs ih =>
    rw [List.length_cons] at hi
    have hne : aMbx h (0x200 + i / 4 * 4) ≠ a := by
      rintro rfl
      exact ha (regAddr_page (by omega))
    rw [putRsp, ih _ (by omega), reg_setFld, if_neg hne]

/-- The state in which the response stands and DONE is set in place of BUSY. -/
def responseWritten (s : State) (h : HostPort) (st : Nat) (b : List Byte) : State :=
  let u := putRsp h 0 (mbxBytes s h 0 6 ++ [b8 st, 0] ++ b) s
  u.setReg (aMbx h 0x044) (putFld (u.reg (aMbx h 0x044)) 0 2 2)

/-- The registers and the order after a response: the interrupt changes neither. -/
theorem mbxRespond_regs (s : State) (h : HostPort) (st : Nat) (b : List Byte) :
    (mbxRespond s h st b).regs = (responseWritten s h st b).regs := by
  rw [mbxRespond, sendVec_regs]
  rfl

theorem mbxRespond_mbx (s : State) (h : HostPort) (st : Nat) (b : List Byte) :
    (mbxRespond s h st b).mbx = s.mbx.filter (fun x => x != h) := by
  have hframe : Frm 8 s (responseWritten s h st b) := fr_State_setReg rfl (fr_putRsp rfl frm_refl)
  have hkept : (responseWritten s h st b).mbx = s.mbx := hframe.mbx.resolve_left (by decide)
  rw [mbxRespond, sendVec_mbx, ← hkept]
  rfl

/-- After a response DONE is set and BUSY clear. -/
theorem mbxRespond_done (s : State) (h : HostPort) (st : Nat) (b : List Byte) :
    (mbxRespond s h st b).fld (aMbx h 0x044) 0 2 = 2 := by
  rw [fld_eq, reg_congr (mbxRespond_regs s h st b), responseWritten, reg_setReg, if_pos rfl]
  exact fld_putFld_same (by decide)

theorem length_mbxBytes (s : State) (h : HostPort) (o n : Nat) : (mbxBytes s h o n).length = n := by
  rw [mbxBytes, List.length_map, List.length_range]

theorem length_leBytes (n v : Nat) : (leBytes n v).length = n := by
  induction n generalizing v with
  | zero => rfl
  | succ n ih => rw [leBytes, List.length_cons, ih]

/-- A response that fits the response area changes registers of the mailbox's page only. -/
theorem reg_mbxRespond {h : HostPort} {a : Nat} (s : State) (st : Nat) {b : List Byte} (hb : b.length ≤ 0xF8)
    (ha : a / 0x1000 ≠ pHif h 3) : (mbxRespond s h st b).reg a = s.reg a := by
  have hlen : 0 + (mbxBytes s h 0 6 ++ [b8 st, 0] ++ b).length ≤ 0x100 := by
    simp only [List.length_append, length_mbxBytes, List.length_cons, List.length_nil]
    omega
  have hne : aMbx h 0x044 ≠ a := by
    rintro rfl
    exact ha (regAddr_page (by decide))
  rw [reg_congr (mbxRespond_regs s h st b), responseWritten, reg_setReg, if_neg hne, reg_putRsp s hlen ha]

@[simp] theorem mbxRespond_mode (s : State) (h : HostPort) (st : Nat) (b : List Byte) :
    (mbxRespond s h st b).mode = s.mode :=
  (fr_mbxRespond (Nat.or_self _) frm_refl).mode.resolve_left (by decide)

@[simp] theorem mbxRespond_power (s : State) (h : HostPort) (st : Nat) (b : List Byte) :
    (mbxRespond s h st b).power = s.power :=
  (fr_mbxRespond (Nat.or_self _) frm_refl).power.resolve_left (by decide)

@[simp] theorem mbxRespond_free (s : State) (h : HostPort) (st : Nat) (b : List Byte) :
    (mbxRespond s h st b).free = s.free :=
  (fr_mbxRespond (Nat.or_self _) frm_refl).free.resolve_left (by decide)

/-- INFO's response, with one free value for its payload. -/
theorem info_shows (s : State) (h : HostPort) :
    let t := info s h
    t.fld (aMbx h 0x044) 0 2 = 2 ∧ t.mbx = s.mbx.filter (fun x => x != h) ∧ t.free = s.free + 1 ∧
      ∀ a, a / 0x1000 ≠ pHif h 3 → t.reg a = s.reg a := by
  let b := leBytes 248 (Config.freeNat s.free)
  exact ⟨mbxRespond_done s h 0 b, mbxRespond_mbx s h 0 b, congrArg (· + 1) (mbxRespond_free s h 0 b),
    fun a ha => reg_mbxRespond s 0 (Nat.le_of_eq (length_leBytes 248 _)) ha⟩

/-! ### Requests that are served (R74, R535, R589) -/

/-- The request of a host with an opcode and its length is the next one, and the mode serves it. -/
structure RequestServed (s : State) (h : HostPort) (op len : Nat) : Prop where
  front : mbxFront s h op = true
  notQuarantine : s.mode ≠ .quarantine
  notBoot : s.mode ≠ .boot
  awake : asleep s.mode = false
  length : mbxLen s h = len

theorem RequestServed.serves {s : State} {h : HostPort} {op len : Nat} (hs : RequestServed s h op len)
    (act : State → State) : mbxServe s h op len act = act s :=
  mbxServe_serves hs.front hs.notBoot hs.notQuarantine hs.awake hs.length

theorem exec_info {s : State} {h : HostPort} (hs : RequestServed s h 1 0) : exec (.info h) s = .next (info s h) :=
  congrArg _ (hs.serves _)

/-- R74: TEST_REQ of light tests, with no test running. -/
theorem exec_testReq_light {s : State} {h : HostPort} (hs : RequestServed s h 3 2) (hb : s.faults.testBusy = false)
    (ht : mbxByte s h 8 % 4 = 0) : exec (.testReq h) s = .next
      (mbxRespond (lightTests s (mbxByte s h 8)).1 h 0 [b8 (lightTests s (mbxByte s h 8)).2]) := by
  show Host.Outcome.next (testReq s h) = _
  rw [testReq, if_neg (fun hboot => hs.notBoot hboot.1), hs.serves, testRun, hb, if_neg (by decide), if_pos ht]

/-- SILT_CHECKPOINT of a unit that holds the DIK and whose second pair runs. -/
theorem exec_siltCheckpoint {s : State} {h : HostPort} (hs : RequestServed s h 7 0)
    (hk : keyValid (s.keySlot 0) = true) (hp : pairOk s true = true) :
    exec (.siltCheckpoint h) s = .next (mbxRespond (checkpointNow s) h 0 []) := by
  show Host.Outcome.next (mbxServe s h 7 0 _) = _
  rw [hs.serves, whenever_true (by rw [mayCheckpoint, hk, hp]; rfl)]

/-! ### MODE_REQ (R522, R534) -/

section ModeReq
variable {s : State} {h : HostPort} (hs : RequestServed s h 2 2) (he : s.power.entry = none)
include hs he

/-- A MODE_REQ of a TARGET acts where no sleep entry is in progress. -/
theorem modeReq_acts {n : Nat} (hn : mbxByte s h 8 = n) (h1 : 1 ≤ n) (h5 : n ≤ 5) (act : State → State) :
    modeReq n s h act = act s := by
  rw [modeReq, hs.serves, hn, if_neg (by omega), if_neg (fun hne => hne rfl), he, Option.isSome_none,
    if_neg (by decide)]

theorem exec_modeReqSleep (deep : Bool) (hn : mbxByte s h 8 = if deep then 2 else 1) :
    exec (if deep then .modeReqSleepDeep h else .modeReqSleepRetain h) s = .next (sleepReq s h deep) := by
  cases deep
  · exact congrArg _ (modeReq_acts hs he hn (by decide) (by decide) _)
  · exact congrArg _ (modeReq_acts hs he hn (by decide) (by decide) _)

theorem exec_modeReqService (hn : mbxByte s h 8 = 3) : exec (.modeReqService h) s = .next (serviceReq s h) :=
  congrArg _ (modeReq_acts hs he hn (by decide) (by decide) _)

theorem exec_modeReqRun (hn : mbxByte s h 8 = 5) : exec (.modeReqRun h) s = .next (runReq s h) :=
  congrArg _ (modeReq_acts hs he hn (by decide) (by decide) _)

/-- PWR itself serves RESET. -/
theorem exec_modeReqReset (hn : mbxByte s h 8 = 4) : exec (.modeReqReset h) s = .next (resetReq s h) := by
  have hopen : ¬ ((!mbxFront s h 2) = true ∨ asleep s.mode = true) := by
    rw [hs.front, hs.awake]
    decide
  have hlen : ¬ mbxBadLen s h 2 = true := by
    rw [mbxBadLen, hs.length]
    decide
  show Host.Outcome.next (modeReset s h) = _
  rw [modeReset, if_neg hopen, if_neg (fun hq => hs.notQuarantine hq.1), if_neg hlen, hn, if_neg (by decide),
    if_neg (by decide), he, Option.isSome_none, if_neg (by decide)]

end ModeReq

/-- Table 17-3, row 0: a SLEEP request that R522 does not refuse starts the entry; the mode stays until its end. -/
theorem sleepReq_starts {s : State} {h : HostPort} {deep : Bool}
    (hr : sleepRefusal s deep (bit (mbxByte s h 9) 0) = 0) :
    (sleepReq s h deep).power.entry =
        some { deep := deep, at_ := s.cclk, stage := .responded, by_ := masterId (hostMaster h) } ∧
      (sleepReq s h deep).mode = s.mode := by
  simp only [sleepReq, hr, sleepStarts, silt__power, silt__mode, mbxRespond_power, mbxRespond_mode, and_self]

/-- R522: SERVICE from CONFIGURE, with role NONE. -/
theorem serviceReq_configure {s : State} {h : HostPort} (hm : s.mode = .configure) :
    (serviceReq s h).mode = .service ∧ (serviceReq s h).twin.role = .none := by
  rw [serviceReq, if_pos (.inl hm), enterService, setMode_twin]
  exact ⟨setMode_mode .., rfl⟩

/-- R534: RUN of a unit that waits for it in CONFIGURE. -/
theorem runReq_runs {s : State} {h : HostPort} (hm : s.mode = .configure) (hw : s.power.runWait = true) :
    (runReq s h).power = { s.power with runWait := false, configured := true } ∧ (runReq s h).mode = s.mode := by
  rw [runReq, if_pos ⟨hm, hw⟩, mbxRespond_power, mbxRespond_mode]
  exact ⟨rfl, rfl⟩

/-- Settles O23: each request is served, then what it does. -/
theorem mailboxRequests : Obligations.MailboxRequests := by
  unfold Obligations.MailboxRequests
  refine ⟨fun s h hf hq hb ha hl => ⟨_, exec_info ⟨hf, hq, hb, ha, hl⟩, info_shows s h⟩,
    fun s h hf hq hb ha hl he => ?_,
    fun s h hf hq hb ha hl hbusy ht => exec_testReq_light ⟨hf, hq, hb, ha, hl⟩ hbusy ht,
    fun s h hf hq hb ha hl hk hp => exec_siltCheckpoint ⟨hf, hq, hb, ha, hl⟩ hk hp⟩
  have hs : RequestServed s h 2 2 := ⟨hf, hq, hb, ha, hl⟩
  refine ⟨fun deep hn hr => ?_, fun hn hm => ?_, fun hn => ?_, fun hn hm hw => ?_⟩
  · exact ⟨_, exec_modeReqSleep hs he deep hn, sleepReq_starts hr⟩
  · exact ⟨_, exec_modeReqService hs he hn, serviceReq_configure hm⟩
  · rw [exec_modeReqReset hs he hn, resetReq]
  · exact ⟨_, exec_modeReqRun hs he hn, runReq_runs hm hw⟩

end Sys2Proof.Proofs
end

section
/-!
Frames of a host (R63 to R69) and the interrupts of its rings (R72, R587): a TX ring takes a frame, the frame enters or
waits, launches and completes; the posted buffers of an RX ring take one; a ring sends its vector.
-/
namespace Sys2Proof.Proofs
open Sys2Proof Sys2Proof.Machine Sys2Proof.Laws

/-! ### A TX ring takes a frame (R63, R64) -/

/-- R64: a frame as its ring takes it. -/
def takenFrame (s : State) (ds : List TxDesc) (bs : List Byte) : TxFrame :=
  { descs := ds, bytes := bs, waiting := false, frame := none, took := s.cclk }

section Taking
variable {s : State} {h : HostPort} {k : Nat} {ds : List TxDesc} {bs : List Byte} {fault : Bool}

theorem exec_txFrameEnter (hk : k < 32) (hf : txFrameOk ds bs fault = true) (hc : txCan s h k ds = true) :
    exec (.txFrameEnter h k ds bs fault) s = .next (txTakes s h k ds bs fault) :=
  (ifWf_true (by rw [decide_eq_true hk, hf]; rfl)).trans (congrArg _ (whenever_true hc))

theorem exec_txFrameEnter_not (hk : k < 32) (hf : txFrameOk ds bs fault = true) (hc : txCan s h k ds = false) :
    exec (.txFrameEnter h k ds bs fault) s = .next s :=
  (ifWf_true (by rw [decide_eq_true hk, hf]; rfl)).trans (congrArg _ (whenever_false hc))

/-- R63: a frame outside the limits completes with its code. -/
theorem txTakes_outside (hl : txLimit ds ≠ 0) :
    txTakes s h k ds bs fault = txUnsent (ringTake s (.tx h k) ds.length) h k (txLimit ds) ds := by
  rw [txTakes]
  split
  case h_1 h0 => exact absurd h0 hl
  case h_2 => rfl

/-- A frame that could not be read completes with its error. -/
theorem txTakes_unread (hl : txLimit ds = 0) : txTakes s h k ds bs true =
    txUnsent ((ringTake s (.tx h k) ds.length).bump (regAddr (pHif h 0) 0x248)) h k 3 ds := by
  simp only [txTakes, hl, if_true]

/-- A frame within the limits that has been read is ready. -/
theorem txTakes_read (hl : txLimit ds = 0) :
    txTakes s h k ds bs false = txReady (ringTake s (.tx h k) ds.length) h k (takenFrame s ds bs) := by
  simp only [txTakes, hl, Bool.false_eq_true, if_false, takenFrame]

end Taking

/-! ### What the entry of a frame turns on -/

/-- Taking descriptors advances HEAD: only registers change. -/
theorem ringTake_rings (s : State) (r : RingId) (n : Nat) : (ringTake s r n).rings = s.rings := rfl
theorem ringTake_pb (s : State) (r : RingId) (n : Nat) : (ringTake s r n).pb = s.pb := rfl
theorem ringTake_fab (s : State) (r : RingId) (n : Nat) : (ringTake s r n).fab = s.fab := rfl
theorem ringTake_cclk (s : State) (r : RingId) (n : Nat) : (ringTake s r n).cclk = s.cclk := rfl

/-- Whether a launch position is ahead turns on the Phase Base alone. -/
theorem launchAhead_congr {s t : State} (h : t.pb = s.pb) (x : TxFrame) : launchAhead t x = launchAhead s x := by
  simp only [launchAhead, State.pos, h]

theorem launchReached_congr {s t : State} (h : t.pb = s.pb) (x : TxFrame) : launchReached t x = launchReached s x := by
  simp only [launchReached, launchAhead_congr h, State.pos, h]

/-- The frames that could enter turn on the rings and the Phase Base. -/
theorem txCandidates_congr {s t : State} (hr : t.rings = s.rings) (hp : t.pb = s.pb) (h : HostPort) :
    txCandidates t h = txCandidates s h := by
  have hfirst (k tc : Nat) : txFirst t h k tc = txFirst s h k tc := by
    simp only [txFirst, ring_congr hr, launchReached_congr hp]
  simp only [txCandidates, hfirst]

/-! ### A frame enters (R64, R65, R243) -/

/-- The frame of the data path that a TX frame is: from the host's port, with its bytes and TC. -/
def hostFrame (s : State) (h : HostPort) (k : Nat) (x : TxFrame) : Frame :=
  { portFrame s (hostPortNo h) 0 s.cclk with
    bytes := hostTxBytes x.bytes, tc := txTc x.descs, txRing := some (h == .b, k) }

/-- What shows that frame `n` is the one that a host gave: its bytes, port and TC, waiting for a parse processor. -/
def HostFrameIn (t : State) (h : HostPort) (n : Nat) (x : TxFrame) : Prop :=
  (t.frame n).bytes = hostTxBytes x.bytes ∧ (t.frame n).port = hostPortNo h ∧ (t.frame n).tc = txTc x.descs ∧
    (t.frame n).stage = .received

theorem launchLate_nextFrame (s : State) (h : HostPort) (x : TxFrame) : (launchLate s h x).nextFrame = s.nextFrame :=
  (fr_launchLate (Nat.or_self _) frm_refl).nextFrame.resolve_left (by decide)

theorem launchLate_rings (s : State) (h : HostPort) (x : TxFrame) : (launchLate s h x).rings = s.rings :=
  (fr_launchLate (Nat.or_self _) frm_refl).rings.resolve_left (by decide)

/-- A TX frame as it stands in flight once it has entered, with its number and the time of its entry. -/
def txEntered (s : State) (h : HostPort) (k : Nat) (x : TxFrame) : TxFrame :=
  let d := s.dom (s.fld (aPtp 0x040) 0 1)
  { x with waiting := false, frame := some s.nextFrame, sec := timeSec d.time, ns := timeNs d.time,
           lastAt := s.cclk + byteTime (hostFrame s h k x).mbps (hostTxBytes x.bytes).length }

theorem txEnters_eq (s : State) (h : HostPort) (k : Nat) (x : TxFrame) :
    txEnters s h k x = (enterPaced s (hostFrame s h k x), txEntered s h k x) := rfl

/-- A TX frame enters as the next frame, and is noted in flight under its number; the rings are as before. -/
theorem txEnters_shows (s : State) (h : HostPort) (k : Nat) (x : TxFrame) :
    let e := txEnters s h k x
    e.1.nextFrame = s.nextFrame + 1 ∧ HostFrameIn e.1 h s.nextFrame x ∧ e.1.rings = s.rings ∧
      e.2.frame = some s.nextFrame ∧ e.2.descs = x.descs ∧ e.2.waiting = false := by
  obtain ⟨-, hnext, hframe⟩ := enterPaced_shows s (hostFrame s h k x)
  have hrings : (enterPaced s (hostFrame s h k x)).rings = s.rings :=
    (fr_enterPaced (Nat.or_self _) frm_refl).rings.resolve_left (by decide)
  rw [txEnters_eq]
  refine ⟨hnext, ?_, hrings, rfl, rfl, rfl⟩
  rw [HostFrameIn, hframe]
  exact ⟨rfl, rfl, rfl, rfl⟩

theorem HostFrameIn.of_frames {s t : State} {h : HostPort} {n : Nat} {x : TxFrame} (hi : HostFrameIn s h n x)
    (hf : t.frames = s.frames) : HostFrameIn t h n x := by
  rw [HostFrameIn, frame_congr hf]
  exact hi

@[simp] theorem ring_addFlight (s : State) (h : HostPort) (k : Nat) (x : TxFrame) :
    ((addFlight s h k x).ring (.tx h k)).flight = (s.ring (.tx h k)).flight ++ [x] := by
  rw [addFlight, ring_setRing_same]

/-- A frame that has been read, and that nothing of its TC precedes, as it waits. -/
def txWaiting (s : State) (x : TxFrame) : TxFrame := { x with waiting := true, early := launchAhead s x }

theorem txWaiting_congr {s t : State} (h : t.pb = s.pb) (x : TxFrame) : txWaiting t x = txWaiting s x := by
  rw [txWaiting, launchAhead_congr h, txWaiting]

section Ready
variable {s : State} {h : HostPort} {k : Nat} {x : TxFrame}
  (hfirst : (s.ring (.tx h k)).flight.any (txWaits (txTc x.descs)) = false)
include hfirst

/-- R64, R65: such a frame enters when its position is reached, the pacer is open and no other frame could enter. -/
theorem txReady_enters (hl : launchReached s (txWaiting s x) = true) (ho : entryOpen s (hostPortNo h) = true)
    (hn : txCandidates s h = []) : txReady s h k x =
      let e := txEnters (launchLate s h (txWaiting s x)) h k (txWaiting s x)
      addFlight e.1 h k e.2 := by
  rw [txWaiting] at hl
  simp only [txReady, hfirst, Bool.false_eq_true, if_false, hl, ho, hn, List.isEmpty_nil, Bool.and_self, if_true,
    txWaiting]

/-- R65: it waits for a position that is ahead. -/
theorem txReady_waits (hl : launchReached s (txWaiting s x) = false) :
    txReady s h k x = addFlight s h k (txWaiting s x) := by
  rw [txWaiting] at hl
  simp only [txReady, hfirst, Bool.false_eq_true, if_false, hl, Bool.false_and, txWaiting]

end Ready

/-- What entering leaves: the host's frame as the next one, and it as the last in flight. -/
theorem txReady_enters_shows {s : State} {h : HostPort} {k : Nat} {x : TxFrame}
    (hfirst : (s.ring (.tx h k)).flight.any (txWaits (txTc x.descs)) = false)
    (hl : launchReached s (txWaiting s x) = true) (ho : entryOpen s (hostPortNo h) = true)
    (hn : txCandidates s h = []) :
    let t := txReady s h k x
    t.nextFrame = s.nextFrame + 1 ∧ HostFrameIn t h s.nextFrame x ∧
      ∃ y, (t.ring (.tx h k)).flight = (s.ring (.tx h k)).flight ++ [y] ∧ y.frame = some s.nextFrame ∧
        y.descs = x.descs ∧ y.waiting = false := by
  obtain ⟨hnext, hin, hrings, hframe, hdescs, hwait⟩ :=
    txEnters_shows (launchLate s h (txWaiting s x)) h k (txWaiting s x)
  rw [launchLate_nextFrame] at hnext hin hframe
  rw [txReady_enters hfirst hl ho hn]
  refine ⟨hnext, hin.of_frames rfl, _, ?_, hframe, hdescs, hwait⟩
  rw [ring_addFlight, ring_congr (hrings.trans (launchLate_rings ..))]

section Entering
variable {s : State} {h : HostPort} {k : Nat} {ds : List TxDesc} {bs : List Byte} (hlimit : txLimit ds = 0)
  (hfirst : (s.ring (.tx h k)).flight.any (txWaits (txTc ds)) = false)
include hlimit hfirst

/-- A frame that is taken enters at once: HEAD, which its descriptors advance, is nothing that the entry turns on. -/
theorem txTakes_enters (hl : launchReached s (txWaiting s (takenFrame s ds bs)) = true)
    (ho : entryOpen s (hostPortNo h) = true) (hn : txCandidates s h = []) :
    let t := txTakes s h k ds bs false
    t.nextFrame = s.nextFrame + 1 ∧ HostFrameIn t h s.nextFrame (takenFrame s ds bs) ∧
      ∃ y, (t.ring (.tx h k)).flight = (s.ring (.tx h k)).flight ++ [y] ∧ y.frame = some s.nextFrame ∧
        y.descs = ds ∧ y.waiting = false := by
  rw [txTakes_read hlimit]
  exact txReady_enters_shows (s := ringTake s (.tx h k) ds.length) (x := takenFrame s ds bs) hfirst
    (by rw [txWaiting_congr (ringTake_pb ..), launchReached_congr (ringTake_pb ..), hl])
    ((entryOpen_congr (ringTake_fab ..) (ringTake_cclk ..) _).trans ho)
    ((txCandidates_congr (ringTake_rings ..) (ringTake_pb ..) h).trans hn)

/-- R65: a frame that is taken waits for its launch position. -/
theorem txTakes_waits (hl : launchReached s (txWaiting s (takenFrame s ds bs)) = false) :
    let t := txTakes s h k ds bs false
    (t.ring (.tx h k)).flight = (s.ring (.tx h k)).flight ++ [txWaiting s (takenFrame s ds bs)] ∧
      t.nextFrame = s.nextFrame ∧ t.out = s.out := by
  rw [txTakes_read hlimit, txReady_waits (s := ringTake s (.tx h k) ds.length) (x := takenFrame s ds bs) hfirst
    (by rw [txWaiting_congr (ringTake_pb ..), launchReached_congr (ringTake_pb ..), hl])]
  refine ⟨?_, rfl, rfl⟩
  rw [ring_addFlight, txWaiting_congr (ringTake_pb ..), ring_congr (ringTake_rings ..)]

end Entering

/-! ### A frame launches (R65) -/

theorem exec_txLaunch {s : State} {h : HostPort} {k tc : Nat} (hk : k < 32) (ht : tcOk tc = true) :
    exec (.txLaunch h k tc) s = .next (txLaunches k tc s h) :=
  ifWf_true (by rw [decide_eq_true hk, ht]; rfl)

theorem txLaunches_not {s : State} {h : HostPort} {k tc : Nat}
    (hn : txFirst s h k tc = none ∨ entryOpen s (hostPortNo h) = false) : txLaunches k tc s h = s := by
  rw [txLaunches]
  split
  · rfl
  · rename_i x hx
    exact if_neg (by simpa [hx] using hn)

theorem txLaunches_goes {s : State} {h : HostPort} {k tc : Nat} {x : TxFrame} (hx : txFirst s h k tc = some x)
    (ho : entryOpen s (hostPortNo h) = true) : txLaunches k tc s h = txGo s h k tc x := by
  rw [txLaunches, hx]
  exact if_pos ho

/-- The frame that goes is the next one, and stands in flight under its number. -/
theorem txGo_shows (s : State) (h : HostPort) (k tc : Nat) (x : TxFrame) :
    let t := txGo s h k tc x
    t.nextFrame = s.nextFrame + 1 ∧ HostFrameIn t h s.nextFrame x ∧
      ∃ y ∈ (t.ring (.tx h k)).flight, y.frame = some s.nextFrame ∧ y.descs = x.descs ∧ y.waiting = false := by
  obtain ⟨hnext, hin, -, hframe, hdescs, hwait⟩ := txEnters_shows (launchLate s h x) h k x
  rw [launchLate_nextFrame] at hnext hin hframe
  refine ⟨hnext, hin.of_frames rfl, (txEnters (launchLate s h x) h k x).2, ?_, hframe, hdescs, hwait⟩
  simp only [txGo, ring_setRing_same]
  exact List.mem_append_right _ List.mem_cons_self

/-! ### A frame completes (R66) -/

theorem exec_txCompletion {s : State} {h : HostPort} {k n : Nat} (hk : k < 32) (hn : n < 8) :
    exec (.txCompletion h k n) s = .next (txFinishes s h k n) :=
  ifWf_true (by rw [decide_eq_true hk, decide_eq_true hn]; rfl)

section Finishing
variable {s : State} {h : HostPort} {k n : Nat} {x : TxFrame} {dropped : Bool}
  (hx : (s.ring (.tx h k)).flight[n]? = some x) (hv : x.verdict = some dropped)
include hx hv

theorem txFinishes_not (hl : s.cclk < x.lastAt) : txFinishes s h k n = s := by
  simp only [txFinishes, hx, hv, if_pos hl]

/-- R66: a frame that was read whole and has its verdict leaves its ring with a completion. -/
theorem txFinishes_shows (hl : x.lastAt ≤ s.cclk) :
    let t := txFinishes s h k n
    (t.ring (.tx h k)).flight = (s.ring (.tx h k)).flight.eraseIdx n ∧
      (t.ring (.tx h k)).count = (s.ring (.tx h k)).count + 1 ∧
      (t.ring (.tx h k)).written = (s.ring (.tx h k)).written + 1 ∧ RegsBut [] [] s t ∧
      t.out = .hostWrite h
        (s.pair (ringBase (.tx h k) + 0x0C) + 16 * ((s.ring (.tx h k)).written % ringSize s (.tx h k)))
        (dmaCompletion (txTag x.descs) k (b2n dropped) x.bytes.length 0 x.flags x.ns x.sec x.epoch
          (decide ((s.ring (.tx h k)).written / ringSize s (.tx h k) % 2 = 0))) :: s.out := by
  simp only [txFinishes, hx, hv, if_neg (Nat.not_lt.mpr hl), ringComplete, ringCounted, ring_setRing_same, emit_ring,
    true_and]
  exact ⟨fun _ _ _ => rfl, rfl⟩

end Finishing

/-! ### RX frames (R67 to R69) -/

theorem exec_rxFrameDma {s : State} {h : HostPort} {bufs : List RxDesc} {fault : Bool}
    (hf : bufs.all rxDescFits = true) :
    exec (.rxFrameDma h bufs fault) s = .next (rxDma (rxBuffers s bufs).1 h (rxBuffers s bufs).2 fault) :=
  ifWf_true hf

/-- Buffers whose descriptors keep the rules are used as posted, without a free value. -/
theorem rxBuffers_ok (s : State) {bufs : List RxDesc} (h : bufs.all rxDescOk = true) :
    rxBuffers s bufs = (s, bufs) := by
  have hok : ∀ d ∈ bufs, rxDescOk d = true := List.all_eq_true.1 h
  have hnone : bufs.filter (fun d => !rxDescOk d) = [] :=
    List.filter_eq_nil_iff.2 fun d hd => by rw [hok d hd]; decide
  have hsame : bufs.mapIdx (fun i d =>
      rxBuffer (s.free + 2 * ((bufs.take i).filter (fun d => !rxDescOk d)).length) d) = bufs := by
    refine List.ext_getElem (by rw [List.length_mapIdx]) fun i _ hi => ?_
    rw [List.getElem_mapIdx]
    exact if_pos (hok _ (List.getElem_mem hi))
  rw [rxBuffers, hsame, hnone]
  rfl

theorem rxNeed_pos (x : RxWait) : 0 < rxNeed x := Nat.add_pos_left (by decide) _

section Receiving
variable {s : State} {h : HostPort} {k : Nat} {x : RxWait} {rest : List RxWait} {fault : Bool}
  (hk : rxNext s h = some k) (hw : (s.ring (.rx h k)).rxWait = x :: rest)
include hk hw

/-- R68: a frame of a ring that is not enabled is dropped and counted. -/
theorem rxDma_disabled (he : ringEn s (.rx h k) = false) : rxDma s h [] fault =
    (s.setRing (.rx h k) { s.ring (.rx h k) with rxWait := rest }).bump (regAddr (pHif h 0) 0x240) := by
  simp only [rxDma, hk, hw, he, List.length_nil, List.foldl_nil, Nat.lt_irrefl, Bool.false_eq_true, if_false,
    if_neg (Nat.not_le.mpr (rxNeed_pos x))]

variable {bufs : List RxDesc} (he : ringEn s (.rx h k) = true)
include he

/-- R67: the posted buffers that a frame needs take it. -/
theorem rxDma_writes (hp : bufs.length ≤ ringPosted s (.rx h k)) (hr : rxNeed x ≤ bufs.foldl (fun n d => n + d.len) 0) :
    rxDma s h bufs fault =
      rxWrites (s.setRing (.rx h k) { s.ring (.rx h k) with rxWait := rest }) h k x bufs fault := by
  simp only [rxDma, hk, hw, he, if_true, if_neg (Nat.not_lt.mpr hp), if_pos hr]

/-- R68: a frame that all posted buffers do not hold is dropped and counted. -/
theorem rxDma_short (hp : bufs.length = ringPosted s (.rx h k)) (hr : bufs.foldl (fun n d => n + d.len) 0 < rxNeed x) :
    rxDma s h bufs fault =
      (s.setRing (.rx h k) { s.ring (.rx h k) with rxWait := rest }).bump (regAddr (pHif h 0) 0x240) := by
  simp only [rxDma, hk, hw, he, if_true, hp, Nat.lt_irrefl, if_false, if_neg (Nat.not_le.mpr hr)]

end Receiving

/-! ### Interrupts (R72, R587) -/

theorem exec_ringInterrupt {s : State} {r : RingId} (hr : ringOk r = true) :
    exec (.ringInterrupt r) s = .next (whenever (s.ring r).due s (ringVector s r)) :=
  ifWf_true hr

theorem exec_coalTimerExpire {s : State} {r : RingId} (hr : ringOk r = true) :
    exec (.coalTimerExpire r) s = .next (whenever (coalDue s r) s (ringVector s r)) :=
  ifWf_true hr

theorem coalDue_of_timer {s : State} {r : RingId} {n : Nat} (ht : (s.ring r).timer = some n) (hn : n ≤ s.cclk) :
    coalDue s r = true := by
  simp only [coalDue, ht, decide_eq_true hn]

theorem coalDue_of_none {s : State} {r : RingId} (ht : (s.ring r).timer = none) : coalDue s r = false := by
  simp only [coalDue, ht]

/-- R587: a vector that is not masked is sent. -/
theorem sendVec_sends {s : State} {h : HostPort} {v : Nat} (hm : (s.msix h).masked.getLsbD v = false) :
    s.sendVec h v = s.emit (.msix h v) := by
  simp only [State.sendVec, hm, Bool.false_eq_true, if_false]

/-- R587: a masked vector becomes pending. -/
theorem sendVec_pends {s : State} {h : HostPort} {v : Nat} (hm : (s.msix h).masked.getLsbD v = true) (hv : v < 64) :
    (s.sendVec h v).out = s.out ∧ ((s.sendVec h v).msix h).pend.getLsbD v = true := by
  simp only [State.sendVec, hm, if_true, setMsix_out, msix_setMsix, true_and]
  rw [BitVec.getLsbD_or, BitVec.getLsbD_ofNat, Nat.testBit_two_pow_self, decide_eq_true hv, Bool.and_self, Bool.or_true]

@[simp] theorem setRing_msix (s : State) (r : RingId) (x : RingRun) (h : HostPort) :
    (s.setRing r x).msix h = s.msix h := by
  cases h <;> rfl

/-- R72: a ring that raises its vector counts and times anew. -/
theorem ringVector_shows (s : State) (r : RingId) :
    let h := ringHost s r
    let v := s.fld (ringBase r + 8) 8 6
    let t := ringVector s r
    t.ring r = { s.ring r with count := 0, timer := none, due := false } ∧
      ((s.msix h).masked.getLsbD v = false → t.out = .msix h v :: s.out ∧ t.msix h = s.msix h) ∧
      ((s.msix h).masked.getLsbD v = true → t.out = s.out ∧ (t.msix h).pend.getLsbD v = true) ∧ t.regs = s.regs := by
  have hv : s.fld (ringBase r + 8) 8 6 < 64 := fld_lt ..
  refine ⟨?_, fun hm => ?_, fun hm => ?_, sendVec_regs ..⟩
  · rw [ringVector, ring_congr (sendVec_rings ..), ring_setRing_same]
  · rw [ringVector, sendVec_sends (by rwa [setRing_msix]), msix_emit, setRing_msix]
    exact ⟨rfl, rfl⟩
  · exact sendVec_pends (by rwa [setRing_msix]) hv

/-- Settles O22: a frame that is taken, launched, completed or received, and the vector of a ring, each by its cases. -/
theorem framesOfAHost : Obligations.FramesOfAHost := by
  unfold Obligations.FramesOfAHost
  refine ⟨⟨fun s h k ds bs fault hk hf => ⟨exec_txFrameEnter_not hk hf, fun hc => ⟨?_, ?_⟩⟩,
      fun s h k ds bs x hk hf hc hl hfirst hx => ?_, fun s h k tc hk ht => ⟨fun hn => ?_, fun x hx ho => ?_⟩,
      fun s h k n x dropped hk hn hx hv => ⟨fun hl => ?_, fun hl => ?_⟩⟩,
    ⟨fun s h k x rest fault hk hw he => ?_,
      fun s h k x rest bufs fault hf hok hk hw he => ⟨fun hp hr => ?_, fun hp hr => ?_⟩,
      fun s h bufs fault hf => exec_rxFrameDma hf⟩,
    fun s r c hr => ⟨?_, fun hd => ?_, fun ht => ?_⟩⟩
  · rintro st rfl hl
    rw [exec_txFrameEnter hk hf hc, txTakes_outside hl]
  · rintro hl rfl
    rw [exec_txFrameEnter hk hf hc, txTakes_unread hl]
  · have hexec := exec_txFrameEnter hk hf hc
    have hwaits : { x with early := launchAhead s x } = txWaiting s (takenFrame s ds bs) := by
      rw [hx]
      rfl
    rw [hwaits]
    refine ⟨fun hreached ho hn => ?_, fun hahead => ⟨_, hexec, txTakes_waits hl hfirst hahead⟩⟩
    obtain ⟨hnext, ⟨hbytes, hport, htc, hstage⟩, hflight⟩ := txTakes_enters hl hfirst hreached ho hn
    exact ⟨_, hexec, hnext, hbytes, hport, htc, hstage, hflight⟩
  · rw [exec_txLaunch hk ht, txLaunches_not hn]
  · obtain ⟨hnext, ⟨hbytes, hport, htc, hstage⟩, hflight⟩ := txGo_shows s h k tc x
    exact ⟨_, (exec_txLaunch hk ht).trans (congrArg _ (txLaunches_goes hx ho)), hnext, hbytes, hport, htc, hstage,
      hflight⟩
  · rw [exec_txCompletion hk hn, txFinishes_not hx hv hl]
  · exact ⟨_, exec_txCompletion hk hn, txFinishes_shows hx hv hl⟩
  · rw [exec_rxFrameDma rfl, rxBuffers_ok s rfl, rxDma_disabled hk hw he]
  · rw [exec_rxFrameDma hf, rxBuffers_ok s hok, rxDma_writes hk hw he hp hr]
  · rw [exec_rxFrameDma hf, rxBuffers_ok s hok, rxDma_short hk hw he hp hr]
  · rintro (⟨rfl, hd⟩ | ⟨rfl, n, ht, hn⟩)
    · exact ⟨_, (exec_ringInterrupt hr).trans (congrArg _ (whenever_true hd)), ringVector_shows s r⟩
    · exact ⟨_, (exec_coalTimerExpire hr).trans (congrArg _ (whenever_true (coalDue_of_timer ht hn))),
        ringVector_shows s r⟩
  · rw [exec_ringInterrupt hr, whenever_false hd]
  · rw [exec_coalTimerExpire hr, whenever_false (coalDue_of_none ht)]

end Sys2Proof.Proofs
end
